-- ==== Sys2Proof/Word.lean ====
section
/-! DEFINITION. The word types of the model and the plainest arithmetic on them. -/

namespace Sys2Proof

/-- A register of the chip: 32 bits (R10). -/
abbrev Word := BitVec 32

/-- A byte of memory. -/
abbrev Byte := BitVec 8

/-- A general register of a Plaza core, or a chip time (R345, R509). -/
abbrev DWord := BitVec 64

end Sys2Proof
end

