-- ==== Sys2Proof/Config.lean ====
section
/-! DEFINITION. What an implementation fixes (the member of the family) and the free values: constants without a body,
each standing for a value that the spec leaves open.  A claim that holds of the model holds for every value of them. -/

namespace Sys2Proof

/-- The members of the family (R7). -/
inductive Variant where
  | oac7208 | oac7208R | oac7204 | oac7202
deriving DecidableEq, Repr

namespace Config

/-- What an SRAM word holds: 8 bytes of TCM at an address, a part of a line at a place of the Arcade, or a part of a line at
a place of an L1 of a core (R395). -/
inductive SramPlace where
  | tcm (a : Nat)
  | arcade (place part : Nat)
  | l1d (core place part : Nat)
  | l1i (core place part : Nat)
deriving DecidableEq, Repr

/-- What a word of an SRAM macro holds, none where it is another unit's: the spec numbers the macros and does not say which is
which (R421). -/
opaque sramPlace : Nat → Nat → Option SramPlace

/-- The macro that holds a word of TCM or of a cache. -/
opaque sramMacro : SramPlace → BitVec 10

/-- MEMR_INFO of an SRAM macro: the spec says only 'per macro' (R421). -/
opaque memrInfo : Nat → Word

/-- The bytes of the boot ROM (R556: the spec gives what the ROM does and not its bytes). -/
opaque bootRom : Nat → Byte

/-- A 32-bit value that the spec does not state, numbered by the counter of free values. -/
opaque freeWord : Nat → Word

/-- The interpolator: from consecutive converter samples, the value at an instant in 2^-16 sample, in 1/256 LSB (R97 names the
interpolator and not its filter). -/
opaque interpolate : List Int → Nat → Int

/-- One less than the LSBs, in 1/256, of one unit of the equaliser's target (R106 gives the target's shape and not its level). -/
opaque levelUnit : Nat

/-- One less than the factor, in 2^-32, from a difference of squared errors in (1/256 LSB)^2 to a log-likelihood in 1/256: it stands
for the noise that R108 does not give. -/
opaque llrFactor : Nat

/-- The slow current correction of a sled's quiet mode, in microvolts, from the current reference and the coil current in mA: R304
names it and gives no law. -/
opaque sledCorrection : Int → Int → Int

/-- The version that a management record of a type carries: R91 gives the field and no value. -/
opaque recordVersion : Nat → BitVec 16

/-- The activate count at which the device of a rank of a staging channel asks for refresh management: the device's mode registers
hold it (R405). -/
opaque rfmThreshold : Nat → Nat → BitVec 16

end Config
end Sys2Proof
end

