-- ==== Sys2Proof/Syntax.lean ====
section
/-! DEFINITION. The commands that the block takes: `Instr`, one constructor for each row of spec/opcode_table.json in the
table's order, and the small types of their operands.  The table gives a row no operands and no bits, so the
operands are the model's own (assumption 1): the unit that is addressed, what an agent writes, and what the outside
world presents at the moment of an event (a sample, a voltage, a word read from host memory). -/

namespace Sys2Proof

/-! ### Who and where -/

/-- Head H0-H7 (R20). -/
abbrev Head := Fin 8

/-- Servo engine SE0-SE9. -/
abbrev Engine := Fin 10

/-- Plaza core P0-P3. -/
abbrev CoreId := Fin 4

/-- Read channel 4n + s: spot Bs of head Hn. -/
abbrev Chan := Fin 32

/-- Crossing 0-51 (R38). -/
abbrev XingId := Fin 52

/-- Roundabout 0-20, numbered as `rbtBase` of Machine/Layout.lean lists them. -/
abbrev RbtId := Fin 21

/-- Permit of a shared resource (R53, R573). -/
abbrev PermitId := Fin 22

/-- A staging channel 2n + c. -/
abbrev DramChan := Fin 4

/-- A control-class FIFO, numbered as `fifoBase` of Machine/Layout.lean lists them. -/
abbrev FifoId := Fin 14

/-- A host port. -/
abbrev Port := Fin 2

/-- A district that has an Avenue: 0 Control, 1 Data, 2 Side A, 3 Side B, 4 Power. -/
abbrev District := Fin 5

/-- The agents of R54, and a host: what it writes in BAR0 of its port comes through the host link and reaches no other
register (R426). -/
inductive Agent where
  | core (c : CoreId)
  | engine (k : Engine)
  | sweep
  | archive
  | hostLink
  | kerb
  | smbus
  | jtag
  | square
  | host (p : Port)
deriving DecidableEq, Repr

/-- The agent ID that the fabric's requester tag carries (R54). -/
def Agent.id : Agent → Nat
  | .core c => 0x01 + c.val
  | .engine k => 0x10 + k.val
  | .sweep => 0x20
  | .archive => 0x21
  | .hostLink => 0x22
  | .kerb => 0x30
  | .smbus => 0x31
  | .jtag => 0x32
  | .square => 0x3F
  | .host _ => 0x22

/-- The width of a bus access. -/
inductive Width where
  | b1 | b2 | b4 | b8
deriving DecidableEq, Repr

/-- The bytes of an access. -/
def Width.bytes : Width → Nat
  | .b1 => 1
  | .b2 => 2
  | .b4 => 4
  | .b8 => 8

/-! ### The fabric -/

/-- Why a request reaches a Roundabout: only servo engine fills and write-cell strategy fetches are marked urgent (R28). -/
inductive ReqKind where
  | ordinary | engineFill | strategyFetch
deriving DecidableEq, Repr

/-- One request at a Roundabout: the port it comes from, the port it names and its kind. -/
structure RbtRequest where
  port : Fin 16
  target : Fin 16
  kind : ReqKind
deriving DecidableEq, Repr

/-- One Roundabout on the path of a transfer, with the ports it enters and leaves by. -/
structure Hop where
  rbt : RbtId
  port : Fin 16
  target : Fin 16
deriving DecidableEq, Repr

/-- The writable registers of a Roundabout (R31). -/
inductive RbtReg where
  | cfg | wgt0 | wgt1
deriving DecidableEq, Repr

/-- The two sides of a Crossing (R38, R39). -/
inductive Side where
  | clocked | selfTimed
deriving DecidableEq, Repr

/-- The guarded registers of a control-class FIFO (R340). -/
inductive FifoReg where
  | baseLo | baseHi | cfg
deriving DecidableEq, Repr

/-! ### Read channels (03_read_channels.md) -/

/-- One wedge as it passes a spot: the converter samples around it, from 8 wu before the predicted start of WPRE to the end of
WGAP, with the chip time of the first, and the phase error that the timing loop measures on the splice after it, in 1/256 bit
(R105, R111 to R114). -/
structure WedgeObs where
  time : BitVec 64
  samples : List Int
  splice : Int
deriving DecidableEq, Repr

/-! ### Servo detectors (07_optical_servo_loops.md) -/

/-- Four conversions in a row of a head's servo detector: the chip time of the first, and for each of the eight signals its four
12-bit codes (R238, R239). -/
structure DetGroup where
  time : BitVec 64
  codes : List (List Nat)
deriving DecidableEq, Repr

/-- What the outside world gives a run: `ports` are the input ports that it presents (HEAD_TEMP and the two supply voltages of a
head engine, the shock samples of SE9), `det` the groups of detector conversions that have come since the run before (R211, R239). -/
structure RunInput where
  ports : List (Fin 32 × BitVec 32)
  det : List DetGroup
deriving DecidableEq, Repr

/-! ### Sector and tile protection (04_sector_and_tile_protection.md) -/

/-- A decoder slice (R144). -/
abbrev SliceId := Fin 40

/-- A span's SPAN_ID (R319). -/
abbrev SpanId := Fin 32

/-! ### Write cells (05_writing_and_write_guards.md) -/

/-- A guard comparator: focus, tracking, or shock input SHKk (R190). -/
inductive GuardSrc where
  | fe
  | te
  | shk (k : Fin 4)
deriving DecidableEq, Repr

/-- What a guard comparator sees: the four quadrants A to D in one unit, or the voltage of the shock input in uV (R190). -/
structure GuardInput where
  src : GuardSrc
  level : List Int
deriving DecidableEq, Repr

/-! ### Caches and staging memory (12_caches.md, 13_staging_memory.md) -/

/-- The two L1 caches of a core (R368). -/
inductive L1Cache where
  | instr | data
deriving DecidableEq, Repr

/-- Whose remap entries: a staging channel's, or an SRAM macro's (R413, R421). -/
inductive RemapAt where
  | dram (c : DramChan)
  | macro_ (m : Fin 1024)
deriving DecidableEq, Repr

/-- Who sends a request to the Arcade: a Plaza core's L1 caches and stores, the Street Index walker, the archive engine's catalogue
walker or the session and key store, the host link's contexts and queue state, or one that never allocates (R373). -/
inductive ArcFrom where
  | plaza (p : CoreId)
  | indexWalker | catalogueWalker | hostLink | other
deriving DecidableEq, Repr

/-- Which unit sends a request to a staging channel (R402). -/
inductive DramFrom where
  | readPacket | decoder | encoder | tileCode | hostMove | sweepRing | seCapture | scrubber
  | arcade | indexWalker | catalogueWalker | keyStore | seFill | tableFetch
deriving DecidableEq, Repr

/-- A staging channel that issues, and the flips that the cells of the row's check word show if it is read now (R403, R407). -/
structure DramLook where
  chan : DramChan
  check : BitVec 512
deriving DecidableEq, Repr

/-- The registers that fix the address mapping (R398). -/
inductive DramMapReg where
  | cfg
  | ifmap
  | xormap (n : Fin 2) (k : Fin 6)
deriving DecidableEq, Repr

/-! ### Host link and archive service (14_host_link_and_queues.md, 15_archive_service_and_sessions.md) -/

/-- How a USB4 link comes up: at Gen 3 or Gen 2, and, for one that is up, into CL0s or CL1 or out of it (R422). -/
structure LinkMode where
  gen3 : Bool
  low : Bool
deriving DecidableEq, Repr

/-- What the medium gives for one logical block that a command reads: the stored bytes, an unwritten tile, a tile that ended
FAILED after its retries (R164, R337), or bytes that staging memory returned poisoned (R444). -/
inductive MediumBlock where
  | stored (bytes : List (BitVec 8))
  | unwritten
  | unrecovered
  | poisoned
deriving DecidableEq, Repr

/-- A copy of a management record that mount reads: the PTA of its first tile, and its bytes, header first (R88, R89, R91). -/
structure MgmtCopy where
  pta : BitVec 32
  bytes : List (BitVec 8)
deriving DecidableEq, Repr

/-- A tile that a write re-places (R196, R199): its PTA, the WSEQ of the failed write, why, and how many sectors failed. -/
structure Replaced where
  old : BitVec 32
  wseq : BitVec 32
  reason : BitVec 8
  failed : BitVec 8
deriving DecidableEq, Repr

/-- A unit whose heartbeat its parent watches (R540): a cell of a block, a block (numbered as `blockBase` numbers them), a
Plaza core, a district. -/
inductive Child where
  | cell (block : Fin 20) (cell : Fin 64)
  | block (block : Fin 20)
  | core (k : CoreId)
  | district (d : District)
deriving DecidableEq, Repr

/-- How far a journaled operation has come (R474): its phase or step, host zone, NEXT_TILE, TILES_DONE and TILES_TOTAL, and
whether the operation has ended. -/
structure JnlProgress where
  phase : Fin 16
  zone : BitVec 16
  nextTile : BitVec 32
  tilesDone : BitVec 64
  tilesTotal : BitVec 64
  ended : Bool
deriving DecidableEq, Repr

/-- The commands: one constructor for each row of spec/opcode_table.json, in the table's order. -/
inductive Instr where
  /-- REGISTER_WRITE (R13): A write to a register field with no behaviour of its own stores the value, clears W1C
  bits or is dropped, by its access type. -/
  | registerWrite (agent : Agent) (addr : BitVec 40) (width : Width) (value : Word)
  /-- PACE_RATE_READ (R51): A read of PACE_RATE returns MIN_RATE and restores it to 0xFFFF. -/
  | paceRateRead (agent : Agent) (d : District)
  /-- FABRIC_TRANSFER (R23): One handshake moves one whole transfer from a sender to a receiver. -/
  | fabricTransfer (src dst : Nat) (hops : List Hop) (payload : List Byte)
  /-- ROUNDABOUT_GRANT (R27): A Roundabout grants the next requesting port by weighted round robin, closing and
  opening 64-grant windows. -/
  | roundaboutGrant (r : RbtId) (arrivals : List RbtRequest)
  /-- RBT_CONFIG_WRITE (R37): A write to RBT_CFG or RBT_WGTn takes effect at once when the Roundabout is idle,
  otherwise it waits with PENDING set; URG_CAP is clamped with CLAMP. -/
  | rbtConfigWrite (agent : Agent) (r : RbtId) (reg : RbtReg) (value : Word)
  /-- ROUNDABOUT_STALL (R30): A granted transfer not acknowledged within STALL_LIMIT completes with a bus error,
  sets STALL and is reported to the fault manager. -/
  | roundaboutStall (r : RbtId) (port target : Fin 16)
  /-- CROSSING_REQUEST (R40): A request on an ARMED Crossing passes, or completes at once with CROSSING_RESET when
  the Crossing is WITHDRAWN or WAIT_READY. -/
  | crossingRequest (x : XingId) (side : Side) (tag : Nat) (awaits : Bool)
  /-- CROSSING_RESET_ASSERT (R40): Reset asserted on one side of a Crossing withdraws that side, aborts the
  surviving side's pending requests and sets its XING_EVT bit. -/
  | crossingResetAssert (x : XingId) (side : Side)
  /-- CLOCK_GOOD_FALL (R39): A clocked side whose clock-good flag falls is treated as a side entering reset. -/
  | clockGoodFall (x : XingId)
  /-- CLOCK_GOOD_RISE (R39): A clocked side whose clock-good flag rises is treated as a side released from reset. -/
  | clockGoodRise (x : XingId)
  /-- CROSSING_ABORT_DELIVERED (R41): The abort tokens of a withdrawal reach the surviving side within the bound
  of R41. -/
  | crossingAbortDelivered (x : XingId)
  /-- CROSSING_RESET_RELEASE (R40): Reset released on a Crossing side starts that side's initialisation and moves
  the Crossing to WAIT_READY. -/
  | crossingResetRelease (x : XingId) (side : Side)
  /-- CROSSING_SIDE_READY (R40): A Crossing side reports ready after 8 clock cycles or after its last abort token;
  when both are ready the Crossing re-arms and sets XING_ARMED. -/
  | crossingSideReady (x : XingId) (side : Side)
  /-- PACE_WINDOW_CLOSE (R48): At the end of each 10 us window every pace monitor updates RATE, MIN_RATE, SHORT,
  SHORT_SEEN and the COLLAPSE count. -/
  | paceWindowClose (rates : Vector (BitVec 16) 5) (vcore : BitVec 16)
  /-- PERMIT_CLAIM (R57): A CLAIM write takes a free permit and records FEATURE, or is refused with DENIED and
  DENY_ID. -/
  | permitClaim (agent : Agent) (n : PermitId) (feature : BitVec 7)
  /-- PERMIT_RELEASE (R57): A RELEASE write by the owner frees the permit; a release by another agent is refused
  with DENIED. -/
  | permitRelease (agent : Agent) (n : PermitId)
  /-- RC_ENABLE_WRITE (R96): A write of RC_CTL.ENABLE powers the channel front end at once; rising loads the
  initial gains, falling aborts open packets. -/
  | rcEnableWrite (agent : Agent) (c : Chan) (on : Bool)
  /-- RF_SAMPLE_GROUP (R99): A group of 16 samples per spot crosses the RF Crossing and is processed through gain,
  timing, equaliser, canceller and detector. -/
  | rfSampleGroup (n : Head) (b0 b1 b2 b3 : List Int) (err : List Int)
  /-- WEDGE_PASS (R111): A wedge passes the spot; the demodulator searches for SAM or index, decodes TRK and
  measures PES. -/
  | wedgePass (c : Chan) (w : WedgeObs)
  /-- FINE_ESTIMATE (R128): At the end of each 64 x FINE_PERIOD bits channels B1 and B2 send a fine radial
  estimate with its valid bit. -/
  | fineEstimate (side : Fin 2) (head spot : Fin 4)
  /-- SYNC1_WINDOW_OPEN (R120): The stream reaches P - WIN and the primary sync window opens. -/
  | sync1WindowOpen (c : Chan)
  /-- SYNC1_MATCH (R120): A SYNC1 match fixes A1 directly, becomes a candidate, or replaces or discards the
  candidate. -/
  | sync1Match (c : Chan) (ofs : Int)
  /-- SYNC1_WINDOW_END (R120): The primary window ends, fixing A1 as CANDIDATE or MISSED. -/
  | sync1WindowEnd (c : Chan)
  /-- SYNC2_WINDOW_OPEN (R120): The stream reaches A1 + 17,016 - WIN and the secondary window opens. -/
  | sync2WindowOpen (c : Chan)
  /-- SYNC2_WINDOW_END (R121): The secondary window ends and the outcome and offsets are set, with SYNC2_MISS,
  CAND_REJ, TR_SLIP or SYNC_INF_SEEN as applicable. -/
  | sync2WindowEnd (n : Head) (spot : Fin 4)
  /-- PACKET_COMPLETE (R127): After the last CW2 value the channel writes the descriptor and raises the packet
  notice. -/
  | packetComplete (c : Chan)
  /-- SLICE_ASSIGN (R144): A packet's first entry takes a slice with a free buffer, in arrival order. -/
  | sliceAssign (c : Chan)
  /-- SLICE_BUFFER_FREED (R147): A slice buffer frees and a waiting packet takes it. -/
  | sliceBufferFreed (n : SliceId)
  /-- DECODE_START (R140): Descriptor B arrives and the decoder aligns, descrambles and counts zeros, ending
  NO_SIGNAL or ERASE_SKIP or starting iterations. -/
  | decodeStart (n : SliceId)
  /-- SECTOR_DECODE_DONE (R142): Decoding ends, the sector is classified, OK payloads are written, and the sector
  result goes to the tile-code block or the write cell. -/
  | sectorDecodeDone (n : SliceId)
  /-- TILE_RESULTS_COMPLETE (R151): A tile's 36 sector results are in; it writes a record only, starts a column
  decode, or goes to span parity or FAILED. -/
  | tileResultsComplete (t : Nat)
  /-- TILE_DECODE_DONE (R152): A column decode ends, writes filled sectors back, retries once with suspect
  sectors, or sends the tile to span parity. -/
  | tileDecodeDone (t : Nat)
  /-- TILE_POISON_RESTART (R153): A staging read in a tile decode returns poison or a bus error; the sector joins
  E, POISON sets and the decode restarts. -/
  | tilePoisonRestart (t sector : Nat)
  /-- SPAN_DECODE_START (R160): Every member of a span with a member headed for FAILED has an outcome and the span
  decode starts. -/
  | spanDecodeStart (id : SpanId)
  /-- SPAN_DECODE_DONE (R160): A span decode ends with members SPAN_RECOVERED or FAILED, setting SPAN_USED and
  SPAN_FAIL. -/
  | spanDecodeDone (id : SpanId)
  /-- SPAN_POISON (R160): A staging read in a span decode returns poison or a bus error; the loss is added, POISON
  sets, and the span is judged again. -/
  | spanPoison (id : SpanId) (member : Head) (index : Fin 32)
  /-- ENCODER_PACKET (R171): A head's encoder builds and sends a 268-entry write packet for an armed write slot,
  withholding it on a poisoned read. -/
  | encoderPacket (n : Head)
  /-- WRITE_SLOT_START (R187): At a write slot's first edge the write cell checks its conditions and starts the
  slot or ends it NOT_STARTED. -/
  | writeSlotStart (n : Head)
  /-- WRITE_UNDERRUN (R173): The write cell needs an entry from an empty buffer, forces read level and ends the
  slot UNDERRUN. -/
  | writeUnderrun (n : Head)
  /-- WRITE_SLOT_END (R194): A write slot's last bit passes or would have passed, fixing WSTAT and STOP_BIT. -/
  | writeSlotEnd (n : Head)
  /-- VERIFY_RESULT (R193): B0's read-back sector result reaches the write cell and is judged PASS or a failure. -/
  | verifyResult (n : Head)
  /-- GUARD_TRIP (R192): An FE, TE or SHK comparator leaves its window, sets the inhibit latch, forces read level
  and restarts the release timer. -/
  | guardTrip (n : Head) (x : GuardInput)
  /-- GUARD_RETURN (R191): A tripped comparator returns inside its narrowed window. -/
  | guardReturn (n : Head) (x : GuardInput)
  /-- GUARD_LATCH_RELEASE (R191): Every enabled comparator has been inside for REL_TIME and the inhibit latch
  clears. -/
  | guardLatchRelease (n : Head)
  /-- WC_INHIBIT_WRITE (R189): Writing WC_CTL.INHIBIT asserts or releases the SOFT inhibit at once. -/
  | wcInhibitWrite (agent : Agent) (n : Head) (on : Bool)
  /-- WC_ENABLE_WRITE (R183): Writing WC_CTL.ENABLE turns the write laser on at I_R_INIT or off. -/
  | wcEnableWrite (agent : Agent) (n : Head) (on : Bool)
  /-- TABLE_FETCH_DONE (R180): The write cell's table set fetch lands; a CRC failure sets TABLE_BAD and clears
  TABLE_OK. -/
  | tableFetchDone (n : Head)
  /-- READ_POWER_SAMPLE (R183): Every 1 us the read power loop samples the monitor and moves I_R after NSAMP
  samples. -/
  | readPowerSample (n : Head) (code : Nat)
  /-- WRITE_POWER_SAMPLE (R184): A long space or mark is sampled; after NSAMP samples I_TH and slope are estimated
  and the write currents updated, clamped with PWR_LIMIT. -/
  | writePowerSample (n : Head) (middle : Bool) (code : Nat)
  /-- SE_TICK (R210): A tick of a source starts a run, is held pending, or marks a deadline miss of the earlier
  tick. -/
  | seTick (k : Engine) (src : Fin 2)
  /-- RUN_START (R211): A run starts at its entry address, latching ports, advancing generators and clearing
  registers. -/
  | runStart (k : Engine) (x : RunInput)
  /-- DEADLINE_MISS (R233): A tick's deadline passes without commit; the run stops, MISS sets, the SERVO inhibit
  asserts, and a third miss sets OFFLINE_PEND. -/
  | deadlineMiss (k : Engine) (src : Fin 2)
  /-- SE_CACHE_REFETCH (R231): A cache line with an uncorrectable word is refetched urgently; a poisoned refetch
  raises FETCH_ERR. -/
  | seCacheRefetch (k : Engine) (coef : Bool) (line : Fin 256)
  /-- MSV_NOP (R217): NOP does nothing. -/
  | msvNop (k : Engine)
  /-- MSV_MOVI (R217): MOVI loads a sign-extended immediate. -/
  | msvMovi (k : Engine)
  /-- MSV_LUI (R217): LUI loads a 16-bit immediate into the upper half. -/
  | msvLui (k : Engine)
  /-- MSV_MOV (R217): MOV copies a value register. -/
  | msvMov (k : Engine)
  /-- MSV_LDC (R217): LDC loads a coefficient word. -/
  | msvLdc (k : Engine)
  /-- MSV_LDS (R217): LDS loads a state word, seeing earlier stores of the run. -/
  | msvLds (k : Engine)
  /-- MSV_STS (R217): STS stores a state word at commit. -/
  | msvSts (k : Engine)
  /-- MSV_IN (R217): IN reads a latched input port. -/
  | msvIn (k : Engine)
  /-- MSV_OUT (R217): OUT sets an output port at commit. -/
  | msvOut (k : Engine)
  /-- MSV_ADD (R217): ADD adds with wrap. -/
  | msvAdd (k : Engine)
  /-- MSV_ADDS (R217): ADDS adds with saturation. -/
  | msvAdds (k : Engine)
  /-- MSV_SUB (R217): SUB subtracts with wrap. -/
  | msvSub (k : Engine)
  /-- MSV_SUBS (R217): SUBS subtracts with saturation. -/
  | msvSubs (k : Engine)
  /-- MSV_ADDI (R217): ADDI adds a sign-extended immediate with wrap. -/
  | msvAddi (k : Engine)
  /-- MSV_MUL (R217): MUL multiplies and rounds to Q2.30 with saturation. -/
  | msvMul (k : Engine)
  /-- MSV_DIV (R217): DIV divides in Q2.30, setting DIV0 on a zero divisor. -/
  | msvDiv (k : Engine)
  /-- MSV_ABS (R217): ABS takes the saturated absolute value. -/
  | msvAbs (k : Engine)
  /-- MSV_MIN (R217): MIN takes the signed minimum. -/
  | msvMin (k : Engine)
  /-- MSV_MAX (R217): MAX takes the signed maximum. -/
  | msvMax (k : Engine)
  /-- MSV_SHA (R217): SHA shifts arithmetically with saturation or rounding. -/
  | msvSha (k : Engine)
  /-- MSV_AND (R217): AND is bitwise AND. -/
  | msvAnd (k : Engine)
  /-- MSV_OR (R217): OR is bitwise OR. -/
  | msvOr (k : Engine)
  /-- MSV_XOR (R217): XOR is bitwise XOR. -/
  | msvXor (k : Engine)
  /-- MSV_ANDI (R217): ANDI ANDs with a zero-extended immediate. -/
  | msvAndi (k : Engine)
  /-- MSV_SHR (R217): SHR shifts logically right. -/
  | msvShr (k : Engine)
  /-- MSV_MULA (R217): MULA loads an accumulator with a rounded product. -/
  | msvMula (k : Engine)
  /-- MSV_MAC (R217): MAC adds a rounded product to an accumulator with saturation. -/
  | msvMac (k : Engine)
  /-- MSV_MSU (R217): MSU subtracts a rounded product from an accumulator with saturation. -/
  | msvMsu (k : Engine)
  /-- MSV_LDA (R217): LDA loads an accumulator from a value register. -/
  | msvLda (k : Engine)
  /-- MSV_RND (R217): RND rounds a shifted accumulator to Q2.30 with saturation. -/
  | msvRnd (k : Engine)
  /-- MSV_BIQ (R220): BIQ runs a cascade of N second-order sections, storing their state at commit. -/
  | msvBiq (k : Engine)
  /-- MSV_LIM (R217): LIM clamps a value between two coefficients. -/
  | msvLim (k : Engine)
  /-- MSV_INTG (R217): INTG updates a clamped Q8.40 integrator in state memory. -/
  | msvIntg (k : Engine)
  /-- MSV_FFV (R217): FFV scales a value by nominal over measured supply voltage. -/
  | msvFfv (k : Engine)
  /-- MSV_FFA (R217): FFA adds a coefficient times a commanded sled or spindle acceleration to an accumulator. -/
  | msvFfa (k : Engine)
  /-- MSV_INJ (R217): INJ adds a generator sample to a value. -/
  | msvInj (k : Engine)
  /-- MSV_CAP (R217): CAP holds a capture record of up to four registers for commit. -/
  | msvCap (k : Engine)
  /-- MSV_LUT (R221): LUT interpolates a piecewise-linear coefficient table. -/
  | msvLut (k : Engine)
  /-- MSV_SCS (R217): SCS computes sine and cosine of an angle. -/
  | msvScs (k : Engine)
  /-- MSV_BR (R218): BR jumps forward when its condition holds. -/
  | msvBr (k : Engine)
  /-- MSV_JMP (R217): JMP jumps forward. -/
  | msvJmp (k : Engine)
  /-- MSV_REP (R217): REP sets ON_TRACK and IN_FOCUS bits at commit. -/
  | msvRep (k : Engine)
  /-- MSV_EVT (R217): EVT sets the event code and value at commit, with EVT_OVR on a second one. -/
  | msvEvt (k : Engine)
  /-- MSV_END (R217): END ends the run and its commit follows. -/
  | msvEnd (k : Engine)
  /-- SE_LOAD (R227): Writing SEk_LOAD with GO starts a bank load or refuses it with BAD_BANK or LIVE_BANK. -/
  | seLoad (agent : Agent) (k : Engine) (coef : Bool) (bank : Fin 4)
  /-- SE_LOAD_DONE (R227): A bank's fills land, the program is checked and WCET recorded, and the bank becomes
  LOADED or FAILED with DONE. -/
  | seLoadDone (k : Engine)
  /-- SE_WINDOW_WRITE (R226): A write through the engine window sets a non-live bank EMPTY, or is refused with a
  bus error and LIVE_WR for a live bank. -/
  | seWindowWrite (agent : Agent) (k : Engine) (offset : Fin 32768) (value : BitVec 32)
  /-- SE_STATE_WRITE (R232): A Plaza write to state memory is held until the engine is between runs and then
  applied. -/
  | seStateWrite (agent : Agent) (k : Engine) (word : Fin 512) (value : BitVec 32)
  /-- SE_START (R236): START applies pending fields under the swap check and arms the ticks, or sets START_DENIED. -/
  | seStart (agent : Agent) (k : Engine)
  /-- SE_STOP (R236): STOP lets the current run commit, zeroes outputs 0-3 and 8-15 and stops the engine. -/
  | seStop (agent : Agent) (k : Engine)
  /-- SE_APPLY_NOW (R230): APPLY_NOW applies pending engine fields between runs when no sweep runs, or sets
  APPLY_DENIED. -/
  | seApplyNow (agent : Agent) (k : Engine)
  /-- CAP_ENABLE_WRITE (R223): Writing SEk_CAP_CTL.EN starts or stops capture at once, clearing COUNT when EN
  rises. -/
  | capEnableWrite (agent : Agent) (k : Engine) (on : Bool)
  /-- SPINDLE_START (R279): START in STOPPED with SE8 running enters SENSE with a start pending, or sets
  START_DENIED; in STOPPING it returns to RUN. -/
  | spindleStart (agent : Agent)
  /-- SPINDLE_STOP (R279): STOP sends RUN to STOPPING, drops a pending start, or returns LATCHED_OFF to STOPPED. -/
  | spindleStop (agent : Agent)
  /-- PWM_PERIOD_START (R273): At each PWM period start the modulator loads duties and sets the applied angle,
  marking LATE_DUTY for late commits. -/
  | pwmPeriodStart (busMv : Nat)
  /-- PWM_MIDPOINT (R269): At each period midpoint currents and voltages are sampled and the PWM tick is raised. -/
  | pwmMidpoint (iu iv vu vv vw : BitVec 12)
  /-- OVERCURRENT_TRIP (R278): A phase current beyond OC_TRIP turns the gates off for the period and sets OC_TRIP;
  16 in a row latch off. -/
  | overcurrentTrip
  /-- SENSE_TIME_END (R279): SENSE_TIME elapses with no back-EMF and the block enters DETECT with offsets stored. -/
  | senseTimeEnd
  /-- BEMF_MEASURE (R282): A back-EMF measurement gives angle, speed and direction, leading to CATCH, BRAKE or
  standstill. -/
  | bemfMeasure (busMv : Nat) (first second : Vector (BitVec 12) 3)
  /-- BRAKE_DWELL_END (R279): The 200 ms wait after standstill with a start pending ends and DETECT begins. -/
  | brakeDwellEnd
  /-- BRAKE_TIMEOUT (R279): 30 s of braking without standstill fails the start with CAUSE 0x9. -/
  | brakeTimeout
  /-- DETECT_PULSE_END (R280): A test pulse ends and its current is taken; a full round finds the position,
  repeats, or falls back to ALIGN. -/
  | detectPulseEnd (iu iv : BitVec 12)
  /-- ALIGN_DONE (R279): I_START has been held at angle 0 for 500 ms and FORCED begins. -/
  | alignDone
  /-- HANDOVER_AGREEMENT (R281): SE8's angle agrees with the sequencer for 16 periods and the slew to RUN, or
  CAUGHT, begins. -/
  | handoverAgreement
  /-- HANDOVER_TIMEOUT (R279): 500 ms at HANDOVER without agreement fails the start with CAUSE 0x8. -/
  | handoverTimeout
  /-- CATCH_TIMEOUT (R279): 200 ms in CATCH without agreement sets CATCH_FAIL and brakes. -/
  | catchTimeout
  /-- REGEN_PAUSE (R287): The motor bus crosses PAUSE_ON and the downward ramp holds until it falls below
  PAUSE_OFF. -/
  | regenPause (busMv : Nat)
  /-- SLED_UPDATE (R294): Every 25 us the sled cell steps the profile, moves trim, computes coil currents and
  evaluates load angle. -/
  | sledUpdate (n : Head) (va vb ia ib da db : Int)
  /-- SLD_TARGET_WRITE (R299): A new sled target starts a move, re-profiles, reverses through REV_STOP, or is
  refused with TGT_DENIED. -/
  | sldTargetWrite (agent : Agent) (n : Head) (value : BitVec 32)
  /-- REV_DWELL_END (R299): REV_DWELL ends after a reversal stop and the new move starts, subject to SLED_HOLD. -/
  | revDwellEnd (n : Head)
  /-- RUN_CURRENT_END (R302): 10 ms after a stop the coil current falls from I_RUN to I_HOLD. -/
  | runCurrentEnd (n : Head)
  /-- HOME_SWITCH_EDGE (R307): An edge on the home switch is counted toward debounce and chatter, setting CHATTER
  on more than 8 edges in 2 ms. -/
  | homeSwitchEdge (n : Head)
  /-- SWITCH_DEBOUNCED (R307): The switch level has held for 2 ms; the trip or release drives homing, parking or
  the limit stop. -/
  | switchDebounced (n : Head) (level : Bool)
  /-- SLED_HOME (R308): HOME starts the homing phases from IDLE or FAULT. -/
  | sledHome (agent : Agent) (n : Head)
  /-- SLED_PARK (R311): A park request abandons any move and parks the sled. -/
  | sledPark (agent : Agent) (n : Head)
  /-- SLED_UNPARK (R313): UNPARK powers the sled up at its kept point, or is refused with TGT_DENIED. -/
  | sledUnpark (agent : Agent) (n : Head)
  /-- SLED_ABORT (R313): ABORT decelerates a move to a stop or returns a FAULT sled to IDLE. -/
  | sledAbort (agent : Agent) (n : Head)
  /-- SLD_DRV_EN_WRITE (R310): Writing DRV_EN powers the driver up or powers it down with or without keeping
  position. -/
  | sldDrvEnWrite (agent : Agent) (n : Head) (on : Bool)
  /-- SWEEP_SUBMIT (R331): A write of SWP_SUBMIT_HI submits a program address, or sets QFULL when four are queued. -/
  | sweepSubmit (agent : Agent) (value : BitVec 32)
  /-- PROGRAM_LOAD (R331): The scheduler starts fetching and checking the next submitted program. -/
  | programLoad
  /-- PROGRAM_LOAD_DONE (R330): A program's check and parity encoding finish and it is queued, or refused with
  LOAD_FAIL and a load record. -/
  | programLoadDone (layers : Fin 17)
  /-- SWEEP_START (R335): START in IDLE begins the portions of the queue head and enters WAIT. -/
  | sweepStart (agent : Agent)
  /-- SWEEP_STOP (R335): STOP marks a stop pending so the scheduler returns to IDLE after the next APPLY. -/
  | sweepStop (agent : Agent)
  /-- SWEEP_ABORT (R335): ABORT disarms unbegun slots, ends unfinished steps ABORTED and discards the queue. -/
  | sweepAbort (agent : Agent)
  /-- SWEEP_BOUNDARY_CMD (R334): BOUNDARY written while IDLE performs boundary steps 5 and 6 at once. -/
  | sweepBoundaryCmd (agent : Agent)
  /-- WINDOW_OPEN (R333): The window opens at the first pass of START_WEDGE after the boundary, or a revolution
  later with LATE, or as an empty sweep. -/
  | windowOpen
  /-- WINDOW_CLOSE (R335): 720 frames elapse, nothing more is armed, waiting positioning steps end SHORT_POS, and
  TAIL begins. -/
  | windowClose
  /-- PORTION_START (R322): A head's portion begins once its program has loaded and its last slot has ended. -/
  | portionStart (n : Head)
  /-- HEAD (R319): HEAD opens a head's portion. -/
  | headStep (n : Head)
  /-- LAYER (R323): LAYER posts a new SCHED word to the head's engine. -/
  | layer (n : Head)
  /-- SEEK (R323): SEEK posts a SCHED word for the band and optionally writes the sled target. -/
  | seek (n : Head)
  /-- WAIT_POS (R323): WAIT_POS waits for COUNT good wedge statuses within TIMEOUT wedges. -/
  | waitPos (n : Head)
  /-- WAIT_WEDGE (R323): WAIT_WEDGE waits for the frame of its wedge within the window. -/
  | waitWedge (n : Head)
  /-- WAIT_WEDGE_REACHED (R323): The frame of the waited wedge begins and WAIT_WEDGE completes. -/
  | waitWedgeReached (n : Head)
  /-- READ_TILE (R326): READ_TILE arms all 36 slots of a tile for its read buffer and tile completion FIFO, or
  ends SHORT_LATE. -/
  | readTile (n : Head)
  /-- VERIFY_TILE (R326): VERIFY_TILE reads a tile and applies the pass test to each sector, building FAIL_MAP. -/
  | verifyTile (n : Head)
  /-- AUDIT_TILE (R326): AUDIT_TILE reads a tile and sends its record to the audit FIFO. -/
  | auditTile (n : Head)
  /-- WRITE_TILE (R326): WRITE_TILE arms the nine slots of one track of a tile from its write buffer. -/
  | writeTile (n : Head)
  /-- OBLITERATE (R326): OBLITERATE arms slots of COUNT tiles on one track to be recorded over with a continuous
  mark. -/
  | obliterate (n : Head)
  /-- CAL_SLOT (R326): CAL_SLOT hands the head to a calibration kind for LEN wedges. -/
  | calSlot (n : Head)
  /-- MARK (R323): MARK writes a step record with CODE and optionally sets MARK. -/
  | mark (n : Head)
  /-- NOP (R319): NOP does nothing and completes. -/
  | nopStep (n : Head)
  /-- END (R319): END closes a head's portion. -/
  | endStep (n : Head)
  /-- ALL_SLOTS_ENDED (R335): Every armed slot has ended and the scheduler enters DRAIN. -/
  | allSlotsEnded
  /-- DRAIN_COMPLETE (R332): The decoders, tile-code block, staging writes and control records have drained; the
  summary record is written and BOUNDARY set. -/
  | drainComplete
  /-- BOUNDARY_APPLY (R332): Pending boundary fields are applied in every block, offline heads are taken offline
  and SCHED words reposted. -/
  | boundaryApply
  /-- HEAD_ONLINE_SET (R344): Writing 1 to SWP_HEAD_ONLINE.ONLINE bits brings present heads online. -/
  | headOnlineSet (agent : Agent) (mask : BitVec 8)
  /-- FIFO_POP (R340): A read of FIFO_POP by the consumer pops a record into FIFO_REC0-7, or returns VALID 0 or
  sets DENIED. -/
  | fifoPop (agent : Agent) (f : FifoId)
  /-- FIFO_CONFIG_WRITE (R340): A write to FIFO_BASE or FIFO_CFG is accepted only while the ring is empty,
  otherwise dropped with DENIED. -/
  | fifoConfigWrite (agent : Agent) (f : FifoId) (reg : FifoReg) (value : Word)
  /-- FIFO_RECORD_PUSH (R338): A producer writes a record into a control-class ring and raises NOTICE, waiting
  with WAITED when the ring is full. -/
  | fifoRecordPush (f : FifoId) (record : BitVec 256)
  /-- RING_WRITE_ERROR (R596): A record's ring write ends with a bus error; the record is kept on chip and
  RING_ERR sets. -/
  | ringWriteError (f : FifoId) (record : BitVec 256)
  /-- ADD (R352): ADD adds two registers. -/
  | add (p : CoreId)
  /-- SUB (R352): SUB subtracts two registers. -/
  | sub (p : CoreId)
  /-- AND (R352): AND is bitwise AND. -/
  | and (p : CoreId)
  /-- OR (R352): OR is bitwise OR. -/
  | or (p : CoreId)
  /-- XOR (R352): XOR is bitwise XOR. -/
  | xor (p : CoreId)
  /-- SLL (R352): SLL shifts left. -/
  | sll (p : CoreId)
  /-- SRL (R352): SRL shifts right logically. -/
  | srl (p : CoreId)
  /-- SRA (R352): SRA shifts right arithmetically. -/
  | sra (p : CoreId)
  /-- SLT (R352): SLT compares signed. -/
  | slt (p : CoreId)
  /-- SLTU (R352): SLTU compares unsigned. -/
  | sltu (p : CoreId)
  /-- MUL (R352): MUL gives the low 64 bits of a product. -/
  | mul (p : CoreId)
  /-- MULH (R352): MULH gives the high signed product bits. -/
  | mulh (p : CoreId)
  /-- MULHU (R352): MULHU gives the high unsigned product bits. -/
  | mulhu (p : CoreId)
  /-- DIV (R352): DIV divides signed. -/
  | div (p : CoreId)
  /-- DIVU (R352): DIVU divides unsigned. -/
  | divu (p : CoreId)
  /-- REM (R352): REM gives the signed remainder. -/
  | rem (p : CoreId)
  /-- REMU (R352): REMU gives the unsigned remainder. -/
  | remu (p : CoreId)
  /-- ADDW (R352): ADDW adds and sign-extends the low 32 bits. -/
  | addw (p : CoreId)
  /-- CLZ (R352): CLZ counts leading zeros. -/
  | clz (p : CoreId)
  /-- ADDI (R352): ADDI adds an immediate. -/
  | addi (p : CoreId)
  /-- ANDI (R352): ANDI ANDs an immediate. -/
  | andi (p : CoreId)
  /-- ORI (R352): ORI ORs an immediate. -/
  | ori (p : CoreId)
  /-- XORI (R352): XORI XORs an immediate. -/
  | xori (p : CoreId)
  /-- SLLI (R352): SLLI shifts left by an immediate. -/
  | slli (p : CoreId)
  /-- SRLI (R352): SRLI shifts right logically by an immediate. -/
  | srli (p : CoreId)
  /-- SRAI (R352): SRAI shifts right arithmetically by an immediate. -/
  | srai (p : CoreId)
  /-- SLTI (R352): SLTI compares signed with an immediate. -/
  | slti (p : CoreId)
  /-- SLTIU (R352): SLTIU compares unsigned with an immediate. -/
  | sltiu (p : CoreId)
  /-- ADDIW (R352): ADDIW adds an immediate and sign-extends the low 32 bits. -/
  | addiw (p : CoreId)
  /-- LUI (R352): LUI loads an upper immediate. -/
  | lui (p : CoreId)
  /-- AUIPC (R352): AUIPC adds an upper immediate to the PC. -/
  | auipc (p : CoreId)
  /-- LB (R352): LB loads a sign-extended byte. -/
  | lb (p : CoreId)
  /-- LBU (R352): LBU loads a zero-extended byte. -/
  | lbu (p : CoreId)
  /-- LH (R352): LH loads a sign-extended halfword. -/
  | lh (p : CoreId)
  /-- LHU (R352): LHU loads a zero-extended halfword. -/
  | lhu (p : CoreId)
  /-- LW (R352): LW loads a sign-extended word, from memory or device space. -/
  | lw (p : CoreId)
  /-- LWU (R352): LWU loads a zero-extended word. -/
  | lwu (p : CoreId)
  /-- LD (R352): LD loads a doubleword. -/
  | ld (p : CoreId)
  /-- SB (R352): SB stores a byte. -/
  | sb (p : CoreId)
  /-- SH (R352): SH stores a halfword. -/
  | sh (p : CoreId)
  /-- SW (R352): SW stores a word, retiring in device space only once acknowledged. -/
  | sw (p : CoreId)
  /-- SD (R352): SD stores a doubleword. -/
  | sd (p : CoreId)
  /-- BEQ (R352): BEQ branches if equal. -/
  | beq (p : CoreId)
  /-- BNE (R352): BNE branches if not equal. -/
  | bne (p : CoreId)
  /-- BLT (R352): BLT branches if less, signed. -/
  | blt (p : CoreId)
  /-- BGE (R352): BGE branches if greater or equal, signed. -/
  | bge (p : CoreId)
  /-- BLTU (R352): BLTU branches if less, unsigned. -/
  | bltu (p : CoreId)
  /-- BGEU (R352): BGEU branches if greater or equal, unsigned. -/
  | bgeu (p : CoreId)
  /-- JAL (R352): JAL links and jumps PC-relative. -/
  | jal (p : CoreId)
  /-- JALR (R352): JALR links and jumps to a register target. -/
  | jalr (p : CoreId)
  /-- LDAQ (R358): LDAQ loads with acquire ordering. -/
  | ldaq (p : CoreId)
  /-- STRL (R358): STRL stores with release ordering. -/
  | strl (p : CoreId)
  /-- LR (R357): LR loads and reserves the line. -/
  | lr (p : CoreId)
  /-- SC (R357): SC stores if the reservation holds and reports success. -/
  | sc (p : CoreId)
  /-- AMOADD (R352): AMOADD adds to memory indivisibly. -/
  | amoadd (p : CoreId)
  /-- AMOSWAP (R352): AMOSWAP swaps with memory indivisibly. -/
  | amoswap (p : CoreId)
  /-- AMOAND (R352): AMOAND ANDs into memory indivisibly. -/
  | amoand (p : CoreId)
  /-- AMOOR (R352): AMOOR ORs into memory indivisibly. -/
  | amoor (p : CoreId)
  /-- CAS (R352): CAS compares and swaps memory indivisibly. -/
  | cas (p : CoreId)
  /-- FENCE (R359): FENCE waits for selected earlier accesses before selected later ones issue. -/
  | fence (p : CoreId)
  /-- ECALL (R352): ECALL raises ECALL_USER or ECALL_SUPER. -/
  | ecall (p : CoreId)
  /-- EBREAK (R352): EBREAK raises BREAKPOINT. -/
  | ebreak (p : CoreId)
  /-- SRET (R364): SRET restores IE and MODE, clears EXL and jumps to EPC. -/
  | sret (p : CoreId)
  /-- CSRR (R354): CSRR reads a CSR. -/
  | csrr (p : CoreId)
  /-- CSRW (R354): CSRW writes a CSR and returns the old value. -/
  | csrw (p : CoreId)
  /-- CSRS (R354): CSRS sets CSR bits and returns the old value. -/
  | csrs (p : CoreId)
  /-- CSRC (R354): CSRC clears CSR bits and returns the old value. -/
  | csrc (p : CoreId)
  /-- POST_DOORBELL (R360): POST to a core handle sets the sender's DBPEND bit in the target core. -/
  | postDoorbell (p : CoreId)
  /-- POST_USB2_ATTACH (R424): POST to Crossing 36 or 37 attaches or detaches a management endpoint. -/
  | postUsb2Attach (p : CoreId)
  /-- POST_FLASH (R575): POST to Crossing 42 runs a flash command moving bytes between flash and TCM. -/
  | postFlash (p : CoreId)
  /-- POST_KERB_WORD (R575): POST to Crossing 43 writes a Kerb status window word. -/
  | postKerbWord (p : CoreId)
  /-- POST_SMBUS_ALERT (R575): POST to Crossing 44 asserts or releases ALERT_N. -/
  | postSmbusAlert (p : CoreId)
  /-- POST_TIMER_PWM (R575): POST to Crossing 50 writes an edge timer's PWM period and duty. -/
  | postTimerPwm (p : CoreId)
  /-- POST_ACCEPTED (R360): A POST waiting on a full mailbox delivers its word when room appears and returns
  SUCCESS. -/
  | postAccepted (p : CoreId)
  /-- TAKE (R361): TAKE pops a control-class FIFO record and stores it to memory. -/
  | take (p : CoreId)
  /-- WAIT (R362): WAIT stops issue until a masked line is pending or a deadline passes. -/
  | wait (p : CoreId)
  /-- WAIT_WAKE (R362): A masked line becomes pending or the deadline passes and WAIT returns. -/
  | waitWake (p : CoreId)
  /-- RDTIME (R352): RDTIME returns chip time. -/
  | rdtime (p : CoreId)
  /-- INTERRUPT_ENTRY (R364): A deliverable interrupt is taken at the lowest line, abandoning a waiting POST or
  WAIT. -/
  | interruptEntry (p : CoreId)
  /-- RESERVATION_EXPIRE (R357): 128 steps after LR the reservation is lost. -/
  | reservationExpire (p : CoreId)
  /-- TIMECMP_REACHED (R354): Chip time reaches TIMECMP and line 50 becomes pending. -/
  | timecmpReached (p : CoreId)
  /-- CORE_RESET_CMD (R367): A PLZ_CTL.RESET bit resets a core and holds it. -/
  | coreResetCmd (agent : Agent) (p : CoreId)
  /-- CORE_RUN (R367): A PLZ_CTL.RUN bit releases a held core at its start address. -/
  | coreRun (agent : Agent) (p : CoreId)
  /-- L1I_INV_A (R383): CMO L1I_INV_A invalidates a line in every core's L1I. -/
  | l1iInvA (p : CoreId)
  /-- L1I_INV_ALL (R383): CMO L1I_INV_ALL invalidates this core's whole L1I. -/
  | l1iInvAll (p : CoreId)
  /-- L1D_INV_A (R383): CMO L1D_INV_A invalidates a line in every core's L1D. -/
  | l1dInvA (p : CoreId)
  /-- L1D_INV_ALL (R383): CMO L1D_INV_ALL invalidates this core's whole L1D. -/
  | l1dInvAll (p : CoreId)
  /-- ARC_CLEAN_A (R383): CMO ARC_CLEAN_A writes back a dirty Arcade line and keeps it. -/
  | arcCleanA (p : CoreId)
  /-- ARC_INV_A (R383): CMO ARC_INV_A invalidates an Arcade line, discarding dirty data. -/
  | arcInvA (p : CoreId)
  /-- ARC_FLUSH_A (R383): CMO ARC_FLUSH_A writes back a dirty Arcade line and invalidates it. -/
  | arcFlushA (p : CoreId)
  /-- ARC_CLEAN_SW (R383): CMO ARC_CLEAN_SW cleans the Arcade line at a set and way. -/
  | arcCleanSw (p : CoreId)
  /-- ARC_FLUSH_SW (R383): CMO ARC_FLUSH_SW flushes the Arcade line at a set and way. -/
  | arcFlushSw (p : CoreId)
  /-- ARC_FETCH_A (R383): CMO ARC_FETCH_A allocates a line in the Arcade as a class 0 miss. -/
  | arcFetchA (p : CoreId)
  /-- L1_FILL (R380): An L1 miss fill lands and the line enters the L1, evicting a victim. -/
  | l1Fill (p : CoreId) (cache : L1Cache) (line : BitVec 40)
  /-- ARCADE_REQUEST (R373): A staging request is looked up in the Arcade, hitting, merging into a miss register,
  or waiting with MISS_FULL. -/
  | arcadeRequest (sender : ArcFrom) (addr : BitVec 40) (store : Option (List (BitVec 8))) (flips : BitVec 576)
  /-- ARCADE_FILL (R380): A miss register's fill lands, allocating by class and serving merged requests in order. -/
  | arcadeFill (bank : Fin 4) (reg : Fin 16)
  /-- ARC_DISABLE (R386): Writing ARC_CTL.EN 0 starts the Arcade drain. -/
  | arcDisable (agent : Agent)
  /-- ARC_DRAIN_DONE (R386): The Arcade drain finishes, enters OFF, sets DRAIN_DONE and applies a held enable. -/
  | arcDrainDone
  /-- ARC_ENABLE (R386): Writing ARC_CTL.EN 1 turns the Arcade on, or is held with EN_PEND during a drain. -/
  | arcEnable (agent : Agent)
  /-- ARC_PART_WRITE (R377): A write of ARC_PARTn is accepted, or refused with PART_BAD when fewer than 2 bits are
  set. -/
  | arcPartWrite (agent : Agent) (n : Fin 4) (mask : BitVec 16)
  /-- L1_DISABLE (R387): Clearing an L1_CTL bit stops that cache allocating and invalidates it once its misses
  land. -/
  | l1Disable (agent : Agent) (p : CoreId) (cache : L1Cache)
  /-- DRAM_REQUEST (R399): A request enters a channel queue, waiting when 69 are queued. -/
  | dramRequest (sender : DramFrom) (write : Bool) (addr : BitVec 40) (data : List (BitVec 8))
  /-- DRAM_ISSUE (R400): The channel chooses and issues the next request under the ordering rules, activating rows
  and counting activates. -/
  | dramIssue (x : DramLook)
  /-- DRAM_READ_RETURN (R407): A read word is checked by SECDED and returned good, corrected, or poisoned with CE
  or UE. -/
  | dramReadReturn (n c : Fin 2) (flips : BitVec 512)
  /-- PER_BANK_REFRESH (R404): A bank's refresh interval falls due and it is refreshed or postponed. -/
  | perBankRefresh (c : DramChan) (bank : Fin 32)
  /-- MR4_POLL (R391): Every 4 ms the refresh rate is read from MR4. -/
  | mr4Poll (c : DramChan) (rate : BitVec 8)
  /-- ACT_TABLE_CLEAR (R406): Every 32 ms the activate-count tables clear. -/
  | actTableClear
  /-- SCRUB_ROW (R410): The scrubber reads a row when idle or at SCRUB_INT, rewrites CEs and reports UEs. -/
  | scrubRow (c : DramChan) (flips stuck : List (Fin 32 × BitVec 512))
  /-- REMAP_ARM (R413): Writing a remap entry VALID 1 copies the word and serves its address from the entry, or is
  dropped with WR_DENIED. -/
  | remapArm (agent : Agent) (at_ : RemapAt) (entry : Fin 8) (word : BitVec 26)
  /-- REMAP_DISARM (R413): Writing a remap entry VALID 0 writes its data back and frees it. -/
  | remapDisarm (agent : Agent) (at_ : RemapAt) (entry : Fin 8)
  /-- DRAM_MAP_WRITE (R398): A write of DRAM_CFG, DRAM_IFMAP or an XOR mask is accepted only in OFF or FAILED and
  legal, else MAP_BAD or WR_DENIED. -/
  | dramMapWrite (agent : Agent) (reg : DramMapReg) (value : BitVec 32)
  /-- DRAM_INIT (R415): INIT starts power-up, training and zeroing of every channel. -/
  | dramInit (agent : Agent)
  /-- DRAM_INIT_DONE (R415): Zeroing completes, the controller enters READY and arms Crossings 38-41, or enters
  FAILED on a training failure. -/
  | dramInitDone (failed : List DramChan)
  /-- OSC_CHECK (R416): Every OSC_PERIOD a channel reads its oscillator and sets RETRAIN_PEND on drift beyond
  DRIFT_LIM. -/
  | oscCheck (c : DramChan) (drift : BitVec 16)
  /-- DRAM_RETRAIN (R416): Writing RETRAIN marks every channel for retraining. -/
  | dramRetrain (agent : Agent)
  /-- RETRAIN_START (R416): A pending channel completes its operations, writes back check words and lowers clock-
  good to retrain. -/
  | retrainStart (c : DramChan)
  /-- RETRAIN_DONE (R417): A channel finishes retraining and its clock-good rises. -/
  | retrainDone (c : DramChan) (ok : Bool)
  /-- SRAM_SCRUB (R421): An SRAM macro scrubs a word in an idle cycle, correcting and remapping hard failures. -/
  | sramScrub (m : Fin 1024) (word : BitVec 20) (flips stuck : BitVec 72)
  /-- LINK_UP (R422): A USB4 link trains and comes up. -/
  | linkUp (port : Port) (mode : LinkMode)
  /-- PATH_LOSS (R446): A port loses its path; buffers are discarded, unaccepted commands end, the path log is
  written and queue pairs deleted. -/
  | pathLoss (port : Port)
  /-- FUNCTION_RESET (R425): A host function-level or hot reset resets the endpoint and loses the path. -/
  | functionReset (port : Port)
  /-- OCFG_ENABLE_WRITE (R426): The host writes OCFG.EN to enable the endpoint or lose its path. -/
  | ocfgEnableWrite (port : Port) (en : Bool)
  /-- SQ_TAIL_DOORBELL (R427): A submission tail doorbell is merged, or puts the queue pair in error with DB_BAD. -/
  | sqTailDoorbell (port : Port) (q : Fin 512) (tail : BitVec 32)
  /-- CQ_HEAD_DOORBELL (R427): A completion head doorbell releases entries, allowing held completions to post. -/
  | cqHeadDoorbell (port : Port) (q : Fin 512) (head : BitVec 32)
  /-- COMMAND_FETCH (R432): The host-link block fetches a submission entry into a context and writes its command
  record, or ends it TAG_IN_USE. -/
  | commandFetch (entry list : Option (List (BitVec 8)))
  /-- HOST_CPL (R434): A write of HOST_CPL completes a context, or sets CPL_BAD for a free one. -/
  | hostCpl (agent : Agent) (ctx : Fin 4096) (status : BitVec 15)
  /-- MSIX_COALESCE_EXPIRE (R431): COAL us after the first unsignalled entry the queue pair's MSI-X vector is
  sent. -/
  | msixCoalesceExpire (port : Port) (q : Fin 512)
  /-- CREATE_QP (R435): CREATE_QP creates a queue pair or completes QUEUE_INVALID. -/
  | createQp (ctx : Fin 4096)
  /-- DELETE_QP (R435): DELETE_QP deletes a queue pair once its commands complete. -/
  | deleteQp (ctx : Fin 4096)
  /-- ABORT (R443): ABORT finds a command by queue pair and tag and catches it, reports it completed, or not
  found. -/
  | abort (ctx : Fin 4096)
  /-- IDENTIFY (R435): IDENTIFY returns 4,096 bytes describing the drive. -/
  | identify (ctx : Fin 4096)
  /-- GET_LOG_EVENTS (R435): GET_LOG page 0x01 returns event log entries. -/
  | getLogEvents (ctx : Fin 4096)
  /-- GET_LOG_PATH (R446): GET_LOG page 0x02 returns path log entries. -/
  | getLogPath (ctx : Fin 4096)
  /-- EVENT_WAIT (R435): EVENT_WAIT is held until an event is logged, at most 4 per port. -/
  | eventWait (ctx : Fin 4096)
  /-- EVENT_LOGGED (R435): An event is logged and a held EVENT_WAIT completes with its code. -/
  | eventLogged (code : BitVec 16) (oid : BitVec 128)
  /-- READ (R441): READ delivers blocks from the medium or staging memory to the host. -/
  | read (ctx : Fin 4096) (medium : List MediumBlock)
  /-- WRITE (R440): WRITE writes blocks at the zone's write pointer. -/
  | write (ctx : Fin 4096)
  /-- APPEND (R440): APPEND writes blocks at the zone's write pointer assigned at acceptance. -/
  | append (ctx : Fin 4096)
  /-- WRITE_ACCEPT (R440): A write's data is all in staging and its LBAs are assigned, or it fails on a mismatch,
  full zone or host memory error. -/
  | writeAccept (ctx : Fin 4096) (data : Option (List (BitVec 8)))
  /-- FLUSH (R442): FLUSH waits for covered writes, re-placements and snapshots to be on the medium. -/
  | flush (ctx : Fin 4096)
  /-- FLUSH_COMPLETE (R442): Every condition of a FLUSH is met and it completes, or ends WRITE_FAULT making the
  zone read-only. -/
  | flushComplete (ctx : Fin 4096) (lost : Option (BitVec 64)) (moved : List Replaced)
  /-- ZONE_REPORT (R435): ZONE_REPORT returns 32 bytes per zone. -/
  | zoneReport (ctx : Fin 4096)
  /-- ZONE_OPEN (R438): ZONE_ACTION OPEN opens a zone or completes ZONE_OPEN_LIMIT, ZONE_FULL or WRITE_PROTECTED. -/
  | zoneOpen (ctx : Fin 4096)
  /-- ZONE_CLOSE (R438): ZONE_ACTION CLOSE pads and closes an open zone. -/
  | zoneClose (ctx : Fin 4096)
  /-- ZONE_FINISH (R438): ZONE_ACTION FINISH pads and moves a zone to FULL. -/
  | zoneFinish (ctx : Fin 4096)
  /-- EXTENT_QUERY (R435): EXTENT_QUERY returns the Street Index entry covering an LBA. -/
  | extentQuery (ctx : Fin 4096)
  /-- PUT (R458): PUT stores one part of an object, reserving blocks at part 0 and checking the digest at the last
  part. -/
  | put (ctx : Fin 4096) (data : Option (List (BitVec 8)))
  /-- GET (R460): GET delivers decrypted object bytes, optionally verifying the digest. -/
  | get (ctx : Fin 4096) (medium : List MediumBlock)
  /-- LIST (R460): LIST returns catalogue entries from a first OID. -/
  | list (ctx : Fin 4096)
  /-- AUDIT (R463): AUDIT audits one object and returns its audit count. -/
  | audit (ctx : Fin 4096)
  /-- OPEN_SESSION (R469): OPEN_SESSION checks the key, opens a session and unlocks the media, or counts a failure
  toward lockout. -/
  | openSession (ctx : Fin 4096) (key : Option (List (BitVec 8)))
  /-- KEY_MISMATCH_DELAY (R469): 100 ms after a wrong key is taken the attempt completes KEY_MISMATCH. -/
  | keyMismatchDelay
  /-- CLOSE_SESSION (R468): CLOSE_SESSION closes a session. -/
  | closeSession (ctx : Fin 4096)
  /-- SET_ADMIN_KEY (R470): SET_ADMIN_KEY runs a journaled key change. -/
  | setAdminKey (ctx : Fin 4096) (key : Option (List (BitVec 8)))
  /-- FORMAT (R472): FORMAT writes the media key, defect lists, snapshots and format record as a journaled
  operation. -/
  | format (ctx : Fin 4096) (block : Option (List (BitVec 8)))
  /-- SANITISE (R473): SANITISE obliterates keys, data and records in journaled phases. -/
  | sanitise (ctx : Fin 4096) (onMedium : Bool)
  /-- PROGRESS (R467): PROGRESS returns the journaled operation, phase and permille. -/
  | progress (ctx : Fin 4096)
  /-- LOCK_MEDIA (R466): LOCK_MEDIA drops the unwrapped media key. -/
  | lockMedia (ctx : Fin 4096)
  /-- SESSION_TIMEOUT (R468): A session closes after IDLE_TIMEOUT seconds without a command and TIMEOUT sets. -/
  | sessionTimeout (handle : BitVec 32)
  /-- PENDING_ABANDON (R461): A PENDING object with no part for PENDING_MAX is abandoned, padded and freed with
  ABANDONED. -/
  | pendingAbandon (oid : BitVec 128)
  /-- AUDIT_WALK (R462): With AUDIT_EN the engine takes the next due object and writes its audit requests. -/
  | auditWalk
  /-- AUDIT_RECORD_CONSUME (R462): The engine consumes an audit completion record and hashes the tile's sectors. -/
  | auditRecordConsume (base : BitVec 40)
  /-- AUDIT_RESULT (R463): An audit ends with the object STORED, DAMAGED or LOST. -/
  | auditResult (oid : BitVec 128)
  /-- WEAK_TILE_NOTICE (R463): A weak-tile notice sets the object's WEAK flag. -/
  | weakTileNotice
  /-- WEAK_REFRESH (R463): With REFRESH_EN a WEAK object is rewritten, checked and repointed with REFRESHED. -/
  | weakRefresh (oid : BitVec 128) (copy : List (BitVec 8))
  /-- JOURNAL_ENTRY_WRITE (R474): After INTERVAL advancing sweeps or a phase change a journal entry is written,
  and a mirror every MIRROR_EVERY entries. -/
  | journalEntryWrite (now : JnlProgress)
  /-- DISC_MOUNT (R449): At mount management records are chosen, the Street Index and catalogue rebuilt, and any
  journal resumed. -/
  | discMount (info : Option (List (BitVec 8))) (records : List MgmtCopy) (freeA freeB : Nat)
  /-- DISC_REMOVAL (R466): Removal of the disc drops the unwrapped media key. -/
  | discRemoval
  /-- RAIL_WINDOW_EXIT (R480): An enabled rail leaves its window, causing a supply fault. -/
  | railWindowExit (rail : Fin 5)
  /-- BUS_UNDERVOLTAGE (R480): VMOT stays below 10.8 V for 10 us with MBUS_EN set and a supply fault follows. -/
  | busUndervoltage
  /-- SUPPLY_GRACE_EXPIRE (R539): A supply fault still live after SUP_GRACE enters SAFE. -/
  | supplyGraceExpire
  /-- VAON_RISE (R482): VAON rises through 3.0 V, a power-on reset occurs, and the sequencer starts. -/
  | vaonRise
  /-- RAIL_GOOD (R482): A sequenced rail becomes good and the next step is enabled, ending with core reset
  release. -/
  | railGood
  /-- RAIL_ENABLE_TIMEOUT (R482): A rail not good within 2 ms turns every rail off for a retry, or SEQ_FAIL after
  three. -/
  | railEnableTimeout
  /-- SEQUENCER_RETRY (R482): 100 ms after a sequence failure the sequencer restarts from step 2. -/
  | sequencerRetry
  /-- VIN12_LOSS (R483): VIN12 below 10.8 V for 1 ms acts as a supply fault and turns the rails off in order. -/
  | vin12Loss
  /-- RAIL_FALL (R483): A rail falls below 10 % of its set point and the next rail is turned off. -/
  | railFall
  /-- GOV_ENABLE_WRITE (R485): Writing GOV_EN switches between governing and holding VMAN. -/
  | govEnableWrite (agent : Agent) (en : Bool)
  /-- CHOP_ENGAGE (R486): VMOT reaches CHOP_ON; the chopper gate turns on and CHOPPED sets. -/
  | chopEngage
  /-- CHOP_RELEASE (R486): VMOT falls to CHOP_OFF and the chopper gate turns off. -/
  | chopRelease
  /-- CHOP_FAULT (R486): VMOT reaches 15.6 V; CHOP_FAULT latches as a supply fault and the spindle brakes. -/
  | chopFault
  /-- BUS_LATCH (R486): VMOT reaches 16.5 V; BUS_LATCH latches, the input switch opens and every driver turns off. -/
  | busLatch
  /-- CHOP_CLR (R488): CHOP_CLR clears CHOP_FAULT when VMOT is below CHOP_OFF, else CLR_DENIED. -/
  | chopClr (agent : Agent) (vmot : BitVec 16)
  /-- LATCH_CLR (R488): LATCH_CLR clears BUS_LATCH when VMOT is below CHOP_OFF, else CLR_DENIED. -/
  | latchClr (agent : Agent) (vmot : BitVec 16)
  /-- MBUS_ENABLE_WRITE (R488): Writing MBUS_EN closes or opens the motor bus input switch. -/
  | mbusEnableWrite (agent : Agent) (en : Bool)
  /-- BOOST_ENABLE_WRITE (R489): Writing BOOST_EN starts VLAS with a soft start or stops it. -/
  | boostEnableWrite (agent : Agent) (en : Bool)
  /-- BOOST_SOFT_START_DONE (R489): The 2 ms boost soft start ends and VLAS faults become live. -/
  | boostSoftStartDone
  /-- VLAS_UNDERVOLTAGE (R489): VLAS below 6.00 V after soft start is a supply fault. -/
  | vlasUndervoltage
  /-- BOOST_FAULT (R489): VLAS overvoltage or 64 cycles at current limit latch BOOST_FAULT and turn laser outputs
  off. -/
  | boostFault
  /-- BOOST_CLR (R489): BOOST_CLR clears BOOST_FAULT and restarts the soft start, or is refused with CLR_DENIED. -/
  | boostClr (agent : Agent)
  /-- DORMANT_ENTER (R490): SUP_DORM.ENTER runs the Dormant entry if every condition holds, else sets DORM_DENIED
  and DENY. -/
  | dormantEnter (agent : Agent) (wake : BitVec 5)
  /-- WAKE_EVENT (R494): An enabled wake source ends Dormant and the wake sequence runs, recording WAKE_SRC. -/
  | wakeEvent (sources : BitVec 5)
  /-- SUP_ALARM_REACHED (R493): Chip time reaches SUP_ALARM and fires the alarm wake source. -/
  | supAlarmReached
  /-- WAKE_RDY_RELEASE (R494): 400 us after the wake event the island lets OSTS.RDY follow, setting WAKE_LATE if
  READY comes later. -/
  | wakeRdyRelease
  /-- SOURCE_FAIL (R503): A reference source stops or leaves its frequency range and becomes not good. -/
  | sourceFail (refin : Bool)
  /-- SOURCE_GOOD (R503): A source shows 100 us of good edges and becomes good, returning the time base to the
  reference. -/
  | sourceGood (refin : Bool)
  /-- CLK_RELOCK (R504): Writing CLK_RELOCK relocks coasting loops, or sets RELOCK_DENIED when REF_GOOD is 0. -/
  | clkRelock (agent : Agent) (loops : BitVec 14)
  /-- LOOP_LOCK (R502): A loop achieves lock and its domains gain clock-good. -/
  | loopLock (loop : Fin 14)
  /-- LOCK_LOST (R504): A loop loses lock with a good source, sets LOCK_LOST and reacquires. -/
  | lockLost (loop : Fin 14)
  /-- REF_SWITCH (R506): Writing CLK_REF_SEL.SEL starts a glitch-free switch, or sets SEL_BUSY during one. -/
  | refSwitch (agent : Agent) (sel : Fin 2)
  /-- MUX_SWITCH_DONE (R506): The new clock's falling edge arrives and the multiplexer passes it, clearing
  SWITCHING. -/
  | muxSwitchDone (clkout : Bool)
  /-- MUX_HUNG (R506): A switch waits 10 us for an edge and the multiplexer is marked HUNG. -/
  | muxHung (clkout : Bool)
  /-- CLK_RESCUE (R508): CLK_RESCUE with code 0x5C forces a multiplexer to a good source, or sets RESCUE_DENIED. -/
  | clkRescue (agent : Agent) (value : BitVec 32)
  /-- RESCUE_DONE (R508): 16 cycles of the new source pass and the rescue releases with RESCUED. -/
  | rescueDone
  /-- CLKOUT_SELECT (R512): Writing CLK_OUT.SEL switches the CLKOUT source glitch-free. -/
  | clkoutSelect (agent : Agent) (sel : Fin 8)
  /-- CLKOUT_DIV_CHANGE (R512): A new CLKOUT DIV takes effect at the next falling output edge. -/
  | clkoutDivChange
  /-- PORT_ENABLE_WRITE (R502): Writing HOST_CTL.PORTn_EN starts or stops the port's UP loop and link training. -/
  | portEnableWrite (agent : Agent) (port : Port) (en : Bool)
  /-- TIME_READ_LATCH (R511): A read of TB_TIME_LO latches the whole chip time for the reading agent. -/
  | timeReadLatch (agent : Agent)
  /-- COUNTER_READ_LATCH (R551): A read of PC_LOk latches the whole counter for the reading agent. -/
  | counterReadLatch (agent : Agent) (k : Fin 518)
  /-- CALREF_CHECK (R516): Every 100 ms CALREF is compared with the bandgap, setting or clearing CALREF_BAD. -/
  | calrefCheck (refMV : BitVec 16)
  /-- CAL_TEMP_TRIGGER (R522): A block's temperature departs from CALB_TEMP by more than THR and its kinds become
  pending. -/
  | calTempTrigger (block : Fin 11) (temp : BitVec 16)
  /-- CAL_REQUEST (R522): Writing CALB_STAT.REQ makes every kind of the block pending. -/
  | calRequest (agent : Agent) (block : Fin 11)
  /-- CAL_AUTO_RUN (R523): The unit starts a pending calibration of blocks 8-10 by itself. -/
  | calAutoRun (block : Fin 11) (refMV : BitVec 16)
  /-- CAL_RUN_DONE (R523): A calibration run ends, creating a record and clearing its pending bit, or failing with
  CAUSE. -/
  | calRunDone (block : Fin 11) (kind : Fin 8) (sub cls : Fin 3) (values : List (BitVec 32)) (temp : BitVec 16) (found : Fin 6) (refMV : BitVec 16)
  /-- CAL_IDLE_APPLY (R527): With the scheduler IDLE a new record takes effect at the block's next idle tick. -/
  | calIdleApply (block : Fin 11)
  /-- CAL_RECORD_READ (R530): CAL_REC_CMD.READ copies a slot into CAL_REC0-15. -/
  | calRecordRead (agent : Agent)
  /-- CAL_RECORD_WRITE (R531): CAL_REC_CMD.WRITE stores a record in a slot, or refuses it with KEY_BAD or
  WR_DENIED. -/
  | calRecordWrite (agent : Agent)
  /-- FAULT_REPORT (R534): A fault report rises through the fault managers, each acting for its level, and the
  Square writes a fault record. -/
  | faultReport
  /-- HEARTBEAT_LOSS (R540): HB_MISS periods pass without a heartbeat and the parent acts on the lost child. -/
  | heartbeatLoss (child : Child)
  /-- FM_ISOLATE (R542): Writing FM_ISOLATE isolates heads. -/
  | fmIsolate (agent : Agent) (heads : BitVec 8)
  /-- FM_REINSTATE (R543): Writing FM_REINSTATE resets and reinstates heads, or sets FM_DENIED. -/
  | fmReinstate (agent : Agent) (heads alive : BitVec 8)
  /-- LOCKSTEP_MISMATCH (R545): The Square's two machines disagree, raising LOCKSTEP and entering SAFE. -/
  | lockstepMismatch (cycle : BitVec 32)
  /-- SAFE_EXT (R545): SAFE_N driven low from outside asserts the SAFE net and raises SAFE_EXT. -/
  | safeExt (low : Bool)
  /-- SQ_KICK (R547): A write of SQ_KICK with code 0x4B restarts the watchdog count. -/
  | sqKick (agent : Agent) (value : BitVec 32)
  /-- WATCHDOG_ENABLE (R547): Writing SQ_CFG.WD_EN turns the watchdog on until core reset. -/
  | watchdogEnable (agent : Agent)
  /-- WD_EXPIRE (R547): A watchdog period passes without a kick, raising FW_WATCHDOG and WD_WARN, and SAFE on the
  second. -/
  | wdExpire
  /-- SAFE_REQ (R547): A write of SQ_SAFE with code 0x5A enters SAFE with cause 7. -/
  | safeReq (agent : Agent) (value : BitVec 32)
  /-- WARM_RESET (R553): RST_CTL.WARM resets everything outside the island except the DRAM controller, entering
  recovery with RECOVER. -/
  | warmReset (agent : Agent) (value : BitVec 32)
  /-- CORE_RESET (R553): RST_CTL.CORE or RESET_N resets everything outside the island after quieting the drivers. -/
  | coreReset (agent : Agent) (value : BitVec 32)
  /-- POR_REQUEST (R553): RST_CTL.POR sequences all rails off and on again as a requested power-on reset. -/
  | porRequest (agent : Agent) (value : BitVec 32)
  /-- RESET_PIN (R553): RESET_N held low for at least 1 us causes a core reset on release. -/
  | resetPin (low : Bool)
  /-- BOOT (R557): After core reset the boot ROM loads and verifies a flash image, or resumes, or enters recovery. -/
  | boot (ident : List (BitVec 8))
  /-- RECOVERY_STATUS (R560): Recovery request STATUS returns RST_STAT. -/
  | recoveryStatus (port : Port)
  /-- RECOVERY_ERASE (R560): Recovery request ERASE erases 4 KiB flash sectors. -/
  | recoveryErase (port : Port) (offset length : BitVec 32)
  /-- RECOVERY_PROGRAM (R560): Recovery request PROGRAM writes up to 4,096 bytes of flash. -/
  | recoveryProgram (port : Port) (offset : BitVec 32) (data : List (BitVec 8))
  /-- RECOVERY_READ (R560): Recovery request READ returns up to 4,096 bytes of flash. -/
  | recoveryRead (port : Port) (offset length : BitVec 32)
  /-- RECOVERY_REBOOT (R560): Recovery request REBOOT causes a core reset. -/
  | recoveryReboot (port : Port)
  /-- MGMT_STATUS (R424): An attached endpoint in normal running answers STATUS with RST_STAT by itself. -/
  | mgmtStatus (port : Port)
  /-- MGMT_UNSUPPORTED_REQUEST (R424): An attached endpoint in normal running completes every other request
  UNSUPPORTED. -/
  | mgmtUnsupportedRequest (port : Port)
  /-- SPI_TRANSFER_DONE (R575): A flash command finishes moving its bytes and SPI_STAT.DONE sets. -/
  | spiTransferDone (data : List (BitVec 8))
  /-- SPI_BUSY_TIMEOUT (R575): The flash holds busy beyond 5 s and SPI_STAT.ERR sets. -/
  | spiBusyTimeout
  /-- GPIO_FUNC_WRITE (R574): A GPIO_FUNCn write is checked against the permit and feature, or dropped with
  DENIED. -/
  | gpioFuncWrite (agent : Agent) (line : Fin 16) (value : BitVec 32)
  /-- GPIO_OE_SET (R574): GPIO_OE_SET sets output enables of owned lines, or is dropped whole with DENIED. -/
  | gpioOeSet (agent : Agent) (lines : BitVec 16)
  /-- GPIO_OE_CLR (R574): GPIO_OE_CLR clears output enables of owned lines, or is dropped whole with DENIED. -/
  | gpioOeClr (agent : Agent) (lines : BitVec 16)
  /-- GPIO_OUT_SET (R574): GPIO_OUT_SET sets output latches of owned lines, or is dropped whole with DENIED. -/
  | gpioOutSet (agent : Agent) (lines : BitVec 16)
  /-- GPIO_OUT_CLR (R574): GPIO_OUT_CLR clears output latches of owned lines, or is dropped whole with DENIED. -/
  | gpioOutClr (agent : Agent) (lines : BitVec 16)
  /-- TMR_CFG_WRITE (R574): A TMR_CFGk write is checked against the timer and line permits, or dropped with
  DENIED. -/
  | tmrCfgWrite (agent : Agent) (k : Fin 4) (value : BitVec 32)
  /-- GPIO_EDGE_EVENT (R576): A selected edge on a GPIO line sets its GPIO_EVT bit and may be captured by a timer
  or wake from Dormant. -/
  | gpioEdgeEvent (line : Fin 16) (rise : Bool)
  /-- TIMER_PERIOD_START (R577): An edge timer's PWM period starts, taking the latest PER and DUTY. -/
  | timerPeriodStart (k : Fin 4)
  /-- KERB_STATUS_READ (R580): A Kerb read of the status window returns the word within 5 ns without acknowledge,
  latching time on word 10. -/
  | kerbStatusRead (word : Fin 64)
  /-- KERB_INBOUND_WRITE (R578): A Kerb write to KRB_INn stores the word, sets IN_WR and is acknowledged. -/
  | kerbInboundWrite (n : Fin 32) (value : BitVec 16)
  /-- KERB_COMMAND_WRITE (R578): A Kerb write to the command word stores KRB_CMD, sets CMD and is acknowledged. -/
  | kerbCommandWrite (value : BitVec 16)
  /-- KERB_INT_CLEAR (R578): A Kerb write to the interrupt word clears ASSERT and sets INT_CLR. -/
  | kerbIntClear (value : BitVec 16)
  /-- KERB_WAKE_WORD (R578): A Kerb write of 0x5A17 to the wake word wakes the controller from Dormant. -/
  | kerbWakeWord (value : BitVec 16)
  /-- KERB_ACK_ACCESS (R581): Any other acknowledged Kerb access returns its word or discards the write, under the
  core or island responder. -/
  | kerbAckAccess (word : BitVec 8) (write : Bool)
  /-- KERB_PROTOCOL_ERROR (R583): KRD_N and KWR_N both low: nothing is performed or acknowledged and PROTO sets. -/
  | kerbProtocolError
  /-- KERB_RESPONDER_SWITCH (R582): With both strobes high service passes between the core and island responders. -/
  | kerbResponderSwitch
  /-- KERB_COPY_REFRESH (R579): Every 1 us the island refreshes the copied status window words. -/
  | kerbCopyRefresh (temp : BitVec 16)
  /-- SMBUS_READ_WORD (R585): SMBus Read Word returns a status window word. -/
  | smbusReadWord (word : Fin 64)
  /-- SMBUS_BLOCK_READ (R585): SMBus Block Read with command 0x40 returns window words 0-15. -/
  | smbusBlockRead
  /-- SMBUS_NACK (R585): Any other SMBus command or write is NACKed and NACKED sets. -/
  | smbusNack
  /-- SMBUS_ALERT_RESPONSE (R585): The Alert Response Address returns the target address. -/
  | smbusAlertResponse
  /-- JTAG_TAP_RESET (R586): A TAP reset loads IDCODE as the instruction. -/
  | jtagTapReset
  /-- IDCODE (R586): IDCODE selects the variant's identification register. -/
  | idcode
  /-- SAMPLE_PRELOAD (R586): SAMPLE/PRELOAD selects the boundary register. -/
  | samplePreload (cells : BitVec 118)
  /-- EXTEST (R586): EXTEST drives the boundary and inhibits every laser and driver output. -/
  | extest
  /-- CLAMP (R586): CLAMP holds the boundary and selects bypass, inhibiting drivers. -/
  | clamp
  /-- HIGHZ (R586): HIGHZ floats outputs and selects bypass, inhibiting drivers. -/
  | highz
  /-- BYPASS (R586): BYPASS selects the bypass register. -/
  | bypass
  /-- DEBUG_ACCESS (R587): Update-DR of DEBUG with GO performs one 32-bit access as agent 0x32, unless the key is
  fused. -/
  | debugAccess (go write : Bool) (addr : BitVec 40) (data : Word)
  /-- RAIL_WINDOW_RETURN (R480): A rail that had left its window, a low VMOT or a low VLAS returns within its
  limits, so that cause of the supply fault is no longer live and the SUPPLY inhibit and park requests release
  once no cause remains. -/
  | railWindowReturn (rail : Fin 7)
  /-- VIN12_GOOD (R482): VIN12 rises above 11.0 V, and the waiting power sequencer enables step 2. -/
  | vin12Good
  /-- PAGE_IDLE_EXPIRE (R402): PAGE_IDLE passes with no queued request to an open row, so the row closes after its
  dirty check word is written back. -/
  | pageIdleExpire (c : DramChan) (bank : Fin 32)
  /-- KERB_STROBE_RISE (R581): The Kerb master raises KRD_N or KWR_N; KACK_N rises and KD returns to high
  impedance, or a strobe released early completes with a 10 ns KACK_N pulse. -/
  | kerbStrobeRise
  /-- ILLEGAL_INSTR (R351): A Plaza core issues a word with an illegal or unlisted opcode, or a 1 in a zero field,
  and raises ILLEGAL_INSTR. -/
  | illegalInstr (p : CoreId)
deriving DecidableEq, Repr

end Sys2Proof
end

