-- ==== Sys2Proof/Decode.lean ====
section
/-! DEFINITION. The commands that a word spells.  spec/opcode_table.json gives no row any bits: the commands reach this block as
accesses, protocol steps and events, not as encoded words, so no word spells one.  (The words of the Plaza cores are read where
a core fetches them: Machine/Operands.lean.) -/

namespace Sys2Proof

/-- The command that a word of the table's bits spells: none, since the table gives no bits. -/
def decodeTableWord (_nbits _w : Nat) : Option Instr := none

end Sys2Proof
end

