-- ==== Sys2Proof/Machine/Layout.lean ====
section
/-! DEFINITION. Where the units stand in the physical address map (R15, R20, R32, R51, R53 and the base addresses of
the chapters), and the shape of one row of the register map: a register's offset, its fields, their access types of
R13 and their reset values. -/

namespace Sys2Proof
namespace Machine

/-- The place of one register field: the register's address and the field's bits [hi:lo]. -/
structure Fld where
  addr : Nat
  hi : Nat
  lo : Nat
deriving DecidableEq, Repr

/-- The access types of R13. -/
inductive Acc where
  | rw | ro | w1c | w1s | wo | rc
deriving DecidableEq, Repr

/-- One field of the register map: bits [hi:lo], access type and reset value. -/
structure FieldSpec where
  hi : Nat
  lo : Nat
  acc : Acc
  reset : Nat
deriving DecidableEq, Repr

/-- One row of a register map: offset in its unit, how many registers it stands for and at what stride, and the fields. -/
structure RegSpec where
  off : Nat
  count : Nat
  stride : Nat
  fields : List FieldSpec
deriving DecidableEq, Repr

/-- Base of head block Hn (R15). -/
def headBase (n : Nat) : Nat :=
  if n < 4 then 0x43000000 + n * 0x100000 else 0x44000000 + (n - 4) * 0x100000

/-- Register base of Roundabout r: 0 Ring Road, 1-5 the Avenues of Control, Data, Side A, Side B and Power, 6-13 the
Streets of H0-H7, 14-20 the Streets of the spindle, sweep, Arcade, DRAM, host-link, supply and clock blocks (R32 and
the chapters that give their PORT_MAP). -/
def rbtBase (r : Nat) : Nat :=
  if r = 0 then 0x40001000
  else if r = 1 then 0x41F00000
  else if r = 2 then 0x42F00000
  else if r = 3 then 0x43F00000
  else if r = 4 then 0x44F00000
  else if r = 5 then 0x45F00000
  else if r < 14 then headBase (r - 6) + 0xFF00
  else if r = 14 then 0x4500FF00
  else if r = 15 then 0x4200FF00
  else if r = 16 then 0x4230FF00
  else if r = 17 then 0x4240FF00
  else if r = 18 then 0x4140FF00
  else if r = 19 then 0x4510FF00
  else 0x4520FF00

def xingBase : Nat := 0x40001100

/-- Avenue register base of district d: 0 Control, 1 Data, 2 Side A, 3 Side B, 4 Power (R51). -/
def paceBase (d : Nat) : Nat := rbtBase (d + 1)

def permitBase (n : Nat) : Nat := 0x40002000 + 8 * n

/-- Read channel Bs of Hn is channel 4n + s: head block base + 0x1000 s (R131). -/
def rcBase (c : Nat) : Nat := headBase (c / 4) + 0x1000 * (c % 4)

def decBase : Nat := 0x42100000
def tcBase : Nat := 0x42200000
def wcBase (n : Nat) : Nat := headBase n + 0x5000

/-- The window of engine SEk (R15, R226) and its registers (R237). -/
def seWindow (k : Nat) : Nat := 0x50000000 + k * 0x10000
def seBase (k : Nat) : Nat := seWindow k + 0xF000
def spnBase : Nat := 0x45000000
def sldBase (n : Nat) : Nat := headBase n + 0x7000

/-- The control-class FIFOs (R339, R536, and the host-link and archive chapters): 0 tile completion, 1-8 write
completion of H0-H7, 9 step records, 10 audit, 11 archive request, 12 host command, 13 fault ring. -/
def fifoBase (f : Nat) : Nat :=
  if f = 0 then 0x42200100
  else if f < 9 then headBase (f - 1) + 0x5100
  else if f = 9 then 0x42000100
  else if f = 10 then 0x41500100
  else if f = 11 then 0x41500140
  else if f = 12 then 0x41400100
  else 0x40000600

def swpBase : Nat := 0x42000000
def plzBase : Nat := 0x41000000
def arcBase : Nat := 0x42300000
def dramBase : Nat := 0x42400000
def dramnBase (n : Nat) : Nat := 0x42401000 + 0x1000 * n
def dchBase (c : Nat) : Nat := dramnBase (c / 2) + 0x400 * (c % 2 + 1)
def memsBase : Nat := 0x40003000

/-- The remap registers of one SRAM macro.  The bus reaches them through MEMR_SEL (R421), so this is the model's own
key for them, above the 40-bit map. -/
def memrBase (m : Nat) : Nat := 0x20000000000 + 0x40 * m

/-- The endpoint registers of a host port (R426).  They are in the host's BAR0 and not in the physical map, so this is
the model's own key for them. -/
def hbarBase (p : Nat) : Nat := 0x10000000000 + 0x10000 * p
def hostBase : Nat := 0x41400000
def arvBase : Nat := 0x41500000
def keyBase : Nat := 0x41600000
def supBase : Nat := 0x45100000
def tbBase : Nat := 0x40000400
def clkBase : Nat := 0x45200000
def clkrBase : Nat := 0x40001200
def calBase : Nat := 0x45101000
def calbBase (b : Nat) : Nat := 0x45101100 + 0x20 * b

/-- Base of the block with number b in the cell error map: 0-7 head blocks, 8 spindle, 9 sweep scheduler, 10 inner-code
decoder, 11 tile-code, 12 Arcade, 13 DRAM controller, 14 Plaza cores, 15 host-link, 16 archive engine, 17 session and
key store, 18 supply, 19 clock. -/
def blockBase (b : Nat) : Nat :=
  if b < 8 then headBase b
  else if b = 8 then spnBase
  else if b = 9 then swpBase
  else if b = 10 then decBase
  else if b = 11 then tcBase
  else if b = 12 then arcBase
  else if b = 13 then dramBase
  else if b = 14 then plzBase
  else if b = 15 then hostBase
  else if b = 16 then arvBase
  else if b = 17 then keyBase
  else if b = 18 then supBase
  else clkBase

/-- Cells of each block (R535). -/
def blockCells (b : Nat) : Nat :=
  if b < 8 then 10
  else if b = 8 then 5
  else if b = 9 then 4
  else if b = 10 then 41
  else if b = 12 then 5
  else if b = 13 then 6
  else if b = 15 then 6
  else if b = 18 then 5
  else if b = 19 then 4
  else 1

/-- The cell error register of cell c of block b is named by 64 b + c (R535). -/
def cerrBase (bc : Nat) : Nat := blockBase (bc / 64) + 0xFC00 + 4 * (bc % 64)

def sqBase : Nat := 0x40000500
def capBase : Nat := 0x40000000
def rstBase : Nat := 0x40000700
def pinBase : Nat := 0x40004000

/-- PC_LOk and PC_HIk (R551). -/
def pcLo (k : Nat) : Nat := 0x40008000 + 8 * k
def pcHi (k : Nat) : Nat := 0x40008004 + 8 * k
def pcWrap (j : Nat) : Nat := 0x40009100 + 4 * j

/-- The ranges of the physical address map (R15). -/
inductive Region where
  | rom | tcm | device | staging | hole
deriving DecidableEq, Repr

/-- The range of R15 that holds an address.  Device space is the assigned unit ranges. -/
def regionOf (a : Nat) : Region :=
  if a < 0x40000 then .rom
  else if 0x1000000 ≤ a ∧ a < 0x1080000 then .tcm
  else if 0x40000000 ≤ a ∧ a < 0x46000000 then .device
  else if 0x50000000 ≤ a ∧ a < 0x500A0000 then .device
  else if 0x8000000000 ≤ a ∧ a < 0x8400000000 then .staging
  else .hole

end Machine
end Sys2Proof
end

