-- ==== Sys2Proof/Machine/RegMap.lean ====
section
/-! DEFINITION. The register map, field by field, from the register tables of the spec: for every register a
function that gives its address (from the unit's instance number and, for a numbered register, its index), for
every named field the field's place, and for every unit the table of access types and reset values.  Reset values
that depend on the instance or on the variant are 0 in a table and are given by `regReset` of Machine/RegFile.lean. -/

namespace Sys2Proof
namespace Machine

/-! ### RBT: a Roundabout (R31, R32); argument: the Roundabout number 0-20 -/

def regRBT_CFG (n : Nat) : Nat := rbtBase n + 0x0
def fldRBT_CFG_URG_CAP (n : Nat) : Fld := ⟨regRBT_CFG n, 25, 20⟩
def fldRBT_CFG_STALL_LIMIT (n : Nat) : Fld := ⟨regRBT_CFG n, 19, 12⟩
def fldRBT_CFG_POLICY (n : Nat) : Fld := ⟨regRBT_CFG n, 1, 1⟩
def fldRBT_CFG_URG_EN (n : Nat) : Fld := ⟨regRBT_CFG n, 0, 0⟩
def regRBT_STAT (n : Nat) : Nat := rbtBase n + 0xc
def fldRBT_STAT_PORT_MAP (n : Nat) : Fld := ⟨regRBT_STAT n, 31, 16⟩
def fldRBT_STAT_STALL (n : Nat) : Fld := ⟨regRBT_STAT n, 4, 4⟩
def fldRBT_STAT_URG_SAT (n : Nat) : Fld := ⟨regRBT_STAT n, 3, 3⟩
def fldRBT_STAT_CLAMP (n : Nat) : Fld := ⟨regRBT_STAT n, 2, 2⟩
def fldRBT_STAT_PENDING (n : Nat) : Fld := ⟨regRBT_STAT n, 0, 0⟩
def regRBT_WGT0 (n : Nat) : Nat := rbtBase n + 0x4
def fldRBT_WGT0_W7 (n : Nat) : Fld := ⟨regRBT_WGT0 n, 31, 28⟩
def fldRBT_WGT0_W6 (n : Nat) : Fld := ⟨regRBT_WGT0 n, 27, 24⟩
def fldRBT_WGT0_W5 (n : Nat) : Fld := ⟨regRBT_WGT0 n, 23, 20⟩
def fldRBT_WGT0_W4 (n : Nat) : Fld := ⟨regRBT_WGT0 n, 19, 16⟩
def fldRBT_WGT0_W3 (n : Nat) : Fld := ⟨regRBT_WGT0 n, 15, 12⟩
def fldRBT_WGT0_W2 (n : Nat) : Fld := ⟨regRBT_WGT0 n, 11, 8⟩
def fldRBT_WGT0_W1 (n : Nat) : Fld := ⟨regRBT_WGT0 n, 7, 4⟩
def fldRBT_WGT0_W0 (n : Nat) : Fld := ⟨regRBT_WGT0 n, 3, 0⟩
def regRBT_WGT1 (n : Nat) : Nat := rbtBase n + 0x8
def fldRBT_WGT1_W15 (n : Nat) : Fld := ⟨regRBT_WGT1 n, 31, 28⟩
def fldRBT_WGT1_W14 (n : Nat) : Fld := ⟨regRBT_WGT1 n, 27, 24⟩
def fldRBT_WGT1_W13 (n : Nat) : Fld := ⟨regRBT_WGT1 n, 23, 20⟩
def fldRBT_WGT1_W12 (n : Nat) : Fld := ⟨regRBT_WGT1 n, 19, 16⟩
def fldRBT_WGT1_W11 (n : Nat) : Fld := ⟨regRBT_WGT1 n, 15, 12⟩
def fldRBT_WGT1_W10 (n : Nat) : Fld := ⟨regRBT_WGT1 n, 11, 8⟩
def fldRBT_WGT1_W9 (n : Nat) : Fld := ⟨regRBT_WGT1 n, 7, 4⟩
def fldRBT_WGT1_W8 (n : Nat) : Fld := ⟨regRBT_WGT1 n, 3, 0⟩

/-- The registers of unit RBT: a Roundabout (R31, R32); argument: the Roundabout number 0-20. -/
def regsRBT : List RegSpec := [
  ⟨0x0, 1, 4, [⟨31, 26, .ro, 0⟩, ⟨25, 20, .rw, 16⟩, ⟨19, 12, .rw, 20⟩, ⟨11, 2, .ro, 0⟩, ⟨1, 1, .rw, 0⟩, ⟨0, 0, .rw, 1⟩]⟩,
  ⟨0xc, 1, 4, [⟨31, 16, .ro, 0⟩, ⟨15, 5, .ro, 0⟩, ⟨4, 4, .w1c, 0⟩, ⟨3, 3, .w1c, 0⟩, ⟨2, 2, .w1c, 0⟩, ⟨1, 1, .ro, 0⟩, ⟨0, 0, .ro, 0⟩]⟩,
  ⟨0x4, 1, 4, [⟨31, 28, .rw, 0⟩, ⟨27, 24, .rw, 0⟩, ⟨23, 20, .rw, 0⟩, ⟨19, 16, .rw, 0⟩, ⟨15, 12, .rw, 0⟩, ⟨11, 8, .rw, 0⟩, ⟨7, 4, .rw, 0⟩, ⟨3, 0, .rw, 0⟩]⟩,
  ⟨0x8, 1, 4, [⟨31, 28, .rw, 0⟩, ⟨27, 24, .rw, 0⟩, ⟨23, 20, .rw, 0⟩, ⟨19, 16, .rw, 0⟩, ⟨15, 12, .rw, 0⟩, ⟨11, 8, .rw, 0⟩, ⟨7, 4, .rw, 0⟩, ⟨3, 0, .rw, 0⟩]⟩]

/-! ### XING: Crossing status (R43) -/

def regXING_ARMED0 : Nat := xingBase + 0x0
def fldXING_ARMED0_ARMED : Fld := ⟨regXING_ARMED0, 31, 0⟩
def regXING_ARMED1 : Nat := xingBase + 0x4
def fldXING_ARMED1_ARMED : Fld := ⟨regXING_ARMED1, 19, 0⟩
def regXING_EVT0 : Nat := xingBase + 0x8
def fldXING_EVT0_WITHDREW : Fld := ⟨regXING_EVT0, 31, 0⟩
def regXING_EVT1 : Nat := xingBase + 0xc
def fldXING_EVT1_WITHDREW : Fld := ⟨regXING_EVT1, 19, 0⟩

/-- The registers of unit XING: Crossing status (R43). -/
def regsXING : List RegSpec := [
  ⟨0x0, 1, 4, [⟨31, 0, .ro, 0⟩]⟩,
  ⟨0x4, 1, 4, [⟨31, 20, .ro, 0⟩, ⟨19, 0, .ro, 0⟩]⟩,
  ⟨0x8, 1, 4, [⟨31, 0, .w1c, 0⟩]⟩,
  ⟨0xc, 1, 4, [⟨31, 20, .ro, 0⟩, ⟨19, 0, .w1c, 0⟩]⟩]

/-! ### PACE: a district pace monitor (R51); argument: 0 Control, 1 Data, 2 Side A, 3 Side B, 4 Power -/

def regPACE_RATE (n : Nat) : Nat := paceBase n + 0x100
def fldPACE_RATE_MIN_RATE (n : Nat) : Fld := ⟨regPACE_RATE n, 31, 16⟩
def fldPACE_RATE_RATE (n : Nat) : Fld := ⟨regPACE_RATE n, 15, 0⟩
def regPACE_TARGET (n : Nat) : Nat := paceBase n + 0x104
def fldPACE_TARGET_FIXED (n : Nat) : Fld := ⟨regPACE_TARGET n, 31, 16⟩
def fldPACE_TARGET_VAR (n : Nat) : Fld := ⟨regPACE_TARGET n, 15, 0⟩
def regPACE_STAT (n : Nat) : Nat := paceBase n + 0x108
def fldPACE_STAT_EFF_TARGET (n : Nat) : Fld := ⟨regPACE_STAT n, 31, 16⟩
def fldPACE_STAT_GOV_AT_MAX (n : Nat) : Fld := ⟨regPACE_STAT n, 3, 3⟩
def fldPACE_STAT_COLLAPSE (n : Nat) : Fld := ⟨regPACE_STAT n, 2, 2⟩
def fldPACE_STAT_SHORT_SEEN (n : Nat) : Fld := ⟨regPACE_STAT n, 1, 1⟩
def fldPACE_STAT_SHORT (n : Nat) : Fld := ⟨regPACE_STAT n, 0, 0⟩

/-- The registers of unit PACE: a district pace monitor (R51); argument: 0 Control, 1 Data, 2 Side A, 3 Side B, 4 Power. -/
def regsPACE : List RegSpec := [
  ⟨0x100, 1, 4, [⟨31, 16, .rc, 65535⟩, ⟨15, 0, .ro, 0⟩]⟩,
  ⟨0x104, 1, 4, [⟨31, 16, .rw, 128⟩, ⟨15, 0, .rw, 512⟩]⟩,
  ⟨0x108, 1, 4, [⟨31, 16, .ro, 640⟩, ⟨15, 4, .ro, 0⟩, ⟨3, 3, .ro, 0⟩, ⟨2, 2, .w1c, 0⟩, ⟨1, 1, .w1c, 0⟩, ⟨0, 0, .ro, 0⟩]⟩]

/-! ### PERMIT: permits (R53, R55, R56); argument: the permit number -/

def regPERMIT (n : Nat) : Nat := permitBase n + 0x0
def fldPERMIT_DENY_ID (n : Nat) : Fld := ⟨regPERMIT n, 29, 24⟩
def fldPERMIT_DENIED (n : Nat) : Fld := ⟨regPERMIT n, 23, 23⟩
def fldPERMIT_FEATURE (n : Nat) : Fld := ⟨regPERMIT n, 22, 16⟩
def fldPERMIT_OWNER (n : Nat) : Fld := ⟨regPERMIT n, 13, 8⟩
def regPERMIT_REQ (n : Nat) : Nat := permitBase n + 0x4
def fldPERMIT_REQ_FEATURE (n : Nat) : Fld := ⟨regPERMIT_REQ n, 22, 16⟩
def fldPERMIT_REQ_RELEASE (n : Nat) : Fld := ⟨regPERMIT_REQ n, 1, 1⟩
def fldPERMIT_REQ_CLAIM (n : Nat) : Fld := ⟨regPERMIT_REQ n, 0, 0⟩

/-- The registers of unit PERMIT: permits (R53, R55, R56); argument: the permit number. -/
def regsPERMIT : List RegSpec := [
  ⟨0x0, 1, 4, [⟨31, 30, .ro, 0⟩, ⟨29, 24, .ro, 0⟩, ⟨23, 23, .w1c, 0⟩, ⟨22, 16, .ro, 0⟩, ⟨15, 14, .ro, 0⟩, ⟨13, 8, .ro, 0⟩, ⟨7, 0, .ro, 0⟩]⟩,
  ⟨0x4, 1, 4, [⟨31, 23, .wo, 0⟩, ⟨22, 16, .wo, 0⟩, ⟨15, 2, .wo, 0⟩, ⟨1, 1, .wo, 0⟩, ⟨0, 0, .wo, 0⟩]⟩]

/-! ### RC: a read channel (R131, R132); argument: channel 4n + s of spot Bs of head Hn -/

def regRC_CTL (n : Nat) : Nat := rcBase n + 0x0
def fldRC_CTL_SOFT_SCALE (n : Nat) : Fld := ⟨regRC_CTL n, 11, 8⟩
def fldRC_CTL_XTC_EN (n : Nat) : Fld := ⟨regRC_CTL n, 3, 3⟩
def fldRC_CTL_WEDGE_EN (n : Nat) : Fld := ⟨regRC_CTL n, 2, 2⟩
def fldRC_CTL_DATA_EN (n : Nat) : Fld := ⟨regRC_CTL n, 1, 1⟩
def fldRC_CTL_ENABLE (n : Nat) : Fld := ⟨regRC_CTL n, 0, 0⟩
def regAFE_CFG (n : Nat) : Nat := rcBase n + 0x4
def fldAFE_CFG_CTF_FC (n : Nat) : Fld := ⟨regAFE_CFG n, 23, 18⟩
def fldAFE_CFG_CTF_BOOST (n : Nat) : Fld := ⟨regAFE_CFG n, 17, 13⟩
def fldAFE_CFG_DCR_FC (n : Nat) : Fld := ⟨regAFE_CFG n, 12, 10⟩
def fldAFE_CFG_TERM (n : Nat) : Fld := ⟨regAFE_CFG n, 0, 0⟩
def regAGC_CFG (n : Nat) : Nat := rcBase n + 0x8
def fldAGC_CFG_TARGET (n : Nat) : Fld := ⟨regAGC_CFG n, 29, 24⟩
def fldAGC_CFG_FAST_MU (n : Nat) : Fld := ⟨regAGC_CFG n, 23, 20⟩
def fldAGC_CFG_TRACK_MU (n : Nat) : Fld := ⟨regAGC_CFG n, 19, 16⟩
def fldAGC_CFG_DATA_INIT (n : Nat) : Fld := ⟨regAGC_CFG n, 14, 8⟩
def fldAGC_CFG_WEDGE_INIT (n : Nat) : Fld := ⟨regAGC_CFG n, 6, 0⟩
def regTR_CFG (n : Nat) : Nat := rcBase n + 0xc
def fldTR_CFG_ACQ_KP (n : Nat) : Fld := ⟨regTR_CFG n, 31, 28⟩
def fldTR_CFG_ACQ_KI (n : Nat) : Fld := ⟨regTR_CFG n, 27, 24⟩
def fldTR_CFG_TRK_KP (n : Nat) : Fld := ⟨regTR_CFG n, 23, 20⟩
def fldTR_CFG_TRK_KI (n : Nat) : Fld := ⟨regTR_CFG n, 19, 16⟩
def fldTR_CFG_ACQ_BITS (n : Nat) : Fld := ⟨regTR_CFG n, 15, 8⟩
def fldTR_CFG_FREQ_LIM (n : Nat) : Fld := ⟨regTR_CFG n, 7, 0⟩
def regEQ_CFG (n : Nat) : Nat := rcBase n + 0x10
def fldEQ_CFG_ADAPT (n : Nat) : Fld := ⟨regEQ_CFG n, 31, 31⟩
def fldEQ_CFG_MU (n : Nat) : Fld := ⟨regEQ_CFG n, 30, 28⟩
def fldEQ_CFG_G1 (n : Nat) : Fld := ⟨regEQ_CFG n, 23, 16⟩
def fldEQ_CFG_G2 (n : Nat) : Fld := ⟨regEQ_CFG n, 15, 8⟩
def fldEQ_CFG_G3 (n : Nat) : Fld := ⟨regEQ_CFG n, 7, 0⟩
def regSYNC_CFG (n : Nat) : Nat := rcBase n + 0x14
def fldSYNC_CFG_WIN (n : Nat) : Fld := ⟨regSYNC_CFG n, 29, 24⟩
def fldSYNC_CFG_SYNC_TOL (n : Nat) : Fld := ⟨regSYNC_CFG n, 23, 20⟩
def fldSYNC_CFG_CAND_STRONG (n : Nat) : Fld := ⟨regSYNC_CFG n, 19, 16⟩
def fldSYNC_CFG_CONF_WIN (n : Nat) : Fld := ⟨regSYNC_CFG n, 15, 12⟩
def fldSYNC_CFG_FLY_MAX (n : Nat) : Fld := ⟨regSYNC_CFG n, 7, 0⟩
def regDROP_CFG (n : Nat) : Nat := rcBase n + 0x18
def fldDROP_CFG_THR (n : Nat) : Fld := ⟨regDROP_CFG n, 31, 24⟩
def fldDROP_CFG_MIN (n : Nat) : Fld := ⟨regDROP_CFG n, 23, 16⟩
def fldDROP_CFG_GUARD (n : Nat) : Fld := ⟨regDROP_CFG n, 15, 8⟩
def fldDROP_CFG_SAT_RUN (n : Nat) : Fld := ⟨regDROP_CFG n, 7, 0⟩
def regXT_CFG (n : Nat) : Nat := rcBase n + 0x1c
def fldXT_CFG_K_XT (n : Nat) : Fld := ⟨regXT_CFG n, 31, 16⟩
def fldXT_CFG_FINE_PERIOD (n : Nat) : Fld := ⟨regXT_CFG n, 11, 8⟩
def fldXT_CFG_XT_MU (n : Nat) : Fld := ⟨regXT_CFG n, 7, 4⟩
def regEQ_TAP (n i : Nat) : Nat := rcBase n + 0x40 + 4 * i
def fldEQ_TAP_TAP (n i : Nat) : Fld := ⟨regEQ_TAP n i, 15, 0⟩
def regRC_STAT (n : Nat) : Nat := rcBase n + 0x80
def fldRC_STAT_PARAM_PEND (n : Nat) : Fld := ⟨regRC_STAT n, 31, 31⟩
def fldRC_STAT_TR_LOCK (n : Nat) : Fld := ⟨regRC_STAT n, 30, 30⟩
def fldRC_STAT_WEDGE_LOCK (n : Nat) : Fld := ⟨regRC_STAT n, 29, 29⟩
def fldRC_STAT_SYNC_LOST (n : Nat) : Fld := ⟨regRC_STAT n, 28, 28⟩
def fldRC_STAT_SAMPLE_LOSS (n : Nat) : Fld := ⟨regRC_STAT n, 8, 8⟩
def fldRC_STAT_OVERRUN (n : Nat) : Fld := ⟨regRC_STAT n, 7, 7⟩
def fldRC_STAT_ABORTED (n : Nat) : Fld := ⟨regRC_STAT n, 6, 6⟩
def fldRC_STAT_TR_SLIP (n : Nat) : Fld := ⟨regRC_STAT n, 5, 5⟩
def fldRC_STAT_WEDGE_MISS (n : Nat) : Fld := ⟨regRC_STAT n, 4, 4⟩
def fldRC_STAT_SYNC_INF_SEEN (n : Nat) : Fld := ⟨regRC_STAT n, 3, 3⟩
def fldRC_STAT_CAND_REJ (n : Nat) : Fld := ⟨regRC_STAT n, 2, 2⟩
def fldRC_STAT_DROPOUT (n : Nat) : Fld := ⟨regRC_STAT n, 1, 1⟩
def fldRC_STAT_SAT (n : Nat) : Fld := ⟨regRC_STAT n, 0, 0⟩
def regRC_IEN (n : Nat) : Nat := rcBase n + 0x84
def fldRC_IEN_LOST_IE (n : Nat) : Fld := ⟨regRC_IEN n, 28, 28⟩
def fldRC_IEN_IE (n : Nat) : Fld := ⟨regRC_IEN n, 8, 0⟩
def regAGC_GAIN (n : Nat) : Nat := rcBase n + 0x88
def fldAGC_GAIN_DATA_GAIN (n : Nat) : Fld := ⟨regAGC_GAIN n, 30, 24⟩
def fldAGC_GAIN_WEDGE_GAIN (n : Nat) : Fld := ⟨regAGC_GAIN n, 14, 8⟩
def fldAGC_GAIN_AMP (n : Nat) : Fld := ⟨regAGC_GAIN n, 7, 0⟩
def regTR_FREQ (n : Nat) : Nat := rcBase n + 0x8c
def fldTR_FREQ_OFFSET (n : Nat) : Fld := ⟨regTR_FREQ n, 31, 16⟩
def regLAST_SYNC (n : Nat) : Nat := rcBase n + 0x90
def fldLAST_SYNC_SYNC_OUT (n : Nat) : Fld := ⟨regLAST_SYNC n, 31, 28⟩
def fldLAST_SYNC_SYNC1_DIST (n : Nat) : Fld := ⟨regLAST_SYNC n, 27, 24⟩
def fldLAST_SYNC_SYNC2_DIST (n : Nat) : Fld := ⟨regLAST_SYNC n, 23, 20⟩
def fldLAST_SYNC_CW1_OFS (n : Nat) : Fld := ⟨regLAST_SYNC n, 13, 7⟩
def fldLAST_SYNC_CW2_OFS (n : Nat) : Fld := ⟨regLAST_SYNC n, 6, 0⟩
def regWEDGE_STAT (n : Nat) : Nat := rcBase n + 0x94
def fldWEDGE_STAT_WEDGE (n : Nat) : Fld := ⟨regWEDGE_STAT n, 31, 22⟩
def fldWEDGE_STAT_SAM_OK (n : Nat) : Fld := ⟨regWEDGE_STAT n, 21, 21⟩
def fldWEDGE_STAT_TRK_OK (n : Nat) : Fld := ⟨regWEDGE_STAT n, 20, 20⟩
def fldWEDGE_STAT_PES_OK (n : Nat) : Fld := ⟨regWEDGE_STAT n, 19, 19⟩
def fldWEDGE_STAT_PES (n : Nat) : Fld := ⟨regWEDGE_STAT n, 15, 0⟩
def regFINE_POS (n : Nat) : Nat := rcBase n + 0x98
def fldFINE_POS_VALID (n : Nat) : Fld := ⟨regFINE_POS n, 31, 31⟩
def fldFINE_POS_FINE (n : Nat) : Fld := ⟨regFINE_POS n, 15, 0⟩
def regQUALITY (n : Nat) : Nat := rcBase n + 0x9c
def fldQUALITY_MSE (n : Nat) : Fld := ⟨regQUALITY n, 31, 16⟩
def fldQUALITY_SOFT_MAG (n : Nat) : Fld := ⟨regQUALITY n, 15, 8⟩

/-- The registers of unit RC: a read channel (R131, R132); argument: channel 4n + s of spot Bs of head Hn. -/
def regsRC : List RegSpec := [
  ⟨0x0, 1, 4, [⟨31, 12, .ro, 0⟩, ⟨11, 8, .rw, 8⟩, ⟨7, 4, .ro, 0⟩, ⟨3, 3, .rw, 1⟩, ⟨2, 2, .rw, 1⟩, ⟨1, 1, .rw, 1⟩, ⟨0, 0, .rw, 0⟩]⟩,
  ⟨0x4, 1, 4, [⟨31, 24, .ro, 0⟩, ⟨23, 18, .rw, 30⟩, ⟨17, 13, .rw, 12⟩, ⟨12, 10, .rw, 2⟩, ⟨9, 1, .ro, 0⟩, ⟨0, 0, .rw, 1⟩]⟩,
  ⟨0x8, 1, 4, [⟨31, 30, .ro, 0⟩, ⟨29, 24, .rw, 48⟩, ⟨23, 20, .rw, 3⟩, ⟨19, 16, .rw, 7⟩, ⟨15, 15, .ro, 0⟩, ⟨14, 8, .rw, 40⟩, ⟨7, 7, .ro, 0⟩, ⟨6, 0, .rw, 40⟩]⟩,
  ⟨0xc, 1, 4, [⟨31, 28, .rw, 3⟩, ⟨27, 24, .rw, 7⟩, ⟨23, 20, .rw, 5⟩, ⟨19, 16, .rw, 10⟩, ⟨15, 8, .rw, 48⟩, ⟨7, 0, .rw, 20⟩]⟩,
  ⟨0x10, 1, 4, [⟨31, 31, .rw, 1⟩, ⟨30, 28, .rw, 4⟩, ⟨27, 24, .ro, 0⟩, ⟨23, 16, .rw, 64⟩, ⟨15, 8, .rw, 64⟩, ⟨7, 0, .rw, 32⟩]⟩,
  ⟨0x14, 1, 4, [⟨31, 30, .ro, 0⟩, ⟨29, 24, .rw, 24⟩, ⟨23, 20, .rw, 3⟩, ⟨19, 16, .rw, 1⟩, ⟨15, 12, .rw, 2⟩, ⟨11, 8, .ro, 0⟩, ⟨7, 0, .rw, 4⟩]⟩,
  ⟨0x18, 1, 4, [⟨31, 24, .rw, 96⟩, ⟨23, 16, .rw, 16⟩, ⟨15, 8, .rw, 24⟩, ⟨7, 0, .rw, 12⟩]⟩,
  ⟨0x1c, 1, 4, [⟨31, 16, .rw, 8192⟩, ⟨15, 12, .ro, 0⟩, ⟨11, 8, .rw, 4⟩, ⟨7, 4, .rw, 6⟩, ⟨3, 0, .ro, 0⟩]⟩,
  ⟨0x40, 10, 4, [⟨31, 16, .ro, 0⟩, ⟨15, 0, .rw, 16384⟩]⟩,
  ⟨0x80, 1, 4, [⟨31, 31, .ro, 0⟩, ⟨30, 30, .ro, 0⟩, ⟨29, 29, .ro, 0⟩, ⟨28, 28, .ro, 0⟩, ⟨27, 9, .ro, 0⟩, ⟨8, 8, .w1c, 0⟩, ⟨7, 7, .w1c, 0⟩, ⟨6, 6, .w1c, 0⟩, ⟨5, 5, .w1c, 0⟩, ⟨4, 4, .w1c, 0⟩, ⟨3, 3, .w1c, 0⟩, ⟨2, 2, .w1c, 0⟩, ⟨1, 1, .w1c, 0⟩, ⟨0, 0, .w1c, 0⟩]⟩,
  ⟨0x84, 1, 4, [⟨31, 29, .ro, 0⟩, ⟨28, 28, .rw, 0⟩, ⟨27, 9, .ro, 0⟩, ⟨8, 0, .rw, 0⟩]⟩,
  ⟨0x88, 1, 4, [⟨31, 31, .ro, 0⟩, ⟨30, 24, .ro, 40⟩, ⟨23, 15, .ro, 0⟩, ⟨14, 8, .ro, 40⟩, ⟨7, 0, .ro, 0⟩]⟩,
  ⟨0x8c, 1, 4, [⟨31, 16, .ro, 0⟩, ⟨15, 0, .ro, 0⟩]⟩,
  ⟨0x90, 1, 4, [⟨31, 28, .ro, 0⟩, ⟨27, 24, .ro, 0⟩, ⟨23, 20, .ro, 0⟩, ⟨19, 14, .ro, 0⟩, ⟨13, 7, .ro, 0⟩, ⟨6, 0, .ro, 0⟩]⟩,
  ⟨0x94, 1, 4, [⟨31, 22, .ro, 0⟩, ⟨21, 21, .ro, 0⟩, ⟨20, 20, .ro, 0⟩, ⟨19, 19, .ro, 0⟩, ⟨18, 16, .ro, 0⟩, ⟨15, 0, .ro, 0⟩]⟩,
  ⟨0x98, 1, 4, [⟨31, 31, .ro, 0⟩, ⟨30, 16, .ro, 0⟩, ⟨15, 0, .ro, 0⟩]⟩,
  ⟨0x9c, 1, 4, [⟨31, 16, .ro, 0⟩, ⟨15, 8, .ro, 0⟩, ⟨7, 0, .ro, 0⟩]⟩]

/-! ### DEC: the inner-code decoder block (R165) -/

def regDEC_CFG : Nat := decBase + 0x0
def fldDEC_CFG_NORM : Fld := ⟨regDEC_CFG, 23, 20⟩
def fldDEC_CFG_ITER_MAX : Fld := ⟨regDEC_CFG, 12, 8⟩
def fldDEC_CFG_EARLY_STOP : Fld := ⟨regDEC_CFG, 0, 0⟩
def regDEC_STAT : Nat := decBase + 0x10
def fldDEC_STAT_PARAM_PEND : Fld := ⟨regDEC_STAT, 31, 31⟩
def fldDEC_STAT_SLICES : Fld := ⟨regDEC_STAT, 21, 16⟩
def fldDEC_STAT_BELOW_36 : Fld := ⟨regDEC_STAT, 5, 5⟩
def fldDEC_STAT_CUT : Fld := ⟨regDEC_STAT, 4, 4⟩
def fldDEC_STAT_SLICE_LOST : Fld := ⟨regDEC_STAT, 3, 3⟩
def fldDEC_STAT_ERASE_SKIP : Fld := ⟨regDEC_STAT, 2, 2⟩
def fldDEC_STAT_FAIL : Fld := ⟨regDEC_STAT, 1, 1⟩
def fldDEC_STAT_MISMATCH : Fld := ⟨regDEC_STAT, 0, 0⟩
def regDEC_SLICE0 : Nat := decBase + 0x14
def fldDEC_SLICE0_IN_SERVICE : Fld := ⟨regDEC_SLICE0, 31, 0⟩
def regDEC_SLICE1 : Nat := decBase + 0x18
def fldDEC_SLICE1_IN_SERVICE : Fld := ⟨regDEC_SLICE1, 7, 0⟩
def regDEC_IEN : Nat := decBase + 0x1c
def fldDEC_IEN_IE : Fld := ⟨regDEC_IEN, 4, 0⟩

/-- The registers of unit DEC: the inner-code decoder block (R165). -/
def regsDEC : List RegSpec := [
  ⟨0x0, 1, 4, [⟨31, 24, .ro, 0⟩, ⟨23, 20, .rw, 6⟩, ⟨19, 13, .ro, 0⟩, ⟨12, 8, .rw, 16⟩, ⟨7, 1, .ro, 0⟩, ⟨0, 0, .rw, 1⟩]⟩,
  ⟨0x10, 1, 4, [⟨31, 31, .ro, 0⟩, ⟨30, 22, .ro, 0⟩, ⟨21, 16, .ro, 40⟩, ⟨15, 6, .ro, 0⟩, ⟨5, 5, .ro, 0⟩, ⟨4, 4, .w1c, 0⟩, ⟨3, 3, .w1c, 0⟩, ⟨2, 2, .w1c, 0⟩, ⟨1, 1, .w1c, 0⟩, ⟨0, 0, .w1c, 0⟩]⟩,
  ⟨0x14, 1, 4, [⟨31, 0, .ro, 4294967295⟩]⟩,
  ⟨0x18, 1, 4, [⟨31, 8, .ro, 0⟩, ⟨7, 0, .ro, 255⟩]⟩,
  ⟨0x1c, 1, 4, [⟨31, 5, .ro, 0⟩, ⟨4, 0, .rw, 0⟩]⟩]

/-! ### TC: the tile-code block (R168, R169) -/

def regTC_CFG : Nat := tcBase + 0x0
def fldTC_CFG_WEAK_MARGIN : Fld := ⟨regTC_CFG, 11, 9⟩
def fldTC_CFG_ERR_EN : Fld := ⟨regTC_CFG, 1, 1⟩
def fldTC_CFG_CHECK_ALL : Fld := ⟨regTC_CFG, 0, 0⟩
def regTC_STAT : Nat := tcBase + 0x10
def fldTC_STAT_PARAM_PEND : Fld := ⟨regTC_STAT, 31, 31⟩
def fldTC_STAT_OPEN : Fld := ⟨regTC_STAT, 23, 16⟩
def fldTC_STAT_POISON : Fld := ⟨regTC_STAT, 6, 6⟩
def fldTC_STAT_MISPLACED : Fld := ⟨regTC_STAT, 5, 5⟩
def fldTC_STAT_SPAN_FAIL : Fld := ⟨regTC_STAT, 4, 4⟩
def fldTC_STAT_SPAN_USED : Fld := ⟨regTC_STAT, 3, 3⟩
def fldTC_STAT_FAILED : Fld := ⟨regTC_STAT, 2, 2⟩
def fldTC_STAT_WEAK : Fld := ⟨regTC_STAT, 1, 1⟩
def fldTC_STAT_COL_ERR : Fld := ⟨regTC_STAT, 0, 0⟩
def regTC_IEN : Nat := tcBase + 0x14
def fldTC_IEN_IE : Fld := ⟨regTC_IEN, 6, 0⟩
def regSPAN_CAP : Nat := tcBase + 0x20
def fldSPAN_CAP_ENC : Fld := ⟨regSPAN_CAP, 1, 1⟩
def fldSPAN_CAP_DEC : Fld := ⟨regSPAN_CAP, 0, 0⟩

/-- The registers of unit TC: the tile-code block (R168, R169). -/
def regsTC : List RegSpec := [
  ⟨0x0, 1, 4, [⟨31, 12, .ro, 0⟩, ⟨11, 9, .rw, 1⟩, ⟨8, 2, .ro, 0⟩, ⟨1, 1, .rw, 1⟩, ⟨0, 0, .rw, 0⟩]⟩,
  ⟨0x10, 1, 4, [⟨31, 31, .ro, 0⟩, ⟨30, 24, .ro, 0⟩, ⟨23, 16, .ro, 0⟩, ⟨15, 7, .ro, 0⟩, ⟨6, 6, .w1c, 0⟩, ⟨5, 5, .w1c, 0⟩, ⟨4, 4, .w1c, 0⟩, ⟨3, 3, .w1c, 0⟩, ⟨2, 2, .w1c, 0⟩, ⟨1, 1, .w1c, 0⟩, ⟨0, 0, .w1c, 0⟩]⟩,
  ⟨0x14, 1, 4, [⟨31, 7, .ro, 0⟩, ⟨6, 0, .rw, 0⟩]⟩,
  ⟨0x20, 1, 4, [⟨31, 2, .ro, 0⟩, ⟨1, 1, .ro, 1⟩, ⟨0, 0, .ro, 1⟩]⟩]

/-! ### WC: a write cell (R200-R202); argument: head -/

def regWC_CTL (n : Nat) : Nat := wcBase n + 0x0
def fldWC_CTL_VFY_EN (n : Nat) : Fld := ⟨regWC_CTL n, 8, 8⟩
def fldWC_CTL_INHIBIT (n : Nat) : Fld := ⟨regWC_CTL n, 2, 2⟩
def fldWC_CTL_PWR_LOOP_EN (n : Nat) : Fld := ⟨regWC_CTL n, 1, 1⟩
def fldWC_CTL_ENABLE (n : Nat) : Fld := ⟨regWC_CTL n, 0, 0⟩
def regWC_WS_BASE_LO (n : Nat) : Nat := wcBase n + 0x4
def fldWC_WS_BASE_LO_BASE (n : Nat) : Fld := ⟨regWC_WS_BASE_LO n, 31, 8⟩
def regWC_WS_BASE_HI (n : Nat) : Nat := wcBase n + 0x8
def fldWC_WS_BASE_HI_BASE (n : Nat) : Fld := ⟨regWC_WS_BASE_HI n, 7, 0⟩
def regWC_MPD (n : Nat) : Nat := wcBase n + 0xc
def fldWC_MPD_MPD_GAIN (n : Nat) : Fld := ⟨regWC_MPD n, 31, 16⟩
def fldWC_MPD_I_MAX (n : Nat) : Fld := ⟨regWC_MPD n, 9, 0⟩
def regWC_PWR_CFG (n : Nat) : Nat := wcBase n + 0x10
def fldWC_PWR_CFG_RD_KI (n : Nat) : Fld := ⟨regWC_PWR_CFG n, 31, 28⟩
def fldWC_PWR_CFG_WR_KI (n : Nat) : Fld := ⟨regWC_PWR_CFG n, 27, 24⟩
def fldWC_PWR_CFG_NSAMP (n : Nat) : Fld := ⟨regWC_PWR_CFG n, 23, 16⟩
def fldWC_PWR_CFG_I_R_INIT (n : Nat) : Fld := ⟨regWC_PWR_CFG n, 9, 0⟩
def regWC_LD_CUR0 (n : Nat) : Nat := wcBase n + 0x14
def fldWC_LD_CUR0_I_W (n : Nat) : Fld := ⟨regWC_LD_CUR0 n, 25, 16⟩
def fldWC_LD_CUR0_I_M (n : Nat) : Fld := ⟨regWC_LD_CUR0 n, 9, 0⟩
def regWC_LD_CUR1 (n : Nat) : Nat := wcBase n + 0x18
def fldWC_LD_CUR1_I_B (n : Nat) : Fld := ⟨regWC_LD_CUR1 n, 25, 16⟩
def fldWC_LD_CUR1_I_C (n : Nat) : Fld := ⟨regWC_LD_CUR1 n, 9, 0⟩
def regWC_LD_CUR2 (n : Nat) : Nat := wcBase n + 0x1c
def fldWC_LD_CUR2_I_R (n : Nat) : Fld := ⟨regWC_LD_CUR2 n, 9, 0⟩
def regRAW_CFG (n : Nat) : Nat := wcBase n + 0x20
def fldRAW_CFG_SYNC_STRICT (n : Nat) : Fld := ⟨regRAW_CFG n, 28, 28⟩
def fldRAW_CFG_ITER_LIM (n : Nat) : Fld := ⟨regRAW_CFG n, 27, 23⟩
def fldRAW_CFG_QUAL_MIN (n : Nat) : Fld := ⟨regRAW_CFG n, 22, 15⟩
def fldRAW_CFG_ERASE_LIM (n : Nat) : Fld := ⟨regRAW_CFG n, 14, 0⟩
def regWG_FE (n : Nat) : Nat := wcBase n + 0x30
def fldWG_FE_EN (n : Nat) : Fld := ⟨regWG_FE n, 31, 31⟩
def fldWG_FE_HYST (n : Nat) : Fld := ⟨regWG_FE n, 15, 8⟩
def fldWG_FE_THR (n : Nat) : Fld := ⟨regWG_FE n, 7, 0⟩
def regWG_TE (n : Nat) : Nat := wcBase n + 0x34
def fldWG_TE_EN (n : Nat) : Fld := ⟨regWG_TE n, 31, 31⟩
def fldWG_TE_HYST (n : Nat) : Fld := ⟨regWG_TE n, 15, 8⟩
def fldWG_TE_THR (n : Nat) : Fld := ⟨regWG_TE n, 7, 0⟩
def regWG_SHK (n : Nat) : Nat := wcBase n + 0x38
def fldWG_SHK_THR3 (n : Nat) : Fld := ⟨regWG_SHK n, 31, 24⟩
def fldWG_SHK_THR2 (n : Nat) : Fld := ⟨regWG_SHK n, 23, 16⟩
def fldWG_SHK_THR1 (n : Nat) : Fld := ⟨regWG_SHK n, 15, 8⟩
def fldWG_SHK_THR0 (n : Nat) : Fld := ⟨regWG_SHK n, 7, 0⟩
def regWG_SHK_CTL (n : Nat) : Nat := wcBase n + 0x3c
def fldWG_SHK_CTL_HYST (n : Nat) : Fld := ⟨regWG_SHK_CTL n, 15, 8⟩
def fldWG_SHK_CTL_MASK (n : Nat) : Fld := ⟨regWG_SHK_CTL n, 3, 0⟩
def regWG_REL (n : Nat) : Nat := wcBase n + 0x40
def fldWG_REL_REL_TIME (n : Nat) : Fld := ⟨regWG_REL n, 7, 0⟩
def regWC_STAT (n : Nat) : Nat := wcBase n + 0x80
def fldWC_STAT_PARAM_PEND (n : Nat) : Fld := ⟨regWC_STAT n, 31, 31⟩
def fldWC_STAT_LATCH (n : Nat) : Fld := ⟨regWC_STAT n, 30, 30⟩
def fldWC_STAT_TABLE_OK (n : Nat) : Fld := ⟨regWC_STAT n, 29, 29⟩
def fldWC_STAT_LIVE (n : Nat) : Fld := ⟨regWC_STAT n, 23, 16⟩
def fldWC_STAT_PWR_LIMIT (n : Nat) : Fld := ⟨regWC_STAT n, 9, 9⟩
def fldWC_STAT_TABLE_BAD (n : Nat) : Fld := ⟨regWC_STAT n, 8, 8⟩
def fldWC_STAT_TRIP_SRC (n : Nat) : Fld := ⟨regWC_STAT n, 7, 0⟩
def regWC_IEN (n : Nat) : Nat := wcBase n + 0x84
def fldWC_IEN_IE (n : Nat) : Fld := ⟨regWC_IEN n, 9, 0⟩
def regWC_TRIP_TIME_LO (n : Nat) : Nat := wcBase n + 0x88
def fldWC_TRIP_TIME_LO_TIME (n : Nat) : Fld := ⟨regWC_TRIP_TIME_LO n, 31, 0⟩
def regWC_TRIP_TIME_HI (n : Nat) : Nat := wcBase n + 0x8c
def fldWC_TRIP_TIME_HI_TIME (n : Nat) : Fld := ⟨regWC_TRIP_TIME_HI n, 31, 0⟩

/-- The registers of unit WC: a write cell (R200-R202); argument: head. -/
def regsWC : List RegSpec := [
  ⟨0x0, 1, 4, [⟨31, 9, .ro, 0⟩, ⟨8, 8, .rw, 1⟩, ⟨7, 3, .ro, 0⟩, ⟨2, 2, .rw, 0⟩, ⟨1, 1, .rw, 1⟩, ⟨0, 0, .rw, 0⟩]⟩,
  ⟨0x4, 1, 4, [⟨31, 8, .rw, 0⟩, ⟨7, 0, .ro, 0⟩]⟩,
  ⟨0x8, 1, 4, [⟨31, 8, .ro, 0⟩, ⟨7, 0, .rw, 128⟩]⟩,
  ⟨0xc, 1, 4, [⟨31, 16, .rw, 256⟩, ⟨15, 10, .ro, 0⟩, ⟨9, 0, .rw, 800⟩]⟩,
  ⟨0x10, 1, 4, [⟨31, 28, .rw, 4⟩, ⟨27, 24, .rw, 3⟩, ⟨23, 16, .rw, 64⟩, ⟨15, 10, .ro, 0⟩, ⟨9, 0, .rw, 0⟩]⟩,
  ⟨0x14, 1, 4, [⟨31, 26, .ro, 0⟩, ⟨25, 16, .ro, 0⟩, ⟨15, 10, .ro, 0⟩, ⟨9, 0, .ro, 0⟩]⟩,
  ⟨0x18, 1, 4, [⟨31, 26, .ro, 0⟩, ⟨25, 16, .ro, 0⟩, ⟨15, 10, .ro, 0⟩, ⟨9, 0, .ro, 0⟩]⟩,
  ⟨0x1c, 1, 4, [⟨31, 10, .ro, 0⟩, ⟨9, 0, .ro, 0⟩]⟩,
  ⟨0x20, 1, 4, [⟨31, 29, .ro, 0⟩, ⟨28, 28, .rw, 1⟩, ⟨27, 23, .rw, 4⟩, ⟨22, 15, .rw, 160⟩, ⟨14, 0, .rw, 64⟩]⟩,
  ⟨0x30, 1, 4, [⟨31, 31, .rw, 1⟩, ⟨30, 16, .ro, 0⟩, ⟨15, 8, .rw, 8⟩, ⟨7, 0, .rw, 48⟩]⟩,
  ⟨0x34, 1, 4, [⟨31, 31, .rw, 1⟩, ⟨30, 16, .ro, 0⟩, ⟨15, 8, .rw, 8⟩, ⟨7, 0, .rw, 40⟩]⟩,
  ⟨0x38, 1, 4, [⟨31, 24, .rw, 64⟩, ⟨23, 16, .rw, 64⟩, ⟨15, 8, .rw, 64⟩, ⟨7, 0, .rw, 64⟩]⟩,
  ⟨0x3c, 1, 4, [⟨31, 16, .ro, 0⟩, ⟨15, 8, .rw, 16⟩, ⟨7, 4, .ro, 0⟩, ⟨3, 0, .rw, 15⟩]⟩,
  ⟨0x40, 1, 4, [⟨31, 8, .ro, 0⟩, ⟨7, 0, .rw, 20⟩]⟩,
  ⟨0x80, 1, 4, [⟨31, 31, .ro, 0⟩, ⟨30, 30, .ro, 0⟩, ⟨29, 29, .ro, 0⟩, ⟨28, 24, .ro, 0⟩, ⟨23, 16, .ro, 0⟩, ⟨15, 10, .ro, 0⟩, ⟨9, 9, .w1c, 0⟩, ⟨8, 8, .w1c, 0⟩, ⟨7, 0, .w1c, 0⟩]⟩,
  ⟨0x84, 1, 4, [⟨31, 10, .ro, 0⟩, ⟨9, 0, .rw, 0⟩]⟩,
  ⟨0x88, 1, 4, [⟨31, 0, .ro, 0⟩]⟩,
  ⟨0x8c, 1, 4, [⟨31, 0, .ro, 0⟩]⟩]

/-! ### SE: a servo engine (R237); argument: engine -/

def regSE_CTL (n : Nat) : Nat := seBase n + 0x0
def fldSE_CTL_APPLY_NOW (n : Nat) : Fld := ⟨regSE_CTL n, 2, 2⟩
def fldSE_CTL_STOP (n : Nat) : Fld := ⟨regSE_CTL n, 1, 1⟩
def fldSE_CTL_START (n : Nat) : Fld := ⟨regSE_CTL n, 0, 0⟩
def regSE_STAT (n : Nat) : Nat := seBase n + 0x4
def fldSE_STAT_STATE (n : Nat) : Fld := ⟨regSE_STAT n, 31, 30⟩
def fldSE_STAT_PARAM_PEND (n : Nat) : Fld := ⟨regSE_STAT n, 29, 29⟩
def fldSE_STAT_MISS_RUN1 (n : Nat) : Fld := ⟨regSE_STAT n, 28, 27⟩
def fldSE_STAT_MISS_RUN0 (n : Nat) : Fld := ⟨regSE_STAT n, 26, 25⟩
def fldSE_STAT_OFFLINE_PEND (n : Nat) : Fld := ⟨regSE_STAT n, 24, 24⟩
def fldSE_STAT_EVT (n : Nat) : Fld := ⟨regSE_STAT n, 12, 12⟩
def fldSE_STAT_GEN1_DONE (n : Nat) : Fld := ⟨regSE_STAT n, 11, 11⟩
def fldSE_STAT_GEN0_DONE (n : Nat) : Fld := ⟨regSE_STAT n, 10, 10⟩
def fldSE_STAT_SWAP_HELD (n : Nat) : Fld := ⟨regSE_STAT n, 9, 9⟩
def fldSE_STAT_APPLY_DENIED (n : Nat) : Fld := ⟨regSE_STAT n, 8, 8⟩
def fldSE_STAT_START_DENIED (n : Nat) : Fld := ⟨regSE_STAT n, 7, 7⟩
def fldSE_STAT_LIVE_WR (n : Nat) : Fld := ⟨regSE_STAT n, 6, 6⟩
def fldSE_STAT_EVT_OVR (n : Nat) : Fld := ⟨regSE_STAT n, 5, 5⟩
def fldSE_STAT_DIV0 (n : Nat) : Fld := ⟨regSE_STAT n, 4, 4⟩
def fldSE_STAT_SAT (n : Nat) : Fld := ⟨regSE_STAT n, 3, 3⟩
def fldSE_STAT_FETCH_ERR (n : Nat) : Fld := ⟨regSE_STAT n, 2, 2⟩
def fldSE_STAT_ABSENT (n : Nat) : Fld := ⟨regSE_STAT n, 1, 1⟩
def fldSE_STAT_MISS (n : Nat) : Fld := ⟨regSE_STAT n, 0, 0⟩
def regSE_IEN (n : Nat) : Nat := seBase n + 0x8
def fldSE_IEN_IE (n : Nat) : Fld := ⟨regSE_IEN n, 12, 0⟩
def regSE_ENTRY (n : Nat) : Nat := seBase n + 0xc
def fldSE_ENTRY_ENTRY1 (n : Nat) : Fld := ⟨regSE_ENTRY n, 26, 16⟩
def fldSE_ENTRY_ENTRY0 (n : Nat) : Fld := ⟨regSE_ENTRY n, 10, 0⟩
def regSE_TICK_CFG (n : Nat) : Nat := seBase n + 0x10
def fldSE_TICK_CFG_SRC1 (n : Nat) : Fld := ⟨regSE_TICK_CFG n, 7, 4⟩
def fldSE_TICK_CFG_SRC0 (n : Nat) : Fld := ⟨regSE_TICK_CFG n, 3, 0⟩
def regSE_TICK_PER (n : Nat) : Nat := seBase n + 0x14
def fldSE_TICK_PER_PER1 (n : Nat) : Fld := ⟨regSE_TICK_PER n, 31, 16⟩
def fldSE_TICK_PER_PER0 (n : Nat) : Fld := ⟨regSE_TICK_PER n, 15, 0⟩
def regSE_DEADLINE (n : Nat) : Nat := seBase n + 0x18
def fldSE_DEADLINE_DL1 (n : Nat) : Fld := ⟨regSE_DEADLINE n, 31, 16⟩
def fldSE_DEADLINE_DL0 (n : Nat) : Fld := ⟨regSE_DEADLINE n, 15, 0⟩
def regSE_SWAP (n : Nat) : Nat := seBase n + 0x1c
def fldSE_SWAP_STATE_ZERO (n : Nat) : Fld := ⟨regSE_SWAP n, 4, 4⟩
def fldSE_SWAP_COEF_BANK (n : Nat) : Fld := ⟨regSE_SWAP n, 3, 2⟩
def fldSE_SWAP_PROG_BANK (n : Nat) : Fld := ⟨regSE_SWAP n, 1, 1⟩
def regSE_LOAD (n : Nat) : Nat := seBase n + 0x20
def fldSE_LOAD_GO (n : Nat) : Fld := ⟨regSE_LOAD n, 31, 31⟩
def fldSE_LOAD_KIND (n : Nat) : Fld := ⟨regSE_LOAD n, 2, 2⟩
def fldSE_LOAD_BANK (n : Nat) : Fld := ⟨regSE_LOAD n, 1, 0⟩
def regSE_LOAD_STAT (n : Nat) : Nat := seBase n + 0x24
def fldSE_LOAD_STAT_BUSY (n : Nat) : Fld := ⟨regSE_LOAD_STAT n, 31, 31⟩
def fldSE_LOAD_STAT_DONE (n : Nat) : Fld := ⟨regSE_LOAD_STAT n, 30, 30⟩
def fldSE_LOAD_STAT_BAD_BANK (n : Nat) : Fld := ⟨regSE_LOAD_STAT n, 7, 7⟩
def fldSE_LOAD_STAT_OPCODE (n : Nat) : Fld := ⟨regSE_LOAD_STAT n, 6, 6⟩
def fldSE_LOAD_STAT_RANGE (n : Nat) : Fld := ⟨regSE_LOAD_STAT n, 5, 5⟩
def fldSE_LOAD_STAT_PORT (n : Nat) : Fld := ⟨regSE_LOAD_STAT n, 4, 4⟩
def fldSE_LOAD_STAT_STORES (n : Nat) : Fld := ⟨regSE_LOAD_STAT n, 3, 3⟩
def fldSE_LOAD_STAT_ABSENT_REF (n : Nat) : Fld := ⟨regSE_LOAD_STAT n, 2, 2⟩
def fldSE_LOAD_STAT_LIVE_BANK (n : Nat) : Fld := ⟨regSE_LOAD_STAT n, 1, 1⟩
def fldSE_LOAD_STAT_FETCH (n : Nat) : Fld := ⟨regSE_LOAD_STAT n, 0, 0⟩
def regSE_WCET_B0 (n : Nat) : Nat := seBase n + 0x28
def fldSE_WCET_B0_WCET1 (n : Nat) : Fld := ⟨regSE_WCET_B0 n, 31, 16⟩
def fldSE_WCET_B0_WCET0 (n : Nat) : Fld := ⟨regSE_WCET_B0 n, 15, 0⟩
def regSE_WCET_B1 (n : Nat) : Nat := seBase n + 0x2c
def fldSE_WCET_B1_WCET1 (n : Nat) : Fld := ⟨regSE_WCET_B1 n, 31, 16⟩
def fldSE_WCET_B1_WCET0 (n : Nat) : Fld := ⟨regSE_WCET_B1 n, 15, 0⟩
def regSE_BANKS (n : Nat) : Nat := seBase n + 0x30
def fldSE_BANKS_COEF (n : Nat) : Fld := ⟨regSE_BANKS n, 11, 4⟩
def fldSE_BANKS_PROG (n : Nat) : Fld := ⟨regSE_BANKS n, 3, 0⟩
def regSE_IMG_BASE_LO (n : Nat) : Nat := seBase n + 0x34
def fldSE_IMG_BASE_LO_BASE (n : Nat) : Fld := ⟨regSE_IMG_BASE_LO n, 31, 15⟩
def regSE_IMG_BASE_HI (n : Nat) : Nat := seBase n + 0x38
def fldSE_IMG_BASE_HI_BASE (n : Nat) : Fld := ⟨regSE_IMG_BASE_HI n, 7, 0⟩
def regSE_VNOM (n : Nat) : Nat := seBase n + 0x3c
def fldSE_VNOM_VNOM1 (n : Nat) : Fld := ⟨regSE_VNOM n, 31, 16⟩
def fldSE_VNOM_VNOM0 (n : Nat) : Fld := ⟨regSE_VNOM n, 15, 0⟩
def regSE_PARAM (n i : Nat) : Nat := seBase n + 0x40 + 4 * i
def fldSE_PARAM_PARAM (n i : Nat) : Fld := ⟨regSE_PARAM n i, 31, 0⟩
def regSE_MBOX (n i : Nat) : Nat := seBase n + 0x50 + 4 * i
def fldSE_MBOX_MBOX (n i : Nat) : Fld := ⟨regSE_MBOX n i, 31, 0⟩
def regSE_EVT (n : Nat) : Nat := seBase n + 0x60
def fldSE_EVT_CODE (n : Nat) : Fld := ⟨regSE_EVT n, 31, 24⟩
def regSE_EVT_VAL (n : Nat) : Nat := seBase n + 0x64
def fldSE_EVT_VAL_VALUE (n : Nat) : Fld := ⟨regSE_EVT_VAL n, 31, 0⟩
def regSE_RUN_MAX (n : Nat) : Nat := seBase n + 0x68
def fldSE_RUN_MAX_MAX1 (n : Nat) : Fld := ⟨regSE_RUN_MAX n, 31, 16⟩
def fldSE_RUN_MAX_MAX0 (n : Nat) : Fld := ⟨regSE_RUN_MAX n, 15, 0⟩
def regSE_LAST_MISS_LO (n : Nat) : Nat := seBase n + 0x70
def fldSE_LAST_MISS_LO_TIME (n : Nat) : Fld := ⟨regSE_LAST_MISS_LO n, 31, 0⟩
def regSE_LAST_MISS_HI (n : Nat) : Nat := seBase n + 0x74
def fldSE_LAST_MISS_HI_TIME (n : Nat) : Fld := ⟨regSE_LAST_MISS_HI n, 31, 0⟩
def regSE_GEN0_CFG (n : Nat) : Nat := seBase n + 0x80
def fldSE_GEN0_CFG_EN (n : Nat) : Fld := ⟨regSE_GEN0_CFG n, 31, 31⟩
def fldSE_GEN0_CFG_MODE (n : Nat) : Fld := ⟨regSE_GEN0_CFG n, 30, 29⟩
def fldSE_GEN0_CFG_SRC (n : Nat) : Fld := ⟨regSE_GEN0_CFG n, 28, 28⟩
def fldSE_GEN0_CFG_LEN (n : Nat) : Fld := ⟨regSE_GEN0_CFG n, 15, 0⟩
def regSE_GEN0_AMP (n : Nat) : Nat := seBase n + 0x84
def fldSE_GEN0_AMP_value (n : Nat) : Fld := ⟨regSE_GEN0_AMP n, 31, 0⟩
def regSE_GEN0_INC0 (n : Nat) : Nat := seBase n + 0x88
def fldSE_GEN0_INC0_value (n : Nat) : Fld := ⟨regSE_GEN0_INC0 n, 31, 0⟩
def regSE_GEN0_INC1 (n : Nat) : Nat := seBase n + 0x8c
def fldSE_GEN0_INC1_value (n : Nat) : Fld := ⟨regSE_GEN0_INC1 n, 31, 0⟩
def regSE_GEN1_CFG (n : Nat) : Nat := seBase n + 0x90
def fldSE_GEN1_CFG_EN (n : Nat) : Fld := ⟨regSE_GEN1_CFG n, 31, 31⟩
def fldSE_GEN1_CFG_MODE (n : Nat) : Fld := ⟨regSE_GEN1_CFG n, 30, 29⟩
def fldSE_GEN1_CFG_SRC (n : Nat) : Fld := ⟨regSE_GEN1_CFG n, 28, 28⟩
def fldSE_GEN1_CFG_LEN (n : Nat) : Fld := ⟨regSE_GEN1_CFG n, 15, 0⟩
def regSE_GEN1_AMP (n : Nat) : Nat := seBase n + 0x94
def fldSE_GEN1_AMP_value (n : Nat) : Fld := ⟨regSE_GEN1_AMP n, 31, 0⟩
def regSE_GEN1_INC0 (n : Nat) : Nat := seBase n + 0x98
def fldSE_GEN1_INC0_value (n : Nat) : Fld := ⟨regSE_GEN1_INC0 n, 31, 0⟩
def regSE_GEN1_INC1 (n : Nat) : Nat := seBase n + 0x9c
def fldSE_GEN1_INC1_value (n : Nat) : Fld := ⟨regSE_GEN1_INC1 n, 31, 0⟩
def regSE_CAP_CTL (n : Nat) : Nat := seBase n + 0xa0
def fldSE_CAP_CTL_EN (n : Nat) : Fld := ⟨regSE_CAP_CTL n, 31, 31⟩
def fldSE_CAP_CTL_MODE (n : Nat) : Fld := ⟨regSE_CAP_CTL n, 30, 30⟩
def fldSE_CAP_CTL_SYNC (n : Nat) : Fld := ⟨regSE_CAP_CTL n, 29, 29⟩
def regSE_CAP_BASE_LO (n : Nat) : Nat := seBase n + 0xa4
def fldSE_CAP_BASE_LO_BASE (n : Nat) : Fld := ⟨regSE_CAP_BASE_LO n, 31, 5⟩
def regSE_CAP_BASE_HI (n : Nat) : Nat := seBase n + 0xa8
def fldSE_CAP_BASE_HI_BASE (n : Nat) : Fld := ⟨regSE_CAP_BASE_HI n, 7, 0⟩
def regSE_CAP_LEN (n : Nat) : Nat := seBase n + 0xac
def fldSE_CAP_LEN_LEN (n : Nat) : Fld := ⟨regSE_CAP_LEN n, 19, 0⟩
def regSE_CAP_STAT (n : Nat) : Nat := seBase n + 0xb0
def fldSE_CAP_STAT_WRAP (n : Nat) : Fld := ⟨regSE_CAP_STAT n, 31, 31⟩
def fldSE_CAP_STAT_DONE (n : Nat) : Fld := ⟨regSE_CAP_STAT n, 30, 30⟩
def fldSE_CAP_STAT_COUNT (n : Nat) : Fld := ⟨regSE_CAP_STAT n, 19, 0⟩

/-- The registers of unit SE: a servo engine (R237); argument: engine. -/
def regsSE : List RegSpec := [
  ⟨0x0, 1, 4, [⟨31, 3, .ro, 0⟩, ⟨2, 2, .w1s, 0⟩, ⟨1, 1, .w1s, 0⟩, ⟨0, 0, .w1s, 0⟩]⟩,
  ⟨0x4, 1, 4, [⟨31, 30, .ro, 0⟩, ⟨29, 29, .ro, 0⟩, ⟨28, 27, .ro, 0⟩, ⟨26, 25, .ro, 0⟩, ⟨24, 24, .ro, 0⟩, ⟨23, 13, .ro, 0⟩, ⟨12, 12, .w1c, 0⟩, ⟨11, 11, .w1c, 0⟩, ⟨10, 10, .w1c, 0⟩, ⟨9, 9, .w1c, 0⟩, ⟨8, 8, .w1c, 0⟩, ⟨7, 7, .w1c, 0⟩, ⟨6, 6, .w1c, 0⟩, ⟨5, 5, .w1c, 0⟩, ⟨4, 4, .w1c, 0⟩, ⟨3, 3, .w1c, 0⟩, ⟨2, 2, .w1c, 0⟩, ⟨1, 1, .w1c, 0⟩, ⟨0, 0, .w1c, 0⟩]⟩,
  ⟨0x8, 1, 4, [⟨31, 13, .ro, 0⟩, ⟨12, 0, .rw, 0⟩]⟩,
  ⟨0xc, 1, 4, [⟨31, 27, .ro, 0⟩, ⟨26, 16, .rw, 0⟩, ⟨15, 11, .ro, 0⟩, ⟨10, 0, .rw, 0⟩]⟩,
  ⟨0x10, 1, 4, [⟨31, 8, .ro, 0⟩, ⟨7, 4, .rw, 2⟩, ⟨3, 0, .rw, 1⟩]⟩,
  ⟨0x14, 1, 4, [⟨31, 16, .rw, 500⟩, ⟨15, 0, .rw, 500⟩]⟩,
  ⟨0x18, 1, 4, [⟨31, 16, .rw, 500⟩, ⟨15, 0, .rw, 500⟩]⟩,
  ⟨0x1c, 1, 4, [⟨31, 5, .ro, 0⟩, ⟨4, 4, .rw, 0⟩, ⟨3, 2, .rw, 0⟩, ⟨1, 1, .rw, 0⟩, ⟨0, 0, .ro, 0⟩]⟩,
  ⟨0x20, 1, 4, [⟨31, 31, .wo, 0⟩, ⟨30, 3, .wo, 0⟩, ⟨2, 2, .wo, 0⟩, ⟨1, 0, .wo, 0⟩]⟩,
  ⟨0x24, 1, 4, [⟨31, 31, .ro, 0⟩, ⟨30, 30, .w1c, 0⟩, ⟨29, 8, .ro, 0⟩, ⟨7, 7, .ro, 0⟩, ⟨6, 6, .ro, 0⟩, ⟨5, 5, .ro, 0⟩, ⟨4, 4, .ro, 0⟩, ⟨3, 3, .ro, 0⟩, ⟨2, 2, .ro, 0⟩, ⟨1, 1, .ro, 0⟩, ⟨0, 0, .ro, 0⟩]⟩,
  ⟨0x28, 1, 4, [⟨31, 16, .ro, 0⟩, ⟨15, 0, .ro, 0⟩]⟩,
  ⟨0x2c, 1, 4, [⟨31, 16, .ro, 0⟩, ⟨15, 0, .ro, 0⟩]⟩,
  ⟨0x30, 1, 4, [⟨31, 12, .ro, 0⟩, ⟨11, 4, .ro, 0⟩, ⟨3, 0, .ro, 0⟩]⟩,
  ⟨0x34, 1, 4, [⟨31, 15, .rw, 0⟩, ⟨14, 0, .ro, 0⟩]⟩,
  ⟨0x38, 1, 4, [⟨31, 8, .ro, 0⟩, ⟨7, 0, .rw, 128⟩]⟩,
  ⟨0x3c, 1, 4, [⟨31, 16, .rw, 6500⟩, ⟨15, 0, .rw, 12000⟩]⟩,
  ⟨0x40, 4, 4, [⟨31, 0, .rw, 0⟩]⟩,
  ⟨0x50, 4, 4, [⟨31, 0, .ro, 0⟩]⟩,
  ⟨0x60, 1, 4, [⟨31, 24, .ro, 0⟩, ⟨23, 0, .ro, 0⟩]⟩,
  ⟨0x64, 1, 4, [⟨31, 0, .ro, 0⟩]⟩,
  ⟨0x68, 1, 4, [⟨31, 16, .rw, 0⟩, ⟨15, 0, .rw, 0⟩]⟩,
  ⟨0x70, 1, 4, [⟨31, 0, .ro, 0⟩]⟩,
  ⟨0x74, 1, 4, [⟨31, 0, .ro, 0⟩]⟩,
  ⟨0x80, 1, 4, [⟨31, 31, .rw, 0⟩, ⟨30, 29, .rw, 0⟩, ⟨28, 28, .rw, 0⟩, ⟨27, 16, .ro, 0⟩, ⟨15, 0, .rw, 0⟩]⟩,
  ⟨0x84, 1, 4, [⟨31, 0, .rw, 0⟩]⟩,
  ⟨0x88, 1, 4, [⟨31, 0, .rw, 0⟩]⟩,
  ⟨0x8c, 1, 4, [⟨31, 0, .rw, 0⟩]⟩,
  ⟨0x90, 1, 4, [⟨31, 31, .rw, 0⟩, ⟨30, 29, .rw, 0⟩, ⟨28, 28, .rw, 0⟩, ⟨27, 16, .ro, 0⟩, ⟨15, 0, .rw, 0⟩]⟩,
  ⟨0x94, 1, 4, [⟨31, 0, .rw, 0⟩]⟩,
  ⟨0x98, 1, 4, [⟨31, 0, .rw, 0⟩]⟩,
  ⟨0x9c, 1, 4, [⟨31, 0, .rw, 0⟩]⟩,
  ⟨0xa0, 1, 4, [⟨31, 31, .rw, 0⟩, ⟨30, 30, .rw, 0⟩, ⟨29, 29, .rw, 0⟩, ⟨28, 0, .ro, 0⟩]⟩,
  ⟨0xa4, 1, 4, [⟨31, 5, .rw, 0⟩, ⟨4, 0, .ro, 0⟩]⟩,
  ⟨0xa8, 1, 4, [⟨31, 8, .ro, 0⟩, ⟨7, 0, .rw, 128⟩]⟩,
  ⟨0xac, 1, 4, [⟨31, 20, .ro, 0⟩, ⟨19, 0, .rw, 1024⟩]⟩,
  ⟨0xb0, 1, 4, [⟨31, 31, .w1c, 0⟩, ⟨30, 30, .w1c, 0⟩, ⟨29, 20, .ro, 0⟩, ⟨19, 0, .ro, 0⟩]⟩]

/-! ### SPN: the spindle block (R290) -/

def regSPN_CTL : Nat := spnBase + 0x0
def fldSPN_CTL_PA_EN : Fld := ⟨regSPN_CTL, 8, 8⟩
def fldSPN_CTL_DIR_INV : Fld := ⟨regSPN_CTL, 4, 4⟩
def fldSPN_CTL_STOP : Fld := ⟨regSPN_CTL, 1, 1⟩
def fldSPN_CTL_START : Fld := ⟨regSPN_CTL, 0, 0⟩
def regSPN_STAT : Nat := spnBase + 0x4
def fldSPN_STAT_STATE : Fld := ⟨regSPN_STAT, 31, 28⟩
def fldSPN_STAT_AT_SPEED : Fld := ⟨regSPN_STAT, 27, 27⟩
def fldSPN_STAT_REVERSE : Fld := ⟨regSPN_STAT, 26, 26⟩
def fldSPN_STAT_V_LIM : Fld := ⟨regSPN_STAT, 25, 25⟩
def fldSPN_STAT_I_LIM : Fld := ⟨regSPN_STAT, 24, 24⟩
def fldSPN_STAT_SPD_SRC : Fld := ⟨regSPN_STAT, 23, 23⟩
def fldSPN_STAT_ANGLE_VALID : Fld := ⟨regSPN_STAT, 22, 22⟩
def fldSPN_STAT_REGEN_PAUSE : Fld := ⟨regSPN_STAT, 21, 21⟩
def fldSPN_STAT_PARAM_PEND : Fld := ⟨regSPN_STAT, 20, 20⟩
def fldSPN_STAT_CAUSE : Fld := ⟨regSPN_STAT, 19, 16⟩
def fldSPN_STAT_WR_DENIED : Fld := ⟨regSPN_STAT, 12, 12⟩
def fldSPN_STAT_LIMITED : Fld := ⟨regSPN_STAT, 11, 11⟩
def fldSPN_STAT_CATCH_FAIL : Fld := ⟨regSPN_STAT, 10, 10⟩
def fldSPN_STAT_START_FAIL : Fld := ⟨regSPN_STAT, 9, 9⟩
def fldSPN_STAT_START_DENIED : Fld := ⟨regSPN_STAT, 8, 8⟩
def fldSPN_STAT_AMBIG : Fld := ⟨regSPN_STAT, 7, 7⟩
def fldSPN_STAT_CAUGHT : Fld := ⟨regSPN_STAT, 6, 6⟩
def fldSPN_STAT_REV_SEEN : Fld := ⟨regSPN_STAT, 5, 5⟩
def fldSPN_STAT_OC_TRIP : Fld := ⟨regSPN_STAT, 4, 4⟩
def fldSPN_STAT_LATE_DUTY : Fld := ⟨regSPN_STAT, 3, 3⟩
def fldSPN_STAT_FAULT_BRAKE : Fld := ⟨regSPN_STAT, 2, 2⟩
def fldSPN_STAT_LATCHED : Fld := ⟨regSPN_STAT, 1, 1⟩
def fldSPN_STAT_CLAMP : Fld := ⟨regSPN_STAT, 0, 0⟩
def regSPN_IEN : Nat := spnBase + 0x8
def fldSPN_IEN_IE : Fld := ⟨regSPN_IEN, 12, 0⟩
def regSPN_MOTOR : Nat := spnBase + 0xc
def fldSPN_MOTOR_POLE_PAIRS : Fld := ⟨regSPN_MOTOR, 3, 0⟩
def regSPN_PWM : Nat := spnBase + 0x10
def fldSPN_PWM_DEADTIME : Fld := ⟨regSPN_PWM, 23, 16⟩
def fldSPN_PWM_PERIOD : Fld := ⟨regSPN_PWM, 15, 0⟩
def regSPN_SENSE : Nat := spnBase + 0x14
def fldSPN_SENSE_DIV : Fld := ⟨regSPN_SENSE, 20, 16⟩
def fldSPN_SENSE_OC_TRIP : Fld := ⟨regSPN_SENSE, 15, 8⟩
def fldSPN_SENSE_GAIN : Fld := ⟨regSPN_SENSE, 1, 0⟩
def regSPN_OFFSET : Nat := spnBase + 0x18
def fldSPN_OFFSET_OFS_U : Fld := ⟨regSPN_OFFSET, 27, 16⟩
def fldSPN_OFFSET_OFS_V : Fld := ⟨regSPN_OFFSET, 11, 0⟩
def regSPN_SPEED : Nat := spnBase + 0x1c
def fldSPN_SPEED_SPD_MAX : Fld := ⟨regSPN_SPEED, 31, 16⟩
def fldSPN_SPEED_TARGET : Fld := ⟨regSPN_SPEED, 15, 0⟩
def regSPN_RAMP : Nat := spnBase + 0x20
def fldSPN_RAMP_DEC_MAX : Fld := ⟨regSPN_RAMP, 31, 16⟩
def fldSPN_RAMP_ACC_MAX : Fld := ⟨regSPN_RAMP, 15, 0⟩
def regSPN_LIMITS : Nat := spnBase + 0x24
def fldSPN_LIMITS_SPD_TOL : Fld := ⟨regSPN_LIMITS, 23, 16⟩
def fldSPN_LIMITS_IQ_LIM : Fld := ⟨regSPN_LIMITS, 15, 8⟩
def fldSPN_LIMITS_VMOD_MAX : Fld := ⟨regSPN_LIMITS, 7, 0⟩
def regSPN_START : Nat := spnBase + 0x28
def fldSPN_START_TP_LEN : Fld := ⟨regSPN_START, 31, 24⟩
def fldSPN_START_I_START : Fld := ⟨regSPN_START, 23, 16⟩
def fldSPN_START_HANDOVER : Fld := ⟨regSPN_START, 15, 0⟩
def regSPN_START2 : Nat := spnBase + 0x2c
def fldSPN_START2_START_ACC : Fld := ⟨regSPN_START2, 31, 16⟩
def fldSPN_START2_SENSE_TIME : Fld := ⟨regSPN_START2, 15, 8⟩
def fldSPN_START2_BEMF_MIN : Fld := ⟨regSPN_START2, 7, 0⟩
def regSPN_REGEN : Nat := spnBase + 0x30
def fldSPN_REGEN_PAUSE_ON : Fld := ⟨regSPN_REGEN, 31, 16⟩
def fldSPN_REGEN_PAUSE_OFF : Fld := ⟨regSPN_REGEN, 15, 0⟩
def regSPN_DETECT : Nat := spnBase + 0x34
def fldSPN_DETECT_SAT_MIN : Fld := ⟨regSPN_DETECT, 7, 0⟩
def regSPN_PA (i : Nat) : Nat := spnBase + 0x40 + 4 * i
def fldSPN_PA_ENTRY3 (i : Nat) : Fld := ⟨regSPN_PA i, 31, 24⟩
def fldSPN_PA_ENTRY2 (i : Nat) : Fld := ⟨regSPN_PA i, 23, 16⟩
def fldSPN_PA_ENTRY1 (i : Nat) : Fld := ⟨regSPN_PA i, 15, 8⟩
def fldSPN_PA_ENTRY0 (i : Nat) : Fld := ⟨regSPN_PA i, 7, 0⟩
def regSPN_SPD : Nat := spnBase + 0x60
def fldSPN_SPD_MEAS : Fld := ⟨regSPN_SPD, 31, 16⟩
def fldSPN_SPD_CMD : Fld := ⟨regSPN_SPD, 15, 0⟩
def regSPN_ANGLE : Nat := spnBase + 0x64
def fldSPN_ANGLE_DISC_ANGLE : Fld := ⟨regSPN_ANGLE, 31, 0⟩
def regSPN_LAST_START : Nat := spnBase + 0x68
def fldSPN_LAST_START_THETA_INIT : Fld := ⟨regSPN_LAST_START, 31, 24⟩
def fldSPN_LAST_START_PATH : Fld := ⟨regSPN_LAST_START, 3, 0⟩

/-- The registers of unit SPN: the spindle block (R290). -/
def regsSPN : List RegSpec := [
  ⟨0x0, 1, 4, [⟨31, 9, .ro, 0⟩, ⟨8, 8, .rw, 0⟩, ⟨7, 5, .ro, 0⟩, ⟨4, 4, .rw, 0⟩, ⟨3, 2, .ro, 0⟩, ⟨1, 1, .w1s, 0⟩, ⟨0, 0, .w1s, 0⟩]⟩,
  ⟨0x4, 1, 4, [⟨31, 28, .ro, 0⟩, ⟨27, 27, .ro, 0⟩, ⟨26, 26, .ro, 0⟩, ⟨25, 25, .ro, 0⟩, ⟨24, 24, .ro, 0⟩, ⟨23, 23, .ro, 0⟩, ⟨22, 22, .ro, 0⟩, ⟨21, 21, .ro, 0⟩, ⟨20, 20, .ro, 0⟩, ⟨19, 16, .ro, 0⟩, ⟨15, 13, .ro, 0⟩, ⟨12, 12, .w1c, 0⟩, ⟨11, 11, .w1c, 0⟩, ⟨10, 10, .w1c, 0⟩, ⟨9, 9, .w1c, 0⟩, ⟨8, 8, .w1c, 0⟩, ⟨7, 7, .w1c, 0⟩, ⟨6, 6, .w1c, 0⟩, ⟨5, 5, .w1c, 0⟩, ⟨4, 4, .w1c, 0⟩, ⟨3, 3, .w1c, 0⟩, ⟨2, 2, .w1c, 0⟩, ⟨1, 1, .w1c, 0⟩, ⟨0, 0, .w1c, 0⟩]⟩,
  ⟨0x8, 1, 4, [⟨31, 13, .ro, 0⟩, ⟨12, 0, .rw, 0⟩]⟩,
  ⟨0xc, 1, 4, [⟨31, 4, .ro, 0⟩, ⟨3, 0, .rw, 4⟩]⟩,
  ⟨0x10, 1, 4, [⟨31, 24, .ro, 0⟩, ⟨23, 16, .rw, 20⟩, ⟨15, 0, .rw, 2500⟩]⟩,
  ⟨0x14, 1, 4, [⟨31, 21, .ro, 0⟩, ⟨20, 16, .rw, 16⟩, ⟨15, 8, .rw, 112⟩, ⟨7, 2, .ro, 0⟩, ⟨1, 0, .rw, 1⟩]⟩,
  ⟨0x18, 1, 4, [⟨31, 28, .ro, 0⟩, ⟨27, 16, .ro, 0⟩, ⟨15, 12, .ro, 0⟩, ⟨11, 0, .ro, 0⟩]⟩,
  ⟨0x1c, 1, 4, [⟨31, 16, .rw, 7200⟩, ⟨15, 0, .rw, 7200⟩]⟩,
  ⟨0x20, 1, 4, [⟨31, 16, .rw, 1200⟩, ⟨15, 0, .rw, 1200⟩]⟩,
  ⟨0x24, 1, 4, [⟨31, 24, .ro, 0⟩, ⟨23, 16, .rw, 2⟩, ⟨15, 8, .rw, 96⟩, ⟨7, 0, .rw, 243⟩]⟩,
  ⟨0x28, 1, 4, [⟨31, 24, .rw, 40⟩, ⟨23, 16, .rw, 48⟩, ⟨15, 0, .rw, 300⟩]⟩,
  ⟨0x2c, 1, 4, [⟨31, 16, .rw, 200⟩, ⟨15, 8, .rw, 20⟩, ⟨7, 0, .rw, 8⟩]⟩,
  ⟨0x30, 1, 4, [⟨31, 16, .rw, 13800⟩, ⟨15, 0, .rw, 13500⟩]⟩,
  ⟨0x34, 1, 4, [⟨31, 8, .ro, 0⟩, ⟨7, 0, .rw, 8⟩]⟩,
  ⟨0x40, 4, 4, [⟨31, 24, .rw, 0⟩, ⟨23, 16, .rw, 0⟩, ⟨15, 8, .rw, 0⟩, ⟨7, 0, .rw, 0⟩]⟩,
  ⟨0x60, 1, 4, [⟨31, 16, .ro, 0⟩, ⟨15, 0, .ro, 0⟩]⟩,
  ⟨0x64, 1, 4, [⟨31, 0, .ro, 0⟩]⟩,
  ⟨0x68, 1, 4, [⟨31, 24, .ro, 0⟩, ⟨23, 4, .ro, 0⟩, ⟨3, 0, .ro, 0⟩]⟩]

/-! ### SLD: a sled cell (R314); argument: head -/

def regSLD_CTL (n : Nat) : Nat := sldBase n + 0x0
def fldSLD_CTL_MODE_FORCE (n : Nat) : Fld := ⟨regSLD_CTL n, 10, 9⟩
def fldSLD_CTL_HOME_POL (n : Nat) : Fld := ⟨regSLD_CTL n, 8, 8⟩
def fldSLD_CTL_UNPARK (n : Nat) : Fld := ⟨regSLD_CTL n, 5, 5⟩
def fldSLD_CTL_PARK (n : Nat) : Fld := ⟨regSLD_CTL n, 4, 4⟩
def fldSLD_CTL_ABORT (n : Nat) : Fld := ⟨regSLD_CTL n, 3, 3⟩
def fldSLD_CTL_HOME (n : Nat) : Fld := ⟨regSLD_CTL n, 2, 2⟩
def fldSLD_CTL_HOLD_EN (n : Nat) : Fld := ⟨regSLD_CTL n, 1, 1⟩
def fldSLD_CTL_DRV_EN (n : Nat) : Fld := ⟨regSLD_CTL n, 0, 0⟩
def regSLD_STAT (n : Nat) : Nat := sldBase n + 0x4
def fldSLD_STAT_STATE (n : Nat) : Fld := ⟨regSLD_STAT n, 31, 28⟩
def fldSLD_STAT_SEG (n : Nat) : Fld := ⟨regSLD_STAT n, 27, 25⟩
def fldSLD_STAT_POS_VALID (n : Nat) : Fld := ⟨regSLD_STAT n, 24, 24⟩
def fldSLD_STAT_MODE (n : Nat) : Fld := ⟨regSLD_STAT n, 23, 23⟩
def fldSLD_STAT_EST_VALID (n : Nat) : Fld := ⟨regSLD_STAT n, 22, 22⟩
def fldSLD_STAT_SW (n : Nat) : Fld := ⟨regSLD_STAT n, 21, 21⟩
def fldSLD_STAT_PARAM_PEND (n : Nat) : Fld := ⟨regSLD_STAT n, 20, 20⟩
def fldSLD_STAT_HOME_CAUSE (n : Nat) : Fld := ⟨regSLD_STAT n, 19, 16⟩
def fldSLD_STAT_REVERSED (n : Nat) : Fld := ⟨regSLD_STAT n, 10, 10⟩
def fldSLD_STAT_HOME_EARLY (n : Nat) : Fld := ⟨regSLD_STAT n, 9, 9⟩
def fldSLD_STAT_HOME_FAIL (n : Nat) : Fld := ⟨regSLD_STAT n, 8, 8⟩
def fldSLD_STAT_CHATTER (n : Nat) : Fld := ⟨regSLD_STAT n, 7, 7⟩
def fldSLD_STAT_LIMIT_HIT (n : Nat) : Fld := ⟨regSLD_STAT n, 6, 6⟩
def fldSLD_STAT_LOST (n : Nat) : Fld := ⟨regSLD_STAT n, 5, 5⟩
def fldSLD_STAT_STALL (n : Nat) : Fld := ⟨regSLD_STAT n, 4, 4⟩
def fldSLD_STAT_XING (n : Nat) : Fld := ⟨regSLD_STAT n, 3, 3⟩
def fldSLD_STAT_TGT_DENIED (n : Nat) : Fld := ⟨regSLD_STAT n, 2, 2⟩
def fldSLD_STAT_WR_DENIED (n : Nat) : Fld := ⟨regSLD_STAT n, 1, 1⟩
def fldSLD_STAT_CLAMP (n : Nat) : Fld := ⟨regSLD_STAT n, 0, 0⟩
def regSLD_IEN (n : Nat) : Nat := sldBase n + 0x8
def fldSLD_IEN_IE (n : Nat) : Fld := ⟨regSLD_IEN n, 10, 0⟩
def regSLD_TARGET (n : Nat) : Nat := sldBase n + 0xc
def fldSLD_TARGET_TARGET (n : Nat) : Fld := ⟨regSLD_TARGET n, 31, 0⟩
def regSLD_POS (n : Nat) : Nat := sldBase n + 0x10
def fldSLD_POS_POS (n : Nat) : Fld := ⟨regSLD_POS n, 31, 0⟩
def regSLD_TRIM (n : Nat) : Nat := sldBase n + 0x14
def fldSLD_TRIM_APPLIED (n : Nat) : Fld := ⟨regSLD_TRIM n, 31, 16⟩
def fldSLD_TRIM_REQ (n : Nat) : Fld := ⟨regSLD_TRIM n, 15, 0⟩
def regSLD_VEND (n : Nat) : Nat := sldBase n + 0x18
def fldSLD_VEND_V_STOP (n : Nat) : Fld := ⟨regSLD_VEND n, 31, 16⟩
def fldSLD_VEND_V_START (n : Nat) : Fld := ⟨regSLD_VEND n, 15, 0⟩
def regSLD_VEL (n : Nat) : Nat := sldBase n + 0x1c
def fldSLD_VEL_V_MAX (n : Nat) : Fld := ⟨regSLD_VEL n, 31, 16⟩
def fldSLD_VEL_V_BREAK (n : Nat) : Fld := ⟨regSLD_VEL n, 15, 0⟩
def regSLD_ACC (n : Nat) : Nat := sldBase n + 0x20
def fldSLD_ACC_A2 (n : Nat) : Fld := ⟨regSLD_ACC n, 31, 16⟩
def fldSLD_ACC_A1 (n : Nat) : Fld := ⟨regSLD_ACC n, 15, 0⟩
def regSLD_DEC (n : Nat) : Nat := sldBase n + 0x24
def fldSLD_DEC_D2 (n : Nat) : Fld := ⟨regSLD_DEC n, 31, 16⟩
def fldSLD_DEC_D1 (n : Nat) : Fld := ⟨regSLD_DEC n, 15, 0⟩
def regSLD_MODE (n : Nat) : Nat := sldBase n + 0x28
def fldSLD_MODE_MODE_HYST (n : Nat) : Fld := ⟨regSLD_MODE n, 31, 16⟩
def fldSLD_MODE_MODE_THR (n : Nat) : Fld := ⟨regSLD_MODE n, 15, 0⟩
def regSLD_CUR (n : Nat) : Nat := sldBase n + 0x2c
def fldSLD_CUR_I_RUN (n : Nat) : Fld := ⟨regSLD_CUR n, 31, 24⟩
def fldSLD_CUR_I_HOLD (n : Nat) : Fld := ⟨regSLD_CUR n, 23, 16⟩
def fldSLD_CUR_REV_DWELL (n : Nat) : Fld := ⟨regSLD_CUR n, 15, 8⟩
def regSLD_TRIMCFG (n : Nat) : Nat := sldBase n + 0x30
def fldSLD_TRIMCFG_TRIM_MAX (n : Nat) : Fld := ⟨regSLD_TRIMCFG n, 31, 16⟩
def fldSLD_TRIMCFG_TRIM_RATE (n : Nat) : Fld := ⟨regSLD_TRIMCFG n, 3, 0⟩
def regSLD_STALL (n : Nat) : Nat := sldBase n + 0x34
def fldSLD_STALL_EST_MIN (n : Nat) : Fld := ⟨regSLD_STALL n, 31, 16⟩
def fldSLD_STALL_STALL_ANG (n : Nat) : Fld := ⟨regSLD_STALL n, 15, 8⟩
def fldSLD_STALL_STALL_CNT (n : Nat) : Fld := ⟨regSLD_STALL n, 7, 0⟩
def regSLD_COIL (n : Nat) : Nat := sldBase n + 0x38
def fldSLD_COIL_R_COIL (n : Nat) : Fld := ⟨regSLD_COIL n, 31, 16⟩
def fldSLD_COIL_L_COIL (n : Nat) : Fld := ⟨regSLD_COIL n, 15, 0⟩
def regSLD_HOME_CFG (n : Nat) : Nat := sldBase n + 0x3c
def fldSLD_HOME_CFG_HOME_FAST (n : Nat) : Fld := ⟨regSLD_HOME_CFG n, 31, 16⟩
def fldSLD_HOME_CFG_HOME_SLOW (n : Nat) : Fld := ⟨regSLD_HOME_CFG n, 15, 0⟩
def regSLD_HOME_EXP (n : Nat) : Nat := sldBase n + 0x40
def fldSLD_HOME_EXP_EXPECT (n : Nat) : Fld := ⟨regSLD_HOME_EXP n, 31, 0⟩
def regSLD_HOME_LIM (n : Nat) : Nat := sldBase n + 0x44
def fldSLD_HOME_LIM_SEARCH_MAX (n : Nat) : Fld := ⟨regSLD_HOME_LIM n, 31, 16⟩
def fldSLD_HOME_LIM_BACKOFF_MAX (n : Nat) : Fld := ⟨regSLD_HOME_LIM n, 15, 0⟩
def regSLD_HOME_OFS (n : Nat) : Nat := sldBase n + 0x48
def fldSLD_HOME_OFS_OFS (n : Nat) : Fld := ⟨regSLD_HOME_OFS n, 31, 0⟩
def regSLD_PARK (n : Nat) : Nat := sldBase n + 0x4c
def fldSLD_PARK_PARK_POS (n : Nat) : Fld := ⟨regSLD_PARK n, 31, 0⟩
def regSLD_LOAD (n : Nat) : Nat := sldBase n + 0x50
def fldSLD_LOAD_DELTA (n : Nat) : Fld := ⟨regSLD_LOAD n, 31, 16⟩
def fldSLD_LOAD_EMF (n : Nat) : Fld := ⟨regSLD_LOAD n, 15, 0⟩
def regSLD_TRIP_POS (n : Nat) : Nat := sldBase n + 0x54
def fldSLD_TRIP_POS_POS (n : Nat) : Fld := ⟨regSLD_TRIP_POS n, 31, 0⟩
def regSLD_EVT_TIME_LO (n : Nat) : Nat := sldBase n + 0x58
def fldSLD_EVT_TIME_LO_TIME (n : Nat) : Fld := ⟨regSLD_EVT_TIME_LO n, 31, 0⟩
def regSLD_EVT_TIME_HI (n : Nat) : Nat := sldBase n + 0x5c
def fldSLD_EVT_TIME_HI_TIME (n : Nat) : Fld := ⟨regSLD_EVT_TIME_HI n, 31, 0⟩
def regSLD_USTEP (n i : Nat) : Nat := sldBase n + 0x400 + 4 * i
def fldSLD_USTEP_A (n i : Nat) : Fld := ⟨regSLD_USTEP n i, 31, 16⟩
def fldSLD_USTEP_B (n i : Nat) : Fld := ⟨regSLD_USTEP n i, 15, 0⟩

/-- The registers of unit SLD: a sled cell (R314); argument: head. -/
def regsSLD : List RegSpec := [
  ⟨0x0, 1, 4, [⟨31, 11, .ro, 0⟩, ⟨10, 9, .rw, 0⟩, ⟨8, 8, .rw, 0⟩, ⟨7, 6, .ro, 0⟩, ⟨5, 5, .w1s, 0⟩, ⟨4, 4, .w1s, 0⟩, ⟨3, 3, .w1s, 0⟩, ⟨2, 2, .w1s, 0⟩, ⟨1, 1, .rw, 1⟩, ⟨0, 0, .rw, 0⟩]⟩,
  ⟨0x4, 1, 4, [⟨31, 28, .ro, 0⟩, ⟨27, 25, .ro, 0⟩, ⟨24, 24, .ro, 0⟩, ⟨23, 23, .ro, 0⟩, ⟨22, 22, .ro, 0⟩, ⟨21, 21, .ro, 0⟩, ⟨20, 20, .ro, 0⟩, ⟨19, 16, .ro, 0⟩, ⟨15, 11, .ro, 0⟩, ⟨10, 10, .w1c, 0⟩, ⟨9, 9, .w1c, 0⟩, ⟨8, 8, .w1c, 0⟩, ⟨7, 7, .w1c, 0⟩, ⟨6, 6, .w1c, 0⟩, ⟨5, 5, .w1c, 0⟩, ⟨4, 4, .w1c, 0⟩, ⟨3, 3, .w1c, 0⟩, ⟨2, 2, .w1c, 0⟩, ⟨1, 1, .w1c, 0⟩, ⟨0, 0, .w1c, 0⟩]⟩,
  ⟨0x8, 1, 4, [⟨31, 11, .ro, 0⟩, ⟨10, 0, .rw, 0⟩]⟩,
  ⟨0xc, 1, 4, [⟨31, 0, .rw, 0⟩]⟩,
  ⟨0x10, 1, 4, [⟨31, 0, .ro, 0⟩]⟩,
  ⟨0x14, 1, 4, [⟨31, 16, .ro, 0⟩, ⟨15, 0, .ro, 0⟩]⟩,
  ⟨0x18, 1, 4, [⟨31, 16, .rw, 125⟩, ⟨15, 0, .rw, 125⟩]⟩,
  ⟨0x1c, 1, 4, [⟨31, 16, .rw, 12500⟩, ⟨15, 0, .rw, 6250⟩]⟩,
  ⟨0x20, 1, 4, [⟨31, 16, .rw, 4000⟩, ⟨15, 0, .rw, 8000⟩]⟩,
  ⟨0x24, 1, 4, [⟨31, 16, .rw, 4000⟩, ⟨15, 0, .rw, 8000⟩]⟩,
  ⟨0x28, 1, 4, [⟨31, 16, .rw, 250⟩, ⟨15, 0, .rw, 2000⟩]⟩,
  ⟨0x2c, 1, 4, [⟨31, 24, .rw, 192⟩, ⟨23, 16, .rw, 64⟩, ⟨15, 8, .rw, 10⟩, ⟨7, 0, .ro, 0⟩]⟩,
  ⟨0x30, 1, 4, [⟨31, 16, .rw, 1024⟩, ⟨15, 4, .ro, 0⟩, ⟨3, 0, .rw, 1⟩]⟩,
  ⟨0x34, 1, 4, [⟨31, 16, .rw, 625⟩, ⟨15, 8, .rw, 71⟩, ⟨7, 0, .rw, 4⟩]⟩,
  ⟨0x38, 1, 4, [⟨31, 16, .rw, 3000⟩, ⟨15, 0, .rw, 3500⟩]⟩,
  ⟨0x3c, 1, 4, [⟨31, 16, .rw, 5000⟩, ⟨15, 0, .rw, 125⟩]⟩,
  ⟨0x40, 1, 4, [⟨31, 0, .rw, 245760⟩]⟩,
  ⟨0x44, 1, 4, [⟨31, 16, .rw, 8192⟩, ⟨15, 0, .rw, 4096⟩]⟩,
  ⟨0x48, 1, 4, [⟨31, 0, .rw, 0⟩]⟩,
  ⟨0x4c, 1, 4, [⟨31, 0, .rw, 1024⟩]⟩,
  ⟨0x50, 1, 4, [⟨31, 16, .ro, 0⟩, ⟨15, 0, .ro, 0⟩]⟩,
  ⟨0x54, 1, 4, [⟨31, 0, .ro, 0⟩]⟩,
  ⟨0x58, 1, 4, [⟨31, 0, .ro, 0⟩]⟩,
  ⟨0x5c, 1, 4, [⟨31, 0, .ro, 0⟩]⟩,
  ⟨0x400, 256, 4, [⟨31, 16, .rw, 0⟩, ⟨15, 0, .rw, 0⟩]⟩]

/-! ### FIFO: a control-class FIFO (R341); argument: FIFO number 0-13 -/

def regFIFO_BASE_LO (n : Nat) : Nat := fifoBase n + 0x0
def fldFIFO_BASE_LO_BASE (n : Nat) : Fld := ⟨regFIFO_BASE_LO n, 31, 5⟩
def regFIFO_BASE_HI (n : Nat) : Nat := fifoBase n + 0x4
def fldFIFO_BASE_HI_BASE (n : Nat) : Fld := ⟨regFIFO_BASE_HI n, 7, 0⟩
def regFIFO_CFG (n : Nat) : Nat := fifoBase n + 0x8
def fldFIFO_CFG_CONSUMER (n : Nat) : Fld := ⟨regFIFO_CFG n, 29, 24⟩
def fldFIFO_CFG_SIZE_LOG2 (n : Nat) : Fld := ⟨regFIFO_CFG n, 4, 0⟩
def regFIFO_POP (n : Nat) : Nat := fifoBase n + 0xc
def fldFIFO_POP_VALID (n : Nat) : Fld := ⟨regFIFO_POP n, 31, 31⟩
def fldFIFO_POP_SEQ (n : Nat) : Fld := ⟨regFIFO_POP n, 23, 0⟩
def regFIFO_STAT (n : Nat) : Nat := fifoBase n + 0x10
def fldFIFO_STAT_FULL (n : Nat) : Fld := ⟨regFIFO_STAT n, 31, 31⟩
def fldFIFO_STAT_WAITED (n : Nat) : Fld := ⟨regFIFO_STAT n, 30, 30⟩
def fldFIFO_STAT_DENIED (n : Nat) : Fld := ⟨regFIFO_STAT n, 29, 29⟩
def fldFIFO_STAT_NOTICE (n : Nat) : Fld := ⟨regFIFO_STAT n, 28, 28⟩
def fldFIFO_STAT_RING_ERR (n : Nat) : Fld := ⟨regFIFO_STAT n, 27, 27⟩
def fldFIFO_STAT_POISONED (n : Nat) : Fld := ⟨regFIFO_STAT n, 26, 26⟩
def fldFIFO_STAT_COUNT (n : Nat) : Fld := ⟨regFIFO_STAT n, 16, 0⟩
def regFIFO_IEN (n : Nat) : Nat := fifoBase n + 0x14
def fldFIFO_IEN_NOTICE_IE (n : Nat) : Fld := ⟨regFIFO_IEN n, 0, 0⟩
def regFIFO_REC (n i : Nat) : Nat := fifoBase n + 0x20 + 4 * i
def fldFIFO_REC_WORD (n i : Nat) : Fld := ⟨regFIFO_REC n i, 31, 0⟩

/-- The registers of unit FIFO: a control-class FIFO (R341); argument: FIFO number 0-13. -/
def regsFIFO : List RegSpec := [
  ⟨0x0, 1, 4, [⟨31, 5, .rw, 0⟩, ⟨4, 0, .ro, 0⟩]⟩,
  ⟨0x4, 1, 4, [⟨31, 8, .ro, 0⟩, ⟨7, 0, .rw, 128⟩]⟩,
  ⟨0x8, 1, 4, [⟨31, 30, .ro, 0⟩, ⟨29, 24, .rw, 1⟩, ⟨23, 5, .ro, 0⟩, ⟨4, 0, .rw, 10⟩]⟩,
  ⟨0xc, 1, 4, [⟨31, 31, .ro, 0⟩, ⟨30, 24, .ro, 0⟩, ⟨23, 0, .ro, 0⟩]⟩,
  ⟨0x10, 1, 4, [⟨31, 31, .ro, 0⟩, ⟨30, 30, .w1c, 0⟩, ⟨29, 29, .w1c, 0⟩, ⟨28, 28, .w1c, 0⟩, ⟨27, 27, .w1c, 0⟩, ⟨26, 26, .w1c, 0⟩, ⟨25, 17, .ro, 0⟩, ⟨16, 0, .ro, 0⟩]⟩,
  ⟨0x14, 1, 4, [⟨31, 1, .ro, 0⟩, ⟨0, 0, .rw, 0⟩]⟩,
  ⟨0x20, 8, 4, [⟨31, 0, .ro, 0⟩]⟩]

/-! ### SWP: the sweep scheduler (R344) -/

def regSWP_CTL : Nat := swpBase + 0x0
def fldSWP_CTL_BOUNDARY : Fld := ⟨regSWP_CTL, 3, 3⟩
def fldSWP_CTL_ABORT : Fld := ⟨regSWP_CTL, 2, 2⟩
def fldSWP_CTL_STOP : Fld := ⟨regSWP_CTL, 1, 1⟩
def fldSWP_CTL_START : Fld := ⟨regSWP_CTL, 0, 0⟩
def regSWP_STAT : Nat := swpBase + 0x4
def fldSWP_STAT_STATE : Fld := ⟨regSWP_STAT, 31, 29⟩
def fldSWP_STAT_QUEUED : Fld := ⟨regSWP_STAT, 28, 26⟩
def fldSWP_STAT_LOADING : Fld := ⟨regSWP_STAT, 25, 25⟩
def fldSWP_STAT_MARK : Fld := ⟨regSWP_STAT, 9, 9⟩
def fldSWP_STAT_RING_WAIT : Fld := ⟨regSWP_STAT, 8, 8⟩
def fldSWP_STAT_OFFLINE : Fld := ⟨regSWP_STAT, 7, 7⟩
def fldSWP_STAT_EMPTY : Fld := ⟨regSWP_STAT, 6, 6⟩
def fldSWP_STAT_QFULL : Fld := ⟨regSWP_STAT, 5, 5⟩
def fldSWP_STAT_LOAD_FAIL : Fld := ⟨regSWP_STAT, 4, 4⟩
def fldSWP_STAT_LATE : Fld := ⟨regSWP_STAT, 3, 3⟩
def fldSWP_STAT_SHORT : Fld := ⟨regSWP_STAT, 2, 2⟩
def fldSWP_STAT_ABORTED : Fld := ⟨regSWP_STAT, 1, 1⟩
def fldSWP_STAT_BOUNDARY : Fld := ⟨regSWP_STAT, 0, 0⟩
def regSWP_IEN : Nat := swpBase + 0x8
def fldSWP_IEN_IE : Fld := ⟨regSWP_IEN, 9, 0⟩
def regSWP_SUBMIT_LO : Nat := swpBase + 0xc
def fldSWP_SUBMIT_LO_ADDR : Fld := ⟨regSWP_SUBMIT_LO, 31, 4⟩
def regSWP_SUBMIT_HI : Nat := swpBase + 0x10
def fldSWP_SUBMIT_HI_ADDR : Fld := ⟨regSWP_SUBMIT_HI, 7, 0⟩
def regSWP_LOAD_STAT : Nat := swpBase + 0x14
def fldSWP_LOAD_STAT_BUSY : Fld := ⟨regSWP_LOAD_STAT, 31, 31⟩
def fldSWP_LOAD_STAT_FLAGS : Fld := ⟨regSWP_LOAD_STAT, 10, 0⟩
def regSWP_CUR_ID : Nat := swpBase + 0x18
def fldSWP_CUR_ID_ID : Fld := ⟨regSWP_CUR_ID, 31, 0⟩
def regSWP_HEAD_ONLINE : Nat := swpBase + 0x1c
def fldSWP_HEAD_ONLINE_OFFLINE_PEND : Fld := ⟨regSWP_HEAD_ONLINE, 15, 8⟩
def fldSWP_HEAD_ONLINE_ONLINE : Fld := ⟨regSWP_HEAD_ONLINE, 7, 0⟩
def regSWP_SHORT : Nat := swpBase + 0x20
def fldSWP_SHORT_HEADS : Fld := ⟨regSWP_SHORT, 7, 0⟩
def regSWP_RETRY : Nat := swpBase + 0x24
def fldSWP_RETRY_RD : Fld := ⟨regSWP_RETRY, 23, 16⟩
def fldSWP_RETRY_MIS : Fld := ⟨regSWP_RETRY, 15, 8⟩
def fldSWP_RETRY_WR : Fld := ⟨regSWP_RETRY, 7, 0⟩
def regSWP_DRAIN : Nat := swpBase + 0x28
def fldSWP_DRAIN_MAX : Fld := ⟨regSWP_DRAIN, 31, 16⟩
def fldSWP_DRAIN_LAST : Fld := ⟨regSWP_DRAIN, 15, 0⟩
def regSWP_RDBUF_LO : Nat := swpBase + 0x2c
def fldSWP_RDBUF_LO_BASE : Fld := ⟨regSWP_RDBUF_LO, 31, 15⟩
def regSWP_WRBUF_LO : Nat := swpBase + 0x38
def fldSWP_WRBUF_LO_BASE : Fld := ⟨regSWP_WRBUF_LO, 31, 15⟩
def regSWP_RDBUF_HI : Nat := swpBase + 0x30
def fldSWP_RDBUF_HI_BASE : Fld := ⟨regSWP_RDBUF_HI, 7, 0⟩
def regSWP_WRBUF_HI : Nat := swpBase + 0x3c
def fldSWP_WRBUF_HI_BASE : Fld := ⟨regSWP_WRBUF_HI, 7, 0⟩
def regSWP_RDBUF_CNT : Nat := swpBase + 0x34
def fldSWP_RDBUF_CNT_COUNT : Fld := ⟨regSWP_RDBUF_CNT, 12, 0⟩
def regSWP_WRBUF_CNT : Nat := swpBase + 0x40
def fldSWP_WRBUF_CNT_COUNT : Fld := ⟨regSWP_WRBUF_CNT, 12, 0⟩
def regSWP_BOUND_TIME_LO : Nat := swpBase + 0x44
def fldSWP_BOUND_TIME_LO_TIME : Fld := ⟨regSWP_BOUND_TIME_LO, 31, 0⟩
def regSWP_BOUND_TIME_HI : Nat := swpBase + 0x48
def fldSWP_BOUND_TIME_HI_TIME : Fld := ⟨regSWP_BOUND_TIME_HI, 31, 0⟩
def regSWP_WIN_TIME_LO : Nat := swpBase + 0x4c
def fldSWP_WIN_TIME_LO_TIME : Fld := ⟨regSWP_WIN_TIME_LO, 31, 0⟩
def regSWP_WIN_TIME_HI : Nat := swpBase + 0x50
def fldSWP_WIN_TIME_HI_TIME : Fld := ⟨regSWP_WIN_TIME_HI, 31, 0⟩

/-- The registers of unit SWP: the sweep scheduler (R344). -/
def regsSWP : List RegSpec := [
  ⟨0x0, 1, 4, [⟨31, 4, .ro, 0⟩, ⟨3, 3, .w1s, 0⟩, ⟨2, 2, .w1s, 0⟩, ⟨1, 1, .w1s, 0⟩, ⟨0, 0, .w1s, 0⟩]⟩,
  ⟨0x4, 1, 4, [⟨31, 29, .ro, 0⟩, ⟨28, 26, .ro, 0⟩, ⟨25, 25, .ro, 0⟩, ⟨24, 10, .ro, 0⟩, ⟨9, 9, .w1c, 0⟩, ⟨8, 8, .w1c, 0⟩, ⟨7, 7, .w1c, 0⟩, ⟨6, 6, .w1c, 0⟩, ⟨5, 5, .w1c, 0⟩, ⟨4, 4, .w1c, 0⟩, ⟨3, 3, .w1c, 0⟩, ⟨2, 2, .w1c, 0⟩, ⟨1, 1, .w1c, 0⟩, ⟨0, 0, .w1c, 0⟩]⟩,
  ⟨0x8, 1, 4, [⟨31, 10, .ro, 0⟩, ⟨9, 0, .rw, 0⟩]⟩,
  ⟨0xc, 1, 4, [⟨31, 4, .rw, 0⟩, ⟨3, 0, .ro, 0⟩]⟩,
  ⟨0x10, 1, 4, [⟨31, 8, .ro, 0⟩, ⟨7, 0, .rw, 128⟩]⟩,
  ⟨0x14, 1, 4, [⟨31, 31, .ro, 0⟩, ⟨30, 11, .ro, 0⟩, ⟨10, 0, .ro, 0⟩]⟩,
  ⟨0x18, 1, 4, [⟨31, 0, .ro, 0⟩]⟩,
  ⟨0x1c, 1, 4, [⟨31, 16, .ro, 0⟩, ⟨15, 8, .ro, 0⟩, ⟨7, 0, .w1s, 0⟩]⟩,
  ⟨0x20, 1, 4, [⟨31, 8, .ro, 0⟩, ⟨7, 0, .ro, 0⟩]⟩,
  ⟨0x24, 1, 4, [⟨31, 24, .ro, 0⟩, ⟨23, 16, .rw, 3⟩, ⟨15, 8, .rw, 2⟩, ⟨7, 0, .rw, 4⟩]⟩,
  ⟨0x28, 1, 4, [⟨31, 16, .rw, 0⟩, ⟨15, 0, .ro, 0⟩]⟩,
  ⟨0x2c, 1, 4, [⟨31, 15, .rw, 0⟩, ⟨14, 0, .ro, 0⟩]⟩,
  ⟨0x38, 1, 4, [⟨31, 15, .rw, 0⟩, ⟨14, 0, .ro, 0⟩]⟩,
  ⟨0x30, 1, 4, [⟨31, 8, .ro, 0⟩, ⟨7, 0, .rw, 128⟩]⟩,
  ⟨0x3c, 1, 4, [⟨31, 8, .ro, 0⟩, ⟨7, 0, .rw, 128⟩]⟩,
  ⟨0x34, 1, 4, [⟨31, 13, .ro, 0⟩, ⟨12, 0, .rw, 0⟩]⟩,
  ⟨0x40, 1, 4, [⟨31, 13, .ro, 0⟩, ⟨12, 0, .rw, 0⟩]⟩,
  ⟨0x44, 1, 4, [⟨31, 0, .ro, 0⟩]⟩,
  ⟨0x48, 1, 4, [⟨31, 0, .ro, 0⟩]⟩,
  ⟨0x4c, 1, 4, [⟨31, 0, .ro, 0⟩]⟩,
  ⟨0x50, 1, 4, [⟨31, 0, .ro, 0⟩]⟩]

/-! ### PLZ: the Plaza control registers (R367, R389) -/

def regPLZ_CTL : Nat := plzBase + 0x0
def fldPLZ_CTL_RESET : Fld := ⟨regPLZ_CTL, 7, 4⟩
def fldPLZ_CTL_RUN : Fld := ⟨regPLZ_CTL, 3, 0⟩
def regPLZ_STAT : Nat := plzBase + 0x4
def fldPLZ_STAT_HALTED : Fld := ⟨regPLZ_STAT, 7, 4⟩
def fldPLZ_STAT_RUNNING : Fld := ⟨regPLZ_STAT, 3, 0⟩
def regPLZ_START_LO (i : Nat) : Nat := plzBase + 0x10 + 8 * i
def fldPLZ_START_LO_ADDR (i : Nat) : Fld := ⟨regPLZ_START_LO i, 31, 2⟩
def regPLZ_START_HI (i : Nat) : Nat := plzBase + 0x14 + 8 * i
def fldPLZ_START_HI_ADDR (i : Nat) : Fld := ⟨regPLZ_START_HI i, 7, 0⟩
def regL1_CTL : Nat := plzBase + 0x100
def fldL1_CTL_DEN : Fld := ⟨regL1_CTL, 7, 4⟩
def fldL1_CTL_IEN : Fld := ⟨regL1_CTL, 3, 0⟩

/-- The registers of unit PLZ: the Plaza control registers (R367, R389). -/
def regsPLZ : List RegSpec := [
  ⟨0x0, 1, 4, [⟨31, 8, .ro, 0⟩, ⟨7, 4, .w1s, 0⟩, ⟨3, 0, .w1s, 0⟩]⟩,
  ⟨0x4, 1, 4, [⟨31, 8, .ro, 0⟩, ⟨7, 4, .w1c, 0⟩, ⟨3, 0, .ro, 1⟩]⟩,
  ⟨0x10, 4, 8, [⟨31, 2, .rw, 0⟩, ⟨1, 0, .ro, 0⟩]⟩,
  ⟨0x14, 4, 8, [⟨31, 8, .ro, 0⟩, ⟨7, 0, .rw, 0⟩]⟩,
  ⟨0x100, 1, 4, [⟨31, 8, .ro, 0⟩, ⟨7, 4, .rw, 0⟩, ⟨3, 0, .rw, 0⟩]⟩]

/-! ### ARC: the Arcade (R388) -/

def regARC_CTL : Nat := arcBase + 0x0
def fldARC_CTL_CLEAN_VICT : Fld := ⟨regARC_CTL, 1, 1⟩
def fldARC_CTL_EN : Fld := ⟨regARC_CTL, 0, 0⟩
def regARC_STAT : Nat := arcBase + 0x4
def fldARC_STAT_STATE : Fld := ⟨regARC_STAT, 31, 30⟩
def fldARC_STAT_EN_PEND : Fld := ⟨regARC_STAT, 29, 29⟩
def fldARC_STAT_MISS_FULL : Fld := ⟨regARC_STAT, 3, 3⟩
def fldARC_STAT_PART_BAD : Fld := ⟨regARC_STAT, 2, 2⟩
def fldARC_STAT_ECC_UE : Fld := ⟨regARC_STAT, 1, 1⟩
def fldARC_STAT_DRAIN_DONE : Fld := ⟨regARC_STAT, 0, 0⟩
def regARC_IEN : Nat := arcBase + 0x8
def fldARC_IEN_IE : Fld := ⟨regARC_IEN, 3, 0⟩
def regARC_PART (i : Nat) : Nat := arcBase + 0x10 + 4 * i
def fldARC_PART_MASK (i : Nat) : Fld := ⟨regARC_PART i, 15, 0⟩
def regARC_LOCK : Nat := arcBase + 0x20
def fldARC_LOCK_MASK : Fld := ⟨regARC_LOCK, 15, 0⟩
def regARC_MISS : Nat := arcBase + 0x30
def fldARC_MISS_BUSY3 : Fld := ⟨regARC_MISS, 31, 24⟩
def fldARC_MISS_BUSY2 : Fld := ⟨regARC_MISS, 23, 16⟩
def fldARC_MISS_BUSY1 : Fld := ⟨regARC_MISS, 15, 8⟩
def fldARC_MISS_BUSY0 : Fld := ⟨regARC_MISS, 7, 0⟩

/-- The registers of unit ARC: the Arcade (R388). -/
def regsARC : List RegSpec := [
  ⟨0x0, 1, 4, [⟨31, 2, .ro, 0⟩, ⟨1, 1, .rw, 1⟩, ⟨0, 0, .rw, 0⟩]⟩,
  ⟨0x4, 1, 4, [⟨31, 30, .ro, 0⟩, ⟨29, 29, .ro, 0⟩, ⟨28, 4, .ro, 0⟩, ⟨3, 3, .w1c, 0⟩, ⟨2, 2, .w1c, 0⟩, ⟨1, 1, .w1c, 0⟩, ⟨0, 0, .w1c, 0⟩]⟩,
  ⟨0x8, 1, 4, [⟨31, 4, .ro, 0⟩, ⟨3, 0, .rw, 0⟩]⟩,
  ⟨0x10, 4, 4, [⟨31, 16, .ro, 0⟩, ⟨15, 0, .rw, 65535⟩]⟩,
  ⟨0x20, 1, 4, [⟨31, 16, .ro, 0⟩, ⟨15, 0, .rw, 0⟩]⟩,
  ⟨0x30, 1, 4, [⟨31, 24, .ro, 0⟩, ⟨23, 16, .ro, 0⟩, ⟨15, 8, .ro, 0⟩, ⟨7, 0, .ro, 0⟩]⟩]

/-! ### DRAM: the DRAM controller (R419) -/

def regDRAM_CFG : Nat := dramBase + 0x0
def fldDRAM_CFG_ROW_BITS : Fld := ⟨regDRAM_CFG, 20, 16⟩
def fldDRAM_CFG_RANKS : Fld := ⟨regDRAM_CFG, 8, 8⟩
def regDRAM_CTL : Nat := dramBase + 0x4
def fldDRAM_CTL_PAGE_MODE : Fld := ⟨regDRAM_CTL, 7, 6⟩
def fldDRAM_CTL_AUTO_REMAP : Fld := ⟨regDRAM_CTL, 5, 5⟩
def fldDRAM_CTL_SCRUB_FIX : Fld := ⟨regDRAM_CTL, 4, 4⟩
def fldDRAM_CTL_SCRUB_EN : Fld := ⟨regDRAM_CTL, 3, 3⟩
def fldDRAM_CTL_RETRAIN : Fld := ⟨regDRAM_CTL, 2, 2⟩
def fldDRAM_CTL_INIT : Fld := ⟨regDRAM_CTL, 0, 0⟩
def regDRAM_STAT : Nat := dramBase + 0x8
def fldDRAM_STAT_STATE : Fld := ⟨regDRAM_STAT, 31, 29⟩
def fldDRAM_STAT_RETRAIN_PEND : Fld := ⟨regDRAM_STAT, 27, 24⟩
def fldDRAM_STAT_NB_REFRESH : Fld := ⟨regDRAM_STAT, 10, 10⟩
def fldDRAM_STAT_TRAIN_FAIL : Fld := ⟨regDRAM_STAT, 9, 9⟩
def fldDRAM_STAT_REMAP_FULL : Fld := ⟨regDRAM_STAT, 8, 8⟩
def fldDRAM_STAT_HARD : Fld := ⟨regDRAM_STAT, 7, 7⟩
def fldDRAM_STAT_REMAPPED : Fld := ⟨regDRAM_STAT, 6, 6⟩
def fldDRAM_STAT_WR_DENIED : Fld := ⟨regDRAM_STAT, 5, 5⟩
def fldDRAM_STAT_MAP_BAD : Fld := ⟨regDRAM_STAT, 4, 4⟩
def fldDRAM_STAT_PW_UE : Fld := ⟨regDRAM_STAT, 3, 3⟩
def fldDRAM_STAT_PW_CE : Fld := ⟨regDRAM_STAT, 2, 2⟩
def fldDRAM_STAT_UE : Fld := ⟨regDRAM_STAT, 1, 1⟩
def fldDRAM_STAT_CE : Fld := ⟨regDRAM_STAT, 0, 0⟩
def regDRAM_IEN : Nat := dramBase + 0xc
def fldDRAM_IEN_IE : Fld := ⟨regDRAM_IEN, 10, 0⟩
def regDRAM_TOP : Nat := dramBase + 0x10
def fldDRAM_TOP_SIZE_MIB : Fld := ⟨regDRAM_TOP, 15, 0⟩
def regDRAM_IFMAP : Nat := dramBase + 0x14
def fldDRAM_IFMAP_MASK : Fld := ⟨regDRAM_IFMAP, 22, 0⟩
def regDRAM_SCHED : Nat := dramBase + 0x18
def fldDRAM_SCHED_AGE_MAX : Fld := ⟨regDRAM_SCHED, 31, 16⟩
def fldDRAM_SCHED_PAGE_IDLE : Fld := ⟨regDRAM_SCHED, 7, 0⟩
def regDRAM_RH : Nat := dramBase + 0x1c
def fldDRAM_RH_BLAST : Fld := ⟨regDRAM_RH, 17, 16⟩
def fldDRAM_RH_ACT_THR : Fld := ⟨regDRAM_RH, 14, 0⟩
def regDRAM_SCRUB : Nat := dramBase + 0x20
def fldDRAM_SCRUB_SCRUB_INT : Fld := ⟨regDRAM_SCRUB, 15, 0⟩
def regDRAM_LAP : Nat := dramBase + 0x24
def fldDRAM_LAP_LAPS : Fld := ⟨regDRAM_LAP, 31, 16⟩
def fldDRAM_LAP_LAST : Fld := ⟨regDRAM_LAP, 15, 0⟩
def regDRAM_DRIFT : Nat := dramBase + 0x28
def fldDRAM_DRIFT_OSC_PERIOD : Fld := ⟨regDRAM_DRIFT, 31, 16⟩
def fldDRAM_DRIFT_DRIFT_LIM : Fld := ⟨regDRAM_DRIFT, 7, 0⟩
def regDRAM_CE_ADDR_LO : Nat := dramBase + 0x30
def fldDRAM_CE_ADDR_LO_ADDR : Fld := ⟨regDRAM_CE_ADDR_LO, 31, 6⟩
def regDRAM_UE_ADDR_LO : Nat := dramBase + 0x38
def fldDRAM_UE_ADDR_LO_ADDR : Fld := ⟨regDRAM_UE_ADDR_LO, 31, 6⟩
def regDRAM_CE_ADDR_HI : Nat := dramBase + 0x34
def fldDRAM_CE_ADDR_HI_CHECK : Fld := ⟨regDRAM_CE_ADDR_HI, 31, 31⟩
def fldDRAM_CE_ADDR_HI_ADDR : Fld := ⟨regDRAM_CE_ADDR_HI, 7, 0⟩
def regDRAM_UE_ADDR_HI : Nat := dramBase + 0x3c
def fldDRAM_UE_ADDR_HI_CHECK : Fld := ⟨regDRAM_UE_ADDR_HI, 31, 31⟩
def fldDRAM_UE_ADDR_HI_ADDR : Fld := ⟨regDRAM_UE_ADDR_HI, 7, 0⟩

/-- The registers of unit DRAM: the DRAM controller (R419). -/
def regsDRAM : List RegSpec := [
  ⟨0x0, 1, 4, [⟨31, 21, .ro, 0⟩, ⟨20, 16, .rw, 16⟩, ⟨15, 9, .ro, 0⟩, ⟨8, 8, .rw, 1⟩, ⟨7, 0, .ro, 0⟩]⟩,
  ⟨0x4, 1, 4, [⟨31, 8, .ro, 0⟩, ⟨7, 6, .rw, 0⟩, ⟨5, 5, .rw, 1⟩, ⟨4, 4, .rw, 1⟩, ⟨3, 3, .rw, 1⟩, ⟨2, 2, .w1s, 0⟩, ⟨1, 1, .ro, 0⟩, ⟨0, 0, .w1s, 0⟩]⟩,
  ⟨0x8, 1, 4, [⟨31, 29, .ro, 0⟩, ⟨28, 28, .ro, 0⟩, ⟨27, 24, .ro, 0⟩, ⟨23, 11, .ro, 0⟩, ⟨10, 10, .w1c, 0⟩, ⟨9, 9, .w1c, 0⟩, ⟨8, 8, .w1c, 0⟩, ⟨7, 7, .w1c, 0⟩, ⟨6, 6, .w1c, 0⟩, ⟨5, 5, .w1c, 0⟩, ⟨4, 4, .w1c, 0⟩, ⟨3, 3, .w1c, 0⟩, ⟨2, 2, .w1c, 0⟩, ⟨1, 1, .w1c, 0⟩, ⟨0, 0, .w1c, 0⟩]⟩,
  ⟨0xc, 1, 4, [⟨31, 11, .ro, 0⟩, ⟨10, 0, .rw, 0⟩]⟩,
  ⟨0x10, 1, 4, [⟨31, 16, .ro, 0⟩, ⟨15, 0, .ro, 0⟩]⟩,
  ⟨0x14, 1, 4, [⟨31, 23, .ro, 0⟩, ⟨22, 0, .rw, 1⟩]⟩,
  ⟨0x18, 1, 4, [⟨31, 16, .rw, 200⟩, ⟨15, 8, .ro, 0⟩, ⟨7, 0, .rw, 16⟩]⟩,
  ⟨0x1c, 1, 4, [⟨31, 18, .ro, 0⟩, ⟨17, 16, .rw, 1⟩, ⟨15, 15, .ro, 0⟩, ⟨14, 0, .rw, 4096⟩]⟩,
  ⟨0x20, 1, 4, [⟨31, 16, .ro, 0⟩, ⟨15, 0, .rw, 8⟩]⟩,
  ⟨0x24, 1, 4, [⟨31, 16, .ro, 0⟩, ⟨15, 0, .ro, 0⟩]⟩,
  ⟨0x28, 1, 4, [⟨31, 16, .rw, 100⟩, ⟨15, 8, .ro, 0⟩, ⟨7, 0, .rw, 20⟩]⟩,
  ⟨0x30, 1, 4, [⟨31, 6, .ro, 0⟩, ⟨5, 0, .ro, 0⟩]⟩,
  ⟨0x38, 1, 4, [⟨31, 6, .ro, 0⟩, ⟨5, 0, .ro, 0⟩]⟩,
  ⟨0x34, 1, 4, [⟨31, 31, .ro, 0⟩, ⟨30, 8, .ro, 0⟩, ⟨7, 0, .ro, 0⟩]⟩,
  ⟨0x3c, 1, 4, [⟨31, 31, .ro, 0⟩, ⟨30, 8, .ro, 0⟩, ⟨7, 0, .ro, 0⟩]⟩]

/-! ### DRAMN: a staging interface (R420); argument: interface -/

def regDRAMN_XORMAP (n i : Nat) : Nat := dramnBase n + 0x0 + 4 * i
def fldDRAMN_XORMAP_MASK (n i : Nat) : Fld := ⟨regDRAMN_XORMAP n i, 22, 0⟩

/-- The registers of unit DRAMN: a staging interface (R420); argument: interface. -/
def regsDRAMN : List RegSpec := [
  ⟨0x0, 6, 4, [⟨31, 23, .ro, 0⟩, ⟨22, 0, .rw, 0⟩]⟩]

/-! ### DCH: a staging channel (R420); argument: channel 2n + c -/

def regDCH_REMAP (n i : Nat) : Nat := dchBase n + 0x0 + 4 * i
def fldDCH_REMAP_VALID (n i : Nat) : Fld := ⟨regDCH_REMAP n i, 31, 31⟩
def fldDCH_REMAP_AUTO (n i : Nat) : Fld := ⟨regDCH_REMAP n i, 30, 30⟩
def fldDCH_REMAP_POISON (n i : Nat) : Fld := ⟨regDCH_REMAP n i, 29, 29⟩
def fldDCH_REMAP_WORD (n i : Nat) : Fld := ⟨regDCH_REMAP n i, 25, 0⟩
def regDCH_STAT (n : Nat) : Nat := dchBase n + 0x20
def fldDCH_STAT_TRAINED (n : Nat) : Fld := ⟨regDCH_STAT n, 31, 31⟩
def fldDCH_STAT_RETRAINING (n : Nat) : Fld := ⟨regDCH_STAT n, 30, 30⟩
def fldDCH_STAT_FREE (n : Nat) : Fld := ⟨regDCH_STAT n, 27, 24⟩
def fldDCH_STAT_DRIFT (n : Nat) : Fld := ⟨regDCH_STAT n, 15, 0⟩

/-- The registers of unit DCH: a staging channel (R420); argument: channel 2n + c. -/
def regsDCH : List RegSpec := [
  ⟨0x0, 8, 4, [⟨31, 31, .rw, 0⟩, ⟨30, 30, .ro, 0⟩, ⟨29, 29, .ro, 0⟩, ⟨28, 26, .ro, 0⟩, ⟨25, 0, .rw, 0⟩]⟩,
  ⟨0x20, 1, 4, [⟨31, 31, .ro, 0⟩, ⟨30, 30, .ro, 0⟩, ⟨29, 28, .ro, 0⟩, ⟨27, 24, .ro, 8⟩, ⟨23, 16, .ro, 0⟩, ⟨15, 0, .ro, 0⟩]⟩]

/-! ### MEMS: the SRAM remap window selector (R421) -/

def regMEMR_SEL : Nat := memsBase + 0x0
def fldMEMR_SEL_INDEX : Fld := ⟨regMEMR_SEL, 9, 0⟩

/-- The registers of unit MEMS: the SRAM remap window selector (R421). -/
def regsMEMS : List RegSpec := [
  ⟨0x0, 1, 4, [⟨31, 10, .ro, 0⟩, ⟨9, 0, .rw, 0⟩]⟩]

/-! ### MEMR: the SRAM remap window of one macro (R421); argument: macro (reached through MEMR_SEL) -/

def regMEMR_INFO (n : Nat) : Nat := memrBase n + 0x4
def fldMEMR_INFO_PRESENT (n : Nat) : Fld := ⟨regMEMR_INFO n, 31, 31⟩
def fldMEMR_INFO_DISTRICT (n : Nat) : Fld := ⟨regMEMR_INFO n, 30, 28⟩
def fldMEMR_INFO_AVENUE_PORT (n : Nat) : Fld := ⟨regMEMR_INFO n, 27, 24⟩
def fldMEMR_INFO_STREET_PORT (n : Nat) : Fld := ⟨regMEMR_INFO n, 23, 20⟩
def fldMEMR_INFO_WORDS_LOG2 (n : Nat) : Fld := ⟨regMEMR_INFO n, 4, 0⟩
def regMEMR_STAT (n : Nat) : Nat := memrBase n + 0x8
def fldMEMR_STAT_FREE (n : Nat) : Fld := ⟨regMEMR_STAT n, 27, 24⟩
def fldMEMR_STAT_HARD (n : Nat) : Fld := ⟨regMEMR_STAT n, 2, 2⟩
def fldMEMR_STAT_UE (n : Nat) : Fld := ⟨regMEMR_STAT n, 1, 1⟩
def fldMEMR_STAT_CE (n : Nat) : Fld := ⟨regMEMR_STAT n, 0, 0⟩
def regMEMR_REMAP (n i : Nat) : Nat := memrBase n + 0x10 + 4 * i
def fldMEMR_REMAP_VALID (n i : Nat) : Fld := ⟨regMEMR_REMAP n i, 31, 31⟩
def fldMEMR_REMAP_AUTO (n i : Nat) : Fld := ⟨regMEMR_REMAP n i, 30, 30⟩
def fldMEMR_REMAP_POISON (n i : Nat) : Fld := ⟨regMEMR_REMAP n i, 29, 29⟩
def fldMEMR_REMAP_WORD (n i : Nat) : Fld := ⟨regMEMR_REMAP n i, 19, 0⟩

/-- The registers of unit MEMR: the SRAM remap window of one macro (R421); argument: macro (reached through MEMR_SEL). -/
def regsMEMR : List RegSpec := [
  ⟨0x4, 1, 4, [⟨31, 31, .ro, 0⟩, ⟨30, 28, .ro, 0⟩, ⟨27, 24, .ro, 0⟩, ⟨23, 20, .ro, 0⟩, ⟨19, 5, .ro, 0⟩, ⟨4, 0, .ro, 0⟩]⟩,
  ⟨0x8, 1, 4, [⟨31, 28, .ro, 0⟩, ⟨27, 24, .ro, 8⟩, ⟨23, 3, .ro, 0⟩, ⟨2, 2, .w1c, 0⟩, ⟨1, 1, .w1c, 0⟩, ⟨0, 0, .w1c, 0⟩]⟩,
  ⟨0x10, 8, 4, [⟨31, 31, .rw, 0⟩, ⟨30, 30, .ro, 0⟩, ⟨29, 29, .ro, 0⟩, ⟨28, 20, .ro, 0⟩, ⟨19, 0, .rw, 0⟩]⟩]

/-! ### HBAR: the host endpoint registers of BAR0 (R426); argument: port (outside the physical map) -/

def regOCAP (n : Nat) : Nat := hbarBase n + 0x0
def fldOCAP_QPS (n : Nat) : Fld := ⟨regOCAP n, 31, 16⟩
def fldOCAP_MQES (n : Nat) : Fld := ⟨regOCAP n, 15, 0⟩
def regOVER (n : Nat) : Nat := hbarBase n + 0x4
def fldOVER_MAJOR (n : Nat) : Fld := ⟨regOVER n, 31, 16⟩
def fldOVER_MINOR (n : Nat) : Fld := ⟨regOVER n, 15, 0⟩
def regOCFG (n : Nat) : Nat := hbarBase n + 0x8
def fldOCFG_EN (n : Nat) : Fld := ⟨regOCFG n, 0, 0⟩
def regOSTS (n : Nat) : Nat := hbarBase n + 0xc
def fldOSTS_FATAL (n : Nat) : Fld := ⟨regOSTS n, 1, 1⟩
def fldOSTS_RDY (n : Nat) : Fld := ⟨regOSTS n, 0, 0⟩
def regOMQA (n : Nat) : Nat := hbarBase n + 0x10
def fldOMQA_MCQS (n : Nat) : Fld := ⟨regOMQA n, 27, 16⟩
def fldOMQA_MSQS (n : Nat) : Fld := ⟨regOMQA n, 11, 0⟩
def regOMSQ_LO (n : Nat) : Nat := hbarBase n + 0x18
def fldOMSQ_LO_BASE (n : Nat) : Fld := ⟨regOMSQ_LO n, 31, 0⟩
def regOMSQ_HI (n : Nat) : Nat := hbarBase n + 0x1c
def fldOMSQ_HI_BASE (n : Nat) : Fld := ⟨regOMSQ_HI n, 31, 0⟩
def regOMCQ_LO (n : Nat) : Nat := hbarBase n + 0x20
def fldOMCQ_LO_BASE (n : Nat) : Fld := ⟨regOMCQ_LO n, 31, 0⟩
def regOMCQ_HI (n : Nat) : Nat := hbarBase n + 0x24
def fldOMCQ_HI_BASE (n : Nat) : Fld := ⟨regOMCQ_HI n, 31, 0⟩

/-- The registers of unit HBAR: the host endpoint registers of BAR0 (R426); argument: port (outside the physical map). -/
def regsHBAR : List RegSpec := [
  ⟨0x0, 1, 4, [⟨31, 16, .ro, 512⟩, ⟨15, 0, .ro, 65535⟩]⟩,
  ⟨0x4, 1, 4, [⟨31, 16, .ro, 1⟩, ⟨15, 0, .ro, 0⟩]⟩,
  ⟨0x8, 1, 4, [⟨31, 1, .ro, 0⟩, ⟨0, 0, .rw, 0⟩]⟩,
  ⟨0xc, 1, 4, [⟨31, 2, .ro, 0⟩, ⟨1, 1, .ro, 0⟩, ⟨0, 0, .ro, 0⟩]⟩,
  ⟨0x10, 1, 4, [⟨31, 28, .ro, 0⟩, ⟨27, 16, .rw, 0⟩, ⟨15, 12, .ro, 0⟩, ⟨11, 0, .rw, 0⟩]⟩,
  ⟨0x18, 1, 4, [⟨31, 0, .rw, 0⟩]⟩,
  ⟨0x1c, 1, 4, [⟨31, 0, .rw, 0⟩]⟩,
  ⟨0x20, 1, 4, [⟨31, 0, .rw, 0⟩]⟩,
  ⟨0x24, 1, 4, [⟨31, 0, .rw, 0⟩]⟩]

/-! ### HOST: the host-link block (R451) -/

def regHOST_CTL : Nat := hostBase + 0x0
def fldHOST_CTL_PORT1_EN : Fld := ⟨regHOST_CTL, 3, 3⟩
def fldHOST_CTL_PORT0_EN : Fld := ⟨regHOST_CTL, 2, 2⟩
def fldHOST_CTL_FETCH_EN : Fld := ⟨regHOST_CTL, 1, 1⟩
def fldHOST_CTL_READY : Fld := ⟨regHOST_CTL, 0, 0⟩
def regHOST_STAT : Nat := hostBase + 0x4
def fldHOST_STAT_LINK1 : Fld := ⟨regHOST_STAT, 31, 31⟩
def fldHOST_STAT_LINK0 : Fld := ⟨regHOST_STAT, 30, 30⟩
def fldHOST_STAT_SI_NEAR_FULL : Fld := ⟨regHOST_STAT, 7, 7⟩
def fldHOST_STAT_CTX_EXHAUSTED : Fld := ⟨regHOST_STAT, 6, 6⟩
def fldHOST_STAT_DB_BAD : Fld := ⟨regHOST_STAT, 5, 5⟩
def fldHOST_STAT_QP_ERROR : Fld := ⟨regHOST_STAT, 4, 4⟩
def fldHOST_STAT_DMA_ERR : Fld := ⟨regHOST_STAT, 3, 3⟩
def fldHOST_STAT_PATH_LOST1 : Fld := ⟨regHOST_STAT, 2, 2⟩
def fldHOST_STAT_PATH_LOST0 : Fld := ⟨regHOST_STAT, 1, 1⟩
def fldHOST_STAT_CPL_BAD : Fld := ⟨regHOST_STAT, 0, 0⟩
def regHOST_IEN : Nat := hostBase + 0x8
def fldHOST_IEN_IE : Fld := ⟨regHOST_IEN, 7, 0⟩
def regHOST_QP_BASE : Nat := hostBase + 0xc
def fldHOST_QP_BASE_BASE : Fld := ⟨regHOST_QP_BASE, 31, 4⟩
def regHOST_SI_BASE : Nat := hostBase + 0x10
def fldHOST_SI_BASE_BASE : Fld := ⟨regHOST_SI_BASE, 31, 4⟩
def regHOST_CTX : Nat := hostBase + 0x14
def fldHOST_CTX_IN_USE : Fld := ⟨regHOST_CTX, 28, 16⟩
def fldHOST_CTX_MAX : Fld := ⟨regHOST_CTX, 12, 0⟩
def regHOST_SI_CNT : Nat := hostBase + 0x18
def fldHOST_SI_CNT_COUNT : Fld := ⟨regHOST_SI_CNT, 19, 0⟩
def regHOST_SI_THR : Nat := hostBase + 0x1c
def fldHOST_SI_THR_THR : Fld := ⟨regHOST_SI_THR, 19, 0⟩
def regHOST_CPL : Nat := hostBase + 0x20
def fldHOST_CPL_STATUS : Fld := ⟨regHOST_CPL, 30, 16⟩
def fldHOST_CPL_CTX : Fld := ⟨regHOST_CPL, 11, 0⟩
def regHOST_LINK0 : Nat := hostBase + 0x40
def fldHOST_LINK0_STATE : Fld := ⟨regHOST_LINK0, 31, 28⟩
def fldHOST_LINK0_GEN : Fld := ⟨regHOST_LINK0, 27, 26⟩
def fldHOST_LINK0_LANES : Fld := ⟨regHOST_LINK0, 25, 24⟩
def fldHOST_LINK0_CREDITS : Fld := ⟨regHOST_LINK0, 7, 0⟩
def regHOST_LINK1 : Nat := hostBase + 0x44
def fldHOST_LINK1_STATE : Fld := ⟨regHOST_LINK1, 31, 28⟩
def fldHOST_LINK1_GEN : Fld := ⟨regHOST_LINK1, 27, 26⟩
def fldHOST_LINK1_LANES : Fld := ⟨regHOST_LINK1, 25, 24⟩
def fldHOST_LINK1_CREDITS : Fld := ⟨regHOST_LINK1, 7, 0⟩

/-- The registers of unit HOST: the host-link block (R451). -/
def regsHOST : List RegSpec := [
  ⟨0x0, 1, 4, [⟨31, 4, .ro, 0⟩, ⟨3, 3, .rw, 0⟩, ⟨2, 2, .rw, 0⟩, ⟨1, 1, .rw, 0⟩, ⟨0, 0, .rw, 0⟩]⟩,
  ⟨0x4, 1, 4, [⟨31, 31, .ro, 0⟩, ⟨30, 30, .ro, 0⟩, ⟨29, 8, .ro, 0⟩, ⟨7, 7, .w1c, 0⟩, ⟨6, 6, .w1c, 0⟩, ⟨5, 5, .w1c, 0⟩, ⟨4, 4, .w1c, 0⟩, ⟨3, 3, .w1c, 0⟩, ⟨2, 2, .w1c, 0⟩, ⟨1, 1, .w1c, 0⟩, ⟨0, 0, .w1c, 0⟩]⟩,
  ⟨0x8, 1, 4, [⟨31, 8, .ro, 0⟩, ⟨7, 0, .rw, 0⟩]⟩,
  ⟨0xc, 1, 4, [⟨31, 4, .rw, 134217728⟩, ⟨3, 0, .ro, 0⟩]⟩,
  ⟨0x10, 1, 4, [⟨31, 4, .rw, 134217728⟩, ⟨3, 0, .ro, 0⟩]⟩,
  ⟨0x14, 1, 4, [⟨31, 29, .ro, 0⟩, ⟨28, 16, .ro, 0⟩, ⟨15, 13, .ro, 0⟩, ⟨12, 0, .rw, 4096⟩]⟩,
  ⟨0x18, 1, 4, [⟨31, 20, .ro, 0⟩, ⟨19, 0, .ro, 0⟩]⟩,
  ⟨0x1c, 1, 4, [⟨31, 20, .ro, 0⟩, ⟨19, 0, .rw, 458752⟩]⟩,
  ⟨0x20, 1, 4, [⟨31, 31, .wo, 0⟩, ⟨30, 16, .wo, 0⟩, ⟨15, 12, .wo, 0⟩, ⟨11, 0, .wo, 0⟩]⟩,
  ⟨0x40, 1, 4, [⟨31, 28, .ro, 0⟩, ⟨27, 26, .ro, 0⟩, ⟨25, 24, .ro, 0⟩, ⟨23, 8, .ro, 0⟩, ⟨7, 0, .ro, 48⟩]⟩,
  ⟨0x44, 1, 4, [⟨31, 28, .ro, 0⟩, ⟨27, 26, .ro, 0⟩, ⟨25, 24, .ro, 0⟩, ⟨23, 8, .ro, 0⟩, ⟨7, 0, .ro, 48⟩]⟩]

/-! ### ARV: the archive engine (R476) -/

def regARV_CTL : Nat := arvBase + 0x0
def fldARV_CTL_REFRESH_EN : Fld := ⟨regARV_CTL, 3, 3⟩
def fldARV_CTL_AUDIT_EN : Fld := ⟨regARV_CTL, 2, 2⟩
def fldARV_CTL_EN : Fld := ⟨regARV_CTL, 0, 0⟩
def regARV_STAT : Nat := arvBase + 0x4
def fldARV_STAT_CAT_COUNT : Fld := ⟨regARV_STAT, 31, 13⟩
def fldARV_STAT_ABANDONED : Fld := ⟨regARV_STAT, 4, 4⟩
def fldARV_STAT_WEAK : Fld := ⟨regARV_STAT, 3, 3⟩
def fldARV_STAT_DAMAGED : Fld := ⟨regARV_STAT, 2, 2⟩
def fldARV_STAT_CAT_NEAR_FULL : Fld := ⟨regARV_STAT, 1, 1⟩
def fldARV_STAT_LAP : Fld := ⟨regARV_STAT, 0, 0⟩
def regARV_IEN : Nat := arvBase + 0x8
def fldARV_IEN_IE : Fld := ⟨regARV_IEN, 4, 0⟩
def regARV_CAT_BASE : Nat := arvBase + 0xc
def fldARV_CAT_BASE_BASE : Fld := ⟨regARV_CAT_BASE, 31, 4⟩
def regARV_AUD_CFG : Nat := arvBase + 0x10
def fldARV_AUD_CFG_PERIOD : Fld := ⟨regARV_AUD_CFG, 31, 16⟩
def fldARV_AUD_CFG_MAX_OBJ : Fld := ⟨regARV_AUD_CFG, 3, 0⟩
def regARV_PENDING : Nat := arvBase + 0x14
def fldARV_PENDING_PENDING_MAX : Fld := ⟨regARV_PENDING, 15, 0⟩
def regARV_CAT_THR : Nat := arvBase + 0x18
def fldARV_CAT_THR_THR : Fld := ⟨regARV_CAT_THR, 18, 0⟩
def regARV_TIME_OFS_LO : Nat := arvBase + 0x20
def fldARV_TIME_OFS_LO_OFS : Fld := ⟨regARV_TIME_OFS_LO, 31, 0⟩
def regARV_TIME_OFS_HI : Nat := arvBase + 0x24
def fldARV_TIME_OFS_HI_OFS : Fld := ⟨regARV_TIME_OFS_HI, 31, 0⟩
def regARV_CURSOR : Nat := arvBase + 0x28
def fldARV_CURSOR_INDEX : Fld := ⟨regARV_CURSOR, 17, 0⟩

/-- The registers of unit ARV: the archive engine (R476). -/
def regsARV : List RegSpec := [
  ⟨0x0, 1, 4, [⟨31, 4, .ro, 0⟩, ⟨3, 3, .rw, 0⟩, ⟨2, 2, .rw, 0⟩, ⟨1, 1, .ro, 0⟩, ⟨0, 0, .rw, 0⟩]⟩,
  ⟨0x4, 1, 4, [⟨31, 13, .ro, 0⟩, ⟨12, 5, .ro, 0⟩, ⟨4, 4, .w1c, 0⟩, ⟨3, 3, .w1c, 0⟩, ⟨2, 2, .w1c, 0⟩, ⟨1, 1, .w1c, 0⟩, ⟨0, 0, .w1c, 0⟩]⟩,
  ⟨0x8, 1, 4, [⟨31, 5, .ro, 0⟩, ⟨4, 0, .rw, 0⟩]⟩,
  ⟨0xc, 1, 4, [⟨31, 4, .rw, 134217728⟩, ⟨3, 0, .ro, 0⟩]⟩,
  ⟨0x10, 1, 4, [⟨31, 16, .rw, 365⟩, ⟨15, 4, .ro, 0⟩, ⟨3, 0, .rw, 4⟩]⟩,
  ⟨0x14, 1, 4, [⟨31, 16, .ro, 0⟩, ⟨15, 0, .rw, 600⟩]⟩,
  ⟨0x18, 1, 4, [⟨31, 19, .ro, 0⟩, ⟨18, 0, .rw, 229376⟩]⟩,
  ⟨0x20, 1, 4, [⟨31, 0, .rw, 0⟩]⟩,
  ⟨0x24, 1, 4, [⟨31, 0, .rw, 0⟩]⟩,
  ⟨0x28, 1, 4, [⟨31, 18, .ro, 0⟩, ⟨17, 0, .ro, 0⟩]⟩]

/-! ### KEY: the session and key store (R477) -/

def regKEY_STAT : Nat := keyBase + 0x0
def fldKEY_STAT_LOCKOUT : Fld := ⟨regKEY_STAT, 31, 31⟩
def fldKEY_STAT_FAILS : Fld := ⟨regKEY_STAT, 30, 28⟩
def fldKEY_STAT_KEY_SET : Fld := ⟨regKEY_STAT, 27, 27⟩
def fldKEY_STAT_MEDIA : Fld := ⟨regKEY_STAT, 26, 25⟩
def fldKEY_STAT_SESSIONS : Fld := ⟨regKEY_STAT, 24, 22⟩
def fldKEY_STAT_JNL_DONE : Fld := ⟨regKEY_STAT, 2, 2⟩
def fldKEY_STAT_LOCKED_OUT : Fld := ⟨regKEY_STAT, 1, 1⟩
def fldKEY_STAT_TIMEOUT : Fld := ⟨regKEY_STAT, 0, 0⟩
def regKEY_IEN : Nat := keyBase + 0x4
def fldKEY_IEN_IE : Fld := ⟨regKEY_IEN, 2, 0⟩
def regKEY_CFG : Nat := keyBase + 0x8
def fldKEY_CFG_IDLE_TIMEOUT : Fld := ⟨regKEY_CFG, 15, 0⟩
def regJNL_STAT : Nat := keyBase + 0xc
def fldJNL_STAT_OP : Fld := ⟨regJNL_STAT, 31, 28⟩
def fldJNL_STAT_PHASE : Fld := ⟨regJNL_STAT, 27, 24⟩
def fldJNL_STAT_PERMILLE : Fld := ⟨regJNL_STAT, 23, 14⟩
def fldJNL_STAT_WAIT_SESSION : Fld := ⟨regJNL_STAT, 1, 1⟩
def fldJNL_STAT_PENDING_OTHER : Fld := ⟨regJNL_STAT, 0, 0⟩
def regJNL_CFG : Nat := keyBase + 0x10
def fldJNL_CFG_MIRROR_EVERY : Fld := ⟨regJNL_CFG, 23, 16⟩
def fldJNL_CFG_INTERVAL : Fld := ⟨regJNL_CFG, 15, 0⟩

/-- The registers of unit KEY: the session and key store (R477). -/
def regsKEY : List RegSpec := [
  ⟨0x0, 1, 4, [⟨31, 31, .ro, 0⟩, ⟨30, 28, .ro, 0⟩, ⟨27, 27, .ro, 0⟩, ⟨26, 25, .ro, 0⟩, ⟨24, 22, .ro, 0⟩, ⟨21, 3, .ro, 0⟩, ⟨2, 2, .w1c, 0⟩, ⟨1, 1, .w1c, 0⟩, ⟨0, 0, .w1c, 0⟩]⟩,
  ⟨0x4, 1, 4, [⟨31, 3, .ro, 0⟩, ⟨2, 0, .rw, 0⟩]⟩,
  ⟨0x8, 1, 4, [⟨31, 16, .ro, 0⟩, ⟨15, 0, .rw, 600⟩]⟩,
  ⟨0xc, 1, 4, [⟨31, 28, .ro, 0⟩, ⟨27, 24, .ro, 0⟩, ⟨23, 14, .ro, 0⟩, ⟨13, 2, .ro, 0⟩, ⟨1, 1, .ro, 0⟩, ⟨0, 0, .ro, 0⟩]⟩,
  ⟨0x10, 1, 4, [⟨31, 24, .ro, 0⟩, ⟨23, 16, .rw, 64⟩, ⟨15, 0, .rw, 240⟩]⟩]

/-! ### SUP: the supply block (R496) -/

def regSUP_CTL : Nat := supBase + 0x0
def fldSUP_CTL_LATCH_CLR : Fld := ⟨regSUP_CTL, 7, 7⟩
def fldSUP_CTL_CHOP_CLR : Fld := ⟨regSUP_CTL, 6, 6⟩
def fldSUP_CTL_BOOST_CLR : Fld := ⟨regSUP_CTL, 5, 5⟩
def fldSUP_CTL_GOV_EN : Fld := ⟨regSUP_CTL, 2, 2⟩
def fldSUP_CTL_BOOST_EN : Fld := ⟨regSUP_CTL, 1, 1⟩
def fldSUP_CTL_MBUS_EN : Fld := ⟨regSUP_CTL, 0, 0⟩
def regSUP_STAT : Nat := supBase + 0x4
def fldSUP_STAT_SUPPLY_FAULT : Fld := ⟨regSUP_STAT, 31, 31⟩
def fldSUP_STAT_CHOP_ACT : Fld := ⟨regSUP_STAT, 30, 30⟩
def fldSUP_STAT_CHOP_FAULT : Fld := ⟨regSUP_STAT, 29, 29⟩
def fldSUP_STAT_BUS_LATCH : Fld := ⟨regSUP_STAT, 28, 28⟩
def fldSUP_STAT_BOOST_FAULT : Fld := ⟨regSUP_STAT, 27, 27⟩
def fldSUP_STAT_RAIL_GOOD : Fld := ⟨regSUP_STAT, 26, 20⟩
def fldSUP_STAT_WAKE_LATE : Fld := ⟨regSUP_STAT, 10, 10⟩
def fldSUP_STAT_WOKE : Fld := ⟨regSUP_STAT, 9, 9⟩
def fldSUP_STAT_DORM_ABORT : Fld := ⟨regSUP_STAT, 8, 8⟩
def fldSUP_STAT_DORM_DENIED : Fld := ⟨regSUP_STAT, 7, 7⟩
def fldSUP_STAT_CLR_DENIED : Fld := ⟨regSUP_STAT, 6, 6⟩
def fldSUP_STAT_RAIL_FAULT : Fld := ⟨regSUP_STAT, 5, 5⟩
def fldSUP_STAT_BUS_UV : Fld := ⟨regSUP_STAT, 4, 4⟩
def fldSUP_STAT_BOOST_EVT : Fld := ⟨regSUP_STAT, 3, 3⟩
def fldSUP_STAT_LATCH_EVT : Fld := ⟨regSUP_STAT, 2, 2⟩
def fldSUP_STAT_CHOP_FLT_EVT : Fld := ⟨regSUP_STAT, 1, 1⟩
def fldSUP_STAT_CHOPPED : Fld := ⟨regSUP_STAT, 0, 0⟩
def regSUP_IEN : Nat := supBase + 0x8
def fldSUP_IEN_IE : Fld := ⟨regSUP_IEN, 10, 0⟩
def regSUP_GOV : Nat := supBase + 0xc
def fldSUP_GOV_VMAN : Fld := ⟨regSUP_GOV, 31, 16⟩
def fldSUP_GOV_HEADROOM : Fld := ⟨regSUP_GOV, 15, 8⟩
def fldSUP_GOV_DOWN_WIN : Fld := ⟨regSUP_GOV, 7, 0⟩
def regSUP_GOV2 : Nat := supBase + 0x10
def fldSUP_GOV2_VMIN : Fld := ⟨regSUP_GOV2, 31, 16⟩
def regSUP_VCORE : Nat := supBase + 0x14
def fldSUP_VCORE_VSET : Fld := ⟨regSUP_VCORE, 31, 16⟩
def fldSUP_VCORE_MEAS : Fld := ⟨regSUP_VCORE, 15, 0⟩
def regSUP_BUS : Nat := supBase + 0x18
def fldSUP_BUS_CHOP_ON : Fld := ⟨regSUP_BUS, 31, 16⟩
def fldSUP_BUS_CHOP_OFF : Fld := ⟨regSUP_BUS, 15, 0⟩
def regSUP_MEAS : Nat := supBase + 0x1c
def fldSUP_MEAS_VMOT : Fld := ⟨regSUP_MEAS, 31, 16⟩
def fldSUP_MEAS_VLAS : Fld := ⟨regSUP_MEAS, 15, 0⟩
def regSUP_DORM : Nat := supBase + 0x20
def fldSUP_DORM_ENTER : Fld := ⟨regSUP_DORM, 31, 31⟩
def fldSUP_DORM_WAKE_EN : Fld := ⟨regSUP_DORM, 20, 16⟩
def fldSUP_DORM_GPIO_MASK : Fld := ⟨regSUP_DORM, 15, 0⟩
def regSUP_DORM_STAT : Nat := supBase + 0x24
def fldSUP_DORM_STAT_WAKE_SRC : Fld := ⟨regSUP_DORM_STAT, 28, 24⟩
def fldSUP_DORM_STAT_DENY : Fld := ⟨regSUP_DORM_STAT, 5, 0⟩
def regSUP_ALARM_LO : Nat := supBase + 0x28
def fldSUP_ALARM_LO_TIME : Fld := ⟨regSUP_ALARM_LO, 31, 0⟩
def regSUP_ALARM_HI : Nat := supBase + 0x2c
def fldSUP_ALARM_HI_TIME : Fld := ⟨regSUP_ALARM_HI, 31, 0⟩

/-- The registers of unit SUP: the supply block (R496). -/
def regsSUP : List RegSpec := [
  ⟨0x0, 1, 4, [⟨31, 8, .ro, 0⟩, ⟨7, 7, .w1s, 0⟩, ⟨6, 6, .w1s, 0⟩, ⟨5, 5, .w1s, 0⟩, ⟨4, 3, .ro, 0⟩, ⟨2, 2, .rw, 1⟩, ⟨1, 1, .rw, 0⟩, ⟨0, 0, .rw, 0⟩]⟩,
  ⟨0x4, 1, 4, [⟨31, 31, .ro, 0⟩, ⟨30, 30, .ro, 0⟩, ⟨29, 29, .ro, 0⟩, ⟨28, 28, .ro, 0⟩, ⟨27, 27, .ro, 0⟩, ⟨26, 20, .ro, 31⟩, ⟨19, 11, .ro, 0⟩, ⟨10, 10, .w1c, 0⟩, ⟨9, 9, .w1c, 0⟩, ⟨8, 8, .w1c, 0⟩, ⟨7, 7, .w1c, 0⟩, ⟨6, 6, .w1c, 0⟩, ⟨5, 5, .w1c, 0⟩, ⟨4, 4, .w1c, 0⟩, ⟨3, 3, .w1c, 0⟩, ⟨2, 2, .w1c, 0⟩, ⟨1, 1, .w1c, 0⟩, ⟨0, 0, .w1c, 0⟩]⟩,
  ⟨0x8, 1, 4, [⟨31, 11, .ro, 0⟩, ⟨10, 0, .rw, 0⟩]⟩,
  ⟨0xc, 1, 4, [⟨31, 16, .rw, 750⟩, ⟨15, 8, .rw, 32⟩, ⟨7, 0, .rw, 100⟩]⟩,
  ⟨0x10, 1, 4, [⟨31, 16, .rw, 620⟩, ⟨15, 0, .ro, 0⟩]⟩,
  ⟨0x14, 1, 4, [⟨31, 16, .ro, 750⟩, ⟨15, 0, .ro, 0⟩]⟩,
  ⟨0x18, 1, 4, [⟨31, 16, .rw, 14400⟩, ⟨15, 0, .rw, 14000⟩]⟩,
  ⟨0x1c, 1, 4, [⟨31, 16, .ro, 0⟩, ⟨15, 0, .ro, 0⟩]⟩,
  ⟨0x20, 1, 4, [⟨31, 31, .w1s, 0⟩, ⟨30, 21, .ro, 0⟩, ⟨20, 16, .rw, 7⟩, ⟨15, 0, .rw, 0⟩]⟩,
  ⟨0x24, 1, 4, [⟨31, 29, .ro, 0⟩, ⟨28, 24, .ro, 0⟩, ⟨23, 6, .ro, 0⟩, ⟨5, 0, .ro, 0⟩]⟩,
  ⟨0x28, 1, 4, [⟨31, 0, .rw, 4294967295⟩]⟩,
  ⟨0x2c, 1, 4, [⟨31, 0, .rw, 4294967295⟩]⟩]

/-! ### TB: the time base (R511) -/

def regTB_TIME_LO : Nat := tbBase + 0x0
def fldTB_TIME_LO_TIME : Fld := ⟨regTB_TIME_LO, 31, 0⟩
def regTB_TIME_HI : Nat := tbBase + 0x4
def fldTB_TIME_HI_TIME : Fld := ⟨regTB_TIME_HI, 31, 0⟩
def regTB_STAT : Nat := tbBase + 0x8
def fldTB_STAT_SRC : Fld := ⟨regTB_STAT, 31, 31⟩
def fldTB_STAT_COARSE : Fld := ⟨regTB_STAT, 0, 0⟩

/-- The registers of unit TB: the time base (R511). -/
def regsTB : List RegSpec := [
  ⟨0x0, 1, 4, [⟨31, 0, .ro, 0⟩]⟩,
  ⟨0x4, 1, 4, [⟨31, 0, .ro, 0⟩]⟩,
  ⟨0x8, 1, 4, [⟨31, 31, .ro, 1⟩, ⟨30, 1, .ro, 0⟩, ⟨0, 0, .w1c, 1⟩]⟩]

/-! ### CLK: the clock block (R513) -/

def regCLK_REF_SEL : Nat := clkBase + 0x0
def fldCLK_REF_SEL_SWITCHING : Fld := ⟨regCLK_REF_SEL, 31, 31⟩
def fldCLK_REF_SEL_HUNG : Fld := ⟨regCLK_REF_SEL, 30, 30⟩
def fldCLK_REF_SEL_SEL : Fld := ⟨regCLK_REF_SEL, 0, 0⟩
def regCLK_SRC : Nat := clkBase + 0x4
def fldCLK_SRC_REF_GOOD : Fld := ⟨regCLK_SRC, 2, 2⟩
def fldCLK_SRC_REFIN_GOOD : Fld := ⟨regCLK_SRC, 1, 1⟩
def fldCLK_SRC_XO_GOOD : Fld := ⟨regCLK_SRC, 0, 0⟩
def regCLK_LOOP : Nat := clkBase + 0x8
def fldCLK_LOOP_LOCK : Fld := ⟨regCLK_LOOP, 29, 16⟩
def fldCLK_LOOP_COAST : Fld := ⟨regCLK_LOOP, 13, 0⟩
def regCLK_RELOCK : Nat := clkBase + 0xc
def fldCLK_RELOCK_RELOCK : Fld := ⟨regCLK_RELOCK, 13, 0⟩
def regCLK_STAT : Nat := clkBase + 0x10
def fldCLK_STAT_RESCUE_DENIED : Fld := ⟨regCLK_STAT, 6, 6⟩
def fldCLK_STAT_RESCUED : Fld := ⟨regCLK_STAT, 5, 5⟩
def fldCLK_STAT_HUNG : Fld := ⟨regCLK_STAT, 4, 4⟩
def fldCLK_STAT_SEL_BUSY : Fld := ⟨regCLK_STAT, 3, 3⟩
def fldCLK_STAT_RELOCK_DENIED : Fld := ⟨regCLK_STAT, 2, 2⟩
def fldCLK_STAT_LOCK_LOST : Fld := ⟨regCLK_STAT, 1, 1⟩
def fldCLK_STAT_REF_FAIL : Fld := ⟨regCLK_STAT, 0, 0⟩
def regCLK_IEN : Nat := clkBase + 0x14
def fldCLK_IEN_IE : Fld := ⟨regCLK_IEN, 6, 0⟩
def regCLK_GOOD0 : Nat := clkBase + 0x18
def fldCLK_GOOD0_GOOD : Fld := ⟨regCLK_GOOD0, 31, 0⟩
def regCLK_GOOD1 : Nat := clkBase + 0x1c
def fldCLK_GOOD1_GOOD : Fld := ⟨regCLK_GOOD1, 19, 0⟩
def regCLK_OUT : Nat := clkBase + 0x20
def fldCLK_OUT_SWITCHING : Fld := ⟨regCLK_OUT, 31, 31⟩
def fldCLK_OUT_HUNG : Fld := ⟨regCLK_OUT, 30, 30⟩
def fldCLK_OUT_DIV : Fld := ⟨regCLK_OUT, 15, 8⟩
def fldCLK_OUT_SEL : Fld := ⟨regCLK_OUT, 2, 0⟩

/-- The registers of unit CLK: the clock block (R513). -/
def regsCLK : List RegSpec := [
  ⟨0x0, 1, 4, [⟨31, 31, .ro, 0⟩, ⟨30, 30, .ro, 0⟩, ⟨29, 1, .ro, 0⟩, ⟨0, 0, .rw, 0⟩]⟩,
  ⟨0x4, 1, 4, [⟨31, 3, .ro, 0⟩, ⟨2, 2, .ro, 1⟩, ⟨1, 1, .ro, 0⟩, ⟨0, 0, .ro, 1⟩]⟩,
  ⟨0x8, 1, 4, [⟨31, 30, .ro, 0⟩, ⟨29, 16, .ro, 15⟩, ⟨15, 14, .ro, 0⟩, ⟨13, 0, .ro, 0⟩]⟩,
  ⟨0xc, 1, 4, [⟨31, 14, .ro, 0⟩, ⟨13, 0, .w1s, 0⟩]⟩,
  ⟨0x10, 1, 4, [⟨31, 7, .ro, 0⟩, ⟨6, 6, .w1c, 0⟩, ⟨5, 5, .w1c, 0⟩, ⟨4, 4, .w1c, 0⟩, ⟨3, 3, .w1c, 0⟩, ⟨2, 2, .w1c, 0⟩, ⟨1, 1, .w1c, 0⟩, ⟨0, 0, .w1c, 0⟩]⟩,
  ⟨0x14, 1, 4, [⟨31, 7, .ro, 0⟩, ⟨6, 0, .rw, 0⟩]⟩,
  ⟨0x18, 1, 4, [⟨31, 0, .ro, 0⟩]⟩,
  ⟨0x1c, 1, 4, [⟨31, 20, .ro, 0⟩, ⟨19, 0, .ro, 0⟩]⟩,
  ⟨0x20, 1, 4, [⟨31, 31, .ro, 0⟩, ⟨30, 30, .ro, 0⟩, ⟨29, 16, .ro, 0⟩, ⟨15, 8, .rw, 1⟩, ⟨7, 3, .ro, 0⟩, ⟨2, 0, .rw, 0⟩]⟩]

/-! ### CLKR: CLK_RESCUE of the Square (R514) -/

def regCLK_RESCUE : Nat := clkrBase + 0x0
def fldCLK_RESCUE_CODE : Fld := ⟨regCLK_RESCUE, 31, 24⟩
def fldCLK_RESCUE_MUX : Fld := ⟨regCLK_RESCUE, 3, 3⟩
def fldCLK_RESCUE_SRC : Fld := ⟨regCLK_RESCUE, 2, 0⟩

/-- The registers of unit CLKR: CLK_RESCUE of the Square (R514). -/
def regsCLKR : List RegSpec := [
  ⟨0x0, 1, 4, [⟨31, 24, .wo, 0⟩, ⟨23, 4, .wo, 0⟩, ⟨3, 3, .wo, 0⟩, ⟨2, 0, .wo, 0⟩]⟩]

/-! ### CAL: the calibration unit (R532) -/

def regCAL_CTL : Nat := calBase + 0x0
def fldCAL_CTL_AUTO_EN : Fld := ⟨regCAL_CTL, 1, 1⟩
def fldCAL_CTL_MAP_EN : Fld := ⟨regCAL_CTL, 0, 0⟩
def regCAL_STAT : Nat := calBase + 0x4
def fldCAL_STAT_CALREF_BAD : Fld := ⟨regCAL_STAT, 31, 31⟩
def fldCAL_STAT_CRC_BAD : Fld := ⟨regCAL_STAT, 6, 6⟩
def fldCAL_STAT_KEY_BAD : Fld := ⟨regCAL_STAT, 5, 5⟩
def fldCAL_STAT_WR_DENIED : Fld := ⟨regCAL_STAT, 4, 4⟩
def fldCAL_STAT_NONE : Fld := ⟨regCAL_STAT, 3, 3⟩
def fldCAL_STAT_ENVELOPE : Fld := ⟨regCAL_STAT, 2, 2⟩
def fldCAL_STAT_FAIL : Fld := ⟨regCAL_STAT, 1, 1⟩
def fldCAL_STAT_RESULT : Fld := ⟨regCAL_STAT, 0, 0⟩
def regCAL_IEN : Nat := calBase + 0x8
def fldCAL_IEN_IE : Fld := ⟨regCAL_IEN, 6, 0⟩
def regCAL_GEN : Nat := calBase + 0xc
def fldCAL_GEN_GEN : Fld := ⟨regCAL_GEN, 31, 0⟩
def regCAL_CAP : Nat := calBase + 0x10
def fldCAL_CAP_NV : Fld := ⟨regCAL_CAP, 31, 31⟩
def fldCAL_CAP_SLOTS : Fld := ⟨regCAL_CAP, 12, 0⟩
def regCAL_REF_MEAS : Nat := calBase + 0x14
def fldCAL_REF_MEAS_MV : Fld := ⟨regCAL_REF_MEAS, 15, 0⟩
def regCAL_PEND : Nat := calBase + 0x18
def fldCAL_PEND_BLOCK : Fld := ⟨regCAL_PEND, 10, 0⟩
def regCAL_MPD : Nat := calBase + 0x1c
def fldCAL_MPD_HEAD : Fld := ⟨regCAL_MPD, 31, 29⟩
def fldCAL_MPD_CODE : Fld := ⟨regCAL_MPD, 11, 0⟩
def regCAL_MAP_LOOP : Nat := calBase + 0x20
def fldCAL_MAP_LOOP_ADDR : Fld := ⟨regCAL_MAP_LOOP, 9, 0⟩
def regCAL_MAP_TILT : Nat := calBase + 0x24
def fldCAL_MAP_TILT_ADDR : Fld := ⟨regCAL_MAP_TILT, 9, 0⟩
def regCAL_MAP_COUPLE : Nat := calBase + 0x28
def fldCAL_MAP_COUPLE_ADDR : Fld := ⟨regCAL_MAP_COUPLE, 9, 0⟩
def regCAL_REC_SEL : Nat := calBase + 0x30
def fldCAL_REC_SEL_INDEX : Fld := ⟨regCAL_REC_SEL, 12, 0⟩
def regCAL_REC_CMD : Nat := calBase + 0x34
def fldCAL_REC_CMD_WRITE : Fld := ⟨regCAL_REC_CMD, 1, 1⟩
def fldCAL_REC_CMD_READ : Fld := ⟨regCAL_REC_CMD, 0, 0⟩
def regCAL_REC (i : Nat) : Nat := calBase + 0x40 + 4 * i
def fldCAL_REC_WORD (i : Nat) : Fld := ⟨regCAL_REC i, 31, 0⟩

/-- The registers of unit CAL: the calibration unit (R532). -/
def regsCAL : List RegSpec := [
  ⟨0x0, 1, 4, [⟨31, 2, .ro, 0⟩, ⟨1, 1, .rw, 1⟩, ⟨0, 0, .rw, 1⟩]⟩,
  ⟨0x4, 1, 4, [⟨31, 31, .ro, 0⟩, ⟨30, 7, .ro, 0⟩, ⟨6, 6, .w1c, 0⟩, ⟨5, 5, .w1c, 0⟩, ⟨4, 4, .w1c, 0⟩, ⟨3, 3, .w1c, 0⟩, ⟨2, 2, .w1c, 0⟩, ⟨1, 1, .w1c, 0⟩, ⟨0, 0, .w1c, 0⟩]⟩,
  ⟨0x8, 1, 4, [⟨31, 7, .ro, 0⟩, ⟨6, 0, .rw, 0⟩]⟩,
  ⟨0xc, 1, 4, [⟨31, 0, .ro, 0⟩]⟩,
  ⟨0x10, 1, 4, [⟨31, 31, .ro, 0⟩, ⟨30, 13, .ro, 0⟩, ⟨12, 0, .ro, 0⟩]⟩,
  ⟨0x14, 1, 4, [⟨31, 16, .ro, 0⟩, ⟨15, 0, .ro, 0⟩]⟩,
  ⟨0x18, 1, 4, [⟨31, 11, .ro, 0⟩, ⟨10, 0, .ro, 0⟩]⟩,
  ⟨0x1c, 1, 4, [⟨31, 29, .rw, 0⟩, ⟨28, 12, .ro, 0⟩, ⟨11, 0, .ro, 0⟩]⟩,
  ⟨0x20, 1, 4, [⟨31, 10, .ro, 0⟩, ⟨9, 0, .rw, 64⟩]⟩,
  ⟨0x24, 1, 4, [⟨31, 10, .ro, 0⟩, ⟨9, 0, .rw, 256⟩]⟩,
  ⟨0x28, 1, 4, [⟨31, 10, .ro, 0⟩, ⟨9, 0, .rw, 64⟩]⟩,
  ⟨0x30, 1, 4, [⟨31, 13, .ro, 0⟩, ⟨12, 0, .rw, 0⟩]⟩,
  ⟨0x34, 1, 4, [⟨31, 2, .wo, 0⟩, ⟨1, 1, .wo, 0⟩, ⟨0, 0, .wo, 0⟩]⟩,
  ⟨0x40, 16, 4, [⟨31, 0, .rw, 0⟩]⟩]

/-! ### CALB: a calibration block (R533); argument: block 0-10 -/

def regCALB_CFG (n : Nat) : Nat := calbBase n + 0x0
def fldCALB_CFG_THR (n : Nat) : Fld := ⟨regCALB_CFG n, 7, 0⟩
def regCALB_STAT (n : Nat) : Nat := calbBase n + 0x4
def fldCALB_STAT_REQ (n : Nat) : Fld := ⟨regCALB_STAT n, 31, 31⟩
def fldCALB_STAT_ENV_LIVE (n : Nat) : Fld := ⟨regCALB_STAT n, 30, 30⟩
def fldCALB_STAT_CLASS (n : Nat) : Fld := ⟨regCALB_STAT n, 29, 28⟩
def fldCALB_STAT_CAUSE (n : Nat) : Fld := ⟨regCALB_STAT n, 27, 24⟩
def fldCALB_STAT_PEND (n : Nat) : Fld := ⟨regCALB_STAT n, 7, 1⟩
def regCALB_COUNT (n : Nat) : Nat := calbBase n + 0x8
def fldCALB_COUNT_COUNT (n : Nat) : Fld := ⟨regCALB_COUNT n, 31, 0⟩
def regCALB_TIME_LO (n : Nat) : Nat := calbBase n + 0xc
def fldCALB_TIME_LO_TIME (n : Nat) : Fld := ⟨regCALB_TIME_LO n, 31, 0⟩
def regCALB_TIME_HI (n : Nat) : Nat := calbBase n + 0x10
def fldCALB_TIME_HI_TIME (n : Nat) : Fld := ⟨regCALB_TIME_HI n, 31, 0⟩
def regCALB_TEMP (n : Nat) : Nat := calbBase n + 0x14
def fldCALB_TEMP_T (n : Nat) : Fld := ⟨regCALB_TEMP n, 15, 0⟩

/-- The registers of unit CALB: a calibration block (R533); argument: block 0-10. -/
def regsCALB : List RegSpec := [
  ⟨0x0, 1, 4, [⟨31, 8, .ro, 0⟩, ⟨7, 0, .rw, 16⟩]⟩,
  ⟨0x4, 1, 4, [⟨31, 31, .w1s, 0⟩, ⟨30, 30, .ro, 0⟩, ⟨29, 28, .ro, 0⟩, ⟨27, 24, .ro, 0⟩, ⟨23, 8, .ro, 0⟩, ⟨7, 1, .ro, 0⟩, ⟨0, 0, .ro, 0⟩]⟩,
  ⟨0x8, 1, 4, [⟨31, 0, .ro, 0⟩]⟩,
  ⟨0xc, 1, 4, [⟨31, 0, .ro, 0⟩]⟩,
  ⟨0x10, 1, 4, [⟨31, 0, .ro, 0⟩]⟩,
  ⟨0x14, 1, 4, [⟨31, 16, .ro, 0⟩, ⟨15, 0, .ro, 0⟩]⟩]

/-! ### CERR: the cell error registers (R535); argument: cell code, 64 times the block number plus the cell -/

def regCELL_ERR (n : Nat) : Nat := cerrBase n + 0x0
def fldCELL_ERR_FAULT (n : Nat) : Fld := ⟨regCELL_ERR n, 31, 31⟩
def fldCELL_ERR_CLASS (n : Nat) : Fld := ⟨regCELL_ERR n, 30, 24⟩
def fldCELL_ERR_HB_LOST (n : Nat) : Fld := ⟨regCELL_ERR n, 2, 2⟩
def fldCELL_ERR_UE (n : Nat) : Fld := ⟨regCELL_ERR n, 1, 1⟩
def fldCELL_ERR_CE (n : Nat) : Fld := ⟨regCELL_ERR n, 0, 0⟩

/-- The registers of unit CERR: the cell error registers (R535); argument: cell code, 64 times the block number plus the cell. -/
def regsCERR : List RegSpec := [
  ⟨0x0, 1, 4, [⟨31, 31, .ro, 0⟩, ⟨30, 24, .ro, 0⟩, ⟨23, 3, .ro, 0⟩, ⟨2, 2, .w1c, 0⟩, ⟨1, 1, .w1c, 0⟩, ⟨0, 0, .w1c, 0⟩]⟩]

/-! ### SQ: the Square (R549) -/

def regSQ_STAT : Nat := sqBase + 0x0
def fldSQ_STAT_SAFE : Fld := ⟨regSQ_STAT, 31, 31⟩
def fldSQ_STAT_SAFE_CAUSE : Fld := ⟨regSQ_STAT, 30, 28⟩
def fldSQ_STAT_PIN_LOW : Fld := ⟨regSQ_STAT, 27, 27⟩
def fldSQ_STAT_FM_DENIED : Fld := ⟨regSQ_STAT, 6, 6⟩
def fldSQ_STAT_OVERFLOW : Fld := ⟨regSQ_STAT, 5, 5⟩
def fldSQ_STAT_WD_WARN : Fld := ⟨regSQ_STAT, 4, 4⟩
def fldSQ_STAT_SIDE_B_LOST : Fld := ⟨regSQ_STAT, 3, 3⟩
def fldSQ_STAT_SIDE_A_LOST : Fld := ⟨regSQ_STAT, 2, 2⟩
def fldSQ_STAT_HB_LOST : Fld := ⟨regSQ_STAT, 1, 1⟩
def fldSQ_STAT_SAFE_EVT : Fld := ⟨regSQ_STAT, 0, 0⟩
def regSQ_IEN : Nat := sqBase + 0x4
def fldSQ_IEN_IE : Fld := ⟨regSQ_IEN, 6, 0⟩
def regSQ_CFG : Nat := sqBase + 0x8
def fldSQ_CFG_HB_MISS : Fld := ⟨regSQ_CFG, 31, 28⟩
def fldSQ_CFG_SUP_GRACE : Fld := ⟨regSQ_CFG, 27, 20⟩
def fldSQ_CFG_WD_EN : Fld := ⟨regSQ_CFG, 16, 16⟩
def fldSQ_CFG_WD_PERIOD : Fld := ⟨regSQ_CFG, 15, 0⟩
def regSQ_KICK : Nat := sqBase + 0xc
def fldSQ_KICK_CODE : Fld := ⟨regSQ_KICK, 31, 24⟩
def regSQ_SAFE : Nat := sqBase + 0x10
def fldSQ_SAFE_CODE : Fld := ⟨regSQ_SAFE, 31, 24⟩
def regFM_ISOLATE : Nat := sqBase + 0x20
def fldFM_ISOLATE_ISOLATED : Fld := ⟨regFM_ISOLATE, 15, 8⟩
def fldFM_ISOLATE_HEADS : Fld := ⟨regFM_ISOLATE, 7, 0⟩
def regFM_REINSTATE : Nat := sqBase + 0x24
def fldFM_REINSTATE_HEADS : Fld := ⟨regFM_REINSTATE, 7, 0⟩

/-- The registers of unit SQ: the Square (R549). -/
def regsSQ : List RegSpec := [
  ⟨0x0, 1, 4, [⟨31, 31, .ro, 0⟩, ⟨30, 28, .ro, 0⟩, ⟨27, 27, .ro, 0⟩, ⟨26, 7, .ro, 0⟩, ⟨6, 6, .w1c, 0⟩, ⟨5, 5, .w1c, 0⟩, ⟨4, 4, .w1c, 0⟩, ⟨3, 3, .w1c, 0⟩, ⟨2, 2, .w1c, 0⟩, ⟨1, 1, .w1c, 0⟩, ⟨0, 0, .w1c, 0⟩]⟩,
  ⟨0x4, 1, 4, [⟨31, 7, .ro, 0⟩, ⟨6, 0, .rw, 0⟩]⟩,
  ⟨0x8, 1, 4, [⟨31, 28, .rw, 4⟩, ⟨27, 20, .rw, 20⟩, ⟨19, 17, .ro, 0⟩, ⟨16, 16, .w1s, 0⟩, ⟨15, 0, .rw, 1000⟩]⟩,
  ⟨0xc, 1, 4, [⟨31, 24, .wo, 0⟩, ⟨23, 0, .wo, 0⟩]⟩,
  ⟨0x10, 1, 4, [⟨31, 24, .wo, 0⟩, ⟨23, 0, .wo, 0⟩]⟩,
  ⟨0x20, 1, 4, [⟨31, 16, .ro, 0⟩, ⟨15, 8, .ro, 0⟩, ⟨7, 0, .w1s, 0⟩]⟩,
  ⟨0x24, 1, 4, [⟨31, 8, .ro, 0⟩, ⟨7, 0, .w1s, 0⟩]⟩]

/-! ### CAP: the capability registers (R562) -/

def regCAP0 : Nat := capBase + 0x0
def fldCAP0_CAL_NV : Fld := ⟨regCAP0, 24, 24⟩
def fldCAP0_SPAN_DEC : Fld := ⟨regCAP0, 23, 23⟩
def fldCAP0_SPAN_ENC : Fld := ⟨regCAP0, 22, 22⟩
def fldCAP0_ARCHIVE : Fld := ⟨regCAP0, 21, 21⟩
def fldCAP0_WRITE : Fld := ⟨regCAP0, 20, 20⟩
def fldCAP0_PORTS : Fld := ⟨regCAP0, 19, 18⟩
def fldCAP0_SIDES : Fld := ⟨regCAP0, 17, 16⟩
def fldCAP0_HEADS : Fld := ⟨regCAP0, 15, 8⟩
def fldCAP0_STEPPING : Fld := ⟨regCAP0, 7, 4⟩
def fldCAP0_VARIANT : Fld := ⟨regCAP0, 3, 0⟩
def regCAP1 : Nat := capBase + 0x4
def fldCAP1_DEC_SLICES : Fld := ⟨regCAP1, 21, 16⟩
def fldCAP1_SE_MASK : Fld := ⟨regCAP1, 13, 4⟩
def fldCAP1_CORES : Fld := ⟨regCAP1, 3, 0⟩
def regCAP2 : Nat := capBase + 0x8
def fldCAP2_CONTEXTS : Fld := ⟨regCAP2, 28, 16⟩
def fldCAP2_QUEUE_PAIRS : Fld := ⟨regCAP2, 9, 0⟩
def regCAP3 : Nat := capBase + 0xc
def fldCAP3_KEY_FUSED : Fld := ⟨regCAP3, 31, 31⟩
def fldCAP3_COUNTERS : Fld := ⟨regCAP3, 25, 16⟩
def fldCAP3_CAT_LOG2 : Fld := ⟨regCAP3, 9, 5⟩
def fldCAP3_SI_LOG2 : Fld := ⟨regCAP3, 4, 0⟩

/-- The registers of unit CAP: the capability registers (R562). -/
def regsCAP : List RegSpec := [
  ⟨0x0, 1, 4, [⟨31, 25, .ro, 0⟩, ⟨24, 24, .ro, 0⟩, ⟨23, 23, .ro, 0⟩, ⟨22, 22, .ro, 0⟩, ⟨21, 21, .ro, 0⟩, ⟨20, 20, .ro, 0⟩, ⟨19, 18, .ro, 0⟩, ⟨17, 16, .ro, 0⟩, ⟨15, 8, .ro, 0⟩, ⟨7, 4, .ro, 1⟩, ⟨3, 0, .ro, 0⟩]⟩,
  ⟨0x4, 1, 4, [⟨31, 22, .ro, 0⟩, ⟨21, 16, .ro, 40⟩, ⟨15, 14, .ro, 0⟩, ⟨13, 4, .ro, 0⟩, ⟨3, 0, .ro, 4⟩]⟩,
  ⟨0x8, 1, 4, [⟨31, 29, .ro, 0⟩, ⟨28, 16, .ro, 4096⟩, ⟨15, 10, .ro, 0⟩, ⟨9, 0, .ro, 512⟩]⟩,
  ⟨0xc, 1, 4, [⟨31, 31, .ro, 0⟩, ⟨30, 26, .ro, 0⟩, ⟨25, 16, .ro, 518⟩, ⟨15, 10, .ro, 0⟩, ⟨9, 5, .ro, 18⟩, ⟨4, 0, .ro, 19⟩]⟩]

/-! ### RST: the reset registers (R566) -/

def regRST_CTL : Nat := rstBase + 0x0
def fldRST_CTL_CODE : Fld := ⟨regRST_CTL, 31, 24⟩
def fldRST_CTL_RECOVER : Fld := ⟨regRST_CTL, 3, 3⟩
def fldRST_CTL_POR : Fld := ⟨regRST_CTL, 2, 2⟩
def fldRST_CTL_CORE : Fld := ⟨regRST_CTL, 1, 1⟩
def fldRST_CTL_WARM : Fld := ⟨regRST_CTL, 0, 0⟩
def regRST_STAT : Nat := rstBase + 0x4
def fldRST_STAT_BOOT_ERR : Fld := ⟨regRST_STAT, 15, 8⟩
def fldRST_STAT_BOOT_SLOT : Fld := ⟨regRST_STAT, 5, 4⟩
def fldRST_STAT_CAUSE : Fld := ⟨regRST_STAT, 3, 0⟩
def regRST_RESUME_LO : Nat := rstBase + 0x8
def fldRST_RESUME_LO_ADDR : Fld := ⟨regRST_RESUME_LO, 31, 0⟩
def regRST_RESUME_HI : Nat := rstBase + 0xc
def fldRST_RESUME_HI_ADDR : Fld := ⟨regRST_RESUME_HI, 7, 0⟩
def regRST_RESUME_LEN : Nat := rstBase + 0x10
def fldRST_RESUME_LEN_RESUME : Fld := ⟨regRST_RESUME_LEN, 31, 16⟩
def fldRST_RESUME_LEN_LEN : Fld := ⟨regRST_RESUME_LEN, 15, 0⟩
def regRST_RESUME_DIG (i : Nat) : Nat := rstBase + 0x20 + 4 * i
def fldRST_RESUME_DIG_DIGEST (i : Nat) : Fld := ⟨regRST_RESUME_DIG i, 31, 0⟩

/-- The registers of unit RST: the reset registers (R566). -/
def regsRST : List RegSpec := [
  ⟨0x0, 1, 4, [⟨31, 24, .wo, 0⟩, ⟨23, 4, .wo, 0⟩, ⟨3, 3, .wo, 0⟩, ⟨2, 2, .wo, 0⟩, ⟨1, 1, .wo, 0⟩, ⟨0, 0, .wo, 0⟩]⟩,
  ⟨0x4, 1, 4, [⟨31, 16, .ro, 0⟩, ⟨15, 8, .ro, 0⟩, ⟨7, 6, .ro, 0⟩, ⟨5, 4, .ro, 0⟩, ⟨3, 0, .ro, 1⟩]⟩,
  ⟨0x8, 1, 4, [⟨31, 0, .rw, 0⟩]⟩,
  ⟨0xc, 1, 4, [⟨31, 8, .ro, 0⟩, ⟨7, 0, .rw, 128⟩]⟩,
  ⟨0x10, 1, 4, [⟨31, 16, .rw, 0⟩, ⟨15, 0, .rw, 0⟩]⟩,
  ⟨0x20, 8, 4, [⟨31, 0, .rw, 0⟩]⟩]

/-! ### GPIO: the GPIO registers (R576) -/

def regGPIO_FUNC (i : Nat) : Nat := pinBase + 0x0 + 4 * i
def fldGPIO_FUNC_DRIVE (i : Nat) : Fld := ⟨regGPIO_FUNC i, 12, 12⟩
def fldGPIO_FUNC_PULL (i : Nat) : Fld := ⟨regGPIO_FUNC i, 9, 8⟩
def fldGPIO_FUNC_FUNC (i : Nat) : Fld := ⟨regGPIO_FUNC i, 2, 0⟩
def regGPIO_IN : Nat := pinBase + 0x40
def fldGPIO_IN_LEVEL : Fld := ⟨regGPIO_IN, 15, 0⟩
def regGPIO_OE : Nat := pinBase + 0x44
def fldGPIO_OE_EN : Fld := ⟨regGPIO_OE, 15, 0⟩
def regGPIO_OE_SET : Nat := pinBase + 0x48
def fldGPIO_OE_SET_LINES : Fld := ⟨regGPIO_OE_SET, 15, 0⟩
def regGPIO_OE_CLR : Nat := pinBase + 0x4c
def fldGPIO_OE_CLR_LINES : Fld := ⟨regGPIO_OE_CLR, 15, 0⟩
def regGPIO_OUT : Nat := pinBase + 0x50
def fldGPIO_OUT_LEVEL : Fld := ⟨regGPIO_OUT, 15, 0⟩
def regGPIO_OUT_SET : Nat := pinBase + 0x54
def fldGPIO_OUT_SET_LINES : Fld := ⟨regGPIO_OUT_SET, 15, 0⟩
def regGPIO_OUT_CLR : Nat := pinBase + 0x58
def fldGPIO_OUT_CLR_LINES : Fld := ⟨regGPIO_OUT_CLR, 15, 0⟩
def regGPIO_EDGE : Nat := pinBase + 0x60
def fldGPIO_EDGE_RISE : Fld := ⟨regGPIO_EDGE, 31, 16⟩
def fldGPIO_EDGE_FALL : Fld := ⟨regGPIO_EDGE, 15, 0⟩
def regGPIO_EVT : Nat := pinBase + 0x64
def fldGPIO_EVT_TMR : Fld := ⟨regGPIO_EVT, 19, 16⟩
def fldGPIO_EVT_LINE : Fld := ⟨regGPIO_EVT, 15, 0⟩
def regGPIO_IEN : Nat := pinBase + 0x68
def fldGPIO_IEN_IE : Fld := ⟨regGPIO_IEN, 19, 0⟩

/-- The registers of unit GPIO: the GPIO registers (R576). -/
def regsGPIO : List RegSpec := [
  ⟨0x0, 16, 4, [⟨31, 13, .ro, 0⟩, ⟨12, 12, .rw, 0⟩, ⟨11, 10, .ro, 0⟩, ⟨9, 8, .rw, 1⟩, ⟨7, 3, .ro, 0⟩, ⟨2, 0, .rw, 0⟩]⟩,
  ⟨0x40, 1, 4, [⟨31, 16, .ro, 0⟩, ⟨15, 0, .ro, 0⟩]⟩,
  ⟨0x44, 1, 4, [⟨31, 16, .ro, 0⟩, ⟨15, 0, .ro, 0⟩]⟩,
  ⟨0x48, 1, 4, [⟨31, 16, .ro, 0⟩, ⟨15, 0, .wo, 0⟩]⟩,
  ⟨0x4c, 1, 4, [⟨31, 16, .ro, 0⟩, ⟨15, 0, .wo, 0⟩]⟩,
  ⟨0x50, 1, 4, [⟨31, 16, .ro, 0⟩, ⟨15, 0, .ro, 0⟩]⟩,
  ⟨0x54, 1, 4, [⟨31, 16, .ro, 0⟩, ⟨15, 0, .wo, 0⟩]⟩,
  ⟨0x58, 1, 4, [⟨31, 16, .ro, 0⟩, ⟨15, 0, .wo, 0⟩]⟩,
  ⟨0x60, 1, 4, [⟨31, 16, .rw, 0⟩, ⟨15, 0, .rw, 0⟩]⟩,
  ⟨0x64, 1, 4, [⟨31, 20, .ro, 0⟩, ⟨19, 16, .w1c, 0⟩, ⟨15, 0, .w1c, 0⟩]⟩,
  ⟨0x68, 1, 4, [⟨31, 20, .ro, 0⟩, ⟨19, 0, .rw, 0⟩]⟩]

/-! ### TMR: the edge timers (R577) -/

def regTMR_CFG (i : Nat) : Nat := pinBase + 0x100 + 16 * i
def fldTMR_CFG_EN (i : Nat) : Fld := ⟨regTMR_CFG i, 31, 31⟩
def fldTMR_CFG_MODE (i : Nat) : Fld := ⟨regTMR_CFG i, 29, 28⟩
def fldTMR_CFG_LINE (i : Nat) : Fld := ⟨regTMR_CFG i, 19, 16⟩
def regTMR_PWM (i : Nat) : Nat := pinBase + 0x104 + 16 * i
def fldTMR_PWM_PER (i : Nat) : Fld := ⟨regTMR_PWM i, 31, 16⟩
def fldTMR_PWM_DUTY (i : Nat) : Fld := ⟨regTMR_PWM i, 15, 0⟩
def regTMR_CAP_LO (i : Nat) : Nat := pinBase + 0x108 + 16 * i
def fldTMR_CAP_LO_TIME (i : Nat) : Fld := ⟨regTMR_CAP_LO i, 31, 0⟩
def regTMR_CAP_HI (i : Nat) : Nat := pinBase + 0x10c + 16 * i
def fldTMR_CAP_HI_TIME (i : Nat) : Fld := ⟨regTMR_CAP_HI i, 31, 0⟩

/-- The registers of unit TMR: the edge timers (R577). -/
def regsTMR : List RegSpec := [
  ⟨0x100, 4, 16, [⟨31, 31, .rw, 0⟩, ⟨30, 30, .ro, 0⟩, ⟨29, 28, .rw, 0⟩, ⟨27, 20, .ro, 0⟩, ⟨19, 16, .rw, 0⟩, ⟨15, 0, .ro, 0⟩]⟩,
  ⟨0x104, 4, 16, [⟨31, 16, .rw, 0⟩, ⟨15, 0, .rw, 0⟩]⟩,
  ⟨0x108, 4, 16, [⟨31, 0, .ro, 0⟩]⟩,
  ⟨0x10c, 4, 16, [⟨31, 0, .ro, 0⟩]⟩]

/-! ### KRB: the Kerb registers (R584) -/

def regKRB_STAT : Nat := pinBase + 0x400
def fldKRB_STAT_PROTO : Fld := ⟨regKRB_STAT, 3, 3⟩
def fldKRB_STAT_IN_WR : Fld := ⟨regKRB_STAT, 2, 2⟩
def fldKRB_STAT_CMD : Fld := ⟨regKRB_STAT, 1, 1⟩
def fldKRB_STAT_INT_CLR : Fld := ⟨regKRB_STAT, 0, 0⟩
def regKRB_IEN : Nat := pinBase + 0x404
def fldKRB_IEN_IE : Fld := ⟨regKRB_IEN, 3, 0⟩
def regKRB_CMD : Nat := pinBase + 0x408
def fldKRB_CMD_CMD : Fld := ⟨regKRB_CMD, 15, 0⟩
def regKRB_INT : Nat := pinBase + 0x40c
def fldKRB_INT_ASSERT : Fld := ⟨regKRB_INT, 0, 0⟩
def regKRB_FWSTAGE : Nat := pinBase + 0x410
def fldKRB_FWSTAGE_FW_STAGE : Fld := ⟨regKRB_FWSTAGE, 7, 0⟩
def regKRB_IN (i : Nat) : Nat := pinBase + 0x500 + 4 * i
def fldKRB_IN_WORD (i : Nat) : Fld := ⟨regKRB_IN i, 15, 0⟩
def regKRB_OUT (i : Nat) : Nat := pinBase + 0x580 + 4 * i
def fldKRB_OUT_WORD (i : Nat) : Fld := ⟨regKRB_OUT i, 15, 0⟩
def regKRB_SW (i : Nat) : Nat := pinBase + 0x63c + 4 * i
def fldKRB_SW_WORD (i : Nat) : Fld := ⟨regKRB_SW i, 15, 0⟩

/-- The registers of unit KRB: the Kerb registers (R584). -/
def regsKRB : List RegSpec := [
  ⟨0x400, 1, 4, [⟨31, 4, .ro, 0⟩, ⟨3, 3, .w1c, 0⟩, ⟨2, 2, .w1c, 0⟩, ⟨1, 1, .w1c, 0⟩, ⟨0, 0, .w1c, 0⟩]⟩,
  ⟨0x404, 1, 4, [⟨31, 4, .ro, 0⟩, ⟨3, 0, .rw, 0⟩]⟩,
  ⟨0x408, 1, 4, [⟨31, 16, .ro, 0⟩, ⟨15, 0, .ro, 0⟩]⟩,
  ⟨0x40c, 1, 4, [⟨31, 1, .ro, 0⟩, ⟨0, 0, .rw, 0⟩]⟩,
  ⟨0x410, 1, 4, [⟨31, 8, .ro, 0⟩, ⟨7, 0, .rw, 0⟩]⟩,
  ⟨0x500, 32, 4, [⟨31, 16, .ro, 0⟩, ⟨15, 0, .ro, 0⟩]⟩,
  ⟨0x580, 32, 4, [⟨31, 16, .ro, 0⟩, ⟨15, 0, .rw, 0⟩]⟩,
  ⟨0x63c, 49, 4, [⟨31, 16, .ro, 0⟩, ⟨15, 0, .rw, 0⟩]⟩]

/-! ### SMB: SMB_CFG (R585) -/

def regSMB_CFG : Nat := pinBase + 0x190
def fldSMB_CFG_NACKED : Fld := ⟨regSMB_CFG, 24, 24⟩
def fldSMB_CFG_IE : Fld := ⟨regSMB_CFG, 16, 16⟩
def fldSMB_CFG_PEC : Fld := ⟨regSMB_CFG, 8, 8⟩
def fldSMB_CFG_ADDR : Fld := ⟨regSMB_CFG, 6, 0⟩

/-- The registers of unit SMB: SMB_CFG (R585). -/
def regsSMB : List RegSpec := [
  ⟨0x190, 1, 4, [⟨31, 25, .ro, 0⟩, ⟨24, 24, .w1c, 0⟩, ⟨23, 17, .ro, 0⟩, ⟨16, 16, .rw, 0⟩, ⟨15, 9, .ro, 0⟩, ⟨8, 8, .rw, 1⟩, ⟨7, 7, .ro, 0⟩, ⟨6, 0, .rw, 44⟩]⟩]

/-! ### PIN: SPI_STAT (R575) -/

def regSPI_STAT : Nat := pinBase + 0x180
def fldSPI_STAT_BUSY : Fld := ⟨regSPI_STAT, 31, 31⟩
def fldSPI_STAT_ERR : Fld := ⟨regSPI_STAT, 1, 1⟩
def fldSPI_STAT_DONE : Fld := ⟨regSPI_STAT, 0, 0⟩

/-- The registers of unit PIN: SPI_STAT (R575). -/
def regsPIN : List RegSpec := [
  ⟨0x180, 1, 4, [⟨31, 31, .ro, 0⟩, ⟨30, 2, .ro, 0⟩, ⟨1, 1, .w1c, 0⟩, ⟨0, 0, .w1c, 0⟩]⟩]

end Machine
end Sys2Proof
end

