-- ==== Sys2Proof/Machine/State.lean ====
section
/-! DEFINITION. The state of the block as plain data: every register, buffer, queue, counter, mode and pin that the
spec gives the chip, and the queue of waiting commands; and the state right after reset.  A register's status and
configuration fields live in `regs`, keyed by physical address; what is not a register field has a field of its own. -/

namespace Sys2Proof
namespace Machine

/-! ### Outcome reasons -/

/-- Why the machine stops.  The spec gives every command of the table an effect, so no command stops it, and the one
constructor has no user. -/
inductive Fault where
  /-- Raised by no meaning: exec never answers it.  Safe. -/
  | none_raised
deriving DecidableEq, Repr

/-- A command without a meaning. -/
inductive Refusal where
  /-- Raised by Machine/Dispatch.lean for a row that has no meaning yet.  Safe: nothing can be proved of it. -/
  | notModelled (mnemonic : String)
deriving DecidableEq, Repr

/-! ### The bus -/

/-- How an access ends (R10, R12, R40, R409). -/
inductive BusStatus where
  | ok | busError | crossingReset | poison
deriving DecidableEq, Repr

/-- The answer that the last access gave its requester: how it ended, the value read and the bytes returned. -/
structure Reply where
  status : BusStatus
  value : Nat
  bytes : List Byte
deriving DecidableEq, Repr

/-! ### Fabric (01_districts_and_the_ring_road.md) -/

/-- A granted transfer that has not been acknowledged (R30). -/
structure Grant where
  port : Fin 16
  target : Fin 16
  time : DWord
deriving DecidableEq, Repr

/-- A Roundabout's arbitration state (R27, R28, R37).  `turn` is the port whose turn it is and `used` the consecutive
grants it has had in the turn; `open` is whether a window is open. -/
structure Rbt where
  turn : Nat
  used : Nat
  isOpen : Bool
  winGrants : Nat
  winUrgent : Nat
  waiting : List RbtRequest
  inFlight : List Grant
  pendCfg : Option Word
  pendWgt0 : Option Word
  pendWgt1 : Option Word
  fenced : List Nat
deriving DecidableEq, Repr

/-- The states of a Crossing (R40). -/
inductive XState where
  | armed | withdrawn | waitReady
deriving DecidableEq, Repr

/-- A Crossing: its state; for each side whether it is in reset, whether it has been reset and has not reported ready since, the
requests it has pending, those it holds back with whether each awaits an answer (R40, R594), and the abort tokens on their way
to it (R41); the clocked side's clock-good flag (R39); the requests that passed last, and how the last one ended. -/
structure Xing where
  st : XState
  rstClk : Bool
  rstSelf : Bool
  clkGood : Bool
  freshClk : Bool
  freshSelf : Bool
  pendClk : List Nat
  pendSelf : List Nat
  heldClk : List (Nat × Bool)
  heldSelf : List (Nat × Bool)
  tokClk : List Nat
  tokSelf : List Nat
  passed : List Nat
  lastEnd : BusStatus
deriving DecidableEq, Repr

/-- Crossing x right after reset: WITHDRAWN, both sides in reset; the write clocks and the USB clocks do not run yet (R43,
R500, R502). -/
def Xing.reset (x : Nat) : Xing :=
  ⟨.withdrawn, true, true, !((decide (16 ≤ x) && decide (x < 24)) || (decide (34 ≤ x) && decide (x < 38))), true, true, [], [], [], [], [], [], [], .ok⟩

/-- A pace monitor: whether it has begun to count, and the short windows in a row at the highest voltage (R48, R51). -/
structure Pace where
  counting : Bool
  collapseRun : Nat
deriving DecidableEq, Repr

/-- Transfers that have arrived over one path from one source at one target, in order (R23, R24): its Roundabouts, and the
stations of the Ring Road that it passes, by their Ring Road ports, in order (R26). -/
structure Link where
  src : Nat
  dst : Nat
  hops : List Hop
  stations : List Nat
  arrived : List (List Byte)
deriving DecidableEq, Repr

/-! ### Caches (12_caches.md) -/

/-- One Arcade line: its tag, whether it is dirty, its 64 bytes, whether it is marked poisoned, and the flipped bits of its
eight SRAM words, 72 for each (R372, R375, R381, R395, R409). -/
structure ArcLine where
  tag : Nat
  dirty : Bool
  data : List Byte
  poison : Bool
  err : Nat
deriving DecidableEq, Repr

/-- A request at the Arcade: its class (4 is 'never allocates'), its address, the bytes it stores, if it is a store, and
the Plaza core that sends it, if its class is 0 (R369, R373, R380). -/
structure ArcReq where
  cls : Nat
  addr : Nat
  store : Option (List Byte)
  core : Fin 4
deriving DecidableEq, Repr

/-- One busy miss register: the line it fetches, whether the fill allocates and for which class, and the requests it
serves in arrival order (R380). -/
structure MissReg where
  line : Nat
  alloc : Bool
  cls : Nat
  reqs : List ArcReq
deriving DecidableEq, Repr

/-- What a read that a fill served received: its address, the line's bytes at its turn, and whether they were poisoned
(R380, R409). -/
structure ArcAnswer where
  addr : Nat
  data : List Byte
  poison : Bool
deriving DecidableEq, Repr

/-- The Arcade: lines by place (16,384 bank + 16 set + way), pseudo-LRU trees by 1,024 bank + set, the busy miss
registers of each bank and the requests that wait for one, and the answers to the reads that the last fill served, in
arrival order (R372, R376, R380). -/
structure Arcade where
  lines : List (Nat × ArcLine)
  plru : List (Nat × Nat)
  miss : Vector (List MissReg) 4
  waiting : Vector (List ArcReq) 4
  answers : List ArcAnswer
deriving DecidableEq, Repr

/-- One L1 line: its tag, its bytes, the stamp of its last use, and the flipped bits of its eight SRAM words, 72 for each
(R368, R395). -/
structure L1Line where
  tag : Nat
  data : List Byte
  stamp : Nat
  err : Nat
deriving DecidableEq, Repr

/-- A busy miss register of an L1: the line it fetches, the bytes it brings, and how many later misses merged into it
(R380). -/
structure L1Miss where
  line : Nat
  data : List Byte
  merged : Nat
deriving DecidableEq, Repr

/-- One L1 cache: lines by 4 set + way, the stamp counter, its busy miss registers, and whether it waits for them to land
before it empties (R368, R380, R387). -/
structure L1 where
  lines : List (Nat × L1Line)
  clock : Nat
  miss : List L1Miss
  draining : Bool
deriving DecidableEq, Repr

/-! ### Staging memory (13_staging_memory.md) -/

/-- A request for one ECC word: its address, the bytes it writes if it writes, whether it is urgent, its page hint, and
when it arrived (R399, R400, R402). -/
structure DramReq where
  addr : Nat
  store : Option (List Byte)
  urgent : Bool
  openHint : Bool
  time : DWord
deriving DecidableEq, Repr

/-- A buffered check word: its row, whether a write changed it, whether it was uncorrectable when read, and the flips
left in its fields (R394, R403). -/
structure CheckBuf where
  row : Nat
  dirty : Bool
  ue : Bool
  rest : Nat
deriving DecidableEq, Repr

/-- A staging channel: its queue and the requests that wait for a place; the reads issued whose data has not returned
(R399); by bank (16 rank + bank) the open row (R402), the buffered check word (R403), the
refreshes postponed (R404), the rolling activate count (R405) and the activate-count table (R406); the refresh rate
read from MR4 (R391); the scrubber's position, when its lap began and how long the last one took, in ms (R410, R412). -/
structure DramCh where
  queue : List DramReq
  waiting : List DramReq
  returns : List DramReq
  rows : List (Nat × Nat)
  checks : List (Nat × CheckBuf)
  debt : List (Nat × Nat)
  raa : List (Nat × Nat)
  acts : List (Nat × List (Nat × Nat))
  mr4 : BitVec 8
  scrub : Nat
  lapStart : DWord
  lastLap : Nat
deriving DecidableEq, Repr

/-- A staging channel right after reset. -/
def DramCh.reset : DramCh := ⟨[], [], [], [], [], [], [], [], 0, 0, 0, 0⟩

/-! ### Fault reports (19_faults_and_counters: R534 to R539) -/

/-- A fault report: class, level, place, action, detail, the chip time it was raised at and the repeats merged into it
(R537, R538). -/
structure FaultReport where
  cls : Nat
  level : Nat
  district : Nat
  avPort : Nat
  cell : Nat
  action : Nat
  detail : Nat
  time : DWord
  repeats : Nat
deriving DecidableEq, Repr

/-! ### Control-class FIFOs (R338 to R341, R596) -/

/-- A control-class FIFO: the index of the next record to enter and of the next to leave, the records kept in the
on-chip stage after a ring write error, and the records of producers that wait. -/
structure Fifo where
  wk : Nat
  rk : Nat
  stage : List (BitVec 256)
  waiting : List (BitVec 256)
deriving DecidableEq, Repr

/-! ### Read channels (03_read_channels.md) -/

/-- The states of the sync detector (R120). -/
inductive SyncState where
  | idle | wait1 | search1 | cand | stream1 | search2 | stream2
deriving DecidableEq, Repr

/-- How the primary search ended (R120, R121). -/
inductive Primary where
  | direct | candidate | missed
deriving DecidableEq, Repr

/-- The address of an armed slot, taken from the step (R120, R124). -/
structure SlotAddr where
  pta : Word
  sector : Nat
  ptn : Nat
  arc : Nat
  slot : Nat
deriving DecidableEq, Repr

/-- What the demodulator finds in its search for the SAM: the SAM, the index pattern, or neither (R111). -/
inductive SamFound where
  | sam | index | missed
deriving DecidableEq, Repr

/-- A wedge record (R115). -/
structure WedgeRec where
  wedge : Nat
  time : DWord
  trk : BitVec 8
  trkOk : Bool
  samOk : Bool
  pesOk : Bool
  pes : Int
deriving DecidableEq, Repr

/-- A sector packet that its channel has completed: its number, its channel, the armed slot, whether it is the read-back
of a write (R193), the soft values of its two segments and its descriptor entries A and B (R123). -/
structure Packet where
  id : Nat
  chan : Nat
  addr : SlotAddr
  verify : Bool
  cw1 : List (BitVec 4)
  cw2 : List (BitVec 4)
  descA : BitVec 128
  descB : BitVec 128
deriving DecidableEq, Repr

/-- A group of 16 samples from each of the four spots as it crosses the RF Crossing, with the phase error that the timing loop
of each spot measures over it, in 1/256 bit; or the place of a group that was lost there (R99, R117). -/
structure RfEntry where
  samples : List (List Int)
  err : List Int
  lost : Bool
deriving DecidableEq, Repr

/-- One channel bit in the signal path: the interpolator's sample, the equaliser's output and the canceller's, in 1/256 LSB;
the detector's decision, +1 or -1, 0 before it is made; whether the bit is erased, and whether the envelope was low there
(R97, R106 to R108, R116). -/
structure ChBit where
  x : Int
  y : Int
  z : Int
  a : Int
  er : Bool
  low : Bool
deriving DecidableEq, Repr

/-- A value of the stream: the soft value as it leaves the detector, whether it is erased or was lost at the RF Crossing,
whether the envelope was low there, and whether the buffer toward the Data district had no room for it (R109, R116 to
R119). -/
structure SoftVal where
  v : BitVec 4
  er : Bool
  low : Bool
  full : Bool
deriving DecidableEq, Repr

/-- The interpolator and the timing loop: the next bit instant after the present group's first sample, in 2^-16 sample; the
deviation from the seed in 2^-32 (R103, R104); the samples since the last wedge ended, the bits since then and the number of
the next stream bit in the arc (R76, R101, R104); the bits left of a re-acquisition after a dropout (R116); and the runs of good
splices and of slips (R105). -/
structure Timing where
  bitTime : Nat
  dev : Int
  framePos : Nat
  sinceBits : Nat
  streamBit : Nat
  reacq : Nat
  lockRun : Nat
  slipRun : Nat
deriving DecidableEq, Repr

/-- Equaliser, canceller and detector: the previous group of samples; the latest bits, the newest first, and how many of them the
present group gave; the canceller's nine taps toward the inner and the outer neighbour in 2^-40 LSB (R107); the detector's
eight path metrics (R108); and the sum and number of the squared errors of the present packet (R132 MSE). -/
structure Dsp where
  prev : List Int
  line : List ChBit
  fresh : Nat
  xtIn : List Int
  xtOut : List Int
  alpha : List Int
  errSum : Nat
  errNum : Nat
deriving DecidableEq, Repr

/-- The dropout detector: the stream bits of the present low run, the run of saturated samples and the stream bits that its groups
gave; whether a dropout runs, the bits of the guard after one that are left (R116); whether the buffer toward the Data district
is refusing values (R47); and whether there was a dropout since the last fine estimate of B1 and since that of B2 (R128). -/
structure Dropout where
  lowBits : Nat
  satRun : Nat
  satBits : Nat
  inDrop : Bool
  guardLeft : Nat
  refused : Bool
  forB1 : Bool
  forB2 : Bool
deriving DecidableEq, Repr

/-- A read channel beside its registers: the gains with their 8 fractional bits (R102); the timing loop, the signal path and the
dropout detector; the wedge count with its runs (R112), the time of the last SAM and the frame period in ns (R103), the last
record; the sync detector with the slot that it takes and the start P that it predicts for SYNC1, as an arc-stream bit (R120);
the values since the primary window opened, and those of the open packet (R123, R127); what the packet's flags are to show
(R125); the run that R122 judges; the writes whose boundary has passed and that wait for the open packet (R96); the slots armed
for it that its detector has not taken, each with whether it is a read-back, and the wedge at which the pass of the present slot
began (R317, R325). -/
structure Channel where
  dataGain : Nat
  wedgeGain : Nat
  tim : Timing
  dsp : Dsp
  drop : Dropout
  wedge : Nat
  indexSeen : Bool
  samRun : Nat
  missRun : Nat
  lastSam : DWord
  framePeriod : Nat
  lastRec : WedgeRec
  sync : SyncState
  addr : SlotAddr
  syncAt : Nat
  packetId : Nat
  verify : Bool
  candOfs : Int
  candDist : Nat
  primary : Primary
  primDist : Nat
  a1Ofs : Int
  secFound : Bool
  secDist : Nat
  outCode : Nat
  ofs1 : Nat
  ofs2 : Nat
  scanned : Nat
  buf : List SoftVal
  soft : List SoftVal
  lockSeen : Bool
  rateBad : Bool
  pkOverrun : Bool
  pkSlip : Bool
  pkSat : Bool
  pkLoss : Bool
  inferRun : Nat
  due : List (Nat × Word)
  queue : List (SlotAddr × Bool)
  passWedge : Nat
deriving DecidableEq, Repr

/-- A timing loop right after reset. -/
def Timing.reset : Timing := ⟨0, 0, 0, 0, 0, 0, 0, 0⟩

/-- A signal path right after reset. -/
def Dsp.reset : Dsp := ⟨List.replicate 16 0, [], 0, List.replicate 9 0, List.replicate 9 0, List.replicate 8 0, 0, 0⟩

/-- A dropout detector right after reset. -/
def Dropout.reset : Dropout := ⟨0, 0, 0, false, 0, false, false, false⟩

/-- A channel right after reset. -/
def Channel.reset : Channel :=
  ⟨0x2800, 0x2800, Timing.reset, Dsp.reset, Dropout.reset, 0, false, 0, 0, 0, 0, ⟨0, 0, 0, false, false, false, 0⟩, .idle,
   ⟨0, 0, 0, 0, 0⟩, 0, 0, false, 0, 0, .missed, 0xF, 0, false, 0xF, 0, 24, 24, 0, [], [], false, false, false, false, false, false,
   0, [], [], 0⟩

/-! ### Sweeps (10_sweeps_and_data_movement.md) -/

/-- A step of a sweep program: its four words (R318, R319). -/
structure SwpStep where
  w0 : Word
  w1 : Word
  w2 : Word
  w3 : Word
deriving DecidableEq, Repr

/-- Which sweep a record belongs to: the order of its program among all loaded ones, and its SWEEP_ID (R318, R342). -/
structure SweepRef where
  seq : Nat
  id : Word
deriving DecidableEq, Repr

/-- A loaded sweep program: SWEEP_ID, START_WEDGE and the steps (R318). -/
structure SwpProgram where
  ref : SweepRef
  startWedge : Nat
  steps : List SwpStep
deriving DecidableEq, Repr

/-- The portion that a head runs: the steps that have not ended, with their indices in the program; whether a WAIT_POS or
WAIT_WEDGE has begun, and the wedges that passed since; and the MODE of its SCHED words (R321, R322, R323). -/
structure Portion where
  ref : SweepRef
  mode : Nat
  steps : List (Nat × SwpStep)
  waiting : Bool
  passed : Nat
deriving DecidableEq, Repr

/-- A data step whose slots are armed: its index, its words and the slots that have not ended (R326, R336). -/
structure OpenStep where
  ref : SweepRef
  idx : Nat
  step : SwpStep
  left : Nat
deriving DecidableEq, Repr

/-- A head block beside its units: the groups in the RF Crossing's buffer, and what the channels' pace still lets them process, in
1/12,000 group (R99, R130); the entries in its buffers toward the Data district and from it to the write cell (R46); the latest SCHED word and how many have been posted (R103, R321); the statuses in a row
that were good since that word, whether the last one was not, the wedge whose status is due (R215, R323, R325); the
portion it runs, if any, its data steps whose slots have not all ended and the CAL_SLOT steps that hold it (R326); whether
the latest portion has posted a SCHED word, and one more than the number of that portion's program (R322, R332); the latest samples
of the eight servo detector signals (R239); and the spots whose records of the present wedge have arrived, when the first did, and the
tick sources of the engine that have ticked for them (R209). -/
structure HeadBlk where
  rf : List RfEntry
  credit : Nat
  toData : Nat
  fromData : Nat
  sched : Option Word
  schedSeq : Nat
  goodRun : Nat
  badStatus : Bool
  wedgeDue : Option Nat
  curWedge : Nat
  portion : Option Portion
  openSteps : List OpenStep
  posted : Bool
  begun : Nat
  det : List Word
  recGot : List Nat
  recFirst : DWord
  recTicked : List Nat
deriving DecidableEq, Repr

/-- A head block right after reset. -/
def HeadBlk.reset : HeadBlk := ⟨[], 0, 0, 0, none, 0, 0, false, none, 0, none, [], false, 0, List.replicate 8 0, [], 0, []⟩

/-! ### Sector and tile protection (04_sector_and_tile_protection.md) -/

/-- A sector result (R142, R143), with what the packet's descriptor adds: whether STATUS was BLANK, ERASED, SYNC_OUT and
whether STATUS was DATA; `stype`, `wseq` and `pcrc` are from the decoded header. -/
structure SectorRes where
  code : Nat
  iter : Nat
  inf : Bool
  qual : Nat
  stype : Nat
  wseq : Nat
  pcrc : Nat
  blank : Bool
  erased : Nat
  sync : Nat
  data : Bool
deriving DecidableEq, Repr

/-- What a slice buffer does with its packet (R145): it loads, it iterates, or it writes its result. -/
inductive SlicePhase where
  | loading | iterating | writing
deriving DecidableEq, Repr

/-- A packet buffer of a decoder slice: the packet's number and its phase; and, while it writes a result, the head, the armed
slot, the read-back mark and the result (R144, R148). -/
structure SliceBuf where
  pk : Nat
  phase : SlicePhase
  res : Option (Fin 8 × SlotAddr × Bool × SectorRes)
deriving DecidableEq, Repr

/-- The step that reads a tile (R326). -/
inductive TileKind where
  | read | verify | audit
deriving DecidableEq, Repr

/-- An open tile: sector results come in, its columns are decoded, or it has its outcome and waits for its span (R151,
R163). -/
inductive TilePhase where
  | filling | decoding | waiting
deriving DecidableEq, Repr

/-- An open-tile entry (R167): its number, the step that reads it, where its buffer lies, its span and member (R329), the
36 results by sector, the erasure set E, and what its record will say (R163). -/
structure Tile where
  id : Nat
  head : Nat
  pta : Word
  kind : TileKind
  base : Nat
  step : Nat
  tag : Word
  span : Option (Nat × Nat)
  results : List (Nat × SectorRes)
  phase : TilePhase
  erased : List Nat
  retried : Bool
  poison : Bool
  checked : Bool
  colErr : Nat
  eMax : Nat
  outcome : Nat
  failMap : Nat
deriving DecidableEq, Repr

/-- A span read in the sweep: the members whose steps have not yet armed or ended, whether its decode runs, and the losses
that staging reads added, as member and index (R160). -/
structure Span where
  id : Nat
  awaits : List Nat
  running : Bool
  extra : List (Nat × Nat)
deriving DecidableEq, Repr

/-! ### Write cells (05_writing_and_write_guards.md) -/

/-- A write slot is armed, runs, has been stopped, or waits for its read-back (R187 to R193). -/
inductive WPhase where
  | armed | running | stopped | verifying
deriving DecidableEq, Repr

/-- A write slot: the step that arms it, its tile sector and place, the header's WSEQ and STYPE, its buffer, whether it
obliterates (R326), its packet once the encoder has sent it or whether the encoder withholds it (R171, R409), and what
its record will say (R194). -/
structure WSlot where
  step : Nat
  pta : Word
  sector : Nat
  ptn : Nat
  arc : Nat
  slot : Nat
  wseq : Word
  stype : Nat
  base : Nat
  oblit : Bool
  entries : List (BitVec 128)
  withheld : Bool
  phase : WPhase
  t0 : DWord
  t1 : DWord
  wstat : Nat
  inh : Nat
  stopBit : Nat
  vres : Option SectorRes
deriving DecidableEq, Repr

/-- Monitor samples taken at one point: how many and their sum. -/
structure Samples where
  n : Nat
  sum : Nat
deriving DecidableEq, Repr

/-- A level of the write laser (R175). -/
inductive Level where
  | read | bias | middle | peak | cooling
deriving DecidableEq, Repr

/-- A write cell beside its registers: its slots in order; the table set in force, whether one is being fetched and from
where (R180); the last wedge status of its engine (R187); the comparators that are outside (0 FE,
1 TE, 2 + k SHKk) and the sources that hold the latch (R189); the samples of
the power loops, with those taken before the present slot, the groups of NSAMP that wait for one of the other point, those that
waited when the present slot began and whether the present slot completed one, the present slope as a ratio (R183,
R184); and the levels that the present or last slot puts out, with their starts in 20 ps (R175 to R177). -/
structure WriteCell where
  slots : List WSlot
  table : List Word
  fetch : Option Nat
  onTrack : Bool
  inFocus : Bool
  tripped : List Nat
  latch : List Nat
  rdS : Samples
  biasS : Samples
  midS : Samples
  biasKeep : Samples
  midKeep : Samples
  bias : Option Nat
  mid : Option Nat
  biasWas : Option Nat
  midWas : Option Nat
  biasNew : Bool
  midNew : Bool
  slope : Option (Int × Int)
  pulses : List (Level × Int)
deriving DecidableEq, Repr

/-- A write cell right after reset. -/
def WriteCell.reset : WriteCell :=
  ⟨[], [], none, false, false, [], [], ⟨0, 0⟩, ⟨0, 0⟩, ⟨0, 0⟩, ⟨0, 0⟩, ⟨0, 0⟩, none, none, none, none,
   false, false, none, []⟩

/-! ### Servo engines (06_servo_engine_programming.md) -/

/-- A generator: its phase, the advances since it restarted, the PRBS register and its divider, and the sample of the run
(R222). -/
structure Gen where
  phase : Nat
  adv : Nat
  lfsr : Nat
  div : Nat
  sample : Int
deriving DecidableEq, Repr

/-- A run in progress: its tick source and tick time, the wedge whose records were the tick, if one was; the program
counter, value registers and accumulators (raw Q8.48); the ports latched at its start; and the effects that its commit
applies: outputs, state words, REP bits as mask and value, EVT, the capture words, and whether a result saturated or a divisor was
0 (R205, R208, R211, R212). -/
structure MsvRun where
  src : Fin 2
  tick : DWord
  wedge : Option Nat
  pc : Nat
  v : Vector Word 16
  acc : Vector Int 4
  ports : List (Nat × Word)
  outs : List (Nat × Word)
  stores : List (Nat × Word)
  repMask : Nat
  repVal : Nat
  evt : Option (Nat × Word)
  evtOvr : Bool
  cap : Option (BitVec 128)
  sat : Bool
  div0 : Bool
deriving DecidableEq, Repr

/-- A servo engine beside its registers: the loaded banks and the ENTRY values each program load used (R204, R229); the
bank being loaded; state memory and committed outputs that are not 0; the generators; the pending ticks with their
wedges, the run, and the run counts of the two sources (R210); the committed REP bits and whether IN_FOCUS was left 0
since the last wedge status (R215); the sources whose miss still inhibits and whether a run of theirs has committed
since (R233); state words and calibrated coefficients written from outside that wait, and a STOP that waits, for the run to end (R232,
R236, R527);
whether capture runs or waits for G0 to restart, and whether G0 has restarted (R223); whether a sweep boundary or an
APPLY_NOW waits for the gap after the run (R230, R332). -/
structure Servo where
  prog : Vector (List Word) 2
  coef : Vector (List Word) 4
  loadEntry : Vector (Nat × Nat) 2
  liveProg : Fin 2
  liveCoef : Fin 4
  load : Option (Nat × Nat)
  smem : List (Nat × Word)
  outs : List (Nat × Word)
  gens : Vector Gen 2
  pend : Vector (Option (DWord × Option Nat)) 2
  run : Option MsvRun
  runs : Vector Nat 2
  rep : Nat
  focusLow : Bool
  missed : List (Nat × Bool)
  heldWrites : List (Nat × Word)
  heldCoefs : List (Nat × Word)
  stopReq : Bool
  capOn : Bool
  capWait : Bool
  restarted : Bool
  boundDue : Bool
  applyDue : Bool
deriving DecidableEq, Repr

/-- A generator right after reset. -/
def Gen.reset : Gen := ⟨0, 0, 1, 0, 0⟩

/-- A servo engine right after reset (R236). -/
def Servo.reset : Servo :=
  ⟨Vector.replicate 2 [], Vector.replicate 4 [], Vector.replicate 2 (0, 0), 0, 0, none, [], [], Vector.replicate 2 Gen.reset,
   Vector.replicate 2 none, none, Vector.replicate 2 0, 0, false, [], [], [], false, false, false, false, false, false⟩

/-! ### Sleds (09_sled_motion.md) -/

/-- Why a sled decelerates to a stop (R299, R310, R311, R313). -/
inductive StopFor where
  | idle | off | reverse | park
deriving DecidableEq, Repr

/-- The phases of homing and parking (R308, R311). -/
inductive HomePhase where
  | none | backoff | seek | seekStop | search | latchWait | latchOut | parkMove | parkSearch | detent
deriving DecidableEq, Repr

/-- The latched profile: speeds in 0.0064 microsteps/s and accelerations in 256 microsteps/s² (R295, R297). -/
structure Profile where
  vStart : Int
  vStop : Int
  vBreak : Int
  vMax : Int
  a1 : Int
  a2 : Int
  d1 : Int
  d2 : Int
deriving DecidableEq, Repr

/-- A sled motion cell beside its registers: p in 2^-16 microstep, the speed in 0.0064 microsteps/s, the direction, the
target, the latched profile, the commanded acceleration in Q2.30 (R293, R296); the applied trim; the coil current references in
2^-24 of 500 mA and whether the level is I_RUN (R302); the estimated induced voltage of each coil in microvolts (R305); what the
driver holds each coil to: in quiet mode a voltage in microvolts, in strong mode the peak of the current in 2^-24 of 500 mA (R304); a target that waits for a stop, and what a stop
under way leads to; the phase of homing or parking and where it began; the unwrapped load angle in 2^-32 turn and the
run of stall updates; the chip times of the last switch edges and p at the last one; whether the stage is powered,
the position kept, and which park sources are asserted (1 supply fault, 2 SAFE_N); a mode change that waits for a
full-step point (R304); whether it decelerates to a stop (R299), and the updates left of a wait (R308). -/
structure Sled where
  p : Int
  u : Int
  dir : Int
  tgt : Int
  prof : Profile
  acc : Int
  trim : Int
  coilA : Int
  coilB : Int
  run : Bool
  emfA : Int
  emfB : Int
  driveA : Int
  driveB : Int
  next : Option Int
  stopFor : StopFor
  phase : HomePhase
  p0 : Int
  delta : Int
  stallRun : Nat
  edges : List DWord
  edgePos : Int
  powered : Bool
  kept : Bool
  parkSrc : List Nat
  reversing : Bool
  modeWant : Option Bool
  stopping : Bool
  waitLeft : Nat
deriving DecidableEq, Repr

/-- A sled right after reset: OFF, position unknown (R313). -/
def Sled.reset : Sled :=
  ⟨0, 0, 1, 0, ⟨0, 0, 0, 0, 0, 0, 0, 0⟩, 0, 0, 0, 0, false, 0, 0, 0, 0, none, .idle, .none, 0, 0, 0, [], 0, false, false, [], false, none, false, 0⟩

/-! ### Spindle (08_spindle_drive.md) -/

/-- What the six gates do: off, the modulator's vector, the three low sides on, or a test pulse (R273, R280, R282). -/
inductive Gates where
  | off | vector | lowSides | pulse
deriving DecidableEq, Repr

/-- Outputs that SE8 has committed and the modulator has not taken: when, whether THETA_SET was among them, whether they came too
late for a period start, and VD, VQ, THETA_SET and OMEGA as they stood then (R270, R272, R273). -/
structure SpnSet where
  time : DWord
  angle : Bool
  late : Bool
  vd : Int
  vq : Int
  theta : Word
  omega : Word
deriving DecidableEq, Repr

/-- The spindle block beside its registers: whether a start is pending; the applied angle; the sets of outputs that wait for a period
start, oldest first (R270, R273); the vector in force; the samples of ports 0 to 5; SPD_MEAS in 1/8 rpm; the ramp's speed in
10^-8 rpm; ACC_CMD; the target in force in rpm; THETA_INIT; the measured angle and magnitude of the back-EMF; the
sequencer's angle and its speed; the pulse currents of DETECT's round, rounds done; runs of agreeing periods, of
standstill measurements, of tripped periods, of revolutions in and out of tolerance; whether a handover slew runs and
how far it is; the gates, the voltages that the modulator or a test pulse puts on phases U, V and W, in Q2.30 (R273, R280), and the
chip time from which the present pulse or low-side braking counts (R280, R282); SAFE_N and chopper fault as they stand; the phase advance in force; whether the present period
has tripped (R278), and whether the first period of CATCH is still to come (R273); the chip time of the last index mark of
the head that leads, and the revolutions that DISC_ANGLE has completed (R289, R333). -/
structure Spindle where
  startPend : Bool
  theta : Word
  omega : Word
  vd : Int
  vq : Int
  sets : List SpnSet
  iu : Int
  iv : Int
  vu : Int
  vv : Int
  vw : Int
  spdMeas : Int
  ramp : Nat
  accCmd : Int
  target : Nat
  thetaInit : Word
  bemfAngle : Word
  bemfMag : Nat
  seqTheta : Word
  seqSpeed : Nat
  pulses : List Int
  rounds : Nat
  agree : Nat
  still : Nat
  trips : Nat
  inTol : Nat
  outTol : Nat
  slew : Nat
  offU : Int
  offV : Int
  offN : Nat
  gates : Gates
  phases : List Int
  gateAt : DWord
  safeN : Bool
  chopFault : Bool
  pa : Word
  tripNow : Bool
  firstPeriod : Bool
  lastIndex : Option DWord
  turns : Nat
deriving DecidableEq, Repr

/-- The spindle block right after reset: STOPPED with the target in force at its reset value (R284, R290). -/
def Spindle.reset : Spindle :=
  ⟨false, 0, 0, 0, 0, [], 0, 0, 0, 0, 0, 0, 0, 0, 7200, 0, 0, 0, 0, 0, [], 0, 0, 0, 0, 0, 0, 0, 0, 0, 0, .off, [0, 0, 0], 0, false, false, 0, false, false, none, 0⟩

/-! ### Calibration (18_calibration.md) -/

/-- The calibration unit beside its registers: the slots that hold a record, with its 16 words (R524, R525); the copies in
the non-volatile store (R529); the slots whose record has not yet taken effect (R527); the applied converter trims of
each block (R518 ELEC); the blocks that the unit serves itself at present (R523); and the monitor codes of the last 1 ms, with head
and time (R517). -/
structure Calib where
  slots : List (Nat × List Word)
  stored : List (Nat × List Word)
  fresh : List Nat
  trims : List (Nat × List Word)
  running : List Nat
  mpd : List (Nat × DWord × Nat)
deriving DecidableEq, Repr

/-- The calibration unit right after reset: every slot reads VALID = 0 (R530). -/
def Calib.reset : Calib := ⟨[], [], [], [], [], []⟩

/-! ### Host link (14_host_link_and_queues.md) -/

/-- What the host-link block sends to a host: bytes to host memory, a completion entry, an MSI-X vector, or a report (IDENTIFY,
a log page, zones) whose byte layout the spec does not give, by its fields. -/
inductive HostOut where
  | data (port addr : Nat) (bytes : List Byte)
  | completion (port addr : Nat) (bytes : List Byte)
  | msix (port vector : Nat)
  | report (port addr : Nat) (fields : List Nat)
deriving DecidableEq, Repr

/-- A queue pair (R429, R431, R435): its port and number, bases and sizes, what CREATE_QP set; the submission tail and head;
the completion tail, head and phase; whether it is in error (R427); completed contexts that the queue has no place for,
in order; the chip time of the first unsignalled entry; the DELETE_QP that waits for it. -/
structure Qpair where
  port : Nat
  num : Nat
  sqBase : Nat
  cqBase : Nat
  sqSize : Nat
  cqSize : Nat
  vector : Nat
  weight : Nat
  ctxLimit : Nat
  coal : Nat
  sqTail : Nat
  sqHead : Nat
  cqTail : Nat
  cqHead : Nat
  phase : Bool
  error : Bool
  held : List Nat
  unsig : Option DWord
  deleting : Option Nat
deriving DecidableEq, Repr

/-- A command context (R433): its number, queue pair, the order it was fetched in, the submission entry, its buffer's
pieces, SQ_HEAD; whether its work has begun (R443) and whether it was accepted (R440); its completion if it has one; the
writes accepted when it was fetched (R442); the context that an ABORT waits for; the RESULT of a write that waits for
the medium; and the blocks of a READ that have moved (R443). -/
structure HostCtx where
  num : Nat
  port : Nat
  qp : Nat
  seq : Nat
  entry : List Byte
  segs : List (Nat × Nat)
  sqHead : Nat
  begun : Bool
  accepted : Bool
  done : Option (Nat × Nat)
  accAt : Nat
  waitFor : Option Nat
  result : Nat
  moved : Nat
deriving DecidableEq, Repr

/-- A path log entry (R446). -/
structure PathEntry where
  port : Nat
  qp : Nat
  tag : Nat
  status : Nat
  lba : Nat
deriving DecidableEq, Repr

/-- An event log entry: its code, the OID it carries if any, and its chip time (R435, R461). -/
structure HostEvent where
  code : Nat
  oid : Nat
  time : DWord
deriving DecidableEq, Repr

/-- The host-link block beside its registers: queue pairs, contexts, the number of fetches, what it has sent; the MSI-X
table's written words and the pending vectors (R426); the fetcher's turn (R432); the event and path logs; whether the
island holds OSTS.RDY back after a wake (R494); the entries of 64 bytes in the ingress buffer of each port (R46). -/
structure HostBlk where
  qps : List Qpair
  ctxs : List HostCtx
  seq : Nat
  out : List HostOut
  msixTab : List (Nat × Word)
  msixPend : List Nat
  turn : Nat
  used : Nat
  events : List HostEvent
  pathLog : List PathEntry
  rdyHold : Bool
  ingress : Nat × Nat
deriving DecidableEq, Repr

/-- The host-link block right after reset. -/
def HostBlk.reset : HostBlk := ⟨[], [], 0, [], [], [], 0, 0, [], [], false, (0, 0)⟩

/-! ### The drive: disc, zones, objects, keys (14_host_link_and_queues.md, 15_archive_service_and_sessions.md) -/

/-- A format record (R472): STATE, ENCRYPT, the SPAN and OBJECT masks. -/
structure FormatRec where
  state : Nat
  encrypt : Bool
  span : Nat
  object : Nat
deriving DecidableEq, Repr

/-- A host zone (R438): its state (0 EMPTY, 1 OPEN, 2 CLOSED, 3 FULL, 4 READ_ONLY), the write pointer's offset, HEADS at its
first block, and the padded ranges of offsets (R439). -/
structure Zone where
  st : Nat
  wp : Nat
  heads : Nat
  pads : List (Nat × Nat)
deriving DecidableEq, Repr

/-- A Street Index entry (R447). -/
structure SiEntry where
  lba : Nat
  count : Nat
  pta : Nat
  hzone : Nat
  sector : Nat
  heads : Nat
  flags : Nat
deriving DecidableEq, Repr

/-- A block accepted and not yet known to be on the medium: its LBA, the order of its acceptance, the bytes as stored
(R440, R441). -/
structure Accepted where
  lba : Nat
  seq : Nat
  bytes : List Byte
deriving DecidableEq, Repr

/-- A catalogue entry (R455). -/
structure CatEntry where
  oid : Nat
  len : Nat
  lba : Nat
  digest : List Byte
  putTime : Nat
  auditTime : Nat
  auditCount : Nat
  st : Nat
  flags : Nat
  hzone : Nat
  prevLba : Nat
deriving DecidableEq, Repr

/-- A PENDING object's stream (R458, R461): its OID, the next part, the bytes hashed so far, the chip time of the last
part. -/
structure PutStream where
  oid : Nat
  next : Nat
  bytes : List Byte
  time : DWord
deriving DecidableEq, Repr

/-- An audit that runs (R462, R463): the object, the AUDIT command that asked for it if one did, LBA when it began, the
object's tiles in order, the data of those that have come by their PTA, those that ended without data, and whether one was
weak. -/
structure Audit where
  oid : Nat
  ctx : Option Nat
  lba : Nat
  tiles : List Nat
  parts : List (Nat × List Byte)
  failed : List Nat
  weak : Bool
deriving DecidableEq, Repr

/-- An admin session (R468): its handle, port, the chip time of its last command, and the key it was opened with, which
the store keeps for wrapping (R465, R470). -/
structure Session where
  handle : Nat
  port : Nat
  time : DWord
  key : List Byte
deriving DecidableEq, Repr

/-- A journal entry (R474): its words as the table names them. -/
structure JnlEntry where
  seq : Nat
  serial : Nat
  op : Nat
  phase : Nat
  zone : Nat
  nextTile : Nat
  progSeq : Nat
  done : Nat
  total : Nat
  body : List Byte
deriving DecidableEq, Repr

/-- A management record on the disc (R89, R91): the PTA of its first tile, its type, its sequence, and its bytes, header
first. -/
structure DiscRec where
  pta : Nat
  kind : Nat
  seq : Nat
  bytes : List Byte
deriving DecidableEq, Repr

/-- A defect list entry (R199). -/
structure DefectEntry where
  old : Nat
  new : Nat
  wseq : Nat
  reason : Nat
  failed : Nat
  span : Bool
deriving DecidableEq, Repr

/-- The disc in the drive and what the controller knows of it: whether it has been looked for, presence, mount, the disc information block's serial,
layers and write-strategy family (R90); the format record; free tiles in the two management copies (R438); host zones;
the Street Index; accepted writes; the zones as the last snapshot holds them (R449);
the wrapped key slots on the disc (R465), its journal mirror (R474), the highest record sequence (R91), and the catalogue
snapshots of an encrypted disc that wait for its key, by sequence (R456); the disc information block (R90), the records on the
disc, the next tile of each record area but the two copies on L0, by 64 side + 4 layer + 0 the IMA, 1 the OMA, 2 the journal
mirror (R89), and the defect lists by 16 side + layer (R199). -/
structure Disc where
  searched : Bool
  present : Bool
  mounted : Bool
  serial : Nat
  layers : Nat
  family : Nat
  format : Option FormatRec
  free : Nat × Nat
  zones : List (Nat × Zone)
  index : List SiEntry
  accepted : List Accepted
  accSeq : Nat
  snapZones : List (Nat × Zone)
  keySlots : List (List Byte × List Byte)
  mirror : Option JnlEntry
  recSeq : Nat
  catRecs : List (Nat × List Byte)
  info : List Byte
  records : List DiscRec
  recNext : List (Nat × Nat)
  defects : List (Nat × List DefectEntry)
deriving DecidableEq, Repr

/-- No disc. -/
def Disc.none : Disc := ⟨false, false, false, 0, 0, 0, Option.none, (0, 0), [], [], [], 0, [], [], Option.none, 0, [], [], [], [], []⟩

/-- The archive engine and the session and key store beside their registers: the catalogue, the streams of PENDING objects,
audits, sessions; the OPEN_SESSION attempts that wait out their 100 ms, oldest first, with whether one locks out (R469); the
verifier's salt and digest in its non-volatile slot; the unwrapped media key (R466); the journal's entries, the newest
first, and how many were written since the last mirror (R474); the context whose SET_ADMIN_KEY runs; the key that a key
change or a FORMAT works with; and the context of a SANITISE that waits to start (R471); the catalogue as the last snapshot left it,
the sequence of the FULL in force, 0 for none, and the entries of the deltas on it (R456). -/
structure Archive where
  cat : List CatEntry
  puts : List PutStream
  audits : List Audit
  sessions : List Session
  waiting : List Nat
  verifier : Option (List Byte × List Byte)
  mediaKey : Option (List Byte)
  journal : List JnlEntry
  sinceMirror : Nat
  opCtx : Option Nat
  opKey : List Byte
  sanWait : Option Nat
  catSnap : List CatEntry
  catFull : Nat
  catDeltas : Nat
deriving DecidableEq, Repr

/-- The archive engine and the key store right after reset, with no key stored. -/
def Archive.reset : Archive := ⟨[], [], [], [], [], none, none, [], 0, none, [], none, [], 0, 0⟩

/-! ### Clocks and supplies (16_power_and_supply_protection.md, 17_clocks.md) -/

/-- The clock block beside its registers: the reference in force (0 XO, 1 REFIN) and the one a switch goes to (R506); the
CLKOUT source in force and the one a switch goes to; the multiplexer (0 reference, 1 CLKOUT) and the source of a rescue that runs
(R508); the division of CLKOUT in force, and for how many half cycles of the source the output is high in each of its cycles
(R512). -/
structure Clk where
  refSrc : Nat
  refTo : Option Nat
  outSrc : Nat
  outTo : Option Nat
  rescue : Option (Nat × Nat)
  div : Nat
  high : Nat
deriving DecidableEq, Repr

/-- The power sequencer (R482, R483): waiting for VIN12, enabling the rail of a step 2-5, done, waiting out its 100 ms, failed,
or turning rails off (the rail that falls, and whether a requested power-on reset follows). -/
inductive SeqState where
  | noVin
  | up (step : Nat)
  | done
  | retry
  | failed
  | down (rail : Nat) (por : Bool)
deriving DecidableEq, Repr

/-- The supply block and the power sequencer beside their registers: the live causes of a supply fault that no register
latches (rail 0 VCORE, 1 V1P8, 2 VDD2H, 3 VDD2L, 4 VDDQ, 5 VLAS, 6 VMOT) (R480); the boost's soft start (R489); the windows in
a row with headroom (R484); whether VIN12 is above 11.0 V; the sequencer and its failures; Dormant, with what the
island latched for it (R491); whether the first READY after a wake will be late (R494). -/
structure Supply where
  live : List Nat
  soft : Bool
  room : Nat
  vin12 : Bool
  seq : SeqState
  fails : Nat
  dormant : Bool
  wakeEn : Nat
  gpioMask : Nat
  alarm : DWord
  late : Bool
deriving DecidableEq, Repr

/-! ### Supervision and boot (19_fault_handling_and_counters.md, 20_reset_start_up_and_variants.md) -/

/-- The Square beside its registers: the units whose heartbeat is lost at present (R540, R543) and the watchdog expiries in a row
(R547), and whether the SAFE_N pin is held low from outside (R545). -/
structure Square where
  lost : List Child
  expiries : Nat
  pinLow : Bool
deriving DecidableEq, Repr

/-- What P0 runs since the last reset: nothing yet or the boot ROM, recovery, or firmware (R556, R560). -/
inductive Stage where
  | rom | recovery | firmware
deriving DecidableEq, Repr

/-- A flash command that runs: opcode, address if it has one, direction (to the flash), length, TCM offset (R575). -/
structure FlashCmd where
  opcode : Nat
  addr : Option Nat
  toFlash : Bool
  len : Nat
  tcm : Nat
deriving DecidableEq, Repr

/-- Start-up: the stage; RESET_N held low; a reset that waits for its release; whether the next boot goes to recovery, or
resumes; the OTP key hash of the part; the flash (its bytes' complements, in canonical form, so that an unlisted byte is erased);
whether the flash takes a write; the flash command that runs; the ports whose management endpoint is attached (R424). -/
structure Boot where
  stage : Stage
  pinLow : Bool
  waiting : Option Nat
  recover : Bool
  wake : Bool
  otp : List Byte
  flash : List Host.Cell
  flashWe : Bool
  spi : Option FlashCmd
  attached : List Nat
deriving DecidableEq, Repr

/-! ### Pins (21_pins_and_electrical.md) -/

/-- A GPIO line's or a timer's side of the pins beside the registers: PER and DUTY in force in each edge timer (R577); the
Kerb bus: whether the core responder serves (R582), the strobe that is low (1 read, 2 write), KACK_N low, the word that KD
drives, the latched times of word 10 for the Kerb bus and for SMBus (R579, R585), the copied words of the status window;
whether POST has asserted ALERT_N; the GPIO levels and enables that Dormant holds (R572); the JTAG instruction, boundary register, and ERR and data of DEBUG (R586, R587). -/
structure Pins where
  timers : Vector (Nat × Nat) 4
  coreServes : Bool
  strobe : Nat
  ack : Bool
  kd : Option Nat
  kerbTime : DWord
  smbTime : DWord
  copies : List (Nat × Nat)
  alert : Bool
  gpioHeld : Option (Nat × Nat)
  jtagIr : Nat
  boundary : Nat
  dbgErr : Bool
  dbgData : Word
deriving DecidableEq, Repr

/-- The supply block right after reset: the rails are up, VLAS and VMOT off (R482, R496). -/
def Supply.reset : Supply := ⟨[], false, 0, true, .done, 0, false, 0, 0, 0, false⟩

/-- The pins right after reset: the island serves the Kerb bus, IDCODE is the instruction (R582, R586). -/
def Pins.reset : Pins := ⟨Vector.replicate 4 (2, 0), false, 0, false, none, 0, 0, [], false, none, 1, 0, false, 0⟩

/-! ### Plaza cores (11_plaza_cores.md) -/

/-- What a core waits in: a WAIT with its mask, deadline and rd (R362), or a POST on a full mailbox with the Crossing, the word
and rd (R360). -/
inductive CoreWait where
  | line (mask deadline : DWord) (rd : Nat)
  | post (xing : Nat) (word : DWord) (rd : Nat)
deriving DecidableEq, Repr

/-- A Plaza core (R345, R354, R357): x0-x31, pc, its CSRs, the reserved line with the steps since the LR, and what it
waits in. -/
structure Core where
  x : Vector DWord 32
  pc : DWord
  status : DWord
  tvec : DWord
  epc : DWord
  cause : DWord
  tval : DWord
  scratch : DWord
  ie : DWord
  dbpend : DWord
  timecmp : DWord
  swint : DWord
  ureg : Vector DWord 4
  resv : Option (Nat × Nat)
  wait : Option CoreWait
  halted : Bool
deriving DecidableEq, Repr

/-- A core right after reset (R354, R367). -/
def Core.reset : Core :=
  ⟨Vector.replicate 32 0, 0, 4, 0, 0, 0, 0, 0, 0, 0, 0xFFFFFFFFFFFFFFFF, 0, Vector.replicate 4 0, none, none, false⟩

/-! ### The state -/

/-- The state of the block. -/
structure State where
  /-- which member of the family the part is (R7); constant. -/
  variant : Variant
  /-- CAP3.KEY_FUSED: the OTP key hash is programmed (R562); constant. -/
  keyFused : Bool
  /-- chip time in nanoseconds (R509). -/
  chipTime : DWord
  /-- the registers that do not hold their reset value, keys rising (R13; Machine/RegFile.lean). -/
  regs : List (Nat × Word)
  /-- values written to registers that wait for the sweep boundary (R96, R165, R201, R230, R284, R314, R344). -/
  pend : List (Nat × Word)
  /-- TCM and staging memory, in canonical form (Machine/Ops.lean). -/
  mem : List Host.Cell
  /-- the 64-byte words of staging memory marked POISON, by their address (R393, R407). -/
  poison : List Nat
  /-- how the last access ended. -/
  lastReply : Reply
  /-- the Roundabouts (R27). -/
  rbt : Vector Rbt 21
  /-- the Crossings (R40). -/
  xing : Vector Xing 52
  /-- the pace monitors (R48). -/
  pace : Vector Pace 5
  /-- what has arrived over each path (R23, R24). -/
  links : List Link
  /-- the event counters that are not 0 (R550, R552). -/
  counters : List (Nat × BitVec 48)
  /-- the counters whose WRAP bit is set (R550). -/
  wraps : List Nat
  /-- the chip time each agent last latched by TB_TIME_LO, by agent ID (R511). -/
  tbLatch : List (Nat × DWord)
  /-- the count each agent last latched by PC_LO, keyed by 1024 times the agent ID plus the counter (R551). -/
  pcLatch : List (Nat × BitVec 48)
  /-- the model's own counter that numbers free values; no state of the chip. -/
  freeCtr : Nat
  /-- the Arcade (R372). -/
  arcade : Arcade
  /-- the L1 data caches of P0-P3 (R368). -/
  l1d : Vector L1 4
  /-- the L1 instruction caches of P0-P3 (R368). -/
  l1i : Vector L1 4
  /-- stored errors of staging memory: for an ECC word's address, the flipped bits of its 512 data bits (R393,
  R407). -/
  dramErr : List (Nat × Nat)
  /-- stored errors of check words: for the address of slot 0 of a row, the flipped bits of its 512 (R394). -/
  chkErr : List (Nat × Nat)
  /-- the staging channels 2n + c (R399 to R412). -/
  dram : Vector DramCh 4
  /-- a self-refresh request waits for a retraining to end (R417). -/
  dramSelfReq : Bool
  /-- stored errors of TCM: for an 8-byte word's address, the flipped bits of its 64 data bits and 8 check bits
  (R348, R395). -/
  tcmErr : List (Nat × Nat)
  /-- stored errors of the SRAM macros that hold neither TCM nor a line of a cache: by 2^20 times the macro plus the word, the
  flipped bits of its 72 (R395, R421). -/
  sramErr : List (Nat × Nat)
  /-- fault reports raised by blocks and districts that have not yet reached the Square (R534, R538). -/
  reports : List FaultReport
  /-- the control-class FIFOs (R338). -/
  fifo : Vector Fifo 14
  /-- the read channels, channel 4n + s (R94). -/
  ch : Vector Channel 32
  /-- the head blocks (R103, R322). -/
  hb : Vector HeadBlk 8
  /-- sector packets whose notice has been raised and that no decoder slice has taken up (R127). -/
  packets : List Packet
  /-- how many packets have been opened; numbers them. -/
  packetCtr : Nat
  /-- the packet buffers of the decoder slices (R144). -/
  slices : Vector (List SliceBuf) 40
  /-- packets that wait for a slice buffer, in order of arrival (R147). -/
  decWait : List Nat
  /-- packets whose entries the decoder block discards because no slice is in service (R595). -/
  decDiscard : List Nat
  /-- packets whose sector has ended already, so that their later entries mean nothing (R148). -/
  decDrop : List Nat
  /-- the open-tile entries (R167). -/
  tiles : List Tile
  /-- how many tiles have been opened; numbers them. -/
  tileCtr : Nat
  /-- the spans of the sweep (R160, R329). -/
  spans : List Span
  /-- tiles whose weak-tile notice the archive engine has not taken up, with the tile outcome (R164). -/
  weakTiles : List (Word × Nat)
  /-- for a sweep's number, heads with a step that was not DONE (R336). -/
  shortHeads : List (Nat × Nat)
  /-- the addresses of submitted programs that have not loaded (R331). -/
  swpSubmits : List Nat
  /-- the loaded programs that wait, the next one first (R331, R333). -/
  swpQueue : List SwpProgram
  /-- the program of the present sweep; none for an empty one (R333). -/
  swpCur : Option SwpProgram
  /-- START_WEDGE of the present or last sweep (R315, R333). -/
  swpStart : Nat
  /-- where DISC_ANGLE stood at the pass of START_WEDGE that opened the last window since START, whole turns counted in 2^32
  (R315, R333). -/
  swpOpened : Option Nat
  /-- how many programs have loaded; numbers them. -/
  swpCtr : Nat
  /-- STOP is pending (R335). -/
  swpStop : Bool
  /-- ABORT has been taken and its boundary is still to come (R335). -/
  swpAborted : Bool
  /-- what held when the window opened: ANGLE_VALID, AT_SPEED, and the heads with TABLE_OK (R327, R336). -/
  winFlags : Bool × Bool × List Nat
  /-- the boundary completed after the pass that the next window was planned for (R333). -/
  swpLate : Bool
  /-- chip time at which the last armed slot of the sweep ended (R344 SWP_DRAIN). -/
  swpTail : DWord
  /-- the write cells (R170). -/
  wc : Vector WriteCell 8
  /-- the servo engines (R202). -/
  se : Vector Servo 10
  /-- the sled motion cells (R291). -/
  sled : Vector Sled 8
  /-- the spindle block (R267). -/
  spn : Spindle
  /-- the calibration unit (R515). -/
  cal : Calib
  /-- whether a channel of staging memory has retrained at the present boundary (R416). -/
  retrained : Bool
  /-- the host-link block (R422 to R451). -/
  host : HostBlk
  /-- the disc and what the controller knows of it (R436 to R449, R464 to R475). -/
  disc : Disc
  /-- the archive engine and the session and key store (R452 to R477). -/
  arv : Archive
  /-- staging channels that retrain as soon as they may, whatever the sweep scheduler does, because LP_DDR coasted
  (R505). -/
  ddrForce : List Nat
  /-- the clock block (R497 to R513). -/
  clk : Clk
  /-- the supply block and the power sequencer (R478 to R496). -/
  sup : Supply
  /-- the Square (R545 to R549). -/
  sq : Square
  /-- start-up, the boot flash and the management endpoints (R424, R553 to R560). -/
  boot : Boot
  /-- timers, Kerb bus, SMBus and JTAG (R567 to R587). -/
  pins : Pins
  /-- the Plaza cores P0-P3 (R345 to R367). -/
  core : Vector Core 4
  /-- the commands that wait, first in first out. -/
  pending : List Instr
deriving DecidableEq, Repr

/-- The machine right after reset.  Every register is at its reset value (`regs` lists none). -/
def State.reset : State where
  variant := .oac7208
  keyFused := false
  chipTime := 0
  regs := []
  pend := []
  mem := []
  poison := []
  lastReply := ⟨.ok, 0, []⟩
  rbt := Vector.replicate 21 ⟨15, 0, false, 0, 0, [], [], none, none, none, []⟩
  xing := Vector.ofFn (fun x => Xing.reset x.val)
  pace := Vector.replicate 5 ⟨false, 0⟩
  links := []
  counters := []
  wraps := []
  tbLatch := []
  pcLatch := []
  freeCtr := 0
  arcade := ⟨[], [], Vector.replicate 4 [], Vector.replicate 4 [], []⟩
  l1d := Vector.replicate 4 ⟨[], 0, [], false⟩
  l1i := Vector.replicate 4 ⟨[], 0, [], false⟩
  dramErr := []
  chkErr := []
  dram := Vector.replicate 4 DramCh.reset
  dramSelfReq := false
  tcmErr := []
  sramErr := []
  reports := []
  fifo := Vector.replicate 14 ⟨0, 0, [], []⟩
  ch := Vector.replicate 32 Channel.reset
  hb := Vector.replicate 8 HeadBlk.reset
  packets := []
  packetCtr := 0
  slices := Vector.replicate 40 []
  decWait := []
  decDiscard := []
  decDrop := []
  tiles := []
  tileCtr := 0
  spans := []
  weakTiles := []
  shortHeads := []
  swpSubmits := []
  swpQueue := []
  swpCur := none
  swpStart := 0
  swpOpened := none
  swpCtr := 0
  swpStop := false
  swpAborted := false
  winFlags := (false, false, [])
  swpLate := false
  swpTail := 0
  wc := Vector.replicate 8 WriteCell.reset
  se := Vector.replicate 10 Servo.reset
  sled := Vector.replicate 8 Sled.reset
  spn := Spindle.reset
  cal := Calib.reset
  retrained := false
  host := HostBlk.reset
  disc := Disc.none
  arv := Archive.reset
  ddrForce := []
  clk := ⟨0, none, 0, none, none, 1, 1⟩
  sup := Supply.reset
  sq := ⟨[], 0, false⟩
  boot := ⟨.rom, false, none, false, false, [], [], false, none, []⟩
  pins := Pins.reset
  core := Vector.replicate 4 Core.reset
  pending := []

end Machine
end Sys2Proof
end

