-- ==== Sys2Proof/Machine/RegFile.lean ====
section
/-! DEFINITION. The register file: which register an address names (R12, R15), what it resets to (the tables, and the
values that depend on the instance or the variant: R33, R35, R162, R169, R302, R344, R397, R420, R513, R525, R563),
which units are absent (R7, R9), and reading and writing whole registers and single fields. -/

namespace Sys2Proof
namespace Machine

/-! ### Variants (R7) -/

def headCount (v : Variant) : Nat :=
  match v with
  | .oac7208 => 8
  | .oac7208R => 8
  | .oac7204 => 4
  | .oac7202 => 2

def headPresent (v : Variant) (n : Nat) : Bool := n < headCount v

/-- SE0-SE7 belong to the heads, SE8 and SE9 to the spindle block (R20, R563 CAP1.SE_MASK). -/
def enginePresent (v : Variant) (k : Nat) : Bool := headPresent v k || k == 8 || k == 9

def writePresent (v : Variant) : Bool := !(v == .oac7208R)
def archivePresent (v : Variant) : Bool := !(v == .oac7202)
def spanEncPresent (v : Variant) : Bool := v == .oac7208
def spanDecPresent (v : Variant) : Bool := v == .oac7208 || v == .oac7208R
def sideBPresent (v : Variant) : Bool := headCount v == 8
def portPresent (v : Variant) (p : Nat) : Bool := p == 0 || (p == 1 && headCount v == 8)

/-- A Crossing whose domain is absent on the variant (R44, R499). -/
def xingPresent (v : Variant) (x : Nat) : Bool :=
  if x < 16 then headPresent v (x % 8)
  else if x < 24 then headPresent v (x - 16) && writePresent v
  else if x < 32 then headPresent v (x - 24)
  else if x = 34 ∨ x = 36 then portPresent v 0
  else if x = 35 ∨ x = 37 then portPresent v 1
  else x < 52

/-- PORT_MAP of each Roundabout (R32, R33, and the chapters of the blocks). -/
def portMap (v : Variant) (r : Nat) : Nat :=
  if r = 0 then (if sideBPresent v then 0x003F else 0x002F)
  else if r = 1 then (if archivePresent v then 0x00FF else 0x00DF)
  else if r = 2 then 0x003F
  else if r = 3 then (if v = .oac7202 then 0x0013 else 0x001F)
  else if r = 4 then (if sideBPresent v then 0x001F else 0)
  else if r = 5 then 0x000F
  else if r < 14 then
    (if headPresent v (r - 6) then (if writePresent v then 0x03FF else 0x03DF) else 0)
  else if r = 14 then 0x001F
  else if r = 15 then 0x000F
  else if r = 16 then 0x001F
  else if r = 17 then 0x003F
  else if r = 18 then (if portPresent v 1 then 0x003F else 0x003D)
  else if r = 19 then 0x001F
  else 0x000F

/-- The weight register of ports 8 w .. 8 w + 7 at reset: 1 in the field of every present port (R35). -/
def wgtReset (pm w : Nat) : Nat :=
  (List.range 8).foldl (fun acc i => if pm.testBit (8 * w + i) then acc + 2 ^ (4 * i) else acc) 0

/-- The Roundabout whose registers hold an address, if one does. -/
def rbtIndexAt (a : Nat) : Option Nat :=
  (List.range 21).find? (fun r => rbtBase r ≤ a ∧ a < rbtBase r + 0x10)

/-- The head block that holds an address, and the offset within it. -/
def headAt (a : Nat) : Option (Nat × Nat) :=
  if 0x43000000 ≤ a ∧ a < 0x43400000 then some ((a - 0x43000000) / 0x100000, (a - 0x43000000) % 0x100000)
  else if 0x44000000 ≤ a ∧ a < 0x44400000 then some (4 + (a - 0x44000000) / 0x100000, (a - 0x44000000) % 0x100000)
  else none

/-- The register table and the offset within it that an address falls in (unit bases of Machine/Layout.lean). -/
def unitAt (a : Nat) : Option (List RegSpec × Nat) :=
  if (rbtIndexAt a).isSome then some (regsRBT, a % 0x10)
  else if a % 0x10000 ≥ 0xFC00 ∧ a % 0x10000 < 0xFC00 + 4 * 64 then
    if (List.range 20).any (fun b => blockBase b = a - a % 0x10000 ∧ a % 0x10000 < 0xFC00 + 4 * blockCells b)
    then some (regsCERR, 0) else none
  else
    match headAt a with
    | some (_, off) =>
      if off < 0x4000 then some (regsRC, off % 0x1000)
      else if 0x5000 ≤ off ∧ off < 0x5100 then some (regsWC, off - 0x5000)
      else if 0x5100 ≤ off ∧ off < 0x5140 then some (regsFIFO, off - 0x5100)
      else if 0x7000 ≤ off ∧ off < 0x8000 then some (regsSLD, off - 0x7000)
      else none
    | none =>
      if a < 0x40000010 then some (regsCAP, a - 0x40000000)
      else if 0x40000400 ≤ a ∧ a < 0x40000500 then some (regsTB, a - tbBase)
      else if 0x40000500 ≤ a ∧ a < 0x40000600 then some (regsSQ, a - sqBase)
      else if 0x40000600 ≤ a ∧ a < 0x40000700 then some (regsFIFO, a - 0x40000600)
      else if 0x40000700 ≤ a ∧ a < 0x40000800 then some (regsRST, a - rstBase)
      else if 0x40001100 ≤ a ∧ a < 0x40001200 then some (regsXING, a - xingBase)
      else if a = 0x40001200 then some (regsCLKR, 0)
      else if 0x40002000 ≤ a ∧ a < 0x40002000 + 8 * 22 then some (regsPERMIT, (a - 0x40002000) % 8)
      else if a = memsBase then some (regsMEMS, 0)
      else if 0x40004000 ≤ a ∧ a < 0x40005000 then some (regsGPIO ++ regsTMR ++ regsKRB ++ regsSMB ++ regsPIN, a - pinBase)
      else if 0x41000000 ≤ a ∧ a < 0x41001000 then some (regsPLZ, a - plzBase)
      else if 0x41400000 ≤ a ∧ a < 0x41400100 then some (regsHOST, a - hostBase)
      else if 0x41400100 ≤ a ∧ a < 0x41400140 then some (regsFIFO, a - 0x41400100)
      else if 0x41500000 ≤ a ∧ a < 0x41500100 then some (regsARV, a - arvBase)
      else if 0x41500100 ≤ a ∧ a < 0x41500140 then some (regsFIFO, a - 0x41500100)
      else if 0x41500140 ≤ a ∧ a < 0x41500180 then some (regsFIFO, a - 0x41500140)
      else if 0x41600000 ≤ a ∧ a < 0x41600100 then some (regsKEY, a - keyBase)
      else if 0x42000000 ≤ a ∧ a < 0x42000100 then some (regsSWP, a - swpBase)
      else if 0x42000100 ≤ a ∧ a < 0x42000140 then some (regsFIFO, a - 0x42000100)
      else if 0x42100000 ≤ a ∧ a < 0x42100100 then some (regsDEC, a - decBase)
      else if 0x42200000 ≤ a ∧ a < 0x42200100 then some (regsTC, a - tcBase)
      else if 0x42200100 ≤ a ∧ a < 0x42200140 then some (regsFIFO, a - 0x42200100)
      else if 0x42300000 ≤ a ∧ a < 0x42300100 then some (regsARC, a - arcBase)
      else if 0x42400000 ≤ a ∧ a < 0x42400100 then some (regsDRAM, a - dramBase)
      else if 0x42401000 ≤ a ∧ a < 0x42403000 then
        if (a - 0x42401000) % 0x1000 < 0x400 then some (regsDRAMN, (a - 0x42401000) % 0x1000)
        else if (a - 0x42401000) % 0x1000 < 0xC00 then some (regsDCH, (a - 0x42401000) % 0x400)
        else none
      else if 0x45000000 ≤ a ∧ a < 0x45000100 then some (regsSPN, a - spnBase)
      else if 0x45100000 ≤ a ∧ a < 0x45100100 then some (regsSUP, a - supBase)
      else if 0x45101000 ≤ a ∧ a < 0x45101100 then some (regsCAL, a - calBase)
      else if 0x45101100 ≤ a ∧ a < 0x45101100 + 0x20 * 11 then some (regsCALB, (a - 0x45101100) % 0x20)
      else if 0x45200000 ≤ a ∧ a < 0x45200100 then some (regsCLK, a - clkBase)
      else if 0x50000000 ≤ a ∧ a < 0x500A0000 ∧ 0xF000 ≤ a % 0x10000 then some (regsSE, a % 0x10000 - 0xF000)
      else if (List.range 5).any (fun d => paceBase d + 0x100 ≤ a ∧ a < paceBase d + 0x10C) then some (regsPACE, a % 0x1000)
      else if memrBase 0 ≤ a ∧ a < memrBase 1024 then some (regsMEMR, (a - memrBase 0) % 0x40)
      else if hbarBase 0 ≤ a ∧ a < hbarBase 2 then some (regsHBAR, (a - hbarBase 0) % 0x10000)
      else none

/-- The row of a table that a register at this offset is described by. -/
def findSpec (rs : List RegSpec) (off : Nat) : Option RegSpec :=
  rs.find? (fun r => r.off ≤ off ∧ (off - r.off) % r.stride = 0 ∧ (off - r.off) / r.stride < r.count)

/-- The register at an address, described by its row; none where the spec puts no register (R12). -/
def specAt (a : Nat) : Option RegSpec :=
  match unitAt a with
  | some (rs, off) => findSpec rs off
  | none => none

/-- The reset value of a row: its fields' reset values at their places. -/
def specReset (r : RegSpec) : Nat :=
  r.fields.foldl (fun acc f => acc + (f.reset % 2 ^ (f.hi + 1 - f.lo)) * 2 ^ f.lo) 0

/-! ### The reset microstep table of R302: word j holds round(65535 cos(pi j / 512)) and round(65535 sin(pi j / 512)) -/

def ustepReset0 : List Nat := [
  0xFFFF0000, 0xFFFE0192, 0xFFFA0324, 0xFFF404B6, 0xFFEB0648, 0xFFE007DA, 0xFFD3096C, 0xFFC30AFE,
  0xFFB00C90, 0xFF9B0E21, 0xFF840FB3, 0xFF6A1144, 0xFF4D12D5, 0xFF2F1466, 0xFF0D15F7, 0xFEEA1787,
  0xFEC31918, 0xFE9B1AA8, 0xFE701C37, 0xFE421DC7, 0xFE121F56, 0xFDE020E5, 0xFDAB2274, 0xFD732402,
  0xFD3A2590, 0xFCFD271E, 0xFCBF28AB, 0xFC7E2A38, 0xFC3A2BC4, 0xFBF42D50, 0xFBAC2EDC, 0xFB613067]
def ustepReset1 : List Nat := [
  0xFB1431F1, 0xFAC4337B, 0xFA723505, 0xFA1E368E, 0xF9C73817, 0xF96D399F, 0xF9123B26, 0xF8B43CAD,
  0xF8533E34, 0xF7F03FB9, 0xF78B413F, 0xF72342C3, 0xF6B94447, 0xF64D45CA, 0xF5DE474D, 0xF56D48CF,
  0xF4F94A50, 0xF4834BD0, 0xF40B4D50, 0xF3904ECF, 0xF313504D, 0xF29451CB, 0xF2125347, 0xF18E54C3,
  0xF108563E, 0xF07F57B8, 0xEFF55932, 0xEF675AAA, 0xEED85C22, 0xEE465D98, 0xEDB25F0E, 0xED1B6083]
def ustepReset2 : List Nat := [
  0xEC8261F7, 0xEBE7636A, 0xEB4A64DC, 0xEAAB664D, 0xEA0967BD, 0xE965692D, 0xE8BE6A9B, 0xE8166C08,
  0xE76B6D74, 0xE6BE6EDF, 0xE60F7049, 0xE55D71B2, 0xE4A97319, 0xE3F47480, 0xE33B75E5, 0xE281774A,
  0xE1C578AD, 0xE1067A0F, 0xE0457B70, 0xDF827CD0, 0xDEBD7E2E, 0xDDF67F8B, 0xDD2C80E7, 0xDC618242,
  0xDB93839C, 0xDAC384F4, 0xD9F2864B, 0xD91E87A1, 0xD84788F5, 0xD76F8A48, 0xD6958B9A, 0xD5B98CEA]
def ustepReset3 : List Nat := [
  0xD4DA8E39, 0xD3FA8F87, 0xD31790D3, 0xD233921E, 0xD14C9368, 0xD06494B0, 0xCF7995F6, 0xCE8D973B,
  0xCD9E987F, 0xCCAE99C1, 0xCBBB9B02, 0xCAC79C41, 0xC9D09D7F, 0xC8D89EBB, 0xC7DE9FF6, 0xC6E1A12F,
  0xC5E3A267, 0xC4E3A39D, 0xC3E1A4D2, 0xC2DDA604, 0xC1D8A736, 0xC0D0A865, 0xBFC7A993, 0xBEBBAAC0,
  0xBDAEABEB, 0xBC9FAD14, 0xBB8EAE3B, 0xBA7CAF61, 0xB968B085, 0xB851B1A7, 0xB739B2C8, 0xB620B3E7]
def ustepReset4 : List Nat := [
  0xB504B504, 0xB3E7B620, 0xB2C8B739, 0xB1A7B851, 0xB085B968, 0xAF61BA7C, 0xAE3BBB8E, 0xAD14BC9F,
  0xABEBBDAE, 0xAAC0BEBB, 0xA993BFC7, 0xA865C0D0, 0xA736C1D8, 0xA604C2DD, 0xA4D2C3E1, 0xA39DC4E3,
  0xA267C5E3, 0xA12FC6E1, 0x9FF6C7DE, 0x9EBBC8D8, 0x9D7FC9D0, 0x9C41CAC7, 0x9B02CBBB, 0x99C1CCAE,
  0x987FCD9E, 0x973BCE8D, 0x95F6CF79, 0x94B0D064, 0x9368D14C, 0x921ED233, 0x90D3D317, 0x8F87D3FA]
def ustepReset5 : List Nat := [
  0x8E39D4DA, 0x8CEAD5B9, 0x8B9AD695, 0x8A48D76F, 0x88F5D847, 0x87A1D91E, 0x864BD9F2, 0x84F4DAC3,
  0x839CDB93, 0x8242DC61, 0x80E7DD2C, 0x7F8BDDF6, 0x7E2EDEBD, 0x7CD0DF82, 0x7B70E045, 0x7A0FE106,
  0x78ADE1C5, 0x774AE281, 0x75E5E33B, 0x7480E3F4, 0x7319E4A9, 0x71B2E55D, 0x7049E60F, 0x6EDFE6BE,
  0x6D74E76B, 0x6C08E816, 0x6A9BE8BE, 0x692DE965, 0x67BDEA09, 0x664DEAAB, 0x64DCEB4A, 0x636AEBE7]
def ustepReset6 : List Nat := [
  0x61F7EC82, 0x6083ED1B, 0x5F0EEDB2, 0x5D98EE46, 0x5C22EED8, 0x5AAAEF67, 0x5932EFF5, 0x57B8F07F,
  0x563EF108, 0x54C3F18E, 0x5347F212, 0x51CBF294, 0x504DF313, 0x4ECFF390, 0x4D50F40B, 0x4BD0F483,
  0x4A50F4F9, 0x48CFF56D, 0x474DF5DE, 0x45CAF64D, 0x4447F6B9, 0x42C3F723, 0x413FF78B, 0x3FB9F7F0,
  0x3E34F853, 0x3CADF8B4, 0x3B26F912, 0x399FF96D, 0x3817F9C7, 0x368EFA1E, 0x3505FA72, 0x337BFAC4]
def ustepReset7 : List Nat := [
  0x31F1FB14, 0x3067FB61, 0x2EDCFBAC, 0x2D50FBF4, 0x2BC4FC3A, 0x2A38FC7E, 0x28ABFCBF, 0x271EFCFD,
  0x2590FD3A, 0x2402FD73, 0x2274FDAB, 0x20E5FDE0, 0x1F56FE12, 0x1DC7FE42, 0x1C37FE70, 0x1AA8FE9B,
  0x1918FEC3, 0x1787FEEA, 0x15F7FF0D, 0x1466FF2F, 0x12D5FF4D, 0x1144FF6A, 0x0FB3FF84, 0x0E21FF9B,
  0x0C90FFB0, 0x0AFEFFC3, 0x096CFFD3, 0x07DAFFE0, 0x0648FFEB, 0x04B6FFF4, 0x0324FFFA, 0x0192FFFE]

/-- The reset words of SLD_USTEP0-255 (R302). -/
def ustepReset : List Nat :=
  ustepReset0 ++ ustepReset1 ++ ustepReset2 ++ ustepReset3 ++ ustepReset4 ++ ustepReset5 ++ ustepReset6 ++ ustepReset7

/-- The slots that the calibration store has (R525). -/
def calSlots (v : Variant) : Nat :=
  match v with
  | .oac7208 => 4264
  | .oac7208R => 4264
  | .oac7204 => 2135
  | .oac7202 => 1071

/-- CAP0 (R563). -/
def cap0 (v : Variant) : Nat :=
  match v with
  | .oac7208 => 0x00FFFF11
  | .oac7208R => 0x00AFFF12
  | .oac7204 => 0x01350F13
  | .oac7202 => 0x01150313

/-- CAP1 (R563). -/
def cap1 (v : Variant) : Nat :=
  match v with
  | .oac7208 => 0x00283FF4
  | .oac7208R => 0x00283FF4
  | .oac7204 => 0x002830F4
  | .oac7202 => 0x00283034

/-- CAP3 (R563): bit 31 is KEY_FUSED. -/
def cap3 (v : Variant) (keyFused : Bool) : Nat :=
  (if v = .oac7202 then 0x02060013 else 0x02060253) + (if keyFused then 0x80000000 else 0)

/-- The bits of the present heads, at the places of a field of eight. -/
def headMask (v : Variant) : Nat := 2 ^ headCount v - 1

/-- CLK_GOOD0 after core reset: the domains of LP_RF and LP_MOT of the present heads; no write clock runs before
WEDGE_LOCK (R498, R500, R501, R502).  DEDUCED, log 9. -/
def clkGood0 (v : Variant) : Nat := headMask v + headMask v * 2 ^ 8 + headMask v * 2 ^ 24

/-- CLK_GOOD1 after core reset: every domain but the USB4 and USB 2.0 ones, whose loops are off (R501, R502).
DEDUCED, log 9. -/
def clkGood1 : Nat := 0xFFFC3

/-- Whether the unit that owns an address is absent on the variant (R7, R9, R33, R162, R533). -/
def absentAt (v : Variant) (a : Nat) : Bool :=
  if 0x44000000 ≤ a ∧ a < 0x45000000 then !(sideBPresent v) ||
    (match headAt a with
     | some (n, off) => !(headPresent v n) || (0x5000 ≤ off && off < 0x5140 && !(writePresent v))
     | none => false)
  else if 0x43000000 ≤ a ∧ a < 0x43400000 then
    (match headAt a with
     | some (n, off) => !(headPresent v n) || (0x5000 ≤ off && off < 0x5140 && !(writePresent v))
     | none => false)
  else if 0x50000000 ≤ a ∧ a < 0x500A0000 then !(enginePresent v ((a - 0x50000000) / 0x10000))
  else if 0x41500000 ≤ a ∧ a < 0x41600000 then !(archivePresent v)
  else if v = .oac7208R ∧ (a = regSWP_WRBUF_LO ∨ a = regSWP_WRBUF_HI ∨ a = regSWP_WRBUF_CNT) then true
  else if hbarBase 1 ≤ a ∧ a < hbarBase 2 then !(portPresent v 1)
  else if a = regHOST_LINK1 then !(portPresent v 1)
  else if calbBase 0 ≤ a ∧ a < calbBase 8 then !(headPresent v ((a - calbBase 0) / 0x20))
  else false

/-- The reset value of the register at an address. -/
def regReset (v : Variant) (keyFused : Bool) (a : Nat) : Nat :=
  if absentAt v a then 0
  else match rbtIndexAt a with
  | some r =>
    if a = regRBT_WGT0 r then wgtReset (portMap v r) 0
    else if a = regRBT_WGT1 r then wgtReset (portMap v r) 1
    else if a = regRBT_STAT r then portMap v r * 2 ^ 16
    else match specAt a with
      | some sp => specReset sp
      | none => 0
  | none =>
    match specAt a with
    | none => 0
    | some sp =>
      match headAt a with
      | some (_, off) =>
        if 0x7400 ≤ off ∧ off < 0x7800 then ustepReset.getD ((off - 0x7400) / 4) 0
        else if off < 0x4000 ∧ 0x40 ≤ off % 0x1000 ∧ off % 0x1000 < 0x68 ∧ ¬ (off % 0x1000 = 0x50) then 0
        else specReset sp
      | none =>
        if a = regCAP0 then cap0 v
        else if a = regCAP1 then cap1 v
        else if a = regCAP3 then cap3 v keyFused
        else if a = regSPAN_CAP then
          (if spanDecPresent v then 1 else 0) + (if spanEncPresent v then 2 else 0)
        else if a = regSWP_HEAD_ONLINE then headMask v
        else if a = regCLK_GOOD0 then clkGood0 v
        else if a = regCLK_GOOD1 then clkGood1
        else if a = regCAL_CAP then
          calSlots v + (if v = .oac7204 ∨ v = .oac7202 then 2 ^ 31 else 0)
        else if a = regSE_TICK_CFG 8 then 0x04
        else if a = regSE_TICK_CFG 9 then 0x03
        else if 0x42401000 ≤ a ∧ a < 0x42401018 then 2 ^ ((a - 0x42401000) / 4 + 1)
        else if 0x42402000 ≤ a ∧ a < 0x42402018 then 2 ^ ((a - 0x42402000) / 4 + 1)
        else if memrBase 0 ≤ a ∧ a < memrBase 1024 ∧ (a - memrBase 0) % 0x40 = 4 then
          (Config.memrInfo ((a - memrBase 0) / 0x40)).toNat
        else specReset sp

/-! ### Keyed lists: the model's sparse tables -/

/-- The value listed for a key. -/
def aget? {α : Type} (l : List (Nat × α)) (k : Nat) : Option α :=
  match l with
  | [] => none
  | (k', v) :: t => if k' = k then some v else aget? t k

/-- List a value for a key, keys rising. -/
def aset {α : Type} (l : List (Nat × α)) (k : Nat) (v : α) : List (Nat × α) :=
  match l with
  | [] => [(k, v)]
  | (k', v') :: t =>
    if k < k' then (k, v) :: (k', v') :: t
    else if k = k' then (k, v) :: t
    else (k', v') :: aset t k v

/-- Take a key out of a list. -/
def aerase {α : Type} (l : List (Nat × α)) (k : Nat) : List (Nat × α) :=
  l.filter (fun p => p.1 ≠ k)

/-! ### Registers -/

/-- The value of the register at an address: what was last written, else its reset value. -/
def rd (s : State) (a : Nat) : Word :=
  (aget? s.regs a).getD (BitVec.ofNat 32 (regReset s.variant s.keyFused a))

/-- Write the register at an address whole. -/
def wr (s : State) (a : Nat) (v : Word) : State := { s with regs := aset s.regs a v }

/-- The bits [hi:lo] of a number. -/
def bitsOf (v hi lo : Nat) : Nat := v / 2 ^ lo % 2 ^ (hi + 1 - lo)

/-- A number with its bits [hi:lo] replaced. -/
def putBits (v hi lo x : Nat) : Nat :=
  v - bitsOf v hi lo * 2 ^ lo + (x % 2 ^ (hi + 1 - lo)) * 2 ^ lo

/-- The value of a field. -/
def fget (s : State) (f : Fld) : Nat := bitsOf (rd s f.addr).toNat f.hi f.lo

/-- Replace a field, every other bit of its register kept. -/
def fput (s : State) (f : Fld) (x : Nat) : State :=
  wr s f.addr (BitVec.ofNat 32 (putBits (rd s f.addr).toNat f.hi f.lo x))

/-- Whether a field is not 0. -/
def fbit (s : State) (f : Fld) : Bool := fget s f != 0

/-- Set a one-bit field. -/
def fset (s : State) (f : Fld) : State := fput s f 1

/-- Clear a field. -/
def fclr (s : State) (f : Fld) : State := fput s f 0

/-- Write a truth value into a one-bit field. -/
def fputB (s : State) (f : Fld) (b : Bool) : State := fput s f (if b then 1 else 0)

/-- One bit of a field of many (line, head or channel bits). -/
def fbitAt (s : State) (f : Fld) (i : Nat) : Bool := (fget s f).testBit i

/-- Set or clear one bit of a field of many. -/
def fputAt (s : State) (f : Fld) (i : Nat) (b : Bool) : State :=
  fput s ⟨f.addr, f.lo + i, f.lo + i⟩ (if b then 1 else 0)

/-- Raise a field that counts, saturating at all ones. -/
def fincSat (s : State) (f : Fld) : State :=
  if fget s f + 1 < 2 ^ (f.hi + 1 - f.lo) then fput s f (fget s f + 1) else s

/-- Read a field as a two's complement number. -/
def fgetInt (s : State) (f : Fld) : Int :=
  if fget s f < 2 ^ (f.hi - f.lo) then (fget s f : Int) else (fget s f : Int) - 2 ^ (f.hi + 1 - f.lo)

/-- Write a two's complement number into a field, wrapping. -/
def fputInt (s : State) (f : Fld) (x : Int) : State :=
  fput s f (x % (2 ^ (f.hi + 1 - f.lo) : Int)).toNat

/-- A pair of LO and HI registers that hold a 64-bit chip time. -/
def putTime (s : State) (lo hi : Nat) (t : DWord) : State :=
  wr (wr s lo (t.setWidth 32)) hi ((t >>> 32).setWidth 32)

end Machine
end Sys2Proof
end

