-- ==== Sys2Proof/Machine/Ops.lean ====
section
/-! DEFINITION. The named operations that every family uses: memory in its canonical form, what an address of staging
memory or TCM answers, poison, the event counters, free values, per-unit updates, and lists kept as queues. -/

namespace Sys2Proof
namespace Machine

/-! ### Memory -/

/-- What an unlisted address reads as: 0.  The initialisation of staging memory zeroes it (R415); for TCM this is
DESIGN CHOICE, log 3. -/
def Memory.default : Byte := 0

/-- The byte listed for an address, or the default. -/
def Memory.read (m : List Host.Cell) (a : Nat) : Byte :=
  match m with
  | [] => Memory.default
  | (k, b) :: t => if k = a then b else Memory.read t a

/-- Put a byte at an address of a rising list. -/
def Memory.insert (m : List Host.Cell) (a : Nat) (b : Byte) : List Host.Cell :=
  match m with
  | [] => [(a, b)]
  | (k, c) :: t =>
    if a < k then (a, b) :: (k, c) :: t
    else if a = k then (a, b) :: t
    else (k, c) :: Memory.insert t a b

/-- Take an address out of the list. -/
def Memory.remove (m : List Host.Cell) (a : Nat) : List Host.Cell :=
  match m with
  | [] => []
  | (k, c) :: t => if k = a then t else (k, c) :: Memory.remove t a

/-- Write a byte, keeping the canonical form: the default value is not listed. -/
def Memory.write (m : List Host.Cell) (a : Nat) (b : Byte) : List Host.Cell :=
  if b = Memory.default then Memory.remove m a else Memory.insert m a b

/-- Write bytes from an address upwards. -/
def Memory.writeBytes (m : List Host.Cell) (a : Nat) (bs : List Byte) : List Host.Cell :=
  match bs with
  | [] => m
  | b :: t => Memory.writeBytes (Memory.write m a b) (a + 1) t

/-- Read bytes from an address upwards. -/
def Memory.readBytes (m : List Host.Cell) (a : Nat) (n : Nat) : List Byte :=
  (List.range n).map (fun i => Memory.read m (a + i))

/-- Every address of a list is above a bound, the addresses rise, and no byte is the default. -/
def Memory.wfFrom (lo : Nat) (m : List Host.Cell) : Bool :=
  match m with
  | [] => true
  | (k, b) :: t => decide (lo ≤ k) && b != Memory.default && Memory.wfFrom (k + 1) t

/-- The canonical form of memory: addresses strictly rising, no entry equal to the default. -/
def Memory.wf (m : List Host.Cell) : Bool := Memory.wfFrom 0 m

/-! ### Little-endian numbers (R345) -/

/-- The number that bytes stand for, the first the least significant. -/
def leNat (bs : List Byte) : Nat :=
  match bs with
  | [] => 0
  | b :: t => b.toNat + 256 * leNat t

/-- A number as n bytes, the least significant first. -/
def natLe (n x : Nat) : List Byte :=
  match n with
  | 0 => []
  | n + 1 => BitVec.ofNat 8 (x % 256) :: natLe n (x / 256)

/-- The number that bytes stand for, the first the most significant. -/
def beNat (bs : List Byte) : Nat := leNat bs.reverse

/-- A number as n bytes, the most significant first. -/
def natBe (n x : Nat) : List Byte := (natLe n x).reverse

/-! ### Staging memory seen as a whole (R16, R392, R415) -/

/-- Mebibytes of usable staging memory with the configuration in DRAM_CFG: 31/32 of the fitted capacity (R390, R392). -/
def usableMiB (s : State) : Nat :=
  let rowBits := fget s fldDRAM_CFG_ROW_BITS
  let ranks := fget s fldDRAM_CFG_RANKS + 1
  4 * ranks * 16 * 2 ^ rowBits * 2 / 1024 * 31 / 32

/-- Whether staging memory answers: step 5 of R415 has been reached and has not been lost. -/
def stagingReady (s : State) : Bool :=
  let st := fget s fldDRAM_STAT_STATE
  st == 2 || st == 3 || st == 4

/-- Whether an address lies in the usable part of staging memory (R16, R392, R415). -/
def stagingUsable (s : State) (a : Nat) : Bool :=
  stagingReady s && decide (0x8000000000 ≤ a) && decide (a < 0x8000000000 + usableMiB s * 0x100000)

/-- The ECC word that holds an address: 64 bytes, aligned (R392). -/
def eccWord (a : Nat) : Nat := a - a % 64

/-- Whether the ECC word at an address is poisoned. -/
def isPoisoned (s : State) (a : Nat) : Bool := s.poison.contains (eccWord a)

/-- Mark or unmark an ECC word. -/
def setPoison (s : State) (a : Nat) (p : Bool) : State :=
  { s with poison := if p then (eccWord a) :: s.poison.filter (· ≠ eccWord a)
                     else s.poison.filter (· ≠ eccWord a) }

/-! ### Event counters (R550) -/

/-- The value of a counter. -/
def counter (s : State) (k : Nat) : BitVec 48 := (aget? s.counters k).getD 0

/-- Count one event: 48 bits, wrapping, with the sticky WRAP bit. -/
def count (s : State) (k : Nat) : State :=
  let c := counter s k
  { s with
    counters := aset s.counters k (c + 1)
    wraps := if c = BitVec.allOnes 48 then k :: s.wraps.filter (· ≠ k) else s.wraps }

/-- Count one event if it happened. -/
def countIf (s : State) (b : Bool) (k : Nat) : State := if b then count s k else s

/-! ### Replies, free values and updates of one unit -/

/-- Whether the core is in reset: the rails are not up, or the chip is Dormant, or RESET_N is low (R483, R492, R553). -/
def inReset (s : State) : Bool := s.sup.seq != .done || s.sup.dormant || s.boot.pinLow

/-- Record how an access ended. -/
def reply (s : State) (st : BusStatus) (v : Nat) (bs : List Byte) : State :=
  { s with lastReply := ⟨st, v, bs⟩ }

/-- An access that a bus error ends (R10, R12). -/
def replyError (s : State) : State := reply s .busError 0 []

/-- Step the counter that numbers free values. -/
def tickFree (s : State) : State := { s with freeCtr := s.freeCtr + 1 }

/-- Step the counter past n free values. -/
def tickFrees (s : State) (n : Nat) : State := { s with freeCtr := s.freeCtr + n }

/-- The next n free words, the first the most significant. -/
def freeNat (s : State) (n : Nat) : Nat :=
  (List.range n).foldl (fun acc i => acc * 2 ^ 32 + (Config.freeWord (s.freeCtr + i)).toNat) 0

/-- The next n free bytes, a word for each. -/
def freeBytes (s : State) (n : Nat) : List Byte := (List.range n).map (fun i => (Config.freeWord (s.freeCtr + i)).setWidth 8)

/-- Change one Roundabout. -/
def modRbt (s : State) (r : Fin 21) (f : Rbt → Rbt) : State := { s with rbt := s.rbt.set r (f s.rbt[r]) }

/-- Change one Crossing. -/
def modXing (s : State) (x : Fin 52) (f : Xing → Xing) : State := { s with xing := s.xing.set x (f s.xing[x]) }

/-- Do a thing for each of a list. -/
def forEach {α : Type} (l : List α) (s : State) (f : State → α → State) : State := l.foldl f s

/-- Do a thing if a condition holds. -/
def sif (b : Bool) (s : State) (f : State → State) : State := if b then f s else s

/-- Insert into a list of numbers without repeats. -/
def addOnce (l : List Nat) (x : Nat) : List Nat := if l.contains x then l else l ++ [x]

/-! ### Fault reports -/

/-- The block that holds an Avenue port of a district (R20), numbered as `blockBase` numbers them. -/
def blockAt (district avPort : Nat) : Option Nat :=
  match district with
  | 1 => if avPort < 4 then some 14 else if avPort < 7 then some (11 + avPort) else none
  | 2 => if avPort < 5 then some (9 + avPort) else none
  | 3 => if avPort < 4 then some avPort else none
  | 4 => if avPort < 4 then some (4 + avPort) else none
  | 5 => if avPort = 0 then some 8 else if avPort < 3 then some (17 + avPort) else none
  | _ => none

/-- The cell error register of a cell, by its code; none where a report names no cell (R535). -/
def cellCode (district avPort cell : Nat) : Option Nat :=
  match blockAt district avPort with
  | some b => if cell < blockCells b then some (64 * b + cell) else none
  | none => none

/-- Show the class of the last report from a cell (R535). -/
def cellNote (s : State) (cls district avPort cell : Nat) : State :=
  match cellCode district avPort cell with
  | some c => fput s (fldCELL_ERR_CLASS c) cls
  | none => s

/-- Raise a fault report.  A report of the same place and class that is still pending takes the repeat (R538). -/
def raiseReport (s0 : State) (cls level district avPort cell action detail : Nat) : State :=
  let s := cellNote s0 cls district avPort cell
  let same (r : FaultReport) : Bool :=
    r.cls == cls && r.level == level && r.district == district && r.avPort == avPort && r.cell == cell
  if s.reports.any same then
    { s with reports := s.reports.map (fun r => if same r then { r with repeats := Nat.min (r.repeats + 1) 0xFFFFFFFF } else r) }
  else
    { s with reports := s.reports ++ [⟨cls, level, district, avPort, cell, action, detail % 2 ^ 32, s.chipTime, 0⟩] }

/-- Change one head block. -/
def modHb (s : State) (n : Fin 8) (f : HeadBlk → HeadBlk) : State := { s with hb := s.hb.set n (f s.hb[n]) }

/-! ### Signed arithmetic in fixed widths -/

/-- Clamp to a range. -/
def clampNat (x lo hi : Nat) : Nat := if x < lo then lo else if hi < x then hi else x

/-- Clamp to a range. -/
def clampInt (x lo hi : Int) : Int := if x < lo then lo else if hi < x then hi else x

/-- The least and the greatest number of a two's complement width. -/
def sMin (w : Nat) : Int := -(2 ^ (w - 1) : Int)
def sMax (w : Nat) : Int := 2 ^ (w - 1) - 1

/-- Saturate to a two's complement width. -/
def satInt (w : Nat) (x : Int) : Int := clampInt x (sMin w) (sMax w)

end Machine
end Sys2Proof
end

