-- ==== Sys2Proof/Machine/Crypto.lean ====
section
/-! DEFINITION. The SHA-256 unit (FIPS 180-4, R452, R458), the AES-256 unit in XTS mode (IEEE 1619, R464), and AES key
wrap (RFC 3394, R465), over lists of bytes. -/

namespace Sys2Proof
namespace Machine

/-! ### SHA-256 -/

/-- The k-th root of a number, rounded down: bits from the highest are kept while the power does not exceed it. -/
def rootDown (k n : Nat) (bits acc : Nat) : Nat :=
  match bits with
  | 0 => acc
  | b + 1 => rootDown k n b (if (acc + 2 ^ b) ^ k ≤ n then acc + 2 ^ b else acc)

/-- The primes below 312, which are the first 64: no number from 2 to 17 divides them but themselves. -/
def smallPrimes : List Nat :=
  (List.range 312).filter (fun n => 1 < n && ((List.range 18).drop 2).all (fun d => n == d || n % d != 0))

/-- The first 32 bits of the fraction of a prime's k-th root: the constants of FIPS 180-4 are those of cube roots, for the
rounds, and of square roots, for the initial value. -/
def rootFraction (k p : Nat) : Nat := rootDown k (p * 2 ^ (32 * k)) 37 0 % 2 ^ 32

/-- The constant of each of the 64 rounds. -/
def roundConstants : List Nat := smallPrimes.map (rootFraction 3)

/-- The initial hash value. -/
def hashStart : List Nat := (smallPrimes.take 8).map (rootFraction 2)

def rotr32 (x n : Nat) : Nat := x / 2 ^ n + x % 2 ^ n * 2 ^ (32 - n)
def add32 (l : List Nat) : Nat := l.foldl (· + ·) 0 % 2 ^ 32
def not32 (x : Nat) : Nat := 0xFFFFFFFF - x

/-- The message schedule, the latest word first: n more words are made. -/
def shaExpand (n : Nat) (w : List Nat) : List Nat :=
  match n with
  | 0 => w
  | n + 1 =>
    let a := w.getD 14 0
    let b := w.getD 1 0
    let s0 := rotr32 a 7 ^^^ rotr32 a 18 ^^^ (a / 8)
    let s1 := rotr32 b 17 ^^^ rotr32 b 19 ^^^ (b / 1024)
    shaExpand n (add32 [w.getD 15 0, s0, w.getD 6 0, s1] :: w)

/-- One round on a working state a .. h. -/
def shaRound (st : List Nat) (kw : Nat × Nat) : List Nat :=
  match st with
  | [a, b, c, d, e, f, g, h] =>
    let s1 := rotr32 e 6 ^^^ rotr32 e 11 ^^^ rotr32 e 25
    let ch := (e &&& f) ^^^ (not32 e &&& g)
    let t1 := add32 [h, s1, ch, kw.1, kw.2]
    let s0 := rotr32 a 2 ^^^ rotr32 a 13 ^^^ rotr32 a 22
    let mj := (a &&& b) ^^^ (a &&& c) ^^^ (b &&& c)
    [add32 [t1, s0, mj], a, b, c, add32 [d, t1], e, f, g]
  | other => other

/-- One block of 64 bytes. -/
def shaBlock (h : List Nat) (block : List Byte) : List Nat :=
  let w := (shaExpand 48 ((List.range 16).map (fun i => beNat ((block.drop (4 * i)).take 4))).reverse).reverse
  let out := (roundConstants.zip w).foldl shaRound h
  (h.zip out).map (fun p => add32 [p.1, p.2])

/-- The blocks of a padded message. -/
def shaBlocks (n : Nat) (h : List Nat) (bs : List Byte) : List Nat :=
  match n with
  | 0 => h
  | n + 1 => shaBlocks n (shaBlock h (bs.take 64)) (bs.drop 64)

/-- SHA-256 of bytes. -/
def sha256 (bs : List Byte) : List Byte :=
  let pad := (119 - bs.length % 64) % 64
  let m := bs ++ [0x80] ++ List.replicate pad 0 ++ natBe 8 (8 * bs.length)
  (shaBlocks (m.length / 64) hashStart m).flatMap (natBe 4)

/-! ### AES-256 -/

/-- x times a in the AES field (x^8 + x^4 + x^3 + x + 1). -/
def aesX (a : Nat) : Nat := if a < 128 then 2 * a else (2 * a) ^^^ 0x11B

def aesMulBits (n a b : Nat) : Nat :=
  match n with
  | 0 => 0
  | n + 1 => (if b % 2 = 1 then a else 0) ^^^ aesMulBits n (aesX a) (b / 2)

def aesMul (a b : Nat) : Nat := aesMulBits 8 a b

/-- The inverse in the field: a^254. -/
def aesInv (a : Nat) : Nat :=
  let a2 := aesMul a a
  let a4 := aesMul a2 a2
  let a8 := aesMul a4 a4
  let a16 := aesMul a8 a8
  let a32 := aesMul a16 a16
  let a64 := aesMul a32 a32
  let a128 := aesMul a64 a64
  aesMul a2 (aesMul a4 (aesMul a8 (aesMul a16 (aesMul a32 (aesMul a64 a128)))))

def rotl8 (x n : Nat) : Nat := x * 2 ^ n % 256 + x / 2 ^ (8 - n)

/-- The S-box: the affine map of the inverse. -/
def aesSub (a : Nat) : Nat :=
  let b := aesInv a
  b ^^^ rotl8 b 1 ^^^ rotl8 b 2 ^^^ rotl8 b 3 ^^^ rotl8 b 4 ^^^ 0x63

def aesSubInv (a : Nat) : Nat := aesInv (rotl8 a 1 ^^^ rotl8 a 3 ^^^ rotl8 a 6 ^^^ 0x05)

def xorBytes (a b : List Nat) : List Nat := (a.zip b).map (fun p => p.1 ^^^ p.2)

/-- The key schedule of AES-256, the latest word first; i is the number of the next word. -/
def aesExpand (n i rcon : Nat) (w : List (List Nat)) : List (List Nat) :=
  match n with
  | 0 => w
  | n + 1 =>
    let t := w.headD []
    let t1 := if i % 8 = 0 then
        let u := (t.drop 1 ++ t.take 1).map aesSub
        xorBytes u [rcon, 0, 0, 0]
      else if i % 8 = 4 then t.map aesSub else t
    aesExpand n (i + 1) (if i % 8 = 0 then aesX rcon else rcon) (xorBytes (w.getD 7 []) t1 :: w)

/-- The 15 round keys of a 32-byte key. -/
def aesKeys (key : List Nat) : List (List Nat) :=
  let w := (aesExpand 52 8 1 ((List.range 8).map (fun i => (key.drop (4 * i)).take 4)).reverse).reverse
  (List.range 15).map (fun r => ((w.drop (4 * r)).take 4).flatten)

/-- Rows shift: byte i of the column-major state comes from column (i / 4 + i % 4). -/
def aesShift (s : List Nat) : List Nat := (List.range 16).map (fun i => s.getD ((i + 4 * (i % 4)) % 16) 0)
def aesShiftInv (s : List Nat) : List Nat := (List.range 16).map (fun i => s.getD ((i + 12 * (i % 4)) % 16) 0)

/-- Each column times a circulant row. -/
def aesMix (row : List Nat) (s : List Nat) : List Nat :=
  (List.range 16).map (fun i =>
    (List.range 4).foldl (fun acc j => acc ^^^ aesMul (row.getD ((j + 4 - i % 4) % 4) 0) (s.getD (4 * (i / 4) + j) 0)) 0)

def aesMixF (s : List Nat) : List Nat := aesMix [2, 3, 1, 1] s
def aesMixInv (s : List Nat) : List Nat := aesMix [14, 11, 13, 9] s

/-- Encrypt one block of 16 bytes. -/
def aesEnc (keys : List (List Nat)) (b : List Nat) : List Nat :=
  let s0 := xorBytes b (keys.getD 0 [])
  let s13 := ((keys.drop 1).take 13).foldl (fun s k => xorBytes (aesMixF (aesShift (s.map aesSub))) k) s0
  xorBytes (aesShift (s13.map aesSub)) (keys.getD 14 [])

/-- Decrypt one block of 16 bytes. -/
def aesDec (keys : List (List Nat)) (b : List Nat) : List Nat :=
  let s0 := (aesShiftInv (xorBytes b (keys.getD 14 []))).map aesSubInv
  let s13 := (((keys.drop 1).take 13).reverse).foldl (fun s k => (aesShiftInv (aesMixInv (xorBytes s k))).map aesSubInv) s0
  xorBytes s13 (keys.getD 0 [])

def toNats (bs : List Byte) : List Nat := bs.map (·.toNat)
def toBytes (l : List Nat) : List Byte := l.map (BitVec.ofNat 8 ·)

/-- The tweak of the next block: times the primitive element of GF(2^128), little-endian (IEEE 1619). -/
def xtsNext (t : List Nat) : List Nat :=
  let x := leNat (toBytes t)
  toNats (natLe 16 (if x < 2 ^ 127 then 2 * x else (2 * x - 2 ^ 128) ^^^ 0x87))

/-- The blocks of a data unit. -/
def xtsBlocks (n : Nat) (f : List Nat → List Nat) (t : List Nat) (bs : List Byte) : List Byte :=
  match n with
  | 0 => []
  | n + 1 => toBytes (xorBytes (f (xorBytes (toNats (bs.take 16)) t)) t) ++ xtsBlocks n f (xtsNext t) (bs.drop 16)

/-- AES-256-XTS of a data unit of whole blocks under a 64-byte key; the tweak is the unit's number as 128 bits,
little-endian (R464). -/
def xtsTweak (key : List Byte) (unit : Nat) : List Nat := aesEnc (aesKeys (toNats (key.drop 32))) (toNats (natLe 16 unit))
def xtsEncrypt (key : List Byte) (unit : Nat) (bs : List Byte) : List Byte :=
  xtsBlocks (bs.length / 16) (aesEnc (aesKeys (toNats (key.take 32)))) (xtsTweak key unit) bs
def xtsDecrypt (key : List Byte) (unit : Nat) (bs : List Byte) : List Byte :=
  xtsBlocks (bs.length / 16) (aesDec (aesKeys (toNats (key.take 32)))) (xtsTweak key unit) bs

/-! ### AES key wrap (RFC 3394) -/

def wrapIV : Nat := 0xA6A6A6A6A6A6A6A6

/-- One step of the wrap on A and the registers R. -/
def wrapStep (keys : List (List Nat)) (n : Nat) (st : Nat × List Nat) (t : Nat) : Nat × List Nat :=
  let i := (t - 1) % n
  let b := aesEnc keys (toNats (natBe 8 st.1 ++ natBe 8 (st.2.getD i 0)))
  (beNat (toBytes (b.take 8)) ^^^ t, st.2.set i (beNat (toBytes (b.drop 8))))

def unwrapStep (keys : List (List Nat)) (n : Nat) (st : Nat × List Nat) (t : Nat) : Nat × List Nat :=
  let i := (t - 1) % n
  let b := aesDec keys (toNats (natBe 8 (st.1 ^^^ t) ++ natBe 8 (st.2.getD i 0)))
  (beNat (toBytes (b.take 8)), st.2.set i (beNat (toBytes (b.drop 8))))

/-- The 64-bit words of bytes. -/
def words64 (bs : List Byte) : List Nat := (List.range (bs.length / 8)).map (fun i => beNat ((bs.drop (8 * i)).take 8))

/-- Wrap a key: 8 bytes longer than it. -/
def keyWrap (kek data : List Byte) : List Byte :=
  let n := data.length / 8
  let (a, r) := ((List.range (6 * n)).map (· + 1)).foldl (wrapStep (aesKeys (toNats kek)) n) (wrapIV, words64 data)
  natBe 8 a ++ r.flatMap (natBe 8)

/-- Unwrap a key; none where the integrity check fails. -/
def keyUnwrap (kek wrapped : List Byte) : Option (List Byte) :=
  let n := wrapped.length / 8 - 1
  let (a, r) := (((List.range (6 * n)).map (· + 1)).reverse).foldl (unwrapStep (aesKeys (toNats kek)) n)
    (beNat (wrapped.take 8), words64 (wrapped.drop 8))
  if a = wrapIV then some (r.flatMap (natBe 8)) else none

/-! ### ECDSA over P-256 (FIPS 186, R556) -/

def p256P : Nat := 0xFFFFFFFF00000001000000000000000000000000FFFFFFFFFFFFFFFFFFFFFFFF
def p256N : Nat := 0xFFFFFFFF00000000FFFFFFFFFFFFFFFFBCE6FAADA7179E84F3B9CAC2FC632551
def p256B : Nat := 0x5AC635D8AA3A93E7B3EBBD55769886BC651D06B0CC53B0F63BCE3C3E27D2604B
def p256G : Nat × Nat :=
  (0x6B17D1F2E12C4247F8BCE6E563A440F277037D812DEB33A0F4A13945D898C296,
   0x4FE342E2FE1A7F9B8EE7EB4A7C0F9E162BCE33576B315ECECBB6406837BF51F5)

/-- A power of a number below 2^256 modulo another, by squaring. -/
def powMod (b e m : Nat) : Nat :=
  (List.range 256).foldl (fun acc i => (if e.testBit (255 - i) then acc * acc % m * b else acc * acc) % m) 1

/-- The inverse modulo a prime. -/
def invMod (a m : Nat) : Nat := powMod (a % m) (m - 2) m

def subMod (a b m : Nat) : Nat := (a % m + m - b % m) % m

/-- The sum of two points; none is the point at infinity. -/
def ecAdd (x y : Option (Nat × Nat)) : Option (Nat × Nat) :=
  match x, y with
  | none, q => q
  | q, none => q
  | some a, some b =>
    if a.1 = b.1 ∧ (a.2 + b.2) % p256P = 0 then none
    else
      let l := if a = b then (3 * a.1 * a.1 + (p256P - 3)) * invMod (2 * a.2) p256P % p256P
        else subMod b.2 a.2 p256P * invMod (subMod b.1 a.1 p256P) p256P % p256P
      let u := subMod (subMod (l * l) a.1 p256P) b.1 p256P
      some (u, subMod (l * subMod a.1 u p256P) a.2 p256P)

/-- A multiple of a point. -/
def ecMul (k : Nat) (q : Option (Nat × Nat)) : Option (Nat × Nat) :=
  (List.range 256).foldl (fun acc i => if k.testBit (255 - i) then ecAdd (ecAdd acc acc) q else ecAdd acc acc) none

/-- Whether a pair is a point of the curve. -/
def onCurve (q : Nat × Nat) : Bool :=
  decide (q.1 < p256P) && decide (q.2 < p256P) && q.2 * q.2 % p256P == (q.1 * q.1 * q.1 + (p256P - 3) * q.1 + p256B) % p256P

/-- Whether (r, s) is a signature by a public key over a digest. -/
def ecdsaVerify (q : Nat × Nat) (r s : Nat) (digest : List Byte) : Bool :=
  if r = 0 ∨ s = 0 ∨ p256N ≤ r ∨ p256N ≤ s ∨ !(onCurve q) then false
  else
    let w := invMod s p256N
    match ecAdd (ecMul (beNat digest * w % p256N) (some p256G)) (ecMul (r * w % p256N) (some q)) with
    | some v => v.1 % p256N == r
    | none => false

end Machine
end Sys2Proof
end

