-- ==== Sys2Proof/Machine/Disc.lean ====
section
/-! DEFINITION. The disc format as far as the controller computes with it: zones and areas (R68, R78, R79), tile
addresses (R88), sector positions (R80, R86), the header's CRC (R83), the scrambler (R84) and record headers (R91). -/

namespace Sys2Proof
namespace Machine

/-- F_z of Z0-Z23 (R78). -/
def zoneF : List Nat := [5240, 5560, 5880, 6240, 6560, 6880, 7200, 7520, 7840, 8160, 8480, 8840,
  9160, 9480, 9800, 10120, 10440, 10760, 11080, 11440, 11760, 12080, 12400, 12720]

/-- k_z of Z0-Z23 (R78). -/
def zoneK : List Nat := [11, 12, 13, 14, 14, 15, 16, 17, 17, 18, 19, 20, 20, 21, 22, 23, 23, 24, 25, 26, 26, 27, 28, 29]

/-- F of an AREA: the zones, 24 the IMA, 25 the OMA with the Z23 value (R78, R79, R103). -/
def areaF (area : Nat) : Nat := if area < 24 then zoneF.getD area 5120 else if area = 25 then 12720 else 5120

/-- Tiles per band per revolution of an AREA (R78, R79). -/
def areaK (area : Nat) : Nat := if area < 24 then zoneK.getD area 11 else if area = 25 then 29 else 11

/-- Bands of an AREA (R68); 0 for an invalid one (R88). -/
def areaBands (area : Nat) : Nat := if area < 24 then 2240 else if area = 24 then 1024 else if area = 25 then 256 else 0

/-- The first PTN of an AREA (R68). -/
def areaPtn (area : Nat) : Nat := if area < 24 then 4096 + 8960 * area else if area = 24 then 0 else 219136

/-- The fields of a physical tile address (R88). -/
def ptaSide (p : Nat) : Nat := p / 2 ^ 31 % 2
def ptaLayer (p : Nat) : Nat := p / 2 ^ 27 % 16
def ptaArea (p : Nat) : Nat := p / 2 ^ 22 % 32
def ptaBand (p : Nat) : Nat := p / 2 ^ 10 % 4096
def ptaSlot (p : Nat) : Nat := p / 2 ^ 5 % 32

/-- A PTA from its fields. -/
def ptaMake (side layer area band slot : Nat) : Nat :=
  side * 2 ^ 31 + layer * 2 ^ 27 + area * 2 ^ 22 + band * 2 ^ 10 + slot * 2 ^ 5

/-- Whether a PTA names a tile of its area on a disc with a number of layers (R88). -/
def ptaValid (layers p : Nat) : Bool :=
  decide (ptaArea p ≤ 25) && decide (ptaBand p < areaBands (ptaArea p)) && decide (ptaSlot p < areaK (ptaArea p)) &&
    decide (ptaLayer p < layers)

/-- The n-th tile of a run that starts at a tile (R88). -/
def ptaAdvance (p n : Nat) : Nat :=
  let k := areaK (ptaArea p)
  let ix := ptaBand p * k + ptaSlot p + n
  ptaMake (ptaSide p) (ptaLayer p) (ptaArea p) (ix / k) (ix % k)

/-- The track of spot s of a tile's band (R68, R86). -/
def ptaPtn (p s : Nat) : Nat := areaPtn (ptaArea p) + 4 * ptaBand p + s

/-- The frame, counted from the start of an arc, in which the bit of an arc stream lies: each frame holds 0.975 F - 8
usable bits (R76). -/
def frameOfBit (area bit : Nat) : Nat := bit / (areaF area * 39 / 40 - 8)

/-- The wedge of the frame in which a slot of an arc begins, and the one in which it ends (R76, R80). -/
def slotFirstWedge (area arc slot : Nat) : Nat := 80 * arc + frameOfBit area (34112 * slot)
def slotLastWedge (area arc slot : Nat) : Nat := 80 * arc + frameOfBit area (34112 * slot + 34111)

/-! ### Checks -/

/-- One bit of the CRC-16 of R83 (0x1021, not reflected). -/
def crc16Bit (c : Nat) (b : Bool) : Nat :=
  let top := (c / 2 ^ 15 % 2 == 1) != b
  let sh := c * 2 % 2 ^ 16
  if top then sh ^^^ 0x1021 else sh

/-- HCRC over header bits [127:16], bit 127 first (R83). -/
def headerCrc (h : BitVec 128) : Nat :=
  (List.range 112).foldl (fun c i => crc16Bit c (h.getLsbD (127 - i))) 0xFFFF

/-- One byte of CRC-32 (IEEE 802.3, reflected) (R83, R91). -/
def crc32Byte (c : Nat) (b : Byte) : Nat :=
  (List.range 8).foldl (fun c _ => if c % 2 = 1 then (c / 2) ^^^ 0xEDB88320 else c / 2) (c ^^^ b.toNat)

/-- CRC-32 of bytes (R83, R91): bits reflected, initial value and final XOR 0xFFFFFFFF; the spec gives the polynomial alone (PRESUMED,
log 104). -/
def crc32 (bs : List Byte) : Nat := (bs.foldl crc32Byte 0xFFFFFFFF) ^^^ 0xFFFFFFFF

/-- The scrambler's seed for a sector (R84). -/
def scrSeed (ptn arc slot : Nat) : Nat :=
  let x := (ptn % 2 ^ 16) ^^^ (arc * 2 ^ 12 % 2 ^ 16) ^^^ (slot * 2 ^ 7 % 2 ^ 16)
  if x = 0 then 1 else x

/-- One step of the scrambler's register (R84). -/
def scrNext (x : Nat) : Nat :=
  let fb := (x / 2 ^ 15 + x / 2 ^ 13 + x / 2 ^ 12 + x / 2 ^ 10) % 2
  (x * 2 + fb) % 2 ^ 16

/-- The first n bits of a scrambler's output: register bit 15 before each shift (R84). -/
def scramble (n x : Nat) : List Bool :=
  match n with
  | 0 => []
  | n + 1 => (x / 2 ^ 15 % 2 == 1) :: scramble n (scrNext x)

/-- The sync marks (R81). -/
def sync1 : BitVec 32 := 0xE4B17C0D
def sync2 : BitVec 32 := 0x1B4E83F2

/-- How many bits of a 32-bit word are set. -/
def popcount32 (x : BitVec 32) : Nat := ((List.range 32).filter (fun i => x.getLsbD i)).length

/-- The distance of 32 bits from a mark: a bit with a soft value of 0 counts as differing (R119). -/
def syncDistance (mark bits erased : BitVec 32) : Nat := popcount32 ((bits ^^^ mark) ||| erased)

/-! ### Rounding -/

/-- x / y for y > 0, to the nearest whole number, halves away from zero (R109; where the spec gives a formula and no
rounding, DESIGN CHOICE, log 7). -/
def roundDiv (x : Int) (y : Int) : Int :=
  if 0 ≤ x then (2 * x + y) / (2 * y) else -((2 * (-x) + y) / (2 * y))

end Machine
end Sys2Proof
end

