-- ==== Sys2Proof/Machine/Staging.lean ====
section
/-! DEFINITION. The SECDED code of R393 and R395, the places of staging addresses (R396, R397), and reading and writing one ECC
word of staging memory through the buffered check word of its row (R394, R403, R407, R408). -/

namespace Sys2Proof
namespace Machine

/-! ### The code of R393 and R395 -/

/-- Whether a number is a power of two. -/
def isPow2 (n : Nat) : Bool := n != 0 && n &&& (n - 1) == 0

/-- p_i: the (i + 1)-th positive integer that is not a power of two. -/
def eccP (i : Nat) : Nat :=
  ((List.range (i + 16)).filter (fun n => n != 0 && !(isPow2 n))).getD i 0

/-- The bits set in a number, below a width. -/
def setBits (w x : Nat) : List Nat := (List.range w).filter (fun i => x.testBit i)

/-- What a read word turns out to be (R393). -/
inductive EccOutcome where
  | good | ce | ue
deriving DecidableEq, Repr

/-- The data positions whose error the syndrome names: the index i with p_i = s. -/
def eccIndex (n s : Nat) : Option Nat := (List.range n).find? (fun i => eccP i = s)

/-- Decode a word of n data bits from its flipped bits: data flips `df` (the POISON bit among them) and flips `cf` of the
k check bits, the last of which is the overall parity.  The code is linear, so the syndrome is that of the flips
(R393).  Answers the outcome and the data flips that remain after correction. -/
def eccDecode (n k : Nat) (df cf : Nat) : EccOutcome × Nat :=
  let dbits := setBits n df
  let cbits := setBits k cf
  let syn := (dbits.map eccP).foldl Nat.xor 0 ^^^ ((cbits.filter (· < k - 1)).map (2 ^ ·)).foldl Nat.xor 0
  let odd := (dbits.length + cbits.length) % 2 == 1
  if !odd then
    if syn = 0 then (.good, df) else (.ue, df)
  else if syn = 0 ∨ isPow2 syn then
    if syn < 2 ^ (k - 1) then (.ce, df) else (.ue, df)
  else
    match eccIndex n syn with
    | some i => (.ce, df ^^^ 2 ^ i)
    | none => (.ue, df)

/-- Decode an ECC word of staging memory from the flips of its 512 data bits and of its check field, whose bit 11 is
POISON and whose bits 15 to 12 are ignored (R393). -/
def dramDecode (flips field : Nat) : EccOutcome × Nat :=
  eccDecode 513 11 (flips % 2 ^ 512 + (if field.testBit 11 then 2 ^ 512 else 0)) (field % 2 ^ 11)

/-- Decode a check word from its 512 flipped bits: bits [511:496] are its own field, over bits [495:0] (R394).  Answers
the outcome and the flips that remain in the fields. -/
def checkDecode (flips : Nat) : EccOutcome × Nat :=
  let (o, rest) := eccDecode 513 11 (flips % 2 ^ 496 + (if flips.testBit 507 then 2 ^ 512 else 0)) (flips / 2 ^ 496 % 2 ^ 11)
  (o, rest % 2 ^ 496)

/-- Decode an SRAM word from its 72 flipped bits (R395). -/
def sramDecode (flips : Nat) : EccOutcome × Nat := eccDecode 64 8 (flips % 2 ^ 64) (flips / 2 ^ 64 % 2 ^ 8)

/-- Bytes with the bits of a mask flipped. -/
def flipBytes (bs : List Byte) (mask : Nat) : List Byte := natLe bs.length (leNat bs ^^^ (mask % 2 ^ (8 * bs.length)))

/-! ### The address mapping (R396, R397) -/

def dramRowBits (s : State) : Nat := clampNat (fget s fldDRAM_CFG_ROW_BITS) 13 16

/-- s of R396: the number of select bits. -/
def dramSel (s : State) : Nat := 6 + fget s fldDRAM_CFG_RANKS

/-- The XOR of the bits of a number that a mask sets. -/
def maskParity (g mask : Nat) : Nat := (setBits 23 (g &&& mask)).length % 2

/-- G and the slot of a staging address (R396). -/
def dramGroup (a : Nat) : Nat := (a - 0x8000000000) / 64 / 31
def dramSlot (a : Nat) : Nat := (a - 0x8000000000) / 64 % 31

/-- Where a word lies: channel 2n + c, bank 16 rank + 4 BG + BA, row and burst. -/
structure DramPlace where
  chan : Nat
  bank : Nat
  row : Nat
  burst : Nat
deriving DecidableEq, Repr

/-- The place of a staging address (R396, R397). -/
def dramPlace (s : State) (a : Nat) : DramPlace :=
  let g := dramGroup a
  let n := maskParity g (fget s fldDRAM_IFMAP_MASK)
  let out (k : Nat) : Nat := maskParity g (fget s (fldDRAMN_XORMAP_MASK n k))
  let rank := if fget s fldDRAM_CFG_RANKS = 0 then 0 else out 5
  ⟨2 * n + out 0, 16 * rank + 8 * out 4 + 4 * out 3 + 2 * out 2 + out 1, g / 2 ^ dramSel s % 2 ^ dramRowBits s, dramSlot a⟩

/-- The address of slot 0 of a row: the mapping is one-to-one, each mask holding its own bit and row bits only (R398). -/
def dramRowAddr (s : State) (chan bank row : Nat) : Nat :=
  let hi := row * 2 ^ dramSel s
  let n := chan / 2
  let bit (mask out k : Nat) : Nat := (out + maskParity hi (mask - mask % 2 ^ dramSel s)) % 2 * 2 ^ k
  let m (k : Nat) : Nat := fget s (fldDRAMN_XORMAP_MASK n k)
  let g := hi + bit (fget s fldDRAM_IFMAP_MASK) n 0 + bit (m 0) (chan % 2) 1 + bit (m 1) (bank % 2) 2 +
    bit (m 2) (bank / 2 % 2) 3 + bit (m 3) (bank / 4 % 2) 4 + bit (m 4) (bank / 8 % 2) 5 +
    (if fget s fldDRAM_CFG_RANKS = 0 then 0 else bit (m 5) (bank / 16 % 2) 6)
  0x8000000000 + 1984 * g

/-- The WORD of a remap entry for a place (R420). -/
def remapWord (p : DramPlace) : Nat := p.bank / 16 * 2 ^ 25 + p.bank % 16 * 2 ^ 21 + p.row * 2 ^ 5 + p.burst

/-- The address that a remap WORD of a channel names: of its data word, or of slot 0 of the row of its check word. -/
def remapAddr (s : State) (chan word : Nat) : Nat :=
  dramRowAddr s chan (bitsOf word 25 25 * 16 + bitsOf word 24 21) (bitsOf word 20 5) + (if word % 32 = 31 then 0 else 64 * (word % 32))

/-! ### Reports of SRAM errors (R421, R535, R539) -/

/-- An error of a macro is reported for the cell that its MEMR_INFO names. -/
def sramReport (s : State) (m : Nat) (ue : Bool) : State :=
  let d := fget s (fldMEMR_INFO_DISTRICT m)
  let p := fget s (fldMEMR_INFO_AVENUE_PORT m)
  let cell := fget s (fldMEMR_INFO_STREET_PORT m)
  let s1 := raiseReport s (if ue then 0x02 else 0x01) 0 d p cell 0 m
  match cellCode d p cell with
  | some c => fset s1 (if ue then fldCELL_ERR_UE c else fldCELL_ERR_CE c)
  | none => s1

/-- A correctable or an uncorrectable word of a macro was read: its flag, the count and the report. -/
def sramFlag (s : State) (m : Nat) (ue : Bool) : State :=
  sramReport (count (fset s (if ue then fldMEMR_STAT_UE m else fldMEMR_STAT_CE m)) (if ue then 430 else 429)) m ue

/-- The same for a word of TCM or of a cache. -/
def sramNote (s : State) (at_ : Config.SramPlace) (ue : Bool) : State := sramFlag s (Config.sramMacro at_).toNat ue

/-! ### The buffered check words (R394, R403) -/

/-- Change one channel. -/
def modDram (s : State) (c : Fin 4) (f : DramCh → DramCh) : State := { s with dram := s.dram.set c (f s.dram[c]) }

/-- Record the address of a CE or UE word (R407, R419). -/
def dramNote (s : State) (lo hi : Nat) (a : Nat) (check : Bool) : State :=
  wr (wr s lo (BitVec.ofNat 32 (a % 2 ^ 32))) hi
    (BitVec.ofNat 32 (a / 2 ^ 32 % 2 ^ 8 + (if check then 2 ^ 31 else 0)))

/-- A correctable word was read (R407). -/
def dramCE (s : State) (a : Nat) (check : Bool) : State :=
  count (dramNote (fset s fldDRAM_STAT_CE) regDRAM_CE_ADDR_LO regDRAM_CE_ADDR_HI a check) 422

/-- An uncorrectable word was read; the controller reports it to its block's fault manager with class DRAM_UE (R407,
R539). -/
def dramUE (s : State) (a : Nat) (check : Bool) : State :=
  raiseReport (count (dramNote (fset s fldDRAM_STAT_UE) regDRAM_UE_ADDR_LO regDRAM_UE_ADDR_HI a check) 423)
    0x07 1 2 4 0x3F 0 (a / 64)

/-- What reading the word at an address found is recorded. -/
def dramSaw (s : State) (a : Nat) (check : Bool) : EccOutcome → State
  | .good => s
  | .ce => dramCE s a check
  | .ue => dramUE s a check

/-- The address of slot 0 of the row group that holds an address (R396). -/
def rowBase (a : Nat) : Nat := a - (a - 0x8000000000) % 1984

/-- What the stored check word of a row decodes to, and the flips left in its fields (R394). -/
def checkStored (s : State) (a : Nat) : EccOutcome × Nat :=
  match aget? s.chkErr (rowBase a) with
  | none => (.good, 0)
  | some fl => checkDecode fl

/-- The channel of a place. -/
def DramPlace.ch (p : DramPlace) : Fin 4 := Fin.ofNat 4 p.chan

/-- The buffered check word of the row of an address, if it is buffered (R403). -/
def checkBuf (s : State) (a : Nat) : Option CheckBuf :=
  let p := dramPlace s a
  match aget? s.dram[p.ch].checks p.bank with
  | some b => if b.row = p.row then some b else none
  | none => none

/-- What the check word that serves an address is, buffered or stored, and the flips left in its fields. -/
def checkLook (s : State) (a : Nat) : EccOutcome × Nat :=
  match checkBuf s a with
  | some b => (if b.ue then .ue else .good, b.rest)
  | none => checkStored s a

/-- Replace the stored flips of the check word of a row. -/
def putChk (s : State) (rb fl : Nat) : State :=
  { s with chkErr := if fl = 0 then aerase s.chkErr rb else aset s.chkErr rb fl }

/-- A bank's dirty check word is written back (R403). -/
def checkBack (s : State) (c : Fin 4) (bank : Nat) : State :=
  match aget? s.dram[c].checks bank with
  | some b =>
    if b.dirty then
      modDram (putChk s (dramRowAddr s c.val bank b.row) b.rest) c (fun ch =>
        { ch with checks := aset ch.checks bank { b with dirty := false } })
    else s
  | none => s

/-- A row's check word enters its bank's buffer, corrected if it can be (R394, R403). -/
def checkFill (s : State) (a : Nat) : State :=
  let p := dramPlace s a
  let look := checkStored s a
  modDram s p.ch (fun ch => { ch with checks := aset ch.checks p.bank ⟨p.row, false, look.1 == .ue, look.2⟩ })

/-- A data access reads the row's check word first, unless it is buffered; the word that it displaces is written back if
dirty (R403, R407). -/
def checkLoad (s : State) (a : Nat) : State :=
  match checkBuf s a with
  | some _ => s
  | none =>
    let p := dramPlace s a
    let s1 := checkBack s p.ch p.bank
    checkFill (dramSaw s1 (rowBase a) true (checkStored s1 a).1) a

/-- The flips left in the check field of the ECC word at an address: bits [16j + 15:16j] for slot j (R394). -/
def fieldFlips (rest w : Nat) : Nat := rest / 2 ^ (16 * ((w - rowBase w) / 64)) % 2 ^ 16

/-- A write updates the field of its word in the buffered check word (R403); the other fields of an uncorrectable one keep
their flips. -/
def checkStore (s : State) (w : Nat) : State :=
  match checkBuf s w with
  | none => s
  | some b =>
    let p := dramPlace s w
    let left := b.rest - fieldFlips b.rest w * 2 ^ (16 * ((w - rowBase w) / 64))
    modDram s p.ch (fun ch =>
      { ch with checks := aset ch.checks p.bank { b with dirty := true, rest := left, ue := b.ue && left != 0 } })

/-! ### One ECC word of staging memory -/

/-- What a read of an ECC word finds: the bytes returned, whether they are marked poisoned, and the outcome; an
uncorrectable check word makes every data word of its row uncorrectable (R394, R407). -/
def dramPeek (s : State) (a : Nat) : List Byte × Bool × EccOutcome :=
  let w := eccWord a
  let bs := Memory.readBytes s.mem w 64
  let fl := (aget? s.dramErr w).getD 0
  match checkLook s w with
  | (.ue, _) => (flipBytes bs fl, true, .ue)
  | (_, rest) =>
    if fl = 0 ∧ rest = 0 then (bs, isPoisoned s w, .good)
    else
      match dramDecode fl (fieldFlips rest w) with
      | (.ue, left) => (flipBytes bs (left % 2 ^ 512), true, .ue)
      | (o, left) => (flipBytes bs (left % 2 ^ 512), isPoisoned s w != left.testBit 512, o)

/-- Read an ECC word: its bytes, its poison mark, and the state with CE or UE recorded (R403, R407). -/
def dramRead (s : State) (a : Nat) : State × List Byte × Bool :=
  let s1 := checkLoad s (eccWord a)
  match dramPeek s1 a with
  | (bs, p, o) => (dramSaw s1 (eccWord a) false o, bs, p)

/-- Store a whole ECC word with a POISON bit: fresh check bits, no stored error (R403, R408). -/
def dramStoreWord (s : State) (w : Nat) (bs : List Byte) (p : Bool) : State :=
  let s1 := checkStore (checkLoad s w) w
  setPoison { s1 with mem := Memory.writeBytes s1.mem w bs, dramErr := aerase s1.dramErr w } w p

/-- Bytes with others laid over them from an offset. -/
def overlay (bs : List Byte) (off : Nat) (new : List Byte) : List Byte :=
  bs.take off ++ new ++ bs.drop (off + new.length)

/-- Write bytes inside one ECC word: a whole word, or a partial write by the table of R408. -/
def dramWrite (s : State) (a : Nat) (new : List Byte) : State :=
  let w := eccWord a
  if new.length = 64 ∧ a = w then dramStoreWord s w new false
  else
    let s1 := checkLoad (count s 424) w
    match dramPeek s1 w with
    | (bs, p, .good) => dramStoreWord s1 w (overlay bs (a - w) new) p
    | (bs, p, .ce) => fset (dramStoreWord s1 w (overlay bs (a - w) new) p) fldDRAM_STAT_PW_CE
    | (bs, _, .ue) => fset (dramStoreWord (dramSaw s1 w false .ue) w (overlay bs (a - w) new) true) fldDRAM_STAT_PW_UE

end Machine
end Sys2Proof
end

