-- ==== Sys2Proof/Machine/Arcade.lean ====
section
/-! DEFINITION. The Arcade (R372 to R381) and what a store that it accepts does to the L1 data caches and the reservations of
the cores (R357, R358, R368, R369). -/

namespace Sys2Proof
namespace Machine

/-! ### Places in the Arcade -/

def arcBank (a : Nat) : Nat := a / 64 % 4
def arcSet (a : Nat) : Nat := a / 256 % 1024
def arcTag (a : Nat) : Nat := a / 2 ^ 18
def arcKey (bank set way : Nat) : Nat := 16384 * bank + 16 * set + way

/-- The address of the line held at a place. -/
def arcLineAddr (bank set tag : Nat) : Nat := tag * 2 ^ 18 + set * 256 + bank * 64

/-- ARC_STAT.STATE: 0 OFF, 1 ON, 2 DRAINING. -/
def arcState (s : State) : Nat := fget s fldARC_STAT_STATE

/-- The way that holds a line, if one does (R372). -/
def arcWay (s : State) (a : Nat) : Option Nat :=
  (List.range 16).find? (fun w =>
    match aget? s.arcade.lines (arcKey (arcBank a) (arcSet a) w) with
    | some l => l.tag = arcTag a
    | none => false)

/-- The line of a hit. -/
def arcFind (s : State) (a : Nat) : Option (Nat × ArcLine) :=
  match arcWay s a with
  | some w =>
    match aget? s.arcade.lines (arcKey (arcBank a) (arcSet a) w) with
    | some l => some (w, l)
    | none => none
  | none => none

/-- The ways that a class may replace (R376): its partition mask without the locked ways. -/
def arcFree (s : State) (cls : Nat) : Nat :=
  let m := fget s (fldARC_PART_MASK cls)
  m - (m &&& fget s fldARC_LOCK_MASK)

/-- A node of the pseudo-LRU tree points to the upper half when its bit is 1.  Nodes are numbered from the root, 0, with
the children of n at 2n + 1 and 2n + 2; follow the tree to a free way (R376).  The numbering and the sense of a bit
are DESIGN CHOICE, log 12. -/
def plruPick (tree free node lo width : Nat) (fuel : Nat) : Nat :=
  match fuel with
  | 0 => lo
  | fuel + 1 =>
    if width ≤ 1 then lo
    else
      let half := width / 2
      let upper := tree.testBit node
      let upFree := free / 2 ^ (lo + half) % 2 ^ half != 0
      let loFree := free / 2 ^ lo % 2 ^ half != 0
      let goUp := (upper && upFree) || !loFree
      if goUp then plruPick tree free (2 * node + 2) (lo + half) half fuel
      else plruPick tree free (2 * node + 1) lo half fuel

/-- Point every node on a way's path away from it (R376). -/
def plruTouch (tree way node lo width : Nat) (fuel : Nat) : Nat :=
  match fuel with
  | 0 => tree
  | fuel + 1 =>
    if width ≤ 1 then tree
    else
      let half := width / 2
      if way < lo + half then
        plruTouch (if tree.testBit node then tree else tree + 2 ^ node) way (2 * node + 1) lo half fuel
      else
        plruTouch (if tree.testBit node then tree - 2 ^ node else tree) way (2 * node + 2) (lo + half) half fuel

/-- Replace the Arcade's lines. -/
def setArcLines (s : State) (l : List (Nat × ArcLine)) : State := { s with arcade := { s.arcade with lines := l } }

/-- A hit or a fill of a way (R376). -/
def arcTouch (s : State) (a way : Nat) : State :=
  let k := 1024 * arcBank a + arcSet a
  let t := (aget? s.arcade.plru k).getD 0
  { s with arcade := { s.arcade with plru := aset s.arcade.plru k (plruTouch t way 0 0 16 5) } }

/-! ### Errors of a line's SRAM words (R381, R395) -/

/-- The flips that eight SRAM words of a line show: how the worst of them decodes, and the flips left in the 64 bytes. -/
def lineDecode (flips : Nat) : EccOutcome × Nat :=
  if flips = 0 then (.good, 0)
  else (List.range 8).foldl (fun acc i =>
    match acc.1, sramDecode (flips / 2 ^ (72 * i) % 2 ^ 72) with
    | .ue, (_, rest) => (.ue, acc.2 + rest % 2 ^ 64 * 2 ^ (64 * i))
    | _, (.ue, rest) => (.ue, acc.2 + rest % 2 ^ 64 * 2 ^ (64 * i))
    | .ce, (_, rest) => (.ce, acc.2 + rest % 2 ^ 64 * 2 ^ (64 * i))
    | .good, (o, rest) => (o, acc.2 + rest % 2 ^ 64 * 2 ^ (64 * i))) (.good, 0)

/-- The first word of a line that decodes as its worst. -/
def lineBad (flips : Nat) : Nat :=
  ((List.range 8).find? (fun i => (sramDecode (flips / 2 ^ (72 * i) % 2 ^ 72)).1 = (lineDecode flips).1)).getD 0

/-- The flips that stay when n bytes from an offset are stored: the words they touch get fresh check bits. -/
def lineFresh (flips off n : Nat) : Nat :=
  if flips = 0 then 0
  else (List.range 8).foldl (fun acc i =>
    if 8 * i < off + n ∧ off < 8 * i + 8 then acc else acc + flips / 2 ^ (72 * i) % 2 ^ 72 * 2 ^ (72 * i)) 0

/-- A line's worst word is noted. -/
def arcNote (s : State) (bank set way : Nat) (l : ArcLine) (ue : Bool) : State :=
  let s1 := sramNote s (.arcade (arcKey bank set way) (lineBad l.err)) ue
  if ue then fset s1 fldARC_STAT_ECC_UE else s1

/-- Write a dirty line back to staging memory: its poison mark goes with it, and an uncorrectable word makes it poisoned (R372,
R381, R409). -/
def arcWriteBack (s : State) (bank set way : Nat) (l : ArcLine) : State :=
  if l.dirty then
    match lineDecode l.err with
    | (.good, _) => count (dramStoreWord s (arcLineAddr bank set l.tag) l.data l.poison) 419
    | (.ce, rest) => count (dramStoreWord (arcNote s bank set way l false) (arcLineAddr bank set l.tag) (flipBytes l.data rest) l.poison) 419
    | (.ue, rest) => count (dramStoreWord (arcNote s bank set way l true) (arcLineAddr bank set l.tag) (flipBytes l.data rest) true) 419
  else s

/-- Take a line out of its way. -/
def arcDrop (s : State) (a w : Nat) : State :=
  setArcLines s (aerase s.arcade.lines (arcKey (arcBank a) (arcSet a) w))

/-- What a request that hits meets: a line whose value is right, a clean uncorrectable line, now invalidated, or a dirty one,
now written back poisoned (R381). -/
inductive ArcSound where
  | held (l : ArcLine)
  | refetch
  | spoiled (raw : List Byte)

/-- The check of a line that hits. -/
def arcSound (s : State) (a w : Nat) (l : ArcLine) : State × ArcSound :=
  match lineDecode l.err with
  | (.good, _) => (s, .held l)
  | (.ce, rest) => (arcNote s (arcBank a) (arcSet a) w l false, .held { l with data := flipBytes l.data rest })
  | (.ue, rest) =>
    if l.dirty then (arcDrop (arcWriteBack s (arcBank a) (arcSet a) w l) a w, .spoiled (flipBytes l.data rest))
    else (arcDrop (arcNote s (arcBank a) (arcSet a) w l true) a w, .refetch)

/-! ### Allocation (R373, R376, R386) -/

/-- The way that a fill for a class takes: the lowest invalid free way, else the tree's choice; none without a free way
(R376). -/
def arcVictim (s : State) (cls a : Nat) : Option Nat :=
  let free := arcFree s cls
  if free = 0 then none
  else
    match (List.range 16).find? (fun w => free.testBit w && (aget? s.arcade.lines (arcKey (arcBank a) (arcSet a) w)).isNone) with
    | some w => some w
    | none => some (plruPick ((aget? s.arcade.plru (1024 * arcBank a + arcSet a)).getD 0) free 0 0 16 5)

/-- Whether a new miss of a class is to allocate (R373, R376, R386). -/
def arcMayAlloc (s : State) (cls : Nat) : Bool := decide (cls < 4) && arcState s == 1 && arcFree s cls != 0

/-- Put a line in a way, writing back a dirty victim first (R376). -/
def arcInstall (s : State) (a way : Nat) (l : ArcLine) : State :=
  let k := arcKey (arcBank a) (arcSet a) way
  let s1 := match aget? s.arcade.lines k with
    | some v => arcWriteBack s (arcBank a) (arcSet a) way v
    | none => s
  arcTouch (setArcLines s1 (aset s1.arcade.lines k l)) a way

/-! ### The L1 data caches and the reservations at a store (R357, R368, R369) -/

def l1Set (a : Nat) : Nat := a / 64 % 128
def l1Tag (a : Nat) : Nat := a / 2 ^ 13
def l1Key (set way : Nat) : Nat := 4 * set + way

/-- One of a core's L1 caches. -/
def l1Get (s : State) (p : Fin 4) : L1Cache → L1
  | .instr => s.l1i[p]
  | .data => s.l1d[p]

/-- Change one of a core's L1 caches. -/
def modL1 (s : State) (p : Fin 4) (c : L1Cache) (f : L1 → L1) : State :=
  match c with
  | .instr => { s with l1i := s.l1i.set p (f s.l1i[p]) }
  | .data => { s with l1d := s.l1d.set p (f s.l1d[p]) }

/-- The way of a line that an L1 holds. -/
def l1Way (q : L1) (a : Nat) : Option Nat :=
  (List.range 4).find? (fun w => (aget? q.lines (l1Key (l1Set a) w)).map (·.tag) = some (l1Tag a))

/-- The line that an L1 holds. -/
def l1Find (q : L1) (a : Nat) : Option L1Line := (l1Way q a).bind (fun w => aget? q.lines (l1Key (l1Set a) w))

/-- Change a held line; it is now the most recently used of its set (R368). -/
def l1Use (q : L1) (a : Nat) (f : L1Line → L1Line) : L1 :=
  match l1Way q a with
  | some w =>
    match aget? q.lines (l1Key (l1Set a) w) with
    | some l => { q with lines := aset q.lines (l1Key (l1Set a) w) { f l with stamp := q.clock + 1 }, clock := q.clock + 1 }
    | none => q
  | none => q

/-- Drop a line, and the fill of it that is still under way. -/
def l1Inv (a : Nat) (q : L1) : L1 :=
  let miss := q.miss.filter (fun m => m.line ≠ eccWord a)
  match l1Way q a with
  | some w => { q with lines := aerase q.lines (l1Key (l1Set a) w), miss := miss }
  | none => { q with miss := miss }

/-- Drop every line, and every fill that is still under way. -/
def l1InvAll (q : L1) : L1 := { q with lines := [], miss := [] }

/-- A disabled L1 whose last fill has landed empties (R387). -/
def l1Settle (p : Fin 4) (c : L1Cache) (s : State) : State :=
  if (l1Get s p c).draining && (l1Get s p c).miss.isEmpty then modL1 s p c (fun q => { l1InvAll q with draining := false })
  else s

/-- The storing core's own L1D takes the bytes where the line is present or under way (R369). -/
def l1Take (a : Nat) (new : List Byte) (q : L1) : L1 :=
  let lay (bs : List Byte) : List Byte := overlay bs (a % 64) new
  l1Use { q with miss := q.miss.map (fun m => if m.line = eccWord a then { m with data := lay m.data } else m) } a
    (fun l => { l with data := lay l.data, err := lineFresh l.err (a % 64) new.length })

/-- A core's store updates its own L1D where the line is present, and drops the line from every other L1D (R369). -/
def l1Store (s : State) (p : Fin 4) (a : Nat) (new : List Byte) : State :=
  forEach (List.finRange 4) s (fun t k =>
    if k = p then modL1 t k .data (l1Take a new) else l1Settle k .data (modL1 t k .data (l1Inv a)))

/-- A store into a reserved line ends the reservations of every core on it (R357). -/
def resvDrop (s : State) (a n : Nat) : State :=
  let hit (r : Nat × Nat) : Bool := decide (a < r.1 + 64) && decide (r.1 < a + n)
  if s.core.toList.any (fun c => c.resv.any hit) then
    { s with core := s.core.map (fun c => if c.resv.any hit then { c with resv := none } else c) }
  else s

/-- The Arcade accepts a store: reservations on its line end, and a Plaza core's reaches the L1D caches (R357, R369, R370). -/
def arcAccept (s : State) (r : ArcReq) : State :=
  match r.store with
  | some new =>
    let s1 := resvDrop s r.addr new.length
    if r.cls = 0 then l1Store s1 r.core r.addr new else s1
  | none => s

/-! ### Miss registers (R375, R380) -/

/-- The busy miss register that holds a line, by its index in its bank. -/
def missIndex (s : State) (a : Nat) : Option Nat :=
  let l := s.arcade.miss[arcBank a]!
  (List.range l.length).find? (fun i => (l[i]?.map (·.line)) = some (eccWord a))

/-- Show the busy miss registers of the banks (R388). -/
def showMiss (s : State) : State :=
  fput (fput (fput (fput s fldARC_MISS_BUSY0 (s.arcade.miss[0]).length) fldARC_MISS_BUSY1 (s.arcade.miss[1]).length)
    fldARC_MISS_BUSY2 (s.arcade.miss[2]).length) fldARC_MISS_BUSY3 (s.arcade.miss[3]).length

/-- Replace one bank's miss registers. -/
def setMiss (s : State) (b : Nat) (m : List MissReg) : State :=
  showMiss { s with arcade := { s.arcade with miss := s.arcade.miss.set! b m } }

/-- Replace one bank's waiting requests. -/
def setArcWaiting (s : State) (b : Nat) (w : List ArcReq) : State :=
  { s with arcade := { s.arcade with waiting := s.arcade.waiting.set! b w } }

/-- A request waits for a miss register (R380). -/
def arcWait (s : State) (r : ArcReq) : State :=
  fset (setArcWaiting s (arcBank r.addr) (s.arcade.waiting[arcBank r.addr]! ++ [r])) fldARC_STAT_MISS_FULL

/-- Whether a request stores. -/
def reqStores (r : ArcReq) : Bool := r.store.isSome

/-- One request of a fill is served: a store is laid over the line, and one of the whole line clears its poison; a read gets the
line as it is at its turn (R375, R380). -/
def serveOne (acc : List Byte × Bool × List ArcAnswer) (r : ArcReq) : List Byte × Bool × List ArcAnswer :=
  match r.store with
  | some new => (overlay acc.1 (r.addr % 64) new, acc.2.1 && !(new.length == 64), acc.2.2)
  | none => (acc.1, acc.2.1, acc.2.2 ++ [⟨r.addr, acc.1, acc.2.1⟩])

/-- The requests of a fill are served in arrival order. -/
def serveAll (bs : List Byte) (p : Bool) (reqs : List ArcReq) : List Byte × Bool × List ArcAnswer :=
  reqs.foldl serveOne (bs, p, [])

/-- A miss register's fill lands: the line is read, its requests are served, and it is allocated in its class's free ways when
the fill allocates; else its stores go to staging memory (R374 to R376, R380). -/
def arcLand (s : State) (bank i : Nat) : State :=
  match (s.arcade.miss[bank]!)[i]? with
  | none => s
  | some m =>
    match dramRead (setMiss s bank ((s.arcade.miss[bank]!).eraseIdx i)) m.line with
    | (s1, bs, p) =>
      let out := serveAll bs p m.reqs
      let s2 := { s1 with arcade := { s1.arcade with answers := out.2.2 } }
      match (if m.alloc then arcVictim s2 m.cls m.line else none) with
      | some w => arcInstall s2 m.line w ⟨arcTag m.line, m.reqs.any reqStores, out.1, out.2.1, 0⟩
      | none => m.reqs.foldl (fun t r => match r.store with | some new => dramWrite t r.addr new | none => t) s2

/-- A request merges into a busy miss register, which then allocates if the request would (R380). -/
def arcMerge (s : State) (r : ArcReq) (i : Nat) : State :=
  match (s.arcade.miss[arcBank r.addr]!)[i]? with
  | some m =>
    let up := !m.alloc && arcMayAlloc s r.cls
    setMiss (count s 417) (arcBank r.addr) ((s.arcade.miss[arcBank r.addr]!).set i
      { m with reqs := m.reqs ++ [r], alloc := m.alloc || up, cls := if up then r.cls else m.cls })
  | none => s

/-- A primary miss takes a free register (R380). -/
def arcTakeReg (s : State) (r : ArcReq) : State :=
  let b := arcBank r.addr
  setMiss (countIf s (arcState s != 0) (410 + 2 * b)) b (s.arcade.miss[b]! ++ [⟨eccWord r.addr, arcMayAlloc s r.cls, r.cls, [r]⟩])

/-- A hit takes a store, and is dirty, or is read (R374, R375). -/
def arcServeHit (s : State) (r : ArcReq) (w : Nat) (l : ArcLine) : State :=
  let s1 := arcTouch (count s (409 + 2 * arcBank r.addr)) r.addr w
  match r.store with
  | some new =>
    setArcLines s1 (aset s1.arcade.lines (arcKey (arcBank r.addr) (arcSet r.addr) w)
      { l with
        dirty := true
        data := overlay l.data (r.addr % 64) new
        poison := l.poison && !(new.length == 64)
        err := lineFresh l.err (r.addr % 64) new.length })
  | none => s1

/-- Answer a request that is served at once. -/
def arcAnswer (s : State) (r : ArcReq) (bs : List Byte) (p : Bool) : State :=
  match r.store with
  | some _ => reply s .ok 0 []
  | none => reply s (if p then .poison else .ok) 0 bs

/-- A request for a line that no miss register holds and that the Arcade lacks: it takes a free register, or waits
(R380). -/
def arcPrimary (s : State) (r : ArcReq) : State :=
  if (s.arcade.miss[arcBank r.addr]!).length < 16 then arcTakeReg (arcAccept s r) r else arcWait s r

/-- A request meets the line that a way holds: it is served, fetched again, or gets the poisoned word (R374, R375, R381). -/
def arcHit (s : State) (r : ArcReq) (w : Nat) (l : ArcLine) : State :=
  match arcSound s r.addr w l with
  | (t, .held l') => arcAnswer (arcServeHit (arcAccept t r) r w l') r l'.data l'.poison
  | (t, .refetch) => arcPrimary t r
  | (t, .spoiled raw) =>
    match r.store with
    | some new => reply (dramWrite (arcAccept t r) r.addr new) .ok 0 []
    | none => reply t .poison 0 raw

/-- The SRAM words of a held line show flips beside those they held. -/
def arcFlip (s : State) (a flips : Nat) : State :=
  match arcFind s a with
  | some (w, l) =>
    if flips = 0 then s
    else setArcLines s (aset s.arcade.lines (arcKey (arcBank a) (arcSet a) w) { l with err := l.err ^^^ flips })
  | none => s

/-- A request at the Arcade: it merges into the miss register that holds its line, up to eight beside the first, hits, or
misses (R373, R374, R380). -/
def arcRequest (s : State) (r : ArcReq) : State :=
  if !(stagingUsable s r.addr) then replyError s
  else match missIndex s r.addr with
  | some i =>
    match (s.arcade.miss[arcBank r.addr]!)[i]? with
    | some m => if m.reqs.length ≤ 8 then arcMerge (arcAccept s r) r i else arcWait s r
    | none => s
  | none =>
    match arcFind s r.addr with
    | some (w, l) => arcHit s r w l
    | none => arcPrimary s r

/-- The requests that wait at a bank try again, in arrival order (R380). -/
def arcRetry (s : State) (b : Nat) : State := (s.arcade.waiting[b]!).foldl arcRequest (setArcWaiting s b [])

/-- A fill lands, and the requests that wait at the bank try again. -/
def arcLandRetry (s : State) (b i : Nat) : State := arcRetry (arcLand s b i) b

/-! ### Requests that the model carries out whole (log 113) -/

/-- A request finds every register of its bank busy: it waits, with MISS_FULL, while fills land, oldest first, and earlier
requests take the registers that free (R380). -/
def arcRoom (fuel : Nat) (s : State) (b : Nat) : State :=
  match fuel with
  | 0 => s
  | fuel + 1 =>
    if (s.arcade.miss[b]!).length < 16 then s
    else arcRoom fuel (arcLandRetry (fset s fldARC_STAT_MISS_FULL) b 0) b

/-- A request finds the register of its line with eight merged requests: it waits until the fill has landed (R380). -/
def arcJoin (s : State) (a : Nat) : State :=
  match missIndex s a with
  | some i =>
    match (s.arcade.miss[arcBank a]!)[i]? with
    | some m => if m.reqs.length ≤ 8 then s else arcLandRetry (fset s fldARC_STAT_MISS_FULL) (arcBank a) i
    | none => s
  | none => s

/-- The fill of a request's line lands: the state, and what the request, the last one served, reads. -/
def arcFinish (s : State) (a : Nat) : State × List Byte × Bool :=
  match missIndex s a with
  | some i =>
    let t := arcLand s (arcBank a) i
    match t.arcade.answers.getLast? with
    | some x => (arcRetry t (arcBank a), x.data, x.poison)
    | none => (arcRetry t (arcBank a), [], false)
  | none => (s, [], false)

/-- A request's miss, once a register is free for it. -/
def arcMiss (s : State) (r : ArcReq) : State × List Byte × Bool :=
  let b := arcBank r.addr
  arcFinish (arcTakeReg (arcRoom ((s.arcade.waiting[b]!).length + 1) s b) r) r.addr

/-- A request from its lookup to its answer: the state, and the line and its poison mark for a read (R373 to R376, R380,
R381). -/
def arcDo (s0 : State) (r : ArcReq) : State × List Byte × Bool :=
  let s := arcJoin s0 r.addr
  match missIndex s r.addr with
  | some i => arcFinish (arcMerge s r i) r.addr
  | none =>
    match arcFind s r.addr with
    | none => arcMiss s r
    | some (w, l) =>
      match arcSound s r.addr w l with
      | (t, .held l') => (arcServeHit t r w l', l'.data, l'.poison)
      | (t, .refetch) => arcMiss t r
      | (t, .spoiled raw) =>
        match r.store with
        | some new => (dramWrite t r.addr new, raw, true)
        | none => (t, raw, true)

/-- Read the line of an address for a requester of a class. -/
def arcReadLine (s : State) (cls a : Nat) : State × List Byte × Bool := arcDo s ⟨cls, a, none, 0⟩

/-- Write bytes inside one line for a requester of a class. -/
def arcWriteLine (s : State) (cls a : Nat) (new : List Byte) : State := (arcDo s ⟨cls, a, some new, 0⟩).1

end Machine
end Sys2Proof
end

