-- ==== Sys2Proof/Machine/Mem.lean ====
section
/-! DEFINITION. Normal memory as the agents see it: TCM (R348), and reads and writes of any number of bytes of TCM and, through
the Arcade, of staging memory. -/

namespace Sys2Proof
namespace Machine

/-! ### TCM (R348) -/

/-- Read the 8-byte TCM word that holds an address: its bytes, and whether it is uncorrectable. -/
def tcmPeek (s : State) (a : Nat) : List Byte × EccOutcome :=
  let w := a - a % 8
  let bs := Memory.readBytes s.mem w 8
  match aget? s.tcmErr w with
  | none => (bs, .good)
  | some fl =>
    match sramDecode fl with
    | (o, rest) => (flipBytes bs rest, o)

/-- Write the bytes that lie in one TCM word: a word with a stored error is read, corrected if it can be, merged and stored
with fresh check bits (R348, R395). -/
def tcmMend (s : State) (a : Nat) (new : List Byte) (w : Nat) : State :=
  match aget? s.tcmErr w with
  | none => s
  | some _ =>
    if w < a + new.length ∧ a < w + 8 then
      { s with mem := Memory.writeBytes s.mem w (tcmPeek s w).1, tcmErr := aerase s.tcmErr w }
    else s

/-- Write bytes of TCM. -/
def tcmWrite (s : State) (a : Nat) (new : List Byte) : State :=
  let s1 := s.tcmErr.foldl (fun t e => tcmMend t a new e.1) s
  { s1 with mem := Memory.writeBytes s1.mem a new }

/-! ### Bytes of normal memory -/

/-- The pieces of an access that lie in one 64-byte line each: address and length. -/
def pieces (a n : Nat) (fuel : Nat) : List (Nat × Nat) :=
  match fuel with
  | 0 => []
  | fuel + 1 =>
    if n = 0 then []
    else
      let k := Nat.min n (64 - a % 64)
      (a, k) :: pieces (a + k) (n - k) fuel

/-- Whether every byte of an access lies in memory that answers: TCM, the usable staging memory, or the boot ROM for a
read (R15, R16, R349). -/
def normalOk (s : State) (a n : Nat) (write : Bool) : Bool :=
  match regionOf a with
  | .rom => !write && decide (a + n ≤ 0x40000)
  | .tcm => decide (a + n ≤ 0x1080000)
  | .staging => stagingUsable s a && stagingUsable s (a + n - 1)
  | .device => false
  | .hole => false

/-- The bytes of the boot ROM are not given by the spec. -/
def romBytes (a n : Nat) : List Byte := (List.range n).map (fun i => Config.bootRom (a + i))

/-- Read bytes of normal memory for a requester of a class: the state, the bytes and whether any was poisoned; none is a
bus error. -/
def memRead (s : State) (cls a n : Nat) : State × Option (List Byte × Bool) :=
  if !(normalOk s a n false) then (s, none)
  else match regionOf a with
  | .rom => (s, some (romBytes a n, false))
  | .tcm =>
    let words := (List.range (n / 8 + 2)).map (fun i => a - a % 8 + 8 * i)
    let looked := words.map (tcmPeek s)
    let seen (o : EccOutcome) : List Nat :=
      ((words.zip looked).filter (fun p => p.2.2 == o && decide (p.1 < a + n))).map (·.1)
    let bs := ((looked.map (·.1)).flatten.drop (a % 8)).take n
    let s1 := forEach (seen .ce) s (fun t w => sramNote t (.tcm w) false)
    (forEach (seen .ue) s1 (fun t w => sramNote t (.tcm w) true), some (bs, !(seen .ue).isEmpty))
  | _ =>
    let (s', acc) := (pieces a n (n / 64 + 3)).foldl
      (fun (st : State × List Byte × Bool) pc =>
        let (t, bs, p) := arcReadLine st.1 cls pc.1
        (t, st.2.1 ++ (bs.drop (pc.1 % 64)).take pc.2, st.2.2 || p)) (s, [], false)
    (s', some acc)

/-- Write bytes of normal memory for a requester of a class; none is a bus error, and nothing is written. -/
def memWrite (s : State) (cls a : Nat) (new : List Byte) : Option State :=
  if new.isEmpty then some s
  else if !(normalOk s a new.length true) then none
  else match regionOf a with
  | .tcm => some (tcmWrite (resvDrop s a new.length) a new)
  | .staging =>
    some ((pieces a new.length (new.length / 64 + 3)).foldl
      (fun (st : State × List Byte) pc => (arcWriteLine st.1 cls pc.1 (st.2.take pc.2), st.2.drop pc.2)) (resvDrop s a new.length, new)).1
  | _ => none

/-- Write bytes, or do nothing where a bus error would end the write. -/
def memWriteD (s : State) (cls a : Nat) (new : List Byte) : State := (memWrite s cls a new).getD s

/-- A 32-bit little-endian number of memory, 0 where a bus error ends the read. -/
def memWord (s : State) (a : Nat) : Nat :=
  match (memRead s 4 a 4).2 with
  | some (bs, _) => leNat bs
  | none => 0

end Machine
end Sys2Proof
end

