-- ==== Sys2Proof/Machine/Fifo.lean ====
section
/-! DEFINITION. Control-class FIFOs: pushing a record into its ring, popping one, and the guarded configuration
registers (R338, R340, R341, R536, R596). -/

namespace Sys2Proof
namespace Machine

/-- Change one FIFO. -/
def modFifo (s : State) (f : Fin 14) (g : Fifo → Fifo) : State := { s with fifo := s.fifo.set f (g s.fifo[f]) }

/-- Records that the ring of a FIFO has places for: 2^SIZE_LOG2 (R341). -/
def fifoSize (s : State) (f : Nat) : Nat := 2 ^ clampNat (fget s (fldFIFO_CFG_SIZE_LOG2 f)) 4 16

/-- Records in the ring, those in the on-chip stage counted (R596). -/
def fifoCount (s : State) (f : Nat) : Nat := fget s (fldFIFO_STAT_COUNT f)

/-- On-chip records of a FIFO: 4 for tile completions, 2 for every other (R339, R596). -/
def fifoDepth (f : Nat) : Nat := if f = 0 then 4 else 2

/-- The ring's base address. -/
def fifoRingBase (s : State) (f : Nat) : Nat :=
  fget s (fldFIFO_BASE_HI_BASE f) * 2 ^ 32 + fget s (fldFIFO_BASE_LO_BASE f) * 32

/-- The place of record k (R340). -/
def fifoPlace (s : State) (f k : Nat) : Nat := fifoRingBase s f + 32 * (k % fifoSize s f)

/-- A record's 32 bytes as they lie in a ring: REC0, bits [255:224], first, each word little-endian (R340). -/
def recordBytes (r : BitVec 256) : List Byte :=
  (List.range 8).flatMap (fun i => natLe 4 (r.toNat / 2 ^ (224 - 32 * i) % 2 ^ 32))

/-- The record that 32 bytes stand for. -/
def bytesRecord (bs : List Byte) : BitVec 256 :=
  BitVec.ofNat 256 ((List.range 8).foldl (fun acc i => acc * 2 ^ 32 + leNat ((bs.drop (4 * i)).take 4)) 0)

/-- Word i of a record: REC0 holds bits [255:224] (R341). -/
def recordWord (r : BitVec 256) (i : Nat) : Word := BitVec.ofNat 32 (r.toNat / 2 ^ (224 - 32 * i))

/-- Show the fill of a ring. -/
def fifoShow (s : State) (f : Nat) (n : Nat) : State :=
  fputB (fput s (fldFIFO_STAT_COUNT f) n) (fldFIFO_STAT_FULL f) (fifoSize s f ≤ n)

/-- A producer waits (R340); the sweep scheduler shows it for the FIFOs of the data path (R344). -/
def fifoWait (s : State) (f : Fin 14) (r : BitVec 256) : State :=
  let s1 := fset (modFifo s f (fun q => { q with waiting := q.waiting ++ [r] })) (fldFIFO_STAT_WAITED f)
  if f.val ≤ 9 then fset s1 fldSWP_STAT_RING_WAIT else s1

/-- Keep a record in the on-chip stage (R596). -/
def fifoHold (s : State) (f : Fin 14) (r : BitVec 256) : State :=
  fset (fifoShow (modFifo s f (fun q => { q with wk := q.wk + 1, stage := q.stage ++ [r] })) f (fifoCount s f + 1))
    (fldFIFO_STAT_NOTICE f)

/-- A record's ring write ends with a bus error: it is kept in the stage and RING_ERR sets; with the stage full the
producer waits, but the fault ring drops the record and sets OVERFLOW (R536, R596). -/
def fifoRingError (s : State) (f : Fin 14) (r : BitVec 256) : State :=
  if s.fifo[f].stage.length < fifoDepth f then fset (fifoHold s f r) (fldFIFO_STAT_RING_ERR f)
  else if f.val = 13 then fset (fset s (fldFIFO_STAT_RING_ERR f)) fldSQ_STAT_OVERFLOW
  else fset (fifoWait s f r) (fldFIFO_STAT_RING_ERR f)

/-- A producer writes a record (R338, R340, R536, R596). -/
def fifoPush (s : State) (f : Fin 14) (r : BitVec 256) : State :=
  if fifoSize s f ≤ fifoCount s f ∨ ¬ s.fifo[f].waiting = [] then
    if f.val = 13 then fset s fldSQ_STAT_OVERFLOW else fifoWait s f r
  else if ¬ s.fifo[f].stage = [] then
    if s.fifo[f].stage.length < fifoDepth f then fifoHold s f r
    else if f.val = 13 then fset s fldSQ_STAT_OVERFLOW else fifoWait s f r
  else
    match memWrite s 4 (fifoPlace s f s.fifo[f].wk) (recordBytes r) with
    | some t =>
      fset (fifoShow (modFifo t f (fun q => { q with wk := q.wk + 1 })) f (fifoCount s f + 1)) (fldFIFO_STAT_NOTICE f)
    | none => fifoRingError s f r

/-- Let the first waiting producer write its record. -/
def fifoRelease (s : State) (f : Fin 14) : State :=
  match s.fifo[f].waiting with
  | [] => s
  | r :: rest =>
    let s1 := fifoPush (modFifo s f (fun q => { q with waiting := [] })) f r
    modFifo s1 f (fun q => { q with waiting := q.waiting ++ rest })

/-- Copy a popped record into FIFO_REC0-7. -/
def fifoShowRecord (s : State) (f : Nat) (r : BitVec 256) : State :=
  forEach (List.range 8) s (fun t i => wr t (regFIFO_REC f i) (recordWord r i))

/-- Whether the oldest record of a FIFO lies in the on-chip stage. -/
def fifoHeadStaged (q : Fifo) : Bool := decide (q.wk ≤ q.rk + q.stage.length)

/-- A read of FIFO_POP by an agent: the state after it, the value returned, and the record popped, if one was (R340).
A ring read that a bus error ends returns free words: the spec is silent (log 13). -/
def fifoPop (s : State) (agentId : Nat) (f : Fin 14) : State × Word × Option (BitVec 256) :=
  if absentAt s.variant (fifoBase f) then (s, 0, none)
  else if fget s (fldFIFO_CFG_CONSUMER f) ≠ agentId then (fset s (fldFIFO_STAT_DENIED f), 0, none)
  else if fifoCount s f = 0 then (s, 0, none)
  else
    let q := s.fifo[f]
    let seq := q.rk % 2 ^ 24
    let (s1, r, bad) :=
      if fifoHeadStaged q then
        (modFifo s f (fun q => { q with stage := q.stage.drop 1 }), q.stage.headD 0, false)
      else
        match memRead s 4 (fifoPlace s f q.rk) 32 with
        | (t, some (bs, p)) => (t, bytesRecord bs, p)
        | (t, none) =>
          (tickFrees t 8, BitVec.ofNat 256 (freeNat s 8), false)
    let s2 := fifoShow (modFifo s1 f (fun q => { q with rk := q.rk + 1 })) f (fifoCount s f - 1)
    let s3 := fifoShowRecord (sif bad s2 (fun t => fset t (fldFIFO_STAT_POISONED f))) f r
    (fifoRelease s3 f, BitVec.ofNat 32 (2 ^ 31 + seq), some r)

/-- A read of FIFO_POP over the bus. -/
def fifoPopEff (s : State) (agent : Agent) (f : Fin 14) : State :=
  match fifoPop s agent.id f with
  | (t, v, _) => reply t .ok v.toNat (natLe 4 v.toNat)

/-- FIFO_POP. -/
def execFifoPop (agent : Agent) (f : FifoId) (s : State) : Host.Outcome State Fault Refusal :=
  .next (fifoPopEff s agent f)

/-- The register that a guarded write names. -/
def fifoRegAddr (f : Nat) : FifoReg → Nat
  | .baseLo => regFIFO_BASE_LO f
  | .baseHi => regFIFO_BASE_HI f
  | .cfg => regFIFO_CFG f

/-- The value that a guarded write stores: reserved bits 0, SIZE_LOG2 clamped (R341). -/
def fifoRegValue (reg : FifoReg) (v : Nat) : Nat :=
  match reg with
  | .baseLo => bitsOf v 31 5 * 32
  | .baseHi => bitsOf v 7 0
  | .cfg => bitsOf v 29 24 * 2 ^ 24 + clampNat (bitsOf v 4 0) 4 16

/-- A write to FIFO_BASE_LO, FIFO_BASE_HI or FIFO_CFG: accepted only while the ring is empty (R340). -/
def fifoConfigWrite (s : State) (f : Fin 14) (reg : FifoReg) (v : Word) : State :=
  if absentAt s.variant (fifoRegAddr f reg) then reply s .ok 0 []
  else if fifoCount s f = 0 then
    reply (wr s (fifoRegAddr f reg) (BitVec.ofNat 32 (fifoRegValue reg v.toNat))) .ok 0 []
  else reply (fset s (fldFIFO_STAT_DENIED f)) .ok 0 []

/-- FIFO_CONFIG_WRITE. -/
def execFifoConfigWrite (_agent : Agent) (f : FifoId) (reg : FifoReg) (value : Word) (s : State) :
    Host.Outcome State Fault Refusal :=
  .next (fifoConfigWrite s f reg value)

/-- FIFO_RECORD_PUSH. -/
def execFifoRecordPush (f : FifoId) (record : BitVec 256) (s : State) : Host.Outcome State Fault Refusal :=
  .next (fifoPush s f record)

/-- RING_WRITE_ERROR. -/
def execRingWriteError (f : FifoId) (record : BitVec 256) (s : State) : Host.Outcome State Fault Refusal :=
  .next (fifoRingError s f record)

end Machine
end Sys2Proof
end

