-- ==== Sys2Proof/Machine/HostLink.lean ====
section
/-! DEFINITION. The host-link block: ports and endpoints (R422 to R426), doorbells (R427), queue pairs and contexts (R429 to
R434), completions and MSI-X (R431), path loss (R446), and the event log (R435). -/

namespace Sys2Proof
namespace Machine

/-! ### Status codes (R444) -/

def stSuccess : Nat := 0x0000
def stInvalidOpcode : Nat := 0x0001
def stInvalidField : Nat := 0x0002
def stTagInUse : Nat := 0x0003
def stDataTransfer : Nat := 0x0004
def stAborted : Nat := 0x0005
def stPathLost : Nat := 0x0006
def stUnsupported : Nat := 0x0007
def stNotReady : Nat := 0x0008
def stQueueInvalid : Nat := 0x0009
def stPoisoned : Nat := 0x000A
def stLbaRange : Nat := 0x0100
def stUnwritten : Nat := 0x0101
def stWriteProtected : Nat := 0x0102
def stPointerMismatch : Nat := 0x0103
def stZoneFull : Nat := 0x0104
def stZoneOpenLimit : Nat := 0x0105
def stIndexFull : Nat := 0x0106
def stWriteFault : Nat := 0x0107
def stUnrecovered : Nat := 0x0200
def stCopyMismatch : Nat := 0x0201
def stNoMedium : Nat := 0x0202
def stMediumFormat : Nat := 0x0203
def stSessionRequired : Nat := 0x0300
def stKeyMismatch : Nat := 0x0301
def stSessionLocked : Nat := 0x0302
def stInProgress : Nat := 0x0303
def stObjectNotFound : Nat := 0x0400
def stObjectExists : Nat := 0x0401
def stFixityMismatch : Nat := 0x0402
def stCatalogueFull : Nat := 0x0403
def stCrossingReset : Nat := 0x0500
def stPermitDenied : Nat := 0x0501
def stAbsentUnit : Nat := 0x0502

/-- The counter of a status code: 455 and up in the order of R444 (R552). -/
def statusCounter (code : Nat) : Nat :=
  455 + (code % 256) + (match code / 256 with | 0 => 0 | 1 => 11 | 2 => 19 | 3 => 23 | 4 => 27 | _ => 31)

/-- Codes of R444. -/
def statusKnown (code : Nat) : Bool :=
  decide (code % 256 < [11, 8, 4, 4, 4, 3].getD (code / 256) 0)

/-- Count a status code that is produced (R552). -/
def countStatus (s : State) (code : Nat) : State := countIf s (statusKnown code) (statusCounter code)

/-- The counter of a fetched command: 431 and up in the order of R435, R457 and R467 (R552). -/
def opcodeCounter (op : Nat) : Option Nat :=
  (([0x01, 0x02, 0x03, 0x04, 0x05, 0x06, 0x10, 0x11, 0x12, 0x13, 0x14, 0x15, 0x16, 0x20, 0x21, 0x22, 0x23,
     0x30, 0x31, 0x32, 0x33, 0x34, 0x35, 0x36] : List Nat).findIdx? (· = op)).map (431 + ·)

/-! ### The block's state -/

def modHost (s : State) (f : HostBlk → HostBlk) : State := { s with host := f s.host }

/-- Send something to a host. -/
def hostSend (s : State) (o : HostOut) : State := modHost s (fun h => { h with out := h.out ++ [o] })

/-- The queue pair of a port with a number. -/
def qpFind (s : State) (p q : Nat) : Option Qpair := s.host.qps.find? (fun x => x.port == p && x.num == q)

/-- Change a queue pair. -/
def qpMod (s : State) (p q : Nat) (f : Qpair → Qpair) : State :=
  modHost s (fun h => { h with qps := h.qps.map (fun x => if x.port = p ∧ x.num = q then f x else x) })

/-- The context with a number. -/
def ctxFind (s : State) (n : Nat) : Option HostCtx := s.host.ctxs.find? (fun c => c.num == n)

/-- Change a context. -/
def ctxMod (s : State) (n : Nat) (f : HostCtx → HostCtx) : State :=
  modHost s (fun h => { h with ctxs := h.ctxs.map (fun c => if c.num = n then f c else c) })

/-- A field of a submission entry: n bytes from an offset, little-endian (R430). -/
def entryNum (e : List Byte) (off n : Nat) : Nat := leNat ((e.drop off).take n)

def ctxOpcode (c : HostCtx) : Nat := entryNum c.entry 0 1
def ctxFlags (c : HostCtx) : Nat := entryNum c.entry 1 1
def ctxTag (c : HostCtx) : Nat := entryNum c.entry 2 2
def ctxSession (c : HostCtx) : Nat := entryNum c.entry 4 4
def ctxLba (c : HostCtx) : Nat := entryNum c.entry 24 8
def ctxCount (c : HostCtx) : Nat := entryNum c.entry 32 4
def ctxOrdered (c : HostCtx) : Bool := (ctxFlags c).testBit 0
def ctxFua (c : HostCtx) : Bool := (ctxFlags c).testBit 1

/-- Bytes that a command's buffer holds. -/
def ctxLen (c : HostCtx) : Nat := c.segs.foldl (fun n g => n + g.2) 0

/-- The depth of the ingress buffer of a port (R46, R428: 48 credits and 31 entries). -/
def ingressDepth : Nat := 79

/-- Entries of 64 bytes in a port's ingress buffer: the data of its writes that is under way, as far as the depth goes (R46;
DESIGN CHOICE, log 102). -/
def ingressOf (s : State) (p : Nat) : Nat :=
  Nat.min ingressDepth ((s.host.ctxs.filter (fun c =>
    c.port == p && c.begun && !c.accepted && c.done.isNone && (ctxOpcode c == 0x11 || ctxOpcode c == 0x12))).foldl
      (fun n c => n + (ctxLen c + 63) / 64) 0)

/-- Take up what the ingress buffers hold now. -/
def ingressShow (s : State) : State := modHost s (fun h => { h with ingress := (ingressOf s 0, ingressOf s 1) })

/-- Show how many contexts are held, and what the ingress buffers hold. -/
def ctxShow (s : State) : State := fput (ingressShow s) fldHOST_CTX_IN_USE s.host.ctxs.length

/-- The LINK register fields of a port. -/
def linkState (s : State) (p : Nat) : Nat := fget s (if p = 0 then fldHOST_LINK0_STATE else fldHOST_LINK1_STATE)

def putLink (s : State) (p st gen lanes : Nat) : State :=
  let up (t : State) : State := fputB t (if p = 0 then fldHOST_STAT_LINK0 else fldHOST_STAT_LINK1) (st == 2 || st == 3)
  if p = 0 then up (fput (fput (fput s fldHOST_LINK0_STATE st) fldHOST_LINK0_GEN gen) fldHOST_LINK0_LANES lanes)
  else up (fput (fput (fput s fldHOST_LINK1_STATE st) fldHOST_LINK1_GEN gen) fldHOST_LINK1_LANES lanes)

def portEnabled (s : State) (p : Nat) : Bool := fbit s (if p = 0 then fldHOST_CTL_PORT0_EN else fldHOST_CTL_PORT1_EN)

/-- OSTS.RDY: 1 while EN and HOST_CTL.READY are, unless the island holds it back after a wake (R426, R494). -/
def showReady (s : State) : State :=
  forEach [0, 1] s (fun t p =>
    if portPresent t.variant p then
      fputB t (fldOSTS_RDY p) (fbit t (fldOCFG_EN p) && fbit t fldHOST_CTL_READY && !t.host.rdyHold)
    else t)

/-! ### MSI-X (R426, R431) -/

/-- Whether a vector of a port is masked: bit 0 of its fourth table word, 1 at reset.  PRESUMED, log 16. -/
def vectorMasked (s : State) (p v : Nat) : Bool :=
  (((aget? s.host.msixTab (256 * p + 4 * v + 3)).getD 1).toNat).testBit 0

/-- Send a vector, or mark it pending while it is masked. -/
def msixSend (s : State) (p v : Nat) : State :=
  if vectorMasked s p v then modHost s (fun h => { h with msixPend := addOnce h.msixPend (64 * p + v) })
  else hostSend s (.msix p v)

/-- A write of the MSI-X table: an unmasked pending vector is sent. -/
def msixWrite (s : State) (p i : Nat) (v : Word) : State :=
  let s1 := modHost s (fun h => { h with msixTab := aset h.msixTab (256 * p + i) v })
  if i % 4 = 3 ∧ ¬ vectorMasked s1 p (i / 4) ∧ s1.host.msixPend.contains (64 * p + i / 4) then
    hostSend (modHost s1 (fun h => { h with msixPend := h.msixPend.filter (· ≠ 64 * p + i / 4) })) (.msix p (i / 4))
  else s1

/-! ### Completions (R431, R433) -/

/-- Whether a completion queue has no place. -/
def cqFull (q : Qpair) : Bool := (q.cqTail + 1) % q.cqSize == q.cqHead

/-- The 16 bytes of a completion entry (R431). -/
def cplBytes (result sqHead tag status : Nat) (phase : Bool) (qp : Nat) : List Byte :=
  natLe 8 result ++ natLe 2 sqHead ++ natLe 2 tag ++ natLe 2 (status % 2 ^ 15 + phase.toNat * 2 ^ 15) ++ natLe 2 qp

/-- Post a context's completion and free it; then the vector, at once or after COAL. -/
def cplPost (s : State) (q : Qpair) (c : HostCtx) (status result : Nat) : State :=
  let s1 := hostSend s (.completion q.port (q.cqBase + 16 * q.cqTail) (cplBytes result c.sqHead (ctxTag c) status q.phase q.num))
  let wrap := q.cqTail + 1 == q.cqSize
  let s2 := qpMod s1 q.port q.num (fun x =>
    { x with
      cqTail := if wrap then 0 else x.cqTail + 1
      phase := if wrap then !x.phase else x.phase
      held := x.held.filter (· ≠ c.num)
      unsig := if x.coal = 0 then none else some (x.unsig.getD s.chipTime) })
  let s3 := ctxShow (modHost s2 (fun h => { h with ctxs := h.ctxs.filter (fun x => x.num != c.num) }))
  if q.coal = 0 then msixSend s3 q.port q.vector else s3

/-- Give a context its completion; it waits for a place in the queue behind those that already wait. -/
def cplHold (s : State) (n status result : Nat) : State :=
  match ctxFind s n with
  | none => s
  | some c =>
    if c.done.isSome then s
    else
      qpMod (ctxMod (countStatus s status) n (fun x => { x with done := some (status, result % 2 ^ 64) })) c.port c.qp
        (fun q => { q with held := q.held ++ [n] })

/-- Delete a queue pair: it returns to the pool. -/
def qpDelete (s : State) (p q : Nat) : State :=
  modHost s (fun h => { h with qps := h.qps.filter (fun x => !(x.port == p && x.num == q)) })

/-- A queue pair whose first held completion can be posted. -/
def cplReady (s : State) : Option (Qpair × HostCtx × Nat × Nat) :=
  s.host.qps.findSome? (fun q =>
    match q.held with
    | n :: _ =>
      if cqFull q then none
      else match ctxFind s n with
        | some c => c.done.map (fun d => (q, c, d.1, d.2))
        | none => none
    | [] => none)

/-- An ABORT whose target has been posted, with its outcome (R443). -/
def abortReady (s : State) : Option HostCtx :=
  s.host.ctxs.find? (fun c => match c.waitFor with
    | some n => c.done.isNone && (ctxFind s (n % 4096)).isNone
    | none => false)

/-- A queue pair that waits to be deleted and holds no command (R435). -/
def deleteReady (s : State) : Option Qpair :=
  s.host.qps.find? (fun q => q.deleting.isSome && s.host.ctxs.all (fun c => !(c.port == q.port && c.qp == q.num)))

/-- What follows from a completion: entries are posted, waiting ABORT and DELETE_QP commands complete. -/
def hostSettle (fuel : Nat) (s : State) : State :=
  match fuel with
  | 0 => s
  | fuel + 1 =>
    match cplReady s with
    | some (q, c, st, r) => hostSettle fuel (cplPost s q c st r)
    | none =>
      match abortReady s with
      | some c => hostSettle fuel (cplHold (ctxMod s c.num (fun x => { x with waitFor := none })) c.num stSuccess ((c.waitFor.getD 0) / 4096))
      | none =>
        match deleteReady s with
        | some q => hostSettle fuel (cplHold (qpDelete s q.port q.num) (q.deleting.getD 0) stSuccess 0)
        | none => s

/-- Let completions go as far as the queues have places. -/
def hostRun (s : State) : State := hostSettle (3 * s.host.ctxs.length + 1) s

/-- Complete a context. -/
def hostComplete (s : State) (n status result : Nat) : State := hostRun (cplHold s n status result)

/-- The address of a context in staging memory: 128 bytes each from HOST_QP_BASE + 0x1_0000 (R451). -/
def ctxAddr (s : State) (n : Nat) : Nat := fget s fldHOST_QP_BASE_BASE * 4096 + 0x10000 + 128 * n

/-- The RESULT that firmware wrote to a context: bytes 64 to 71 of it, the place being DESIGN CHOICE, log 17; free words where
the read ends with a bus error. -/
def ctxResult (s : State) (n : Nat) : State × Nat :=
  match memRead s 3 (ctxAddr s n + 64) 8 with
  | (t, some (bs, _)) => (t, leNat bs)
  | (t, none) => (tickFrees t 2, freeNat s 2)

/-- A write of HOST_CPL: it completes a context, or sets CPL_BAD for a free one (R434). -/
def hostCpl (s : State) (n status : Nat) : State :=
  match ctxFind s n with
  | none => fset s fldHOST_STAT_CPL_BAD
  | some c =>
    if c.done.isSome then fset s fldHOST_STAT_CPL_BAD
    else
      let (t, r) := ctxResult s n
      hostComplete t n status r

/-- HOST_CPL. -/
def execHostCpl (_agent : Agent) (ctx : Fin 4096) (status : BitVec 15) (s : State) : Host.Outcome State Fault Refusal :=
  .next (reply (hostCpl s ctx.val status.toNat) .ok 0 [])

/-- COAL µs after the first unsignalled entry the vector is sent (R431). -/
def coalesceExpire (s : State) (p q : Nat) : State :=
  match qpFind s p q with
  | some x => if x.unsig.isSome then msixSend (qpMod s p q (fun x => { x with unsig := none })) p x.vector else s
  | none => s

/-- MSIX_COALESCE_EXPIRE. -/
def execMsixCoalesceExpire (port : Port) (q : Fin 512) (s : State) : Host.Outcome State Fault Refusal :=
  .next (coalesceExpire s port.val q.val)

/-! ### Events (R435) -/

/-- EVENT_WAIT commands that are held. -/
def eventWaits (s : State) : List HostCtx :=
  s.host.ctxs.filter (fun c => c.begun && ctxOpcode c == 0x06 && c.done.isNone)

/-- An event is logged: every EVENT_WAIT that is held completes with its code. -/
def eventLog (s : State) (code oid : Nat) : State :=
  let s1 := modHost s (fun h => { h with events := h.events ++ [⟨code, oid, s.chipTime⟩] })
  forEach (eventWaits s) s1 (fun t c => hostComplete t c.num stSuccess code)

/-- EVENT_LOGGED. -/
def execEventLogged (code : BitVec 16) (oid : BitVec 128) (s : State) : Host.Outcome State Fault Refusal :=
  .next (eventLog s code.toNat oid.toNat)

/-! ### Doorbells (R427) -/

/-- A doorbell of a queue that does not exist: DB_BAD, and an event whose code the spec does not give. -/
def doorbellBad (s : State) : State :=
  eventLog (fset (tickFree s) fldHOST_STAT_DB_BAD) ((Config.freeWord s.freeCtr).toNat % 2 ^ 16) 0

/-- A queue pair is put in error. -/
def qpError (s : State) (p q : Nat) : State :=
  fset (fset (qpMod s p q (fun x => { x with error := true })) fldHOST_STAT_DB_BAD) fldHOST_STAT_QP_ERROR

/-- A submission tail doorbell: the latest value counts. -/
def tailDoorbell (s : State) (p q v : Nat) : State :=
  let s1 := count s 489
  match qpFind s p q with
  | none => doorbellBad s1
  | some x => if v < x.sqSize then qpMod s1 p q (fun x => { x with sqTail := v }) else qpError s1 p q

/-- SQ_TAIL_DOORBELL. -/
def execSqTailDoorbell (port : Port) (q : Fin 512) (tail : BitVec 32) (s : State) : Host.Outcome State Fault Refusal :=
  .next (if portPresent s.variant port.val then tailDoorbell s port.val q.val tail.toNat else s)

/-- A completion head doorbell: it may release only entries that have been posted; completions held back then post. -/
def headDoorbell (s : State) (p q v : Nat) : State :=
  let s1 := count s 489
  match qpFind s p q with
  | none => doorbellBad s1
  | some x =>
    let posted := (x.cqTail + x.cqSize - x.cqHead) % x.cqSize
    let released := (v + x.cqSize - x.cqHead) % x.cqSize
    if v < x.cqSize ∧ released ≤ posted then hostRun (qpMod s1 p q (fun x => { x with cqHead := v }))
    else qpError s1 p q

/-- CQ_HEAD_DOORBELL. -/
def execCqHeadDoorbell (port : Port) (q : Fin 512) (head : BitVec 32) (s : State) : Host.Outcome State Fault Refusal :=
  .next (if portPresent s.variant port.val then headDoorbell s port.val q.val head.toNat else s)

/-! ### Fetching (R432, R433, R434) -/

/-- Whether a port's endpoint takes part: link up, EN at 1. -/
def portUp (s : State) (p : Nat) : Bool :=
  portPresent s.variant p && (linkState s p == 2 || linkState s p == 3) && fbit s (fldOCFG_EN p)

/-- Whether a queue pair has an entry to fetch and may take a context.  While SANITISE waits no I/O command is fetched
(R471). -/
def qpFetches (s : State) (q : Qpair) : Bool :=
  portUp s q.port && !q.error && q.deleting.isNone && q.sqHead != q.sqTail &&
    decide ((s.host.ctxs.filter (fun c => c.port == q.port && c.qp == q.num)).length < q.ctxLimit) &&
    (q.num == 0 || s.arv.sanWait.isNone)

/-- The queue pairs that the fetcher may choose from: a management queue takes precedence in its port. -/
def fetchable (s : State) : List Qpair :=
  let l := s.host.qps.filter (qpFetches s)
  l.filter (fun q => q.num == 0 || !(l.any (fun m => m.num == 0 && m.port == q.port)))

def qpKey (q : Qpair) : Nat := 512 * q.port + q.num

/-- Weighted round robin: the queue whose turn it is up to its weight, else the next one by port and number (R27, R432). -/
def fetchPick (s : State) : Option (Qpair × Nat) :=
  let l := fetchable s
  match l.find? (fun q => qpKey q == s.host.turn && decide (s.host.used < q.weight)) with
  | some q => some (q, s.host.used + 1)
  | none =>
    let next (b : Nat → Bool) : Option Qpair := (l.filter (fun q => b (qpKey q))).foldl
      (fun m q => match m with | some x => if qpKey q < qpKey x then some q else some x | none => some q) none
    match next (fun k => decide (s.host.turn < k)) with
    | some q => some (q, 1)
    | none => (next (fun _ => true)).map (fun q => (q, 1))

/-- Whether an opcode belongs to a management queue, to an I/O queue, or is unlisted (R435, R457, R467). -/
def opcodeFits (op q : Nat) : Bool :=
  if q = 0 then (decide (1 ≤ op) && decide (op ≤ 6)) || (decide (0x30 ≤ op) && decide (op ≤ 0x36))
  else (decide (0x10 ≤ op) && decide (op ≤ 0x16)) || (decide (0x20 ≤ op) && decide (op ≤ 0x23))

/-- The pieces of a buffer: one, or those of a scatter list; none where a field is illegal (R430). -/
def bufferSegs (entry list : List Byte) : Option (List (Nat × Nat)) :=
  let mode := entryNum entry 1 1 / 4 % 4
  let addr := entryNum entry 8 8
  let len := entryNum entry 16 4
  if entryNum entry 1 1 / 16 ≠ 0 ∨ entryNum entry 20 4 ≠ 0 then none
  else if mode = 0 then some []
  else if mode = 3 ∨ addr % 4 ≠ 0 then none
  else if mode = 1 then some [(addr, len)]
  else if len = 0 ∨ 4096 < len then none
  else
    let els := (List.range len).map (fun i => (list.drop (16 * i)).take 16)
    if els.all (fun e => entryNum e 8 4 % 4 == 0 && entryNum e 8 4 != 0 && entryNum e 12 4 == 0 && e.length == 16) then
      some (els.map (fun e => (entryNum e 0 8, entryNum e 8 4)))
    else none

/-- The bytes of PARAM that a command uses, as offset and length (R435, R457, R467). -/
def paramUsed (op : Nat) : List (Nat × Nat) :=
  match op with
  | 0x01 => [(36, 11), (48, 8)]
  | 0x02 => [(36, 2)]
  | 0x03 => [(36, 4)]
  | 0x05 => [(36, 1)]
  | 0x15 => [(36, 1)]
  | 0x20 => [(36, 21)]
  | 0x21 => [(36, 16), (56, 1)]
  | 0x22 => [(36, 16)]
  | 0x23 => [(36, 16)]
  | _ => []

/-- Commands that move no data. -/
def movesNone (op : Nat) : Bool := ([0x01, 0x02, 0x03, 0x06, 0x13, 0x15, 0x23, 0x31, 0x34, 0x35, 0x36] : List Nat).contains op

/-- Whether an entry has an illegal field that every command shares: a buffer that is none, a buffer of a command that moves no
data, SESSION outside the admin commands, PARAM where it is unused, and the LBA that LIST and AUDIT have at zero (R430, R457;
DEDUCED, log 117). -/
def fieldsBad (entry list : List Byte) : Bool :=
  let op := entryNum entry 0 1
  match bufferSegs entry list with
  | none => true
  | some g =>
    (movesNone op && g.any (fun x => x.2 != 0)) || (decide (op < 0x30) && entryNum entry 4 4 != 0) ||
      (decide (op = 0x22 ∨ op = 0x23) && entryNum entry 24 8 != 0) ||
      (List.range 28).any (fun i => entryNum entry (36 + i) 1 != 0 &&
        !((paramUsed op).any (fun u => decide (u.1 ≤ 36 + i) && decide (36 + i < u.1 + u.2))))

/-- The record of a command that passes its checks (R434). -/
def commandRecord (c : HostCtx) : BitVec 256 :=
  BitVec.ofNat 256 (c.num * 2 ^ 244 + c.port * 2 ^ 243 + c.qp * 2 ^ 234 + ctxTag c * 2 ^ 218 + ctxOpcode c * 2 ^ 210)

/-- The lowest context that is free. -/
def ctxFree (s : State) : Option Nat := (List.range 4096).find? (fun n => (ctxFind s n).isNone)

/-- An entry enters a context; its record goes to the command FIFO, or it completes at once (R433, R434, R435); where host memory
fails to give its scatter list it completes DATA_TRANSFER_ERROR. -/
def fetchEntry (s : State) (q : Qpair) (used n : Nat) (entry : List Byte) (scatter : Option (List Byte)) : State :=
  let list := scatter.getD []
  let head := (q.sqHead + 1) % q.sqSize
  let c : HostCtx := ⟨n, q.port, q.num, s.host.seq, entry, (bufferSegs entry list).getD [], head, false, false, none, s.disc.accSeq, none, 0, 0⟩
  let dup := s.host.ctxs.any (fun x => x.port == q.port && x.qp == q.num && ctxTag x == ctxTag c)
  let s1 := modHost (qpMod s q.port q.num (fun x => { x with sqHead := head })) (fun h =>
    { h with ctxs := h.ctxs ++ [c], seq := h.seq + 1, turn := qpKey q, used := used })
  let s2 := ctxShow (count s1 490)
  let s3 := match opcodeCounter (ctxOpcode c) with | some k => count s2 k | none => s2
  let s4 := memWriteD s3 3 (ctxAddr s3 n) (entry ++ List.replicate 64 0)
  if dup then hostComplete s4 n stTagInUse 0
  else if ¬ opcodeFits (ctxOpcode c) q.num then hostComplete s4 n stInvalidOpcode 0
  else if entryNum entry 1 1 / 4 % 4 = 2 ∧ scatter.isNone then hostComplete (fset s4 fldHOST_STAT_DMA_ERR) n stDataTransfer 0
  else if fieldsBad entry list then hostComplete s4 n stInvalidField 0
  else fifoPush s4 12 (commandRecord c)

/-- The block fetches the next entry; a host memory error sets DMA_ERR; with every allowed context in use it sets
CTX_EXHAUSTED (R432). -/
def commandFetch (s : State) (entry list : Option (List Byte)) : State :=
  if !(fbit s fldHOST_CTL_FETCH_EN) then s
  else match fetchPick s with
  | none => s
  | some (q, used) =>
    if clampNat (fget s fldHOST_CTX_MAX) 1 4096 ≤ s.host.ctxs.length then fset s fldHOST_STAT_CTX_EXHAUSTED
    else match entry, ctxFree s with
    | some e, some n => fetchEntry s q used n (e.take 64 ++ List.replicate (64 - e.length) 0) list
    | none, _ => fset s fldHOST_STAT_DMA_ERR
    | _, none => s

/-- COMMAND_FETCH. -/
def execCommandFetch (entry list : Option (List (BitVec 8))) (s : State) : Host.Outcome State Fault Refusal :=
  .next (commandFetch s entry list)

/-! ### Running a command -/

/-- Whether an ORDERED command still has earlier commands of its queue before it (R441). -/
def orderBlocked (s : State) (c : HostCtx) : Bool :=
  ctxOrdered c && s.host.ctxs.any (fun x => x.port == c.port && x.qp == c.qp && decide (x.seq < c.seq))

/-- Run a meaning for the command that a context holds, if it holds that opcode and has not completed. -/
def hostCmd (s : State) (n : Nat) (op : Nat) (f : State → HostCtx → State) : State :=
  match ctxFind s n with
  | none => s
  | some c =>
    if ctxOpcode c = op ∧ c.done.isNone ∧ c.waitFor.isNone ∧ ¬ orderBlocked s c then
      f (ctxMod s n (fun x => { x with begun := true })) c
    else s

/-- Cut bytes over the pieces of a buffer. -/
def overSegs (segs : List (Nat × Nat)) (bs : List Byte) : List (Nat × List Byte) :=
  match segs with
  | [] => []
  | (a, n) :: t => if bs.isEmpty then [] else (a, bs.take n) :: overSegs t (bs.drop n)

/-- The pieces of a buffer past its first n bytes. -/
def segsPast (segs : List (Nat × Nat)) (n : Nat) : List (Nat × Nat) :=
  match segs with
  | [] => []
  | (a, k) :: t => if k ≤ n then segsPast t (n - k) else (a + n, k - n) :: t

/-- Move bytes to a command's buffer. -/
def sendData (s : State) (c : HostCtx) (bs : List Byte) : State :=
  forEach (overSegs c.segs bs) s (fun t p => hostSend t (.data c.port p.1 p.2))

/-- Send a report to a command's buffer. -/
def sendReport (s : State) (c : HostCtx) (fields : List Nat) : State :=
  hostSend s (.report c.port ((c.segs.head?.map (·.1)).getD 0) fields)

/-! ### Queue commands (R435, R443) -/

/-- CREATE_QP. -/
def createQp (s : State) (c : HostCtx) : State :=
  let e (off n : Nat) : Nat := entryNum c.entry off n
  let q := e 36 2
  let cfgBad := decide (63 < e 42 1) || decide (e 43 1 < 1) || decide (16 < e 43 1) || decide (e 44 2 < 1) || decide (4096 < e 44 2) || decide (511 < q)
  if cfgBad then hostComplete s c.num stInvalidField 0
  else if (qpFind s c.port q).isSome ∨ q = 0 ∨ 512 ≤ s.host.qps.length ∨ e 38 2 = 0 ∨ e 40 2 = 0 ∨ e 8 8 % 4096 ≠ 0 ∨ e 48 8 % 4096 ≠ 0 then
    hostComplete s c.num stQueueInvalid 0
  else
    let x : Qpair := ⟨c.port, q, e 8 8, e 48 8, e 38 2 + 1, e 40 2 + 1, e 42 1, e 43 1, e 44 2, e 46 1, 0, 0, 0, 0, true, false, [], none, none⟩
    hostComplete (modHost s (fun h => { h with qps := h.qps ++ [x] })) c.num stSuccess 0

def execCreateQp (ctx : Fin 4096) (s : State) : Host.Outcome State Fault Refusal := .next (hostCmd s ctx.val 0x01 createQp)

/-- DELETE_QP: it completes after every command of the pair has. -/
def deleteQp (s : State) (c : HostCtx) : State :=
  let q := entryNum c.entry 36 2
  match qpFind s c.port q with
  | none => hostComplete s c.num stInvalidField 0
  | some x =>
    if q = 0 ∨ x.deleting.isSome then hostComplete s c.num stInvalidField 0
    else hostRun (qpMod s c.port q (fun x => { x with deleting := some c.num }))

def execDeleteQp (ctx : Fin 4096) (s : State) : Host.Outcome State Fault Refusal := .next (hostCmd s ctx.val 0x02 deleteQp)

/-- Whether an ABORT catches a command: a write not yet accepted, a READ, or a command not yet begun (R443). -/
def abortCatches (t : HostCtx) : Bool :=
  t.done.isNone && !t.accepted && (!t.begun || ctxOpcode t == 0x10 || ctxOpcode t == 0x11 || ctxOpcode t == 0x12)

/-- ABORT: the target's completion is posted before its own.  `waitFor` is the target plus 4,096 times the outcome. -/
def abortCmd (s : State) (c : HostCtx) : State :=
  let q := entryNum c.entry 36 2
  if q = 0 then hostComplete s c.num stInvalidField 0
  else match s.host.ctxs.find? (fun x => x.port == c.port && x.qp == q && ctxTag x == entryNum c.entry 38 2) with
  | none => hostComplete s c.num stSuccess 2
  | some t =>
    if abortCatches t then
      hostRun (ctxMod (cplHold s t.num stAborted 0) c.num (fun x => { x with waitFor := some t.num }))
    else hostRun (ctxMod s c.num (fun x => { x with waitFor := some (t.num + 4096) }))

def execAbort (ctx : Fin 4096) (s : State) : Host.Outcome State Fault Refusal := .next (hostCmd s ctx.val 0x03 abortCmd)

/-- IDENTIFY: 4,096 bytes, the offsets of whose fields the spec does not give: variant, ports present, queue pairs free,
contexts, block size, largest COUNT, disc presence, layers per side, host zones, serial number. -/
def identify (s : State) (c : HostCtx) : State :=
  if ctxLen c ≠ 4096 then hostComplete s c.num stInvalidField 0
  else
    let ports := if portPresent s.variant 1 then 2 else 1
    hostComplete (sendReport s c [cap0 s.variant % 16, ports, 512 - s.host.qps.length, 4096, 4096, 8192, s.disc.present.toNat,
      s.disc.layers, 24 * s.disc.layers, s.disc.serial]) c.num stSuccess 0

def execIdentify (ctx : Fin 4096) (s : State) : Host.Outcome State Fault Refusal := .next (hostCmd s ctx.val 0x04 identify)

/-- The last entries of a log that fill a page of 4,096 bytes at 32 bytes each; the size of an event's entry is DESIGN
CHOICE, log 18. -/
def lastPage {α : Type} (l : List α) : List α := l.drop (l.length - 128)

/-- GET_LOG of a page; an unlisted page is INVALID_FIELD (R435, R446). -/
def getLog (s : State) (c : HostCtx) : State :=
  if ctxLen c ≠ 4096 then hostComplete s c.num stInvalidField 0
  else match entryNum c.entry 36 1 with
  | 1 =>
    let l := lastPage s.host.events
    hostComplete (sendReport s c (l.flatMap (fun e => [e.code, e.oid, e.time.toNat]))) c.num stSuccess l.length
  | 2 =>
    let l := lastPage s.host.pathLog
    hostComplete (sendReport s c (l.flatMap (fun e => [e.port, e.qp, e.tag, e.status, e.lba]))) c.num stSuccess l.length
  | _ => hostComplete s c.num stInvalidField 0

/-- Byte 36 of the entry that a context holds. -/
def ctxByte36 (s : State) (n : Nat) : Nat :=
  match ctxFind s n with
  | some c => entryNum c.entry 36 1
  | none => 0

/-- GET_LOG_EVENTS: page 0x01, and the pages that do not exist. -/
def execGetLogEvents (ctx : Fin 4096) (s : State) : Host.Outcome State Fault Refusal :=
  .next (if ctxByte36 s ctx.val = 2 then s else hostCmd s ctx.val 0x05 getLog)

/-- GET_LOG_PATH: page 0x02. -/
def execGetLogPath (ctx : Fin 4096) (s : State) : Host.Outcome State Fault Refusal :=
  .next (if ctxByte36 s ctx.val = 2 then hostCmd s ctx.val 0x05 getLog else s)

/-- EVENT_WAIT: held, at most 4 on a port; a fifth completes INVALID_FIELD. -/
def eventWait (s : State) (c : HostCtx) : State :=
  if c.begun then s
  else if 4 < ((eventWaits s).filter (fun x => x.port == c.port)).length then hostComplete s c.num stInvalidField 0
  else s

def execEventWait (ctx : Fin 4096) (s : State) : Host.Outcome State Fault Refusal := .next (hostCmd s ctx.val 0x06 eventWait)

/-! ### Ports (R422, R426, R446) -/

/-- A port's link trains and comes up; it trains only while PORTn_EN is 1 (R422, R502).  A link that is up enters a low-power
state (CL0s or CL1) or comes up from one; the path stays. -/
def linkUp (s : State) (p : Nat) (gen3 low : Bool) : State :=
  if !(portPresent s.variant p && portEnabled s p) then s
  else if linkState s p = 1 then putLink s p 2 (if gen3 then 3 else 2) 2
  else if linkState s p = 2 ∨ linkState s p = 3 then
    fput s (if p = 0 then fldHOST_LINK0_STATE else fldHOST_LINK1_STATE) (if low then 3 else 2)
  else s

/-- LINK_UP. -/
def execLinkUp (port : Port) (mode : LinkMode) (s : State) : Host.Outcome State Fault Refusal :=
  .next (linkUp s port.val mode.gen3 mode.low)

/-- Close the admin sessions that a condition picks (R468). -/
def sessionsClose (s : State) (f : Session → Bool) : State :=
  let left := s.arv.sessions.filter (fun x => !(f x))
  fput { s with arv := { s.arv with sessions := left } } fldKEY_STAT_SESSIONS left.length

/-- What a port's path log records of a context. -/
def pathEntry (c : HostCtx) : PathEntry :=
  ⟨c.port, c.qp, ctxTag c, (c.done.map (·.1)).getD (if c.accepted then stSuccess else stPathLost), ctxLba c⟩

/-- A number that no context has. -/
def ctxNone : Nat := 4096

/-- A port loses its path: its contexts end and are logged, its queue pairs return to the pool, its sessions close
(R446, R468); what waits for one of its contexts goes on without it. -/
def pathLoss (s : State) (p : Nat) : State :=
  if !(portPresent s.variant p) then s
  else
    let mine := s.host.ctxs.filter (fun c => c.port == p)
    let log := s.host.pathLog ++ mine.map pathEntry
    let s1 := modHost s (fun h =>
      { h with
        ctxs := h.ctxs.filter (fun c => c.port != p)
        qps := h.qps.filter (fun q => q.port != p)
        pathLog := log.drop (log.length - 1024) })
    let ended := mine.filter (fun c => c.done.isNone && !c.accepted)
    let s2 := forEach ended (fset (ctxShow s1) (if p = 0 then fldHOST_STAT_PATH_LOST0 else fldHOST_STAT_PATH_LOST1))
      (fun t _ => countStatus t stPathLost)
    let gone (n : Option Nat) : Option Nat := n.filter (fun k => !(mine.any (fun c => c.num == k)))
    let s3 := { s2 with arv := { s2.arv with
      sanWait := gone s2.arv.sanWait
      opCtx := gone s2.arv.opCtx
      waiting := s2.arv.waiting.map (fun k => (gone (some k)).getD ctxNone)
      audits := s2.arv.audits.map (fun a => { a with ctx := a.ctx.bind (fun k => gone (some k)) }) } }
    hostRun (sessionsClose (count s3 (491 + p)) (fun x => x.port == p))

/-- A port's link leaves the up state and, while the port is enabled, trains again; the path is lost. -/
def linkDown (s : State) (p : Nat) : State :=
  if linkState s p = 2 ∨ linkState s p = 3 then pathLoss (putLink s p (if portEnabled s p then 1 else 0) 0 0) p else s

/-- PATH_LOSS: the link leaves the up state. -/
def execPathLoss (port : Port) (s : State) : Host.Outcome State Fault Refusal := .next (linkDown s port.val)

/-- The endpoint's registers at their reset values (R425, R426). -/
def endpointReset (s : State) (p : Nat) : State :=
  showReady (modHost (forEach [regOCFG p, regOMQA p, regOMSQ_LO p, regOMSQ_HI p, regOMCQ_LO p, regOMCQ_HI p] s (fun t a => wr t a 0))
    (fun h =>
      { h with
        msixTab := h.msixTab.filter (fun e => e.1 / 256 != p)
        msixPend := h.msixPend.filter (fun v => v / 64 != p) }))

/-- FUNCTION_RESET: the endpoint resets and its path is lost. -/
def execFunctionReset (port : Port) (s : State) : Host.Outcome State Fault Refusal :=
  .next (if portPresent s.variant port.val then endpointReset (pathLoss s port.val) port.val else s)

/-- Base of a management queue from its two registers: bits [11:0] are taken as zero. -/
def mgmtBase (s : State) (lo hi : Nat) : Nat := ((rd s hi).toNat * 2 ^ 32 + (rd s lo).toNat) / 4096 * 4096

/-- The management queue pair that the host has set up: number 0 of its port (R429). -/
def mgmtPair (s : State) (p : Nat) : Qpair :=
  ⟨p, 0, mgmtBase s (regOMSQ_LO p) (regOMSQ_HI p), mgmtBase s (regOMCQ_LO p) (regOMCQ_HI p),
   Nat.max 1 (fget s (fldOMQA_MSQS p)) + 1, Nat.max 1 (fget s (fldOMQA_MCQS p)) + 1, 0, 1, 4096, 0, 0, 0, 0, 0, true, false, [], none, none⟩

/-- The host writes OCFG.EN: 1 brings the management pair up, 0 after 1 loses the path (R426, R446). -/
def ocfgWrite (s : State) (p : Nat) (en : Bool) : State :=
  if !(portPresent s.variant p) then s
  else if en then
    if fbit s (fldOCFG_EN p) then s
    else
      let s1 := fset s (fldOCFG_EN p)
      showReady (if s1.host.qps.length < 512 then modHost s1 (fun h => { h with qps := h.qps ++ [mgmtPair s1 p] }) else s1)
  else if fbit s (fldOCFG_EN p) then showReady (pathLoss (fclr s (fldOCFG_EN p)) p)
  else s

/-- OCFG_ENABLE_WRITE. -/
def execOcfgEnableWrite (port : Port) (en : Bool) (s : State) : Host.Outcome State Fault Refusal :=
  .next (ocfgWrite s port.val en)

end Machine
end Sys2Proof
end

