-- ==== Sys2Proof/Machine/Drive.lean ====
section
/-! DEFINITION. The drive that a host sees: host zones and where their blocks lie (R436 to R439), the Street Index (R447),
what gates an I/O command (R453, R454, R466, R471, R472), and accepting and reading blocks (R440, R441, R464). -/

namespace Sys2Proof
namespace Machine

def modDisc (s : State) (f : Disc → Disc) : State := { s with disc := f s.disc }
def modArv (s : State) (f : Archive → Archive) : State := { s with arv := f s.arv }

/-! ### Where blocks lie (R436, R437) -/

/-- Blocks from one host zone's start to the next. -/
def zoneBlocks : Nat := 2 ^ 23

/-- Host zones of the disc: 24 for every layer. -/
def zoneCount (s : State) : Nat := 24 * s.disc.layers

/-- Bits of the SPAN and OBJECT masks (R454). -/
def zoneSpan (s : State) (n : Nat) : Bool := match s.disc.format with | some f => f.span.testBit n | none => false
def zoneObject (s : State) (n : Nat) : Bool := match s.disc.format with | some f => f.object.testBit n | none => false

/-- Tiles per band of a host zone. -/
def zoneTiles (n : Nat) : Nat := areaK (n % 24)

/-- Blocks that a host zone holds (R437). -/
def zoneCap (s : State) (n : Nat) : Nat :=
  if zoneSpan s n then 6 * 556 * 32 * zoneTiles n
  else 32 * zoneTiles n * 2226 * (if sideBPresent s.variant then 2 else 1)

/-- The heads of a set on the side of a head. -/
def setSideHeads (set h : Nat) : List Nat := (List.range 8).filter (fun x => set.testBit x && x / 4 == h / 4)

/-- The bands that a head owns: from, and how many. -/
def headBands (set h : Nat) : Nat × Nat :=
  let l := setSideHeads set h
  let r := l.findIdx (· = h)
  let lo := 2226 * r / Nat.max 1 l.length
  (lo, 2226 * (r + 1) / Nat.max 1 l.length - lo)

/-- The heads that take part in group g, in order. -/
def groupHeads (span : Bool) (set g : Nat) : List Nat :=
  if span then (if g < 556 then [0, 1, 2, 4, 5, 6] else [])
  else (List.range 8).filter (fun h => set.testBit h && decide (g < (headBands set h).2))

/-- The group of a zone's tile, and the tiles before it in the group. -/
def findGroup (span : Bool) (set k fuel g t : Nat) : Nat × Nat :=
  match fuel with
  | 0 => (g, t)
  | fuel + 1 =>
    let n := k * (groupHeads span set g).length
    if t < n ∨ n = 0 then (g, t) else findGroup span set k fuel (g + 1) (t - n)

/-- The PTA of tile t of a host zone, in its allocation order with a HEADS set (R437). -/
def zonePta (s : State) (n set t : Nat) : Nat :=
  let k := zoneTiles n
  let span := zoneSpan s n
  let (g, rem) := findGroup span set k 2300 0 t
  let h := (groupHeads span set g).getD (rem / k) 0
  let band := if span then 556 * (h % 4) + g else (headBands set h).1 + g
  ptaMake (h / 4) (n / 24) (n % 24) band (rem % k)

/-- The heads that take part in an allocation now: those online, or all eight for spans. -/
def allocHeads (s : State) (n : Nat) : Nat := if zoneSpan s n then 0xFF else fget s fldSWP_HEAD_ONLINE_ONLINE

/-! ### Zones (R438, R439) -/

def zoneOf (s : State) (n : Nat) : Zone := (aget? s.disc.zones n).getD ⟨0, 0, 0, []⟩
def modZone (s : State) (n : Nat) (f : Zone → Zone) : State :=
  modDisc s (fun d => { d with zones := aset d.zones n (f (zoneOf s n)) })

/-- Whether nothing can be written: a write-strategy family other than 0x01, or fewer than 16 free tiles in either
management copy (R438). -/
def discReadOnly (s : State) : Bool := s.disc.family != 1 || decide (s.disc.free.1 < 16) || decide (s.disc.free.2 < 16)

/-- The state of a zone: 4 is READ_ONLY. -/
def zoneState (s : State) (n : Nat) : Nat := if discReadOnly s then 4 else (zoneOf s n).st

def openZones (s : State) : Nat := ((List.range (zoneCount s)).filter (fun n => zoneState s n == 1)).length

/-- Pad the last tile: the write pointer moves to the next multiple of 32 blocks (R439). -/
def zonePad (s : State) (n : Nat) : State :=
  let z := zoneOf s n
  let up := (z.wp + 31) / 32 * 32
  if z.wp % 32 = 0 then s
  else modZone s n (fun z => { z with wp := up, pads := z.pads ++ [(z.wp, up)], st := if zoneCap s n ≤ up then 3 else z.st })

/-- What keeps a zone from being written or opened; none if it is OPEN or may be opened (R438). -/
def zoneBars (s : State) (n : Nat) : Option Nat :=
  match zoneState s n with
  | 4 => some stWriteProtected
  | 3 => some stZoneFull
  | 1 => none
  | _ => if openZones s < 8 then none else some stZoneOpenLimit

/-- Open a zone. -/
def zoneOpen (s : State) (n : Nat) : State := if (zoneOf s n).st = 1 then s else modZone s n (fun z => { z with st := 1 })

/-! ### The Street Index (R447, R448) -/

/-- The 32 bytes of an entry. -/
def siBytes (e : SiEntry) : List Byte :=
  natLe 8 e.lba ++ natLe 4 e.count ++ natLe 4 e.pta ++ natLe 2 e.hzone ++ natLe 1 e.sector ++ natLe 1 e.heads ++
    natLe 1 e.flags ++ List.replicate 11 0

/-- Write the records of a table that have changed to staging memory, for the walker's class. -/
def tableStore (s : State) (cls base size : Nat) (old new : List (List Byte)) : State :=
  forEach (List.range (Nat.max old.length new.length)) s (fun t i =>
    if old[i]? = new[i]? then t else memWriteD t cls (base + size * i) (new.getD i (List.replicate size 0)))

/-- A binary search of a table's records from `lo` below `hi`: each record it looks at is read through the Arcade for the walker's
class; `below` says whether a record's key is at most the one sought (R448; the middle it takes is DESIGN CHOICE, log 115). -/
def tableWalk (fuel : Nat) (s : State) (cls base size lo hi : Nat) (below : Nat → Bool) : State :=
  match fuel with
  | 0 => s
  | fuel + 1 =>
    if hi ≤ lo then s
    else
      let mid := (lo + hi) / 2
      let t := (memRead s cls (base + size * mid) size).1
      if below mid then tableWalk fuel t cls base size (mid + 1) hi below else tableWalk fuel t cls base size lo mid below

/-- A search by the on-chip summary of the first keys of blocks of 128 records: of the last block whose first key is at most
the one sought (R448, R455). -/
def tableSearch (s : State) (cls base size count : Nat) (below : Nat → Bool) : State :=
  match ((List.range ((count + 127) / 128)).filter (fun b => below (128 * b))).getLast? with
  | some b => tableWalk 8 s cls base size (128 * b) (Nat.min (128 * b + 128) count) below
  | none => s

/-- Replace the Street Index: it lies at HOST_SI_BASE; HOST_SI_CNT follows, and SI_NEAR_FULL sets when the count reaches the
threshold. -/
def siStore (s : State) (l : List SiEntry) : State :=
  let s1 := tableStore s 1 (fget s fldHOST_SI_BASE_BASE * 4096) 32 (s.disc.index.map siBytes) (l.map siBytes)
  let s2 := fput (modDisc s1 (fun d => { d with index := l })) fldHOST_SI_CNT_COUNT l.length
  if s.disc.index.length < l.length ∧ fget s fldHOST_SI_THR_THR ≤ l.length then fset s2 fldHOST_STAT_SI_NEAR_FULL else s2

/-- Put an entry in its place by LBA. -/
def siInsert (l : List SiEntry) (e : SiEntry) : List SiEntry := l.filter (fun x => x.lba < e.lba) ++ [e] ++ l.filter (fun x => e.lba < x.lba)

/-- The last entry of a zone that new blocks may extend: it ends where they begin, has the same HEADS and no re-placed
tile. -/
def siTail (s : State) (n lba heads : Nat) : Option SiEntry :=
  s.disc.index.find? (fun e => e.hzone == n && e.lba + e.count == lba && e.heads == heads && e.flags / 2 % 2 == 0)

/-- Whether blocks can enter the index (R447). -/
def siRoom (s : State) (n lba : Nat) : Bool := (siTail s n lba (allocHeads s n)).isSome || decide (s.disc.index.length < 524288)

/-- Blocks are assigned: the zone's last entry grows, or a new one begins. -/
def siAppend (s : State) (n off count : Nat) : State :=
  let lba := n * zoneBlocks + off
  let heads := allocHeads s n
  match siTail s n lba heads with
  | some e => siStore s (s.disc.index.map (fun x => if x.lba = e.lba then { x with count := x.count + count } else x))
  | none =>
    siStore s (siInsert s.disc.index ⟨lba, count, zonePta s n heads (off / 32), n, off % 32, heads, (zoneSpan s n).toNat⟩)

/-- The entry that covers an LBA, with its index (R448). -/
def siLookup (s : State) (lba : Nat) : Option (Nat × SiEntry) :=
  ((List.range s.disc.index.length).zip s.disc.index).find? (fun p => decide (p.2.lba ≤ lba) && decide (lba < p.2.lba + p.2.count))

/-- The walker's reads for the entry that covers an LBA, as class 1 (R373, R448). -/
def siWalk (s : State) (lba : Nat) : State :=
  tableSearch s 1 (fget s fldHOST_SI_BASE_BASE * 4096) 32 s.disc.index.length
    (fun i => match s.disc.index[i]? with | some e => decide (e.lba ≤ lba) | none => false)

/-- The walker's reads for a range of blocks: one search for each run that the range meets. -/
def siWalks (s : State) (lba n : Nat) : State :=
  forEach (lba :: (s.disc.index.filter (fun e => decide (lba < e.lba) && decide (e.lba < lba + n))).map (·.lba)) s siWalk

/-- The tile that holds a block: the entry's own tile for a re-placed one, else by allocation order from its first. -/
def lbaPta (s : State) (lba : Nat) : Option Nat :=
  (siLookup s lba).map (fun p =>
    if p.2.flags / 2 % 2 = 1 then p.2.pta else zonePta s p.2.hzone p.2.heads (lba % zoneBlocks / 32))

/-- The entry whose blocks lie in a tile, and the first of those blocks. -/
def siHit (s : State) (pta : Nat) : Option (SiEntry × Nat) :=
  let first (e : SiEntry) : List Nat :=
    (List.range (e.count / 32 + 2)).map (fun i => if i = 0 then e.lba else (e.lba / 32 + i) * 32)
  s.disc.index.findSome? (fun e =>
    ((first e).find? (fun l => decide (l < e.lba + e.count) && lbaPta s l == some pta)).map (fun l => (e, l)))

/-- A tile is re-placed: the entry that held it splits into at most three, the middle one REPLACED (R197, R447). -/
def siReplace (s : State) (old new : Nat) : State :=
  match siHit s old with
  | none => s
  | some (e, l) =>
    let stop := Nat.min (l / 32 * 32 + 32) (e.lba + e.count)
    let before := if e.lba < l then [{ e with count := l - e.lba }] else []
    let mid : SiEntry := { e with lba := l, count := stop - l, pta := new, sector := l % 32, flags := e.flags % 2 + 2 }
    let after := if stop < e.lba + e.count then
        [{ e with lba := stop, count := e.lba + e.count - stop, pta := zonePta s e.hzone e.heads (stop % zoneBlocks / 32), sector := 0 }]
      else []
    siStore s ((before ++ [mid] ++ after).foldl siInsert (s.disc.index.filter (fun x => x.lba ≠ e.lba)))

/-! ### What gates a command -/

/-- Whether a journaled operation runs (R471). -/
def jnlRuns (s : State) : Bool := fget s fldJNL_STAT_OP != 0

/-- Whether the disc is encrypted and not unlocked (R466). -/
def discLockedKey (s : State) : Bool :=
  (match s.disc.format with | some f => f.encrypt | none => false) && s.arv.mediaKey.isNone

/-- The status that keeps an I/O command from the disc; none if nothing does.  The order among them is DESIGN CHOICE, log
19. -/
def ioGate (s : State) (write data : Bool) : Option Nat :=
  if write && !(writePresent s.variant) then some stUnsupported
  else if s.disc.searched && !s.disc.present then some stNoMedium
  else if !s.disc.mounted then some stNotReady
  else if jnlRuns s then some stInProgress
  else match s.disc.format with
  | none => some stMediumFormat
  | some f =>
    if f.state = 2 then some stMediumFormat
    else if data && discLockedKey s then some stNotReady
    else none

/-- Run an I/O command that nothing keeps from the disc. -/
def ioRun (s : State) (c : HostCtx) (write data : Bool) (f : State → State) : State :=
  match ioGate s write data with
  | some st => hostComplete s c.num st 0
  | none => f s

/-- Whether a zone is written with span parity that the part has no encoder for (R9, R162). -/
def spanMissing (s : State) (n : Nat) : Bool := zoneSpan s n && !(spanEncPresent s.variant)

/-! ### Blocks -/

/-- Stored bytes of a block: encrypted with its LBA as the data unit on an encrypted disc (R464). -/
def cipher (s : State) (lba : Nat) (bs : List Byte) : List Byte :=
  match s.disc.format, s.arv.mediaKey with
  | some f, some k => if f.encrypt then xtsEncrypt k lba bs else bs
  | _, _ => bs

def decipher (s : State) (lba : Nat) (bs : List Byte) : List Byte :=
  match s.disc.format, s.arv.mediaKey with
  | some f, some k => if f.encrypt then xtsDecrypt k lba bs else bs
  | _, _ => bs

/-- Bytes cut into blocks of 4,096, the last filled with zero. -/
def blocksOf (n : Nat) (bs : List Byte) : List (List Byte) :=
  match n with
  | 0 => []
  | n + 1 => (bs.take 4096 ++ List.replicate (4096 - bs.length) 0) :: blocksOf n (bs.drop 4096)

/-- Blocks are accepted at a zone's write pointer: they lie in staging, stored as they will be on the medium; the index and
the pointer follow, and a full zone is FULL (R438, R440). -/
def acceptBlocks (s : State) (n : Nat) (blocks : List (List Byte)) : State :=
  let z := zoneOf s n
  let start := n * zoneBlocks + z.wp
  let acc := ((List.range blocks.length).zip blocks).map (fun p =>
    (⟨start + p.1, s.disc.accSeq, cipher s (start + p.1) p.2⟩ : Accepted))
  let s1 := modDisc (siAppend s n z.wp blocks.length) (fun d => { d with accepted := d.accepted ++ acc, accSeq := d.accSeq + 1 })
  let wp := z.wp + blocks.length
  modZone s1 n (fun z =>
    { z with
      wp := wp
      heads := if z.wp = 0 then allocHeads s n else z.heads
      st := if zoneCap s n ≤ wp then 3 else z.st })

/-- What a read finds for one block. -/
inductive BlockRead where
  | bytes (bs : List Byte)
  | fail (st : Nat)
  | later
deriving DecidableEq, Repr

/-- Whether a block was never written or is padding. -/
def blockUnwritten (s : State) (lba : Nat) : Bool :=
  let z := zoneOf s (lba / zoneBlocks)
  let off := lba % zoneBlocks
  decide (z.wp ≤ off) || z.pads.any (fun p => decide (p.1 ≤ off) && decide (off < p.2))

/-- Read one block: from staging memory if it is accepted and not on the medium, else from the medium; the bytes are
decrypted (R441, R464).  A block of the medium that is not given has not come yet. -/
def blockRead (s : State) (lba : Nat) (m : Option MediumBlock) : BlockRead :=
  match s.disc.accepted.find? (fun a => a.lba == lba) with
  | some a => .bytes (decipher s lba a.bytes)
  | none =>
    if blockUnwritten s lba then .fail stUnwritten
    else match m with
    | some (.stored bs) => .bytes (decipher s lba (bs.take 4096 ++ List.replicate (4096 - bs.length) 0))
    | some .unwritten => .fail stUnwritten
    | some .poisoned => .fail stPoisoned
    | some .unrecovered => .fail stUnrecovered
    | none => .later

/-- Read blocks up to the first that fails or has not come: the bytes before it, and the place and status of a failure. -/
def blocksRead (s : State) (n lba : Nat) (m : List MediumBlock) : List Byte × Option (Nat × Nat) :=
  match n with
  | 0 => ([], none)
  | n + 1 =>
    match blockRead s lba m.head? with
    | .fail st => ([], some (lba, st))
    | .later => ([], none)
    | .bytes bs =>
      let (rest, e) := blocksRead s n (lba + 1) m.tail
      (bs ++ rest, e)

/-- The first block of a range that lies outside every zone (R436). -/
def rangeBad (s : State) (lba count : Nat) : Option Nat :=
  let n := lba / zoneBlocks
  if n < zoneCount s ∧ lba % zoneBlocks + count ≤ zoneCap s n then none
  else if n < zoneCount s ∧ lba % zoneBlocks < zoneCap s n then some (n * zoneBlocks + zoneCap s n)
  else some lba

end Machine
end Sys2Proof
end

