-- ==== Sys2Proof/Machine/Records.lean ====
section
/-! DEFINITION. Management records on the disc: where they lie (R89), their header (R91), the bodies that the controller writes
(R199, R449, R456, R465, R472, R474), and re-placing tiles (R196 to R199). -/

namespace Sys2Proof
namespace Machine

/-! ### Where records lie (R89) -/

/-- The record areas of a layer: 0 the primary copy, 1 the second copy, 2 the journal mirror; by their AREA, the first tile index
and the one past the last. -/
def recArea (which : Nat) : Nat × Nat × Nat :=
  match which with
  | 0 => (24, 16 * areaK 24, 528 * areaK 24)
  | 1 => (25, 0, 192 * areaK 25)
  | _ => (24, 528 * areaK 24, 768 * areaK 24)

/-- The record area in which a PTA lies: an index into `recArea`. -/
def recWhich (pta : Nat) : Option Nat :=
  let ix := ptaBand pta * areaK (ptaArea pta) + ptaSlot pta
  ([0, 1, 2] : List Nat).find? (fun w =>
    ptaArea pta == (recArea w).1 && decide ((recArea w).2.1 ≤ ix) && decide (ix < (recArea w).2.2))

/-- Whether a copy lies where its type belongs: a mirror in its own area, any other record in the first two (R89, R93). -/
def recPlaced (kind pta : Nat) : Bool :=
  match recWhich pta with
  | some w => (w == 2) == (kind == 6)
  | none => false

def recKey (side layer which : Nat) : Nat := 64 * side + 4 * layer + which

/-- The next tile of a record area: on L0 the free tiles of the two copies give it (R438). -/
def recNextOf (s : State) (side layer which : Nat) : Nat :=
  let a := recArea which
  if layer = 0 ∧ which = 0 then a.2.2 - s.disc.free.1
  else if layer = 0 ∧ which = 1 then a.2.2 - s.disc.free.2
  else (aget? s.disc.recNext (recKey side layer which)).getD a.2.1

/-- Tiles that a record of a body's length fills, its header counted (R91). -/
def recordTiles (len : Nat) : Nat := (len + 64 + 131071) / 131072

/-! ### Writing a record (R91) -/

/-- The 64 bytes of a header. -/
def recHeader (kind seq : Nat) (body : List Byte) : List Byte :=
  let h := natBe 4 0x4F524D52 ++ natBe 2 kind ++ natBe 2 (Config.recordVersion kind).toNat ++ natBe 8 seq ++
    natBe 4 body.length ++ natBe 4 (crc32 body) ++ List.replicate 36 0
  h ++ natBe 4 (crc32 h)

/-- Lay a record down in one area of a layer, where there is room for its tiles. -/
def recLay (s : State) (side layer which kind seq : Nat) (bytes : List Byte) : State :=
  let a := recArea which
  let ix := recNextOf s side layer which
  let k := (bytes.length + 131071) / 131072
  if a.2.2 < ix + k then s
  else modDisc s (fun d =>
    { d with
      records := d.records ++ [⟨ptaMake side layer a.1 (ix / areaK a.1) (ix % areaK a.1), kind, seq, bytes⟩]
      recNext := if layer = 0 ∧ which ≠ 2 then d.recNext else aset d.recNext (recKey side layer which) (ix + k) })

/-- The present sides. -/
def sidesOf (s : State) : List Nat := if sideBPresent s.variant then [0, 1] else [0]

/-- Tiles of the two copies on L0 are used (R438). -/
def useTiles (s : State) (k : Nat) : State := modDisc s (fun d => { d with free := (d.free.1 - k, d.free.2 - k) })

/-- A record with the next sequence is written and verified in both copies of the given places; those on L0 take its free
tiles (DESIGN CHOICE, log 100). -/
def recWrite (s : State) (places : List (Nat × Nat)) (kind : Nat) (body : List Byte) : State :=
  let seq := s.disc.recSeq + 1
  let bytes := recHeader kind seq body ++ body
  let s1 := forEach places s (fun t p => recLay (recLay t p.1 p.2 0 kind seq bytes) p.1 p.2 1 kind seq bytes)
  let s2 := if places.any (fun p => p.2 == 0) then useTiles s1 (recordTiles body.length) else s1
  modDisc s2 (fun d => { d with recSeq := seq })

/-- A disc-wide record: on L0 of side A, mirrored on L0 of side B (R91). -/
def recWide (s : State) (kind : Nat) (body : List Byte) : State := recWrite s ((sidesOf s).map (fun x => (x, 0))) kind body

/-- A journal mirror: type 0x0006 in the mirror area (R89, R474). -/
def recMirror (s : State) (body : List Byte) : State :=
  let seq := s.disc.recSeq + 1
  let bytes := recHeader 6 seq body ++ body
  modDisc (forEach (sidesOf s) s (fun t x => recLay t x 0 2 6 seq bytes)) (fun d => { d with recSeq := seq })

/-- Records of some types are obliterated (R473). -/
def recDrop (s : State) (kinds : List Nat) : State :=
  modDisc s (fun d => { d with records := d.records.filter (fun r => !(kinds.contains r.kind)) })

/-! ### Bodies -/

/-- The body of a Street Index snapshot (R449): every entry whose HEADS differs from those its zone began with. -/
def siExceptions (s : State) : List SiEntry := s.disc.index.filter (fun e => e.heads != (zoneOf s e.hzone).heads)

def siBody (s : State) : List Byte :=
  let x := siExceptions s
  natBe 4 (zoneCount s) ++ natBe 4 x.length ++ List.replicate 8 0 ++
    (List.range (zoneCount s)).flatMap (fun n =>
      let z := zoneOf s n
      natBe 4 z.wp ++ natBe 1 (zoneState s n) ++ natBe 1 z.heads ++ List.replicate 10 0) ++
    x.flatMap siBytes

/-- A Street Index snapshot is written and verified in both copies (R449). -/
def siSnapshot (s : State) : State := modDisc (recWide s 3 (siBody s)) (fun d => { d with snapZones := d.zones })

/-- The body of a defect list (R199). -/
def defectBody (side layer : Nat) (l : List DefectEntry) : List Byte :=
  natBe 1 side ++ natBe 1 layer ++ natBe 4 l.length ++ List.replicate 10 0 ++ l.flatMap (fun e =>
    natBe 4 e.old ++ natBe 4 e.new ++ natBe 4 e.wseq ++ natBe 1 e.reason ++ natBe 1 e.failed ++ natBe 1 e.span.toNat ++ natBe 1 0)

/-- The defect list of a side and layer. -/
def defectsOf (s : State) (side layer : Nat) : List DefectEntry := (aget? s.disc.defects (16 * side + layer)).getD []

/-- The defect list of a side and layer is written on that layer, in both copies (R91, R198). -/
def defectWrite (s : State) (side layer : Nat) : State :=
  recWrite s [(side, layer)] 2 (defectBody side layer (defectsOf s side layer))

/-- The body of the format record (R472). -/
def formatBody (s : State) (f : FormatRec) : List Byte :=
  natBe 8 s.disc.serial ++ natBe 1 f.state ++ natBe 1 s.disc.layers ++ natBe 1 f.encrypt.toNat ++ List.replicate 5 0 ++
    natLe 48 f.span ++ natLe 48 f.object

/-- The body of the wrapped media key record (R465). -/
def keyBody (slots : List (List Byte × List Byte)) : List Byte :=
  natBe 1 slots.length ++ List.replicate 15 0 ++ slots.flatMap (fun k => (k.1 ++ k.2 ++ List.replicate 128 0).take 128)

/-- The 256 bytes of a journal entry (R474). -/
def jnlBytes (e : JnlEntry) : List Byte :=
  let b := natBe 4 0x4F524A4E ++ natBe 4 e.seq ++ natBe 8 e.serial ++ natBe 1 e.op ++ natBe 1 e.phase ++ natBe 2 e.zone ++
    natBe 4 e.nextTile ++ natBe 8 e.progSeq ++ natBe 8 e.done ++ natBe 8 e.total ++ (e.body ++ List.replicate 204 0).take 204
  b ++ natBe 4 (crc32 b)

/-! ### Re-placing tiles (R196 to R199) -/

/-- The next free tile of the spare bands of a tile's side, layer and zone, in tile-index order: the one after every tile that
the defect list names there. -/
def spareNext (s : State) (pta : Nat) : Option Nat :=
  let k := areaK (ptaArea pta)
  let named := (defectsOf s (ptaSide pta) (ptaLayer pta)).flatMap (fun e => [e.old, e.new])
  let used := named.filter (fun p => ptaArea p == ptaArea pta && decide (2226 ≤ ptaBand p) && decide (ptaBand p < 2240))
  let ix := used.foldl (fun m p => Nat.max m (ptaBand p * k + ptaSlot p + 1)) (2226 * k)
  if ix < 2240 * k then some (ptaMake (ptaSide pta) (ptaLayer pta) (ptaArea pta) (ix / k) (ix % k)) else none

/-- The next user tile at a host zone's write position: the last tile is padded, and the write pointer passes the tile's 32 blocks,
which no host block uses (DESIGN CHOICE, log 101). -/
def userNext (s : State) (n : Nat) : State × Option Nat :=
  let t := zonePad s n
  let wp := (zoneOf t n).wp
  if zoneCap t n ≤ wp then (t, none)
  else
    (modZone t n (fun z =>
      { z with
        wp := wp + 32
        heads := if wp = 0 then allocHeads s n else z.heads
        pads := z.pads ++ [(wp, wp + 32)]
        st := if zoneCap t n ≤ wp + 32 then 3 else z.st }),
      some (zonePta t n (allocHeads t n) (wp / 32)))

/-- The value of a replacement PTA that says 'not yet placed' (R199). -/
def ptaNone : Nat := 0xFFFFFFFF

/-- A tile is re-placed: it takes a spare tile, else a user tile; its blocks map to the new PTA; and the defect list names it.
With no tile to take the entry says so. -/
def replaceTile (s : State) (r : Replaced) : State :=
  let old := r.old.toNat
  let hit := siHit s old
  let (s1, new) := match spareNext s old, hit with
    | some p, _ => (s, some p)
    | none, some (e, _) => userNext s e.hzone
    | none, none => (s, none)
  let s2 := match new with
    | some p => siReplace s1 old p
    | none => s1
  let key := 16 * ptaSide old + ptaLayer old
  let entry : DefectEntry := ⟨old, new.getD ptaNone, r.wseq.toNat, r.reason.toNat, r.failed.toNat, (hit.map (fun p => p.1.flags % 2 == 1)).getD false⟩
  modDisc s2 (fun d => { d with defects := aset d.defects key (defectsOf s (ptaSide old) (ptaLayer old) ++ [entry]) })

/-- Tiles are re-placed, and the defect list of every side and layer that has one of them is written (R198). -/
def replaceTiles (s : State) (moved : List Replaced) : State :=
  let keys := (moved.map (fun r => (ptaSide r.old.toNat, ptaLayer r.old.toNat))).eraseDups
  forEach keys (forEach moved s replaceTile) (fun t k => defectWrite t k.1 k.2)

/-- The first block of the first tile for which there is no place. -/
def replaceLost (s : State) (moved : List Replaced) : Option Nat :=
  match moved with
  | [] => none
  | r :: rest =>
    let t := replaceTile s r
    let unplaced : Bool := match (defectsOf t (ptaSide r.old.toNat) (ptaLayer r.old.toNat)).getLast? with
      | some e => e.new == ptaNone
      | none => false
    match siHit s r.old.toNat with
    | some (_, l) => if unplaced then some l else replaceLost t rest
    | none => replaceLost t rest

end Machine
end Sys2Proof
end

