-- ==== Sys2Proof/Machine/HostIo.lean ====
section
/-! DEFINITION. The I/O commands: READ, WRITE, APPEND, FLUSH, the zone commands and EXTENT_QUERY (R435 to R442, R447). -/

namespace Sys2Proof
namespace Machine

/-- COUNT is 1 to 8,192 and the buffer holds what the command needs (R430). -/
def countBad (c : HostCtx) (size : Nat) : Bool :=
  decide (ctxCount c = 0) || decide (8192 < ctxCount c) || ctxLen c != size * ctxCount c

/-- READ: blocks in order to the host, those that have come, up to the first that fails (R441, R444); it completes when every
block has moved, and until then goes on where it stands (R443). -/
def readCmd (medium : List MediumBlock) (s : State) (c : HostCtx) : State :=
  ioRun s c false true (fun s =>
    if countBad c 4096 then hostComplete s c.num stInvalidField 0
    else match rangeBad s (ctxLba c) (ctxCount c) with
    | some l => hostComplete s c.num stLbaRange l
    | none =>
      let lba := ctxLba c + c.moved
      let n := ctxCount c - c.moved
      let (bs, bad) := blocksRead s n lba medium
      let t := sendData (siWalks s lba n) { c with segs := segsPast c.segs (4096 * c.moved) } bs
      match bad with
      | some (l, st) => hostComplete t c.num st l
      | none =>
        if bs.length = 4096 * n then hostComplete t c.num stSuccess 0
        else ctxMod t c.num (fun x => { x with moved := c.moved + bs.length / 4096 }))

def execRead (ctx : Fin 4096) (medium : List MediumBlock) (s : State) : Host.Outcome State Fault Refusal :=
  .next (hostCmd s ctx.val 0x10 (readCmd medium))

/-- A WRITE or APPEND begins: its fields and its zone are checked, and the zone opens; its data is then fetched (R438,
R440). -/
def writeBegin (s : State) (c : HostCtx) : State :=
  if c.begun then s
  else ioRun s c true true (fun s =>
    let n := ctxLba c / zoneBlocks
    if spanMissing s n then hostComplete s c.num stUnsupported 0
    else if countBad c 4096 ∨ (ctxOpcode c = 0x12 ∧ ctxLba c % zoneBlocks ≠ 0) then hostComplete s c.num stInvalidField 0
    else match rangeBad s (ctxLba c) (ctxCount c) with
    | some _ => hostComplete s c.num stLbaRange 0
    | none =>
      if zoneObject s n then hostComplete s c.num stWriteProtected 0
      else match zoneBars s n with
      | some st => hostComplete s c.num st 0
      | none => ingressShow (zoneOpen s n))

def execWrite (ctx : Fin 4096) (s : State) : Host.Outcome State Fault Refusal := .next (hostCmd s ctx.val 0x11 writeBegin)

def execAppend (ctx : Fin 4096) (s : State) : Host.Outcome State Fault Refusal := .next (hostCmd s ctx.val 0x12 writeBegin)

/-- Acceptance: the data is in staging and the LBAs are assigned, or the command ends (R440, R441). -/
def writeAccept (data : Option (List Byte)) (s : State) (c : HostCtx) : State :=
  let n := ctxLba c / zoneBlocks
  let z := zoneOf s n
  match data with
  | none => hostComplete (fset s fldHOST_STAT_DMA_ERR) c.num stDataTransfer 0
  | some bs =>
    match zoneBars s n with
    | some st => hostComplete s c.num st 0
    | none =>
      if ctxOpcode c = 0x11 ∧ ctxLba c ≠ n * zoneBlocks + z.wp then hostComplete s c.num stPointerMismatch 0
      else if zoneCap s n < z.wp + ctxCount c then hostComplete s c.num stLbaRange 0
      else if ¬ siRoom s n (n * zoneBlocks + z.wp) then hostComplete s c.num stIndexFull 0
      else
        let r := if ctxOpcode c = 0x12 then n * zoneBlocks + z.wp else 0
        let s1 := acceptBlocks (zoneOpen s n) n (blocksOf (ctxCount c) bs)
        let s2 := ctxMod s1 c.num (fun x => { x with accepted := true, result := r, accAt := s.disc.accSeq })
        if ctxFua c then ingressShow s2 else hostComplete s2 c.num stSuccess r

/-- WRITE_ACCEPT: for a write that has begun and is not yet accepted. -/
def execWriteAccept (ctx : Fin 4096) (data : Option (List (BitVec 8))) (s : State) : Host.Outcome State Fault Refusal :=
  .next (match ctxFind s ctx.val with
    | some c =>
      if c.begun ∧ ¬ c.accepted ∧ c.done.isNone ∧ (ctxOpcode c = 0x11 ∨ ctxOpcode c = 0x12) then writeAccept data s c else s
    | none => s)

/-! ### FLUSH (R442) -/

/-- Pad every open zone. -/
def padOpen (s : State) : State :=
  forEach ((List.range (zoneCount s)).filter (fun n => zoneState s n == 1)) s zonePad

/-- Whether the write pointers are those of the snapshot in force. -/
def pointersKept (s : State) : Bool :=
  (List.range (zoneCount s)).all (fun n => (zoneOf s n).wp == ((aget? s.disc.snapZones n).map (·.wp)).getD 0)

/-- FLUSH: open zones are padded; with nothing to cover it completes, else it waits for the medium.  It covers the writes accepted
before it was fetched, and with ORDERED those accepted before it starts (R442). -/
def flushCmd (s : State) (c : HostCtx) : State :=
  if c.begun then s
  else ioRun s c false false (fun s =>
    let cover := if ctxOrdered c then s.disc.accSeq else c.accAt
    let s0 := ctxMod s c.num (fun x => { x with accAt := cover })
    let s1 := if writePresent s.variant then padOpen s0 else s0
    if s1.disc.accepted.all (fun a => decide (cover ≤ a.seq)) && pointersKept s1 then hostComplete s1 c.num stSuccess 0 else s1)

def execFlush (ctx : Fin 4096) (s : State) : Host.Outcome State Fault Refusal := .next (hostCmd s ctx.val 0x13 flushCmd)

/-! ### Catalogue snapshots (R456, R459) -/

/-- The 128 bytes of an entry (R455). -/
def catBytes (e : CatEntry) : List Byte :=
  natLe 16 e.oid ++ natLe 8 e.len ++ natLe 8 e.lba ++ (e.digest ++ List.replicate 32 0).take 32 ++ natLe 8 e.putTime ++
    natLe 8 e.auditTime ++ natLe 4 e.auditCount ++ natLe 1 e.st ++ natLe 1 e.flags ++ natLe 2 e.hzone ++ natLe 8 e.prevLba ++
    List.replicate 32 0

/-- The entries that changed since the previous snapshot; one that is gone has STATE 0. -/
def catChanges (s : State) : List CatEntry :=
  s.arv.cat.filter (fun e => !(s.arv.catSnap.contains e)) ++
    (s.arv.catSnap.filter (fun e => !(s.arv.cat.any (fun x => x.oid == e.oid)))).map (fun e => { e with st := 0 })

/-- Whether the next snapshot is a FULL: there is none to build on, or its deltas hold more than 4,096 entries. -/
def catFullDue (s : State) : Bool := s.arv.catFull == 0 || decide (4096 < s.arv.catDeltas)

/-- The entries of the next snapshot. -/
def catNext (s : State) : List CatEntry := if catFullDue s then s.arv.cat else catChanges s

/-- A snapshot's body: its kind, count and base, then the entries. -/
def catBodyBytes (delta : Bool) (base : Nat) (l : List CatEntry) : List Byte :=
  natBe 1 delta.toNat ++ List.replicate 3 0 ++ natBe 4 l.length ++ natBe 8 base ++ l.flatMap catBytes

/-- The sectors of a snapshot's body, encrypted under a media key. -/
def catEncrypt (key : List Byte) (seq : Nat) (b : List Byte) : List Byte :=
  ((List.range ((b.length + 4095) / 4096)).map (fun i =>
    xtsEncrypt key (2 ^ 63 + seq * 2 ^ 16 + i) ((b.drop (4096 * i)).take 4096))).flatten

/-- The body as an encrypted disc stores it. -/
def catCipher (s : State) (b : List Byte) : List Byte :=
  match s.disc.format, s.arv.mediaKey with
  | some f, some k => if f.encrypt then catEncrypt k (s.disc.recSeq + 1) b else b
  | _, _ => b

/-- A snapshot is written and verified in both copies. -/
def catWrite (s : State) : State :=
  let full := catFullDue s
  let l := catNext s
  let body := catBodyBytes (!full) (if full then 0 else s.arv.catFull) l
  modArv (recWide s 4 (catCipher s body)) (fun a =>
    { a with
      catSnap := a.cat
      catFull := if full then s.disc.recSeq + 1 else a.catFull
      catDeltas := if full then 0 else a.catDeltas + l.length })

/-- Whether a FLUSH has a snapshot to write: the archive engine is present, the catalogue is known, and something changed. -/
def catSnapDue (s : State) : Bool :=
  archivePresent s.variant && !(discLockedKey s) && (catFullDue s || !(catChanges s).isEmpty)

def catSnapshot (s : State) : State := sif (catSnapDue s) s catWrite

/-- Whether a context waits for the medium: a FLUSH, or an accepted write with FUA. -/
def awaitsMedium (c : HostCtx) : Bool :=
  c.begun && c.done.isNone && (ctxOpcode c == 0x13 || (c.accepted && ctxFua c))

/-- Whether a context's wait covers an accepted block: a FLUSH all accepted before it was fetched, a FUA write its own. -/
def covers (c : HostCtx) (a : Accepted) : Bool :=
  if ctxOpcode c = 0x13 then decide (a.seq < c.accAt) else a.seq == c.accAt

/-- Whether the snapshots of a FLUSH fit in the free tiles of both copies (R438, R442). -/
def snapsFit (s : State) : Bool :=
  let k := recordTiles (siBody s).length + (if catSnapDue s then recordTiles (16 + 128 * (catNext s).length) else 0)
  decide (k ≤ s.disc.free.1) && decide (k ≤ s.disc.free.2)

/-- Every covered tile has passed on the medium, the re-placed ones are in the index and in the defect lists, and the snapshots are
written; or a covered write could not be placed, and its zone becomes READ_ONLY (R198, R442, R459).  A FLUSH whose snapshots have no
room does not complete. -/
def flushDone (s : State) (c : HostCtx) (lost : Option Nat) (moved : List Replaced) : State :=
  let s1 := replaceTiles s moved
  match lost.or (replaceLost s moved) with
  | some l => hostComplete (modZone s1 (l / zoneBlocks) (fun z => { z with st := 4 })) c.num stWriteFault l
  | none =>
    if !(snapsFit s1) then s
    else
      let s2 := modDisc s1 (fun d => { d with accepted := d.accepted.filter (fun a => !(covers c a)) })
      hostComplete (catSnapshot (siSnapshot s2)) c.num stSuccess c.result

/-- FLUSH_COMPLETE. -/
def execFlushComplete (ctx : Fin 4096) (lost : Option (BitVec 64)) (moved : List Replaced) (s : State) :
    Host.Outcome State Fault Refusal :=
  .next (match ctxFind s ctx.val with
    | some c => if awaitsMedium c then flushDone s c (lost.map (·.toNat)) moved else s
    | none => s)

/-! ### Zone commands (R435, R438) -/

/-- ZONE_REPORT: 32 bytes a zone; of the zones from the first to the last that exists, at most COUNT. -/
def zoneReport (s : State) (c : HostCtx) : State :=
  ioRun s c false false (fun s =>
    let n := ctxLba c / zoneBlocks
    if countBad c 32 ∨ ctxLba c % zoneBlocks ≠ 0 then hostComplete s c.num stInvalidField 0
    else if zoneCount s ≤ n then hostComplete s c.num stLbaRange 0
    else
      let k := Nat.min (ctxCount c) (zoneCount s - n)
      hostComplete (sendReport s c ((List.range k).flatMap (fun i =>
        [n + i, zoneState s (n + i), (zoneOf s (n + i)).wp, zoneCap s (n + i)]))) c.num stSuccess k)

def execZoneReport (ctx : Fin 4096) (s : State) : Host.Outcome State Fault Refusal := .next (hostCmd s ctx.val 0x14 zoneReport)

/-- Run a zone action: LBA is a zone start. -/
def zoneAction (write : Bool) (f : State → Nat → State × Nat) (s : State) (c : HostCtx) : State :=
  ioRun s c write false (fun s =>
    let n := ctxLba c / zoneBlocks
    if ctxLba c % zoneBlocks ≠ 0 then hostComplete s c.num stInvalidField 0
    else if zoneCount s ≤ n then hostComplete s c.num stLbaRange 0
    else
      let (t, st) := f s n
      hostComplete t c.num st (zoneOf t n).wp)

/-- OPEN. -/
def zoneDoOpen (s : State) (n : Nat) : State × Nat :=
  match zoneBars s n with
  | some st => (s, st)
  | none => (zoneOpen s n, stSuccess)

/-- CLOSE: an OPEN zone is padded and CLOSED; any other is left as it is. -/
def zoneDoClose (s : State) (n : Nat) : State × Nat :=
  if zoneState s n = 1 then
    let t := zonePad s n
    (if (zoneOf t n).st = 3 then t else modZone t n (fun z => { z with st := 2 }), stSuccess)
  else (s, stSuccess)

/-- FINISH: the zone is padded and FULL. -/
def zoneDoFinish (s : State) (n : Nat) : State × Nat :=
  match zoneState s n with
  | 4 => (s, stWriteProtected)
  | 3 => (s, stSuccess)
  | _ =>
    let t := zonePad s n
    let cap := zoneCap s n
    (modZone t n (fun z => { z with st := 3, wp := cap, pads := z.pads ++ (if z.wp < cap then [(z.wp, cap)] else []) }), stSuccess)

/-- ZONE_OPEN: action 0, and the actions that do not exist, which complete INVALID_FIELD. -/
def execZoneOpen (ctx : Fin 4096) (s : State) : Host.Outcome State Fault Refusal :=
  .next (if ctxByte36 s ctx.val = 0 then hostCmd s ctx.val 0x15 (zoneAction true zoneDoOpen)
    else if 2 < ctxByte36 s ctx.val then hostCmd s ctx.val 0x15 (fun t c => hostComplete t c.num stInvalidField 0)
    else s)

def execZoneClose (ctx : Fin 4096) (s : State) : Host.Outcome State Fault Refusal :=
  .next (if ctxByte36 s ctx.val = 1 then hostCmd s ctx.val 0x15 (zoneAction true zoneDoClose) else s)

def execZoneFinish (ctx : Fin 4096) (s : State) : Host.Outcome State Fault Refusal :=
  .next (if ctxByte36 s ctx.val = 2 then hostCmd s ctx.val 0x15 (zoneAction true zoneDoFinish) else s)

/-- EXTENT_QUERY: the entry that covers an LBA and its index (R435, R447). -/
def extentQuery (s : State) (c : HostCtx) : State :=
  ioRun s c false false (fun s =>
    if ctxLen c ≠ 32 then hostComplete s c.num stInvalidField 0
    else match rangeBad s (ctxLba c) 1, siLookup s (ctxLba c) with
    | some _, _ => hostComplete s c.num stLbaRange 0
    | none, some (i, e) => hostComplete (sendData (siWalk s (ctxLba c)) c (siBytes e)) c.num stSuccess i
    | none, none => hostComplete (siWalk s (ctxLba c)) c.num stUnwritten 0)

def execExtentQuery (ctx : Fin 4096) (s : State) : Host.Outcome State Fault Refusal := .next (hostCmd s ctx.val 0x16 extentQuery)

end Machine
end Sys2Proof
end

