-- ==== Sys2Proof/Machine/ArchiveEng.lean ====
section
/-! DEFINITION. The archive engine: the catalogue (R455), PUT, GET and LIST (R457 to R461), and fixity auditing and refresh
(R462, R463). -/

namespace Sys2Proof
namespace Machine

/-! ### The catalogue -/

/-- The entry that 128 bytes hold. -/
def catParse (b : List Byte) : CatEntry :=
  ⟨entryNum b 0 16, entryNum b 16 8, entryNum b 24 8, (b.drop 32).take 32, entryNum b 64 8, entryNum b 72 8, entryNum b 80 4,
   entryNum b 84 1, entryNum b 85 1, entryNum b 86 2, entryNum b 88 8⟩

/-- Replace the catalogue: it lies at ARV_CAT_BASE; CAT_COUNT follows, and CAT_NEAR_FULL sets when it reaches THR. -/
def catStore (s : State) (l : List CatEntry) : State :=
  let s1 := tableStore s 2 (fget s fldARV_CAT_BASE_BASE * 4096) 128 (s.arv.cat.map catBytes) (l.map catBytes)
  let s2 := fput (modArv s1 (fun a => { a with cat := l })) fldARV_STAT_CAT_COUNT l.length
  if s.arv.cat.length < l.length ∧ fget s fldARV_CAT_THR_THR ≤ l.length then fset s2 fldARV_STAT_CAT_NEAR_FULL else s2

/-- The entry of an object. -/
def catFind (s : State) (oid : Nat) : Option CatEntry := s.arv.cat.find? (fun e => e.oid == oid)

/-- Put an entry in its place by OID. -/
def catInsert (l : List CatEntry) (e : CatEntry) : List CatEntry := l.filter (fun x => x.oid < e.oid) ++ [e] ++ l.filter (fun x => e.oid < x.oid)

/-- Change an entry. -/
def catMod (s : State) (oid : Nat) (f : CatEntry → CatEntry) : State :=
  catStore s (s.arv.cat.map (fun e => if e.oid = oid then f e else e))

/-- Free an entry. -/
def catFree (s : State) (oid : Nat) : State := catStore s (s.arv.cat.filter (fun e => e.oid != oid))

/-- Archive time: chip time plus ARV_TIME_OFS (R455). -/
def archiveTime (s : State) : Nat :=
  (s.chipTime.toNat + (rd s regARV_TIME_OFS_LO).toNat + (rd s regARV_TIME_OFS_HI).toNat * 2 ^ 32) % 2 ^ 64

/-- Blocks of an object. -/
def objBlocks (len : Nat) : Nat := (len + 4095) / 4096

/-- The status that keeps an object command; none if nothing does (R453, R476). -/
def objGate (s : State) (write : Bool) : Option Nat :=
  if !(archivePresent s.variant) || (write && !(writePresent s.variant)) then some stUnsupported
  else if !(fbit s fldARV_CTL_EN) then some stNotReady
  else ioGate s write true

def ctxOid (c : HostCtx) : Nat := entryNum c.entry 36 16

/-- The catalogue walker's reads for an OID, as class 2 (R373, R455). -/
def catWalk (s : State) (oid : Nat) : State :=
  tableSearch s 2 (fget s fldARV_CAT_BASE_BASE * 4096) 128 s.arv.cat.length
    (fun i => match s.arv.cat[i]? with | some e => decide (e.oid ≤ oid) | none => false)

/-- Run an object command: its OID is looked up. -/
def objRun (s : State) (c : HostCtx) (write : Bool) (f : State → State) : State :=
  match objGate s write with
  | some st => hostComplete s c.num st 0
  | none => f (catWalk s (ctxOid c))

def ctxPart (c : HostCtx) : Nat := entryNum c.entry 52 4
def ctxLast (c : HostCtx) : Bool := (entryNum c.entry 56 1).testBit 0
def ctxVerify (c : HostCtx) : Bool := (entryNum c.entry 56 1).testBit 1
def getVerify (c : HostCtx) : Bool := (entryNum c.entry 56 1).testBit 0

/-! ### PUT (R458) -/

/-- The object zones. -/
def objectZones (s : State) : List Nat := (List.range (zoneCount s)).filter (zoneObject s)

/-- Whether a zone has room for blocks at its write pointer. -/
def zoneRoom (s : State) (n k : Nat) : Bool :=
  (zoneState s n != 4) && (zoneState s n != 3) && decide ((zoneOf s n).wp + k ≤ zoneCap s n)

/-- Whether a zone holds a PENDING object. -/
def zonePending (s : State) (n : Nat) : Bool := s.arv.cat.any (fun e => e.st == 1 && e.hzone == n)

/-- The object zone that takes an object of k blocks, or the status that none does: UNSUPPORTED where only zones with span parity
that the part cannot write have room (R162). -/
def objectPlace (s : State) (k : Nat) : Except Nat Nat :=
  let all := (objectZones s).filter (fun n => zoneRoom s n k)
  let room := all.filter (fun n => !(spanMissing s n))
  match room.find? (fun n => !(zonePending s n) && (zoneBars s n).isNone) with
  | some n => .ok n
  | none => .error (if all.isEmpty then stZoneFull else if room.isEmpty then stUnsupported else stZoneOpenLimit)

/-- Reserve k blocks at a zone's write pointer: they enter the index. -/
def reserve (s : State) (n k : Nat) : State :=
  let z := zoneOf s n
  let s1 := siAppend (zoneOpen s n) n z.wp k
  modZone s1 n (fun y =>
    { y with
      wp := z.wp + k
      heads := if z.wp = 0 then allocHeads s n else z.heads
      st := if zoneCap s n ≤ z.wp + k then 3 else y.st })

/-- Reserved blocks are padded: they read as never written (R439, R458, R461). -/
def padReserved (s : State) (lba k : Nat) : State :=
  let s1 := modZone s (lba / zoneBlocks) (fun z => { z with pads := z.pads ++ [(lba % zoneBlocks, lba % zoneBlocks + k)] })
  zonePad (modDisc s1 (fun d => { d with accepted := d.accepted.filter (fun a => !(decide (lba ≤ a.lba) && decide (a.lba < lba + k))) }))
    (lba / zoneBlocks)

/-- Blocks of a part lie in staging at their places; answers the order of their acceptance. -/
def acceptAt (s : State) (lba : Nat) (blocks : List (List Byte)) : State :=
  modDisc s (fun d =>
    { d with
      accepted := d.accepted ++ ((List.range blocks.length).zip blocks).map (fun p => (⟨lba + p.1, d.accSeq, cipher s (lba + p.1) p.2⟩ : Accepted))
      accSeq := d.accSeq + 1 })

/-- The bytes of a part, without the 32 bytes of an expected digest. -/
def partBytes (c : HostCtx) (bs : List Byte) : List Byte :=
  if ctxLast c && ctxVerify c then bs.take (bs.length - 32) else bs

/-- A part's length is legal: whole blocks in every part but the last, which carries the rest of the object. -/
def partFits (c : HostCtx) (total len : Nat) : Bool :=
  let n := ctxLen c - (if ctxLast c && ctxVerify c then 32 else 0)
  decide (1 ≤ ctxCount c) && decide (ctxCount c ≤ 8192) &&
    (if ctxLast c then total + n == len && ctxCount c == objBlocks n
    else n == 4096 * ctxCount c && decide (total + n < len))

/-- A part of an object is taken; the last one ends it. -/
def putPart (s : State) (c : HostCtx) (e : CatEntry) (p : PutStream) (bs : List Byte) (result : Nat) : State :=
  let data := partBytes c bs
  let whole := p.bytes ++ data
  let s1 := acceptAt s (e.lba + p.bytes.length / 4096) (blocksOf (objBlocks data.length) data)
  let s2 := ctxMod s1 c.num (fun x => { x with accepted := true, accAt := s.disc.accSeq })
  if !(ctxLast c) then
    let s3 := modArv s2 (fun a =>
      { a with puts := a.puts.map (fun q => if q.oid = p.oid then ⟨p.oid, p.next + 1, whole, s.chipTime⟩ else q) })
    if ctxFua c then ctxMod s3 c.num (fun x => { x with result := result }) else hostComplete s3 c.num stSuccess result
  else
    let digest := sha256 whole
    let s3 := modArv s2 (fun a => { a with puts := a.puts.filter (fun q => q.oid != p.oid) })
    if ctxVerify c ∧ bs.drop (bs.length - 32) ≠ digest then
      hostComplete (count (padReserved (catFree s3 e.oid) e.lba (objBlocks e.len)) 494) c.num stFixityMismatch 0
    else
      let s4 := catMod s3 e.oid (fun x => { x with st := 2, digest := digest, putTime := archiveTime s })
      let r := leNat (digest.take 8)
      if ctxFua c then ctxMod s4 c.num (fun x => { x with result := r }) else hostComplete s4 c.num stSuccess r

/-- The bytes that host memory gave for a part, filled to its length. -/
def partBuffer (c : HostCtx) (all : List Byte) : List Byte := all.take (ctxLen c) ++ List.replicate (ctxLen c - all.length) 0

/-- Host memory failed to give a command's data (R440). -/
def dataFail (s : State) (c : HostCtx) : State := hostComplete (fset s fldHOST_STAT_DMA_ERR) c.num stDataTransfer 0

/-- Part 0: an entry is made and blocks are reserved, by the first status that applies. -/
def putFirst (s : State) (c : HostCtx) (data : Option (List Byte)) : State :=
  let len := ctxLba c
  let oid := ctxOid c
  let largest := (objectZones s).foldl (fun m n => Nat.max m (zoneCap s n)) 0
  if (catFind s oid).isSome then hostComplete s c.num stObjectExists 0
  else if 262144 ≤ s.arv.cat.length then hostComplete s c.num stCatalogueFull 0
  else if len = 0 ∨ largest * 4096 < len ∨ oid = 0 ∨ ¬ partFits c 0 len then hostComplete s c.num stInvalidField 0
  else match objectPlace s (objBlocks len) with
  | .error st => hostComplete s c.num st 0
  | .ok n =>
    let lba := n * zoneBlocks + (zoneOf s n).wp
    if ¬ siRoom s n lba then hostComplete s c.num stIndexFull 0
    else match data with
    | none => dataFail s c
    | some all =>
      let e : CatEntry := ⟨oid, len, lba, List.replicate 32 0, 0, 0, 0, 1, 0, n, 0⟩
      let p : PutStream := ⟨oid, 0, [], s.chipTime⟩
      let s1 := modArv (catStore (reserve s n (objBlocks len)) (catInsert s.arv.cat e)) (fun a => { a with puts := a.puts ++ [p] })
      putPart s1 c e p (partBuffer c all) lba

/-- PUT, with the bytes of its buffer; none is a host memory error. -/
def putCmd (data : Option (List Byte)) (s : State) (c : HostCtx) : State :=
  if c.accepted then s
  else objRun s c true (fun s =>
    if ctxPart c = 0 then putFirst s c data
    else match s.arv.puts.find? (fun p => p.oid == ctxOid c), catFind s (ctxOid c) with
    | some p, some e =>
      if ¬ (p.next = ctxPart c ∧ ctxLba c = 0 ∧ partFits c p.bytes.length e.len) then hostComplete s c.num stInvalidField 0
      else match data with
      | none => dataFail s c
      | some all => putPart s c e p (partBuffer c all) 0
    | _, _ => hostComplete s c.num stInvalidField 0)

def execPut (ctx : Fin 4096) (data : Option (List (BitVec 8))) (s : State) : Host.Outcome State Fault Refusal :=
  .next (hostCmd s ctx.val 0x20 (putCmd data))

/-- A PENDING object is abandoned: its blocks are padded, its entry freed, an event logged (R461). -/
def pendingAbandon (s : State) (oid : Nat) : State :=
  match catFind s oid with
  | some e =>
    if e.st = 1 then
      let s1 := modArv (padReserved (catFree s oid) e.lba (objBlocks e.len)) (fun a => { a with puts := a.puts.filter (fun q => q.oid != oid) })
      eventLog (fset s1 fldARV_STAT_ABANDONED) stAborted oid
    else s
  | none => s

/-- PENDING_ABANDON. -/
def execPendingAbandon (oid : BitVec 128) (s : State) : Host.Outcome State Fault Refusal := .next (pendingAbandon s oid.toNat)

/-! ### GET and LIST (R460) -/

/-- GET: the bytes from the offset, decrypted, up to the first that fails; then the status that applies first.  It waits until
every block has come. -/
def getCmd (medium : List MediumBlock) (s : State) (c : HostCtx) : State :=
  objRun s c false (fun s =>
    match (catFind s (ctxOid c)).filter (fun e => e.st != 1) with
    | none => hostComplete s c.num stObjectNotFound 0
    | some e =>
      let off := ctxLba c
      if countBad c 4096 ∨ off % 4096 ≠ 0 ∨ (getVerify c ∧ (off ≠ 0 ∨ 4096 * ctxCount c < e.len)) then hostComplete s c.num stInvalidField 0
      else
        let want := Nat.min (4096 * ctxCount c) (e.len - off)
        let (bs, bad) := blocksRead s (objBlocks want) (e.lba + off / 4096) medium
        let out := bs.take want
        if bad.isNone ∧ bs.length < 4096 * objBlocks want then s
        else
        let s1 := sendData (siWalks s (e.lba + off / 4096) (objBlocks want)) c out
        match bad with
        | some (_, st) => hostComplete s1 c.num (if e.st = 4 then stUnrecovered else st) out.length
        | none =>
          if e.st = 4 then hostComplete s1 c.num stUnrecovered out.length
          else if e.st = 3 then hostComplete s1 c.num stFixityMismatch out.length
          else if getVerify c ∧ sha256 out ≠ e.digest then
            hostComplete (count (catMod s1 e.oid (fun x => { x with st := 3 })) 494) c.num stFixityMismatch out.length
          else hostComplete s1 c.num stSuccess out.length)

def execGet (ctx : Fin 4096) (medium : List MediumBlock) (s : State) : Host.Outcome State Fault Refusal :=
  .next (hostCmd s ctx.val 0x21 (getCmd medium))

/-- LIST: entries from the first OID not below the one given. -/
def listCmd (s : State) (c : HostCtx) : State :=
  objRun s c false (fun s =>
    if countBad c 128 then hostComplete s c.num stInvalidField 0
    else
      let l := (s.arv.cat.filter (fun e => decide (ctxOid c ≤ e.oid))).take (ctxCount c)
      hostComplete (sendData s c (l.flatMap catBytes)) c.num stSuccess l.length)

def execList (ctx : Fin 4096) (s : State) : Host.Outcome State Fault Refusal := .next (hostCmd s ctx.val 0x22 listCmd)

/-! ### Audits (R462, R463) -/

/-- The first block of each tile that an object has blocks in. -/
def objStarts (e : CatEntry) : List Nat :=
  ((List.range (objBlocks e.len / 32 + 2)).map (fun i => if i = 0 then e.lba else (e.lba / 32 + i) * 32)).filter
    (fun l => decide (l < e.lba + objBlocks e.len))

/-- The tiles of an object, in order. -/
def objTiles (s : State) (e : CatEntry) : List Nat := (objStarts e).filterMap (lbaPta s)

/-- Tiles one after another in one band: what one audit request covers, at most 29. -/
def auditRuns (l : List Nat) (acc : List (List Nat)) : List (List Nat) :=
  match l with
  | [] => acc
  | t :: rest =>
    match acc.getLast? with
    | some run =>
      if run.length < 29 ∧ run.getLast? = some (t - 32) ∧ (t - 32) / 1024 = t / 1024 then auditRuns rest (acc.dropLast ++ [run ++ [t]])
      else auditRuns rest (acc ++ [[t]])
    | none => auditRuns rest [[t]]

/-- An audit request (R462). -/
def auditRequest (oid first tiles index : Nat) : BitVec 256 :=
  BitVec.ofNat 256 (oid * 2 ^ 128 + first * 2 ^ 96 + tiles * 2 ^ 88 + index * 2 ^ 64)

/-- An audit of an object begins: its requests go to the request FIFO in object order. -/
def auditBegin (s : State) (e : CatEntry) (ctx : Option Nat) : State :=
  let tiles := objTiles s e
  let runs := auditRuns tiles []
  let s1 := modArv (siWalks s e.lba (objBlocks e.len)) (fun a => { a with audits := a.audits ++ [⟨e.oid, ctx, e.lba, tiles, [], [], false⟩] })
  forEach ((List.range runs.length).zip runs) s1 (fun t p =>
    fifoPush t 11 (auditRequest e.oid (p.2.headD 0) p.2.length p.1))

/-- AUDIT of one object; it completes with the audit's result. -/
def auditCmd (s : State) (c : HostCtx) : State :=
  if c.begun then s
  else objRun s c false (fun s =>
    match (catFind s (ctxOid c)).filter (fun e => e.st != 1) with
    | none => hostComplete s c.num stObjectNotFound 0
    | some e => auditBegin s e (some c.num))

def execAudit (ctx : Fin 4096) (s : State) : Host.Outcome State Fault Refusal := .next (hostCmd s ctx.val 0x23 auditCmd)

/-- Whether an object's audit is due: STORED or DAMAGED, its last audit older than PERIOD days. -/
def auditDue (s : State) (e : CatEntry) : Bool :=
  (e.st == 2 || e.st == 3) && decide (fget s fldARV_AUD_CFG_PERIOD * 86400000000000 < archiveTime s - e.auditTime) &&
    !(s.arv.audits.any (fun a => a.oid == e.oid))

/-- The engine takes the next due object from ARV_CURSOR; past the last one the cursor wraps and LAP sets.  A locked disc is not
audited: its blocks cannot be decrypted (R464, R466; DEDUCED, log 117). -/
def auditWalk (s : State) : State :=
  if !(archivePresent s.variant && fbit s fldARV_CTL_AUDIT_EN) || discLockedKey s then s
  else if clampNat (fget s fldARV_AUD_CFG_MAX_OBJ) 1 8 ≤ s.arv.audits.length then s
  else
    let cur := fget s fldARV_CURSOR_INDEX
    match (((List.range s.arv.cat.length).zip s.arv.cat).find? (fun p => decide (cur ≤ p.1) && auditDue s p.2)) with
    | some (i, e) =>
      let past := decide (s.arv.cat.length ≤ i + 1)
      auditBegin (sif past (fput s fldARV_CURSOR_INDEX (if past then 0 else i + 1)) (fun t => fset t fldARV_STAT_LAP)) e none
    | none => fset (fput s fldARV_CURSOR_INDEX 0) fldARV_STAT_LAP

/-- AUDIT_WALK. -/
def execAuditWalk (s : State) : Host.Outcome State Fault Refusal := .next (auditWalk s)

/-- What the fields of a completion record say (R163). -/
def recPta (r : BitVec 256) : Nat := bitsOf r.toNat 255 224
def recOutcome (r : BitVec 256) : Nat := bitsOf r.toNat 223 220
def recWeak (r : BitVec 256) : Bool := r.getLsbD 183

/-- A tile of an audit comes in, or ends without data; a later read of the same tile takes its place (R337). -/
def auditTake (a : Audit) (r : BitVec 256) (data : Option (List Byte)) : Audit :=
  let weak := recOutcome r == 2 || (recOutcome r == 1 && recWeak r)
  let b := { a with
    parts := a.parts.filter (fun p => p.1 != recPta r)
    failed := a.failed.filter (fun p => p != recPta r) }
  match data.filter (fun _ => decide (recOutcome r ≤ 2)) with
  | some bs => { b with parts := b.parts ++ [(recPta r, bs)], weak := a.weak || weak }
  | none => { b with failed := b.failed ++ [recPta r] }

/-- The engine consumes an audit record while it is the FIFO's consumer; the tile's buffer lies at `base` (R462). -/
def auditConsume (s : State) (base : Nat) : State :=
  if fget s (fldFIFO_CFG_CONSUMER 10) ≠ Agent.archive.id then s
  else match fifoPop s Agent.archive.id 10 with
  | (s1, _, some r) =>
    let (s2, d) := memRead s1 4 base 131072
    let data := match d with | some (bs, false) => some bs | _ => none
    modArv s2 (fun a => { a with audits := a.audits.map (fun u => if u.tiles.contains (recPta r) then auditTake u r data else u) })
  | (s1, _, none) => s1

/-- AUDIT_RECORD_CONSUME. -/
def execAuditRecordConsume (base : BitVec 40) (s : State) : Host.Outcome State Fault Refusal :=
  .next (if archivePresent s.variant then auditConsume s base.toNat else s)

/-- The bytes of the object that the audit's tiles hold, decrypted; none if a tile is missing. -/
def auditBytes (s : State) (e : CatEntry) (a : Audit) : Option (List Byte) :=
  ((List.range (objBlocks e.len)).mapM (fun i =>
    let lba := e.lba + i
    ((lbaPta s lba).bind (fun t => aget? a.parts t)).map (fun d => decipher s lba ((d.drop (4096 * (lba % 32))).take 4096)))).map
      (fun l => l.flatten.take e.len)

/-- An audit leaves those that run. -/
def auditDrop (s : State) (a : Audit) : State := modArv s (fun v => { v with audits := v.audits.erase a })

/-- Whether every tile of an audit has an outcome. -/
def auditWhole (a : Audit) : Bool := a.tiles.all (fun t => a.parts.any (fun p => p.1 == t) || a.failed.contains t)

/-- An audit ends (R463): counts, events, and the AUDIT command's completion. -/
def auditEnd (s : State) (e : CatEntry) (a : Audit) : State :=
  let s1 := count (auditDrop s a) 493
  let done (t : State) (st : Nat) : State :=
    match a.ctx with
    | some n => hostComplete t n st (((catFind t e.oid).map (·.auditCount)).getD 0)
    | none => t
  match auditBytes s e a with
  | none => done (eventLog (catMod s1 e.oid (fun x => { x with st := 4 })) stUnrecovered e.oid) stUnrecovered
  | some bs =>
    if sha256 bs = e.digest then
      let s2 := catMod s1 e.oid (fun x =>
        { x with
          st := 2
          auditTime := archiveTime s
          auditCount := x.auditCount + 1
          flags := if a.weak then x.flags / 2 * 2 + 1 else x.flags })
      done (if a.weak then fset s2 fldARV_STAT_WEAK else s2) stSuccess
    else
      let s2 := fset (count (catMod s1 e.oid (fun x => { x with st := 3 })) 494) fldARV_STAT_DAMAGED
      done (eventLog s2 stFixityMismatch e.oid) stFixityMismatch

/-- An audit ends without a result: its AUDIT command completes with a status. -/
def auditStop (s : State) (a : Audit) (st : Nat) : State :=
  match a.ctx with
  | some n => hostComplete (auditDrop s a) n st 0
  | none => auditDrop s a

/-- An audit's end, when every tile has its outcome: an object whose LBA changed meanwhile is audited again (R463); one that has
left the catalogue is not found, and on a disc that was locked meanwhile the audit ends NOT_READY (R466). -/
def auditResult (s : State) (oid : Nat) : State :=
  match s.arv.audits.find? (fun a => a.oid == oid), catFind s oid with
  | some a, some e =>
    if a.lba ≠ e.lba then auditBegin (auditDrop s a) e a.ctx
    else if discLockedKey s then auditStop s a stNotReady
    else if auditWhole a then auditEnd s e a
    else s
  | some a, none => auditStop s a stObjectNotFound
  | none, _ => s

/-- AUDIT_RESULT. -/
def execAuditResult (oid : BitVec 128) (s : State) : Host.Outcome State Fault Refusal := .next (auditResult s oid.toNat)

/-- A weak-tile notice sets WEAK of the object that has the tile (R164, R463). -/
def weakNotice (s : State) : State :=
  match s.weakTiles with
  | [] => s
  | (pta, _) :: rest =>
    let s1 := { s with weakTiles := rest }
    match s.arv.cat.find? (fun e => e.st != 1 && (objTiles s e).contains pta.toNat) with
    | some e => fset (catMod s1 e.oid (fun x => { x with flags := x.flags / 2 * 2 + 1 })) fldARV_STAT_WEAK
    | none => s1

/-- WEAK_TILE_NOTICE. -/
def execWeakTileNotice (s : State) : Host.Outcome State Fault Refusal := .next (weakNotice s)

/-- A WEAK object is written again as a new copy under the rules of part 0; `copy` is what the new copy reads as.  A digest
that matches repoints the entry (R463). -/
def weakRefresh (s : State) (oid : Nat) (copy : List Byte) : State :=
  match catFind s oid, objGate s true with
  | some e, none =>
    if fbit s fldARV_CTL_REFRESH_EN ∧ e.flags % 2 = 1 ∧ (e.st = 2 ∨ e.st = 3) then
      match objectPlace s (objBlocks e.len) with
      | .error _ => s
      | .ok n =>
        let lba := n * zoneBlocks + (zoneOf s n).wp
        if ¬ siRoom s n lba then s
        else
          let s1 := acceptAt (reserve s n (objBlocks e.len)) lba (blocksOf (objBlocks e.len) copy)
          if sha256 (copy.take e.len) = e.digest then
            count (catMod s1 oid (fun x => { x with lba := lba, hzone := n, prevLba := e.lba, flags := 2 })) 495
          else padReserved s1 lba (objBlocks e.len)
    else s
  | _, _ => s

/-- WEAK_REFRESH. -/
def execWeakRefresh (oid : BitVec 128) (copy : List (BitVec 8)) (s : State) : Host.Outcome State Fault Refusal :=
  .next (weakRefresh s oid.toNat copy)

end Machine
end Sys2Proof
end

