-- ==== Sys2Proof/Machine/Cache.lean ====
section
/-! DEFINITION. The caches: the L1 caches of the Plaza cores (R368 to R371, R379, R387), the commands of the Arcade and its
control (R373, R377, R386), and the maintenance operations (R383 to R385). -/

namespace Sys2Proof
namespace Machine

/-! ### The L1 caches -/

/-- Whether an L1 may hold an address: staging memory, and the boot ROM in an L1I (R368). -/
def l1Holds (c : L1Cache) (a : Nat) : Bool :=
  match regionOf a, c with
  | .staging, _ => true
  | .rom, .instr => true
  | _, _ => false

/-- Whether an L1 is on: its L1_CTL bit is 1 and it does not wait to empty (R387, R389). -/
def l1On (s : State) (p : Fin 4) (c : L1Cache) : Bool :=
  (match c with
   | .instr => fbitAt s fldL1_CTL_IEN p.val
   | .data => fbitAt s fldL1_CTL_DEN p.val) && !(l1Get s p c).draining

/-- The way that a fill takes: the lowest invalid one, else the least recently used (R368). -/
def l1Victim (q : L1) (a : Nat) : Nat :=
  let stamp (w : Nat) : Option Nat := (aget? q.lines (l1Key (l1Set a) w)).map (·.stamp)
  match (List.range 4).find? (fun w => (stamp w).isNone) with
  | some w => w
  | none => (List.range 4).foldl (fun best w => if (stamp w).getD 0 < (stamp best).getD 0 then w else best) 0

/-- The Arcade takes or declines a clean line that an L1 evicts; a line that a miss register fetches is one it is about to hold,
and the offer merges and is declined (R379, R380, R386). -/
def arcOffer (s : State) (a : Nat) (data : List Byte) : State :=
  let held := (arcFind s a).isSome || (missIndex s a).isSome
  let victim := if arcMayAlloc s 0 && fbit s fldARC_CTL_CLEAN_VICT && !held then arcVictim s 0 a else none
  match victim with
  | none => count s 418
  | some w =>
    match aget? s.arcade.lines (arcKey (arcBank a) (arcSet a) w) with
    | some v => if v.dirty then count s 418 else arcInstall s a w ⟨arcTag a, false, data, false, 0⟩
    | none => arcInstall s a w ⟨arcTag a, false, data, false, 0⟩

/-- A line enters an L1; the line it evicts is offered to the Arcade (R368, R379). -/
def l1Install (s : State) (p : Fin 4) (c : L1Cache) (a : Nat) (data : List Byte) : State :=
  let q := l1Get s p c
  let w := l1Victim q a
  let old := aget? q.lines (l1Key (l1Set a) w)
  let s1 := modL1 s p c (fun q =>
    { q with lines := aset q.lines (l1Key (l1Set a) w) ⟨l1Tag a, data, q.clock + 1, 0⟩, clock := q.clock + 1 })
  match old with
  | some l => if l1Holds .data (l.tag * 2 ^ 13) then arcOffer s1 (l.tag * 2 ^ 13 + l1Set a * 64) l.data else s1
  | none => s1

/-- A miss register's fill lands and its line enters the L1 (R380).  Without such a register nothing happens. -/
def l1Fill (s : State) (p : Fin 4) (c : L1Cache) (a : Nat) : State :=
  match (l1Get s p c).miss.find? (fun m => m.line == eccWord a) with
  | none => s
  | some m =>
    let s1 := modL1 s p c (fun q => { q with miss := q.miss.filter (fun x => x.line != eccWord a) })
    l1Settle p c (l1Install s1 p c (eccWord a) m.data)

/-- L1_FILL. -/
def execL1Fill (p : CoreId) (cache : L1Cache) (line : BitVec 40) (s : State) : Host.Outcome State Fault Refusal :=
  .next (l1Fill s p cache line.toNat)

/-- The miss registers of an L1 (R380). -/
def l1Regs : L1Cache → Nat
  | .instr => 2
  | .data => 4

/-- A miss takes a miss register for its line; with none free the request waits until the oldest fill has landed. -/
def l1Miss (s : State) (p : Fin 4) (c : L1Cache) (a : Nat) (data : List Byte) : State :=
  let q := l1Get s p c
  let s1 := if q.miss.length < l1Regs c then s
    else match q.miss with
      | m :: _ => l1Fill s p c m.line
      | [] => s
  modL1 s1 p c (fun q => { q with miss := q.miss ++ [⟨eccWord a, data, 0⟩] })

/-- Hits and misses of the L1 caches: 393 + 4k + j (R552). -/
def l1Counter (p : Fin 4) (c : L1Cache) (miss : Bool) : Nat :=
  393 + 4 * p.val + (match c with | .instr => 0 | .data => 2) + (if miss then 1 else 0)

/-- The SRAM place of an L1's words. -/
def l1Place (p : Fin 4) (c : L1Cache) (place part : Nat) : Config.SramPlace :=
  match c with
  | .instr => .l1i p.val place part
  | .data => .l1d p.val place part

/-- An error of a held line is noted (R395, R421). -/
def l1Note (s : State) (p : Fin 4) (c : L1Cache) (a : Nat) (l : L1Line) (ue : Bool) : State :=
  sramNote s (l1Place p c (l1Key (l1Set a) ((l1Way (l1Get s p c) a).getD 0)) (lineBad l.err)) ue

/-- A miss of an L1 that no miss register holds: the Arcade answers, and a register takes the line unless it is poisoned. -/
def l1MissRead (s : State) (p : Fin 4) (c : L1Cache) (a n : Nat) : State × Option (List Byte × Bool) :=
  match memRead s 0 (eccWord a) 64 with
  | (s1, some (d, bad)) => (if bad then s1 else l1Miss s1 p c a d, some ((d.drop (a % 64)).take n, bad))
  | (s1, none) => (s1, none)

/-- A miss finds the register of its line with eight merged requests: it waits until the fill has landed (R380). -/
def l1Join (s : State) (p : Fin 4) (c : L1Cache) (a : Nat) : State :=
  match (l1Get s p c).miss.find? (fun m => m.line == eccWord a) with
  | some m => if m.merged < 8 then s else l1Fill s p c a
  | none => s

/-- A core reads bytes of normal memory that lie in one line: from its L1, from a line that a miss register fetches, or from
the Arcade and then with a miss register of its own (R368 to R371, R380, R387).  A held line that has become uncorrectable
is dropped and fetched again (DESIGN CHOICE, log 114).  None is a bus error. -/
def l1Read (s0 : State) (p : Fin 4) (c : L1Cache) (a n : Nat) : State × Option (List Byte × Bool) :=
  if !(l1On s0 p c && l1Holds c a) then memRead s0 0 a n
  else
    let s := l1Join s0 p c a
    let part (d : List Byte) : List Byte := (d.drop (a % 64)).take n
    match l1Find (l1Get s p c) a, (l1Get s p c).miss.find? (fun m => m.line == eccWord a) with
    | some l, _ =>
      match lineDecode l.err with
      | (.good, _) => (modL1 (count s (l1Counter p c false)) p c (fun q => l1Use q a id), some (part l.data, false))
      | (.ce, rest) =>
        (modL1 (count (l1Note s p c a l false) (l1Counter p c false)) p c (fun q => l1Use q a id), some (part (flipBytes l.data rest), false))
      | (.ue, _) => l1MissRead (modL1 (count (l1Note s p c a l true) (l1Counter p c true)) p c (l1Inv a)) p c a n
    | none, some m =>
      (modL1 (count s (l1Counter p c true)) p c (fun q =>
        { q with miss := q.miss.map (fun x => if x.line = eccWord a then { x with merged := x.merged + 1 } else x) }), some (part m.data, false))
    | none, none => l1MissRead (count s (l1Counter p c true)) p c a n

/-- A Plaza core writes bytes of normal memory: TCM or the Arcade takes them, and the L1D caches follow (R358, R369).  None is a
bus error. -/
def coreWrite (s : State) (p : Fin 4) (a : Nat) (bs : List Byte) : Option State :=
  (memWrite s 0 a bs).map (fun t =>
    if regionOf a = .staging then
      ((pieces a bs.length (bs.length / 64 + 3)).foldl
        (fun (st : State × List Byte) pc => (l1Store st.1 p pc.1 (st.2.take pc.2), st.2.drop pc.2)) (t, bs)).1
    else t)

/-- An L1_CTL bit is written 0: the cache stops allocating, waits for its miss registers, then empties (R387). -/
def l1Disable (s : State) (p : Fin 4) (c : L1Cache) : State :=
  let on := l1On s p c
  let s1 := match c with
    | .instr => fputAt s fldL1_CTL_IEN p.val false
    | .data => fputAt s fldL1_CTL_DEN p.val false
  if on then l1Settle p c (modL1 s1 p c (fun q => { q with draining := true })) else s1

/-- L1_DISABLE. -/
def execL1Disable (_agent : Agent) (p : CoreId) (cache : L1Cache) (s : State) : Host.Outcome State Fault Refusal :=
  .next (reply (l1Disable s p cache) .ok 0 [])

/-! ### Requests and fills at the Arcade (R373, R375, R380, R381) -/

/-- The bytes of a store that lie in its line. -/
def arcClip (a : Nat) (store : Option (List Byte)) : Option (List Byte) := store.map (fun bs => bs.take (64 - a % 64))

/-- A sender's requester class; 4 stands for one that never allocates (R373). -/
def arcClass : ArcFrom → Nat
  | .plaza _ => 0
  | .indexWalker => 1
  | .catalogueWalker => 2
  | .hostLink => 3
  | .other => 4

/-- The Plaza core of a request of class 0. -/
def arcCore : ArcFrom → Fin 4
  | .plaza p => p
  | _ => 0

/-- ARCADE_REQUEST.  The flips are those that the held line's SRAM words show beside the stored ones. -/
def execArcadeRequest (sender : ArcFrom) (addr : BitVec 40) (store : Option (List (BitVec 8))) (flips : BitVec 576)
    (s : State) : Host.Outcome State Fault Refusal :=
  .next (arcRequest (arcFlip s addr.toNat flips.toNat) ⟨arcClass sender, addr.toNat, arcClip addr.toNat store, arcCore sender⟩)

/-- A miss register's fill lands: its requests are served, the last one's answer shows, and the requests that wait try
again (R380). -/
def arcFill (s : State) (b i : Nat) : State :=
  match (s.arcade.miss[b]!)[i]? with
  | none => s
  | some m =>
    let s1 := arcLand s b i
    let last : ArcAnswer := s1.arcade.answers.getLast?.getD ⟨m.line, [], false⟩
    arcRetry (match m.reqs.getLast? with
      | some r => arcAnswer s1 r last.data last.poison
      | none => s1) b

/-- ARCADE_FILL. -/
def execArcadeFill (bank : Fin 4) (reg : Fin 16) (s : State) : Host.Outcome State Fault Refusal :=
  .next (arcFill s bank.val reg.val)

/-! ### Control (R377, R386) -/

/-- A write of EN = 0: an Arcade that is on starts to drain; a held enable is dropped. -/
def arcDisable (s : State) : State :=
  let s1 := fclr s fldARC_CTL_EN
  if arcState s = 1 then fput s1 fldARC_STAT_STATE 2 else if arcState s = 2 then fclr s1 fldARC_STAT_EN_PEND else s1

/-- ARC_DISABLE. -/
def execArcDisable (_agent : Agent) (s : State) : Host.Outcome State Fault Refusal := .next (reply (arcDisable s) .ok 0 [])

/-- A write of EN = 1: on, or held during a drain. -/
def arcEnable (s : State) : State :=
  let s1 := fset s fldARC_CTL_EN
  if arcState s = 0 then fput s1 fldARC_STAT_STATE 1 else if arcState s = 2 then fset s1 fldARC_STAT_EN_PEND else s1

/-- ARC_ENABLE. -/
def execArcEnable (_agent : Agent) (s : State) : Host.Outcome State Fault Refusal := .next (reply (arcEnable s) .ok 0 [])

/-- Land every busy miss register of a bank. -/
def arcLandAll (s : State) (b : Nat) : State :=
  forEach (List.range (s.arcade.miss[b]!).length) s (fun t _ => arcLand t b 0)

/-- Write back every dirty line and invalidate every line. -/
def arcWalk (s : State) : State :=
  setArcLines (forEach s.arcade.lines s (fun t p => arcWriteBack t (p.1 / 16384) (p.1 % 16384 / 16) (p.1 % 16) p.2)) []

/-- The drain ends (R386). -/
def arcDrainDone (s : State) : State :=
  if arcState s = 2 then
    let s1 := fset (fput (arcWalk (forEach (List.range 4) s arcLandAll)) fldARC_STAT_STATE 0) fldARC_STAT_DRAIN_DONE
    let s2 := if fbit s1 fldARC_STAT_EN_PEND then fput (fclr s1 fldARC_STAT_EN_PEND) fldARC_STAT_STATE 1 else s1
    forEach (List.range 4) s2 arcRetry
  else s

/-- ARC_DRAIN_DONE. -/
def execArcDrainDone (s : State) : Host.Outcome State Fault Refusal := .next (arcDrainDone s)

/-- A write of ARC_PARTn (R377). -/
def arcPartWrite (s : State) (n mask : Nat) : State :=
  if (setBits 16 mask).length < 2 then fset s fldARC_STAT_PART_BAD else fput s (fldARC_PART_MASK n) mask

/-- ARC_PART_WRITE. -/
def execArcPartWrite (_agent : Agent) (n : Fin 4) (mask : BitVec 16) (s : State) : Host.Outcome State Fault Refusal :=
  .next (reply (arcPartWrite s n.val mask.toNat) .ok 0 [])

/-! ### Maintenance (R383 to R385) -/

/-- Invalidate a line in one kind of L1 of all four cores, once a fill of it has landed; an address outside the scope does nothing. -/
def cmoL1Addr (s : State) (c : L1Cache) (a : Nat) : State :=
  if regionOf a = .staging ∨ regionOf a = .rom then
    forEach (List.finRange 4) s (fun t p => l1Settle p c (modL1 (l1Fill t p c a) p c (l1Inv a)))
  else s

/-- The fills of an L1's miss registers land, oldest first. -/
def l1FillAll (s : State) (p : Fin 4) (c : L1Cache) : State :=
  (l1Get s p c).miss.foldl (fun t m => l1Fill t p c m.line) s

/-- Invalidate a whole L1 of one core, once its fills have landed. -/
def cmoL1All (s : State) (p : Fin 4) (c : L1Cache) : State := l1Settle p c (modL1 (l1FillAll s p c) p c l1InvAll)

/-- Wait for the fill of a line that a miss register fetches. -/
def arcAwait (s : State) (a : Nat) : State :=
  match missIndex s a with
  | some i => arcLandRetry s (arcBank a) i
  | none => s

/-- The operations on the line held at a way: clean it, or flush it. -/
def arcCleanWay (s : State) (bank set way : Nat) : State :=
  match aget? s.arcade.lines (arcKey bank set way) with
  | some l =>
    if l.dirty then
      let s1 := arcWriteBack s bank set way l
      setArcLines s1 (aset s1.arcade.lines (arcKey bank set way) { l with dirty := false })
    else s
  | none => s

def arcFlushWay (s : State) (bank set way : Nat) : State :=
  match aget? s.arcade.lines (arcKey bank set way) with
  | some l =>
    let s1 := arcWriteBack s bank set way l
    setArcLines s1 (aerase s1.arcade.lines (arcKey bank set way))
  | none => s

/-- An Arcade operation by address, for the line if it is held. -/
def arcByAddr (s : State) (a : Nat) (f : State → Nat → State) : State :=
  if regionOf a = .staging then
    let s1 := arcAwait s a
    match arcWay s1 a with
    | some w => f s1 w
    | none => s1
  else s

/-- ARC_CLEAN_A. -/
def cmoArcClean (s : State) (a : Nat) : State := arcByAddr s a (fun t w => arcCleanWay t (arcBank a) (arcSet a) w)

/-- ARC_INV_A: dirty data is discarded. -/
def cmoArcInv (s : State) (a : Nat) : State := arcByAddr s a (fun t w => arcDrop t a w)

/-- ARC_FLUSH_A. -/
def cmoArcFlush (s : State) (a : Nat) : State := arcByAddr s a (fun t w => arcFlushWay t (arcBank a) (arcSet a) w)

/-- Wait for the fills that may take a way of a set (R385). -/
def arcAwaitSet (s : State) (bank set : Nat) : State :=
  ((s.arcade.miss[bank]!).filter (fun m => arcSet m.line = set)).foldl (fun t m => arcAwait t m.line) s

/-- ARC_CLEAN_SW and ARC_FLUSH_SW: rs1 holds bank [15:14], way [13:10] and set [9:0] (R383). -/
def cmoArcCleanSw (s : State) (x : Nat) : State :=
  arcCleanWay (arcAwaitSet s (bitsOf x 15 14) (bitsOf x 9 0)) (bitsOf x 15 14) (bitsOf x 9 0) (bitsOf x 13 10)

def cmoArcFlushSw (s : State) (x : Nat) : State :=
  arcFlushWay (arcAwaitSet s (bitsOf x 15 14) (bitsOf x 9 0)) (bitsOf x 15 14) (bitsOf x 9 0) (bitsOf x 13 10)

/-- ARC_FETCH_A: no action on a hit; else a class 0 miss, which touches no L1. -/
def cmoArcFetch (s : State) (a : Nat) : State :=
  if stagingUsable s a then
    let s1 := arcAwait s a
    if (arcWay s1 a).isSome then s1 else (arcReadLine s1 0 (eccWord a)).1
  else s

end Machine
end Sys2Proof
end

