-- ==== Sys2Proof/Machine/Ldpc.lean ====
section
/-! DEFINITION. The inner LDPC code: its parity-check matrix (R134 to R137), its encoder (R138) and its layered normalised
min-sum decoder (R141). -/

namespace Sys2Proof
namespace Machine

/-! ### The matrix -/

/-- Block row and shift of circulant k of information block column c (R136). -/
def ldpcInfo (c k : Nat) : Nat × Nat :=
  let p := c % 67
  let q := c / 67
  if k = 0 then (p, (5 * p + 3 * q) % 16)
  else if k = 1 then ((p + 1 + q) % 67, (5 * p + 3 * q + 7) % 16)
  else ((p + 34 + 2 * q) % 67, (5 * p + 3 * q + 14) % 16)

/-- The circulants of block row r among the information columns: column and shift. -/
def ldpcInfoRow (r : Nat) : List (Nat × Nat) :=
  (List.range 2056).flatMap (fun c =>
    [0, 1, 2].filterMap (fun k => if (ldpcInfo c k).1 = r then some (c, (ldpcInfo c k).2) else none))

/-- The circulants of block row r: the information columns, then parity columns 2,055 + r and 2,056 + r (R137). -/
def ldpcRow (r : Nat) : List (Nat × Nat) :=
  ldpcInfoRow r ++ (if r = 0 then [] else [(2055 + r, 0)]) ++ [(2056 + r, 0)]

/-- The codeword bits of check 16 r + t, for the circulants of its block row (R135). -/
def checkBits (row : List (Nat × Nat)) (t : Nat) : List Nat := row.map (fun p => 16 * p.1 + (t + p.2) % 16)

/-- The block rows with their circulants. -/
def ldpcRows : List (List (Nat × Nat)) := (List.range 67).map ldpcRow

/-! ### Encoding -/

/-- The parity bits of 32,896 information bits: u(r, t) accumulated over the block rows (R138). -/
def ldpcParity (info : Array Bool) : List Bool :=
  ((List.range 67).foldl (fun (acc : List Bool × List Bool) r =>
    let row := ldpcInfoRow r
    let p := (List.range 16).map (fun t =>
      ((checkBits row t).foldl (fun x i => x != info.getD i false) false) != acc.2.getD t false)
    (acc.1 ++ p, p)) ([], [])).1

/-- A codeword: the information bits, then the parity bits (R134, R138). -/
def ldpcEncode (info : List Bool) : List Bool := info ++ ldpcParity info.toArray

/-! ### Decoding -/

/-- Saturate to plus or minus 127 (R141). -/
def sat127 (x : Int) : Int := clampInt x (-127) 127

/-- The two smallest numbers of a list, counted with repeats. -/
def minTwo (l : List Nat) : Nat × Nat :=
  l.foldl (fun m x => if x < m.1 then (x, m.1) else if x < m.2 then (m.1, x) else m) (1000, 1000)

/-- One check: the messages from it to its bits, in order, for the values Q towards it (R141). -/
def checkMessages (norm : Nat) (q : List Int) : List Int :=
  let m := minTwo (q.map Int.natAbs)
  let neg := q.foldl (fun b x => b != decide (x < 0)) false
  q.map (fun x =>
    let mag := (if x.natAbs = m.1 then m.2 else m.1) * norm / 8
    if neg != decide (x < 0) then -(mag : Int) else mag)

/-- Update one check: the values L of its bits, and its messages. -/
def checkUpdate (norm : Nat) (l : Array Int) (bits : List Nat) (r : List Int) : Array Int × List Int :=
  let q := (bits.zip r).map (fun p => sat127 (l.getD p.1 0 - p.2))
  let r' := checkMessages norm q
  ((bits.zip (q.zip r')).foldl (fun a p => a.setIfInBounds p.1 (sat127 (p.2.1 + p.2.2))) l, r')

/-- Whether every check holds for the hard decisions of L. -/
def allChecks (l : Array Int) : Bool :=
  ldpcRows.all (fun row => (List.range 16).all (fun t =>
    !((checkBits row t).foldl (fun x i => x != decide (0 < l.getD i 0)) false)))

/-- One iteration: the layers in order, and in each its 16 checks. -/
def ldpcIter (norm : Nat) (l : Array Int) (r : List (List (List Int))) : Array Int × List (List (List Int)) :=
  (ldpcRows.zip r).foldl (fun (acc : Array Int × List (List (List Int))) p =>
    let one := ((List.range 16).zip p.2).foldl (fun (b : Array Int × List (List Int)) tp =>
      let u := checkUpdate norm b.1 (checkBits p.1 tp.1) tp.2
      (u.1, b.2 ++ [u.2])) (acc.1, [])
    (one.1, acc.2 ++ [one.2])) (l, [])

/-- The loop: at most `fuel` iterations, ending early when EARLY_STOP is set and every check holds.  Answers L and the
iterations done. -/
def ldpcLoop (early : Bool) (norm fuel it : Nat) (l : Array Int) (r : List (List (List Int))) : Array Int × Nat :=
  match fuel with
  | 0 => (l, it)
  | fuel + 1 =>
    if early && allChecks l then (l, it)
    else
      let u := ldpcIter norm l r
      ldpcLoop early norm fuel (it + 1) u.1 u.2

/-- Decode 33,968 soft values: the hard decisions, the iterations, and whether every check holds (R141). -/
def ldpcDecode (early : Bool) (norm iterMax : Nat) (soft : List Int) : List Bool × Nat × Bool :=
  let l0 := (soft.map (fun x => 4 * x)).toArray
  let r0 := ldpcRows.map (fun row => List.replicate 16 (row.map (fun _ => (0 : Int))))
  let u := ldpcLoop early norm iterMax 0 l0 r0
  (u.1.toList.map (fun x => decide (0 < x)), u.2, allChecks u.1)

/-- Bits, the most significant first, as a number. -/
def bitsNat (l : List Bool) : Nat := l.foldl (fun a b => 2 * a + b.toNat) 0

/-- A number as w bits, the most significant first. -/
def natBits (w x : Nat) : List Bool := (List.range w).map (fun i => x.testBit (w - 1 - i))

/-- Bits as bytes, each most significant bit first (R82). -/
def bitsBytes (n : Nat) (l : List Bool) : List Byte :=
  match n with
  | 0 => []
  | n + 1 => BitVec.ofNat 8 (bitsNat (l.take 8)) :: bitsBytes n (l.drop 8)

/-- Bytes as bits, each most significant bit first (R82). -/
def bytesBits (bs : List Byte) : List Bool := bs.flatMap (fun b => natBits 8 b.toNat)

end Machine
end Sys2Proof
end

