-- ==== Sys2Proof/Machine/Results.lean ====
section
/-! DEFINITION. Where sector results and step records go: a sector's result reaches its tile's entry or the write cell
(R142, R151, R193), packets without a slice end CUT (R595), and a step that ends writes its record (R336, R342). -/

namespace Sys2Proof
namespace Machine

/-- Change one channel. -/
def modCh (s : State) (c : Fin 32) (f : Channel → Channel) : State := { s with ch := s.ch.set c (f s.ch[c]) }

/-- Change one write cell. -/
def modWc (s : State) (n : Fin 8) (f : WriteCell → WriteCell) : State := { s with wc := s.wc.set n (f s.wc[n]) }

/-- Change the tile with a number. -/
def modTile (s : State) (id : Nat) (f : Tile → Tile) : State :=
  { s with tiles := s.tiles.map (fun t => if t.id = id then f t else t) }

/-! ### Step records -/

/-- A step record (R342). -/
def stepRecord (op head status step : Nat) (pta tag : Word) (time : DWord) (sweep : Word) (failMap code : Nat) : BitVec 256 :=
  BitVec.ofNat 256 (op % 16 * 2 ^ 252 + head % 8 * 2 ^ 249 + status % 32 * 2 ^ 244 + step % 2048 * 2 ^ 233 +
    pta.toNat * 2 ^ 192 + tag.toNat * 2 ^ 160 + time.toNat * 2 ^ 96 + sweep.toNat * 2 ^ 64 + failMap % 2 ^ 36 * 2 ^ 28 +
    code % 2 ^ 16 * 2 ^ 12)

/-- A step of a head's portion ends: its record is written, and a step that is not DONE makes its head fall short (R336). -/
def stepEnd (s : State) (ref : SweepRef) (op head status step : Nat) (pta tag : Word) (failMap code : Nat) : State :=
  let s1 := if status = 0 ∨ s.shortHeads.contains (ref.seq, head) then s
    else { s with shortHeads := (ref.seq, head) :: s.shortHeads }
  fifoPush s1 9 (stepRecord op head status step pta tag s.chipTime ref.id failMap code)

/-- The fields of a step's word 0 that more than one reader needs (R319). -/
def stepOp (st : SwpStep) : Nat := bitsOf st.w0.toNat 31 28
def stepTrack (st : SwpStep) : Nat := bitsOf st.w0.toNat 27 26

/-- The tile of a VERIFY_TILE step. -/
def stepTile (s : State) (head idx : Nat) : Option Tile := s.tiles.find? (fun t => t.head == head && t.step == idx && t.kind == .verify)

/-- Whether a data step has ended: its slots have, and a VERIFY_TILE has judged all 36 results (R326, R336). -/
def openDone (s : State) (head : Nat) (o : OpenStep) : Bool :=
  o.left == 0 && (stepOp o.step != 7 ||
    (match stepTile s head o.idx with
     | some t => t.results.length == 36
     | none => true))

/-- End a data step that is done: DONE, or VERIFY_FAIL when its FAIL_MAP is not 0 (R336). -/
def openEnd (s : State) (n : Fin 8) (o : OpenStep) : State :=
  let fm := if stepOp o.step = 7 then ((stepTile s n.val o.idx).map (·.failMap)).getD 0 else 0
  let s1 := modHb s n (fun h => { h with openSteps := h.openSteps.filter (fun x => x.idx != o.idx) })
  stepEnd s1 o.ref (stepOp o.step) n.val (if fm = 0 then 0 else 9) o.idx o.step.w1 o.step.w3 fm 0

/-- End every data step of a head that is done. -/
def stepCheck (s : State) (n : Fin 8) : State :=
  forEach (s.hb[n].openSteps.filter (openDone s n.val)) s (fun t o => openEnd t n o)

/-- Whether a slot belongs to a data step: a tile's read or write slot, or a slot of an obliterated run (R326). -/
def stepOwns (st : SwpStep) (pta : Word) (sector : Nat) : Bool :=
  let op := stepOp st
  if op = 0xA then
    let first := ptaSlot st.w1.toNat
    st.w1.toNat / 2 ^ 10 == pta.toNat / 2 ^ 10 && sector % 4 == stepTrack st && decide (first ≤ ptaSlot pta.toNat) &&
      decide (ptaSlot pta.toNat ≤ first + bitsOf st.w0.toNat 4 0)
  else decide (op ≤ 9) && st.w1 == pta && (op != 9 || sector % 4 == stepTrack st)

/-- An armed slot has ended: its packet descriptor or write record is written, or it was never taken. -/
def slotEnded (s : State) (n : Fin 8) (pta : Word) (sector : Nat) : State :=
  stepCheck (modHb s n (fun h => { h with openSteps := h.openSteps.map (fun o =>
    if stepOwns o.step pta sector then { o with left := o.left - 1 } else o) })) n

/-! ### Sector results -/

/-- The limits of the pass test: SYNC_STRICT, ITER_LIM, QUAL_MIN and ERASE_LIM of the head's RAW_CFG, or its reset values
where the write cell is absent (R193). -/
def passLimits (s : State) (n : Nat) : Bool × Nat × Nat × Nat :=
  if writePresent s.variant then
    (fbit s (fldRAW_CFG_SYNC_STRICT n), fget s (fldRAW_CFG_ITER_LIM n), fget s (fldRAW_CFG_QUAL_MIN n), fget s (fldRAW_CFG_ERASE_LIM n))
  else (true, 4, 0xA0, 64)

/-- VSTAT of a read-back result: PASS, FAIL_DECODE, FAIL_MARGIN, FAIL_SYNC or VERIFY_LOST (R193, R194). -/
def verifyJudge (s : State) (n : Nat) (r : SectorRes) : Nat :=
  let (strict, iterLim, qualMin, eraseLim) := passLimits s n
  if !r.data then 5
  else if r.code ≠ 0 then 1
  else if iterLim < r.iter ∨ eraseLim < r.erased ∨ r.qual < qualMin then 2
  else if r.sync = 0 ∨ (!strict ∧ (r.sync = 1 ∨ r.sync = 2)) then 0
  else 3

/-- DEC_STAT for a sector that ended with a code (R168). -/
def decFlag (s : State) (code : Nat) : State :=
  if code = 2 then fset s fldDEC_STAT_ERASE_SKIP
  else if code = 3 ∨ code = 4 ∨ code = 6 then fset s fldDEC_STAT_FAIL
  else if code = 5 then fset s fldDEC_STAT_MISMATCH
  else if code = 7 then fset s fldDEC_STAT_CUT
  else s

/-- Whether a tile's entry takes the result of a sector read by a head. -/
def tileTakes (head : Nat) (a : SlotAddr) (t : Tile) : Bool :=
  t.phase == .filling && t.head == head && t.pta == a.pta && !(t.results.any (fun p => p.1 == a.sector))

/-- A sector ends with a result: it is counted, and goes to the write cell for the read-back of a write and to its tile's
entry otherwise; VERIFY_TILE also judges it (R142, R193, R326). -/
def sectorOut (s : State) (head : Fin 8) (a : SlotAddr) (verify : Bool) (r : SectorRes) : State :=
  let s1 := decFlag (count s (356 + r.code)) r.code
  if verify then
    modWc s1 head (fun w => { w with slots := w.slots.map (fun q =>
      if q.pta = a.pta ∧ q.sector = a.sector ∧ q.vres = none then { q with vres := some r } else q) })
  else
    stepCheck { s1 with tiles := s1.tiles.map (fun t =>
        if tileTakes head.val a t then
          { t with
            results := aset t.results a.sector r
            failMap := if t.kind = .verify ∧ verifyJudge s head.val r ≠ 0 then t.failMap + 2 ^ a.sector else t.failMap }
        else t) } head

/-- What descriptor entry B says (R125). -/
def dbStatus (b : BitVec 128) : Nat := bitsOf b.toNat 63 60
def dbOut (b : BitVec 128) : Nat := bitsOf b.toNat 59 56
def dbInf (b : BitVec 128) : Bool := b.getLsbD 55
def dbOfs1 (b : BitVec 128) : Nat := bitsOf b.toNat 53 47
def dbOfs2 (b : BitVec 128) : Nat := bitsOf b.toNat 46 40
def dbErased (b : BitVec 128) : Nat := bitsOf b.toNat 39 24
def dbQual (b : BitVec 128) : Nat := bitsOf b.toNat 15 8

/-- A sector result of a packet, without a decoded header. -/
def packetRes (p : Packet) (code iter : Nat) : SectorRes :=
  ⟨code, iter, dbInf p.descB, dbQual p.descB, 0, 0, 0, dbStatus p.descB == 1, dbErased p.descB, dbOut p.descB, dbStatus p.descB == 0⟩

/-- A sector result for a packet whose descriptor is not there. -/
def bareRes (code iter : Nat) : SectorRes := ⟨code, iter, false, 0, 0, 0, 0, false, 0, 7, false⟩

/-- The head that a channel belongs to. -/
def headOfChan (c : Nat) : Fin 8 := Fin.ofNat 8 (c / 4)

/-- Complete packets that the decoder block discards end CUT with iteration count 0, and those of a sector that has
already ended are dropped (R148, R595). -/
def discardSettle (s : State) : State :=
  let cut := s.packets.filter (fun p => s.decDiscard.contains p.id)
  let gone (p : Packet) : Bool := s.decDiscard.contains p.id || s.decDrop.contains p.id
  let ids := (s.packets.filter gone).map (·.id)
  let s1 := { s with
    packets := s.packets.filter (fun p => !(gone p))
    decDiscard := s.decDiscard.filter (fun i => !(ids.contains i))
    decDrop := s.decDrop.filter (fun i => !(ids.contains i)) }
  forEach cut s1 (fun t p => sectorOut t (headOfChan p.chan) p.addr p.verify (packetRes p 7 0))

end Machine
end Sys2Proof
end

