-- ==== Sys2Proof/Machine/RfPath.lean ====
section
/-! DEFINITION. The signal path of the read channels, from a group of samples at the RF Crossing to the soft values: gain (R101,
R102), timing recovery (R103 to R105), equaliser (R106), canceller (R107), detector (R108, R109), dropouts and losses (R116,
R117, R130), and the buffer toward the Data district (R46, R47). -/

namespace Sys2Proof
namespace Machine

/-- The head of a channel and its spot. -/
def chanHead (c : Fin 32) : Fin 8 := ⟨c.val / 4, by omega⟩
def chanSpot (c : Fin 32) : Nat := c.val % 4

/-- Channel s of a head. -/
def headChan (n : Fin 8) (s : Fin 4) : Fin 32 := ⟨4 * n.val + s.val, by omega⟩

/-- Whether a channel's front end is on. -/
def chanOn (s : State) (c : Fin 32) : Bool := fbit s (fldRC_CTL_ENABLE c) && headPresent s.variant (c.val / 4)

/-- Whether a channel searches for wedges (R95, R131). -/
def wedgeOn (s : State) (c : Fin 32) : Bool := chanOn s c && fbit s (fldRC_CTL_WEDGE_EN c)

/-- F of a head: by the AREA of its latest SCHED word, 5,120 before the first (R103).  AREA stands in bits [24:20] of the
word (R321). -/
def headF (s : State) (n : Fin 8) : Nat :=
  match s.hb[n].sched with
  | none => 5120
  | some w => areaF (bitsOf w.toNat 24 20)

/-- Whether the seeded channel rate lies in 0.15 to 1.15 Gbit/s: F bits in a frame period of ns (R98, R103). -/
def rateInRange (f period : Nat) : Bool := decide (15 * period ≤ 100 * f) && decide (100 * f ≤ 115 * period)

/-- F_z / 40 channel bits of a frame are the wedge; 8 more are the splice, and the rest are usable (R76). -/
def usableBits (f : Nat) : Nat := f * 39 / 40 - 8

/-! ### Gain -/

/-- Load the initial gains (R102). -/
def gainInit (s : State) (c : Fin 32) : State :=
  let d := fget s (fldAGC_CFG_DATA_INIT c)
  let w := fget s (fldAGC_CFG_WEDGE_INIT c)
  fput (fput (modCh s c (fun q => { q with dataGain := 256 * d, wedgeGain := 256 * w })) (fldAGC_GAIN_DATA_GAIN c) d)
    (fldAGC_GAIN_WEDGE_GAIN c) w

/-- One gain step: g + (TARGET - A) 2^-MU, clamped to 0..127, with 8 fractional bits (R102). -/
def gainStep (g target a mu : Nat) : Nat :=
  (clampInt ((g : Int) + roundDiv (((target : Int) - a) * 256) (2 ^ mu)) 0 (127 * 256)).toNat

/-- The amplifier's code: the gain rounded to an integer (R102). -/
def gainCode (g : Nat) : Nat := Nat.min ((g + 128) / 256) 127

/-- Where in the frame a group of samples lies, by its first one: the data field, WPRE with the 2 wu before it, or the rest of the
wedge (R71, R101). -/
inductive RfPlace where
  | data | wedgePre | wedge
deriving DecidableEq, Repr

/-- The samples of a frame: 1.2 a nanosecond (R97). -/
def frameSamples (period : Nat) : Nat := period * 12 / 10

/-- The place of a group that begins some samples after the end of the last wedge.  Before a frame period has been measured
there is no prediction, and everything is the data field. -/
def rfPlace (period pos : Nat) : RfPlace :=
  let wu := pos * 25600 / (12 * period)
  if period = 0 ∨ wu < 2494 then .data else if wu < 2504 then .wedgePre else .wedge

/-- Whether the next stream bit lies in the first ACQ_BITS bits of a slot, which are its preamble's (R80, R81, R102, R104). -/
def inPreamble (s : State) (c : Fin 32) : Bool := decide (s.ch[c].tim.streamBit % 34112 < fget s (fldTR_CFG_ACQ_BITS c))

/-- The active loop takes a group's largest absolute sample: FAST_MU in the acquisition part of a preamble and in WPRE, TRACK_MU
elsewhere; both gains hold through a dropout and its guard (R101, R102, R116). -/
def gainUpdate (s : State) (c : Fin 32) (place : RfPlace) (a : Nat) : State :=
  let q := s.ch[c]
  if q.drop.inDrop || decide (0 < q.drop.guardLeft) then s
  else
    let target := fget s (fldAGC_CFG_TARGET c)
    let fast := fget s (fldAGC_CFG_FAST_MU c)
    let track := fget s (fldAGC_CFG_TRACK_MU c)
    let onWedge (mu : Nat) : State :=
      let g := gainStep q.wedgeGain target a mu
      fput (modCh s c (fun q => { q with wedgeGain := g })) (fldAGC_GAIN_WEDGE_GAIN c) (gainCode g)
    match place with
    | .data =>
      let g := gainStep q.dataGain target a (if inPreamble s c then fast else track)
      fput (modCh s c (fun q => { q with dataGain := g })) (fldAGC_GAIN_DATA_GAIN c) (gainCode g)
    | .wedgePre => onWedge fast
    | .wedge => onWedge track

/-! ### Timing recovery -/

/-- The loop's deviation is limited to FREQ_LIM x 25 ppm: here in 2^-32 (R103). -/
def devLimit (s : State) (c : Nat) : Int := fget s (fldTR_CFG_FREQ_LIM c) * 25 * 2 ^ 32 / 1000000

/-- The nominal bit period in 2^-16 sample: the frame period over F, at 1.2 samples a nanosecond (R97, R103). -/
def seedPeriod (period f : Nat) : Nat := (roundDiv (period * 12 * 65536) (10 * Nat.max f 1)).toNat

/-- The bit period with the loop's deviation (R103). -/
def bitPeriod (seed : Nat) (dev : Int) : Nat := ((seed : Int) + roundDiv (seed * dev) (2 ^ 32)).toNat

/-- The bit instants of a group of 16 samples: how many, the first and the period in 2^-16 sample. -/
def bitCount (first period : Nat) : Nat :=
  if period = 0 ∨ 2 ^ 20 ≤ first then 0 else (2 ^ 20 - first + period - 1) / period

/-- The loop takes a phase error in 1/256 bit with gains 2^-kp and 2^-ki: the instants move and the deviation integrates, held
within its limit (R103, R104; how often the loop measures is the model's, log 93). -/
def loopUpdate (lim : Int) (seed : Nat) (kp ki : Nat) (err : Int) (t : Timing) : Timing :=
  { t with
    bitTime := ((t.bitTime : Int) + roundDiv (seed * err) (256 * 2 ^ kp)).toNat
    dev := clampInt (t.dev + roundDiv (err * 2 ^ 24) (2 ^ ki)) (-lim) lim }

/-- Change the timing loop of a channel. -/
def modTim (s : State) (c : Fin 32) (f : Timing → Timing) : State := modCh s c (fun q => { q with tim := f q.tim })

/-- TR_FREQ shows the deviation in 1/16 ppm; beyond 16 bits it saturates (DESIGN CHOICE, log 93).  A deviation at its limit clears
TR_LOCK (R105). -/
def devShow (s : State) (c : Fin 32) : State :=
  let dev := s.ch[c].tim.dev
  let s1 := fputInt s (fldTR_FREQ_OFFSET c) (satInt 16 (roundDiv (dev * 16000000) (2 ^ 32)))
  if devLimit s c ≤ (dev.natAbs : Int) then fclr s1 (fldRC_STAT_TR_LOCK c) else s1

/-- The seed of a channel's interpolator at present. -/
def chanSeed (s : State) (c : Fin 32) : Nat := seedPeriod s.ch[c].framePeriod (headF s (chanHead c))

/-- The loop measures a phase error: with the acquisition gains in a preamble, on a splice and in the 64 bits after a dropout, else
with the tracking gains (R104, R116). -/
def loopMeasure (s : State) (c : Fin 32) (acquire : Bool) (err : Int) : State :=
  let kp := if acquire then fget s (fldTR_CFG_ACQ_KP c) else fget s (fldTR_CFG_TRK_KP c)
  let ki := if acquire then fget s (fldTR_CFG_ACQ_KI c) else fget s (fldTR_CFG_TRK_KI c)
  devShow (modTim s c (loopUpdate (devLimit s c) (chanSeed s c) kp ki err)) c

/-- A slip is counted: TR_SLIP sets (R105). -/
def trSlip (s : State) (c : Fin 32) : State :=
  count (fset (modCh s c (fun q => { q with pkSlip := true })) (fldRC_STAT_TR_SLIP c)) (6 * c.val + 3)

/-- The splice check: a phase error below a quarter bit on two splices in a row sets TR_LOCK when the deviation is inside its limit;
one above half a bit is a slip, which moves the bit count to the nearest whole bit; four slips in a row clear TR_LOCK (R105). -/
def spliceCheck (s0 : State) (c : Fin 32) (err : Int) : State :=
  let s := loopMeasure s0 c true err
  let q := s.ch[c].tim
  let good := decide (err.natAbs < 64)
  let slip := decide (128 < err.natAbs)
  let s2 := modTim s c (fun t =>
    { t with
      lockRun := if good then t.lockRun + 1 else 0
      slipRun := if slip then t.slipRun + 1 else 0
      sinceBits := if slip then ((t.sinceBits : Int) + roundDiv err 256).toNat else t.sinceBits })
  let s3 := if slip then trSlip s2 c else s2
  if slip ∧ 4 ≤ q.slipRun + 1 then fclr s3 (fldRC_STAT_TR_LOCK c)
  else if good ∧ 2 ≤ q.lockRun + 1 ∧ (q.dev.natAbs : Int) < devLimit s c then fset s3 (fldRC_STAT_TR_LOCK c)
  else s3

/-! ### Soft values, dropouts and losses -/

/-- The soft value of a log-likelihood given in 1/256: clamp(round(L SOFT_SCALE / 4), -7, 7) (R109). -/
def softValue (scale : Nat) (l : Int) : BitVec 4 :=
  BitVec.ofInt 4 (clampInt (roundDiv (l * Nat.max scale 1) 1024) (-7) 7)

/-- Whether the detector delivers values of an open packet, and whether it searches for one or delivers (R116, R120). -/
def streaming (q : Channel) : Bool := q.sync == .stream1 || q.sync == .search2 || q.sync == .stream2
def listening (q : Channel) : Bool := streaming q || q.sync == .search1 || q.sync == .cand

/-- The run of saturated samples at the end of a group, carried over from the last (R116). -/
def satRunOf (run : Nat) (l : List Int) : Nat := l.foldl (fun r x => if x = -64 ∨ x = 63 then r + 1 else 0) run

/-- The longest run of saturated samples that reaches into a group. -/
def satRunMax (run : Nat) (l : List Int) : Nat :=
  (l.foldl (fun (p : Nat × Nat) x => if x = -64 ∨ x = 63 then (p.1 + 1, Nat.max p.2 (p.1 + 1)) else (0, p.2)) (run, 0)).2

/-- The largest absolute sample of a group. -/
def ampOf (l : List Int) : Nat := l.foldl (fun m x => Nat.max m x.natAbs) 0

/-- A value that a dropout reaches becomes 0. -/
def SoftVal.erase (x : SoftVal) : SoftVal := { x with v := 0, er := true }

/-- Erase the last k values of a list. -/
def eraseLast (k : Nat) (l : List SoftVal) : List SoftVal := l.take (l.length - k) ++ (l.drop (l.length - k)).map SoftVal.erase

/-- How many of the newest bits have no value yet: the canceller is 4 bits behind, and the detector looks 63 bits ahead (R107,
R108). -/
def detectorLag : Nat := 67

/-- Erase the last k stream bits: those still in the signal path, and the values before them (R116). -/
def eraseBack (k : Nat) (q : Channel) : Channel :=
  let j := k - detectorLag
  { q with
    dsp := { q.dsp with line := (q.dsp.line.take k).map (fun b => { b with er := true }) ++ q.dsp.line.drop k }
    buf := eraseLast j q.buf
    soft := eraseLast j q.soft }

/-- Declare a dropout over the last stream bits, or go on with one: they and GUARD bits before them are erased; DROPOUT sets when it
begins (R116). -/
def dropDeclare (s : State) (c : Fin 32) (span : Nat) : State :=
  let g := Nat.min (fget s (fldDROP_CFG_GUARD c)) 64
  let s1 := modCh s c (fun q => eraseBack (span + g) { q with drop := { q.drop with inDrop := true, forB1 := true, forB2 := true } })
  if s.ch[c].drop.inDrop then s1 else count (fset s1 (fldRC_STAT_DROPOUT c)) (6 * c.val)

/-- A dropout that ran has ended with the group before: GUARD bits after it are erased and the loop re-acquires for 64 bits (R116). -/
def dropEnd (s : State) (c : Fin 32) : State :=
  let g := Nat.min (fget s (fldDROP_CFG_GUARD c)) 64
  if s.ch[c].drop.inDrop then
    modCh s c (fun q => { q with drop := { q.drop with inDrop := false, guardLeft := g }, tim := { q.tim with reacq := 64 } })
  else s

/-- What the dropout detector finds in a group of some stream bits: whether the envelope is low, the low run with it, the saturated
run, the bits of its groups, and whether either test declares a dropout (R116). -/
def dropTest (s : State) (c : Fin 32) (l : List Int) (bits : Nat) : Bool × Nat × Nat × Nat × Bool :=
  let q := s.ch[c].drop
  let low := decide (ampOf l * 256 < fget s (fldDROP_CFG_THR c) * fget s (fldAGC_CFG_TARGET c))
  let run := if low then q.lowBits + bits else 0
  let sat := satRunMax q.satRun l
  let goesOn := decide (0 < q.satRun) && (l.getD 0 0 == -64 || l.getD 0 0 == 63)
  let satBits := if 0 < sat then (if goesOn then q.satBits + bits else bits) else 0
  let byLow := low && decide (fget s (fldDROP_CFG_MIN c) ≤ run) && decide (0 < run)
  let bySat := decide (Nat.max 1 (fget s (fldDROP_CFG_SAT_RUN c)) ≤ sat)
  (low, run, sat, satBits, byLow || bySat)

/-! ### The buffer toward the Data district -/

/-- A buffer's depth by R45: the entries of a round trip of some ns at a rate in bytes per microsecond, and the one in flight. -/
def bufferDepth (rate trip entry : Nat) : Nat := (rate * trip + entry * 1000 - 1) / (entry * 1000) + 1

/-- The buffer toward the Data district: 2.2 GB/s over 340 ns in entries of 16 bytes, 48 of them (R46). -/
def toDataDepth : Nat := bufferDepth 2200 340 16

/-- The entries of 32 values that the first n values of a packet fill: 533 for each segment, the second from value 17,016 on
(R123). -/
def packetEntries (n : Nat) : Nat := Nat.min (n / 32) 533 + Nat.min ((n - 17016) / 32) 533

/-- The buffer has no room: the values of the group are discarded as a dropout, OVERRUN sets and the head counts an overrun (R47,
R117). -/
def bufferOverrun (s : State) (c : Fin 32) : State :=
  let s1 := if s.ch[c].drop.refused then s else count (fset s (fldRC_STAT_DROPOUT c)) (6 * c.val)
  count (fset (modCh s1 c (fun q => { q with pkOverrun := true, drop := { q.drop with refused := true, forB1 := true, forB2 := true } }))
    (fldRC_STAT_OVERRUN c)) (192 + 18 * (c.val / 4))

/-- Values leave for the open packet: the entries that they complete enter the head's buffer, or the values are discarded (R46,
R47). -/
def packetPush (s : State) (c : Fin 32) (vals : List SoftVal) : State :=
  let n := s.ch[c].soft.length
  let k := packetEntries (n + vals.length) - packetEntries n
  let h := chanHead c
  if s.hb[h].toData + k ≤ toDataDepth then
    modHb (modCh s c (fun q => { q with soft := q.soft ++ vals, drop := { q.drop with refused := false } })) h
      (fun b => { b with toData := b.toData + k })
  else bufferOverrun (modCh s c (fun q => { q with soft := q.soft ++ vals.map (fun x => { x with full := true }) })) c

/-- The values of a group leave the detector: into the alignment buffer of 128 while the primary window is searched, into the packet
after it (R120, R127). -/
def deliver (s : State) (c : Fin 32) (vals : List SoftVal) : State :=
  if vals.isEmpty then s
  else if streaming s.ch[c] then packetPush s c vals
  else if listening s.ch[c] then modCh s c (fun q => { q with buf := (q.buf ++ vals).take 128 })
  else s

/-! ### Equaliser, canceller and detector -/

/-- The ten taps as they stand (R106). -/
def eqTaps (s : State) (c : Nat) : List Int := (List.range 10).map (fun i => fgetInt s (fldEQ_TAP_TAP c i))

/-- The equaliser's output: taps in 2^-14 over the latest inputs, the newest first (R106). -/
def firOut (taps xs : List Int) : Int := roundDiv ((List.zipWith (· * ·) taps xs).foldl (· + ·) 0) 16384

/-- The target's coefficients in 1/32: 1, G1, G2, G3 (R106, R131). -/
def eqTarget (s : State) (c : Nat) : List Int :=
  [32, fgetInt s (fldEQ_CFG_G1 c), fgetInt s (fldEQ_CFG_G2 c), fgetInt s (fldEQ_CFG_G3 c)]

/-- The target's output for a bit and the three before it, each +1 or -1, in 1/256 LSB (R106). -/
def targetOut (g bits : List Int) : Int :=
  roundDiv ((List.zipWith (· * ·) g bits).foldl (· + ·) 0 * ((Config.levelUnit : Int) + 1)) 32

/-- A bit of a state of the detector's trellis: the three latest bits, the newest in bit 0 (R108). -/
def trellisBit (st k : Nat) : Int := if st.testBit k then 1 else (-1)

/-- The next state after a bit. -/
def trellisNext (st : Nat) (b : Bool) : Nat := (2 * st + b.toNat) % 8

/-- Minus the squared distance of an observation from the target's output for a state and a bit. -/
def branchMetric (g : List Int) (z : Int) (st : Nat) (b : Bool) : Int :=
  let d := z - targetOut g [if b then 1 else -1, trellisBit st 0, trellisBit st 1, trellisBit st 2]
  0 - d * d

/-- The eight forward metrics after an observation, the best one 0. -/
def forwardStep (g : List Int) (alpha : List Int) (z : Int) : List Int :=
  let into (t : Nat) : Int :=
    let b := decide (t % 2 = 1)
    let p := t / 2
    max (alpha.getD p 0 + branchMetric g z p b) (alpha.getD (p + 4) 0 + branchMetric g z (p + 4) b)
  let l := (List.range 8).map into
  let best := l.foldl max (l.getD 0 0)
  l.map (· - best)

/-- The eight backward metrics before an observation. -/
def backwardStep (g : List Int) (beta : List Int) (z : Int) : List Int :=
  (List.range 8).map (fun st =>
    max (branchMetric g z st false + beta.getD (trellisNext st false) 0) (branchMetric g z st true + beta.getD (trellisNext st true) 0))

/-- The difference of the best path with a mark and the best one with a space at the oldest of the window's observations, which are
given from the newest (R108). -/
def maxLogMap (g alpha : List Int) (window : List Int) : Int :=
  let beta := (window.take 63).foldl (backwardStep g) (List.replicate 8 0)
  let z := window.getD 63 0
  let best (b : Bool) : Int :=
    let l := (List.range 8).map (fun st => alpha.getD st 0 + branchMetric g z st b + beta.getD (trellisNext st b) 0)
    l.foldl max (l.getD 0 0)
  best true - best false

/-- The canceller's contribution of a neighbour: nine taps over its hard decisions, centred on the bit in hand (R107). -/
def xtOut (taps bits : List Int) : Int := roundDiv ((List.zipWith (· * ·) taps bits).foldl (· + ·) 0) (2 ^ 32)

/-- A hard decision on an equalised sample. -/
def hardBit (y : Int) : Int := if 0 < y then 1 else (-1)

/-- A step of a tap of the canceller: 2^-(10 + XT_MU) of error and decision, in 2^-40 LSB for an error in 1/256 LSB (R107). -/
def xtStep (mu : Nat) (e : Int) (tap bit : Int) : Int := tap - roundDiv (e * bit * 2 ^ 22) (2 ^ mu)

/-- A step of a tap of the equaliser: 2^-(8 + MU) of error and input, both in 1/256 LSB, on a tap in 2^-14 that keeps its 16 bits
(R106; the rounding is the model's, log 14). -/
def eqStep (mu : Nat) (e : Int) (tap x : Int) : Int := satInt 16 (tap + roundDiv (e * x) (2 ^ (10 + mu)))

/-- What the signal path of a channel needs of its configuration and its neighbours while it works through a group. -/
structure PathView where
  g : List Int
  adapt : Bool
  mu : Nat
  xtMu : Nat
  scale : Nat
  live : Bool
  inner : Option (List Int)
  outer : Option (List Int)
deriving DecidableEq, Repr

/-- What a signal path gives for a group. -/
structure PathOut where
  dsp : Dsp
  taps : List Int
  vals : List SoftVal
deriving DecidableEq, Repr

/-- The decisions of a neighbour that nine taps cover, when the newest bit of the group is j bits back. -/
def nearBits (l : Option (List Int)) (j : Nat) : List Int :=
  match l with
  | some b => (b.drop j).take 9
  | none => []

/-- One bit of a group goes through the canceller, 4 bits back, and the detector decides the one 67 bits back; the taps adapt on the
decided bit outside a dropout (R106 to R109). -/
def pathBit (v : PathView) (j : Nat) (o : PathOut) : PathOut :=
  let d := o.dsp
  let inB := nearBits v.inner j
  let outB := nearBits v.outer j
  let bits := match d.line[j + 4]? with
    | some b => d.line.set (j + 4) { b with z := b.y - xtOut d.xtIn inB - xtOut d.xtOut outB }
    | none => d.line
  match bits[j + detectorLag]? with
  | none => { o with dsp := { d with line := bits } }
  | some b =>
    let l := maxLogMap v.g d.alpha (((bits.drop (j + 4)).take 64).map (·.z))
    let a : Int := if 0 < l then 1 else -1
    let near := (bits.drop (j + detectorLag + 1)).take 3
    let e := targetOut v.g (a :: near.map (·.a)) - b.z
    let learn := v.live && !b.er
    let xs := ((bits.drop (j + detectorLag)).take 10).map (·.x)
    let val : SoftVal :=
      ⟨if b.er || !v.live then 0 else softValue v.scale (l * ((Config.llrFactor : Int) + 1) / 2 ^ 32), b.er, b.low, false⟩
    { dsp := { d with
        line := bits.set (j + detectorLag) { b with a := a }
        alpha := forwardStep v.g d.alpha b.z
        xtIn := if learn && v.inner.isSome then List.zipWith (xtStep v.xtMu e) d.xtIn (inB ++ List.replicate (9 - inB.length) 0) else d.xtIn
        xtOut := if learn && v.outer.isSome then List.zipWith (xtStep v.xtMu e) d.xtOut (outB ++ List.replicate (9 - outB.length) 0) else d.xtOut
        errSum := d.errSum + (e * e).toNat
        errNum := d.errNum + 1 }
      taps := if learn && v.adapt then List.zipWith (eqStep v.mu e) o.taps (xs ++ List.replicate (10 - xs.length) 0) else o.taps
      vals := o.vals ++ [val] }

/-- Whether a neighbour's contribution is subtracted: XTC_EN is 1, and the neighbour has an armed slot and delivers other values
than zeros (R107). -/
def neighbourLive (s : State) (nb : Fin 32) : Bool :=
  chanOn s nb && s.ch[nb].sync != .idle && fbit s (fldRC_STAT_TR_LOCK nb) && !s.ch[nb].drop.inDrop && decide (s.ch[nb].drop.guardLeft = 0)

/-- The hard decisions of a neighbour, the newest first; none where it is frozen. -/
def neighbourBits (s : State) (c : Fin 32) (nb : Option (Fin 32)) : Option (List Int) :=
  match nb with
  | some b => if fbit s (fldRC_CTL_XTC_EN c) && neighbourLive s b then some (s.ch[b].dsp.line.map (fun x => hardBit x.y)) else none
  | none => none

/-- The channel of the next spot inward, and outward: B0 and B3 have one neighbour each. -/
def innerChan (c : Fin 32) : Option (Fin 32) := if h : c.val % 4 = 0 then none else some ⟨c.val - 1, by omega⟩
def outerChan (c : Fin 32) : Option (Fin 32) := if h : c.val % 4 = 3 then none else some ⟨c.val + 1, by omega⟩

/-- The view of a channel's signal path. -/
def pathView (s : State) (c : Fin 32) : PathView where
  g := eqTarget s c
  adapt := fbit s (fldEQ_CFG_ADAPT c)
  mu := fget s (fldEQ_CFG_MU c)
  xtMu := fget s (fldXT_CFG_XT_MU c)
  scale := fget s (fldRC_CTL_SOFT_SCALE c)
  live := fbit s (fldRC_STAT_TR_LOCK c) && !s.ch[c].rateBad
  inner := neighbourBits s c (innerChan c)
  outer := neighbourBits s c (outerChan c)

/-- The second half of the path for a group: canceller and detector over its bits, the live taps, and the values on their way. -/
def chanBack (s : State) (c : Fin 32) : State :=
  let m := s.ch[c].dsp.fresh
  if m = 0 then s
  else
    let v := pathView s c
    let o := (List.range m).foldl (fun o i => pathBit v (m - 1 - i) o) ⟨s.ch[c].dsp, eqTaps s c, []⟩
    let s1 := modCh s c (fun q => { q with dsp := { o.dsp with fresh := 0, line := o.dsp.line.take 80 } })
    let s2 := if v.adapt && v.live then
        forEach (List.range 10) s1 (fun t i => fputInt t (fldEQ_TAP_TAP c i) (o.taps.getD i 0))
      else s1
    deliver s2 c o.vals

/-! ### A group of samples -/

/-- Whether the present stream bit lies in the slot that the detector has taken, or its packet is open (R105). -/
def inSlot (q : Channel) : Bool :=
  listening q || (q.sync == .wait1 && q.wedge / 80 == q.addr.arc && q.tim.streamBit / 34112 == q.addr.slot)

/-- The stream bits of a group and the bits in all: the first eight after a wedge are the splice, and those past the usable bits of
the frame are none (R76, R104). -/
def groupBits (s : State) (c : Fin 32) (place : RfPlace) : Nat × Nat :=
  let q := s.ch[c]
  let f := headF s (chanHead c)
  if !(rateInRange f q.framePeriod) then (0, 0)
  else
    let n := bitCount q.tim.bitTime (bitPeriod (chanSeed s c) q.tim.dev)
    let from8 := Nat.max q.tim.sinceBits 8
    (if place = .data then Nat.min (q.tim.sinceBits + n) (usableBits f + 8) - from8 else 0, n)

/-- The clocks move past a group: its bits, its stream bits and its 16 samples; a frame whose wedge has not come to notice by its
end begins anew (R103, R104). -/
def groupClock (s : State) (c : Fin 32) (bits n : Nat) : State :=
  let p := bitPeriod (chanSeed s c) s.ch[c].tim.dev
  let fs := frameSamples s.ch[c].framePeriod
  let lock := fbit s (fldRC_STAT_TR_LOCK c)
  let bad := !(rateInRange (headF s (chanHead c)) s.ch[c].framePeriod)
  modCh s c (fun q =>
    let t := q.tim
    let wrap := decide (0 < fs) && decide (fs ≤ t.framePos + 16)
    { q with
      lockSeen := q.lockSeen || (lock && inSlot q)
      rateBad := q.rateBad || (inSlot q && bad)
      drop := { q.drop with guardLeft := q.drop.guardLeft - bits }
      tim := { t with
        bitTime := t.bitTime + n * p - 2 ^ 20
        framePos := if wrap then t.framePos + 16 - fs else t.framePos + 16
        sinceBits := if wrap then 0 else t.sinceBits + n
        streamBit := t.streamBit + bits
        reacq := t.reacq - bits } })

/-- The new bits of a group enter the signal path: the interpolator's samples at their instants, through the equaliser (R97, R106). -/
def groupPush (s : State) (c : Fin 32) (l : List Int) (bits n : Nat) (er low : Bool) : State :=
  let taps := eqTaps s c
  let p := bitPeriod (chanSeed s c) s.ch[c].tim.dev
  modCh s c (fun q =>
    let first := q.tim.bitTime + (n - bits) * p
    let guard := q.drop.guardLeft
    let line := (List.range bits).foldl (fun (ln : List ChBit) i =>
      let x := if l.isEmpty then 0 else Config.interpolate (q.dsp.prev ++ l) (16 * 65536 + first + i * p)
      let y := firOut taps (x :: (ln.take 9).map (·.x))
      ⟨x, y, y, 0, er || decide (i < guard), low⟩ :: ln) q.dsp.line
    { q with dsp := { q.dsp with line := line, fresh := bits, prev := if l.isEmpty then q.dsp.prev else l } })

/-- Samples were lost at the RF Crossing: their bits are erased and SAMPLE_LOSS sets (R117, R130). -/
def sampleLoss (s : State) (c : Fin 32) : State :=
  count (fset (modCh s c (fun q => { q with pkLoss := true })) (fldRC_STAT_SAMPLE_LOSS c)) (6 * c.val + 5)

/-- The first half of the path for a group whose samples were lost. -/
def chanLost (s : State) (c : Fin 32) : State :=
  if !(chanOn s c) then s
  else
    let (bits, n) := groupBits s c (rfPlace s.ch[c].framePeriod s.ch[c].tim.framePos)
    groupClock (groupPush (sampleLoss s c) c [] bits n true false) c bits n

/-- The dropout detector takes a group of stream bits: it is at work where the channel searches or delivers (R116). -/
def chanDrop (s : State) (c : Fin 32) (l : List Int) (bits : Nat) (low : Bool) (run satBits : Nat) (hit : Bool) : State :=
  if bits = 0 then s
  else if !(listening s.ch[c]) then
    modCh s c (fun q => { q with drop := { q.drop with lowBits := 0, satRun := 0, satBits := 0, inDrop := false, guardLeft := 0 } })
  else
    let s1 := modCh s c (fun q =>
      { q with drop := { q.drop with lowBits := run, satRun := satRunOf q.drop.satRun l,
                                     satBits := if satRunOf q.drop.satRun l = 0 then 0 else if l.length ≤ satRunOf q.drop.satRun l then satBits else bits } })
    if hit then dropDeclare s1 c (Nat.max (if low then run else 0) satBits) else s1

/-- The first half of the path for a group of samples: saturation, the gain loop, timing recovery, the equaliser, and the dropout
detector (R97, R102 to R106, R116). -/
def chanFront (s : State) (c : Fin 32) (l : List Int) (err : Int) : State :=
  if !(chanOn s c) then s
  else
    let place := rfPlace s.ch[c].framePeriod s.ch[c].tim.framePos
    let amp := ampOf l
    let s1 := if l.any (fun x => x = -64 ∨ x = 63) then
        count (fset (modCh s c (fun q => { q with pkSat := true })) (fldRC_STAT_SAT c)) (192 + 18 * (c.val / 4) + 2)
      else s
    let s2 := fput (gainUpdate s1 c place amp) (fldAGC_GAIN_AMP c) amp
    let (bits, n) := groupBits s2 c place
    let (low, run, _, satBits, hit) := dropTest s2 c l bits
    let s3 := if bits = 0 ∨ hit then s2 else dropEnd s2 c
    let coast := place != .data || decide (n = 0) || s3.ch[c].drop.inDrop || decide (0 < s3.ch[c].drop.guardLeft) ||
      decide (s3.ch[c].tim.sinceBits < 8)
    let s4 := groupPush s3 c l bits n false low
    let s5 := chanDrop s4 c l bits low run satBits hit
    let acquire := inPreamble s5 c || decide (0 < s5.ch[c].tim.reacq)
    let s6 := groupClock s5 c bits n
    if coast then s6 else loopMeasure s6 c acquire err

/-- Whether the RF Crossing of a channel's head is ARMED (R38, R127). -/
def rfArmed (s : State) (c : Fin 32) : Bool := s.xing[(⟨c.val / 4, by omega⟩ : Fin 52)].st == .armed

/-- The channels of a head take a group: each spot's front, and then, with the decisions of its neighbours, its back (R97, R107). -/
def headGroup (s : State) (n : Fin 8) (e : RfEntry) : State :=
  let s1 := forEach [0, 1, 2, 3] s (fun t (sp : Fin 4) =>
    if e.lost then chanLost t (headChan n sp) else chanFront t (headChan n sp) (e.samples.getD sp.val []) (e.err.getD sp.val 0))
  forEach [0, 1, 2, 3] s1 (fun t (sp : Fin 4) => chanBack t (headChan n sp))

/-- The RF Crossing's buffer (R99). -/
def rfDepth : Nat := 4

/-- What a channel's pace lets it process between two groups, of which 75 million arrive in a second: 1.90 G samples a second at pace
1,000, in proportion (R99, R130); before a pace window has closed, the nominal pace. -/
def rfCredit (s : State) (n : Fin 8) : Nat :=
  let r := fget s (fldPACE_RATE_RATE (2 + n.val / 4))
  19 * (if r = 0 then 1000 else r)

/-- A group enters the buffer of the RF Crossing, or finds it full and is lost (R99, R130). -/
def rfEnter (e : RfEntry) (k : Nat) (b : HeadBlk) : HeadBlk :=
  let lost := decide (rfDepth ≤ (b.rf.filter (fun x => !x.lost)).length)
  { b with rf := b.rf ++ [if lost then ⟨[], [], true⟩ else e], credit := b.credit + k }

/-- The channels take the next group if their pace lets them; the place of a lost one takes none. -/
def rfServe (s : State) (n : Fin 8) : State :=
  match s.hb[n].rf with
  | [] => s
  | e :: rest =>
    let cost := if e.lost then 0 else 12000
    if s.hb[n].credit < cost then s
    else headGroup (modHb s n (fun b => { b with rf := rest, credit := if rest.isEmpty then 0 else b.credit - cost })) n e

/-- A group of 16 samples per spot crosses a head's RF Crossing while it is ARMED, and the channels work off what the buffer holds
as their pace allows (R99, R127, R130). -/
def rfSampleGroup (s : State) (n : Fin 8) (samples : List (List Int)) (err : List Int) : State :=
  if !(xingPresent s.variant n) || !(rfArmed s (headChan n 0)) then s
  else forEach (List.range 8) (modHb s n (rfEnter ⟨samples, err, false⟩ (rfCredit s n))) (fun t _ => rfServe t n)

/-- RF_SAMPLE_GROUP. -/
def execRfSampleGroup (n : Head) (b0 b1 b2 b3 : List Int) (err : List Int) (s : State) :
    Host.Outcome State Fault Refusal :=
  .next (rfSampleGroup s n [b0, b1, b2, b3] err)

end Machine
end Sys2Proof
end

