-- ==== Sys2Proof/Machine/ReadChannel.lean ====
section
/-! DEFINITION. The read channels after the signal path: the wedge demodulator (R111 to R115), the sync detector (R119 to R122),
sector packets (R123 to R127) and the fine estimate (R128). -/

namespace Sys2Proof
namespace Machine

/-! ### Wedges -/

/-- The TRK bits: the larger half decides, and halves that differ by less than a quarter of their sum are a violation
(R113).  Answers the byte and whether every bit was good. -/
def trkDecode (l : List (Nat × Nat)) : BitVec 8 × Bool :=
  let one (p : Nat × Nat) : Bool := decide (p.2 < p.1)
  let bad (p : Nat × Nat) : Bool := decide (4 * (Nat.max p.1 p.2 - Nat.min p.1 p.2) < p.1 + p.2)
  (BitVec.ofNat 8 ((l.take 8).foldl (fun acc p => 2 * acc + (if one p then 1 else 0)) 0), decide (l.length = 8) && !(l.any bad))

/-- The frame period that places the fields of a wedge: the measured one, or that of 7,200 rpm before a first one (R70; log 94). -/
def wedgePeriod (q : Channel) : Nat := if q.framePeriod = 0 then 11574 else q.framePeriod

/-- The samples from the start of a wedge unit to that of another, at 1.2 samples a nanosecond and 2,560 wu a frame (R70, R97). -/
def wuSamples (period w : Nat) : Nat := w * period * 12 / 25600

/-- The samples of a span of wedge units that is given from the start of the SAM. -/
def wuSpan (period : Nat) (l : List Int) (sam w0 w1 : Nat) : List Int :=
  (l.drop (sam + wuSamples period w0)).take (wuSamples period w1 - wuSamples period w0)

/-- The integral of a span: its samples above the baseline (R113; that a mark lies above it is the model's, log 94). -/
def wuIntegral (l : List Int) : Nat := l.foldl (fun a x => a + x.toNat) 0

/-- Whether four wedge units from a sample carry marks where a pattern has them: a unit is a mark when its integral is more than half
the largest of the four (R71, R111; the criterion is the model's, log 94). -/
def patternAt (period : Nat) (l : List Int) (pattern : List Bool) (sam : Nat) : Bool :=
  let u := (List.range 4).map (fun k => wuIntegral (wuSpan period l sam k (k + 1)))
  let top := u.foldl Nat.max 0
  decide (0 < top) && (u.map (fun x => decide (top < 2 * x)) == pattern)

/-- The SAM: mark, mark, space, mark; the index mark: mark, space, mark, mark (R71). -/
def samPattern : List Bool := [true, true, false, true]
def indexPattern : List Bool := [true, false, true, true]

/-- Where the search expects the SAM, as a sample of those given: one frame period after the last one, or 16 wu on before a first
one (R111; log 94). -/
def samExpected (q : Channel) (w : WedgeObs) : Int :=
  if q.framePeriod = 0 then wuSamples (wedgePeriod q) 16
  else ((q.lastSam + BitVec.ofNat 64 q.framePeriod).toNat - (w.time.toNat : Int)) * 12 / 10

/-- The search for the SAM within 8 wu of where it is expected: of the matches of either pattern the nearest, the earlier of two
equally near (R111; log 94). -/
def samSearch (q : Channel) (w : WedgeObs) : SamFound × Nat :=
  let period := wedgePeriod q
  let at0 := samExpected q w
  let near := (List.range (wuSamples period 8 + 1)).flatMap (fun (k : Nat) => if k = 0 then [at0] else [at0 - (k : Int), at0 + (k : Int)])
  let found := near.findSome? (fun p =>
    if p < 0 then none
    else if patternAt period w.samples samPattern p.toNat then some (SamFound.sam, p.toNat)
    else if patternAt period w.samples indexPattern p.toNat then some (SamFound.index, p.toNat)
    else none)
  found.getD (SamFound.missed, at0.toNat)

/-- The two halves of each TRK bit, which begins 4 wu after the SAM: their integrals (R71, R113). -/
def trkHalves (period : Nat) (l : List Int) (sam : Nat) : List (Nat × Nat) :=
  (List.range 8).map (fun b =>
    (wuIntegral (wuSpan period l sam (4 + 2 * b) (5 + 2 * b)), wuIntegral (wuSpan period l sam (5 + 2 * b) (6 + 2 * b))))

/-- The centroid of the samples above half the peak of a span, in 1/64 sample from the SAM; none where no sample lies above the
baseline (R114). -/
def stripeTime (period : Nat) (l : List Int) (sam w0 : Nat) : Option Int :=
  let x := wuSpan period l sam w0 (w0 + 4)
  let peak := x.foldl max 0
  let part := (((List.range x.length).map (fun i => (i + wuSamples period w0 : Nat))).zip x).filter (fun p => decide (peak < 2 * p.2))
  if peak = 0 then none
  else some (roundDiv (64 * (part.foldl (fun a p => a + (p.1 : Int) * p.2) 0)) (part.foldl (fun a p => a + p.2) 0))

/-- The six stripes: each is looked for in the 4 wu around its place on a track's centre (R72, R114). -/
def stripeTimes (period : Nat) (l : List Int) (sam : Nat) : List (Option Int) :=
  [24, 28, 32, 36, 40, 44].map (stripeTime period l sam)

/-- Whether two neighbouring stripes of a group are 4 plus or minus 0.5 wu apart: d in 1/64 sample, the frame period in
ns, with 2,560 wu a frame and 1.2 samples a ns (R70, R114). -/
def stripeStep (period : Nat) (d : Int) : Bool :=
  decide (7 * 64 * 12 * (period : Int) ≤ 2 * 10 * 2560 * d) && decide (2 * 10 * 2560 * d ≤ 9 * 64 * 12 * (period : Int))

/-- PES from six stripe times in 1/64 sample, in 2^-15 pitch: (12 - delta) / 4 pitch with delta the mean B time less the
mean A time in wu (R73, R114). -/
def pesOf (period : Nat) (l : List Int) : Int :=
  let a := l.getD 0 0 + l.getD 1 0 + l.getD 2 0
  let b := l.getD 3 0 + l.getD 4 0 + l.getD 5 0
  satInt 16 (98304 - roundDiv ((b - a) * 8192 * 25600) (2304 * Nat.max period 1))

/-- Whether PES may be used: all six stripes found, each group evenly spaced (R114). -/
def pesOkOf (period : Nat) (l : List (Option Int)) : Bool :=
  match l with
  | [some a0, some a1, some a2, some b0, some b1, some b2] =>
    stripeStep period (a1 - a0) && stripeStep period (a2 - a1) && stripeStep period (b1 - b0) && stripeStep period (b2 - b1)
  | _ => false

/-- A missed SAM: WEDGE_MISS sets and the head counts it; three in a row clear WEDGE_LOCK (R112). -/
def samMiss (s : State) (c : Fin 32) : State :=
  let q := s.ch[c]
  let s1 := count (fset (modCh s c (fun q => { q with missRun := q.missRun + 1, samRun := 0 })) (fldRC_STAT_WEDGE_MISS c))
    (192 + 18 * (c.val / 4) + 1)
  if 3 ≤ q.missRun + 1 then modCh (fclr s1 (fldRC_STAT_WEDGE_LOCK c)) c (fun q => { q with indexSeen := false }) else s1

/-- The wedge count after a wedge: an index mark sets it to 0, and one out of place sets WEDGE_MISS; a SAM, found or
predicted, adds one (R111, R112).  An index mark that a miss follows still counts for WEDGE_LOCK (DESIGN CHOICE, log 95). -/
def wedgeCount (s : State) (c : Fin 32) (f : SamFound) : State :=
  let q := s.ch[c]
  match f with
  | .index =>
    let s1 := modCh s c (fun q => { q with wedge := 0, indexSeen := true, samRun := 0, missRun := 0 })
    if q.wedge = 719 then s1
    else count (fset s1 (fldRC_STAT_WEDGE_MISS c)) (192 + 18 * (c.val / 4) + 1)
  | .sam =>
    let s1 := modCh s c (fun q => { q with wedge := (q.wedge + 1) % 720, samRun := q.samRun + 1, missRun := 0 })
    if q.indexSeen ∧ 8 ≤ q.samRun + 1 then fset s1 (fldRC_STAT_WEDGE_LOCK c) else s1
  | .missed => samMiss (modCh s c (fun q => { q with wedge := (q.wedge + 1) % 720 })) c

/-- Show a wedge record (R132). -/
def wedgeShow (s : State) (c : Nat) (r : WedgeRec) : State :=
  fputInt (fputB (fputB (fputB (fput s (fldWEDGE_STAT_WEDGE c) r.wedge) (fldWEDGE_STAT_SAM_OK c) r.samOk)
    (fldWEDGE_STAT_TRK_OK c) r.trkOk) (fldWEDGE_STAT_PES_OK c) r.pesOk) (fldWEDGE_STAT_PES c) r.pes

/-- The record of a wedge (R115).  Where the SAM was missed the predicted time stands in, and TRK and PES are not used (R112;
log 84). -/
def wedgeRecord (q : Channel) (wedge : Nat) (w : WedgeObs) : WedgeRec :=
  let period := wedgePeriod q
  let (f, sam) := samSearch q w
  let (trk, trkOk) := trkDecode (trkHalves period w.samples sam)
  let stripes := stripeTimes period w.samples sam
  let pesOk := f != .missed && pesOkOf period stripes
  let time := if f = .missed then q.lastSam + BitVec.ofNat 64 q.framePeriod else w.time + BitVec.ofNat 64 (sam * 10 / 12)
  ⟨wedge, time, trk, trkOk && f != .missed, f != .missed, pesOk, if pesOk then pesOf period (stripes.map (·.getD 0)) else 0⟩

/-- A wedge passes a spot: the search for the SAM, the count, TRK, PES, the record, the new seed, the stream's place in the arc, and
the splice check (R76, R103, R105, R111 to R115). -/
def wedgePass (s : State) (c : Fin 32) (w : WedgeObs) : State :=
  let q := s.ch[c]
  let f := (samSearch q w).1
  let s1 := wedgeCount s c f
  let r := wedgeRecord q s1.ch[c].wedge w
  let period := if f ≠ .missed ∧ q.lastSam ≠ 0 then (r.time - q.lastSam).toNat else q.framePeriod
  let s2 := wedgeShow (modCh s1 c (fun q =>
    { q with
      lastSam := r.time, framePeriod := period, lastRec := r
      tim := { q.tim with framePos := 0, sinceBits := 0, streamBit := r.wedge % 80 * usableBits (headF s (chanHead c)) } })) c r
  spliceCheck s2 c w.splice

/-! ### Packets -/

/-- Descriptor entry A (R124). -/
def descA (c : Fin 32) (a : SlotAddr) : BitVec 128 :=
  BitVec.ofNat 128 (a.pta.toNat * 2 ^ 96 + a.sector % 64 * 2 ^ 90 + c.val % 4 * 2 ^ 88 + a.ptn % 2 ^ 18 * 2 ^ 70 +
    a.arc % 16 * 2 ^ 66 + a.slot % 32 * 2 ^ 61 + c.val / 4 * 2 ^ 58)

/-- Descriptor entry B from its fields (R125). -/
def descB (time : DWord) (status out : Nat) (inf miss2 : Bool) (o1 o2 erased d1 d2 qual : Nat) (q : Channel) : BitVec 128 :=
  BitVec.ofNat 128 (time.toNat * 2 ^ 64 + status * 2 ^ 60 + out * 2 ^ 56 + inf.toNat * 2 ^ 55 + miss2.toNat * 2 ^ 54 +
    o1 % 128 * 2 ^ 47 + o2 % 128 * 2 ^ 40 + erased % 2 ^ 16 * 2 ^ 24 + d1 % 16 * 2 ^ 20 + d2 % 16 * 2 ^ 16 +
    qual % 256 * 2 ^ 8 + q.pkOverrun.toNat * 2 ^ 7 + q.pkSlip.toNat * 2 ^ 6 + q.pkSat.toNat * 2 ^ 5 + q.pkLoss.toNat * 2 ^ 4)

/-- The value that reaches the Data district (R117). -/
def SoftVal.sent (x : SoftVal) : BitVec 4 := if x.full then 0 else x.v

/-- The values of stream positions A1 + 8 to A1 + 34,079; missing ones are 0, and erased unless the rate allowed none (R98, R117,
R123). -/
def packetStream (q : Channel) : List SoftVal :=
  q.soft.take 34072 ++ List.replicate (34072 - q.soft.length) ⟨0, !q.rateBad, false, false⟩

/-- The two segments: positions A1 + 8 .. A1 + 17,063 and A1 + 17,024 .. A1 + 34,079 (R123). -/
def segment1 (q : Channel) : List SoftVal := (packetStream q).take 17056
def segment2 (q : Channel) : List SoftVal := (packetStream q).drop 17016

/-- Values delivered as 0 in the two segments (R125). -/
def erasedOf (q : Channel) : Nat := ((segment1 q ++ segment2 q).filter (fun x => x.er || x.full)).length

/-- QUAL: the mean |soft| over the two segments in 1/32, truncated and saturating (R125 gives no rounding; log 96). -/
def qualOf (q : Channel) : Nat :=
  Nat.min 255 (((segment1 q ++ segment2 q).foldl (fun acc x => acc + x.sent.toInt.natAbs) 0) * 32 / 34112)

/-- MSE: the mean of the squared errors of the packet's bits in 1/256 LSB^2, saturating (R132). -/
def mseOf (q : Channel) : Nat := Nat.min 0xFFFF (q.dsp.errSum / (256 * Nat.max q.dsp.errNum 1))

/-- The bits of a register that take effect at once and so do not wait with its other fields: RC_CTL.ENABLE, WC_CTL.ENABLE and
WC_CTL.INHIBIT (R96, R201). -/
def onceMask (a : Nat) : Nat :=
  match headAt a with
  | some (_, off) => if off < 0x4000 ∧ off % 0x1000 = 0 then 1 else if off = 0x5000 then 5 else 0
  | none => 0

/-- A value that waited, with the bits of the register that do not wait kept. -/
def pendMerge (s : State) (a : Nat) (v : Word) : Word :=
  let m := BitVec.ofNat 32 (onceMask a)
  (v &&& ~~~m) ||| (rd s a &&& m)

/-- Apply writes that wait for the boundary, for the registers that a test names (R96). -/
def applyPend (s : State) (which : Nat → Bool) : State :=
  forEach (s.pend.filter (fun p => which p.1)) { s with pend := s.pend.filter (fun p => !(which p.1)) }
    (fun t p => wr t p.1 (pendMerge t p.1 p.2))

/-- Whether an address is a register of a channel. -/
def ofChannel (c : Nat) (a : Nat) : Bool := decide (rcBase c ≤ a) && decide (a < rcBase c + 0x80)

/-- Values whose boundary has passed come into force. -/
def applyDue (s : State) (l : List (Nat × Word)) : State := forEach l s (fun t p => wr t p.1 (pendMerge t p.1 p.2))

/-- PARAM_PEND as the channel's waiting writes have it. -/
def pendShow (s : State) (c : Fin 32) : State :=
  fputB s (fldRC_STAT_PARAM_PEND c) (s.pend.any (fun p => ofChannel c p.1) || !(s.ch[c].due.isEmpty))

/-- A channel at a sweep boundary takes the writes that wait; with a packet open it sets them aside until that ends (R96). -/
def chanBoundary (s : State) (c : Fin 32) : State :=
  let mine := s.pend.filter (fun p => ofChannel c p.1)
  let s1 := { s with pend := s.pend.filter (fun p => !(ofChannel c p.1)) }
  let all := mine.foldl (fun l p => aset l p.1 p.2) s.ch[c].due
  if s.ch[c].sync = .idle then pendShow (applyDue (modCh s1 c (fun q => { q with due := [] })) all) c
  else pendShow (modCh s1 c (fun q => { q with due := all })) c

/-- The packet that held a boundary's values back has ended. -/
def chanDue (s : State) (c : Fin 32) : State :=
  if s.ch[c].due.isEmpty then s else pendShow (applyDue (modCh s c (fun q => { q with due := [] })) s.ch[c].due) c

/-- Show a descriptor in LAST_SYNC and QUALITY (R132). -/
def showDescriptor (s : State) (c : Fin 32) (out d1 d2 o1 o2 qual : Nat) : State :=
  wr (wr s (regLAST_SYNC c.val) (BitVec.ofNat 32 (out * 2 ^ 28 + d1 * 2 ^ 24 + d2 * 2 ^ 20 + o1 * 2 ^ 7 + o2)))
    (regQUALITY c.val) (BitVec.ofNat 32 (mseOf s.ch[c] * 2 ^ 16 + qual * 2 ^ 8))

/-- The detector takes an armed slot: it takes the expected address, computes P by R80 and waits (R120). -/
def slotArm (s : State) (c : Fin 32) (a : SlotAddr) (verify : Bool) : State :=
  modCh { s with packetCtr := s.packetCtr + 1 } c (fun q =>
      { q with
        sync := .wait1, addr := a, syncAt := 34112 * a.slot + 64, packetId := s.packetCtr, verify := verify, candOfs := 0
        candDist := 0xF, primary := .missed, primDist := 0xF, a1Ofs := 0, secFound := false, secDist := 0xF, outCode := 7
        ofs1 := 24, ofs2 := 24, scanned := 0, buf := [], soft := [], lockSeen := false, rateBad := false
        dsp := { q.dsp with errSum := 0, errNum := 0 }
        pkOverrun := false, pkSlip := false, pkSat := false, pkLoss := false })

/-- An idle detector takes the next slot armed for its channel. -/
def slotNext (s : State) (c : Fin 32) : State :=
  match s.ch[c].sync, s.ch[c].queue with
  | .idle, (a, v) :: rest => slotArm (modCh s c (fun q => { q with queue := rest })) c a v
  | _, _ => s

/-- When a slot's pass begins in the window: its frame, counted from the opening under its head, then its number in the arc
(R315, R316, R317). -/
def slotKey (s : State) (n : Nat) (pta : Word) (arc slot : Nat) : Nat :=
  (slotFirstWedge (ptaArea pta.toNat) arc slot + 1440 - (s.swpStart + 720 - 180 * (n % 4)) % 720) % 720 * 32 + slot

/-- Put a slot into a channel's list, in the order in which the passes begin. -/
def slotInsert (key : SlotAddr → Nat) (l : List (SlotAddr × Bool)) (a : SlotAddr) : List (SlotAddr × Bool) :=
  match l with
  | [] => [(a, false)]
  | (b, v) :: t => if key a < key b then (a, false) :: (b, v) :: t else (b, v) :: slotInsert key t a

/-- Arm a slot of a channel; a read slot takes its place by the time at which its pass begins.  Ignored while DATA_EN is 0
(R131) or the front end is off. -/
def slotQueue (s : State) (c : Fin 32) (a : SlotAddr) (verify : Bool) : State :=
  let q := s.ch[c]
  let key (b : SlotAddr) : Nat := slotKey s (c.val / 4) b.pta b.arc b.slot
  if ¬ fbit s (fldRC_CTL_DATA_EN c) ∨ ¬ chanOn s c then s
  else if verify then slotNext (modCh s c (fun q => { q with queue := q.queue ++ [(a, true)] })) c
  else if q.sync = .wait1 ∧ ¬ q.verify ∧ key a < key q.addr then
    slotArm (modCh s c (fun q => { q with queue := slotInsert key q.queue q.addr })) c a false
  else slotNext (modCh s c (fun q => { q with queue := slotInsert key q.queue a })) c

/-- Put a finished packet on its way, its two descriptor entries after its values, and return the detector to IDLE; a boundary that waited for the packet is applied,
and the next armed slot is taken (R96, R120, R127). -/
def packetOut (s : State) (c : Fin 32) (b : BitVec 128) : State :=
  let q := s.ch[c]
  let p : Packet := ⟨q.packetId, c.val, q.addr, q.verify, (segment1 q).map SoftVal.sent, (segment2 q).map SoftVal.sent, descA c q.addr, b⟩
  let s1 := modHb { s with packets := s.packets ++ [p] } (chanHead c) (fun b => { b with toData := Nat.min toDataDepth (b.toData + 2) })
  let s2 := discardSettle (modCh s1 c (fun q => { q with sync := .idle, buf := [], soft := [] }))
  let s3 := if q.verify then s2 else slotEnded s2 (chanHead c) q.addr.pta q.addr.sector
  slotNext (chanDue s3 c) c

/-- A packet cut short: the rest is zeros, STATUS ABORTED, ABORTED sets; it counts neither for nor against SYNC_LOST
(R120, R121, R126).  Nothing happens to an idle detector. -/
def packetAbort (s : State) (c : Fin 32) : State :=
  let q := s.ch[c]
  if q.sync = .idle then s
  else
    let b := descB s.chipTime 3 7 true true 24 24 (erasedOf q) 0xF 0xF (qualOf q) q
    let s1 := count (fset s (fldRC_STAT_ABORTED c)) (6 * c.val + 4)
    packetOut (showDescriptor s1 c 7 0xF 0xF 24 24 (qualOf q)) c b

/-- The packets of every slot armed for a channel are cut short (R120). -/
def packetsAbort (s : State) (c : Fin 32) : State :=
  forEach (List.range (s.ch[c].queue.length + 1)) s (fun t _ => packetAbort t c)

/-- The stream reaches the primary window of the slot that is armed: the alignment buffer takes the values from P - WIN on, and the
packet's flags begin anew (R120, R125, R127).  With the RF Crossing not ARMED the slot gives no packet (R127); a read slot whose
pass begins before a good wedge status is disarmed, and its packet ends ABORTED (R325). -/
def sync1Open (s : State) (c : Fin 32) : State :=
  let q := s.ch[c]
  if q.sync ≠ .wait1 then s
  else if !(rfArmed s c) then
    let s1 := modCh s c (fun q => { q with sync := .idle })
    slotNext (chanDue (if q.verify then s1 else slotEnded s1 (chanHead c) q.addr.pta q.addr.sector) c) c
  else
    let s1 := modCh s c (fun q =>
      { q with passWedge := q.wedge, pkOverrun := false, pkSlip := false, pkSat := false, pkLoss := false
               dsp := { q.dsp with errSum := 0, errNum := 0 } })
    if s.hb[chanHead c].badStatus ∧ ¬ q.verify then packetAbort s1 c
    else modCh s1 c (fun q => { q with sync := .search1, buf := [], scanned := 0 })

/-- A candidate was discarded or rejected (R120, R121). -/
def candRej (s : State) (c : Fin 32) : State := count (fset s (fldRC_STAT_CAND_REJ c)) (6 * c.val + 2)

/-- WIN, the half-width of both windows. -/
def syncWin (s : State) (c : Nat) : Nat := fget s (fldSYNC_CFG_WIN c)

/-- A1 is fixed at an offset from P: the packet begins with the value of A1 + 8 out of the alignment buffer, whose first is that of
P - WIN (R120, R123, R127). -/
def fixA1 (s : State) (c : Fin 32) (p : Primary) (d : Int) (dist : Nat) : State :=
  let vals := s.ch[c].buf.drop ((syncWin s c : Int) + 8 + d).toNat
  packetPush (modCh s c (fun q => { q with sync := .stream1, primary := p, a1Ofs := d, primDist := dist, buf := [] })) c vals

/-- The 32 bits at a place of a list of values, the first the most significant; a value that is not there is 0 (R81). -/
def wordAt (l : List SoftVal) (i : Nat) : BitVec 32 × BitVec 32 :=
  let w := ((l.drop i).take 32).map (·.v) ++ List.replicate (32 - (l.drop i).length) 0
  (BitVec.ofNat 32 (w.foldl (fun a v => 2 * a + (if 0 < v.toInt then 1 else 0)) 0),
    BitVec.ofNat 32 (w.foldl (fun a v => 2 * a + (if v = 0 then 1 else 0)) 0))

/-- The distance from a mark of the bits at a place: a bit whose value is 0 counts as differing (R119). -/
def markDistance (mark : BitVec 32) (l : List SoftVal) (i : Nat) : Nat := syncDistance mark (wordAt l i).1 (wordAt l i).2

/-- The next start position of the primary window: a match fixes A1, becomes the candidate, or replaces it (R119, R120). -/
def sync1At (s : State) (c : Fin 32) : State :=
  let q := s.ch[c]
  let d : Int := (q.scanned : Int) - syncWin s c
  let dist := markDistance sync1 q.buf q.scanned
  let near := decide (d.natAbs ≤ fget s (fldSYNC_CFG_CONF_WIN c))
  let s1 := modCh s c (fun q => { q with scanned := q.scanned + 1 })
  if fget s (fldSYNC_CFG_SYNC_TOL c) < dist then s1
  else match q.sync with
  | .search1 =>
    if near then fixA1 s1 c .direct d dist
    else modCh s1 c (fun q => { q with sync := .cand, candOfs := d, candDist := dist })
  | .cand =>
    if near then fixA1 (candRej s1 c) c .direct d dist
    else if dist < q.candDist then modCh s1 c (fun q => { q with candOfs := d, candDist := dist })
    else s1
  | _ => s1

/-- The primary window's start positions up to one of them, in order, as far as the search goes on and their 32 bits are there
(R119). -/
def sync1Scan (s : State) (c : Fin 32) (upto : Nat) : State :=
  forEach (List.range (2 * syncWin s c + 1)) s (fun t _ =>
    let q := t.ch[c]
    if (q.sync = .search1 ∨ q.sync = .cand) ∧ q.scanned ≤ upto ∧ q.scanned ≤ 2 * syncWin t c ∧ q.scanned + 32 ≤ q.buf.length then
      sync1At t c
    else t)

/-- A match at an offset from P: the detector decides every position up to it, in chronological order (R119, R120). -/
def sync1Match (s : State) (c : Fin 32) (ofs : Int) : State := sync1Scan s c (ofs + syncWin s c).toNat

/-- The primary window ends (R120). -/
def sync1End (s0 : State) (c : Fin 32) : State :=
  let s := sync1Scan s0 c (2 * syncWin s0 c)
  let q := s.ch[c]
  match q.sync with
  | .search1 => fixA1 s c .missed 0 0xF
  | .cand => fixA1 s c .candidate q.candOfs q.candDist
  | _ => s

/-- The secondary window opens (R120). -/
def sync2Open (s : State) (c : Fin 32) : State :=
  if s.ch[c].sync = .stream1 then modCh s c (fun q => { q with sync := .search2 }) else s

/-- The match that wins the secondary window, centred on A1 + 17,016: the lowest distance, then the smaller |e|, then the earlier of
two (R120; the last is the model's, log 95).  The packet's first value is that of A1 + 8. -/
def sync2Best (tol win : Nat) (l : List SoftVal) : Option (Int × Nat) :=
  (List.range (2 * win + 1)).foldl (fun best (k : Nat) =>
    let e : Int := (k : Int) - win
    let d := markDistance sync2 l (17008 + k - win)
    if tol < d then best
    else match best with
    | none => some (e, d)
    | some (e', d') => if d < d' ∨ (d = d' ∧ e.natAbs < e'.natAbs) then some (e, d) else best) none

/-- The outcome table of R121: SYNC_OUT, the two offsets and SYNC_INF.  The first row that fits decides. -/
def syncOutcome (p : Primary) (d : Int) (dist confWin strong : Nat) (sec : Option Int) : Nat × Int × Int × Bool :=
  match p, sec with
  | .direct, some e => if e.natAbs ≤ 1 then (0, 24, 24 + e, false) else (9, 24, 24 + e, false)
  | .direct, none => (1, 24, 24, false)
  | .candidate, some e =>
    if e.natAbs ≤ 1 then (2, 24 + e, 24 + e, false)
    else if (e + d).natAbs ≤ confWin then (3, 24 + e, 24 + e, true)
    else (8, 24 + e, 24 + e, true)
  | .candidate, none => if dist ≤ strong then (4, 24, 24, true) else (5, 24 - d, 24 - d, true)
  | .missed, some e => (6, 24 + e, 24 + e, true)
  | .missed, none => (7, 24, 24, true)

/-- The secondary window ends: the outcome and offsets are set, with CAND_REJ, TR_SLIP and SYNC_INF_SEEN as the outcome
has it (R120, R121).  They stay set where the packet is cut short after this (DESIGN CHOICE, log 95). -/
def sync2End (s : State) (c : Fin 32) : State :=
  let q := s.ch[c]
  if q.sync ≠ .search2 then s
  else
    let best := sync2Best (fget s (fldSYNC_CFG_SYNC_TOL c)) (syncWin s c) q.soft
    let (code, o1, o2, inf) := syncOutcome q.primary q.a1Ofs q.primDist (fget s (fldSYNC_CFG_CONF_WIN c))
      (fget s (fldSYNC_CFG_CAND_STRONG c)) (best.map (·.1))
    let s1 := modCh s c (fun q =>
      { q with
        sync := .stream2, outCode := code, ofs1 := o1.toNat, ofs2 := o2.toNat
        secFound := best.isSome, secDist := match best with | some (_, d) => d | none => 0xF })
    let s2 := if code = 3 then candRej s1 c else s1
    let s3 := if code = 9 then trSlip s2 c else s2
    if inf then count (fset s3 (fldRC_STAT_SYNC_INF_SEEN c)) (6 * c.val + 1) else s3

/-- SYNC_LOST sets after FLY_MAX slots in a row that end INFERRED and clears at a DIRECT, CAND_CONFIRMED or SLIP (R122). -/
def syncLost (s : State) (c : Fin 32) (code : Nat) : State :=
  let run := if code = 7 then s.ch[c].inferRun + 1 else 0
  let s1 := modCh s c (fun q => { q with inferRun := run })
  if code = 7 ∧ Nat.max 1 (fget s (fldSYNC_CFG_FLY_MAX c)) ≤ run then fset s1 (fldRC_STAT_SYNC_LOST c)
  else if code = 0 ∨ code = 2 ∨ code = 9 then fclr s1 (fldRC_STAT_SYNC_LOST c)
  else s1

/-- STATUS of a packet that was not cut short: BLANK where the envelope was low over all its values, NOLOCK where the rate or the lock
allowed none, else DATA (R98, R118, R126). -/
def packetStatus (q : Channel) : Nat :=
  if !(q.soft.isEmpty) && q.soft.all (·.low) then 1 else if q.rateBad || !q.lockSeen then 2 else 0

/-- The last value of the CW2 segment is delivered: the descriptor is written and the notice raised (R120, R125, R127). -/
def packetComplete (s : State) (c : Fin 32) : State :=
  let q := s.ch[c]
  if q.sync ≠ .stream2 then s
  else
    let inf := decide (3 ≤ q.outCode) && decide (q.outCode ≤ 8)
    let d1 := if q.primary = .missed then 0xF else q.primDist
    let b := descB s.chipTime (packetStatus q) q.outCode inf (!q.secFound) q.ofs1 q.ofs2 (erasedOf q) d1 q.secDist (qualOf q) q
    packetOut (syncLost (showDescriptor s c q.outCode d1 q.secDist q.ofs1 q.ofs2 (qualOf q)) c q.outCode) c b

/-- SYNC1_WINDOW_OPEN. -/
def execSync1WindowOpen (c : Chan) (s : State) : Host.Outcome State Fault Refusal := .next (sync1Open s c)

/-- SYNC1_MATCH. -/
def execSync1Match (c : Chan) (ofs : Int) (s : State) : Host.Outcome State Fault Refusal := .next (sync1Match s c ofs)

/-- SYNC1_WINDOW_END. -/
def execSync1WindowEnd (c : Chan) (s : State) : Host.Outcome State Fault Refusal := .next (sync1End s c)

/-- SYNC2_WINDOW_OPEN. -/
def execSync2WindowOpen (c : Chan) (s : State) : Host.Outcome State Fault Refusal := .next (sync2Open s c)

/-- SYNC2_WINDOW_END. -/
def execSync2WindowEnd (n : Head) (spot : Fin 4) (s : State) : Host.Outcome State Fault Refusal :=
  .next (sync2End s (headChan n spot))

/-! ### The front end -/

/-- A write of RC_CTL.ENABLE takes effect at once: rising loads the gains and starts the signal path anew, falling ends the packets
of every armed slot ABORTED (R95, R96, R102, R120). -/
def rcEnable (s : State) (c : Fin 32) (on : Bool) : State :=
  if absentAt s.variant (rcBase c) then s
  else
    let was := fbit s (fldRC_CTL_ENABLE c)
    let s1 := fputB s (fldRC_CTL_ENABLE c) on
    if on && !was then gainInit (modCh s1 c (fun q => { q with tim := Timing.reset, dsp := Dsp.reset, drop := Dropout.reset })) c
    else if !on && was then packetsAbort s1 c
    else s1

/-! ### The fine estimate -/

/-- Whether a channel is delivering DATA values now. -/
def delivering (s : State) (c : Fin 32) : Bool :=
  streaming s.ch[c] && fbit s (fldRC_STAT_TR_LOCK c) && !s.ch[c].drop.inDrop

/-- The sum of the squares of the canceller's taps toward a neighbour (R128). -/
def tapEnergy (l : List Int) : Nat := l.foldl (fun a x => a + x.natAbs ^ 2) 0

/-- rho_fine in 2^-15 pitch: clamp(K_XT (E_out - E_in) / (E_out + E_in), -0.5, 0.5); a free value when both energies are 0
(R128, log 15). -/
def fineOf (k : Int) (eIn eOut free : Nat) : Int :=
  if eIn + eOut = 0 then clampInt ((Config.freeWord free).toInt) (-16384) 16384
  else clampInt (roundDiv (k * ((eOut : Int) - eIn)) ((eOut : Int) + eIn)) (-16384) 16384

/-- Whether a channel had a dropout in the present period of spot B1 or B2. -/
def droppedFor (q : Channel) (spot : Nat) : Bool := if spot = 1 then q.drop.forB1 else q.drop.forB2

/-- The next period of spot B1 or B2 begins. -/
def droppedNext (spot : Nat) (q : Channel) : Channel :=
  { q with drop := if spot = 1 then { q.drop with forB1 := q.drop.inDrop } else { q.drop with forB2 := q.drop.inDrop } }

/-- The end of a fine period of channel B1 or B2; B0 and B3 send none (R128). -/
def fineEstimate (s : State) (c : Fin 32) : State :=
  if h : ¬ (c.val % 4 = 1 ∨ c.val % 4 = 2) then s
  else if !(chanOn s c) then s
  else
    let lo : Fin 32 := ⟨c.val - 1, by omega⟩
    let hi : Fin 32 := ⟨c.val + 1, by omega⟩
    let sp := c.val % 4
    let ok := fbit s (fldRC_CTL_XTC_EN c) && fbit s (fldRC_STAT_TR_LOCK c) && !(droppedFor s.ch[c] sp) && !(droppedFor s.ch[lo] sp) &&
      !(droppedFor s.ch[hi] sp) && delivering s lo && delivering s hi
    let v := fineOf (fgetInt s (fldXT_CFG_K_XT c)) (tapEnergy s.ch[c].dsp.xtIn) (tapEnergy s.ch[c].dsp.xtOut) s.freeCtr
    let s1 := fputInt (fputB s (fldFINE_POS_VALID c) ok) (fldFINE_POS_FINE c) v
    tickFree (forEach [lo, c, hi] s1 (fun t k => modCh t k (droppedNext sp)))

/-- The channel of a spot of a head of a side: side A holds H0 to H3, side B H4 to H7. -/
def sideChan (side : Fin 2) (head spot : Fin 4) : Fin 32 := headChan ⟨4 * side.val + head.val, by omega⟩ spot

/-- FINE_ESTIMATE. -/
def execFineEstimate (side : Fin 2) (head spot : Fin 4) (s : State) : Host.Outcome State Fault Refusal :=
  .next (fineEstimate s (sideChan side head spot))

end Machine
end Sys2Proof
end

