-- ==== Sys2Proof/Machine/Decoder.lean ====
section
/-! DEFINITION. The inner-code decoder block: slices and their buffers (R144, R147, R148, R595), the steps of decoding a
sector (R140 to R143), and where an OK sector is written. -/

namespace Sys2Proof
namespace Machine

/-! ### Slices -/

/-- Slices in service. -/
def sliceIn (s : State) (n : Nat) : Bool :=
  if n < 32 then fbitAt s fldDEC_SLICE0_IN_SERVICE n else fbitAt s fldDEC_SLICE1_IN_SERVICE (n - 32)

/-- Change one slice. -/
def modSlice (s : State) (n : Fin 40) (f : List SliceBuf → List SliceBuf) : State := { s with slices := s.slices.set n (f s.slices[n]) }

/-- The packets that the block holds, waits for, discards or has done with. -/
def decKnows (s : State) (pk : Nat) : Bool :=
  s.slices.toList.any (fun l => l.any (fun b => b.pk == pk)) || s.decWait.contains pk || s.decDiscard.contains pk || s.decDrop.contains pk

/-- The packet of a channel whose first entry arrives next: the oldest complete one that the block does not know, else the
one that the channel is sending (R144). -/
def packetArriving (s : State) (c : Fin 32) : Option Nat :=
  match s.packets.find? (fun p => p.chan == c.val && !(decKnows s p.id)) with
  | some p => some p.id
  | none => if streaming s.ch[c] && !(decKnows s s.ch[c].packetId) then some s.ch[c].packetId else none

/-- The first slice in service with a free buffer (R144). -/
def sliceFree (s : State) : Option (Fin 40) :=
  (List.finRange 40).find? (fun n => sliceIn s n && decide (s.slices[n].length < 2))

/-- Whether any slice is in service. -/
def anySlice (s : State) : Bool := (List.range 40).any (sliceIn s)

/-- The head, armed slot and read-back mark of a packet: of a complete one, or of the open packet of its channel. -/
def packetOwner (s : State) (pk : Nat) : Option (Fin 8 × SlotAddr × Bool × SectorRes) :=
  match s.packets.find? (fun p => p.id == pk) with
  | some p => some (headOfChan p.chan, p.addr, p.verify, packetRes p 7 0)
  | none =>
    match (List.finRange 32).find? (fun c => s.ch[c].packetId == pk && streaming s.ch[c]) with
    | some c => some (chanHead c, s.ch[c].addr, s.ch[c].verify, bareRes 7 0)
    | none => none

/-- A sector that a slice holds ends CUT; what is still to come of its packet means nothing (R143, R147, R148).  How many
iterations it had run is a free value, at most ITER_MAX. -/
def cutPacket (s : State) (b : SliceBuf) : State :=
  match packetOwner s b.pk with
  | none => s
  | some (h, a, v, r) =>
    let it := if b.phase = .iterating then (Config.freeWord s.freeCtr).toNat % (fget s fldDEC_CFG_ITER_MAX + 1) else 0
    let complete := s.packets.any (fun p => p.id == b.pk)
    let s1 := { s with
      packets := s.packets.filter (fun p => p.id != b.pk)
      decDrop := if complete then s.decDrop else s.decDrop ++ [b.pk] }
    sectorOut (tickFree s1) h a v { r with iter := it }

/-- A sector whose result is being written ends CUT: what has its result, and has not gone on with it, takes the new one (R148;
DEDUCED, log 106). -/
def cutWriting (s : State) (b : SliceBuf) : State :=
  match b.res with
  | none => s
  | some (h, a, v, r) =>
    let s1 := sif v s (fun t => modWc t h (fun w => { w with slots := w.slots.map (fun q =>
      if q.pta = a.pta ∧ q.sector = a.sector then { q with vres := none } else q) }))
    sectorOut s1 h a v { r with code := 7 }

/-- A sector that a slice holds when it leaves service ends CUT (R148). -/
def cutBuf (s : State) (b : SliceBuf) : State := if b.phase = .writing then cutWriting s b else cutPacket s b

/-- The sector that is stopped for a new packet: of those whose descriptor entry B has arrived and that are not writing
their result, the one whose entry arrived first (R147). -/
def preemptVictim (s : State) : Option (Fin 40 × SliceBuf) :=
  s.packets.findSome? (fun p =>
    (List.finRange 40).findSome? (fun n =>
      (s.slices[n].find? (fun b => b.pk == p.id && b.phase != .writing)).map (fun b => (n, b))))

/-- A free buffer of a slice goes to the packet that has waited longest (R144, R147). -/
def sliceGive (s : State) (n : Fin 40) : State :=
  match s.decWait with
  | [] => s
  | pk :: rest => modSlice { s with decWait := rest } n (fun l => l ++ [⟨pk, .loading, none⟩])

/-- Sectors that are writing their result. -/
def slicesWriting (s : State) : Nat := s.slices.toList.foldl (fun n l => n + (l.filter (fun b => b.phase == .writing)).length) 0

/-- A packet's first entry arrives: it waits its turn for a free buffer.  With none free and none being written for it, a sector is
stopped; with none to stop the packet waits on; with no slice in service its entries are discarded (R144, R147, R595). -/
def sliceTake (s : State) (pk : Nat) : State :=
  if !(anySlice s) then discardSettle { s with decDiscard := s.decDiscard ++ [pk] }
  else
    let s1 := { s with decWait := s.decWait ++ [pk] }
    match sliceFree s with
    | some n => sliceGive s1 n
    | none =>
      if s.decWait.length < slicesWriting s then s1
      else match preemptVictim s with
      | some (n, b) => sliceGive (modSlice (cutPacket s1 b) n (fun l => l.filter (fun x => x.pk != b.pk))) n
      | none => s1

/-- SLICE_ASSIGN: the packet of a channel whose first entry arrives. -/
def execSliceAssign (c : Chan) (s : State) : Host.Outcome State Fault Refusal :=
  .next (match packetArriving s c with
    | some pk => sliceTake s pk
    | none => s)

/-- A buffer of a slice has written its result and frees; a waiting packet takes it (R147). -/
def sliceFreed (s : State) (n : Fin 40) : State :=
  match s.slices[n].find? (fun b => b.phase == .writing) with
  | none => s
  | some b => sliceGive (modSlice s n (fun l => l.filter (fun x => x.pk != b.pk))) n

/-- SLICE_BUFFER_FREED. -/
def execSliceBufferFreed (n : SliceId) (s : State) : Host.Outcome State Fault Refusal := .next (sliceFreed s n)

/-- A slice leaves service and its fault manager reports it: the sectors it holds end CUT (R148, R168, R539). -/
def sliceRemove (s : State) (n : Fin 40) : State :=
  if !(sliceIn s n) then s
  else
    let s1 := if n.val < 32 then fputAt s fldDEC_SLICE0_IN_SERVICE n.val false else fputAt s fldDEC_SLICE1_IN_SERVICE (n.val - 32) false
    let k := fget s1 fldDEC_STAT_SLICES - 1
    let s2 := fputB (fset (fput s1 fldDEC_STAT_SLICES k) fldDEC_STAT_SLICE_LOST) fldDEC_STAT_BELOW_36 (k < 36)
    let s3 := forEach s2.slices[n] (modSlice (raiseReport s2 0x03 1 2 1 n.val 0 n.val) n (fun _ => [])) cutBuf
    if anySlice s3 then s3
    else discardSettle { s3 with decWait := [], decDiscard := s3.decDiscard ++ s3.decWait }

/-! ### One sector -/

/-- The codeword's soft values, aligned by the two offsets (R140). -/
def codewordSoft (p : Packet) : List (BitVec 4) :=
  (p.cw1.drop (dbOfs1 p.descB)).take 16984 ++ (p.cw2.drop (dbOfs2 p.descB)).take 16984

/-- Remove the scrambling: the soft value of every bit whose scrambler bit is 1 is negated (R140). -/
def descramble (soft : List (BitVec 4)) (a : SlotAddr) : List Int :=
  (soft.zip (scramble 33968 (scrSeed a.ptn a.arc a.slot))).map (fun p => if p.2 then -(p.1.toInt) else p.1.toInt)

/-- Codeword values that equal 0 (R140). -/
def zeroCount (l : List Int) : Nat := (l.filter (· = 0)).length

/-- The fields of a header (R83). -/
def hdrFmt (h : BitVec 128) : Nat := bitsOf h.toNat 127 120
def hdrSide (h : BitVec 128) : Nat := bitsOf h.toNat 119 119
def hdrLayer (h : BitVec 128) : Nat := bitsOf h.toNat 118 115
def hdrPtn (h : BitVec 128) : Nat := bitsOf h.toNat 114 97
def hdrArc (h : BitVec 128) : Nat := bitsOf h.toNat 96 93
def hdrSlot (h : BitVec 128) : Nat := bitsOf h.toNat 92 88
def hdrStype (h : BitVec 128) : Nat := bitsOf h.toNat 87 80
def hdrWseq (h : BitVec 128) : Nat := bitsOf h.toNat 79 48
def hdrPcrc (h : BitVec 128) : Nat := bitsOf h.toNat 47 16

/-- A decoded sector: its classification (R142), iterations, header and payload. -/
structure Decoded where
  code : Nat
  iter : Nat
  header : BitVec 128
  payload : List Byte
deriving DecidableEq, Repr

/-- Classify decoded bits: the first test that fails decides (R142). -/
def classify (a : SlotAddr) (checks : Bool) (header : BitVec 128) (payload : List Byte) : Nat :=
  if !checks then 3
  else if headerCrc header ≠ bitsOf header.toNat 15 0 ∨ hdrFmt header ≠ 1 then 4
  else if hdrSide header ≠ ptaSide a.pta.toNat ∨ hdrLayer header ≠ ptaLayer a.pta.toNat ∨ hdrPtn header ≠ a.ptn ∨
      hdrArc header ≠ a.arc ∨ hdrSlot header ≠ a.slot ∨ (a.sector < 32 ∧ hdrStype header = 1) ∨
      (32 ≤ a.sector ∧ hdrStype header ≠ 1) then 5
  else if crc32 payload ≠ hdrPcrc header then 6
  else 0

/-- Decode a packet's codeword (R140 to R142). -/
def decodeSector (early : Bool) (norm iterMax : Nat) (p : Packet) : Decoded :=
  let (bits, it, ok) := ldpcDecode early norm iterMax (descramble (codewordSoft p) p.addr)
  let header := BitVec.ofNat 128 (bitsNat (bits.take 128))
  let payload := bitsBytes 4096 ((bits.drop 128).take 32768)
  ⟨classify p.addr ok header payload, it, header, payload⟩

/-- The buffer in a slice that a packet may be decoded from: loading, complete, in a slice that does not iterate. -/
def sliceReady (s : State) (n : Fin 40) : Option Packet :=
  if s.slices[n].any (fun b => b.phase == .iterating) then none
  else s.slices[n].findSome? (fun b =>
    if b.phase = .loading then s.packets.find? (fun p => p.id == b.pk) else none)

/-- A buffer starts to iterate. -/
def sliceIterate (s : State) (n : Fin 40) (pk : Nat) : State :=
  modSlice s n (fun l => l.map (fun b => if b.pk = pk then { b with phase := .iterating } else b))

/-- A sector is done: its packet leaves, its buffer writes the result, and the result goes on. -/
def sliceResult (s : State) (n : Fin 40) (p : Packet) (r : SectorRes) : State :=
  let h := headOfChan p.chan
  let s1 := modSlice { s with packets := s.packets.filter (fun q => q.id != p.id) } n (fun l =>
    l.map (fun b => if b.pk = p.id then { b with phase := .writing, res := some (h, p.addr, p.verify, r) } else b))
  sectorOut s1 h p.addr p.verify r

/-- The sector ends without decoding (R140, R143). -/
def sliceSkip (s : State) (n : Fin 40) (p : Packet) (code : Nat) : State := sliceResult s n p (packetRes p code 0)

/-- Descriptor entry B has arrived: STATUS other than DATA ends NO_SIGNAL, more than 1,072 zeros end ERASE_SKIP, and
otherwise the slice starts to iterate (R140). -/
def decodeStart (s : State) (n : Fin 40) : State :=
  match sliceReady s n with
  | none => s
  | some p =>
    if dbStatus p.descB ≠ 0 then sliceSkip s n p 1
    else if 1072 < zeroCount (descramble (codewordSoft p) p.addr) then sliceSkip s n p 2
    else sliceIterate s n p.id

/-- DECODE_START. -/
def execDecodeStart (n : SliceId) (s : State) : Host.Outcome State Fault Refusal := .next (decodeStart s n)

/-- Where header and payload of a tile sector lie in a buffer (R343). -/
def payloadAt (base i : Nat) : Nat := base + 4096 * i
def headerAt (base i : Nat) : Nat := base + 0x24000 + 16 * i

/-- The decoder writes an OK sector's header and payload to its tile's buffer; the read-back of a write is discarded
(R142, R193, R343).  The decoder's writes never allocate in the Arcade (R373). -/
def writeSector (s : State) (head : Nat) (p : Packet) (d : Decoded) : State :=
  if d.code ≠ 0 ∨ p.verify then s
  else match s.tiles.find? (tileTakes head p.addr) with
  | none => s
  | some t =>
    let put (s : State) (a : Nat) (bs : List Byte) : State := (memWrite s 4 a bs).getD s
    put (put s (payloadAt t.base p.addr.sector) d.payload) (headerAt t.base p.addr.sector) (natBe 16 d.header.toNat)

/-- Decoding ends: the sector is classified, an OK one is written, and its result goes on (R142). -/
def sectorDecodeDone (s : State) (n : Fin 40) : State :=
  match s.slices[n].find? (fun b => b.phase == .iterating) with
  | none => s
  | some b =>
    match s.packets.find? (fun p => p.id == b.pk) with
    | none => s
    | some p =>
      let d := decodeSector (fbit s fldDEC_CFG_EARLY_STOP) (fget s fldDEC_CFG_NORM) (fget s fldDEC_CFG_ITER_MAX) p
      sliceResult (writeSector s (headOfChan p.chan).val p d) n p
        { packetRes p d.code d.iter with stype := hdrStype d.header, wseq := hdrWseq d.header, pcrc := hdrPcrc d.header }

/-- SECTOR_DECODE_DONE. -/
def execSectorDecodeDone (n : SliceId) (s : State) : Host.Outcome State Fault Refusal := .next (sectorDecodeDone s n)

/-- PACKET_COMPLETE: the descriptor is written and the notice raised; with no slice in service the packet ends CUT (R127,
R595). -/
def execPacketComplete (c : Chan) (s : State) : Host.Outcome State Fault Refusal := .next (packetComplete s c)

end Machine
end Sys2Proof
end

