-- ==== Sys2Proof/Machine/Fabric.lean ====
section
/-! DEFINITION. The handshake fabric: transfers (R23, R24), Roundabouts (R27 to R37), Crossings (R38 to R44, R594), the
pace registers (R48, R51) and permits (R53 to R61). -/

namespace Sys2Proof
namespace Machine

/-! ### Transfers -/

/-- The Ring Road ports of the stations in ring order: chip level, Control, Side A, Data, Side B, Power (R26, R32). -/
def ringOrder : List Nat := [0, 1, 3, 2, 4, 5]

/-- The steps clockwise from the station of one Ring Road port to that of another (R26). -/
def ringAhead (a b : Nat) : Nat := (ringOrder.idxOf b + 6 - ringOrder.idxOf a) % 6

/-- Whether a transfer between two stations goes clockwise: the shorter direction, and clockwise when both are equal (R26). -/
def ringClockwise (a b : Nat) : Bool := decide (ringAhead a b ≤ 3)

/-- The stations that a transfer on the Ring Road reaches, the last one its target (R26). -/
def ringRoute (a b : Nat) : List Nat :=
  let at' (i : Nat) : Nat := ringOrder.getD (i % 6) 0
  let p := ringOrder.idxOf a
  if 6 ≤ a ∨ 6 ≤ b then []
  else if ringClockwise a b then (List.range (ringAhead a b)).map (fun i => at' (p + i + 1))
  else (List.range (6 - ringAhead a b)).map (fun i => at' (p + 5 - i))

/-- The Ring Road stations that a path passes. -/
def ringStations (hops : List Hop) : List Nat :=
  hops.flatMap (fun h => if h.rbt = 0 then ringRoute h.port h.target else [])

/-- Append a transfer to the link it arrives over. -/
def linkArrive (ls : List Link) (src dst : Nat) (hops : List Hop) (payload : List Byte) : List Link :=
  match ls with
  | [] => [⟨src, dst, hops, ringStations hops, [payload]⟩]
  | l :: t =>
    if l.src = src ∧ l.dst = dst ∧ l.hops = hops then { l with arrived := l.arrived ++ [payload] } :: t
    else l :: linkArrive t src dst hops payload

/-- Whether a Roundabout has no request and no transfer that awaits its acknowledge (R27, R37). -/
def rbtIdle (q : Rbt) : Bool := q.waiting.isEmpty && q.inFlight.isEmpty

/-- A window with no request and no transfer left ends (R27). -/
def rbtClose (q : Rbt) : Rbt := { q with isOpen := q.isOpen && !(rbtIdle q) }

/-- A transfer from one port to another no longer awaits its acknowledge. -/
def rbtDone (port target : Fin 16) (q : Rbt) : Rbt :=
  rbtClose { q with inFlight := q.inFlight.eraseP (fun g => g.port = port ∧ g.target = target) }

/-- A Roundabout's transfer is acknowledged. -/
def rbtAck (h : Hop) (q : Rbt) : Rbt := rbtDone h.port h.target q

/-- The head whose block sends from a port of an Avenue: ports 0 to 3 of Side A and of Side B (R20, R32). -/
def hopHead (h : Hop) : Option (Fin 8) :=
  if h.port.val < 4 then
    if h.rbt.val = 3 then some ⟨h.port.val % 4, by omega⟩
    else if h.rbt.val = 4 then some ⟨4 + h.port.val % 4, by omega⟩
    else none
  else none

/-- An entry of 128 bits that leaves a head block makes room in its buffer toward the Data district (R46). -/
def hopDrain (s : State) (h : Hop) (payload : List Byte) : State :=
  match hopHead h with
  | some n => if payload.length = 16 then modHb s n (fun b => { b with toData := b.toData - 1 }) else s
  | none => s

/-- One handshake moves one whole transfer: it arrives, in order, and every Roundabout on its path is acknowledged (R23,
R24). -/
def fabricTransfer (s : State) (src dst : Nat) (hops : List Hop) (payload : List Byte) : State :=
  forEach hops { s with links := linkArrive s.links src dst hops payload } (fun t h =>
    hopDrain (modRbt t h.rbt (rbtAck h)) h payload)

/-- FABRIC_TRANSFER. -/
def execFabricTransfer (src dst : Nat) (hops : List Hop) (payload : List Byte) (s : State) :
    Host.Outcome State Fault Refusal :=
  .next (fabricTransfer s src dst hops payload)

/-! ### Roundabouts -/

/-- The weight in force of a port: 1 under POLICY 1, and 1 for a weight of 0 (R34, R35). -/
def rbtWeight (s : State) (r p : Nat) : Nat :=
  if fget s (fldRBT_CFG_POLICY r) = 1 then 1
  else
    let w := bitsOf (rd s (if p < 8 then regRBT_WGT0 r else regRBT_WGT1 r)).toNat (4 * (p % 8) + 3) (4 * (p % 8))
    Nat.max w 1

/-- Store the writes that waited for a window (R37). -/
def rbtApply (s : State) (r : Fin 21) : State :=
  let q := s.rbt[r]
  let s1 := match q.pendCfg with | some v => wr s (regRBT_CFG r) v | none => s
  let s2 := match q.pendWgt0 with | some v => wr s1 (regRBT_WGT0 r) v | none => s1
  let s3 := match q.pendWgt1 with | some v => wr s2 (regRBT_WGT1 r) v | none => s2
  fclr (modRbt s3 r (fun q => { q with pendCfg := none, pendWgt0 := none, pendWgt1 := none })) (fldRBT_STAT_PENDING r)

/-- A new window opens: pending writes take effect and the count of grants restarts (R27, R37). -/
def rbtOpen (s : State) (r : Fin 21) : State :=
  if s.rbt[r].isOpen then s
  else modRbt (if fbit s (fldRBT_STAT_PENDING r) then rbtApply s r else s) r
    (fun q => { q with isOpen := true, winGrants := 0, winUrgent := 0 })

/-- Whether a request counts as urgent at a Roundabout (R28, R34). -/
def rbtUrgent (s : State) (r : Nat) (q : RbtRequest) : Bool :=
  q.kind != .ordinary && fbit s (fldRBT_CFG_URG_EN r)

/-- The port that weighted round robin grants next, with its turn's count after the grant (R27). -/
def rbtRobin (s : State) (r : Fin 21) : Option (Nat × Nat) :=
  let q := s.rbt[r]
  let asks (p : Nat) : Bool := q.waiting.any (fun w => w.port.val = p)
  if asks q.turn ∧ q.used < rbtWeight s r q.turn then some (q.turn, q.used + 1)
  else ((List.range 16).map (fun i => (q.turn + 1 + i) % 16)).find? asks |>.map (fun p => (p, 1))

/-- Requests that reach a Roundabout together, lowest port first; a port absent from PORT_MAP and a fenced port present
none (R28, R33, R541). -/
def rbtArrivals (s : State) (r : Fin 21) (l : List RbtRequest) : List RbtRequest :=
  (List.range 16).flatMap (fun p => l.filter (fun q =>
    q.port.val = p && (portMap s.variant r).testBit p && !(s.rbt[r].fenced.contains p)))

/-- Take out the granted request and count it (R27). -/
def rbtTake (s : State) (r : Fin 21) (g : RbtRequest) (turn used urgent : Nat) : State :=
  modRbt s r (fun q =>
    let wt := q.waiting.erase g
    { q with
      waiting := wt
      turn := turn
      used := used
      winUrgent := q.winUrgent + urgent
      winGrants := q.winGrants + 1
      isOpen := decide (q.winGrants + 1 < 64)
      inFlight := q.inFlight ++ [⟨g.port, g.target, s.chipTime⟩] })

/-- Set URG_SAT when the cap leaves urgent requests waiting (R28, R36). -/
def rbtSat (s : State) (r : Fin 21) : State :=
  if fget s (fldRBT_CFG_URG_CAP r) ≤ s.rbt[r].winUrgent ∧ s.rbt[r].waiting.any (rbtUrgent s r) then
    fset s (fldRBT_STAT_URG_SAT r)
  else s

/-- A Roundabout takes the requests that have arrived and grants one: an urgent one up to URG_CAP a window, else by
weighted round robin (R27, R28). -/
def rbtGrant (s : State) (r : Fin 21) (arrivals : List RbtRequest) : State :=
  let s1 := modRbt s r (fun q => { q with waiting := q.waiting ++ rbtArrivals s r arrivals })
  if s1.rbt[r].waiting.isEmpty then s1
  else
    let s2 := rbtOpen s1 r
    let q := s2.rbt[r]
    let urgent := if q.winUrgent < fget s2 (fldRBT_CFG_URG_CAP r) then q.waiting.find? (rbtUrgent s2 r) else none
    match urgent with
    | some g => rbtSat (rbtTake s2 r g q.turn q.used 1) r
    | none =>
      match rbtRobin s2 r with
      | some (p, used) =>
        match q.waiting.find? (fun w => w.port.val = p) with
        | some g => rbtSat (rbtTake s2 r g p used 0) r
        | none => s2
      | none => s2

/-- ROUNDABOUT_GRANT. -/
def execRoundaboutGrant (r : RbtId) (arrivals : List RbtRequest) (s : State) : Host.Outcome State Fault Refusal :=
  .next (rbtGrant s r arrivals)

/-- The value a configuration write asks for: URG_CAP clamped, reserved bits and absent ports 0 (R34, R35). -/
def rbtCfgValue (v : Variant) (r : Nat) (reg : RbtReg) (x : Nat) : Nat :=
  match reg with
  | .cfg => clampNat (bitsOf x 25 20) 8 32 * 2 ^ 20 + bitsOf x 19 12 * 2 ^ 12 + bitsOf x 1 0
  | .wgt0 => (List.range 8).foldl (fun acc i =>
      if (portMap v r).testBit i then acc + bitsOf x (4 * i + 3) (4 * i) * 2 ^ (4 * i) else acc) 0
  | .wgt1 => (List.range 8).foldl (fun acc i =>
      if (portMap v r).testBit (8 + i) then acc + bitsOf x (4 * i + 3) (4 * i) * 2 ^ (4 * i) else acc) 0

/-- Hold a write until the next window opens: the last one of a register wins (R37). -/
def rbtHold (reg : RbtReg) (v : Word) (q : Rbt) : Rbt :=
  match reg with
  | .cfg => { q with pendCfg := some v }
  | .wgt0 => { q with pendWgt0 := some v }
  | .wgt1 => { q with pendWgt1 := some v }

def rbtRegAddr (r : Nat) : RbtReg → Nat
  | .cfg => regRBT_CFG r
  | .wgt0 => regRBT_WGT0 r
  | .wgt1 => regRBT_WGT1 r

/-- A write to RBT_CFG, RBT_WGT0 or RBT_WGT1: at once on an idle Roundabout, after the writes that its last window still held,
else pending; CLAMP when URG_CAP is out of its range (R34, R37). -/
def rbtConfigWrite (s : State) (r : Fin 21) (reg : RbtReg) (x : Word) : State :=
  if absentAt s.variant (rbtBase r) then reply s .ok 0 []
  else
    let v := BitVec.ofNat 32 (rbtCfgValue s.variant r reg x.toNat)
    let cap := bitsOf x.toNat 25 20
    let s1 := if reg = .cfg ∧ (cap < 8 ∨ 32 < cap) then fset s (fldRBT_STAT_CLAMP r) else s
    reply
      (if rbtIdle s.rbt[r] then wr (if fbit s1 (fldRBT_STAT_PENDING r) then rbtApply s1 r else s1) (rbtRegAddr r reg) v
       else fset (modRbt s1 r (rbtHold reg v)) (fldRBT_STAT_PENDING r)) .ok 0 []

/-- RBT_CONFIG_WRITE. -/
def execRbtConfigWrite (_agent : Agent) (r : RbtId) (reg : RbtReg) (value : Word) (s : State) :
    Host.Outcome State Fault Refusal :=
  .next (rbtConfigWrite s r reg value)

/-- The level, district, Avenue port of a Roundabout, for its fault reports (R17, R32, R597). -/
def rbtPlace (r : Nat) : Nat × Nat × Nat :=
  if r = 0 then (3, 0, 0xF)
  else if r = 1 then (2, 1, 0xF)
  else if r = 2 then (2, 2, 0xF)
  else if r = 3 then (2, 3, 0xF)
  else if r = 4 then (2, 4, 0xF)
  else if r = 5 then (2, 5, 0xF)
  else if r < 10 then (1, 3, r - 6)
  else if r < 14 then (1, 4, r - 10)
  else if r = 14 then (1, 5, 0)
  else if r = 15 then (1, 2, 0)
  else if r = 16 then (1, 2, 3)
  else if r = 17 then (1, 2, 4)
  else if r = 18 then (1, 1, 4)
  else if r = 19 then (1, 5, 1)
  else (1, 5, 2)

/-- A granted transfer is not acknowledged within STALL_LIMIT: it ends with a bus error, STALL sets and the target is
reported with class RBT_STALL (R30, R539).  Without such a transfer nothing happens. -/
def rbtStall (s : State) (r : Fin 21) (port target : Fin 16) : State :=
  if s.rbt[r].inFlight.any (fun g => g.port = port ∧ g.target = target) then
    let s1 := modRbt s r (rbtDone port target)
    let s2 := replyError (fset s1 (fldRBT_STAT_STALL r))
    let (lv, d, p) := rbtPlace r
    raiseReport s2 0x06 lv d p 0x3F 0 target.val
  else s

/-- ROUNDABOUT_STALL. -/
def execRoundaboutStall (r : RbtId) (port target : Fin 16) (s : State) : Host.Outcome State Fault Refusal :=
  .next (rbtStall s r port target)

/-! ### Crossings -/

/-- Show or clear a Crossing's ARMED bit (R43). -/
def xingShow (s : State) (x : Nat) (b : Bool) : State :=
  if x < 32 then fputAt s fldXING_ARMED0_ARMED x b else fputAt s fldXING_ARMED1_ARMED (x - 32) b

/-- Set a Crossing's WITHDREW bit (R43). -/
def xingEvent (s : State) (x : Nat) : State :=
  if x < 32 then fputAt s fldXING_EVT0_WITHDREW x true else fputAt s fldXING_EVT1_WITHDREW (x - 32) true

/-- Show a domain's clock-good flag. -/
def clkGoodShow (s : State) (x : Nat) (b : Bool) : State :=
  if x < 32 then fputAt s fldCLK_GOOD0_GOOD x b else fputAt s fldCLK_GOOD1_GOOD (x - 32) b

/-- Whether a domain is clock-good. -/
def clkGood (s : State) (x : Nat) : Bool :=
  if x < 32 then fbitAt s fldCLK_GOOD0_GOOD x else fbitAt s fldCLK_GOOD1_GOOD (x - 32)

/-- Whether the surviving side is the clocked one: the self-timed side is in reset and the clocked one is not. -/
def xingReset (q : Xing) (side : Side) : Bool :=
  match side with
  | .clocked => q.rstClk || !q.clkGood
  | .selfTimed => q.rstSelf

/-- Whether a side has been reset and has not reported ready since (R594). -/
def xingFresh (q : Xing) (side : Side) : Bool :=
  match side with
  | .clocked => q.freshClk
  | .selfTimed => q.freshSelf

/-- Whether a side may present requests: it is out of reset and needs no report of readiness (R594). -/
def xingUp (q : Xing) (side : Side) : Bool := !(xingReset q side) && !(xingFresh q side)

/-- Whether a side is ready for the re-arm handshake: up, and at the self-timed side every abort token delivered (R40). -/
def xingReady (q : Xing) (side : Side) : Bool :=
  xingUp q side && (match side with | .clocked => true | .selfTimed => q.tokSelf.isEmpty)

/-- Withdraw a Crossing on a reset of one side: that side discards what it holds, every request pending from the other
side is answered by an abort token coded CROSSING_RESET, and the event bit sets (R40, R594). -/
def xingWithdraw (s : State) (x : Fin 52) (side : Side) : State :=
  let f : Xing → Xing := fun q =>
    match side with
    | .clocked => { q with st := .withdrawn, freshClk := true, pendClk := [], heldClk := [], tokClk := [],
                           tokSelf := q.tokSelf ++ q.pendSelf, pendSelf := [],
                           lastEnd := if q.pendSelf.isEmpty then q.lastEnd else .crossingReset }
    | .selfTimed => { q with st := .withdrawn, freshSelf := true, pendSelf := [], heldSelf := [], tokSelf := [],
                             tokClk := q.tokClk ++ q.pendClk, pendClk := [],
                             lastEnd := if q.pendClk.isEmpty then q.lastEnd else .crossingReset }
  if xingPresent s.variant x then xingEvent (xingShow (modXing s x f) x false) x else s

/-- Both sides in reset: both idle, nothing pending (R40). -/
def xingBothReset (s : State) (x : Fin 52) : State :=
  modXing s x (fun q => { q with st := .withdrawn, freshClk := true, freshSelf := true, pendClk := [], pendSelf := [],
                                 heldClk := [], heldSelf := [], tokClk := [], tokSelf := [] })

/-- A side enters reset: an ARMED Crossing and one in WAIT_READY withdraw; in WITHDRAWN the side joins the other in reset, or
was in reset already (R40). -/
def xingDown (was : XState) (s : State) (x : Fin 52) (side : Side) : State :=
  match was with
  | .armed => xingWithdraw s x side
  | .waitReady => xingWithdraw s x side
  | .withdrawn => if xingReset s.xing[x] .clocked && xingReset s.xing[x] .selfTimed then xingBothReset s x else s

/-- Reset asserted on a side, by the reset signal (R40). -/
def xingResetAssert (s : State) (x : Fin 52) (side : Side) : State :=
  if !(xingPresent s.variant x) then s
  else xingDown s.xing[x].st (modXing s x (fun q => match side with
      | .clocked => { q with rstClk := true }
      | .selfTimed => { q with rstSelf := true })) x side

/-- The clock-good flag of a clocked side falls: it is treated as a side entering reset (R39). -/
def xingClockFall (s : State) (x : Fin 52) : State :=
  if !(xingPresent s.variant x) then s
  else xingDown s.xing[x].st (modXing (clkGoodShow s x.val false) x (fun q => { q with clkGood := false })) x .clocked

/-- Both sides are out of reset: WAIT_READY (R40). -/
def xingRelease (s : State) (x : Fin 52) : State :=
  let q := s.xing[x]
  if q.st = .withdrawn ∧ ¬ xingReset q .clocked ∧ ¬ xingReset q .selfTimed ∧ xingPresent s.variant x then
    modXing s x (fun q => { q with st := .waitReady })
  else s

/-- Reset released on a side (R40). -/
def xingResetRelease (s : State) (x : Fin 52) (side : Side) : State :=
  xingRelease (modXing s x (fun q => match side with
    | .clocked => { q with rstClk := false }
    | .selfTimed => { q with rstSelf := false })) x

/-- The clock-good flag rises: treated as a side released from reset (R39). -/
def xingClockRise (s : State) (x : Fin 52) : State :=
  if xingPresent s.variant x then xingRelease (modXing (clkGoodShow s x.val true) x (fun q => { q with clkGood := true })) x else s

/-- Re-arm: flow control is empty on both sides, the ARMED bit sets, and the requests held back pass; those that await an answer
are pending (R40, R594). -/
def xingRearm (s : State) (x : Fin 52) : State :=
  xingShow (modXing s x (fun q =>
    { q with
      st := .armed
      pendClk := (q.heldClk.filter (·.2)).map (·.1), pendSelf := (q.heldSelf.filter (·.2)).map (·.1)
      passed := q.heldClk.map (·.1) ++ q.heldSelf.map (·.1)
      heldClk := [], heldSelf := [] })) x true

/-- When both sides are ready, a Crossing in WAIT_READY re-arms (R40). -/
def xingTry (s : State) (x : Fin 52) : State :=
  if s.xing[x].st = .waitReady ∧ xingReady s.xing[x] .clocked ∧ xingReady s.xing[x] .selfTimed then xingRearm s x else s

/-- A side that was reset reports ready: the clocked one after 8 cycles with clock-good high, the self-timed one once every
abort token has been delivered; when both are ready the Crossing re-arms (R40). -/
def xingSideReady (s : State) (x : Fin 52) (side : Side) : State :=
  if s.xing[x].st = .waitReady then
    xingTry (modXing s x (fun q => match side with
      | .clocked => { q with freshClk := false }
      | .selfTimed => { q with freshSelf := false })) x
  else s

/-- The abort tokens of a withdrawal reach the surviving side, which may have been all that the re-arm waited for (R40, R41). -/
def xingDeliver (s : State) (x : Fin 52) : State :=
  xingTry (modXing s x (fun q => { q with tokClk := [], tokSelf := [] })) x

/-- CROSSING_RESET_RELEASE. -/
def execCrossingResetRelease (x : XingId) (side : Side) (s : State) : Host.Outcome State Fault Refusal :=
  .next (xingResetRelease s x side)

/-- A request passes an ARMED Crossing: it answers the one of the same tag that the other side has pending, and is pending itself
if it awaits an answer (R40; DEDUCED, log 90). -/
def xingPass (side : Side) (tag : Nat) (awaits : Bool) (q : Xing) : Xing :=
  let add (l : List Nat) : List Nat := if awaits then l ++ [tag] else l
  match side with
  | .clocked => { q with passed := [tag], lastEnd := .ok, pendSelf := q.pendSelf.erase tag, pendClk := add q.pendClk }
  | .selfTimed => { q with passed := [tag], lastEnd := .ok, pendClk := q.pendClk.erase tag, pendSelf := add q.pendSelf }

/-- A side that has not reported ready holds a request back (R594). -/
def xingHold (side : Side) (tag : Nat) (awaits : Bool) (q : Xing) : Xing :=
  match side with
  | .clocked => { q with heldClk := q.heldClk ++ [(tag, awaits)] }
  | .selfTimed => { q with heldSelf := q.heldSelf ++ [(tag, awaits)] }

/-- A request at a Crossing: a side in reset presents none; a side that was reset and has not reported ready holds it back; else
it passes on an ARMED Crossing and ends with CROSSING_RESET on any other (R40, R594). -/
def xingRequest (s : State) (x : Fin 52) (side : Side) (tag : Nat) (awaits : Bool) : State :=
  let q := s.xing[x]
  if xingReset q side then s
  else if xingFresh q side then modXing s x (xingHold side tag awaits)
  else if q.st = .armed then reply (modXing s x (xingPass side tag awaits)) .ok tag []
  else reply (modXing s x (fun q => { q with lastEnd := .crossingReset })) .crossingReset tag []

/-- CROSSING_REQUEST. -/
def execCrossingRequest (x : XingId) (side : Side) (tag : Nat) (awaits : Bool) (s : State) :
    Host.Outcome State Fault Refusal :=
  .next (xingRequest s x side tag awaits)

/-- Whether a Crossing is ARMED. -/
def xingArmed (s : State) (x : Fin 52) : Bool := s.xing[x].st == .armed

/-! ### Pace registers -/

/-- Whether a district exists on the variant. -/
def districtPresent (v : Variant) (d : Nat) : Bool := d != 3 || sideBPresent v

/-- The effective target of a district at a spindle target of s rpm, rounded up to a whole number (R49). -/
def paceTarget (s : State) (d rpm : Nat) : Nat :=
  fget s (fldPACE_TARGET_FIXED d) + (fget s (fldPACE_TARGET_VAR d) * rpm + 7199) / 7200

/-- Show the effective targets at a spindle target (R49, R51). -/
def paceShowTargets (s : State) (rpm : Nat) : State :=
  forEach (List.range 5) s (fun t d =>
    if districtPresent t.variant d then fput t (fldPACE_STAT_EFF_TARGET d) (paceTarget t d rpm) else t)

/-- A read of PACE_RATE returns the register and restores MIN_RATE to its reset value (R13, R51). -/
def paceRateRead (s : State) (d : Fin 5) : State :=
  let v := rd s (regPACE_RATE d)
  if absentAt s.variant (paceBase d) then reply s .ok 0 (natLe 4 0)
  else reply (fput s (fldPACE_RATE_MIN_RATE d) 0xFFFF) .ok v.toNat (natLe 4 v.toNat)

/-- PACE_RATE_READ. -/
def execPaceRateRead (_agent : Agent) (d : District) (s : State) : Host.Outcome State Fault Refusal :=
  .next (paceRateRead s d)

/-! ### Permits -/

/-- A refused claim, release or configuration write (R57, R59). -/
def permitDeny (s : State) (n : Nat) (agentId : Nat) : State :=
  fput (fset s (fldPERMIT_DENIED n)) (fldPERMIT_DENY_ID n) agentId

/-- The agent that holds a permit, 0 when it is free (R55). -/
def permitOwner (s : State) (n : Nat) : Nat := fget s (fldPERMIT_OWNER n)

/-- A claim (R57, R58). -/
def permitClaim (s : State) (agentId : Nat) (n : Nat) (feature : Nat) : State :=
  if permitOwner s n = 0 then fput (fput s (fldPERMIT_OWNER n) agentId) (fldPERMIT_FEATURE n) feature
  else permitDeny s n agentId

/-- A release: honoured only when the writer is the owner (R56, R57).  FEATURE keeps its code: the spec says only what a claim
writes there (DESIGN CHOICE, log 91). -/
def permitRelease (s : State) (agentId : Nat) (n : Nat) : State :=
  if permitOwner s n = agentId then fput s (fldPERMIT_OWNER n) 0
  else permitDeny s n agentId

/-- PERMIT_CLAIM. -/
def execPermitClaim (agent : Agent) (n : PermitId) (feature : BitVec 7) (s : State) : Host.Outcome State Fault Refusal :=
  .next (reply (permitClaim s agent.id n feature.toNat) .ok 0 [])

/-- PERMIT_RELEASE. -/
def execPermitRelease (agent : Agent) (n : PermitId) (s : State) : Host.Outcome State Fault Refusal :=
  .next (reply (permitRelease s agent.id n) .ok 0 [])

end Machine
end Sys2Proof
end

