-- ==== Sys2Proof/Machine/Galois.lean ====
section
/-! DEFINITION. The field GF(2^8) of R149 and the column decoder of the tile code and of span parity: syndromes, filling
known erasures, and searching for errors (R149, R152, R158). -/

namespace Sys2Proof
namespace Machine

/-- Multiply by alpha = 0x02 modulo x^8 + x^4 + x^3 + x^2 + 1 (R149). -/
def gfDouble (a : Nat) : Nat := if a < 128 then 2 * a else (2 * a) ^^^ 0x11D

/-- The product of two field elements: the multiples of a for the low n bits of b. -/
def gfMulBits (n a b : Nat) : Nat :=
  match n with
  | 0 => 0
  | n + 1 => (if b % 2 = 1 then a else 0) ^^^ gfMulBits n (gfDouble a) (b / 2)

/-- The product of two field elements. -/
def gfMul (a b : Nat) : Nat := gfMulBits 8 a b

/-- alpha to a power. -/
def gfAlpha (n : Nat) : Nat :=
  match n with
  | 0 => 1
  | n + 1 => gfDouble (gfAlpha n)

/-- A field element to a power. -/
def gfPow (a n : Nat) : Nat :=
  match n with
  | 0 => 1
  | n + 1 => gfMul a (gfPow a n)

/-- The inverse of a non-zero element: its 254th power. -/
def gfInv (a : Nat) : Nat := gfPow a 254

/-- The sum of field elements. -/
def gfSum (l : List Nat) : Nat := l.foldl (· ^^^ ·) 0

/-- Syndrome j of symbols given with their degrees: the sum of symbol times alpha to the j times degree (R149, R158). -/
def syndrome (j : Nat) (l : List (Nat × Nat)) : Nat := gfSum (l.map (fun p => gfMul p.2 (gfAlpha (j * p.1 % 255))))

/-- Multiply a polynomial, constant term first, by (x + r). -/
def polyTimes (p : List Nat) (r : Nat) : List Nat :=
  (List.range (p.length + 1)).map (fun i => gfMul r (p.getD i 0) ^^^ (if i = 0 then 0 else p.getD (i - 1) 0))

/-- The coefficients, constant term first, of the polynomial that is 1 at alpha^d and 0 at alpha^d' for every other degree. -/
def lagrange (d : Nat) (others : List Nat) : List Nat :=
  let num := others.foldl (fun p e => polyTimes p (gfAlpha e)) [1]
  let den := others.foldl (fun x e => gfMul x (gfAlpha d ^^^ gfAlpha e)) 1
  num.map (fun c => gfMul c (gfInv den))

/-- The values at unknown degrees that the first syndromes determine. -/
def solveErased (degs : List Nat) (syn : List Nat) : List (Nat × Nat) :=
  degs.map (fun d => (d, gfSum ((lagrange d (degs.filter (· ≠ d))).zipWith gfMul syn)))

/-- Whether values at unknown degrees explain every syndrome. -/
def explains (vals : List (Nat × Nat)) (syn : List Nat) : Bool :=
  (List.range syn.length).all (fun j => syndrome j vals == syn.getD j 0)

/-- The sets of at most two known positions to try as errors, the smallest first. -/
def errorSets (e : Nat) (known : List Nat) : List (List Nat) :=
  let one := if 1 ≤ e then known.map (fun x => [x]) else []
  let two := if 2 ≤ e then known.flatMap (fun x => (known.filter (fun y => x < y)).map (fun y => [x, y])) else []
  [] :: (one ++ two)

/-- Decode one column from its known symbols, given with their degrees, and the degrees of its erasures: the values to
write at each erased or corrected degree, and how many errors were corrected.  `checks` is the number of syndromes
and `errs` the errors that may be corrected (R152). -/
def columnDecode (checks errs : Nat) (known : List (Nat × Nat)) (erased : List Nat) : Option (List (Nat × Nat) × Nat) :=
  let syn := (List.range checks).map (fun j => syndrome j known)
  (errorSets errs (known.map (·.1))).findSome? (fun x =>
    let vals := solveErased (erased ++ x) syn
    if explains vals syn then
      some (vals.map (fun p => (p.1, p.2 ^^^ ((known.find? (fun k => k.1 = p.1)).map (·.2)).getD 0)), x.length)
    else none)

end Machine
end Sys2Proof
end

