-- ==== Sys2Proof/Machine/TileCode.lean ====
section
/-! DEFINITION. The tile-code block: erasure sets (R150), what happens to a tile once its 36 results are in (R151), column
decoding (R152, R153), outcomes and margins (R154, R155), span parity (R157 to R160), completion records (R163, R164)
and the encoding of tile parity and span parity for a write program (R159, R330). -/

namespace Sys2Proof
namespace Machine

/-! ### Erasure sets -/

/-- The result of a tile sector; a missing one counts as NO_SIGNAL (R166). -/
def tileRes (t : Tile) (i : Nat) : SectorRes := (aget? t.results i).getD (bareRes 1 0)

/-- The OK sectors of a tile among some. -/
def okAmong (t : Tile) (l : List Nat) : List Nat := l.filter (fun i => (tileRes t i).code == 0)

/-- The value carried by the most sectors of a list; on a tie, the value of the lowest-numbered such sector (R150). -/
def majority (f : Nat → Nat) (l : List Nat) : Option Nat :=
  let cnt (v : Nat) : Nat := (l.filter (fun i => f i == v)).length
  let best := l.foldl (fun m i => Nat.max m (cnt (f i))) 0
  (l.find? (fun i => cnt (f i) == best)).map f

/-- Data sectors and parity sectors (R86). -/
def dataSectors : List Nat := List.range 32
def paritySectors : List Nat := [32, 33, 34, 35]

/-- Majority WSEQ and STYPE of a tile (R150). -/
def tileWseq (t : Tile) : Nat :=
  match majority (fun i => (tileRes t i).wseq) (okAmong t dataSectors) with
  | some v => v
  | none => (majority (fun i => (tileRes t i).wseq) (okAmong t paritySectors)).getD 0
def tileStype (t : Tile) : Nat := (majority (fun i => (tileRes t i).stype) (okAmong t dataSectors)).getD 0xFF

/-- The erasure set E that the results give (R150). -/
def tileErasures (t : Tile) : List Nat :=
  (List.range 36).filter (fun i =>
    let r := tileRes t i
    r.code != 0 || (decide (i < 32) && (r.stype != tileStype t || r.wseq != tileWseq t)))

/-- The suspect sectors: OK with SYNC_INF (R150). -/
def tileSuspects (t : Tile) : List Nat := (List.range 36).filter (fun i => (tileRes t i).code == 0 && (tileRes t i).inf)

/-- Whether all 36 results are in. -/
def tileFull (t : Tile) : Bool := (List.range 36).all (fun i => (aget? t.results i).isSome)

/-! ### Outcomes and records -/

/-- Outcome codes (R154). -/
def ocClean : Nat := 0
def ocCorrected : Nat := 1
def ocSpanRecovered : Nat := 2
def ocFailed : Nat := 3
def ocUnwritten : Nat := 4
def ocMisplaced : Nat := 5

/-- MARGIN (R155). -/
def tileMargin (t : Tile) : Nat :=
  if 2 ≤ t.outcome then 0 else if !t.checked then 4 else 4 - t.erased.length - 2 * t.eMax

/-- WEAK (R155). -/
def tileWeak (s : State) (t : Tile) : Bool :=
  if t.outcome = ocUnwritten ∨ t.outcome = ocMisplaced then false
  else if t.outcome = ocSpanRecovered then true
  else decide (tileMargin t ≤ fget s fldTC_CFG_WEAK_MARGIN)

/-- E as a bit map (R163). -/
def eraseMap (l : List Nat) : Nat := l.foldl (fun a i => a + 2 ^ i) 0

/-- The completion record (R163). -/
def completionRecord (s : State) (t : Tile) (spanUsed : Bool) : BitVec 256 :=
  let noDecode := t.outcome == ocUnwritten || t.outcome == ocMisplaced
  BitVec.ofNat 256 (t.pta.toNat * 2 ^ 224 + t.outcome * 2 ^ 220 + t.erased.length * 2 ^ 214 + tileMargin t * 2 ^ 211 +
    spanUsed.toNat * 2 ^ 210 + t.poison.toNat * 2 ^ 209 + (t.checked && !noDecode).toNat * 2 ^ 208 + t.colErr % 2 ^ 13 * 2 ^ 195 +
    ((List.range 36).foldl (fun m i => Nat.max m (tileRes t i).iter) 0) % 32 * 2 ^ 190 +
    (tileSuspects t).length * 2 ^ 184 + (tileWeak s t).toNat * 2 ^ 183 + eraseMap t.erased * 2 ^ 128 +
    s.chipTime.toNat * 2 ^ 64 + tileWseq t % 2 ^ 32 * 2 ^ 32 + tileStype t % 256 * 2 ^ 24)

/-- Show how many open-tile entries are in use (R169). -/
def showOpen (s : State) : State := fput s fldTC_STAT_OPEN s.tiles.length

/-- A tile is done: its record is written to the completion FIFO or the audit FIFO, its outcome counted and shown, a
weak-tile notice raised, and its entry freed (R163, R164, R167, R326). -/
def tileEmit (s : State) (t : Tile) (spanUsed : Bool) : State :=
  let weak := tileWeak s t
  let rec' := completionRecord s t spanUsed
  let s1 := fifoPush (count s (364 + t.outcome)) (if t.kind = .audit then 10 else 0) rec'
  let s2 := sif weak s1 (fun s => fset s fldTC_STAT_WEAK)
  let s3 := sif (t.outcome == ocFailed) s2 (fun s => fset s fldTC_STAT_FAILED)
  let s4 := sif (t.outcome == ocMisplaced) s3 (fun s => fset s fldTC_STAT_MISPLACED)
  let notice := archivePresent s.variant && (t.outcome == ocSpanRecovered || (t.outcome == ocCorrected && weak))
  let s5 := sif notice s4 (fun s => { s with weakTiles := s.weakTiles ++ [(t.pta, t.outcome)] })
  showOpen { s5 with tiles := s5.tiles.filter (fun u => u.id != t.id) }

/-! ### Spans -/

/-- The open tiles of a span, in member order (R163). -/
def spanTiles (s : State) (id : Nat) : List (Nat × Tile) :=
  (List.range 8).flatMap (fun m => (s.tiles.filter (fun t => t.span == some (id, m))).map (fun t => (m, t)))

/-- Whether every member read in the sweep has its outcome. -/
def spanComplete (s : State) (sp : Span) : Bool :=
  sp.awaits.isEmpty && (spanTiles s sp.id).all (fun p => p.2.phase == .waiting)

/-- Whether some member of a span is headed for FAILED. -/
def spanFailing (s : State) (id : Nat) : Bool := (spanTiles s id).any (fun p => p.2.outcome == ocFailed)

/-- The records of a span's members follow in member order (R163). -/
def spanEmit (s : State) (id : Nat) (used : Bool) : State :=
  let s1 := forEach (spanTiles s id) s (fun t p => tileEmit t p.2 used)
  { s1 with spans := s1.spans.filter (fun q => q.id != id) }

/-- Once every member has an outcome and none is headed for FAILED, the records of a span are written (R160, R163). -/
def spanSettle (s : State) (id : Nat) : State :=
  match s.spans.find? (fun q => q.id == id) with
  | none => s
  | some sp => if spanComplete s sp && !(spanFailing s id) then spanEmit s id false else s

/-- A tile has its outcome: its record is written, or it waits for its span (R151, R163). -/
def tileOutcome (s : State) (t : Tile) (oc : Nat) : State :=
  let t' := { t with outcome := oc, phase := .waiting }
  match t.span with
  | none => tileEmit (modTile s t.id (fun _ => t')) t' false
  | some (id, _) => spanSettle (modTile s t.id (fun _ => t')) id

/-! ### Tiles -/

/-- What a tile with an erasure set does next: CLEAN without a decode, a column decode, or FAILED, which a span may still
restore (R151). -/
def tileProceed (s : State) (t : Tile) : State :=
  let f := t.erased.length
  if 5 ≤ f then tileOutcome s t ocFailed
  else if f = 0 ∧ tileSuspects t = [] ∧ ¬ fbit s fldTC_CFG_CHECK_ALL ∧ ¬ t.checked then tileOutcome s t ocClean
  else modTile s t.id (fun _ => { t with phase := .decoding, checked := true })

/-- All 36 results of a tile are in (R151, R154). -/
def tileComplete (s : State) (t : Tile) : State :=
  let t1 := { t with erased := tileErasures t }
  let mis := ((List.range 36).filter (fun i => (tileRes t i).code == 5)).length
  if (List.range 36).all (fun i => (tileRes t i).code == 1 && (tileRes t i).blank) then tileOutcome s t1 ocUnwritten
  else if 4 < mis then tileOutcome s t1 ocMisplaced
  else tileProceed s t1

/-- TILE_RESULTS_COMPLETE: nothing happens while a result is missing. -/
def execTileResultsComplete (t : Nat) (s : State) : Host.Outcome State Fault Refusal :=
  .next (match s.tiles.find? (fun u => u.id == t && u.phase == .filling) with
    | some u => if tileFull u then tileComplete s u else s
    | none => s)

/-- A sector joins E because staging memory lost it, POISON sets, and the decode starts again (R153). -/
def poisonRestart (s : State) (t : Tile) (i : Nat) : State :=
  let s1 := fset s fldTC_STAT_POISON
  tileProceed s1 { t with erased := (List.range 36).filter (fun j => t.erased.contains j || j == i), poison := true, phase := .filling }

/-- TILE_POISON_RESTART: the read of a sector outside E. -/
def execTilePoisonRestart (t sector : Nat) (s : State) : Host.Outcome State Fault Refusal :=
  .next (match s.tiles.find? (fun u => u.id == t && u.phase == .decoding) with
    | some u => if sector < 36 ∧ ¬ u.erased.contains sector then poisonRestart s u sector else s
    | none => s)

/-- Read the payloads of some sectors: the state, the payloads, and the first sector that came back poisoned or with a bus
error. -/
def readSectors (s : State) (at_ : Nat → Nat) (l : List Nat) : State × List (Nat × List Byte) × Option Nat :=
  l.foldl (fun acc i =>
    match acc.2.2 with
    | some b => (acc.1, acc.2.1, some b)
    | none =>
      match memRead acc.1 4 (at_ i) 4096 with
      | (u, some (bs, false)) => (u, acc.2.1 ++ [(i, bs)], none)
      | (u, _) => (u, acc.2.1, some i)) (s, [], none)

/-- The columns of a tile: for each byte position, the values to write by sector and the errors corrected; none if a
column cannot be corrected (R149, R152). -/
def tileColumns (errEn : Bool) (erased : List Nat) (pay : List (Nat × List Byte)) : Option (List (List (Nat × Nat) × Nat)) :=
  let cols := pay.map (fun p => (35 - p.1, p.2.toArray))
  let errs := if errEn then (4 - erased.length) / 2 else 0
  (List.range 4096).mapM (fun b =>
    (columnDecode 4 errs (cols.map (fun c => (c.1, (c.2.getD b 0).toNat))) (erased.map (fun i => 35 - i))).map
      (fun r => (r.1.map (fun v => (35 - v.1, v.2)), r.2)))

/-- A sector's payload after a column decode: byte b is the value that column b writes, else the byte read. -/
def rebuilt (cols : List (List (Nat × Nat) × Nat)) (i : Nat) (old : List Byte) : List Byte :=
  (List.range 4096).zipWith (fun b (c : List (Nat × Nat) × Nat) =>
    match c.1.find? (fun v => v.1 = i) with
    | some v => BitVec.ofNat 8 v.2
    | none => old.getD b 0) cols

/-- Move suspects into E, lowest QUAL first, then lowest number, until f = 4 (R152). -/
def moveSuspects (t : Tile) (left : List Nat) (fuel : Nat) (e : List Nat) : List Nat :=
  match fuel with
  | 0 => e
  | fuel + 1 =>
    if 4 ≤ e.length then e
    else
      match left.foldl (fun best i => match best with
        | none => some i
        | some b => if (tileRes t i).qual < (tileRes t b).qual then some i else some b) (none : Option Nat) with
      | none => e
      | some i => moveSuspects t (left.filter (· ≠ i)) fuel ((List.range 36).filter (fun j => e.contains j || j == i))

/-- A column decode failed: one retry with suspect sectors moved into E, else the tile fails (R152). -/
def tileDecodeFailed (s : State) (t : Tile) : State :=
  let sus := (tileSuspects t).filter (fun i => !(t.erased.contains i))
  if !t.retried ∧ sus ≠ [] ∧ t.erased.length < 4 then
    modTile s t.id (fun u => { u with retried := true, erased := moveSuspects t sus 4 t.erased })
  else tileOutcome s t ocFailed

/-- A column decode ends (R152). -/
def tileDecodeDone (s : State) (t : Tile) : State :=
  let known := (List.range 36).filter (fun i => !(t.erased.contains i))
  match readSectors s (payloadAt t.base) known with
  | (s1, _, some bad) => poisonRestart s1 t bad
  | (s1, pay, none) =>
    match tileColumns (fbit s fldTC_CFG_ERR_EN) t.erased pay with
    | none => tileDecodeFailed s1 t
    | some cols =>
      let fixed := known.filter (fun i => cols.any (fun c => c.1.any (fun v => v.1 == i)))
      let payOf (i : Nat) : List Byte := rebuilt cols i (((pay.find? (fun p => p.1 == i)).map (·.2)).getD [])
      if fixed.any (fun i => crc32 (payOf i) != (tileRes t i).pcrc) then tileDecodeFailed s1 t
      else
        let nErr := (cols.filter (fun c => c.2 != 0)).length
        let eMax := cols.foldl (fun m c => Nat.max m c.2) 0
        let s2 := forEach (t.erased ++ fixed) s1 (fun u i => (memWrite u 4 (payloadAt t.base i) (payOf i)).getD u)
        let s3 := sif (nErr != 0) s2 (fun u => fset u fldTC_STAT_COL_ERR)
        tileOutcome s3 { t with colErr := nErr, eMax := eMax } (if t.erased = [] ∧ nErr = 0 then ocClean else ocCorrected)

/-- TILE_DECODE_DONE. -/
def execTileDecodeDone (t : Nat) (s : State) : Host.Outcome State Fault Refusal :=
  .next (match s.tiles.find? (fun u => u.id == t && u.phase == .decoding) with
    | some u => tileDecodeDone s u
    | none => s)

/-! ### Span decoding -/

/-- The degrees of the members of a span (R158). -/
def spanDegree (m : Nat) : Nat := [7, 6, 5, 1, 4, 3, 2, 0].getD m 0

/-- Whether a member has lost an index (R160, R329). -/
def spanLost (s : State) (sp : Span) (m i : Nat) : Bool :=
  sp.extra.contains (m, i) ||
  (match (spanTiles s sp.id).find? (fun p => p.1 == m) with
   | none => true
   | some (_, t) => t.outcome == ocMisplaced || t.outcome == ocUnwritten || (t.outcome == ocFailed && t.erased.contains i))

/-- SPAN_DECODE_START: every member has an outcome and some member is headed for FAILED (R160). -/
def execSpanDecodeStart (id : SpanId) (s : State) : Host.Outcome State Fault Refusal :=
  .next (match s.spans.find? (fun q => q.id == id.val) with
    | some sp =>
      if spanComplete s sp ∧ spanFailing s id.val then
        { s with spans := s.spans.map (fun q => if q.id = id.val then { q with running := true } else q) }
      else s
    | none => s)

/-- A staging read lost a sector of a member: the loss is added, POISON sets, the span is judged again (R160). -/
def spanAddLoss (s : State) (id m i : Nat) : State :=
  let s1 := fset s fldTC_STAT_POISON
  { s1 with
    spans := s1.spans.map (fun q => if q.id = id then { q with extra := (m, i) :: q.extra } else q)
    tiles := s1.tiles.map (fun t => if t.span = some (id, m) then { t with poison := true } else t) }

/-- SPAN_POISON. -/
def execSpanPoison (id : SpanId) (member : Head) (index : Fin 32) (s : State) : Host.Outcome State Fault Refusal :=
  .next (match s.spans.find? (fun q => q.id == id.val && q.running) with
    | some sp => if spanLost s sp member.val index.val then s else spanAddLoss s id.val member.val index.val
    | none => s)

/-- Restore one index of a span: the six lowest-numbered members that have it give the two that are unknown; every lost sector of
a member that was read is written.  Answers the state and the member whose read was lost, if one was (R158,
R160). -/
def spanRestore (s : State) (sp : Span) (i : Nat) : State × Option Nat :=
  let tiles := spanTiles s sp.id
  let lost := (List.range 8).filter (fun m => spanLost s sp m i)
  let targets := tiles.filter (fun p => lost.contains p.1)
  if targets.isEmpty then (s, none)
  else
    let six := ((List.range 8).filter (fun m => !(lost.contains m))).take 6
    let at_ (m : Nat) : Nat := payloadAt (((tiles.find? (fun p => p.1 == m)).map (·.2.base)).getD 0) i
    match readSectors s at_ six with
    | (s1, _, some bad) => (s1, some bad)
    | (s1, pay, none) =>
      let unknown := ((List.range 8).filter (fun m => !(six.contains m)))
      let cols := (List.range 4096).map (fun b =>
        let known := pay.map (fun p => (spanDegree p.1, (p.2.getD b 0).toNat))
        solveErased (unknown.map spanDegree) [syndrome 0 known, syndrome 1 known])
      let bytesOf (m : Nat) : List Byte := cols.map (fun c =>
        BitVec.ofNat 8 (((c.find? (fun v => v.1 == spanDegree m)).map (·.2)).getD 0))
      (forEach targets s1 (fun u p => (memWrite u 4 (payloadAt p.2.base i) (bytesOf p.1)).getD u), none)

/-- Restore every index, until a read is lost. -/
def spanRestoreAll (s : State) (sp : Span) (l : List Nat) : State × Option (Nat × Nat) :=
  l.foldl (fun acc i =>
    match acc.2 with
    | some b => (acc.1, some b)
    | none =>
      match spanRestore acc.1 sp i with
      | (u, some m) => (u, some (m, i))
      | (u, none) => (u, none)) (s, none)

/-- A span decode ends: every member that lost a sector or was headed for FAILED is SPAN_RECOVERED (DEDUCED, log 35); or it failed, when some index is lost by more than two members (R160). -/
def spanDecodeDone (s : State) (sp : Span) : State :=
  let tooMany := dataSectors.any (fun i => decide (2 < ((List.range 8).filter (fun m => spanLost s sp m i)).length))
  if tooMany then
    spanEmit (count (count (fset (fset s fldTC_STAT_SPAN_USED) fldTC_STAT_SPAN_FAIL) 370) 371) sp.id true
  else match spanRestoreAll s sp dataSectors with
  | (s1, some (m, i)) => spanAddLoss s1 sp.id m i
  | (s1, none) =>
    let mended (t : Tile) : Bool := match t.span with
      | some (id, m) => id == sp.id && (t.outcome == ocFailed || dataSectors.any (spanLost s sp m))
      | none => false
    let s2 := { s1 with tiles := s1.tiles.map (fun t => if mended t then { t with outcome := ocSpanRecovered } else t) }
    spanEmit (count (fset s2 fldTC_STAT_SPAN_USED) 370) sp.id true

/-- SPAN_DECODE_DONE. -/
def execSpanDecodeDone (id : SpanId) (s : State) : Host.Outcome State Fault Refusal :=
  .next (match s.spans.find? (fun q => q.id == id.val && q.running) with
    | some sp => spanDecodeDone s sp
    | none => s)

/-! ### Encoding for a write program -/

/-- Fill unknown degrees of every column from payloads given with their degrees. -/
def encodeColumns (checks : Nat) (pay : List (Nat × List Byte)) (unknown : List Nat) : List (Nat × List Byte) :=
  let cols := (List.range 4096).map (fun b =>
    let known := pay.map (fun p => (p.1, (p.2.getD b 0).toNat))
    solveErased unknown ((List.range checks).map (fun j => syndrome j known)))
  unknown.map (fun d => (d, cols.map (fun c => BitVec.ofNat 8 (((c.find? (fun v => v.1 == d)).map (·.2)).getD 0))))

/-- Compute tile-parity sectors 32-35 of a write buffer; none when a read is lost (R149, R330). -/
def encodeTile (s : State) (base : Nat) : State × Bool :=
  match readSectors s (payloadAt base) dataSectors with
  | (s1, _, some _) => (s1, false)
  | (s1, pay, none) =>
    let par := encodeColumns 4 (pay.map (fun p => (35 - p.1, p.2))) [3, 2, 1, 0]
    (forEach par s1 (fun u p => (memWrite u 4 (payloadAt base (35 - p.1)) p.2).getD u), true)

/-- Compute members 3 and 7 of a span from its six data members' buffers, by member (R158, R159, R330). -/
def encodeSpan (s : State) (base : Nat → Nat) : State × Bool :=
  dataSectors.foldl (fun acc i =>
    if !acc.2 then acc
    else match readSectors acc.1 (fun m => payloadAt (base m) i) [0, 1, 2, 4, 5, 6] with
    | (u, _, some _) => (u, false)
    | (u, pay, none) =>
      let par := encodeColumns 2 (pay.map (fun p => (spanDegree p.1, p.2))) [1, 0]
      let put (u : State) (m d : Nat) : State :=
        (memWrite u 4 (payloadAt (base m) i) (((par.find? (fun p => p.1 == d)).map (·.2)).getD [])).getD u
      (put (put u 3 1) 7 0, true)) (s, true)

/-! ### The boundary -/

/-- At the drain every tile that lacks results gets NO_SIGNAL for each (R166). -/
def closeTiles (s : State) : State :=
  forEach (s.tiles.filter (fun t => t.phase == .filling)) s (fun u t =>
    let missing := (List.range 36).filter (fun i => (aget? t.results i).isNone)
    let u1 := forEach missing u (fun v i =>
      let v1 := count v 357
      modTile v1 t.id (fun q => { q with
        results := aset q.results i (bareRes 1 0)
        failMap := if q.kind = .verify then q.failMap + 2 ^ i else q.failMap }))
    stepCheck u1 (Fin.ofNat 8 t.head))

end Machine
end Sys2Proof
end

