-- ==== Sys2Proof/Machine/WriteCell.lean ====
section
/-! DEFINITION. The write cells: the encoder's packets (R171), starting, stopping and ending a slot (R172, R173, R187,
R188), inhibit sources and guards (R189 to R192), table sets (R178 to R180), the power loops (R182 to R185), verify
(R193) and write records (R194). -/

namespace Sys2Proof
namespace Machine

/-! ### The stream -/

/-- A sector's header from the step's fields and the payload (R83, R139). -/
def sectorHeader (q : WSlot) (payload : List Byte) : BitVec 128 :=
  let top := 1 * 2 ^ 120 + ptaSide q.pta.toNat * 2 ^ 119 + ptaLayer q.pta.toNat * 2 ^ 115 + q.ptn % 2 ^ 18 * 2 ^ 97 +
    q.arc % 16 * 2 ^ 93 + q.slot % 32 * 2 ^ 88 + q.stype % 256 * 2 ^ 80 + q.wseq.toNat * 2 ^ 48 + crc32 payload * 2 ^ 16
  BitVec.ofNat 128 (top + headerCrc (BitVec.ofNat 128 top))

/-- The codeword of a sector, scrambled (R82, R84, R138). -/
def sectorCodeword (q : WSlot) (payload : List Byte) : List Bool :=
  let info := natBits 128 (sectorHeader q payload).toNat ++ bytesBits payload
  (ldpcEncode info).zipWith (fun a b => a != b) (scramble 33968 (scrSeed q.ptn q.arc q.slot))

/-- The 34,112 bits of a slot (R81). -/
def sectorBits (q : WSlot) (payload : List Byte) : List Bool :=
  let cw := sectorCodeword q payload
  let pre := [false, false, false, false, true, true, true, true]
  (List.replicate 8 pre).flatten ++ natBits 32 sync1.toNat ++ cw.take 16984 ++ natBits 32 sync2.toNat ++ cw.drop 16984 ++ pre ++ pre

/-- Cut bits into entries of 128, the last filled with zeros (R171). -/
def packEntries (n : Nat) (l : List Bool) : List (BitVec 128) :=
  match n with
  | 0 => []
  | n + 1 =>
    let b := l.take 128
    BitVec.ofNat 128 (bitsNat (b ++ List.replicate (128 - b.length) false)) :: packEntries n (l.drop 128)

/-- The write packet of 268 entries (R171). -/
def writePacket (q : WSlot) (payload : List Byte) : List (BitVec 128) :=
  BitVec.ofNat 128 (q.pta.toNat * 2 ^ 96 + q.sector % 64 * 2 ^ 90 + q.wseq.toNat * 2 ^ 58) :: packEntries 267 (sectorBits q payload)

/-- Change the first slot of a head that a test picks. -/
def modSlot (s : State) (n : Fin 8) (pick : WSlot → Bool) (f : WSlot → WSlot) : State :=
  modWc s n (fun w => { w with slots := (w.slots.foldl (fun (acc : List WSlot × Bool) q =>
    if !acc.2 && pick q then (acc.1 ++ [f q], true) else (acc.1 ++ [q], acc.2)) ([], false)).1 })

/-- The sector bit that passes the write spot now: F bits in a frame of the head's B0 channel, no stream bit over a wedge
and its splice (R76, R80, R172). -/
def slotPos (s : State) (n : Fin 8) (q : WSlot) : Nat :=
  let area := ptaArea q.pta.toNat
  let f := areaF area
  let u := f * 39 / 40 - 8
  let period := Nat.max s.ch[headChan n 0].framePeriod 1
  let start := 34112 * q.slot
  let elapsed := (s.chipTime - q.t0).toNat * f / period
  let at_ := f / 40 + 8 + start % u + elapsed
  let inFrame := at_ % f
  let used := if inFrame < f / 40 + 8 then 0 else inFrame - (f / 40 + 8)
  Nat.min 34112 ((start / u + at_ / f) * u + used - start)

/-- The buffer from the Data district to a write cell: 137.5 MB/s over 340 ns in entries of 16 bytes, 4 of them (R45, R46). -/
def cellDepth : Nat := (1375 * 340 + 160000 - 1) / 160000 + 1

/-- The entries that the buffer holds: those of the packet of the slot that runs which the cell has not taken, else those of the next
armed slot (R171, R173). -/
def cellEntries (s : State) (n : Fin 8) : Nat :=
  match s.wc[n].slots.find? (fun q => q.phase == .running) with
  | some q => Nat.min cellDepth (q.entries.length - (slotPos s n q / 128 + 2))
  | none =>
    match s.wc[n].slots.find? (fun q => q.phase == .armed) with
    | some q => Nat.min cellDepth q.entries.length
    | none => 0

/-- The buffer fills as far as it goes. -/
def cellFill (s : State) (n : Fin 8) : State := modHb s n (fun h => { h with fromData := cellEntries s n })

/-- An armed slot whose packet the encoder has still to build; OBLITERATE has none (R171, R326). -/
def slotUnbuilt (q : WSlot) : Bool := q.phase == .armed && q.entries.isEmpty && !q.withheld && !q.oblit

/-- The encoder builds and sends the packet of the next armed slot; on a poisoned or failed read it withholds it (R171,
R409). -/
def encoderPacket (s : State) (n : Fin 8) : State :=
  match s.wc[n].slots.find? slotUnbuilt with
  | none => s
  | some q =>
    match memRead s 4 (payloadAt q.base q.sector) 4096 with
    | (s1, some (bs, false)) => cellFill (modSlot s1 n slotUnbuilt (fun q => { q with entries := writePacket q bs })) n
    | (s1, _) => modSlot s1 n slotUnbuilt (fun q => { q with withheld := true })

/-- ENCODER_PACKET. -/
def execEncoderPacket (n : Head) (s : State) : Host.Outcome State Fault Refusal := .next (encoderPacket s n)

/-! ### Pulses (R176, R177) -/

/-- The class of a mark, 1 to 5, and of a space, 1 to 4, by its length (R176). -/
def markClass (len : Nat) : Nat := clampNat len 1 5
def spaceClass (len : Nat) : Nat := clampNat len 1 4

/-- A table time: a signed or an unsigned byte of a word, in 20 ps (R178). -/
def tableSigned (w : Word) : Int := (BitVec.ofNat 8 (w.toNat / 2 ^ 24)).toInt
def tableByte (w : Word) (lo : Nat) : Nat := w.toNat / 2 ^ lo % 256

/-- The segments of one mark: level and start, in 20 ps from the slot's first edge, for edges given in the same unit; the
last entry is the end of the cooling segment, where I_B follows (R176).  A first pulse that reaches the last pulse joins
it (R177). -/
def markSegments (table : List Word) (startEdge endEdge : Int) (len before after : Nat) : List (Level × Int) :=
  let m := markClass len
  let lead := table.getD (4 * (m - 1) + (spaceClass before - 1)) 0
  let trail := table.getD (20 + 4 * (m - 1) + (spaceClass after - 1)) 0
  let a := startEdge + tableSigned lead
  let aEnd := a + tableByte lead 16
  if m ≤ 2 then [(.peak, a), (.cooling, aEnd), (.bias, aEnd + tableByte trail 8)]
  else
    let z := endEdge + tableSigned trail
    let zStart := z - tableByte trail 16
    let body := if aEnd < zStart then [(Level.middle, aEnd), (.peak, zStart)] else []
    [(.peak, a)] ++ body ++ [(.cooling, z), (.bias, z + tableByte trail 8)]

/-- The runs of equal bits of a list: the bit and the length. -/
def bitRuns (l : List Bool) : List (Bool × Nat) :=
  (l.foldl (fun (acc : List (Bool × Nat)) b =>
    match acc with
    | (c, k) :: t => if b = c then (c, k + 1) :: t else (b, 1) :: acc
    | [] => [(b, 1)]) []).reverse

/-- The usable bits of a frame of F bits (R76). -/
def frameUsable (f : Nat) : Nat := f * 39 / 40 - 8

/-- The channel bits from the start of an arc to a bit of its stream: each frame begins with the wedge and the splice (R76, R80). -/
def streamPlace (f p : Nat) : Nat :=
  let u := Nat.max (frameUsable f) 1
  p / u * f + f / 40 + 8 + p % u

/-- A time in 20 ps after a slot's first edge: the start of its bit k and some whole bits more; F bits last one frame period of ns
(R80, R172). -/
def bitEdge (period f slot k more : Nat) : Int :=
  roundDiv (((streamPlace f (34112 * slot + k) + more : Int) - streamPlace f (34112 * slot)) * period * 50) (Nat.max f 1)

/-- The bits of a slot frame by frame: the first bit and the number of each run that no wedge interrupts (R80). -/
def slotChunks (f slot : Nat) : List (Nat × Nat) :=
  let u := Nat.max (frameUsable f) 1
  let at0 := 34112 * slot
  (List.range (34112 / u + 2)).filterMap (fun i =>
    let lo := Nat.max at0 ((at0 / u + i) * u)
    let hi := Nat.min (at0 + 34112) ((at0 / u + i + 1) * u)
    if lo < hi then some (lo - at0, hi - lo) else none)

/-- Add one mark's segments: its first pulse wins over what the marks before it still had to put out, and a segment shorter
than 60 ps gives its start to the level that follows (R177). -/
def joinSegments (acc new : List (Level × Int)) : List (Level × Int) :=
  let a := ((new.head?).map (·.2)).getD 0
  new.foldl (fun out p =>
    match out.getLast? with
    | some (_, b) => if p.2 - b < 3 then out.dropLast ++ [(p.1, b)] else out ++ [p]
    | none => [p]) (acc.filter (fun p => p.2 < a))

/-- The marks of a run of bits, the first of which is bit k: for each its first bit and length and the spaces beside it, 4 bits or more
where the run begins or ends with it (R176). -/
def marksOf (k : Nat) (bits : List Bool) : List (Nat × Nat × Nat × Nat) :=
  let runs := bitRuns bits
  ((List.range runs.length).foldl (fun (acc : List (Nat × Nat × Nat × Nat) × Nat) i =>
    let r := runs.getD i (false, 0)
    let before := if i = 0 then 4 else (runs.getD (i - 1) (false, 4)).2
    let mark := (acc.2, r.2, before, (runs.getD (i + 1) (false, 4)).2)
    (if r.1 then acc.1 ++ [mark] else acc.1, acc.2 + r.2)) ([], k)).1

/-- The levels over one run of bits that no wedge interrupts: I_B from its first edge, each mark, and read level from its end on; what
lies outside is held off (R85, R172, R175 to R177). -/
def chunkPulses (table : List Word) (period f slot k : Nat) (bits : List Bool) : List (Level × Int) :=
  let t0 := bitEdge period f slot k 0
  let t1 := bitEdge period f slot (k + bits.length - 1) 1
  let body := (marksOf k bits).foldl (fun out m =>
    joinSegments out (markSegments table (bitEdge period f slot m.1 0) (bitEdge period f slot (m.1 + m.2.1 - 1) 1) m.2.1 m.2.2.1 m.2.2.2))
    [(.bias, t0)]
  (body.map (fun p => (p.1, max t0 p.2))).filter (fun p => decide (p.2 < t1)) ++ [(.read, t1)]

/-- The levels that a slot's bits put out, interrupted over each wedge and splice that it meets (R80, R85, R172, R175 to R177).  A mark
that a wedge cuts is two marks, each with a space of 4 bits or more at the cut (DESIGN CHOICE, log 32). -/
def slotPulses (table : List Word) (period f slot : Nat) (bits : List Bool) : List (Level × Int) :=
  (slotChunks f slot).flatMap (fun c => chunkPulses table period f slot c.1 ((bits.drop c.1).take c.2))

/-- OBLITERATE: I_W over every usable bit of a slot, and read level over wedges and splices (R85, R326). -/
def oblitPulses (period f slot : Nat) : List (Level × Int) :=
  (slotChunks f slot).flatMap (fun c => [(.peak, bitEdge period f slot c.1 0), (.read, bitEdge period f slot (c.1 + c.2 - 1) 1)])

/-- The bits of a slot as its packet carries them (R171). -/
def packetBits (entries : List (BitVec 128)) : List Bool :=
  ((entries.drop 1).flatMap (fun e => natBits 128 e.toNat)).take 34112

/-- The levels a slot puts out. -/
def pulsesOf (s : State) (n : Fin 8) (q : WSlot) : List (Level × Int) :=
  let period := Nat.max s.ch[headChan n 0].framePeriod 1
  let f := areaF (ptaArea q.pta.toNat)
  if q.oblit then oblitPulses period f q.slot else slotPulses s.wc[n].table period f q.slot (packetBits q.entries)

/-- The output falls to read level at a bit (R173, R189). -/
def pulsesCut (s : State) (n : Fin 8) (q : WSlot) (bit : Nat) : List (Level × Int) :=
  let t := bitEdge (Nat.max s.ch[headChan n 0].framePeriod 1) (areaF (ptaArea q.pta.toNat)) q.slot (bit - 1) 1
  s.wc[n].pulses.filter (fun p => p.2 < t) ++ [(.read, t)]

/-- Whether levels hold a pulse (R188). -/
def anyPulse (l : List (Level × Int)) : Bool := l.any (fun p => p.1 == .peak)

/-! ### Inhibits and guards -/

/-- Sources that hold the inhibit latch: the guards until the release time, SUPPLY, SOFT and CROSSING while asserted
(R189). -/
def latchSources : List Nat := [0, 1, 2, 4, 5, 7]

/-- Show the latch: set while some source holds it. -/
def showLatch (s : State) (n : Nat) (held : List Nat) : State := fputB s (fldWC_STAT_LATCH n) (!held.isEmpty)

/-- The present slot is forced to read level by a source: it ends INTERRUPTED at the next bit, or NOT_STARTED when none of its pulses
begins before that (R188, R189). -/
def slotStop (s : State) (n : Fin 8) (src : Nat) (wstat : Nat) : State :=
  let cut := match s.wc[n].slots.find? (fun q => q.phase == .running) with
    | some q => pulsesCut s n q (slotPos s n q + 1)
    | none => s.wc[n].pulses
  let t := modWc s n (fun w => { w with pulses := cut, slots := w.slots.map (fun q =>
    if q.phase = .running then
      if anyPulse cut then { q with phase := .stopped, wstat := wstat, stopBit := Nat.min 34112 (slotPos s n q + 1), inh := q.inh ||| src }
      else { q with phase := .stopped, wstat := 1, stopBit := 0, inh := q.inh ||| src }
    else if q.phase = .stopped then { q with inh := q.inh ||| src }
    else q) })
  cellFill t n

/-- Samples of a slot that ends INTERRUPTED or UNDERRUN are discarded, with the groups that they completed (R184). -/
def slotDropSamples (s : State) (n : Fin 8) : State :=
  modWc s n (fun w => { w with biasS := w.biasKeep, midS := w.midKeep, bias := w.biasWas, mid := w.midWas })

/-- An inhibit source acts: the output goes to read level, TRIP_SRC records it, and a latching source sets the latch with
its time (R189, R192). -/
def wcInhibit (s : State) (n : Fin 8) (bit : Nat) : State :=
  let s1 := fputAt (slotStop s n (2 ^ bit) 2) (fldWC_STAT_TRIP_SRC n) bit true
  if latchSources.contains bit then
    let was := fbit s1 (fldWC_STAT_LATCH n)
    let s2 := modWc s1 n (fun w => { w with latch := addOnce w.latch bit })
    let s3 := fset s2 (fldWC_STAT_LATCH n)
    if was then s3 else putTime s3 (regWC_TRIP_TIME_LO n) (regWC_TRIP_TIME_HI n) s.chipTime
  else s1

/-- A latching source lets go of the latch (R189, R191). -/
def wcRelease (s : State) (n : Fin 8) (bits : List Nat) : State :=
  let s1 := modWc s n (fun w => { w with latch := w.latch.filter (fun b => !(bits.contains b)) })
  showLatch s1 n s1.wc[n].latch

/-- Show a source as asserted or not (R201 LIVE). -/
def wcLive (s : State) (n : Fin 8) (bit : Nat) (on : Bool) : State := fputAt s (fldWC_STAT_LIVE n) bit on

/-- STREAM is asserted while the table set is being fetched and while a slot that ran dry is still to end (R180, R189, R201; log 33). -/
def streamLive (s : State) (n : Fin 8) : State :=
  wcLive s n 6 (s.wc[n].fetch.isSome || s.wc[n].slots.any (fun q => q.phase == .stopped && q.wstat == 3))

/-- A level source (SUPPLY, SOFT, CROSSING) asserts or ends (R189). -/
def wcLevel (s : State) (n : Fin 8) (bit : Nat) (on : Bool) : State :=
  if !(headPresent s.variant n.val && writePresent s.variant) then s
  else if on then wcLive (wcInhibit s n bit) n bit true
  else wcLive (wcRelease s n [bit]) n bit false

/-- Whether FE, TE and the detector conversions are blanked at a time: from 2 wu before each WPRE that the head's B0 channel predicts, 8
wu before its SAM, to the end of the 8-bit splice (R71, R76, R190, R239).  Before a first frame period there is no prediction. -/
def guardBlanked (s : State) (n : Fin 8) (t : DWord) : Bool :=
  let q := s.ch[headChan n 0]
  let x := (t - q.lastSam).toNat % Nat.max q.framePeriod 1
  decide (0 < q.framePeriod) &&
    (decide (x * 2560 * headF s n < q.framePeriod * (56 * headF s n + 8 * 2560)) || decide (2550 * q.framePeriod ≤ x * 2560))

/-- The number that stands for a comparator: 0 FE, 1 TE, 2 + k SHKk; and its source bit. -/
def guardNo : GuardSrc → Nat
  | .fe => 0
  | .te => 1
  | .shk k => 2 + k.val
def guardBit : GuardSrc → Nat
  | .fe => 0
  | .te => 1
  | .shk _ => 2

/-- Whether a comparator is enabled (R190, R201). -/
def guardOn (s : State) (n : Nat) : GuardSrc → Bool
  | .fe => fbit s (fldWG_FE_EN n)
  | .te => fbit s (fldWG_TE_EN n)
  | .shk k => fbitAt s (fldWG_SHK_CTL_MASK n) k.val

/-- Whether a guard's input lies within a window of some half-width: FE and TE in 1/256 of the sum A + B + C + D, SHK in 4 mV about
0.900 V (R190). -/
def guardInside (g : GuardSrc) (level : List Int) (half : Int) : Bool :=
  let x (i : Nat) : Int := level.getD i 0
  let sum := x 0 + x 1 + x 2 + x 3
  match g with
  | .fe => decide ((((x 0 + x 2) - (x 1 + x 3)).natAbs : Int) * 256 ≤ half * sum)
  | .te => decide ((((x 0 + x 3) - (x 1 + x 2)).natAbs : Int) * 256 ≤ half * sum)
  | .shk _ => decide (((x 0 - 900000).natAbs : Int) ≤ half * 4000)

/-- THR and HYST of a comparator (R190, R191, R201). -/
def guardThr (s : State) (n : Nat) : GuardSrc → Nat
  | .fe => fget s (fldWG_FE_THR n)
  | .te => fget s (fldWG_TE_THR n)
  | .shk k => bitsOf (rd s (regWG_SHK n)).toNat (8 * k.val + 7) (8 * k.val)
def guardHyst (s : State) (n : Nat) : GuardSrc → Nat
  | .fe => fget s (fldWG_FE_HYST n)
  | .te => fget s (fldWG_TE_HYST n)
  | .shk _ => fget s (fldWG_SHK_CTL_HYST n)

/-- Whether FE and TE are blanked now; SHK never is (R190). -/
def guardIgnored (s : State) (n : Fin 8) : GuardSrc → Bool
  | .shk _ => false
  | _ => guardBlanked s n s.chipTime

/-- The enabled comparators that are outside their windows. -/
def guardOut (s : State) (n : Fin 8) : List Nat :=
  s.wc[n].tripped.filter (fun k =>
    if k = 0 then guardOn s n.val .fe else if k = 1 then guardOn s n.val .te else guardOn s n.val (.shk (Fin.ofNat 4 (k - 2))))

/-- Show which guard sources are outside their windows. -/
def guardLive (s : State) (n : Fin 8) : State :=
  let t := guardOut s n
  wcLive (wcLive (wcLive s n 0 (t.contains 0)) n 1 (t.contains 1)) n 2 (t.any (fun k => decide (2 ≤ k)))

/-- A comparator's input leaves its window: where the comparator is enabled the latch sets and the release time starts again (R189 to
R192).  Nothing happens while the input is inside, or FE and TE are blanked. -/
def guardTrip (s : State) (n : Fin 8) (g : GuardSrc) (level : List Int) : State :=
  if !(headPresent s.variant n.val && writePresent s.variant) || guardInside g level (guardThr s n.val g) || guardIgnored s n g then s
  else
    let s1 := modWc s n (fun w => { w with tripped := addOnce w.tripped (guardNo g) })
    if !(guardOn s n.val g) then s1
    else guardLive (count (wcInhibit s1 n (guardBit g)) (192 + 18 * n.val + 3 + guardBit g)) n

/-- GUARD_TRIP. -/
def execGuardTrip (n : Head) (x : GuardInput) (s : State) : Host.Outcome State Fault Refusal :=
  .next (guardTrip s n x.src x.level)

/-- GUARD_RETURN: a comparator is back inside its narrowed window (R191). -/
def execGuardReturn (n : Head) (x : GuardInput) (s : State) : Host.Outcome State Fault Refusal :=
  .next (if guardInside x.src x.level ((guardThr s n.val x.src : Int) - guardHyst s n.val x.src) then
      guardLive (modWc s n (fun w => { w with tripped := w.tripped.filter (fun k => k != guardNo x.src) })) n
    else s)

/-- GUARD_LATCH_RELEASE: every enabled comparator has been inside for REL_TIME (R191).  Nothing happens while an enabled one is
outside. -/
def execGuardLatchRelease (n : Head) (s : State) : Host.Outcome State Fault Refusal :=
  .next (if (guardOut s n).isEmpty then wcRelease s n [0, 1, 2] else s)

/-- INHIBIT is written: the SOFT source asserts or ends at once (R189, R191, R201). -/
def wcSoft (s : State) (n : Fin 8) (on : Bool) : State :=
  if absentAt s.variant (wcBase n.val) then s else wcLevel (fputB s (fldWC_CTL_INHIBIT n) on) n 5 on

/-- WC_INHIBIT_WRITE. -/
def execWcInhibitWrite (_agent : Agent) (n : Head) (on : Bool) (s : State) : Host.Outcome State Fault Refusal :=
  .next (reply (wcSoft s n on) .ok 0 [])

/-- A current limited to I_MAX, with PWR_LIMIT (R185). -/
def limitCurrent (s : State) (n : Nat) (i : Int) : Nat × Bool :=
  let m := fget s (fldWC_MPD_I_MAX n)
  ((clampInt i 0 m).toNat, decide ((m : Int) < i))

/-- Put a current in force. -/
def putCurrent (s : State) (n : Nat) (f : Fld) (i : Int) : State :=
  let (v, lim) := limitCurrent s n i
  sif lim (fput s f v) (fun t => fset t (fldWC_STAT_PWR_LIMIT n))

/-- No current in force exceeds I_MAX (R185). -/
def currentsLimit (s : State) (n : Nat) : State :=
  forEach [fldWC_LD_CUR0_I_W n, fldWC_LD_CUR0_I_M n, fldWC_LD_CUR1_I_B n, fldWC_LD_CUR1_I_C n, fldWC_LD_CUR2_I_R n] s
    (fun t f => putCurrent t n f (fget t f))

/-- The write laser turns on at I_R_INIT, or off (R183, R201).  Turning it off stops a slot that runs. -/
def wcEnable (s : State) (n : Fin 8) (on : Bool) : State :=
  if absentAt s.variant (wcBase n.val) then s
  else
    let was := fbit s (fldWC_CTL_ENABLE n)
    let s1 := fputB s (fldWC_CTL_ENABLE n) on
    if on && !was then
      putCurrent (modWc s1 n (fun w => { w with rdS := ⟨0, 0⟩ })) n (fldWC_LD_CUR2_I_R n) (fget s1 (fldWC_PWR_CFG_I_R_INIT n))
    else if !on && was then fput (slotStop s1 n 0 2) (fldWC_LD_CUR2_I_R n) 0
    else s1

/-- WC_ENABLE_WRITE. -/
def execWcEnableWrite (_agent : Agent) (n : Head) (on : Bool) (s : State) : Host.Outcome State Fault Refusal :=
  .next (reply (wcEnable s n on) .ok 0 [])

/-- Whether an engine asserts the inhibit of R234: for a miss that has not been made good, or while FAULTED (R233, R236). -/
def seInhibits (s : State) (k : Fin 10) : Bool := !(s.se[k].missed.isEmpty) || fget s (fldSE_STAT_STATE k) == 2

/-- The heads that an engine's inhibit acts on: its own, or all for SE8 and SE9 (R234). -/
def seHeads (k : Fin 10) : List (Fin 8) := if k.val < 8 then [Fin.ofNat 8 k.val] else List.finRange 8

/-- Whether some engine inhibits a head's writes. -/
def servoInhibit (s : State) (n : Fin 8) : Bool := (List.finRange 10).any (fun k => (seHeads k).contains n && seInhibits s k)

/-- Show the SERVO source: the last status was not good, or an engine inhibits (R189, R201). -/
def servoLive (s : State) (n : Fin 8) : State := wcLive s n 3 (s.hb[n].badStatus || servoInhibit s n)

/-- An engine asserts its inhibit (R189, R233, R236). -/
def servoAssert (s : State) (k : Fin 10) : State :=
  forEach (seHeads k) s (fun t n => if headPresent t.variant n.val && writePresent t.variant then servoLive (wcInhibit t n 3) n else t)

/-- An engine's inhibit may have ended: show it. -/
def servoRelease (s : State) (k : Fin 10) : State :=
  forEach (seHeads k) s (fun t n => if headPresent t.variant n.val && writePresent t.variant then servoLive t n else t)

/-- The engine's wedge status reaches the write cell: an off-track or out-of-focus report during a slot inhibits (R187,
R189). -/
def wcWedgeStatus (s : State) (n : Fin 8) (onTrack inFocus : Bool) : State :=
  let s1 := wcLive (modWc s n (fun w => { w with onTrack := onTrack, inFocus := inFocus })) n 3
    (!(onTrack && inFocus) || servoInhibit s n)
  if !(onTrack && inFocus) && s.wc[n].slots.any (fun q => q.phase == .running) then wcInhibit s1 n 3 else s1

/-! ### Slots -/

/-- Whether the SUPPLY inhibit acts: a supply fault is live, SAFE holds, the boost is off or starting, or a JTAG instruction
holds the drivers off (R480, R489, R546, R586). -/
def supplyInhibits (s : State) : Bool :=
  fbit s fldSUP_STAT_SUPPLY_FAULT || fbit s fldSQ_STAT_SAFE || !(fbit s fldSUP_CTL_BOOST_EN) || s.sup.soft ||
    ([3, 4, 5] : List Nat).contains s.pins.jtagIr

/-- The sources that keep a slot from starting (R187, R189, R409). -/
def startBlocks (s : State) (n : Fin 8) (q : WSlot) : Nat :=
  let w := s.wc[n]
  (w.latch.foldl (fun a b => a ||| 2 ^ b) 0) ||| (if supplyInhibits s then 16 else 0) |||
  (if w.onTrack && w.inFocus && !(servoInhibit s n) then 0 else 8) |||
  (if w.fetch.isSome || !(fbit s (fldWC_STAT_TABLE_OK n)) || (!q.oblit && decide (s.hb[n].fromData < 2)) then 64 else 0) |||
  (if s.xing[(⟨16 + n.val, by omega⟩ : Fin 52)].st = .armed then 0 else 128)

/-- An armed slot that has not begun. -/
def slotArmed (q : WSlot) : Bool := q.phase == .armed

/-- A write slot's first edge: the slot starts, with B0 armed to read it back, or ends NOT_STARTED (R187, R193); so it does on an
isolated head, whose laser outputs are off (R542). -/
def writeSlotStart (s : State) (n : Fin 8) : State :=
  match s.wc[n].slots.find? slotArmed with
  | none => s
  | some q =>
    let blocks := startBlocks s n q
    if blocks ≠ 0 ∨ ¬ fbit s (fldWC_CTL_ENABLE n) ∨ fbit s (fldWC_CTL_INHIBIT n) ∨ fbitAt s fldFM_ISOLATE_ISOLATED n.val then
      let s1 := cellFill (modSlot s n slotArmed (fun q => { q with phase := .stopped, wstat := 1, stopBit := 0, inh := blocks })) n
      fput s1 (fldWC_STAT_TRIP_SRC n) (fget s1 (fldWC_STAT_TRIP_SRC n) ||| blocks)
    else
      let s1 := modSlot s n slotArmed (fun q => { q with phase := .running, t0 := s.chipTime, wstat := 0 })
      let s2 := cellFill (modWc s1 n (fun w =>
        { w with
          biasKeep := w.biasS, midKeep := w.midS, biasWas := w.bias, midWas := w.mid, biasNew := false, midNew := false
          pulses := pulsesOf s n q })) n
      if fbit s (fldWC_CTL_VFY_EN n) ∧ ¬ q.oblit then
        slotQueue s2 (headChan n 0) ⟨q.pta, q.sector, q.ptn, q.arc, q.slot⟩ true
      else s2

/-- WRITE_SLOT_START. -/
def execWriteSlotStart (n : Head) (s : State) : Host.Outcome State Fault Refusal := .next (writeSlotStart s n)

/-- The buffer is empty where an entry is needed: the slot ends UNDERRUN, and the rest of its packet is discarded (R173). -/
def writeUnderrun (s : State) (n : Fin 8) : State :=
  let s1 := fputAt (slotStop s n 64 3) (fldWC_STAT_TRIP_SRC n) 6 true
  streamLive (slotDropSamples s1 n) n

/-- WRITE_UNDERRUN: only while a slot runs. -/
def execWriteUnderrun (n : Head) (s : State) : Host.Outcome State Fault Refusal :=
  .next (if s.wc[n].slots.any (fun q => q.phase == .running) then writeUnderrun s n else s)

/-- The write record (R194). -/
def writeRecord (n : Nat) (q : WSlot) (vstat : Nat) (r : SectorRes) (time : DWord) : BitVec 256 :=
  BitVec.ofNat 256 (q.pta.toNat * 2 ^ 224 + q.sector % 64 * 2 ^ 218 + n % 8 * 2 ^ 215 + q.wstat % 8 * 2 ^ 212 + vstat % 16 * 2 ^ 208 +
    r.code % 16 * 2 ^ 204 + r.iter % 32 * 2 ^ 199 + r.qual % 256 * 2 ^ 191 + r.erased % 2 ^ 16 * 2 ^ 175 + r.sync % 16 * 2 ^ 171 +
    q.inh % 256 * 2 ^ 163 + time.toNat * 2 ^ 64 + q.wseq.toNat * 2 ^ 32 + q.stopBit % 2 ^ 16 * 2 ^ 16)

/-- The write completion FIFO of a head. -/
def writeFifo (n : Fin 8) : Fin 14 := ⟨1 + n.val, by omega⟩

/-- A slot is done: its record is written and it leaves (R194). -/
def slotRecord (s : State) (n : Fin 8) (q : WSlot) (vstat : Nat) (r : SectorRes) : State :=
  let s1 := fifoPush s (writeFifo n) (writeRecord n.val q vstat r q.t1)
  let s2 := if vstat = 4 then s1 else count s1 (192 + 18 * n.val + (if vstat = 0 then 10 else 11))
  slotEnded (modWc s2 n (fun w => { w with slots := w.slots.filter (fun x => !(x.pta == q.pta && x.sector == q.sector)) })) n q.pta q.sector

/-- A result for a slot that is not decoded: RESULT 0x1, the other fields 0 (R194). -/
def noResult : SectorRes := ⟨1, 0, false, 0, 0, 0, 0, false, 0, 0, false⟩

/-- A slot that has begun or been stopped. -/
def slotBegun (q : WSlot) : Bool := q.phase == .running || q.phase == .stopped

/-- A slot's last bit passes or would have passed: WSTAT and STOP_BIT are fixed; a written slot waits for its read-back
(R188, R194). -/
def writeSlotEnd (s : State) (n : Fin 8) : State :=
  match s.wc[n].slots.find? slotBegun with
  | none => s
  | some q =>
    let q' := if q.phase = .running then { q with wstat := 0, stopBit := 34112, t1 := s.chipTime } else { q with t1 := s.chipTime }
    let s0 := sif (q.phase == .running) s (fun t => modWc t n (fun w => { w with pulses := pulsesCut s n q 34112 }))
    let s1 := count s0 (192 + 18 * n.val + 6 + q'.wstat)
    let s2 := cellFill (if q'.wstat = 2 ∨ q'.wstat = 3 then slotDropSamples s1 n else s1) n
    if q'.wstat = 0 ∧ ¬ q.oblit ∧ fbit s (fldWC_CTL_VFY_EN n) then
      cellFill (modSlot s2 n slotBegun (fun _ => { q' with phase := .verifying })) n
    else streamLive (cellFill (slotRecord s2 n q' 4 noResult) n) n

/-- WRITE_SLOT_END. -/
def execWriteSlotEnd (n : Head) (s : State) : Host.Outcome State Fault Refusal := .next (writeSlotEnd s n)

/-- The read-back's result reaches the write cell and is judged (R193, R194). -/
def verifyResult (s : State) (n : Fin 8) : State :=
  match s.wc[n].slots.find? (fun q => q.phase == .verifying && q.vres.isSome) with
  | none => s
  | some q =>
    match q.vres with
    | none => s
    | some r => slotRecord s n q (verifyJudge s n.val r) (if r.data then r else { r with code := 1 })

/-- VERIFY_RESULT. -/
def execVerifyResult (n : Head) (s : State) : Host.Outcome State Fault Refusal := .next (verifyResult s n)

/-- At the boundary a slot without a read-back result ends VERIFY_LOST (R194, R195). -/
def verifyLost (s : State) (n : Fin 8) : State :=
  forEach (s.wc[n].slots.filter (fun q => q.phase == .verifying)) s (fun t q => slotRecord t n q 5 noResult)

/-! ### Table sets -/

/-- The address of a head's table set for a tile (R179). -/
def tableAddr (s : State) (n : Nat) (pta : Nat) : Nat :=
  fget s (fldWC_WS_BASE_HI_BASE n) * 2 ^ 32 + fget s (fldWC_WS_BASE_LO_BASE n) * 256 + 256 * (ptaLayer pta * 26 + ptaArea pta)

/-- The fetched table set lands: it is in force when its CRC holds; otherwise TABLE_BAD sets and TABLE_OK clears.  A
poisoned word or a bus error counts as a CRC failure (R178, R180, R409). -/
def tableLanded (s : State) (n : Fin 8) : State :=
  match s.wc[n].fetch with
  | none => s
  | some a =>
    let s0 := streamLive (modWc s n (fun w => { w with fetch := none })) n
    match memRead s0 4 a 256 with
    | (s1, some (bs, false)) =>
      if crc32 (bs.take 252) = leNat (bs.drop 252) then
        fset (modWc s1 n (fun w => { w with
          table := (List.range 64).map (fun i => BitVec.ofNat 32 (leNat ((bs.drop (4 * i)).take 4))) })) (fldWC_STAT_TABLE_OK n)
      else fclr (fset s1 (fldWC_STAT_TABLE_BAD n)) (fldWC_STAT_TABLE_OK n)
    | (s1, _) => fclr (fset s1 (fldWC_STAT_TABLE_BAD n)) (fldWC_STAT_TABLE_OK n)

/-- TABLE_FETCH_DONE. -/
def execTableFetchDone (n : Head) (s : State) : Host.Outcome State Fault Refusal := .next (tableLanded s n)

/-! ### Power control -/

/-- A target power of the table set in 0.01 mW: word i, the upper or the lower half (R178). -/
def tablePower (w : WriteCell) (i : Nat) (upper : Bool) : Nat :=
  let x := (w.table.getD i 0).toNat
  if upper then x / 2 ^ 16 else x % 2 ^ 16

/-- Take a monitor sample. -/
def addSample (x : Samples) (code : Nat) : Samples := ⟨x.n + 1, x.sum + code % 4096⟩

/-- Samples for an update (R201). -/
def nSamp (s : State) (n : Nat) : Nat := clampNat (fget s (fldWC_PWR_CFG_NSAMP n)) 8 255

/-- A current that the spec's formula does not determine: a free value from 0 to I_MAX. -/
def freeCurrent (s : State) (n : Nat) (k : Nat) : Int :=
  ((Config.freeWord (s.freeCtr + k)).toNat % (fget s (fldWC_MPD_I_MAX n) + 1) : Nat)

/-- The change of current, in 0.25 mA, that makes up a power error: the error is given as a ratio in 0.01 mW, and the slope
as a ratio of 0.01 mW to 0.25 mA (R183, R184). -/
def currentError (num den : Int) (slope : Int × Int) (ki : Nat) : Int :=
  let a := num * slope.2
  let b := den * slope.1 * 2 ^ ki
  if b < 0 then roundDiv (-a) (-b) else roundDiv a b

/-- The read loop takes a sample: after NSAMP of them I_R moves by 2^-RD_KI of the current error; before a slope has been
estimated the error is a free value (R183). -/
def readPower (s : State) (n : Fin 8) (code : Nat) : State :=
  let w := s.wc[n]
  if !(fbit s (fldWC_CTL_ENABLE n)) || !(fbit s (fldWC_CTL_PWR_LOOP_EN n)) || w.slots.any (fun q => q.phase == .running) then s
  else
    let x := addSample w.rdS code
    if x.n < nSamp s n then modWc s n (fun w => { w with rdS := x })
    else
      let s1 := modWc s n (fun w => { w with rdS := ⟨0, 0⟩ })
      let g : Int := fget s (fldWC_MPD_MPD_GAIN n)
      let cur : Int := fget s (fldWC_LD_CUR2_I_R n)
      match w.slope with
      | some sl =>
        if g = 0 ∨ sl.1 = 0 then tickFree (putCurrent s1 n (fldWC_LD_CUR2_I_R n) (freeCurrent s n 0))
        else
          let err := currentError (tablePower w 42 true * g * x.n - x.sum * 25600) (g * x.n) sl (fget s (fldWC_PWR_CFG_RD_KI n))
          putCurrent s1 n (fldWC_LD_CUR2_I_R n) (cur + err)
      | none => tickFree (putCurrent s1 n (fldWC_LD_CUR2_I_R n) (freeCurrent s n 0))

/-- A monitor code of the head that CAL_MPD names: CODE is the mean over the last 1 ms (R517, R532). -/
def mpdTake (s : State) (n : Fin 8) (code : Nat) : State :=
  if fget s fldCAL_MPD_HEAD ≠ n.val then s
  else
    let l := s.cal.mpd.filter (fun e => e.1 == n.val && decide ((s.chipTime - e.2.1).toNat < 1000000)) ++ [(n.val, s.chipTime, code % 4096)]
    fput { s with cal := { s.cal with mpd := l } } fldCAL_MPD_CODE
      (roundDiv (l.foldl (fun a e => a + e.2.2) 0 : Nat) l.length).toNat

/-- READ_POWER_SAMPLE. -/
def execReadPowerSample (n : Head) (code : Nat) (s : State) : Host.Outcome State Fault Refusal :=
  .next (readPower (mpdTake s n code) n code)

/-- Put the four write currents in force. -/
def putWriteCurrents (s : State) (n : Nat) (b m w c : Int) : State :=
  putCurrent (putCurrent (putCurrent (putCurrent s n (fldWC_LD_CUR1_I_B n) b) n (fldWC_LD_CUR0_I_M n) m) n
    (fldWC_LD_CUR0_I_W n) w) n (fldWC_LD_CUR1_I_C n) c

/-- The write loops update from the latest point of each kind: threshold and slope, then the four currents (R184).  Where
the two points give no slope the currents are free values. -/
def writeLoopUpdate (s : State) (n : Fin 8) (sumB sumM : Nat) : State :=
  let w := s.wc[n]
  let g : Int := fget s (fldWC_MPD_MPD_GAIN n)
  let k : Int := nSamp s n
  let iB : Int := fget s (fldWC_LD_CUR1_I_B n)
  let iM : Int := fget s (fldWC_LD_CUR0_I_M n)
  let d : Int := (sumM : Int) - sumB
  if g = 0 ∨ d = 0 ∨ iM = iB then
    tickFree (tickFree (tickFree (tickFree (putWriteCurrents s n (freeCurrent s n 0) (freeCurrent s n 1) (freeCurrent s n 2) (freeCurrent s n 3)))))
  else
    let sl : Int × Int := (25600 * d, k * g * (iM - iB))
    let ki := fget s (fldWC_PWR_CFG_WR_KI n)
    let errB := currentError (tablePower w 41 true * g * k - sumB * 25600) (g * k) sl ki
    let errM := currentError (tablePower w 40 false * g * k - sumM * 25600) (g * k) sl ki
    let ith := iB - (if d < 0 then roundDiv (-(sumB * (iM - iB))) (-d) else roundDiv (sumB * (iM - iB)) d)
    let beyond (p : Nat) : Int := currentError p 1 sl 0
    let s1 := modWc s n (fun w => { w with slope := some sl })
    putWriteCurrents s1 n (iB + errB) (iM + errM) (ith + beyond (tablePower w 40 true))
      (let c := ith + beyond (tablePower w 41 false); if c < 0 then 0 else c)

/-- The two groups are used up, and with them the samples from before the slot that a group of the slot took in (R184). -/
def groupsUsed (s : State) (n : Fin 8) : State :=
  modWc s n (fun w =>
    { w with
      bias := none, mid := none, biasWas := none, midWas := none
      biasKeep := if w.biasNew then ⟨0, 0⟩ else w.biasKeep
      midKeep := if w.midNew then ⟨0, 0⟩ else w.midKeep
      biasNew := false, midNew := false })

/-- A long space or mark is sampled while a slot is written (R184). -/
def writePower (s : State) (n : Fin 8) (middle : Bool) (code : Nat) : State :=
  let w := s.wc[n]
  if !(fbit s (fldWC_CTL_PWR_LOOP_EN n)) || !(w.slots.any (fun q => q.phase == .running)) then s
  else
    let k := nSamp s n
    let x := addSample (if middle then w.midS else w.biasS) code
    let full := decide (k ≤ x.n)
    let keep := if full then ⟨0, 0⟩ else x
    let s1 := modWc s n (fun w =>
      if middle then { w with midS := keep, mid := if full then some x.sum else w.mid, midNew := w.midNew || full }
      else { w with biasS := keep, bias := if full then some x.sum else w.bias, biasNew := w.biasNew || full })
    match s1.wc[n].bias, s1.wc[n].mid with
    | some b, some m => writeLoopUpdate (groupsUsed s1 n) n b m
    | _, _ => s1

/-- WRITE_POWER_SAMPLE. -/
def execWritePowerSample (n : Head) (middle : Bool) (code : Nat) (s : State) : Host.Outcome State Fault Refusal :=
  .next (writePower s n middle code)

end Machine
end Sys2Proof
end

