-- ==== Sys2Proof/Machine/SweepOps.lean ====
section
/-! DEFINITION. What other units need of the sweep scheduler: a head's portion and its current step (R322, R323), disarming
slots (R325, R328), and taking the wedge status of a head's engine (R215, R323, R325). -/

namespace Sys2Proof
namespace Machine

/-- A sweep program is running while the scheduler is not IDLE (R334). -/
def sweepRunning (s : State) : Bool := fbit s fldSWP_STAT_STATE

/-! ### Steps -/

/-- The fields of a step (R319). -/
def stepHead (st : SwpStep) : Nat := bitsOf st.w0.toNat 2 0
def stepLayer (st : SwpStep) : Nat := bitsOf st.w0.toNat 3 0
def stepSled (st : SwpStep) : Bool := st.w0.getLsbD 25
def stepTimeout (st : SwpStep) : Nat := bitsOf st.w0.toNat 27 16
def stepCount (st : SwpStep) : Nat := bitsOf st.w0.toNat 7 0
def stepWedge (st : SwpStep) : Nat := bitsOf st.w0.toNat 9 0

/-- The PTA that a step's record carries (R342): SEEK, the data steps and CAL_SLOT have one. -/
def stepPta (st : SwpStep) : Word :=
  let op := stepOp st
  if op = 3 ∨ (6 ≤ op ∧ op ≤ 0xB) then st.w1 else 0

/-- The step that a head's portion has reached, with its index. -/
def curStep (s : State) (n : Fin 8) : Option (Nat × SwpStep) :=
  match s.hb[n].portion with
  | some p => p.steps.head?
  | none => none

/-- Change a head's portion. -/
def modPortion (s : State) (n : Fin 8) (f : Portion → Portion) : State :=
  modHb s n (fun h => { h with portion := h.portion.map f })

/-- The span and member that a read-class step makes its tile, when its SPAN is 1 (R319, R329). -/
def stepSpan (st : SwpStep) : Option (Nat × Nat) :=
  if 6 ≤ stepOp st ∧ stepOp st ≤ 8 ∧ st.w0.getLsbD 27 then some (bitsOf st.w0.toNat 26 22, bitsOf st.w0.toNat 21 19) else none

/-- A step of the present sweep has armed or ended, so its span waits for that member no longer (R160, R329). -/
def spanReached (s : State) (ref : SweepRef) (st : SwpStep) : State :=
  match stepSpan st with
  | none => s
  | some (id, m) =>
    if (s.swpCur.map (·.ref.seq)) = some ref.seq then
      spanSettle { s with spans := s.spans.map (fun q => if q.id = id then { q with awaits := q.awaits.filter (· ≠ m) } else q) } id
    else s

/-- The current step of a head ends with a status; the portion goes on with the next (R323, R336). -/
def curStepEnd (s : State) (n : Fin 8) (status code : Nat) : State :=
  match s.hb[n].portion with
  | none => s
  | some p =>
    match p.steps with
    | [] => s
    | (i, st) :: rest =>
      let s1 := modPortion s n (fun p => { p with steps := rest, waiting := false, passed := 0 })
      spanReached (stepEnd s1 p.ref (stepOp st) n.val status i (stepPta st) st.w3 0 code) p.ref st

/-- Every step of a head's portion that has not ended ends with a status: those not reached, and the data steps whose slots
have not all ended (R328, R335). -/
def portionEnd (s : State) (n : Fin 8) (status : Nat) : State :=
  let opens := s.hb[n].openSteps
  let rest := match s.hb[n].portion with
    | some p => p.steps.map (fun q => (p.ref, q))
    | none => []
  let s1 := modHb s n (fun h => { h with portion := none, openSteps := [] })
  let s2 := forEach opens s1 (fun t o => stepEnd t o.ref (stepOp o.step) n.val status o.idx (stepPta o.step) o.step.w3
    (((stepTile s n.val o.idx).map (·.failMap)).getD 0) 0)
  forEach rest s2 (fun t q =>
    spanReached (stepEnd t q.1 (stepOp q.2.2) n.val status q.2.1 (stepPta q.2.2) q.2.2.w3 0 0) q.1 q.2.2)

/-! ### Disarming -/

/-- The armed slots of a channel whose pass has not begun are disarmed: those waiting, and the one whose window has not
opened, whose packet ends ABORTED (R120). -/
def disarmChan (s : State) (c : Fin 32) : State :=
  let q := s.ch[c]
  let gone := q.queue.filter (fun p => !p.2)
  let s1 := modCh s c (fun q => { q with queue := q.queue.filter (fun p => p.2) })
  let s2 := forEach gone s1 (fun t p => slotEnded t (chanHead c) p.1.pta p.1.sector)
  if q.sync = .wait1 ∧ ¬ q.verify then packetAbort s2 c else s2

/-- Every armed slot of a head whose pass has not begun is disarmed (R328, R335). -/
def disarmHead (s : State) (n : Fin 8) : State :=
  let s1 := forEach (List.finRange 4) s (fun t sp => disarmChan t (headChan n sp))
  let gone := s1.wc[n].slots.filter slotArmed
  let s2 := cellFill (modWc s1 n (fun w => { w with slots := w.slots.filter (fun q => !(slotArmed q)) })) n
  forEach gone s2 (fun t q => slotEnded t n q.pta q.sector)

/-- A sled stall, loss, limit, denial or fault ends the head's portion (R328). -/
def portionSledEnd (s : State) (n : Fin 8) : State :=
  if s.hb[n].portion.isNone ∧ s.hb[n].openSteps.isEmpty then s
  else disarmHead (portionEnd s n 8) n

/-! ### Wedge statuses -/

/-- Whether the pass of a channel's open read slot began after a wedge (R325). -/
def beganAfter (q : Channel) (w : Nat) : Bool :=
  streaming q || q.sync == .search1 || q.sync == .cand |> fun o => o && !q.verify && decide ((q.passWedge + 720 - w % 720) % 720 < 360)

/-- A positioning step that waits for statuses takes one: DONE after COUNT good ones in a row since the latest posted word,
SHORT_POS when TIMEOUT wedges have passed (R323). -/
def waitPosStatus (s : State) (n : Fin 8) : State :=
  match s.hb[n].portion, curStep s n with
  | some p, some (_, st) =>
    if stepOp st = 4 ∧ p.waiting then
      if stepCount st ≤ s.hb[n].goodRun then curStepEnd s n 0 0
      else if stepTimeout st ≤ p.passed + 1 then curStepEnd s n 2 0
      else modPortion s n (fun p => { p with passed := p.passed + 1 })
    else s
  | _, _ => s

/-- A head engine's wedge status reaches the write cell and the sweep scheduler (R187, R215, R323, R325). -/
def wedgeStatus (s : State) (n : Fin 8) (w : Nat) (onTrack inFocus : Bool) : State :=
  let good := onTrack && inFocus
  let s1 := wcWedgeStatus s n onTrack inFocus
  let s2 := modHb s1 n (fun h => { h with goodRun := if good then h.goodRun + 1 else 0, badStatus := !good, wedgeDue := none })
  let s3 := if good then s2
    else forEach (List.finRange 4) s2 (fun t sp =>
      if beganAfter t.ch[headChan n sp] w then packetAbort t (headChan n sp) else t)
  waitPosStatus s3 n

end Machine
end Sys2Proof
end

