-- ==== Sys2Proof/Machine/Dram.lean ====
section
/-! DEFINITION. The DRAM controller: the mapping registers (R398), the channel queues and the order of issue (R399 to
R403), refresh and row disturbance (R404 to R406), scrubbing and remapping (R410 to R414, R421), and initialisation,
retraining and self-refresh (R415 to R418). -/

namespace Sys2Proof
namespace Machine

/-! ### Channels -/

/-- The value of a bank's count, 0 if it has none. -/
def bankCount (l : List (Nat × Nat)) (b : Nat) : Nat := (aget? l b).getD 0

def reqBank (s : State) (r : DramReq) : Nat := (dramPlace s r.addr).bank
def reqRow (s : State) (r : DramReq) : Nat := (dramPlace s r.addr).row

/-- Two requests of a channel match: same bank and row (R401). -/
def reqMatch (s : State) (a b : DramReq) : Bool := reqBank s a == reqBank s b && reqRow s a == reqRow s b

/-- A request that waits longer than AGE_MAX (R400). -/
def reqAged (s : State) (r : DramReq) : Bool := decide (10 * fget s fldDRAM_SCHED_AGE_MAX < (s.chipTime - r.time).toNat)

/-- The requests that no earlier matching one holds back, oldest first, with their indices (R401). -/
def dramEligible (s : State) (q : List DramReq) : List (Nat × DramReq) :=
  ((List.range q.length).zip q).filter (fun p => !((q.take p.1).any (reqMatch s p.2)))

/-- Whether a request hits the open row of its bank. -/
def reqHits (s : State) (ch : DramCh) (r : DramReq) : Bool := aget? ch.rows (reqBank s r) == some (reqRow s r)

/-- The next request of a channel, by R400, among those that a filter passes. -/
def dramChoose (s : State) (ch : DramCh) (f : DramReq → Bool) : Option (Nat × DramReq) :=
  let l := (dramEligible s ch.queue).filter (fun p => f p.2)
  match l.find? (fun p => p.2.urgent) with
  | some p => some p
  | none =>
    match l.find? (fun p => reqAged s p.2) with
    | some p => some p
    | none =>
      match l.find? (fun p => reqHits s ch p.2) with
      | some p => some p
      | none => l.head?

/-- Requests that wait take the places that are free, up to 69 (R399). -/
def dramAdmit (ch : DramCh) : DramCh :=
  let k := 69 - ch.queue.length
  { ch with queue := ch.queue ++ ch.waiting.take k, waiting := ch.waiting.drop k }

/-- The hint that a requester sends: whether the row is to stay open (R402). -/
def hintOpen : DramFrom → Bool
  | .readPacket | .decoder | .encoder | .tileCode | .hostMove | .sweepRing | .seCapture | .scrubber => true
  | .arcade | .indexWalker | .catalogueWalker | .keyStore | .seFill | .tableFetch => false

/-- The requesters whose requests are urgent: servo engine fills and the write cells' table fetches (R28). -/
def sendsUrgent (from_ : DramFrom) : Bool := from_ == .seFill || from_ == .tableFetch

/-- A request enters its channel's queue, or waits; before READY it receives a bus error (R399, R415).  At a withdrawn
Crossing it ends with CROSSING_RESET, and its unit reissues it once the Crossing is ARMED again (R40, R42, R416): it waits. -/
def dramRequest (s : State) (r : DramReq) : State :=
  if !(stagingUsable s r.addr) then replyError s
  else
    let c := (dramPlace s r.addr).ch
    if xingArmed s (Fin.ofNat 52 (38 + c.val)) then
      modDram s c (fun ch => dramAdmit { ch with waiting := ch.waiting ++ [r] })
    else reply (modDram s c (fun ch => { ch with waiting := ch.waiting ++ [r] })) .crossingReset 0 []

/-- DRAM_REQUEST. -/
def execDramRequest (sender : DramFrom) (write : Bool) (addr : BitVec 40) (data : List (BitVec 8)) (s : State) :
    Host.Outcome State Fault Refusal :=
  .next (dramRequest s
    ⟨addr.toNat, if write then arcClip addr.toNat (some data) else none, sendsUrgent sender, hintOpen sender, s.chipTime⟩)

/-- A row closes, its dirty check word written back first (R402, R403). -/
def dramClose (s : State) (c : Fin 4) (bank : Nat) : State :=
  modDram (checkBack s c bank) c (fun ch => { ch with rows := aerase ch.rows bank })

/-- ACT_THR and BLAST as they act (R419). -/
def actThr (s : State) : Nat := clampNat (fget s fldDRAM_RH_ACT_THR) 256 32767
def actNear (s : State) (row : Nat) : List Nat :=
  let near := [row + 1] ++ (if row = 0 then [] else [row - 1])
  let far := [row + 2] ++ (if row < 2 then [] else [row - 2])
  (near ++ (if 2 ≤ fget s fldDRAM_RH_BLAST then far else [])).filter (fun r => r < 2 ^ dramRowBits s)

/-- The activate-count table after an ACT of a row (R406): entries in place order. -/
def actBump (t : List (Nat × Nat)) (row : Nat) : List (Nat × Nat) :=
  if t.any (fun e => e.1 = row) then t.map (fun e => if e.1 = row then (e.1, e.2 + 1) else e)
  else if t.length < 16 then t ++ [(row, 1)]
  else
    let least := t.foldl (fun m e => Nat.min m e.2) (t.headD (0, 0)).2
    let i := t.findIdx (fun e => e.2 = least)
    t.set i (row, least + 1)

/-- An ACT of a row: the rolling count and RFM (R405), the table, and the neighbour refreshes of a row whose count has
reached ACT_THR, each an ACT of its own (R406). -/
def dramAct (fuel : Nat) (s : State) (c : Fin 4) (bank row : Nat) : State :=
  match fuel with
  | 0 => s
  | fuel + 1 =>
    let n := bankCount s.dram[c].raa bank + 1
    let lim := (Config.rfmThreshold c.val (bank / 16)).toNat
    let rfm := decide (lim ≤ n)
    let t := actBump ((aget? s.dram[c].acts bank).getD []) row
    let hot := t.any (fun e => e.1 = row && decide (actThr s ≤ e.2))
    let t' := if hot then t.map (fun e => if e.1 = row then (e.1, 0) else e) else t
    let s1 := countIf (modDram s c (fun ch =>
      { ch with
        raa := aset ch.raa bank (if rfm then n - lim else n)
        acts := aset ch.acts bank t' })) rfm 426
    if hot then
      forEach (actNear s row) (fset s1 fldDRAM_STAT_NB_REFRESH) (fun u r => dramAct fuel (count u 425) c bank r)
    else s1

/-- Open a row: the row that was open closes first (R402, R406). -/
def rowOpen (s : State) (c : Fin 4) (bank row : Nat) : State :=
  if aget? s.dram[c].rows bank = some row then s
  else modDram (dramAct 64 (dramClose s c bank) c bank row) c (fun ch => { ch with rows := aset ch.rows bank row })

/-- Whether an access leaves its row open: PAGE_MODE, else its hint; with the hint close, only when the next request chosen
for the bank hits the same row (R402). -/
def keepsOpen (s : State) (ch : DramCh) (r : DramReq) : Bool :=
  let mode := fget s fldDRAM_CTL_PAGE_MODE
  let hint := if mode = 1 then true else if mode = 2 then false else r.openHint
  hint || (match dramChoose s ch (fun q => reqBank s q == reqBank s r) with
    | some (_, q) => reqRow s q == reqRow s r
    | none => false)

/-- The valid remap entries of a channel. -/
def remapValid (s : State) (chan : Nat) : List Nat :=
  (List.range 8).filter (fun i => fbit s (fldDCH_REMAP_VALID chan i))

/-- Whether a word is served from a remap entry (R413). -/
def isRemapped (s : State) (chan word : Nat) : Bool :=
  (remapValid s chan).any (fun i => fget s (fldDCH_REMAP_WORD chan i) == word)

/-- The row of an access stays open, or closes (R402). -/
def rowEnd (s : State) (c : Fin 4) (r : DramReq) : State := if keepsOpen s s.dram[c] r then s else dramClose s c (reqBank s r)

/-- The cells of a check word show flips beside those they held, by the address of slot 0 of the row; a remapped word shows
none (R413). -/
def flipCheck (s : State) (rb flips : Nat) : State :=
  let p := dramPlace s rb
  if flips = 0 ∨ isRemapped s p.chan (remapWord { p with burst := 31 }) then s
  else putChk s rb ((aget? s.chkErr rb).getD 0 ^^^ flips)

/-- The channel issues its next request: the row opens, the row's check word is read unless it is buffered, and the access
follows (R400 to R403, R408). -/
def dramIssue (s : State) (c : Fin 4) (check : Nat) : State :=
  match dramChoose s s.dram[c] (fun _ => true) with
  | none => s
  | some (i, r) =>
    let w := eccWord r.addr
    let s1 := rowOpen (modDram s c (fun ch => dramAdmit { ch with queue := ch.queue.eraseIdx i })) c (reqBank s r) (reqRow s r)
    let s2 := checkLoad (if (checkBuf s1 w).isNone then flipCheck s1 (rowBase w) check else s1) w
    let s3 := match r.store with
      | some new => reply (dramWrite (resvDrop s2 r.addr new.length) r.addr new) .ok 0 []
      | none => modDram s2 c (fun ch => { ch with returns := ch.returns ++ [r] })
    rowEnd s3 c r

/-- DRAM_ISSUE. -/
def execDramIssue (x : DramLook) (s : State) : Host.Outcome State Fault Refusal :=
  .next (if fget s fldDRAM_STAT_STATE = 2 ∨ fget s fldDRAM_STAT_STATE = 3 then dramIssue s x.chan x.check.toNat else s)

/-- PAGE_IDLE passes with no queued request to the open row: it closes (R402). -/
def pageIdle (s : State) (c : Fin 4) (bank : Nat) : State :=
  match aget? s.dram[c].rows bank with
  | some row =>
    if s.dram[c].queue.any (fun r => reqBank s r == bank && reqRow s r == row) then s else dramClose s c bank
  | none => s

/-- PAGE_IDLE_EXPIRE. -/
def execPageIdleExpire (c : DramChan) (bank : Fin 32) (s : State) : Host.Outcome State Fault Refusal :=
  .next (pageIdle s c bank.val)

/-! ### Errors that the cells show -/

/-- The cells of a data word show flips beside those they held; a remapped word shows none. -/
def flipData (s : State) (a flips : Nat) : State :=
  let p := dramPlace s a
  if flips = 0 ∨ isRemapped s p.chan (remapWord p) then s
  else
    let f := (aget? s.dramErr a).getD 0 ^^^ flips
    { s with dramErr := if f = 0 then aerase s.dramErr a else aset s.dramErr a f }

/-- The data of the oldest read returns: the word is checked and answered good, corrected or poisoned (R407). -/
def dramReturn (s : State) (c : Fin 4) (flips : Nat) : State :=
  match s.dram[c].returns with
  | [] => s
  | r :: rest =>
    let w := eccWord r.addr
    match dramRead (flipData (modDram s c (fun ch => { ch with returns := rest })) w flips) w with
    | (s2, bs, p) => reply s2 (if p then .poison else .ok) (leNat ((bs.drop (r.addr % 64)).take 8)) bs

/-- Channel c of interface n. -/
def ifChan (n c : Fin 2) : Fin 4 := ⟨2 * n.val + c.val, by omega⟩

/-- DRAM_READ_RETURN. -/
def execDramReadReturn (n c : Fin 2) (flips : BitVec 512) (s : State) : Host.Outcome State Fault Refusal :=
  .next (dramReturn s (ifChan n c) flips.toNat)

/-! ### Refresh -/

/-- A bank's refresh falls due: postponed while requests wait, up to 8 of them and never behind an aged request; else it and
those owed are done, and the open row closes (R404). -/
def bankRefresh (s : State) (c : Fin 4) (bank : Nat) : State :=
  let ch := s.dram[c]
  let owed := bankCount ch.debt bank
  if !ch.queue.isEmpty && decide (owed < 8) && !(ch.queue.any (reqAged s)) then
    modDram s c (fun ch => { ch with debt := aset ch.debt bank (owed + 1) })
  else
    let lim := (Config.rfmThreshold c.val (bank / 16)).toNat
    modDram (dramClose s c bank) c (fun ch =>
      { ch with
        debt := aerase ch.debt bank
        raa := aset ch.raa bank (bankCount ch.raa bank - lim * (owed + 1)) })

/-- PER_BANK_REFRESH. -/
def execPerBankRefresh (c : DramChan) (bank : Fin 32) (s : State) : Host.Outcome State Fault Refusal :=
  .next (if fget s fldDRAM_STAT_STATE = 2 ∨ fget s fldDRAM_STAT_STATE = 3 then bankRefresh s c bank.val else s)

/-- MR4_POLL (R391, R404). -/
def execMr4Poll (c : DramChan) (rate : BitVec 8) (s : State) : Host.Outcome State Fault Refusal :=
  .next (if fget s fldDRAM_STAT_STATE = 2 ∨ fget s fldDRAM_STAT_STATE = 3 then modDram s c (fun ch => { ch with mr4 := rate }) else s)

/-- Every activate-count table clears (R406). -/
def actClear (s : State) : State := forEach (List.finRange 4) s (fun t c => modDram t c (fun ch => { ch with acts := [] }))

/-- ACT_TABLE_CLEAR. -/
def execActTableClear (s : State) : Host.Outcome State Fault Refusal := .next (actClear s)

/-! ### Remap entries (R413, R414) -/

/-- Arm a free entry of a channel for a word: the word is read, corrected or poisoned, and served from the entry.  A check
word that is uncorrectable keeps its flips there, which is the entry's POISON (R413). -/
def remapArm (s0 : State) (chan i word : Nat) (auto : Bool) : State :=
  let a := remapAddr s0 chan word
  let s := checkBack s0 (dramPlace s0 a).ch (dramPlace s0 a).bank
  let s1 :=
    if word % 32 = 31 then
      let t := dramSaw s a true (checkStored s a).1
      if (checkStored s a).1 = .ue then t else putChk t a (checkStored s a).2
    else if stagingUsable s a then
      match dramRead s a with
      | (t, bs, p) => dramStoreWord t a bs p
    else s
  let s2 := fputB (fput (fset s1 (fldDCH_REMAP_VALID chan i)) (fldDCH_REMAP_WORD chan i) word) (fldDCH_REMAP_AUTO chan i) auto
  count (fput s2 (fldDCH_STAT_FREE chan) (fget s2 (fldDCH_STAT_FREE chan) - 1)) 428

/-- Whether a valid entry of a channel holds a poisoned word (R420). -/
def remapPoison (s : State) (chan i : Nat) : Bool :=
  let word := fget s (fldDCH_REMAP_WORD chan i)
  fbit s (fldDCH_REMAP_VALID chan i) &&
    (if word % 32 = 31 then (checkStored s (remapAddr s chan word)).1 == .ue else isPoisoned s (remapAddr s chan word))

/-- Free an entry of a channel: its data goes back whole, with POISON as held (R413). -/
def remapDisarm (s : State) (chan i : Nat) : State :=
  if fbit s (fldDCH_REMAP_VALID chan i) then
    let s1 := fclr (fclr s (fldDCH_REMAP_VALID chan i)) (fldDCH_REMAP_AUTO chan i)
    fput s1 (fldDCH_STAT_FREE chan) (fget s1 (fldDCH_STAT_FREE chan) + 1)
  else s

/-- A write of VALID = 1 to an entry of a channel. -/
def remapArmWrite (s : State) (chan i word : Nat) : State :=
  if fbit s (fldDCH_REMAP_VALID chan i) then
    if fget s (fldDCH_REMAP_WORD chan i) = word then s else fset s fldDRAM_STAT_WR_DENIED
  else if isRemapped s chan word then fset s fldDRAM_STAT_WR_DENIED
  else remapArm s chan i word false

/-- A write of VALID = 0 to an entry of a channel: a valid entry is freed, unless the write would change its WORD (R413, R414); an
entry that is not valid keeps the WORD (R420). -/
def remapDisarmWrite (s : State) (chan i word : Nat) : State :=
  if fbit s (fldDCH_REMAP_VALID chan i) then
    if fget s (fldDCH_REMAP_WORD chan i) = word then remapDisarm s chan i else fset s fldDRAM_STAT_WR_DENIED
  else fput s (fldDCH_REMAP_WORD chan i) word

/-! ### The words of the SRAM macros (R395, R421) -/

/-- The flips that a word of a macro holds. -/
def sramFlips (s : State) (m word : Nat) : Nat :=
  match Config.sramPlace m word with
  | some (.tcm a) => (aget? s.tcmErr a).getD 0
  | some (.arcade k i) => ((aget? s.arcade.lines k).map (·.err)).getD 0 / 2 ^ (72 * i) % 2 ^ 72
  | some (.l1d p k i) => ((aget? s.l1d[(Fin.ofNat 4 p)].lines k).map (·.err)).getD 0 / 2 ^ (72 * i) % 2 ^ 72
  | some (.l1i p k i) => ((aget? s.l1i[(Fin.ofNat 4 p)].lines k).map (·.err)).getD 0 / 2 ^ (72 * i) % 2 ^ 72
  | none => (aget? s.sramErr (2 ^ 20 * m + word)).getD 0

/-- An association list with 0 unlisted. -/
def putErr (l : List (Nat × Nat)) (k fl : Nat) : List (Nat × Nat) := if fl = 0 then aerase l k else aset l k fl

/-- The flips of a line with those of one word replaced. -/
def errPut (err i fl : Nat) : Nat := err - err / 2 ^ (72 * i) % 2 ^ 72 * 2 ^ (72 * i) + fl * 2 ^ (72 * i)

/-- An L1's line at a place with the flips of one word replaced. -/
def l1PutErr (q : L1) (k i fl : Nat) : L1 :=
  match aget? q.lines k with
  | some l => { q with lines := aset q.lines k { l with err := errPut l.err i fl } }
  | none => q

/-- Replace the flips that a word of a macro holds. -/
def putSramFlips (s : State) (m word fl : Nat) : State :=
  match Config.sramPlace m word with
  | some (.tcm a) => { s with tcmErr := putErr s.tcmErr a fl }
  | some (.arcade k i) =>
    match aget? s.arcade.lines k with
    | some l => setArcLines s (aset s.arcade.lines k { l with err := errPut l.err i fl })
    | none => s
  | some (.l1d p k i) => modL1 s (Fin.ofNat 4 p) .data (fun q => l1PutErr q k i fl)
  | some (.l1i p k i) => modL1 s (Fin.ofNat 4 p) .instr (fun q => l1PutErr q k i fl)
  | none => { s with sramErr := putErr s.sramErr (2 ^ 20 * m + word) fl }

/-- The error is flagged and reported; an uncorrectable word of a decoder slice takes the slice out of service (R148, R421,
R535). -/
def macroReport (s : State) (m : Nat) (ue : Bool) : State :=
  let s1 := sramFlag s m ue
  match cellCode (fget s (fldMEMR_INFO_DISTRICT m)) (fget s (fldMEMR_INFO_AVENUE_PORT m)) (fget s (fldMEMR_INFO_STREET_PORT m)) with
  | some c => if ue ∧ c / 64 = 10 ∧ c % 64 < 40 then sliceRemove s1 (Fin.ofNat 40 (c % 64)) else s1
  | none => s1

/-- Arm a free entry of a macro: its word is read, corrected, or kept as it is and poisoned, and served from the entry
(R413, R421). -/
def macroArm (s : State) (m i word : Nat) (auto : Bool) : State :=
  let s0 := match (sramDecode (sramFlips s m word)).1 with
    | .good => s
    | .ce => putSramFlips (macroReport s m false) m word 0
    | .ue => macroReport s m true
  let s1 := fputB (fput (fset s0 (fldMEMR_REMAP_VALID m i)) (fldMEMR_REMAP_WORD m i) word) (fldMEMR_REMAP_AUTO m i) auto
  fput s1 (fldMEMR_STAT_FREE m) (fget s1 (fldMEMR_STAT_FREE m) - 1)

/-- Whether a valid entry of a macro holds an uncorrectable word (R421). -/
def macroPoison (s : State) (m i : Nat) : Bool :=
  fbit s (fldMEMR_REMAP_VALID m i) && (sramDecode (sramFlips s m (fget s (fldMEMR_REMAP_WORD m i)))).1 == .ue

def macroRemapped (s : State) (m word : Nat) : Bool :=
  (List.range 8).any (fun i => fbit s (fldMEMR_REMAP_VALID m i) && fget s (fldMEMR_REMAP_WORD m i) == word)

def macroPresent (s : State) (m : Nat) : Bool := fbit s (fldMEMR_INFO_PRESENT m)

/-- A write of VALID = 1 to an entry of a macro. -/
def macroArmWrite (s : State) (m i word : Nat) : State :=
  if !(macroPresent s m) then s
  else if fbit s (fldMEMR_REMAP_VALID m i) then
    if fget s (fldMEMR_REMAP_WORD m i) = word then s else fset s fldDRAM_STAT_WR_DENIED
  else if macroRemapped s m word then fset s fldDRAM_STAT_WR_DENIED
  else macroArm s m i word false

/-- Free an entry of a macro: its word goes back whole, uncorrectable if it was held so (R413). -/
def macroDisarm (s : State) (m i : Nat) : State :=
  if fbit s (fldMEMR_REMAP_VALID m i) then
    let s1 := fclr (fclr s (fldMEMR_REMAP_VALID m i)) (fldMEMR_REMAP_AUTO m i)
    fput s1 (fldMEMR_STAT_FREE m) (fget s1 (fldMEMR_STAT_FREE m) + 1)
  else s

/-- A write of VALID = 0 to an entry of a macro. -/
def macroDisarmWrite (s : State) (m i word : Nat) : State :=
  if fbit s (fldMEMR_REMAP_VALID m i) then
    if fget s (fldMEMR_REMAP_WORD m i) = word then macroDisarm s m i else fset s fldDRAM_STAT_WR_DENIED
  else fput s (fldMEMR_REMAP_WORD m i) word

/-- REMAP_ARM. -/
def execRemapArm (_agent : Agent) (at_ : RemapAt) (entry : Fin 8) (word : BitVec 26) (s : State) :
    Host.Outcome State Fault Refusal :=
  .next (reply (match at_ with
    | .dram c => remapArmWrite s c.val entry.val word.toNat
    | .macro_ m => macroArmWrite s m.val entry.val (word.toNat % 2 ^ 20)) .ok 0 [])

/-- REMAP_DISARM. -/
def execRemapDisarm (_agent : Agent) (at_ : RemapAt) (entry : Fin 8) (s : State) : Host.Outcome State Fault Refusal :=
  .next (reply (match at_ with
    | .dram c => remapDisarm s c.val entry.val
    | .macro_ m => macroDisarm s m.val entry.val) .ok 0 [])

/-- A hard failure: HARD sets and, with AUTO_REMAP, the next free entry is armed, or REMAP_FULL sets (R411). -/
def hardFailure (s : State) (chan word : Nat) : State :=
  let s1 := fset s fldDRAM_STAT_HARD
  if fbit s fldDRAM_CTL_AUTO_REMAP then
    match (List.range 8).find? (fun i => !(fbit s (fldDCH_REMAP_VALID chan i))) with
    | some i => fset (remapArm s1 chan i word true) fldDRAM_STAT_REMAPPED
    | none => fset s1 fldDRAM_STAT_REMAP_FULL
  else s1

/-! ### Scrubbing (R410, R411, R412) -/

/-- The flips that a list gives a burst. -/
def burstFlips (l : List (Fin 32 × BitVec 512)) (j : Nat) : Nat :=
  (l.filter (fun p => p.1.val = j)).foldl (fun acc p => acc ^^^ p.2.toNat) 0

/-- The scrubber reads a data word, through the Arcade's lookup as every staging request (R373, R374): a CE is rewritten and
read again, a UE reported and left (R410, R411). -/
def scrubData (s : State) (chan a : Nat) (flips stuck : Nat) : State :=
  let s0 := flipData s a flips
  if !(stagingUsable s a) then s
  else if (arcWay s0 a).isSome then (arcReadLine s0 4 a).1
  else
    match dramPeek s0 a with
    | (bs, p, o) =>
      let s1 := dramSaw s0 a false o
      if o = .ce ∧ fbit s fldDRAM_CTL_SCRUB_FIX then
        let s2 := flipData (dramStoreWord s1 a bs p) a stuck
        if (dramPeek s2 a).2.2 = .ce then hardFailure s2 chan (remapWord (dramPlace s2 a)) else s2
      else s1

/-- The scrubber reads the check word of a row, a buffered change of it written back before. -/
def scrubCheck (s : State) (c : Fin 4) (rb : Nat) (flips stuck : Nat) : State :=
  let s0 := flipCheck (checkBack s c (dramPlace s rb).bank) rb flips
  let o := (checkStored s0 rb).1
  let s1 := dramSaw s0 rb true o
  if o = .ce ∧ fbit s fldDRAM_CTL_SCRUB_FIX then
    let s2 := flipCheck (putChk s1 rb (checkStored s1 rb).2) rb stuck
    if (checkStored s2 rb).1 = .ce then hardFailure s2 c.val (remapWord { dramPlace s2 rb with burst := 31 }) else s2
  else s1

/-- Rows that the scrubber of a channel walks, in order of rank, bank and row (R410). -/
def scrubRows (s : State) : Nat := (fget s fldDRAM_CFG_RANKS + 1) * 16 * 2 ^ dramRowBits s

/-- A lap ends: its length is reported (R412). -/
def lapEnd (s : State) (c : Fin 4) : State :=
  let ms := (s.chipTime - s.dram[c].lapStart).toNat / 1000000
  let s1 := modDram s c (fun ch => { ch with scrub := 0, lapStart := s.chipTime, lastLap := ms })
  let longest := s1.dram.toList.foldl (fun m ch => Nat.max m ch.lastLap) 0
  let s2 := fput (count s1 427) fldDRAM_LAP_LAST (Nat.min longest 0xFFFF)
  if c = 0 then fput s2 fldDRAM_LAP_LAPS (fget s2 fldDRAM_LAP_LAPS + 1) else s2

/-- The scrubber of a channel reads one row: it opens it, reads the check word and the 31 data words, and leaves the row as its
hint, open, and PAGE_MODE say (R402, R406, R410). -/
def scrubRow (s : State) (c : Fin 4) (flips stuck : List (Fin 32 × BitVec 512)) : State :=
  let pos := s.dram[c].scrub
  let bank := pos / 2 ^ dramRowBits s
  let rb := dramRowAddr s c.val bank (pos % 2 ^ dramRowBits s)
  let s0 := rowOpen s c bank (pos % 2 ^ dramRowBits s)
  let s1 := checkFill (scrubCheck s0 c rb (burstFlips flips 31) (burstFlips stuck 31)) rb
  let s2 := forEach (List.range 31) s1 (fun t j => scrubData t c.val (rb + 64 * j) (burstFlips flips j) (burstFlips stuck j))
  let s3 := rowEnd s2 c ⟨rb, none, false, hintOpen .scrubber, s.chipTime⟩
  if scrubRows s ≤ pos + 1 then lapEnd s3 c else modDram s3 c (fun ch => { ch with scrub := pos + 1 })

/-- SCRUB_ROW: in READY or RETRAIN, with SCRUB_EN. -/
def execScrubRow (c : DramChan) (flips stuck : List (Fin 32 × BitVec 512)) (s : State) : Host.Outcome State Fault Refusal :=
  .next (if (fget s fldDRAM_STAT_STATE = 2 ∨ fget s fldDRAM_STAT_STATE = 3) ∧ fbit s fldDRAM_CTL_SCRUB_EN ∧
      ¬ fbit s (fldDCH_STAT_RETRAINING c.val) then scrubRow s c flips stuck else s)

/-- A macro reads a word of its own: a correctable one is rewritten and read again, and a hard failure arms the next free
entry; CE and UE are reported (R421, R535, R539). -/
def sramScrub (s : State) (m word flips stuck : Nat) : State :=
  if !(macroPresent s m) || macroRemapped s m word then s
  else
    let fl := sramFlips s m word ^^^ flips
    match (sramDecode fl).1 with
    | .good => putSramFlips s m word fl
    | .ue => macroReport (putSramFlips s m word fl) m true
    | .ce =>
      let s1 := putSramFlips (macroReport s m false) m word stuck
      if (sramDecode stuck).1 = .ce then
        let s2 := fset s1 (fldMEMR_STAT_HARD m)
        match (List.range 8).find? (fun i => !(fbit s2 (fldMEMR_REMAP_VALID m i))) with
        | some i => macroArm s2 m i word true
        | none => s2
      else s1

/-- SRAM_SCRUB. -/
def execSramScrub (m : Fin 1024) (word : BitVec 20) (flips stuck : BitVec 72) (s : State) : Host.Outcome State Fault Refusal :=
  .next (sramScrub s m.val word.toNat flips.toNat stuck.toNat)

/-! ### The mapping registers (R398) -/

/-- Whether a mask is legal: it holds its own bit, no other select bit, and no bit above the row. -/
def maskLegal (s : State) (own mask : Nat) : Bool :=
  mask.testBit own && (List.range (dramSel s)).all (fun k => k == own || !(mask.testBit k)) &&
    decide (mask < 2 ^ (dramSel s + dramRowBits s))

/-- A mask is written, or refused with MAP_BAD. -/
def maskWrite (s : State) (f : Fld) (own mask : Nat) : State :=
  if maskLegal s own mask then fput s f mask else fset s fldDRAM_STAT_MAP_BAD

/-- A write of DRAM_CFG, DRAM_IFMAP or DRAMn_XORMAPk: only in OFF or FAILED. -/
def dramMapWrite (s : State) (reg : DramMapReg) (v : Nat) : State :=
  let st := fget s fldDRAM_STAT_STATE
  if st = 0 ∨ st = 5 then
    match reg with
    | .cfg => fput (fput s fldDRAM_CFG_ROW_BITS (clampNat (bitsOf v 20 16) 13 16)) fldDRAM_CFG_RANKS (bitsOf v 8 8)
    | .ifmap => maskWrite s fldDRAM_IFMAP_MASK 0 (bitsOf v 22 0)
    | .xormap n k => maskWrite s (fldDRAMN_XORMAP_MASK n.val k.val) (k.val + 1) (bitsOf v 22 0)
  else fset s fldDRAM_STAT_WR_DENIED

/-- DRAM_MAP_WRITE. -/
def execDramMapWrite (_agent : Agent) (reg : DramMapReg) (value : BitVec 32) (s : State) : Host.Outcome State Fault Refusal :=
  .next (reply (dramMapWrite s reg value.toNat) .ok 0 [])

/-! ### Initialisation, retraining and self-refresh (R415 to R418) -/

/-- INIT: ignored outside OFF and FAILED. -/
def dramInit (s : State) : State :=
  let st := fget s fldDRAM_STAT_STATE
  if st = 0 ∨ st = 5 then fput s fldDRAM_STAT_STATE 1 else s

/-- DRAM_INIT. -/
def execDramInit (_agent : Agent) (s : State) : Host.Outcome State Fault Refusal := .next (reply (dramInit s) .ok 0 [])

/-- A channel's training fails (R417, R539). -/
def trainFail (s : State) (c : Fin 4) : State :=
  raiseReport (fclr (fset s fldDRAM_STAT_TRAIN_FAIL) (fldDCH_STAT_TRAINED c.val)) 0x08 1 2 4 c.val 0 c.val

/-- A channel is trained: its drift counts from here. -/
def trained (s : State) (c : Fin 4) : State := fput (fset s (fldDCH_STAT_TRAINED c.val)) (fldDCH_STAT_DRIFT c.val) 0

/-- Every row is written with zero data and valid check words. -/
def dramZero (s : State) : State :=
  { s with
    mem := s.mem.filter (fun c => c.1 < 0x8000000000)
    poison := []
    dramErr := []
    chkErr := []
    dram := s.dram.map (fun ch => { ch with checks := [] }) }

/-- The Crossing of a staging channel is ARMED: both sides have left reset and are ready (R415). -/
def dramXingArm (s : State) (c : Fin 4) : State :=
  let x : Fin 52 := Fin.ofNat 52 (38 + c.val)
  xingRearm (modXing s x (fun q => 
    { q with rstClk := false, rstSelf := false, clkGood := true, freshClk := false, freshSelf := false })) x

/-- The scrubbers of all channels begin a lap (R410, R412). -/
def lapsBegin (s : State) : State := { s with dram := s.dram.map (fun ch => { ch with lapStart := s.chipTime }) }

/-- The bring-up ends: READY with Crossings 38-41 armed and DRAM_TOP valid, or FAILED (R415, R417). -/
def dramInitDone (s : State) (failed : List (Fin 4)) : State :=
  if fget s fldDRAM_STAT_STATE = 1 then
    let s1 := forEach ((List.finRange 4).filter (fun c => !(failed.contains c))) s trained
    if failed.isEmpty then
      let s2 := dramZero s1
      let s3 := lapsBegin (fput (fput s2 fldDRAM_STAT_STATE 2) fldDRAM_TOP_SIZE_MIB (usableMiB s2))
      forEach (List.finRange 4) s3 dramXingArm
    else fput (forEach failed s1 trainFail) fldDRAM_STAT_STATE 5
  else s

/-- DRAM_INIT_DONE. -/
def execDramInitDone (failed : List DramChan) (s : State) : Host.Outcome State Fault Refusal :=
  .next (dramInitDone s failed)

/-- Whether staging memory runs: READY or RETRAIN. -/
def dramRuns (s : State) : Bool := fget s fldDRAM_STAT_STATE == 2 || fget s fldDRAM_STAT_STATE == 3

/-- A channel reads its oscillator: a drift beyond DRIFT_LIM marks it for retraining (R416). -/
def oscCheck (s : State) (c : Fin 4) (drift : BitVec 16) : State :=
  if dramRuns s then
    let s1 := fput s (fldDCH_STAT_DRIFT c.val) drift.toNat
    if fget s fldDRAM_DRIFT_DRIFT_LIM < drift.toInt.natAbs then fputAt s1 fldDRAM_STAT_RETRAIN_PEND c.val true else s1
  else s

/-- OSC_CHECK. -/
def execOscCheck (c : DramChan) (drift : BitVec 16) (s : State) : Host.Outcome State Fault Refusal :=
  .next (oscCheck s c drift)

/-- DRAM_RETRAIN: RETRAIN marks every channel (R416). -/
def execDramRetrain (_agent : Agent) (s : State) : Host.Outcome State Fault Refusal :=
  .next (reply (fput s fldDRAM_STAT_RETRAIN_PEND 0xF) .ok 0 [])

/-- Every dirty check word of a channel is written back (R403, R416). -/
def checksBack (s : State) (c : Fin 4) : State := forEach s.dram[c].checks s (fun t e => checkBack t c e.1)

/-- A channel writes back its check words and everything it holds ends; what was requested of it is reissued once its
Crossing is ARMED again (R416). -/
def chanQuiet (s : State) (c : Fin 4) : State :=
  modDram (checksBack s c) c (fun ch =>
    { ch with
      rows := []
      queue := []
      returns := []
      waiting := ch.returns ++ ch.queue ++ ch.waiting })

/-- Whether a channel may start to retrain: pending, the lowest of those, one at a time; while a sweep program runs, one at
step 5 of each boundary (R416). -/
def mayRetrain (s : State) (c : Fin 4) : Bool :=
  fget s fldDRAM_STAT_STATE == 2 && fbitAt s fldDRAM_STAT_RETRAIN_PEND c.val &&
    (List.range c.val).all (fun k => !(fbitAt s fldDRAM_STAT_RETRAIN_PEND k)) &&
    (s.ddrForce.contains c.val || !(sweepRunning s) || (fget s fldSWP_STAT_STATE == 5 && !s.retrained))

/-- A channel starts to retrain: it lowers its clock-good flag (R39, R416). -/
def retrainStart (s : State) (c : Fin 4) : State :=
  if mayRetrain s c then
    let s1 := fset (fputAt (fput s fldDRAM_STAT_STATE 3) fldDRAM_STAT_RETRAIN_PEND c.val false) (fldDCH_STAT_RETRAINING c.val)
    let s2 := xingClockFall (chanQuiet s1 c) (Fin.ofNat 52 (38 + c.val))
    let s3 := { s2 with ddrForce := s2.ddrForce.filter (fun k => k != c.val) }
    if sweepRunning s then { s3 with retrained := true } else s3
  else s

/-- RETRAIN_START. -/
def execRetrainStart (c : DramChan) (s : State) : Host.Outcome State Fault Refusal := .next (retrainStart s c)

/-- Self-refresh is entered: remap entries are disarmed, check words written back, every row closed; tables, scrub position
and error addresses are lost (R417, R418). -/
def selfRefresh (s : State) : State :=
  let s1 := forEach (List.finRange 4) s (fun t c =>
    modDram (chanQuiet (forEach (List.range 8) t (fun u i => remapDisarm u c.val i)) c) c (fun ch =>
      { ch with checks := [], acts := [], raa := [], debt := [], scrub := 0, lapStart := t.chipTime }))
  let s2 := forEach [regDRAM_CE_ADDR_LO, regDRAM_CE_ADDR_HI, regDRAM_UE_ADDR_LO, regDRAM_UE_ADDR_HI] s1 (fun t a => wr t a 0)
  { fput s2 fldDRAM_STAT_STATE 4 with dramSelfReq := false }

/-- A self-refresh request from the supply block: at once in READY, held in RETRAIN (R417). -/
def selfRefreshRequest (s : State) : State :=
  if fget s fldDRAM_STAT_STATE = 2 then selfRefresh s
  else if fget s fldDRAM_STAT_STATE = 3 then { s with dramSelfReq := true }
  else s

/-- The wake of staging memory: self-refresh ends and the channels train again, without zeroing (R417). -/
def selfRefreshExit (s : State) : State :=
  if fget s fldDRAM_STAT_STATE = 4 then forEach (List.finRange 4) (lapsBegin (fput s fldDRAM_STAT_STATE 2)) trained else s

/-- Retraining ends: the flag rises, or TRAIN_FAIL sets and the Crossing stays WITHDRAWN (R417). -/
def retrainDone (s : State) (c : Fin 4) (ok : Bool) : State :=
  if fbit s (fldDCH_STAT_RETRAINING c.val) then
    let s1 := modDram (fclr s (fldDCH_STAT_RETRAINING c.val)) c (fun ch => { ch with debt := [] })
    if ok then
      let s2 := fput (xingClockRise (trained s1 c) (Fin.ofNat 52 (38 + c.val))) fldDRAM_STAT_STATE 2
      if s.dramSelfReq then selfRefresh s2 else s2
    else { fput (trainFail s1 c) fldDRAM_STAT_STATE 5 with dramSelfReq := false }
  else s

/-- RETRAIN_DONE. -/
def execRetrainDone (c : DramChan) (ok : Bool) (s : State) : Host.Outcome State Fault Refusal :=
  .next (retrainDone s c ok)

end Machine
end Sys2Proof
end

