-- ==== Sys2Proof/Machine/Session.lean ====
section
/-! DEFINITION. Admin sessions, media keys, and the journaled operations FORMAT, SANITISE and KEY_CHANGE (R464 to R474). -/

namespace Sys2Proof
namespace Machine

/-! ### Media keys (R464 to R466) -/

/-- Whether the mounted disc is formatted with ENCRYPT. -/
def discEncrypted (s : State) : Bool := s.disc.mounted && (match s.disc.format with | some f => f.encrypt | none => false)

/-- KEY_STAT.MEDIA: no disc or a clear one, locked, unlocked. -/
def mediaShow (s : State) : State :=
  fput s fldKEY_STAT_MEDIA (if !(discEncrypted s) then 0 else if s.arv.mediaKey.isSome then 2 else 1)

/-- The unwrapped media key is dropped. -/
def keyDrop (s : State) : State := mediaShow (modArv s (fun a => { a with mediaKey := none }))

/-- The key encryption key. -/
def kekOf (salt key : List Byte) : List Byte := sha256 (salt ++ key)

/-- A slot of the wrapped media key record for a key: 16 bytes of salt_k from the generator, and the wrapped key. -/
def slotWrap (s : State) (key media : List Byte) : State × (List Byte × List Byte) :=
  let salt := freeBytes s 16
  (tickFrees s 16, (salt, keyWrap (kekOf salt key) media))

/-- A catalogue snapshot's body (R456): whether it is a DELTA, the FULL it builds on, and its entries. -/
def catBody (b : List Byte) : Bool × Nat × List CatEntry :=
  let n := beNat ((b.drop 4).take 4)
  (b.headD 0 == 1, beNat ((b.drop 8).take 8), (List.range n).map (fun i => catParse ((b.drop (16 + 128 * i)).take 128)))

/-- The FULL in force: its sequence and its entries. -/
def catFullOf (recs : List (Nat × List Byte)) : Option (Nat × List CatEntry) :=
  (recs.map (fun r => (r.1, catBody r.2))).foldl (fun (best : Option (Nat × List CatEntry)) r =>
    if r.2.1 then best
    else match best with
    | some b => if b.1 < r.1 then some (r.1, r.2.2.2) else best
    | none => some (r.1, r.2.2.2)) none

/-- The deltas on a FULL, in sequence order. -/
def catDeltasOf (recs : List (Nat × List Byte)) (q : Nat) : List (Nat × Bool × Nat × List CatEntry) :=
  ((recs.map (fun r => (r.1, catBody r.2))).filter (fun r => r.2.1 && r.2.2.1 == q && decide (q < r.1))).mergeSort
    (fun a b => decide (a.1 ≤ b.1))

/-- The catalogue that snapshots give: the FULL of the highest sequence, then every DELTA on it in sequence order; an entry of
STATE 0 removes its OID (R456). -/
def catBuild (recs : List (Nat × List Byte)) : List CatEntry :=
  match catFullOf recs with
  | none => []
  | some (q, base) =>
    (catDeltasOf recs q).foldl (fun l r => r.2.2.2.foldl (fun l e => if e.st = 0 then l.filter (fun x => x.oid != e.oid) else catInsert l e) l)
      (base.foldl catInsert [])

/-- The sectors of an encrypted snapshot's body, decrypted (R456). -/
def catDecrypt (key : List Byte) (seq : Nat) (b : List Byte) : List Byte :=
  ((List.range ((b.length + 4095) / 4096)).map (fun i =>
    xtsDecrypt key (2 ^ 63 + seq * 2 ^ 16 + i) ((b.drop (4096 * i)).take 4096))).flatten

/-- The catalogue is rebuilt from snapshots, and the next snapshot builds on them. -/
def catLoad (s : State) (recs : List (Nat × List Byte)) : State :=
  let q := ((catFullOf recs).map (·.1)).getD 0
  modArv (catStore s (catBuild recs)) (fun a =>
    { a with
      catSnap := a.cat
      catFull := q
      catDeltas := (catDeltasOf recs q).foldl (fun n r => n + r.2.2.2.length) 0 })

/-- Unlock the mounted disc with an admin key: the media key of the first slot whose integrity check passes; the catalogue is
then rebuilt (R456, R466). -/
def mediaUnlock (s : State) (key : List Byte) : State :=
  if !(discEncrypted s) || s.arv.mediaKey.isSome then s
  else match s.disc.keySlots.findSome? (fun k => keyUnwrap (kekOf k.1 key) k.2) with
  | none => s
  | some m =>
    let s1 := mediaShow (modArv s (fun a => { a with mediaKey := some m }))
    modDisc (catLoad s1 (s.disc.catRecs.map (fun r => (r.1, catDecrypt m r.1 r.2)))) (fun d => { d with catRecs := [] })

/-! ### The journal (R474) -/

/-- The entry in force. -/
def jnlHead (s : State) : Option JnlEntry := s.arv.journal.head?

/-- JNL_STAT from an operation, its phase and its progress; with no tiles in all the quotient is free. -/
def jnlShow (s : State) (op phase done total : Nat) : State :=
  let s1 := fput (fput s fldJNL_STAT_OP op) fldJNL_STAT_PHASE phase
  if op = 0 then fput s1 fldJNL_STAT_PERMILLE 0
  else if total = 0 then tickFree (fput s1 fldJNL_STAT_PERMILLE (freeNat s 1))
  else fput s1 fldJNL_STAT_PERMILLE (done * 1000 / total)

/-- Write a journal entry: ENTRY_SEQ and PROG_SEQ rise, the ring keeps 1,024, and the mirror follows at every change of phase
and after MIRROR_EVERY entries. -/
def jnlWrite (s : State) (op phase zone next done total : Nat) (body : List Byte) (change : Bool) : State :=
  let last := jnlHead s
  let prog := Nat.max ((last.map (·.progSeq)).getD 0) ((s.disc.mirror.map (·.progSeq)).getD 0) + 1
  let e : JnlEntry := ⟨(last.map (·.seq)).getD 0 + 1, s.disc.serial, op, phase, zone, next, prog, done, total, body⟩
  let mirror := change || decide (Nat.max 1 (fget s fldJNL_CFG_MIRROR_EVERY) ≤ s.arv.sinceMirror + 1)
  let s1 := modArv s (fun a =>
    { a with
      journal := (e :: a.journal).take 1024
      sinceMirror := if mirror then 0 else a.sinceMirror + 1 })
  jnlShow (count (sif mirror s1 (fun t => modDisc (recMirror t (jnlBytes e)) (fun d => { d with mirror := some e }))) 498) op phase done total

/-- A journaled operation ends: an entry with OP 0 is written and mirrored, JNL_DONE sets, and an event carries the status
(R471, R473). -/
def jnlEnd (s : State) (status : Nat) : State :=
  let s1 := fset (fclr (jnlWrite s 0 0 0 0 0 0 [] true) fldJNL_STAT_WAIT_SESSION) fldKEY_STAT_JNL_DONE
  eventLog (modArv s1 (fun a => { a with opKey := [], opCtx := none })) status 0

/-! ### Phases of the operations -/

/-- SPAN, OBJECT and ENCRYPT of a parameter block (R472). -/
def paramFormat (b : List Byte) (state : Nat) : FormatRec :=
  ⟨state, (b.headD 0).getLsbD 0, leNat ((b.drop 16).take 48), leNat ((b.drop 64).take 48)⟩

/-- What a phase has done when the operation leaves it. -/
def phaseDone (s : State) (op phase : Nat) (body : List Byte) : State :=
  match op, phase with
  | 1, 1 =>
    if (paramFormat body 1).encrypt then
      let media := freeBytes s 64
      let (s1, slot) := slotWrap (tickFrees s 64) s.arv.opKey media
      modArv (modDisc (recWide s1 5 (keyBody [slot])) (fun d => { d with keySlots := [slot] })) (fun a => { a with mediaKey := some media })
    else s
  | 1, 2 =>
    forEach ((sidesOf s).flatMap (fun x => (List.range s.disc.layers).map (fun l => (x, l)))) s (fun t p =>
      defectWrite (modDisc t (fun d => { d with defects := aset d.defects (16 * p.1 + p.2) [] })) p.1 p.2)
  | 1, 3 => siSnapshot (modDisc (siStore s []) (fun d => { d with zones := [] }))
  | 1, 4 =>
    let s1 := modArv (catStore s []) (fun a => { a with catFull := 0 })
    let s2 := catWrite (modDisc s1 (fun d => { d with format := some (paramFormat body 1) }))
    modDisc s2 (fun d => { d with format := s.disc.format })
  | 2, 0 => keyDrop (modDisc (recDrop s [5]) (fun d => { d with keySlots := [] }))
  | 2, 2 =>
    modArv (modDisc (catStore (siStore (recDrop s [2, 3, 4]) []) []) (fun d => { d with zones := [], snapZones := [], catRecs := [], defects := [] }))
      (fun a => { a with catSnap := [], catFull := 0, catDeltas := 0 })
  | 3, 1 =>
    match s.arv.mediaKey with
    | some m =>
      let (s1, slot) := slotWrap s s.arv.opKey m
      let slots := slot :: s1.disc.keySlots.take 1
      modDisc (recWide s1 5 (keyBody slots)) (fun d => { d with keySlots := slots })
    | none => s
  | 3, 2 =>
    fset (modArv s (fun a => { a with verifier := some (body.take 32, (body.drop 32).take 32) })) fldKEY_STAT_KEY_SET
  | _, _ => s

/-- Every phase from one up to another is done. -/
def phasesDone (s : State) (op : Nat) (lo hi : Nat) (body : List Byte) : State :=
  forEach ((List.range 16).filter (fun p => decide (lo ≤ p) && decide (p < hi))) s (fun t p => phaseDone t op p body)

/-- The format record is written (R472). -/
def formatWrite (s : State) (f : FormatRec) : State := modDisc (recWide s 1 (formatBody s f)) (fun d => { d with format := some f })

/-- The last work of an operation, and its end. -/
def opFinish (s : State) (op : Nat) (body : List Byte) : State :=
  match op with
  | 1 => jnlEnd (mediaShow (formatWrite s (paramFormat body 1))) stSuccess
  | 2 => jnlEnd (mediaShow (formatWrite s { s.disc.format.getD ⟨2, false, 0, 0⟩ with state := 2 })) stSuccess
  | 3 =>
    let s1 := modArv (modDisc (recWide s 5 (keyBody (s.disc.keySlots.take 1))) (fun d => { d with keySlots := d.keySlots.take 1 })) (fun a =>
      { a with sessions := a.sessions.map (fun x => if a.opKey.isEmpty then x else { x with key := a.opKey }) })
    let s2 := jnlEnd s1 stSuccess
    match s.arv.opCtx with
    | some c => hostComplete s2 c stSuccess 0
    | none => s2
  | _ => s

/-- The last phase of an operation. -/
def opLast (op : Nat) : Nat := match op with | 1 => 5 | 2 => 3 | 3 => 3 | _ => 0

/-- JOURNAL_ENTRY_WRITE: the operation that runs has come as far as it says; phases that it has left are done, and an entry is
written.  A FORMAT that waits for a session does not move. -/
def journalStep (s : State) (now : JnlProgress) : State :=
  let op := fget s fldJNL_STAT_OP
  let ph := fget s fldJNL_STAT_PHASE
  let upTo := if now.ended then opLast op else Nat.min (opLast op) now.phase.val
  match jnlHead s with
  | some e =>
    if op = 0 ∨ fbit s fldJNL_STAT_WAIT_SESSION ∨ upTo < ph then s
    else
      let s1 := phasesDone s op ph upTo e.body
      if now.ended then opFinish s1 op e.body
      else jnlWrite s1 op upTo now.zone.toNat now.nextTile.toNat now.tilesDone.toNat now.tilesTotal.toNat e.body (upTo != ph)
  | none => s

def execJournalEntryWrite (now : JnlProgress) (s : State) : Host.Outcome State Fault Refusal := .next (journalStep s now)

/-! ### Sessions (R467 to R469) -/

/-- The bytes of a command's buffer: exactly n, or the status that ends it. -/
def adminData (s : State) (c : HostCtx) (n : Nat) (data : Option (List Byte)) (f : State → List Byte → State) : State :=
  if ctxLen c ≠ n then hostComplete s c.num stInvalidField 0
  else match data with
  | none => hostComplete (fset s fldHOST_STAT_DMA_ERR) c.num stDataTransfer 0
  | some b => f s (b.take n ++ List.replicate (n - b.length) 0)

/-- The open session that a command names on its port. -/
def sessionOf (s : State) (c : HostCtx) : Option Session :=
  s.arv.sessions.find? (fun x => x.port == c.port && x.handle == ctxSession c)

/-- Run a command that requires a session; the session's idle time begins again. -/
def inSession (s : State) (c : HostCtx) (f : State → Session → State) : State :=
  match sessionOf s c with
  | none => hostComplete s c.num stSessionRequired 0
  | some x => f (modArv s (fun a => { a with sessions := a.sessions.map (fun y => if y = x then { y with time := s.chipTime } else y) })) x

/-- Whether a key is the admin key. -/
def keyRight (s : State) (key : List Byte) : Bool :=
  match s.arv.verifier with
  | some (salt, v) => sha256 (salt ++ key) == v
  | none => false

/-- A right key: FAILS is 0, a session opens with a handle from the generator, the disc unlocks, and a FORMAT that waits for a
session resumes (R465, R466, R475). -/
def sessionOpen (s : State) (c : HostCtx) (key : List Byte) : State :=
  let handle := freeNat s 1
  let s1 := fput (tickFree s) fldKEY_STAT_FAILS 0
  let s2 := modArv s1 (fun a => { a with sessions := a.sessions ++ [⟨handle, c.port, s.chipTime, key⟩] })
  let s3 := mediaUnlock (fput s2 fldKEY_STAT_SESSIONS s2.arv.sessions.length) key
  let s4 := if fbit s3 fldJNL_STAT_WAIT_SESSION then
      modArv (fclr s3 fldJNL_STAT_WAIT_SESSION) (fun a => { a with opKey := key })
    else s3
  hostComplete (count s4 496) c.num stSuccess handle

/-- A wrong key: FAILS counts, the fifth sets LOCKOUT, and the attempt waits out its 100 ms. -/
def sessionFail (s : State) (c : HostCtx) : State :=
  let n := fget s fldKEY_STAT_FAILS + 1
  let s1 := modArv (fput s fldKEY_STAT_FAILS n) (fun a => { a with waiting := a.waiting ++ [c.num] })
  if n = 5 then fset (fset s1 fldKEY_STAT_LOCKOUT) fldKEY_STAT_LOCKED_OUT else s1

/-- OPEN_SESSION; while an attempt waits out its 100 ms the store takes no other. -/
def openSession (key : Option (List Byte)) (s : State) (c : HostCtx) : State :=
  if s.arv.waiting ≠ [] then s
  else if fbit s fldKEY_STAT_LOCKOUT then hostComplete s c.num stSessionLocked 0
  else if 4 ≤ s.arv.sessions.length then hostComplete s c.num stInvalidField 0
  else adminData s c 32 key (fun s k => if keyRight s k then sessionOpen s c k else sessionFail s c)

def execOpenSession (ctx : Fin 4096) (key : Option (List (BitVec 8))) (s : State) : Host.Outcome State Fault Refusal :=
  .next (hostCmd s ctx.val 0x30 (openSession key))

/-- KEY_MISMATCH_DELAY: the attempt that was taken completes KEY_MISMATCH. -/
def execKeyMismatchDelay (s : State) : Host.Outcome State Fault Refusal :=
  .next (match s.arv.waiting with
    | [] => s
    | n :: rest => hostComplete (count (modArv s (fun a => { a with waiting := rest })) 497) n stKeyMismatch 0)

/-- CLOSE_SESSION. -/
def execCloseSession (ctx : Fin 4096) (s : State) : Host.Outcome State Fault Refusal :=
  .next (hostCmd s ctx.val 0x31 (fun s c => inSession s c (fun s x =>
    hostComplete (sessionsClose s (fun y => y.port == x.port && y.handle == x.handle)) c.num stSuccess 0)))

/-- SESSION_TIMEOUT: an open session closes on IDLE_TIMEOUT. -/
def execSessionTimeout (handle : BitVec 32) (s : State) : Host.Outcome State Fault Refusal :=
  .next (if s.arv.sessions.any (fun y => y.handle == handle.toNat) then
      fset (sessionsClose s (fun y => y.handle == handle.toNat)) fldKEY_STAT_TIMEOUT
    else s)

/-- LOCK_MEDIA. -/
def execLockMedia (ctx : Fin 4096) (s : State) : Host.Outcome State Fault Refusal :=
  .next (hostCmd s ctx.val 0x36 (fun s c => inSession s c (fun s _ => hostComplete (keyDrop s) c.num stSuccess 0)))

/-- PROGRESS: OP, PHASE and PERMILLE. -/
def execProgress (ctx : Fin 4096) (s : State) : Host.Outcome State Fault Refusal :=
  .next (hostCmd s ctx.val 0x35 (fun s c =>
    hostComplete s c.num stSuccess
      (fget s fldJNL_STAT_OP * 2 ^ 60 + fget s fldJNL_STAT_PHASE * 2 ^ 56 + fget s fldJNL_STAT_PERMILLE * 2 ^ 46)))

/-! ### SET_ADMIN_KEY (R470) -/

/-- A new verifier: salt_v from the generator, and the digest. -/
def newVerifier (s : State) (key : List Byte) : List Byte := freeBytes s 32 ++ sha256 (freeBytes s 32 ++ key)

/-- The key change: only step 2 without an encrypted writable disc, else a journaled KEY_CHANGE. -/
def keyChange (s : State) (c : HostCtx) (old : List Byte) (key : List Byte) : State :=
  let body := newVerifier s key
  let s0 := tickFrees s 32
  if !(discEncrypted s) || discReadOnly s then
    let s1 := phaseDone s0 3 2 body
    hostComplete (modArv s1 (fun a => { a with sessions := a.sessions.map (fun x => { x with key := key }) })) c.num stSuccess 0
  else
    let s1 := mediaUnlock s0 old
    if s1.arv.mediaKey.isNone then hostComplete s c.num stNotReady 0
    else jnlWrite (modArv s1 (fun a => { a with opKey := key, opCtx := some c.num })) 3 1 0 0 0 0 body true

/-- SET_ADMIN_KEY: a session is required once a key is set; the OAC-7208R takes it only while none is. -/
def setAdminKey (key : Option (List Byte)) (s : State) (c : HostCtx) : State :=
  let take (s : State) (old : List Byte) : State :=
    if jnlRuns s then hostComplete s c.num stInProgress 0
    else adminData s c 32 key (fun s k => keyChange s c old k)
  if s.arv.opCtx = some c.num then s
  else match s.arv.verifier with
  | none => take s []
  | some _ =>
    if !(writePresent s.variant) then hostComplete s c.num stUnsupported 0
    else inSession s c (fun s x => take s x.key)

def execSetAdminKey (ctx : Fin 4096) (key : Option (List (BitVec 8))) (s : State) : Host.Outcome State Fault Refusal :=
  .next (hostCmd s ctx.val 0x32 (setAdminKey key))

/-! ### FORMAT and SANITISE (R471 to R473) -/

/-- The status that keeps FORMAT and SANITISE from a disc; none if nothing does. -/
def adminGate (s : State) : Option Nat :=
  if s.disc.searched && !s.disc.present then some stNoMedium
  else if !s.disc.mounted then some stNotReady
  else if jnlRuns s then some stInProgress
  else none

/-- Whether a parameter block is legal on the variant. -/
def paramLegal (s : State) (b : List Byte) : Bool :=
  let f := paramFormat b 1
  let zero (l : List Byte) : Bool := l.all (fun x => x == 0)
  decide ((b.headD 0).toNat < 2) && zero ((b.drop 1).take 15) && zero (b.drop 112) &&
    (spanEncPresent s.variant || f.span == 0) && (archivePresent s.variant || f.object == 0)

/-- FORMAT: the first journal entry is written, and the command completes. -/
def formatCmd (block : Option (List Byte)) (s : State) (c : HostCtx) : State :=
  if !(writePresent s.variant) then hostComplete s c.num stUnsupported 0
  else inSession s c (fun s x =>
    match adminGate s with
    | some st => hostComplete s c.num st 0
    | none =>
      if s.disc.family ≠ 1 then hostComplete s c.num stWriteProtected 0
      else if s.disc.format.isSome then hostComplete s c.num stInvalidField 0
      else adminData s c 4096 block (fun s b =>
        if !(paramLegal s b) then hostComplete s c.num stInvalidField 0
        else
          let s1 := modArv s (fun a => { a with opKey := x.key })
          hostComplete (jnlWrite s1 1 1 0 0 0 0 (b.take 112) true) c.num stSuccess 0))

def execFormat (ctx : Fin 4096) (block : Option (List (BitVec 8))) (s : State) : Host.Outcome State Fault Refusal :=
  .next (hostCmd s ctx.val 0x33 (formatCmd block))

/-- Whether an I/O command has begun and not completed. -/
def ioBegun (s : State) : Bool := s.host.ctxs.any (fun c => c.qp != 0 && c.begun && c.done.isNone)

/-- SANITISE: it waits, with no I/O command fetched, until every accepted write is on the medium and every I/O command begun
has completed; then the first entry is written, the key is dropped, and the command completes. -/
def sanitiseCmd (onMedium : Bool) (s : State) (c : HostCtx) : State :=
  let s0 := modArv s (fun a => { a with sanWait := a.sanWait.filter (fun n => n != c.num) })
  if !(writePresent s.variant) then hostComplete s0 c.num stUnsupported 0
  else inSession s0 c (fun s _ =>
    match adminGate s with
    | some st => hostComplete s c.num st 0
    | none =>
      if s.arv.sanWait.isSome then hostComplete s c.num stInProgress 0
      else if !onMedium || ioBegun s then modArv s (fun a => { a with sanWait := some c.num })
      else
        let s1 := modDisc s (fun d => { d with accepted := [] })
        let ph := if discEncrypted s then 0 else 1
        hostComplete (jnlWrite (keyDrop s1) 2 ph 0 0 0 0 [] true) c.num stSuccess 0)

def execSanitise (ctx : Fin 4096) (onMedium : Bool) (s : State) : Host.Outcome State Fault Refusal :=
  .next (hostCmd s ctx.val 0x34 (sanitiseCmd onMedium))

end Machine
end Sys2Proof
end

