-- ==== Sys2Proof/Machine/Mount.lean ====
section
/-! DEFINITION. Mounting and removing a disc: the disc information block (R90), management records (R91 to R93), rebuilding
the Street Index and the catalogue (R449, R456), and resuming the journal (R475). -/

namespace Sys2Proof
namespace Machine

/-- A management record whose checks are good (R91): the PTA of its first tile, type, sequence, body. -/
structure MgmtRec where
  pta : Nat
  kind : Nat
  seq : Nat
  body : List Byte
deriving DecidableEq, Repr

/-- A number of a record's header or body, most significant byte first. -/
def recNum (b : List Byte) (off n : Nat) : Nat := beNat ((b.drop off).take n)

/-- A copy with its magic value, header CRC and body CRC good, where its type belongs. -/
def recParse (m : MgmtCopy) : Option MgmtRec :=
  let b := m.bytes
  let body := (b.drop 64).take (recNum b 16 4)
  if recNum b 0 4 = 0x4F524D52 ∧ recNum b 60 4 = crc32 (b.take 60) ∧ body.length = recNum b 16 4 ∧ recNum b 20 4 = crc32 body ∧
      recPlaced (recNum b 4 2) m.pta.toNat then
    some ⟨m.pta.toNat, recNum b 4 2, recNum b 8 8, body⟩
  else none

/-- The copy in force: the highest sequence, and of equal ones that of side A; of two on one side the first one listed (R93; the
spec names only the sides: DESIGN CHOICE, log 103). -/
def recBest (l : List MgmtRec) : Option MgmtRec :=
  l.foldl (fun best r =>
    match best with
    | none => some r
    | some b => if b.seq < r.seq ∨ (b.seq = r.seq ∧ ptaSide r.pta < ptaSide b.pta) then some r else best) none

/-- Whether two valid copies of one sequence differ. -/
def recDiffer (l : List MgmtRec) : Bool := l.any (fun a => l.any (fun b => a.seq == b.seq && a.body != b.body))

/-- The copies of a type. -/
def recsOf (l : List MgmtRec) (kind : Nat) : List MgmtRec := l.filter (fun r => r.kind == kind)

/-- The format record's fields (R472). -/
def formatParse (b : List Byte) : FormatRec :=
  ⟨recNum b 8 1, (b.getD 10 0).getLsbD 0, leNat ((b.drop 16).take 48), leNat ((b.drop 64).take 48)⟩

/-- The slots of a wrapped media key record (R465). -/
def slotsParse (b : List Byte) : List (List Byte × List Byte) :=
  (List.range (Nat.min 2 (recNum b 0 1))).map (fun i => ((b.drop (16 + 128 * i)).take 16, (b.drop (32 + 128 * i)).take 72))

/-- A journal entry (R474); none where its magic or CRC is bad. -/
def jnlParse (b : List Byte) : Option JnlEntry :=
  if recNum b 0 4 = 0x4F524A4E ∧ recNum b 252 4 = crc32 (b.take 252) then
    some ⟨recNum b 4 4, recNum b 8 8, recNum b 16 1, recNum b 17 1, recNum b 18 2, recNum b 20 4, recNum b 24 8,
      recNum b 32 8, recNum b 40 8, (b.drop 48).take 160⟩
  else none

/-- A Street Index entry from its 32 bytes (R447). -/
def siParse (b : List Byte) : SiEntry :=
  ⟨entryNum b 0 8, entryNum b 8 4, entryNum b 12 4, entryNum b 16 2, entryNum b 18 1, entryNum b 19 1, entryNum b 20 1⟩

/-- Zones of a Street Index snapshot (R449). -/
def snapZonesOf (b : List Byte) : List (Nat × Zone) :=
  (List.range (recNum b 0 4)).map (fun n =>
    let z := b.drop (16 + 16 * n)
    (n, (⟨recNum z 4 1, recNum z 0 4, recNum z 5 1, []⟩ : Zone)))

/-- The entries of a snapshot whose HEADS differ from their zone's first. -/
def snapExceptions (b : List Byte) : List SiEntry :=
  let base := 16 + 16 * recNum b 0 4
  (List.range (recNum b 4 4)).map (fun i => siParse ((b.drop (base + 32 * i)).take 32))

/-- A run without the blocks of another entry. -/
def runCut (s : State) (x e : SiEntry) : List SiEntry :=
  if e.lba + e.count ≤ x.lba ∨ x.lba + x.count ≤ e.lba then [x]
  else
    let stop := e.lba + e.count
    (if x.lba < e.lba then [{ x with count := e.lba - x.lba }] else []) ++
      (if stop < x.lba + x.count then
        [{ x with
            lba := stop
            count := x.lba + x.count - stop
            pta := zonePta s x.hzone x.heads (stop % zoneBlocks / 32)
            sector := stop % 32 }]
      else [])

/-- Rebuild the index from the zones, the exceptions and the defect lists (R449). -/
def indexBuild (s : State) (zones : List (Nat × Zone)) (exceptions : List SiEntry) (moved : List (Nat × Nat)) : State :=
  let runs := (zones.filter (fun z => decide (0 < z.2.wp))).map (fun z =>
    (⟨z.1 * zoneBlocks, z.2.wp, zonePta s z.1 z.2.heads 0, z.1, 0, z.2.heads, (zoneSpan s z.1).toNat⟩ : SiEntry))
  let all := exceptions.foldl (fun l e => siInsert (l.flatMap (fun x => runCut s x e)) e) runs
  forEach moved (siStore s all) (fun t p => siReplace t p.1 p.2)

/-- The entries of a defect list (R199). -/
def defectParse (b : List Byte) : List DefectEntry :=
  (List.range (recNum b 2 4)).map (fun i =>
    let e := b.drop (16 + 16 * i)
    ⟨recNum e 0 4, recNum e 4 4, recNum e 8 4, recNum e 12 1, recNum e 13 1, (e.getD 14 0).getLsbD 0⟩)

/-- Re-placed tiles of a defect list, oldest first; 0xFFFF_FFFF is not yet placed. -/
def defectMoves (b : List Byte) : List (Nat × Nat) :=
  ((defectParse b).map (fun e => (e.old, e.new))).filter (fun p => p.2 != ptaNone)

/-- The defect list in force of every side and layer. -/
def defectLists (l : List MgmtRec) : List MgmtRec :=
  (List.range 32).filterMap (fun k =>
    recBest ((recsOf l 2).filter (fun r => recNum r.body 0 1 == k / 16 && recNum r.body 1 1 == k % 16)))

/-- The catalogue snapshots, one copy of each sequence: that of side A where copies differ (R93, R456). -/
def catSnaps (l : List MgmtRec) : List (Nat × List Byte) :=
  let c := recsOf l 4
  let one := c.filter (fun r => !(c.any (fun x => x.seq == r.seq && decide (ptaSide x.pta < ptaSide r.pta))))
  one.foldl (fun acc r => if acc.any (fun p => p.1 == r.seq) then acc else acc ++ [(r.seq, r.body)]) []

/-- JNL_STAT when no operation runs: a pending entry of another disc shows. -/
def jnlIdle (s : State) : State :=
  let pend : Bool := match jnlHead s with
    | some e => e.op != 0 && !(s.disc.mounted && e.serial == s.disc.serial)
    | none => false
  fputB (fclr (jnlShow s 0 0 0 0) fldJNL_STAT_WAIT_SESSION) fldJNL_STAT_PENDING_OTHER pend

/-- Resume the operation of the on-die entry or the mirror, whichever has the higher PROG_SEQ, the on-die entry where they
are equal; a FORMAT in step 1 waits for a session, a KEY_CHANGE in step 1 ends (R470, R475). -/
def jnlResume (s : State) : State :=
  let die := (jnlHead s).filter (fun e => e.serial == s.disc.serial)
  let mir := s.disc.mirror.filter (fun e => e.serial == s.disc.serial)
  let pick := match die, mir with
    | some d, some m => if d.progSeq < m.progSeq then some m else some d
    | some d, none => some d
    | none, m => m
  match pick with
  | none => jnlIdle s
  | some e =>
    if e.op = 0 ∨ 3 < e.op then jnlIdle s
    else
      let next := ((jnlHead s).map (·.seq)).getD 0 + 1
      let s0 := if die = some e then s
        else modArv s (fun a => { a with journal := ({ e with seq := next } :: a.journal).take 1024 })
      let s1 := fclr (jnlShow s0 e.op e.phase e.done e.total) fldJNL_STAT_PENDING_OTHER
      if e.op = 3 ∧ e.phase = 1 then jnlEnd s1 stWriteFault
      else fputB s1 fldJNL_STAT_WAIT_SESSION (e.op == 1 && e.phase == 1)

/-- Two valid copies of one sequence differ: MGMT_COPY_MISMATCH. -/
def reportDiffer (s : State) (l : List MgmtRec) : State :=
  if (([1, 2, 3, 4, 5, 6] : List Nat).any (fun k => recDiffer (recsOf l k))) then eventLog (countStatus s stCopyMismatch) stCopyMismatch 0
  else s

/-- The next tile of the record areas that the free tiles do not give: past every copy there (R89). -/
def recNexts (l : List MgmtRec) : List (Nat × Nat) :=
  l.foldl (fun m r =>
    match recWhich r.pta with
    | some w =>
      if ptaLayer r.pta = 0 ∧ w ≠ 2 then m
      else
        let key := recKey (ptaSide r.pta) (ptaLayer r.pta) w
        let past := ptaBand r.pta * areaK (ptaArea r.pta) + ptaSlot r.pta + recordTiles r.body.length
        aset m key (Nat.max ((aget? m key).getD 0) past)
    | none => m) []

/-- The records that a mount finds, as the disc holds them. -/
def recsHeld (records : List MgmtCopy) : List DiscRec :=
  records.filterMap (fun m => (recParse m).map (fun r => (⟨r.pta, r.kind, r.seq, m.bytes⟩ : DiscRec)))

/-- DISC_MOUNT: with no disc found the search ends; else the block and the records are read, the index and the catalogue
rebuilt, and a journaled operation resumes. -/
def discMount (s : State) (info : Option (List Byte)) (records : List MgmtCopy) (freeA freeB : Nat) : State :=
  if s.disc.mounted then s
  else match info with
  | none => jnlIdle (modDisc s (fun d => { d with searched := true, present := false }))
  | some b =>
    let l := records.filterMap recParse
    let body (k : Nat) : Option (List Byte) := (recBest (recsOf l k)).map (·.body)
    let zones := ((body 3).map snapZonesOf).getD []
    let s1 := modDisc s (fun _ =>
      { Disc.none with
        searched := true
        present := true
        mounted := true
        serial := recNum b 0 8
        layers := recNum b 9 1
        family := recNum b 14 1
        format := (body 1).map formatParse
        free := (freeA, freeB)
        zones := zones
        snapZones := zones
        keySlots := ((body 5).map slotsParse).getD []
        mirror := (body 6).bind jnlParse
        recSeq := l.foldl (fun m r => Nat.max m r.seq) 0
        info := b
        records := recsHeld records
        recNext := recNexts l
        defects := (defectLists l).map (fun r => (16 * recNum r.body 0 1 + recNum r.body 1 1, defectParse r.body)) })
    let s2 := indexBuild s1 zones (((body 3).map snapExceptions).getD []) ((defectLists l).flatMap (fun r => defectMoves r.body))
    let s3 := if discEncrypted s2 then modDisc s2 (fun d => { d with catRecs := catSnaps l }) else catLoad s2 (catSnaps l)
    jnlResume (mediaShow (reportDiffer s3 l))

def execDiscMount (info : Option (List (BitVec 8))) (records : List MgmtCopy) (freeA freeB : Nat) (s : State) :
    Host.Outcome State Fault Refusal := .next (discMount s info records freeA freeB)

/-- Whether a context waits for the disc: an I/O command that has begun, or the admin command whose operation runs or waits. -/
def awaitsDisc (s : State) (c : HostCtx) : Bool :=
  c.done.isNone && ((c.qp != 0 && c.begun) || s.arv.opCtx == some c.num || s.arv.sanWait == some c.num)

/-- DISC_REMOVAL: the media key is dropped, and what the controller knew of the disc with it; commands that wait for the disc
complete NO_MEDIUM (DEDUCED, log 67). -/
def execDiscRemoval (s : State) : Host.Outcome State Fault Refusal :=
  .next (
    let s0 := forEach (s.host.ctxs.filter (awaitsDisc s)) s (fun t c => hostComplete t c.num stNoMedium 0)
    let s1 := catStore (siStore (keyDrop s0) []) []
    let s2 := modArv s1 (fun a => { a with puts := [], audits := [], opKey := [], opCtx := none, sanWait := none, catSnap := [], catFull := 0, catDeltas := 0 })
    jnlIdle (mediaShow (modDisc s2 (fun _ => { Disc.none with searched := true }))))

end Machine
end Sys2Proof
end

