-- ==== Sys2Proof/Machine/Operands.lean ====
section
/-! DEFINITION. DX64 instruction words (R351, R352): the formats, which words are legal, the operands an instruction reads and
the register it writes (R345). -/

namespace Sys2Proof
namespace Machine

/-! ### Fields of a word -/

def dxOp (w : Word) : Nat := bitsOf w.toNat 31 25
def dxA (w : Word) : Nat := bitsOf w.toNat 24 20
def dxB (w : Word) : Nat := bitsOf w.toNat 19 15
def dxC (w : Word) : Nat := bitsOf w.toNat 14 10

/-- IMM15 and OFF15, sign-extended. -/
def dxImm15 (w : Word) : DWord := (w.extractLsb' 0 15).signExtend 64

/-- IMM20, sign-extended. -/
def dxImm20 (w : Word) : DWord := (w.extractLsb' 0 20).signExtend 64

/-! ### Which words are legal -/

/-- The atomics: LR, SC, the AMO instructions, CAS. -/
def dxAtomic (op : Nat) : Bool := decide (0x42 ≤ op) && decide (op ≤ 0x48)

/-- Every opcode of the table. -/
def dxListed (op : Nat) : Bool :=
  (decide (0x01 ≤ op) && decide (op ≤ 0x13)) || (decide (0x18 ≤ op) && decide (op ≤ 0x21)) || op == 0x24 || op == 0x25 ||
  (decide (0x28 ≤ op) && decide (op ≤ 0x2E)) || (decide (0x30 ≤ op) && decide (op ≤ 0x33)) ||
  (decide (0x38 ≤ op) && decide (op ≤ 0x49)) || (decide (0x50 ≤ op) && decide (op ≤ 0x56)) ||
  (decide (0x60 ≤ op) && decide (op ≤ 0x64))

/-- Whether every field that the formats show as zero holds zero. -/
def dxZeros (w : Word) : Bool :=
  let op := dxOp w
  let z (hi lo : Nat) : Bool := bitsOf w.toNat hi lo == 0
  if op = 0x13 then z 14 0
  else if op ≤ 0x12 ∨ op = 0x60 ∨ op = 0x61 ∨ op = 0x62 then z 9 0
  else if op = 0x42 then z 14 10 && z 7 0
  else if dxAtomic op then z 7 0
  else if op = 0x1C ∨ op = 0x1D ∨ op = 0x1E then z 14 6
  else if op = 0x49 then z 24 15 && z 14 7
  else if op = 0x50 ∨ op = 0x51 ∨ op = 0x52 then z 24 0
  else if op = 0x53 then z 19 15 && z 14 12
  else if op = 0x54 ∨ op = 0x55 ∨ op = 0x56 then z 14 12
  else if op = 0x63 then z 19 0
  else if op = 0x64 then z 24 20 && z 14 4 && decide (bitsOf w.toNat 3 0 ≤ 9)
  else true

/-- A legal word (R351, R352, R383). -/
def dxLegal (w : Word) : Bool := dxListed (dxOp w) && dxZeros w

/-! ### Registers of a core (R345) -/

/-- Change one core. -/
def modCore (s : State) (p : Fin 4) (f : Core → Core) : State := { s with core := s.core.set p (f s.core[p]) }

/-- The value of a general register: x0 reads zero. -/
def Core.get (c : Core) (n : Nat) : DWord := if n = 0 then 0 else c.x[n]!

/-- Write a general register: a write of x0 is discarded. -/
def Core.put (c : Core) (n : Nat) (v : DWord) : Core := if n = 0 then c else { c with x := c.x.set! n v }

/-- The operands of the formats: RS1 of RR, RI and ST; RS2 of RR; RS2 of ST; RS1 and RS2 of BR. -/
def rs1 (c : Core) (w : Word) : DWord := c.get (dxB w)
def rs2 (c : Core) (w : Word) : DWord := c.get (dxC w)
def stSrc (c : Core) (w : Word) : DWord := c.get (dxA w)
def brA (c : Core) (w : Word) : DWord := c.get (dxA w)
def brB (c : Core) (w : Word) : DWord := c.get (dxB w)

/-- The address of a load or a store: rs1 + sx(IMM15). -/
def dxAddr (c : Core) (w : Word) : DWord := rs1 c w + dxImm15 w

/-- The target of a branch or JAL: the instruction's address + 4 × offset. -/
def dxTarget (pc off : DWord) : DWord := pc + (off <<< 2)

/-! ### Retirement (R347, R357) -/

/-- A step passes: a reservation is lost 128 steps after its LR. -/
def resvStep (r : Option (Nat × Nat)) : Option (Nat × Nat) :=
  match r with
  | some (line, n) => if 128 ≤ n + 1 then none else some (line, n + 1)
  | none => none

/-- An instruction retires: its step passes, it is counted, and the core goes on at an address. -/
def retireAt (s : State) (p : Fin 4) (pc : DWord) (f : Core → Core) : State :=
  count (modCore s p (fun c => { f { c with resv := resvStep c.resv } with pc := pc })) (381 + 3 * p.val)

/-- An instruction retires with a value for rd, and the next one follows. -/
def retire (s : State) (p : Fin 4) (rdNum : Nat) (v : DWord) : State :=
  retireAt s p (s.core[p].pc + 4) (fun c => c.put rdNum v)

end Machine
end Sys2Proof
end

