-- ==== Sys2Proof/Machine/Fixed.lean ====
section
/-! DEFINITION. Fixed-point arithmetic: the formats and roundings of R206 to R208, sine and cosine of a fraction of a turn,
and integer square roots. -/

namespace Sys2Proof
namespace Machine

/-- Round to nearest with ties toward plus infinity while dropping n bits (R207). -/
def rnd (n : Nat) (x : Int) : Int := (x + 2 ^ (n - 1)) / 2 ^ n

/-- A quotient rounded to nearest with ties toward plus infinity, for a positive divisor (R207). -/
def rndDiv (x y : Int) : Int := (2 * x + y) / (2 * y)

/-- A value register as a number in Q2.30, and back with saturation, telling whether it saturated (R208). -/
def valOf (w : Word) : Int := w.toInt
def satVal (x : Int) : Word × Bool := (BitVec.ofInt 32 (satInt 32 x), decide (x < sMin 32 ∨ sMax 32 < x))

/-- An accumulator saturates at 56 bits (R208). -/
def satAcc (x : Int) : Int × Bool := (satInt 56 x, decide (x < sMin 56 ∨ sMax 56 < x))

/-- The Q8.40 limit of a state value (R208). -/
def satState (x : Int) : Int × Bool := (satInt 48 x, decide (x < sMin 48 ∨ sMax 48 < x))

/-- The exact product of two values, in Q4.60 (R206). -/
def prod (a b : Word) : Int := valOf a * valOf b

/-- A Q8.40 state held in two words: bits [31:0], then bits [47:32] sign-extended (R220). -/
def stateOf (lo hi : Word) : Int := (BitVec.ofNat 48 (lo.toNat + hi.toNat % 2 ^ 16 * 2 ^ 32)).toInt
def stateLo (x : Int) : Word := BitVec.ofInt 32 x
def stateHi (x : Int) : Word := BitVec.ofInt 32 (x / 2 ^ 32)

/-- Division truncated toward zero, for a divisor that is not 0. -/
def truncDiv (a b : Int) : Int :=
  if (0 ≤ a) = (0 < b) then (a.natAbs / b.natAbs : Nat) else -((a.natAbs / b.natAbs : Nat) : Int)

/-- floor(pi / 4 2^70). -/
def quarterPi : Int := 927234490633871723825

/-- The Taylor sum of sine or cosine at x (scaled by 2^70): term, its index, and the terms left. -/
def taylor (fuel : Nat) (x term : Int) (k : Nat) : Int :=
  match fuel with
  | 0 => 0
  | fuel + 1 => term + taylor fuel x (-(term * x / 2 ^ 70 * x / 2 ^ 70 / ((k + 1) * (k + 2) : Nat))) (k + 2)

/-- Sine and cosine of r / 2^32 of a turn for r up to 2^29, scaled by 2^70. -/
def octSin (r : Nat) : Int :=
  let x := (r : Int) * quarterPi / 2 ^ 29
  taylor 14 x x 1
def octCos (r : Nat) : Int :=
  let x := (r : Int) * quarterPi / 2 ^ 29
  taylor 14 x (2 ^ 70) 0

/-- sin(2 pi t / 2^32), scaled by 2^70. -/
def sinTurn (t : Nat) : Int :=
  let o := t / 2 ^ 29 % 8
  let r := t % 2 ^ 29
  let b := if o % 2 = 1 then 2 ^ 29 - r else r
  let m := if o % 4 = 0 ∨ o % 4 = 3 then octSin b else octCos b
  if o < 4 then m else -m

/-- cos(2 pi t / 2^32), scaled by 2^70. -/
def cosTurn (t : Nat) : Int := sinTurn ((t + 2 ^ 30) % 2 ^ 32)

/-- Bits of the angle of a vector in the first quadrant, from the top. -/
def atanBits (fuel : Nat) (x y : Int) (t : Nat) : Nat :=
  match fuel with
  | 0 => t
  | fuel + 1 =>
    let c := t + 2 ^ fuel
    atanBits fuel x y (if x * sinTurn c ≤ y * cosTurn c then c else t)

/-- The angle of a vector as a 32-bit fraction of a turn; 0 for the zero vector. -/
def atanTurn (x y : Int) : Nat :=
  if 0 < x ∧ 0 ≤ y then atanBits 30 x y 0
  else if x ≤ 0 ∧ 0 < y then 2 ^ 30 + atanBits 30 y (-x) 0
  else if x < 0 ∧ y ≤ 0 then 2 ^ 31 + atanBits 30 (-x) (-y) 0
  else if 0 ≤ x ∧ y < 0 then 3 * 2 ^ 30 + atanBits 30 (-y) x 0
  else 0

/-- The largest number whose square is at most x, by bits from the top. -/
def isqrtBits (fuel x r : Nat) : Nat :=
  match fuel with
  | 0 => r
  | fuel + 1 => let c := r + 2 ^ fuel; isqrtBits fuel x (if c * c ≤ x then c else r)

/-- Integer square root of a number below 2^128. -/
def isqrt (x : Nat) : Nat := isqrtBits 64 x 0

end Machine
end Sys2Proof
end

