-- ==== Sys2Proof/Machine/SpinOps.lean ====
section
/-! DEFINITION. What other units need of the spindle block: its state, the events that put it into FAULT_BRAKE, STOPPED or
LATCHED_OFF, and the level conditions that hold in every state (R278, R279). -/

namespace Sys2Proof
namespace Machine

/-- Change the spindle block. -/
def modSpn (s : State) (f : Spindle → Spindle) : State := { s with spn := f s.spn }

/-- The state code of R279. -/
def spnState (s : State) : Nat := fget s fldSPN_STAT_STATE

/-- Drive the gates: after a trip all six stay off for the rest of the period (R278). -/
def spnGates (q : Spindle) (g : Gates) : Spindle := { q with gates := if q.tripNow then .off else g }

/-- Enter a state; the ramp rests outside RUN and STOPPING. -/
def spnEnter (s : State) (code : Nat) (g : Gates) : State :=
  let s1 := modSpn (fput s fldSPN_STAT_STATE code) (fun q =>
    spnGates { q with still := 0, agree := 0, slew := 0, gateAt := s.chipTime } g)
  if code = 7 ∨ code = 8 then s1 else fput (modSpn s1 (fun q => { q with ramp := 0, accCmd := 0 })) fldSPN_SPD_CMD 0

/-- Show a cause. -/
def spnCause (s : State) (c : Nat) : State := fput s fldSPN_STAT_CAUSE c

/-- A start fails: its pending start is dropped (R279). -/
def spnStartFail (s : State) (c : Nat) : State :=
  spnCause (fset (modSpn s (fun q => { q with startPend := false })) fldSPN_STAT_START_FAIL) c

/-- Into FAULT_BRAKE (R279, R282): the three low sides on. -/
def spnFaultBrake (s : State) (c : Nat) : State :=
  spnCause (fset (spnEnter (modSpn s (fun q => { q with startPend := false })) 9 .lowSides) fldSPN_STAT_FAULT_BRAKE) c

/-- Into BRAKE; a start still pending will have braked to rest first (R282, R283). -/
def spnBrake (s : State) : State :=
  let s1 := spnEnter s 2 .lowSides
  if s.spn.startPend then fput s1 fldSPN_LAST_START_PATH 3 else s1

/-- Into LATCHED_OFF, from any state (R278, R279). -/
def spnLatchOff (s : State) (c : Nat) : State :=
  spnCause (fset (spnEnter (modSpn s (fun q => { q with startPend := false })) 0xA .off) fldSPN_STAT_LATCHED) c

/-- FAULT_BRAKE ends at standstill once neither SAFE_N nor the chopper fault is asserted. -/
def spnRelease (s : State) : State :=
  if spnState s = 9 ∧ 3 ≤ s.spn.still ∧ s.spn.safeN = false ∧ s.spn.chopFault = false then spnEnter s 0 .off else s

/-- What the levels SAFE_N, chopper fault and SE8 not RUNNING do in the present state (R279). -/
def spnSettle (s : State) : State :=
  let st := spnState s
  let drive := decide (1 ≤ st) && decide (st ≤ 8)
  if drive && s.spn.safeN then spnFaultBrake s 1
  else if drive && s.spn.chopFault then spnFaultBrake s 2
  else if fget s (fldSE_STAT_STATE 8) = 1 then s
  else if 4 ≤ st ∧ st ≤ 8 then spnFaultBrake s 3
  else if st = 1 ∨ st = 3 then spnEnter (spnStartFail s 0xA) 0 .off
  else s

/-- SE8 has left RUNNING: in FAULT_BRAKE that only updates CAUSE. -/
def spnSe8Down (s : State) : State := if spnState s = 9 then spnCause s 3 else spnSettle s

/-- SAFE_N is asserted or released. -/
def spnSafeN (s : State) (on : Bool) : State :=
  let s1 := modSpn s (fun q => { q with safeN := on })
  if spnState s = 9 then spnRelease (if on then spnCause s1 1 else s1) else spnSettle s1

/-- The chopper fault is asserted or released. -/
def spnChopFault (s : State) (on : Bool) : State :=
  let s1 := modSpn s (fun q => { q with chopFault := on })
  if spnState s = 9 then spnRelease (if on then spnCause s1 2 else s1) else spnSettle s1

end Machine
end Sys2Proof
end

