-- ==== Sys2Proof/Machine/Servo.lean ====
section
/-! DEFINITION. The servo engines: ticks and runs (R209 to R213), generators (R222), input ports (R224, R260, R271), commit
(R212, R215, R223), deadline misses (R233, R234), and the engine's states (R236). -/

namespace Sys2Proof
namespace Machine

/-- Change one engine. -/
def modSe (s : State) (k : Fin 10) (f : Servo → Servo) : State := { s with se := s.se.set k (f s.se[k]) }

/-- The state code of an engine: 0 STOPPED, 1 RUNNING, 2 FAULTED, 3 OFFLINE (R237). -/
def seState (s : State) (k : Nat) : Nat := fget s (fldSE_STAT_STATE k)

/-- The source code of a tick source (R209). -/
def seSrc (s : State) (k : Nat) (n : Fin 2) : Nat :=
  if n = 0 then fget s (fldSE_TICK_CFG_SRC0 k) else fget s (fldSE_TICK_CFG_SRC1 k)

/-- The entry address of a source. -/
def seEntry (s : State) (k : Nat) (n : Fin 2) : Nat :=
  if n = 0 then fget s (fldSE_ENTRY_ENTRY0 k) else fget s (fldSE_ENTRY_ENTRY1 k)

/-- The committed value of an output port. -/
def seOut (s : State) (k : Fin 10) (p : Nat) : Word := (aget? s.se[k].outs p).getD 0

/-- Where an engine's fault reports come from: district, Avenue port and cell (R20, R202, R535). -/
def sePlace (k : Nat) : Nat × Nat × Nat :=
  if k < 4 then (3, k, 4) else if k < 8 then (4, k - 4, 4) else (5, 0, k - 8)

/-! ### Generators -/

/-- The registers of generator g of an engine. -/
def genEn (s : State) (k : Nat) (g : Fin 2) : Bool :=
  if g = 0 then fbit s (fldSE_GEN0_CFG_EN k) else fbit s (fldSE_GEN1_CFG_EN k)
def genMode (s : State) (k : Nat) (g : Fin 2) : Nat :=
  let m := if g = 0 then fget s (fldSE_GEN0_CFG_MODE k) else fget s (fldSE_GEN1_CFG_MODE k)
  if m = 3 then 0 else m
def genSrc (s : State) (k : Nat) (g : Fin 2) : Nat :=
  if g = 0 then fget s (fldSE_GEN0_CFG_SRC k) else fget s (fldSE_GEN1_CFG_SRC k)
def genLen (s : State) (k : Nat) (g : Fin 2) : Nat :=
  if g = 0 then fget s (fldSE_GEN0_CFG_LEN k) else fget s (fldSE_GEN1_CFG_LEN k)
def genAmp (s : State) (k : Nat) (g : Fin 2) : Int :=
  valOf (if g = 0 then rd s (regSE_GEN0_AMP k) else rd s (regSE_GEN1_AMP k))
def genInc0 (s : State) (k : Nat) (g : Fin 2) : Nat :=
  (if g = 0 then rd s (regSE_GEN0_INC0 k) else rd s (regSE_GEN1_INC0 k)).toNat
def genInc1 (s : State) (k : Nat) (g : Fin 2) : Nat :=
  (if g = 0 then rd s (regSE_GEN0_INC1 k) else rd s (regSE_GEN1_INC1 k)).toNat

/-- AMP sin(2 pi phase), to the nearest. -/
def genSine (amp : Int) (phase : Nat) : Int := satInt 32 (roundDiv (amp * sinTurn phase) (2 ^ 70))

/-- The PRBS register's step: x^15 + x^14 + 1 (R222). -/
def lfsr15 (x : Nat) : Nat := (2 * x + (x / 2 ^ 14 + x / 2 ^ 13) % 2) % 2 ^ 15

/-- One advance: the sample of the phase, then the step; answers whether a chirp has finished (R222). -/
def genAdvance (mode len : Nat) (amp : Int) (inc0 inc1 : Nat) (g : Gen) : Gen × Bool :=
  if mode = 2 then
    let s := if g.lfsr % 2 = 1 then amp else -amp
    let d := g.div + 1
    if Nat.max len 1 ≤ d then ({ g with sample := satInt 32 s, div := 0, lfsr := lfsr15 g.lfsr }, false)
    else ({ g with sample := satInt 32 s, div := d }, false)
  else if mode = 1 then
    if len ≤ g.adv then ({ g with sample := 0 }, true)
    else
      let inc := (inc0 : Int) + roundDiv (((inc1 : Int) - inc0) * g.adv) (Nat.max len 1)
      ({ g with sample := genSine amp g.phase, phase := ((g.phase + inc) % 2 ^ 32).toNat, adv := g.adv + 1 }, false)
  else ({ g with sample := genSine amp g.phase, phase := (g.phase + inc0) % 2 ^ 32, adv := g.adv + 1 }, false)

/-- Every enabled generator whose source is the tick's advances at the start of a run (R211, R222). -/
def gensAdvance (s : State) (k : Fin 10) (src : Fin 2) : State :=
  forEach [(0 : Fin 2), 1] s (fun t g =>
    if genEn t k g ∧ genSrc t k g = src.val then
      let (g', done) := genAdvance (genMode t k g) (genLen t k g) (genAmp t k g) (genInc0 t k g) (genInc1 t k g) t.se[k].gens[g]
      let t1 := modSe t k (fun e => { e with gens := e.gens.set g g' })
      if done then fset t1 (if g = 0 then fldSE_STAT_GEN0_DONE k else fldSE_STAT_GEN1_DONE k) else t1
    else t)

/-- The sample of a generator: 0 while it is disabled (R222). -/
def genSample (s : State) (k : Fin 10) (g : Fin 2) : Int := if genEn s k g then s.se[k].gens[g].sample else 0

/-! ### Ports -/

/-- A bit at a place. -/
def bitAt (b : Bool) (n : Nat) : Nat := if b then 2 ^ n else 0

/-- WREC of a head (R224). -/
def portWrec (s : State) (n : Fin 8) : Word :=
  let r (sp : Fin 4) : WedgeRec := s.ch[headChan n sp].lastRec
  let bits (f : WedgeRec → Bool) (lo : Nat) : Nat :=
    bitAt (f (r 0)) lo + bitAt (f (r 1)) (lo + 1) + bitAt (f (r 2)) (lo + 2) + bitAt (f (r 3)) (lo + 3)
  BitVec.ofNat 32 ((r 0).wedge * 2 ^ 22 + bits (·.samOk) 18 + bits (·.trkOk) 14 + bits (·.pesOk) 10 +
    bitAt (fbit s (fldFINE_POS_VALID (headChan n 2))) 9 + bitAt (fbit s (fldFINE_POS_VALID (headChan n 1))) 8)

/-- The position a sled drives its coils at: p plus trim, in whole microsteps (R293). -/
def sledPos (s : State) (n : Fin 8) : Int := s.sled[n].p / 2 ^ 16 + s.sled[n].trim

/-- Input ports 0 to 23 of a head's engine (R224).  Port 21 is what the outside world presents. -/
def headPort (s : State) (n : Fin 8) (input : Nat → Word) (p : Nat) : Word :=
  if p < 8 then s.hb[n].det.getD p 0
  else if p < 12 then BitVec.ofInt 32 (s.ch[headChan n (Fin.ofNat 4 (p - 8))].lastRec.pes * 2 ^ 15)
  else if p = 12 then portWrec s n
  else if p < 17 then (s.ch[headChan n (Fin.ofNat 4 (p - 13))].lastRec.trk).setWidth 32
  else if p = 17 then BitVec.ofInt 32 (fgetInt s (fldFINE_POS_FINE (headChan n 1)) * 2 ^ 15)
  else if p = 18 then BitVec.ofInt 32 (fgetInt s (fldFINE_POS_FINE (headChan n 2)) * 2 ^ 15)
  else if p = 19 then BitVec.ofInt 32 (sledPos s n)
  else if p = 20 then BitVec.ofInt 32 s.sled[n].acc
  else if p = 21 then input 21
  else if p = 22 then seOut s 9 (8 + n.val)
  else (s.hb[n].sched).getD 0

/-- Input ports 0 to 23 of SE8 (R271). -/
def spinPort (s : State) (p : Nat) : Word :=
  let q := s.spn
  if p = 0 then BitVec.ofInt 32 q.iu
  else if p = 1 then BitVec.ofInt 32 q.iv
  else if p = 2 then (satVal (-(q.iu + q.iv))).1
  else if p = 3 then BitVec.ofInt 32 q.vu
  else if p = 4 then BitVec.ofInt 32 q.vv
  else if p = 5 then BitVec.ofInt 32 q.vw
  else if p = 6 then q.theta
  else if p = 7 then q.omega
  else if p = 8 then BitVec.ofInt 32 q.spdMeas
  else if p = 9 then BitVec.ofNat 32 (fget s fldSPN_SPD_CMD)
  else if p = 10 then BitVec.ofInt 32 q.accCmd
  else if p = 11 then BitVec.ofNat 32 (fget s fldSPN_STAT_STATE * 2 ^ 28 + fget s fldSPN_STAT_AT_SPEED * 2 ^ 27 +
    fget s fldSPN_STAT_REVERSE * 2 ^ 26 + fget s fldSPN_STAT_V_LIM * 2 ^ 25 + fget s fldSPN_STAT_I_LIM * 2 ^ 24)
  else if p = 12 then q.thetaInit
  else if p = 13 then
    BitVec.ofNat 32 ((if fget s fldSPN_STAT_STATE = 4 ∨ fget s fldSPN_STAT_STATE = 5 then fget s fldSPN_START_I_START
      else fget s fldSPN_LIMITS_IQ_LIM) * 2 ^ 23)
  else if p = 14 then BitVec.ofNat 32 (fget s fldSPN_LIMITS_VMOD_MAX * 2 ^ 22)
  else if p = 15 then q.pa
  else if p = 16 then rd s regSPN_ANGLE
  else 0

/-- The heads whose sled is in one of some segments, or in a state, as a mask. -/
def sledMask (s : State) (f : Nat → Bool) : Nat :=
  (List.range 8).foldl (fun a n => if headPresent s.variant n && f n then a + 2 ^ n else a) 0

/-- Input ports 0 to 23 of SE9 (R260).  Ports 0 to 3 are what the outside world presents. -/
def shockPort (s : State) (input : Nat → Word) (p : Nat) : Word :=
  if p < 4 then input p
  else if p < 12 then
    if headPresent s.variant (p - 4) then BitVec.ofInt 32 s.sled[(Fin.ofNat 8 (p - 4))].acc else 0
  else if p = 12 then
    BitVec.ofNat 32 (sledMask s (fun n => let g := fget s (fldSLD_STAT_SEG n); g == 1 || g == 2 || g == 4 || g == 5) * 2 ^ 8 +
      sledMask s (fun n => fget s (fldSLD_STAT_STATE n) == 2))
  else if p = 13 then BitVec.ofInt 32 s.spn.accCmd
  else if p = 14 then BitVec.ofNat 32 s.spn.target
  else if p = 15 then rd s regSPN_ANGLE
  else if headPresent s.variant (p - 16) then seOut s (Fin.ofNat 10 (p - 16)) 4 else 0

/-- The value that an input port holds at the start of a run (R211, R224). -/
def portValue (s : State) (k : Fin 10) (input : Nat → Word) (tick : DWord) (src : Fin 2) (count p : Nat) : Word :=
  if p < 24 then
    if k.val < 8 then headPort s (Fin.ofNat 8 k.val) input p else if k.val = 8 then spinPort s p else shockPort s input p
  else if p < 28 then rd s (regSE_PARAM k (p - 24))
  else if p = 28 then tick.setWidth 32
  else if p = 29 then BitVec.ofNat 32 (src.val * 2 ^ 31 + count % 2 ^ 31)
  else if p < 32 then input p
  else 0

/-! ### Outputs and state memory -/

/-- A head engine's wedge status with both bits 0, for the wedge that is due or else the present one (R215, R233). -/
def statusZero (s : State) (k : Fin 10) : State :=
  if k.val < 8 then
    let n : Fin 8 := Fin.ofNat 8 k.val
    modSe (wedgeStatus s n (s.hb[n].wedgeDue.getD s.hb[n].curWedge) false false) k (fun e => { e with focusLow := false })
  else s

/-- Apply the state words that waited for the engine to be between runs (R232). -/
def applyHeld (s : State) (k : Fin 10) : State :=
  modSe s k (fun e => { e with heldWrites := [], smem := e.heldWrites.foldl (fun m p => aset m p.1 p.2) e.smem })

/-- The address of the image of an engine. -/
def imageBase (s : State) (k : Nat) : Nat :=
  fget s (fldSE_IMG_BASE_HI_BASE k) * 2 ^ 32 + fget s (fldSE_IMG_BASE_LO_BASE k) * 2 ^ 15

/-- The offset of a bank in the image and its bytes. -/
def bankOffset (coef : Bool) (b : Nat) : Nat := if coef then 0x4000 + 0x1000 * b else 0x2000 * b
def bankBytes (coef : Bool) : Nat := if coef then 0x1000 else 0x2000

/-- Calibrated coefficients that waited for the gap are written into the live bank, in the cache and in the image (R527). -/
def coefsHeld (s : State) (k : Fin 10) : State :=
  let b := s.se[k].liveCoef
  let l := s.se[k].heldCoefs
  let s1 := modSe s k (fun e => { e with heldCoefs := [], coef := e.coef.set b (l.foldl (fun c p => c.set p.1 p.2) e.coef[b]) })
  forEach l s1 (fun t p => (memWrite t 4 (imageBase s k + bankOffset true b.val + 4 * p.1) (natLe 4 p.2.toNat)).getD t)

/-- Outputs 0-3 and 8-15 become zero (R236). -/
def zeroDrives (s : State) (k : Fin 10) : State :=
  modSe s k (fun e => { e with outs := e.outs.filter (fun p => decide (4 ≤ p.1) && decide (p.1 < 8)) })

/-- SE8 leaving RUNNING acts on the spindle block (R279). -/
def seLeft (s : State) (k : Fin 10) : State := if k.val = 8 then spnSe8Down s else s

/-- The engine stops (R236). -/
def seHalt (s : State) (k : Fin 10) (state : Nat) : State :=
  let s1 := modSe (zeroDrives s k) k (fun e => { e with run := none, pend := Vector.replicate 2 none, stopReq := false })
  let s2 := servoRelease (fput (applyHeld s1 k) (fldSE_STAT_STATE k) state) k
  if seState s k = 1 then seLeft s2 k else s2

/-! ### Pending fields (R229, R230) -/

/-- Whether an address is a register of an engine. -/
def ofEngine (k : Nat) (a : Nat) : Bool := decide (regSE_CTL k ≤ a) && decide (a < regSE_CTL k + 0x100)

/-- The value of a register that a pending write gives it, else the one in force. -/
def pendOr (s : State) (a : Nat) : Nat := ((aget? s.pend a).getD (rd s a)).toNat

/-- The load state of a program or coefficient bank: 0 EMPTY, 1 LOADING, 2 LOADED, 3 FAILED (R226). -/
def bankState (s : State) (k : Nat) (coef : Bool) (b : Nat) : Nat :=
  let at0 := if coef then 4 + 2 * b else 2 * b
  bitsOf (rd s (regSE_BANKS k)).toNat (at0 + 1) at0
def setBankState (s : State) (k : Nat) (coef : Bool) (b x : Nat) : State :=
  let at0 := if coef then 4 + 2 * b else 2 * b
  fput s ⟨regSE_BANKS k, at0 + 1, at0⟩ x

/-- The recorded WCET of an entry of a program bank (R228). -/
def wcetOf (s : State) (k b : Nat) (n : Nat) : Nat :=
  let w := (rd s (if b = 0 then regSE_WCET_B0 k else regSE_WCET_B1 k)).toNat
  if n = 0 then bitsOf w 15 0 else bitsOf w 31 16

/-- The source codes, the deadlines and the periods as the pending writes make them. -/
def pendSrc (s : State) (k n : Nat) : Nat :=
  let w := pendOr s (regSE_TICK_CFG k)
  if n = 0 then bitsOf w 3 0 else bitsOf w 7 4
def pendHalf (s : State) (a n : Nat) : Nat := if n = 0 then bitsOf (pendOr s a) 15 0 else bitsOf (pendOr s a) 31 16

/-- A deadline in units of 5 ns: at most the source's period for FOCUS and TIMER, and half the PWM period less 200 ns for
PWM (R233, R270). -/
def deadlineHalf (s : State) (k n : Nat) : Nat :=
  let d := 2 * pendHalf s (regSE_DEADLINE k) n
  let src := pendSrc s k n
  if src = 1 then Nat.min d 1000
  else if src = 3 then Nat.min d (2 * pendHalf s (regSE_TICK_PER k) n)
  else if src = 4 then Nat.min d (fget s fldSPN_PWM_PERIOD - 40)
  else d

/-- The timing check: (WCETn + WCETm) 3.90625 ns <= DLn for each configured source (R229). -/
def seTiming (s : State) (k b : Nat) : Bool :=
  let w := (if pendSrc s k 0 = 0 then 0 else wcetOf s k b 0) + (if pendSrc s k 1 = 0 then 0 else wcetOf s k b 1)
  [0, 1].all (fun n => pendSrc s k n == 0 || decide (w * 390625 ≤ deadlineHalf s k n * 500000))

/-- The program bank that the engine would run after applying. -/
def pendProg (s : State) (k : Nat) : Nat := bitsOf (pendOr s (regSE_SWAP k)) 1 1

/-- The check of R229: a bank that a swap names is LOADED; for a LOADED program bank the ENTRY values are those of its load
and the timing holds. -/
def seCheck (s : State) (k : Fin 10) : Bool :=
  let b := pendProg s k
  let c := bitsOf (pendOr s (regSE_SWAP k)) 3 2
  let named := (aget? s.pend (regSE_SWAP k)).isSome
  let loaded := bankState s k false b == 2
  let entry := pendOr s (regSE_ENTRY k)
  let used := s.se[k].loadEntry[(Fin.ofNat 2 b)]
  (!named || (loaded && bankState s k true c == 2)) &&
    (!loaded || (used == (bitsOf entry 10 0, bitsOf entry 26 16) && seTiming s k b))

/-- Whether a pending write of an engine names a register of a generator. -/
def genPending (s : State) (k : Nat) (g : Nat) : Bool :=
  s.pend.any (fun p => decide (regSE_CTL k + 0x80 + 0x10 * g ≤ p.1) && decide (p.1 < regSE_CTL k + 0x90 + 0x10 * g))

/-- Every pending field of an engine takes effect; generators written restart; the banks of SWAP are live (R222, R229). -/
def sePut (s : State) (k : Fin 10) : State :=
  let g0 := genPending s k 0
  let g1 := genPending s k 1
  let zero := (aget? s.pend (regSE_SWAP k)).isSome && fbit (applyPend s (ofEngine k)) (fldSE_SWAP_STATE_ZERO k)
  let s1 := fclr (applyPend s (ofEngine k)) (fldSE_STAT_PARAM_PEND k)
  let s2 := if zero then fclr s1 (fldSE_SWAP_STATE_ZERO k) else s1
  modSe s2 k (fun e =>
    { e with
      liveProg := Fin.ofNat 2 (fget s2 (fldSE_SWAP_PROG_BANK k))
      liveCoef := Fin.ofNat 4 (fget s2 (fldSE_SWAP_COEF_BANK k))
      smem := if zero then [] else e.smem
      gens := if g0 then (if g1 then Vector.replicate 2 Gen.reset else e.gens.set 0 Gen.reset)
        else if g1 then e.gens.set 1 Gen.reset else e.gens
      restarted := e.restarted || g0 })

/-- Apply the pending fields if the check passes; else nothing changes, they stay pending and SWAP_HELD is set (R229). -/
def seApply (s : State) (k : Fin 10) : State :=
  if !(s.pend.any (fun p => ofEngine k p.1)) then s
  else if seCheck s k then sePut s k
  else fset s (fldSE_STAT_SWAP_HELD k)

/-- An engine between two runs takes the boundary: a third miss takes it OFFLINE, and its pending fields apply (R229, R234,
R332). -/
def seBoundaryNow (s : State) (k : Fin 10) : State :=
  let off := fbit s (fldSE_STAT_OFFLINE_PEND k)
  let s1 := fclr (modSe s k (fun e => { e with boundDue := false, applyDue := false })) (fldSE_STAT_OFFLINE_PEND k)
  let s2 := if off ∧ seState s k = 1 then seHalt s1 k 3 else s1
  seApply s2 k

/-- A sweep boundary at an engine: an inhibit whose source has committed on time since ends at once (R233); the rest waits
for the gap between runs (R332). -/
def seBoundary (s : State) (k : Fin 10) : State :=
  let s1 := servoRelease (modSe s k (fun e => { e with missed := e.missed.filter (fun m => !m.2) })) k
  if s1.se[k].run.isSome then modSe s1 k (fun e => { e with boundDue := true }) else seBoundaryNow s1 k

/-- The engine is between two runs: what waited for that happens (R230, R232, R236, R332). -/
def seBetween (s : State) (k : Fin 10) : State :=
  let s1 := applyHeld s k
  let s2 := if s1.se[k].stopReq then seHalt s1 k 0 else s1
  let s3 := if s2.se[k].boundDue then seBoundaryNow s2 k
    else if s2.se[k].applyDue then seApply (modSe s2 k (fun e => { e with applyDue := false })) k
    else s2
  coefsHeld s3 k

/-! ### Faults and misses -/

/-- The run is aborted and its engine is FAULTED: the outputs hold, the inhibit asserts, a report is raised (R219, R231,
R236). -/
def seFault (s : State) (k : Fin 10) (f : Fld) : State :=
  let (d, p, c) := sePlace k.val
  let s1 := modSe s k (fun e => { e with run := none, pend := Vector.replicate 2 none })
  let s2 := fput (fset s1 f) (fldSE_STAT_STATE k) 2
  let s3 := raiseReport (count s2 (337 + 2 * k.val)) 0x05 1 d p c 0 k.val
  let s4 := servoAssert s3 k
  let s5 := if k.val < 8 ∧ s.hb[(Fin.ofNat 8 k.val)].wedgeDue.isSome then statusZero s4 k else s4
  seBetween (seLeft s5 k) k

/-- The heads that a third miss of an engine takes offline: its own, or every one for SE8 (R234). -/
def missHeads (k : Fin 10) : List (Fin 8) := if k.val < 8 then [Fin.ofNat 8 k.val] else if k.val = 8 then List.finRange 8 else []

/-- The MISS_RUN field of a source. -/
def missRun (k : Nat) (n : Fin 2) : Fld := if n = 0 then fldSE_STAT_MISS_RUN0 k else fldSE_STAT_MISS_RUN1 k

/-- A tick of a source has missed its deadline (R233, R234). -/
def seMiss (s : State) (k : Fin 10) (n : Fin 2) : State :=
  let running := s.se[k].run.any (fun r => r.src == n)
  let s1 := modSe s k (fun e =>
    { e with
      run := if running then none else e.run
      pend := if running then e.pend else e.pend.set n none
      missed := if e.missed.any (fun m => m.1 == n.val) then e.missed.map (fun m => if m.1 = n.val then (m.1, false) else m)
        else (n.val, false) :: e.missed })
  let s2 := fincSat (putTime (fset s1 (fldSE_STAT_MISS k)) (regSE_LAST_MISS_LO k) (regSE_LAST_MISS_HI k) s.chipTime) (missRun k.val n)
  let (d, p, c) := sePlace k.val
  let s3 := raiseReport (count s2 (336 + 2 * k.val)) 0x04 1 d p c 0 (16 * k.val + n.val)
  let s4 := servoAssert s3 k
  let s5 := if fget s4 (missRun k.val n) = 3 then
      forEach (missHeads k) (fset s4 (fldSE_STAT_OFFLINE_PEND k)) (fun t h =>
        if headPresent t.variant h.val then fputAt t fldSWP_HEAD_ONLINE_OFFLINE_PEND h.val true else t)
    else s4
  let s6 := statusZero s5 k
  if s6.se[k].run.isNone then seBetween s6 k else s6

/-! ### Ticks and runs -/

/-- Whether the WEDGE tick of a source is due: the records of every channel of the head that searches for wedges have arrived, or 200
ns have passed since the first of them; once per wedge (R209). -/
def wedgeTickDue (s : State) (k : Fin 10) (n : Fin 2) : Bool :=
  let i : Fin 8 := Fin.ofNat 8 k.val
  let h := s.hb[i]
  decide (k.val < 8) && !(h.recGot.isEmpty) && !(h.recTicked.contains n.val) &&
    ((List.finRange 4).all (fun sp => h.recGot.contains sp.val || !(wedgeOn s (headChan i sp))) ||
      decide (200 ≤ (s.chipTime - h.recFirst).toNat))

/-- A tick of a source: it is held pending; the tick before it, if it still is pending or running, has missed (R210). -/
def seTick (s : State) (k : Fin 10) (n : Fin 2) : State :=
  if seState s k ≠ 1 ∨ seSrc s k n = 0 ∨ (seSrc s k n = 2 ∧ !(wedgeTickDue s k n)) then s
  else
    let late := (s.se[k].pend[n]).isSome || s.se[k].run.any (fun r => r.src == n)
    let s1 := if late then seMiss s k n else s
    let w := if seSrc s k n = 2 ∧ k.val < 8 then some (s.hb[(Fin.ofNat 8 k.val)].curWedge) else none
    let s2 := if w.isSome then modHb s1 (Fin.ofNat 8 k.val) (fun h => { h with recTicked := n.val :: h.recTicked }) else s1
    if seState s2 k ≠ 1 then s2 else modSe s2 k (fun e => { e with pend := e.pend.set n (some (s.chipTime, w)) })

/-- SE_TICK. -/
def execSeTick (k : Engine) (src : Fin 2) (s : State) : Host.Outcome State Fault Refusal := .next (seTick s k src)

/-- The tick that runs next: T0's before T1's (R210). -/
def nextTick (e : Servo) : Option (Fin 2 × DWord × Option Nat) :=
  match e.pend[0], e.pend[1] with
  | some (t, w), _ => some (0, t, w)
  | none, some (t, w) => some (1, t, w)
  | none, none => none

/-- A run starts at its source's entry: the ports are latched, the generators advance, the registers are cleared (R210,
R211). -/
def runStart (s : State) (k : Fin 10) (input : Nat → Word) : State :=
  if seState s k ≠ 1 ∨ s.se[k].run.isSome then s
  else match nextTick s.se[k] with
  | none => s
  | some (n, tick, w) =>
    let c := (s.se[k].runs[n] + 1) % 2 ^ 31
    let ports := (List.range 32).map (fun p => (p, portValue s k input tick n c p))
    let s1 := gensAdvance s k n
    modSe s1 k (fun e =>
      { e with
        pend := e.pend.set n none
        runs := e.runs.set n c
        run := some ⟨n, tick, w, seEntry s k n, Vector.replicate 16 0, Vector.replicate 4 0, ports, [], [], 0, 0, none, false, none, false,
          false⟩
        capOn := e.capOn || (e.capWait && e.restarted)
        capWait := e.capWait && !e.restarted })

/-- Which of the four conversions of a group count: those outside the blanking interval; they are 312.5 ns apart (R190, R239). -/
def detKept (s : State) (n : Fin 8) (g : DetGroup) : List Nat :=
  (List.range 4).filter (fun j => !(guardBlanked s n (g.time + BitVec.ofNat 64 (625 * j / 2))))

/-- The average of the conversions that count, as a fraction of the converter's full scale of 4,096 codes in Q2.30 (R224, R239;
log 98). -/
def detMean (keep codes : List Nat) : Word :=
  BitVec.ofInt 32 (roundDiv ((keep.foldl (fun a j => a + codes.getD j 0) 0 : Nat) * 2 ^ 18 : Int) keep.length)

/-- Four conversions of the eight detector signals come through Crossing 8 + n and make one sample each; a group that is blanked
whole repeats the one before (R239). -/
def detGroup (s : State) (n : Fin 8) (g : DetGroup) : State :=
  let keep := detKept s n g
  if keep.isEmpty ∨ s.xing[(⟨8 + n.val, by omega⟩ : Fin 52)].st ≠ .armed then s
  else modHb s n (fun h => { h with det := (List.range 8).map (fun i => detMean keep (g.codes.getD i [])) })

/-- RUN_START: the detector conversions that have come become samples, and the run starts. -/
def execRunStart (k : Engine) (x : RunInput) (s : State) : Host.Outcome State Fault Refusal :=
  let s1 := if k.val < 8 then forEach x.det s (fun t g => detGroup t (Fin.ofNat 8 k.val) g) else s
  .next (runStart s1 k (fun p => ((x.ports.find? (fun q => q.1.val == p)).map (·.2)).getD 0))

/-- DEADLINE_MISS: a tick of the source is pending or running (R233). -/
def execDeadlineMiss (k : Engine) (src : Fin 2) (s : State) : Host.Outcome State Fault Refusal :=
  .next (if (s.se[k].pend[src]).isSome || s.se[k].run.any (fun r => r.src == src) then seMiss s k src else s)

/-! ### Commit -/

/-- A capture record (R223). -/
def captureRecord (r : MsvRun) (count : Nat) (regs : BitVec 128) : BitVec 256 :=
  BitVec.ofNat 256 (r.tick.toNat * 2 ^ 192 + r.src.val * 2 ^ 191 + count % 2 ^ 31 * 2 ^ 160 + regs.toNat)

/-- The records that the capture ring has places for. -/
def capLen (s : State) (k : Nat) : Nat := Nat.max 1 (fget s (fldSE_CAP_LEN_LEN k))

/-- A committed CAP writes its record to the capture ring while capture runs (R223). -/
def captureWrite (s : State) (k : Fin 10) (r : MsvRun) (regs : BitVec 128) : State :=
  if !(s.se[k].capOn) then s
  else
    let c := fget s (fldSE_CAP_STAT_COUNT k)
    let base := fget s (fldSE_CAP_BASE_HI_BASE k) * 2 ^ 32 + fget s (fldSE_CAP_BASE_LO_BASE k) * 32
    let s1 := memWriteD s 4 (base + 32 * c) (recordBytes (captureRecord r s.se[k].runs[r.src] regs))
    if c + 1 < capLen s k then fput s1 (fldSE_CAP_STAT_COUNT k) (c + 1)
    else if fbit s (fldSE_CAP_CTL_MODE k) then fset (fput s1 (fldSE_CAP_STAT_COUNT k) 0) (fldSE_CAP_STAT_WRAP k)
    else modSe (fset (fput s1 (fldSE_CAP_STAT_COUNT k) (c + 1)) (fldSE_CAP_STAT_DONE k)) k (fun e => { e with capOn := false })

/-- A committed output: 4 to 7 are copied to MBOX (R213, R225). -/
def putOut (s : State) (k : Fin 10) (p : Nat) (v : Word) : State :=
  let s1 := modSe s k (fun e => { e with outs := if v = 0 then aerase e.outs p else aset e.outs p v })
  if 4 ≤ p ∧ p < 8 then wr s1 (regSE_MBOX k (p - 4)) v else s1

/-- The outputs of SE8 that a run has committed wait for the modulator (R270, R272). -/
def spnCommit (s : State) (k : Fin 10) (r : MsvRun) : State :=
  if k.val = 8 ∧ r.outs.any (fun p => decide (p.1 < 4)) then
    let new : SpnSet := ⟨s.chipTime, r.outs.any (fun p => p.1 == 2), false, (seOut s 8 0).toInt, (seOut s 8 1).toInt, seOut s 8 2, seOut s 8 3⟩
    { s with spn := { s.spn with sets := s.spn.sets ++ [new] } }
  else s

/-- The REP bits after a run. -/
def repAfter (e : Servo) (r : MsvRun) : Nat := (e.rep &&& (3 ^^^ r.repMask)) ||| (r.repVal &&& r.repMask)

/-- The wedge status that a commit sends: for the first run whose tick was the records of the wedge that is due (R215). -/
def commitStatus (s : State) (k : Fin 10) (r : MsvRun) : State :=
  if k.val < 8 then
    let n : Fin 8 := Fin.ofNat 8 k.val
    match r.wedge with
    | some w =>
      if r.src = 1 ∧ s.hb[n].wedgeDue = some w then
        let e := s.se[k]
        modSe (wedgeStatus s n w (e.rep.testBit 0) (e.rep.testBit 1 && !e.focusLow)) k (fun e => { e with focusLow := false })
      else s
    | none => s
  else s

/-- The longest run from tick to commit, in 10 ns (R237). -/
def runMax (s : State) (k : Nat) (r : MsvRun) : State :=
  let f := if r.src = 0 then fldSE_RUN_MAX_MAX0 k else fldSE_RUN_MAX_MAX1 k
  let t := Nat.min 0xFFFF ((s.chipTime - r.tick).toNat / 10)
  if fget s f < t then fput s f t else s

/-- The run's held effects take effect together (R212, R213, R215, R223, R233). -/
def runCommit (s : State) (k : Fin 10) (r : MsvRun) : State :=
  let s1 := spnCommit (forEach r.outs s (fun t p => putOut t k p.1 p.2)) k r
  let s2 := modSe s1 k (fun e =>
    { e with
      run := none
      smem := r.stores.foldl (fun m p => aset m p.1 p.2) e.smem
      rep := repAfter e r
      focusLow := e.focusLow || !((repAfter e r).testBit 1)
      missed := e.missed.map (fun m => if m.1 = r.src.val then (m.1, true) else m) })
  let s3 := match r.evt with
    | some (c, v) => fset (wr (fput s2 (fldSE_EVT_CODE k) c) (regSE_EVT_VAL k) v) (fldSE_STAT_EVT k)
    | none => s2
  let s3a := sif r.sat s3 (fun t => fset t (fldSE_STAT_SAT k))
  let s3b := sif r.div0 s3a (fun t => fset t (fldSE_STAT_DIV0 k))
  let s4 := sif r.evtOvr s3b (fun t => fset t (fldSE_STAT_EVT_OVR k))
  let s5 := match r.cap with
    | some regs => captureWrite s4 k r regs
    | none => s4
  let s6 := fput (runMax s5 k r) (missRun k.val r.src) 0
  seBetween (commitStatus s6 k r) k

/-! ### Wedges -/

/-- A wedge's records begin to arrive at a head: the status that is still due is sent with both bits 0, and the new wedge's falls due
(R215). -/
def wedgeArrives (s : State) (n : Fin 8) (w : Nat) : State :=
  let s1 := if s.hb[n].wedgeDue.isSome then statusZero s ⟨n.val, by omega⟩ else s
  modHb s1 n (fun h => { h with curWedge := w, wedgeDue := some w })

/-- Whether a record belongs to the wedge whose records are arriving: its spot has sent none yet, and it comes within 200 ns of the
first or has its number (R209; the criterion is the model's, log 97). -/
def sameWedge (s : State) (h : HeadBlk) (spot w : Nat) : Bool :=
  !(h.recGot.isEmpty) && !(h.recGot.contains spot) && (decide ((s.chipTime - h.recFirst).toNat < 200) || h.curWedge == w)

/-- The wedge record of a spot reaches the head's engine (R115, R209, R215). -/
def recordArrives (s : State) (n : Fin 8) (spot w : Nat) : State :=
  if sameWedge s s.hb[n] spot w then modHb s n (fun h => { h with recGot := spot :: h.recGot })
  else modHb (wedgeArrives s n w) n (fun h => { h with recGot := [spot], recFirst := s.chipTime, recTicked := [] })

end Machine
end Sys2Proof
end

