-- ==== Sys2Proof/Machine/Sled.lean ====
section
/-! DEFINITION. The sled motion cells: profiles (R295 to R297), targets, reversal and SLED_HOLD (R298 to R300), trim (R301),
coil currents and modes (R302, R304), load angle, stalls and lost steps (R305, R306), homing (R307 to R309), power-down
and parking (R310, R311), Crossing withdrawal (R312) and the state machine (R313). -/

namespace Sys2Proof
namespace Machine

/-- Change one sled. -/
def modSled (s : State) (n : Fin 8) (f : Sled → Sled) : State := { s with sled := s.sled.set n (f s.sled[n]) }

/-- The state code of R313. -/
def sledState (s : State) (n : Fin 8) : Nat := fget s (fldSLD_STAT_STATE n)
def sledEnter (s : State) (n : Fin 8) (code : Nat) : State := fput s (fldSLD_STAT_STATE n) code

/-- Whether the sled's bit of SE9's SLED_HOLD is 1 (R261, R300). -/
def sledHeld (s : State) (n : Fin 8) : Bool := (seOut s 9 0).getLsbD n.val

/-! ### The latched profile (R295, R297) -/

/-- The profile that the registers give, its V_BREAK put in order, and whether the registers violate the order. -/
def profileOf (s : State) (n : Nat) : Profile × Bool :=
  let v (f : Fld) : Int := 2500 * fget s f
  let vs := v (fldSLD_VEND_V_START n)
  let ve := v (fldSLD_VEND_V_STOP n)
  let vm := v (fldSLD_VEL_V_MAX n)
  let vb := v (fldSLD_VEL_V_BREAK n)
  let b1 := if vm < vb then vm else vb
  let lo := if vs < ve then ve else vs
  let b2 := if b1 < lo then lo else b1
  (⟨vs, ve, b2, vm, fget s (fldSLD_ACC_A1 n), fget s (fldSLD_ACC_A2 n), fget s (fldSLD_DEC_D1 n), fget s (fldSLD_DEC_D2 n)⟩,
    decide (vm < vb) || decide (vb < lo))

/-- Latch the profile; CLAMP where its speeds are out of order. -/
def sledLatch (s : State) (n : Fin 8) : State :=
  let (q, c) := profileOf s n
  let s1 := modSled s n (fun d => { d with prof := q })
  if c then fset s1 (fldSLD_STAT_CLAMP n) else s1

/-- A profile whose cruise is at a homing speed (R308, R311). -/
def homeProfile (q : Profile) (v : Int) : Profile :=
  { q with
    vMax := v
    vBreak := if v < q.vBreak then v else q.vBreak
    vStart := if v < q.vStart then v else q.vStart
    vStop := if v < q.vStop then v else q.vStop }

/-- HOME_FAST, and HOME_SLOW, which does not exceed V_START (R308). -/
def homeFast (s : State) (n : Nat) : Int := 2500 * fget s (fldSLD_HOME_CFG_HOME_FAST n)
def homeSlow (s : State) (n : Nat) : Int :=
  2500 * Nat.min (fget s (fldSLD_HOME_CFG_HOME_SLOW n)) (fget s (fldSLD_VEND_V_START n))

/-! ### Steps of a profile (R296) -/

/-- A distance r and d_stop(v) + k v tau, both brought to one scale.  Speeds in 0.0064 microsteps/s, decelerations in 256
microsteps/s^2, r in 2^-16 microstep. -/
def stopSides (q : Profile) (u r k : Int) : Int × Int :=
  if q.vBreak < u then
    (r * 1562500 * q.d1 * q.d2,
      8192 * ((u * u - q.vBreak * q.vBreak) * q.d1 + (q.vBreak * q.vBreak - q.vStop * q.vStop) * q.d2) + k * 16384 * u * q.d1 * q.d2)
  else if q.vStop < u then (r * 1562500 * q.d1, 8192 * (u * u - q.vStop * q.vStop) + k * 16384 * u * q.d1)
  else (r * 1562500, k * 16384 * u)

/-- Whether a distance is at most d_stop(v) + k v tau, and whether it is at least d_stop(v). -/
def withinStop (q : Profile) (u r k : Int) : Bool := decide ((stopSides q u r k).1 ≤ (stopSides q u r k).2)
def roomToStop (q : Profile) (u r : Int) : Bool := decide ((stopSides q u r 0).2 ≤ (stopSides q u r 0).1)

/-- The distance of one update at a speed, in 2^-16 microstep. -/
def stepOf (u : Int) : Int := roundDiv (u * 16384) 1562500

/-- The next speed, the segment and the acceleration code of an update of a profile (R293, R296). -/
def profileStep (q : Profile) (u r : Int) : Int × Nat × Int :=
  if u = 0 then (q.vStart, 1, q.a1)
  else if withinStop q u r 1 then
    let d := if q.vBreak < u then q.d2 else q.d1
    if u ≤ q.vStop then (q.vStop, 6, 0)
    else (if u - d < q.vStop then q.vStop else u - d, if q.vBreak < u then 4 else 5, -d)
  else if u < q.vBreak then (if q.vBreak < u + q.a1 then q.vBreak else u + q.a1, 1, q.a1)
  else if u < q.vMax then (if q.vMax < u + q.a2 then q.vMax else u + q.a2, 2, q.a2)
  else (q.vMax, 3, 0)

/-- The next speed of a deceleration to a stop through D2 and D1 (R299). -/
def stopStep (q : Profile) (u : Int) : Int × Nat × Int :=
  let d := if q.vBreak < u then q.d2 else q.d1
  (if u - d < q.vStop then q.vStop else u - d, if q.vBreak < u then 4 else 5, -d)

/-- Show the segment, and set the commanded acceleration in Q2.30, 1.0 being 2^24 microsteps/s^2 (R293). -/
def sledSeg (s : State) (n : Fin 8) (seg : Nat) (acc : Int) : State :=
  modSled (fput s (fldSLD_STAT_SEG n) seg) n (fun d => { d with acc := satInt 32 (acc * 16384) })

/-- Standstill. -/
def sledStill (s : State) (n : Fin 8) : State :=
  sledSeg (modSled s n (fun d => { d with u := 0, stopping := false, run := true })) n 0 0

/-- The chip time of an event (R314). -/
def sledEventAt (s : State) (n : Fin 8) (t : DWord) : State := putTime s (regSLD_EVT_TIME_LO n) (regSLD_EVT_TIME_HI n) t
def sledEvent (s : State) (n : Fin 8) : State := sledEventAt s n s.chipTime

/-- The chip time to which a debounced event of the switch is dated: its first edge (R307). -/
def edgeTime (s : State) (n : Fin 8) : DWord := s.sled[n].edges.headD s.chipTime

/-- A counter of a head (R552). -/
def countHead (s : State) (n : Fin 8) (k : Nat) : State := count s (192 + 18 * n.val + k)

/-! ### Starting moves -/

/-- Begin a move from standstill toward a target in microsteps (R297, R299). -/
def sledGo (s : State) (n : Fin 8) (t : Int) : State :=
  let s1 := sledLatch s n
  let rev := s.sled[n].reversing
  let s2 := modSled s1 n (fun d =>
    { d with
      tgt := t
      dir := if t * 2 ^ 16 < d.p then -1 else 1
      u := 0
      run := true
      stopping := false
      next := none
      reversing := false })
  let s3 := countHead (sledEnter s2 n 3) n 12
  if rev then countHead (fset s3 (fldSLD_STAT_REVERSED n)) n 13 else s3

/-- A target from standstill: a move, a wait for the hold bit, or nothing where it is reached (R300, R313). -/
def sledBegin (s : State) (n : Fin 8) (t : Int) : State :=
  if t * 2 ^ 16 = s.sled[n].p then modSled (sledEnter s n 1) n (fun d => { d with next := none, reversing := false })
  else if sledHeld s n then sledEnter (modSled s n (fun d => { d with next := some t })) n 2
  else sledGo s n t

/-- Whether a target lies ahead of a moving sled with room to stop (R299). -/
def canReach (d : Sled) (t : Int) : Bool :=
  let r := d.dir * (t * 2 ^ 16 - d.p)
  decide (0 < r) && roomToStop d.prof d.u r

/-- A refused target (R298). -/
def sledDeny (s : State) (n : Fin 8) : State := portionSledEnd (fset s (fldSLD_STAT_TGT_DENIED n)) n

/-- A target for a sled, from SLD_TARGET or a SEEK step (R298, R299, R313). -/
def sledTarget (s : State) (n : Fin 8) (value : Word) : State :=
  let t := value.toInt
  let d := s.sled[n]
  let st := sledState s n
  let s0 := wr s (regSLD_TARGET n) value
  if st = 1 ∧ d.phase = .none then sledBegin s0 n t
  else if st = 2 then
    if t * 2 ^ 16 = d.p then modSled (sledEnter s0 n 1) n (fun d => { d with next := none, reversing := false })
    else modSled s0 n (fun d => { d with next := some t })
  else if st = 3 ∧ ¬ (d.stopping ∧ d.stopFor = .off) then
    if canReach d t then modSled (sledLatch s0 n) n (fun d => { d with tgt := t, stopping := false })
    else sledEnter (modSled s0 n (fun d => { d with next := some t, stopping := true, stopFor := .reverse })) n 4
  else if st = 4 ∧ d.stopFor = .reverse then modSled s0 n (fun d => { d with next := some t })
  else sledDeny s n

/-- SLD_TARGET_WRITE. -/
def execSldTargetWrite (_agent : Agent) (n : Head) (value : BitVec 32) (s : State) : Host.Outcome State Fault Refusal :=
  .next (if headPresent s.variant n.val then sledTarget s n value else s)

/-- REV_DWELL has passed after a reversal stop (R299). -/
def revDwellEnd (s : State) (n : Fin 8) : State :=
  let d := s.sled[n]
  if sledState s n ≠ 4 ∨ d.stopping then s
  else match d.next with
    | some t => sledBegin (modSled s n (fun d => { d with reversing := true })) n t
    | none => sledEnter s n 1

/-- REV_DWELL_END. -/
def execRevDwellEnd (n : Head) (s : State) : Host.Outcome State Fault Refusal := .next (revDwellEnd s n)

/-! ### Power-down (R310) -/

/-- The driver stage is off; position kept or not. -/
def sledOff (s : State) (n : Fin 8) (keep : Bool) (code : Nat) : State :=
  let s1 := sledSeg (modSled s n (fun d =>
    { d with
      powered := false
      kept := keep
      run := false
      u := 0
      stopping := false
      next := none
      reversing := false
      phase := .none
      trim := 0
      coilA := 0
      coilB := 0
      driveA := 0
      driveB := 0 })) n 0 0
  sledEnter (if keep then s1 else fclr s1 (fldSLD_STAT_POS_VALID n)) n code

/-- Power the stage down from standstill: with a kept position the rotor settles at the nearest full-step point for 10 ms
first, in IDLE or PARKING (R310). -/
def sledPowerDown (s : State) (n : Fin 8) (keep : Bool) : State :=
  if keep then
    let q := sledPos s n
    let f := 256 * ((q + 128) / 256)
    let s1 := if sledState s n = 6 then s else sledEnter s n 1
    sledSeg (modSled s1 n (fun d =>
      { d with
        p := f * 2 ^ 16
        trim := 0
        u := 0
        stopping := false
        next := none
        run := true
        phase := .detent })) n 0 0
  else sledOff s n false 0

/-- Whether HOLD_EN asks that the position be kept. -/
def holdEn (s : State) (n : Nat) : Bool := fbit s (fldSLD_CTL_HOLD_EN n)

/-! ### Faults, stalls and limits -/

/-- The cell enters FAULT at standstill (R308, R311). -/
def sledFault (s : State) (n : Fin 8) : State :=
  portionSledEnd (sledEnter (modSled (sledStill s n) n (fun d => { d with phase := .none, next := none, reversing := false })) n 8) n

/-- A homing fault (R308). -/
def homeFault (s : State) (n : Fin 8) (cause : Nat) : State :=
  let s1 := fput (fset s (fldSLD_STAT_HOME_FAIL n)) (fldSLD_STAT_HOME_CAUSE n) cause
  sledFault (sledEvent (countHead (fclr s1 (fldSLD_STAT_POS_VALID n)) n 17) n) n

/-- Parking fails: the stage is off at once and the cell enters FAULT (R311). -/
def parkFault (s : State) (n : Fin 8) : State := portionSledEnd (sledOff s n (fbit s (fldSLD_STAT_POS_VALID n)) 8) n

/-- The command stops at once: IDLE, or the power-down that was under way (R306, R309, R313). -/
def sledHalt (s : State) (n : Fin 8) : State :=
  let off := s.sled[n].stopping && s.sled[n].stopFor == .off
  let s1 := portionSledEnd (sledEnter (modSled (sledStill s n) n (fun d => { d with next := none, reversing := false })) n 1) n
  if off then sledPowerDown s1 n (holdEn s1 n) else s1

/-- A stall or a lost step, by state (R306, R308, R311).  The load angle holds; after a lost step it is counted afresh (DESIGN CHOICE,
log 110). -/
def sledLose (s : State) (n : Fin 8) (lost : Bool) : State :=
  let st := sledState s n
  let s1 := sledEvent (countHead (fset s (if lost then fldSLD_STAT_LOST n else fldSLD_STAT_STALL n)) n (if lost then 15 else 14)) n
  let s2 := modSled (if lost then fclr s1 (fldSLD_STAT_POS_VALID n) else s1) n (fun d =>
    { d with stallRun := 0, delta := if lost then 0 else d.delta })
  if st = 5 then homeFault s2 n 5 else if st = 6 then parkFault s2 n else sledHalt s2 n

/-- The Crossing of a sled withdraws, or the motor bus latches: the stage is off at once (R312, R486). -/
def sledCut (s : State) (n : Fin 8) (xing : Bool) : State :=
  let st := sledState s n
  let keep := (st = 0 ∨ st = 7) ∧ s.sled[n].kept
  let s1 := if xing then fset s (fldSLD_STAT_XING n) else s
  portionSledEnd (sledOff s1 n (keep && fbit s (fldSLD_STAT_POS_VALID n)) 8) n

/-! ### Phases of homing and parking (R308, R311) -/

/-- Begin a phase at the present point. -/
def sledPhase (s : State) (n : Fin 8) (ph : HomePhase) (dir u : Int) : State :=
  modSled s n (fun d => { d with phase := ph, p0 := d.p, dir := dir, u := u, stopping := false })

/-- Move inward or outward at HOME_SLOW. -/
def sledSlow (s : State) (n : Fin 8) (ph : HomePhase) (dir : Int) : State :=
  let s1 := modSled (sledLatch s n) n (fun d => { d with prof := homeProfile d.prof (homeSlow s n) })
  sledSeg (sledPhase s1 n ph dir (homeSlow s n)) n 3 0

/-- Move toward a target at HOME_FAST with the profile accelerations. -/
def sledFast (s : State) (n : Fin 8) (ph : HomePhase) (t : Int) : State :=
  let s1 := sledLatch s n
  modSled s1 n (fun d =>
    { d with
      phase := ph
      p0 := d.p
      prof := homeProfile d.prof (homeFast s n)
      tgt := t
      dir := if t * 2 ^ 16 < d.p then -1 else 1
      u := 0
      stopping := false })

/-- LATCH begins: the sled stands for 2 ms, 80 updates (R308). -/
def sledLatchWait (s : State) (n : Fin 8) : State :=
  modSled (sledStill s n) n (fun d => { d with phase := .latchWait, waitLeft := 80 })

/-- A parking sled has stopped: on to PARK_POS, or inward to the switch (R311). -/
def parkOn (s : State) (n : Fin 8) : State :=
  if fbit s (fldSLD_STAT_POS_VALID n) then
    let t := (rd s (regSLD_PARK n)).toInt
    if t * 2 ^ 16 = s.sled[n].p then sledPowerDown s n true else sledFast s n .parkMove t
  else sledSlow s n .parkSearch (-1)

/-- A park request from the PARK bit (0), a supply fault (1) or SAFE_N (2) (R311, R313). -/
def sledPark (s : State) (n : Fin 8) (src : Nat) : State :=
  let s0 := if src = 0 then s else modSled s n (fun d => { d with parkSrc := addOnce d.parkSrc src })
  let st := sledState s n
  if st = 0 ∨ st = 6 ∨ st = 7 then s0
  else
    let s1 := modSled (sledEnter s0 n 6) n (fun d =>
      { d with next := none, reversing := false, powered := true, trim := 0, phase := .none, run := d.run && d.u == 0 })
    if 0 < s.sled[n].u then modSled s1 n (fun d => { d with stopping := true, stopFor := .park }) else parkOn s1 n

/-- A park request that a supply fault or SAFE_N holds takes a sled that has left OFF or FAULT (R311, R480, R546). -/
def sledParkHeld (s : State) (n : Fin 8) : State :=
  match s.sled[n].parkSrc with
  | [] => s
  | src :: _ => sledPark s n src

/-- HOME: the first phase depends on the switch (R308); a park request that is held takes the sled at once. -/
def sledHome (s : State) (n : Fin 8) : State :=
  let st := sledState s n
  if (st = 1 ∧ s.sled[n].phase = .none) ∨ st = 8 then
    let s1 := modSled (sledEnter s n 5) n (fun d => { d with powered := true, trim := 0, run := false })
    sledParkHeld (if fbit s (fldSLD_STAT_SW n) then sledSlow s1 n .backoff 1
      else sledFast s1 n .seek (s1.sled[n].p / 2 ^ 16 - fget s1 (fldSLD_HOME_EXP_EXPECT n))) n
  else s

/-- SLED_HOME. -/
def execSledHome (_agent : Agent) (n : Head) (s : State) : Host.Outcome State Fault Refusal :=
  .next (if headPresent s.variant n.val then sledHome s n else s)

/-- A source of parking is released. -/
def sledParkRelease (s : State) (n : Fin 8) (src : Nat) : State :=
  modSled s n (fun d => { d with parkSrc := d.parkSrc.filter (fun k => k != src) })

/-- SLED_PARK. -/
def execSledPark (_agent : Agent) (n : Head) (s : State) : Host.Outcome State Fault Refusal :=
  .next (if headPresent s.variant n.val then sledPark s n 0 else s)

/-- UNPARK: from PARKED the sled powers up at its kept point; refused while a source stands (R311, R313). -/
def sledUnpark (s : State) (n : Fin 8) : State :=
  if sledState s n ≠ 7 then s
  else if s.sled[n].parkSrc.isEmpty then sledEnter (modSled s n (fun d => { d with powered := true, run := false })) n 1
  else sledDeny s n

/-- SLED_UNPARK. -/
def execSledUnpark (_agent : Agent) (n : Head) (s : State) : Host.Outcome State Fault Refusal :=
  .next (if headPresent s.variant n.val then sledUnpark s n else s)

/-- ABORT: a move decelerates to a stop; FAULT returns to IDLE (R313). -/
def sledAbort (s : State) (n : Fin 8) : State :=
  if sledState s n = 3 ∧ ¬ s.sled[n].stopping then
    if 0 < s.sled[n].u then modSled s n (fun d => { d with stopping := true, stopFor := .idle }) else sledEnter (sledStill s n) n 1
  else if sledState s n = 8 then sledParkHeld (sledEnter (modSled s n (fun d => { d with powered := true, run := false })) n 1) n
  else s

/-- SLED_ABORT. -/
def execSledAbort (_agent : Agent) (n : Head) (s : State) : Host.Outcome State Fault Refusal :=
  .next (if headPresent s.variant n.val then sledAbort s n else s)

/-- DRV_EN is written: 1 powers the stage up, or ends a power-down whose rotor still settles (R310, R313). -/
def sledDrvEn (s : State) (n : Fin 8) (on : Bool) : State :=
  let s0 := fputB s (fldSLD_CTL_DRV_EN n) on
  let st := sledState s n
  if on then
    if st = 0 then sledParkHeld (sledEnter (modSled s0 n (fun d => { d with powered := true, run := false })) n 1) n
    else if st = 1 then modSled s0 n (fun d => { d with phase := .none })
    else s0
  else if st = 0 ∨ st = 6 ∨ st = 7 then s0
  else if 0 < s.sled[n].u then
    modSled s0 n (fun d => { d with stopping := true, stopFor := .off, next := none, reversing := false, phase := .none })
  else sledPowerDown s0 n (holdEn s0 n)

/-- SLD_DRV_EN_WRITE. -/
def execSldDrvEnWrite (_agent : Agent) (n : Head) (on : Bool) (s : State) : Host.Outcome State Fault Refusal :=
  .next (if headPresent s.variant n.val then sledDrvEn s n on else s)

/-! ### The update (R294) -/

/-- Move by one update at a speed. -/
def sledMove (s : State) (n : Fin 8) (u step : Int) : State :=
  modSled s n (fun d => { d with u := u, p := d.p + d.dir * step })

/-- One update toward the target; whether it has been reached (R296). -/
def sledToward (s : State) (n : Fin 8) : State × Bool :=
  let d := s.sled[n]
  let r := (d.tgt * 2 ^ 16 - d.p).natAbs
  let (u, seg, acc) := profileStep d.prof d.u r
  let step := if (r : Int) < stepOf u then (r : Int) else stepOf u
  let s1 := sledSeg (sledMove s n u step) n seg (d.dir * acc)
  (s1, s1.sled[n].p == d.tgt * 2 ^ 16)

/-- What follows a deceleration to a stop (R299, R310, R311, R313). -/
def sledStopped (s : State) (n : Fin 8) : State :=
  let s1 := sledStill s n
  match s.sled[n].stopFor with
  | .idle => sledEnter s1 n 1
  | .off => sledPowerDown s1 n (holdEn s1 n)
  | .reverse => s1
  | .park => parkOn s1 n

/-- One update of a deceleration to a stop. -/
def sledStopping (s : State) (n : Fin 8) : State :=
  let d := s.sled[n]
  let (u, seg, acc) := stopStep d.prof d.u
  let s1 := sledSeg (sledMove s n u (stepOf u)) n seg (d.dir * acc)
  if u ≤ d.prof.vStop then sledStopped s1 n else s1

/-- The trip of SEEK has been reached by a stop at D1: early, or a fault (R308). -/
def seekStopped (s : State) (n : Fin 8) : State :=
  let d := s.sled[n]
  let travel := d.p0 - d.edgePos
  if 9 * (fget s (fldSLD_HOME_EXP_EXPECT n) : Int) * 2 ^ 16 ≤ 10 * travel then
    sledLatchWait (fset s (fldSLD_STAT_HOME_EARLY n)) n
  else homeFault s n 1

/-- Whether a phase has travelled further than a limit in microsteps. -/
def travelled (d : Sled) (lim : Nat) : Bool := decide ((lim : Int) * 2 ^ 16 < (d.p - d.p0).natAbs)

/-- One update of homing or parking (R308, R311). -/
def sledPhaseStep (s : State) (n : Fin 8) : State :=
  let d := s.sled[n]
  let slow := sledMove s n d.u (stepOf d.u)
  let back := fget s (fldSLD_HOME_LIM_BACKOFF_MAX n)
  let search := fget s (fldSLD_HOME_LIM_SEARCH_MAX n)
  match d.phase with
  | .none => s
  | .backoff => if travelled slow.sled[n] back then homeFault slow n 3 else slow
  | .seek =>
    let (s1, done) := sledToward s n
    if done then sledSlow s1 n .search (-1) else s1
  | .seekStop =>
    let u := if d.u - d.prof.d1 < d.prof.vStop then d.prof.vStop else d.u - d.prof.d1
    let s1 := sledSeg (sledMove s n u (stepOf u)) n 5 (d.prof.d1)
    if u ≤ d.prof.vStop then seekStopped (sledStill s1 n) n else s1
  | .search => if travelled slow.sled[n] search then homeFault slow n 2 else slow
  | .latchWait =>
    if d.waitLeft ≤ 1 then sledSlow s n .latchOut 1 else modSled s n (fun d => { d with waitLeft := d.waitLeft - 1 })
  | .latchOut => if travelled slow.sled[n] back then homeFault slow n 3 else slow
  | .parkMove =>
    let (s1, done) := sledToward s n
    if done then sledPowerDown s1 n true else s1
  | .parkSearch => if travelled slow.sled[n] search then parkFault slow n else slow
  | .detent => s

/-- Step 1: the profile (R296, R299, R300, R313). -/
def sledStep1 (s : State) (n : Fin 8) : State :=
  let d := s.sled[n]
  let st := sledState s n
  if d.stopping then sledStopping s n
  else if st = 2 then
    match d.next with
    | some t => if sledHeld s n then s else sledGo s n t
    | none => s
  else if st = 3 then
    let (s1, done) := sledToward s n
    if done then sledEnter (sledStill s1 n) n 1 else s1
  else if st = 5 ∨ st = 6 then sledPhaseStep s n
  else s

/-- Step 2: the applied trim moves toward the committed one (R301). -/
def sledStep2 (s : State) (n : Fin 8) : State :=
  let req := (seOut s (Fin.ofNat 10 n.val) 3).toInt
  let st := sledState s n
  let top : Int := fget s (fldSLD_TRIMCFG_TRIM_MAX n)
  let rate : Int := fget s (fldSLD_TRIMCFG_TRIM_RATE n)
  let goal := clampInt req (-top) top
  let now := s.sled[n].trim
  let next := if s.sled[n].phase = .detent then 0
    else if st = 1 ∨ st = 2 ∨ st = 3 ∨ st = 4 then now + clampInt (goal - now) (-rate) rate
    else if st = 8 then now else 0
  let s1 := if goal ≠ req ∧ 1 ≤ st ∧ st ≤ 4 then fset s (fldSLD_STAT_CLAMP n) else s
  fputInt (fputInt (modSled s1 n (fun d => { d with trim := next })) (fldSLD_TRIM_APPLIED n) next) (fldSLD_TRIM_REQ n) (satInt 16 req)

/-- The present current level in 1/256 of 500 mA (R302). -/
def coilLevel (s : State) (n : Fin 8) : Nat := fget s (if s.sled[n].run then fldSLD_CUR_I_RUN n else fldSLD_CUR_I_HOLD n)

/-- Coil currents at a coil position, in 1/65,536 of the level (R302). -/
def coilAt (s : State) (n : Nat) (q : Int) : Int × Int :=
  let m := (q % 1024).toNat
  let w := (rd s (regSLD_USTEP n (m % 256))).toNat
  let a : Int := bitsOf w 31 16
  let b : Int := bitsOf w 15 0
  if m / 256 = 0 then (a, b) else if m / 256 = 1 then (-b, a) else if m / 256 = 2 then (-a, -b) else (b, -a)

/-- The mode that the speed asks for, or the one that waits (R304). -/
def modeWanted (s : State) (n : Fin 8) : Option Bool :=
  let thr : Int := 2500 * fget s (fldSLD_MODE_MODE_THR n)
  let hyst : Int := 2500 * fget s (fldSLD_MODE_MODE_HYST n)
  let u := s.sled[n].u
  if thr ≤ u then some true else if u < thr - hyst then some false else s.sled[n].modeWant

/-- Whether a full-step point lies on the way from one coil position to another. -/
def fullStepPassed (q0 q1 : Int) : Bool := q0 / 256 != q1 / 256 || (q1 % 256 == 0 && q0 != q1)

/-- What the driver holds a coil to: the peak of the current in strong mode; in quiet mode the reference times R_COIL, the induced
voltage and the slow correction, in microvolts (R304). -/
def coilDrive (s : State) (n : Fin 8) (ref emf i : Int) : Int :=
  if fbit s (fldSLD_STAT_MODE n) then ref
  else
    let ma := roundDiv (ref * 500) (2 ^ 24)
    ma * fget s (fldSLD_COIL_R_COIL n) + emf + Config.sledCorrection ma i

/-- The driver follows the references and the mode; a stage without power drives nothing. -/
def putDrive (s : State) (n : Fin 8) (ia ib : Int) : State :=
  modSled s n (fun d =>
    { d with
      driveA := if d.powered then coilDrive s n d.coilA d.emfA ia else 0
      driveB := if d.powered then coilDrive s n d.coilB d.emfB ib else 0 })

/-- Step 3: the coil currents, and the driver's mode (R302, R304). -/
def sledStep3 (s : State) (n : Fin 8) (q0 : Int) : State :=
  let q := sledPos s n
  let (a, b) := if s.sled[n].powered then coilAt s n q else (0, 0)
  let s1 := modSled s n (fun d => { d with coilA := a * coilLevel s n, coilB := b * coilLevel s n })
  let force := fget s (fldSLD_CTL_MODE_FORCE n)
  if force = 1 ∨ force = 2 then modSled (fputB s1 (fldSLD_STAT_MODE n) (force == 2)) n (fun d => { d with modeWant := none })
  else
    let s2 := if fullStepPassed q0 q then
        match s.sled[n].modeWant with
        | some m => fputB s1 (fldSLD_STAT_MODE n) m
        | none => s1
      else s1
    modSled s2 n (fun d => { d with modeWant := modeWanted s2 n })

/-- The back-EMF of a coil in microvolts: voltage in mV, current and its change over the update in mA (R305). -/
def coilEmf (s : State) (n : Nat) (v i d : Int) : Int :=
  1000 * v - fget s (fldSLD_COIL_R_COIL n) * i - 40 * fget s (fldSLD_COIL_L_COIL n) * d

/-- Step 4: the load angle, a stall, a lost step (R305, R306). -/
def sledStep4 (s : State) (n : Fin 8) (va vb ia ib da db : Int) : State :=
  let d := s.sled[n]
  let ea := coilEmf s n va ia da
  let eb := coilEmf s n vb ib db
  let s0 := fput (modSled s n (fun d => { d with emfA := ea, emfB := eb })) (fldSLD_LOAD_EMF n) (Nat.min 0xFFFF (isqrt (ea * ea + eb * eb).natAbs / 1000))
  let valid := decide (2500 * (fget s (fldSLD_STALL_EST_MIN n) : Int) ≤ d.u) && d.powered && decide (0 < d.u)
  let s1 := fputB s0 (fldSLD_STAT_EST_VALID n) valid
  if !valid then s1
  else
    let rotor : Int := atanTurn ea eb - d.dir * 2 ^ 30
    let cmd : Int := (sledPos s n % 1024) * 2 ^ 22
    let raw := (BitVec.ofInt 32 (d.dir * (cmd - rotor) - d.delta)).toInt
    let delta := d.delta + raw
    let stall := decide ((fget s (fldSLD_STALL_STALL_ANG n) : Int) * 2 ^ 24 ≤ delta)
    let s2 := modSled s1 n (fun d => { d with delta := delta, stallRun := if stall then d.stallRun + 1 else 0 })
    let s3 := fputInt s2 (fldSLD_LOAD_DELTA n) (satInt 16 (delta / 2 ^ 24))
    if 2 ^ 31 ≤ delta.natAbs then sledLose s3 n true
    else if fget s (fldSLD_STALL_STALL_CNT n) ≤ s3.sled[n].stallRun ∧ stall then sledLose s3 n false
    else s3

/-- Whether an address is SLD_COIL or SLD_STALL of a sled (R314). -/
def sledPendReg (n : Nat) (a : Nat) : Bool := a == regSLD_COIL n || a == regSLD_STALL n

/-- Writes of SLD_COIL and SLD_STALL that waited take effect (R314). -/
def sledApply (s : State) (n : Fin 8) : State :=
  if s.pend.any (fun p => sledPendReg n p.1) then fclr (applyPend s (sledPendReg n)) (fldSLD_STAT_PARAM_PEND n) else s

/-- One update of a sled cell (R294). -/
def sledUpdate (s : State) (n : Fin 8) (va vb ia ib da db : Int) : State :=
  let s0 := if sweepRunning s then s else sledApply s n
  let q0 := sledPos s0 n
  let s1 := putDrive (sledStep3 (sledStep2 (sledStep1 s0 n) n) n q0) n ia ib
  let s2 := sledStep4 s1 n va vb ia ib da db
  wr s2 (regSLD_POS n) (BitVec.ofInt 32 (s2.sled[n].p / 2 ^ 16))

/-- SLED_UPDATE: voltages in mV, currents and their changes over the update in mA, of the two coils. -/
def execSledUpdate (n : Head) (va vb ia ib da db : Int) (s : State) : Host.Outcome State Fault Refusal :=
  .next (if headPresent s.variant n.val then sledUpdate s n va vb ia ib da db else s)

/-- 10 ms after a stop: I_HOLD, or the end of a power-down with its rotor settled (R302, R310). -/
def runCurrentEnd (s : State) (n : Fin 8) : State :=
  let st := sledState s n
  if s.sled[n].phase = .detent then sledOff s n true (if st = 6 then 7 else 0)
  else if st = 3 ∨ st = 4 then s
  else modSled s n (fun d => { d with run := false })

/-- RUN_CURRENT_END. -/
def execRunCurrentEnd (n : Head) (s : State) : Host.Outcome State Fault Refusal := .next (runCurrentEnd s n)

/-! ### The home switch (R307 to R309) -/

/-- An edge of the switch: more than 8 within 2 ms are chatter (R307). -/
def switchEdge (s : State) (n : Fin 8) : State :=
  let keep := s.sled[n].edges.filter (fun t => decide ((s.chipTime - t).toNat ≤ 2000000))
  let s1 := modSled s n (fun d => { d with edges := (s.chipTime :: keep).take 9, edgePos := d.p })
  if 9 ≤ s1.sled[n].edges.length then
    let s2 := fset s1 (fldSLD_STAT_CHATTER n)
    if sledState s n = 5 ∨ sledState s n = 6 then homeFault s2 n 4 else s2
  else s1

/-- HOME_SWITCH_EDGE. -/
def execHomeSwitchEdge (n : Head) (s : State) : Host.Outcome State Fault Refusal :=
  .next (if headPresent s.variant n.val then switchEdge s n else s)

/-- Homing is done: p at the release edge is HOME_OFS (R308). -/
def homeDone (s : State) (n : Fin 8) : State :=
  let ofs := (rd s (regSLD_HOME_OFS n)).toInt * 2 ^ 16
  let s1 := modSled (sledStill s n) n (fun d => { d with p := ofs + (d.p - d.edgePos), edgePos := ofs, phase := .none, delta := 0 })
  sledEventAt (countHead (sledEnter (fset s1 (fldSLD_STAT_POS_VALID n)) n 1) n 16) n (edgeTime s n)

/-- A debounced trip. -/
def switchTrip (s : State) (n : Fin 8) : State :=
  let d := s.sled[n]
  let st := sledState s n
  if st = 5 then
    match d.phase with
    | .seek => if 0 < d.u then modSled s n (fun d => { d with phase := .seekStop }) else seekStopped s n
    | .search => sledLatchWait s n
    | _ => s
  else if st = 6 then
    match d.phase with
    | .parkSearch => sledPowerDown (sledStill s n) n true
    | _ => s
  else if 0 < d.u ∧ d.dir = -1 then
    sledHalt (sledEventAt (fclr (fset s (fldSLD_STAT_LIMIT_HIT n)) (fldSLD_STAT_POS_VALID n)) n (edgeTime s n)) n
  else s

/-- A debounced release. -/
def switchRelease (s : State) (n : Fin 8) : State :=
  if sledState s n = 5 then
    match s.sled[n].phase with
    | .backoff => sledSlow s n .search (-1)
    | .latchOut => homeDone s n
    | _ => s
  else s

/-- The level of the switch has held for 2 ms (R307). -/
def switchDebounced (s : State) (n : Fin 8) (level : Bool) : State :=
  let active := level == fbit s (fldSLD_CTL_HOME_POL n)
  if active = fbit s (fldSLD_STAT_SW n) then s
  else
    let s1 := wr (fputB s (fldSLD_STAT_SW n) active) (regSLD_TRIP_POS n) (BitVec.ofInt 32 (s.sled[n].edgePos / 2 ^ 16))
    if active then switchTrip s1 n else switchRelease s1 n

/-- SWITCH_DEBOUNCED: `level` is the pin's level. -/
def execSwitchDebounced (n : Head) (level : Bool) (s : State) : Host.Outcome State Fault Refusal :=
  .next (if headPresent s.variant n.val then switchDebounced s n level else s)

end Machine
end Sys2Proof
end

