-- ==== Sys2Proof/Machine/Spindle.lean ====
section
/-! DEFINITION. The spindle block: period start and midpoint (R269 to R273, R278), the start sequence and braking (R276,
R279 to R283), target, ramp, phase advance, AT_SPEED and the disc angle (R284 to R289). -/

namespace Sys2Proof
namespace Machine

/-- A number put on the circle of a 32-bit fraction of a turn. -/
def turnWord (x : Int) : Word := BitVec.ofInt 32 x

/-- POLE_PAIRS: 0 is taken as 1 (R290). -/
def polePairs (s : State) : Nat := Nat.max 1 (fget s fldSPN_MOTOR_POLE_PAIRS)

/-- PERIOD in 10 ns. -/
def pwmPeriod (s : State) : Nat := fget s fldSPN_PWM_PERIOD

/-! ### The target in force (R284, R288) -/

/-- Whether a value was clamped. -/
def noteClamp (s : State) (b : Bool) : State := if b then fset s fldSPN_STAT_CLAMP else s

/-- The target in force follows SPN_SPEED; AT_SPEED clears when it changes (R284, R288). -/
def spnTarget (s : State) : State :=
  let top := Nat.min 7200 (fget s fldSPN_SPEED_SPD_MAX)
  let want := fget s fldSPN_SPEED_TARGET
  let t := Nat.min (Nat.max want 600) top
  let s1 := noteClamp s (top != fget s fldSPN_SPEED_SPD_MAX || t != want)
  if t = s.spn.target then s1
  else fclr (modSpn s1 (fun q => { q with target := t, inTol := 0, outTol := 0 })) fldSPN_STAT_AT_SPEED

/-- A write of SPN_SPEED that waited takes effect (R284). -/
def spnSpeedApply (s : State) : State :=
  if (aget? s.pend regSPN_SPEED).isSome then
    spnTarget (fclr (applyPend s (fun a => a == regSPN_SPEED)) fldSPN_STAT_PARAM_PEND)
  else s

/-- The registers that take effect at the next period start (R290). -/
def spnPeriodReg (a : Nat) : Bool :=
  a == regSPN_RAMP || a == regSPN_LIMITS || a == regSPN_REGEN || (List.range 4).any (fun i => a == regSPN_PA i)

/-! ### Speed and disc angle (R288, R289) -/

/-- Whether any read channel of H0 or H4 holds WEDGE_LOCK. -/
def discLocked (s : State) : Bool :=
  [(0 : Fin 8), 4].any (fun n => headPresent s.variant n.val && (List.finRange 4).any (fun sp => fbit s (fldRC_STAT_WEDGE_LOCK (headChan n sp))))

/-- Show a measured speed in 1/8 rpm. -/
def putSpeed (s : State) (x : Int) : State :=
  let s1 := fput (modSpn s (fun q => { q with spdMeas := x })) fldSPN_SPD_MEAS (Nat.min 0xFFFF x.natAbs)
  fputB s1 fldSPN_STAT_REVERSE (x < 0)

/-- SPD_SRC and ANGLE_VALID follow the locks. -/
def showLocked (s : State) : State := fputB (fputB s fldSPN_STAT_SPD_SRC (discLocked s)) fldSPN_STAT_ANGLE_VALID (discLocked s)

/-- A revolution ends: AT_SPEED sets after 8 within the tolerance with the ramp at the target, and clears after 2 outside twice
the tolerance (R288). -/
def spnRevolution (s : State) : State :=
  let t : Int := 8 * s.spn.target
  let dev := (s.spn.spdMeas - t).natAbs * 10000
  let tol := fget s fldSPN_LIMITS_SPD_TOL * 8 * s.spn.target
  let good := decide (s.spn.ramp = s.spn.target * 10 ^ 8) && decide (dev ≤ tol)
  let bad := decide (2 * tol < dev)
  let s1 := modSpn s (fun q =>
    { q with
      inTol := if good then Nat.min 8 (q.inTol + 1) else 0
      outTol := if bad then Nat.min 2 (q.outTol + 1) else 0 })
  if 8 ≤ s1.spn.inTol then fset s1 fldSPN_STAT_AT_SPEED
  else if 2 ≤ s1.spn.outTol then fclr s1 fldSPN_STAT_AT_SPEED
  else s1

/-- The speed in 1/8 rpm that an angle increment per period stands for. -/
def omegaSpeed (s : State) (omega : Int) : Int :=
  roundDiv (omega * 48000000000) (2 ^ 32 * (Nat.max 1 (pwmPeriod s)) * polePairs s)

/-- DISC_ANGLE passes 0 so many times. -/
def turnCount (s : State) (k : Int) : State := modSpn s (fun q => { q with turns := ((q.turns : Int) + k).toNat })

/-- SPD_MEAS and DISC_ANGLE over one period (R289). -/
def discAdvance (s : State) : State :=
  if discLocked s then
    let d := roundDiv (s.spn.spdMeas * pwmPeriod s * 2 ^ 32) 48000000000
    let s1 := wr (showLocked s) regSPN_ANGLE (rd s regSPN_ANGLE + turnWord d)
    turnCount s1 (((rd s regSPN_ANGLE).toNat + d) / 2 ^ 32)
  else
    let om := (seOut s 8 3).toInt
    let old := (rd s regSPN_ANGLE).toNat
    let new := (old : Int) + roundDiv om (polePairs s)
    let s1 := turnCount (wr (putSpeed (showLocked s) (omegaSpeed s om)) regSPN_ANGLE (turnWord new)) (new / 2 ^ 32)
    if new < 0 ∨ 2 ^ 32 ≤ new then spnRevolution s1 else s1

/-! ### The applied angle and vector (R273) -/

/-- Whether outputs are taken at a period start now: committed at least 200 ns before, or late for an earlier one (R270). -/
def setDue (s : State) (u : SpnSet) : Bool := u.late || decide (u.time.toNat + 200 ≤ s.chipTime.toNat)

/-- The sets that this period start takes; what SE8 commits crosses Crossing 32 (R268). -/
def setsDue (s : State) : List SpnSet := if xingArmed s 32 then s.spn.sets.filter (setDue s) else []

/-- The sets that wait are taken, the last one's vector and speed in force; those that came too late for this period wait for the
next, with LATE_DUTY (R270). -/
def spnTake (s : State) : State :=
  if !(xingArmed s 32) then s
  else
    let rest := s.spn.sets.filter (fun u => !(setDue s u))
    let s1 := modSpn s (fun q =>
      { q with
        vd := ((setsDue s).getLast?.map (·.vd)).getD q.vd
        vq := ((setsDue s).getLast?.map (·.vq)).getD q.vq
        omega := ((setsDue s).getLast?.map (·.omega)).getD q.omega
        sets := rest.map (fun u => { u with late := true }) })
    if rest.isEmpty then s1 else count (fset s1 fldSPN_STAT_LATE_DUTY) 375

/-- The angle of the period by R273, and the vector that goes with it: the latest THETA_SET committed in time, else the latest that
came late and one period on, else the angle of the last period and one on. -/
def spnAngle (s : State) : State :=
  let sets := (setsDue s).filter (·.angle)
  let s1 := spnTake s
  modSpn s1 (fun q =>
    { q with
      theta := match (sets.filter (fun u => !u.late)).getLast?, sets.getLast? with
        | some u, _ => u.theta
        | none, some u => u.theta + q.omega
        | none, none => q.theta + q.omega })

/-- The sequencer's angle after one more period at its speed (R281). -/
def seqAdvance (s : State) : Word :=
  s.spn.seqTheta + turnWord (roundDiv ((s.spn.seqSpeed : Int) * polePairs s * pwmPeriod s * 2 ^ 32) (60 * 10 ^ 16))

/-- FORCED: the speed rises to HANDOVER at START_ACC and the angle advances (R281). -/
def seqForced (s : State) : State :=
  let top := fget s fldSPN_START_HANDOVER * 10 ^ 8
  let s1 := modSpn s (fun q => { q with seqSpeed := Nat.min top (q.seqSpeed + fget s fldSPN_START2_START_ACC * pwmPeriod s) })
  modSpn s1 (fun q => { q with seqTheta := seqAdvance s1 })

/-- Whether two angles lie within 20 degrees (R281). -/
def agrees (a b : Word) : Bool := decide ((a - b).toInt.natAbs * 18 ≤ 2 ^ 32)

/-- Agreement over one period: SE8 has committed in time, within 20 degrees of the sequencer's angle (R281). -/
def noteAgree (s : State) (inTime : Bool) : State :=
  modSpn s (fun q => { q with agree := if inTime && agrees (seOut s 8 2) q.seqTheta then Nat.min 16 (q.agree + 1) else 0 })

/-- RUN begins with the ramp at a speed in 10^-8 rpm; the start is satisfied. -/
def spnRun (s : State) (speed : Nat) : State :=
  let s1 := modSpn (spnEnter s 7 .vector) (fun q => { q with startPend := false, ramp := speed })
  fput s1 fldSPN_SPD_CMD ((8 * speed + 5 * 10 ^ 7) / 10 ^ 8)

/-- The slew from the sequencer's angle to SE8's over 16 periods; then RUN (R279). -/
def spnSlew (s : State) : State :=
  if s.spn.slew = 0 then s
  else
    let d := (seOut s 8 2 - s.spn.seqTheta).toInt
    let s1 := modSpn s (fun q => { q with theta := q.seqTheta + turnWord (roundDiv (d * q.slew) 16), slew := q.slew + 1 })
    if 16 ≤ s.spn.slew then spnRun s1 (fget s fldSPN_START_HANDOVER * 10 ^ 8) else s1

/-- The angle and the vector at the start of a period, by state; where the start sequencer drives the gates, and in the first
period of CATCH, what SE8 committed for it is ignored. -/
def spnPeriod (s : State) : State :=
  let st := spnState s
  let inTime := (setsDue s).any (fun u => u.angle && !u.late)
  if st = 4 then modSpn (spnTake s) (fun q => { q with theta := 0 })
  else if st = 5 then
    let s1 := seqForced (spnTake s)
    spnSlew (noteAgree (modSpn s1 (fun q => { q with theta := q.seqTheta })) inTime)
  else if st = 6 then
    if s.spn.firstPeriod then
      modSpn (spnTake s) (fun q => { q with firstPeriod := false, vd := s.spn.vd, vq := s.spn.vq, omega := s.spn.omega })
    else
      let s1 := spnAngle s
      noteAgree (modSpn s1 (fun q => { q with seqTheta := seqAdvance s })) inTime
  else if st = 7 ∨ st = 8 then spnAngle s
  else modSpn s (fun q => { q with sets := [] })

/-- The square of the committed vector and of VMOD_MAX, and whether the limit is reached (R285). -/
def vecSq (q : Spindle) : Int := q.vd * q.vd + q.vq * q.vq
def vmodLim (s : State) : Int := fget s fldSPN_LIMITS_VMOD_MAX * 2 ^ 22

/-- V_LIM shows that the committed vector reached VMOD_MAX (R285). -/
def vecLimit (s : State) : State :=
  fputB s fldSPN_STAT_V_LIM (vmodLim s * vmodLim s ≤ vecSq s.spn && decide (4 ≤ spnState s) && decide (spnState s ≤ 8))

/-- The vector that the modulator puts out, before its rotation: scaled down to VMOD_MAX with its angle kept (R273). -/
def spnVector (s : State) : Int × Int :=
  let m := vmodLim s
  let len : Int := Nat.max 1 (isqrt (vecSq s.spn).natAbs)
  if m * m < vecSq s.spn then (roundDiv (s.spn.vd * m) len, roundDiv (s.spn.vq * m) len) else (s.spn.vd, s.spn.vq)

/-- The voltage of phases U, V and W for a vector at an angle, in the scale of its axes. -/
def phasesOf (d q : Int) (angle : Word) : List Int :=
  ([0, 1, 2] : List Nat).map (fun k =>
    let t := (angle.toNat + k * (2 ^ 33 / 3)) % 2 ^ 32
    roundDiv (d * cosTurn t - q * sinTurn t) (2 ^ 70))

/-- The phases of the motor at the pins: DIR_INV reverses their order by exchanging U and V (R290; DESIGN CHOICE, log 107). -/
def dirSwap (s : State) {α : Type} (l : List α) : List α :=
  match fbit s fldSPN_CTL_DIR_INV, l with
  | true, u :: v :: rest => v :: u :: rest
  | _, _ => l

/-- What the modulator puts out: the vector rotated by the applied angle and the phase advance (R273). -/
def putPhases (s : State) : State :=
  modSpn s (fun q => { q with phases := dirSwap s (phasesOf (spnVector s).1 (spnVector s).2 (q.theta + q.pa)) })

/-- The test pulse that comes next: VMOD_MAX at 30 k degrees (R280). -/
def putPulse (s : State) : State :=
  modSpn s (fun q => { q with phases := dirSwap s (phasesOf (vmodLim s) 0 (BitVec.ofNat 32 (q.pulses.length * 2 ^ 32 / 12))) })

/-! ### Phase advance (R286) -/

/-- An entry of the phase-advance table, bit 7 ignored. -/
def paEntry (s : State) (j : Nat) : Nat := (rd s (regSPN_PA (j / 4))).toNat / 2 ^ (8 * (j % 4)) % 128

/-- PA: the table at |SPD_MEAS|, entry j at 512 j rpm, as a fraction of a turn; above the last entry, that entry. -/
def phaseAdvance (s : State) : Word :=
  if !(fbit s fldSPN_CTL_PA_EN) then 0
  else
    let x := s.spn.spdMeas.natAbs
    let j := x / 4096
    if 15 ≤ j then BitVec.ofNat 32 (paEntry s 15 * 2 ^ 22)
    else turnWord (((paEntry s j : Int) * 4096 + ((paEntry s (j + 1) : Int) - paEntry s j) * (x % 4096)) * 2 ^ 10)

/-! ### The ramp (R285, R287) -/

/-- The ramp's goal in 10^-8 rpm. -/
def rampGoal (s : State) : Nat := if spnState s = 7 then s.spn.target * 10 ^ 8 else 0

/-- A slope in rpm/s as ACC_CMD: 1.0 is 1,000 rpm/s (R271). -/
def accWord (slope : Int) : Int := roundDiv (slope * 2 ^ 30) 1000

/-- REGEN_PAUSE: while the ramp moves downward, from above PAUSE_ON until below PAUSE_OFF (R287). -/
def regenPause (s : State) (busMv : Nat) : Bool :=
  decide (rampGoal s < s.spn.ramp) &&
    (if fbit s fldSPN_STAT_REGEN_PAUSE then decide (fget s fldSPN_REGEN_PAUSE_OFF ≤ busMv) else decide (fget s fldSPN_REGEN_PAUSE_ON < busMv))

/-- RAMP_STEP (R285, R287). -/
def rampStep (s : State) (busMv : Nat) : State :=
  if spnState s ≠ 7 ∧ spnState s ≠ 8 then fclr s fldSPN_STAT_REGEN_PAUSE
  else
    let goal := rampGoal s
    let now := s.spn.ramp
    let pause := regenPause s busMv
    let limited := fbit s fldSPN_STAT_V_LIM || fbit s fldSPN_STAT_I_LIM
    let acc := fget s fldSPN_RAMP_ACC_MAX
    let dec := fget s fldSPN_RAMP_DEC_MAX
    let s1 := fputB s fldSPN_STAT_REGEN_PAUSE pause
    let (next, slope) : Nat × Int :=
      if now < goal then (if limited then (now, 0) else (Nat.min goal (now + acc * pwmPeriod s), (acc : Int)))
      else if goal < now then (if pause then (now, 0) else (Nat.max goal (now - dec * pwmPeriod s), -(dec : Int)))
      else (now, 0)
    let s2 := if now < goal ∧ limited then fset s1 fldSPN_STAT_LIMITED else s1
    let s3 := fput (modSpn s2 (fun q => { q with ramp := next, accCmd := accWord slope })) fldSPN_SPD_CMD ((8 * next + 5 * 10 ^ 7) / 10 ^ 8)
    if spnState s = 8 ∧ next ≤ 120 * 10 ^ 8 then spnBrake (modSpn s3 (fun q => { q with startPend := false })) else s3

/-! ### Period start and midpoint -/

/-- Short-circuit braking: the low sides are on for 20 ms and then off for 2 ms to measure (R282). -/
def brakeGates (s : State) : Gates := if (s.chipTime - s.spn.gateAt).toNat < 20000000 then .lowSides else .off

/-- The gates that a state drives at a period start: in DETECT they are off until the wait after a pulse has passed (R273, R279, R280,
R282). -/
def gatesOf (s : State) : Gates :=
  let st := spnState s
  if st = 2 then (if 3 ≤ s.spn.still then .off else brakeGates s)
  else if st = 3 then (if s.spn.gateAt.toNat ≤ s.chipTime.toNat then .pulse else .off)
  else if 4 ≤ st ∧ st ≤ 8 then .vector
  else if st = 9 then brakeGates s
  else .off

/-- The gates and the phases at a period start. -/
def driveGates (s : State) : State :=
  let s1 := modSpn s (fun q => { q with pa := phaseAdvance s, gates := gatesOf s })
  if s1.spn.gates = .vector then putPhases s1 else s1

/-- A PWM period starts (R269, R270, R273, R278, R284 to R290). -/
def periodStart (s : State) (busMv : Nat) : State :=
  let s1 := applyPend s spnPeriodReg
  let s2 := if sweepRunning s1 then s1 else spnSpeedApply s1
  let s3 := modSpn s2 (fun q => { q with trips := if q.tripNow then q.trips else 0, tripNow := false })
  let s4 := vecLimit (spnPeriod s3)
  let s5 := rampStep s4 busMv
  driveGates (discAdvance s5)

/-- PWM_PERIOD_START. -/
def execPwmPeriodStart (busMv : Nat) (s : State) : Host.Outcome State Fault Refusal := .next (spnSettle (periodStart s busMv))

/-- An overcurrent in this period: the gates are off for the rest of it; the 16th period in a row latches off (R278). -/
def overcurrent (s : State) : State :=
  if s.spn.tripNow then s
  else
    let s1 := count (fset s fldSPN_STAT_OC_TRIP) 374
    let s2 := modSpn s1 (fun q => { q with tripNow := true, trips := q.trips + 1, gates := .off })
    if 16 ≤ s2.spn.trips then spnLatchOff s2 4 else s2

/-- OVERCURRENT_TRIP. -/
def execOvercurrentTrip (s : State) : Host.Outcome State Fault Refusal := .next (overcurrent s)

/-- The offsets of SENSE: the averages of 256 samples per phase; beyond 64 codes the start fails (R276). -/
def senseOffsets (s : State) (iu iv : Int) : State :=
  if spnState s ≠ 1 ∨ 256 ≤ s.spn.offN then s
  else
    let s1 := modSpn s (fun q => { q with offU := q.offU + iu, offV := q.offV + iv, offN := q.offN + 1 })
    if s1.spn.offN < 256 then s1
    else
      let u := roundDiv s1.spn.offU 256
      let v := roundDiv s1.spn.offV 256
      if 64 < u.natAbs ∨ 64 < v.natAbs then spnEnter (spnStartFail s1 7) 0 .off
      else fputInt (fputInt s1 fldSPN_OFFSET_OFS_U u) fldSPN_OFFSET_OFS_V v

/-- Whether the phase-current vector reaches IQ_LIM (R285). -/
def currentLimit (s : State) : Bool :=
  let l : Int := fget s fldSPN_LIMITS_IQ_LIM * 2 ^ 23
  let b := s.spn.iu + 2 * s.spn.iv
  decide (3 * l * l ≤ 3 * s.spn.iu * s.spn.iu + b * b)

/-- The current codes of two phases without their offsets, in the motor's order (R271, R276, R290). -/
def phaseCodes (s : State) (iu iv : BitVec 12) : Int × Int :=
  let l := dirSwap s [iu.toInt - fgetInt s fldSPN_OFFSET_OFS_U, iv.toInt - fgetInt s fldSPN_OFFSET_OFS_V]
  (l.getD 0 0, l.getD 1 0)

/-- The samples of a midpoint have crossed Crossing 32: the ports take them, and the PWM tick is raised (R269, R271, R276). -/
def samplesCross (s : State) (iu iv vu vv vw : BitVec 12) : State :=
  let (cu, cv) := phaseCodes s iu iv
  let v := dirSwap s [vu, vv, vw]
  let volts (j : Nat) : Int := (v.getD j 0).toNat * 2 ^ 18
  let s1 := modSpn s (fun q =>
    { q with iu := satInt 32 (cu * 2 ^ 19), iv := satInt 32 (cv * 2 ^ 19), vu := volts 0, vv := volts 1, vw := volts 2 })
  senseOffsets (fputB s1 fldSPN_STAT_I_LIM (currentLimit s1)) iu.toInt iv.toInt

/-- The PWM tick of SE8's sources. -/
def pwmTick (s : State) : State := forEach [(0 : Fin 2), 1] s (fun t n => if seSrc t 8 n = 4 then seTick t 8 n else t)

/-- The middle of a period: IW is checked at the converter; the samples cross while Crossing 32 is ARMED, and nothing ticks without
them (R40, R269, R278). -/
def midpoint (s : State) (iu iv vu vv vw : BitVec 12) : State :=
  let (cu, cv) := phaseCodes s iu iv
  let on := xingArmed s 32
  let s1 := sif on s (fun t => samplesCross t iu iv vu vv vw)
  let s2 := if fget s fldSPN_SENSE_OC_TRIP * 2 ^ 4 < (cu + cv).natAbs then overcurrent s1 else s1
  sif on s2 pwmTick

/-- PWM_MIDPOINT: `iu`, `iv` are signed converter codes of the phase currents, `vu` to `vw` codes of the phase voltages. -/
def execPwmMidpoint (iu iv vu vv vw : BitVec 12) (s : State) : Host.Outcome State Fault Refusal := .next (midpoint s iu iv vu vv vw)

/-! ### Start and stop (R279) -/

/-- START. -/
def spnStart (s : State) : State :=
  if spnState s = 0 then
    if seState s 8 = 1 then
      let s1 := count (fput (spnEnter s 1 .off) fldSPN_LAST_START_PATH 0) 372
      spnSettle (modSpn s1 (fun q => { q with startPend := true, offU := 0, offV := 0, offN := 0 }))
    else fset s fldSPN_STAT_START_DENIED
  else if spnState s = 8 then spnSettle (count (fput s fldSPN_STAT_STATE 7) 372)
  else s

/-- SPINDLE_START. -/
def execSpindleStart (_agent : Agent) (s : State) : Host.Outcome State Fault Refusal := .next (spnStart s)

/-- Whether the cause of LATCHED_OFF has cleared: the bus latch, or no trip in this period. -/
def latchCleared (s : State) : Bool := !(fbit s fldSUP_STAT_BUS_LATCH) && !s.spn.tripNow

/-- STOP. -/
def spnStop (s : State) : State :=
  let st := spnState s
  if st = 7 then fput s fldSPN_STAT_STATE 8
  else if 1 ≤ st ∧ st ≤ 6 then
    let s1 := modSpn s (fun q => { q with startPend := false })
    if (st = 2 ∧ s.spn.still < 3) ∨ st = 6 ∨ (st = 5 ∧ 0 < s.spn.seqSpeed) then (if st = 2 then s1 else spnBrake s1)
    else spnEnter s1 0 .off
  else if st = 0xA ∧ latchCleared s then spnEnter s 0 .off
  else s

/-- SPINDLE_STOP. -/
def execSpindleStop (_agent : Agent) (s : State) : Host.Outcome State Fault Refusal := .next (spnSettle (spnStop s))

/-! ### Standstill, catching and braking (R282, R283) -/

/-- Three times the back-EMF vector of phase-voltage codes: the first axis, and the second over the root of 3. -/
def emfAxes (v : Vector (BitVec 12) 3) : Int × Int :=
  (2 * (v[0].toNat : Int) - v[1].toNat - v[2].toNat, (v[1].toNat : Int) - v[2].toNat)

/-- The angle of the back-EMF vector, and nine times its squared magnitude. -/
def emfAngle (v : Vector (BitVec 12) 3) : Nat :=
  let (a, b) := emfAxes v
  atanTurn (a * 2 ^ 40) (b * isqrt (3 * 2 ^ 80))
def emfSq (v : Vector (BitVec 12) 3) : Int :=
  let (a, b) := emfAxes v
  a * a + 3 * b * b

/-- Whether a measurement is below BEMF_MIN. -/
def emfLow (s : State) (v : Vector (BitVec 12) 3) : Bool :=
  let l : Int := 12 * fget s fldSPN_START2_BEMF_MIN
  decide (emfSq v < l * l)

/-- VQ at the start of CATCH: the back-EMF magnitude as a fraction of V_bus over the root of 3 (R283); left open for a bus of
0 V. -/
def catchVq (s : State) (busMv : Nat) (v : Vector (BitVec 12) 3) : Int :=
  if busMv = 0 then (Config.freeWord s.freeCtr).toInt
  else satInt 32 (roundDiv (2 ^ 30 * 1200 * fget s fldSPN_SENSE_DIV * isqrt ((3 * emfSq v).natAbs * 2 ^ 40)) (2 ^ 20 * 12288 * busMv))

/-- Put THETA_INIT. -/
def putThetaInit (s : State) (t : Word) : State :=
  fput (modSpn s (fun q => { q with thetaInit := t })) fldSPN_LAST_START_THETA_INIT (t.toNat / 2 ^ 24)

/-- Into CATCH with what R283 loads; `d` is the change of the electrical angle over 1 ms. -/
def spnCatch (s : State) (busMv : Nat) (v : Vector (BitVec 12) 3) (d : Int) : State :=
  let t := turnWord ((emfAngle v : Int) - 2 ^ 30)
  let s1 := putThetaInit (fput (spnEnter s 6 .vector) fldSPN_LAST_START_PATH 2) t
  tickFree (modSpn s1 (fun q =>
    { q with
      theta := t
      seqTheta := t
      vd := 0
      vq := catchVq s busMv v
      omega := turnWord (roundDiv (d * pwmPeriod s) 100000)
      seqSpeed := (roundDiv (d * 60000 * 10 ^ 8) (2 ^ 32 * polePairs s)).toNat
      sets := []
      firstPeriod := true }))

/-- A start's standstill is over: DETECT, its first round. -/
def spnDetect (s : State) : State := putPulse (modSpn (spnEnter s 3 .pulse) (fun q => { q with pulses := [], rounds := 0 }))

/-- Phase-voltage codes in the motor's order (R290). -/
def phaseVolts (s : State) (v : Vector (BitVec 12) 3) : Vector (BitVec 12) 3 :=
  if fbit s fldSPN_CTL_DIR_INV then #v[v[1], v[0], v[2]] else v

/-- A back-EMF measurement over 1 ms with the gates off; braking goes on after it (R279, R282). -/
def bemfMeasure (s : State) (busMv : Nat) (w0 w1 : Vector (BitVec 12) 3) : State :=
  let st := spnState s
  let v0 := phaseVolts s w0
  let v1 := phaseVolts s w1
  if st ≠ 1 ∧ st ≠ 2 ∧ st ≠ 9 then s
  else
    let d := (BitVec.ofNat 32 (emfAngle v1) - BitVec.ofNat 32 (emfAngle v0)).toInt
    let low := emfLow s v1
    let s1 := modSpn s (fun q => { q with bemfAngle := BitVec.ofNat 32 (emfAngle v1), bemfMag := isqrt (emfSq v1).natAbs })
    let s2 := fputB s1 fldSPN_STAT_REVERSE (!low && decide (d < 0))
    if st = 1 then
      if low then s2
      else if 2 ^ 32 * (polePairs s : Int) < d * 1000 then spnCatch s2 busMv v1 d
      else spnBrake (if d < 0 then fset s2 fldSPN_STAT_REV_SEEN else s2)
    else
      let n := if low then Nat.min 3 (s.spn.still + 1) else if st = 2 ∧ 3 ≤ s.spn.still then 3 else 0
      let s3 := modSpn s2 (fun q =>
        spnGates { q with still := n, gateAt := s.chipTime } (if st = 2 ∧ 3 ≤ n then .off else .lowSides))
      if st = 2 ∧ 3 ≤ n ∧ s3.spn.startPend = false then spnEnter s3 0 .off
      else spnRelease s3

/-- BEMF_MEASURE: `first` and `second` are the phase-voltage codes at the start and the end of the 1 ms. -/
def execBemfMeasure (busMv : Nat) (first second : Vector (BitVec 12) 3) (s : State) : Host.Outcome State Fault Refusal :=
  .next (spnSettle (bemfMeasure s busMv first second))

/-- SENSE_TIME has elapsed with the back-EMF below BEMF_MIN throughout (R279). -/
def execSenseTimeEnd (s : State) : Host.Outcome State Fault Refusal :=
  .next (spnSettle (if spnState s = 1 then spnDetect s else s))

/-- The 200 ms after standstill have passed with a start pending (R279). -/
def execBrakeDwellEnd (s : State) : Host.Outcome State Fault Refusal :=
  .next (spnSettle (if spnState s = 2 ∧ 3 ≤ s.spn.still ∧ s.spn.startPend then spnDetect s else s))

/-- 30 s of BRAKE without standstill (R279). -/
def execBrakeTimeout (s : State) : Host.Outcome State Fault Refusal :=
  .next (if spnState s = 2 ∧ s.spn.still < 3 then spnEnter (spnStartFail s 9) 0 .off else s)

/-! ### Position detection and forced start (R280, R281) -/

/-- i_k: the current vector of a pulse's end, projected on the axis at 30 k degrees, in 2^-70 of a code (R280). -/
def pulseCurrent (iu iv : Int) (k : Nat) : Int :=
  let a := (k * 2 ^ 32 + 6) / 12
  iu * cosTurn a + (iu + 2 * iv) * isqrt (2 ^ 80 / 3) * sinTurn a / 2 ^ 40

/-- The place of the largest of a list, the first of equals. -/
def argMax (l : List Int) : Nat :=
  (List.range l.length).foldl (fun b i => if l.getD b 0 < l.getD i 0 then i else b) 0

/-- theta0: the vertex of the parabola through the three largest neighbours, as a fraction of a turn (R280); left open where
they lie on a line. -/
def pulseAngle (l : List Int) (k : Nat) (free : Word) : Word :=
  let a := l.getD ((k + 11) % 12) 0
  let b := l.getD k 0
  let c := l.getD ((k + 1) % 12) 0
  let den := 2 * (a - 2 * b + c)
  if den = 0 then free
  else turnWord (roundDiv (2 ^ 32 * ((k : Int) * (-den) - (a - c))) (12 * (-den)))

/-- FORCED begins from an angle (R281). -/
def spnForced (s : State) (t : Word) : State :=
  modSpn (putThetaInit (spnEnter s 5 .vector) t) (fun q => { q with seqTheta := t, seqSpeed := 0 })

/-- A round of twelve pulses is judged (R279, R280). -/
def detectRound (s : State) : State :=
  let l := s.spn.pulses
  let k := argMax l
  let top := l.getD k 0
  let opp := l.getD ((k + 6) % 12) 0
  if 20 * top < 2048 * 2 ^ 70 then spnEnter (spnStartFail s 7) 0 .off
  else if (fget s fldSPN_DETECT_SAT_MIN : Int) * top ≤ (top - opp) * 256 then
    tickFree (spnForced s (pulseAngle l k (Config.freeWord s.freeCtr)))
  else if 2 ≤ s.spn.rounds then
    let s1 := fset (modSpn (spnEnter s 4 .vector) (fun q => { q with seqTheta := 0 })) fldSPN_STAT_AMBIG
    if fget s1 fldSPN_LAST_START_PATH = 3 then s1 else fput s1 fldSPN_LAST_START_PATH 1
  else putPulse (modSpn s (fun q => { q with pulses := [], rounds := q.rounds + 1 }))

/-- A test pulse ends: the gates are off for 5 TP_LEN, and the next pulse is 30 degrees on (R280). -/
def detectPulse (s : State) (iu iv : BitVec 12) : State :=
  if spnState s ≠ 3 then s
  else
    let (cu, cv) := phaseCodes s iu iv
    let s1 := modSpn s (fun q =>
      { q with
        pulses := q.pulses ++ [pulseCurrent cu cv q.pulses.length]
        gates := .off
        gateAt := s.chipTime + BitVec.ofNat 64 (5000 * fget s fldSPN_START_TP_LEN) })
    if s1.spn.pulses.length < 12 then putPulse s1 else detectRound s1

/-- DETECT_PULSE_END: `iu`, `iv` are the signed converter codes at the pulse's end. -/
def execDetectPulseEnd (iu iv : BitVec 12) (s : State) : Host.Outcome State Fault Refusal := .next (spnSettle (detectPulse s iu iv))

/-- I_START has been held at angle 0 for 500 ms (R279). -/
def execAlignDone (s : State) : Host.Outcome State Fault Refusal :=
  .next (spnSettle (if spnState s = 4 then spnForced s 0 else s))

/-- Sixteen periods of agreement: FORCED slews to SE8's angle, CATCH goes to RUN (R279, R281). -/
def handover (s : State) : State :=
  if s.spn.agree < 16 ∨ s.spn.slew ≠ 0 then s
  else if spnState s = 5 then modSpn s (fun q => { q with slew := 1 })
  else if spnState s = 6 then count (fset (spnRun s s.spn.seqSpeed) fldSPN_STAT_CAUGHT) 373
  else s

/-- HANDOVER_AGREEMENT. -/
def execHandoverAgreement (s : State) : Host.Outcome State Fault Refusal := .next (spnSettle (handover s))

/-- REGEN_PAUSE: the motor bus has crossed a threshold of the pause (R287). -/
def execRegenPause (busMv : Nat) (s : State) : Host.Outcome State Fault Refusal :=
  .next (if spnState s = 7 ∨ spnState s = 8 then fputB s fldSPN_STAT_REGEN_PAUSE (regenPause s busMv) else s)

/-- 500 ms at HANDOVER without agreement: the start fails (R279). -/
def execHandoverTimeout (s : State) : Host.Outcome State Fault Refusal :=
  .next (spnSettle (if spnState s = 5 ∧ s.spn.slew = 0 ∧ s.spn.agree < 16 ∧ s.spn.seqSpeed = fget s fldSPN_START_HANDOVER * 10 ^ 8
    then spnBrake (spnStartFail s 8) else s))

/-- 200 ms of CATCH without agreement: the disc is braked to rest and started from there (R279). -/
def execCatchTimeout (s : State) : Host.Outcome State Fault Refusal :=
  .next (spnSettle (if spnState s = 6 ∧ s.spn.agree < 16 then fset (spnBrake s) fldSPN_STAT_CATCH_FAIL else s))

end Machine
end Sys2Proof
end

