-- ==== Sys2Proof/Machine/Wedge.lean ====
section
/-! DEFINITION. A wedge under a head: what its passing does beyond the channel (R215, R289, R500): the status that falls due,
the write clock, and the disc's angle and speed. -/

namespace Sys2Proof
namespace Machine

/-- The Crossing of the write clock of a head. -/
def wsXing (n : Fin 8) : Fin 52 := ⟨16 + n.val, by omega⟩

/-- The write clock of a head loses or gains clock-good; a withdrawal is the CROSSING inhibit, held until the Crossing is
ARMED again (R39, R189). -/
def wsGood (s : State) (n : Fin 8) (on : Bool) : State :=
  let x := wsXing n
  if on then xingClockRise s x
  else sif (!(xingArmed (xingClockFall s x) x)) (xingClockFall s x) (fun t => wcLevel t n 7 true)

/-- WSn follows its head's B0 channel: it runs while B0 holds WEDGE_LOCK, and its domain is clock-good while the loop does not
coast and the requested frequency F over the frame period lies in 0.15-1.15 GHz (R500, R501). -/
def wsUpdate (s : State) (n : Fin 8) : State :=
  if !(headPresent s.variant n.val && writePresent s.variant) then s
  else
    let c := headChan n 0
    let run := fbit s (fldRC_STAT_WEDGE_LOCK c)
    let s1 := fputAt s fldCLK_LOOP_LOCK (6 + n.val) (run && fbit s fldCLK_SRC_REF_GOOD && !(fbitAt s fldCLK_LOOP_COAST (6 + n.val)))
    let want := fbitAt s1 fldCLK_LOOP_LOCK (6 + n.val) && rateInRange (headF s n) s.ch[c].framePeriod
    if want = clkGood s1 (16 + n.val) then s1 else wsGood s1 n want

/-! ### The disc's angle (R289) -/

/-- The lowest spot of a head whose channel holds WEDGE_LOCK. -/
def lockedSpot (s : State) (n : Fin 8) : Option (Fin 4) :=
  if headPresent s.variant n.val then (List.finRange 4).find? (fun sp => fbit s (fldRC_STAT_WEDGE_LOCK (headChan n sp))) else none

/-- The channel whose index mark sets DISC_ANGLE: of H0, or of H4 when H0 holds no lock. -/
def indexChan (s : State) : Option (Fin 32) :=
  match lockedSpot s 0 with
  | some sp => some (headChan 0 sp)
  | none => (lockedSpot s 4).map (fun sp => headChan 4 sp)

/-- The index SAM of the leading head: DISC_ANGLE is 0, SPD_MEAS comes from the index period, and a revolution ends (R288,
R289). -/
def indexPass (s : State) (t : DWord) : State :=
  let s1 := modSpn (wr s regSPN_ANGLE 0) (fun q =>
    { q with lastIndex := some t, turns := if 2 ^ 31 ≤ (rd s regSPN_ANGLE).toNat then q.turns + 1 else q.turns })
  match s.spn.lastIndex with
  | some t0 => spnRevolution (if t = t0 then s1 else putSpeed s1 (roundDiv 480000000000 (t - t0).toNat))
  | none => s1

/-- What a wedge does to the spindle block. -/
def wedgeSpindle (s : State) (c : Fin 32) (index : Bool) : State :=
  let s1 := showLocked s
  if !(discLocked s1) then modSpn s1 (fun q => { q with lastIndex := none })
  else if index ∧ indexChan s1 = some c then indexPass s1 s1.ch[c].lastSam
  else s1

/-- A wedge passes a spot of a channel that searches for wedges, and its record goes to the head's engine. -/
def wedgeEffect (s : State) (c : Fin 32) (w : WedgeObs) : State :=
  let n := chanHead c
  let s1 := wedgePass s c w
  let s2 := if c.val % 4 = 0 then wsUpdate s1 n else s1
  let s3 := wedgeSpindle s2 c ((samSearch s.ch[c] w).1 == .index)
  recordArrives s3 n (chanSpot c) s3.ch[c].wedge

/-- WEDGE_PASS: ignored by a channel whose front end or wedge search is off. -/
def execWedgePass (c : Chan) (w : WedgeObs) (s : State) : Host.Outcome State Fault Refusal :=
  .next (if wedgeOn s c then wedgeEffect s c w else s)

/-- RC_ENABLE_WRITE. -/
def execRcEnableWrite (_agent : Agent) (c : Chan) (on : Bool) (s : State) : Host.Outcome State Fault Refusal :=
  .next (reply (rcEnable s c on) .ok 0 [])

end Machine
end Sys2Proof
end

