-- ==== Sys2Proof/Machine/Crossing.lean ====
section
/-! DEFINITION. What the withdrawal and the re-arming of a Crossing do to the units behind it (R40, R127, R189, R312, R416,
R446), and the pace monitors with the governor (R48 to R52, R484). -/

namespace Sys2Proof
namespace Machine

/-! ### Crossings -/

/-- A POST returns a status code in rd. -/
def postEnd (s : State) (p : Fin 4) (rdNum status : Nat) : State :=
  countStatus (retire s p rdNum (BitVec.ofNat 64 status)) status

/-- The POSTs that wait at a Crossing end with CROSSING_RESET (R40, R42, R360). -/
def postsAbort (s : State) (x : Fin 52) : State :=
  forEach (List.finRange 4) s (fun t p =>
    match (t.core[p]).wait with
    | some (.post y _ rdNum) =>
      if y = x.val then postEnd (modCore t p (fun c => { c with wait := none })) p rdNum stCrossingReset else t
    | _ => t)

/-- What a unit does when its Crossing withdraws: the channels of a head abort their packets and what the Crossing holds is lost, the write cell is inhibited,
the sled is cut, a host port loses its path, a staging channel holds its requests. -/
def xingLost (s : State) (x : Fin 52) : State :=
  let n : Fin 8 := ⟨x.val % 8, by omega⟩
  if x.val < 8 then
    forEach [0, 1, 2, 3] (modHb s n (fun b => { b with rf := [], credit := 0 })) (fun t k => packetAbort t (headChan n k))
  else if 16 ≤ x.val ∧ x.val < 24 then wcLevel s n 7 true
  else if 24 ≤ x.val ∧ x.val < 32 then sledCut s n true
  else if x.val = 34 ∨ x.val = 35 then linkDown s (x.val - 34)
  else if 38 ≤ x.val ∧ x.val < 42 then chanQuiet s (Fin.ofNat 4 (x.val - 38))
  else postsAbort s x

/-- What a unit does when its Crossing is ARMED again. -/
def xingBack (s : State) (x : Fin 52) : State :=
  let n : Fin 8 := ⟨x.val % 8, by omega⟩
  if 16 ≤ x.val ∧ x.val < 24 then wcLevel s n 7 false
  else if 38 ≤ x.val ∧ x.val < 42 then modDram s (Fin.ofNat 4 (x.val - 38)) dramAdmit
  else s

/-- The effects on the unit of a change of a Crossing's state. -/
def xingChange (s t : State) (x : Fin 52) : State :=
  if xingArmed s x && !(xingArmed t x) then xingLost t x
  else if !(xingArmed s x) && xingArmed t x then xingBack t x
  else t

/-- A domain's clock-good flag falls or rises, with what that does. -/
def clkFall (s : State) (x : Fin 52) : State := xingChange s (xingClockFall s x) x
def clkRise (s : State) (x : Fin 52) : State := xingChange s (xingClockRise s x) x

/-- CROSSING_RESET_ASSERT. -/
def execCrossingResetAssert (x : XingId) (side : Side) (s : State) : Host.Outcome State Fault Refusal :=
  .next (xingChange s (xingResetAssert s x side) x)

/-- CLOCK_GOOD_FALL. -/
def execClockGoodFall (x : XingId) (s : State) : Host.Outcome State Fault Refusal := .next (clkFall s x)

/-- CLOCK_GOOD_RISE. -/
def execClockGoodRise (x : XingId) (s : State) : Host.Outcome State Fault Refusal := .next (clkRise s x)

/-- CROSSING_ABORT_DELIVERED. -/
def execCrossingAbortDelivered (x : XingId) (s : State) : Host.Outcome State Fault Refusal :=
  .next (xingChange s (xingDeliver s x) x)

/-- CROSSING_SIDE_READY. -/
def execCrossingSideReady (x : XingId) (side : Side) (s : State) : Host.Outcome State Fault Refusal :=
  .next (xingChange s (xingSideReady s x side) x)

/-! ### Pace -/

/-- The effective target of a district, rounded up (R49).  Above 0xFFFF, EFF_TARGET shows its low 16 bits while every comparison
takes the whole (DESIGN CHOICE, log 92). -/
def effTarget (s : State) (d : Nat) : Nat :=
  fget s (fldPACE_TARGET_FIXED d) + (fget s (fldPACE_TARGET_VAR d) * s.spn.target + 7199) / 7200

/-- The districts that take part. -/
def paceDistricts (s : State) : List (Fin 5) := (List.finRange 5).filter (fun d => districtPresent s.variant d.val)

/-- One monitor's window: the first partial one after reset is not counted; then RATE, MIN_RATE, SHORT, SHORT_SEEN and the
COLLAPSE count follow (R48, R51). -/
def paceClose (s : State) (d : Fin 5) (rate : Nat) : State :=
  let s0 := fput s (fldPACE_STAT_EFF_TARGET d.val) (effTarget s d.val)
  if !(s.pace[d].counting) then { s0 with pace := s.pace.set d { s.pace[d] with counting := true } }
  else
    let short := decide (rate < effTarget s d.val)
    let s1 := fput (fput s0 (fldPACE_RATE_RATE d.val) rate) (fldPACE_RATE_MIN_RATE d.val)
      (Nat.min rate (fget s (fldPACE_RATE_MIN_RATE d.val)))
    let s2 := sif short (fputB s1 (fldPACE_STAT_SHORT d.val) short) (fun t => fset t (fldPACE_STAT_SHORT_SEEN d.val))
    let run := if short && fbit s (fldPACE_STAT_GOV_AT_MAX d.val) then s.pace[d].collapseRun + 1 else 0
    let s3 := sif (decide (50 ≤ run)) s2 (fun t => fset t (fldPACE_STAT_COLLAPSE d.val))
    { s3 with pace := s3.pace.set d { s3.pace[d] with collapseRun := if 50 ≤ run then 0 else run } }

/-- VSET takes a value, and GOV_AT_MAX with it (R51, R484). -/
def putVset (s : State) (v : Nat) : State :=
  forEach (paceDistricts s) (fput s fldSUP_VCORE_VSET v) (fun t d => fputB t (fldPACE_STAT_GOV_AT_MAX d.val) (v == 850))

/-- The governor at the end of a window, over the districts whose monitors counted it (R484, R485). -/
def govern (s : State) (ds : List (Fin 5)) : State :=
  if !(fbit s fldSUP_CTL_GOV_EN) then s
  else
    let v := fget s fldSUP_VCORE_VSET
    let short := ds.any (fun d => fbit s (fldPACE_STAT_SHORT d.val))
    let room := !ds.isEmpty && ds.all (fun d => decide (effTarget s d.val + fget s fldSUP_GOV_HEADROOM ≤ fget s (fldPACE_RATE_RATE d.val)))
    let run := if room && !short then s.sup.room + 1 else 0
    let put (t : State) (k : Nat) : State := { t with sup := { t.sup with room := k } }
    if short && decide (v < 850) then put (count (putVset s (Nat.min 850 (v + 5))) 501) 0
    else if Nat.max 1 (fget s fldSUP_GOV_DOWN_WIN) ≤ run then
      let w := Nat.max (fget s fldSUP_GOV2_VMIN) (v - 5)
      put (if w < v then count (putVset s w) 502 else s) 0
    else put s run

/-- PACE_WINDOW_CLOSE.  While the core is in reset no window counts (R48). -/
def execPaceWindowClose (rates : Vector (BitVec 16) 5) (vcore : BitVec 16) (s : State) : Host.Outcome State Fault Refusal :=
  .next (if inReset s then s else
    let counted := (paceDistricts s).filter (fun d => s.pace[d].counting)
    let s1 := forEach (paceDistricts s) s (fun t d => paceClose t d rates[d].toNat)
    govern (if counted.isEmpty then s1 else fput s1 fldSUP_VCORE_MEAS vcore.toNat) counted)

end Machine
end Sys2Proof
end

