-- ==== Sys2Proof/Machine/Clocks.lean ====
section
/-! DEFINITION. The clock block and the time base (R497 to R514), and the reads that latch a count (R511, R551). -/

namespace Sys2Proof
namespace Machine

def modClk (s : State) (f : Clk → Clk) : State := { s with clk := f s.clk }

/-! ### Loops (R498, R502, R504) -/

/-- The Crossings that a loop feeds. -/
def loopXings (k : Nat) : List Nat :=
  if k = 0 then List.range 16
  else if k = 1 then (List.range 10).map (24 + ·) ++ [47, 48, 50]
  else if k = 2 then [38, 39, 40, 41]
  else if k = 3 then [42, 43, 49]
  else if k < 6 then [30 + k, 32 + k]
  else [10 + k]

/-- Whether a loop's unit is present. -/
def loopPresent (v : Variant) (k : Nat) : Bool :=
  if k < 4 then true else if k < 6 then portPresent v (k - 4) else headPresent v (k - 6) && writePresent v

/-- Whether a loop runs: the core loops always, UPn for its port or its endpoint, WSn while B0 holds WEDGE_LOCK. -/
def loopRuns (s : State) (k : Nat) : Bool :=
  loopPresent s.variant k &&
    (if k < 4 then true
    else if k < 6 then portEnabled s (k - 4) || s.boot.attached.contains (k - 4)
    else fbit s (fldRC_STAT_WEDGE_LOCK (4 * (k - 6))))

def loopLocked (s : State) (k : Nat) : Bool := fbitAt s fldCLK_LOOP_LOCK k
def loopCoasts (s : State) (k : Nat) : Bool := fbitAt s fldCLK_LOOP_COAST k

/-- The domains of a loop lose clock-good. -/
def loopDown (s : State) (k : Nat) : State := forEach (loopXings k) s (fun t x => clkFall t (Fin.ofNat 52 x))

/-- The domains of a loop gain clock-good; a staging channel that lost it to a coasting LP_DDR first retrains (R505), and a
write clock's frequency must lie in range (R500). -/
def loopUp (s : State) (k : Nat) : State :=
  if k = 2 then
    if dramRuns s then
      forEach [0, 1, 2, 3] s (fun t c =>
        let u := fputAt (clkGoodShow t (38 + c) true) fldDRAM_STAT_RETRAIN_PEND c true
        { u with ddrForce := addOnce u.ddrForce c })
    else forEach (loopXings 2) s (fun t x => clkRise t (Fin.ofNat 52 x))
  else if 6 ≤ k then wsUpdate s (Fin.ofNat 8 (k - 6))
  else forEach (loopXings k) s (fun t x => clkRise t (Fin.ofNat 52 x))

/-- Every loop that runs coasts: only the domains of LP_MOT keep clock-good (R501, R504). -/
def coastAll (s : State) : State :=
  forEach ((List.range 14).filter (fun k => loopRuns s k && !(loopCoasts s k))) s (fun t k =>
    let u := count (fputAt (fputAt t fldCLK_LOOP_COAST k true) fldCLK_LOOP_LOCK k false) 505
    if k = 1 then u else loopDown u k)

/-! ### Sources (R503, R504, R510) -/

def sourceGood (s : State) (src : Nat) : Bool := fbit s (if src = 1 then fldCLK_SRC_REFIN_GOOD else fldCLK_SRC_XO_GOOD)

/-- REF_GOOD follows the source in force; when it falls the loops coast and the failure is reported; the time base counts
the Square oscillator meanwhile. -/
def refShow (s : State) : State :=
  let was := fbit s fldCLK_SRC_REF_GOOD
  let good := sourceGood s s.clk.refSrc
  let s1 := fputB s fldCLK_SRC_REF_GOOD good
  if was && !good then
    let s2 := fset (fset (fset (coastAll s1) fldTB_STAT_SRC) fldTB_STAT_COARSE) fldCLK_STAT_REF_FAIL
    raiseReport s2 0x0E 2 5 2 0x3F 0 (rd s2 regCLK_STAT).toNat
  else if good then fclr s1 fldTB_STAT_SRC
  else s1

/-- SOURCE_FAIL. -/
def execSourceFail (refin : Bool) (s : State) : Host.Outcome State Fault Refusal :=
  .next (refShow (fclr s (if refin then fldCLK_SRC_REFIN_GOOD else fldCLK_SRC_XO_GOOD)))

/-- SOURCE_GOOD. -/
def execSourceGood (refin : Bool) (s : State) : Host.Outcome State Fault Refusal :=
  .next (refShow (fset s (if refin then fldCLK_SRC_REFIN_GOOD else fldCLK_SRC_XO_GOOD)))

/-- CLK_RELOCK: refused while REF_GOOD is 0; else each coasting loop named relocks. -/
def clkRelock (s : State) (loops : Nat) : State :=
  if loops = 0 then s
  else if !(fbit s fldCLK_SRC_REF_GOOD) then fset s fldCLK_STAT_RELOCK_DENIED
  else
    let take := (List.range 14).filter (fun k => loops.testBit k && loopCoasts s k)
    forEach take s (fun t k => fputAt t fldCLK_RELOCK_RELOCK k true)

def execClkRelock (_agent : Agent) (loops : BitVec 14) (s : State) : Host.Outcome State Fault Refusal :=
  .next (reply (clkRelock s loops.toNat) .ok 0 [])

/-- LOOP_LOCK: a loop that runs from a good reference, and if it coasted was told to relock, locks. -/
def loopLock (s : State) (k : Nat) : State :=
  if loopRuns s k ∧ fbit s fldCLK_SRC_REF_GOOD ∧ ¬ loopLocked s k ∧ (¬ loopCoasts s k ∨ fbitAt s fldCLK_RELOCK_RELOCK k) then
    loopUp (fputAt (fputAt (fputAt s fldCLK_LOOP_COAST k false) fldCLK_RELOCK_RELOCK k false) fldCLK_LOOP_LOCK k true) k
  else s

def execLoopLock (loop : Fin 14) (s : State) : Host.Outcome State Fault Refusal := .next (loopLock s loop.val)

/-- LOCK_LOST: a loop loses lock with a good source; its domains have no clock-good until it has reacquired. -/
def execLockLost (loop : Fin 14) (s : State) : Host.Outcome State Fault Refusal :=
  .next (if loopLocked s loop.val then
      count (loopDown (fset (fputAt s fldCLK_LOOP_LOCK loop.val false) fldCLK_STAT_LOCK_LOST) loop.val) 506
    else s)

/-! ### Multiplexers (R506 to R508, R512) -/

/-- The source that CLKOUT's SEL selects: 5-7 are taken as off. -/
def outSel (n : Nat) : Nat := if n < 5 then n else 0

/-- Whether a CLKOUT source is good. -/
def outGood (s : State) (n : Nat) : Bool :=
  match n with
  | 1 => fbit s fldCLK_SRC_REF_GOOD
  | 2 => loopLocked s 1 || loopCoasts s 1
  | 3 => loopLocked s 3
  | _ => true

/-- A write of CLK_REF_SEL.SEL starts a switch; during one it sets SEL_BUSY. -/
def refSwitch (s : State) (sel : Nat) : State :=
  if s.clk.refTo.isSome then fset s fldCLK_STAT_SEL_BUSY
  else if sel = fget s fldCLK_REF_SEL_SEL then s
  else modClk (fset (fput s fldCLK_REF_SEL_SEL sel) fldCLK_REF_SEL_SWITCHING) (fun c => { c with refTo := some sel })

/-- REF_SWITCH. -/
def execRefSwitch (_agent : Agent) (sel : Fin 2) (s : State) : Host.Outcome State Fault Refusal :=
  .next (reply (refSwitch s sel.val) .ok 0 [])

/-- The reference takes a source; SWITCHING and HUNG clear. -/
def refTake (s : State) (src : Nat) : State :=
  let s1 := fclr (fclr (fput s fldCLK_REF_SEL_SEL src) fldCLK_REF_SEL_SWITCHING) fldCLK_REF_SEL_HUNG
  refShow (modClk s1 (fun c => { c with refSrc := src, refTo := none }))

/-- CLKOUT takes a source. -/
def outTake (s : State) (src : Nat) : State :=
  modClk (fclr (fclr s fldCLK_OUT_SWITCHING) fldCLK_OUT_HUNG) (fun c => { c with outSrc := outSel src, outTo := none })

/-- MUX_SWITCH_DONE: a switch that is not hung ends. -/
def execMuxSwitchDone (clkout : Bool) (s : State) : Host.Outcome State Fault Refusal :=
  .next (
    if clkout then
      match s.clk.outTo with
      | some t => if fbit s fldCLK_OUT_HUNG then s else outTake s t
      | none => s
    else
      match s.clk.refTo with
      | some t => if fbit s fldCLK_REF_SEL_HUNG then s else refTake s t
      | none => s)

/-- MUX_HUNG: a switch has waited 10 us for an edge. -/
def execMuxHung (clkout : Bool) (s : State) : Host.Outcome State Fault Refusal :=
  .next (
    let f := if clkout then fldCLK_OUT_HUNG else fldCLK_REF_SEL_HUNG
    let on := if clkout then s.clk.outTo.isSome else s.clk.refTo.isSome
    if on && !(fbit s f) then count (fset (fset s f) fldCLK_STAT_HUNG) 507 else s)

/-- A write of a shared resource's configuration: dropped whole, with DENIED, unless the writer holds the permit (R59). -/
def permitCheck (s : State) (p : Nat) (a : Agent) (f : State → State) : State :=
  if permitOwner s p = a.id then f s else permitDeny s p a.id

/-- A rescue: of the reference, every running loop coasts; of CLKOUT, Crossing 49 is held in reset; the selection is made
without an edge (R508). -/
def clkRescue (s : State) (mux src : Nat) : State :=
  let ok := if mux = 1 then outGood s (outSel src) else decide (src < 2) && sourceGood s src
  if s.clk.rescue.isSome then s
  else if !ok then fset s fldCLK_STAT_RESCUE_DENIED
  else
    let s1 := modClk s (fun c => { c with rescue := some (mux, src) })
    if mux = 1 then
      let s2 := xingChange s1 (xingResetAssert s1 49 .clocked) 49
      outTake (fput s2 fldCLK_OUT_SEL src) src
    else refTake (coastAll s1) src

/-- A write of CLK_RESCUE: only CODE 0x5C acts; the CLKOUT multiplexer needs its permit (R573). -/
def rescueWrite (s : State) (agent : Agent) (v : Nat) : State :=
  if bitsOf v 31 24 ≠ 0x5C then s
  else if bitsOf v 3 3 = 1 then permitCheck s 21 agent (fun t => clkRescue t 1 (bitsOf v 2 0))
  else clkRescue s 0 (bitsOf v 2 0)

/-- CLK_RESCUE. -/
def execClkRescue (agent : Agent) (value : BitVec 32) (s : State) : Host.Outcome State Fault Refusal :=
  .next (reply (rescueWrite s agent value.toNat) .ok 0 [])

/-- RESCUE_DONE: 16 cycles of the new source have passed. -/
def execRescueDone (s : State) : Host.Outcome State Fault Refusal :=
  .next (match s.clk.rescue with
    | none => s
    | some (mux, _) =>
      let s1 := count (fset (modClk s (fun c => { c with rescue := none })) fldCLK_STAT_RESCUED) 508
      if mux = 1 then xingChange s1 (xingResetRelease s1 49 .clocked) 49 else s1)

/-- A write of CLK_OUT.SEL by the permit's owner (R507, R512). -/
def clkoutSelect (s : State) (sel : Nat) : State :=
  if s.clk.outTo.isSome then fset s fldCLK_STAT_SEL_BUSY
  else if outSel sel = s.clk.outSrc then fput s fldCLK_OUT_SEL sel
  else modClk (fset (fput s fldCLK_OUT_SEL sel) fldCLK_OUT_SWITCHING) (fun c => { c with outTo := some sel })

/-- CLKOUT_SELECT. -/
def execClkoutSelect (agent : Agent) (sel : Fin 8) (s : State) : Host.Outcome State Fault Refusal :=
  .next (reply (permitCheck s 21 agent (fun t => clkoutSelect t sel.val)) .ok 0 [])

/-- Half cycles of the source for which CLKOUT is high in each of its cycles: half of them for DIV 1 and every even DIV, those of
(DIV + 1) / 2 source cycles for an odd one (R512). -/
def outHigh (div : Nat) : Nat := if div = 1 ∨ div % 2 = 0 then div else div + 1

/-- CLKOUT_DIV_CHANGE: DIV takes effect; 0 is taken as 1. -/
def execClkoutDivChange (s : State) : Host.Outcome State Fault Refusal :=
  .next (modClk s (fun c =>
    { c with
      div := Nat.max 1 (fget s fldCLK_OUT_DIV)
      high := outHigh (Nat.max 1 (fget s fldCLK_OUT_DIV)) }))

/-! ### Ports (R502) -/

/-- UPn stops when neither its port nor its endpoint needs it. -/
def upSettle (s : State) (p : Nat) : State :=
  if loopRuns s (4 + p) then s
  else
    let s1 := fputAt (fputAt (fputAt s fldCLK_LOOP_LOCK (4 + p) false) fldCLK_LOOP_COAST (4 + p) false) fldCLK_RELOCK_RELOCK (4 + p) false
    loopDown s1 (4 + p)

/-- A write of PORTn_EN starts or stops the port. -/
def portEnable (s : State) (p : Nat) (en : Bool) : State :=
  if !(portPresent s.variant p) then s
  else
    let s1 := fputB s (if p = 0 then fldHOST_CTL_PORT0_EN else fldHOST_CTL_PORT1_EN) en
    if en then (if linkState s1 p = 0 then putLink s1 p 1 0 0 else s1)
    else
      let s2 := if linkState s1 p = 2 ∨ linkState s1 p = 3 then linkDown s1 p else putLink s1 p 0 0 0
      upSettle s2 p

/-- PORT_ENABLE_WRITE. -/
def execPortEnableWrite (_agent : Agent) (port : Port) (en : Bool) (s : State) : Host.Outcome State Fault Refusal :=
  .next (reply (portEnable s port.val en) .ok 0 [])

/-! ### Reads that latch -/

/-- A read of TB_TIME_LO. -/
def timeLatch (s : State) (a : Nat) : State := reply { s with tbLatch := aset s.tbLatch a s.chipTime } .ok (s.chipTime.toNat % 2 ^ 32) []

/-- TIME_READ_LATCH. -/
def execTimeReadLatch (agent : Agent) (s : State) : Host.Outcome State Fault Refusal := .next (timeLatch s agent.id)

/-- A read of PC_LO. -/
def counterLatch (s : State) (a k : Nat) : State :=
  reply { s with pcLatch := aset s.pcLatch (1024 * a + k) (counter s k) } .ok ((counter s k).toNat % 2 ^ 32) []

/-- COUNTER_READ_LATCH. -/
def execCounterReadLatch (agent : Agent) (k : Fin 518) (s : State) : Host.Outcome State Fault Refusal :=
  .next (counterLatch s agent.id k.val)

end Machine
end Sys2Proof
end

