-- ==== Sys2Proof/Machine/Msv.lean ====
section
/-! DEFINITION. The 44 instructions of the servo engines' programs (R216 to R222).  Each row stands for the run of its engine
reaching an instruction of that opcode: it has its effect where the word at the run's program counter in the live bank
has the opcode, and none elsewhere. -/

namespace Sys2Proof
namespace Machine

/-! ### Fields of an instruction word (R216) -/

def opOf (w : Nat) : Nat := bitsOf w 31 26
def vdOf (w : Nat) : Fin 16 := Fin.ofNat 16 (bitsOf w 25 22)
def vs1Of (w : Nat) : Fin 16 := Fin.ofNat 16 (bitsOf w 21 18)
def vs2Of (w : Nat) : Fin 16 := Fin.ofNat 16 (bitsOf w 17 14)
def accOf (w : Nat) : Fin 4 := Fin.ofNat 4 (bitsOf w 1 0)

/-- A field of n bits as a two's complement number. -/
def signed (n x : Nat) : Int := (BitVec.ofNat n x).toInt

/-- The shift of SHA: -31 to 31 (R217). -/
def shaOf (w : Nat) : Int := signed 6 (bitsOf w 5 0)

/-! ### What a run reads -/

/-- The word of the live program bank at an address (R204). -/
def progWord (s : State) (k : Fin 10) (pc : Nat) : Nat := (s.se[k].prog[s.se[k].liveProg].getD pc 0).toNat

/-- c[a] of the live coefficient bank (R204). -/
def coefAt (s : State) (k : Fin 10) (a : Nat) : Word := s.se[k].coef[s.se[k].liveCoef].getD a 0

/-- s[a] as the run sees it: what it stored earlier, else the committed word (R212). -/
def smemAt (s : State) (k : Fin 10) (r : MsvRun) (a : Nat) : Word :=
  (aget? r.stores a).getD ((aget? s.se[k].smem a).getD 0)

/-- The address of the M format, modulo the size of the memory (R216). -/
def mAddr (r : MsvRun) (w size : Nat) : Nat :=
  (bitsOf w 9 0 + (if bitsOf w 17 17 = 1 then (r.v[vs1Of w]).toNat % size else 0)) % size

/-! ### How an instruction ends -/

/-- Keep the run. -/
def putRun (s : State) (k : Fin 10) (r : MsvRun) : State := modSe s k (fun e => { e with run := some r })

/-- The run goes on at the next instruction. -/
def runOn (s : State) (k : Fin 10) (r : MsvRun) : State := putRun s k { r with pc := r.pc + 1 }

/-- Change the run in progress. -/
def modRun (s : State) (k : Fin 10) (f : MsvRun → MsvRun) : State := modSe s k (fun e => { e with run := e.run.map f })

/-- SAT is to set at the commit if a result saturated (R208, R212). -/
def noteSat (s : State) (k : Fin 10) (b : Bool) : State := if b then modRun s k (fun r => { r with sat := true }) else s

/-- The run reaches an instruction with this opcode: its effect on the run (R211, R217). -/
def msvDo (s : State) (k : Fin 10) (op : Nat) (f : MsvRun → Nat → State) : State :=
  match s.se[k].run with
  | some r => if seState s k = 1 ∧ opOf (progWord s k r.pc) = op then f r (progWord s k r.pc) else s
  | none => s

/-- An instruction that writes VD with a value that may have saturated. -/
def msvSat (s : State) (k : Fin 10) (op : Nat) (f : MsvRun → Nat → Word × Bool) : State :=
  msvDo s k op (fun r w => noteSat (runOn s k { r with v := r.v.set (vdOf w) (f r w).1 }) k (f r w).2)

/-- An instruction that writes VD. -/
def msvVal (s : State) (k : Fin 10) (op : Nat) (f : MsvRun → Nat → Word) : State :=
  msvDo s k op (fun r w => runOn s k { r with v := r.v.set (vdOf w) (f r w) })

/-- An instruction of the RR format. -/
def msvRR (s : State) (k : Fin 10) (op : Nat) (f : Word → Word → Word) : State :=
  msvVal s k op (fun r w => f r.v[vs1Of w] r.v[vs2Of w])
def msvRRSat (s : State) (k : Fin 10) (op : Nat) (f : Word → Word → Int) : State :=
  msvSat s k op (fun r w => satVal (f r.v[vs1Of w] r.v[vs2Of w]))

/-- An instruction that writes an accumulator. -/
def msvAcc (s : State) (k : Fin 10) (op : Nat) (f : MsvRun → Nat → Int) : State :=
  msvDo s k op (fun r w =>
    noteSat (runOn s k { r with acc := r.acc.set (accOf w) (satAcc (f r w)).1 }) k (satAcc (f r w)).2)

/-- The product of VS1 and VS2 rounded to Q8.48. -/
def prodAcc (r : MsvRun) (w : Nat) : Int := rnd 12 (prod r.v[vs1Of w] r.v[vs2Of w])

/-! ### Moves, loads and stores -/

/-- NOP: nothing. -/
def execMsvNop (k : Engine) (s : State) : Host.Outcome State Fault Refusal := .next (msvDo s k 0x01 (fun r _ => runOn s k r))

/-- MOVI: IMM22 sign-extended. -/
def execMsvMovi (k : Engine) (s : State) : Host.Outcome State Fault Refusal :=
  .next (msvVal s k 0x02 (fun _ w => BitVec.ofInt 32 (signed 22 (bitsOf w 21 0))))

/-- LUI: IMM22[15:0] << 16. -/
def execMsvLui (k : Engine) (s : State) : Host.Outcome State Fault Refusal :=
  .next (msvVal s k 0x03 (fun _ w => BitVec.ofNat 32 (bitsOf w 15 0 * 2 ^ 16)))

/-- MOV: vd = vs1. -/
def execMsvMov (k : Engine) (s : State) : Host.Outcome State Fault Refusal := .next (msvVal s k 0x04 (fun r w => r.v[vs1Of w]))

/-- LDC: vd = c[a]. -/
def execMsvLdc (k : Engine) (s : State) : Host.Outcome State Fault Refusal :=
  .next (msvVal s k 0x05 (fun r w => coefAt s k (mAddr r w 1024)))

/-- LDS: vd = s[a], with the run's own stores seen. -/
def execMsvLds (k : Engine) (s : State) : Host.Outcome State Fault Refusal :=
  .next (msvVal s k 0x06 (fun r w => smemAt s k r (mAddr r w 512)))

/-- STS: s[a] = vd at commit. -/
def execMsvSts (k : Engine) (s : State) : Host.Outcome State Fault Refusal :=
  .next (msvDo s k 0x07 (fun r w => runOn s k { r with stores := aset r.stores (mAddr r w 512) r.v[vdOf w] }))

/-- IN: vd = the latched port.  Every port of a present engine that belongs to an absent unit is one of SE9's that read zero
(R219, R260). -/
def execMsvIn (k : Engine) (s : State) : Host.Outcome State Fault Refusal :=
  .next (msvVal s k 0x08 (fun r w => (aget? r.ports (bitsOf w 5 0)).getD 0))

/-- OUT: port = vs1 at commit; SE9's outputs 8 to 15 of an absent head raise UNIT_ABSENT (R219). -/
def execMsvOut (k : Engine) (s : State) : Host.Outcome State Fault Refusal :=
  .next (msvDo s k 0x09 (fun r w =>
    let p := bitsOf w 5 0
    if k.val = 9 ∧ 8 ≤ p ∧ p < 16 ∧ headPresent s.variant (p - 8) = false then seFault s k (fldSE_STAT_ABSENT k)
    else runOn s k { r with outs := aset r.outs p r.v[vs1Of w] }))

/-! ### Arithmetic and logic -/

/-- ADD: wrapping. -/
def execMsvAdd (k : Engine) (s : State) : Host.Outcome State Fault Refusal := .next (msvRR s k 0x10 (· + ·))

/-- ADDS: saturating. -/
def execMsvAdds (k : Engine) (s : State) : Host.Outcome State Fault Refusal :=
  .next (msvRRSat s k 0x11 (fun a b => valOf a + valOf b))

/-- SUB: wrapping. -/
def execMsvSub (k : Engine) (s : State) : Host.Outcome State Fault Refusal := .next (msvRR s k 0x12 (· - ·))

/-- SUBS: saturating. -/
def execMsvSubs (k : Engine) (s : State) : Host.Outcome State Fault Refusal :=
  .next (msvRRSat s k 0x13 (fun a b => valOf a - valOf b))

/-- ADDI: vs1 + IMM18 sign-extended, wrapping. -/
def execMsvAddi (k : Engine) (s : State) : Host.Outcome State Fault Refusal :=
  .next (msvVal s k 0x14 (fun r w => r.v[vs1Of w] + BitVec.ofInt 32 (signed 18 (bitsOf w 17 0))))

/-- MUL: the product rounded to Q2.30, saturated. -/
def execMsvMul (k : Engine) (s : State) : Host.Outcome State Fault Refusal :=
  .next (msvRRSat s k 0x15 (fun a b => rnd 30 (prod a b)))

/-- vs1 / vs2 in Q2.30, truncated toward zero; by 0 the limit that has the sign of vs1 (R217). -/
def msvDiv (a b : Word) : Word × Bool :=
  if valOf b = 0 then (if 0 ≤ valOf a then 0x7FFFFFFF else 0x80000000, false)
  else satVal (truncDiv (valOf a * 2 ^ 30) (valOf b))

/-- DIV: by 0 it sets DIV0, at the commit (R212, R217). -/
def execMsvDiv (k : Engine) (s : State) : Host.Outcome State Fault Refusal :=
  .next (msvDo s k 0x16 (fun r w =>
    let q := msvDiv r.v[vs1Of w] r.v[vs2Of w]
    let s1 := noteSat (runOn s k { r with v := r.v.set (vdOf w) q.1 }) k q.2
    if r.v[vs2Of w] = 0 then modRun s1 k (fun r => { r with div0 := true }) else s1))

/-- ABS: sat(|vs1|). -/
def execMsvAbs (k : Engine) (s : State) : Host.Outcome State Fault Refusal :=
  .next (msvSat s k 0x17 (fun r w => satVal ((valOf r.v[vs1Of w]).natAbs : Int)))

/-- MIN: signed. -/
def execMsvMin (k : Engine) (s : State) : Host.Outcome State Fault Refusal :=
  .next (msvRR s k 0x18 (fun a b => if valOf b < valOf a then b else a))

/-- MAX: signed. -/
def execMsvMax (k : Engine) (s : State) : Host.Outcome State Fault Refusal :=
  .next (msvRR s k 0x19 (fun a b => if valOf a < valOf b then b else a))

/-- SHA: left with saturation, right with rounding (R207, R217). -/
def execMsvSha (k : Engine) (s : State) : Host.Outcome State Fault Refusal :=
  .next (msvSat s k 0x1A (fun r w =>
    let sh := shaOf w
    if 0 ≤ sh then satVal (valOf r.v[vs1Of w] * 2 ^ sh.toNat) else satVal (rnd sh.natAbs (valOf r.v[vs1Of w]))))

/-- AND, OR, XOR: bitwise. -/
def execMsvAnd (k : Engine) (s : State) : Host.Outcome State Fault Refusal := .next (msvRR s k 0x1C (· &&& ·))
def execMsvOr (k : Engine) (s : State) : Host.Outcome State Fault Refusal := .next (msvRR s k 0x1D (· ||| ·))
def execMsvXor (k : Engine) (s : State) : Host.Outcome State Fault Refusal := .next (msvRR s k 0x1E (· ^^^ ·))

/-- ANDI: with IMM18 zero-extended. -/
def execMsvAndi (k : Engine) (s : State) : Host.Outcome State Fault Refusal :=
  .next (msvVal s k 0x1F (fun r w => r.v[vs1Of w] &&& BitVec.ofNat 32 (bitsOf w 17 0)))

/-- SHR: logical right shift by IMM18[4:0]. -/
def execMsvShr (k : Engine) (s : State) : Host.Outcome State Fault Refusal :=
  .next (msvVal s k 0x20 (fun r w => r.v[vs1Of w] >>> bitsOf w 4 0))

/-! ### Accumulators -/

/-- MULA: acc = the product rounded to Q8.48. -/
def execMsvMula (k : Engine) (s : State) : Host.Outcome State Fault Refusal := .next (msvAcc s k 0x24 prodAcc)

/-- MAC: acc = sat(acc + product rounded). -/
def execMsvMac (k : Engine) (s : State) : Host.Outcome State Fault Refusal :=
  .next (msvAcc s k 0x25 (fun r w => r.acc[accOf w] + prodAcc r w))

/-- MSU: acc = sat(acc - product rounded). -/
def execMsvMsu (k : Engine) (s : State) : Host.Outcome State Fault Refusal :=
  .next (msvAcc s k 0x26 (fun r w => r.acc[accOf w] - prodAcc r w))

/-- LDA: acc = vs1 in Q8.48. -/
def execMsvLda (k : Engine) (s : State) : Host.Outcome State Fault Refusal :=
  .next (msvAcc s k 0x27 (fun r w => valOf r.v[vs1Of w] * 2 ^ 18))

/-- RND: sat(acc 2^SH rounded to Q2.30). -/
def execMsvRnd (k : Engine) (s : State) : Host.Outcome State Fault Refusal :=
  .next (msvSat s k 0x28 (fun r w => satVal (rnd 18 (r.acc[accOf w] * 2 ^ bitsOf w 4 2))))

/-! ### Filters, limits and tables -/

/-- A Q8.40 state value in two words of state memory (R220). -/
def runState (s : State) (k : Fin 10) (r : MsvRun) (a : Nat) : Int := stateOf (smemAt s k r a) (smemAt s k r (a + 1))

/-- Store a Q8.40 state value into two words. -/
def storeState (l : List (Nat × Word)) (a : Nat) (x : Int) : List (Nat × Word) := aset (aset l a (stateLo x)) (a + 1) (stateHi x)

/-- One section of BIQ (R220): the input, the coefficients and the two state values; answers y, the new states and whether a
result saturated. -/
def biqSection (x b0 b1 b2 a1 a2 : Word) (s1 s2 : Int) : Word × Int × Int × Bool :=
  let acc := satAcc (rnd 12 (prod b0 x) + s1 * 2 ^ 8)
  let y := satVal (rnd 18 acc.1)
  let sum := satAcc (rnd 12 (prod b1 x - prod a1 y.1) + s2 * 2 ^ 8)
  let n1 := satState (rnd 8 sum.1)
  let dif := satAcc (rnd 12 (prod b2 x - prod a2 y.1))
  let n2 := satState (rnd 8 dif.1)
  (y.1, n1.1, n2.1, acc.2 || y.2 || sum.2 || n1.2 || dif.2 || n2.2)

/-- The cascade: the run, the value and whether a result saturated, section by section. -/
def biqRun (s : State) (k : Fin 10) (cset sset : Nat) (q : MsvRun × Word × Bool) (i : Nat) : MsvRun × Word × Bool :=
  let c (j : Nat) : Word := coefAt s k (8 * cset + 5 * i + j)
  let a := 32 * sset + 4 * i
  let (y, n1, n2, sat) := biqSection q.2.1 (c 0) (c 1) (c 2) (c 3) (c 4) (runState s k q.1 a) (runState s k q.1 (a + 2))
  ({ q.1 with stores := storeState (storeState q.1.stores a n1) (a + 2) n2 }, y, q.2.2 || sat)

/-- BIQ: N sections in cascade. -/
def execMsvBiq (k : Engine) (s : State) : Host.Outcome State Fault Refusal :=
  .next (msvDo s k 0x30 (fun r w =>
    let q := (List.range (bitsOf w 17 15 + 1)).foldl (biqRun s k (bitsOf w 14 8) (bitsOf w 7 4)) (r, r.v[vs1Of w], false)
    noteSat (runOn s k { q.1 with v := q.1.v.set (vdOf w) q.2.1 }) k q.2.2))

/-- LIM: min(max(vs, c[a]), c[a + 1]). -/
def execMsvLim (k : Engine) (s : State) : Host.Outcome State Fault Refusal :=
  .next (msvVal s k 0x31 (fun r w =>
    let lo := coefAt s k (bitsOf w 9 0)
    let hi := coefAt s k (bitsOf w 9 0 + 1)
    let m := if valOf r.v[vs1Of w] < valOf lo then lo else r.v[vs1Of w]
    if valOf hi < valOf m then hi else m))

/-- INTG: the integrator's new state, clamped between lo and hi; its sum saturates as a state sum does (R208, R217). -/
def intgState (s : State) (k : Fin 10) (r : MsvRun) (w : Nat) : Int × Bool :=
  let a := bitsOf w 9 0
  let sum := satAcc ((runState s k r (2 * bitsOf w 17 10) + rnd 20 (prod (coefAt s k a) r.v[vs1Of w])) * 2 ^ 8)
  let lo := valOf (coefAt s k (a + 1)) * 2 ^ 10
  let hi := valOf (coefAt s k (a + 2)) * 2 ^ 10
  let m := if sum.1 / 2 ^ 8 < lo then lo else sum.1 / 2 ^ 8
  (if hi < m then hi else m, sum.2)

/-- INTG. -/
def execMsvIntg (k : Engine) (s : State) : Host.Outcome State Fault Refusal :=
  .next (msvDo s k 0x32 (fun r w =>
    let x := intgState s k r w
    let y := satVal (rnd 10 x.1)
    noteSat (runOn s k
      { r with
        v := r.v.set (vdOf w) y.1
        stores := storeState r.stores (2 * bitsOf w 17 10) x.1 }) k (x.2 || y.2)))

/-- FFV: sat(vs VNOM / V), rounded once; with V = 0 sat(vs 2^31). -/
def execMsvFfv (k : Engine) (s : State) : Host.Outcome State Fault Refusal :=
  .next (msvSat s k 0x33 (fun r w =>
    let n : Nat := if bitsOf w 17 16 = 0 then fget s (fldSE_VNOM_VNOM0 k) else fget s (fldSE_VNOM_VNOM1 k)
    let v := ((aget? r.ports (if bitsOf w 17 16 = 0 then 30 else 31)).getD 0).toNat
    if v = 0 then satVal (valOf r.v[vs1Of w] * 2 ^ 31) else satVal (rndDiv (valOf r.v[vs1Of w] * n) v)))

/-- The acceleration that FFA takes: the latched port that holds it, where the engine has one (R211, R217, R224, R260,
R271). -/
def ffaValue (s : State) (k : Fin 10) (r : MsvRun) (src h : Nat) : Int :=
  let port (p : Nat) : Int := valOf ((aget? r.ports p).getD 0)
  if src = 0 then
    if k.val < 8 then port 20 else if k.val = 9 then port (4 + h) else s.sled[(Fin.ofNat 8 h)].acc
  else if k.val = 8 then port 10 else if k.val = 9 then port 13 else s.spn.accCmd

/-- FFA: acc = sat(acc + p(c[a], A) rounded); naming an absent head raises UNIT_ABSENT (R219). -/
def execMsvFfa (k : Engine) (s : State) : Host.Outcome State Fault Refusal :=
  .next (msvDo s k 0x34 (fun r w =>
    let h := bitsOf w 25 23
    if headPresent s.variant h = false then seFault s k (fldSE_STAT_ABSENT k)
    else
      let i : Fin 4 := Fin.ofNat 4 (bitsOf w 11 10)
      let x := satAcc (r.acc[i] + rnd 12 (valOf (coefAt s k (bitsOf w 9 0)) * ffaValue s k r (bitsOf w 22 21) h))
      noteSat (runOn s k { r with acc := r.acc.set i x.1 }) k x.2))

/-- INJ: sat(vs + the sample of generator G). -/
def execMsvInj (k : Engine) (s : State) : Host.Outcome State Fault Refusal :=
  .next (msvSat s k 0x35 (fun r w => satVal (valOf r.v[vs1Of w] + genSample s k (Fin.ofNat 2 (bitsOf w 17 17)))))

/-- The words of a CAP: the first N of the four registers, VA in the highest bits (R223). -/
def capWords (r : MsvRun) (w : Nat) : BitVec 128 :=
  let n := bitsOf w 25 24
  let x (i hi : Nat) : Nat := if i ≤ n then (r.v[(Fin.ofNat 16 (bitsOf w hi (hi - 3)))]).toNat else 0
  BitVec.ofNat 128 (x 0 23 * 2 ^ 96 + x 1 19 * 2 ^ 64 + x 2 15 * 2 ^ 32 + x 3 11)

/-- CAP: one capture record at commit; a second replaces the first (R212). -/
def execMsvCap (k : Engine) (s : State) : Host.Outcome State Fault Refusal :=
  .next (msvDo s k 0x36 (fun r w => runOn s k { r with cap := some (capWords r w) }))

/-- LUT: piecewise-linear interpolation in a table of 2^M + 1 words (R221). -/
def execMsvLut (k : Engine) (s : State) : Host.Outcome State Fault Refusal :=
  .next (msvSat s k 0x37 (fun r w =>
    let m := bitsOf w 17 15
    let u := (r.v[vs1Of w] ^^^ 0x80000000).toNat
    let j := u / 2 ^ (32 - m)
    let f := u % 2 ^ (32 - m)
    let c0 := valOf (coefAt s k (bitsOf w 9 0 + j))
    let c1 := valOf (coefAt s k (bitsOf w 9 0 + j + 1))
    satVal (c0 + rnd (32 - m) (f * (c1 - c0)))))

/-- A number in Q2.30 within 4 units of x / 2^40: which one, the spec leaves open (R217). -/
def nearQ30 (x : Int) (free : Nat) : Int :=
  let lo := -((4 * 2 ^ 40 - x) / 2 ^ 40)
  let hi := (x + 4 * 2 ^ 40) / 2 ^ 40
  lo + ((free : Int) % (hi - lo + 1))

/-- SCS: vd = sin and v(d + 1) = cos of 2 pi vs / 2^32, each with an error of at most 4 2^-30, which is left open. -/
def execMsvScs (k : Engine) (s : State) : Host.Outcome State Fault Refusal :=
  .next (msvDo s k 0x38 (fun r w =>
    let t := (r.v[vs1Of w]).toNat
    let si := BitVec.ofInt 32 (nearQ30 (sinTurn t) (Config.freeWord s.freeCtr).toNat)
    let co := BitVec.ofInt 32 (nearQ30 (cosTurn t) (Config.freeWord (s.freeCtr + 1)).toNat)
    tickFree (tickFree (runOn s k { r with v := (r.v.set (vdOf w) si).set (Fin.ofNat 16 (bitsOf w 25 22 + 1)) co }))))

/-! ### Control -/

/-- The condition of BR (R218). -/
def brCond (c : Nat) (a b : Word) : Bool :=
  if c = 0 then a == b
  else if c = 1 then a != b
  else if c = 2 then decide (a.toInt < b.toInt)
  else if c = 3 then decide (b.toInt ≤ a.toInt)
  else if c = 4 then decide (a.toNat < b.toNat)
  else if c = 5 then decide (b.toNat ≤ a.toNat)
  else if c = 6 then (a &&& b) != 0
  else if c = 7 then (a &&& b) == 0
  else false

/-- BR: to the address + 1 + OFF if the condition holds. -/
def execMsvBr (k : Engine) (s : State) : Host.Outcome State Fault Refusal :=
  .next (msvDo s k 0x3A (fun r w =>
    if brCond (bitsOf w 25 22) r.v[vs1Of w] r.v[vs2Of w] then putRun s k { r with pc := r.pc + 1 + bitsOf w 10 0 }
    else runOn s k r))

/-- JMP: to the address + 1 + OFF. -/
def execMsvJmp (k : Engine) (s : State) : Host.Outcome State Fault Refusal :=
  .next (msvDo s k 0x3B (fun r w => putRun s k { r with pc := r.pc + 1 + bitsOf w 10 0 }))

/-- REP: at commit each status bit of MASK takes its bit of vs. -/
def execMsvRep (k : Engine) (s : State) : Host.Outcome State Fault Refusal :=
  .next (msvDo s k 0x3C (fun r w =>
    let m := bitsOf w 1 0
    runOn s k
      { r with
        repMask := r.repMask ||| m
        repVal := (r.repVal &&& (3 ^^^ m)) ||| ((r.v[vs1Of w]).toNat &&& m) }))

/-- EVT: at commit the event code and value; a second one replaces the first and sets EVT_OVR. -/
def execMsvEvt (k : Engine) (s : State) : Host.Outcome State Fault Refusal :=
  .next (msvDo s k 0x3D (fun r w =>
    runOn s k
      { r with
        evt := some (bitsOf w 7 0, r.v[vs1Of w])
        evtOvr := r.evtOvr || r.evt.isSome }))

/-- END: the run ends and its effects commit. -/
def execMsvEnd (k : Engine) (s : State) : Host.Outcome State Fault Refusal := .next (msvDo s k 0x3F (fun r _ => runCommit s k r))

end Machine
end Sys2Proof
end

