-- ==== Sys2Proof/Machine/ServoLoad.lean ====
section
/-! DEFINITION. Loading and checking the servo engines' banks (R226 to R228), their window (R203, R232), START, STOP and
APPLY_NOW (R230, R236), cache refetches (R231) and capture control (R223). -/

namespace Sys2Proof
namespace Machine

/-! ### The program check (R228) -/

/-- What one instruction word says to the check: flags (as SEk_LOAD_STAT numbers them), steps if it falls through, the steps
and offset of a jump, whether it falls through, and the state words it stores. -/
structure MsvShape where
  flags : Nat
  steps : Nat
  jump : Option (Nat × Nat)
  falls : Bool
  stores : Nat
deriving DecidableEq, Repr

/-- The bits that a word of an opcode must hold 0 (R216, R217); none for an unlisted opcode. -/
def zeroMask (op : Nat) : Option Nat :=
  match op with
  | 0x01 | 0x3F => some 0x03FFFFFF
  | 0x02 | 0x14 | 0x1F | 0x32 => some 0
  | 0x03 => some 0x003F0000
  | 0x04 | 0x17 => some 0x0003FFFF
  | 0x05 => some 0x0001FC00
  | 0x06 | 0x07 => some 0x0001FE00
  | 0x08 => some 0x003FFFC0
  | 0x09 => some 0x03C3FFC0
  | 0x10 | 0x11 | 0x12 | 0x13 | 0x15 | 0x16 | 0x18 | 0x19 | 0x1C | 0x1D | 0x1E => some 0x3FFF
  | 0x1A => some 0x0003FFC0
  | 0x20 => some 0x0003FFE0
  | 0x24 | 0x25 | 0x26 => some 0x03C03FFC
  | 0x27 => some 0x03C3FFFC
  | 0x28 => some 0x003FFFE0
  | 0x30 => some 0xF
  | 0x31 => some 0x0003FC00
  | 0x33 => some 0xFFFF
  | 0x34 => some 0x001FF000
  | 0x35 => some 0x1FFFF
  | 0x36 => some 0xFF
  | 0x37 => some 0x7C00
  | 0x38 => some 0x3FFFF
  | 0x3A => some 0x3800
  | 0x3B => some 0x03FFF800
  | 0x3C => some 0x03C3FFFC
  | 0x3D => some 0x03C3FF00
  | _ => none

/-- The steps of an opcode that does not jump (R217). -/
def stepsOf (w : Nat) : Nat :=
  match opOf w with
  | 0x16 => 12
  | 0x30 => 2 + 4 * (bitsOf w 17 15 + 1)
  | 0x31 => 2
  | 0x32 => 4
  | 0x33 => 3
  | 0x34 => 2
  | 0x37 => 4
  | 0x38 => 6
  | _ => 1

/-- The state words that a word stores. -/
def storesOf (w : Nat) : Nat :=
  match opOf w with
  | 0x07 => 1
  | 0x30 => 4 * (bitsOf w 17 15 + 1)
  | 0x32 => 2
  | _ => 0

def flagOpcode : Nat := 64
def flagRange : Nat := 32
def flagPort : Nat := 16
def flagStores : Nat := 8
def flagAbsent : Nat := 4

/-- The failures that an instruction word shows by itself (R219, R228). -/
def wordFlags (v : Variant) (k w : Nat) : Nat :=
  let z := match zeroMask (opOf w) with
    | some m => if w &&& m = 0 then 0 else flagOpcode
    | none => flagOpcode
  let a := bitsOf w 9 0
  z ||| match opOf w with
  | 0x08 => if 32 ≤ bitsOf w 5 0 then flagPort else 0
  | 0x09 =>
    let p := bitsOf w 5 0
    if 16 ≤ p ∨ (8 ≤ p ∧ k ≠ 9) then flagPort else if 8 ≤ p ∧ headPresent v (p - 8) = false then flagAbsent else 0
  | 0x1A => if bitsOf w 5 0 = 0x20 then flagOpcode else 0
  | 0x30 => if 1024 < 8 * bitsOf w 14 8 + 5 * (bitsOf w 17 15 + 1) then flagRange else 0
  | 0x31 => if 1023 < a + 1 then flagRange else 0
  | 0x32 => if 1023 < a + 2 then flagRange else 0
  | 0x33 => if 2 ≤ bitsOf w 17 16 then flagOpcode else 0
  | 0x34 =>
    let h := bitsOf w 25 23
    (if 2 ≤ bitsOf w 22 21 then flagOpcode else 0) ||| (if k < 8 ∧ h ≠ k then flagPort else 0) |||
      (if headPresent v h then 0 else flagAbsent)
  | 0x37 =>
    let m := bitsOf w 17 15
    if m = 0 ∨ m = 7 then flagOpcode else if 1023 < a + 2 ^ m then flagRange else 0
  | 0x38 => if bitsOf w 22 22 = 1 then flagRange else 0
  | 0x3A => if 8 ≤ bitsOf w 25 22 then flagOpcode else 0
  | _ => 0

/-- The shape of an instruction word. -/
def wordShape (v : Variant) (k w : Nat) : MsvShape :=
  let op := opOf w
  ⟨wordFlags v k w, stepsOf w, if op = 0x3A ∨ op = 0x3B then some (2, bitsOf w 10 0) else none,
   !(op == 0x3B || op == 0x3F || (zeroMask op).isNone), storesOf w⟩

/-- What the paths from one address show: flags, the largest number of steps, the largest number of stores. -/
structure PathInfo where
  flags : Nat
  steps : Nat
  stores : Nat
deriving DecidableEq, Repr

/-- Past the end of the bank. -/
def pathEnd : PathInfo := ⟨flagRange, 0, 0⟩

/-- The paths from an address, from those of the addresses above it, the next one first. -/
def pathStep (v : Variant) (k : Nat) (w : Word) (above : List PathInfo) : PathInfo :=
  let sh := wordShape v k w.toNat
  let next := if sh.falls then [(sh.steps, above.getD 0 pathEnd)] else []
  let jump := match sh.jump with
    | some (c, off) => [(c, above.getD off pathEnd)]
    | none => []
  let all := next ++ jump
  ⟨all.foldl (fun f p => f ||| p.2.flags) sh.flags,
   if all.isEmpty then sh.steps else all.foldl (fun m p => Nat.max m (p.1 + p.2.steps)) 0,
   sh.stores + all.foldl (fun m p => Nat.max m p.2.stores) 0⟩

/-- The paths from every address of a bank. -/
def pathInfos (v : Variant) (k : Nat) (ws : List Word) : List PathInfo :=
  ws.foldr (fun w above => pathStep v k w above :: above) []

/-- The check of a program: the flags and WCET0, WCET1 (R228). -/
def checkProgram (s : State) (k : Nat) (ws : List Word) : Nat × Nat × Nat :=
  let infos := pathInfos s.variant k ws
  let entry := pendOr s (regSE_ENTRY k)
  let one (n e : Nat) : Nat × Nat :=
    if pendSrc s k n = 0 then (0, 0)
    else
      let i := infos.getD e pathEnd
      (i.flags ||| (if 64 < i.stores then flagStores else 0), i.steps + 16)
  let a := one 0 (bitsOf entry 10 0)
  let b := one 1 (bitsOf entry 26 16)
  (a.1 ||| b.1, a.2, b.2)

/-! ### Loading (R226, R227) -/

/-- Whether a bank is live. -/
def bankLive (s : State) (k : Fin 10) (coef : Bool) (b : Nat) : Bool :=
  if coef then s.se[k].liveCoef.val == b else s.se[k].liveProg.val == b

/-- The words of little-endian bytes. -/
def wordsOf (n : Nat) (bs : List Byte) : List Word :=
  match n with
  | 0 => []
  | n + 1 => BitVec.ofNat 32 (leNat (bs.take 4)) :: wordsOf n (bs.drop 4)

/-- The outcome flags of SEk_LOAD_STAT. -/
def fldLoadFlags (k : Nat) : Fld := ⟨regSE_LOAD_STAT k, 7, 0⟩

/-- SEk_LOAD is written with GO (R227). -/
def seLoad (s : State) (k : Fin 10) (coef : Bool) (b : Nat) : State :=
  if enginePresent s.variant k = false ∨ fbit s (fldSE_LOAD_STAT_BUSY k) then s
  else if !coef && decide (2 ≤ b) then fset (fput s (fldLoadFlags k) 0x80) (fldSE_LOAD_STAT_DONE k)
  else if bankLive s k coef b then fset (fput s (fldLoadFlags k) 2) (fldSE_LOAD_STAT_DONE k)
  else
    let s1 := setBankState (fset (fput s (fldLoadFlags k) 0) (fldSE_LOAD_STAT_BUSY k)) k coef b 1
    modSe s1 k (fun e => { e with load := some (if coef then 1 else 0, b) })

/-- SE_LOAD: KIND 1 for a coefficient bank. -/
def execSeLoad (_agent : Agent) (k : Engine) (coef : Bool) (bank : Fin 4) (s : State) : Host.Outcome State Fault Refusal :=
  .next (seLoad s k coef bank.val)

/-- The load ends with its flags: LOADED, or FAILED if a check failed (R227, R228). -/
def seLoadEnd (s : State) (k : Fin 10) (coef : Bool) (b flags : Nat) : State :=
  let ok := flags &&& (255 - flagAbsent) == 0
  let s1 := setBankState (modSe s k (fun e => { e with load := none })) k coef b (if ok then 2 else 3)
  fset (fclr (fput s1 (fldLoadFlags k) flags) (fldSE_LOAD_STAT_BUSY k)) (fldSE_LOAD_STAT_DONE k)

/-- A program bank takes its words, is checked, and shows its WCET (R227, R228). -/
def seLoadProgram (s : State) (k : Fin 10) (b : Nat) (ws : List Word) : State :=
  let (fl, w0, w1) := checkProgram s k.val ws
  let entry := pendOr s (regSE_ENTRY k)
  let s1 := modSe s k (fun e =>
    { e with
      prog := e.prog.set (Fin.ofNat 2 b) ws
      loadEntry := e.loadEntry.set (Fin.ofNat 2 b) (bitsOf entry 10 0, bitsOf entry 26 16) })
  seLoadEnd (wr s1 (if b = 0 then regSE_WCET_B0 k else regSE_WCET_B1 k) (BitVec.ofNat 32 (w1 * 2 ^ 16 + w0))) k false b fl

/-- A bank takes its words. -/
def seLoadWords (s : State) (k : Fin 10) (coef : Bool) (b : Nat) (ws : List Word) : State :=
  if coef then seLoadEnd (modSe s k (fun e => { e with coef := e.coef.set (Fin.ofNat 4 b) ws })) k coef b 0
  else seLoadProgram s k b ws

/-- What a load does with the bytes that its fills brought. -/
def seLoadTake (k : Fin 10) (coef : Bool) (b : Nat) : State × Option (List Byte × Bool) → State
  | (s, some (bs, false)) => seLoadWords s k coef b (wordsOf (bankBytes coef / 4) bs)
  | (s, _) => seLoadEnd s k coef b 1

/-- The bank's fills have landed (R227). -/
def seLoadBank (s : State) (k : Fin 10) (coef : Bool) (b : Nat) : State :=
  seLoadTake k coef b (memRead s 4 (imageBase s k + bankOffset coef b) (bankBytes coef))

/-- The load that is in progress, if one is, ends. -/
def seLoadDone (s : State) (k : Fin 10) : State :=
  match s.se[k].load with
  | none => s
  | some (kind, b) => seLoadBank s k (kind == 1) b

/-- SE_LOAD_DONE. -/
def execSeLoadDone (k : Engine) (s : State) : Host.Outcome State Fault Refusal := .next (seLoadDone s k)

/-! ### The window (R203, R226, R232) -/

/-- The bank that an image offset lies in. -/
def bankAt (off : Nat) : Bool × Nat := if off < 0x4000 then (false, off / 0x2000) else (true, (off - 0x4000) / 0x1000)

/-- A word is written through the window: staging memory takes it and its bank is EMPTY; a live bank drops it (R226). -/
def seWindowWrite (s : State) (k : Fin 10) (off : Nat) (value : Word) : State :=
  if enginePresent s.variant k = false then reply s .ok 0 []
  else
    let (coef, b) := bankAt off
    if bankLive s k coef b then replyError (fset s (fldSE_STAT_LIVE_WR k))
    else
      match memWrite s 4 (imageBase s k + (off - off % 4)) (natLe 4 value.toNat) with
      | some s1 => reply (setBankState s1 k coef b 0) .ok 0 []
      | none => replyError s

/-- SE_WINDOW_WRITE. -/
def execSeWindowWrite (_agent : Agent) (k : Engine) (offset : Fin 32768) (value : BitVec 32) (s : State) :
    Host.Outcome State Fault Refusal := .next (seWindowWrite s k offset.val value)

/-- A word of state memory is written from outside: held while a run goes on (R232). -/
def seStateWrite (s : State) (k : Fin 10) (word : Nat) (value : Word) : State :=
  if enginePresent s.variant k = false then reply s .ok 0 []
  else
    reply (modSe s k (fun e =>
      if e.run.isSome then { e with heldWrites := e.heldWrites ++ [(word, value)] }
      else { e with smem := aset e.smem word value })) .ok 0 []

/-- SE_STATE_WRITE. -/
def execSeStateWrite (_agent : Agent) (k : Engine) (word : Fin 512) (value : BitVec 32) (s : State) :
    Host.Outcome State Fault Refusal := .next (seStateWrite s k word.val value)

/-! ### START, STOP, APPLY_NOW (R230, R236) -/

/-- START: in STOPPED the pending fields apply under the check, and the engine runs if its live program is LOADED. -/
def seStart (s : State) (k : Fin 10) : State :=
  if enginePresent s.variant k = false ∨ seState s k ≠ 0 then s
  else
    let s1 := seApply s k
    if seCheck s k && bankState s1 k false s1.se[k].liveProg.val == 2 then fput s1 (fldSE_STAT_STATE k) 1
    else fset s1 (fldSE_STAT_START_DENIED k)

/-- SE_START. -/
def execSeStart (_agent : Agent) (k : Engine) (s : State) : Host.Outcome State Fault Refusal := .next (seStart s k)

/-- STOP: the present run commits first; FAULTED and OFFLINE stop at once. -/
def seStop (s : State) (k : Fin 10) : State :=
  if enginePresent s.variant k = false ∨ seState s k = 0 then s
  else if s.se[k].run.isSome then modSe s k (fun e => { e with stopReq := true, pend := Vector.replicate 2 none })
  else seHalt s k 0

/-- SE_STOP. -/
def execSeStop (_agent : Agent) (k : Engine) (s : State) : Host.Outcome State Fault Refusal := .next (seStop s k)

/-- APPLY_NOW: between two runs when no sweep program runs; else refused. -/
def seApplyNow (s : State) (k : Fin 10) : State :=
  if enginePresent s.variant k = false then s
  else if sweepRunning s then fset s (fldSE_STAT_APPLY_DENIED k)
  else if s.se[k].run.isSome then modSe s k (fun e => { e with applyDue := true })
  else seApply s k

/-- SE_APPLY_NOW. -/
def execSeApplyNow (_agent : Agent) (k : Engine) (s : State) : Host.Outcome State Fault Refusal := .next (seApplyNow s k)

/-! ### Caches and capture -/

/-- A line of the program or coefficient cache reports an uncorrectable word: it is refetched; a poisoned refetch raises
FETCH_ERR (R231). -/
def seRefetch (s : State) (k : Fin 10) (coef : Bool) (line : Nat) : State :=
  let off := (if coef then 0x4000 else 0) + 64 * line
  let (_, b) := bankAt off
  if enginePresent s.variant k = false ∨ bankState s k coef b ≠ 2 then s
  else
    let s0 := count (count s 430) 421
    match memRead s0 4 (imageBase s k + off) 64 with
    | (s1, some (bs, false)) =>
      let ws := wordsOf 16 bs
      let at0 := (off - bankOffset coef b) / 4
      let lay (l : List Word) : List Word := l.take at0 ++ ws ++ l.drop (at0 + 16)
      modSe s1 k (fun e =>
        if coef then { e with coef := e.coef.set (Fin.ofNat 4 b) (lay e.coef[(Fin.ofNat 4 b)]) }
        else { e with prog := e.prog.set (Fin.ofNat 2 b) (lay e.prog[(Fin.ofNat 2 b)]) })
    | (s1, _) => if seState s1 k = 1 then seFault s1 k (fldSE_STAT_FETCH_ERR k) else s1

/-- SE_CACHE_REFETCH. -/
def execSeCacheRefetch (k : Engine) (coef : Bool) (line : Fin 256) (s : State) : Host.Outcome State Fault Refusal :=
  .next (seRefetch s k coef line.val)

/-- SEk_CAP_CTL.EN is written: capture starts as EN rises, at once or with the next restart of G0 (R223, R237). -/
def capEnable (s : State) (k : Fin 10) (on : Bool) : State :=
  if enginePresent s.variant k = false then s
  else
    let rise := on && !(fbit s (fldSE_CAP_CTL_EN k))
    let sync := fbit s (fldSE_CAP_CTL_SYNC k)
    let s1 := fputB s (fldSE_CAP_CTL_EN k) on
    if rise then
      modSe (fput s1 (fldSE_CAP_STAT_COUNT k) 0) k (fun e => { e with capOn := !sync, capWait := sync, restarted := false })
    else if on then s1
    else modSe s1 k (fun e => { e with capOn := false, capWait := false })

/-- CAP_ENABLE_WRITE. -/
def execCapEnableWrite (_agent : Agent) (k : Engine) (on : Bool) (s : State) : Host.Outcome State Fault Refusal :=
  .next (capEnable s k on)

end Machine
end Sys2Proof
end

