-- ==== Sys2Proof/Machine/Faults.lean ====
section
/-! DEFINITION. Fault records, heartbeats and fencing, head isolation, and SAFE (R534 to R549); and what a supply fault and SAFE
do to write cells and sleds (R480). -/

namespace Sys2Proof
namespace Machine

/-! ### Permits of a reset agent (R61) -/

/-- The registers that configure the resource of a permit (R573). -/
def permitRegs (p : Nat) : List Nat :=
  if p < 16 then [regGPIO_FUNC p]
  else if p < 20 then [regTMR_CFG (p - 16), regTMR_PWM (p - 16)]
  else if p = 21 then [regCLK_OUT]
  else []

/-- A resource returns to its reset configuration. -/
def permitConfigReset (s : State) (p : Nat) : State :=
  let s1 := { s with regs := s.regs.filter (fun r => !((permitRegs p).contains r.1)) }
  if p < 16 then fputAt (fputAt s1 fldGPIO_OE_EN p false) fldGPIO_OUT_LEVEL p false
  else if p = 21 then { s1 with clk := { s1.clk with outSrc := 0, outTo := none, div := 1, high := 1 } }
  else s1

/-- Every permit that an agent holds is released, and its resource returns to its reset configuration (R61); FEATURE keeps its
code here too (DESIGN CHOICE, log 91). -/
def permitsRelease (s : State) (agentId : Nat) : State :=
  forEach ((List.range 22).filter (fun p => permitOwner s p == agentId)) s (fun t p =>
    permitConfigReset (fput t (fldPERMIT_OWNER p) 0) p)

/-! ### Supply inhibit and park requests (R480, R546) -/

def heads (s : State) : List (Fin 8) := (List.finRange 8).filter (fun n => headPresent s.variant n.val)

/-- Every write cell sees the SUPPLY inhibit as it stands. -/
def inhibitShow (s : State) : State :=
  forEach (heads s) s (fun t n =>
    if fbitAt t (fldWC_STAT_LIVE n.val) 4 = supplyInhibits t then t else wcLevel t n 4 (supplyInhibits t))

/-- Every sled takes a park request, or is released from one: source 1 is a supply fault, 2 is SAFE (R311). -/
def parkAll (s : State) (src : Nat) (on : Bool) : State :=
  forEach (heads s) s (fun t n => if on then sledPark t n src else sledParkRelease t n src)

/-! ### Records (R536 to R538, R597) -/

/-- The 256 bits of a fault record. -/
def faultRecord (r : FaultReport) : BitVec 256 :=
  BitVec.ofNat 256 (r.cls * 2 ^ 248 + r.level % 4 * 2 ^ 246 + r.district % 8 * 2 ^ 243 + r.avPort % 16 * 2 ^ 239 +
    r.cell % 64 * 2 ^ 233 + r.action % 8 * 2 ^ 230 + r.detail % 2 ^ 32 * 2 ^ 192 + r.time.toNat * 2 ^ 128 + r.repeats * 2 ^ 96)

/-- The Square writes a record; a full ring drops it and sets OVERFLOW. -/
def recordWrite (s : State) (r : FaultReport) : State := fifoPush (count s (513 + r.level % 4)) 13 (faultRecord r)

/-- The pending reports in Ring Road port order, each place's oldest first (R548). -/
def reportsInOrder (l : List FaultReport) : List FaultReport :=
  (List.range 8).flatMap (fun d => l.filter (fun r => r.district % 8 == d))

/-- FAULT_REPORT: the reports that have been raised reach the Square. -/
def faultReport (s : State) : State := forEach (reportsInOrder s.reports) { s with reports := [] } recordWrite

def execFaultReport (s : State) : Host.Outcome State Fault Refusal := .next (faultReport s)

/-- A report raised at chip level is recorded at once; it names no unit but the one given (R597). -/
def chipRecord (s : State) (cls district avPort action detail : Nat) : State :=
  recordWrite s ⟨cls, 3, district, avPort, 0x3F, action, detail % 2 ^ 32, s.chipTime, 0⟩

/-! ### SAFE (R545 to R547) -/

/-- SAFE is entered with a cause, unless it holds already. -/
def safeEnter (s : State) (cause : Nat) : State :=
  if fbit s fldSQ_STAT_SAFE then s
  else
    let s1 := fput (fset (fset s fldSQ_STAT_SAFE) fldSQ_STAT_SAFE_EVT) fldSQ_STAT_SAFE_CAUSE cause
    parkAll (spnSafeN (inhibitShow (count (fset s1 fldSQ_STAT_PIN_LOW) 517)) true) 2 true

/-- LOCKSTEP_MISMATCH: the Square's two machines disagree. -/
def execLockstepMismatch (cycle : BitVec 32) (s : State) : Host.Outcome State Fault Refusal :=
  .next (safeEnter (chipRecord s 0x10 0 0xF 4 cycle.toNat) 1)

/-- SAFE_EXT: SAFE_N is driven low from outside, or let go. -/
def safeExt (s : State) (low : Bool) : State :=
  let s1 := { s with sq := { s.sq with pinLow := low } }
  if low && s.sq.pinLow then s
  else if low then safeEnter (fset (chipRecord s1 0x11 0 0xF 4 0) fldSQ_STAT_PIN_LOW) 4
  else fputB s1 fldSQ_STAT_PIN_LOW (fbit s1 fldSQ_STAT_SAFE)

def execSafeExt (low : Bool) (s : State) : Host.Outcome State Fault Refusal := .next (safeExt s low)

/-- SAFE_REQ: SQ_SAFE is written; only CODE 0x5A acts. -/
def safeReq (s : State) (a v : Nat) : State :=
  if bitsOf v 31 24 = 0x5A then safeEnter (chipRecord s 0x12 0 0xF 4 a) 7 else s

def execSafeReq (agent : Agent) (value : BitVec 32) (s : State) : Host.Outcome State Fault Refusal :=
  .next (reply (safeReq s agent.id value.toNat) .ok 0 [])

/-- A kick restarts the watchdog's count; any other code is ignored. -/
def sqKick (s : State) (v : Nat) : State :=
  if bitsOf v 31 24 = 0x4B then { s with sq := { s.sq with expiries := 0 } } else s

/-- SQ_KICK. -/
def execSqKick (_agent : Agent) (value : BitVec 32) (s : State) : Host.Outcome State Fault Refusal :=
  .next (reply (sqKick s value.toNat) .ok 0 [])

/-- WATCHDOG_ENABLE: WD_EN sets until core reset. -/
def execWatchdogEnable (_agent : Agent) (s : State) : Host.Outcome State Fault Refusal :=
  .next (reply (fset s fldSQ_CFG_WD_EN) .ok 0 [])

/-- WD_EXPIRE: a period passes without a kick; the second in a row enters SAFE. -/
def wdExpire (s : State) : State :=
  if fbit s fldSQ_CFG_WD_EN then
    let n := s.sq.expiries + 1
    let s1 := fset (chipRecord { s with sq := { s.sq with expiries := n } } 0x0F 0 0xF (if n = 2 then 4 else 0) n) fldSQ_STAT_WD_WARN
    if n = 2 then safeEnter s1 5 else s1
  else s

def execWdExpire (s : State) : Host.Outcome State Fault Refusal := .next (wdExpire s)

/-! ### Isolation (R542, R543) -/

def isolated (s : State) (n : Nat) : Bool := fbitAt s fldFM_ISOLATE_ISOLATED n

/-- Isolate a head: its laser outputs turn off and the present slot with them, its sled parks, its engine stops, and it
goes offline at the next boundary; nothing more happens to a head that is isolated already (R548). -/
def isolate (s : State) (n : Fin 8) : State :=
  if !(headPresent s.variant n.val) || isolated s n.val then s
  else
    let s1 := fputAt s fldFM_ISOLATE_ISOLATED n.val true
    let s2 := sif (writePresent s.variant) s1 (fun t => slotStop t n 0 2)
    fputAt (seStop (sledPark s2 n 0) (Fin.ofNat 10 n.val)) fldSWP_HEAD_ONLINE_OFFLINE_PEND n.val true

/-- The Ring Road port and the Avenue port of a head (R20, R32). -/
def headPlace (n : Nat) : Nat × Nat := (3 + n / 4, n % 4)

/-- The present heads that a mask names. -/
def headsNamed (s : State) (mask : Nat) : List (Fin 8) :=
  (List.finRange 8).filter (fun n => mask.testBit n.val && headPresent s.variant n.val)

/-- A write of FM_ISOLATE: each present head named is isolated, with a record. -/
def isolateHeads (s : State) (mask : Nat) : State :=
  forEach (headsNamed s mask) s (fun t n => isolate (chipRecord t 0x13 (headPlace n.val).1 (headPlace n.val).2 2 n.val) n)

/-- FM_ISOLATE. -/
def execFmIsolate (_agent : Agent) (heads : BitVec 8) (s : State) : Host.Outcome State Fault Refusal :=
  .next (reply (isolateHeads s heads.toNat) .ok 0 [])

/-- The addresses of a head block's registers and of its engine's (R15, R21). -/
def inHead (n a : Nat) : Bool :=
  (decide (headBase n ≤ a) && decide (a < headBase n + 0x100000)) || (decide (seWindow n ≤ a) && decide (a < seWindow n + 0x10000))

/-- Every slot of a head ends: open packets ABORTED, those not begun disarmed, the present write slot stopped and
ended, and no read-back awaited; so each data step whose slots these were has its record (R127, R336; DEDUCED, log 116). -/
def slotsDrop (s : State) (n : Fin 8) : State :=
  let s1 := forEach [0, 1, 2, 3] s (fun t k => packetAbort t (headChan n k))
  disarmHead (sif (writePresent s.variant) s1 (fun t => verifyLost (writeSlotEnd (slotStop t n 0 2) n) n)) n

/-- What the sweep scheduler keeps for a head through its reset: its words and their count, and its portion (R321, R543). -/
def headKeep (h : HeadBlk) : HeadBlk :=
  { HeadBlk.reset with
    sched := h.sched
    schedSeq := h.schedSeq
    portion := h.portion
    openSteps := h.openSteps
    posted := h.posted
    begun := h.begun }

/-- A head block is reset: its channels, engine, write cell, sled, FIFO and Street Roundabout, with their registers; its
engine's permits are released; its write clock, which has lost WEDGE_LOCK, stops (R61, R500, R543). -/
def headReset (s : State) (n : Fin 8) : State :=
  let s0 := permitsRelease (slotsDrop s n) (Agent.engine (Fin.ofNat 10 n.val)).id
  let chans := [0, 1, 2, 3].map (headChan n)
  inhibitShow <| wsUpdate (n := n) { s0 with
    regs := s0.regs.filter (fun r => !(inHead n.val r.1))
    pend := s0.pend.filter (fun r => !(inHead n.val r.1))
    ch := chans.foldl (fun v (c : Fin 32) => v.set c Channel.reset) s0.ch
    hb := s0.hb.set n (headKeep s0.hb[n])
    wc := s0.wc.set n WriteCell.reset
    se := s0.se.set (Fin.ofNat 10 n.val) Servo.reset
    sled := s0.sled.set n { Sled.reset with parkSrc := s0.sled[n].parkSrc }
    fifo := s0.fifo.set (Fin.ofNat 14 (1 + n.val)) ⟨0, 0, [], []⟩
    rbt := s0.rbt.set (Fin.ofNat 21 (6 + n.val)) ⟨15, 0, false, 0, 0, [], [], none, none, none, []⟩
    sq := { s0.sq with lost := s0.sq.lost.filter (fun c => match c with | .cell b _ => b.val != n.val | _ => true) } }

/-- FM_REINSTATE: a head is reset and its isolation lifted, unless its heartbeat or its district is lost. -/
def reinstate (s : State) (n : Fin 8) (alive : Bool) : State :=
  let s0 := if alive then { s with sq := { s.sq with lost := s.sq.lost.filter (fun c => c != .block (Fin.ofNat 20 n.val)) } } else s
  if s0.sq.lost.contains (.block (Fin.ofNat 20 n.val)) || s0.sq.lost.contains (.district (Fin.ofNat 5 (2 + n.val / 4))) then
    fset s0 fldSQ_STAT_FM_DENIED
  else fputAt (headReset s0 n) fldFM_ISOLATE_ISOLATED n.val false

/-- A write of FM_REINSTATE; `alive` names the heads whose heartbeat has come back. -/
def reinstateHeads (s : State) (mask alive : Nat) : State :=
  forEach (headsNamed s mask) s (fun t n => reinstate t n (alive.testBit n.val))

/-- FM_REINSTATE. -/
def execFmReinstate (_agent : Agent) (heads alive : BitVec 8) (s : State) : Host.Outcome State Fault Refusal :=
  .next (reply (reinstateHeads s heads.toNat alive.toNat) .ok 0 [])

/-! ### Heartbeats (R540, R541) -/

/-- A core stops: it no longer issues, HALTED sets, and its district is told (R365, R540). -/
def coreHalt (s : State) (k : Fin 4) : State :=
  let s1 := fputAt (fputAt s fldPLZ_STAT_RUNNING k.val false) fldPLZ_STAT_HALTED k.val true
  raiseReport { s1 with core := s1.core.set k { s1.core[k] with wait := none, resv := none, halted := true } } 0x09 2 1 k.val 0x3F 5 k.val

/-- The Ring Road port and Avenue port of a block (R20). -/
def blockPlace (b : Nat) : Nat × Nat :=
  if b < 8 then headPlace b
  else if b = 8 then (5, 0)
  else if b < 14 then (2, b - 9)
  else if b = 14 then (1, 0)
  else if b < 18 then (1, b - 11)
  else (5, b - 17)

/-- The Street Roundabout of a block, if it has one (R32). -/
def streetOf (b : Nat) : Option (Fin 21) :=
  if b < 8 then some (Fin.ofNat 21 (6 + b))
  else match b with
  | 8 => some 14
  | 9 => some 15
  | 12 => some 16
  | 13 => some 17
  | 15 => some 18
  | 18 => some 19
  | 19 => some 20
  | _ => none

/-- A fenced cell's port is granted no more, and what it has sent is discarded (R541). -/
def fencePort (s : State) (b c : Nat) : State :=
  match streetOf b with
  | some r => modRbt s r (fun q => rbtClose { q with fenced := addOnce q.fenced c, waiting := q.waiting.filter (fun w => w.port.val != c) })
  | none => s

/-- The driver outputs under a fenced cell's control turn off: a sled's stage, the spindle's gates, the chopper's gate; those of the
laser are off with the head's isolation (R541, R542; DESIGN CHOICE, log 119). -/
def fenceDrivers (s : State) (b c : Nat) : State :=
  if b < 8 ∧ c = 7 then sledCut s (Fin.ofNat 8 b) false
  else if b = 8 ∧ c = 2 ∧ spnState s ≠ 0 then spnEnter s 0 .off
  else if b = 18 ∧ c = 1 then fclr s fldSUP_STAT_CHOP_ACT
  else s

/-- Fence a cell: its error register shows it; a cell of a head block isolates the head, and a decoder slice leaves
service; its drivers turn off (R148, R535, R541). -/
def fenceCell (s : State) (b c : Nat) : State :=
  let p := blockPlace b
  let s1 := fset (fset (fencePort s b c) (fldCELL_ERR_HB_LOST (64 * b + c))) (fldCELL_ERR_FAULT (64 * b + c))
  let s2 := raiseReport s1 0x0A 1 p.1 p.2 c (if b < 8 then 2 else 1) c
  fenceDrivers
    (if b < 8 then isolate s2 (Fin.ofNat 8 b)
    else if b = 10 ∧ c < 40 then sliceRemove s2 (Fin.ofNat 40 c)
    else s2) b c

/-- HEARTBEAT_LOSS: the parent acts on the lost child; an absent one is none. -/
def heartbeatLoss (s : State) (child : Child) : State :=
  let note (t : State) : State := fset { t with sq := { t.sq with lost := if t.sq.lost.contains child then t.sq.lost else t.sq.lost ++ [child] } } fldSQ_STAT_HB_LOST
  match child with
  | .cell b c =>
    if decide (c.val < blockCells b.val) && !(absentAt s.variant (blockBase b.val)) then fenceCell (note s) b.val c.val else s
  | .block b =>
    let p := blockPlace b.val
    if absentAt s.variant (blockBase b.val) || b.val == 14 then s
    else if b.val < 8 then isolate (raiseReport (note s) 0x0B 2 p.1 p.2 0x3F 2 p.2) (Fin.ofNat 8 b.val)
    else
      let s1 := safeEnter (raiseReport (note s) 0x0B 2 p.1 p.2 0x3F 4 p.2) 3
      if b.val = 15 then forEach [0, 1] s1 (fun t k => fset t (fldOSTS_FATAL k)) else s1
  | .core k => coreHalt (raiseReport (note s) 0x0B 2 1 k.val 0x3F 5 k.val) k
  | .district d =>
    if !(districtPresent s.variant d.val) then s
    else if d.val = 2 ∨ d.val = 3 then
      let s1 := chipRecord (fset (note s) (if d.val = 2 then fldSQ_STAT_SIDE_A_LOST else fldSQ_STAT_SIDE_B_LOST)) 0x0C (d.val + 1) 0xF 3 (d.val + 1)
      forEach ((List.finRange 8).filter (fun n => n.val / 4 == d.val - 2)) s1 isolate
    else safeEnter (chipRecord (note s) 0x0C (d.val + 1) 0xF 4 (d.val + 1)) 2

def execHeartbeatLoss (child : Child) (s : State) : Host.Outcome State Fault Refusal := .next (heartbeatLoss s child)

end Machine
end Sys2Proof
end

