-- ==== Sys2Proof/Machine/Outputs.lean ====
section
/-! DEFINITION. What the controller puts on its pins (R568, R572, R576, R580 to R584), and the JTAG boundary register that sees
them (R586). -/

namespace Sys2Proof
namespace Machine

/-- What an output does: high impedance, low, high, or a waveform whose level at one moment the model does not hold. -/
inductive Drive where
  | z | low | high | moving
deriving DecidableEq, Repr

def Drive.ofBool (b : Bool) : Drive := if b then .high else .low

/-! ### GPIO (R576, R577) -/

/-- The function that FUNC selects: 4-7 are taken as 0. -/
def gpioFunc (v : Nat) : Nat := if v % 8 < 4 then v % 8 else 0

/-- The PWM output of the timer that has a line: a DUTY of PER or more holds it high, and a DUTY of 0 gives no high time. -/
def pwmDrive (s : State) (line : Nat) : Drive :=
  match (List.finRange 4).find? (fun k => fbit s (fldTMR_CFG_EN k.val) && fget s (fldTMR_CFG_MODE k.val) == 3 && fget s (fldTMR_CFG_LINE k.val) == line) with
  | some k => if s.pins.timers[k].1 ≤ s.pins.timers[k].2 then .high else if s.pins.timers[k].2 = 0 then .low else .moving
  | none => .moving

/-- A GPIO line: what Dormant holds; high impedance in reset; else as FUNC says (R572, R576). -/
def gpioDrive (s : State) (k : Nat) : Drive :=
  match s.pins.gpioHeld with
  | some (level, driven) => if driven.testBit k then Drive.ofBool (level.testBit k) else .z
  | none =>
    if inReset s then .z
    else if gpioFunc (fget s (fldGPIO_FUNC_FUNC k)) = 1 then
      (if fbitAt s fldGPIO_OE_EN k then Drive.ofBool (fbitAt s fldGPIO_OUT_LEVEL k) else .z)
    else if gpioFunc (fget s (fldGPIO_FUNC_FUNC k)) = 3 then pwmDrive s k
    else .z

/-- A mask of the GPIO lines that meet a test. -/
def gpioMaskOf (f : Nat → Bool) : Nat := (List.range 16).foldl (fun acc k => if f k then acc + 2 ^ k else acc) 0

/-- The lines that are driven, and those that are high now; the level of a waveform at this moment is free. -/
def gpioDriven (s : State) : Nat := gpioMaskOf (fun k => gpioDrive s k != .z)
def gpioLevels (s : State) : Nat :=
  gpioMaskOf (fun k => gpioDrive s k == .high || (gpioDrive s k == .moving && (Config.freeWord s.freeCtr).getLsbD k))

/-! ### Drivers (R568, R572) -/

/-- SPG: the high and the low gate of each phase, U, V and W; all low in reset. -/
def spgDrive (s : State) (i : Nat) : Drive :=
  if inReset s then .low
  else match s.spn.gates with
  | .off => .low
  | .lowSides => Drive.ofBool (i % 2 == 1)
  | .vector => .moving
  | .pulse => .moving

/-- BRK: the chopper gate. -/
def brkDrive (s : State) : Drive := Drive.ofBool (fbit s fldSUP_STAT_CHOP_ACT)

/-- CLKOUT: low in reset, off and while it switches (R506, R512). -/
def clkoutDrive (s : State) : Drive :=
  if inReset s || s.clk.outSrc == 0 || s.clk.outTo.isSome then .low else .moving

/-- Whether a head's laser outputs are on: not in reset, isolated or with the boost latched, and its write cell enabled. -/
def laserOn (s : State) (n : Nat) : Bool :=
  !(inReset s) && !(fbitAt s fldFM_ISOLATE_ISOLATED n) && !(fbit s fldSUP_STAT_BOOST_FAULT) && fbit s (fldWC_CTL_ENABLE n)

/-- LDR: I_R in 0.25 mA. -/
def ldrCurrent (s : State) (n : Nat) : Nat := if laserOn s n then fget s (fldWC_LD_CUR2_I_R n) else 0

/-- The current of a level (R175). -/
def levelCurrent (s : State) (n : Nat) : Level → Nat
  | .read => fget s (fldWC_LD_CUR2_I_R n)
  | .bias => fget s (fldWC_LD_CUR1_I_B n)
  | .middle => fget s (fldWC_LD_CUR0_I_M n)
  | .peak => fget s (fldWC_LD_CUR0_I_W n)
  | .cooling => fget s (fldWC_LD_CUR1_I_C n)

/-- LDW: the level in force less I_R; off while an inhibit holds the output at read level (R189). -/
def ldwCurrent (s : State) (n : Nat) (l : Level) : Int :=
  if laserOn s n && !(fbit s (fldWC_STAT_LATCH n)) && fget s (fldWC_STAT_LIVE n) == 0 then (levelCurrent s n l : Int) - levelCurrent s n .read else 0

/-! ### Kerb bus, SMBus, SAFE_N (R547, R572, R578 to R585) -/

def kdDrive (s : State) (i : Nat) : Drive :=
  match s.pins.kd with
  | some v => Drive.ofBool (v.testBit i)
  | none => .z

def kackDrive (s : State) : Drive := Drive.ofBool (!s.pins.ack)
def kintDrive (s : State) : Drive := if fbit s fldKRB_INT_ASSERT then .low else .z
def safeDrive (s : State) : Drive := if fbit s fldSQ_STAT_SAFE then .low else .z

/-! ### The boundary register (R586) -/

/-- A ball of the boundary register. -/
inductive BPin where
  | home (n : Nat)
  | spg (i : Nat)
  | brk | clkout
  | spi (i : Nat)
  | kd (i : Nat)
  | ka (i : Nat)
  | kctl (i : Nat)
  | kack | kint | resetN | safeN
  | gpio (k : Nat)
deriving DecidableEq, Repr

/-- The balls in port and signal order. -/
def boundaryPins : List BPin :=
  (List.range 8).map .home ++ (List.range 6).map .spg ++ [.brk, .clkout] ++ (List.range 6).map .spi ++
    (List.range 16).map (fun i => .kd (15 - i)) ++ (List.range 8).map (fun i => .ka (7 - i)) ++ (List.range 3).map .kctl ++
    [.kack, .kint, .resetN, .safeN] ++ (List.range 16).map .gpio

/-- Whether a ball is an input only: it has no enable cell. -/
def BPin.input : BPin → Bool
  | .home _ => true
  | .ka _ => true
  | .kctl _ => true
  | .resetN => true
  | _ => false

/-- What the core puts on a ball. -/
def coreDrive (s : State) : BPin → Drive
  | .spg i => spgDrive s i
  | .brk => brkDrive s
  | .clkout => clkoutDrive s
  | .spi i => if s.boot.spi.isSome then .moving else if i = 0 then .moving else if i = 1 then .high else .z
  | .kd i => kdDrive s i
  | .kack => kackDrive s
  | .kint => kintDrive s
  | .safeN => safeDrive s
  | .gpio k => gpioDrive s k
  | _ => .z

/-- The level of a ball that the controller does not drive to a held level: the strobes and lines that the state knows, else free. -/
def pinLevel (s : State) (free : Bool) : BPin → Bool
  | .kctl 0 => if s.pins.strobe = 0 then free else false
  | .kctl 1 => s.pins.strobe != 1
  | .kctl 2 => s.pins.strobe != 2
  | .resetN => !s.boot.pinLow
  | .safeN => !s.sq.pinLow
  | .gpio k => fbitAt s fldGPIO_IN_LEVEL k
  | _ => free

/-- The cells of a ball: its level, and for an output whether it is driven. -/
def pinCells (s : State) (free : Bool) (p : BPin) : List Bool :=
  let level := match coreDrive s p with
    | .low => false
    | .high => true
    | .moving => free
    | .z => pinLevel s free p
  if p.input then [level] else [level, coreDrive s p != .z]

/-- The cells that the boundary register captures, from TDI on. -/
def boundaryCells (s : State) : List Bool :=
  boundaryPins.zipIdx.flatMap (fun p => pinCells s ((Config.freeWord (s.freeCtr + p.2)).getLsbD 0) p.1)

/-- Where a ball's cells begin in the register. -/
def cellOffset (p : BPin) : Nat := (boundaryPins.takeWhile (fun q => q != p)).foldl (fun acc q => acc + if q.input then 1 else 2) 0

/-- What a ball of the boundary register puts out: EXTEST and CLAMP drive what the register holds, HIGHZ nothing, and with any
other instruction the core drives (R586). -/
def ballDrive (s : State) (p : BPin) : Drive :=
  if p.input then .z
  else if s.pins.jtagIr = 3 ∨ s.pins.jtagIr = 4 then
    (if s.pins.boundary.testBit (cellOffset p + 1) then Drive.ofBool (s.pins.boundary.testBit (cellOffset p)) else .z)
  else if s.pins.jtagIr = 5 then .z
  else coreDrive s p

end Machine
end Sys2Proof
end

