-- ==== Sys2Proof/Machine/SweepRun.lean ====
section
/-! DEFINITION. Running a portion: posting SCHED words (R321), beginning a portion (R322), and the steps of a sweep program
(R319, R323 to R327). -/

namespace Sys2Proof
namespace Machine

/-! ### Programs and portions -/

/-- The steps of a head's portion in a program, from HEAD to END, with their indices (R319, R331). -/
def portionOf (steps : List SwpStep) (n : Nat) : List (Nat × SwpStep) :=
  (steps.foldl (fun acc st =>
    let cur := if stepOp st = 1 then some (stepHead st) else acc.2.1
    (acc.1 + 1, cur, if cur = some n then acc.2.2 ++ [(acc.1, st)] else acc.2.2)) (0, (none : Option Nat), [])).2.2

/-- Read-class and write-class steps (R321). -/
def isRead (st : SwpStep) : Bool := decide (6 ≤ stepOp st) && decide (stepOp st ≤ 8)
def isWrite (st : SwpStep) : Bool := stepOp st == 9 || stepOp st == 0xA
def isCal (st : SwpStep) : Bool := stepOp st == 0xB
def isData (st : SwpStep) : Bool := isRead st || isWrite st

/-- Positioning steps: LAYER, SEEK, WAIT_POS and WAIT_WEDGE. -/
def isPos (st : SwpStep) : Bool := decide (2 ≤ stepOp st) && decide (stepOp st ≤ 5)

/-- MODE of a portion's SCHED words, from the class of its data steps (R321). -/
def portionMode (steps : List (Nat × SwpStep)) : Nat :=
  if steps.any (fun p => isWrite p.2) then 2
  else if steps.any (fun p => isRead p.2) then 1
  else if steps.any (fun p => isCal p.2) then 3
  else 0

/-- Whether a portion belongs to the present sweep. -/
def ofCurrent (s : State) (p : Portion) : Bool := (s.swpCur.map (·.ref.seq)) == some p.ref.seq

/-- Whether the window is open for a portion (R324). -/
def windowFor (s : State) (p : Portion) : Bool := ofCurrent s p && fget s fldSWP_STAT_STATE == 2

/-- Whether a channel still has an armed read slot that has not ended. -/
def chanBusy (q : Channel) : Bool := (q.sync != .idle && !q.verify) || q.queue.any (fun p => !p.2)

/-- Whether a head has an armed slot that has not ended (R322, R335). -/
def headBusy (s : State) (n : Fin 8) : Bool :=
  (List.finRange 4).any (fun sp => chanBusy s.ch[headChan n sp]) || s.wc[n].slots.any (fun q => q.phase != .verifying)

/-! ### SCHED words -/

/-- A SCHED word (R321). -/
def schedWord (mode n layer area band track seq : Nat) : Word :=
  BitVec.ofNat 32 (mode % 4 * 2 ^ 30 + n / 4 % 2 * 2 ^ 29 + layer % 16 * 2 ^ 25 + area % 32 * 2 ^ 20 + band % 4096 * 2 ^ 8 +
    track % 4 * 2 ^ 6 + seq % 64)

/-- Post a word to a head's engine: good statuses are counted from it (R321, R323). -/
def schedPost (s : State) (n : Fin 8) (mode layer area band track : Nat) : State :=
  modHb s n (fun h =>
    { h with
      sched := some (schedWord mode n.val layer area band track h.schedSeq)
      schedSeq := h.schedSeq + 1
      goodRun := 0 })

/-- The fields of a head's last word; 0 before any. -/
def schedField (s : State) (n : Fin 8) (hi lo : Nat) : Nat := bitsOf (s.hb[n].sched.getD 0).toNat hi lo

/-- A step of the portion posts a word; TRACK is 0 in read mode (R321). -/
def stepPost (s : State) (n : Fin 8) (mode layer area band track : Nat) : State :=
  modHb (schedPost s n mode layer area band (if mode = 1 then 0 else track)) n (fun h => { h with posted := true })

/-! ### Beginning a portion -/

/-- A head's portion of a program begins; every step of an offline head ends SHORT_OFFLINE (R322, R336). -/
def portionBegin (s : State) (p : SwpProgram) (n : Fin 8) : State :=
  let steps := portionOf p.steps n.val
  if steps.isEmpty then s
  else
    let s1 := modHb s n (fun h =>
      { h with
        portion := some ⟨p.ref, portionMode steps, steps, false, 0⟩
        begun := p.ref.seq + 1
        posted := false })
    if fbitAt s fldSWP_HEAD_ONLINE_ONLINE n.val then s1 else portionEnd s1 n 3

/-- Whether a head has yet to begin its portion of a program. -/
def unbegun (s : State) (p : SwpProgram) (n : Fin 8) : Bool := s.hb[n].begun ≤ p.ref.seq && !(portionOf p.steps n.val).isEmpty

/-- Whether every step of a head's portion has ended or armed its slots. -/
def portionDone (h : HeadBlk) : Bool :=
  match h.portion with
  | none => true
  | some p => p.steps.isEmpty

/-- PORTION_START: the present sweep's portion while its window has not closed, else the next program's once the head's last
armed slot of the present sweep has ended and no STOP is pending (R322, R335). -/
def portionStart (s : State) (n : Fin 8) : State :=
  let st := fget s fldSWP_STAT_STATE
  match s.swpCur.filter (fun p => unbegun s p n) with
  | some p => if st = 1 ∨ st = 2 then portionBegin s p n else s
  | none =>
    match s.swpQueue with
    | p :: _ =>
      if 2 ≤ st ∧ ¬ s.swpStop ∧ unbegun s p n ∧ portionDone s.hb[n] ∧ ¬ headBusy s n then portionBegin s p n else s
    | [] => s

/-- PORTION_START. -/
def execPortionStart (n : Head) (s : State) : Host.Outcome State Fault Refusal := .next (portionStart s n)

/-! ### Steps -/

/-- Run a head's current step if it has an opcode, given the portion and the step. -/
def onStep (s : State) (n : Fin 8) (op : Nat) (f : Portion → Nat → SwpStep → State) : State :=
  match s.hb[n].portion with
  | some p =>
    match p.steps with
    | (i, st) :: _ => if stepOp st = op then f p i st else s
    | [] => s
  | none => s

/-- HEAD, NOP and END complete at once (R319). -/
def stepPlain (s : State) (n : Fin 8) (op : Nat) : State := onStep s n op (fun _ _ _ => curStepEnd s n 0 0)

/-- HEAD. -/
def execHeadStep (n : Head) (s : State) : Host.Outcome State Fault Refusal := .next (stepPlain s n 1)

/-- LAYER. -/
def execLayer (n : Head) (s : State) : Host.Outcome State Fault Refusal :=
  .next (onStep s n 2 (fun p _ st =>
    curStepEnd (stepPost s n p.mode (stepLayer st) (schedField s n 24 20) (schedField s n 19 8) (schedField s n 7 6)) n 0 0))

/-- SEEK: the word for the band, and with SLED = 1 the sled target.  A denied target ends the portion, this step with it
(R323, R328). -/
def stepSeek (s : State) (n : Fin 8) (p : Portion) (st : SwpStep) : State :=
  let pta := st.w1.toNat
  let s1 := stepPost s n p.mode (ptaLayer pta) (ptaArea pta) (ptaBand pta) (stepTrack st)
  curStepEnd (if stepSled st then sledTarget s1 n st.w2 else s1) n 0 0

/-- SEEK. -/
def execSeek (n : Head) (s : State) : Host.Outcome State Fault Refusal := .next (onStep s n 3 (fun p _ st => stepSeek s n p st))

/-- WAIT_POS: DONE at once with COUNT good statuses in a row since the latest word, else it waits (R323). -/
def execWaitPos (n : Head) (s : State) : Host.Outcome State Fault Refusal :=
  .next (onStep s n 4 (fun p _ st =>
    if p.waiting then s
    else if stepCount st ≤ s.hb[n].goodRun then curStepEnd s n 0 0
    else modPortion s n (fun p => { p with waiting := true, passed := 0 })))

/-- Frames since the window opened, as a fraction of 2^32 turns, from the disc's angle (R289, R315). -/
def sinceOpen (s : State) : Nat :=
  ((rd s regSPN_ANGLE).toNat + 2 ^ 32 - s.swpStart * 2 ^ 32 / 720 % 2 ^ 32) % 2 ^ 32

/-- A wedge of a head, counted in frames from the opening of the window (R316). -/
def framesAfterOpen (s : State) (n wedge : Nat) : Nat := (wedge + 1440 - (s.swpStart + 720 - 180 * (n % 4)) % 720) % 720

/-- Whether the frame of a head's wedge has begun within the window. -/
def frameBegun (s : State) (n wedge : Nat) : Bool := decide (framesAfterOpen s n wedge * 2 ^ 32 ≤ sinceOpen s * 720)

/-- WAIT_WEDGE: waits for its frame in the window; with that frame begun already it completes at once (R323). -/
def execWaitWedge (n : Head) (s : State) : Host.Outcome State Fault Refusal :=
  .next (onStep s n 5 (fun p _ st =>
    if !(windowFor s p) then s
    else if frameBegun s n.val (stepWedge st) then curStepEnd s n 0 0
    else modPortion s n (fun p => { p with waiting := true })))

/-- WAIT_WEDGE_REACHED. -/
def execWaitWedgeReached (n : Head) (s : State) : Host.Outcome State Fault Refusal :=
  .next (onStep s n 5 (fun p _ _ => if p.waiting ∧ windowFor s p then curStepEnd s n 0 0 else s))

/-- MARK: its record carries CODE, and with IRQ = 1 MARK sets (R323). -/
def stepMark (s : State) (n : Fin 8) (st : SwpStep) : State :=
  curStepEnd (sif (st.w0.getLsbD 27) s (fun t => fset t fldSWP_STAT_MARK)) n 0 (bitsOf st.w0.toNat 15 0)

/-- MARK. -/
def execMark (n : Head) (s : State) : Host.Outcome State Fault Refusal := .next (onStep s n 0xC (fun _ _ st => stepMark s n st))

/-- NOP. -/
def execNopStep (n : Head) (s : State) : Host.Outcome State Fault Refusal := .next (stepPlain s n 0xD)

/-- END. -/
def execEndStep (n : Head) (s : State) : Host.Outcome State Fault Refusal := .next (stepPlain s n 0)

/-! ### Data steps -/

/-- The shortfall that what held at the opening of the window gives a data step: SHORT_ANGLE for every one, SHORT_SPEED and
SHORT_TABLE for a write step; 0 for none (R327, R336). -/
def openShort (s : State) (n : Nat) (st : SwpStep) : Nat :=
  if !(isData st) then 0
  else if !s.winFlags.1 then 6
  else if isWrite st && !s.winFlags.2.1 then 5
  else if isWrite st && !(s.winFlags.2.2.contains n) then 7
  else 0

/-- Whether a channel can take slots (R131). -/
def chanReady (s : State) (c : Fin 32) : Bool := chanOn s c && fbit s (fldRC_CTL_DATA_EN c)

/-- The slots that a data step arms: tile, sector, track, arc and slot (R326). -/
def stepSlots (st : SwpStep) : List SlotAddr :=
  let pta := st.w1.toNat
  let spots := if isRead st then [0, 1, 2, 3] else [stepTrack st]
  let run := if stepOp st = 0xA then bitsOf st.w0.toNat 4 0 + 1 else 1
  (List.range run).flatMap (fun j => (List.range 9).flatMap (fun a => spots.map (fun sp =>
    ⟨BitVec.ofNat 32 (ptaAdvance pta j), 4 * a + sp, ptaPtn pta sp, a, ptaSlot pta + j⟩)))

/-- Whether the pass of a slot has begun: the place of its sector bit 0 in the frames of the window, against the disc's angle
(R76, R317, R324). -/
def passBegun (s : State) (n : Nat) (a : SlotAddr) : Bool :=
  let f := areaF (ptaArea a.pta.toNat)
  let u := f * 39 / 40 - 8
  let first := framesAfterOpen s n (slotFirstWedge (ptaArea a.pta.toNat) a.arc a.slot % 720)
  decide ((first * f + (f / 40 + 8 + 34112 * a.slot % u)) * 2 ^ 32 < sinceOpen s * 720 * f)

/-- The status with which a data step ends without arming, 0 if it arms: judged in the order ANGLE, SPEED, TABLE, CHANNEL,
LATE (R324, R327, R336). -/
def dataShort (s : State) (n : Fin 8) (st : SwpStep) : Nat :=
  if openShort s n.val st ≠ 0 then openShort s n.val st
  else if (if isRead st then List.finRange 4 else [0]).any (fun sp => !(chanReady s (headChan n sp))) then 4
  else if (stepSlots st).any (passBegun s n.val) then 1
  else 0

/-- The base of a buffer in the read or the write pool (R343, R344). -/
def readBuf (s : State) (buf : Nat) : Nat :=
  fget s fldSWP_RDBUF_HI_BASE * 2 ^ 32 + fget s fldSWP_RDBUF_LO_BASE * 2 ^ 15 + 0x28000 * buf
def writeBuf (s : State) (buf : Nat) : Nat :=
  fget s fldSWP_WRBUF_HI_BASE * 2 ^ 32 + fget s fldSWP_WRBUF_LO_BASE * 2 ^ 15 + 0x28000 * buf

/-- BUF of a step. -/
def stepBuf (st : SwpStep) : Nat := bitsOf st.w0.toNat 11 0

/-- The step leaves the portion and waits for its slots. -/
def stepOpen (s : State) (n : Fin 8) (p : Portion) (i : Nat) (st : SwpStep) (left : Nat) : State :=
  modHb s n (fun h =>
    { h with
      portion := h.portion.map (fun q => { q with steps := q.steps.drop 1, waiting := false, passed := 0 })
      openSteps := h.openSteps ++ [⟨p.ref, i, st, left⟩] })

/-- A read-class step opens its tile and arms all 36 slots (R167, R326). -/
def armRead (s : State) (n : Fin 8) (p : Portion) (i : Nat) (st : SwpStep) (kind : TileKind) : State :=
  let slots := stepSlots st
  let t : Tile := ⟨s.tileCtr, n.val, st.w1, kind, readBuf s (stepBuf st), i, st.w3, stepSpan st, [], .filling, [], false, false, false,
    0, 0, 0, 0⟩
  let s1 := showOpen { stepOpen s n p i st slots.length with tiles := s.tiles ++ [t], tileCtr := s.tileCtr + 1 }
  spanReached (forEach slots s1 (fun u a => slotQueue u (headChan n (Fin.ofNat 4 (a.sector % 4))) a false)) p.ref st

/-- STYPE of the data sectors of a write step (R320). -/
def stepStype (st : SwpStep) : Nat :=
  let m := bitsOf st.w0.toNat 18 16
  if st.w0.getLsbD 24 ∧ (m = 3 ∨ m = 7) then 0x02
  else match bitsOf st.w0.toNat 14 12 with
    | 2 => 0x10
    | 3 => 0x11
    | 4 => 0x20
    | _ => 0x00

/-- Put a write slot among the armed ones, in the order in which the passes begin. -/
def wslotInsert (key : WSlot → Nat) (l : List WSlot) (q : WSlot) : List WSlot :=
  match l with
  | [] => [q]
  | x :: t => if slotArmed x ∧ key q < key x then q :: x :: t else x :: wslotInsert key t q

/-- A write-class step arms its slots in the write cell; tile-parity sectors carry STYPE 0x01 (R320, R326). -/
def armWrite (s : State) (n : Fin 8) (p : Portion) (i : Nat) (st : SwpStep) : State :=
  let slots := stepSlots st
  let oblit := stepOp st = 0xA
  let s1 := stepOpen s n p i st slots.length
  forEach slots s1 (fun u a =>
    let q : WSlot := ⟨i, a.pta, a.sector, a.ptn, a.arc, a.slot, st.w2, if 32 ≤ a.sector then 1 else stepStype st,
      writeBuf s (stepBuf st), oblit, [], false, .armed, 0, 0, 0, 0, 0, none⟩
    modWc u n (fun w => { w with slots := wslotInsert (fun x => slotKey s n.val x.pta x.arc x.slot) w.slots q }))

/-- A data step that has been reached waits for the window, ends short, or arms its slots (R324, R326, R336). -/
def dataStep (s : State) (n : Fin 8) (op : Nat) (arm : Portion → Nat → SwpStep → State) : State :=
  onStep s n op (fun p i st =>
    if !(windowFor s p) then s
    else if dataShort s n st ≠ 0 then curStepEnd s n (dataShort s n st) 0
    else arm p i st)

/-- READ_TILE. -/
def execReadTile (n : Head) (s : State) : Host.Outcome State Fault Refusal :=
  .next (dataStep s n 6 (fun p i st => armRead s n p i st .read))

/-- VERIFY_TILE. -/
def execVerifyTile (n : Head) (s : State) : Host.Outcome State Fault Refusal :=
  .next (dataStep s n 7 (fun p i st => armRead s n p i st .verify))

/-- AUDIT_TILE. -/
def execAuditTile (n : Head) (s : State) : Host.Outcome State Fault Refusal :=
  .next (dataStep s n 8 (fun p i st => armRead s n p i st .audit))

/-- WRITE_TILE. -/
def execWriteTile (n : Head) (s : State) : Host.Outcome State Fault Refusal :=
  .next (dataStep s n 9 (fun p i st => armWrite s n p i st))

/-- OBLITERATE. -/
def execObliterate (n : Head) (s : State) : Host.Outcome State Fault Refusal :=
  .next (dataStep s n 0xA (fun p i st => armWrite s n p i st))

/-- CAL_SLOT: holds the head from WEDGE on; with that frame begun already it ends SHORT_LATE (R326). -/
def execCalSlot (n : Head) (s : State) : Host.Outcome State Fault Refusal :=
  .next (onStep s n 0xB (fun p i st =>
    if !(windowFor s p) then s
    else if frameBegun s n.val (stepWedge st) ∧ framesAfterOpen s n.val (stepWedge st) * 2 ^ 32 < sinceOpen s * 720 then
      curStepEnd s n 1 0
    else stepOpen s n p i st 1))

/-! ### The end of the window -/

/-- How a step that the window's end finds unfinished ends: a positioning step SHORT_POS, a data step by what held at the
opening or SHORT_LATE, CAL_SLOT SHORT_LATE; the others complete (R323, R324, R336). -/
def closeStep (s : State) (n : Fin 8) (st : SwpStep) : State :=
  if isPos st then curStepEnd s n 2 0
  else if isData st then curStepEnd s n (if openShort s n.val st = 0 then 1 else openShort s n.val st) 0
  else if isCal st then curStepEnd s n 1 0
  else if stepOp st = 0xC then stepMark s n st
  else curStepEnd s n 0 0

/-- End every step of a head's portion of the present sweep in order. -/
def closePortion (s : State) (n : Fin 8) : State :=
  match s.hb[n].portion with
  | none => s
  | some p => if ofCurrent s p then forEach p.steps s (fun t q => closeStep t n q.2) else s

end Machine
end Sys2Proof
end

