-- ==== Sys2Proof/Machine/SweepLoad.lean ====
section
/-! DEFINITION. Loading sweep programs: submission (R331), the header and step formats (R318, R319, R320), the checks of
R331, the encoding of parity (R329, R330), and the queue. -/

namespace Sys2Proof
namespace Machine

/-! ### Formats (R318, R319) -/

/-- The bits of word 0 [27:0] that a step holds at zero, and whether words 1 and 2 are zero; none for an illegal opcode. -/
def stepZero (op : Nat) : Option (Nat × Bool × Bool) :=
  match op with
  | 0x0 => some (0x0FFFFFFF, true, true)
  | 0x1 => some (0x0FFFFFF8, true, true)
  | 0x2 => some (0x0FFFFFF0, true, true)
  | 0x3 => some (0x01FFFFFF, false, false)
  | 0x4 => some (0x0000FF00, true, true)
  | 0x5 => some (0x0FFFFC00, true, true)
  | 0x6 => some (0x0007F000, false, true)
  | 0x7 => some (0x0007F000, false, true)
  | 0x8 => some (0x0007F000, false, true)
  | 0x9 => some (0x00008000, false, false)
  | 0xA => some (0x03FFFFE0, false, true)
  | 0xB => some (0, false, false)
  | 0xC => some (0x07FF0000, true, true)
  | 0xD => some (0x0FFFFFFF, true, true)
  | _ => none

/-- Whether a step names a PTA: SEEK, the data steps, and a CAL_SLOT whose word 1 is not zero. -/
def hasPta (st : SwpStep) : Bool := stepOp st == 3 || isData st || (isCal st && st.w1 != 0)

/-- CAL_SLOT: KIND, LEN and WEDGE. -/
def calKind (st : SwpStep) : Nat := bitsOf st.w0.toNat 27 20
def calLen (st : SwpStep) : Nat := bitsOf st.w0.toNat 19 10

/-- Field values that R319 and R320 rule out. -/
def stepFieldBad (st : SwpStep) : Bool :=
  match stepOp st with
  | 3 => bitsOf st.w1.toNat 9 5 != 0 || (!(stepSled st) && st.w2 != 0)
  | 4 => stepTimeout st == 0 || stepCount st == 0
  | 5 => decide (720 ≤ stepWedge st)
  | 9 => !([0, 2, 3, 4].contains (bitsOf st.w0.toNat 14 12))
  | 0xB => calLen st == 0 || decide (720 < calLen st) || decide (720 ≤ stepWedge st)
  | _ => false

/-- A step that FORMAT refuses: an illegal opcode or field value, or a 1 in a zero field, bits [4:0] of a PTA among them. -/
def stepFormatBad (st : SwpStep) : Bool :=
  match stepZero (stepOp st) with
  | none => true
  | some (mask, z1, z2) =>
    st.w0.toNat &&& mask != 0 || (z1 && st.w1 != 0) || (z2 && st.w2 != 0) || stepFieldBad st ||
      (hasPta st && bitsOf st.w1.toNat 4 0 != 0)

/-- A header that FORMAT refuses (R318). -/
def headerBad (h0 h2 h3 : Word) : Bool :=
  bitsOf h0.toNat 31 16 != 0x5357 || bitsOf h0.toNat 15 11 != 0 || bitsOf h0.toNat 10 0 == 0 || bitsOf h2.toNat 31 10 != 0 ||
    decide (720 ≤ h2.toNat % 1024) || h3 != 0

/-! ### Order (R331 ORDER) -/

/-- Walk the steps: the head whose portion is open, the heads that have had one (latest first), and whether the order is
broken. -/
def orderWalk (steps : List SwpStep) : Option Nat × List Nat × Bool :=
  steps.foldl (fun acc st =>
    if stepOp st = 1 then
      (some (stepHead st), stepHead st :: acc.2.1, acc.2.2 || acc.1.isSome || acc.2.1.any (fun h => decide (stepHead st ≤ h)))
    else if acc.1.isNone then (none, acc.2.1, true)
    else if stepOp st = 0 then (none, acc.2.1, acc.2.2)
    else acc) (none, [], false)

/-- A step outside a HEAD ... END portion, HEAD numbers that do not ascend, or a head with two portions. -/
def orderBad (steps : List SwpStep) : Bool := (orderWalk steps).2.2 || (orderWalk steps).1.isSome

/-- The heads that have a portion. -/
def programHeads (steps : List SwpStep) : List Nat := (orderWalk steps).2.1

/-! ### The checks of one portion -/

/-- SPAN of a step, of the read or the write class. -/
def stepHasSpan (st : SwpStep) : Bool := (isRead st && st.w0.getLsbD 27) || (stepOp st == 9 && st.w0.getLsbD 24)

/-- ABSENT: an absent head or unit is named (R9, R331). -/
def absentBad (v : Variant) (steps : List SwpStep) : Bool :=
  (programHeads steps).any (fun h => !(headPresent v h)) ||
  steps.any (fun st =>
    ((isWrite st || (isCal st && calKind st == 2)) && !(writePresent v)) ||
    (stepHasSpan st && !(spanDecPresent v)) || (stepHasSpan st && isWrite st && !(spanEncPresent v)) ||
    (stepOp st == 8 && !(archivePresent v)))

/-- BAD_PTA of a step: invalid on a disc of so many layers, the other side, or an OBLITERATE run that leaves its band. -/
def ptaBad (layers head : Nat) (st : SwpStep) : Bool :=
  hasPta st && (!(ptaValid layers st.w1.toNat) || ptaSide st.w1.toNat != head / 4 ||
    (stepOp st == 0xA && decide (areaK (ptaArea st.w1.toNat) < ptaSlot st.w1.toNat + bitsOf st.w0.toNat 4 0 + 1)))

/-- Side, layer, area and band of a PTA. -/
def ptaBandOf (st : SwpStep) : Nat := st.w1.toNat / 2 ^ 10

/-- The last step of an opcode before the first data step. -/
def lastBefore (steps : List SwpStep) (op : Nat) : Option SwpStep :=
  ((steps.takeWhile (fun st => !(isData st))).filter (fun st => stepOp st == op)).getLast?

/-- ONE_BAND: data steps that name more than one band or track, or differ from the last SEEK and LAYER. -/
def oneBandBad (steps : List SwpStep) : Bool :=
  let data := steps.filter isData
  let tracks := (data.filter isWrite).map stepTrack
  match data with
  | [] => false
  | d :: _ =>
    data.any (fun st => ptaBandOf st != ptaBandOf d) || tracks.any (fun t => t != tracks.headD 0) ||
    (match lastBefore steps 3 with
     | some k => ptaBandOf k != ptaBandOf d || tracks.any (fun t => t != stepTrack k)
     | none => false) ||
    (match lastBefore steps 2 with
     | some l => stepLayer l != ptaLayer d.w1.toNat
     | none => false)

/-- MIXED: read and write steps together, CAL_SLOT with a data step, or positioning after the first data step. -/
def mixedBad (steps : List SwpStep) : Bool :=
  (steps.any isRead && steps.any isWrite) || (steps.any isCal && steps.any isData) ||
    (steps.dropWhile (fun st => !(isData st))).any isPos

/-- The tiles that a data step names. -/
def stepTiles (st : SwpStep) : List Nat :=
  (List.range (if stepOp st = 0xA then bitsOf st.w0.toNat 4 0 + 1 else 1)).map (fun j => st.w1.toNat / 32 + j)

/-- Whether a list of numbers repeats one. -/
def repeats (l : List Nat) : Bool :=
  match l with
  | [] => false
  | x :: t => t.contains x || repeats t

/-- CAL: a CAL_SLOT that runs past the window or has an unknown KIND (R316, R518, R331). -/
def calBad (start head : Nat) (st : SwpStep) : Bool :=
  isCal st && (calKind st == 0 || decide (6 < calKind st) ||
    decide (720 < (stepWedge st + 1440 - (start + 720 - 180 * (head % 4)) % 720) % 720 + calLen st))

/-! ### Spans (R329, R331 SPAN) -/

/-- SPAN_ID and MEMBER of a step with SPAN = 1. -/
def spanId (st : SwpStep) : Nat := if isRead st then bitsOf st.w0.toNat 26 22 else bitsOf st.w0.toNat 23 19
def spanMember (st : SwpStep) : Nat := if isRead st then bitsOf st.w0.toNat 21 19 else bitsOf st.w0.toNat 18 16

/-- The steps of a program that make one span, by class and SPAN_ID, with their heads. -/
def spanSteps (steps : List SwpStep) (write : Bool) (id : Nat) : List (Nat × SwpStep) :=
  (List.range 8).flatMap (fun h => ((portionOf steps h).filter (fun p =>
    stepHasSpan p.2 && isWrite p.2 == write && spanId p.2 == id)).map (fun p => (h, p.2)))

/-- SPAN: members that differ in layer or slot, two with one MEMBER, MEMBER unlike HEAD, or write steps that are not the same
track, with the same PARITY, of all eight members. -/
def spanBad (steps : List SwpStep) (write : Bool) (id : Nat) : Bool :=
  match spanSteps steps write id with
  | [] => false
  | (h, a) :: t =>
    let l := (h, a) :: t
    l.any (fun p => spanMember p.2 != p.1) || repeats (l.map (fun p => spanMember p.2)) ||
    l.any (fun p => ptaLayer p.2.w1.toNat != ptaLayer a.w1.toNat || ptaSlot p.2.w1.toNat != ptaSlot a.w1.toNat) ||
    (write && (l.length != 8 || l.any (fun p => stepTrack p.2 != stepTrack a || p.2.w0.getLsbD 25 != a.w0.getLsbD 25)))

/-! ### All flags -/

/-- BUF values of one class, and whether they repeat or exceed the pool (R331 DUP, BUFFER). -/
def bufsOf (steps : List SwpStep) (write : Bool) : List Nat :=
  (steps.filter (fun st => if write then stepOp st == 9 else isRead st)).map stepBuf

/-- The flags of R331 that the words of a program raise: every one that applies. -/
def programFlags (s : State) (layers start : Nat) (badHeader : Bool) (steps : List SwpStep) : Nat :=
  let heads := (List.range 8).filter (fun h => (programHeads steps).contains h)
  let part (h : Nat) : List SwpStep := (portionOf steps h).map (·.2)
  let bit (b : Bool) (k : Nat) : Nat := if b then 2 ^ k else 0
  bit (badHeader || steps.any stepFormatBad) 0 +
  bit (orderBad steps) 1 +
  bit (absentBad s.variant steps) 2 +
  bit (heads.any (fun h => (part h).any (ptaBad layers h))) 3 +
  bit (heads.any (fun h => oneBandBad (part h))) 4 +
  bit (heads.any (fun h => mixedBad (part h))) 5 +
  bit (heads.any (fun h => repeats (((part h).filter isData).flatMap stepTiles)) ||
    repeats (bufsOf steps false ++ bufsOf steps true)) 6 +
  bit ((List.range 32).any (fun id => spanBad steps false id || spanBad steps true id)) 7 +
  bit (heads.any (fun h => (part h).any (calBad start h))) 8 +
  bit ((bufsOf steps false).any (fun b => decide (fget s fldSWP_RDBUF_CNT_COUNT ≤ b)) ||
    (bufsOf steps true).any (fun b => decide (fget s fldSWP_WRBUF_CNT_COUNT ≤ b))) 10

/-! ### Submission and loading -/

/-- Show how many loaded programs wait. -/
def showQueued (s : State) : State := fput s fldSWP_STAT_QUEUED s.swpQueue.length

/-- Show whether a load runs. -/
def showLoading (s : State) (on : Bool) : State := fputB (fputB s fldSWP_STAT_LOADING on) fldSWP_LOAD_STAT_BUSY on

/-- A write of SWP_SUBMIT_HI: submits the program address, or sets QFULL when four are queued or loading (R331). -/
def sweepSubmit (s : State) (value : Word) : State :=
  let s1 := wr s regSWP_SUBMIT_HI (BitVec.ofNat 32 (value.toNat % 256))
  let addr := value.toNat % 256 * 2 ^ 32 + fget s fldSWP_SUBMIT_LO_ADDR * 16
  if 4 ≤ s.swpQueue.length + s.swpSubmits.length then fset s1 fldSWP_STAT_QFULL
  else { s1 with swpSubmits := s1.swpSubmits ++ [addr] }

/-- SWEEP_SUBMIT. -/
def execSweepSubmit (_agent : Agent) (value : BitVec 32) (s : State) : Host.Outcome State Fault Refusal :=
  .next (reply (sweepSubmit s value) .ok 0 [])

/-- PROGRAM_LOAD: the next submitted program starts to load. -/
def execProgramLoad (s : State) : Host.Outcome State Fault Refusal :=
  .next (if fbit s fldSWP_STAT_LOADING ∨ s.swpSubmits = [] then s else showLoading s true)

/-- A load is over. -/
def loadEnd (s : State) : State := showQueued (showLoading { s with swpSubmits := s.swpSubmits.drop 1 } false)

/-- A program is refused: LOAD_FAIL, the flags, a load record; ABSENT_UNIT counts as a status (R331, R342, R552). -/
def loadRefuse (s : State) (flags : Nat) (id : Word) : State :=
  let s1 := count (fput (fset s fldSWP_STAT_LOAD_FAIL) fldSWP_LOAD_STAT_FLAGS flags) 379
  loadEnd (fifoPush s1 9 (stepRecord 0xE 0 0 0 0 0 s.chipTime id 0 flags))

/-- The steps in the words that follow the header. -/
def stepsOfWords (ws : List Word) : List SwpStep :=
  (List.range (ws.length / 4)).map (fun i =>
    ⟨ws.getD (4 * i) 0, ws.getD (4 * i + 1) 0, ws.getD (4 * i + 2) 0, ws.getD (4 * i + 3) 0⟩)

/-- Encode the span parity members, then the tile parity sectors, of a write program; false when a read was lost (R329,
R330). -/
def encodeProgram (s : State) (steps : List SwpStep) : State × Bool :=
  let spans := (List.range 32).filter (fun id => !(spanSteps steps true id).isEmpty)
  let s1 := spans.foldl (fun acc id =>
    if !acc.2 then acc
    else encodeSpan acc.1 (fun m =>
      writeBuf s (((spanSteps steps true id).find? (fun p => spanMember p.2 == m)).map (fun p => stepBuf p.2) |>.getD 0))) (s, true)
  (steps.filter (fun st => stepOp st == 9 && st.w0.getLsbD 25)).foldl (fun acc st =>
    if !acc.2 then acc else encodeTile acc.1 (writeBuf s (stepBuf st))) s1

/-- A program that passes its checks is encoded for and queued; a lost read refuses it with FETCH (R330, R331). -/
def loadAccept (s : State) (id : Word) (start : Nat) (steps : List SwpStep) : State :=
  match encodeProgram s steps with
  | (s1, false) => loadRefuse s1 512 id
  | (s1, true) =>
    loadEnd (fclr { s1 with
      swpQueue := s1.swpQueue ++ [⟨⟨s1.swpCtr, id⟩, start, steps⟩]
      swpCtr := s1.swpCtr + 1 } fldSWP_LOAD_STAT_FLAGS)

/-- The load of a program ends: its words are fetched and checked against a disc of so many layers per side (R318, R331).
The disc is outside the chip, so its layer count is the command's. -/
def programLoadDone (s : State) (layers : Nat) : State :=
  match s.swpSubmits with
  | [] => s
  | addr :: _ =>
    match memRead s 4 addr 16 with
    | (s1, none) => loadRefuse s1 512 0
    | (s1, some (_, true)) => loadRefuse s1 512 0
    | (s1, some (hb, false)) =>
      let h := wordsOf 4 hb
      let id := h.getD 1 0
      let start := (h.getD 2 0).toNat % 1024
      match memRead s1 4 (addr + 16) (16 * bitsOf (h.getD 0 0).toNat 10 0) with
      | (s2, some (bs, false)) =>
        let steps := stepsOfWords (wordsOf (4 * bitsOf (h.getD 0 0).toNat 10 0) bs)
        let flags := programFlags s2 layers start (headerBad (h.getD 0 0) (h.getD 2 0) (h.getD 3 0)) steps
        if flags = 0 then loadAccept s2 id start steps
        else countIf (loadRefuse s2 flags id) (bitsOf flags 2 2 == 1) 488
      | (s2, _) => loadRefuse s2 512 id

/-- PROGRAM_LOAD_DONE. -/
def execProgramLoadDone (layers : Fin 17) (s : State) : Host.Outcome State Fault Refusal :=
  .next (if fbit s fldSWP_STAT_LOADING then programLoadDone s layers.val else s)

end Machine
end Sys2Proof
end

