-- ==== Sys2Proof/Machine/Calibration.lean ====
section
/-! DEFINITION. Calibration: the record slots (R524, R525), what a record does when it is applied (R518, R526, R527), the
triggers (R522), runs (R516, R523), and the record window (R529 to R531). -/

namespace Sys2Proof
namespace Machine

/-! ### Kinds and slots -/

/-- The kinds that a block owns (R518, R522); OPC needs the write cell (R519). -/
def blockKinds (v : Variant) (b : Nat) : List Nat :=
  if b < 8 then (if headPresent v b then [1] ++ (if writePresent v then [2] else []) ++ [3, 4, 5, 7] else [])
  else if b = 10 then [6]
  else [1]

/-- Whether a block is there. -/
def blockPresent (v : Variant) (b : Nat) : Bool := decide (8 ≤ b) || headPresent v b

/-- The slot of a head's record, and of the others (R525). -/
def slotElec (v : Variant) (b c : Nat) : Nat :=
  if b < 8 then 532 * b + c else 532 * headCount v + (if b = 8 then 0 else 3) + c
def slotProd (b : Nat) : Nat := 532 * b + 3
def slotOpc (b layer area : Nat) : Nat := 532 * b + 4 + 33 * layer + area
def slotLoop (b layer c : Nat) : Nat := 532 * b + 30 + 33 * layer + c
def slotXt (b layer : Nat) : Nat := 532 * b + 33 + 33 * layer
def slotTilt (b layer part : Nat) : Nat := 532 * b + 34 + 33 * layer + part
def slotCouple (v : Variant) (side : Nat) : Nat := 532 * headCount v + 6 + side

/-- Word 0 [31:13] of a record: BLOCK, KIND, LAYER, AREA or part or side, CLASS (R524). -/
def keyWord (block kind layer sub cls : Nat) : Nat := ((((block * 16 + kind) * 16 + layer) * 32 + sub) * 4 + cls)

/-- Word 0 [31:13] that a slot's record has, and the block it belongs to; none past the last slot (R525). -/
def slotKeyWord (v : Variant) (i : Nat) : Option Nat :=
  let h := headCount v
  if i < 532 * h then
    let b := i / 532
    let o := i % 532
    if o < 3 then some (keyWord b 1 0 0 o)
    else if o = 3 then some (keyWord b 7 0 0 0)
    else
      let l := (o - 4) / 33
      let r := (o - 4) % 33
      if r < 26 then some (keyWord b 2 l r 2)
      else if r < 29 then some (keyWord b 3 l 0 (r - 26))
      else if r = 29 then some (keyWord b 4 l 0 1)
      else some (keyWord b 5 l (r - 30) 1)
  else if i < 532 * h + 3 then some (keyWord 8 1 0 0 (i - 532 * h))
  else if i < 532 * h + 6 then some (keyWord 9 1 0 0 (i - 532 * h - 3))
  else if i < calSlots v then some (keyWord 10 6 0 (i - 532 * h - 6) 1)
  else none

/-- The block of a slot. -/
def slotBlock (v : Variant) (i : Nat) : Nat :=
  if i < 532 * headCount v then i / 532
  else if i < 532 * headCount v + 3 then 8
  else if i < 532 * headCount v + 6 then 9
  else 10

/-- Change the calibration unit. -/
def modCal (s : State) (f : Calib → Calib) : State := { s with cal := f s.cal }

/-- The words of a slot: a slot that holds no record reads zero, with VALID = 0 (R529, R530). -/
def slotWords (s : State) (i : Nat) : List Word := (aget? s.cal.slots i).getD (List.replicate 16 0)

/-- The record of a slot, when it is VALID (R524). -/
def slotValid (s : State) (i : Nat) : Option (List Word) :=
  if ((slotWords s i).getD 0 0).getLsbD 12 then some (slotWords s i) else none

/-- The CRC-32 of words as they lie in memory. -/
def wordsCrc (l : List Word) : Nat := crc32 (l.flatMap (fun w => natLe 4 w.toNat))

/-- A record lands in a slot: CAL_GEN counts, and it waits to take effect (R526, R528, R532). -/
def slotPut (s : State) (i : Nat) (ws : List Word) : State :=
  let s1 := wr s regCAL_GEN (rd s regCAL_GEN + 1)
  modCal s1 (fun c => { c with slots := aset c.slots i ws, fresh := addOnce c.fresh i })

/-! ### Pending kinds -/

/-- Set the pending bit of a kind (R522, R533). -/
def calPend (s : State) (b kind : Nat) : State :=
  fputAt (fputAt s (fldCALB_STAT_PEND b) (kind - 1) true) fldCAL_PEND_BLOCK b true

/-- Set the pending bit of every kind that a block owns. -/
def calPendAll (s : State) (b : Nat) : State := forEach (blockKinds s.variant b) s (fun t k => calPend t b k)

/-- Clear the pending bit of a kind. -/
def calUnpend (s : State) (b kind : Nat) : State :=
  let s1 := fputAt s (fldCALB_STAT_PEND b) (kind - 1) false
  fputAt s1 fldCAL_PEND_BLOCK b (fget s1 (fldCALB_STAT_PEND b) != 0)

/-- The temperature in a 16-bit register, in 1/256 degree. -/
def tempInt (t : Nat) : Int := (BitVec.ofNat 16 t).toInt

/-- The temperature of a block departs from CALB_TEMP by more than THR, in 0.25 degrees; a THR of 0 disables (R522). -/
def calTrigger (s : State) (b : Nat) (t : BitVec 16) : State :=
  let thr := fget s (fldCALB_CFG_THR b)
  if thr ≠ 0 ∧ thr * 64 < (t.toInt - tempInt (fget s (fldCALB_TEMP_T b))).natAbs then calPendAll s b else s

/-- CAL_TEMP_TRIGGER. -/
def execCalTempTrigger (block : Fin 11) (temp : BitVec 16) (s : State) : Host.Outcome State Fault Refusal :=
  .next (if blockPresent s.variant block.val then calTrigger s block.val temp else s)

/-- CAL_REQUEST. -/
def execCalRequest (_agent : Agent) (block : Fin 11) (s : State) : Host.Outcome State Fault Refusal :=
  .next (reply (calPendAll s block.val) .ok 0 [])

/-! ### What a record does (R518, R527) -/

/-- Values of a record: word 4 + i. -/
def recVal (r : List Word) (i : Nat) : Word := r.getD (4 + i) 0

/-- Coefficients reach the live bank of an engine, in the gap before its next run. -/
def calCoefs (s : State) (k : Fin 10) (ws : List (Nat × Word)) : State :=
  if ¬ fbit s fldCAL_CTL_MAP_EN ∨ ¬ enginePresent s.variant k.val then s
  else
    let s1 := modSe s k (fun e => { e with heldCoefs := e.heldCoefs ++ ws })
    if s1.se[k].run.isSome then s1 else coefsHeld s1 k

/-- Words laid one after another from a coefficient address. -/
def coefsAt (addr : Nat) (ws : List Word) : List (Nat × Word) :=
  (List.range ws.length).map (fun i => ((addr + i) % 1024, ws.getD i 0))

/-- The nine values of a LOOP record; one that holds a plant and no loop is completed by the rule of R520, whose margin the
record does not carry, so K and the lead section are then free values. -/
def loopWords (s : State) (r : List Word) : List Word :=
  (List.range 9).map (fun i => if recVal r 0 = 0 ∧ i < 6 then Config.freeWord (s.freeCtr + i) else recVal r i)

/-- K_XT of a channel: a channel with an open packet takes it with the fields that wait for the packet (R96, R527). -/
def putKxt (s : State) (c : Fin 32) (v : Nat) : State :=
  let f := fldXT_CFG_K_XT c
  if s.ch[c].sync = .idle then fput s f v
  else
    let old := ((aget? s.ch[c].due f.addr).getD (rd s f.addr)).toNat
    pendShow (modCh s c (fun q => { q with due := aset q.due f.addr (BitVec.ofNat 32 (putBits old f.hi f.lo v)) })) c

/-- The bytes of a table set at an address take their words 40, 41 and 63; a set that did not read stays as it is. -/
def putTableAt (a : Nat) (w40 w41 : Word) : State × Option (List Byte × Bool) → State
  | (s, some (bs, false)) =>
    let body := bs.take 160 ++ natLe 4 w40.toNat ++ natLe 4 w41.toNat ++ (bs.drop 168).take 84
    memWriteD s 4 a (body ++ natLe 4 (crc32 body))
  | (s, _) => s

/-- Words 40 and 41 of a table set are written, with its CRC (R527). -/
def putTable (s : State) (n layer area : Nat) (w40 w41 : Word) : State :=
  let a := tableAddr s n (ptaMake 0 layer area 0 0)
  putTableAt a w40 w41 (memRead s 4 a 256)

/-- The OPC records of a layer set the table sets: those of the two test areas give their own and, by interpolation or
ratio, every zone's, whose power words the spec does not state to the bit: free values (R519). -/
def applyOpc (s : State) (n layer : Nat) : State :=
  if ¬ fbit s fldCAL_CTL_MAP_EN then s
  else
    let any := (slotValid s (slotOpc n layer 24)).isSome || (slotValid s (slotOpc n layer 25)).isSome
    forEach (List.range 26) s (fun t a =>
      match slotValid t (slotOpc n layer a) with
      | some r => putTable t n layer a (recVal r 0) (recVal r 1)
      | none =>
        if any ∧ a < 24 then
          putTable { t with freeCtr := t.freeCtr + 2 } n layer a (Config.freeWord t.freeCtr) (Config.freeWord (t.freeCtr + 1))
        else t)

/-- A record is applied, by its kind (R518). -/
def applyRecord (s : State) (b kind layer sub : Nat) (r : List Word) : State :=
  let k : Fin 10 := Fin.ofNat 10 b
  match kind with
  | 1 => modCal s (fun c => { c with trims := aset c.trims b ((r.drop 4).take 11) })
  | 3 => { calCoefs s k (coefsAt (fget s fldCAL_MAP_LOOP_ADDR) (loopWords s r)) with
      freeCtr := if recVal r 0 = 0 then s.freeCtr + 6 else s.freeCtr }
  | 4 =>
    let n : Fin 8 := Fin.ofNat 8 b
    let v := (recVal r 0).toNat / 2 ^ 16
    putKxt (putKxt s (headChan n 1) v) (headChan n 2) v
  | 5 => calCoefs s k (coefsAt (fget s fldCAL_MAP_TILT_ADDR + 33 * layer + 11 * sub) ((r.drop 4).take 11))
  | 6 => calCoefs s 9 (coefsAt (fget s fldCAL_MAP_COUPLE_ADDR + 6 * sub) ((r.drop 4).take 6))
  | 7 => fput s (fldWC_MPD_MPD_GAIN b) ((recVal r 0).toNat / 2 ^ 16)
  | _ => s

/-! ### The boundary (R526) -/

/-- The distance between two classes in the order idle, read, write. -/
def classGap (a b : Nat) : Nat := if a ≤ b then b - a else a - b

/-- The record for a class: its own when VALID, else the VALID one of the nearest class, a tie going to the lower class. -/
def pickClass (s : State) (slotOf : Nat → Nat) (want : Nat) : Option (Nat × List Word) :=
  let order := [0, 1, 2].filter (fun c => c == want) ++ [0, 1, 2].filter (fun c => classGap c want == 1) ++
    [0, 1, 2].filter (fun c => classGap c want == 2)
  order.findSome? (fun c => (slotValid s (slotOf c)).map (fun r => (c, r)))

/-- No VALID record in any class: the block keeps its values, NONE and the pending bit set. -/
def calNone (s : State) (b kind : Nat) : State := calPend (fset s fldCAL_STAT_NONE) b kind

/-- Apply the record of a kind that has one per class; an off-class one sets ENVELOPE, ENV_LIVE and the pending bit. -/
def applyClassed (s : State) (b kind layer : Nat) (slotOf : Nat → Nat) (want : Nat) : State :=
  match pickClass s slotOf want with
  | none => calNone s b kind
  | some (c, r) =>
    let s1 := applyRecord s b kind layer 0 r
    if c = want then s1
    else calPend (fset (fset (count s1 511) fldCAL_STAT_ENVELOPE) (fldCALB_STAT_ENV_LIVE b)) b kind

/-- Apply the record of a kind that has one class. -/
def applySingle (s : State) (b kind layer sub slot : Nat) : State :=
  match slotValid s slot with
  | none => calNone s b kind
  | some r => applyRecord s b kind layer sub r

/-- What the next sweep uses of a head: its class, its layer if it is known, the areas it writes, and whether it has a
portion.  The layer of a head without data steps is that of its last SCHED word. -/
structure CalUse where
  cls : Nat
  layer : Option Nat
  area : Option Nat
deriving DecidableEq, Repr

/-- The use that a program makes of a head (R526). -/
def headUse (s : State) (p : Option SwpProgram) (n : Fin 8) : CalUse :=
  let steps := match p with
    | some q => portionOf q.steps n.val
    | none => []
  let named := (steps.map (·.2)).filter (fun st => isData st || stepOp st == 3 || (isCal st && st.w1 != 0))
  let layer := match named.getLast? with
    | some st => some (ptaLayer st.w1.toNat)
    | none =>
      match ((steps.map (·.2)).filter (fun st => stepOp st == 2)).getLast? with
      | some st => some (stepLayer st)
      | none => s.hb[n].sched.map (fun w => bitsOf w.toNat 28 25)
  let mode := portionMode steps
  ⟨if mode = 2 then 2 else if mode = 0 then 0 else 1, layer, (((steps.map (·.2)).filter isWrite).head?).map (fun st => ptaArea st.w1.toNat)⟩

/-- Apply a head's records: ELEC and LOOP by class, TILT and PROD always, XT for a read sweep, OPC for a write sweep. -/
def applyHead (s : State) (n : Nat) (u : CalUse) : State :=
  let s1 := applyClassed s n 1 0 (fun c => slotElec s.variant n c) u.cls
  let s2 := applySingle s1 n 7 0 0 (slotProd n)
  match u.layer with
  | none => s2
  | some l =>
    let s3 := applyClassed s2 n 3 l (fun c => slotLoop n l c) u.cls
    let s4 := forEach [0, 1, 2] s3 (fun t part => applySingle t n 5 l part (slotTilt n l part))
    let s5 := if u.cls = 1 then applySingle s4 n 4 l 0 (slotXt n l) else s4
    if u.cls = 2 ∧ writePresent s.variant then
      let has := [u.area.getD 24, 24, 25].any (fun a => (slotValid s5 (slotOpc n l a)).isSome)
      if has then applyOpc s5 n l else calNone s5 n 2
    else s5

/-- The class of blocks 8 to 10: write when any portion writes, read when any reads, idle otherwise. -/
def commonClass (uses : List CalUse) : Nat :=
  if uses.any (fun u => u.cls == 2) then 2 else if uses.any (fun u => u.cls == 1) then 1 else 0

/-- A block takes its class, and its records are applied; ENV_LIVE shows whether one is off-class. -/
def applyBlock (s : State) (b cls : Nat) (f : State → State) : State :=
  if blockPresent s.variant b then f (fput (fclr s (fldCALB_STAT_ENV_LIVE b)) (fldCALB_STAT_CLASS b) cls) else s

/-- The records of SE9: one for each side of the disc that has heads. -/
def applyCouple (s : State) : State :=
  forEach (if sideBPresent s.variant then [0, 1] else [0]) s (fun t side => applySingle t 10 6 0 side (slotCouple t.variant side))

/-- The records that have taken effect are in the non-volatile store, where there is one (R529). -/
def calStore (s : State) (which : Nat → Bool) : State :=
  let nv := fbit s fldCAL_CAP_NV
  modCal s (fun c =>
    { c with
      stored := if nv then (c.fresh.filter which).foldl (fun l i => aset l i ((aget? c.slots i).getD [])) c.stored else c.stored
      fresh := c.fresh.filter (fun i => !(which i)) })

/-- Calibration at a boundary, for the sweep of a program that comes next: blocks that have never run become pending, then
each block's records are applied (R522, R526, R527). -/
def calBoundary (s : State) (p : Option SwpProgram) : State :=
  let s0 := forEach (List.range 11) s (fun t b =>
    if blockPresent t.variant b ∧ ¬ fbit t (fldCALB_COUNT_COUNT b) then calPendAll t b else t)
  let uses := (List.finRange 8).map (headUse s p)
  let s1 := forEach (List.finRange 8) s0 (fun t n =>
    let u := uses.getD n.val ⟨0, none, none⟩
    applyBlock t n.val u.cls (fun t => applyHead t n.val u))
  let c := commonClass uses
  let s2 := applyBlock s1 8 c (fun t => applyClassed t 8 1 0 (fun c => slotElec t.variant 8 c) c)
  let s3 := applyBlock s2 9 c (fun t => applyClassed t 9 1 0 (fun c => slotElec t.variant 9 c) c)
  calStore (applyBlock s3 10 c applyCouple) (fun _ => true)

/-- A block's records in its class in force, at its idle tick (R527). -/
def calIdle (s : State) (b : Fin 11) : State :=
  let cls := fget s (fldCALB_STAT_CLASS b)
  let s1 := applyBlock s b.val cls (fun t =>
    if h : b.val < 8 then applyHead t b.val ⟨cls, (headUse t none ⟨b.val, h⟩).layer, none⟩
    else if b.val = 10 then applyCouple t
    else applyClassed t b.val 1 0 (fun c => slotElec t.variant b.val c) cls)
  calStore s1 (fun i => slotBlock s.variant i == b.val)

/-- CAL_IDLE_APPLY: only while the sweep scheduler is IDLE and a new record waits. -/
def execCalIdleApply (block : Fin 11) (s : State) : Host.Outcome State Fault Refusal :=
  .next (if ¬ sweepRunning s ∧ s.cal.fresh.any (fun i => slotBlock s.variant i == block.val) then calIdle s block else s)

/-! ### Runs (R516, R523) -/

/-- CALREF is compared at the start of a run: outside 1.250 V by more than 2 % it is bad (R516). -/
def calRef (s : State) (mv : BitVec 16) : State :=
  fputB (fput s fldCAL_REF_MEAS_MV mv.toNat) fldCAL_STAT_CALREF_BAD (decide (mv.toNat < 12250) || decide (12750 < mv.toNat))

/-- CAL_AUTO_RUN: the unit serves a pending kind of the spindle or the supply block, with AUTO_EN at 1; the spindle's ELEC, which
has the current sense in it, only while the spindle is STOPPED (R521).  SE9's COUPLE is served by firmware (R523). -/
def execCalAutoRun (block : Fin 11) (refMV : BitVec 16) (s : State) : Host.Outcome State Fault Refusal :=
  .next (if fbit s fldCAL_CTL_AUTO_EN ∧ (block = 8 ∧ fget s fldSPN_STAT_STATE = 0 ∨ block = 9) ∧ fbit s (fldCALB_STAT_PEND block) then
      modCal (calRef s refMV) (fun c => { c with running := addOnce c.running block.val })
    else s)

/-- The first CAL_SLOT step of a kind that holds a head. -/
def calStepOf (s : State) (n : Fin 8) (kind : Nat) : Option OpenStep :=
  s.hb[n].openSteps.find? (fun o => isCal o.step && calKind o.step == kind)

/-- The CAL_SLOT step of a kind ends DONE. -/
def calStepDone (s : State) (n : Fin 8) (kind : Nat) : State :=
  match calStepOf s n kind with
  | none => s
  | some o =>
    let s1 := modHb s n (fun h => { h with openSteps := h.openSteps.filter (fun x => x.idx != o.idx) })
    stepEnd s1 o.ref 0xB n.val 0 o.idx o.step.w1 o.step.w3 0 0

/-- Why a run fails: REF, NOWRITE, LOOP, or what the run itself found; 0 when it succeeds (R516, R519, R520, R533). -/
def calCause (s : State) (b kind : Nat) (found : Nat) : Nat :=
  if fbit s fldCAL_STAT_CALREF_BAD then 1
  else if kind = 2 ∧ (!s.winFlags.2.1 || !(s.winFlags.2.2.contains b)) then 2
  else if kind = 3 ∧ fbit s (fldSE_GEN1_CFG_EN b) then 4
  else found

/-- A run fails: the bit stays, FAIL sets and CAUSE is recorded. -/
def calFailed (s : State) (b cause : Nat) : State :=
  fput (count (fset s fldCAL_STAT_FAIL) 510) (fldCALB_STAT_CAUSE b) cause

/-- A run succeeds: its record lands, its kind's bit clears, and COUNT, CALB_TIME and CALB_TEMP are kept (R523, R524). -/
def calSucceeded (s : State) (b kind layer sub cls slot : Nat) (values : List Word) (temp : BitVec 16) : State :=
  let w0 := BitVec.ofNat 32 (keyWord b kind layer sub cls * 2 ^ 13 + 2 ^ 12)
  let w1 := BitVec.ofNat 32 (temp.toNat * 2 ^ 16 + (rd s regCAL_GEN).toNat % 2 ^ 16)
  let body := [w0, w1, s.chipTime.setWidth 32, (s.chipTime >>> 32).setWidth 32] ++ (values ++ List.replicate 11 0).take 11
  let s1 := slotPut s slot (body ++ [BitVec.ofNat 32 (wordsCrc body)])
  let s2 := calUnpend (count (fset s1 fldCAL_STAT_RESULT) 509) b kind
  let s3 := wr s2 (regCALB_COUNT b) (rd s2 (regCALB_COUNT b) + 1)
  fput (putTime s3 (regCALB_TIME_LO b) (regCALB_TIME_HI b) s.chipTime) (fldCALB_TEMP_T b) temp.toNat

/-- A run ends with a result or a cause. -/
def calResult (s : State) (b kind layer sub cls slot : Nat) (values : List Word) (temp : BitVec 16) (found : Nat) : State :=
  let cause := calCause s b kind found
  if cause = 0 then calSucceeded s b kind layer sub cls slot values temp else calFailed s b cause

/-- The lowest index of the largest of some numbers. -/
def bestOf (l : List Nat) : Nat := l.findIdx (fun x => l.all (fun y => decide (y ≤ x)))

/-- The vertex of the parabola through a step's QUAL and those of its neighbours, less half the steps, as a ratio; none where the
step lacks a neighbour or the parabola is flat (R519). -/
def opcVertex (l : List Nat) : Option (Int × Int) :=
  let k := bestOf l
  let q (i : Nat) : Int := l.getD i 0
  let d := 2 * (2 * q k - q (k - 1) - q (k + 1))
  if k = 0 ∨ l.length ≤ k + 1 ∨ d = 0 then none
  else some (2 * d * k + 2 * (q (k + 1) - q (k - 1)) - d * (l.length - 1), 2 * d)

/-- A power at the vertex: P times 1 + v step, with the step in 0.5 % (R519). -/
def opcPower (p step : Nat) (v : Int × Int) : Nat :=
  (clampInt (roundDiv (p * (200 * v.2 + step * v.1)) (200 * v.2)) 0 0xFFFF).toNat

/-- The values of an OPC record from the QUALs of its N slots: P_W and P_M of the table set in force at the vertex, P_B and P_C as
they are; without a vertex P_W and P_M are free values (R519; DESIGN CHOICE, log 118). -/
def opcValues (s : State) (n : Fin 8) (o : OpenStep) (quals : List Word) : State × List Word :=
  let l := (List.range (bitsOf o.step.w2.toNat 31 24)).map (fun i => (quals.getD i 0).toNat)
  let w := s.wc[n]
  match opcVertex l with
  | some v =>
    let p (upper : Bool) : Nat := opcPower (tablePower w 40 upper) (bitsOf o.step.w2.toNat 23 16) v
    (s, [BitVec.ofNat 32 (p true * 2 ^ 16 + p false), w.table.getD 41 0])
  | none => (tickFree s, [Config.freeWord s.freeCtr, w.table.getD 41 0])

/-- A head's run ends: its CAL_SLOT step is DONE.  Area and layer come from the step and the SCHED word.  What the run measured is
the record's values, for OPC the QUAL of each slot. -/
def calHeadDone (s : State) (n : Fin 8) (kind sub cls : Nat) (values : List Word) (temp : BitVec 16) (found : Nat) : State :=
  match calStepOf s n kind with
  | none => s
  | some o =>
    let layer := if kind = 2 then ptaLayer o.step.w1.toNat else schedField s n 28 25
    let area := ptaArea o.step.w1.toNat
    let s1 := calStepDone s n kind
    let go (l sb c slot : Nat) : State := calResult s1 n.val kind l sb c slot values temp found
    match kind with
    | 1 => go 0 0 cls (slotElec s.variant n.val cls)
    | 2 =>
      let (s2, vs) := opcValues s1 n o values
      calResult s2 n.val kind layer area 2 (slotOpc n.val layer area) vs temp found
    | 3 => go layer 0 cls (slotLoop n.val layer cls)
    | 4 => go layer 0 1 (slotXt n.val layer)
    | 5 => go layer (sub % 3) 1 (slotTilt n.val layer (sub % 3))
    | _ => s1

/-- The heads of a side. -/
def sideHeads (v : Variant) (side : Nat) : List (Fin 8) := (List.finRange 8).filter (fun n => headPresent v n.val && n.val / 4 == side)

/-- COUPLE ends: on every present head of the side its step is DONE; without a step of equal WEDGE and LEN on each it fails
as incomplete (R518, R533). -/
def calCoupleDone (s : State) (side : Nat) (values : List Word) (temp : BitVec 16) (found : Nat) : State :=
  let heads := sideHeads s.variant side
  let steps := heads.filterMap (fun n => (calStepOf s n 6).map (·.step))
  if steps.isEmpty then s
  else
    let same : Bool := match steps with
      | [] => false
      | a :: t => t.all (fun st => calLen st == calLen a && stepWedge st == stepWedge a)
    let s1 := forEach heads s (fun t n => calStepDone t n 6)
    calResult s1 10 6 0 side 1 (slotCouple s.variant side) values temp (if steps.length = heads.length ∧ same then found else 5)

/-- CAL_RUN_DONE: the run's kind, part or side, class, measured values, temperature and failure. -/
def execCalRunDone (block : Fin 11) (kind : Fin 8) (sub cls : Fin 3) (values : List Word) (temp : BitVec 16) (found : Fin 6)
    (refMV : BitVec 16) (s : State) : Host.Outcome State Fault Refusal :=
  .next (
    if h : block.val < 8 then calHeadDone (calRef s refMV) ⟨block.val, h⟩ kind.val sub.val cls.val values temp found.val
    else if block.val = 10 then calCoupleDone (calRef s refMV) (sub.val % 2) values temp found.val
    else if s.cal.running.contains block.val then
      calResult (modCal s (fun c => { c with running := c.running.filter (· ≠ block.val) })) block.val 1 0 0 cls.val
        (slotElec s.variant block.val cls.val) values temp found.val
    else s)

/-! ### The record window (R530, R531) -/

/-- CAL_REC_CMD.READ: the slot is copied into CAL_REC0-15. -/
def calRead (s : State) : State :=
  let ws := slotWords s (fget s fldCAL_REC_SEL_INDEX)
  forEach (List.range 16) s (fun t i => wr t (regCAL_REC i) (ws.getD i 0))

/-- CAL_RECORD_READ. -/
def execCalRecordRead (_agent : Agent) (s : State) : Host.Outcome State Fault Refusal := .next (reply (calRead s) .ok 0 [])

/-- CAL_REC_CMD.WRITE: dropped with WR_DENIED while the scheduler is not IDLE; refused with KEY_BAD when the CRC fails, word
0 does not match the slot or names an absent unit; else stored (R528, R531). -/
def calWrite (s : State) : State :=
  let i := fget s fldCAL_REC_SEL_INDEX
  let ws := (List.range 16).map (fun j => rd s (regCAL_REC j))
  let key := (ws.getD 0 0).toNat / 2 ^ 13
  if sweepRunning s then fset s fldCAL_STAT_WR_DENIED
  else if wordsCrc (ws.take 15) ≠ (ws.getD 15 0).toNat ∨ slotKeyWord s.variant i ≠ some key ∨ (ws.getD 0 0).toNat % 2 ^ 12 ≠ 0 then
    count (fset s fldCAL_STAT_KEY_BAD) 512
  else slotPut s i ws

/-- CAL_RECORD_WRITE. -/
def execCalRecordWrite (_agent : Agent) (s : State) : Host.Outcome State Fault Refusal := .next (reply (calWrite s) .ok 0 [])

/-- CALREF_CHECK: the comparison of CALREF with the bandgap that falls due every 100 ms (R516). -/
def execCalrefCheck (refMV : BitVec 16) (s : State) : Host.Outcome State Fault Refusal := .next (calRef s refMV)

end Machine
end Sys2Proof
end

