-- ==== Sys2Proof/Machine/Reset.lean ====
section
/-! DEFINITION. What each reset clears and keeps (R492, R553, R554). -/

namespace Sys2Proof
namespace Machine

/-- The registers on the always-on island: the time base, the Square, RST_STAT onward, SUP_DORM to SUP_ALARM, the window words
that firmware wrote, and SMB_CFG (R492, R496, R509, R545, R566, R579, R585); and GPIO_IN, which always reads the pins (R576). -/
def islandReg (a : Nat) : Bool :=
  (decide (tbBase ≤ a) && decide (a < tbBase + 0x100)) || (decide (sqBase ≤ a) && decide (a < sqBase + 0x40)) ||
    (decide (rstBase + 4 ≤ a) && decide (a < rstBase + 0x100)) || (decide (supBase + 0x20 ≤ a) && decide (a < supBase + 0x30)) ||
    (decide (regKRB_SW 0 ≤ a) && decide (a < regKRB_SW 49)) || a == regSMB_CFG || a == regGPIO_IN

/-- The registers of the DRAM controller. -/
def dramReg (a : Nat) : Bool := decide (dramBase ≤ a) && decide (a < dramBase + 0x10000)

/-- What the pins keep but at power-on: the island's latched times and Kerb access, and the JTAG instruction (R553, R579, R582, R586). -/
def pinsKeep (p : Pins) : Pins :=
  { Pins.reset with
    kerbTime := p.kerbTime, smbTime := p.smbTime, strobe := p.strobe, ack := p.ack, kd := p.kd
    jtagIr := p.jtagIr, boundary := p.boundary }

/-- The state after a reset, before what each kind of reset adds.  The island's state is kept unless the reset is a power-on; the
DRAM controller is kept by a warm reset; the contents of staging memory by a warm reset and in Dormant; the non-volatile stores
always (R492, R553). -/
def resetKeep (s : State) (island dramKept staging : Bool) : State :=
  { State.reset with
    variant := s.variant
    keyFused := s.keyFused
    chipTime := s.chipTime
    pending := s.pending
    freeCtr := s.freeCtr
    regs := s.regs.filter (fun r => (island && islandReg r.1) || (dramKept && dramReg r.1))
    mem := if staging then s.mem.filter (fun c => 0x8000000000 ≤ c.1) else []
    poison := if staging then s.poison else []
    dramErr := if staging then s.dramErr else []
    chkErr := if staging then s.chkErr else []
    dram := if dramKept then s.dram else Vector.replicate 4 DramCh.reset
    xing := if dramKept then
        (State.reset.xing.set 38 s.xing[38]).set 39 s.xing[39] |>.set 40 s.xing[40] |>.set 41 s.xing[41]
      else State.reset.xing
    counters := if island then s.counters.filter (fun c => c.1 = 503 ∨ c.1 = 504) else []
    wraps := if island then s.wraps.filter (fun k => k = 503 ∨ k = 504) else []
    tbLatch := if island then s.tbLatch else []
    arv := { Archive.reset with verifier := s.arv.verifier, journal := s.arv.journal, sinceMirror := s.arv.sinceMirror }
    cal := { Calib.reset with stored := s.cal.stored }
    boot := { s.boot with stage := .rom, waiting := none, recover := false, wake := false, spi := none, attached := [] }
    sup := { Supply.reset with vin12 := s.sup.vin12, seq := s.sup.seq, fails := s.sup.fails }
    sq := ⟨[], 0, s.sq.pinLow⟩
    pins := if island then pinsKeep s.pins else Pins.reset }

/-- KEY_STAT shows whether a verifier is stored, and FAILS and LOCKOUT as the island keeps them (R469, R477). -/
def keyShow (s t : State) (island : Bool) : State :=
  let t1 := fputB t fldKEY_STAT_KEY_SET t.arv.verifier.isSome
  if island then fput (fput t1 fldKEY_STAT_FAILS (fget s fldKEY_STAT_FAILS)) fldKEY_STAT_LOCKOUT (fget s fldKEY_STAT_LOCKOUT) else t1

/-- SAFE after a reset: a LOCKSTEP cause holds but for a power-on, and any holds while the pin is low from outside (R547). -/
def safeKeep (s t : State) (island : Bool) : State :=
  let t1 := fputAt (fclr t fldSQ_CFG_WD_EN) fldFM_ISOLATE_ISOLATED 0 false
  let t2 := fput t1 fldFM_ISOLATE_ISOLATED 0
  let hold := (island && fbit s fldSQ_STAT_SAFE && fget s fldSQ_STAT_SAFE_CAUSE == 1) || s.sq.pinLow
  let cause := if island && fbit s fldSQ_STAT_SAFE then fget s fldSQ_STAT_SAFE_CAUSE else 4
  if hold then
    let t3 := fput (fset (fset t2 fldSQ_STAT_SAFE) fldSQ_STAT_PIN_LOW) fldSQ_STAT_SAFE_CAUSE cause
    parkAll (spnSafeN (inhibitShow t3) true) 2 true
  else fclr (fput (fclr t2 fldSQ_STAT_SAFE) fldSQ_STAT_SAFE_CAUSE 0) fldSQ_STAT_PIN_LOW

/-- The Crossings of a DRAM controller that a reset kept stay ARMED. -/
def dramArmedKeep (s t : State) : State :=
  forEach [38, 39, 40, 41] t (fun u x => xingShow u x (xingArmed s (Fin.ofNat 52 x)))

/-- Whether a stored record is good: its CRC holds and its word 0 is that of its slot (R529). -/
def calGood (v : Variant) (p : Nat × List Word) : Bool :=
  wordsCrc (p.2.take 15) == (p.2.getD 15 0).toNat && slotKeyWord v p.1 == some ((p.2.getD 0 0).toNat / 2 ^ 13)

/-- The slots are read from the non-volatile store, where there is one: a bad one reads VALID = 0, and CRC_BAD sets (R529). -/
def calReload (s : State) : State :=
  sif (s.cal.stored.any (fun p => !(calGood s.variant p)))
    { s with cal := { s.cal with slots := s.cal.stored.filter (calGood s.variant) } } (fun t => fset t fldCAL_STAT_CRC_BAD)

/-- A whole reset of the core: with power, the island too. -/
def chipReset (s : State) (power dramKept staging : Bool) : State :=
  let t := calReload (resetKeep s (!power) dramKept staging)
  let t1 := if dramKept then dramArmedKeep s t else t
  safeKeep s (keyShow s t1 (!power)) (!power)

/-- The core is held in reset: no core runs. -/
def coreHold (s : State) : State := fput s fldPLZ_STAT_RUNNING 0

/-- Core reset is released, unless RESET_N is low: P0 runs the boot ROM (R367, R556). -/
def coreRelease (s : State) : State := if s.boot.pinLow then coreHold s else fput s fldPLZ_STAT_RUNNING 1

/-- Every laser, actuator, sled and spindle gate output turns off: the disc coasts and the sleds lose their place. -/
def driversOff (s : State) : State :=
  let s2 := forEach (heads s) (inhibitShow s) (fun t n => sledOff t n false 0)
  if spnState s2 = 0 then s2 else spnEnter s2 0 .off

/-- Before a core or warm reset the SUPPLY inhibit acts, every driver turns off and the motor bus switch opens; the disc
coasts and the sleds lose their place (R554). -/
def quiesce (s : State) : State :=
  driversOff (fput (fclr (fclr s fldSUP_CTL_MBUS_EN) fldSUP_CTL_BOOST_EN) fldSUP_STAT_RAIL_GOOD (fget s fldSUP_STAT_RAIL_GOOD % 32))

/-- The cause that RST_STAT records. -/
def resetCause (s : State) (c : Nat) : State := fput s fldRST_STAT_CAUSE c

/-- A core reset with a cause; a warm one keeps the DRAM controller and staging memory, and may lead to recovery. -/
def coreReset (s : State) (cause : Nat) : State := coreRelease (resetCause (chipReset (quiesce s) false false false) cause)
def warmReset (s : State) (recover : Bool) : State :=
  let t := coreRelease (resetCause (chipReset (quiesce s) false true true) 5)
  { t with boot := { t.boot with recover := recover } }

end Machine
end Sys2Proof
end

