-- ==== Sys2Proof/Machine/Power.lean ====
section
/-! DEFINITION. The supply block: supply faults, the power sequencer, the motor bus, the boost, Dormant (R478 to R496); and the
commands that reset the controller (R553 to R555). -/

namespace Sys2Proof
namespace Machine

def modSup (s : State) (f : Supply → Supply) : State := { s with sup := f s.sup }

/-! ### Supply faults (R480) -/

/-- Whether a supply fault is live. -/
def supplyCause (s : State) : Bool :=
  !s.sup.live.isEmpty || fbit s fldSUP_STAT_CHOP_FAULT || fbit s fldSUP_STAT_BUS_LATCH || fbit s fldSUP_STAT_BOOST_FAULT

/-- SUPPLY_FAULT, the inhibit and the park requests as the causes stand. -/
def supplyShow (s : State) : State :=
  let was := fbit s fldSUP_STAT_SUPPLY_FAULT
  let on := supplyCause s
  let s1 := inhibitShow (fputB s fldSUP_STAT_SUPPLY_FAULT on)
  if was && !on then parkAll s1 1 false else s1

/-- A supply fault: it is counted and reported, the sticky bit sets, and every sled parks. -/
def supplyFault (s : State) (sticky : Option Fld) : State :=
  let s1 := match sticky with | some f => fset s f | none => s
  let s2 := supplyShow (count s1 500)
  let s3 := parkAll s2 1 true
  raiseReport s3 0x0D 2 5 1 0x3F 0 (bitsOf (rd s3 regSUP_STAT).toNat 31 20)

/-- A cause that no register latches comes to live, or goes. -/
def causeOn (s : State) (k : Nat) : State := modSup s (fun q => { q with live := addOnce q.live k })
def causeOff (s : State) (k : Nat) : State := supplyShow (modSup s (fun q => { q with live := q.live.filter (fun x => x != k) }))

def railShow (s : State) (k : Nat) (good : Bool) : State := fputAt s fldSUP_STAT_RAIL_GOOD k good

/-- RAIL_WINDOW_EXIT: a rail that is up leaves its window. -/
def execRailWindowExit (rail : Fin 5) (s : State) : Host.Outcome State Fault Refusal :=
  .next (if fbitAt s fldSUP_STAT_RAIL_GOOD rail.val then
      supplyFault (causeOn (railShow s rail.val false) rail.val) (some fldSUP_STAT_RAIL_FAULT)
    else s)

/-- RAIL_WINDOW_RETURN: a rail, VLAS (5) or VMOT (6) is within its limits again. -/
def execRailWindowReturn (rail : Fin 7) (s : State) : Host.Outcome State Fault Refusal :=
  .next (if s.sup.live.contains rail.val then causeOff (railShow s rail.val true) rail.val else s)

/-- BUS_UNDERVOLTAGE, where the bus is not low already. -/
def execBusUndervoltage (s : State) : Host.Outcome State Fault Refusal :=
  .next (if fbit s fldSUP_CTL_MBUS_EN && !(s.sup.live.contains 6) then supplyFault (causeOn (railShow s 6 false) 6) (some fldSUP_STAT_BUS_UV) else s)

/-- SUPPLY_GRACE_EXPIRE: a fault still live enters SAFE (R539). -/
def execSupplyGraceExpire (s : State) : Host.Outcome State Fault Refusal :=
  .next (if fbit s fldSUP_STAT_SUPPLY_FAULT then safeEnter s 6 else s)

/-! ### The power sequencer (R482, R483) -/

/-- The sequencer enables step 2, or waits for VIN12. -/
def seqStart (s : State) : State := modSup s (fun q => { q with seq := if q.vin12 then .up 2 else .noVin })

/-- VAON_RISE: a power-on reset; the time base starts at 0. -/
def execVaonRise (s : State) : Host.Outcome State Fault Refusal :=
  .next (
    let t := { chipReset s true false false with chipTime := 0 }
    coreHold (fput (seqStart (modSup t (fun q => { q with fails := 0 }))) fldSUP_STAT_RAIL_GOOD 0))

/-- The rails of a step: V1P8; VDD2H and VDD2L; VDDQ; VCORE. -/
def stepRails (k : Nat) : List Nat := if k = 2 then [1] else if k = 3 then [2, 3] else if k = 4 then [4] else if k = 5 then [0] else []

/-- RAIL_GOOD: the rails of the step are good; after VCORE core reset is released. -/
def execRailGood (s : State) : Host.Outcome State Fault Refusal :=
  .next (match s.sup.seq with
    | .up k =>
      let s1 := forEach (stepRails k) s (fun t r => railShow t r true)
      if k < 5 then modSup s1 (fun q => { q with seq := .up (k + 1) })
      else coreRelease (modSup s1 (fun q => { q with seq := .done }))
    | _ => s)

/-- RAIL_ENABLE_TIMEOUT: every rail turns off; after three failures for good. -/
def execRailEnableTimeout (s : State) : Host.Outcome State Fault Refusal :=
  .next (match s.sup.seq with
    | .up _ =>
      modSup (fput s fldSUP_STAT_RAIL_GOOD 0) (fun q => { q with fails := q.fails + 1, seq := if q.fails + 1 = 3 then .failed else .retry })
    | _ => s)

/-- SEQUENCER_RETRY. -/
def execSequencerRetry (s : State) : Host.Outcome State Fault Refusal :=
  .next (match s.sup.seq with | .retry => seqStart s | _ => s)

/-- VIN12_GOOD. -/
def execVin12Good (s : State) : Host.Outcome State Fault Refusal :=
  .next (
    let s1 := modSup s (fun q => { q with vin12 := true })
    match s.sup.seq with
    | .noVin => seqStart s1
    | _ => s1)

/-- The rails begin to turn off, VCORE first; in Dormant it is off already. -/
def railsDown (s : State) (por : Bool) : State :=
  let first := if s.sup.dormant then 4 else 0
  modSup (if s.sup.dormant then s else supplyFault s none) (fun q => { q with seq := .down first por })

/-- VIN12_LOSS: as for a supply fault, then the rails turn off in order. -/
def execVin12Loss (s : State) : Host.Outcome State Fault Refusal :=
  .next (
    let s1 := modSup s (fun q => { q with vin12 := false })
    match s.sup.seq with
    | .done => railsDown (if s.sup.dormant then s1 else causeOn s1 6) false
    | .up _ => modSup (fput s1 fldSUP_STAT_RAIL_GOOD 0) (fun q => { q with seq := .noVin })
    | .retry => modSup s1 (fun q => { q with seq := .noVin })
    | _ => s1)

/-- RAIL_FALL: a rail has fallen below 10 % of its set point; with VCORE the core's state is lost, with the last rail the
sequencer starts again, as VIN12 lets it. -/
def railFall (s : State) : State :=
  match s.sup.seq with
  | .down 0 por => modSup (coreHold (fput (chipReset s por false false) fldSUP_STAT_RAIL_GOOD 0x1E)) (fun q => { q with seq := .down 4 por })
  | .down 4 por => modSup (railShow s 4 false) (fun q => { q with seq := .down 3 por })
  | .down 3 por => modSup (railShow (railShow s 3 false) 2 false) (fun q => { q with seq := .down 1 por })
  | .down _ por =>
    let s1 := chipReset (seqStart (railShow s 1 false)) por false false
    coreHold (fput (resetCause s1 (if por then 2 else 1)) fldSUP_STAT_RAIL_GOOD 0)
  | _ => s

def execRailFall (s : State) : Host.Outcome State Fault Refusal := .next (railFall s)

/-! ### The governor's register (R485) -/

/-- VSET while GOV_EN is 0. -/
def vmanShow (s : State) : State :=
  if fbit s fldSUP_CTL_GOV_EN then s else putVset s (clampNat (fget s fldSUP_GOV_VMAN) 620 850)

/-- GOV_ENABLE_WRITE. -/
def govEnable (s : State) (en : Bool) : State :=
  vmanShow (modSup (fputB s fldSUP_CTL_GOV_EN en) (fun q => if en then q else { q with room := 0 }))

def execGovEnableWrite (_agent : Agent) (en : Bool) (s : State) : Host.Outcome State Fault Refusal :=
  .next (reply (govEnable s en) .ok 0 [])

/-! ### Motor bus and chopper (R486, R488) -/

/-- CHOP_ENGAGE. -/
def execChopEngage (s : State) : Host.Outcome State Fault Refusal :=
  .next (if fbit s fldSUP_STAT_CHOP_ACT then s else count (fset (fset s fldSUP_STAT_CHOP_ACT) fldSUP_STAT_CHOPPED) 499)

/-- CHOP_RELEASE. -/
def execChopRelease (s : State) : Host.Outcome State Fault Refusal := .next (fclr s fldSUP_STAT_CHOP_ACT)

/-- CHOP_FAULT: VMOT has reached 15.6 V. -/
def execChopFault (s : State) : Host.Outcome State Fault Refusal :=
  .next (if fbit s fldSUP_STAT_CHOP_FAULT then s
    else spnChopFault (supplyFault (fset s fldSUP_STAT_CHOP_FAULT) (some fldSUP_STAT_CHOP_FLT_EVT)) true)

/-- BUS_LATCH: VMOT has reached 16.5 V. -/
def execBusLatch (s : State) : Host.Outcome State Fault Refusal :=
  .next (if fbit s fldSUP_STAT_BUS_LATCH then s
    else
      let s1 := railShow (fclr (fset s fldSUP_STAT_BUS_LATCH) fldSUP_CTL_MBUS_EN) 6 false
      let s2 := spnLatchOff (supplyFault s1 (some fldSUP_STAT_LATCH_EVT)) 5
      forEach (heads s) s2 (fun t n => sledCut t n false))

/-- Whether VMOT is below CHOP_OFF. -/
def busLow (s : State) (vmot : Nat) : Bool := decide (vmot < fget s fldSUP_BUS_CHOP_OFF)

/-- CHOP_CLR, at a VMOT in mV. -/
def chopClr (s : State) (vmot : Nat) : State :=
  let s0 := fput s fldSUP_MEAS_VMOT vmot
  if busLow s vmot then
    if fbit s fldSUP_STAT_CHOP_FAULT then spnChopFault (supplyShow (fclr s0 fldSUP_STAT_CHOP_FAULT)) false else s0
  else fset s0 fldSUP_STAT_CLR_DENIED

def execChopClr (_agent : Agent) (vmot : BitVec 16) (s : State) : Host.Outcome State Fault Refusal :=
  .next (reply (chopClr s vmot.toNat) .ok 0 [])

/-- LATCH_CLR, at a VMOT in mV. -/
def latchClr (s : State) (vmot : Nat) : State :=
  let s0 := fput s fldSUP_MEAS_VMOT vmot
  if busLow s vmot then supplyShow (fclr s0 fldSUP_STAT_BUS_LATCH) else fset s0 fldSUP_STAT_CLR_DENIED

def execLatchClr (_agent : Agent) (vmot : BitVec 16) (s : State) : Host.Outcome State Fault Refusal :=
  .next (reply (latchClr s vmot.toNat) .ok 0 [])

/-- MBUS_EN: the input switch closes unless the bus is latched, or opens. -/
def mbusEnable (s : State) (en : Bool) : State :=
  let s1 := railShow (fputB s fldSUP_CTL_MBUS_EN en) 6 (en && !(fbit s fldSUP_STAT_BUS_LATCH))
  if en then s1 else causeOff s1 6

/-- MBUS_ENABLE_WRITE. -/
def execMbusEnableWrite (_agent : Agent) (en : Bool) (s : State) : Host.Outcome State Fault Refusal :=
  .next (reply (mbusEnable s en) .ok 0 [])

/-! ### Laser boost (R489) -/

/-- BOOST_EN: from 0 to 1 the soft start runs, unless the boost is latched; 0 stops VLAS. -/
def boostEnable (s : State) (en : Bool) : State :=
  let was := fbit s fldSUP_CTL_BOOST_EN
  let s1 := fputB s fldSUP_CTL_BOOST_EN en
  if en && !was then inhibitShow (modSup s1 (fun q => { q with soft := !(fbit s fldSUP_STAT_BOOST_FAULT) }))
  else if !en then causeOff (modSup (railShow s1 5 false) (fun q => { q with soft := false })) 5
  else s1

/-- BOOST_ENABLE_WRITE. -/
def execBoostEnableWrite (_agent : Agent) (en : Bool) (s : State) : Host.Outcome State Fault Refusal :=
  .next (reply (boostEnable s en) .ok 0 [])

/-- BOOST_SOFT_START_DONE. -/
def execBoostSoftStartDone (s : State) : Host.Outcome State Fault Refusal :=
  .next (if s.sup.soft then inhibitShow (railShow (modSup s (fun q => { q with soft := false })) 5 true) else s)

/-- Whether VLAS is up: after the soft start, not latched. -/
def boostUp (s : State) : Bool := fbit s fldSUP_CTL_BOOST_EN && !s.sup.soft && !(fbit s fldSUP_STAT_BOOST_FAULT)

/-- VLAS_UNDERVOLTAGE, where VLAS is not low already. -/
def execVlasUndervoltage (s : State) : Host.Outcome State Fault Refusal :=
  .next (if boostUp s && !(s.sup.live.contains 5) then supplyFault (causeOn (railShow s 5 false) 5) (some fldSUP_STAT_RAIL_FAULT) else s)

/-- BOOST_FAULT: the boost latches off. -/
def execBoostFault (s : State) : Host.Outcome State Fault Refusal :=
  .next (if boostUp s then
      supplyFault (modSup (railShow (fset s fldSUP_STAT_BOOST_FAULT) 5 false) (fun q => { q with live := q.live.filter (fun k => k != 5) }))
        (some fldSUP_STAT_BOOST_EVT)
    else s)

/-- BOOST_CLR. -/
def boostClr (s : State) : State :=
  if fbit s fldSUP_CTL_BOOST_EN then
    if fbit s fldSUP_STAT_BOOST_FAULT then supplyShow (modSup (fclr s fldSUP_STAT_BOOST_FAULT) (fun q => { q with soft := true })) else s
  else fset s fldSUP_STAT_CLR_DENIED

def execBoostClr (_agent : Agent) (s : State) : Host.Outcome State Fault Refusal := .next (reply (boostClr s) .ok 0 [])

/-! ### Dormant (R490 to R494) -/

/-- The conditions that a request fails, as DENY records them. -/
def dormDeny (s : State) (agent : Agent) : Nat :=
  let alone := match agent with
    | .core c => fget s fldPLZ_STAT_RUNNING == 2 ^ c.val
    | _ => false
  let bit (b : Bool) (k : Nat) : Nat := if b then 2 ^ k else 0
  bit (spnState s != 0) 0 + bit ((heads s).any (fun n => sledState s n != 7)) 1 + bit (fget s fldSWP_STAT_STATE != 0) 2 +
    bit (fget s fldDRAM_STAT_STATE != 2) 3 + bit (fbit s fldSUP_STAT_SUPPLY_FAULT) 4 + bit (!alone) 5

/-- Steps 1 to 4 of the entry: the island latches what it needs, the stages and the boost turn off, staging memory enters
self-refresh, the links rest. -/
def dormPrepare (s : State) : State :=
  let s1 := modSup s (fun q =>
    { q with
      wakeEn := fget s fldSUP_DORM_WAKE_EN
      gpioMask := fget s fldSUP_DORM_GPIO_MASK
      alarm := rd s regSUP_ALARM_HI ++ rd s regSUP_ALARM_LO })
  let s2 := selfRefreshRequest (mbusEnable (boostEnable s1 false) false)
  forEach [0, 1] s2 (fun t p => if linkState t p = 2 then putLink t p 3 (if p = 0 then fget t fldHOST_LINK0_GEN else fget t fldHOST_LINK1_GEN) 2 else t)

/-- The commit: the core is held in reset and VCORE is off; the GPIO lines stay as they are (R491, R572). -/
def dormCommit (s : State) : State :=
  let t := chipReset s false false true
  let t1 := modSup t (fun q => { q with dormant := true, wakeEn := s.sup.wakeEn, gpioMask := s.sup.gpioMask, alarm := s.sup.alarm })
  let t2 := { t1 with pins := { t1.pins with gpioHeld := some (gpioLevels s, gpioDriven s) } }
  let t3 := { fput t2 fldDRAM_STAT_STATE 4 with dram := s.dram }
  count (coreHold (railShow t3 0 false)) 503

/-- DORMANT_ENTER, with the wake sources that fire before the commit. -/
def dormEnter (s : State) (agent : Agent) (wake : Nat) : State :=
  if dormDeny s agent ≠ 0 then fput (fset s fldSUP_STAT_DORM_DENIED) fldSUP_DORM_STAT_DENY (dormDeny s agent)
  else
    let s1 := dormPrepare s
    if wake &&& s1.sup.wakeEn ≠ 0 then fset (selfRefreshExit s1) fldSUP_STAT_DORM_ABORT
    else dormCommit s1

def execDormantEnter (agent : Agent) (wake : BitVec 5) (s : State) : Host.Outcome State Fault Refusal :=
  .next (reply (dormEnter s agent wake.toNat) .ok 0 [])

/-- A wake: the core reset is released, staging memory leaves self-refresh, and OSTS.RDY is held back (R494). -/
def wakeUp (s : State) (src : Nat) : State :=
  let s1 := { s with pins := { s.pins with gpioHeld := none }, boot := { s.boot with wake := true }, host := { s.host with rdyHold := true } }
  let s2 := modSup s1 (fun q => { q with dormant := false, late := false })
  let s3 := fput (fset (count (railShow s2 0 true) 504) fldSUP_STAT_WOKE) fldSUP_DORM_STAT_WAKE_SRC src
  let s4 := selfRefreshExit s3
  let s5 := forEach (List.finRange 4) (fput s4 fldDRAM_TOP_SIZE_MIB (usableMiB s4)) dramXingArm
  coreRelease (resetCause s5 6)

/-- Wake sources fire (port 1 has none where it is absent): an enabled one ends Dormant; those that come before RDY is let go are
recorded too. -/
def wakeEvent (s : State) (sources : Nat) : State :=
  let there := if portPresent s.variant 1 then sources else sources &&& 29
  let on := if s.sup.dormant then there &&& s.sup.wakeEn else there &&& fget s fldSUP_DORM_WAKE_EN
  if on = 0 then s
  else if s.sup.dormant then wakeUp s on
  else if s.host.rdyHold then fput s fldSUP_DORM_STAT_WAKE_SRC (fget s fldSUP_DORM_STAT_WAKE_SRC ||| on)
  else s

/-- WAKE_EVENT. -/
def execWakeEvent (sources : BitVec 5) (s : State) : Host.Outcome State Fault Refusal := .next (wakeEvent s sources.toNat)

/-- SUP_ALARM_REACHED. -/
def execSupAlarmReached (s : State) : Host.Outcome State Fault Refusal := .next (wakeEvent s 16)

/-- WAKE_RDY_RELEASE: the island lets OSTS.RDY follow; READY that comes later will be late. -/
def execWakeRdyRelease (s : State) : Host.Outcome State Fault Refusal :=
  .next (if s.host.rdyHold then
      modSup (showReady { s with host := { s.host with rdyHold := false } }) (fun q => { q with late := !(fbit s fldHOST_CTL_READY) })
    else s)

/-! ### Resets (R553 to R555) -/

/-- The reset that a write of RST_CTL asks for: the strongest of those named, with CODE 0xA5 only (1 warm, 2 core, 3 requested
power-on). -/
def rstAsked (v : Nat) : Nat :=
  if bitsOf v 31 24 ≠ 0xA5 then 0
  else if bitsOf v 2 2 = 1 then 3
  else if bitsOf v 1 1 = 1 then 2
  else if bitsOf v 0 0 = 1 then 1
  else 0

/-- A requested power-on reset: the sequencer acts as on a supply fault, whose cause (7) goes with VCORE, and the rails go off and on again; FAILS, LOCKOUT and a LOCKSTEP SAFE clear with VCORE (R483,
R553). -/
def porRequest (s : State) : State :=
  if s.sup.seq = .done then railsDown (if s.sup.dormant then s else causeOn s 7) true else s

/-- A reset that is written runs, or waits for RESET_N; of two that wait the stronger stays. -/
def rstWrite (s : State) (kind : Nat) (recover : Bool) : State :=
  if kind = 0 then s
  else if s.boot.pinLow then { s with boot := { s.boot with waiting := some (Nat.max kind (s.boot.waiting.getD 0)), recover := recover } }
  else if kind = 3 then porRequest s
  else if kind = 2 then coreReset s 4
  else if kind = 1 then warmReset s recover
  else s

/-- A write of RST_CTL that asks for the given kind of reset. -/
def rstCtl (s : State) (v kind : Nat) : State :=
  reply (if rstAsked v = kind then rstWrite s kind (bitsOf v 3 3 == 1) else s) .ok 0 []

/-- WARM_RESET. -/
def execWarmReset (_agent : Agent) (value : BitVec 32) (s : State) : Host.Outcome State Fault Refusal := .next (rstCtl s value.toNat 1)

/-- CORE_RESET. -/
def execCoreReset (_agent : Agent) (value : BitVec 32) (s : State) : Host.Outcome State Fault Refusal := .next (rstCtl s value.toNat 2)

/-- POR_REQUEST. -/
def execPorRequest (_agent : Agent) (value : BitVec 32) (s : State) : Host.Outcome State Fault Refusal := .next (rstCtl s value.toNat 3)

/-- RESET_PIN: low for 1 us quiets the drivers and holds the core in reset; on release a core reset runs, or a stronger one
that was written meanwhile (R553, R555). -/
def resetPin (s : State) (low : Bool) : State :=
  if low then
    if s.boot.pinLow then s
    else
      let s1 := quiesce s
      coreHold { s1 with boot := { s1.boot with pinLow := true, waiting := none } }
  else if s.boot.pinLow then
    let s1 := { s with boot := { s.boot with pinLow := false } }
    if s.boot.waiting = some 3 then porRequest s1
    else if s.sup.seq = .done ∧ ¬ s.sup.dormant then coreReset s1 3
    else s1
  else s

def execResetPin (low : Bool) (s : State) : Host.Outcome State Fault Refusal := .next (resetPin s low)

end Machine
end Sys2Proof
end

