-- ==== Sys2Proof/Machine/Boot.lean ====
section
/-! DEFINITION. The boot ROM, recovery, the USB 2.0 management endpoints and the flash controller (R424, R556 to R560,
R575). -/

namespace Sys2Proof
namespace Machine

def modBoot (s : State) (f : Boot → Boot) : State := { s with boot := f s.boot }

/-! ### The flash -/

/-- Bytes of the flash; an erased byte reads 0xFF. -/
def flashBytes (s : State) (a n : Nat) : List Byte := (Memory.readBytes s.boot.flash a n).map (fun b => ~~~b)

/-- Erase the 4 KiB sectors that hold a range, by JEDEC 0x20. -/
def flashErase (s : State) (a n : Nat) : State :=
  let lo := a / 4096 * 4096
  let hi := (a + n + 4095) / 4096 * 4096
  modBoot s (fun b => { b with flash := b.flash.filter (fun c => c.1 < lo ∨ hi ≤ c.1) })

/-- Program bytes, by JEDEC 0x02: a bit goes from 1 to 0 and never back. -/
def flashProgram (s : State) (a : Nat) (bs : List Byte) : State :=
  let old := Memory.readBytes s.boot.flash a bs.length
  modBoot s (fun b => { b with flash := Memory.writeBytes b.flash a ((old.zip bs).map (fun p => p.1 ||| ~~~p.2)) })

/-! ### The boot ROM (R556 to R559) -/

/-- A header field, least significant byte first; the order is DESIGN CHOICE, log 21. -/
def hdrNum (h : List Byte) (off n : Nat) : Nat := leNat ((h.drop off).take n)

/-- An image: its body, entry and slot. -/
structure Image where
  body : List Byte
  entry : Nat
  slot : Nat
deriving DecidableEq, Repr

/-- Check a slot's header, key and signature; the boot error code where it fails (R557, R558). -/
def slotCheck (s : State) (slot : Nat) : Except Nat Image :=
  let base := 0x80000 * slot
  let h := flashBytes s base 256
  let len := hdrNum h 8 4
  let fits (off : Nat) : Bool := decide (off < len) && off % 4 == 0
  if hdrNum h 0 4 ≠ 0x4F52424F ∨ hdrNum h 4 4 ≠ 1 then .error 2
  else if 393216 < len ∨ len % 8 ≠ 0 ∨ !(fits (hdrNum h 12 4)) ∨ !(fits (hdrNum h 16 4)) then .error 3
  else if s.keyFused ∧ sha256 ((h.drop 32).take 64) ≠ s.boot.otp then .error 4
  else
    let body := flashBytes s (base + 256) len
    let key := (beNat ((h.drop 32).take 32), beNat ((h.drop 64).take 32))
    if ecdsaVerify key (beNat ((h.drop 96).take 32)) (beNat ((h.drop 128).take 32)) (sha256 (h.take 96 ++ body)) then
      .ok ⟨body, hdrNum h 12 4, slot⟩
    else .error 5

/-- A boot error is recorded. -/
def bootErr (s : State) (e : Nat) : State := fput s fldRST_STAT_BOOT_ERR e

/-- P0 at an address with x10 = RST_STAT and x11 = 0; what the ROM leaves in the other registers is not stated: free
values (R557). -/
def bootJump (s : State) (pc : Nat) : State :=
  let xs : Vector DWord 32 := Vector.ofFn (fun i =>
    if i.val = 0 then 0
    else if i.val = 10 then (rd s regRST_STAT).setWidth 64
    else if i.val = 11 then 0
    else Config.freeWord (s.freeCtr + 2 * i.val) ++ Config.freeWord (s.freeCtr + 2 * i.val + 1))
  let s1 := tickFrees s 64
  { modBoot s1 (fun b => { b with stage := .firmware, wake := false }) with
    core := s1.core.set 0 { Core.reset with x := xs, pc := BitVec.ofNat 64 pc } }

/-- TCM bank 3 is the ROM's work area until the jump: what it leaves there is not stated (R557). -/
def romWork (s : State) : State := tickFrees (memWriteD s 0 0x1060000 (freeBytes s 0x20000)) 0x20000

/-- An image has passed: its body is in TCM and the SPI permit is free again. -/
def bootImage (s : State) (i : Image) : State :=
  let s1 := fput (fput (memWriteD (romWork s) 0 0x1000000 i.body) (fldPERMIT_OWNER 20) 0) fldRST_STAT_BOOT_SLOT i.slot
  bootJump s1 (0x1000000 + i.entry)

/-- The port's UPn starts with an attached endpoint, and stops when nothing needs it (R424, R502). -/
def attach (s : State) (p : Nat) (on : Bool) : State :=
  if on then modBoot s (fun b => { b with attached := addOnce b.attached p })
  else upSettle (modBoot s (fun b => { b with attached := b.attached.filter (fun q => q != p) })) p

/-- Recovery: the ROM keeps the SPI permit and attaches every present endpoint (R560). -/
def recoveryEnter (s : State) : State :=
  let s1 := fput (romWork (modBoot s (fun b => { b with stage := .recovery, recover := false, wake := false }))) fldRST_STAT_BOOT_SLOT 2
  forEach ([0, 1].filter (portPresent s.variant)) s1 (fun t p => attach t p true)

/-- Slot 0, then slot 1, then recovery (R557). -/
def bootFlash (s : State) (ident : List Byte) : State :=
  let dead := ident.all (fun b => b == 0) || ident.all (fun b => b == 0xFF)
  let first : Except Nat Image := if dead then .error 1 else slotCheck s 0
  match first with
  | .ok i => bootImage s i
  | .error e =>
    match slotCheck s 1 with
    | .ok i => bootImage (bootErr s e) i
    | .error e2 => recoveryEnter (bootErr s e2)

/-- The bytes read, where their digest is right. -/
def resumeTake (digest : List Byte) : State × Option (List Byte × Bool) → State × Option (List Byte)
  | (t, some (bs, false)) => (t, if sha256 bs = digest then some bs else none)
  | (t, _) => (t, none)

/-- The resume image of a wake: its bytes where its digest is right (R559). -/
def resumeImage (s : State) : State × Option (List Byte) :=
  let a := (rd s regRST_RESUME_HI).toNat % 256 * 2 ^ 32 + (rd s regRST_RESUME_LO).toNat / 64 * 64
  let digest := (List.range 8).flatMap (fun i => natLe 4 (rd s (regRST_RESUME_DIG i)).toNat)
  resumeTake digest (memRead s 0 a (fget s fldRST_RESUME_LEN_LEN))

/-- A wake goes on with its resume image, or boots from flash with WAKE_LATE and error 6 (R494, R559). -/
def resumeBoot (entry : Nat) (ident : List Byte) : State × Option (List Byte) → State
  | (t, some bs) =>
    bootJump (fput (memWriteD (romWork (fput t (fldPERMIT_OWNER 20) 0)) 0 0x1000000 bs) fldRST_STAT_BOOT_SLOT 3) (0x1000000 + entry)
  | (t, none) => bootFlash (fset (bootErr t 6) fldSUP_STAT_WAKE_LATE) ident

/-- BOOT: the ROM claims the SPI permit and boots, resumes, or enters recovery. -/
def boot (s : State) (ident : List Byte) : State :=
  if inReset s ∨ s.boot.stage ≠ .rom then s
  else
    let s0 := permitClaim s 1 20 0x10
    if s.boot.recover then recoveryEnter s0
    else if s.boot.wake ∧ fget s fldRST_RESUME_LEN_LEN ≠ 0 then
      resumeBoot (fget s fldRST_RESUME_LEN_RESUME) ident (resumeImage s0)
    else bootFlash s0 ident

def execBoot (ident : List (BitVec 8)) (s : State) : Host.Outcome State Fault Refusal := .next (boot s ident)

/-! ### Recovery and management requests (R424, R560) -/

/-- A response: a status code, a value, and the bytes that follow. -/
def respond (s : State) (status value : Nat) (bs : List Byte) : State := reply s .ok status (natLe 4 status ++ natLe 4 value ++ bs)

/-- Whether a port's endpoint is attached and the ROM serves it in recovery, or it answers by itself in normal running. -/
def recoveryOn (s : State) (p : Nat) : Bool := s.boot.stage == .recovery && s.boot.attached.contains p && !(inReset s)
def mgmtOn (s : State) (p : Nat) : Bool := s.boot.stage == .firmware && s.boot.attached.contains p && !(inReset s)

/-- RECOVERY_STATUS. -/
def execRecoveryStatus (port : Port) (s : State) : Host.Outcome State Fault Refusal :=
  .next (if recoveryOn s port.val then respond s stSuccess (rd s regRST_STAT).toNat [] else s)

/-- RECOVERY_ERASE: the value is the number of sectors erased. -/
def execRecoveryErase (port : Port) (offset length : BitVec 32) (s : State) : Host.Outcome State Fault Refusal :=
  .next (if recoveryOn s port.val then
      let a := offset.toNat
      let n := length.toNat
      if 2 ^ 24 < a + n then respond s stInvalidField 0 []
      else respond (if n = 0 then s else flashErase s a n) stSuccess (if n = 0 then 0 else (a + n + 4095) / 4096 - a / 4096) []
    else s)

/-- RECOVERY_PROGRAM: up to 4,096 bytes; the value is the number written. -/
def execRecoveryProgram (port : Port) (offset : BitVec 32) (data : List (BitVec 8)) (s : State) : Host.Outcome State Fault Refusal :=
  .next (if recoveryOn s port.val then
      if 4096 < data.length ∨ 2 ^ 24 < offset.toNat + data.length then respond s stInvalidField 0 []
      else respond (flashProgram s offset.toNat data) stSuccess data.length []
    else s)

/-- RECOVERY_READ: up to 4,096 bytes follow the response. -/
def execRecoveryRead (port : Port) (offset length : BitVec 32) (s : State) : Host.Outcome State Fault Refusal :=
  .next (if recoveryOn s port.val then
      if 4096 < length.toNat ∨ 2 ^ 24 < offset.toNat + length.toNat then respond s stInvalidField 0 []
      else respond s stSuccess length.toNat (flashBytes s offset.toNat length.toNat)
    else s)

/-- RECOVERY_REBOOT: a core reset; it has no value. -/
def execRecoveryReboot (port : Port) (s : State) : Host.Outcome State Fault Refusal :=
  .next (if recoveryOn s port.val then coreReset s 4 else s)

/-- MGMT_STATUS. -/
def execMgmtStatus (port : Port) (s : State) : Host.Outcome State Fault Refusal :=
  .next (if mgmtOn s port.val then respond s stSuccess (rd s regRST_STAT).toNat [] else s)

/-- MGMT_UNSUPPORTED_REQUEST. -/
def execMgmtUnsupportedRequest (port : Port) (s : State) : Host.Outcome State Fault Refusal :=
  .next (if mgmtOn s port.val then respond s stUnsupported 0 [] else s)

/-! ### The flash controller (R575) -/

/-- A flash command starts: BUSY. -/
def flashStart (s : State) (w : Nat) : State :=
  let c : FlashCmd := ⟨bitsOf w 63 56, if bitsOf w 29 29 = 1 then some (bitsOf w 55 32) else none, bitsOf w 31 31 == 1, bitsOf w 28 16,
    0x1000000 + 8 * bitsOf w 15 0⟩
  fset (modBoot s (fun b => { b with spi := some c })) fldSPI_STAT_BUSY

/-- What the flash does with a command: 0x06 lets it take a write, 0x20 erases the sector, 0x02 programs, 0x03 and 0x6B
read; it gives other bytes for anything else. -/
def flashRun (s : State) (c : FlashCmd) (data : List Byte) : State :=
  let a := c.addr.getD 0
  if c.toFlash then
    match memRead s 0 c.tcm c.len with
    | (t, some (bs, _)) => if c.opcode = 0x02 ∧ s.boot.flashWe then modBoot (flashProgram t a bs) (fun b => { b with flashWe := false }) else t
    | (t, none) => t
  else if c.opcode = 0x06 then modBoot s (fun b => { b with flashWe := true })
  else if c.opcode = 0x20 ∧ s.boot.flashWe then modBoot (flashErase s a 1) (fun b => { b with flashWe := false })
  else
    let bs := if c.opcode = 0x03 ∨ c.opcode = 0x6B then flashBytes s a c.len
      else data.take c.len ++ List.replicate (c.len - data.length) 0xFF
    memWriteD s 0 c.tcm bs

/-- SPI_TRANSFER_DONE, with the bytes that the flash gives a command of its own. -/
def execSpiTransferDone (data : List (BitVec 8)) (s : State) : Host.Outcome State Fault Refusal :=
  .next (match s.boot.spi with
    | some c => fset (fclr (modBoot (flashRun s c data) (fun b => { b with spi := none })) fldSPI_STAT_BUSY) fldSPI_STAT_DONE
    | none => s)

/-- SPI_BUSY_TIMEOUT. -/
def execSpiBusyTimeout (s : State) : Host.Outcome State Fault Refusal :=
  .next (match s.boot.spi with
    | some _ => fset (fclr (modBoot s (fun b => { b with spi := none })) fldSPI_STAT_BUSY) fldSPI_STAT_ERR
    | none => s)

end Machine
end Sys2Proof
end

