-- ==== Sys2Proof/Machine/Boundary.lean ====
section
/-! DEFINITION. The sweep scheduler's state machine: START, STOP, ABORT, the window (R315, R327, R333, R335), and the
boundary, step by step (R332, R334, R336). -/

namespace Sys2Proof
namespace Machine

/-! ### Taking a program -/

/-- The scheduler enters a state (R344). -/
def swpEnter (s : State) (st : Nat) : State := fput s fldSWP_STAT_STATE st

/-- The spans that the read steps of a sweep make, each waiting for the members whose steps are still to come (R160, R329). -/
def sweepSpans (s : State) (p : SwpProgram) : List Span :=
  let todo := (List.finRange 8).flatMap (fun n =>
    if unbegun s p n then (portionOf p.steps n.val).map (·.2)
    else match s.hb[n].portion with
      | some q => if q.ref.seq = p.ref.seq then q.steps.map (·.2) else []
      | none => [])
  ((List.range 32).filter (fun id => p.steps.any (fun st => (stepSpan st).map (·.1) == some id))).map (fun id =>
    ⟨id, todo.filterMap (fun st => match stepSpan st with
      | some (i, m) => if i = id then some m else none
      | none => none), false, []⟩)

/-- Each head's write cell fetches the table set of its first write step of the new sweep (R180). -/
def sweepTables (s : State) (p : SwpProgram) : State :=
  forEach (List.finRange 8) s (fun t n =>
    match ((portionOf p.steps n.val).map (·.2)).find? isWrite with
    | some st => streamLive (modWc t n (fun w => { w with fetch := some (tableAddr t n.val st.w1.toNat) })) n
    | none => t)

/-- Where DISC_ANGLE stands, whole turns counted in 2^32. -/
def discTurn (s : State) : Nat := s.spn.turns * 2 ^ 32 + (rd s regSPN_ANGLE).toNat

/-- From one place of DISC_ANGLE to the next pass of a wedge under H0, a whole revolution when they are equal (R315). -/
def turnTo (a wedge : Nat) : Nat :=
  let d := (wedge * 2 ^ 32 / 720 + 2 ^ 32 - a % 2 ^ 32) % 2 ^ 32
  if d = 0 then 2 ^ 32 else d

/-- Whether the pass that a START_WEDGE was planned for is over: the first that follows the 720 frames of the last window, by
DISC_ANGLE (R315, R333). -/
def sweepLate (s : State) (start : Nat) : Bool :=
  match s.swpOpened with
  | none => false
  | some a => decide (a + 2 ^ 32 + turnTo a start < discTurn s)

/-- The next sweep: the first loaded program, or an empty sweep with the last START_WEDGE (R333). -/
def sweepTake (s : State) : State :=
  let s1 := { s with swpAborted := false, winFlags := (false, false, []) }
  match s.swpQueue with
  | p :: rest =>
    let s2 := { s1 with
      swpCur := some p
      swpQueue := rest
      swpStart := p.startWedge
      swpLate := sweepLate s p.startWedge
      spans := sweepSpans s p }
    swpEnter (showQueued (sweepTables s2 p)) 1
  | [] =>
    swpEnter (count (fset { s1 with swpCur := none, swpLate := sweepLate s s.swpStart, spans := [] } fldSWP_STAT_EMPTY) 380) 1

/-! ### Commands -/

/-- START: from IDLE only (R335). -/
def sweepStart (s : State) : State :=
  if sweepRunning s then s else sweepTake { s with swpOpened := none, swpStop := false }

/-- SWEEP_START. -/
def execSweepStart (_agent : Agent) (s : State) : Host.Outcome State Fault Refusal := .next (reply (sweepStart s) .ok 0 [])

/-- STOP: pending in any state but IDLE (R335). -/
def sweepStop (s : State) : State := if sweepRunning s then { s with swpStop := true } else s

/-- SWEEP_STOP. -/
def execSweepStop (_agent : Agent) (s : State) : Host.Outcome State Fault Refusal := .next (reply (sweepStop s) .ok 0 [])

/-- The steps of a head's portion that has not begun end with a status. -/
def unbegunEnd (s : State) (p : SwpProgram) (n : Fin 8) (status : Nat) : State :=
  if unbegun s p n then
    forEach (portionOf p.steps n.val) (modHb s n (fun h => { h with begun := p.ref.seq + 1 })) (fun t q =>
      spanReached (stepEnd t p.ref (stepOp q.2) n.val status q.1 (stepPta q.2) q.2.w3 0 0) p.ref q.2)
  else s

/-- Every step of a program that is not yet complete ends ABORTED. -/
def programAbort (s : State) (p : SwpProgram) : State :=
  forEach (List.finRange 8) s (fun t n => unbegunEnd t p n 0xA)

/-- Every head's portion and open steps end ABORTED, and slots not yet begun are disarmed. -/
def headsAbort (s : State) : State :=
  forEach (List.finRange 8) s (fun t n => disarmHead (portionEnd t n 0xA) n)

/-- ABORT in WAIT, WINDOW or TAIL: the queue is discarded and every step not complete ends ABORTED, those of the next
program too once a portion of it has begun (R335). -/
def sweepAbort (s : State) : State :=
  let st := fget s fldSWP_STAT_STATE
  if st = 1 ∨ st = 2 ∨ st = 3 then
    let next := (s.swpQueue.head?).filter (fun p => s.hb.toList.any (fun h => h.begun == p.ref.seq + 1))
    let s1 := forEach (s.swpCur.toList ++ next.toList) (headsAbort s) programAbort
    let s2 := showQueued { s1 with swpQueue := [], swpAborted := true }
    if st = 1 then swpEnter { s2 with swpTail := s.chipTime } 5
    else if st = 2 then swpEnter s2 3
    else s2
  else s

/-- SWEEP_ABORT. -/
def execSweepAbort (_agent : Agent) (s : State) : Host.Outcome State Fault Refusal := .next (reply (sweepAbort s) .ok 0 [])

/-! ### The window -/

/-- The window opens: its time and what holds now are recorded (R327, R333, R335). -/
def windowOpen (s : State) : State :=
  let s1 := putTime (swpEnter s 2) regSWP_WIN_TIME_LO regSWP_WIN_TIME_HI s.chipTime
  let s2 := match s.swpCur with
    | some p => wr s1 regSWP_CUR_ID p.ref.id
    | none => s1
  let tables := (List.range 8).filter (fun n => fbit s (fldWC_STAT_TABLE_OK n))
  let s3 := { s2 with
    swpOpened := some (s.swpStart * 2 ^ 32 / 720 + (discTurn s - s.swpStart * 2 ^ 32 / 720) / 2 ^ 32 * 2 ^ 32)
    winFlags := (fbit s fldSPN_STAT_ANGLE_VALID, fbit s fldSPN_STAT_AT_SPEED, tables) }
  if s.swpLate then count (fset s3 fldSWP_STAT_LATE) 378 else s3

/-- WINDOW_OPEN. -/
def execWindowOpen (s : State) : Host.Outcome State Fault Refusal :=
  .next (if fget s fldSWP_STAT_STATE = 1 then windowOpen s else s)

/-- The window closes: nothing more is armed; portions that have not begun begin, and what every head has not finished ends
(R324, R335); a CAL_SLOT that still holds its head is over. -/
def windowClose (s : State) : State :=
  let s1 := match s.swpCur with
    | some p => forEach (List.finRange 8) s (fun t n => if unbegun t p n then portionBegin t p n else t)
    | none => s
  let s2 := forEach (List.finRange 8) s1 closePortion
  let s3 := forEach (List.finRange 8) s2 (fun t n => forEach [1, 2, 3, 4, 5, 6] t (fun u k => calStepDone u n k))
  swpEnter s3 3

/-- WINDOW_CLOSE. -/
def execWindowClose (s : State) : Host.Outcome State Fault Refusal :=
  .next (if fget s fldSWP_STAT_STATE = 2 then windowClose s else s)

/-- ALL_SLOTS_ENDED: in TAIL, once no armed slot is left (R335). -/
def execAllSlotsEnded (s : State) : Host.Outcome State Fault Refusal :=
  .next (if fget s fldSWP_STAT_STATE = 3 ∧ (List.finRange 8).all (fun n => !(headBusy s n)) then
      swpEnter { s with swpTail := s.chipTime } 4
    else s)

/-! ### The drain (R332 steps 1 to 4) -/

/-- A read-back that will not come any more: its detector waits for a slot that has gone by. -/
def verifyStale (s : State) : State :=
  forEach (List.finRange 32) s (fun t c =>
    if t.ch[c].verify && t.ch[c].sync == .wait1 then modCh t c (fun q => { q with sync := .idle, queue := [] }) else t)

/-- Whether every packet has been decoded and every read-back judged or given up. -/
def sectorsDone (s : State) : Bool :=
  s.ch.toList.all (fun q => q.sync == .idle) && s.packets.isEmpty && s.slices.toList.all (·.isEmpty) && s.decWait.isEmpty &&
    s.decDiscard.isEmpty && s.wc.toList.all (fun w => w.slots.all (fun q => q.phase == .verifying && q.vres.isNone))

/-- Whether every record of the sweep is in its ring (R332, R340). -/
def ringsDone (s : State) : Bool := (List.finRange 11).all (fun f => s.fifo[(f.castLE (by omega) : Fin 14)].waiting.isEmpty)

/-- The heads that fell short in a sweep, as bits. -/
def shortMask (s : State) (seq : Nat) : Nat :=
  (List.range 8).foldl (fun m h => if s.shortHeads.contains (seq, h) then m + 2 ^ h else m) 0

/-- The summary record and BOUNDARY (R332 step 4, R336, R342). -/
def sweepSummary (s : State) : State :=
  let seq := s.swpCur.map (·.ref.seq)
  let short := (seq.map (shortMask s)).getD 0
  let s1 := fput { s with spans := [], shortHeads := s.shortHeads.filter (fun p => some p.1 != seq) } fldSWP_SHORT_HEADS short
  let s2 := if short = 0 then s1 else count (fset s1 fldSWP_STAT_SHORT) 377
  let s3 := fifoPush s2 9 (stepRecord 0xF 0 0 0 0 0 s.chipTime (rd s regSWP_CUR_ID) 0 (short + if s.swpLate then 256 else 0))
  swpEnter (count (fset s3 fldSWP_STAT_BOUNDARY) 376) 5

/-- DRAIN_COMPLETE: once every sector has its result, tiles that lack results are closed (R166), and slots without a read-back
end VERIFY_LOST (R195); with no tile left and every record in its ring the summary is written. -/
def drainComplete (s : State) : State :=
  let s0 := verifyStale s
  if ¬ sectorsDone s0 then s
  else
    let s1 := closeTiles (forEach (List.finRange 8) s0 verifyLost)
    if s1.tiles.isEmpty ∧ ringsDone s1 then sweepSummary s1 else s1

/-- DRAIN_COMPLETE. -/
def execDrainComplete (s : State) : Host.Outcome State Fault Refusal :=
  .next (if fget s fldSWP_STAT_STATE = 4 then drainComplete s else s)

/-! ### Steps 5 and 6 -/

/-- The decoder and tile-code fields, a write cell's, and the pool registers that wait for a boundary (R165, R201, R344). -/
def decReg (a : Nat) : Bool := decide (decBase ≤ a) && decide (a < decBase + 0x100)
def tcReg (a : Nat) : Bool := decide (tcBase ≤ a) && decide (a < tcBase + 0x100)
def wcReg (n a : Nat) : Bool := decide (wcBase n ≤ a) && decide (a < wcBase n + 0x100)
def poolReg (a : Nat) : Bool := decide (regSWP_RDBUF_LO ≤ a) && decide (a ≤ regSWP_WRBUF_CNT)

/-- The fields of a block that wait for a boundary are applied, and its PARAM_PEND clears if it was set. -/
def blockApply (s : State) (which : Nat → Bool) (pend : Fld) : State :=
  if s.pend.any (fun p => which p.1) then fclr (applyPend s which) pend else s

/-- A channel takes the boundary: now, or after its open packet (R96). -/
def chanApply (s : State) (c : Fin 32) : State :=
  if s.pend.any (fun p => ofChannel c p.1) then chanBoundary s c else s

/-- A write cell takes the boundary: a lower I_MAX holds for the currents in force, and comparators may be on or off now (R185, R190,
R201). -/
def wcApply (s : State) (n : Fin 8) : State :=
  let s1 := blockApply s (wcReg n.val) (fldWC_STAT_PARAM_PEND n.val)
  if s.pend.any (fun p => wcReg n.val p.1) then guardLive (currentsLimit s1 n.val) n else s1

/-- Step 5 of R332: every block applies the fields that wait for a boundary, and calibration results take effect. -/
def boundaryFields (s : State) : State :=
  let s1 := forEach (List.finRange 32) s chanApply
  let s2 := blockApply (blockApply s1 decReg fldDEC_STAT_PARAM_PEND) tcReg fldTC_STAT_PARAM_PEND
  let s3 := forEach (List.finRange 8) s2 wcApply
  let s4 := applyPend s3 poolReg
  let s5 := forEach ((List.finRange 10).filter (fun k => enginePresent s.variant k.val)) s4 seBoundary
  let s6 := forEach (List.finRange 8) (spnSpeedApply s5) sledApply
  calBoundary s6 s.swpQueue.head?

/-- A head goes offline: what its portion has still to do ends SHORT_OFFLINE (R234, R332, R336). -/
def headOffline (s : State) (n : Fin 8) : State :=
  let s1 := fputAt (fputAt s fldSWP_HEAD_ONLINE_OFFLINE_PEND n.val false) fldSWP_HEAD_ONLINE_ONLINE n.val false
  portionEnd (fset s1 fldSWP_STAT_OFFLINE) n 3

/-- Whether a head's portion of the coming sweep has already posted a word (R321, R332). -/
def nextPosted (s : State) (n : Fin 8) : Bool :=
  match s.swpQueue with
  | p :: _ => s.hb[n].posted && s.hb[n].begun == p.ref.seq + 1
  | [] => false

/-- A head's last word is posted again with MODE 0 (R321). -/
def schedRepost (s : State) (n : Fin 8) : State :=
  if s.hb[n].sched.isNone ∨ nextPosted s n then s
  else schedPost s n 0 (schedField s n 28 25) (schedField s n 24 20) (schedField s n 19 8) (schedField s n 7 6)

/-- Step 6 of R332. -/
def boundaryHeads (s : State) : State :=
  let off := (List.finRange 8).filter (fun n => fbitAt s fldSWP_HEAD_ONLINE_OFFLINE_PEND n.val)
  forEach (List.finRange 8) (forEach off s headOffline) schedRepost

/-- SWEEP_BOUNDARY_CMD: while IDLE, steps 5 and 6 at once (R334). -/
def execSweepBoundaryCmd (_agent : Agent) (s : State) : Host.Outcome State Fault Refusal :=
  .next (reply (if sweepRunning s then s else boundaryHeads (boundaryFields s)) .ok 0 [])

/-- Whether step 5 still has a channel of staging memory to retrain (R416). -/
def retrainDue (s : State) : Bool :=
  let st := fget s fldDRAM_STAT_STATE
  st == 3 || (st == 2 && fbit s fldDRAM_STAT_RETRAIN_PEND && !s.retrained)

/-- The time of a boundary, from the end of the last slot, in 100 ns (R344). -/
def drainTime (s : State) : Nat := Nat.min 0xFFFF ((s.chipTime - s.swpTail).toNat / 100)

/-- The boundary completes: its time, SWP_DRAIN and ABORTED are shown, and the next sweep begins to wait, or the scheduler
stops (R333, R335, R344). -/
def boundaryEnd (s : State) : State :=
  let d := drainTime s
  let s1 := putTime s regSWP_BOUND_TIME_LO regSWP_BOUND_TIME_HI s.chipTime
  let s2 := fput s1 fldSWP_DRAIN_LAST d
  let s3 := if fget s2 fldSWP_DRAIN_MAX < d then fput s2 fldSWP_DRAIN_MAX d else s2
  let s4 := { (sif s.swpAborted s3 (fun t => fset t fldSWP_STAT_ABORTED)) with retrained := false, swpCur := none }
  if s.swpStop then swpEnter { s4 with swpStop := false, swpAborted := false } 0 else sweepTake s4

/-- BOUNDARY_APPLY: steps 5 and 6; step 5 does not complete before a pending retraining has ended. -/
def execBoundaryApply (s : State) : Host.Outcome State Fault Refusal :=
  .next (if fget s fldSWP_STAT_STATE = 5 ∧ ¬ retrainDue s then boundaryEnd (boundaryHeads (boundaryFields s)) else s)

/-- A write of 1 to ONLINE bits: present heads come online; a 0 changes nothing (R344). -/
def headOnlineSet (s : State) (mask : Nat) : State :=
  fput s fldSWP_HEAD_ONLINE_ONLINE (fget s fldSWP_HEAD_ONLINE_ONLINE ||| (mask &&& headMask s.variant))

/-- HEAD_ONLINE_SET. -/
def execHeadOnlineSet (_agent : Agent) (mask : BitVec 8) (s : State) : Host.Outcome State Fault Refusal :=
  .next (reply (headOnlineSet s mask.toNat) .ok 0 [])

end Machine
end Sys2Proof
end

