-- ==== Sys2Proof/Machine/Pins.lean ====
section
/-! DEFINITION. GPIO and edge timers (R574, R576, R577), the Kerb bus (R578 to R584), SMBus (R585) and the JTAG instructions
(R586). -/

namespace Sys2Proof
namespace Machine

def modPins (s : State) (f : Pins → Pins) : State := { s with pins := f s.pins }

/-! ### GPIO (R574, R576) -/

/-- A write of GPIO_FUNCn: by the permit's owner, and for a function other than 0 with the FEATURE recorded. -/
def gpioFuncWrite (s : State) (a : Agent) (n v : Nat) : State :=
  if permitOwner s n = a.id ∧ (gpioFunc v = 0 ∨ gpioFunc v = fget s (fldPERMIT_FEATURE n)) then
    wr s (regGPIO_FUNC n) (BitVec.ofNat 32 (bitsOf v 12 12 * 2 ^ 12 + bitsOf v 9 8 * 2 ^ 8 + bitsOf v 2 0))
  else permitDeny s n a.id

/-- GPIO_FUNC_WRITE. -/
def execGpioFuncWrite (agent : Agent) (line : Fin 16) (value : BitVec 32) (s : State) : Host.Outcome State Fault Refusal :=
  .next (reply (gpioFuncWrite s agent line.val value.toNat) .ok 0 [])

/-- A write of a SET or CLR register: dropped whole when it names a line that the writer does not own, each of which shows
DENIED. -/
def gpioBits (s : State) (a : Agent) (lines : Nat) (f : Fld) (set : Bool) : State :=
  let named := (List.range 16).filter (fun k => lines.testBit k)
  let bad := named.filter (fun k => permitOwner s k != a.id)
  if bad.isEmpty then forEach named s (fun t k => fputAt t f k set)
  else forEach bad s (fun t k => permitDeny t k a.id)

/-- GPIO_OE_SET. -/
def execGpioOeSet (agent : Agent) (lines : BitVec 16) (s : State) : Host.Outcome State Fault Refusal :=
  .next (reply (gpioBits s agent lines.toNat fldGPIO_OE_EN true) .ok 0 [])

/-- GPIO_OE_CLR. -/
def execGpioOeClr (agent : Agent) (lines : BitVec 16) (s : State) : Host.Outcome State Fault Refusal :=
  .next (reply (gpioBits s agent lines.toNat fldGPIO_OE_EN false) .ok 0 [])

/-- GPIO_OUT_SET. -/
def execGpioOutSet (agent : Agent) (lines : BitVec 16) (s : State) : Host.Outcome State Fault Refusal :=
  .next (reply (gpioBits s agent lines.toNat fldGPIO_OUT_LEVEL true) .ok 0 [])

/-- GPIO_OUT_CLR. -/
def execGpioOutClr (agent : Agent) (lines : BitVec 16) (s : State) : Host.Outcome State Fault Refusal :=
  .next (reply (gpioBits s agent lines.toNat fldGPIO_OUT_LEVEL false) .ok 0 [])

/-! ### Edge timers (R574, R577) -/

/-- A write of TMR_CFGk: by the timer's owner; with EN, by the owner of LINE's permit with the feature of the mode. -/
def tmrCfgWrite (s : State) (a : Agent) (k v : Nat) : State :=
  let line := bitsOf v 19 16
  let feature := if bitsOf v 29 28 = 3 then 3 else 2
  if permitOwner s (16 + k) ≠ a.id then permitDeny s (16 + k) a.id
  else if bitsOf v 31 31 = 1 ∧ ¬ (permitOwner s line = a.id ∧ fget s (fldPERMIT_FEATURE line) = feature) then permitDeny s line a.id
  else wr s (regTMR_CFG k) (BitVec.ofNat 32 (bitsOf v 31 31 * 2 ^ 31 + bitsOf v 29 28 * 2 ^ 28 + line * 2 ^ 16))

/-- TMR_CFG_WRITE. -/
def execTmrCfgWrite (agent : Agent) (k : Fin 4) (value : BitVec 32) (s : State) : Host.Outcome State Fault Refusal :=
  .next (reply (tmrCfgWrite s agent k.val value.toNat) .ok 0 [])

/-- Whether a timer captures an edge of a line. -/
def captures (s : State) (k line : Nat) (rise : Bool) : Bool :=
  let m := fget s (fldTMR_CFG_MODE k)
  fbit s (fldTMR_CFG_EN k) && fget s (fldTMR_CFG_LINE k) == line && xingArmed s 50 && gpioFunc (fget s (fldGPIO_FUNC_FUNC line)) == 2 &&
    (m == 2 || (m == 0 && rise) || (m == 1 && !rise))

/-- An edge of a GPIO line: GPIO_IN follows; a selected edge sets its event, a timer captures it; in Dormant it may wake
(R493). -/
def gpioEdge (s : State) (line : Fin 16) (rise : Bool) : State :=
  if s.sup.dormant then
    let s1 := fputAt s fldGPIO_IN_LEVEL line.val rise
    if s.sup.gpioMask.testBit line.val then wakeEvent s1 8 else s1
  else if inReset s then fputAt s fldGPIO_IN_LEVEL line.val rise
  else
    let s1 := fputAt s fldGPIO_IN_LEVEL line.val rise
    let s2 := sif (fbitAt s (if rise then fldGPIO_EDGE_RISE else fldGPIO_EDGE_FALL) line.val) s1 (fun t => fputAt t fldGPIO_EVT_LINE line.val true)
    forEach ((List.range 4).filter (fun k => captures s k line.val rise)) s2 (fun t k =>
      fputAt (putTime t (regTMR_CAP_LO k) (regTMR_CAP_HI k) s.chipTime) fldGPIO_EVT_TMR k true)

/-- GPIO_EDGE_EVENT. -/
def execGpioEdgeEvent (line : Fin 16) (rise : Bool) (s : State) : Host.Outcome State Fault Refusal := .next (gpioEdge s line rise)

/-- TIMER_PERIOD_START: a PWM period takes the latest PER and DUTY. -/
def execTimerPeriodStart (k : Fin 4) (s : State) : Host.Outcome State Fault Refusal :=
  .next (if fbit s (fldTMR_CFG_EN k.val) && fget s (fldTMR_CFG_MODE k.val) == 3 && xingArmed s 50 then
      modPins s (fun p => { p with timers := p.timers.set k (Nat.max 2 (fget s (fldTMR_PWM_PER k.val)), fget s (fldTMR_PWM_DUTY k.val)) })
    else s)

/-! ### The status window (R561, R579) -/

/-- STAGE. -/
def stageCode (s : State) : Nat :=
  if fbit s fldSQ_STAT_SAFE then 6
  else if s.sup.seq = .failed then 1
  else if s.sup.seq ≠ .done then 0
  else if s.sup.dormant then 5
  else match s.boot.stage with
  | .rom => 2
  | .recovery => 3
  | .firmware => 4

/-- A word of the window, with a latched time for words 10 to 13. -/
def windowWord (s : State) (w : Nat) (t : DWord) : Nat :=
  if w = 0 then stageCode s + fget s fldRST_STAT_CAUSE * 16 + fget s fldRST_STAT_BOOT_SLOT * 256
  else if w = 1 then fget s fldKRB_FWSTAGE_FW_STAGE * 256 + fget s fldRST_STAT_BOOT_ERR
  else if w = 2 then cap0 s.variant % 2 ^ 16
  else if w = 3 then cap0 s.variant / 2 ^ 16
  else if w = 4 then fget s fldSQ_STAT_SAFE * 2 ^ 15 + fget s fldSQ_STAT_SAFE_CAUSE * 2 ^ 12 + fget s fldSQ_STAT_PIN_LOW * 2 ^ 11
  else if 10 ≤ w ∧ w < 14 then t.toNat / 2 ^ (16 * (w - 10)) % 2 ^ 16
  else if 15 ≤ w then fget s (fldKRB_SW_WORD (w - 15))
  else if inReset s then 0
  else (aget? s.pins.copies w).getD 0

/-- KERB_COPY_REFRESH, with the die temperature. -/
def copyRefresh (s : State) (temp : Nat) : State :=
  if inReset s then s
  else
    let speed := s.spn.spdMeas.natAbs / 8
    let mask (f : Fin 8 → Bool) : Nat := (heads s).foldl (fun acc n => if f n then acc + 2 ^ n.val else acc) 0
    modPins s (fun p =>
      { p with copies :=
          [(5, bitsOf (rd s regSUP_STAT).toNat 31 20 * 16), (6, (rd s regSPN_STAT).toNat / 2 ^ 16), (7, Nat.min 0xFFFF speed),
           (8, fget s fldSWP_HEAD_ONLINE_ONLINE * 256 + fget s fldFM_ISOLATE_ISOLATED),
           (9, mask (fun n => sledState s n == 7) * 256 + mask (fun n => fbit s (fldSLD_STAT_POS_VALID n.val))), (14, temp)] })

def execKerbCopyRefresh (temp : BitVec 16) (s : State) : Host.Outcome State Fault Refusal := .next (copyRefresh s temp.toNat)

/-! ### The Kerb bus (R578 to R584) -/

/-- Whether the core responder would serve an access that begins now. -/
def coreWouldServe (s : State) : Bool := !(inReset s) && xingArmed s 43

/-- An acknowledged access: with the strobe low, it is served by the responder in charge and KACK_N falls; a read drives KD.
An access that begins while a strobe is low is none. -/
def kerbAccess (s : State) (strobe : Nat) (kd : Option Nat) (f : State → State) : State :=
  if s.pins.strobe ≠ 0 then s
  else
    let on := coreWouldServe s
    let s1 := if on then f s else s
    let v := kd.map (fun x => if on then x else 0)
    let s2 := modPins s1 (fun p => { p with coreServes := on, strobe := strobe, ack := true, kd := v })
    reply s2 .ok (v.getD 0) []

/-- KERB_STATUS_READ: a word of the window at once; word 10 latches the time. -/
def execKerbStatusRead (word : Fin 64) (s : State) : Host.Outcome State Fault Refusal :=
  .next (if s.pins.strobe = 2 ∨ s.pins.ack then s
    else
      let s1 := if word.val = 10 then modPins s (fun p => { p with kerbTime := s.chipTime }) else s
      let v := windowWord s1 word.val s1.pins.kerbTime
      reply (modPins s1 (fun p => { p with strobe := 1, kd := some v })) .ok v [])

/-- KERB_INBOUND_WRITE. -/
def execKerbInboundWrite (n : Fin 32) (value : BitVec 16) (s : State) : Host.Outcome State Fault Refusal :=
  .next (kerbAccess s 2 none (fun t => fset (fput t (fldKRB_IN_WORD n.val) value.toNat) fldKRB_STAT_IN_WR))

/-- KERB_COMMAND_WRITE. -/
def execKerbCommandWrite (value : BitVec 16) (s : State) : Host.Outcome State Fault Refusal :=
  .next (kerbAccess s 2 none (fun t => fset (fput t fldKRB_CMD_CMD value.toNat) fldKRB_STAT_CMD))

/-- KERB_INT_CLEAR: bit 0 clears ASSERT. -/
def execKerbIntClear (value : BitVec 16) (s : State) : Host.Outcome State Fault Refusal :=
  .next (kerbAccess s 2 none (fun t => if value.getLsbD 0 then fset (fclr t fldKRB_INT_ASSERT) fldKRB_STAT_INT_CLR else t))

/-- KERB_WAKE_WORD: 0x5A17 while Dormant is a wake source; else the write is discarded. -/
def execKerbWakeWord (value : BitVec 16) (s : State) : Host.Outcome State Fault Refusal :=
  .next (if s.pins.strobe ≠ 0 then s
    else
      let s1 := kerbAccess s 2 none id
      if s.sup.dormant ∧ value = 0x5A17 then wakeEvent s1 4 else s1)

/-- What an acknowledged read returns. -/
def kerbWord (s : State) (ka : Nat) : Nat :=
  if 0x40 ≤ ka ∧ ka < 0x60 then fget s (fldKRB_IN_WORD (ka - 0x40))
  else if 0x60 ≤ ka ∧ ka < 0x80 then fget s (fldKRB_OUT_WORD (ka - 0x60))
  else if ka = 0x80 then fget s fldKRB_CMD_CMD
  else if ka = 0x81 then fget s fldKRB_INT_ASSERT
  else 0

/-- KERB_ACK_ACCESS: any other acknowledged access: a read of a word outside the window, or a write that is discarded. -/
def execKerbAckAccess (word : BitVec 8) (write : Bool) (s : State) : Host.Outcome State Fault Refusal :=
  .next (
    let ka := word.toNat
    if write then
      (if (0x40 ≤ ka ∧ ka < 0x60) ∨ ka = 0x80 ∨ ka = 0x81 ∨ ka = 0xFF then s else kerbAccess s 2 none id)
    else if ka < 0x40 then s
    else kerbAccess s 1 (some (kerbWord s ka)) id)

/-- KERB_PROTOCOL_ERROR: both strobes low. -/
def execKerbProtocolError (s : State) : Host.Outcome State Fault Refusal :=
  .next (if inReset s then s else fset s fldKRB_STAT_PROTO)

/-- KERB_RESPONDER_SWITCH: with both strobes high the responder in charge changes. -/
def execKerbResponderSwitch (s : State) : Host.Outcome State Fault Refusal :=
  .next (if s.pins.strobe = 0 then modPins s (fun p => { p with coreServes := coreWouldServe s }) else s)

/-- KERB_STROBE_RISE: KACK_N rises and KD is high impedance. -/
def execKerbStrobeRise (s : State) : Host.Outcome State Fault Refusal :=
  .next (modPins s (fun p => { p with strobe := 0, ack := false, kd := none }))

/-! ### SMBus (R585) -/

/-- The packet error code: CRC-8 with x^8 + x^2 + x + 1. -/
def crc8 (l : List Nat) : Nat :=
  l.foldl (fun c b => (List.range 8).foldl (fun c _ => if 128 ≤ c then (2 * c % 256) ^^^ 7 else 2 * c) (c ^^^ b)) 0

/-- A read's bytes, with the packet error code over the whole transaction when PEC is 1. -/
def smbReply (s : State) (cmd : Nat) (data : List Nat) : State :=
  let a := 2 * fget s fldSMB_CFG_ADDR
  let pec := if fbit s fldSMB_CFG_PEC then [crc8 ([a, cmd, a + 1] ++ data)] else []
  reply s .ok 0 (toBytes (data ++ pec))

/-- The bytes of a word, low byte first. -/
def wordBytes (w : Nat) : List Nat := [w % 256, w / 256 % 256]

/-- SMBUS_READ_WORD. -/
def execSmbusReadWord (word : Fin 64) (s : State) : Host.Outcome State Fault Refusal :=
  .next (
    let s1 := if word.val = 10 then modPins s (fun p => { p with smbTime := s.chipTime }) else s
    smbReply s1 word.val (wordBytes (windowWord s1 word.val s1.pins.smbTime)))

/-- SMBUS_BLOCK_READ: words 0 to 15, after their count. -/
def execSmbusBlockRead (s : State) : Host.Outcome State Fault Refusal :=
  .next (
    let s1 := modPins s (fun p => { p with smbTime := s.chipTime })
    smbReply s1 0x40 (32 :: (List.range 16).flatMap (fun w => wordBytes (windowWord s1 w s1.pins.smbTime))))

/-- SMBUS_NACK. -/
def execSmbusNack (s : State) : Host.Outcome State Fault Refusal := .next (fset s fldSMB_CFG_NACKED)

/-- Whether ALERT_N is low. -/
def alertLow (s : State) : Bool := fbit s fldSQ_STAT_SAFE || fbit s fldSUP_STAT_SUPPLY_FAULT || s.pins.alert

/-- SMBUS_ALERT_RESPONSE: a target that holds ALERT_N low returns its address. -/
def execSmbusAlertResponse (s : State) : Host.Outcome State Fault Refusal :=
  .next (if alertLow s then reply s .ok 0 (toBytes [2 * fget s fldSMB_CFG_ADDR]) else s)

/-! ### JTAG (R586) -/

/-- Whether an instruction holds the drivers off: EXTEST, CLAMP, HIGHZ. -/
def irHolds (i : Nat) : Bool := ([3, 4, 5] : List Nat).contains i

/-- Load an instruction: one that holds the drivers off turns them off, any other lets the inhibit go. -/
def jtagLoad (s : State) (i : Nat) : State :=
  let s1 := modPins s (fun p => { p with jtagIr := i })
  if irHolds i then (if irHolds s.pins.jtagIr then s1 else driversOff s1) else inhibitShow s1

/-- IDCODE of the variant. -/
def idcode (v : Variant) : Nat :=
  match v with
  | .oac7208 => 0x17208B47
  | .oac7208R => 0x1720AB47
  | .oac7204 => 0x17204B47
  | .oac7202 => 0x17202B47

/-- JTAG_TAP_RESET. -/
def execJtagTapReset (s : State) : Host.Outcome State Fault Refusal := .next (jtagLoad s 1)

/-- IDCODE: the identification register is selected and captured. -/
def execIdcode (s : State) : Host.Outcome State Fault Refusal := .next (reply (jtagLoad s 1) .ok (idcode s.variant) [])

/-- Cells as a number, the one nearest TDI lowest. -/
def cellsNat (l : List Bool) : Nat := l.foldr (fun b acc => 2 * acc + (if b then 1 else 0)) 0

/-- SAMPLE/PRELOAD, with the cells that are shifted in; those that the register captures come out. -/
def execSamplePreload (cells : BitVec 118) (s : State) : Host.Outcome State Fault Refusal :=
  .next (
    let v := cellsNat (boundaryCells s)
    tickFrees (reply (modPins (jtagLoad s 2) (fun p => { p with boundary := cells.toNat })) .ok v (natLe 15 v)) 64)

/-- EXTEST. -/
def execExtest (s : State) : Host.Outcome State Fault Refusal := .next (jtagLoad s 3)

/-- CLAMP. -/
def execClamp (s : State) : Host.Outcome State Fault Refusal := .next (jtagLoad s 4)

/-- HIGHZ. -/
def execHighz (s : State) : Host.Outcome State Fault Refusal := .next (jtagLoad s 5)

/-- BYPASS. -/
def execBypass (s : State) : Host.Outcome State Fault Refusal := .next (jtagLoad s 0x3F)

end Machine
end Sys2Proof
end

