-- ==== Sys2Proof/Machine/Bus.lean ====
section
/-! DEFINITION. The bus: reading and writing any register by its address, with what each access does (R9 to R13), and the
JTAG debug access (R587).  A field that the spec says is 'taken as' another value keeps the value written; a field that it says
is clamped holds the clamped one. -/

namespace Sys2Proof
namespace Machine

/-! ### Where an address lies -/

/-- The FIFO whose registers hold an address. -/
def fifoAt (a : Nat) : Option (Fin 14) :=
  (List.finRange 14).find? (fun f => decide (fifoBase f.val ≤ a) && decide (a < fifoBase f.val + 0x40))

/-- The cell that owns an address, as `cerrBase` names it: the channels, the write cell and the sled of a head block, the servo
engines, and the blocks that are one cell (R21, R535). -/
def cellAt (a : Nat) : Option Nat :=
  match headAt a with
  | some (n, off) =>
    if off < 0x4000 then some (64 * n + off / 0x1000)
    else if 0x5000 ≤ off ∧ off < 0x5140 then some (64 * n + 5)
    else if 0x7000 ≤ off ∧ off < 0x8000 then some (64 * n + 7)
    else none
  | none =>
    if 0x50000000 ≤ a ∧ a < 0x50080000 then some (64 * ((a - 0x50000000) / 0x10000) + 4)
    else if 0x50080000 ≤ a ∧ a < 0x500A0000 then some (64 * 8 + (a - 0x50080000) / 0x10000)
    else if decBase ≤ a ∧ a < decBase + 0x100 then some (64 * 10 + 40)
    else if tcBase ≤ a ∧ a < tcBase + 0x140 then some (64 * 11)
    else if arvBase ≤ a ∧ a < arvBase + 0x180 then some (64 * 16)
    else if keyBase ≤ a ∧ a < keyBase + 0x100 then some (64 * 17)
    else none

/-- Whether an address belongs to a fenced cell (R541). -/
def fencedAt (s : State) (a : Nat) : Bool :=
  match cellAt a with
  | some c => fbit s (fldCELL_ERR_FAULT c)
  | none => false

/-- The class of an agent's requests to staging memory; 4 never allocates (R373). -/
def agentClass : Agent → Nat
  | .core _ => 0
  | .archive => 2
  | .hostLink => 3
  | _ => 4

/-! ### Plain registers (R11, R13) -/

/-- A write field by field: an RW field takes the value, a W1C field loses the bits written as 1, every other keeps. -/
def plainValue (sp : RegSpec) (old v : Nat) : Nat :=
  sp.fields.foldl (fun acc f =>
    let o := bitsOf old f.hi f.lo
    let x := bitsOf v f.hi f.lo
    putBits acc f.hi f.lo (match f.acc with
      | .rw => x
      | .w1c => o - (o &&& x)
      | _ => o)) old

/-- A plain write. -/
def plainWrite (s : State) (a v : Nat) : State :=
  match specAt a with
  | some sp => wr s a (BitVec.ofNat 32 (plainValue sp (rd s a).toNat v))
  | none => s

/-- The fields that read 0: WO fields, and W1S fields but the two that R13 names. -/
def readsZero (a : Nat) (f : FieldSpec) : Bool :=
  f.acc == .wo || (f.acc == .w1s && a != regSWP_HEAD_ONLINE && a != regSQ_CFG)

/-- What a plain read returns. -/
def plainRead (s : State) (a : Nat) : Nat :=
  match specAt a with
  | some sp => sp.fields.foldl (fun acc f => if readsZero a f then putBits acc f.hi f.lo 0 else acc) (rd s a).toNat
  | none => 0

/-- A write that waits for its boundary; a later one to the same register takes its place (R96). -/
def pendWrite (s : State) (a v : Nat) : State :=
  match specAt a with
  | some sp => { s with pend := aset s.pend a (BitVec.ofNat 32 (plainValue sp (rd s a).toNat v)) }
  | none => s

/-- A value with one field brought into its range. -/
def clampBits (v hi lo least most : Nat) : Nat := putBits v hi lo (clampNat (bitsOf v hi lo) least most)

/-! ### Head blocks -/

/-- The ranges of a channel's fields (R131). -/
def rcClamp (off v : Nat) : Nat :=
  if off = 0 then clampBits v 11 8 1 15
  else if off = 0x0C then clampBits v 15 8 8 64
  else if off = 0x14 then
    let w := clampBits (clampBits (clampBits (clampBits v 29 24 8 24) 23 20 0 6) 15 12 0 4) 7 0 1 255
    clampBits w 19 16 0 (bitsOf w 23 20)
  else if off = 0x18 then clampBits (clampBits v 15 8 0 64) 7 0 1 255
  else v

/-- A write of a channel's register: RC_STAT and RC_IEN at once, ENABLE at once, the rest at the boundary (R96, R132). -/
def rcWrite (s : State) (c : Fin 32) (a v : Nat) : State :=
  let off := a - rcBase c.val
  if 0x80 ≤ off then plainWrite s a v
  else if (specAt a).isNone then s
  else
    let s1 := fset (pendWrite s a (rcClamp off v)) (fldRC_STAT_PARAM_PEND c.val)
    if off = 0 then rcEnable s1 c (bitsOf v 0 0 == 1) else s1

/-- The ranges of a write cell's fields (R201). -/
def wcClamp (off v : Nat) : Nat :=
  if off = 0x10 then clampBits v 23 16 8 255 else if off = 0x20 then clampBits v 27 23 1 24 else v

/-- A write of a write cell's register (R201). -/
def wcWrite (s : State) (n : Fin 8) (a v : Nat) : State :=
  let off := a - wcBase n.val
  if 0x80 ≤ off ∨ off = 0x14 ∨ off = 0x18 ∨ off = 0x1C then plainWrite s a v
  else if (specAt a).isNone then s
  else
    let s1 := fset (pendWrite s a (wcClamp off v)) (fldWC_STAT_PARAM_PEND n.val)
    if off = 0 then wcSoft (wcEnable s1 n (bitsOf v 0 0 == 1)) n (bitsOf v 2 2 == 1) else s1

/-- The ranges of a sled's fields (R314). -/
def sldClamp (off v : Nat) : Nat :=
  if off = 0x30 then clampBits (clampBits v 31 16 0 4096) 3 0 1 15
  else if off = 0x34 then clampBits (clampBits v 15 8 0 0x7F) 7 0 1 255
  else v

/-- SLD_CTL: its fields, then DRV_EN, then the commands; PARK wins over HOME and ABORT (R314). -/
def sldCtlWrite (s : State) (n : Fin 8) (v : Nat) : State :=
  let s1 := fput (fput (fput s (fldSLD_CTL_MODE_FORCE n) (bitsOf v 10 9)) (fldSLD_CTL_HOME_POL n) (bitsOf v 8 8))
    (fldSLD_CTL_HOLD_EN n) (bitsOf v 1 1)
  let s2 := sledDrvEn s1 n (bitsOf v 0 0 == 1)
  let s3 := sif (bitsOf v 5 5 == 1) s2 (fun t => sledUnpark t n)
  if bitsOf v 4 4 = 1 then sledPark s3 n 0
  else sif (bitsOf v 2 2 == 1) (sif (bitsOf v 3 3 == 1) s3 (fun t => sledAbort t n)) (fun t => sledHome t n)

/-- A write of a sled's register (R303, R314). -/
def sldWrite (s : State) (n : Fin 8) (a v : Nat) : State :=
  let off := a - sldBase n.val
  let st := sledState s n
  let w := sldClamp off v
  let s0 := sif (w != v) s (fun t => fset t (fldSLD_STAT_CLAMP n))
  if off = 0 then sldCtlWrite s n v
  else if off = 0x0C then sledTarget s n (BitVec.ofNat 32 v)
  else if off = 0x34 ∨ off = 0x38 then fset (pendWrite s0 a w) (fldSLD_STAT_PARAM_PEND n)
  else if (off = 0x3C ∨ off = 0x40 ∨ off = 0x44) ∧ (st = 5 ∨ st = 6) then fset s (fldSLD_STAT_WR_DENIED n)
  else if 0x400 ≤ off ∧ off < 0x800 ∧ ¬ (st = 0 ∨ st = 1) then fset s (fldSLD_STAT_WR_DENIED n)
  else plainWrite s0 a w

/-- A write inside a head block. -/
def headWrite (s : State) (n : Fin 8) (off a v : Nat) : State :=
  if off < 0x4000 then rcWrite s (headChan n (Fin.ofNat 4 (off / 0x1000))) a v
  else if 0x5000 ≤ off ∧ off < 0x5100 then wcWrite s n a v
  else if 0x7000 ≤ off ∧ off < 0x8000 then sldWrite s n a v
  else plainWrite s a v

/-! ### Servo engines (R209, R226, R230, R232, R237) -/

/-- A tick source code that the engine has, else 0. -/
def tickCode (k code : Nat) : Nat :=
  if code = 3 ∨ (k < 8 ∧ (code = 1 ∨ code = 2)) ∨ (k = 8 ∧ code = 4) then code else 0

/-- The values that an engine's fields take. -/
def seClamp (k off v : Nat) : Nat :=
  if off = 0x10 then putBits (putBits v 7 4 (tickCode k (bitsOf v 7 4))) 3 0 (tickCode k (bitsOf v 3 0))
  else if off = 0x14 then clampBits (clampBits v 31 16 200 0xFFFF) 15 0 200 0xFFFF
  else v

/-- The registers of an engine that wait for a boundary, an APPLY_NOW or a START (R230). -/
def seWaits (off : Nat) : Bool :=
  [0x0C, 0x10, 0x14, 0x18, 0x1C, 0x3C].contains off || (decide (0x80 ≤ off) && decide (off < 0xA0))

/-- A write of an engine's register. -/
def seRegWrite (s : State) (k : Fin 10) (off a v : Nat) : State :=
  if off = 0 then
    let s1 := sif (bitsOf v 2 2 == 1) s (fun t => seApplyNow t k)
    if bitsOf v 1 1 = 1 then seStop s1 k else sif (bitsOf v 0 0 == 1) s1 (fun t => seStart t k)
  else if off = 0x20 then sif (bitsOf v 31 31 == 1) s (fun t => seLoad t k (bitsOf v 2 2 == 1) (bitsOf v 1 0))
  else if off = 0xA0 then capEnable (fput (fput s (fldSE_CAP_CTL_MODE k) (bitsOf v 30 30)) (fldSE_CAP_CTL_SYNC k) (bitsOf v 29 29)) k (bitsOf v 31 31 == 1)
  else if seWaits off then fset (pendWrite s a (seClamp k off v)) (fldSE_STAT_PARAM_PEND k)
  else plainWrite s a v

/-! ### Spindle (R284, R290) -/

/-- The ranges of the spindle block's fields. -/
def spnClamp (off v : Nat) : Nat :=
  if off = 0x10 then clampBits (clampBits v 23 16 5 255) 15 0 1000 5000
  else if off = 0x14 then clampBits v 20 16 1 31
  else if off = 0x20 then clampBits (clampBits v 31 16 1 1999) 15 0 1 1999
  else if off = 0x28 then clampBits (clampBits v 31 24 4 255) 15 0 120 1000
  else if off = 0x2C then clampBits (clampBits v 31 16 10 1000) 15 8 8 255
  else if off = 0x1C then
    let w := clampBits v 31 16 0 7200
    clampBits w 15 0 (Nat.min 600 (bitsOf w 31 16)) (bitsOf w 31 16)
  else v

/-- SPN_CTL: PA_EN; DIR_INV only in STOPPED; STOP wins over START. -/
def spnCtlWrite (s : State) (v : Nat) : State :=
  let s1 := fput s fldSPN_CTL_PA_EN (bitsOf v 8 8)
  let s2 :=
    if bitsOf v 4 4 = fget s fldSPN_CTL_DIR_INV then s1
    else if spnState s = 0 then fput s1 fldSPN_CTL_DIR_INV (bitsOf v 4 4)
    else fset s1 fldSPN_STAT_WR_DENIED
  if bitsOf v 1 1 = 1 then spnSettle (spnStop s2) else sif (bitsOf v 0 0 == 1) s2 spnStart

/-- A write of a spindle register. -/
def spnWrite (s : State) (off a v : Nat) : State :=
  let w := spnClamp off v
  let s0 := noteClamp s (w != v)
  if off = 0 then spnCtlWrite s v
  else if [0x0C, 0x10, 0x14, 0x28, 0x2C].contains off then
    if spnState s = 0 then plainWrite s0 a w else fset s fldSPN_STAT_WR_DENIED
  else if a = regSPN_SPEED then fset (pendWrite s0 a w) fldSPN_STAT_PARAM_PEND
  else if spnPeriodReg a then pendWrite s0 a w
  else plainWrite s0 a w

/-! ### Data district -/

/-- SWP_CTL and the scheduler's other registers (R331, R335, R344). -/
def swpWrite (s : State) (a v : Nat) : State :=
  if a = regSWP_CTL then
    let s1 := sif (bitsOf v 2 2 == 1) s sweepAbort
    let s2 := sif (bitsOf v 1 1 == 1) s1 sweepStop
    let s3 := sif (bitsOf v 0 0 == 1) s2 sweepStart
    sif (bitsOf v 3 3 == 1 && !(sweepRunning s)) s3 (fun t => if sweepRunning t then t else boundaryHeads (boundaryFields t))
  else if a = regSWP_SUBMIT_HI then sweepSubmit s (BitVec.ofNat 32 v)
  else if a = regSWP_HEAD_ONLINE then headOnlineSet s (bitsOf v 7 0)
  else if poolReg a then pendWrite s a (if a = regSWP_RDBUF_CNT ∨ a = regSWP_WRBUF_CNT then clampBits v 12 0 0 4096 else v)
  else plainWrite s a v

/-- The decoder block's registers (R165, R168). -/
def decWrite (s : State) (a v : Nat) : State :=
  if a = regDEC_CFG then fset (pendWrite s a (clampBits (clampBits v 23 20 4 8) 12 8 1 24)) fldDEC_STAT_PARAM_PEND
  else plainWrite s a v

/-- The tile-code block's registers (R165, R169). -/
def tcWrite (s : State) (a v : Nat) : State :=
  if a = regTC_CFG then fset (pendWrite s a (clampBits v 11 9 0 4)) fldTC_STAT_PARAM_PEND
  else plainWrite s a v

/-- The Arcade's registers (R377, R386, R388). -/
def arcWrite (s : State) (a v : Nat) : State :=
  if a = regARC_CTL then
    let s1 := fput s fldARC_CTL_CLEAN_VICT (bitsOf v 1 1)
    if bitsOf v 0 0 = 1 then arcEnable s1 else arcDisable s1
  else match (List.range 4).find? (fun i => a == regARC_PART i) with
    | some i => arcPartWrite s i (bitsOf v 15 0)
    | none => plainWrite s a v

/-- The staging-memory controller's global registers (R398, R415, R416, R419). -/
def dramWriteReg (s : State) (a v : Nat) : State :=
  if a = regDRAM_CFG then dramMapWrite s .cfg v
  else if a = regDRAM_IFMAP then dramMapWrite s .ifmap v
  else if a = regDRAM_CTL then
    let s1 := sif (bitsOf v 2 2 == 1) (plainWrite s a v) (fun t => fput t fldDRAM_STAT_RETRAIN_PEND 0xF)
    sif (bitsOf v 0 0 == 1) s1 dramInit
  else if a = regDRAM_RH then plainWrite s a (clampBits v 14 0 256 32767)
  else plainWrite s a v

/-- An interface's XOR masks, and its channels' remap entries (R398, R413, R420). -/
def dramnWrite (s : State) (a v : Nat) : State :=
  match ((List.finRange 2).flatMap (fun n => (List.finRange 6).map (fun k => (n, k)))).find? (fun p => a == regDRAMN_XORMAP p.1.val p.2.val) with
  | some (n, k) => dramMapWrite s (.xormap n k) v
  | none =>
    match ((List.range 4).flatMap (fun c => (List.range 8).map (fun i => (c, i)))).find? (fun p => a == regDCH_REMAP p.1 p.2) with
    | some (c, i) => if bitsOf v 31 31 = 1 then remapArmWrite s c i (bitsOf v 25 0) else remapDisarmWrite s c i (bitsOf v 25 0)
    | none => plainWrite s a v

/-! ### Control district -/

/-- A core is reset and held; its permits are released (R61, R367). -/
def coreResetOne (s : State) (k : Fin 4) : State :=
  let s1 := fputAt (permitsRelease s (1 + k.val)) fldPLZ_STAT_RUNNING k.val false
  { s1 with
    core := s1.core.set k Core.reset
    sq := { s1.sq with lost := s1.sq.lost.filter (fun c => c != .core k) } }

/-- A held core is released at its start address; a core that runs ignores it (R367), and one that has stopped on a double
exception waits for its reset (R365). -/
def coreRunOne (s : State) (k : Fin 4) : State :=
  if fbitAt s fldPLZ_STAT_RUNNING k.val || s.core[k].halted || inReset s then s
  else
    let start := fget s (fldPLZ_START_HI_ADDR k.val) * 2 ^ 32 + fget s (fldPLZ_START_LO_ADDR k.val) * 4
    fputAt { s with core := s.core.set k { s.core[k] with pc := BitVec.ofNat 64 start } } fldPLZ_STAT_RUNNING k.val true

/-- PLZ_CTL, L1_CTL and the start addresses (R367, R387, R389). -/
def plzWrite (s : State) (a v : Nat) : State :=
  if a = regPLZ_CTL then
    let s1 := forEach ((List.finRange 4).filter (fun k => (bitsOf v 7 4).testBit k.val)) s coreResetOne
    forEach ((List.finRange 4).filter (fun k => (bitsOf v 3 0).testBit k.val)) s1 coreRunOne
  else if a = regL1_CTL then
    forEach (List.finRange 4) s (fun t k =>
      let t1 := if v.testBit k.val then fputAt t fldL1_CTL_IEN k.val true else l1Disable t k .instr
      if v.testBit (4 + k.val) then fputAt t1 fldL1_CTL_DEN k.val true else l1Disable t1 k .data)
  else plainWrite s a v

/-- HOST_CTL.READY: after the island has let RDY go, READY that comes later sets WAKE_LATE (R426, R494). -/
def hostReady (s : State) (on : Bool) : State :=
  let s1 := showReady (fputB s fldHOST_CTL_READY on)
  if on && s1.sup.late then fset { s1 with sup := { s1.sup with late := false } } fldSUP_STAT_WAKE_LATE else s1

/-- The host-link block's registers (R434, R451, R502). -/
def hostWrite (s : State) (a v : Nat) : State :=
  if a = regHOST_CTL then
    let s1 := hostReady (fput s fldHOST_CTL_FETCH_EN (bitsOf v 1 1)) (bitsOf v 0 0 == 1)
    portEnable (portEnable s1 0 (bitsOf v 2 2 == 1)) 1 (bitsOf v 3 3 == 1)
  else if a = regHOST_CTX then plainWrite s a (clampBits v 12 0 1 4096)
  else if a = regHOST_CPL then hostCpl s (bitsOf v 11 0) (bitsOf v 30 16)
  else plainWrite s a v

/-! ### Power district -/

/-- SUP_CTL: the clears with VMOT as last measured, then the enables that change, then BOOST_CLR (R485 to R489). -/
def supCtlWrite (s : State) (v : Nat) : State :=
  let vmot := fget s fldSUP_MEAS_VMOT
  let s1 := sif (bitsOf v 6 6 == 1) s (fun t => chopClr t vmot)
  let s2 := sif (bitsOf v 7 7 == 1) s1 (fun t => latchClr t vmot)
  let s3 := sif (bitsOf v 2 2 != fget s2 fldSUP_CTL_GOV_EN) s2 (fun t => govEnable t (bitsOf v 2 2 == 1))
  let s4 := sif (bitsOf v 0 0 != fget s3 fldSUP_CTL_MBUS_EN) s3 (fun t => mbusEnable t (bitsOf v 0 0 == 1))
  let s5 := sif (bitsOf v 1 1 != fget s4 fldSUP_CTL_BOOST_EN) s4 (fun t => boostEnable t (bitsOf v 1 1 == 1))
  sif (bitsOf v 5 5 == 1) s5 boostClr

/-- The supply block's registers (R490, R496). -/
def supWrite (s : State) (agent : Agent) (a v : Nat) : State :=
  if a = regSUP_CTL then supCtlWrite s v
  else if a = regSUP_GOV then vmanShow (plainWrite s a (clampBits v 31 16 620 850))
  else if a = regSUP_GOV2 then plainWrite s a (clampBits v 31 16 620 750)
  else if a = regSUP_BUS then
    let w := clampBits v 31 16 14000 15000
    plainWrite s a (clampBits w 15 0 13600 (bitsOf w 31 16 - 200))
  else if a = regSUP_DORM then sif (bitsOf v 31 31 == 1) (plainWrite s a v) (fun t => dormEnter t agent 0)
  else plainWrite s a v

/-- The calibration unit's registers (R522, R530 to R533). -/
def calRegWrite (s : State) (a v : Nat) : State :=
  if a = regCAL_REC_CMD then sif (bitsOf v 0 0 == 1) (sif (bitsOf v 1 1 == 1) s calWrite) calRead
  else match (List.range 11).find? (fun b => a == regCALB_STAT b) with
    | some b => sif (bitsOf v 31 31 == 1) s (fun t => calPendAll t b)
    | none => plainWrite s a v

/-- The clock block's registers (R504 to R507, R512, R513). -/
def clkWrite (s : State) (agent : Agent) (a v : Nat) : State :=
  if a = regCLK_REF_SEL then refSwitch s (bitsOf v 0 0)
  else if a = regCLK_RELOCK then clkRelock s (bitsOf v 13 0)
  else if a = regCLK_OUT then permitCheck s 21 agent (fun t => clkoutSelect (fput t fldCLK_OUT_DIV (bitsOf v 15 8)) (bitsOf v 2 0))
  else plainWrite s a v

/-! ### Chip level -/

/-- The Square's registers (R542, R543, R547, R549). -/
def sqWrite (s : State) (agent : Agent) (a v : Nat) : State :=
  if a = regSQ_CFG then sif (bitsOf v 16 16 == 1) (plainWrite s a (clampBits v 31 28 2 15)) (fun t => fset t fldSQ_CFG_WD_EN)
  else if a = regSQ_KICK then sqKick s v
  else if a = regSQ_SAFE then safeReq s agent.id v
  else if a = regFM_ISOLATE then isolateHeads s (bitsOf v 7 0)
  else if a = regFM_REINSTATE then reinstateHeads s (bitsOf v 7 0) 0
  else plainWrite s a v

/-- RST_CTL (R555). -/
def rstRegWrite (s : State) (a v : Nat) : State :=
  if a = regRST_CTL then rstWrite s (rstAsked v) (bitsOf v 3 3 == 1) else plainWrite s a v

/-- PERMIT_n_REQ: a release, then a claim (R56, R57; the order of the two in one write is DESIGN CHOICE, log 91). -/
def permitWrite (s : State) (agent : Agent) (a v : Nat) : State :=
  let n := (a - 0x40002000) / 8
  if a % 8 = 4 then
    sif (bitsOf v 0 0 == 1) (sif (bitsOf v 1 1 == 1) s (fun t => permitRelease t agent.id n)) (fun t => permitClaim t agent.id n (bitsOf v 22 16))
  else plainWrite s a v

/-- The pin registers (R574 to R577, R584, R585). -/
def pinWrite (s : State) (agent : Agent) (a v : Nat) : State :=
  let off := a - pinBase
  if off < 0x40 then gpioFuncWrite s agent (off / 4) v
  else if off = 0x48 then gpioBits s agent (bitsOf v 15 0) fldGPIO_OE_EN true
  else if off = 0x4C then gpioBits s agent (bitsOf v 15 0) fldGPIO_OE_EN false
  else if off = 0x54 then gpioBits s agent (bitsOf v 15 0) fldGPIO_OUT_LEVEL true
  else if off = 0x58 then gpioBits s agent (bitsOf v 15 0) fldGPIO_OUT_LEVEL false
  else match (List.range 4).find? (fun k => a == regTMR_CFG k) with
    | some k => tmrCfgWrite s agent k v
    | none =>
      match (List.range 4).find? (fun k => a == regTMR_PWM k) with
      | some k => permitCheck s (16 + k) agent (fun t => plainWrite t a v)
      | none => plainWrite s a v

/-- The macro that the SRAM remap window acts on (R421). -/
def memrMacro (s : State) : Nat := fget s fldMEMR_SEL_INDEX

/-- The SRAM remap window. -/
def memrWrite (s : State) (a v : Nat) : State :=
  let m := memrMacro s
  if a = regMEMR_SEL then plainWrite s a v
  else if !(macroPresent s m) then s
  else
    let key := memrBase m + (a - memsBase)
    match (List.range 8).find? (fun i => key == regMEMR_REMAP m i) with
    | some i => if bitsOf v 31 31 = 1 then macroArmWrite s m i (bitsOf v 19 0) else macroDisarmWrite s m i (bitsOf v 19 0)
    | none => plainWrite s key v

/-- A read of the SRAM remap window; POISON of an entry shows what it holds. -/
def memrRead (s : State) (a : Nat) : Nat :=
  let m := memrMacro s
  let key := memrBase m + (a - memsBase)
  if !(macroPresent s m) then 0
  else match (List.range 8).find? (fun i => key == regMEMR_REMAP m i) with
    | some i => putBits (plainRead s key) 29 29 (if macroPoison s m i then 1 else 0)
    | none => plainRead s key

/-- PC_HIk: WRAP clears (R551). -/
def pcWrite (s : State) (a v : Nat) : State :=
  let k := (a - 0x40008000) / 8
  if a % 8 = 4 ∧ k < 518 ∧ bitsOf v 31 31 = 1 then { s with wraps := s.wraps.filter (· ≠ k) } else s

/-- A register write to the units that are placed by a base address alone. -/
def unitWrite (s : State) (agent : Agent) (a v : Nat) : State :=
  if 0x50000000 ≤ a then seRegWrite s (Fin.ofNat 10 ((a - 0x50000000) / 0x10000)) (a % 0x10000 - 0xF000) a v
  else if spnBase ≤ a ∧ a < spnBase + 0x100 then spnWrite s (a - spnBase) a v
  else if supBase ≤ a ∧ a < supBase + 0x100 then supWrite s agent a v
  else if calBase ≤ a ∧ a < calBase + 0x1000 then calRegWrite s a v
  else if clkBase ≤ a ∧ a < clkBase + 0x100 then clkWrite s agent a v
  else if a = clkrBase then rescueWrite s agent v
  else if swpBase ≤ a ∧ a < swpBase + 0x100 then swpWrite s a v
  else if decBase ≤ a ∧ a < decBase + 0x100 then decWrite s a v
  else if tcBase ≤ a ∧ a < tcBase + 0x100 then tcWrite s a v
  else if arcBase ≤ a ∧ a < arcBase + 0x100 then arcWrite s a v
  else if dramBase ≤ a ∧ a < dramBase + 0x100 then dramWriteReg s a v
  else if dramBase ≤ a ∧ a < dramBase + 0x4000 then dramnWrite s a v
  else if plzBase ≤ a ∧ a < plzBase + 0x1000 then plzWrite s a v
  else if hostBase ≤ a ∧ a < hostBase + 0x100 then hostWrite s a v
  else if sqBase ≤ a ∧ a < sqBase + 0x100 then sqWrite s agent a v
  else if rstBase ≤ a ∧ a < rstBase + 0x100 then rstRegWrite s a v
  else if 0x40002000 ≤ a ∧ a < 0x40002000 + 8 * 22 then permitWrite s agent a v
  else if memsBase ≤ a ∧ a < memsBase + 0x40 then memrWrite s a v
  else if pinBase ≤ a ∧ a < pinBase + 0x1000 then pinWrite s agent a v
  else if 0x40008000 ≤ a ∧ a < 0x40009100 then pcWrite s a v
  else plainWrite s a v

/-- A write of a register of device space that is present and not fenced. -/
def regWrite (s : State) (agent : Agent) (a v : Nat) : State :=
  match rbtIndexAt a with
  | some r =>
    if a % 0x10 = 0 then rbtConfigWrite s (Fin.ofNat 21 r) .cfg (BitVec.ofNat 32 v)
    else if a % 0x10 = 4 then rbtConfigWrite s (Fin.ofNat 21 r) .wgt0 (BitVec.ofNat 32 v)
    else if a % 0x10 = 8 then rbtConfigWrite s (Fin.ofNat 21 r) .wgt1 (BitVec.ofNat 32 v)
    else plainWrite s a v
  | none =>
    match fifoAt a with
    | some f =>
      if a = regFIFO_BASE_LO f then fifoConfigWrite s f .baseLo (BitVec.ofNat 32 v)
      else if a = regFIFO_BASE_HI f then fifoConfigWrite s f .baseHi (BitVec.ofNat 32 v)
      else if a = regFIFO_CFG f then fifoConfigWrite s f .cfg (BitVec.ofNat 32 v)
      else plainWrite s a v
    | none =>
      if 0xFC00 ≤ a % 0x10000 ∧ a < 0x50000000 then plainWrite s a v
      else match headAt a with
      | some (n, off) => headWrite s (Fin.ofNat 8 n) off a v
      | none => unitWrite s agent a v

/-! ### The host's side (R426, R427) -/

/-- A host writes a word of BAR0: endpoint registers, doorbells, MSI-X table; every other offset ignores it. -/
def hostBarWrite (s : State) (p : Port) (off v : Nat) : State :=
  let a := hbarBase p.val + off
  if !(portPresent s.variant p.val) then s
  else if off = 0x008 then ocfgWrite s p.val (bitsOf v 0 0 == 1)
  else if off < 0x1000 then (if fbit s (fldOCFG_EN p.val) then s else plainWrite s a v)
  else if off < 0x2000 then
    if off % 8 = 0 then tailDoorbell s p.val ((off - 0x1000) / 8) v else headDoorbell s p.val ((off - 0x1000) / 8) v
  else if 0x4000 ≤ off ∧ off < 0x4400 then msixWrite s p.val ((off - 0x4000) / 4) (BitVec.ofNat 32 v)
  else s

/-! ### Writes -/

/-- An agent writes bytes of normal memory; none is a bus error (R12, R369, R373). -/
def agentWrite (s : State) (agent : Agent) (a : Nat) (bs : List Byte) : Option State :=
  match agent with
  | .core p => coreWrite s p a bs
  | _ => memWrite s (agentClass agent) a bs

/-- A write over the bus of the bytes of one access: a register of device space takes a 32-bit word at a multiple of 4 only
(R10); an address with no register ignores it, one outside every range is a bus error (R12); an absent unit ignores it (R9); a
fenced cell's is a bus error (R541). -/
def busWrite (s : State) (agent : Agent) (a : Nat) (bs : List Byte) : State :=
  match regionOf a with
  | .device =>
    let v := leNat bs
    if bs.length ≠ 4 ∨ a % 4 ≠ 0 ∨ fencedAt s a then replyError s
    else if absentAt s.variant a then reply s .ok 0 []
    else if 0x50000000 ≤ a ∧ a % 0x10000 < 0x8000 then
      seWindowWrite s (Fin.ofNat 10 ((a - 0x50000000) / 0x10000)) (a % 0x10000) (BitVec.ofNat 32 v)
    else if 0x50000000 ≤ a ∧ a % 0x10000 < 0x8800 then
      seStateWrite s (Fin.ofNat 10 ((a - 0x50000000) / 0x10000)) ((a % 0x10000 - 0x8000) / 4) (BitVec.ofNat 32 v)
    else if 0x50000000 ≤ a ∧ a % 0x10000 < 0xF000 then reply s .ok 0 []
    else reply (regWrite s agent a v) .ok 0 []
  | _ =>
    match agentWrite s agent a bs with
    | some t => reply t .ok 0 []
    | none => replyError s

/-- Whether a write over the bus would end with a bus error. -/
def busWriteFails (s : State) (agent : Agent) (a : Nat) (bs : List Byte) : Bool :=
  (busWrite s agent a bs).lastReply.status == .busError

/-- REGISTER_WRITE.  A host's address is an offset in BAR0 of its port. -/
def registerWrite (s : State) (agent : Agent) (a : Nat) (w : Width) (v : Word) : State :=
  match agent with
  | .host p =>
    if w = .b4 ∧ a % 4 = 0 then reply (hostBarWrite s p a v.toNat) .ok 0 [] else replyError s
  | _ => busWrite s agent a (natLe w.bytes v.toNat)

def execRegisterWrite (agent : Agent) (addr : BitVec 40) (width : Width) (value : Word) (s : State) :
    Host.Outcome State Fault Refusal := .next (registerWrite s agent addr.toNat width value)

/-! ### Reads -/

/-- The counters whose WRAP is set, for PC_WRAPj (R551). -/
def wrapWord (s : State) (j : Nat) : Nat :=
  (List.range 32).foldl (fun acc n => if s.wraps.contains (32 * j + n) then acc + 2 ^ n else acc) 0

/-- A read of a counter register. -/
def pcRead (s : State) (agent : Agent) (a : Nat) : State × Nat :=
  let k := (a - 0x40008000) / 8
  if 518 ≤ k then (s, if 0x40009100 ≤ a ∧ a < 0x40009144 then wrapWord s ((a - 0x40009100) / 4) else 0)
  else if a % 8 = 0 then (counterLatch s agent.id k, (counter s k).toNat % 2 ^ 32)
  else
    let latch := ((aget? s.pcLatch (1024 * agent.id + k)).getD 0).toNat
    (s, (if s.wraps.contains k then 2 ^ 31 else 0) + latch / 2 ^ 32)

/-- The state and the value of a read of a register of device space. -/
def regRead (s : State) (agent : Agent) (a : Nat) : State × Nat :=
  match fifoAt a with
  | some f =>
    if a = regFIFO_POP f then
      match fifoPop s agent.id f with
      | (t, v, _) => (t, v.toNat)
    else (s, plainRead s a)
  | none =>
    match (List.finRange 5).find? (fun d => a == regPACE_RATE d.val || a == regPACE_STAT d.val) with
    | some d =>
      if a = regPACE_RATE d.val then (paceRateRead s d, (rd s a).toNat)
      else (s, putBits (plainRead s a) 31 16 (effTarget s d.val))
    | none =>
      match ((List.range 4).flatMap (fun c => (List.range 8).map (fun i => (c, i)))).find? (fun p => a == regDCH_REMAP p.1 p.2) with
      | some (c, i) =>
        (s, putBits (plainRead s a) 29 29 (if remapPoison s c i then 1 else 0))
      | none =>
        if a = regTB_TIME_LO then (timeLatch s agent.id, s.chipTime.toNat % 2 ^ 32)
        else if a = regTB_TIME_HI then (s, ((aget? s.tbLatch agent.id).getD 0).toNat / 2 ^ 32)
        else if 0x40008000 ≤ a ∧ a < 0x40009200 then pcRead s agent a
        else if memsBase < a ∧ a < memsBase + 0x40 then
          (s, memrRead s a)
        else (s, plainRead s a)

/-- A read over the bus of n bytes: the state, and the value with whether it was poisoned; none is a bus error. -/
def busRead (s : State) (agent : Agent) (a n : Nat) : State × Option (Nat × Bool) :=
  match regionOf a with
  | .device =>
    if n ≠ 4 ∨ a % 4 ≠ 0 ∨ fencedAt s a then (s, none)
    else if absentAt s.variant a then (s, some (0, false))
    else if 0x50000000 ≤ a ∧ a % 0x10000 < 0x8000 then
      match memRead s (agentClass agent) (imageBase s ((a - 0x50000000) / 0x10000) + a % 0x10000) 4 with
      | (t, some (bs, p)) => (t, some (leNat bs, p))
      | (t, none) => (t, none)
    else if 0x50000000 ≤ a ∧ a % 0x10000 < 0x8800 then
      (s, some (((aget? s.se[(Fin.ofNat 10 ((a - 0x50000000) / 0x10000))].smem ((a % 0x10000 - 0x8000) / 4)).getD 0).toNat, false))
    else
      match regRead s agent a with
      | (t, v) => (t, some (v, false))
  | _ =>
    match memRead s (agentClass agent) a n with
    | (t, some (bs, p)) => (t, some (leNat bs, p))
    | (t, none) => (t, none)

/-! ### JTAG DEBUG (R587) -/

/-- Update-DR of DEBUG: with GO one 32-bit access as agent 0x32; a bus error sets ERR. -/
def debugAccess (s : State) (go write : Bool) (a : Nat) (data : Word) : State :=
  if s.keyFused then jtagLoad s 0x3F
  else
    let s1 := jtagLoad s 8
    if !go then s1
    else if write then
      let t := busWrite s1 .jtag a (natLe 4 data.toNat)
      modPins t (fun p => { p with dbgErr := t.lastReply.status == .busError })
    else
      match busRead s1 .jtag a 4 with
      | (t, some (v, _)) => modPins (reply t .ok v (natLe 4 v)) (fun p => { p with dbgErr := false, dbgData := BitVec.ofNat 32 v })
      | (t, none) => modPins (replyError t) (fun p => { p with dbgErr := true })

/-- DEBUG_ACCESS. -/
def execDebugAccess (go write : Bool) (addr : BitVec 40) (data : Word) (s : State) : Host.Outcome State Fault Refusal :=
  .next (debugAccess s go write addr.toNat data)

end Machine
end Sys2Proof
end

