-- ==== Sys2Proof/Machine/Flags.lean ====
section
/-! DEFINITION. The arithmetic of the DX64 instructions (R352), and the bits of STATUS (R355). -/

namespace Sys2Proof
namespace Machine

/-! ### Arithmetic (R352) -/

/-- 1 for true, 0 for false. -/
def boolWord (b : Bool) : DWord := if b then 1 else 0

/-- The high 64 bits of the signed product. -/
def mulHigh (a b : DWord) : DWord := BitVec.ofInt 64 (a.toInt * b.toInt / 2 ^ 64)

/-- The high 64 bits of the unsigned product. -/
def mulHighU (a b : DWord) : DWord := BitVec.ofNat 64 (a.toNat * b.toNat / 2 ^ 64)

/-- The signed quotient, truncated toward zero; divisor 0 gives all ones; −2^63 / −1 wraps to −2^63. -/
def divSigned (a b : DWord) : DWord := if b = 0 then BitVec.allOnes 64 else BitVec.ofInt 64 (a.toInt.tdiv b.toInt)

/-- The unsigned quotient; divisor 0 gives all ones. -/
def divUnsigned (a b : DWord) : DWord := if b = 0 then BitVec.allOnes 64 else BitVec.ofNat 64 (a.toNat / b.toNat)

/-- The signed remainder, with the dividend's sign; divisor 0 gives the dividend. -/
def remSigned (a b : DWord) : DWord := if b = 0 then a else BitVec.ofInt 64 (a.toInt.tmod b.toInt)

/-- The unsigned remainder; divisor 0 gives the dividend. -/
def remUnsigned (a b : DWord) : DWord := if b = 0 then a else BitVec.ofNat 64 (a.toNat % b.toNat)

/-- The low 32 bits, sign-extended. -/
def sxWord (a : DWord) : DWord := (a.setWidth 32).signExtend 64

/-- Leading zeros, 0 to 64. -/
def leadingZeros (a : DWord) : Nat := ((List.range 64).find? (fun i => a.getLsbD (63 - i))).getD 64

/-- Bits [5:0] of a shift amount. -/
def shiftOf (a : DWord) : Nat := a.toNat % 64

/-! ### STATUS (R355) -/

def stIE (c : Core) : Bool := c.status.getLsbD 0
def stPIE (c : Core) : Bool := c.status.getLsbD 1
def stMode (c : Core) : Bool := c.status.getLsbD 2
def stPMode (c : Core) : Bool := c.status.getLsbD 3
def stEXL (c : Core) : Bool := c.status.getLsbD 4
def stUDEV (c : Core) : Bool := c.status.getLsbD 5

/-- STATUS from its fields; [63:6] read 0. -/
def statusWord (udev exl pmode mode pie ie : Bool) : DWord :=
  BitVec.ofNat 64 (32 * udev.toNat + 16 * exl.toNat + 8 * pmode.toNat + 4 * mode.toNat + 2 * pie.toNat + ie.toNat)

/-- STATUS on entry to a handler (R364). -/
def statusEnter (c : Core) : DWord := statusWord (stUDEV c) true (stMode c) true (stIE c) false

/-- STATUS after SRET (R364). -/
def statusReturn (c : Core) : DWord := statusWord (stUDEV c) false (stPMode c) (stPMode c) (stPIE c) (stPIE c)

end Machine
end Sys2Proof
end

