-- ==== Sys2Proof/Machine/Lines.lean ====
section
/-! DEFINITION. The 64 interrupt lines as a Plaza core sees them (R363, R354). -/

namespace Sys2Proof
namespace Machine

/-- Whether a status bit below a width reads 1 with its enable bit set. -/
def heldBy (s : State) (stat ien width : Nat) : Bool := ((rd s stat).toNat &&& (rd s ien).toNat) % 2 ^ width != 0

/-- Whether a control-class FIFO holds its line: NOTICE and NOTICE_IE (R340, R341). -/
def fifoHeld (s : State) (f : Nat) : Bool := fbit s (fldFIFO_STAT_NOTICE f) && fbit s (fldFIFO_IEN_NOTICE_IE f)

/-- The line of a head block: its four channels with SYNC_LOST, its write cell, its sled. -/
def headHeld (s : State) (n : Nat) : Bool :=
  (List.range 4).any (fun k =>
    heldBy s (regRC_STAT (4 * n + k)) (regRC_IEN (4 * n + k)) 9 ||
    (fbit s (fldRC_STAT_SYNC_LOST (4 * n + k)) && fbit s (fldRC_IEN_LOST_IE (4 * n + k)))) ||
  heldBy s (regWC_STAT n) (regWC_IEN n) 10 || heldBy s (regSLD_STAT n) (regSLD_IEN n) 11

/-- Whether the unit behind a line is absent on the variant: its bit of IE reads 0 and a WAIT on it raises UNIT_ABSENT. -/
def lineAbsent (v : Variant) (n : Nat) : Bool :=
  if 6 ≤ n ∧ n < 16 then !(enginePresent v (n - 6))
  else if 16 ≤ n ∧ n < 24 then !(headPresent v (n - 16))
  else if n = 27 ∨ n = 43 then !(archivePresent v)
  else if 28 ≤ n ∧ n < 36 then !(headPresent v (n - 28)) || !(writePresent v)
  else false

/-- Whether a line that is the same for every core is held by its source.  Line 49 has no source in the spec, and the notice of
FIFO 11 is taken to line 43 (DEDUCED, log 22). -/
def unitLine (s : State) (n : Nat) : Bool :=
  if n = 0 then fifoHeld s 13 || heldBy s regSQ_STAT regSQ_IEN 7
  else if n = 1 then (List.range 5).any (fun d => fbit s (fldPACE_STAT_COLLAPSE d))
  else if n = 2 then rd s regXING_EVT0 != 0 || rd s regXING_EVT1 != 0
  else if n = 3 then (List.range 21).any (fun r => fbit s (fldRBT_STAT_STALL r))
  else if n = 4 then heldBy s regSUP_STAT regSUP_IEN 11 || heldBy s regCAL_STAT regCAL_IEN 7
  else if n = 5 then heldBy s regSPN_STAT regSPN_IEN 13
  else if n < 16 then heldBy s (regSE_STAT (n - 6)) (regSE_IEN (n - 6)) 13
  else if n < 24 then headHeld s (n - 16)
  else if n = 24 then heldBy s regSWP_STAT regSWP_IEN 10
  else if n = 25 then fifoHeld s 9
  else if n = 26 then fifoHeld s 0
  else if n = 27 then fifoHeld s 10
  else if n < 36 then fifoHeld s (n - 27)
  else if n = 36 then heldBy s regDEC_STAT regDEC_IEN 5
  else if n = 37 then heldBy s regTC_STAT regTC_IEN 7
  else if n = 38 then heldBy s regDRAM_STAT regDRAM_IEN 11
  else if n = 39 then heldBy s regARC_STAT regARC_IEN 4
  else if n = 40 then heldBy s regCLK_STAT regCLK_IEN 7
  else if n = 41 then fifoHeld s 12
  else if n = 42 then heldBy s regHOST_STAT regHOST_IEN 8
  else if n = 43 then heldBy s regARV_STAT regARV_IEN 5 || fifoHeld s 11
  else if n = 44 then heldBy s regKEY_STAT regKEY_IEN 3
  else if n = 45 then (List.range 22).any (fun k => fbit s (fldPERMIT_DENIED k))
  else if n = 46 then heldBy s regKRB_STAT regKRB_IEN 4
  else if n = 47 then fbit s fldSMB_CFG_NACKED && fbit s fldSMB_CFG_IE
  else if n = 48 then heldBy s regGPIO_EVT regGPIO_IEN 20
  else false

/-- Whether a line is pending for a core: bit n of IP. -/
def linePending (s : State) (c : Core) (n : Nat) : Bool :=
  if lineAbsent s.variant n then false
  else if n < 50 then unitLine s n
  else if n = 50 then decide (c.timecmp.toNat ≤ s.chipTime.toNat)
  else if n = 51 then c.swint.getLsbD 0
  else if n < 56 then c.dbpend.getLsbD (n - 52)
  else false

/-- The lines below 64 that a mask names and that are pending, lowest first. -/
def pendingIn (s : State) (c : Core) (mask : DWord) : List Nat :=
  (List.range 64).filter (fun n => mask.getLsbD n && linePending s c n)

/-- IP. -/
def ipWord (s : State) (c : Core) : DWord :=
  BitVec.ofNat 64 ((pendingIn s c (BitVec.allOnes 64)).foldl (fun acc n => acc + 2 ^ n) 0)

/-- The lines of a mask whose units are absent. -/
def absentIn (v : Variant) (mask : DWord) : Bool := (List.range 64).any (fun n => mask.getLsbD n && lineAbsent v n)

/-- The interrupt that a core would take: the lowest enabled pending line, with IE 1 and EXL 0. -/
def deliverable (s : State) (c : Core) : Option Nat :=
  if stIE c && !(stEXL c) then (pendingIn s c c.ie).head? else none

end Machine
end Sys2Proof
end

