-- ==== Sys2Proof/Machine/Cores.lean ====
section
/-! DEFINITION. What every DX64 instruction shares: taking an exception or an interrupt and returning from one (R364 to R366),
fetch (R345, R353), issue and retirement (R347, R351), and the accesses to memory (R348 to R353, R357). -/

namespace Sys2Proof
namespace Machine

/-- An exception: its code and TVAL (R366). -/
abbrev DxExc := Nat × DWord

def excInstrMisaligned : Nat := 0x00
def excInstrBusError : Nat := 0x01
def excIllegal : Nat := 0x02
def excPrivileged : Nat := 0x03
def excBreakpoint : Nat := 0x04
def excAccess : Nat := 0x05
def excLoadMisaligned : Nat := 0x06
def excLoadBusError : Nat := 0x07
def excStoreMisaligned : Nat := 0x08
def excStoreBusError : Nat := 0x09
def excAtomicSpace : Nat := 0x0A
def excPoison : Nat := 0x0B
def excBadHandle : Nat := 0x0C
def excUnitAbsent : Nat := 0x0D
def excEcallUser : Nat := 0x0E
def excEcallSuper : Nat := 0x0F

/-! ### Entry and return (R364, R365) -/

/-- The registers of a core as it enters a handler. -/
def enterHandler (c : Core) (cause tval pc : DWord) : Core :=
  { c with
    epc := c.pc
    cause := cause
    tval := tval
    status := statusEnter c
    pc := pc
    resv := none
    wait := none }

/-- TVEC base: bits [63:8]. -/
def tvecBase (c : Core) : DWord := (c.tvec >>> 8) <<< 8

/-- A synchronous exception: entry at TVEC base, or, while EXL is 1, a double exception that stops the core. -/
def exceptionEntry (s : State) (p : Fin 4) (e : DxExc) : State :=
  if stEXL s.core[p] then coreHalt s p
  else modCore s p (fun c => enterHandler c (BitVec.ofNat 64 e.1) e.2 (tvecBase c))

/-- The address at which an interrupt enters. -/
def interruptVector (c : Core) (line : Nat) : DWord :=
  if c.tvec.getLsbD 0 then tvecBase c + BitVec.ofNat 64 (0x100 + 4 * line) else tvecBase c

/-- An interrupt is taken: CAUSE bit 63 with the line, TVAL 0, and the counter of R552. -/
def interruptEntry (s : State) (p : Fin 4) (line : Nat) : State :=
  count (modCore s p (fun c => enterHandler c (BitVec.ofNat 64 (2 ^ 63 + line)) 0 (interruptVector c line))) (381 + 3 * p.val + 2)

/-- SRET: IE = PIE, MODE = PMODE, EXL = 0, and the jump to EPC; the reservation is lost (R357, R364). -/
def sretCore (c : Core) : Core := { c with status := statusReturn c, pc := c.epc, resv := none }

/-! ### Issue and retirement (R347, R357) -/

/-- Whether a core issues instructions: it runs, out of reset, and waits in nothing. -/
def canIssue (s : State) (p : Fin 4) : Bool :=
  fbitAt s fldPLZ_STAT_RUNNING p.val && (s.core[p]).wait.isNone && !(inReset s)

/-- What an instruction ends in: a state, with the exception it met, if one. -/
abbrev DxEnd := State × Option DxExc

/-- The state after an instruction. -/
def dxFinish (p : Fin 4) (r : DxEnd) : State :=
  match r.2 with
  | none => r.1
  | some e => exceptionEntry r.1 p e

/-! ### User regions (R353, R356) -/

/-- Whether one enabled region grants an access of n bytes, for every right of a mask: bit 2 X, bit 1 W, bit 0 R. -/
def regionGrants (u : DWord) (rights a n : Nat) : Bool :=
  let size := clampNat (bitsOf u.toNat 59 54) 12 40
  let base := bitsOf u.toNat 39 12 * 0x1000 / 2 ^ size * 2 ^ size
  u.getLsbD 63 && bitsOf u.toNat 62 60 &&& rights == rights && decide (base ≤ a) && decide (a + n ≤ base + 2 ^ size)

/-- Whether a core may make an access: supervisor mode has no check. -/
def accessOk (c : Core) (rights a n : Nat) : Bool := stMode c || c.ureg.toList.any (fun u => regionGrants u rights a n)

/-! ### Fetch (R345, R350, R353, R371) -/

/-- The address of the ECC word that a poisoned read names: 64 bytes in staging memory, 8 in TCM (R348, R392). -/
def poisonAt (a : Nat) : Nat := if regionOf a = .tcm then a - a % 8 else eccWord a

/-- Fetch the word at the pc. -/
def fetch (s : State) (p : Fin 4) : State × Except DxExc Word :=
  let c := s.core[p]
  let a := c.pc.toNat % 2 ^ 40
  if a % 4 ≠ 0 then (s, .error (excInstrMisaligned, c.pc))
  else if !(normalOk s a 4 false) then (s, .error (excInstrBusError, BitVec.ofNat 64 a))
  else if !(accessOk c 4 a 4) then (s, .error (excAccess, BitVec.ofNat 64 a))
  else match l1Read s p .instr a 4 with
    | (t, some (bs, bad)) =>
      if bad then (t, .error (excPoison, BitVec.ofNat 64 (poisonAt a))) else (t, .ok (BitVec.ofNat 32 (leNat bs)))
    | (t, none) => (t, .error (excInstrBusError, BitVec.ofNat 64 a))

/-- The instructions refused in user mode: SRET, the CSR instructions and CMO; and POST, TAKE and WAIT unless UDEV is 1
(R346). -/
def dxPrivileged (c : Core) (op : Nat) : Bool :=
  !(stMode c) && ((decide (0x52 ≤ op) && decide (op ≤ 0x56)) || op == 0x64 ||
    (decide (0x60 ≤ op) && decide (op ≤ 0x62) && !(stUDEV c)))

/-- The CSRs that exist, and those that only CSRR may access (R354). -/
def csrListed (n : Nat) : Bool := decide (n ≤ 0x0B) || (decide (0x10 ≤ n) && decide (n ≤ 0x13))
def csrReadOnly (n : Nat) : Bool := n == 0x07 || n == 0x0B

/-- A legal word that is illegal for what it names: a CSR that is not listed or is written though RO (R354), or a set and way
with other bits than theirs (R383). -/
def dxIllegalUse (c : Core) (w : Word) : Bool :=
  let op := dxOp w
  let csr := bitsOf w.toNat 11 0
  let code := bitsOf w.toNat 3 0
  if op = 0x53 then !(csrListed csr)
  else if op = 0x54 ∨ op = 0x55 ∨ op = 0x56 then !(csrListed csr) || csrReadOnly csr
  else if op = 0x64 then (code == 7 || code == 8) && decide (2 ^ 16 ≤ (rs1 c w).toNat)
  else false

/-- A core issues the word at its pc, if that is the instruction that the command names and the core issues; another word is
another command's, and nothing happens.  An exception of the fetch, ILLEGAL_INSTR and PRIVILEGED come before the
instruction's own (R366). -/
def issue (s : State) (p : Fin 4) (mine : Core → Word → Bool) (run : State → Word → DxEnd) : State :=
  if !(canIssue s p) then s
  else match fetch s p with
    | (t, .error e) => exceptionEntry t p e
    | (t, .ok w) =>
      if !(mine s.core[p] w) then s
      else if !(dxLegal w) || dxIllegalUse s.core[p] w then exceptionEntry t p (excIllegal, w.setWidth 64)
      else if dxPrivileged s.core[p] (dxOp w) then exceptionEntry t p (excPrivileged, w.setWidth 64)
      else dxFinish p (run t w)

/-- The instruction of an opcode. -/
def dxIs (op : Nat) (_c : Core) (w : Word) : Bool := dxOp w == op

/-- An instruction that only writes rd. -/
def dxCompute (s : State) (p : Fin 4) (op : Nat) (f : Core → Word → DWord) : State :=
  issue s p (dxIs op) (fun t w => (retire t p (dxA w) (f t.core[p] w), none))

/-! ### Loads and stores (R348 to R350, R369) -/

/-- Whether an address lies in staging memory or TCM, where alignment is asked. -/
def alignedSpace (a : Nat) : Bool := regionOf a == .tcm || regionOf a == .staging

/-- A load of n bytes: the state after it, and the number read or the exception. -/
def dxLoad (s : State) (p : Fin 4) (addr : DWord) (n : Nat) : State × Except DxExc Nat :=
  let a := addr.toNat
  if !(accessOk s.core[p] 1 a n) then (s, .error (excAccess, addr))
  else if regionOf a = .device then
    match busRead s (.core p) a n with
    | (t, some (v, _)) => (t, .ok v)
    | (t, none) => (t, .error (excLoadBusError, addr))
  else if alignedSpace a && a % n != 0 then (s, .error (excLoadMisaligned, addr))
  else if !(normalOk s a n false) then (s, .error (excLoadBusError, addr))
  else match l1Read s p .data a n with
    | (t, some (bs, bad)) => (t, if bad then .error (excPoison, BitVec.ofNat 64 (poisonAt a)) else .ok (leNat bs))
    | (t, none) => (t, .error (excLoadBusError, addr))

/-- The exception that a store of n bytes meets before it acts, outside device space. -/
def storeCheck (s : State) (addr : DWord) (n align : Nat) : Option DxExc :=
  let a := addr.toNat
  if alignedSpace a && a % align != 0 then some (excStoreMisaligned, addr)
  else if !(normalOk s a n true) then some (excStoreBusError, addr)
  else none

/-- A store instruction of n bytes.  A store into device space retires once the target has acknowledged it (R349). -/
def dxStore (s : State) (p : Fin 4) (addr : DWord) (n : Nat) (v : DWord) : DxEnd :=
  let a := addr.toNat
  let bs := natLe n (v.toNat % 2 ^ (8 * n))
  if !(accessOk s.core[p] 2 a n) then (s, some (excAccess, addr))
  else if regionOf a = .device then
    if busWriteFails s (.core p) a bs then (s, some (excStoreBusError, addr))
    else (busWrite (retire s p 0 0) (.core p) a bs, none)
  else match storeCheck s addr n n with
    | some e => (s, some e)
    | none =>
      match coreWrite s p a bs with
      | some t => (retire t p 0 0, none)
      | none => (s, some (excStoreBusError, addr))

/-- A load instruction: its bytes become rd through a function. -/
def dxLoadInto (s : State) (p : Fin 4) (w : Word) (n : Nat) (f : Nat → DWord) : DxEnd :=
  match dxLoad s p (dxAddr s.core[p] w) n with
  | (t, .ok v) => (retire t p (dxA w) (f v), none)
  | (t, .error e) => (t, some e)

/-! ### Atomics (R357) -/

/-- Whether an atomic may act at an address: TCM or usable staging memory. -/
def atomicOk (s : State) (a : Nat) : Bool := normalOk s a 8 true

/-- The check of an atomic: ACCESS, the alignment, ATOMIC_SPACE, lowest code first.  An address outside TCM and staging
memory has no alignment. -/
def atomicCheck (s : State) (p : Fin 4) (addr : DWord) (misaligned : Nat) : Option DxExc :=
  let a := addr.toNat
  if !(accessOk s.core[p] 3 a 8) then some (excAccess, addr)
  else if alignedSpace a && a % 8 != 0 then some (misaligned, addr)
  else if !(atomicOk s a) then some (excAtomicSpace, addr)
  else none

/-- The doubleword that an atomic reads where it is serialised: at the TCM bank or the Arcade. -/
def atomicRead (s : State) (a : Nat) : State × Option (DWord × Bool) :=
  match memRead s 0 a 8 with
  | (t, some (bs, bad)) => (t, some (BitVec.ofNat 64 (leNat bs), bad))
  | (t, none) => (t, none)

/-- A read and a write of one doubleword, indivisibly: `f` gives the new value, or none to leave it, from the old. -/
def dxAmo (s : State) (p : Fin 4) (w : Word) (f : Core → DWord → Option DWord) : DxEnd :=
  let c := s.core[p]
  let addr := rs1 c w
  match atomicCheck s p addr excLoadMisaligned with
  | some e => (s, some e)
  | none =>
    match atomicRead s addr.toNat with
    | (t, none) => (t, some (excAtomicSpace, addr))
    | (t, some (_, true)) => (t, some (excPoison, BitVec.ofNat 64 (poisonAt addr.toNat)))
    | (t, some (old, false)) =>
      match f c old with
      | some new => (retire ((coreWrite t p addr.toNat (natLe 8 new.toNat)).getD t) p (dxA w) old, none)
      | none => (retire t p (dxA w) old, none)

end Machine
end Sys2Proof
end

