-- ==== Sys2Proof/Machine/CoreInstr.lean ====
section
/-! DEFINITION. The DX64 instructions that compute, load, store, branch and act on memory indivisibly (R352, R357 to R359),
each as the issue of the word at the core's pc. -/

namespace Sys2Proof
namespace Machine

/-! ### Arithmetic -/

/-- ADD: rs1 + rs2, wrapping. -/
def execAdd (p : CoreId) (s : State) : Host.Outcome State Fault Refusal :=
  .next (dxCompute s p 0x01 (fun c w => rs1 c w + rs2 c w))

/-- SUB: rs1 − rs2. -/
def execSub (p : CoreId) (s : State) : Host.Outcome State Fault Refusal :=
  .next (dxCompute s p 0x02 (fun c w => rs1 c w - rs2 c w))

/-- AND: bitwise AND. -/
def execAnd (p : CoreId) (s : State) : Host.Outcome State Fault Refusal :=
  .next (dxCompute s p 0x03 (fun c w => rs1 c w &&& rs2 c w))

/-- OR: bitwise OR. -/
def execOr (p : CoreId) (s : State) : Host.Outcome State Fault Refusal :=
  .next (dxCompute s p 0x04 (fun c w => rs1 c w ||| rs2 c w))

/-- XOR: bitwise XOR. -/
def execXor (p : CoreId) (s : State) : Host.Outcome State Fault Refusal :=
  .next (dxCompute s p 0x05 (fun c w => rs1 c w ^^^ rs2 c w))

/-- SLL: rs1 << rs2[5:0]. -/
def execSll (p : CoreId) (s : State) : Host.Outcome State Fault Refusal :=
  .next (dxCompute s p 0x06 (fun c w => rs1 c w <<< shiftOf (rs2 c w)))

/-- SRL: logical right shift by rs2[5:0]. -/
def execSrl (p : CoreId) (s : State) : Host.Outcome State Fault Refusal :=
  .next (dxCompute s p 0x07 (fun c w => rs1 c w >>> shiftOf (rs2 c w)))

/-- SRA: arithmetic right shift by rs2[5:0]. -/
def execSra (p : CoreId) (s : State) : Host.Outcome State Fault Refusal :=
  .next (dxCompute s p 0x08 (fun c w => (rs1 c w).sshiftRight (shiftOf (rs2 c w))))

/-- SLT: 1 if rs1 < rs2 signed, else 0. -/
def execSlt (p : CoreId) (s : State) : Host.Outcome State Fault Refusal :=
  .next (dxCompute s p 0x09 (fun c w => boolWord ((rs1 c w).slt (rs2 c w))))

/-- SLTU: 1 if rs1 < rs2 unsigned, else 0. -/
def execSltu (p : CoreId) (s : State) : Host.Outcome State Fault Refusal :=
  .next (dxCompute s p 0x0A (fun c w => boolWord ((rs1 c w).ult (rs2 c w))))

/-- MUL: the low 64 bits of the product. -/
def execMul (p : CoreId) (s : State) : Host.Outcome State Fault Refusal :=
  .next (dxCompute s p 0x0B (fun c w => rs1 c w * rs2 c w))

/-- MULH: the high 64 bits, signed × signed. -/
def execMulh (p : CoreId) (s : State) : Host.Outcome State Fault Refusal :=
  .next (dxCompute s p 0x0C (fun c w => mulHigh (rs1 c w) (rs2 c w)))

/-- MULHU: the high 64 bits, unsigned. -/
def execMulhu (p : CoreId) (s : State) : Host.Outcome State Fault Refusal :=
  .next (dxCompute s p 0x0D (fun c w => mulHighU (rs1 c w) (rs2 c w)))

/-- DIV: the signed quotient. -/
def execDiv (p : CoreId) (s : State) : Host.Outcome State Fault Refusal :=
  .next (dxCompute s p 0x0E (fun c w => divSigned (rs1 c w) (rs2 c w)))

/-- DIVU: the unsigned quotient. -/
def execDivu (p : CoreId) (s : State) : Host.Outcome State Fault Refusal :=
  .next (dxCompute s p 0x0F (fun c w => divUnsigned (rs1 c w) (rs2 c w)))

/-- REM: the signed remainder. -/
def execRem (p : CoreId) (s : State) : Host.Outcome State Fault Refusal :=
  .next (dxCompute s p 0x10 (fun c w => remSigned (rs1 c w) (rs2 c w)))

/-- REMU: the unsigned remainder. -/
def execRemu (p : CoreId) (s : State) : Host.Outcome State Fault Refusal :=
  .next (dxCompute s p 0x11 (fun c w => remUnsigned (rs1 c w) (rs2 c w)))

/-- ADDW: sx((rs1 + rs2)[31:0]). -/
def execAddw (p : CoreId) (s : State) : Host.Outcome State Fault Refusal :=
  .next (dxCompute s p 0x12 (fun c w => sxWord (rs1 c w + rs2 c w)))

/-- CLZ: leading zeros of rs1. -/
def execClz (p : CoreId) (s : State) : Host.Outcome State Fault Refusal :=
  .next (dxCompute s p 0x13 (fun c w => BitVec.ofNat 64 (leadingZeros (rs1 c w))))

/-- ADDI: rs1 + sx(IMM15). -/
def execAddi (p : CoreId) (s : State) : Host.Outcome State Fault Refusal :=
  .next (dxCompute s p 0x18 (fun c w => rs1 c w + dxImm15 w))

/-- ANDI: rs1 AND sx(IMM15). -/
def execAndi (p : CoreId) (s : State) : Host.Outcome State Fault Refusal :=
  .next (dxCompute s p 0x19 (fun c w => rs1 c w &&& dxImm15 w))

/-- ORI: rs1 OR sx(IMM15). -/
def execOri (p : CoreId) (s : State) : Host.Outcome State Fault Refusal :=
  .next (dxCompute s p 0x1A (fun c w => rs1 c w ||| dxImm15 w))

/-- XORI: rs1 XOR sx(IMM15). -/
def execXori (p : CoreId) (s : State) : Host.Outcome State Fault Refusal :=
  .next (dxCompute s p 0x1B (fun c w => rs1 c w ^^^ dxImm15 w))

/-- SLLI: rs1 << IMM15[5:0]. -/
def execSlli (p : CoreId) (s : State) : Host.Outcome State Fault Refusal :=
  .next (dxCompute s p 0x1C (fun c w => rs1 c w <<< bitsOf w.toNat 5 0))

/-- SRLI: logical right shift by IMM15[5:0]. -/
def execSrli (p : CoreId) (s : State) : Host.Outcome State Fault Refusal :=
  .next (dxCompute s p 0x1D (fun c w => rs1 c w >>> bitsOf w.toNat 5 0))

/-- SRAI: arithmetic right shift by IMM15[5:0]. -/
def execSrai (p : CoreId) (s : State) : Host.Outcome State Fault Refusal :=
  .next (dxCompute s p 0x1E (fun c w => (rs1 c w).sshiftRight (bitsOf w.toNat 5 0)))

/-- SLTI: signed compare with sx(IMM15). -/
def execSlti (p : CoreId) (s : State) : Host.Outcome State Fault Refusal :=
  .next (dxCompute s p 0x1F (fun c w => boolWord ((rs1 c w).slt (dxImm15 w))))

/-- SLTIU: unsigned compare with sx(IMM15). -/
def execSltiu (p : CoreId) (s : State) : Host.Outcome State Fault Refusal :=
  .next (dxCompute s p 0x20 (fun c w => boolWord ((rs1 c w).ult (dxImm15 w))))

/-- ADDIW: sx((rs1 + sx(IMM15))[31:0]). -/
def execAddiw (p : CoreId) (s : State) : Host.Outcome State Fault Refusal :=
  .next (dxCompute s p 0x21 (fun c w => sxWord (rs1 c w + dxImm15 w)))

/-- LUI: sx(IMM20) << 12. -/
def execLui (p : CoreId) (s : State) : Host.Outcome State Fault Refusal :=
  .next (dxCompute s p 0x24 (fun _ w => dxImm20 w <<< 12))

/-- AUIPC: PC + (sx(IMM20) << 12). -/
def execAuipc (p : CoreId) (s : State) : Host.Outcome State Fault Refusal :=
  .next (dxCompute s p 0x25 (fun c w => c.pc + (dxImm20 w <<< 12)))

/-! ### Loads and stores -/

/-- LB: a sign-extended byte. -/
def execLb (p : CoreId) (s : State) : Host.Outcome State Fault Refusal :=
  .next (issue s p (dxIs 0x28) (fun t w => dxLoadInto t p w 1 (fun v => (BitVec.ofNat 8 v).signExtend 64)))

/-- LBU: a zero-extended byte. -/
def execLbu (p : CoreId) (s : State) : Host.Outcome State Fault Refusal :=
  .next (issue s p (dxIs 0x29) (fun t w => dxLoadInto t p w 1 (BitVec.ofNat 64)))

/-- LH: two bytes, sign-extended. -/
def execLh (p : CoreId) (s : State) : Host.Outcome State Fault Refusal :=
  .next (issue s p (dxIs 0x2A) (fun t w => dxLoadInto t p w 2 (fun v => (BitVec.ofNat 16 v).signExtend 64)))

/-- LHU: two bytes, zero-extended. -/
def execLhu (p : CoreId) (s : State) : Host.Outcome State Fault Refusal :=
  .next (issue s p (dxIs 0x2B) (fun t w => dxLoadInto t p w 2 (BitVec.ofNat 64)))

/-- LW: four bytes, sign-extended; may address device space. -/
def execLw (p : CoreId) (s : State) : Host.Outcome State Fault Refusal :=
  .next (issue s p (dxIs 0x2C) (fun t w => dxLoadInto t p w 4 (fun v => (BitVec.ofNat 32 v).signExtend 64)))

/-- LWU: four bytes, zero-extended; may address device space. -/
def execLwu (p : CoreId) (s : State) : Host.Outcome State Fault Refusal :=
  .next (issue s p (dxIs 0x2D) (fun t w => dxLoadInto t p w 4 (BitVec.ofNat 64)))

/-- LD: eight bytes. -/
def execLd (p : CoreId) (s : State) : Host.Outcome State Fault Refusal :=
  .next (issue s p (dxIs 0x2E) (fun t w => dxLoadInto t p w 8 (BitVec.ofNat 64)))

/-- LDAQ: LD with acquire; a core that issues in order makes no later access before it (R358). -/
def execLdaq (p : CoreId) (s : State) : Host.Outcome State Fault Refusal :=
  .next (issue s p (dxIs 0x40) (fun t w => dxLoadInto t p w 8 (BitVec.ofNat 64)))

/-- SB: rs2[7:0]. -/
def execSb (p : CoreId) (s : State) : Host.Outcome State Fault Refusal :=
  .next (issue s p (dxIs 0x30) (fun t w => dxStore t p (dxAddr t.core[p] w) 1 (stSrc t.core[p] w)))

/-- SH: rs2[15:0]. -/
def execSh (p : CoreId) (s : State) : Host.Outcome State Fault Refusal :=
  .next (issue s p (dxIs 0x31) (fun t w => dxStore t p (dxAddr t.core[p] w) 2 (stSrc t.core[p] w)))

/-- SW: rs2[31:0]; may address device space. -/
def execSw (p : CoreId) (s : State) : Host.Outcome State Fault Refusal :=
  .next (issue s p (dxIs 0x32) (fun t w => dxStore t p (dxAddr t.core[p] w) 4 (stSrc t.core[p] w)))

/-- SD: rs2. -/
def execSd (p : CoreId) (s : State) : Host.Outcome State Fault Refusal :=
  .next (issue s p (dxIs 0x33) (fun t w => dxStore t p (dxAddr t.core[p] w) 8 (stSrc t.core[p] w)))

/-- STRL: SD with release; every earlier access of a core that issues in order is performed already (R358). -/
def execStrl (p : CoreId) (s : State) : Host.Outcome State Fault Refusal :=
  .next (issue s p (dxIs 0x41) (fun t w => dxStore t p (dxAddr t.core[p] w) 8 (stSrc t.core[p] w)))

/-! ### Branches and jumps -/

/-- A branch: to PC + 4 × sx(OFF15) if its condition holds, else on. -/
def dxBranch (s : State) (p : Fin 4) (op : Nat) (cond : DWord → DWord → Bool) : State :=
  issue s p (dxIs op) (fun t w =>
    let c := t.core[p]
    (retireAt t p (if cond (brA c w) (brB c w) then dxTarget c.pc (dxImm15 w) else c.pc + 4) id, none))

/-- BEQ: branch if equal. -/
def execBeq (p : CoreId) (s : State) : Host.Outcome State Fault Refusal :=
  .next (dxBranch s p 0x38 (fun a b => a == b))

/-- BNE: branch if not equal. -/
def execBne (p : CoreId) (s : State) : Host.Outcome State Fault Refusal :=
  .next (dxBranch s p 0x39 (fun a b => a != b))

/-- BLT: branch if less, signed. -/
def execBlt (p : CoreId) (s : State) : Host.Outcome State Fault Refusal :=
  .next (dxBranch s p 0x3A (fun a b => a.slt b))

/-- BGE: branch if greater or equal, signed. -/
def execBge (p : CoreId) (s : State) : Host.Outcome State Fault Refusal :=
  .next (dxBranch s p 0x3B (fun a b => !(a.slt b)))

/-- BLTU: branch if less, unsigned. -/
def execBltu (p : CoreId) (s : State) : Host.Outcome State Fault Refusal :=
  .next (dxBranch s p 0x3C (fun a b => a.ult b))

/-- BGEU: branch if greater or equal, unsigned. -/
def execBgeu (p : CoreId) (s : State) : Host.Outcome State Fault Refusal :=
  .next (dxBranch s p 0x3D (fun a b => !(a.ult b)))

/-- JAL: rd = PC + 4; jump to PC + 4 × sx(IMM20). -/
def execJal (p : CoreId) (s : State) : Host.Outcome State Fault Refusal :=
  .next (issue s p (dxIs 0x3E) (fun t w =>
    let pc := t.core[p].pc
    (retireAt t p (dxTarget pc (dxImm20 w)) (fun c => c.put (dxA w) (pc + 4)), none)))

/-- JALR: rd = PC + 4; jump to rs1 + sx(IMM15), which must be a multiple of 4. -/
def execJalr (p : CoreId) (s : State) : Host.Outcome State Fault Refusal :=
  .next (issue s p (dxIs 0x3F) (fun t w =>
    let pc := t.core[p].pc
    let target := dxAddr t.core[p] w
    if target.toNat % 4 ≠ 0 then (t, some (excInstrMisaligned, target))
    else (retireAt t p target (fun c => c.put (dxA w) (pc + 4)), none)))

/-! ### Atomics and order -/

/-- LR: LD and a reservation of the 64-byte line. -/
def execLr (p : CoreId) (s : State) : Host.Outcome State Fault Refusal :=
  .next (issue s p (dxIs 0x42) (fun t w =>
    let addr := rs1 t.core[p] w
    match atomicCheck t p addr excLoadMisaligned with
    | some e => (t, some e)
    | none =>
      match atomicRead t addr.toNat with
      | (u, none) => (u, some (excAtomicSpace, addr))
      | (u, some (_, true)) => (u, some (excPoison, BitVec.ofNat 64 (poisonAt addr.toNat)))
      | (u, some (v, false)) => (modCore (retire u p (dxA w) v) p (fun c => { c with resv := some (eccWord addr.toNat, 0) }), none)))

/-- Whether the reservation of a core holds the line of an address. -/
def resvHolds (c : Core) (a : Nat) : Bool := (c.resv.map (·.1)) == some (eccWord a)

/-- SC: the store happens if the reservation holds; rd is 0 then, 1 otherwise.  Its own store leaves the reservation (R357). -/
def execSc (p : CoreId) (s : State) : Host.Outcome State Fault Refusal :=
  .next (issue s p (dxIs 0x43) (fun t w =>
    let c := t.core[p]
    let addr := rs1 c w
    match atomicCheck t p addr excStoreMisaligned with
    | some e => (t, some e)
    | none =>
      if !(resvHolds c addr.toNat) then (retire t p (dxA w) 1, none)
      else match coreWrite t p addr.toNat (natLe 8 (rs2 c w).toNat) with
        | some u => (retire (modCore u p (fun d => { d with resv := c.resv })) p (dxA w) 0, none)
        | none => (t, some (excAtomicSpace, addr))))

/-- AMOADD: rd = mem; mem = rd + rs2. -/
def execAmoadd (p : CoreId) (s : State) : Host.Outcome State Fault Refusal :=
  .next (issue s p (dxIs 0x44) (fun t w => dxAmo t p w (fun c old => some (old + rs2 c w))))

/-- AMOSWAP: rd = mem; mem = rs2. -/
def execAmoswap (p : CoreId) (s : State) : Host.Outcome State Fault Refusal :=
  .next (issue s p (dxIs 0x45) (fun t w => dxAmo t p w (fun c _ => some (rs2 c w))))

/-- AMOAND: rd = mem; mem = rd AND rs2. -/
def execAmoand (p : CoreId) (s : State) : Host.Outcome State Fault Refusal :=
  .next (issue s p (dxIs 0x46) (fun t w => dxAmo t p w (fun c old => some (old &&& rs2 c w))))

/-- AMOOR: rd = mem; mem = rd OR rs2. -/
def execAmoor (p : CoreId) (s : State) : Host.Outcome State Fault Refusal :=
  .next (issue s p (dxIs 0x47) (fun t w => dxAmo t p w (fun c old => some (old ||| rs2 c w))))

/-- CAS: if mem equals rd, mem = rs2; rd = the old value in either case. -/
def execCas (p : CoreId) (s : State) : Host.Outcome State Fault Refusal :=
  .next (issue s p (dxIs 0x48) (fun t w => dxAmo t p w (fun c old => if old = c.get (dxA w) then some (rs2 c w) else none)))

/-- FENCE: with every access of a core performed as it issues, the selected earlier ones are performed already, and nothing is
fetched ahead (R359). -/
def execFence (p : CoreId) (s : State) : Host.Outcome State Fault Refusal :=
  .next (issue s p (dxIs 0x49) (fun t _ => (retire t p 0 0, none)))

end Machine
end Sys2Proof
end

