-- ==== Sys2Proof/Machine/CoreSys.lean ====
section
/-! DEFINITION. The DX64 instructions that act on the core itself, its CSRs, the Crossings, the FIFOs and the caches (R354,
R360 to R364, R383), the interrupt entry (R364) and the control of the cores (R367). -/

namespace Sys2Proof
namespace Machine

/-! ### Exceptions by intent, and the return -/

/-- ECALL. -/
def execEcall (p : CoreId) (s : State) : Host.Outcome State Fault Refusal :=
  .next (issue s p (dxIs 0x50) (fun t _ => (t, some (if stMode t.core[p] then excEcallSuper else excEcallUser, 0))))

/-- EBREAK: TVAL is the PC. -/
def execEbreak (p : CoreId) (s : State) : Host.Outcome State Fault Refusal :=
  .next (issue s p (dxIs 0x51) (fun t _ => (t, some (excBreakpoint, t.core[p].pc))))

/-- SRET. -/
def execSret (p : CoreId) (s : State) : Host.Outcome State Fault Refusal :=
  .next (issue s p (dxIs 0x52) (fun t _ => (modCore (retire t p 0 0) p sretCore, none)))

/-- ILLEGAL_INSTR: the word at the pc is no instruction; the exception, with the word in TVAL. -/
def execIllegalInstr (p : CoreId) (s : State) : Host.Outcome State Fault Refusal :=
  .next (issue s p (fun _ w => !(dxLegal w)) (fun t w => (t, some (excIllegal, w.setWidth 64))))

/-! ### Control registers (R354 to R356) -/

/-- The bits of IE that exist: those of present lines. -/
def ieMask (v : Variant) : DWord :=
  BitVec.ofNat 64 (((List.range 64).filter (fun n => !(lineAbsent v n))).foldl (fun acc n => acc + 2 ^ n) 0)

/-- A region register as it is stored: SIZE_LOG2 within 12 and 40, reserved bits 0 (R356). -/
def uregValue (v : DWord) : DWord :=
  BitVec.ofNat 64 (bitsOf v.toNat 63 60 * 2 ^ 60 + clampNat (bitsOf v.toNat 59 54) 12 40 * 2 ^ 54 + bitsOf v.toNat 39 12 * 2 ^ 12)

/-- A CSR as CSRR reads it. -/
def csrRead (s : State) (p : Fin 4) (n : Nat) : DWord :=
  let c := s.core[p]
  match n with
  | 0x00 => c.status
  | 0x01 => c.tvec
  | 0x02 => c.epc
  | 0x03 => c.cause
  | 0x04 => c.tval
  | 0x05 => c.scratch
  | 0x06 => c.ie
  | 0x07 => ipWord s c
  | 0x08 => c.dbpend
  | 0x09 => c.timecmp
  | 0x0A => c.swint
  | 0x0B => BitVec.ofNat 64 (p.val * 64 + 1 + p.val)
  | 0x10 => c.ureg[0]
  | 0x11 => c.ureg[1]
  | 0x12 => c.ureg[2]
  | 0x13 => c.ureg[3]
  | _ => 0

/-- A CSR takes a value.  DBPEND changes only by CSRW. -/
def csrPut (v : Variant) (n : Nat) (x : DWord) (c : Core) : Core :=
  match n with
  | 0x00 => { c with status := x &&& 0x3F }
  | 0x01 => { c with tvec := x &&& 0xFFFFFFFFFFFFFF01 }
  | 0x02 => { c with epc := x }
  | 0x03 => { c with cause := x &&& 0x800000000000003F }
  | 0x04 => { c with tval := x }
  | 0x05 => { c with scratch := x }
  | 0x06 => { c with ie := x &&& ieMask v }
  | 0x09 => { c with timecmp := x }
  | 0x0A => { c with swint := x &&& 1 }
  | 0x10 => { c with ureg := c.ureg.set 0 (uregValue x) }
  | 0x11 => { c with ureg := c.ureg.set 1 (uregValue x) }
  | 0x12 => { c with ureg := c.ureg.set 2 (uregValue x) }
  | 0x13 => { c with ureg := c.ureg.set 3 (uregValue x) }
  | _ => c

/-- A CSR instruction: rd is the old value; the core changes as the instruction says, from the CSR's number, its old value and
rs1. -/
def dxCsr (s : State) (p : Fin 4) (op : Nat) (f : Nat → DWord → DWord → Core → Core) : State :=
  issue s p (dxIs op) (fun t w =>
    let n := bitsOf w.toNat 11 0
    let old := csrRead t p n
    let x := rs1 t.core[p] w
    (modCore (retire t p (dxA w) old) p (f n old x), none))

/-- CSRR. -/
def execCsrr (p : CoreId) (s : State) : Host.Outcome State Fault Refusal :=
  .next (dxCsr s p 0x53 (fun _ _ _ c => c))

/-- CSRW: CSR = rs1; for DBPEND the bits written as 1 clear. -/
def execCsrw (p : CoreId) (s : State) : Host.Outcome State Fault Refusal :=
  .next (dxCsr s p 0x54 (fun n _ x c => if n = 0x08 then { c with dbpend := c.dbpend &&& ~~~x } else csrPut s.variant n x c))

/-- CSRS: the bits set in rs1 are set. -/
def execCsrs (p : CoreId) (s : State) : Host.Outcome State Fault Refusal :=
  .next (dxCsr s p 0x55 (fun n old x c => csrPut s.variant n (old ||| x) c))

/-- CSRC: the bits set in rs1 are cleared. -/
def execCsrc (p : CoreId) (s : State) : Host.Outcome State Fault Refusal :=
  .next (dxCsr s p 0x56 (fun n old x c => csrPut s.variant n (old &&& ~~~x) c))

/-- RDTIME: rd = chip time. -/
def execRdtime (p : CoreId) (s : State) : Host.Outcome State Fault Refusal :=
  .next (issue s p (dxIs 0x63) (fun t w => (retire t p (dxA w) t.chipTime, none)))

/-! ### POST (R360) -/

/-- What a handle names: a Crossing's mailbox or a core. -/
inductive PostTarget where
  | xing (x : Fin 52)
  | core (k : Fin 4)
deriving DecidableEq, Repr

/-- The target of a handle; none for any other handle. -/
def postTarget (h : DWord) : Option PostTarget :=
  let cls := bitsOf h.toNat 15 12
  let idx := bitsOf h.toNat 11 0
  if bitsOf h.toNat 63 16 ≠ 0 then none
  else if cls = 1 ∧ ([36, 37, 42, 43, 44, 50] : List Nat).contains idx then some (.xing (Fin.ofNat 52 idx))
  else if cls = 3 ∧ idx < 4 then some (.core (Fin.ofNat 4 idx))
  else none

/-- The permit that guards a Crossing's resource for a word (R54, R575). -/
def postPermit (x : Nat) (v : DWord) : Option Nat :=
  if x = 42 then some 20 else if x = 50 then some (16 + bitsOf v.toNat 63 62) else none

/-- Whether every field of a word is in range (R424, R575). -/
def postFieldsOk (x : Nat) (v : DWord) : Bool :=
  let n := v.toNat
  if x = 36 ∨ x = 37 then decide (n < 2)
  else if x = 42 then decide (bitsOf n 28 16 ≤ 4096) && decide (8 * bitsOf n 15 0 + bitsOf n 28 16 ≤ 0x80000)
  else if x = 43 then decide (15 ≤ bitsOf n 21 16)
  else true

/-- What a word does at the unit behind its Crossing. -/
def postEffect (s : State) (x : Nat) (v : DWord) : State :=
  let n := v.toNat
  if x = 36 ∨ x = 37 then attach s (x - 36) (n % 2 == 1)
  else if x = 42 then flashStart s n
  else if x = 43 then wr s (regKRB_SW (bitsOf n 21 16 - 15)) (BitVec.ofNat 32 (n % 2 ^ 16))
  else if x = 44 then { s with pins := { s.pins with alert := n % 2 == 1 } }
  else if x = 50 then wr s (regTMR_PWM (bitsOf n 63 62)) (BitVec.ofNat 32 (bitsOf n 47 32 * 2 ^ 16 + bitsOf n 15 0))
  else s

/-- A word reaches its target, or the status says why not: CROSSING_RESET, PERMIT_DENIED, INVALID_FIELD. -/
def postStatus (s : State) (p : Fin 4) (x : Fin 52) (v : DWord) : Nat :=
  if !(xingArmed s x) then stCrossingReset
  else match postPermit x.val v with
    | some n =>
      if permitOwner s n ≠ 1 + p.val then stPermitDenied
      else if postFieldsOk x.val v then stSuccess else stInvalidField
    | none => if postFieldsOk x.val v then stSuccess else stInvalidField

/-- A refusal for want of a permit shows in the permit (R59). -/
def postDeny (s : State) (p : Fin 4) (x : Fin 52) (v : DWord) (status : Nat) : State :=
  match postPermit x.val v with
  | some n => if status = stPermitDenied then permitDeny s n (1 + p.val) else s
  | none => s

/-- A POST to a Crossing: with the flash controller busy, its mailbox is full and the POST waits (R360, R575). -/
def postXing (s : State) (p : Fin 4) (x : Fin 52) (v : DWord) (rdNum : Nat) : State :=
  let status := postStatus s p x v
  if status ≠ stSuccess then postEnd (postDeny s p x v status) p rdNum status
  else if x.val = 42 ∧ fbit s fldSPI_STAT_BUSY then modCore s p (fun c => { c with wait := some (.post x.val v rdNum) })
  else postEnd (postEffect s x.val v) p rdNum stSuccess

/-- The POST of a row of the table: it acts on the word at the pc when its handle names one of the row's targets, or no target
at all. -/
def dxPost (s : State) (p : Fin 4) (row : PostTarget → Bool) : State :=
  issue s p
    (fun c w => dxOp w == 0x60 && (match postTarget (rs1 c w) with
      | some g => row g
      | none => true))
    (fun t w =>
      let h := rs1 t.core[p] w
      let v := rs2 t.core[p] w
      match postTarget h with
      | none => (t, some (excBadHandle, h))
      | some (.core k) =>
        (postEnd (modCore t k (fun c => { c with dbpend := c.dbpend ||| BitVec.ofNat 64 (2 ^ p.val) })) p (dxA w) stSuccess, none)
      | some (.xing x) =>
        if !(xingPresent t.variant x.val) then (t, some (excUnitAbsent, h)) else (postXing t p x v (dxA w), none))

/-- Whether a target is one of some Crossings. -/
def isXing (l : List Nat) : PostTarget → Bool
  | .xing x => l.contains x.val
  | .core _ => false

/-- Whether a target is a core. -/
def isCore : PostTarget → Bool
  | .xing _ => false
  | .core _ => true

/-- POST_DOORBELL. -/
def execPostDoorbell (p : CoreId) (s : State) : Host.Outcome State Fault Refusal := .next (dxPost s p isCore)

/-- POST_USB2_ATTACH. -/
def execPostUsb2Attach (p : CoreId) (s : State) : Host.Outcome State Fault Refusal := .next (dxPost s p (isXing [36, 37]))

/-- POST_FLASH. -/
def execPostFlash (p : CoreId) (s : State) : Host.Outcome State Fault Refusal := .next (dxPost s p (isXing [42]))

/-- POST_KERB_WORD. -/
def execPostKerbWord (p : CoreId) (s : State) : Host.Outcome State Fault Refusal := .next (dxPost s p (isXing [43]))

/-- POST_SMBUS_ALERT. -/
def execPostSmbusAlert (p : CoreId) (s : State) : Host.Outcome State Fault Refusal := .next (dxPost s p (isXing [44]))

/-- POST_TIMER_PWM. -/
def execPostTimerPwm (p : CoreId) (s : State) : Host.Outcome State Fault Refusal := .next (dxPost s p (isXing [50]))

/-- POST_ACCEPTED: a waiting POST delivers once its mailbox has room; a Crossing that is no longer ARMED ends it with
CROSSING_RESET. -/
def execPostAccepted (p : CoreId) (s : State) : Host.Outcome State Fault Refusal :=
  .next (match (s.core[p]).wait with
    | some (.post x v rdNum) =>
      if inReset s then s
      else postXing (modCore s p (fun c => { c with wait := none })) p (Fin.ofNat 52 x) v rdNum
    | _ => s)

/-! ### TAKE (R361) -/

/-- The FIFO whose register base is an address. -/
def fifoOfBase (a : Nat) : Option (Fin 14) := (List.finRange 14).find? (fun f => fifoBase f.val == a)

/-- TAKE. -/
def execTake (p : CoreId) (s : State) : Host.Outcome State Fault Refusal :=
  .next (issue s p (dxIs 0x61) (fun t w =>
    let h := rs1 t.core[p] w
    let addr := rs2 t.core[p] w
    if !(accessOk t.core[p] 2 addr.toNat 32) then (t, some (excAccess, addr))
    else match storeCheck t addr 32 8 with
    | some e => (t, some e)
    | none =>
      match fifoOfBase h.toNat with
      | none => (t, some (excBadHandle, h))
      | some f =>
        if absentAt t.variant (fifoBase f.val) then (t, some (excUnitAbsent, h))
        else match fifoPop t (1 + p.val) f with
          | (u, v, some r) => (retire ((coreWrite u p addr.toNat (recordBytes r)).getD u) p (dxA w) (v.setWidth 64), none)
          | (u, v, none) => (retire u p (dxA w) (v.setWidth 64), none)))

/-! ### WAIT (R362) -/

/-- WAIT: it returns at once for a pending masked line or a deadline that has passed; else the core waits. -/
def execWait (p : CoreId) (s : State) : Host.Outcome State Fault Refusal :=
  .next (issue s p (dxIs 0x62) (fun t w =>
    let c := t.core[p]
    let mask := rs1 c w
    let deadline := rs2 c w
    if absentIn t.variant mask then (t, some (excUnitAbsent, mask))
    else match (pendingIn t c mask).head? with
      | some n => (retire t p (dxA w) (BitVec.ofNat 64 n), none)
      | none =>
        if deadline ≠ 0 ∧ deadline.toNat ≤ t.chipTime.toNat then (retire t p (dxA w) 64, none)
        else (modCore t p (fun c => { c with wait := some (.line mask deadline (dxA w)) }), none)))

/-- Chip time reaches a time. -/
def timeTo (s : State) (t : DWord) : State := if s.chipTime.toNat < t.toNat then { s with chipTime := t } else s

/-- WAIT_WAKE: a masked line has become pending, or the deadline passes. -/
def execWaitWake (p : CoreId) (s : State) : Host.Outcome State Fault Refusal :=
  .next (match (s.core[p]).wait with
    | some (.line mask deadline rdNum) =>
      let woken (t : State) : State := modCore t p (fun c => { c with wait := none })
      if inReset s then s
      else match (pendingIn s s.core[p] mask).head? with
        | some n => retire (woken s) p rdNum (BitVec.ofNat 64 n)
        | none => if deadline = 0 then s else retire (woken (timeTo s deadline)) p rdNum 64
    | _ => s)

/-! ### Interrupts and time -/

/-- INTERRUPT_ENTRY: the lowest deliverable line; a waiting POST or WAIT is abandoned (R363, R364). -/
def execInterruptEntry (p : CoreId) (s : State) : Host.Outcome State Fault Refusal :=
  .next (
    if !(fbitAt s fldPLZ_STAT_RUNNING p.val) || inReset s then s
    else match deliverable s s.core[p] with
      | some n => interruptEntry s p n
      | none => s)

/-- RESERVATION_EXPIRE: 128 steps have passed since the LR. -/
def execReservationExpire (p : CoreId) (s : State) : Host.Outcome State Fault Refusal :=
  .next (modCore s p (fun c => { c with resv := none }))

/-- TIMECMP_REACHED: chip time reaches TIMECMP; line 50 is pending from then on. -/
def execTimecmpReached (p : CoreId) (s : State) : Host.Outcome State Fault Refusal :=
  .next (timeTo s s.core[p].timecmp)

/-! ### Core control (R367) -/

/-- CORE_RESET_CMD. -/
def execCoreResetCmd (_agent : Agent) (p : CoreId) (s : State) : Host.Outcome State Fault Refusal :=
  .next (reply (coreResetOne s p) .ok 0 [])

/-- CORE_RUN. -/
def execCoreRun (_agent : Agent) (p : CoreId) (s : State) : Host.Outcome State Fault Refusal :=
  .next (reply (coreRunOne s p) .ok 0 [])

/-! ### Cache maintenance (R383, R384) -/

/-- A CMO of one code: its effect, from the core's rs1, then it retires. -/
def dxCmo (s : State) (p : Fin 4) (code : Nat) (f : State → DWord → State) : State :=
  issue s p (fun _ w => dxOp w == 0x64 && bitsOf w.toNat 3 0 == code) (fun t w =>
    (count (retire (f t (rs1 t.core[p] w)) p 0 0) 420, none))

/-- L1I_INV_A. -/
def execL1iInvA (p : CoreId) (s : State) : Host.Outcome State Fault Refusal :=
  .next (dxCmo s p 0 (fun t x => cmoL1Addr t .instr x.toNat))

/-- L1I_INV_ALL. -/
def execL1iInvAll (p : CoreId) (s : State) : Host.Outcome State Fault Refusal :=
  .next (dxCmo s p 1 (fun t _ => cmoL1All t p .instr))

/-- L1D_INV_A. -/
def execL1dInvA (p : CoreId) (s : State) : Host.Outcome State Fault Refusal :=
  .next (dxCmo s p 2 (fun t x => cmoL1Addr t .data x.toNat))

/-- L1D_INV_ALL. -/
def execL1dInvAll (p : CoreId) (s : State) : Host.Outcome State Fault Refusal :=
  .next (dxCmo s p 3 (fun t _ => cmoL1All t p .data))

/-- ARC_CLEAN_A. -/
def execArcCleanA (p : CoreId) (s : State) : Host.Outcome State Fault Refusal :=
  .next (dxCmo s p 4 (fun t x => cmoArcClean t x.toNat))

/-- ARC_INV_A. -/
def execArcInvA (p : CoreId) (s : State) : Host.Outcome State Fault Refusal :=
  .next (dxCmo s p 5 (fun t x => cmoArcInv t x.toNat))

/-- ARC_FLUSH_A. -/
def execArcFlushA (p : CoreId) (s : State) : Host.Outcome State Fault Refusal :=
  .next (dxCmo s p 6 (fun t x => cmoArcFlush t x.toNat))

/-- ARC_CLEAN_SW. -/
def execArcCleanSw (p : CoreId) (s : State) : Host.Outcome State Fault Refusal :=
  .next (dxCmo s p 7 (fun t x => cmoArcCleanSw t x.toNat))

/-- ARC_FLUSH_SW. -/
def execArcFlushSw (p : CoreId) (s : State) : Host.Outcome State Fault Refusal :=
  .next (dxCmo s p 8 (fun t x => cmoArcFlushSw t x.toNat))

/-- ARC_FETCH_A. -/
def execArcFetchA (p : CoreId) (s : State) : Host.Outcome State Fault Refusal :=
  .next (dxCmo s p 9 (fun t x => cmoArcFetch t x.toNat))

end Machine
end Sys2Proof
end

