-- ==== Sys2Proof/Machine/Dispatch.lean ====
section
/-! DEFINITION. The meaning of every command, one arm per constructor, each one direct call. -/

namespace Sys2Proof
namespace Machine

def exec (i : Instr) (s : State) : Host.Outcome State Fault Refusal :=
  match i with
  | .registerWrite agent addr width value => Sys2Proof.Machine.execRegisterWrite agent addr width value s
  | .paceRateRead agent d => Sys2Proof.Machine.execPaceRateRead agent d s
  | .fabricTransfer src dst hops payload => Sys2Proof.Machine.execFabricTransfer src dst hops payload s
  | .roundaboutGrant r arrivals => Sys2Proof.Machine.execRoundaboutGrant r arrivals s
  | .rbtConfigWrite agent r reg value => Sys2Proof.Machine.execRbtConfigWrite agent r reg value s
  | .roundaboutStall r port target => Sys2Proof.Machine.execRoundaboutStall r port target s
  | .crossingRequest x side tag awaits => Sys2Proof.Machine.execCrossingRequest x side tag awaits s
  | .crossingResetAssert x side => Sys2Proof.Machine.execCrossingResetAssert x side s
  | .clockGoodFall x => Sys2Proof.Machine.execClockGoodFall x s
  | .clockGoodRise x => Sys2Proof.Machine.execClockGoodRise x s
  | .crossingAbortDelivered x => Sys2Proof.Machine.execCrossingAbortDelivered x s
  | .crossingResetRelease x side => Sys2Proof.Machine.execCrossingResetRelease x side s
  | .crossingSideReady x side => Sys2Proof.Machine.execCrossingSideReady x side s
  | .paceWindowClose rates vcore => Sys2Proof.Machine.execPaceWindowClose rates vcore s
  | .permitClaim agent n feature => Sys2Proof.Machine.execPermitClaim agent n feature s
  | .permitRelease agent n => Sys2Proof.Machine.execPermitRelease agent n s
  | .rcEnableWrite agent c on => Sys2Proof.Machine.execRcEnableWrite agent c on s
  | .rfSampleGroup n b0 b1 b2 b3 err => Sys2Proof.Machine.execRfSampleGroup n b0 b1 b2 b3 err s
  | .wedgePass c w => Sys2Proof.Machine.execWedgePass c w s
  | .fineEstimate side head spot => Sys2Proof.Machine.execFineEstimate side head spot s
  | .sync1WindowOpen c => Sys2Proof.Machine.execSync1WindowOpen c s
  | .sync1Match c ofs => Sys2Proof.Machine.execSync1Match c ofs s
  | .sync1WindowEnd c => Sys2Proof.Machine.execSync1WindowEnd c s
  | .sync2WindowOpen c => Sys2Proof.Machine.execSync2WindowOpen c s
  | .sync2WindowEnd n spot => Sys2Proof.Machine.execSync2WindowEnd n spot s
  | .packetComplete c => Sys2Proof.Machine.execPacketComplete c s
  | .sliceAssign c => Sys2Proof.Machine.execSliceAssign c s
  | .sliceBufferFreed n => Sys2Proof.Machine.execSliceBufferFreed n s
  | .decodeStart n => Sys2Proof.Machine.execDecodeStart n s
  | .sectorDecodeDone n => Sys2Proof.Machine.execSectorDecodeDone n s
  | .tileResultsComplete t => Sys2Proof.Machine.execTileResultsComplete t s
  | .tileDecodeDone t => Sys2Proof.Machine.execTileDecodeDone t s
  | .tilePoisonRestart t sector => Sys2Proof.Machine.execTilePoisonRestart t sector s
  | .spanDecodeStart id => Sys2Proof.Machine.execSpanDecodeStart id s
  | .spanDecodeDone id => Sys2Proof.Machine.execSpanDecodeDone id s
  | .spanPoison id member index => Sys2Proof.Machine.execSpanPoison id member index s
  | .encoderPacket n => Sys2Proof.Machine.execEncoderPacket n s
  | .writeSlotStart n => Sys2Proof.Machine.execWriteSlotStart n s
  | .writeUnderrun n => Sys2Proof.Machine.execWriteUnderrun n s
  | .writeSlotEnd n => Sys2Proof.Machine.execWriteSlotEnd n s
  | .verifyResult n => Sys2Proof.Machine.execVerifyResult n s
  | .guardTrip n x => Sys2Proof.Machine.execGuardTrip n x s
  | .guardReturn n x => Sys2Proof.Machine.execGuardReturn n x s
  | .guardLatchRelease n => Sys2Proof.Machine.execGuardLatchRelease n s
  | .wcInhibitWrite agent n on => Sys2Proof.Machine.execWcInhibitWrite agent n on s
  | .wcEnableWrite agent n on => Sys2Proof.Machine.execWcEnableWrite agent n on s
  | .tableFetchDone n => Sys2Proof.Machine.execTableFetchDone n s
  | .readPowerSample n code => Sys2Proof.Machine.execReadPowerSample n code s
  | .writePowerSample n middle code => Sys2Proof.Machine.execWritePowerSample n middle code s
  | .seTick k src => Sys2Proof.Machine.execSeTick k src s
  | .runStart k x => Sys2Proof.Machine.execRunStart k x s
  | .deadlineMiss k src => Sys2Proof.Machine.execDeadlineMiss k src s
  | .seCacheRefetch k coef line => Sys2Proof.Machine.execSeCacheRefetch k coef line s
  | .msvNop k => Sys2Proof.Machine.execMsvNop k s
  | .msvMovi k => Sys2Proof.Machine.execMsvMovi k s
  | .msvLui k => Sys2Proof.Machine.execMsvLui k s
  | .msvMov k => Sys2Proof.Machine.execMsvMov k s
  | .msvLdc k => Sys2Proof.Machine.execMsvLdc k s
  | .msvLds k => Sys2Proof.Machine.execMsvLds k s
  | .msvSts k => Sys2Proof.Machine.execMsvSts k s
  | .msvIn k => Sys2Proof.Machine.execMsvIn k s
  | .msvOut k => Sys2Proof.Machine.execMsvOut k s
  | .msvAdd k => Sys2Proof.Machine.execMsvAdd k s
  | .msvAdds k => Sys2Proof.Machine.execMsvAdds k s
  | .msvSub k => Sys2Proof.Machine.execMsvSub k s
  | .msvSubs k => Sys2Proof.Machine.execMsvSubs k s
  | .msvAddi k => Sys2Proof.Machine.execMsvAddi k s
  | .msvMul k => Sys2Proof.Machine.execMsvMul k s
  | .msvDiv k => Sys2Proof.Machine.execMsvDiv k s
  | .msvAbs k => Sys2Proof.Machine.execMsvAbs k s
  | .msvMin k => Sys2Proof.Machine.execMsvMin k s
  | .msvMax k => Sys2Proof.Machine.execMsvMax k s
  | .msvSha k => Sys2Proof.Machine.execMsvSha k s
  | .msvAnd k => Sys2Proof.Machine.execMsvAnd k s
  | .msvOr k => Sys2Proof.Machine.execMsvOr k s
  | .msvXor k => Sys2Proof.Machine.execMsvXor k s
  | .msvAndi k => Sys2Proof.Machine.execMsvAndi k s
  | .msvShr k => Sys2Proof.Machine.execMsvShr k s
  | .msvMula k => Sys2Proof.Machine.execMsvMula k s
  | .msvMac k => Sys2Proof.Machine.execMsvMac k s
  | .msvMsu k => Sys2Proof.Machine.execMsvMsu k s
  | .msvLda k => Sys2Proof.Machine.execMsvLda k s
  | .msvRnd k => Sys2Proof.Machine.execMsvRnd k s
  | .msvBiq k => Sys2Proof.Machine.execMsvBiq k s
  | .msvLim k => Sys2Proof.Machine.execMsvLim k s
  | .msvIntg k => Sys2Proof.Machine.execMsvIntg k s
  | .msvFfv k => Sys2Proof.Machine.execMsvFfv k s
  | .msvFfa k => Sys2Proof.Machine.execMsvFfa k s
  | .msvInj k => Sys2Proof.Machine.execMsvInj k s
  | .msvCap k => Sys2Proof.Machine.execMsvCap k s
  | .msvLut k => Sys2Proof.Machine.execMsvLut k s
  | .msvScs k => Sys2Proof.Machine.execMsvScs k s
  | .msvBr k => Sys2Proof.Machine.execMsvBr k s
  | .msvJmp k => Sys2Proof.Machine.execMsvJmp k s
  | .msvRep k => Sys2Proof.Machine.execMsvRep k s
  | .msvEvt k => Sys2Proof.Machine.execMsvEvt k s
  | .msvEnd k => Sys2Proof.Machine.execMsvEnd k s
  | .seLoad agent k coef bank => Sys2Proof.Machine.execSeLoad agent k coef bank s
  | .seLoadDone k => Sys2Proof.Machine.execSeLoadDone k s
  | .seWindowWrite agent k offset value => Sys2Proof.Machine.execSeWindowWrite agent k offset value s
  | .seStateWrite agent k word value => Sys2Proof.Machine.execSeStateWrite agent k word value s
  | .seStart agent k => Sys2Proof.Machine.execSeStart agent k s
  | .seStop agent k => Sys2Proof.Machine.execSeStop agent k s
  | .seApplyNow agent k => Sys2Proof.Machine.execSeApplyNow agent k s
  | .capEnableWrite agent k on => Sys2Proof.Machine.execCapEnableWrite agent k on s
  | .spindleStart agent => Sys2Proof.Machine.execSpindleStart agent s
  | .spindleStop agent => Sys2Proof.Machine.execSpindleStop agent s
  | .pwmPeriodStart busMv => Sys2Proof.Machine.execPwmPeriodStart busMv s
  | .pwmMidpoint iu iv vu vv vw => Sys2Proof.Machine.execPwmMidpoint iu iv vu vv vw s
  | .overcurrentTrip => Sys2Proof.Machine.execOvercurrentTrip s
  | .senseTimeEnd => Sys2Proof.Machine.execSenseTimeEnd s
  | .bemfMeasure busMv first second => Sys2Proof.Machine.execBemfMeasure busMv first second s
  | .brakeDwellEnd => Sys2Proof.Machine.execBrakeDwellEnd s
  | .brakeTimeout => Sys2Proof.Machine.execBrakeTimeout s
  | .detectPulseEnd iu iv => Sys2Proof.Machine.execDetectPulseEnd iu iv s
  | .alignDone => Sys2Proof.Machine.execAlignDone s
  | .handoverAgreement => Sys2Proof.Machine.execHandoverAgreement s
  | .handoverTimeout => Sys2Proof.Machine.execHandoverTimeout s
  | .catchTimeout => Sys2Proof.Machine.execCatchTimeout s
  | .regenPause busMv => Sys2Proof.Machine.execRegenPause busMv s
  | .sledUpdate n va vb ia ib da db => Sys2Proof.Machine.execSledUpdate n va vb ia ib da db s
  | .sldTargetWrite agent n value => Sys2Proof.Machine.execSldTargetWrite agent n value s
  | .revDwellEnd n => Sys2Proof.Machine.execRevDwellEnd n s
  | .runCurrentEnd n => Sys2Proof.Machine.execRunCurrentEnd n s
  | .homeSwitchEdge n => Sys2Proof.Machine.execHomeSwitchEdge n s
  | .switchDebounced n level => Sys2Proof.Machine.execSwitchDebounced n level s
  | .sledHome agent n => Sys2Proof.Machine.execSledHome agent n s
  | .sledPark agent n => Sys2Proof.Machine.execSledPark agent n s
  | .sledUnpark agent n => Sys2Proof.Machine.execSledUnpark agent n s
  | .sledAbort agent n => Sys2Proof.Machine.execSledAbort agent n s
  | .sldDrvEnWrite agent n on => Sys2Proof.Machine.execSldDrvEnWrite agent n on s
  | .sweepSubmit agent value => Sys2Proof.Machine.execSweepSubmit agent value s
  | .programLoad => Sys2Proof.Machine.execProgramLoad s
  | .programLoadDone layers => Sys2Proof.Machine.execProgramLoadDone layers s
  | .sweepStart agent => Sys2Proof.Machine.execSweepStart agent s
  | .sweepStop agent => Sys2Proof.Machine.execSweepStop agent s
  | .sweepAbort agent => Sys2Proof.Machine.execSweepAbort agent s
  | .sweepBoundaryCmd agent => Sys2Proof.Machine.execSweepBoundaryCmd agent s
  | .windowOpen => Sys2Proof.Machine.execWindowOpen s
  | .windowClose => Sys2Proof.Machine.execWindowClose s
  | .portionStart n => Sys2Proof.Machine.execPortionStart n s
  | .headStep n => Sys2Proof.Machine.execHeadStep n s
  | .layer n => Sys2Proof.Machine.execLayer n s
  | .seek n => Sys2Proof.Machine.execSeek n s
  | .waitPos n => Sys2Proof.Machine.execWaitPos n s
  | .waitWedge n => Sys2Proof.Machine.execWaitWedge n s
  | .waitWedgeReached n => Sys2Proof.Machine.execWaitWedgeReached n s
  | .readTile n => Sys2Proof.Machine.execReadTile n s
  | .verifyTile n => Sys2Proof.Machine.execVerifyTile n s
  | .auditTile n => Sys2Proof.Machine.execAuditTile n s
  | .writeTile n => Sys2Proof.Machine.execWriteTile n s
  | .obliterate n => Sys2Proof.Machine.execObliterate n s
  | .calSlot n => Sys2Proof.Machine.execCalSlot n s
  | .mark n => Sys2Proof.Machine.execMark n s
  | .nopStep n => Sys2Proof.Machine.execNopStep n s
  | .endStep n => Sys2Proof.Machine.execEndStep n s
  | .allSlotsEnded => Sys2Proof.Machine.execAllSlotsEnded s
  | .drainComplete => Sys2Proof.Machine.execDrainComplete s
  | .boundaryApply => Sys2Proof.Machine.execBoundaryApply s
  | .headOnlineSet agent mask => Sys2Proof.Machine.execHeadOnlineSet agent mask s
  | .fifoPop agent f => Sys2Proof.Machine.execFifoPop agent f s
  | .fifoConfigWrite agent f reg value => Sys2Proof.Machine.execFifoConfigWrite agent f reg value s
  | .fifoRecordPush f record => Sys2Proof.Machine.execFifoRecordPush f record s
  | .ringWriteError f record => Sys2Proof.Machine.execRingWriteError f record s
  | .add p => Sys2Proof.Machine.execAdd p s
  | .sub p => Sys2Proof.Machine.execSub p s
  | .and p => Sys2Proof.Machine.execAnd p s
  | .or p => Sys2Proof.Machine.execOr p s
  | .xor p => Sys2Proof.Machine.execXor p s
  | .sll p => Sys2Proof.Machine.execSll p s
  | .srl p => Sys2Proof.Machine.execSrl p s
  | .sra p => Sys2Proof.Machine.execSra p s
  | .slt p => Sys2Proof.Machine.execSlt p s
  | .sltu p => Sys2Proof.Machine.execSltu p s
  | .mul p => Sys2Proof.Machine.execMul p s
  | .mulh p => Sys2Proof.Machine.execMulh p s
  | .mulhu p => Sys2Proof.Machine.execMulhu p s
  | .div p => Sys2Proof.Machine.execDiv p s
  | .divu p => Sys2Proof.Machine.execDivu p s
  | .rem p => Sys2Proof.Machine.execRem p s
  | .remu p => Sys2Proof.Machine.execRemu p s
  | .addw p => Sys2Proof.Machine.execAddw p s
  | .clz p => Sys2Proof.Machine.execClz p s
  | .addi p => Sys2Proof.Machine.execAddi p s
  | .andi p => Sys2Proof.Machine.execAndi p s
  | .ori p => Sys2Proof.Machine.execOri p s
  | .xori p => Sys2Proof.Machine.execXori p s
  | .slli p => Sys2Proof.Machine.execSlli p s
  | .srli p => Sys2Proof.Machine.execSrli p s
  | .srai p => Sys2Proof.Machine.execSrai p s
  | .slti p => Sys2Proof.Machine.execSlti p s
  | .sltiu p => Sys2Proof.Machine.execSltiu p s
  | .addiw p => Sys2Proof.Machine.execAddiw p s
  | .lui p => Sys2Proof.Machine.execLui p s
  | .auipc p => Sys2Proof.Machine.execAuipc p s
  | .lb p => Sys2Proof.Machine.execLb p s
  | .lbu p => Sys2Proof.Machine.execLbu p s
  | .lh p => Sys2Proof.Machine.execLh p s
  | .lhu p => Sys2Proof.Machine.execLhu p s
  | .lw p => Sys2Proof.Machine.execLw p s
  | .lwu p => Sys2Proof.Machine.execLwu p s
  | .ld p => Sys2Proof.Machine.execLd p s
  | .sb p => Sys2Proof.Machine.execSb p s
  | .sh p => Sys2Proof.Machine.execSh p s
  | .sw p => Sys2Proof.Machine.execSw p s
  | .sd p => Sys2Proof.Machine.execSd p s
  | .beq p => Sys2Proof.Machine.execBeq p s
  | .bne p => Sys2Proof.Machine.execBne p s
  | .blt p => Sys2Proof.Machine.execBlt p s
  | .bge p => Sys2Proof.Machine.execBge p s
  | .bltu p => Sys2Proof.Machine.execBltu p s
  | .bgeu p => Sys2Proof.Machine.execBgeu p s
  | .jal p => Sys2Proof.Machine.execJal p s
  | .jalr p => Sys2Proof.Machine.execJalr p s
  | .ldaq p => Sys2Proof.Machine.execLdaq p s
  | .strl p => Sys2Proof.Machine.execStrl p s
  | .lr p => Sys2Proof.Machine.execLr p s
  | .sc p => Sys2Proof.Machine.execSc p s
  | .amoadd p => Sys2Proof.Machine.execAmoadd p s
  | .amoswap p => Sys2Proof.Machine.execAmoswap p s
  | .amoand p => Sys2Proof.Machine.execAmoand p s
  | .amoor p => Sys2Proof.Machine.execAmoor p s
  | .cas p => Sys2Proof.Machine.execCas p s
  | .fence p => Sys2Proof.Machine.execFence p s
  | .ecall p => Sys2Proof.Machine.execEcall p s
  | .ebreak p => Sys2Proof.Machine.execEbreak p s
  | .sret p => Sys2Proof.Machine.execSret p s
  | .csrr p => Sys2Proof.Machine.execCsrr p s
  | .csrw p => Sys2Proof.Machine.execCsrw p s
  | .csrs p => Sys2Proof.Machine.execCsrs p s
  | .csrc p => Sys2Proof.Machine.execCsrc p s
  | .postDoorbell p => Sys2Proof.Machine.execPostDoorbell p s
  | .postUsb2Attach p => Sys2Proof.Machine.execPostUsb2Attach p s
  | .postFlash p => Sys2Proof.Machine.execPostFlash p s
  | .postKerbWord p => Sys2Proof.Machine.execPostKerbWord p s
  | .postSmbusAlert p => Sys2Proof.Machine.execPostSmbusAlert p s
  | .postTimerPwm p => Sys2Proof.Machine.execPostTimerPwm p s
  | .postAccepted p => Sys2Proof.Machine.execPostAccepted p s
  | .take p => Sys2Proof.Machine.execTake p s
  | .wait p => Sys2Proof.Machine.execWait p s
  | .waitWake p => Sys2Proof.Machine.execWaitWake p s
  | .rdtime p => Sys2Proof.Machine.execRdtime p s
  | .interruptEntry p => Sys2Proof.Machine.execInterruptEntry p s
  | .reservationExpire p => Sys2Proof.Machine.execReservationExpire p s
  | .timecmpReached p => Sys2Proof.Machine.execTimecmpReached p s
  | .coreResetCmd agent p => Sys2Proof.Machine.execCoreResetCmd agent p s
  | .coreRun agent p => Sys2Proof.Machine.execCoreRun agent p s
  | .l1iInvA p => Sys2Proof.Machine.execL1iInvA p s
  | .l1iInvAll p => Sys2Proof.Machine.execL1iInvAll p s
  | .l1dInvA p => Sys2Proof.Machine.execL1dInvA p s
  | .l1dInvAll p => Sys2Proof.Machine.execL1dInvAll p s
  | .arcCleanA p => Sys2Proof.Machine.execArcCleanA p s
  | .arcInvA p => Sys2Proof.Machine.execArcInvA p s
  | .arcFlushA p => Sys2Proof.Machine.execArcFlushA p s
  | .arcCleanSw p => Sys2Proof.Machine.execArcCleanSw p s
  | .arcFlushSw p => Sys2Proof.Machine.execArcFlushSw p s
  | .arcFetchA p => Sys2Proof.Machine.execArcFetchA p s
  | .l1Fill p cache line => Sys2Proof.Machine.execL1Fill p cache line s
  | .arcadeRequest sender addr store flips => Sys2Proof.Machine.execArcadeRequest sender addr store flips s
  | .arcadeFill bank reg => Sys2Proof.Machine.execArcadeFill bank reg s
  | .arcDisable agent => Sys2Proof.Machine.execArcDisable agent s
  | .arcDrainDone => Sys2Proof.Machine.execArcDrainDone s
  | .arcEnable agent => Sys2Proof.Machine.execArcEnable agent s
  | .arcPartWrite agent n mask => Sys2Proof.Machine.execArcPartWrite agent n mask s
  | .l1Disable agent p cache => Sys2Proof.Machine.execL1Disable agent p cache s
  | .dramRequest sender write addr data => Sys2Proof.Machine.execDramRequest sender write addr data s
  | .dramIssue x => Sys2Proof.Machine.execDramIssue x s
  | .dramReadReturn n c flips => Sys2Proof.Machine.execDramReadReturn n c flips s
  | .perBankRefresh c bank => Sys2Proof.Machine.execPerBankRefresh c bank s
  | .mr4Poll c rate => Sys2Proof.Machine.execMr4Poll c rate s
  | .actTableClear => Sys2Proof.Machine.execActTableClear s
  | .scrubRow c flips stuck => Sys2Proof.Machine.execScrubRow c flips stuck s
  | .remapArm agent at_ entry word => Sys2Proof.Machine.execRemapArm agent at_ entry word s
  | .remapDisarm agent at_ entry => Sys2Proof.Machine.execRemapDisarm agent at_ entry s
  | .dramMapWrite agent reg value => Sys2Proof.Machine.execDramMapWrite agent reg value s
  | .dramInit agent => Sys2Proof.Machine.execDramInit agent s
  | .dramInitDone failed => Sys2Proof.Machine.execDramInitDone failed s
  | .oscCheck c drift => Sys2Proof.Machine.execOscCheck c drift s
  | .dramRetrain agent => Sys2Proof.Machine.execDramRetrain agent s
  | .retrainStart c => Sys2Proof.Machine.execRetrainStart c s
  | .retrainDone c ok => Sys2Proof.Machine.execRetrainDone c ok s
  | .sramScrub m word flips stuck => Sys2Proof.Machine.execSramScrub m word flips stuck s
  | .linkUp port mode => Sys2Proof.Machine.execLinkUp port mode s
  | .pathLoss port => Sys2Proof.Machine.execPathLoss port s
  | .functionReset port => Sys2Proof.Machine.execFunctionReset port s
  | .ocfgEnableWrite port en => Sys2Proof.Machine.execOcfgEnableWrite port en s
  | .sqTailDoorbell port q tail => Sys2Proof.Machine.execSqTailDoorbell port q tail s
  | .cqHeadDoorbell port q head => Sys2Proof.Machine.execCqHeadDoorbell port q head s
  | .commandFetch entry list => Sys2Proof.Machine.execCommandFetch entry list s
  | .hostCpl agent ctx status => Sys2Proof.Machine.execHostCpl agent ctx status s
  | .msixCoalesceExpire port q => Sys2Proof.Machine.execMsixCoalesceExpire port q s
  | .createQp ctx => Sys2Proof.Machine.execCreateQp ctx s
  | .deleteQp ctx => Sys2Proof.Machine.execDeleteQp ctx s
  | .abort ctx => Sys2Proof.Machine.execAbort ctx s
  | .identify ctx => Sys2Proof.Machine.execIdentify ctx s
  | .getLogEvents ctx => Sys2Proof.Machine.execGetLogEvents ctx s
  | .getLogPath ctx => Sys2Proof.Machine.execGetLogPath ctx s
  | .eventWait ctx => Sys2Proof.Machine.execEventWait ctx s
  | .eventLogged code oid => Sys2Proof.Machine.execEventLogged code oid s
  | .read ctx medium => Sys2Proof.Machine.execRead ctx medium s
  | .write ctx => Sys2Proof.Machine.execWrite ctx s
  | .append ctx => Sys2Proof.Machine.execAppend ctx s
  | .writeAccept ctx data => Sys2Proof.Machine.execWriteAccept ctx data s
  | .flush ctx => Sys2Proof.Machine.execFlush ctx s
  | .flushComplete ctx lost moved => Sys2Proof.Machine.execFlushComplete ctx lost moved s
  | .zoneReport ctx => Sys2Proof.Machine.execZoneReport ctx s
  | .zoneOpen ctx => Sys2Proof.Machine.execZoneOpen ctx s
  | .zoneClose ctx => Sys2Proof.Machine.execZoneClose ctx s
  | .zoneFinish ctx => Sys2Proof.Machine.execZoneFinish ctx s
  | .extentQuery ctx => Sys2Proof.Machine.execExtentQuery ctx s
  | .put ctx data => Sys2Proof.Machine.execPut ctx data s
  | .get ctx medium => Sys2Proof.Machine.execGet ctx medium s
  | .list ctx => Sys2Proof.Machine.execList ctx s
  | .audit ctx => Sys2Proof.Machine.execAudit ctx s
  | .openSession ctx key => Sys2Proof.Machine.execOpenSession ctx key s
  | .keyMismatchDelay => Sys2Proof.Machine.execKeyMismatchDelay s
  | .closeSession ctx => Sys2Proof.Machine.execCloseSession ctx s
  | .setAdminKey ctx key => Sys2Proof.Machine.execSetAdminKey ctx key s
  | .format ctx block => Sys2Proof.Machine.execFormat ctx block s
  | .sanitise ctx onMedium => Sys2Proof.Machine.execSanitise ctx onMedium s
  | .progress ctx => Sys2Proof.Machine.execProgress ctx s
  | .lockMedia ctx => Sys2Proof.Machine.execLockMedia ctx s
  | .sessionTimeout handle => Sys2Proof.Machine.execSessionTimeout handle s
  | .pendingAbandon oid => Sys2Proof.Machine.execPendingAbandon oid s
  | .auditWalk => Sys2Proof.Machine.execAuditWalk s
  | .auditRecordConsume base => Sys2Proof.Machine.execAuditRecordConsume base s
  | .auditResult oid => Sys2Proof.Machine.execAuditResult oid s
  | .weakTileNotice => Sys2Proof.Machine.execWeakTileNotice s
  | .weakRefresh oid copy => Sys2Proof.Machine.execWeakRefresh oid copy s
  | .journalEntryWrite now => Sys2Proof.Machine.execJournalEntryWrite now s
  | .discMount info records freeA freeB => Sys2Proof.Machine.execDiscMount info records freeA freeB s
  | .discRemoval => Sys2Proof.Machine.execDiscRemoval s
  | .railWindowExit rail => Sys2Proof.Machine.execRailWindowExit rail s
  | .busUndervoltage => Sys2Proof.Machine.execBusUndervoltage s
  | .supplyGraceExpire => Sys2Proof.Machine.execSupplyGraceExpire s
  | .vaonRise => Sys2Proof.Machine.execVaonRise s
  | .railGood => Sys2Proof.Machine.execRailGood s
  | .railEnableTimeout => Sys2Proof.Machine.execRailEnableTimeout s
  | .sequencerRetry => Sys2Proof.Machine.execSequencerRetry s
  | .vin12Loss => Sys2Proof.Machine.execVin12Loss s
  | .railFall => Sys2Proof.Machine.execRailFall s
  | .govEnableWrite agent en => Sys2Proof.Machine.execGovEnableWrite agent en s
  | .chopEngage => Sys2Proof.Machine.execChopEngage s
  | .chopRelease => Sys2Proof.Machine.execChopRelease s
  | .chopFault => Sys2Proof.Machine.execChopFault s
  | .busLatch => Sys2Proof.Machine.execBusLatch s
  | .chopClr agent vmot => Sys2Proof.Machine.execChopClr agent vmot s
  | .latchClr agent vmot => Sys2Proof.Machine.execLatchClr agent vmot s
  | .mbusEnableWrite agent en => Sys2Proof.Machine.execMbusEnableWrite agent en s
  | .boostEnableWrite agent en => Sys2Proof.Machine.execBoostEnableWrite agent en s
  | .boostSoftStartDone => Sys2Proof.Machine.execBoostSoftStartDone s
  | .vlasUndervoltage => Sys2Proof.Machine.execVlasUndervoltage s
  | .boostFault => Sys2Proof.Machine.execBoostFault s
  | .boostClr agent => Sys2Proof.Machine.execBoostClr agent s
  | .dormantEnter agent wake => Sys2Proof.Machine.execDormantEnter agent wake s
  | .wakeEvent sources => Sys2Proof.Machine.execWakeEvent sources s
  | .supAlarmReached => Sys2Proof.Machine.execSupAlarmReached s
  | .wakeRdyRelease => Sys2Proof.Machine.execWakeRdyRelease s
  | .sourceFail refin => Sys2Proof.Machine.execSourceFail refin s
  | .sourceGood refin => Sys2Proof.Machine.execSourceGood refin s
  | .clkRelock agent loops => Sys2Proof.Machine.execClkRelock agent loops s
  | .loopLock loop => Sys2Proof.Machine.execLoopLock loop s
  | .lockLost loop => Sys2Proof.Machine.execLockLost loop s
  | .refSwitch agent sel => Sys2Proof.Machine.execRefSwitch agent sel s
  | .muxSwitchDone clkout => Sys2Proof.Machine.execMuxSwitchDone clkout s
  | .muxHung clkout => Sys2Proof.Machine.execMuxHung clkout s
  | .clkRescue agent value => Sys2Proof.Machine.execClkRescue agent value s
  | .rescueDone => Sys2Proof.Machine.execRescueDone s
  | .clkoutSelect agent sel => Sys2Proof.Machine.execClkoutSelect agent sel s
  | .clkoutDivChange => Sys2Proof.Machine.execClkoutDivChange s
  | .portEnableWrite agent port en => Sys2Proof.Machine.execPortEnableWrite agent port en s
  | .timeReadLatch agent => Sys2Proof.Machine.execTimeReadLatch agent s
  | .counterReadLatch agent k => Sys2Proof.Machine.execCounterReadLatch agent k s
  | .calrefCheck refMV => Sys2Proof.Machine.execCalrefCheck refMV s
  | .calTempTrigger block temp => Sys2Proof.Machine.execCalTempTrigger block temp s
  | .calRequest agent block => Sys2Proof.Machine.execCalRequest agent block s
  | .calAutoRun block refMV => Sys2Proof.Machine.execCalAutoRun block refMV s
  | .calRunDone block kind sub cls values temp found refMV => Sys2Proof.Machine.execCalRunDone block kind sub cls values temp found refMV s
  | .calIdleApply block => Sys2Proof.Machine.execCalIdleApply block s
  | .calRecordRead agent => Sys2Proof.Machine.execCalRecordRead agent s
  | .calRecordWrite agent => Sys2Proof.Machine.execCalRecordWrite agent s
  | .faultReport => Sys2Proof.Machine.execFaultReport s
  | .heartbeatLoss child => Sys2Proof.Machine.execHeartbeatLoss child s
  | .fmIsolate agent heads => Sys2Proof.Machine.execFmIsolate agent heads s
  | .fmReinstate agent heads alive => Sys2Proof.Machine.execFmReinstate agent heads alive s
  | .lockstepMismatch cycle => Sys2Proof.Machine.execLockstepMismatch cycle s
  | .safeExt low => Sys2Proof.Machine.execSafeExt low s
  | .sqKick agent value => Sys2Proof.Machine.execSqKick agent value s
  | .watchdogEnable agent => Sys2Proof.Machine.execWatchdogEnable agent s
  | .wdExpire => Sys2Proof.Machine.execWdExpire s
  | .safeReq agent value => Sys2Proof.Machine.execSafeReq agent value s
  | .warmReset agent value => Sys2Proof.Machine.execWarmReset agent value s
  | .coreReset agent value => Sys2Proof.Machine.execCoreReset agent value s
  | .porRequest agent value => Sys2Proof.Machine.execPorRequest agent value s
  | .resetPin low => Sys2Proof.Machine.execResetPin low s
  | .boot ident => Sys2Proof.Machine.execBoot ident s
  | .recoveryStatus port => Sys2Proof.Machine.execRecoveryStatus port s
  | .recoveryErase port offset length => Sys2Proof.Machine.execRecoveryErase port offset length s
  | .recoveryProgram port offset data => Sys2Proof.Machine.execRecoveryProgram port offset data s
  | .recoveryRead port offset length => Sys2Proof.Machine.execRecoveryRead port offset length s
  | .recoveryReboot port => Sys2Proof.Machine.execRecoveryReboot port s
  | .mgmtStatus port => Sys2Proof.Machine.execMgmtStatus port s
  | .mgmtUnsupportedRequest port => Sys2Proof.Machine.execMgmtUnsupportedRequest port s
  | .spiTransferDone data => Sys2Proof.Machine.execSpiTransferDone data s
  | .spiBusyTimeout => Sys2Proof.Machine.execSpiBusyTimeout s
  | .gpioFuncWrite agent line value => Sys2Proof.Machine.execGpioFuncWrite agent line value s
  | .gpioOeSet agent lines => Sys2Proof.Machine.execGpioOeSet agent lines s
  | .gpioOeClr agent lines => Sys2Proof.Machine.execGpioOeClr agent lines s
  | .gpioOutSet agent lines => Sys2Proof.Machine.execGpioOutSet agent lines s
  | .gpioOutClr agent lines => Sys2Proof.Machine.execGpioOutClr agent lines s
  | .tmrCfgWrite agent k value => Sys2Proof.Machine.execTmrCfgWrite agent k value s
  | .gpioEdgeEvent line rise => Sys2Proof.Machine.execGpioEdgeEvent line rise s
  | .timerPeriodStart k => Sys2Proof.Machine.execTimerPeriodStart k s
  | .kerbStatusRead word => Sys2Proof.Machine.execKerbStatusRead word s
  | .kerbInboundWrite n value => Sys2Proof.Machine.execKerbInboundWrite n value s
  | .kerbCommandWrite value => Sys2Proof.Machine.execKerbCommandWrite value s
  | .kerbIntClear value => Sys2Proof.Machine.execKerbIntClear value s
  | .kerbWakeWord value => Sys2Proof.Machine.execKerbWakeWord value s
  | .kerbAckAccess word write => Sys2Proof.Machine.execKerbAckAccess word write s
  | .kerbProtocolError => Sys2Proof.Machine.execKerbProtocolError s
  | .kerbResponderSwitch => Sys2Proof.Machine.execKerbResponderSwitch s
  | .kerbCopyRefresh temp => Sys2Proof.Machine.execKerbCopyRefresh temp s
  | .smbusReadWord word => Sys2Proof.Machine.execSmbusReadWord word s
  | .smbusBlockRead => Sys2Proof.Machine.execSmbusBlockRead s
  | .smbusNack => Sys2Proof.Machine.execSmbusNack s
  | .smbusAlertResponse => Sys2Proof.Machine.execSmbusAlertResponse s
  | .jtagTapReset => Sys2Proof.Machine.execJtagTapReset s
  | .idcode => Sys2Proof.Machine.execIdcode s
  | .samplePreload cells => Sys2Proof.Machine.execSamplePreload cells s
  | .extest => Sys2Proof.Machine.execExtest s
  | .clamp => Sys2Proof.Machine.execClamp s
  | .highz => Sys2Proof.Machine.execHighz s
  | .bypass => Sys2Proof.Machine.execBypass s
  | .debugAccess go write addr data => Sys2Proof.Machine.execDebugAccess go write addr data s
  | .railWindowReturn rail => Sys2Proof.Machine.execRailWindowReturn rail s
  | .vin12Good => Sys2Proof.Machine.execVin12Good s
  | .pageIdleExpire c bank => Sys2Proof.Machine.execPageIdleExpire c bank s
  | .kerbStrobeRise => Sys2Proof.Machine.execKerbStrobeRise s
  | .illegalInstr p => Sys2Proof.Machine.execIllegalInstr p s

end Machine
end Sys2Proof
end

