-- ==== Sys2Proof/Machine/Step.lean ====
section
/-! DEFINITION. One step of the block: the command at the front of the queue is taken out and run. -/

namespace Sys2Proof
namespace Machine

/-- The block with no command waiting: chip time goes on by one count of 1 ns (R509; log 2). -/
def idle (s : State) : State := { s with chipTime := s.chipTime + 1 }

/-- One step: the command at the front of the queue acts on the block with the queue's rest; on an empty queue the block
idles. -/
def step (s : State) : Host.Outcome State Fault Refusal :=
  match s.pending with
  | [] => .next (idle s)
  | c :: rest => exec c { s with pending := rest }

/-- The state with the command that a word spells put at the front of its queue. -/
def State.withFetchWord (s : State) (nbits w : Nat) : State :=
  match decodeTableWord nbits w with
  | some c => { s with pending := c :: s.pending }
  | none => s

end Machine
end Sys2Proof
end

