-- ==== Sys2Proof/Safety.lean ====
section
/-! DEFINITION. What the claims say of a run: the invariants of a state, a step that goes on, and what two states have in
common. -/

namespace Sys2Proof
namespace Machine

/-- Memory is in its canonical form: the bytes of TCM and staging memory, and the flash device's. -/
def State.MemInv (s : State) : Prop := Memory.wf s.mem = true ∧ Memory.wf s.boot.flash = true

/-- A step that neither faults nor is refused. -/
def goesOn (s : State) : Prop := ∃ t, step s = .next t

/-- The parts of the state, one for each field. -/
inductive Part where
  | variant | keyFused | chipTime | regs | pend | mem | poison | lastReply | rbt | xing | pace | links | counters
  | wraps | tbLatch | pcLatch | freeCtr | arcade | l1d | l1i | dramErr | chkErr | dram | dramSelfReq | tcmErr
  | sramErr | reports | fifo | ch | hb | packets | packetCtr | slices | decWait | decDiscard | decDrop | tiles
  | tileCtr | spans | weakTiles | shortHeads | swpSubmits | swpQueue | swpCur | swpStart | swpOpened | swpCtr
  | swpStop | swpAborted | winFlags | swpLate | swpTail | wc | se | sled | spn | cal | retrained | host | disc | arv
  | ddrForce | clk | sup | sq | boot | pins | core | pending
deriving DecidableEq, Repr

/-- Two states hold the same in one part. -/
def Part.same (s t : State) : Part → Prop
  | .variant => t.variant = s.variant
  | .keyFused => t.keyFused = s.keyFused
  | .chipTime => t.chipTime = s.chipTime
  | .regs => t.regs = s.regs
  | .pend => t.pend = s.pend
  | .mem => t.mem = s.mem
  | .poison => t.poison = s.poison
  | .lastReply => t.lastReply = s.lastReply
  | .rbt => t.rbt = s.rbt
  | .xing => t.xing = s.xing
  | .pace => t.pace = s.pace
  | .links => t.links = s.links
  | .counters => t.counters = s.counters
  | .wraps => t.wraps = s.wraps
  | .tbLatch => t.tbLatch = s.tbLatch
  | .pcLatch => t.pcLatch = s.pcLatch
  | .freeCtr => t.freeCtr = s.freeCtr
  | .arcade => t.arcade = s.arcade
  | .l1d => t.l1d = s.l1d
  | .l1i => t.l1i = s.l1i
  | .dramErr => t.dramErr = s.dramErr
  | .chkErr => t.chkErr = s.chkErr
  | .dram => t.dram = s.dram
  | .dramSelfReq => t.dramSelfReq = s.dramSelfReq
  | .tcmErr => t.tcmErr = s.tcmErr
  | .sramErr => t.sramErr = s.sramErr
  | .reports => t.reports = s.reports
  | .fifo => t.fifo = s.fifo
  | .ch => t.ch = s.ch
  | .hb => t.hb = s.hb
  | .packets => t.packets = s.packets
  | .packetCtr => t.packetCtr = s.packetCtr
  | .slices => t.slices = s.slices
  | .decWait => t.decWait = s.decWait
  | .decDiscard => t.decDiscard = s.decDiscard
  | .decDrop => t.decDrop = s.decDrop
  | .tiles => t.tiles = s.tiles
  | .tileCtr => t.tileCtr = s.tileCtr
  | .spans => t.spans = s.spans
  | .weakTiles => t.weakTiles = s.weakTiles
  | .shortHeads => t.shortHeads = s.shortHeads
  | .swpSubmits => t.swpSubmits = s.swpSubmits
  | .swpQueue => t.swpQueue = s.swpQueue
  | .swpCur => t.swpCur = s.swpCur
  | .swpStart => t.swpStart = s.swpStart
  | .swpOpened => t.swpOpened = s.swpOpened
  | .swpCtr => t.swpCtr = s.swpCtr
  | .swpStop => t.swpStop = s.swpStop
  | .swpAborted => t.swpAborted = s.swpAborted
  | .winFlags => t.winFlags = s.winFlags
  | .swpLate => t.swpLate = s.swpLate
  | .swpTail => t.swpTail = s.swpTail
  | .wc => t.wc = s.wc
  | .se => t.se = s.se
  | .sled => t.sled = s.sled
  | .spn => t.spn = s.spn
  | .cal => t.cal = s.cal
  | .retrained => t.retrained = s.retrained
  | .host => t.host = s.host
  | .disc => t.disc = s.disc
  | .arv => t.arv = s.arv
  | .ddrForce => t.ddrForce = s.ddrForce
  | .clk => t.clk = s.clk
  | .sup => t.sup = s.sup
  | .sq => t.sq = s.sq
  | .boot => t.boot = s.boot
  | .pins => t.pins = s.pins
  | .core => t.core = s.core
  | .pending => t.pending = s.pending

/-- From one state to another nothing changes outside the parts listed: the frame of a command. -/
def changesOnly (l : List Part) (s t : State) : Prop := ∀ p, p ∉ l → p.same s t

/-- Every register outside the addresses listed reads the same. -/
def regsBut (s t : State) (l : List Nat) : Prop := ∀ a, a ∉ l → rd t a = rd s a

/-- The payloads that have arrived over one path from a source at a target, in order (R24). -/
def arrivedOver (ls : List Link) (src dst : Nat) (hops : List Hop) : List (List Byte) :=
  match ls with
  | [] => []
  | l :: rest => if l.src = src ∧ l.dst = dst ∧ l.hops = hops then l.arrived else arrivedOver rest src dst hops

/-- The engine runs a program, and its run has reached a word with an opcode (R204, R216). -/
abbrev msvAt (s : State) (k : Engine) (op : Nat) (r : MsvRun) (w : Nat) : Prop :=
  s.se[k].run = some r ∧ seState s k = 1 ∧ progWord s k r.pc = w ∧ opOf w = op

/-- Nothing stops the spindle: SAFE_N and the chopper fault are not asserted and SE8 is RUNNING (R279). -/
abbrev spnClear (s : State) : Prop := s.spn.safeN = false ∧ s.spn.chopFault = false ∧ seState s 8 = 1

/-- The word that a fetch answers, if it answers one. -/
def okWord (r : Except DxExc Word) : Option Word :=
  match r with
  | .ok w => some w
  | .error _ => none

/-- A core issues, and its fetch, which leaves u, answers a word that is a legal instruction it may run (R345 to R347, R353). -/
abbrev coreAt (s u : State) (p : Fin 4) (w : Word) : Prop :=
  canIssue s p = true ∧ (fetch s p).1 = u ∧ okWord (fetch s p).2 = some w ∧ dxLegal w = true ∧
    dxIllegalUse s.core[p] w = false ∧ dxPrivileged s.core[p] (dxOp w) = false

/-- A core after an instruction that writes rd and goes on at an address: its reservation is one step older (R357). -/
abbrev coreGoes (c : Core) (rdNum : Nat) (v pc : DWord) : Core := { c.put rdNum v with pc := pc, resv := resvStep c.resv }

/-- From one state to another a core retires one instruction and nothing else happens. -/
def retires (u t : State) (p : Fin 4) (rdNum : Nat) (v pc : DWord) : Prop :=
  t.core = u.core.set p (coreGoes u.core[p] rdNum v pc) ∧ counter t (381 + 3 * p.val) = counter u (381 + 3 * p.val) + 1 ∧
    changesOnly [.core, .counters, .wraps] u t

/-- A command is the instruction of an opcode that writes to rd what a function of the core and the word gives. -/
def computes (i : Fin 4 → Instr) (op : Nat) (f : Core → Word → DWord) : Prop :=
  ∀ (s u : State) (p : Fin 4) (w : Word), coreAt s u p w → dxOp w = op →
    ∃ t, exec (i p) s = .next t ∧ retires u t p (dxA w) (f u.core[p] w) (u.core[p].pc + 4)

/-- A command is the load of n bytes of an opcode: rd takes a function of the little-endian number that the access to normal
memory answers. -/
def loads (i : Fin 4 → Instr) (op n : Nat) (f : Nat → DWord) : Prop :=
  ∀ (s u v : State) (p : Fin 4) (w : Word) (bs : List Byte), coreAt s u p w → dxOp w = op →
    accessOk u.core[p] 1 (dxAddr u.core[p] w).toNat n = true →
    regionOf (dxAddr u.core[p] w).toNat ≠ .device →
    (alignedSpace (dxAddr u.core[p] w).toNat = true → (dxAddr u.core[p] w).toNat % n = 0) →
    normalOk u (dxAddr u.core[p] w).toNat n false = true →
    l1Read u p .data (dxAddr u.core[p] w).toNat n = (v, some (bs, false)) →
    ∃ t, exec (i p) s = .next t ∧ retires v t p (dxA w) (f (leNat bs)) (v.core[p].pc + 4)

/-- A command is the store of n bytes of an opcode: TCM takes the low n bytes of the source register, in little-endian order, at
the address, and no other byte of memory changes. -/
def stores (i : Fin 4 → Instr) (op n : Nat) : Prop :=
  ∀ (s u : State) (p : Fin 4) (w : Word), coreAt s u p w → dxOp w = op →
    accessOk u.core[p] 2 (dxAddr u.core[p] w).toNat n = true →
    regionOf (dxAddr u.core[p] w).toNat = .tcm →
    (dxAddr u.core[p] w).toNat % n = 0 →
    normalOk u (dxAddr u.core[p] w).toNat n true = true →
    ∃ t, exec (i p) s = .next t ∧
      t.mem = Memory.writeBytes u.mem (dxAddr u.core[p] w).toNat (natLe n ((stSrc u.core[p] w).toNat % 2 ^ (8 * n))) ∧
      t.core[p] = coreGoes (resvDrop u (dxAddr u.core[p] w).toNat n).core[p] 0 0 (u.core[p].pc + 4) ∧
      changesOnly [.mem, .tcmErr, .core, .counters, .wraps] u t

/-- A command is the branch of an opcode: to PC + 4 × OFF15 where its condition holds, else on. -/
def branches (i : Fin 4 → Instr) (op : Nat) (cond : DWord → DWord → Bool) : Prop :=
  ∀ (s u : State) (p : Fin 4) (w : Word), coreAt s u p w → dxOp w = op →
    ∃ t, exec (i p) s = .next t ∧ retires u t p 0 0
      (if cond (u.core[p].get (dxA w)) (u.core[p].get (dxB w)) then u.core[p].pc + 4 * dxImm15 w else u.core[p].pc + 4)

/-- A command is the atomic of an opcode: rd takes the old doubleword of TCM, and the new one, where a function of the core and
the old one gives one, replaces it. -/
def amos (i : Fin 4 → Instr) (op : Nat) (f : Core → Word → DWord → Option DWord) : Prop :=
  ∀ (s u v : State) (p : Fin 4) (w : Word) (old : DWord), coreAt s u p w → dxOp w = op →
    atomicCheck u p (rs1 u.core[p] w) excLoadMisaligned = none →
    regionOf (rs1 u.core[p] w).toNat = .tcm →
    atomicRead u (rs1 u.core[p] w).toNat = (v, some (old, false)) →
    ∃ t, exec (i p) s = .next t ∧
      t.core[p].get (dxA w) = (if dxA w = 0 then 0 else old) ∧
      t.core[p].pc = u.core[p].pc + 4 ∧
      t.mem = (match f u.core[p] w old with
        | some new => Memory.writeBytes v.mem (rs1 u.core[p] w).toNat (natLe 8 new.toNat)
        | none => v.mem) ∧
      changesOnly [.mem, .tcmErr, .core, .counters, .wraps] v t

/-- One queue pair exists, and one command, which is of it, waits in no other and has not completed; its completion queue has a
place, and its vector is sent at once (R431 to R434). -/
abbrev soleCommand (s : State) (c : HostCtx) (q : Qpair) : Prop :=
  s.host.ctxs = [c] ∧ s.host.qps = [q] ∧ c.port = q.port ∧ c.qp = q.num ∧ c.done = none ∧ c.waitFor = none ∧
    q.held = [] ∧ q.deleting = none ∧ cqFull q = false ∧ q.coal = 0 ∧ vectorMasked s q.port q.vector = false

/-- That command completes with a status and a RESULT: its context is free, and the host has been sent what is listed, the
completion entry, and the vector. -/
abbrev completes (s t : State) (c : HostCtx) (q : Qpair) (status result : Nat) (sent : List HostOut) : Prop :=
  t.host.ctxs = [] ∧ t.host.out = s.host.out ++ sent ++
    [.completion q.port (q.cqBase + 16 * q.cqTail) (cplBytes result c.sqHead (ctxTag c) status q.phase q.num), .msix q.port q.vector]

/-- Memory holds in one state what it holds in another: its bytes, what the caches hold of them, their errors, the reports of
those errors, and the reservations on them.  It says of a command where it stored, by naming the store that gives the first
state. -/
abbrev memoryAs (u t : State) : Prop :=
  t.mem = u.mem ∧ t.poison = u.poison ∧ t.arcade = u.arcade ∧ t.dramErr = u.dramErr ∧ t.chkErr = u.chkErr ∧
    t.dram = u.dram ∧ t.l1d = u.l1d ∧ t.tcmErr = u.tcmErr ∧ t.reports = u.reports ∧ t.core = u.core

/-- A register of a write cell or of a sled. -/
def driverReg (a : Nat) : Bool := (List.range 8).any (fun n => decide (headBase n + 0x5000 ≤ a) && decide (a < headBase n + 0x8000))

/-- Every register outside the addresses listed and outside the write cells and sleds reads the same. -/
def driversBut (s t : State) (l : List Nat) : Prop := ∀ a, a ∉ l → driverReg a = false → rd t a = rd s a

/-- The parts that the loss of a domain's clock reaches: the Crossing, the units of the domain, what they held, and the records and
reports of it. -/
def clockLossParts : List Part :=
  [.regs, .pend, .mem, .poison, .xing, .counters, .wraps, .freeCtr, .arcade, .dramErr, .chkErr, .dram, .tcmErr, .reports, .fifo, .ch,
   .hb, .packets, .packetCtr, .decDiscard, .decDrop, .tiles, .spans, .weakTiles, .shortHeads, .wc, .sled, .host, .arv, .core]

/-- After a reset every register outside the always-on island, but for those listed, reads its reset value. -/
def resetOutside (t : State) (l : List Nat) : Prop := ∀ a, islandReg a = false → a ∉ l → rd t a = rd State.reset a

/-- Every register of the always-on island, but for those listed, reads the same. -/
def islandBut (s t : State) (l : List Nat) : Prop := ∀ a, islandReg a = true → a ∉ l → rd t a = rd s a

/-- The invariant of the block: memory is in its canonical form; x0 of every core reads 0 (R345); and a Crossing whose domain
the variant lacks is WITHDRAWN (R44). -/
def State.Inv (s : State) : Prop :=
  s.MemInv ∧ (∀ k : Fin 4, (s.core[k].x)[0] = 0) ∧
    (∀ x : Fin 52, xingPresent s.variant x.val = false → s.xing[x].st = .withdrawn)

/-- Every part but those listed. -/
def allBut (l : List Part) : List Part :=
  [.variant, .keyFused, .chipTime, .regs, .pend, .mem, .poison, .lastReply, .rbt, .xing, .pace, .links, .counters,
   .wraps, .tbLatch, .pcLatch, .freeCtr, .arcade, .l1d, .l1i, .dramErr, .chkErr, .dram, .dramSelfReq, .tcmErr, .sramErr,
   .reports, .fifo, .ch, .hb, .packets, .packetCtr, .slices, .decWait, .decDiscard, .decDrop, .tiles, .tileCtr, .spans,
   .weakTiles, .shortHeads, .swpSubmits, .swpQueue, .swpCur, .swpStart, .swpOpened, .swpCtr, .swpStop, .swpAborted,
   .winFlags, .swpLate, .swpTail, .wc, .se, .sled, .spn, .cal, .retrained, .host, .disc, .arv, .ddrForce, .clk, .sup,
   .sq, .boot, .pins, .core, .pending].filter (fun p => !(l.contains p))

/-- The parts of the state that a command may change; its meaning leaves every other part as it was. -/
def mayChange : Instr → List Part
  | .registerWrite .. | .sb .. | .sh .. | .sw .. | .sd .. | .strl .. | .vaonRise .. | .railFall .. | .dormantEnter ..
  | .warmReset .. | .coreReset .. | .porRequest .. | .resetPin .. | .recoveryReboot .. | .debugAccess .. =>
      allBut [.variant, .keyFused, .pending]
  | .paceRateRead .. | .permitClaim .. | .permitRelease .. | .headOnlineSet .. | .fifoConfigWrite .. | .arcDisable ..
  | .arcEnable .. | .arcPartWrite .. | .remapDisarm .. | .dramMapWrite .. | .dramInit .. | .dramRetrain .. | .clkRelock ..
  | .calRequest .. | .calRecordRead .. | .watchdogEnable .. | .gpioFuncWrite .. | .gpioOeSet .. | .gpioOeClr ..
  | .gpioOutSet .. | .gpioOutClr .. | .tmrCfgWrite .. =>
      [.regs, .lastReply]
  | .fabricTransfer .. =>
      [.rbt, .links, .hb]
  | .roundaboutGrant .. =>
      [.regs, .rbt]
  | .rbtConfigWrite .. =>
      [.regs, .lastReply, .rbt]
  | .roundaboutStall .. =>
      [.regs, .lastReply, .rbt, .reports]
  | .crossingRequest .. =>
      [.lastReply, .xing]
  | .crossingResetAssert .. | .clockGoodFall .. | .clockGoodRise .. | .crossingAbortDelivered .. | .crossingSideReady ..
  | .sourceFail .. | .sourceGood .. | .lockLost .. | .portEnableWrite .. =>
      [.regs, .mem, .poison, .lastReply, .xing, .counters, .wraps, .arcade, .l1d, .l1i, .dramErr, .chkErr, .dram, .tcmErr,
      .reports, .fifo, .ch, .hb, .packets, .packetCtr, .decDiscard, .decDrop, .tiles, .spans, .weakTiles, .shortHeads,
      .wc, .sled, .host, .arv, .core]
  | .crossingResetRelease .. =>
      [.xing]
  | .paceWindowClose .. =>
      [.regs, .pace, .counters, .wraps, .sup]
  | .rcEnableWrite .. | .sync1WindowOpen .. | .packetComplete .. =>
      [.regs, .mem, .poison, .lastReply, .counters, .wraps, .arcade, .l1d, .l1i, .dramErr, .chkErr, .dram, .tcmErr,
      .reports, .fifo, .ch, .hb, .packets, .packetCtr, .decDiscard, .decDrop, .tiles, .shortHeads, .wc, .core]
  | .rfSampleGroup .. | .sync1Match .. | .sync1WindowEnd .. =>
      [.regs, .counters, .wraps, .ch, .hb]
  | .wedgePass .. =>
      [.regs, .mem, .poison, .lastReply, .xing, .counters, .wraps, .arcade, .l1d, .l1i, .dramErr, .chkErr, .dram, .tcmErr,
      .reports, .fifo, .ch, .hb, .packets, .packetCtr, .decDiscard, .decDrop, .tiles, .spans, .weakTiles, .shortHeads,
      .wc, .se, .spn, .core]
  | .fineEstimate .. =>
      [.regs, .freeCtr, .ch]
  | .sync2WindowOpen .. =>
      [.ch]
  | .sync2WindowEnd .. =>
      [.regs, .counters, .wraps, .ch]
  | .sliceAssign .. =>
      [.regs, .mem, .poison, .lastReply, .counters, .wraps, .freeCtr, .arcade, .l1d, .l1i, .dramErr, .chkErr, .dram,
      .tcmErr, .reports, .fifo, .hb, .packets, .slices, .decWait, .decDiscard, .decDrop, .tiles, .shortHeads, .wc, .core]
  | .sliceBufferFreed .. =>
      [.slices, .decWait]
  | .decodeStart .. | .sectorDecodeDone .. =>
      [.regs, .mem, .poison, .lastReply, .counters, .wraps, .arcade, .l1d, .l1i, .dramErr, .chkErr, .dram, .tcmErr,
      .reports, .fifo, .hb, .packets, .slices, .tiles, .shortHeads, .wc, .core]
  | .tileResultsComplete .. | .tileDecodeDone .. | .tilePoisonRestart .. | .spanDecodeDone .. =>
      [.regs, .mem, .poison, .lastReply, .counters, .wraps, .arcade, .l1d, .l1i, .dramErr, .chkErr, .dram, .tcmErr,
      .reports, .fifo, .tiles, .spans, .weakTiles, .core]
  | .spanDecodeStart .. =>
      [.spans]
  | .spanPoison .. =>
      [.regs, .tiles, .spans]
  | .encoderPacket .. =>
      [.regs, .mem, .poison, .lastReply, .counters, .wraps, .arcade, .l1d, .l1i, .dramErr, .chkErr, .dram, .reports, .hb,
      .wc, .core]
  | .writeSlotStart .. =>
      [.regs, .ch, .hb, .packetCtr, .wc]
  | .writeUnderrun .. =>
      [.regs, .hb, .wc]
  | .writeSlotEnd .. | .verifyResult .. =>
      [.regs, .mem, .poison, .lastReply, .counters, .wraps, .arcade, .l1d, .l1i, .dramErr, .chkErr, .dram, .tcmErr,
      .reports, .fifo, .hb, .shortHeads, .wc, .core]
  | .guardTrip .. =>
      [.regs, .counters, .wraps, .hb, .wc]
  | .guardReturn .. | .guardLatchRelease .. =>
      [.regs, .wc]
  | .wcInhibitWrite .. | .wcEnableWrite .. =>
      [.regs, .lastReply, .hb, .wc]
  | .tableFetchDone .. =>
      [.regs, .mem, .poison, .lastReply, .counters, .wraps, .arcade, .l1d, .l1i, .dramErr, .chkErr, .dram, .reports, .wc,
      .core]
  | .readPowerSample .. =>
      [.regs, .freeCtr, .wc, .cal]
  | .writePowerSample .. =>
      [.regs, .freeCtr, .wc]
  | .seTick .. | .deadlineMiss .. | .seCacheRefetch .. | .msvOut .. | .msvFfa .. | .msvEnd .. | .pwmMidpoint .. =>
      [.regs, .pend, .mem, .poison, .lastReply, .counters, .wraps, .arcade, .l1d, .l1i, .dramErr, .chkErr, .dram, .tcmErr,
      .reports, .fifo, .ch, .hb, .packets, .packetCtr, .decDiscard, .decDrop, .tiles, .spans, .weakTiles, .shortHeads,
      .wc, .se, .spn, .core]
  | .runStart .. =>
      [.regs, .hb, .se]
  | .msvNop .. | .msvMovi .. | .msvLui .. | .msvMov .. | .msvLdc .. | .msvLds .. | .msvSts .. | .msvIn .. | .msvAdd ..
  | .msvAdds .. | .msvSub .. | .msvSubs .. | .msvAddi .. | .msvMul .. | .msvDiv .. | .msvAbs .. | .msvMin .. | .msvMax ..
  | .msvSha .. | .msvAnd .. | .msvOr .. | .msvXor .. | .msvAndi .. | .msvShr .. | .msvMula .. | .msvMac .. | .msvMsu ..
  | .msvLda .. | .msvRnd .. | .msvBiq .. | .msvLim .. | .msvIntg .. | .msvFfv .. | .msvInj .. | .msvCap .. | .msvLut ..
  | .msvBr .. | .msvJmp .. | .msvRep .. | .msvEvt .. =>
      [.se]
  | .msvScs .. =>
      [.freeCtr, .se]
  | .seLoad .. | .capEnableWrite .. =>
      [.regs, .se]
  | .seLoadDone .. =>
      [.regs, .mem, .poison, .lastReply, .counters, .wraps, .arcade, .l1d, .l1i, .dramErr, .chkErr, .dram, .reports, .se,
      .core]
  | .seWindowWrite .. | .sc .. | .amoadd .. | .amoswap .. | .amoand .. | .amoor .. | .cas .. =>
      [.regs, .mem, .poison, .lastReply, .counters, .wraps, .arcade, .l1d, .l1i, .dramErr, .chkErr, .dram, .tcmErr,
      .reports, .core]
  | .seStateWrite .. =>
      [.lastReply, .se]
  | .seStart .. | .seApplyNow .. =>
      [.regs, .pend, .se]
  | .seStop .. =>
      [.regs, .se, .spn]
  | .spindleStart .. | .overcurrentTrip .. | .handoverAgreement .. =>
      [.regs, .counters, .wraps, .spn]
  | .spindleStop .. | .senseTimeEnd .. | .brakeDwellEnd .. | .brakeTimeout .. | .alignDone .. | .handoverTimeout ..
  | .catchTimeout .. =>
      [.regs, .spn]
  | .pwmPeriodStart .. =>
      [.regs, .pend, .counters, .wraps, .spn]
  | .bemfMeasure .. | .detectPulseEnd .. =>
      [.regs, .freeCtr, .spn]
  | .regenPause .. | .programLoad .. | .oscCheck .. | .linkUp .. | .chopRelease .. | .calrefCheck .. | .calTempTrigger ..
  | .kerbProtocolError .. | .smbusNack .. =>
      [.regs]
  | .sledUpdate .. =>
      [.regs, .pend, .mem, .poison, .lastReply, .counters, .wraps, .arcade, .l1d, .l1i, .dramErr, .chkErr, .dram, .tcmErr,
      .reports, .fifo, .ch, .hb, .packets, .packetCtr, .decDiscard, .decDrop, .tiles, .spans, .weakTiles, .shortHeads,
      .wc, .sled, .core]
  | .sldTargetWrite .. | .homeSwitchEdge .. | .switchDebounced .. | .sledUnpark .. | .seek .. =>
      [.regs, .mem, .poison, .lastReply, .counters, .wraps, .arcade, .l1d, .l1i, .dramErr, .chkErr, .dram, .tcmErr,
      .reports, .fifo, .ch, .hb, .packets, .packetCtr, .decDiscard, .decDrop, .tiles, .spans, .weakTiles, .shortHeads,
      .wc, .sled, .core]
  | .revDwellEnd .. =>
      [.regs, .counters, .wraps, .sled]
  | .runCurrentEnd .. | .sledHome .. | .sledPark .. | .sledAbort .. | .sldDrvEnWrite .. =>
      [.regs, .sled]
  | .sweepSubmit .. =>
      [.regs, .lastReply, .swpSubmits]
  | .programLoadDone .. =>
      [.regs, .mem, .poison, .lastReply, .counters, .wraps, .arcade, .l1d, .l1i, .dramErr, .chkErr, .dram, .tcmErr,
      .reports, .fifo, .swpSubmits, .swpQueue, .swpCtr, .core]
  | .sweepStart .. =>
      [.regs, .lastReply, .counters, .wraps, .spans, .swpQueue, .swpCur, .swpStart, .swpOpened, .swpStop, .swpAborted,
      .winFlags, .swpLate, .wc]
  | .sweepStop .. =>
      [.lastReply, .swpStop]
  | .sweepAbort .. =>
      [.regs, .mem, .poison, .lastReply, .counters, .wraps, .arcade, .l1d, .l1i, .dramErr, .chkErr, .dram, .tcmErr,
      .reports, .fifo, .ch, .hb, .packets, .packetCtr, .decDiscard, .decDrop, .tiles, .spans, .weakTiles, .shortHeads,
      .swpQueue, .swpAborted, .swpTail, .wc, .core]
  | .sweepBoundaryCmd .. =>
      [.regs, .pend, .mem, .poison, .lastReply, .counters, .wraps, .freeCtr, .arcade, .l1d, .l1i, .dramErr, .chkErr,
      .dram, .tcmErr, .reports, .fifo, .ch, .hb, .tiles, .spans, .weakTiles, .shortHeads, .se, .spn, .cal, .core]
  | .windowOpen .. =>
      [.regs, .counters, .wraps, .swpOpened, .winFlags]
  | .windowClose .. | .portionStart .. | .headStep .. | .layer .. | .waitPos .. | .waitWedge .. | .waitWedgeReached ..
  | .calSlot .. | .mark .. | .nopStep .. | .endStep .. =>
      [.regs, .mem, .poison, .lastReply, .counters, .wraps, .arcade, .l1d, .l1i, .dramErr, .chkErr, .dram, .tcmErr,
      .reports, .fifo, .hb, .tiles, .spans, .weakTiles, .shortHeads, .core]
  | .readTile .. | .verifyTile .. | .auditTile .. =>
      [.regs, .mem, .poison, .lastReply, .counters, .wraps, .arcade, .l1d, .l1i, .dramErr, .chkErr, .dram, .tcmErr,
      .reports, .fifo, .ch, .hb, .packetCtr, .tiles, .tileCtr, .spans, .weakTiles, .shortHeads, .core]
  | .writeTile .. | .obliterate .. =>
      [.regs, .mem, .poison, .lastReply, .counters, .wraps, .arcade, .l1d, .l1i, .dramErr, .chkErr, .dram, .tcmErr,
      .reports, .fifo, .hb, .tiles, .spans, .weakTiles, .shortHeads, .wc, .core]
  | .allSlotsEnded .. =>
      [.regs, .swpTail]
  | .drainComplete .. =>
      [.regs, .mem, .poison, .lastReply, .counters, .wraps, .arcade, .l1d, .l1i, .dramErr, .chkErr, .dram, .tcmErr,
      .reports, .fifo, .ch, .hb, .tiles, .spans, .shortHeads, .wc, .core]
  | .boundaryApply .. =>
      [.regs, .pend, .mem, .poison, .lastReply, .counters, .wraps, .freeCtr, .arcade, .l1d, .l1i, .dramErr, .chkErr,
      .dram, .tcmErr, .reports, .fifo, .ch, .hb, .tiles, .spans, .weakTiles, .shortHeads, .swpQueue, .swpCur, .swpStart,
      .swpStop, .swpAborted, .winFlags, .swpLate, .wc, .se, .spn, .cal, .retrained, .core]
  | .fifoPop .. | .take .. =>
      [.regs, .mem, .poison, .lastReply, .counters, .wraps, .freeCtr, .arcade, .l1d, .l1i, .dramErr, .chkErr, .dram,
      .tcmErr, .reports, .fifo, .core]
  | .fifoRecordPush .. | .faultReport .. =>
      [.regs, .mem, .poison, .lastReply, .counters, .wraps, .arcade, .l1d, .l1i, .dramErr, .chkErr, .dram, .tcmErr,
      .reports, .fifo, .core]
  | .ringWriteError .. =>
      [.regs, .fifo]
  | .add .. | .sub .. | .and .. | .or .. | .xor .. | .sll .. | .srl .. | .sra .. | .slt .. | .sltu .. | .mul .. | .mulh ..
  | .mulhu .. | .div .. | .divu .. | .rem .. | .remu .. | .addw .. | .clz .. | .addi .. | .andi .. | .ori .. | .xori ..
  | .slli .. | .srli .. | .srai .. | .slti .. | .sltiu .. | .addiw .. | .lui .. | .auipc .. | .beq .. | .bne .. | .blt ..
  | .bge .. | .bltu .. | .bgeu .. | .jal .. | .jalr .. | .lr .. | .fence .. | .ecall .. | .ebreak .. | .sret .. | .csrr ..
  | .csrw .. | .csrs .. | .csrc .. | .wait .. | .rdtime .. | .l1iInvA .. | .l1iInvAll .. | .l1dInvA .. | .l1dInvAll ..
  | .arcCleanA .. | .arcInvA .. | .arcFlushA .. | .arcCleanSw .. | .arcFlushSw .. | .arcFetchA .. | .arcadeRequest ..
  | .arcadeFill .. | .arcDrainDone .. | .scrubRow .. | .illegalInstr .. =>
      [.regs, .mem, .poison, .lastReply, .counters, .wraps, .arcade, .l1d, .l1i, .dramErr, .chkErr, .dram, .reports,
      .core]
  | .lb .. | .lbu .. | .lh .. | .lhu .. | .lw .. | .lwu .. | .ld .. | .ldaq .. =>
      [.regs, .mem, .poison, .lastReply, .counters, .wraps, .tbLatch, .pcLatch, .freeCtr, .arcade, .l1d, .l1i, .dramErr,
      .chkErr, .dram, .tcmErr, .reports, .fifo, .core]
  | .postDoorbell .. | .postUsb2Attach .. | .postFlash .. | .postKerbWord .. | .postSmbusAlert .. | .postTimerPwm ..
  | .postAccepted .. =>
      [.regs, .mem, .poison, .lastReply, .xing, .counters, .wraps, .arcade, .l1d, .l1i, .dramErr, .chkErr, .dram, .tcmErr,
      .reports, .fifo, .ch, .hb, .packets, .packetCtr, .decDiscard, .decDrop, .tiles, .spans, .weakTiles, .shortHeads,
      .wc, .sled, .host, .arv, .boot, .pins, .core]
  | .waitWake .. =>
      [.chipTime, .counters, .wraps, .core]
  | .interruptEntry .. =>
      [.counters, .wraps, .core]
  | .reservationExpire .. =>
      [.core]
  | .timecmpReached .. =>
      [.chipTime]
  | .coreResetCmd .. =>
      [.regs, .lastReply, .clk, .sq, .core]
  | .coreRun .. =>
      [.regs, .lastReply, .core]
  | .l1Fill .. =>
      [.regs, .mem, .poison, .counters, .wraps, .arcade, .l1d, .l1i, .dramErr, .chkErr, .dram, .reports]
  | .l1Disable .. =>
      [.regs, .lastReply, .l1d, .l1i]
  | .dramRequest .. =>
      [.lastReply, .dram]
  | .dramIssue .. =>
      [.regs, .mem, .poison, .lastReply, .counters, .wraps, .dramErr, .chkErr, .dram, .reports, .core]
  | .dramReadReturn .. =>
      [.regs, .lastReply, .counters, .wraps, .dramErr, .chkErr, .dram, .reports]
  | .perBankRefresh .. | .pageIdleExpire .. =>
      [.chkErr, .dram]
  | .mr4Poll .. | .actTableClear .. =>
      [.dram]
  | .remapArm .. | .sramScrub .. =>
      [.regs, .mem, .poison, .lastReply, .counters, .wraps, .freeCtr, .arcade, .l1d, .l1i, .dramErr, .chkErr, .dram,
      .tcmErr, .sramErr, .reports, .fifo, .hb, .packets, .slices, .decWait, .decDiscard, .decDrop, .tiles, .shortHeads,
      .wc, .core]
  | .dramInitDone .. =>
      [.regs, .mem, .poison, .xing, .dramErr, .chkErr, .dram, .reports]
  | .retrainStart .. =>
      [.regs, .xing, .chkErr, .dram, .retrained, .ddrForce]
  | .retrainDone .. =>
      [.regs, .xing, .chkErr, .dram, .dramSelfReq, .reports]
  | .pathLoss .. | .functionReset .. | .ocfgEnableWrite .. | .keyMismatchDelay .. | .closeSession .. | .lockMedia .. =>
      [.regs, .counters, .wraps, .host, .arv]
  | .sqTailDoorbell .. | .cqHeadDoorbell .. =>
      [.regs, .counters, .wraps, .freeCtr, .host]
  | .commandFetch .. =>
      [.regs, .mem, .poison, .lastReply, .counters, .wraps, .arcade, .l1d, .l1i, .dramErr, .chkErr, .dram, .tcmErr,
      .reports, .fifo, .host, .core]
  | .hostCpl .. =>
      [.regs, .mem, .poison, .lastReply, .counters, .wraps, .freeCtr, .arcade, .l1d, .l1i, .dramErr, .chkErr, .dram,
      .reports, .host, .core]
  | .msixCoalesceExpire .. =>
      [.host]
  | .createQp .. | .deleteQp .. | .abort .. | .identify .. | .getLogEvents .. | .getLogPath .. | .eventWait ..
  | .eventLogged .. | .zoneReport .. | .progress .. =>
      [.regs, .counters, .wraps, .host]
  | .read .. | .extentQuery .. | .list .. =>
      [.regs, .mem, .poison, .lastReply, .counters, .wraps, .arcade, .l1d, .l1i, .dramErr, .chkErr, .dram, .reports,
      .host, .core]
  | .write .. | .append .. | .flush .. | .zoneOpen .. | .zoneClose .. | .zoneFinish .. =>
      [.regs, .counters, .wraps, .host, .disc]
  | .writeAccept .. =>
      [.regs, .mem, .poison, .lastReply, .counters, .wraps, .arcade, .l1d, .l1i, .dramErr, .chkErr, .dram, .tcmErr,
      .reports, .host, .disc, .core]
  | .flushComplete .. | .put .. | .pendingAbandon .. =>
      [.regs, .mem, .poison, .lastReply, .counters, .wraps, .arcade, .l1d, .l1i, .dramErr, .chkErr, .dram, .tcmErr,
      .reports, .host, .disc, .arv, .core]
  | .get .. =>
      [.regs, .mem, .poison, .lastReply, .counters, .wraps, .arcade, .l1d, .l1i, .dramErr, .chkErr, .dram, .tcmErr,
      .reports, .host, .arv, .core]
  | .audit .. | .auditResult .. =>
      [.regs, .mem, .poison, .lastReply, .counters, .wraps, .arcade, .l1d, .l1i, .dramErr, .chkErr, .dram, .tcmErr,
      .reports, .fifo, .host, .arv, .core]
  | .openSession .. | .setAdminKey .. | .journalEntryWrite .. | .discMount .. | .discRemoval .. =>
      [.regs, .mem, .poison, .lastReply, .counters, .wraps, .freeCtr, .arcade, .l1d, .l1i, .dramErr, .chkErr, .dram,
      .tcmErr, .reports, .host, .disc, .arv, .core]
  | .format .. | .sanitise .. =>
      [.regs, .counters, .wraps, .freeCtr, .host, .disc, .arv]
  | .sessionTimeout .. =>
      [.regs, .arv]
  | .auditWalk .. =>
      [.regs, .mem, .poison, .lastReply, .counters, .wraps, .arcade, .l1d, .l1i, .dramErr, .chkErr, .dram, .tcmErr,
      .reports, .fifo, .arv, .core]
  | .auditRecordConsume .. =>
      [.regs, .mem, .poison, .lastReply, .counters, .wraps, .freeCtr, .arcade, .l1d, .l1i, .dramErr, .chkErr, .dram,
      .tcmErr, .reports, .fifo, .arv, .core]
  | .weakTileNotice .. =>
      [.regs, .mem, .poison, .lastReply, .counters, .wraps, .arcade, .l1d, .l1i, .dramErr, .chkErr, .dram, .tcmErr,
      .reports, .weakTiles, .arv, .core]
  | .weakRefresh .. =>
      [.regs, .mem, .poison, .lastReply, .counters, .wraps, .arcade, .l1d, .l1i, .dramErr, .chkErr, .dram, .tcmErr,
      .reports, .disc, .arv, .core]
  | .railWindowExit .. | .busUndervoltage .. | .vin12Loss .. | .vlasUndervoltage .. | .boostFault .. =>
      [.regs, .counters, .wraps, .reports, .hb, .wc, .sled, .sup]
  | .supplyGraceExpire .. =>
      [.regs, .counters, .wraps, .hb, .wc, .sled, .spn]
  | .railGood .. | .railEnableTimeout .. =>
      [.regs, .sup]
  | .sequencerRetry .. | .vin12Good .. =>
      [.sup]
  | .govEnableWrite .. =>
      [.regs, .lastReply, .sup]
  | .chopEngage .. | .muxHung .. =>
      [.regs, .counters, .wraps]
  | .chopFault .. =>
      [.regs, .counters, .wraps, .reports, .hb, .wc, .sled, .spn]
  | .busLatch .. =>
      [.regs, .mem, .poison, .lastReply, .counters, .wraps, .arcade, .l1d, .l1i, .dramErr, .chkErr, .dram, .tcmErr,
      .reports, .fifo, .ch, .hb, .packets, .packetCtr, .decDiscard, .decDrop, .tiles, .spans, .weakTiles, .shortHeads,
      .wc, .sled, .spn, .core]
  | .chopClr .. =>
      [.regs, .lastReply, .hb, .wc, .sled, .spn]
  | .latchClr .. =>
      [.regs, .lastReply, .hb, .wc, .sled]
  | .mbusEnableWrite .. | .boostEnableWrite .. | .boostClr .. =>
      [.regs, .lastReply, .hb, .wc, .sled, .sup]
  | .boostSoftStartDone .. =>
      [.regs, .hb, .wc, .sup]
  | .wakeEvent .. | .supAlarmReached .. | .gpioEdgeEvent .. =>
      [.regs, .xing, .counters, .wraps, .dram, .host, .sup, .boot, .pins]
  | .wakeRdyRelease .. =>
      [.regs, .host, .sup]
  | .loopLock .. =>
      [.regs, .mem, .poison, .lastReply, .xing, .counters, .wraps, .arcade, .l1d, .l1i, .dramErr, .chkErr, .dram, .tcmErr,
      .reports, .fifo, .ch, .hb, .packets, .packetCtr, .decDiscard, .decDrop, .tiles, .spans, .weakTiles, .shortHeads,
      .wc, .sled, .host, .arv, .ddrForce, .core]
  | .refSwitch .. | .clkoutSelect .. =>
      [.regs, .lastReply, .clk]
  | .muxSwitchDone .. | .clkRescue .. | .rescueDone .. =>
      [.regs, .mem, .poison, .lastReply, .xing, .counters, .wraps, .arcade, .l1d, .l1i, .dramErr, .chkErr, .dram, .tcmErr,
      .reports, .fifo, .ch, .hb, .packets, .packetCtr, .decDiscard, .decDrop, .tiles, .spans, .weakTiles, .shortHeads,
      .wc, .sled, .host, .arv, .clk, .core]
  | .clkoutDivChange .. =>
      [.clk]
  | .timeReadLatch .. =>
      [.lastReply, .tbLatch]
  | .counterReadLatch .. =>
      [.lastReply, .pcLatch]
  | .calAutoRun .. =>
      [.regs, .cal]
  | .calRunDone .. =>
      [.regs, .mem, .poison, .lastReply, .counters, .wraps, .freeCtr, .arcade, .l1d, .l1i, .dramErr, .chkErr, .dram,
      .tcmErr, .reports, .fifo, .hb, .shortHeads, .cal, .core]
  | .calIdleApply .. =>
      [.regs, .mem, .poison, .lastReply, .counters, .wraps, .freeCtr, .arcade, .l1d, .l1i, .dramErr, .chkErr, .dram,
      .tcmErr, .reports, .ch, .se, .cal, .core]
  | .calRecordWrite .. =>
      [.regs, .lastReply, .counters, .wraps, .cal]
  | .heartbeatLoss .. =>
      [.regs, .mem, .poison, .lastReply, .rbt, .counters, .wraps, .freeCtr, .arcade, .l1d, .l1i, .dramErr, .chkErr, .dram,
      .tcmErr, .reports, .fifo, .ch, .hb, .packets, .packetCtr, .slices, .decWait, .decDiscard, .decDrop, .tiles, .spans,
      .weakTiles, .shortHeads, .wc, .se, .sled, .spn, .sq, .core]
  | .fmIsolate .. =>
      [.regs, .mem, .poison, .lastReply, .counters, .wraps, .arcade, .l1d, .l1i, .dramErr, .chkErr, .dram, .tcmErr,
      .reports, .fifo, .hb, .wc, .se, .sled, .spn, .core]
  | .fmReinstate .. =>
      [.regs, .pend, .mem, .poison, .lastReply, .rbt, .xing, .counters, .wraps, .arcade, .l1d, .l1i, .dramErr, .chkErr,
      .dram, .tcmErr, .reports, .fifo, .ch, .hb, .packets, .packetCtr, .decDiscard, .decDrop, .tiles, .shortHeads, .wc,
      .se, .sled, .clk, .sq, .core]
  | .lockstepMismatch .. | .safeReq .. =>
      [.regs, .mem, .poison, .lastReply, .counters, .wraps, .arcade, .l1d, .l1i, .dramErr, .chkErr, .dram, .tcmErr,
      .reports, .fifo, .hb, .wc, .sled, .spn, .core]
  | .safeExt .. | .wdExpire .. =>
      [.regs, .mem, .poison, .lastReply, .counters, .wraps, .arcade, .l1d, .l1i, .dramErr, .chkErr, .dram, .tcmErr,
      .reports, .fifo, .hb, .wc, .sled, .spn, .sq, .core]
  | .sqKick .. =>
      [.lastReply, .sq]
  | .boot .. =>
      [.regs, .mem, .poison, .lastReply, .xing, .counters, .wraps, .freeCtr, .arcade, .l1d, .l1i, .dramErr, .chkErr,
      .dram, .tcmErr, .reports, .fifo, .ch, .hb, .packets, .packetCtr, .decDiscard, .decDrop, .tiles, .spans, .weakTiles,
      .shortHeads, .wc, .sled, .host, .arv, .boot, .core]
  | .recoveryStatus .. | .recoveryRead .. | .mgmtStatus .. | .mgmtUnsupportedRequest .. | .smbusAlertResponse .. =>
      [.lastReply]
  | .recoveryErase .. | .recoveryProgram .. =>
      [.lastReply, .boot]
  | .spiTransferDone .. =>
      [.regs, .mem, .poison, .lastReply, .counters, .wraps, .arcade, .l1d, .l1i, .dramErr, .chkErr, .dram, .tcmErr,
      .reports, .boot, .core]
  | .spiBusyTimeout .. =>
      [.regs, .boot]
  | .timerPeriodStart .. | .kerbResponderSwitch .. | .kerbCopyRefresh .. | .kerbStrobeRise .. =>
      [.pins]
  | .kerbStatusRead .. | .kerbAckAccess .. | .smbusReadWord .. | .smbusBlockRead .. =>
      [.lastReply, .pins]
  | .kerbInboundWrite .. | .kerbCommandWrite .. | .kerbIntClear .. =>
      [.regs, .lastReply, .pins]
  | .kerbWakeWord .. =>
      [.regs, .lastReply, .xing, .counters, .wraps, .dram, .host, .sup, .boot, .pins]
  | .jtagTapReset .. | .extest .. | .clamp .. | .highz .. | .bypass .. =>
      [.regs, .hb, .wc, .sled, .spn, .pins]
  | .idcode .. =>
      [.regs, .lastReply, .hb, .wc, .sled, .spn, .pins]
  | .samplePreload .. =>
      [.regs, .lastReply, .freeCtr, .hb, .wc, .sled, .spn, .pins]
  | .railWindowReturn .. =>
      [.regs, .hb, .wc, .sled, .sup]

end Machine
end Sys2Proof
end

