-- ==== Sys2Proof/Certificates/Slice0/Obligations.lean ====
section
/-! DEFINITION. The statements about the block that are put to the provers. -/

section

open Sys2Proof Sys2Proof.Machine

/-- R57: a claim of a free permit, a claim of a held one, a release by the owner and a release by another agent. Each answers a
next state that differs from the present one in that permit's register and the reply alone. -/
def Obligations.PermitClaimsAndReleases : Prop :=
  ∀ (s : State) (agent : Agent) (n : PermitId) (feature : BitVec 7),
    (fget s (fldPERMIT_OWNER n) = 0 →
      ∃ t, exec (.permitClaim agent n feature) s = .next t ∧ fget t (fldPERMIT_OWNER n) = agent.id ∧
        fget t (fldPERMIT_FEATURE n) = feature.toNat ∧ fget t (fldPERMIT_DENIED n) = fget s (fldPERMIT_DENIED n) ∧
        fget t (fldPERMIT_DENY_ID n) = fget s (fldPERMIT_DENY_ID n) ∧ regsBut s t [regPERMIT n] ∧
        changesOnly [.regs, .lastReply] s t) ∧
    (fget s (fldPERMIT_OWNER n) ≠ 0 →
      ∃ t, exec (.permitClaim agent n feature) s = .next t ∧ fget t (fldPERMIT_OWNER n) = fget s (fldPERMIT_OWNER n) ∧
        fget t (fldPERMIT_FEATURE n) = fget s (fldPERMIT_FEATURE n) ∧ fget t (fldPERMIT_DENIED n) = 1 ∧
        fget t (fldPERMIT_DENY_ID n) = agent.id ∧ regsBut s t [regPERMIT n] ∧
        changesOnly [.regs, .lastReply] s t) ∧
    (fget s (fldPERMIT_OWNER n) = agent.id →
      ∃ t, exec (.permitRelease agent n) s = .next t ∧ fget t (fldPERMIT_OWNER n) = 0 ∧
        fget t (fldPERMIT_FEATURE n) = fget s (fldPERMIT_FEATURE n) ∧ fget t (fldPERMIT_DENIED n) = fget s (fldPERMIT_DENIED n) ∧
        fget t (fldPERMIT_DENY_ID n) = fget s (fldPERMIT_DENY_ID n) ∧ regsBut s t [regPERMIT n] ∧
        changesOnly [.regs, .lastReply] s t) ∧
    (fget s (fldPERMIT_OWNER n) ≠ agent.id →
      ∃ t, exec (.permitRelease agent n) s = .next t ∧ fget t (fldPERMIT_OWNER n) = fget s (fldPERMIT_OWNER n) ∧
        fget t (fldPERMIT_FEATURE n) = fget s (fldPERMIT_FEATURE n) ∧ fget t (fldPERMIT_DENIED n) = 1 ∧
        fget t (fldPERMIT_DENY_ID n) = agent.id ∧ regsBut s t [regPERMIT n] ∧
        changesOnly [.regs, .lastReply] s t)

/-- R23, with the order of R24: FABRIC_TRANSFER appends its whole payload to what has arrived over its path, and every other path
keeps what it has. Where a rule leaves a point open, the model's own choice stands (log 24). -/
def Obligations.FabricTransferArrivesWhole : Prop :=
  ∀ (s : State) (src dst : Nat) (hops : List Hop) (payload : List Byte),
    ∃ t, exec (.fabricTransfer src dst hops payload) s = .next t ∧
      arrivedOver t.links src dst hops = arrivedOver s.links src dst hops ++ [payload] ∧
      (∀ a b h, ¬ (a = src ∧ b = dst ∧ h = hops) → arrivedOver t.links a b h = arrivedOver s.links a b h) ∧
      changesOnly [.links, .rbt] s t

/-- R37: on a Roundabout with no request and no transfer in flight a write of RBT_CFG, RBT_WGT0 or RBT_WGT1 stores its value at
once and PENDING does not change; otherwise it waits: PENDING is 1 and the register keeps its value. The waiting writes are in
force, and PENDING is 0, once ROUNDABOUT_GRANT has opened the next window. Where a rule leaves a point open, the model's own
choice stands (log 8). -/
def Obligations.RoundaboutWritesWaitForTheWindow : Prop :=
  ∀ (s : State) (agent : Agent) (r : RbtId) (reg : RbtReg) (v : Word), absentAt s.variant (rbtBase r) = false →
    (s.rbt[r].waiting = [] → s.rbt[r].inFlight = [] →
      ∃ t, exec (.rbtConfigWrite agent r reg v) s = .next t ∧
        rd t (rbtRegAddr r reg) = BitVec.ofNat 32 (rbtCfgValue s.variant r reg v.toNat) ∧
        fget t (fldRBT_STAT_PENDING r) = fget s (fldRBT_STAT_PENDING r) ∧ regsBut s t [rbtRegAddr r reg, regRBT_STAT r] ∧
        changesOnly [.regs, .lastReply] s t) ∧
    (s.rbt[r].waiting ≠ [] →
      ∃ t, exec (.rbtConfigWrite agent r reg v) s = .next t ∧ fget t (fldRBT_STAT_PENDING r) = 1 ∧
        t.rbt[r] = rbtHold reg (BitVec.ofNat 32 (rbtCfgValue s.variant r reg v.toNat)) s.rbt[r] ∧
        regsBut s t [regRBT_STAT r] ∧ changesOnly [.regs, .rbt, .lastReply] s t) ∧
    (s.rbt[r].waiting ≠ [] → s.rbt[r].isOpen = false → fget s (fldRBT_STAT_PENDING r) = 1 →
      ∃ t, exec (.roundaboutGrant r []) s = .next t ∧ fget t (fldRBT_STAT_PENDING r) = 0 ∧
        rd t (regRBT_CFG r) = s.rbt[r].pendCfg.getD (rd s (regRBT_CFG r)) ∧
        rd t (regRBT_WGT0 r) = s.rbt[r].pendWgt0.getD (rd s (regRBT_WGT0 r)) ∧
        rd t (regRBT_WGT1 r) = s.rbt[r].pendWgt1.getD (rd s (regRBT_WGT1 r)))

/-- R30: a granted transfer that the target has not acknowledged ends with a bus error, STALL sets and a report of class RBT_STALL
that names the target is raised (its class and fields: R539). Where a rule leaves a point open, the model's own choice stands
(log 26). -/
def Obligations.StalledTransferIsReported : Prop :=
  ∀ (s : State) (r : RbtId) (port target : Fin 16),
    (∃ g ∈ s.rbt[r].inFlight, g.port = port ∧ g.target = target) →
      ∃ t, exec (.roundaboutStall r port target) s = .next t ∧ t.lastReply.status = .busError ∧
        fget t (fldRBT_STAT_STALL r) = 1 ∧
        t.rbt[r].inFlight.length + 1 = s.rbt[r].inFlight.length ∧
        (∃ q ∈ t.reports, q.cls = 0x06 ∧ (q.level, q.district, q.avPort) = rbtPlace r) ∧
        changesOnly [.regs, .rbt, .reports, .lastReply] s t

/-- R27 and R28: ROUNDABOUT_GRANT in an open window with no new arrivals. Below the cap an urgent request goes first, and the turn
does not move; with no urgent request to grant, the port whose turn it is goes on while its weight lasts, and otherwise the
next requesting port in ascending cyclic order takes the turn. Either way exactly one request becomes a transfer in flight,
and the window counts it. -/
def Obligations.RoundaboutGrantsInTurn : Prop :=
  (∀ (s : State) (r : RbtId) (g : RbtRequest),
    s.rbt[r].isOpen = true →
    s.rbt[r].winUrgent < fget s (fldRBT_CFG_URG_CAP r) →
    s.rbt[r].waiting.find? (rbtUrgent s r) = some g →
    ∃ t, exec (.roundaboutGrant r []) s = .next t ∧
      t.rbt[r].inFlight = s.rbt[r].inFlight ++ [⟨g.port, g.target, s.chipTime⟩] ∧
      t.rbt[r].waiting = s.rbt[r].waiting.erase g ∧
      t.rbt[r].turn = s.rbt[r].turn ∧
      t.rbt[r].used = s.rbt[r].used ∧
      t.rbt[r].winUrgent = s.rbt[r].winUrgent + 1 ∧
      t.rbt[r].winGrants = s.rbt[r].winGrants + 1 ∧
      regsBut s t [regRBT_STAT r] ∧
      changesOnly [.regs, .rbt] s t) ∧
  (∀ (s : State) (r : RbtId) (g : RbtRequest),
    s.rbt[r].isOpen = true →
    s.rbt[r].waiting.find? (rbtUrgent s r) = none →
    s.rbt[r].waiting.find? (fun w => w.port.val = s.rbt[r].turn) = some g →
    s.rbt[r].used < rbtWeight s r s.rbt[r].turn →
    ∃ t, exec (.roundaboutGrant r []) s = .next t ∧
      t.rbt[r].inFlight = s.rbt[r].inFlight ++ [⟨g.port, g.target, s.chipTime⟩] ∧
      t.rbt[r].waiting = s.rbt[r].waiting.erase g ∧
      t.rbt[r].turn = s.rbt[r].turn ∧
      t.rbt[r].used = s.rbt[r].used + 1 ∧
      t.rbt[r].winGrants = s.rbt[r].winGrants + 1 ∧
      regsBut s t [regRBT_STAT r] ∧
      changesOnly [.regs, .rbt] s t) ∧
  (∀ (s : State) (r : RbtId) (g : RbtRequest),
    s.rbt[r].isOpen = true →
    s.rbt[r].waiting.find? (rbtUrgent s r) = none →
    s.rbt[r].turn < 16 →
    rbtWeight s r s.rbt[r].turn ≤ s.rbt[r].used →
    s.rbt[r].waiting.find? (fun w => w.port.val = (s.rbt[r].turn + 1) % 16) = some g →
    ∃ t, exec (.roundaboutGrant r []) s = .next t ∧
      t.rbt[r].inFlight = s.rbt[r].inFlight ++ [⟨g.port, g.target, s.chipTime⟩] ∧
      t.rbt[r].waiting = s.rbt[r].waiting.erase g ∧
      t.rbt[r].turn = (s.rbt[r].turn + 1) % 16 ∧
      t.rbt[r].used = 1 ∧
      t.rbt[r].winGrants = s.rbt[r].winGrants + 1 ∧
      regsBut s t [regRBT_STAT r] ∧
      changesOnly [.regs, .rbt] s t)

/-- R39 to R41, R43 and R594, as the table of R40 gives it: requests at a Crossing (which pass, end with CROSSING_RESET, or are
held by a side that was reset and has not reported ready; a side in reset presents none), the withdrawal by a reset and by a
lost clock, the delivery of the abort tokens, the release of the reset, and the re-arming once both sides are ready. Also:
R43, with R39 and R40: a withdrawal of a Crossing below 32 sets its WITHDREW bit and clears its ARMED bit, and its re-arming
sets ARMED; CLK_GOOD0 shows the clock-good flag. Where a rule leaves a point open, the model's own choice stands (log 85). -/
def Obligations.CrossingTableAndEventBits : Prop :=
  (∀ (s : State) (x : XingId) (side : Side) (tag : Nat) (awaits : Bool),
    s.xing[x].st = .armed →
    xingUp s.xing[x] side = true →
    ∃ t, exec (.crossingRequest x side tag awaits) s = .next t ∧
      t.lastReply.status = .ok ∧
      t.xing[x].st = .armed ∧
      t.xing[x].passed = [tag] ∧
      changesOnly [.xing, .lastReply] s t) ∧
  (∀ (s : State) (x : XingId) (side : Side) (tag : Nat) (awaits : Bool),
    s.xing[x].st ≠ .armed →
    xingUp s.xing[x] side = true →
    ∃ t, exec (.crossingRequest x side tag awaits) s = .next t ∧
      t.lastReply.status = .crossingReset ∧
      t.xing[x].st = s.xing[x].st ∧
      t.xing[x].passed = s.xing[x].passed ∧
      t.xing[x].pendClk = s.xing[x].pendClk ∧
      t.xing[x].pendSelf = s.xing[x].pendSelf ∧
      changesOnly [.xing, .lastReply] s t) ∧
  (∀ (s : State) (x : XingId) (side : Side) (tag : Nat) (awaits : Bool),
    xingReset s.xing[x] side = false →
    xingFresh s.xing[x] side = true →
    ∃ t, exec (.crossingRequest x side tag awaits) s = .next t ∧
      t.xing[x].st = s.xing[x].st ∧
      (t.xing[x].heldClk = if side = .clocked then s.xing[x].heldClk ++ [(tag, awaits)] else s.xing[x].heldClk) ∧
      (t.xing[x].heldSelf = if side = .selfTimed then s.xing[x].heldSelf ++ [(tag, awaits)] else s.xing[x].heldSelf) ∧
      t.xing[x].passed = s.xing[x].passed ∧
      changesOnly [.xing] s t) ∧
  (∀ (s : State) (x : XingId) (side : Side) (tag : Nat) (awaits : Bool),
    xingReset s.xing[x] side = true →
    ∃ t, exec (.crossingRequest x side tag awaits) s = .next t ∧
      changesOnly [] s t) ∧
  (∀ (s : State) (x : XingId) (side : Side),
    xingPresent s.variant x = true →
    s.xing[x].st ≠ .withdrawn →
    ∃ t, exec (.crossingResetAssert x side) s = .next t ∧
      t.xing[x].st = .withdrawn ∧
      xingReset t.xing[x] side = true ∧
      xingFresh t.xing[x] side = true ∧
      t.xing[x].pendClk = [] ∧
      t.xing[x].pendSelf = [] ∧
      (side = .clocked → t.xing[x].tokSelf = s.xing[x].tokSelf ++ s.xing[x].pendSelf ∧ t.xing[x].heldClk = []) ∧
      (side = .selfTimed → t.xing[x].tokClk = s.xing[x].tokClk ++ s.xing[x].pendClk ∧ t.xing[x].heldSelf = []) ∧
      (∀ y : XingId, y ≠ x → t.xing[y] = s.xing[y])) ∧
  (∀ (s : State) (x : XingId),
    xingPresent s.variant x = true →
    s.xing[x].st ≠ .withdrawn →
    ∃ t, exec (.clockGoodFall x) s = .next t ∧
      t.xing[x].st = .withdrawn ∧
      t.xing[x].clkGood = false ∧
      t.xing[x].pendClk = [] ∧
      t.xing[x].pendSelf = [] ∧
      t.xing[x].tokSelf = s.xing[x].tokSelf ++ s.xing[x].pendSelf ∧
      (∀ y : XingId, y ≠ x → t.xing[y] = s.xing[y])) ∧
  (∀ (s : State) (x : XingId),
    s.xing[x].st ≠ .waitReady →
    ∃ t, exec (.crossingAbortDelivered x) s = .next t ∧
      t.xing[x].tokClk = [] ∧
      t.xing[x].tokSelf = [] ∧
      t.xing[x].st = s.xing[x].st ∧
      changesOnly [.xing] s t) ∧
  (∀ (s : State) (x : XingId),
    s.xing[x].st = .waitReady →
    xingUp s.xing[x] .clocked = true →
    xingUp s.xing[x] .selfTimed = true →
    ∃ t, exec (.crossingAbortDelivered x) s = .next t ∧
      t.xing[x].tokClk = [] ∧
      t.xing[x].tokSelf = [] ∧
      t.xing[x].st = .armed ∧
      (∀ y : XingId, y ≠ x → t.xing[y] = s.xing[y])) ∧
  (∀ (s : State) (x : XingId) (side : Side),
    xingPresent s.variant x = true →
    s.xing[x].st = .withdrawn →
    s.xing[x].clkGood = true →
    s.xing[x].rstClk = (side == .clocked) →
    s.xing[x].rstSelf = (side == .selfTimed) →
    ∃ t, exec (.crossingResetRelease x side) s = .next t ∧
      t.xing[x].st = .waitReady ∧
      t.xing[x].rstClk = false ∧
      t.xing[x].rstSelf = false ∧
      xingFresh t.xing[x] side = xingFresh s.xing[x] side ∧
      changesOnly [.xing] s t) ∧
  (∀ (s : State) (x : XingId) (side : Side),
    s.xing[x].st = .withdrawn →
    xingReset s.xing[x] (if side = .clocked then .selfTimed else .clocked) = true →
    ∃ t, exec (.crossingResetRelease x side) s = .next t ∧
      t.xing[x].st = .withdrawn ∧
      changesOnly [.xing] s t) ∧
  (∀ (s : State) (x : XingId),
    xingPresent s.variant x = true →
    s.xing[x].st = .withdrawn →
    s.xing[x].rstClk = false →
    s.xing[x].rstSelf = false →
    ∃ t, exec (.clockGoodRise x) s = .next t ∧
      t.xing[x].st = .waitReady ∧
      t.xing[x].clkGood = true ∧
      clkGood t x = true ∧
      regsBut s t [regCLK_GOOD0, regCLK_GOOD1] ∧
      changesOnly [.xing, .regs] s t) ∧
  (∀ (s : State) (x : XingId),
    s.xing[x].st = .waitReady →
    xingReset s.xing[x] .clocked = false →
    xingReady s.xing[x] .selfTimed = true →
    ∃ t, exec (.crossingSideReady x .clocked) s = .next t ∧
      t.xing[x].st = .armed ∧
      t.xing[x].freshClk = false ∧
      t.xing[x].passed = s.xing[x].heldClk.map (·.1) ++ s.xing[x].heldSelf.map (·.1) ∧
      t.xing[x].heldClk = [] ∧
      t.xing[x].heldSelf = [] ∧
      t.xing[x].pendClk = (s.xing[x].heldClk.filter (·.2)).map (·.1) ∧
      t.xing[x].pendSelf = (s.xing[x].heldSelf.filter (·.2)).map (·.1) ∧
      (∀ y : XingId, y ≠ x → t.xing[y] = s.xing[y])) ∧
  (∀ (s : State) (x : XingId),
    s.xing[x].st = .waitReady →
    s.xing[x].rstSelf = false →
    s.xing[x].tokSelf = [] →
    xingReady s.xing[x] .clocked = false →
    ∃ t, exec (.crossingSideReady x .selfTimed) s = .next t ∧
      t.xing[x].st = .waitReady ∧
      t.xing[x].freshSelf = false ∧
      (∀ y : XingId, y ≠ x → t.xing[y] = s.xing[y]) ∧
      changesOnly [.xing] s t) ∧
  (∀ (s : State) (x : XingId),
    s.xing[x].st = .waitReady →
    s.xing[x].rstSelf = false →
    s.xing[x].tokSelf = [] →
    xingReady s.xing[x] .clocked = true →
    ∃ t, exec (.crossingSideReady x .selfTimed) s = .next t ∧
      t.xing[x].st = .armed ∧
      t.xing[x].freshSelf = false ∧
      (∀ y : XingId, y ≠ x → t.xing[y] = s.xing[y])) ∧
  (∀ (s : State) (x : XingId) (side : Side),
    x.val < 16 →
    xingPresent s.variant x = true →
    s.xing[x].st = .armed →
    ∃ t, exec (.crossingResetAssert x side) s = .next t ∧
      fbitAt t fldXING_EVT0_WITHDREW x = true ∧
      fbitAt t fldXING_ARMED0_ARMED x = false) ∧
  (∀ (s : State) (x : XingId),
    (8 ≤ x.val ∧ x.val < 16) →
    xingPresent s.variant x = true →
    s.xing[x].st = .armed →
    ∃ t, exec (.clockGoodFall x) s = .next t ∧
      fbitAt t fldXING_EVT0_WITHDREW x = true ∧
      fbitAt t fldXING_ARMED0_ARMED x = false ∧
      fbitAt t fldCLK_GOOD0_GOOD x = false ∧
      regsBut s t [regXING_EVT0, regXING_ARMED0, regCLK_GOOD0] ∧
      changesOnly [.regs, .xing] s t) ∧
  (∀ (s : State) (x : XingId),
    (8 ≤ x.val ∧ x.val < 16) →
    s.xing[x].st = .waitReady →
    xingReset s.xing[x] .clocked = false →
    xingReady s.xing[x] .selfTimed = true →
    ∃ t, exec (.crossingSideReady x .clocked) s = .next t ∧
      t.xing[x].st = .armed ∧
      fbitAt t fldXING_ARMED0_ARMED x = true ∧
      regsBut s t [regXING_ARMED0] ∧
      changesOnly [.regs, .xing] s t)

/-- R13 over the pace registers and the cell error registers, with R9, R10 and R51: PACE_TARGET stores both its fields, PACE_STAT
loses the sticky bits that a write gives as 1 and keeps its other fields, a CELL_ERR loses HB_LOST, UE and CE where they are
written as 1 and keeps FAULT and CLASS, a write of a width other than 4 bytes or off its alignment ends with a bus error and
changes nothing, and so does no write to a unit that the part does not have. A read of PACE_RATE answers the register and
restores MIN_RATE. -/
def Obligations.RegisterWritesByAccessType : Prop :=
  (∀ (s : State) (k : Fin 4) (d : District) (v : Word),
    absentAt s.variant (regPACE_TARGET d) = false →
    ∃ t, exec (.registerWrite (.core k) (BitVec.ofNat 40 (regPACE_TARGET d)) .b4 v) s = .next t ∧
      t.lastReply.status = .ok ∧
      fget t (fldPACE_TARGET_FIXED d) = bitsOf v.toNat 31 16 ∧
      fget t (fldPACE_TARGET_VAR d) = bitsOf v.toNat 15 0 ∧
      regsBut s t [regPACE_TARGET d] ∧
      changesOnly [.regs, .lastReply] s t) ∧
  (∀ (s : State) (k : Fin 4) (d : District) (v : Word),
    absentAt s.variant (regPACE_STAT d) = false →
    ∃ t, exec (.registerWrite (.core k) (BitVec.ofNat 40 (regPACE_STAT d)) .b4 v) s = .next t ∧
      t.lastReply.status = .ok ∧
      (fget t (fldPACE_STAT_SHORT_SEEN d) = if bitsOf v.toNat 1 1 = 1 then 0 else fget s (fldPACE_STAT_SHORT_SEEN d)) ∧
      fget t (fldPACE_STAT_SHORT d) = fget s (fldPACE_STAT_SHORT d) ∧
      fget t (fldPACE_STAT_EFF_TARGET d) = fget s (fldPACE_STAT_EFF_TARGET d) ∧
      regsBut s t [regPACE_STAT d] ∧
      changesOnly [.regs, .lastReply] s t) ∧
  (∀ (s : State) (k : Fin 4) (c : Fin 1280) (v : Word),
    c.val % 64 < blockCells (c.val / 64) →
    absentAt s.variant (regCELL_ERR c.val) = false →
    ∃ t, exec (.registerWrite (.core k) (BitVec.ofNat 40 (regCELL_ERR c.val)) .b4 v) s = .next t ∧
      t.lastReply.status = .ok ∧
      (fget t (fldCELL_ERR_HB_LOST c.val) = if bitsOf v.toNat 2 2 = 1 then 0 else fget s (fldCELL_ERR_HB_LOST c.val)) ∧
      (fget t (fldCELL_ERR_UE c.val) = if bitsOf v.toNat 1 1 = 1 then 0 else fget s (fldCELL_ERR_UE c.val)) ∧
      (fget t (fldCELL_ERR_CE c.val) = if bitsOf v.toNat 0 0 = 1 then 0 else fget s (fldCELL_ERR_CE c.val)) ∧
      fget t (fldCELL_ERR_FAULT c.val) = fget s (fldCELL_ERR_FAULT c.val) ∧
      fget t (fldCELL_ERR_CLASS c.val) = fget s (fldCELL_ERR_CLASS c.val) ∧
      regsBut s t [regCELL_ERR c.val] ∧
      changesOnly [.regs, .lastReply] s t) ∧
  (∀ (s : State) (k : Fin 4) (a : BitVec 40) (w : Width) (v : Word),
    regionOf a.toNat = .device →
    (w ≠ .b4 ∨ a.toNat % 4 ≠ 0) →
    ∃ t, exec (.registerWrite (.core k) a w v) s = .next t ∧
      t.lastReply.status = .busError ∧
      changesOnly [.lastReply] s t) ∧
  (∀ (s : State) (k : Fin 4) (a : BitVec 40) (v : Word),
    regionOf a.toNat = .device →
    a.toNat % 4 = 0 →
    fencedAt s a.toNat = false →
    absentAt s.variant a.toNat = true →
    ∃ t, exec (.registerWrite (.core k) a .b4 v) s = .next t ∧
      t.lastReply.status = .ok ∧
      changesOnly [.lastReply] s t) ∧
  (∀ (s : State) (agent : Agent) (d : District),
    absentAt s.variant (paceBase d) = false →
    ∃ t, exec (.paceRateRead agent d) s = .next t ∧
      t.lastReply.value = (rd s (regPACE_RATE d)).toNat ∧
      fget t (fldPACE_RATE_MIN_RATE d) = 0xFFFF ∧
      fget t (fldPACE_RATE_RATE d) = fget s (fldPACE_RATE_RATE d) ∧
      regsBut s t [regPACE_RATE d] ∧
      changesOnly [.regs, .lastReply] s t)

/-- R48 to R51: out of reset, at the end of a window whose monitor counted it, a district shows the rate, keeps the least one,
shows SHORT exactly when the rate is below its effective target, and makes it sticky. With GOV_EN 0 the supply set point
keeps. Where a rule leaves a point open, the model's own choice stands (log 25). -/
def Obligations.PaceWindowJudgesEachDistrict : Prop :=
  ∀ (s : State) (rates : Vector (BitVec 16) 5) (vcore : BitVec 16) (d : District),
    inReset s = false →
    districtPresent s.variant d = true →
    s.pace[d].counting = true →
    fget s fldSUP_CTL_GOV_EN = 0 →
    ∃ t, exec (.paceWindowClose rates vcore) s = .next t ∧
      fget t (fldPACE_RATE_RATE d) = rates[d].toNat ∧
      fget t (fldPACE_RATE_MIN_RATE d) = Nat.min rates[d].toNat (fget s (fldPACE_RATE_MIN_RATE d)) ∧
      (fget t (fldPACE_STAT_SHORT d) = 1 ↔ rates[d].toNat < effTarget s d) ∧
      (rates[d].toNat < effTarget s d → fget t (fldPACE_STAT_SHORT_SEEN d) = 1) ∧
      fget t fldSUP_VCORE_VSET = fget s fldSUP_VCORE_VSET ∧
      changesOnly [.regs, .pace] s t

/-- The front end of a read channel, each command by its rule: ENABLE rising loads the initial gains and falling ends an open
packet ABORTED (R96, R102, R120); a group of samples enters the buffer of an ARMED RF Crossing and, where the pace allows, the
channels at once, one that finds the buffer full is lost, a lost one sets SAMPLE_LOSS, and one with a saturated sample sets
SAT, on every channel of the head that is on (R99, R116, R117, R130); a found SAM and a found index mark advance and clear the
wedge count (R111, R112); a missed SAM predicts the time of the wedge and sets WEDGE_MISS (R112); a channel with its search
off takes no wedge (R131); channels B1 and B2 send the fine estimate from the energies of their canceller's taps (R128). Where
a rule leaves a point open, the model's own choice stands (log 14, 28, 29, 84). -/
def Obligations.ReadChannelFrontEnd : Prop :=
  (∀ (s : State) (agent : Agent) (c : Chan),
    absentAt s.variant (rcBase c) = false →
    fget s (fldRC_CTL_ENABLE c) = 0 →
    ∃ t, exec (.rcEnableWrite agent c true) s = .next t ∧
      fget t (fldRC_CTL_ENABLE c) = 1 ∧
      fget t (fldAGC_GAIN_DATA_GAIN c) = fget s (fldAGC_CFG_DATA_INIT c) ∧
      fget t (fldAGC_GAIN_WEDGE_GAIN c) = fget s (fldAGC_CFG_WEDGE_INIT c) ∧
      regsBut s t [regRC_CTL c, regAGC_GAIN c] ∧
      changesOnly [.regs, .ch, .lastReply] s t) ∧
  (∀ (s : State) (agent : Agent) (c : Chan),
    absentAt s.variant (rcBase c) = false →
    fget s (fldRC_CTL_ENABLE c) = 1 →
    s.ch[c].sync ≠ .idle →
    s.ch[c].queue = [] →
    s.ch[c].due = [] →
    s.decDiscard = [] →
    s.decDrop = [] →
    ∃ t, exec (.rcEnableWrite agent c false) s = .next t ∧
      fget t (fldRC_CTL_ENABLE c) = 0 ∧
      fget t (fldRC_STAT_ABORTED c) = 1 ∧
      t.packets.length = s.packets.length + 1 ∧
      t.ch[c].sync = .idle) ∧
  (∀ (s : State) (n : Head) (sp : Fin 4) (b0 b1 b2 b3 err : List Int),
    xingPresent s.variant n = true →
    s.xing[n.val].st = .armed →
    chanOn s (headChan n sp) = true →
    s.hb[n].rf = [] →
    12000 ≤ s.hb[n].credit + rfCredit s n →
    (([b0, b1, b2, b3].getD sp.val []).any (fun x => x = -64 ∨ x = 63) = true) →
    ∃ t, exec (.rfSampleGroup n b0 b1 b2 b3 err) s = .next t ∧
      fget t (fldRC_STAT_SAT (headChan n sp)) = 1 ∧
      fget t (fldRC_STAT_SAMPLE_LOSS (headChan n sp)) = fget s (fldRC_STAT_SAMPLE_LOSS (headChan n sp)) ∧
      fget t (fldAGC_GAIN_AMP (headChan n sp)) = ampOf ([b0, b1, b2, b3].getD sp.val []) % 256 ∧
      t.hb[n].rf = [] ∧
      changesOnly [.regs, .ch, .hb, .counters, .wraps] s t) ∧
  (∀ (s : State) (n : Head) (e : RfEntry) (rest : List RfEntry) (b0 b1 b2 b3 err : List Int),
    xingPresent s.variant n = true →
    s.xing[n.val].st = .armed →
    s.hb[n].rf = e :: rest →
    e.lost = false →
    rfDepth ≤ (s.hb[n].rf.filter (fun x => !x.lost)).length →
    s.hb[n].credit + rfCredit s n < 12000 →
    ∃ t, exec (.rfSampleGroup n b0 b1 b2 b3 err) s = .next t ∧
      t.hb[n].rf = s.hb[n].rf ++ [⟨[], [], true⟩] ∧
      t.hb[n].credit = s.hb[n].credit + rfCredit s n ∧
      changesOnly [.hb] s t) ∧
  (∀ (s : State) (n : Head) (sp : Fin 4) (b0 b1 b2 b3 err : List Int),
    xingPresent s.variant n = true →
    s.xing[n.val].st = .armed →
    chanOn s (headChan n sp) = true →
    s.hb[n].rf = [⟨[], [], true⟩] →
    ∃ t, exec (.rfSampleGroup n b0 b1 b2 b3 err) s = .next t ∧
      fget t (fldRC_STAT_SAMPLE_LOSS (headChan n sp)) = 1 ∧
      changesOnly [.regs, .ch, .hb, .counters, .wraps] s t) ∧
  (∀ (s : State) (n : Head) (b0 b1 b2 b3 err : List Int),
    s.xing[n.val].st ≠ .armed →
    ∃ t, exec (.rfSampleGroup n b0 b1 b2 b3 err) s = .next t ∧
      changesOnly [] s t) ∧
  (∀ (s : State) (c : Chan) (w : WedgeObs),
    chanOn s c = true →
    fbit s (fldRC_CTL_WEDGE_EN c) = true →
    (samSearch s.ch[c] w).1 = .sam →
    ∃ t, exec (.wedgePass c w) s = .next t ∧
      t.ch[c].wedge = (s.ch[c].wedge + 1) % 720 ∧
      t.ch[c].lastRec = wedgeRecord s.ch[c] ((s.ch[c].wedge + 1) % 720) w ∧
      t.ch[c].lastSam = t.ch[c].lastRec.time ∧
      t.ch[c].lastRec.samOk = true ∧
      t.ch[c].missRun = 0 ∧
      fget t (fldWEDGE_STAT_SAM_OK c) = 1 ∧
      (s.ch[c].indexSeen = true → 7 ≤ s.ch[c].samRun → fget t (fldRC_STAT_WEDGE_LOCK c) = 1)) ∧
  (∀ (s : State) (c : Chan) (w : WedgeObs),
    chanOn s c = true →
    fbit s (fldRC_CTL_WEDGE_EN c) = true →
    (samSearch s.ch[c] w).1 = .index →
    ∃ t, exec (.wedgePass c w) s = .next t ∧
      t.ch[c].wedge = 0 ∧
      t.ch[c].indexSeen = true ∧
      fget t (fldWEDGE_STAT_WEDGE c) = 0 ∧
      (s.ch[c].wedge ≠ 719 → fget t (fldRC_STAT_WEDGE_MISS c) = 1)) ∧
  (∀ (s : State) (c : Chan) (w : WedgeObs),
    chanOn s c = true →
    fbit s (fldRC_CTL_WEDGE_EN c) = true →
    (samSearch s.ch[c] w).1 = .missed →
    ∃ t, exec (.wedgePass c w) s = .next t ∧
      t.ch[c].wedge = (s.ch[c].wedge + 1) % 720 ∧
      t.ch[c].lastSam = s.ch[c].lastSam + BitVec.ofNat 64 s.ch[c].framePeriod ∧
      fget t (fldRC_STAT_WEDGE_MISS c) = 1 ∧
      fget t (fldWEDGE_STAT_SAM_OK c) = 0 ∧
      (2 ≤ s.ch[c].missRun → fget t (fldRC_STAT_WEDGE_LOCK c) = 0)) ∧
  (∀ (s : State) (c : Chan) (w : WedgeObs),
    wedgeOn s c = false →
    ∃ t, exec (.wedgePass c w) s = .next t ∧
      changesOnly [] s t) ∧
  (∀ (s : State) (side : Fin 2) (head spot : Fin 4),
    ((sideChan side head spot).val % 4 = 1 ∨ (sideChan side head spot).val % 4 = 2) →
    chanOn s (sideChan side head spot) = true →
    0 < tapEnergy s.ch[sideChan side head spot].dsp.xtIn + tapEnergy s.ch[sideChan side head spot].dsp.xtOut →
    ∃ t, exec (.fineEstimate side head spot) s = .next t ∧
      fgetInt t (fldFINE_POS_FINE (sideChan side head spot)) = clampInt (roundDiv (fgetInt s (fldXT_CFG_K_XT (sideChan side head spot)) * ((tapEnergy s.ch[sideChan side head spot].dsp.xtOut : Int) - tapEnergy s.ch[sideChan side head spot].dsp.xtIn)) ((tapEnergy s.ch[sideChan side head spot].dsp.xtOut : Int) + tapEnergy s.ch[sideChan side head spot].dsp.xtIn)) (-16384) 16384 ∧
      (fget s (fldRC_CTL_XTC_EN (sideChan side head spot)) = 0 → fget t (fldFINE_POS_VALID (sideChan side head spot)) = 0) ∧
      regsBut s t [regFINE_POS (sideChan side head spot)] ∧
      changesOnly [.regs, .ch, .freeCtr] s t)

/-- R119 to R122 and R127, row by row: the windows open on a waiting slot; at the next start position of the primary window (the
SCANNED-th, WIN before P the first) a match within the confirmation window fixes A1 at once, one outside it becomes the
candidate, and a nearer one replaces a candidate with CAND_REJ; the end of the primary window fixes A1 as CANDIDATE or MISSED;
the second window decides the outcome and the two offsets; and the packet is put on its way with that outcome shown, INFERRED
for FLY_MAX packets in a row setting SYNC_LOST. Where a rule leaves a point open, the model's own choice stands (log 29, 30). -/
def Obligations.SyncDetectorFindsTheSector : Prop :=
  (∀ (s : State) (c : Chan),
    s.ch[c].sync = .wait1 →
    rfArmed s c = true →
    s.hb[chanHead c].badStatus = false →
    ∃ t, exec (.sync1WindowOpen c) s = .next t ∧
      t.ch[c].sync = .search1 ∧
      t.ch[c].passWedge = s.ch[c].wedge ∧
      t.ch[c].buf = [] ∧
      t.ch[c].scanned = 0 ∧
      changesOnly [.ch] s t) ∧
  (∀ (s : State) (c : Chan) (ofs : Int),
    s.ch[c].sync = .search1 →
    (s.ch[c].scanned : Int) = ofs + syncWin s c →
    ofs.natAbs ≤ syncWin s c →
    s.ch[c].scanned + 32 ≤ s.ch[c].buf.length →
    markDistance sync1 s.ch[c].buf s.ch[c].scanned ≤ fget s (fldSYNC_CFG_SYNC_TOL c) →
    ofs.natAbs ≤ fget s (fldSYNC_CFG_CONF_WIN c) →
    ∃ t, exec (.sync1Match c ofs) s = .next t ∧
      t.ch[c].sync = .stream1 ∧
      t.ch[c].primary = .direct ∧
      t.ch[c].a1Ofs = ofs ∧
      t.ch[c].primDist = markDistance sync1 s.ch[c].buf s.ch[c].scanned ∧
      t.ch[c].buf = [] ∧
      changesOnly [.ch, .hb, .regs, .counters, .wraps] s t) ∧
  (∀ (s : State) (c : Chan) (ofs : Int),
    s.ch[c].sync = .search1 →
    (s.ch[c].scanned : Int) = ofs + syncWin s c →
    ofs.natAbs ≤ syncWin s c →
    s.ch[c].scanned + 32 ≤ s.ch[c].buf.length →
    markDistance sync1 s.ch[c].buf s.ch[c].scanned ≤ fget s (fldSYNC_CFG_SYNC_TOL c) →
    fget s (fldSYNC_CFG_CONF_WIN c) < ofs.natAbs →
    ∃ t, exec (.sync1Match c ofs) s = .next t ∧
      t.ch[c].sync = .cand ∧
      t.ch[c].candOfs = ofs ∧
      t.ch[c].candDist = markDistance sync1 s.ch[c].buf s.ch[c].scanned ∧
      t.ch[c].scanned = s.ch[c].scanned + 1 ∧
      changesOnly [.ch] s t) ∧
  (∀ (s : State) (c : Chan) (ofs : Int),
    s.ch[c].sync = .cand →
    (s.ch[c].scanned : Int) = ofs + syncWin s c →
    ofs.natAbs ≤ syncWin s c →
    s.ch[c].scanned + 32 ≤ s.ch[c].buf.length →
    markDistance sync1 s.ch[c].buf s.ch[c].scanned ≤ fget s (fldSYNC_CFG_SYNC_TOL c) →
    ofs.natAbs ≤ fget s (fldSYNC_CFG_CONF_WIN c) →
    ∃ t, exec (.sync1Match c ofs) s = .next t ∧
      t.ch[c].sync = .stream1 ∧
      t.ch[c].primary = .direct ∧
      t.ch[c].a1Ofs = ofs ∧
      fget t (fldRC_STAT_CAND_REJ c) = 1 ∧
      regsBut s t [regRC_STAT c] ∧
      changesOnly [.ch, .hb, .regs, .counters, .wraps] s t) ∧
  (∀ (s : State) (c : Chan) (ofs : Int),
    (s.ch[c].sync = .search1 ∨ s.ch[c].sync = .cand) →
    (s.ch[c].scanned : Int) = ofs + syncWin s c →
    ofs.natAbs ≤ syncWin s c →
    s.ch[c].scanned + 32 ≤ s.ch[c].buf.length →
    fget s (fldSYNC_CFG_SYNC_TOL c) < markDistance sync1 s.ch[c].buf s.ch[c].scanned →
    ∃ t, exec (.sync1Match c ofs) s = .next t ∧
      t.ch[c] = { s.ch[c] with scanned := s.ch[c].scanned + 1 } ∧
      changesOnly [.ch] s t) ∧
  (∀ (s : State) (c : Chan),
    s.ch[c].sync = .search1 →
    2 * syncWin s c < s.ch[c].scanned →
    ∃ t, exec (.sync1WindowEnd c) s = .next t ∧
      t.ch[c].sync = .stream1 ∧
      t.ch[c].primary = .missed ∧
      t.ch[c].a1Ofs = 0 ∧
      changesOnly [.ch, .hb, .regs, .counters, .wraps] s t) ∧
  (∀ (s : State) (c : Chan),
    s.ch[c].sync = .cand →
    2 * syncWin s c < s.ch[c].scanned →
    ∃ t, exec (.sync1WindowEnd c) s = .next t ∧
      t.ch[c].sync = .stream1 ∧
      t.ch[c].primary = .candidate ∧
      t.ch[c].a1Ofs = s.ch[c].candOfs ∧
      t.ch[c].primDist = s.ch[c].candDist ∧
      changesOnly [.ch, .hb, .regs, .counters, .wraps] s t) ∧
  (∀ (s : State) (c : Chan),
    s.ch[c].sync = .stream1 →
    ∃ t, exec (.sync2WindowOpen c) s = .next t ∧
      t.ch[c].sync = .search2 ∧
      changesOnly [.ch] s t) ∧
  (∀ (s : State) (n : Head) (spot : Fin 4) (e : Int) (d : Nat),
    s.ch[headChan n spot].sync = .search2 →
    s.ch[headChan n spot].primary = .direct →
    sync2Best (fget s (fldSYNC_CFG_SYNC_TOL (headChan n spot))) (syncWin s (headChan n spot)) s.ch[headChan n spot].soft = some (e, d) →
    e.natAbs ≤ 1 →
    ∃ t, exec (.sync2WindowEnd n spot) s = .next t ∧
      t.ch[headChan n spot].sync = .stream2 ∧
      t.ch[headChan n spot].outCode = 0 ∧
      t.ch[headChan n spot].ofs1 = 24 ∧
      (t.ch[headChan n spot].ofs2 : Int) = 24 + e ∧
      t.ch[headChan n spot].secFound = true ∧
      t.ch[headChan n spot].secDist = d ∧
      changesOnly [.ch] s t) ∧
  (∀ (s : State) (n : Head) (spot : Fin 4),
    s.ch[headChan n spot].sync = .search2 →
    s.ch[headChan n spot].primary = .candidate →
    s.ch[headChan n spot].primDist ≤ fget s (fldSYNC_CFG_CAND_STRONG (headChan n spot)) →
    sync2Best (fget s (fldSYNC_CFG_SYNC_TOL (headChan n spot))) (syncWin s (headChan n spot)) s.ch[headChan n spot].soft = none →
    ∃ t, exec (.sync2WindowEnd n spot) s = .next t ∧
      t.ch[headChan n spot].sync = .stream2 ∧
      t.ch[headChan n spot].outCode = 4 ∧
      t.ch[headChan n spot].ofs1 = 24 ∧
      t.ch[headChan n spot].ofs2 = 24 ∧
      t.ch[headChan n spot].secFound = false ∧
      fget t (fldRC_STAT_SYNC_INF_SEEN (headChan n spot)) = 1 ∧
      regsBut s t [regRC_STAT (headChan n spot)] ∧
      changesOnly [.ch, .regs, .counters, .wraps] s t) ∧
  (∀ (s : State) (n : Head) (spot : Fin 4),
    s.ch[headChan n spot].sync = .search2 →
    s.ch[headChan n spot].primary = .missed →
    sync2Best (fget s (fldSYNC_CFG_SYNC_TOL (headChan n spot))) (syncWin s (headChan n spot)) s.ch[headChan n spot].soft = none →
    ∃ t, exec (.sync2WindowEnd n spot) s = .next t ∧
      t.ch[headChan n spot].sync = .stream2 ∧
      t.ch[headChan n spot].outCode = 7 ∧
      t.ch[headChan n spot].ofs1 = 24 ∧
      t.ch[headChan n spot].ofs2 = 24 ∧
      fget t (fldRC_STAT_SYNC_INF_SEEN (headChan n spot)) = 1 ∧
      regsBut s t [regRC_STAT (headChan n spot)] ∧
      changesOnly [.ch, .regs, .counters, .wraps] s t) ∧
  (∀ (s : State) (c : Chan),
    s.ch[c].sync = .stream2 →
    s.ch[c].verify = true →
    s.ch[c].queue = [] →
    s.ch[c].due = [] →
    s.decDiscard = [] →
    s.decDrop = [] →
    ∃ t, exec (.packetComplete c) s = .next t ∧
      t.ch[c].sync = .idle ∧
      t.packets.length = s.packets.length + 1 ∧
      (t.packets.getLast?).map (fun p => (p.id, p.chan, p.addr)) = some (s.ch[c].packetId, c.val, s.ch[c].addr) ∧
      fget t (fldLAST_SYNC_SYNC_OUT c) = s.ch[c].outCode % 16 ∧
      (s.ch[c].outCode = 7 → Nat.max 1 (fget s (fldSYNC_CFG_FLY_MAX c)) ≤ s.ch[c].inferRun + 1 → fget t (fldRC_STAT_SYNC_LOST c) = 1) ∧
      (s.ch[c].outCode = 0 → fget t (fldRC_STAT_SYNC_LOST c) = 0) ∧
      regsBut s t [regRC_STAT c, regLAST_SYNC c, regQUALITY c])

/-- The inner decoder, command by command: a free buffer of the first slice in service that has one goes to the packet that waits
longest, else to the packet whose first entry arrives (R144); while as many buffers as packets waiting are writing their
results a packet waits, and with none writing the oldest sector past its descriptor is stopped for it (R147); with no slice in
service its entries are discarded (R595); a buffer that frees is taken by the packet that waits longest (R147); DECODE_START
ends a packet without DATA status NO_SIGNAL, one with more than 1,072 zero values ERASE_SKIP, and otherwise starts to iterate
(R140, R143); SECTOR_DECODE_DONE ends the iterating sector and sends its result on (R142). Where a rule leaves a point open,
the model's own choice stands (log 34). -/
def Obligations.DecoderSlicesTakeAndDecode : Prop :=
  (∀ (s : State) (c : Chan) (pk : Nat) (n : SliceId),
    packetArriving s c = some pk →
    sliceFree s = some n →
    s.decWait = [] →
    ∃ t, exec (.sliceAssign c) s = .next t ∧
      t.slices[n] = s.slices[n] ++ [⟨pk, .loading, none⟩] ∧
      (∀ m : SliceId, m ≠ n → t.slices[m] = s.slices[m]) ∧
      changesOnly [.slices] s t) ∧
  (∀ (s : State) (c : Chan) (pk q : Nat) (rest : List Nat) (n : SliceId),
    packetArriving s c = some pk →
    sliceFree s = some n →
    s.decWait = q :: rest →
    ∃ t, exec (.sliceAssign c) s = .next t ∧
      t.slices[n] = s.slices[n] ++ [⟨q, .loading, none⟩] ∧
      t.decWait = rest ++ [pk] ∧
      (∀ m : SliceId, m ≠ n → t.slices[m] = s.slices[m]) ∧
      changesOnly [.slices, .decWait] s t) ∧
  (∀ (s : State) (c : Chan) (pk : Nat),
    packetArriving s c = some pk →
    sliceFree s = none →
    anySlice s = true →
    s.decWait.length < slicesWriting s →
    ∃ t, exec (.sliceAssign c) s = .next t ∧
      t.decWait = s.decWait ++ [pk] ∧
      changesOnly [.decWait] s t) ∧
  (∀ (s : State) (c : Chan) (pk : Nat) (n : SliceId) (b : SliceBuf),
    packetArriving s c = some pk →
    sliceFree s = none →
    anySlice s = true →
    s.decWait = [] →
    slicesWriting s = 0 →
    preemptVictim s = some (n, b) →
    ∃ t, exec (.sliceAssign c) s = .next t ∧
      t.slices[n] = s.slices[n].filter (fun x => x.pk != b.pk) ++ [⟨pk, .loading, none⟩] ∧
      t.packets = s.packets.filter (fun q => q.id != b.pk) ∧
      t.decWait = [] ∧
      (∀ m : SliceId, m ≠ n → t.slices[m] = s.slices[m])) ∧
  (∀ (s : State) (c : Chan),
    s.ch[c].sync = .stream1 →
    s.packets = [] →
    decKnows s s.ch[c].packetId = false →
    anySlice s = false →
    ∃ t, exec (.sliceAssign c) s = .next t ∧
      t.decDiscard = s.decDiscard ++ [s.ch[c].packetId] ∧
      t.slices = s.slices) ∧
  (∀ (s : State) (n : SliceId) (b : SliceBuf) (pk : Nat) (rest : List Nat),
    s.slices[n].find? (fun b => b.phase == .writing) = some b →
    s.decWait = pk :: rest →
    ∃ t, exec (.sliceBufferFreed n) s = .next t ∧
      t.slices[n] = s.slices[n].filter (fun x => x.pk != b.pk) ++ [⟨pk, .loading, none⟩] ∧
      t.decWait = rest ∧
      changesOnly [.slices, .decWait] s t) ∧
  (∀ (s : State) (n : SliceId) (p : Packet),
    sliceReady s n = some p →
    dbStatus p.descB = 0 →
    zeroCount (descramble (codewordSoft p) p.addr) ≤ 1072 →
    ∃ t, exec (.decodeStart n) s = .next t ∧
      (t.slices[n] = s.slices[n].map (fun b => if b.pk = p.id then { b with phase := .iterating } else b)) ∧
      changesOnly [.slices] s t) ∧
  (∀ (s : State) (n : SliceId) (p : Packet),
    sliceReady s n = some p →
    dbStatus p.descB ≠ 0 →
    ∃ t, exec (.decodeStart n) s = .next t ∧
      (t.slices[n] = s.slices[n].map (fun b => if b.pk = p.id then { b with phase := .writing, res := some (headOfChan p.chan, p.addr, p.verify, packetRes p 1 0) } else b)) ∧
      t.packets = s.packets.filter (fun q => q.id != p.id) ∧
      counter t 357 = counter s 357 + 1) ∧
  (∀ (s : State) (n : SliceId) (b : SliceBuf) (p : Packet),
    s.slices[n].find? (fun b => b.phase == .iterating) = some b →
    s.packets.find? (fun p => p.id == b.pk) = some p →
    ∃ t, exec (.sectorDecodeDone n) s = .next t ∧
      (t.slices[n].map (fun x => (x.pk, x.phase)) = s.slices[n].map (fun x => (x.pk, if x.pk = p.id then .writing else x.phase))) ∧
      t.packets = s.packets.filter (fun q => q.id != p.id))

/-- The tile-code block: a tile whose 36 results hold one to four erasures starts a column decode with the erasure set of R150,
and one with five or more is FAILED, its record written where no span can restore it (R151, R154, R163); a lost staging read
joins the erasure set, sets POISON and restarts the decode (R153); a tile whose columns all decode leaves the block, written
where its erasures were, without FAILED (R152, R163); a span with a member headed for FAILED starts its decode when every
member has its outcome, a lost read is added to it, and its end restores the members or sets SPAN_FAIL (R158, R160). Where a
rule leaves a point open, the model's own choice stands (log 35, 36). -/
def Obligations.TileCodeOutcomes : Prop :=
  (∀ (s : State) (u : Tile),
    s.tiles.find? (fun v => v.id == u.id && v.phase == .filling) = some u →
    tileFull u = true →
    (List.range 36).all (fun i => (tileRes u i).code == 1 && (tileRes u i).blank) = false →
    ((List.range 36).filter (fun i => (tileRes u i).code == 5)).length ≤ 4 →
    (0 < (tileErasures u).length ∧ (tileErasures u).length ≤ 4) →
    ∃ t, exec (.tileResultsComplete u.id) s = .next t ∧
      (t.tiles = s.tiles.map (fun v => if v.id = u.id then { u with erased := tileErasures u, phase := .decoding, checked := true } else v)) ∧
      changesOnly [.tiles] s t) ∧
  (∀ (s : State) (u : Tile),
    s.tiles.find? (fun v => v.id == u.id && v.phase == .filling) = some u →
    tileFull u = true →
    u.span = none →
    u.kind = .read →
    (List.range 36).all (fun i => (tileRes u i).code == 1 && (tileRes u i).blank) = false →
    ((List.range 36).filter (fun i => (tileRes u i).code == 5)).length ≤ 4 →
    5 ≤ (tileErasures u).length →
    ∃ t, exec (.tileResultsComplete u.id) s = .next t ∧
      fget t fldTC_STAT_FAILED = 1 ∧
      t.tiles.all (fun v => v.id != u.id) = true ∧
      counter t 367 = counter s 367 + 1) ∧
  (∀ (s : State) (u : Tile) (i : Nat),
    s.tiles.find? (fun v => v.id == u.id && v.phase == .decoding) = some u →
    i < 36 →
    u.erased.contains i = false →
    u.erased.length ≤ 3 →
    u.checked = true →
    u.erased = (List.range 36).filter (fun j => u.erased.contains j) →
    ∃ t, exec (.tilePoisonRestart u.id i) s = .next t ∧
      fget t fldTC_STAT_POISON = 1 ∧
      (t.tiles.find? (fun v => v.id == u.id)).map (fun v => (v.erased, v.poison, v.phase)) = some ((List.range 36).filter (fun j => u.erased.contains j || j == i), true, .decoding) ∧
      regsBut s t [regTC_STAT] ∧
      changesOnly [.tiles, .regs] s t) ∧
  (∀ (s : State) (u : Tile) (pay : List (Nat × List Byte)) (cols : List (List (Nat × Nat) × Nat)),
    s.tiles.find? (fun v => v.id == u.id && v.phase == .decoding) = some u →
    (readSectors s (payloadAt u.base) ((List.range 36).filter (fun i => !(u.erased.contains i)))).2 = (pay, none) →
    tileColumns (fbit s fldTC_CFG_ERR_EN) u.erased pay = some cols →
    (∀ c ∈ cols, ∀ v ∈ c.1, v.1 ∈ u.erased) →
    u.span = none →
    u.kind = .read →
    ∃ t, exec (.tileDecodeDone u.id) s = .next t ∧
      t.tiles.all (fun v => v.id != u.id) = true ∧
      fget t fldTC_STAT_FAILED = fget s fldTC_STAT_FAILED) ∧
  (∀ (s : State) (id : SpanId) (sp : Span),
    s.spans.find? (fun q => q.id == id.val) = some sp →
    spanComplete s sp = true →
    spanFailing s id.val = true →
    ∃ t, exec (.spanDecodeStart id) s = .next t ∧
      (t.spans = s.spans.map (fun q => if q.id = id.val then { q with running := true } else q)) ∧
      changesOnly [.spans] s t) ∧
  (∀ (s : State) (id : SpanId) (m : Head) (i : Fin 32) (sp : Span),
    s.spans.find? (fun q => q.id == id.val && q.running) = some sp →
    spanLost s sp m.val i.val = false →
    ∃ t, exec (.spanPoison id m i) s = .next t ∧
      fget t fldTC_STAT_POISON = 1 ∧
      (t.spans = s.spans.map (fun q => if q.id = id.val then { q with extra := (m.val, i.val) :: q.extra } else q)) ∧
      regsBut s t [regTC_STAT] ∧
      changesOnly [.spans, .tiles, .regs] s t) ∧
  (∀ (s : State) (id : SpanId) (sp : Span),
    s.spans.find? (fun q => q.id == id.val && q.running) = some sp →
    dataSectors.any (fun i => decide (2 < ((List.range 8).filter (fun m => spanLost s sp m i)).length)) = true →
    ∃ t, exec (.spanDecodeDone id) s = .next t ∧
      fget t fldTC_STAT_SPAN_USED = 1 ∧
      fget t fldTC_STAT_SPAN_FAIL = 1 ∧
      t.spans = s.spans.filter (fun q => q.id != id.val)) ∧
  (∀ (s : State) (id : SpanId) (sp : Span),
    s.spans.find? (fun q => q.id == id.val && q.running) = some sp →
    dataSectors.any (fun i => decide (2 < ((List.range 8).filter (fun m => spanLost s sp m i)).length)) = false →
    (spanRestoreAll s sp dataSectors).2 = none →
    ∃ t, exec (.spanDecodeDone id) s = .next t ∧
      fget t fldTC_STAT_SPAN_USED = 1 ∧
      t.spans = (spanRestoreAll s sp dataSectors).1.spans.filter (fun q => q.id != id.val))

/-- A write slot from its packet to its record: the encoder builds the packet of the first armed slot that has none, from the
4,096 bytes of its buffer (R171); the slot starts where nothing blocks it and otherwise ends NOT_STARTED with the blocking
sources recorded (R187, R188); an empty buffer stops it UNDERRUN at the next bit (R173); its last bit fixes WSTAT and STOP_BIT
and, with VFY_EN, it waits for its read-back (R188, R194), and one that was stopped leaves with its record; the read-back's
result is judged and counted PASS or failure (R193, R194). Where a rule leaves a point open, the model's own choice stands
(log 32, 33). -/
def Obligations.EncoderAndWriteSlots : Prop :=
  (∀ (s : State) (n : Head) (pre post : List WSlot) (q : WSlot) (bs : List Byte),
    s.wc[n].slots = pre ++ q :: post →
    pre.all (fun x => !(slotUnbuilt x)) = true →
    slotUnbuilt q = true →
    (memRead s 4 (payloadAt q.base q.sector) 4096).2 = some (bs, false) →
    ∃ t, exec (.encoderPacket n) s = .next t ∧
      t.wc[n].slots = pre ++ { q with entries := writePacket q bs } :: post) ∧
  (∀ (s : State) (n : Head) (pre post : List WSlot) (q : WSlot),
    s.wc[n].slots = pre ++ q :: post →
    pre.all (fun x => !(slotArmed x)) = true →
    slotArmed q = true →
    startBlocks s n q = 0 →
    fget s (fldWC_CTL_ENABLE n) = 1 →
    fget s (fldWC_CTL_INHIBIT n) = 0 →
    fget s (fldWC_CTL_VFY_EN n) = 0 →
    fbitAt s fldFM_ISOLATE_ISOLATED n.val = false →
    ∃ t, exec (.writeSlotStart n) s = .next t ∧
      t.wc[n].slots = pre ++ { q with phase := .running, t0 := s.chipTime, wstat := 0 } :: post ∧
      t.wc[n].pulses = pulsesOf s n q ∧
      changesOnly [.wc, .hb] s t) ∧
  (∀ (s : State) (n : Head) (pre post : List WSlot) (q : WSlot),
    s.wc[n].slots = pre ++ q :: post →
    pre.all (fun x => !(slotArmed x)) = true →
    slotArmed q = true →
    startBlocks s n q ≠ 0 →
    ∃ t, exec (.writeSlotStart n) s = .next t ∧
      t.wc[n].slots = pre ++ { q with phase := .stopped, wstat := 1, stopBit := 0, inh := startBlocks s n q } :: post ∧
      fget t (fldWC_STAT_TRIP_SRC n) = (fget s (fldWC_STAT_TRIP_SRC n) ||| startBlocks s n q) % 256 ∧
      regsBut s t [regWC_STAT n] ∧
      changesOnly [.wc, .regs, .hb] s t) ∧
  (∀ (s : State) (n : Head) (q : WSlot),
    q ∈ s.wc[n].slots →
    s.wc[n].slots.find? (fun x => x.phase == .running) = some q →
    anyPulse (pulsesCut s n q (slotPos s n q + 1)) = true →
    ∃ t, exec (.writeUnderrun n) s = .next t ∧
      { q with phase := .stopped, wstat := 3, stopBit := Nat.min 34112 (slotPos s n q + 1), inh := q.inh ||| 64 } ∈ t.wc[n].slots ∧
      t.wc[n].slots.all (fun x => x.phase != .running) = true ∧
      fbitAt t (fldWC_STAT_TRIP_SRC n) 6 = true ∧
      t.wc[n].pulses = pulsesCut s n q (slotPos s n q + 1) ∧
      t.wc[n].biasS = s.wc[n].biasKeep ∧
      t.wc[n].bias = s.wc[n].biasWas ∧
      regsBut s t [regWC_STAT n] ∧
      changesOnly [.wc, .regs, .hb] s t) ∧
  (∀ (s : State) (n : Head) (pre post : List WSlot) (q : WSlot),
    s.wc[n].slots = pre ++ q :: post →
    pre.all (fun x => !(slotBegun x)) = true →
    q.phase = .running →
    q.oblit = false →
    fget s (fldWC_CTL_VFY_EN n) = 1 →
    ∃ t, exec (.writeSlotEnd n) s = .next t ∧
      t.wc[n].slots = pre ++ { q with phase := .verifying, wstat := 0, stopBit := 34112, t1 := s.chipTime } :: post ∧
      counter t (192 + 18 * n.val + 6) = counter s (192 + 18 * n.val + 6) + 1 ∧
      changesOnly [.wc, .counters, .wraps, .hb] s t) ∧
  (∀ (s : State) (n : Head) (q : WSlot),
    s.wc[n].slots.find? slotBegun = some q →
    q.phase = .stopped →
    0 < q.wstat →
    ∃ t, exec (.writeSlotEnd n) s = .next t ∧
      t.wc[n].slots = s.wc[n].slots.filter (fun x => !(x.pta == q.pta && x.sector == q.sector)) ∧
      (q.wstat < 4 → counter t (192 + 18 * n.val + 6 + q.wstat) = counter s (192 + 18 * n.val + 6 + q.wstat) + 1)) ∧
  (∀ (s : State) (n : Head) (q : WSlot) (r : SectorRes),
    s.wc[n].slots.find? (fun q => q.phase == .verifying && q.vres.isSome) = some q →
    q.vres = some r →
    ∃ t, exec (.verifyResult n) s = .next t ∧
      t.wc[n].slots = s.wc[n].slots.filter (fun x => !(x.pta == q.pta && x.sector == q.sector)) ∧
      (verifyJudge s n.val r = 0 → counter t (192 + 18 * n.val + 10) = counter s (192 + 18 * n.val + 10) + 1) ∧
      (verifyJudge s n.val r ≠ 0 → counter t (192 + 18 * n.val + 11) = counter s (192 + 18 * n.val + 11) + 1))

/-- The guards and the power control of a write cell: a comparator that trips sets the latch and its TRIP_SRC bit (R189, R192);
its return and the release time clear the latch where nothing else holds it (R191); the SOFT inhibit acts at once (R189,
R201); ENABLE puts I_R_INIT in force within I_MAX (R183, R185); a table set whose CRC holds is in force with TABLE_OK (R178,
R180); the read loop moves I_R by 2^-RD_KI of the current error after NSAMP samples (R183), and a long space adds its sample
to the write loop (R184). Where a rule leaves a point open, the model's own choice stands (log 7, 31, 33). -/
def Obligations.WriteGuardsAndPower : Prop :=
  (∀ (s : State) (n : Head) (g : GuardSrc) (level : List Int),
    headPresent s.variant n.val = true →
    writePresent s.variant = true →
    guardOn s n.val g = true →
    guardInside g level (guardThr s n.val g) = false →
    guardIgnored s n g = false →
    ∃ t, exec (.guardTrip n ⟨g, level⟩) s = .next t ∧
      fget t (fldWC_STAT_LATCH n) = 1 ∧
      fbitAt t (fldWC_STAT_TRIP_SRC n) (guardBit g) = true ∧
      t.wc[n].tripped.contains (guardNo g) = true ∧
      t.wc[n].latch.contains (guardBit g) = true ∧
      t.wc[n].slots.all (fun x => x.phase != .running) = true ∧
      counter t (192 + 18 * n.val + 3 + guardBit g) = counter s (192 + 18 * n.val + 3 + guardBit g) + 1 ∧
      regsBut s t [regWC_STAT n, regWC_TRIP_TIME_LO n, regWC_TRIP_TIME_HI n] ∧
      changesOnly [.regs, .wc, .counters, .wraps, .hb] s t) ∧
  (∀ (s : State) (n : Head) (g : GuardSrc) (level : List Int),
    (guardInside g level (guardThr s n.val g) = true ∨ guardIgnored s n g = true) →
    exec (.guardTrip n ⟨g, level⟩) s = .next s) ∧
  (∀ (s : State) (n : Head) (g : GuardSrc) (level : List Int),
    guardInside g level ((guardThr s n.val g : Int) - guardHyst s n.val g) = true →
    ∃ t, exec (.guardReturn n ⟨g, level⟩) s = .next t ∧
      t.wc[n].tripped = s.wc[n].tripped.filter (fun k => k != guardNo g) ∧
      t.wc[n].latch = s.wc[n].latch ∧
      fget t (fldWC_STAT_LATCH n) = fget s (fldWC_STAT_LATCH n) ∧
      regsBut s t [regWC_STAT n] ∧
      changesOnly [.regs, .wc] s t) ∧
  (∀ (s : State) (n : Head) (g : GuardSrc) (level : List Int),
    guardInside g level ((guardThr s n.val g : Int) - guardHyst s n.val g) = false →
    exec (.guardReturn n ⟨g, level⟩) s = .next s) ∧
  (∀ (s : State) (n : Head),
    guardOut s n = [] →
    s.wc[n].latch.all (fun b => decide (b < 3)) = true →
    ∃ t, exec (.guardLatchRelease n) s = .next t ∧
      t.wc[n].latch = [] ∧
      fget t (fldWC_STAT_LATCH n) = 0 ∧
      regsBut s t [regWC_STAT n] ∧
      changesOnly [.regs, .wc] s t) ∧
  (∀ (s : State) (agent : Agent) (n : Head),
    absentAt s.variant (wcBase n.val) = false →
    headPresent s.variant n.val = true →
    writePresent s.variant = true →
    ∃ t, exec (.wcInhibitWrite agent n true) s = .next t ∧
      fget t (fldWC_CTL_INHIBIT n) = 1 ∧
      fget t (fldWC_STAT_LATCH n) = 1 ∧
      fbitAt t (fldWC_STAT_TRIP_SRC n) 5 = true ∧
      fbitAt t (fldWC_STAT_LIVE n) 5 = true ∧
      t.wc[n].slots.all (fun x => x.phase != .running) = true ∧
      regsBut s t [regWC_CTL n, regWC_STAT n, regWC_TRIP_TIME_LO n, regWC_TRIP_TIME_HI n] ∧
      changesOnly [.regs, .wc, .hb, .lastReply] s t) ∧
  (∀ (s : State) (agent : Agent) (n : Head),
    absentAt s.variant (wcBase n.val) = false →
    headPresent s.variant n.val = true →
    writePresent s.variant = true →
    fget s (fldWC_CTL_ENABLE n) = 0 →
    ∃ t, exec (.wcEnableWrite agent n true) s = .next t ∧
      fget t (fldWC_CTL_ENABLE n) = 1 ∧
      fget t (fldWC_LD_CUR2_I_R n) = Nat.min (fget s (fldWC_PWR_CFG_I_R_INIT n)) (fget s (fldWC_MPD_I_MAX n)) % 2048 ∧
      (fget s (fldWC_MPD_I_MAX n) < fget s (fldWC_PWR_CFG_I_R_INIT n) → fget t (fldWC_STAT_PWR_LIMIT n) = 1) ∧
      regsBut s t [regWC_CTL n, regWC_STAT n, regWC_LD_CUR2 n] ∧
      changesOnly [.regs, .wc, .lastReply] s t) ∧
  (∀ (s : State) (n : Head) (a : Nat) (bs : List Byte),
    s.wc[n].fetch = some a →
    (memRead (modWc s n (fun w => { w with fetch := none })) 4 a 256).2 = some (bs, false) →
    crc32 (bs.take 252) = leNat (bs.drop 252) →
    ∃ t, exec (.tableFetchDone n) s = .next t ∧
      t.wc[n].fetch = none ∧
      fget t (fldWC_STAT_TABLE_OK n) = 1 ∧
      t.wc[n].table = (List.range 64).map (fun i => BitVec.ofNat 32 (leNat ((bs.drop (4 * i)).take 4)))) ∧
  (∀ (s : State) (n : Head) (code : Nat) (sl : Int × Int),
    fget s (fldWC_CTL_ENABLE n) = 1 →
    fget s (fldWC_CTL_PWR_LOOP_EN n) = 1 →
    s.wc[n].slots.all (fun q => q.phase != .running) = true →
    nSamp s n ≤ s.wc[n].rdS.n + 1 →
    s.wc[n].slope = some sl →
    sl.1 ≠ 0 →
    fget s (fldWC_MPD_MPD_GAIN n) ≠ 0 →
    ∃ t, exec (.readPowerSample n code) s = .next t ∧
      t.wc[n].rdS = ⟨0, 0⟩ ∧
      fget t (fldWC_LD_CUR2_I_R n) = (clampInt ((fget s (fldWC_LD_CUR2_I_R n) : Int) + currentError (tablePower s.wc[n] 42 true * fget s (fldWC_MPD_MPD_GAIN n) * (addSample s.wc[n].rdS code).n - (addSample s.wc[n].rdS code).sum * 25600) (fget s (fldWC_MPD_MPD_GAIN n) * (addSample s.wc[n].rdS code).n) sl (fget s (fldWC_PWR_CFG_RD_KI n))) 0 (fget s (fldWC_MPD_I_MAX n))).toNat % 2048 ∧
      regsBut s t [regWC_STAT n, regWC_LD_CUR2 n, regCAL_MPD] ∧
      changesOnly [.regs, .wc, .cal] s t) ∧
  (∀ (s : State) (n : Head) (code : Nat),
    fget s (fldWC_CTL_PWR_LOOP_EN n) = 1 →
    s.wc[n].slots.any (fun q => q.phase == .running) = true →
    s.wc[n].biasS.n + 1 < nSamp s n →
    s.wc[n].bias = none →
    ∃ t, exec (.writePowerSample n false code) s = .next t ∧
      t.wc[n].biasS = ⟨s.wc[n].biasS.n + 1, s.wc[n].biasS.sum + code % 4096⟩ ∧
      t.wc[n].midS = s.wc[n].midS ∧
      changesOnly [.wc] s t)

/-- R217, the moves, loads and stores of the servo engines: where a run has reached the instruction in a RUNNING engine, MOVI,
LUI, MOV, LDC, LDS and IN write VD alone, a load of state memory seeing the stores of its own run (R212); STS and OUT hold
their effect for the commit; NOP changes the program counter alone. The run goes on at the next instruction. Where a rule
leaves a point open, the model's own choice stands (log 37). -/
def Obligations.MsvMovesLoadsAndStores : Prop :=
  (∀ (s : State) (k : Engine) (r : MsvRun) (w : Nat),
    msvAt s k 0x01 r w →
    ∃ t, exec (.msvNop k) s = .next t ∧
      t.se[k].run = some { r with pc := r.pc + 1 } ∧
      changesOnly [.se] s t) ∧
  (∀ (s : State) (k : Engine) (r : MsvRun) (w : Nat),
    msvAt s k 0x02 r w →
    ∃ t, exec (.msvMovi k) s = .next t ∧
      t.se[k].run = some { r with pc := r.pc + 1, v := r.v.set (vdOf w) ((BitVec.ofNat 22 (w % 4194304)).signExtend 32) } ∧
      changesOnly [.se] s t) ∧
  (∀ (s : State) (k : Engine) (r : MsvRun) (w : Nat),
    msvAt s k 0x03 r w →
    ∃ t, exec (.msvLui k) s = .next t ∧
      t.se[k].run = some { r with pc := r.pc + 1, v := r.v.set (vdOf w) (BitVec.ofNat 32 (w % 65536 * 65536)) } ∧
      changesOnly [.se] s t) ∧
  (∀ (s : State) (k : Engine) (r : MsvRun) (w : Nat),
    msvAt s k 0x04 r w →
    ∃ t, exec (.msvMov k) s = .next t ∧
      t.se[k].run = some { r with pc := r.pc + 1, v := r.v.set (vdOf w) (r.v[vs1Of w]) } ∧
      changesOnly [.se] s t) ∧
  (∀ (s : State) (k : Engine) (r : MsvRun) (w : Nat),
    msvAt s k 0x05 r w →
    bitsOf w 17 17 = 0 →
    ∃ t, exec (.msvLdc k) s = .next t ∧
      t.se[k].run = some { r with pc := r.pc + 1, v := r.v.set (vdOf w) (s.se[k].coef[s.se[k].liveCoef].getD (w % 1024) 0) } ∧
      changesOnly [.se] s t) ∧
  (∀ (s : State) (k : Engine) (r : MsvRun) (w : Nat) (x : Word),
    msvAt s k 0x06 r w →
    bitsOf w 17 17 = 0 →
    aget? r.stores (w % 512) = some x →
    bitsOf w 9 9 = 0 →
    ∃ t, exec (.msvLds k) s = .next t ∧
      t.se[k].run = some { r with pc := r.pc + 1, v := r.v.set (vdOf w) (x) } ∧
      changesOnly [.se] s t) ∧
  (∀ (s : State) (k : Engine) (r : MsvRun) (w : Nat),
    msvAt s k 0x06 r w →
    bitsOf w 17 17 = 0 →
    aget? r.stores (w % 512) = none →
    bitsOf w 9 9 = 0 →
    ∃ t, exec (.msvLds k) s = .next t ∧
      t.se[k].run = some { r with pc := r.pc + 1, v := r.v.set (vdOf w) ((aget? s.se[k].smem (w % 512)).getD 0) } ∧
      changesOnly [.se] s t) ∧
  (∀ (s : State) (k : Engine) (r : MsvRun) (w : Nat),
    msvAt s k 0x07 r w →
    bitsOf w 17 17 = 0 →
    bitsOf w 9 9 = 0 →
    ∃ t, exec (.msvSts k) s = .next t ∧
      t.se[k].run = some { r with pc := r.pc + 1, stores := aset r.stores (w % 512) r.v[vdOf w] } ∧
      t.se[k].smem = s.se[k].smem ∧
      changesOnly [.se] s t) ∧
  (∀ (s : State) (k : Engine) (r : MsvRun) (w : Nat),
    msvAt s k 0x08 r w →
    ∃ t, exec (.msvIn k) s = .next t ∧
      t.se[k].run = some { r with pc := r.pc + 1, v := r.v.set (vdOf w) ((aget? r.ports (w % 64)).getD 0) } ∧
      changesOnly [.se] s t) ∧
  (∀ (s : State) (k : Engine) (r : MsvRun) (w : Nat),
    msvAt s k 0x09 r w →
    (k.val = 9 → 8 ≤ w % 64 → w % 64 < 16 → headPresent s.variant (w % 64 - 8) = true) →
    ∃ t, exec (.msvOut k) s = .next t ∧
      t.se[k].run = some { r with pc := r.pc + 1, outs := aset r.outs (w % 64) r.v[vs1Of w] } ∧
      t.se[k].outs = s.se[k].outs ∧
      changesOnly [.se] s t)

/-- R207, R208 and R217, the arithmetic of the servo engines: ADD, SUB and ADDI wrap; ADDS, SUBS, MUL and ABS saturate at the ends
of 32 bits and exactly when they do note SAT for the commit, MUL rounding the exact product to Q2.30; DIV truncates toward
zero and by 0 gives the limit with the sign of vs1 and notes DIV0 for the commit; MIN and MAX compare as signed numbers; SHA
shifts left with saturation and right with rounding. Each writes VD alone. Where a rule leaves a point open, the model's own
choice stands (log 37, 38). -/
def Obligations.MsvIntegerArithmetic : Prop :=
  (∀ (s : State) (k : Engine) (r : MsvRun) (w : Nat),
    msvAt s k 0x10 r w →
    ∃ t, exec (.msvAdd k) s = .next t ∧
      t.se[k].run = some { r with pc := r.pc + 1, v := r.v.set (vdOf w) (BitVec.ofNat 32 (r.v[vs1Of w].toNat + r.v[vs2Of w].toNat)) } ∧
      changesOnly [.se] s t) ∧
  (∀ (s : State) (k : Engine) (r : MsvRun) (w : Nat),
    msvAt s k 0x11 r w →
    ∃ t, exec (.msvAdds k) s = .next t ∧
      (t.se[k].run = some { r with pc := r.pc + 1, v := r.v.set (vdOf w) (BitVec.ofInt 32 (clampInt (r.v[vs1Of w].toInt + r.v[vs2Of w].toInt) (-2147483648) 2147483647)), sat := r.sat || decide (r.v[vs1Of w].toInt + r.v[vs2Of w].toInt < -2147483648 ∨ 2147483647 < r.v[vs1Of w].toInt + r.v[vs2Of w].toInt) }) ∧
      changesOnly [.se] s t) ∧
  (∀ (s : State) (k : Engine) (r : MsvRun) (w : Nat),
    msvAt s k 0x12 r w →
    ∃ t, exec (.msvSub k) s = .next t ∧
      t.se[k].run = some { r with pc := r.pc + 1, v := r.v.set (vdOf w) (BitVec.ofInt 32 (r.v[vs1Of w].toInt - r.v[vs2Of w].toInt)) } ∧
      changesOnly [.se] s t) ∧
  (∀ (s : State) (k : Engine) (r : MsvRun) (w : Nat),
    msvAt s k 0x13 r w →
    ∃ t, exec (.msvSubs k) s = .next t ∧
      (t.se[k].run = some { r with pc := r.pc + 1, v := r.v.set (vdOf w) (BitVec.ofInt 32 (clampInt (r.v[vs1Of w].toInt - r.v[vs2Of w].toInt) (-2147483648) 2147483647)), sat := r.sat || decide (r.v[vs1Of w].toInt - r.v[vs2Of w].toInt < -2147483648 ∨ 2147483647 < r.v[vs1Of w].toInt - r.v[vs2Of w].toInt) }) ∧
      changesOnly [.se] s t) ∧
  (∀ (s : State) (k : Engine) (r : MsvRun) (w : Nat),
    msvAt s k 0x14 r w →
    ∃ t, exec (.msvAddi k) s = .next t ∧
      t.se[k].run = some { r with pc := r.pc + 1, v := r.v.set (vdOf w) (r.v[vs1Of w] + (BitVec.ofNat 18 (w % 262144)).signExtend 32) } ∧
      changesOnly [.se] s t) ∧
  (∀ (s : State) (k : Engine) (r : MsvRun) (w : Nat),
    msvAt s k 0x15 r w →
    ∃ t, exec (.msvMul k) s = .next t ∧
      (t.se[k].run = some { r with pc := r.pc + 1, v := r.v.set (vdOf w) (BitVec.ofInt 32 (clampInt ((r.v[vs1Of w].toInt * r.v[vs2Of w].toInt + 536870912) / 1073741824) (-2147483648) 2147483647)), sat := r.sat || decide ((r.v[vs1Of w].toInt * r.v[vs2Of w].toInt + 536870912) / 1073741824 < -2147483648 ∨ 2147483647 < (r.v[vs1Of w].toInt * r.v[vs2Of w].toInt + 536870912) / 1073741824) }) ∧
      changesOnly [.se] s t) ∧
  (∀ (s : State) (k : Engine) (r : MsvRun) (w : Nat),
    msvAt s k 0x16 r w →
    r.v[vs2Of w] ≠ 0 →
    ∃ t, exec (.msvDiv k) s = .next t ∧
      (t.se[k].run = some { r with pc := r.pc + 1, v := r.v.set (vdOf w) (BitVec.ofInt 32 (clampInt ((r.v[vs1Of w].toInt * 1073741824).tdiv r.v[vs2Of w].toInt) (-2147483648) 2147483647)), sat := r.sat || decide ((r.v[vs1Of w].toInt * 1073741824).tdiv r.v[vs2Of w].toInt < -2147483648 ∨ 2147483647 < (r.v[vs1Of w].toInt * 1073741824).tdiv r.v[vs2Of w].toInt) }) ∧
      changesOnly [.se] s t) ∧
  (∀ (s : State) (k : Engine) (r : MsvRun) (w : Nat),
    msvAt s k 0x16 r w →
    r.v[vs2Of w] = 0 →
    ∃ t, exec (.msvDiv k) s = .next t ∧
      (t.se[k].run = some { r with pc := r.pc + 1, v := r.v.set (vdOf w) (if 0 ≤ r.v[vs1Of w].toInt then 0x7FFFFFFF else 0x80000000), div0 := true }) ∧
      changesOnly [.se] s t) ∧
  (∀ (s : State) (k : Engine) (r : MsvRun) (w : Nat),
    msvAt s k 0x17 r w →
    r.v[vs1Of w] ≠ 0x80000000 →
    ∃ t, exec (.msvAbs k) s = .next t ∧
      t.se[k].run = some { r with pc := r.pc + 1, v := r.v.set (vdOf w) (BitVec.ofNat 32 r.v[vs1Of w].toInt.natAbs) } ∧
      changesOnly [.se] s t) ∧
  (∀ (s : State) (k : Engine) (r : MsvRun) (w : Nat),
    msvAt s k 0x17 r w →
    r.v[vs1Of w] = 0x80000000 →
    ∃ t, exec (.msvAbs k) s = .next t ∧
      t.se[k].run = some { r with pc := r.pc + 1, v := r.v.set (vdOf w) (0x7FFFFFFF), sat := true } ∧
      changesOnly [.se] s t) ∧
  (∀ (s : State) (k : Engine) (r : MsvRun) (w : Nat),
    msvAt s k 0x18 r w →
    ∃ t, exec (.msvMin k) s = .next t ∧
      (t.se[k].run = some { r with pc := r.pc + 1, v := r.v.set (vdOf w) (if r.v[vs1Of w].slt r.v[vs2Of w] then r.v[vs1Of w] else r.v[vs2Of w]) }) ∧
      changesOnly [.se] s t) ∧
  (∀ (s : State) (k : Engine) (r : MsvRun) (w : Nat),
    msvAt s k 0x19 r w →
    ∃ t, exec (.msvMax k) s = .next t ∧
      (t.se[k].run = some { r with pc := r.pc + 1, v := r.v.set (vdOf w) (if r.v[vs1Of w].slt r.v[vs2Of w] then r.v[vs2Of w] else r.v[vs1Of w]) }) ∧
      changesOnly [.se] s t) ∧
  (∀ (s : State) (k : Engine) (r : MsvRun) (w : Nat),
    msvAt s k 0x1A r w →
    w % 64 < 32 →
    ∃ t, exec (.msvSha k) s = .next t ∧
      (t.se[k].run = some { r with pc := r.pc + 1, v := r.v.set (vdOf w) (BitVec.ofInt 32 (clampInt (r.v[vs1Of w].toInt * 2 ^ (w % 32)) (-2147483648) 2147483647)), sat := r.sat || decide (r.v[vs1Of w].toInt * 2 ^ (w % 32) < -2147483648 ∨ 2147483647 < r.v[vs1Of w].toInt * 2 ^ (w % 32)) }) ∧
      changesOnly [.se] s t) ∧
  (∀ (s : State) (k : Engine) (r : MsvRun) (w : Nat),
    msvAt s k 0x1A r w →
    32 < w % 64 →
    ∃ t, exec (.msvSha k) s = .next t ∧
      t.se[k].run = some { r with pc := r.pc + 1, v := r.v.set (vdOf w) (BitVec.ofInt 32 ((r.v[vs1Of w].toInt + 2 ^ (63 - w % 64)) / 2 ^ (64 - w % 64))) } ∧
      changesOnly [.se] s t)

/-- R206 to R208 and R217: AND, OR, XOR, ANDI and SHR write VD; MULA, MAC, MSU and LDA write one accumulator, the product rounded
to Q8.48 and the sum saturated at 56 bits, which notes SAT for the commit; RND gives the accumulator shifted, rounded to Q2.30
and saturated. Where a rule leaves a point open, the model's own choice stands (log 37, 38). -/
def Obligations.MsvLogicAndAccumulators : Prop :=
  (∀ (s : State) (k : Engine) (r : MsvRun) (w : Nat),
    msvAt s k 0x1C r w →
    ∃ t, exec (.msvAnd k) s = .next t ∧
      t.se[k].run = some { r with pc := r.pc + 1, v := r.v.set (vdOf w) (r.v[vs1Of w] &&& r.v[vs2Of w]) } ∧
      changesOnly [.se] s t) ∧
  (∀ (s : State) (k : Engine) (r : MsvRun) (w : Nat),
    msvAt s k 0x1D r w →
    ∃ t, exec (.msvOr k) s = .next t ∧
      t.se[k].run = some { r with pc := r.pc + 1, v := r.v.set (vdOf w) (r.v[vs1Of w] ||| r.v[vs2Of w]) } ∧
      changesOnly [.se] s t) ∧
  (∀ (s : State) (k : Engine) (r : MsvRun) (w : Nat),
    msvAt s k 0x1E r w →
    ∃ t, exec (.msvXor k) s = .next t ∧
      t.se[k].run = some { r with pc := r.pc + 1, v := r.v.set (vdOf w) (r.v[vs1Of w] ^^^ r.v[vs2Of w]) } ∧
      changesOnly [.se] s t) ∧
  (∀ (s : State) (k : Engine) (r : MsvRun) (w : Nat),
    msvAt s k 0x1F r w →
    ∃ t, exec (.msvAndi k) s = .next t ∧
      t.se[k].run = some { r with pc := r.pc + 1, v := r.v.set (vdOf w) (BitVec.ofNat 32 (r.v[vs1Of w].toNat &&& (w % 262144))) } ∧
      changesOnly [.se] s t) ∧
  (∀ (s : State) (k : Engine) (r : MsvRun) (w : Nat),
    msvAt s k 0x20 r w →
    ∃ t, exec (.msvShr k) s = .next t ∧
      t.se[k].run = some { r with pc := r.pc + 1, v := r.v.set (vdOf w) (BitVec.ofNat 32 (r.v[vs1Of w].toNat / 2 ^ (w % 32))) } ∧
      changesOnly [.se] s t) ∧
  (∀ (s : State) (k : Engine) (r : MsvRun) (w : Nat),
    msvAt s k 0x24 r w →
    ∃ t, exec (.msvMula k) s = .next t ∧
      (t.se[k].run = some { r with pc := r.pc + 1, acc := r.acc.set (accOf w) (clampInt ((r.v[vs1Of w].toInt * r.v[vs2Of w].toInt + 2048) / 4096) (-36028797018963968) 36028797018963967), sat := r.sat || decide ((r.v[vs1Of w].toInt * r.v[vs2Of w].toInt + 2048) / 4096 < -36028797018963968 ∨ 36028797018963967 < (r.v[vs1Of w].toInt * r.v[vs2Of w].toInt + 2048) / 4096) }) ∧
      changesOnly [.se] s t) ∧
  (∀ (s : State) (k : Engine) (r : MsvRun) (w : Nat),
    msvAt s k 0x25 r w →
    ∃ t, exec (.msvMac k) s = .next t ∧
      (t.se[k].run = some { r with pc := r.pc + 1, acc := r.acc.set (accOf w) (clampInt (r.acc[accOf w] + (r.v[vs1Of w].toInt * r.v[vs2Of w].toInt + 2048) / 4096) (-36028797018963968) 36028797018963967), sat := r.sat || decide (r.acc[accOf w] + (r.v[vs1Of w].toInt * r.v[vs2Of w].toInt + 2048) / 4096 < -36028797018963968 ∨ 36028797018963967 < r.acc[accOf w] + (r.v[vs1Of w].toInt * r.v[vs2Of w].toInt + 2048) / 4096) }) ∧
      changesOnly [.se] s t) ∧
  (∀ (s : State) (k : Engine) (r : MsvRun) (w : Nat),
    msvAt s k 0x26 r w →
    ∃ t, exec (.msvMsu k) s = .next t ∧
      (t.se[k].run = some { r with pc := r.pc + 1, acc := r.acc.set (accOf w) (clampInt (r.acc[accOf w] - (r.v[vs1Of w].toInt * r.v[vs2Of w].toInt + 2048) / 4096) (-36028797018963968) 36028797018963967), sat := r.sat || decide (r.acc[accOf w] - (r.v[vs1Of w].toInt * r.v[vs2Of w].toInt + 2048) / 4096 < -36028797018963968 ∨ 36028797018963967 < r.acc[accOf w] - (r.v[vs1Of w].toInt * r.v[vs2Of w].toInt + 2048) / 4096) }) ∧
      changesOnly [.se] s t) ∧
  (∀ (s : State) (k : Engine) (r : MsvRun) (w : Nat),
    msvAt s k 0x27 r w →
    ∃ t, exec (.msvLda k) s = .next t ∧
      t.se[k].run = some { r with pc := r.pc + 1, acc := r.acc.set (accOf w) (r.v[vs1Of w].toInt * 262144) } ∧
      changesOnly [.se] s t) ∧
  (∀ (s : State) (k : Engine) (r : MsvRun) (w : Nat),
    msvAt s k 0x28 r w →
    ∃ t, exec (.msvRnd k) s = .next t ∧
      (t.se[k].run = some { r with pc := r.pc + 1, v := r.v.set (vdOf w) (BitVec.ofInt 32 (clampInt ((r.acc[accOf w] * 2 ^ (w / 4 % 8) + 131072) / 262144) (-2147483648) 2147483647)), sat := r.sat || decide ((r.acc[accOf w] * 2 ^ (w / 4 % 8) + 131072) / 262144 < -2147483648 ∨ 2147483647 < (r.acc[accOf w] * 2 ^ (w / 4 % 8) + 131072) / 262144) }) ∧
      changesOnly [.se] s t)

/-- R217 and R220 to R223: BIQ of one section gives b0 x + s1 rounded and saturated, and stores that section and no more; LIM
clamps between two coefficients; INTG adds to its state between its limits; FFV scales by the nominal over the measured
voltage; FFA adds a coefficient times an acceleration to an accumulator; INJ adds the sample of a generator that is on; CAP
holds one record for the commit; LUT interpolates between two words of its table; SCS gives sine and cosine within 4 units of
the last place, the values themselves being left open by R217 and free in this model. Where a rule leaves a point open, the
model's own choice stands (log 37, 39, 41, 42). -/
def Obligations.MsvFiltersTablesAndAngles : Prop :=
  (∀ (s : State) (k : Engine) (r : MsvRun) (w : Nat),
    msvAt s k 0x30 r w →
    bitsOf w 17 15 = 0 →
    ∃ t, exec (.msvBiq k) s = .next t ∧
      (t.se[k].run.map (fun q => (q.pc, q.v, q.acc, q.outs))) = some (r.pc + 1, r.v.set (vdOf w) (biqSection r.v[vs1Of w] (coefAt s k (8 * bitsOf w 14 8)) (coefAt s k (8 * bitsOf w 14 8 + 1)) (coefAt s k (8 * bitsOf w 14 8 + 2)) (coefAt s k (8 * bitsOf w 14 8 + 3)) (coefAt s k (8 * bitsOf w 14 8 + 4)) (runState s k r (32 * bitsOf w 7 4)) (runState s k r (32 * bitsOf w 7 4 + 2))).1, r.acc, r.outs) ∧
      (t.se[k].run.all (fun q => decide (∀ a : Fin 512, a.val < 32 * bitsOf w 7 4 ∨ 32 * bitsOf w 7 4 + 4 ≤ a.val → aget? q.stores a.val = aget? r.stores a.val)) = true) ∧
      changesOnly [.se] s t) ∧
  (∀ (s : State) (k : Engine) (r : MsvRun) (w : Nat),
    msvAt s k 0x31 r w →
    (coefAt s k (w % 1024)).toInt ≤ (coefAt s k (w % 1024 + 1)).toInt →
    ∃ t, exec (.msvLim k) s = .next t ∧
      t.se[k].run = some { r with pc := r.pc + 1, v := r.v.set (vdOf w) (BitVec.ofInt 32 (clampInt r.v[vs1Of w].toInt (coefAt s k (w % 1024)).toInt (coefAt s k (w % 1024 + 1)).toInt)) } ∧
      changesOnly [.se] s t) ∧
  (∀ (s : State) (k : Engine) (r : MsvRun) (w : Nat),
    msvAt s k 0x32 r w →
    ∃ t, exec (.msvIntg k) s = .next t ∧
      (t.se[k].run.map (fun q => (q.pc, q.stores))) = some (r.pc + 1, storeState r.stores (2 * bitsOf w 17 10) (intgState s k r w).1) ∧
      (t.se[k].run.map (fun q => q.v[vdOf w])) = some (satVal (rnd 10 (intgState s k r w).1)).1 ∧
      changesOnly [.se] s t) ∧
  (∀ (s : State) (k : Engine) (r : MsvRun) (w : Nat) (n x : Nat),
    msvAt s k 0x33 r w →
    bitsOf w 17 16 = 0 →
    n = fget s (fldSE_VNOM_VNOM0 k) →
    x = ((aget? r.ports 30).getD 0).toNat →
    0 < x →
    ∃ t, exec (.msvFfv k) s = .next t ∧
      (t.se[k].run = some { r with pc := r.pc + 1, v := r.v.set (vdOf w) (BitVec.ofInt 32 (clampInt ((2 * r.v[vs1Of w].toInt * n + x) / (2 * x)) (-2147483648) 2147483647)), sat := r.sat || decide ((2 * r.v[vs1Of w].toInt * n + x) / (2 * x) < -2147483648 ∨ 2147483647 < (2 * r.v[vs1Of w].toInt * n + x) / (2 * x)) }) ∧
      changesOnly [.se] s t) ∧
  (∀ (s : State) (k : Engine) (r : MsvRun) (w : Nat),
    msvAt s k 0x34 r w →
    headPresent s.variant (bitsOf w 25 23) = true →
    ∃ t, exec (.msvFfa k) s = .next t ∧
      (t.se[k].run = some { r with pc := r.pc + 1, acc := r.acc.set (Fin.ofNat 4 (bitsOf w 11 10)) (clampInt (r.acc[(Fin.ofNat 4 (bitsOf w 11 10))] + ((coefAt s k (w % 1024)).toInt * ffaValue s k r (bitsOf w 22 21) (bitsOf w 25 23) + 2048) / 4096) (-36028797018963968) 36028797018963967), sat := r.sat || decide (r.acc[(Fin.ofNat 4 (bitsOf w 11 10))] + ((coefAt s k (w % 1024)).toInt * ffaValue s k r (bitsOf w 22 21) (bitsOf w 25 23) + 2048) / 4096 < -36028797018963968 ∨ 36028797018963967 < r.acc[(Fin.ofNat 4 (bitsOf w 11 10))] + ((coefAt s k (w % 1024)).toInt * ffaValue s k r (bitsOf w 22 21) (bitsOf w 25 23) + 2048) / 4096) }) ∧
      changesOnly [.se] s t) ∧
  (∀ (s : State) (k : Engine) (r : MsvRun) (w : Nat),
    msvAt s k 0x35 r w →
    bitsOf w 17 17 = 0 →
    fget s (fldSE_GEN0_CFG_EN k) = 1 →
    ∃ t, exec (.msvInj k) s = .next t ∧
      (t.se[k].run = some { r with pc := r.pc + 1, v := r.v.set (vdOf w) (BitVec.ofInt 32 (clampInt (r.v[vs1Of w].toInt + s.se[k].gens[0].sample) (-2147483648) 2147483647)), sat := r.sat || decide (r.v[vs1Of w].toInt + s.se[k].gens[0].sample < -2147483648 ∨ 2147483647 < r.v[vs1Of w].toInt + s.se[k].gens[0].sample) }) ∧
      changesOnly [.se] s t) ∧
  (∀ (s : State) (k : Engine) (r : MsvRun) (w : Nat),
    msvAt s k 0x36 r w →
    ∃ t, exec (.msvCap k) s = .next t ∧
      t.se[k].run = some { r with pc := r.pc + 1, cap := some (capWords r w) } ∧
      changesOnly [.se] s t) ∧
  (∀ (s : State) (k : Engine) (r : MsvRun) (w : Nat),
    msvAt s k 0x37 r w →
    (1 ≤ bitsOf w 17 15 ∧ bitsOf w 17 15 ≤ 6) →
    ∃ t, exec (.msvLut k) s = .next t ∧
      (t.se[k].run.map (fun q => (q.pc, q.v[vdOf w]))) = some (r.pc + 1, BitVec.ofInt 32 (clampInt ((coefAt s k (w % 1024 + (r.v[vs1Of w] ^^^ 0x80000000).toNat / 2 ^ (32 - bitsOf w 17 15))).toInt + ((((r.v[vs1Of w] ^^^ 0x80000000).toNat % 2 ^ (32 - bitsOf w 17 15) : Nat) : Int) * ((coefAt s k (w % 1024 + (r.v[vs1Of w] ^^^ 0x80000000).toNat / 2 ^ (32 - bitsOf w 17 15) + 1)).toInt - (coefAt s k (w % 1024 + (r.v[vs1Of w] ^^^ 0x80000000).toNat / 2 ^ (32 - bitsOf w 17 15))).toInt) + 2 ^ (31 - bitsOf w 17 15)) / 2 ^ (32 - bitsOf w 17 15)) (-2147483648) 2147483647)) ∧
      changesOnly [.se] s t) ∧
  (∀ (s : State) (k : Engine) (r : MsvRun) (w : Nat),
    msvAt s k 0x38 r w →
    bitsOf w 22 22 = 0 →
    ∃ t, exec (.msvScs k) s = .next t ∧
      t.se[k].run.isSome = true ∧
      (t.se[k].run.all (fun q => decide (q.pc = r.pc + 1 ∧ (q.v[vdOf w].toInt * 2 ^ 40 - sinTurn r.v[vs1Of w].toNat).natAbs ≤ 4 * 2 ^ 40)) = true) ∧
      t.se[k].run.all (fun q => decide ((q.v[(Fin.ofNat 16 (bitsOf w 25 22 + 1))].toInt * 2 ^ 40 - cosTurn r.v[vs1Of w].toNat).natAbs ≤ 4 * 2 ^ 40)) = true ∧
      (t.se[k].run.all (fun q => decide (∀ i : Fin 16, i ≠ vdOf w → i ≠ Fin.ofNat 16 (bitsOf w 25 22 + 1) → q.v[i] = r.v[i])) = true) ∧
      changesOnly [.se, .freeCtr] s t)

/-- R211, R212, R215, R217 and R218: BR jumps forward where its condition holds and goes on where it does not, JMP jumps forward;
REP and EVT hold their bits and their code for the commit, a second EVT replacing the first; END ends the run, and its
outputs, state words, REP bits, event, SAT and DIV0 take effect together. Where a rule leaves a point open, the model's own
choice stands (log 37, 40). -/
def Obligations.MsvControlFlowAndCommit : Prop :=
  (∀ (s : State) (k : Engine) (r : MsvRun) (w : Nat),
    msvAt s k 0x3A r w →
    bitsOf w 25 22 = 2 →
    r.v[vs1Of w].toInt < r.v[vs2Of w].toInt →
    ∃ t, exec (.msvBr k) s = .next t ∧
      t.se[k].run = some { r with pc := r.pc + 1 + w % 2048 } ∧
      changesOnly [.se] s t) ∧
  (∀ (s : State) (k : Engine) (r : MsvRun) (w : Nat),
    msvAt s k 0x3A r w →
    bitsOf w 25 22 = 2 →
    r.v[vs2Of w].toInt ≤ r.v[vs1Of w].toInt →
    ∃ t, exec (.msvBr k) s = .next t ∧
      t.se[k].run = some { r with pc := r.pc + 1 } ∧
      changesOnly [.se] s t) ∧
  (∀ (s : State) (k : Engine) (r : MsvRun) (w : Nat),
    msvAt s k 0x3B r w →
    ∃ t, exec (.msvJmp k) s = .next t ∧
      t.se[k].run = some { r with pc := r.pc + 1 + w % 2048 } ∧
      changesOnly [.se] s t) ∧
  (∀ (s : State) (k : Engine) (r : MsvRun) (w : Nat),
    msvAt s k 0x3C r w →
    w % 4 = 3 →
    r.repVal < 4 →
    r.repMask < 4 →
    ∃ t, exec (.msvRep k) s = .next t ∧
      (t.se[k].run.map (fun q => (q.pc, q.repMask, q.repVal))) = some (r.pc + 1, 3, (r.v[vs1Of w].toNat % 4)) ∧
      t.se[k].rep = s.se[k].rep ∧
      changesOnly [.se] s t) ∧
  (∀ (s : State) (k : Engine) (r : MsvRun) (w : Nat),
    msvAt s k 0x3D r w →
    ∃ t, exec (.msvEvt k) s = .next t ∧
      t.se[k].run = some { r with pc := r.pc + 1, evt := some (w % 256, r.v[vs1Of w]), evtOvr := r.evtOvr || r.evt.isSome } ∧
      fget t (fldSE_STAT_EVT k) = fget s (fldSE_STAT_EVT k) ∧
      changesOnly [.se] s t) ∧
  (∀ (s : State) (k : Engine) (r : MsvRun) (w : Nat),
    msvAt s k 0x3F r w →
    s.se[k].heldWrites = [] →
    s.se[k].heldCoefs = [] →
    s.se[k].stopReq = false →
    s.se[k].boundDue = false →
    s.se[k].applyDue = false →
    ∃ t, exec (.msvEnd k) s = .next t ∧
      t.se[k].run = none ∧
      (∀ a : Fin 512, aget? t.se[k].smem a.val = if (r.stores.map (·.1)).contains a.val then aget? (r.stores.foldl (fun m p => aset m p.1 p.2) s.se[k].smem) a.val else aget? s.se[k].smem a.val) ∧
      (r.sat = true → fget t (fldSE_STAT_SAT k) = 1) ∧
      (r.div0 = true → fget t (fldSE_STAT_DIV0 k) = 1) ∧
      (r.sat = false → fget t (fldSE_STAT_SAT k) = fget s (fldSE_STAT_SAT k)) ∧
      t.se[k].rep = (s.se[k].rep &&& (3 ^^^ r.repMask)) ||| (r.repVal &&& r.repMask) ∧
      (r.evt.all (fun p => decide (fget t (fldSE_EVT_CODE k) = p.1 % 256 ∧ rd t (regSE_EVT_VAL k) = p.2 ∧ fget t (fldSE_STAT_EVT k) = 1)) = true))

/-- Ticks and runs of a servo engine: a tick of a configured source is held pending with its time in a RUNNING engine (R210); a
run starts at its source's entry with cleared registers and its ports latched, and takes its tick (R210, R211); a missed
deadline drops the pending tick, sets MISS, holds the inhibit for the source and raises a report (R233, R234); an
uncorrectable cache word is refetched from the image (R231); capture starts when its EN rises (R223). Where a rule leaves a
point open, the model's own choice stands (log 40, 43). -/
def Obligations.ServoTicksRunsAndMisses : Prop :=
  (∀ (s : State) (k : Engine) (src : Fin 2),
    seState s k = 1 →
    seSrc s k src ≠ 0 →
    s.se[k].pend[src] = none →
    s.se[k].run = none →
    ∃ t, exec (.seTick k src) s = .next t ∧
      (t.se[k].pend[src]).map (·.1) = some s.chipTime ∧
      t.se[k].run = none ∧
      changesOnly [.se] s t) ∧
  (∀ (s : State) (k : Engine) (inputs : List (Fin 32 × BitVec 32)) (det : List DetGroup) (n : Fin 2) (tick : DWord) (w : Option Nat),
    seState s k = 1 →
    s.se[k].run = none →
    nextTick s.se[k] = some (n, tick, w) →
    ∃ t, exec (.runStart k ⟨inputs, det⟩) s = .next t ∧
      t.se[k].run.map (fun r => (r.src, r.tick, r.pc)) = some (n, tick, seEntry s k n) ∧
      t.se[k].run.map (fun r => (r.v, r.acc)) = some (Vector.replicate 16 0, Vector.replicate 4 0) ∧
      t.se[k].run.map (fun r => (r.outs, r.stores)) = some ([], []) ∧
      t.se[k].pend[n] = none ∧
      t.se[k].runs[n] = (s.se[k].runs[n] + 1) % 2 ^ 31 ∧
      regsBut s t [regSE_STAT k] ∧
      changesOnly [.se, .regs, .hb] s t) ∧
  (∀ (s : State) (k : Engine) (src : Fin 2),
    (s.se[k].pend[src]).isSome = true →
    s.se[k].run = none →
    ∃ t, exec (.deadlineMiss k src) s = .next t ∧
      t.se[k].pend[src] = none ∧
      fget t (fldSE_STAT_MISS k) = 1 ∧
      t.se[k].missed.any (fun m => m.1 == src.val) = true ∧
      t.reports.any (fun q => q.cls == 4) = true ∧
      counter t (336 + 2 * k.val) = counter s (336 + 2 * k.val) + 1) ∧
  (∀ (s : State) (k : Engine) (line : Fin 256) (bs : List Byte),
    enginePresent s.variant k = true →
    bankState s k true (bankAt (0x4000 + 64 * line.val)).2 = 2 →
    (memRead (count (count s 430) 421) 4 (imageBase s k + (0x4000 + 64 * line.val)) 64).2 = some (bs, false) →
    ∃ t, exec (.seCacheRefetch k true line) s = .next t ∧
      t.se[k].coef[(Fin.ofNat 4 (bankAt (0x4000 + 64 * line.val)).2)] = s.se[k].coef[(Fin.ofNat 4 (bankAt (0x4000 + 64 * line.val)).2)].take ((0x4000 + 64 * line.val - bankOffset true (bankAt (0x4000 + 64 * line.val)).2) / 4) ++ wordsOf 16 bs ++ s.se[k].coef[(Fin.ofNat 4 (bankAt (0x4000 + 64 * line.val)).2)].drop ((0x4000 + 64 * line.val - bankOffset true (bankAt (0x4000 + 64 * line.val)).2) / 4 + 16) ∧
      seState t k = seState s k) ∧
  (∀ (s : State) (agent : Agent) (k : Engine),
    enginePresent s.variant k = true →
    fget s (fldSE_CAP_CTL_EN k) = 0 →
    fget s (fldSE_CAP_CTL_SYNC k) = 0 →
    ∃ t, exec (.capEnableWrite agent k true) s = .next t ∧
      fget t (fldSE_CAP_CTL_EN k) = 1 ∧
      fget t (fldSE_CAP_STAT_COUNT k) = 0 ∧
      t.se[k].capOn = true ∧
      regsBut s t [regSE_CAP_CTL k, regSE_CAP_STAT k] ∧
      changesOnly [.se, .regs] s t)

/-- Loading and control of a servo engine: SE_LOAD of a bank that is not live makes it LOADING with BUSY, and of the live one ends
at once with LIVE_BANK (R227); the fills of a coefficient bank make it LOADED with DONE (R227); a window write empties its
bank, and into a live bank is a bus error with LIVE_WR (R226); a state word is taken between runs and held during one (R232);
START runs an engine whose bank is LOADED (R236); STOP stops it and its drive outputs become zero (R236); APPLY_NOW puts a
pending register in force (R230). Where a rule leaves a point open, the model's own choice stands (log 40, 43, 44, 45). -/
def Obligations.ServoBanksAndControl : Prop :=
  (∀ (s : State) (agent : Agent) (k : Engine) (bank : Fin 4),
    enginePresent s.variant k = true →
    fget s (fldSE_LOAD_STAT_BUSY k) = 0 →
    bankLive s k true bank.val = false →
    ∃ t, exec (.seLoad agent k true bank) s = .next t ∧
      fget t (fldSE_LOAD_STAT_BUSY k) = 1 ∧
      bankState t k true bank.val = 1 ∧
      t.se[k].load = some (1, bank.val) ∧
      regsBut s t [regSE_LOAD_STAT k, regSE_BANKS k] ∧
      changesOnly [.se, .regs] s t) ∧
  (∀ (s : State) (agent : Agent) (k : Engine) (bank : Fin 4),
    enginePresent s.variant k = true →
    fget s (fldSE_LOAD_STAT_BUSY k) = 0 →
    bankLive s k true bank.val = true →
    ∃ t, exec (.seLoad agent k true bank) s = .next t ∧
      fget t (fldSE_LOAD_STAT_DONE k) = 1 ∧
      fget t (fldSE_LOAD_STAT_BUSY k) = 0 ∧
      fget t (fldLoadFlags k) = 2 ∧
      regsBut s t [regSE_LOAD_STAT k] ∧
      changesOnly [.regs] s t) ∧
  (∀ (s : State) (k : Engine) (b : Fin 4) (bs : List Byte),
    s.se[k].load = some (1, b.val) →
    (memRead s 4 (imageBase s k + bankOffset true b.val) 4096).2 = some (bs, false) →
    ∃ t, exec (.seLoadDone k) s = .next t ∧
      t.se[k].load = none ∧
      t.se[k].coef[b] = wordsOf 1024 bs ∧
      bankState t k true b.val = 2 ∧
      fget t (fldSE_LOAD_STAT_BUSY k) = 0 ∧
      fget t (fldSE_LOAD_STAT_DONE k) = 1) ∧
  (∀ (s : State) (agent : Agent) (k : Engine) (off : Fin 32768) (v : Word),
    enginePresent s.variant k = true →
    bankLive s k (bankAt off.val).1 (bankAt off.val).2 = false →
    (memWrite s 4 (imageBase s k + (off.val - off.val % 4)) (natLe 4 v.toNat)).isSome = true →
    ∃ t, exec (.seWindowWrite agent k off v) s = .next t ∧
      t.lastReply.status = .ok ∧
      bankState t k (bankAt off.val).1 (bankAt off.val).2 = 0 ∧
      fget t (fldSE_STAT_LIVE_WR k) = fget s (fldSE_STAT_LIVE_WR k)) ∧
  (∀ (s : State) (agent : Agent) (k : Engine) (off : Fin 32768) (v : Word),
    enginePresent s.variant k = true →
    bankLive s k (bankAt off.val).1 (bankAt off.val).2 = true →
    ∃ t, exec (.seWindowWrite agent k off v) s = .next t ∧
      t.lastReply.status = .busError ∧
      fget t (fldSE_STAT_LIVE_WR k) = 1 ∧
      regsBut s t [regSE_STAT k] ∧
      changesOnly [.regs, .lastReply] s t) ∧
  (∀ (s : State) (agent : Agent) (k : Engine) (word : Fin 512) (v : Word),
    enginePresent s.variant k = true →
    s.se[k].run = none →
    ∃ t, exec (.seStateWrite agent k word v) s = .next t ∧
      t.lastReply.status = .ok ∧
      t.se[k].smem = aset s.se[k].smem word.val v ∧
      changesOnly [.se, .lastReply] s t) ∧
  (∀ (s : State) (agent : Agent) (k : Engine) (word : Fin 512) (v : Word),
    enginePresent s.variant k = true →
    s.se[k].run.isSome = true →
    ∃ t, exec (.seStateWrite agent k word v) s = .next t ∧
      t.se[k].smem = s.se[k].smem ∧
      t.se[k].heldWrites = s.se[k].heldWrites ++ [(word.val, v)] ∧
      changesOnly [.se, .lastReply] s t) ∧
  (∀ (s : State) (agent : Agent) (k : Engine),
    enginePresent s.variant k = true →
    seState s k = 0 →
    s.pend.any (fun p => ofEngine k p.1) = false →
    seCheck s k = true →
    bankState s k false s.se[k].liveProg.val = 2 →
    ∃ t, exec (.seStart agent k) s = .next t ∧
      seState t k = 1 ∧
      fget t (fldSE_STAT_START_DENIED k) = fget s (fldSE_STAT_START_DENIED k) ∧
      regsBut s t [regSE_STAT k] ∧
      changesOnly [.regs] s t) ∧
  (∀ (s : State) (agent : Agent) (k : Engine),
    enginePresent s.variant k = true →
    seState s k = 1 →
    s.se[k].run = none →
    ∃ t, exec (.seStop agent k) s = .next t ∧
      seState t k = 0 ∧
      t.se[k].run = none ∧
      t.se[k].outs = s.se[k].outs.filter (fun p => decide (4 ≤ p.1) && decide (p.1 < 8)) ∧
      t.se[k].pend = Vector.replicate 2 none) ∧
  (∀ (s : State) (agent : Agent) (k : Engine) (v : Word),
    enginePresent s.variant k = true →
    sweepRunning s = false →
    s.se[k].run = none →
    s.pend = [(regSE_ENTRY k, v)] →
    seCheck s k = true →
    ∃ t, exec (.seApplyNow agent k) s = .next t ∧
      rd t (regSE_ENTRY k) = v ∧
      t.pend = [] ∧
      fget t (fldSE_STAT_PARAM_PEND k) = 0 ∧
      t.se[k].smem = s.se[k].smem ∧
      regsBut s t [regSE_ENTRY k, regSE_STAT k] ∧
      changesOnly [.se, .regs, .pend] s t)

/-- The state table of R279 with R282 and R283, while nothing stops the spindle: START in STOPPED with SE8 running enters SENSE
with a start pending, and without SE8 is denied; STOP sends RUN to STOPPING; the end of SENSE_TIME and of the dwell enter
DETECT; a measured back-EMF above the catch speed enters CATCH, a low one counts toward standstill and ends a brake at rest;
the time limits of BRAKE, HANDOVER and CATCH fail or brake the start with their causes; ALIGN is followed by FORCED; sixteen
periods of agreement in CATCH enter RUN with CAUGHT. Where a rule leaves a point open, the model's own choice stands (log 7,
46). -/
def Obligations.SpindleStartAndBrakeStates : Prop :=
  (∀ (s : State) (agent : Agent),
    spnClear s →
    spnState s = 0 →
    ∃ t, exec (.spindleStart agent) s = .next t ∧
      spnState t = 1 ∧
      t.spn.startPend = true ∧
      fget t fldSPN_LAST_START_PATH = 0 ∧
      counter t 372 = counter s 372 + 1 ∧
      changesOnly [.regs, .spn, .counters, .wraps] s t) ∧
  (∀ (s : State) (agent : Agent),
    spnState s = 0 →
    seState s 8 ≠ 1 →
    ∃ t, exec (.spindleStart agent) s = .next t ∧
      spnState t = 0 ∧
      fget t fldSPN_STAT_START_DENIED = 1 ∧
      regsBut s t [regSPN_STAT] ∧
      changesOnly [.regs] s t) ∧
  (∀ (s : State) (agent : Agent),
    spnClear s →
    spnState s = 7 →
    ∃ t, exec (.spindleStop agent) s = .next t ∧
      spnState t = 8 ∧
      t.spn.ramp = s.spn.ramp ∧
      regsBut s t [regSPN_STAT] ∧
      changesOnly [.regs] s t) ∧
  (∀ (s : State),
    spnClear s →
    spnState s = 1 →
    ∃ t, exec (.senseTimeEnd) s = .next t ∧
      spnState t = 3 ∧
      t.spn.gates = .pulse ∧
      t.spn.pulses = [] ∧
      changesOnly [.regs, .spn] s t) ∧
  (∀ (s : State),
    spnClear s →
    spnState s = 2 →
    3 ≤ s.spn.still →
    s.spn.startPend = true →
    ∃ t, exec (.brakeDwellEnd) s = .next t ∧
      spnState t = 3 ∧
      t.spn.gates = .pulse ∧
      changesOnly [.regs, .spn] s t) ∧
  (∀ (s : State) (busMv : Nat) (v0 v1 : Vector (BitVec 12) 3),
    spnClear s →
    spnState s = 1 →
    emfLow s (phaseVolts s v1) = false →
    2 ^ 32 * (polePairs s : Int) < (BitVec.ofNat 32 (emfAngle (phaseVolts s v1)) - BitVec.ofNat 32 (emfAngle (phaseVolts s v0))).toInt * 1000 →
    ∃ t, exec (.bemfMeasure busMv v0 v1) s = .next t ∧
      spnState t = 6 ∧
      fget t fldSPN_LAST_START_PATH = 2 ∧
      t.spn.thetaInit = turnWord ((emfAngle (phaseVolts s v1) : Int) - 2 ^ 30) ∧
      t.spn.gates = .vector) ∧
  (∀ (s : State) (busMv : Nat) (v0 v1 : Vector (BitVec 12) 3),
    spnClear s →
    spnState s = 2 →
    emfLow s (phaseVolts s v1) = true →
    s.spn.still < 2 →
    ∃ t, exec (.bemfMeasure busMv v0 v1) s = .next t ∧
      spnState t = 2 ∧
      t.spn.still = s.spn.still + 1 ∧
      changesOnly [.regs, .spn] s t) ∧
  (∀ (s : State) (busMv : Nat) (v0 v1 : Vector (BitVec 12) 3),
    spnClear s →
    spnState s = 2 →
    emfLow s (phaseVolts s v1) = true →
    s.spn.still = 2 →
    s.spn.startPend = false →
    ∃ t, exec (.bemfMeasure busMv v0 v1) s = .next t ∧
      spnState t = 0 ∧
      t.spn.gates = .off) ∧
  (∀ (s : State),
    spnState s = 2 →
    s.spn.still < 3 →
    ∃ t, exec (.brakeTimeout) s = .next t ∧
      spnState t = 0 ∧
      fget t fldSPN_STAT_START_FAIL = 1 ∧
      fget t fldSPN_STAT_CAUSE = 9 ∧
      t.spn.startPend = false ∧
      t.spn.gates = .off ∧
      changesOnly [.regs, .spn] s t) ∧
  (∀ (s : State),
    spnClear s →
    spnState s = 4 →
    ∃ t, exec (.alignDone) s = .next t ∧
      spnState t = 5 ∧
      t.spn.seqSpeed = 0 ∧
      t.spn.thetaInit = 0 ∧
      changesOnly [.regs, .spn] s t) ∧
  (∀ (s : State),
    spnClear s →
    spnState s = 6 →
    16 ≤ s.spn.agree →
    s.spn.slew = 0 →
    ∃ t, exec (.handoverAgreement) s = .next t ∧
      spnState t = 7 ∧
      t.spn.ramp = s.spn.seqSpeed ∧
      t.spn.startPend = false ∧
      fget t fldSPN_STAT_CAUGHT = 1 ∧
      counter t 373 = counter s 373 + 1) ∧
  (∀ (s : State),
    spnClear s →
    spnState s = 5 →
    s.spn.slew = 0 →
    s.spn.agree < 16 →
    s.spn.seqSpeed = fget s fldSPN_START_HANDOVER * 10 ^ 8 →
    ∃ t, exec (.handoverTimeout) s = .next t ∧
      spnState t = 2 ∧
      fget t fldSPN_STAT_START_FAIL = 1 ∧
      fget t fldSPN_STAT_CAUSE = 8 ∧
      t.spn.gates = .lowSides ∧
      changesOnly [.regs, .spn] s t) ∧
  (∀ (s : State),
    spnClear s →
    spnState s = 6 →
    s.spn.agree < 16 →
    ∃ t, exec (.catchTimeout) s = .next t ∧
      spnState t = 2 ∧
      fget t fldSPN_STAT_CATCH_FAIL = 1 ∧
      t.spn.gates = .lowSides ∧
      changesOnly [.regs, .spn] s t)

/-- Running the spindle: a PWM period in RUN advances the angle by the committed increment where no new outputs arrived, and the
ramp climbs by ACC_MAX toward the target where no limit acts (R273, R284, R285); the midpoint takes the current samples less
their offsets and raises the tick of a source set to PWM (R269, R276); an overcurrent turns the gates off for its period, and
the sixteenth in a row latches off with CAUSE 4 (R278); a test pulse of DETECT keeps its projected current (R280); the motor
bus above PAUSE_ON pauses a downward ramp (R287). Where a rule leaves a point open, the model's own choice stands (log 7, 46). -/
def Obligations.SpindleDriveAndSamples : Prop :=
  (∀ (s : State) (busMv : Nat),
    spnClear s →
    spnState s = 7 →
    s.pend = [] →
    s.spn.sets = [] →
    vecSq s.spn < vmodLim s * vmodLim s →
    fget s fldSPN_STAT_I_LIM = 0 →
    s.spn.ramp < s.spn.target * 10 ^ 8 →
    ∃ t, exec (.pwmPeriodStart busMv) s = .next t ∧
      spnState t = 7 ∧
      t.spn.theta = s.spn.theta + s.spn.omega ∧
      t.spn.ramp = Nat.min (s.spn.target * 10 ^ 8) (s.spn.ramp + fget s fldSPN_RAMP_ACC_MAX * pwmPeriod s) ∧
      t.spn.tripNow = false ∧
      t.spn.gates = .vector) ∧
  (∀ (s : State) (iu iv vu vv vw : BitVec 12),
    seSrc s 8 0 = 4 →
    seSrc s 8 1 = 0 →
    seState s 8 = 1 →
    s.se[8].pend[0] = none →
    s.se[8].run = none →
    xingArmed s 32 = true →
    ((phaseCodes s iu iv).1 + (phaseCodes s iu iv).2).natAbs ≤ fget s fldSPN_SENSE_OC_TRIP * 2 ^ 4 →
    ∃ t, exec (.pwmMidpoint iu iv vu vv vw) s = .next t ∧
      t.spn.iu = satInt 32 ((phaseCodes s iu iv).1 * 2 ^ 19) ∧
      t.spn.iv = satInt 32 ((phaseCodes s iu iv).2 * 2 ^ 19) ∧
      t.spn.vu = ((dirSwap s [vu, vv, vw]).getD 0 0).toNat * 2 ^ 18 ∧
      (t.se[8].pend[0]).map (·.1) = some s.chipTime) ∧
  (∀ (s : State) (iu iv vu vv vw : BitVec 12),
    xingArmed s 32 = false →
    ((phaseCodes s iu iv).1 + (phaseCodes s iu iv).2).natAbs ≤ fget s fldSPN_SENSE_OC_TRIP * 2 ^ 4 →
    exec (.pwmMidpoint iu iv vu vv vw) s = .next s) ∧
  (∀ (s : State),
    s.spn.tripNow = false →
    s.spn.trips < 15 →
    ∃ t, exec (.overcurrentTrip) s = .next t ∧
      fget t fldSPN_STAT_OC_TRIP = 1 ∧
      t.spn.gates = .off ∧
      t.spn.tripNow = true ∧
      t.spn.trips = s.spn.trips + 1 ∧
      spnState t = spnState s ∧
      counter t 374 = counter s 374 + 1 ∧
      regsBut s t [regSPN_STAT] ∧
      changesOnly [.regs, .spn, .counters, .wraps] s t) ∧
  (∀ (s : State),
    s.spn.tripNow = false →
    15 ≤ s.spn.trips →
    ∃ t, exec (.overcurrentTrip) s = .next t ∧
      spnState t = 0xA ∧
      fget t fldSPN_STAT_LATCHED = 1 ∧
      fget t fldSPN_STAT_CAUSE = 4 ∧
      t.spn.gates = .off ∧
      changesOnly [.regs, .spn, .counters, .wraps] s t) ∧
  (∀ (s : State) (iu iv : BitVec 12),
    spnClear s →
    spnState s = 3 →
    s.spn.pulses.length < 11 →
    ∃ t, exec (.detectPulseEnd iu iv) s = .next t ∧
      spnState t = 3 ∧
      t.spn.pulses = s.spn.pulses ++ [pulseCurrent (phaseCodes s iu iv).1 (phaseCodes s iu iv).2 s.spn.pulses.length] ∧
      t.spn.gates = .off ∧
      changesOnly [.spn] s t) ∧
  (∀ (s : State) (busMv : Nat),
    spnState s = 7 →
    s.spn.target * 10 ^ 8 < s.spn.ramp →
    fget s fldSPN_REGEN_PAUSE_ON < busMv →
    fget s fldSPN_STAT_REGEN_PAUSE = 0 →
    ∃ t, exec (.regenPause busMv) s = .next t ∧
      fget t fldSPN_STAT_REGEN_PAUSE = 1 ∧
      regsBut s t [regSPN_STAT] ∧
      changesOnly [.regs] s t)

/-- R298 to R300, R308, R310, R311 and R313 on a present head's sled. A target from IDLE latches the profile and starts a move, or
with the SLED_HOLD bit set waits in SETTLE; a target that a moving sled can still reach replaces the old one, and one that it
cannot is kept while the sled stops; a target in another state is refused with TGT_DENIED and leaves SLD_TARGET. REV_DWELL_END
starts the kept move. HOME, the park request, UNPARK, ABORT and DRV_EN move the state machine as the state table says. Where a
rule leaves a point open, the model's own choice stands (log 47). -/
def Obligations.SledTargetsAndStops : Prop :=
  (∀ (s : State) (agent : Agent) (n : Head) (value : BitVec 32),
    headPresent s.variant n.val = true →
    sledState s n = 1 →
    s.sled[n].phase = .none →
    value.toInt * 2 ^ 16 ≠ s.sled[n].p →
    sledHeld s n = false →
    s.sled[n].reversing = false →
    ∃ t, exec (.sldTargetWrite agent n value) s = .next t ∧
      sledState t n = 3 ∧
      rd t (regSLD_TARGET n) = value ∧
      t.sled[n].tgt = value.toInt ∧
      (t.sled[n].dir = (if value.toInt * 2 ^ 16 < s.sled[n].p then -1 else 1)) ∧
      t.sled[n].u = 0 ∧
      t.sled[n].p = s.sled[n].p ∧
      t.sled[n].prof = (profileOf s n).1 ∧
      counter t (204 + 18 * n.val) = counter s (204 + 18 * n.val) + 1 ∧
      regsBut s t [regSLD_TARGET n, regSLD_STAT n] ∧
      changesOnly [.regs, .sled, .counters, .wraps] s t) ∧
  (∀ (s : State) (agent : Agent) (n : Head) (value : BitVec 32),
    headPresent s.variant n.val = true →
    sledState s n = 1 →
    s.sled[n].phase = .none →
    value.toInt * 2 ^ 16 ≠ s.sled[n].p →
    sledHeld s n = true →
    ∃ t, exec (.sldTargetWrite agent n value) s = .next t ∧
      sledState t n = 2 ∧
      rd t (regSLD_TARGET n) = value ∧
      t.sled[n].next = some value.toInt ∧
      t.sled[n].p = s.sled[n].p ∧
      regsBut s t [regSLD_TARGET n, regSLD_STAT n] ∧
      changesOnly [.regs, .sled] s t) ∧
  (∀ (s : State) (agent : Agent) (n : Head) (value : BitVec 32),
    headPresent s.variant n.val = true →
    sledState s n = 3 →
    s.sled[n].stopping = false →
    canReach s.sled[n] value.toInt = true →
    ∃ t, exec (.sldTargetWrite agent n value) s = .next t ∧
      sledState t n = 3 ∧
      rd t (regSLD_TARGET n) = value ∧
      t.sled[n].tgt = value.toInt ∧
      t.sled[n].prof = (profileOf s n).1 ∧
      t.sled[n].u = s.sled[n].u ∧
      regsBut s t [regSLD_TARGET n, regSLD_STAT n] ∧
      changesOnly [.regs, .sled] s t) ∧
  (∀ (s : State) (agent : Agent) (n : Head) (value : BitVec 32),
    headPresent s.variant n.val = true →
    sledState s n = 3 →
    s.sled[n].stopping = false →
    canReach s.sled[n] value.toInt = false →
    ∃ t, exec (.sldTargetWrite agent n value) s = .next t ∧
      sledState t n = 4 ∧
      rd t (regSLD_TARGET n) = value ∧
      t.sled[n].next = some value.toInt ∧
      t.sled[n].stopping = true ∧
      t.sled[n].stopFor = .reverse ∧
      t.sled[n].u = s.sled[n].u ∧
      regsBut s t [regSLD_TARGET n, regSLD_STAT n] ∧
      changesOnly [.regs, .sled] s t) ∧
  (∀ (s : State) (agent : Agent) (n : Head) (value : BitVec 32),
    headPresent s.variant n.val = true →
    (sledState s n = 0 ∨ 5 ≤ sledState s n) →
    s.hb[n].portion = none →
    s.hb[n].openSteps = [] →
    ∃ t, exec (.sldTargetWrite agent n value) s = .next t ∧
      sledState t n = sledState s n ∧
      fget t (fldSLD_STAT_TGT_DENIED n) = 1 ∧
      regsBut s t [regSLD_STAT n] ∧
      changesOnly [.regs] s t) ∧
  (∀ (s : State) (n : Head) (tgt : Int),
    sledState s n = 4 →
    s.sled[n].stopping = false →
    s.sled[n].next = some tgt →
    tgt * 2 ^ 16 ≠ s.sled[n].p →
    sledHeld s n = false →
    ∃ t, exec (.revDwellEnd n) s = .next t ∧
      sledState t n = 3 ∧
      fget t (fldSLD_STAT_REVERSED n) = 1 ∧
      t.sled[n].tgt = tgt ∧
      t.sled[n].next = none ∧
      t.sled[n].prof = (profileOf s n).1 ∧
      (t.sled[n].dir = (if tgt * 2 ^ 16 < s.sled[n].p then -1 else 1)) ∧
      counter t (204 + 18 * n.val) = counter s (204 + 18 * n.val) + 1 ∧
      counter t (205 + 18 * n.val) = counter s (205 + 18 * n.val) + 1 ∧
      regsBut s t [regSLD_STAT n] ∧
      changesOnly [.regs, .sled, .counters, .wraps] s t) ∧
  (∀ (s : State) (agent : Agent) (n : Head),
    headPresent s.variant n.val = true →
    (sledState s n = 8 ∨ (sledState s n = 1 ∧ s.sled[n].phase = .none)) →
    fget s (fldSLD_STAT_SW n) = 1 →
    ∃ t, exec (.sledHome agent n) s = .next t ∧
      sledState t n = 5 ∧
      t.sled[n].phase = .backoff ∧
      t.sled[n].dir = 1 ∧
      t.sled[n].u = homeSlow s n ∧
      t.sled[n].p0 = s.sled[n].p ∧
      regsBut s t [regSLD_STAT n] ∧
      changesOnly [.regs, .sled] s t) ∧
  (∀ (s : State) (agent : Agent) (n : Head),
    headPresent s.variant n.val = true →
    (sledState s n = 8 ∨ (sledState s n = 1 ∧ s.sled[n].phase = .none)) →
    fget s (fldSLD_STAT_SW n) = 0 →
    ∃ t, exec (.sledHome agent n) s = .next t ∧
      sledState t n = 5 ∧
      t.sled[n].phase = .seek ∧
      t.sled[n].tgt = s.sled[n].p / 2 ^ 16 - fget s (fldSLD_HOME_EXP_EXPECT n) ∧
      t.sled[n].prof = homeProfile (profileOf s n).1 (homeFast s n) ∧
      regsBut s t [regSLD_STAT n] ∧
      changesOnly [.regs, .sled] s t) ∧
  (∀ (s : State) (agent : Agent) (n : Head),
    headPresent s.variant n.val = true →
    (sledState s n = 1 ∨ sledState s n = 3 ∨ sledState s n = 4 ∨ sledState s n = 5) →
    0 < s.sled[n].u →
    ∃ t, exec (.sledPark agent n) s = .next t ∧
      sledState t n = 6 ∧
      t.sled[n].next = none ∧
      t.sled[n].stopping = true ∧
      t.sled[n].stopFor = .park ∧
      t.sled[n].u = s.sled[n].u ∧
      regsBut s t [regSLD_STAT n] ∧
      changesOnly [.regs, .sled] s t) ∧
  (∀ (s : State) (agent : Agent) (n : Head),
    headPresent s.variant n.val = true →
    (sledState s n = 1 ∨ sledState s n = 2 ∨ sledState s n = 8) →
    s.sled[n].u = 0 →
    fget s (fldSLD_STAT_POS_VALID n) = 1 →
    (rd s (regSLD_PARK n)).toInt * 2 ^ 16 ≠ s.sled[n].p →
    ∃ t, exec (.sledPark agent n) s = .next t ∧
      sledState t n = 6 ∧
      t.sled[n].phase = .parkMove ∧
      t.sled[n].tgt = (rd s (regSLD_PARK n)).toInt ∧
      regsBut s t [regSLD_STAT n] ∧
      changesOnly [.regs, .sled] s t) ∧
  (∀ (s : State) (agent : Agent) (n : Head),
    headPresent s.variant n.val = true →
    sledState s n = 7 →
    s.sled[n].parkSrc = [] →
    ∃ t, exec (.sledUnpark agent n) s = .next t ∧
      sledState t n = 1 ∧
      t.sled[n].powered = true ∧
      t.sled[n].run = false ∧
      t.sled[n].p = s.sled[n].p ∧
      regsBut s t [regSLD_STAT n] ∧
      changesOnly [.regs, .sled] s t) ∧
  (∀ (s : State) (agent : Agent) (n : Head),
    headPresent s.variant n.val = true →
    sledState s n = 7 →
    s.sled[n].parkSrc ≠ [] →
    ∃ t, exec (.sledUnpark agent n) s = .next t ∧
      sledState t n = 7 ∧
      fget t (fldSLD_STAT_TGT_DENIED n) = 1 ∧
      regsBut s t [regSLD_STAT n] ∧
      changesOnly [.regs] s t) ∧
  (∀ (s : State) (agent : Agent) (n : Head),
    headPresent s.variant n.val = true →
    sledState s n = 3 →
    s.sled[n].stopping = false →
    0 < s.sled[n].u →
    ∃ t, exec (.sledAbort agent n) s = .next t ∧
      sledState t n = 3 ∧
      t.sled[n].stopping = true ∧
      t.sled[n].stopFor = .idle ∧
      t.sled[n].u = s.sled[n].u ∧
      changesOnly [.sled] s t) ∧
  (∀ (s : State) (agent : Agent) (n : Head),
    headPresent s.variant n.val = true →
    sledState s n = 8 →
    ∃ t, exec (.sledAbort agent n) s = .next t ∧
      sledState t n = 1 ∧
      t.sled[n].powered = true ∧
      t.sled[n].p = s.sled[n].p ∧
      regsBut s t [regSLD_STAT n] ∧
      changesOnly [.regs, .sled] s t) ∧
  (∀ (s : State) (agent : Agent) (n : Head),
    headPresent s.variant n.val = true →
    sledState s n = 0 →
    ∃ t, exec (.sldDrvEnWrite agent n true) s = .next t ∧
      sledState t n = 1 ∧
      fget t (fldSLD_CTL_DRV_EN n) = 1 ∧
      t.sled[n].powered = true ∧
      regsBut s t [regSLD_STAT n, regSLD_CTL n] ∧
      changesOnly [.regs, .sled] s t) ∧
  (∀ (s : State) (agent : Agent) (n : Head),
    headPresent s.variant n.val = true →
    (sledState s n = 1 ∨ sledState s n = 2 ∨ sledState s n = 8) →
    s.sled[n].u = 0 →
    fget s (fldSLD_CTL_HOLD_EN n) = 0 →
    ∃ t, exec (.sldDrvEnWrite agent n false) s = .next t ∧
      sledState t n = 0 ∧
      fget t (fldSLD_CTL_DRV_EN n) = 0 ∧
      fget t (fldSLD_STAT_POS_VALID n) = 0 ∧
      t.sled[n].powered = false ∧
      t.sled[n].coilA = 0 ∧
      t.sled[n].coilB = 0 ∧
      regsBut s t [regSLD_STAT n, regSLD_CTL n] ∧
      changesOnly [.regs, .sled] s t)

/-- R293 to R296, R301, R302, R307, R308 and R310 on a present head's sled. An update of a move takes the speed, segment and place
that the profile gives, shows the place in SLD_POS, and clears EST_VALID below EST_MIN; at rest an update moves the applied
trim toward the committed one by at most TRIM_RATE and sets the coil currents from the table. Ten ms after a stop the current
falls to I_HOLD, or a power-down that keeps the position ends. A switch edge is kept with its place; a debounced trip of the
search phase begins LATCH, and the release that ends it sets the position from HOME_OFS. Where a rule leaves a point open, the
model's own choice stands (log 7, 47). -/
def Obligations.SledUpdatesAndSwitch : Prop :=
  (∀ (s : State) (n : Head) (va vb ia ib da db : Int),
    headPresent s.variant n.val = true →
    sweepRunning s = true →
    sledState s n = 3 →
    s.sled[n].stopping = false →
    stepOf (profileStep s.sled[n].prof s.sled[n].u (s.sled[n].tgt * 2 ^ 16 - s.sled[n].p).natAbs).1 < (s.sled[n].tgt * 2 ^ 16 - s.sled[n].p).natAbs →
    s.sled[n].p + s.sled[n].dir * stepOf (profileStep s.sled[n].prof s.sled[n].u (s.sled[n].tgt * 2 ^ 16 - s.sled[n].p).natAbs).1 ≠ s.sled[n].tgt * 2 ^ 16 →
    (profileStep s.sled[n].prof s.sled[n].u (s.sled[n].tgt * 2 ^ 16 - s.sled[n].p).natAbs).1 < 2500 * (fget s (fldSLD_STALL_EST_MIN n) : Int) →
    ∃ t, exec (.sledUpdate n va vb ia ib da db) s = .next t ∧
      sledState t n = 3 ∧
      t.sled[n].u = (profileStep s.sled[n].prof s.sled[n].u (s.sled[n].tgt * 2 ^ 16 - s.sled[n].p).natAbs).1 ∧
      fget t (fldSLD_STAT_SEG n) = (profileStep s.sled[n].prof s.sled[n].u (s.sled[n].tgt * 2 ^ 16 - s.sled[n].p).natAbs).2.1 ∧
      t.sled[n].p = s.sled[n].p + s.sled[n].dir * stepOf t.sled[n].u ∧
      rd t (regSLD_POS n) = BitVec.ofInt 32 (t.sled[n].p / 2 ^ 16) ∧
      fget t (fldSLD_STAT_EST_VALID n) = 0 ∧
      regsBut s t [regSLD_STAT n, regSLD_POS n, regSLD_TRIM n, regSLD_LOAD n] ∧
      changesOnly [.regs, .sled] s t) ∧
  (∀ (s : State) (n : Head) (va vb ia ib da db : Int),
    headPresent s.variant n.val = true →
    sweepRunning s = true →
    sledState s n = 1 →
    s.sled[n].stopping = false →
    s.sled[n].u = 0 →
    ∃ t, exec (.sledUpdate n va vb ia ib da db) s = .next t ∧
      t.sled[n].trim = s.sled[n].trim + clampInt (clampInt (seOut s (Fin.ofNat 10 n.val) 3).toInt (-(fget s (fldSLD_TRIMCFG_TRIM_MAX n) : Int)) (fget s (fldSLD_TRIMCFG_TRIM_MAX n)) - s.sled[n].trim) (-(fget s (fldSLD_TRIMCFG_TRIM_RATE n) : Int)) (fget s (fldSLD_TRIMCFG_TRIM_RATE n)) ∧
      (t.sled[n].coilA, t.sled[n].coilB) = (if s.sled[n].powered then ((coilAt s n (sledPos t n)).1 * coilLevel s n, (coilAt s n (sledPos t n)).2 * coilLevel s n) else (0, 0)) ∧
      t.sled[n].p = s.sled[n].p ∧
      regsBut s t [regSLD_STAT n, regSLD_POS n, regSLD_TRIM n, regSLD_LOAD n] ∧
      changesOnly [.regs, .sled] s t) ∧
  (∀ (s : State) (n : Head),
    s.sled[n].phase ≠ .detent →
    sledState s n ≠ 3 →
    sledState s n ≠ 4 →
    ∃ t, exec (.runCurrentEnd n) s = .next t ∧
      t.sled[n].run = false ∧
      changesOnly [.sled] s t) ∧
  (∀ (s : State) (n : Head),
    s.sled[n].phase = .detent →
    ∃ t, exec (.runCurrentEnd n) s = .next t ∧
      (sledState t n = (if sledState s n = 6 then 7 else 0)) ∧
      t.sled[n].powered = false ∧
      t.sled[n].kept = true ∧
      t.sled[n].phase = .none ∧
      t.sled[n].coilA = 0 ∧
      t.sled[n].coilB = 0 ∧
      fget t (fldSLD_STAT_POS_VALID n) = fget s (fldSLD_STAT_POS_VALID n) ∧
      regsBut s t [regSLD_STAT n] ∧
      changesOnly [.regs, .sled] s t) ∧
  (∀ (s : State) (n : Head),
    headPresent s.variant n.val = true →
    s.sled[n].edges.length < 8 →
    ∃ t, exec (.homeSwitchEdge n) s = .next t ∧
      t.sled[n].edges = s.chipTime :: s.sled[n].edges.filter (fun x => decide ((s.chipTime - x).toNat ≤ 2000000)) ∧
      t.sled[n].edgePos = s.sled[n].p ∧
      changesOnly [.sled] s t) ∧
  (∀ (s : State) (n : Head),
    headPresent s.variant n.val = true →
    sledState s n ≠ 5 →
    sledState s n ≠ 6 →
    8 ≤ (s.sled[n].edges.filter (fun x => decide ((s.chipTime - x).toNat ≤ 2000000))).length →
    ∃ t, exec (.homeSwitchEdge n) s = .next t ∧
      fget t (fldSLD_STAT_CHATTER n) = 1 ∧
      t.sled[n].edgePos = s.sled[n].p ∧
      regsBut s t [regSLD_STAT n] ∧
      changesOnly [.regs, .sled] s t) ∧
  (∀ (s : State) (n : Head) (level : Bool),
    headPresent s.variant n.val = true →
    sledState s n = 5 →
    s.sled[n].phase = .search →
    fget s (fldSLD_STAT_SW n) = 0 →
    level = fbit s (fldSLD_CTL_HOME_POL n) →
    ∃ t, exec (.switchDebounced n level) s = .next t ∧
      fget t (fldSLD_STAT_SW n) = 1 ∧
      rd t (regSLD_TRIP_POS n) = BitVec.ofInt 32 (s.sled[n].edgePos / 2 ^ 16) ∧
      t.sled[n].phase = .latchWait ∧
      t.sled[n].waitLeft = 80 ∧
      t.sled[n].u = 0 ∧
      regsBut s t [regSLD_STAT n, regSLD_TRIP_POS n] ∧
      changesOnly [.regs, .sled] s t) ∧
  (∀ (s : State) (n : Head) (level : Bool),
    headPresent s.variant n.val = true →
    sledState s n = 5 →
    s.sled[n].phase = .latchOut →
    fget s (fldSLD_STAT_SW n) = 1 →
    level = !fbit s (fldSLD_CTL_HOME_POL n) →
    ∃ t, exec (.switchDebounced n level) s = .next t ∧
      fget t (fldSLD_STAT_SW n) = 0 ∧
      fget t (fldSLD_STAT_POS_VALID n) = 1 ∧
      sledState t n = 1 ∧
      t.sled[n].p = (rd s (regSLD_HOME_OFS n)).toInt * 2 ^ 16 + (s.sled[n].p - s.sled[n].edgePos) ∧
      t.sled[n].phase = .none ∧
      counter t (208 + 18 * n.val) = counter s (208 + 18 * n.val) + 1 ∧
      regsBut s t [regSLD_STAT n, regSLD_TRIP_POS n, regSLD_EVT_TIME_LO n, regSLD_EVT_TIME_HI n] ∧
      changesOnly [.regs, .sled, .counters, .wraps] s t)

/-- R331, R335 and R318: SWP_SUBMIT_HI submits the program address while fewer than four are queued or loading, and otherwise sets
QFULL; a load starts while none runs; a program that passes every check is queued behind the others with its SWEEP_ID,
START_WEDGE and steps; one that does not sets LOAD_FAIL and FLAGS, and its load record is pushed into the sweep-step FIFO.
Where a rule leaves a point open, the model's own choice stands (log 52). -/
def Obligations.SweepProgramsLoadAndQueue : Prop :=
  (∀ (s : State) (agent : Agent) (value : BitVec 32),
    s.swpQueue.length + s.swpSubmits.length < 4 →
    ∃ t, exec (.sweepSubmit agent value) s = .next t ∧
      t.swpSubmits = s.swpSubmits ++ [value.toNat % 256 * 2 ^ 32 + fget s fldSWP_SUBMIT_LO_ADDR * 16] ∧
      rd t regSWP_SUBMIT_HI = BitVec.ofNat 32 (value.toNat % 256) ∧
      regsBut s t [regSWP_SUBMIT_HI] ∧
      changesOnly [.regs, .swpSubmits, .lastReply] s t) ∧
  (∀ (s : State) (agent : Agent) (value : BitVec 32),
    4 ≤ s.swpQueue.length + s.swpSubmits.length →
    ∃ t, exec (.sweepSubmit agent value) s = .next t ∧
      fget t fldSWP_STAT_QFULL = 1 ∧
      regsBut s t [regSWP_SUBMIT_HI, regSWP_STAT] ∧
      changesOnly [.regs, .lastReply] s t) ∧
  (∀ (s : State),
    fget s fldSWP_STAT_LOADING = 0 →
    s.swpSubmits ≠ [] →
    ∃ t, exec (.programLoad) s = .next t ∧
      fget t fldSWP_STAT_LOADING = 1 ∧
      fget t fldSWP_LOAD_STAT_BUSY = 1 ∧
      regsBut s t [regSWP_STAT, regSWP_LOAD_STAT] ∧
      changesOnly [.regs] s t) ∧
  (∀ (s : State) (layers : Fin 17) (addr : Nat) (rest : List Nat) (hb bs : List Byte) (steps : List SwpStep),
    fget s fldSWP_STAT_LOADING = 1 →
    s.swpSubmits = addr :: rest →
    memRead s 4 addr 16 = (s, some (hb, false)) →
    memRead s 4 (addr + 16) (16 * bitsOf ((wordsOf 4 hb).getD 0 0).toNat 10 0) = (s, some (bs, false)) →
    stepsOfWords (wordsOf (4 * bitsOf ((wordsOf 4 hb).getD 0 0).toNat 10 0) bs) = steps →
    programFlags s layers.val (((wordsOf 4 hb).getD 2 0).toNat % 1024) (headerBad ((wordsOf 4 hb).getD 0 0) ((wordsOf 4 hb).getD 2 0) ((wordsOf 4 hb).getD 3 0)) steps = 0 →
    steps.any isWrite = false →
    ∃ t, exec (.programLoadDone layers) s = .next t ∧
      t.swpQueue = s.swpQueue ++ [⟨⟨s.swpCtr, (wordsOf 4 hb).getD 1 0⟩, ((wordsOf 4 hb).getD 2 0).toNat % 1024, steps⟩] ∧
      t.swpSubmits = rest ∧
      t.swpCtr = s.swpCtr + 1 ∧
      fget t fldSWP_STAT_LOADING = 0 ∧
      fget t fldSWP_LOAD_STAT_BUSY = 0 ∧
      fget t fldSWP_LOAD_STAT_FLAGS = 0 ∧
      regsBut s t [regSWP_STAT, regSWP_LOAD_STAT] ∧
      changesOnly [.regs, .swpQueue, .swpSubmits, .swpCtr] s t) ∧
  (∀ (s : State) (layers : Fin 17) (addr : Nat) (rest : List Nat) (hb bs : List Byte) (steps : List SwpStep) (flags : Nat),
    fget s fldSWP_STAT_LOADING = 1 →
    s.swpSubmits = addr :: rest →
    memRead s 4 addr 16 = (s, some (hb, false)) →
    memRead s 4 (addr + 16) (16 * bitsOf ((wordsOf 4 hb).getD 0 0).toNat 10 0) = (s, some (bs, false)) →
    stepsOfWords (wordsOf (4 * bitsOf ((wordsOf 4 hb).getD 0 0).toNat 10 0) bs) = steps →
    programFlags s layers.val (((wordsOf 4 hb).getD 2 0).toNat % 1024) (headerBad ((wordsOf 4 hb).getD 0 0) ((wordsOf 4 hb).getD 2 0) ((wordsOf 4 hb).getD 3 0)) steps = flags →
    flags ≠ 0 →
    bitsOf flags 2 2 = 0 →
    ∃ t, exec (.programLoadDone layers) s = .next t ∧
      t = loadEnd (fifoPush (count (fput (fset s fldSWP_STAT_LOAD_FAIL) fldSWP_LOAD_STAT_FLAGS flags) 379) 9 (stepRecord 0xE 0 0 0 0 0 s.chipTime ((wordsOf 4 hb).getD 1 0) 0 flags)) ∧
      t.swpQueue = s.swpQueue ∧
      t.swpSubmits = rest ∧
      fget t fldSWP_STAT_LOADING = 0)

/-- R327, R333 to R336 and R344: START in IDLE takes the first loaded program and enters WAIT, or begins an empty sweep and sets
EMPTY; STOP waits for the boundary; ABORT discards the queue, ends every portion and enters TAIL from WINDOW; the window opens
with its time, SWEEP_ID and what holds then; it closes into TAIL with every portion of the sweep over; with no armed slot left
DRAIN begins; a complete drain writes the summary and sets BOUNDARY; the boundary ends in IDLE after a STOP and otherwise in
the next WAIT; BOUNDARY in IDLE takes heads offline at once; ONLINE bits bring present heads online. PORTION_START begins a
head's portion, or ends an offline head's steps. Where a rule leaves a point open, the model's own choice stands (log 49, 50,
53). -/
def Obligations.SweepCommandsAndWindow : Prop :=
  (∀ (s : State) (agent : Agent) (p : SwpProgram) (rest : List SwpProgram),
    fget s fldSWP_STAT_STATE = 0 →
    s.swpQueue = p :: rest →
    ∃ t, exec (.sweepStart agent) s = .next t ∧
      fget t fldSWP_STAT_STATE = 1 ∧
      fget t fldSWP_STAT_QUEUED = rest.length % 8 ∧
      t.swpCur = some p ∧
      t.swpQueue = rest ∧
      t.swpStart = p.startWedge ∧
      t.swpLate = false ∧
      t.swpStop = false ∧
      regsBut s t ([regSWP_STAT] ++ (List.range 8).map regWC_STAT) ∧
      changesOnly [.regs, .swpCur, .swpQueue, .swpStart, .swpLate, .swpStop, .swpOpened, .swpAborted, .winFlags, .spans, .wc, .lastReply] s t) ∧
  (∀ (s : State) (agent : Agent),
    fget s fldSWP_STAT_STATE = 0 →
    s.swpQueue = [] →
    ∃ t, exec (.sweepStart agent) s = .next t ∧
      fget t fldSWP_STAT_STATE = 1 ∧
      fget t fldSWP_STAT_EMPTY = 1 ∧
      t.swpCur = none ∧
      counter t 380 = counter s 380 + 1 ∧
      regsBut s t [regSWP_STAT] ∧
      changesOnly [.regs, .swpCur, .swpLate, .swpStop, .swpOpened, .swpAborted, .winFlags, .spans, .counters, .wraps, .lastReply] s t) ∧
  (∀ (s : State) (agent : Agent),
    sweepRunning s = true →
    ∃ t, exec (.sweepStop agent) s = .next t ∧
      t.swpStop = true ∧
      changesOnly [.swpStop, .lastReply] s t) ∧
  (∀ (s : State) (agent : Agent),
    fget s fldSWP_STAT_STATE = 2 →
    ∃ t, exec (.sweepAbort agent) s = .next t ∧
      fget t fldSWP_STAT_STATE = 3 ∧
      t.swpQueue = [] ∧
      t.swpAborted = true ∧
      t.swpOpened = s.swpOpened ∧
      (List.finRange 8).all (fun n => t.hb[n].portion.isNone && t.hb[n].openSteps.isEmpty) = true) ∧
  (∀ (s : State),
    fget s fldSWP_STAT_STATE = 1 →
    s.swpLate = false →
    ∃ t, exec (.windowOpen) s = .next t ∧
      fget t fldSWP_STAT_STATE = 2 ∧
      rd t regSWP_WIN_TIME_LO = s.chipTime.setWidth 32 ∧
      rd t regSWP_WIN_TIME_HI = (s.chipTime >>> 32).setWidth 32 ∧
      s.swpCur.all (fun p => rd t regSWP_CUR_ID == p.ref.id) = true ∧
      t.winFlags = (fbit s fldSPN_STAT_ANGLE_VALID, fbit s fldSPN_STAT_AT_SPEED, (List.range 8).filter (fun n => fbit s (fldWC_STAT_TABLE_OK n))) ∧
      t.swpOpened = some (s.swpStart * 2 ^ 32 / 720 + (discTurn s - s.swpStart * 2 ^ 32 / 720) / 2 ^ 32 * 2 ^ 32) ∧
      regsBut s t [regSWP_STAT, regSWP_WIN_TIME_LO, regSWP_WIN_TIME_HI, regSWP_CUR_ID] ∧
      changesOnly [.regs, .winFlags, .swpOpened] s t) ∧
  (∀ (s : State),
    fget s fldSWP_STAT_STATE = 2 →
    ∃ t, exec (.windowClose) s = .next t ∧
      fget t fldSWP_STAT_STATE = 3 ∧
      t.swpOpened = s.swpOpened ∧
      (List.finRange 8).all (fun n => t.hb[n].portion.all (fun p => !(ofCurrent s p) || p.steps.isEmpty)) = true) ∧
  (∀ (s : State),
    fget s fldSWP_STAT_STATE = 3 →
    (List.finRange 8).all (fun n => !(headBusy s n)) = true →
    ∃ t, exec (.allSlotsEnded) s = .next t ∧
      fget t fldSWP_STAT_STATE = 4 ∧
      t.swpTail = s.chipTime ∧
      regsBut s t [regSWP_STAT] ∧
      changesOnly [.regs, .swpTail] s t) ∧
  (∀ (s : State),
    fget s fldSWP_STAT_STATE = 4 →
    verifyStale s = s →
    sectorsDone s = true →
    closeTiles (forEach (List.finRange 8) s verifyLost) = s →
    s.tiles = [] →
    ringsDone s = true →
    s.shortHeads = [] →
    ∃ t, exec (.drainComplete) s = .next t ∧
      fget t fldSWP_STAT_STATE = 5 ∧
      fget t fldSWP_STAT_BOUNDARY = 1 ∧
      fget t fldSWP_SHORT_HEADS = 0 ∧
      counter t 376 = counter s 376 + 1 ∧
      t.spans = []) ∧
  (∀ (s u : State),
    fget s fldSWP_STAT_STATE = 5 →
    retrainDue s = false →
    u = boundaryHeads (boundaryFields s) →
    u.swpStop = true →
    u.swpAborted = false →
    ∃ t, exec (.boundaryApply) s = .next t ∧
      fget t fldSWP_STAT_STATE = 0 ∧
      rd t regSWP_BOUND_TIME_LO = u.chipTime.setWidth 32 ∧
      rd t regSWP_BOUND_TIME_HI = (u.chipTime >>> 32).setWidth 32 ∧
      fget t fldSWP_DRAIN_LAST = Nat.min 0xFFFF ((u.chipTime - u.swpTail).toNat / 100) ∧
      t.swpStop = false ∧
      t.swpCur = none ∧
      regsBut u t [regSWP_STAT, regSWP_BOUND_TIME_LO, regSWP_BOUND_TIME_HI, regSWP_DRAIN] ∧
      changesOnly [.regs, .swpStop, .swpCur, .swpAborted, .retrained] u t) ∧
  (∀ (s u : State) (p : SwpProgram) (rest : List SwpProgram),
    fget s fldSWP_STAT_STATE = 5 →
    retrainDue s = false →
    u = boundaryHeads (boundaryFields s) →
    u.swpStop = false →
    u.swpQueue = p :: rest →
    ∃ t, exec (.boundaryApply) s = .next t ∧
      fget t fldSWP_STAT_STATE = 1 ∧
      t.swpCur = some p ∧
      t.swpQueue = rest ∧
      t.swpStart = p.startWedge ∧
      t.swpAborted = false ∧
      regsBut u t ([regSWP_STAT, regSWP_BOUND_TIME_LO, regSWP_BOUND_TIME_HI, regSWP_DRAIN] ++ (List.range 8).map regWC_STAT) ∧
      changesOnly [.regs, .swpCur, .swpQueue, .swpStart, .swpLate, .swpAborted, .winFlags, .spans, .wc, .retrained] u t) ∧
  (∀ (s u : State) (agent : Agent),
    fget s fldSWP_STAT_STATE = 0 →
    u = boundaryFields s →
    (List.finRange 8).all (fun n => u.hb[n].portion.isNone && u.hb[n].openSteps.isEmpty) = true →
    ∃ t, exec (.sweepBoundaryCmd agent) s = .next t ∧
      (List.range 8).all (fun n => fbitAt t fldSWP_HEAD_ONLINE_ONLINE n == (fbitAt u fldSWP_HEAD_ONLINE_ONLINE n && !(fbitAt u fldSWP_HEAD_ONLINE_OFFLINE_PEND n))) = true ∧
      (List.range 8).all (fun n => !(fbitAt t fldSWP_HEAD_ONLINE_OFFLINE_PEND n)) = true ∧
      regsBut u t [regSWP_STAT, regSWP_HEAD_ONLINE] ∧
      changesOnly [.regs, .hb, .lastReply] u t) ∧
  (∀ (s : State) (agent : Agent) (mask : BitVec 8),
    ∃ t, exec (.headOnlineSet agent mask) s = .next t ∧
      fget t fldSWP_HEAD_ONLINE_ONLINE = fget s fldSWP_HEAD_ONLINE_ONLINE ||| (mask.toNat &&& headMask s.variant) ∧
      regsBut s t [regSWP_HEAD_ONLINE] ∧
      changesOnly [.regs, .lastReply] s t) ∧
  (∀ (s : State) (n : Head) (p : SwpProgram),
    (fget s fldSWP_STAT_STATE = 1 ∨ fget s fldSWP_STAT_STATE = 2) →
    s.swpCur = some p →
    unbegun s p n = true →
    fbitAt s fldSWP_HEAD_ONLINE_ONLINE n.val = true →
    ∃ t, exec (.portionStart n) s = .next t ∧
      t.hb[n].portion = some ⟨p.ref, portionMode (portionOf p.steps n.val), portionOf p.steps n.val, false, 0⟩ ∧
      t.hb[n].begun = p.ref.seq + 1 ∧
      changesOnly [.hb] s t) ∧
  (∀ (s : State) (n : Head) (p : SwpProgram),
    (fget s fldSWP_STAT_STATE = 1 ∨ fget s fldSWP_STAT_STATE = 2) →
    s.swpCur = some p →
    unbegun s p n = true →
    fbitAt s fldSWP_HEAD_ONLINE_ONLINE n.val = false →
    ∃ t, exec (.portionStart n) s = .next t ∧
      t.hb[n].portion = none ∧
      t.hb[n].begun = p.ref.seq + 1 ∧
      t.shortHeads.contains (p.ref.seq, n.val) = true)

/-- R319, R321, R323 and R336: at the step that a head's portion has reached, HEAD, NOP and END complete; LAYER and SEEK post
their SCHED word and complete; WAIT_POS completes with COUNT good statuses in a row and otherwise waits; WAIT_WEDGE waits in
its window for its frame and completes when that frame begins, or at once when it has begun; MARK completes with CODE in its
record and with IRQ sets MARK. A step that completes leaves the portion and its step record, with STATUS 0, is pushed into the
sweep-step FIFO; nothing else changes. Where a rule leaves a point open, the model's own choice stands (log 48). -/
def Obligations.SweepControlSteps : Prop :=
  (∀ (s : State) (n : Head) (p : Portion) (i : Nat) (st : SwpStep) (rest : List (Nat × SwpStep)),
    s.hb[n].portion = some p →
    p.steps = (i, st) :: rest →
    stepOp st = 1 →
    ∃ t, exec (.headStep n) s = .next t ∧
      t = fifoPush (modPortion s n (fun q => { q with steps := rest, waiting := false, passed := 0 })) 9 (stepRecord 1 n.val 0 i 0 st.w3 s.chipTime p.ref.id 0 0)) ∧
  (∀ (s : State) (n : Head) (p : Portion) (i : Nat) (st : SwpStep) (rest : List (Nat × SwpStep)),
    s.hb[n].portion = some p →
    p.steps = (i, st) :: rest →
    stepOp st = 13 →
    ∃ t, exec (.nopStep n) s = .next t ∧
      t = fifoPush (modPortion s n (fun q => { q with steps := rest, waiting := false, passed := 0 })) 9 (stepRecord 13 n.val 0 i 0 st.w3 s.chipTime p.ref.id 0 0)) ∧
  (∀ (s : State) (n : Head) (p : Portion) (i : Nat) (st : SwpStep) (rest : List (Nat × SwpStep)),
    s.hb[n].portion = some p →
    p.steps = (i, st) :: rest →
    stepOp st = 0 →
    ∃ t, exec (.endStep n) s = .next t ∧
      t = fifoPush (modPortion s n (fun q => { q with steps := rest, waiting := false, passed := 0 })) 9 (stepRecord 0 n.val 0 i 0 st.w3 s.chipTime p.ref.id 0 0)) ∧
  (∀ (s : State) (n : Head) (p : Portion) (i : Nat) (st : SwpStep) (rest : List (Nat × SwpStep)),
    s.hb[n].portion = some p →
    p.steps = (i, st) :: rest →
    stepOp st = 2 →
    ∃ t, exec (.layer n) s = .next t ∧
      (t = fifoPush (modHb s n (fun h => { h with sched := some (schedWord p.mode n.val (bitsOf st.w0.toNat 3 0) (schedField s n 24 20) (schedField s n 19 8) (if p.mode = 1 then 0 else schedField s n 7 6) h.schedSeq), schedSeq := h.schedSeq + 1, goodRun := 0, posted := true, portion := some { p with steps := rest, waiting := false, passed := 0 } })) 9 (stepRecord 2 n.val 0 i 0 st.w3 s.chipTime p.ref.id 0 0))) ∧
  (∀ (s : State) (n : Head) (p : Portion) (i : Nat) (st : SwpStep) (rest : List (Nat × SwpStep)),
    s.hb[n].portion = some p →
    p.steps = (i, st) :: rest →
    stepSled st = false →
    stepOp st = 3 →
    ∃ t, exec (.seek n) s = .next t ∧
      (t = fifoPush (modHb s n (fun h => { h with sched := some (schedWord p.mode n.val (ptaLayer st.w1.toNat) (ptaArea st.w1.toNat) (ptaBand st.w1.toNat) (if p.mode = 1 then 0 else stepTrack st) h.schedSeq), schedSeq := h.schedSeq + 1, goodRun := 0, posted := true, portion := some { p with steps := rest, waiting := false, passed := 0 } })) 9 (stepRecord 3 n.val 0 i st.w1 st.w3 s.chipTime p.ref.id 0 0))) ∧
  (∀ (s : State) (n : Head) (p : Portion) (i : Nat) (st : SwpStep) (rest : List (Nat × SwpStep)),
    s.hb[n].portion = some p →
    p.steps = (i, st) :: rest →
    stepSled st = true →
    sledState s n = 3 →
    s.sled[n].stopping = false →
    canReach s.sled[n] st.w2.toInt = true →
    stepOp st = 3 →
    ∃ t, exec (.seek n) s = .next t ∧
      rd t (regSLD_TARGET n) = st.w2 ∧
      t.sled[n].tgt = st.w2.toInt ∧
      t.hb[n].portion = some { p with steps := rest, waiting := false, passed := 0 } ∧
      t.hb[n].goodRun = 0) ∧
  (∀ (s : State) (n : Head) (p : Portion) (i : Nat) (st : SwpStep) (rest : List (Nat × SwpStep)),
    s.hb[n].portion = some p →
    p.steps = (i, st) :: rest →
    stepOp st = 4 →
    p.waiting = false →
    stepCount st ≤ s.hb[n].goodRun →
    ∃ t, exec (.waitPos n) s = .next t ∧
      t = fifoPush (modPortion s n (fun q => { q with steps := rest, waiting := false, passed := 0 })) 9 (stepRecord 4 n.val 0 i 0 st.w3 s.chipTime p.ref.id 0 0)) ∧
  (∀ (s : State) (n : Head) (p : Portion) (i : Nat) (st : SwpStep) (rest : List (Nat × SwpStep)),
    s.hb[n].portion = some p →
    p.steps = (i, st) :: rest →
    stepOp st = 4 →
    p.waiting = false →
    s.hb[n].goodRun < stepCount st →
    ∃ t, exec (.waitPos n) s = .next t ∧
      t = modPortion s n (fun q => { q with waiting := true, passed := 0 })) ∧
  (∀ (s : State) (n : Head) (p : Portion) (i : Nat) (st : SwpStep) (rest : List (Nat × SwpStep)),
    s.hb[n].portion = some p →
    p.steps = (i, st) :: rest →
    stepOp st = 5 →
    windowFor s p = true →
    frameBegun s n.val (stepWedge st) = false →
    ∃ t, exec (.waitWedge n) s = .next t ∧
      t = modPortion s n (fun q => { q with waiting := true })) ∧
  (∀ (s : State) (n : Head) (p : Portion) (i : Nat) (st : SwpStep) (rest : List (Nat × SwpStep)),
    s.hb[n].portion = some p →
    p.steps = (i, st) :: rest →
    stepOp st = 5 →
    windowFor s p = true →
    frameBegun s n.val (stepWedge st) = true →
    ∃ t, exec (.waitWedge n) s = .next t ∧
      t = fifoPush (modPortion s n (fun q => { q with steps := rest, waiting := false, passed := 0 })) 9 (stepRecord 5 n.val 0 i 0 st.w3 s.chipTime p.ref.id 0 0)) ∧
  (∀ (s : State) (n : Head) (p : Portion) (i : Nat) (st : SwpStep) (rest : List (Nat × SwpStep)),
    s.hb[n].portion = some p →
    p.steps = (i, st) :: rest →
    stepOp st = 5 →
    windowFor s p = true →
    p.waiting = true →
    ∃ t, exec (.waitWedgeReached n) s = .next t ∧
      t = fifoPush (modPortion s n (fun q => { q with steps := rest, waiting := false, passed := 0 })) 9 (stepRecord 5 n.val 0 i 0 st.w3 s.chipTime p.ref.id 0 0)) ∧
  (∀ (s : State) (n : Head) (p : Portion) (i : Nat) (st : SwpStep) (rest : List (Nat × SwpStep)),
    s.hb[n].portion = some p →
    p.steps = (i, st) :: rest →
    stepOp st = 12 →
    st.w0.getLsbD 27 = true →
    ∃ t, exec (.mark n) s = .next t ∧
      t = fifoPush (modPortion (fset s fldSWP_STAT_MARK) n (fun q => { q with steps := rest, waiting := false, passed := 0 })) 9 (stepRecord 12 n.val 0 i 0 st.w3 s.chipTime p.ref.id 0 (bitsOf st.w0.toNat 15 0)))

/-- R316, R324, R326, R327 and R336: in its window a data step whose slots can be armed leaves the portion and stays open for its
slots. READ_TILE, VERIFY_TILE and AUDIT_TILE open a tile of their kind in the buffer that BUF names, and arm 36 slots, nine on
each of the head's four channels; WRITE_TILE arms nine write slots of one track, OBLITERATE nine for each of its tiles, in the
head's write cell; CAL_SLOT holds the head. A data step that what held at the opening rules out, or that comes late, ends with
its shortfall in the step record. Where a rule leaves a point open, the model's own choice stands (log 30, 51). -/
def Obligations.SweepDataSteps : Prop :=
  (∀ (s : State) (n : Head) (p : Portion) (i : Nat) (st : SwpStep) (rest : List (Nat × SwpStep)),
    s.hb[n].portion = some p →
    p.steps = (i, st) :: rest →
    stepOp st = 6 →
    windowFor s p = true →
    dataShort s n st = 0 →
    stepSpan st = none →
    ([0, 1, 2, 3] : List (Fin 4)).all (fun sp => s.ch[headChan n sp].sync == .idle && s.ch[headChan n sp].queue.isEmpty) = true →
    ∃ t, exec (.readTile n) s = .next t ∧
      t.tiles = s.tiles ++ [⟨s.tileCtr, n.val, st.w1, .read, readBuf s (stepBuf st), i, st.w3, none, [], .filling, [], false, false, false, 0, 0, 0, 0⟩] ∧
      t.tileCtr = s.tileCtr + 1 ∧
      fget t fldTC_STAT_OPEN = (s.tiles.length + 1) % 64 ∧
      t.hb[n].portion = some { p with steps := rest, waiting := false, passed := 0 } ∧
      t.hb[n].openSteps = s.hb[n].openSteps ++ [⟨p.ref, i, st, 36⟩] ∧
      ([0, 1, 2, 3] : List (Fin 4)).all (fun sp => t.ch[headChan n sp].sync == .wait1 && t.ch[headChan n sp].queue.length == 8) = true ∧
      regsBut s t [regTC_STAT] ∧
      changesOnly [.regs, .tiles, .tileCtr, .hb, .ch, .packetCtr] s t) ∧
  (∀ (s : State) (n : Head) (p : Portion) (i : Nat) (st : SwpStep) (rest : List (Nat × SwpStep)),
    s.hb[n].portion = some p →
    p.steps = (i, st) :: rest →
    stepOp st = 7 →
    windowFor s p = true →
    dataShort s n st = 0 →
    stepSpan st = none →
    ([0, 1, 2, 3] : List (Fin 4)).all (fun sp => s.ch[headChan n sp].sync == .idle && s.ch[headChan n sp].queue.isEmpty) = true →
    ∃ t, exec (.verifyTile n) s = .next t ∧
      t.tiles = s.tiles ++ [⟨s.tileCtr, n.val, st.w1, .verify, readBuf s (stepBuf st), i, st.w3, none, [], .filling, [], false, false, false, 0, 0, 0, 0⟩] ∧
      t.tileCtr = s.tileCtr + 1 ∧
      fget t fldTC_STAT_OPEN = (s.tiles.length + 1) % 64 ∧
      t.hb[n].portion = some { p with steps := rest, waiting := false, passed := 0 } ∧
      t.hb[n].openSteps = s.hb[n].openSteps ++ [⟨p.ref, i, st, 36⟩] ∧
      ([0, 1, 2, 3] : List (Fin 4)).all (fun sp => t.ch[headChan n sp].sync == .wait1 && t.ch[headChan n sp].queue.length == 8) = true ∧
      regsBut s t [regTC_STAT] ∧
      changesOnly [.regs, .tiles, .tileCtr, .hb, .ch, .packetCtr] s t) ∧
  (∀ (s : State) (n : Head) (p : Portion) (i : Nat) (st : SwpStep) (rest : List (Nat × SwpStep)),
    s.hb[n].portion = some p →
    p.steps = (i, st) :: rest →
    stepOp st = 8 →
    windowFor s p = true →
    dataShort s n st = 0 →
    stepSpan st = none →
    ([0, 1, 2, 3] : List (Fin 4)).all (fun sp => s.ch[headChan n sp].sync == .idle && s.ch[headChan n sp].queue.isEmpty) = true →
    ∃ t, exec (.auditTile n) s = .next t ∧
      t.tiles = s.tiles ++ [⟨s.tileCtr, n.val, st.w1, .audit, readBuf s (stepBuf st), i, st.w3, none, [], .filling, [], false, false, false, 0, 0, 0, 0⟩] ∧
      t.tileCtr = s.tileCtr + 1 ∧
      fget t fldTC_STAT_OPEN = (s.tiles.length + 1) % 64 ∧
      t.hb[n].portion = some { p with steps := rest, waiting := false, passed := 0 } ∧
      t.hb[n].openSteps = s.hb[n].openSteps ++ [⟨p.ref, i, st, 36⟩] ∧
      ([0, 1, 2, 3] : List (Fin 4)).all (fun sp => t.ch[headChan n sp].sync == .wait1 && t.ch[headChan n sp].queue.length == 8) = true ∧
      regsBut s t [regTC_STAT] ∧
      changesOnly [.regs, .tiles, .tileCtr, .hb, .ch, .packetCtr] s t) ∧
  (∀ (s : State) (n : Head) (p : Portion) (i : Nat) (st : SwpStep) (rest : List (Nat × SwpStep)),
    s.hb[n].portion = some p →
    p.steps = (i, st) :: rest →
    stepOp st = 9 →
    windowFor s p = true →
    dataShort s n st = 0 →
    s.wc[n].slots = [] →
    ∃ t, exec (.writeTile n) s = .next t ∧
      t.hb[n].portion = some { p with steps := rest, waiting := false, passed := 0 } ∧
      t.hb[n].openSteps = s.hb[n].openSteps ++ [⟨p.ref, i, st, 9⟩] ∧
      t.wc[n].slots.length = 9 ∧
      t.wc[n].slots.all (fun q => q.step == i && q.phase == .armed && !q.oblit && q.sector % 4 == stepTrack st && q.base == writeBuf s (stepBuf st) && q.pta == BitVec.ofNat 32 (ptaAdvance st.w1.toNat 0) && q.wseq == st.w2) = true ∧
      ((List.range 9).all (fun a => t.wc[n].slots.any (fun q => q.arc == a && q.sector == 4 * a + stepTrack st && q.stype == (if a = 8 then 1 else stepStype st))) = true) ∧
      changesOnly [.hb, .wc] s t) ∧
  (∀ (s : State) (n : Head) (p : Portion) (i : Nat) (st : SwpStep) (rest : List (Nat × SwpStep)),
    s.hb[n].portion = some p →
    p.steps = (i, st) :: rest →
    stepOp st = 10 →
    windowFor s p = true →
    dataShort s n st = 0 →
    s.wc[n].slots = [] →
    ∃ t, exec (.obliterate n) s = .next t ∧
      t.hb[n].portion = some { p with steps := rest, waiting := false, passed := 0 } ∧
      t.hb[n].openSteps.length = s.hb[n].openSteps.length + 1 ∧
      t.wc[n].slots.length = 9 * (bitsOf st.w0.toNat 4 0 + 1) ∧
      t.wc[n].slots.all (fun q => q.step == i && q.phase == .armed && q.oblit && q.sector % 4 == stepTrack st) = true ∧
      changesOnly [.hb, .wc] s t) ∧
  (∀ (s : State) (n : Head) (p : Portion) (i : Nat) (st : SwpStep) (rest : List (Nat × SwpStep)),
    s.hb[n].portion = some p →
    p.steps = (i, st) :: rest →
    stepOp st = 6 →
    windowFor s p = true →
    dataShort s n st ≠ 0 →
    stepSpan st = none →
    s.shortHeads.contains (p.ref.seq, n.val) = false →
    ∃ t, exec (.readTile n) s = .next t ∧
      t = fifoPush ({ modPortion s n (fun q => { q with steps := rest, waiting := false, passed := 0 }) with shortHeads := (p.ref.seq, n.val) :: s.shortHeads }) 9 (stepRecord 6 n.val (dataShort s n st) i st.w1 st.w3 s.chipTime p.ref.id 0 0)) ∧
  (∀ (s : State) (n : Head) (p : Portion) (i : Nat) (st : SwpStep) (rest : List (Nat × SwpStep)),
    s.hb[n].portion = some p →
    p.steps = (i, st) :: rest →
    stepOp st = 9 →
    windowFor s p = true →
    dataShort s n st ≠ 0 →
    stepSpan st = none →
    s.shortHeads.contains (p.ref.seq, n.val) = false →
    ∃ t, exec (.writeTile n) s = .next t ∧
      t = fifoPush ({ modPortion s n (fun q => { q with steps := rest, waiting := false, passed := 0 }) with shortHeads := (p.ref.seq, n.val) :: s.shortHeads }) 9 (stepRecord 9 n.val (dataShort s n st) i st.w1 st.w3 s.chipTime p.ref.id 0 0)) ∧
  (∀ (s : State) (n : Head) (p : Portion) (i : Nat) (st : SwpStep) (rest : List (Nat × SwpStep)),
    s.hb[n].portion = some p →
    p.steps = (i, st) :: rest →
    stepOp st = 11 →
    windowFor s p = true →
    frameBegun s n.val (stepWedge st) = false →
    ∃ t, exec (.calSlot n) s = .next t ∧
      t.hb[n].portion = some { p with steps := rest, waiting := false, passed := 0 } ∧
      t.hb[n].openSteps = s.hb[n].openSteps ++ [⟨p.ref, i, st, 1⟩] ∧
      changesOnly [.hb] s t)

/-- R338, R340, R341, R536 and R596: a record that finds its ring with a free place and no staged or waiting record is written
there, counted and noticed; a full ring makes the producer wait, but the fault ring drops the record and sets OVERFLOW; a ring
write that a bus error ends keeps its record on chip while the stage has room. A read of FIFO_POP by the consumer takes the
oldest record into FIFO_REC0 to FIFO_REC7 and returns VALID with its number; an empty ring returns 0, another agent gets 0 and
DENIED. The configuration registers take a write only while the ring is empty. Where a rule leaves a point open, the model's
own choice stands (log 13). -/
def Obligations.ControlFifosKeepTheirRecords : Prop :=
  (∀ (s u : State) (f : FifoId) (record : BitVec 256),
    fifoCount s f < fifoSize s f →
    s.fifo[f].waiting = [] →
    s.fifo[f].stage = [] →
    memWrite s 4 (fifoPlace s f s.fifo[f].wk) (recordBytes record) = some u →
    ∃ t, exec (.fifoRecordPush f record) s = .next t ∧
      fget t (fldFIFO_STAT_COUNT f) = fget s (fldFIFO_STAT_COUNT f) + 1 ∧
      fget t (fldFIFO_STAT_NOTICE f) = 1 ∧
      t.fifo[f].wk = s.fifo[f].wk + 1 ∧
      t.fifo[f].stage = [] ∧
      t.fifo[f].waiting = [] ∧
      t.mem = u.mem ∧
      regsBut u t [regFIFO_STAT f] ∧
      changesOnly [.regs, .fifo] u t) ∧
  (∀ (s : State) (f : FifoId) (record : BitVec 256),
    fifoSize s f ≤ fifoCount s f →
    f.val < 10 →
    ∃ t, exec (.fifoRecordPush f record) s = .next t ∧
      t.fifo[f].waiting = s.fifo[f].waiting ++ [record] ∧
      fget t (fldFIFO_STAT_WAITED f) = 1 ∧
      fget t fldSWP_STAT_RING_WAIT = 1 ∧
      regsBut s t [regFIFO_STAT f, regSWP_STAT] ∧
      changesOnly [.regs, .fifo] s t) ∧
  (∀ (s : State) (record : BitVec 256),
    fifoSize s 13 ≤ fifoCount s 13 →
    ∃ t, exec (.fifoRecordPush 13 record) s = .next t ∧
      fget t fldSQ_STAT_OVERFLOW = 1 ∧
      regsBut s t [regSQ_STAT] ∧
      changesOnly [.regs] s t) ∧
  (∀ (s : State) (f : FifoId) (record : BitVec 256),
    s.fifo[f].stage.length < fifoDepth f →
    fget s (fldFIFO_STAT_COUNT f) < 2 ^ 16 →
    ∃ t, exec (.ringWriteError f record) s = .next t ∧
      t.fifo[f].stage = s.fifo[f].stage ++ [record] ∧
      t.fifo[f].wk = s.fifo[f].wk + 1 ∧
      fget t (fldFIFO_STAT_COUNT f) = fget s (fldFIFO_STAT_COUNT f) + 1 ∧
      fget t (fldFIFO_STAT_RING_ERR f) = 1 ∧
      regsBut s t [regFIFO_STAT f] ∧
      changesOnly [.regs, .fifo] s t) ∧
  (∀ (s : State) (f : FifoId) (record : BitVec 256),
    fifoDepth f ≤ s.fifo[f].stage.length →
    f.val < 10 →
    ∃ t, exec (.ringWriteError f record) s = .next t ∧
      t.fifo[f].waiting = s.fifo[f].waiting ++ [record] ∧
      fget t (fldFIFO_STAT_RING_ERR f) = 1 ∧
      fget t (fldFIFO_STAT_WAITED f) = 1 ∧
      regsBut s t [regFIFO_STAT f, regSWP_STAT] ∧
      changesOnly [.regs, .fifo] s t) ∧
  (∀ (s : State) (agent : Agent) (f : FifoId) (r : BitVec 256) (rest : List (BitVec 256)),
    absentAt s.variant (fifoBase f) = false →
    fget s (fldFIFO_CFG_CONSUMER f) = agent.id →
    s.fifo[f].stage = r :: rest →
    fifoHeadStaged s.fifo[f] = true →
    0 < fifoCount s f →
    s.fifo[f].waiting = [] →
    ∃ t, exec (.fifoPop agent f) s = .next t ∧
      (List.range 8).all (fun i => rd t (regFIFO_REC f i) == BitVec.ofNat 32 (r.toNat / 2 ^ (224 - 32 * i))) = true ∧
      t.fifo[f].stage = rest ∧
      t.fifo[f].rk = s.fifo[f].rk + 1 ∧
      fget t (fldFIFO_STAT_COUNT f) = fget s (fldFIFO_STAT_COUNT f) - 1 ∧
      t.lastReply.status = .ok ∧
      t.lastReply.value = 2 ^ 31 + s.fifo[f].rk % 2 ^ 24 ∧
      regsBut s t (regFIFO_STAT f :: (List.range 8).map (regFIFO_REC f)) ∧
      changesOnly [.regs, .fifo, .lastReply] s t) ∧
  (∀ (s : State) (agent : Agent) (f : FifoId) (bs : List Byte),
    absentAt s.variant (fifoBase f) = false →
    fget s (fldFIFO_CFG_CONSUMER f) = agent.id →
    fifoHeadStaged s.fifo[f] = false →
    memRead s 4 (fifoPlace s f s.fifo[f].rk) 32 = (s, some (bs, false)) →
    0 < fifoCount s f →
    s.fifo[f].waiting = [] →
    ∃ t, exec (.fifoPop agent f) s = .next t ∧
      (List.range 8).all (fun i => rd t (regFIFO_REC f i) == recordWord (bytesRecord bs) i) = true ∧
      t.fifo[f].rk = s.fifo[f].rk + 1 ∧
      fget t (fldFIFO_STAT_COUNT f) = fget s (fldFIFO_STAT_COUNT f) - 1 ∧
      t.lastReply.value = 2 ^ 31 + s.fifo[f].rk % 2 ^ 24 ∧
      regsBut s t (regFIFO_STAT f :: (List.range 8).map (regFIFO_REC f)) ∧
      changesOnly [.regs, .fifo, .lastReply] s t) ∧
  (∀ (s : State) (agent : Agent) (f : FifoId),
    absentAt s.variant (fifoBase f) = false →
    fget s (fldFIFO_CFG_CONSUMER f) ≠ agent.id →
    ∃ t, exec (.fifoPop agent f) s = .next t ∧
      fget t (fldFIFO_STAT_DENIED f) = 1 ∧
      t.lastReply.value = 0 ∧
      regsBut s t [regFIFO_STAT f] ∧
      changesOnly [.regs, .lastReply] s t) ∧
  (∀ (s : State) (agent : Agent) (f : FifoId),
    fget s (fldFIFO_CFG_CONSUMER f) = agent.id →
    fifoCount s f = 0 →
    ∃ t, exec (.fifoPop agent f) s = .next t ∧
      t.lastReply.value = 0 ∧
      changesOnly [.lastReply] s t) ∧
  (∀ (s : State) (agent : Agent) (f : FifoId) (reg : FifoReg) (value : Word),
    absentAt s.variant (fifoRegAddr f reg) = false →
    fifoCount s f = 0 →
    ∃ t, exec (.fifoConfigWrite agent f reg value) s = .next t ∧
      rd t (fifoRegAddr f reg) = BitVec.ofNat 32 (fifoRegValue reg value.toNat) ∧
      regsBut s t [fifoRegAddr f reg] ∧
      changesOnly [.regs, .lastReply] s t) ∧
  (∀ (s : State) (agent : Agent) (f : FifoId) (reg : FifoReg) (value : Word),
    absentAt s.variant (fifoRegAddr f reg) = false →
    fifoCount s f ≠ 0 →
    ∃ t, exec (.fifoConfigWrite agent f reg value) s = .next t ∧
      fget t (fldFIFO_STAT_DENIED f) = 1 ∧
      regsBut s t [regFIFO_STAT f] ∧
      changesOnly [.regs, .lastReply] s t)

/-- R345, R351 and R352: each arithmetic and logical DX64 instruction that a core issues writes its result to rd, goes on at the
next word and retires; nothing else in the machine changes. A write of x0 is discarded. Shift amounts are six bits; a division
by zero gives all ones and a remainder by zero the dividend; LUI and AUIPC shift IMM20 by 12. RDTIME reads chip time, and
FENCE, in a core that issues in order, only retires. Where a rule leaves a point open, the model's own choice stands (log 37). -/
def Obligations.CoreComputes : Prop :=
  computes .add 0x01 (fun c w => rs1 c w + rs2 c w) ∧
 computes .sub 0x02 (fun c w => rs1 c w - rs2 c w) ∧
 computes .and 0x03 (fun c w => rs1 c w &&& rs2 c w) ∧
 computes .or 0x04 (fun c w => rs1 c w ||| rs2 c w) ∧
 computes .xor 0x05 (fun c w => rs1 c w ^^^ rs2 c w) ∧
 computes .sll 0x06 (fun c w => rs1 c w <<< ((rs2 c w).toNat % 64)) ∧
 computes .srl 0x07 (fun c w => rs1 c w >>> ((rs2 c w).toNat % 64)) ∧
 computes .sra 0x08 (fun c w => (rs1 c w).sshiftRight ((rs2 c w).toNat % 64)) ∧
 computes .slt 0x09 (fun c w => if (rs1 c w).toInt < (rs2 c w).toInt then 1 else 0) ∧
 computes .sltu 0x0A (fun c w => if (rs1 c w).toNat < (rs2 c w).toNat then 1 else 0) ∧
 computes .mul 0x0B (fun c w => BitVec.ofInt 64 ((rs1 c w).toInt * (rs2 c w).toInt)) ∧
 computes .mulh 0x0C (fun c w => BitVec.ofInt 64 ((rs1 c w).toInt * (rs2 c w).toInt / 2 ^ 64)) ∧
 computes .mulhu 0x0D (fun c w => BitVec.ofNat 64 ((rs1 c w).toNat * (rs2 c w).toNat / 2 ^ 64)) ∧
 computes .div 0x0E (fun c w => if rs2 c w = 0 then BitVec.allOnes 64 else BitVec.ofInt 64 ((rs1 c w).toInt.tdiv (rs2 c w).toInt)) ∧
 computes .divu 0x0F (fun c w => if rs2 c w = 0 then BitVec.allOnes 64 else BitVec.ofNat 64 ((rs1 c w).toNat / (rs2 c w).toNat)) ∧
 computes .rem 0x10 (fun c w => if rs2 c w = 0 then rs1 c w else BitVec.ofInt 64 ((rs1 c w).toInt.tmod (rs2 c w).toInt)) ∧
 computes .remu 0x11 (fun c w => if rs2 c w = 0 then rs1 c w else BitVec.ofNat 64 ((rs1 c w).toNat % (rs2 c w).toNat)) ∧
 computes .addw 0x12 (fun c w => ((rs1 c w + rs2 c w).setWidth 32).signExtend 64) ∧
 computes .clz 0x13 (fun c w => BitVec.ofNat 64 (if rs1 c w = 0 then 64 else 63 - Nat.log2 (rs1 c w).toNat)) ∧
 computes .addi 0x18 (fun c w => rs1 c w + dxImm15 w) ∧
 computes .andi 0x19 (fun c w => rs1 c w &&& dxImm15 w) ∧
 computes .ori 0x1A (fun c w => rs1 c w ||| dxImm15 w) ∧
 computes .xori 0x1B (fun c w => rs1 c w ^^^ dxImm15 w) ∧
 computes .slli 0x1C (fun c w => rs1 c w <<< (w.toNat % 64)) ∧
 computes .srli 0x1D (fun c w => rs1 c w >>> (w.toNat % 64)) ∧
 computes .srai 0x1E (fun c w => (rs1 c w).sshiftRight (w.toNat % 64)) ∧
 computes .slti 0x1F (fun c w => if (rs1 c w).toInt < (dxImm15 w).toInt then 1 else 0) ∧
 computes .sltiu 0x20 (fun c w => if (rs1 c w).toNat < (dxImm15 w).toNat then 1 else 0) ∧
 computes .addiw 0x21 (fun c w => ((rs1 c w + dxImm15 w).setWidth 32).signExtend 64) ∧
 computes .lui 0x24 (fun _ w => dxImm20 w <<< 12) ∧
 computes .auipc 0x25 (fun c w => c.pc + (dxImm20 w <<< 12)) ∧
 (∀ (s u : State) (p : Fin 4) (w : Word), coreAt s u p w → dxOp w = 0x63 →
   ∃ t, exec (.rdtime p) s = .next t ∧ retires u t p (dxA w) u.chipTime (u.core[p].pc + 4)) ∧
 (∀ (s u : State) (p : Fin 4) (w : Word), coreAt s u p w → dxOp w = 0x49 →
   ∃ t, exec (.fence p) s = .next t ∧ retires u t p 0 0 (u.core[p].pc + 4))

/-- R348 to R350, R352, R357 and R358: a load that its core may make reads normal memory through the core's caches and writes its
bytes, sign- or zero-extended, to rd; LW and LWU also read a register of device space; a store to TCM changes the bytes it
names and no others, and drops reservations of its line; LDAQ and STRL are LD and SD; LR reserves its line, SC stores and
answers 0 while the reservation holds and otherwise answers 1 and stores nothing; the AMO instructions and CAS read and write
one doubleword. A misaligned access enters the handler with its code. Where a rule leaves a point open, the model's own choice
stands (log 37, 79, 80). -/
def Obligations.CoreMemoryAccesses : Prop :=
  loads .lb 0x28 1 (fun v => (BitVec.ofNat 8 v).signExtend 64) ∧
 loads .lbu 0x29 1 (fun v => BitVec.ofNat 64 v) ∧
 loads .lh 0x2A 2 (fun v => (BitVec.ofNat 16 v).signExtend 64) ∧
 loads .lhu 0x2B 2 (fun v => BitVec.ofNat 64 v) ∧
 loads .lw 0x2C 4 (fun v => (BitVec.ofNat 32 v).signExtend 64) ∧
 loads .lwu 0x2D 4 (fun v => BitVec.ofNat 64 v) ∧
 loads .ld 0x2E 8 (fun v => BitVec.ofNat 64 v) ∧
 loads .ldaq 0x40 8 (fun v => BitVec.ofNat 64 v) ∧
 stores .sb 0x30 1 ∧
 stores .sh 0x31 2 ∧
 stores .sw 0x32 4 ∧
 stores .sd 0x33 8 ∧
 stores .strl 0x41 8 ∧
 amos .amoadd 0x44 (fun c w old => some (old + rs2 c w)) ∧
 amos .amoswap 0x45 (fun c w old => some (rs2 c w)) ∧
 amos .amoand 0x46 (fun c w old => some (old &&& rs2 c w)) ∧
 amos .amoor 0x47 (fun c w old => some (old ||| rs2 c w)) ∧
 amos .cas 0x48 (fun c w old => if old = c.get (dxA w) then some (rs2 c w) else none) ∧
 (∀ (s u : State) (p : Fin 4) (w : Word) (v : State) (x : Nat) (bad : Bool),
     coreAt s u p w →
     dxOp w = 0x2C →
     accessOk u.core[p] 1 (dxAddr u.core[p] w).toNat 4 = true →
     regionOf (dxAddr u.core[p] w).toNat = .device →
     busRead u (.core p) (dxAddr u.core[p] w).toNat 4 = (v, some (x, bad)) →
     ∃ t, exec (.lw p) s = .next t ∧
       t.core = v.core.set p (coreGoes v.core[p] (dxA w) ((BitVec.ofNat 32 x).signExtend 64) (v.core[p].pc + 4)) ∧
       counter t (381 + 3 * p.val) = counter v (381 + 3 * p.val) + 1 ∧
       changesOnly [.core, .counters, .wraps] v t) ∧
 (∀ (s u : State) (p : Fin 4) (w : Word) (v : State) (x : Nat) (bad : Bool),
     coreAt s u p w →
     dxOp w = 0x2D →
     accessOk u.core[p] 1 (dxAddr u.core[p] w).toNat 4 = true →
     regionOf (dxAddr u.core[p] w).toNat = .device →
     busRead u (.core p) (dxAddr u.core[p] w).toNat 4 = (v, some (x, bad)) →
     ∃ t, exec (.lwu p) s = .next t ∧
       t.core = v.core.set p (coreGoes v.core[p] (dxA w) (BitVec.ofNat 64 x) (v.core[p].pc + 4)) ∧
       counter t (381 + 3 * p.val) = counter v (381 + 3 * p.val) + 1 ∧
       changesOnly [.core, .counters, .wraps] v t) ∧
 (∀ (s u : State) (p : Fin 4) (w : Word),
     coreAt s u p w →
     dxOp w = 0x32 →
     accessOk u.core[p] 2 (dxAddr u.core[p] w).toNat 4 = true →
     regionOf (dxAddr u.core[p] w).toNat = .device →
     busWriteFails u (.core p) (dxAddr u.core[p] w).toNat (natLe 4 ((stSrc u.core[p] w).toNat % 2 ^ 32)) = false →
     ∃ t, exec (.sw p) s = .next t ∧
       t = busWrite (retire u p 0 0) (.core p) (dxAddr u.core[p] w).toNat (natLe 4 ((stSrc u.core[p] w).toNat % 2 ^ 32))) ∧
 (∀ (s u : State) (p : Fin 4) (w : Word) (v : State) (old : DWord),
     coreAt s u p w →
     dxOp w = 0x42 →
     atomicCheck u p (rs1 u.core[p] w) excLoadMisaligned = none →
     atomicRead u (rs1 u.core[p] w).toNat = (v, some (old, false)) →
     ∃ t, exec (.lr p) s = .next t ∧
       t.core = v.core.set p { coreGoes v.core[p] (dxA w) old (v.core[p].pc + 4) with resv := some (eccWord (rs1 u.core[p] w).toNat, 0) } ∧
       counter t (381 + 3 * p.val) = counter v (381 + 3 * p.val) + 1 ∧
       changesOnly [.core, .counters, .wraps] v t) ∧
 (∀ (s u : State) (p : Fin 4) (w : Word),
     coreAt s u p w →
     dxOp w = 0x43 →
     atomicCheck u p (rs1 u.core[p] w) excStoreMisaligned = none →
     regionOf (rs1 u.core[p] w).toNat = .tcm →
     (u.core[p].resv.map (·.1)) = some (eccWord (rs1 u.core[p] w).toNat) →
     ∃ t, exec (.sc p) s = .next t ∧
       t.mem = Memory.writeBytes u.mem (rs1 u.core[p] w).toNat (natLe 8 (rs2 u.core[p] w).toNat) ∧
       t.core[p] = coreGoes u.core[p] (dxA w) 0 (u.core[p].pc + 4) ∧
       changesOnly [.mem, .tcmErr, .core, .counters, .wraps] u t) ∧
 (∀ (s u : State) (p : Fin 4) (w : Word),
     coreAt s u p w →
     dxOp w = 0x43 →
     atomicCheck u p (rs1 u.core[p] w) excStoreMisaligned = none →
     (u.core[p].resv.map (·.1)) ≠ some (eccWord (rs1 u.core[p] w).toNat) →
     ∃ t, exec (.sc p) s = .next t ∧
       t.core = u.core.set p (coreGoes u.core[p] (dxA w) (1) (u.core[p].pc + 4)) ∧
       counter t (381 + 3 * p.val) = counter u (381 + 3 * p.val) + 1 ∧
       changesOnly [.core, .counters, .wraps] u t) ∧
 (∀ (s u : State) (p : Fin 4) (w : Word),
     coreAt s u p w →
     dxOp w = 0x2E →
     accessOk u.core[p] 1 (dxAddr u.core[p] w).toNat 8 = true →
     alignedSpace (dxAddr u.core[p] w).toNat = true →
     (dxAddr u.core[p] w).toNat % 8 ≠ 0 →
     stEXL u.core[p] = false →
     ∃ t, exec (.ld p) s = .next t ∧
       t.core = u.core.set p { u.core[p] with epc := u.core[p].pc, cause := 6, tval := dxAddr u.core[p] w, status := statusEnter u.core[p], pc := tvecBase u.core[p], resv := none, wait := none } ∧
       changesOnly [.core] u t)

/-- R351, R352, R354 and R355: a branch goes to its own address + 4 × OFF15 where its condition on the two registers holds, else
to the next word; JAL and JALR write the next address to rd and jump, and a JALR target that is no multiple of 4 raises
INSTR_MISALIGNED; CSRR, CSRW, CSRS and CSRC answer the old value in rd, and the writes leave the CSR with the value written,
its set bits or its cleared bits, reserved bits as 0. Where a rule leaves a point open, the model's own choice stands (log 37,
79, 81). -/
def Obligations.CoreBranchesAndRegisters : Prop :=
  branches .beq 0x38 (fun a b => a == b) ∧
 branches .bne 0x39 (fun a b => a != b) ∧
 branches .blt 0x3A (fun a b => decide (a.toInt < b.toInt)) ∧
 branches .bge 0x3B (fun a b => decide (b.toInt ≤ a.toInt)) ∧
 branches .bltu 0x3C (fun a b => decide (a.toNat < b.toNat)) ∧
 branches .bgeu 0x3D (fun a b => decide (b.toNat ≤ a.toNat)) ∧
 (∀ (s u : State) (p : Fin 4) (w : Word),
     coreAt s u p w →
     dxOp w = 0x3E →
     ∃ t, exec (.jal p) s = .next t ∧
       t.core = u.core.set p (coreGoes u.core[p] (dxA w) (u.core[p].pc + 4) (u.core[p].pc + 4 * dxImm20 w)) ∧
       counter t (381 + 3 * p.val) = counter u (381 + 3 * p.val) + 1 ∧
       changesOnly [.core, .counters, .wraps] u t) ∧
 (∀ (s u : State) (p : Fin 4) (w : Word),
     coreAt s u p w →
     dxOp w = 0x3F →
     (dxAddr u.core[p] w).toNat % 4 = 0 →
     ∃ t, exec (.jalr p) s = .next t ∧
       t.core = u.core.set p (coreGoes u.core[p] (dxA w) (u.core[p].pc + 4) (dxAddr u.core[p] w)) ∧
       counter t (381 + 3 * p.val) = counter u (381 + 3 * p.val) + 1 ∧
       changesOnly [.core, .counters, .wraps] u t) ∧
 (∀ (s u : State) (p : Fin 4) (w : Word),
     coreAt s u p w →
     dxOp w = 0x3F →
     (dxAddr u.core[p] w).toNat % 4 ≠ 0 →
     stEXL u.core[p] = false →
     ∃ t, exec (.jalr p) s = .next t ∧
       t.core = u.core.set p { u.core[p] with epc := u.core[p].pc, cause := 0, tval := dxAddr u.core[p] w, status := statusEnter u.core[p], pc := tvecBase u.core[p], resv := none, wait := none } ∧
       changesOnly [.core] u t) ∧
 (∀ (s u : State) (p : Fin 4) (w : Word),
     coreAt s u p w →
     dxOp w = 0x53 →
     ∃ t, exec (.csrr p) s = .next t ∧
       (t.core[p].get (dxA w) = (if dxA w = 0 then 0 else csrRead u p (bitsOf w.toNat 11 0))) ∧
       t.core[p].pc = u.core[p].pc + 4 ∧
       t.core = u.core.set p (coreGoes u.core[p] (dxA w) (csrRead u p (bitsOf w.toNat 11 0)) (u.core[p].pc + 4)) ∧
       changesOnly [.core, .counters, .wraps] u t) ∧
 (∀ (s u : State) (p : Fin 4) (w : Word),
     coreAt s u p w →
     dxOp w = 0x54 →
     bitsOf w.toNat 11 0 = 0x00 →
     ∃ t, exec (.csrw p) s = .next t ∧
       (t.core[p].get (dxA w) = (if dxA w = 0 then 0 else csrRead u p (bitsOf w.toNat 11 0))) ∧
       t.core[p].pc = u.core[p].pc + 4 ∧
       t.core = u.core.set p { coreGoes u.core[p] (dxA w) (csrRead u p 0x00) (u.core[p].pc + 4) with status := (rs1 u.core[p] w) &&& 0x3F } ∧
       changesOnly [.core, .counters, .wraps] u t) ∧
 (∀ (s u : State) (p : Fin 4) (w : Word),
     coreAt s u p w →
     dxOp w = 0x54 →
     bitsOf w.toNat 11 0 = 0x01 →
     ∃ t, exec (.csrw p) s = .next t ∧
       (t.core[p].get (dxA w) = (if dxA w = 0 then 0 else csrRead u p (bitsOf w.toNat 11 0))) ∧
       t.core[p].pc = u.core[p].pc + 4 ∧
       t.core = u.core.set p { coreGoes u.core[p] (dxA w) (csrRead u p 0x01) (u.core[p].pc + 4) with tvec := (rs1 u.core[p] w) &&& 0xFFFFFFFFFFFFFF01 } ∧
       changesOnly [.core, .counters, .wraps] u t) ∧
 (∀ (s u : State) (p : Fin 4) (w : Word),
     coreAt s u p w →
     dxOp w = 0x54 →
     bitsOf w.toNat 11 0 = 0x02 →
     ∃ t, exec (.csrw p) s = .next t ∧
       (t.core[p].get (dxA w) = (if dxA w = 0 then 0 else csrRead u p (bitsOf w.toNat 11 0))) ∧
       t.core[p].pc = u.core[p].pc + 4 ∧
       t.core = u.core.set p { coreGoes u.core[p] (dxA w) (csrRead u p 0x02) (u.core[p].pc + 4) with epc := (rs1 u.core[p] w)  } ∧
       changesOnly [.core, .counters, .wraps] u t) ∧
 (∀ (s u : State) (p : Fin 4) (w : Word),
     coreAt s u p w →
     dxOp w = 0x54 →
     bitsOf w.toNat 11 0 = 0x05 →
     ∃ t, exec (.csrw p) s = .next t ∧
       (t.core[p].get (dxA w) = (if dxA w = 0 then 0 else csrRead u p (bitsOf w.toNat 11 0))) ∧
       t.core[p].pc = u.core[p].pc + 4 ∧
       t.core = u.core.set p { coreGoes u.core[p] (dxA w) (csrRead u p 0x05) (u.core[p].pc + 4) with scratch := (rs1 u.core[p] w)  } ∧
       changesOnly [.core, .counters, .wraps] u t) ∧
 (∀ (s u : State) (p : Fin 4) (w : Word),
     coreAt s u p w →
     dxOp w = 0x54 →
     bitsOf w.toNat 11 0 = 0x06 →
     ∃ t, exec (.csrw p) s = .next t ∧
       (t.core[p].get (dxA w) = (if dxA w = 0 then 0 else csrRead u p (bitsOf w.toNat 11 0))) ∧
       t.core[p].pc = u.core[p].pc + 4 ∧
       t.core = u.core.set p { coreGoes u.core[p] (dxA w) (csrRead u p 0x06) (u.core[p].pc + 4) with ie := (rs1 u.core[p] w) &&& ieMask u.variant } ∧
       changesOnly [.core, .counters, .wraps] u t) ∧
 (∀ (s u : State) (p : Fin 4) (w : Word),
     coreAt s u p w →
     dxOp w = 0x54 →
     bitsOf w.toNat 11 0 = 0x09 →
     ∃ t, exec (.csrw p) s = .next t ∧
       (t.core[p].get (dxA w) = (if dxA w = 0 then 0 else csrRead u p (bitsOf w.toNat 11 0))) ∧
       t.core[p].pc = u.core[p].pc + 4 ∧
       t.core = u.core.set p { coreGoes u.core[p] (dxA w) (csrRead u p 0x09) (u.core[p].pc + 4) with timecmp := (rs1 u.core[p] w)  } ∧
       changesOnly [.core, .counters, .wraps] u t) ∧
 (∀ (s u : State) (p : Fin 4) (w : Word),
     coreAt s u p w →
     dxOp w = 0x55 →
     bitsOf w.toNat 11 0 = 0x00 →
     ∃ t, exec (.csrs p) s = .next t ∧
       (t.core[p].get (dxA w) = (if dxA w = 0 then 0 else csrRead u p (bitsOf w.toNat 11 0))) ∧
       t.core[p].pc = u.core[p].pc + 4 ∧
       t.core = u.core.set p { coreGoes u.core[p] (dxA w) (csrRead u p 0x00) (u.core[p].pc + 4) with status := (u.core[p].status ||| (rs1 u.core[p] w)) &&& 0x3F } ∧
       changesOnly [.core, .counters, .wraps] u t) ∧
 (∀ (s u : State) (p : Fin 4) (w : Word),
     coreAt s u p w →
     dxOp w = 0x55 →
     bitsOf w.toNat 11 0 = 0x05 →
     ∃ t, exec (.csrs p) s = .next t ∧
       (t.core[p].get (dxA w) = (if dxA w = 0 then 0 else csrRead u p (bitsOf w.toNat 11 0))) ∧
       t.core[p].pc = u.core[p].pc + 4 ∧
       t.core = u.core.set p { coreGoes u.core[p] (dxA w) (csrRead u p 0x05) (u.core[p].pc + 4) with scratch := (u.core[p].scratch ||| (rs1 u.core[p] w))  } ∧
       changesOnly [.core, .counters, .wraps] u t) ∧
 (∀ (s u : State) (p : Fin 4) (w : Word),
     coreAt s u p w →
     dxOp w = 0x55 →
     bitsOf w.toNat 11 0 = 0x06 →
     ∃ t, exec (.csrs p) s = .next t ∧
       (t.core[p].get (dxA w) = (if dxA w = 0 then 0 else csrRead u p (bitsOf w.toNat 11 0))) ∧
       t.core[p].pc = u.core[p].pc + 4 ∧
       t.core = u.core.set p { coreGoes u.core[p] (dxA w) (csrRead u p 0x06) (u.core[p].pc + 4) with ie := (u.core[p].ie ||| (rs1 u.core[p] w)) &&& ieMask u.variant } ∧
       changesOnly [.core, .counters, .wraps] u t) ∧
 (∀ (s u : State) (p : Fin 4) (w : Word),
     coreAt s u p w →
     dxOp w = 0x56 →
     bitsOf w.toNat 11 0 = 0x00 →
     ∃ t, exec (.csrc p) s = .next t ∧
       (t.core[p].get (dxA w) = (if dxA w = 0 then 0 else csrRead u p (bitsOf w.toNat 11 0))) ∧
       t.core[p].pc = u.core[p].pc + 4 ∧
       t.core = u.core.set p { coreGoes u.core[p] (dxA w) (csrRead u p 0x00) (u.core[p].pc + 4) with status := (u.core[p].status &&& ~~~(rs1 u.core[p] w)) &&& 0x3F } ∧
       changesOnly [.core, .counters, .wraps] u t) ∧
 (∀ (s u : State) (p : Fin 4) (w : Word),
     coreAt s u p w →
     dxOp w = 0x56 →
     bitsOf w.toNat 11 0 = 0x05 →
     ∃ t, exec (.csrc p) s = .next t ∧
       (t.core[p].get (dxA w) = (if dxA w = 0 then 0 else csrRead u p (bitsOf w.toNat 11 0))) ∧
       t.core[p].pc = u.core[p].pc + 4 ∧
       t.core = u.core.set p { coreGoes u.core[p] (dxA w) (csrRead u p 0x05) (u.core[p].pc + 4) with scratch := (u.core[p].scratch &&& ~~~(rs1 u.core[p] w))  } ∧
       changesOnly [.core, .counters, .wraps] u t) ∧
 (∀ (s u : State) (p : Fin 4) (w : Word),
     coreAt s u p w →
     dxOp w = 0x56 →
     bitsOf w.toNat 11 0 = 0x06 →
     ∃ t, exec (.csrc p) s = .next t ∧
       (t.core[p].get (dxA w) = (if dxA w = 0 then 0 else csrRead u p (bitsOf w.toNat 11 0))) ∧
       t.core[p].pc = u.core[p].pc + 4 ∧
       t.core = u.core.set p { coreGoes u.core[p] (dxA w) (csrRead u p 0x06) (u.core[p].pc + 4) with ie := (u.core[p].ie &&& ~~~(rs1 u.core[p] w)) &&& ieMask u.variant } ∧
       changesOnly [.core, .counters, .wraps] u t) ∧
 (∀ (s u : State) (p : Fin 4) (w : Word),
     coreAt s u p w →
     dxOp w = 0x54 →
     bitsOf w.toNat 11 0 = 0x08 →
     ∃ t, exec (.csrw p) s = .next t ∧
       (t.core[p].get (dxA w) = (if dxA w = 0 then 0 else csrRead u p (bitsOf w.toNat 11 0))) ∧
       t.core[p].pc = u.core[p].pc + 4 ∧
       t.core[p].dbpend = u.core[p].dbpend &&& ~~~(rs1 u.core[p] w) ∧
       changesOnly [.core, .counters, .wraps] u t)

/-- R354, R355 and R363 to R367: a synchronous exception saves the pc in EPC, its code in CAUSE and its TVAL, saves IE and MODE,
enters supervisor mode with EXL at TVEC base, and drops the reservation: ECALL_USER or ECALL_SUPER, BREAKPOINT, ILLEGAL_INSTR
and PRIVILEGED among them; while EXL is 1 it stops the core instead. SRET restores IE and MODE from the saved bits, clears EXL
and goes to EPC. An interrupt enters for the lowest enabled pending line with bit 63 of CAUSE set, at its vector. A core reset
clears the core and holds it; RUN starts a held core at its start address. A reservation expires; at TIMECMP chip time makes
line 50 pending. Where a rule leaves a point open, the model's own choice stands (log 37, 79, 80). -/
def Obligations.CoreExceptionsAndInterrupts : Prop :=
  (∀ (s u : State) (p : Fin 4) (w : Word),
     coreAt s u p w →
     dxOp w = 0x50 →
     stEXL u.core[p] = false →
     ∃ t, exec (.ecall p) s = .next t ∧
       (t.core = u.core.set p { u.core[p] with epc := u.core[p].pc, cause := (if stMode u.core[p] then 0x0F else 0x0E), tval := 0, status := statusEnter u.core[p], pc := tvecBase u.core[p], resv := none, wait := none }) ∧
       changesOnly [.core] u t) ∧
 (∀ (s u : State) (p : Fin 4) (w : Word),
     coreAt s u p w →
     dxOp w = 0x51 →
     stEXL u.core[p] = false →
     ∃ t, exec (.ebreak p) s = .next t ∧
       t.core = u.core.set p { u.core[p] with epc := u.core[p].pc, cause := 4, tval := u.core[p].pc, status := statusEnter u.core[p], pc := tvecBase u.core[p], resv := none, wait := none } ∧
       changesOnly [.core] u t) ∧
 (∀ (s u : State) (p : Fin 4) (w : Word),
     coreAt s u p w →
     dxOp w = 0x50 →
     stEXL u.core[p] = true →
     ∃ t, exec (.ecall p) s = .next t ∧
       fbitAt t fldPLZ_STAT_RUNNING p.val = false ∧
       fbitAt t fldPLZ_STAT_HALTED p.val = true ∧
       t.core = u.core.set p { u.core[p] with wait := none, resv := none, halted := true } ∧
       changesOnly [.regs, .core, .reports] u t) ∧
 (∀ (s u : State) (p : Fin 4) (w : Word),
     coreAt s u p w →
     dxOp w = 0x52 →
     ∃ t, exec (.sret p) s = .next t ∧
       t.core = u.core.set p { u.core[p] with status := statusWord (stUDEV u.core[p]) false (stPMode u.core[p]) (stPMode u.core[p]) (stPIE u.core[p]) (stPIE u.core[p]), pc := u.core[p].epc, resv := none } ∧
       counter t (381 + 3 * p.val) = counter u (381 + 3 * p.val) + 1 ∧
       changesOnly [.core, .counters, .wraps] u t) ∧
 (∀ (s u : State) (p : Fin 4) (w : Word),
     canIssue s p = true →
     (fetch s p).1 = u →
     okWord (fetch s p).2 = some w →
     dxLegal w = false →
     stEXL s.core[p] = false →
     u.core = s.core →
     ∃ t, exec (.illegalInstr p) s = .next t ∧
       t.core = u.core.set p { u.core[p] with epc := u.core[p].pc, cause := 2, tval := w.setWidth 64, status := statusEnter u.core[p], pc := tvecBase u.core[p], resv := none, wait := none } ∧
       changesOnly [.core] u t) ∧
 (∀ (s u : State) (p : Fin 4) (w : Word),
     canIssue s p = true →
     (fetch s p).1 = u →
     okWord (fetch s p).2 = some w →
     dxLegal w = true →
     dxIllegalUse s.core[p] w = false →
     dxPrivileged s.core[p] (dxOp w) = true →
     dxOp w = 0x53 →
     stEXL s.core[p] = false →
     u.core = s.core →
     ∃ t, exec (.csrr p) s = .next t ∧
       t.core = u.core.set p { u.core[p] with epc := u.core[p].pc, cause := 3, tval := w.setWidth 64, status := statusEnter u.core[p], pc := tvecBase u.core[p], resv := none, wait := none } ∧
       changesOnly [.core] u t) ∧
 (∀ (s : State) (p : Fin 4) (n : Nat),
     fbitAt s fldPLZ_STAT_RUNNING p.val = true →
     inReset s = false →
     stIE s.core[p] = true →
     stEXL s.core[p] = false →
     (pendingIn s s.core[p] s.core[p].ie).head? = some n →
     ∃ t, exec (.interruptEntry p) s = .next t ∧
       (t.core = s.core.set p { s.core[p] with epc := s.core[p].pc, cause := BitVec.ofNat 64 (2 ^ 63 + n), tval := 0, status := statusEnter s.core[p], pc := (if s.core[p].tvec.getLsbD 0 then tvecBase s.core[p] + BitVec.ofNat 64 (0x100 + 4 * n) else tvecBase s.core[p]), resv := none, wait := none }) ∧
       counter t (381 + 3 * p.val + 2) = counter s (381 + 3 * p.val + 2) + 1 ∧
       changesOnly [.core, .counters, .wraps] s t) ∧
 (∀ (s : State) (p : Fin 4),
     ∃ t, exec (.reservationExpire p) s = .next t ∧
       t.core = s.core.set p { s.core[p] with resv := none } ∧
       changesOnly [.core] s t) ∧
 (∀ (s : State) (p : Fin 4),
     ∃ t, exec (.timecmpReached p) s = .next t ∧
       s.core[p].timecmp.toNat ≤ t.chipTime.toNat ∧
       linePending t t.core[p] 50 = true ∧
       changesOnly [.chipTime] s t) ∧
 (∀ (s : State) (agent : Agent) (p : Fin 4),
     ∃ t, exec (.coreResetCmd agent p) s = .next t ∧
       t.core = s.core.set p Core.reset ∧
       fbitAt t fldPLZ_STAT_RUNNING p.val = false ∧
       ((List.range 22).all (fun n => permitOwner t n == (if permitOwner s n = 1 + p.val then 0 else permitOwner s n)) = true) ∧
       changesOnly [.regs, .core, .sq, .lastReply] s t) ∧
 (∀ (s : State) (agent : Agent) (p : Fin 4),
     fbitAt s fldPLZ_STAT_RUNNING p.val = false →
     s.core[p].halted = false →
     inReset s = false →
     ∃ t, exec (.coreRun agent p) s = .next t ∧
       fbitAt t fldPLZ_STAT_RUNNING p.val = true ∧
       t.core = s.core.set p { s.core[p] with pc := BitVec.ofNat 64 (fget s (fldPLZ_START_HI_ADDR p.val) * 2 ^ 32 + fget s (fldPLZ_START_LO_ADDR p.val) * 4) } ∧
       regsBut s t [regPLZ_STAT] ∧
       changesOnly [.regs, .core, .lastReply] s t)

/-- R360 to R362, R424 and R575: POST to a core handle sets the sender's DBPEND bit in that core and returns SUCCESS; POST to an
ARMED Crossing acts on its unit and returns SUCCESS, attaching or detaching an endpoint, writing a Kerb status word, moving
ALERT_N, writing a PWM period and duty for the permit's owner, or starting a flash command; a flash POST waits while the
controller is busy and is delivered once it is not; a Crossing not ARMED answers CROSSING_RESET, a permit held by another
PERMIT_DENIED; a bad handle raises BAD_HANDLE. TAKE pops a FIFO record into memory; WAIT returns the lowest pending line of
its mask or 64 at its deadline, and otherwise waits. Where a rule leaves a point open, the model's own choice stands (log 37,
78). -/
def Obligations.CorePostsTakesAndWaits : Prop :=
  (∀ (s u : State) (p : Fin 4) (w : Word) (k : Fin 4),
     coreAt s u p w →
     dxOp w = 0x60 →
     postTarget (rs1 u.core[p] w) = some (.core k) →
     k ≠ p →
     ∃ t, exec (.postDoorbell p) s = .next t ∧
       t.core[k].dbpend = u.core[k].dbpend ||| BitVec.ofNat 64 (2 ^ p.val) ∧
       t.core[p] = coreGoes u.core[p] (dxA w) 0 (u.core[p].pc + 4) ∧
       changesOnly [.core, .counters, .wraps] u t) ∧
 (∀ (s u : State) (p : Fin 4) (w : Word),
     coreAt s u p w →
     dxOp w = 0x60 →
     postTarget (rs1 u.core[p] w) = some (.xing 36) →
     xingPresent u.variant 36 = true →
     xingArmed u 36 = true →
     (rs2 u.core[p] w).toNat = 1 →
     ∃ t, exec (.postUsb2Attach p) s = .next t ∧
       t.core = u.core.set p (coreGoes u.core[p] (dxA w) 0 (u.core[p].pc + 4)) ∧
       counter t (381 + 3 * p.val) = counter u (381 + 3 * p.val) + 1 ∧
       t.boot.attached = addOnce u.boot.attached 0 ∧
       changesOnly [.core, .counters, .wraps, .boot] u t) ∧
 (∀ (s u : State) (p : Fin 4) (w : Word),
     coreAt s u p w →
     dxOp w = 0x60 →
     postTarget (rs1 u.core[p] w) = some (.xing 43) →
     xingPresent u.variant 43 = true →
     xingArmed u 43 = true →
     15 ≤ bitsOf (rs2 u.core[p] w).toNat 21 16 →
     ∃ t, exec (.postKerbWord p) s = .next t ∧
       t.core = u.core.set p (coreGoes u.core[p] (dxA w) 0 (u.core[p].pc + 4)) ∧
       counter t (381 + 3 * p.val) = counter u (381 + 3 * p.val) + 1 ∧
       rd t (regKRB_SW (bitsOf (rs2 u.core[p] w).toNat 21 16 - 15)) = BitVec.ofNat 32 ((rs2 u.core[p] w).toNat % 2 ^ 16) ∧
       regsBut u t [regKRB_SW (bitsOf (rs2 u.core[p] w).toNat 21 16 - 15)] ∧
       changesOnly [.core, .counters, .wraps, .regs] u t) ∧
 (∀ (s u : State) (p : Fin 4) (w : Word),
     coreAt s u p w →
     dxOp w = 0x60 →
     postTarget (rs1 u.core[p] w) = some (.xing 43) →
     xingPresent u.variant 43 = true →
     xingArmed u 43 = true →
     bitsOf (rs2 u.core[p] w).toNat 21 16 < 15 →
     ∃ t, exec (.postKerbWord p) s = .next t ∧
       t.core = u.core.set p (coreGoes u.core[p] (dxA w) 2 (u.core[p].pc + 4)) ∧
       counter t (381 + 3 * p.val) = counter u (381 + 3 * p.val) + 1 ∧
       changesOnly [.core, .counters, .wraps] u t) ∧
 (∀ (s u : State) (p : Fin 4) (w : Word),
     coreAt s u p w →
     dxOp w = 0x60 →
     postTarget (rs1 u.core[p] w) = some (.xing 44) →
     xingPresent u.variant 44 = true →
     xingArmed u 44 = true →
     ∃ t, exec (.postSmbusAlert p) s = .next t ∧
       t.core = u.core.set p (coreGoes u.core[p] (dxA w) 0 (u.core[p].pc + 4)) ∧
       counter t (381 + 3 * p.val) = counter u (381 + 3 * p.val) + 1 ∧
       t.pins = { u.pins with alert := ((rs2 u.core[p] w).toNat % 2 == 1) } ∧
       changesOnly [.core, .counters, .wraps, .pins] u t) ∧
 (∀ (s u : State) (p : Fin 4) (w : Word),
     coreAt s u p w →
     dxOp w = 0x60 →
     postTarget (rs1 u.core[p] w) = some (.xing 44) →
     xingPresent u.variant 44 = true →
     xingArmed u 44 = false →
     ∃ t, exec (.postSmbusAlert p) s = .next t ∧
       t.core = u.core.set p (coreGoes u.core[p] (dxA w) 0x0500 (u.core[p].pc + 4)) ∧
       counter t (381 + 3 * p.val) = counter u (381 + 3 * p.val) + 1 ∧
       changesOnly [.core, .counters, .wraps] u t) ∧
 (∀ (s u : State) (p : Fin 4) (w : Word),
     coreAt s u p w →
     dxOp w = 0x60 →
     postTarget (rs1 u.core[p] w) = some (.xing 50) →
     xingPresent u.variant 50 = true →
     xingArmed u 50 = true →
     permitOwner u (16 + bitsOf (rs2 u.core[p] w).toNat 63 62) = 1 + p.val →
     ∃ t, exec (.postTimerPwm p) s = .next t ∧
       t.core = u.core.set p (coreGoes u.core[p] (dxA w) 0 (u.core[p].pc + 4)) ∧
       counter t (381 + 3 * p.val) = counter u (381 + 3 * p.val) + 1 ∧
       rd t (regTMR_PWM (bitsOf (rs2 u.core[p] w).toNat 63 62)) = BitVec.ofNat 32 (bitsOf (rs2 u.core[p] w).toNat 47 32 * 2 ^ 16 + bitsOf (rs2 u.core[p] w).toNat 15 0) ∧
       regsBut u t [regTMR_PWM (bitsOf (rs2 u.core[p] w).toNat 63 62)] ∧
       changesOnly [.core, .counters, .wraps, .regs] u t) ∧
 (∀ (s u : State) (p : Fin 4) (w : Word),
     coreAt s u p w →
     dxOp w = 0x60 →
     postTarget (rs1 u.core[p] w) = some (.xing 50) →
     xingPresent u.variant 50 = true →
     xingArmed u 50 = true →
     permitOwner u (16 + bitsOf (rs2 u.core[p] w).toNat 63 62) ≠ 1 + p.val →
     ∃ t, exec (.postTimerPwm p) s = .next t ∧
       t.core = u.core.set p (coreGoes u.core[p] (dxA w) 0x0501 (u.core[p].pc + 4)) ∧
       counter t (381 + 3 * p.val) = counter u (381 + 3 * p.val) + 1 ∧
       fget t (fldPERMIT_DENIED (16 + bitsOf (rs2 u.core[p] w).toNat 63 62)) = 1 ∧
       fget t (fldPERMIT_DENY_ID (16 + bitsOf (rs2 u.core[p] w).toNat 63 62)) = 1 + p.val ∧
       regsBut u t [regPERMIT (16 + bitsOf (rs2 u.core[p] w).toNat 63 62)] ∧
       changesOnly [.core, .counters, .wraps, .regs] u t) ∧
 (∀ (s u : State) (p : Fin 4) (w : Word),
     coreAt s u p w →
     dxOp w = 0x60 →
     postTarget (rs1 u.core[p] w) = some (.xing 42) →
     xingPresent u.variant 42 = true →
     xingArmed u 42 = true →
     permitOwner u 20 = 1 + p.val →
     fget u fldSPI_STAT_BUSY = 0 →
     bitsOf (rs2 u.core[p] w).toNat 28 16 ≤ 4096 →
     8 * bitsOf (rs2 u.core[p] w).toNat 15 0 + bitsOf (rs2 u.core[p] w).toNat 28 16 ≤ 0x80000 →
     ∃ t, exec (.postFlash p) s = .next t ∧
       t.core = u.core.set p (coreGoes u.core[p] (dxA w) 0 (u.core[p].pc + 4)) ∧
       counter t (381 + 3 * p.val) = counter u (381 + 3 * p.val) + 1 ∧
       fget t fldSPI_STAT_BUSY = 1 ∧
       (t.boot.spi = some ⟨bitsOf (rs2 u.core[p] w).toNat 63 56, (if bitsOf (rs2 u.core[p] w).toNat 29 29 = 1 then some (bitsOf (rs2 u.core[p] w).toNat 55 32) else none), bitsOf (rs2 u.core[p] w).toNat 31 31 == 1, bitsOf (rs2 u.core[p] w).toNat 28 16, 0x1000000 + 8 * bitsOf (rs2 u.core[p] w).toNat 15 0⟩) ∧
       regsBut u t [regSPI_STAT] ∧
       changesOnly [.core, .counters, .wraps, .regs, .boot] u t) ∧
 (∀ (s u : State) (p : Fin 4) (w : Word),
     coreAt s u p w →
     dxOp w = 0x60 →
     postTarget (rs1 u.core[p] w) = some (.xing 42) →
     xingPresent u.variant 42 = true →
     xingArmed u 42 = true →
     permitOwner u 20 = 1 + p.val →
     fget u fldSPI_STAT_BUSY = 1 →
     bitsOf (rs2 u.core[p] w).toNat 28 16 ≤ 4096 →
     8 * bitsOf (rs2 u.core[p] w).toNat 15 0 + bitsOf (rs2 u.core[p] w).toNat 28 16 ≤ 0x80000 →
     ∃ t, exec (.postFlash p) s = .next t ∧
       t.core = u.core.set p { u.core[p] with wait := some (.post 42 (rs2 u.core[p] w) (dxA w)) } ∧
       changesOnly [.core] u t) ∧
 (∀ (s u : State) (p : Fin 4) (w : Word),
     coreAt s u p w →
     dxOp w = 0x60 →
     postTarget (rs1 u.core[p] w) = none →
     stEXL u.core[p] = false →
     ∃ t, exec (.postDoorbell p) s = .next t ∧
       t.core = u.core.set p { u.core[p] with epc := u.core[p].pc, cause := 0x0C, tval := rs1 u.core[p] w, status := statusEnter u.core[p], pc := tvecBase u.core[p], resv := none, wait := none } ∧
       changesOnly [.core] u t) ∧
 (∀ (s : State) (p : Fin 4) (v : DWord) (rdNum : Nat),
     s.core[p].wait = some (.post 42 v rdNum) →
     inReset s = false →
     xingArmed s 42 = true →
     permitOwner s 20 = 1 + p.val →
     fget s fldSPI_STAT_BUSY = 0 →
     bitsOf v.toNat 28 16 ≤ 4096 →
     8 * bitsOf v.toNat 15 0 + bitsOf v.toNat 28 16 ≤ 0x80000 →
     ∃ t, exec (.postAccepted p) s = .next t ∧
       t.core = s.core.set p { coreGoes s.core[p] rdNum 0 (s.core[p].pc + 4) with wait := none } ∧
       fget t fldSPI_STAT_BUSY = 1 ∧
       t.boot.spi.isSome = true ∧
       regsBut s t [regSPI_STAT] ∧
       changesOnly [.core, .counters, .wraps, .regs, .boot] s t) ∧
 (∀ (s u : State) (p : Fin 4) (w : Word) (v : State) (f : Fin 14) (x : Word) (r : BitVec 256),
     coreAt s u p w →
     dxOp w = 0x61 →
     accessOk u.core[p] 2 (rs2 u.core[p] w).toNat 32 = true →
     regionOf (rs2 u.core[p] w).toNat = .tcm →
     storeCheck u (rs2 u.core[p] w) 32 8 = none →
     fifoOfBase (rs1 u.core[p] w).toNat = some f →
     absentAt u.variant (fifoBase f.val) = false →
     (fifoPop u (1 + p.val) f).1 = v →
     (fifoPop u (1 + p.val) f).2 = (x, some r) →
     v.core = u.core →
     ∃ t, exec (.take p) s = .next t ∧
       (t.core[p].get (dxA w) = (if dxA w = 0 then 0 else x.setWidth 64)) ∧
       t.core[p].pc = u.core[p].pc + 4 ∧
       t.mem = Memory.writeBytes v.mem (rs2 u.core[p] w).toNat (recordBytes r) ∧
       changesOnly [.mem, .tcmErr, .core, .counters, .wraps] v t) ∧
 (∀ (s u : State) (p : Fin 4) (w : Word) (n : Nat),
     coreAt s u p w →
     dxOp w = 0x62 →
     absentIn u.variant (rs1 u.core[p] w) = false →
     (pendingIn u u.core[p] (rs1 u.core[p] w)).head? = some n →
     ∃ t, exec (.wait p) s = .next t ∧
       t.core = u.core.set p (coreGoes u.core[p] (dxA w) (BitVec.ofNat 64 n) (u.core[p].pc + 4)) ∧
       counter t (381 + 3 * p.val) = counter u (381 + 3 * p.val) + 1 ∧
       changesOnly [.core, .counters, .wraps] u t) ∧
 (∀ (s u : State) (p : Fin 4) (w : Word),
     coreAt s u p w →
     dxOp w = 0x62 →
     absentIn u.variant (rs1 u.core[p] w) = false →
     (pendingIn u u.core[p] (rs1 u.core[p] w)).head? = none →
     rs2 u.core[p] w ≠ 0 →
     (rs2 u.core[p] w).toNat ≤ u.chipTime.toNat →
     ∃ t, exec (.wait p) s = .next t ∧
       t.core = u.core.set p (coreGoes u.core[p] (dxA w) (64) (u.core[p].pc + 4)) ∧
       counter t (381 + 3 * p.val) = counter u (381 + 3 * p.val) + 1 ∧
       changesOnly [.core, .counters, .wraps] u t) ∧
 (∀ (s u : State) (p : Fin 4) (w : Word),
     coreAt s u p w →
     dxOp w = 0x62 →
     absentIn u.variant (rs1 u.core[p] w) = false →
     (pendingIn u u.core[p] (rs1 u.core[p] w)).head? = none →
     u.chipTime.toNat < (rs2 u.core[p] w).toNat →
     ∃ t, exec (.wait p) s = .next t ∧
       t.core = u.core.set p { u.core[p] with wait := some (.line (rs1 u.core[p] w) (rs2 u.core[p] w) (dxA w)) } ∧
       changesOnly [.core] u t) ∧
 (∀ (s : State) (p : Fin 4) (mask deadline : DWord) (rdNum n : Nat),
     s.core[p].wait = some (.line mask deadline rdNum) →
     inReset s = false →
     (pendingIn s s.core[p] mask).head? = some n →
     ∃ t, exec (.waitWake p) s = .next t ∧
       t.core = s.core.set p { coreGoes s.core[p] rdNum (BitVec.ofNat 64 n) (s.core[p].pc + 4) with wait := none } ∧
       changesOnly [.core, .counters, .wraps] s t) ∧
 (∀ (s : State) (p : Fin 4) (mask deadline : DWord) (rdNum : Nat),
     s.core[p].wait = some (.line mask deadline rdNum) →
     inReset s = false →
     (pendingIn s s.core[p] mask).head? = none →
     deadline ≠ 0 →
     ∃ t, exec (.waitWake p) s = .next t ∧
       t.core = s.core.set p { coreGoes s.core[p] rdNum 64 (s.core[p].pc + 4) with wait := none } ∧
       deadline.toNat ≤ t.chipTime.toNat ∧
       changesOnly [.core, .counters, .wraps, .chipTime] s t)

/-- R383 to R385: a CMO that a core issues acts on the line that rs1 names, by address or by set and way, then retires and is
counted; it touches nothing else. L1I_INV_A and L1D_INV_A drop the line from every core's cache, the ALL forms empty this
core's cache; ARC_CLEAN writes a dirty line back and keeps it clean, ARC_FLUSH writes it back and drops it, ARC_INV_A drops it
without writing; ARC_FETCH_A does nothing on a hit and otherwise brings the line in as a class 0 miss. Where a rule leaves a
point open, the model's own choice stands (log 37, 54). -/
def Obligations.CacheMaintenance : Prop :=
  (∀ (s u : State) (p : Fin 4) (w : Word) (k : Fin 4) (way : Nat),
    coreAt s u p w →
    dxOp w = 0x64 →
    bitsOf w.toNat 3 0 = 0 →
    (regionOf (rs1 u.core[p] w).toNat = .staging ∨ regionOf (rs1 u.core[p] w).toNat = .rom) →
    l1Way u.l1i[k] (rs1 u.core[p] w).toNat = some way →
    u.l1i[k].draining = false →
    (∀ q : Fin 4, u.l1i[q].miss.find? (fun m => m.line == eccWord (rs1 u.core[p] w).toNat) = none) →
    ∃ t, exec (.l1iInvA p) s = .next t ∧
      t.core = u.core.set p (coreGoes u.core[p] 0 0 (u.core[p].pc + 4)) ∧
      counter t 420 = counter u 420 + 1 ∧
      t.l1i[k] = { u.l1i[k] with lines := aerase u.l1i[k].lines (l1Key (l1Set (rs1 u.core[p] w).toNat) way) } ∧
      changesOnly [.core, .counters, .wraps, .l1i] u t) ∧
  (∀ (s u : State) (p : Fin 4) (w : Word) (k : Fin 4) (way : Nat),
    coreAt s u p w →
    dxOp w = 0x64 →
    bitsOf w.toNat 3 0 = 2 →
    (regionOf (rs1 u.core[p] w).toNat = .staging ∨ regionOf (rs1 u.core[p] w).toNat = .rom) →
    l1Way u.l1d[k] (rs1 u.core[p] w).toNat = some way →
    u.l1d[k].draining = false →
    (∀ q : Fin 4, u.l1d[q].miss.find? (fun m => m.line == eccWord (rs1 u.core[p] w).toNat) = none) →
    ∃ t, exec (.l1dInvA p) s = .next t ∧
      t.core = u.core.set p (coreGoes u.core[p] 0 0 (u.core[p].pc + 4)) ∧
      counter t 420 = counter u 420 + 1 ∧
      t.l1d[k] = { u.l1d[k] with lines := aerase u.l1d[k].lines (l1Key (l1Set (rs1 u.core[p] w).toNat) way) } ∧
      changesOnly [.core, .counters, .wraps, .l1d] u t) ∧
  (∀ (s u : State) (p : Fin 4) (w : Word),
    coreAt s u p w →
    dxOp w = 0x64 →
    bitsOf w.toNat 3 0 = 1 →
    ∃ t, exec (.l1iInvAll p) s = .next t ∧
      t.core = u.core.set p (coreGoes u.core[p] 0 0 (u.core[p].pc + 4)) ∧
      counter t 420 = counter u 420 + 1 ∧
      t.l1i[p].lines = [] ∧
      t.l1i[p].miss = [] ∧
      t.l1i[p].draining = false ∧
      (u.l1i[p].miss = [] → t.l1i = u.l1i.set p { u.l1i[p] with lines := [], draining := false }) ∧
      changesOnly [.core, .counters, .wraps, .l1i, .arcade] u t) ∧
  (∀ (s u : State) (p : Fin 4) (w : Word),
    coreAt s u p w →
    dxOp w = 0x64 →
    bitsOf w.toNat 3 0 = 3 →
    ∃ t, exec (.l1dInvAll p) s = .next t ∧
      t.core = u.core.set p (coreGoes u.core[p] 0 0 (u.core[p].pc + 4)) ∧
      counter t 420 = counter u 420 + 1 ∧
      t.l1d[p].lines = [] ∧
      t.l1d[p].miss = [] ∧
      t.l1d[p].draining = false ∧
      (u.l1d[p].miss = [] → t.l1d = u.l1d.set p { u.l1d[p] with lines := [], draining := false }) ∧
      changesOnly [.core, .counters, .wraps, .l1d, .arcade] u t) ∧
  (∀ (s u : State) (p : Fin 4) (w : Word) (way : Nat) (l : ArcLine),
    coreAt s u p w →
    dxOp w = 0x64 →
    bitsOf w.toNat 3 0 = 4 →
    regionOf (rs1 u.core[p] w).toNat = .staging →
    missIndex u (rs1 u.core[p] w).toNat = none →
    arcWay u (rs1 u.core[p] w).toNat = some way →
    aget? u.arcade.lines (arcKey (arcBank (rs1 u.core[p] w).toNat) (arcSet (rs1 u.core[p] w).toNat) way) = some l →
    l.dirty = true →
    (lineDecode l.err).1 = .good →
    (checkStored u (arcLineAddr (arcBank (rs1 u.core[p] w).toNat) (arcSet (rs1 u.core[p] w).toNat) l.tag)).1 = .good →
    ∃ t, exec (.arcCleanA p) s = .next t ∧
      t.core = u.core.set p (coreGoes u.core[p] 0 0 (u.core[p].pc + 4)) ∧
      counter t 420 = counter u 420 + 1 ∧
      t.arcade.lines = aset u.arcade.lines (arcKey (arcBank (rs1 u.core[p] w).toNat) (arcSet (rs1 u.core[p] w).toNat) way) { l with dirty := false } ∧
      t.mem = Memory.writeBytes u.mem (arcLineAddr (arcBank (rs1 u.core[p] w).toNat) (arcSet (rs1 u.core[p] w).toNat) l.tag) l.data ∧
      t.poison = (dramStoreWord u (arcLineAddr (arcBank (rs1 u.core[p] w).toNat) (arcSet (rs1 u.core[p] w).toNat) l.tag) l.data l.poison).poison ∧
      counter t 419 = counter u 419 + 1 ∧
      changesOnly [.core, .counters, .wraps, .arcade, .mem, .poison, .dramErr, .chkErr, .dram] u t) ∧
  (∀ (s u : State) (p : Fin 4) (w : Word) (way : Nat) (l : ArcLine),
    coreAt s u p w →
    dxOp w = 0x64 →
    bitsOf w.toNat 3 0 = 5 →
    regionOf (rs1 u.core[p] w).toNat = .staging →
    missIndex u (rs1 u.core[p] w).toNat = none →
    arcWay u (rs1 u.core[p] w).toNat = some way →
    aget? u.arcade.lines (arcKey (arcBank (rs1 u.core[p] w).toNat) (arcSet (rs1 u.core[p] w).toNat) way) = some l →
    ∃ t, exec (.arcInvA p) s = .next t ∧
      t.core = u.core.set p (coreGoes u.core[p] 0 0 (u.core[p].pc + 4)) ∧
      counter t 420 = counter u 420 + 1 ∧
      t.arcade.lines = aerase u.arcade.lines (arcKey (arcBank (rs1 u.core[p] w).toNat) (arcSet (rs1 u.core[p] w).toNat) way) ∧
      changesOnly [.core, .counters, .wraps, .arcade] u t) ∧
  (∀ (s u : State) (p : Fin 4) (w : Word) (way : Nat) (l : ArcLine),
    coreAt s u p w →
    dxOp w = 0x64 →
    bitsOf w.toNat 3 0 = 6 →
    regionOf (rs1 u.core[p] w).toNat = .staging →
    missIndex u (rs1 u.core[p] w).toNat = none →
    arcWay u (rs1 u.core[p] w).toNat = some way →
    aget? u.arcade.lines (arcKey (arcBank (rs1 u.core[p] w).toNat) (arcSet (rs1 u.core[p] w).toNat) way) = some l →
    l.dirty = true →
    (lineDecode l.err).1 = .good →
    (checkStored u (arcLineAddr (arcBank (rs1 u.core[p] w).toNat) (arcSet (rs1 u.core[p] w).toNat) l.tag)).1 = .good →
    ∃ t, exec (.arcFlushA p) s = .next t ∧
      t.core = u.core.set p (coreGoes u.core[p] 0 0 (u.core[p].pc + 4)) ∧
      counter t 420 = counter u 420 + 1 ∧
      t.arcade.lines = aerase u.arcade.lines (arcKey (arcBank (rs1 u.core[p] w).toNat) (arcSet (rs1 u.core[p] w).toNat) way) ∧
      t.mem = Memory.writeBytes u.mem (arcLineAddr (arcBank (rs1 u.core[p] w).toNat) (arcSet (rs1 u.core[p] w).toNat) l.tag) l.data ∧
      counter t 419 = counter u 419 + 1 ∧
      changesOnly [.core, .counters, .wraps, .arcade, .mem, .poison, .dramErr, .chkErr, .dram] u t) ∧
  (∀ (s u : State) (p : Fin 4) (w : Word) (l : ArcLine),
    coreAt s u p w →
    dxOp w = 0x64 →
    bitsOf w.toNat 3 0 = 7 →
    (u.arcade.miss[bitsOf (rs1 u.core[p] w).toNat 15 14]!).filter (fun m => arcSet m.line = bitsOf (rs1 u.core[p] w).toNat 9 0) = [] →
    aget? u.arcade.lines (arcKey (bitsOf (rs1 u.core[p] w).toNat 15 14) (bitsOf (rs1 u.core[p] w).toNat 9 0) (bitsOf (rs1 u.core[p] w).toNat 13 10)) = some l →
    l.dirty = true →
    (lineDecode l.err).1 = .good →
    (checkStored u (arcLineAddr (bitsOf (rs1 u.core[p] w).toNat 15 14) (bitsOf (rs1 u.core[p] w).toNat 9 0) l.tag)).1 = .good →
    ∃ t, exec (.arcCleanSw p) s = .next t ∧
      t.core = u.core.set p (coreGoes u.core[p] 0 0 (u.core[p].pc + 4)) ∧
      counter t 420 = counter u 420 + 1 ∧
      t.arcade.lines = aset u.arcade.lines (arcKey (bitsOf (rs1 u.core[p] w).toNat 15 14) (bitsOf (rs1 u.core[p] w).toNat 9 0) (bitsOf (rs1 u.core[p] w).toNat 13 10)) { l with dirty := false } ∧
      t.mem = Memory.writeBytes u.mem (arcLineAddr (bitsOf (rs1 u.core[p] w).toNat 15 14) (bitsOf (rs1 u.core[p] w).toNat 9 0) l.tag) l.data ∧
      changesOnly [.core, .counters, .wraps, .arcade, .mem, .poison, .dramErr, .chkErr, .dram] u t) ∧
  (∀ (s u : State) (p : Fin 4) (w : Word) (l : ArcLine),
    coreAt s u p w →
    dxOp w = 0x64 →
    bitsOf w.toNat 3 0 = 8 →
    (u.arcade.miss[bitsOf (rs1 u.core[p] w).toNat 15 14]!).filter (fun m => arcSet m.line = bitsOf (rs1 u.core[p] w).toNat 9 0) = [] →
    aget? u.arcade.lines (arcKey (bitsOf (rs1 u.core[p] w).toNat 15 14) (bitsOf (rs1 u.core[p] w).toNat 9 0) (bitsOf (rs1 u.core[p] w).toNat 13 10)) = some l →
    l.dirty = true →
    (lineDecode l.err).1 = .good →
    (checkStored u (arcLineAddr (bitsOf (rs1 u.core[p] w).toNat 15 14) (bitsOf (rs1 u.core[p] w).toNat 9 0) l.tag)).1 = .good →
    ∃ t, exec (.arcFlushSw p) s = .next t ∧
      t.core = u.core.set p (coreGoes u.core[p] 0 0 (u.core[p].pc + 4)) ∧
      counter t 420 = counter u 420 + 1 ∧
      t.arcade.lines = aerase u.arcade.lines (arcKey (bitsOf (rs1 u.core[p] w).toNat 15 14) (bitsOf (rs1 u.core[p] w).toNat 9 0) (bitsOf (rs1 u.core[p] w).toNat 13 10)) ∧
      t.mem = Memory.writeBytes u.mem (arcLineAddr (bitsOf (rs1 u.core[p] w).toNat 15 14) (bitsOf (rs1 u.core[p] w).toNat 9 0) l.tag) l.data ∧
      changesOnly [.core, .counters, .wraps, .arcade, .mem, .poison, .dramErr, .chkErr, .dram] u t) ∧
  (∀ (s u : State) (p : Fin 4) (w : Word),
    coreAt s u p w →
    dxOp w = 0x64 →
    bitsOf w.toNat 3 0 = 9 →
    stagingUsable u (rs1 u.core[p] w).toNat = true →
    missIndex u (rs1 u.core[p] w).toNat = none →
    (arcWay u (rs1 u.core[p] w).toNat).isSome = true →
    ∃ t, exec (.arcFetchA p) s = .next t ∧
      t.core = u.core.set p (coreGoes u.core[p] 0 0 (u.core[p].pc + 4)) ∧
      counter t 420 = counter u 420 + 1 ∧
      changesOnly [.core, .counters, .wraps] u t)

/-- R368, R373 to R377, R380, R386 and R387: an L1 fill puts its line into the L1 as the most recently used; a staging request
that hits answers the line and is counted, one that a miss register's line serves merges into it, one that misses takes a free
miss register or, with sixteen busy, waits with MISS_FULL; a fill frees its register; EN turns the Arcade on, or starts its
drain, whose end writes every dirty line back, empties it and sets DRAIN_DONE; a partition mask of fewer than two bits is
refused with PART_BAD; an L1 that is switched off empties once its fills have landed. Where a rule leaves a point open, the
model's own choice stands (log 12, 54, 55). -/
def Obligations.CachesFillDrainAndControl : Prop :=
  (∀ (s : State) (p : CoreId) (line : BitVec 40) (m : L1Miss),
    s.l1d[p].miss.find? (fun x => x.line == eccWord line.toNat) = some m →
    s.l1d[p].draining = false →
    aget? s.l1d[p].lines (l1Key (l1Set (eccWord line.toNat)) (l1Victim s.l1d[p] (eccWord line.toNat))) = none →
    ∃ t, exec (.l1Fill p .data line) s = .next t ∧
      t.l1d = s.l1d.set p { s.l1d[p] with lines := aset s.l1d[p].lines (l1Key (l1Set (eccWord line.toNat)) (l1Victim s.l1d[p] (eccWord line.toNat))) ⟨l1Tag (eccWord line.toNat), m.data, s.l1d[p].clock + 1, 0⟩, clock := s.l1d[p].clock + 1, miss := s.l1d[p].miss.filter (fun x => x.line != eccWord line.toNat) } ∧
      changesOnly [.l1d] s t) ∧
  (∀ (s : State) (sender : ArcFrom) (addr : BitVec 40) (way : Nat) (l : ArcLine),
    stagingUsable s addr.toNat = true →
    missIndex s addr.toNat = none →
    arcFind s addr.toNat = some (way, l) →
    (lineDecode l.err).1 = .good →
    ∃ t, exec (.arcadeRequest sender addr none 0) s = .next t ∧
      (t.lastReply.status = (if l.poison then .poison else .ok)) ∧
      t.lastReply.bytes = l.data ∧
      counter t (409 + 2 * arcBank addr.toNat) = counter s (409 + 2 * arcBank addr.toNat) + 1 ∧
      t.arcade.lines = s.arcade.lines ∧
      changesOnly [.arcade, .counters, .wraps, .lastReply] s t) ∧
  (∀ (s : State) (sender : ArcFrom) (addr : BitVec 40) (bs : List Byte) (way : Nat) (l : ArcLine),
    stagingUsable s addr.toNat = true →
    missIndex s addr.toNat = none →
    arcFind s addr.toNat = some (way, l) →
    (lineDecode l.err).1 = .good →
    ∃ t, exec (.arcadeRequest sender addr (some bs) 0) s = .next t ∧
      t.lastReply.status = .ok ∧
      t.arcade.lines = aset s.arcade.lines (arcKey (arcBank addr.toNat) (arcSet addr.toNat) way) { l with dirty := true, data := overlay l.data (addr.toNat % 64) (bs.take (64 - addr.toNat % 64)), poison := l.poison && !((bs.take (64 - addr.toNat % 64)).length == 64), err := lineFresh l.err (addr.toNat % 64) (bs.take (64 - addr.toNat % 64)).length } ∧
      t.mem = s.mem ∧
      changesOnly [.arcade, .counters, .wraps, .lastReply, .l1d, .core] s t) ∧
  (∀ (s : State) (sender : ArcFrom) (addr : BitVec 40) (store : Option (List Byte)),
    stagingUsable s addr.toNat = true →
    missIndex s addr.toNat = none →
    arcFind s addr.toNat = none →
    (s.arcade.miss[arcBank addr.toNat]!).length < 16 →
    arcState s = 1 →
    ∃ t, exec (.arcadeRequest sender addr store 0) s = .next t ∧
      t.arcade.miss[arcBank addr.toNat]! = s.arcade.miss[arcBank addr.toNat]! ++ [⟨eccWord addr.toNat, arcMayAlloc s (arcClass sender), arcClass sender, [⟨arcClass sender, addr.toNat, arcClip addr.toNat store, arcCore sender⟩]⟩] ∧
      counter t (410 + 2 * arcBank addr.toNat) = counter s (410 + 2 * arcBank addr.toNat) + 1 ∧
      regsBut s t [regARC_MISS] ∧
      changesOnly [.regs, .arcade, .counters, .wraps, .l1d, .core] s t) ∧
  (∀ (s : State) (sender : ArcFrom) (addr : BitVec 40) (store : Option (List Byte)) (i : Nat) (m : MissReg),
    stagingUsable s addr.toNat = true →
    missIndex s addr.toNat = some i →
    (s.arcade.miss[arcBank addr.toNat]!)[i]? = some m →
    m.reqs.length ≤ 8 →
    m.alloc = true →
    ∃ t, exec (.arcadeRequest sender addr store 0) s = .next t ∧
      t.arcade.miss[arcBank addr.toNat]! = (s.arcade.miss[arcBank addr.toNat]!).set i { m with reqs := m.reqs ++ [⟨arcClass sender, addr.toNat, arcClip addr.toNat store, arcCore sender⟩] } ∧
      counter t 417 = counter s 417 + 1 ∧
      regsBut s t [regARC_MISS] ∧
      changesOnly [.regs, .arcade, .counters, .wraps, .l1d, .core] s t) ∧
  (∀ (s : State) (sender : ArcFrom) (addr : BitVec 40) (store : Option (List Byte)),
    stagingUsable s addr.toNat = true →
    missIndex s addr.toNat = none →
    arcFind s addr.toNat = none →
    16 ≤ (s.arcade.miss[arcBank addr.toNat]!).length →
    ∃ t, exec (.arcadeRequest sender addr store 0) s = .next t ∧
      t.arcade.waiting[arcBank addr.toNat]! = s.arcade.waiting[arcBank addr.toNat]! ++ [⟨arcClass sender, addr.toNat, arcClip addr.toNat store, arcCore sender⟩] ∧
      fget t fldARC_STAT_MISS_FULL = 1 ∧
      regsBut s t [regARC_STAT] ∧
      changesOnly [.regs, .arcade] s t) ∧
  (∀ (s u : State) (bank : Fin 4) (reg : Fin 16) (m : MissReg) (r : ArcReq) (bs : List Byte) (p : Bool),
    (s.arcade.miss[bank.val]!)[reg.val]? = some m →
    m.alloc = false →
    s.arcade.waiting[bank.val]! = [] →
    m.reqs.all (fun r => r.store.isNone) = true →
    m.reqs.getLast? = some r →
    dramRead (setMiss s bank.val ((s.arcade.miss[bank.val]!).eraseIdx reg.val)) m.line = (u, bs, p) →
    ∃ t, exec (.arcadeFill bank reg) s = .next t ∧
      t.arcade.miss[bank.val]! = (s.arcade.miss[bank.val]!).eraseIdx reg.val ∧
      t.arcade.answers = m.reqs.map (fun r => ⟨r.addr, bs, p⟩) ∧
      t.lastReply.bytes = bs ∧
      (t.lastReply.status = (if p then .poison else .ok)) ∧
      t.arcade.lines = s.arcade.lines ∧
      changesOnly [.arcade, .lastReply] u t) ∧
  (∀ (s : State) (agent : Agent),
    arcState s = 1 →
    ∃ t, exec (.arcDisable agent) s = .next t ∧
      arcState t = 2 ∧
      fget t fldARC_CTL_EN = 0 ∧
      regsBut s t [regARC_STAT, regARC_CTL] ∧
      changesOnly [.regs, .lastReply] s t) ∧
  (∀ (s : State) (agent : Agent),
    arcState s = 0 →
    ∃ t, exec (.arcEnable agent) s = .next t ∧
      arcState t = 1 ∧
      fget t fldARC_CTL_EN = 1 ∧
      regsBut s t [regARC_STAT, regARC_CTL] ∧
      changesOnly [.regs, .lastReply] s t) ∧
  (∀ (s : State) (agent : Agent),
    arcState s = 2 →
    ∃ t, exec (.arcEnable agent) s = .next t ∧
      arcState t = 2 ∧
      fget t fldARC_STAT_EN_PEND = 1 ∧
      regsBut s t [regARC_STAT, regARC_CTL] ∧
      changesOnly [.regs, .lastReply] s t) ∧
  (∀ (s : State),
    arcState s = 2 →
    s.arcade.miss = #v[[], [], [], []] →
    s.arcade.waiting = #v[[], [], [], []] →
    fget s fldARC_STAT_EN_PEND = 0 →
    s.arcade.lines.all (fun p => (lineDecode p.2.err).1 == .good) = true →
    s.chkErr = [] →
    s.dram.toList.all (fun c => c.checks.all (fun b => b.2.rest == 0)) = true →
    ∃ t, exec (.arcDrainDone) s = .next t ∧
      arcState t = 0 ∧
      fget t fldARC_STAT_DRAIN_DONE = 1 ∧
      t.arcade.lines = [] ∧
      regsBut s t [regARC_STAT] ∧
      changesOnly [.regs, .arcade, .counters, .wraps, .mem, .poison, .dramErr, .dram] s t) ∧
  (∀ (s : State) (agent : Agent) (n : Fin 4) (mask : BitVec 16),
    (setBits 16 mask.toNat).length < 2 →
    ∃ t, exec (.arcPartWrite agent n mask) s = .next t ∧
      fget t fldARC_STAT_PART_BAD = 1 ∧
      regsBut s t [regARC_STAT] ∧
      changesOnly [.regs, .lastReply] s t) ∧
  (∀ (s : State) (agent : Agent) (n : Fin 4) (mask : BitVec 16),
    2 ≤ (setBits 16 mask.toNat).length →
    ∃ t, exec (.arcPartWrite agent n mask) s = .next t ∧
      fget t (fldARC_PART_MASK n) = mask.toNat ∧
      regsBut s t [regARC_PART n] ∧
      changesOnly [.regs, .lastReply] s t) ∧
  (∀ (s : State) (agent : Agent) (p : CoreId),
    l1On s p .data = true →
    s.l1d[p].miss = [] →
    ∃ t, exec (.l1Disable agent p .data) s = .next t ∧
      fbitAt t fldL1_CTL_DEN p.val = false ∧
      t.l1d = s.l1d.set p { s.l1d[p] with lines := [], miss := [], draining := false } ∧
      regsBut s t [regL1_CTL] ∧
      changesOnly [.regs, .l1d, .lastReply] s t) ∧
  (∀ (s : State) (agent : Agent) (p : CoreId),
    l1On s p .instr = true →
    s.l1i[p].miss ≠ [] →
    ∃ t, exec (.l1Disable agent p .instr) s = .next t ∧
      fbitAt t fldL1_CTL_IEN p.val = false ∧
      t.l1i = s.l1i.set p { s.l1i[p] with draining := true } ∧
      regsBut s t [regL1_CTL] ∧
      changesOnly [.regs, .l1i, .lastReply] s t)

/-- R399 to R408 and R410: a request for usable staging memory enters its channel's queue, or waits behind 69 others, and before
READY gets a bus error; a channel that issues its only request opens its row, hands a read to the data return or writes the
bytes, and keeps or closes the row by the page mode; a row that idles closes; data that returns without errors is answered as
stored, a word with one flipped bit is corrected and reported as CE; a refresh that falls due is postponed while requests
wait, and otherwise closes the row; the MR4 poll, the activate tables and the scrubber act as stated. Where a rule leaves a
point open, the model's own choice stands (log 56, 57, 58). -/
def Obligations.DramQueuesAndRows : Prop :=
  (∀ (s : State) (sender : DramFrom) (write : Bool) (addr : BitVec 40) (data : List Byte) (c : Fin 4),
    stagingUsable s addr.toNat = true →
    (dramPlace s addr.toNat).chan = c.val →
    xingArmed s (Fin.ofNat 52 (38 + c.val)) = true →
    s.dram[c].queue.length < 69 →
    s.dram[c].waiting = [] →
    ∃ t, exec (.dramRequest sender write addr data) s = .next t ∧
      (t.dram = s.dram.set c { s.dram[c] with queue := s.dram[c].queue ++ [⟨addr.toNat, if write then arcClip addr.toNat (some data) else none, sendsUrgent sender, hintOpen sender, s.chipTime⟩] }) ∧
      changesOnly [.dram] s t) ∧
  (∀ (s : State) (sender : DramFrom) (write : Bool) (addr : BitVec 40) (data : List Byte) (c : Fin 4),
    stagingUsable s addr.toNat = true →
    (dramPlace s addr.toNat).chan = c.val →
    xingArmed s (Fin.ofNat 52 (38 + c.val)) = true →
    s.dram[c].queue.length = 69 →
    ∃ t, exec (.dramRequest sender write addr data) s = .next t ∧
      (t.dram = s.dram.set c { s.dram[c] with waiting := s.dram[c].waiting ++ [⟨addr.toNat, if write then arcClip addr.toNat (some data) else none, sendsUrgent sender, hintOpen sender, s.chipTime⟩] }) ∧
      changesOnly [.dram] s t) ∧
  (∀ (s : State) (sender : DramFrom) (write : Bool) (addr : BitVec 40) (data : List Byte),
    stagingUsable s addr.toNat = false →
    ∃ t, exec (.dramRequest sender write addr data) s = .next t ∧
      t.lastReply.status = .busError ∧
      changesOnly [.lastReply] s t) ∧
  (∀ (s : State) (sender : DramFrom) (write : Bool) (addr : BitVec 40) (data : List Byte) (c : Fin 4),
    stagingUsable s addr.toNat = true →
    (dramPlace s addr.toNat).chan = c.val →
    xingArmed s (Fin.ofNat 52 (38 + c.val)) = false →
    ∃ t, exec (.dramRequest sender write addr data) s = .next t ∧
      (t.dram = s.dram.set c { s.dram[c] with waiting := s.dram[c].waiting ++ [⟨addr.toNat, if write then arcClip addr.toNat (some data) else none, sendsUrgent sender, hintOpen sender, s.chipTime⟩] }) ∧
      t.lastReply.status = .crossingReset ∧
      changesOnly [.dram, .lastReply] s t) ∧
  (∀ (s : State) (c : DramChan) (r : DramReq) (check : BitVec 512),
    (fget s fldDRAM_STAT_STATE = 2 ∨ fget s fldDRAM_STAT_STATE = 3) →
    s.dram[c].queue = [r] →
    s.dram[c].waiting = [] →
    r.store = none →
    (dramPlace s r.addr).ch = c →
    fget s fldDRAM_CTL_PAGE_MODE = 1 →
    ∃ t, exec (.dramIssue ⟨c, check⟩) s = .next t ∧
      t.dram[c].queue = [] ∧
      t.dram[c].returns = s.dram[c].returns ++ [r] ∧
      aget? t.dram[c].rows (reqBank s r) = some (reqRow s r) ∧
      (aget? t.dram[c].checks (reqBank s r)).map (·.row) = some (reqRow s r) ∧
      (check = 0 → (checkStored s (eccWord r.addr)).1 = .good → aget? s.dram[c].rows (reqBank s r) = some (reqRow s r) → t.regs = s.regs) ∧
      changesOnly [.dram, .chkErr, .regs, .reports, .counters, .wraps] s t) ∧
  (∀ (s : State) (c : DramChan) (r : DramReq) (bs : List Byte) (check : BitVec 512),
    (fget s fldDRAM_STAT_STATE = 2 ∨ fget s fldDRAM_STAT_STATE = 3) →
    s.dram[c].queue = [r] →
    s.dram[c].waiting = [] →
    r.store = some bs →
    bs.length = 64 →
    r.addr % 64 = 0 →
    (dramPlace s r.addr).ch = c →
    aget? s.dram[c].rows (reqBank s r) = some (reqRow s r) →
    fget s fldDRAM_CTL_PAGE_MODE = 2 →
    ∃ t, exec (.dramIssue ⟨c, check⟩) s = .next t ∧
      t.dram[c].queue = [] ∧
      t.dram[c].rows = aerase s.dram[c].rows (reqBank s r) ∧
      t.mem = Memory.writeBytes s.mem r.addr bs ∧
      t.dramErr = aerase s.dramErr r.addr ∧
      t.lastReply.status = .ok ∧
      (check = 0 → (checkStored s (eccWord r.addr)).1 = .good → t.regs = s.regs) ∧
      changesOnly [.dram, .mem, .poison, .dramErr, .chkErr, .core, .regs, .reports, .counters, .wraps, .lastReply] s t) ∧
  (∀ (s : State) (c : DramChan) (bank : Fin 32) (row : Nat),
    aget? s.dram[c].rows bank.val = some row →
    s.dram[c].queue = [] →
    ∃ t, exec (.pageIdleExpire c bank) s = .next t ∧
      t.dram[c].rows = aerase s.dram[c].rows bank.val ∧
      t.dram[c].queue = [] ∧
      changesOnly [.dram, .chkErr] s t) ∧
  (∀ (s u : State) (i k : Fin 2) (r : DramReq) (rest : List DramReq) (flips : BitVec 512) (bs : List Byte) (p : Bool),
    s.dram[ifChan i k].returns = r :: rest →
    dramRead (flipData (modDram s (ifChan i k) (fun ch => { ch with returns := rest })) (eccWord r.addr) flips.toNat) (eccWord r.addr) = (u, bs, p) →
    ∃ t, exec (.dramReadReturn i k flips) s = .next t ∧
      t.lastReply.bytes = bs ∧
      (t.lastReply.status = (if p then .poison else .ok)) ∧
      changesOnly [.lastReply] u t) ∧
  (∀ (s : State) (i k : Fin 2) (r : DramReq) (rest : List DramReq),
    s.dram[ifChan i k].returns = r :: rest →
    aget? s.dramErr (eccWord r.addr) = none →
    checkLook s (eccWord r.addr) = (.good, 0) →
    ∃ t, exec (.dramReadReturn i k 0) s = .next t ∧
      t.dram[ifChan i k].returns = rest ∧
      t.lastReply.bytes = Memory.readBytes s.mem (eccWord r.addr) 64 ∧
      (t.lastReply.status = (if isPoisoned s (eccWord r.addr) then .poison else .ok)) ∧
      changesOnly [.dram, .chkErr, .lastReply] s t) ∧
  (∀ (s : State) (i k : Fin 2) (r : DramReq) (rest : List DramReq) (bit : Fin 512),
    s.dram[ifChan i k].returns = r :: rest →
    aget? s.dramErr (eccWord r.addr) = none →
    checkLook s (eccWord r.addr) = (.good, 0) →
    isRemapped s (dramPlace s (eccWord r.addr)).chan (remapWord (dramPlace s (eccWord r.addr))) = false →
    ∃ t, exec (.dramReadReturn i k (BitVec.ofNat 512 (2 ^ bit.val))) s = .next t ∧
      t.lastReply.bytes = Memory.readBytes s.mem (eccWord r.addr) 64 ∧
      (t.lastReply.status = (if isPoisoned s (eccWord r.addr) then .poison else .ok)) ∧
      fget t fldDRAM_STAT_CE = 1 ∧
      rd t regDRAM_CE_ADDR_LO = BitVec.ofNat 32 (eccWord r.addr % 2 ^ 32) ∧
      counter t 422 = counter s 422 + 1 ∧
      regsBut s t [regDRAM_STAT, regDRAM_CE_ADDR_LO, regDRAM_CE_ADDR_HI] ∧
      changesOnly [.dram, .dramErr, .chkErr, .regs, .counters, .wraps, .lastReply] s t) ∧
  (∀ (s : State) (c : DramChan) (bank : Fin 32),
    (fget s fldDRAM_STAT_STATE = 2 ∨ fget s fldDRAM_STAT_STATE = 3) →
    s.dram[c].queue ≠ [] →
    bankCount s.dram[c].debt bank.val < 8 →
    s.dram[c].queue.any (reqAged s) = false →
    ∃ t, exec (.perBankRefresh c bank) s = .next t ∧
      t.dram = s.dram.set c { s.dram[c] with debt := aset s.dram[c].debt bank.val (bankCount s.dram[c].debt bank.val + 1) } ∧
      changesOnly [.dram] s t) ∧
  (∀ (s : State) (c : DramChan) (bank : Fin 32),
    (fget s fldDRAM_STAT_STATE = 2 ∨ fget s fldDRAM_STAT_STATE = 3) →
    s.dram[c].queue = [] →
    ∃ t, exec (.perBankRefresh c bank) s = .next t ∧
      t.dram[c].rows = aerase s.dram[c].rows bank.val ∧
      t.dram[c].debt = aerase s.dram[c].debt bank.val ∧
      t.dram[c].queue = [] ∧
      changesOnly [.dram, .chkErr] s t) ∧
  (∀ (s : State) (c : DramChan) (rate : BitVec 8),
    (fget s fldDRAM_STAT_STATE = 2 ∨ fget s fldDRAM_STAT_STATE = 3) →
    ∃ t, exec (.mr4Poll c rate) s = .next t ∧
      t.dram = s.dram.set c { s.dram[c] with mr4 := rate } ∧
      changesOnly [.dram] s t) ∧
  (∀ (s : State),
    ∃ t, exec (.actTableClear) s = .next t ∧
      t.dram = s.dram.map (fun ch => { ch with acts := [] }) ∧
      changesOnly [.dram] s t) ∧
  (∀ (s : State) (c : DramChan),
    (fget s fldDRAM_STAT_STATE = 2 ∨ fget s fldDRAM_STAT_STATE = 3) →
    fget s fldDRAM_CTL_SCRUB_EN = 1 →
    fget s (fldDCH_STAT_RETRAINING c.val) = 0 →
    s.arcade.lines = [] →
    s.arcade.miss = #v[[], [], [], []] →
    s.dramErr = [] →
    s.chkErr = [] →
    s.poison = [] →
    s.dram[c].checks.all (fun b => b.2.rest == 0) = true →
    s.dram[c].scrub + 1 < scrubRows s →
    ∃ t, exec (.scrubRow c [] []) s = .next t ∧
      t.dram[c].scrub = s.dram[c].scrub + 1 ∧
      t.dram[c].queue = s.dram[c].queue ∧
      t.mem = s.mem ∧
      regsBut s t [regDRAM_STAT] ∧
      changesOnly [.dram, .chkErr, .counters, .wraps, .regs] s t)

/-- R398, R411, R413 to R418 and R421: the mapping registers take a write only in OFF or FAILED, and only a legal mask; INIT
starts the bring-up; its end trains the channels, zeroes every row, shows the usable size, arms Crossings 38 to 41 and enters
READY, or enters FAILED when a channel fails; a free remap entry takes a word and counts, a busy one refuses another word with
WR_DENIED, and VALID 0 frees it; RETRAIN marks every channel, a marked channel starts to retrain by lowering its clock-good
flag, and ends with the flag up or in FAILED; drift beyond DRIFT_LIM marks a channel; an SRAM macro's correctable word is
counted and reported. Where a rule leaves a point open, the model's own choice stands (log 58, 59). -/
def Obligations.DramModesAndRemaps : Prop :=
  (∀ (s : State) (agent : Agent) (value : BitVec 32),
    (fget s fldDRAM_STAT_STATE = 0 ∨ fget s fldDRAM_STAT_STATE = 5) →
    ∃ t, exec (.dramMapWrite agent .cfg value) s = .next t ∧
      fget t fldDRAM_CFG_ROW_BITS = clampNat (bitsOf value.toNat 20 16) 13 16 ∧
      fget t fldDRAM_CFG_RANKS = bitsOf value.toNat 8 8 ∧
      regsBut s t [regDRAM_CFG] ∧
      changesOnly [.regs, .lastReply] s t) ∧
  (∀ (s : State) (agent : Agent) (value : BitVec 32),
    (fget s fldDRAM_STAT_STATE = 0 ∨ fget s fldDRAM_STAT_STATE = 5) →
    maskLegal s 0 (bitsOf value.toNat 22 0) = false →
    ∃ t, exec (.dramMapWrite agent .ifmap value) s = .next t ∧
      fget t fldDRAM_STAT_MAP_BAD = 1 ∧
      regsBut s t [regDRAM_STAT] ∧
      changesOnly [.regs, .lastReply] s t) ∧
  (∀ (s : State) (agent : Agent) (n : Fin 2) (k : Fin 6) (value : BitVec 32),
    (fget s fldDRAM_STAT_STATE = 0 ∨ fget s fldDRAM_STAT_STATE = 5) →
    maskLegal s (k.val + 1) (bitsOf value.toNat 22 0) = true →
    ∃ t, exec (.dramMapWrite agent (.xormap n k) value) s = .next t ∧
      fget t (fldDRAMN_XORMAP_MASK n k) = bitsOf value.toNat 22 0 ∧
      regsBut s t [regDRAMN_XORMAP n k] ∧
      changesOnly [.regs, .lastReply] s t) ∧
  (∀ (s : State) (agent : Agent) (reg : DramMapReg) (value : BitVec 32),
    1 ≤ fget s fldDRAM_STAT_STATE →
    fget s fldDRAM_STAT_STATE ≤ 4 →
    ∃ t, exec (.dramMapWrite agent reg value) s = .next t ∧
      fget t fldDRAM_STAT_WR_DENIED = 1 ∧
      regsBut s t [regDRAM_STAT] ∧
      changesOnly [.regs, .lastReply] s t) ∧
  (∀ (s : State) (agent : Agent),
    (fget s fldDRAM_STAT_STATE = 0 ∨ fget s fldDRAM_STAT_STATE = 5) →
    ∃ t, exec (.dramInit agent) s = .next t ∧
      fget t fldDRAM_STAT_STATE = 1 ∧
      regsBut s t [regDRAM_STAT] ∧
      changesOnly [.regs, .lastReply] s t) ∧
  (∀ (s : State),
    fget s fldDRAM_STAT_STATE = 1 →
    ∃ t, exec (.dramInitDone []) s = .next t ∧
      fget t fldDRAM_STAT_STATE = 2 ∧
      fget t fldDRAM_TOP_SIZE_MIB = usableMiB s % 2 ^ 16 ∧
      t.mem = s.mem.filter (fun c => c.1 < 0x8000000000) ∧
      t.poison = [] ∧
      t.dramErr = [] ∧
      t.chkErr = [] ∧
      (List.finRange 4).all (fun c => xingArmed t (Fin.ofNat 52 (38 + c.val)) && fbit t (fldDCH_STAT_TRAINED c.val) && fget t (fldDCH_STAT_DRIFT c.val) == 0) = true ∧
      (List.finRange 4).all (fun c => t.dram[c].lapStart == s.chipTime) = true ∧
      changesOnly [.regs, .mem, .poison, .dramErr, .chkErr, .xing, .dram] s t) ∧
  (∀ (s : State) (c : DramChan),
    fget s fldDRAM_STAT_STATE = 1 →
    ∃ t, exec (.dramInitDone [c]) s = .next t ∧
      fget t fldDRAM_STAT_STATE = 5 ∧
      fget t fldDRAM_STAT_TRAIN_FAIL = 1 ∧
      fget t (fldDCH_STAT_TRAINED c.val) = 0 ∧
      t.mem = s.mem ∧
      changesOnly [.regs, .reports] s t) ∧
  (∀ (s : State) (agent : Agent) (c : DramChan) (entry : Fin 8) (word : BitVec 26),
    fget s (fldDCH_REMAP_VALID c.val entry.val) = 0 →
    isRemapped s c.val word.toNat = false →
    s.dramErr = [] →
    s.chkErr = [] →
    stagingUsable s (remapAddr s c.val word.toNat) = true →
    word.toNat % 32 ≠ 31 →
    ∃ t, exec (.remapArm agent (.dram c) entry word) s = .next t ∧
      fget t (fldDCH_REMAP_VALID c.val entry.val) = 1 ∧
      fget t (fldDCH_REMAP_WORD c.val entry.val) = word.toNat ∧
      fget t (fldDCH_REMAP_AUTO c.val entry.val) = 0 ∧
      counter t 428 = counter s 428 + 1 ∧
      Memory.readBytes t.mem (remapAddr s c.val word.toNat) 64 = Memory.readBytes s.mem (remapAddr s c.val word.toNat) 64 ∧
      changesOnly [.regs, .mem, .poison, .dram, .dramErr, .chkErr, .reports, .counters, .wraps, .lastReply] s t) ∧
  (∀ (s : State) (agent : Agent) (c : DramChan) (entry : Fin 8) (word : BitVec 26),
    fget s (fldDCH_REMAP_VALID c.val entry.val) = 1 →
    fget s (fldDCH_REMAP_WORD c.val entry.val) ≠ word.toNat →
    ∃ t, exec (.remapArm agent (.dram c) entry word) s = .next t ∧
      fget t fldDRAM_STAT_WR_DENIED = 1 ∧
      regsBut s t [regDRAM_STAT] ∧
      changesOnly [.regs, .lastReply] s t) ∧
  (∀ (s : State) (agent : Agent) (c : DramChan) (entry : Fin 8),
    fget s (fldDCH_REMAP_VALID c.val entry.val) = 1 →
    fget s (fldDCH_STAT_FREE c.val) < 8 →
    ∃ t, exec (.remapDisarm agent (.dram c) entry) s = .next t ∧
      fget t (fldDCH_REMAP_VALID c.val entry.val) = 0 ∧
      fget t (fldDCH_REMAP_AUTO c.val entry.val) = 0 ∧
      fget t (fldDCH_STAT_FREE c.val) = fget s (fldDCH_STAT_FREE c.val) + 1 ∧
      t.mem = s.mem ∧
      changesOnly [.regs, .lastReply] s t) ∧
  (∀ (s : State) (c : DramChan) (drift : BitVec 16),
    dramRuns s = true →
    fget s fldDRAM_DRIFT_DRIFT_LIM < drift.toInt.natAbs →
    ∃ t, exec (.oscCheck c drift) s = .next t ∧
      fget t (fldDCH_STAT_DRIFT c.val) = drift.toNat ∧
      fbitAt t fldDRAM_STAT_RETRAIN_PEND c.val = true ∧
      regsBut s t [regDRAM_STAT, regDCH_STAT c.val] ∧
      changesOnly [.regs] s t) ∧
  (∀ (s : State) (agent : Agent),
    ∃ t, exec (.dramRetrain agent) s = .next t ∧
      fget t fldDRAM_STAT_RETRAIN_PEND = 0xF ∧
      regsBut s t [regDRAM_STAT] ∧
      changesOnly [.regs, .lastReply] s t) ∧
  (∀ (s : State) (c : DramChan),
    mayRetrain s c = true →
    sweepRunning s = false →
    ∃ t, exec (.retrainStart c) s = .next t ∧
      fget t fldDRAM_STAT_STATE = 3 ∧
      fget t (fldDCH_STAT_RETRAINING c.val) = 1 ∧
      fbitAt t fldDRAM_STAT_RETRAIN_PEND c.val = false ∧
      (t.dram[c].rows, t.dram[c].queue, t.dram[c].returns) = ([], [], []) ∧
      t.dram[c].waiting = s.dram[c].returns ++ s.dram[c].queue ++ s.dram[c].waiting ∧
      (∀ bank : Fin 32, (aget? t.dram[c].checks bank.val).all (fun b => !b.dirty) = true) ∧
      t.xing[Fin.ofNat 52 (38 + c.val)].clkGood = false ∧
      changesOnly [.regs, .dram, .chkErr, .xing, .ddrForce] s t) ∧
  (∀ (s : State) (c : DramChan),
    fget s (fldDCH_STAT_RETRAINING c.val) = 1 →
    s.dramSelfReq = false →
    ∃ t, exec (.retrainDone c true) s = .next t ∧
      fget t fldDRAM_STAT_STATE = 2 ∧
      fget t (fldDCH_STAT_RETRAINING c.val) = 0 ∧
      fget t (fldDCH_STAT_TRAINED c.val) = 1 ∧
      t.xing[Fin.ofNat 52 (38 + c.val)].clkGood = true ∧
      t.dram[c].debt = [] ∧
      changesOnly [.regs, .dram, .xing] s t) ∧
  (∀ (s : State) (c : DramChan),
    fget s (fldDCH_STAT_RETRAINING c.val) = 1 →
    ∃ t, exec (.retrainDone c false) s = .next t ∧
      fget t fldDRAM_STAT_STATE = 5 ∧
      fget t fldDRAM_STAT_TRAIN_FAIL = 1 ∧
      fget t (fldDCH_STAT_TRAINED c.val) = 0 ∧
      t.xing = s.xing ∧
      changesOnly [.regs, .dram, .reports, .dramSelfReq] s t) ∧
  (∀ (s : State) (m : Fin 1024) (word : BitVec 20) (flips : BitVec 72),
    macroPresent s m.val = true →
    macroRemapped s m.val word.toNat = false →
    (sramDecode (sramFlips s m.val word.toNat ^^^ flips.toNat)).1 = .ce →
    ∃ t, exec (.sramScrub m word flips 0) s = .next t ∧
      fget t (fldMEMR_STAT_CE m.val) = 1 ∧
      counter t 429 = counter s 429 + 1 ∧
      changesOnly [.regs, .reports, .counters, .wraps, .tcmErr, .sramErr, .arcade, .l1d, .l1i] s t)

/-- R422, R425 to R434 and R446: a link that trains comes up with two lanes, and one that is up enters and leaves its low-power
state; a port that loses its path ends and logs its commands and loses its queue pairs; OCFG.EN brings the management pair up
and a function reset takes the endpoint back; a tail doorbell in range sets the tail, one out of range puts the pair in error;
a head doorbell releases posted entries; the block fetches an entry into a free context and sends its record, and without a
free one sets CTX_EXHAUSTED; a completion of a free context sets CPL_BAD; a coalesced vector is sent when its time is over.
Where a rule leaves a point open, the model's own choice stands (log 16, 17, 60, 61). -/
def Obligations.HostPortsAndQueues : Prop :=
  (∀ (s : State) (port : Port) (gen3 low : Bool),
    portPresent s.variant port.val = true →
    portEnabled s port.val = true →
    linkState s port.val = 1 →
    ∃ t, exec (.linkUp port ⟨gen3, low⟩) s = .next t ∧
      linkState t port.val = 2 ∧
      (fbit t (if port.val = 0 then fldHOST_STAT_LINK0 else fldHOST_STAT_LINK1) = true) ∧
      (regsBut s t [regHOST_STAT, if port.val = 0 then regHOST_LINK0 else regHOST_LINK1]) ∧
      changesOnly [.regs] s t) ∧
  (∀ (s : State) (port : Port) (gen3 low : Bool),
    portPresent s.variant port.val = true →
    portEnabled s port.val = true →
    (linkState s port.val = 2 ∨ linkState s port.val = 3) →
    ∃ t, exec (.linkUp port ⟨gen3, low⟩) s = .next t ∧
      (linkState t port.val = (if low then 3 else 2)) ∧
      (regsBut s t [if port.val = 0 then regHOST_LINK0 else regHOST_LINK1]) ∧
      changesOnly [.regs] s t) ∧
  (∀ (s : State) (port : Port),
    portPresent s.variant port.val = true →
    (linkState s port.val = 2 ∨ linkState s port.val = 3) →
    ∃ t, exec (.pathLoss port) s = .next t ∧
      (linkState t port.val = (if portEnabled s port.val then 1 else 0)) ∧
      (fbit t (if port.val = 0 then fldHOST_STAT_PATH_LOST0 else fldHOST_STAT_PATH_LOST1) = true) ∧
      counter t (491 + port.val) = counter s (491 + port.val) + 1 ∧
      t.host.ctxs.any (fun c => c.port == port.val) = false ∧
      t.host.qps.any (fun q => q.port == port.val) = false ∧
      t.arv.sessions = s.arv.sessions.filter (fun x => x.port != port.val) ∧
      changesOnly [.regs, .counters, .wraps, .host, .arv] s t) ∧
  (∀ (s : State) (port : Port),
    portPresent s.variant port.val = true →
    ∃ t, exec (.functionReset port) s = .next t ∧
      rd t (regOCFG port.val) = 0 ∧
      rd t (regOMQA port.val) = 0 ∧
      t.host.ctxs.any (fun c => c.port == port.val) = false ∧
      t.host.qps.any (fun q => q.port == port.val) = false ∧
      t.host.msixTab = s.host.msixTab.filter (fun e => e.1 / 256 != port.val) ∧
      (fbit t (if port.val = 0 then fldHOST_STAT_PATH_LOST0 else fldHOST_STAT_PATH_LOST1) = true) ∧
      changesOnly [.regs, .counters, .wraps, .host, .arv] s t) ∧
  (∀ (s : State) (port : Port),
    portPresent s.variant port.val = true →
    fbit s (fldOCFG_EN port.val) = false →
    s.host.qps.length < 512 →
    ∃ t, exec (.ocfgEnableWrite port true) s = .next t ∧
      fbit t (fldOCFG_EN port.val) = true ∧
      t.host.qps.length = s.host.qps.length + 1 ∧
      t.host.qps.getLast?.all (fun q => q.port == port.val && q.num == 0 && q.phase && !q.error) = true ∧
      fbit t (fldOSTS_RDY port.val) = (fbit s fldHOST_CTL_READY && !s.host.rdyHold) ∧
      regsBut s t [regOCFG port.val, regOSTS 0, regOSTS 1] ∧
      changesOnly [.regs, .host] s t) ∧
  (∀ (s : State) (port : Port) (q : Fin 512) (tail : BitVec 32) (x : Qpair),
    portPresent s.variant port.val = true →
    qpFind s port.val q.val = some x →
    tail.toNat < x.sqSize →
    ∃ t, exec (.sqTailDoorbell port q tail) s = .next t ∧
      (qpFind t port.val q.val).map (·.sqTail) = some tail.toNat ∧
      counter t 489 = counter s 489 + 1 ∧
      t.host.ctxs = s.host.ctxs ∧
      changesOnly [.host, .counters, .wraps] s t) ∧
  (∀ (s : State) (port : Port) (q : Fin 512) (tail : BitVec 32) (x : Qpair),
    portPresent s.variant port.val = true →
    qpFind s port.val q.val = some x →
    x.sqSize ≤ tail.toNat →
    ∃ t, exec (.sqTailDoorbell port q tail) s = .next t ∧
      (qpFind t port.val q.val).map (·.error) = some true ∧
      fget t fldHOST_STAT_DB_BAD = 1 ∧
      fget t fldHOST_STAT_QP_ERROR = 1 ∧
      regsBut s t [regHOST_STAT] ∧
      changesOnly [.regs, .host, .counters, .wraps] s t) ∧
  (∀ (s : State) (port : Port) (q : Fin 512) (head : BitVec 32) (x : Qpair),
    portPresent s.variant port.val = true →
    s.host.qps = [x] →
    x.port = port.val →
    x.num = q.val →
    x.held = [] →
    x.deleting = none →
    s.host.ctxs = [] →
    head.toNat < x.cqSize →
    (head.toNat + x.cqSize - x.cqHead) % x.cqSize ≤ (x.cqTail + x.cqSize - x.cqHead) % x.cqSize →
    ∃ t, exec (.cqHeadDoorbell port q head) s = .next t ∧
      t.host.qps = [{ x with cqHead := head.toNat }] ∧
      counter t 489 = counter s 489 + 1 ∧
      changesOnly [.host, .counters, .wraps] s t) ∧
  (∀ (s : State) (entry list : List Byte) (q : Qpair) (used n : Nat),
    fget s fldHOST_CTL_FETCH_EN = 1 →
    fetchPick s = some (q, used) →
    s.host.ctxs.length < clampNat (fget s fldHOST_CTX_MAX) 1 4096 →
    ctxFree s = some n →
    entry.length = 64 →
    s.host.ctxs.any (fun x => x.port == q.port && x.qp == q.num && ctxTag x == entryNum entry 2 2) = false →
    opcodeFits (entryNum entry 0 1) q.num = true →
    fieldsBad entry list = false →
    ∃ t, exec (.commandFetch (some entry) list) s = .next t ∧
      t.host.ctxs.map (·.num) = s.host.ctxs.map (·.num) ++ [n] ∧
      t.host.ctxs.getLast?.all (fun c => c.entry == entry && c.port == q.port && c.qp == q.num && c.sqHead == (q.sqHead + 1) % q.sqSize && !c.begun && c.done.isNone) = true ∧
      fget t fldHOST_CTX_IN_USE = (s.host.ctxs.length + 1) % 2 ^ 13 ∧
      counter t 490 = counter s 490 + 1) ∧
  (∀ (s : State) (entry : Option (List Byte)) (list : List Byte) (q : Qpair) (used : Nat),
    fget s fldHOST_CTL_FETCH_EN = 1 →
    fetchPick s = some (q, used) →
    clampNat (fget s fldHOST_CTX_MAX) 1 4096 ≤ s.host.ctxs.length →
    ∃ t, exec (.commandFetch entry list) s = .next t ∧
      fget t fldHOST_STAT_CTX_EXHAUSTED = 1 ∧
      regsBut s t [regHOST_STAT] ∧
      changesOnly [.regs] s t) ∧
  (∀ (s : State) (agent : Agent) (ctx : Fin 4096) (status : BitVec 15),
    ctxFind s ctx.val = none →
    ∃ t, exec (.hostCpl agent ctx status) s = .next t ∧
      fget t fldHOST_STAT_CPL_BAD = 1 ∧
      regsBut s t [regHOST_STAT] ∧
      changesOnly [.regs, .lastReply] s t) ∧
  (∀ (s : State) (agent : Agent) (ctx : Fin 4096) (status : BitVec 15) (c : HostCtx) (q : Qpair) (bs : List Byte),
    soleCommand s c q →
    ctx.val = c.num →
    memRead s 3 (ctxAddr s c.num + 64) 8 = (s, some (bs, false)) →
    ∃ t, exec (.hostCpl agent ctx status) s = .next t ∧
      completes s t c q status.toNat (leNat bs % 2 ^ 64) [] ∧
      fget t fldHOST_CTX_IN_USE = 0 ∧
      regsBut s t [regHOST_CTX] ∧
      changesOnly [.regs, .host, .counters, .wraps, .lastReply] s t) ∧
  (∀ (s : State) (port : Port) (q : Fin 512) (x : Qpair) (since : DWord),
    qpFind s port.val q.val = some x →
    x.unsig = some since →
    vectorMasked s port.val x.vector = false →
    ∃ t, exec (.msixCoalesceExpire port q) s = .next t ∧
      t.host.out = s.host.out ++ [.msix port.val x.vector] ∧
      (qpFind t port.val q.val).map (·.unsig) = some none ∧
      changesOnly [.host] s t)

/-- R435, R443 and R461: with one command of one queue pair held, which is not of a later turn, CREATE_QP creates the pair its
entry describes, DELETE_QP deletes a pair, ABORT of a tag that no command has answers 2, IDENTIFY and GET_LOG send their
report, each command then completes, its completion entry posted with its tag, status and RESULT and its vector sent; an
illegal field completes INVALID_FIELD; EVENT_WAIT is held, and an event that is logged completes it with the event's code.
Where a rule leaves a point open, the model's own choice stands (log 18, 60, 62). -/
def Obligations.HostManagementCommands : Prop :=
  (∀ (s : State) (ctx : Fin 4096) (c : HostCtx) (q : Qpair),
    soleCommand s c q →
    ctx.val = c.num →
    ctxOpcode c = 0x01 →
    entryNum c.entry 36 2 ≠ 0 →
    entryNum c.entry 36 2 ≤ 511 →
    (entryNum c.entry 36 2 ≠ q.num ∨ q.port ≠ c.port) →
    entryNum c.entry 38 2 ≠ 0 →
    entryNum c.entry 40 2 ≠ 0 →
    entryNum c.entry 8 8 % 4096 = 0 →
    entryNum c.entry 48 8 % 4096 = 0 →
    entryNum c.entry 42 1 ≤ 63 →
    1 ≤ entryNum c.entry 43 1 →
    entryNum c.entry 43 1 ≤ 16 →
    1 ≤ entryNum c.entry 44 2 →
    entryNum c.entry 44 2 ≤ 4096 →
    ∃ t, exec (.createQp ctx) s = .next t ∧
      completes s t c q 0 0 [] ∧
      t.host.qps.getLast? = some ⟨c.port, entryNum c.entry 36 2, entryNum c.entry 8 8, entryNum c.entry 48 8, entryNum c.entry 38 2 + 1, entryNum c.entry 40 2 + 1, entryNum c.entry 42 1, entryNum c.entry 43 1, entryNum c.entry 44 2, entryNum c.entry 46 1, 0, 0, 0, 0, true, false, [], none, none⟩ ∧
      regsBut s t [regHOST_CTX] ∧
      changesOnly [.regs, .host, .counters, .wraps] s t) ∧
  (∀ (s : State) (ctx : Fin 4096) (c : HostCtx) (q : Qpair),
    soleCommand s c q →
    ctx.val = c.num →
    ctxOpcode c = 0x02 →
    qpFind s c.port (entryNum c.entry 36 2) = none →
    ∃ t, exec (.deleteQp ctx) s = .next t ∧
      completes s t c q 2 0 [] ∧
      regsBut s t [regHOST_CTX] ∧
      changesOnly [.regs, .host, .counters, .wraps] s t) ∧
  (∀ (s : State) (ctx : Fin 4096) (c : HostCtx) (q x : Qpair),
    s.host.ctxs = [c] →
    s.host.qps = [q, x] →
    c.port = q.port →
    c.qp = q.num →
    x.port = q.port →
    x.num ≠ q.num →
    entryNum c.entry 36 2 = x.num →
    x.num ≠ 0 →
    c.done = none →
    c.waitFor = none →
    q.held = [] →
    x.held = [] →
    q.deleting = none →
    x.deleting = none →
    cqFull q = false →
    q.coal = 0 →
    vectorMasked s q.port q.vector = false →
    ctx.val = c.num →
    ctxOpcode c = 0x02 →
    ∃ t, exec (.deleteQp ctx) s = .next t ∧
      completes s t c q 0 0 [] ∧
      t.host.qps.map (·.num) = [q.num] ∧
      regsBut s t [regHOST_CTX] ∧
      changesOnly [.regs, .host, .counters, .wraps] s t) ∧
  (∀ (s : State) (ctx : Fin 4096) (c : HostCtx) (q : Qpair),
    soleCommand s c q →
    ctx.val = c.num →
    ctxOpcode c = 0x03 →
    entryNum c.entry 36 2 ≠ 0 →
    (¬(c.qp = entryNum c.entry 36 2 ∧ ctxTag c = entryNum c.entry 38 2)) →
    ∃ t, exec (.abort ctx) s = .next t ∧
      completes s t c q 0 2 [] ∧
      regsBut s t [regHOST_CTX] ∧
      changesOnly [.regs, .host, .counters, .wraps] s t) ∧
  (∀ (s : State) (ctx : Fin 4096) (c : HostCtx) (q : Qpair),
    soleCommand s c q →
    ctx.val = c.num →
    ctxOpcode c = 0x04 →
    ctxLen c = 4096 →
    ∃ t, exec (.identify ctx) s = .next t ∧
      (completes s t c q 0 0 [.report c.port ((c.segs.head?.map (·.1)).getD 0) [cap0 s.variant % 16, (if portPresent s.variant 1 then 2 else 1), 511, 4096, 4096, 8192, s.disc.present.toNat, s.disc.layers, 24 * s.disc.layers, s.disc.serial]]) ∧
      regsBut s t [regHOST_CTX] ∧
      changesOnly [.regs, .host, .counters, .wraps] s t) ∧
  (∀ (s : State) (ctx : Fin 4096) (c : HostCtx) (q : Qpair),
    soleCommand s c q →
    ctx.val = c.num →
    ctxOpcode c = 0x04 →
    ctxLen c ≠ 4096 →
    ∃ t, exec (.identify ctx) s = .next t ∧
      completes s t c q 2 0 [] ∧
      regsBut s t [regHOST_CTX] ∧
      changesOnly [.regs, .host, .counters, .wraps] s t) ∧
  (∀ (s : State) (ctx : Fin 4096) (c : HostCtx) (q : Qpair),
    soleCommand s c q →
    ctx.val = c.num →
    ctxOpcode c = 0x05 →
    entryNum c.entry 36 1 = 1 →
    ctxLen c = 4096 →
    s.host.events.length ≤ 128 →
    ∃ t, exec (.getLogEvents ctx) s = .next t ∧
      completes s t c q 0 s.host.events.length [.report c.port ((c.segs.head?.map (·.1)).getD 0) (s.host.events.flatMap (fun e => [e.code, e.oid, e.time.toNat]))] ∧
      regsBut s t [regHOST_CTX] ∧
      changesOnly [.regs, .host, .counters, .wraps] s t) ∧
  (∀ (s : State) (ctx : Fin 4096) (c : HostCtx) (q : Qpair),
    soleCommand s c q →
    ctx.val = c.num →
    ctxOpcode c = 0x05 →
    entryNum c.entry 36 1 = 2 →
    ctxLen c = 4096 →
    s.host.pathLog.length ≤ 128 →
    ∃ t, exec (.getLogPath ctx) s = .next t ∧
      completes s t c q 0 s.host.pathLog.length [.report c.port ((c.segs.head?.map (·.1)).getD 0) (s.host.pathLog.flatMap (fun e => [e.port, e.qp, e.tag, e.status, e.lba]))] ∧
      regsBut s t [regHOST_CTX] ∧
      changesOnly [.regs, .host, .counters, .wraps] s t) ∧
  (∀ (s : State) (ctx : Fin 4096) (c : HostCtx) (q : Qpair),
    soleCommand s c q →
    ctx.val = c.num →
    ctxOpcode c = 0x06 →
    c.begun = false →
    ∃ t, exec (.eventWait ctx) s = .next t ∧
      t.host.ctxs = [{ c with begun := true }] ∧
      t.host.out = s.host.out ∧
      changesOnly [.host] s t) ∧
  (∀ (s : State) (code : BitVec 16) (oid : BitVec 128) (c : HostCtx) (q : Qpair),
    soleCommand s c q →
    ctxOpcode c = 0x06 →
    c.begun = true →
    ∃ t, exec (.eventLogged code oid) s = .next t ∧
      completes s t c q 0 code.toNat [] ∧
      t.host.events = s.host.events ++ [⟨code.toNat, oid.toNat, s.chipTime⟩] ∧
      regsBut s t [regHOST_CTX] ∧
      changesOnly [.regs, .host, .counters, .wraps] s t)

/-- R438 to R442 and R464: with one command held and nothing that keeps it from the disc, READ sends the blocks that have come, in
order, and completes when all have, or ends at the first that fails with its LBA; a WRITE or APPEND opens its zone; when its
data is in staging the blocks lie at the write pointer, which follows; a FLUSH with nothing to cover completes, else waits,
and completes when the covered blocks are on the medium, or ends WRITE_FAULT with its zone READ_ONLY. Where a rule leaves a
point open, the model's own choice stands (log 19, 64). -/
def Obligations.HostReadsWritesAndFlushes : Prop :=
  (∀ (s : State) (ctx : Fin 4096) (medium : List MediumBlock) (c : HostCtx) (q : Qpair) (bs : List Byte) (lba n : Nat),
    soleCommand s c q →
    ctx.val = c.num →
    ctxOpcode c = 0x10 →
    ioGate s false true = none →
    countBad c 4096 = false →
    rangeBad s (ctxLba c) (ctxCount c) = none →
    lba = ctxLba c + c.moved →
    n = ctxCount c - c.moved →
    blocksRead s n lba medium = (bs, none) →
    bs.length = 4096 * n →
    ∃ t, exec (.read ctx medium) s = .next t ∧
      completes s t c q 0 0 ((overSegs (segsPast c.segs (4096 * c.moved)) bs).map (fun p => .data c.port p.1 p.2)) ∧
      memoryAs (siWalks s lba n) t ∧
      regsBut (siWalks s lba n) t [regHOST_CTX] ∧
      changesOnly [.regs, .host, .counters, .wraps] (siWalks s lba n) t) ∧
  (∀ (s : State) (ctx : Fin 4096) (medium : List MediumBlock) (c : HostCtx) (q : Qpair) (bs : List Byte) (lba n : Nat),
    soleCommand s c q →
    ctx.val = c.num →
    ctxOpcode c = 0x10 →
    ioGate s false true = none →
    countBad c 4096 = false →
    rangeBad s (ctxLba c) (ctxCount c) = none →
    lba = ctxLba c + c.moved →
    n = ctxCount c - c.moved →
    blocksRead s n lba medium = (bs, none) →
    bs.length ≠ 4096 * n →
    ∃ t, exec (.read ctx medium) s = .next t ∧
      t.host.ctxs = [{ c with begun := true, moved := c.moved + bs.length / 4096 }] ∧
      t.host.out = s.host.out ++ ((overSegs (segsPast c.segs (4096 * c.moved)) bs).map (fun p => .data c.port p.1 p.2)) ∧
      memoryAs (siWalks s lba n) t ∧
      regsBut (siWalks s lba n) t [] ∧
      changesOnly [.host] (siWalks s lba n) t) ∧
  (∀ (s : State) (ctx : Fin 4096) (medium : List MediumBlock) (c : HostCtx) (q : Qpair) (bs : List Byte) (lba n l st : Nat),
    soleCommand s c q →
    ctx.val = c.num →
    ctxOpcode c = 0x10 →
    ioGate s false true = none →
    countBad c 4096 = false →
    rangeBad s (ctxLba c) (ctxCount c) = none →
    lba = ctxLba c + c.moved →
    n = ctxCount c - c.moved →
    blocksRead s n lba medium = (bs, some (l, st)) →
    ∃ t, exec (.read ctx medium) s = .next t ∧
      completes s t c q st l ((overSegs (segsPast c.segs (4096 * c.moved)) bs).map (fun p => .data c.port p.1 p.2)) ∧
      memoryAs (siWalks s lba n) t ∧
      regsBut (siWalks s lba n) t [regHOST_CTX] ∧
      changesOnly [.regs, .host, .counters, .wraps] (siWalks s lba n) t) ∧
  (∀ (s : State) (ctx : Fin 4096) (medium : List MediumBlock) (c : HostCtx) (q : Qpair) (st : Nat),
    soleCommand s c q →
    ctx.val = c.num →
    ctxOpcode c = 0x10 →
    ioGate s false true = some st →
    ∃ t, exec (.read ctx medium) s = .next t ∧
      completes s t c q st 0 [] ∧
      regsBut s t [regHOST_CTX] ∧
      changesOnly [.regs, .host, .counters, .wraps] s t) ∧
  (∀ (s : State) (ctx : Fin 4096) (c : HostCtx) (q : Qpair),
    soleCommand s c q →
    ctx.val = c.num →
    ctxOpcode c = 0x11 →
    c.begun = false →
    ioGate s true true = none →
    1 ≤ ctxCount c →
    ctxCount c ≤ 8192 →
    ctxLen c = 4096 * ctxCount c →
    rangeBad s (ctxLba c) (ctxCount c) = none →
    zoneObject s (ctxLba c / zoneBlocks) = false →
    zoneBars s (ctxLba c / zoneBlocks) = none →
    ∃ t, exec (.write ctx) s = .next t ∧
      t.host.ctxs = [{ c with begun := true }] ∧
      zoneOf t (ctxLba c / zoneBlocks) = { zoneOf s (ctxLba c / zoneBlocks) with st := 1 } ∧
      t.disc.accepted = s.disc.accepted ∧
      changesOnly [.disc, .host] s t) ∧
  (∀ (s : State) (ctx : Fin 4096) (c : HostCtx) (q : Qpair),
    soleCommand s c q →
    ctx.val = c.num →
    ctxOpcode c = 0x12 →
    c.begun = false →
    ioGate s true true = none →
    1 ≤ ctxCount c →
    ctxCount c ≤ 8192 →
    ctxLen c = 4096 * ctxCount c →
    ctxLba c % zoneBlocks = 0 →
    rangeBad s (ctxLba c) (ctxCount c) = none →
    zoneObject s (ctxLba c / zoneBlocks) = false →
    zoneBars s (ctxLba c / zoneBlocks) = none →
    ∃ t, exec (.append ctx) s = .next t ∧
      t.host.ctxs = [{ c with begun := true }] ∧
      zoneOf t (ctxLba c / zoneBlocks) = { zoneOf s (ctxLba c / zoneBlocks) with st := 1 } ∧
      t.disc.accepted = s.disc.accepted ∧
      changesOnly [.disc, .host] s t) ∧
  (∀ (s : State) (ctx : Fin 4096) (data : List Byte) (c : HostCtx) (q : Qpair) (n : Nat),
    soleCommand s c q →
    ctx.val = c.num →
    (ctxOpcode c = 0x11 ∨ ctxOpcode c = 0x12) →
    c.begun = true →
    c.accepted = false →
    ctxFua c = false →
    n = ctxLba c / zoneBlocks →
    zoneBars s n = none →
    (ctxOpcode c = 0x12 ∨ ctxLba c = n * zoneBlocks + (zoneOf s n).wp) →
    (zoneOf s n).wp + ctxCount c < zoneCap s n →
    siRoom s n (n * zoneBlocks + (zoneOf s n).wp) = true →
    ∃ t, exec (.writeAccept ctx (some data)) s = .next t ∧
      (completes s t c q 0 (if ctxOpcode c = 0x12 then n * zoneBlocks + (zoneOf s n).wp else 0) []) ∧
      (zoneOf t n = { zoneOf s n with st := 1, wp := (zoneOf s n).wp + ctxCount c, heads := (if (zoneOf s n).wp = 0 then allocHeads s n else (zoneOf s n).heads) }) ∧
      t.disc.accepted.map (fun a => (a.lba, a.bytes)) = s.disc.accepted.map (fun a => (a.lba, a.bytes)) ++ ((List.range (ctxCount c)).zip (blocksOf (ctxCount c) data)).map (fun p => (n * zoneBlocks + (zoneOf s n).wp + p.1, cipher s (n * zoneBlocks + (zoneOf s n).wp + p.1) p.2)) ∧
      t.disc.index = (siAppend s n (zoneOf s n).wp (ctxCount c)).disc.index ∧
      memoryAs (siAppend s n (zoneOf s n).wp (ctxCount c)) t ∧
      regsBut (siAppend s n (zoneOf s n).wp (ctxCount c)) t [regHOST_CTX] ∧
      changesOnly [.regs, .host, .disc, .counters, .wraps, .mem, .poison, .arcade, .l1d, .dram, .dramErr, .chkErr, .tcmErr, .reports, .core] s t) ∧
  (∀ (s : State) (ctx : Fin 4096) (data : Option (List Byte)) (c : HostCtx) (q : Qpair) (n : Nat),
    soleCommand s c q →
    ctx.val = c.num →
    ctxOpcode c = 0x11 →
    c.begun = true →
    c.accepted = false →
    data.isSome = true →
    n = ctxLba c / zoneBlocks →
    zoneBars s n = none →
    ctxLba c ≠ n * zoneBlocks + (zoneOf s n).wp →
    ∃ t, exec (.writeAccept ctx data) s = .next t ∧
      completes s t c q stPointerMismatch 0 [] ∧
      regsBut s t [regHOST_CTX] ∧
      changesOnly [.regs, .host, .counters, .wraps] s t) ∧
  (∀ (s : State) (ctx : Fin 4096) (c : HostCtx) (q : Qpair),
    soleCommand s c q →
    ctx.val = c.num →
    ctxOpcode c = 0x13 →
    c.begun = false →
    ioGate s false false = none →
    writePresent s.variant = false →
    s.disc.accepted = [] →
    pointersKept s = true →
    ∃ t, exec (.flush ctx) s = .next t ∧
      completes s t c q 0 0 [] ∧
      regsBut s t [regHOST_CTX] ∧
      changesOnly [.regs, .host, .counters, .wraps] s t) ∧
  (∀ (s : State) (ctx : Fin 4096) (c : HostCtx) (q : Qpair),
    soleCommand s c q →
    ctx.val = c.num →
    ctxOpcode c = 0x13 →
    c.begun = false →
    ioGate s false false = none →
    writePresent s.variant = true →
    openZones s = 0 →
    pointersKept s = false →
    ∃ t, exec (.flush ctx) s = .next t ∧
      t.host.ctxs = [{ c with begun := true }] ∧
      t.host.out = s.host.out ∧
      t.disc = s.disc ∧
      changesOnly [.host] s t) ∧
  (∀ (s : State) (ctx : Fin 4096) (c : HostCtx) (q : Qpair),
    soleCommand s c q →
    ctx.val = c.num →
    ctxOpcode c = 0x13 →
    c.begun = true →
    snapsFit s = true →
    ∃ t, exec (.flushComplete ctx none []) s = .next t ∧
      completes s t c q 0 c.result [] ∧
      t.disc.accepted = s.disc.accepted.filter (fun a => decide (c.accAt ≤ a.seq)) ∧
      t.disc.snapZones = s.disc.zones ∧
      t.disc.zones = s.disc.zones ∧
      t.disc.index = s.disc.index ∧
      (catSnapDue s = true → t.arv.catSnap = s.arv.cat) ∧
      t.disc.recSeq = s.disc.recSeq + 1 + (catSnapDue s).toNat ∧
      regsBut s t [regHOST_CTX] ∧
      changesOnly [.regs, .host, .disc, .arv, .counters, .wraps] s t) ∧
  (∀ (s : State) (ctx : Fin 4096) (lba : BitVec 64) (c : HostCtx) (q : Qpair),
    soleCommand s c q →
    ctx.val = c.num →
    ctxOpcode c = 0x13 →
    c.begun = true →
    ∃ t, exec (.flushComplete ctx (some lba) []) s = .next t ∧
      completes s t c q stWriteFault lba.toNat [] ∧
      (zoneOf t (lba.toNat / zoneBlocks)).st = 4 ∧
      t.disc.accepted = s.disc.accepted ∧
      regsBut s t [regHOST_CTX] ∧
      changesOnly [.regs, .host, .disc, .counters, .wraps] s t)

/-- R435 to R439 and R447: with one command held and nothing that keeps it from the disc, ZONE_REPORT reports each zone;
ZONE_ACTION opens a zone or names the limit that stops it, closes an open zone after padding its last tile, or makes a zone
FULL; EXTENT_QUERY returns the entry that covers an LBA. Where a rule leaves a point open, the model's own choice stands (log
18, 19, 64). -/
def Obligations.HostZoneCommands : Prop :=
  (∀ (s : State) (ctx : Fin 4096) (c : HostCtx) (q : Qpair) (n k : Nat),
    soleCommand s c q →
    ctx.val = c.num →
    ctxOpcode c = 0x14 →
    ioGate s false false = none →
    1 ≤ ctxCount c →
    ctxCount c ≤ 8192 →
    ctxLen c = 32 * ctxCount c →
    ctxLba c = n * zoneBlocks →
    n < zoneCount s →
    k = Nat.min (ctxCount c) (zoneCount s - n) →
    ∃ t, exec (.zoneReport ctx) s = .next t ∧
      completes s t c q 0 k [.report c.port ((c.segs.head?.map (·.1)).getD 0) ((List.range k).flatMap (fun i => [n + i, zoneState s (n + i), (zoneOf s (n + i)).wp, zoneCap s (n + i)]))] ∧
      regsBut s t [regHOST_CTX] ∧
      changesOnly [.regs, .host, .counters, .wraps] s t) ∧
  (∀ (s : State) (ctx : Fin 4096) (c : HostCtx) (q : Qpair) (n : Nat),
    soleCommand s c q →
    ctx.val = c.num →
    ctxOpcode c = 0x15 →
    entryNum c.entry 36 1 = 0 →
    ioGate s true false = none →
    ctxLba c = n * zoneBlocks →
    n < zoneCount s →
    zoneBars s n = none →
    ∃ t, exec (.zoneOpen ctx) s = .next t ∧
      completes s t c q 0 (zoneOf s n).wp [] ∧
      zoneOf t n = { zoneOf s n with st := 1 } ∧
      regsBut s t [regHOST_CTX] ∧
      changesOnly [.regs, .host, .disc, .counters, .wraps] s t) ∧
  (∀ (s : State) (ctx : Fin 4096) (c : HostCtx) (q : Qpair) (n st : Nat),
    soleCommand s c q →
    ctx.val = c.num →
    ctxOpcode c = 0x15 →
    entryNum c.entry 36 1 = 0 →
    ioGate s true false = none →
    ctxLba c = n * zoneBlocks →
    n < zoneCount s →
    zoneBars s n = some st →
    ∃ t, exec (.zoneOpen ctx) s = .next t ∧
      completes s t c q st (zoneOf s n).wp [] ∧
      t.disc = s.disc ∧
      regsBut s t [regHOST_CTX] ∧
      changesOnly [.regs, .host, .counters, .wraps] s t) ∧
  (∀ (s : State) (ctx : Fin 4096) (c : HostCtx) (q : Qpair) (n up : Nat),
    soleCommand s c q →
    ctx.val = c.num →
    ctxOpcode c = 0x15 →
    entryNum c.entry 36 1 = 1 →
    ioGate s true false = none →
    ctxLba c = n * zoneBlocks →
    n < zoneCount s →
    zoneState s n = 1 →
    up = ((zoneOf s n).wp + 31) / 32 * 32 →
    (zoneOf s n).wp < up →
    up < zoneCap s n →
    ∃ t, exec (.zoneClose ctx) s = .next t ∧
      completes s t c q 0 up [] ∧
      zoneOf t n = { zoneOf s n with st := 2, wp := up, pads := (zoneOf s n).pads ++ [((zoneOf s n).wp, up)] } ∧
      regsBut s t [regHOST_CTX] ∧
      changesOnly [.regs, .host, .disc, .counters, .wraps] s t) ∧
  (∀ (s : State) (ctx : Fin 4096) (c : HostCtx) (q : Qpair) (n : Nat),
    soleCommand s c q →
    ctx.val = c.num →
    ctxOpcode c = 0x15 →
    entryNum c.entry 36 1 = 1 →
    ioGate s true false = none →
    ctxLba c = n * zoneBlocks →
    n < zoneCount s →
    zoneState s n ≠ 1 →
    ∃ t, exec (.zoneClose ctx) s = .next t ∧
      completes s t c q 0 (zoneOf s n).wp [] ∧
      t.disc = s.disc ∧
      regsBut s t [regHOST_CTX] ∧
      changesOnly [.regs, .host, .counters, .wraps] s t) ∧
  (∀ (s : State) (ctx : Fin 4096) (c : HostCtx) (q : Qpair) (n : Nat),
    soleCommand s c q →
    ctx.val = c.num →
    ctxOpcode c = 0x15 →
    entryNum c.entry 36 1 = 2 →
    ioGate s true false = none →
    ctxLba c = n * zoneBlocks →
    n < zoneCount s →
    zoneState s n < 3 →
    (zoneOf s n).wp % 32 = 0 →
    (zoneOf s n).wp < zoneCap s n →
    ∃ t, exec (.zoneFinish ctx) s = .next t ∧
      completes s t c q 0 (zoneCap s n) [] ∧
      zoneOf t n = { zoneOf s n with st := 3, wp := zoneCap s n, pads := (zoneOf s n).pads ++ [((zoneOf s n).wp, zoneCap s n)] } ∧
      regsBut s t [regHOST_CTX] ∧
      changesOnly [.regs, .host, .disc, .counters, .wraps] s t) ∧
  (∀ (s : State) (ctx : Fin 4096) (c : HostCtx) (q : Qpair) (i : Nat) (x : SiEntry),
    soleCommand s c q →
    ctx.val = c.num →
    ctxOpcode c = 0x16 →
    ioGate s false false = none →
    ctxLen c = 32 →
    rangeBad s (ctxLba c) 1 = none →
    siLookup s (ctxLba c) = some (i, x) →
    ∃ t, exec (.extentQuery ctx) s = .next t ∧
      completes s t c q 0 i ((overSegs c.segs (siBytes x)).map (fun p => .data c.port p.1 p.2)) ∧
      memoryAs (siWalk s (ctxLba c)) t ∧
      regsBut (siWalk s (ctxLba c)) t [regHOST_CTX] ∧
      changesOnly [.regs, .host, .counters, .wraps] (siWalk s (ctxLba c)) t) ∧
  (∀ (s : State) (ctx : Fin 4096) (c : HostCtx) (q : Qpair),
    soleCommand s c q →
    ctx.val = c.num →
    ctxOpcode c = 0x16 →
    ioGate s false false = none →
    ctxLen c = 32 →
    rangeBad s (ctxLba c) 1 = none →
    siLookup s (ctxLba c) = none →
    ∃ t, exec (.extentQuery ctx) s = .next t ∧
      completes s t c q stUnwritten 0 [] ∧
      memoryAs (siWalk s (ctxLba c)) t ∧
      regsBut (siWalk s (ctxLba c)) t [regHOST_CTX] ∧
      changesOnly [.regs, .host, .counters, .wraps] (siWalk s (ctxLba c)) t)

/-- R457 to R461 and R463: with one command held and nothing that keeps it from the archive, the first part of a PUT makes a
PENDING entry and reserves blocks at the write pointer of the object zone that takes it, and a last part ends the object
STORED with the SHA-256 of its bytes; GET sends an object's bytes, LIST its catalogue entries; a PENDING object is abandoned
with an event; a WEAK object that is written again and matches is repointed. Also: R462 and R463: AUDIT of an object begins
its audit, and the engine's walk takes the next due object or ends its lap; a completion record that the engine consumes adds
its tile; an audit whose bytes match sets the object STORED with a new audit time and count, one with a missing tile sets it
LOST; a weak-tile notice sets the object's WEAK flag. Where a rule leaves a point open, the model's own choice stands (log 20,
65). -/
def Obligations.ArchiveObjectsAndAudits : Prop :=
  (∀ (s : State) (ctx : Fin 4096) (bs : List Byte) (c : HostCtx) (q : Qpair) (n : Nat),
    soleCommand s c q →
    ctx.val = c.num →
    ctxOpcode c = 0x20 →
    c.accepted = false →
    ctxFua c = false →
    objGate s true = none →
    ctxPart c = 0 →
    ctxLast c = false →
    ctxOid c ≠ 0 →
    catFind s (ctxOid c) = none →
    s.arv.cat.length < 262144 →
    1 ≤ ctxCount c →
    ctxCount c ≤ 8192 →
    ctxLen c = 4096 * ctxCount c →
    bs.length = ctxLen c →
    4096 * ctxCount c < ctxLba c →
    ctxLba c ≤ (objectZones s).foldl (fun m n => Nat.max m (zoneCap s n)) 0 * 4096 →
    (objectPlace s (objBlocks (ctxLba c))).toOption = some n →
    siRoom s n (n * zoneBlocks + (zoneOf s n).wp) = true →
    ∃ t, exec (.put ctx (some bs)) s = .next t ∧
      completes s t c q 0 (n * zoneBlocks + (zoneOf s n).wp) [] ∧
      t.arv.cat = catInsert s.arv.cat ⟨ctxOid c, ctxLba c, n * zoneBlocks + (zoneOf s n).wp, List.replicate 32 0, 0, 0, 0, 1, 0, n, 0⟩ ∧
      (zoneOf t n).wp = (zoneOf s n).wp + objBlocks (ctxLba c) ∧
      t.disc.accepted.map (fun a => (a.lba, a.bytes)) = s.disc.accepted.map (fun a => (a.lba, a.bytes)) ++ ((List.range (ctxCount c)).zip (blocksOf (ctxCount c) bs)).map (fun p => (n * zoneBlocks + (zoneOf s n).wp + p.1, cipher s (n * zoneBlocks + (zoneOf s n).wp + p.1) p.2)) ∧
      memoryAs (catStore (reserve (catWalk s (ctxOid c)) n (objBlocks (ctxLba c))) t.arv.cat) t ∧
      regsBut (catStore (reserve (catWalk s (ctxOid c)) n (objBlocks (ctxLba c))) t.arv.cat) t [regHOST_CTX] ∧
      changesOnly [.regs, .host, .disc, .arv, .counters, .wraps, .mem, .poison, .arcade, .l1d, .l1i, .dram, .dramErr, .chkErr, .tcmErr, .reports, .core] s t) ∧
  (∀ (s : State) (ctx : Fin 4096) (bs : List Byte) (c : HostCtx) (q : Qpair) (p : PutStream) (x : CatEntry),
    soleCommand s c q →
    ctx.val = c.num →
    ctxOpcode c = 0x20 →
    c.accepted = false →
    ctxFua c = false →
    objGate s true = none →
    ctxPart c = p.next →
    p.next ≠ 0 →
    ctxLast c = true →
    ctxVerify c = false →
    ctxLba c = 0 →
    s.arv.puts = [p] →
    p.oid = ctxOid c →
    s.arv.cat = [x] →
    x.oid = ctxOid c →
    bs.length = ctxLen c →
    p.bytes.length + ctxLen c = x.len →
    1 ≤ ctxCount c →
    ctxCount c ≤ 8192 →
    ctxCount c = objBlocks (ctxLen c) →
    ∃ t, exec (.put ctx (some bs)) s = .next t ∧
      completes s t c q 0 (leNat ((sha256 (p.bytes ++ bs)).take 8)) [] ∧
      t.arv.cat = [{ x with st := 2, digest := sha256 (p.bytes ++ bs), putTime := archiveTime s }] ∧
      t.arv.puts = [] ∧
      memoryAs (catStore (catWalk s (ctxOid c)) t.arv.cat) t ∧
      regsBut (catStore (catWalk s (ctxOid c)) t.arv.cat) t [regHOST_CTX] ∧
      changesOnly [.regs, .host, .disc, .arv, .counters, .wraps, .mem, .poison, .arcade, .l1d, .l1i, .dram, .dramErr, .chkErr, .tcmErr, .reports, .core] s t) ∧
  (∀ (s : State) (ctx : Fin 4096) (data : Option (List Byte)) (c : HostCtx) (q : Qpair) (st : Nat),
    soleCommand s c q →
    ctx.val = c.num →
    ctxOpcode c = 0x20 →
    c.accepted = false →
    objGate s true = some st →
    ∃ t, exec (.put ctx data) s = .next t ∧
      completes s t c q st 0 [] ∧
      regsBut s t [regHOST_CTX] ∧
      changesOnly [.regs, .host, .counters, .wraps] s t) ∧
  (∀ (s : State) (ctx : Fin 4096) (medium : List MediumBlock) (c : HostCtx) (q : Qpair) (x : CatEntry) (bs : List Byte) (want : Nat),
    soleCommand s c q →
    ctx.val = c.num →
    ctxOpcode c = 0x21 →
    objGate s false = none →
    catFind s (ctxOid c) = some x →
    x.st = 2 →
    getVerify c = false →
    1 ≤ ctxCount c →
    ctxCount c ≤ 8192 →
    ctxLen c = 4096 * ctxCount c →
    ctxLba c % 4096 = 0 →
    want = Nat.min (4096 * ctxCount c) (x.len - ctxLba c) →
    blocksRead s (objBlocks want) (x.lba + ctxLba c / 4096) medium = (bs, none) →
    bs.length = 4096 * objBlocks want →
    ∃ t, exec (.get ctx medium) s = .next t ∧
      completes s t c q 0 (bs.take want).length ((overSegs c.segs (bs.take want)).map (fun p => .data c.port p.1 p.2)) ∧
      memoryAs (siWalks (catWalk s (ctxOid c)) (x.lba + ctxLba c / 4096) (objBlocks want)) t ∧
      regsBut (siWalks (catWalk s (ctxOid c)) (x.lba + ctxLba c / 4096) (objBlocks want)) t [regHOST_CTX] ∧
      changesOnly [.regs, .host, .counters, .wraps] (siWalks (catWalk s (ctxOid c)) (x.lba + ctxLba c / 4096) (objBlocks want)) t) ∧
  (∀ (s : State) (ctx : Fin 4096) (medium : List MediumBlock) (c : HostCtx) (q : Qpair),
    soleCommand s c q →
    ctx.val = c.num →
    ctxOpcode c = 0x21 →
    objGate s false = none →
    (catFind s (ctxOid c)).all (fun x => x.st = 1) = true →
    ∃ t, exec (.get ctx medium) s = .next t ∧
      completes s t c q stObjectNotFound 0 [] ∧
      memoryAs (catWalk s (ctxOid c)) t ∧
      regsBut (catWalk s (ctxOid c)) t [regHOST_CTX] ∧
      changesOnly [.regs, .host, .counters, .wraps] (catWalk s (ctxOid c)) t) ∧
  (∀ (s : State) (ctx : Fin 4096) (c : HostCtx) (q : Qpair) (l : List CatEntry),
    soleCommand s c q →
    ctx.val = c.num →
    ctxOpcode c = 0x22 →
    objGate s false = none →
    1 ≤ ctxCount c →
    ctxCount c ≤ 8192 →
    ctxLen c = 128 * ctxCount c →
    l = (s.arv.cat.filter (fun x => decide (ctxOid c ≤ x.oid))).take (ctxCount c) →
    ∃ t, exec (.list ctx) s = .next t ∧
      completes s t c q 0 l.length ((overSegs c.segs (l.flatMap catBytes)).map (fun p => .data c.port p.1 p.2)) ∧
      memoryAs (catWalk s (ctxOid c)) t ∧
      regsBut (catWalk s (ctxOid c)) t [regHOST_CTX] ∧
      changesOnly [.regs, .host, .counters, .wraps] (catWalk s (ctxOid c)) t) ∧
  (∀ (s : State) (oid : BitVec 128) (x : CatEntry),
    catFind s oid.toNat = some x →
    x.st = 1 →
    eventWaits s = [] →
    ∃ t, exec (.pendingAbandon oid) s = .next t ∧
      t.arv.cat = s.arv.cat.filter (fun y => y.oid != oid.toNat) ∧
      t.arv.puts = s.arv.puts.filter (fun y => y.oid != oid.toNat) ∧
      fget t fldARV_STAT_ABANDONED = 1 ∧
      t.host.events = s.host.events ++ [⟨stAborted, oid.toNat, s.chipTime⟩] ∧
      (zoneOf t (x.lba / zoneBlocks)).pads.contains (x.lba % zoneBlocks, x.lba % zoneBlocks + objBlocks x.len) = true ∧
      memoryAs (catFree s oid.toNat) t ∧
      regsBut (catFree s oid.toNat) t [regARV_STAT] ∧
      changesOnly [.regs, .host, .disc, .arv, .counters, .wraps, .mem, .poison, .arcade, .l1d, .l1i, .dram, .dramErr, .chkErr, .tcmErr, .reports, .core] s t) ∧
  (∀ (s : State) (oid : BitVec 128) (copy : List Byte) (x : CatEntry) (n : Nat),
    s.arv.cat = [x] →
    x.oid = oid.toNat →
    objGate s true = none →
    fbit s fldARV_CTL_REFRESH_EN = true →
    x.flags % 2 = 1 →
    (x.st = 2 ∨ x.st = 3) →
    (objectPlace s (objBlocks x.len)).toOption = some n →
    siRoom s n (n * zoneBlocks + (zoneOf s n).wp) = true →
    sha256 (copy.take x.len) = x.digest →
    ∃ t, exec (.weakRefresh oid copy) s = .next t ∧
      t.arv.cat = [{ x with lba := n * zoneBlocks + (zoneOf s n).wp, hzone := n, prevLba := x.lba, flags := 2 }] ∧
      counter t 495 = counter s 495 + 1 ∧
      memoryAs (catStore (reserve s n (objBlocks x.len)) t.arv.cat) t ∧
      regsBut (catStore (reserve s n (objBlocks x.len)) t.arv.cat) t [] ∧
      changesOnly [.regs, .disc, .arv, .counters, .wraps, .mem, .poison, .arcade, .l1d, .l1i, .dram, .dramErr, .chkErr, .tcmErr, .reports, .core] s t) ∧
  (∀ (s : State) (ctx : Fin 4096) (c : HostCtx) (q : Qpair) (x : CatEntry),
    soleCommand s c q →
    ctx.val = c.num →
    ctxOpcode c = 0x23 →
    c.begun = false →
    objGate s false = none →
    catFind s (ctxOid c) = some x →
    x.st ≠ 1 →
    ∃ t, exec (.audit ctx) s = .next t ∧
      t.host.ctxs = [{ c with begun := true }] ∧
      t.host.out = s.host.out ∧
      t.arv.audits = s.arv.audits ++ [⟨x.oid, some c.num, x.lba, objTiles s x, [], [], false⟩] ∧
      t.arv.cat = s.arv.cat ∧
      memoryAs (auditBegin (catWalk s (ctxOid c)) x (some c.num)) t ∧
      t.fifo = (auditBegin (catWalk s (ctxOid c)) x (some c.num)).fifo ∧
      regsBut (auditBegin (catWalk s (ctxOid c)) x (some c.num)) t [] ∧
      changesOnly [.regs, .host, .arv, .fifo, .counters, .wraps, .mem, .poison, .arcade, .l1d, .l1i, .dram, .dramErr, .chkErr, .tcmErr, .reports, .core] s t) ∧
  (∀ (s : State) (ctx : Fin 4096) (c : HostCtx) (q : Qpair),
    soleCommand s c q →
    ctx.val = c.num →
    ctxOpcode c = 0x23 →
    c.begun = false →
    objGate s false = none →
    catFind s (ctxOid c) = none →
    ∃ t, exec (.audit ctx) s = .next t ∧
      completes s t c q stObjectNotFound 0 [] ∧
      memoryAs (catWalk s (ctxOid c)) t ∧
      regsBut (catWalk s (ctxOid c)) t [regHOST_CTX] ∧
      changesOnly [.regs, .host, .counters, .wraps] (catWalk s (ctxOid c)) t) ∧
  (∀ (s : State) (i : Nat) (x : CatEntry),
    archivePresent s.variant = true →
    fbit s fldARV_CTL_AUDIT_EN = true →
    discLockedKey s = false →
    s.arv.audits = [] →
    s.arv.cat = [x] →
    i = 0 →
    fget s fldARV_CURSOR_INDEX = 0 →
    auditDue s x = true →
    ∃ t, exec (.auditWalk) s = .next t ∧
      t.arv.audits = [⟨x.oid, none, x.lba, objTiles s x, [], [], false⟩] ∧
      fget t fldARV_CURSOR_INDEX = 0 ∧
      fget t fldARV_STAT_LAP = 1 ∧
      t.arv.cat = s.arv.cat ∧
      memoryAs (auditBegin s x none) t ∧
      regsBut (auditBegin s x none) t [regARV_CURSOR, regARV_STAT] ∧
      changesOnly [.regs, .arv, .fifo, .counters, .wraps, .mem, .poison, .arcade, .l1d, .l1i, .dram, .dramErr, .chkErr, .tcmErr, .reports, .core] s t) ∧
  (∀ (s : State),
    archivePresent s.variant = true →
    fbit s fldARV_CTL_AUDIT_EN = true →
    discLockedKey s = false →
    s.arv.audits = [] →
    s.arv.cat = [] →
    ∃ t, exec (.auditWalk) s = .next t ∧
      fget t fldARV_CURSOR_INDEX = 0 ∧
      fget t fldARV_STAT_LAP = 1 ∧
      regsBut s t [regARV_CURSOR, regARV_STAT] ∧
      changesOnly [.regs] s t) ∧
  (∀ (s : State) (base : BitVec 40) (r : BitVec 256),
    archivePresent s.variant = true →
    fget s (fldFIFO_CFG_CONSUMER 10) = Agent.archive.id →
    s.fifo[(10 : Fin 14)].stage = [r] →
    fifoHeadStaged s.fifo[(10 : Fin 14)] = true →
    s.fifo[(10 : Fin 14)].waiting = [] →
    fifoCount s 10 = 1 →
    ∃ t, exec (.auditRecordConsume base) s = .next t ∧
      (t.arv.audits = s.arv.audits.map (fun u => if u.tiles.contains (recPta r) then auditTake u r ((memRead s 4 base.toNat 131072).2.bind (fun p => if p.2 then none else some p.1)) else u)) ∧
      t.arv.cat = s.arv.cat ∧
      fget t (fldFIFO_STAT_COUNT 10) = 0 ∧
      memoryAs (memRead s 4 base.toNat 131072).1 t ∧
      changesOnly [.regs, .arv, .fifo, .counters, .wraps, .mem, .poison, .arcade, .l1d, .l1i, .dram, .dramErr, .chkErr, .reports] s t) ∧
  (∀ (s : State) (oid : BitVec 128) (x : CatEntry) (a : Audit) (bs : List Byte),
    s.arv.cat = [x] →
    x.oid = oid.toNat →
    s.arv.audits = [a] →
    a.oid = oid.toNat →
    a.lba = x.lba →
    a.ctx = none →
    auditWhole a = true →
    discLockedKey s = false →
    a.weak = false →
    auditBytes s x a = some bs →
    sha256 bs = x.digest →
    ∃ t, exec (.auditResult oid) s = .next t ∧
      t.arv.cat = [{ x with st := 2, auditTime := archiveTime s, auditCount := x.auditCount + 1 }] ∧
      t.arv.audits = [] ∧
      counter t 493 = counter s 493 + 1 ∧
      memoryAs (catStore s t.arv.cat) t ∧
      regsBut (catStore s t.arv.cat) t [] ∧
      changesOnly [.regs, .arv, .counters, .wraps, .mem, .poison, .arcade, .l1d, .l1i, .dram, .dramErr, .chkErr, .tcmErr, .reports, .core] s t) ∧
  (∀ (s : State) (oid : BitVec 128) (x : CatEntry) (a : Audit),
    s.arv.cat = [x] →
    x.oid = oid.toNat →
    s.arv.audits = [a] →
    a.oid = oid.toNat →
    a.lba = x.lba →
    a.ctx = none →
    auditWhole a = true →
    discLockedKey s = false →
    auditBytes s x a = none →
    eventWaits s = [] →
    ∃ t, exec (.auditResult oid) s = .next t ∧
      t.arv.cat = [{ x with st := 4 }] ∧
      t.arv.audits = [] ∧
      t.host.events = s.host.events ++ [⟨stUnrecovered, x.oid, s.chipTime⟩] ∧
      memoryAs (catStore s t.arv.cat) t ∧
      regsBut (catStore s t.arv.cat) t [] ∧
      changesOnly [.regs, .host, .arv, .counters, .wraps, .mem, .poison, .arcade, .l1d, .l1i, .dram, .dramErr, .chkErr, .tcmErr, .reports, .core] s t) ∧
  (∀ (s : State) (x : CatEntry) (pta : BitVec 32) (mg : Nat),
    s.weakTiles = [(pta, mg)] →
    s.arv.cat = [x] →
    x.st ≠ 1 →
    (objTiles s x).contains pta.toNat = true →
    ∃ t, exec (.weakTileNotice) s = .next t ∧
      t.arv.cat = [{ x with flags := x.flags / 2 * 2 + 1 }] ∧
      t.weakTiles = [] ∧
      fget t fldARV_STAT_WEAK = 1 ∧
      memoryAs (catStore s t.arv.cat) t ∧
      regsBut (catStore s t.arv.cat) t [regARV_STAT] ∧
      changesOnly [.regs, .arv, .weakTiles, .counters, .wraps, .mem, .poison, .arcade, .l1d, .l1i, .dram, .dramErr, .chkErr, .tcmErr, .reports, .core] s t)

/-- R466 to R470: with one command held, OPEN_SESSION with the admin key opens a session with the handle that the generator gives
and sets FAILS to 0; a wrong key counts, the fifth locks out, and the attempt completes KEY_MISMATCH after its 100 ms;
CLOSE_SESSION, LOCK_MEDIA and PROGRESS do what they name, a command without its session completes SESSION_REQUIRED, an idle
session closes, and SET_ADMIN_KEY on a clear disc stores a new verifier. The handle and the salt are free values (log 1).
Where a rule leaves a point open, the model's own choice stands (log 1, 66). -/
def Obligations.SessionsAndMediaKeys : Prop :=
  (∀ (s : State) (ctx : Fin 4096) (key : List Byte) (c : HostCtx) (q : Qpair),
    soleCommand s c q →
    ctx.val = c.num →
    ctxOpcode c = 0x30 →
    s.arv.waiting = [] →
    fbit s fldKEY_STAT_LOCKOUT = false →
    s.arv.sessions.length < 4 →
    ctxLen c = 32 →
    key.length = 32 →
    keyRight s key = true →
    discEncrypted s = false →
    fbit s fldJNL_STAT_WAIT_SESSION = false →
    ∃ t, exec (.openSession ctx (some key)) s = .next t ∧
      completes s t c q 0 (freeNat s 1) [] ∧
      t.arv.sessions = s.arv.sessions ++ [⟨freeNat s 1, c.port, s.chipTime, key⟩] ∧
      fget t fldKEY_STAT_FAILS = 0 ∧
      fget t fldKEY_STAT_SESSIONS = s.arv.sessions.length + 1 ∧
      counter t 496 = counter s 496 + 1 ∧
      regsBut s t [regHOST_CTX, regKEY_STAT] ∧
      changesOnly [.regs, .host, .arv, .freeCtr, .counters, .wraps] s t) ∧
  (∀ (s : State) (ctx : Fin 4096) (key : List Byte) (c : HostCtx) (q : Qpair),
    soleCommand s c q →
    ctx.val = c.num →
    ctxOpcode c = 0x30 →
    s.arv.waiting = [] →
    fbit s fldKEY_STAT_LOCKOUT = false →
    fbit s fldKEY_STAT_LOCKED_OUT = false →
    s.arv.sessions.length < 4 →
    ctxLen c = 32 →
    key.length = 32 →
    keyRight s key = false →
    fget s fldKEY_STAT_FAILS < 5 →
    ∃ t, exec (.openSession ctx (some key)) s = .next t ∧
      t.arv.waiting = [c.num] ∧
      fget t fldKEY_STAT_FAILS = fget s fldKEY_STAT_FAILS + 1 ∧
      fbit t fldKEY_STAT_LOCKOUT = (fget s fldKEY_STAT_FAILS == 4) ∧
      fbit t fldKEY_STAT_LOCKED_OUT = (fget s fldKEY_STAT_FAILS == 4) ∧
      t.host.out = s.host.out ∧
      t.arv.sessions = s.arv.sessions ∧
      regsBut s t [regKEY_STAT] ∧
      changesOnly [.regs, .host, .arv] s t) ∧
  (∀ (s : State) (ctx : Fin 4096) (key : Option (List Byte)) (c : HostCtx) (q : Qpair),
    soleCommand s c q →
    ctx.val = c.num →
    ctxOpcode c = 0x30 →
    s.arv.waiting = [] →
    fbit s fldKEY_STAT_LOCKOUT = true →
    ∃ t, exec (.openSession ctx key) s = .next t ∧
      completes s t c q stSessionLocked 0 [] ∧
      regsBut s t [regHOST_CTX] ∧
      changesOnly [.regs, .host, .counters, .wraps] s t) ∧
  (∀ (s : State) (c : HostCtx) (q : Qpair),
    soleCommand s c q →
    s.arv.waiting = [c.num] →
    ∃ t, exec (.keyMismatchDelay) s = .next t ∧
      completes s t c q stKeyMismatch 0 [] ∧
      t.arv.waiting = [] ∧
      counter t 497 = counter s 497 + 1 ∧
      regsBut s t [regHOST_CTX] ∧
      changesOnly [.regs, .host, .arv, .counters, .wraps] s t) ∧
  (∀ (s : State) (ctx : Fin 4096) (c : HostCtx) (q : Qpair) (x : Session),
    soleCommand s c q →
    ctx.val = c.num →
    ctxOpcode c = 0x31 →
    s.arv.sessions = [x] →
    sessionOf s c = some x →
    ∃ t, exec (.closeSession ctx) s = .next t ∧
      completes s t c q 0 0 [] ∧
      t.arv.sessions = [] ∧
      fget t fldKEY_STAT_SESSIONS = 0 ∧
      regsBut s t [regHOST_CTX, regKEY_STAT] ∧
      changesOnly [.regs, .host, .arv, .counters, .wraps] s t) ∧
  (∀ (s : State) (ctx : Fin 4096) (c : HostCtx) (q : Qpair),
    soleCommand s c q →
    ctx.val = c.num →
    ctxOpcode c = 0x31 →
    sessionOf s c = none →
    ∃ t, exec (.closeSession ctx) s = .next t ∧
      completes s t c q stSessionRequired 0 [] ∧
      regsBut s t [regHOST_CTX] ∧
      changesOnly [.regs, .host, .counters, .wraps] s t) ∧
  (∀ (s : State) (ctx : Fin 4096) (key : List Byte) (c : HostCtx) (q : Qpair),
    soleCommand s c q →
    ctx.val = c.num →
    ctxOpcode c = 0x32 →
    s.arv.opCtx = none →
    s.arv.verifier = none →
    jnlRuns s = false →
    discEncrypted s = false →
    ctxLen c = 32 →
    key.length = 32 →
    ∃ t, exec (.setAdminKey ctx (some key)) s = .next t ∧
      completes s t c q 0 0 [] ∧
      t.arv.verifier = some (freeBytes s 32, sha256 (freeBytes s 32 ++ key)) ∧
      t.arv.sessions = s.arv.sessions.map (fun x => { x with key := key }) ∧
      fget t fldKEY_STAT_KEY_SET = 1 ∧
      regsBut s t [regHOST_CTX, regKEY_STAT] ∧
      changesOnly [.regs, .host, .arv, .freeCtr, .counters, .wraps] s t) ∧
  (∀ (s : State) (ctx : Fin 4096) (c : HostCtx) (q : Qpair),
    soleCommand s c q →
    ctx.val = c.num →
    ctxOpcode c = 0x35 →
    ∃ t, exec (.progress ctx) s = .next t ∧
      completes s t c q 0 (fget s fldJNL_STAT_OP * 2 ^ 60 + fget s fldJNL_STAT_PHASE * 2 ^ 56 + fget s fldJNL_STAT_PERMILLE * 2 ^ 46) [] ∧
      regsBut s t [regHOST_CTX] ∧
      changesOnly [.regs, .host, .counters, .wraps] s t) ∧
  (∀ (s : State) (ctx : Fin 4096) (c : HostCtx) (q : Qpair) (x : Session),
    soleCommand s c q →
    ctx.val = c.num →
    ctxOpcode c = 0x36 →
    sessionOf s c = some x →
    ∃ t, exec (.lockMedia ctx) s = .next t ∧
      completes s t c q 0 0 [] ∧
      t.arv.mediaKey = none ∧
      fget t fldKEY_STAT_MEDIA = (discEncrypted s).toNat ∧
      regsBut s t [regHOST_CTX, regKEY_STAT] ∧
      changesOnly [.regs, .host, .arv, .counters, .wraps] s t) ∧
  (∀ (s : State) (handle : BitVec 32),
    s.arv.sessions.any (fun x => x.handle == handle.toNat) = true →
    ∃ t, exec (.sessionTimeout handle) s = .next t ∧
      t.arv.sessions = s.arv.sessions.filter (fun x => x.handle != handle.toNat) ∧
      fget t fldKEY_STAT_TIMEOUT = 1 ∧
      regsBut s t [regKEY_STAT] ∧
      changesOnly [.regs, .arv] s t)

/-- R449, R466, R471 to R475 and R91: FORMAT and SANITISE with a session write their first journal entry, which the disc mirrors,
and complete; an entry then records the operation's phase and progress, and the last one of a SANITISE sets the disc DEGAUSSED
and JNL_DONE; a mount takes what the disc information block and the format record hold; removal drops the media key and what
was known of the disc. Where a rule leaves a point open, the model's own choice stands (log 20, 67, 68). -/
def Obligations.JournaledOperationsAndMounting : Prop :=
  (∀ (s : State) (ctx : Fin 4096) (bs : List Byte) (c : HostCtx) (q : Qpair) (x : Session),
    soleCommand s c q →
    ctx.val = c.num →
    ctxOpcode c = 0x33 →
    writePresent s.variant = true →
    sessionOf s c = some x →
    adminGate s = none →
    s.disc.family = 1 →
    s.disc.format = none →
    ctxLen c = 4096 →
    bs.length = 4096 →
    paramLegal s bs = true →
    ∃ t, exec (.format ctx (some bs)) s = .next t ∧
      completes s t c q 0 0 [] ∧
      fget t fldJNL_STAT_OP = 1 ∧
      fget t fldJNL_STAT_PHASE = 1 ∧
      t.arv.journal.head?.map (fun y => (y.op, y.phase, y.serial, y.body)) = some (1, 1, s.disc.serial, bs.take 112) ∧
      t.disc = (match t.arv.journal.head? with | some y => { (recMirror s (jnlBytes y)).disc with mirror := some y } | none => s.disc) ∧
      t.arv.opKey = x.key ∧
      counter t 498 = counter s 498 + 1 ∧
      regsBut s t [regHOST_CTX, regJNL_STAT] ∧
      changesOnly [.regs, .host, .arv, .disc, .freeCtr, .counters, .wraps] s t) ∧
  (∀ (s : State) (ctx : Fin 4096) (c : HostCtx) (q : Qpair) (x : Session),
    soleCommand s c q →
    ctx.val = c.num →
    ctxOpcode c = 0x34 →
    writePresent s.variant = true →
    sessionOf s c = some x →
    adminGate s = none →
    s.arv.sanWait = none →
    c.qp = 0 →
    ∃ t, exec (.sanitise ctx true) s = .next t ∧
      completes s t c q 0 0 [] ∧
      fget t fldJNL_STAT_OP = 2 ∧
      (fget t fldJNL_STAT_PHASE = (if discEncrypted s then 0 else 1)) ∧
      (t.arv.journal.head?.map (fun y => (y.op, y.phase, y.serial)) = some (2, (if discEncrypted s then 0 else 1), s.disc.serial)) ∧
      t.disc = (match t.arv.journal.head? with | some y => { (recMirror s (jnlBytes y)).disc with accepted := [], mirror := some y } | none => s.disc) ∧
      t.arv.mediaKey = none ∧
      regsBut s t [regHOST_CTX, regJNL_STAT, regKEY_STAT] ∧
      changesOnly [.regs, .host, .arv, .disc, .freeCtr, .counters, .wraps] s t) ∧
  (∀ (s : State) (ctx : Fin 4096) (c : HostCtx) (q : Qpair) (x : Session),
    soleCommand s c q →
    ctx.val = c.num →
    ctxOpcode c = 0x34 →
    writePresent s.variant = true →
    sessionOf s c = some x →
    adminGate s = none →
    s.arv.sanWait = none →
    ∃ t, exec (.sanitise ctx false) s = .next t ∧
      t.arv.sanWait = some c.num ∧
      t.host.out = s.host.out ∧
      t.disc = s.disc ∧
      changesOnly [.host, .arv] s t) ∧
  (∀ (s : State) (now : JnlProgress) (y : JnlEntry) (l : List JnlEntry),
    s.arv.journal = y :: l →
    fget s fldJNL_STAT_OP = 2 →
    fget s fldJNL_STAT_PHASE = now.phase.val →
    now.phase.val ≤ 3 →
    now.ended = false →
    fbit s fldJNL_STAT_WAIT_SESSION = false →
    now.tilesTotal.toNat ≠ 0 →
    now.tilesDone.toNat ≤ now.tilesTotal.toNat →
    ∃ t, exec (.journalEntryWrite now) s = .next t ∧
      t.arv.journal = (⟨y.seq + 1, s.disc.serial, 2, now.phase.val, now.zone.toNat, now.nextTile.toNat, Nat.max y.progSeq ((s.disc.mirror.map (·.progSeq)).getD 0) + 1, now.tilesDone.toNat, now.tilesTotal.toNat, y.body⟩ :: s.arv.journal).take 1024 ∧
      (t.disc = (if Nat.max 1 (fget s fldJNL_CFG_MIRROR_EVERY) ≤ s.arv.sinceMirror + 1 then (match t.arv.journal.head? with | some z => { (recMirror s (jnlBytes z)).disc with mirror := some z } | none => s.disc) else s.disc)) ∧
      fget t fldJNL_STAT_PERMILLE = now.tilesDone.toNat * 1000 / now.tilesTotal.toNat ∧
      fget t fldJNL_STAT_OP = 2 ∧
      counter t 498 = counter s 498 + 1 ∧
      regsBut s t [regJNL_STAT] ∧
      changesOnly [.regs, .arv, .disc, .counters, .wraps] s t) ∧
  (∀ (s : State) (now : JnlProgress) (y : JnlEntry) (l : List JnlEntry) (g : FormatRec),
    s.arv.journal = y :: l →
    fget s fldJNL_STAT_OP = 2 →
    fget s fldJNL_STAT_PHASE = 3 →
    now.ended = true →
    fbit s fldJNL_STAT_WAIT_SESSION = false →
    s.disc.format = some g →
    eventWaits s = [] →
    ∃ t, exec (.journalEntryWrite now) s = .next t ∧
      t.disc.format = some { g with state := 2 } ∧
      t.disc.free = (s.disc.free.1 - 1, s.disc.free.2 - 1) ∧
      t.disc.mirror = t.arv.journal.head? ∧
      t.arv.journal.head?.map (fun y => (y.op, y.serial)) = some (0, s.disc.serial) ∧
      fget t fldJNL_STAT_OP = 0 ∧
      fget t fldKEY_STAT_JNL_DONE = 1 ∧
      t.host.events = s.host.events ++ [⟨stSuccess, 0, s.chipTime⟩] ∧
      regsBut s t [regJNL_STAT, regKEY_STAT] ∧
      changesOnly [.regs, .host, .arv, .disc, .counters, .wraps] s t) ∧
  (∀ (s : State) (records : List MgmtCopy) (freeA freeB : Nat),
    s.disc.mounted = false →
    s.arv.journal = [] →
    ∃ t, exec (.discMount none records freeA freeB) s = .next t ∧
      t.disc = { s.disc with searched := true, present := false } ∧
      fget t fldJNL_STAT_OP = 0 ∧
      fget t fldJNL_STAT_PENDING_OTHER = 0 ∧
      regsBut s t [regJNL_STAT] ∧
      changesOnly [.regs, .disc] s t) ∧
  (∀ (s : State) (bs : List Byte) (r : MgmtCopy) (m : MgmtRec) (freeA freeB : Nat),
    s.disc.mounted = false →
    s.arv.journal = [] →
    s.arv.cat = [] →
    recParse r = some m →
    m.kind = 1 →
    (formatParse m.body).encrypt = false →
    ∃ t, exec (.discMount (some bs) [r] freeA freeB) s = .next t ∧
      t.disc = { Disc.none with searched := true, present := true, mounted := true, serial := beNat (bs.take 8), layers := recNum bs 9 1, family := recNum bs 14 1, format := some (formatParse m.body), free := (freeA, freeB), recSeq := m.seq, info := bs, records := recsHeld [r], recNext := recNexts [m] } ∧
      t.arv.cat = [] ∧
      fget t fldKEY_STAT_MEDIA = 0 ∧
      fget t fldHOST_SI_CNT_COUNT = 0 ∧
      regsBut s t [regJNL_STAT, regKEY_STAT, regHOST_SI_CNT, regARV_STAT] ∧
      changesOnly [.regs, .disc, .arv] s t) ∧
  (∀ (s : State),
    s.host.ctxs.all (fun c => !(awaitsDisc s c)) = true →
    s.arv.journal = [] →
    ∃ t, exec (.discRemoval) s = .next t ∧
      t.disc = { Disc.none with searched := true } ∧
      t.arv.mediaKey = none ∧
      t.arv.cat = [] ∧
      t.arv.puts = [] ∧
      t.arv.audits = [] ∧
      fget t fldKEY_STAT_MEDIA = 0 ∧
      memoryAs (catStore (siStore s []) []) t ∧
      regsBut (catStore (siStore s []) []) t [regJNL_STAT, regKEY_STAT] ∧
      changesOnly [.regs, .disc, .arv, .counters, .wraps, .mem, .poison, .arcade, .l1d, .dram, .dramErr, .chkErr, .tcmErr, .reports, .core] s t) ∧
  (∀ (s : State) (c : HostCtx) (q : Qpair),
    soleCommand s c q →
    awaitsDisc s c = true →
    s.arv.journal = [] →
    ∃ t, exec (.discRemoval) s = .next t ∧
      completes s t c q stNoMedium 0 [] ∧
      t.disc = { Disc.none with searched := true } ∧
      fget t fldKEY_STAT_MEDIA = 0)

/-- R480, R482, R483 and R539: a rail that leaves its window, or a low motor bus, is a supply fault: it shows, counts, is
reported, and every sled takes a park request; the cause goes when the rail returns, and a fault still live after its grace
enters SAFE. VAON brings a power-on reset; the sequencer enables the rails step by step, retries a failed sequence twice, and
turns the rails off in order when VIN12 is lost. Where a rule leaves a point open, the model's own choice stands (log 26, 73). -/
def Obligations.SupplyFaultsAndSequencer : Prop :=
  (∀ (s : State) (rail : Fin 5),
    fbitAt s fldSUP_STAT_RAIL_GOOD rail.val = true →
    ∃ t, exec (.railWindowExit rail) s = .next t ∧
      fbitAt t fldSUP_STAT_RAIL_GOOD rail.val = false ∧
      fget t fldSUP_STAT_RAIL_FAULT = 1 ∧
      fget t fldSUP_STAT_SUPPLY_FAULT = 1 ∧
      t.sup.live.contains rail.val = true ∧
      counter t 500 = counter s 500 + 1 ∧
      (heads s).all (fun n => t.sled[n].parkSrc.contains 1) = true ∧
      t.reports.any (fun r => r.cls == 0x0D && r.level == 2 && r.district == 5 && r.avPort == 1) = true ∧
      driversBut s t [regSUP_STAT] ∧
      changesOnly [.regs, .sup, .counters, .wraps, .wc, .sled, .reports] s t) ∧
  (∀ (s : State) (rail : Fin 7),
    s.sup.live = [rail.val] →
    fbit s fldSUP_STAT_SUPPLY_FAULT = true →
    fbit s fldSUP_STAT_CHOP_FAULT = false →
    fbit s fldSUP_STAT_BUS_LATCH = false →
    fbit s fldSUP_STAT_BOOST_FAULT = false →
    ∃ t, exec (.railWindowReturn rail) s = .next t ∧
      t.sup.live = [] ∧
      fbitAt t fldSUP_STAT_RAIL_GOOD rail.val = true ∧
      fget t fldSUP_STAT_SUPPLY_FAULT = 0 ∧
      (heads s).all (fun n => !(t.sled[n].parkSrc.contains 1)) = true ∧
      driversBut s t [regSUP_STAT] ∧
      changesOnly [.regs, .sup, .wc, .sled] s t) ∧
  (∀ (s : State),
    fbit s fldSUP_CTL_MBUS_EN = true →
    s.sup.live.contains 6 = false →
    ∃ t, exec (.busUndervoltage) s = .next t ∧
      fbitAt t fldSUP_STAT_RAIL_GOOD 6 = false ∧
      fget t fldSUP_STAT_BUS_UV = 1 ∧
      fget t fldSUP_STAT_SUPPLY_FAULT = 1 ∧
      t.sup.live.contains 6 = true ∧
      counter t 500 = counter s 500 + 1 ∧
      driversBut s t [regSUP_STAT] ∧
      changesOnly [.regs, .sup, .counters, .wraps, .wc, .sled, .reports] s t) ∧
  (∀ (s : State),
    fbit s fldSUP_STAT_SUPPLY_FAULT = true →
    fbit s fldSQ_STAT_SAFE = false →
    ∃ t, exec (.supplyGraceExpire) s = .next t ∧
      fget t fldSQ_STAT_SAFE = 1 ∧
      fget t fldSQ_STAT_SAFE_EVT = 1 ∧
      fget t fldSQ_STAT_SAFE_CAUSE = 6 ∧
      fget t fldSQ_STAT_PIN_LOW = 1 ∧
      counter t 517 = counter s 517 + 1 ∧
      (heads s).all (fun n => t.sled[n].parkSrc.contains 2) = true ∧
      driversBut s t [regSQ_STAT, regSPN_STAT, regSPN_SPD] ∧
      changesOnly [.regs, .counters, .wraps, .wc, .sled, .spn] s t) ∧
  (∀ (s : State),
    s.sq.pinLow = false →
    ∃ t, exec (.vaonRise) s = .next t ∧
      t.chipTime = 0 ∧
      (t.sup = { Supply.reset with vin12 := s.sup.vin12, seq := (if s.sup.vin12 then .up 2 else .noVin), fails := 0 }) ∧
      t.mem = [] ∧
      t.counters = [] ∧
      fget t fldPLZ_STAT_RUNNING = 0 ∧
      t.boot.flash = s.boot.flash ∧
      t.arv.verifier = s.arv.verifier ∧
      regsBut State.reset t [regKEY_STAT, regPLZ_STAT, regSUP_STAT]) ∧
  (∀ (s : State) (k : Nat),
    s.sup.seq = .up k →
    2 ≤ k →
    k ≤ 4 →
    ∃ t, exec (.railGood) s = .next t ∧
      t.sup = { s.sup with seq := .up (k + 1) } ∧
      (stepRails k).all (fun r => fbitAt t fldSUP_STAT_RAIL_GOOD r) = true ∧
      regsBut s t [regSUP_STAT] ∧
      changesOnly [.regs, .sup] s t) ∧
  (∀ (s : State),
    s.sup.seq = .up 5 →
    s.boot.pinLow = false →
    ∃ t, exec (.railGood) s = .next t ∧
      t.sup = { s.sup with seq := .done } ∧
      fbitAt t fldSUP_STAT_RAIL_GOOD 0 = true ∧
      fget t fldPLZ_STAT_RUNNING = 1 ∧
      regsBut s t [regSUP_STAT, regPLZ_STAT] ∧
      changesOnly [.regs, .sup] s t) ∧
  (∀ (s : State) (k : Nat),
    s.sup.seq = .up k →
    ∃ t, exec (.railEnableTimeout) s = .next t ∧
      fget t fldSUP_STAT_RAIL_GOOD = 0 ∧
      (t.sup = { s.sup with fails := s.sup.fails + 1, seq := (if s.sup.fails = 2 then .failed else .retry) }) ∧
      regsBut s t [regSUP_STAT] ∧
      changesOnly [.regs, .sup] s t) ∧
  (∀ (s : State),
    s.sup.seq = .retry →
    ∃ t, exec (.sequencerRetry) s = .next t ∧
      (t.sup = { s.sup with seq := (if s.sup.vin12 then .up 2 else .noVin) }) ∧
      changesOnly [.sup] s t) ∧
  (∀ (s : State),
    s.sup.seq = .noVin →
    ∃ t, exec (.vin12Good) s = .next t ∧
      t.sup = { s.sup with vin12 := true, seq := .up 2 } ∧
      changesOnly [.sup] s t) ∧
  (∀ (s : State),
    s.sup.seq = .done →
    s.sup.dormant = false →
    ∃ t, exec (.vin12Loss) s = .next t ∧
      t.sup.vin12 = false ∧
      t.sup.seq = .down 0 false ∧
      fget t fldSUP_STAT_SUPPLY_FAULT = 1 ∧
      counter t 500 = counter s 500 + 1 ∧
      driversBut s t [regSUP_STAT] ∧
      changesOnly [.regs, .sup, .counters, .wraps, .wc, .sled, .reports] s t) ∧
  (∀ (s : State) (por : Bool),
    s.sup.seq = .down 3 por →
    ∃ t, exec (.railFall) s = .next t ∧
      t.sup = { s.sup with seq := .down 1 por } ∧
      fbitAt t fldSUP_STAT_RAIL_GOOD 3 = false ∧
      fbitAt t fldSUP_STAT_RAIL_GOOD 2 = false ∧
      regsBut s t [regSUP_STAT] ∧
      changesOnly [.regs, .sup] s t) ∧
  (∀ (s : State),
    s.sup.seq = .down 1 true →
    s.sq.pinLow = false →
    ∃ t, exec (.railFall) s = .next t ∧
      (t.sup = { Supply.reset with vin12 := s.sup.vin12, seq := (if s.sup.vin12 then .up 2 else .noVin), fails := s.sup.fails }) ∧
      fget t fldRST_STAT_CAUSE = 2 ∧
      fget t fldSUP_STAT_RAIL_GOOD = 0 ∧
      fget t fldPLZ_STAT_RUNNING = 0 ∧
      t.mem = [] ∧
      t.arv.verifier = s.arv.verifier ∧
      regsBut State.reset t [regKEY_STAT, regPLZ_STAT, regSUP_STAT, regRST_STAT])

/-- R485, R486, R488 and R489: GOV_EN switches between governing and holding VMAN; the chopper engages, releases and faults, the
bus latch opens the input switch, and both clear only with VMOT below CHOP_OFF; the boost starts with a soft start, after
which its undervoltage and its faults act, and a cleared fault starts it again. Where a rule leaves a point open, the model's
own choice stands (log 82). -/
def Obligations.MotorBusAndLaserBoost : Prop :=
  (∀ (s : State) (agent : Agent) (en : Bool),
    ∃ t, exec (.govEnableWrite agent en) s = .next t ∧
      fbit t fldSUP_CTL_GOV_EN = en ∧
      (fget t fldSUP_VCORE_VSET = (if en then fget s fldSUP_VCORE_VSET else clampNat (fget s fldSUP_GOV_VMAN) 620 850)) ∧
      t.lastReply.status = .ok ∧
      regsBut s t ([regSUP_CTL, regSUP_VCORE] ++ (List.range 5).map regPACE_STAT) ∧
      changesOnly [.regs, .sup, .lastReply] s t) ∧
  (∀ (s : State),
    fbit s fldSUP_STAT_CHOP_ACT = false →
    ∃ t, exec (.chopEngage) s = .next t ∧
      fget t fldSUP_STAT_CHOP_ACT = 1 ∧
      fget t fldSUP_STAT_CHOPPED = 1 ∧
      counter t 499 = counter s 499 + 1 ∧
      regsBut s t [regSUP_STAT] ∧
      changesOnly [.regs, .counters, .wraps] s t) ∧
  (∀ (s : State),
    ∃ t, exec (.chopRelease) s = .next t ∧
      fget t fldSUP_STAT_CHOP_ACT = 0 ∧
      regsBut s t [regSUP_STAT] ∧
      changesOnly [.regs] s t) ∧
  (∀ (s : State),
    fbit s fldSUP_STAT_CHOP_FAULT = false →
    1 ≤ spnState s →
    spnState s ≤ 8 →
    ∃ t, exec (.chopFault) s = .next t ∧
      fget t fldSUP_STAT_CHOP_FAULT = 1 ∧
      fget t fldSUP_STAT_CHOP_FLT_EVT = 1 ∧
      fget t fldSUP_STAT_SUPPLY_FAULT = 1 ∧
      spnState t = 9 ∧
      t.spn.chopFault = true ∧
      counter t 500 = counter s 500 + 1 ∧
      driversBut s t [regSUP_STAT, regSPN_STAT, regSPN_SPD] ∧
      changesOnly [.regs, .counters, .wraps, .wc, .sled, .spn, .reports] s t) ∧
  (∀ (s : State),
    fbit s fldSUP_STAT_BUS_LATCH = false →
    ∃ t, exec (.busLatch) s = .next t ∧
      fget t fldSUP_STAT_BUS_LATCH = 1 ∧
      fget t fldSUP_STAT_LATCH_EVT = 1 ∧
      fget t fldSUP_STAT_SUPPLY_FAULT = 1 ∧
      fget t fldSUP_CTL_MBUS_EN = 0 ∧
      fbitAt t fldSUP_STAT_RAIL_GOOD 6 = false ∧
      spnState t = 0xA ∧
      (heads s).all (fun n => !(t.sled[n].powered)) = true ∧
      changesOnly [.regs, .pend, .mem, .poison, .counters, .wraps, .freeCtr, .arcade, .dramErr, .chkErr, .tcmErr, .reports, .fifo, .ch, .hb, .packets, .packetCtr, .decDiscard, .decDrop, .tiles, .spans, .weakTiles, .shortHeads, .wc, .sled, .spn, .core] s t) ∧
  (∀ (s : State) (agent : Agent) (vmot : BitVec 16),
    vmot.toNat < fget s fldSUP_BUS_CHOP_OFF →
    fbit s fldSUP_STAT_CHOP_FAULT = true →
    ∃ t, exec (.chopClr agent vmot) s = .next t ∧
      fget t fldSUP_STAT_CHOP_FAULT = 0 ∧
      t.spn.chopFault = false ∧
      fget t fldSUP_MEAS_VMOT = vmot.toNat ∧
      t.lastReply.status = .ok ∧
      driversBut s t [regSUP_STAT, regSUP_MEAS, regSPN_STAT, regSPN_SPD] ∧
      changesOnly [.regs, .wc, .sled, .spn, .lastReply] s t) ∧
  (∀ (s : State) (agent : Agent) (vmot : BitVec 16),
    fget s fldSUP_BUS_CHOP_OFF ≤ vmot.toNat →
    ∃ t, exec (.chopClr agent vmot) s = .next t ∧
      fget t fldSUP_STAT_CLR_DENIED = 1 ∧
      fget t fldSUP_STAT_CHOP_FAULT = fget s fldSUP_STAT_CHOP_FAULT ∧
      regsBut s t [regSUP_STAT, regSUP_MEAS] ∧
      changesOnly [.regs, .lastReply] s t) ∧
  (∀ (s : State) (agent : Agent) (vmot : BitVec 16),
    vmot.toNat < fget s fldSUP_BUS_CHOP_OFF →
    ∃ t, exec (.latchClr agent vmot) s = .next t ∧
      fget t fldSUP_STAT_BUS_LATCH = 0 ∧
      fget t fldSUP_MEAS_VMOT = vmot.toNat ∧
      t.lastReply.status = .ok ∧
      driversBut s t [regSUP_STAT, regSUP_MEAS] ∧
      changesOnly [.regs, .wc, .sled, .lastReply] s t) ∧
  (∀ (s : State) (agent : Agent) (vmot : BitVec 16),
    fget s fldSUP_BUS_CHOP_OFF ≤ vmot.toNat →
    ∃ t, exec (.latchClr agent vmot) s = .next t ∧
      fget t fldSUP_STAT_CLR_DENIED = 1 ∧
      fget t fldSUP_STAT_BUS_LATCH = fget s fldSUP_STAT_BUS_LATCH ∧
      regsBut s t [regSUP_STAT, regSUP_MEAS] ∧
      changesOnly [.regs, .lastReply] s t) ∧
  (∀ (s : State) (agent : Agent),
    ∃ t, exec (.mbusEnableWrite agent true) s = .next t ∧
      fget t fldSUP_CTL_MBUS_EN = 1 ∧
      fbitAt t fldSUP_STAT_RAIL_GOOD 6 = !(fbit s fldSUP_STAT_BUS_LATCH) ∧
      t.lastReply.status = .ok ∧
      regsBut s t [regSUP_CTL, regSUP_STAT] ∧
      changesOnly [.regs, .lastReply] s t) ∧
  (∀ (s : State) (agent : Agent),
    ∃ t, exec (.mbusEnableWrite agent false) s = .next t ∧
      fget t fldSUP_CTL_MBUS_EN = 0 ∧
      fbitAt t fldSUP_STAT_RAIL_GOOD 6 = false ∧
      t.sup.live.contains 6 = false ∧
      t.lastReply.status = .ok ∧
      driversBut s t [regSUP_CTL, regSUP_STAT] ∧
      changesOnly [.regs, .sup, .wc, .sled, .lastReply] s t) ∧
  (∀ (s : State) (agent : Agent),
    fbit s fldSUP_CTL_BOOST_EN = false →
    ∃ t, exec (.boostEnableWrite agent true) s = .next t ∧
      fget t fldSUP_CTL_BOOST_EN = 1 ∧
      t.sup = { s.sup with soft := !(fbit s fldSUP_STAT_BOOST_FAULT) } ∧
      t.lastReply.status = .ok ∧
      driversBut s t [regSUP_CTL] ∧
      changesOnly [.regs, .sup, .wc, .lastReply] s t) ∧
  (∀ (s : State) (agent : Agent),
    ∃ t, exec (.boostEnableWrite agent false) s = .next t ∧
      fget t fldSUP_CTL_BOOST_EN = 0 ∧
      t.sup.soft = false ∧
      fbitAt t fldSUP_STAT_RAIL_GOOD 5 = false ∧
      (heads s).all (fun n => !(writePresent s.variant) || fbitAt t (fldWC_STAT_LIVE n.val) 4) = true ∧
      driversBut s t [regSUP_CTL, regSUP_STAT] ∧
      changesOnly [.regs, .sup, .wc, .sled, .lastReply] s t) ∧
  (∀ (s : State),
    s.sup.soft = true →
    ∃ t, exec (.boostSoftStartDone) s = .next t ∧
      t.sup = { s.sup with soft := false } ∧
      fbitAt t fldSUP_STAT_RAIL_GOOD 5 = true ∧
      driversBut s t [regSUP_STAT] ∧
      changesOnly [.regs, .sup, .wc] s t) ∧
  (∀ (s : State),
    boostUp s = true →
    ∃ t, exec (.vlasUndervoltage) s = .next t ∧
      fbitAt t fldSUP_STAT_RAIL_GOOD 5 = false ∧
      fget t fldSUP_STAT_RAIL_FAULT = 1 ∧
      fget t fldSUP_STAT_SUPPLY_FAULT = 1 ∧
      t.sup.live.contains 5 = true ∧
      driversBut s t [regSUP_STAT] ∧
      changesOnly [.regs, .sup, .counters, .wraps, .wc, .sled, .reports] s t) ∧
  (∀ (s : State),
    boostUp s = true →
    ∃ t, exec (.boostFault) s = .next t ∧
      fget t fldSUP_STAT_BOOST_FAULT = 1 ∧
      fget t fldSUP_STAT_BOOST_EVT = 1 ∧
      fget t fldSUP_STAT_SUPPLY_FAULT = 1 ∧
      fbitAt t fldSUP_STAT_RAIL_GOOD 5 = false ∧
      counter t 500 = counter s 500 + 1 ∧
      driversBut s t [regSUP_STAT] ∧
      changesOnly [.regs, .sup, .counters, .wraps, .wc, .sled, .reports] s t) ∧
  (∀ (s : State) (agent : Agent),
    fbit s fldSUP_CTL_BOOST_EN = true →
    fbit s fldSUP_STAT_BOOST_FAULT = true →
    ∃ t, exec (.boostClr agent) s = .next t ∧
      fget t fldSUP_STAT_BOOST_FAULT = 0 ∧
      t.sup = { s.sup with soft := true } ∧
      t.lastReply.status = .ok ∧
      driversBut s t [regSUP_STAT] ∧
      changesOnly [.regs, .sup, .wc, .sled, .lastReply] s t) ∧
  (∀ (s : State) (agent : Agent),
    fbit s fldSUP_CTL_BOOST_EN = false →
    ∃ t, exec (.boostClr agent) s = .next t ∧
      fget t fldSUP_STAT_CLR_DENIED = 1 ∧
      regsBut s t [regSUP_STAT] ∧
      changesOnly [.regs, .lastReply] s t)

/-- R498, R502 to R504, R511 and R551: when the reference's source fails, REF_GOOD falls, every running loop coasts, the time base
counts coarse and the failure is reported; it rises again when the source is good; a loop that runs from a good reference
locks, and one that had coasted only after CLK_RELOCK; a lost lock counts and its domains lose clock-good; a port's enable
starts its link; a read of the low half of the time or of a counter latches the whole of it for the reader. Also: R506 to R508
and R512: writing CLK_REF_SEL starts a switch, or sets SEL_BUSY during one; the switch ends at the new clock's edge, or hangs;
a rescue with its code forces the reference to a good source while every running loop coasts, or is denied, and ends after 16
cycles; CLKOUT is selected by the owner of its permit alone, and its division follows DIV, 0 taken as 1. Where a rule leaves a
point open, the model's own choice stands (log 69). -/
def Obligations.ClockSourcesLoopsAndMultiplexers : Prop :=
  (∀ (s : State) (refin : Bool),
    s.clk.refSrc = refin.toNat →
    fbit s fldCLK_SRC_REF_GOOD = true →
    ∃ t, exec (.sourceFail refin) s = .next t ∧
      fget t fldCLK_SRC_REF_GOOD = 0 ∧
      sourceGood t refin.toNat = false ∧
      ((List.range 14).filter (loopRuns s)).all (fun k => loopCoasts t k) = true ∧
      ((List.range 14).filter (fun k => loopRuns s k && !(loopCoasts s k))).all (fun k => !(loopLocked t k)) = true ∧
      fget t fldTB_STAT_SRC = 1 ∧
      fget t fldTB_STAT_COARSE = 1 ∧
      fget t fldCLK_STAT_REF_FAIL = 1 ∧
      t.reports.any (fun r => r.cls == 0x0E && r.level == 2 && r.district == 5 && r.avPort == 2) = true ∧
      changesOnly clockLossParts s t) ∧
  (∀ (s : State) (refin : Bool),
    s.clk.refSrc ≠ refin.toNat →
    sourceGood s s.clk.refSrc = fbit s fldCLK_SRC_REF_GOOD →
    s.clk.refSrc < 2 →
    fbit s fldCLK_SRC_REF_GOOD = true →
    ∃ t, exec (.sourceFail refin) s = .next t ∧
      sourceGood t refin.toNat = false ∧
      fget t fldCLK_SRC_REF_GOOD = 1 ∧
      regsBut s t [regCLK_SRC, regTB_STAT] ∧
      changesOnly [.regs] s t) ∧
  (∀ (s : State) (refin : Bool),
    s.clk.refSrc = refin.toNat →
    ∃ t, exec (.sourceGood refin) s = .next t ∧
      sourceGood t refin.toNat = true ∧
      fget t fldCLK_SRC_REF_GOOD = 1 ∧
      fget t fldTB_STAT_SRC = 0 ∧
      regsBut s t [regCLK_SRC, regTB_STAT] ∧
      changesOnly [.regs] s t) ∧
  (∀ (s : State) (agent : Agent) (loops : BitVec 14),
    fbit s fldCLK_SRC_REF_GOOD = true →
    loops.toNat ≠ 0 →
    ∃ t, exec (.clkRelock agent loops) s = .next t ∧
      (List.range 14).all (fun k => fbitAt t fldCLK_RELOCK_RELOCK k == (fbitAt s fldCLK_RELOCK_RELOCK k || (loops.toNat.testBit k && loopCoasts s k))) = true ∧
      t.lastReply.status = .ok ∧
      regsBut s t [regCLK_RELOCK] ∧
      changesOnly [.regs, .lastReply] s t) ∧
  (∀ (s : State) (agent : Agent) (loops : BitVec 14),
    fbit s fldCLK_SRC_REF_GOOD = false →
    loops.toNat ≠ 0 →
    ∃ t, exec (.clkRelock agent loops) s = .next t ∧
      fget t fldCLK_STAT_RELOCK_DENIED = 1 ∧
      t.lastReply.status = .ok ∧
      regsBut s t [regCLK_STAT] ∧
      changesOnly [.regs, .lastReply] s t) ∧
  (∀ (s : State) (loop : Fin 14),
    loopRuns s loop.val = true →
    fbit s fldCLK_SRC_REF_GOOD = true →
    loopLocked s loop.val = false →
    (loopCoasts s loop.val = false ∨ fbitAt s fldCLK_RELOCK_RELOCK loop.val = true) →
    (loop.val ≠ 2 ∧ loop.val < 6) →
    ∃ t, exec (.loopLock loop) s = .next t ∧
      loopLocked t loop.val = true ∧
      loopCoasts t loop.val = false ∧
      fbitAt t fldCLK_RELOCK_RELOCK loop.val = false ∧
      ((loopXings loop.val).all (fun x => !(xingPresent s.variant x) || fbitAt t (if x < 32 then fldCLK_GOOD0_GOOD else fldCLK_GOOD1_GOOD) (x % 32)) = true) ∧
      changesOnly clockLossParts s t) ∧
  (∀ (s : State) (loop : Fin 14),
    loopLocked s loop.val = false →
    loopCoasts s loop.val = true →
    fbitAt s fldCLK_RELOCK_RELOCK loop.val = false →
    ∃ t, exec (.loopLock loop) s = .next t ∧
      t = s) ∧
  (∀ (s : State) (loop : Fin 14),
    loopLocked s loop.val = true →
    ∃ t, exec (.lockLost loop) s = .next t ∧
      loopLocked t loop.val = false ∧
      fget t fldCLK_STAT_LOCK_LOST = 1 ∧
      counter t 506 = counter s 506 + 1 ∧
      ((loopXings loop.val).all (fun x => !(xingPresent s.variant x) || !(fbitAt t (if x < 32 then fldCLK_GOOD0_GOOD else fldCLK_GOOD1_GOOD) (x % 32))) = true) ∧
      changesOnly clockLossParts s t) ∧
  (∀ (s : State) (agent : Agent) (port : Port),
    portPresent s.variant port.val = true →
    linkState s port.val = 0 →
    ∃ t, exec (.portEnableWrite agent port true) s = .next t ∧
      portEnabled t port.val = true ∧
      linkState t port.val = 1 ∧
      t.lastReply.status = .ok ∧
      (regsBut s t [regHOST_CTL, regHOST_STAT, if port.val = 0 then regHOST_LINK0 else regHOST_LINK1]) ∧
      changesOnly [.regs, .lastReply] s t) ∧
  (∀ (s : State) (agent : Agent) (port : Port),
    portPresent s.variant port.val = true →
    linkState s port.val = 1 →
    s.boot.attached = [] →
    ∃ t, exec (.portEnableWrite agent port false) s = .next t ∧
      portEnabled t port.val = false ∧
      linkState t port.val = 0 ∧
      loopLocked t (4 + port.val) = false ∧
      t.lastReply.status = .ok ∧
      changesOnly (.lastReply :: clockLossParts) s t) ∧
  (∀ (s : State) (agent : Agent),
    ∃ t, exec (.timeReadLatch agent) s = .next t ∧
      aget? t.tbLatch agent.id = some s.chipTime ∧
      t.lastReply.status = .ok ∧
      t.lastReply.value = s.chipTime.toNat % 2 ^ 32 ∧
      changesOnly [.tbLatch, .lastReply] s t) ∧
  (∀ (s : State) (agent : Agent) (k : Fin 518),
    ∃ t, exec (.counterReadLatch agent k) s = .next t ∧
      aget? t.pcLatch (1024 * agent.id + k.val) = some (counter s k.val) ∧
      t.lastReply.status = .ok ∧
      t.lastReply.value = (counter s k.val).toNat % 2 ^ 32 ∧
      changesOnly [.pcLatch, .lastReply] s t) ∧
  (∀ (s : State) (agent : Agent) (sel : Fin 2),
    s.clk.refTo = none →
    sel.val ≠ fget s fldCLK_REF_SEL_SEL →
    ∃ t, exec (.refSwitch agent sel) s = .next t ∧
      fget t fldCLK_REF_SEL_SEL = sel.val ∧
      fget t fldCLK_REF_SEL_SWITCHING = 1 ∧
      t.clk = { s.clk with refTo := some sel.val } ∧
      t.lastReply.status = .ok ∧
      regsBut s t [regCLK_REF_SEL] ∧
      changesOnly [.regs, .clk, .lastReply] s t) ∧
  (∀ (s : State) (agent : Agent) (sel : Fin 2),
    s.clk.refTo.isSome = true →
    ∃ t, exec (.refSwitch agent sel) s = .next t ∧
      fget t fldCLK_STAT_SEL_BUSY = 1 ∧
      t.lastReply.status = .ok ∧
      regsBut s t [regCLK_STAT] ∧
      changesOnly [.regs, .lastReply] s t) ∧
  (∀ (s : State) (n : Nat),
    s.clk.refTo = some n →
    n < 2 →
    fbit s fldCLK_REF_SEL_HUNG = false →
    sourceGood s n = true →
    ∃ t, exec (.muxSwitchDone false) s = .next t ∧
      fget t fldCLK_REF_SEL_SEL = n ∧
      fget t fldCLK_REF_SEL_SWITCHING = 0 ∧
      t.clk = { s.clk with refSrc := n, refTo := none } ∧
      fget t fldCLK_SRC_REF_GOOD = 1 ∧
      regsBut s t [regCLK_REF_SEL, regCLK_SRC, regTB_STAT] ∧
      changesOnly [.regs, .clk] s t) ∧
  (∀ (s : State) (n : Nat),
    s.clk.outTo = some n →
    fbit s fldCLK_OUT_HUNG = false →
    ∃ t, exec (.muxSwitchDone true) s = .next t ∧
      fget t fldCLK_OUT_SWITCHING = 0 ∧
      t.clk = { s.clk with outSrc := outSel n, outTo := none } ∧
      regsBut s t [regCLK_OUT] ∧
      changesOnly [.regs, .clk] s t) ∧
  (∀ (s : State) (clkout : Bool),
    (if clkout then s.clk.outTo.isSome else s.clk.refTo.isSome) = true →
    fbit s (if clkout then fldCLK_OUT_HUNG else fldCLK_REF_SEL_HUNG) = false →
    ∃ t, exec (.muxHung clkout) s = .next t ∧
      (fget t (if clkout then fldCLK_OUT_HUNG else fldCLK_REF_SEL_HUNG) = 1) ∧
      fget t fldCLK_STAT_HUNG = 1 ∧
      counter t 507 = counter s 507 + 1 ∧
      (regsBut s t [if clkout then regCLK_OUT else regCLK_REF_SEL, regCLK_STAT]) ∧
      changesOnly [.regs, .counters, .wraps] s t) ∧
  (∀ (s : State) (agent : Agent) (value : BitVec 32),
    (value = 0x5C000000 ∨ value = 0x5C000001) →
    s.clk.rescue = none →
    sourceGood s (value.toNat % 2) = true →
    ∃ t, exec (.clkRescue agent value) s = .next t ∧
      t.clk.rescue = some (0, value.toNat % 2) ∧
      t.clk.refSrc = value.toNat % 2 ∧
      t.clk.refTo = none ∧
      fget t fldCLK_REF_SEL_SEL = value.toNat % 2 ∧
      fget t fldCLK_SRC_REF_GOOD = 1 ∧
      ((List.range 14).filter (loopRuns s)).all (fun k => loopCoasts t k) = true ∧
      changesOnly (.clk :: .lastReply :: clockLossParts) s t) ∧
  (∀ (s : State) (agent : Agent) (value : BitVec 32),
    (value = 0x5C000000 ∨ value = 0x5C000001) →
    s.clk.rescue = none →
    sourceGood s (value.toNat % 2) = false →
    ∃ t, exec (.clkRescue agent value) s = .next t ∧
      fget t fldCLK_STAT_RESCUE_DENIED = 1 ∧
      t.lastReply.status = .ok ∧
      regsBut s t [regCLK_STAT] ∧
      changesOnly [.regs, .lastReply] s t) ∧
  (∀ (s : State) (n : Nat),
    s.clk.rescue = some (0, n) →
    ∃ t, exec (.rescueDone) s = .next t ∧
      t.clk = { s.clk with rescue := none } ∧
      fget t fldCLK_STAT_RESCUED = 1 ∧
      counter t 508 = counter s 508 + 1 ∧
      regsBut s t [regCLK_STAT] ∧
      changesOnly [.regs, .clk, .counters, .wraps] s t) ∧
  (∀ (s : State) (agent : Agent) (sel : Fin 8),
    permitOwner s 21 = agent.id →
    s.clk.outTo = none →
    outSel sel.val ≠ s.clk.outSrc →
    ∃ t, exec (.clkoutSelect agent sel) s = .next t ∧
      fget t fldCLK_OUT_SEL = sel.val ∧
      fget t fldCLK_OUT_SWITCHING = 1 ∧
      t.clk = { s.clk with outTo := some sel.val } ∧
      t.lastReply.status = .ok ∧
      regsBut s t [regCLK_OUT] ∧
      changesOnly [.regs, .clk, .lastReply] s t) ∧
  (∀ (s : State) (agent : Agent) (sel : Fin 8),
    permitOwner s 21 ≠ agent.id →
    ∃ t, exec (.clkoutSelect agent sel) s = .next t ∧
      fget t (fldPERMIT_DENIED 21) = 1 ∧
      t.clk = s.clk ∧
      regsBut s t [regPERMIT 21] ∧
      changesOnly [.regs, .lastReply] s t) ∧
  (∀ (s : State),
    ∃ t, exec (.clkoutDivChange) s = .next t ∧
      t.clk = { s.clk with div := Nat.max 1 (fget s fldCLK_OUT_DIV), high := outHigh (Nat.max 1 (fget s fldCLK_OUT_DIV)) } ∧
      changesOnly [.clk] s t)

/-- R516, R518, R522 to R531: CALREF outside 2 percent of 1.250 V is bad; a block whose temperature has left CALB_TEMP by more
than THR, or that is asked for, has every kind it owns pending; the unit serves the spindle and supply blocks by itself; a run
that succeeds makes its record, with its key word, CRC and time, and one that fails shows its cause; an idle block takes a new
record; the record window reads a slot, and stores only a record whose CRC and key are right while no sweep runs. Where a rule
leaves a point open, the model's own choice stands (log 83). -/
def Obligations.CalibrationRunsAndRecords : Prop :=
  (∀ (s : State) (mv : BitVec 16),
    ∃ t, exec (.calrefCheck mv) s = .next t ∧
      fget t fldCAL_REF_MEAS_MV = mv.toNat ∧
      fbit t fldCAL_STAT_CALREF_BAD = (decide (mv.toNat < 12250) || decide (12750 < mv.toNat)) ∧
      regsBut s t [regCAL_REF_MEAS, regCAL_STAT] ∧
      changesOnly [.regs] s t) ∧
  (∀ (s : State) (block : Fin 11) (temp : BitVec 16),
    blockPresent s.variant block.val = true →
    fget s (fldCALB_CFG_THR block.val) ≠ 0 →
    fget s (fldCALB_CFG_THR block.val) * 64 < (temp.toInt - tempInt (fget s (fldCALB_TEMP_T block.val))).natAbs →
    ∃ t, exec (.calTempTrigger block temp) s = .next t ∧
      (blockKinds s.variant block.val).all (fun k => fbitAt t (fldCALB_STAT_PEND block.val) (k - 1)) = true ∧
      fbitAt t fldCAL_PEND_BLOCK block.val = true ∧
      regsBut s t [regCALB_STAT block.val, regCAL_PEND] ∧
      changesOnly [.regs] s t) ∧
  (∀ (s : State) (block : Fin 11) (temp : BitVec 16),
    (fget s (fldCALB_CFG_THR block.val) = 0 ∨ (temp.toInt - tempInt (fget s (fldCALB_TEMP_T block.val))).natAbs ≤ fget s (fldCALB_CFG_THR block.val) * 64) →
    ∃ t, exec (.calTempTrigger block temp) s = .next t ∧
      t = s) ∧
  (∀ (s : State) (agent : Agent) (block : Fin 11),
    blockPresent s.variant block.val = true →
    ∃ t, exec (.calRequest agent block) s = .next t ∧
      (blockKinds s.variant block.val).all (fun k => fbitAt t (fldCALB_STAT_PEND block.val) (k - 1)) = true ∧
      fbitAt t fldCAL_PEND_BLOCK block.val = true ∧
      t.lastReply.status = .ok ∧
      regsBut s t [regCALB_STAT block.val, regCAL_PEND] ∧
      changesOnly [.regs, .lastReply] s t) ∧
  (∀ (s : State) (block : Fin 11) (mv : BitVec 16),
    fbit s fldCAL_CTL_AUTO_EN = true →
    (block = 8 ∧ fget s fldSPN_STAT_STATE = 0 ∨ block = 9) →
    fbit s (fldCALB_STAT_PEND block.val) = true →
    ∃ t, exec (.calAutoRun block mv) s = .next t ∧
      t.cal = { s.cal with running := addOnce s.cal.running block.val } ∧
      fbit t fldCAL_STAT_CALREF_BAD = (decide (mv.toNat < 12250) || decide (12750 < mv.toNat)) ∧
      regsBut s t [regCAL_REF_MEAS, regCAL_STAT] ∧
      changesOnly [.regs, .cal] s t) ∧
  (∀ (s : State) (block : Fin 11) (kind : Fin 8) (sub cls : Fin 3) (values : List Word) (temp mv : BitVec 16) (ws : List Word),
    (block = 8 ∨ block = 9) →
    s.cal.running = [block.val] →
    fbit s fldCAL_STAT_CALREF_BAD = false →
    ws = [BitVec.ofNat 32 (keyWord block.val 1 0 0 cls.val * 2 ^ 13 + 2 ^ 12), BitVec.ofNat 32 (temp.toNat * 2 ^ 16 + (rd s regCAL_GEN).toNat % 2 ^ 16), s.chipTime.setWidth 32, (s.chipTime >>> 32).setWidth 32] ++ (values ++ List.replicate 11 0).take 11 →
    ∃ t, exec (.calRunDone block kind sub cls values temp 0 mv) s = .next t ∧
      aget? t.cal.slots (slotElec s.variant block.val cls.val) = some (ws ++ [BitVec.ofNat 32 (wordsCrc ws)]) ∧
      t.cal.fresh = addOnce s.cal.fresh (slotElec s.variant block.val cls.val) ∧
      t.cal.running = [] ∧
      fbitAt t (fldCALB_STAT_PEND block.val) 0 = false ∧
      fget t fldCAL_STAT_RESULT = 1 ∧
      rd t regCAL_GEN = rd s regCAL_GEN + 1 ∧
      rd t (regCALB_COUNT block.val) = rd s (regCALB_COUNT block.val) + 1 ∧
      fget t (fldCALB_TEMP_T block.val) = temp.toNat ∧
      counter t 509 = counter s 509 + 1 ∧
      regsBut s t [regCAL_GEN, regCAL_STAT, regCAL_PEND, regCALB_STAT block.val, regCALB_COUNT block.val, regCALB_TIME_LO block.val, regCALB_TIME_HI block.val, regCALB_TEMP block.val] ∧
      changesOnly [.regs, .cal, .counters, .wraps] s t) ∧
  (∀ (s : State) (block : Fin 11) (kind : Fin 8) (sub cls : Fin 3) (values : List Word) (temp mv : BitVec 16) (found : Fin 6),
    (block = 8 ∨ block = 9) →
    s.cal.running = [block.val] →
    fbit s fldCAL_STAT_CALREF_BAD = false →
    found ≠ 0 →
    ∃ t, exec (.calRunDone block kind sub cls values temp found mv) s = .next t ∧
      t.cal = { s.cal with running := [] } ∧
      fget t fldCAL_STAT_FAIL = 1 ∧
      fget t (fldCALB_STAT_CAUSE block.val) = found.val ∧
      counter t 510 = counter s 510 + 1 ∧
      regsBut s t [regCAL_STAT, regCALB_STAT block.val] ∧
      changesOnly [.regs, .cal, .counters, .wraps] s t) ∧
  (∀ (s : State) (n : Fin 8) (sub cls : Fin 3) (values : List Word) (temp mv : BitVec 16) (o : OpenStep),
    calStepOf s n 1 = some o →
    12250 ≤ mv.toNat →
    mv.toNat ≤ 12750 →
    ∃ t, exec (.calRunDone (Fin.ofNat 11 n.val) 1 sub cls values temp 0 mv) s = .next t ∧
      (aget? t.cal.slots (slotElec s.variant n.val cls.val)).map (fun l => (l.take 1, (l.drop 4).take 11)) = some ([BitVec.ofNat 32 (keyWord n.val 1 0 0 cls.val * 2 ^ 13 + 2 ^ 12)], (values ++ List.replicate 11 0).take 11) ∧
      t.hb[n].openSteps = s.hb[n].openSteps.filter (fun x => x.idx != o.idx) ∧
      fbitAt t (fldCALB_STAT_PEND n.val) 0 = false ∧
      rd t regCAL_GEN = rd s regCAL_GEN + 1 ∧
      counter t 509 = counter s 509 + 1 ∧
      t.fifo = (stepEnd s o.ref 0xB n.val 0 o.idx o.step.w1 o.step.w3 0 0).fifo ∧
      memoryAs (stepEnd s o.ref 0xB n.val 0 o.idx o.step.w1 o.step.w3 0 0) t ∧
      regsBut (stepEnd s o.ref 0xB n.val 0 o.idx o.step.w1 o.step.w3 0 0) t [regCAL_REF_MEAS, regCAL_GEN, regCAL_STAT, regCAL_PEND, regCALB_STAT n.val, regCALB_COUNT n.val, regCALB_TIME_LO n.val, regCALB_TIME_HI n.val, regCALB_TEMP n.val] ∧
      changesOnly [.regs, .cal, .counters, .wraps, .hb, .fifo, .mem, .poison, .arcade, .l1d, .dram, .dramErr, .chkErr, .tcmErr, .reports, .core] s t) ∧
  (∀ (s : State) (block : Fin 11) (i : Nat) (r : List Word),
    (block = 8 ∨ block = 9) →
    sweepRunning s = false →
    i = slotElec s.variant block.val (fget s (fldCALB_STAT_CLASS block.val)) →
    fget s (fldCALB_STAT_CLASS block.val) < 3 →
    s.cal.fresh = [i] →
    aget? s.cal.slots i = some r →
    (r.getD 0 0).getLsbD 12 = true →
    ∃ t, exec (.calIdleApply block) s = .next t ∧
      (t.cal = { s.cal with trims := aset s.cal.trims block.val ((r.drop 4).take 11), fresh := [], stored := (if fbit s fldCAL_CAP_NV then aset s.cal.stored i r else s.cal.stored) }) ∧
      fget t (fldCALB_STAT_ENV_LIVE block.val) = 0 ∧
      regsBut s t [regCALB_STAT block.val] ∧
      changesOnly [.regs, .cal] s t) ∧
  (∀ (s : State) (agent : Agent),
    ∃ t, exec (.calRecordRead agent) s = .next t ∧
      (List.range 16).all (fun i => rd t (regCAL_REC i) == (slotWords s (fget s fldCAL_REC_SEL_INDEX)).getD i 0) = true ∧
      t.lastReply.status = .ok ∧
      regsBut s t ((List.range 16).map regCAL_REC) ∧
      changesOnly [.regs, .lastReply] s t) ∧
  (∀ (s : State) (agent : Agent) (i : Nat) (ws : List Word),
    i = fget s fldCAL_REC_SEL_INDEX →
    ws = (List.range 16).map (fun j => rd s (regCAL_REC j)) →
    sweepRunning s = false →
    wordsCrc (ws.take 15) = (ws.getD 15 0).toNat →
    slotKeyWord s.variant i = some ((ws.getD 0 0).toNat / 2 ^ 13) →
    (ws.getD 0 0).toNat % 2 ^ 12 = 0 →
    ∃ t, exec (.calRecordWrite agent) s = .next t ∧
      t.cal = { s.cal with slots := aset s.cal.slots i ws, fresh := addOnce s.cal.fresh i } ∧
      rd t regCAL_GEN = rd s regCAL_GEN + 1 ∧
      t.lastReply.status = .ok ∧
      regsBut s t [regCAL_GEN] ∧
      changesOnly [.regs, .cal, .lastReply] s t) ∧
  (∀ (s : State) (agent : Agent),
    sweepRunning s = true →
    ∃ t, exec (.calRecordWrite agent) s = .next t ∧
      fget t fldCAL_STAT_WR_DENIED = 1 ∧
      t.lastReply.status = .ok ∧
      regsBut s t [regCAL_STAT] ∧
      changesOnly [.regs, .lastReply] s t) ∧
  (∀ (s : State) (agent : Agent),
    sweepRunning s = false →
    slotKeyWord s.variant (fget s fldCAL_REC_SEL_INDEX) ≠ some ((rd s (regCAL_REC 0)).toNat / 2 ^ 13) →
    ∃ t, exec (.calRecordWrite agent) s = .next t ∧
      fget t fldCAL_STAT_KEY_BAD = 1 ∧
      counter t 512 = counter s 512 + 1 ∧
      t.lastReply.status = .ok ∧
      regsBut s t [regCAL_STAT] ∧
      changesOnly [.regs, .counters, .wraps, .lastReply] s t)

/-- R534 to R549: a raised report reaches the Square, which writes its record; a lost heartbeat fences a cell, isolates a head,
stops a core, or enters SAFE; FM_ISOLATE isolates each present head named, with a record, and FM_REINSTATE resets it, unless
its heartbeat or its district is lost; a lockstep mismatch, SAFE_N driven low, SQ_SAFE with its code, and a second watchdog
expiry enter SAFE with their causes. Where a rule leaves a point open, the model's own choice stands (log 26, 71). -/
def Obligations.FaultReportsHeartbeatsAndSafe : Prop :=
  (∀ (s : State) (r : FaultReport),
    s.reports = [r] →
    fifoCount s 13 < fifoSize s 13 →
    s.fifo[(13 : Fin 14)].waiting = [] →
    s.fifo[(13 : Fin 14)].stage = [] →
    (memWrite s 4 (fifoPlace s 13 s.fifo[(13 : Fin 14)].wk) (recordBytes (faultRecord r))).isSome = true →
    ∃ t, exec (.faultReport) s = .next t ∧
      counter t (513 + r.level % 4) = counter s (513 + r.level % 4) + 1 ∧
      fget t (fldFIFO_STAT_NOTICE 13) = 1 ∧
      t.fifo[(13 : Fin 14)].wk = s.fifo[(13 : Fin 14)].wk + 1 ∧
      memoryAs (memWriteD { s with reports := [] } 4 (fifoPlace s 13 s.fifo[(13 : Fin 14)].wk) (recordBytes (faultRecord r))) t ∧
      regsBut (memWriteD { s with reports := [] } 4 (fifoPlace s 13 s.fifo[(13 : Fin 14)].wk) (recordBytes (faultRecord r))) t [regFIFO_STAT 13] ∧
      changesOnly [.regs, .fifo, .counters, .wraps, .mem, .poison, .arcade, .dramErr, .chkErr, .tcmErr, .reports, .core] s t) ∧
  (∀ (s : State) (b : Fin 20) (c : Fin 64),
    c.val < blockCells b.val →
    absentAt s.variant (blockBase b.val) = false →
    b.val ≠ 10 →
    8 ≤ b.val →
    ∃ t, exec (.heartbeatLoss (.cell b c)) s = .next t ∧
      fbit t (fldCELL_ERR_HB_LOST (64 * b.val + c.val)) = true ∧
      fbit t (fldCELL_ERR_FAULT (64 * b.val + c.val)) = true ∧
      fget t fldSQ_STAT_HB_LOST = 1 ∧
      t.sq.lost.contains (.cell b c) = true ∧
      t.reports.any (fun r => r.cls == 0x0A && r.level == 1 && r.cell == c.val) = true ∧
      regsBut s t [regCELL_ERR (64 * b.val + c.val), regSQ_STAT] ∧
      changesOnly [.regs, .sq, .rbt, .reports] s t) ∧
  (∀ (s : State) (k : Fin 4),
    ∃ t, exec (.heartbeatLoss (.core k)) s = .next t ∧
      fbitAt t fldPLZ_STAT_RUNNING k.val = false ∧
      fbitAt t fldPLZ_STAT_HALTED k.val = true ∧
      t.core[k].halted = true ∧
      t.core[k].resv = none ∧
      fget t fldSQ_STAT_HB_LOST = 1 ∧
      t.sq.lost.contains (.core k) = true ∧
      regsBut s t [regSQ_STAT, regPLZ_STAT] ∧
      changesOnly [.regs, .sq, .reports, .core] s t) ∧
  (∀ (s : State) (b : Fin 20),
    b.val < 8 →
    headPresent s.variant b.val = true →
    isolated s b.val = false →
    ∃ t, exec (.heartbeatLoss (.block b)) s = .next t ∧
      isolated t b.val = true ∧
      fbitAt t fldSWP_HEAD_ONLINE_OFFLINE_PEND b.val = true ∧
      fget t fldSQ_STAT_HB_LOST = 1 ∧
      t.sq.lost.contains (.block b) = true ∧
      t.reports.any (fun r => r.cls == 0x0B && r.level == 2) = true) ∧
  (∀ (s : State) (agent : Agent) (n : Fin 8),
    headPresent s.variant n.val = true →
    isolated s n.val = false →
    ∃ t, exec (.fmIsolate agent (BitVec.ofNat 8 (2 ^ n.val))) s = .next t ∧
      isolated t n.val = true ∧
      fbitAt t fldSWP_HEAD_ONLINE_OFFLINE_PEND n.val = true ∧
      counter t 516 = counter s 516 + 1 ∧
      t.lastReply.status = .ok) ∧
  (∀ (s : State) (agent : Agent) (n : Fin 8) (alive : BitVec 8),
    headPresent s.variant n.val = true →
    isolated s n.val = true →
    s.sq.lost = [] →
    ∃ t, exec (.fmReinstate agent (BitVec.ofNat 8 (2 ^ n.val)) alive) s = .next t ∧
      isolated t n.val = false ∧
      t.wc[n].slots = [] ∧
      t.sled[n] = Sled.reset ∧
      t.se[Fin.ofNat 10 n.val] = Servo.reset ∧
      (List.range 4).all (fun c => t.ch[headChan n (Fin.ofNat 4 c)] == Channel.reset) = true ∧
      t.lastReply.status = .ok) ∧
  (∀ (s : State) (agent : Agent) (n : Fin 8),
    headPresent s.variant n.val = true →
    s.sq.lost = [.block (Fin.ofNat 20 n.val)] →
    ∃ t, exec (.fmReinstate agent (BitVec.ofNat 8 (2 ^ n.val)) 0) s = .next t ∧
      fget t fldSQ_STAT_FM_DENIED = 1 ∧
      isolated t n.val = isolated s n.val ∧
      t.lastReply.status = .ok ∧
      regsBut s t [regSQ_STAT] ∧
      changesOnly [.regs, .lastReply] s t) ∧
  (∀ (s : State) (cycle : Word),
    fbit s fldSQ_STAT_SAFE = false →
    ∃ t, exec (.lockstepMismatch cycle) s = .next t ∧
      fget t fldSQ_STAT_SAFE = 1 ∧
      fget t fldSQ_STAT_SAFE_CAUSE = 1 ∧
      fget t fldSQ_STAT_PIN_LOW = 1 ∧
      fget t fldSQ_STAT_SAFE_EVT = 1 ∧
      counter t 517 = counter s 517 + 1 ∧
      counter t 516 = counter s 516 + 1 ∧
      (heads s).all (fun n => t.sled[n].parkSrc.contains 2) = true ∧
      t.fifo = (chipRecord s 0x10 0 0xF 4 cycle.toNat).fifo ∧
      memoryAs (chipRecord s 0x10 0 0xF 4 cycle.toNat) t ∧
      driversBut (chipRecord s 0x10 0 0xF 4 cycle.toNat) t [regSQ_STAT, regSPN_STAT, regSPN_SPD]) ∧
  (∀ (s : State),
    fbit s fldSQ_STAT_SAFE = false →
    ∃ t, exec (.safeExt true) s = .next t ∧
      fget t fldSQ_STAT_SAFE = 1 ∧
      fget t fldSQ_STAT_SAFE_CAUSE = 4 ∧
      t.sq = { s.sq with pinLow := true } ∧
      counter t 517 = counter s 517 + 1) ∧
  (∀ (s : State),
    ∃ t, exec (.safeExt false) s = .next t ∧
      t.sq = { s.sq with pinLow := false } ∧
      fget t fldSQ_STAT_PIN_LOW = fget s fldSQ_STAT_SAFE ∧
      regsBut s t [regSQ_STAT] ∧
      changesOnly [.regs, .sq] s t) ∧
  (∀ (s : State) (agent : Agent) (value : Word),
    bitsOf value.toNat 31 24 = 0x4B →
    ∃ t, exec (.sqKick agent value) s = .next t ∧
      t.sq = { s.sq with expiries := 0 } ∧
      t.lastReply.status = .ok ∧
      changesOnly [.sq, .lastReply] s t) ∧
  (∀ (s : State) (agent : Agent) (value : Word),
    bitsOf value.toNat 31 24 ≠ 0x4B →
    ∃ t, exec (.sqKick agent value) s = .next t ∧
      t.sq = s.sq ∧
      t.lastReply.status = .ok ∧
      changesOnly [.lastReply] s t) ∧
  (∀ (s : State) (agent : Agent),
    ∃ t, exec (.watchdogEnable agent) s = .next t ∧
      fget t fldSQ_CFG_WD_EN = 1 ∧
      t.lastReply.status = .ok ∧
      regsBut s t [regSQ_CFG] ∧
      changesOnly [.regs, .lastReply] s t) ∧
  (∀ (s : State),
    fbit s fldSQ_CFG_WD_EN = true →
    s.sq.expiries = 0 →
    ∃ t, exec (.wdExpire) s = .next t ∧
      t.sq = { s.sq with expiries := 1 } ∧
      fget t fldSQ_STAT_WD_WARN = 1 ∧
      fget t fldSQ_STAT_SAFE = fget s fldSQ_STAT_SAFE ∧
      memoryAs (chipRecord s 0x0F 0 0xF 0 1) t ∧
      t.fifo = (chipRecord s 0x0F 0 0xF 0 1).fifo ∧
      regsBut (chipRecord s 0x0F 0 0xF 0 1) t [regSQ_STAT]) ∧
  (∀ (s : State),
    fbit s fldSQ_CFG_WD_EN = true →
    fbit s fldSQ_STAT_SAFE = false →
    s.sq.expiries = 1 →
    ∃ t, exec (.wdExpire) s = .next t ∧
      t.sq = { s.sq with expiries := 2 } ∧
      fget t fldSQ_STAT_WD_WARN = 1 ∧
      fget t fldSQ_STAT_SAFE = 1 ∧
      fget t fldSQ_STAT_SAFE_CAUSE = 5 ∧
      counter t 517 = counter s 517 + 1 ∧
      memoryAs (chipRecord s 0x0F 0 0xF 4 2) t) ∧
  (∀ (s : State) (agent : Agent) (value : Word),
    bitsOf value.toNat 31 24 = 0x5A →
    fbit s fldSQ_STAT_SAFE = false →
    ∃ t, exec (.safeReq agent value) s = .next t ∧
      fget t fldSQ_STAT_SAFE = 1 ∧
      fget t fldSQ_STAT_SAFE_CAUSE = 7 ∧
      counter t 517 = counter s 517 + 1 ∧
      t.lastReply.status = .ok ∧
      memoryAs (chipRecord s 0x12 0 0xF 4 agent.id) t) ∧
  (∀ (s : State) (agent : Agent) (value : Word),
    bitsOf value.toNat 31 24 ≠ 0x5A →
    ∃ t, exec (.safeReq agent value) s = .next t ∧
      t.lastReply.status = .ok ∧
      changesOnly [.lastReply] s t)

/-- R490 to R494: DORMANT_ENTER is denied with the conditions that fail; with none it quiets the controller, keeps staging memory
and the GPIO lines and turns VCORE off, unless an enabled wake source fires first; an enabled wake source, or the alarm, ends
Dormant, is recorded, and releases the core reset; OSTS.RDY is held back until it is let go. Also: R553 to R555: writing
RST_CTL with its code resets everything outside the island: WARM keeps the DRAM controller and staging memory, CORE and
RESET_N do not, POR turns the rails off and on again; every one keeps the flash, the stored key, and the time; while RESET_N
is low the core is held. Where a rule leaves a point open, the model's own choice stands (log 72, 73). -/
def Obligations.DormantAndResetsOfTheCore : Prop :=
  (∀ (s : State) (agent : Agent) (wake : BitVec 5),
    dormDeny s agent ≠ 0 →
    ∃ t, exec (.dormantEnter agent wake) s = .next t ∧
      fget t fldSUP_STAT_DORM_DENIED = 1 ∧
      fget t fldSUP_DORM_STAT_DENY = dormDeny s agent ∧
      t.lastReply.status = .ok ∧
      regsBut s t [regSUP_STAT, regSUP_DORM_STAT] ∧
      changesOnly [.regs, .lastReply] s t) ∧
  (∀ (s : State) (agent : Agent) (wake : BitVec 5),
    dormDeny s agent = 0 →
    wake.toNat &&& fget s fldSUP_DORM_WAKE_EN = 0 →
    ∃ t, exec (.dormantEnter agent wake) s = .next t ∧
      t.sup.dormant = true ∧
      t.sup.wakeEn = fget s fldSUP_DORM_WAKE_EN ∧
      t.sup.alarm = rd s regSUP_ALARM_HI ++ rd s regSUP_ALARM_LO ∧
      fget t fldPLZ_STAT_RUNNING = 0 ∧
      fget t fldDRAM_STAT_STATE = 4 ∧
      t.mem = s.mem.filter (fun c => decide (0x8000000000 ≤ c.1)) ∧
      t.dram = (selfRefresh s).dram ∧
      t.pins.gpioHeld = some (gpioLevels s, gpioDriven s) ∧
      counter t 503 = counter s 503 + 1) ∧
  (∀ (s : State) (agent : Agent) (wake : BitVec 5),
    dormDeny s agent = 0 →
    wake.toNat &&& fget s fldSUP_DORM_WAKE_EN ≠ 0 →
    ∃ t, exec (.dormantEnter agent wake) s = .next t ∧
      fget t fldSUP_STAT_DORM_ABORT = 1 ∧
      t.sup.dormant = s.sup.dormant ∧
      fget t fldDRAM_STAT_STATE = 2 ∧
      fget t fldSUP_CTL_BOOST_EN = 0 ∧
      fget t fldSUP_CTL_MBUS_EN = 0 ∧
      t.mem = s.mem) ∧
  (∀ (s : State) (sources : BitVec 5),
    s.sup.dormant = true →
    (if portPresent s.variant 1 then sources.toNat else sources.toNat &&& 29) &&& s.sup.wakeEn ≠ 0 →
    s.boot.pinLow = false →
    ∃ t, exec (.wakeEvent sources) s = .next t ∧
      t.sup.dormant = false ∧
      fget t fldSUP_STAT_WOKE = 1 ∧
      (fget t fldSUP_DORM_STAT_WAKE_SRC = ((if portPresent s.variant 1 then sources.toNat else sources.toNat &&& 29) &&& s.sup.wakeEn) % 32) ∧
      fget t fldRST_STAT_CAUSE = 6 ∧
      fget t fldPLZ_STAT_RUNNING = 1 ∧
      t.boot.wake = true ∧
      t.host.rdyHold = true ∧
      t.pins.gpioHeld = none ∧
      counter t 504 = counter s 504 + 1 ∧
      t.mem = s.mem) ∧
  (∀ (s : State) (sources : BitVec 5),
    s.sup.dormant = true →
    sources.toNat &&& s.sup.wakeEn = 0 →
    ∃ t, exec (.wakeEvent sources) s = .next t ∧
      t = s) ∧
  (∀ (s : State),
    s.sup.dormant = true →
    s.sup.wakeEn.testBit 4 = true →
    s.boot.pinLow = false →
    ∃ t, exec (.supAlarmReached) s = .next t ∧
      t.sup.dormant = false ∧
      fget t fldSUP_DORM_STAT_WAKE_SRC = 16 ∧
      fget t fldRST_STAT_CAUSE = 6 ∧
      fget t fldPLZ_STAT_RUNNING = 1 ∧
      counter t 504 = counter s 504 + 1) ∧
  (∀ (s : State),
    s.host.rdyHold = true →
    ∃ t, exec (.wakeRdyRelease) s = .next t ∧
      t.host = { s.host with rdyHold := false } ∧
      t.sup = { s.sup with late := !(fbit s fldHOST_CTL_READY) } ∧
      (List.range 2).all (fun p => !(portPresent s.variant p) || (fbit t (fldOSTS_RDY p) == (fbit s (fldOCFG_EN p) && fbit s fldHOST_CTL_READY))) = true ∧
      regsBut s t [regOSTS 0, regOSTS 1] ∧
      changesOnly [.regs, .host, .sup] s t) ∧
  (∀ (s : State) (agent : Agent) (value : Word),
    value = 0xA5000001 →
    s.boot.pinLow = false →
    s.sq.pinLow = false →
    fbit s fldSQ_STAT_SAFE = false →
    ∃ t, exec (.warmReset agent value) s = .next t ∧
      fget t fldRST_STAT_CAUSE = 5 ∧
      fget t fldPLZ_STAT_RUNNING = 1 ∧
      t.mem = s.mem.filter (fun c => decide (0x8000000000 ≤ c.1)) ∧
      t.dram = s.dram ∧
      (List.range 8).all (fun i => rd t (dramBase + 4 * i) == rd s (dramBase + 4 * i)) = true ∧
      t.core = State.reset.core ∧
      t.host = State.reset.host ∧
      t.boot.flash = s.boot.flash ∧
      t.boot.recover = false ∧
      t.chipTime = s.chipTime ∧
      t.arv.verifier = s.arv.verifier ∧
      islandBut s t [regRST_STAT, regSQ_STAT, regSQ_CFG, regFM_ISOLATE, regSUP_DORM_STAT]) ∧
  (∀ (s : State) (agent : Agent) (value : Word),
    value = 0xA5000002 →
    s.boot.pinLow = false →
    s.sq.pinLow = false →
    fbit s fldSQ_STAT_SAFE = false →
    ∃ t, exec (.coreReset agent value) s = .next t ∧
      fget t fldRST_STAT_CAUSE = 4 ∧
      fget t fldPLZ_STAT_RUNNING = 1 ∧
      t.mem = [] ∧
      t.core = State.reset.core ∧
      t.dram = State.reset.dram ∧
      t.host = State.reset.host ∧
      t.boot.flash = s.boot.flash ∧
      t.chipTime = s.chipTime ∧
      t.arv.verifier = s.arv.verifier ∧
      resetOutside t [regPLZ_STAT, regKEY_STAT] ∧
      islandBut s t [regRST_STAT, regSQ_STAT, regSQ_CFG, regFM_ISOLATE, regSUP_DORM_STAT]) ∧
  (∀ (s : State) (agent : Agent) (value : Word),
    value = 0xA5000004 →
    s.boot.pinLow = false →
    s.sup.seq = .done →
    s.sup.dormant = false →
    ∃ t, exec (.porRequest agent value) s = .next t ∧
      t.sup.seq = .down 0 true ∧
      fget t fldSUP_STAT_SUPPLY_FAULT = 1 ∧
      t.sup.live.contains 7 = true ∧
      t.lastReply.status = .ok ∧
      t.mem = s.mem ∧
      driversBut s t [regSUP_STAT]) ∧
  (∀ (s : State) (agent : Agent) (value : Word),
    bitsOf value.toNat 31 24 ≠ 0xA5 →
    ∃ t, exec (.coreReset agent value) s = .next t ∧
      t.lastReply.status = .ok ∧
      changesOnly [.lastReply] s t) ∧
  (∀ (s : State),
    s.boot.pinLow = false →
    ∃ t, exec (.resetPin true) s = .next t ∧
      t.boot = { s.boot with pinLow := true, waiting := none } ∧
      fget t fldPLZ_STAT_RUNNING = 0 ∧
      fget t fldSUP_CTL_BOOST_EN = 0 ∧
      fget t fldSUP_CTL_MBUS_EN = 0 ∧
      (heads s).all (fun n => !(t.sled[n].powered)) = true ∧
      spnState t = 0) ∧
  (∀ (s : State),
    s.boot.pinLow = true →
    s.boot.waiting = none →
    s.sup.seq = .done →
    s.sup.dormant = false →
    s.sq.pinLow = false →
    fbit s fldSQ_STAT_SAFE = false →
    ∃ t, exec (.resetPin false) s = .next t ∧
      fget t fldRST_STAT_CAUSE = 3 ∧
      fget t fldPLZ_STAT_RUNNING = 1 ∧
      t.boot.pinLow = false ∧
      t.mem = [] ∧
      t.core = State.reset.core ∧
      t.boot.flash = s.boot.flash ∧
      resetOutside t [regPLZ_STAT, regKEY_STAT])

/-- R424, R556 to R560 and R575: the boot ROM goes to recovery when it is asked to, or when neither slot holds a good image, and a
wake goes on with its resume image when its digest is right; recovery answers STATUS, erases, programs and reads the flash,
and reboots; an attached endpoint answers in normal running; a flash command ends with its effect, or in error when the flash
stays busy. What the ROM leaves in the registers that no rule names, and in TCM bank 3, is free (log 1). Where a rule leaves a
point open, the model's own choice stands (log 1, 21, 74). -/
def Obligations.BootRecoveryAndFlash : Prop :=
  (∀ (s : State) (ident : List Byte),
    inReset s = false →
    s.boot.stage = .rom →
    s.boot.recover = true →
    ∃ t, exec (.boot ident) s = .next t ∧
      t.boot.stage = .recovery ∧
      fget t fldRST_STAT_BOOT_SLOT = 2 ∧
      t.boot.attached.contains 0 = true ∧
      t.boot.flash = s.boot.flash ∧
      (permitOwner t 20 = (if permitOwner s 20 = 0 then 1 else permitOwner s 20))) ∧
  (∀ (s : State) (ident : List Byte),
    inReset s = false →
    s.boot.stage = .rom →
    s.boot.recover = false →
    s.boot.wake = false →
    ident.any (fun b => b != 0) = true →
    ident.any (fun b => b != 0xFF) = true →
    hdrNum (flashBytes s 0 256) 0 4 ≠ 0x4F52424F →
    hdrNum (flashBytes s 0x80000 256) 0 4 ≠ 0x4F52424F →
    ∃ t, exec (.boot ident) s = .next t ∧
      t.boot.stage = .recovery ∧
      fget t fldRST_STAT_BOOT_SLOT = 2 ∧
      fget t fldRST_STAT_BOOT_ERR = 2) ∧
  (∀ (s : State) (ident : List Byte) (bs : List Byte),
    inReset s = false →
    s.boot.stage = .rom →
    s.boot.recover = false →
    s.boot.wake = true →
    fget s fldRST_RESUME_LEN_LEN ≠ 0 →
    (resumeImage (permitClaim s 1 20 0x10)).2 = some bs →
    ∃ t, exec (.boot ident) s = .next t ∧
      t.boot.stage = .firmware ∧
      t.boot.wake = false ∧
      fget t fldRST_STAT_BOOT_SLOT = 3 ∧
      t.core[(0 : Fin 4)].pc = BitVec.ofNat 64 (0x1000000 + fget s fldRST_RESUME_LEN_RESUME) ∧
      t.core[(0 : Fin 4)].x[(0 : Fin 32)] = 0 ∧
      t.core[(0 : Fin 4)].x[(10 : Fin 32)] = (rd t regRST_STAT).setWidth 64 ∧
      t.core[(0 : Fin 4)].x[(11 : Fin 32)] = 0 ∧
      permitOwner t 20 = 0) ∧
  (∀ (s : State) (port : Port),
    recoveryOn s port.val = true →
    ∃ t, exec (.recoveryStatus port) s = .next t ∧
      t.lastReply.bytes = natLe 4 stSuccess ++ natLe 4 (rd s regRST_STAT).toNat ∧
      t.lastReply.status = .ok ∧
      changesOnly [.lastReply] s t) ∧
  (∀ (s : State) (port : Port) (offset length : Word),
    recoveryOn s port.val = true →
    length ≠ 0 →
    offset.toNat + length.toNat ≤ 2 ^ 24 →
    ∃ t, exec (.recoveryErase port offset length) s = .next t ∧
      t.boot = { s.boot with flash := s.boot.flash.filter (fun c => decide (c.1 < offset.toNat / 4096 * 4096) || decide ((offset.toNat + length.toNat + 4095) / 4096 * 4096 ≤ c.1)) } ∧
      t.lastReply.bytes = natLe 4 stSuccess ++ natLe 4 ((offset.toNat + length.toNat + 4095) / 4096 - offset.toNat / 4096) ∧
      changesOnly [.boot, .lastReply] s t) ∧
  (∀ (s : State) (port : Port) (offset : Word) (data : List Byte),
    recoveryOn s port.val = true →
    data.length ≤ 4096 →
    offset.toNat + data.length ≤ 2 ^ 24 →
    ∃ t, exec (.recoveryProgram port offset data) s = .next t ∧
      flashBytes t offset.toNat data.length = ((flashBytes s offset.toNat data.length).zip data).map (fun p => p.1 &&& p.2) ∧
      t.boot = { s.boot with flash := t.boot.flash } ∧
      t.lastReply.bytes = natLe 4 stSuccess ++ natLe 4 data.length ∧
      changesOnly [.boot, .lastReply] s t) ∧
  (∀ (s : State) (port : Port) (offset : Word) (data : List Byte),
    recoveryOn s port.val = true →
    (4096 < data.length ∨ 2 ^ 24 < offset.toNat + data.length) →
    ∃ t, exec (.recoveryProgram port offset data) s = .next t ∧
      t.lastReply.bytes = natLe 4 stInvalidField ++ natLe 4 0 ∧
      changesOnly [.lastReply] s t) ∧
  (∀ (s : State) (port : Port) (offset length : Word),
    recoveryOn s port.val = true →
    length.toNat ≤ 4096 →
    offset.toNat + length.toNat ≤ 2 ^ 24 →
    ∃ t, exec (.recoveryRead port offset length) s = .next t ∧
      t.lastReply.bytes = natLe 4 stSuccess ++ natLe 4 length.toNat ++ flashBytes s offset.toNat length.toNat ∧
      changesOnly [.lastReply] s t) ∧
  (∀ (s : State) (port : Port),
    recoveryOn s port.val = true →
    s.sq.pinLow = false →
    fbit s fldSQ_STAT_SAFE = false →
    ∃ t, exec (.recoveryReboot port) s = .next t ∧
      fget t fldRST_STAT_CAUSE = 4 ∧
      t.boot.stage = .rom ∧
      fget t fldPLZ_STAT_RUNNING = 1 ∧
      t.boot.flash = s.boot.flash ∧
      t.mem = [] ∧
      resetOutside t [regPLZ_STAT, regKEY_STAT]) ∧
  (∀ (s : State) (port : Port),
    mgmtOn s port.val = true →
    ∃ t, exec (.mgmtStatus port) s = .next t ∧
      t.lastReply.bytes = natLe 4 stSuccess ++ natLe 4 (rd s regRST_STAT).toNat ∧
      t.lastReply.status = .ok ∧
      changesOnly [.lastReply] s t) ∧
  (∀ (s : State) (port : Port),
    mgmtOn s port.val = true →
    ∃ t, exec (.mgmtUnsupportedRequest port) s = .next t ∧
      t.lastReply.bytes = natLe 4 stUnsupported ++ natLe 4 0 ∧
      changesOnly [.lastReply] s t) ∧
  (∀ (s : State) (data : List Byte) (c : FlashCmd),
    s.boot.spi = some c →
    c.opcode = 0x03 →
    c.toFlash = false →
    ∃ t, exec (.spiTransferDone data) s = .next t ∧
      t.boot = { s.boot with spi := none } ∧
      fget t fldSPI_STAT_DONE = 1 ∧
      fget t fldSPI_STAT_BUSY = 0 ∧
      memoryAs (memWriteD s 0 c.tcm (flashBytes s (c.addr.getD 0) c.len)) t ∧
      regsBut (memWriteD s 0 c.tcm (flashBytes s (c.addr.getD 0) c.len)) t [regSPI_STAT] ∧
      changesOnly [.regs, .boot, .mem, .poison, .counters, .wraps, .arcade, .dramErr, .chkErr, .tcmErr, .reports, .core] s t) ∧
  (∀ (s : State) (data bs : List Byte) (c : FlashCmd),
    s.boot.spi = some c →
    c.opcode = 0x02 →
    c.toFlash = true →
    s.boot.flashWe = true →
    memRead s 0 c.tcm c.len = (s, some (bs, false)) →
    ∃ t, exec (.spiTransferDone data) s = .next t ∧
      t.boot = { s.boot with spi := none, flashWe := false, flash := t.boot.flash } ∧
      flashBytes t (c.addr.getD 0) bs.length = ((flashBytes s (c.addr.getD 0) bs.length).zip bs).map (fun p => p.1 &&& p.2) ∧
      fget t fldSPI_STAT_DONE = 1 ∧
      fget t fldSPI_STAT_BUSY = 0 ∧
      regsBut s t [regSPI_STAT] ∧
      changesOnly [.regs, .boot] s t) ∧
  (∀ (s : State) (c : FlashCmd),
    s.boot.spi = some c →
    ∃ t, exec (.spiBusyTimeout) s = .next t ∧
      t.boot = { s.boot with spi := none } ∧
      fget t fldSPI_STAT_ERR = 1 ∧
      fget t fldSPI_STAT_BUSY = 0 ∧
      regsBut s t [regSPI_STAT] ∧
      changesOnly [.regs, .boot] s t)

/-- R574, R576 and R577: GPIO_FUNC takes a write from the line's owner for the function it claimed, SET and CLR act on lines that
the writer owns or are dropped whole with DENIED, a timer is set up by its owner; an edge of a line shows in GPIO_IN, sets its
event where it is selected, and is captured by a timer on that line; a PWM period takes the latest period, at least 2, and
duty. Where a rule leaves a point open, the model's own choice stands (log 27, 76). -/
def Obligations.GpioLinesAndEdgeTimers : Prop :=
  (∀ (s : State) (agent : Agent) (line : Fin 16) (value : Word),
    permitOwner s line.val = agent.id →
    (gpioFunc value.toNat = 0 ∨ gpioFunc value.toNat = fget s (fldPERMIT_FEATURE line.val)) →
    ∃ t, exec (.gpioFuncWrite agent line value) s = .next t ∧
      rd t (regGPIO_FUNC line.val) = BitVec.ofNat 32 (bitsOf value.toNat 12 12 * 2 ^ 12 + bitsOf value.toNat 9 8 * 2 ^ 8 + bitsOf value.toNat 2 0) ∧
      t.lastReply.status = .ok ∧
      regsBut s t [regGPIO_FUNC line.val] ∧
      changesOnly [.regs, .lastReply] s t) ∧
  (∀ (s : State) (agent : Agent) (line : Fin 16) (value : Word),
    (permitOwner s line.val ≠ agent.id ∨ (gpioFunc value.toNat ≠ 0 ∧ gpioFunc value.toNat ≠ fget s (fldPERMIT_FEATURE line.val))) →
    ∃ t, exec (.gpioFuncWrite agent line value) s = .next t ∧
      fget t (fldPERMIT_DENIED line.val) = 1 ∧
      fget t (fldPERMIT_DENY_ID line.val) = agent.id % 64 ∧
      t.lastReply.status = .ok ∧
      regsBut s t [regPERMIT line.val] ∧
      changesOnly [.regs, .lastReply] s t) ∧
  (∀ (s : State) (agent : Agent) (lines : BitVec 16),
    (List.range 16).all (fun k => !(lines.toNat.testBit k) || permitOwner s k == agent.id) = true →
    ∃ t, exec (.gpioOeSet agent lines) s = .next t ∧
      (List.range 16).all (fun k => fbitAt t fldGPIO_OE_EN k == (fbitAt s fldGPIO_OE_EN k || lines.toNat.testBit k)) = true ∧
      t.lastReply.status = .ok ∧
      regsBut s t [regGPIO_OE] ∧
      changesOnly [.regs, .lastReply] s t) ∧
  (∀ (s : State) (agent : Agent) (lines : BitVec 16),
    (List.range 16).all (fun k => !(lines.toNat.testBit k) || permitOwner s k == agent.id) = true →
    ∃ t, exec (.gpioOeClr agent lines) s = .next t ∧
      (List.range 16).all (fun k => fbitAt t fldGPIO_OE_EN k == (fbitAt s fldGPIO_OE_EN k && !(lines.toNat.testBit k))) = true ∧
      t.lastReply.status = .ok ∧
      regsBut s t [regGPIO_OE] ∧
      changesOnly [.regs, .lastReply] s t) ∧
  (∀ (s : State) (agent : Agent) (lines : BitVec 16),
    (List.range 16).all (fun k => !(lines.toNat.testBit k) || permitOwner s k == agent.id) = true →
    ∃ t, exec (.gpioOutSet agent lines) s = .next t ∧
      (List.range 16).all (fun k => fbitAt t fldGPIO_OUT_LEVEL k == (fbitAt s fldGPIO_OUT_LEVEL k || lines.toNat.testBit k)) = true ∧
      t.lastReply.status = .ok ∧
      regsBut s t [regGPIO_OUT] ∧
      changesOnly [.regs, .lastReply] s t) ∧
  (∀ (s : State) (agent : Agent) (lines : BitVec 16),
    (List.range 16).all (fun k => !(lines.toNat.testBit k) || permitOwner s k == agent.id) = true →
    ∃ t, exec (.gpioOutClr agent lines) s = .next t ∧
      (List.range 16).all (fun k => fbitAt t fldGPIO_OUT_LEVEL k == (fbitAt s fldGPIO_OUT_LEVEL k && !(lines.toNat.testBit k))) = true ∧
      t.lastReply.status = .ok ∧
      regsBut s t [regGPIO_OUT] ∧
      changesOnly [.regs, .lastReply] s t) ∧
  (∀ (s : State) (agent : Agent) (lines : BitVec 16) (k : Fin 16),
    lines.toNat.testBit k.val = true →
    permitOwner s k.val ≠ agent.id →
    ∃ t, exec (.gpioOutSet agent lines) s = .next t ∧
      fget t (fldPERMIT_DENIED k.val) = 1 ∧
      rd t regGPIO_OUT = rd s regGPIO_OUT ∧
      t.lastReply.status = .ok ∧
      regsBut s t ((List.range 16).map regPERMIT) ∧
      changesOnly [.regs, .lastReply] s t) ∧
  (∀ (s : State) (agent : Agent) (k : Fin 4) (value : Word),
    permitOwner s (16 + k.val) = agent.id →
    (bitsOf value.toNat 31 31 = 0 ∨ (permitOwner s (bitsOf value.toNat 19 16) = agent.id ∧ fget s (fldPERMIT_FEATURE (bitsOf value.toNat 19 16)) = (if bitsOf value.toNat 29 28 = 3 then 3 else 2))) →
    ∃ t, exec (.tmrCfgWrite agent k value) s = .next t ∧
      rd t (regTMR_CFG k.val) = BitVec.ofNat 32 (bitsOf value.toNat 31 31 * 2 ^ 31 + bitsOf value.toNat 29 28 * 2 ^ 28 + bitsOf value.toNat 19 16 * 2 ^ 16) ∧
      t.lastReply.status = .ok ∧
      regsBut s t [regTMR_CFG k.val] ∧
      changesOnly [.regs, .lastReply] s t) ∧
  (∀ (s : State) (agent : Agent) (k : Fin 4) (value : Word),
    permitOwner s (16 + k.val) ≠ agent.id →
    ∃ t, exec (.tmrCfgWrite agent k value) s = .next t ∧
      fget t (fldPERMIT_DENIED (16 + k.val)) = 1 ∧
      t.lastReply.status = .ok ∧
      regsBut s t [regPERMIT (16 + k.val)] ∧
      changesOnly [.regs, .lastReply] s t) ∧
  (∀ (s : State) (line : Fin 16) (rise : Bool),
    inReset s = false →
    ∃ t, exec (.gpioEdgeEvent line rise) s = .next t ∧
      fbitAt t fldGPIO_IN_LEVEL line.val = rise ∧
      (fbitAt t fldGPIO_EVT_LINE line.val = (fbitAt s fldGPIO_EVT_LINE line.val || fbitAt s (if rise then fldGPIO_EDGE_RISE else fldGPIO_EDGE_FALL) line.val)) ∧
      (List.range 4).all (fun k => fbitAt t fldGPIO_EVT_TMR k == (fbitAt s fldGPIO_EVT_TMR k || captures s k line.val rise)) = true ∧
      ((List.range 4).filter (fun k => captures s k line.val rise)).all (fun k => (rd t (regTMR_CAP_HI k) ++ rd t (regTMR_CAP_LO k)) == s.chipTime) = true ∧
      regsBut s t (regGPIO_IN :: regGPIO_EVT :: ((List.range 4).filter (fun k => captures s k line.val rise)).flatMap (fun k => [regTMR_CAP_LO k, regTMR_CAP_HI k])) ∧
      changesOnly [.regs] s t) ∧
  (∀ (s : State) (k : Fin 4),
    fbit s (fldTMR_CFG_EN k.val) = true →
    fget s (fldTMR_CFG_MODE k.val) = 3 →
    xingArmed s 50 = true →
    ∃ t, exec (.timerPeriodStart k) s = .next t ∧
      t.pins = { s.pins with timers := s.pins.timers.set k (Nat.max 2 (fget s (fldTMR_PWM_PER k.val)), fget s (fldTMR_PWM_DUTY k.val)) } ∧
      changesOnly [.pins] s t)

/-- R578 to R587: a Kerb read of the status window drives its word at once, word 10 latching the time; an acknowledged write or
read is served by the core while it is up and ends when the strobe rises; the wake word wakes the chip from Dormant; both
strobes low set PROTO; SMBus reads the window's words with their packet error code; each JTAG instruction loads, EXTEST, CLAMP
and HIGHZ turning every driver off, and DEBUG performs one access unless the key is fused. Where a rule leaves a point open,
the model's own choice stands (log 75, 76, 77). -/
def Obligations.KerbSmbusAndJtag : Prop :=
  (∀ (s : State) (word : Fin 64),
    s.pins.strobe ≠ 2 →
    s.pins.ack = false →
    ∃ t, exec (.kerbStatusRead word) s = .next t ∧
      (t.pins = { s.pins with kerbTime := (if word.val = 10 then s.chipTime else s.pins.kerbTime), strobe := 1, kd := some (windowWord s word.val t.pins.kerbTime) }) ∧
      t.lastReply.value = windowWord s word.val t.pins.kerbTime ∧
      changesOnly [.pins, .lastReply] s t) ∧
  (∀ (s : State) (n : Fin 32) (value : BitVec 16),
    s.pins.strobe = 0 →
    coreWouldServe s = true →
    ∃ t, exec (.kerbInboundWrite n value) s = .next t ∧
      fget t (fldKRB_IN_WORD n.val) = value.toNat ∧
      fget t fldKRB_STAT_IN_WR = 1 ∧
      t.pins = { s.pins with coreServes := true, strobe := 2, ack := true, kd := none } ∧
      regsBut s t [regKRB_IN n.val, regKRB_STAT] ∧
      changesOnly [.regs, .pins, .lastReply] s t) ∧
  (∀ (s : State) (n : Fin 32) (value : BitVec 16),
    s.pins.strobe = 0 →
    coreWouldServe s = false →
    ∃ t, exec (.kerbInboundWrite n value) s = .next t ∧
      t.pins = { s.pins with coreServes := false, strobe := 2, ack := true, kd := none } ∧
      changesOnly [.pins, .lastReply] s t) ∧
  (∀ (s : State) (value : BitVec 16),
    s.pins.strobe = 0 →
    coreWouldServe s = true →
    ∃ t, exec (.kerbCommandWrite value) s = .next t ∧
      fget t fldKRB_CMD_CMD = value.toNat ∧
      fget t fldKRB_STAT_CMD = 1 ∧
      t.pins = { s.pins with coreServes := true, strobe := 2, ack := true, kd := none } ∧
      regsBut s t [regKRB_CMD, regKRB_STAT] ∧
      changesOnly [.regs, .pins, .lastReply] s t) ∧
  (∀ (s : State) (value : BitVec 16),
    s.pins.strobe = 0 →
    coreWouldServe s = true →
    ∃ t, exec (.kerbIntClear value) s = .next t ∧
      fbit t fldKRB_INT_ASSERT = (fbit s fldKRB_INT_ASSERT && !(value.getLsbD 0)) ∧
      fbit t fldKRB_STAT_INT_CLR = (fbit s fldKRB_STAT_INT_CLR || value.getLsbD 0) ∧
      t.pins = { s.pins with coreServes := true, strobe := 2, ack := true, kd := none } ∧
      regsBut s t [regKRB_INT, regKRB_STAT] ∧
      changesOnly [.regs, .pins, .lastReply] s t) ∧
  (∀ (s : State) (value : BitVec 16),
    s.pins.strobe = 0 →
    s.sup.dormant = false →
    ∃ t, exec (.kerbWakeWord value) s = .next t ∧
      t.pins = { s.pins with coreServes := coreWouldServe s, strobe := 2, ack := true, kd := none } ∧
      changesOnly [.pins, .lastReply] s t) ∧
  (∀ (s : State),
    s.pins.strobe = 0 →
    s.sup.dormant = true →
    s.sup.wakeEn.testBit 2 = true →
    s.boot.pinLow = false →
    ∃ t, exec (.kerbWakeWord 0x5A17) s = .next t ∧
      t.sup.dormant = false ∧
      fget t fldSUP_DORM_STAT_WAKE_SRC = 4 ∧
      fget t fldRST_STAT_CAUSE = 6 ∧
      fget t fldPLZ_STAT_RUNNING = 1 ∧
      counter t 504 = counter s 504 + 1) ∧
  (∀ (s : State) (word : BitVec 8),
    s.pins.strobe = 0 →
    coreWouldServe s = true →
    0x40 ≤ word.toNat →
    ∃ t, exec (.kerbAckAccess word false) s = .next t ∧
      t.pins = { s.pins with coreServes := true, strobe := 1, ack := true, kd := some (kerbWord s word.toNat) } ∧
      t.lastReply.value = kerbWord s word.toNat ∧
      changesOnly [.pins, .lastReply] s t) ∧
  (∀ (s : State),
    inReset s = false →
    ∃ t, exec (.kerbProtocolError) s = .next t ∧
      fget t fldKRB_STAT_PROTO = 1 ∧
      regsBut s t [regKRB_STAT] ∧
      changesOnly [.regs] s t) ∧
  (∀ (s : State),
    s.pins.strobe = 0 →
    ∃ t, exec (.kerbResponderSwitch) s = .next t ∧
      t.pins = { s.pins with coreServes := coreWouldServe s } ∧
      changesOnly [.pins] s t) ∧
  (∀ (s : State),
    ∃ t, exec (.kerbStrobeRise) s = .next t ∧
      t.pins = { s.pins with strobe := 0, ack := false, kd := none } ∧
      changesOnly [.pins] s t) ∧
  (∀ (s : State) (temp : BitVec 16),
    inReset s = false →
    ∃ t, exec (.kerbCopyRefresh temp) s = .next t ∧
      windowWord t 14 0 = temp.toNat ∧
      windowWord t 5 0 = bitsOf (rd s regSUP_STAT).toNat 31 20 * 16 ∧
      windowWord t 6 0 = (rd s regSPN_STAT).toNat / 2 ^ 16 ∧
      windowWord t 8 0 = fget s fldSWP_HEAD_ONLINE_ONLINE * 256 + fget s fldFM_ISOLATE_ISOLATED ∧
      t.pins = { s.pins with copies := t.pins.copies } ∧
      changesOnly [.pins] s t) ∧
  (∀ (s : State) (word : Fin 64),
    fbit s fldSMB_CFG_PEC = false →
    ∃ t, exec (.smbusReadWord word) s = .next t ∧
      (t.pins = { s.pins with smbTime := (if word.val = 10 then s.chipTime else s.pins.smbTime) }) ∧
      t.lastReply.bytes = toBytes [windowWord s word.val t.pins.smbTime % 256, windowWord s word.val t.pins.smbTime / 256 % 256] ∧
      changesOnly [.pins, .lastReply] s t) ∧
  (∀ (s : State),
    fbit s fldSMB_CFG_PEC = true →
    ∃ t, exec (.smbusBlockRead) s = .next t ∧
      t.pins = { s.pins with smbTime := s.chipTime } ∧
      t.lastReply.bytes.length = 34 ∧
      t.lastReply.bytes.take 33 = toBytes (32 :: (List.range 16).flatMap (fun w => [windowWord s w s.chipTime % 256, windowWord s w s.chipTime / 256 % 256])) ∧
      crc8 ([2 * fget s fldSMB_CFG_ADDR, 0x40, 2 * fget s fldSMB_CFG_ADDR + 1] ++ t.lastReply.bytes.map (·.toNat)) = 0 ∧
      changesOnly [.pins, .lastReply] s t) ∧
  (∀ (s : State),
    ∃ t, exec (.smbusNack) s = .next t ∧
      fget t fldSMB_CFG_NACKED = 1 ∧
      regsBut s t [regSMB_CFG] ∧
      changesOnly [.regs] s t) ∧
  (∀ (s : State),
    alertLow s = true →
    ∃ t, exec (.smbusAlertResponse) s = .next t ∧
      t.lastReply.bytes = toBytes [2 * fget s fldSMB_CFG_ADDR] ∧
      changesOnly [.lastReply] s t) ∧
  (∀ (s : State),
    ∃ t, exec (.jtagTapReset) s = .next t ∧
      t.pins = { s.pins with jtagIr := 1 } ∧
      driversBut s t [] ∧
      changesOnly [.regs, .pins, .wc] s t) ∧
  (∀ (s : State),
    ∃ t, exec (.idcode) s = .next t ∧
      t.pins = { s.pins with jtagIr := 1 } ∧
      t.lastReply.value = idcode s.variant ∧
      driversBut s t [] ∧
      changesOnly [.regs, .pins, .wc, .lastReply] s t) ∧
  (∀ (s : State) (cells : BitVec 118),
    ∃ t, exec (.samplePreload cells) s = .next t ∧
      t.pins = { s.pins with jtagIr := 2, boundary := cells.toNat } ∧
      t.lastReply.bytes = natLe 15 (cellsNat (boundaryCells s)) ∧
      driversBut s t [] ∧
      changesOnly [.regs, .pins, .wc, .lastReply, .freeCtr] s t) ∧
  (∀ (s : State),
    irHolds s.pins.jtagIr = false →
    ∃ t, exec (.extest) s = .next t ∧
      t.pins = { s.pins with jtagIr := 3 } ∧
      (heads s).all (fun n => !(t.sled[n].powered)) = true ∧
      spnState t = 0 ∧
      (heads s).all (fun n => !(writePresent s.variant) || fbitAt t (fldWC_STAT_LIVE n.val) 4) = true) ∧
  (∀ (s : State),
    irHolds s.pins.jtagIr = false →
    ∃ t, exec (.clamp) s = .next t ∧
      t.pins = { s.pins with jtagIr := 4 } ∧
      (heads s).all (fun n => !(t.sled[n].powered)) = true ∧
      spnState t = 0) ∧
  (∀ (s : State),
    irHolds s.pins.jtagIr = false →
    ∃ t, exec (.highz) s = .next t ∧
      t.pins = { s.pins with jtagIr := 5 } ∧
      (heads s).all (fun n => !(t.sled[n].powered)) = true ∧
      spnState t = 0) ∧
  (∀ (s : State),
    irHolds s.pins.jtagIr = true →
    ∃ t, exec (.highz) s = .next t ∧
      t.pins = { s.pins with jtagIr := 5 } ∧
      changesOnly [.pins] s t) ∧
  (∀ (s : State),
    ∃ t, exec (.bypass) s = .next t ∧
      t.pins = { s.pins with jtagIr := 0x3F } ∧
      driversBut s t [] ∧
      changesOnly [.regs, .pins, .wc] s t) ∧
  (∀ (s : State) (addr : BitVec 40) (data : Word) (v : Nat) (p : Bool),
    s.keyFused = false →
    (busRead (jtagLoad s 8) .jtag addr.toNat 4).2 = some (v, p) →
    ∃ t, exec (.debugAccess true false addr data) s = .next t ∧
      t.pins = { s.pins with jtagIr := 8, dbgErr := false, dbgData := BitVec.ofNat 32 v } ∧
      t.lastReply.value = v) ∧
  (∀ (s : State) (write : Bool) (addr : BitVec 40) (data : Word),
    s.keyFused = false →
    ∃ t, exec (.debugAccess false write addr data) s = .next t ∧
      t.pins = { s.pins with jtagIr := 8 } ∧
      driversBut s t [] ∧
      changesOnly [.regs, .pins, .wc] s t) ∧
  (∀ (s : State) (go write : Bool) (addr : BitVec 40) (data : Word),
    s.keyFused = true →
    ∃ t, exec (.debugAccess go write addr data) s = .next t ∧
      t.pins = { s.pins with jtagIr := 0x3F } ∧
      driversBut s t [] ∧
      changesOnly [.regs, .pins, .wc] s t)

/-- A step takes the command at the front of the queue and answers what exec answers for it on the state with the queue's rest. On
an empty queue the block idles: chip time, which R509 counts in nanoseconds, goes on by one count. The queue and the idle step
are the model's own (log 2). -/
def Obligations.StepRunsTheFrontCommand : Prop :=
  (∀ (s : State) (c : Instr) (rest : List Instr), s.pending = c :: rest → step s = exec c { s with pending := rest }) ∧
   (∀ s : State, s.pending = [] → step s = .next { s with chipTime := s.chipTime + 1 })

/-- Each of the 439 commands completes: whatever the state and the operands, exec answers a next state, never a fault or a
refusal. For each of them a list of parts of the state is given (mayChange: the register file, memory, one unit's own state
and so on), and the command leaves every part that its list does not name exactly as it was: its value after is its value
before. Which registers a command may change, and to what, is said by the statement of each command. -/
def Obligations.EveryCommandKeepsItsFrame : Prop :=
  ∀ (i : Instr) (s : State), ∃ t, exec i s = .next t ∧ changesOnly (mayChange i) s t

/-- From every state that meets the invariant, a step answers a next state, and that state meets it: memory and the flash image
are in their canonical form, x0 of every core reads 0 (R345) and a Crossing whose domain the variant lacks is WITHDRAWN (R44).
The variant and the fused key stay as they are, and the queue loses its front command and nothing else. The canonical form of
memory is the model's own (log 3). -/
def Obligations.EveryStepKeepsTheInvariant : Prop :=
  ∀ s : State, s.Inv →
    ∃ t, step s = .next t ∧ t.Inv ∧ t.variant = s.variant ∧ t.keyFused = s.keyFused ∧ t.pending = s.pending.tail

/-- State.reset meets the invariant: memory and the flash image are in their canonical form, x0 of every core reads 0 and a
Crossing whose domain the variant lacks is WITHDRAWN. No command waits. -/
def Obligations.ResetMeetsTheInvariant : Prop :=
  State.reset.Inv ∧ State.reset.pending = []

/-- Writing bytes into a memory in its canonical form keeps the form; reading a byte inside the written bytes answers the byte
written there, and reading any other byte answers what it read before. An unlisted address reads as the model's default byte
(log 3). -/
def Obligations.MemoryReadsWhatWasWritten : Prop :=
  ∀ (m : List Host.Cell) (a : Nat) (bs : List Byte), Memory.wf m = true →
    Memory.wf (Memory.writeBytes m a bs) = true ∧
    ∀ x, Memory.read (Memory.writeBytes m a bs) x = if a ≤ x ∧ x < a + bs.length then bs.getD (x - a) 0 else Memory.read m x

end
end

