-- ==== Sys2Proof/Laws/Memory.lean ====
section
/-! SUPPORT. Memory: every operation keeps the canonical form, a write is read back, and a write leaves every other address
alone. -/

namespace Sys2Proof
namespace Machine

theorem Memory.wfFrom_mono {lo hi : Nat} (h : lo ≤ hi) : ∀ {m : List Host.Cell}, Memory.wfFrom hi m = true → Memory.wfFrom lo m = true
  | [], _ => rfl
  | (k, b) :: t, hw => by
    simp only [Memory.wfFrom, Bool.and_eq_true, decide_eq_true_eq] at hw ⊢
    exact ⟨⟨Nat.le_trans h hw.1.1, hw.1.2⟩, hw.2⟩

theorem Memory.wfFrom_filter (p : Host.Cell → Bool) : ∀ {lo : Nat} {m : List Host.Cell},
    Memory.wfFrom lo m = true → Memory.wfFrom lo (m.filter p) = true
  | _, [], _ => rfl
  | lo, (k, b) :: t, hw => by
    simp only [Memory.wfFrom, Bool.and_eq_true, decide_eq_true_eq] at hw
    have ih := Memory.wfFrom_filter p hw.2
    by_cases hp : p (k, b) = true
    · rw [List.filter_cons_of_pos hp]
      simp only [Memory.wfFrom, Bool.and_eq_true, decide_eq_true_eq]
      exact ⟨hw.1, ih⟩
    · rw [List.filter_cons_of_neg hp]
      exact Memory.wfFrom_mono (Nat.le_succ_of_le hw.1.1) ih

theorem Memory.wf_filter (p : Host.Cell → Bool) {m : List Host.Cell} (h : Memory.wf m = true) : Memory.wf (m.filter p) = true :=
  Memory.wfFrom_filter p h

theorem Memory.wfFrom_insert {b : Byte} (hb : b ≠ Memory.default) (a : Nat) : ∀ {lo : Nat} {m : List Host.Cell},
    lo ≤ a → Memory.wfFrom lo m = true → Memory.wfFrom lo (Memory.insert m a b) = true
  | _, [], hl, _ => by simp [Memory.insert, Memory.wfFrom, hl, hb]
  | lo, (k, c) :: t, hl, hw => by
    have hw' := hw
    simp only [Memory.wfFrom, Bool.and_eq_true, decide_eq_true_eq] at hw
    unfold Memory.insert
    by_cases h1 : a < k
    · simp only [h1, if_true, Memory.wfFrom, Bool.and_eq_true, decide_eq_true_eq, bne_iff_ne]
      exact ⟨⟨hl, hb⟩, ⟨h1, by simpa using hw.1.2⟩, hw.2⟩
    · by_cases h2 : a = k
      · subst h2
        simp only [Nat.lt_irrefl, if_false, if_true, Memory.wfFrom, Bool.and_eq_true, decide_eq_true_eq, bne_iff_ne]
        exact ⟨⟨hl, hb⟩, hw.2⟩
      · simp only [h1, h2, if_false, Memory.wfFrom, Bool.and_eq_true, decide_eq_true_eq]
        exact ⟨hw.1, Memory.wfFrom_insert hb a (by omega) hw.2⟩

theorem Memory.wfFrom_remove (a : Nat) : ∀ {lo : Nat} {m : List Host.Cell},
    Memory.wfFrom lo m = true → Memory.wfFrom lo (Memory.remove m a) = true
  | _, [], _ => rfl
  | lo, (k, c) :: t, hw => by
    simp only [Memory.wfFrom, Bool.and_eq_true, decide_eq_true_eq] at hw
    unfold Memory.remove
    by_cases h : k = a
    · simp only [h, if_true]
      exact Memory.wfFrom_mono (by omega) hw.2
    · simp only [h, if_false, Memory.wfFrom, Bool.and_eq_true, decide_eq_true_eq]
      exact ⟨hw.1, Memory.wfFrom_remove a hw.2⟩

theorem Memory.wf_write {m : List Host.Cell} (a : Nat) (b : Byte) (h : Memory.wf m = true) : Memory.wf (Memory.write m a b) = true := by
  unfold Memory.write
  split
  · exact Memory.wfFrom_remove a h
  · exact Memory.wfFrom_insert ‹_› a (Nat.zero_le _) h

theorem Memory.wf_writeBytes : ∀ (bs : List Byte) {m : List Host.Cell} (a : Nat), Memory.wf m = true →
    Memory.wf (Memory.writeBytes m a bs) = true
  | [], _, _, h => h
  | b :: t, _, a, h => Memory.wf_writeBytes t (a + 1) (Memory.wf_write a b h)

/-- An address below a rising list is not listed. -/
theorem Memory.read_below : ∀ {lo a : Nat} {m : List Host.Cell}, Memory.wfFrom lo m = true → a < lo → Memory.read m a = Memory.default
  | _, _, [], _, _ => rfl
  | lo, a, (k, c) :: t, hw, ha => by
    simp only [Memory.wfFrom, Bool.and_eq_true, decide_eq_true_eq] at hw
    unfold Memory.read
    rw [if_neg (by omega)]
    exact Memory.read_below hw.2 (by omega)

theorem Memory.read_insert_same (a : Nat) (b : Byte) : ∀ m : List Host.Cell, Memory.read (Memory.insert m a b) a = b
  | [] => by simp [Memory.insert, Memory.read]
  | (k, c) :: t => by
    unfold Memory.insert
    by_cases h1 : a < k
    · simp [h1, Memory.read]
    · by_cases h2 : a = k
      · simp [h2, Memory.read]
      · simp only [h1, h2, if_false, Memory.read]
        rw [if_neg (Ne.symm h2)]
        exact Memory.read_insert_same a b t

theorem Memory.read_insert_other {a x : Nat} (b : Byte) (h : x ≠ a) : ∀ m : List Host.Cell,
    Memory.read (Memory.insert m a b) x = Memory.read m x
  | [] => by simp [Memory.insert, Memory.read, Ne.symm h]
  | (k, c) :: t => by
    unfold Memory.insert
    by_cases h1 : a < k
    · simp [h1, Memory.read, Ne.symm h]
    · by_cases h2 : a = k
      · subst h2
        simp [Memory.read, Ne.symm h]
      · simp only [h1, h2, if_false, Memory.read]
        rw [Memory.read_insert_other b h t]

theorem Memory.read_remove_same : ∀ {lo : Nat} {m : List Host.Cell} (a : Nat), Memory.wfFrom lo m = true →
    Memory.read (Memory.remove m a) a = Memory.default
  | _, [], _, _ => rfl
  | lo, (k, c) :: t, a, hw => by
    simp only [Memory.wfFrom, Bool.and_eq_true, decide_eq_true_eq] at hw
    unfold Memory.remove
    by_cases h : k = a
    · simp only [h, if_true]
      exact Memory.read_below hw.2 (by omega)
    · simp only [h, if_false, Memory.read]
      exact Memory.read_remove_same a hw.2

theorem Memory.read_remove_other {a x : Nat} (h : x ≠ a) : ∀ m : List Host.Cell,
    Memory.read (Memory.remove m a) x = Memory.read m x
  | [] => rfl
  | (k, c) :: t => by
    unfold Memory.remove
    by_cases hk : k = a
    · subst hk
      simp [Memory.read, Ne.symm h]
    · simp only [hk, if_false, Memory.read]
      rw [Memory.read_remove_other h t]

/-- A byte written is read back. -/
theorem Memory.read_write_same {m : List Host.Cell} (a : Nat) (b : Byte) (h : Memory.wf m = true) :
    Memory.read (Memory.write m a b) a = b := by
  unfold Memory.write
  split
  · rename_i hb
    rw [hb]
    exact Memory.read_remove_same a h
  · exact Memory.read_insert_same a b m

/-- A byte write leaves every other address alone. -/
theorem Memory.read_write_other {m : List Host.Cell} {a x : Nat} (b : Byte) (h : x ≠ a) :
    Memory.read (Memory.write m a b) x = Memory.read m x := by
  unfold Memory.write
  split
  · exact Memory.read_remove_other h m
  · exact Memory.read_insert_other b h m

/-- A write of bytes leaves every address outside them alone. -/
theorem Memory.read_writeBytes_outside : ∀ (bs : List Byte) (m : List Host.Cell) (a x : Nat), x < a ∨ a + bs.length ≤ x →
    Memory.read (Memory.writeBytes m a bs) x = Memory.read m x
  | [], _, _, _, _ => rfl
  | b :: t, m, a, x, h => by
    simp only [List.length_cons] at h
    unfold Memory.writeBytes
    rw [Memory.read_writeBytes_outside t _ (a + 1) x (by omega), Memory.read_write_other b (by omega)]

/-- The i-th byte of a write is read back at the i-th address. -/
theorem Memory.read_writeBytes_inside : ∀ (bs : List Byte) (m : List Host.Cell) (a i : Nat), Memory.wf m = true → i < bs.length →
    Memory.read (Memory.writeBytes m a bs) (a + i) = bs.getD i 0
  | [], _, _, _, _, h => absurd h (Nat.not_lt_zero _)
  | b :: t, m, a, 0, hm, _ => by
    unfold Memory.writeBytes
    rw [Memory.read_writeBytes_outside t _ (a + 1) (a + 0) (by omega)]
    simpa using Memory.read_write_same a b hm
  | b :: t, m, a, i + 1, hm, h => by
    unfold Memory.writeBytes
    have := Memory.read_writeBytes_inside t (Memory.write m a b) (a + 1) i (Memory.wf_write a b hm) (by simpa using h)
    simpa [Nat.add_comm, Nat.add_left_comm, Nat.add_assoc] using this

end Machine
end Sys2Proof
end

