-- ==== Sys2Proof/Laws/Keeps.lean ====
section
/-! SUPPORT. What the effect of every command keeps, as one relation between two states, and how it follows an update of the
state.  The relation is indexed by a set of parts, as a mask: the parts that may have changed. -/

namespace Sys2Proof
namespace Machine

/-- The place of a part in a mask. -/
def Part.bit : Part → Nat
  | .variant => 0
  | .keyFused => 1
  | .chipTime => 2
  | .regs => 3
  | .pend => 4
  | .mem => 5
  | .poison => 6
  | .lastReply => 7
  | .rbt => 8
  | .xing => 9
  | .pace => 10
  | .links => 11
  | .counters => 12
  | .wraps => 13
  | .tbLatch => 14
  | .pcLatch => 15
  | .freeCtr => 16
  | .arcade => 17
  | .l1d => 18
  | .l1i => 19
  | .dramErr => 20
  | .chkErr => 21
  | .dram => 22
  | .dramSelfReq => 23
  | .tcmErr => 24
  | .sramErr => 25
  | .reports => 26
  | .fifo => 27
  | .ch => 28
  | .hb => 29
  | .packets => 30
  | .packetCtr => 31
  | .slices => 32
  | .decWait => 33
  | .decDiscard => 34
  | .decDrop => 35
  | .tiles => 36
  | .tileCtr => 37
  | .spans => 38
  | .weakTiles => 39
  | .shortHeads => 40
  | .swpSubmits => 41
  | .swpQueue => 42
  | .swpCur => 43
  | .swpStart => 44
  | .swpOpened => 45
  | .swpCtr => 46
  | .swpStop => 47
  | .swpAborted => 48
  | .winFlags => 49
  | .swpLate => 50
  | .swpTail => 51
  | .wc => 52
  | .se => 53
  | .sled => 54
  | .spn => 55
  | .cal => 56
  | .retrained => 57
  | .host => 58
  | .disc => 59
  | .arv => 60
  | .ddrForce => 61
  | .clk => 62
  | .sup => 63
  | .sq => 64
  | .boot => 65
  | .pins => 66
  | .core => 67
  | .pending => 68

/-- Register x0 of every core holds 0 (R345). -/
def zeroInv (s : State) : Prop := ∀ p : Fin 4, (s.core[p].x)[0] = 0

/-- A Crossing whose domain is absent is WITHDRAWN (R44). -/
def goneInv (s : State) : Prop := ∀ x : Fin 52, xingPresent s.variant x.val = false → s.xing[x].st = .withdrawn

/-- From one state to another the part stays the same part, the queue is not touched, the invariants of memory, of x0 and of
absent Crossings are kept, and nothing changes outside the parts of the mask. -/
structure Kept (m : Nat) (s t : State) : Prop where
  variant : t.variant = s.variant
  keyFused : t.keyFused = s.keyFused
  pending : t.pending = s.pending
  mem : Memory.wf s.mem = true → Memory.wf t.mem = true
  flash : Memory.wf s.boot.flash = true → Memory.wf t.boot.flash = true
  zero : zeroInv s → zeroInv t
  gone : goneInv s → ∀ x : Fin 52, xingPresent s.variant x.val = false → t.xing[x].st = .withdrawn
  only : ∀ p : Part, m.testBit p.bit = false → p.same s t

theorem Kept.same (m : Nat) (s : State) : Kept m s s where
  variant := rfl
  keyFused := rfl
  pending := rfl
  mem := id
  flash := id
  zero := id
  gone := id
  only := by
    intro p _
    cases p <;> rfl

theorem Kept.goneInv {m : Nat} {s t : State} (h : Kept m s t) (g : goneInv s) : goneInv t := by
  intro x hx
  rw [h.variant] at hx
  exact h.gone g x hx

/-- A part of a mask that lies within another is in both. -/
theorem mask_on {a m b : Nat} (h : a &&& m = a) (hb : a.testBit b = true) : ¬ m.testBit b = false := by
  intro hn
  have e := congrArg (fun x => x.testBit b) h
  simp only [Nat.testBit_and, hb, hn] at e
  cases e

theorem mask_sub {a b m : Nat} (h : b &&& m = b) (e : a &&& b = a) : a &&& m = a := by
  calc a &&& m = (a &&& b) &&& m := by rw [e]
    _ = a &&& (b &&& m) := Nat.and_assoc a b m
    _ = a := by rw [h, e]

/-- The frame that a mask says, as a list of parts. -/
theorem Kept.changesOnly {m : Nat} {s t : State} (h : Kept m s t) {l : List Part}
    (hl : ∀ p : Part, m.testBit p.bit = true → p ∈ l) : changesOnly l s t := by
  intro p hp
  apply h.only
  cases hb : m.testBit p.bit with
  | false => rfl
  | true => exact absurd (hl p hb) hp

/-! ### One update of the state -/

theorem kept_arcade {m : Nat} {og s : State} (h : Kept m og s) (hm : 0x20000 &&& m = 0x20000) {v_arcade : Arcade} :
    Kept m og { s with arcade := v_arcade } where
  variant := h.variant
  keyFused := h.keyFused
  pending := h.pending
  mem := h.mem
  flash := h.flash
  zero := h.zero
  gone := h.gone
  only := by
    intro p hp
    cases p
    case arcade => exact absurd hp (mask_on hm rfl)
    all_goals exact h.only _ hp

theorem kept_arv {m : Nat} {og s : State} (h : Kept m og s) (hm : 0x1000000000000000 &&& m = 0x1000000000000000) {v_arv : Archive} :
    Kept m og { s with arv := v_arv } where
  variant := h.variant
  keyFused := h.keyFused
  pending := h.pending
  mem := h.mem
  flash := h.flash
  zero := h.zero
  gone := h.gone
  only := by
    intro p hp
    cases p
    case arv => exact absurd hp (mask_on hm rfl)
    all_goals exact h.only _ hp

theorem kept_boot {m : Nat} {og s : State} (h : Kept m og s) (hm : 0x20000000000000000 &&& m = 0x20000000000000000) {v_boot : Boot} (k_boot : (Memory.wf s.boot.flash = true → Memory.wf v_boot.flash = true)) :
    Kept m og { s with boot := v_boot } where
  variant := h.variant
  keyFused := h.keyFused
  pending := h.pending
  mem := h.mem
  flash := fun q => k_boot (h.flash q)
  zero := h.zero
  gone := h.gone
  only := by
    intro p hp
    cases p
    case boot => exact absurd hp (mask_on hm rfl)
    all_goals exact h.only _ hp

theorem kept_cal {m : Nat} {og s : State} (h : Kept m og s) (hm : 0x100000000000000 &&& m = 0x100000000000000) {v_cal : Calib} :
    Kept m og { s with cal := v_cal } where
  variant := h.variant
  keyFused := h.keyFused
  pending := h.pending
  mem := h.mem
  flash := h.flash
  zero := h.zero
  gone := h.gone
  only := by
    intro p hp
    cases p
    case cal => exact absurd hp (mask_on hm rfl)
    all_goals exact h.only _ hp

theorem kept_ch {m : Nat} {og s : State} (h : Kept m og s) (hm : 0x10000000 &&& m = 0x10000000) {v_ch : Vector Channel 32} :
    Kept m og { s with ch := v_ch } where
  variant := h.variant
  keyFused := h.keyFused
  pending := h.pending
  mem := h.mem
  flash := h.flash
  zero := h.zero
  gone := h.gone
  only := by
    intro p hp
    cases p
    case ch => exact absurd hp (mask_on hm rfl)
    all_goals exact h.only _ hp

theorem kept_chipTime {m : Nat} {og s : State} (h : Kept m og s) (hm : 0x4 &&& m = 0x4) {v_chipTime : DWord} :
    Kept m og { s with chipTime := v_chipTime } where
  variant := h.variant
  keyFused := h.keyFused
  pending := h.pending
  mem := h.mem
  flash := h.flash
  zero := h.zero
  gone := h.gone
  only := by
    intro p hp
    cases p
    case chipTime => exact absurd hp (mask_on hm rfl)
    all_goals exact h.only _ hp

theorem kept_chkErr {m : Nat} {og s : State} (h : Kept m og s) (hm : 0x200000 &&& m = 0x200000) {v_chkErr : List (Nat × Nat)} :
    Kept m og { s with chkErr := v_chkErr } where
  variant := h.variant
  keyFused := h.keyFused
  pending := h.pending
  mem := h.mem
  flash := h.flash
  zero := h.zero
  gone := h.gone
  only := by
    intro p hp
    cases p
    case chkErr => exact absurd hp (mask_on hm rfl)
    all_goals exact h.only _ hp

theorem kept_clk {m : Nat} {og s : State} (h : Kept m og s) (hm : 0x4000000000000000 &&& m = 0x4000000000000000) {v_clk : Clk} :
    Kept m og { s with clk := v_clk } where
  variant := h.variant
  keyFused := h.keyFused
  pending := h.pending
  mem := h.mem
  flash := h.flash
  zero := h.zero
  gone := h.gone
  only := by
    intro p hp
    cases p
    case clk => exact absurd hp (mask_on hm rfl)
    all_goals exact h.only _ hp

theorem kept_core {m : Nat} {og s : State} (h : Kept m og s) (hm : 0x80000000000000000 &&& m = 0x80000000000000000) {v_core : Vector Core 4} (k_core : ((∀ p : Fin 4, (s.core[p].x)[0] = 0) → ∀ p : Fin 4, (v_core[p].x)[0] = 0)) :
    Kept m og { s with core := v_core } where
  variant := h.variant
  keyFused := h.keyFused
  pending := h.pending
  mem := h.mem
  flash := h.flash
  zero := fun q => k_core (h.zero q)
  gone := h.gone
  only := by
    intro p hp
    cases p
    case core => exact absurd hp (mask_on hm rfl)
    all_goals exact h.only _ hp

theorem kept_counters_wraps {m : Nat} {og s : State} (h : Kept m og s) (hm : 0x3000 &&& m = 0x3000) {v_counters : List (Nat × BitVec 48)} {v_wraps : List Nat} :
    Kept m og { s with counters := v_counters, wraps := v_wraps } where
  variant := h.variant
  keyFused := h.keyFused
  pending := h.pending
  mem := h.mem
  flash := h.flash
  zero := h.zero
  gone := h.gone
  only := by
    intro p hp
    cases p
    case counters => exact absurd hp (mask_on hm rfl)
    case wraps => exact absurd hp (mask_on hm rfl)
    all_goals exact h.only _ hp

theorem kept_ddrForce {m : Nat} {og s : State} (h : Kept m og s) (hm : 0x2000000000000000 &&& m = 0x2000000000000000) {v_ddrForce : List Nat} :
    Kept m og { s with ddrForce := v_ddrForce } where
  variant := h.variant
  keyFused := h.keyFused
  pending := h.pending
  mem := h.mem
  flash := h.flash
  zero := h.zero
  gone := h.gone
  only := by
    intro p hp
    cases p
    case ddrForce => exact absurd hp (mask_on hm rfl)
    all_goals exact h.only _ hp

theorem kept_decDiscard {m : Nat} {og s : State} (h : Kept m og s) (hm : 0x400000000 &&& m = 0x400000000) {v_decDiscard : List Nat} :
    Kept m og { s with decDiscard := v_decDiscard } where
  variant := h.variant
  keyFused := h.keyFused
  pending := h.pending
  mem := h.mem
  flash := h.flash
  zero := h.zero
  gone := h.gone
  only := by
    intro p hp
    cases p
    case decDiscard => exact absurd hp (mask_on hm rfl)
    all_goals exact h.only _ hp

theorem kept_decWait {m : Nat} {og s : State} (h : Kept m og s) (hm : 0x200000000 &&& m = 0x200000000) {v_decWait : List Nat} :
    Kept m og { s with decWait := v_decWait } where
  variant := h.variant
  keyFused := h.keyFused
  pending := h.pending
  mem := h.mem
  flash := h.flash
  zero := h.zero
  gone := h.gone
  only := by
    intro p hp
    cases p
    case decWait => exact absurd hp (mask_on hm rfl)
    all_goals exact h.only _ hp

theorem kept_decWait_decDiscard {m : Nat} {og s : State} (h : Kept m og s) (hm : 0x600000000 &&& m = 0x600000000) {v_decWait : List Nat} {v_decDiscard : List Nat} :
    Kept m og { s with decWait := v_decWait, decDiscard := v_decDiscard } where
  variant := h.variant
  keyFused := h.keyFused
  pending := h.pending
  mem := h.mem
  flash := h.flash
  zero := h.zero
  gone := h.gone
  only := by
    intro p hp
    cases p
    case decWait => exact absurd hp (mask_on hm rfl)
    case decDiscard => exact absurd hp (mask_on hm rfl)
    all_goals exact h.only _ hp

theorem kept_disc {m : Nat} {og s : State} (h : Kept m og s) (hm : 0x800000000000000 &&& m = 0x800000000000000) {v_disc : Disc} :
    Kept m og { s with disc := v_disc } where
  variant := h.variant
  keyFused := h.keyFused
  pending := h.pending
  mem := h.mem
  flash := h.flash
  zero := h.zero
  gone := h.gone
  only := by
    intro p hp
    cases p
    case disc => exact absurd hp (mask_on hm rfl)
    all_goals exact h.only _ hp

theorem kept_dram {m : Nat} {og s : State} (h : Kept m og s) (hm : 0x400000 &&& m = 0x400000) {v_dram : Vector DramCh 4} :
    Kept m og { s with dram := v_dram } where
  variant := h.variant
  keyFused := h.keyFused
  pending := h.pending
  mem := h.mem
  flash := h.flash
  zero := h.zero
  gone := h.gone
  only := by
    intro p hp
    cases p
    case dram => exact absurd hp (mask_on hm rfl)
    all_goals exact h.only _ hp

theorem kept_dramErr {m : Nat} {og s : State} (h : Kept m og s) (hm : 0x100000 &&& m = 0x100000) {v_dramErr : List (Nat × Nat)} :
    Kept m og { s with dramErr := v_dramErr } where
  variant := h.variant
  keyFused := h.keyFused
  pending := h.pending
  mem := h.mem
  flash := h.flash
  zero := h.zero
  gone := h.gone
  only := by
    intro p hp
    cases p
    case dramErr => exact absurd hp (mask_on hm rfl)
    all_goals exact h.only _ hp

theorem kept_dramSelfReq {m : Nat} {og s : State} (h : Kept m og s) (hm : 0x800000 &&& m = 0x800000) {v_dramSelfReq : Bool} :
    Kept m og { s with dramSelfReq := v_dramSelfReq } where
  variant := h.variant
  keyFused := h.keyFused
  pending := h.pending
  mem := h.mem
  flash := h.flash
  zero := h.zero
  gone := h.gone
  only := by
    intro p hp
    cases p
    case dramSelfReq => exact absurd hp (mask_on hm rfl)
    all_goals exact h.only _ hp

theorem kept_fifo {m : Nat} {og s : State} (h : Kept m og s) (hm : 0x8000000 &&& m = 0x8000000) {v_fifo : Vector Fifo 14} :
    Kept m og { s with fifo := v_fifo } where
  variant := h.variant
  keyFused := h.keyFused
  pending := h.pending
  mem := h.mem
  flash := h.flash
  zero := h.zero
  gone := h.gone
  only := by
    intro p hp
    cases p
    case fifo => exact absurd hp (mask_on hm rfl)
    all_goals exact h.only _ hp

theorem kept_freeCtr {m : Nat} {og s : State} (h : Kept m og s) (hm : 0x10000 &&& m = 0x10000) {v_freeCtr : Nat} :
    Kept m og { s with freeCtr := v_freeCtr } where
  variant := h.variant
  keyFused := h.keyFused
  pending := h.pending
  mem := h.mem
  flash := h.flash
  zero := h.zero
  gone := h.gone
  only := by
    intro p hp
    cases p
    case freeCtr => exact absurd hp (mask_on hm rfl)
    all_goals exact h.only _ hp

theorem kept_hb {m : Nat} {og s : State} (h : Kept m og s) (hm : 0x20000000 &&& m = 0x20000000) {v_hb : Vector HeadBlk 8} :
    Kept m og { s with hb := v_hb } where
  variant := h.variant
  keyFused := h.keyFused
  pending := h.pending
  mem := h.mem
  flash := h.flash
  zero := h.zero
  gone := h.gone
  only := by
    intro p hp
    cases p
    case hb => exact absurd hp (mask_on hm rfl)
    all_goals exact h.only _ hp

theorem kept_host {m : Nat} {og s : State} (h : Kept m og s) (hm : 0x400000000000000 &&& m = 0x400000000000000) {v_host : HostBlk} :
    Kept m og { s with host := v_host } where
  variant := h.variant
  keyFused := h.keyFused
  pending := h.pending
  mem := h.mem
  flash := h.flash
  zero := h.zero
  gone := h.gone
  only := by
    intro p hp
    cases p
    case host => exact absurd hp (mask_on hm rfl)
    all_goals exact h.only _ hp

theorem kept_host_boot_pins {m : Nat} {og s : State} (h : Kept m og s) (hm : 0x60400000000000000 &&& m = 0x60400000000000000) {v_host : HostBlk} {v_boot : Boot} {v_pins : Pins} (k_boot : (Memory.wf s.boot.flash = true → Memory.wf v_boot.flash = true)) :
    Kept m og { s with host := v_host, boot := v_boot, pins := v_pins } where
  variant := h.variant
  keyFused := h.keyFused
  pending := h.pending
  mem := h.mem
  flash := fun q => k_boot (h.flash q)
  zero := h.zero
  gone := h.gone
  only := by
    intro p hp
    cases p
    case host => exact absurd hp (mask_on hm rfl)
    case boot => exact absurd hp (mask_on hm rfl)
    case pins => exact absurd hp (mask_on hm rfl)
    all_goals exact h.only _ hp

theorem kept_l1d {m : Nat} {og s : State} (h : Kept m og s) (hm : 0x40000 &&& m = 0x40000) {v_l1d : Vector L1 4} :
    Kept m og { s with l1d := v_l1d } where
  variant := h.variant
  keyFused := h.keyFused
  pending := h.pending
  mem := h.mem
  flash := h.flash
  zero := h.zero
  gone := h.gone
  only := by
    intro p hp
    cases p
    case l1d => exact absurd hp (mask_on hm rfl)
    all_goals exact h.only _ hp

theorem kept_l1i {m : Nat} {og s : State} (h : Kept m og s) (hm : 0x80000 &&& m = 0x80000) {v_l1i : Vector L1 4} :
    Kept m og { s with l1i := v_l1i } where
  variant := h.variant
  keyFused := h.keyFused
  pending := h.pending
  mem := h.mem
  flash := h.flash
  zero := h.zero
  gone := h.gone
  only := by
    intro p hp
    cases p
    case l1i => exact absurd hp (mask_on hm rfl)
    all_goals exact h.only _ hp

theorem kept_lastReply {m : Nat} {og s : State} (h : Kept m og s) (hm : 0x80 &&& m = 0x80) {v_lastReply : Reply} :
    Kept m og { s with lastReply := v_lastReply } where
  variant := h.variant
  keyFused := h.keyFused
  pending := h.pending
  mem := h.mem
  flash := h.flash
  zero := h.zero
  gone := h.gone
  only := by
    intro p hp
    cases p
    case lastReply => exact absurd hp (mask_on hm rfl)
    all_goals exact h.only _ hp

theorem kept_links {m : Nat} {og s : State} (h : Kept m og s) (hm : 0x800 &&& m = 0x800) {v_links : List Link} :
    Kept m og { s with links := v_links } where
  variant := h.variant
  keyFused := h.keyFused
  pending := h.pending
  mem := h.mem
  flash := h.flash
  zero := h.zero
  gone := h.gone
  only := by
    intro p hp
    cases p
    case links => exact absurd hp (mask_on hm rfl)
    all_goals exact h.only _ hp

theorem kept_mem {m : Nat} {og s : State} (h : Kept m og s) (hm : 0x20 &&& m = 0x20) {v_mem : List Host.Cell} (k_mem : (Memory.wf s.mem = true → Memory.wf v_mem = true)) :
    Kept m og { s with mem := v_mem } where
  variant := h.variant
  keyFused := h.keyFused
  pending := h.pending
  mem := fun q => k_mem (h.mem q)
  flash := h.flash
  zero := h.zero
  gone := h.gone
  only := by
    intro p hp
    cases p
    case mem => exact absurd hp (mask_on hm rfl)
    all_goals exact h.only _ hp

theorem kept_mem_dramErr {m : Nat} {og s : State} (h : Kept m og s) (hm : 0x100020 &&& m = 0x100020) {v_mem : List Host.Cell} {v_dramErr : List (Nat × Nat)} (k_mem : (Memory.wf s.mem = true → Memory.wf v_mem = true)) :
    Kept m og { s with mem := v_mem, dramErr := v_dramErr } where
  variant := h.variant
  keyFused := h.keyFused
  pending := h.pending
  mem := fun q => k_mem (h.mem q)
  flash := h.flash
  zero := h.zero
  gone := h.gone
  only := by
    intro p hp
    cases p
    case mem => exact absurd hp (mask_on hm rfl)
    case dramErr => exact absurd hp (mask_on hm rfl)
    all_goals exact h.only _ hp

theorem kept_mem_poison_dramErr_chkErr_dram {m : Nat} {og s : State} (h : Kept m og s) (hm : 0x700060 &&& m = 0x700060) {v_mem : List Host.Cell} {v_poison : List Nat} {v_dramErr : List (Nat × Nat)} {v_chkErr : List (Nat × Nat)} {v_dram : Vector DramCh 4} (k_mem : (Memory.wf s.mem = true → Memory.wf v_mem = true)) :
    Kept m og { s with mem := v_mem, poison := v_poison, dramErr := v_dramErr, chkErr := v_chkErr, dram := v_dram } where
  variant := h.variant
  keyFused := h.keyFused
  pending := h.pending
  mem := fun q => k_mem (h.mem q)
  flash := h.flash
  zero := h.zero
  gone := h.gone
  only := by
    intro p hp
    cases p
    case mem => exact absurd hp (mask_on hm rfl)
    case poison => exact absurd hp (mask_on hm rfl)
    case dramErr => exact absurd hp (mask_on hm rfl)
    case chkErr => exact absurd hp (mask_on hm rfl)
    case dram => exact absurd hp (mask_on hm rfl)
    all_goals exact h.only _ hp

theorem kept_mem_tcmErr {m : Nat} {og s : State} (h : Kept m og s) (hm : 0x1000020 &&& m = 0x1000020) {v_mem : List Host.Cell} {v_tcmErr : List (Nat × Nat)} (k_mem : (Memory.wf s.mem = true → Memory.wf v_mem = true)) :
    Kept m og { s with mem := v_mem, tcmErr := v_tcmErr } where
  variant := h.variant
  keyFused := h.keyFused
  pending := h.pending
  mem := fun q => k_mem (h.mem q)
  flash := h.flash
  zero := h.zero
  gone := h.gone
  only := by
    intro p hp
    cases p
    case mem => exact absurd hp (mask_on hm rfl)
    case tcmErr => exact absurd hp (mask_on hm rfl)
    all_goals exact h.only _ hp

theorem kept_pace {m : Nat} {og s : State} (h : Kept m og s) (hm : 0x400 &&& m = 0x400) {v_pace : Vector Pace 5} :
    Kept m og { s with pace := v_pace } where
  variant := h.variant
  keyFused := h.keyFused
  pending := h.pending
  mem := h.mem
  flash := h.flash
  zero := h.zero
  gone := h.gone
  only := by
    intro p hp
    cases p
    case pace => exact absurd hp (mask_on hm rfl)
    all_goals exact h.only _ hp

theorem kept_packetCtr {m : Nat} {og s : State} (h : Kept m og s) (hm : 0x80000000 &&& m = 0x80000000) {v_packetCtr : Nat} :
    Kept m og { s with packetCtr := v_packetCtr } where
  variant := h.variant
  keyFused := h.keyFused
  pending := h.pending
  mem := h.mem
  flash := h.flash
  zero := h.zero
  gone := h.gone
  only := by
    intro p hp
    cases p
    case packetCtr => exact absurd hp (mask_on hm rfl)
    all_goals exact h.only _ hp

theorem kept_packets {m : Nat} {og s : State} (h : Kept m og s) (hm : 0x40000000 &&& m = 0x40000000) {v_packets : List Packet} :
    Kept m og { s with packets := v_packets } where
  variant := h.variant
  keyFused := h.keyFused
  pending := h.pending
  mem := h.mem
  flash := h.flash
  zero := h.zero
  gone := h.gone
  only := by
    intro p hp
    cases p
    case packets => exact absurd hp (mask_on hm rfl)
    all_goals exact h.only _ hp

theorem kept_packets_decDiscard_decDrop {m : Nat} {og s : State} (h : Kept m og s) (hm : 0xc40000000 &&& m = 0xc40000000) {v_packets : List Packet} {v_decDiscard : List Nat} {v_decDrop : List Nat} :
    Kept m og { s with packets := v_packets, decDiscard := v_decDiscard, decDrop := v_decDrop } where
  variant := h.variant
  keyFused := h.keyFused
  pending := h.pending
  mem := h.mem
  flash := h.flash
  zero := h.zero
  gone := h.gone
  only := by
    intro p hp
    cases p
    case packets => exact absurd hp (mask_on hm rfl)
    case decDiscard => exact absurd hp (mask_on hm rfl)
    case decDrop => exact absurd hp (mask_on hm rfl)
    all_goals exact h.only _ hp

theorem kept_packets_decDrop {m : Nat} {og s : State} (h : Kept m og s) (hm : 0x840000000 &&& m = 0x840000000) {v_packets : List Packet} {v_decDrop : List Nat} :
    Kept m og { s with packets := v_packets, decDrop := v_decDrop } where
  variant := h.variant
  keyFused := h.keyFused
  pending := h.pending
  mem := h.mem
  flash := h.flash
  zero := h.zero
  gone := h.gone
  only := by
    intro p hp
    cases p
    case packets => exact absurd hp (mask_on hm rfl)
    case decDrop => exact absurd hp (mask_on hm rfl)
    all_goals exact h.only _ hp

theorem kept_pcLatch {m : Nat} {og s : State} (h : Kept m og s) (hm : 0x8000 &&& m = 0x8000) {v_pcLatch : List (Nat × BitVec 48)} :
    Kept m og { s with pcLatch := v_pcLatch } where
  variant := h.variant
  keyFused := h.keyFused
  pending := h.pending
  mem := h.mem
  flash := h.flash
  zero := h.zero
  gone := h.gone
  only := by
    intro p hp
    cases p
    case pcLatch => exact absurd hp (mask_on hm rfl)
    all_goals exact h.only _ hp

theorem kept_pend {m : Nat} {og s : State} (h : Kept m og s) (hm : 0x10 &&& m = 0x10) {v_pend : List (Nat × Word)} :
    Kept m og { s with pend := v_pend } where
  variant := h.variant
  keyFused := h.keyFused
  pending := h.pending
  mem := h.mem
  flash := h.flash
  zero := h.zero
  gone := h.gone
  only := by
    intro p hp
    cases p
    case pend => exact absurd hp (mask_on hm rfl)
    all_goals exact h.only _ hp

theorem kept_pins {m : Nat} {og s : State} (h : Kept m og s) (hm : 0x40000000000000000 &&& m = 0x40000000000000000) {v_pins : Pins} :
    Kept m og { s with pins := v_pins } where
  variant := h.variant
  keyFused := h.keyFused
  pending := h.pending
  mem := h.mem
  flash := h.flash
  zero := h.zero
  gone := h.gone
  only := by
    intro p hp
    cases p
    case pins => exact absurd hp (mask_on hm rfl)
    all_goals exact h.only _ hp

theorem kept_poison {m : Nat} {og s : State} (h : Kept m og s) (hm : 0x40 &&& m = 0x40) {v_poison : List Nat} :
    Kept m og { s with poison := v_poison } where
  variant := h.variant
  keyFused := h.keyFused
  pending := h.pending
  mem := h.mem
  flash := h.flash
  zero := h.zero
  gone := h.gone
  only := by
    intro p hp
    cases p
    case poison => exact absurd hp (mask_on hm rfl)
    all_goals exact h.only _ hp

theorem kept_rbt {m : Nat} {og s : State} (h : Kept m og s) (hm : 0x100 &&& m = 0x100) {v_rbt : Vector Rbt 21} :
    Kept m og { s with rbt := v_rbt } where
  variant := h.variant
  keyFused := h.keyFused
  pending := h.pending
  mem := h.mem
  flash := h.flash
  zero := h.zero
  gone := h.gone
  only := by
    intro p hp
    cases p
    case rbt => exact absurd hp (mask_on hm rfl)
    all_goals exact h.only _ hp

theorem kept_regs {m : Nat} {og s : State} (h : Kept m og s) (hm : 0x8 &&& m = 0x8) {v_regs : List (Nat × Word)} :
    Kept m og { s with regs := v_regs } where
  variant := h.variant
  keyFused := h.keyFused
  pending := h.pending
  mem := h.mem
  flash := h.flash
  zero := h.zero
  gone := h.gone
  only := by
    intro p hp
    cases p
    case regs => exact absurd hp (mask_on hm rfl)
    all_goals exact h.only _ hp

theorem kept_regs_pend_rbt_fifo_ch_hb_wc_se_sled_sq {m : Nat} {og s : State} (h : Kept m og s) (hm : 0x10070000038000118 &&& m = 0x10070000038000118) {v_regs : List (Nat × Word)} {v_pend : List (Nat × Word)} {v_rbt : Vector Rbt 21} {v_fifo : Vector Fifo 14} {v_ch : Vector Channel 32} {v_hb : Vector HeadBlk 8} {v_wc : Vector WriteCell 8} {v_se : Vector Servo 10} {v_sled : Vector Sled 8} {v_sq : Square} :
    Kept m og { s with regs := v_regs, pend := v_pend, rbt := v_rbt, fifo := v_fifo, ch := v_ch, hb := v_hb, wc := v_wc, se := v_se, sled := v_sled, sq := v_sq } where
  variant := h.variant
  keyFused := h.keyFused
  pending := h.pending
  mem := h.mem
  flash := h.flash
  zero := h.zero
  gone := h.gone
  only := by
    intro p hp
    cases p
    case regs => exact absurd hp (mask_on hm rfl)
    case pend => exact absurd hp (mask_on hm rfl)
    case rbt => exact absurd hp (mask_on hm rfl)
    case fifo => exact absurd hp (mask_on hm rfl)
    case ch => exact absurd hp (mask_on hm rfl)
    case hb => exact absurd hp (mask_on hm rfl)
    case wc => exact absurd hp (mask_on hm rfl)
    case se => exact absurd hp (mask_on hm rfl)
    case sled => exact absurd hp (mask_on hm rfl)
    case sq => exact absurd hp (mask_on hm rfl)
    all_goals exact h.only _ hp

theorem kept_reports {m : Nat} {og s : State} (h : Kept m og s) (hm : 0x4000000 &&& m = 0x4000000) {v_reports : List FaultReport} :
    Kept m og { s with reports := v_reports } where
  variant := h.variant
  keyFused := h.keyFused
  pending := h.pending
  mem := h.mem
  flash := h.flash
  zero := h.zero
  gone := h.gone
  only := by
    intro p hp
    cases p
    case reports => exact absurd hp (mask_on hm rfl)
    all_goals exact h.only _ hp

theorem kept_retrained {m : Nat} {og s : State} (h : Kept m og s) (hm : 0x200000000000000 &&& m = 0x200000000000000) {v_retrained : Bool} :
    Kept m og { s with retrained := v_retrained } where
  variant := h.variant
  keyFused := h.keyFused
  pending := h.pending
  mem := h.mem
  flash := h.flash
  zero := h.zero
  gone := h.gone
  only := by
    intro p hp
    cases p
    case retrained => exact absurd hp (mask_on hm rfl)
    all_goals exact h.only _ hp

theorem kept_retrained_ddrForce {m : Nat} {og s : State} (h : Kept m og s) (hm : 0x2200000000000000 &&& m = 0x2200000000000000) {v_retrained : Bool} {v_ddrForce : List Nat} :
    Kept m og { s with retrained := v_retrained, ddrForce := v_ddrForce } where
  variant := h.variant
  keyFused := h.keyFused
  pending := h.pending
  mem := h.mem
  flash := h.flash
  zero := h.zero
  gone := h.gone
  only := by
    intro p hp
    cases p
    case retrained => exact absurd hp (mask_on hm rfl)
    case ddrForce => exact absurd hp (mask_on hm rfl)
    all_goals exact h.only _ hp

theorem kept_se {m : Nat} {og s : State} (h : Kept m og s) (hm : 0x20000000000000 &&& m = 0x20000000000000) {v_se : Vector Servo 10} :
    Kept m og { s with se := v_se } where
  variant := h.variant
  keyFused := h.keyFused
  pending := h.pending
  mem := h.mem
  flash := h.flash
  zero := h.zero
  gone := h.gone
  only := by
    intro p hp
    cases p
    case se => exact absurd hp (mask_on hm rfl)
    all_goals exact h.only _ hp

theorem kept_shortHeads {m : Nat} {og s : State} (h : Kept m og s) (hm : 0x10000000000 &&& m = 0x10000000000) {v_shortHeads : List (Nat × Nat)} :
    Kept m og { s with shortHeads := v_shortHeads } where
  variant := h.variant
  keyFused := h.keyFused
  pending := h.pending
  mem := h.mem
  flash := h.flash
  zero := h.zero
  gone := h.gone
  only := by
    intro p hp
    cases p
    case shortHeads => exact absurd hp (mask_on hm rfl)
    all_goals exact h.only _ hp

theorem kept_sled {m : Nat} {og s : State} (h : Kept m og s) (hm : 0x40000000000000 &&& m = 0x40000000000000) {v_sled : Vector Sled 8} :
    Kept m og { s with sled := v_sled } where
  variant := h.variant
  keyFused := h.keyFused
  pending := h.pending
  mem := h.mem
  flash := h.flash
  zero := h.zero
  gone := h.gone
  only := by
    intro p hp
    cases p
    case sled => exact absurd hp (mask_on hm rfl)
    all_goals exact h.only _ hp

theorem kept_slices {m : Nat} {og s : State} (h : Kept m og s) (hm : 0x100000000 &&& m = 0x100000000) {v_slices : Vector (List SliceBuf) 40} :
    Kept m og { s with slices := v_slices } where
  variant := h.variant
  keyFused := h.keyFused
  pending := h.pending
  mem := h.mem
  flash := h.flash
  zero := h.zero
  gone := h.gone
  only := by
    intro p hp
    cases p
    case slices => exact absurd hp (mask_on hm rfl)
    all_goals exact h.only _ hp

theorem kept_spans {m : Nat} {og s : State} (h : Kept m og s) (hm : 0x4000000000 &&& m = 0x4000000000) {v_spans : List Span} :
    Kept m og { s with spans := v_spans } where
  variant := h.variant
  keyFused := h.keyFused
  pending := h.pending
  mem := h.mem
  flash := h.flash
  zero := h.zero
  gone := h.gone
  only := by
    intro p hp
    cases p
    case spans => exact absurd hp (mask_on hm rfl)
    all_goals exact h.only _ hp

theorem kept_spans_shortHeads {m : Nat} {og s : State} (h : Kept m og s) (hm : 0x14000000000 &&& m = 0x14000000000) {v_spans : List Span} {v_shortHeads : List (Nat × Nat)} :
    Kept m og { s with spans := v_spans, shortHeads := v_shortHeads } where
  variant := h.variant
  keyFused := h.keyFused
  pending := h.pending
  mem := h.mem
  flash := h.flash
  zero := h.zero
  gone := h.gone
  only := by
    intro p hp
    cases p
    case spans => exact absurd hp (mask_on hm rfl)
    case shortHeads => exact absurd hp (mask_on hm rfl)
    all_goals exact h.only _ hp

theorem kept_spans_swpCur_swpLate {m : Nat} {og s : State} (h : Kept m og s) (hm : 0x4084000000000 &&& m = 0x4084000000000) {v_spans : List Span} {v_swpCur : Option SwpProgram} {v_swpLate : Bool} :
    Kept m og { s with spans := v_spans, swpCur := v_swpCur, swpLate := v_swpLate } where
  variant := h.variant
  keyFused := h.keyFused
  pending := h.pending
  mem := h.mem
  flash := h.flash
  zero := h.zero
  gone := h.gone
  only := by
    intro p hp
    cases p
    case spans => exact absurd hp (mask_on hm rfl)
    case swpCur => exact absurd hp (mask_on hm rfl)
    case swpLate => exact absurd hp (mask_on hm rfl)
    all_goals exact h.only _ hp

theorem kept_spans_swpQueue_swpCur_swpStart_swpLate {m : Nat} {og s : State} (h : Kept m og s) (hm : 0x41c4000000000 &&& m = 0x41c4000000000) {v_spans : List Span} {v_swpQueue : List SwpProgram} {v_swpCur : Option SwpProgram} {v_swpStart : Nat} {v_swpLate : Bool} :
    Kept m og { s with spans := v_spans, swpQueue := v_swpQueue, swpCur := v_swpCur, swpStart := v_swpStart, swpLate := v_swpLate } where
  variant := h.variant
  keyFused := h.keyFused
  pending := h.pending
  mem := h.mem
  flash := h.flash
  zero := h.zero
  gone := h.gone
  only := by
    intro p hp
    cases p
    case spans => exact absurd hp (mask_on hm rfl)
    case swpQueue => exact absurd hp (mask_on hm rfl)
    case swpCur => exact absurd hp (mask_on hm rfl)
    case swpStart => exact absurd hp (mask_on hm rfl)
    case swpLate => exact absurd hp (mask_on hm rfl)
    all_goals exact h.only _ hp

theorem kept_spn {m : Nat} {og s : State} (h : Kept m og s) (hm : 0x80000000000000 &&& m = 0x80000000000000) {v_spn : Spindle} :
    Kept m og { s with spn := v_spn } where
  variant := h.variant
  keyFused := h.keyFused
  pending := h.pending
  mem := h.mem
  flash := h.flash
  zero := h.zero
  gone := h.gone
  only := by
    intro p hp
    cases p
    case spn => exact absurd hp (mask_on hm rfl)
    all_goals exact h.only _ hp

theorem kept_sq {m : Nat} {og s : State} (h : Kept m og s) (hm : 0x10000000000000000 &&& m = 0x10000000000000000) {v_sq : Square} :
    Kept m og { s with sq := v_sq } where
  variant := h.variant
  keyFused := h.keyFused
  pending := h.pending
  mem := h.mem
  flash := h.flash
  zero := h.zero
  gone := h.gone
  only := by
    intro p hp
    cases p
    case sq => exact absurd hp (mask_on hm rfl)
    all_goals exact h.only _ hp

theorem kept_sq_core {m : Nat} {og s : State} (h : Kept m og s) (hm : 0x90000000000000000 &&& m = 0x90000000000000000) {v_sq : Square} {v_core : Vector Core 4} (k_core : ((∀ p : Fin 4, (s.core[p].x)[0] = 0) → ∀ p : Fin 4, (v_core[p].x)[0] = 0)) :
    Kept m og { s with sq := v_sq, core := v_core } where
  variant := h.variant
  keyFused := h.keyFused
  pending := h.pending
  mem := h.mem
  flash := h.flash
  zero := fun q => k_core (h.zero q)
  gone := h.gone
  only := by
    intro p hp
    cases p
    case sq => exact absurd hp (mask_on hm rfl)
    case core => exact absurd hp (mask_on hm rfl)
    all_goals exact h.only _ hp

theorem kept_sramErr {m : Nat} {og s : State} (h : Kept m og s) (hm : 0x2000000 &&& m = 0x2000000) {v_sramErr : List (Nat × Nat)} :
    Kept m og { s with sramErr := v_sramErr } where
  variant := h.variant
  keyFused := h.keyFused
  pending := h.pending
  mem := h.mem
  flash := h.flash
  zero := h.zero
  gone := h.gone
  only := by
    intro p hp
    cases p
    case sramErr => exact absurd hp (mask_on hm rfl)
    all_goals exact h.only _ hp

theorem kept_sup {m : Nat} {og s : State} (h : Kept m og s) (hm : 0x8000000000000000 &&& m = 0x8000000000000000) {v_sup : Supply} :
    Kept m og { s with sup := v_sup } where
  variant := h.variant
  keyFused := h.keyFused
  pending := h.pending
  mem := h.mem
  flash := h.flash
  zero := h.zero
  gone := h.gone
  only := by
    intro p hp
    cases p
    case sup => exact absurd hp (mask_on hm rfl)
    all_goals exact h.only _ hp

theorem kept_swpAborted_winFlags {m : Nat} {og s : State} (h : Kept m og s) (hm : 0x3000000000000 &&& m = 0x3000000000000) {v_swpAborted : Bool} {v_winFlags : Bool × Bool × List Nat} :
    Kept m og { s with swpAborted := v_swpAborted, winFlags := v_winFlags } where
  variant := h.variant
  keyFused := h.keyFused
  pending := h.pending
  mem := h.mem
  flash := h.flash
  zero := h.zero
  gone := h.gone
  only := by
    intro p hp
    cases p
    case swpAborted => exact absurd hp (mask_on hm rfl)
    case winFlags => exact absurd hp (mask_on hm rfl)
    all_goals exact h.only _ hp

theorem kept_swpCur_retrained {m : Nat} {og s : State} (h : Kept m og s) (hm : 0x200080000000000 &&& m = 0x200080000000000) {v_swpCur : Option SwpProgram} {v_retrained : Bool} :
    Kept m og { s with swpCur := v_swpCur, retrained := v_retrained } where
  variant := h.variant
  keyFused := h.keyFused
  pending := h.pending
  mem := h.mem
  flash := h.flash
  zero := h.zero
  gone := h.gone
  only := by
    intro p hp
    cases p
    case swpCur => exact absurd hp (mask_on hm rfl)
    case retrained => exact absurd hp (mask_on hm rfl)
    all_goals exact h.only _ hp

theorem kept_swpCur_swpStop_swpAborted_retrained {m : Nat} {og s : State} (h : Kept m og s) (hm : 0x201880000000000 &&& m = 0x201880000000000) {v_swpCur : Option SwpProgram} {v_swpStop : Bool} {v_swpAborted : Bool} {v_retrained : Bool} :
    Kept m og { s with swpCur := v_swpCur, swpStop := v_swpStop, swpAborted := v_swpAborted, retrained := v_retrained } where
  variant := h.variant
  keyFused := h.keyFused
  pending := h.pending
  mem := h.mem
  flash := h.flash
  zero := h.zero
  gone := h.gone
  only := by
    intro p hp
    cases p
    case swpCur => exact absurd hp (mask_on hm rfl)
    case swpStop => exact absurd hp (mask_on hm rfl)
    case swpAborted => exact absurd hp (mask_on hm rfl)
    case retrained => exact absurd hp (mask_on hm rfl)
    all_goals exact h.only _ hp

theorem kept_swpOpened_swpStop {m : Nat} {og s : State} (h : Kept m og s) (hm : 0xa00000000000 &&& m = 0xa00000000000) {v_swpOpened : Option Nat} {v_swpStop : Bool} :
    Kept m og { s with swpOpened := v_swpOpened, swpStop := v_swpStop } where
  variant := h.variant
  keyFused := h.keyFused
  pending := h.pending
  mem := h.mem
  flash := h.flash
  zero := h.zero
  gone := h.gone
  only := by
    intro p hp
    cases p
    case swpOpened => exact absurd hp (mask_on hm rfl)
    case swpStop => exact absurd hp (mask_on hm rfl)
    all_goals exact h.only _ hp

theorem kept_swpOpened_winFlags {m : Nat} {og s : State} (h : Kept m og s) (hm : 0x2200000000000 &&& m = 0x2200000000000) {v_swpOpened : Option Nat} {v_winFlags : Bool × Bool × List Nat} :
    Kept m og { s with swpOpened := v_swpOpened, winFlags := v_winFlags } where
  variant := h.variant
  keyFused := h.keyFused
  pending := h.pending
  mem := h.mem
  flash := h.flash
  zero := h.zero
  gone := h.gone
  only := by
    intro p hp
    cases p
    case swpOpened => exact absurd hp (mask_on hm rfl)
    case winFlags => exact absurd hp (mask_on hm rfl)
    all_goals exact h.only _ hp

theorem kept_swpQueue_swpAborted {m : Nat} {og s : State} (h : Kept m og s) (hm : 0x1040000000000 &&& m = 0x1040000000000) {v_swpQueue : List SwpProgram} {v_swpAborted : Bool} :
    Kept m og { s with swpQueue := v_swpQueue, swpAborted := v_swpAborted } where
  variant := h.variant
  keyFused := h.keyFused
  pending := h.pending
  mem := h.mem
  flash := h.flash
  zero := h.zero
  gone := h.gone
  only := by
    intro p hp
    cases p
    case swpQueue => exact absurd hp (mask_on hm rfl)
    case swpAborted => exact absurd hp (mask_on hm rfl)
    all_goals exact h.only _ hp

theorem kept_swpQueue_swpCtr {m : Nat} {og s : State} (h : Kept m og s) (hm : 0x440000000000 &&& m = 0x440000000000) {v_swpQueue : List SwpProgram} {v_swpCtr : Nat} :
    Kept m og { s with swpQueue := v_swpQueue, swpCtr := v_swpCtr } where
  variant := h.variant
  keyFused := h.keyFused
  pending := h.pending
  mem := h.mem
  flash := h.flash
  zero := h.zero
  gone := h.gone
  only := by
    intro p hp
    cases p
    case swpQueue => exact absurd hp (mask_on hm rfl)
    case swpCtr => exact absurd hp (mask_on hm rfl)
    all_goals exact h.only _ hp

theorem kept_swpStop {m : Nat} {og s : State} (h : Kept m og s) (hm : 0x800000000000 &&& m = 0x800000000000) {v_swpStop : Bool} :
    Kept m og { s with swpStop := v_swpStop } where
  variant := h.variant
  keyFused := h.keyFused
  pending := h.pending
  mem := h.mem
  flash := h.flash
  zero := h.zero
  gone := h.gone
  only := by
    intro p hp
    cases p
    case swpStop => exact absurd hp (mask_on hm rfl)
    all_goals exact h.only _ hp

theorem kept_swpStop_swpAborted {m : Nat} {og s : State} (h : Kept m og s) (hm : 0x1800000000000 &&& m = 0x1800000000000) {v_swpStop : Bool} {v_swpAborted : Bool} :
    Kept m og { s with swpStop := v_swpStop, swpAborted := v_swpAborted } where
  variant := h.variant
  keyFused := h.keyFused
  pending := h.pending
  mem := h.mem
  flash := h.flash
  zero := h.zero
  gone := h.gone
  only := by
    intro p hp
    cases p
    case swpStop => exact absurd hp (mask_on hm rfl)
    case swpAborted => exact absurd hp (mask_on hm rfl)
    all_goals exact h.only _ hp

theorem kept_swpSubmits {m : Nat} {og s : State} (h : Kept m og s) (hm : 0x20000000000 &&& m = 0x20000000000) {v_swpSubmits : List Nat} :
    Kept m og { s with swpSubmits := v_swpSubmits } where
  variant := h.variant
  keyFused := h.keyFused
  pending := h.pending
  mem := h.mem
  flash := h.flash
  zero := h.zero
  gone := h.gone
  only := by
    intro p hp
    cases p
    case swpSubmits => exact absurd hp (mask_on hm rfl)
    all_goals exact h.only _ hp

theorem kept_swpTail {m : Nat} {og s : State} (h : Kept m og s) (hm : 0x8000000000000 &&& m = 0x8000000000000) {v_swpTail : DWord} :
    Kept m og { s with swpTail := v_swpTail } where
  variant := h.variant
  keyFused := h.keyFused
  pending := h.pending
  mem := h.mem
  flash := h.flash
  zero := h.zero
  gone := h.gone
  only := by
    intro p hp
    cases p
    case swpTail => exact absurd hp (mask_on hm rfl)
    all_goals exact h.only _ hp

theorem kept_tbLatch {m : Nat} {og s : State} (h : Kept m og s) (hm : 0x4000 &&& m = 0x4000) {v_tbLatch : List (Nat × DWord)} :
    Kept m og { s with tbLatch := v_tbLatch } where
  variant := h.variant
  keyFused := h.keyFused
  pending := h.pending
  mem := h.mem
  flash := h.flash
  zero := h.zero
  gone := h.gone
  only := by
    intro p hp
    cases p
    case tbLatch => exact absurd hp (mask_on hm rfl)
    all_goals exact h.only _ hp

theorem kept_tcmErr {m : Nat} {og s : State} (h : Kept m og s) (hm : 0x1000000 &&& m = 0x1000000) {v_tcmErr : List (Nat × Nat)} :
    Kept m og { s with tcmErr := v_tcmErr } where
  variant := h.variant
  keyFused := h.keyFused
  pending := h.pending
  mem := h.mem
  flash := h.flash
  zero := h.zero
  gone := h.gone
  only := by
    intro p hp
    cases p
    case tcmErr => exact absurd hp (mask_on hm rfl)
    all_goals exact h.only _ hp

theorem kept_tiles {m : Nat} {og s : State} (h : Kept m og s) (hm : 0x1000000000 &&& m = 0x1000000000) {v_tiles : List Tile} :
    Kept m og { s with tiles := v_tiles } where
  variant := h.variant
  keyFused := h.keyFused
  pending := h.pending
  mem := h.mem
  flash := h.flash
  zero := h.zero
  gone := h.gone
  only := by
    intro p hp
    cases p
    case tiles => exact absurd hp (mask_on hm rfl)
    all_goals exact h.only _ hp

theorem kept_tiles_spans {m : Nat} {og s : State} (h : Kept m og s) (hm : 0x5000000000 &&& m = 0x5000000000) {v_tiles : List Tile} {v_spans : List Span} :
    Kept m og { s with tiles := v_tiles, spans := v_spans } where
  variant := h.variant
  keyFused := h.keyFused
  pending := h.pending
  mem := h.mem
  flash := h.flash
  zero := h.zero
  gone := h.gone
  only := by
    intro p hp
    cases p
    case tiles => exact absurd hp (mask_on hm rfl)
    case spans => exact absurd hp (mask_on hm rfl)
    all_goals exact h.only _ hp

theorem kept_tiles_tileCtr {m : Nat} {og s : State} (h : Kept m og s) (hm : 0x3000000000 &&& m = 0x3000000000) {v_tiles : List Tile} {v_tileCtr : Nat} :
    Kept m og { s with tiles := v_tiles, tileCtr := v_tileCtr } where
  variant := h.variant
  keyFused := h.keyFused
  pending := h.pending
  mem := h.mem
  flash := h.flash
  zero := h.zero
  gone := h.gone
  only := by
    intro p hp
    cases p
    case tiles => exact absurd hp (mask_on hm rfl)
    case tileCtr => exact absurd hp (mask_on hm rfl)
    all_goals exact h.only _ hp

theorem kept_wc {m : Nat} {og s : State} (h : Kept m og s) (hm : 0x10000000000000 &&& m = 0x10000000000000) {v_wc : Vector WriteCell 8} :
    Kept m og { s with wc := v_wc } where
  variant := h.variant
  keyFused := h.keyFused
  pending := h.pending
  mem := h.mem
  flash := h.flash
  zero := h.zero
  gone := h.gone
  only := by
    intro p hp
    cases p
    case wc => exact absurd hp (mask_on hm rfl)
    all_goals exact h.only _ hp

theorem kept_weakTiles {m : Nat} {og s : State} (h : Kept m og s) (hm : 0x8000000000 &&& m = 0x8000000000) {v_weakTiles : List (Word × Nat)} :
    Kept m og { s with weakTiles := v_weakTiles } where
  variant := h.variant
  keyFused := h.keyFused
  pending := h.pending
  mem := h.mem
  flash := h.flash
  zero := h.zero
  gone := h.gone
  only := by
    intro p hp
    cases p
    case weakTiles => exact absurd hp (mask_on hm rfl)
    all_goals exact h.only _ hp

theorem kept_wraps {m : Nat} {og s : State} (h : Kept m og s) (hm : 0x2000 &&& m = 0x2000) {v_wraps : List Nat} :
    Kept m og { s with wraps := v_wraps } where
  variant := h.variant
  keyFused := h.keyFused
  pending := h.pending
  mem := h.mem
  flash := h.flash
  zero := h.zero
  gone := h.gone
  only := by
    intro p hp
    cases p
    case wraps => exact absurd hp (mask_on hm rfl)
    all_goals exact h.only _ hp

theorem kept_xing {m : Nat} {og s : State} (h : Kept m og s) (hm : 0x200 &&& m = 0x200) {v_xing : Vector Xing 52} (k_xing : ((∀ x : Fin 52, xingPresent s.variant x.val = false → s.xing[x].st = .withdrawn) → ∀ x : Fin 52, xingPresent s.variant x.val = false → v_xing[x].st = .withdrawn)) :
    Kept m og { s with xing := v_xing } where
  variant := h.variant
  keyFused := h.keyFused
  pending := h.pending
  mem := h.mem
  flash := h.flash
  zero := h.zero
  gone := fun q => by
    have v := h.variant
    have g := k_xing (by rw [v]; exact h.gone q)
    rw [v] at g
    exact g
  only := by
    intro p hp
    cases p
    case xing => exact absurd hp (mask_on hm rfl)
    all_goals exact h.only _ hp

/-- A core whose x0 holds 0 takes the place of another. -/
theorem zero_set {v : Vector Core 4} (z : ∀ p : Fin 4, (v[p].x)[0] = 0) (k : Fin 4) (c : Core) (hc : (c.x)[0] = 0) (p : Fin 4) :
    ((v.set k c)[p].x)[0] = 0 := by
  by_cases e : k = p
  · subst e
    simp only [Fin.getElem_fin, Vector.getElem_set_self]
    exact hc
  · have e' : k.val ≠ p.val := fun q => e (Fin.ext q)
    simp only [Fin.getElem_fin, Vector.getElem_set_ne _ _ e']
    exact z p

/-! ### Control -/

theorem forEach_kept {α : Type} {m : Nat} {og s : State} (h : Kept m og s) (l : List α) (f : State → α → State)
    (hf : ∀ t x, Kept m og t → Kept m og (f t x)) : Kept m og (forEach l s f) := by
  unfold forEach
  induction l generalizing s with
  | nil => exact h
  | cons a l ih => exact ih (hf _ _ h)

theorem foldl_kept {α : Type} {m : Nat} {og s : State} (h : Kept m og s) (l : List α) (f : State → α → State)
    (hf : ∀ t x, Kept m og t → Kept m og (f t x)) : Kept m og (l.foldl f s) := forEach_kept h l f hf

theorem foldlFst_kept {α β : Type} {m : Nat} {og : State} {s : State × β} (h : Kept m og s.1) (l : List α)
    (f : State × β → α → State × β) (hf : ∀ t x, Kept m og t.1 → Kept m og (f t x).1) : Kept m og (l.foldl f s).1 := by
  induction l generalizing s with
  | nil => exact h
  | cons a l ih => exact ih (hf _ _ h)

theorem sif_kept {m : Nat} {og s : State} (h : Kept m og s) (b : Bool) (f : State → State)
    (hf : ∀ t, Kept m og t → Kept m og (f t)) : Kept m og (sif b s f) := by
  unfold sif
  split
  · exact hf _ h
  · exact h

theorem getD_kept {m : Nat} {og s : State} {o : Option State} (h : Kept m og s) (ho : ∀ t, o = some t → Kept m og t) :
    Kept m og (o.getD s) := by
  cases o with
  | none => exact h
  | some t => exact ho t rfl

theorem next_kept {m : Nat} {og s t : State} (e : (Host.Outcome.next s : Host.Outcome State Fault Refusal) = .next t)
    (h : Kept m og s) : Kept m og t := by
  cases e
  exact h

theorem ite_kept {m : Nat} {og s t : State} {c : Prop} [Decidable c] (hs : Kept m og s) (ht : Kept m og t) :
    Kept m og (if c then s else t) := by
  by_cases hc : c
  · rw [if_pos hc]; exact hs
  · rw [if_neg hc]; exact ht

end Machine
end Sys2Proof
end

