-- ==== Sys2Proof/Laws/KeptRegFile.lean ====
section
/-! SUPPORT. What the operations of Machine/RegFile.lean keep (Laws/Keeps.lean). -/

namespace Sys2Proof
namespace Machine

theorem wr_kept {m : Nat} {og s : State} (h : Kept m og s) (hm : 0x8 &&& m = 0x8) : ∀ a2 a3, Kept m og (wr s a2 a3) := by
  intro a2 a3
  unfold wr
  repeat' first
    | (with_reducible first | assumption | exact mask_sub hm rfl)
    | intro _
    | dsimp only
    | (with_reducible first | apply kept_regs)

theorem fput_kept {m : Nat} {og s : State} (h : Kept m og s) (hm : 0x8 &&& m = 0x8) : ∀ a2 a3, Kept m og (fput s a2 a3) := by
  intro a2 a3
  unfold fput
  repeat' first
    | (with_reducible first | assumption | exact mask_sub hm rfl | apply wr_kept)
    | intro _
    | dsimp only

theorem fset_kept {m : Nat} {og s : State} (h : Kept m og s) (hm : 0x8 &&& m = 0x8) : ∀ a2, Kept m og (fset s a2) := by
  intro a2
  unfold fset
  repeat' first
    | (with_reducible first | assumption | exact mask_sub hm rfl | apply fput_kept)
    | intro _
    | dsimp only

theorem fclr_kept {m : Nat} {og s : State} (h : Kept m og s) (hm : 0x8 &&& m = 0x8) : ∀ a2, Kept m og (fclr s a2) := by
  intro a2
  unfold fclr
  repeat' first
    | (with_reducible first | assumption | exact mask_sub hm rfl | apply fput_kept)
    | intro _
    | dsimp only

theorem fputB_kept {m : Nat} {og s : State} (h : Kept m og s) (hm : 0x8 &&& m = 0x8) : ∀ a2 a3, Kept m og (fputB s a2 a3) := by
  intro a2 a3
  unfold fputB
  repeat' first
    | (with_reducible first | assumption | exact mask_sub hm rfl | apply fput_kept)
    | intro _
    | dsimp only
    | split

theorem fputAt_kept {m : Nat} {og s : State} (h : Kept m og s) (hm : 0x8 &&& m = 0x8) : ∀ a2 a3 a4, Kept m og (fputAt s a2 a3 a4) := by
  intro a2 a3 a4
  unfold fputAt
  repeat' first
    | (with_reducible first | assumption | exact mask_sub hm rfl | apply fput_kept)
    | intro _
    | dsimp only
    | split

theorem fincSat_kept {m : Nat} {og s : State} (h : Kept m og s) (hm : 0x8 &&& m = 0x8) : ∀ a2, Kept m og (fincSat s a2) := by
  intro a2
  unfold fincSat
  repeat' first
    | (with_reducible first | assumption | exact mask_sub hm rfl | apply fput_kept)
    | intro _
    | dsimp only
    | split

theorem fputInt_kept {m : Nat} {og s : State} (h : Kept m og s) (hm : 0x8 &&& m = 0x8) : ∀ a2 a3, Kept m og (fputInt s a2 a3) := by
  intro a2 a3
  unfold fputInt
  repeat' first
    | (with_reducible first | assumption | exact mask_sub hm rfl | apply fput_kept)
    | intro _
    | dsimp only

theorem putTime_kept {m : Nat} {og s : State} (h : Kept m og s) (hm : 0x8 &&& m = 0x8) : ∀ a2 a3 a4, Kept m og (putTime s a2 a3 a4) := by
  intro a2 a3 a4
  unfold putTime
  repeat' first
    | (with_reducible first | assumption | exact mask_sub hm rfl | apply wr_kept)
    | intro _
    | dsimp only

end Machine
end Sys2Proof
end

