-- ==== Sys2Proof/Laws/KeptOps.lean ====
section
/-! SUPPORT. What the operations of Machine/Ops.lean keep (Laws/Keeps.lean). -/

namespace Sys2Proof
namespace Machine

theorem setPoison_kept {m : Nat} {og s : State} (h : Kept m og s) (hm : 0x40 &&& m = 0x40) : ∀ a2 a3, Kept m og (setPoison s a2 a3) := by
  intro a2 a3
  unfold setPoison
  repeat' first
    | (with_reducible first | assumption | exact mask_sub hm rfl)
    | intro _
    | dsimp only
    | split
    | (with_reducible first | apply kept_poison)

theorem count_kept {m : Nat} {og s : State} (h : Kept m og s) (hm : 0x3000 &&& m = 0x3000) : ∀ a2, Kept m og (count s a2) := by
  intro a2
  unfold count
  extract_lets +onlyGivenNames c
  try clear_value c
  repeat' first
    | (with_reducible first | assumption | exact mask_sub hm rfl)
    | intro _
    | dsimp only
    | split
    | (with_reducible first | apply kept_counters_wraps)

theorem countIf_kept {m : Nat} {og s : State} (h : Kept m og s) (hm : 0x3000 &&& m = 0x3000) : ∀ a2 a3, Kept m og (countIf s a2 a3) := by
  intro a2 a3
  unfold countIf
  repeat' first
    | (with_reducible first | assumption | exact mask_sub hm rfl | apply count_kept)
    | intro _
    | dsimp only
    | split

theorem reply_kept {m : Nat} {og s : State} (h : Kept m og s) (hm : 0x80 &&& m = 0x80) : ∀ a2 a3 a4, Kept m og (reply s a2 a3 a4) := by
  intro a2 a3 a4
  unfold reply
  repeat' first
    | (with_reducible first | assumption | exact mask_sub hm rfl)
    | intro _
    | dsimp only
    | (with_reducible first | apply kept_lastReply)

theorem replyError_kept {m : Nat} {og s : State} (h : Kept m og s) (hm : 0x80 &&& m = 0x80) : Kept m og (replyError s) := by
  unfold replyError
  repeat' first
    | (with_reducible first | assumption | exact mask_sub hm rfl | apply reply_kept)
    | intro _
    | dsimp only

theorem tickFree_kept {m : Nat} {og s : State} (h : Kept m og s) (hm : 0x10000 &&& m = 0x10000) : Kept m og (tickFree s) := by
  unfold tickFree
  repeat' first
    | (with_reducible first | assumption | exact mask_sub hm rfl)
    | intro _
    | dsimp only
    | (with_reducible first | apply kept_freeCtr)

theorem tickFrees_kept {m : Nat} {og s : State} (h : Kept m og s) (hm : 0x10000 &&& m = 0x10000) : ∀ a2, Kept m og (tickFrees s a2) := by
  intro a2
  unfold tickFrees
  repeat' first
    | (with_reducible first | assumption | exact mask_sub hm rfl)
    | intro _
    | dsimp only
    | (with_reducible first | apply kept_freeCtr)

theorem modRbt_kept {m : Nat} {og s : State} (h : Kept m og s) (hm : 0x100 &&& m = 0x100) : ∀ a2 a3, Kept m og (modRbt s a2 a3) := by
  intro a2 a3
  unfold modRbt
  repeat' first
    | (with_reducible first | assumption | exact mask_sub hm rfl)
    | intro _
    | dsimp only
    | (with_reducible first | apply kept_rbt)

theorem modXing_kept {m : Nat} {og s : State} (h : Kept m og s) (hm : 0x200 &&& m = 0x200) (x : Fin 52) (f : Xing → Xing)
    (hf : xingPresent s.variant x.val = false → s.xing[x].st = .withdrawn → (f s.xing[x]).st = .withdrawn) :
    Kept m og (modXing s x f) := by
  unfold modXing
  refine kept_xing h hm ?_
  intro g y hy
  by_cases e : x = y
  · subst e
    simp only [Fin.getElem_fin, Vector.getElem_set_self]
    exact hf hy (g x hy)
  · have e' : x.val ≠ y.val := fun k => e (Fin.ext k)
    simp only [Fin.getElem_fin, Vector.getElem_set_ne _ _ e']
    exact g y hy



theorem cellNote_kept {m : Nat} {og s : State} (h : Kept m og s) (hm : 0x8 &&& m = 0x8) : ∀ a2 a3 a4 a5, Kept m og (cellNote s a2 a3 a4 a5) := by
  intro a2 a3 a4 a5
  unfold cellNote
  repeat' first
    | (with_reducible first | assumption | exact mask_sub hm rfl | apply fput_kept)
    | intro _
    | dsimp only
    | split

theorem raiseReport_kept {m : Nat} {og s : State} (h : Kept m og s) (hm : 0x4000008 &&& m = 0x4000008) : ∀ a2 a3 a4 a5 a6 a7 a8, Kept m og (raiseReport s a2 a3 a4 a5 a6 a7 a8) := by
  intro a2 a3 a4 a5 a6 a7 a8
  unfold raiseReport
  extract_lets +onlyGivenNames s same
  have k_s : Kept m og s := by
    dsimp only [s]
    repeat' first
      | (with_reducible first | assumption | exact mask_sub hm rfl | apply cellNote_kept)
      | intro _
      | dsimp only
      | split
      | (with_reducible first | apply kept_reports)
  clear_value s
  try clear_value same
  repeat' first
    | (with_reducible first | assumption | exact mask_sub hm rfl | apply cellNote_kept)
    | intro _
    | dsimp only
    | split
    | (with_reducible first | apply kept_reports)

theorem modHb_kept {m : Nat} {og s : State} (h : Kept m og s) (hm : 0x20000000 &&& m = 0x20000000) : ∀ a2 a3, Kept m og (modHb s a2 a3) := by
  intro a2 a3
  unfold modHb
  repeat' first
    | (with_reducible first | assumption | exact mask_sub hm rfl)
    | intro _
    | dsimp only
    | (with_reducible first | apply kept_hb)

end Machine
end Sys2Proof
end

