-- ==== Sys2Proof/Laws/KeptStaging.lean ====
section
/-! SUPPORT. What the operations of Machine/Staging.lean keep (Laws/Keeps.lean). -/

namespace Sys2Proof
namespace Machine

theorem sramReport_kept {m : Nat} {og s : State} (h : Kept m og s) (hm : 0x4000008 &&& m = 0x4000008) : ∀ a2 a3, Kept m og (sramReport s a2 a3) := by
  intro a2 a3
  unfold sramReport
  extract_lets +onlyGivenNames d p cell s1
  try clear_value d
  try clear_value p
  try clear_value cell
  have k_s1 : Kept m og s1 := by
    dsimp only [s1]
    repeat' first
      | (with_reducible first | assumption | exact mask_sub hm rfl | apply raiseReport_kept | apply fset_kept)
      | intro _
      | dsimp only
      | split
  clear_value s1
  repeat' first
    | (with_reducible first | assumption | exact mask_sub hm rfl | apply raiseReport_kept | apply fset_kept)
    | intro _
    | dsimp only
    | split

theorem sramFlag_kept {m : Nat} {og s : State} (h : Kept m og s) (hm : 0x4003008 &&& m = 0x4003008) : ∀ a2 a3, Kept m og (sramFlag s a2 a3) := by
  intro a2 a3
  unfold sramFlag
  repeat' first
    | (with_reducible first | assumption | exact mask_sub hm rfl | apply sramReport_kept | apply count_kept | apply fset_kept)
    | intro _
    | dsimp only
    | split

theorem sramNote_kept {m : Nat} {og s : State} (h : Kept m og s) (hm : 0x4003008 &&& m = 0x4003008) : ∀ a2 a3, Kept m og (sramNote s a2 a3) := by
  intro a2 a3
  unfold sramNote
  repeat' first
    | (with_reducible first | assumption | exact mask_sub hm rfl | apply sramFlag_kept)
    | intro _
    | dsimp only

theorem modDram_kept {m : Nat} {og s : State} (h : Kept m og s) (hm : 0x400000 &&& m = 0x400000) : ∀ a2 a3, Kept m og (modDram s a2 a3) := by
  intro a2 a3
  unfold modDram
  repeat' first
    | (with_reducible first | assumption | exact mask_sub hm rfl)
    | intro _
    | dsimp only
    | (with_reducible first | apply kept_dram)

theorem dramNote_kept {m : Nat} {og s : State} (h : Kept m og s) (hm : 0x8 &&& m = 0x8) : ∀ a2 a3 a4 a5, Kept m og (dramNote s a2 a3 a4 a5) := by
  intro a2 a3 a4 a5
  unfold dramNote
  repeat' first
    | (with_reducible first | assumption | exact mask_sub hm rfl | apply wr_kept)
    | intro _
    | dsimp only
    | split

theorem dramCE_kept {m : Nat} {og s : State} (h : Kept m og s) (hm : 0x3008 &&& m = 0x3008) : ∀ a2 a3, Kept m og (dramCE s a2 a3) := by
  intro a2 a3
  unfold dramCE
  repeat' first
    | (with_reducible first | assumption | exact mask_sub hm rfl | apply count_kept | apply dramNote_kept | apply fset_kept)
    | intro _
    | dsimp only

theorem dramUE_kept {m : Nat} {og s : State} (h : Kept m og s) (hm : 0x4003008 &&& m = 0x4003008) : ∀ a2 a3, Kept m og (dramUE s a2 a3) := by
  intro a2 a3
  unfold dramUE
  repeat' first
    | (with_reducible first | assumption | exact mask_sub hm rfl | apply raiseReport_kept | apply count_kept | apply dramNote_kept | apply fset_kept)
    | intro _
    | dsimp only

theorem dramSaw_kept {m : Nat} {og s : State} (h : Kept m og s) (hm : 0x4003008 &&& m = 0x4003008) : ∀ a2 a3 a4, Kept m og (dramSaw s a2 a3 a4) := by
  intro a2 a3 a4
  unfold dramSaw
  repeat' first
    | (with_reducible first | assumption | exact mask_sub hm rfl | apply dramCE_kept | apply dramUE_kept)
    | intro _
    | dsimp only
    | split

theorem putChk_kept {m : Nat} {og s : State} (h : Kept m og s) (hm : 0x200000 &&& m = 0x200000) : ∀ a2 a3, Kept m og (putChk s a2 a3) := by
  intro a2 a3
  unfold putChk
  repeat' first
    | (with_reducible first | assumption | exact mask_sub hm rfl)
    | intro _
    | dsimp only
    | split
    | (with_reducible first | apply kept_chkErr)

theorem checkBack_kept {m : Nat} {og s : State} (h : Kept m og s) (hm : 0x600000 &&& m = 0x600000) : ∀ a2 a3, Kept m og (checkBack s a2 a3) := by
  intro a2 a3
  unfold checkBack
  repeat' first
    | (with_reducible first | assumption | exact mask_sub hm rfl | apply modDram_kept | apply putChk_kept)
    | intro _
    | dsimp only
    | split

theorem checkFill_kept {m : Nat} {og s : State} (h : Kept m og s) (hm : 0x400000 &&& m = 0x400000) : ∀ a2, Kept m og (checkFill s a2) := by
  intro a2
  unfold checkFill
  extract_lets +onlyGivenNames p look
  try clear_value p
  try clear_value look
  repeat' first
    | (with_reducible first | assumption | exact mask_sub hm rfl | apply modDram_kept)
    | intro _
    | dsimp only

theorem checkLoad_kept {m : Nat} {og s : State} (h : Kept m og s) (hm : 0x4603008 &&& m = 0x4603008) : ∀ a2, Kept m og (checkLoad s a2) := by
  intro a2
  unfold checkLoad
  repeat' first
    | (with_reducible first | assumption | exact mask_sub hm rfl | apply checkBack_kept | apply checkFill_kept | apply dramSaw_kept)
    | intro _
    | dsimp only
    | split

theorem checkStore_kept {m : Nat} {og s : State} (h : Kept m og s) (hm : 0x400000 &&& m = 0x400000) : ∀ a2, Kept m og (checkStore s a2) := by
  intro a2
  unfold checkStore
  repeat' first
    | (with_reducible first | assumption | exact mask_sub hm rfl | apply modDram_kept)
    | intro _
    | dsimp only
    | split

theorem dramRead_kept {m : Nat} {og s : State} (h : Kept m og s) (hm : 0x4603008 &&& m = 0x4603008) : ∀ a2, Kept m og (dramRead s a2).1 := by
  intro a2
  unfold dramRead
  extract_lets +onlyGivenNames s1
  have k_s1 : Kept m og s1 := by
    dsimp only [s1]
    repeat' first
      | (with_reducible first | assumption | exact mask_sub hm rfl | apply checkLoad_kept | apply dramSaw_kept)
      | intro _
      | dsimp only
      | split
  clear_value s1
  repeat' first
    | (with_reducible first | assumption | exact mask_sub hm rfl | apply checkLoad_kept | apply dramSaw_kept)
    | intro _
    | dsimp only
    | split

theorem dramRead_keq {m : Nat} {og s t : State} {r} {a2} (e : dramRead s a2 = (t, r)) (h : Kept m og s) (hm : 0x4603008 &&& m = 0x4603008) : Kept m og t := by
  have k := dramRead_kept h hm a2
  rw [e] at k
  exact k

theorem dramStoreWord_kept {m : Nat} {og s : State} (h : Kept m og s) (hm : 0x4703068 &&& m = 0x4703068) : ∀ a2 a3 a4, Kept m og (dramStoreWord s a2 a3 a4) := by
  intro a2 a3 a4
  unfold dramStoreWord
  extract_lets +onlyGivenNames s1
  have k_s1 : Kept m og s1 := by
    dsimp only [s1]
    repeat' first
      | (with_reducible first | assumption | exact mask_sub hm rfl | apply checkStore_kept | apply checkLoad_kept | apply setPoison_kept)
      | intro _
      | dsimp only
      | exact Memory.wf_writeBytes _ _ (by assumption)
      | exact Memory.wf_filter _ (by assumption)
      | exact (rfl : Memory.wf [] = true)
      | (with_reducible first | apply kept_mem_dramErr)
  clear_value s1
  repeat' first
    | (with_reducible first | assumption | exact mask_sub hm rfl | apply checkStore_kept | apply checkLoad_kept | apply setPoison_kept)
    | intro _
    | dsimp only
    | exact Memory.wf_writeBytes _ _ (by assumption)
    | exact Memory.wf_filter _ (by assumption)
    | exact (rfl : Memory.wf [] = true)
    | (with_reducible first | apply kept_mem_dramErr)

theorem dramWrite_kept {m : Nat} {og s : State} (h : Kept m og s) (hm : 0x4703068 &&& m = 0x4703068) : ∀ a2 a3, Kept m og (dramWrite s a2 a3) := by
  intro a2 a3
  unfold dramWrite
  extract_lets +onlyGivenNames w
  try clear_value w
  repeat' first
    | (with_reducible first | assumption | exact mask_sub hm rfl | apply dramStoreWord_kept | apply checkLoad_kept | apply count_kept | apply fset_kept | apply dramSaw_kept)
    | intro _
    | dsimp only
    | split

end Machine
end Sys2Proof
end

