-- ==== Sys2Proof/Laws/KeptArcade.lean ====
section
/-! SUPPORT. What the operations of Machine/Arcade.lean keep (Laws/Keeps.lean). -/

namespace Sys2Proof
namespace Machine

theorem setArcLines_kept {m : Nat} {og s : State} (h : Kept m og s) (hm : 0x20000 &&& m = 0x20000) : ∀ a2, Kept m og (setArcLines s a2) := by
  intro a2
  unfold setArcLines
  repeat' first
    | (with_reducible first | assumption | exact mask_sub hm rfl)
    | intro _
    | dsimp only
    | (with_reducible first | apply kept_arcade)

theorem arcTouch_kept {m : Nat} {og s : State} (h : Kept m og s) (hm : 0x20000 &&& m = 0x20000) : ∀ a2 a3, Kept m og (arcTouch s a2 a3) := by
  intro a2 a3
  unfold arcTouch
  extract_lets +onlyGivenNames k t
  try clear_value k
  try clear_value t
  repeat' first
    | (with_reducible first | assumption | exact mask_sub hm rfl)
    | intro _
    | dsimp only
    | (with_reducible first | apply getD_kept)
    | (with_reducible first | apply kept_arcade)

theorem arcNote_kept {m : Nat} {og s : State} (h : Kept m og s) (hm : 0x4003008 &&& m = 0x4003008) : ∀ a2 a3 a4 a5 a6, Kept m og (arcNote s a2 a3 a4 a5 a6) := by
  intro a2 a3 a4 a5 a6
  unfold arcNote
  extract_lets +onlyGivenNames s1
  have k_s1 : Kept m og s1 := by
    dsimp only [s1]
    repeat' first
      | (with_reducible first | assumption | exact mask_sub hm rfl | apply sramNote_kept | apply fset_kept)
      | intro _
      | dsimp only
      | split
  clear_value s1
  repeat' first
    | (with_reducible first | assumption | exact mask_sub hm rfl | apply sramNote_kept | apply fset_kept)
    | intro _
    | dsimp only
    | split

theorem arcWriteBack_kept {m : Nat} {og s : State} (h : Kept m og s) (hm : 0x4703068 &&& m = 0x4703068) : ∀ a2 a3 a4 a5, Kept m og (arcWriteBack s a2 a3 a4 a5) := by
  intro a2 a3 a4 a5
  unfold arcWriteBack
  repeat' first
    | (with_reducible first | assumption | exact mask_sub hm rfl | apply count_kept | apply dramStoreWord_kept | apply arcNote_kept)
    | intro _
    | dsimp only
    | split

theorem arcDrop_kept {m : Nat} {og s : State} (h : Kept m og s) (hm : 0x20000 &&& m = 0x20000) : ∀ a2 a3, Kept m og (arcDrop s a2 a3) := by
  intro a2 a3
  unfold arcDrop
  repeat' first
    | (with_reducible first | assumption | exact mask_sub hm rfl | apply setArcLines_kept)
    | intro _
    | dsimp only

theorem arcSound_kept {m : Nat} {og s : State} (h : Kept m og s) (hm : 0x4723068 &&& m = 0x4723068) : ∀ a2 a3 a4, Kept m og (arcSound s a2 a3 a4).1 := by
  intro a2 a3 a4
  unfold arcSound
  repeat' first
    | (with_reducible first | assumption | exact mask_sub hm rfl | apply arcNote_kept | apply arcDrop_kept | apply arcWriteBack_kept)
    | intro _
    | dsimp only
    | split

theorem arcSound_keq {m : Nat} {og s t : State} {r} {a2 a3 a4} (e : arcSound s a2 a3 a4 = (t, r)) (h : Kept m og s) (hm : 0x4723068 &&& m = 0x4723068) : Kept m og t := by
  have k := arcSound_kept h hm a2 a3 a4
  rw [e] at k
  exact k

theorem arcInstall_kept {m : Nat} {og s : State} (h : Kept m og s) (hm : 0x4723068 &&& m = 0x4723068) : ∀ a2 a3 a4, Kept m og (arcInstall s a2 a3 a4) := by
  intro a2 a3 a4
  unfold arcInstall
  extract_lets +onlyGivenNames k s1
  try clear_value k
  have k_s1 : Kept m og s1 := by
    dsimp only [s1]
    repeat' first
      | (with_reducible first | assumption | exact mask_sub hm rfl | apply arcWriteBack_kept | apply arcTouch_kept | apply setArcLines_kept)
      | intro _
      | dsimp only
      | split
  clear_value s1
  repeat' first
    | (with_reducible first | assumption | exact mask_sub hm rfl | apply arcWriteBack_kept | apply arcTouch_kept | apply setArcLines_kept)
    | intro _
    | dsimp only
    | split

theorem modL1_kept {m : Nat} {og s : State} (h : Kept m og s) (hm : 0xc0000 &&& m = 0xc0000) : ∀ a2 a3 a4, Kept m og (modL1 s a2 a3 a4) := by
  intro a2 a3 a4
  unfold modL1
  repeat' first
    | (with_reducible first | assumption | exact mask_sub hm rfl)
    | intro _
    | dsimp only
    | split
    | (with_reducible first | apply kept_l1d | apply kept_l1i)

theorem l1Settle_kept {m : Nat} {og s : State} (h : Kept m og s) (hm : 0xc0000 &&& m = 0xc0000) : ∀ a1 a2, Kept m og (l1Settle a1 a2 s) := by
  intro a1 a2
  unfold l1Settle
  repeat' first
    | (with_reducible first | assumption | exact mask_sub hm rfl | apply modL1_kept)
    | intro _
    | dsimp only
    | split

theorem l1Store_kept {m : Nat} {og s : State} (h : Kept m og s) (hm : 0xc0000 &&& m = 0xc0000) : ∀ a2 a3 a4, Kept m og (l1Store s a2 a3 a4) := by
  intro a2 a3 a4
  unfold l1Store
  repeat' first
    | (with_reducible first | assumption | exact mask_sub hm rfl | apply forEach_kept | apply modL1_kept | apply l1Settle_kept)
    | intro _
    | dsimp only
    | split

theorem resvDrop_kept {m : Nat} {og s : State} (h : Kept m og s) (hm : 0x80000000000000000 &&& m = 0x80000000000000000) (a n : Nat) : Kept m og (resvDrop s a n) := by
  unfold resvDrop
  extract_lets +onlyGivenNames hit
  clear_value hit
  split
  · refine kept_core h (mask_sub hm rfl) ?_
    intro z p
    rw [Fin.getElem_fin, Vector.getElem_map]
    split
    · exact z p
    · exact z p
  · exact h

theorem arcAccept_kept {m : Nat} {og s : State} (h : Kept m og s) (hm : 0x800000000000c0000 &&& m = 0x800000000000c0000) : ∀ a2, Kept m og (arcAccept s a2) := by
  intro a2
  unfold arcAccept
  repeat' first
    | (with_reducible first | assumption | exact mask_sub hm rfl | apply resvDrop_kept | apply l1Store_kept)
    | intro _
    | dsimp only
    | split

theorem showMiss_kept {m : Nat} {og s : State} (h : Kept m og s) (hm : 0x8 &&& m = 0x8) : Kept m og (showMiss s) := by
  unfold showMiss
  repeat' first
    | (with_reducible first | assumption | exact mask_sub hm rfl | apply fput_kept)
    | intro _
    | dsimp only

theorem setMiss_kept {m : Nat} {og s : State} (h : Kept m og s) (hm : 0x20008 &&& m = 0x20008) : ∀ a2 a3, Kept m og (setMiss s a2 a3) := by
  intro a2 a3
  unfold setMiss
  repeat' first
    | (with_reducible first | assumption | exact mask_sub hm rfl | apply showMiss_kept)
    | intro _
    | dsimp only
    | (with_reducible first | apply kept_arcade)

theorem setArcWaiting_kept {m : Nat} {og s : State} (h : Kept m og s) (hm : 0x20000 &&& m = 0x20000) : ∀ a2 a3, Kept m og (setArcWaiting s a2 a3) := by
  intro a2 a3
  unfold setArcWaiting
  repeat' first
    | (with_reducible first | assumption | exact mask_sub hm rfl)
    | intro _
    | dsimp only
    | (with_reducible first | apply kept_arcade)

theorem arcWait_kept {m : Nat} {og s : State} (h : Kept m og s) (hm : 0x20008 &&& m = 0x20008) : ∀ a2, Kept m og (arcWait s a2) := by
  intro a2
  unfold arcWait
  repeat' first
    | (with_reducible first | assumption | exact mask_sub hm rfl | apply fset_kept | apply setArcWaiting_kept)
    | intro _
    | dsimp only

theorem arcLand_kept {m : Nat} {og s : State} (h : Kept m og s) (hm : 0x4723068 &&& m = 0x4723068) : ∀ a2 a3, Kept m og (arcLand s a2 a3) := by
  intro a2 a3
  unfold arcLand
  repeat' first
    | (with_reducible first | assumption | exact mask_sub hm rfl | apply dramRead_kept | refine dramRead_keq (by assumption) ?_ ?_ | apply setMiss_kept | apply arcInstall_kept | apply dramWrite_kept)
    | intro _
    | dsimp only
    | (with_reducible first | apply foldl_kept | apply foldlFst_kept)
    | split
    | (with_reducible first | apply kept_arcade)

theorem arcMerge_kept {m : Nat} {og s : State} (h : Kept m og s) (hm : 0x23008 &&& m = 0x23008) : ∀ a2 a3, Kept m og (arcMerge s a2 a3) := by
  intro a2 a3
  unfold arcMerge
  repeat' first
    | (with_reducible first | assumption | exact mask_sub hm rfl | apply setMiss_kept | apply count_kept)
    | intro _
    | dsimp only
    | split

theorem arcTakeReg_kept {m : Nat} {og s : State} (h : Kept m og s) (hm : 0x23008 &&& m = 0x23008) : ∀ a2, Kept m og (arcTakeReg s a2) := by
  intro a2
  unfold arcTakeReg
  extract_lets +onlyGivenNames b
  try clear_value b
  repeat' first
    | (with_reducible first | assumption | exact mask_sub hm rfl | apply setMiss_kept | apply countIf_kept)
    | intro _
    | dsimp only

theorem arcServeHit_kept {m : Nat} {og s : State} (h : Kept m og s) (hm : 0x23000 &&& m = 0x23000) : ∀ a2 a3 a4, Kept m og (arcServeHit s a2 a3 a4) := by
  intro a2 a3 a4
  unfold arcServeHit
  extract_lets +onlyGivenNames s1
  have k_s1 : Kept m og s1 := by
    dsimp only [s1]
    repeat' first
      | (with_reducible first | assumption | exact mask_sub hm rfl | apply arcTouch_kept | apply count_kept | apply setArcLines_kept)
      | intro _
      | dsimp only
      | split
  clear_value s1
  repeat' first
    | (with_reducible first | assumption | exact mask_sub hm rfl | apply arcTouch_kept | apply count_kept | apply setArcLines_kept)
    | intro _
    | dsimp only
    | split

theorem arcAnswer_kept {m : Nat} {og s : State} (h : Kept m og s) (hm : 0x80 &&& m = 0x80) : ∀ a2 a3 a4, Kept m og (arcAnswer s a2 a3 a4) := by
  intro a2 a3 a4
  unfold arcAnswer
  repeat' first
    | (with_reducible first | assumption | exact mask_sub hm rfl | apply reply_kept)
    | intro _
    | dsimp only
    | split

theorem arcPrimary_kept {m : Nat} {og s : State} (h : Kept m og s) (hm : 0x800000000000e3008 &&& m = 0x800000000000e3008) : ∀ a2, Kept m og (arcPrimary s a2) := by
  intro a2
  unfold arcPrimary
  repeat' first
    | (with_reducible first | assumption | exact mask_sub hm rfl | apply arcTakeReg_kept | apply arcAccept_kept | apply arcWait_kept)
    | intro _
    | dsimp only
    | split

theorem arcHit_kept {m : Nat} {og s : State} (h : Kept m og s) (hm : 0x800000000047e30e8 &&& m = 0x800000000047e30e8) : ∀ a2 a3 a4, Kept m og (arcHit s a2 a3 a4) := by
  intro a2 a3 a4
  unfold arcHit
  repeat' first
    | (with_reducible first | assumption | exact mask_sub hm rfl | apply arcSound_kept | refine arcSound_keq (by assumption) ?_ ?_ | apply arcAnswer_kept | apply arcServeHit_kept | apply arcAccept_kept | apply arcPrimary_kept | apply reply_kept | apply dramWrite_kept)
    | intro _
    | dsimp only
    | split

theorem arcFlip_kept {m : Nat} {og s : State} (h : Kept m og s) (hm : 0x20000 &&& m = 0x20000) : ∀ a2 a3, Kept m og (arcFlip s a2 a3) := by
  intro a2 a3
  unfold arcFlip
  repeat' first
    | (with_reducible first | assumption | exact mask_sub hm rfl | apply setArcLines_kept)
    | intro _
    | dsimp only
    | split

theorem arcRequest_kept {m : Nat} {og s : State} (h : Kept m og s) (hm : 0x800000000047e30e8 &&& m = 0x800000000047e30e8) : ∀ a2, Kept m og (arcRequest s a2) := by
  intro a2
  unfold arcRequest
  repeat' first
    | (with_reducible first | assumption | exact mask_sub hm rfl | apply replyError_kept | apply arcMerge_kept | apply arcAccept_kept | apply arcWait_kept | apply arcHit_kept | apply arcPrimary_kept)
    | intro _
    | dsimp only
    | split

theorem arcRetry_kept {m : Nat} {og s : State} (h : Kept m og s) (hm : 0x800000000047e30e8 &&& m = 0x800000000047e30e8) : ∀ a2, Kept m og (arcRetry s a2) := by
  intro a2
  unfold arcRetry
  repeat' first
    | (with_reducible first | assumption | exact mask_sub hm rfl | apply arcRequest_kept | apply setArcWaiting_kept)
    | intro _
    | dsimp only
    | (with_reducible first | apply foldl_kept | apply foldlFst_kept)

theorem arcLandRetry_kept {m : Nat} {og s : State} (h : Kept m og s) (hm : 0x800000000047e30e8 &&& m = 0x800000000047e30e8) : ∀ a2 a3, Kept m og (arcLandRetry s a2 a3) := by
  intro a2 a3
  unfold arcLandRetry
  repeat' first
    | (with_reducible first | assumption | exact mask_sub hm rfl | apply arcRetry_kept | apply arcLand_kept)
    | intro _
    | dsimp only

theorem arcRoom_kept {m : Nat} {og s : State} (h : Kept m og s) (hm : 0x800000000047e30e8 &&& m = 0x800000000047e30e8) : ∀ a1 a3, Kept m og (arcRoom a1 s a3) := by
  intro a1
  induction a1 generalizing s with
  | zero =>
    intros
    unfold arcRoom
    repeat' first
      | (with_reducible first | assumption | exact mask_sub hm rfl | apply ih | apply arcLandRetry_kept | apply fset_kept)
      | intro _
      | dsimp only
      | split
  | succ n ih =>
    intros
    unfold arcRoom
    repeat' first
      | (with_reducible first | assumption | exact mask_sub hm rfl | apply ih | apply arcLandRetry_kept | apply fset_kept)
      | intro _
      | dsimp only
      | split

theorem arcJoin_kept {m : Nat} {og s : State} (h : Kept m og s) (hm : 0x800000000047e30e8 &&& m = 0x800000000047e30e8) : ∀ a2, Kept m og (arcJoin s a2) := by
  intro a2
  unfold arcJoin
  repeat' first
    | (with_reducible first | assumption | exact mask_sub hm rfl | apply arcLandRetry_kept | apply fset_kept)
    | intro _
    | dsimp only
    | split

theorem arcFinish_kept {m : Nat} {og s : State} (h : Kept m og s) (hm : 0x800000000047e30e8 &&& m = 0x800000000047e30e8) : ∀ a2, Kept m og (arcFinish s a2).1 := by
  intro a2
  unfold arcFinish
  repeat' first
    | (with_reducible first | assumption | exact mask_sub hm rfl | apply arcLand_kept | apply arcRetry_kept)
    | intro _
    | dsimp only
    | split

theorem arcFinish_keq {m : Nat} {og s t : State} {r} {a2} (e : arcFinish s a2 = (t, r)) (h : Kept m og s) (hm : 0x800000000047e30e8 &&& m = 0x800000000047e30e8) : Kept m og t := by
  have k := arcFinish_kept h hm a2
  rw [e] at k
  exact k

theorem arcMiss_kept {m : Nat} {og s : State} (h : Kept m og s) (hm : 0x800000000047e30e8 &&& m = 0x800000000047e30e8) : ∀ a2, Kept m og (arcMiss s a2).1 := by
  intro a2
  unfold arcMiss
  extract_lets +onlyGivenNames b
  try clear_value b
  repeat' first
    | (with_reducible first | assumption | exact mask_sub hm rfl | apply arcFinish_kept | refine arcFinish_keq (by assumption) ?_ ?_ | apply arcTakeReg_kept | apply arcRoom_kept)
    | intro _
    | dsimp only

theorem arcMiss_keq {m : Nat} {og s t : State} {r} {a2} (e : arcMiss s a2 = (t, r)) (h : Kept m og s) (hm : 0x800000000047e30e8 &&& m = 0x800000000047e30e8) : Kept m og t := by
  have k := arcMiss_kept h hm a2
  rw [e] at k
  exact k

theorem arcDo_kept {m : Nat} {og s : State} (h : Kept m og s) (hm : 0x800000000047e30e8 &&& m = 0x800000000047e30e8) : ∀ a2, Kept m og (arcDo s a2).1 := by
  intro a2
  unfold arcDo
  extract_lets +onlyGivenNames s
  have k_s : Kept m og s := by
    dsimp only [s]
    repeat' first
      | (with_reducible first | assumption | exact mask_sub hm rfl | apply arcJoin_kept | apply arcFinish_kept | refine arcFinish_keq (by assumption) ?_ ?_ | apply arcMerge_kept | apply arcMiss_kept | refine arcMiss_keq (by assumption) ?_ ?_ | apply arcSound_kept | refine arcSound_keq (by assumption) ?_ ?_ | apply arcServeHit_kept | apply dramWrite_kept)
      | intro _
      | dsimp only
      | split
  clear_value s
  repeat' first
    | (with_reducible first | assumption | exact mask_sub hm rfl | apply arcJoin_kept | apply arcFinish_kept | refine arcFinish_keq (by assumption) ?_ ?_ | apply arcMerge_kept | apply arcMiss_kept | refine arcMiss_keq (by assumption) ?_ ?_ | apply arcSound_kept | refine arcSound_keq (by assumption) ?_ ?_ | apply arcServeHit_kept | apply dramWrite_kept)
    | intro _
    | dsimp only
    | split

theorem arcDo_keq {m : Nat} {og s t : State} {r} {a2} (e : arcDo s a2 = (t, r)) (h : Kept m og s) (hm : 0x800000000047e30e8 &&& m = 0x800000000047e30e8) : Kept m og t := by
  have k := arcDo_kept h hm a2
  rw [e] at k
  exact k

theorem arcReadLine_kept {m : Nat} {og s : State} (h : Kept m og s) (hm : 0x800000000047e30e8 &&& m = 0x800000000047e30e8) : ∀ a2 a3, Kept m og (arcReadLine s a2 a3).1 := by
  intro a2 a3
  unfold arcReadLine
  repeat' first
    | (with_reducible first | assumption | exact mask_sub hm rfl | apply arcDo_kept | refine arcDo_keq (by assumption) ?_ ?_)
    | intro _
    | dsimp only

theorem arcReadLine_keq {m : Nat} {og s t : State} {r} {a2 a3} (e : arcReadLine s a2 a3 = (t, r)) (h : Kept m og s) (hm : 0x800000000047e30e8 &&& m = 0x800000000047e30e8) : Kept m og t := by
  have k := arcReadLine_kept h hm a2 a3
  rw [e] at k
  exact k

theorem arcWriteLine_kept {m : Nat} {og s : State} (h : Kept m og s) (hm : 0x800000000047e30e8 &&& m = 0x800000000047e30e8) : ∀ a2 a3 a4, Kept m og (arcWriteLine s a2 a3 a4) := by
  intro a2 a3 a4
  unfold arcWriteLine
  repeat' first
    | (with_reducible first | assumption | exact mask_sub hm rfl | apply arcDo_kept | refine arcDo_keq (by assumption) ?_ ?_)
    | intro _
    | dsimp only

end Machine
end Sys2Proof
end

