-- ==== Sys2Proof/Laws/KeptMem.lean ====
section
/-! SUPPORT. What the operations of Machine/Mem.lean keep (Laws/Keeps.lean). -/

namespace Sys2Proof
namespace Machine

theorem tcmMend_kept {m : Nat} {og s : State} (h : Kept m og s) (hm : 0x1000020 &&& m = 0x1000020) : ∀ a2 a3 a4, Kept m og (tcmMend s a2 a3 a4) := by
  intro a2 a3 a4
  unfold tcmMend
  repeat' first
    | (with_reducible first | assumption | exact mask_sub hm rfl)
    | intro _
    | dsimp only
    | exact Memory.wf_writeBytes _ _ (by assumption)
    | exact Memory.wf_filter _ (by assumption)
    | exact (rfl : Memory.wf [] = true)
    | split
    | (with_reducible first | apply kept_mem_tcmErr)

theorem tcmWrite_kept {m : Nat} {og s : State} (h : Kept m og s) (hm : 0x1000020 &&& m = 0x1000020) : ∀ a2 a3, Kept m og (tcmWrite s a2 a3) := by
  intro a2 a3
  unfold tcmWrite
  extract_lets +onlyGivenNames s1
  have k_s1 : Kept m og s1 := by
    dsimp only [s1]
    repeat' first
      | (with_reducible first | assumption | exact mask_sub hm rfl | apply tcmMend_kept)
      | intro _
      | dsimp only
      | exact Memory.wf_writeBytes _ _ (by assumption)
      | exact Memory.wf_filter _ (by assumption)
      | exact (rfl : Memory.wf [] = true)
      | (with_reducible first | apply foldl_kept | apply foldlFst_kept)
      | (with_reducible first | apply kept_mem)
  clear_value s1
  repeat' first
    | (with_reducible first | assumption | exact mask_sub hm rfl | apply tcmMend_kept)
    | intro _
    | dsimp only
    | exact Memory.wf_writeBytes _ _ (by assumption)
    | exact Memory.wf_filter _ (by assumption)
    | exact (rfl : Memory.wf [] = true)
    | (with_reducible first | apply foldl_kept | apply foldlFst_kept)
    | (with_reducible first | apply kept_mem)

theorem memRead_kept {m : Nat} {og s : State} (h : Kept m og s) (hm : 0x800000000047e30e8 &&& m = 0x800000000047e30e8) : ∀ a2 a3 a4, Kept m og (memRead s a2 a3 a4).1 := by
  intro a2 a3 a4
  unfold memRead
  repeat' first
    | (with_reducible first | assumption | exact mask_sub hm rfl | apply forEach_kept | apply sramNote_kept | apply arcReadLine_kept | refine arcReadLine_keq (by assumption) ?_ ?_)
    | intro _
    | dsimp only
    | (with_reducible first | apply foldl_kept | apply foldlFst_kept)
    | split

theorem memRead_keq {m : Nat} {og s t : State} {r} {a2 a3 a4} (e : memRead s a2 a3 a4 = (t, r)) (h : Kept m og s) (hm : 0x800000000047e30e8 &&& m = 0x800000000047e30e8) : Kept m og t := by
  have k := memRead_kept h hm a2 a3 a4
  rw [e] at k
  exact k

theorem memWrite_keq {m : Nat} {og s t : State} {cls a : Nat} {new : List Byte} (e : memWrite s cls a new = some t)
    (h : Kept m og s) (hm : 0x800000000057e30e8 &&& m = 0x800000000057e30e8) : Kept m og t := by
  unfold memWrite at e
  split at e
  · cases e
    exact h
  split at e
  · cases e
  split at e
  · cases e
    exact tcmWrite_kept (resvDrop_kept h (mask_sub hm rfl) _ _) (mask_sub hm rfl) _ _
  · cases e
    exact foldlFst_kept (s := (_, _)) (resvDrop_kept h (mask_sub hm rfl) _ _) _ _
      (fun _ _ k => arcWriteLine_kept k (mask_sub hm rfl) _ _ _)
  · cases e

theorem memWriteD_kept {m : Nat} {og s : State} (h : Kept m og s) (hm : 0x800000000057e30e8 &&& m = 0x800000000057e30e8) : ∀ a2 a3 a4, Kept m og (memWriteD s a2 a3 a4) := by
  intro a2 a3 a4
  unfold memWriteD
  repeat' first
    | (with_reducible first | assumption | exact mask_sub hm rfl | refine memWrite_keq (by assumption) ?_ ?_)
    | intro _
    | dsimp only
    | (with_reducible first | apply getD_kept)

end Machine
end Sys2Proof
end

