-- ==== Sys2Proof/Laws/KeptFifo.lean ====
section
/-! SUPPORT. What the operations of Machine/Fifo.lean keep (Laws/Keeps.lean). -/

namespace Sys2Proof
namespace Machine

theorem modFifo_kept {m : Nat} {og s : State} (h : Kept m og s) (hm : 0x8000000 &&& m = 0x8000000) : ∀ a2 a3, Kept m og (modFifo s a2 a3) := by
  intro a2 a3
  unfold modFifo
  repeat' first
    | (with_reducible first | assumption | exact mask_sub hm rfl)
    | intro _
    | dsimp only
    | (with_reducible first | apply kept_fifo)

theorem fifoShow_kept {m : Nat} {og s : State} (h : Kept m og s) (hm : 0x8 &&& m = 0x8) : ∀ a2 a3, Kept m og (fifoShow s a2 a3) := by
  intro a2 a3
  unfold fifoShow
  repeat' first
    | (with_reducible first | assumption | exact mask_sub hm rfl | apply fputB_kept | apply fput_kept)
    | intro _
    | dsimp only

theorem fifoWait_kept {m : Nat} {og s : State} (h : Kept m og s) (hm : 0x8000008 &&& m = 0x8000008) : ∀ a2 a3, Kept m og (fifoWait s a2 a3) := by
  intro a2 a3
  unfold fifoWait
  extract_lets +onlyGivenNames s1
  have k_s1 : Kept m og s1 := by
    dsimp only [s1]
    repeat' first
      | (with_reducible first | assumption | exact mask_sub hm rfl | apply fset_kept | apply modFifo_kept)
      | intro _
      | dsimp only
      | split
  clear_value s1
  repeat' first
    | (with_reducible first | assumption | exact mask_sub hm rfl | apply fset_kept | apply modFifo_kept)
    | intro _
    | dsimp only
    | split

theorem fifoHold_kept {m : Nat} {og s : State} (h : Kept m og s) (hm : 0x8000008 &&& m = 0x8000008) : ∀ a2 a3, Kept m og (fifoHold s a2 a3) := by
  intro a2 a3
  unfold fifoHold
  repeat' first
    | (with_reducible first | assumption | exact mask_sub hm rfl | apply fset_kept | apply fifoShow_kept | apply modFifo_kept)
    | intro _
    | dsimp only

theorem fifoRingError_kept {m : Nat} {og s : State} (h : Kept m og s) (hm : 0x8000008 &&& m = 0x8000008) : ∀ a2 a3, Kept m og (fifoRingError s a2 a3) := by
  intro a2 a3
  unfold fifoRingError
  repeat' first
    | (with_reducible first | assumption | exact mask_sub hm rfl | apply fset_kept | apply fifoHold_kept | apply fifoWait_kept)
    | intro _
    | dsimp only
    | split

theorem fifoPush_kept {m : Nat} {og s : State} (h : Kept m og s) (hm : 0x8000000000d7e30e8 &&& m = 0x8000000000d7e30e8) : ∀ a2 a3, Kept m og (fifoPush s a2 a3) := by
  intro a2 a3
  unfold fifoPush
  repeat' first
    | (with_reducible first | assumption | exact mask_sub hm rfl | apply fset_kept | apply fifoWait_kept | apply fifoHold_kept | refine memWrite_keq (by assumption) ?_ ?_ | apply fifoShow_kept | apply modFifo_kept | apply fifoRingError_kept)
    | intro _
    | dsimp only
    | split

theorem fifoRelease_kept {m : Nat} {og s : State} (h : Kept m og s) (hm : 0x8000000000d7e30e8 &&& m = 0x8000000000d7e30e8) : ∀ a2, Kept m og (fifoRelease s a2) := by
  intro a2
  unfold fifoRelease
  repeat' first
    | (with_reducible first | assumption | exact mask_sub hm rfl | apply fifoPush_kept | apply modFifo_kept)
    | intro _
    | dsimp only
    | split

theorem fifoShowRecord_kept {m : Nat} {og s : State} (h : Kept m og s) (hm : 0x8 &&& m = 0x8) : ∀ a2 a3, Kept m og (fifoShowRecord s a2 a3) := by
  intro a2 a3
  unfold fifoShowRecord
  repeat' first
    | (with_reducible first | assumption | exact mask_sub hm rfl | apply forEach_kept | apply wr_kept)
    | intro _
    | dsimp only

theorem fifoPop_kept {m : Nat} {og s : State} (h : Kept m og s) (hm : 0x8000000000d7f30e8 &&& m = 0x8000000000d7f30e8) : ∀ a2 a3, Kept m og (fifoPop s a2 a3).1 := by
  intro a2 a3
  unfold fifoPop
  repeat' first
    | (with_reducible first | assumption | exact mask_sub hm rfl | apply fset_kept | apply modFifo_kept | apply memRead_kept | refine memRead_keq (by assumption) ?_ ?_ | apply tickFrees_kept | apply fifoShow_kept | apply fifoShowRecord_kept | apply sif_kept | apply fifoRelease_kept)
    | intro _
    | dsimp only
    | split

theorem fifoPop_keq {m : Nat} {og s t : State} {r} {a2 a3} (e : fifoPop s a2 a3 = (t, r)) (h : Kept m og s) (hm : 0x8000000000d7f30e8 &&& m = 0x8000000000d7f30e8) : Kept m og t := by
  have k := fifoPop_kept h hm a2 a3
  rw [e] at k
  exact k

theorem fifoPopEff_kept {m : Nat} {og s : State} (h : Kept m og s) (hm : 0x8000000000d7f30e8 &&& m = 0x8000000000d7f30e8) : ∀ a2 a3, Kept m og (fifoPopEff s a2 a3) := by
  intro a2 a3
  unfold fifoPopEff
  repeat' first
    | (with_reducible first | assumption | exact mask_sub hm rfl | apply fifoPop_kept | refine fifoPop_keq (by assumption) ?_ ?_ | apply reply_kept)
    | intro _
    | dsimp only
    | split
    | dsimp only [id]

theorem execFifoPop_kept {s t : State} {a1 a2} (e : execFifoPop a1 a2 s = .next t) : Kept 0x8000000000d7f30e8 s t := by
  have h := Kept.same 0x8000000000d7f30e8 s
  have hm := Nat.and_self 0x8000000000d7f30e8
  refine next_kept e ?_
  repeat' first
    | (with_reducible first | assumption | exact mask_sub hm rfl | apply fifoPopEff_kept)
    | intro _
    | dsimp only

theorem fifoConfigWrite_kept {m : Nat} {og s : State} (h : Kept m og s) (hm : 0x88 &&& m = 0x88) : ∀ a2 a3 a4, Kept m og (fifoConfigWrite s a2 a3 a4) := by
  intro a2 a3 a4
  unfold fifoConfigWrite
  repeat' first
    | (with_reducible first | assumption | exact mask_sub hm rfl | apply reply_kept | apply wr_kept | apply fset_kept)
    | intro _
    | dsimp only
    | split

theorem execFifoConfigWrite_kept {s t : State} {a1 a2 a3 a4} (e : execFifoConfigWrite a1 a2 a3 a4 s = .next t) : Kept 0x88 s t := by
  have h := Kept.same 0x88 s
  have hm := Nat.and_self 0x88
  refine next_kept e ?_
  repeat' first
    | (with_reducible first | assumption | exact mask_sub hm rfl | apply fifoConfigWrite_kept)
    | intro _
    | dsimp only

theorem execFifoRecordPush_kept {s t : State} {a1 a2} (e : execFifoRecordPush a1 a2 s = .next t) : Kept 0x8000000000d7e30e8 s t := by
  have h := Kept.same 0x8000000000d7e30e8 s
  have hm := Nat.and_self 0x8000000000d7e30e8
  refine next_kept e ?_
  repeat' first
    | (with_reducible first | assumption | exact mask_sub hm rfl | apply fifoPush_kept)
    | intro _
    | dsimp only

theorem execRingWriteError_kept {s t : State} {a1 a2} (e : execRingWriteError a1 a2 s = .next t) : Kept 0x8000008 s t := by
  have h := Kept.same 0x8000008 s
  have hm := Nat.and_self 0x8000008
  refine next_kept e ?_
  repeat' first
    | (with_reducible first | assumption | exact mask_sub hm rfl | apply fifoRingError_kept)
    | intro _
    | dsimp only

end Machine
end Sys2Proof
end

