-- ==== Sys2Proof/Laws/KeptHostLink.lean ====
section
/-! SUPPORT. What the operations of Machine/HostLink.lean keep (Laws/Keeps.lean). -/

namespace Sys2Proof
namespace Machine

theorem countStatus_kept {m : Nat} {og s : State} (h : Kept m og s) (hm : 0x3000 &&& m = 0x3000) : ∀ a2, Kept m og (countStatus s a2) := by
  intro a2
  unfold countStatus
  repeat' first
    | (with_reducible first | assumption | exact mask_sub hm rfl | apply countIf_kept)
    | intro _
    | dsimp only

theorem modHost_kept {m : Nat} {og s : State} (h : Kept m og s) (hm : 0x400000000000000 &&& m = 0x400000000000000) : ∀ a2, Kept m og (modHost s a2) := by
  intro a2
  unfold modHost
  repeat' first
    | (with_reducible first | assumption | exact mask_sub hm rfl)
    | intro _
    | dsimp only
    | (with_reducible first | apply kept_host)

theorem hostSend_kept {m : Nat} {og s : State} (h : Kept m og s) (hm : 0x400000000000000 &&& m = 0x400000000000000) : ∀ a2, Kept m og (hostSend s a2) := by
  intro a2
  unfold hostSend
  repeat' first
    | (with_reducible first | assumption | exact mask_sub hm rfl | apply modHost_kept)
    | intro _
    | dsimp only

theorem qpMod_kept {m : Nat} {og s : State} (h : Kept m og s) (hm : 0x400000000000000 &&& m = 0x400000000000000) : ∀ a2 a3 a4, Kept m og (qpMod s a2 a3 a4) := by
  intro a2 a3 a4
  unfold qpMod
  repeat' first
    | (with_reducible first | assumption | exact mask_sub hm rfl | apply modHost_kept)
    | intro _
    | dsimp only
    | split

theorem ctxMod_kept {m : Nat} {og s : State} (h : Kept m og s) (hm : 0x400000000000000 &&& m = 0x400000000000000) : ∀ a2 a3, Kept m og (ctxMod s a2 a3) := by
  intro a2 a3
  unfold ctxMod
  repeat' first
    | (with_reducible first | assumption | exact mask_sub hm rfl | apply modHost_kept)
    | intro _
    | dsimp only
    | split

theorem ingressShow_kept {m : Nat} {og s : State} (h : Kept m og s) (hm : 0x400000000000000 &&& m = 0x400000000000000) : Kept m og (ingressShow s) := by
  unfold ingressShow
  repeat' first
    | (with_reducible first | assumption | exact mask_sub hm rfl | apply modHost_kept)
    | intro _
    | dsimp only

theorem ctxShow_kept {m : Nat} {og s : State} (h : Kept m og s) (hm : 0x400000000000008 &&& m = 0x400000000000008) : Kept m og (ctxShow s) := by
  unfold ctxShow
  repeat' first
    | (with_reducible first | assumption | exact mask_sub hm rfl | apply fput_kept | apply ingressShow_kept)
    | intro _
    | dsimp only

theorem putLink_kept {m : Nat} {og s : State} (h : Kept m og s) (hm : 0x8 &&& m = 0x8) : ∀ a2 a3 a4 a5, Kept m og (putLink s a2 a3 a4 a5) := by
  intro a2 a3 a4 a5
  unfold putLink
  repeat' first
    | (with_reducible first | assumption | exact mask_sub hm rfl | apply fputB_kept | apply fput_kept)
    | intro _
    | dsimp only
    | split

theorem showReady_kept {m : Nat} {og s : State} (h : Kept m og s) (hm : 0x8 &&& m = 0x8) : Kept m og (showReady s) := by
  unfold showReady
  repeat' first
    | (with_reducible first | assumption | exact mask_sub hm rfl | apply forEach_kept | apply fputB_kept)
    | intro _
    | dsimp only
    | split

theorem msixSend_kept {m : Nat} {og s : State} (h : Kept m og s) (hm : 0x400000000000000 &&& m = 0x400000000000000) : ∀ a2 a3, Kept m og (msixSend s a2 a3) := by
  intro a2 a3
  unfold msixSend
  repeat' first
    | (with_reducible first | assumption | exact mask_sub hm rfl | apply modHost_kept | apply hostSend_kept)
    | intro _
    | dsimp only
    | split

theorem msixWrite_kept {m : Nat} {og s : State} (h : Kept m og s) (hm : 0x400000000000000 &&& m = 0x400000000000000) : ∀ a2 a3 a4, Kept m og (msixWrite s a2 a3 a4) := by
  intro a2 a3 a4
  unfold msixWrite
  extract_lets +onlyGivenNames s1
  have k_s1 : Kept m og s1 := by
    dsimp only [s1]
    repeat' first
      | (with_reducible first | assumption | exact mask_sub hm rfl | apply modHost_kept | apply hostSend_kept)
      | intro _
      | dsimp only
      | split
  clear_value s1
  repeat' first
    | (with_reducible first | assumption | exact mask_sub hm rfl | apply modHost_kept | apply hostSend_kept)
    | intro _
    | dsimp only
    | split

theorem cplPost_kept {m : Nat} {og s : State} (h : Kept m og s) (hm : 0x400000000000008 &&& m = 0x400000000000008) : ∀ a2 a3 a4 a5, Kept m og (cplPost s a2 a3 a4 a5) := by
  intro a2 a3 a4 a5
  unfold cplPost
  extract_lets +onlyGivenNames s1 wrap s2 s3
  have k_s1 : Kept m og s1 := by
    dsimp only [s1]
    repeat' first
      | (with_reducible first | assumption | exact mask_sub hm rfl | apply hostSend_kept | apply qpMod_kept | apply ctxShow_kept | apply modHost_kept | apply msixSend_kept)
      | intro _
      | dsimp only
      | (with_reducible first | apply getD_kept)
      | split
  clear_value s1
  try clear_value wrap
  have k_s2 : Kept m og s2 := by
    dsimp only [s2]
    repeat' first
      | (with_reducible first | assumption | exact mask_sub hm rfl | apply hostSend_kept | apply qpMod_kept | apply ctxShow_kept | apply modHost_kept | apply msixSend_kept)
      | intro _
      | dsimp only
      | (with_reducible first | apply getD_kept)
      | split
  clear_value s2
  have k_s3 : Kept m og s3 := by
    dsimp only [s3]
    repeat' first
      | (with_reducible first | assumption | exact mask_sub hm rfl | apply hostSend_kept | apply qpMod_kept | apply ctxShow_kept | apply modHost_kept | apply msixSend_kept)
      | intro _
      | dsimp only
      | (with_reducible first | apply getD_kept)
      | split
  clear_value s3
  repeat' first
    | (with_reducible first | assumption | exact mask_sub hm rfl | apply hostSend_kept | apply qpMod_kept | apply ctxShow_kept | apply modHost_kept | apply msixSend_kept)
    | intro _
    | dsimp only
    | (with_reducible first | apply getD_kept)
    | split

theorem cplHold_kept {m : Nat} {og s : State} (h : Kept m og s) (hm : 0x400000000003000 &&& m = 0x400000000003000) : ∀ a2 a3 a4, Kept m og (cplHold s a2 a3 a4) := by
  intro a2 a3 a4
  unfold cplHold
  repeat' first
    | (with_reducible first | assumption | exact mask_sub hm rfl | apply qpMod_kept | apply ctxMod_kept | apply countStatus_kept)
    | intro _
    | dsimp only
    | split

theorem qpDelete_kept {m : Nat} {og s : State} (h : Kept m og s) (hm : 0x400000000000000 &&& m = 0x400000000000000) : ∀ a2 a3, Kept m og (qpDelete s a2 a3) := by
  intro a2 a3
  unfold qpDelete
  repeat' first
    | (with_reducible first | assumption | exact mask_sub hm rfl | apply modHost_kept)
    | intro _
    | dsimp only

theorem hostSettle_kept {m : Nat} {og s : State} (h : Kept m og s) (hm : 0x400000000003008 &&& m = 0x400000000003008) : ∀ a1, Kept m og (hostSettle a1 s) := by
  intro a1
  induction a1 generalizing s with
  | zero =>
    intros
    unfold hostSettle
    repeat' first
      | (with_reducible first | assumption | exact mask_sub hm rfl | apply ih | apply cplPost_kept | apply cplHold_kept | apply ctxMod_kept | apply qpDelete_kept)
      | intro _
      | dsimp only
      | (with_reducible first | apply getD_kept)
      | split
  | succ n ih =>
    intros
    unfold hostSettle
    repeat' first
      | (with_reducible first | assumption | exact mask_sub hm rfl | apply ih | apply cplPost_kept | apply cplHold_kept | apply ctxMod_kept | apply qpDelete_kept)
      | intro _
      | dsimp only
      | (with_reducible first | apply getD_kept)
      | split

theorem hostRun_kept {m : Nat} {og s : State} (h : Kept m og s) (hm : 0x400000000003008 &&& m = 0x400000000003008) : Kept m og (hostRun s) := by
  unfold hostRun
  repeat' first
    | (with_reducible first | assumption | exact mask_sub hm rfl | apply hostSettle_kept)
    | intro _
    | dsimp only

theorem hostComplete_kept {m : Nat} {og s : State} (h : Kept m og s) (hm : 0x400000000003008 &&& m = 0x400000000003008) : ∀ a2 a3 a4, Kept m og (hostComplete s a2 a3 a4) := by
  intro a2 a3 a4
  unfold hostComplete
  repeat' first
    | (with_reducible first | assumption | exact mask_sub hm rfl | apply hostRun_kept | apply cplHold_kept)
    | intro _
    | dsimp only

theorem ctxResult_kept {m : Nat} {og s : State} (h : Kept m og s) (hm : 0x800000000047f30e8 &&& m = 0x800000000047f30e8) : ∀ a2, Kept m og (ctxResult s a2).1 := by
  intro a2
  unfold ctxResult
  repeat' first
    | (with_reducible first | assumption | exact mask_sub hm rfl | apply memRead_kept | refine memRead_keq (by assumption) ?_ ?_ | apply tickFrees_kept)
    | intro _
    | dsimp only
    | split

theorem ctxResult_keq {m : Nat} {og s t : State} {r} {a2} (e : ctxResult s a2 = (t, r)) (h : Kept m og s) (hm : 0x800000000047f30e8 &&& m = 0x800000000047f30e8) : Kept m og t := by
  have k := ctxResult_kept h hm a2
  rw [e] at k
  exact k

theorem hostCpl_kept {m : Nat} {og s : State} (h : Kept m og s) (hm : 0x804000000047f30e8 &&& m = 0x804000000047f30e8) : ∀ a2 a3, Kept m og (hostCpl s a2 a3) := by
  intro a2 a3
  unfold hostCpl
  repeat' first
    | (with_reducible first | assumption | exact mask_sub hm rfl | apply fset_kept | apply ctxResult_kept | refine ctxResult_keq (by assumption) ?_ ?_ | apply hostComplete_kept)
    | intro _
    | dsimp only
    | split

theorem execHostCpl_kept {s t : State} {a1 a2 a3} (e : execHostCpl a1 a2 a3 s = .next t) : Kept 0x804000000047f30e8 s t := by
  have h := Kept.same 0x804000000047f30e8 s
  have hm := Nat.and_self 0x804000000047f30e8
  refine next_kept e ?_
  repeat' first
    | (with_reducible first | assumption | exact mask_sub hm rfl | apply reply_kept | apply hostCpl_kept)
    | intro _
    | dsimp only

theorem coalesceExpire_kept {m : Nat} {og s : State} (h : Kept m og s) (hm : 0x400000000000000 &&& m = 0x400000000000000) : ∀ a2 a3, Kept m og (coalesceExpire s a2 a3) := by
  intro a2 a3
  unfold coalesceExpire
  repeat' first
    | (with_reducible first | assumption | exact mask_sub hm rfl | apply msixSend_kept | apply qpMod_kept)
    | intro _
    | dsimp only
    | split

theorem execMsixCoalesceExpire_kept {s t : State} {a1 a2} (e : execMsixCoalesceExpire a1 a2 s = .next t) : Kept 0x400000000000000 s t := by
  have h := Kept.same 0x400000000000000 s
  have hm := Nat.and_self 0x400000000000000
  refine next_kept e ?_
  repeat' first
    | (with_reducible first | assumption | exact mask_sub hm rfl | apply coalesceExpire_kept)
    | intro _
    | dsimp only

theorem eventLog_kept {m : Nat} {og s : State} (h : Kept m og s) (hm : 0x400000000003008 &&& m = 0x400000000003008) : ∀ a2 a3, Kept m og (eventLog s a2 a3) := by
  intro a2 a3
  unfold eventLog
  extract_lets +onlyGivenNames s1
  have k_s1 : Kept m og s1 := by
    dsimp only [s1]
    repeat' first
      | (with_reducible first | assumption | exact mask_sub hm rfl | apply modHost_kept | apply forEach_kept | apply hostComplete_kept)
      | intro _
      | dsimp only
  clear_value s1
  repeat' first
    | (with_reducible first | assumption | exact mask_sub hm rfl | apply modHost_kept | apply forEach_kept | apply hostComplete_kept)
    | intro _
    | dsimp only

theorem execEventLogged_kept {s t : State} {a1 a2} (e : execEventLogged a1 a2 s = .next t) : Kept 0x400000000003008 s t := by
  have h := Kept.same 0x400000000003008 s
  have hm := Nat.and_self 0x400000000003008
  refine next_kept e ?_
  repeat' first
    | (with_reducible first | assumption | exact mask_sub hm rfl | apply eventLog_kept)
    | intro _
    | dsimp only

theorem doorbellBad_kept {m : Nat} {og s : State} (h : Kept m og s) (hm : 0x400000000013008 &&& m = 0x400000000013008) : Kept m og (doorbellBad s) := by
  unfold doorbellBad
  repeat' first
    | (with_reducible first | assumption | exact mask_sub hm rfl | apply eventLog_kept | apply fset_kept | apply tickFree_kept)
    | intro _
    | dsimp only

theorem qpError_kept {m : Nat} {og s : State} (h : Kept m og s) (hm : 0x400000000000008 &&& m = 0x400000000000008) : ∀ a2 a3, Kept m og (qpError s a2 a3) := by
  intro a2 a3
  unfold qpError
  repeat' first
    | (with_reducible first | assumption | exact mask_sub hm rfl | apply fset_kept | apply qpMod_kept)
    | intro _
    | dsimp only

theorem tailDoorbell_kept {m : Nat} {og s : State} (h : Kept m og s) (hm : 0x400000000013008 &&& m = 0x400000000013008) : ∀ a2 a3 a4, Kept m og (tailDoorbell s a2 a3 a4) := by
  intro a2 a3 a4
  unfold tailDoorbell
  extract_lets +onlyGivenNames s1
  have k_s1 : Kept m og s1 := by
    dsimp only [s1]
    repeat' first
      | (with_reducible first | assumption | exact mask_sub hm rfl | apply count_kept | apply doorbellBad_kept | apply qpMod_kept | apply qpError_kept)
      | intro _
      | dsimp only
      | split
  clear_value s1
  repeat' first
    | (with_reducible first | assumption | exact mask_sub hm rfl | apply count_kept | apply doorbellBad_kept | apply qpMod_kept | apply qpError_kept)
    | intro _
    | dsimp only
    | split

theorem execSqTailDoorbell_kept {s t : State} {a1 a2 a3} (e : execSqTailDoorbell a1 a2 a3 s = .next t) : Kept 0x400000000013008 s t := by
  have h := Kept.same 0x400000000013008 s
  have hm := Nat.and_self 0x400000000013008
  refine next_kept e ?_
  repeat' first
    | (with_reducible first | assumption | exact mask_sub hm rfl | apply tailDoorbell_kept)
    | intro _
    | dsimp only
    | split

theorem headDoorbell_kept {m : Nat} {og s : State} (h : Kept m og s) (hm : 0x400000000013008 &&& m = 0x400000000013008) : ∀ a2 a3 a4, Kept m og (headDoorbell s a2 a3 a4) := by
  intro a2 a3 a4
  unfold headDoorbell
  extract_lets +onlyGivenNames s1
  have k_s1 : Kept m og s1 := by
    dsimp only [s1]
    repeat' first
      | (with_reducible first | assumption | exact mask_sub hm rfl | apply count_kept | apply doorbellBad_kept | apply hostRun_kept | apply qpMod_kept | apply qpError_kept)
      | intro _
      | dsimp only
      | split
  clear_value s1
  repeat' first
    | (with_reducible first | assumption | exact mask_sub hm rfl | apply count_kept | apply doorbellBad_kept | apply hostRun_kept | apply qpMod_kept | apply qpError_kept)
    | intro _
    | dsimp only
    | split

theorem execCqHeadDoorbell_kept {s t : State} {a1 a2 a3} (e : execCqHeadDoorbell a1 a2 a3 s = .next t) : Kept 0x400000000013008 s t := by
  have h := Kept.same 0x400000000013008 s
  have hm := Nat.and_self 0x400000000013008
  refine next_kept e ?_
  repeat' first
    | (with_reducible first | assumption | exact mask_sub hm rfl | apply headDoorbell_kept)
    | intro _
    | dsimp only
    | split

theorem fetchEntry_kept {m : Nat} {og s : State} (h : Kept m og s) (hm : 0x8040000000d7e30e8 &&& m = 0x8040000000d7e30e8) : ∀ a2 a3 a4 a5 a6, Kept m og (fetchEntry s a2 a3 a4 a5 a6) := by
  intro a2 a3 a4 a5 a6
  unfold fetchEntry
  extract_lets +onlyGivenNames list head c dup s1 s2 s3 s4
  try clear_value list
  try clear_value head
  try clear_value c
  try clear_value dup
  have k_s1 : Kept m og s1 := by
    dsimp only [s1]
    repeat' first
      | (with_reducible first | assumption | exact mask_sub hm rfl | apply modHost_kept | apply qpMod_kept | apply ctxShow_kept | apply count_kept | apply memWriteD_kept | apply hostComplete_kept | apply fset_kept | apply fifoPush_kept)
      | intro _
      | dsimp only
      | (with_reducible first | apply getD_kept)
      | split
  clear_value s1
  have k_s2 : Kept m og s2 := by
    dsimp only [s2]
    repeat' first
      | (with_reducible first | assumption | exact mask_sub hm rfl | apply modHost_kept | apply qpMod_kept | apply ctxShow_kept | apply count_kept | apply memWriteD_kept | apply hostComplete_kept | apply fset_kept | apply fifoPush_kept)
      | intro _
      | dsimp only
      | (with_reducible first | apply getD_kept)
      | split
  clear_value s2
  have k_s3 : Kept m og s3 := by
    dsimp only [s3]
    repeat' first
      | (with_reducible first | assumption | exact mask_sub hm rfl | apply modHost_kept | apply qpMod_kept | apply ctxShow_kept | apply count_kept | apply memWriteD_kept | apply hostComplete_kept | apply fset_kept | apply fifoPush_kept)
      | intro _
      | dsimp only
      | (with_reducible first | apply getD_kept)
      | split
  clear_value s3
  have k_s4 : Kept m og s4 := by
    dsimp only [s4]
    repeat' first
      | (with_reducible first | assumption | exact mask_sub hm rfl | apply modHost_kept | apply qpMod_kept | apply ctxShow_kept | apply count_kept | apply memWriteD_kept | apply hostComplete_kept | apply fset_kept | apply fifoPush_kept)
      | intro _
      | dsimp only
      | (with_reducible first | apply getD_kept)
      | split
  clear_value s4
  repeat' first
    | (with_reducible first | assumption | exact mask_sub hm rfl | apply modHost_kept | apply qpMod_kept | apply ctxShow_kept | apply count_kept | apply memWriteD_kept | apply hostComplete_kept | apply fset_kept | apply fifoPush_kept)
    | intro _
    | dsimp only
    | (with_reducible first | apply getD_kept)
    | split

theorem commandFetch_kept {m : Nat} {og s : State} (h : Kept m og s) (hm : 0x8040000000d7e30e8 &&& m = 0x8040000000d7e30e8) : ∀ a2 a3, Kept m og (commandFetch s a2 a3) := by
  intro a2 a3
  unfold commandFetch
  repeat' first
    | (with_reducible first | assumption | exact mask_sub hm rfl | apply fset_kept | apply fetchEntry_kept)
    | intro _
    | dsimp only
    | split

theorem execCommandFetch_kept {s t : State} {a1 a2} (e : execCommandFetch a1 a2 s = .next t) : Kept 0x8040000000d7e30e8 s t := by
  have h := Kept.same 0x8040000000d7e30e8 s
  have hm := Nat.and_self 0x8040000000d7e30e8
  refine next_kept e ?_
  repeat' first
    | (with_reducible first | assumption | exact mask_sub hm rfl | apply commandFetch_kept)
    | intro _
    | dsimp only

theorem hostCmd_kept {m : Nat} {og s : State} (h : Kept m og s) (hm : 0x400000000000000 &&& m = 0x400000000000000) : ∀ a2 a3 f4, (∀ u0 u1, Kept m og u0 → Kept m og (f4 u0 u1)) → Kept m og (hostCmd s a2 a3 f4) := by
  intro a2 a3 f4 hf4
  unfold hostCmd
  repeat' first
    | (with_reducible first | assumption | exact mask_sub hm rfl | apply hf4 | apply ctxMod_kept)
    | intro _
    | dsimp only
    | split

theorem sendData_kept {m : Nat} {og s : State} (h : Kept m og s) (hm : 0x400000000000000 &&& m = 0x400000000000000) : ∀ a2 a3, Kept m og (sendData s a2 a3) := by
  intro a2 a3
  unfold sendData
  repeat' first
    | (with_reducible first | assumption | exact mask_sub hm rfl | apply forEach_kept | apply hostSend_kept)
    | intro _
    | dsimp only

theorem sendReport_kept {m : Nat} {og s : State} (h : Kept m og s) (hm : 0x400000000000000 &&& m = 0x400000000000000) : ∀ a2 a3, Kept m og (sendReport s a2 a3) := by
  intro a2 a3
  unfold sendReport
  repeat' first
    | (with_reducible first | assumption | exact mask_sub hm rfl | apply hostSend_kept)
    | intro _
    | dsimp only
    | (with_reducible first | apply getD_kept)

theorem createQp_kept {m : Nat} {og s : State} (h : Kept m og s) (hm : 0x400000000003008 &&& m = 0x400000000003008) : ∀ a2, Kept m og (createQp s a2) := by
  intro a2
  unfold createQp
  extract_lets +onlyGivenNames e q cfgBad
  try clear_value e
  try clear_value q
  try clear_value cfgBad
  repeat' first
    | (with_reducible first | assumption | exact mask_sub hm rfl | apply hostComplete_kept | apply modHost_kept)
    | intro _
    | dsimp only
    | split

theorem execCreateQp_kept {s t : State} {a1} (e : execCreateQp a1 s = .next t) : Kept 0x400000000003008 s t := by
  have h := Kept.same 0x400000000003008 s
  have hm := Nat.and_self 0x400000000003008
  refine next_kept e ?_
  repeat' first
    | (with_reducible first | assumption | exact mask_sub hm rfl | apply hostCmd_kept | apply createQp_kept)
    | intro _
    | dsimp only

theorem deleteQp_kept {m : Nat} {og s : State} (h : Kept m og s) (hm : 0x400000000003008 &&& m = 0x400000000003008) : ∀ a2, Kept m og (deleteQp s a2) := by
  intro a2
  unfold deleteQp
  extract_lets +onlyGivenNames q
  try clear_value q
  repeat' first
    | (with_reducible first | assumption | exact mask_sub hm rfl | apply hostComplete_kept | apply hostRun_kept | apply qpMod_kept)
    | intro _
    | dsimp only
    | split

theorem execDeleteQp_kept {s t : State} {a1} (e : execDeleteQp a1 s = .next t) : Kept 0x400000000003008 s t := by
  have h := Kept.same 0x400000000003008 s
  have hm := Nat.and_self 0x400000000003008
  refine next_kept e ?_
  repeat' first
    | (with_reducible first | assumption | exact mask_sub hm rfl | apply hostCmd_kept | apply deleteQp_kept)
    | intro _
    | dsimp only

theorem abortCmd_kept {m : Nat} {og s : State} (h : Kept m og s) (hm : 0x400000000003008 &&& m = 0x400000000003008) : ∀ a2, Kept m og (abortCmd s a2) := by
  intro a2
  unfold abortCmd
  extract_lets +onlyGivenNames q
  try clear_value q
  repeat' first
    | (with_reducible first | assumption | exact mask_sub hm rfl | apply hostComplete_kept | apply hostRun_kept | apply ctxMod_kept | apply cplHold_kept)
    | intro _
    | dsimp only
    | split

theorem execAbort_kept {s t : State} {a1} (e : execAbort a1 s = .next t) : Kept 0x400000000003008 s t := by
  have h := Kept.same 0x400000000003008 s
  have hm := Nat.and_self 0x400000000003008
  refine next_kept e ?_
  repeat' first
    | (with_reducible first | assumption | exact mask_sub hm rfl | apply hostCmd_kept | apply abortCmd_kept)
    | intro _
    | dsimp only

theorem identify_kept {m : Nat} {og s : State} (h : Kept m og s) (hm : 0x400000000003008 &&& m = 0x400000000003008) : ∀ a2, Kept m og (identify s a2) := by
  intro a2
  unfold identify
  repeat' first
    | (with_reducible first | assumption | exact mask_sub hm rfl | apply hostComplete_kept | apply sendReport_kept)
    | intro _
    | dsimp only
    | split

theorem execIdentify_kept {s t : State} {a1} (e : execIdentify a1 s = .next t) : Kept 0x400000000003008 s t := by
  have h := Kept.same 0x400000000003008 s
  have hm := Nat.and_self 0x400000000003008
  refine next_kept e ?_
  repeat' first
    | (with_reducible first | assumption | exact mask_sub hm rfl | apply hostCmd_kept | apply identify_kept)
    | intro _
    | dsimp only

theorem getLog_kept {m : Nat} {og s : State} (h : Kept m og s) (hm : 0x400000000003008 &&& m = 0x400000000003008) : ∀ a2, Kept m og (getLog s a2) := by
  intro a2
  unfold getLog
  repeat' first
    | (with_reducible first | assumption | exact mask_sub hm rfl | apply hostComplete_kept | apply sendReport_kept)
    | intro _
    | dsimp only
    | split

theorem execGetLogEvents_kept {s t : State} {a1} (e : execGetLogEvents a1 s = .next t) : Kept 0x400000000003008 s t := by
  have h := Kept.same 0x400000000003008 s
  have hm := Nat.and_self 0x400000000003008
  refine next_kept e ?_
  repeat' first
    | (with_reducible first | assumption | exact mask_sub hm rfl | apply hostCmd_kept | apply getLog_kept)
    | intro _
    | dsimp only
    | split

theorem execGetLogPath_kept {s t : State} {a1} (e : execGetLogPath a1 s = .next t) : Kept 0x400000000003008 s t := by
  have h := Kept.same 0x400000000003008 s
  have hm := Nat.and_self 0x400000000003008
  refine next_kept e ?_
  repeat' first
    | (with_reducible first | assumption | exact mask_sub hm rfl | apply hostCmd_kept | apply getLog_kept)
    | intro _
    | dsimp only
    | split

theorem eventWait_kept {m : Nat} {og s : State} (h : Kept m og s) (hm : 0x400000000003008 &&& m = 0x400000000003008) : ∀ a2, Kept m og (eventWait s a2) := by
  intro a2
  unfold eventWait
  repeat' first
    | (with_reducible first | assumption | exact mask_sub hm rfl | apply hostComplete_kept)
    | intro _
    | dsimp only
    | split

theorem execEventWait_kept {s t : State} {a1} (e : execEventWait a1 s = .next t) : Kept 0x400000000003008 s t := by
  have h := Kept.same 0x400000000003008 s
  have hm := Nat.and_self 0x400000000003008
  refine next_kept e ?_
  repeat' first
    | (with_reducible first | assumption | exact mask_sub hm rfl | apply hostCmd_kept | apply eventWait_kept)
    | intro _
    | dsimp only

theorem linkUp_kept {m : Nat} {og s : State} (h : Kept m og s) (hm : 0x8 &&& m = 0x8) : ∀ a2 a3 a4, Kept m og (linkUp s a2 a3 a4) := by
  intro a2 a3 a4
  unfold linkUp
  repeat' first
    | (with_reducible first | assumption | exact mask_sub hm rfl | apply putLink_kept | apply fput_kept)
    | intro _
    | dsimp only
    | split

theorem execLinkUp_kept {s t : State} {a1 a2} (e : execLinkUp a1 a2 s = .next t) : Kept 0x8 s t := by
  have h := Kept.same 0x8 s
  have hm := Nat.and_self 0x8
  refine next_kept e ?_
  repeat' first
    | (with_reducible first | assumption | exact mask_sub hm rfl | apply linkUp_kept)
    | intro _
    | dsimp only

theorem sessionsClose_kept {m : Nat} {og s : State} (h : Kept m og s) (hm : 0x1000000000000008 &&& m = 0x1000000000000008) : ∀ a2, Kept m og (sessionsClose s a2) := by
  intro a2
  unfold sessionsClose
  extract_lets +onlyGivenNames left
  try clear_value left
  repeat' first
    | (with_reducible first | assumption | exact mask_sub hm rfl | apply fput_kept)
    | intro _
    | dsimp only
    | (with_reducible first | apply kept_arv)

theorem pathLoss_kept {m : Nat} {og s : State} (h : Kept m og s) (hm : 0x1400000000003008 &&& m = 0x1400000000003008) : ∀ a2, Kept m og (pathLoss s a2) := by
  intro a2
  unfold pathLoss
  repeat' first
    | (with_reducible first | assumption | exact mask_sub hm rfl | apply modHost_kept | apply forEach_kept | apply fset_kept | apply ctxShow_kept | apply countStatus_kept | apply hostRun_kept | apply sessionsClose_kept | apply count_kept)
    | intro _
    | dsimp only
    | (with_reducible first | apply getD_kept)
    | split
    | (with_reducible first | apply kept_arv)

theorem linkDown_kept {m : Nat} {og s : State} (h : Kept m og s) (hm : 0x1400000000003008 &&& m = 0x1400000000003008) : ∀ a2, Kept m og (linkDown s a2) := by
  intro a2
  unfold linkDown
  repeat' first
    | (with_reducible first | assumption | exact mask_sub hm rfl | apply pathLoss_kept | apply putLink_kept)
    | intro _
    | dsimp only
    | split

theorem execPathLoss_kept {s t : State} {a1} (e : execPathLoss a1 s = .next t) : Kept 0x1400000000003008 s t := by
  have h := Kept.same 0x1400000000003008 s
  have hm := Nat.and_self 0x1400000000003008
  refine next_kept e ?_
  repeat' first
    | (with_reducible first | assumption | exact mask_sub hm rfl | apply linkDown_kept)
    | intro _
    | dsimp only

theorem endpointReset_kept {m : Nat} {og s : State} (h : Kept m og s) (hm : 0x400000000000008 &&& m = 0x400000000000008) : ∀ a2, Kept m og (endpointReset s a2) := by
  intro a2
  unfold endpointReset
  repeat' first
    | (with_reducible first | assumption | exact mask_sub hm rfl | apply showReady_kept | apply modHost_kept | apply forEach_kept | apply wr_kept)
    | intro _
    | dsimp only

theorem execFunctionReset_kept {s t : State} {a1} (e : execFunctionReset a1 s = .next t) : Kept 0x1400000000003008 s t := by
  have h := Kept.same 0x1400000000003008 s
  have hm := Nat.and_self 0x1400000000003008
  refine next_kept e ?_
  repeat' first
    | (with_reducible first | assumption | exact mask_sub hm rfl | apply endpointReset_kept | apply pathLoss_kept)
    | intro _
    | dsimp only
    | split

theorem ocfgWrite_kept {m : Nat} {og s : State} (h : Kept m og s) (hm : 0x1400000000003008 &&& m = 0x1400000000003008) : ∀ a2 a3, Kept m og (ocfgWrite s a2 a3) := by
  intro a2 a3
  unfold ocfgWrite
  repeat' first
    | (with_reducible first | assumption | exact mask_sub hm rfl | apply fset_kept | apply showReady_kept | apply modHost_kept | apply pathLoss_kept | apply fclr_kept)
    | intro _
    | dsimp only
    | split

theorem execOcfgEnableWrite_kept {s t : State} {a1 a2} (e : execOcfgEnableWrite a1 a2 s = .next t) : Kept 0x1400000000003008 s t := by
  have h := Kept.same 0x1400000000003008 s
  have hm := Nat.and_self 0x1400000000003008
  refine next_kept e ?_
  repeat' first
    | (with_reducible first | assumption | exact mask_sub hm rfl | apply ocfgWrite_kept)
    | intro _
    | dsimp only

end Machine
end Sys2Proof
end

