-- ==== Sys2Proof/Laws/KeptDrive.lean ====
section
/-! SUPPORT. What the operations of Machine/Drive.lean keep (Laws/Keeps.lean). -/

namespace Sys2Proof
namespace Machine

theorem modDisc_kept {m : Nat} {og s : State} (h : Kept m og s) (hm : 0x800000000000000 &&& m = 0x800000000000000) : ∀ a2, Kept m og (modDisc s a2) := by
  intro a2
  unfold modDisc
  repeat' first
    | (with_reducible first | assumption | exact mask_sub hm rfl)
    | intro _
    | dsimp only
    | (with_reducible first | apply kept_disc)

theorem modArv_kept {m : Nat} {og s : State} (h : Kept m og s) (hm : 0x1000000000000000 &&& m = 0x1000000000000000) : ∀ a2, Kept m og (modArv s a2) := by
  intro a2
  unfold modArv
  repeat' first
    | (with_reducible first | assumption | exact mask_sub hm rfl)
    | intro _
    | dsimp only
    | (with_reducible first | apply kept_arv)

theorem modZone_kept {m : Nat} {og s : State} (h : Kept m og s) (hm : 0x800000000000000 &&& m = 0x800000000000000) : ∀ a2 a3, Kept m og (modZone s a2 a3) := by
  intro a2 a3
  unfold modZone
  repeat' first
    | (with_reducible first | assumption | exact mask_sub hm rfl | apply modDisc_kept)
    | intro _
    | dsimp only

theorem zonePad_kept {m : Nat} {og s : State} (h : Kept m og s) (hm : 0x800000000000000 &&& m = 0x800000000000000) : ∀ a2, Kept m og (zonePad s a2) := by
  intro a2
  unfold zonePad
  extract_lets +onlyGivenNames z up
  try clear_value z
  try clear_value up
  repeat' first
    | (with_reducible first | assumption | exact mask_sub hm rfl | apply modZone_kept)
    | intro _
    | dsimp only
    | split

theorem zoneOpen_kept {m : Nat} {og s : State} (h : Kept m og s) (hm : 0x800000000000000 &&& m = 0x800000000000000) : ∀ a2, Kept m og (zoneOpen s a2) := by
  intro a2
  unfold zoneOpen
  repeat' first
    | (with_reducible first | assumption | exact mask_sub hm rfl | apply modZone_kept)
    | intro _
    | dsimp only
    | split

theorem tableStore_kept {m : Nat} {og s : State} (h : Kept m og s) (hm : 0x800000000057e30e8 &&& m = 0x800000000057e30e8) : ∀ a2 a3 a4 a5 a6, Kept m og (tableStore s a2 a3 a4 a5 a6) := by
  intro a2 a3 a4 a5 a6
  unfold tableStore
  repeat' first
    | (with_reducible first | assumption | exact mask_sub hm rfl | apply forEach_kept | apply memWriteD_kept)
    | intro _
    | dsimp only
    | (with_reducible first | apply getD_kept)
    | split

theorem tableWalk_kept {m : Nat} {og s : State} (h : Kept m og s) (hm : 0x800000000047e30e8 &&& m = 0x800000000047e30e8) : ∀ a1 a3 a4 a5 a6 a7 a8, Kept m og (tableWalk a1 s a3 a4 a5 a6 a7 a8) := by
  intro a1
  induction a1 generalizing s with
  | zero =>
    intros
    unfold tableWalk
    repeat' first
      | (with_reducible first | assumption | exact mask_sub hm rfl | apply ih | apply memRead_kept | refine memRead_keq (by assumption) ?_ ?_)
      | intro _
      | dsimp only
      | split
  | succ n ih =>
    intros
    unfold tableWalk
    repeat' first
      | (with_reducible first | assumption | exact mask_sub hm rfl | apply ih | apply memRead_kept | refine memRead_keq (by assumption) ?_ ?_)
      | intro _
      | dsimp only
      | split

theorem tableSearch_kept {m : Nat} {og s : State} (h : Kept m og s) (hm : 0x800000000047e30e8 &&& m = 0x800000000047e30e8) : ∀ a2 a3 a4 a5 a6, Kept m og (tableSearch s a2 a3 a4 a5 a6) := by
  intro a2 a3 a4 a5 a6
  unfold tableSearch
  repeat' first
    | (with_reducible first | assumption | exact mask_sub hm rfl | apply tableWalk_kept)
    | intro _
    | dsimp only
    | split

theorem siStore_kept {m : Nat} {og s : State} (h : Kept m og s) (hm : 0x808000000057e30e8 &&& m = 0x808000000057e30e8) : ∀ a2, Kept m og (siStore s a2) := by
  intro a2
  unfold siStore
  extract_lets +onlyGivenNames s1 s2
  have k_s1 : Kept m og s1 := by
    dsimp only [s1]
    repeat' first
      | (with_reducible first | assumption | exact mask_sub hm rfl | apply tableStore_kept | apply fput_kept | apply modDisc_kept | apply fset_kept)
      | intro _
      | dsimp only
      | split
  clear_value s1
  have k_s2 : Kept m og s2 := by
    dsimp only [s2]
    repeat' first
      | (with_reducible first | assumption | exact mask_sub hm rfl | apply tableStore_kept | apply fput_kept | apply modDisc_kept | apply fset_kept)
      | intro _
      | dsimp only
      | split
  clear_value s2
  repeat' first
    | (with_reducible first | assumption | exact mask_sub hm rfl | apply tableStore_kept | apply fput_kept | apply modDisc_kept | apply fset_kept)
    | intro _
    | dsimp only
    | split

theorem siAppend_kept {m : Nat} {og s : State} (h : Kept m og s) (hm : 0x808000000057e30e8 &&& m = 0x808000000057e30e8) : ∀ a2 a3 a4, Kept m og (siAppend s a2 a3 a4) := by
  intro a2 a3 a4
  unfold siAppend
  extract_lets +onlyGivenNames lba heads
  try clear_value lba
  try clear_value heads
  repeat' first
    | (with_reducible first | assumption | exact mask_sub hm rfl | apply siStore_kept)
    | intro _
    | dsimp only
    | split

theorem siWalk_kept {m : Nat} {og s : State} (h : Kept m og s) (hm : 0x800000000047e30e8 &&& m = 0x800000000047e30e8) : ∀ a2, Kept m og (siWalk s a2) := by
  intro a2
  unfold siWalk
  repeat' first
    | (with_reducible first | assumption | exact mask_sub hm rfl | apply tableSearch_kept)
    | intro _
    | dsimp only
    | split

theorem siWalks_kept {m : Nat} {og s : State} (h : Kept m og s) (hm : 0x800000000047e30e8 &&& m = 0x800000000047e30e8) : ∀ a2 a3, Kept m og (siWalks s a2 a3) := by
  intro a2 a3
  unfold siWalks
  repeat' first
    | (with_reducible first | assumption | exact mask_sub hm rfl | apply forEach_kept | apply siWalk_kept)
    | intro _
    | dsimp only

theorem siReplace_kept {m : Nat} {og s : State} (h : Kept m og s) (hm : 0x808000000057e30e8 &&& m = 0x808000000057e30e8) : ∀ a2 a3, Kept m og (siReplace s a2 a3) := by
  intro a2 a3
  unfold siReplace
  repeat' first
    | (with_reducible first | assumption | exact mask_sub hm rfl | apply siStore_kept)
    | intro _
    | dsimp only
    | (with_reducible first | apply foldl_kept | apply foldlFst_kept)
    | split

theorem ioRun_kept {m : Nat} {og s : State} (h : Kept m og s) (hm : 0x400000000003008 &&& m = 0x400000000003008) : ∀ a2 a3 a4 f5, (∀ u0, Kept m og u0 → Kept m og (f5 u0)) → Kept m og (ioRun s a2 a3 a4 f5) := by
  intro a2 a3 a4 f5 hf5
  unfold ioRun
  repeat' first
    | (with_reducible first | assumption | exact mask_sub hm rfl | apply hf5 | apply hostComplete_kept)
    | intro _
    | dsimp only
    | split

theorem acceptBlocks_kept {m : Nat} {og s : State} (h : Kept m og s) (hm : 0x808000000057e30e8 &&& m = 0x808000000057e30e8) : ∀ a2 a3, Kept m og (acceptBlocks s a2 a3) := by
  intro a2 a3
  unfold acceptBlocks
  extract_lets +onlyGivenNames z start acc s1 wp
  try clear_value z
  try clear_value start
  try clear_value acc
  have k_s1 : Kept m og s1 := by
    dsimp only [s1]
    repeat' first
      | (with_reducible first | assumption | exact mask_sub hm rfl | apply modDisc_kept | apply siAppend_kept | apply modZone_kept)
      | intro _
      | dsimp only
      | split
  clear_value s1
  try clear_value wp
  repeat' first
    | (with_reducible first | assumption | exact mask_sub hm rfl | apply modDisc_kept | apply siAppend_kept | apply modZone_kept)
    | intro _
    | dsimp only
    | split

end Machine
end Sys2Proof
end

