-- ==== Sys2Proof/Laws/KeptRecords.lean ====
section
/-! SUPPORT. What the operations of Machine/Records.lean keep (Laws/Keeps.lean). -/

namespace Sys2Proof
namespace Machine

theorem recLay_kept {m : Nat} {og s : State} (h : Kept m og s) (hm : 0x800000000000000 &&& m = 0x800000000000000) : ∀ a2 a3 a4 a5 a6 a7, Kept m og (recLay s a2 a3 a4 a5 a6 a7) := by
  intro a2 a3 a4 a5 a6 a7
  unfold recLay
  extract_lets +onlyGivenNames a ix k
  try clear_value a
  try clear_value ix
  try clear_value k
  repeat' first
    | (with_reducible first | assumption | exact mask_sub hm rfl | apply modDisc_kept)
    | intro _
    | dsimp only
    | split

theorem useTiles_kept {m : Nat} {og s : State} (h : Kept m og s) (hm : 0x800000000000000 &&& m = 0x800000000000000) : ∀ a2, Kept m og (useTiles s a2) := by
  intro a2
  unfold useTiles
  repeat' first
    | (with_reducible first | assumption | exact mask_sub hm rfl | apply modDisc_kept)
    | intro _
    | dsimp only

theorem recWrite_kept {m : Nat} {og s : State} (h : Kept m og s) (hm : 0x800000000000000 &&& m = 0x800000000000000) : ∀ a2 a3 a4, Kept m og (recWrite s a2 a3 a4) := by
  intro a2 a3 a4
  unfold recWrite
  extract_lets +onlyGivenNames seq bytes s1 s2
  try clear_value seq
  try clear_value bytes
  have k_s1 : Kept m og s1 := by
    dsimp only [s1]
    repeat' first
      | (with_reducible first | assumption | exact mask_sub hm rfl | apply forEach_kept | apply recLay_kept | apply useTiles_kept | apply modDisc_kept)
      | intro _
      | dsimp only
      | split
  clear_value s1
  have k_s2 : Kept m og s2 := by
    dsimp only [s2]
    repeat' first
      | (with_reducible first | assumption | exact mask_sub hm rfl | apply forEach_kept | apply recLay_kept | apply useTiles_kept | apply modDisc_kept)
      | intro _
      | dsimp only
      | split
  clear_value s2
  repeat' first
    | (with_reducible first | assumption | exact mask_sub hm rfl | apply forEach_kept | apply recLay_kept | apply useTiles_kept | apply modDisc_kept)
    | intro _
    | dsimp only
    | split

theorem recWide_kept {m : Nat} {og s : State} (h : Kept m og s) (hm : 0x800000000000000 &&& m = 0x800000000000000) : ∀ a2 a3, Kept m og (recWide s a2 a3) := by
  intro a2 a3
  unfold recWide
  repeat' first
    | (with_reducible first | assumption | exact mask_sub hm rfl | apply recWrite_kept)
    | intro _
    | dsimp only

theorem recMirror_kept {m : Nat} {og s : State} (h : Kept m og s) (hm : 0x800000000000000 &&& m = 0x800000000000000) : ∀ a2, Kept m og (recMirror s a2) := by
  intro a2
  unfold recMirror
  extract_lets +onlyGivenNames seq bytes
  try clear_value seq
  try clear_value bytes
  repeat' first
    | (with_reducible first | assumption | exact mask_sub hm rfl | apply modDisc_kept | apply forEach_kept | apply recLay_kept)
    | intro _
    | dsimp only

theorem recDrop_kept {m : Nat} {og s : State} (h : Kept m og s) (hm : 0x800000000000000 &&& m = 0x800000000000000) : ∀ a2, Kept m og (recDrop s a2) := by
  intro a2
  unfold recDrop
  repeat' first
    | (with_reducible first | assumption | exact mask_sub hm rfl | apply modDisc_kept)
    | intro _
    | dsimp only

theorem siSnapshot_kept {m : Nat} {og s : State} (h : Kept m og s) (hm : 0x800000000000000 &&& m = 0x800000000000000) : Kept m og (siSnapshot s) := by
  unfold siSnapshot
  repeat' first
    | (with_reducible first | assumption | exact mask_sub hm rfl | apply modDisc_kept | apply recWide_kept)
    | intro _
    | dsimp only

theorem defectWrite_kept {m : Nat} {og s : State} (h : Kept m og s) (hm : 0x800000000000000 &&& m = 0x800000000000000) : ∀ a2 a3, Kept m og (defectWrite s a2 a3) := by
  intro a2 a3
  unfold defectWrite
  repeat' first
    | (with_reducible first | assumption | exact mask_sub hm rfl | apply recWrite_kept)
    | intro _
    | dsimp only

theorem userNext_kept {m : Nat} {og s : State} (h : Kept m og s) (hm : 0x800000000000000 &&& m = 0x800000000000000) : ∀ a2, Kept m og (userNext s a2).1 := by
  intro a2
  unfold userNext
  extract_lets +onlyGivenNames t wp
  have k_t : Kept m og t := by
    dsimp only [t]
    repeat' first
      | (with_reducible first | assumption | exact mask_sub hm rfl | apply zonePad_kept | apply modZone_kept)
      | intro _
      | dsimp only
      | split
  clear_value t
  try clear_value wp
  repeat' first
    | (with_reducible first | assumption | exact mask_sub hm rfl | apply zonePad_kept | apply modZone_kept)
    | intro _
    | dsimp only
    | split

theorem userNext_keq {m : Nat} {og s t : State} {r} {a2} (e : userNext s a2 = (t, r)) (h : Kept m og s) (hm : 0x800000000000000 &&& m = 0x800000000000000) : Kept m og t := by
  have k := userNext_kept h hm a2
  rw [e] at k
  exact k

theorem replaceTile_kept {m : Nat} {og s : State} (h : Kept m og s) (hm : 0x808000000057e30e8 &&& m = 0x808000000057e30e8) : ∀ a2, Kept m og (replaceTile s a2) := by
  intro a2
  unfold replaceTile
  extract_lets +onlyGivenNames old hit
  try clear_value old
  try clear_value hit
  repeat' first
    | (with_reducible first | assumption | exact mask_sub hm rfl | apply userNext_kept | refine userNext_keq (by assumption) ?_ ?_ | apply siReplace_kept | apply modDisc_kept)
    | intro _
    | dsimp only
    | (with_reducible first | apply getD_kept)
    | split

theorem replaceTiles_kept {m : Nat} {og s : State} (h : Kept m og s) (hm : 0x808000000057e30e8 &&& m = 0x808000000057e30e8) : ∀ a2, Kept m og (replaceTiles s a2) := by
  intro a2
  unfold replaceTiles
  extract_lets +onlyGivenNames keys
  try clear_value keys
  repeat' first
    | (with_reducible first | assumption | exact mask_sub hm rfl | apply forEach_kept | apply replaceTile_kept | apply defectWrite_kept)
    | intro _
    | dsimp only

end Machine
end Sys2Proof
end

