-- ==== Sys2Proof/Laws/KeptHostIo.lean ====
section
/-! SUPPORT. What the operations of Machine/HostIo.lean keep (Laws/Keeps.lean). -/

namespace Sys2Proof
namespace Machine

theorem readCmd_kept {m : Nat} {og s : State} (h : Kept m og s) (hm : 0x804000000047e30e8 &&& m = 0x804000000047e30e8) : ∀ a1 a3, Kept m og (readCmd a1 s a3) := by
  intro a1 a3
  unfold readCmd
  repeat' first
    | (with_reducible first | assumption | exact mask_sub hm rfl | apply ioRun_kept | apply hostComplete_kept | apply sendData_kept | apply siWalks_kept | apply ctxMod_kept)
    | intro _
    | dsimp only
    | split

theorem execRead_kept {s t : State} {a1 a2} (e : execRead a1 a2 s = .next t) : Kept 0x804000000047e30e8 s t := by
  have h := Kept.same 0x804000000047e30e8 s
  have hm := Nat.and_self 0x804000000047e30e8
  refine next_kept e ?_
  repeat' first
    | (with_reducible first | assumption | exact mask_sub hm rfl | apply hostCmd_kept | apply readCmd_kept)
    | intro _
    | dsimp only

theorem writeBegin_kept {m : Nat} {og s : State} (h : Kept m og s) (hm : 0xc00000000003008 &&& m = 0xc00000000003008) : ∀ a2, Kept m og (writeBegin s a2) := by
  intro a2
  unfold writeBegin
  repeat' first
    | (with_reducible first | assumption | exact mask_sub hm rfl | apply ioRun_kept | apply hostComplete_kept | apply ingressShow_kept | apply zoneOpen_kept)
    | intro _
    | dsimp only
    | split

theorem execWrite_kept {s t : State} {a1} (e : execWrite a1 s = .next t) : Kept 0xc00000000003008 s t := by
  have h := Kept.same 0xc00000000003008 s
  have hm := Nat.and_self 0xc00000000003008
  refine next_kept e ?_
  repeat' first
    | (with_reducible first | assumption | exact mask_sub hm rfl | apply hostCmd_kept | apply writeBegin_kept)
    | intro _
    | dsimp only

theorem execAppend_kept {s t : State} {a1} (e : execAppend a1 s = .next t) : Kept 0xc00000000003008 s t := by
  have h := Kept.same 0xc00000000003008 s
  have hm := Nat.and_self 0xc00000000003008
  refine next_kept e ?_
  repeat' first
    | (with_reducible first | assumption | exact mask_sub hm rfl | apply hostCmd_kept | apply writeBegin_kept)
    | intro _
    | dsimp only

theorem writeAccept_kept {m : Nat} {og s : State} (h : Kept m og s) (hm : 0x80c000000057e30e8 &&& m = 0x80c000000057e30e8) : ∀ a1 a3, Kept m og (writeAccept a1 s a3) := by
  intro a1 a3
  unfold writeAccept
  extract_lets +onlyGivenNames n z
  try clear_value n
  try clear_value z
  repeat' first
    | (with_reducible first | assumption | exact mask_sub hm rfl | apply hostComplete_kept | apply fset_kept | apply acceptBlocks_kept | apply zoneOpen_kept | apply ctxMod_kept | apply ingressShow_kept)
    | intro _
    | dsimp only
    | split

theorem execWriteAccept_kept {s t : State} {a1 a2} (e : execWriteAccept a1 a2 s = .next t) : Kept 0x80c000000057e30e8 s t := by
  have h := Kept.same 0x80c000000057e30e8 s
  have hm := Nat.and_self 0x80c000000057e30e8
  refine next_kept e ?_
  repeat' first
    | (with_reducible first | assumption | exact mask_sub hm rfl | apply writeAccept_kept)
    | intro _
    | dsimp only
    | split

theorem padOpen_kept {m : Nat} {og s : State} (h : Kept m og s) (hm : 0x800000000000000 &&& m = 0x800000000000000) : Kept m og (padOpen s) := by
  unfold padOpen
  repeat' first
    | (with_reducible first | assumption | exact mask_sub hm rfl | apply forEach_kept | apply zonePad_kept)
    | intro _
    | dsimp only

theorem flushCmd_kept {m : Nat} {og s : State} (h : Kept m og s) (hm : 0xc00000000003008 &&& m = 0xc00000000003008) : ∀ a2, Kept m og (flushCmd s a2) := by
  intro a2
  unfold flushCmd
  repeat' first
    | (with_reducible first | assumption | exact mask_sub hm rfl | apply ioRun_kept | apply ctxMod_kept | apply padOpen_kept | apply hostComplete_kept)
    | intro _
    | dsimp only
    | split

theorem execFlush_kept {s t : State} {a1} (e : execFlush a1 s = .next t) : Kept 0xc00000000003008 s t := by
  have h := Kept.same 0xc00000000003008 s
  have hm := Nat.and_self 0xc00000000003008
  refine next_kept e ?_
  repeat' first
    | (with_reducible first | assumption | exact mask_sub hm rfl | apply hostCmd_kept | apply flushCmd_kept)
    | intro _
    | dsimp only

theorem catWrite_kept {m : Nat} {og s : State} (h : Kept m og s) (hm : 0x1800000000000000 &&& m = 0x1800000000000000) : Kept m og (catWrite s) := by
  unfold catWrite
  extract_lets +onlyGivenNames full l body
  try clear_value full
  try clear_value l
  try clear_value body
  repeat' first
    | (with_reducible first | assumption | exact mask_sub hm rfl | apply modArv_kept | apply recWide_kept)
    | intro _
    | dsimp only
    | split

theorem catSnapshot_kept {m : Nat} {og s : State} (h : Kept m og s) (hm : 0x1800000000000000 &&& m = 0x1800000000000000) : Kept m og (catSnapshot s) := by
  unfold catSnapshot
  repeat' first
    | (with_reducible first | assumption | exact mask_sub hm rfl | apply sif_kept | apply catWrite_kept)
    | intro _
    | dsimp only

theorem flushDone_kept {m : Nat} {og s : State} (h : Kept m og s) (hm : 0x81c000000057e30e8 &&& m = 0x81c000000057e30e8) : ∀ a2 a3 a4, Kept m og (flushDone s a2 a3 a4) := by
  intro a2 a3 a4
  unfold flushDone
  extract_lets +onlyGivenNames s1
  have k_s1 : Kept m og s1 := by
    dsimp only [s1]
    repeat' first
      | (with_reducible first | assumption | exact mask_sub hm rfl | apply replaceTiles_kept | apply hostComplete_kept | apply modZone_kept | apply modDisc_kept | apply catSnapshot_kept | apply siSnapshot_kept)
      | intro _
      | dsimp only
      | split
  clear_value s1
  repeat' first
    | (with_reducible first | assumption | exact mask_sub hm rfl | apply replaceTiles_kept | apply hostComplete_kept | apply modZone_kept | apply modDisc_kept | apply catSnapshot_kept | apply siSnapshot_kept)
    | intro _
    | dsimp only
    | split

theorem execFlushComplete_kept {s t : State} {a1 a2 a3} (e : execFlushComplete a1 a2 a3 s = .next t) : Kept 0x81c000000057e30e8 s t := by
  have h := Kept.same 0x81c000000057e30e8 s
  have hm := Nat.and_self 0x81c000000057e30e8
  refine next_kept e ?_
  repeat' first
    | (with_reducible first | assumption | exact mask_sub hm rfl | apply flushDone_kept)
    | intro _
    | dsimp only
    | split

theorem zoneReport_kept {m : Nat} {og s : State} (h : Kept m og s) (hm : 0x400000000003008 &&& m = 0x400000000003008) : ∀ a2, Kept m og (zoneReport s a2) := by
  intro a2
  unfold zoneReport
  repeat' first
    | (with_reducible first | assumption | exact mask_sub hm rfl | apply ioRun_kept | apply hostComplete_kept | apply sendReport_kept)
    | intro _
    | dsimp only
    | split

theorem execZoneReport_kept {s t : State} {a1} (e : execZoneReport a1 s = .next t) : Kept 0x400000000003008 s t := by
  have h := Kept.same 0x400000000003008 s
  have hm := Nat.and_self 0x400000000003008
  refine next_kept e ?_
  repeat' first
    | (with_reducible first | assumption | exact mask_sub hm rfl | apply hostCmd_kept | apply zoneReport_kept)
    | intro _
    | dsimp only

theorem zoneAction_kept {m : Nat} {og s : State} (h : Kept m og s) (hm : 0x400000000003008 &&& m = 0x400000000003008) (b : Bool) (f : State → Nat → State × Nat)
    (hf : ∀ t n, Kept m og t → Kept m og (f t n).1) (ctx : HostCtx) : Kept m og (zoneAction b f s ctx) := by
  unfold zoneAction
  repeat' first
    | (with_reducible first | assumption | exact mask_sub hm rfl | apply hf | apply ioRun_kept | apply hostComplete_kept)
    | intro _
    | dsimp only
    | split

theorem zoneDoOpen_kept {m : Nat} {og s : State} (h : Kept m og s) (hm : 0x800000000000000 &&& m = 0x800000000000000) : ∀ a2, Kept m og (zoneDoOpen s a2).1 := by
  intro a2
  unfold zoneDoOpen
  repeat' first
    | (with_reducible first | assumption | exact mask_sub hm rfl | apply zoneOpen_kept)
    | intro _
    | dsimp only
    | split

theorem zoneDoOpen_keq {m : Nat} {og s t : State} {r} {a2} (e : zoneDoOpen s a2 = (t, r)) (h : Kept m og s) (hm : 0x800000000000000 &&& m = 0x800000000000000) : Kept m og t := by
  have k := zoneDoOpen_kept h hm a2
  rw [e] at k
  exact k

theorem zoneDoClose_kept {m : Nat} {og s : State} (h : Kept m og s) (hm : 0x800000000000000 &&& m = 0x800000000000000) : ∀ a2, Kept m og (zoneDoClose s a2).1 := by
  intro a2
  unfold zoneDoClose
  repeat' first
    | (with_reducible first | assumption | exact mask_sub hm rfl | apply zonePad_kept | apply modZone_kept)
    | intro _
    | dsimp only
    | split

theorem zoneDoClose_keq {m : Nat} {og s t : State} {r} {a2} (e : zoneDoClose s a2 = (t, r)) (h : Kept m og s) (hm : 0x800000000000000 &&& m = 0x800000000000000) : Kept m og t := by
  have k := zoneDoClose_kept h hm a2
  rw [e] at k
  exact k

theorem zoneDoFinish_kept {m : Nat} {og s : State} (h : Kept m og s) (hm : 0x800000000000000 &&& m = 0x800000000000000) : ∀ a2, Kept m og (zoneDoFinish s a2).1 := by
  intro a2
  unfold zoneDoFinish
  repeat' first
    | (with_reducible first | assumption | exact mask_sub hm rfl | apply zonePad_kept | apply modZone_kept)
    | intro _
    | dsimp only
    | split

theorem zoneDoFinish_keq {m : Nat} {og s t : State} {r} {a2} (e : zoneDoFinish s a2 = (t, r)) (h : Kept m og s) (hm : 0x800000000000000 &&& m = 0x800000000000000) : Kept m og t := by
  have k := zoneDoFinish_kept h hm a2
  rw [e] at k
  exact k

theorem execZoneOpen_kept {s t : State} {a1} (e : execZoneOpen a1 s = .next t) : Kept 0xc00000000003008 s t := by
  have h := Kept.same 0xc00000000003008 s
  have hm := Nat.and_self 0xc00000000003008
  refine next_kept e ?_
  repeat' first
    | (with_reducible first | assumption | exact mask_sub hm rfl | apply hostCmd_kept | apply zoneAction_kept | apply zoneDoOpen_kept | refine zoneDoOpen_keq (by assumption) ?_ ?_ | apply hostComplete_kept)
    | intro _
    | dsimp only
    | split

theorem execZoneClose_kept {s t : State} {a1} (e : execZoneClose a1 s = .next t) : Kept 0xc00000000003008 s t := by
  have h := Kept.same 0xc00000000003008 s
  have hm := Nat.and_self 0xc00000000003008
  refine next_kept e ?_
  repeat' first
    | (with_reducible first | assumption | exact mask_sub hm rfl | apply hostCmd_kept | apply zoneAction_kept | apply zoneDoClose_kept | refine zoneDoClose_keq (by assumption) ?_ ?_)
    | intro _
    | dsimp only
    | split

theorem execZoneFinish_kept {s t : State} {a1} (e : execZoneFinish a1 s = .next t) : Kept 0xc00000000003008 s t := by
  have h := Kept.same 0xc00000000003008 s
  have hm := Nat.and_self 0xc00000000003008
  refine next_kept e ?_
  repeat' first
    | (with_reducible first | assumption | exact mask_sub hm rfl | apply hostCmd_kept | apply zoneAction_kept | apply zoneDoFinish_kept | refine zoneDoFinish_keq (by assumption) ?_ ?_)
    | intro _
    | dsimp only
    | split

theorem extentQuery_kept {m : Nat} {og s : State} (h : Kept m og s) (hm : 0x804000000047e30e8 &&& m = 0x804000000047e30e8) : ∀ a2, Kept m og (extentQuery s a2) := by
  intro a2
  unfold extentQuery
  repeat' first
    | (with_reducible first | assumption | exact mask_sub hm rfl | apply ioRun_kept | apply hostComplete_kept | apply sendData_kept | apply siWalk_kept)
    | intro _
    | dsimp only
    | split

theorem execExtentQuery_kept {s t : State} {a1} (e : execExtentQuery a1 s = .next t) : Kept 0x804000000047e30e8 s t := by
  have h := Kept.same 0x804000000047e30e8 s
  have hm := Nat.and_self 0x804000000047e30e8
  refine next_kept e ?_
  repeat' first
    | (with_reducible first | assumption | exact mask_sub hm rfl | apply hostCmd_kept | apply extentQuery_kept)
    | intro _
    | dsimp only

end Machine
end Sys2Proof
end

