-- ==== Sys2Proof/Laws/KeptArchiveEng.lean ====
section
/-! SUPPORT. What the operations of Machine/ArchiveEng.lean keep (Laws/Keeps.lean). -/

namespace Sys2Proof
namespace Machine

theorem catStore_kept {m : Nat} {og s : State} (h : Kept m og s) (hm : 0x810000000057e30e8 &&& m = 0x810000000057e30e8) : ∀ a2, Kept m og (catStore s a2) := by
  intro a2
  unfold catStore
  extract_lets +onlyGivenNames s1 s2
  have k_s1 : Kept m og s1 := by
    dsimp only [s1]
    repeat' first
      | (with_reducible first | assumption | exact mask_sub hm rfl | apply tableStore_kept | apply fput_kept | apply modArv_kept | apply fset_kept)
      | intro _
      | dsimp only
      | split
  clear_value s1
  have k_s2 : Kept m og s2 := by
    dsimp only [s2]
    repeat' first
      | (with_reducible first | assumption | exact mask_sub hm rfl | apply tableStore_kept | apply fput_kept | apply modArv_kept | apply fset_kept)
      | intro _
      | dsimp only
      | split
  clear_value s2
  repeat' first
    | (with_reducible first | assumption | exact mask_sub hm rfl | apply tableStore_kept | apply fput_kept | apply modArv_kept | apply fset_kept)
    | intro _
    | dsimp only
    | split

theorem catMod_kept {m : Nat} {og s : State} (h : Kept m og s) (hm : 0x810000000057e30e8 &&& m = 0x810000000057e30e8) : ∀ a2 a3, Kept m og (catMod s a2 a3) := by
  intro a2 a3
  unfold catMod
  repeat' first
    | (with_reducible first | assumption | exact mask_sub hm rfl | apply catStore_kept)
    | intro _
    | dsimp only
    | split

theorem catFree_kept {m : Nat} {og s : State} (h : Kept m og s) (hm : 0x810000000057e30e8 &&& m = 0x810000000057e30e8) : ∀ a2, Kept m og (catFree s a2) := by
  intro a2
  unfold catFree
  repeat' first
    | (with_reducible first | assumption | exact mask_sub hm rfl | apply catStore_kept)
    | intro _
    | dsimp only

theorem catWalk_kept {m : Nat} {og s : State} (h : Kept m og s) (hm : 0x800000000047e30e8 &&& m = 0x800000000047e30e8) : ∀ a2, Kept m og (catWalk s a2) := by
  intro a2
  unfold catWalk
  repeat' first
    | (with_reducible first | assumption | exact mask_sub hm rfl | apply tableSearch_kept)
    | intro _
    | dsimp only
    | split

theorem objRun_kept {m : Nat} {og s : State} (h : Kept m og s) (hm : 0x804000000047e30e8 &&& m = 0x804000000047e30e8) : ∀ a2 a3 f4, (∀ u0, Kept m og u0 → Kept m og (f4 u0)) → Kept m og (objRun s a2 a3 f4) := by
  intro a2 a3 f4 hf4
  unfold objRun
  repeat' first
    | (with_reducible first | assumption | exact mask_sub hm rfl | apply hf4 | apply hostComplete_kept | apply catWalk_kept)
    | intro _
    | dsimp only
    | split

theorem reserve_kept {m : Nat} {og s : State} (h : Kept m og s) (hm : 0x808000000057e30e8 &&& m = 0x808000000057e30e8) : ∀ a2 a3, Kept m og (reserve s a2 a3) := by
  intro a2 a3
  unfold reserve
  extract_lets +onlyGivenNames z s1
  try clear_value z
  have k_s1 : Kept m og s1 := by
    dsimp only [s1]
    repeat' first
      | (with_reducible first | assumption | exact mask_sub hm rfl | apply siAppend_kept | apply zoneOpen_kept | apply modZone_kept)
      | intro _
      | dsimp only
      | split
  clear_value s1
  repeat' first
    | (with_reducible first | assumption | exact mask_sub hm rfl | apply siAppend_kept | apply zoneOpen_kept | apply modZone_kept)
    | intro _
    | dsimp only
    | split

theorem padReserved_kept {m : Nat} {og s : State} (h : Kept m og s) (hm : 0x800000000000000 &&& m = 0x800000000000000) : ∀ a2 a3, Kept m og (padReserved s a2 a3) := by
  intro a2 a3
  unfold padReserved
  extract_lets +onlyGivenNames s1
  have k_s1 : Kept m og s1 := by
    dsimp only [s1]
    repeat' first
      | (with_reducible first | assumption | exact mask_sub hm rfl | apply modZone_kept | apply zonePad_kept | apply modDisc_kept)
      | intro _
      | dsimp only
  clear_value s1
  repeat' first
    | (with_reducible first | assumption | exact mask_sub hm rfl | apply modZone_kept | apply zonePad_kept | apply modDisc_kept)
    | intro _
    | dsimp only

theorem acceptAt_kept {m : Nat} {og s : State} (h : Kept m og s) (hm : 0x800000000000000 &&& m = 0x800000000000000) : ∀ a2 a3, Kept m og (acceptAt s a2 a3) := by
  intro a2 a3
  unfold acceptAt
  repeat' first
    | (with_reducible first | assumption | exact mask_sub hm rfl | apply modDisc_kept)
    | intro _
    | dsimp only

theorem putPart_kept {m : Nat} {og s : State} (h : Kept m og s) (hm : 0x81c000000057e30e8 &&& m = 0x81c000000057e30e8) : ∀ a2 a3 a4 a5 a6, Kept m og (putPart s a2 a3 a4 a5 a6) := by
  intro a2 a3 a4 a5 a6
  unfold putPart
  extract_lets +onlyGivenNames data whole s1 s2
  try clear_value data
  try clear_value whole
  have k_s1 : Kept m og s1 := by
    dsimp only [s1]
    repeat' first
      | (with_reducible first | assumption | exact mask_sub hm rfl | apply acceptAt_kept | apply ctxMod_kept | apply modArv_kept | apply hostComplete_kept | apply count_kept | apply padReserved_kept | apply catFree_kept | apply catMod_kept)
      | intro _
      | dsimp only
      | split
  clear_value s1
  have k_s2 : Kept m og s2 := by
    dsimp only [s2]
    repeat' first
      | (with_reducible first | assumption | exact mask_sub hm rfl | apply acceptAt_kept | apply ctxMod_kept | apply modArv_kept | apply hostComplete_kept | apply count_kept | apply padReserved_kept | apply catFree_kept | apply catMod_kept)
      | intro _
      | dsimp only
      | split
  clear_value s2
  repeat' first
    | (with_reducible first | assumption | exact mask_sub hm rfl | apply acceptAt_kept | apply ctxMod_kept | apply modArv_kept | apply hostComplete_kept | apply count_kept | apply padReserved_kept | apply catFree_kept | apply catMod_kept)
    | intro _
    | dsimp only
    | split

theorem dataFail_kept {m : Nat} {og s : State} (h : Kept m og s) (hm : 0x400000000003008 &&& m = 0x400000000003008) : ∀ a2, Kept m og (dataFail s a2) := by
  intro a2
  unfold dataFail
  repeat' first
    | (with_reducible first | assumption | exact mask_sub hm rfl | apply hostComplete_kept | apply fset_kept)
    | intro _
    | dsimp only

theorem putFirst_kept {m : Nat} {og s : State} (h : Kept m og s) (hm : 0x81c000000057e30e8 &&& m = 0x81c000000057e30e8) : ∀ a2 a3, Kept m og (putFirst s a2 a3) := by
  intro a2 a3
  unfold putFirst
  extract_lets +onlyGivenNames len oid largest
  try clear_value len
  try clear_value oid
  try clear_value largest
  repeat' first
    | (with_reducible first | assumption | exact mask_sub hm rfl | apply hostComplete_kept | apply dataFail_kept | apply modArv_kept | apply catStore_kept | apply reserve_kept | apply putPart_kept)
    | intro _
    | dsimp only
    | (with_reducible first | apply foldl_kept | apply foldlFst_kept)
    | split

theorem putCmd_kept {m : Nat} {og s : State} (h : Kept m og s) (hm : 0x81c000000057e30e8 &&& m = 0x81c000000057e30e8) : ∀ a1 a3, Kept m og (putCmd a1 s a3) := by
  intro a1 a3
  unfold putCmd
  repeat' first
    | (with_reducible first | assumption | exact mask_sub hm rfl | apply objRun_kept | apply putFirst_kept | apply hostComplete_kept | apply dataFail_kept | apply putPart_kept)
    | intro _
    | dsimp only
    | split

theorem execPut_kept {s t : State} {a1 a2} (e : execPut a1 a2 s = .next t) : Kept 0x81c000000057e30e8 s t := by
  have h := Kept.same 0x81c000000057e30e8 s
  have hm := Nat.and_self 0x81c000000057e30e8
  refine next_kept e ?_
  repeat' first
    | (with_reducible first | assumption | exact mask_sub hm rfl | apply hostCmd_kept | apply putCmd_kept)
    | intro _
    | dsimp only

theorem pendingAbandon_kept {m : Nat} {og s : State} (h : Kept m og s) (hm : 0x81c000000057e30e8 &&& m = 0x81c000000057e30e8) : ∀ a2, Kept m og (pendingAbandon s a2) := by
  intro a2
  unfold pendingAbandon
  repeat' first
    | (with_reducible first | assumption | exact mask_sub hm rfl | apply modArv_kept | apply padReserved_kept | apply catFree_kept | apply eventLog_kept | apply fset_kept)
    | intro _
    | dsimp only
    | split

theorem execPendingAbandon_kept {s t : State} {a1} (e : execPendingAbandon a1 s = .next t) : Kept 0x81c000000057e30e8 s t := by
  have h := Kept.same 0x81c000000057e30e8 s
  have hm := Nat.and_self 0x81c000000057e30e8
  refine next_kept e ?_
  repeat' first
    | (with_reducible first | assumption | exact mask_sub hm rfl | apply pendingAbandon_kept)
    | intro _
    | dsimp only

theorem getCmd_kept {m : Nat} {og s : State} (h : Kept m og s) (hm : 0x814000000057e30e8 &&& m = 0x814000000057e30e8) : ∀ a1 a3, Kept m og (getCmd a1 s a3) := by
  intro a1 a3
  unfold getCmd
  repeat' first
    | (with_reducible first | assumption | exact mask_sub hm rfl | apply objRun_kept | apply hostComplete_kept | apply sendData_kept | apply siWalks_kept | apply count_kept | apply catMod_kept)
    | intro _
    | dsimp only
    | split

theorem execGet_kept {s t : State} {a1 a2} (e : execGet a1 a2 s = .next t) : Kept 0x814000000057e30e8 s t := by
  have h := Kept.same 0x814000000057e30e8 s
  have hm := Nat.and_self 0x814000000057e30e8
  refine next_kept e ?_
  repeat' first
    | (with_reducible first | assumption | exact mask_sub hm rfl | apply hostCmd_kept | apply getCmd_kept)
    | intro _
    | dsimp only

theorem listCmd_kept {m : Nat} {og s : State} (h : Kept m og s) (hm : 0x804000000047e30e8 &&& m = 0x804000000047e30e8) : ∀ a2, Kept m og (listCmd s a2) := by
  intro a2
  unfold listCmd
  repeat' first
    | (with_reducible first | assumption | exact mask_sub hm rfl | apply objRun_kept | apply hostComplete_kept | apply sendData_kept)
    | intro _
    | dsimp only
    | split

theorem execList_kept {s t : State} {a1} (e : execList a1 s = .next t) : Kept 0x804000000047e30e8 s t := by
  have h := Kept.same 0x804000000047e30e8 s
  have hm := Nat.and_self 0x804000000047e30e8
  refine next_kept e ?_
  repeat' first
    | (with_reducible first | assumption | exact mask_sub hm rfl | apply hostCmd_kept | apply listCmd_kept)
    | intro _
    | dsimp only

theorem auditBegin_kept {m : Nat} {og s : State} (h : Kept m og s) (hm : 0x8100000000d7e30e8 &&& m = 0x8100000000d7e30e8) : ∀ a2 a3, Kept m og (auditBegin s a2 a3) := by
  intro a2 a3
  unfold auditBegin
  extract_lets +onlyGivenNames tiles runs s1
  try clear_value tiles
  try clear_value runs
  have k_s1 : Kept m og s1 := by
    dsimp only [s1]
    repeat' first
      | (with_reducible first | assumption | exact mask_sub hm rfl | apply modArv_kept | apply siWalks_kept | apply forEach_kept | apply fifoPush_kept)
      | intro _
      | dsimp only
  clear_value s1
  repeat' first
    | (with_reducible first | assumption | exact mask_sub hm rfl | apply modArv_kept | apply siWalks_kept | apply forEach_kept | apply fifoPush_kept)
    | intro _
    | dsimp only

theorem auditCmd_kept {m : Nat} {og s : State} (h : Kept m og s) (hm : 0x8140000000d7e30e8 &&& m = 0x8140000000d7e30e8) : ∀ a2, Kept m og (auditCmd s a2) := by
  intro a2
  unfold auditCmd
  repeat' first
    | (with_reducible first | assumption | exact mask_sub hm rfl | apply objRun_kept | apply hostComplete_kept | apply auditBegin_kept)
    | intro _
    | dsimp only
    | split

theorem execAudit_kept {s t : State} {a1} (e : execAudit a1 s = .next t) : Kept 0x8140000000d7e30e8 s t := by
  have h := Kept.same 0x8140000000d7e30e8 s
  have hm := Nat.and_self 0x8140000000d7e30e8
  refine next_kept e ?_
  repeat' first
    | (with_reducible first | assumption | exact mask_sub hm rfl | apply hostCmd_kept | apply auditCmd_kept)
    | intro _
    | dsimp only

theorem auditWalk_kept {m : Nat} {og s : State} (h : Kept m og s) (hm : 0x8100000000d7e30e8 &&& m = 0x8100000000d7e30e8) : Kept m og (auditWalk s) := by
  unfold auditWalk
  repeat' first
    | (with_reducible first | assumption | exact mask_sub hm rfl | apply auditBegin_kept | apply sif_kept | apply fput_kept | apply fset_kept)
    | intro _
    | dsimp only
    | split

theorem execAuditWalk_kept {s t : State} (e : execAuditWalk s = .next t) : Kept 0x8100000000d7e30e8 s t := by
  have h := Kept.same 0x8100000000d7e30e8 s
  have hm := Nat.and_self 0x8100000000d7e30e8
  refine next_kept e ?_
  repeat' first
    | (with_reducible first | assumption | exact mask_sub hm rfl | apply auditWalk_kept)
    | intro _
    | dsimp only

theorem auditConsume_kept {m : Nat} {og s : State} (h : Kept m og s) (hm : 0x8100000000d7f30e8 &&& m = 0x8100000000d7f30e8) : ∀ a2, Kept m og (auditConsume s a2) := by
  intro a2
  unfold auditConsume
  repeat' first
    | (with_reducible first | assumption | exact mask_sub hm rfl | apply fifoPop_kept | refine fifoPop_keq (by assumption) ?_ ?_ | apply memRead_kept | refine memRead_keq (by assumption) ?_ ?_ | apply modArv_kept)
    | intro _
    | dsimp only
    | split
    | dsimp only [id]

theorem execAuditRecordConsume_kept {s t : State} {a1} (e : execAuditRecordConsume a1 s = .next t) : Kept 0x8100000000d7f30e8 s t := by
  have h := Kept.same 0x8100000000d7f30e8 s
  have hm := Nat.and_self 0x8100000000d7f30e8
  refine next_kept e ?_
  repeat' first
    | (with_reducible first | assumption | exact mask_sub hm rfl | apply auditConsume_kept)
    | intro _
    | dsimp only
    | split

theorem auditDrop_kept {m : Nat} {og s : State} (h : Kept m og s) (hm : 0x1000000000000000 &&& m = 0x1000000000000000) : ∀ a2, Kept m og (auditDrop s a2) := by
  intro a2
  unfold auditDrop
  repeat' first
    | (with_reducible first | assumption | exact mask_sub hm rfl | apply modArv_kept)
    | intro _
    | dsimp only

theorem auditEnd_kept {m : Nat} {og s : State} (h : Kept m og s) (hm : 0x814000000057e30e8 &&& m = 0x814000000057e30e8) : ∀ a2 a3, Kept m og (auditEnd s a2 a3) := by
  intro a2 a3
  unfold auditEnd
  repeat' first
    | (with_reducible first | assumption | exact mask_sub hm rfl | apply count_kept | apply auditDrop_kept | apply hostComplete_kept | apply eventLog_kept | apply catMod_kept | apply fset_kept)
    | intro _
    | dsimp only
    | (with_reducible first | apply getD_kept)
    | split

theorem auditStop_kept {m : Nat} {og s : State} (h : Kept m og s) (hm : 0x1400000000003008 &&& m = 0x1400000000003008) : ∀ a2 a3, Kept m og (auditStop s a2 a3) := by
  intro a2 a3
  unfold auditStop
  repeat' first
    | (with_reducible first | assumption | exact mask_sub hm rfl | apply hostComplete_kept | apply auditDrop_kept)
    | intro _
    | dsimp only
    | split

theorem auditResult_kept {m : Nat} {og s : State} (h : Kept m og s) (hm : 0x8140000000d7e30e8 &&& m = 0x8140000000d7e30e8) : ∀ a2, Kept m og (auditResult s a2) := by
  intro a2
  unfold auditResult
  repeat' first
    | (with_reducible first | assumption | exact mask_sub hm rfl | apply auditBegin_kept | apply auditDrop_kept | apply auditStop_kept | apply auditEnd_kept)
    | intro _
    | dsimp only
    | split

theorem execAuditResult_kept {s t : State} {a1} (e : execAuditResult a1 s = .next t) : Kept 0x8140000000d7e30e8 s t := by
  have h := Kept.same 0x8140000000d7e30e8 s
  have hm := Nat.and_self 0x8140000000d7e30e8
  refine next_kept e ?_
  repeat' first
    | (with_reducible first | assumption | exact mask_sub hm rfl | apply auditResult_kept)
    | intro _
    | dsimp only

theorem weakNotice_kept {m : Nat} {og s : State} (h : Kept m og s) (hm : 0x810000080057e30e8 &&& m = 0x810000080057e30e8) : Kept m og (weakNotice s) := by
  unfold weakNotice
  repeat' first
    | (with_reducible first | assumption | exact mask_sub hm rfl | apply fset_kept | apply catMod_kept)
    | intro _
    | dsimp only
    | split
    | (with_reducible first | apply kept_weakTiles)

theorem execWeakTileNotice_kept {s t : State} (e : execWeakTileNotice s = .next t) : Kept 0x810000080057e30e8 s t := by
  have h := Kept.same 0x810000080057e30e8 s
  have hm := Nat.and_self 0x810000080057e30e8
  refine next_kept e ?_
  repeat' first
    | (with_reducible first | assumption | exact mask_sub hm rfl | apply weakNotice_kept)
    | intro _
    | dsimp only

theorem weakRefresh_kept {m : Nat} {og s : State} (h : Kept m og s) (hm : 0x818000000057e30e8 &&& m = 0x818000000057e30e8) : ∀ a2 a3, Kept m og (weakRefresh s a2 a3) := by
  intro a2 a3
  unfold weakRefresh
  repeat' first
    | (with_reducible first | assumption | exact mask_sub hm rfl | apply acceptAt_kept | apply reserve_kept | apply count_kept | apply catMod_kept | apply padReserved_kept)
    | intro _
    | dsimp only
    | split

theorem execWeakRefresh_kept {s t : State} {a1 a2} (e : execWeakRefresh a1 a2 s = .next t) : Kept 0x818000000057e30e8 s t := by
  have h := Kept.same 0x818000000057e30e8 s
  have hm := Nat.and_self 0x818000000057e30e8
  refine next_kept e ?_
  repeat' first
    | (with_reducible first | assumption | exact mask_sub hm rfl | apply weakRefresh_kept)
    | intro _
    | dsimp only

end Machine
end Sys2Proof
end

