-- ==== Sys2Proof/Laws/KeptCache.lean ====
section
/-! SUPPORT. What the operations of Machine/Cache.lean keep (Laws/Keeps.lean). -/

namespace Sys2Proof
namespace Machine

theorem arcOffer_kept {m : Nat} {og s : State} (h : Kept m og s) (hm : 0x4723068 &&& m = 0x4723068) : ∀ a2 a3, Kept m og (arcOffer s a2 a3) := by
  intro a2 a3
  unfold arcOffer
  extract_lets +onlyGivenNames held victim
  try clear_value held
  try clear_value victim
  repeat' first
    | (with_reducible first | assumption | exact mask_sub hm rfl | apply count_kept | apply arcInstall_kept)
    | intro _
    | dsimp only
    | split

theorem l1Install_kept {m : Nat} {og s : State} (h : Kept m og s) (hm : 0x47e3068 &&& m = 0x47e3068) : ∀ a2 a3 a4 a5, Kept m og (l1Install s a2 a3 a4 a5) := by
  intro a2 a3 a4 a5
  unfold l1Install
  extract_lets +onlyGivenNames q w old s1
  try clear_value q
  try clear_value w
  try clear_value old
  have k_s1 : Kept m og s1 := by
    dsimp only [s1]
    repeat' first
      | (with_reducible first | assumption | exact mask_sub hm rfl | apply modL1_kept | apply arcOffer_kept)
      | intro _
      | dsimp only
      | split
  clear_value s1
  repeat' first
    | (with_reducible first | assumption | exact mask_sub hm rfl | apply modL1_kept | apply arcOffer_kept)
    | intro _
    | dsimp only
    | split

theorem l1Fill_kept {m : Nat} {og s : State} (h : Kept m og s) (hm : 0x47e3068 &&& m = 0x47e3068) : ∀ a2 a3 a4, Kept m og (l1Fill s a2 a3 a4) := by
  intro a2 a3 a4
  unfold l1Fill
  repeat' first
    | (with_reducible first | assumption | exact mask_sub hm rfl | apply modL1_kept | apply l1Settle_kept | apply l1Install_kept)
    | intro _
    | dsimp only
    | split

theorem execL1Fill_kept {s t : State} {a1 a2 a3} (e : execL1Fill a1 a2 a3 s = .next t) : Kept 0x47e3068 s t := by
  have h := Kept.same 0x47e3068 s
  have hm := Nat.and_self 0x47e3068
  refine next_kept e ?_
  repeat' first
    | (with_reducible first | assumption | exact mask_sub hm rfl | apply l1Fill_kept)
    | intro _
    | dsimp only

theorem l1Miss_kept {m : Nat} {og s : State} (h : Kept m og s) (hm : 0x47e3068 &&& m = 0x47e3068) : ∀ a2 a3 a4 a5, Kept m og (l1Miss s a2 a3 a4 a5) := by
  intro a2 a3 a4 a5
  unfold l1Miss
  extract_lets +onlyGivenNames q s1
  try clear_value q
  have k_s1 : Kept m og s1 := by
    dsimp only [s1]
    repeat' first
      | (with_reducible first | assumption | exact mask_sub hm rfl | apply l1Fill_kept | apply modL1_kept)
      | intro _
      | dsimp only
      | split
  clear_value s1
  repeat' first
    | (with_reducible first | assumption | exact mask_sub hm rfl | apply l1Fill_kept | apply modL1_kept)
    | intro _
    | dsimp only
    | split

theorem l1Note_kept {m : Nat} {og s : State} (h : Kept m og s) (hm : 0x4003008 &&& m = 0x4003008) : ∀ a2 a3 a4 a5 a6, Kept m og (l1Note s a2 a3 a4 a5 a6) := by
  intro a2 a3 a4 a5 a6
  unfold l1Note
  repeat' first
    | (with_reducible first | assumption | exact mask_sub hm rfl | apply sramNote_kept)
    | intro _
    | dsimp only
    | (with_reducible first | apply getD_kept)

theorem l1MissRead_kept {m : Nat} {og s : State} (h : Kept m og s) (hm : 0x800000000047e30e8 &&& m = 0x800000000047e30e8) : ∀ a2 a3 a4 a5, Kept m og (l1MissRead s a2 a3 a4 a5).1 := by
  intro a2 a3 a4 a5
  unfold l1MissRead
  repeat' first
    | (with_reducible first | assumption | exact mask_sub hm rfl | apply memRead_kept | refine memRead_keq (by assumption) ?_ ?_ | apply l1Miss_kept)
    | intro _
    | dsimp only
    | split

theorem l1MissRead_keq {m : Nat} {og s t : State} {r} {a2 a3 a4 a5} (e : l1MissRead s a2 a3 a4 a5 = (t, r)) (h : Kept m og s) (hm : 0x800000000047e30e8 &&& m = 0x800000000047e30e8) : Kept m og t := by
  have k := l1MissRead_kept h hm a2 a3 a4 a5
  rw [e] at k
  exact k

theorem l1Join_kept {m : Nat} {og s : State} (h : Kept m og s) (hm : 0x47e3068 &&& m = 0x47e3068) : ∀ a2 a3 a4, Kept m og (l1Join s a2 a3 a4) := by
  intro a2 a3 a4
  unfold l1Join
  repeat' first
    | (with_reducible first | assumption | exact mask_sub hm rfl | apply l1Fill_kept)
    | intro _
    | dsimp only
    | split

theorem l1Read_kept {m : Nat} {og s : State} (h : Kept m og s) (hm : 0x800000000047e30e8 &&& m = 0x800000000047e30e8) : ∀ a2 a3 a4 a5, Kept m og (l1Read s a2 a3 a4 a5).1 := by
  intro a2 a3 a4 a5
  unfold l1Read
  repeat' first
    | (with_reducible first | assumption | exact mask_sub hm rfl | apply memRead_kept | refine memRead_keq (by assumption) ?_ ?_ | apply l1Join_kept | apply modL1_kept | apply count_kept | apply l1Note_kept | apply l1MissRead_kept | refine l1MissRead_keq (by assumption) ?_ ?_)
    | intro _
    | dsimp only
    | split
    | dsimp only [id]

theorem l1Read_keq {m : Nat} {og s t : State} {r} {a2 a3 a4 a5} (e : l1Read s a2 a3 a4 a5 = (t, r)) (h : Kept m og s) (hm : 0x800000000047e30e8 &&& m = 0x800000000047e30e8) : Kept m og t := by
  have k := l1Read_kept h hm a2 a3 a4 a5
  rw [e] at k
  exact k

theorem coreWrite_keq {m : Nat} {og s t : State} {p : Fin 4} {a : Nat} {bs : List Byte} (e : coreWrite s p a bs = some t)
    (h : Kept m og s) (hm : 0x800000000057e30e8 &&& m = 0x800000000057e30e8) : Kept m og t := by
  unfold coreWrite at e
  rw [Option.map_eq_some_iff] at e
  obtain ⟨u, eu, e⟩ := e
  have k := memWrite_keq eu h (mask_sub hm rfl)
  subst e
  split
  · exact foldlFst_kept (s := (_, _)) k _ _ (fun _ _ k => l1Store_kept k (mask_sub hm rfl) _ _ _)
  · exact k

theorem l1Disable_kept {m : Nat} {og s : State} (h : Kept m og s) (hm : 0xc0008 &&& m = 0xc0008) : ∀ a2 a3, Kept m og (l1Disable s a2 a3) := by
  intro a2 a3
  unfold l1Disable
  extract_lets +onlyGivenNames on s1
  try clear_value on
  have k_s1 : Kept m og s1 := by
    dsimp only [s1]
    repeat' first
      | (with_reducible first | assumption | exact mask_sub hm rfl | apply fputAt_kept | apply l1Settle_kept | apply modL1_kept)
      | intro _
      | dsimp only
      | split
  clear_value s1
  repeat' first
    | (with_reducible first | assumption | exact mask_sub hm rfl | apply fputAt_kept | apply l1Settle_kept | apply modL1_kept)
    | intro _
    | dsimp only
    | split

theorem execL1Disable_kept {s t : State} {a1 a2 a3} (e : execL1Disable a1 a2 a3 s = .next t) : Kept 0xc0088 s t := by
  have h := Kept.same 0xc0088 s
  have hm := Nat.and_self 0xc0088
  refine next_kept e ?_
  repeat' first
    | (with_reducible first | assumption | exact mask_sub hm rfl | apply reply_kept | apply l1Disable_kept)
    | intro _
    | dsimp only

theorem execArcadeRequest_kept {s t : State} {a1 a2 a3 a4} (e : execArcadeRequest a1 a2 a3 a4 s = .next t) : Kept 0x800000000047e30e8 s t := by
  have h := Kept.same 0x800000000047e30e8 s
  have hm := Nat.and_self 0x800000000047e30e8
  refine next_kept e ?_
  repeat' first
    | (with_reducible first | assumption | exact mask_sub hm rfl | apply arcRequest_kept | apply arcFlip_kept)
    | intro _
    | dsimp only

theorem arcFill_kept {m : Nat} {og s : State} (h : Kept m og s) (hm : 0x800000000047e30e8 &&& m = 0x800000000047e30e8) : ∀ a2 a3, Kept m og (arcFill s a2 a3) := by
  intro a2 a3
  unfold arcFill
  repeat' first
    | (with_reducible first | assumption | exact mask_sub hm rfl | apply arcLand_kept | apply arcRetry_kept | apply arcAnswer_kept)
    | intro _
    | dsimp only
    | (with_reducible first | apply getD_kept)
    | split

theorem execArcadeFill_kept {s t : State} {a1 a2} (e : execArcadeFill a1 a2 s = .next t) : Kept 0x800000000047e30e8 s t := by
  have h := Kept.same 0x800000000047e30e8 s
  have hm := Nat.and_self 0x800000000047e30e8
  refine next_kept e ?_
  repeat' first
    | (with_reducible first | assumption | exact mask_sub hm rfl | apply arcFill_kept)
    | intro _
    | dsimp only

theorem arcDisable_kept {m : Nat} {og s : State} (h : Kept m og s) (hm : 0x8 &&& m = 0x8) : Kept m og (arcDisable s) := by
  unfold arcDisable
  extract_lets +onlyGivenNames s1
  have k_s1 : Kept m og s1 := by
    dsimp only [s1]
    repeat' first
      | (with_reducible first | assumption | exact mask_sub hm rfl | apply fclr_kept | apply fput_kept)
      | intro _
      | dsimp only
      | split
  clear_value s1
  repeat' first
    | (with_reducible first | assumption | exact mask_sub hm rfl | apply fclr_kept | apply fput_kept)
    | intro _
    | dsimp only
    | split

theorem execArcDisable_kept {s t : State} {a1} (e : execArcDisable a1 s = .next t) : Kept 0x88 s t := by
  have h := Kept.same 0x88 s
  have hm := Nat.and_self 0x88
  refine next_kept e ?_
  repeat' first
    | (with_reducible first | assumption | exact mask_sub hm rfl | apply reply_kept | apply arcDisable_kept)
    | intro _
    | dsimp only

theorem arcEnable_kept {m : Nat} {og s : State} (h : Kept m og s) (hm : 0x8 &&& m = 0x8) : Kept m og (arcEnable s) := by
  unfold arcEnable
  extract_lets +onlyGivenNames s1
  have k_s1 : Kept m og s1 := by
    dsimp only [s1]
    repeat' first
      | (with_reducible first | assumption | exact mask_sub hm rfl | apply fset_kept | apply fput_kept)
      | intro _
      | dsimp only
      | split
  clear_value s1
  repeat' first
    | (with_reducible first | assumption | exact mask_sub hm rfl | apply fset_kept | apply fput_kept)
    | intro _
    | dsimp only
    | split

theorem execArcEnable_kept {s t : State} {a1} (e : execArcEnable a1 s = .next t) : Kept 0x88 s t := by
  have h := Kept.same 0x88 s
  have hm := Nat.and_self 0x88
  refine next_kept e ?_
  repeat' first
    | (with_reducible first | assumption | exact mask_sub hm rfl | apply reply_kept | apply arcEnable_kept)
    | intro _
    | dsimp only

theorem arcLandAll_kept {m : Nat} {og s : State} (h : Kept m og s) (hm : 0x4723068 &&& m = 0x4723068) : ∀ a2, Kept m og (arcLandAll s a2) := by
  intro a2
  unfold arcLandAll
  repeat' first
    | (with_reducible first | assumption | exact mask_sub hm rfl | apply forEach_kept | apply arcLand_kept)
    | intro _
    | dsimp only

theorem arcWalk_kept {m : Nat} {og s : State} (h : Kept m og s) (hm : 0x4723068 &&& m = 0x4723068) : Kept m og (arcWalk s) := by
  unfold arcWalk
  repeat' first
    | (with_reducible first | assumption | exact mask_sub hm rfl | apply setArcLines_kept | apply forEach_kept | apply arcWriteBack_kept)
    | intro _
    | dsimp only

theorem arcDrainDone_kept {m : Nat} {og s : State} (h : Kept m og s) (hm : 0x800000000047e30e8 &&& m = 0x800000000047e30e8) : Kept m og (arcDrainDone s) := by
  unfold arcDrainDone
  repeat' first
    | (with_reducible first | assumption | exact mask_sub hm rfl | apply fset_kept | apply fput_kept | apply arcWalk_kept | apply forEach_kept | apply arcLandAll_kept | apply fclr_kept | apply arcRetry_kept)
    | intro _
    | dsimp only
    | split

theorem execArcDrainDone_kept {s t : State} (e : execArcDrainDone s = .next t) : Kept 0x800000000047e30e8 s t := by
  have h := Kept.same 0x800000000047e30e8 s
  have hm := Nat.and_self 0x800000000047e30e8
  refine next_kept e ?_
  repeat' first
    | (with_reducible first | assumption | exact mask_sub hm rfl | apply arcDrainDone_kept)
    | intro _
    | dsimp only

theorem arcPartWrite_kept {m : Nat} {og s : State} (h : Kept m og s) (hm : 0x8 &&& m = 0x8) : ∀ a2 a3, Kept m og (arcPartWrite s a2 a3) := by
  intro a2 a3
  unfold arcPartWrite
  repeat' first
    | (with_reducible first | assumption | exact mask_sub hm rfl | apply fset_kept | apply fput_kept)
    | intro _
    | dsimp only
    | split

theorem execArcPartWrite_kept {s t : State} {a1 a2 a3} (e : execArcPartWrite a1 a2 a3 s = .next t) : Kept 0x88 s t := by
  have h := Kept.same 0x88 s
  have hm := Nat.and_self 0x88
  refine next_kept e ?_
  repeat' first
    | (with_reducible first | assumption | exact mask_sub hm rfl | apply reply_kept | apply arcPartWrite_kept)
    | intro _
    | dsimp only

theorem cmoL1Addr_kept {m : Nat} {og s : State} (h : Kept m og s) (hm : 0x47e3068 &&& m = 0x47e3068) : ∀ a2 a3, Kept m og (cmoL1Addr s a2 a3) := by
  intro a2 a3
  unfold cmoL1Addr
  repeat' first
    | (with_reducible first | assumption | exact mask_sub hm rfl | apply forEach_kept | apply l1Settle_kept | apply modL1_kept | apply l1Fill_kept)
    | intro _
    | dsimp only
    | split

theorem l1FillAll_kept {m : Nat} {og s : State} (h : Kept m og s) (hm : 0x47e3068 &&& m = 0x47e3068) : ∀ a2 a3, Kept m og (l1FillAll s a2 a3) := by
  intro a2 a3
  unfold l1FillAll
  repeat' first
    | (with_reducible first | assumption | exact mask_sub hm rfl | apply l1Fill_kept)
    | intro _
    | dsimp only
    | (with_reducible first | apply foldl_kept | apply foldlFst_kept)

theorem cmoL1All_kept {m : Nat} {og s : State} (h : Kept m og s) (hm : 0x47e3068 &&& m = 0x47e3068) : ∀ a2 a3, Kept m og (cmoL1All s a2 a3) := by
  intro a2 a3
  unfold cmoL1All
  repeat' first
    | (with_reducible first | assumption | exact mask_sub hm rfl | apply l1Settle_kept | apply modL1_kept | apply l1FillAll_kept)
    | intro _
    | dsimp only

theorem arcAwait_kept {m : Nat} {og s : State} (h : Kept m og s) (hm : 0x800000000047e30e8 &&& m = 0x800000000047e30e8) : ∀ a2, Kept m og (arcAwait s a2) := by
  intro a2
  unfold arcAwait
  repeat' first
    | (with_reducible first | assumption | exact mask_sub hm rfl | apply arcLandRetry_kept)
    | intro _
    | dsimp only
    | split

theorem arcCleanWay_kept {m : Nat} {og s : State} (h : Kept m og s) (hm : 0x4723068 &&& m = 0x4723068) : ∀ a2 a3 a4, Kept m og (arcCleanWay s a2 a3 a4) := by
  intro a2 a3 a4
  unfold arcCleanWay
  repeat' first
    | (with_reducible first | assumption | exact mask_sub hm rfl | apply arcWriteBack_kept | apply setArcLines_kept)
    | intro _
    | dsimp only
    | split

theorem arcFlushWay_kept {m : Nat} {og s : State} (h : Kept m og s) (hm : 0x4723068 &&& m = 0x4723068) : ∀ a2 a3 a4, Kept m og (arcFlushWay s a2 a3 a4) := by
  intro a2 a3 a4
  unfold arcFlushWay
  repeat' first
    | (with_reducible first | assumption | exact mask_sub hm rfl | apply arcWriteBack_kept | apply setArcLines_kept)
    | intro _
    | dsimp only
    | split

theorem arcByAddr_kept {m : Nat} {og s : State} (h : Kept m og s) (hm : 0x800000000047e30e8 &&& m = 0x800000000047e30e8) : ∀ a2 f3, (∀ u0 u1, Kept m og u0 → Kept m og (f3 u0 u1)) → Kept m og (arcByAddr s a2 f3) := by
  intro a2 f3 hf3
  unfold arcByAddr
  repeat' first
    | (with_reducible first | assumption | exact mask_sub hm rfl | apply hf3 | apply arcAwait_kept)
    | intro _
    | dsimp only
    | split

theorem cmoArcClean_kept {m : Nat} {og s : State} (h : Kept m og s) (hm : 0x800000000047e30e8 &&& m = 0x800000000047e30e8) : ∀ a2, Kept m og (cmoArcClean s a2) := by
  intro a2
  unfold cmoArcClean
  repeat' first
    | (with_reducible first | assumption | exact mask_sub hm rfl | apply arcByAddr_kept | apply arcCleanWay_kept)
    | intro _
    | dsimp only

theorem cmoArcInv_kept {m : Nat} {og s : State} (h : Kept m og s) (hm : 0x800000000047e30e8 &&& m = 0x800000000047e30e8) : ∀ a2, Kept m og (cmoArcInv s a2) := by
  intro a2
  unfold cmoArcInv
  repeat' first
    | (with_reducible first | assumption | exact mask_sub hm rfl | apply arcByAddr_kept | apply arcDrop_kept)
    | intro _
    | dsimp only

theorem cmoArcFlush_kept {m : Nat} {og s : State} (h : Kept m og s) (hm : 0x800000000047e30e8 &&& m = 0x800000000047e30e8) : ∀ a2, Kept m og (cmoArcFlush s a2) := by
  intro a2
  unfold cmoArcFlush
  repeat' first
    | (with_reducible first | assumption | exact mask_sub hm rfl | apply arcByAddr_kept | apply arcFlushWay_kept)
    | intro _
    | dsimp only

theorem arcAwaitSet_kept {m : Nat} {og s : State} (h : Kept m og s) (hm : 0x800000000047e30e8 &&& m = 0x800000000047e30e8) : ∀ a2 a3, Kept m og (arcAwaitSet s a2 a3) := by
  intro a2 a3
  unfold arcAwaitSet
  repeat' first
    | (with_reducible first | assumption | exact mask_sub hm rfl | apply arcAwait_kept)
    | intro _
    | dsimp only
    | (with_reducible first | apply foldl_kept | apply foldlFst_kept)

theorem cmoArcCleanSw_kept {m : Nat} {og s : State} (h : Kept m og s) (hm : 0x800000000047e30e8 &&& m = 0x800000000047e30e8) : ∀ a2, Kept m og (cmoArcCleanSw s a2) := by
  intro a2
  unfold cmoArcCleanSw
  repeat' first
    | (with_reducible first | assumption | exact mask_sub hm rfl | apply arcCleanWay_kept | apply arcAwaitSet_kept)
    | intro _
    | dsimp only

theorem cmoArcFlushSw_kept {m : Nat} {og s : State} (h : Kept m og s) (hm : 0x800000000047e30e8 &&& m = 0x800000000047e30e8) : ∀ a2, Kept m og (cmoArcFlushSw s a2) := by
  intro a2
  unfold cmoArcFlushSw
  repeat' first
    | (with_reducible first | assumption | exact mask_sub hm rfl | apply arcFlushWay_kept | apply arcAwaitSet_kept)
    | intro _
    | dsimp only

theorem cmoArcFetch_kept {m : Nat} {og s : State} (h : Kept m og s) (hm : 0x800000000047e30e8 &&& m = 0x800000000047e30e8) : ∀ a2, Kept m og (cmoArcFetch s a2) := by
  intro a2
  unfold cmoArcFetch
  repeat' first
    | (with_reducible first | assumption | exact mask_sub hm rfl | apply arcAwait_kept | apply arcReadLine_kept | refine arcReadLine_keq (by assumption) ?_ ?_)
    | intro _
    | dsimp only
    | split

end Machine
end Sys2Proof
end

