-- ==== Sys2Proof/Laws/KeptResults.lean ====
section
/-! SUPPORT. What the operations of Machine/Results.lean keep (Laws/Keeps.lean). -/

namespace Sys2Proof
namespace Machine

theorem modCh_kept {m : Nat} {og s : State} (h : Kept m og s) (hm : 0x10000000 &&& m = 0x10000000) : ∀ a2 a3, Kept m og (modCh s a2 a3) := by
  intro a2 a3
  unfold modCh
  repeat' first
    | (with_reducible first | assumption | exact mask_sub hm rfl)
    | intro _
    | dsimp only
    | (with_reducible first | apply kept_ch)

theorem modWc_kept {m : Nat} {og s : State} (h : Kept m og s) (hm : 0x10000000000000 &&& m = 0x10000000000000) : ∀ a2 a3, Kept m og (modWc s a2 a3) := by
  intro a2 a3
  unfold modWc
  repeat' first
    | (with_reducible first | assumption | exact mask_sub hm rfl)
    | intro _
    | dsimp only
    | (with_reducible first | apply kept_wc)

theorem modTile_kept {m : Nat} {og s : State} (h : Kept m og s) (hm : 0x1000000000 &&& m = 0x1000000000) : ∀ a2 a3, Kept m og (modTile s a2 a3) := by
  intro a2 a3
  unfold modTile
  repeat' first
    | (with_reducible first | assumption | exact mask_sub hm rfl)
    | intro _
    | dsimp only
    | split
    | dsimp only [id]
    | (with_reducible first | apply kept_tiles)

theorem stepEnd_kept {m : Nat} {og s : State} (h : Kept m og s) (hm : 0x8000001000d7e30e8 &&& m = 0x8000001000d7e30e8) : ∀ a2 a3 a4 a5 a6 a7 a8 a9 a10, Kept m og (stepEnd s a2 a3 a4 a5 a6 a7 a8 a9 a10) := by
  intro a2 a3 a4 a5 a6 a7 a8 a9 a10
  unfold stepEnd
  extract_lets +onlyGivenNames s1
  have k_s1 : Kept m og s1 := by
    dsimp only [s1]
    repeat' first
      | (with_reducible first | assumption | exact mask_sub hm rfl | apply fifoPush_kept)
      | intro _
      | dsimp only
      | split
      | dsimp only [id]
      | (with_reducible first | apply kept_shortHeads)
  clear_value s1
  repeat' first
    | (with_reducible first | assumption | exact mask_sub hm rfl | apply fifoPush_kept)
    | intro _
    | dsimp only
    | split
    | dsimp only [id]
    | (with_reducible first | apply kept_shortHeads)

theorem openEnd_kept {m : Nat} {og s : State} (h : Kept m og s) (hm : 0x8000001002d7e30e8 &&& m = 0x8000001002d7e30e8) : ∀ a2 a3, Kept m og (openEnd s a2 a3) := by
  intro a2 a3
  unfold openEnd
  extract_lets +onlyGivenNames fm s1
  try clear_value fm
  have k_s1 : Kept m og s1 := by
    dsimp only [s1]
    repeat' first
      | (with_reducible first | assumption | exact mask_sub hm rfl | apply modHb_kept | apply stepEnd_kept)
      | intro _
      | dsimp only
      | (with_reducible first | apply getD_kept)
      | split
  clear_value s1
  repeat' first
    | (with_reducible first | assumption | exact mask_sub hm rfl | apply modHb_kept | apply stepEnd_kept)
    | intro _
    | dsimp only
    | (with_reducible first | apply getD_kept)
    | split

theorem stepCheck_kept {m : Nat} {og s : State} (h : Kept m og s) (hm : 0x8000001002d7e30e8 &&& m = 0x8000001002d7e30e8) : ∀ a2, Kept m og (stepCheck s a2) := by
  intro a2
  unfold stepCheck
  repeat' first
    | (with_reducible first | assumption | exact mask_sub hm rfl | apply forEach_kept | apply openEnd_kept)
    | intro _
    | dsimp only

theorem slotEnded_kept {m : Nat} {og s : State} (h : Kept m og s) (hm : 0x8000001002d7e30e8 &&& m = 0x8000001002d7e30e8) : ∀ a2 a3 a4, Kept m og (slotEnded s a2 a3 a4) := by
  intro a2 a3 a4
  unfold slotEnded
  repeat' first
    | (with_reducible first | assumption | exact mask_sub hm rfl | apply stepCheck_kept | apply modHb_kept)
    | intro _
    | dsimp only
    | split

theorem decFlag_kept {m : Nat} {og s : State} (h : Kept m og s) (hm : 0x8 &&& m = 0x8) : ∀ a2, Kept m og (decFlag s a2) := by
  intro a2
  unfold decFlag
  repeat' first
    | (with_reducible first | assumption | exact mask_sub hm rfl | apply fset_kept)
    | intro _
    | dsimp only
    | split

theorem sectorOut_kept {m : Nat} {og s : State} (h : Kept m og s) (hm : 0x8001001102d7e30e8 &&& m = 0x8001001102d7e30e8) : ∀ a2 a3 a4 a5, Kept m og (sectorOut s a2 a3 a4 a5) := by
  intro a2 a3 a4 a5
  unfold sectorOut
  extract_lets +onlyGivenNames s1
  have k_s1 : Kept m og s1 := by
    dsimp only [s1]
    repeat' first
      | (with_reducible first | assumption | exact mask_sub hm rfl | apply decFlag_kept | apply count_kept | apply modWc_kept | apply stepCheck_kept)
      | intro _
      | dsimp only
      | split
      | (with_reducible first | apply kept_tiles)
  clear_value s1
  repeat' first
    | (with_reducible first | assumption | exact mask_sub hm rfl | apply decFlag_kept | apply count_kept | apply modWc_kept | apply stepCheck_kept)
    | intro _
    | dsimp only
    | split
    | (with_reducible first | apply kept_tiles)

theorem discardSettle_kept {m : Nat} {og s : State} (h : Kept m og s) (hm : 0x80010011c6d7e30e8 &&& m = 0x80010011c6d7e30e8) : Kept m og (discardSettle s) := by
  unfold discardSettle
  extract_lets +onlyGivenNames cut gone ids s1
  try clear_value cut
  try clear_value gone
  try clear_value ids
  have k_s1 : Kept m og s1 := by
    dsimp only [s1]
    repeat' first
      | (with_reducible first | assumption | exact mask_sub hm rfl | apply forEach_kept | apply sectorOut_kept)
      | intro _
      | dsimp only
      | dsimp only [id]
      | (with_reducible first | apply kept_packets_decDiscard_decDrop)
  clear_value s1
  repeat' first
    | (with_reducible first | assumption | exact mask_sub hm rfl | apply forEach_kept | apply sectorOut_kept)
    | intro _
    | dsimp only
    | dsimp only [id]
    | (with_reducible first | apply kept_packets_decDiscard_decDrop)

end Machine
end Sys2Proof
end

