-- ==== Sys2Proof/Laws/KeptRfPath.lean ====
section
/-! SUPPORT. What the operations of Machine/RfPath.lean keep (Laws/Keeps.lean). -/

namespace Sys2Proof
namespace Machine

theorem gainInit_kept {m : Nat} {og s : State} (h : Kept m og s) (hm : 0x10000008 &&& m = 0x10000008) : ∀ a2, Kept m og (gainInit s a2) := by
  intro a2
  unfold gainInit
  extract_lets +onlyGivenNames d w
  try clear_value d
  try clear_value w
  repeat' first
    | (with_reducible first | assumption | exact mask_sub hm rfl | apply fput_kept | apply modCh_kept)
    | intro _
    | dsimp only

theorem gainUpdate_kept {m : Nat} {og s : State} (h : Kept m og s) (hm : 0x10000008 &&& m = 0x10000008) : ∀ a2 a3 a4, Kept m og (gainUpdate s a2 a3 a4) := by
  intro a2 a3 a4
  unfold gainUpdate
  extract_lets +onlyGivenNames q
  try clear_value q
  repeat' first
    | (with_reducible first | assumption | exact mask_sub hm rfl | apply fput_kept | apply modCh_kept)
    | intro _
    | dsimp only
    | split

theorem modTim_kept {m : Nat} {og s : State} (h : Kept m og s) (hm : 0x10000000 &&& m = 0x10000000) : ∀ a2 a3, Kept m og (modTim s a2 a3) := by
  intro a2 a3
  unfold modTim
  repeat' first
    | (with_reducible first | assumption | exact mask_sub hm rfl | apply modCh_kept)
    | intro _
    | dsimp only

theorem devShow_kept {m : Nat} {og s : State} (h : Kept m og s) (hm : 0x8 &&& m = 0x8) : ∀ a2, Kept m og (devShow s a2) := by
  intro a2
  unfold devShow
  extract_lets +onlyGivenNames dev s1
  try clear_value dev
  have k_s1 : Kept m og s1 := by
    dsimp only [s1]
    repeat' first
      | (with_reducible first | assumption | exact mask_sub hm rfl | apply fputInt_kept | apply fclr_kept)
      | intro _
      | dsimp only
      | split
  clear_value s1
  repeat' first
    | (with_reducible first | assumption | exact mask_sub hm rfl | apply fputInt_kept | apply fclr_kept)
    | intro _
    | dsimp only
    | split

theorem loopMeasure_kept {m : Nat} {og s : State} (h : Kept m og s) (hm : 0x10000008 &&& m = 0x10000008) : ∀ a2 a3 a4, Kept m og (loopMeasure s a2 a3 a4) := by
  intro a2 a3 a4
  unfold loopMeasure
  extract_lets +onlyGivenNames kp ki
  try clear_value kp
  try clear_value ki
  repeat' first
    | (with_reducible first | assumption | exact mask_sub hm rfl | apply devShow_kept | apply modTim_kept)
    | intro _
    | dsimp only
    | split

theorem trSlip_kept {m : Nat} {og s : State} (h : Kept m og s) (hm : 0x10003008 &&& m = 0x10003008) : ∀ a2, Kept m og (trSlip s a2) := by
  intro a2
  unfold trSlip
  repeat' first
    | (with_reducible first | assumption | exact mask_sub hm rfl | apply count_kept | apply fset_kept | apply modCh_kept)
    | intro _
    | dsimp only

theorem spliceCheck_kept {m : Nat} {og s : State} (h : Kept m og s) (hm : 0x10003008 &&& m = 0x10003008) : ∀ a2 a3, Kept m og (spliceCheck s a2 a3) := by
  intro a2 a3
  unfold spliceCheck
  extract_lets +onlyGivenNames s q good slip s2 s3
  have k_s : Kept m og s := by
    dsimp only [s]
    repeat' first
      | (with_reducible first | assumption | exact mask_sub hm rfl | apply loopMeasure_kept | apply modTim_kept | apply trSlip_kept | apply fclr_kept | apply fset_kept)
      | intro _
      | dsimp only
      | split
  clear_value s
  try clear_value q
  try clear_value good
  try clear_value slip
  have k_s2 : Kept m og s2 := by
    dsimp only [s2]
    repeat' first
      | (with_reducible first | assumption | exact mask_sub hm rfl | apply loopMeasure_kept | apply modTim_kept | apply trSlip_kept | apply fclr_kept | apply fset_kept)
      | intro _
      | dsimp only
      | split
  clear_value s2
  have k_s3 : Kept m og s3 := by
    dsimp only [s3]
    repeat' first
      | (with_reducible first | assumption | exact mask_sub hm rfl | apply loopMeasure_kept | apply modTim_kept | apply trSlip_kept | apply fclr_kept | apply fset_kept)
      | intro _
      | dsimp only
      | split
  clear_value s3
  repeat' first
    | (with_reducible first | assumption | exact mask_sub hm rfl | apply loopMeasure_kept | apply modTim_kept | apply trSlip_kept | apply fclr_kept | apply fset_kept)
    | intro _
    | dsimp only
    | split

theorem dropDeclare_kept {m : Nat} {og s : State} (h : Kept m og s) (hm : 0x10003008 &&& m = 0x10003008) : ∀ a2 a3, Kept m og (dropDeclare s a2 a3) := by
  intro a2 a3
  unfold dropDeclare
  extract_lets +onlyGivenNames g s1
  try clear_value g
  have k_s1 : Kept m og s1 := by
    dsimp only [s1]
    repeat' first
      | (with_reducible first | assumption | exact mask_sub hm rfl | apply modCh_kept | apply count_kept | apply fset_kept)
      | intro _
      | dsimp only
      | split
  clear_value s1
  repeat' first
    | (with_reducible first | assumption | exact mask_sub hm rfl | apply modCh_kept | apply count_kept | apply fset_kept)
    | intro _
    | dsimp only
    | split

theorem dropEnd_kept {m : Nat} {og s : State} (h : Kept m og s) (hm : 0x10000000 &&& m = 0x10000000) : ∀ a2, Kept m og (dropEnd s a2) := by
  intro a2
  unfold dropEnd
  extract_lets +onlyGivenNames g
  try clear_value g
  repeat' first
    | (with_reducible first | assumption | exact mask_sub hm rfl | apply modCh_kept)
    | intro _
    | dsimp only
    | split

theorem bufferOverrun_kept {m : Nat} {og s : State} (h : Kept m og s) (hm : 0x10003008 &&& m = 0x10003008) : ∀ a2, Kept m og (bufferOverrun s a2) := by
  intro a2
  unfold bufferOverrun
  extract_lets +onlyGivenNames s1
  have k_s1 : Kept m og s1 := by
    dsimp only [s1]
    repeat' first
      | (with_reducible first | assumption | exact mask_sub hm rfl | apply count_kept | apply fset_kept | apply modCh_kept)
      | intro _
      | dsimp only
      | split
  clear_value s1
  repeat' first
    | (with_reducible first | assumption | exact mask_sub hm rfl | apply count_kept | apply fset_kept | apply modCh_kept)
    | intro _
    | dsimp only
    | split

theorem packetPush_kept {m : Nat} {og s : State} (h : Kept m og s) (hm : 0x30003008 &&& m = 0x30003008) : ∀ a2 a3, Kept m og (packetPush s a2 a3) := by
  intro a2 a3
  unfold packetPush
  extract_lets +onlyGivenNames n k h
  try clear_value n
  try clear_value k
  try clear_value h
  repeat' first
    | (with_reducible first | assumption | exact mask_sub hm rfl | apply modHb_kept | apply modCh_kept | apply bufferOverrun_kept)
    | intro _
    | dsimp only
    | split

theorem deliver_kept {m : Nat} {og s : State} (h : Kept m og s) (hm : 0x30003008 &&& m = 0x30003008) : ∀ a2 a3, Kept m og (deliver s a2 a3) := by
  intro a2 a3
  unfold deliver
  repeat' first
    | (with_reducible first | assumption | exact mask_sub hm rfl | apply packetPush_kept | apply modCh_kept)
    | intro _
    | dsimp only
    | split

theorem chanBack_kept {m : Nat} {og s : State} (h : Kept m og s) (hm : 0x30003008 &&& m = 0x30003008) : ∀ a2, Kept m og (chanBack s a2) := by
  intro a2
  unfold chanBack
  extract_lets +onlyGivenNames m
  try clear_value m
  repeat' first
    | (with_reducible first | assumption | exact mask_sub hm rfl | apply modCh_kept | apply forEach_kept | apply fputInt_kept | apply deliver_kept)
    | intro _
    | dsimp only
    | (with_reducible first | apply foldl_kept | apply foldlFst_kept | apply getD_kept)
    | split

theorem groupClock_kept {m : Nat} {og s : State} (h : Kept m og s) (hm : 0x10000000 &&& m = 0x10000000) : ∀ a2 a3 a4, Kept m og (groupClock s a2 a3 a4) := by
  intro a2 a3 a4
  unfold groupClock
  extract_lets +onlyGivenNames p fs lock bad
  try clear_value p
  try clear_value fs
  try clear_value lock
  try clear_value bad
  repeat' first
    | (with_reducible first | assumption | exact mask_sub hm rfl | apply modCh_kept)
    | intro _
    | dsimp only
    | split

theorem groupPush_kept {m : Nat} {og s : State} (h : Kept m og s) (hm : 0x10000000 &&& m = 0x10000000) : ∀ a2 a3 a4 a5 a6 a7, Kept m og (groupPush s a2 a3 a4 a5 a6 a7) := by
  intro a2 a3 a4 a5 a6 a7
  unfold groupPush
  extract_lets +onlyGivenNames taps p
  try clear_value taps
  try clear_value p
  repeat' first
    | (with_reducible first | assumption | exact mask_sub hm rfl | apply modCh_kept)
    | intro _
    | dsimp only
    | (with_reducible first | apply foldl_kept | apply foldlFst_kept)
    | split

theorem sampleLoss_kept {m : Nat} {og s : State} (h : Kept m og s) (hm : 0x10003008 &&& m = 0x10003008) : ∀ a2, Kept m og (sampleLoss s a2) := by
  intro a2
  unfold sampleLoss
  repeat' first
    | (with_reducible first | assumption | exact mask_sub hm rfl | apply count_kept | apply fset_kept | apply modCh_kept)
    | intro _
    | dsimp only

theorem chanLost_kept {m : Nat} {og s : State} (h : Kept m og s) (hm : 0x10003008 &&& m = 0x10003008) : ∀ a2, Kept m og (chanLost s a2) := by
  intro a2
  unfold chanLost
  repeat' first
    | (with_reducible first | assumption | exact mask_sub hm rfl | apply groupClock_kept | apply groupPush_kept | apply sampleLoss_kept)
    | intro _
    | dsimp only
    | split

theorem chanDrop_kept {m : Nat} {og s : State} (h : Kept m og s) (hm : 0x10003008 &&& m = 0x10003008) : ∀ a2 a3 a4 a5 a6 a7 a8, Kept m og (chanDrop s a2 a3 a4 a5 a6 a7 a8) := by
  intro a2 a3 a4 a5 a6 a7 a8
  unfold chanDrop
  repeat' first
    | (with_reducible first | assumption | exact mask_sub hm rfl | apply modCh_kept | apply dropDeclare_kept)
    | intro _
    | dsimp only
    | split

theorem chanFront_kept {m : Nat} {og s : State} (h : Kept m og s) (hm : 0x10003008 &&& m = 0x10003008) : ∀ a2 a3 a4, Kept m og (chanFront s a2 a3 a4) := by
  intro a2 a3 a4
  unfold chanFront
  repeat' first
    | (with_reducible first | assumption | exact mask_sub hm rfl | apply count_kept | apply fset_kept | apply modCh_kept | apply fput_kept | apply gainUpdate_kept | apply dropEnd_kept | apply groupPush_kept | apply chanDrop_kept | apply groupClock_kept | apply loopMeasure_kept)
    | intro _
    | dsimp only
    | split

theorem headGroup_kept {m : Nat} {og s : State} (h : Kept m og s) (hm : 0x30003008 &&& m = 0x30003008) : ∀ a2 a3, Kept m og (headGroup s a2 a3) := by
  intro a2 a3
  unfold headGroup
  extract_lets +onlyGivenNames s1
  have k_s1 : Kept m og s1 := by
    dsimp only [s1]
    repeat' first
      | (with_reducible first | assumption | exact mask_sub hm rfl | apply forEach_kept | apply chanLost_kept | apply chanFront_kept | apply chanBack_kept)
      | intro _
      | dsimp only
      | (with_reducible first | apply getD_kept)
      | split
  clear_value s1
  repeat' first
    | (with_reducible first | assumption | exact mask_sub hm rfl | apply forEach_kept | apply chanLost_kept | apply chanFront_kept | apply chanBack_kept)
    | intro _
    | dsimp only
    | (with_reducible first | apply getD_kept)
    | split

theorem rfServe_kept {m : Nat} {og s : State} (h : Kept m og s) (hm : 0x30003008 &&& m = 0x30003008) : ∀ a2, Kept m og (rfServe s a2) := by
  intro a2
  unfold rfServe
  repeat' first
    | (with_reducible first | assumption | exact mask_sub hm rfl | apply headGroup_kept | apply modHb_kept)
    | intro _
    | dsimp only
    | split

theorem rfSampleGroup_kept {m : Nat} {og s : State} (h : Kept m og s) (hm : 0x30003008 &&& m = 0x30003008) : ∀ a2 a3 a4, Kept m og (rfSampleGroup s a2 a3 a4) := by
  intro a2 a3 a4
  unfold rfSampleGroup
  repeat' first
    | (with_reducible first | assumption | exact mask_sub hm rfl | apply forEach_kept | apply modHb_kept | apply rfServe_kept)
    | intro _
    | dsimp only
    | split

theorem execRfSampleGroup_kept {s t : State} {a1 a2 a3 a4 a5 a6} (e : execRfSampleGroup a1 a2 a3 a4 a5 a6 s = .next t) : Kept 0x30003008 s t := by
  have h := Kept.same 0x30003008 s
  have hm := Nat.and_self 0x30003008
  refine next_kept e ?_
  repeat' first
    | (with_reducible first | assumption | exact mask_sub hm rfl | apply rfSampleGroup_kept)
    | intro _
    | dsimp only

end Machine
end Sys2Proof
end

