-- ==== Sys2Proof/Laws/KeptReadChannel.lean ====
section
/-! SUPPORT. What the operations of Machine/ReadChannel.lean keep (Laws/Keeps.lean). -/

namespace Sys2Proof
namespace Machine

theorem samMiss_kept {m : Nat} {og s : State} (h : Kept m og s) (hm : 0x10003008 &&& m = 0x10003008) : ∀ a2, Kept m og (samMiss s a2) := by
  intro a2
  unfold samMiss
  extract_lets +onlyGivenNames q s1
  try clear_value q
  have k_s1 : Kept m og s1 := by
    dsimp only [s1]
    repeat' first
      | (with_reducible first | assumption | exact mask_sub hm rfl | apply count_kept | apply fset_kept | apply modCh_kept | apply fclr_kept)
      | intro _
      | dsimp only
      | split
  clear_value s1
  repeat' first
    | (with_reducible first | assumption | exact mask_sub hm rfl | apply count_kept | apply fset_kept | apply modCh_kept | apply fclr_kept)
    | intro _
    | dsimp only
    | split

theorem wedgeCount_kept {m : Nat} {og s : State} (h : Kept m og s) (hm : 0x10003008 &&& m = 0x10003008) : ∀ a2 a3, Kept m og (wedgeCount s a2 a3) := by
  intro a2 a3
  unfold wedgeCount
  extract_lets +onlyGivenNames q
  try clear_value q
  repeat' first
    | (with_reducible first | assumption | exact mask_sub hm rfl | apply modCh_kept | apply count_kept | apply fset_kept | apply samMiss_kept)
    | intro _
    | dsimp only
    | split

theorem wedgeShow_kept {m : Nat} {og s : State} (h : Kept m og s) (hm : 0x8 &&& m = 0x8) : ∀ a2 a3, Kept m og (wedgeShow s a2 a3) := by
  intro a2 a3
  unfold wedgeShow
  repeat' first
    | (with_reducible first | assumption | exact mask_sub hm rfl | apply fputInt_kept | apply fputB_kept | apply fput_kept)
    | intro _
    | dsimp only

theorem wedgePass_kept {m : Nat} {og s : State} (h : Kept m og s) (hm : 0x10003008 &&& m = 0x10003008) : ∀ a2 a3, Kept m og (wedgePass s a2 a3) := by
  intro a2 a3
  unfold wedgePass
  extract_lets +onlyGivenNames q f s1 r period s2
  try clear_value q
  try clear_value f
  have k_s1 : Kept m og s1 := by
    dsimp only [s1]
    repeat' first
      | (with_reducible first | assumption | exact mask_sub hm rfl | apply wedgeCount_kept | apply wedgeShow_kept | apply modCh_kept | apply spliceCheck_kept)
      | intro _
      | dsimp only
      | split
  clear_value s1
  try clear_value r
  try clear_value period
  have k_s2 : Kept m og s2 := by
    dsimp only [s2]
    repeat' first
      | (with_reducible first | assumption | exact mask_sub hm rfl | apply wedgeCount_kept | apply wedgeShow_kept | apply modCh_kept | apply spliceCheck_kept)
      | intro _
      | dsimp only
      | split
  clear_value s2
  repeat' first
    | (with_reducible first | assumption | exact mask_sub hm rfl | apply wedgeCount_kept | apply wedgeShow_kept | apply modCh_kept | apply spliceCheck_kept)
    | intro _
    | dsimp only
    | split

theorem applyPend_kept {m : Nat} {og s : State} (h : Kept m og s) (hm : 0x18 &&& m = 0x18) : ∀ a2, Kept m og (applyPend s a2) := by
  intro a2
  unfold applyPend
  repeat' first
    | (with_reducible first | assumption | exact mask_sub hm rfl | apply forEach_kept | apply wr_kept)
    | intro _
    | dsimp only
    | (with_reducible first | apply kept_pend)

theorem applyDue_kept {m : Nat} {og s : State} (h : Kept m og s) (hm : 0x8 &&& m = 0x8) : ∀ a2, Kept m og (applyDue s a2) := by
  intro a2
  unfold applyDue
  repeat' first
    | (with_reducible first | assumption | exact mask_sub hm rfl | apply forEach_kept | apply wr_kept)
    | intro _
    | dsimp only

theorem pendShow_kept {m : Nat} {og s : State} (h : Kept m og s) (hm : 0x8 &&& m = 0x8) : ∀ a2, Kept m og (pendShow s a2) := by
  intro a2
  unfold pendShow
  repeat' first
    | (with_reducible first | assumption | exact mask_sub hm rfl | apply fputB_kept)
    | intro _
    | dsimp only

theorem chanBoundary_kept {m : Nat} {og s : State} (h : Kept m og s) (hm : 0x10000018 &&& m = 0x10000018) : ∀ a2, Kept m og (chanBoundary s a2) := by
  intro a2
  unfold chanBoundary
  extract_lets +onlyGivenNames mine s1 all
  try clear_value mine
  have k_s1 : Kept m og s1 := by
    dsimp only [s1]
    repeat' first
      | (with_reducible first | assumption | exact mask_sub hm rfl | apply pendShow_kept | apply applyDue_kept | apply modCh_kept)
      | intro _
      | dsimp only
      | (with_reducible first | apply foldl_kept | apply foldlFst_kept)
      | split
      | (with_reducible first | apply kept_pend)
  clear_value s1
  try clear_value all
  repeat' first
    | (with_reducible first | assumption | exact mask_sub hm rfl | apply pendShow_kept | apply applyDue_kept | apply modCh_kept)
    | intro _
    | dsimp only
    | (with_reducible first | apply foldl_kept | apply foldlFst_kept)
    | split
    | (with_reducible first | apply kept_pend)

theorem chanDue_kept {m : Nat} {og s : State} (h : Kept m og s) (hm : 0x10000008 &&& m = 0x10000008) : ∀ a2, Kept m og (chanDue s a2) := by
  intro a2
  unfold chanDue
  repeat' first
    | (with_reducible first | assumption | exact mask_sub hm rfl | apply pendShow_kept | apply applyDue_kept | apply modCh_kept)
    | intro _
    | dsimp only
    | split

theorem showDescriptor_kept {m : Nat} {og s : State} (h : Kept m og s) (hm : 0x8 &&& m = 0x8) : ∀ a2 a3 a4 a5 a6 a7 a8, Kept m og (showDescriptor s a2 a3 a4 a5 a6 a7 a8) := by
  intro a2 a3 a4 a5 a6 a7 a8
  unfold showDescriptor
  repeat' first
    | (with_reducible first | assumption | exact mask_sub hm rfl | apply wr_kept)
    | intro _
    | dsimp only

theorem slotArm_kept {m : Nat} {og s : State} (h : Kept m og s) (hm : 0x90000000 &&& m = 0x90000000) : ∀ a2 a3 a4, Kept m og (slotArm s a2 a3 a4) := by
  intro a2 a3 a4
  unfold slotArm
  repeat' first
    | (with_reducible first | assumption | exact mask_sub hm rfl | apply modCh_kept)
    | intro _
    | dsimp only
    | (with_reducible first | apply kept_packetCtr)

theorem slotNext_kept {m : Nat} {og s : State} (h : Kept m og s) (hm : 0x90000000 &&& m = 0x90000000) : ∀ a2, Kept m og (slotNext s a2) := by
  intro a2
  unfold slotNext
  repeat' first
    | (with_reducible first | assumption | exact mask_sub hm rfl | apply slotArm_kept | apply modCh_kept)
    | intro _
    | dsimp only
    | split

theorem slotQueue_kept {m : Nat} {og s : State} (h : Kept m og s) (hm : 0x90000000 &&& m = 0x90000000) : ∀ a2 a3 a4, Kept m og (slotQueue s a2 a3 a4) := by
  intro a2 a3 a4
  unfold slotQueue
  extract_lets +onlyGivenNames q key
  try clear_value q
  try clear_value key
  repeat' first
    | (with_reducible first | assumption | exact mask_sub hm rfl | apply slotNext_kept | apply modCh_kept | apply slotArm_kept)
    | intro _
    | dsimp only
    | split

theorem packetOut_kept {m : Nat} {og s : State} (h : Kept m og s) (hm : 0x80010011cfd7e30e8 &&& m = 0x80010011cfd7e30e8) : ∀ a2 a3, Kept m og (packetOut s a2 a3) := by
  intro a2 a3
  unfold packetOut
  extract_lets +onlyGivenNames q p s1 s2 s3
  try clear_value q
  try clear_value p
  have k_s1 : Kept m og s1 := by
    dsimp only [s1]
    repeat' first
      | (with_reducible first | assumption | exact mask_sub hm rfl | apply modHb_kept | apply discardSettle_kept | apply modCh_kept | apply slotEnded_kept | apply slotNext_kept | apply chanDue_kept)
      | intro _
      | dsimp only
      | split
      | (with_reducible first | apply kept_packets)
  clear_value s1
  have k_s2 : Kept m og s2 := by
    dsimp only [s2]
    repeat' first
      | (with_reducible first | assumption | exact mask_sub hm rfl | apply modHb_kept | apply discardSettle_kept | apply modCh_kept | apply slotEnded_kept | apply slotNext_kept | apply chanDue_kept)
      | intro _
      | dsimp only
      | split
      | (with_reducible first | apply kept_packets)
  clear_value s2
  have k_s3 : Kept m og s3 := by
    dsimp only [s3]
    repeat' first
      | (with_reducible first | assumption | exact mask_sub hm rfl | apply modHb_kept | apply discardSettle_kept | apply modCh_kept | apply slotEnded_kept | apply slotNext_kept | apply chanDue_kept)
      | intro _
      | dsimp only
      | split
      | (with_reducible first | apply kept_packets)
  clear_value s3
  repeat' first
    | (with_reducible first | assumption | exact mask_sub hm rfl | apply modHb_kept | apply discardSettle_kept | apply modCh_kept | apply slotEnded_kept | apply slotNext_kept | apply chanDue_kept)
    | intro _
    | dsimp only
    | split
    | (with_reducible first | apply kept_packets)

theorem packetAbort_kept {m : Nat} {og s : State} (h : Kept m og s) (hm : 0x80010011cfd7e30e8 &&& m = 0x80010011cfd7e30e8) : ∀ a2, Kept m og (packetAbort s a2) := by
  intro a2
  unfold packetAbort
  extract_lets +onlyGivenNames q
  try clear_value q
  repeat' first
    | (with_reducible first | assumption | exact mask_sub hm rfl | apply count_kept | apply fset_kept | apply packetOut_kept | apply showDescriptor_kept)
    | intro _
    | dsimp only
    | split

theorem packetsAbort_kept {m : Nat} {og s : State} (h : Kept m og s) (hm : 0x80010011cfd7e30e8 &&& m = 0x80010011cfd7e30e8) : ∀ a2, Kept m og (packetsAbort s a2) := by
  intro a2
  unfold packetsAbort
  repeat' first
    | (with_reducible first | assumption | exact mask_sub hm rfl | apply forEach_kept | apply packetAbort_kept)
    | intro _
    | dsimp only

theorem sync1Open_kept {m : Nat} {og s : State} (h : Kept m og s) (hm : 0x80010011cfd7e30e8 &&& m = 0x80010011cfd7e30e8) : ∀ a2, Kept m og (sync1Open s a2) := by
  intro a2
  unfold sync1Open
  extract_lets +onlyGivenNames q
  try clear_value q
  repeat' first
    | (with_reducible first | assumption | exact mask_sub hm rfl | apply modCh_kept | apply slotNext_kept | apply chanDue_kept | apply slotEnded_kept | apply packetAbort_kept)
    | intro _
    | dsimp only
    | split

theorem candRej_kept {m : Nat} {og s : State} (h : Kept m og s) (hm : 0x3008 &&& m = 0x3008) : ∀ a2, Kept m og (candRej s a2) := by
  intro a2
  unfold candRej
  repeat' first
    | (with_reducible first | assumption | exact mask_sub hm rfl | apply count_kept | apply fset_kept)
    | intro _
    | dsimp only

theorem fixA1_kept {m : Nat} {og s : State} (h : Kept m og s) (hm : 0x30003008 &&& m = 0x30003008) : ∀ a2 a3 a4 a5, Kept m og (fixA1 s a2 a3 a4 a5) := by
  intro a2 a3 a4 a5
  unfold fixA1
  extract_lets +onlyGivenNames vals
  try clear_value vals
  repeat' first
    | (with_reducible first | assumption | exact mask_sub hm rfl | apply packetPush_kept | apply modCh_kept)
    | intro _
    | dsimp only

theorem sync1At_kept {m : Nat} {og s : State} (h : Kept m og s) (hm : 0x30003008 &&& m = 0x30003008) : ∀ a2, Kept m og (sync1At s a2) := by
  intro a2
  unfold sync1At
  extract_lets +onlyGivenNames q d dist near s1
  try clear_value q
  try clear_value d
  try clear_value dist
  try clear_value near
  have k_s1 : Kept m og s1 := by
    dsimp only [s1]
    repeat' first
      | (with_reducible first | assumption | exact mask_sub hm rfl | apply modCh_kept | apply fixA1_kept | apply candRej_kept)
      | intro _
      | dsimp only
      | split
  clear_value s1
  repeat' first
    | (with_reducible first | assumption | exact mask_sub hm rfl | apply modCh_kept | apply fixA1_kept | apply candRej_kept)
    | intro _
    | dsimp only
    | split

theorem sync1Scan_kept {m : Nat} {og s : State} (h : Kept m og s) (hm : 0x30003008 &&& m = 0x30003008) : ∀ a2 a3, Kept m og (sync1Scan s a2 a3) := by
  intro a2 a3
  unfold sync1Scan
  repeat' first
    | (with_reducible first | assumption | exact mask_sub hm rfl | apply forEach_kept | apply sync1At_kept)
    | intro _
    | dsimp only
    | split

theorem sync1Match_kept {m : Nat} {og s : State} (h : Kept m og s) (hm : 0x30003008 &&& m = 0x30003008) : ∀ a2 a3, Kept m og (sync1Match s a2 a3) := by
  intro a2 a3
  unfold sync1Match
  repeat' first
    | (with_reducible first | assumption | exact mask_sub hm rfl | apply sync1Scan_kept)
    | intro _
    | dsimp only

theorem sync1End_kept {m : Nat} {og s : State} (h : Kept m og s) (hm : 0x30003008 &&& m = 0x30003008) : ∀ a2, Kept m og (sync1End s a2) := by
  intro a2
  unfold sync1End
  extract_lets +onlyGivenNames s q
  have k_s : Kept m og s := by
    dsimp only [s]
    repeat' first
      | (with_reducible first | assumption | exact mask_sub hm rfl | apply sync1Scan_kept | apply fixA1_kept)
      | intro _
      | dsimp only
      | split
  clear_value s
  try clear_value q
  repeat' first
    | (with_reducible first | assumption | exact mask_sub hm rfl | apply sync1Scan_kept | apply fixA1_kept)
    | intro _
    | dsimp only
    | split

theorem sync2Open_kept {m : Nat} {og s : State} (h : Kept m og s) (hm : 0x10000000 &&& m = 0x10000000) : ∀ a2, Kept m og (sync2Open s a2) := by
  intro a2
  unfold sync2Open
  repeat' first
    | (with_reducible first | assumption | exact mask_sub hm rfl | apply modCh_kept)
    | intro _
    | dsimp only
    | split

theorem sync2End_kept {m : Nat} {og s : State} (h : Kept m og s) (hm : 0x10003008 &&& m = 0x10003008) : ∀ a2, Kept m og (sync2End s a2) := by
  intro a2
  unfold sync2End
  extract_lets +onlyGivenNames q
  try clear_value q
  repeat' first
    | (with_reducible first | assumption | exact mask_sub hm rfl | apply modCh_kept | apply candRej_kept | apply trSlip_kept | apply count_kept | apply fset_kept)
    | intro _
    | dsimp only
    | split

theorem syncLost_kept {m : Nat} {og s : State} (h : Kept m og s) (hm : 0x10000008 &&& m = 0x10000008) : ∀ a2 a3, Kept m og (syncLost s a2 a3) := by
  intro a2 a3
  unfold syncLost
  extract_lets +onlyGivenNames run s1
  try clear_value run
  have k_s1 : Kept m og s1 := by
    dsimp only [s1]
    repeat' first
      | (with_reducible first | assumption | exact mask_sub hm rfl | apply modCh_kept | apply fset_kept | apply fclr_kept)
      | intro _
      | dsimp only
      | split
  clear_value s1
  repeat' first
    | (with_reducible first | assumption | exact mask_sub hm rfl | apply modCh_kept | apply fset_kept | apply fclr_kept)
    | intro _
    | dsimp only
    | split

theorem packetComplete_kept {m : Nat} {og s : State} (h : Kept m og s) (hm : 0x80010011cfd7e30e8 &&& m = 0x80010011cfd7e30e8) : ∀ a2, Kept m og (packetComplete s a2) := by
  intro a2
  unfold packetComplete
  extract_lets +onlyGivenNames q
  try clear_value q
  repeat' first
    | (with_reducible first | assumption | exact mask_sub hm rfl | apply packetOut_kept | apply syncLost_kept | apply showDescriptor_kept)
    | intro _
    | dsimp only
    | split

theorem execSync1WindowOpen_kept {s t : State} {a1} (e : execSync1WindowOpen a1 s = .next t) : Kept 0x80010011cfd7e30e8 s t := by
  have h := Kept.same 0x80010011cfd7e30e8 s
  have hm := Nat.and_self 0x80010011cfd7e30e8
  refine next_kept e ?_
  repeat' first
    | (with_reducible first | assumption | exact mask_sub hm rfl | apply sync1Open_kept)
    | intro _
    | dsimp only

theorem execSync1Match_kept {s t : State} {a1 a2} (e : execSync1Match a1 a2 s = .next t) : Kept 0x30003008 s t := by
  have h := Kept.same 0x30003008 s
  have hm := Nat.and_self 0x30003008
  refine next_kept e ?_
  repeat' first
    | (with_reducible first | assumption | exact mask_sub hm rfl | apply sync1Match_kept)
    | intro _
    | dsimp only

theorem execSync1WindowEnd_kept {s t : State} {a1} (e : execSync1WindowEnd a1 s = .next t) : Kept 0x30003008 s t := by
  have h := Kept.same 0x30003008 s
  have hm := Nat.and_self 0x30003008
  refine next_kept e ?_
  repeat' first
    | (with_reducible first | assumption | exact mask_sub hm rfl | apply sync1End_kept)
    | intro _
    | dsimp only

theorem execSync2WindowOpen_kept {s t : State} {a1} (e : execSync2WindowOpen a1 s = .next t) : Kept 0x10000000 s t := by
  have h := Kept.same 0x10000000 s
  have hm := Nat.and_self 0x10000000
  refine next_kept e ?_
  repeat' first
    | (with_reducible first | assumption | exact mask_sub hm rfl | apply sync2Open_kept)
    | intro _
    | dsimp only

theorem execSync2WindowEnd_kept {s t : State} {a1 a2} (e : execSync2WindowEnd a1 a2 s = .next t) : Kept 0x10003008 s t := by
  have h := Kept.same 0x10003008 s
  have hm := Nat.and_self 0x10003008
  refine next_kept e ?_
  repeat' first
    | (with_reducible first | assumption | exact mask_sub hm rfl | apply sync2End_kept)
    | intro _
    | dsimp only

theorem rcEnable_kept {m : Nat} {og s : State} (h : Kept m og s) (hm : 0x80010011cfd7e30e8 &&& m = 0x80010011cfd7e30e8) : ∀ a2 a3, Kept m og (rcEnable s a2 a3) := by
  intro a2 a3
  unfold rcEnable
  repeat' first
    | (with_reducible first | assumption | exact mask_sub hm rfl | apply fputB_kept | apply gainInit_kept | apply modCh_kept | apply packetsAbort_kept)
    | intro _
    | dsimp only
    | split

theorem fineEstimate_kept {m : Nat} {og s : State} (h : Kept m og s) (hm : 0x10010008 &&& m = 0x10010008) : ∀ a2, Kept m og (fineEstimate s a2) := by
  intro a2
  unfold fineEstimate
  repeat' first
    | (with_reducible first | assumption | exact mask_sub hm rfl | apply fputInt_kept | apply fputB_kept | apply tickFree_kept | apply forEach_kept | apply modCh_kept)
    | intro _
    | dsimp only
    | split

theorem execFineEstimate_kept {s t : State} {a1 a2 a3} (e : execFineEstimate a1 a2 a3 s = .next t) : Kept 0x10010008 s t := by
  have h := Kept.same 0x10010008 s
  have hm := Nat.and_self 0x10010008
  refine next_kept e ?_
  repeat' first
    | (with_reducible first | assumption | exact mask_sub hm rfl | apply fineEstimate_kept)
    | intro _
    | dsimp only

end Machine
end Sys2Proof
end

