-- ==== Sys2Proof/Laws/KeptDecoder.lean ====
section
/-! SUPPORT. What the operations of Machine/Decoder.lean keep (Laws/Keeps.lean). -/

namespace Sys2Proof
namespace Machine

theorem modSlice_kept {m : Nat} {og s : State} (h : Kept m og s) (hm : 0x100000000 &&& m = 0x100000000) : ∀ a2 a3, Kept m og (modSlice s a2 a3) := by
  intro a2 a3
  unfold modSlice
  repeat' first
    | (with_reducible first | assumption | exact mask_sub hm rfl)
    | intro _
    | dsimp only
    | (with_reducible first | apply kept_slices)

theorem cutPacket_kept {m : Nat} {og s : State} (h : Kept m og s) (hm : 0x8001001186d7f30e8 &&& m = 0x8001001186d7f30e8) : ∀ a2, Kept m og (cutPacket s a2) := by
  intro a2
  unfold cutPacket
  repeat' first
    | (with_reducible first | assumption | exact mask_sub hm rfl | apply sectorOut_kept | apply tickFree_kept)
    | intro _
    | dsimp only
    | split
    | dsimp only [id]
    | (with_reducible first | apply kept_packets_decDrop)

theorem cutWriting_kept {m : Nat} {og s : State} (h : Kept m og s) (hm : 0x8001001102d7e30e8 &&& m = 0x8001001102d7e30e8) : ∀ a2, Kept m og (cutWriting s a2) := by
  intro a2
  unfold cutWriting
  repeat' first
    | (with_reducible first | assumption | exact mask_sub hm rfl | apply sif_kept | apply modWc_kept | apply sectorOut_kept)
    | intro _
    | dsimp only
    | split

theorem cutBuf_kept {m : Nat} {og s : State} (h : Kept m og s) (hm : 0x8001001186d7f30e8 &&& m = 0x8001001186d7f30e8) : ∀ a2, Kept m og (cutBuf s a2) := by
  intro a2
  unfold cutBuf
  repeat' first
    | (with_reducible first | assumption | exact mask_sub hm rfl | apply cutWriting_kept | apply cutPacket_kept)
    | intro _
    | dsimp only
    | split

theorem sliceGive_kept {m : Nat} {og s : State} (h : Kept m og s) (hm : 0x300000000 &&& m = 0x300000000) : ∀ a2, Kept m og (sliceGive s a2) := by
  intro a2
  unfold sliceGive
  repeat' first
    | (with_reducible first | assumption | exact mask_sub hm rfl | apply modSlice_kept)
    | intro _
    | dsimp only
    | split
    | (with_reducible first | apply kept_decWait)

theorem sliceTake_kept {m : Nat} {og s : State} (h : Kept m og s) (hm : 0x80010011f6d7f30e8 &&& m = 0x80010011f6d7f30e8) : ∀ a2, Kept m og (sliceTake s a2) := by
  intro a2
  unfold sliceTake
  repeat' first
    | (with_reducible first | assumption | exact mask_sub hm rfl | apply discardSettle_kept | apply sliceGive_kept | apply modSlice_kept | apply cutPacket_kept)
    | intro _
    | dsimp only
    | split
    | (with_reducible first | apply kept_decDiscard | apply kept_decWait)

theorem execSliceAssign_kept {s t : State} {a1} (e : execSliceAssign a1 s = .next t) : Kept 0x80010011f6d7f30e8 s t := by
  have h := Kept.same 0x80010011f6d7f30e8 s
  have hm := Nat.and_self 0x80010011f6d7f30e8
  refine next_kept e ?_
  repeat' first
    | (with_reducible first | assumption | exact mask_sub hm rfl | apply sliceTake_kept)
    | intro _
    | dsimp only
    | split

theorem sliceFreed_kept {m : Nat} {og s : State} (h : Kept m og s) (hm : 0x300000000 &&& m = 0x300000000) : ∀ a2, Kept m og (sliceFreed s a2) := by
  intro a2
  unfold sliceFreed
  repeat' first
    | (with_reducible first | assumption | exact mask_sub hm rfl | apply sliceGive_kept | apply modSlice_kept)
    | intro _
    | dsimp only
    | split

theorem execSliceBufferFreed_kept {s t : State} {a1} (e : execSliceBufferFreed a1 s = .next t) : Kept 0x300000000 s t := by
  have h := Kept.same 0x300000000 s
  have hm := Nat.and_self 0x300000000
  refine next_kept e ?_
  repeat' first
    | (with_reducible first | assumption | exact mask_sub hm rfl | apply sliceFreed_kept)
    | intro _
    | dsimp only

theorem sliceRemove_kept {m : Nat} {og s : State} (h : Kept m og s) (hm : 0x80010011f6d7f30e8 &&& m = 0x80010011f6d7f30e8) : ∀ a2, Kept m og (sliceRemove s a2) := by
  intro a2
  unfold sliceRemove
  repeat' first
    | (with_reducible first | assumption | exact mask_sub hm rfl | apply fputAt_kept | apply fputB_kept | apply fset_kept | apply fput_kept | apply forEach_kept | apply modSlice_kept | apply raiseReport_kept | apply cutBuf_kept | apply discardSettle_kept)
    | intro _
    | dsimp only
    | split
    | (with_reducible first | apply kept_decWait_decDiscard)

theorem sliceIterate_kept {m : Nat} {og s : State} (h : Kept m og s) (hm : 0x100000000 &&& m = 0x100000000) : ∀ a2 a3, Kept m og (sliceIterate s a2 a3) := by
  intro a2 a3
  unfold sliceIterate
  repeat' first
    | (with_reducible first | assumption | exact mask_sub hm rfl | apply modSlice_kept)
    | intro _
    | dsimp only
    | split

theorem sliceResult_kept {m : Nat} {og s : State} (h : Kept m og s) (hm : 0x8001001116d7e30e8 &&& m = 0x8001001116d7e30e8) : ∀ a2 a3 a4, Kept m og (sliceResult s a2 a3 a4) := by
  intro a2 a3 a4
  unfold sliceResult
  extract_lets +onlyGivenNames h s1
  try clear_value h
  have k_s1 : Kept m og s1 := by
    dsimp only [s1]
    repeat' first
      | (with_reducible first | assumption | exact mask_sub hm rfl | apply modSlice_kept | apply sectorOut_kept)
      | intro _
      | dsimp only
      | split
      | dsimp only [id]
      | (with_reducible first | apply kept_packets)
  clear_value s1
  repeat' first
    | (with_reducible first | assumption | exact mask_sub hm rfl | apply modSlice_kept | apply sectorOut_kept)
    | intro _
    | dsimp only
    | split
    | dsimp only [id]
    | (with_reducible first | apply kept_packets)

theorem sliceSkip_kept {m : Nat} {og s : State} (h : Kept m og s) (hm : 0x8001001116d7e30e8 &&& m = 0x8001001116d7e30e8) : ∀ a2 a3 a4, Kept m og (sliceSkip s a2 a3 a4) := by
  intro a2 a3 a4
  unfold sliceSkip
  repeat' first
    | (with_reducible first | assumption | exact mask_sub hm rfl | apply sliceResult_kept)
    | intro _
    | dsimp only

theorem decodeStart_kept {m : Nat} {og s : State} (h : Kept m og s) (hm : 0x8001001116d7e30e8 &&& m = 0x8001001116d7e30e8) : ∀ a2, Kept m og (decodeStart s a2) := by
  intro a2
  unfold decodeStart
  repeat' first
    | (with_reducible first | assumption | exact mask_sub hm rfl | apply sliceSkip_kept | apply sliceIterate_kept)
    | intro _
    | dsimp only
    | split
    | dsimp only [id]

theorem execDecodeStart_kept {s t : State} {a1} (e : execDecodeStart a1 s = .next t) : Kept 0x8001001116d7e30e8 s t := by
  have h := Kept.same 0x8001001116d7e30e8 s
  have hm := Nat.and_self 0x8001001116d7e30e8
  refine next_kept e ?_
  repeat' first
    | (with_reducible first | assumption | exact mask_sub hm rfl | apply decodeStart_kept)
    | intro _
    | dsimp only

theorem writeSector_kept {m : Nat} {og s : State} (h : Kept m og s) (hm : 0x800000000057e30e8 &&& m = 0x800000000057e30e8) : ∀ a2 a3 a4, Kept m og (writeSector s a2 a3 a4) := by
  intro a2 a3 a4
  unfold writeSector
  repeat' first
    | (with_reducible first | assumption | exact mask_sub hm rfl | refine memWrite_keq (by assumption) ?_ ?_)
    | intro _
    | dsimp only
    | (with_reducible first | apply getD_kept)
    | split

theorem sectorDecodeDone_kept {m : Nat} {og s : State} (h : Kept m og s) (hm : 0x8001001116d7e30e8 &&& m = 0x8001001116d7e30e8) : ∀ a2, Kept m og (sectorDecodeDone s a2) := by
  intro a2
  unfold sectorDecodeDone
  repeat' first
    | (with_reducible first | assumption | exact mask_sub hm rfl | apply sliceResult_kept | apply writeSector_kept)
    | intro _
    | dsimp only
    | split
    | dsimp only [id]

theorem execSectorDecodeDone_kept {s t : State} {a1} (e : execSectorDecodeDone a1 s = .next t) : Kept 0x8001001116d7e30e8 s t := by
  have h := Kept.same 0x8001001116d7e30e8 s
  have hm := Nat.and_self 0x8001001116d7e30e8
  refine next_kept e ?_
  repeat' first
    | (with_reducible first | assumption | exact mask_sub hm rfl | apply sectorDecodeDone_kept)
    | intro _
    | dsimp only

theorem execPacketComplete_kept {s t : State} {a1} (e : execPacketComplete a1 s = .next t) : Kept 0x80010011cfd7e30e8 s t := by
  have h := Kept.same 0x80010011cfd7e30e8 s
  have hm := Nat.and_self 0x80010011cfd7e30e8
  refine next_kept e ?_
  repeat' first
    | (with_reducible first | assumption | exact mask_sub hm rfl | apply packetComplete_kept)
    | intro _
    | dsimp only

end Machine
end Sys2Proof
end

