-- ==== Sys2Proof/Laws/KeptFabric.lean ====
section
/-! SUPPORT. What the operations of Machine/Fabric.lean keep (Laws/Keeps.lean). -/

namespace Sys2Proof
namespace Machine

theorem hopDrain_kept {m : Nat} {og s : State} (h : Kept m og s) (hm : 0x20000000 &&& m = 0x20000000) : ∀ a2 a3, Kept m og (hopDrain s a2 a3) := by
  intro a2 a3
  unfold hopDrain
  repeat' first
    | (with_reducible first | assumption | exact mask_sub hm rfl | apply modHb_kept)
    | intro _
    | dsimp only
    | split

theorem fabricTransfer_kept {m : Nat} {og s : State} (h : Kept m og s) (hm : 0x20000900 &&& m = 0x20000900) : ∀ a2 a3 a4 a5, Kept m og (fabricTransfer s a2 a3 a4 a5) := by
  intro a2 a3 a4 a5
  unfold fabricTransfer
  repeat' first
    | (with_reducible first | assumption | exact mask_sub hm rfl | apply forEach_kept | apply hopDrain_kept | apply modRbt_kept)
    | intro _
    | dsimp only
    | (with_reducible first | apply kept_links)

theorem execFabricTransfer_kept {s t : State} {a1 a2 a3 a4} (e : execFabricTransfer a1 a2 a3 a4 s = .next t) : Kept 0x20000900 s t := by
  have h := Kept.same 0x20000900 s
  have hm := Nat.and_self 0x20000900
  refine next_kept e ?_
  repeat' first
    | (with_reducible first | assumption | exact mask_sub hm rfl | apply fabricTransfer_kept)
    | intro _
    | dsimp only

theorem rbtApply_kept {m : Nat} {og s : State} (h : Kept m og s) (hm : 0x108 &&& m = 0x108) : ∀ a2, Kept m og (rbtApply s a2) := by
  intro a2
  unfold rbtApply
  extract_lets +onlyGivenNames q s1 s2 s3
  try clear_value q
  have k_s1 : Kept m og s1 := by
    dsimp only [s1]
    repeat' first
      | (with_reducible first | assumption | exact mask_sub hm rfl | apply wr_kept | apply fclr_kept | apply modRbt_kept)
      | intro _
      | dsimp only
      | split
  clear_value s1
  have k_s2 : Kept m og s2 := by
    dsimp only [s2]
    repeat' first
      | (with_reducible first | assumption | exact mask_sub hm rfl | apply wr_kept | apply fclr_kept | apply modRbt_kept)
      | intro _
      | dsimp only
      | split
  clear_value s2
  have k_s3 : Kept m og s3 := by
    dsimp only [s3]
    repeat' first
      | (with_reducible first | assumption | exact mask_sub hm rfl | apply wr_kept | apply fclr_kept | apply modRbt_kept)
      | intro _
      | dsimp only
      | split
  clear_value s3
  repeat' first
    | (with_reducible first | assumption | exact mask_sub hm rfl | apply wr_kept | apply fclr_kept | apply modRbt_kept)
    | intro _
    | dsimp only
    | split

theorem rbtOpen_kept {m : Nat} {og s : State} (h : Kept m og s) (hm : 0x108 &&& m = 0x108) : ∀ a2, Kept m og (rbtOpen s a2) := by
  intro a2
  unfold rbtOpen
  repeat' first
    | (with_reducible first | assumption | exact mask_sub hm rfl | apply modRbt_kept | apply rbtApply_kept)
    | intro _
    | dsimp only
    | split

theorem rbtTake_kept {m : Nat} {og s : State} (h : Kept m og s) (hm : 0x100 &&& m = 0x100) : ∀ a2 a3 a4 a5 a6, Kept m og (rbtTake s a2 a3 a4 a5 a6) := by
  intro a2 a3 a4 a5 a6
  unfold rbtTake
  repeat' first
    | (with_reducible first | assumption | exact mask_sub hm rfl | apply modRbt_kept)
    | intro _
    | dsimp only

theorem rbtSat_kept {m : Nat} {og s : State} (h : Kept m og s) (hm : 0x8 &&& m = 0x8) : ∀ a2, Kept m og (rbtSat s a2) := by
  intro a2
  unfold rbtSat
  repeat' first
    | (with_reducible first | assumption | exact mask_sub hm rfl | apply fset_kept)
    | intro _
    | dsimp only
    | split

theorem rbtGrant_kept {m : Nat} {og s : State} (h : Kept m og s) (hm : 0x108 &&& m = 0x108) : ∀ a2 a3, Kept m og (rbtGrant s a2 a3) := by
  intro a2 a3
  unfold rbtGrant
  extract_lets +onlyGivenNames s1
  have k_s1 : Kept m og s1 := by
    dsimp only [s1]
    repeat' first
      | (with_reducible first | assumption | exact mask_sub hm rfl | apply modRbt_kept | apply rbtOpen_kept | apply rbtSat_kept | apply rbtTake_kept)
      | intro _
      | dsimp only
      | split
  clear_value s1
  repeat' first
    | (with_reducible first | assumption | exact mask_sub hm rfl | apply modRbt_kept | apply rbtOpen_kept | apply rbtSat_kept | apply rbtTake_kept)
    | intro _
    | dsimp only
    | split

theorem execRoundaboutGrant_kept {s t : State} {a1 a2} (e : execRoundaboutGrant a1 a2 s = .next t) : Kept 0x108 s t := by
  have h := Kept.same 0x108 s
  have hm := Nat.and_self 0x108
  refine next_kept e ?_
  repeat' first
    | (with_reducible first | assumption | exact mask_sub hm rfl | apply rbtGrant_kept)
    | intro _
    | dsimp only

theorem rbtConfigWrite_kept {m : Nat} {og s : State} (h : Kept m og s) (hm : 0x188 &&& m = 0x188) : ∀ a2 a3 a4, Kept m og (rbtConfigWrite s a2 a3 a4) := by
  intro a2 a3 a4
  unfold rbtConfigWrite
  repeat' first
    | (with_reducible first | assumption | exact mask_sub hm rfl | apply reply_kept | apply fset_kept | apply wr_kept | apply rbtApply_kept | apply modRbt_kept)
    | intro _
    | dsimp only
    | split

theorem execRbtConfigWrite_kept {s t : State} {a1 a2 a3 a4} (e : execRbtConfigWrite a1 a2 a3 a4 s = .next t) : Kept 0x188 s t := by
  have h := Kept.same 0x188 s
  have hm := Nat.and_self 0x188
  refine next_kept e ?_
  repeat' first
    | (with_reducible first | assumption | exact mask_sub hm rfl | apply rbtConfigWrite_kept)
    | intro _
    | dsimp only

theorem rbtStall_kept {m : Nat} {og s : State} (h : Kept m og s) (hm : 0x4000188 &&& m = 0x4000188) : ∀ a2 a3 a4, Kept m og (rbtStall s a2 a3 a4) := by
  intro a2 a3 a4
  unfold rbtStall
  repeat' first
    | (with_reducible first | assumption | exact mask_sub hm rfl | apply modRbt_kept | apply replyError_kept | apply fset_kept | apply raiseReport_kept)
    | intro _
    | dsimp only
    | split

theorem execRoundaboutStall_kept {s t : State} {a1 a2 a3} (e : execRoundaboutStall a1 a2 a3 s = .next t) : Kept 0x4000188 s t := by
  have h := Kept.same 0x4000188 s
  have hm := Nat.and_self 0x4000188
  refine next_kept e ?_
  repeat' first
    | (with_reducible first | assumption | exact mask_sub hm rfl | apply rbtStall_kept)
    | intro _
    | dsimp only

theorem xingShow_kept {m : Nat} {og s : State} (h : Kept m og s) (hm : 0x8 &&& m = 0x8) : ∀ a2 a3, Kept m og (xingShow s a2 a3) := by
  intro a2 a3
  unfold xingShow
  repeat' first
    | (with_reducible first | assumption | exact mask_sub hm rfl | apply fputAt_kept)
    | intro _
    | dsimp only
    | split

theorem xingEvent_kept {m : Nat} {og s : State} (h : Kept m og s) (hm : 0x8 &&& m = 0x8) : ∀ a2, Kept m og (xingEvent s a2) := by
  intro a2
  unfold xingEvent
  repeat' first
    | (with_reducible first | assumption | exact mask_sub hm rfl | apply fputAt_kept)
    | intro _
    | dsimp only
    | split

theorem clkGoodShow_kept {m : Nat} {og s : State} (h : Kept m og s) (hm : 0x8 &&& m = 0x8) : ∀ a2 a3, Kept m og (clkGoodShow s a2 a3) := by
  intro a2 a3
  unfold clkGoodShow
  repeat' first
    | (with_reducible first | assumption | exact mask_sub hm rfl | apply fputAt_kept)
    | intro _
    | dsimp only
    | split

theorem xingWithdraw_kept {m : Nat} {og s : State} (h : Kept m og s) (hm : 0x208 &&& m = 0x208) : ∀ a2 a3, Kept m og (xingWithdraw s a2 a3) := by
  intro a2 a3
  unfold xingWithdraw
  extract_lets +onlyGivenNames f
  try clear_value f
  repeat' first
    | (with_reducible first | assumption | exact mask_sub hm rfl | apply xingEvent_kept | apply xingShow_kept | apply modXing_kept)
    | intro _
    | dsimp only
    | split
    | (rename_i z; exact z)
    | (simp_all; done)

theorem xingBothReset_kept {m : Nat} {og s : State} (h : Kept m og s) (hm : 0x200 &&& m = 0x200) : ∀ a2, Kept m og (xingBothReset s a2) := by
  intro a2
  unfold xingBothReset
  repeat' first
    | (with_reducible first | assumption | exact mask_sub hm rfl | apply modXing_kept)
    | intro _
    | dsimp only
    | (rename_i z; exact z)
    | (simp_all; done)

theorem xingDown_kept {m : Nat} {og s : State} (h : Kept m og s) (hm : 0x208 &&& m = 0x208) : ∀ a1 a3 a4, Kept m og (xingDown a1 s a3 a4) := by
  intro a1 a3 a4
  unfold xingDown
  repeat' first
    | (with_reducible first | assumption | exact mask_sub hm rfl | apply xingWithdraw_kept | apply xingBothReset_kept)
    | intro _
    | dsimp only
    | split

theorem xingResetAssert_kept {m : Nat} {og s : State} (h : Kept m og s) (hm : 0x208 &&& m = 0x208) : ∀ a2 a3, Kept m og (xingResetAssert s a2 a3) := by
  intro a2 a3
  unfold xingResetAssert
  repeat' first
    | (with_reducible first | assumption | exact mask_sub hm rfl | apply xingDown_kept | apply modXing_kept)
    | intro _
    | dsimp only
    | split
    | (rename_i z; exact z)
    | (simp_all; done)

theorem xingClockFall_kept {m : Nat} {og s : State} (h : Kept m og s) (hm : 0x208 &&& m = 0x208) : ∀ a2, Kept m og (xingClockFall s a2) := by
  intro a2
  unfold xingClockFall
  repeat' first
    | (with_reducible first | assumption | exact mask_sub hm rfl | apply xingDown_kept | apply modXing_kept | apply clkGoodShow_kept)
    | intro _
    | dsimp only
    | split
    | (rename_i z; exact z)
    | (simp_all; done)

theorem xingRelease_kept {m : Nat} {og s : State} (h : Kept m og s) (hm : 0x200 &&& m = 0x200) : ∀ a2, Kept m og (xingRelease s a2) := by
  intro a2
  unfold xingRelease
  extract_lets +onlyGivenNames q
  try clear_value q
  repeat' first
    | (with_reducible first | assumption | exact mask_sub hm rfl | apply modXing_kept)
    | intro _
    | dsimp only
    | split
    | (rename_i z; exact z)
    | (simp_all; done)

theorem xingResetRelease_kept {m : Nat} {og s : State} (h : Kept m og s) (hm : 0x200 &&& m = 0x200) : ∀ a2 a3, Kept m og (xingResetRelease s a2 a3) := by
  intro a2 a3
  unfold xingResetRelease
  repeat' first
    | (with_reducible first | assumption | exact mask_sub hm rfl | apply xingRelease_kept | apply modXing_kept)
    | intro _
    | dsimp only
    | split
    | (rename_i z; exact z)
    | (simp_all; done)

theorem xingClockRise_kept {m : Nat} {og s : State} (h : Kept m og s) (hm : 0x208 &&& m = 0x208) : ∀ a2, Kept m og (xingClockRise s a2) := by
  intro a2
  unfold xingClockRise
  repeat' first
    | (with_reducible first | assumption | exact mask_sub hm rfl | apply xingRelease_kept | apply modXing_kept | apply clkGoodShow_kept)
    | intro _
    | dsimp only
    | split
    | (rename_i z; exact z)
    | (simp_all; done)

theorem xingRearm_kept {m : Nat} {og s : State} (h : Kept m og s) (hm : 0x208 &&& m = 0x208) (x : Fin 52)
    (hx : xingPresent s.variant x.val = true ∨ s.xing[x].st ≠ .withdrawn) : Kept m og (xingRearm s x) := by
  unfold xingRearm
  refine xingShow_kept (modXing_kept h (mask_sub hm rfl) _ _ ?_) (mask_sub hm rfl) _ _
  intro ha hw
  rcases hx with hx | hx
  · rw [ha] at hx
    cases hx
  · exact absurd hw hx

theorem xingTry_kept {m : Nat} {og s : State} (h : Kept m og s) (hm : 0x208 &&& m = 0x208) (x : Fin 52) : Kept m og (xingTry s x) := by
  unfold xingTry
  split
  · rename_i q
    refine xingRearm_kept h (mask_sub hm rfl) _ (.inr ?_)
    rw [q.1]
    intro k
    cases k
  · exact h

theorem xingSideReady_kept {m : Nat} {og s : State} (h : Kept m og s) (hm : 0x208 &&& m = 0x208) : ∀ a2 a3, Kept m og (xingSideReady s a2 a3) := by
  intro a2 a3
  unfold xingSideReady
  repeat' first
    | (with_reducible first | assumption | exact mask_sub hm rfl | apply xingTry_kept | apply modXing_kept)
    | intro _
    | dsimp only
    | split
    | (rename_i z; exact z)
    | (simp_all; done)

theorem xingDeliver_kept {m : Nat} {og s : State} (h : Kept m og s) (hm : 0x208 &&& m = 0x208) : ∀ a2, Kept m og (xingDeliver s a2) := by
  intro a2
  unfold xingDeliver
  repeat' first
    | (with_reducible first | assumption | exact mask_sub hm rfl | apply xingTry_kept | apply modXing_kept)
    | intro _
    | dsimp only
    | (rename_i z; exact z)
    | (simp_all; done)

theorem execCrossingResetRelease_kept {s t : State} {a1 a2} (e : execCrossingResetRelease a1 a2 s = .next t) : Kept 0x200 s t := by
  have h := Kept.same 0x200 s
  have hm := Nat.and_self 0x200
  refine next_kept e ?_
  repeat' first
    | (with_reducible first | assumption | exact mask_sub hm rfl | apply xingResetRelease_kept)
    | intro _
    | dsimp only

theorem xingHold_st (side : Side) (tag : Nat) (awaits : Bool) (q : Xing) : (xingHold side tag awaits q).st = q.st := by
  cases side <;> rfl

theorem xingPass_st (side : Side) (tag : Nat) (awaits : Bool) (q : Xing) : (xingPass side tag awaits q).st = q.st := by
  cases side <;> rfl

theorem xingRequest_kept {m : Nat} {og s : State} (h : Kept m og s) (hm : 0x280 &&& m = 0x280) (x : Fin 52) (side : Side) (tag : Nat)
    (awaits : Bool) : Kept m og (xingRequest s x side tag awaits) := by
  unfold xingRequest
  refine ite_kept h (ite_kept (modXing_kept h (mask_sub hm rfl) _ _ ?_) (ite_kept (reply_kept (modXing_kept h (mask_sub hm rfl) _ _ ?_)
    (mask_sub hm rfl) _ _ _) (reply_kept (modXing_kept h (mask_sub hm rfl) _ _ (fun _ k => k)) (mask_sub hm rfl) _ _ _)))
  · intro _ k
    rw [xingHold_st]
    exact k
  · intro _ k
    rw [xingPass_st]
    exact k

theorem execCrossingRequest_kept {s t : State} {a1 a2 a3 a4} (e : execCrossingRequest a1 a2 a3 a4 s = .next t) : Kept 0x280 s t := by
  have h := Kept.same 0x280 s
  have hm := Nat.and_self 0x280
  refine next_kept e ?_
  repeat' first
    | (with_reducible first | assumption | exact mask_sub hm rfl | apply xingRequest_kept)
    | intro _
    | dsimp only

theorem paceShowTargets_kept {m : Nat} {og s : State} (h : Kept m og s) (hm : 0x8 &&& m = 0x8) : ∀ a2, Kept m og (paceShowTargets s a2) := by
  intro a2
  unfold paceShowTargets
  repeat' first
    | (with_reducible first | assumption | exact mask_sub hm rfl | apply forEach_kept | apply fput_kept)
    | intro _
    | dsimp only
    | split

theorem paceRateRead_kept {m : Nat} {og s : State} (h : Kept m og s) (hm : 0x88 &&& m = 0x88) : ∀ a2, Kept m og (paceRateRead s a2) := by
  intro a2
  unfold paceRateRead
  extract_lets +onlyGivenNames v
  try clear_value v
  repeat' first
    | (with_reducible first | assumption | exact mask_sub hm rfl | apply reply_kept | apply fput_kept)
    | intro _
    | dsimp only
    | split

theorem execPaceRateRead_kept {s t : State} {a1 a2} (e : execPaceRateRead a1 a2 s = .next t) : Kept 0x88 s t := by
  have h := Kept.same 0x88 s
  have hm := Nat.and_self 0x88
  refine next_kept e ?_
  repeat' first
    | (with_reducible first | assumption | exact mask_sub hm rfl | apply paceRateRead_kept)
    | intro _
    | dsimp only

theorem permitDeny_kept {m : Nat} {og s : State} (h : Kept m og s) (hm : 0x8 &&& m = 0x8) : ∀ a2 a3, Kept m og (permitDeny s a2 a3) := by
  intro a2 a3
  unfold permitDeny
  repeat' first
    | (with_reducible first | assumption | exact mask_sub hm rfl | apply fput_kept | apply fset_kept)
    | intro _
    | dsimp only

theorem permitClaim_kept {m : Nat} {og s : State} (h : Kept m og s) (hm : 0x8 &&& m = 0x8) : ∀ a2 a3 a4, Kept m og (permitClaim s a2 a3 a4) := by
  intro a2 a3 a4
  unfold permitClaim
  repeat' first
    | (with_reducible first | assumption | exact mask_sub hm rfl | apply fput_kept | apply permitDeny_kept)
    | intro _
    | dsimp only
    | split

theorem permitRelease_kept {m : Nat} {og s : State} (h : Kept m og s) (hm : 0x8 &&& m = 0x8) : ∀ a2 a3, Kept m og (permitRelease s a2 a3) := by
  intro a2 a3
  unfold permitRelease
  repeat' first
    | (with_reducible first | assumption | exact mask_sub hm rfl | apply fput_kept | apply permitDeny_kept)
    | intro _
    | dsimp only
    | split

theorem execPermitClaim_kept {s t : State} {a1 a2 a3} (e : execPermitClaim a1 a2 a3 s = .next t) : Kept 0x88 s t := by
  have h := Kept.same 0x88 s
  have hm := Nat.and_self 0x88
  refine next_kept e ?_
  repeat' first
    | (with_reducible first | assumption | exact mask_sub hm rfl | apply reply_kept | apply permitClaim_kept)
    | intro _
    | dsimp only
    | dsimp only [id]

theorem execPermitRelease_kept {s t : State} {a1 a2} (e : execPermitRelease a1 a2 s = .next t) : Kept 0x88 s t := by
  have h := Kept.same 0x88 s
  have hm := Nat.and_self 0x88
  refine next_kept e ?_
  repeat' first
    | (with_reducible first | assumption | exact mask_sub hm rfl | apply reply_kept | apply permitRelease_kept)
    | intro _
    | dsimp only
    | dsimp only [id]

end Machine
end Sys2Proof
end

