-- ==== Sys2Proof/Laws/KeptTileCode.lean ====
section
/-! SUPPORT. What the operations of Machine/TileCode.lean keep (Laws/Keeps.lean). -/

namespace Sys2Proof
namespace Machine

theorem showOpen_kept {m : Nat} {og s : State} (h : Kept m og s) (hm : 0x8 &&& m = 0x8) : Kept m og (showOpen s) := by
  unfold showOpen
  repeat' first
    | (with_reducible first | assumption | exact mask_sub hm rfl | apply fput_kept)
    | intro _
    | dsimp only

theorem tileEmit_kept {m : Nat} {og s : State} (h : Kept m og s) (hm : 0x8000000900d7e30e8 &&& m = 0x8000000900d7e30e8) : ∀ a2 a3, Kept m og (tileEmit s a2 a3) := by
  intro a2 a3
  unfold tileEmit
  extract_lets +onlyGivenNames weak rec' s1 s2 s3 s4 notice s5
  try clear_value weak
  try clear_value rec'
  have k_s1 : Kept m og s1 := by
    dsimp only [s1]
    repeat' first
      | (with_reducible first | assumption | exact mask_sub hm rfl | apply fifoPush_kept | apply count_kept | apply sif_kept | apply fset_kept | apply showOpen_kept)
      | intro _
      | dsimp only
      | split
      | dsimp only [id]
      | (with_reducible first | apply kept_tiles | apply kept_weakTiles)
  clear_value s1
  have k_s2 : Kept m og s2 := by
    dsimp only [s2]
    repeat' first
      | (with_reducible first | assumption | exact mask_sub hm rfl | apply fifoPush_kept | apply count_kept | apply sif_kept | apply fset_kept | apply showOpen_kept)
      | intro _
      | dsimp only
      | split
      | dsimp only [id]
      | (with_reducible first | apply kept_tiles | apply kept_weakTiles)
  clear_value s2
  have k_s3 : Kept m og s3 := by
    dsimp only [s3]
    repeat' first
      | (with_reducible first | assumption | exact mask_sub hm rfl | apply fifoPush_kept | apply count_kept | apply sif_kept | apply fset_kept | apply showOpen_kept)
      | intro _
      | dsimp only
      | split
      | dsimp only [id]
      | (with_reducible first | apply kept_tiles | apply kept_weakTiles)
  clear_value s3
  have k_s4 : Kept m og s4 := by
    dsimp only [s4]
    repeat' first
      | (with_reducible first | assumption | exact mask_sub hm rfl | apply fifoPush_kept | apply count_kept | apply sif_kept | apply fset_kept | apply showOpen_kept)
      | intro _
      | dsimp only
      | split
      | dsimp only [id]
      | (with_reducible first | apply kept_tiles | apply kept_weakTiles)
  clear_value s4
  try clear_value notice
  have k_s5 : Kept m og s5 := by
    dsimp only [s5]
    repeat' first
      | (with_reducible first | assumption | exact mask_sub hm rfl | apply fifoPush_kept | apply count_kept | apply sif_kept | apply fset_kept | apply showOpen_kept)
      | intro _
      | dsimp only
      | split
      | dsimp only [id]
      | (with_reducible first | apply kept_tiles | apply kept_weakTiles)
  clear_value s5
  repeat' first
    | (with_reducible first | assumption | exact mask_sub hm rfl | apply fifoPush_kept | apply count_kept | apply sif_kept | apply fset_kept | apply showOpen_kept)
    | intro _
    | dsimp only
    | split
    | dsimp only [id]
    | (with_reducible first | apply kept_tiles | apply kept_weakTiles)

theorem spanEmit_kept {m : Nat} {og s : State} (h : Kept m og s) (hm : 0x8000000d00d7e30e8 &&& m = 0x8000000d00d7e30e8) : ∀ a2 a3, Kept m og (spanEmit s a2 a3) := by
  intro a2 a3
  unfold spanEmit
  extract_lets +onlyGivenNames s1
  have k_s1 : Kept m og s1 := by
    dsimp only [s1]
    repeat' first
      | (with_reducible first | assumption | exact mask_sub hm rfl | apply forEach_kept | apply tileEmit_kept)
      | intro _
      | dsimp only
      | dsimp only [id]
      | (with_reducible first | apply kept_spans)
  clear_value s1
  repeat' first
    | (with_reducible first | assumption | exact mask_sub hm rfl | apply forEach_kept | apply tileEmit_kept)
    | intro _
    | dsimp only
    | dsimp only [id]
    | (with_reducible first | apply kept_spans)

theorem spanSettle_kept {m : Nat} {og s : State} (h : Kept m og s) (hm : 0x8000000d00d7e30e8 &&& m = 0x8000000d00d7e30e8) : ∀ a2, Kept m og (spanSettle s a2) := by
  intro a2
  unfold spanSettle
  repeat' first
    | (with_reducible first | assumption | exact mask_sub hm rfl | apply spanEmit_kept)
    | intro _
    | dsimp only
    | split
    | dsimp only [id]

theorem tileOutcome_kept {m : Nat} {og s : State} (h : Kept m og s) (hm : 0x8000000d00d7e30e8 &&& m = 0x8000000d00d7e30e8) : ∀ a2 a3, Kept m og (tileOutcome s a2 a3) := by
  intro a2 a3
  unfold tileOutcome
  extract_lets +onlyGivenNames t'
  try clear_value t'
  repeat' first
    | (with_reducible first | assumption | exact mask_sub hm rfl | apply tileEmit_kept | apply modTile_kept | apply spanSettle_kept)
    | intro _
    | dsimp only
    | split
    | dsimp only [id]

theorem tileProceed_kept {m : Nat} {og s : State} (h : Kept m og s) (hm : 0x8000000d00d7e30e8 &&& m = 0x8000000d00d7e30e8) : ∀ a2, Kept m og (tileProceed s a2) := by
  intro a2
  unfold tileProceed
  extract_lets +onlyGivenNames f
  try clear_value f
  repeat' first
    | (with_reducible first | assumption | exact mask_sub hm rfl | apply tileOutcome_kept | apply modTile_kept)
    | intro _
    | dsimp only
    | split
    | dsimp only [id]

theorem tileComplete_kept {m : Nat} {og s : State} (h : Kept m og s) (hm : 0x8000000d00d7e30e8 &&& m = 0x8000000d00d7e30e8) : ∀ a2, Kept m og (tileComplete s a2) := by
  intro a2
  unfold tileComplete
  extract_lets +onlyGivenNames t1 mis
  try clear_value t1
  try clear_value mis
  repeat' first
    | (with_reducible first | assumption | exact mask_sub hm rfl | apply tileOutcome_kept | apply tileProceed_kept)
    | intro _
    | dsimp only
    | split

theorem execTileResultsComplete_kept {s t : State} {a1} (e : execTileResultsComplete a1 s = .next t) : Kept 0x8000000d00d7e30e8 s t := by
  have h := Kept.same 0x8000000d00d7e30e8 s
  have hm := Nat.and_self 0x8000000d00d7e30e8
  refine next_kept e ?_
  repeat' first
    | (with_reducible first | assumption | exact mask_sub hm rfl | apply tileComplete_kept)
    | intro _
    | dsimp only
    | split
    | dsimp only [id]

theorem poisonRestart_kept {m : Nat} {og s : State} (h : Kept m og s) (hm : 0x8000000d00d7e30e8 &&& m = 0x8000000d00d7e30e8) : ∀ a2 a3, Kept m og (poisonRestart s a2 a3) := by
  intro a2 a3
  unfold poisonRestart
  extract_lets +onlyGivenNames s1
  have k_s1 : Kept m og s1 := by
    dsimp only [s1]
    repeat' first
      | (with_reducible first | assumption | exact mask_sub hm rfl | apply fset_kept | apply tileProceed_kept)
      | intro _
      | dsimp only
  clear_value s1
  repeat' first
    | (with_reducible first | assumption | exact mask_sub hm rfl | apply fset_kept | apply tileProceed_kept)
    | intro _
    | dsimp only

theorem execTilePoisonRestart_kept {s t : State} {a1 a2} (e : execTilePoisonRestart a1 a2 s = .next t) : Kept 0x8000000d00d7e30e8 s t := by
  have h := Kept.same 0x8000000d00d7e30e8 s
  have hm := Nat.and_self 0x8000000d00d7e30e8
  refine next_kept e ?_
  repeat' first
    | (with_reducible first | assumption | exact mask_sub hm rfl | apply poisonRestart_kept)
    | intro _
    | dsimp only
    | split
    | dsimp only [id]

theorem readSectors_kept {m : Nat} {og s : State} (h : Kept m og s) (hm : 0x800000000047e30e8 &&& m = 0x800000000047e30e8) : ∀ a2 a3, Kept m og (readSectors s a2 a3).1 := by
  intro a2 a3
  unfold readSectors
  repeat' first
    | (with_reducible first | assumption | exact mask_sub hm rfl | apply memRead_kept | refine memRead_keq (by assumption) ?_ ?_)
    | intro _
    | dsimp only
    | (with_reducible first | apply foldl_kept | apply foldlFst_kept)
    | split

theorem readSectors_keq {m : Nat} {og s t : State} {r} {a2 a3} (e : readSectors s a2 a3 = (t, r)) (h : Kept m og s) (hm : 0x800000000047e30e8 &&& m = 0x800000000047e30e8) : Kept m og t := by
  have k := readSectors_kept h hm a2 a3
  rw [e] at k
  exact k

theorem tileDecodeFailed_kept {m : Nat} {og s : State} (h : Kept m og s) (hm : 0x8000000d00d7e30e8 &&& m = 0x8000000d00d7e30e8) : ∀ a2, Kept m og (tileDecodeFailed s a2) := by
  intro a2
  unfold tileDecodeFailed
  extract_lets +onlyGivenNames sus
  try clear_value sus
  repeat' first
    | (with_reducible first | assumption | exact mask_sub hm rfl | apply modTile_kept | apply tileOutcome_kept)
    | intro _
    | dsimp only
    | split
    | dsimp only [id]

theorem tileDecodeDone_kept {m : Nat} {og s : State} (h : Kept m og s) (hm : 0x8000000d00d7e30e8 &&& m = 0x8000000d00d7e30e8) : ∀ a2, Kept m og (tileDecodeDone s a2) := by
  intro a2
  unfold tileDecodeDone
  extract_lets +onlyGivenNames known
  try clear_value known
  repeat' first
    | (with_reducible first | assumption | exact mask_sub hm rfl | apply readSectors_kept | refine readSectors_keq (by assumption) ?_ ?_ | apply poisonRestart_kept | apply tileDecodeFailed_kept | apply forEach_kept | refine memWrite_keq (by assumption) ?_ ?_ | apply sif_kept | apply fset_kept | apply tileOutcome_kept)
    | intro _
    | dsimp only
    | (with_reducible first | apply foldl_kept | apply foldlFst_kept | apply getD_kept)
    | split

theorem execTileDecodeDone_kept {s t : State} {a1} (e : execTileDecodeDone a1 s = .next t) : Kept 0x8000000d00d7e30e8 s t := by
  have h := Kept.same 0x8000000d00d7e30e8 s
  have hm := Nat.and_self 0x8000000d00d7e30e8
  refine next_kept e ?_
  repeat' first
    | (with_reducible first | assumption | exact mask_sub hm rfl | apply tileDecodeDone_kept)
    | intro _
    | dsimp only
    | split
    | dsimp only [id]

theorem execSpanDecodeStart_kept {s t : State} {a1} (e : execSpanDecodeStart a1 s = .next t) : Kept 0x4000000000 s t := by
  have h := Kept.same 0x4000000000 s
  have hm := Nat.and_self 0x4000000000
  refine next_kept e ?_
  repeat' first
    | (with_reducible first | assumption | exact mask_sub hm rfl)
    | intro _
    | dsimp only
    | split
    | dsimp only [id]
    | (with_reducible first | apply kept_spans)

theorem spanAddLoss_kept {m : Nat} {og s : State} (h : Kept m og s) (hm : 0x5000000008 &&& m = 0x5000000008) : ∀ a2 a3 a4, Kept m og (spanAddLoss s a2 a3 a4) := by
  intro a2 a3 a4
  unfold spanAddLoss
  extract_lets +onlyGivenNames s1
  have k_s1 : Kept m og s1 := by
    dsimp only [s1]
    repeat' first
      | (with_reducible first | assumption | exact mask_sub hm rfl | apply fset_kept)
      | intro _
      | dsimp only
      | split
      | dsimp only [id]
      | (with_reducible first | apply kept_tiles_spans)
  clear_value s1
  repeat' first
    | (with_reducible first | assumption | exact mask_sub hm rfl | apply fset_kept)
    | intro _
    | dsimp only
    | split
    | dsimp only [id]
    | (with_reducible first | apply kept_tiles_spans)

theorem execSpanPoison_kept {s t : State} {a1 a2 a3} (e : execSpanPoison a1 a2 a3 s = .next t) : Kept 0x5000000008 s t := by
  have h := Kept.same 0x5000000008 s
  have hm := Nat.and_self 0x5000000008
  refine next_kept e ?_
  repeat' first
    | (with_reducible first | assumption | exact mask_sub hm rfl | apply spanAddLoss_kept)
    | intro _
    | dsimp only
    | split
    | dsimp only [id]

theorem spanRestore_kept {m : Nat} {og s : State} (h : Kept m og s) (hm : 0x800000000057e30e8 &&& m = 0x800000000057e30e8) : ∀ a2 a3, Kept m og (spanRestore s a2 a3).1 := by
  intro a2 a3
  unfold spanRestore
  extract_lets +onlyGivenNames tiles lost targets
  try clear_value tiles
  try clear_value lost
  try clear_value targets
  repeat' first
    | (with_reducible first | assumption | exact mask_sub hm rfl | apply readSectors_kept | refine readSectors_keq (by assumption) ?_ ?_ | apply forEach_kept | refine memWrite_keq (by assumption) ?_ ?_)
    | intro _
    | dsimp only
    | (with_reducible first | apply getD_kept)
    | split
    | dsimp only [id]

theorem spanRestore_keq {m : Nat} {og s t : State} {r} {a2 a3} (e : spanRestore s a2 a3 = (t, r)) (h : Kept m og s) (hm : 0x800000000057e30e8 &&& m = 0x800000000057e30e8) : Kept m og t := by
  have k := spanRestore_kept h hm a2 a3
  rw [e] at k
  exact k

theorem spanRestoreAll_kept {m : Nat} {og s : State} (h : Kept m og s) (hm : 0x800000000057e30e8 &&& m = 0x800000000057e30e8) : ∀ a2 a3, Kept m og (spanRestoreAll s a2 a3).1 := by
  intro a2 a3
  unfold spanRestoreAll
  repeat' first
    | (with_reducible first | assumption | exact mask_sub hm rfl | apply spanRestore_kept | refine spanRestore_keq (by assumption) ?_ ?_)
    | intro _
    | dsimp only
    | (with_reducible first | apply foldl_kept | apply foldlFst_kept)
    | split

theorem spanRestoreAll_keq {m : Nat} {og s t : State} {r} {a2 a3} (e : spanRestoreAll s a2 a3 = (t, r)) (h : Kept m og s) (hm : 0x800000000057e30e8 &&& m = 0x800000000057e30e8) : Kept m og t := by
  have k := spanRestoreAll_kept h hm a2 a3
  rw [e] at k
  exact k

theorem spanDecodeDone_kept {m : Nat} {og s : State} (h : Kept m og s) (hm : 0x8000000d00d7e30e8 &&& m = 0x8000000d00d7e30e8) : ∀ a2, Kept m og (spanDecodeDone s a2) := by
  intro a2
  unfold spanDecodeDone
  extract_lets +onlyGivenNames tooMany
  try clear_value tooMany
  repeat' first
    | (with_reducible first | assumption | exact mask_sub hm rfl | apply spanEmit_kept | apply count_kept | apply fset_kept | apply spanRestoreAll_kept | refine spanRestoreAll_keq (by assumption) ?_ ?_ | apply spanAddLoss_kept)
    | intro _
    | dsimp only
    | split
    | dsimp only [id]
    | (with_reducible first | apply kept_tiles)

theorem execSpanDecodeDone_kept {s t : State} {a1} (e : execSpanDecodeDone a1 s = .next t) : Kept 0x8000000d00d7e30e8 s t := by
  have h := Kept.same 0x8000000d00d7e30e8 s
  have hm := Nat.and_self 0x8000000d00d7e30e8
  refine next_kept e ?_
  repeat' first
    | (with_reducible first | assumption | exact mask_sub hm rfl | apply spanDecodeDone_kept)
    | intro _
    | dsimp only
    | split
    | dsimp only [id]

theorem encodeTile_kept {m : Nat} {og s : State} (h : Kept m og s) (hm : 0x800000000057e30e8 &&& m = 0x800000000057e30e8) : ∀ a2, Kept m og (encodeTile s a2).1 := by
  intro a2
  unfold encodeTile
  repeat' first
    | (with_reducible first | assumption | exact mask_sub hm rfl | apply readSectors_kept | refine readSectors_keq (by assumption) ?_ ?_ | apply forEach_kept | refine memWrite_keq (by assumption) ?_ ?_)
    | intro _
    | dsimp only
    | (with_reducible first | apply getD_kept)
    | split

theorem encodeTile_keq {m : Nat} {og s t : State} {r} {a2} (e : encodeTile s a2 = (t, r)) (h : Kept m og s) (hm : 0x800000000057e30e8 &&& m = 0x800000000057e30e8) : Kept m og t := by
  have k := encodeTile_kept h hm a2
  rw [e] at k
  exact k

theorem encodeSpan_kept {m : Nat} {og s : State} (h : Kept m og s) (hm : 0x800000000057e30e8 &&& m = 0x800000000057e30e8) : ∀ a2, Kept m og (encodeSpan s a2).1 := by
  intro a2
  unfold encodeSpan
  repeat' first
    | (with_reducible first | assumption | exact mask_sub hm rfl | apply readSectors_kept | refine readSectors_keq (by assumption) ?_ ?_ | refine memWrite_keq (by assumption) ?_ ?_)
    | intro _
    | dsimp only
    | (with_reducible first | apply foldl_kept | apply foldlFst_kept | apply getD_kept)
    | split

theorem encodeSpan_keq {m : Nat} {og s t : State} {r} {a2} (e : encodeSpan s a2 = (t, r)) (h : Kept m og s) (hm : 0x800000000057e30e8 &&& m = 0x800000000057e30e8) : Kept m og t := by
  have k := encodeSpan_kept h hm a2
  rw [e] at k
  exact k

theorem closeTiles_kept {m : Nat} {og s : State} (h : Kept m og s) (hm : 0x8000001102d7e30e8 &&& m = 0x8000001102d7e30e8) : Kept m og (closeTiles s) := by
  unfold closeTiles
  repeat' first
    | (with_reducible first | assumption | exact mask_sub hm rfl | apply forEach_kept | apply count_kept | apply modTile_kept | apply stepCheck_kept)
    | intro _
    | dsimp only
    | split
    | dsimp only [id]

end Machine
end Sys2Proof
end

