-- ==== Sys2Proof/Laws/KeptWriteCell.lean ====
section
/-! SUPPORT. What the operations of Machine/WriteCell.lean keep (Laws/Keeps.lean). -/

namespace Sys2Proof
namespace Machine

theorem modSlot_kept {m : Nat} {og s : State} (h : Kept m og s) (hm : 0x10000000000000 &&& m = 0x10000000000000) : ∀ a2 a3 a4, Kept m og (modSlot s a2 a3 a4) := by
  intro a2 a3 a4
  unfold modSlot
  repeat' first
    | (with_reducible first | assumption | exact mask_sub hm rfl | apply modWc_kept)
    | intro _
    | dsimp only
    | (with_reducible first | apply foldl_kept | apply foldlFst_kept)
    | split

theorem cellFill_kept {m : Nat} {og s : State} (h : Kept m og s) (hm : 0x20000000 &&& m = 0x20000000) : ∀ a2, Kept m og (cellFill s a2) := by
  intro a2
  unfold cellFill
  repeat' first
    | (with_reducible first | assumption | exact mask_sub hm rfl | apply modHb_kept)
    | intro _
    | dsimp only

theorem encoderPacket_kept {m : Nat} {og s : State} (h : Kept m og s) (hm : 0x800100000247e30e8 &&& m = 0x800100000247e30e8) : ∀ a2, Kept m og (encoderPacket s a2) := by
  intro a2
  unfold encoderPacket
  repeat' first
    | (with_reducible first | assumption | exact mask_sub hm rfl | apply memRead_kept | refine memRead_keq (by assumption) ?_ ?_ | apply cellFill_kept | apply modSlot_kept)
    | intro _
    | dsimp only
    | split

theorem execEncoderPacket_kept {s t : State} {a1} (e : execEncoderPacket a1 s = .next t) : Kept 0x800100000247e30e8 s t := by
  have h := Kept.same 0x800100000247e30e8 s
  have hm := Nat.and_self 0x800100000247e30e8
  refine next_kept e ?_
  repeat' first
    | (with_reducible first | assumption | exact mask_sub hm rfl | apply encoderPacket_kept)
    | intro _
    | dsimp only

theorem showLatch_kept {m : Nat} {og s : State} (h : Kept m og s) (hm : 0x8 &&& m = 0x8) : ∀ a2 a3, Kept m og (showLatch s a2 a3) := by
  intro a2 a3
  unfold showLatch
  repeat' first
    | (with_reducible first | assumption | exact mask_sub hm rfl | apply fputB_kept)
    | intro _
    | dsimp only

theorem slotStop_kept {m : Nat} {og s : State} (h : Kept m og s) (hm : 0x10000020000000 &&& m = 0x10000020000000) : ∀ a2 a3 a4, Kept m og (slotStop s a2 a3 a4) := by
  intro a2 a3 a4
  unfold slotStop
  extract_lets +onlyGivenNames cut t
  try clear_value cut
  have k_t : Kept m og t := by
    dsimp only [t]
    repeat' first
      | (with_reducible first | assumption | exact mask_sub hm rfl | apply modWc_kept | apply cellFill_kept)
      | intro _
      | dsimp only
      | split
  clear_value t
  repeat' first
    | (with_reducible first | assumption | exact mask_sub hm rfl | apply modWc_kept | apply cellFill_kept)
    | intro _
    | dsimp only
    | split

theorem slotDropSamples_kept {m : Nat} {og s : State} (h : Kept m og s) (hm : 0x10000000000000 &&& m = 0x10000000000000) : ∀ a2, Kept m og (slotDropSamples s a2) := by
  intro a2
  unfold slotDropSamples
  repeat' first
    | (with_reducible first | assumption | exact mask_sub hm rfl | apply modWc_kept)
    | intro _
    | dsimp only

theorem wcInhibit_kept {m : Nat} {og s : State} (h : Kept m og s) (hm : 0x10000020000008 &&& m = 0x10000020000008) : ∀ a2 a3, Kept m og (wcInhibit s a2 a3) := by
  intro a2 a3
  unfold wcInhibit
  extract_lets +onlyGivenNames s1
  have k_s1 : Kept m og s1 := by
    dsimp only [s1]
    repeat' first
      | (with_reducible first | assumption | exact mask_sub hm rfl | apply fputAt_kept | apply slotStop_kept | apply modWc_kept | apply fset_kept | apply putTime_kept)
      | intro _
      | dsimp only
      | split
  clear_value s1
  repeat' first
    | (with_reducible first | assumption | exact mask_sub hm rfl | apply fputAt_kept | apply slotStop_kept | apply modWc_kept | apply fset_kept | apply putTime_kept)
    | intro _
    | dsimp only
    | split

theorem wcRelease_kept {m : Nat} {og s : State} (h : Kept m og s) (hm : 0x10000000000008 &&& m = 0x10000000000008) : ∀ a2 a3, Kept m og (wcRelease s a2 a3) := by
  intro a2 a3
  unfold wcRelease
  extract_lets +onlyGivenNames s1
  have k_s1 : Kept m og s1 := by
    dsimp only [s1]
    repeat' first
      | (with_reducible first | assumption | exact mask_sub hm rfl | apply modWc_kept | apply showLatch_kept)
      | intro _
      | dsimp only
  clear_value s1
  repeat' first
    | (with_reducible first | assumption | exact mask_sub hm rfl | apply modWc_kept | apply showLatch_kept)
    | intro _
    | dsimp only

theorem wcLive_kept {m : Nat} {og s : State} (h : Kept m og s) (hm : 0x8 &&& m = 0x8) : ∀ a2 a3 a4, Kept m og (wcLive s a2 a3 a4) := by
  intro a2 a3 a4
  unfold wcLive
  repeat' first
    | (with_reducible first | assumption | exact mask_sub hm rfl | apply fputAt_kept)
    | intro _
    | dsimp only

theorem streamLive_kept {m : Nat} {og s : State} (h : Kept m og s) (hm : 0x8 &&& m = 0x8) : ∀ a2, Kept m og (streamLive s a2) := by
  intro a2
  unfold streamLive
  repeat' first
    | (with_reducible first | assumption | exact mask_sub hm rfl | apply wcLive_kept)
    | intro _
    | dsimp only

theorem wcLevel_kept {m : Nat} {og s : State} (h : Kept m og s) (hm : 0x10000020000008 &&& m = 0x10000020000008) : ∀ a2 a3 a4, Kept m og (wcLevel s a2 a3 a4) := by
  intro a2 a3 a4
  unfold wcLevel
  repeat' first
    | (with_reducible first | assumption | exact mask_sub hm rfl | apply wcLive_kept | apply wcInhibit_kept | apply wcRelease_kept)
    | intro _
    | dsimp only
    | split

theorem guardLive_kept {m : Nat} {og s : State} (h : Kept m og s) (hm : 0x8 &&& m = 0x8) : ∀ a2, Kept m og (guardLive s a2) := by
  intro a2
  unfold guardLive
  extract_lets +onlyGivenNames t
  try clear_value t
  repeat' first
    | (with_reducible first | assumption | exact mask_sub hm rfl | apply wcLive_kept)
    | intro _
    | dsimp only

theorem guardTrip_kept {m : Nat} {og s : State} (h : Kept m og s) (hm : 0x10000020003008 &&& m = 0x10000020003008) : ∀ a2 a3 a4, Kept m og (guardTrip s a2 a3 a4) := by
  intro a2 a3 a4
  unfold guardTrip
  repeat' first
    | (with_reducible first | assumption | exact mask_sub hm rfl | apply modWc_kept | apply guardLive_kept | apply count_kept | apply wcInhibit_kept)
    | intro _
    | dsimp only
    | split

theorem execGuardTrip_kept {s t : State} {a1 a2} (e : execGuardTrip a1 a2 s = .next t) : Kept 0x10000020003008 s t := by
  have h := Kept.same 0x10000020003008 s
  have hm := Nat.and_self 0x10000020003008
  refine next_kept e ?_
  repeat' first
    | (with_reducible first | assumption | exact mask_sub hm rfl | apply guardTrip_kept)
    | intro _
    | dsimp only

theorem execGuardReturn_kept {s t : State} {a1 a2} (e : execGuardReturn a1 a2 s = .next t) : Kept 0x10000000000008 s t := by
  have h := Kept.same 0x10000000000008 s
  have hm := Nat.and_self 0x10000000000008
  refine next_kept e ?_
  repeat' first
    | (with_reducible first | assumption | exact mask_sub hm rfl | apply guardLive_kept | apply modWc_kept)
    | intro _
    | dsimp only
    | split

theorem execGuardLatchRelease_kept {s t : State} {a1} (e : execGuardLatchRelease a1 s = .next t) : Kept 0x10000000000008 s t := by
  have h := Kept.same 0x10000000000008 s
  have hm := Nat.and_self 0x10000000000008
  refine next_kept e ?_
  repeat' first
    | (with_reducible first | assumption | exact mask_sub hm rfl | apply wcRelease_kept)
    | intro _
    | dsimp only
    | split

theorem wcSoft_kept {m : Nat} {og s : State} (h : Kept m og s) (hm : 0x10000020000008 &&& m = 0x10000020000008) : ∀ a2 a3, Kept m og (wcSoft s a2 a3) := by
  intro a2 a3
  unfold wcSoft
  repeat' first
    | (with_reducible first | assumption | exact mask_sub hm rfl | apply wcLevel_kept | apply fputB_kept)
    | intro _
    | dsimp only
    | split

theorem execWcInhibitWrite_kept {s t : State} {a1 a2 a3} (e : execWcInhibitWrite a1 a2 a3 s = .next t) : Kept 0x10000020000088 s t := by
  have h := Kept.same 0x10000020000088 s
  have hm := Nat.and_self 0x10000020000088
  refine next_kept e ?_
  repeat' first
    | (with_reducible first | assumption | exact mask_sub hm rfl | apply reply_kept | apply wcSoft_kept)
    | intro _
    | dsimp only

theorem putCurrent_kept {m : Nat} {og s : State} (h : Kept m og s) (hm : 0x8 &&& m = 0x8) : ∀ a2 a3 a4, Kept m og (putCurrent s a2 a3 a4) := by
  intro a2 a3 a4
  unfold putCurrent
  repeat' first
    | (with_reducible first | assumption | exact mask_sub hm rfl | apply sif_kept | apply fput_kept | apply fset_kept)
    | intro _
    | dsimp only

theorem currentsLimit_kept {m : Nat} {og s : State} (h : Kept m og s) (hm : 0x8 &&& m = 0x8) : ∀ a2, Kept m og (currentsLimit s a2) := by
  intro a2
  unfold currentsLimit
  repeat' first
    | (with_reducible first | assumption | exact mask_sub hm rfl | apply forEach_kept | apply putCurrent_kept)
    | intro _
    | dsimp only

theorem wcEnable_kept {m : Nat} {og s : State} (h : Kept m og s) (hm : 0x10000020000008 &&& m = 0x10000020000008) : ∀ a2 a3, Kept m og (wcEnable s a2 a3) := by
  intro a2 a3
  unfold wcEnable
  repeat' first
    | (with_reducible first | assumption | exact mask_sub hm rfl | apply fputB_kept | apply putCurrent_kept | apply modWc_kept | apply fput_kept | apply slotStop_kept)
    | intro _
    | dsimp only
    | split

theorem execWcEnableWrite_kept {s t : State} {a1 a2 a3} (e : execWcEnableWrite a1 a2 a3 s = .next t) : Kept 0x10000020000088 s t := by
  have h := Kept.same 0x10000020000088 s
  have hm := Nat.and_self 0x10000020000088
  refine next_kept e ?_
  repeat' first
    | (with_reducible first | assumption | exact mask_sub hm rfl | apply reply_kept | apply wcEnable_kept)
    | intro _
    | dsimp only

theorem servoLive_kept {m : Nat} {og s : State} (h : Kept m og s) (hm : 0x8 &&& m = 0x8) : ∀ a2, Kept m og (servoLive s a2) := by
  intro a2
  unfold servoLive
  repeat' first
    | (with_reducible first | assumption | exact mask_sub hm rfl | apply wcLive_kept)
    | intro _
    | dsimp only

theorem servoAssert_kept {m : Nat} {og s : State} (h : Kept m og s) (hm : 0x10000020000008 &&& m = 0x10000020000008) : ∀ a2, Kept m og (servoAssert s a2) := by
  intro a2
  unfold servoAssert
  repeat' first
    | (with_reducible first | assumption | exact mask_sub hm rfl | apply forEach_kept | apply servoLive_kept | apply wcInhibit_kept)
    | intro _
    | dsimp only
    | split

theorem servoRelease_kept {m : Nat} {og s : State} (h : Kept m og s) (hm : 0x8 &&& m = 0x8) : ∀ a2, Kept m og (servoRelease s a2) := by
  intro a2
  unfold servoRelease
  repeat' first
    | (with_reducible first | assumption | exact mask_sub hm rfl | apply forEach_kept | apply servoLive_kept)
    | intro _
    | dsimp only
    | split

theorem wcWedgeStatus_kept {m : Nat} {og s : State} (h : Kept m og s) (hm : 0x10000020000008 &&& m = 0x10000020000008) : ∀ a2 a3 a4, Kept m og (wcWedgeStatus s a2 a3 a4) := by
  intro a2 a3 a4
  unfold wcWedgeStatus
  extract_lets +onlyGivenNames s1
  have k_s1 : Kept m og s1 := by
    dsimp only [s1]
    repeat' first
      | (with_reducible first | assumption | exact mask_sub hm rfl | apply wcLive_kept | apply modWc_kept | apply wcInhibit_kept)
      | intro _
      | dsimp only
      | split
  clear_value s1
  repeat' first
    | (with_reducible first | assumption | exact mask_sub hm rfl | apply wcLive_kept | apply modWc_kept | apply wcInhibit_kept)
    | intro _
    | dsimp only
    | split

theorem writeSlotStart_kept {m : Nat} {og s : State} (h : Kept m og s) (hm : 0x100000b0000008 &&& m = 0x100000b0000008) : ∀ a2, Kept m og (writeSlotStart s a2) := by
  intro a2
  unfold writeSlotStart
  repeat' first
    | (with_reducible first | assumption | exact mask_sub hm rfl | apply cellFill_kept | apply modSlot_kept | apply fput_kept | apply modWc_kept | apply slotQueue_kept)
    | intro _
    | dsimp only
    | split

theorem execWriteSlotStart_kept {s t : State} {a1} (e : execWriteSlotStart a1 s = .next t) : Kept 0x100000b0000008 s t := by
  have h := Kept.same 0x100000b0000008 s
  have hm := Nat.and_self 0x100000b0000008
  refine next_kept e ?_
  repeat' first
    | (with_reducible first | assumption | exact mask_sub hm rfl | apply writeSlotStart_kept)
    | intro _
    | dsimp only

theorem writeUnderrun_kept {m : Nat} {og s : State} (h : Kept m og s) (hm : 0x10000020000008 &&& m = 0x10000020000008) : ∀ a2, Kept m og (writeUnderrun s a2) := by
  intro a2
  unfold writeUnderrun
  extract_lets +onlyGivenNames s1
  have k_s1 : Kept m og s1 := by
    dsimp only [s1]
    repeat' first
      | (with_reducible first | assumption | exact mask_sub hm rfl | apply fputAt_kept | apply slotStop_kept | apply streamLive_kept | apply slotDropSamples_kept)
      | intro _
      | dsimp only
  clear_value s1
  repeat' first
    | (with_reducible first | assumption | exact mask_sub hm rfl | apply fputAt_kept | apply slotStop_kept | apply streamLive_kept | apply slotDropSamples_kept)
    | intro _
    | dsimp only

theorem execWriteUnderrun_kept {s t : State} {a1} (e : execWriteUnderrun a1 s = .next t) : Kept 0x10000020000008 s t := by
  have h := Kept.same 0x10000020000008 s
  have hm := Nat.and_self 0x10000020000008
  refine next_kept e ?_
  repeat' first
    | (with_reducible first | assumption | exact mask_sub hm rfl | apply writeUnderrun_kept)
    | intro _
    | dsimp only
    | split

theorem slotRecord_kept {m : Nat} {og s : State} (h : Kept m og s) (hm : 0x8001001002d7e30e8 &&& m = 0x8001001002d7e30e8) : ∀ a2 a3 a4 a5, Kept m og (slotRecord s a2 a3 a4 a5) := by
  intro a2 a3 a4 a5
  unfold slotRecord
  extract_lets +onlyGivenNames s1 s2
  have k_s1 : Kept m og s1 := by
    dsimp only [s1]
    repeat' first
      | (with_reducible first | assumption | exact mask_sub hm rfl | apply fifoPush_kept | apply count_kept | apply slotEnded_kept | apply modWc_kept)
      | intro _
      | dsimp only
      | split
  clear_value s1
  have k_s2 : Kept m og s2 := by
    dsimp only [s2]
    repeat' first
      | (with_reducible first | assumption | exact mask_sub hm rfl | apply fifoPush_kept | apply count_kept | apply slotEnded_kept | apply modWc_kept)
      | intro _
      | dsimp only
      | split
  clear_value s2
  repeat' first
    | (with_reducible first | assumption | exact mask_sub hm rfl | apply fifoPush_kept | apply count_kept | apply slotEnded_kept | apply modWc_kept)
    | intro _
    | dsimp only
    | split

theorem writeSlotEnd_kept {m : Nat} {og s : State} (h : Kept m og s) (hm : 0x8001001002d7e30e8 &&& m = 0x8001001002d7e30e8) : ∀ a2, Kept m og (writeSlotEnd s a2) := by
  intro a2
  unfold writeSlotEnd
  repeat' first
    | (with_reducible first | assumption | exact mask_sub hm rfl | apply sif_kept | apply modWc_kept | apply count_kept | apply cellFill_kept | apply slotDropSamples_kept | apply modSlot_kept | apply streamLive_kept | apply slotRecord_kept)
    | intro _
    | dsimp only
    | split

theorem execWriteSlotEnd_kept {s t : State} {a1} (e : execWriteSlotEnd a1 s = .next t) : Kept 0x8001001002d7e30e8 s t := by
  have h := Kept.same 0x8001001002d7e30e8 s
  have hm := Nat.and_self 0x8001001002d7e30e8
  refine next_kept e ?_
  repeat' first
    | (with_reducible first | assumption | exact mask_sub hm rfl | apply writeSlotEnd_kept)
    | intro _
    | dsimp only

theorem verifyResult_kept {m : Nat} {og s : State} (h : Kept m og s) (hm : 0x8001001002d7e30e8 &&& m = 0x8001001002d7e30e8) : ∀ a2, Kept m og (verifyResult s a2) := by
  intro a2
  unfold verifyResult
  repeat' first
    | (with_reducible first | assumption | exact mask_sub hm rfl | apply slotRecord_kept)
    | intro _
    | dsimp only
    | split

theorem execVerifyResult_kept {s t : State} {a1} (e : execVerifyResult a1 s = .next t) : Kept 0x8001001002d7e30e8 s t := by
  have h := Kept.same 0x8001001002d7e30e8 s
  have hm := Nat.and_self 0x8001001002d7e30e8
  refine next_kept e ?_
  repeat' first
    | (with_reducible first | assumption | exact mask_sub hm rfl | apply verifyResult_kept)
    | intro _
    | dsimp only

theorem verifyLost_kept {m : Nat} {og s : State} (h : Kept m og s) (hm : 0x8001001002d7e30e8 &&& m = 0x8001001002d7e30e8) : ∀ a2, Kept m og (verifyLost s a2) := by
  intro a2
  unfold verifyLost
  repeat' first
    | (with_reducible first | assumption | exact mask_sub hm rfl | apply forEach_kept | apply slotRecord_kept)
    | intro _
    | dsimp only

theorem tableLanded_kept {m : Nat} {og s : State} (h : Kept m og s) (hm : 0x800100000047e30e8 &&& m = 0x800100000047e30e8) : ∀ a2, Kept m og (tableLanded s a2) := by
  intro a2
  unfold tableLanded
  repeat' first
    | (with_reducible first | assumption | exact mask_sub hm rfl | apply streamLive_kept | apply modWc_kept | apply memRead_kept | refine memRead_keq (by assumption) ?_ ?_ | apply fset_kept | apply fclr_kept)
    | intro _
    | dsimp only
    | split

theorem execTableFetchDone_kept {s t : State} {a1} (e : execTableFetchDone a1 s = .next t) : Kept 0x800100000047e30e8 s t := by
  have h := Kept.same 0x800100000047e30e8 s
  have hm := Nat.and_self 0x800100000047e30e8
  refine next_kept e ?_
  repeat' first
    | (with_reducible first | assumption | exact mask_sub hm rfl | apply tableLanded_kept)
    | intro _
    | dsimp only

theorem readPower_kept {m : Nat} {og s : State} (h : Kept m og s) (hm : 0x10000000010008 &&& m = 0x10000000010008) : ∀ a2 a3, Kept m og (readPower s a2 a3) := by
  intro a2 a3
  unfold readPower
  extract_lets +onlyGivenNames w
  try clear_value w
  repeat' first
    | (with_reducible first | assumption | exact mask_sub hm rfl | apply modWc_kept | apply tickFree_kept | apply putCurrent_kept)
    | intro _
    | dsimp only
    | split

theorem mpdTake_kept {m : Nat} {og s : State} (h : Kept m og s) (hm : 0x100000000000008 &&& m = 0x100000000000008) : ∀ a2 a3, Kept m og (mpdTake s a2 a3) := by
  intro a2 a3
  unfold mpdTake
  repeat' first
    | (with_reducible first | assumption | exact mask_sub hm rfl | apply fput_kept)
    | intro _
    | dsimp only
    | (with_reducible first | apply foldl_kept | apply foldlFst_kept)
    | split
    | (with_reducible first | apply kept_cal)

theorem execReadPowerSample_kept {s t : State} {a1 a2} (e : execReadPowerSample a1 a2 s = .next t) : Kept 0x110000000010008 s t := by
  have h := Kept.same 0x110000000010008 s
  have hm := Nat.and_self 0x110000000010008
  refine next_kept e ?_
  repeat' first
    | (with_reducible first | assumption | exact mask_sub hm rfl | apply readPower_kept | apply mpdTake_kept)
    | intro _
    | dsimp only

theorem putWriteCurrents_kept {m : Nat} {og s : State} (h : Kept m og s) (hm : 0x8 &&& m = 0x8) : ∀ a2 a3 a4 a5 a6, Kept m og (putWriteCurrents s a2 a3 a4 a5 a6) := by
  intro a2 a3 a4 a5 a6
  unfold putWriteCurrents
  repeat' first
    | (with_reducible first | assumption | exact mask_sub hm rfl | apply putCurrent_kept)
    | intro _
    | dsimp only

theorem writeLoopUpdate_kept {m : Nat} {og s : State} (h : Kept m og s) (hm : 0x10000000010008 &&& m = 0x10000000010008) : ∀ a2 a3 a4, Kept m og (writeLoopUpdate s a2 a3 a4) := by
  intro a2 a3 a4
  unfold writeLoopUpdate
  extract_lets +onlyGivenNames w g k iB iM d
  try clear_value w
  try clear_value g
  try clear_value k
  try clear_value iB
  try clear_value iM
  try clear_value d
  repeat' first
    | (with_reducible first | assumption | exact mask_sub hm rfl | apply tickFree_kept | apply putWriteCurrents_kept | apply modWc_kept)
    | intro _
    | dsimp only
    | split

theorem groupsUsed_kept {m : Nat} {og s : State} (h : Kept m og s) (hm : 0x10000000000000 &&& m = 0x10000000000000) : ∀ a2, Kept m og (groupsUsed s a2) := by
  intro a2
  unfold groupsUsed
  repeat' first
    | (with_reducible first | assumption | exact mask_sub hm rfl | apply modWc_kept)
    | intro _
    | dsimp only
    | split

theorem writePower_kept {m : Nat} {og s : State} (h : Kept m og s) (hm : 0x10000000010008 &&& m = 0x10000000010008) : ∀ a2 a3 a4, Kept m og (writePower s a2 a3 a4) := by
  intro a2 a3 a4
  unfold writePower
  extract_lets +onlyGivenNames w
  try clear_value w
  repeat' first
    | (with_reducible first | assumption | exact mask_sub hm rfl | apply modWc_kept | apply writeLoopUpdate_kept | apply groupsUsed_kept)
    | intro _
    | dsimp only
    | split

theorem execWritePowerSample_kept {s t : State} {a1 a2 a3} (e : execWritePowerSample a1 a2 a3 s = .next t) : Kept 0x10000000010008 s t := by
  have h := Kept.same 0x10000000010008 s
  have hm := Nat.and_self 0x10000000010008
  refine next_kept e ?_
  repeat' first
    | (with_reducible first | assumption | exact mask_sub hm rfl | apply writePower_kept)
    | intro _
    | dsimp only

end Machine
end Sys2Proof
end

