-- ==== Sys2Proof/Laws/KeptSweepOps.lean ====
section
/-! SUPPORT. What the operations of Machine/SweepOps.lean keep (Laws/Keeps.lean). -/

namespace Sys2Proof
namespace Machine

theorem modPortion_kept {m : Nat} {og s : State} (h : Kept m og s) (hm : 0x20000000 &&& m = 0x20000000) : ∀ a2 a3, Kept m og (modPortion s a2 a3) := by
  intro a2 a3
  unfold modPortion
  repeat' first
    | (with_reducible first | assumption | exact mask_sub hm rfl | apply modHb_kept)
    | intro _
    | dsimp only

theorem spanReached_kept {m : Nat} {og s : State} (h : Kept m og s) (hm : 0x8000000d00d7e30e8 &&& m = 0x8000000d00d7e30e8) : ∀ a2 a3, Kept m og (spanReached s a2 a3) := by
  intro a2 a3
  unfold spanReached
  repeat' first
    | (with_reducible first | assumption | exact mask_sub hm rfl | apply spanSettle_kept)
    | intro _
    | dsimp only
    | split
    | dsimp only [id]
    | (with_reducible first | apply kept_spans)

theorem curStepEnd_kept {m : Nat} {og s : State} (h : Kept m og s) (hm : 0x8000001d02d7e30e8 &&& m = 0x8000001d02d7e30e8) : ∀ a2 a3 a4, Kept m og (curStepEnd s a2 a3 a4) := by
  intro a2 a3 a4
  unfold curStepEnd
  repeat' first
    | (with_reducible first | assumption | exact mask_sub hm rfl | apply modPortion_kept | apply spanReached_kept | apply stepEnd_kept)
    | intro _
    | dsimp only
    | split

theorem portionEnd_kept {m : Nat} {og s : State} (h : Kept m og s) (hm : 0x8000001d02d7e30e8 &&& m = 0x8000001d02d7e30e8) : ∀ a2 a3, Kept m og (portionEnd s a2 a3) := by
  intro a2 a3
  unfold portionEnd
  extract_lets +onlyGivenNames opens rest s1 s2
  try clear_value opens
  try clear_value rest
  have k_s1 : Kept m og s1 := by
    dsimp only [s1]
    repeat' first
      | (with_reducible first | assumption | exact mask_sub hm rfl | apply modHb_kept | apply forEach_kept | apply stepEnd_kept | apply spanReached_kept)
      | intro _
      | dsimp only
      | (with_reducible first | apply getD_kept)
      | split
  clear_value s1
  have k_s2 : Kept m og s2 := by
    dsimp only [s2]
    repeat' first
      | (with_reducible first | assumption | exact mask_sub hm rfl | apply modHb_kept | apply forEach_kept | apply stepEnd_kept | apply spanReached_kept)
      | intro _
      | dsimp only
      | (with_reducible first | apply getD_kept)
      | split
  clear_value s2
  repeat' first
    | (with_reducible first | assumption | exact mask_sub hm rfl | apply modHb_kept | apply forEach_kept | apply stepEnd_kept | apply spanReached_kept)
    | intro _
    | dsimp only
    | (with_reducible first | apply getD_kept)
    | split

theorem disarmChan_kept {m : Nat} {og s : State} (h : Kept m og s) (hm : 0x80010011cfd7e30e8 &&& m = 0x80010011cfd7e30e8) : ∀ a2, Kept m og (disarmChan s a2) := by
  intro a2
  unfold disarmChan
  extract_lets +onlyGivenNames q gone s1 s2
  try clear_value q
  try clear_value gone
  have k_s1 : Kept m og s1 := by
    dsimp only [s1]
    repeat' first
      | (with_reducible first | assumption | exact mask_sub hm rfl | apply modCh_kept | apply forEach_kept | apply slotEnded_kept | apply packetAbort_kept)
      | intro _
      | dsimp only
      | split
  clear_value s1
  have k_s2 : Kept m og s2 := by
    dsimp only [s2]
    repeat' first
      | (with_reducible first | assumption | exact mask_sub hm rfl | apply modCh_kept | apply forEach_kept | apply slotEnded_kept | apply packetAbort_kept)
      | intro _
      | dsimp only
      | split
  clear_value s2
  repeat' first
    | (with_reducible first | assumption | exact mask_sub hm rfl | apply modCh_kept | apply forEach_kept | apply slotEnded_kept | apply packetAbort_kept)
    | intro _
    | dsimp only
    | split

theorem disarmHead_kept {m : Nat} {og s : State} (h : Kept m og s) (hm : 0x80010011cfd7e30e8 &&& m = 0x80010011cfd7e30e8) : ∀ a2, Kept m og (disarmHead s a2) := by
  intro a2
  unfold disarmHead
  extract_lets +onlyGivenNames s1 gone s2
  have k_s1 : Kept m og s1 := by
    dsimp only [s1]
    repeat' first
      | (with_reducible first | assumption | exact mask_sub hm rfl | apply forEach_kept | apply disarmChan_kept | apply cellFill_kept | apply modWc_kept | apply slotEnded_kept)
      | intro _
      | dsimp only
  clear_value s1
  try clear_value gone
  have k_s2 : Kept m og s2 := by
    dsimp only [s2]
    repeat' first
      | (with_reducible first | assumption | exact mask_sub hm rfl | apply forEach_kept | apply disarmChan_kept | apply cellFill_kept | apply modWc_kept | apply slotEnded_kept)
      | intro _
      | dsimp only
  clear_value s2
  repeat' first
    | (with_reducible first | assumption | exact mask_sub hm rfl | apply forEach_kept | apply disarmChan_kept | apply cellFill_kept | apply modWc_kept | apply slotEnded_kept)
    | intro _
    | dsimp only

theorem portionSledEnd_kept {m : Nat} {og s : State} (h : Kept m og s) (hm : 0x8001001dcfd7e30e8 &&& m = 0x8001001dcfd7e30e8) : ∀ a2, Kept m og (portionSledEnd s a2) := by
  intro a2
  unfold portionSledEnd
  repeat' first
    | (with_reducible first | assumption | exact mask_sub hm rfl | apply disarmHead_kept | apply portionEnd_kept)
    | intro _
    | dsimp only
    | split

theorem waitPosStatus_kept {m : Nat} {og s : State} (h : Kept m og s) (hm : 0x8000001d02d7e30e8 &&& m = 0x8000001d02d7e30e8) : ∀ a2, Kept m og (waitPosStatus s a2) := by
  intro a2
  unfold waitPosStatus
  repeat' first
    | (with_reducible first | assumption | exact mask_sub hm rfl | apply curStepEnd_kept | apply modPortion_kept)
    | intro _
    | dsimp only
    | split

theorem wedgeStatus_kept {m : Nat} {og s : State} (h : Kept m og s) (hm : 0x8001001dcfd7e30e8 &&& m = 0x8001001dcfd7e30e8) : ∀ a2 a3 a4 a5, Kept m og (wedgeStatus s a2 a3 a4 a5) := by
  intro a2 a3 a4 a5
  unfold wedgeStatus
  extract_lets +onlyGivenNames good s1 s2 s3
  try clear_value good
  have k_s1 : Kept m og s1 := by
    dsimp only [s1]
    repeat' first
      | (with_reducible first | assumption | exact mask_sub hm rfl | apply wcWedgeStatus_kept | apply modHb_kept | apply forEach_kept | apply packetAbort_kept | apply waitPosStatus_kept)
      | intro _
      | dsimp only
      | split
  clear_value s1
  have k_s2 : Kept m og s2 := by
    dsimp only [s2]
    repeat' first
      | (with_reducible first | assumption | exact mask_sub hm rfl | apply wcWedgeStatus_kept | apply modHb_kept | apply forEach_kept | apply packetAbort_kept | apply waitPosStatus_kept)
      | intro _
      | dsimp only
      | split
  clear_value s2
  have k_s3 : Kept m og s3 := by
    dsimp only [s3]
    repeat' first
      | (with_reducible first | assumption | exact mask_sub hm rfl | apply wcWedgeStatus_kept | apply modHb_kept | apply forEach_kept | apply packetAbort_kept | apply waitPosStatus_kept)
      | intro _
      | dsimp only
      | split
  clear_value s3
  repeat' first
    | (with_reducible first | assumption | exact mask_sub hm rfl | apply wcWedgeStatus_kept | apply modHb_kept | apply forEach_kept | apply packetAbort_kept | apply waitPosStatus_kept)
    | intro _
    | dsimp only
    | split

end Machine
end Sys2Proof
end

