-- ==== Sys2Proof/Laws/KeptDram.lean ====
section
/-! SUPPORT. What the operations of Machine/Dram.lean keep (Laws/Keeps.lean). -/

namespace Sys2Proof
namespace Machine

theorem dramRequest_kept {m : Nat} {og s : State} (h : Kept m og s) (hm : 0x400080 &&& m = 0x400080) : ∀ a2, Kept m og (dramRequest s a2) := by
  intro a2
  unfold dramRequest
  repeat' first
    | (with_reducible first | assumption | exact mask_sub hm rfl | apply replyError_kept | apply modDram_kept | apply reply_kept)
    | intro _
    | dsimp only
    | split

theorem execDramRequest_kept {s t : State} {a1 a2 a3 a4} (e : execDramRequest a1 a2 a3 a4 s = .next t) : Kept 0x400080 s t := by
  have h := Kept.same 0x400080 s
  have hm := Nat.and_self 0x400080
  refine next_kept e ?_
  repeat' first
    | (with_reducible first | assumption | exact mask_sub hm rfl | apply dramRequest_kept)
    | intro _
    | dsimp only
    | split

theorem dramClose_kept {m : Nat} {og s : State} (h : Kept m og s) (hm : 0x600000 &&& m = 0x600000) : ∀ a2 a3, Kept m og (dramClose s a2 a3) := by
  intro a2 a3
  unfold dramClose
  repeat' first
    | (with_reducible first | assumption | exact mask_sub hm rfl | apply modDram_kept | apply checkBack_kept)
    | intro _
    | dsimp only

theorem dramAct_kept {m : Nat} {og s : State} (h : Kept m og s) (hm : 0x403008 &&& m = 0x403008) : ∀ a1 a3 a4 a5, Kept m og (dramAct a1 s a3 a4 a5) := by
  intro a1
  induction a1 generalizing s with
  | zero =>
    intros
    unfold dramAct
    repeat' first
      | (with_reducible first | assumption | exact mask_sub hm rfl | apply ih | apply countIf_kept | apply modDram_kept | apply forEach_kept | apply fset_kept | apply count_kept)
      | intro _
      | dsimp only
      | (with_reducible first | apply getD_kept)
      | split
  | succ n ih =>
    intros
    unfold dramAct
    repeat' first
      | (with_reducible first | assumption | exact mask_sub hm rfl | apply ih | apply countIf_kept | apply modDram_kept | apply forEach_kept | apply fset_kept | apply count_kept)
      | intro _
      | dsimp only
      | (with_reducible first | apply getD_kept)
      | split

theorem rowOpen_kept {m : Nat} {og s : State} (h : Kept m og s) (hm : 0x603008 &&& m = 0x603008) : ∀ a2 a3 a4, Kept m og (rowOpen s a2 a3 a4) := by
  intro a2 a3 a4
  unfold rowOpen
  repeat' first
    | (with_reducible first | assumption | exact mask_sub hm rfl | apply modDram_kept | apply dramAct_kept | apply dramClose_kept)
    | intro _
    | dsimp only
    | split

theorem rowEnd_kept {m : Nat} {og s : State} (h : Kept m og s) (hm : 0x600000 &&& m = 0x600000) : ∀ a2 a3, Kept m og (rowEnd s a2 a3) := by
  intro a2 a3
  unfold rowEnd
  repeat' first
    | (with_reducible first | assumption | exact mask_sub hm rfl | apply dramClose_kept)
    | intro _
    | dsimp only
    | split

theorem flipCheck_kept {m : Nat} {og s : State} (h : Kept m og s) (hm : 0x200000 &&& m = 0x200000) : ∀ a2 a3, Kept m og (flipCheck s a2 a3) := by
  intro a2 a3
  unfold flipCheck
  extract_lets +onlyGivenNames p
  try clear_value p
  repeat' first
    | (with_reducible first | assumption | exact mask_sub hm rfl | apply putChk_kept)
    | intro _
    | dsimp only
    | (with_reducible first | apply getD_kept)
    | split

theorem dramIssue_kept {m : Nat} {og s : State} (h : Kept m og s) (hm : 0x800000000047030e8 &&& m = 0x800000000047030e8) : ∀ a2 a3, Kept m og (dramIssue s a2 a3) := by
  intro a2 a3
  unfold dramIssue
  repeat' first
    | (with_reducible first | assumption | exact mask_sub hm rfl | apply rowOpen_kept | apply modDram_kept | apply checkLoad_kept | apply flipCheck_kept | apply reply_kept | apply dramWrite_kept | apply resvDrop_kept | apply rowEnd_kept)
    | intro _
    | dsimp only
    | split

theorem execDramIssue_kept {s t : State} {a1} (e : execDramIssue a1 s = .next t) : Kept 0x800000000047030e8 s t := by
  have h := Kept.same 0x800000000047030e8 s
  have hm := Nat.and_self 0x800000000047030e8
  refine next_kept e ?_
  repeat' first
    | (with_reducible first | assumption | exact mask_sub hm rfl | apply dramIssue_kept)
    | intro _
    | dsimp only
    | split

theorem pageIdle_kept {m : Nat} {og s : State} (h : Kept m og s) (hm : 0x600000 &&& m = 0x600000) : ∀ a2 a3, Kept m og (pageIdle s a2 a3) := by
  intro a2 a3
  unfold pageIdle
  repeat' first
    | (with_reducible first | assumption | exact mask_sub hm rfl | apply dramClose_kept)
    | intro _
    | dsimp only
    | split

theorem execPageIdleExpire_kept {s t : State} {a1 a2} (e : execPageIdleExpire a1 a2 s = .next t) : Kept 0x600000 s t := by
  have h := Kept.same 0x600000 s
  have hm := Nat.and_self 0x600000
  refine next_kept e ?_
  repeat' first
    | (with_reducible first | assumption | exact mask_sub hm rfl | apply pageIdle_kept)
    | intro _
    | dsimp only

theorem flipData_kept {m : Nat} {og s : State} (h : Kept m og s) (hm : 0x100000 &&& m = 0x100000) : ∀ a2 a3, Kept m og (flipData s a2 a3) := by
  intro a2 a3
  unfold flipData
  extract_lets +onlyGivenNames p
  try clear_value p
  repeat' first
    | (with_reducible first | assumption | exact mask_sub hm rfl)
    | intro _
    | dsimp only
    | (with_reducible first | apply getD_kept)
    | split
    | (with_reducible first | apply kept_dramErr)

theorem dramReturn_kept {m : Nat} {og s : State} (h : Kept m og s) (hm : 0x4703088 &&& m = 0x4703088) : ∀ a2 a3, Kept m og (dramReturn s a2 a3) := by
  intro a2 a3
  unfold dramReturn
  repeat' first
    | (with_reducible first | assumption | exact mask_sub hm rfl | apply dramRead_kept | refine dramRead_keq (by assumption) ?_ ?_ | apply flipData_kept | apply modDram_kept | apply reply_kept)
    | intro _
    | dsimp only
    | split

theorem execDramReadReturn_kept {s t : State} {a1 a2 a3} (e : execDramReadReturn a1 a2 a3 s = .next t) : Kept 0x4703088 s t := by
  have h := Kept.same 0x4703088 s
  have hm := Nat.and_self 0x4703088
  refine next_kept e ?_
  repeat' first
    | (with_reducible first | assumption | exact mask_sub hm rfl | apply dramReturn_kept)
    | intro _
    | dsimp only

theorem bankRefresh_kept {m : Nat} {og s : State} (h : Kept m og s) (hm : 0x600000 &&& m = 0x600000) : ∀ a2 a3, Kept m og (bankRefresh s a2 a3) := by
  intro a2 a3
  unfold bankRefresh
  extract_lets +onlyGivenNames ch owed
  try clear_value ch
  try clear_value owed
  repeat' first
    | (with_reducible first | assumption | exact mask_sub hm rfl | apply modDram_kept | apply dramClose_kept)
    | intro _
    | dsimp only
    | split

theorem execPerBankRefresh_kept {s t : State} {a1 a2} (e : execPerBankRefresh a1 a2 s = .next t) : Kept 0x600000 s t := by
  have h := Kept.same 0x600000 s
  have hm := Nat.and_self 0x600000
  refine next_kept e ?_
  repeat' first
    | (with_reducible first | assumption | exact mask_sub hm rfl | apply bankRefresh_kept)
    | intro _
    | dsimp only
    | split

theorem execMr4Poll_kept {s t : State} {a1 a2} (e : execMr4Poll a1 a2 s = .next t) : Kept 0x400000 s t := by
  have h := Kept.same 0x400000 s
  have hm := Nat.and_self 0x400000
  refine next_kept e ?_
  repeat' first
    | (with_reducible first | assumption | exact mask_sub hm rfl | apply modDram_kept)
    | intro _
    | dsimp only
    | split

theorem actClear_kept {m : Nat} {og s : State} (h : Kept m og s) (hm : 0x400000 &&& m = 0x400000) : Kept m og (actClear s) := by
  unfold actClear
  repeat' first
    | (with_reducible first | assumption | exact mask_sub hm rfl | apply forEach_kept | apply modDram_kept)
    | intro _
    | dsimp only

theorem execActTableClear_kept {s t : State} (e : execActTableClear s = .next t) : Kept 0x400000 s t := by
  have h := Kept.same 0x400000 s
  have hm := Nat.and_self 0x400000
  refine next_kept e ?_
  repeat' first
    | (with_reducible first | assumption | exact mask_sub hm rfl | apply actClear_kept)
    | intro _
    | dsimp only

theorem remapArm_kept {m : Nat} {og s : State} (h : Kept m og s) (hm : 0x4703068 &&& m = 0x4703068) : ∀ a2 a3 a4 a5, Kept m og (remapArm s a2 a3 a4 a5) := by
  intro a2 a3 a4 a5
  unfold remapArm
  extract_lets +onlyGivenNames a s s1 s2
  try clear_value a
  have k_s : Kept m og s := by
    dsimp only [s]
    repeat' first
      | (with_reducible first | assumption | exact mask_sub hm rfl | apply checkBack_kept | apply dramSaw_kept | apply putChk_kept | apply dramRead_kept | refine dramRead_keq (by assumption) ?_ ?_ | apply dramStoreWord_kept | apply fputB_kept | apply fput_kept | apply fset_kept | apply count_kept)
      | intro _
      | dsimp only
      | split
  clear_value s
  have k_s1 : Kept m og s1 := by
    dsimp only [s1]
    repeat' first
      | (with_reducible first | assumption | exact mask_sub hm rfl | apply checkBack_kept | apply dramSaw_kept | apply putChk_kept | apply dramRead_kept | refine dramRead_keq (by assumption) ?_ ?_ | apply dramStoreWord_kept | apply fputB_kept | apply fput_kept | apply fset_kept | apply count_kept)
      | intro _
      | dsimp only
      | split
  clear_value s1
  have k_s2 : Kept m og s2 := by
    dsimp only [s2]
    repeat' first
      | (with_reducible first | assumption | exact mask_sub hm rfl | apply checkBack_kept | apply dramSaw_kept | apply putChk_kept | apply dramRead_kept | refine dramRead_keq (by assumption) ?_ ?_ | apply dramStoreWord_kept | apply fputB_kept | apply fput_kept | apply fset_kept | apply count_kept)
      | intro _
      | dsimp only
      | split
  clear_value s2
  repeat' first
    | (with_reducible first | assumption | exact mask_sub hm rfl | apply checkBack_kept | apply dramSaw_kept | apply putChk_kept | apply dramRead_kept | refine dramRead_keq (by assumption) ?_ ?_ | apply dramStoreWord_kept | apply fputB_kept | apply fput_kept | apply fset_kept | apply count_kept)
    | intro _
    | dsimp only
    | split

theorem remapDisarm_kept {m : Nat} {og s : State} (h : Kept m og s) (hm : 0x8 &&& m = 0x8) : ∀ a2 a3, Kept m og (remapDisarm s a2 a3) := by
  intro a2 a3
  unfold remapDisarm
  repeat' first
    | (with_reducible first | assumption | exact mask_sub hm rfl | apply fclr_kept | apply fput_kept)
    | intro _
    | dsimp only
    | split

theorem remapArmWrite_kept {m : Nat} {og s : State} (h : Kept m og s) (hm : 0x4703068 &&& m = 0x4703068) : ∀ a2 a3 a4, Kept m og (remapArmWrite s a2 a3 a4) := by
  intro a2 a3 a4
  unfold remapArmWrite
  repeat' first
    | (with_reducible first | assumption | exact mask_sub hm rfl | apply fset_kept | apply remapArm_kept)
    | intro _
    | dsimp only
    | split

theorem remapDisarmWrite_kept {m : Nat} {og s : State} (h : Kept m og s) (hm : 0x8 &&& m = 0x8) : ∀ a2 a3 a4, Kept m og (remapDisarmWrite s a2 a3 a4) := by
  intro a2 a3 a4
  unfold remapDisarmWrite
  repeat' first
    | (with_reducible first | assumption | exact mask_sub hm rfl | apply remapDisarm_kept | apply fset_kept | apply fput_kept)
    | intro _
    | dsimp only
    | split

theorem putSramFlips_kept {m : Nat} {og s : State} (h : Kept m og s) (hm : 0x30e0000 &&& m = 0x30e0000) : ∀ a2 a3 a4, Kept m og (putSramFlips s a2 a3 a4) := by
  intro a2 a3 a4
  unfold putSramFlips
  repeat' first
    | (with_reducible first | assumption | exact mask_sub hm rfl | apply setArcLines_kept | apply modL1_kept)
    | intro _
    | dsimp only
    | split
    | (with_reducible first | apply kept_sramErr | apply kept_tcmErr)

theorem macroReport_kept {m : Nat} {og s : State} (h : Kept m og s) (hm : 0x80010011f6d7f30e8 &&& m = 0x80010011f6d7f30e8) : ∀ a2 a3, Kept m og (macroReport s a2 a3) := by
  intro a2 a3
  unfold macroReport
  extract_lets +onlyGivenNames s1
  have k_s1 : Kept m og s1 := by
    dsimp only [s1]
    repeat' first
      | (with_reducible first | assumption | exact mask_sub hm rfl | apply sramFlag_kept | apply sliceRemove_kept)
      | intro _
      | dsimp only
      | split
  clear_value s1
  repeat' first
    | (with_reducible first | assumption | exact mask_sub hm rfl | apply sramFlag_kept | apply sliceRemove_kept)
    | intro _
    | dsimp only
    | split

theorem macroArm_kept {m : Nat} {og s : State} (h : Kept m og s) (hm : 0x80010011f6f7f30e8 &&& m = 0x80010011f6f7f30e8) : ∀ a2 a3 a4 a5, Kept m og (macroArm s a2 a3 a4 a5) := by
  intro a2 a3 a4 a5
  unfold macroArm
  extract_lets +onlyGivenNames s0 s1
  have k_s0 : Kept m og s0 := by
    dsimp only [s0]
    repeat' first
      | (with_reducible first | assumption | exact mask_sub hm rfl | apply putSramFlips_kept | apply macroReport_kept | apply fputB_kept | apply fput_kept | apply fset_kept)
      | intro _
      | dsimp only
      | split
  clear_value s0
  have k_s1 : Kept m og s1 := by
    dsimp only [s1]
    repeat' first
      | (with_reducible first | assumption | exact mask_sub hm rfl | apply putSramFlips_kept | apply macroReport_kept | apply fputB_kept | apply fput_kept | apply fset_kept)
      | intro _
      | dsimp only
      | split
  clear_value s1
  repeat' first
    | (with_reducible first | assumption | exact mask_sub hm rfl | apply putSramFlips_kept | apply macroReport_kept | apply fputB_kept | apply fput_kept | apply fset_kept)
    | intro _
    | dsimp only
    | split

theorem macroArmWrite_kept {m : Nat} {og s : State} (h : Kept m og s) (hm : 0x80010011f6f7f30e8 &&& m = 0x80010011f6f7f30e8) : ∀ a2 a3 a4, Kept m og (macroArmWrite s a2 a3 a4) := by
  intro a2 a3 a4
  unfold macroArmWrite
  repeat' first
    | (with_reducible first | assumption | exact mask_sub hm rfl | apply fset_kept | apply macroArm_kept)
    | intro _
    | dsimp only
    | split

theorem macroDisarm_kept {m : Nat} {og s : State} (h : Kept m og s) (hm : 0x8 &&& m = 0x8) : ∀ a2 a3, Kept m og (macroDisarm s a2 a3) := by
  intro a2 a3
  unfold macroDisarm
  repeat' first
    | (with_reducible first | assumption | exact mask_sub hm rfl | apply fclr_kept | apply fput_kept)
    | intro _
    | dsimp only
    | split

theorem macroDisarmWrite_kept {m : Nat} {og s : State} (h : Kept m og s) (hm : 0x8 &&& m = 0x8) : ∀ a2 a3 a4, Kept m og (macroDisarmWrite s a2 a3 a4) := by
  intro a2 a3 a4
  unfold macroDisarmWrite
  repeat' first
    | (with_reducible first | assumption | exact mask_sub hm rfl | apply macroDisarm_kept | apply fset_kept | apply fput_kept)
    | intro _
    | dsimp only
    | split

theorem execRemapArm_kept {s t : State} {a1 a2 a3 a4} (e : execRemapArm a1 a2 a3 a4 s = .next t) : Kept 0x80010011f6f7f30e8 s t := by
  have h := Kept.same 0x80010011f6f7f30e8 s
  have hm := Nat.and_self 0x80010011f6f7f30e8
  refine next_kept e ?_
  repeat' first
    | (with_reducible first | assumption | exact mask_sub hm rfl | apply reply_kept | apply remapArmWrite_kept | apply macroArmWrite_kept)
    | intro _
    | dsimp only
    | split

theorem execRemapDisarm_kept {s t : State} {a1 a2 a3} (e : execRemapDisarm a1 a2 a3 s = .next t) : Kept 0x88 s t := by
  have h := Kept.same 0x88 s
  have hm := Nat.and_self 0x88
  refine next_kept e ?_
  repeat' first
    | (with_reducible first | assumption | exact mask_sub hm rfl | apply reply_kept | apply remapDisarm_kept | apply macroDisarm_kept)
    | intro _
    | dsimp only
    | split

theorem hardFailure_kept {m : Nat} {og s : State} (h : Kept m og s) (hm : 0x4703068 &&& m = 0x4703068) : ∀ a2 a3, Kept m og (hardFailure s a2 a3) := by
  intro a2 a3
  unfold hardFailure
  extract_lets +onlyGivenNames s1
  have k_s1 : Kept m og s1 := by
    dsimp only [s1]
    repeat' first
      | (with_reducible first | assumption | exact mask_sub hm rfl | apply fset_kept | apply remapArm_kept)
      | intro _
      | dsimp only
      | split
  clear_value s1
  repeat' first
    | (with_reducible first | assumption | exact mask_sub hm rfl | apply fset_kept | apply remapArm_kept)
    | intro _
    | dsimp only
    | split

theorem scrubData_kept {m : Nat} {og s : State} (h : Kept m og s) (hm : 0x800000000047e30e8 &&& m = 0x800000000047e30e8) : ∀ a2 a3 a4 a5, Kept m og (scrubData s a2 a3 a4 a5) := by
  intro a2 a3 a4 a5
  unfold scrubData
  extract_lets +onlyGivenNames s0
  have k_s0 : Kept m og s0 := by
    dsimp only [s0]
    repeat' first
      | (with_reducible first | assumption | exact mask_sub hm rfl | apply flipData_kept | apply arcReadLine_kept | refine arcReadLine_keq (by assumption) ?_ ?_ | apply dramSaw_kept | apply dramStoreWord_kept | apply hardFailure_kept)
      | intro _
      | dsimp only
      | split
  clear_value s0
  repeat' first
    | (with_reducible first | assumption | exact mask_sub hm rfl | apply flipData_kept | apply arcReadLine_kept | refine arcReadLine_keq (by assumption) ?_ ?_ | apply dramSaw_kept | apply dramStoreWord_kept | apply hardFailure_kept)
    | intro _
    | dsimp only
    | split

theorem scrubCheck_kept {m : Nat} {og s : State} (h : Kept m og s) (hm : 0x4703068 &&& m = 0x4703068) : ∀ a2 a3 a4 a5, Kept m og (scrubCheck s a2 a3 a4 a5) := by
  intro a2 a3 a4 a5
  unfold scrubCheck
  extract_lets +onlyGivenNames s0 o s1
  have k_s0 : Kept m og s0 := by
    dsimp only [s0]
    repeat' first
      | (with_reducible first | assumption | exact mask_sub hm rfl | apply flipCheck_kept | apply checkBack_kept | apply dramSaw_kept | apply putChk_kept | apply hardFailure_kept)
      | intro _
      | dsimp only
      | split
  clear_value s0
  try clear_value o
  have k_s1 : Kept m og s1 := by
    dsimp only [s1]
    repeat' first
      | (with_reducible first | assumption | exact mask_sub hm rfl | apply flipCheck_kept | apply checkBack_kept | apply dramSaw_kept | apply putChk_kept | apply hardFailure_kept)
      | intro _
      | dsimp only
      | split
  clear_value s1
  repeat' first
    | (with_reducible first | assumption | exact mask_sub hm rfl | apply flipCheck_kept | apply checkBack_kept | apply dramSaw_kept | apply putChk_kept | apply hardFailure_kept)
    | intro _
    | dsimp only
    | split

theorem lapEnd_kept {m : Nat} {og s : State} (h : Kept m og s) (hm : 0x403008 &&& m = 0x403008) : ∀ a2, Kept m og (lapEnd s a2) := by
  intro a2
  unfold lapEnd
  extract_lets +onlyGivenNames ms s1 longest s2
  try clear_value ms
  have k_s1 : Kept m og s1 := by
    dsimp only [s1]
    repeat' first
      | (with_reducible first | assumption | exact mask_sub hm rfl | apply modDram_kept | apply fput_kept | apply count_kept)
      | intro _
      | dsimp only
      | (with_reducible first | apply foldl_kept | apply foldlFst_kept)
      | split
  clear_value s1
  try clear_value longest
  have k_s2 : Kept m og s2 := by
    dsimp only [s2]
    repeat' first
      | (with_reducible first | assumption | exact mask_sub hm rfl | apply modDram_kept | apply fput_kept | apply count_kept)
      | intro _
      | dsimp only
      | (with_reducible first | apply foldl_kept | apply foldlFst_kept)
      | split
  clear_value s2
  repeat' first
    | (with_reducible first | assumption | exact mask_sub hm rfl | apply modDram_kept | apply fput_kept | apply count_kept)
    | intro _
    | dsimp only
    | (with_reducible first | apply foldl_kept | apply foldlFst_kept)
    | split

theorem scrubRow_kept {m : Nat} {og s : State} (h : Kept m og s) (hm : 0x800000000047e30e8 &&& m = 0x800000000047e30e8) : ∀ a2 a3 a4, Kept m og (scrubRow s a2 a3 a4) := by
  intro a2 a3 a4
  unfold scrubRow
  extract_lets +onlyGivenNames pos bank rb s0 s1 s2 s3
  try clear_value pos
  try clear_value bank
  try clear_value rb
  have k_s0 : Kept m og s0 := by
    dsimp only [s0]
    repeat' first
      | (with_reducible first | assumption | exact mask_sub hm rfl | apply rowOpen_kept | apply checkFill_kept | apply scrubCheck_kept | apply forEach_kept | apply scrubData_kept | apply rowEnd_kept | apply lapEnd_kept | apply modDram_kept)
      | intro _
      | dsimp only
      | split
  clear_value s0
  have k_s1 : Kept m og s1 := by
    dsimp only [s1]
    repeat' first
      | (with_reducible first | assumption | exact mask_sub hm rfl | apply rowOpen_kept | apply checkFill_kept | apply scrubCheck_kept | apply forEach_kept | apply scrubData_kept | apply rowEnd_kept | apply lapEnd_kept | apply modDram_kept)
      | intro _
      | dsimp only
      | split
  clear_value s1
  have k_s2 : Kept m og s2 := by
    dsimp only [s2]
    repeat' first
      | (with_reducible first | assumption | exact mask_sub hm rfl | apply rowOpen_kept | apply checkFill_kept | apply scrubCheck_kept | apply forEach_kept | apply scrubData_kept | apply rowEnd_kept | apply lapEnd_kept | apply modDram_kept)
      | intro _
      | dsimp only
      | split
  clear_value s2
  have k_s3 : Kept m og s3 := by
    dsimp only [s3]
    repeat' first
      | (with_reducible first | assumption | exact mask_sub hm rfl | apply rowOpen_kept | apply checkFill_kept | apply scrubCheck_kept | apply forEach_kept | apply scrubData_kept | apply rowEnd_kept | apply lapEnd_kept | apply modDram_kept)
      | intro _
      | dsimp only
      | split
  clear_value s3
  repeat' first
    | (with_reducible first | assumption | exact mask_sub hm rfl | apply rowOpen_kept | apply checkFill_kept | apply scrubCheck_kept | apply forEach_kept | apply scrubData_kept | apply rowEnd_kept | apply lapEnd_kept | apply modDram_kept)
    | intro _
    | dsimp only
    | split

theorem execScrubRow_kept {s t : State} {a1 a2 a3} (e : execScrubRow a1 a2 a3 s = .next t) : Kept 0x800000000047e30e8 s t := by
  have h := Kept.same 0x800000000047e30e8 s
  have hm := Nat.and_self 0x800000000047e30e8
  refine next_kept e ?_
  repeat' first
    | (with_reducible first | assumption | exact mask_sub hm rfl | apply scrubRow_kept)
    | intro _
    | dsimp only
    | split

theorem sramScrub_kept {m : Nat} {og s : State} (h : Kept m og s) (hm : 0x80010011f6f7f30e8 &&& m = 0x80010011f6f7f30e8) : ∀ a2 a3 a4 a5, Kept m og (sramScrub s a2 a3 a4 a5) := by
  intro a2 a3 a4 a5
  unfold sramScrub
  repeat' first
    | (with_reducible first | assumption | exact mask_sub hm rfl | apply putSramFlips_kept | apply macroReport_kept | apply fset_kept | apply macroArm_kept)
    | intro _
    | dsimp only
    | split

theorem execSramScrub_kept {s t : State} {a1 a2 a3 a4} (e : execSramScrub a1 a2 a3 a4 s = .next t) : Kept 0x80010011f6f7f30e8 s t := by
  have h := Kept.same 0x80010011f6f7f30e8 s
  have hm := Nat.and_self 0x80010011f6f7f30e8
  refine next_kept e ?_
  repeat' first
    | (with_reducible first | assumption | exact mask_sub hm rfl | apply sramScrub_kept)
    | intro _
    | dsimp only

theorem maskWrite_kept {m : Nat} {og s : State} (h : Kept m og s) (hm : 0x8 &&& m = 0x8) : ∀ a2 a3 a4, Kept m og (maskWrite s a2 a3 a4) := by
  intro a2 a3 a4
  unfold maskWrite
  repeat' first
    | (with_reducible first | assumption | exact mask_sub hm rfl | apply fput_kept | apply fset_kept)
    | intro _
    | dsimp only
    | split

theorem dramMapWrite_kept {m : Nat} {og s : State} (h : Kept m og s) (hm : 0x8 &&& m = 0x8) : ∀ a2 a3, Kept m og (dramMapWrite s a2 a3) := by
  intro a2 a3
  unfold dramMapWrite
  extract_lets +onlyGivenNames st
  try clear_value st
  repeat' first
    | (with_reducible first | assumption | exact mask_sub hm rfl | apply fput_kept | apply maskWrite_kept | apply fset_kept)
    | intro _
    | dsimp only
    | split

theorem execDramMapWrite_kept {s t : State} {a1 a2 a3} (e : execDramMapWrite a1 a2 a3 s = .next t) : Kept 0x88 s t := by
  have h := Kept.same 0x88 s
  have hm := Nat.and_self 0x88
  refine next_kept e ?_
  repeat' first
    | (with_reducible first | assumption | exact mask_sub hm rfl | apply reply_kept | apply dramMapWrite_kept)
    | intro _
    | dsimp only

theorem dramInit_kept {m : Nat} {og s : State} (h : Kept m og s) (hm : 0x8 &&& m = 0x8) : Kept m og (dramInit s) := by
  unfold dramInit
  extract_lets +onlyGivenNames st
  try clear_value st
  repeat' first
    | (with_reducible first | assumption | exact mask_sub hm rfl | apply fput_kept)
    | intro _
    | dsimp only
    | split

theorem execDramInit_kept {s t : State} {a1} (e : execDramInit a1 s = .next t) : Kept 0x88 s t := by
  have h := Kept.same 0x88 s
  have hm := Nat.and_self 0x88
  refine next_kept e ?_
  repeat' first
    | (with_reducible first | assumption | exact mask_sub hm rfl | apply reply_kept | apply dramInit_kept)
    | intro _
    | dsimp only

theorem trainFail_kept {m : Nat} {og s : State} (h : Kept m og s) (hm : 0x4000008 &&& m = 0x4000008) : ∀ a2, Kept m og (trainFail s a2) := by
  intro a2
  unfold trainFail
  repeat' first
    | (with_reducible first | assumption | exact mask_sub hm rfl | apply raiseReport_kept | apply fclr_kept | apply fset_kept)
    | intro _
    | dsimp only

theorem trained_kept {m : Nat} {og s : State} (h : Kept m og s) (hm : 0x8 &&& m = 0x8) : ∀ a2, Kept m og (trained s a2) := by
  intro a2
  unfold trained
  repeat' first
    | (with_reducible first | assumption | exact mask_sub hm rfl | apply fput_kept | apply fset_kept)
    | intro _
    | dsimp only

theorem dramZero_kept {m : Nat} {og s : State} (h : Kept m og s) (hm : 0x700060 &&& m = 0x700060) : Kept m og (dramZero s) := by
  unfold dramZero
  repeat' first
    | (with_reducible first | assumption | exact mask_sub hm rfl)
    | intro _
    | dsimp only
    | exact Memory.wf_writeBytes _ _ (by assumption)
    | exact Memory.wf_filter _ (by assumption)
    | exact (rfl : Memory.wf [] = true)
    | (with_reducible first | apply kept_mem_poison_dramErr_chkErr_dram)

theorem dramXingArm_kept {m : Nat} {og s : State} (h : Kept m og s) (hm : 0x208 &&& m = 0x208) (c : Fin 4) :
    Kept m og (dramXingArm s c) := by
  have hp : xingPresent s.variant (Fin.ofNat 52 (38 + c.val)).val = true := by
    have e : (Fin.ofNat 52 (38 + c.val)).val = 38 + c.val := Nat.mod_eq_of_lt (by omega)
    rw [e]
    unfold xingPresent
    rw [if_neg (by omega), if_neg (by omega), if_neg (by omega), if_neg (by omega), if_neg (by omega)]
    simp only [decide_eq_true_eq]
    omega
  unfold dramXingArm
  refine xingRearm_kept (modXing_kept h (mask_sub hm rfl) _ _ (fun _ k => k)) (mask_sub hm rfl) _ (.inl hp)

theorem lapsBegin_kept {m : Nat} {og s : State} (h : Kept m og s) (hm : 0x400000 &&& m = 0x400000) : Kept m og (lapsBegin s) := by
  unfold lapsBegin
  repeat' first
    | (with_reducible first | assumption | exact mask_sub hm rfl)
    | intro _
    | dsimp only
    | (with_reducible first | apply kept_dram)

theorem dramInitDone_kept {m : Nat} {og s : State} (h : Kept m og s) (hm : 0x4700268 &&& m = 0x4700268) : ∀ a2, Kept m og (dramInitDone s a2) := by
  intro a2
  unfold dramInitDone
  repeat' first
    | (with_reducible first | assumption | exact mask_sub hm rfl | apply forEach_kept | apply trained_kept | apply dramZero_kept | apply lapsBegin_kept | apply fput_kept | apply dramXingArm_kept | apply trainFail_kept)
    | intro _
    | dsimp only
    | split

theorem execDramInitDone_kept {s t : State} {a1} (e : execDramInitDone a1 s = .next t) : Kept 0x4700268 s t := by
  have h := Kept.same 0x4700268 s
  have hm := Nat.and_self 0x4700268
  refine next_kept e ?_
  repeat' first
    | (with_reducible first | assumption | exact mask_sub hm rfl | apply dramInitDone_kept)
    | intro _
    | dsimp only

theorem oscCheck_kept {m : Nat} {og s : State} (h : Kept m og s) (hm : 0x8 &&& m = 0x8) : ∀ a2 a3, Kept m og (oscCheck s a2 a3) := by
  intro a2 a3
  unfold oscCheck
  repeat' first
    | (with_reducible first | assumption | exact mask_sub hm rfl | apply fput_kept | apply fputAt_kept)
    | intro _
    | dsimp only
    | split

theorem execOscCheck_kept {s t : State} {a1 a2} (e : execOscCheck a1 a2 s = .next t) : Kept 0x8 s t := by
  have h := Kept.same 0x8 s
  have hm := Nat.and_self 0x8
  refine next_kept e ?_
  repeat' first
    | (with_reducible first | assumption | exact mask_sub hm rfl | apply oscCheck_kept)
    | intro _
    | dsimp only

theorem execDramRetrain_kept {s t : State} {a1} (e : execDramRetrain a1 s = .next t) : Kept 0x88 s t := by
  have h := Kept.same 0x88 s
  have hm := Nat.and_self 0x88
  refine next_kept e ?_
  repeat' first
    | (with_reducible first | assumption | exact mask_sub hm rfl | apply reply_kept | apply fput_kept)
    | intro _
    | dsimp only

theorem checksBack_kept {m : Nat} {og s : State} (h : Kept m og s) (hm : 0x600000 &&& m = 0x600000) : ∀ a2, Kept m og (checksBack s a2) := by
  intro a2
  unfold checksBack
  repeat' first
    | (with_reducible first | assumption | exact mask_sub hm rfl | apply forEach_kept | apply checkBack_kept)
    | intro _
    | dsimp only

theorem chanQuiet_kept {m : Nat} {og s : State} (h : Kept m og s) (hm : 0x600000 &&& m = 0x600000) : ∀ a2, Kept m og (chanQuiet s a2) := by
  intro a2
  unfold chanQuiet
  repeat' first
    | (with_reducible first | assumption | exact mask_sub hm rfl | apply modDram_kept | apply checksBack_kept)
    | intro _
    | dsimp only

theorem retrainStart_kept {m : Nat} {og s : State} (h : Kept m og s) (hm : 0x2200000000600208 &&& m = 0x2200000000600208) : ∀ a2, Kept m og (retrainStart s a2) := by
  intro a2
  unfold retrainStart
  repeat' first
    | (with_reducible first | assumption | exact mask_sub hm rfl | apply fset_kept | apply fputAt_kept | apply fput_kept | apply xingClockFall_kept | apply chanQuiet_kept)
    | intro _
    | dsimp only
    | split
    | (with_reducible first | apply kept_ddrForce | apply kept_retrained | apply kept_retrained_ddrForce)

theorem execRetrainStart_kept {s t : State} {a1} (e : execRetrainStart a1 s = .next t) : Kept 0x2200000000600208 s t := by
  have h := Kept.same 0x2200000000600208 s
  have hm := Nat.and_self 0x2200000000600208
  refine next_kept e ?_
  repeat' first
    | (with_reducible first | assumption | exact mask_sub hm rfl | apply retrainStart_kept)
    | intro _
    | dsimp only

theorem selfRefresh_kept {m : Nat} {og s : State} (h : Kept m og s) (hm : 0xe00008 &&& m = 0xe00008) : Kept m og (selfRefresh s) := by
  unfold selfRefresh
  extract_lets +onlyGivenNames s1 s2
  have k_s1 : Kept m og s1 := by
    dsimp only [s1]
    repeat' first
      | (with_reducible first | assumption | exact mask_sub hm rfl | apply forEach_kept | apply modDram_kept | apply chanQuiet_kept | apply remapDisarm_kept | apply wr_kept | apply fput_kept)
      | intro _
      | dsimp only
      | (with_reducible first | apply kept_dramSelfReq)
  clear_value s1
  have k_s2 : Kept m og s2 := by
    dsimp only [s2]
    repeat' first
      | (with_reducible first | assumption | exact mask_sub hm rfl | apply forEach_kept | apply modDram_kept | apply chanQuiet_kept | apply remapDisarm_kept | apply wr_kept | apply fput_kept)
      | intro _
      | dsimp only
      | (with_reducible first | apply kept_dramSelfReq)
  clear_value s2
  repeat' first
    | (with_reducible first | assumption | exact mask_sub hm rfl | apply forEach_kept | apply modDram_kept | apply chanQuiet_kept | apply remapDisarm_kept | apply wr_kept | apply fput_kept)
    | intro _
    | dsimp only
    | (with_reducible first | apply kept_dramSelfReq)

theorem selfRefreshRequest_kept {m : Nat} {og s : State} (h : Kept m og s) (hm : 0xe00008 &&& m = 0xe00008) : Kept m og (selfRefreshRequest s) := by
  unfold selfRefreshRequest
  repeat' first
    | (with_reducible first | assumption | exact mask_sub hm rfl | apply selfRefresh_kept)
    | intro _
    | dsimp only
    | split
    | (with_reducible first | apply kept_dramSelfReq)

theorem selfRefreshExit_kept {m : Nat} {og s : State} (h : Kept m og s) (hm : 0x400008 &&& m = 0x400008) : Kept m og (selfRefreshExit s) := by
  unfold selfRefreshExit
  repeat' first
    | (with_reducible first | assumption | exact mask_sub hm rfl | apply forEach_kept | apply lapsBegin_kept | apply fput_kept | apply trained_kept)
    | intro _
    | dsimp only
    | split

theorem retrainDone_kept {m : Nat} {og s : State} (h : Kept m og s) (hm : 0x4e00208 &&& m = 0x4e00208) : ∀ a2 a3, Kept m og (retrainDone s a2 a3) := by
  intro a2 a3
  unfold retrainDone
  repeat' first
    | (with_reducible first | assumption | exact mask_sub hm rfl | apply modDram_kept | apply fclr_kept | apply fput_kept | apply xingClockRise_kept | apply trained_kept | apply selfRefresh_kept | apply trainFail_kept)
    | intro _
    | dsimp only
    | split
    | (with_reducible first | apply kept_dramSelfReq)

theorem execRetrainDone_kept {s t : State} {a1 a2} (e : execRetrainDone a1 a2 s = .next t) : Kept 0x4e00208 s t := by
  have h := Kept.same 0x4e00208 s
  have hm := Nat.and_self 0x4e00208
  refine next_kept e ?_
  repeat' first
    | (with_reducible first | assumption | exact mask_sub hm rfl | apply retrainDone_kept)
    | intro _
    | dsimp only

end Machine
end Sys2Proof
end

