-- ==== Sys2Proof/Laws/KeptSession.lean ====
section
/-! SUPPORT. What the operations of Machine/Session.lean keep (Laws/Keeps.lean). -/

namespace Sys2Proof
namespace Machine

theorem mediaShow_kept {m : Nat} {og s : State} (h : Kept m og s) (hm : 0x8 &&& m = 0x8) : Kept m og (mediaShow s) := by
  unfold mediaShow
  repeat' first
    | (with_reducible first | assumption | exact mask_sub hm rfl | apply fput_kept)
    | intro _
    | dsimp only
    | split

theorem keyDrop_kept {m : Nat} {og s : State} (h : Kept m og s) (hm : 0x1000000000000008 &&& m = 0x1000000000000008) : Kept m og (keyDrop s) := by
  unfold keyDrop
  repeat' first
    | (with_reducible first | assumption | exact mask_sub hm rfl | apply mediaShow_kept | apply modArv_kept)
    | intro _
    | dsimp only

theorem slotWrap_kept {m : Nat} {og s : State} (h : Kept m og s) (hm : 0x10000 &&& m = 0x10000) : ∀ a2 a3, Kept m og (slotWrap s a2 a3).1 := by
  intro a2 a3
  unfold slotWrap
  extract_lets +onlyGivenNames salt
  try clear_value salt
  repeat' first
    | (with_reducible first | assumption | exact mask_sub hm rfl | apply tickFrees_kept)
    | intro _
    | dsimp only

theorem slotWrap_keq {m : Nat} {og s t : State} {r} {a2 a3} (e : slotWrap s a2 a3 = (t, r)) (h : Kept m og s) (hm : 0x10000 &&& m = 0x10000) : Kept m og t := by
  have k := slotWrap_kept h hm a2 a3
  rw [e] at k
  exact k

theorem catLoad_kept {m : Nat} {og s : State} (h : Kept m og s) (hm : 0x810000000057e30e8 &&& m = 0x810000000057e30e8) : ∀ a2, Kept m og (catLoad s a2) := by
  intro a2
  unfold catLoad
  extract_lets +onlyGivenNames q
  try clear_value q
  repeat' first
    | (with_reducible first | assumption | exact mask_sub hm rfl | apply modArv_kept | apply catStore_kept)
    | intro _
    | dsimp only
    | (with_reducible first | apply foldl_kept | apply foldlFst_kept | apply getD_kept)

theorem mediaUnlock_kept {m : Nat} {og s : State} (h : Kept m og s) (hm : 0x818000000057e30e8 &&& m = 0x818000000057e30e8) : ∀ a2, Kept m og (mediaUnlock s a2) := by
  intro a2
  unfold mediaUnlock
  repeat' first
    | (with_reducible first | assumption | exact mask_sub hm rfl | apply mediaShow_kept | apply modArv_kept | apply modDisc_kept | apply catLoad_kept)
    | intro _
    | dsimp only
    | split

theorem jnlShow_kept {m : Nat} {og s : State} (h : Kept m og s) (hm : 0x10008 &&& m = 0x10008) : ∀ a2 a3 a4 a5, Kept m og (jnlShow s a2 a3 a4 a5) := by
  intro a2 a3 a4 a5
  unfold jnlShow
  extract_lets +onlyGivenNames s1
  have k_s1 : Kept m og s1 := by
    dsimp only [s1]
    repeat' first
      | (with_reducible first | assumption | exact mask_sub hm rfl | apply fput_kept | apply tickFree_kept)
      | intro _
      | dsimp only
      | split
  clear_value s1
  repeat' first
    | (with_reducible first | assumption | exact mask_sub hm rfl | apply fput_kept | apply tickFree_kept)
    | intro _
    | dsimp only
    | split

theorem jnlWrite_kept {m : Nat} {og s : State} (h : Kept m og s) (hm : 0x1800000000013008 &&& m = 0x1800000000013008) : ∀ a2 a3 a4 a5 a6 a7 a8 a9, Kept m og (jnlWrite s a2 a3 a4 a5 a6 a7 a8 a9) := by
  intro a2 a3 a4 a5 a6 a7 a8 a9
  unfold jnlWrite
  extract_lets +onlyGivenNames last prog e mirror s1
  try clear_value last
  try clear_value prog
  try clear_value e
  try clear_value mirror
  have k_s1 : Kept m og s1 := by
    dsimp only [s1]
    repeat' first
      | (with_reducible first | assumption | exact mask_sub hm rfl | apply modArv_kept | apply jnlShow_kept | apply count_kept | apply sif_kept | apply modDisc_kept | apply recMirror_kept)
      | intro _
      | dsimp only
      | (with_reducible first | apply getD_kept)
      | split
  clear_value s1
  repeat' first
    | (with_reducible first | assumption | exact mask_sub hm rfl | apply modArv_kept | apply jnlShow_kept | apply count_kept | apply sif_kept | apply modDisc_kept | apply recMirror_kept)
    | intro _
    | dsimp only
    | (with_reducible first | apply getD_kept)
    | split

theorem jnlEnd_kept {m : Nat} {og s : State} (h : Kept m og s) (hm : 0x1c00000000013008 &&& m = 0x1c00000000013008) : ∀ a2, Kept m og (jnlEnd s a2) := by
  intro a2
  unfold jnlEnd
  extract_lets +onlyGivenNames s1
  have k_s1 : Kept m og s1 := by
    dsimp only [s1]
    repeat' first
      | (with_reducible first | assumption | exact mask_sub hm rfl | apply fset_kept | apply fclr_kept | apply jnlWrite_kept | apply eventLog_kept | apply modArv_kept)
      | intro _
      | dsimp only
  clear_value s1
  repeat' first
    | (with_reducible first | assumption | exact mask_sub hm rfl | apply fset_kept | apply fclr_kept | apply jnlWrite_kept | apply eventLog_kept | apply modArv_kept)
    | intro _
    | dsimp only

theorem phaseDone_kept {m : Nat} {og s : State} (h : Kept m og s) (hm : 0x818000000057f30e8 &&& m = 0x818000000057f30e8) : ∀ a2 a3 a4, Kept m og (phaseDone s a2 a3 a4) := by
  intro a2 a3 a4
  unfold phaseDone
  repeat' first
    | (with_reducible first | assumption | exact mask_sub hm rfl | apply slotWrap_kept | refine slotWrap_keq (by assumption) ?_ ?_ | apply tickFrees_kept | apply modArv_kept | apply modDisc_kept | apply recWide_kept | apply forEach_kept | apply defectWrite_kept | apply siSnapshot_kept | apply siStore_kept | apply catStore_kept | apply catWrite_kept | apply keyDrop_kept | apply recDrop_kept | apply fset_kept)
    | intro _
    | dsimp only
    | split

theorem phasesDone_kept {m : Nat} {og s : State} (h : Kept m og s) (hm : 0x818000000057f30e8 &&& m = 0x818000000057f30e8) : ∀ a2 a3 a4 a5, Kept m og (phasesDone s a2 a3 a4 a5) := by
  intro a2 a3 a4 a5
  unfold phasesDone
  repeat' first
    | (with_reducible first | assumption | exact mask_sub hm rfl | apply forEach_kept | apply phaseDone_kept)
    | intro _
    | dsimp only

theorem formatWrite_kept {m : Nat} {og s : State} (h : Kept m og s) (hm : 0x800000000000000 &&& m = 0x800000000000000) : ∀ a2, Kept m og (formatWrite s a2) := by
  intro a2
  unfold formatWrite
  repeat' first
    | (with_reducible first | assumption | exact mask_sub hm rfl | apply modDisc_kept | apply recWide_kept)
    | intro _
    | dsimp only

theorem opFinish_kept {m : Nat} {og s : State} (h : Kept m og s) (hm : 0x1c00000000013008 &&& m = 0x1c00000000013008) : ∀ a2 a3, Kept m og (opFinish s a2 a3) := by
  intro a2 a3
  unfold opFinish
  repeat' first
    | (with_reducible first | assumption | exact mask_sub hm rfl | apply jnlEnd_kept | apply mediaShow_kept | apply formatWrite_kept | apply modArv_kept | apply modDisc_kept | apply recWide_kept | apply hostComplete_kept)
    | intro _
    | dsimp only
    | (with_reducible first | apply getD_kept)
    | split

theorem journalStep_kept {m : Nat} {og s : State} (h : Kept m og s) (hm : 0x81c000000057f30e8 &&& m = 0x81c000000057f30e8) : ∀ a2, Kept m og (journalStep s a2) := by
  intro a2
  unfold journalStep
  extract_lets +onlyGivenNames op ph upTo
  try clear_value op
  try clear_value ph
  try clear_value upTo
  repeat' first
    | (with_reducible first | assumption | exact mask_sub hm rfl | apply phasesDone_kept | apply opFinish_kept | apply jnlWrite_kept)
    | intro _
    | dsimp only
    | split

theorem execJournalEntryWrite_kept {s t : State} {a1} (e : execJournalEntryWrite a1 s = .next t) : Kept 0x81c000000057f30e8 s t := by
  have h := Kept.same 0x81c000000057f30e8 s
  have hm := Nat.and_self 0x81c000000057f30e8
  refine next_kept e ?_
  repeat' first
    | (with_reducible first | assumption | exact mask_sub hm rfl | apply journalStep_kept)
    | intro _
    | dsimp only

theorem adminData_kept {m : Nat} {og s : State} (h : Kept m og s) (hm : 0x400000000003008 &&& m = 0x400000000003008) : ∀ a2 a3 a4 f5, (∀ u0 u1, Kept m og u0 → Kept m og (f5 u0 u1)) → Kept m og (adminData s a2 a3 a4 f5) := by
  intro a2 a3 a4 f5 hf5
  unfold adminData
  repeat' first
    | (with_reducible first | assumption | exact mask_sub hm rfl | apply hf5 | apply hostComplete_kept | apply fset_kept)
    | intro _
    | dsimp only
    | split

theorem inSession_kept {m : Nat} {og s : State} (h : Kept m og s) (hm : 0x1400000000003008 &&& m = 0x1400000000003008) : ∀ a2 f3, (∀ u0 u1, Kept m og u0 → Kept m og (f3 u0 u1)) → Kept m og (inSession s a2 f3) := by
  intro a2 f3 hf3
  unfold inSession
  repeat' first
    | (with_reducible first | assumption | exact mask_sub hm rfl | apply hf3 | apply hostComplete_kept | apply modArv_kept)
    | intro _
    | dsimp only
    | split

theorem sessionOpen_kept {m : Nat} {og s : State} (h : Kept m og s) (hm : 0x81c000000057f30e8 &&& m = 0x81c000000057f30e8) : ∀ a2 a3, Kept m og (sessionOpen s a2 a3) := by
  intro a2 a3
  unfold sessionOpen
  extract_lets +onlyGivenNames handle s1 s2 s3 s4
  try clear_value handle
  have k_s1 : Kept m og s1 := by
    dsimp only [s1]
    repeat' first
      | (with_reducible first | assumption | exact mask_sub hm rfl | apply fput_kept | apply tickFree_kept | apply modArv_kept | apply mediaUnlock_kept | apply fclr_kept | apply hostComplete_kept | apply count_kept)
      | intro _
      | dsimp only
      | split
  clear_value s1
  have k_s2 : Kept m og s2 := by
    dsimp only [s2]
    repeat' first
      | (with_reducible first | assumption | exact mask_sub hm rfl | apply fput_kept | apply tickFree_kept | apply modArv_kept | apply mediaUnlock_kept | apply fclr_kept | apply hostComplete_kept | apply count_kept)
      | intro _
      | dsimp only
      | split
  clear_value s2
  have k_s3 : Kept m og s3 := by
    dsimp only [s3]
    repeat' first
      | (with_reducible first | assumption | exact mask_sub hm rfl | apply fput_kept | apply tickFree_kept | apply modArv_kept | apply mediaUnlock_kept | apply fclr_kept | apply hostComplete_kept | apply count_kept)
      | intro _
      | dsimp only
      | split
  clear_value s3
  have k_s4 : Kept m og s4 := by
    dsimp only [s4]
    repeat' first
      | (with_reducible first | assumption | exact mask_sub hm rfl | apply fput_kept | apply tickFree_kept | apply modArv_kept | apply mediaUnlock_kept | apply fclr_kept | apply hostComplete_kept | apply count_kept)
      | intro _
      | dsimp only
      | split
  clear_value s4
  repeat' first
    | (with_reducible first | assumption | exact mask_sub hm rfl | apply fput_kept | apply tickFree_kept | apply modArv_kept | apply mediaUnlock_kept | apply fclr_kept | apply hostComplete_kept | apply count_kept)
    | intro _
    | dsimp only
    | split

theorem sessionFail_kept {m : Nat} {og s : State} (h : Kept m og s) (hm : 0x1000000000000008 &&& m = 0x1000000000000008) : ∀ a2, Kept m og (sessionFail s a2) := by
  intro a2
  unfold sessionFail
  extract_lets +onlyGivenNames n s1
  try clear_value n
  have k_s1 : Kept m og s1 := by
    dsimp only [s1]
    repeat' first
      | (with_reducible first | assumption | exact mask_sub hm rfl | apply modArv_kept | apply fput_kept | apply fset_kept)
      | intro _
      | dsimp only
      | split
  clear_value s1
  repeat' first
    | (with_reducible first | assumption | exact mask_sub hm rfl | apply modArv_kept | apply fput_kept | apply fset_kept)
    | intro _
    | dsimp only
    | split

theorem openSession_kept {m : Nat} {og s : State} (h : Kept m og s) (hm : 0x81c000000057f30e8 &&& m = 0x81c000000057f30e8) : ∀ a1 a3, Kept m og (openSession a1 s a3) := by
  intro a1 a3
  unfold openSession
  repeat' first
    | (with_reducible first | assumption | exact mask_sub hm rfl | apply hostComplete_kept | apply adminData_kept | apply sessionOpen_kept | apply sessionFail_kept)
    | intro _
    | dsimp only
    | split

theorem execOpenSession_kept {s t : State} {a1 a2} (e : execOpenSession a1 a2 s = .next t) : Kept 0x81c000000057f30e8 s t := by
  have h := Kept.same 0x81c000000057f30e8 s
  have hm := Nat.and_self 0x81c000000057f30e8
  refine next_kept e ?_
  repeat' first
    | (with_reducible first | assumption | exact mask_sub hm rfl | apply hostCmd_kept | apply openSession_kept)
    | intro _
    | dsimp only

theorem execKeyMismatchDelay_kept {s t : State} (e : execKeyMismatchDelay s = .next t) : Kept 0x1400000000003008 s t := by
  have h := Kept.same 0x1400000000003008 s
  have hm := Nat.and_self 0x1400000000003008
  refine next_kept e ?_
  repeat' first
    | (with_reducible first | assumption | exact mask_sub hm rfl | apply hostComplete_kept | apply count_kept | apply modArv_kept)
    | intro _
    | dsimp only
    | split

theorem execCloseSession_kept {s t : State} {a1} (e : execCloseSession a1 s = .next t) : Kept 0x1400000000003008 s t := by
  have h := Kept.same 0x1400000000003008 s
  have hm := Nat.and_self 0x1400000000003008
  refine next_kept e ?_
  repeat' first
    | (with_reducible first | assumption | exact mask_sub hm rfl | apply hostCmd_kept | apply inSession_kept | apply hostComplete_kept | apply sessionsClose_kept)
    | intro _
    | dsimp only

theorem execSessionTimeout_kept {s t : State} {a1} (e : execSessionTimeout a1 s = .next t) : Kept 0x1000000000000008 s t := by
  have h := Kept.same 0x1000000000000008 s
  have hm := Nat.and_self 0x1000000000000008
  refine next_kept e ?_
  repeat' first
    | (with_reducible first | assumption | exact mask_sub hm rfl | apply fset_kept | apply sessionsClose_kept)
    | intro _
    | dsimp only
    | split

theorem execLockMedia_kept {s t : State} {a1} (e : execLockMedia a1 s = .next t) : Kept 0x1400000000003008 s t := by
  have h := Kept.same 0x1400000000003008 s
  have hm := Nat.and_self 0x1400000000003008
  refine next_kept e ?_
  repeat' first
    | (with_reducible first | assumption | exact mask_sub hm rfl | apply hostCmd_kept | apply inSession_kept | apply hostComplete_kept | apply keyDrop_kept)
    | intro _
    | dsimp only

theorem execProgress_kept {s t : State} {a1} (e : execProgress a1 s = .next t) : Kept 0x400000000003008 s t := by
  have h := Kept.same 0x400000000003008 s
  have hm := Nat.and_self 0x400000000003008
  refine next_kept e ?_
  repeat' first
    | (with_reducible first | assumption | exact mask_sub hm rfl | apply hostCmd_kept | apply hostComplete_kept)
    | intro _
    | dsimp only

theorem keyChange_kept {m : Nat} {og s : State} (h : Kept m og s) (hm : 0x81c000000057f30e8 &&& m = 0x81c000000057f30e8) : ∀ a2 a3 a4, Kept m og (keyChange s a2 a3 a4) := by
  intro a2 a3 a4
  unfold keyChange
  extract_lets +onlyGivenNames body s0
  try clear_value body
  have k_s0 : Kept m og s0 := by
    dsimp only [s0]
    repeat' first
      | (with_reducible first | assumption | exact mask_sub hm rfl | apply tickFrees_kept | apply phaseDone_kept | apply hostComplete_kept | apply modArv_kept | apply mediaUnlock_kept | apply jnlWrite_kept)
      | intro _
      | dsimp only
      | split
  clear_value s0
  repeat' first
    | (with_reducible first | assumption | exact mask_sub hm rfl | apply tickFrees_kept | apply phaseDone_kept | apply hostComplete_kept | apply modArv_kept | apply mediaUnlock_kept | apply jnlWrite_kept)
    | intro _
    | dsimp only
    | split

theorem setAdminKey_kept {m : Nat} {og s : State} (h : Kept m og s) (hm : 0x81c000000057f30e8 &&& m = 0x81c000000057f30e8) : ∀ a1 a3, Kept m og (setAdminKey a1 s a3) := by
  intro a1 a3
  unfold setAdminKey
  repeat' first
    | (with_reducible first | assumption | exact mask_sub hm rfl | apply hostComplete_kept | apply adminData_kept | apply keyChange_kept | apply inSession_kept)
    | intro _
    | dsimp only
    | split

theorem execSetAdminKey_kept {s t : State} {a1 a2} (e : execSetAdminKey a1 a2 s = .next t) : Kept 0x81c000000057f30e8 s t := by
  have h := Kept.same 0x81c000000057f30e8 s
  have hm := Nat.and_self 0x81c000000057f30e8
  refine next_kept e ?_
  repeat' first
    | (with_reducible first | assumption | exact mask_sub hm rfl | apply hostCmd_kept | apply setAdminKey_kept)
    | intro _
    | dsimp only

theorem formatCmd_kept {m : Nat} {og s : State} (h : Kept m og s) (hm : 0x1c00000000013008 &&& m = 0x1c00000000013008) : ∀ a1 a3, Kept m og (formatCmd a1 s a3) := by
  intro a1 a3
  unfold formatCmd
  repeat' first
    | (with_reducible first | assumption | exact mask_sub hm rfl | apply hostComplete_kept | apply inSession_kept | apply adminData_kept | apply modArv_kept | apply jnlWrite_kept)
    | intro _
    | dsimp only
    | split

theorem execFormat_kept {s t : State} {a1 a2} (e : execFormat a1 a2 s = .next t) : Kept 0x1c00000000013008 s t := by
  have h := Kept.same 0x1c00000000013008 s
  have hm := Nat.and_self 0x1c00000000013008
  refine next_kept e ?_
  repeat' first
    | (with_reducible first | assumption | exact mask_sub hm rfl | apply hostCmd_kept | apply formatCmd_kept)
    | intro _
    | dsimp only

theorem sanitiseCmd_kept {m : Nat} {og s : State} (h : Kept m og s) (hm : 0x1c00000000013008 &&& m = 0x1c00000000013008) : ∀ a1 a3, Kept m og (sanitiseCmd a1 s a3) := by
  intro a1 a3
  unfold sanitiseCmd
  extract_lets +onlyGivenNames s0
  have k_s0 : Kept m og s0 := by
    dsimp only [s0]
    repeat' first
      | (with_reducible first | assumption | exact mask_sub hm rfl | apply modArv_kept | apply hostComplete_kept | apply inSession_kept | apply modDisc_kept | apply jnlWrite_kept | apply keyDrop_kept)
      | intro _
      | dsimp only
      | split
  clear_value s0
  repeat' first
    | (with_reducible first | assumption | exact mask_sub hm rfl | apply modArv_kept | apply hostComplete_kept | apply inSession_kept | apply modDisc_kept | apply jnlWrite_kept | apply keyDrop_kept)
    | intro _
    | dsimp only
    | split

theorem execSanitise_kept {s t : State} {a1 a2} (e : execSanitise a1 a2 s = .next t) : Kept 0x1c00000000013008 s t := by
  have h := Kept.same 0x1c00000000013008 s
  have hm := Nat.and_self 0x1c00000000013008
  refine next_kept e ?_
  repeat' first
    | (with_reducible first | assumption | exact mask_sub hm rfl | apply hostCmd_kept | apply sanitiseCmd_kept)
    | intro _
    | dsimp only

end Machine
end Sys2Proof
end

