-- ==== Sys2Proof/Laws/KeptMount.lean ====
section
/-! SUPPORT. What the operations of Machine/Mount.lean keep (Laws/Keeps.lean). -/

namespace Sys2Proof
namespace Machine

theorem indexBuild_kept {m : Nat} {og s : State} (h : Kept m og s) (hm : 0x808000000057e30e8 &&& m = 0x808000000057e30e8) : ∀ a2 a3 a4, Kept m og (indexBuild s a2 a3 a4) := by
  intro a2 a3 a4
  unfold indexBuild
  extract_lets +onlyGivenNames runs all
  try clear_value runs
  try clear_value all
  repeat' first
    | (with_reducible first | assumption | exact mask_sub hm rfl | apply forEach_kept | apply siStore_kept | apply siReplace_kept)
    | intro _
    | dsimp only
    | (with_reducible first | apply foldl_kept | apply foldlFst_kept)

theorem jnlIdle_kept {m : Nat} {og s : State} (h : Kept m og s) (hm : 0x10008 &&& m = 0x10008) : Kept m og (jnlIdle s) := by
  unfold jnlIdle
  extract_lets +onlyGivenNames pend
  try clear_value pend
  repeat' first
    | (with_reducible first | assumption | exact mask_sub hm rfl | apply fputB_kept | apply fclr_kept | apply jnlShow_kept)
    | intro _
    | dsimp only
    | split

theorem jnlResume_kept {m : Nat} {og s : State} (h : Kept m og s) (hm : 0x1c00000000013008 &&& m = 0x1c00000000013008) : Kept m og (jnlResume s) := by
  unfold jnlResume
  extract_lets +onlyGivenNames die mir pick
  try clear_value die
  try clear_value mir
  try clear_value pick
  repeat' first
    | (with_reducible first | assumption | exact mask_sub hm rfl | apply jnlIdle_kept | apply modArv_kept | apply fclr_kept | apply jnlShow_kept | apply jnlEnd_kept | apply fputB_kept)
    | intro _
    | dsimp only
    | (with_reducible first | apply getD_kept)
    | split

theorem reportDiffer_kept {m : Nat} {og s : State} (h : Kept m og s) (hm : 0x400000000003008 &&& m = 0x400000000003008) : ∀ a2, Kept m og (reportDiffer s a2) := by
  intro a2
  unfold reportDiffer
  repeat' first
    | (with_reducible first | assumption | exact mask_sub hm rfl | apply eventLog_kept | apply countStatus_kept)
    | intro _
    | dsimp only
    | split

theorem discMount_kept {m : Nat} {og s : State} (h : Kept m og s) (hm : 0x81c000000057f30e8 &&& m = 0x81c000000057f30e8) : ∀ a2 a3 a4 a5, Kept m og (discMount s a2 a3 a4 a5) := by
  intro a2 a3 a4 a5
  unfold discMount
  repeat' first
    | (with_reducible first | assumption | exact mask_sub hm rfl | apply jnlIdle_kept | apply modDisc_kept | apply indexBuild_kept | apply catLoad_kept | apply jnlResume_kept | apply mediaShow_kept | apply reportDiffer_kept)
    | intro _
    | dsimp only
    | (with_reducible first | apply foldl_kept | apply foldlFst_kept | apply getD_kept)
    | split

theorem execDiscMount_kept {s t : State} {a1 a2 a3 a4} (e : execDiscMount a1 a2 a3 a4 s = .next t) : Kept 0x81c000000057f30e8 s t := by
  have h := Kept.same 0x81c000000057f30e8 s
  have hm := Nat.and_self 0x81c000000057f30e8
  refine next_kept e ?_
  repeat' first
    | (with_reducible first | assumption | exact mask_sub hm rfl | apply discMount_kept)
    | intro _
    | dsimp only

theorem execDiscRemoval_kept {s t : State} (e : execDiscRemoval s = .next t) : Kept 0x81c000000057f30e8 s t := by
  have h := Kept.same 0x81c000000057f30e8 s
  have hm := Nat.and_self 0x81c000000057f30e8
  refine next_kept e ?_
  repeat' first
    | (with_reducible first | assumption | exact mask_sub hm rfl | apply forEach_kept | apply hostComplete_kept | apply catStore_kept | apply siStore_kept | apply keyDrop_kept | apply modArv_kept | apply jnlIdle_kept | apply mediaShow_kept | apply modDisc_kept)
    | intro _
    | dsimp only

end Machine
end Sys2Proof
end

