-- ==== Sys2Proof/Laws/KeptOperands.lean ====
section
/-! SUPPORT. What the operations of Machine/Operands.lean keep (Laws/Keeps.lean). -/

namespace Sys2Proof
namespace Machine

theorem modCore_kept {m : Nat} {og s : State} (h : Kept m og s) (hm : 0x80000000000000000 &&& m = 0x80000000000000000) (p : Fin 4) (f : Core → Core)
    (hf : ∀ c : Core, (c.x)[0] = 0 → ((f c).x)[0] = 0) : Kept m og (modCore s p f) := by
  unfold modCore
  refine kept_core h hm ?_
  intro z q
  by_cases e : p = q
  · subst e
    simp only [Fin.getElem_fin, Vector.getElem_set_self]
    exact hf _ (z p)
  · have e' : p.val ≠ q.val := fun k => e (Fin.ext k)
    simp only [Fin.getElem_fin, Vector.getElem_set_ne _ _ e']
    exact z q

theorem zero_put {c : Core} (n : Nat) (v : DWord) (h : (c.x)[0] = 0) : ((c.put n v).x)[0] = 0 := by
  unfold Core.put
  split
  · exact h
  · rename_i hn
    simp only [Vector.set!_eq_setIfInBounds]
    rw [Vector.getElem_setIfInBounds_ne _ (by omega)]
    exact h

theorem retireAt_kept {m : Nat} {og s : State} (h : Kept m og s) (hm : 0x80000000000003000 &&& m = 0x80000000000003000) (p : Fin 4) (pc : DWord) (f : Core → Core)
    (hf : ∀ c : Core, (c.x)[0] = 0 → ((f c).x)[0] = 0) : Kept m og (retireAt s p pc f) := by
  unfold retireAt
  refine count_kept (modCore_kept h (mask_sub hm rfl) _ _ ?_) (mask_sub hm rfl) _
  intro c hc
  exact hf _ hc

theorem retire_kept {m : Nat} {og s : State} (h : Kept m og s) (hm : 0x80000000000003000 &&& m = 0x80000000000003000) : ∀ a2 a3 a4, Kept m og (retire s a2 a3 a4) := by
  intro a2 a3 a4
  unfold retire
  repeat' first
    | (with_reducible first | assumption | exact mask_sub hm rfl | apply retireAt_kept)
    | intro _
    | dsimp only
    | exact zero_put _ _ (by assumption)

end Machine
end Sys2Proof
end

