-- ==== Sys2Proof/Laws/KeptSpinOps.lean ====
section
/-! SUPPORT. What the operations of Machine/SpinOps.lean keep (Laws/Keeps.lean). -/

namespace Sys2Proof
namespace Machine

theorem modSpn_kept {m : Nat} {og s : State} (h : Kept m og s) (hm : 0x80000000000000 &&& m = 0x80000000000000) : ∀ a2, Kept m og (modSpn s a2) := by
  intro a2
  unfold modSpn
  repeat' first
    | (with_reducible first | assumption | exact mask_sub hm rfl)
    | intro _
    | dsimp only
    | (with_reducible first | apply kept_spn)

theorem spnEnter_kept {m : Nat} {og s : State} (h : Kept m og s) (hm : 0x80000000000008 &&& m = 0x80000000000008) : ∀ a2 a3, Kept m og (spnEnter s a2 a3) := by
  intro a2 a3
  unfold spnEnter
  extract_lets +onlyGivenNames s1
  have k_s1 : Kept m og s1 := by
    dsimp only [s1]
    repeat' first
      | (with_reducible first | assumption | exact mask_sub hm rfl | apply modSpn_kept | apply fput_kept)
      | intro _
      | dsimp only
      | split
  clear_value s1
  repeat' first
    | (with_reducible first | assumption | exact mask_sub hm rfl | apply modSpn_kept | apply fput_kept)
    | intro _
    | dsimp only
    | split

theorem spnCause_kept {m : Nat} {og s : State} (h : Kept m og s) (hm : 0x8 &&& m = 0x8) : ∀ a2, Kept m og (spnCause s a2) := by
  intro a2
  unfold spnCause
  repeat' first
    | (with_reducible first | assumption | exact mask_sub hm rfl | apply fput_kept)
    | intro _
    | dsimp only

theorem spnStartFail_kept {m : Nat} {og s : State} (h : Kept m og s) (hm : 0x80000000000008 &&& m = 0x80000000000008) : ∀ a2, Kept m og (spnStartFail s a2) := by
  intro a2
  unfold spnStartFail
  repeat' first
    | (with_reducible first | assumption | exact mask_sub hm rfl | apply spnCause_kept | apply fset_kept | apply modSpn_kept)
    | intro _
    | dsimp only

theorem spnFaultBrake_kept {m : Nat} {og s : State} (h : Kept m og s) (hm : 0x80000000000008 &&& m = 0x80000000000008) : ∀ a2, Kept m og (spnFaultBrake s a2) := by
  intro a2
  unfold spnFaultBrake
  repeat' first
    | (with_reducible first | assumption | exact mask_sub hm rfl | apply spnCause_kept | apply fset_kept | apply spnEnter_kept | apply modSpn_kept)
    | intro _
    | dsimp only

theorem spnBrake_kept {m : Nat} {og s : State} (h : Kept m og s) (hm : 0x80000000000008 &&& m = 0x80000000000008) : Kept m og (spnBrake s) := by
  unfold spnBrake
  extract_lets +onlyGivenNames s1
  have k_s1 : Kept m og s1 := by
    dsimp only [s1]
    repeat' first
      | (with_reducible first | assumption | exact mask_sub hm rfl | apply spnEnter_kept | apply fput_kept)
      | intro _
      | dsimp only
      | split
  clear_value s1
  repeat' first
    | (with_reducible first | assumption | exact mask_sub hm rfl | apply spnEnter_kept | apply fput_kept)
    | intro _
    | dsimp only
    | split

theorem spnLatchOff_kept {m : Nat} {og s : State} (h : Kept m og s) (hm : 0x80000000000008 &&& m = 0x80000000000008) : ∀ a2, Kept m og (spnLatchOff s a2) := by
  intro a2
  unfold spnLatchOff
  repeat' first
    | (with_reducible first | assumption | exact mask_sub hm rfl | apply spnCause_kept | apply fset_kept | apply spnEnter_kept | apply modSpn_kept)
    | intro _
    | dsimp only

theorem spnRelease_kept {m : Nat} {og s : State} (h : Kept m og s) (hm : 0x80000000000008 &&& m = 0x80000000000008) : Kept m og (spnRelease s) := by
  unfold spnRelease
  repeat' first
    | (with_reducible first | assumption | exact mask_sub hm rfl | apply spnEnter_kept)
    | intro _
    | dsimp only
    | split

theorem spnSettle_kept {m : Nat} {og s : State} (h : Kept m og s) (hm : 0x80000000000008 &&& m = 0x80000000000008) : Kept m og (spnSettle s) := by
  unfold spnSettle
  extract_lets +onlyGivenNames st drive
  try clear_value st
  try clear_value drive
  repeat' first
    | (with_reducible first | assumption | exact mask_sub hm rfl | apply spnFaultBrake_kept | apply spnEnter_kept | apply spnStartFail_kept)
    | intro _
    | dsimp only
    | split

theorem spnSe8Down_kept {m : Nat} {og s : State} (h : Kept m og s) (hm : 0x80000000000008 &&& m = 0x80000000000008) : Kept m og (spnSe8Down s) := by
  unfold spnSe8Down
  repeat' first
    | (with_reducible first | assumption | exact mask_sub hm rfl | apply spnCause_kept | apply spnSettle_kept)
    | intro _
    | dsimp only
    | split

theorem spnSafeN_kept {m : Nat} {og s : State} (h : Kept m og s) (hm : 0x80000000000008 &&& m = 0x80000000000008) : ∀ a2, Kept m og (spnSafeN s a2) := by
  intro a2
  unfold spnSafeN
  extract_lets +onlyGivenNames s1
  have k_s1 : Kept m og s1 := by
    dsimp only [s1]
    repeat' first
      | (with_reducible first | assumption | exact mask_sub hm rfl | apply modSpn_kept | apply spnRelease_kept | apply spnCause_kept | apply spnSettle_kept)
      | intro _
      | dsimp only
      | split
  clear_value s1
  repeat' first
    | (with_reducible first | assumption | exact mask_sub hm rfl | apply modSpn_kept | apply spnRelease_kept | apply spnCause_kept | apply spnSettle_kept)
    | intro _
    | dsimp only
    | split

theorem spnChopFault_kept {m : Nat} {og s : State} (h : Kept m og s) (hm : 0x80000000000008 &&& m = 0x80000000000008) : ∀ a2, Kept m og (spnChopFault s a2) := by
  intro a2
  unfold spnChopFault
  extract_lets +onlyGivenNames s1
  have k_s1 : Kept m og s1 := by
    dsimp only [s1]
    repeat' first
      | (with_reducible first | assumption | exact mask_sub hm rfl | apply modSpn_kept | apply spnRelease_kept | apply spnCause_kept | apply spnSettle_kept)
      | intro _
      | dsimp only
      | split
  clear_value s1
  repeat' first
    | (with_reducible first | assumption | exact mask_sub hm rfl | apply modSpn_kept | apply spnRelease_kept | apply spnCause_kept | apply spnSettle_kept)
    | intro _
    | dsimp only
    | split

end Machine
end Sys2Proof
end

