-- ==== Sys2Proof/Laws/KeptServo.lean ====
section
/-! SUPPORT. What the operations of Machine/Servo.lean keep (Laws/Keeps.lean). -/

namespace Sys2Proof
namespace Machine

theorem modSe_kept {m : Nat} {og s : State} (h : Kept m og s) (hm : 0x20000000000000 &&& m = 0x20000000000000) : ∀ a2 a3, Kept m og (modSe s a2 a3) := by
  intro a2 a3
  unfold modSe
  repeat' first
    | (with_reducible first | assumption | exact mask_sub hm rfl)
    | intro _
    | dsimp only
    | (with_reducible first | apply kept_se)

theorem gensAdvance_kept {m : Nat} {og s : State} (h : Kept m og s) (hm : 0x20000000000008 &&& m = 0x20000000000008) : ∀ a2 a3, Kept m og (gensAdvance s a2 a3) := by
  intro a2 a3
  unfold gensAdvance
  repeat' first
    | (with_reducible first | assumption | exact mask_sub hm rfl | apply forEach_kept | apply modSe_kept | apply fset_kept)
    | intro _
    | dsimp only
    | split

theorem statusZero_kept {m : Nat} {og s : State} (h : Kept m og s) (hm : 0x8003001dcfd7e30e8 &&& m = 0x8003001dcfd7e30e8) : ∀ a2, Kept m og (statusZero s a2) := by
  intro a2
  unfold statusZero
  repeat' first
    | (with_reducible first | assumption | exact mask_sub hm rfl | apply modSe_kept | apply wedgeStatus_kept)
    | intro _
    | dsimp only
    | (with_reducible first | apply getD_kept)
    | split

theorem applyHeld_kept {m : Nat} {og s : State} (h : Kept m og s) (hm : 0x20000000000000 &&& m = 0x20000000000000) : ∀ a2, Kept m og (applyHeld s a2) := by
  intro a2
  unfold applyHeld
  repeat' first
    | (with_reducible first | assumption | exact mask_sub hm rfl | apply modSe_kept)
    | intro _
    | dsimp only
    | (with_reducible first | apply foldl_kept | apply foldlFst_kept)

theorem coefsHeld_kept {m : Nat} {og s : State} (h : Kept m og s) (hm : 0x800200000057e30e8 &&& m = 0x800200000057e30e8) : ∀ a2, Kept m og (coefsHeld s a2) := by
  intro a2
  unfold coefsHeld
  extract_lets +onlyGivenNames b l s1
  try clear_value b
  try clear_value l
  have k_s1 : Kept m og s1 := by
    dsimp only [s1]
    repeat' first
      | (with_reducible first | assumption | exact mask_sub hm rfl | apply modSe_kept | apply forEach_kept | refine memWrite_keq (by assumption) ?_ ?_)
      | intro _
      | dsimp only
      | (with_reducible first | apply foldl_kept | apply foldlFst_kept | apply getD_kept)
  clear_value s1
  repeat' first
    | (with_reducible first | assumption | exact mask_sub hm rfl | apply modSe_kept | apply forEach_kept | refine memWrite_keq (by assumption) ?_ ?_)
    | intro _
    | dsimp only
    | (with_reducible first | apply foldl_kept | apply foldlFst_kept | apply getD_kept)

theorem zeroDrives_kept {m : Nat} {og s : State} (h : Kept m og s) (hm : 0x20000000000000 &&& m = 0x20000000000000) : ∀ a2, Kept m og (zeroDrives s a2) := by
  intro a2
  unfold zeroDrives
  repeat' first
    | (with_reducible first | assumption | exact mask_sub hm rfl | apply modSe_kept)
    | intro _
    | dsimp only

theorem seLeft_kept {m : Nat} {og s : State} (h : Kept m og s) (hm : 0x80000000000008 &&& m = 0x80000000000008) : ∀ a2, Kept m og (seLeft s a2) := by
  intro a2
  unfold seLeft
  repeat' first
    | (with_reducible first | assumption | exact mask_sub hm rfl | apply spnSe8Down_kept)
    | intro _
    | dsimp only
    | split

theorem seHalt_kept {m : Nat} {og s : State} (h : Kept m og s) (hm : 0xa0000000000008 &&& m = 0xa0000000000008) : ∀ a2 a3, Kept m og (seHalt s a2 a3) := by
  intro a2 a3
  unfold seHalt
  extract_lets +onlyGivenNames s1 s2
  have k_s1 : Kept m og s1 := by
    dsimp only [s1]
    repeat' first
      | (with_reducible first | assumption | exact mask_sub hm rfl | apply modSe_kept | apply zeroDrives_kept | apply servoRelease_kept | apply fput_kept | apply applyHeld_kept | apply seLeft_kept)
      | intro _
      | dsimp only
      | split
  clear_value s1
  have k_s2 : Kept m og s2 := by
    dsimp only [s2]
    repeat' first
      | (with_reducible first | assumption | exact mask_sub hm rfl | apply modSe_kept | apply zeroDrives_kept | apply servoRelease_kept | apply fput_kept | apply applyHeld_kept | apply seLeft_kept)
      | intro _
      | dsimp only
      | split
  clear_value s2
  repeat' first
    | (with_reducible first | assumption | exact mask_sub hm rfl | apply modSe_kept | apply zeroDrives_kept | apply servoRelease_kept | apply fput_kept | apply applyHeld_kept | apply seLeft_kept)
    | intro _
    | dsimp only
    | split

theorem setBankState_kept {m : Nat} {og s : State} (h : Kept m og s) (hm : 0x8 &&& m = 0x8) : ∀ a2 a3 a4 a5, Kept m og (setBankState s a2 a3 a4 a5) := by
  intro a2 a3 a4 a5
  unfold setBankState
  extract_lets +onlyGivenNames at0
  try clear_value at0
  repeat' first
    | (with_reducible first | assumption | exact mask_sub hm rfl | apply fput_kept)
    | intro _
    | dsimp only
    | split

theorem sePut_kept {m : Nat} {og s : State} (h : Kept m og s) (hm : 0x20000000000018 &&& m = 0x20000000000018) : ∀ a2, Kept m og (sePut s a2) := by
  intro a2
  unfold sePut
  extract_lets +onlyGivenNames g0 g1 zero s1 s2
  try clear_value g0
  try clear_value g1
  try clear_value zero
  have k_s1 : Kept m og s1 := by
    dsimp only [s1]
    repeat' first
      | (with_reducible first | assumption | exact mask_sub hm rfl | apply applyPend_kept | apply fclr_kept | apply modSe_kept)
      | intro _
      | dsimp only
      | split
  clear_value s1
  have k_s2 : Kept m og s2 := by
    dsimp only [s2]
    repeat' first
      | (with_reducible first | assumption | exact mask_sub hm rfl | apply applyPend_kept | apply fclr_kept | apply modSe_kept)
      | intro _
      | dsimp only
      | split
  clear_value s2
  repeat' first
    | (with_reducible first | assumption | exact mask_sub hm rfl | apply applyPend_kept | apply fclr_kept | apply modSe_kept)
    | intro _
    | dsimp only
    | split

theorem seApply_kept {m : Nat} {og s : State} (h : Kept m og s) (hm : 0x20000000000018 &&& m = 0x20000000000018) : ∀ a2, Kept m og (seApply s a2) := by
  intro a2
  unfold seApply
  repeat' first
    | (with_reducible first | assumption | exact mask_sub hm rfl | apply sePut_kept | apply fset_kept)
    | intro _
    | dsimp only
    | split

theorem seBoundaryNow_kept {m : Nat} {og s : State} (h : Kept m og s) (hm : 0xa0000000000018 &&& m = 0xa0000000000018) : ∀ a2, Kept m og (seBoundaryNow s a2) := by
  intro a2
  unfold seBoundaryNow
  extract_lets +onlyGivenNames off s1 s2
  try clear_value off
  have k_s1 : Kept m og s1 := by
    dsimp only [s1]
    repeat' first
      | (with_reducible first | assumption | exact mask_sub hm rfl | apply fclr_kept | apply modSe_kept | apply seHalt_kept | apply seApply_kept)
      | intro _
      | dsimp only
      | split
  clear_value s1
  have k_s2 : Kept m og s2 := by
    dsimp only [s2]
    repeat' first
      | (with_reducible first | assumption | exact mask_sub hm rfl | apply fclr_kept | apply modSe_kept | apply seHalt_kept | apply seApply_kept)
      | intro _
      | dsimp only
      | split
  clear_value s2
  repeat' first
    | (with_reducible first | assumption | exact mask_sub hm rfl | apply fclr_kept | apply modSe_kept | apply seHalt_kept | apply seApply_kept)
    | intro _
    | dsimp only
    | split

theorem seBoundary_kept {m : Nat} {og s : State} (h : Kept m og s) (hm : 0xa0000000000018 &&& m = 0xa0000000000018) : ∀ a2, Kept m og (seBoundary s a2) := by
  intro a2
  unfold seBoundary
  extract_lets +onlyGivenNames s1
  have k_s1 : Kept m og s1 := by
    dsimp only [s1]
    repeat' first
      | (with_reducible first | assumption | exact mask_sub hm rfl | apply servoRelease_kept | apply modSe_kept | apply seBoundaryNow_kept)
      | intro _
      | dsimp only
      | split
  clear_value s1
  repeat' first
    | (with_reducible first | assumption | exact mask_sub hm rfl | apply servoRelease_kept | apply modSe_kept | apply seBoundaryNow_kept)
    | intro _
    | dsimp only
    | split

theorem seBetween_kept {m : Nat} {og s : State} (h : Kept m og s) (hm : 0x800a00000057e30f8 &&& m = 0x800a00000057e30f8) : ∀ a2, Kept m og (seBetween s a2) := by
  intro a2
  unfold seBetween
  extract_lets +onlyGivenNames s1 s2 s3
  have k_s1 : Kept m og s1 := by
    dsimp only [s1]
    repeat' first
      | (with_reducible first | assumption | exact mask_sub hm rfl | apply applyHeld_kept | apply seHalt_kept | apply seBoundaryNow_kept | apply seApply_kept | apply modSe_kept | apply coefsHeld_kept)
      | intro _
      | dsimp only
      | split
  clear_value s1
  have k_s2 : Kept m og s2 := by
    dsimp only [s2]
    repeat' first
      | (with_reducible first | assumption | exact mask_sub hm rfl | apply applyHeld_kept | apply seHalt_kept | apply seBoundaryNow_kept | apply seApply_kept | apply modSe_kept | apply coefsHeld_kept)
      | intro _
      | dsimp only
      | split
  clear_value s2
  have k_s3 : Kept m og s3 := by
    dsimp only [s3]
    repeat' first
      | (with_reducible first | assumption | exact mask_sub hm rfl | apply applyHeld_kept | apply seHalt_kept | apply seBoundaryNow_kept | apply seApply_kept | apply modSe_kept | apply coefsHeld_kept)
      | intro _
      | dsimp only
      | split
  clear_value s3
  repeat' first
    | (with_reducible first | assumption | exact mask_sub hm rfl | apply applyHeld_kept | apply seHalt_kept | apply seBoundaryNow_kept | apply seApply_kept | apply modSe_kept | apply coefsHeld_kept)
    | intro _
    | dsimp only
    | split

theorem seFault_kept {m : Nat} {og s : State} (h : Kept m og s) (hm : 0x800b001dcfd7e30f8 &&& m = 0x800b001dcfd7e30f8) : ∀ a2 a3, Kept m og (seFault s a2 a3) := by
  intro a2 a3
  unfold seFault
  repeat' first
    | (with_reducible first | assumption | exact mask_sub hm rfl | apply modSe_kept | apply fput_kept | apply fset_kept | apply raiseReport_kept | apply count_kept | apply servoAssert_kept | apply statusZero_kept | apply seBetween_kept | apply seLeft_kept)
    | intro _
    | dsimp only
    | split

theorem seMiss_kept {m : Nat} {og s : State} (h : Kept m og s) (hm : 0x800b001dcfd7e30f8 &&& m = 0x800b001dcfd7e30f8) : ∀ a2 a3, Kept m og (seMiss s a2 a3) := by
  intro a2 a3
  unfold seMiss
  extract_lets +onlyGivenNames running s1 s2
  try clear_value running
  have k_s1 : Kept m og s1 := by
    dsimp only [s1]
    repeat' first
      | (with_reducible first | assumption | exact mask_sub hm rfl | apply modSe_kept | apply fincSat_kept | apply putTime_kept | apply fset_kept | apply raiseReport_kept | apply count_kept | apply servoAssert_kept | apply forEach_kept | apply fputAt_kept | apply statusZero_kept | apply seBetween_kept)
      | intro _
      | dsimp only
      | split
  clear_value s1
  have k_s2 : Kept m og s2 := by
    dsimp only [s2]
    repeat' first
      | (with_reducible first | assumption | exact mask_sub hm rfl | apply modSe_kept | apply fincSat_kept | apply putTime_kept | apply fset_kept | apply raiseReport_kept | apply count_kept | apply servoAssert_kept | apply forEach_kept | apply fputAt_kept | apply statusZero_kept | apply seBetween_kept)
      | intro _
      | dsimp only
      | split
  clear_value s2
  repeat' first
    | (with_reducible first | assumption | exact mask_sub hm rfl | apply modSe_kept | apply fincSat_kept | apply putTime_kept | apply fset_kept | apply raiseReport_kept | apply count_kept | apply servoAssert_kept | apply forEach_kept | apply fputAt_kept | apply statusZero_kept | apply seBetween_kept)
    | intro _
    | dsimp only
    | split

theorem seTick_kept {m : Nat} {og s : State} (h : Kept m og s) (hm : 0x800b001dcfd7e30f8 &&& m = 0x800b001dcfd7e30f8) : ∀ a2 a3, Kept m og (seTick s a2 a3) := by
  intro a2 a3
  unfold seTick
  repeat' first
    | (with_reducible first | assumption | exact mask_sub hm rfl | apply seMiss_kept | apply modHb_kept | apply modSe_kept)
    | intro _
    | dsimp only
    | split

theorem execSeTick_kept {s t : State} {a1 a2} (e : execSeTick a1 a2 s = .next t) : Kept 0x800b001dcfd7e30f8 s t := by
  have h := Kept.same 0x800b001dcfd7e30f8 s
  have hm := Nat.and_self 0x800b001dcfd7e30f8
  refine next_kept e ?_
  repeat' first
    | (with_reducible first | assumption | exact mask_sub hm rfl | apply seTick_kept)
    | intro _
    | dsimp only

theorem runStart_kept {m : Nat} {og s : State} (h : Kept m og s) (hm : 0x20000000000008 &&& m = 0x20000000000008) : ∀ a2 a3, Kept m og (runStart s a2 a3) := by
  intro a2 a3
  unfold runStart
  repeat' first
    | (with_reducible first | assumption | exact mask_sub hm rfl | apply gensAdvance_kept | apply modSe_kept)
    | intro _
    | dsimp only
    | split

theorem detGroup_kept {m : Nat} {og s : State} (h : Kept m og s) (hm : 0x20000000 &&& m = 0x20000000) : ∀ a2 a3, Kept m og (detGroup s a2 a3) := by
  intro a2 a3
  unfold detGroup
  extract_lets +onlyGivenNames keep
  try clear_value keep
  repeat' first
    | (with_reducible first | assumption | exact mask_sub hm rfl | apply modHb_kept)
    | intro _
    | dsimp only
    | (with_reducible first | apply getD_kept)
    | split

theorem execRunStart_kept {s t : State} {a1 a2} (e : execRunStart a1 a2 s = .next t) : Kept 0x20000020000008 s t := by
  have h := Kept.same 0x20000020000008 s
  have hm := Nat.and_self 0x20000020000008
  refine next_kept e ?_
  repeat' first
    | (with_reducible first | assumption | exact mask_sub hm rfl | apply forEach_kept | apply detGroup_kept | apply runStart_kept)
    | intro _
    | dsimp only
    | (with_reducible first | apply getD_kept)
    | split

theorem execDeadlineMiss_kept {s t : State} {a1 a2} (e : execDeadlineMiss a1 a2 s = .next t) : Kept 0x800b001dcfd7e30f8 s t := by
  have h := Kept.same 0x800b001dcfd7e30f8 s
  have hm := Nat.and_self 0x800b001dcfd7e30f8
  refine next_kept e ?_
  repeat' first
    | (with_reducible first | assumption | exact mask_sub hm rfl | apply seMiss_kept)
    | intro _
    | dsimp only
    | split

theorem captureWrite_kept {m : Nat} {og s : State} (h : Kept m og s) (hm : 0x800200000057e30e8 &&& m = 0x800200000057e30e8) : ∀ a2 a3 a4, Kept m og (captureWrite s a2 a3 a4) := by
  intro a2 a3 a4
  unfold captureWrite
  repeat' first
    | (with_reducible first | assumption | exact mask_sub hm rfl | apply memWriteD_kept | apply fput_kept | apply fset_kept | apply modSe_kept)
    | intro _
    | dsimp only
    | split

theorem putOut_kept {m : Nat} {og s : State} (h : Kept m og s) (hm : 0x20000000000008 &&& m = 0x20000000000008) : ∀ a2 a3 a4, Kept m og (putOut s a2 a3 a4) := by
  intro a2 a3 a4
  unfold putOut
  extract_lets +onlyGivenNames s1
  have k_s1 : Kept m og s1 := by
    dsimp only [s1]
    repeat' first
      | (with_reducible first | assumption | exact mask_sub hm rfl | apply modSe_kept | apply wr_kept)
      | intro _
      | dsimp only
      | split
  clear_value s1
  repeat' first
    | (with_reducible first | assumption | exact mask_sub hm rfl | apply modSe_kept | apply wr_kept)
    | intro _
    | dsimp only
    | split

theorem spnCommit_kept {m : Nat} {og s : State} (h : Kept m og s) (hm : 0x80000000000000 &&& m = 0x80000000000000) : ∀ a2 a3, Kept m og (spnCommit s a2 a3) := by
  intro a2 a3
  unfold spnCommit
  repeat' first
    | (with_reducible first | assumption | exact mask_sub hm rfl)
    | intro _
    | dsimp only
    | split
    | (with_reducible first | apply kept_spn)

theorem commitStatus_kept {m : Nat} {og s : State} (h : Kept m og s) (hm : 0x8003001dcfd7e30e8 &&& m = 0x8003001dcfd7e30e8) : ∀ a2 a3, Kept m og (commitStatus s a2 a3) := by
  intro a2 a3
  unfold commitStatus
  repeat' first
    | (with_reducible first | assumption | exact mask_sub hm rfl | apply modSe_kept | apply wedgeStatus_kept)
    | intro _
    | dsimp only
    | split

theorem runMax_kept {m : Nat} {og s : State} (h : Kept m og s) (hm : 0x8 &&& m = 0x8) : ∀ a2 a3, Kept m og (runMax s a2 a3) := by
  intro a2 a3
  unfold runMax
  extract_lets +onlyGivenNames f t
  try clear_value f
  try clear_value t
  repeat' first
    | (with_reducible first | assumption | exact mask_sub hm rfl | apply fput_kept)
    | intro _
    | dsimp only
    | split

theorem runCommit_kept {m : Nat} {og s : State} (h : Kept m og s) (hm : 0x800b001dcfd7e30f8 &&& m = 0x800b001dcfd7e30f8) : ∀ a2 a3, Kept m og (runCommit s a2 a3) := by
  intro a2 a3
  unfold runCommit
  extract_lets +onlyGivenNames s1 s2 s3 s3a s3b s4 s5 s6
  have k_s1 : Kept m og s1 := by
    dsimp only [s1]
    repeat' first
      | (with_reducible first | assumption | exact mask_sub hm rfl | apply spnCommit_kept | apply forEach_kept | apply putOut_kept | apply modSe_kept | apply fset_kept | apply wr_kept | apply fput_kept | apply sif_kept | apply captureWrite_kept | apply runMax_kept | apply seBetween_kept | apply commitStatus_kept)
      | intro _
      | dsimp only
      | (with_reducible first | apply foldl_kept | apply foldlFst_kept)
      | split
  clear_value s1
  have k_s2 : Kept m og s2 := by
    dsimp only [s2]
    repeat' first
      | (with_reducible first | assumption | exact mask_sub hm rfl | apply spnCommit_kept | apply forEach_kept | apply putOut_kept | apply modSe_kept | apply fset_kept | apply wr_kept | apply fput_kept | apply sif_kept | apply captureWrite_kept | apply runMax_kept | apply seBetween_kept | apply commitStatus_kept)
      | intro _
      | dsimp only
      | (with_reducible first | apply foldl_kept | apply foldlFst_kept)
      | split
  clear_value s2
  have k_s3 : Kept m og s3 := by
    dsimp only [s3]
    repeat' first
      | (with_reducible first | assumption | exact mask_sub hm rfl | apply spnCommit_kept | apply forEach_kept | apply putOut_kept | apply modSe_kept | apply fset_kept | apply wr_kept | apply fput_kept | apply sif_kept | apply captureWrite_kept | apply runMax_kept | apply seBetween_kept | apply commitStatus_kept)
      | intro _
      | dsimp only
      | (with_reducible first | apply foldl_kept | apply foldlFst_kept)
      | split
  clear_value s3
  have k_s3a : Kept m og s3a := by
    dsimp only [s3a]
    repeat' first
      | (with_reducible first | assumption | exact mask_sub hm rfl | apply spnCommit_kept | apply forEach_kept | apply putOut_kept | apply modSe_kept | apply fset_kept | apply wr_kept | apply fput_kept | apply sif_kept | apply captureWrite_kept | apply runMax_kept | apply seBetween_kept | apply commitStatus_kept)
      | intro _
      | dsimp only
      | (with_reducible first | apply foldl_kept | apply foldlFst_kept)
      | split
  clear_value s3a
  have k_s3b : Kept m og s3b := by
    dsimp only [s3b]
    repeat' first
      | (with_reducible first | assumption | exact mask_sub hm rfl | apply spnCommit_kept | apply forEach_kept | apply putOut_kept | apply modSe_kept | apply fset_kept | apply wr_kept | apply fput_kept | apply sif_kept | apply captureWrite_kept | apply runMax_kept | apply seBetween_kept | apply commitStatus_kept)
      | intro _
      | dsimp only
      | (with_reducible first | apply foldl_kept | apply foldlFst_kept)
      | split
  clear_value s3b
  have k_s4 : Kept m og s4 := by
    dsimp only [s4]
    repeat' first
      | (with_reducible first | assumption | exact mask_sub hm rfl | apply spnCommit_kept | apply forEach_kept | apply putOut_kept | apply modSe_kept | apply fset_kept | apply wr_kept | apply fput_kept | apply sif_kept | apply captureWrite_kept | apply runMax_kept | apply seBetween_kept | apply commitStatus_kept)
      | intro _
      | dsimp only
      | (with_reducible first | apply foldl_kept | apply foldlFst_kept)
      | split
  clear_value s4
  have k_s5 : Kept m og s5 := by
    dsimp only [s5]
    repeat' first
      | (with_reducible first | assumption | exact mask_sub hm rfl | apply spnCommit_kept | apply forEach_kept | apply putOut_kept | apply modSe_kept | apply fset_kept | apply wr_kept | apply fput_kept | apply sif_kept | apply captureWrite_kept | apply runMax_kept | apply seBetween_kept | apply commitStatus_kept)
      | intro _
      | dsimp only
      | (with_reducible first | apply foldl_kept | apply foldlFst_kept)
      | split
  clear_value s5
  have k_s6 : Kept m og s6 := by
    dsimp only [s6]
    repeat' first
      | (with_reducible first | assumption | exact mask_sub hm rfl | apply spnCommit_kept | apply forEach_kept | apply putOut_kept | apply modSe_kept | apply fset_kept | apply wr_kept | apply fput_kept | apply sif_kept | apply captureWrite_kept | apply runMax_kept | apply seBetween_kept | apply commitStatus_kept)
      | intro _
      | dsimp only
      | (with_reducible first | apply foldl_kept | apply foldlFst_kept)
      | split
  clear_value s6
  repeat' first
    | (with_reducible first | assumption | exact mask_sub hm rfl | apply spnCommit_kept | apply forEach_kept | apply putOut_kept | apply modSe_kept | apply fset_kept | apply wr_kept | apply fput_kept | apply sif_kept | apply captureWrite_kept | apply runMax_kept | apply seBetween_kept | apply commitStatus_kept)
    | intro _
    | dsimp only
    | (with_reducible first | apply foldl_kept | apply foldlFst_kept)
    | split

theorem wedgeArrives_kept {m : Nat} {og s : State} (h : Kept m og s) (hm : 0x8003001dcfd7e30e8 &&& m = 0x8003001dcfd7e30e8) : ∀ a2 a3, Kept m og (wedgeArrives s a2 a3) := by
  intro a2 a3
  unfold wedgeArrives
  extract_lets +onlyGivenNames s1
  have k_s1 : Kept m og s1 := by
    dsimp only [s1]
    repeat' first
      | (with_reducible first | assumption | exact mask_sub hm rfl | apply statusZero_kept | apply modHb_kept)
      | intro _
      | dsimp only
      | split
  clear_value s1
  repeat' first
    | (with_reducible first | assumption | exact mask_sub hm rfl | apply statusZero_kept | apply modHb_kept)
    | intro _
    | dsimp only
    | split

theorem recordArrives_kept {m : Nat} {og s : State} (h : Kept m og s) (hm : 0x8003001dcfd7e30e8 &&& m = 0x8003001dcfd7e30e8) : ∀ a2 a3 a4, Kept m og (recordArrives s a2 a3 a4) := by
  intro a2 a3 a4
  unfold recordArrives
  repeat' first
    | (with_reducible first | assumption | exact mask_sub hm rfl | apply modHb_kept | apply wedgeArrives_kept)
    | intro _
    | dsimp only
    | split

end Machine
end Sys2Proof
end

