-- ==== Sys2Proof/Laws/KeptSled.lean ====
section
/-! SUPPORT. What the operations of Machine/Sled.lean keep (Laws/Keeps.lean). -/

namespace Sys2Proof
namespace Machine

theorem modSled_kept {m : Nat} {og s : State} (h : Kept m og s) (hm : 0x40000000000000 &&& m = 0x40000000000000) : ∀ a2 a3, Kept m og (modSled s a2 a3) := by
  intro a2 a3
  unfold modSled
  repeat' first
    | (with_reducible first | assumption | exact mask_sub hm rfl)
    | intro _
    | dsimp only
    | (with_reducible first | apply kept_sled)

theorem sledEnter_kept {m : Nat} {og s : State} (h : Kept m og s) (hm : 0x8 &&& m = 0x8) : ∀ a2 a3, Kept m og (sledEnter s a2 a3) := by
  intro a2 a3
  unfold sledEnter
  repeat' first
    | (with_reducible first | assumption | exact mask_sub hm rfl | apply fput_kept)
    | intro _
    | dsimp only

theorem sledLatch_kept {m : Nat} {og s : State} (h : Kept m og s) (hm : 0x40000000000008 &&& m = 0x40000000000008) : ∀ a2, Kept m og (sledLatch s a2) := by
  intro a2
  unfold sledLatch
  repeat' first
    | (with_reducible first | assumption | exact mask_sub hm rfl | apply modSled_kept | apply fset_kept)
    | intro _
    | dsimp only
    | split

theorem sledSeg_kept {m : Nat} {og s : State} (h : Kept m og s) (hm : 0x40000000000008 &&& m = 0x40000000000008) : ∀ a2 a3 a4, Kept m og (sledSeg s a2 a3 a4) := by
  intro a2 a3 a4
  unfold sledSeg
  repeat' first
    | (with_reducible first | assumption | exact mask_sub hm rfl | apply modSled_kept | apply fput_kept)
    | intro _
    | dsimp only

theorem sledStill_kept {m : Nat} {og s : State} (h : Kept m og s) (hm : 0x40000000000008 &&& m = 0x40000000000008) : ∀ a2, Kept m og (sledStill s a2) := by
  intro a2
  unfold sledStill
  repeat' first
    | (with_reducible first | assumption | exact mask_sub hm rfl | apply sledSeg_kept | apply modSled_kept)
    | intro _
    | dsimp only

theorem sledEventAt_kept {m : Nat} {og s : State} (h : Kept m og s) (hm : 0x8 &&& m = 0x8) : ∀ a2 a3, Kept m og (sledEventAt s a2 a3) := by
  intro a2 a3
  unfold sledEventAt
  repeat' first
    | (with_reducible first | assumption | exact mask_sub hm rfl | apply putTime_kept)
    | intro _
    | dsimp only

theorem sledEvent_kept {m : Nat} {og s : State} (h : Kept m og s) (hm : 0x8 &&& m = 0x8) : ∀ a2, Kept m og (sledEvent s a2) := by
  intro a2
  unfold sledEvent
  repeat' first
    | (with_reducible first | assumption | exact mask_sub hm rfl | apply sledEventAt_kept)
    | intro _
    | dsimp only

theorem countHead_kept {m : Nat} {og s : State} (h : Kept m og s) (hm : 0x3000 &&& m = 0x3000) : ∀ a2 a3, Kept m og (countHead s a2 a3) := by
  intro a2 a3
  unfold countHead
  repeat' first
    | (with_reducible first | assumption | exact mask_sub hm rfl | apply count_kept)
    | intro _
    | dsimp only

theorem sledGo_kept {m : Nat} {og s : State} (h : Kept m og s) (hm : 0x40000000003008 &&& m = 0x40000000003008) : ∀ a2 a3, Kept m og (sledGo s a2 a3) := by
  intro a2 a3
  unfold sledGo
  extract_lets +onlyGivenNames s1 rev s2 s3
  have k_s1 : Kept m og s1 := by
    dsimp only [s1]
    repeat' first
      | (with_reducible first | assumption | exact mask_sub hm rfl | apply sledLatch_kept | apply modSled_kept | apply countHead_kept | apply sledEnter_kept | apply fset_kept)
      | intro _
      | dsimp only
      | split
  clear_value s1
  try clear_value rev
  have k_s2 : Kept m og s2 := by
    dsimp only [s2]
    repeat' first
      | (with_reducible first | assumption | exact mask_sub hm rfl | apply sledLatch_kept | apply modSled_kept | apply countHead_kept | apply sledEnter_kept | apply fset_kept)
      | intro _
      | dsimp only
      | split
  clear_value s2
  have k_s3 : Kept m og s3 := by
    dsimp only [s3]
    repeat' first
      | (with_reducible first | assumption | exact mask_sub hm rfl | apply sledLatch_kept | apply modSled_kept | apply countHead_kept | apply sledEnter_kept | apply fset_kept)
      | intro _
      | dsimp only
      | split
  clear_value s3
  repeat' first
    | (with_reducible first | assumption | exact mask_sub hm rfl | apply sledLatch_kept | apply modSled_kept | apply countHead_kept | apply sledEnter_kept | apply fset_kept)
    | intro _
    | dsimp only
    | split

theorem sledBegin_kept {m : Nat} {og s : State} (h : Kept m og s) (hm : 0x40000000003008 &&& m = 0x40000000003008) : ∀ a2 a3, Kept m og (sledBegin s a2 a3) := by
  intro a2 a3
  unfold sledBegin
  repeat' first
    | (with_reducible first | assumption | exact mask_sub hm rfl | apply modSled_kept | apply sledEnter_kept | apply sledGo_kept)
    | intro _
    | dsimp only
    | split

theorem sledDeny_kept {m : Nat} {og s : State} (h : Kept m og s) (hm : 0x8001001dcfd7e30e8 &&& m = 0x8001001dcfd7e30e8) : ∀ a2, Kept m og (sledDeny s a2) := by
  intro a2
  unfold sledDeny
  repeat' first
    | (with_reducible first | assumption | exact mask_sub hm rfl | apply portionSledEnd_kept | apply fset_kept)
    | intro _
    | dsimp only

theorem sledTarget_kept {m : Nat} {og s : State} (h : Kept m og s) (hm : 0x8005001dcfd7e30e8 &&& m = 0x8005001dcfd7e30e8) : ∀ a2 a3, Kept m og (sledTarget s a2 a3) := by
  intro a2 a3
  unfold sledTarget
  extract_lets +onlyGivenNames t d st s0
  try clear_value t
  try clear_value d
  try clear_value st
  have k_s0 : Kept m og s0 := by
    dsimp only [s0]
    repeat' first
      | (with_reducible first | assumption | exact mask_sub hm rfl | apply wr_kept | apply sledBegin_kept | apply modSled_kept | apply sledEnter_kept | apply sledLatch_kept | apply sledDeny_kept)
      | intro _
      | dsimp only
      | split
  clear_value s0
  repeat' first
    | (with_reducible first | assumption | exact mask_sub hm rfl | apply wr_kept | apply sledBegin_kept | apply modSled_kept | apply sledEnter_kept | apply sledLatch_kept | apply sledDeny_kept)
    | intro _
    | dsimp only
    | split

theorem execSldTargetWrite_kept {s t : State} {a1 a2 a3} (e : execSldTargetWrite a1 a2 a3 s = .next t) : Kept 0x8005001dcfd7e30e8 s t := by
  have h := Kept.same 0x8005001dcfd7e30e8 s
  have hm := Nat.and_self 0x8005001dcfd7e30e8
  refine next_kept e ?_
  repeat' first
    | (with_reducible first | assumption | exact mask_sub hm rfl | apply sledTarget_kept)
    | intro _
    | dsimp only
    | split

theorem revDwellEnd_kept {m : Nat} {og s : State} (h : Kept m og s) (hm : 0x40000000003008 &&& m = 0x40000000003008) : ∀ a2, Kept m og (revDwellEnd s a2) := by
  intro a2
  unfold revDwellEnd
  extract_lets +onlyGivenNames d
  try clear_value d
  repeat' first
    | (with_reducible first | assumption | exact mask_sub hm rfl | apply sledBegin_kept | apply modSled_kept | apply sledEnter_kept)
    | intro _
    | dsimp only
    | split

theorem execRevDwellEnd_kept {s t : State} {a1} (e : execRevDwellEnd a1 s = .next t) : Kept 0x40000000003008 s t := by
  have h := Kept.same 0x40000000003008 s
  have hm := Nat.and_self 0x40000000003008
  refine next_kept e ?_
  repeat' first
    | (with_reducible first | assumption | exact mask_sub hm rfl | apply revDwellEnd_kept)
    | intro _
    | dsimp only

theorem sledOff_kept {m : Nat} {og s : State} (h : Kept m og s) (hm : 0x40000000000008 &&& m = 0x40000000000008) : ∀ a2 a3 a4, Kept m og (sledOff s a2 a3 a4) := by
  intro a2 a3 a4
  unfold sledOff
  extract_lets +onlyGivenNames s1
  have k_s1 : Kept m og s1 := by
    dsimp only [s1]
    repeat' first
      | (with_reducible first | assumption | exact mask_sub hm rfl | apply sledSeg_kept | apply modSled_kept | apply sledEnter_kept | apply fclr_kept)
      | intro _
      | dsimp only
      | split
  clear_value s1
  repeat' first
    | (with_reducible first | assumption | exact mask_sub hm rfl | apply sledSeg_kept | apply modSled_kept | apply sledEnter_kept | apply fclr_kept)
    | intro _
    | dsimp only
    | split

theorem sledPowerDown_kept {m : Nat} {og s : State} (h : Kept m og s) (hm : 0x40000000000008 &&& m = 0x40000000000008) : ∀ a2 a3, Kept m og (sledPowerDown s a2 a3) := by
  intro a2 a3
  unfold sledPowerDown
  repeat' first
    | (with_reducible first | assumption | exact mask_sub hm rfl | apply sledEnter_kept | apply sledSeg_kept | apply modSled_kept | apply sledOff_kept)
    | intro _
    | dsimp only
    | split

theorem sledFault_kept {m : Nat} {og s : State} (h : Kept m og s) (hm : 0x8005001dcfd7e30e8 &&& m = 0x8005001dcfd7e30e8) : ∀ a2, Kept m og (sledFault s a2) := by
  intro a2
  unfold sledFault
  repeat' first
    | (with_reducible first | assumption | exact mask_sub hm rfl | apply portionSledEnd_kept | apply sledEnter_kept | apply modSled_kept | apply sledStill_kept)
    | intro _
    | dsimp only

theorem homeFault_kept {m : Nat} {og s : State} (h : Kept m og s) (hm : 0x8005001dcfd7e30e8 &&& m = 0x8005001dcfd7e30e8) : ∀ a2 a3, Kept m og (homeFault s a2 a3) := by
  intro a2 a3
  unfold homeFault
  extract_lets +onlyGivenNames s1
  have k_s1 : Kept m og s1 := by
    dsimp only [s1]
    repeat' first
      | (with_reducible first | assumption | exact mask_sub hm rfl | apply fput_kept | apply fset_kept | apply sledFault_kept | apply sledEvent_kept | apply countHead_kept | apply fclr_kept)
      | intro _
      | dsimp only
  clear_value s1
  repeat' first
    | (with_reducible first | assumption | exact mask_sub hm rfl | apply fput_kept | apply fset_kept | apply sledFault_kept | apply sledEvent_kept | apply countHead_kept | apply fclr_kept)
    | intro _
    | dsimp only

theorem parkFault_kept {m : Nat} {og s : State} (h : Kept m og s) (hm : 0x8005001dcfd7e30e8 &&& m = 0x8005001dcfd7e30e8) : ∀ a2, Kept m og (parkFault s a2) := by
  intro a2
  unfold parkFault
  repeat' first
    | (with_reducible first | assumption | exact mask_sub hm rfl | apply portionSledEnd_kept | apply sledOff_kept)
    | intro _
    | dsimp only

theorem sledHalt_kept {m : Nat} {og s : State} (h : Kept m og s) (hm : 0x8005001dcfd7e30e8 &&& m = 0x8005001dcfd7e30e8) : ∀ a2, Kept m og (sledHalt s a2) := by
  intro a2
  unfold sledHalt
  extract_lets +onlyGivenNames off s1
  try clear_value off
  have k_s1 : Kept m og s1 := by
    dsimp only [s1]
    repeat' first
      | (with_reducible first | assumption | exact mask_sub hm rfl | apply portionSledEnd_kept | apply sledEnter_kept | apply modSled_kept | apply sledStill_kept | apply sledPowerDown_kept)
      | intro _
      | dsimp only
      | split
  clear_value s1
  repeat' first
    | (with_reducible first | assumption | exact mask_sub hm rfl | apply portionSledEnd_kept | apply sledEnter_kept | apply modSled_kept | apply sledStill_kept | apply sledPowerDown_kept)
    | intro _
    | dsimp only
    | split

theorem sledLose_kept {m : Nat} {og s : State} (h : Kept m og s) (hm : 0x8005001dcfd7e30e8 &&& m = 0x8005001dcfd7e30e8) : ∀ a2 a3, Kept m og (sledLose s a2 a3) := by
  intro a2 a3
  unfold sledLose
  extract_lets +onlyGivenNames st s1 s2
  try clear_value st
  have k_s1 : Kept m og s1 := by
    dsimp only [s1]
    repeat' first
      | (with_reducible first | assumption | exact mask_sub hm rfl | apply sledEvent_kept | apply countHead_kept | apply fset_kept | apply modSled_kept | apply fclr_kept | apply homeFault_kept | apply parkFault_kept | apply sledHalt_kept)
      | intro _
      | dsimp only
      | split
  clear_value s1
  have k_s2 : Kept m og s2 := by
    dsimp only [s2]
    repeat' first
      | (with_reducible first | assumption | exact mask_sub hm rfl | apply sledEvent_kept | apply countHead_kept | apply fset_kept | apply modSled_kept | apply fclr_kept | apply homeFault_kept | apply parkFault_kept | apply sledHalt_kept)
      | intro _
      | dsimp only
      | split
  clear_value s2
  repeat' first
    | (with_reducible first | assumption | exact mask_sub hm rfl | apply sledEvent_kept | apply countHead_kept | apply fset_kept | apply modSled_kept | apply fclr_kept | apply homeFault_kept | apply parkFault_kept | apply sledHalt_kept)
    | intro _
    | dsimp only
    | split

theorem sledCut_kept {m : Nat} {og s : State} (h : Kept m og s) (hm : 0x8005001dcfd7e30e8 &&& m = 0x8005001dcfd7e30e8) : ∀ a2 a3, Kept m og (sledCut s a2 a3) := by
  intro a2 a3
  unfold sledCut
  extract_lets +onlyGivenNames st keep s1
  try clear_value st
  try clear_value keep
  have k_s1 : Kept m og s1 := by
    dsimp only [s1]
    repeat' first
      | (with_reducible first | assumption | exact mask_sub hm rfl | apply fset_kept | apply portionSledEnd_kept | apply sledOff_kept)
      | intro _
      | dsimp only
      | split
  clear_value s1
  repeat' first
    | (with_reducible first | assumption | exact mask_sub hm rfl | apply fset_kept | apply portionSledEnd_kept | apply sledOff_kept)
    | intro _
    | dsimp only
    | split

theorem sledPhase_kept {m : Nat} {og s : State} (h : Kept m og s) (hm : 0x40000000000000 &&& m = 0x40000000000000) : ∀ a2 a3 a4 a5, Kept m og (sledPhase s a2 a3 a4 a5) := by
  intro a2 a3 a4 a5
  unfold sledPhase
  repeat' first
    | (with_reducible first | assumption | exact mask_sub hm rfl | apply modSled_kept)
    | intro _
    | dsimp only

theorem sledSlow_kept {m : Nat} {og s : State} (h : Kept m og s) (hm : 0x40000000000008 &&& m = 0x40000000000008) : ∀ a2 a3 a4, Kept m og (sledSlow s a2 a3 a4) := by
  intro a2 a3 a4
  unfold sledSlow
  extract_lets +onlyGivenNames s1
  have k_s1 : Kept m og s1 := by
    dsimp only [s1]
    repeat' first
      | (with_reducible first | assumption | exact mask_sub hm rfl | apply modSled_kept | apply sledLatch_kept | apply sledSeg_kept | apply sledPhase_kept)
      | intro _
      | dsimp only
  clear_value s1
  repeat' first
    | (with_reducible first | assumption | exact mask_sub hm rfl | apply modSled_kept | apply sledLatch_kept | apply sledSeg_kept | apply sledPhase_kept)
    | intro _
    | dsimp only

theorem sledFast_kept {m : Nat} {og s : State} (h : Kept m og s) (hm : 0x40000000000008 &&& m = 0x40000000000008) : ∀ a2 a3 a4, Kept m og (sledFast s a2 a3 a4) := by
  intro a2 a3 a4
  unfold sledFast
  extract_lets +onlyGivenNames s1
  have k_s1 : Kept m og s1 := by
    dsimp only [s1]
    repeat' first
      | (with_reducible first | assumption | exact mask_sub hm rfl | apply sledLatch_kept | apply modSled_kept)
      | intro _
      | dsimp only
      | split
  clear_value s1
  repeat' first
    | (with_reducible first | assumption | exact mask_sub hm rfl | apply sledLatch_kept | apply modSled_kept)
    | intro _
    | dsimp only
    | split

theorem sledLatchWait_kept {m : Nat} {og s : State} (h : Kept m og s) (hm : 0x40000000000008 &&& m = 0x40000000000008) : ∀ a2, Kept m og (sledLatchWait s a2) := by
  intro a2
  unfold sledLatchWait
  repeat' first
    | (with_reducible first | assumption | exact mask_sub hm rfl | apply modSled_kept | apply sledStill_kept)
    | intro _
    | dsimp only

theorem parkOn_kept {m : Nat} {og s : State} (h : Kept m og s) (hm : 0x40000000000008 &&& m = 0x40000000000008) : ∀ a2, Kept m og (parkOn s a2) := by
  intro a2
  unfold parkOn
  repeat' first
    | (with_reducible first | assumption | exact mask_sub hm rfl | apply sledPowerDown_kept | apply sledFast_kept | apply sledSlow_kept)
    | intro _
    | dsimp only
    | split

theorem sledPark_kept {m : Nat} {og s : State} (h : Kept m og s) (hm : 0x40000000000008 &&& m = 0x40000000000008) : ∀ a2 a3, Kept m og (sledPark s a2 a3) := by
  intro a2 a3
  unfold sledPark
  extract_lets +onlyGivenNames s0 st
  have k_s0 : Kept m og s0 := by
    dsimp only [s0]
    repeat' first
      | (with_reducible first | assumption | exact mask_sub hm rfl | apply modSled_kept | apply sledEnter_kept | apply parkOn_kept)
      | intro _
      | dsimp only
      | split
  clear_value s0
  try clear_value st
  repeat' first
    | (with_reducible first | assumption | exact mask_sub hm rfl | apply modSled_kept | apply sledEnter_kept | apply parkOn_kept)
    | intro _
    | dsimp only
    | split

theorem sledParkHeld_kept {m : Nat} {og s : State} (h : Kept m og s) (hm : 0x40000000000008 &&& m = 0x40000000000008) : ∀ a2, Kept m og (sledParkHeld s a2) := by
  intro a2
  unfold sledParkHeld
  repeat' first
    | (with_reducible first | assumption | exact mask_sub hm rfl | apply sledPark_kept)
    | intro _
    | dsimp only
    | split

theorem sledHome_kept {m : Nat} {og s : State} (h : Kept m og s) (hm : 0x40000000000008 &&& m = 0x40000000000008) : ∀ a2, Kept m og (sledHome s a2) := by
  intro a2
  unfold sledHome
  extract_lets +onlyGivenNames st
  try clear_value st
  repeat' first
    | (with_reducible first | assumption | exact mask_sub hm rfl | apply modSled_kept | apply sledEnter_kept | apply sledParkHeld_kept | apply sledSlow_kept | apply sledFast_kept)
    | intro _
    | dsimp only
    | split

theorem execSledHome_kept {s t : State} {a1 a2} (e : execSledHome a1 a2 s = .next t) : Kept 0x40000000000008 s t := by
  have h := Kept.same 0x40000000000008 s
  have hm := Nat.and_self 0x40000000000008
  refine next_kept e ?_
  repeat' first
    | (with_reducible first | assumption | exact mask_sub hm rfl | apply sledHome_kept)
    | intro _
    | dsimp only
    | split

theorem sledParkRelease_kept {m : Nat} {og s : State} (h : Kept m og s) (hm : 0x40000000000000 &&& m = 0x40000000000000) : ∀ a2 a3, Kept m og (sledParkRelease s a2 a3) := by
  intro a2 a3
  unfold sledParkRelease
  repeat' first
    | (with_reducible first | assumption | exact mask_sub hm rfl | apply modSled_kept)
    | intro _
    | dsimp only

theorem execSledPark_kept {s t : State} {a1 a2} (e : execSledPark a1 a2 s = .next t) : Kept 0x40000000000008 s t := by
  have h := Kept.same 0x40000000000008 s
  have hm := Nat.and_self 0x40000000000008
  refine next_kept e ?_
  repeat' first
    | (with_reducible first | assumption | exact mask_sub hm rfl | apply sledPark_kept)
    | intro _
    | dsimp only
    | split

theorem sledUnpark_kept {m : Nat} {og s : State} (h : Kept m og s) (hm : 0x8005001dcfd7e30e8 &&& m = 0x8005001dcfd7e30e8) : ∀ a2, Kept m og (sledUnpark s a2) := by
  intro a2
  unfold sledUnpark
  repeat' first
    | (with_reducible first | assumption | exact mask_sub hm rfl | apply sledEnter_kept | apply modSled_kept | apply sledDeny_kept)
    | intro _
    | dsimp only
    | split

theorem execSledUnpark_kept {s t : State} {a1 a2} (e : execSledUnpark a1 a2 s = .next t) : Kept 0x8005001dcfd7e30e8 s t := by
  have h := Kept.same 0x8005001dcfd7e30e8 s
  have hm := Nat.and_self 0x8005001dcfd7e30e8
  refine next_kept e ?_
  repeat' first
    | (with_reducible first | assumption | exact mask_sub hm rfl | apply sledUnpark_kept)
    | intro _
    | dsimp only
    | split

theorem sledAbort_kept {m : Nat} {og s : State} (h : Kept m og s) (hm : 0x40000000000008 &&& m = 0x40000000000008) : ∀ a2, Kept m og (sledAbort s a2) := by
  intro a2
  unfold sledAbort
  repeat' first
    | (with_reducible first | assumption | exact mask_sub hm rfl | apply modSled_kept | apply sledEnter_kept | apply sledStill_kept | apply sledParkHeld_kept)
    | intro _
    | dsimp only
    | split

theorem execSledAbort_kept {s t : State} {a1 a2} (e : execSledAbort a1 a2 s = .next t) : Kept 0x40000000000008 s t := by
  have h := Kept.same 0x40000000000008 s
  have hm := Nat.and_self 0x40000000000008
  refine next_kept e ?_
  repeat' first
    | (with_reducible first | assumption | exact mask_sub hm rfl | apply sledAbort_kept)
    | intro _
    | dsimp only
    | split

theorem sledDrvEn_kept {m : Nat} {og s : State} (h : Kept m og s) (hm : 0x40000000000008 &&& m = 0x40000000000008) : ∀ a2 a3, Kept m og (sledDrvEn s a2 a3) := by
  intro a2 a3
  unfold sledDrvEn
  extract_lets +onlyGivenNames s0 st
  have k_s0 : Kept m og s0 := by
    dsimp only [s0]
    repeat' first
      | (with_reducible first | assumption | exact mask_sub hm rfl | apply fputB_kept | apply sledParkHeld_kept | apply sledEnter_kept | apply modSled_kept | apply sledPowerDown_kept)
      | intro _
      | dsimp only
      | split
  clear_value s0
  try clear_value st
  repeat' first
    | (with_reducible first | assumption | exact mask_sub hm rfl | apply fputB_kept | apply sledParkHeld_kept | apply sledEnter_kept | apply modSled_kept | apply sledPowerDown_kept)
    | intro _
    | dsimp only
    | split

theorem execSldDrvEnWrite_kept {s t : State} {a1 a2 a3} (e : execSldDrvEnWrite a1 a2 a3 s = .next t) : Kept 0x40000000000008 s t := by
  have h := Kept.same 0x40000000000008 s
  have hm := Nat.and_self 0x40000000000008
  refine next_kept e ?_
  repeat' first
    | (with_reducible first | assumption | exact mask_sub hm rfl | apply sledDrvEn_kept)
    | intro _
    | dsimp only
    | split

theorem sledMove_kept {m : Nat} {og s : State} (h : Kept m og s) (hm : 0x40000000000000 &&& m = 0x40000000000000) : ∀ a2 a3 a4, Kept m og (sledMove s a2 a3 a4) := by
  intro a2 a3 a4
  unfold sledMove
  repeat' first
    | (with_reducible first | assumption | exact mask_sub hm rfl | apply modSled_kept)
    | intro _
    | dsimp only

theorem sledToward_kept {m : Nat} {og s : State} (h : Kept m og s) (hm : 0x40000000000008 &&& m = 0x40000000000008) : ∀ a2, Kept m og (sledToward s a2).1 := by
  intro a2
  unfold sledToward
  extract_lets +onlyGivenNames d r
  try clear_value d
  try clear_value r
  repeat' first
    | (with_reducible first | assumption | exact mask_sub hm rfl | apply sledSeg_kept | apply sledMove_kept)
    | intro _
    | dsimp only
    | split

theorem sledToward_keq {m : Nat} {og s t : State} {r} {a2} (e : sledToward s a2 = (t, r)) (h : Kept m og s) (hm : 0x40000000000008 &&& m = 0x40000000000008) : Kept m og t := by
  have k := sledToward_kept h hm a2
  rw [e] at k
  exact k

theorem sledStopped_kept {m : Nat} {og s : State} (h : Kept m og s) (hm : 0x40000000000008 &&& m = 0x40000000000008) : ∀ a2, Kept m og (sledStopped s a2) := by
  intro a2
  unfold sledStopped
  extract_lets +onlyGivenNames s1
  have k_s1 : Kept m og s1 := by
    dsimp only [s1]
    repeat' first
      | (with_reducible first | assumption | exact mask_sub hm rfl | apply sledStill_kept | apply sledEnter_kept | apply sledPowerDown_kept | apply parkOn_kept)
      | intro _
      | dsimp only
      | split
  clear_value s1
  repeat' first
    | (with_reducible first | assumption | exact mask_sub hm rfl | apply sledStill_kept | apply sledEnter_kept | apply sledPowerDown_kept | apply parkOn_kept)
    | intro _
    | dsimp only
    | split

theorem sledStopping_kept {m : Nat} {og s : State} (h : Kept m og s) (hm : 0x40000000000008 &&& m = 0x40000000000008) : ∀ a2, Kept m og (sledStopping s a2) := by
  intro a2
  unfold sledStopping
  extract_lets +onlyGivenNames d
  try clear_value d
  repeat' first
    | (with_reducible first | assumption | exact mask_sub hm rfl | apply sledSeg_kept | apply sledMove_kept | apply sledStopped_kept)
    | intro _
    | dsimp only
    | split

theorem seekStopped_kept {m : Nat} {og s : State} (h : Kept m og s) (hm : 0x8005001dcfd7e30e8 &&& m = 0x8005001dcfd7e30e8) : ∀ a2, Kept m og (seekStopped s a2) := by
  intro a2
  unfold seekStopped
  extract_lets +onlyGivenNames d travel
  try clear_value d
  try clear_value travel
  repeat' first
    | (with_reducible first | assumption | exact mask_sub hm rfl | apply sledLatchWait_kept | apply fset_kept | apply homeFault_kept)
    | intro _
    | dsimp only
    | split

theorem sledPhaseStep_kept {m : Nat} {og s : State} (h : Kept m og s) (hm : 0x8005001dcfd7e30e8 &&& m = 0x8005001dcfd7e30e8) : ∀ a2, Kept m og (sledPhaseStep s a2) := by
  intro a2
  unfold sledPhaseStep
  extract_lets +onlyGivenNames d slow back search
  try clear_value d
  have k_slow : Kept m og slow := by
    dsimp only [slow]
    repeat' first
      | (with_reducible first | assumption | exact mask_sub hm rfl | apply sledMove_kept | apply homeFault_kept | apply sledToward_kept | refine sledToward_keq (by assumption) ?_ ?_ | apply sledSlow_kept | apply sledSeg_kept | apply seekStopped_kept | apply sledStill_kept | apply modSled_kept | apply sledPowerDown_kept | apply parkFault_kept)
      | intro _
      | dsimp only
      | split
  clear_value slow
  try clear_value back
  try clear_value search
  repeat' first
    | (with_reducible first | assumption | exact mask_sub hm rfl | apply sledMove_kept | apply homeFault_kept | apply sledToward_kept | refine sledToward_keq (by assumption) ?_ ?_ | apply sledSlow_kept | apply sledSeg_kept | apply seekStopped_kept | apply sledStill_kept | apply modSled_kept | apply sledPowerDown_kept | apply parkFault_kept)
    | intro _
    | dsimp only
    | split

theorem sledStep1_kept {m : Nat} {og s : State} (h : Kept m og s) (hm : 0x8005001dcfd7e30e8 &&& m = 0x8005001dcfd7e30e8) : ∀ a2, Kept m og (sledStep1 s a2) := by
  intro a2
  unfold sledStep1
  extract_lets +onlyGivenNames d st
  try clear_value d
  try clear_value st
  repeat' first
    | (with_reducible first | assumption | exact mask_sub hm rfl | apply sledStopping_kept | apply sledGo_kept | apply sledToward_kept | refine sledToward_keq (by assumption) ?_ ?_ | apply sledEnter_kept | apply sledStill_kept | apply sledPhaseStep_kept)
    | intro _
    | dsimp only
    | split

theorem sledStep2_kept {m : Nat} {og s : State} (h : Kept m og s) (hm : 0x40000000000008 &&& m = 0x40000000000008) : ∀ a2, Kept m og (sledStep2 s a2) := by
  intro a2
  unfold sledStep2
  extract_lets +onlyGivenNames req st top rate goal now next s1
  try clear_value req
  try clear_value st
  try clear_value top
  try clear_value rate
  try clear_value goal
  try clear_value now
  try clear_value next
  have k_s1 : Kept m og s1 := by
    dsimp only [s1]
    repeat' first
      | (with_reducible first | assumption | exact mask_sub hm rfl | apply fset_kept | apply fputInt_kept | apply modSled_kept)
      | intro _
      | dsimp only
      | split
  clear_value s1
  repeat' first
    | (with_reducible first | assumption | exact mask_sub hm rfl | apply fset_kept | apply fputInt_kept | apply modSled_kept)
    | intro _
    | dsimp only
    | split

theorem putDrive_kept {m : Nat} {og s : State} (h : Kept m og s) (hm : 0x40000000000000 &&& m = 0x40000000000000) : ∀ a2 a3 a4, Kept m og (putDrive s a2 a3 a4) := by
  intro a2 a3 a4
  unfold putDrive
  repeat' first
    | (with_reducible first | assumption | exact mask_sub hm rfl | apply modSled_kept)
    | intro _
    | dsimp only
    | split

theorem sledStep3_kept {m : Nat} {og s : State} (h : Kept m og s) (hm : 0x40000000000008 &&& m = 0x40000000000008) : ∀ a2 a3, Kept m og (sledStep3 s a2 a3) := by
  intro a2 a3
  unfold sledStep3
  extract_lets +onlyGivenNames q
  try clear_value q
  repeat' first
    | (with_reducible first | assumption | exact mask_sub hm rfl | apply modSled_kept | apply fputB_kept)
    | intro _
    | dsimp only
    | split

theorem sledStep4_kept {m : Nat} {og s : State} (h : Kept m og s) (hm : 0x8005001dcfd7e30e8 &&& m = 0x8005001dcfd7e30e8) : ∀ a2 a3 a4 a5 a6 a7 a8, Kept m og (sledStep4 s a2 a3 a4 a5 a6 a7 a8) := by
  intro a2 a3 a4 a5 a6 a7 a8
  unfold sledStep4
  extract_lets +onlyGivenNames d ea eb s0 valid s1
  try clear_value d
  try clear_value ea
  try clear_value eb
  have k_s0 : Kept m og s0 := by
    dsimp only [s0]
    repeat' first
      | (with_reducible first | assumption | exact mask_sub hm rfl | apply fput_kept | apply modSled_kept | apply fputB_kept | apply fputInt_kept | apply sledLose_kept)
      | intro _
      | dsimp only
      | split
  clear_value s0
  try clear_value valid
  have k_s1 : Kept m og s1 := by
    dsimp only [s1]
    repeat' first
      | (with_reducible first | assumption | exact mask_sub hm rfl | apply fput_kept | apply modSled_kept | apply fputB_kept | apply fputInt_kept | apply sledLose_kept)
      | intro _
      | dsimp only
      | split
  clear_value s1
  repeat' first
    | (with_reducible first | assumption | exact mask_sub hm rfl | apply fput_kept | apply modSled_kept | apply fputB_kept | apply fputInt_kept | apply sledLose_kept)
    | intro _
    | dsimp only
    | split

theorem sledApply_kept {m : Nat} {og s : State} (h : Kept m og s) (hm : 0x18 &&& m = 0x18) : ∀ a2, Kept m og (sledApply s a2) := by
  intro a2
  unfold sledApply
  repeat' first
    | (with_reducible first | assumption | exact mask_sub hm rfl | apply fclr_kept | apply applyPend_kept)
    | intro _
    | dsimp only
    | split

theorem sledUpdate_kept {m : Nat} {og s : State} (h : Kept m og s) (hm : 0x8005001dcfd7e30f8 &&& m = 0x8005001dcfd7e30f8) : ∀ a2 a3 a4 a5 a6 a7 a8, Kept m og (sledUpdate s a2 a3 a4 a5 a6 a7 a8) := by
  intro a2 a3 a4 a5 a6 a7 a8
  unfold sledUpdate
  extract_lets +onlyGivenNames s0 q0 s1 s2
  have k_s0 : Kept m og s0 := by
    dsimp only [s0]
    repeat' first
      | (with_reducible first | assumption | exact mask_sub hm rfl | apply sledApply_kept | apply putDrive_kept | apply sledStep3_kept | apply sledStep2_kept | apply sledStep1_kept | apply sledStep4_kept | apply wr_kept)
      | intro _
      | dsimp only
      | split
  clear_value s0
  try clear_value q0
  have k_s1 : Kept m og s1 := by
    dsimp only [s1]
    repeat' first
      | (with_reducible first | assumption | exact mask_sub hm rfl | apply sledApply_kept | apply putDrive_kept | apply sledStep3_kept | apply sledStep2_kept | apply sledStep1_kept | apply sledStep4_kept | apply wr_kept)
      | intro _
      | dsimp only
      | split
  clear_value s1
  have k_s2 : Kept m og s2 := by
    dsimp only [s2]
    repeat' first
      | (with_reducible first | assumption | exact mask_sub hm rfl | apply sledApply_kept | apply putDrive_kept | apply sledStep3_kept | apply sledStep2_kept | apply sledStep1_kept | apply sledStep4_kept | apply wr_kept)
      | intro _
      | dsimp only
      | split
  clear_value s2
  repeat' first
    | (with_reducible first | assumption | exact mask_sub hm rfl | apply sledApply_kept | apply putDrive_kept | apply sledStep3_kept | apply sledStep2_kept | apply sledStep1_kept | apply sledStep4_kept | apply wr_kept)
    | intro _
    | dsimp only
    | split

theorem execSledUpdate_kept {s t : State} {a1 a2 a3 a4 a5 a6 a7} (e : execSledUpdate a1 a2 a3 a4 a5 a6 a7 s = .next t) : Kept 0x8005001dcfd7e30f8 s t := by
  have h := Kept.same 0x8005001dcfd7e30f8 s
  have hm := Nat.and_self 0x8005001dcfd7e30f8
  refine next_kept e ?_
  repeat' first
    | (with_reducible first | assumption | exact mask_sub hm rfl | apply sledUpdate_kept)
    | intro _
    | dsimp only
    | split

theorem runCurrentEnd_kept {m : Nat} {og s : State} (h : Kept m og s) (hm : 0x40000000000008 &&& m = 0x40000000000008) : ∀ a2, Kept m og (runCurrentEnd s a2) := by
  intro a2
  unfold runCurrentEnd
  extract_lets +onlyGivenNames st
  try clear_value st
  repeat' first
    | (with_reducible first | assumption | exact mask_sub hm rfl | apply sledOff_kept | apply modSled_kept)
    | intro _
    | dsimp only
    | split

theorem execRunCurrentEnd_kept {s t : State} {a1} (e : execRunCurrentEnd a1 s = .next t) : Kept 0x40000000000008 s t := by
  have h := Kept.same 0x40000000000008 s
  have hm := Nat.and_self 0x40000000000008
  refine next_kept e ?_
  repeat' first
    | (with_reducible first | assumption | exact mask_sub hm rfl | apply runCurrentEnd_kept)
    | intro _
    | dsimp only

theorem switchEdge_kept {m : Nat} {og s : State} (h : Kept m og s) (hm : 0x8005001dcfd7e30e8 &&& m = 0x8005001dcfd7e30e8) : ∀ a2, Kept m og (switchEdge s a2) := by
  intro a2
  unfold switchEdge
  extract_lets +onlyGivenNames keep s1
  try clear_value keep
  have k_s1 : Kept m og s1 := by
    dsimp only [s1]
    repeat' first
      | (with_reducible first | assumption | exact mask_sub hm rfl | apply modSled_kept | apply fset_kept | apply homeFault_kept)
      | intro _
      | dsimp only
      | split
  clear_value s1
  repeat' first
    | (with_reducible first | assumption | exact mask_sub hm rfl | apply modSled_kept | apply fset_kept | apply homeFault_kept)
    | intro _
    | dsimp only
    | split

theorem execHomeSwitchEdge_kept {s t : State} {a1} (e : execHomeSwitchEdge a1 s = .next t) : Kept 0x8005001dcfd7e30e8 s t := by
  have h := Kept.same 0x8005001dcfd7e30e8 s
  have hm := Nat.and_self 0x8005001dcfd7e30e8
  refine next_kept e ?_
  repeat' first
    | (with_reducible first | assumption | exact mask_sub hm rfl | apply switchEdge_kept)
    | intro _
    | dsimp only
    | split

theorem homeDone_kept {m : Nat} {og s : State} (h : Kept m og s) (hm : 0x40000000003008 &&& m = 0x40000000003008) : ∀ a2, Kept m og (homeDone s a2) := by
  intro a2
  unfold homeDone
  extract_lets +onlyGivenNames ofs s1
  try clear_value ofs
  have k_s1 : Kept m og s1 := by
    dsimp only [s1]
    repeat' first
      | (with_reducible first | assumption | exact mask_sub hm rfl | apply modSled_kept | apply sledStill_kept | apply sledEventAt_kept | apply countHead_kept | apply sledEnter_kept | apply fset_kept)
      | intro _
      | dsimp only
  clear_value s1
  repeat' first
    | (with_reducible first | assumption | exact mask_sub hm rfl | apply modSled_kept | apply sledStill_kept | apply sledEventAt_kept | apply countHead_kept | apply sledEnter_kept | apply fset_kept)
    | intro _
    | dsimp only

theorem switchTrip_kept {m : Nat} {og s : State} (h : Kept m og s) (hm : 0x8005001dcfd7e30e8 &&& m = 0x8005001dcfd7e30e8) : ∀ a2, Kept m og (switchTrip s a2) := by
  intro a2
  unfold switchTrip
  extract_lets +onlyGivenNames d st
  try clear_value d
  try clear_value st
  repeat' first
    | (with_reducible first | assumption | exact mask_sub hm rfl | apply modSled_kept | apply seekStopped_kept | apply sledLatchWait_kept | apply sledPowerDown_kept | apply sledStill_kept | apply sledHalt_kept | apply sledEventAt_kept | apply fclr_kept | apply fset_kept)
    | intro _
    | dsimp only
    | split

theorem switchRelease_kept {m : Nat} {og s : State} (h : Kept m og s) (hm : 0x40000000003008 &&& m = 0x40000000003008) : ∀ a2, Kept m og (switchRelease s a2) := by
  intro a2
  unfold switchRelease
  repeat' first
    | (with_reducible first | assumption | exact mask_sub hm rfl | apply sledSlow_kept | apply homeDone_kept)
    | intro _
    | dsimp only
    | split

theorem switchDebounced_kept {m : Nat} {og s : State} (h : Kept m og s) (hm : 0x8005001dcfd7e30e8 &&& m = 0x8005001dcfd7e30e8) : ∀ a2 a3, Kept m og (switchDebounced s a2 a3) := by
  intro a2 a3
  unfold switchDebounced
  extract_lets +onlyGivenNames active
  try clear_value active
  repeat' first
    | (with_reducible first | assumption | exact mask_sub hm rfl | apply wr_kept | apply fputB_kept | apply switchTrip_kept | apply switchRelease_kept)
    | intro _
    | dsimp only
    | split

theorem execSwitchDebounced_kept {s t : State} {a1 a2} (e : execSwitchDebounced a1 a2 s = .next t) : Kept 0x8005001dcfd7e30e8 s t := by
  have h := Kept.same 0x8005001dcfd7e30e8 s
  have hm := Nat.and_self 0x8005001dcfd7e30e8
  refine next_kept e ?_
  repeat' first
    | (with_reducible first | assumption | exact mask_sub hm rfl | apply switchDebounced_kept)
    | intro _
    | dsimp only
    | split

end Machine
end Sys2Proof
end

