-- ==== Sys2Proof/Laws/KeptSpindle.lean ====
section
/-! SUPPORT. What the operations of Machine/Spindle.lean keep (Laws/Keeps.lean). -/

namespace Sys2Proof
namespace Machine

theorem noteClamp_kept {m : Nat} {og s : State} (h : Kept m og s) (hm : 0x8 &&& m = 0x8) : ∀ a2, Kept m og (noteClamp s a2) := by
  intro a2
  unfold noteClamp
  repeat' first
    | (with_reducible first | assumption | exact mask_sub hm rfl | apply fset_kept)
    | intro _
    | dsimp only
    | split

theorem spnTarget_kept {m : Nat} {og s : State} (h : Kept m og s) (hm : 0x80000000000008 &&& m = 0x80000000000008) : Kept m og (spnTarget s) := by
  unfold spnTarget
  extract_lets +onlyGivenNames top want t s1
  try clear_value top
  try clear_value want
  try clear_value t
  have k_s1 : Kept m og s1 := by
    dsimp only [s1]
    repeat' first
      | (with_reducible first | assumption | exact mask_sub hm rfl | apply noteClamp_kept | apply fclr_kept | apply modSpn_kept)
      | intro _
      | dsimp only
      | split
  clear_value s1
  repeat' first
    | (with_reducible first | assumption | exact mask_sub hm rfl | apply noteClamp_kept | apply fclr_kept | apply modSpn_kept)
    | intro _
    | dsimp only
    | split

theorem spnSpeedApply_kept {m : Nat} {og s : State} (h : Kept m og s) (hm : 0x80000000000018 &&& m = 0x80000000000018) : Kept m og (spnSpeedApply s) := by
  unfold spnSpeedApply
  repeat' first
    | (with_reducible first | assumption | exact mask_sub hm rfl | apply spnTarget_kept | apply fclr_kept | apply applyPend_kept)
    | intro _
    | dsimp only
    | split

theorem putSpeed_kept {m : Nat} {og s : State} (h : Kept m og s) (hm : 0x80000000000008 &&& m = 0x80000000000008) : ∀ a2, Kept m og (putSpeed s a2) := by
  intro a2
  unfold putSpeed
  extract_lets +onlyGivenNames s1
  have k_s1 : Kept m og s1 := by
    dsimp only [s1]
    repeat' first
      | (with_reducible first | assumption | exact mask_sub hm rfl | apply fput_kept | apply modSpn_kept | apply fputB_kept)
      | intro _
      | dsimp only
  clear_value s1
  repeat' first
    | (with_reducible first | assumption | exact mask_sub hm rfl | apply fput_kept | apply modSpn_kept | apply fputB_kept)
    | intro _
    | dsimp only

theorem showLocked_kept {m : Nat} {og s : State} (h : Kept m og s) (hm : 0x8 &&& m = 0x8) : Kept m og (showLocked s) := by
  unfold showLocked
  repeat' first
    | (with_reducible first | assumption | exact mask_sub hm rfl | apply fputB_kept)
    | intro _
    | dsimp only

theorem spnRevolution_kept {m : Nat} {og s : State} (h : Kept m og s) (hm : 0x80000000000008 &&& m = 0x80000000000008) : Kept m og (spnRevolution s) := by
  unfold spnRevolution
  extract_lets +onlyGivenNames t dev tol good bad s1
  try clear_value t
  try clear_value dev
  try clear_value tol
  try clear_value good
  try clear_value bad
  have k_s1 : Kept m og s1 := by
    dsimp only [s1]
    repeat' first
      | (with_reducible first | assumption | exact mask_sub hm rfl | apply modSpn_kept | apply fset_kept | apply fclr_kept)
      | intro _
      | dsimp only
      | split
  clear_value s1
  repeat' first
    | (with_reducible first | assumption | exact mask_sub hm rfl | apply modSpn_kept | apply fset_kept | apply fclr_kept)
    | intro _
    | dsimp only
    | split

theorem turnCount_kept {m : Nat} {og s : State} (h : Kept m og s) (hm : 0x80000000000000 &&& m = 0x80000000000000) : ∀ a2, Kept m og (turnCount s a2) := by
  intro a2
  unfold turnCount
  repeat' first
    | (with_reducible first | assumption | exact mask_sub hm rfl | apply modSpn_kept)
    | intro _
    | dsimp only

theorem discAdvance_kept {m : Nat} {og s : State} (h : Kept m og s) (hm : 0x80000000000008 &&& m = 0x80000000000008) : Kept m og (discAdvance s) := by
  unfold discAdvance
  repeat' first
    | (with_reducible first | assumption | exact mask_sub hm rfl | apply wr_kept | apply showLocked_kept | apply turnCount_kept | apply putSpeed_kept | apply spnRevolution_kept)
    | intro _
    | dsimp only
    | split

theorem spnTake_kept {m : Nat} {og s : State} (h : Kept m og s) (hm : 0x80000000003008 &&& m = 0x80000000003008) : Kept m og (spnTake s) := by
  unfold spnTake
  repeat' first
    | (with_reducible first | assumption | exact mask_sub hm rfl | apply modSpn_kept | apply count_kept | apply fset_kept)
    | intro _
    | dsimp only
    | (with_reducible first | apply getD_kept)
    | split

theorem spnAngle_kept {m : Nat} {og s : State} (h : Kept m og s) (hm : 0x80000000003008 &&& m = 0x80000000003008) : Kept m og (spnAngle s) := by
  unfold spnAngle
  extract_lets +onlyGivenNames sets s1
  try clear_value sets
  have k_s1 : Kept m og s1 := by
    dsimp only [s1]
    repeat' first
      | (with_reducible first | assumption | exact mask_sub hm rfl | apply spnTake_kept | apply modSpn_kept)
      | intro _
      | dsimp only
      | split
  clear_value s1
  repeat' first
    | (with_reducible first | assumption | exact mask_sub hm rfl | apply spnTake_kept | apply modSpn_kept)
    | intro _
    | dsimp only
    | split

theorem seqForced_kept {m : Nat} {og s : State} (h : Kept m og s) (hm : 0x80000000000000 &&& m = 0x80000000000000) : Kept m og (seqForced s) := by
  unfold seqForced
  extract_lets +onlyGivenNames top s1
  try clear_value top
  have k_s1 : Kept m og s1 := by
    dsimp only [s1]
    repeat' first
      | (with_reducible first | assumption | exact mask_sub hm rfl | apply modSpn_kept)
      | intro _
      | dsimp only
  clear_value s1
  repeat' first
    | (with_reducible first | assumption | exact mask_sub hm rfl | apply modSpn_kept)
    | intro _
    | dsimp only

theorem noteAgree_kept {m : Nat} {og s : State} (h : Kept m og s) (hm : 0x80000000000000 &&& m = 0x80000000000000) : ∀ a2, Kept m og (noteAgree s a2) := by
  intro a2
  unfold noteAgree
  repeat' first
    | (with_reducible first | assumption | exact mask_sub hm rfl | apply modSpn_kept)
    | intro _
    | dsimp only
    | split

theorem spnRun_kept {m : Nat} {og s : State} (h : Kept m og s) (hm : 0x80000000000008 &&& m = 0x80000000000008) : ∀ a2, Kept m og (spnRun s a2) := by
  intro a2
  unfold spnRun
  extract_lets +onlyGivenNames s1
  have k_s1 : Kept m og s1 := by
    dsimp only [s1]
    repeat' first
      | (with_reducible first | assumption | exact mask_sub hm rfl | apply modSpn_kept | apply spnEnter_kept | apply fput_kept)
      | intro _
      | dsimp only
  clear_value s1
  repeat' first
    | (with_reducible first | assumption | exact mask_sub hm rfl | apply modSpn_kept | apply spnEnter_kept | apply fput_kept)
    | intro _
    | dsimp only

theorem spnSlew_kept {m : Nat} {og s : State} (h : Kept m og s) (hm : 0x80000000000008 &&& m = 0x80000000000008) : Kept m og (spnSlew s) := by
  unfold spnSlew
  repeat' first
    | (with_reducible first | assumption | exact mask_sub hm rfl | apply modSpn_kept | apply spnRun_kept)
    | intro _
    | dsimp only
    | split

theorem spnPeriod_kept {m : Nat} {og s : State} (h : Kept m og s) (hm : 0x80000000003008 &&& m = 0x80000000003008) : Kept m og (spnPeriod s) := by
  unfold spnPeriod
  extract_lets +onlyGivenNames st inTime
  try clear_value st
  try clear_value inTime
  repeat' first
    | (with_reducible first | assumption | exact mask_sub hm rfl | apply modSpn_kept | apply spnTake_kept | apply seqForced_kept | apply spnSlew_kept | apply noteAgree_kept | apply spnAngle_kept)
    | intro _
    | dsimp only
    | split

theorem vecLimit_kept {m : Nat} {og s : State} (h : Kept m og s) (hm : 0x8 &&& m = 0x8) : Kept m og (vecLimit s) := by
  unfold vecLimit
  repeat' first
    | (with_reducible first | assumption | exact mask_sub hm rfl | apply fputB_kept)
    | intro _
    | dsimp only

theorem putPhases_kept {m : Nat} {og s : State} (h : Kept m og s) (hm : 0x80000000000000 &&& m = 0x80000000000000) : Kept m og (putPhases s) := by
  unfold putPhases
  repeat' first
    | (with_reducible first | assumption | exact mask_sub hm rfl | apply modSpn_kept)
    | intro _
    | dsimp only

theorem putPulse_kept {m : Nat} {og s : State} (h : Kept m og s) (hm : 0x80000000000000 &&& m = 0x80000000000000) : Kept m og (putPulse s) := by
  unfold putPulse
  repeat' first
    | (with_reducible first | assumption | exact mask_sub hm rfl | apply modSpn_kept)
    | intro _
    | dsimp only

theorem rampStep_kept {m : Nat} {og s : State} (h : Kept m og s) (hm : 0x80000000000008 &&& m = 0x80000000000008) : ∀ a2, Kept m og (rampStep s a2) := by
  intro a2
  unfold rampStep
  repeat' first
    | (with_reducible first | assumption | exact mask_sub hm rfl | apply fclr_kept | apply fputB_kept | apply fset_kept | apply fput_kept | apply modSpn_kept | apply spnBrake_kept)
    | intro _
    | dsimp only
    | split

theorem driveGates_kept {m : Nat} {og s : State} (h : Kept m og s) (hm : 0x80000000000000 &&& m = 0x80000000000000) : Kept m og (driveGates s) := by
  unfold driveGates
  extract_lets +onlyGivenNames s1
  have k_s1 : Kept m og s1 := by
    dsimp only [s1]
    repeat' first
      | (with_reducible first | assumption | exact mask_sub hm rfl | apply modSpn_kept | apply putPhases_kept)
      | intro _
      | dsimp only
      | split
  clear_value s1
  repeat' first
    | (with_reducible first | assumption | exact mask_sub hm rfl | apply modSpn_kept | apply putPhases_kept)
    | intro _
    | dsimp only
    | split

theorem periodStart_kept {m : Nat} {og s : State} (h : Kept m og s) (hm : 0x80000000003018 &&& m = 0x80000000003018) : ∀ a2, Kept m og (periodStart s a2) := by
  intro a2
  unfold periodStart
  extract_lets +onlyGivenNames s1 s2 s3 s4 s5
  have k_s1 : Kept m og s1 := by
    dsimp only [s1]
    repeat' first
      | (with_reducible first | assumption | exact mask_sub hm rfl | apply applyPend_kept | apply spnSpeedApply_kept | apply modSpn_kept | apply vecLimit_kept | apply spnPeriod_kept | apply rampStep_kept | apply driveGates_kept | apply discAdvance_kept)
      | intro _
      | dsimp only
      | split
  clear_value s1
  have k_s2 : Kept m og s2 := by
    dsimp only [s2]
    repeat' first
      | (with_reducible first | assumption | exact mask_sub hm rfl | apply applyPend_kept | apply spnSpeedApply_kept | apply modSpn_kept | apply vecLimit_kept | apply spnPeriod_kept | apply rampStep_kept | apply driveGates_kept | apply discAdvance_kept)
      | intro _
      | dsimp only
      | split
  clear_value s2
  have k_s3 : Kept m og s3 := by
    dsimp only [s3]
    repeat' first
      | (with_reducible first | assumption | exact mask_sub hm rfl | apply applyPend_kept | apply spnSpeedApply_kept | apply modSpn_kept | apply vecLimit_kept | apply spnPeriod_kept | apply rampStep_kept | apply driveGates_kept | apply discAdvance_kept)
      | intro _
      | dsimp only
      | split
  clear_value s3
  have k_s4 : Kept m og s4 := by
    dsimp only [s4]
    repeat' first
      | (with_reducible first | assumption | exact mask_sub hm rfl | apply applyPend_kept | apply spnSpeedApply_kept | apply modSpn_kept | apply vecLimit_kept | apply spnPeriod_kept | apply rampStep_kept | apply driveGates_kept | apply discAdvance_kept)
      | intro _
      | dsimp only
      | split
  clear_value s4
  have k_s5 : Kept m og s5 := by
    dsimp only [s5]
    repeat' first
      | (with_reducible first | assumption | exact mask_sub hm rfl | apply applyPend_kept | apply spnSpeedApply_kept | apply modSpn_kept | apply vecLimit_kept | apply spnPeriod_kept | apply rampStep_kept | apply driveGates_kept | apply discAdvance_kept)
      | intro _
      | dsimp only
      | split
  clear_value s5
  repeat' first
    | (with_reducible first | assumption | exact mask_sub hm rfl | apply applyPend_kept | apply spnSpeedApply_kept | apply modSpn_kept | apply vecLimit_kept | apply spnPeriod_kept | apply rampStep_kept | apply driveGates_kept | apply discAdvance_kept)
    | intro _
    | dsimp only
    | split

theorem execPwmPeriodStart_kept {s t : State} {a1} (e : execPwmPeriodStart a1 s = .next t) : Kept 0x80000000003018 s t := by
  have h := Kept.same 0x80000000003018 s
  have hm := Nat.and_self 0x80000000003018
  refine next_kept e ?_
  repeat' first
    | (with_reducible first | assumption | exact mask_sub hm rfl | apply spnSettle_kept | apply periodStart_kept)
    | intro _
    | dsimp only

theorem overcurrent_kept {m : Nat} {og s : State} (h : Kept m og s) (hm : 0x80000000003008 &&& m = 0x80000000003008) : Kept m og (overcurrent s) := by
  unfold overcurrent
  repeat' first
    | (with_reducible first | assumption | exact mask_sub hm rfl | apply count_kept | apply fset_kept | apply modSpn_kept | apply spnLatchOff_kept)
    | intro _
    | dsimp only
    | split

theorem execOvercurrentTrip_kept {s t : State} (e : execOvercurrentTrip s = .next t) : Kept 0x80000000003008 s t := by
  have h := Kept.same 0x80000000003008 s
  have hm := Nat.and_self 0x80000000003008
  refine next_kept e ?_
  repeat' first
    | (with_reducible first | assumption | exact mask_sub hm rfl | apply overcurrent_kept)
    | intro _
    | dsimp only

theorem senseOffsets_kept {m : Nat} {og s : State} (h : Kept m og s) (hm : 0x80000000000008 &&& m = 0x80000000000008) : ∀ a2 a3, Kept m og (senseOffsets s a2 a3) := by
  intro a2 a3
  unfold senseOffsets
  repeat' first
    | (with_reducible first | assumption | exact mask_sub hm rfl | apply modSpn_kept | apply spnEnter_kept | apply spnStartFail_kept | apply fputInt_kept)
    | intro _
    | dsimp only
    | split

theorem samplesCross_kept {m : Nat} {og s : State} (h : Kept m og s) (hm : 0x80000000000008 &&& m = 0x80000000000008) : ∀ a2 a3 a4 a5 a6, Kept m og (samplesCross s a2 a3 a4 a5 a6) := by
  intro a2 a3 a4 a5 a6
  unfold samplesCross
  repeat' first
    | (with_reducible first | assumption | exact mask_sub hm rfl | apply modSpn_kept | apply senseOffsets_kept | apply fputB_kept)
    | intro _
    | dsimp only
    | (with_reducible first | apply getD_kept)

theorem pwmTick_kept {m : Nat} {og s : State} (h : Kept m og s) (hm : 0x800b001dcfd7e30f8 &&& m = 0x800b001dcfd7e30f8) : Kept m og (pwmTick s) := by
  unfold pwmTick
  repeat' first
    | (with_reducible first | assumption | exact mask_sub hm rfl | apply forEach_kept | apply seTick_kept)
    | intro _
    | dsimp only
    | split

theorem midpoint_kept {m : Nat} {og s : State} (h : Kept m og s) (hm : 0x800b001dcfd7e30f8 &&& m = 0x800b001dcfd7e30f8) : ∀ a2 a3 a4 a5 a6, Kept m og (midpoint s a2 a3 a4 a5 a6) := by
  intro a2 a3 a4 a5 a6
  unfold midpoint
  repeat' first
    | (with_reducible first | assumption | exact mask_sub hm rfl | apply sif_kept | apply samplesCross_kept | apply overcurrent_kept | apply pwmTick_kept)
    | intro _
    | dsimp only
    | split

theorem execPwmMidpoint_kept {s t : State} {a1 a2 a3 a4 a5} (e : execPwmMidpoint a1 a2 a3 a4 a5 s = .next t) : Kept 0x800b001dcfd7e30f8 s t := by
  have h := Kept.same 0x800b001dcfd7e30f8 s
  have hm := Nat.and_self 0x800b001dcfd7e30f8
  refine next_kept e ?_
  repeat' first
    | (with_reducible first | assumption | exact mask_sub hm rfl | apply midpoint_kept)
    | intro _
    | dsimp only

theorem spnStart_kept {m : Nat} {og s : State} (h : Kept m og s) (hm : 0x80000000003008 &&& m = 0x80000000003008) : Kept m og (spnStart s) := by
  unfold spnStart
  repeat' first
    | (with_reducible first | assumption | exact mask_sub hm rfl | apply count_kept | apply fput_kept | apply spnEnter_kept | apply spnSettle_kept | apply modSpn_kept | apply fset_kept)
    | intro _
    | dsimp only
    | split

theorem execSpindleStart_kept {s t : State} {a1} (e : execSpindleStart a1 s = .next t) : Kept 0x80000000003008 s t := by
  have h := Kept.same 0x80000000003008 s
  have hm := Nat.and_self 0x80000000003008
  refine next_kept e ?_
  repeat' first
    | (with_reducible first | assumption | exact mask_sub hm rfl | apply spnStart_kept)
    | intro _
    | dsimp only

theorem spnStop_kept {m : Nat} {og s : State} (h : Kept m og s) (hm : 0x80000000000008 &&& m = 0x80000000000008) : Kept m og (spnStop s) := by
  unfold spnStop
  extract_lets +onlyGivenNames st
  try clear_value st
  repeat' first
    | (with_reducible first | assumption | exact mask_sub hm rfl | apply fput_kept | apply modSpn_kept | apply spnBrake_kept | apply spnEnter_kept)
    | intro _
    | dsimp only
    | split

theorem execSpindleStop_kept {s t : State} {a1} (e : execSpindleStop a1 s = .next t) : Kept 0x80000000000008 s t := by
  have h := Kept.same 0x80000000000008 s
  have hm := Nat.and_self 0x80000000000008
  refine next_kept e ?_
  repeat' first
    | (with_reducible first | assumption | exact mask_sub hm rfl | apply spnSettle_kept | apply spnStop_kept)
    | intro _
    | dsimp only

theorem putThetaInit_kept {m : Nat} {og s : State} (h : Kept m og s) (hm : 0x80000000000008 &&& m = 0x80000000000008) : ∀ a2, Kept m og (putThetaInit s a2) := by
  intro a2
  unfold putThetaInit
  repeat' first
    | (with_reducible first | assumption | exact mask_sub hm rfl | apply fput_kept | apply modSpn_kept)
    | intro _
    | dsimp only

theorem spnCatch_kept {m : Nat} {og s : State} (h : Kept m og s) (hm : 0x80000000010008 &&& m = 0x80000000010008) : ∀ a2 a3 a4, Kept m og (spnCatch s a2 a3 a4) := by
  intro a2 a3 a4
  unfold spnCatch
  extract_lets +onlyGivenNames t s1
  try clear_value t
  have k_s1 : Kept m og s1 := by
    dsimp only [s1]
    repeat' first
      | (with_reducible first | assumption | exact mask_sub hm rfl | apply putThetaInit_kept | apply fput_kept | apply spnEnter_kept | apply tickFree_kept | apply modSpn_kept)
      | intro _
      | dsimp only
  clear_value s1
  repeat' first
    | (with_reducible first | assumption | exact mask_sub hm rfl | apply putThetaInit_kept | apply fput_kept | apply spnEnter_kept | apply tickFree_kept | apply modSpn_kept)
    | intro _
    | dsimp only

theorem spnDetect_kept {m : Nat} {og s : State} (h : Kept m og s) (hm : 0x80000000000008 &&& m = 0x80000000000008) : Kept m og (spnDetect s) := by
  unfold spnDetect
  repeat' first
    | (with_reducible first | assumption | exact mask_sub hm rfl | apply putPulse_kept | apply modSpn_kept | apply spnEnter_kept)
    | intro _
    | dsimp only

theorem bemfMeasure_kept {m : Nat} {og s : State} (h : Kept m og s) (hm : 0x80000000010008 &&& m = 0x80000000010008) : ∀ a2 a3 a4, Kept m og (bemfMeasure s a2 a3 a4) := by
  intro a2 a3 a4
  unfold bemfMeasure
  extract_lets +onlyGivenNames st v0 v1
  try clear_value st
  try clear_value v0
  try clear_value v1
  repeat' first
    | (with_reducible first | assumption | exact mask_sub hm rfl | apply modSpn_kept | apply fputB_kept | apply spnCatch_kept | apply spnBrake_kept | apply fset_kept | apply spnEnter_kept | apply spnRelease_kept)
    | intro _
    | dsimp only
    | split

theorem execBemfMeasure_kept {s t : State} {a1 a2 a3} (e : execBemfMeasure a1 a2 a3 s = .next t) : Kept 0x80000000010008 s t := by
  have h := Kept.same 0x80000000010008 s
  have hm := Nat.and_self 0x80000000010008
  refine next_kept e ?_
  repeat' first
    | (with_reducible first | assumption | exact mask_sub hm rfl | apply spnSettle_kept | apply bemfMeasure_kept)
    | intro _
    | dsimp only

theorem execSenseTimeEnd_kept {s t : State} (e : execSenseTimeEnd s = .next t) : Kept 0x80000000000008 s t := by
  have h := Kept.same 0x80000000000008 s
  have hm := Nat.and_self 0x80000000000008
  refine next_kept e ?_
  repeat' first
    | (with_reducible first | assumption | exact mask_sub hm rfl | apply spnSettle_kept | apply spnDetect_kept)
    | intro _
    | dsimp only
    | split

theorem execBrakeDwellEnd_kept {s t : State} (e : execBrakeDwellEnd s = .next t) : Kept 0x80000000000008 s t := by
  have h := Kept.same 0x80000000000008 s
  have hm := Nat.and_self 0x80000000000008
  refine next_kept e ?_
  repeat' first
    | (with_reducible first | assumption | exact mask_sub hm rfl | apply spnSettle_kept | apply spnDetect_kept)
    | intro _
    | dsimp only
    | split

theorem execBrakeTimeout_kept {s t : State} (e : execBrakeTimeout s = .next t) : Kept 0x80000000000008 s t := by
  have h := Kept.same 0x80000000000008 s
  have hm := Nat.and_self 0x80000000000008
  refine next_kept e ?_
  repeat' first
    | (with_reducible first | assumption | exact mask_sub hm rfl | apply spnEnter_kept | apply spnStartFail_kept)
    | intro _
    | dsimp only
    | split

theorem spnForced_kept {m : Nat} {og s : State} (h : Kept m og s) (hm : 0x80000000000008 &&& m = 0x80000000000008) : ∀ a2, Kept m og (spnForced s a2) := by
  intro a2
  unfold spnForced
  repeat' first
    | (with_reducible first | assumption | exact mask_sub hm rfl | apply modSpn_kept | apply putThetaInit_kept | apply spnEnter_kept)
    | intro _
    | dsimp only

theorem detectRound_kept {m : Nat} {og s : State} (h : Kept m og s) (hm : 0x80000000010008 &&& m = 0x80000000010008) : Kept m og (detectRound s) := by
  unfold detectRound
  extract_lets +onlyGivenNames l k top opp
  try clear_value l
  try clear_value k
  try clear_value top
  try clear_value opp
  repeat' first
    | (with_reducible first | assumption | exact mask_sub hm rfl | apply spnEnter_kept | apply spnStartFail_kept | apply tickFree_kept | apply spnForced_kept | apply fset_kept | apply modSpn_kept | apply fput_kept | apply putPulse_kept)
    | intro _
    | dsimp only
    | (with_reducible first | apply getD_kept)
    | split

theorem detectPulse_kept {m : Nat} {og s : State} (h : Kept m og s) (hm : 0x80000000010008 &&& m = 0x80000000010008) : ∀ a2 a3, Kept m og (detectPulse s a2 a3) := by
  intro a2 a3
  unfold detectPulse
  repeat' first
    | (with_reducible first | assumption | exact mask_sub hm rfl | apply modSpn_kept | apply putPulse_kept | apply detectRound_kept)
    | intro _
    | dsimp only
    | split

theorem execDetectPulseEnd_kept {s t : State} {a1 a2} (e : execDetectPulseEnd a1 a2 s = .next t) : Kept 0x80000000010008 s t := by
  have h := Kept.same 0x80000000010008 s
  have hm := Nat.and_self 0x80000000010008
  refine next_kept e ?_
  repeat' first
    | (with_reducible first | assumption | exact mask_sub hm rfl | apply spnSettle_kept | apply detectPulse_kept)
    | intro _
    | dsimp only

theorem execAlignDone_kept {s t : State} (e : execAlignDone s = .next t) : Kept 0x80000000000008 s t := by
  have h := Kept.same 0x80000000000008 s
  have hm := Nat.and_self 0x80000000000008
  refine next_kept e ?_
  repeat' first
    | (with_reducible first | assumption | exact mask_sub hm rfl | apply spnSettle_kept | apply spnForced_kept)
    | intro _
    | dsimp only
    | split

theorem handover_kept {m : Nat} {og s : State} (h : Kept m og s) (hm : 0x80000000003008 &&& m = 0x80000000003008) : Kept m og (handover s) := by
  unfold handover
  repeat' first
    | (with_reducible first | assumption | exact mask_sub hm rfl | apply modSpn_kept | apply count_kept | apply fset_kept | apply spnRun_kept)
    | intro _
    | dsimp only
    | split

theorem execHandoverAgreement_kept {s t : State} (e : execHandoverAgreement s = .next t) : Kept 0x80000000003008 s t := by
  have h := Kept.same 0x80000000003008 s
  have hm := Nat.and_self 0x80000000003008
  refine next_kept e ?_
  repeat' first
    | (with_reducible first | assumption | exact mask_sub hm rfl | apply spnSettle_kept | apply handover_kept)
    | intro _
    | dsimp only

theorem execRegenPause_kept {s t : State} {a1} (e : execRegenPause a1 s = .next t) : Kept 0x8 s t := by
  have h := Kept.same 0x8 s
  have hm := Nat.and_self 0x8
  refine next_kept e ?_
  repeat' first
    | (with_reducible first | assumption | exact mask_sub hm rfl | apply fputB_kept)
    | intro _
    | dsimp only
    | split

theorem execHandoverTimeout_kept {s t : State} (e : execHandoverTimeout s = .next t) : Kept 0x80000000000008 s t := by
  have h := Kept.same 0x80000000000008 s
  have hm := Nat.and_self 0x80000000000008
  refine next_kept e ?_
  repeat' first
    | (with_reducible first | assumption | exact mask_sub hm rfl | apply spnSettle_kept | apply spnBrake_kept | apply spnStartFail_kept)
    | intro _
    | dsimp only
    | split

theorem execCatchTimeout_kept {s t : State} (e : execCatchTimeout s = .next t) : Kept 0x80000000000008 s t := by
  have h := Kept.same 0x80000000000008 s
  have hm := Nat.and_self 0x80000000000008
  refine next_kept e ?_
  repeat' first
    | (with_reducible first | assumption | exact mask_sub hm rfl | apply spnSettle_kept | apply fset_kept | apply spnBrake_kept)
    | intro _
    | dsimp only
    | split

end Machine
end Sys2Proof
end

