-- ==== Sys2Proof/Laws/KeptWedge.lean ====
section
/-! SUPPORT. What the operations of Machine/Wedge.lean keep (Laws/Keeps.lean). -/

namespace Sys2Proof
namespace Machine

theorem wsGood_kept {m : Nat} {og s : State} (h : Kept m og s) (hm : 0x10000020000208 &&& m = 0x10000020000208) : ∀ a2 a3, Kept m og (wsGood s a2 a3) := by
  intro a2 a3
  unfold wsGood
  extract_lets +onlyGivenNames x
  try clear_value x
  repeat' first
    | (with_reducible first | assumption | exact mask_sub hm rfl | apply xingClockRise_kept | apply sif_kept | apply xingClockFall_kept | apply wcLevel_kept)
    | intro _
    | dsimp only
    | split

theorem wsUpdate_kept {m : Nat} {og s : State} (h : Kept m og s) (hm : 0x10000020000208 &&& m = 0x10000020000208) : ∀ a2, Kept m og (wsUpdate s a2) := by
  intro a2
  unfold wsUpdate
  repeat' first
    | (with_reducible first | assumption | exact mask_sub hm rfl | apply fputAt_kept | apply wsGood_kept)
    | intro _
    | dsimp only
    | split

theorem indexPass_kept {m : Nat} {og s : State} (h : Kept m og s) (hm : 0x80000000000008 &&& m = 0x80000000000008) : ∀ a2, Kept m og (indexPass s a2) := by
  intro a2
  unfold indexPass
  extract_lets +onlyGivenNames s1
  have k_s1 : Kept m og s1 := by
    dsimp only [s1]
    repeat' first
      | (with_reducible first | assumption | exact mask_sub hm rfl | apply modSpn_kept | apply wr_kept | apply spnRevolution_kept | apply putSpeed_kept)
      | intro _
      | dsimp only
      | split
  clear_value s1
  repeat' first
    | (with_reducible first | assumption | exact mask_sub hm rfl | apply modSpn_kept | apply wr_kept | apply spnRevolution_kept | apply putSpeed_kept)
    | intro _
    | dsimp only
    | split

theorem wedgeSpindle_kept {m : Nat} {og s : State} (h : Kept m og s) (hm : 0x80000000000008 &&& m = 0x80000000000008) : ∀ a2 a3, Kept m og (wedgeSpindle s a2 a3) := by
  intro a2 a3
  unfold wedgeSpindle
  extract_lets +onlyGivenNames s1
  have k_s1 : Kept m og s1 := by
    dsimp only [s1]
    repeat' first
      | (with_reducible first | assumption | exact mask_sub hm rfl | apply showLocked_kept | apply modSpn_kept | apply indexPass_kept)
      | intro _
      | dsimp only
      | split
  clear_value s1
  repeat' first
    | (with_reducible first | assumption | exact mask_sub hm rfl | apply showLocked_kept | apply modSpn_kept | apply indexPass_kept)
    | intro _
    | dsimp only
    | split

theorem wedgeEffect_kept {m : Nat} {og s : State} (h : Kept m og s) (hm : 0x800b001dcfd7e32e8 &&& m = 0x800b001dcfd7e32e8) : ∀ a2 a3, Kept m og (wedgeEffect s a2 a3) := by
  intro a2 a3
  unfold wedgeEffect
  extract_lets +onlyGivenNames n s1 s2 s3
  try clear_value n
  have k_s1 : Kept m og s1 := by
    dsimp only [s1]
    repeat' first
      | (with_reducible first | assumption | exact mask_sub hm rfl | apply wedgePass_kept | apply wsUpdate_kept | apply wedgeSpindle_kept | apply recordArrives_kept)
      | intro _
      | dsimp only
      | split
  clear_value s1
  have k_s2 : Kept m og s2 := by
    dsimp only [s2]
    repeat' first
      | (with_reducible first | assumption | exact mask_sub hm rfl | apply wedgePass_kept | apply wsUpdate_kept | apply wedgeSpindle_kept | apply recordArrives_kept)
      | intro _
      | dsimp only
      | split
  clear_value s2
  have k_s3 : Kept m og s3 := by
    dsimp only [s3]
    repeat' first
      | (with_reducible first | assumption | exact mask_sub hm rfl | apply wedgePass_kept | apply wsUpdate_kept | apply wedgeSpindle_kept | apply recordArrives_kept)
      | intro _
      | dsimp only
      | split
  clear_value s3
  repeat' first
    | (with_reducible first | assumption | exact mask_sub hm rfl | apply wedgePass_kept | apply wsUpdate_kept | apply wedgeSpindle_kept | apply recordArrives_kept)
    | intro _
    | dsimp only
    | split

theorem execWedgePass_kept {s t : State} {a1 a2} (e : execWedgePass a1 a2 s = .next t) : Kept 0x800b001dcfd7e32e8 s t := by
  have h := Kept.same 0x800b001dcfd7e32e8 s
  have hm := Nat.and_self 0x800b001dcfd7e32e8
  refine next_kept e ?_
  repeat' first
    | (with_reducible first | assumption | exact mask_sub hm rfl | apply wedgeEffect_kept)
    | intro _
    | dsimp only
    | split

theorem execRcEnableWrite_kept {s t : State} {a1 a2 a3} (e : execRcEnableWrite a1 a2 a3 s = .next t) : Kept 0x80010011cfd7e30e8 s t := by
  have h := Kept.same 0x80010011cfd7e30e8 s
  have hm := Nat.and_self 0x80010011cfd7e30e8
  refine next_kept e ?_
  repeat' first
    | (with_reducible first | assumption | exact mask_sub hm rfl | apply reply_kept | apply rcEnable_kept)
    | intro _
    | dsimp only

end Machine
end Sys2Proof
end

