-- ==== Sys2Proof/Laws/KeptCrossing.lean ====
section
/-! SUPPORT. What the operations of Machine/Crossing.lean keep (Laws/Keeps.lean). -/

namespace Sys2Proof
namespace Machine

theorem postEnd_kept {m : Nat} {og s : State} (h : Kept m og s) (hm : 0x80000000000003000 &&& m = 0x80000000000003000) : ∀ a2 a3 a4, Kept m og (postEnd s a2 a3 a4) := by
  intro a2 a3 a4
  unfold postEnd
  repeat' first
    | (with_reducible first | assumption | exact mask_sub hm rfl | apply countStatus_kept | apply retire_kept)
    | intro _
    | dsimp only

theorem postsAbort_kept {m : Nat} {og s : State} (h : Kept m og s) (hm : 0x80000000000003000 &&& m = 0x80000000000003000) : ∀ a2, Kept m og (postsAbort s a2) := by
  intro a2
  unfold postsAbort
  repeat' first
    | (with_reducible first | assumption | exact mask_sub hm rfl | apply forEach_kept | apply postEnd_kept | apply modCore_kept)
    | intro _
    | dsimp only
    | exact zero_put _ _ (by assumption)
    | split

theorem xingLost_kept {m : Nat} {og s : State} (h : Kept m og s) (hm : 0x8145001dcfd7e30e8 &&& m = 0x8145001dcfd7e30e8) : ∀ a2, Kept m og (xingLost s a2) := by
  intro a2
  unfold xingLost
  extract_lets +onlyGivenNames n
  try clear_value n
  repeat' first
    | (with_reducible first | assumption | exact mask_sub hm rfl | apply forEach_kept | apply modHb_kept | apply packetAbort_kept | apply wcLevel_kept | apply sledCut_kept | apply linkDown_kept | apply chanQuiet_kept | apply postsAbort_kept)
    | intro _
    | dsimp only
    | split

theorem xingBack_kept {m : Nat} {og s : State} (h : Kept m og s) (hm : 0x10000020400008 &&& m = 0x10000020400008) : ∀ a2, Kept m og (xingBack s a2) := by
  intro a2
  unfold xingBack
  extract_lets +onlyGivenNames n
  try clear_value n
  repeat' first
    | (with_reducible first | assumption | exact mask_sub hm rfl | apply wcLevel_kept | apply modDram_kept)
    | intro _
    | dsimp only
    | split

theorem xingChange_kept {m : Nat} {og s : State} (h : Kept m og s) (hm : 0x8145001dcfd7e30e8 &&& m = 0x8145001dcfd7e30e8) : ∀ t2 a3, Kept m og t2 → Kept m og (xingChange s t2 a3) := by
  intro t2 a3 k_t2
  unfold xingChange
  repeat' first
    | (with_reducible first | assumption | exact mask_sub hm rfl | apply xingLost_kept | apply xingBack_kept)
    | intro _
    | dsimp only
    | split

theorem clkFall_kept {m : Nat} {og s : State} (h : Kept m og s) (hm : 0x8145001dcfd7e32e8 &&& m = 0x8145001dcfd7e32e8) : ∀ a2, Kept m og (clkFall s a2) := by
  intro a2
  unfold clkFall
  repeat' first
    | (with_reducible first | assumption | exact mask_sub hm rfl | apply xingChange_kept | apply xingClockFall_kept)
    | intro _
    | dsimp only

theorem clkRise_kept {m : Nat} {og s : State} (h : Kept m og s) (hm : 0x8145001dcfd7e32e8 &&& m = 0x8145001dcfd7e32e8) : ∀ a2, Kept m og (clkRise s a2) := by
  intro a2
  unfold clkRise
  repeat' first
    | (with_reducible first | assumption | exact mask_sub hm rfl | apply xingChange_kept | apply xingClockRise_kept)
    | intro _
    | dsimp only

theorem execCrossingResetAssert_kept {s t : State} {a1 a2} (e : execCrossingResetAssert a1 a2 s = .next t) : Kept 0x8145001dcfd7e32e8 s t := by
  have h := Kept.same 0x8145001dcfd7e32e8 s
  have hm := Nat.and_self 0x8145001dcfd7e32e8
  refine next_kept e ?_
  repeat' first
    | (with_reducible first | assumption | exact mask_sub hm rfl | apply xingChange_kept | apply xingResetAssert_kept)
    | intro _
    | dsimp only

theorem execClockGoodFall_kept {s t : State} {a1} (e : execClockGoodFall a1 s = .next t) : Kept 0x8145001dcfd7e32e8 s t := by
  have h := Kept.same 0x8145001dcfd7e32e8 s
  have hm := Nat.and_self 0x8145001dcfd7e32e8
  refine next_kept e ?_
  repeat' first
    | (with_reducible first | assumption | exact mask_sub hm rfl | apply clkFall_kept)
    | intro _
    | dsimp only

theorem execClockGoodRise_kept {s t : State} {a1} (e : execClockGoodRise a1 s = .next t) : Kept 0x8145001dcfd7e32e8 s t := by
  have h := Kept.same 0x8145001dcfd7e32e8 s
  have hm := Nat.and_self 0x8145001dcfd7e32e8
  refine next_kept e ?_
  repeat' first
    | (with_reducible first | assumption | exact mask_sub hm rfl | apply clkRise_kept)
    | intro _
    | dsimp only

theorem execCrossingAbortDelivered_kept {s t : State} {a1} (e : execCrossingAbortDelivered a1 s = .next t) : Kept 0x8145001dcfd7e32e8 s t := by
  have h := Kept.same 0x8145001dcfd7e32e8 s
  have hm := Nat.and_self 0x8145001dcfd7e32e8
  refine next_kept e ?_
  repeat' first
    | (with_reducible first | assumption | exact mask_sub hm rfl | apply xingChange_kept | apply xingDeliver_kept)
    | intro _
    | dsimp only

theorem execCrossingSideReady_kept {s t : State} {a1 a2} (e : execCrossingSideReady a1 a2 s = .next t) : Kept 0x8145001dcfd7e32e8 s t := by
  have h := Kept.same 0x8145001dcfd7e32e8 s
  have hm := Nat.and_self 0x8145001dcfd7e32e8
  refine next_kept e ?_
  repeat' first
    | (with_reducible first | assumption | exact mask_sub hm rfl | apply xingChange_kept | apply xingSideReady_kept)
    | intro _
    | dsimp only

theorem paceClose_kept {m : Nat} {og s : State} (h : Kept m og s) (hm : 0x408 &&& m = 0x408) : ∀ a2 a3, Kept m og (paceClose s a2 a3) := by
  intro a2 a3
  unfold paceClose
  extract_lets +onlyGivenNames s0
  have k_s0 : Kept m og s0 := by
    dsimp only [s0]
    repeat' first
      | (with_reducible first | assumption | exact mask_sub hm rfl | apply fput_kept | apply sif_kept | apply fputB_kept | apply fset_kept)
      | intro _
      | dsimp only
      | split
      | (with_reducible first | apply kept_pace)
  clear_value s0
  repeat' first
    | (with_reducible first | assumption | exact mask_sub hm rfl | apply fput_kept | apply sif_kept | apply fputB_kept | apply fset_kept)
    | intro _
    | dsimp only
    | split
    | (with_reducible first | apply kept_pace)

theorem putVset_kept {m : Nat} {og s : State} (h : Kept m og s) (hm : 0x8 &&& m = 0x8) : ∀ a2, Kept m og (putVset s a2) := by
  intro a2
  unfold putVset
  repeat' first
    | (with_reducible first | assumption | exact mask_sub hm rfl | apply forEach_kept | apply fput_kept | apply fputB_kept)
    | intro _
    | dsimp only

theorem govern_kept {m : Nat} {og s : State} (h : Kept m og s) (hm : 0x8000000000003008 &&& m = 0x8000000000003008) : ∀ a2, Kept m og (govern s a2) := by
  intro a2
  unfold govern
  repeat' first
    | (with_reducible first | assumption | exact mask_sub hm rfl | apply count_kept | apply putVset_kept)
    | intro _
    | dsimp only
    | split
    | (with_reducible first | apply kept_sup)

theorem execPaceWindowClose_kept {s t : State} {a1 a2} (e : execPaceWindowClose a1 a2 s = .next t) : Kept 0x8000000000003408 s t := by
  have h := Kept.same 0x8000000000003408 s
  have hm := Nat.and_self 0x8000000000003408
  refine next_kept e ?_
  repeat' first
    | (with_reducible first | assumption | exact mask_sub hm rfl | apply forEach_kept | apply paceClose_kept | apply govern_kept | apply fput_kept)
    | intro _
    | dsimp only
    | split

end Machine
end Sys2Proof
end

