-- ==== Sys2Proof/Laws/KeptClocks.lean ====
section
/-! SUPPORT. What the operations of Machine/Clocks.lean keep (Laws/Keeps.lean). -/

namespace Sys2Proof
namespace Machine

theorem modClk_kept {m : Nat} {og s : State} (h : Kept m og s) (hm : 0x4000000000000000 &&& m = 0x4000000000000000) : ∀ a2, Kept m og (modClk s a2) := by
  intro a2
  unfold modClk
  repeat' first
    | (with_reducible first | assumption | exact mask_sub hm rfl)
    | intro _
    | dsimp only
    | (with_reducible first | apply kept_clk)

theorem loopDown_kept {m : Nat} {og s : State} (h : Kept m og s) (hm : 0x8145001dcfd7e32e8 &&& m = 0x8145001dcfd7e32e8) : ∀ a2, Kept m og (loopDown s a2) := by
  intro a2
  unfold loopDown
  repeat' first
    | (with_reducible first | assumption | exact mask_sub hm rfl | apply forEach_kept | apply clkFall_kept)
    | intro _
    | dsimp only

theorem loopUp_kept {m : Nat} {og s : State} (h : Kept m og s) (hm : 0x8345001dcfd7e32e8 &&& m = 0x8345001dcfd7e32e8) : ∀ a2, Kept m og (loopUp s a2) := by
  intro a2
  unfold loopUp
  repeat' first
    | (with_reducible first | assumption | exact mask_sub hm rfl | apply forEach_kept | apply fputAt_kept | apply clkGoodShow_kept | apply clkRise_kept | apply wsUpdate_kept)
    | intro _
    | dsimp only
    | split
    | (with_reducible first | apply kept_ddrForce)

theorem coastAll_kept {m : Nat} {og s : State} (h : Kept m og s) (hm : 0x8145001dcfd7e32e8 &&& m = 0x8145001dcfd7e32e8) : Kept m og (coastAll s) := by
  unfold coastAll
  repeat' first
    | (with_reducible first | assumption | exact mask_sub hm rfl | apply forEach_kept | apply count_kept | apply fputAt_kept | apply loopDown_kept)
    | intro _
    | dsimp only
    | split

theorem refShow_kept {m : Nat} {og s : State} (h : Kept m og s) (hm : 0x8145001dcfd7e32e8 &&& m = 0x8145001dcfd7e32e8) : Kept m og (refShow s) := by
  unfold refShow
  extract_lets +onlyGivenNames was good s1
  try clear_value was
  try clear_value good
  have k_s1 : Kept m og s1 := by
    dsimp only [s1]
    repeat' first
      | (with_reducible first | assumption | exact mask_sub hm rfl | apply fputB_kept | apply fset_kept | apply coastAll_kept | apply raiseReport_kept | apply fclr_kept)
      | intro _
      | dsimp only
      | split
  clear_value s1
  repeat' first
    | (with_reducible first | assumption | exact mask_sub hm rfl | apply fputB_kept | apply fset_kept | apply coastAll_kept | apply raiseReport_kept | apply fclr_kept)
    | intro _
    | dsimp only
    | split

theorem execSourceFail_kept {s t : State} {a1} (e : execSourceFail a1 s = .next t) : Kept 0x8145001dcfd7e32e8 s t := by
  have h := Kept.same 0x8145001dcfd7e32e8 s
  have hm := Nat.and_self 0x8145001dcfd7e32e8
  refine next_kept e ?_
  repeat' first
    | (with_reducible first | assumption | exact mask_sub hm rfl | apply refShow_kept | apply fclr_kept)
    | intro _
    | dsimp only
    | split

theorem execSourceGood_kept {s t : State} {a1} (e : execSourceGood a1 s = .next t) : Kept 0x8145001dcfd7e32e8 s t := by
  have h := Kept.same 0x8145001dcfd7e32e8 s
  have hm := Nat.and_self 0x8145001dcfd7e32e8
  refine next_kept e ?_
  repeat' first
    | (with_reducible first | assumption | exact mask_sub hm rfl | apply refShow_kept | apply fset_kept)
    | intro _
    | dsimp only
    | split

theorem clkRelock_kept {m : Nat} {og s : State} (h : Kept m og s) (hm : 0x8 &&& m = 0x8) : ∀ a2, Kept m og (clkRelock s a2) := by
  intro a2
  unfold clkRelock
  repeat' first
    | (with_reducible first | assumption | exact mask_sub hm rfl | apply fset_kept | apply forEach_kept | apply fputAt_kept)
    | intro _
    | dsimp only
    | split

theorem execClkRelock_kept {s t : State} {a1 a2} (e : execClkRelock a1 a2 s = .next t) : Kept 0x88 s t := by
  have h := Kept.same 0x88 s
  have hm := Nat.and_self 0x88
  refine next_kept e ?_
  repeat' first
    | (with_reducible first | assumption | exact mask_sub hm rfl | apply reply_kept | apply clkRelock_kept)
    | intro _
    | dsimp only

theorem loopLock_kept {m : Nat} {og s : State} (h : Kept m og s) (hm : 0x8345001dcfd7e32e8 &&& m = 0x8345001dcfd7e32e8) : ∀ a2, Kept m og (loopLock s a2) := by
  intro a2
  unfold loopLock
  repeat' first
    | (with_reducible first | assumption | exact mask_sub hm rfl | apply loopUp_kept | apply fputAt_kept)
    | intro _
    | dsimp only
    | split

theorem execLoopLock_kept {s t : State} {a1} (e : execLoopLock a1 s = .next t) : Kept 0x8345001dcfd7e32e8 s t := by
  have h := Kept.same 0x8345001dcfd7e32e8 s
  have hm := Nat.and_self 0x8345001dcfd7e32e8
  refine next_kept e ?_
  repeat' first
    | (with_reducible first | assumption | exact mask_sub hm rfl | apply loopLock_kept)
    | intro _
    | dsimp only

theorem execLockLost_kept {s t : State} {a1} (e : execLockLost a1 s = .next t) : Kept 0x8145001dcfd7e32e8 s t := by
  have h := Kept.same 0x8145001dcfd7e32e8 s
  have hm := Nat.and_self 0x8145001dcfd7e32e8
  refine next_kept e ?_
  repeat' first
    | (with_reducible first | assumption | exact mask_sub hm rfl | apply count_kept | apply loopDown_kept | apply fset_kept | apply fputAt_kept)
    | intro _
    | dsimp only
    | split

theorem refSwitch_kept {m : Nat} {og s : State} (h : Kept m og s) (hm : 0x4000000000000008 &&& m = 0x4000000000000008) : ∀ a2, Kept m og (refSwitch s a2) := by
  intro a2
  unfold refSwitch
  repeat' first
    | (with_reducible first | assumption | exact mask_sub hm rfl | apply fset_kept | apply modClk_kept | apply fput_kept)
    | intro _
    | dsimp only
    | split

theorem execRefSwitch_kept {s t : State} {a1 a2} (e : execRefSwitch a1 a2 s = .next t) : Kept 0x4000000000000088 s t := by
  have h := Kept.same 0x4000000000000088 s
  have hm := Nat.and_self 0x4000000000000088
  refine next_kept e ?_
  repeat' first
    | (with_reducible first | assumption | exact mask_sub hm rfl | apply reply_kept | apply refSwitch_kept)
    | intro _
    | dsimp only

theorem refTake_kept {m : Nat} {og s : State} (h : Kept m og s) (hm : 0x8545001dcfd7e32e8 &&& m = 0x8545001dcfd7e32e8) : ∀ a2, Kept m og (refTake s a2) := by
  intro a2
  unfold refTake
  extract_lets +onlyGivenNames s1
  have k_s1 : Kept m og s1 := by
    dsimp only [s1]
    repeat' first
      | (with_reducible first | assumption | exact mask_sub hm rfl | apply fclr_kept | apply fput_kept | apply refShow_kept | apply modClk_kept)
      | intro _
      | dsimp only
  clear_value s1
  repeat' first
    | (with_reducible first | assumption | exact mask_sub hm rfl | apply fclr_kept | apply fput_kept | apply refShow_kept | apply modClk_kept)
    | intro _
    | dsimp only

theorem outTake_kept {m : Nat} {og s : State} (h : Kept m og s) (hm : 0x4000000000000008 &&& m = 0x4000000000000008) : ∀ a2, Kept m og (outTake s a2) := by
  intro a2
  unfold outTake
  repeat' first
    | (with_reducible first | assumption | exact mask_sub hm rfl | apply modClk_kept | apply fclr_kept)
    | intro _
    | dsimp only

theorem execMuxSwitchDone_kept {s t : State} {a1} (e : execMuxSwitchDone a1 s = .next t) : Kept 0x8545001dcfd7e32e8 s t := by
  have h := Kept.same 0x8545001dcfd7e32e8 s
  have hm := Nat.and_self 0x8545001dcfd7e32e8
  refine next_kept e ?_
  repeat' first
    | (with_reducible first | assumption | exact mask_sub hm rfl | apply outTake_kept | apply refTake_kept)
    | intro _
    | dsimp only
    | split

theorem execMuxHung_kept {s t : State} {a1} (e : execMuxHung a1 s = .next t) : Kept 0x3008 s t := by
  have h := Kept.same 0x3008 s
  have hm := Nat.and_self 0x3008
  refine next_kept e ?_
  repeat' first
    | (with_reducible first | assumption | exact mask_sub hm rfl | apply count_kept | apply fset_kept)
    | intro _
    | dsimp only
    | split

theorem permitCheck_kept {m : Nat} {og s : State} (h : Kept m og s) (hm : 0x8 &&& m = 0x8) : ∀ a2 a3 f4, (∀ u0, Kept m og u0 → Kept m og (f4 u0)) → Kept m og (permitCheck s a2 a3 f4) := by
  intro a2 a3 f4 hf4
  unfold permitCheck
  repeat' first
    | (with_reducible first | assumption | exact mask_sub hm rfl | apply hf4 | apply permitDeny_kept)
    | intro _
    | dsimp only
    | split
    | dsimp only [id]

theorem clkRescue_kept {m : Nat} {og s : State} (h : Kept m og s) (hm : 0x8545001dcfd7e32e8 &&& m = 0x8545001dcfd7e32e8) : ∀ a2 a3, Kept m og (clkRescue s a2 a3) := by
  intro a2 a3
  unfold clkRescue
  extract_lets +onlyGivenNames ok
  try clear_value ok
  repeat' first
    | (with_reducible first | assumption | exact mask_sub hm rfl | apply fset_kept | apply modClk_kept | apply xingChange_kept | apply xingResetAssert_kept | apply outTake_kept | apply fput_kept | apply refTake_kept | apply coastAll_kept)
    | intro _
    | dsimp only
    | split

theorem rescueWrite_kept {m : Nat} {og s : State} (h : Kept m og s) (hm : 0x8545001dcfd7e32e8 &&& m = 0x8545001dcfd7e32e8) : ∀ a2 a3, Kept m og (rescueWrite s a2 a3) := by
  intro a2 a3
  unfold rescueWrite
  repeat' first
    | (with_reducible first | assumption | exact mask_sub hm rfl | apply permitCheck_kept | apply clkRescue_kept)
    | intro _
    | dsimp only
    | split

theorem execClkRescue_kept {s t : State} {a1 a2} (e : execClkRescue a1 a2 s = .next t) : Kept 0x8545001dcfd7e32e8 s t := by
  have h := Kept.same 0x8545001dcfd7e32e8 s
  have hm := Nat.and_self 0x8545001dcfd7e32e8
  refine next_kept e ?_
  repeat' first
    | (with_reducible first | assumption | exact mask_sub hm rfl | apply reply_kept | apply rescueWrite_kept)
    | intro _
    | dsimp only

theorem execRescueDone_kept {s t : State} (e : execRescueDone s = .next t) : Kept 0x8545001dcfd7e32e8 s t := by
  have h := Kept.same 0x8545001dcfd7e32e8 s
  have hm := Nat.and_self 0x8545001dcfd7e32e8
  refine next_kept e ?_
  repeat' first
    | (with_reducible first | assumption | exact mask_sub hm rfl | apply count_kept | apply fset_kept | apply modClk_kept | apply xingChange_kept | apply xingResetRelease_kept)
    | intro _
    | dsimp only
    | split

theorem clkoutSelect_kept {m : Nat} {og s : State} (h : Kept m og s) (hm : 0x4000000000000008 &&& m = 0x4000000000000008) : ∀ a2, Kept m og (clkoutSelect s a2) := by
  intro a2
  unfold clkoutSelect
  repeat' first
    | (with_reducible first | assumption | exact mask_sub hm rfl | apply fset_kept | apply fput_kept | apply modClk_kept)
    | intro _
    | dsimp only
    | split

theorem execClkoutSelect_kept {s t : State} {a1 a2} (e : execClkoutSelect a1 a2 s = .next t) : Kept 0x4000000000000088 s t := by
  have h := Kept.same 0x4000000000000088 s
  have hm := Nat.and_self 0x4000000000000088
  refine next_kept e ?_
  repeat' first
    | (with_reducible first | assumption | exact mask_sub hm rfl | apply reply_kept | apply permitCheck_kept | apply clkoutSelect_kept)
    | intro _
    | dsimp only

theorem execClkoutDivChange_kept {s t : State} (e : execClkoutDivChange s = .next t) : Kept 0x4000000000000000 s t := by
  have h := Kept.same 0x4000000000000000 s
  have hm := Nat.and_self 0x4000000000000000
  refine next_kept e ?_
  repeat' first
    | (with_reducible first | assumption | exact mask_sub hm rfl | apply modClk_kept)
    | intro _
    | dsimp only

theorem upSettle_kept {m : Nat} {og s : State} (h : Kept m og s) (hm : 0x8145001dcfd7e32e8 &&& m = 0x8145001dcfd7e32e8) : ∀ a2, Kept m og (upSettle s a2) := by
  intro a2
  unfold upSettle
  repeat' first
    | (with_reducible first | assumption | exact mask_sub hm rfl | apply fputAt_kept | apply loopDown_kept)
    | intro _
    | dsimp only
    | split

theorem portEnable_kept {m : Nat} {og s : State} (h : Kept m og s) (hm : 0x8145001dcfd7e32e8 &&& m = 0x8145001dcfd7e32e8) : ∀ a2 a3, Kept m og (portEnable s a2 a3) := by
  intro a2 a3
  unfold portEnable
  repeat' first
    | (with_reducible first | assumption | exact mask_sub hm rfl | apply fputB_kept | apply putLink_kept | apply linkDown_kept | apply upSettle_kept)
    | intro _
    | dsimp only
    | split

theorem execPortEnableWrite_kept {s t : State} {a1 a2 a3} (e : execPortEnableWrite a1 a2 a3 s = .next t) : Kept 0x8145001dcfd7e32e8 s t := by
  have h := Kept.same 0x8145001dcfd7e32e8 s
  have hm := Nat.and_self 0x8145001dcfd7e32e8
  refine next_kept e ?_
  repeat' first
    | (with_reducible first | assumption | exact mask_sub hm rfl | apply reply_kept | apply portEnable_kept)
    | intro _
    | dsimp only

theorem timeLatch_kept {m : Nat} {og s : State} (h : Kept m og s) (hm : 0x4080 &&& m = 0x4080) : ∀ a2, Kept m og (timeLatch s a2) := by
  intro a2
  unfold timeLatch
  repeat' first
    | (with_reducible first | assumption | exact mask_sub hm rfl | apply reply_kept)
    | intro _
    | dsimp only
    | (with_reducible first | apply kept_tbLatch)

theorem execTimeReadLatch_kept {s t : State} {a1} (e : execTimeReadLatch a1 s = .next t) : Kept 0x4080 s t := by
  have h := Kept.same 0x4080 s
  have hm := Nat.and_self 0x4080
  refine next_kept e ?_
  repeat' first
    | (with_reducible first | assumption | exact mask_sub hm rfl | apply timeLatch_kept)
    | intro _
    | dsimp only
    | dsimp only [id]

theorem counterLatch_kept {m : Nat} {og s : State} (h : Kept m og s) (hm : 0x8080 &&& m = 0x8080) : ∀ a2 a3, Kept m og (counterLatch s a2 a3) := by
  intro a2 a3
  unfold counterLatch
  repeat' first
    | (with_reducible first | assumption | exact mask_sub hm rfl | apply reply_kept)
    | intro _
    | dsimp only
    | (with_reducible first | apply kept_pcLatch)

theorem execCounterReadLatch_kept {s t : State} {a1 a2} (e : execCounterReadLatch a1 a2 s = .next t) : Kept 0x8080 s t := by
  have h := Kept.same 0x8080 s
  have hm := Nat.and_self 0x8080
  refine next_kept e ?_
  repeat' first
    | (with_reducible first | assumption | exact mask_sub hm rfl | apply counterLatch_kept)
    | intro _
    | dsimp only
    | dsimp only [id]

end Machine
end Sys2Proof
end

