-- ==== Sys2Proof/Laws/KeptMsv.lean ====
section
/-! SUPPORT. What the operations of Machine/Msv.lean keep (Laws/Keeps.lean). -/

namespace Sys2Proof
namespace Machine

theorem putRun_kept {m : Nat} {og s : State} (h : Kept m og s) (hm : 0x20000000000000 &&& m = 0x20000000000000) : ∀ a2 a3, Kept m og (putRun s a2 a3) := by
  intro a2 a3
  unfold putRun
  repeat' first
    | (with_reducible first | assumption | exact mask_sub hm rfl | apply modSe_kept)
    | intro _
    | dsimp only

theorem runOn_kept {m : Nat} {og s : State} (h : Kept m og s) (hm : 0x20000000000000 &&& m = 0x20000000000000) : ∀ a2 a3, Kept m og (runOn s a2 a3) := by
  intro a2 a3
  unfold runOn
  repeat' first
    | (with_reducible first | assumption | exact mask_sub hm rfl | apply putRun_kept)
    | intro _
    | dsimp only

theorem modRun_kept {m : Nat} {og s : State} (h : Kept m og s) (hm : 0x20000000000000 &&& m = 0x20000000000000) : ∀ a2 a3, Kept m og (modRun s a2 a3) := by
  intro a2 a3
  unfold modRun
  repeat' first
    | (with_reducible first | assumption | exact mask_sub hm rfl | apply modSe_kept)
    | intro _
    | dsimp only

theorem noteSat_kept {m : Nat} {og s : State} (h : Kept m og s) (hm : 0x20000000000000 &&& m = 0x20000000000000) : ∀ a2 a3, Kept m og (noteSat s a2 a3) := by
  intro a2 a3
  unfold noteSat
  repeat' first
    | (with_reducible first | assumption | exact mask_sub hm rfl | apply modRun_kept)
    | intro _
    | dsimp only
    | split

theorem msvDo_kept {m : Nat} {og s : State} (h : Kept m og s) (hm : 0x0 &&& m = 0x0) : ∀ a2 a3 f4, (∀ u0 u1, Kept m og (f4 u0 u1)) → Kept m og (msvDo s a2 a3 f4) := by
  intro a2 a3 f4 hf4
  unfold msvDo
  repeat' first
    | (with_reducible first | assumption | exact mask_sub hm rfl | apply hf4)
    | intro _
    | dsimp only
    | split

theorem msvSat_kept {m : Nat} {og s : State} (h : Kept m og s) (hm : 0x20000000000000 &&& m = 0x20000000000000) : ∀ a2 a3 a4, Kept m og (msvSat s a2 a3 a4) := by
  intro a2 a3 a4
  unfold msvSat
  repeat' first
    | (with_reducible first | assumption | exact mask_sub hm rfl | apply msvDo_kept | apply noteSat_kept | apply runOn_kept)
    | intro _
    | dsimp only

theorem msvVal_kept {m : Nat} {og s : State} (h : Kept m og s) (hm : 0x20000000000000 &&& m = 0x20000000000000) : ∀ a2 a3 a4, Kept m og (msvVal s a2 a3 a4) := by
  intro a2 a3 a4
  unfold msvVal
  repeat' first
    | (with_reducible first | assumption | exact mask_sub hm rfl | apply msvDo_kept | apply runOn_kept)
    | intro _
    | dsimp only

theorem msvRR_kept {m : Nat} {og s : State} (h : Kept m og s) (hm : 0x20000000000000 &&& m = 0x20000000000000) : ∀ a2 a3 a4, Kept m og (msvRR s a2 a3 a4) := by
  intro a2 a3 a4
  unfold msvRR
  repeat' first
    | (with_reducible first | assumption | exact mask_sub hm rfl | apply msvVal_kept)
    | intro _
    | dsimp only

theorem msvRRSat_kept {m : Nat} {og s : State} (h : Kept m og s) (hm : 0x20000000000000 &&& m = 0x20000000000000) : ∀ a2 a3 a4, Kept m og (msvRRSat s a2 a3 a4) := by
  intro a2 a3 a4
  unfold msvRRSat
  repeat' first
    | (with_reducible first | assumption | exact mask_sub hm rfl | apply msvSat_kept)
    | intro _
    | dsimp only

theorem msvAcc_kept {m : Nat} {og s : State} (h : Kept m og s) (hm : 0x20000000000000 &&& m = 0x20000000000000) : ∀ a2 a3 a4, Kept m og (msvAcc s a2 a3 a4) := by
  intro a2 a3 a4
  unfold msvAcc
  repeat' first
    | (with_reducible first | assumption | exact mask_sub hm rfl | apply msvDo_kept | apply noteSat_kept | apply runOn_kept)
    | intro _
    | dsimp only

theorem execMsvNop_kept {s t : State} {a1} (e : execMsvNop a1 s = .next t) : Kept 0x20000000000000 s t := by
  have h := Kept.same 0x20000000000000 s
  have hm := Nat.and_self 0x20000000000000
  refine next_kept e ?_
  repeat' first
    | (with_reducible first | assumption | exact mask_sub hm rfl | apply msvDo_kept | apply runOn_kept)
    | intro _
    | dsimp only

theorem execMsvMovi_kept {s t : State} {a1} (e : execMsvMovi a1 s = .next t) : Kept 0x20000000000000 s t := by
  have h := Kept.same 0x20000000000000 s
  have hm := Nat.and_self 0x20000000000000
  refine next_kept e ?_
  repeat' first
    | (with_reducible first | assumption | exact mask_sub hm rfl | apply msvVal_kept)
    | intro _
    | dsimp only

theorem execMsvLui_kept {s t : State} {a1} (e : execMsvLui a1 s = .next t) : Kept 0x20000000000000 s t := by
  have h := Kept.same 0x20000000000000 s
  have hm := Nat.and_self 0x20000000000000
  refine next_kept e ?_
  repeat' first
    | (with_reducible first | assumption | exact mask_sub hm rfl | apply msvVal_kept)
    | intro _
    | dsimp only

theorem execMsvMov_kept {s t : State} {a1} (e : execMsvMov a1 s = .next t) : Kept 0x20000000000000 s t := by
  have h := Kept.same 0x20000000000000 s
  have hm := Nat.and_self 0x20000000000000
  refine next_kept e ?_
  repeat' first
    | (with_reducible first | assumption | exact mask_sub hm rfl | apply msvVal_kept)
    | intro _
    | dsimp only

theorem execMsvLdc_kept {s t : State} {a1} (e : execMsvLdc a1 s = .next t) : Kept 0x20000000000000 s t := by
  have h := Kept.same 0x20000000000000 s
  have hm := Nat.and_self 0x20000000000000
  refine next_kept e ?_
  repeat' first
    | (with_reducible first | assumption | exact mask_sub hm rfl | apply msvVal_kept)
    | intro _
    | dsimp only

theorem execMsvLds_kept {s t : State} {a1} (e : execMsvLds a1 s = .next t) : Kept 0x20000000000000 s t := by
  have h := Kept.same 0x20000000000000 s
  have hm := Nat.and_self 0x20000000000000
  refine next_kept e ?_
  repeat' first
    | (with_reducible first | assumption | exact mask_sub hm rfl | apply msvVal_kept)
    | intro _
    | dsimp only

theorem execMsvSts_kept {s t : State} {a1} (e : execMsvSts a1 s = .next t) : Kept 0x20000000000000 s t := by
  have h := Kept.same 0x20000000000000 s
  have hm := Nat.and_self 0x20000000000000
  refine next_kept e ?_
  repeat' first
    | (with_reducible first | assumption | exact mask_sub hm rfl | apply msvDo_kept | apply runOn_kept)
    | intro _
    | dsimp only

theorem execMsvIn_kept {s t : State} {a1} (e : execMsvIn a1 s = .next t) : Kept 0x20000000000000 s t := by
  have h := Kept.same 0x20000000000000 s
  have hm := Nat.and_self 0x20000000000000
  refine next_kept e ?_
  repeat' first
    | (with_reducible first | assumption | exact mask_sub hm rfl | apply msvVal_kept)
    | intro _
    | dsimp only
    | (with_reducible first | apply getD_kept)

theorem execMsvOut_kept {s t : State} {a1} (e : execMsvOut a1 s = .next t) : Kept 0x800b001dcfd7e30f8 s t := by
  have h := Kept.same 0x800b001dcfd7e30f8 s
  have hm := Nat.and_self 0x800b001dcfd7e30f8
  refine next_kept e ?_
  repeat' first
    | (with_reducible first | assumption | exact mask_sub hm rfl | apply msvDo_kept | apply seFault_kept | apply runOn_kept)
    | intro _
    | dsimp only
    | split

theorem execMsvAdd_kept {s t : State} {a1} (e : execMsvAdd a1 s = .next t) : Kept 0x20000000000000 s t := by
  have h := Kept.same 0x20000000000000 s
  have hm := Nat.and_self 0x20000000000000
  refine next_kept e ?_
  repeat' first
    | (with_reducible first | assumption | exact mask_sub hm rfl | apply msvRR_kept)
    | intro _
    | dsimp only

theorem execMsvAdds_kept {s t : State} {a1} (e : execMsvAdds a1 s = .next t) : Kept 0x20000000000000 s t := by
  have h := Kept.same 0x20000000000000 s
  have hm := Nat.and_self 0x20000000000000
  refine next_kept e ?_
  repeat' first
    | (with_reducible first | assumption | exact mask_sub hm rfl | apply msvRRSat_kept)
    | intro _
    | dsimp only

theorem execMsvSub_kept {s t : State} {a1} (e : execMsvSub a1 s = .next t) : Kept 0x20000000000000 s t := by
  have h := Kept.same 0x20000000000000 s
  have hm := Nat.and_self 0x20000000000000
  refine next_kept e ?_
  repeat' first
    | (with_reducible first | assumption | exact mask_sub hm rfl | apply msvRR_kept)
    | intro _
    | dsimp only

theorem execMsvSubs_kept {s t : State} {a1} (e : execMsvSubs a1 s = .next t) : Kept 0x20000000000000 s t := by
  have h := Kept.same 0x20000000000000 s
  have hm := Nat.and_self 0x20000000000000
  refine next_kept e ?_
  repeat' first
    | (with_reducible first | assumption | exact mask_sub hm rfl | apply msvRRSat_kept)
    | intro _
    | dsimp only

theorem execMsvAddi_kept {s t : State} {a1} (e : execMsvAddi a1 s = .next t) : Kept 0x20000000000000 s t := by
  have h := Kept.same 0x20000000000000 s
  have hm := Nat.and_self 0x20000000000000
  refine next_kept e ?_
  repeat' first
    | (with_reducible first | assumption | exact mask_sub hm rfl | apply msvVal_kept)
    | intro _
    | dsimp only

theorem execMsvMul_kept {s t : State} {a1} (e : execMsvMul a1 s = .next t) : Kept 0x20000000000000 s t := by
  have h := Kept.same 0x20000000000000 s
  have hm := Nat.and_self 0x20000000000000
  refine next_kept e ?_
  repeat' first
    | (with_reducible first | assumption | exact mask_sub hm rfl | apply msvRRSat_kept)
    | intro _
    | dsimp only

theorem execMsvDiv_kept {s t : State} {a1} (e : execMsvDiv a1 s = .next t) : Kept 0x20000000000000 s t := by
  have h := Kept.same 0x20000000000000 s
  have hm := Nat.and_self 0x20000000000000
  refine next_kept e ?_
  repeat' first
    | (with_reducible first | assumption | exact mask_sub hm rfl | apply msvDo_kept | apply noteSat_kept | apply runOn_kept | apply modRun_kept)
    | intro _
    | dsimp only
    | split

theorem execMsvAbs_kept {s t : State} {a1} (e : execMsvAbs a1 s = .next t) : Kept 0x20000000000000 s t := by
  have h := Kept.same 0x20000000000000 s
  have hm := Nat.and_self 0x20000000000000
  refine next_kept e ?_
  repeat' first
    | (with_reducible first | assumption | exact mask_sub hm rfl | apply msvSat_kept)
    | intro _
    | dsimp only

theorem execMsvMin_kept {s t : State} {a1} (e : execMsvMin a1 s = .next t) : Kept 0x20000000000000 s t := by
  have h := Kept.same 0x20000000000000 s
  have hm := Nat.and_self 0x20000000000000
  refine next_kept e ?_
  repeat' first
    | (with_reducible first | assumption | exact mask_sub hm rfl | apply msvRR_kept)
    | intro _
    | dsimp only
    | split

theorem execMsvMax_kept {s t : State} {a1} (e : execMsvMax a1 s = .next t) : Kept 0x20000000000000 s t := by
  have h := Kept.same 0x20000000000000 s
  have hm := Nat.and_self 0x20000000000000
  refine next_kept e ?_
  repeat' first
    | (with_reducible first | assumption | exact mask_sub hm rfl | apply msvRR_kept)
    | intro _
    | dsimp only
    | split

theorem execMsvSha_kept {s t : State} {a1} (e : execMsvSha a1 s = .next t) : Kept 0x20000000000000 s t := by
  have h := Kept.same 0x20000000000000 s
  have hm := Nat.and_self 0x20000000000000
  refine next_kept e ?_
  repeat' first
    | (with_reducible first | assumption | exact mask_sub hm rfl | apply msvSat_kept)
    | intro _
    | dsimp only
    | split

theorem execMsvAnd_kept {s t : State} {a1} (e : execMsvAnd a1 s = .next t) : Kept 0x20000000000000 s t := by
  have h := Kept.same 0x20000000000000 s
  have hm := Nat.and_self 0x20000000000000
  refine next_kept e ?_
  repeat' first
    | (with_reducible first | assumption | exact mask_sub hm rfl | apply msvRR_kept)
    | intro _
    | dsimp only

theorem execMsvOr_kept {s t : State} {a1} (e : execMsvOr a1 s = .next t) : Kept 0x20000000000000 s t := by
  have h := Kept.same 0x20000000000000 s
  have hm := Nat.and_self 0x20000000000000
  refine next_kept e ?_
  repeat' first
    | (with_reducible first | assumption | exact mask_sub hm rfl | apply msvRR_kept)
    | intro _
    | dsimp only

theorem execMsvXor_kept {s t : State} {a1} (e : execMsvXor a1 s = .next t) : Kept 0x20000000000000 s t := by
  have h := Kept.same 0x20000000000000 s
  have hm := Nat.and_self 0x20000000000000
  refine next_kept e ?_
  repeat' first
    | (with_reducible first | assumption | exact mask_sub hm rfl | apply msvRR_kept)
    | intro _
    | dsimp only

theorem execMsvAndi_kept {s t : State} {a1} (e : execMsvAndi a1 s = .next t) : Kept 0x20000000000000 s t := by
  have h := Kept.same 0x20000000000000 s
  have hm := Nat.and_self 0x20000000000000
  refine next_kept e ?_
  repeat' first
    | (with_reducible first | assumption | exact mask_sub hm rfl | apply msvVal_kept)
    | intro _
    | dsimp only

theorem execMsvShr_kept {s t : State} {a1} (e : execMsvShr a1 s = .next t) : Kept 0x20000000000000 s t := by
  have h := Kept.same 0x20000000000000 s
  have hm := Nat.and_self 0x20000000000000
  refine next_kept e ?_
  repeat' first
    | (with_reducible first | assumption | exact mask_sub hm rfl | apply msvVal_kept)
    | intro _
    | dsimp only

theorem execMsvMula_kept {s t : State} {a1} (e : execMsvMula a1 s = .next t) : Kept 0x20000000000000 s t := by
  have h := Kept.same 0x20000000000000 s
  have hm := Nat.and_self 0x20000000000000
  refine next_kept e ?_
  repeat' first
    | (with_reducible first | assumption | exact mask_sub hm rfl | apply msvAcc_kept)
    | intro _
    | dsimp only

theorem execMsvMac_kept {s t : State} {a1} (e : execMsvMac a1 s = .next t) : Kept 0x20000000000000 s t := by
  have h := Kept.same 0x20000000000000 s
  have hm := Nat.and_self 0x20000000000000
  refine next_kept e ?_
  repeat' first
    | (with_reducible first | assumption | exact mask_sub hm rfl | apply msvAcc_kept)
    | intro _
    | dsimp only

theorem execMsvMsu_kept {s t : State} {a1} (e : execMsvMsu a1 s = .next t) : Kept 0x20000000000000 s t := by
  have h := Kept.same 0x20000000000000 s
  have hm := Nat.and_self 0x20000000000000
  refine next_kept e ?_
  repeat' first
    | (with_reducible first | assumption | exact mask_sub hm rfl | apply msvAcc_kept)
    | intro _
    | dsimp only

theorem execMsvLda_kept {s t : State} {a1} (e : execMsvLda a1 s = .next t) : Kept 0x20000000000000 s t := by
  have h := Kept.same 0x20000000000000 s
  have hm := Nat.and_self 0x20000000000000
  refine next_kept e ?_
  repeat' first
    | (with_reducible first | assumption | exact mask_sub hm rfl | apply msvAcc_kept)
    | intro _
    | dsimp only

theorem execMsvRnd_kept {s t : State} {a1} (e : execMsvRnd a1 s = .next t) : Kept 0x20000000000000 s t := by
  have h := Kept.same 0x20000000000000 s
  have hm := Nat.and_self 0x20000000000000
  refine next_kept e ?_
  repeat' first
    | (with_reducible first | assumption | exact mask_sub hm rfl | apply msvSat_kept)
    | intro _
    | dsimp only

theorem execMsvBiq_kept {s t : State} {a1} (e : execMsvBiq a1 s = .next t) : Kept 0x20000000000000 s t := by
  have h := Kept.same 0x20000000000000 s
  have hm := Nat.and_self 0x20000000000000
  refine next_kept e ?_
  repeat' first
    | (with_reducible first | assumption | exact mask_sub hm rfl | apply msvDo_kept | apply noteSat_kept | apply runOn_kept)
    | intro _
    | dsimp only
    | (with_reducible first | apply foldl_kept | apply foldlFst_kept)

theorem execMsvLim_kept {s t : State} {a1} (e : execMsvLim a1 s = .next t) : Kept 0x20000000000000 s t := by
  have h := Kept.same 0x20000000000000 s
  have hm := Nat.and_self 0x20000000000000
  refine next_kept e ?_
  repeat' first
    | (with_reducible first | assumption | exact mask_sub hm rfl | apply msvVal_kept)
    | intro _
    | dsimp only
    | split

theorem execMsvIntg_kept {s t : State} {a1} (e : execMsvIntg a1 s = .next t) : Kept 0x20000000000000 s t := by
  have h := Kept.same 0x20000000000000 s
  have hm := Nat.and_self 0x20000000000000
  refine next_kept e ?_
  repeat' first
    | (with_reducible first | assumption | exact mask_sub hm rfl | apply msvDo_kept | apply noteSat_kept | apply runOn_kept)
    | intro _
    | dsimp only

theorem execMsvFfv_kept {s t : State} {a1} (e : execMsvFfv a1 s = .next t) : Kept 0x20000000000000 s t := by
  have h := Kept.same 0x20000000000000 s
  have hm := Nat.and_self 0x20000000000000
  refine next_kept e ?_
  repeat' first
    | (with_reducible first | assumption | exact mask_sub hm rfl | apply msvSat_kept)
    | intro _
    | dsimp only
    | (with_reducible first | apply getD_kept)
    | split

theorem execMsvFfa_kept {s t : State} {a1} (e : execMsvFfa a1 s = .next t) : Kept 0x800b001dcfd7e30f8 s t := by
  have h := Kept.same 0x800b001dcfd7e30f8 s
  have hm := Nat.and_self 0x800b001dcfd7e30f8
  refine next_kept e ?_
  repeat' first
    | (with_reducible first | assumption | exact mask_sub hm rfl | apply msvDo_kept | apply seFault_kept | apply noteSat_kept | apply runOn_kept)
    | intro _
    | dsimp only
    | split

theorem execMsvInj_kept {s t : State} {a1} (e : execMsvInj a1 s = .next t) : Kept 0x20000000000000 s t := by
  have h := Kept.same 0x20000000000000 s
  have hm := Nat.and_self 0x20000000000000
  refine next_kept e ?_
  repeat' first
    | (with_reducible first | assumption | exact mask_sub hm rfl | apply msvSat_kept)
    | intro _
    | dsimp only

theorem execMsvCap_kept {s t : State} {a1} (e : execMsvCap a1 s = .next t) : Kept 0x20000000000000 s t := by
  have h := Kept.same 0x20000000000000 s
  have hm := Nat.and_self 0x20000000000000
  refine next_kept e ?_
  repeat' first
    | (with_reducible first | assumption | exact mask_sub hm rfl | apply msvDo_kept | apply runOn_kept)
    | intro _
    | dsimp only

theorem execMsvLut_kept {s t : State} {a1} (e : execMsvLut a1 s = .next t) : Kept 0x20000000000000 s t := by
  have h := Kept.same 0x20000000000000 s
  have hm := Nat.and_self 0x20000000000000
  refine next_kept e ?_
  repeat' first
    | (with_reducible first | assumption | exact mask_sub hm rfl | apply msvSat_kept)
    | intro _
    | dsimp only

theorem execMsvScs_kept {s t : State} {a1} (e : execMsvScs a1 s = .next t) : Kept 0x20000000010000 s t := by
  have h := Kept.same 0x20000000010000 s
  have hm := Nat.and_self 0x20000000010000
  refine next_kept e ?_
  repeat' first
    | (with_reducible first | assumption | exact mask_sub hm rfl | apply msvDo_kept | apply tickFree_kept | apply runOn_kept)
    | intro _
    | dsimp only

theorem execMsvBr_kept {s t : State} {a1} (e : execMsvBr a1 s = .next t) : Kept 0x20000000000000 s t := by
  have h := Kept.same 0x20000000000000 s
  have hm := Nat.and_self 0x20000000000000
  refine next_kept e ?_
  repeat' first
    | (with_reducible first | assumption | exact mask_sub hm rfl | apply msvDo_kept | apply putRun_kept | apply runOn_kept)
    | intro _
    | dsimp only
    | split

theorem execMsvJmp_kept {s t : State} {a1} (e : execMsvJmp a1 s = .next t) : Kept 0x20000000000000 s t := by
  have h := Kept.same 0x20000000000000 s
  have hm := Nat.and_self 0x20000000000000
  refine next_kept e ?_
  repeat' first
    | (with_reducible first | assumption | exact mask_sub hm rfl | apply msvDo_kept | apply putRun_kept)
    | intro _
    | dsimp only

theorem execMsvRep_kept {s t : State} {a1} (e : execMsvRep a1 s = .next t) : Kept 0x20000000000000 s t := by
  have h := Kept.same 0x20000000000000 s
  have hm := Nat.and_self 0x20000000000000
  refine next_kept e ?_
  repeat' first
    | (with_reducible first | assumption | exact mask_sub hm rfl | apply msvDo_kept | apply runOn_kept)
    | intro _
    | dsimp only

theorem execMsvEvt_kept {s t : State} {a1} (e : execMsvEvt a1 s = .next t) : Kept 0x20000000000000 s t := by
  have h := Kept.same 0x20000000000000 s
  have hm := Nat.and_self 0x20000000000000
  refine next_kept e ?_
  repeat' first
    | (with_reducible first | assumption | exact mask_sub hm rfl | apply msvDo_kept | apply runOn_kept)
    | intro _
    | dsimp only

theorem execMsvEnd_kept {s t : State} {a1} (e : execMsvEnd a1 s = .next t) : Kept 0x800b001dcfd7e30f8 s t := by
  have h := Kept.same 0x800b001dcfd7e30f8 s
  have hm := Nat.and_self 0x800b001dcfd7e30f8
  refine next_kept e ?_
  repeat' first
    | (with_reducible first | assumption | exact mask_sub hm rfl | apply msvDo_kept | apply runCommit_kept)
    | intro _
    | dsimp only

end Machine
end Sys2Proof
end

