-- ==== Sys2Proof/Laws/KeptServoLoad.lean ====
section
/-! SUPPORT. What the operations of Machine/ServoLoad.lean keep (Laws/Keeps.lean). -/

namespace Sys2Proof
namespace Machine

theorem seLoad_kept {m : Nat} {og s : State} (h : Kept m og s) (hm : 0x20000000000008 &&& m = 0x20000000000008) : ∀ a2 a3 a4, Kept m og (seLoad s a2 a3 a4) := by
  intro a2 a3 a4
  unfold seLoad
  repeat' first
    | (with_reducible first | assumption | exact mask_sub hm rfl | apply fset_kept | apply fput_kept | apply setBankState_kept | apply modSe_kept)
    | intro _
    | dsimp only
    | split

theorem execSeLoad_kept {s t : State} {a1 a2 a3 a4} (e : execSeLoad a1 a2 a3 a4 s = .next t) : Kept 0x20000000000008 s t := by
  have h := Kept.same 0x20000000000008 s
  have hm := Nat.and_self 0x20000000000008
  refine next_kept e ?_
  repeat' first
    | (with_reducible first | assumption | exact mask_sub hm rfl | apply seLoad_kept)
    | intro _
    | dsimp only

theorem seLoadEnd_kept {m : Nat} {og s : State} (h : Kept m og s) (hm : 0x20000000000008 &&& m = 0x20000000000008) : ∀ a2 a3 a4 a5, Kept m og (seLoadEnd s a2 a3 a4 a5) := by
  intro a2 a3 a4 a5
  unfold seLoadEnd
  extract_lets +onlyGivenNames ok s1
  try clear_value ok
  have k_s1 : Kept m og s1 := by
    dsimp only [s1]
    repeat' first
      | (with_reducible first | assumption | exact mask_sub hm rfl | apply setBankState_kept | apply modSe_kept | apply fset_kept | apply fclr_kept | apply fput_kept)
      | intro _
      | dsimp only
      | split
  clear_value s1
  repeat' first
    | (with_reducible first | assumption | exact mask_sub hm rfl | apply setBankState_kept | apply modSe_kept | apply fset_kept | apply fclr_kept | apply fput_kept)
    | intro _
    | dsimp only
    | split

theorem seLoadProgram_kept {m : Nat} {og s : State} (h : Kept m og s) (hm : 0x20000000000008 &&& m = 0x20000000000008) (k : Fin 10) (b : Nat) (ws : List Word) :
    Kept m og (seLoadProgram s k b ws) := by
  unfold seLoadProgram
  generalize checkProgram s _ _ = cp
  obtain ⟨fl, w0, w1⟩ := cp
  exact seLoadEnd_kept (wr_kept (modSe_kept h (mask_sub hm rfl) _ _) (mask_sub hm rfl) _ _) (mask_sub hm rfl) _ _ _ _

theorem seLoadWords_kept {m : Nat} {og s : State} (h : Kept m og s) (hm : 0x20000000000008 &&& m = 0x20000000000008) : ∀ a2 a3 a4 a5, Kept m og (seLoadWords s a2 a3 a4 a5) := by
  intro a2 a3 a4 a5
  unfold seLoadWords
  repeat' first
    | (with_reducible first | assumption | exact mask_sub hm rfl | apply seLoadEnd_kept | apply modSe_kept | apply seLoadProgram_kept)
    | intro _
    | dsimp only
    | split

theorem seLoadTake_kept {m : Nat} {og : State} (k : Fin 10) (coef : Bool) (b : Nat) (r : State × Option (List Byte × Bool))
    (h : Kept m og r.1) (hm : 0x20000000000008 &&& m = 0x20000000000008) : Kept m og (seLoadTake k coef b r) := by
  obtain ⟨s, o⟩ := r
  cases o with
  | none => exact seLoadEnd_kept h (mask_sub hm rfl) _ _ _ _
  | some q =>
    obtain ⟨bs, bad⟩ := q
    cases bad with
    | true => exact seLoadEnd_kept h (mask_sub hm rfl) _ _ _ _
    | false => exact seLoadWords_kept h (mask_sub hm rfl) _ _ _ _

theorem seLoadBank_kept {m : Nat} {og s : State} (h : Kept m og s) (hm : 0x800200000047e30e8 &&& m = 0x800200000047e30e8) (k : Fin 10) (coef : Bool) (b : Nat) :
    Kept m og (seLoadBank s k coef b) :=
  seLoadTake_kept k coef b _ (memRead_kept h (mask_sub hm rfl) _ _ _) (mask_sub hm rfl)

theorem seLoadDone_kept {m : Nat} {og s : State} (h : Kept m og s) (hm : 0x800200000047e30e8 &&& m = 0x800200000047e30e8) : ∀ a2, Kept m og (seLoadDone s a2) := by
  intro a2
  unfold seLoadDone
  repeat' first
    | (with_reducible first | assumption | exact mask_sub hm rfl | apply seLoadBank_kept)
    | intro _
    | dsimp only
    | split

theorem execSeLoadDone_kept {s t : State} {a1} (e : execSeLoadDone a1 s = .next t) : Kept 0x800200000047e30e8 s t := by
  have h := Kept.same 0x800200000047e30e8 s
  have hm := Nat.and_self 0x800200000047e30e8
  refine next_kept e ?_
  repeat' first
    | (with_reducible first | assumption | exact mask_sub hm rfl | apply seLoadDone_kept)
    | intro _
    | dsimp only

theorem seWindowWrite_kept {m : Nat} {og s : State} (h : Kept m og s) (hm : 0x800000000057e30e8 &&& m = 0x800000000057e30e8) :
    ∀ k off value, Kept m og (seWindowWrite s k off value) := by
  intro k off value
  unfold seWindowWrite
  split
  · exact reply_kept h (mask_sub hm rfl) _ _ _
  · split
    split
    · exact replyError_kept (fset_kept h (mask_sub hm rfl) _) (mask_sub hm rfl)
    · generalize e : memWrite s 4 _ _ = r
      cases r with
      | none => exact replyError_kept h (mask_sub hm rfl)
      | some t => exact reply_kept (setBankState_kept (memWrite_keq e h (mask_sub hm rfl)) (mask_sub hm rfl) _ _ _ _) (mask_sub hm rfl) _ _ _

theorem execSeWindowWrite_kept {s t : State} {a1 a2 a3 a4} (e : execSeWindowWrite a1 a2 a3 a4 s = .next t) : Kept 0x800000000057e30e8 s t := by
  have h := Kept.same 0x800000000057e30e8 s
  have hm := Nat.and_self 0x800000000057e30e8
  refine next_kept e ?_
  repeat' first
    | (with_reducible first | assumption | exact mask_sub hm rfl | apply seWindowWrite_kept)
    | intro _
    | dsimp only

theorem seStateWrite_kept {m : Nat} {og s : State} (h : Kept m og s) (hm : 0x20000000000080 &&& m = 0x20000000000080) : ∀ a2 a3 a4, Kept m og (seStateWrite s a2 a3 a4) := by
  intro a2 a3 a4
  unfold seStateWrite
  repeat' first
    | (with_reducible first | assumption | exact mask_sub hm rfl | apply reply_kept | apply modSe_kept)
    | intro _
    | dsimp only
    | split

theorem execSeStateWrite_kept {s t : State} {a1 a2 a3 a4} (e : execSeStateWrite a1 a2 a3 a4 s = .next t) : Kept 0x20000000000080 s t := by
  have h := Kept.same 0x20000000000080 s
  have hm := Nat.and_self 0x20000000000080
  refine next_kept e ?_
  repeat' first
    | (with_reducible first | assumption | exact mask_sub hm rfl | apply seStateWrite_kept)
    | intro _
    | dsimp only

theorem seStart_kept {m : Nat} {og s : State} (h : Kept m og s) (hm : 0x20000000000018 &&& m = 0x20000000000018) : ∀ a2, Kept m og (seStart s a2) := by
  intro a2
  unfold seStart
  repeat' first
    | (with_reducible first | assumption | exact mask_sub hm rfl | apply seApply_kept | apply fput_kept | apply fset_kept)
    | intro _
    | dsimp only
    | split

theorem execSeStart_kept {s t : State} {a1 a2} (e : execSeStart a1 a2 s = .next t) : Kept 0x20000000000018 s t := by
  have h := Kept.same 0x20000000000018 s
  have hm := Nat.and_self 0x20000000000018
  refine next_kept e ?_
  repeat' first
    | (with_reducible first | assumption | exact mask_sub hm rfl | apply seStart_kept)
    | intro _
    | dsimp only

theorem seStop_kept {m : Nat} {og s : State} (h : Kept m og s) (hm : 0xa0000000000008 &&& m = 0xa0000000000008) : ∀ a2, Kept m og (seStop s a2) := by
  intro a2
  unfold seStop
  repeat' first
    | (with_reducible first | assumption | exact mask_sub hm rfl | apply modSe_kept | apply seHalt_kept)
    | intro _
    | dsimp only
    | split

theorem execSeStop_kept {s t : State} {a1 a2} (e : execSeStop a1 a2 s = .next t) : Kept 0xa0000000000008 s t := by
  have h := Kept.same 0xa0000000000008 s
  have hm := Nat.and_self 0xa0000000000008
  refine next_kept e ?_
  repeat' first
    | (with_reducible first | assumption | exact mask_sub hm rfl | apply seStop_kept)
    | intro _
    | dsimp only

theorem seApplyNow_kept {m : Nat} {og s : State} (h : Kept m og s) (hm : 0x20000000000018 &&& m = 0x20000000000018) : ∀ a2, Kept m og (seApplyNow s a2) := by
  intro a2
  unfold seApplyNow
  repeat' first
    | (with_reducible first | assumption | exact mask_sub hm rfl | apply fset_kept | apply modSe_kept | apply seApply_kept)
    | intro _
    | dsimp only
    | split

theorem execSeApplyNow_kept {s t : State} {a1 a2} (e : execSeApplyNow a1 a2 s = .next t) : Kept 0x20000000000018 s t := by
  have h := Kept.same 0x20000000000018 s
  have hm := Nat.and_self 0x20000000000018
  refine next_kept e ?_
  repeat' first
    | (with_reducible first | assumption | exact mask_sub hm rfl | apply seApplyNow_kept)
    | intro _
    | dsimp only

theorem seRefetch_kept {m : Nat} {og s : State} (h : Kept m og s) (hm : 0x800b001dcfd7e30f8 &&& m = 0x800b001dcfd7e30f8) : ∀ k coef line, Kept m og (seRefetch s k coef line) := by
  intro k coef line
  unfold seRefetch
  extract_lets +onlyGivenNames off
  clear_value off
  split
  split
  · exact h
  · extract_lets +onlyGivenNames t0
    have k0 : Kept m og t0 := count_kept (count_kept h (mask_sub hm rfl) _) (mask_sub hm rfl) _
    clear_value t0
    generalize e : memRead t0 4 _ 64 = r
    obtain ⟨s1, o⟩ := r
    have k1 := memRead_keq e k0 (mask_sub hm rfl)
    clear e
    cases o with
    | none =>
      dsimp only
      split
      · exact seFault_kept k1 (mask_sub hm rfl) _ _
      · exact k1
    | some q =>
      obtain ⟨bs, bad⟩ := q
      cases bad with
      | true =>
        dsimp only
        split
        · exact seFault_kept k1 (mask_sub hm rfl) _ _
        · exact k1
      | false => exact modSe_kept k1 (mask_sub hm rfl) _ _

theorem execSeCacheRefetch_kept {s t : State} {a1 a2 a3} (e : execSeCacheRefetch a1 a2 a3 s = .next t) : Kept 0x800b001dcfd7e30f8 s t := by
  have h := Kept.same 0x800b001dcfd7e30f8 s
  have hm := Nat.and_self 0x800b001dcfd7e30f8
  refine next_kept e ?_
  repeat' first
    | (with_reducible first | assumption | exact mask_sub hm rfl | apply seRefetch_kept)
    | intro _
    | dsimp only

theorem capEnable_kept {m : Nat} {og s : State} (h : Kept m og s) (hm : 0x20000000000008 &&& m = 0x20000000000008) : ∀ a2 a3, Kept m og (capEnable s a2 a3) := by
  intro a2 a3
  unfold capEnable
  repeat' first
    | (with_reducible first | assumption | exact mask_sub hm rfl | apply fputB_kept | apply modSe_kept | apply fput_kept)
    | intro _
    | dsimp only
    | split

theorem execCapEnableWrite_kept {s t : State} {a1 a2 a3} (e : execCapEnableWrite a1 a2 a3 s = .next t) : Kept 0x20000000000008 s t := by
  have h := Kept.same 0x20000000000008 s
  have hm := Nat.and_self 0x20000000000008
  refine next_kept e ?_
  repeat' first
    | (with_reducible first | assumption | exact mask_sub hm rfl | apply capEnable_kept)
    | intro _
    | dsimp only

end Machine
end Sys2Proof
end

