-- ==== Sys2Proof/Laws/KeptFaults.lean ====
section
/-! SUPPORT. What the operations of Machine/Faults.lean keep (Laws/Keeps.lean). -/

namespace Sys2Proof
namespace Machine

theorem permitConfigReset_kept {m : Nat} {og s : State} (h : Kept m og s) (hm : 0x4000000000000008 &&& m = 0x4000000000000008) : ∀ a2, Kept m og (permitConfigReset s a2) := by
  intro a2
  unfold permitConfigReset
  extract_lets +onlyGivenNames s1
  have k_s1 : Kept m og s1 := by
    dsimp only [s1]
    repeat' first
      | (with_reducible first | assumption | exact mask_sub hm rfl | apply fputAt_kept)
      | intro _
      | dsimp only
      | split
      | (with_reducible first | apply kept_clk | apply kept_regs)
  clear_value s1
  repeat' first
    | (with_reducible first | assumption | exact mask_sub hm rfl | apply fputAt_kept)
    | intro _
    | dsimp only
    | split
    | (with_reducible first | apply kept_clk | apply kept_regs)

theorem permitsRelease_kept {m : Nat} {og s : State} (h : Kept m og s) (hm : 0x4000000000000008 &&& m = 0x4000000000000008) : ∀ a2, Kept m og (permitsRelease s a2) := by
  intro a2
  unfold permitsRelease
  repeat' first
    | (with_reducible first | assumption | exact mask_sub hm rfl | apply forEach_kept | apply permitConfigReset_kept | apply fput_kept)
    | intro _
    | dsimp only

theorem inhibitShow_kept {m : Nat} {og s : State} (h : Kept m og s) (hm : 0x10000020000008 &&& m = 0x10000020000008) : Kept m og (inhibitShow s) := by
  unfold inhibitShow
  repeat' first
    | (with_reducible first | assumption | exact mask_sub hm rfl | apply forEach_kept | apply wcLevel_kept)
    | intro _
    | dsimp only
    | split

theorem parkAll_kept {m : Nat} {og s : State} (h : Kept m og s) (hm : 0x40000000000008 &&& m = 0x40000000000008) : ∀ a2 a3, Kept m og (parkAll s a2 a3) := by
  intro a2 a3
  unfold parkAll
  repeat' first
    | (with_reducible first | assumption | exact mask_sub hm rfl | apply forEach_kept | apply sledPark_kept | apply sledParkRelease_kept)
    | intro _
    | dsimp only
    | split

theorem recordWrite_kept {m : Nat} {og s : State} (h : Kept m og s) (hm : 0x8000000000d7e30e8 &&& m = 0x8000000000d7e30e8) : ∀ a2, Kept m og (recordWrite s a2) := by
  intro a2
  unfold recordWrite
  repeat' first
    | (with_reducible first | assumption | exact mask_sub hm rfl | apply fifoPush_kept | apply count_kept)
    | intro _
    | dsimp only

theorem faultReport_kept {m : Nat} {og s : State} (h : Kept m og s) (hm : 0x8000000000d7e30e8 &&& m = 0x8000000000d7e30e8) : Kept m og (faultReport s) := by
  unfold faultReport
  repeat' first
    | (with_reducible first | assumption | exact mask_sub hm rfl | apply forEach_kept | apply recordWrite_kept)
    | intro _
    | dsimp only
    | (with_reducible first | apply kept_reports)

theorem execFaultReport_kept {s t : State} (e : execFaultReport s = .next t) : Kept 0x8000000000d7e30e8 s t := by
  have h := Kept.same 0x8000000000d7e30e8 s
  have hm := Nat.and_self 0x8000000000d7e30e8
  refine next_kept e ?_
  repeat' first
    | (with_reducible first | assumption | exact mask_sub hm rfl | apply faultReport_kept)
    | intro _
    | dsimp only

theorem chipRecord_kept {m : Nat} {og s : State} (h : Kept m og s) (hm : 0x8000000000d7e30e8 &&& m = 0x8000000000d7e30e8) : ∀ a2 a3 a4 a5 a6, Kept m og (chipRecord s a2 a3 a4 a5 a6) := by
  intro a2 a3 a4 a5 a6
  unfold chipRecord
  repeat' first
    | (with_reducible first | assumption | exact mask_sub hm rfl | apply recordWrite_kept)
    | intro _
    | dsimp only

theorem safeEnter_kept {m : Nat} {og s : State} (h : Kept m og s) (hm : 0xd0000020003008 &&& m = 0xd0000020003008) : ∀ a2, Kept m og (safeEnter s a2) := by
  intro a2
  unfold safeEnter
  repeat' first
    | (with_reducible first | assumption | exact mask_sub hm rfl | apply fput_kept | apply fset_kept | apply parkAll_kept | apply spnSafeN_kept | apply inhibitShow_kept | apply count_kept)
    | intro _
    | dsimp only
    | split

theorem execLockstepMismatch_kept {s t : State} {a1} (e : execLockstepMismatch a1 s = .next t) : Kept 0x800d000002d7e30e8 s t := by
  have h := Kept.same 0x800d000002d7e30e8 s
  have hm := Nat.and_self 0x800d000002d7e30e8
  refine next_kept e ?_
  repeat' first
    | (with_reducible first | assumption | exact mask_sub hm rfl | apply safeEnter_kept | apply chipRecord_kept)
    | intro _
    | dsimp only

theorem safeExt_kept {m : Nat} {og s : State} (h : Kept m og s) (hm : 0x900d000002d7e30e8 &&& m = 0x900d000002d7e30e8) : ∀ a2, Kept m og (safeExt s a2) := by
  intro a2
  unfold safeExt
  repeat' first
    | (with_reducible first | assumption | exact mask_sub hm rfl | apply safeEnter_kept | apply fset_kept | apply chipRecord_kept | apply fputB_kept)
    | intro _
    | dsimp only
    | split
    | (with_reducible first | apply kept_sq)

theorem execSafeExt_kept {s t : State} {a1} (e : execSafeExt a1 s = .next t) : Kept 0x900d000002d7e30e8 s t := by
  have h := Kept.same 0x900d000002d7e30e8 s
  have hm := Nat.and_self 0x900d000002d7e30e8
  refine next_kept e ?_
  repeat' first
    | (with_reducible first | assumption | exact mask_sub hm rfl | apply safeExt_kept)
    | intro _
    | dsimp only

theorem safeReq_kept {m : Nat} {og s : State} (h : Kept m og s) (hm : 0x800d000002d7e30e8 &&& m = 0x800d000002d7e30e8) : ∀ a2 a3, Kept m og (safeReq s a2 a3) := by
  intro a2 a3
  unfold safeReq
  repeat' first
    | (with_reducible first | assumption | exact mask_sub hm rfl | apply safeEnter_kept | apply chipRecord_kept)
    | intro _
    | dsimp only
    | split

theorem execSafeReq_kept {s t : State} {a1 a2} (e : execSafeReq a1 a2 s = .next t) : Kept 0x800d000002d7e30e8 s t := by
  have h := Kept.same 0x800d000002d7e30e8 s
  have hm := Nat.and_self 0x800d000002d7e30e8
  refine next_kept e ?_
  repeat' first
    | (with_reducible first | assumption | exact mask_sub hm rfl | apply reply_kept | apply safeReq_kept)
    | intro _
    | dsimp only
    | dsimp only [id]

theorem sqKick_kept {m : Nat} {og s : State} (h : Kept m og s) (hm : 0x10000000000000000 &&& m = 0x10000000000000000) : ∀ a2, Kept m og (sqKick s a2) := by
  intro a2
  unfold sqKick
  repeat' first
    | (with_reducible first | assumption | exact mask_sub hm rfl)
    | intro _
    | dsimp only
    | split
    | (with_reducible first | apply kept_sq)

theorem execSqKick_kept {s t : State} {a1 a2} (e : execSqKick a1 a2 s = .next t) : Kept 0x10000000000000080 s t := by
  have h := Kept.same 0x10000000000000080 s
  have hm := Nat.and_self 0x10000000000000080
  refine next_kept e ?_
  repeat' first
    | (with_reducible first | assumption | exact mask_sub hm rfl | apply reply_kept | apply sqKick_kept)
    | intro _
    | dsimp only

theorem execWatchdogEnable_kept {s t : State} {a1} (e : execWatchdogEnable a1 s = .next t) : Kept 0x88 s t := by
  have h := Kept.same 0x88 s
  have hm := Nat.and_self 0x88
  refine next_kept e ?_
  repeat' first
    | (with_reducible first | assumption | exact mask_sub hm rfl | apply reply_kept | apply fset_kept)
    | intro _
    | dsimp only

theorem wdExpire_kept {m : Nat} {og s : State} (h : Kept m og s) (hm : 0x900d000002d7e30e8 &&& m = 0x900d000002d7e30e8) : Kept m og (wdExpire s) := by
  unfold wdExpire
  repeat' first
    | (with_reducible first | assumption | exact mask_sub hm rfl | apply fset_kept | apply chipRecord_kept | apply safeEnter_kept)
    | intro _
    | dsimp only
    | split
    | (with_reducible first | apply kept_sq)

theorem execWdExpire_kept {s t : State} (e : execWdExpire s = .next t) : Kept 0x900d000002d7e30e8 s t := by
  have h := Kept.same 0x900d000002d7e30e8 s
  have hm := Nat.and_self 0x900d000002d7e30e8
  refine next_kept e ?_
  repeat' first
    | (with_reducible first | assumption | exact mask_sub hm rfl | apply wdExpire_kept)
    | intro _
    | dsimp only

theorem isolate_kept {m : Nat} {og s : State} (h : Kept m og s) (hm : 0xf0000020000008 &&& m = 0xf0000020000008) : ∀ a2, Kept m og (isolate s a2) := by
  intro a2
  unfold isolate
  repeat' first
    | (with_reducible first | assumption | exact mask_sub hm rfl | apply fputAt_kept | apply sif_kept | apply slotStop_kept | apply seStop_kept | apply sledPark_kept)
    | intro _
    | dsimp only
    | split

theorem isolateHeads_kept {m : Nat} {og s : State} (h : Kept m og s) (hm : 0x800f000002d7e30e8 &&& m = 0x800f000002d7e30e8) : ∀ a2, Kept m og (isolateHeads s a2) := by
  intro a2
  unfold isolateHeads
  repeat' first
    | (with_reducible first | assumption | exact mask_sub hm rfl | apply forEach_kept | apply isolate_kept | apply chipRecord_kept)
    | intro _
    | dsimp only

theorem execFmIsolate_kept {s t : State} {a1 a2} (e : execFmIsolate a1 a2 s = .next t) : Kept 0x800f000002d7e30e8 s t := by
  have h := Kept.same 0x800f000002d7e30e8 s
  have hm := Nat.and_self 0x800f000002d7e30e8
  refine next_kept e ?_
  repeat' first
    | (with_reducible first | assumption | exact mask_sub hm rfl | apply reply_kept | apply isolateHeads_kept)
    | intro _
    | dsimp only

theorem slotsDrop_kept {m : Nat} {og s : State} (h : Kept m og s) (hm : 0x80010011cfd7e30e8 &&& m = 0x80010011cfd7e30e8) : ∀ a2, Kept m og (slotsDrop s a2) := by
  intro a2
  unfold slotsDrop
  extract_lets +onlyGivenNames s1
  have k_s1 : Kept m og s1 := by
    dsimp only [s1]
    repeat' first
      | (with_reducible first | assumption | exact mask_sub hm rfl | apply forEach_kept | apply packetAbort_kept | apply disarmHead_kept | apply sif_kept | apply verifyLost_kept | apply writeSlotEnd_kept | apply slotStop_kept)
      | intro _
      | dsimp only
  clear_value s1
  repeat' first
    | (with_reducible first | assumption | exact mask_sub hm rfl | apply forEach_kept | apply packetAbort_kept | apply disarmHead_kept | apply sif_kept | apply verifyLost_kept | apply writeSlotEnd_kept | apply slotStop_kept)
    | intro _
    | dsimp only

theorem headReset_kept {m : Nat} {og s : State} (h : Kept m og s) (hm : 0x94070011cfd7e33f8 &&& m = 0x94070011cfd7e33f8) : ∀ a2, Kept m og (headReset s a2) := by
  intro a2
  unfold headReset
  extract_lets +onlyGivenNames s0 chans
  have k_s0 : Kept m og s0 := by
    dsimp only [s0]
    repeat' first
      | (with_reducible first | assumption | exact mask_sub hm rfl | apply permitsRelease_kept | apply slotsDrop_kept | apply inhibitShow_kept | apply wsUpdate_kept)
      | intro _
      | dsimp only
      | (with_reducible first | apply foldl_kept | apply foldlFst_kept)
      | split
      | dsimp only [id]
      | (with_reducible first | apply kept_regs_pend_rbt_fifo_ch_hb_wc_se_sled_sq)
  clear_value s0
  try clear_value chans
  repeat' first
    | (with_reducible first | assumption | exact mask_sub hm rfl | apply permitsRelease_kept | apply slotsDrop_kept | apply inhibitShow_kept | apply wsUpdate_kept)
    | intro _
    | dsimp only
    | (with_reducible first | apply foldl_kept | apply foldlFst_kept)
    | split
    | dsimp only [id]
    | (with_reducible first | apply kept_regs_pend_rbt_fifo_ch_hb_wc_se_sled_sq)

theorem reinstate_kept {m : Nat} {og s : State} (h : Kept m og s) (hm : 0x94070011cfd7e33f8 &&& m = 0x94070011cfd7e33f8) : ∀ a2 a3, Kept m og (reinstate s a2 a3) := by
  intro a2 a3
  unfold reinstate
  repeat' first
    | (with_reducible first | assumption | exact mask_sub hm rfl | apply fset_kept | apply fputAt_kept | apply headReset_kept)
    | intro _
    | dsimp only
    | split
    | (with_reducible first | apply kept_sq)

theorem reinstateHeads_kept {m : Nat} {og s : State} (h : Kept m og s) (hm : 0x94070011cfd7e33f8 &&& m = 0x94070011cfd7e33f8) : ∀ a2 a3, Kept m og (reinstateHeads s a2 a3) := by
  intro a2 a3
  unfold reinstateHeads
  repeat' first
    | (with_reducible first | assumption | exact mask_sub hm rfl | apply forEach_kept | apply reinstate_kept)
    | intro _
    | dsimp only

theorem execFmReinstate_kept {s t : State} {a1 a2 a3} (e : execFmReinstate a1 a2 a3 s = .next t) : Kept 0x94070011cfd7e33f8 s t := by
  have h := Kept.same 0x94070011cfd7e33f8 s
  have hm := Nat.and_self 0x94070011cfd7e33f8
  refine next_kept e ?_
  repeat' first
    | (with_reducible first | assumption | exact mask_sub hm rfl | apply reply_kept | apply reinstateHeads_kept)
    | intro _
    | dsimp only

theorem coreHalt_kept {m : Nat} {og s : State} (h : Kept m og s) (hm : 0x80000000004000008 &&& m = 0x80000000004000008) (k : Fin 4) : Kept m og (coreHalt s k) := by
  unfold coreHalt
  extract_lets +onlyGivenNames s1
  have k1 : Kept m og s1 := fputAt_kept (fputAt_kept h (mask_sub hm rfl) _ _ _) (mask_sub hm rfl) _ _ _
  clear_value s1
  refine raiseReport_kept (kept_core k1 (mask_sub hm rfl) ?_) (mask_sub hm rfl) _ _ _ _ _ _ _
  intro z p
  refine zero_set z _ _ ?_ p
  exact z k

theorem fencePort_kept {m : Nat} {og s : State} (h : Kept m og s) (hm : 0x100 &&& m = 0x100) : ∀ a2 a3, Kept m og (fencePort s a2 a3) := by
  intro a2 a3
  unfold fencePort
  repeat' first
    | (with_reducible first | assumption | exact mask_sub hm rfl | apply modRbt_kept)
    | intro _
    | dsimp only
    | split

theorem fenceDrivers_kept {m : Nat} {og s : State} (h : Kept m og s) (hm : 0x800d001dcfd7e30e8 &&& m = 0x800d001dcfd7e30e8) : ∀ a2 a3, Kept m og (fenceDrivers s a2 a3) := by
  intro a2 a3
  unfold fenceDrivers
  repeat' first
    | (with_reducible first | assumption | exact mask_sub hm rfl | apply sledCut_kept | apply spnEnter_kept | apply fclr_kept)
    | intro _
    | dsimp only
    | split

theorem fenceCell_kept {m : Nat} {og s : State} (h : Kept m og s) (hm : 0x800f001dffd7f31e8 &&& m = 0x800f001dffd7f31e8) : ∀ a2 a3, Kept m og (fenceCell s a2 a3) := by
  intro a2 a3
  unfold fenceCell
  extract_lets +onlyGivenNames p s1 s2
  try clear_value p
  have k_s1 : Kept m og s1 := by
    dsimp only [s1]
    repeat' first
      | (with_reducible first | assumption | exact mask_sub hm rfl | apply fset_kept | apply fencePort_kept | apply raiseReport_kept | apply fenceDrivers_kept | apply isolate_kept | apply sliceRemove_kept)
      | intro _
      | dsimp only
      | split
  clear_value s1
  have k_s2 : Kept m og s2 := by
    dsimp only [s2]
    repeat' first
      | (with_reducible first | assumption | exact mask_sub hm rfl | apply fset_kept | apply fencePort_kept | apply raiseReport_kept | apply fenceDrivers_kept | apply isolate_kept | apply sliceRemove_kept)
      | intro _
      | dsimp only
      | split
  clear_value s2
  repeat' first
    | (with_reducible first | assumption | exact mask_sub hm rfl | apply fset_kept | apply fencePort_kept | apply raiseReport_kept | apply fenceDrivers_kept | apply isolate_kept | apply sliceRemove_kept)
    | intro _
    | dsimp only
    | split

theorem heartbeatLoss_kept {m : Nat} {og s : State} (h : Kept m og s) (hm : 0x900f001dffd7f31e8 &&& m = 0x900f001dffd7f31e8) : ∀ a2, Kept m og (heartbeatLoss s a2) := by
  intro a2
  unfold heartbeatLoss
  repeat' first
    | (with_reducible first | assumption | exact mask_sub hm rfl | apply fset_kept | apply fenceCell_kept | apply isolate_kept | apply raiseReport_kept | apply safeEnter_kept | apply forEach_kept | apply coreHalt_kept | apply chipRecord_kept)
    | intro _
    | dsimp only
    | split
    | (with_reducible first | apply kept_sq)

theorem execHeartbeatLoss_kept {s t : State} {a1} (e : execHeartbeatLoss a1 s = .next t) : Kept 0x900f001dffd7f31e8 s t := by
  have h := Kept.same 0x900f001dffd7f31e8 s
  have hm := Nat.and_self 0x900f001dffd7f31e8
  refine next_kept e ?_
  repeat' first
    | (with_reducible first | assumption | exact mask_sub hm rfl | apply heartbeatLoss_kept)
    | intro _
    | dsimp only

end Machine
end Sys2Proof
end

