-- ==== Sys2Proof/Laws/KeptSweepRun.lean ====
section
/-! SUPPORT. What the operations of Machine/SweepRun.lean keep (Laws/Keeps.lean). -/

namespace Sys2Proof
namespace Machine

theorem schedPost_kept {m : Nat} {og s : State} (h : Kept m og s) (hm : 0x20000000 &&& m = 0x20000000) : ∀ a2 a3 a4 a5 a6 a7, Kept m og (schedPost s a2 a3 a4 a5 a6 a7) := by
  intro a2 a3 a4 a5 a6 a7
  unfold schedPost
  repeat' first
    | (with_reducible first | assumption | exact mask_sub hm rfl | apply modHb_kept)
    | intro _
    | dsimp only

theorem stepPost_kept {m : Nat} {og s : State} (h : Kept m og s) (hm : 0x20000000 &&& m = 0x20000000) : ∀ a2 a3 a4 a5 a6 a7, Kept m og (stepPost s a2 a3 a4 a5 a6 a7) := by
  intro a2 a3 a4 a5 a6 a7
  unfold stepPost
  repeat' first
    | (with_reducible first | assumption | exact mask_sub hm rfl | apply modHb_kept | apply schedPost_kept)
    | intro _
    | dsimp only
    | split

theorem portionBegin_kept {m : Nat} {og s : State} (h : Kept m og s) (hm : 0x8000001d02d7e30e8 &&& m = 0x8000001d02d7e30e8) : ∀ a2 a3, Kept m og (portionBegin s a2 a3) := by
  intro a2 a3
  unfold portionBegin
  extract_lets +onlyGivenNames steps
  try clear_value steps
  repeat' first
    | (with_reducible first | assumption | exact mask_sub hm rfl | apply modHb_kept | apply portionEnd_kept)
    | intro _
    | dsimp only
    | split

theorem portionStart_kept {m : Nat} {og s : State} (h : Kept m og s) (hm : 0x8000001d02d7e30e8 &&& m = 0x8000001d02d7e30e8) : ∀ a2, Kept m og (portionStart s a2) := by
  intro a2
  unfold portionStart
  extract_lets +onlyGivenNames st
  try clear_value st
  repeat' first
    | (with_reducible first | assumption | exact mask_sub hm rfl | apply portionBegin_kept)
    | intro _
    | dsimp only
    | split

theorem execPortionStart_kept {s t : State} {a1} (e : execPortionStart a1 s = .next t) : Kept 0x8000001d02d7e30e8 s t := by
  have h := Kept.same 0x8000001d02d7e30e8 s
  have hm := Nat.and_self 0x8000001d02d7e30e8
  refine next_kept e ?_
  repeat' first
    | (with_reducible first | assumption | exact mask_sub hm rfl | apply portionStart_kept)
    | intro _
    | dsimp only

theorem onStep_kept {m : Nat} {og s : State} (h : Kept m og s) (hm : 0x0 &&& m = 0x0) : ∀ a2 a3 f4, (∀ u0 u1 u2, Kept m og (f4 u0 u1 u2)) → Kept m og (onStep s a2 a3 f4) := by
  intro a2 a3 f4 hf4
  unfold onStep
  repeat' first
    | (with_reducible first | assumption | exact mask_sub hm rfl | apply hf4)
    | intro _
    | dsimp only
    | split

theorem stepPlain_kept {m : Nat} {og s : State} (h : Kept m og s) (hm : 0x8000001d02d7e30e8 &&& m = 0x8000001d02d7e30e8) : ∀ a2 a3, Kept m og (stepPlain s a2 a3) := by
  intro a2 a3
  unfold stepPlain
  repeat' first
    | (with_reducible first | assumption | exact mask_sub hm rfl | apply onStep_kept | apply curStepEnd_kept)
    | intro _
    | dsimp only

theorem execHeadStep_kept {s t : State} {a1} (e : execHeadStep a1 s = .next t) : Kept 0x8000001d02d7e30e8 s t := by
  have h := Kept.same 0x8000001d02d7e30e8 s
  have hm := Nat.and_self 0x8000001d02d7e30e8
  refine next_kept e ?_
  repeat' first
    | (with_reducible first | assumption | exact mask_sub hm rfl | apply stepPlain_kept)
    | intro _
    | dsimp only

theorem execLayer_kept {s t : State} {a1} (e : execLayer a1 s = .next t) : Kept 0x8000001d02d7e30e8 s t := by
  have h := Kept.same 0x8000001d02d7e30e8 s
  have hm := Nat.and_self 0x8000001d02d7e30e8
  refine next_kept e ?_
  repeat' first
    | (with_reducible first | assumption | exact mask_sub hm rfl | apply onStep_kept | apply curStepEnd_kept | apply stepPost_kept)
    | intro _
    | dsimp only

theorem stepSeek_kept {m : Nat} {og s : State} (h : Kept m og s) (hm : 0x8005001dcfd7e30e8 &&& m = 0x8005001dcfd7e30e8) : ∀ a2 a3 a4, Kept m og (stepSeek s a2 a3 a4) := by
  intro a2 a3 a4
  unfold stepSeek
  extract_lets +onlyGivenNames pta s1
  try clear_value pta
  have k_s1 : Kept m og s1 := by
    dsimp only [s1]
    repeat' first
      | (with_reducible first | assumption | exact mask_sub hm rfl | apply stepPost_kept | apply curStepEnd_kept | apply sledTarget_kept)
      | intro _
      | dsimp only
      | split
  clear_value s1
  repeat' first
    | (with_reducible first | assumption | exact mask_sub hm rfl | apply stepPost_kept | apply curStepEnd_kept | apply sledTarget_kept)
    | intro _
    | dsimp only
    | split

theorem execSeek_kept {s t : State} {a1} (e : execSeek a1 s = .next t) : Kept 0x8005001dcfd7e30e8 s t := by
  have h := Kept.same 0x8005001dcfd7e30e8 s
  have hm := Nat.and_self 0x8005001dcfd7e30e8
  refine next_kept e ?_
  repeat' first
    | (with_reducible first | assumption | exact mask_sub hm rfl | apply onStep_kept | apply stepSeek_kept)
    | intro _
    | dsimp only

theorem execWaitPos_kept {s t : State} {a1} (e : execWaitPos a1 s = .next t) : Kept 0x8000001d02d7e30e8 s t := by
  have h := Kept.same 0x8000001d02d7e30e8 s
  have hm := Nat.and_self 0x8000001d02d7e30e8
  refine next_kept e ?_
  repeat' first
    | (with_reducible first | assumption | exact mask_sub hm rfl | apply onStep_kept | apply curStepEnd_kept | apply modPortion_kept)
    | intro _
    | dsimp only
    | split

theorem execWaitWedge_kept {s t : State} {a1} (e : execWaitWedge a1 s = .next t) : Kept 0x8000001d02d7e30e8 s t := by
  have h := Kept.same 0x8000001d02d7e30e8 s
  have hm := Nat.and_self 0x8000001d02d7e30e8
  refine next_kept e ?_
  repeat' first
    | (with_reducible first | assumption | exact mask_sub hm rfl | apply onStep_kept | apply curStepEnd_kept | apply modPortion_kept)
    | intro _
    | dsimp only
    | split

theorem execWaitWedgeReached_kept {s t : State} {a1} (e : execWaitWedgeReached a1 s = .next t) : Kept 0x8000001d02d7e30e8 s t := by
  have h := Kept.same 0x8000001d02d7e30e8 s
  have hm := Nat.and_self 0x8000001d02d7e30e8
  refine next_kept e ?_
  repeat' first
    | (with_reducible first | assumption | exact mask_sub hm rfl | apply onStep_kept | apply curStepEnd_kept)
    | intro _
    | dsimp only
    | split

theorem stepMark_kept {m : Nat} {og s : State} (h : Kept m og s) (hm : 0x8000001d02d7e30e8 &&& m = 0x8000001d02d7e30e8) : ∀ a2 a3, Kept m og (stepMark s a2 a3) := by
  intro a2 a3
  unfold stepMark
  repeat' first
    | (with_reducible first | assumption | exact mask_sub hm rfl | apply curStepEnd_kept | apply sif_kept | apply fset_kept)
    | intro _
    | dsimp only

theorem execMark_kept {s t : State} {a1} (e : execMark a1 s = .next t) : Kept 0x8000001d02d7e30e8 s t := by
  have h := Kept.same 0x8000001d02d7e30e8 s
  have hm := Nat.and_self 0x8000001d02d7e30e8
  refine next_kept e ?_
  repeat' first
    | (with_reducible first | assumption | exact mask_sub hm rfl | apply onStep_kept | apply stepMark_kept)
    | intro _
    | dsimp only

theorem execNopStep_kept {s t : State} {a1} (e : execNopStep a1 s = .next t) : Kept 0x8000001d02d7e30e8 s t := by
  have h := Kept.same 0x8000001d02d7e30e8 s
  have hm := Nat.and_self 0x8000001d02d7e30e8
  refine next_kept e ?_
  repeat' first
    | (with_reducible first | assumption | exact mask_sub hm rfl | apply stepPlain_kept)
    | intro _
    | dsimp only

theorem execEndStep_kept {s t : State} {a1} (e : execEndStep a1 s = .next t) : Kept 0x8000001d02d7e30e8 s t := by
  have h := Kept.same 0x8000001d02d7e30e8 s
  have hm := Nat.and_self 0x8000001d02d7e30e8
  refine next_kept e ?_
  repeat' first
    | (with_reducible first | assumption | exact mask_sub hm rfl | apply stepPlain_kept)
    | intro _
    | dsimp only

theorem stepOpen_kept {m : Nat} {og s : State} (h : Kept m og s) (hm : 0x20000000 &&& m = 0x20000000) : ∀ a2 a3 a4 a5 a6, Kept m og (stepOpen s a2 a3 a4 a5 a6) := by
  intro a2 a3 a4 a5 a6
  unfold stepOpen
  repeat' first
    | (with_reducible first | assumption | exact mask_sub hm rfl | apply modHb_kept)
    | intro _
    | dsimp only

theorem armRead_kept {m : Nat} {og s : State} (h : Kept m og s) (hm : 0x8000000f0bd7e30e8 &&& m = 0x8000000f0bd7e30e8) : ∀ a2 a3 a4 a5 a6, Kept m og (armRead s a2 a3 a4 a5 a6) := by
  intro a2 a3 a4 a5 a6
  unfold armRead
  extract_lets +onlyGivenNames slots t s1
  try clear_value slots
  try clear_value t
  have k_s1 : Kept m og s1 := by
    dsimp only [s1]
    repeat' first
      | (with_reducible first | assumption | exact mask_sub hm rfl | apply showOpen_kept | apply stepOpen_kept | apply spanReached_kept | apply forEach_kept | apply slotQueue_kept)
      | intro _
      | dsimp only
      | (with_reducible first | apply kept_tiles_tileCtr)
  clear_value s1
  repeat' first
    | (with_reducible first | assumption | exact mask_sub hm rfl | apply showOpen_kept | apply stepOpen_kept | apply spanReached_kept | apply forEach_kept | apply slotQueue_kept)
    | intro _
    | dsimp only
    | (with_reducible first | apply kept_tiles_tileCtr)

theorem armWrite_kept {m : Nat} {og s : State} (h : Kept m og s) (hm : 0x10000020000000 &&& m = 0x10000020000000) : ∀ a2 a3 a4 a5, Kept m og (armWrite s a2 a3 a4 a5) := by
  intro a2 a3 a4 a5
  unfold armWrite
  extract_lets +onlyGivenNames slots oblit s1
  try clear_value slots
  try clear_value oblit
  have k_s1 : Kept m og s1 := by
    dsimp only [s1]
    repeat' first
      | (with_reducible first | assumption | exact mask_sub hm rfl | apply stepOpen_kept | apply forEach_kept | apply modWc_kept)
      | intro _
      | dsimp only
      | split
  clear_value s1
  repeat' first
    | (with_reducible first | assumption | exact mask_sub hm rfl | apply stepOpen_kept | apply forEach_kept | apply modWc_kept)
    | intro _
    | dsimp only
    | split

theorem dataStep_kept {m : Nat} {og s : State} (h : Kept m og s) (hm : 0x8000001d02d7e30e8 &&& m = 0x8000001d02d7e30e8) : ∀ a2 a3 f4, (∀ u0 u1 u2, Kept m og (f4 u0 u1 u2)) → Kept m og (dataStep s a2 a3 f4) := by
  intro a2 a3 f4 hf4
  unfold dataStep
  repeat' first
    | (with_reducible first | assumption | exact mask_sub hm rfl | apply hf4 | apply onStep_kept | apply curStepEnd_kept)
    | intro _
    | dsimp only
    | split

theorem execReadTile_kept {s t : State} {a1} (e : execReadTile a1 s = .next t) : Kept 0x8000001f0bd7e30e8 s t := by
  have h := Kept.same 0x8000001f0bd7e30e8 s
  have hm := Nat.and_self 0x8000001f0bd7e30e8
  refine next_kept e ?_
  repeat' first
    | (with_reducible first | assumption | exact mask_sub hm rfl | apply dataStep_kept | apply armRead_kept)
    | intro _
    | dsimp only

theorem execVerifyTile_kept {s t : State} {a1} (e : execVerifyTile a1 s = .next t) : Kept 0x8000001f0bd7e30e8 s t := by
  have h := Kept.same 0x8000001f0bd7e30e8 s
  have hm := Nat.and_self 0x8000001f0bd7e30e8
  refine next_kept e ?_
  repeat' first
    | (with_reducible first | assumption | exact mask_sub hm rfl | apply dataStep_kept | apply armRead_kept)
    | intro _
    | dsimp only

theorem execAuditTile_kept {s t : State} {a1} (e : execAuditTile a1 s = .next t) : Kept 0x8000001f0bd7e30e8 s t := by
  have h := Kept.same 0x8000001f0bd7e30e8 s
  have hm := Nat.and_self 0x8000001f0bd7e30e8
  refine next_kept e ?_
  repeat' first
    | (with_reducible first | assumption | exact mask_sub hm rfl | apply dataStep_kept | apply armRead_kept)
    | intro _
    | dsimp only

theorem execWriteTile_kept {s t : State} {a1} (e : execWriteTile a1 s = .next t) : Kept 0x8001001d02d7e30e8 s t := by
  have h := Kept.same 0x8001001d02d7e30e8 s
  have hm := Nat.and_self 0x8001001d02d7e30e8
  refine next_kept e ?_
  repeat' first
    | (with_reducible first | assumption | exact mask_sub hm rfl | apply dataStep_kept | apply armWrite_kept)
    | intro _
    | dsimp only

theorem execObliterate_kept {s t : State} {a1} (e : execObliterate a1 s = .next t) : Kept 0x8001001d02d7e30e8 s t := by
  have h := Kept.same 0x8001001d02d7e30e8 s
  have hm := Nat.and_self 0x8001001d02d7e30e8
  refine next_kept e ?_
  repeat' first
    | (with_reducible first | assumption | exact mask_sub hm rfl | apply dataStep_kept | apply armWrite_kept)
    | intro _
    | dsimp only

theorem execCalSlot_kept {s t : State} {a1} (e : execCalSlot a1 s = .next t) : Kept 0x8000001d02d7e30e8 s t := by
  have h := Kept.same 0x8000001d02d7e30e8 s
  have hm := Nat.and_self 0x8000001d02d7e30e8
  refine next_kept e ?_
  repeat' first
    | (with_reducible first | assumption | exact mask_sub hm rfl | apply onStep_kept | apply curStepEnd_kept | apply stepOpen_kept)
    | intro _
    | dsimp only
    | split

theorem closeStep_kept {m : Nat} {og s : State} (h : Kept m og s) (hm : 0x8000001d02d7e30e8 &&& m = 0x8000001d02d7e30e8) : ∀ a2 a3, Kept m og (closeStep s a2 a3) := by
  intro a2 a3
  unfold closeStep
  repeat' first
    | (with_reducible first | assumption | exact mask_sub hm rfl | apply curStepEnd_kept | apply stepMark_kept)
    | intro _
    | dsimp only
    | split

theorem closePortion_kept {m : Nat} {og s : State} (h : Kept m og s) (hm : 0x8000001d02d7e30e8 &&& m = 0x8000001d02d7e30e8) : ∀ a2, Kept m og (closePortion s a2) := by
  intro a2
  unfold closePortion
  repeat' first
    | (with_reducible first | assumption | exact mask_sub hm rfl | apply forEach_kept | apply closeStep_kept)
    | intro _
    | dsimp only
    | split

end Machine
end Sys2Proof
end

