-- ==== Sys2Proof/Laws/KeptSweepLoad.lean ====
section
/-! SUPPORT. What the operations of Machine/SweepLoad.lean keep (Laws/Keeps.lean). -/

namespace Sys2Proof
namespace Machine

theorem showQueued_kept {m : Nat} {og s : State} (h : Kept m og s) (hm : 0x8 &&& m = 0x8) : Kept m og (showQueued s) := by
  unfold showQueued
  repeat' first
    | (with_reducible first | assumption | exact mask_sub hm rfl | apply fput_kept)
    | intro _
    | dsimp only

theorem showLoading_kept {m : Nat} {og s : State} (h : Kept m og s) (hm : 0x8 &&& m = 0x8) : ∀ a2, Kept m og (showLoading s a2) := by
  intro a2
  unfold showLoading
  repeat' first
    | (with_reducible first | assumption | exact mask_sub hm rfl | apply fputB_kept)
    | intro _
    | dsimp only

theorem sweepSubmit_kept {m : Nat} {og s : State} (h : Kept m og s) (hm : 0x20000000008 &&& m = 0x20000000008) : ∀ a2, Kept m og (sweepSubmit s a2) := by
  intro a2
  unfold sweepSubmit
  extract_lets +onlyGivenNames s1 addr
  have k_s1 : Kept m og s1 := by
    dsimp only [s1]
    repeat' first
      | (with_reducible first | assumption | exact mask_sub hm rfl | apply wr_kept | apply fset_kept)
      | intro _
      | dsimp only
      | split
      | (with_reducible first | apply kept_swpSubmits)
  clear_value s1
  try clear_value addr
  repeat' first
    | (with_reducible first | assumption | exact mask_sub hm rfl | apply wr_kept | apply fset_kept)
    | intro _
    | dsimp only
    | split
    | (with_reducible first | apply kept_swpSubmits)

theorem execSweepSubmit_kept {s t : State} {a1 a2} (e : execSweepSubmit a1 a2 s = .next t) : Kept 0x20000000088 s t := by
  have h := Kept.same 0x20000000088 s
  have hm := Nat.and_self 0x20000000088
  refine next_kept e ?_
  repeat' first
    | (with_reducible first | assumption | exact mask_sub hm rfl | apply reply_kept | apply sweepSubmit_kept)
    | intro _
    | dsimp only

theorem execProgramLoad_kept {s t : State} (e : execProgramLoad s = .next t) : Kept 0x8 s t := by
  have h := Kept.same 0x8 s
  have hm := Nat.and_self 0x8
  refine next_kept e ?_
  repeat' first
    | (with_reducible first | assumption | exact mask_sub hm rfl | apply showLoading_kept)
    | intro _
    | dsimp only
    | split

theorem loadEnd_kept {m : Nat} {og s : State} (h : Kept m og s) (hm : 0x20000000008 &&& m = 0x20000000008) : Kept m og (loadEnd s) := by
  unfold loadEnd
  repeat' first
    | (with_reducible first | assumption | exact mask_sub hm rfl | apply showQueued_kept | apply showLoading_kept)
    | intro _
    | dsimp only
    | (with_reducible first | apply kept_swpSubmits)

theorem loadRefuse_kept {m : Nat} {og s : State} (h : Kept m og s) (hm : 0x8000002000d7e30e8 &&& m = 0x8000002000d7e30e8) : ∀ a2 a3, Kept m og (loadRefuse s a2 a3) := by
  intro a2 a3
  unfold loadRefuse
  extract_lets +onlyGivenNames s1
  have k_s1 : Kept m og s1 := by
    dsimp only [s1]
    repeat' first
      | (with_reducible first | assumption | exact mask_sub hm rfl | apply count_kept | apply fput_kept | apply fset_kept | apply loadEnd_kept | apply fifoPush_kept)
      | intro _
      | dsimp only
      | dsimp only [id]
  clear_value s1
  repeat' first
    | (with_reducible first | assumption | exact mask_sub hm rfl | apply count_kept | apply fput_kept | apply fset_kept | apply loadEnd_kept | apply fifoPush_kept)
    | intro _
    | dsimp only
    | dsimp only [id]

theorem encodeProgram_kept {m : Nat} {og s : State} (h : Kept m og s) (hm : 0x800000000057e30e8 &&& m = 0x800000000057e30e8) : ∀ a2, Kept m og (encodeProgram s a2).1 := by
  intro a2
  unfold encodeProgram
  repeat' first
    | (with_reducible first | assumption | exact mask_sub hm rfl | apply encodeSpan_kept | refine encodeSpan_keq (by assumption) ?_ ?_ | apply encodeTile_kept | refine encodeTile_keq (by assumption) ?_ ?_)
    | intro _
    | dsimp only
    | (with_reducible first | apply foldl_kept | apply foldlFst_kept | apply getD_kept)
    | split
    | dsimp only [id]

theorem encodeProgram_keq {m : Nat} {og s t : State} {r} {a2} (e : encodeProgram s a2 = (t, r)) (h : Kept m og s) (hm : 0x800000000057e30e8 &&& m = 0x800000000057e30e8) : Kept m og t := by
  have k := encodeProgram_kept h hm a2
  rw [e] at k
  exact k

theorem loadAccept_kept {m : Nat} {og s : State} (h : Kept m og s) (hm : 0x8000046000d7e30e8 &&& m = 0x8000046000d7e30e8) : ∀ a2 a3 a4, Kept m og (loadAccept s a2 a3 a4) := by
  intro a2 a3 a4
  unfold loadAccept
  repeat' first
    | (with_reducible first | assumption | exact mask_sub hm rfl | apply encodeProgram_kept | refine encodeProgram_keq (by assumption) ?_ ?_ | apply loadRefuse_kept | apply loadEnd_kept | apply fclr_kept)
    | intro _
    | dsimp only
    | split
    | dsimp only [id]
    | (with_reducible first | apply kept_swpQueue_swpCtr)

theorem programLoadDone_kept {m : Nat} {og s : State} (h : Kept m og s) (hm : 0x8000046000d7e30e8 &&& m = 0x8000046000d7e30e8) : ∀ a2, Kept m og (programLoadDone s a2) := by
  intro a2
  unfold programLoadDone
  repeat' first
    | (with_reducible first | assumption | exact mask_sub hm rfl | apply memRead_kept | refine memRead_keq (by assumption) ?_ ?_ | apply loadRefuse_kept | apply loadAccept_kept | apply countIf_kept)
    | intro _
    | dsimp only
    | (with_reducible first | apply getD_kept)
    | split
    | dsimp only [id]

theorem execProgramLoadDone_kept {s t : State} {a1} (e : execProgramLoadDone a1 s = .next t) : Kept 0x8000046000d7e30e8 s t := by
  have h := Kept.same 0x8000046000d7e30e8 s
  have hm := Nat.and_self 0x8000046000d7e30e8
  refine next_kept e ?_
  repeat' first
    | (with_reducible first | assumption | exact mask_sub hm rfl | apply programLoadDone_kept)
    | intro _
    | dsimp only
    | split

end Machine
end Sys2Proof
end

