-- ==== Sys2Proof/Laws/KeptCalibration.lean ====
section
/-! SUPPORT. What the operations of Machine/Calibration.lean keep (Laws/Keeps.lean). -/

namespace Sys2Proof
namespace Machine

theorem modCal_kept {m : Nat} {og s : State} (h : Kept m og s) (hm : 0x100000000000000 &&& m = 0x100000000000000) : ∀ a2, Kept m og (modCal s a2) := by
  intro a2
  unfold modCal
  repeat' first
    | (with_reducible first | assumption | exact mask_sub hm rfl)
    | intro _
    | dsimp only
    | (with_reducible first | apply kept_cal)

theorem slotPut_kept {m : Nat} {og s : State} (h : Kept m og s) (hm : 0x100000000000008 &&& m = 0x100000000000008) : ∀ a2 a3, Kept m og (slotPut s a2 a3) := by
  intro a2 a3
  unfold slotPut
  extract_lets +onlyGivenNames s1
  have k_s1 : Kept m og s1 := by
    dsimp only [s1]
    repeat' first
      | (with_reducible first | assumption | exact mask_sub hm rfl | apply wr_kept | apply modCal_kept)
      | intro _
      | dsimp only
  clear_value s1
  repeat' first
    | (with_reducible first | assumption | exact mask_sub hm rfl | apply wr_kept | apply modCal_kept)
    | intro _
    | dsimp only

theorem calPend_kept {m : Nat} {og s : State} (h : Kept m og s) (hm : 0x8 &&& m = 0x8) : ∀ a2 a3, Kept m og (calPend s a2 a3) := by
  intro a2 a3
  unfold calPend
  repeat' first
    | (with_reducible first | assumption | exact mask_sub hm rfl | apply fputAt_kept)
    | intro _
    | dsimp only

theorem calPendAll_kept {m : Nat} {og s : State} (h : Kept m og s) (hm : 0x8 &&& m = 0x8) : ∀ a2, Kept m og (calPendAll s a2) := by
  intro a2
  unfold calPendAll
  repeat' first
    | (with_reducible first | assumption | exact mask_sub hm rfl | apply forEach_kept | apply calPend_kept)
    | intro _
    | dsimp only

theorem calUnpend_kept {m : Nat} {og s : State} (h : Kept m og s) (hm : 0x8 &&& m = 0x8) : ∀ a2 a3, Kept m og (calUnpend s a2 a3) := by
  intro a2 a3
  unfold calUnpend
  extract_lets +onlyGivenNames s1
  have k_s1 : Kept m og s1 := by
    dsimp only [s1]
    repeat' first
      | (with_reducible first | assumption | exact mask_sub hm rfl | apply fputAt_kept)
      | intro _
      | dsimp only
  clear_value s1
  repeat' first
    | (with_reducible first | assumption | exact mask_sub hm rfl | apply fputAt_kept)
    | intro _
    | dsimp only

theorem calTrigger_kept {m : Nat} {og s : State} (h : Kept m og s) (hm : 0x8 &&& m = 0x8) : ∀ a2 a3, Kept m og (calTrigger s a2 a3) := by
  intro a2 a3
  unfold calTrigger
  extract_lets +onlyGivenNames thr
  try clear_value thr
  repeat' first
    | (with_reducible first | assumption | exact mask_sub hm rfl | apply calPendAll_kept)
    | intro _
    | dsimp only
    | split

theorem execCalTempTrigger_kept {s t : State} {a1 a2} (e : execCalTempTrigger a1 a2 s = .next t) : Kept 0x8 s t := by
  have h := Kept.same 0x8 s
  have hm := Nat.and_self 0x8
  refine next_kept e ?_
  repeat' first
    | (with_reducible first | assumption | exact mask_sub hm rfl | apply calTrigger_kept)
    | intro _
    | dsimp only
    | split

theorem execCalRequest_kept {s t : State} {a1 a2} (e : execCalRequest a1 a2 s = .next t) : Kept 0x88 s t := by
  have h := Kept.same 0x88 s
  have hm := Nat.and_self 0x88
  refine next_kept e ?_
  repeat' first
    | (with_reducible first | assumption | exact mask_sub hm rfl | apply reply_kept | apply calPendAll_kept)
    | intro _
    | dsimp only

theorem calCoefs_kept {m : Nat} {og s : State} (h : Kept m og s) (hm : 0x800200000057e30e8 &&& m = 0x800200000057e30e8) : ∀ a2 a3, Kept m og (calCoefs s a2 a3) := by
  intro a2 a3
  unfold calCoefs
  repeat' first
    | (with_reducible first | assumption | exact mask_sub hm rfl | apply modSe_kept | apply coefsHeld_kept)
    | intro _
    | dsimp only
    | split

theorem putKxt_kept {m : Nat} {og s : State} (h : Kept m og s) (hm : 0x10000008 &&& m = 0x10000008) : ∀ a2 a3, Kept m og (putKxt s a2 a3) := by
  intro a2 a3
  unfold putKxt
  extract_lets +onlyGivenNames f
  try clear_value f
  repeat' first
    | (with_reducible first | assumption | exact mask_sub hm rfl | apply fput_kept | apply pendShow_kept | apply modCh_kept)
    | intro _
    | dsimp only
    | (with_reducible first | apply getD_kept)
    | split

theorem putTableAt_kept {m : Nat} {og : State} (a : Nat) (w40 w41 : Word) (r : State × Option (List Byte × Bool))
    (h : Kept m og r.1) (hm : 0x800000000057e30e8 &&& m = 0x800000000057e30e8) : Kept m og (putTableAt a w40 w41 r) := by
  obtain ⟨s, o⟩ := r
  cases o with
  | none => exact h
  | some q =>
    obtain ⟨bs, bad⟩ := q
    cases bad with
    | true => exact h
    | false => exact memWriteD_kept h (mask_sub hm rfl) _ _ _

theorem putTable_kept {m : Nat} {og s : State} (h : Kept m og s) (hm : 0x800000000057e30e8 &&& m = 0x800000000057e30e8) (n layer area : Nat) (w40 w41 : Word) :
    Kept m og (putTable s n layer area w40 w41) :=
  putTableAt_kept _ _ _ _ (memRead_kept h (mask_sub hm rfl) _ _ _) (mask_sub hm rfl)

theorem applyOpc_kept {m : Nat} {og s : State} (h : Kept m og s) (hm : 0x800000000057f30e8 &&& m = 0x800000000057f30e8) : ∀ a2 a3, Kept m og (applyOpc s a2 a3) := by
  intro a2 a3
  unfold applyOpc
  repeat' first
    | (with_reducible first | assumption | exact mask_sub hm rfl | apply forEach_kept | apply putTable_kept)
    | intro _
    | dsimp only
    | split
    | (with_reducible first | apply kept_freeCtr)

theorem applyRecord_kept {m : Nat} {og s : State} (h : Kept m og s) (hm : 0x801200000157f30e8 &&& m = 0x801200000157f30e8) : ∀ a2 a3 a4 a5 a6, Kept m og (applyRecord s a2 a3 a4 a5 a6) := by
  intro a2 a3 a4 a5 a6
  unfold applyRecord
  extract_lets +onlyGivenNames k
  try clear_value k
  repeat' first
    | (with_reducible first | assumption | exact mask_sub hm rfl | apply modCal_kept | apply calCoefs_kept | apply putKxt_kept | apply fput_kept)
    | intro _
    | dsimp only
    | split
    | (with_reducible first | apply kept_freeCtr)

theorem calNone_kept {m : Nat} {og s : State} (h : Kept m og s) (hm : 0x8 &&& m = 0x8) : ∀ a2 a3, Kept m og (calNone s a2 a3) := by
  intro a2 a3
  unfold calNone
  repeat' first
    | (with_reducible first | assumption | exact mask_sub hm rfl | apply calPend_kept | apply fset_kept)
    | intro _
    | dsimp only

theorem applyClassed_kept {m : Nat} {og s : State} (h : Kept m og s) (hm : 0x801200000157f30e8 &&& m = 0x801200000157f30e8) : ∀ a2 a3 a4 a5 a6, Kept m og (applyClassed s a2 a3 a4 a5 a6) := by
  intro a2 a3 a4 a5 a6
  unfold applyClassed
  repeat' first
    | (with_reducible first | assumption | exact mask_sub hm rfl | apply calNone_kept | apply applyRecord_kept | apply calPend_kept | apply fset_kept | apply count_kept)
    | intro _
    | dsimp only
    | split

theorem applySingle_kept {m : Nat} {og s : State} (h : Kept m og s) (hm : 0x801200000157f30e8 &&& m = 0x801200000157f30e8) : ∀ a2 a3 a4 a5 a6, Kept m og (applySingle s a2 a3 a4 a5 a6) := by
  intro a2 a3 a4 a5 a6
  unfold applySingle
  repeat' first
    | (with_reducible first | assumption | exact mask_sub hm rfl | apply calNone_kept | apply applyRecord_kept)
    | intro _
    | dsimp only
    | split

theorem applyHead_kept {m : Nat} {og s : State} (h : Kept m og s) (hm : 0x801200000157f30e8 &&& m = 0x801200000157f30e8) : ∀ a2 a3, Kept m og (applyHead s a2 a3) := by
  intro a2 a3
  unfold applyHead
  extract_lets +onlyGivenNames s1 s2
  have k_s1 : Kept m og s1 := by
    dsimp only [s1]
    repeat' first
      | (with_reducible first | assumption | exact mask_sub hm rfl | apply applyClassed_kept | apply applySingle_kept | apply forEach_kept | apply applyOpc_kept | apply calNone_kept)
      | intro _
      | dsimp only
      | (with_reducible first | apply getD_kept)
      | split
  clear_value s1
  have k_s2 : Kept m og s2 := by
    dsimp only [s2]
    repeat' first
      | (with_reducible first | assumption | exact mask_sub hm rfl | apply applyClassed_kept | apply applySingle_kept | apply forEach_kept | apply applyOpc_kept | apply calNone_kept)
      | intro _
      | dsimp only
      | (with_reducible first | apply getD_kept)
      | split
  clear_value s2
  repeat' first
    | (with_reducible first | assumption | exact mask_sub hm rfl | apply applyClassed_kept | apply applySingle_kept | apply forEach_kept | apply applyOpc_kept | apply calNone_kept)
    | intro _
    | dsimp only
    | (with_reducible first | apply getD_kept)
    | split

theorem applyBlock_kept {m : Nat} {og s : State} (h : Kept m og s) (hm : 0x8 &&& m = 0x8) : ∀ a2 a3 f4, (∀ u0, Kept m og u0 → Kept m og (f4 u0)) → Kept m og (applyBlock s a2 a3 f4) := by
  intro a2 a3 f4 hf4
  unfold applyBlock
  repeat' first
    | (with_reducible first | assumption | exact mask_sub hm rfl | apply hf4 | apply fput_kept | apply fclr_kept)
    | intro _
    | dsimp only
    | split

theorem applyCouple_kept {m : Nat} {og s : State} (h : Kept m og s) (hm : 0x801200000157f30e8 &&& m = 0x801200000157f30e8) : Kept m og (applyCouple s) := by
  unfold applyCouple
  repeat' first
    | (with_reducible first | assumption | exact mask_sub hm rfl | apply forEach_kept | apply applySingle_kept)
    | intro _
    | dsimp only
    | split

theorem calStore_kept {m : Nat} {og s : State} (h : Kept m og s) (hm : 0x100000000000000 &&& m = 0x100000000000000) : ∀ a2, Kept m og (calStore s a2) := by
  intro a2
  unfold calStore
  extract_lets +onlyGivenNames nv
  try clear_value nv
  repeat' first
    | (with_reducible first | assumption | exact mask_sub hm rfl | apply modCal_kept)
    | intro _
    | dsimp only
    | (with_reducible first | apply foldl_kept | apply foldlFst_kept | apply getD_kept)
    | split

theorem calBoundary_kept {m : Nat} {og s : State} (h : Kept m og s) (hm : 0x801200000157f30e8 &&& m = 0x801200000157f30e8) : ∀ a2, Kept m og (calBoundary s a2) := by
  intro a2
  unfold calBoundary
  extract_lets +onlyGivenNames s0 uses s1 c s2 s3
  have k_s0 : Kept m og s0 := by
    dsimp only [s0]
    repeat' first
      | (with_reducible first | assumption | exact mask_sub hm rfl | apply forEach_kept | apply calPendAll_kept | apply applyBlock_kept | apply applyHead_kept | apply applyClassed_kept | apply calStore_kept | apply applyCouple_kept)
      | intro _
      | dsimp only
      | (with_reducible first | apply getD_kept)
      | split
  clear_value s0
  try clear_value uses
  have k_s1 : Kept m og s1 := by
    dsimp only [s1]
    repeat' first
      | (with_reducible first | assumption | exact mask_sub hm rfl | apply forEach_kept | apply calPendAll_kept | apply applyBlock_kept | apply applyHead_kept | apply applyClassed_kept | apply calStore_kept | apply applyCouple_kept)
      | intro _
      | dsimp only
      | (with_reducible first | apply getD_kept)
      | split
  clear_value s1
  try clear_value c
  have k_s2 : Kept m og s2 := by
    dsimp only [s2]
    repeat' first
      | (with_reducible first | assumption | exact mask_sub hm rfl | apply forEach_kept | apply calPendAll_kept | apply applyBlock_kept | apply applyHead_kept | apply applyClassed_kept | apply calStore_kept | apply applyCouple_kept)
      | intro _
      | dsimp only
      | (with_reducible first | apply getD_kept)
      | split
  clear_value s2
  have k_s3 : Kept m og s3 := by
    dsimp only [s3]
    repeat' first
      | (with_reducible first | assumption | exact mask_sub hm rfl | apply forEach_kept | apply calPendAll_kept | apply applyBlock_kept | apply applyHead_kept | apply applyClassed_kept | apply calStore_kept | apply applyCouple_kept)
      | intro _
      | dsimp only
      | (with_reducible first | apply getD_kept)
      | split
  clear_value s3
  repeat' first
    | (with_reducible first | assumption | exact mask_sub hm rfl | apply forEach_kept | apply calPendAll_kept | apply applyBlock_kept | apply applyHead_kept | apply applyClassed_kept | apply calStore_kept | apply applyCouple_kept)
    | intro _
    | dsimp only
    | (with_reducible first | apply getD_kept)
    | split

theorem calIdle_kept {m : Nat} {og s : State} (h : Kept m og s) (hm : 0x801200000157f30e8 &&& m = 0x801200000157f30e8) : ∀ a2, Kept m og (calIdle s a2) := by
  intro a2
  unfold calIdle
  extract_lets +onlyGivenNames cls s1
  try clear_value cls
  have k_s1 : Kept m og s1 := by
    dsimp only [s1]
    repeat' first
      | (with_reducible first | assumption | exact mask_sub hm rfl | apply applyBlock_kept | apply applyHead_kept | apply applyCouple_kept | apply applyClassed_kept | apply calStore_kept)
      | intro _
      | dsimp only
      | split
  clear_value s1
  repeat' first
    | (with_reducible first | assumption | exact mask_sub hm rfl | apply applyBlock_kept | apply applyHead_kept | apply applyCouple_kept | apply applyClassed_kept | apply calStore_kept)
    | intro _
    | dsimp only
    | split

theorem execCalIdleApply_kept {s t : State} {a1} (e : execCalIdleApply a1 s = .next t) : Kept 0x801200000157f30e8 s t := by
  have h := Kept.same 0x801200000157f30e8 s
  have hm := Nat.and_self 0x801200000157f30e8
  refine next_kept e ?_
  repeat' first
    | (with_reducible first | assumption | exact mask_sub hm rfl | apply calIdle_kept)
    | intro _
    | dsimp only
    | split

theorem calRef_kept {m : Nat} {og s : State} (h : Kept m og s) (hm : 0x8 &&& m = 0x8) : ∀ a2, Kept m og (calRef s a2) := by
  intro a2
  unfold calRef
  repeat' first
    | (with_reducible first | assumption | exact mask_sub hm rfl | apply fputB_kept | apply fput_kept)
    | intro _
    | dsimp only

theorem execCalAutoRun_kept {s t : State} {a1 a2} (e : execCalAutoRun a1 a2 s = .next t) : Kept 0x100000000000008 s t := by
  have h := Kept.same 0x100000000000008 s
  have hm := Nat.and_self 0x100000000000008
  refine next_kept e ?_
  repeat' first
    | (with_reducible first | assumption | exact mask_sub hm rfl | apply modCal_kept | apply calRef_kept)
    | intro _
    | dsimp only
    | split

theorem calStepDone_kept {m : Nat} {og s : State} (h : Kept m og s) (hm : 0x8000001002d7e30e8 &&& m = 0x8000001002d7e30e8) : ∀ a2 a3, Kept m og (calStepDone s a2 a3) := by
  intro a2 a3
  unfold calStepDone
  repeat' first
    | (with_reducible first | assumption | exact mask_sub hm rfl | apply modHb_kept | apply stepEnd_kept)
    | intro _
    | dsimp only
    | split

theorem calFailed_kept {m : Nat} {og s : State} (h : Kept m og s) (hm : 0x3008 &&& m = 0x3008) : ∀ a2 a3, Kept m og (calFailed s a2 a3) := by
  intro a2 a3
  unfold calFailed
  repeat' first
    | (with_reducible first | assumption | exact mask_sub hm rfl | apply fput_kept | apply count_kept | apply fset_kept)
    | intro _
    | dsimp only

theorem calSucceeded_kept {m : Nat} {og s : State} (h : Kept m og s) (hm : 0x100000000003008 &&& m = 0x100000000003008) : ∀ a2 a3 a4 a5 a6 a7 a8 a9, Kept m og (calSucceeded s a2 a3 a4 a5 a6 a7 a8 a9) := by
  intro a2 a3 a4 a5 a6 a7 a8 a9
  unfold calSucceeded
  extract_lets +onlyGivenNames w0 w1 body s1 s2 s3
  try clear_value w0
  try clear_value w1
  try clear_value body
  have k_s1 : Kept m og s1 := by
    dsimp only [s1]
    repeat' first
      | (with_reducible first | assumption | exact mask_sub hm rfl | apply slotPut_kept | apply calUnpend_kept | apply count_kept | apply fset_kept | apply wr_kept | apply fput_kept | apply putTime_kept)
      | intro _
      | dsimp only
  clear_value s1
  have k_s2 : Kept m og s2 := by
    dsimp only [s2]
    repeat' first
      | (with_reducible first | assumption | exact mask_sub hm rfl | apply slotPut_kept | apply calUnpend_kept | apply count_kept | apply fset_kept | apply wr_kept | apply fput_kept | apply putTime_kept)
      | intro _
      | dsimp only
  clear_value s2
  have k_s3 : Kept m og s3 := by
    dsimp only [s3]
    repeat' first
      | (with_reducible first | assumption | exact mask_sub hm rfl | apply slotPut_kept | apply calUnpend_kept | apply count_kept | apply fset_kept | apply wr_kept | apply fput_kept | apply putTime_kept)
      | intro _
      | dsimp only
  clear_value s3
  repeat' first
    | (with_reducible first | assumption | exact mask_sub hm rfl | apply slotPut_kept | apply calUnpend_kept | apply count_kept | apply fset_kept | apply wr_kept | apply fput_kept | apply putTime_kept)
    | intro _
    | dsimp only

theorem calResult_kept {m : Nat} {og s : State} (h : Kept m og s) (hm : 0x100000000003008 &&& m = 0x100000000003008) : ∀ a2 a3 a4 a5 a6 a7 a8 a9 a10, Kept m og (calResult s a2 a3 a4 a5 a6 a7 a8 a9 a10) := by
  intro a2 a3 a4 a5 a6 a7 a8 a9 a10
  unfold calResult
  extract_lets +onlyGivenNames cause
  try clear_value cause
  repeat' first
    | (with_reducible first | assumption | exact mask_sub hm rfl | apply calSucceeded_kept | apply calFailed_kept)
    | intro _
    | dsimp only
    | split

theorem opcValues_kept {m : Nat} {og s : State} (h : Kept m og s) (hm : 0x10000 &&& m = 0x10000) : ∀ a2 a3 a4, Kept m og (opcValues s a2 a3 a4).1 := by
  intro a2 a3 a4
  unfold opcValues
  extract_lets +onlyGivenNames l w
  try clear_value l
  try clear_value w
  repeat' first
    | (with_reducible first | assumption | exact mask_sub hm rfl | apply tickFree_kept)
    | intro _
    | dsimp only
    | (with_reducible first | apply getD_kept)
    | split

theorem opcValues_keq {m : Nat} {og s t : State} {r} {a2 a3 a4} (e : opcValues s a2 a3 a4 = (t, r)) (h : Kept m og s) (hm : 0x10000 &&& m = 0x10000) : Kept m og t := by
  have k := opcValues_kept h hm a2 a3 a4
  rw [e] at k
  exact k

theorem calHeadDone_kept {m : Nat} {og s : State} (h : Kept m og s) (hm : 0x8010001002d7f30e8 &&& m = 0x8010001002d7f30e8) : ∀ a2 a3 a4 a5 a6 a7 a8, Kept m og (calHeadDone s a2 a3 a4 a5 a6 a7 a8) := by
  intro a2 a3 a4 a5 a6 a7 a8
  unfold calHeadDone
  repeat' first
    | (with_reducible first | assumption | exact mask_sub hm rfl | apply calStepDone_kept | apply calResult_kept | apply opcValues_kept | refine opcValues_keq (by assumption) ?_ ?_)
    | intro _
    | dsimp only
    | split

theorem calCoupleDone_kept {m : Nat} {og s : State} (h : Kept m og s) (hm : 0x8010001002d7e30e8 &&& m = 0x8010001002d7e30e8) : ∀ a2 a3 a4 a5, Kept m og (calCoupleDone s a2 a3 a4 a5) := by
  intro a2 a3 a4 a5
  unfold calCoupleDone
  extract_lets +onlyGivenNames heads steps
  try clear_value heads
  try clear_value steps
  repeat' first
    | (with_reducible first | assumption | exact mask_sub hm rfl | apply forEach_kept | apply calStepDone_kept | apply calResult_kept)
    | intro _
    | dsimp only
    | split

theorem execCalRunDone_kept {s t : State} {a1 a2 a3 a4 a5 a6 a7 a8} (e : execCalRunDone a1 a2 a3 a4 a5 a6 a7 a8 s = .next t) : Kept 0x8010001002d7f30e8 s t := by
  have h := Kept.same 0x8010001002d7f30e8 s
  have hm := Nat.and_self 0x8010001002d7f30e8
  refine next_kept e ?_
  repeat' first
    | (with_reducible first | assumption | exact mask_sub hm rfl | apply calHeadDone_kept | apply calRef_kept | apply calCoupleDone_kept | apply calResult_kept | apply modCal_kept)
    | intro _
    | dsimp only
    | split

theorem calRead_kept {m : Nat} {og s : State} (h : Kept m og s) (hm : 0x8 &&& m = 0x8) : Kept m og (calRead s) := by
  unfold calRead
  extract_lets +onlyGivenNames ws
  try clear_value ws
  repeat' first
    | (with_reducible first | assumption | exact mask_sub hm rfl | apply forEach_kept | apply wr_kept)
    | intro _
    | dsimp only
    | (with_reducible first | apply getD_kept)

theorem execCalRecordRead_kept {s t : State} {a1} (e : execCalRecordRead a1 s = .next t) : Kept 0x88 s t := by
  have h := Kept.same 0x88 s
  have hm := Nat.and_self 0x88
  refine next_kept e ?_
  repeat' first
    | (with_reducible first | assumption | exact mask_sub hm rfl | apply reply_kept | apply calRead_kept)
    | intro _
    | dsimp only

theorem calWrite_kept {m : Nat} {og s : State} (h : Kept m og s) (hm : 0x100000000003008 &&& m = 0x100000000003008) : Kept m og (calWrite s) := by
  unfold calWrite
  extract_lets +onlyGivenNames i ws key
  try clear_value i
  try clear_value ws
  try clear_value key
  repeat' first
    | (with_reducible first | assumption | exact mask_sub hm rfl | apply fset_kept | apply count_kept | apply slotPut_kept)
    | intro _
    | dsimp only
    | (with_reducible first | apply getD_kept)
    | split

theorem execCalRecordWrite_kept {s t : State} {a1} (e : execCalRecordWrite a1 s = .next t) : Kept 0x100000000003088 s t := by
  have h := Kept.same 0x100000000003088 s
  have hm := Nat.and_self 0x100000000003088
  refine next_kept e ?_
  repeat' first
    | (with_reducible first | assumption | exact mask_sub hm rfl | apply reply_kept | apply calWrite_kept)
    | intro _
    | dsimp only

theorem execCalrefCheck_kept {s t : State} {a1} (e : execCalrefCheck a1 s = .next t) : Kept 0x8 s t := by
  have h := Kept.same 0x8 s
  have hm := Nat.and_self 0x8
  refine next_kept e ?_
  repeat' first
    | (with_reducible first | assumption | exact mask_sub hm rfl | apply calRef_kept)
    | intro _
    | dsimp only

end Machine
end Sys2Proof
end

