-- ==== Sys2Proof/Laws/KeptReset.lean ====
section
/-! SUPPORT. What the operations of Machine/Reset.lean keep (Laws/Keeps.lean). -/

namespace Sys2Proof
namespace Machine

theorem reset_xing_st (x : Fin 52) : State.reset.xing[x].st = .withdrawn := by
  unfold State.reset
  simp only [Fin.getElem_fin, Vector.getElem_ofFn, Xing.reset]

theorem reset_core_zero : ∀ p : Fin 4, (State.reset.core[p].x)[0] = 0 := by
  intro p
  unfold State.reset
  simp only [Fin.getElem_fin, Vector.getElem_replicate, Core.reset]

theorem xingPresent_dram (v : Variant) (x : Nat) (h : 38 ≤ x ∧ x < 52) : xingPresent v x = true := by
  unfold xingPresent
  rw [if_neg (by omega), if_neg (by omega), if_neg (by omega), if_neg (by omega), if_neg (by omega)]
  simp only [decide_eq_true_eq]
  omega

theorem resetKeep_kept {m : Nat} {og s : State} (h : Kept m og s) (hm : 0x1fffffffffffffffff &&& m = 0x1fffffffffffffffff) (a b c : Bool) :
    Kept m og (resetKeep s a b c) where
  variant := h.variant
  keyFused := h.keyFused
  pending := h.pending
  mem := by
    intro q
    unfold resetKeep
    dsimp only
    split
    · exact Memory.wf_filter _ (h.mem q)
    · rfl
  flash := h.flash
  zero := fun _ => reset_core_zero
  gone := by
    intro q x hx
    unfold resetKeep
    dsimp only
    split
    · have ne : ∀ k : Nat, 38 ≤ k → k < 52 → k ≠ x.val := by
        intro k h1 h2 e
        rw [← e, xingPresent_dram _ _ ⟨h1, h2⟩] at hx
        cases hx
      simp only [Fin.getElem_fin, Vector.getElem_set_ne _ _ (ne 38 (by omega) (by omega)),
        Vector.getElem_set_ne _ _ (ne 39 (by omega) (by omega)), Vector.getElem_set_ne _ _ (ne 40 (by omega) (by omega)),
        Vector.getElem_set_ne _ _ (ne 41 (by omega) (by omega))]
      exact reset_xing_st x
    · exact reset_xing_st x
  only := by
    intro p hp
    cases p
    all_goals exact absurd hp (mask_on hm rfl)

theorem keyShow_kept {m : Nat} {og s : State} (h : Kept m og s) (hm : 0x8 &&& m = 0x8) : ∀ t2 a3, Kept m og t2 → Kept m og (keyShow s t2 a3) := by
  intro t2 a3 k_t2
  unfold keyShow
  extract_lets +onlyGivenNames t1
  have k_t1 : Kept m og t1 := by
    dsimp only [t1]
    repeat' first
      | (with_reducible first | assumption | exact mask_sub hm rfl | apply fputB_kept | apply fput_kept)
      | intro _
      | dsimp only
      | split
  clear_value t1
  repeat' first
    | (with_reducible first | assumption | exact mask_sub hm rfl | apply fputB_kept | apply fput_kept)
    | intro _
    | dsimp only
    | split

theorem safeKeep_kept {m : Nat} {og s : State} (h : Kept m og s) (hm : 0xd0000020000008 &&& m = 0xd0000020000008) : ∀ t2 a3, Kept m og t2 → Kept m og (safeKeep s t2 a3) := by
  intro t2 a3 k_t2
  unfold safeKeep
  extract_lets +onlyGivenNames t1 t2 hold cause
  have k_t1 : Kept m og t1 := by
    dsimp only [t1]
    repeat' first
      | (with_reducible first | assumption | exact mask_sub hm rfl | apply fputAt_kept | apply fclr_kept | apply fput_kept | apply fset_kept | apply parkAll_kept | apply spnSafeN_kept | apply inhibitShow_kept)
      | intro _
      | dsimp only
      | split
  clear_value t1
  have k_t2 : Kept m og t2 := by
    dsimp only [t2]
    repeat' first
      | (with_reducible first | assumption | exact mask_sub hm rfl | apply fputAt_kept | apply fclr_kept | apply fput_kept | apply fset_kept | apply parkAll_kept | apply spnSafeN_kept | apply inhibitShow_kept)
      | intro _
      | dsimp only
      | split
  clear_value t2
  try clear_value hold
  try clear_value cause
  repeat' first
    | (with_reducible first | assumption | exact mask_sub hm rfl | apply fputAt_kept | apply fclr_kept | apply fput_kept | apply fset_kept | apply parkAll_kept | apply spnSafeN_kept | apply inhibitShow_kept)
    | intro _
    | dsimp only
    | split

theorem dramArmedKeep_kept {m : Nat} {og s : State} (h : Kept m og s) (hm : 0x8 &&& m = 0x8) : ∀ t2, Kept m og t2 → Kept m og (dramArmedKeep s t2) := by
  intro t2 k_t2
  unfold dramArmedKeep
  repeat' first
    | (with_reducible first | assumption | exact mask_sub hm rfl | apply forEach_kept | apply xingShow_kept)
    | intro _
    | dsimp only

theorem calReload_kept {m : Nat} {og s : State} (h : Kept m og s) (hm : 0x100000000000008 &&& m = 0x100000000000008) : Kept m og (calReload s) := by
  unfold calReload
  repeat' first
    | (with_reducible first | assumption | exact mask_sub hm rfl | apply sif_kept | apply fset_kept)
    | intro _
    | dsimp only
    | (with_reducible first | apply kept_cal)

theorem chipReset_kept {m : Nat} {og s : State} (h : Kept m og s) (hm : 0x1fffffffffffffffff &&& m = 0x1fffffffffffffffff) : ∀ a2 a3 a4, Kept m og (chipReset s a2 a3 a4) := by
  intro a2 a3 a4
  unfold chipReset
  extract_lets +onlyGivenNames t t1
  have k_t : Kept m og t := by
    dsimp only [t]
    repeat' first
      | (with_reducible first | assumption | exact mask_sub hm rfl | apply calReload_kept | apply resetKeep_kept | apply dramArmedKeep_kept | apply safeKeep_kept | apply keyShow_kept)
      | intro _
      | dsimp only
      | split
  clear_value t
  have k_t1 : Kept m og t1 := by
    dsimp only [t1]
    repeat' first
      | (with_reducible first | assumption | exact mask_sub hm rfl | apply calReload_kept | apply resetKeep_kept | apply dramArmedKeep_kept | apply safeKeep_kept | apply keyShow_kept)
      | intro _
      | dsimp only
      | split
  clear_value t1
  repeat' first
    | (with_reducible first | assumption | exact mask_sub hm rfl | apply calReload_kept | apply resetKeep_kept | apply dramArmedKeep_kept | apply safeKeep_kept | apply keyShow_kept)
    | intro _
    | dsimp only
    | split

theorem coreHold_kept {m : Nat} {og s : State} (h : Kept m og s) (hm : 0x8 &&& m = 0x8) : Kept m og (coreHold s) := by
  unfold coreHold
  repeat' first
    | (with_reducible first | assumption | exact mask_sub hm rfl | apply fput_kept)
    | intro _
    | dsimp only

theorem coreRelease_kept {m : Nat} {og s : State} (h : Kept m og s) (hm : 0x8 &&& m = 0x8) : Kept m og (coreRelease s) := by
  unfold coreRelease
  repeat' first
    | (with_reducible first | assumption | exact mask_sub hm rfl | apply coreHold_kept | apply fput_kept)
    | intro _
    | dsimp only
    | split

theorem driversOff_kept {m : Nat} {og s : State} (h : Kept m og s) (hm : 0xd0000020000008 &&& m = 0xd0000020000008) : Kept m og (driversOff s) := by
  unfold driversOff
  extract_lets +onlyGivenNames s2
  have k_s2 : Kept m og s2 := by
    dsimp only [s2]
    repeat' first
      | (with_reducible first | assumption | exact mask_sub hm rfl | apply forEach_kept | apply inhibitShow_kept | apply sledOff_kept | apply spnEnter_kept)
      | intro _
      | dsimp only
      | split
  clear_value s2
  repeat' first
    | (with_reducible first | assumption | exact mask_sub hm rfl | apply forEach_kept | apply inhibitShow_kept | apply sledOff_kept | apply spnEnter_kept)
    | intro _
    | dsimp only
    | split

theorem quiesce_kept {m : Nat} {og s : State} (h : Kept m og s) (hm : 0xd0000020000008 &&& m = 0xd0000020000008) : Kept m og (quiesce s) := by
  unfold quiesce
  repeat' first
    | (with_reducible first | assumption | exact mask_sub hm rfl | apply driversOff_kept | apply fput_kept | apply fclr_kept)
    | intro _
    | dsimp only

theorem resetCause_kept {m : Nat} {og s : State} (h : Kept m og s) (hm : 0x8 &&& m = 0x8) : ∀ a2, Kept m og (resetCause s a2) := by
  intro a2
  unfold resetCause
  repeat' first
    | (with_reducible first | assumption | exact mask_sub hm rfl | apply fput_kept)
    | intro _
    | dsimp only

theorem coreReset_kept {m : Nat} {og s : State} (h : Kept m og s) (hm : 0x1fffffffffffffffff &&& m = 0x1fffffffffffffffff) : ∀ a2, Kept m og (coreReset s a2) := by
  intro a2
  unfold coreReset
  repeat' first
    | (with_reducible first | assumption | exact mask_sub hm rfl | apply coreRelease_kept | apply resetCause_kept | apply chipReset_kept | apply quiesce_kept)
    | intro _
    | dsimp only

theorem warmReset_kept {m : Nat} {og s : State} (h : Kept m og s) (hm : 0x1fffffffffffffffff &&& m = 0x1fffffffffffffffff) : ∀ a2, Kept m og (warmReset s a2) := by
  intro a2
  unfold warmReset
  extract_lets +onlyGivenNames t
  have k_t : Kept m og t := by
    dsimp only [t]
    repeat' first
      | (with_reducible first | assumption | exact mask_sub hm rfl | apply coreRelease_kept | apply resetCause_kept | apply chipReset_kept | apply quiesce_kept)
      | intro _
      | dsimp only
      | (with_reducible first | apply kept_boot)
  clear_value t
  repeat' first
    | (with_reducible first | assumption | exact mask_sub hm rfl | apply coreRelease_kept | apply resetCause_kept | apply chipReset_kept | apply quiesce_kept)
    | intro _
    | dsimp only
    | (with_reducible first | apply kept_boot)

end Machine
end Sys2Proof
end

