-- ==== Sys2Proof/Laws/KeptPower.lean ====
section
/-! SUPPORT. What the operations of Machine/Power.lean keep (Laws/Keeps.lean). -/

namespace Sys2Proof
namespace Machine

theorem modSup_kept {m : Nat} {og s : State} (h : Kept m og s) (hm : 0x8000000000000000 &&& m = 0x8000000000000000) : ∀ a2, Kept m og (modSup s a2) := by
  intro a2
  unfold modSup
  repeat' first
    | (with_reducible first | assumption | exact mask_sub hm rfl)
    | intro _
    | dsimp only
    | (with_reducible first | apply kept_sup)

theorem supplyShow_kept {m : Nat} {og s : State} (h : Kept m og s) (hm : 0x50000020000008 &&& m = 0x50000020000008) : Kept m og (supplyShow s) := by
  unfold supplyShow
  extract_lets +onlyGivenNames was on s1
  try clear_value was
  try clear_value on
  have k_s1 : Kept m og s1 := by
    dsimp only [s1]
    repeat' first
      | (with_reducible first | assumption | exact mask_sub hm rfl | apply inhibitShow_kept | apply fputB_kept | apply parkAll_kept)
      | intro _
      | dsimp only
      | split
  clear_value s1
  repeat' first
    | (with_reducible first | assumption | exact mask_sub hm rfl | apply inhibitShow_kept | apply fputB_kept | apply parkAll_kept)
    | intro _
    | dsimp only
    | split

theorem supplyFault_kept {m : Nat} {og s : State} (h : Kept m og s) (hm : 0x50000024003008 &&& m = 0x50000024003008) : ∀ a2, Kept m og (supplyFault s a2) := by
  intro a2
  unfold supplyFault
  extract_lets +onlyGivenNames s1 s2 s3
  have k_s1 : Kept m og s1 := by
    dsimp only [s1]
    repeat' first
      | (with_reducible first | assumption | exact mask_sub hm rfl | apply fset_kept | apply supplyShow_kept | apply count_kept | apply parkAll_kept | apply raiseReport_kept)
      | intro _
      | dsimp only
      | split
  clear_value s1
  have k_s2 : Kept m og s2 := by
    dsimp only [s2]
    repeat' first
      | (with_reducible first | assumption | exact mask_sub hm rfl | apply fset_kept | apply supplyShow_kept | apply count_kept | apply parkAll_kept | apply raiseReport_kept)
      | intro _
      | dsimp only
      | split
  clear_value s2
  have k_s3 : Kept m og s3 := by
    dsimp only [s3]
    repeat' first
      | (with_reducible first | assumption | exact mask_sub hm rfl | apply fset_kept | apply supplyShow_kept | apply count_kept | apply parkAll_kept | apply raiseReport_kept)
      | intro _
      | dsimp only
      | split
  clear_value s3
  repeat' first
    | (with_reducible first | assumption | exact mask_sub hm rfl | apply fset_kept | apply supplyShow_kept | apply count_kept | apply parkAll_kept | apply raiseReport_kept)
    | intro _
    | dsimp only
    | split

theorem causeOn_kept {m : Nat} {og s : State} (h : Kept m og s) (hm : 0x8000000000000000 &&& m = 0x8000000000000000) : ∀ a2, Kept m og (causeOn s a2) := by
  intro a2
  unfold causeOn
  repeat' first
    | (with_reducible first | assumption | exact mask_sub hm rfl | apply modSup_kept)
    | intro _
    | dsimp only

theorem causeOff_kept {m : Nat} {og s : State} (h : Kept m og s) (hm : 0x8050000020000008 &&& m = 0x8050000020000008) : ∀ a2, Kept m og (causeOff s a2) := by
  intro a2
  unfold causeOff
  repeat' first
    | (with_reducible first | assumption | exact mask_sub hm rfl | apply supplyShow_kept | apply modSup_kept)
    | intro _
    | dsimp only

theorem railShow_kept {m : Nat} {og s : State} (h : Kept m og s) (hm : 0x8 &&& m = 0x8) : ∀ a2 a3, Kept m og (railShow s a2 a3) := by
  intro a2 a3
  unfold railShow
  repeat' first
    | (with_reducible first | assumption | exact mask_sub hm rfl | apply fputAt_kept)
    | intro _
    | dsimp only

theorem execRailWindowExit_kept {s t : State} {a1} (e : execRailWindowExit a1 s = .next t) : Kept 0x8050000024003008 s t := by
  have h := Kept.same 0x8050000024003008 s
  have hm := Nat.and_self 0x8050000024003008
  refine next_kept e ?_
  repeat' first
    | (with_reducible first | assumption | exact mask_sub hm rfl | apply supplyFault_kept | apply causeOn_kept | apply railShow_kept)
    | intro _
    | dsimp only
    | split

theorem execRailWindowReturn_kept {s t : State} {a1} (e : execRailWindowReturn a1 s = .next t) : Kept 0x8050000020000008 s t := by
  have h := Kept.same 0x8050000020000008 s
  have hm := Nat.and_self 0x8050000020000008
  refine next_kept e ?_
  repeat' first
    | (with_reducible first | assumption | exact mask_sub hm rfl | apply causeOff_kept | apply railShow_kept)
    | intro _
    | dsimp only
    | split

theorem execBusUndervoltage_kept {s t : State} (e : execBusUndervoltage s = .next t) : Kept 0x8050000024003008 s t := by
  have h := Kept.same 0x8050000024003008 s
  have hm := Nat.and_self 0x8050000024003008
  refine next_kept e ?_
  repeat' first
    | (with_reducible first | assumption | exact mask_sub hm rfl | apply supplyFault_kept | apply causeOn_kept | apply railShow_kept)
    | intro _
    | dsimp only
    | split

theorem execSupplyGraceExpire_kept {s t : State} (e : execSupplyGraceExpire s = .next t) : Kept 0xd0000020003008 s t := by
  have h := Kept.same 0xd0000020003008 s
  have hm := Nat.and_self 0xd0000020003008
  refine next_kept e ?_
  repeat' first
    | (with_reducible first | assumption | exact mask_sub hm rfl | apply safeEnter_kept)
    | intro _
    | dsimp only
    | split

theorem seqStart_kept {m : Nat} {og s : State} (h : Kept m og s) (hm : 0x8000000000000000 &&& m = 0x8000000000000000) : Kept m og (seqStart s) := by
  unfold seqStart
  repeat' first
    | (with_reducible first | assumption | exact mask_sub hm rfl | apply modSup_kept)
    | intro _
    | dsimp only
    | split

theorem execVaonRise_kept {s t : State} (e : execVaonRise s = .next t) : Kept 0x1fffffffffffffffff s t := by
  have h := Kept.same 0x1fffffffffffffffff s
  have hm := Nat.and_self 0x1fffffffffffffffff
  refine next_kept e ?_
  repeat' first
    | (with_reducible first | assumption | exact mask_sub hm rfl | apply chipReset_kept | apply coreHold_kept | apply fput_kept | apply seqStart_kept | apply modSup_kept)
    | intro _
    | dsimp only
    | (with_reducible first | apply kept_chipTime)

theorem execRailGood_kept {s t : State} (e : execRailGood s = .next t) : Kept 0x8000000000000008 s t := by
  have h := Kept.same 0x8000000000000008 s
  have hm := Nat.and_self 0x8000000000000008
  refine next_kept e ?_
  repeat' first
    | (with_reducible first | assumption | exact mask_sub hm rfl | apply forEach_kept | apply railShow_kept | apply modSup_kept | apply coreRelease_kept)
    | intro _
    | dsimp only
    | split

theorem execRailEnableTimeout_kept {s t : State} (e : execRailEnableTimeout s = .next t) : Kept 0x8000000000000008 s t := by
  have h := Kept.same 0x8000000000000008 s
  have hm := Nat.and_self 0x8000000000000008
  refine next_kept e ?_
  repeat' first
    | (with_reducible first | assumption | exact mask_sub hm rfl | apply modSup_kept | apply fput_kept)
    | intro _
    | dsimp only
    | split

theorem execSequencerRetry_kept {s t : State} (e : execSequencerRetry s = .next t) : Kept 0x8000000000000000 s t := by
  have h := Kept.same 0x8000000000000000 s
  have hm := Nat.and_self 0x8000000000000000
  refine next_kept e ?_
  repeat' first
    | (with_reducible first | assumption | exact mask_sub hm rfl | apply seqStart_kept)
    | intro _
    | dsimp only
    | split

theorem execVin12Good_kept {s t : State} (e : execVin12Good s = .next t) : Kept 0x8000000000000000 s t := by
  have h := Kept.same 0x8000000000000000 s
  have hm := Nat.and_self 0x8000000000000000
  refine next_kept e ?_
  repeat' first
    | (with_reducible first | assumption | exact mask_sub hm rfl | apply modSup_kept | apply seqStart_kept)
    | intro _
    | dsimp only
    | split

theorem railsDown_kept {m : Nat} {og s : State} (h : Kept m og s) (hm : 0x8050000024003008 &&& m = 0x8050000024003008) : ∀ a2, Kept m og (railsDown s a2) := by
  intro a2
  unfold railsDown
  repeat' first
    | (with_reducible first | assumption | exact mask_sub hm rfl | apply modSup_kept | apply supplyFault_kept)
    | intro _
    | dsimp only
    | split

theorem execVin12Loss_kept {s t : State} (e : execVin12Loss s = .next t) : Kept 0x8050000024003008 s t := by
  have h := Kept.same 0x8050000024003008 s
  have hm := Nat.and_self 0x8050000024003008
  refine next_kept e ?_
  repeat' first
    | (with_reducible first | assumption | exact mask_sub hm rfl | apply modSup_kept | apply railsDown_kept | apply causeOn_kept | apply fput_kept)
    | intro _
    | dsimp only
    | split

theorem railFall_kept {m : Nat} {og s : State} (h : Kept m og s) (hm : 0x1fffffffffffffffff &&& m = 0x1fffffffffffffffff) : Kept m og (railFall s) := by
  unfold railFall
  repeat' first
    | (with_reducible first | assumption | exact mask_sub hm rfl | apply modSup_kept | apply coreHold_kept | apply fput_kept | apply chipReset_kept | apply railShow_kept | apply seqStart_kept | apply resetCause_kept)
    | intro _
    | dsimp only
    | split

theorem execRailFall_kept {s t : State} (e : execRailFall s = .next t) : Kept 0x1fffffffffffffffff s t := by
  have h := Kept.same 0x1fffffffffffffffff s
  have hm := Nat.and_self 0x1fffffffffffffffff
  refine next_kept e ?_
  repeat' first
    | (with_reducible first | assumption | exact mask_sub hm rfl | apply railFall_kept)
    | intro _
    | dsimp only

theorem vmanShow_kept {m : Nat} {og s : State} (h : Kept m og s) (hm : 0x8 &&& m = 0x8) : Kept m og (vmanShow s) := by
  unfold vmanShow
  repeat' first
    | (with_reducible first | assumption | exact mask_sub hm rfl | apply putVset_kept)
    | intro _
    | dsimp only
    | split

theorem govEnable_kept {m : Nat} {og s : State} (h : Kept m og s) (hm : 0x8000000000000008 &&& m = 0x8000000000000008) : ∀ a2, Kept m og (govEnable s a2) := by
  intro a2
  unfold govEnable
  repeat' first
    | (with_reducible first | assumption | exact mask_sub hm rfl | apply vmanShow_kept | apply modSup_kept | apply fputB_kept)
    | intro _
    | dsimp only
    | split

theorem execGovEnableWrite_kept {s t : State} {a1 a2} (e : execGovEnableWrite a1 a2 s = .next t) : Kept 0x8000000000000088 s t := by
  have h := Kept.same 0x8000000000000088 s
  have hm := Nat.and_self 0x8000000000000088
  refine next_kept e ?_
  repeat' first
    | (with_reducible first | assumption | exact mask_sub hm rfl | apply reply_kept | apply govEnable_kept)
    | intro _
    | dsimp only

theorem execChopEngage_kept {s t : State} (e : execChopEngage s = .next t) : Kept 0x3008 s t := by
  have h := Kept.same 0x3008 s
  have hm := Nat.and_self 0x3008
  refine next_kept e ?_
  repeat' first
    | (with_reducible first | assumption | exact mask_sub hm rfl | apply count_kept | apply fset_kept)
    | intro _
    | dsimp only
    | split

theorem execChopRelease_kept {s t : State} (e : execChopRelease s = .next t) : Kept 0x8 s t := by
  have h := Kept.same 0x8 s
  have hm := Nat.and_self 0x8
  refine next_kept e ?_
  repeat' first
    | (with_reducible first | assumption | exact mask_sub hm rfl | apply fclr_kept)
    | intro _
    | dsimp only

theorem execChopFault_kept {s t : State} (e : execChopFault s = .next t) : Kept 0xd0000024003008 s t := by
  have h := Kept.same 0xd0000024003008 s
  have hm := Nat.and_self 0xd0000024003008
  refine next_kept e ?_
  repeat' first
    | (with_reducible first | assumption | exact mask_sub hm rfl | apply spnChopFault_kept | apply supplyFault_kept | apply fset_kept)
    | intro _
    | dsimp only
    | split

theorem execBusLatch_kept {s t : State} (e : execBusLatch s = .next t) : Kept 0x800d001dcfd7e30e8 s t := by
  have h := Kept.same 0x800d001dcfd7e30e8 s
  have hm := Nat.and_self 0x800d001dcfd7e30e8
  refine next_kept e ?_
  repeat' first
    | (with_reducible first | assumption | exact mask_sub hm rfl | apply railShow_kept | apply fclr_kept | apply fset_kept | apply spnLatchOff_kept | apply supplyFault_kept | apply forEach_kept | apply sledCut_kept)
    | intro _
    | dsimp only
    | split

theorem chopClr_kept {m : Nat} {og s : State} (h : Kept m og s) (hm : 0xd0000020000008 &&& m = 0xd0000020000008) : ∀ a2, Kept m og (chopClr s a2) := by
  intro a2
  unfold chopClr
  extract_lets +onlyGivenNames s0
  have k_s0 : Kept m og s0 := by
    dsimp only [s0]
    repeat' first
      | (with_reducible first | assumption | exact mask_sub hm rfl | apply fput_kept | apply spnChopFault_kept | apply supplyShow_kept | apply fclr_kept | apply fset_kept)
      | intro _
      | dsimp only
      | split
  clear_value s0
  repeat' first
    | (with_reducible first | assumption | exact mask_sub hm rfl | apply fput_kept | apply spnChopFault_kept | apply supplyShow_kept | apply fclr_kept | apply fset_kept)
    | intro _
    | dsimp only
    | split

theorem execChopClr_kept {s t : State} {a1 a2} (e : execChopClr a1 a2 s = .next t) : Kept 0xd0000020000088 s t := by
  have h := Kept.same 0xd0000020000088 s
  have hm := Nat.and_self 0xd0000020000088
  refine next_kept e ?_
  repeat' first
    | (with_reducible first | assumption | exact mask_sub hm rfl | apply reply_kept | apply chopClr_kept)
    | intro _
    | dsimp only

theorem latchClr_kept {m : Nat} {og s : State} (h : Kept m og s) (hm : 0x50000020000008 &&& m = 0x50000020000008) : ∀ a2, Kept m og (latchClr s a2) := by
  intro a2
  unfold latchClr
  extract_lets +onlyGivenNames s0
  have k_s0 : Kept m og s0 := by
    dsimp only [s0]
    repeat' first
      | (with_reducible first | assumption | exact mask_sub hm rfl | apply fput_kept | apply supplyShow_kept | apply fclr_kept | apply fset_kept)
      | intro _
      | dsimp only
      | split
  clear_value s0
  repeat' first
    | (with_reducible first | assumption | exact mask_sub hm rfl | apply fput_kept | apply supplyShow_kept | apply fclr_kept | apply fset_kept)
    | intro _
    | dsimp only
    | split

theorem execLatchClr_kept {s t : State} {a1 a2} (e : execLatchClr a1 a2 s = .next t) : Kept 0x50000020000088 s t := by
  have h := Kept.same 0x50000020000088 s
  have hm := Nat.and_self 0x50000020000088
  refine next_kept e ?_
  repeat' first
    | (with_reducible first | assumption | exact mask_sub hm rfl | apply reply_kept | apply latchClr_kept)
    | intro _
    | dsimp only

theorem mbusEnable_kept {m : Nat} {og s : State} (h : Kept m og s) (hm : 0x8050000020000008 &&& m = 0x8050000020000008) : ∀ a2, Kept m og (mbusEnable s a2) := by
  intro a2
  unfold mbusEnable
  extract_lets +onlyGivenNames s1
  have k_s1 : Kept m og s1 := by
    dsimp only [s1]
    repeat' first
      | (with_reducible first | assumption | exact mask_sub hm rfl | apply railShow_kept | apply fputB_kept | apply causeOff_kept)
      | intro _
      | dsimp only
      | split
  clear_value s1
  repeat' first
    | (with_reducible first | assumption | exact mask_sub hm rfl | apply railShow_kept | apply fputB_kept | apply causeOff_kept)
    | intro _
    | dsimp only
    | split

theorem execMbusEnableWrite_kept {s t : State} {a1 a2} (e : execMbusEnableWrite a1 a2 s = .next t) : Kept 0x8050000020000088 s t := by
  have h := Kept.same 0x8050000020000088 s
  have hm := Nat.and_self 0x8050000020000088
  refine next_kept e ?_
  repeat' first
    | (with_reducible first | assumption | exact mask_sub hm rfl | apply reply_kept | apply mbusEnable_kept)
    | intro _
    | dsimp only

theorem boostEnable_kept {m : Nat} {og s : State} (h : Kept m og s) (hm : 0x8050000020000008 &&& m = 0x8050000020000008) : ∀ a2, Kept m og (boostEnable s a2) := by
  intro a2
  unfold boostEnable
  extract_lets +onlyGivenNames was s1
  try clear_value was
  have k_s1 : Kept m og s1 := by
    dsimp only [s1]
    repeat' first
      | (with_reducible first | assumption | exact mask_sub hm rfl | apply fputB_kept | apply inhibitShow_kept | apply modSup_kept | apply causeOff_kept | apply railShow_kept)
      | intro _
      | dsimp only
      | split
  clear_value s1
  repeat' first
    | (with_reducible first | assumption | exact mask_sub hm rfl | apply fputB_kept | apply inhibitShow_kept | apply modSup_kept | apply causeOff_kept | apply railShow_kept)
    | intro _
    | dsimp only
    | split

theorem execBoostEnableWrite_kept {s t : State} {a1 a2} (e : execBoostEnableWrite a1 a2 s = .next t) : Kept 0x8050000020000088 s t := by
  have h := Kept.same 0x8050000020000088 s
  have hm := Nat.and_self 0x8050000020000088
  refine next_kept e ?_
  repeat' first
    | (with_reducible first | assumption | exact mask_sub hm rfl | apply reply_kept | apply boostEnable_kept)
    | intro _
    | dsimp only

theorem execBoostSoftStartDone_kept {s t : State} (e : execBoostSoftStartDone s = .next t) : Kept 0x8010000020000008 s t := by
  have h := Kept.same 0x8010000020000008 s
  have hm := Nat.and_self 0x8010000020000008
  refine next_kept e ?_
  repeat' first
    | (with_reducible first | assumption | exact mask_sub hm rfl | apply inhibitShow_kept | apply railShow_kept | apply modSup_kept)
    | intro _
    | dsimp only
    | split

theorem execVlasUndervoltage_kept {s t : State} (e : execVlasUndervoltage s = .next t) : Kept 0x8050000024003008 s t := by
  have h := Kept.same 0x8050000024003008 s
  have hm := Nat.and_self 0x8050000024003008
  refine next_kept e ?_
  repeat' first
    | (with_reducible first | assumption | exact mask_sub hm rfl | apply supplyFault_kept | apply causeOn_kept | apply railShow_kept)
    | intro _
    | dsimp only
    | split

theorem execBoostFault_kept {s t : State} (e : execBoostFault s = .next t) : Kept 0x8050000024003008 s t := by
  have h := Kept.same 0x8050000024003008 s
  have hm := Nat.and_self 0x8050000024003008
  refine next_kept e ?_
  repeat' first
    | (with_reducible first | assumption | exact mask_sub hm rfl | apply supplyFault_kept | apply modSup_kept | apply railShow_kept | apply fset_kept)
    | intro _
    | dsimp only
    | split

theorem boostClr_kept {m : Nat} {og s : State} (h : Kept m og s) (hm : 0x8050000020000008 &&& m = 0x8050000020000008) : Kept m og (boostClr s) := by
  unfold boostClr
  repeat' first
    | (with_reducible first | assumption | exact mask_sub hm rfl | apply supplyShow_kept | apply modSup_kept | apply fclr_kept | apply fset_kept)
    | intro _
    | dsimp only
    | split

theorem execBoostClr_kept {s t : State} {a1} (e : execBoostClr a1 s = .next t) : Kept 0x8050000020000088 s t := by
  have h := Kept.same 0x8050000020000088 s
  have hm := Nat.and_self 0x8050000020000088
  refine next_kept e ?_
  repeat' first
    | (with_reducible first | assumption | exact mask_sub hm rfl | apply reply_kept | apply boostClr_kept)
    | intro _
    | dsimp only

theorem dormPrepare_kept {m : Nat} {og s : State} (h : Kept m og s) (hm : 0x8050000020e00008 &&& m = 0x8050000020e00008) : Kept m og (dormPrepare s) := by
  unfold dormPrepare
  repeat' first
    | (with_reducible first | assumption | exact mask_sub hm rfl | apply modSup_kept | apply selfRefreshRequest_kept | apply mbusEnable_kept | apply boostEnable_kept | apply forEach_kept | apply putLink_kept)
    | intro _
    | dsimp only
    | split

theorem dormCommit_kept {m : Nat} {og s : State} (h : Kept m og s) (hm : 0x1fffffffffffffffff &&& m = 0x1fffffffffffffffff) : Kept m og (dormCommit s) := by
  unfold dormCommit
  repeat' first
    | (with_reducible first | assumption | exact mask_sub hm rfl | apply chipReset_kept | apply modSup_kept | apply fput_kept | apply count_kept | apply coreHold_kept | apply railShow_kept)
    | intro _
    | dsimp only
    | (with_reducible first | apply kept_dram | apply kept_pins)

theorem dormEnter_kept {m : Nat} {og s : State} (h : Kept m og s) (hm : 0x1fffffffffffffffff &&& m = 0x1fffffffffffffffff) : ∀ a2 a3, Kept m og (dormEnter s a2 a3) := by
  intro a2 a3
  unfold dormEnter
  repeat' first
    | (with_reducible first | assumption | exact mask_sub hm rfl | apply fput_kept | apply fset_kept | apply dormPrepare_kept | apply selfRefreshExit_kept | apply dormCommit_kept)
    | intro _
    | dsimp only
    | split

theorem execDormantEnter_kept {s t : State} {a1 a2} (e : execDormantEnter a1 a2 s = .next t) : Kept 0x1fffffffffffffffff s t := by
  have h := Kept.same 0x1fffffffffffffffff s
  have hm := Nat.and_self 0x1fffffffffffffffff
  refine next_kept e ?_
  repeat' first
    | (with_reducible first | assumption | exact mask_sub hm rfl | apply reply_kept | apply dormEnter_kept)
    | intro _
    | dsimp only

theorem wakeUp_kept {m : Nat} {og s : State} (h : Kept m og s) (hm : 0x68400000000403208 &&& m = 0x68400000000403208) : ∀ a2, Kept m og (wakeUp s a2) := by
  intro a2
  unfold wakeUp
  repeat' first
    | (with_reducible first | assumption | exact mask_sub hm rfl | apply modSup_kept | apply fput_kept | apply fset_kept | apply count_kept | apply railShow_kept | apply selfRefreshExit_kept | apply forEach_kept | apply dramXingArm_kept | apply coreRelease_kept | apply resetCause_kept)
    | intro _
    | dsimp only
    | (with_reducible first | apply kept_host_boot_pins)

theorem wakeEvent_kept {m : Nat} {og s : State} (h : Kept m og s) (hm : 0x68400000000403208 &&& m = 0x68400000000403208) : ∀ a2, Kept m og (wakeEvent s a2) := by
  intro a2
  unfold wakeEvent
  extract_lets +onlyGivenNames there on
  try clear_value there
  try clear_value on
  repeat' first
    | (with_reducible first | assumption | exact mask_sub hm rfl | apply wakeUp_kept | apply fput_kept)
    | intro _
    | dsimp only
    | split

theorem execWakeEvent_kept {s t : State} {a1} (e : execWakeEvent a1 s = .next t) : Kept 0x68400000000403208 s t := by
  have h := Kept.same 0x68400000000403208 s
  have hm := Nat.and_self 0x68400000000403208
  refine next_kept e ?_
  repeat' first
    | (with_reducible first | assumption | exact mask_sub hm rfl | apply wakeEvent_kept)
    | intro _
    | dsimp only

theorem execSupAlarmReached_kept {s t : State} (e : execSupAlarmReached s = .next t) : Kept 0x68400000000403208 s t := by
  have h := Kept.same 0x68400000000403208 s
  have hm := Nat.and_self 0x68400000000403208
  refine next_kept e ?_
  repeat' first
    | (with_reducible first | assumption | exact mask_sub hm rfl | apply wakeEvent_kept)
    | intro _
    | dsimp only

theorem execWakeRdyRelease_kept {s t : State} (e : execWakeRdyRelease s = .next t) : Kept 0x8400000000000008 s t := by
  have h := Kept.same 0x8400000000000008 s
  have hm := Nat.and_self 0x8400000000000008
  refine next_kept e ?_
  repeat' first
    | (with_reducible first | assumption | exact mask_sub hm rfl | apply modSup_kept | apply showReady_kept)
    | intro _
    | dsimp only
    | split
    | (with_reducible first | apply kept_host)

theorem porRequest_kept {m : Nat} {og s : State} (h : Kept m og s) (hm : 0x8050000024003008 &&& m = 0x8050000024003008) : Kept m og (porRequest s) := by
  unfold porRequest
  repeat' first
    | (with_reducible first | assumption | exact mask_sub hm rfl | apply railsDown_kept | apply causeOn_kept)
    | intro _
    | dsimp only
    | split

theorem rstWrite_kept {m : Nat} {og s : State} (h : Kept m og s) (hm : 0x1fffffffffffffffff &&& m = 0x1fffffffffffffffff) : ∀ a2 a3, Kept m og (rstWrite s a2 a3) := by
  intro a2 a3
  unfold rstWrite
  repeat' first
    | (with_reducible first | assumption | exact mask_sub hm rfl | apply porRequest_kept | apply coreReset_kept | apply warmReset_kept)
    | intro _
    | dsimp only
    | (with_reducible first | apply getD_kept)
    | split
    | (with_reducible first | apply kept_boot)

theorem rstCtl_kept {m : Nat} {og s : State} (h : Kept m og s) (hm : 0x1fffffffffffffffff &&& m = 0x1fffffffffffffffff) : ∀ a2 a3, Kept m og (rstCtl s a2 a3) := by
  intro a2 a3
  unfold rstCtl
  repeat' first
    | (with_reducible first | assumption | exact mask_sub hm rfl | apply reply_kept | apply rstWrite_kept)
    | intro _
    | dsimp only
    | split

theorem execWarmReset_kept {s t : State} {a1 a2} (e : execWarmReset a1 a2 s = .next t) : Kept 0x1fffffffffffffffff s t := by
  have h := Kept.same 0x1fffffffffffffffff s
  have hm := Nat.and_self 0x1fffffffffffffffff
  refine next_kept e ?_
  repeat' first
    | (with_reducible first | assumption | exact mask_sub hm rfl | apply rstCtl_kept)
    | intro _
    | dsimp only

theorem execCoreReset_kept {s t : State} {a1 a2} (e : execCoreReset a1 a2 s = .next t) : Kept 0x1fffffffffffffffff s t := by
  have h := Kept.same 0x1fffffffffffffffff s
  have hm := Nat.and_self 0x1fffffffffffffffff
  refine next_kept e ?_
  repeat' first
    | (with_reducible first | assumption | exact mask_sub hm rfl | apply rstCtl_kept)
    | intro _
    | dsimp only

theorem execPorRequest_kept {s t : State} {a1 a2} (e : execPorRequest a1 a2 s = .next t) : Kept 0x1fffffffffffffffff s t := by
  have h := Kept.same 0x1fffffffffffffffff s
  have hm := Nat.and_self 0x1fffffffffffffffff
  refine next_kept e ?_
  repeat' first
    | (with_reducible first | assumption | exact mask_sub hm rfl | apply rstCtl_kept)
    | intro _
    | dsimp only

theorem resetPin_kept {m : Nat} {og s : State} (h : Kept m og s) (hm : 0x1fffffffffffffffff &&& m = 0x1fffffffffffffffff) : ∀ a2, Kept m og (resetPin s a2) := by
  intro a2
  unfold resetPin
  repeat' first
    | (with_reducible first | assumption | exact mask_sub hm rfl | apply quiesce_kept | apply coreHold_kept | apply porRequest_kept | apply coreReset_kept)
    | intro _
    | dsimp only
    | split
    | (with_reducible first | apply kept_boot)

theorem execResetPin_kept {s t : State} {a1} (e : execResetPin a1 s = .next t) : Kept 0x1fffffffffffffffff s t := by
  have h := Kept.same 0x1fffffffffffffffff s
  have hm := Nat.and_self 0x1fffffffffffffffff
  refine next_kept e ?_
  repeat' first
    | (with_reducible first | assumption | exact mask_sub hm rfl | apply resetPin_kept)
    | intro _
    | dsimp only

end Machine
end Sys2Proof
end

