-- ==== Sys2Proof/Laws/KeptBoot.lean ====
section
/-! SUPPORT. What the operations of Machine/Boot.lean keep (Laws/Keeps.lean). -/

namespace Sys2Proof
namespace Machine

theorem modBoot_kept {m : Nat} {og s : State} (h : Kept m og s) (hm : 0x20000000000000000 &&& m = 0x20000000000000000) (f : Boot → Boot)
    (hf : ∀ b, (f b).flash = b.flash) : Kept m og (modBoot s f) := by
  unfold modBoot
  refine kept_boot h hm ?_
  rw [hf]
  exact id

theorem flashErase_kept {m : Nat} {og s : State} (h : Kept m og s) (hm : 0x20000000000000000 &&& m = 0x20000000000000000) (a n : Nat) : Kept m og (flashErase s a n) := by
  unfold flashErase
  exact kept_boot h hm (fun k => Memory.wf_filter _ k)

theorem flashProgram_kept {m : Nat} {og s : State} (h : Kept m og s) (hm : 0x20000000000000000 &&& m = 0x20000000000000000) (a : Nat) (bs : List Byte) :
    Kept m og (flashProgram s a bs) := by
  unfold flashProgram
  exact kept_boot h hm (fun k => Memory.wf_writeBytes _ _ k)

theorem bootErr_kept {m : Nat} {og s : State} (h : Kept m og s) (hm : 0x8 &&& m = 0x8) : ∀ a2, Kept m og (bootErr s a2) := by
  intro a2
  unfold bootErr
  repeat' first
    | (with_reducible first | assumption | exact mask_sub hm rfl | apply fput_kept)
    | intro _
    | dsimp only

theorem bootJump_kept {m : Nat} {og s : State} (h : Kept m og s) (hm : 0xa0000000000010000 &&& m = 0xa0000000000010000) (pc : Nat) : Kept m og (bootJump s pc) := by
  unfold bootJump
  extract_lets +onlyGivenNames xs s1
  have k1 : Kept m og s1 := tickFrees_kept h (mask_sub hm rfl) _
  have hx : (xs)[0] = 0 := by
    dsimp only [xs]
    simp
  clear_value s1 xs
  refine kept_core (modBoot_kept k1 (mask_sub hm rfl) (fun b => { b with stage := .firmware, wake := false }) (fun _ => rfl))
    (mask_sub hm rfl) ?_
  intro z p
  have z1 : ∀ p : Fin 4, (s1.core[p].x)[0] = 0 := z
  exact zero_set z1 0 _ hx p

theorem romWork_kept {m : Nat} {og s : State} (h : Kept m og s) (hm : 0x800000000057f30e8 &&& m = 0x800000000057f30e8) : Kept m og (romWork s) := by
  unfold romWork
  repeat' first
    | (with_reducible first | assumption | exact mask_sub hm rfl | apply tickFrees_kept | apply memWriteD_kept)
    | intro _
    | dsimp only

theorem bootImage_kept {m : Nat} {og s : State} (h : Kept m og s) (hm : 0xa00000000057f30e8 &&& m = 0xa00000000057f30e8) : ∀ a2, Kept m og (bootImage s a2) := by
  intro a2
  unfold bootImage
  extract_lets +onlyGivenNames s1
  have k_s1 : Kept m og s1 := by
    dsimp only [s1]
    repeat' first
      | (with_reducible first | assumption | exact mask_sub hm rfl | apply fput_kept | apply memWriteD_kept | apply romWork_kept | apply bootJump_kept)
      | intro _
      | dsimp only
  clear_value s1
  repeat' first
    | (with_reducible first | assumption | exact mask_sub hm rfl | apply fput_kept | apply memWriteD_kept | apply romWork_kept | apply bootJump_kept)
    | intro _
    | dsimp only

theorem attach_kept {m : Nat} {og s : State} (h : Kept m og s) (hm : 0xa145001dcfd7e32e8 &&& m = 0xa145001dcfd7e32e8) : ∀ a2 a3, Kept m og (attach s a2 a3) := by
  intro a2 a3
  unfold attach
  repeat' first
    | (with_reducible first | assumption | exact mask_sub hm rfl | apply modBoot_kept | apply upSettle_kept)
    | exact fun _ => rfl
    | intro _
    | dsimp only
    | split

theorem recoveryEnter_kept {m : Nat} {og s : State} (h : Kept m og s) (hm : 0xa145001dcfd7f32e8 &&& m = 0xa145001dcfd7f32e8) : Kept m og (recoveryEnter s) := by
  unfold recoveryEnter
  extract_lets +onlyGivenNames s1
  have k_s1 : Kept m og s1 := by
    dsimp only [s1]
    repeat' first
      | (with_reducible first | assumption | exact mask_sub hm rfl | apply fput_kept | apply romWork_kept | apply modBoot_kept | apply forEach_kept | apply attach_kept)
      | exact fun _ => rfl
      | intro _
      | dsimp only
  clear_value s1
  repeat' first
    | (with_reducible first | assumption | exact mask_sub hm rfl | apply fput_kept | apply romWork_kept | apply modBoot_kept | apply forEach_kept | apply attach_kept)
    | exact fun _ => rfl
    | intro _
    | dsimp only

theorem bootFlash_kept {m : Nat} {og s : State} (h : Kept m og s) (hm : 0xa145001dcfd7f32e8 &&& m = 0xa145001dcfd7f32e8) : ∀ a2, Kept m og (bootFlash s a2) := by
  intro a2
  unfold bootFlash
  extract_lets +onlyGivenNames dead first
  try clear_value dead
  try clear_value first
  repeat' first
    | (with_reducible first | assumption | exact mask_sub hm rfl | apply bootImage_kept | apply bootErr_kept | apply recoveryEnter_kept)
    | intro _
    | dsimp only
    | split

theorem resumeTake_kept {m : Nat} {og : State} (digest : List Byte) (r : State × Option (List Byte × Bool))
    (h : Kept m og r.1) : Kept m og (resumeTake digest r).1 := by
  obtain ⟨s, o⟩ := r
  cases o with
  | none => exact h
  | some q =>
    obtain ⟨bs, bad⟩ := q
    cases bad <;> exact h

theorem resumeImage_kept {m : Nat} {og s : State} (h : Kept m og s) (hm : 0x800000000047e30e8 &&& m = 0x800000000047e30e8) : Kept m og (resumeImage s).1 :=
  resumeTake_kept _ _ (memRead_kept h (mask_sub hm rfl) _ _ _)

theorem resumeBoot_kept {m : Nat} {og : State} (entry : Nat) (ident : List Byte) (r : State × Option (List Byte))
    (h : Kept m og r.1) (hm : 0xa145001dcfd7f32e8 &&& m = 0xa145001dcfd7f32e8) : Kept m og (resumeBoot entry ident r) := by
  obtain ⟨s, o⟩ := r
  cases o with
  | none => exact bootFlash_kept (fset_kept (bootErr_kept h (mask_sub hm rfl) _) (mask_sub hm rfl) _) (mask_sub hm rfl) _
  | some bs =>
    exact bootJump_kept (fput_kept (memWriteD_kept (romWork_kept (fput_kept h (mask_sub hm rfl) _ _) (mask_sub hm rfl)) (mask_sub hm rfl) _ _ _) (mask_sub hm rfl) _ _) (mask_sub hm rfl) _

theorem boot_kept {m : Nat} {og s : State} (h : Kept m og s) (hm : 0xa145001dcfd7f32e8 &&& m = 0xa145001dcfd7f32e8) (ident : List Byte) : Kept m og (boot s ident) := by
  unfold boot
  split
  · exact h
  · extract_lets +onlyGivenNames s1
    have k : Kept m og s1 := permitClaim_kept h (mask_sub hm rfl) _ _ _
    clear_value s1
    split
    · exact recoveryEnter_kept k (mask_sub hm rfl)
    · split
      · exact resumeBoot_kept _ _ _ (resumeImage_kept k (mask_sub hm rfl)) (mask_sub hm rfl)
      · exact bootFlash_kept k (mask_sub hm rfl) _

theorem execBoot_kept {s t : State} {a1} (e : execBoot a1 s = .next t) : Kept 0xa145001dcfd7f32e8 s t := by
  have h := Kept.same 0xa145001dcfd7f32e8 s
  have hm := Nat.and_self 0xa145001dcfd7f32e8
  refine next_kept e ?_
  repeat' first
    | (with_reducible first | assumption | exact mask_sub hm rfl | apply boot_kept)
    | intro _
    | dsimp only

theorem respond_kept {m : Nat} {og s : State} (h : Kept m og s) (hm : 0x80 &&& m = 0x80) : ∀ a2 a3 a4, Kept m og (respond s a2 a3 a4) := by
  intro a2 a3 a4
  unfold respond
  repeat' first
    | (with_reducible first | assumption | exact mask_sub hm rfl | apply reply_kept)
    | intro _
    | dsimp only

theorem execRecoveryStatus_kept {s t : State} {a1} (e : execRecoveryStatus a1 s = .next t) : Kept 0x80 s t := by
  have h := Kept.same 0x80 s
  have hm := Nat.and_self 0x80
  refine next_kept e ?_
  repeat' first
    | (with_reducible first | assumption | exact mask_sub hm rfl | apply respond_kept)
    | intro _
    | dsimp only
    | split

theorem execRecoveryErase_kept {s t : State} {a1 a2 a3} (e : execRecoveryErase a1 a2 a3 s = .next t) : Kept 0x20000000000000080 s t := by
  have h := Kept.same 0x20000000000000080 s
  have hm := Nat.and_self 0x20000000000000080
  refine next_kept e ?_
  repeat' first
    | (with_reducible first | assumption | exact mask_sub hm rfl | apply respond_kept | apply flashErase_kept)
    | intro _
    | dsimp only
    | split

theorem execRecoveryProgram_kept {s t : State} {a1 a2 a3} (e : execRecoveryProgram a1 a2 a3 s = .next t) : Kept 0x20000000000000080 s t := by
  have h := Kept.same 0x20000000000000080 s
  have hm := Nat.and_self 0x20000000000000080
  refine next_kept e ?_
  repeat' first
    | (with_reducible first | assumption | exact mask_sub hm rfl | apply respond_kept | apply flashProgram_kept)
    | intro _
    | dsimp only
    | split

theorem execRecoveryRead_kept {s t : State} {a1 a2 a3} (e : execRecoveryRead a1 a2 a3 s = .next t) : Kept 0x80 s t := by
  have h := Kept.same 0x80 s
  have hm := Nat.and_self 0x80
  refine next_kept e ?_
  repeat' first
    | (with_reducible first | assumption | exact mask_sub hm rfl | apply respond_kept)
    | intro _
    | dsimp only
    | split

theorem execRecoveryReboot_kept {s t : State} {a1} (e : execRecoveryReboot a1 s = .next t) : Kept 0x1fffffffffffffffff s t := by
  have h := Kept.same 0x1fffffffffffffffff s
  have hm := Nat.and_self 0x1fffffffffffffffff
  refine next_kept e ?_
  repeat' first
    | (with_reducible first | assumption | exact mask_sub hm rfl | apply coreReset_kept)
    | intro _
    | dsimp only
    | split

theorem execMgmtStatus_kept {s t : State} {a1} (e : execMgmtStatus a1 s = .next t) : Kept 0x80 s t := by
  have h := Kept.same 0x80 s
  have hm := Nat.and_self 0x80
  refine next_kept e ?_
  repeat' first
    | (with_reducible first | assumption | exact mask_sub hm rfl | apply respond_kept)
    | intro _
    | dsimp only
    | split

theorem execMgmtUnsupportedRequest_kept {s t : State} {a1} (e : execMgmtUnsupportedRequest a1 s = .next t) : Kept 0x80 s t := by
  have h := Kept.same 0x80 s
  have hm := Nat.and_self 0x80
  refine next_kept e ?_
  repeat' first
    | (with_reducible first | assumption | exact mask_sub hm rfl | apply respond_kept)
    | intro _
    | dsimp only
    | split

theorem flashStart_kept {m : Nat} {og s : State} (h : Kept m og s) (hm : 0x20000000000000008 &&& m = 0x20000000000000008) : ∀ a2, Kept m og (flashStart s a2) := by
  intro a2
  unfold flashStart
  extract_lets +onlyGivenNames c
  try clear_value c
  repeat' first
    | (with_reducible first | assumption | exact mask_sub hm rfl | apply fset_kept | apply modBoot_kept)
    | exact fun _ => rfl
    | intro _
    | dsimp only
    | split

theorem flashRun_kept {m : Nat} {og s : State} (h : Kept m og s) (hm : 0xa00000000057e30e8 &&& m = 0xa00000000057e30e8) : ∀ a2 a3, Kept m og (flashRun s a2 a3) := by
  intro a2 a3
  unfold flashRun
  extract_lets +onlyGivenNames a
  try clear_value a
  repeat' first
    | (with_reducible first | assumption | exact mask_sub hm rfl | apply memRead_kept | refine memRead_keq (by assumption) ?_ ?_ | apply modBoot_kept | apply flashProgram_kept | apply flashErase_kept | apply memWriteD_kept)
    | exact fun _ => rfl
    | intro _
    | dsimp only
    | (with_reducible first | apply getD_kept)
    | split

theorem execSpiTransferDone_kept {s t : State} {a1} (e : execSpiTransferDone a1 s = .next t) : Kept 0xa00000000057e30e8 s t := by
  have h := Kept.same 0xa00000000057e30e8 s
  have hm := Nat.and_self 0xa00000000057e30e8
  refine next_kept e ?_
  repeat' first
    | (with_reducible first | assumption | exact mask_sub hm rfl | apply fset_kept | apply fclr_kept | apply modBoot_kept | apply flashRun_kept)
    | exact fun _ => rfl
    | intro _
    | dsimp only
    | split

theorem execSpiBusyTimeout_kept {s t : State} (e : execSpiBusyTimeout s = .next t) : Kept 0x20000000000000008 s t := by
  have h := Kept.same 0x20000000000000008 s
  have hm := Nat.and_self 0x20000000000000008
  refine next_kept e ?_
  repeat' first
    | (with_reducible first | assumption | exact mask_sub hm rfl | apply fset_kept | apply fclr_kept | apply modBoot_kept)
    | exact fun _ => rfl
    | intro _
    | dsimp only
    | split

end Machine
end Sys2Proof
end

