-- ==== Sys2Proof/Laws/KeptBoundary.lean ====
section
/-! SUPPORT. What the operations of Machine/Boundary.lean keep (Laws/Keeps.lean). -/

namespace Sys2Proof
namespace Machine

theorem swpEnter_kept {m : Nat} {og s : State} (h : Kept m og s) (hm : 0x8 &&& m = 0x8) : ∀ a2, Kept m og (swpEnter s a2) := by
  intro a2
  unfold swpEnter
  repeat' first
    | (with_reducible first | assumption | exact mask_sub hm rfl | apply fput_kept)
    | intro _
    | dsimp only

theorem sweepTables_kept {m : Nat} {og s : State} (h : Kept m og s) (hm : 0x10000000000008 &&& m = 0x10000000000008) : ∀ a2, Kept m og (sweepTables s a2) := by
  intro a2
  unfold sweepTables
  repeat' first
    | (with_reducible first | assumption | exact mask_sub hm rfl | apply forEach_kept | apply streamLive_kept | apply modWc_kept)
    | intro _
    | dsimp only
    | split

theorem sweepTake_kept {m : Nat} {og s : State} (h : Kept m og s) (hm : 0x171c4000003008 &&& m = 0x171c4000003008) : Kept m og (sweepTake s) := by
  unfold sweepTake
  extract_lets +onlyGivenNames s1
  have k_s1 : Kept m og s1 := by
    dsimp only [s1]
    repeat' first
      | (with_reducible first | assumption | exact mask_sub hm rfl | apply swpEnter_kept | apply showQueued_kept | apply sweepTables_kept | apply count_kept | apply fset_kept)
      | intro _
      | dsimp only
      | split
      | (with_reducible first | apply kept_spans_swpCur_swpLate | apply kept_spans_swpQueue_swpCur_swpStart_swpLate | apply kept_swpAborted_winFlags)
  clear_value s1
  repeat' first
    | (with_reducible first | assumption | exact mask_sub hm rfl | apply swpEnter_kept | apply showQueued_kept | apply sweepTables_kept | apply count_kept | apply fset_kept)
    | intro _
    | dsimp only
    | split
    | (with_reducible first | apply kept_spans_swpCur_swpLate | apply kept_spans_swpQueue_swpCur_swpStart_swpLate | apply kept_swpAborted_winFlags)

theorem sweepStart_kept {m : Nat} {og s : State} (h : Kept m og s) (hm : 0x17bc4000003008 &&& m = 0x17bc4000003008) : Kept m og (sweepStart s) := by
  unfold sweepStart
  repeat' first
    | (with_reducible first | assumption | exact mask_sub hm rfl | apply sweepTake_kept)
    | intro _
    | dsimp only
    | split
    | (with_reducible first | apply kept_swpOpened_swpStop)

theorem execSweepStart_kept {s t : State} {a1} (e : execSweepStart a1 s = .next t) : Kept 0x17bc4000003088 s t := by
  have h := Kept.same 0x17bc4000003088 s
  have hm := Nat.and_self 0x17bc4000003088
  refine next_kept e ?_
  repeat' first
    | (with_reducible first | assumption | exact mask_sub hm rfl | apply reply_kept | apply sweepStart_kept)
    | intro _
    | dsimp only

theorem sweepStop_kept {m : Nat} {og s : State} (h : Kept m og s) (hm : 0x800000000000 &&& m = 0x800000000000) : Kept m og (sweepStop s) := by
  unfold sweepStop
  repeat' first
    | (with_reducible first | assumption | exact mask_sub hm rfl)
    | intro _
    | dsimp only
    | split
    | (with_reducible first | apply kept_swpStop)

theorem execSweepStop_kept {s t : State} {a1} (e : execSweepStop a1 s = .next t) : Kept 0x800000000080 s t := by
  have h := Kept.same 0x800000000080 s
  have hm := Nat.and_self 0x800000000080
  refine next_kept e ?_
  repeat' first
    | (with_reducible first | assumption | exact mask_sub hm rfl | apply reply_kept | apply sweepStop_kept)
    | intro _
    | dsimp only

theorem unbegunEnd_kept {m : Nat} {og s : State} (h : Kept m og s) (hm : 0x8000001d02d7e30e8 &&& m = 0x8000001d02d7e30e8) : ∀ a2 a3 a4, Kept m og (unbegunEnd s a2 a3 a4) := by
  intro a2 a3 a4
  unfold unbegunEnd
  repeat' first
    | (with_reducible first | assumption | exact mask_sub hm rfl | apply forEach_kept | apply modHb_kept | apply spanReached_kept | apply stepEnd_kept)
    | intro _
    | dsimp only
    | split

theorem programAbort_kept {m : Nat} {og s : State} (h : Kept m og s) (hm : 0x8000001d02d7e30e8 &&& m = 0x8000001d02d7e30e8) : ∀ a2, Kept m og (programAbort s a2) := by
  intro a2
  unfold programAbort
  repeat' first
    | (with_reducible first | assumption | exact mask_sub hm rfl | apply forEach_kept | apply unbegunEnd_kept)
    | intro _
    | dsimp only

theorem headsAbort_kept {m : Nat} {og s : State} (h : Kept m og s) (hm : 0x8001001dcfd7e30e8 &&& m = 0x8001001dcfd7e30e8) : Kept m og (headsAbort s) := by
  unfold headsAbort
  repeat' first
    | (with_reducible first | assumption | exact mask_sub hm rfl | apply forEach_kept | apply disarmHead_kept | apply portionEnd_kept)
    | intro _
    | dsimp only

theorem sweepAbort_kept {m : Nat} {og s : State} (h : Kept m og s) (hm : 0x8001905dcfd7e30e8 &&& m = 0x8001905dcfd7e30e8) : Kept m og (sweepAbort s) := by
  unfold sweepAbort
  extract_lets +onlyGivenNames st
  try clear_value st
  repeat' first
    | (with_reducible first | assumption | exact mask_sub hm rfl | apply forEach_kept | apply headsAbort_kept | apply programAbort_kept | apply showQueued_kept | apply swpEnter_kept)
    | intro _
    | dsimp only
    | split
    | (with_reducible first | apply kept_swpQueue_swpAborted | apply kept_swpTail)

theorem execSweepAbort_kept {s t : State} {a1} (e : execSweepAbort a1 s = .next t) : Kept 0x8001905dcfd7e30e8 s t := by
  have h := Kept.same 0x8001905dcfd7e30e8 s
  have hm := Nat.and_self 0x8001905dcfd7e30e8
  refine next_kept e ?_
  repeat' first
    | (with_reducible first | assumption | exact mask_sub hm rfl | apply reply_kept | apply sweepAbort_kept)
    | intro _
    | dsimp only

theorem windowOpen_kept {m : Nat} {og s : State} (h : Kept m og s) (hm : 0x2200000003008 &&& m = 0x2200000003008) : Kept m og (windowOpen s) := by
  unfold windowOpen
  extract_lets +onlyGivenNames s1 s2 tables s3
  have k_s1 : Kept m og s1 := by
    dsimp only [s1]
    repeat' first
      | (with_reducible first | assumption | exact mask_sub hm rfl | apply putTime_kept | apply swpEnter_kept | apply wr_kept | apply count_kept | apply fset_kept)
      | intro _
      | dsimp only
      | split
      | dsimp only [id]
      | (with_reducible first | apply kept_swpOpened_winFlags)
  clear_value s1
  have k_s2 : Kept m og s2 := by
    dsimp only [s2]
    repeat' first
      | (with_reducible first | assumption | exact mask_sub hm rfl | apply putTime_kept | apply swpEnter_kept | apply wr_kept | apply count_kept | apply fset_kept)
      | intro _
      | dsimp only
      | split
      | dsimp only [id]
      | (with_reducible first | apply kept_swpOpened_winFlags)
  clear_value s2
  try clear_value tables
  have k_s3 : Kept m og s3 := by
    dsimp only [s3]
    repeat' first
      | (with_reducible first | assumption | exact mask_sub hm rfl | apply putTime_kept | apply swpEnter_kept | apply wr_kept | apply count_kept | apply fset_kept)
      | intro _
      | dsimp only
      | split
      | dsimp only [id]
      | (with_reducible first | apply kept_swpOpened_winFlags)
  clear_value s3
  repeat' first
    | (with_reducible first | assumption | exact mask_sub hm rfl | apply putTime_kept | apply swpEnter_kept | apply wr_kept | apply count_kept | apply fset_kept)
    | intro _
    | dsimp only
    | split
    | dsimp only [id]
    | (with_reducible first | apply kept_swpOpened_winFlags)

theorem execWindowOpen_kept {s t : State} (e : execWindowOpen s = .next t) : Kept 0x2200000003008 s t := by
  have h := Kept.same 0x2200000003008 s
  have hm := Nat.and_self 0x2200000003008
  refine next_kept e ?_
  repeat' first
    | (with_reducible first | assumption | exact mask_sub hm rfl | apply windowOpen_kept)
    | intro _
    | dsimp only
    | split

theorem windowClose_kept {m : Nat} {og s : State} (h : Kept m og s) (hm : 0x8000001d02d7e30e8 &&& m = 0x8000001d02d7e30e8) : Kept m og (windowClose s) := by
  unfold windowClose
  extract_lets +onlyGivenNames s1 s2 s3
  have k_s1 : Kept m og s1 := by
    dsimp only [s1]
    repeat' first
      | (with_reducible first | assumption | exact mask_sub hm rfl | apply forEach_kept | apply portionBegin_kept | apply closePortion_kept | apply calStepDone_kept | apply swpEnter_kept)
      | intro _
      | dsimp only
      | split
  clear_value s1
  have k_s2 : Kept m og s2 := by
    dsimp only [s2]
    repeat' first
      | (with_reducible first | assumption | exact mask_sub hm rfl | apply forEach_kept | apply portionBegin_kept | apply closePortion_kept | apply calStepDone_kept | apply swpEnter_kept)
      | intro _
      | dsimp only
      | split
  clear_value s2
  have k_s3 : Kept m og s3 := by
    dsimp only [s3]
    repeat' first
      | (with_reducible first | assumption | exact mask_sub hm rfl | apply forEach_kept | apply portionBegin_kept | apply closePortion_kept | apply calStepDone_kept | apply swpEnter_kept)
      | intro _
      | dsimp only
      | split
  clear_value s3
  repeat' first
    | (with_reducible first | assumption | exact mask_sub hm rfl | apply forEach_kept | apply portionBegin_kept | apply closePortion_kept | apply calStepDone_kept | apply swpEnter_kept)
    | intro _
    | dsimp only
    | split

theorem execWindowClose_kept {s t : State} (e : execWindowClose s = .next t) : Kept 0x8000001d02d7e30e8 s t := by
  have h := Kept.same 0x8000001d02d7e30e8 s
  have hm := Nat.and_self 0x8000001d02d7e30e8
  refine next_kept e ?_
  repeat' first
    | (with_reducible first | assumption | exact mask_sub hm rfl | apply windowClose_kept)
    | intro _
    | dsimp only
    | split

theorem execAllSlotsEnded_kept {s t : State} (e : execAllSlotsEnded s = .next t) : Kept 0x8000000000008 s t := by
  have h := Kept.same 0x8000000000008 s
  have hm := Nat.and_self 0x8000000000008
  refine next_kept e ?_
  repeat' first
    | (with_reducible first | assumption | exact mask_sub hm rfl | apply swpEnter_kept)
    | intro _
    | dsimp only
    | split
    | (with_reducible first | apply kept_swpTail)

theorem verifyStale_kept {m : Nat} {og s : State} (h : Kept m og s) (hm : 0x10000000 &&& m = 0x10000000) : Kept m og (verifyStale s) := by
  unfold verifyStale
  repeat' first
    | (with_reducible first | assumption | exact mask_sub hm rfl | apply forEach_kept | apply modCh_kept)
    | intro _
    | dsimp only
    | split

theorem sweepSummary_kept {m : Nat} {og s : State} (h : Kept m og s) (hm : 0x8000001400d7e30e8 &&& m = 0x8000001400d7e30e8) : Kept m og (sweepSummary s) := by
  unfold sweepSummary
  extract_lets +onlyGivenNames seq short s1 s2 s3
  try clear_value seq
  try clear_value short
  have k_s1 : Kept m og s1 := by
    dsimp only [s1]
    repeat' first
      | (with_reducible first | assumption | exact mask_sub hm rfl | apply fput_kept | apply count_kept | apply fset_kept | apply fifoPush_kept | apply swpEnter_kept)
      | intro _
      | dsimp only
      | (with_reducible first | apply getD_kept)
      | split
      | (with_reducible first | apply kept_spans_shortHeads)
  clear_value s1
  have k_s2 : Kept m og s2 := by
    dsimp only [s2]
    repeat' first
      | (with_reducible first | assumption | exact mask_sub hm rfl | apply fput_kept | apply count_kept | apply fset_kept | apply fifoPush_kept | apply swpEnter_kept)
      | intro _
      | dsimp only
      | (with_reducible first | apply getD_kept)
      | split
      | (with_reducible first | apply kept_spans_shortHeads)
  clear_value s2
  have k_s3 : Kept m og s3 := by
    dsimp only [s3]
    repeat' first
      | (with_reducible first | assumption | exact mask_sub hm rfl | apply fput_kept | apply count_kept | apply fset_kept | apply fifoPush_kept | apply swpEnter_kept)
      | intro _
      | dsimp only
      | (with_reducible first | apply getD_kept)
      | split
      | (with_reducible first | apply kept_spans_shortHeads)
  clear_value s3
  repeat' first
    | (with_reducible first | assumption | exact mask_sub hm rfl | apply fput_kept | apply count_kept | apply fset_kept | apply fifoPush_kept | apply swpEnter_kept)
    | intro _
    | dsimp only
    | (with_reducible first | apply getD_kept)
    | split
    | (with_reducible first | apply kept_spans_shortHeads)

theorem drainComplete_kept {m : Nat} {og s : State} (h : Kept m og s) (hm : 0x8001001503d7e30e8 &&& m = 0x8001001503d7e30e8) : Kept m og (drainComplete s) := by
  unfold drainComplete
  extract_lets +onlyGivenNames s0
  have k_s0 : Kept m og s0 := by
    dsimp only [s0]
    repeat' first
      | (with_reducible first | assumption | exact mask_sub hm rfl | apply verifyStale_kept | apply closeTiles_kept | apply forEach_kept | apply verifyLost_kept | apply sweepSummary_kept)
      | intro _
      | dsimp only
      | split
  clear_value s0
  repeat' first
    | (with_reducible first | assumption | exact mask_sub hm rfl | apply verifyStale_kept | apply closeTiles_kept | apply forEach_kept | apply verifyLost_kept | apply sweepSummary_kept)
    | intro _
    | dsimp only
    | split

theorem execDrainComplete_kept {s t : State} (e : execDrainComplete s = .next t) : Kept 0x8001001503d7e30e8 s t := by
  have h := Kept.same 0x8001001503d7e30e8 s
  have hm := Nat.and_self 0x8001001503d7e30e8
  refine next_kept e ?_
  repeat' first
    | (with_reducible first | assumption | exact mask_sub hm rfl | apply drainComplete_kept)
    | intro _
    | dsimp only
    | split

theorem blockApply_kept {m : Nat} {og s : State} (h : Kept m og s) (hm : 0x18 &&& m = 0x18) : ∀ a2 a3, Kept m og (blockApply s a2 a3) := by
  intro a2 a3
  unfold blockApply
  repeat' first
    | (with_reducible first | assumption | exact mask_sub hm rfl | apply fclr_kept | apply applyPend_kept)
    | intro _
    | dsimp only
    | split

theorem chanApply_kept {m : Nat} {og s : State} (h : Kept m og s) (hm : 0x10000018 &&& m = 0x10000018) : ∀ a2, Kept m og (chanApply s a2) := by
  intro a2
  unfold chanApply
  repeat' first
    | (with_reducible first | assumption | exact mask_sub hm rfl | apply chanBoundary_kept)
    | intro _
    | dsimp only
    | split

theorem wcApply_kept {m : Nat} {og s : State} (h : Kept m og s) (hm : 0x18 &&& m = 0x18) : ∀ a2, Kept m og (wcApply s a2) := by
  intro a2
  unfold wcApply
  extract_lets +onlyGivenNames s1
  have k_s1 : Kept m og s1 := by
    dsimp only [s1]
    repeat' first
      | (with_reducible first | assumption | exact mask_sub hm rfl | apply blockApply_kept | apply guardLive_kept | apply currentsLimit_kept)
      | intro _
      | dsimp only
      | split
  clear_value s1
  repeat' first
    | (with_reducible first | assumption | exact mask_sub hm rfl | apply blockApply_kept | apply guardLive_kept | apply currentsLimit_kept)
    | intro _
    | dsimp only
    | split

theorem boundaryFields_kept {m : Nat} {og s : State} (h : Kept m og s) (hm : 0x801a00000157f30f8 &&& m = 0x801a00000157f30f8) : Kept m og (boundaryFields s) := by
  unfold boundaryFields
  extract_lets +onlyGivenNames s1 s2 s3 s4 s5 s6
  have k_s1 : Kept m og s1 := by
    dsimp only [s1]
    repeat' first
      | (with_reducible first | assumption | exact mask_sub hm rfl | apply forEach_kept | apply chanApply_kept | apply blockApply_kept | apply wcApply_kept | apply applyPend_kept | apply seBoundary_kept | apply spnSpeedApply_kept | apply sledApply_kept | apply calBoundary_kept)
      | intro _
      | dsimp only
  clear_value s1
  have k_s2 : Kept m og s2 := by
    dsimp only [s2]
    repeat' first
      | (with_reducible first | assumption | exact mask_sub hm rfl | apply forEach_kept | apply chanApply_kept | apply blockApply_kept | apply wcApply_kept | apply applyPend_kept | apply seBoundary_kept | apply spnSpeedApply_kept | apply sledApply_kept | apply calBoundary_kept)
      | intro _
      | dsimp only
  clear_value s2
  have k_s3 : Kept m og s3 := by
    dsimp only [s3]
    repeat' first
      | (with_reducible first | assumption | exact mask_sub hm rfl | apply forEach_kept | apply chanApply_kept | apply blockApply_kept | apply wcApply_kept | apply applyPend_kept | apply seBoundary_kept | apply spnSpeedApply_kept | apply sledApply_kept | apply calBoundary_kept)
      | intro _
      | dsimp only
  clear_value s3
  have k_s4 : Kept m og s4 := by
    dsimp only [s4]
    repeat' first
      | (with_reducible first | assumption | exact mask_sub hm rfl | apply forEach_kept | apply chanApply_kept | apply blockApply_kept | apply wcApply_kept | apply applyPend_kept | apply seBoundary_kept | apply spnSpeedApply_kept | apply sledApply_kept | apply calBoundary_kept)
      | intro _
      | dsimp only
  clear_value s4
  have k_s5 : Kept m og s5 := by
    dsimp only [s5]
    repeat' first
      | (with_reducible first | assumption | exact mask_sub hm rfl | apply forEach_kept | apply chanApply_kept | apply blockApply_kept | apply wcApply_kept | apply applyPend_kept | apply seBoundary_kept | apply spnSpeedApply_kept | apply sledApply_kept | apply calBoundary_kept)
      | intro _
      | dsimp only
  clear_value s5
  have k_s6 : Kept m og s6 := by
    dsimp only [s6]
    repeat' first
      | (with_reducible first | assumption | exact mask_sub hm rfl | apply forEach_kept | apply chanApply_kept | apply blockApply_kept | apply wcApply_kept | apply applyPend_kept | apply seBoundary_kept | apply spnSpeedApply_kept | apply sledApply_kept | apply calBoundary_kept)
      | intro _
      | dsimp only
  clear_value s6
  repeat' first
    | (with_reducible first | assumption | exact mask_sub hm rfl | apply forEach_kept | apply chanApply_kept | apply blockApply_kept | apply wcApply_kept | apply applyPend_kept | apply seBoundary_kept | apply spnSpeedApply_kept | apply sledApply_kept | apply calBoundary_kept)
    | intro _
    | dsimp only

theorem headOffline_kept {m : Nat} {og s : State} (h : Kept m og s) (hm : 0x8000001d02d7e30e8 &&& m = 0x8000001d02d7e30e8) : ∀ a2, Kept m og (headOffline s a2) := by
  intro a2
  unfold headOffline
  extract_lets +onlyGivenNames s1
  have k_s1 : Kept m og s1 := by
    dsimp only [s1]
    repeat' first
      | (with_reducible first | assumption | exact mask_sub hm rfl | apply fputAt_kept | apply portionEnd_kept | apply fset_kept)
      | intro _
      | dsimp only
  clear_value s1
  repeat' first
    | (with_reducible first | assumption | exact mask_sub hm rfl | apply fputAt_kept | apply portionEnd_kept | apply fset_kept)
    | intro _
    | dsimp only

theorem schedRepost_kept {m : Nat} {og s : State} (h : Kept m og s) (hm : 0x20000000 &&& m = 0x20000000) : ∀ a2, Kept m og (schedRepost s a2) := by
  intro a2
  unfold schedRepost
  repeat' first
    | (with_reducible first | assumption | exact mask_sub hm rfl | apply schedPost_kept)
    | intro _
    | dsimp only
    | split

theorem boundaryHeads_kept {m : Nat} {og s : State} (h : Kept m og s) (hm : 0x8000001d02d7e30e8 &&& m = 0x8000001d02d7e30e8) : Kept m og (boundaryHeads s) := by
  unfold boundaryHeads
  extract_lets +onlyGivenNames off
  try clear_value off
  repeat' first
    | (with_reducible first | assumption | exact mask_sub hm rfl | apply forEach_kept | apply headOffline_kept | apply schedRepost_kept)
    | intro _
    | dsimp only

theorem execSweepBoundaryCmd_kept {s t : State} {a1} (e : execSweepBoundaryCmd a1 s = .next t) : Kept 0x801a001d03d7f30f8 s t := by
  have h := Kept.same 0x801a001d03d7f30f8 s
  have hm := Nat.and_self 0x801a001d03d7f30f8
  refine next_kept e ?_
  repeat' first
    | (with_reducible first | assumption | exact mask_sub hm rfl | apply reply_kept | apply boundaryHeads_kept | apply boundaryFields_kept)
    | intro _
    | dsimp only
    | split

theorem boundaryEnd_kept {m : Nat} {og s : State} (h : Kept m og s) (hm : 0x2179c4000003008 &&& m = 0x2179c4000003008) : Kept m og (boundaryEnd s) := by
  unfold boundaryEnd
  extract_lets +onlyGivenNames d s1 s2 s3 s4
  try clear_value d
  have k_s1 : Kept m og s1 := by
    dsimp only [s1]
    repeat' first
      | (with_reducible first | assumption | exact mask_sub hm rfl | apply putTime_kept | apply fput_kept | apply sif_kept | apply fset_kept | apply swpEnter_kept | apply sweepTake_kept)
      | intro _
      | dsimp only
      | split
      | (with_reducible first | apply kept_swpCur_retrained | apply kept_swpCur_swpStop_swpAborted_retrained | apply kept_swpStop_swpAborted)
  clear_value s1
  have k_s2 : Kept m og s2 := by
    dsimp only [s2]
    repeat' first
      | (with_reducible first | assumption | exact mask_sub hm rfl | apply putTime_kept | apply fput_kept | apply sif_kept | apply fset_kept | apply swpEnter_kept | apply sweepTake_kept)
      | intro _
      | dsimp only
      | split
      | (with_reducible first | apply kept_swpCur_retrained | apply kept_swpCur_swpStop_swpAborted_retrained | apply kept_swpStop_swpAborted)
  clear_value s2
  have k_s3 : Kept m og s3 := by
    dsimp only [s3]
    repeat' first
      | (with_reducible first | assumption | exact mask_sub hm rfl | apply putTime_kept | apply fput_kept | apply sif_kept | apply fset_kept | apply swpEnter_kept | apply sweepTake_kept)
      | intro _
      | dsimp only
      | split
      | (with_reducible first | apply kept_swpCur_retrained | apply kept_swpCur_swpStop_swpAborted_retrained | apply kept_swpStop_swpAborted)
  clear_value s3
  have k_s4 : Kept m og s4 := by
    dsimp only [s4]
    repeat' first
      | (with_reducible first | assumption | exact mask_sub hm rfl | apply putTime_kept | apply fput_kept | apply sif_kept | apply fset_kept | apply swpEnter_kept | apply sweepTake_kept)
      | intro _
      | dsimp only
      | split
      | (with_reducible first | apply kept_swpCur_retrained | apply kept_swpCur_swpStop_swpAborted_retrained | apply kept_swpStop_swpAborted)
  clear_value s4
  repeat' first
    | (with_reducible first | assumption | exact mask_sub hm rfl | apply putTime_kept | apply fput_kept | apply sif_kept | apply fset_kept | apply swpEnter_kept | apply sweepTake_kept)
    | intro _
    | dsimp only
    | split
    | (with_reducible first | apply kept_swpCur_retrained | apply kept_swpCur_swpStop_swpAborted_retrained | apply kept_swpStop_swpAborted)

theorem execBoundaryApply_kept {s t : State} (e : execBoundaryApply s = .next t) : Kept 0x803b79dd03d7f30f8 s t := by
  have h := Kept.same 0x803b79dd03d7f30f8 s
  have hm := Nat.and_self 0x803b79dd03d7f30f8
  refine next_kept e ?_
  repeat' first
    | (with_reducible first | assumption | exact mask_sub hm rfl | apply boundaryEnd_kept | apply boundaryHeads_kept | apply boundaryFields_kept)
    | intro _
    | dsimp only
    | split

theorem headOnlineSet_kept {m : Nat} {og s : State} (h : Kept m og s) (hm : 0x8 &&& m = 0x8) : ∀ a2, Kept m og (headOnlineSet s a2) := by
  intro a2
  unfold headOnlineSet
  repeat' first
    | (with_reducible first | assumption | exact mask_sub hm rfl | apply fput_kept)
    | intro _
    | dsimp only

theorem execHeadOnlineSet_kept {s t : State} {a1 a2} (e : execHeadOnlineSet a1 a2 s = .next t) : Kept 0x88 s t := by
  have h := Kept.same 0x88 s
  have hm := Nat.and_self 0x88
  refine next_kept e ?_
  repeat' first
    | (with_reducible first | assumption | exact mask_sub hm rfl | apply reply_kept | apply headOnlineSet_kept)
    | intro _
    | dsimp only

end Machine
end Sys2Proof
end

