-- ==== Sys2Proof/Laws/KeptPins.lean ====
section
/-! SUPPORT. What the operations of Machine/Pins.lean keep (Laws/Keeps.lean). -/

namespace Sys2Proof
namespace Machine

theorem modPins_kept {m : Nat} {og s : State} (h : Kept m og s) (hm : 0x40000000000000000 &&& m = 0x40000000000000000) : ∀ a2, Kept m og (modPins s a2) := by
  intro a2
  unfold modPins
  repeat' first
    | (with_reducible first | assumption | exact mask_sub hm rfl)
    | intro _
    | dsimp only
    | (with_reducible first | apply kept_pins)

theorem gpioFuncWrite_kept {m : Nat} {og s : State} (h : Kept m og s) (hm : 0x8 &&& m = 0x8) : ∀ a2 a3 a4, Kept m og (gpioFuncWrite s a2 a3 a4) := by
  intro a2 a3 a4
  unfold gpioFuncWrite
  repeat' first
    | (with_reducible first | assumption | exact mask_sub hm rfl | apply wr_kept | apply permitDeny_kept)
    | intro _
    | dsimp only
    | split
    | dsimp only [id]

theorem execGpioFuncWrite_kept {s t : State} {a1 a2 a3} (e : execGpioFuncWrite a1 a2 a3 s = .next t) : Kept 0x88 s t := by
  have h := Kept.same 0x88 s
  have hm := Nat.and_self 0x88
  refine next_kept e ?_
  repeat' first
    | (with_reducible first | assumption | exact mask_sub hm rfl | apply reply_kept | apply gpioFuncWrite_kept)
    | intro _
    | dsimp only

theorem gpioBits_kept {m : Nat} {og s : State} (h : Kept m og s) (hm : 0x8 &&& m = 0x8) : ∀ a2 a3 a4 a5, Kept m og (gpioBits s a2 a3 a4 a5) := by
  intro a2 a3 a4 a5
  unfold gpioBits
  extract_lets +onlyGivenNames named bad
  try clear_value named
  try clear_value bad
  repeat' first
    | (with_reducible first | assumption | exact mask_sub hm rfl | apply forEach_kept | apply fputAt_kept | apply permitDeny_kept)
    | intro _
    | dsimp only
    | split
    | dsimp only [id]

theorem execGpioOeSet_kept {s t : State} {a1 a2} (e : execGpioOeSet a1 a2 s = .next t) : Kept 0x88 s t := by
  have h := Kept.same 0x88 s
  have hm := Nat.and_self 0x88
  refine next_kept e ?_
  repeat' first
    | (with_reducible first | assumption | exact mask_sub hm rfl | apply reply_kept | apply gpioBits_kept)
    | intro _
    | dsimp only

theorem execGpioOeClr_kept {s t : State} {a1 a2} (e : execGpioOeClr a1 a2 s = .next t) : Kept 0x88 s t := by
  have h := Kept.same 0x88 s
  have hm := Nat.and_self 0x88
  refine next_kept e ?_
  repeat' first
    | (with_reducible first | assumption | exact mask_sub hm rfl | apply reply_kept | apply gpioBits_kept)
    | intro _
    | dsimp only

theorem execGpioOutSet_kept {s t : State} {a1 a2} (e : execGpioOutSet a1 a2 s = .next t) : Kept 0x88 s t := by
  have h := Kept.same 0x88 s
  have hm := Nat.and_self 0x88
  refine next_kept e ?_
  repeat' first
    | (with_reducible first | assumption | exact mask_sub hm rfl | apply reply_kept | apply gpioBits_kept)
    | intro _
    | dsimp only

theorem execGpioOutClr_kept {s t : State} {a1 a2} (e : execGpioOutClr a1 a2 s = .next t) : Kept 0x88 s t := by
  have h := Kept.same 0x88 s
  have hm := Nat.and_self 0x88
  refine next_kept e ?_
  repeat' first
    | (with_reducible first | assumption | exact mask_sub hm rfl | apply reply_kept | apply gpioBits_kept)
    | intro _
    | dsimp only

theorem tmrCfgWrite_kept {m : Nat} {og s : State} (h : Kept m og s) (hm : 0x8 &&& m = 0x8) : ∀ a2 a3 a4, Kept m og (tmrCfgWrite s a2 a3 a4) := by
  intro a2 a3 a4
  unfold tmrCfgWrite
  extract_lets +onlyGivenNames line feature
  try clear_value line
  try clear_value feature
  repeat' first
    | (with_reducible first | assumption | exact mask_sub hm rfl | apply permitDeny_kept | apply wr_kept)
    | intro _
    | dsimp only
    | split
    | dsimp only [id]

theorem execTmrCfgWrite_kept {s t : State} {a1 a2 a3} (e : execTmrCfgWrite a1 a2 a3 s = .next t) : Kept 0x88 s t := by
  have h := Kept.same 0x88 s
  have hm := Nat.and_self 0x88
  refine next_kept e ?_
  repeat' first
    | (with_reducible first | assumption | exact mask_sub hm rfl | apply reply_kept | apply tmrCfgWrite_kept)
    | intro _
    | dsimp only

theorem gpioEdge_kept {m : Nat} {og s : State} (h : Kept m og s) (hm : 0x68400000000403208 &&& m = 0x68400000000403208) : ∀ a2 a3, Kept m og (gpioEdge s a2 a3) := by
  intro a2 a3
  unfold gpioEdge
  repeat' first
    | (with_reducible first | assumption | exact mask_sub hm rfl | apply fputAt_kept | apply wakeEvent_kept | apply sif_kept | apply forEach_kept | apply putTime_kept)
    | intro _
    | dsimp only
    | split

theorem execGpioEdgeEvent_kept {s t : State} {a1 a2} (e : execGpioEdgeEvent a1 a2 s = .next t) : Kept 0x68400000000403208 s t := by
  have h := Kept.same 0x68400000000403208 s
  have hm := Nat.and_self 0x68400000000403208
  refine next_kept e ?_
  repeat' first
    | (with_reducible first | assumption | exact mask_sub hm rfl | apply gpioEdge_kept)
    | intro _
    | dsimp only

theorem execTimerPeriodStart_kept {s t : State} {a1} (e : execTimerPeriodStart a1 s = .next t) : Kept 0x40000000000000000 s t := by
  have h := Kept.same 0x40000000000000000 s
  have hm := Nat.and_self 0x40000000000000000
  refine next_kept e ?_
  repeat' first
    | (with_reducible first | assumption | exact mask_sub hm rfl | apply modPins_kept)
    | intro _
    | dsimp only
    | split

theorem copyRefresh_kept {m : Nat} {og s : State} (h : Kept m og s) (hm : 0x40000000000000000 &&& m = 0x40000000000000000) : ∀ a2, Kept m og (copyRefresh s a2) := by
  intro a2
  unfold copyRefresh
  repeat' first
    | (with_reducible first | assumption | exact mask_sub hm rfl | apply modPins_kept)
    | intro _
    | dsimp only
    | (with_reducible first | apply foldl_kept | apply foldlFst_kept)
    | split

theorem execKerbCopyRefresh_kept {s t : State} {a1} (e : execKerbCopyRefresh a1 s = .next t) : Kept 0x40000000000000000 s t := by
  have h := Kept.same 0x40000000000000000 s
  have hm := Nat.and_self 0x40000000000000000
  refine next_kept e ?_
  repeat' first
    | (with_reducible first | assumption | exact mask_sub hm rfl | apply copyRefresh_kept)
    | intro _
    | dsimp only

theorem kerbAccess_kept {m : Nat} {og s : State} (h : Kept m og s) (hm : 0x40000000000000080 &&& m = 0x40000000000000080) : ∀ a2 a3 f4, (∀ u0, Kept m og u0 → Kept m og (f4 u0)) → Kept m og (kerbAccess s a2 a3 f4) := by
  intro a2 a3 f4 hf4
  unfold kerbAccess
  repeat' first
    | (with_reducible first | assumption | exact mask_sub hm rfl | apply hf4 | apply modPins_kept | apply reply_kept)
    | intro _
    | dsimp only
    | (with_reducible first | apply getD_kept)
    | split

theorem execKerbStatusRead_kept {s t : State} {a1} (e : execKerbStatusRead a1 s = .next t) : Kept 0x40000000000000080 s t := by
  have h := Kept.same 0x40000000000000080 s
  have hm := Nat.and_self 0x40000000000000080
  refine next_kept e ?_
  repeat' first
    | (with_reducible first | assumption | exact mask_sub hm rfl | apply modPins_kept | apply reply_kept)
    | intro _
    | dsimp only
    | split

theorem execKerbInboundWrite_kept {s t : State} {a1 a2} (e : execKerbInboundWrite a1 a2 s = .next t) : Kept 0x40000000000000088 s t := by
  have h := Kept.same 0x40000000000000088 s
  have hm := Nat.and_self 0x40000000000000088
  refine next_kept e ?_
  repeat' first
    | (with_reducible first | assumption | exact mask_sub hm rfl | apply kerbAccess_kept | apply fset_kept | apply fput_kept)
    | intro _
    | dsimp only

theorem execKerbCommandWrite_kept {s t : State} {a1} (e : execKerbCommandWrite a1 s = .next t) : Kept 0x40000000000000088 s t := by
  have h := Kept.same 0x40000000000000088 s
  have hm := Nat.and_self 0x40000000000000088
  refine next_kept e ?_
  repeat' first
    | (with_reducible first | assumption | exact mask_sub hm rfl | apply kerbAccess_kept | apply fset_kept | apply fput_kept)
    | intro _
    | dsimp only

theorem execKerbIntClear_kept {s t : State} {a1} (e : execKerbIntClear a1 s = .next t) : Kept 0x40000000000000088 s t := by
  have h := Kept.same 0x40000000000000088 s
  have hm := Nat.and_self 0x40000000000000088
  refine next_kept e ?_
  repeat' first
    | (with_reducible first | assumption | exact mask_sub hm rfl | apply kerbAccess_kept | apply fset_kept | apply fclr_kept)
    | intro _
    | dsimp only
    | split

theorem execKerbWakeWord_kept {s t : State} {a1} (e : execKerbWakeWord a1 s = .next t) : Kept 0x68400000000403288 s t := by
  have h := Kept.same 0x68400000000403288 s
  have hm := Nat.and_self 0x68400000000403288
  refine next_kept e ?_
  repeat' first
    | (with_reducible first | assumption | exact mask_sub hm rfl | apply kerbAccess_kept | apply wakeEvent_kept)
    | intro _
    | dsimp only
    | split
    | dsimp only [id]

theorem execKerbAckAccess_kept {s t : State} {a1 a2} (e : execKerbAckAccess a1 a2 s = .next t) : Kept 0x40000000000000080 s t := by
  have h := Kept.same 0x40000000000000080 s
  have hm := Nat.and_self 0x40000000000000080
  refine next_kept e ?_
  repeat' first
    | (with_reducible first | assumption | exact mask_sub hm rfl | apply kerbAccess_kept)
    | intro _
    | dsimp only
    | split
    | dsimp only [id]

theorem execKerbProtocolError_kept {s t : State} (e : execKerbProtocolError s = .next t) : Kept 0x8 s t := by
  have h := Kept.same 0x8 s
  have hm := Nat.and_self 0x8
  refine next_kept e ?_
  repeat' first
    | (with_reducible first | assumption | exact mask_sub hm rfl | apply fset_kept)
    | intro _
    | dsimp only
    | split

theorem execKerbResponderSwitch_kept {s t : State} (e : execKerbResponderSwitch s = .next t) : Kept 0x40000000000000000 s t := by
  have h := Kept.same 0x40000000000000000 s
  have hm := Nat.and_self 0x40000000000000000
  refine next_kept e ?_
  repeat' first
    | (with_reducible first | assumption | exact mask_sub hm rfl | apply modPins_kept)
    | intro _
    | dsimp only
    | split

theorem execKerbStrobeRise_kept {s t : State} (e : execKerbStrobeRise s = .next t) : Kept 0x40000000000000000 s t := by
  have h := Kept.same 0x40000000000000000 s
  have hm := Nat.and_self 0x40000000000000000
  refine next_kept e ?_
  repeat' first
    | (with_reducible first | assumption | exact mask_sub hm rfl | apply modPins_kept)
    | intro _
    | dsimp only

theorem smbReply_kept {m : Nat} {og s : State} (h : Kept m og s) (hm : 0x80 &&& m = 0x80) : ∀ a2 a3, Kept m og (smbReply s a2 a3) := by
  intro a2 a3
  unfold smbReply
  extract_lets +onlyGivenNames a pec
  try clear_value a
  try clear_value pec
  repeat' first
    | (with_reducible first | assumption | exact mask_sub hm rfl | apply reply_kept)
    | intro _
    | dsimp only
    | split

theorem execSmbusReadWord_kept {s t : State} {a1} (e : execSmbusReadWord a1 s = .next t) : Kept 0x40000000000000080 s t := by
  have h := Kept.same 0x40000000000000080 s
  have hm := Nat.and_self 0x40000000000000080
  refine next_kept e ?_
  repeat' first
    | (with_reducible first | assumption | exact mask_sub hm rfl | apply modPins_kept | apply smbReply_kept)
    | intro _
    | dsimp only
    | split

theorem execSmbusBlockRead_kept {s t : State} (e : execSmbusBlockRead s = .next t) : Kept 0x40000000000000080 s t := by
  have h := Kept.same 0x40000000000000080 s
  have hm := Nat.and_self 0x40000000000000080
  refine next_kept e ?_
  repeat' first
    | (with_reducible first | assumption | exact mask_sub hm rfl | apply modPins_kept | apply smbReply_kept)
    | intro _
    | dsimp only

theorem execSmbusNack_kept {s t : State} (e : execSmbusNack s = .next t) : Kept 0x8 s t := by
  have h := Kept.same 0x8 s
  have hm := Nat.and_self 0x8
  refine next_kept e ?_
  repeat' first
    | (with_reducible first | assumption | exact mask_sub hm rfl | apply fset_kept)
    | intro _
    | dsimp only

theorem execSmbusAlertResponse_kept {s t : State} (e : execSmbusAlertResponse s = .next t) : Kept 0x80 s t := by
  have h := Kept.same 0x80 s
  have hm := Nat.and_self 0x80
  refine next_kept e ?_
  repeat' first
    | (with_reducible first | assumption | exact mask_sub hm rfl | apply reply_kept)
    | intro _
    | dsimp only
    | split

theorem jtagLoad_kept {m : Nat} {og s : State} (h : Kept m og s) (hm : 0x400d0000020000008 &&& m = 0x400d0000020000008) : ∀ a2, Kept m og (jtagLoad s a2) := by
  intro a2
  unfold jtagLoad
  extract_lets +onlyGivenNames s1
  have k_s1 : Kept m og s1 := by
    dsimp only [s1]
    repeat' first
      | (with_reducible first | assumption | exact mask_sub hm rfl | apply modPins_kept | apply driversOff_kept | apply inhibitShow_kept)
      | intro _
      | dsimp only
      | split
  clear_value s1
  repeat' first
    | (with_reducible first | assumption | exact mask_sub hm rfl | apply modPins_kept | apply driversOff_kept | apply inhibitShow_kept)
    | intro _
    | dsimp only
    | split

theorem execJtagTapReset_kept {s t : State} (e : execJtagTapReset s = .next t) : Kept 0x400d0000020000008 s t := by
  have h := Kept.same 0x400d0000020000008 s
  have hm := Nat.and_self 0x400d0000020000008
  refine next_kept e ?_
  repeat' first
    | (with_reducible first | assumption | exact mask_sub hm rfl | apply jtagLoad_kept)
    | intro _
    | dsimp only

theorem execIdcode_kept {s t : State} (e : execIdcode s = .next t) : Kept 0x400d0000020000088 s t := by
  have h := Kept.same 0x400d0000020000088 s
  have hm := Nat.and_self 0x400d0000020000088
  refine next_kept e ?_
  repeat' first
    | (with_reducible first | assumption | exact mask_sub hm rfl | apply reply_kept | apply jtagLoad_kept)
    | intro _
    | dsimp only

theorem execSamplePreload_kept {s t : State} {a1} (e : execSamplePreload a1 s = .next t) : Kept 0x400d0000020010088 s t := by
  have h := Kept.same 0x400d0000020010088 s
  have hm := Nat.and_self 0x400d0000020010088
  refine next_kept e ?_
  repeat' first
    | (with_reducible first | assumption | exact mask_sub hm rfl | apply tickFrees_kept | apply reply_kept | apply modPins_kept | apply jtagLoad_kept)
    | intro _
    | dsimp only

theorem execExtest_kept {s t : State} (e : execExtest s = .next t) : Kept 0x400d0000020000008 s t := by
  have h := Kept.same 0x400d0000020000008 s
  have hm := Nat.and_self 0x400d0000020000008
  refine next_kept e ?_
  repeat' first
    | (with_reducible first | assumption | exact mask_sub hm rfl | apply jtagLoad_kept)
    | intro _
    | dsimp only

theorem execClamp_kept {s t : State} (e : execClamp s = .next t) : Kept 0x400d0000020000008 s t := by
  have h := Kept.same 0x400d0000020000008 s
  have hm := Nat.and_self 0x400d0000020000008
  refine next_kept e ?_
  repeat' first
    | (with_reducible first | assumption | exact mask_sub hm rfl | apply jtagLoad_kept)
    | intro _
    | dsimp only

theorem execHighz_kept {s t : State} (e : execHighz s = .next t) : Kept 0x400d0000020000008 s t := by
  have h := Kept.same 0x400d0000020000008 s
  have hm := Nat.and_self 0x400d0000020000008
  refine next_kept e ?_
  repeat' first
    | (with_reducible first | assumption | exact mask_sub hm rfl | apply jtagLoad_kept)
    | intro _
    | dsimp only

theorem execBypass_kept {s t : State} (e : execBypass s = .next t) : Kept 0x400d0000020000008 s t := by
  have h := Kept.same 0x400d0000020000008 s
  have hm := Nat.and_self 0x400d0000020000008
  refine next_kept e ?_
  repeat' first
    | (with_reducible first | assumption | exact mask_sub hm rfl | apply jtagLoad_kept)
    | intro _
    | dsimp only

end Machine
end Sys2Proof
end

