-- ==== Sys2Proof/Laws/KeptBus.lean ====
section
/-! SUPPORT. What the operations of Machine/Bus.lean keep (Laws/Keeps.lean). -/

namespace Sys2Proof
namespace Machine

theorem plainWrite_kept {m : Nat} {og s : State} (h : Kept m og s) (hm : 0x8 &&& m = 0x8) : ∀ a2 a3, Kept m og (plainWrite s a2 a3) := by
  intro a2 a3
  unfold plainWrite
  repeat' first
    | (with_reducible first | assumption | exact mask_sub hm rfl | apply wr_kept)
    | intro _
    | dsimp only
    | split

theorem pendWrite_kept {m : Nat} {og s : State} (h : Kept m og s) (hm : 0x10 &&& m = 0x10) : ∀ a2 a3, Kept m og (pendWrite s a2 a3) := by
  intro a2 a3
  unfold pendWrite
  repeat' first
    | (with_reducible first | assumption | exact mask_sub hm rfl)
    | intro _
    | dsimp only
    | split
    | (with_reducible first | apply kept_pend)

theorem rcWrite_kept {m : Nat} {og s : State} (h : Kept m og s) (hm : 0x80010011cfd7e30f8 &&& m = 0x80010011cfd7e30f8) : ∀ a2 a3 a4, Kept m og (rcWrite s a2 a3 a4) := by
  intro a2 a3 a4
  unfold rcWrite
  extract_lets +onlyGivenNames off
  try clear_value off
  repeat' first
    | (with_reducible first | assumption | exact mask_sub hm rfl | apply plainWrite_kept | apply fset_kept | apply pendWrite_kept | apply rcEnable_kept)
    | intro _
    | dsimp only
    | split

theorem wcWrite_kept {m : Nat} {og s : State} (h : Kept m og s) (hm : 0x10000020000018 &&& m = 0x10000020000018) : ∀ a2 a3 a4, Kept m og (wcWrite s a2 a3 a4) := by
  intro a2 a3 a4
  unfold wcWrite
  extract_lets +onlyGivenNames off
  try clear_value off
  repeat' first
    | (with_reducible first | assumption | exact mask_sub hm rfl | apply plainWrite_kept | apply fset_kept | apply pendWrite_kept | apply wcSoft_kept | apply wcEnable_kept)
    | intro _
    | dsimp only
    | split

theorem sldCtlWrite_kept {m : Nat} {og s : State} (h : Kept m og s) (hm : 0x8005001dcfd7e30e8 &&& m = 0x8005001dcfd7e30e8) : ∀ a2 a3, Kept m og (sldCtlWrite s a2 a3) := by
  intro a2 a3
  unfold sldCtlWrite
  extract_lets +onlyGivenNames s1 s2 s3
  have k_s1 : Kept m og s1 := by
    dsimp only [s1]
    repeat' first
      | (with_reducible first | assumption | exact mask_sub hm rfl | apply fput_kept | apply sledDrvEn_kept | apply sif_kept | apply sledUnpark_kept | apply sledPark_kept | apply sledAbort_kept | apply sledHome_kept)
      | intro _
      | dsimp only
      | split
  clear_value s1
  have k_s2 : Kept m og s2 := by
    dsimp only [s2]
    repeat' first
      | (with_reducible first | assumption | exact mask_sub hm rfl | apply fput_kept | apply sledDrvEn_kept | apply sif_kept | apply sledUnpark_kept | apply sledPark_kept | apply sledAbort_kept | apply sledHome_kept)
      | intro _
      | dsimp only
      | split
  clear_value s2
  have k_s3 : Kept m og s3 := by
    dsimp only [s3]
    repeat' first
      | (with_reducible first | assumption | exact mask_sub hm rfl | apply fput_kept | apply sledDrvEn_kept | apply sif_kept | apply sledUnpark_kept | apply sledPark_kept | apply sledAbort_kept | apply sledHome_kept)
      | intro _
      | dsimp only
      | split
  clear_value s3
  repeat' first
    | (with_reducible first | assumption | exact mask_sub hm rfl | apply fput_kept | apply sledDrvEn_kept | apply sif_kept | apply sledUnpark_kept | apply sledPark_kept | apply sledAbort_kept | apply sledHome_kept)
    | intro _
    | dsimp only
    | split

theorem sldWrite_kept {m : Nat} {og s : State} (h : Kept m og s) (hm : 0x8005001dcfd7e30f8 &&& m = 0x8005001dcfd7e30f8) : ∀ a2 a3 a4, Kept m og (sldWrite s a2 a3 a4) := by
  intro a2 a3 a4
  unfold sldWrite
  extract_lets +onlyGivenNames off st w s0
  try clear_value off
  try clear_value st
  try clear_value w
  have k_s0 : Kept m og s0 := by
    dsimp only [s0]
    repeat' first
      | (with_reducible first | assumption | exact mask_sub hm rfl | apply sif_kept | apply fset_kept | apply sldCtlWrite_kept | apply sledTarget_kept | apply pendWrite_kept | apply plainWrite_kept)
      | intro _
      | dsimp only
      | split
  clear_value s0
  repeat' first
    | (with_reducible first | assumption | exact mask_sub hm rfl | apply sif_kept | apply fset_kept | apply sldCtlWrite_kept | apply sledTarget_kept | apply pendWrite_kept | apply plainWrite_kept)
    | intro _
    | dsimp only
    | split

theorem headWrite_kept {m : Nat} {og s : State} (h : Kept m og s) (hm : 0x8005001dcfd7e30f8 &&& m = 0x8005001dcfd7e30f8) : ∀ a2 a3 a4 a5, Kept m og (headWrite s a2 a3 a4 a5) := by
  intro a2 a3 a4 a5
  unfold headWrite
  repeat' first
    | (with_reducible first | assumption | exact mask_sub hm rfl | apply rcWrite_kept | apply wcWrite_kept | apply sldWrite_kept | apply plainWrite_kept)
    | intro _
    | dsimp only
    | split

theorem seRegWrite_kept {m : Nat} {og s : State} (h : Kept m og s) (hm : 0xa0000000000018 &&& m = 0xa0000000000018) : ∀ a2 a3 a4 a5, Kept m og (seRegWrite s a2 a3 a4 a5) := by
  intro a2 a3 a4 a5
  unfold seRegWrite
  repeat' first
    | (with_reducible first | assumption | exact mask_sub hm rfl | apply sif_kept | apply seApplyNow_kept | apply seStop_kept | apply seStart_kept | apply seLoad_kept | apply capEnable_kept | apply fput_kept | apply fset_kept | apply pendWrite_kept | apply plainWrite_kept)
    | intro _
    | dsimp only
    | split

theorem spnCtlWrite_kept {m : Nat} {og s : State} (h : Kept m og s) (hm : 0x80000000003008 &&& m = 0x80000000003008) : ∀ a2, Kept m og (spnCtlWrite s a2) := by
  intro a2
  unfold spnCtlWrite
  extract_lets +onlyGivenNames s1 s2
  have k_s1 : Kept m og s1 := by
    dsimp only [s1]
    repeat' first
      | (with_reducible first | assumption | exact mask_sub hm rfl | apply fput_kept | apply fset_kept | apply spnSettle_kept | apply spnStop_kept | apply sif_kept | apply spnStart_kept)
      | intro _
      | dsimp only
      | split
  clear_value s1
  have k_s2 : Kept m og s2 := by
    dsimp only [s2]
    repeat' first
      | (with_reducible first | assumption | exact mask_sub hm rfl | apply fput_kept | apply fset_kept | apply spnSettle_kept | apply spnStop_kept | apply sif_kept | apply spnStart_kept)
      | intro _
      | dsimp only
      | split
  clear_value s2
  repeat' first
    | (with_reducible first | assumption | exact mask_sub hm rfl | apply fput_kept | apply fset_kept | apply spnSettle_kept | apply spnStop_kept | apply sif_kept | apply spnStart_kept)
    | intro _
    | dsimp only
    | split

theorem spnWrite_kept {m : Nat} {og s : State} (h : Kept m og s) (hm : 0x80000000003018 &&& m = 0x80000000003018) : ∀ a2 a3 a4, Kept m og (spnWrite s a2 a3 a4) := by
  intro a2 a3 a4
  unfold spnWrite
  extract_lets +onlyGivenNames w s0
  try clear_value w
  have k_s0 : Kept m og s0 := by
    dsimp only [s0]
    repeat' first
      | (with_reducible first | assumption | exact mask_sub hm rfl | apply noteClamp_kept | apply spnCtlWrite_kept | apply plainWrite_kept | apply fset_kept | apply pendWrite_kept)
      | intro _
      | dsimp only
      | split
  clear_value s0
  repeat' first
    | (with_reducible first | assumption | exact mask_sub hm rfl | apply noteClamp_kept | apply spnCtlWrite_kept | apply plainWrite_kept | apply fset_kept | apply pendWrite_kept)
    | intro _
    | dsimp only
    | split

theorem swpWrite_kept {m : Nat} {og s : State} (h : Kept m og s) (hm : 0x801bfbfdcfd7f30f8 &&& m = 0x801bfbfdcfd7f30f8) : ∀ a2 a3, Kept m og (swpWrite s a2 a3) := by
  intro a2 a3
  unfold swpWrite
  repeat' first
    | (with_reducible first | assumption | exact mask_sub hm rfl | apply sif_kept | apply sweepAbort_kept | apply sweepStop_kept | apply sweepStart_kept | apply boundaryHeads_kept | apply boundaryFields_kept | apply sweepSubmit_kept | apply headOnlineSet_kept | apply pendWrite_kept | apply plainWrite_kept)
    | intro _
    | dsimp only
    | split

theorem decWrite_kept {m : Nat} {og s : State} (h : Kept m og s) (hm : 0x18 &&& m = 0x18) : ∀ a2 a3, Kept m og (decWrite s a2 a3) := by
  intro a2 a3
  unfold decWrite
  repeat' first
    | (with_reducible first | assumption | exact mask_sub hm rfl | apply fset_kept | apply pendWrite_kept | apply plainWrite_kept)
    | intro _
    | dsimp only
    | split

theorem tcWrite_kept {m : Nat} {og s : State} (h : Kept m og s) (hm : 0x18 &&& m = 0x18) : ∀ a2 a3, Kept m og (tcWrite s a2 a3) := by
  intro a2 a3
  unfold tcWrite
  repeat' first
    | (with_reducible first | assumption | exact mask_sub hm rfl | apply fset_kept | apply pendWrite_kept | apply plainWrite_kept)
    | intro _
    | dsimp only
    | split

theorem arcWrite_kept {m : Nat} {og s : State} (h : Kept m og s) (hm : 0x8 &&& m = 0x8) : ∀ a2 a3, Kept m og (arcWrite s a2 a3) := by
  intro a2 a3
  unfold arcWrite
  repeat' first
    | (with_reducible first | assumption | exact mask_sub hm rfl | apply fput_kept | apply arcEnable_kept | apply arcDisable_kept | apply arcPartWrite_kept | apply plainWrite_kept)
    | intro _
    | dsimp only
    | split

theorem dramWriteReg_kept {m : Nat} {og s : State} (h : Kept m og s) (hm : 0x8 &&& m = 0x8) : ∀ a2 a3, Kept m og (dramWriteReg s a2 a3) := by
  intro a2 a3
  unfold dramWriteReg
  repeat' first
    | (with_reducible first | assumption | exact mask_sub hm rfl | apply dramMapWrite_kept | apply sif_kept | apply plainWrite_kept | apply fput_kept | apply dramInit_kept)
    | intro _
    | dsimp only
    | split

theorem dramnWrite_kept {m : Nat} {og s : State} (h : Kept m og s) (hm : 0x4703068 &&& m = 0x4703068) : ∀ a2 a3, Kept m og (dramnWrite s a2 a3) := by
  intro a2 a3
  unfold dramnWrite
  repeat' first
    | (with_reducible first | assumption | exact mask_sub hm rfl | apply dramMapWrite_kept | apply remapArmWrite_kept | apply remapDisarmWrite_kept | apply plainWrite_kept)
    | intro _
    | dsimp only
    | split

theorem coreResetOne_kept {m : Nat} {og s : State} (h : Kept m og s) (hm : 0x94000000000000008 &&& m = 0x94000000000000008) : ∀ a2, Kept m og (coreResetOne s a2) := by
  intro a2
  unfold coreResetOne
  extract_lets +onlyGivenNames s1
  have k_s1 : Kept m og s1 := by
    dsimp only [s1]
    repeat' first
      | (with_reducible first | assumption | exact mask_sub hm rfl | apply fputAt_kept | apply permitsRelease_kept)
      | intro _
      | dsimp only
      | (rename_i z p; first | exact zero_set z _ _ rfl p | (refine zero_set z _ _ ?_ p; exact z _))
      | (with_reducible first | apply kept_sq_core)
  clear_value s1
  repeat' first
    | (with_reducible first | assumption | exact mask_sub hm rfl | apply fputAt_kept | apply permitsRelease_kept)
    | intro _
    | dsimp only
    | (rename_i z p; first | exact zero_set z _ _ rfl p | (refine zero_set z _ _ ?_ p; exact z _))
    | (with_reducible first | apply kept_sq_core)

theorem coreRunOne_kept {m : Nat} {og s : State} (h : Kept m og s) (hm : 0x80000000000000008 &&& m = 0x80000000000000008) (k : Fin 4) : Kept m og (coreRunOne s k) := by
  unfold coreRunOne
  refine ite_kept h ?_
  dsimp only
  refine fputAt_kept (kept_core h (mask_sub hm rfl) ?_) (mask_sub hm rfl) _ _ _
  intro z p
  refine zero_set z _ _ ?_ p
  exact z k

theorem plzWrite_kept {m : Nat} {og s : State} (h : Kept m og s) (hm : 0x940000000000c0008 &&& m = 0x940000000000c0008) : ∀ a2 a3, Kept m og (plzWrite s a2 a3) := by
  intro a2 a3
  unfold plzWrite
  repeat' first
    | (with_reducible first | assumption | exact mask_sub hm rfl | apply forEach_kept | apply coreResetOne_kept | apply coreRunOne_kept | apply fputAt_kept | apply l1Disable_kept | apply plainWrite_kept)
    | intro _
    | dsimp only
    | split

theorem hostReady_kept {m : Nat} {og s : State} (h : Kept m og s) (hm : 0x8000000000000008 &&& m = 0x8000000000000008) : ∀ a2, Kept m og (hostReady s a2) := by
  intro a2
  unfold hostReady
  extract_lets +onlyGivenNames s1
  have k_s1 : Kept m og s1 := by
    dsimp only [s1]
    repeat' first
      | (with_reducible first | assumption | exact mask_sub hm rfl | apply showReady_kept | apply fputB_kept | apply fset_kept)
      | intro _
      | dsimp only
      | split
      | (with_reducible first | apply kept_sup)
  clear_value s1
  repeat' first
    | (with_reducible first | assumption | exact mask_sub hm rfl | apply showReady_kept | apply fputB_kept | apply fset_kept)
    | intro _
    | dsimp only
    | split
    | (with_reducible first | apply kept_sup)

theorem hostWrite_kept {m : Nat} {og s : State} (h : Kept m og s) (hm : 0x8945001dcfd7f32e8 &&& m = 0x8945001dcfd7f32e8) : ∀ a2 a3, Kept m og (hostWrite s a2 a3) := by
  intro a2 a3
  unfold hostWrite
  repeat' first
    | (with_reducible first | assumption | exact mask_sub hm rfl | apply hostReady_kept | apply fput_kept | apply portEnable_kept | apply plainWrite_kept | apply hostCpl_kept)
    | intro _
    | dsimp only
    | split

theorem supCtlWrite_kept {m : Nat} {og s : State} (h : Kept m og s) (hm : 0x80d0000020000008 &&& m = 0x80d0000020000008) : ∀ a2, Kept m og (supCtlWrite s a2) := by
  intro a2
  unfold supCtlWrite
  extract_lets +onlyGivenNames vmot s1 s2 s3 s4 s5
  try clear_value vmot
  have k_s1 : Kept m og s1 := by
    dsimp only [s1]
    repeat' first
      | (with_reducible first | assumption | exact mask_sub hm rfl | apply sif_kept | apply chopClr_kept | apply latchClr_kept | apply govEnable_kept | apply mbusEnable_kept | apply boostEnable_kept | apply boostClr_kept)
      | intro _
      | dsimp only
  clear_value s1
  have k_s2 : Kept m og s2 := by
    dsimp only [s2]
    repeat' first
      | (with_reducible first | assumption | exact mask_sub hm rfl | apply sif_kept | apply chopClr_kept | apply latchClr_kept | apply govEnable_kept | apply mbusEnable_kept | apply boostEnable_kept | apply boostClr_kept)
      | intro _
      | dsimp only
  clear_value s2
  have k_s3 : Kept m og s3 := by
    dsimp only [s3]
    repeat' first
      | (with_reducible first | assumption | exact mask_sub hm rfl | apply sif_kept | apply chopClr_kept | apply latchClr_kept | apply govEnable_kept | apply mbusEnable_kept | apply boostEnable_kept | apply boostClr_kept)
      | intro _
      | dsimp only
  clear_value s3
  have k_s4 : Kept m og s4 := by
    dsimp only [s4]
    repeat' first
      | (with_reducible first | assumption | exact mask_sub hm rfl | apply sif_kept | apply chopClr_kept | apply latchClr_kept | apply govEnable_kept | apply mbusEnable_kept | apply boostEnable_kept | apply boostClr_kept)
      | intro _
      | dsimp only
  clear_value s4
  have k_s5 : Kept m og s5 := by
    dsimp only [s5]
    repeat' first
      | (with_reducible first | assumption | exact mask_sub hm rfl | apply sif_kept | apply chopClr_kept | apply latchClr_kept | apply govEnable_kept | apply mbusEnable_kept | apply boostEnable_kept | apply boostClr_kept)
      | intro _
      | dsimp only
  clear_value s5
  repeat' first
    | (with_reducible first | assumption | exact mask_sub hm rfl | apply sif_kept | apply chopClr_kept | apply latchClr_kept | apply govEnable_kept | apply mbusEnable_kept | apply boostEnable_kept | apply boostClr_kept)
    | intro _
    | dsimp only

theorem supWrite_kept {m : Nat} {og s : State} (h : Kept m og s) (hm : 0x1fffffffffffffffff &&& m = 0x1fffffffffffffffff) : ∀ a2 a3 a4, Kept m og (supWrite s a2 a3 a4) := by
  intro a2 a3 a4
  unfold supWrite
  repeat' first
    | (with_reducible first | assumption | exact mask_sub hm rfl | apply supCtlWrite_kept | apply vmanShow_kept | apply plainWrite_kept | apply sif_kept | apply dormEnter_kept)
    | intro _
    | dsimp only
    | split

theorem calRegWrite_kept {m : Nat} {og s : State} (h : Kept m og s) (hm : 0x100000000003008 &&& m = 0x100000000003008) : ∀ a2 a3, Kept m og (calRegWrite s a2 a3) := by
  intro a2 a3
  unfold calRegWrite
  repeat' first
    | (with_reducible first | assumption | exact mask_sub hm rfl | apply sif_kept | apply calWrite_kept | apply calRead_kept | apply calPendAll_kept | apply plainWrite_kept)
    | intro _
    | dsimp only
    | split

theorem clkWrite_kept {m : Nat} {og s : State} (h : Kept m og s) (hm : 0x4000000000000008 &&& m = 0x4000000000000008) : ∀ a2 a3 a4, Kept m og (clkWrite s a2 a3 a4) := by
  intro a2 a3 a4
  unfold clkWrite
  repeat' first
    | (with_reducible first | assumption | exact mask_sub hm rfl | apply refSwitch_kept | apply clkRelock_kept | apply permitCheck_kept | apply clkoutSelect_kept | apply fput_kept | apply plainWrite_kept)
    | intro _
    | dsimp only
    | split

theorem sqWrite_kept {m : Nat} {og s : State} (h : Kept m og s) (hm : 0x940f0011cfd7e33f8 &&& m = 0x940f0011cfd7e33f8) : ∀ a2 a3 a4, Kept m og (sqWrite s a2 a3 a4) := by
  intro a2 a3 a4
  unfold sqWrite
  repeat' first
    | (with_reducible first | assumption | exact mask_sub hm rfl | apply sif_kept | apply plainWrite_kept | apply fset_kept | apply sqKick_kept | apply safeReq_kept | apply isolateHeads_kept | apply reinstateHeads_kept)
    | intro _
    | dsimp only
    | split
    | dsimp only [id]

theorem rstRegWrite_kept {m : Nat} {og s : State} (h : Kept m og s) (hm : 0x1fffffffffffffffff &&& m = 0x1fffffffffffffffff) : ∀ a2 a3, Kept m og (rstRegWrite s a2 a3) := by
  intro a2 a3
  unfold rstRegWrite
  repeat' first
    | (with_reducible first | assumption | exact mask_sub hm rfl | apply rstWrite_kept | apply plainWrite_kept)
    | intro _
    | dsimp only
    | split

theorem permitWrite_kept {m : Nat} {og s : State} (h : Kept m og s) (hm : 0x8 &&& m = 0x8) : ∀ a2 a3 a4, Kept m og (permitWrite s a2 a3 a4) := by
  intro a2 a3 a4
  unfold permitWrite
  extract_lets +onlyGivenNames n
  try clear_value n
  repeat' first
    | (with_reducible first | assumption | exact mask_sub hm rfl | apply sif_kept | apply permitRelease_kept | apply permitClaim_kept | apply plainWrite_kept)
    | intro _
    | dsimp only
    | split
    | dsimp only [id]

theorem pinWrite_kept {m : Nat} {og s : State} (h : Kept m og s) (hm : 0x8 &&& m = 0x8) : ∀ a2 a3 a4, Kept m og (pinWrite s a2 a3 a4) := by
  intro a2 a3 a4
  unfold pinWrite
  extract_lets +onlyGivenNames off
  try clear_value off
  repeat' first
    | (with_reducible first | assumption | exact mask_sub hm rfl | apply gpioFuncWrite_kept | apply gpioBits_kept | apply tmrCfgWrite_kept | apply permitCheck_kept | apply plainWrite_kept)
    | intro _
    | dsimp only
    | split

theorem memrWrite_kept {m : Nat} {og s : State} (h : Kept m og s) (hm : 0x80010011f6f7f30e8 &&& m = 0x80010011f6f7f30e8) : ∀ a2 a3, Kept m og (memrWrite s a2 a3) := by
  intro a2 a3
  unfold memrWrite
  extract_lets +onlyGivenNames m
  try clear_value m
  repeat' first
    | (with_reducible first | assumption | exact mask_sub hm rfl | apply plainWrite_kept | apply macroArmWrite_kept | apply macroDisarmWrite_kept)
    | intro _
    | dsimp only
    | split

theorem pcWrite_kept {m : Nat} {og s : State} (h : Kept m og s) (hm : 0x2000 &&& m = 0x2000) : ∀ a2 a3, Kept m og (pcWrite s a2 a3) := by
  intro a2 a3
  unfold pcWrite
  extract_lets +onlyGivenNames k
  try clear_value k
  repeat' first
    | (with_reducible first | assumption | exact mask_sub hm rfl)
    | intro _
    | dsimp only
    | split
    | (with_reducible first | apply kept_wraps)

theorem unitWrite_kept {m : Nat} {og s : State} (h : Kept m og s) (hm : 0x1fffffffffffffffff &&& m = 0x1fffffffffffffffff) : ∀ a2 a3 a4, Kept m og (unitWrite s a2 a3 a4) := by
  intro a2 a3 a4
  unfold unitWrite
  refine ite_kept (by with_reducible apply seRegWrite_kept h (mask_sub hm rfl)) ?_
  refine ite_kept (by with_reducible apply spnWrite_kept h (mask_sub hm rfl)) ?_
  refine ite_kept (by with_reducible apply supWrite_kept h (mask_sub hm rfl)) ?_
  refine ite_kept (by with_reducible apply calRegWrite_kept h (mask_sub hm rfl)) ?_
  refine ite_kept (by with_reducible apply clkWrite_kept h (mask_sub hm rfl)) ?_
  refine ite_kept (by with_reducible apply rescueWrite_kept h (mask_sub hm rfl)) ?_
  refine ite_kept (by with_reducible apply swpWrite_kept h (mask_sub hm rfl)) ?_
  refine ite_kept (by with_reducible apply decWrite_kept h (mask_sub hm rfl)) ?_
  refine ite_kept (by with_reducible apply tcWrite_kept h (mask_sub hm rfl)) ?_
  refine ite_kept (by with_reducible apply arcWrite_kept h (mask_sub hm rfl)) ?_
  refine ite_kept (by with_reducible apply dramWriteReg_kept h (mask_sub hm rfl)) ?_
  refine ite_kept (by with_reducible apply dramnWrite_kept h (mask_sub hm rfl)) ?_
  refine ite_kept (by with_reducible apply plzWrite_kept h (mask_sub hm rfl)) ?_
  refine ite_kept (by with_reducible apply hostWrite_kept h (mask_sub hm rfl)) ?_
  refine ite_kept (by with_reducible apply sqWrite_kept h (mask_sub hm rfl)) ?_
  refine ite_kept (by with_reducible apply rstRegWrite_kept h (mask_sub hm rfl)) ?_
  refine ite_kept (by with_reducible apply permitWrite_kept h (mask_sub hm rfl)) ?_
  refine ite_kept (by with_reducible apply memrWrite_kept h (mask_sub hm rfl)) ?_
  refine ite_kept (by with_reducible apply pinWrite_kept h (mask_sub hm rfl)) ?_
  refine ite_kept (by with_reducible apply pcWrite_kept h (mask_sub hm rfl)) ?_
  exact plainWrite_kept h (mask_sub hm rfl) _ _

theorem regWrite_kept {m : Nat} {og s : State} (h : Kept m og s) (hm : 0x1fffffffffffffffff &&& m = 0x1fffffffffffffffff) : ∀ a2 a3 a4, Kept m og (regWrite s a2 a3 a4) := by
  intro a2 a3 a4
  unfold regWrite
  repeat' first
    | (with_reducible first | assumption | exact mask_sub hm rfl | apply rbtConfigWrite_kept | apply plainWrite_kept | apply fifoConfigWrite_kept | apply headWrite_kept | apply unitWrite_kept)
    | intro _
    | dsimp only
    | split

theorem hostBarWrite_kept {m : Nat} {og s : State} (h : Kept m og s) (hm : 0x1400000000013008 &&& m = 0x1400000000013008) : ∀ a2 a3 a4, Kept m og (hostBarWrite s a2 a3 a4) := by
  intro a2 a3 a4
  unfold hostBarWrite
  extract_lets +onlyGivenNames a
  try clear_value a
  repeat' first
    | (with_reducible first | assumption | exact mask_sub hm rfl | apply ocfgWrite_kept | apply plainWrite_kept | apply tailDoorbell_kept | apply headDoorbell_kept | apply msixWrite_kept)
    | intro _
    | dsimp only
    | split

theorem agentWrite_keq {m : Nat} {og s t : State} {agent : Agent} {a : Nat} {bs : List Byte} (e : agentWrite s agent a bs = some t)
    (h : Kept m og s) (hm : 0x800000000057e30e8 &&& m = 0x800000000057e30e8) : Kept m og t := by
  unfold agentWrite at e
  split at e
  · exact coreWrite_keq e h (mask_sub hm rfl)
  · exact memWrite_keq e h (mask_sub hm rfl)

theorem busWrite_kept {m : Nat} {og s : State} (h : Kept m og s) (hm : 0x1fffffffffffffffff &&& m = 0x1fffffffffffffffff) : ∀ a2 a3 a4, Kept m og (busWrite s a2 a3 a4) := by
  intro a2 a3 a4
  unfold busWrite
  repeat' first
    | (with_reducible first | assumption | exact mask_sub hm rfl | apply replyError_kept | apply reply_kept | apply seWindowWrite_kept | apply seStateWrite_kept | apply regWrite_kept | refine agentWrite_keq (by assumption) ?_ ?_)
    | intro _
    | dsimp only
    | split

theorem registerWrite_kept {m : Nat} {og s : State} (h : Kept m og s) (hm : 0x1fffffffffffffffff &&& m = 0x1fffffffffffffffff) : ∀ a2 a3 a4 a5, Kept m og (registerWrite s a2 a3 a4 a5) := by
  intro a2 a3 a4 a5
  unfold registerWrite
  repeat' first
    | (with_reducible first | assumption | exact mask_sub hm rfl | apply reply_kept | apply hostBarWrite_kept | apply replyError_kept | apply busWrite_kept)
    | intro _
    | dsimp only
    | split

theorem execRegisterWrite_kept {s t : State} {a1 a2 a3 a4} (e : execRegisterWrite a1 a2 a3 a4 s = .next t) : Kept 0x1fffffffffffffffff s t := by
  have h := Kept.same 0x1fffffffffffffffff s
  have hm := Nat.and_self 0x1fffffffffffffffff
  refine next_kept e ?_
  repeat' first
    | (with_reducible first | assumption | exact mask_sub hm rfl | apply registerWrite_kept)
    | intro _
    | dsimp only

theorem pcRead_kept {m : Nat} {og s : State} (h : Kept m og s) (hm : 0x8080 &&& m = 0x8080) : ∀ a2 a3, Kept m og (pcRead s a2 a3).1 := by
  intro a2 a3
  unfold pcRead
  extract_lets +onlyGivenNames k
  try clear_value k
  repeat' first
    | (with_reducible first | assumption | exact mask_sub hm rfl | apply counterLatch_kept)
    | intro _
    | dsimp only
    | (with_reducible first | apply getD_kept)
    | split
    | dsimp only [id]

theorem pcRead_keq {m : Nat} {og s t : State} {r} {a2 a3} (e : pcRead s a2 a3 = (t, r)) (h : Kept m og s) (hm : 0x8080 &&& m = 0x8080) : Kept m og t := by
  have k := pcRead_kept h hm a2 a3
  rw [e] at k
  exact k

theorem regRead_kept {m : Nat} {og s : State} (h : Kept m og s) (hm : 0x8000000000d7ff0e8 &&& m = 0x8000000000d7ff0e8) : ∀ a2 a3, Kept m og (regRead s a2 a3).1 := by
  intro a2 a3
  unfold regRead
  repeat' first
    | (with_reducible first | assumption | exact mask_sub hm rfl | apply fifoPop_kept | refine fifoPop_keq (by assumption) ?_ ?_ | apply paceRateRead_kept | apply timeLatch_kept | apply pcRead_kept | refine pcRead_keq (by assumption) ?_ ?_)
    | intro _
    | dsimp only
    | (with_reducible first | apply getD_kept)
    | split
    | dsimp only [id]

theorem regRead_keq {m : Nat} {og s t : State} {r} {a2 a3} (e : regRead s a2 a3 = (t, r)) (h : Kept m og s) (hm : 0x8000000000d7ff0e8 &&& m = 0x8000000000d7ff0e8) : Kept m og t := by
  have k := regRead_kept h hm a2 a3
  rw [e] at k
  exact k

theorem busRead_kept {m : Nat} {og s : State} (h : Kept m og s) (hm : 0x8000000000d7ff0e8 &&& m = 0x8000000000d7ff0e8) : ∀ a2 a3 a4, Kept m og (busRead s a2 a3 a4).1 := by
  intro a2 a3 a4
  unfold busRead
  repeat' first
    | (with_reducible first | assumption | exact mask_sub hm rfl | apply memRead_kept | refine memRead_keq (by assumption) ?_ ?_ | apply regRead_kept | refine regRead_keq (by assumption) ?_ ?_)
    | intro _
    | dsimp only
    | (with_reducible first | apply getD_kept)
    | split

theorem busRead_keq {m : Nat} {og s t : State} {r} {a2 a3 a4} (e : busRead s a2 a3 a4 = (t, r)) (h : Kept m og s) (hm : 0x8000000000d7ff0e8 &&& m = 0x8000000000d7ff0e8) : Kept m og t := by
  have k := busRead_kept h hm a2 a3 a4
  rw [e] at k
  exact k

theorem debugAccess_kept {m : Nat} {og s : State} (h : Kept m og s) (hm : 0x1fffffffffffffffff &&& m = 0x1fffffffffffffffff) : ∀ a2 a3 a4 a5, Kept m og (debugAccess s a2 a3 a4 a5) := by
  intro a2 a3 a4 a5
  unfold debugAccess
  repeat' first
    | (with_reducible first | assumption | exact mask_sub hm rfl | apply jtagLoad_kept | apply busWrite_kept | apply modPins_kept | apply busRead_kept | refine busRead_keq (by assumption) ?_ ?_ | apply reply_kept | apply replyError_kept)
    | intro _
    | dsimp only
    | split

theorem execDebugAccess_kept {s t : State} {a1 a2 a3 a4} (e : execDebugAccess a1 a2 a3 a4 s = .next t) : Kept 0x1fffffffffffffffff s t := by
  have h := Kept.same 0x1fffffffffffffffff s
  have hm := Nat.and_self 0x1fffffffffffffffff
  refine next_kept e ?_
  repeat' first
    | (with_reducible first | assumption | exact mask_sub hm rfl | apply debugAccess_kept)
    | intro _
    | dsimp only

end Machine
end Sys2Proof
end

