-- ==== Sys2Proof/Laws/KeptCores.lean ====
section
/-! SUPPORT. What the operations of Machine/Cores.lean keep (Laws/Keeps.lean). -/

namespace Sys2Proof
namespace Machine

theorem exceptionEntry_kept {m : Nat} {og s : State} (h : Kept m og s) (hm : 0x80000000004000008 &&& m = 0x80000000004000008) : ∀ a2 a3, Kept m og (exceptionEntry s a2 a3) := by
  intro a2 a3
  unfold exceptionEntry
  repeat' first
    | (with_reducible first | assumption | exact mask_sub hm rfl | apply coreHalt_kept | apply modCore_kept)
    | intro _
    | dsimp only
    | exact zero_put _ _ (by assumption)
    | (unfold enterHandler; assumption)
    | split

theorem interruptEntry_kept {m : Nat} {og s : State} (h : Kept m og s) (hm : 0x80000000000003000 &&& m = 0x80000000000003000) : ∀ a2 a3, Kept m og (interruptEntry s a2 a3) := by
  intro a2 a3
  unfold interruptEntry
  repeat' first
    | (with_reducible first | assumption | exact mask_sub hm rfl | apply count_kept | apply modCore_kept)
    | intro _
    | dsimp only
    | exact zero_put _ _ (by assumption)
    | (unfold enterHandler; assumption)

theorem fetch_kept {m : Nat} {og s : State} (h : Kept m og s) (hm : 0x800000000047e30e8 &&& m = 0x800000000047e30e8) : ∀ a2, Kept m og (fetch s a2).1 := by
  intro a2
  unfold fetch
  extract_lets +onlyGivenNames c a
  try clear_value c
  try clear_value a
  repeat' first
    | (with_reducible first | assumption | exact mask_sub hm rfl | apply l1Read_kept | refine l1Read_keq (by assumption) ?_ ?_)
    | intro _
    | dsimp only
    | split

theorem fetch_keq {m : Nat} {og s t : State} {r} {a2} (e : fetch s a2 = (t, r)) (h : Kept m og s) (hm : 0x800000000047e30e8 &&& m = 0x800000000047e30e8) : Kept m og t := by
  have k := fetch_kept h hm a2
  rw [e] at k
  exact k

theorem dxFinish_kept {m : Nat} {og : State} {r : DxEnd} (h : Kept m og r.1) (hm : 0x80000000004000008 &&& m = 0x80000000004000008) : ∀ p, Kept m og (dxFinish p r) := by
  intro p
  unfold dxFinish
  split
  · exact h
  · exact exceptionEntry_kept h (mask_sub hm rfl) _ _

theorem issue_kept {m : Nat} {og s : State} (h : Kept m og s) (hm : 0x800000000047e30e8 &&& m = 0x800000000047e30e8) :
    ∀ a2 a3 (f4 : State → Word → DxEnd), (∀ u0 u1, Kept m og u0 → Kept m og (f4 u0 u1).1) → Kept m og (issue s a2 a3 f4) := by
  intro a2 a3 f4 hf4
  unfold issue
  repeat' first
    | (with_reducible first | assumption | exact mask_sub hm rfl | apply dxFinish_kept | apply hf4 |
        refine fetch_keq (by assumption) ?_ ?_ | apply exceptionEntry_kept)
    | split

theorem dxCompute_kept {m : Nat} {og s : State} (h : Kept m og s) (hm : 0x800000000047e30e8 &&& m = 0x800000000047e30e8) : ∀ a2 a3 a4, Kept m og (dxCompute s a2 a3 a4) := by
  intro a2 a3 a4
  unfold dxCompute
  repeat' first
    | (with_reducible first | assumption | exact mask_sub hm rfl | apply issue_kept | apply retire_kept)
    | intro _
    | dsimp only

theorem dxLoad_kept {m : Nat} {og s : State} (h : Kept m og s) (hm : 0x8000000000d7ff0e8 &&& m = 0x8000000000d7ff0e8) : ∀ a2 a3 a4, Kept m og (dxLoad s a2 a3 a4).1 := by
  intro a2 a3 a4
  unfold dxLoad
  extract_lets +onlyGivenNames a
  try clear_value a
  repeat' first
    | (with_reducible first | assumption | exact mask_sub hm rfl | apply busRead_kept | refine busRead_keq (by assumption) ?_ ?_ | apply l1Read_kept | refine l1Read_keq (by assumption) ?_ ?_)
    | intro _
    | dsimp only
    | split

theorem dxLoad_keq {m : Nat} {og s t : State} {r} {a2 a3 a4} (e : dxLoad s a2 a3 a4 = (t, r)) (h : Kept m og s) (hm : 0x8000000000d7ff0e8 &&& m = 0x8000000000d7ff0e8) : Kept m og t := by
  have k := dxLoad_kept h hm a2 a3 a4
  rw [e] at k
  exact k

theorem dxStore_kept {m : Nat} {og s : State} (h : Kept m og s) (hm : 0x1fffffffffffffffff &&& m = 0x1fffffffffffffffff) : ∀ a2 a3 a4 a5, Kept m og (dxStore s a2 a3 a4 a5).1 := by
  intro a2 a3 a4 a5
  unfold dxStore
  extract_lets +onlyGivenNames a bs
  try clear_value a
  try clear_value bs
  repeat' first
    | (with_reducible first | assumption | exact mask_sub hm rfl | apply busWrite_kept | apply retire_kept | refine coreWrite_keq (by assumption) ?_ ?_)
    | intro _
    | dsimp only
    | split

theorem dxStore_keq {m : Nat} {og s t : State} {r} {a2 a3 a4 a5} (e : dxStore s a2 a3 a4 a5 = (t, r)) (h : Kept m og s) (hm : 0x1fffffffffffffffff &&& m = 0x1fffffffffffffffff) : Kept m og t := by
  have k := dxStore_kept h hm a2 a3 a4 a5
  rw [e] at k
  exact k

theorem dxLoadInto_kept {m : Nat} {og s : State} (h : Kept m og s) (hm : 0x8000000000d7ff0e8 &&& m = 0x8000000000d7ff0e8) : ∀ a2 a3 a4 a5, Kept m og (dxLoadInto s a2 a3 a4 a5).1 := by
  intro a2 a3 a4 a5
  unfold dxLoadInto
  repeat' first
    | (with_reducible first | assumption | exact mask_sub hm rfl | apply dxLoad_kept | refine dxLoad_keq (by assumption) ?_ ?_ | apply retire_kept)
    | intro _
    | dsimp only
    | split

theorem dxLoadInto_keq {m : Nat} {og s t : State} {r} {a2 a3 a4 a5} (e : dxLoadInto s a2 a3 a4 a5 = (t, r)) (h : Kept m og s) (hm : 0x8000000000d7ff0e8 &&& m = 0x8000000000d7ff0e8) : Kept m og t := by
  have k := dxLoadInto_kept h hm a2 a3 a4 a5
  rw [e] at k
  exact k

theorem atomicRead_kept {m : Nat} {og s : State} (h : Kept m og s) (hm : 0x800000000047e30e8 &&& m = 0x800000000047e30e8) : ∀ a2, Kept m og (atomicRead s a2).1 := by
  intro a2
  unfold atomicRead
  repeat' first
    | (with_reducible first | assumption | exact mask_sub hm rfl | apply memRead_kept | refine memRead_keq (by assumption) ?_ ?_)
    | intro _
    | dsimp only
    | split

theorem atomicRead_keq {m : Nat} {og s t : State} {r} {a2} (e : atomicRead s a2 = (t, r)) (h : Kept m og s) (hm : 0x800000000047e30e8 &&& m = 0x800000000047e30e8) : Kept m og t := by
  have k := atomicRead_kept h hm a2
  rw [e] at k
  exact k

theorem dxAmo_kept {m : Nat} {og s : State} (h : Kept m og s) (hm : 0x800000000057e30e8 &&& m = 0x800000000057e30e8) : ∀ a2 a3 a4, Kept m og (dxAmo s a2 a3 a4).1 := by
  intro a2 a3 a4
  unfold dxAmo
  extract_lets +onlyGivenNames c addr
  try clear_value c
  try clear_value addr
  repeat' first
    | (with_reducible first | assumption | exact mask_sub hm rfl | apply atomicRead_kept | refine atomicRead_keq (by assumption) ?_ ?_ | apply retire_kept | refine coreWrite_keq (by assumption) ?_ ?_)
    | intro _
    | dsimp only
    | (with_reducible first | apply getD_kept)
    | split

theorem dxAmo_keq {m : Nat} {og s t : State} {r} {a2 a3 a4} (e : dxAmo s a2 a3 a4 = (t, r)) (h : Kept m og s) (hm : 0x800000000057e30e8 &&& m = 0x800000000057e30e8) : Kept m og t := by
  have k := dxAmo_kept h hm a2 a3 a4
  rw [e] at k
  exact k

end Machine
end Sys2Proof
end

