-- ==== Sys2Proof/Laws/KeptCoreInstr.lean ====
section
/-! SUPPORT. What the operations of Machine/CoreInstr.lean keep (Laws/Keeps.lean). -/

namespace Sys2Proof
namespace Machine

theorem execAdd_kept {s t : State} {a1} (e : execAdd a1 s = .next t) : Kept 0x800000000047e30e8 s t := by
  have h := Kept.same 0x800000000047e30e8 s
  have hm := Nat.and_self 0x800000000047e30e8
  refine next_kept e ?_
  repeat' first
    | (with_reducible first | assumption | exact mask_sub hm rfl | apply dxCompute_kept)
    | intro _
    | dsimp only

theorem execSub_kept {s t : State} {a1} (e : execSub a1 s = .next t) : Kept 0x800000000047e30e8 s t := by
  have h := Kept.same 0x800000000047e30e8 s
  have hm := Nat.and_self 0x800000000047e30e8
  refine next_kept e ?_
  repeat' first
    | (with_reducible first | assumption | exact mask_sub hm rfl | apply dxCompute_kept)
    | intro _
    | dsimp only

theorem execAnd_kept {s t : State} {a1} (e : execAnd a1 s = .next t) : Kept 0x800000000047e30e8 s t := by
  have h := Kept.same 0x800000000047e30e8 s
  have hm := Nat.and_self 0x800000000047e30e8
  refine next_kept e ?_
  repeat' first
    | (with_reducible first | assumption | exact mask_sub hm rfl | apply dxCompute_kept)
    | intro _
    | dsimp only

theorem execOr_kept {s t : State} {a1} (e : execOr a1 s = .next t) : Kept 0x800000000047e30e8 s t := by
  have h := Kept.same 0x800000000047e30e8 s
  have hm := Nat.and_self 0x800000000047e30e8
  refine next_kept e ?_
  repeat' first
    | (with_reducible first | assumption | exact mask_sub hm rfl | apply dxCompute_kept)
    | intro _
    | dsimp only

theorem execXor_kept {s t : State} {a1} (e : execXor a1 s = .next t) : Kept 0x800000000047e30e8 s t := by
  have h := Kept.same 0x800000000047e30e8 s
  have hm := Nat.and_self 0x800000000047e30e8
  refine next_kept e ?_
  repeat' first
    | (with_reducible first | assumption | exact mask_sub hm rfl | apply dxCompute_kept)
    | intro _
    | dsimp only

theorem execSll_kept {s t : State} {a1} (e : execSll a1 s = .next t) : Kept 0x800000000047e30e8 s t := by
  have h := Kept.same 0x800000000047e30e8 s
  have hm := Nat.and_self 0x800000000047e30e8
  refine next_kept e ?_
  repeat' first
    | (with_reducible first | assumption | exact mask_sub hm rfl | apply dxCompute_kept)
    | intro _
    | dsimp only

theorem execSrl_kept {s t : State} {a1} (e : execSrl a1 s = .next t) : Kept 0x800000000047e30e8 s t := by
  have h := Kept.same 0x800000000047e30e8 s
  have hm := Nat.and_self 0x800000000047e30e8
  refine next_kept e ?_
  repeat' first
    | (with_reducible first | assumption | exact mask_sub hm rfl | apply dxCompute_kept)
    | intro _
    | dsimp only

theorem execSra_kept {s t : State} {a1} (e : execSra a1 s = .next t) : Kept 0x800000000047e30e8 s t := by
  have h := Kept.same 0x800000000047e30e8 s
  have hm := Nat.and_self 0x800000000047e30e8
  refine next_kept e ?_
  repeat' first
    | (with_reducible first | assumption | exact mask_sub hm rfl | apply dxCompute_kept)
    | intro _
    | dsimp only

theorem execSlt_kept {s t : State} {a1} (e : execSlt a1 s = .next t) : Kept 0x800000000047e30e8 s t := by
  have h := Kept.same 0x800000000047e30e8 s
  have hm := Nat.and_self 0x800000000047e30e8
  refine next_kept e ?_
  repeat' first
    | (with_reducible first | assumption | exact mask_sub hm rfl | apply dxCompute_kept)
    | intro _
    | dsimp only

theorem execSltu_kept {s t : State} {a1} (e : execSltu a1 s = .next t) : Kept 0x800000000047e30e8 s t := by
  have h := Kept.same 0x800000000047e30e8 s
  have hm := Nat.and_self 0x800000000047e30e8
  refine next_kept e ?_
  repeat' first
    | (with_reducible first | assumption | exact mask_sub hm rfl | apply dxCompute_kept)
    | intro _
    | dsimp only

theorem execMul_kept {s t : State} {a1} (e : execMul a1 s = .next t) : Kept 0x800000000047e30e8 s t := by
  have h := Kept.same 0x800000000047e30e8 s
  have hm := Nat.and_self 0x800000000047e30e8
  refine next_kept e ?_
  repeat' first
    | (with_reducible first | assumption | exact mask_sub hm rfl | apply dxCompute_kept)
    | intro _
    | dsimp only

theorem execMulh_kept {s t : State} {a1} (e : execMulh a1 s = .next t) : Kept 0x800000000047e30e8 s t := by
  have h := Kept.same 0x800000000047e30e8 s
  have hm := Nat.and_self 0x800000000047e30e8
  refine next_kept e ?_
  repeat' first
    | (with_reducible first | assumption | exact mask_sub hm rfl | apply dxCompute_kept)
    | intro _
    | dsimp only

theorem execMulhu_kept {s t : State} {a1} (e : execMulhu a1 s = .next t) : Kept 0x800000000047e30e8 s t := by
  have h := Kept.same 0x800000000047e30e8 s
  have hm := Nat.and_self 0x800000000047e30e8
  refine next_kept e ?_
  repeat' first
    | (with_reducible first | assumption | exact mask_sub hm rfl | apply dxCompute_kept)
    | intro _
    | dsimp only

theorem execDiv_kept {s t : State} {a1} (e : execDiv a1 s = .next t) : Kept 0x800000000047e30e8 s t := by
  have h := Kept.same 0x800000000047e30e8 s
  have hm := Nat.and_self 0x800000000047e30e8
  refine next_kept e ?_
  repeat' first
    | (with_reducible first | assumption | exact mask_sub hm rfl | apply dxCompute_kept)
    | intro _
    | dsimp only

theorem execDivu_kept {s t : State} {a1} (e : execDivu a1 s = .next t) : Kept 0x800000000047e30e8 s t := by
  have h := Kept.same 0x800000000047e30e8 s
  have hm := Nat.and_self 0x800000000047e30e8
  refine next_kept e ?_
  repeat' first
    | (with_reducible first | assumption | exact mask_sub hm rfl | apply dxCompute_kept)
    | intro _
    | dsimp only

theorem execRem_kept {s t : State} {a1} (e : execRem a1 s = .next t) : Kept 0x800000000047e30e8 s t := by
  have h := Kept.same 0x800000000047e30e8 s
  have hm := Nat.and_self 0x800000000047e30e8
  refine next_kept e ?_
  repeat' first
    | (with_reducible first | assumption | exact mask_sub hm rfl | apply dxCompute_kept)
    | intro _
    | dsimp only

theorem execRemu_kept {s t : State} {a1} (e : execRemu a1 s = .next t) : Kept 0x800000000047e30e8 s t := by
  have h := Kept.same 0x800000000047e30e8 s
  have hm := Nat.and_self 0x800000000047e30e8
  refine next_kept e ?_
  repeat' first
    | (with_reducible first | assumption | exact mask_sub hm rfl | apply dxCompute_kept)
    | intro _
    | dsimp only

theorem execAddw_kept {s t : State} {a1} (e : execAddw a1 s = .next t) : Kept 0x800000000047e30e8 s t := by
  have h := Kept.same 0x800000000047e30e8 s
  have hm := Nat.and_self 0x800000000047e30e8
  refine next_kept e ?_
  repeat' first
    | (with_reducible first | assumption | exact mask_sub hm rfl | apply dxCompute_kept)
    | intro _
    | dsimp only

theorem execClz_kept {s t : State} {a1} (e : execClz a1 s = .next t) : Kept 0x800000000047e30e8 s t := by
  have h := Kept.same 0x800000000047e30e8 s
  have hm := Nat.and_self 0x800000000047e30e8
  refine next_kept e ?_
  repeat' first
    | (with_reducible first | assumption | exact mask_sub hm rfl | apply dxCompute_kept)
    | intro _
    | dsimp only

theorem execAddi_kept {s t : State} {a1} (e : execAddi a1 s = .next t) : Kept 0x800000000047e30e8 s t := by
  have h := Kept.same 0x800000000047e30e8 s
  have hm := Nat.and_self 0x800000000047e30e8
  refine next_kept e ?_
  repeat' first
    | (with_reducible first | assumption | exact mask_sub hm rfl | apply dxCompute_kept)
    | intro _
    | dsimp only

theorem execAndi_kept {s t : State} {a1} (e : execAndi a1 s = .next t) : Kept 0x800000000047e30e8 s t := by
  have h := Kept.same 0x800000000047e30e8 s
  have hm := Nat.and_self 0x800000000047e30e8
  refine next_kept e ?_
  repeat' first
    | (with_reducible first | assumption | exact mask_sub hm rfl | apply dxCompute_kept)
    | intro _
    | dsimp only

theorem execOri_kept {s t : State} {a1} (e : execOri a1 s = .next t) : Kept 0x800000000047e30e8 s t := by
  have h := Kept.same 0x800000000047e30e8 s
  have hm := Nat.and_self 0x800000000047e30e8
  refine next_kept e ?_
  repeat' first
    | (with_reducible first | assumption | exact mask_sub hm rfl | apply dxCompute_kept)
    | intro _
    | dsimp only

theorem execXori_kept {s t : State} {a1} (e : execXori a1 s = .next t) : Kept 0x800000000047e30e8 s t := by
  have h := Kept.same 0x800000000047e30e8 s
  have hm := Nat.and_self 0x800000000047e30e8
  refine next_kept e ?_
  repeat' first
    | (with_reducible first | assumption | exact mask_sub hm rfl | apply dxCompute_kept)
    | intro _
    | dsimp only

theorem execSlli_kept {s t : State} {a1} (e : execSlli a1 s = .next t) : Kept 0x800000000047e30e8 s t := by
  have h := Kept.same 0x800000000047e30e8 s
  have hm := Nat.and_self 0x800000000047e30e8
  refine next_kept e ?_
  repeat' first
    | (with_reducible first | assumption | exact mask_sub hm rfl | apply dxCompute_kept)
    | intro _
    | dsimp only

theorem execSrli_kept {s t : State} {a1} (e : execSrli a1 s = .next t) : Kept 0x800000000047e30e8 s t := by
  have h := Kept.same 0x800000000047e30e8 s
  have hm := Nat.and_self 0x800000000047e30e8
  refine next_kept e ?_
  repeat' first
    | (with_reducible first | assumption | exact mask_sub hm rfl | apply dxCompute_kept)
    | intro _
    | dsimp only

theorem execSrai_kept {s t : State} {a1} (e : execSrai a1 s = .next t) : Kept 0x800000000047e30e8 s t := by
  have h := Kept.same 0x800000000047e30e8 s
  have hm := Nat.and_self 0x800000000047e30e8
  refine next_kept e ?_
  repeat' first
    | (with_reducible first | assumption | exact mask_sub hm rfl | apply dxCompute_kept)
    | intro _
    | dsimp only

theorem execSlti_kept {s t : State} {a1} (e : execSlti a1 s = .next t) : Kept 0x800000000047e30e8 s t := by
  have h := Kept.same 0x800000000047e30e8 s
  have hm := Nat.and_self 0x800000000047e30e8
  refine next_kept e ?_
  repeat' first
    | (with_reducible first | assumption | exact mask_sub hm rfl | apply dxCompute_kept)
    | intro _
    | dsimp only

theorem execSltiu_kept {s t : State} {a1} (e : execSltiu a1 s = .next t) : Kept 0x800000000047e30e8 s t := by
  have h := Kept.same 0x800000000047e30e8 s
  have hm := Nat.and_self 0x800000000047e30e8
  refine next_kept e ?_
  repeat' first
    | (with_reducible first | assumption | exact mask_sub hm rfl | apply dxCompute_kept)
    | intro _
    | dsimp only

theorem execAddiw_kept {s t : State} {a1} (e : execAddiw a1 s = .next t) : Kept 0x800000000047e30e8 s t := by
  have h := Kept.same 0x800000000047e30e8 s
  have hm := Nat.and_self 0x800000000047e30e8
  refine next_kept e ?_
  repeat' first
    | (with_reducible first | assumption | exact mask_sub hm rfl | apply dxCompute_kept)
    | intro _
    | dsimp only

theorem execLui_kept {s t : State} {a1} (e : execLui a1 s = .next t) : Kept 0x800000000047e30e8 s t := by
  have h := Kept.same 0x800000000047e30e8 s
  have hm := Nat.and_self 0x800000000047e30e8
  refine next_kept e ?_
  repeat' first
    | (with_reducible first | assumption | exact mask_sub hm rfl | apply dxCompute_kept)
    | intro _
    | dsimp only

theorem execAuipc_kept {s t : State} {a1} (e : execAuipc a1 s = .next t) : Kept 0x800000000047e30e8 s t := by
  have h := Kept.same 0x800000000047e30e8 s
  have hm := Nat.and_self 0x800000000047e30e8
  refine next_kept e ?_
  repeat' first
    | (with_reducible first | assumption | exact mask_sub hm rfl | apply dxCompute_kept)
    | intro _
    | dsimp only

theorem execLb_kept {s t : State} {a1} (e : execLb a1 s = .next t) : Kept 0x8000000000d7ff0e8 s t := by
  have h := Kept.same 0x8000000000d7ff0e8 s
  have hm := Nat.and_self 0x8000000000d7ff0e8
  refine next_kept e ?_
  repeat' first
    | (with_reducible first | assumption | exact mask_sub hm rfl | apply issue_kept | apply dxLoadInto_kept | refine dxLoadInto_keq (by assumption) ?_ ?_)
    | intro _
    | dsimp only

theorem execLbu_kept {s t : State} {a1} (e : execLbu a1 s = .next t) : Kept 0x8000000000d7ff0e8 s t := by
  have h := Kept.same 0x8000000000d7ff0e8 s
  have hm := Nat.and_self 0x8000000000d7ff0e8
  refine next_kept e ?_
  repeat' first
    | (with_reducible first | assumption | exact mask_sub hm rfl | apply issue_kept | apply dxLoadInto_kept | refine dxLoadInto_keq (by assumption) ?_ ?_)
    | intro _
    | dsimp only

theorem execLh_kept {s t : State} {a1} (e : execLh a1 s = .next t) : Kept 0x8000000000d7ff0e8 s t := by
  have h := Kept.same 0x8000000000d7ff0e8 s
  have hm := Nat.and_self 0x8000000000d7ff0e8
  refine next_kept e ?_
  repeat' first
    | (with_reducible first | assumption | exact mask_sub hm rfl | apply issue_kept | apply dxLoadInto_kept | refine dxLoadInto_keq (by assumption) ?_ ?_)
    | intro _
    | dsimp only

theorem execLhu_kept {s t : State} {a1} (e : execLhu a1 s = .next t) : Kept 0x8000000000d7ff0e8 s t := by
  have h := Kept.same 0x8000000000d7ff0e8 s
  have hm := Nat.and_self 0x8000000000d7ff0e8
  refine next_kept e ?_
  repeat' first
    | (with_reducible first | assumption | exact mask_sub hm rfl | apply issue_kept | apply dxLoadInto_kept | refine dxLoadInto_keq (by assumption) ?_ ?_)
    | intro _
    | dsimp only

theorem execLw_kept {s t : State} {a1} (e : execLw a1 s = .next t) : Kept 0x8000000000d7ff0e8 s t := by
  have h := Kept.same 0x8000000000d7ff0e8 s
  have hm := Nat.and_self 0x8000000000d7ff0e8
  refine next_kept e ?_
  repeat' first
    | (with_reducible first | assumption | exact mask_sub hm rfl | apply issue_kept | apply dxLoadInto_kept | refine dxLoadInto_keq (by assumption) ?_ ?_)
    | intro _
    | dsimp only

theorem execLwu_kept {s t : State} {a1} (e : execLwu a1 s = .next t) : Kept 0x8000000000d7ff0e8 s t := by
  have h := Kept.same 0x8000000000d7ff0e8 s
  have hm := Nat.and_self 0x8000000000d7ff0e8
  refine next_kept e ?_
  repeat' first
    | (with_reducible first | assumption | exact mask_sub hm rfl | apply issue_kept | apply dxLoadInto_kept | refine dxLoadInto_keq (by assumption) ?_ ?_)
    | intro _
    | dsimp only

theorem execLd_kept {s t : State} {a1} (e : execLd a1 s = .next t) : Kept 0x8000000000d7ff0e8 s t := by
  have h := Kept.same 0x8000000000d7ff0e8 s
  have hm := Nat.and_self 0x8000000000d7ff0e8
  refine next_kept e ?_
  repeat' first
    | (with_reducible first | assumption | exact mask_sub hm rfl | apply issue_kept | apply dxLoadInto_kept | refine dxLoadInto_keq (by assumption) ?_ ?_)
    | intro _
    | dsimp only

theorem execLdaq_kept {s t : State} {a1} (e : execLdaq a1 s = .next t) : Kept 0x8000000000d7ff0e8 s t := by
  have h := Kept.same 0x8000000000d7ff0e8 s
  have hm := Nat.and_self 0x8000000000d7ff0e8
  refine next_kept e ?_
  repeat' first
    | (with_reducible first | assumption | exact mask_sub hm rfl | apply issue_kept | apply dxLoadInto_kept | refine dxLoadInto_keq (by assumption) ?_ ?_)
    | intro _
    | dsimp only

theorem execSb_kept {s t : State} {a1} (e : execSb a1 s = .next t) : Kept 0x1fffffffffffffffff s t := by
  have h := Kept.same 0x1fffffffffffffffff s
  have hm := Nat.and_self 0x1fffffffffffffffff
  refine next_kept e ?_
  repeat' first
    | (with_reducible first | assumption | exact mask_sub hm rfl | apply issue_kept | apply dxStore_kept | refine dxStore_keq (by assumption) ?_ ?_)
    | intro _
    | dsimp only

theorem execSh_kept {s t : State} {a1} (e : execSh a1 s = .next t) : Kept 0x1fffffffffffffffff s t := by
  have h := Kept.same 0x1fffffffffffffffff s
  have hm := Nat.and_self 0x1fffffffffffffffff
  refine next_kept e ?_
  repeat' first
    | (with_reducible first | assumption | exact mask_sub hm rfl | apply issue_kept | apply dxStore_kept | refine dxStore_keq (by assumption) ?_ ?_)
    | intro _
    | dsimp only

theorem execSw_kept {s t : State} {a1} (e : execSw a1 s = .next t) : Kept 0x1fffffffffffffffff s t := by
  have h := Kept.same 0x1fffffffffffffffff s
  have hm := Nat.and_self 0x1fffffffffffffffff
  refine next_kept e ?_
  repeat' first
    | (with_reducible first | assumption | exact mask_sub hm rfl | apply issue_kept | apply dxStore_kept | refine dxStore_keq (by assumption) ?_ ?_)
    | intro _
    | dsimp only

theorem execSd_kept {s t : State} {a1} (e : execSd a1 s = .next t) : Kept 0x1fffffffffffffffff s t := by
  have h := Kept.same 0x1fffffffffffffffff s
  have hm := Nat.and_self 0x1fffffffffffffffff
  refine next_kept e ?_
  repeat' first
    | (with_reducible first | assumption | exact mask_sub hm rfl | apply issue_kept | apply dxStore_kept | refine dxStore_keq (by assumption) ?_ ?_)
    | intro _
    | dsimp only

theorem execStrl_kept {s t : State} {a1} (e : execStrl a1 s = .next t) : Kept 0x1fffffffffffffffff s t := by
  have h := Kept.same 0x1fffffffffffffffff s
  have hm := Nat.and_self 0x1fffffffffffffffff
  refine next_kept e ?_
  repeat' first
    | (with_reducible first | assumption | exact mask_sub hm rfl | apply issue_kept | apply dxStore_kept | refine dxStore_keq (by assumption) ?_ ?_)
    | intro _
    | dsimp only

theorem dxBranch_kept {m : Nat} {og s : State} (h : Kept m og s) (hm : 0x800000000047e30e8 &&& m = 0x800000000047e30e8) : ∀ a2 a3 a4, Kept m og (dxBranch s a2 a3 a4) := by
  intro a2 a3 a4
  unfold dxBranch
  repeat' first
    | (with_reducible first | assumption | exact mask_sub hm rfl | apply issue_kept | apply retireAt_kept)
    | intro _
    | dsimp only
    | exact zero_put _ _ (by assumption)
    | exact fun _ k => k
    | split
    | dsimp only [id]

theorem execBeq_kept {s t : State} {a1} (e : execBeq a1 s = .next t) : Kept 0x800000000047e30e8 s t := by
  have h := Kept.same 0x800000000047e30e8 s
  have hm := Nat.and_self 0x800000000047e30e8
  refine next_kept e ?_
  repeat' first
    | (with_reducible first | assumption | exact mask_sub hm rfl | apply dxBranch_kept)
    | intro _
    | dsimp only

theorem execBne_kept {s t : State} {a1} (e : execBne a1 s = .next t) : Kept 0x800000000047e30e8 s t := by
  have h := Kept.same 0x800000000047e30e8 s
  have hm := Nat.and_self 0x800000000047e30e8
  refine next_kept e ?_
  repeat' first
    | (with_reducible first | assumption | exact mask_sub hm rfl | apply dxBranch_kept)
    | intro _
    | dsimp only

theorem execBlt_kept {s t : State} {a1} (e : execBlt a1 s = .next t) : Kept 0x800000000047e30e8 s t := by
  have h := Kept.same 0x800000000047e30e8 s
  have hm := Nat.and_self 0x800000000047e30e8
  refine next_kept e ?_
  repeat' first
    | (with_reducible first | assumption | exact mask_sub hm rfl | apply dxBranch_kept)
    | intro _
    | dsimp only

theorem execBge_kept {s t : State} {a1} (e : execBge a1 s = .next t) : Kept 0x800000000047e30e8 s t := by
  have h := Kept.same 0x800000000047e30e8 s
  have hm := Nat.and_self 0x800000000047e30e8
  refine next_kept e ?_
  repeat' first
    | (with_reducible first | assumption | exact mask_sub hm rfl | apply dxBranch_kept)
    | intro _
    | dsimp only

theorem execBltu_kept {s t : State} {a1} (e : execBltu a1 s = .next t) : Kept 0x800000000047e30e8 s t := by
  have h := Kept.same 0x800000000047e30e8 s
  have hm := Nat.and_self 0x800000000047e30e8
  refine next_kept e ?_
  repeat' first
    | (with_reducible first | assumption | exact mask_sub hm rfl | apply dxBranch_kept)
    | intro _
    | dsimp only

theorem execBgeu_kept {s t : State} {a1} (e : execBgeu a1 s = .next t) : Kept 0x800000000047e30e8 s t := by
  have h := Kept.same 0x800000000047e30e8 s
  have hm := Nat.and_self 0x800000000047e30e8
  refine next_kept e ?_
  repeat' first
    | (with_reducible first | assumption | exact mask_sub hm rfl | apply dxBranch_kept)
    | intro _
    | dsimp only

theorem execJal_kept {s t : State} {a1} (e : execJal a1 s = .next t) : Kept 0x800000000047e30e8 s t := by
  have h := Kept.same 0x800000000047e30e8 s
  have hm := Nat.and_self 0x800000000047e30e8
  refine next_kept e ?_
  repeat' first
    | (with_reducible first | assumption | exact mask_sub hm rfl | apply issue_kept | apply retireAt_kept)
    | intro _
    | dsimp only
    | exact zero_put _ _ (by assumption)

theorem execJalr_kept {s t : State} {a1} (e : execJalr a1 s = .next t) : Kept 0x800000000047e30e8 s t := by
  have h := Kept.same 0x800000000047e30e8 s
  have hm := Nat.and_self 0x800000000047e30e8
  refine next_kept e ?_
  repeat' first
    | (with_reducible first | assumption | exact mask_sub hm rfl | apply issue_kept | apply retireAt_kept)
    | intro _
    | dsimp only
    | exact zero_put _ _ (by assumption)
    | split

theorem execLr_kept {s t : State} {a1} (e : execLr a1 s = .next t) : Kept 0x800000000047e30e8 s t := by
  have h := Kept.same 0x800000000047e30e8 s
  have hm := Nat.and_self 0x800000000047e30e8
  refine next_kept e ?_
  repeat' first
    | (with_reducible first | assumption | exact mask_sub hm rfl | apply issue_kept | apply atomicRead_kept | refine atomicRead_keq (by assumption) ?_ ?_ | apply modCore_kept | apply retire_kept)
    | intro _
    | dsimp only
    | exact zero_put _ _ (by assumption)
    | split

theorem execSc_kept {s t : State} {a1} (e : execSc a1 s = .next t) : Kept 0x800000000057e30e8 s t := by
  have h := Kept.same 0x800000000057e30e8 s
  have hm := Nat.and_self 0x800000000057e30e8
  refine next_kept e ?_
  repeat' first
    | (with_reducible first | assumption | exact mask_sub hm rfl | apply issue_kept | apply retire_kept | refine coreWrite_keq (by assumption) ?_ ?_ | apply modCore_kept)
    | intro _
    | dsimp only
    | exact zero_put _ _ (by assumption)
    | split

theorem execAmoadd_kept {s t : State} {a1} (e : execAmoadd a1 s = .next t) : Kept 0x800000000057e30e8 s t := by
  have h := Kept.same 0x800000000057e30e8 s
  have hm := Nat.and_self 0x800000000057e30e8
  refine next_kept e ?_
  repeat' first
    | (with_reducible first | assumption | exact mask_sub hm rfl | apply issue_kept | apply dxAmo_kept | refine dxAmo_keq (by assumption) ?_ ?_)
    | intro _
    | dsimp only

theorem execAmoswap_kept {s t : State} {a1} (e : execAmoswap a1 s = .next t) : Kept 0x800000000057e30e8 s t := by
  have h := Kept.same 0x800000000057e30e8 s
  have hm := Nat.and_self 0x800000000057e30e8
  refine next_kept e ?_
  repeat' first
    | (with_reducible first | assumption | exact mask_sub hm rfl | apply issue_kept | apply dxAmo_kept | refine dxAmo_keq (by assumption) ?_ ?_)
    | intro _
    | dsimp only

theorem execAmoand_kept {s t : State} {a1} (e : execAmoand a1 s = .next t) : Kept 0x800000000057e30e8 s t := by
  have h := Kept.same 0x800000000057e30e8 s
  have hm := Nat.and_self 0x800000000057e30e8
  refine next_kept e ?_
  repeat' first
    | (with_reducible first | assumption | exact mask_sub hm rfl | apply issue_kept | apply dxAmo_kept | refine dxAmo_keq (by assumption) ?_ ?_)
    | intro _
    | dsimp only

theorem execAmoor_kept {s t : State} {a1} (e : execAmoor a1 s = .next t) : Kept 0x800000000057e30e8 s t := by
  have h := Kept.same 0x800000000057e30e8 s
  have hm := Nat.and_self 0x800000000057e30e8
  refine next_kept e ?_
  repeat' first
    | (with_reducible first | assumption | exact mask_sub hm rfl | apply issue_kept | apply dxAmo_kept | refine dxAmo_keq (by assumption) ?_ ?_)
    | intro _
    | dsimp only

theorem execCas_kept {s t : State} {a1} (e : execCas a1 s = .next t) : Kept 0x800000000057e30e8 s t := by
  have h := Kept.same 0x800000000057e30e8 s
  have hm := Nat.and_self 0x800000000057e30e8
  refine next_kept e ?_
  repeat' first
    | (with_reducible first | assumption | exact mask_sub hm rfl | apply issue_kept | apply dxAmo_kept | refine dxAmo_keq (by assumption) ?_ ?_)
    | intro _
    | dsimp only
    | split

theorem execFence_kept {s t : State} {a1} (e : execFence a1 s = .next t) : Kept 0x800000000047e30e8 s t := by
  have h := Kept.same 0x800000000047e30e8 s
  have hm := Nat.and_self 0x800000000047e30e8
  refine next_kept e ?_
  repeat' first
    | (with_reducible first | assumption | exact mask_sub hm rfl | apply issue_kept | apply retire_kept)
    | intro _
    | dsimp only

end Machine
end Sys2Proof
end

