-- ==== Sys2Proof/Laws/KeptCoreSys.lean ====
section
/-! SUPPORT. What the operations of Machine/CoreSys.lean keep (Laws/Keeps.lean). -/

namespace Sys2Proof
namespace Machine

theorem execEcall_kept {s t : State} {a1} (e : execEcall a1 s = .next t) : Kept 0x800000000047e30e8 s t := by
  have h := Kept.same 0x800000000047e30e8 s
  have hm := Nat.and_self 0x800000000047e30e8
  refine next_kept e ?_
  repeat' first
    | (with_reducible first | assumption | exact mask_sub hm rfl | apply issue_kept)
    | intro _
    | dsimp only
    | split

theorem execEbreak_kept {s t : State} {a1} (e : execEbreak a1 s = .next t) : Kept 0x800000000047e30e8 s t := by
  have h := Kept.same 0x800000000047e30e8 s
  have hm := Nat.and_self 0x800000000047e30e8
  refine next_kept e ?_
  repeat' first
    | (with_reducible first | assumption | exact mask_sub hm rfl | apply issue_kept)
    | intro _
    | dsimp only

theorem execSret_kept {s t : State} {a1} (e : execSret a1 s = .next t) : Kept 0x800000000047e30e8 s t := by
  have h := Kept.same 0x800000000047e30e8 s
  have hm := Nat.and_self 0x800000000047e30e8
  refine next_kept e ?_
  repeat' first
    | (with_reducible first | assumption | exact mask_sub hm rfl | apply issue_kept | apply modCore_kept | apply retire_kept)
    | intro _
    | dsimp only
    | exact zero_put _ _ (by assumption)
    | (unfold sretCore; assumption)

theorem execIllegalInstr_kept {s t : State} {a1} (e : execIllegalInstr a1 s = .next t) : Kept 0x800000000047e30e8 s t := by
  have h := Kept.same 0x800000000047e30e8 s
  have hm := Nat.and_self 0x800000000047e30e8
  refine next_kept e ?_
  repeat' first
    | (with_reducible first | assumption | exact mask_sub hm rfl | apply issue_kept)
    | intro _
    | dsimp only

theorem csrPut_zero {c : Core} (v : Variant) (n : Nat) (x : DWord) (h : (c.x)[0] = 0) : ((csrPut v n x c).x)[0] = 0 := by
  unfold csrPut
  split <;> exact h

theorem dxCsr_kept {m : Nat} {og s : State} (h : Kept m og s) (hm : 0x800000000047e30e8 &&& m = 0x800000000047e30e8) (p : Fin 4) (op : Nat)
    (f : Nat → DWord → DWord → Core → Core) (hf : ∀ n a b c, (c.x)[0] = 0 → ((f n a b c).x)[0] = 0) :
    Kept m og (dxCsr s p op f) := by
  unfold dxCsr
  refine issue_kept h (mask_sub hm rfl) _ _ _ ?_
  intro t w k
  exact modCore_kept (retire_kept k (mask_sub hm rfl) _ _ _) (mask_sub hm rfl) _ _ (hf _ _ _)

theorem execCsrr_kept {s t : State} {a1} (e : execCsrr a1 s = .next t) : Kept 0x800000000047e30e8 s t := by
  have h := Kept.same 0x800000000047e30e8 s
  have hm := Nat.and_self 0x800000000047e30e8
  refine next_kept e ?_
  repeat' first
    | (with_reducible first | assumption | exact mask_sub hm rfl | apply dxCsr_kept)
    | intro _
    | dsimp only
    | exact zero_put _ _ (by assumption)

theorem execCsrw_kept {s t : State} {a1} (e : execCsrw a1 s = .next t) : Kept 0x800000000047e30e8 s t := by
  have h := Kept.same 0x800000000047e30e8 s
  have hm := Nat.and_self 0x800000000047e30e8
  refine next_kept e ?_
  repeat' first
    | (with_reducible first | assumption | exact mask_sub hm rfl | apply dxCsr_kept)
    | intro _
    | dsimp only
    | exact zero_put _ _ (by assumption)
    | exact csrPut_zero _ _ _ (by assumption)
    | split

theorem execCsrs_kept {s t : State} {a1} (e : execCsrs a1 s = .next t) : Kept 0x800000000047e30e8 s t := by
  have h := Kept.same 0x800000000047e30e8 s
  have hm := Nat.and_self 0x800000000047e30e8
  refine next_kept e ?_
  repeat' first
    | (with_reducible first | assumption | exact mask_sub hm rfl | apply dxCsr_kept)
    | intro _
    | dsimp only
    | exact zero_put _ _ (by assumption)
    | exact csrPut_zero _ _ _ (by assumption)

theorem execCsrc_kept {s t : State} {a1} (e : execCsrc a1 s = .next t) : Kept 0x800000000047e30e8 s t := by
  have h := Kept.same 0x800000000047e30e8 s
  have hm := Nat.and_self 0x800000000047e30e8
  refine next_kept e ?_
  repeat' first
    | (with_reducible first | assumption | exact mask_sub hm rfl | apply dxCsr_kept)
    | intro _
    | dsimp only
    | exact zero_put _ _ (by assumption)
    | exact csrPut_zero _ _ _ (by assumption)

theorem execRdtime_kept {s t : State} {a1} (e : execRdtime a1 s = .next t) : Kept 0x800000000047e30e8 s t := by
  have h := Kept.same 0x800000000047e30e8 s
  have hm := Nat.and_self 0x800000000047e30e8
  refine next_kept e ?_
  repeat' first
    | (with_reducible first | assumption | exact mask_sub hm rfl | apply issue_kept | apply retire_kept)
    | intro _
    | dsimp only

theorem postEffect_kept {m : Nat} {og s : State} (h : Kept m og s) (hm : 0xe145001dcfd7e32e8 &&& m = 0xe145001dcfd7e32e8) : ∀ a2 a3, Kept m og (postEffect s a2 a3) := by
  intro a2 a3
  unfold postEffect
  extract_lets +onlyGivenNames n
  try clear_value n
  repeat' first
    | (with_reducible first | assumption | exact mask_sub hm rfl | apply attach_kept | apply flashStart_kept | apply wr_kept)
    | intro _
    | dsimp only
    | split
    | (with_reducible first | apply kept_pins)

theorem postDeny_kept {m : Nat} {og s : State} (h : Kept m og s) (hm : 0x8 &&& m = 0x8) : ∀ a2 a3 a4 a5, Kept m og (postDeny s a2 a3 a4 a5) := by
  intro a2 a3 a4 a5
  unfold postDeny
  repeat' first
    | (with_reducible first | assumption | exact mask_sub hm rfl | apply permitDeny_kept)
    | intro _
    | dsimp only
    | split

theorem postXing_kept {m : Nat} {og s : State} (h : Kept m og s) (hm : 0xe145001dcfd7e32e8 &&& m = 0xe145001dcfd7e32e8) : ∀ a2 a3 a4 a5, Kept m og (postXing s a2 a3 a4 a5) := by
  intro a2 a3 a4 a5
  unfold postXing
  extract_lets +onlyGivenNames status
  try clear_value status
  repeat' first
    | (with_reducible first | assumption | exact mask_sub hm rfl | apply postEnd_kept | apply postDeny_kept | apply modCore_kept | apply postEffect_kept)
    | intro _
    | dsimp only
    | exact zero_put _ _ (by assumption)
    | split

theorem dxPost_kept {m : Nat} {og s : State} (h : Kept m og s) (hm : 0xe145001dcfd7e32e8 &&& m = 0xe145001dcfd7e32e8) : ∀ a2 a3, Kept m og (dxPost s a2 a3) := by
  intro a2 a3
  unfold dxPost
  repeat' first
    | (with_reducible first | assumption | exact mask_sub hm rfl | apply issue_kept | apply postEnd_kept | apply modCore_kept | apply postXing_kept)
    | intro _
    | dsimp only
    | exact zero_put _ _ (by assumption)
    | split

theorem execPostDoorbell_kept {s t : State} {a1} (e : execPostDoorbell a1 s = .next t) : Kept 0xe145001dcfd7e32e8 s t := by
  have h := Kept.same 0xe145001dcfd7e32e8 s
  have hm := Nat.and_self 0xe145001dcfd7e32e8
  refine next_kept e ?_
  repeat' first
    | (with_reducible first | assumption | exact mask_sub hm rfl | apply dxPost_kept)
    | intro _
    | dsimp only

theorem execPostUsb2Attach_kept {s t : State} {a1} (e : execPostUsb2Attach a1 s = .next t) : Kept 0xe145001dcfd7e32e8 s t := by
  have h := Kept.same 0xe145001dcfd7e32e8 s
  have hm := Nat.and_self 0xe145001dcfd7e32e8
  refine next_kept e ?_
  repeat' first
    | (with_reducible first | assumption | exact mask_sub hm rfl | apply dxPost_kept)
    | intro _
    | dsimp only

theorem execPostFlash_kept {s t : State} {a1} (e : execPostFlash a1 s = .next t) : Kept 0xe145001dcfd7e32e8 s t := by
  have h := Kept.same 0xe145001dcfd7e32e8 s
  have hm := Nat.and_self 0xe145001dcfd7e32e8
  refine next_kept e ?_
  repeat' first
    | (with_reducible first | assumption | exact mask_sub hm rfl | apply dxPost_kept)
    | intro _
    | dsimp only

theorem execPostKerbWord_kept {s t : State} {a1} (e : execPostKerbWord a1 s = .next t) : Kept 0xe145001dcfd7e32e8 s t := by
  have h := Kept.same 0xe145001dcfd7e32e8 s
  have hm := Nat.and_self 0xe145001dcfd7e32e8
  refine next_kept e ?_
  repeat' first
    | (with_reducible first | assumption | exact mask_sub hm rfl | apply dxPost_kept)
    | intro _
    | dsimp only

theorem execPostSmbusAlert_kept {s t : State} {a1} (e : execPostSmbusAlert a1 s = .next t) : Kept 0xe145001dcfd7e32e8 s t := by
  have h := Kept.same 0xe145001dcfd7e32e8 s
  have hm := Nat.and_self 0xe145001dcfd7e32e8
  refine next_kept e ?_
  repeat' first
    | (with_reducible first | assumption | exact mask_sub hm rfl | apply dxPost_kept)
    | intro _
    | dsimp only

theorem execPostTimerPwm_kept {s t : State} {a1} (e : execPostTimerPwm a1 s = .next t) : Kept 0xe145001dcfd7e32e8 s t := by
  have h := Kept.same 0xe145001dcfd7e32e8 s
  have hm := Nat.and_self 0xe145001dcfd7e32e8
  refine next_kept e ?_
  repeat' first
    | (with_reducible first | assumption | exact mask_sub hm rfl | apply dxPost_kept)
    | intro _
    | dsimp only

theorem execPostAccepted_kept {s t : State} {a1} (e : execPostAccepted a1 s = .next t) : Kept 0xe145001dcfd7e32e8 s t := by
  have h := Kept.same 0xe145001dcfd7e32e8 s
  have hm := Nat.and_self 0xe145001dcfd7e32e8
  refine next_kept e ?_
  repeat' first
    | (with_reducible first | assumption | exact mask_sub hm rfl | apply postXing_kept | apply modCore_kept)
    | intro _
    | dsimp only
    | exact zero_put _ _ (by assumption)
    | split

theorem execTake_kept {s t : State} {a1} (e : execTake a1 s = .next t) : Kept 0x8000000000d7f30e8 s t := by
  have h := Kept.same 0x8000000000d7f30e8 s
  have hm := Nat.and_self 0x8000000000d7f30e8
  refine next_kept e ?_
  repeat' first
    | (with_reducible first | assumption | exact mask_sub hm rfl | apply issue_kept | apply fifoPop_kept | refine fifoPop_keq (by assumption) ?_ ?_ | apply retire_kept | refine coreWrite_keq (by assumption) ?_ ?_)
    | intro _
    | dsimp only
    | (with_reducible first | apply getD_kept)
    | split

theorem execWait_kept {s t : State} {a1} (e : execWait a1 s = .next t) : Kept 0x800000000047e30e8 s t := by
  have h := Kept.same 0x800000000047e30e8 s
  have hm := Nat.and_self 0x800000000047e30e8
  refine next_kept e ?_
  repeat' first
    | (with_reducible first | assumption | exact mask_sub hm rfl | apply issue_kept | apply retire_kept | apply modCore_kept)
    | intro _
    | dsimp only
    | exact zero_put _ _ (by assumption)
    | split

theorem timeTo_kept {m : Nat} {og s : State} (h : Kept m og s) (hm : 0x4 &&& m = 0x4) : ∀ a2, Kept m og (timeTo s a2) := by
  intro a2
  unfold timeTo
  repeat' first
    | (with_reducible first | assumption | exact mask_sub hm rfl)
    | intro _
    | dsimp only
    | split
    | (with_reducible first | apply kept_chipTime)

theorem execWaitWake_kept {s t : State} {a1} (e : execWaitWake a1 s = .next t) : Kept 0x80000000000003004 s t := by
  have h := Kept.same 0x80000000000003004 s
  have hm := Nat.and_self 0x80000000000003004
  refine next_kept e ?_
  repeat' first
    | (with_reducible first | assumption | exact mask_sub hm rfl | apply modCore_kept | apply retire_kept | apply timeTo_kept)
    | intro _
    | dsimp only
    | exact zero_put _ _ (by assumption)
    | split

theorem execInterruptEntry_kept {s t : State} {a1} (e : execInterruptEntry a1 s = .next t) : Kept 0x80000000000003000 s t := by
  have h := Kept.same 0x80000000000003000 s
  have hm := Nat.and_self 0x80000000000003000
  refine next_kept e ?_
  repeat' first
    | (with_reducible first | assumption | exact mask_sub hm rfl | apply interruptEntry_kept)
    | intro _
    | dsimp only
    | split

theorem execReservationExpire_kept {s t : State} {a1} (e : execReservationExpire a1 s = .next t) : Kept 0x80000000000000000 s t := by
  have h := Kept.same 0x80000000000000000 s
  have hm := Nat.and_self 0x80000000000000000
  refine next_kept e ?_
  repeat' first
    | (with_reducible first | assumption | exact mask_sub hm rfl | apply modCore_kept)
    | intro _
    | dsimp only
    | exact zero_put _ _ (by assumption)

theorem execTimecmpReached_kept {s t : State} {a1} (e : execTimecmpReached a1 s = .next t) : Kept 0x4 s t := by
  have h := Kept.same 0x4 s
  have hm := Nat.and_self 0x4
  refine next_kept e ?_
  repeat' first
    | (with_reducible first | assumption | exact mask_sub hm rfl | apply timeTo_kept)
    | intro _
    | dsimp only

theorem execCoreResetCmd_kept {s t : State} {a1 a2} (e : execCoreResetCmd a1 a2 s = .next t) : Kept 0x94000000000000088 s t := by
  have h := Kept.same 0x94000000000000088 s
  have hm := Nat.and_self 0x94000000000000088
  refine next_kept e ?_
  repeat' first
    | (with_reducible first | assumption | exact mask_sub hm rfl | apply reply_kept | apply coreResetOne_kept)
    | intro _
    | dsimp only

theorem execCoreRun_kept {s t : State} {a1 a2} (e : execCoreRun a1 a2 s = .next t) : Kept 0x80000000000000088 s t := by
  have h := Kept.same 0x80000000000000088 s
  have hm := Nat.and_self 0x80000000000000088
  refine next_kept e ?_
  repeat' first
    | (with_reducible first | assumption | exact mask_sub hm rfl | apply reply_kept | apply coreRunOne_kept)
    | intro _
    | dsimp only

theorem dxCmo_kept {m : Nat} {og s : State} (h : Kept m og s) (hm : 0x800000000047e30e8 &&& m = 0x800000000047e30e8) : ∀ a2 a3 f4, (∀ u0 u1, Kept m og u0 → Kept m og (f4 u0 u1)) → Kept m og (dxCmo s a2 a3 f4) := by
  intro a2 a3 f4 hf4
  unfold dxCmo
  repeat' first
    | (with_reducible first | assumption | exact mask_sub hm rfl | apply hf4 | apply issue_kept | apply count_kept | apply retire_kept)
    | intro _
    | dsimp only

theorem execL1iInvA_kept {s t : State} {a1} (e : execL1iInvA a1 s = .next t) : Kept 0x800000000047e30e8 s t := by
  have h := Kept.same 0x800000000047e30e8 s
  have hm := Nat.and_self 0x800000000047e30e8
  refine next_kept e ?_
  repeat' first
    | (with_reducible first | assumption | exact mask_sub hm rfl | apply dxCmo_kept | apply cmoL1Addr_kept)
    | intro _
    | dsimp only

theorem execL1iInvAll_kept {s t : State} {a1} (e : execL1iInvAll a1 s = .next t) : Kept 0x800000000047e30e8 s t := by
  have h := Kept.same 0x800000000047e30e8 s
  have hm := Nat.and_self 0x800000000047e30e8
  refine next_kept e ?_
  repeat' first
    | (with_reducible first | assumption | exact mask_sub hm rfl | apply dxCmo_kept | apply cmoL1All_kept)
    | intro _
    | dsimp only

theorem execL1dInvA_kept {s t : State} {a1} (e : execL1dInvA a1 s = .next t) : Kept 0x800000000047e30e8 s t := by
  have h := Kept.same 0x800000000047e30e8 s
  have hm := Nat.and_self 0x800000000047e30e8
  refine next_kept e ?_
  repeat' first
    | (with_reducible first | assumption | exact mask_sub hm rfl | apply dxCmo_kept | apply cmoL1Addr_kept)
    | intro _
    | dsimp only

theorem execL1dInvAll_kept {s t : State} {a1} (e : execL1dInvAll a1 s = .next t) : Kept 0x800000000047e30e8 s t := by
  have h := Kept.same 0x800000000047e30e8 s
  have hm := Nat.and_self 0x800000000047e30e8
  refine next_kept e ?_
  repeat' first
    | (with_reducible first | assumption | exact mask_sub hm rfl | apply dxCmo_kept | apply cmoL1All_kept)
    | intro _
    | dsimp only

theorem execArcCleanA_kept {s t : State} {a1} (e : execArcCleanA a1 s = .next t) : Kept 0x800000000047e30e8 s t := by
  have h := Kept.same 0x800000000047e30e8 s
  have hm := Nat.and_self 0x800000000047e30e8
  refine next_kept e ?_
  repeat' first
    | (with_reducible first | assumption | exact mask_sub hm rfl | apply dxCmo_kept | apply cmoArcClean_kept)
    | intro _
    | dsimp only

theorem execArcInvA_kept {s t : State} {a1} (e : execArcInvA a1 s = .next t) : Kept 0x800000000047e30e8 s t := by
  have h := Kept.same 0x800000000047e30e8 s
  have hm := Nat.and_self 0x800000000047e30e8
  refine next_kept e ?_
  repeat' first
    | (with_reducible first | assumption | exact mask_sub hm rfl | apply dxCmo_kept | apply cmoArcInv_kept)
    | intro _
    | dsimp only

theorem execArcFlushA_kept {s t : State} {a1} (e : execArcFlushA a1 s = .next t) : Kept 0x800000000047e30e8 s t := by
  have h := Kept.same 0x800000000047e30e8 s
  have hm := Nat.and_self 0x800000000047e30e8
  refine next_kept e ?_
  repeat' first
    | (with_reducible first | assumption | exact mask_sub hm rfl | apply dxCmo_kept | apply cmoArcFlush_kept)
    | intro _
    | dsimp only

theorem execArcCleanSw_kept {s t : State} {a1} (e : execArcCleanSw a1 s = .next t) : Kept 0x800000000047e30e8 s t := by
  have h := Kept.same 0x800000000047e30e8 s
  have hm := Nat.and_self 0x800000000047e30e8
  refine next_kept e ?_
  repeat' first
    | (with_reducible first | assumption | exact mask_sub hm rfl | apply dxCmo_kept | apply cmoArcCleanSw_kept)
    | intro _
    | dsimp only

theorem execArcFlushSw_kept {s t : State} {a1} (e : execArcFlushSw a1 s = .next t) : Kept 0x800000000047e30e8 s t := by
  have h := Kept.same 0x800000000047e30e8 s
  have hm := Nat.and_self 0x800000000047e30e8
  refine next_kept e ?_
  repeat' first
    | (with_reducible first | assumption | exact mask_sub hm rfl | apply dxCmo_kept | apply cmoArcFlushSw_kept)
    | intro _
    | dsimp only

theorem execArcFetchA_kept {s t : State} {a1} (e : execArcFetchA a1 s = .next t) : Kept 0x800000000047e30e8 s t := by
  have h := Kept.same 0x800000000047e30e8 s
  have hm := Nat.and_self 0x800000000047e30e8
  refine next_kept e ?_
  repeat' first
    | (with_reducible first | assumption | exact mask_sub hm rfl | apply dxCmo_kept | apply cmoArcFetch_kept)
    | intro _
    | dsimp only

end Machine
end Sys2Proof
end

