-- ==== Sys2Proof/Laws/Exec.lean ====
section
/-! SUPPORT. What every command keeps and which parts it may change, from Laws/Keeps.lean and the lemma of each meaning. -/

namespace Sys2Proof
namespace Machine

/-- The parts that a command may change, as a mask of Part.bit. -/
def execMask : Instr → Nat
  | .registerWrite _ _ _ _ => 0x1fffffffffffffffff
  | .paceRateRead _ _ => 0x88
  | .fabricTransfer _ _ _ _ => 0x20000900
  | .roundaboutGrant _ _ => 0x108
  | .rbtConfigWrite _ _ _ _ => 0x188
  | .roundaboutStall _ _ _ => 0x4000188
  | .crossingRequest _ _ _ _ => 0x280
  | .crossingResetAssert _ _ => 0x8145001dcfd7e32e8
  | .clockGoodFall _ => 0x8145001dcfd7e32e8
  | .clockGoodRise _ => 0x8145001dcfd7e32e8
  | .crossingAbortDelivered _ => 0x8145001dcfd7e32e8
  | .crossingResetRelease _ _ => 0x200
  | .crossingSideReady _ _ => 0x8145001dcfd7e32e8
  | .paceWindowClose _ _ => 0x8000000000003408
  | .permitClaim _ _ _ => 0x88
  | .permitRelease _ _ => 0x88
  | .rcEnableWrite _ _ _ => 0x80010011cfd7e30e8
  | .rfSampleGroup _ _ _ _ _ _ => 0x30003008
  | .wedgePass _ _ => 0x800b001dcfd7e32e8
  | .fineEstimate _ _ _ => 0x10010008
  | .sync1WindowOpen _ => 0x80010011cfd7e30e8
  | .sync1Match _ _ => 0x30003008
  | .sync1WindowEnd _ => 0x30003008
  | .sync2WindowOpen _ => 0x10000000
  | .sync2WindowEnd _ _ => 0x10003008
  | .packetComplete _ => 0x80010011cfd7e30e8
  | .sliceAssign _ => 0x80010011f6d7f30e8
  | .sliceBufferFreed _ => 0x300000000
  | .decodeStart _ => 0x8001001116d7e30e8
  | .sectorDecodeDone _ => 0x8001001116d7e30e8
  | .tileResultsComplete _ => 0x8000000d00d7e30e8
  | .tileDecodeDone _ => 0x8000000d00d7e30e8
  | .tilePoisonRestart _ _ => 0x8000000d00d7e30e8
  | .spanDecodeStart _ => 0x4000000000
  | .spanDecodeDone _ => 0x8000000d00d7e30e8
  | .spanPoison _ _ _ => 0x5000000008
  | .encoderPacket _ => 0x800100000247e30e8
  | .writeSlotStart _ => 0x100000b0000008
  | .writeUnderrun _ => 0x10000020000008
  | .writeSlotEnd _ => 0x8001001002d7e30e8
  | .verifyResult _ => 0x8001001002d7e30e8
  | .guardTrip _ _ => 0x10000020003008
  | .guardReturn _ _ => 0x10000000000008
  | .guardLatchRelease _ => 0x10000000000008
  | .wcInhibitWrite _ _ _ => 0x10000020000088
  | .wcEnableWrite _ _ _ => 0x10000020000088
  | .tableFetchDone _ => 0x800100000047e30e8
  | .readPowerSample _ _ => 0x110000000010008
  | .writePowerSample _ _ _ => 0x10000000010008
  | .seTick _ _ => 0x800b001dcfd7e30f8
  | .runStart _ _ => 0x20000020000008
  | .deadlineMiss _ _ => 0x800b001dcfd7e30f8
  | .seCacheRefetch _ _ _ => 0x800b001dcfd7e30f8
  | .msvNop _ => 0x20000000000000
  | .msvMovi _ => 0x20000000000000
  | .msvLui _ => 0x20000000000000
  | .msvMov _ => 0x20000000000000
  | .msvLdc _ => 0x20000000000000
  | .msvLds _ => 0x20000000000000
  | .msvSts _ => 0x20000000000000
  | .msvIn _ => 0x20000000000000
  | .msvOut _ => 0x800b001dcfd7e30f8
  | .msvAdd _ => 0x20000000000000
  | .msvAdds _ => 0x20000000000000
  | .msvSub _ => 0x20000000000000
  | .msvSubs _ => 0x20000000000000
  | .msvAddi _ => 0x20000000000000
  | .msvMul _ => 0x20000000000000
  | .msvDiv _ => 0x20000000000000
  | .msvAbs _ => 0x20000000000000
  | .msvMin _ => 0x20000000000000
  | .msvMax _ => 0x20000000000000
  | .msvSha _ => 0x20000000000000
  | .msvAnd _ => 0x20000000000000
  | .msvOr _ => 0x20000000000000
  | .msvXor _ => 0x20000000000000
  | .msvAndi _ => 0x20000000000000
  | .msvShr _ => 0x20000000000000
  | .msvMula _ => 0x20000000000000
  | .msvMac _ => 0x20000000000000
  | .msvMsu _ => 0x20000000000000
  | .msvLda _ => 0x20000000000000
  | .msvRnd _ => 0x20000000000000
  | .msvBiq _ => 0x20000000000000
  | .msvLim _ => 0x20000000000000
  | .msvIntg _ => 0x20000000000000
  | .msvFfv _ => 0x20000000000000
  | .msvFfa _ => 0x800b001dcfd7e30f8
  | .msvInj _ => 0x20000000000000
  | .msvCap _ => 0x20000000000000
  | .msvLut _ => 0x20000000000000
  | .msvScs _ => 0x20000000010000
  | .msvBr _ => 0x20000000000000
  | .msvJmp _ => 0x20000000000000
  | .msvRep _ => 0x20000000000000
  | .msvEvt _ => 0x20000000000000
  | .msvEnd _ => 0x800b001dcfd7e30f8
  | .seLoad _ _ _ _ => 0x20000000000008
  | .seLoadDone _ => 0x800200000047e30e8
  | .seWindowWrite _ _ _ _ => 0x800000000057e30e8
  | .seStateWrite _ _ _ _ => 0x20000000000080
  | .seStart _ _ => 0x20000000000018
  | .seStop _ _ => 0xa0000000000008
  | .seApplyNow _ _ => 0x20000000000018
  | .capEnableWrite _ _ _ => 0x20000000000008
  | .spindleStart _ => 0x80000000003008
  | .spindleStop _ => 0x80000000000008
  | .pwmPeriodStart _ => 0x80000000003018
  | .pwmMidpoint _ _ _ _ _ => 0x800b001dcfd7e30f8
  | .overcurrentTrip => 0x80000000003008
  | .senseTimeEnd => 0x80000000000008
  | .bemfMeasure _ _ _ => 0x80000000010008
  | .brakeDwellEnd => 0x80000000000008
  | .brakeTimeout => 0x80000000000008
  | .detectPulseEnd _ _ => 0x80000000010008
  | .alignDone => 0x80000000000008
  | .handoverAgreement => 0x80000000003008
  | .handoverTimeout => 0x80000000000008
  | .catchTimeout => 0x80000000000008
  | .regenPause _ => 0x8
  | .sledUpdate _ _ _ _ _ _ _ => 0x8005001dcfd7e30f8
  | .sldTargetWrite _ _ _ => 0x8005001dcfd7e30e8
  | .revDwellEnd _ => 0x40000000003008
  | .runCurrentEnd _ => 0x40000000000008
  | .homeSwitchEdge _ => 0x8005001dcfd7e30e8
  | .switchDebounced _ _ => 0x8005001dcfd7e30e8
  | .sledHome _ _ => 0x40000000000008
  | .sledPark _ _ => 0x40000000000008
  | .sledUnpark _ _ => 0x8005001dcfd7e30e8
  | .sledAbort _ _ => 0x40000000000008
  | .sldDrvEnWrite _ _ _ => 0x40000000000008
  | .sweepSubmit _ _ => 0x20000000088
  | .programLoad => 0x8
  | .programLoadDone _ => 0x8000046000d7e30e8
  | .sweepStart _ => 0x17bc4000003088
  | .sweepStop _ => 0x800000000080
  | .sweepAbort _ => 0x8001905dcfd7e30e8
  | .sweepBoundaryCmd _ => 0x801a001d03d7f30f8
  | .windowOpen => 0x2200000003008
  | .windowClose => 0x8000001d02d7e30e8
  | .portionStart _ => 0x8000001d02d7e30e8
  | .headStep _ => 0x8000001d02d7e30e8
  | .layer _ => 0x8000001d02d7e30e8
  | .seek _ => 0x8005001dcfd7e30e8
  | .waitPos _ => 0x8000001d02d7e30e8
  | .waitWedge _ => 0x8000001d02d7e30e8
  | .waitWedgeReached _ => 0x8000001d02d7e30e8
  | .readTile _ => 0x8000001f0bd7e30e8
  | .verifyTile _ => 0x8000001f0bd7e30e8
  | .auditTile _ => 0x8000001f0bd7e30e8
  | .writeTile _ => 0x8001001d02d7e30e8
  | .obliterate _ => 0x8001001d02d7e30e8
  | .calSlot _ => 0x8000001d02d7e30e8
  | .mark _ => 0x8000001d02d7e30e8
  | .nopStep _ => 0x8000001d02d7e30e8
  | .endStep _ => 0x8000001d02d7e30e8
  | .allSlotsEnded => 0x8000000000008
  | .drainComplete => 0x8001001503d7e30e8
  | .boundaryApply => 0x803b79dd03d7f30f8
  | .headOnlineSet _ _ => 0x88
  | .fifoPop _ _ => 0x8000000000d7f30e8
  | .fifoConfigWrite _ _ _ _ => 0x88
  | .fifoRecordPush _ _ => 0x8000000000d7e30e8
  | .ringWriteError _ _ => 0x8000008
  | .add _ => 0x800000000047e30e8
  | .sub _ => 0x800000000047e30e8
  | .and _ => 0x800000000047e30e8
  | .or _ => 0x800000000047e30e8
  | .xor _ => 0x800000000047e30e8
  | .sll _ => 0x800000000047e30e8
  | .srl _ => 0x800000000047e30e8
  | .sra _ => 0x800000000047e30e8
  | .slt _ => 0x800000000047e30e8
  | .sltu _ => 0x800000000047e30e8
  | .mul _ => 0x800000000047e30e8
  | .mulh _ => 0x800000000047e30e8
  | .mulhu _ => 0x800000000047e30e8
  | .div _ => 0x800000000047e30e8
  | .divu _ => 0x800000000047e30e8
  | .rem _ => 0x800000000047e30e8
  | .remu _ => 0x800000000047e30e8
  | .addw _ => 0x800000000047e30e8
  | .clz _ => 0x800000000047e30e8
  | .addi _ => 0x800000000047e30e8
  | .andi _ => 0x800000000047e30e8
  | .ori _ => 0x800000000047e30e8
  | .xori _ => 0x800000000047e30e8
  | .slli _ => 0x800000000047e30e8
  | .srli _ => 0x800000000047e30e8
  | .srai _ => 0x800000000047e30e8
  | .slti _ => 0x800000000047e30e8
  | .sltiu _ => 0x800000000047e30e8
  | .addiw _ => 0x800000000047e30e8
  | .lui _ => 0x800000000047e30e8
  | .auipc _ => 0x800000000047e30e8
  | .lb _ => 0x8000000000d7ff0e8
  | .lbu _ => 0x8000000000d7ff0e8
  | .lh _ => 0x8000000000d7ff0e8
  | .lhu _ => 0x8000000000d7ff0e8
  | .lw _ => 0x8000000000d7ff0e8
  | .lwu _ => 0x8000000000d7ff0e8
  | .ld _ => 0x8000000000d7ff0e8
  | .sb _ => 0x1fffffffffffffffff
  | .sh _ => 0x1fffffffffffffffff
  | .sw _ => 0x1fffffffffffffffff
  | .sd _ => 0x1fffffffffffffffff
  | .beq _ => 0x800000000047e30e8
  | .bne _ => 0x800000000047e30e8
  | .blt _ => 0x800000000047e30e8
  | .bge _ => 0x800000000047e30e8
  | .bltu _ => 0x800000000047e30e8
  | .bgeu _ => 0x800000000047e30e8
  | .jal _ => 0x800000000047e30e8
  | .jalr _ => 0x800000000047e30e8
  | .ldaq _ => 0x8000000000d7ff0e8
  | .strl _ => 0x1fffffffffffffffff
  | .lr _ => 0x800000000047e30e8
  | .sc _ => 0x800000000057e30e8
  | .amoadd _ => 0x800000000057e30e8
  | .amoswap _ => 0x800000000057e30e8
  | .amoand _ => 0x800000000057e30e8
  | .amoor _ => 0x800000000057e30e8
  | .cas _ => 0x800000000057e30e8
  | .fence _ => 0x800000000047e30e8
  | .ecall _ => 0x800000000047e30e8
  | .ebreak _ => 0x800000000047e30e8
  | .sret _ => 0x800000000047e30e8
  | .csrr _ => 0x800000000047e30e8
  | .csrw _ => 0x800000000047e30e8
  | .csrs _ => 0x800000000047e30e8
  | .csrc _ => 0x800000000047e30e8
  | .postDoorbell _ => 0xe145001dcfd7e32e8
  | .postUsb2Attach _ => 0xe145001dcfd7e32e8
  | .postFlash _ => 0xe145001dcfd7e32e8
  | .postKerbWord _ => 0xe145001dcfd7e32e8
  | .postSmbusAlert _ => 0xe145001dcfd7e32e8
  | .postTimerPwm _ => 0xe145001dcfd7e32e8
  | .postAccepted _ => 0xe145001dcfd7e32e8
  | .take _ => 0x8000000000d7f30e8
  | .wait _ => 0x800000000047e30e8
  | .waitWake _ => 0x80000000000003004
  | .rdtime _ => 0x800000000047e30e8
  | .interruptEntry _ => 0x80000000000003000
  | .reservationExpire _ => 0x80000000000000000
  | .timecmpReached _ => 0x4
  | .coreResetCmd _ _ => 0x94000000000000088
  | .coreRun _ _ => 0x80000000000000088
  | .l1iInvA _ => 0x800000000047e30e8
  | .l1iInvAll _ => 0x800000000047e30e8
  | .l1dInvA _ => 0x800000000047e30e8
  | .l1dInvAll _ => 0x800000000047e30e8
  | .arcCleanA _ => 0x800000000047e30e8
  | .arcInvA _ => 0x800000000047e30e8
  | .arcFlushA _ => 0x800000000047e30e8
  | .arcCleanSw _ => 0x800000000047e30e8
  | .arcFlushSw _ => 0x800000000047e30e8
  | .arcFetchA _ => 0x800000000047e30e8
  | .l1Fill _ _ _ => 0x47e3068
  | .arcadeRequest _ _ _ _ => 0x800000000047e30e8
  | .arcadeFill _ _ => 0x800000000047e30e8
  | .arcDisable _ => 0x88
  | .arcDrainDone => 0x800000000047e30e8
  | .arcEnable _ => 0x88
  | .arcPartWrite _ _ _ => 0x88
  | .l1Disable _ _ _ => 0xc0088
  | .dramRequest _ _ _ _ => 0x400080
  | .dramIssue _ => 0x800000000047030e8
  | .dramReadReturn _ _ _ => 0x4703088
  | .perBankRefresh _ _ => 0x600000
  | .mr4Poll _ _ => 0x400000
  | .actTableClear => 0x400000
  | .scrubRow _ _ _ => 0x800000000047e30e8
  | .remapArm _ _ _ _ => 0x80010011f6f7f30e8
  | .remapDisarm _ _ _ => 0x88
  | .dramMapWrite _ _ _ => 0x88
  | .dramInit _ => 0x88
  | .dramInitDone _ => 0x4700268
  | .oscCheck _ _ => 0x8
  | .dramRetrain _ => 0x88
  | .retrainStart _ => 0x2200000000600208
  | .retrainDone _ _ => 0x4e00208
  | .sramScrub _ _ _ _ => 0x80010011f6f7f30e8
  | .linkUp _ _ => 0x8
  | .pathLoss _ => 0x1400000000003008
  | .functionReset _ => 0x1400000000003008
  | .ocfgEnableWrite _ _ => 0x1400000000003008
  | .sqTailDoorbell _ _ _ => 0x400000000013008
  | .cqHeadDoorbell _ _ _ => 0x400000000013008
  | .commandFetch _ _ => 0x8040000000d7e30e8
  | .hostCpl _ _ _ => 0x804000000047f30e8
  | .msixCoalesceExpire _ _ => 0x400000000000000
  | .createQp _ => 0x400000000003008
  | .deleteQp _ => 0x400000000003008
  | .abort _ => 0x400000000003008
  | .identify _ => 0x400000000003008
  | .getLogEvents _ => 0x400000000003008
  | .getLogPath _ => 0x400000000003008
  | .eventWait _ => 0x400000000003008
  | .eventLogged _ _ => 0x400000000003008
  | .read _ _ => 0x804000000047e30e8
  | .write _ => 0xc00000000003008
  | .append _ => 0xc00000000003008
  | .writeAccept _ _ => 0x80c000000057e30e8
  | .flush _ => 0xc00000000003008
  | .flushComplete _ _ _ => 0x81c000000057e30e8
  | .zoneReport _ => 0x400000000003008
  | .zoneOpen _ => 0xc00000000003008
  | .zoneClose _ => 0xc00000000003008
  | .zoneFinish _ => 0xc00000000003008
  | .extentQuery _ => 0x804000000047e30e8
  | .put _ _ => 0x81c000000057e30e8
  | .get _ _ => 0x814000000057e30e8
  | .list _ => 0x804000000047e30e8
  | .audit _ => 0x8140000000d7e30e8
  | .openSession _ _ => 0x81c000000057f30e8
  | .keyMismatchDelay => 0x1400000000003008
  | .closeSession _ => 0x1400000000003008
  | .setAdminKey _ _ => 0x81c000000057f30e8
  | .format _ _ => 0x1c00000000013008
  | .sanitise _ _ => 0x1c00000000013008
  | .progress _ => 0x400000000003008
  | .lockMedia _ => 0x1400000000003008
  | .sessionTimeout _ => 0x1000000000000008
  | .pendingAbandon _ => 0x81c000000057e30e8
  | .auditWalk => 0x8100000000d7e30e8
  | .auditRecordConsume _ => 0x8100000000d7f30e8
  | .auditResult _ => 0x8140000000d7e30e8
  | .weakTileNotice => 0x810000080057e30e8
  | .weakRefresh _ _ => 0x818000000057e30e8
  | .journalEntryWrite _ => 0x81c000000057f30e8
  | .discMount _ _ _ _ => 0x81c000000057f30e8
  | .discRemoval => 0x81c000000057f30e8
  | .railWindowExit _ => 0x8050000024003008
  | .busUndervoltage => 0x8050000024003008
  | .supplyGraceExpire => 0xd0000020003008
  | .vaonRise => 0x1fffffffffffffffff
  | .railGood => 0x8000000000000008
  | .railEnableTimeout => 0x8000000000000008
  | .sequencerRetry => 0x8000000000000000
  | .vin12Loss => 0x8050000024003008
  | .railFall => 0x1fffffffffffffffff
  | .govEnableWrite _ _ => 0x8000000000000088
  | .chopEngage => 0x3008
  | .chopRelease => 0x8
  | .chopFault => 0xd0000024003008
  | .busLatch => 0x800d001dcfd7e30e8
  | .chopClr _ _ => 0xd0000020000088
  | .latchClr _ _ => 0x50000020000088
  | .mbusEnableWrite _ _ => 0x8050000020000088
  | .boostEnableWrite _ _ => 0x8050000020000088
  | .boostSoftStartDone => 0x8010000020000008
  | .vlasUndervoltage => 0x8050000024003008
  | .boostFault => 0x8050000024003008
  | .boostClr _ => 0x8050000020000088
  | .dormantEnter _ _ => 0x1fffffffffffffffff
  | .wakeEvent _ => 0x68400000000403208
  | .supAlarmReached => 0x68400000000403208
  | .wakeRdyRelease => 0x8400000000000008
  | .sourceFail _ => 0x8145001dcfd7e32e8
  | .sourceGood _ => 0x8145001dcfd7e32e8
  | .clkRelock _ _ => 0x88
  | .loopLock _ => 0x8345001dcfd7e32e8
  | .lockLost _ => 0x8145001dcfd7e32e8
  | .refSwitch _ _ => 0x4000000000000088
  | .muxSwitchDone _ => 0x8545001dcfd7e32e8
  | .muxHung _ => 0x3008
  | .clkRescue _ _ => 0x8545001dcfd7e32e8
  | .rescueDone => 0x8545001dcfd7e32e8
  | .clkoutSelect _ _ => 0x4000000000000088
  | .clkoutDivChange => 0x4000000000000000
  | .portEnableWrite _ _ _ => 0x8145001dcfd7e32e8
  | .timeReadLatch _ => 0x4080
  | .counterReadLatch _ _ => 0x8080
  | .calrefCheck _ => 0x8
  | .calTempTrigger _ _ => 0x8
  | .calRequest _ _ => 0x88
  | .calAutoRun _ _ => 0x100000000000008
  | .calRunDone _ _ _ _ _ _ _ _ => 0x8010001002d7f30e8
  | .calIdleApply _ => 0x801200000157f30e8
  | .calRecordRead _ => 0x88
  | .calRecordWrite _ => 0x100000000003088
  | .faultReport => 0x8000000000d7e30e8
  | .heartbeatLoss _ => 0x900f001dffd7f31e8
  | .fmIsolate _ _ => 0x800f000002d7e30e8
  | .fmReinstate _ _ _ => 0x94070011cfd7e33f8
  | .lockstepMismatch _ => 0x800d000002d7e30e8
  | .safeExt _ => 0x900d000002d7e30e8
  | .sqKick _ _ => 0x10000000000000080
  | .watchdogEnable _ => 0x88
  | .wdExpire => 0x900d000002d7e30e8
  | .safeReq _ _ => 0x800d000002d7e30e8
  | .warmReset _ _ => 0x1fffffffffffffffff
  | .coreReset _ _ => 0x1fffffffffffffffff
  | .porRequest _ _ => 0x1fffffffffffffffff
  | .resetPin _ => 0x1fffffffffffffffff
  | .boot _ => 0xa145001dcfd7f32e8
  | .recoveryStatus _ => 0x80
  | .recoveryErase _ _ _ => 0x20000000000000080
  | .recoveryProgram _ _ _ => 0x20000000000000080
  | .recoveryRead _ _ _ => 0x80
  | .recoveryReboot _ => 0x1fffffffffffffffff
  | .mgmtStatus _ => 0x80
  | .mgmtUnsupportedRequest _ => 0x80
  | .spiTransferDone _ => 0xa00000000057e30e8
  | .spiBusyTimeout => 0x20000000000000008
  | .gpioFuncWrite _ _ _ => 0x88
  | .gpioOeSet _ _ => 0x88
  | .gpioOeClr _ _ => 0x88
  | .gpioOutSet _ _ => 0x88
  | .gpioOutClr _ _ => 0x88
  | .tmrCfgWrite _ _ _ => 0x88
  | .gpioEdgeEvent _ _ => 0x68400000000403208
  | .timerPeriodStart _ => 0x40000000000000000
  | .kerbStatusRead _ => 0x40000000000000080
  | .kerbInboundWrite _ _ => 0x40000000000000088
  | .kerbCommandWrite _ => 0x40000000000000088
  | .kerbIntClear _ => 0x40000000000000088
  | .kerbWakeWord _ => 0x68400000000403288
  | .kerbAckAccess _ _ => 0x40000000000000080
  | .kerbProtocolError => 0x8
  | .kerbResponderSwitch => 0x40000000000000000
  | .kerbCopyRefresh _ => 0x40000000000000000
  | .smbusReadWord _ => 0x40000000000000080
  | .smbusBlockRead => 0x40000000000000080
  | .smbusNack => 0x8
  | .smbusAlertResponse => 0x80
  | .jtagTapReset => 0x400d0000020000008
  | .idcode => 0x400d0000020000088
  | .samplePreload _ => 0x400d0000020010088
  | .extest => 0x400d0000020000008
  | .clamp => 0x400d0000020000008
  | .highz => 0x400d0000020000008
  | .bypass => 0x400d0000020000008
  | .debugAccess _ _ _ _ => 0x1fffffffffffffffff
  | .railWindowReturn _ => 0x8050000020000008
  | .vin12Good => 0x8000000000000000
  | .pageIdleExpire _ _ => 0x600000
  | .kerbStrobeRise => 0x40000000000000000
  | .illegalInstr _ => 0x800000000047e30e8

/-- Every command that answers a next state keeps the part and the queue, the canonical form of memory and flash, x0 of the
cores and the absent Crossings, and changes only the parts of its mask. -/
theorem exec_kept {i : Instr} {s t : State} (e : exec i s = .next t) : Kept (execMask i) s t := by
  cases i with
  | registerWrite => exact execRegisterWrite_kept e
  | paceRateRead agent d => exact execPaceRateRead_kept (a1 := agent) e
  | fabricTransfer => exact execFabricTransfer_kept e
  | roundaboutGrant => exact execRoundaboutGrant_kept e
  | rbtConfigWrite agent r reg value => exact execRbtConfigWrite_kept (a1 := agent) e
  | roundaboutStall => exact execRoundaboutStall_kept e
  | crossingRequest => exact execCrossingRequest_kept e
  | crossingResetAssert => exact execCrossingResetAssert_kept e
  | clockGoodFall => exact execClockGoodFall_kept e
  | clockGoodRise => exact execClockGoodRise_kept e
  | crossingAbortDelivered => exact execCrossingAbortDelivered_kept e
  | crossingResetRelease => exact execCrossingResetRelease_kept e
  | crossingSideReady => exact execCrossingSideReady_kept e
  | paceWindowClose => exact execPaceWindowClose_kept e
  | permitClaim => exact execPermitClaim_kept e
  | permitRelease => exact execPermitRelease_kept e
  | rcEnableWrite agent c on => exact execRcEnableWrite_kept (a1 := agent) e
  | rfSampleGroup => exact execRfSampleGroup_kept e
  | wedgePass => exact execWedgePass_kept e
  | fineEstimate => exact execFineEstimate_kept e
  | sync1WindowOpen => exact execSync1WindowOpen_kept e
  | sync1Match => exact execSync1Match_kept e
  | sync1WindowEnd => exact execSync1WindowEnd_kept e
  | sync2WindowOpen => exact execSync2WindowOpen_kept e
  | sync2WindowEnd => exact execSync2WindowEnd_kept e
  | packetComplete => exact execPacketComplete_kept e
  | sliceAssign => exact execSliceAssign_kept e
  | sliceBufferFreed => exact execSliceBufferFreed_kept e
  | decodeStart => exact execDecodeStart_kept e
  | sectorDecodeDone => exact execSectorDecodeDone_kept e
  | tileResultsComplete => exact execTileResultsComplete_kept e
  | tileDecodeDone => exact execTileDecodeDone_kept e
  | tilePoisonRestart => exact execTilePoisonRestart_kept e
  | spanDecodeStart => exact execSpanDecodeStart_kept e
  | spanDecodeDone => exact execSpanDecodeDone_kept e
  | spanPoison => exact execSpanPoison_kept e
  | encoderPacket => exact execEncoderPacket_kept e
  | writeSlotStart => exact execWriteSlotStart_kept e
  | writeUnderrun => exact execWriteUnderrun_kept e
  | writeSlotEnd => exact execWriteSlotEnd_kept e
  | verifyResult => exact execVerifyResult_kept e
  | guardTrip => exact execGuardTrip_kept e
  | guardReturn => exact execGuardReturn_kept e
  | guardLatchRelease => exact execGuardLatchRelease_kept e
  | wcInhibitWrite agent n on => exact execWcInhibitWrite_kept (a1 := agent) e
  | wcEnableWrite agent n on => exact execWcEnableWrite_kept (a1 := agent) e
  | tableFetchDone => exact execTableFetchDone_kept e
  | readPowerSample => exact execReadPowerSample_kept e
  | writePowerSample => exact execWritePowerSample_kept e
  | seTick => exact execSeTick_kept e
  | runStart => exact execRunStart_kept e
  | deadlineMiss => exact execDeadlineMiss_kept e
  | seCacheRefetch => exact execSeCacheRefetch_kept e
  | msvNop => exact execMsvNop_kept e
  | msvMovi => exact execMsvMovi_kept e
  | msvLui => exact execMsvLui_kept e
  | msvMov => exact execMsvMov_kept e
  | msvLdc => exact execMsvLdc_kept e
  | msvLds => exact execMsvLds_kept e
  | msvSts => exact execMsvSts_kept e
  | msvIn => exact execMsvIn_kept e
  | msvOut => exact execMsvOut_kept e
  | msvAdd => exact execMsvAdd_kept e
  | msvAdds => exact execMsvAdds_kept e
  | msvSub => exact execMsvSub_kept e
  | msvSubs => exact execMsvSubs_kept e
  | msvAddi => exact execMsvAddi_kept e
  | msvMul => exact execMsvMul_kept e
  | msvDiv => exact execMsvDiv_kept e
  | msvAbs => exact execMsvAbs_kept e
  | msvMin => exact execMsvMin_kept e
  | msvMax => exact execMsvMax_kept e
  | msvSha => exact execMsvSha_kept e
  | msvAnd => exact execMsvAnd_kept e
  | msvOr => exact execMsvOr_kept e
  | msvXor => exact execMsvXor_kept e
  | msvAndi => exact execMsvAndi_kept e
  | msvShr => exact execMsvShr_kept e
  | msvMula => exact execMsvMula_kept e
  | msvMac => exact execMsvMac_kept e
  | msvMsu => exact execMsvMsu_kept e
  | msvLda => exact execMsvLda_kept e
  | msvRnd => exact execMsvRnd_kept e
  | msvBiq => exact execMsvBiq_kept e
  | msvLim => exact execMsvLim_kept e
  | msvIntg => exact execMsvIntg_kept e
  | msvFfv => exact execMsvFfv_kept e
  | msvFfa => exact execMsvFfa_kept e
  | msvInj => exact execMsvInj_kept e
  | msvCap => exact execMsvCap_kept e
  | msvLut => exact execMsvLut_kept e
  | msvScs => exact execMsvScs_kept e
  | msvBr => exact execMsvBr_kept e
  | msvJmp => exact execMsvJmp_kept e
  | msvRep => exact execMsvRep_kept e
  | msvEvt => exact execMsvEvt_kept e
  | msvEnd => exact execMsvEnd_kept e
  | seLoad agent k coef bank => exact execSeLoad_kept (a1 := agent) e
  | seLoadDone => exact execSeLoadDone_kept e
  | seWindowWrite agent k offset value => exact execSeWindowWrite_kept (a1 := agent) e
  | seStateWrite agent k word value => exact execSeStateWrite_kept (a1 := agent) e
  | seStart agent k => exact execSeStart_kept (a1 := agent) e
  | seStop agent k => exact execSeStop_kept (a1 := agent) e
  | seApplyNow agent k => exact execSeApplyNow_kept (a1 := agent) e
  | capEnableWrite agent k on => exact execCapEnableWrite_kept (a1 := agent) e
  | spindleStart agent => exact execSpindleStart_kept (a1 := agent) e
  | spindleStop agent => exact execSpindleStop_kept (a1 := agent) e
  | pwmPeriodStart => exact execPwmPeriodStart_kept e
  | pwmMidpoint => exact execPwmMidpoint_kept e
  | overcurrentTrip => exact execOvercurrentTrip_kept e
  | senseTimeEnd => exact execSenseTimeEnd_kept e
  | bemfMeasure => exact execBemfMeasure_kept e
  | brakeDwellEnd => exact execBrakeDwellEnd_kept e
  | brakeTimeout => exact execBrakeTimeout_kept e
  | detectPulseEnd => exact execDetectPulseEnd_kept e
  | alignDone => exact execAlignDone_kept e
  | handoverAgreement => exact execHandoverAgreement_kept e
  | handoverTimeout => exact execHandoverTimeout_kept e
  | catchTimeout => exact execCatchTimeout_kept e
  | regenPause => exact execRegenPause_kept e
  | sledUpdate => exact execSledUpdate_kept e
  | sldTargetWrite agent n value => exact execSldTargetWrite_kept (a1 := agent) e
  | revDwellEnd => exact execRevDwellEnd_kept e
  | runCurrentEnd => exact execRunCurrentEnd_kept e
  | homeSwitchEdge => exact execHomeSwitchEdge_kept e
  | switchDebounced => exact execSwitchDebounced_kept e
  | sledHome agent n => exact execSledHome_kept (a1 := agent) e
  | sledPark agent n => exact execSledPark_kept (a1 := agent) e
  | sledUnpark agent n => exact execSledUnpark_kept (a1 := agent) e
  | sledAbort agent n => exact execSledAbort_kept (a1 := agent) e
  | sldDrvEnWrite agent n on => exact execSldDrvEnWrite_kept (a1 := agent) e
  | sweepSubmit agent value => exact execSweepSubmit_kept (a1 := agent) e
  | programLoad => exact execProgramLoad_kept e
  | programLoadDone => exact execProgramLoadDone_kept e
  | sweepStart agent => exact execSweepStart_kept (a1 := agent) e
  | sweepStop agent => exact execSweepStop_kept (a1 := agent) e
  | sweepAbort agent => exact execSweepAbort_kept (a1 := agent) e
  | sweepBoundaryCmd agent => exact execSweepBoundaryCmd_kept (a1 := agent) e
  | windowOpen => exact execWindowOpen_kept e
  | windowClose => exact execWindowClose_kept e
  | portionStart => exact execPortionStart_kept e
  | headStep => exact execHeadStep_kept e
  | layer => exact execLayer_kept e
  | seek => exact execSeek_kept e
  | waitPos => exact execWaitPos_kept e
  | waitWedge => exact execWaitWedge_kept e
  | waitWedgeReached => exact execWaitWedgeReached_kept e
  | readTile => exact execReadTile_kept e
  | verifyTile => exact execVerifyTile_kept e
  | auditTile => exact execAuditTile_kept e
  | writeTile => exact execWriteTile_kept e
  | obliterate => exact execObliterate_kept e
  | calSlot => exact execCalSlot_kept e
  | mark => exact execMark_kept e
  | nopStep => exact execNopStep_kept e
  | endStep => exact execEndStep_kept e
  | allSlotsEnded => exact execAllSlotsEnded_kept e
  | drainComplete => exact execDrainComplete_kept e
  | boundaryApply => exact execBoundaryApply_kept e
  | headOnlineSet agent mask => exact execHeadOnlineSet_kept (a1 := agent) e
  | fifoPop => exact execFifoPop_kept e
  | fifoConfigWrite agent f reg value => exact execFifoConfigWrite_kept (a1 := agent) e
  | fifoRecordPush => exact execFifoRecordPush_kept e
  | ringWriteError => exact execRingWriteError_kept e
  | add => exact execAdd_kept e
  | sub => exact execSub_kept e
  | and => exact execAnd_kept e
  | or => exact execOr_kept e
  | xor => exact execXor_kept e
  | sll => exact execSll_kept e
  | srl => exact execSrl_kept e
  | sra => exact execSra_kept e
  | slt => exact execSlt_kept e
  | sltu => exact execSltu_kept e
  | mul => exact execMul_kept e
  | mulh => exact execMulh_kept e
  | mulhu => exact execMulhu_kept e
  | div => exact execDiv_kept e
  | divu => exact execDivu_kept e
  | rem => exact execRem_kept e
  | remu => exact execRemu_kept e
  | addw => exact execAddw_kept e
  | clz => exact execClz_kept e
  | addi => exact execAddi_kept e
  | andi => exact execAndi_kept e
  | ori => exact execOri_kept e
  | xori => exact execXori_kept e
  | slli => exact execSlli_kept e
  | srli => exact execSrli_kept e
  | srai => exact execSrai_kept e
  | slti => exact execSlti_kept e
  | sltiu => exact execSltiu_kept e
  | addiw => exact execAddiw_kept e
  | lui => exact execLui_kept e
  | auipc => exact execAuipc_kept e
  | lb => exact execLb_kept e
  | lbu => exact execLbu_kept e
  | lh => exact execLh_kept e
  | lhu => exact execLhu_kept e
  | lw => exact execLw_kept e
  | lwu => exact execLwu_kept e
  | ld => exact execLd_kept e
  | sb => exact execSb_kept e
  | sh => exact execSh_kept e
  | sw => exact execSw_kept e
  | sd => exact execSd_kept e
  | beq => exact execBeq_kept e
  | bne => exact execBne_kept e
  | blt => exact execBlt_kept e
  | bge => exact execBge_kept e
  | bltu => exact execBltu_kept e
  | bgeu => exact execBgeu_kept e
  | jal => exact execJal_kept e
  | jalr => exact execJalr_kept e
  | ldaq => exact execLdaq_kept e
  | strl => exact execStrl_kept e
  | lr => exact execLr_kept e
  | sc => exact execSc_kept e
  | amoadd => exact execAmoadd_kept e
  | amoswap => exact execAmoswap_kept e
  | amoand => exact execAmoand_kept e
  | amoor => exact execAmoor_kept e
  | cas => exact execCas_kept e
  | fence => exact execFence_kept e
  | ecall => exact execEcall_kept e
  | ebreak => exact execEbreak_kept e
  | sret => exact execSret_kept e
  | csrr => exact execCsrr_kept e
  | csrw => exact execCsrw_kept e
  | csrs => exact execCsrs_kept e
  | csrc => exact execCsrc_kept e
  | postDoorbell => exact execPostDoorbell_kept e
  | postUsb2Attach => exact execPostUsb2Attach_kept e
  | postFlash => exact execPostFlash_kept e
  | postKerbWord => exact execPostKerbWord_kept e
  | postSmbusAlert => exact execPostSmbusAlert_kept e
  | postTimerPwm => exact execPostTimerPwm_kept e
  | postAccepted => exact execPostAccepted_kept e
  | take => exact execTake_kept e
  | wait => exact execWait_kept e
  | waitWake => exact execWaitWake_kept e
  | rdtime => exact execRdtime_kept e
  | interruptEntry => exact execInterruptEntry_kept e
  | reservationExpire => exact execReservationExpire_kept e
  | timecmpReached => exact execTimecmpReached_kept e
  | coreResetCmd agent p => exact execCoreResetCmd_kept (a1 := agent) e
  | coreRun agent p => exact execCoreRun_kept (a1 := agent) e
  | l1iInvA => exact execL1iInvA_kept e
  | l1iInvAll => exact execL1iInvAll_kept e
  | l1dInvA => exact execL1dInvA_kept e
  | l1dInvAll => exact execL1dInvAll_kept e
  | arcCleanA => exact execArcCleanA_kept e
  | arcInvA => exact execArcInvA_kept e
  | arcFlushA => exact execArcFlushA_kept e
  | arcCleanSw => exact execArcCleanSw_kept e
  | arcFlushSw => exact execArcFlushSw_kept e
  | arcFetchA => exact execArcFetchA_kept e
  | l1Fill => exact execL1Fill_kept e
  | arcadeRequest => exact execArcadeRequest_kept e
  | arcadeFill => exact execArcadeFill_kept e
  | arcDisable agent => exact execArcDisable_kept (a1 := agent) e
  | arcDrainDone => exact execArcDrainDone_kept e
  | arcEnable agent => exact execArcEnable_kept (a1 := agent) e
  | arcPartWrite agent n mask => exact execArcPartWrite_kept (a1 := agent) e
  | l1Disable agent p cache => exact execL1Disable_kept (a1 := agent) e
  | dramRequest => exact execDramRequest_kept e
  | dramIssue => exact execDramIssue_kept e
  | dramReadReturn => exact execDramReadReturn_kept e
  | perBankRefresh => exact execPerBankRefresh_kept e
  | mr4Poll => exact execMr4Poll_kept e
  | actTableClear => exact execActTableClear_kept e
  | scrubRow => exact execScrubRow_kept e
  | remapArm agent at_ entry word => exact execRemapArm_kept (a1 := agent) e
  | remapDisarm agent at_ entry => exact execRemapDisarm_kept (a1 := agent) e
  | dramMapWrite agent reg value => exact execDramMapWrite_kept (a1 := agent) e
  | dramInit agent => exact execDramInit_kept (a1 := agent) e
  | dramInitDone => exact execDramInitDone_kept e
  | oscCheck => exact execOscCheck_kept e
  | dramRetrain agent => exact execDramRetrain_kept (a1 := agent) e
  | retrainStart => exact execRetrainStart_kept e
  | retrainDone => exact execRetrainDone_kept e
  | sramScrub => exact execSramScrub_kept e
  | linkUp => exact execLinkUp_kept e
  | pathLoss => exact execPathLoss_kept e
  | functionReset => exact execFunctionReset_kept e
  | ocfgEnableWrite => exact execOcfgEnableWrite_kept e
  | sqTailDoorbell => exact execSqTailDoorbell_kept e
  | cqHeadDoorbell => exact execCqHeadDoorbell_kept e
  | commandFetch => exact execCommandFetch_kept e
  | hostCpl agent ctx status => exact execHostCpl_kept (a1 := agent) e
  | msixCoalesceExpire => exact execMsixCoalesceExpire_kept e
  | createQp => exact execCreateQp_kept e
  | deleteQp => exact execDeleteQp_kept e
  | abort => exact execAbort_kept e
  | identify => exact execIdentify_kept e
  | getLogEvents => exact execGetLogEvents_kept e
  | getLogPath => exact execGetLogPath_kept e
  | eventWait => exact execEventWait_kept e
  | eventLogged => exact execEventLogged_kept e
  | read => exact execRead_kept e
  | write => exact execWrite_kept e
  | append => exact execAppend_kept e
  | writeAccept => exact execWriteAccept_kept e
  | flush => exact execFlush_kept e
  | flushComplete => exact execFlushComplete_kept e
  | zoneReport => exact execZoneReport_kept e
  | zoneOpen => exact execZoneOpen_kept e
  | zoneClose => exact execZoneClose_kept e
  | zoneFinish => exact execZoneFinish_kept e
  | extentQuery => exact execExtentQuery_kept e
  | put => exact execPut_kept e
  | get => exact execGet_kept e
  | list => exact execList_kept e
  | audit => exact execAudit_kept e
  | openSession => exact execOpenSession_kept e
  | keyMismatchDelay => exact execKeyMismatchDelay_kept e
  | closeSession => exact execCloseSession_kept e
  | setAdminKey => exact execSetAdminKey_kept e
  | format => exact execFormat_kept e
  | sanitise => exact execSanitise_kept e
  | progress => exact execProgress_kept e
  | lockMedia => exact execLockMedia_kept e
  | sessionTimeout => exact execSessionTimeout_kept e
  | pendingAbandon => exact execPendingAbandon_kept e
  | auditWalk => exact execAuditWalk_kept e
  | auditRecordConsume => exact execAuditRecordConsume_kept e
  | auditResult => exact execAuditResult_kept e
  | weakTileNotice => exact execWeakTileNotice_kept e
  | weakRefresh => exact execWeakRefresh_kept e
  | journalEntryWrite => exact execJournalEntryWrite_kept e
  | discMount => exact execDiscMount_kept e
  | discRemoval => exact execDiscRemoval_kept e
  | railWindowExit => exact execRailWindowExit_kept e
  | busUndervoltage => exact execBusUndervoltage_kept e
  | supplyGraceExpire => exact execSupplyGraceExpire_kept e
  | vaonRise => exact execVaonRise_kept e
  | railGood => exact execRailGood_kept e
  | railEnableTimeout => exact execRailEnableTimeout_kept e
  | sequencerRetry => exact execSequencerRetry_kept e
  | vin12Loss => exact execVin12Loss_kept e
  | railFall => exact execRailFall_kept e
  | govEnableWrite agent en => exact execGovEnableWrite_kept (a1 := agent) e
  | chopEngage => exact execChopEngage_kept e
  | chopRelease => exact execChopRelease_kept e
  | chopFault => exact execChopFault_kept e
  | busLatch => exact execBusLatch_kept e
  | chopClr agent vmot => exact execChopClr_kept (a1 := agent) e
  | latchClr agent vmot => exact execLatchClr_kept (a1 := agent) e
  | mbusEnableWrite agent en => exact execMbusEnableWrite_kept (a1 := agent) e
  | boostEnableWrite agent en => exact execBoostEnableWrite_kept (a1 := agent) e
  | boostSoftStartDone => exact execBoostSoftStartDone_kept e
  | vlasUndervoltage => exact execVlasUndervoltage_kept e
  | boostFault => exact execBoostFault_kept e
  | boostClr agent => exact execBoostClr_kept (a1 := agent) e
  | dormantEnter => exact execDormantEnter_kept e
  | wakeEvent => exact execWakeEvent_kept e
  | supAlarmReached => exact execSupAlarmReached_kept e
  | wakeRdyRelease => exact execWakeRdyRelease_kept e
  | sourceFail => exact execSourceFail_kept e
  | sourceGood => exact execSourceGood_kept e
  | clkRelock agent loops => exact execClkRelock_kept (a1 := agent) e
  | loopLock => exact execLoopLock_kept e
  | lockLost => exact execLockLost_kept e
  | refSwitch agent sel => exact execRefSwitch_kept (a1 := agent) e
  | muxSwitchDone => exact execMuxSwitchDone_kept e
  | muxHung => exact execMuxHung_kept e
  | clkRescue => exact execClkRescue_kept e
  | rescueDone => exact execRescueDone_kept e
  | clkoutSelect => exact execClkoutSelect_kept e
  | clkoutDivChange => exact execClkoutDivChange_kept e
  | portEnableWrite agent port en => exact execPortEnableWrite_kept (a1 := agent) e
  | timeReadLatch => exact execTimeReadLatch_kept e
  | counterReadLatch => exact execCounterReadLatch_kept e
  | calrefCheck => exact execCalrefCheck_kept e
  | calTempTrigger => exact execCalTempTrigger_kept e
  | calRequest agent block => exact execCalRequest_kept (a1 := agent) e
  | calAutoRun => exact execCalAutoRun_kept e
  | calRunDone => exact execCalRunDone_kept e
  | calIdleApply => exact execCalIdleApply_kept e
  | calRecordRead agent => exact execCalRecordRead_kept (a1 := agent) e
  | calRecordWrite agent => exact execCalRecordWrite_kept (a1 := agent) e
  | faultReport => exact execFaultReport_kept e
  | heartbeatLoss => exact execHeartbeatLoss_kept e
  | fmIsolate agent heads => exact execFmIsolate_kept (a1 := agent) e
  | fmReinstate agent heads alive => exact execFmReinstate_kept (a1 := agent) e
  | lockstepMismatch => exact execLockstepMismatch_kept e
  | safeExt => exact execSafeExt_kept e
  | sqKick agent value => exact execSqKick_kept (a1 := agent) e
  | watchdogEnable agent => exact execWatchdogEnable_kept (a1 := agent) e
  | wdExpire => exact execWdExpire_kept e
  | safeReq => exact execSafeReq_kept e
  | warmReset agent value => exact execWarmReset_kept (a1 := agent) e
  | coreReset agent value => exact execCoreReset_kept (a1 := agent) e
  | porRequest agent value => exact execPorRequest_kept (a1 := agent) e
  | resetPin => exact execResetPin_kept e
  | boot => exact execBoot_kept e
  | recoveryStatus => exact execRecoveryStatus_kept e
  | recoveryErase => exact execRecoveryErase_kept e
  | recoveryProgram => exact execRecoveryProgram_kept e
  | recoveryRead => exact execRecoveryRead_kept e
  | recoveryReboot => exact execRecoveryReboot_kept e
  | mgmtStatus => exact execMgmtStatus_kept e
  | mgmtUnsupportedRequest => exact execMgmtUnsupportedRequest_kept e
  | spiTransferDone => exact execSpiTransferDone_kept e
  | spiBusyTimeout => exact execSpiBusyTimeout_kept e
  | gpioFuncWrite => exact execGpioFuncWrite_kept e
  | gpioOeSet => exact execGpioOeSet_kept e
  | gpioOeClr => exact execGpioOeClr_kept e
  | gpioOutSet => exact execGpioOutSet_kept e
  | gpioOutClr => exact execGpioOutClr_kept e
  | tmrCfgWrite => exact execTmrCfgWrite_kept e
  | gpioEdgeEvent => exact execGpioEdgeEvent_kept e
  | timerPeriodStart => exact execTimerPeriodStart_kept e
  | kerbStatusRead => exact execKerbStatusRead_kept e
  | kerbInboundWrite => exact execKerbInboundWrite_kept e
  | kerbCommandWrite => exact execKerbCommandWrite_kept e
  | kerbIntClear => exact execKerbIntClear_kept e
  | kerbWakeWord => exact execKerbWakeWord_kept e
  | kerbAckAccess => exact execKerbAckAccess_kept e
  | kerbProtocolError => exact execKerbProtocolError_kept e
  | kerbResponderSwitch => exact execKerbResponderSwitch_kept e
  | kerbCopyRefresh => exact execKerbCopyRefresh_kept e
  | smbusReadWord => exact execSmbusReadWord_kept e
  | smbusBlockRead => exact execSmbusBlockRead_kept e
  | smbusNack => exact execSmbusNack_kept e
  | smbusAlertResponse => exact execSmbusAlertResponse_kept e
  | jtagTapReset => exact execJtagTapReset_kept e
  | idcode => exact execIdcode_kept e
  | samplePreload => exact execSamplePreload_kept e
  | extest => exact execExtest_kept e
  | clamp => exact execClamp_kept e
  | highz => exact execHighz_kept e
  | bypass => exact execBypass_kept e
  | debugAccess => exact execDebugAccess_kept e
  | railWindowReturn => exact execRailWindowReturn_kept e
  | vin12Good => exact execVin12Good_kept e
  | pageIdleExpire => exact execPageIdleExpire_kept e
  | kerbStrobeRise => exact execKerbStrobeRise_kept e
  | illegalInstr => exact execIllegalInstr_kept e

/-- An idle step changes chip time only. -/
theorem idle_kept (s : State) : Kept 0x4 s (idle s) := by
  unfold idle
  exact kept_chipTime (Kept.same _ _) (by decide)

end Machine
end Sys2Proof
end

