-- ==== Sys2Proof/Laws/State.lean ====
section
/-! SUPPORT. What each named update of the state leaves in each field, by rfl, so that no proof unfolds an update. -/

namespace Sys2Proof
namespace Machine

@[simp] theorem fset_eq (s : State) (f : Fld) : fset s f = fput s f 1 := rfl
@[simp] theorem fclr_eq (s : State) (f : Fld) : fclr s f = fput s f 0 := rfl
@[simp] theorem fputB_eq (s : State) (f : Fld) (b : Bool) : fputB s f b = fput s f (if b then 1 else 0) := rfl
@[simp] theorem replyError_eq (s : State) : replyError s = reply s .busError 0 [] := rfl

/-! ### wr -/

section
variable (s : State) (a : Nat) (v : Word)

@[simp] theorem wr_variant : (wr s a v).variant = s.variant := rfl
@[simp] theorem wr_keyFused : (wr s a v).keyFused = s.keyFused := rfl
@[simp] theorem wr_chipTime : (wr s a v).chipTime = s.chipTime := rfl
@[simp] theorem wr_regs : (wr s a v).regs = aset s.regs a v := rfl
@[simp] theorem wr_pend : (wr s a v).pend = s.pend := rfl
@[simp] theorem wr_mem : (wr s a v).mem = s.mem := rfl
@[simp] theorem wr_poison : (wr s a v).poison = s.poison := rfl
@[simp] theorem wr_lastReply : (wr s a v).lastReply = s.lastReply := rfl
@[simp] theorem wr_rbt : (wr s a v).rbt = s.rbt := rfl
@[simp] theorem wr_xing : (wr s a v).xing = s.xing := rfl
@[simp] theorem wr_pace : (wr s a v).pace = s.pace := rfl
@[simp] theorem wr_links : (wr s a v).links = s.links := rfl
@[simp] theorem wr_counters : (wr s a v).counters = s.counters := rfl
@[simp] theorem wr_wraps : (wr s a v).wraps = s.wraps := rfl
@[simp] theorem wr_tbLatch : (wr s a v).tbLatch = s.tbLatch := rfl
@[simp] theorem wr_pcLatch : (wr s a v).pcLatch = s.pcLatch := rfl
@[simp] theorem wr_freeCtr : (wr s a v).freeCtr = s.freeCtr := rfl
@[simp] theorem wr_arcade : (wr s a v).arcade = s.arcade := rfl
@[simp] theorem wr_l1d : (wr s a v).l1d = s.l1d := rfl
@[simp] theorem wr_l1i : (wr s a v).l1i = s.l1i := rfl
@[simp] theorem wr_dramErr : (wr s a v).dramErr = s.dramErr := rfl
@[simp] theorem wr_chkErr : (wr s a v).chkErr = s.chkErr := rfl
@[simp] theorem wr_dram : (wr s a v).dram = s.dram := rfl
@[simp] theorem wr_dramSelfReq : (wr s a v).dramSelfReq = s.dramSelfReq := rfl
@[simp] theorem wr_tcmErr : (wr s a v).tcmErr = s.tcmErr := rfl
@[simp] theorem wr_sramErr : (wr s a v).sramErr = s.sramErr := rfl
@[simp] theorem wr_reports : (wr s a v).reports = s.reports := rfl
@[simp] theorem wr_fifo : (wr s a v).fifo = s.fifo := rfl
@[simp] theorem wr_ch : (wr s a v).ch = s.ch := rfl
@[simp] theorem wr_hb : (wr s a v).hb = s.hb := rfl
@[simp] theorem wr_packets : (wr s a v).packets = s.packets := rfl
@[simp] theorem wr_packetCtr : (wr s a v).packetCtr = s.packetCtr := rfl
@[simp] theorem wr_slices : (wr s a v).slices = s.slices := rfl
@[simp] theorem wr_decWait : (wr s a v).decWait = s.decWait := rfl
@[simp] theorem wr_decDiscard : (wr s a v).decDiscard = s.decDiscard := rfl
@[simp] theorem wr_decDrop : (wr s a v).decDrop = s.decDrop := rfl
@[simp] theorem wr_tiles : (wr s a v).tiles = s.tiles := rfl
@[simp] theorem wr_tileCtr : (wr s a v).tileCtr = s.tileCtr := rfl
@[simp] theorem wr_spans : (wr s a v).spans = s.spans := rfl
@[simp] theorem wr_weakTiles : (wr s a v).weakTiles = s.weakTiles := rfl
@[simp] theorem wr_shortHeads : (wr s a v).shortHeads = s.shortHeads := rfl
@[simp] theorem wr_swpSubmits : (wr s a v).swpSubmits = s.swpSubmits := rfl
@[simp] theorem wr_swpQueue : (wr s a v).swpQueue = s.swpQueue := rfl
@[simp] theorem wr_swpCur : (wr s a v).swpCur = s.swpCur := rfl
@[simp] theorem wr_swpStart : (wr s a v).swpStart = s.swpStart := rfl
@[simp] theorem wr_swpOpened : (wr s a v).swpOpened = s.swpOpened := rfl
@[simp] theorem wr_swpCtr : (wr s a v).swpCtr = s.swpCtr := rfl
@[simp] theorem wr_swpStop : (wr s a v).swpStop = s.swpStop := rfl
@[simp] theorem wr_swpAborted : (wr s a v).swpAborted = s.swpAborted := rfl
@[simp] theorem wr_winFlags : (wr s a v).winFlags = s.winFlags := rfl
@[simp] theorem wr_swpLate : (wr s a v).swpLate = s.swpLate := rfl
@[simp] theorem wr_swpTail : (wr s a v).swpTail = s.swpTail := rfl
@[simp] theorem wr_wc : (wr s a v).wc = s.wc := rfl
@[simp] theorem wr_se : (wr s a v).se = s.se := rfl
@[simp] theorem wr_sled : (wr s a v).sled = s.sled := rfl
@[simp] theorem wr_spn : (wr s a v).spn = s.spn := rfl
@[simp] theorem wr_cal : (wr s a v).cal = s.cal := rfl
@[simp] theorem wr_retrained : (wr s a v).retrained = s.retrained := rfl
@[simp] theorem wr_host : (wr s a v).host = s.host := rfl
@[simp] theorem wr_disc : (wr s a v).disc = s.disc := rfl
@[simp] theorem wr_arv : (wr s a v).arv = s.arv := rfl
@[simp] theorem wr_ddrForce : (wr s a v).ddrForce = s.ddrForce := rfl
@[simp] theorem wr_clk : (wr s a v).clk = s.clk := rfl
@[simp] theorem wr_sup : (wr s a v).sup = s.sup := rfl
@[simp] theorem wr_sq : (wr s a v).sq = s.sq := rfl
@[simp] theorem wr_boot : (wr s a v).boot = s.boot := rfl
@[simp] theorem wr_pins : (wr s a v).pins = s.pins := rfl
@[simp] theorem wr_core : (wr s a v).core = s.core := rfl
@[simp] theorem wr_pending : (wr s a v).pending = s.pending := rfl

end

/-! ### fput -/

section
variable (s : State) (f : Fld) (x : Nat)

@[simp] theorem fput_variant : (fput s f x).variant = s.variant := rfl
@[simp] theorem fput_keyFused : (fput s f x).keyFused = s.keyFused := rfl
@[simp] theorem fput_chipTime : (fput s f x).chipTime = s.chipTime := rfl
@[simp] theorem fput_pend : (fput s f x).pend = s.pend := rfl
@[simp] theorem fput_mem : (fput s f x).mem = s.mem := rfl
@[simp] theorem fput_poison : (fput s f x).poison = s.poison := rfl
@[simp] theorem fput_lastReply : (fput s f x).lastReply = s.lastReply := rfl
@[simp] theorem fput_rbt : (fput s f x).rbt = s.rbt := rfl
@[simp] theorem fput_xing : (fput s f x).xing = s.xing := rfl
@[simp] theorem fput_pace : (fput s f x).pace = s.pace := rfl
@[simp] theorem fput_links : (fput s f x).links = s.links := rfl
@[simp] theorem fput_counters : (fput s f x).counters = s.counters := rfl
@[simp] theorem fput_wraps : (fput s f x).wraps = s.wraps := rfl
@[simp] theorem fput_tbLatch : (fput s f x).tbLatch = s.tbLatch := rfl
@[simp] theorem fput_pcLatch : (fput s f x).pcLatch = s.pcLatch := rfl
@[simp] theorem fput_freeCtr : (fput s f x).freeCtr = s.freeCtr := rfl
@[simp] theorem fput_arcade : (fput s f x).arcade = s.arcade := rfl
@[simp] theorem fput_l1d : (fput s f x).l1d = s.l1d := rfl
@[simp] theorem fput_l1i : (fput s f x).l1i = s.l1i := rfl
@[simp] theorem fput_dramErr : (fput s f x).dramErr = s.dramErr := rfl
@[simp] theorem fput_chkErr : (fput s f x).chkErr = s.chkErr := rfl
@[simp] theorem fput_dram : (fput s f x).dram = s.dram := rfl
@[simp] theorem fput_dramSelfReq : (fput s f x).dramSelfReq = s.dramSelfReq := rfl
@[simp] theorem fput_tcmErr : (fput s f x).tcmErr = s.tcmErr := rfl
@[simp] theorem fput_sramErr : (fput s f x).sramErr = s.sramErr := rfl
@[simp] theorem fput_reports : (fput s f x).reports = s.reports := rfl
@[simp] theorem fput_fifo : (fput s f x).fifo = s.fifo := rfl
@[simp] theorem fput_ch : (fput s f x).ch = s.ch := rfl
@[simp] theorem fput_hb : (fput s f x).hb = s.hb := rfl
@[simp] theorem fput_packets : (fput s f x).packets = s.packets := rfl
@[simp] theorem fput_packetCtr : (fput s f x).packetCtr = s.packetCtr := rfl
@[simp] theorem fput_slices : (fput s f x).slices = s.slices := rfl
@[simp] theorem fput_decWait : (fput s f x).decWait = s.decWait := rfl
@[simp] theorem fput_decDiscard : (fput s f x).decDiscard = s.decDiscard := rfl
@[simp] theorem fput_decDrop : (fput s f x).decDrop = s.decDrop := rfl
@[simp] theorem fput_tiles : (fput s f x).tiles = s.tiles := rfl
@[simp] theorem fput_tileCtr : (fput s f x).tileCtr = s.tileCtr := rfl
@[simp] theorem fput_spans : (fput s f x).spans = s.spans := rfl
@[simp] theorem fput_weakTiles : (fput s f x).weakTiles = s.weakTiles := rfl
@[simp] theorem fput_shortHeads : (fput s f x).shortHeads = s.shortHeads := rfl
@[simp] theorem fput_swpSubmits : (fput s f x).swpSubmits = s.swpSubmits := rfl
@[simp] theorem fput_swpQueue : (fput s f x).swpQueue = s.swpQueue := rfl
@[simp] theorem fput_swpCur : (fput s f x).swpCur = s.swpCur := rfl
@[simp] theorem fput_swpStart : (fput s f x).swpStart = s.swpStart := rfl
@[simp] theorem fput_swpOpened : (fput s f x).swpOpened = s.swpOpened := rfl
@[simp] theorem fput_swpCtr : (fput s f x).swpCtr = s.swpCtr := rfl
@[simp] theorem fput_swpStop : (fput s f x).swpStop = s.swpStop := rfl
@[simp] theorem fput_swpAborted : (fput s f x).swpAborted = s.swpAborted := rfl
@[simp] theorem fput_winFlags : (fput s f x).winFlags = s.winFlags := rfl
@[simp] theorem fput_swpLate : (fput s f x).swpLate = s.swpLate := rfl
@[simp] theorem fput_swpTail : (fput s f x).swpTail = s.swpTail := rfl
@[simp] theorem fput_wc : (fput s f x).wc = s.wc := rfl
@[simp] theorem fput_se : (fput s f x).se = s.se := rfl
@[simp] theorem fput_sled : (fput s f x).sled = s.sled := rfl
@[simp] theorem fput_spn : (fput s f x).spn = s.spn := rfl
@[simp] theorem fput_cal : (fput s f x).cal = s.cal := rfl
@[simp] theorem fput_retrained : (fput s f x).retrained = s.retrained := rfl
@[simp] theorem fput_host : (fput s f x).host = s.host := rfl
@[simp] theorem fput_disc : (fput s f x).disc = s.disc := rfl
@[simp] theorem fput_arv : (fput s f x).arv = s.arv := rfl
@[simp] theorem fput_ddrForce : (fput s f x).ddrForce = s.ddrForce := rfl
@[simp] theorem fput_clk : (fput s f x).clk = s.clk := rfl
@[simp] theorem fput_sup : (fput s f x).sup = s.sup := rfl
@[simp] theorem fput_sq : (fput s f x).sq = s.sq := rfl
@[simp] theorem fput_boot : (fput s f x).boot = s.boot := rfl
@[simp] theorem fput_pins : (fput s f x).pins = s.pins := rfl
@[simp] theorem fput_core : (fput s f x).core = s.core := rfl
@[simp] theorem fput_pending : (fput s f x).pending = s.pending := rfl

end

/-! ### reply -/

section
variable (s : State) (st : BusStatus) (v : Nat) (bs : List Byte)

@[simp] theorem reply_variant : (reply s st v bs).variant = s.variant := rfl
@[simp] theorem reply_keyFused : (reply s st v bs).keyFused = s.keyFused := rfl
@[simp] theorem reply_chipTime : (reply s st v bs).chipTime = s.chipTime := rfl
@[simp] theorem reply_regs : (reply s st v bs).regs = s.regs := rfl
@[simp] theorem reply_pend : (reply s st v bs).pend = s.pend := rfl
@[simp] theorem reply_mem : (reply s st v bs).mem = s.mem := rfl
@[simp] theorem reply_poison : (reply s st v bs).poison = s.poison := rfl
@[simp] theorem reply_lastReply : (reply s st v bs).lastReply = ⟨st, v, bs⟩ := rfl
@[simp] theorem reply_rbt : (reply s st v bs).rbt = s.rbt := rfl
@[simp] theorem reply_xing : (reply s st v bs).xing = s.xing := rfl
@[simp] theorem reply_pace : (reply s st v bs).pace = s.pace := rfl
@[simp] theorem reply_links : (reply s st v bs).links = s.links := rfl
@[simp] theorem reply_counters : (reply s st v bs).counters = s.counters := rfl
@[simp] theorem reply_wraps : (reply s st v bs).wraps = s.wraps := rfl
@[simp] theorem reply_tbLatch : (reply s st v bs).tbLatch = s.tbLatch := rfl
@[simp] theorem reply_pcLatch : (reply s st v bs).pcLatch = s.pcLatch := rfl
@[simp] theorem reply_freeCtr : (reply s st v bs).freeCtr = s.freeCtr := rfl
@[simp] theorem reply_arcade : (reply s st v bs).arcade = s.arcade := rfl
@[simp] theorem reply_l1d : (reply s st v bs).l1d = s.l1d := rfl
@[simp] theorem reply_l1i : (reply s st v bs).l1i = s.l1i := rfl
@[simp] theorem reply_dramErr : (reply s st v bs).dramErr = s.dramErr := rfl
@[simp] theorem reply_chkErr : (reply s st v bs).chkErr = s.chkErr := rfl
@[simp] theorem reply_dram : (reply s st v bs).dram = s.dram := rfl
@[simp] theorem reply_dramSelfReq : (reply s st v bs).dramSelfReq = s.dramSelfReq := rfl
@[simp] theorem reply_tcmErr : (reply s st v bs).tcmErr = s.tcmErr := rfl
@[simp] theorem reply_sramErr : (reply s st v bs).sramErr = s.sramErr := rfl
@[simp] theorem reply_reports : (reply s st v bs).reports = s.reports := rfl
@[simp] theorem reply_fifo : (reply s st v bs).fifo = s.fifo := rfl
@[simp] theorem reply_ch : (reply s st v bs).ch = s.ch := rfl
@[simp] theorem reply_hb : (reply s st v bs).hb = s.hb := rfl
@[simp] theorem reply_packets : (reply s st v bs).packets = s.packets := rfl
@[simp] theorem reply_packetCtr : (reply s st v bs).packetCtr = s.packetCtr := rfl
@[simp] theorem reply_slices : (reply s st v bs).slices = s.slices := rfl
@[simp] theorem reply_decWait : (reply s st v bs).decWait = s.decWait := rfl
@[simp] theorem reply_decDiscard : (reply s st v bs).decDiscard = s.decDiscard := rfl
@[simp] theorem reply_decDrop : (reply s st v bs).decDrop = s.decDrop := rfl
@[simp] theorem reply_tiles : (reply s st v bs).tiles = s.tiles := rfl
@[simp] theorem reply_tileCtr : (reply s st v bs).tileCtr = s.tileCtr := rfl
@[simp] theorem reply_spans : (reply s st v bs).spans = s.spans := rfl
@[simp] theorem reply_weakTiles : (reply s st v bs).weakTiles = s.weakTiles := rfl
@[simp] theorem reply_shortHeads : (reply s st v bs).shortHeads = s.shortHeads := rfl
@[simp] theorem reply_swpSubmits : (reply s st v bs).swpSubmits = s.swpSubmits := rfl
@[simp] theorem reply_swpQueue : (reply s st v bs).swpQueue = s.swpQueue := rfl
@[simp] theorem reply_swpCur : (reply s st v bs).swpCur = s.swpCur := rfl
@[simp] theorem reply_swpStart : (reply s st v bs).swpStart = s.swpStart := rfl
@[simp] theorem reply_swpOpened : (reply s st v bs).swpOpened = s.swpOpened := rfl
@[simp] theorem reply_swpCtr : (reply s st v bs).swpCtr = s.swpCtr := rfl
@[simp] theorem reply_swpStop : (reply s st v bs).swpStop = s.swpStop := rfl
@[simp] theorem reply_swpAborted : (reply s st v bs).swpAborted = s.swpAborted := rfl
@[simp] theorem reply_winFlags : (reply s st v bs).winFlags = s.winFlags := rfl
@[simp] theorem reply_swpLate : (reply s st v bs).swpLate = s.swpLate := rfl
@[simp] theorem reply_swpTail : (reply s st v bs).swpTail = s.swpTail := rfl
@[simp] theorem reply_wc : (reply s st v bs).wc = s.wc := rfl
@[simp] theorem reply_se : (reply s st v bs).se = s.se := rfl
@[simp] theorem reply_sled : (reply s st v bs).sled = s.sled := rfl
@[simp] theorem reply_spn : (reply s st v bs).spn = s.spn := rfl
@[simp] theorem reply_cal : (reply s st v bs).cal = s.cal := rfl
@[simp] theorem reply_retrained : (reply s st v bs).retrained = s.retrained := rfl
@[simp] theorem reply_host : (reply s st v bs).host = s.host := rfl
@[simp] theorem reply_disc : (reply s st v bs).disc = s.disc := rfl
@[simp] theorem reply_arv : (reply s st v bs).arv = s.arv := rfl
@[simp] theorem reply_ddrForce : (reply s st v bs).ddrForce = s.ddrForce := rfl
@[simp] theorem reply_clk : (reply s st v bs).clk = s.clk := rfl
@[simp] theorem reply_sup : (reply s st v bs).sup = s.sup := rfl
@[simp] theorem reply_sq : (reply s st v bs).sq = s.sq := rfl
@[simp] theorem reply_boot : (reply s st v bs).boot = s.boot := rfl
@[simp] theorem reply_pins : (reply s st v bs).pins = s.pins := rfl
@[simp] theorem reply_core : (reply s st v bs).core = s.core := rfl
@[simp] theorem reply_pending : (reply s st v bs).pending = s.pending := rfl
@[simp] theorem reply_rd (b : Nat) : rd (reply s st v bs) b = rd s b := rfl
@[simp] theorem reply_fget (g : Fld) : fget (reply s st v bs) g = fget s g := rfl
@[simp] theorem reply_fbit (g : Fld) : fbit (reply s st v bs) g = fbit s g := rfl

end

/-! ### tickFree -/

section
variable (s : State) 

@[simp] theorem tickFree_variant : (tickFree s).variant = s.variant := rfl
@[simp] theorem tickFree_keyFused : (tickFree s).keyFused = s.keyFused := rfl
@[simp] theorem tickFree_chipTime : (tickFree s).chipTime = s.chipTime := rfl
@[simp] theorem tickFree_regs : (tickFree s).regs = s.regs := rfl
@[simp] theorem tickFree_pend : (tickFree s).pend = s.pend := rfl
@[simp] theorem tickFree_mem : (tickFree s).mem = s.mem := rfl
@[simp] theorem tickFree_poison : (tickFree s).poison = s.poison := rfl
@[simp] theorem tickFree_lastReply : (tickFree s).lastReply = s.lastReply := rfl
@[simp] theorem tickFree_rbt : (tickFree s).rbt = s.rbt := rfl
@[simp] theorem tickFree_xing : (tickFree s).xing = s.xing := rfl
@[simp] theorem tickFree_pace : (tickFree s).pace = s.pace := rfl
@[simp] theorem tickFree_links : (tickFree s).links = s.links := rfl
@[simp] theorem tickFree_counters : (tickFree s).counters = s.counters := rfl
@[simp] theorem tickFree_wraps : (tickFree s).wraps = s.wraps := rfl
@[simp] theorem tickFree_tbLatch : (tickFree s).tbLatch = s.tbLatch := rfl
@[simp] theorem tickFree_pcLatch : (tickFree s).pcLatch = s.pcLatch := rfl
@[simp] theorem tickFree_freeCtr : (tickFree s).freeCtr = s.freeCtr + 1 := rfl
@[simp] theorem tickFree_arcade : (tickFree s).arcade = s.arcade := rfl
@[simp] theorem tickFree_l1d : (tickFree s).l1d = s.l1d := rfl
@[simp] theorem tickFree_l1i : (tickFree s).l1i = s.l1i := rfl
@[simp] theorem tickFree_dramErr : (tickFree s).dramErr = s.dramErr := rfl
@[simp] theorem tickFree_chkErr : (tickFree s).chkErr = s.chkErr := rfl
@[simp] theorem tickFree_dram : (tickFree s).dram = s.dram := rfl
@[simp] theorem tickFree_dramSelfReq : (tickFree s).dramSelfReq = s.dramSelfReq := rfl
@[simp] theorem tickFree_tcmErr : (tickFree s).tcmErr = s.tcmErr := rfl
@[simp] theorem tickFree_sramErr : (tickFree s).sramErr = s.sramErr := rfl
@[simp] theorem tickFree_reports : (tickFree s).reports = s.reports := rfl
@[simp] theorem tickFree_fifo : (tickFree s).fifo = s.fifo := rfl
@[simp] theorem tickFree_ch : (tickFree s).ch = s.ch := rfl
@[simp] theorem tickFree_hb : (tickFree s).hb = s.hb := rfl
@[simp] theorem tickFree_packets : (tickFree s).packets = s.packets := rfl
@[simp] theorem tickFree_packetCtr : (tickFree s).packetCtr = s.packetCtr := rfl
@[simp] theorem tickFree_slices : (tickFree s).slices = s.slices := rfl
@[simp] theorem tickFree_decWait : (tickFree s).decWait = s.decWait := rfl
@[simp] theorem tickFree_decDiscard : (tickFree s).decDiscard = s.decDiscard := rfl
@[simp] theorem tickFree_decDrop : (tickFree s).decDrop = s.decDrop := rfl
@[simp] theorem tickFree_tiles : (tickFree s).tiles = s.tiles := rfl
@[simp] theorem tickFree_tileCtr : (tickFree s).tileCtr = s.tileCtr := rfl
@[simp] theorem tickFree_spans : (tickFree s).spans = s.spans := rfl
@[simp] theorem tickFree_weakTiles : (tickFree s).weakTiles = s.weakTiles := rfl
@[simp] theorem tickFree_shortHeads : (tickFree s).shortHeads = s.shortHeads := rfl
@[simp] theorem tickFree_swpSubmits : (tickFree s).swpSubmits = s.swpSubmits := rfl
@[simp] theorem tickFree_swpQueue : (tickFree s).swpQueue = s.swpQueue := rfl
@[simp] theorem tickFree_swpCur : (tickFree s).swpCur = s.swpCur := rfl
@[simp] theorem tickFree_swpStart : (tickFree s).swpStart = s.swpStart := rfl
@[simp] theorem tickFree_swpOpened : (tickFree s).swpOpened = s.swpOpened := rfl
@[simp] theorem tickFree_swpCtr : (tickFree s).swpCtr = s.swpCtr := rfl
@[simp] theorem tickFree_swpStop : (tickFree s).swpStop = s.swpStop := rfl
@[simp] theorem tickFree_swpAborted : (tickFree s).swpAborted = s.swpAborted := rfl
@[simp] theorem tickFree_winFlags : (tickFree s).winFlags = s.winFlags := rfl
@[simp] theorem tickFree_swpLate : (tickFree s).swpLate = s.swpLate := rfl
@[simp] theorem tickFree_swpTail : (tickFree s).swpTail = s.swpTail := rfl
@[simp] theorem tickFree_wc : (tickFree s).wc = s.wc := rfl
@[simp] theorem tickFree_se : (tickFree s).se = s.se := rfl
@[simp] theorem tickFree_sled : (tickFree s).sled = s.sled := rfl
@[simp] theorem tickFree_spn : (tickFree s).spn = s.spn := rfl
@[simp] theorem tickFree_cal : (tickFree s).cal = s.cal := rfl
@[simp] theorem tickFree_retrained : (tickFree s).retrained = s.retrained := rfl
@[simp] theorem tickFree_host : (tickFree s).host = s.host := rfl
@[simp] theorem tickFree_disc : (tickFree s).disc = s.disc := rfl
@[simp] theorem tickFree_arv : (tickFree s).arv = s.arv := rfl
@[simp] theorem tickFree_ddrForce : (tickFree s).ddrForce = s.ddrForce := rfl
@[simp] theorem tickFree_clk : (tickFree s).clk = s.clk := rfl
@[simp] theorem tickFree_sup : (tickFree s).sup = s.sup := rfl
@[simp] theorem tickFree_sq : (tickFree s).sq = s.sq := rfl
@[simp] theorem tickFree_boot : (tickFree s).boot = s.boot := rfl
@[simp] theorem tickFree_pins : (tickFree s).pins = s.pins := rfl
@[simp] theorem tickFree_core : (tickFree s).core = s.core := rfl
@[simp] theorem tickFree_pending : (tickFree s).pending = s.pending := rfl
@[simp] theorem tickFree_rd (b : Nat) : rd (tickFree s) b = rd s b := rfl
@[simp] theorem tickFree_fget (g : Fld) : fget (tickFree s) g = fget s g := rfl
@[simp] theorem tickFree_fbit (g : Fld) : fbit (tickFree s) g = fbit s g := rfl

end

/-! ### tickFrees -/

section
variable (s : State) (n : Nat)

@[simp] theorem tickFrees_variant : (tickFrees s n).variant = s.variant := rfl
@[simp] theorem tickFrees_keyFused : (tickFrees s n).keyFused = s.keyFused := rfl
@[simp] theorem tickFrees_chipTime : (tickFrees s n).chipTime = s.chipTime := rfl
@[simp] theorem tickFrees_regs : (tickFrees s n).regs = s.regs := rfl
@[simp] theorem tickFrees_pend : (tickFrees s n).pend = s.pend := rfl
@[simp] theorem tickFrees_mem : (tickFrees s n).mem = s.mem := rfl
@[simp] theorem tickFrees_poison : (tickFrees s n).poison = s.poison := rfl
@[simp] theorem tickFrees_lastReply : (tickFrees s n).lastReply = s.lastReply := rfl
@[simp] theorem tickFrees_rbt : (tickFrees s n).rbt = s.rbt := rfl
@[simp] theorem tickFrees_xing : (tickFrees s n).xing = s.xing := rfl
@[simp] theorem tickFrees_pace : (tickFrees s n).pace = s.pace := rfl
@[simp] theorem tickFrees_links : (tickFrees s n).links = s.links := rfl
@[simp] theorem tickFrees_counters : (tickFrees s n).counters = s.counters := rfl
@[simp] theorem tickFrees_wraps : (tickFrees s n).wraps = s.wraps := rfl
@[simp] theorem tickFrees_tbLatch : (tickFrees s n).tbLatch = s.tbLatch := rfl
@[simp] theorem tickFrees_pcLatch : (tickFrees s n).pcLatch = s.pcLatch := rfl
@[simp] theorem tickFrees_freeCtr : (tickFrees s n).freeCtr = s.freeCtr + n := rfl
@[simp] theorem tickFrees_arcade : (tickFrees s n).arcade = s.arcade := rfl
@[simp] theorem tickFrees_l1d : (tickFrees s n).l1d = s.l1d := rfl
@[simp] theorem tickFrees_l1i : (tickFrees s n).l1i = s.l1i := rfl
@[simp] theorem tickFrees_dramErr : (tickFrees s n).dramErr = s.dramErr := rfl
@[simp] theorem tickFrees_chkErr : (tickFrees s n).chkErr = s.chkErr := rfl
@[simp] theorem tickFrees_dram : (tickFrees s n).dram = s.dram := rfl
@[simp] theorem tickFrees_dramSelfReq : (tickFrees s n).dramSelfReq = s.dramSelfReq := rfl
@[simp] theorem tickFrees_tcmErr : (tickFrees s n).tcmErr = s.tcmErr := rfl
@[simp] theorem tickFrees_sramErr : (tickFrees s n).sramErr = s.sramErr := rfl
@[simp] theorem tickFrees_reports : (tickFrees s n).reports = s.reports := rfl
@[simp] theorem tickFrees_fifo : (tickFrees s n).fifo = s.fifo := rfl
@[simp] theorem tickFrees_ch : (tickFrees s n).ch = s.ch := rfl
@[simp] theorem tickFrees_hb : (tickFrees s n).hb = s.hb := rfl
@[simp] theorem tickFrees_packets : (tickFrees s n).packets = s.packets := rfl
@[simp] theorem tickFrees_packetCtr : (tickFrees s n).packetCtr = s.packetCtr := rfl
@[simp] theorem tickFrees_slices : (tickFrees s n).slices = s.slices := rfl
@[simp] theorem tickFrees_decWait : (tickFrees s n).decWait = s.decWait := rfl
@[simp] theorem tickFrees_decDiscard : (tickFrees s n).decDiscard = s.decDiscard := rfl
@[simp] theorem tickFrees_decDrop : (tickFrees s n).decDrop = s.decDrop := rfl
@[simp] theorem tickFrees_tiles : (tickFrees s n).tiles = s.tiles := rfl
@[simp] theorem tickFrees_tileCtr : (tickFrees s n).tileCtr = s.tileCtr := rfl
@[simp] theorem tickFrees_spans : (tickFrees s n).spans = s.spans := rfl
@[simp] theorem tickFrees_weakTiles : (tickFrees s n).weakTiles = s.weakTiles := rfl
@[simp] theorem tickFrees_shortHeads : (tickFrees s n).shortHeads = s.shortHeads := rfl
@[simp] theorem tickFrees_swpSubmits : (tickFrees s n).swpSubmits = s.swpSubmits := rfl
@[simp] theorem tickFrees_swpQueue : (tickFrees s n).swpQueue = s.swpQueue := rfl
@[simp] theorem tickFrees_swpCur : (tickFrees s n).swpCur = s.swpCur := rfl
@[simp] theorem tickFrees_swpStart : (tickFrees s n).swpStart = s.swpStart := rfl
@[simp] theorem tickFrees_swpOpened : (tickFrees s n).swpOpened = s.swpOpened := rfl
@[simp] theorem tickFrees_swpCtr : (tickFrees s n).swpCtr = s.swpCtr := rfl
@[simp] theorem tickFrees_swpStop : (tickFrees s n).swpStop = s.swpStop := rfl
@[simp] theorem tickFrees_swpAborted : (tickFrees s n).swpAborted = s.swpAborted := rfl
@[simp] theorem tickFrees_winFlags : (tickFrees s n).winFlags = s.winFlags := rfl
@[simp] theorem tickFrees_swpLate : (tickFrees s n).swpLate = s.swpLate := rfl
@[simp] theorem tickFrees_swpTail : (tickFrees s n).swpTail = s.swpTail := rfl
@[simp] theorem tickFrees_wc : (tickFrees s n).wc = s.wc := rfl
@[simp] theorem tickFrees_se : (tickFrees s n).se = s.se := rfl
@[simp] theorem tickFrees_sled : (tickFrees s n).sled = s.sled := rfl
@[simp] theorem tickFrees_spn : (tickFrees s n).spn = s.spn := rfl
@[simp] theorem tickFrees_cal : (tickFrees s n).cal = s.cal := rfl
@[simp] theorem tickFrees_retrained : (tickFrees s n).retrained = s.retrained := rfl
@[simp] theorem tickFrees_host : (tickFrees s n).host = s.host := rfl
@[simp] theorem tickFrees_disc : (tickFrees s n).disc = s.disc := rfl
@[simp] theorem tickFrees_arv : (tickFrees s n).arv = s.arv := rfl
@[simp] theorem tickFrees_ddrForce : (tickFrees s n).ddrForce = s.ddrForce := rfl
@[simp] theorem tickFrees_clk : (tickFrees s n).clk = s.clk := rfl
@[simp] theorem tickFrees_sup : (tickFrees s n).sup = s.sup := rfl
@[simp] theorem tickFrees_sq : (tickFrees s n).sq = s.sq := rfl
@[simp] theorem tickFrees_boot : (tickFrees s n).boot = s.boot := rfl
@[simp] theorem tickFrees_pins : (tickFrees s n).pins = s.pins := rfl
@[simp] theorem tickFrees_core : (tickFrees s n).core = s.core := rfl
@[simp] theorem tickFrees_pending : (tickFrees s n).pending = s.pending := rfl
@[simp] theorem tickFrees_rd (b : Nat) : rd (tickFrees s n) b = rd s b := rfl
@[simp] theorem tickFrees_fget (g : Fld) : fget (tickFrees s n) g = fget s g := rfl
@[simp] theorem tickFrees_fbit (g : Fld) : fbit (tickFrees s n) g = fbit s g := rfl

end

/-! ### setPoison -/

section
variable (s : State) (a : Nat) (p : Bool)

@[simp] theorem setPoison_variant : (setPoison s a p).variant = s.variant := rfl
@[simp] theorem setPoison_keyFused : (setPoison s a p).keyFused = s.keyFused := rfl
@[simp] theorem setPoison_chipTime : (setPoison s a p).chipTime = s.chipTime := rfl
@[simp] theorem setPoison_regs : (setPoison s a p).regs = s.regs := rfl
@[simp] theorem setPoison_pend : (setPoison s a p).pend = s.pend := rfl
@[simp] theorem setPoison_mem : (setPoison s a p).mem = s.mem := rfl
@[simp] theorem setPoison_lastReply : (setPoison s a p).lastReply = s.lastReply := rfl
@[simp] theorem setPoison_rbt : (setPoison s a p).rbt = s.rbt := rfl
@[simp] theorem setPoison_xing : (setPoison s a p).xing = s.xing := rfl
@[simp] theorem setPoison_pace : (setPoison s a p).pace = s.pace := rfl
@[simp] theorem setPoison_links : (setPoison s a p).links = s.links := rfl
@[simp] theorem setPoison_counters : (setPoison s a p).counters = s.counters := rfl
@[simp] theorem setPoison_wraps : (setPoison s a p).wraps = s.wraps := rfl
@[simp] theorem setPoison_tbLatch : (setPoison s a p).tbLatch = s.tbLatch := rfl
@[simp] theorem setPoison_pcLatch : (setPoison s a p).pcLatch = s.pcLatch := rfl
@[simp] theorem setPoison_freeCtr : (setPoison s a p).freeCtr = s.freeCtr := rfl
@[simp] theorem setPoison_arcade : (setPoison s a p).arcade = s.arcade := rfl
@[simp] theorem setPoison_l1d : (setPoison s a p).l1d = s.l1d := rfl
@[simp] theorem setPoison_l1i : (setPoison s a p).l1i = s.l1i := rfl
@[simp] theorem setPoison_dramErr : (setPoison s a p).dramErr = s.dramErr := rfl
@[simp] theorem setPoison_chkErr : (setPoison s a p).chkErr = s.chkErr := rfl
@[simp] theorem setPoison_dram : (setPoison s a p).dram = s.dram := rfl
@[simp] theorem setPoison_dramSelfReq : (setPoison s a p).dramSelfReq = s.dramSelfReq := rfl
@[simp] theorem setPoison_tcmErr : (setPoison s a p).tcmErr = s.tcmErr := rfl
@[simp] theorem setPoison_sramErr : (setPoison s a p).sramErr = s.sramErr := rfl
@[simp] theorem setPoison_reports : (setPoison s a p).reports = s.reports := rfl
@[simp] theorem setPoison_fifo : (setPoison s a p).fifo = s.fifo := rfl
@[simp] theorem setPoison_ch : (setPoison s a p).ch = s.ch := rfl
@[simp] theorem setPoison_hb : (setPoison s a p).hb = s.hb := rfl
@[simp] theorem setPoison_packets : (setPoison s a p).packets = s.packets := rfl
@[simp] theorem setPoison_packetCtr : (setPoison s a p).packetCtr = s.packetCtr := rfl
@[simp] theorem setPoison_slices : (setPoison s a p).slices = s.slices := rfl
@[simp] theorem setPoison_decWait : (setPoison s a p).decWait = s.decWait := rfl
@[simp] theorem setPoison_decDiscard : (setPoison s a p).decDiscard = s.decDiscard := rfl
@[simp] theorem setPoison_decDrop : (setPoison s a p).decDrop = s.decDrop := rfl
@[simp] theorem setPoison_tiles : (setPoison s a p).tiles = s.tiles := rfl
@[simp] theorem setPoison_tileCtr : (setPoison s a p).tileCtr = s.tileCtr := rfl
@[simp] theorem setPoison_spans : (setPoison s a p).spans = s.spans := rfl
@[simp] theorem setPoison_weakTiles : (setPoison s a p).weakTiles = s.weakTiles := rfl
@[simp] theorem setPoison_shortHeads : (setPoison s a p).shortHeads = s.shortHeads := rfl
@[simp] theorem setPoison_swpSubmits : (setPoison s a p).swpSubmits = s.swpSubmits := rfl
@[simp] theorem setPoison_swpQueue : (setPoison s a p).swpQueue = s.swpQueue := rfl
@[simp] theorem setPoison_swpCur : (setPoison s a p).swpCur = s.swpCur := rfl
@[simp] theorem setPoison_swpStart : (setPoison s a p).swpStart = s.swpStart := rfl
@[simp] theorem setPoison_swpOpened : (setPoison s a p).swpOpened = s.swpOpened := rfl
@[simp] theorem setPoison_swpCtr : (setPoison s a p).swpCtr = s.swpCtr := rfl
@[simp] theorem setPoison_swpStop : (setPoison s a p).swpStop = s.swpStop := rfl
@[simp] theorem setPoison_swpAborted : (setPoison s a p).swpAborted = s.swpAborted := rfl
@[simp] theorem setPoison_winFlags : (setPoison s a p).winFlags = s.winFlags := rfl
@[simp] theorem setPoison_swpLate : (setPoison s a p).swpLate = s.swpLate := rfl
@[simp] theorem setPoison_swpTail : (setPoison s a p).swpTail = s.swpTail := rfl
@[simp] theorem setPoison_wc : (setPoison s a p).wc = s.wc := rfl
@[simp] theorem setPoison_se : (setPoison s a p).se = s.se := rfl
@[simp] theorem setPoison_sled : (setPoison s a p).sled = s.sled := rfl
@[simp] theorem setPoison_spn : (setPoison s a p).spn = s.spn := rfl
@[simp] theorem setPoison_cal : (setPoison s a p).cal = s.cal := rfl
@[simp] theorem setPoison_retrained : (setPoison s a p).retrained = s.retrained := rfl
@[simp] theorem setPoison_host : (setPoison s a p).host = s.host := rfl
@[simp] theorem setPoison_disc : (setPoison s a p).disc = s.disc := rfl
@[simp] theorem setPoison_arv : (setPoison s a p).arv = s.arv := rfl
@[simp] theorem setPoison_ddrForce : (setPoison s a p).ddrForce = s.ddrForce := rfl
@[simp] theorem setPoison_clk : (setPoison s a p).clk = s.clk := rfl
@[simp] theorem setPoison_sup : (setPoison s a p).sup = s.sup := rfl
@[simp] theorem setPoison_sq : (setPoison s a p).sq = s.sq := rfl
@[simp] theorem setPoison_boot : (setPoison s a p).boot = s.boot := rfl
@[simp] theorem setPoison_pins : (setPoison s a p).pins = s.pins := rfl
@[simp] theorem setPoison_core : (setPoison s a p).core = s.core := rfl
@[simp] theorem setPoison_pending : (setPoison s a p).pending = s.pending := rfl
@[simp] theorem setPoison_rd (b : Nat) : rd (setPoison s a p) b = rd s b := rfl
@[simp] theorem setPoison_fget (g : Fld) : fget (setPoison s a p) g = fget s g := rfl
@[simp] theorem setPoison_fbit (g : Fld) : fbit (setPoison s a p) g = fbit s g := rfl

end

/-! ### modRbt -/

section
variable (s : State) (r : Fin 21) (f : Rbt → Rbt)

@[simp] theorem modRbt_variant : (modRbt s r f).variant = s.variant := rfl
@[simp] theorem modRbt_keyFused : (modRbt s r f).keyFused = s.keyFused := rfl
@[simp] theorem modRbt_chipTime : (modRbt s r f).chipTime = s.chipTime := rfl
@[simp] theorem modRbt_regs : (modRbt s r f).regs = s.regs := rfl
@[simp] theorem modRbt_pend : (modRbt s r f).pend = s.pend := rfl
@[simp] theorem modRbt_mem : (modRbt s r f).mem = s.mem := rfl
@[simp] theorem modRbt_poison : (modRbt s r f).poison = s.poison := rfl
@[simp] theorem modRbt_lastReply : (modRbt s r f).lastReply = s.lastReply := rfl
@[simp] theorem modRbt_rbt : (modRbt s r f).rbt = s.rbt.set r (f s.rbt[r]) := rfl
@[simp] theorem modRbt_xing : (modRbt s r f).xing = s.xing := rfl
@[simp] theorem modRbt_pace : (modRbt s r f).pace = s.pace := rfl
@[simp] theorem modRbt_links : (modRbt s r f).links = s.links := rfl
@[simp] theorem modRbt_counters : (modRbt s r f).counters = s.counters := rfl
@[simp] theorem modRbt_wraps : (modRbt s r f).wraps = s.wraps := rfl
@[simp] theorem modRbt_tbLatch : (modRbt s r f).tbLatch = s.tbLatch := rfl
@[simp] theorem modRbt_pcLatch : (modRbt s r f).pcLatch = s.pcLatch := rfl
@[simp] theorem modRbt_freeCtr : (modRbt s r f).freeCtr = s.freeCtr := rfl
@[simp] theorem modRbt_arcade : (modRbt s r f).arcade = s.arcade := rfl
@[simp] theorem modRbt_l1d : (modRbt s r f).l1d = s.l1d := rfl
@[simp] theorem modRbt_l1i : (modRbt s r f).l1i = s.l1i := rfl
@[simp] theorem modRbt_dramErr : (modRbt s r f).dramErr = s.dramErr := rfl
@[simp] theorem modRbt_chkErr : (modRbt s r f).chkErr = s.chkErr := rfl
@[simp] theorem modRbt_dram : (modRbt s r f).dram = s.dram := rfl
@[simp] theorem modRbt_dramSelfReq : (modRbt s r f).dramSelfReq = s.dramSelfReq := rfl
@[simp] theorem modRbt_tcmErr : (modRbt s r f).tcmErr = s.tcmErr := rfl
@[simp] theorem modRbt_sramErr : (modRbt s r f).sramErr = s.sramErr := rfl
@[simp] theorem modRbt_reports : (modRbt s r f).reports = s.reports := rfl
@[simp] theorem modRbt_fifo : (modRbt s r f).fifo = s.fifo := rfl
@[simp] theorem modRbt_ch : (modRbt s r f).ch = s.ch := rfl
@[simp] theorem modRbt_hb : (modRbt s r f).hb = s.hb := rfl
@[simp] theorem modRbt_packets : (modRbt s r f).packets = s.packets := rfl
@[simp] theorem modRbt_packetCtr : (modRbt s r f).packetCtr = s.packetCtr := rfl
@[simp] theorem modRbt_slices : (modRbt s r f).slices = s.slices := rfl
@[simp] theorem modRbt_decWait : (modRbt s r f).decWait = s.decWait := rfl
@[simp] theorem modRbt_decDiscard : (modRbt s r f).decDiscard = s.decDiscard := rfl
@[simp] theorem modRbt_decDrop : (modRbt s r f).decDrop = s.decDrop := rfl
@[simp] theorem modRbt_tiles : (modRbt s r f).tiles = s.tiles := rfl
@[simp] theorem modRbt_tileCtr : (modRbt s r f).tileCtr = s.tileCtr := rfl
@[simp] theorem modRbt_spans : (modRbt s r f).spans = s.spans := rfl
@[simp] theorem modRbt_weakTiles : (modRbt s r f).weakTiles = s.weakTiles := rfl
@[simp] theorem modRbt_shortHeads : (modRbt s r f).shortHeads = s.shortHeads := rfl
@[simp] theorem modRbt_swpSubmits : (modRbt s r f).swpSubmits = s.swpSubmits := rfl
@[simp] theorem modRbt_swpQueue : (modRbt s r f).swpQueue = s.swpQueue := rfl
@[simp] theorem modRbt_swpCur : (modRbt s r f).swpCur = s.swpCur := rfl
@[simp] theorem modRbt_swpStart : (modRbt s r f).swpStart = s.swpStart := rfl
@[simp] theorem modRbt_swpOpened : (modRbt s r f).swpOpened = s.swpOpened := rfl
@[simp] theorem modRbt_swpCtr : (modRbt s r f).swpCtr = s.swpCtr := rfl
@[simp] theorem modRbt_swpStop : (modRbt s r f).swpStop = s.swpStop := rfl
@[simp] theorem modRbt_swpAborted : (modRbt s r f).swpAborted = s.swpAborted := rfl
@[simp] theorem modRbt_winFlags : (modRbt s r f).winFlags = s.winFlags := rfl
@[simp] theorem modRbt_swpLate : (modRbt s r f).swpLate = s.swpLate := rfl
@[simp] theorem modRbt_swpTail : (modRbt s r f).swpTail = s.swpTail := rfl
@[simp] theorem modRbt_wc : (modRbt s r f).wc = s.wc := rfl
@[simp] theorem modRbt_se : (modRbt s r f).se = s.se := rfl
@[simp] theorem modRbt_sled : (modRbt s r f).sled = s.sled := rfl
@[simp] theorem modRbt_spn : (modRbt s r f).spn = s.spn := rfl
@[simp] theorem modRbt_cal : (modRbt s r f).cal = s.cal := rfl
@[simp] theorem modRbt_retrained : (modRbt s r f).retrained = s.retrained := rfl
@[simp] theorem modRbt_host : (modRbt s r f).host = s.host := rfl
@[simp] theorem modRbt_disc : (modRbt s r f).disc = s.disc := rfl
@[simp] theorem modRbt_arv : (modRbt s r f).arv = s.arv := rfl
@[simp] theorem modRbt_ddrForce : (modRbt s r f).ddrForce = s.ddrForce := rfl
@[simp] theorem modRbt_clk : (modRbt s r f).clk = s.clk := rfl
@[simp] theorem modRbt_sup : (modRbt s r f).sup = s.sup := rfl
@[simp] theorem modRbt_sq : (modRbt s r f).sq = s.sq := rfl
@[simp] theorem modRbt_boot : (modRbt s r f).boot = s.boot := rfl
@[simp] theorem modRbt_pins : (modRbt s r f).pins = s.pins := rfl
@[simp] theorem modRbt_core : (modRbt s r f).core = s.core := rfl
@[simp] theorem modRbt_pending : (modRbt s r f).pending = s.pending := rfl
@[simp] theorem modRbt_rd (b : Nat) : rd (modRbt s r f) b = rd s b := rfl
@[simp] theorem modRbt_fget (g : Fld) : fget (modRbt s r f) g = fget s g := rfl
@[simp] theorem modRbt_fbit (g : Fld) : fbit (modRbt s r f) g = fbit s g := rfl

end

/-! ### modXing -/

section
variable (s : State) (x : Fin 52) (f : Xing → Xing)

@[simp] theorem modXing_variant : (modXing s x f).variant = s.variant := rfl
@[simp] theorem modXing_keyFused : (modXing s x f).keyFused = s.keyFused := rfl
@[simp] theorem modXing_chipTime : (modXing s x f).chipTime = s.chipTime := rfl
@[simp] theorem modXing_regs : (modXing s x f).regs = s.regs := rfl
@[simp] theorem modXing_pend : (modXing s x f).pend = s.pend := rfl
@[simp] theorem modXing_mem : (modXing s x f).mem = s.mem := rfl
@[simp] theorem modXing_poison : (modXing s x f).poison = s.poison := rfl
@[simp] theorem modXing_lastReply : (modXing s x f).lastReply = s.lastReply := rfl
@[simp] theorem modXing_rbt : (modXing s x f).rbt = s.rbt := rfl
@[simp] theorem modXing_xing : (modXing s x f).xing = s.xing.set x (f s.xing[x]) := rfl
@[simp] theorem modXing_pace : (modXing s x f).pace = s.pace := rfl
@[simp] theorem modXing_links : (modXing s x f).links = s.links := rfl
@[simp] theorem modXing_counters : (modXing s x f).counters = s.counters := rfl
@[simp] theorem modXing_wraps : (modXing s x f).wraps = s.wraps := rfl
@[simp] theorem modXing_tbLatch : (modXing s x f).tbLatch = s.tbLatch := rfl
@[simp] theorem modXing_pcLatch : (modXing s x f).pcLatch = s.pcLatch := rfl
@[simp] theorem modXing_freeCtr : (modXing s x f).freeCtr = s.freeCtr := rfl
@[simp] theorem modXing_arcade : (modXing s x f).arcade = s.arcade := rfl
@[simp] theorem modXing_l1d : (modXing s x f).l1d = s.l1d := rfl
@[simp] theorem modXing_l1i : (modXing s x f).l1i = s.l1i := rfl
@[simp] theorem modXing_dramErr : (modXing s x f).dramErr = s.dramErr := rfl
@[simp] theorem modXing_chkErr : (modXing s x f).chkErr = s.chkErr := rfl
@[simp] theorem modXing_dram : (modXing s x f).dram = s.dram := rfl
@[simp] theorem modXing_dramSelfReq : (modXing s x f).dramSelfReq = s.dramSelfReq := rfl
@[simp] theorem modXing_tcmErr : (modXing s x f).tcmErr = s.tcmErr := rfl
@[simp] theorem modXing_sramErr : (modXing s x f).sramErr = s.sramErr := rfl
@[simp] theorem modXing_reports : (modXing s x f).reports = s.reports := rfl
@[simp] theorem modXing_fifo : (modXing s x f).fifo = s.fifo := rfl
@[simp] theorem modXing_ch : (modXing s x f).ch = s.ch := rfl
@[simp] theorem modXing_hb : (modXing s x f).hb = s.hb := rfl
@[simp] theorem modXing_packets : (modXing s x f).packets = s.packets := rfl
@[simp] theorem modXing_packetCtr : (modXing s x f).packetCtr = s.packetCtr := rfl
@[simp] theorem modXing_slices : (modXing s x f).slices = s.slices := rfl
@[simp] theorem modXing_decWait : (modXing s x f).decWait = s.decWait := rfl
@[simp] theorem modXing_decDiscard : (modXing s x f).decDiscard = s.decDiscard := rfl
@[simp] theorem modXing_decDrop : (modXing s x f).decDrop = s.decDrop := rfl
@[simp] theorem modXing_tiles : (modXing s x f).tiles = s.tiles := rfl
@[simp] theorem modXing_tileCtr : (modXing s x f).tileCtr = s.tileCtr := rfl
@[simp] theorem modXing_spans : (modXing s x f).spans = s.spans := rfl
@[simp] theorem modXing_weakTiles : (modXing s x f).weakTiles = s.weakTiles := rfl
@[simp] theorem modXing_shortHeads : (modXing s x f).shortHeads = s.shortHeads := rfl
@[simp] theorem modXing_swpSubmits : (modXing s x f).swpSubmits = s.swpSubmits := rfl
@[simp] theorem modXing_swpQueue : (modXing s x f).swpQueue = s.swpQueue := rfl
@[simp] theorem modXing_swpCur : (modXing s x f).swpCur = s.swpCur := rfl
@[simp] theorem modXing_swpStart : (modXing s x f).swpStart = s.swpStart := rfl
@[simp] theorem modXing_swpOpened : (modXing s x f).swpOpened = s.swpOpened := rfl
@[simp] theorem modXing_swpCtr : (modXing s x f).swpCtr = s.swpCtr := rfl
@[simp] theorem modXing_swpStop : (modXing s x f).swpStop = s.swpStop := rfl
@[simp] theorem modXing_swpAborted : (modXing s x f).swpAborted = s.swpAborted := rfl
@[simp] theorem modXing_winFlags : (modXing s x f).winFlags = s.winFlags := rfl
@[simp] theorem modXing_swpLate : (modXing s x f).swpLate = s.swpLate := rfl
@[simp] theorem modXing_swpTail : (modXing s x f).swpTail = s.swpTail := rfl
@[simp] theorem modXing_wc : (modXing s x f).wc = s.wc := rfl
@[simp] theorem modXing_se : (modXing s x f).se = s.se := rfl
@[simp] theorem modXing_sled : (modXing s x f).sled = s.sled := rfl
@[simp] theorem modXing_spn : (modXing s x f).spn = s.spn := rfl
@[simp] theorem modXing_cal : (modXing s x f).cal = s.cal := rfl
@[simp] theorem modXing_retrained : (modXing s x f).retrained = s.retrained := rfl
@[simp] theorem modXing_host : (modXing s x f).host = s.host := rfl
@[simp] theorem modXing_disc : (modXing s x f).disc = s.disc := rfl
@[simp] theorem modXing_arv : (modXing s x f).arv = s.arv := rfl
@[simp] theorem modXing_ddrForce : (modXing s x f).ddrForce = s.ddrForce := rfl
@[simp] theorem modXing_clk : (modXing s x f).clk = s.clk := rfl
@[simp] theorem modXing_sup : (modXing s x f).sup = s.sup := rfl
@[simp] theorem modXing_sq : (modXing s x f).sq = s.sq := rfl
@[simp] theorem modXing_boot : (modXing s x f).boot = s.boot := rfl
@[simp] theorem modXing_pins : (modXing s x f).pins = s.pins := rfl
@[simp] theorem modXing_core : (modXing s x f).core = s.core := rfl
@[simp] theorem modXing_pending : (modXing s x f).pending = s.pending := rfl
@[simp] theorem modXing_rd (b : Nat) : rd (modXing s x f) b = rd s b := rfl
@[simp] theorem modXing_fget (g : Fld) : fget (modXing s x f) g = fget s g := rfl
@[simp] theorem modXing_fbit (g : Fld) : fbit (modXing s x f) g = fbit s g := rfl

end

/-! ### modCh -/

section
variable (s : State) (c : Fin 32) (f : Channel → Channel)

@[simp] theorem modCh_variant : (modCh s c f).variant = s.variant := rfl
@[simp] theorem modCh_keyFused : (modCh s c f).keyFused = s.keyFused := rfl
@[simp] theorem modCh_chipTime : (modCh s c f).chipTime = s.chipTime := rfl
@[simp] theorem modCh_regs : (modCh s c f).regs = s.regs := rfl
@[simp] theorem modCh_pend : (modCh s c f).pend = s.pend := rfl
@[simp] theorem modCh_mem : (modCh s c f).mem = s.mem := rfl
@[simp] theorem modCh_poison : (modCh s c f).poison = s.poison := rfl
@[simp] theorem modCh_lastReply : (modCh s c f).lastReply = s.lastReply := rfl
@[simp] theorem modCh_rbt : (modCh s c f).rbt = s.rbt := rfl
@[simp] theorem modCh_xing : (modCh s c f).xing = s.xing := rfl
@[simp] theorem modCh_pace : (modCh s c f).pace = s.pace := rfl
@[simp] theorem modCh_links : (modCh s c f).links = s.links := rfl
@[simp] theorem modCh_counters : (modCh s c f).counters = s.counters := rfl
@[simp] theorem modCh_wraps : (modCh s c f).wraps = s.wraps := rfl
@[simp] theorem modCh_tbLatch : (modCh s c f).tbLatch = s.tbLatch := rfl
@[simp] theorem modCh_pcLatch : (modCh s c f).pcLatch = s.pcLatch := rfl
@[simp] theorem modCh_freeCtr : (modCh s c f).freeCtr = s.freeCtr := rfl
@[simp] theorem modCh_arcade : (modCh s c f).arcade = s.arcade := rfl
@[simp] theorem modCh_l1d : (modCh s c f).l1d = s.l1d := rfl
@[simp] theorem modCh_l1i : (modCh s c f).l1i = s.l1i := rfl
@[simp] theorem modCh_dramErr : (modCh s c f).dramErr = s.dramErr := rfl
@[simp] theorem modCh_chkErr : (modCh s c f).chkErr = s.chkErr := rfl
@[simp] theorem modCh_dram : (modCh s c f).dram = s.dram := rfl
@[simp] theorem modCh_dramSelfReq : (modCh s c f).dramSelfReq = s.dramSelfReq := rfl
@[simp] theorem modCh_tcmErr : (modCh s c f).tcmErr = s.tcmErr := rfl
@[simp] theorem modCh_sramErr : (modCh s c f).sramErr = s.sramErr := rfl
@[simp] theorem modCh_reports : (modCh s c f).reports = s.reports := rfl
@[simp] theorem modCh_fifo : (modCh s c f).fifo = s.fifo := rfl
@[simp] theorem modCh_ch : (modCh s c f).ch = s.ch.set c (f s.ch[c]) := rfl
@[simp] theorem modCh_hb : (modCh s c f).hb = s.hb := rfl
@[simp] theorem modCh_packets : (modCh s c f).packets = s.packets := rfl
@[simp] theorem modCh_packetCtr : (modCh s c f).packetCtr = s.packetCtr := rfl
@[simp] theorem modCh_slices : (modCh s c f).slices = s.slices := rfl
@[simp] theorem modCh_decWait : (modCh s c f).decWait = s.decWait := rfl
@[simp] theorem modCh_decDiscard : (modCh s c f).decDiscard = s.decDiscard := rfl
@[simp] theorem modCh_decDrop : (modCh s c f).decDrop = s.decDrop := rfl
@[simp] theorem modCh_tiles : (modCh s c f).tiles = s.tiles := rfl
@[simp] theorem modCh_tileCtr : (modCh s c f).tileCtr = s.tileCtr := rfl
@[simp] theorem modCh_spans : (modCh s c f).spans = s.spans := rfl
@[simp] theorem modCh_weakTiles : (modCh s c f).weakTiles = s.weakTiles := rfl
@[simp] theorem modCh_shortHeads : (modCh s c f).shortHeads = s.shortHeads := rfl
@[simp] theorem modCh_swpSubmits : (modCh s c f).swpSubmits = s.swpSubmits := rfl
@[simp] theorem modCh_swpQueue : (modCh s c f).swpQueue = s.swpQueue := rfl
@[simp] theorem modCh_swpCur : (modCh s c f).swpCur = s.swpCur := rfl
@[simp] theorem modCh_swpStart : (modCh s c f).swpStart = s.swpStart := rfl
@[simp] theorem modCh_swpOpened : (modCh s c f).swpOpened = s.swpOpened := rfl
@[simp] theorem modCh_swpCtr : (modCh s c f).swpCtr = s.swpCtr := rfl
@[simp] theorem modCh_swpStop : (modCh s c f).swpStop = s.swpStop := rfl
@[simp] theorem modCh_swpAborted : (modCh s c f).swpAborted = s.swpAborted := rfl
@[simp] theorem modCh_winFlags : (modCh s c f).winFlags = s.winFlags := rfl
@[simp] theorem modCh_swpLate : (modCh s c f).swpLate = s.swpLate := rfl
@[simp] theorem modCh_swpTail : (modCh s c f).swpTail = s.swpTail := rfl
@[simp] theorem modCh_wc : (modCh s c f).wc = s.wc := rfl
@[simp] theorem modCh_se : (modCh s c f).se = s.se := rfl
@[simp] theorem modCh_sled : (modCh s c f).sled = s.sled := rfl
@[simp] theorem modCh_spn : (modCh s c f).spn = s.spn := rfl
@[simp] theorem modCh_cal : (modCh s c f).cal = s.cal := rfl
@[simp] theorem modCh_retrained : (modCh s c f).retrained = s.retrained := rfl
@[simp] theorem modCh_host : (modCh s c f).host = s.host := rfl
@[simp] theorem modCh_disc : (modCh s c f).disc = s.disc := rfl
@[simp] theorem modCh_arv : (modCh s c f).arv = s.arv := rfl
@[simp] theorem modCh_ddrForce : (modCh s c f).ddrForce = s.ddrForce := rfl
@[simp] theorem modCh_clk : (modCh s c f).clk = s.clk := rfl
@[simp] theorem modCh_sup : (modCh s c f).sup = s.sup := rfl
@[simp] theorem modCh_sq : (modCh s c f).sq = s.sq := rfl
@[simp] theorem modCh_boot : (modCh s c f).boot = s.boot := rfl
@[simp] theorem modCh_pins : (modCh s c f).pins = s.pins := rfl
@[simp] theorem modCh_core : (modCh s c f).core = s.core := rfl
@[simp] theorem modCh_pending : (modCh s c f).pending = s.pending := rfl
@[simp] theorem modCh_rd (b : Nat) : rd (modCh s c f) b = rd s b := rfl
@[simp] theorem modCh_fget (g : Fld) : fget (modCh s c f) g = fget s g := rfl
@[simp] theorem modCh_fbit (g : Fld) : fbit (modCh s c f) g = fbit s g := rfl

end

/-! ### modWc -/

section
variable (s : State) (n : Fin 8) (f : WriteCell → WriteCell)

@[simp] theorem modWc_variant : (modWc s n f).variant = s.variant := rfl
@[simp] theorem modWc_keyFused : (modWc s n f).keyFused = s.keyFused := rfl
@[simp] theorem modWc_chipTime : (modWc s n f).chipTime = s.chipTime := rfl
@[simp] theorem modWc_regs : (modWc s n f).regs = s.regs := rfl
@[simp] theorem modWc_pend : (modWc s n f).pend = s.pend := rfl
@[simp] theorem modWc_mem : (modWc s n f).mem = s.mem := rfl
@[simp] theorem modWc_poison : (modWc s n f).poison = s.poison := rfl
@[simp] theorem modWc_lastReply : (modWc s n f).lastReply = s.lastReply := rfl
@[simp] theorem modWc_rbt : (modWc s n f).rbt = s.rbt := rfl
@[simp] theorem modWc_xing : (modWc s n f).xing = s.xing := rfl
@[simp] theorem modWc_pace : (modWc s n f).pace = s.pace := rfl
@[simp] theorem modWc_links : (modWc s n f).links = s.links := rfl
@[simp] theorem modWc_counters : (modWc s n f).counters = s.counters := rfl
@[simp] theorem modWc_wraps : (modWc s n f).wraps = s.wraps := rfl
@[simp] theorem modWc_tbLatch : (modWc s n f).tbLatch = s.tbLatch := rfl
@[simp] theorem modWc_pcLatch : (modWc s n f).pcLatch = s.pcLatch := rfl
@[simp] theorem modWc_freeCtr : (modWc s n f).freeCtr = s.freeCtr := rfl
@[simp] theorem modWc_arcade : (modWc s n f).arcade = s.arcade := rfl
@[simp] theorem modWc_l1d : (modWc s n f).l1d = s.l1d := rfl
@[simp] theorem modWc_l1i : (modWc s n f).l1i = s.l1i := rfl
@[simp] theorem modWc_dramErr : (modWc s n f).dramErr = s.dramErr := rfl
@[simp] theorem modWc_chkErr : (modWc s n f).chkErr = s.chkErr := rfl
@[simp] theorem modWc_dram : (modWc s n f).dram = s.dram := rfl
@[simp] theorem modWc_dramSelfReq : (modWc s n f).dramSelfReq = s.dramSelfReq := rfl
@[simp] theorem modWc_tcmErr : (modWc s n f).tcmErr = s.tcmErr := rfl
@[simp] theorem modWc_sramErr : (modWc s n f).sramErr = s.sramErr := rfl
@[simp] theorem modWc_reports : (modWc s n f).reports = s.reports := rfl
@[simp] theorem modWc_fifo : (modWc s n f).fifo = s.fifo := rfl
@[simp] theorem modWc_ch : (modWc s n f).ch = s.ch := rfl
@[simp] theorem modWc_hb : (modWc s n f).hb = s.hb := rfl
@[simp] theorem modWc_packets : (modWc s n f).packets = s.packets := rfl
@[simp] theorem modWc_packetCtr : (modWc s n f).packetCtr = s.packetCtr := rfl
@[simp] theorem modWc_slices : (modWc s n f).slices = s.slices := rfl
@[simp] theorem modWc_decWait : (modWc s n f).decWait = s.decWait := rfl
@[simp] theorem modWc_decDiscard : (modWc s n f).decDiscard = s.decDiscard := rfl
@[simp] theorem modWc_decDrop : (modWc s n f).decDrop = s.decDrop := rfl
@[simp] theorem modWc_tiles : (modWc s n f).tiles = s.tiles := rfl
@[simp] theorem modWc_tileCtr : (modWc s n f).tileCtr = s.tileCtr := rfl
@[simp] theorem modWc_spans : (modWc s n f).spans = s.spans := rfl
@[simp] theorem modWc_weakTiles : (modWc s n f).weakTiles = s.weakTiles := rfl
@[simp] theorem modWc_shortHeads : (modWc s n f).shortHeads = s.shortHeads := rfl
@[simp] theorem modWc_swpSubmits : (modWc s n f).swpSubmits = s.swpSubmits := rfl
@[simp] theorem modWc_swpQueue : (modWc s n f).swpQueue = s.swpQueue := rfl
@[simp] theorem modWc_swpCur : (modWc s n f).swpCur = s.swpCur := rfl
@[simp] theorem modWc_swpStart : (modWc s n f).swpStart = s.swpStart := rfl
@[simp] theorem modWc_swpOpened : (modWc s n f).swpOpened = s.swpOpened := rfl
@[simp] theorem modWc_swpCtr : (modWc s n f).swpCtr = s.swpCtr := rfl
@[simp] theorem modWc_swpStop : (modWc s n f).swpStop = s.swpStop := rfl
@[simp] theorem modWc_swpAborted : (modWc s n f).swpAborted = s.swpAborted := rfl
@[simp] theorem modWc_winFlags : (modWc s n f).winFlags = s.winFlags := rfl
@[simp] theorem modWc_swpLate : (modWc s n f).swpLate = s.swpLate := rfl
@[simp] theorem modWc_swpTail : (modWc s n f).swpTail = s.swpTail := rfl
@[simp] theorem modWc_wc : (modWc s n f).wc = s.wc.set n (f s.wc[n]) := rfl
@[simp] theorem modWc_se : (modWc s n f).se = s.se := rfl
@[simp] theorem modWc_sled : (modWc s n f).sled = s.sled := rfl
@[simp] theorem modWc_spn : (modWc s n f).spn = s.spn := rfl
@[simp] theorem modWc_cal : (modWc s n f).cal = s.cal := rfl
@[simp] theorem modWc_retrained : (modWc s n f).retrained = s.retrained := rfl
@[simp] theorem modWc_host : (modWc s n f).host = s.host := rfl
@[simp] theorem modWc_disc : (modWc s n f).disc = s.disc := rfl
@[simp] theorem modWc_arv : (modWc s n f).arv = s.arv := rfl
@[simp] theorem modWc_ddrForce : (modWc s n f).ddrForce = s.ddrForce := rfl
@[simp] theorem modWc_clk : (modWc s n f).clk = s.clk := rfl
@[simp] theorem modWc_sup : (modWc s n f).sup = s.sup := rfl
@[simp] theorem modWc_sq : (modWc s n f).sq = s.sq := rfl
@[simp] theorem modWc_boot : (modWc s n f).boot = s.boot := rfl
@[simp] theorem modWc_pins : (modWc s n f).pins = s.pins := rfl
@[simp] theorem modWc_core : (modWc s n f).core = s.core := rfl
@[simp] theorem modWc_pending : (modWc s n f).pending = s.pending := rfl
@[simp] theorem modWc_rd (b : Nat) : rd (modWc s n f) b = rd s b := rfl
@[simp] theorem modWc_fget (g : Fld) : fget (modWc s n f) g = fget s g := rfl
@[simp] theorem modWc_fbit (g : Fld) : fbit (modWc s n f) g = fbit s g := rfl

end

/-! ### modHb -/

section
variable (s : State) (n : Fin 8) (f : HeadBlk → HeadBlk)

@[simp] theorem modHb_variant : (modHb s n f).variant = s.variant := rfl
@[simp] theorem modHb_keyFused : (modHb s n f).keyFused = s.keyFused := rfl
@[simp] theorem modHb_chipTime : (modHb s n f).chipTime = s.chipTime := rfl
@[simp] theorem modHb_regs : (modHb s n f).regs = s.regs := rfl
@[simp] theorem modHb_pend : (modHb s n f).pend = s.pend := rfl
@[simp] theorem modHb_mem : (modHb s n f).mem = s.mem := rfl
@[simp] theorem modHb_poison : (modHb s n f).poison = s.poison := rfl
@[simp] theorem modHb_lastReply : (modHb s n f).lastReply = s.lastReply := rfl
@[simp] theorem modHb_rbt : (modHb s n f).rbt = s.rbt := rfl
@[simp] theorem modHb_xing : (modHb s n f).xing = s.xing := rfl
@[simp] theorem modHb_pace : (modHb s n f).pace = s.pace := rfl
@[simp] theorem modHb_links : (modHb s n f).links = s.links := rfl
@[simp] theorem modHb_counters : (modHb s n f).counters = s.counters := rfl
@[simp] theorem modHb_wraps : (modHb s n f).wraps = s.wraps := rfl
@[simp] theorem modHb_tbLatch : (modHb s n f).tbLatch = s.tbLatch := rfl
@[simp] theorem modHb_pcLatch : (modHb s n f).pcLatch = s.pcLatch := rfl
@[simp] theorem modHb_freeCtr : (modHb s n f).freeCtr = s.freeCtr := rfl
@[simp] theorem modHb_arcade : (modHb s n f).arcade = s.arcade := rfl
@[simp] theorem modHb_l1d : (modHb s n f).l1d = s.l1d := rfl
@[simp] theorem modHb_l1i : (modHb s n f).l1i = s.l1i := rfl
@[simp] theorem modHb_dramErr : (modHb s n f).dramErr = s.dramErr := rfl
@[simp] theorem modHb_chkErr : (modHb s n f).chkErr = s.chkErr := rfl
@[simp] theorem modHb_dram : (modHb s n f).dram = s.dram := rfl
@[simp] theorem modHb_dramSelfReq : (modHb s n f).dramSelfReq = s.dramSelfReq := rfl
@[simp] theorem modHb_tcmErr : (modHb s n f).tcmErr = s.tcmErr := rfl
@[simp] theorem modHb_sramErr : (modHb s n f).sramErr = s.sramErr := rfl
@[simp] theorem modHb_reports : (modHb s n f).reports = s.reports := rfl
@[simp] theorem modHb_fifo : (modHb s n f).fifo = s.fifo := rfl
@[simp] theorem modHb_ch : (modHb s n f).ch = s.ch := rfl
@[simp] theorem modHb_hb : (modHb s n f).hb = s.hb.set n (f s.hb[n]) := rfl
@[simp] theorem modHb_packets : (modHb s n f).packets = s.packets := rfl
@[simp] theorem modHb_packetCtr : (modHb s n f).packetCtr = s.packetCtr := rfl
@[simp] theorem modHb_slices : (modHb s n f).slices = s.slices := rfl
@[simp] theorem modHb_decWait : (modHb s n f).decWait = s.decWait := rfl
@[simp] theorem modHb_decDiscard : (modHb s n f).decDiscard = s.decDiscard := rfl
@[simp] theorem modHb_decDrop : (modHb s n f).decDrop = s.decDrop := rfl
@[simp] theorem modHb_tiles : (modHb s n f).tiles = s.tiles := rfl
@[simp] theorem modHb_tileCtr : (modHb s n f).tileCtr = s.tileCtr := rfl
@[simp] theorem modHb_spans : (modHb s n f).spans = s.spans := rfl
@[simp] theorem modHb_weakTiles : (modHb s n f).weakTiles = s.weakTiles := rfl
@[simp] theorem modHb_shortHeads : (modHb s n f).shortHeads = s.shortHeads := rfl
@[simp] theorem modHb_swpSubmits : (modHb s n f).swpSubmits = s.swpSubmits := rfl
@[simp] theorem modHb_swpQueue : (modHb s n f).swpQueue = s.swpQueue := rfl
@[simp] theorem modHb_swpCur : (modHb s n f).swpCur = s.swpCur := rfl
@[simp] theorem modHb_swpStart : (modHb s n f).swpStart = s.swpStart := rfl
@[simp] theorem modHb_swpOpened : (modHb s n f).swpOpened = s.swpOpened := rfl
@[simp] theorem modHb_swpCtr : (modHb s n f).swpCtr = s.swpCtr := rfl
@[simp] theorem modHb_swpStop : (modHb s n f).swpStop = s.swpStop := rfl
@[simp] theorem modHb_swpAborted : (modHb s n f).swpAborted = s.swpAborted := rfl
@[simp] theorem modHb_winFlags : (modHb s n f).winFlags = s.winFlags := rfl
@[simp] theorem modHb_swpLate : (modHb s n f).swpLate = s.swpLate := rfl
@[simp] theorem modHb_swpTail : (modHb s n f).swpTail = s.swpTail := rfl
@[simp] theorem modHb_wc : (modHb s n f).wc = s.wc := rfl
@[simp] theorem modHb_se : (modHb s n f).se = s.se := rfl
@[simp] theorem modHb_sled : (modHb s n f).sled = s.sled := rfl
@[simp] theorem modHb_spn : (modHb s n f).spn = s.spn := rfl
@[simp] theorem modHb_cal : (modHb s n f).cal = s.cal := rfl
@[simp] theorem modHb_retrained : (modHb s n f).retrained = s.retrained := rfl
@[simp] theorem modHb_host : (modHb s n f).host = s.host := rfl
@[simp] theorem modHb_disc : (modHb s n f).disc = s.disc := rfl
@[simp] theorem modHb_arv : (modHb s n f).arv = s.arv := rfl
@[simp] theorem modHb_ddrForce : (modHb s n f).ddrForce = s.ddrForce := rfl
@[simp] theorem modHb_clk : (modHb s n f).clk = s.clk := rfl
@[simp] theorem modHb_sup : (modHb s n f).sup = s.sup := rfl
@[simp] theorem modHb_sq : (modHb s n f).sq = s.sq := rfl
@[simp] theorem modHb_boot : (modHb s n f).boot = s.boot := rfl
@[simp] theorem modHb_pins : (modHb s n f).pins = s.pins := rfl
@[simp] theorem modHb_core : (modHb s n f).core = s.core := rfl
@[simp] theorem modHb_pending : (modHb s n f).pending = s.pending := rfl
@[simp] theorem modHb_rd (b : Nat) : rd (modHb s n f) b = rd s b := rfl
@[simp] theorem modHb_fget (g : Fld) : fget (modHb s n f) g = fget s g := rfl
@[simp] theorem modHb_fbit (g : Fld) : fbit (modHb s n f) g = fbit s g := rfl

end

/-! ### modSe -/

section
variable (s : State) (k : Fin 10) (f : Servo → Servo)

@[simp] theorem modSe_variant : (modSe s k f).variant = s.variant := rfl
@[simp] theorem modSe_keyFused : (modSe s k f).keyFused = s.keyFused := rfl
@[simp] theorem modSe_chipTime : (modSe s k f).chipTime = s.chipTime := rfl
@[simp] theorem modSe_regs : (modSe s k f).regs = s.regs := rfl
@[simp] theorem modSe_pend : (modSe s k f).pend = s.pend := rfl
@[simp] theorem modSe_mem : (modSe s k f).mem = s.mem := rfl
@[simp] theorem modSe_poison : (modSe s k f).poison = s.poison := rfl
@[simp] theorem modSe_lastReply : (modSe s k f).lastReply = s.lastReply := rfl
@[simp] theorem modSe_rbt : (modSe s k f).rbt = s.rbt := rfl
@[simp] theorem modSe_xing : (modSe s k f).xing = s.xing := rfl
@[simp] theorem modSe_pace : (modSe s k f).pace = s.pace := rfl
@[simp] theorem modSe_links : (modSe s k f).links = s.links := rfl
@[simp] theorem modSe_counters : (modSe s k f).counters = s.counters := rfl
@[simp] theorem modSe_wraps : (modSe s k f).wraps = s.wraps := rfl
@[simp] theorem modSe_tbLatch : (modSe s k f).tbLatch = s.tbLatch := rfl
@[simp] theorem modSe_pcLatch : (modSe s k f).pcLatch = s.pcLatch := rfl
@[simp] theorem modSe_freeCtr : (modSe s k f).freeCtr = s.freeCtr := rfl
@[simp] theorem modSe_arcade : (modSe s k f).arcade = s.arcade := rfl
@[simp] theorem modSe_l1d : (modSe s k f).l1d = s.l1d := rfl
@[simp] theorem modSe_l1i : (modSe s k f).l1i = s.l1i := rfl
@[simp] theorem modSe_dramErr : (modSe s k f).dramErr = s.dramErr := rfl
@[simp] theorem modSe_chkErr : (modSe s k f).chkErr = s.chkErr := rfl
@[simp] theorem modSe_dram : (modSe s k f).dram = s.dram := rfl
@[simp] theorem modSe_dramSelfReq : (modSe s k f).dramSelfReq = s.dramSelfReq := rfl
@[simp] theorem modSe_tcmErr : (modSe s k f).tcmErr = s.tcmErr := rfl
@[simp] theorem modSe_sramErr : (modSe s k f).sramErr = s.sramErr := rfl
@[simp] theorem modSe_reports : (modSe s k f).reports = s.reports := rfl
@[simp] theorem modSe_fifo : (modSe s k f).fifo = s.fifo := rfl
@[simp] theorem modSe_ch : (modSe s k f).ch = s.ch := rfl
@[simp] theorem modSe_hb : (modSe s k f).hb = s.hb := rfl
@[simp] theorem modSe_packets : (modSe s k f).packets = s.packets := rfl
@[simp] theorem modSe_packetCtr : (modSe s k f).packetCtr = s.packetCtr := rfl
@[simp] theorem modSe_slices : (modSe s k f).slices = s.slices := rfl
@[simp] theorem modSe_decWait : (modSe s k f).decWait = s.decWait := rfl
@[simp] theorem modSe_decDiscard : (modSe s k f).decDiscard = s.decDiscard := rfl
@[simp] theorem modSe_decDrop : (modSe s k f).decDrop = s.decDrop := rfl
@[simp] theorem modSe_tiles : (modSe s k f).tiles = s.tiles := rfl
@[simp] theorem modSe_tileCtr : (modSe s k f).tileCtr = s.tileCtr := rfl
@[simp] theorem modSe_spans : (modSe s k f).spans = s.spans := rfl
@[simp] theorem modSe_weakTiles : (modSe s k f).weakTiles = s.weakTiles := rfl
@[simp] theorem modSe_shortHeads : (modSe s k f).shortHeads = s.shortHeads := rfl
@[simp] theorem modSe_swpSubmits : (modSe s k f).swpSubmits = s.swpSubmits := rfl
@[simp] theorem modSe_swpQueue : (modSe s k f).swpQueue = s.swpQueue := rfl
@[simp] theorem modSe_swpCur : (modSe s k f).swpCur = s.swpCur := rfl
@[simp] theorem modSe_swpStart : (modSe s k f).swpStart = s.swpStart := rfl
@[simp] theorem modSe_swpOpened : (modSe s k f).swpOpened = s.swpOpened := rfl
@[simp] theorem modSe_swpCtr : (modSe s k f).swpCtr = s.swpCtr := rfl
@[simp] theorem modSe_swpStop : (modSe s k f).swpStop = s.swpStop := rfl
@[simp] theorem modSe_swpAborted : (modSe s k f).swpAborted = s.swpAborted := rfl
@[simp] theorem modSe_winFlags : (modSe s k f).winFlags = s.winFlags := rfl
@[simp] theorem modSe_swpLate : (modSe s k f).swpLate = s.swpLate := rfl
@[simp] theorem modSe_swpTail : (modSe s k f).swpTail = s.swpTail := rfl
@[simp] theorem modSe_wc : (modSe s k f).wc = s.wc := rfl
@[simp] theorem modSe_se : (modSe s k f).se = s.se.set k (f s.se[k]) := rfl
@[simp] theorem modSe_sled : (modSe s k f).sled = s.sled := rfl
@[simp] theorem modSe_spn : (modSe s k f).spn = s.spn := rfl
@[simp] theorem modSe_cal : (modSe s k f).cal = s.cal := rfl
@[simp] theorem modSe_retrained : (modSe s k f).retrained = s.retrained := rfl
@[simp] theorem modSe_host : (modSe s k f).host = s.host := rfl
@[simp] theorem modSe_disc : (modSe s k f).disc = s.disc := rfl
@[simp] theorem modSe_arv : (modSe s k f).arv = s.arv := rfl
@[simp] theorem modSe_ddrForce : (modSe s k f).ddrForce = s.ddrForce := rfl
@[simp] theorem modSe_clk : (modSe s k f).clk = s.clk := rfl
@[simp] theorem modSe_sup : (modSe s k f).sup = s.sup := rfl
@[simp] theorem modSe_sq : (modSe s k f).sq = s.sq := rfl
@[simp] theorem modSe_boot : (modSe s k f).boot = s.boot := rfl
@[simp] theorem modSe_pins : (modSe s k f).pins = s.pins := rfl
@[simp] theorem modSe_core : (modSe s k f).core = s.core := rfl
@[simp] theorem modSe_pending : (modSe s k f).pending = s.pending := rfl
@[simp] theorem modSe_rd (b : Nat) : rd (modSe s k f) b = rd s b := rfl
@[simp] theorem modSe_fget (g : Fld) : fget (modSe s k f) g = fget s g := rfl
@[simp] theorem modSe_fbit (g : Fld) : fbit (modSe s k f) g = fbit s g := rfl

end

/-! ### modSled -/

section
variable (s : State) (n : Fin 8) (f : Sled → Sled)

@[simp] theorem modSled_variant : (modSled s n f).variant = s.variant := rfl
@[simp] theorem modSled_keyFused : (modSled s n f).keyFused = s.keyFused := rfl
@[simp] theorem modSled_chipTime : (modSled s n f).chipTime = s.chipTime := rfl
@[simp] theorem modSled_regs : (modSled s n f).regs = s.regs := rfl
@[simp] theorem modSled_pend : (modSled s n f).pend = s.pend := rfl
@[simp] theorem modSled_mem : (modSled s n f).mem = s.mem := rfl
@[simp] theorem modSled_poison : (modSled s n f).poison = s.poison := rfl
@[simp] theorem modSled_lastReply : (modSled s n f).lastReply = s.lastReply := rfl
@[simp] theorem modSled_rbt : (modSled s n f).rbt = s.rbt := rfl
@[simp] theorem modSled_xing : (modSled s n f).xing = s.xing := rfl
@[simp] theorem modSled_pace : (modSled s n f).pace = s.pace := rfl
@[simp] theorem modSled_links : (modSled s n f).links = s.links := rfl
@[simp] theorem modSled_counters : (modSled s n f).counters = s.counters := rfl
@[simp] theorem modSled_wraps : (modSled s n f).wraps = s.wraps := rfl
@[simp] theorem modSled_tbLatch : (modSled s n f).tbLatch = s.tbLatch := rfl
@[simp] theorem modSled_pcLatch : (modSled s n f).pcLatch = s.pcLatch := rfl
@[simp] theorem modSled_freeCtr : (modSled s n f).freeCtr = s.freeCtr := rfl
@[simp] theorem modSled_arcade : (modSled s n f).arcade = s.arcade := rfl
@[simp] theorem modSled_l1d : (modSled s n f).l1d = s.l1d := rfl
@[simp] theorem modSled_l1i : (modSled s n f).l1i = s.l1i := rfl
@[simp] theorem modSled_dramErr : (modSled s n f).dramErr = s.dramErr := rfl
@[simp] theorem modSled_chkErr : (modSled s n f).chkErr = s.chkErr := rfl
@[simp] theorem modSled_dram : (modSled s n f).dram = s.dram := rfl
@[simp] theorem modSled_dramSelfReq : (modSled s n f).dramSelfReq = s.dramSelfReq := rfl
@[simp] theorem modSled_tcmErr : (modSled s n f).tcmErr = s.tcmErr := rfl
@[simp] theorem modSled_sramErr : (modSled s n f).sramErr = s.sramErr := rfl
@[simp] theorem modSled_reports : (modSled s n f).reports = s.reports := rfl
@[simp] theorem modSled_fifo : (modSled s n f).fifo = s.fifo := rfl
@[simp] theorem modSled_ch : (modSled s n f).ch = s.ch := rfl
@[simp] theorem modSled_hb : (modSled s n f).hb = s.hb := rfl
@[simp] theorem modSled_packets : (modSled s n f).packets = s.packets := rfl
@[simp] theorem modSled_packetCtr : (modSled s n f).packetCtr = s.packetCtr := rfl
@[simp] theorem modSled_slices : (modSled s n f).slices = s.slices := rfl
@[simp] theorem modSled_decWait : (modSled s n f).decWait = s.decWait := rfl
@[simp] theorem modSled_decDiscard : (modSled s n f).decDiscard = s.decDiscard := rfl
@[simp] theorem modSled_decDrop : (modSled s n f).decDrop = s.decDrop := rfl
@[simp] theorem modSled_tiles : (modSled s n f).tiles = s.tiles := rfl
@[simp] theorem modSled_tileCtr : (modSled s n f).tileCtr = s.tileCtr := rfl
@[simp] theorem modSled_spans : (modSled s n f).spans = s.spans := rfl
@[simp] theorem modSled_weakTiles : (modSled s n f).weakTiles = s.weakTiles := rfl
@[simp] theorem modSled_shortHeads : (modSled s n f).shortHeads = s.shortHeads := rfl
@[simp] theorem modSled_swpSubmits : (modSled s n f).swpSubmits = s.swpSubmits := rfl
@[simp] theorem modSled_swpQueue : (modSled s n f).swpQueue = s.swpQueue := rfl
@[simp] theorem modSled_swpCur : (modSled s n f).swpCur = s.swpCur := rfl
@[simp] theorem modSled_swpStart : (modSled s n f).swpStart = s.swpStart := rfl
@[simp] theorem modSled_swpOpened : (modSled s n f).swpOpened = s.swpOpened := rfl
@[simp] theorem modSled_swpCtr : (modSled s n f).swpCtr = s.swpCtr := rfl
@[simp] theorem modSled_swpStop : (modSled s n f).swpStop = s.swpStop := rfl
@[simp] theorem modSled_swpAborted : (modSled s n f).swpAborted = s.swpAborted := rfl
@[simp] theorem modSled_winFlags : (modSled s n f).winFlags = s.winFlags := rfl
@[simp] theorem modSled_swpLate : (modSled s n f).swpLate = s.swpLate := rfl
@[simp] theorem modSled_swpTail : (modSled s n f).swpTail = s.swpTail := rfl
@[simp] theorem modSled_wc : (modSled s n f).wc = s.wc := rfl
@[simp] theorem modSled_se : (modSled s n f).se = s.se := rfl
@[simp] theorem modSled_sled : (modSled s n f).sled = s.sled.set n (f s.sled[n]) := rfl
@[simp] theorem modSled_spn : (modSled s n f).spn = s.spn := rfl
@[simp] theorem modSled_cal : (modSled s n f).cal = s.cal := rfl
@[simp] theorem modSled_retrained : (modSled s n f).retrained = s.retrained := rfl
@[simp] theorem modSled_host : (modSled s n f).host = s.host := rfl
@[simp] theorem modSled_disc : (modSled s n f).disc = s.disc := rfl
@[simp] theorem modSled_arv : (modSled s n f).arv = s.arv := rfl
@[simp] theorem modSled_ddrForce : (modSled s n f).ddrForce = s.ddrForce := rfl
@[simp] theorem modSled_clk : (modSled s n f).clk = s.clk := rfl
@[simp] theorem modSled_sup : (modSled s n f).sup = s.sup := rfl
@[simp] theorem modSled_sq : (modSled s n f).sq = s.sq := rfl
@[simp] theorem modSled_boot : (modSled s n f).boot = s.boot := rfl
@[simp] theorem modSled_pins : (modSled s n f).pins = s.pins := rfl
@[simp] theorem modSled_core : (modSled s n f).core = s.core := rfl
@[simp] theorem modSled_pending : (modSled s n f).pending = s.pending := rfl
@[simp] theorem modSled_rd (b : Nat) : rd (modSled s n f) b = rd s b := rfl
@[simp] theorem modSled_fget (g : Fld) : fget (modSled s n f) g = fget s g := rfl
@[simp] theorem modSled_fbit (g : Fld) : fbit (modSled s n f) g = fbit s g := rfl

end

/-! ### modDram -/

section
variable (s : State) (c : Fin 4) (f : DramCh → DramCh)

@[simp] theorem modDram_variant : (modDram s c f).variant = s.variant := rfl
@[simp] theorem modDram_keyFused : (modDram s c f).keyFused = s.keyFused := rfl
@[simp] theorem modDram_chipTime : (modDram s c f).chipTime = s.chipTime := rfl
@[simp] theorem modDram_regs : (modDram s c f).regs = s.regs := rfl
@[simp] theorem modDram_pend : (modDram s c f).pend = s.pend := rfl
@[simp] theorem modDram_mem : (modDram s c f).mem = s.mem := rfl
@[simp] theorem modDram_poison : (modDram s c f).poison = s.poison := rfl
@[simp] theorem modDram_lastReply : (modDram s c f).lastReply = s.lastReply := rfl
@[simp] theorem modDram_rbt : (modDram s c f).rbt = s.rbt := rfl
@[simp] theorem modDram_xing : (modDram s c f).xing = s.xing := rfl
@[simp] theorem modDram_pace : (modDram s c f).pace = s.pace := rfl
@[simp] theorem modDram_links : (modDram s c f).links = s.links := rfl
@[simp] theorem modDram_counters : (modDram s c f).counters = s.counters := rfl
@[simp] theorem modDram_wraps : (modDram s c f).wraps = s.wraps := rfl
@[simp] theorem modDram_tbLatch : (modDram s c f).tbLatch = s.tbLatch := rfl
@[simp] theorem modDram_pcLatch : (modDram s c f).pcLatch = s.pcLatch := rfl
@[simp] theorem modDram_freeCtr : (modDram s c f).freeCtr = s.freeCtr := rfl
@[simp] theorem modDram_arcade : (modDram s c f).arcade = s.arcade := rfl
@[simp] theorem modDram_l1d : (modDram s c f).l1d = s.l1d := rfl
@[simp] theorem modDram_l1i : (modDram s c f).l1i = s.l1i := rfl
@[simp] theorem modDram_dramErr : (modDram s c f).dramErr = s.dramErr := rfl
@[simp] theorem modDram_chkErr : (modDram s c f).chkErr = s.chkErr := rfl
@[simp] theorem modDram_dram : (modDram s c f).dram = s.dram.set c (f s.dram[c]) := rfl
@[simp] theorem modDram_dramSelfReq : (modDram s c f).dramSelfReq = s.dramSelfReq := rfl
@[simp] theorem modDram_tcmErr : (modDram s c f).tcmErr = s.tcmErr := rfl
@[simp] theorem modDram_sramErr : (modDram s c f).sramErr = s.sramErr := rfl
@[simp] theorem modDram_reports : (modDram s c f).reports = s.reports := rfl
@[simp] theorem modDram_fifo : (modDram s c f).fifo = s.fifo := rfl
@[simp] theorem modDram_ch : (modDram s c f).ch = s.ch := rfl
@[simp] theorem modDram_hb : (modDram s c f).hb = s.hb := rfl
@[simp] theorem modDram_packets : (modDram s c f).packets = s.packets := rfl
@[simp] theorem modDram_packetCtr : (modDram s c f).packetCtr = s.packetCtr := rfl
@[simp] theorem modDram_slices : (modDram s c f).slices = s.slices := rfl
@[simp] theorem modDram_decWait : (modDram s c f).decWait = s.decWait := rfl
@[simp] theorem modDram_decDiscard : (modDram s c f).decDiscard = s.decDiscard := rfl
@[simp] theorem modDram_decDrop : (modDram s c f).decDrop = s.decDrop := rfl
@[simp] theorem modDram_tiles : (modDram s c f).tiles = s.tiles := rfl
@[simp] theorem modDram_tileCtr : (modDram s c f).tileCtr = s.tileCtr := rfl
@[simp] theorem modDram_spans : (modDram s c f).spans = s.spans := rfl
@[simp] theorem modDram_weakTiles : (modDram s c f).weakTiles = s.weakTiles := rfl
@[simp] theorem modDram_shortHeads : (modDram s c f).shortHeads = s.shortHeads := rfl
@[simp] theorem modDram_swpSubmits : (modDram s c f).swpSubmits = s.swpSubmits := rfl
@[simp] theorem modDram_swpQueue : (modDram s c f).swpQueue = s.swpQueue := rfl
@[simp] theorem modDram_swpCur : (modDram s c f).swpCur = s.swpCur := rfl
@[simp] theorem modDram_swpStart : (modDram s c f).swpStart = s.swpStart := rfl
@[simp] theorem modDram_swpOpened : (modDram s c f).swpOpened = s.swpOpened := rfl
@[simp] theorem modDram_swpCtr : (modDram s c f).swpCtr = s.swpCtr := rfl
@[simp] theorem modDram_swpStop : (modDram s c f).swpStop = s.swpStop := rfl
@[simp] theorem modDram_swpAborted : (modDram s c f).swpAborted = s.swpAborted := rfl
@[simp] theorem modDram_winFlags : (modDram s c f).winFlags = s.winFlags := rfl
@[simp] theorem modDram_swpLate : (modDram s c f).swpLate = s.swpLate := rfl
@[simp] theorem modDram_swpTail : (modDram s c f).swpTail = s.swpTail := rfl
@[simp] theorem modDram_wc : (modDram s c f).wc = s.wc := rfl
@[simp] theorem modDram_se : (modDram s c f).se = s.se := rfl
@[simp] theorem modDram_sled : (modDram s c f).sled = s.sled := rfl
@[simp] theorem modDram_spn : (modDram s c f).spn = s.spn := rfl
@[simp] theorem modDram_cal : (modDram s c f).cal = s.cal := rfl
@[simp] theorem modDram_retrained : (modDram s c f).retrained = s.retrained := rfl
@[simp] theorem modDram_host : (modDram s c f).host = s.host := rfl
@[simp] theorem modDram_disc : (modDram s c f).disc = s.disc := rfl
@[simp] theorem modDram_arv : (modDram s c f).arv = s.arv := rfl
@[simp] theorem modDram_ddrForce : (modDram s c f).ddrForce = s.ddrForce := rfl
@[simp] theorem modDram_clk : (modDram s c f).clk = s.clk := rfl
@[simp] theorem modDram_sup : (modDram s c f).sup = s.sup := rfl
@[simp] theorem modDram_sq : (modDram s c f).sq = s.sq := rfl
@[simp] theorem modDram_boot : (modDram s c f).boot = s.boot := rfl
@[simp] theorem modDram_pins : (modDram s c f).pins = s.pins := rfl
@[simp] theorem modDram_core : (modDram s c f).core = s.core := rfl
@[simp] theorem modDram_pending : (modDram s c f).pending = s.pending := rfl
@[simp] theorem modDram_rd (b : Nat) : rd (modDram s c f) b = rd s b := rfl
@[simp] theorem modDram_fget (g : Fld) : fget (modDram s c f) g = fget s g := rfl
@[simp] theorem modDram_fbit (g : Fld) : fbit (modDram s c f) g = fbit s g := rfl

end

/-! ### modFifo -/

section
variable (s : State) (q : Fin 14) (f : Fifo → Fifo)

@[simp] theorem modFifo_variant : (modFifo s q f).variant = s.variant := rfl
@[simp] theorem modFifo_keyFused : (modFifo s q f).keyFused = s.keyFused := rfl
@[simp] theorem modFifo_chipTime : (modFifo s q f).chipTime = s.chipTime := rfl
@[simp] theorem modFifo_regs : (modFifo s q f).regs = s.regs := rfl
@[simp] theorem modFifo_pend : (modFifo s q f).pend = s.pend := rfl
@[simp] theorem modFifo_mem : (modFifo s q f).mem = s.mem := rfl
@[simp] theorem modFifo_poison : (modFifo s q f).poison = s.poison := rfl
@[simp] theorem modFifo_lastReply : (modFifo s q f).lastReply = s.lastReply := rfl
@[simp] theorem modFifo_rbt : (modFifo s q f).rbt = s.rbt := rfl
@[simp] theorem modFifo_xing : (modFifo s q f).xing = s.xing := rfl
@[simp] theorem modFifo_pace : (modFifo s q f).pace = s.pace := rfl
@[simp] theorem modFifo_links : (modFifo s q f).links = s.links := rfl
@[simp] theorem modFifo_counters : (modFifo s q f).counters = s.counters := rfl
@[simp] theorem modFifo_wraps : (modFifo s q f).wraps = s.wraps := rfl
@[simp] theorem modFifo_tbLatch : (modFifo s q f).tbLatch = s.tbLatch := rfl
@[simp] theorem modFifo_pcLatch : (modFifo s q f).pcLatch = s.pcLatch := rfl
@[simp] theorem modFifo_freeCtr : (modFifo s q f).freeCtr = s.freeCtr := rfl
@[simp] theorem modFifo_arcade : (modFifo s q f).arcade = s.arcade := rfl
@[simp] theorem modFifo_l1d : (modFifo s q f).l1d = s.l1d := rfl
@[simp] theorem modFifo_l1i : (modFifo s q f).l1i = s.l1i := rfl
@[simp] theorem modFifo_dramErr : (modFifo s q f).dramErr = s.dramErr := rfl
@[simp] theorem modFifo_chkErr : (modFifo s q f).chkErr = s.chkErr := rfl
@[simp] theorem modFifo_dram : (modFifo s q f).dram = s.dram := rfl
@[simp] theorem modFifo_dramSelfReq : (modFifo s q f).dramSelfReq = s.dramSelfReq := rfl
@[simp] theorem modFifo_tcmErr : (modFifo s q f).tcmErr = s.tcmErr := rfl
@[simp] theorem modFifo_sramErr : (modFifo s q f).sramErr = s.sramErr := rfl
@[simp] theorem modFifo_reports : (modFifo s q f).reports = s.reports := rfl
@[simp] theorem modFifo_fifo : (modFifo s q f).fifo = s.fifo.set q (f s.fifo[q]) := rfl
@[simp] theorem modFifo_ch : (modFifo s q f).ch = s.ch := rfl
@[simp] theorem modFifo_hb : (modFifo s q f).hb = s.hb := rfl
@[simp] theorem modFifo_packets : (modFifo s q f).packets = s.packets := rfl
@[simp] theorem modFifo_packetCtr : (modFifo s q f).packetCtr = s.packetCtr := rfl
@[simp] theorem modFifo_slices : (modFifo s q f).slices = s.slices := rfl
@[simp] theorem modFifo_decWait : (modFifo s q f).decWait = s.decWait := rfl
@[simp] theorem modFifo_decDiscard : (modFifo s q f).decDiscard = s.decDiscard := rfl
@[simp] theorem modFifo_decDrop : (modFifo s q f).decDrop = s.decDrop := rfl
@[simp] theorem modFifo_tiles : (modFifo s q f).tiles = s.tiles := rfl
@[simp] theorem modFifo_tileCtr : (modFifo s q f).tileCtr = s.tileCtr := rfl
@[simp] theorem modFifo_spans : (modFifo s q f).spans = s.spans := rfl
@[simp] theorem modFifo_weakTiles : (modFifo s q f).weakTiles = s.weakTiles := rfl
@[simp] theorem modFifo_shortHeads : (modFifo s q f).shortHeads = s.shortHeads := rfl
@[simp] theorem modFifo_swpSubmits : (modFifo s q f).swpSubmits = s.swpSubmits := rfl
@[simp] theorem modFifo_swpQueue : (modFifo s q f).swpQueue = s.swpQueue := rfl
@[simp] theorem modFifo_swpCur : (modFifo s q f).swpCur = s.swpCur := rfl
@[simp] theorem modFifo_swpStart : (modFifo s q f).swpStart = s.swpStart := rfl
@[simp] theorem modFifo_swpOpened : (modFifo s q f).swpOpened = s.swpOpened := rfl
@[simp] theorem modFifo_swpCtr : (modFifo s q f).swpCtr = s.swpCtr := rfl
@[simp] theorem modFifo_swpStop : (modFifo s q f).swpStop = s.swpStop := rfl
@[simp] theorem modFifo_swpAborted : (modFifo s q f).swpAborted = s.swpAborted := rfl
@[simp] theorem modFifo_winFlags : (modFifo s q f).winFlags = s.winFlags := rfl
@[simp] theorem modFifo_swpLate : (modFifo s q f).swpLate = s.swpLate := rfl
@[simp] theorem modFifo_swpTail : (modFifo s q f).swpTail = s.swpTail := rfl
@[simp] theorem modFifo_wc : (modFifo s q f).wc = s.wc := rfl
@[simp] theorem modFifo_se : (modFifo s q f).se = s.se := rfl
@[simp] theorem modFifo_sled : (modFifo s q f).sled = s.sled := rfl
@[simp] theorem modFifo_spn : (modFifo s q f).spn = s.spn := rfl
@[simp] theorem modFifo_cal : (modFifo s q f).cal = s.cal := rfl
@[simp] theorem modFifo_retrained : (modFifo s q f).retrained = s.retrained := rfl
@[simp] theorem modFifo_host : (modFifo s q f).host = s.host := rfl
@[simp] theorem modFifo_disc : (modFifo s q f).disc = s.disc := rfl
@[simp] theorem modFifo_arv : (modFifo s q f).arv = s.arv := rfl
@[simp] theorem modFifo_ddrForce : (modFifo s q f).ddrForce = s.ddrForce := rfl
@[simp] theorem modFifo_clk : (modFifo s q f).clk = s.clk := rfl
@[simp] theorem modFifo_sup : (modFifo s q f).sup = s.sup := rfl
@[simp] theorem modFifo_sq : (modFifo s q f).sq = s.sq := rfl
@[simp] theorem modFifo_boot : (modFifo s q f).boot = s.boot := rfl
@[simp] theorem modFifo_pins : (modFifo s q f).pins = s.pins := rfl
@[simp] theorem modFifo_core : (modFifo s q f).core = s.core := rfl
@[simp] theorem modFifo_pending : (modFifo s q f).pending = s.pending := rfl
@[simp] theorem modFifo_rd (b : Nat) : rd (modFifo s q f) b = rd s b := rfl
@[simp] theorem modFifo_fget (g : Fld) : fget (modFifo s q f) g = fget s g := rfl
@[simp] theorem modFifo_fbit (g : Fld) : fbit (modFifo s q f) g = fbit s g := rfl

end

/-! ### modCore -/

section
variable (s : State) (p : Fin 4) (f : Core → Core)

@[simp] theorem modCore_variant : (modCore s p f).variant = s.variant := rfl
@[simp] theorem modCore_keyFused : (modCore s p f).keyFused = s.keyFused := rfl
@[simp] theorem modCore_chipTime : (modCore s p f).chipTime = s.chipTime := rfl
@[simp] theorem modCore_regs : (modCore s p f).regs = s.regs := rfl
@[simp] theorem modCore_pend : (modCore s p f).pend = s.pend := rfl
@[simp] theorem modCore_mem : (modCore s p f).mem = s.mem := rfl
@[simp] theorem modCore_poison : (modCore s p f).poison = s.poison := rfl
@[simp] theorem modCore_lastReply : (modCore s p f).lastReply = s.lastReply := rfl
@[simp] theorem modCore_rbt : (modCore s p f).rbt = s.rbt := rfl
@[simp] theorem modCore_xing : (modCore s p f).xing = s.xing := rfl
@[simp] theorem modCore_pace : (modCore s p f).pace = s.pace := rfl
@[simp] theorem modCore_links : (modCore s p f).links = s.links := rfl
@[simp] theorem modCore_counters : (modCore s p f).counters = s.counters := rfl
@[simp] theorem modCore_wraps : (modCore s p f).wraps = s.wraps := rfl
@[simp] theorem modCore_tbLatch : (modCore s p f).tbLatch = s.tbLatch := rfl
@[simp] theorem modCore_pcLatch : (modCore s p f).pcLatch = s.pcLatch := rfl
@[simp] theorem modCore_freeCtr : (modCore s p f).freeCtr = s.freeCtr := rfl
@[simp] theorem modCore_arcade : (modCore s p f).arcade = s.arcade := rfl
@[simp] theorem modCore_l1d : (modCore s p f).l1d = s.l1d := rfl
@[simp] theorem modCore_l1i : (modCore s p f).l1i = s.l1i := rfl
@[simp] theorem modCore_dramErr : (modCore s p f).dramErr = s.dramErr := rfl
@[simp] theorem modCore_chkErr : (modCore s p f).chkErr = s.chkErr := rfl
@[simp] theorem modCore_dram : (modCore s p f).dram = s.dram := rfl
@[simp] theorem modCore_dramSelfReq : (modCore s p f).dramSelfReq = s.dramSelfReq := rfl
@[simp] theorem modCore_tcmErr : (modCore s p f).tcmErr = s.tcmErr := rfl
@[simp] theorem modCore_sramErr : (modCore s p f).sramErr = s.sramErr := rfl
@[simp] theorem modCore_reports : (modCore s p f).reports = s.reports := rfl
@[simp] theorem modCore_fifo : (modCore s p f).fifo = s.fifo := rfl
@[simp] theorem modCore_ch : (modCore s p f).ch = s.ch := rfl
@[simp] theorem modCore_hb : (modCore s p f).hb = s.hb := rfl
@[simp] theorem modCore_packets : (modCore s p f).packets = s.packets := rfl
@[simp] theorem modCore_packetCtr : (modCore s p f).packetCtr = s.packetCtr := rfl
@[simp] theorem modCore_slices : (modCore s p f).slices = s.slices := rfl
@[simp] theorem modCore_decWait : (modCore s p f).decWait = s.decWait := rfl
@[simp] theorem modCore_decDiscard : (modCore s p f).decDiscard = s.decDiscard := rfl
@[simp] theorem modCore_decDrop : (modCore s p f).decDrop = s.decDrop := rfl
@[simp] theorem modCore_tiles : (modCore s p f).tiles = s.tiles := rfl
@[simp] theorem modCore_tileCtr : (modCore s p f).tileCtr = s.tileCtr := rfl
@[simp] theorem modCore_spans : (modCore s p f).spans = s.spans := rfl
@[simp] theorem modCore_weakTiles : (modCore s p f).weakTiles = s.weakTiles := rfl
@[simp] theorem modCore_shortHeads : (modCore s p f).shortHeads = s.shortHeads := rfl
@[simp] theorem modCore_swpSubmits : (modCore s p f).swpSubmits = s.swpSubmits := rfl
@[simp] theorem modCore_swpQueue : (modCore s p f).swpQueue = s.swpQueue := rfl
@[simp] theorem modCore_swpCur : (modCore s p f).swpCur = s.swpCur := rfl
@[simp] theorem modCore_swpStart : (modCore s p f).swpStart = s.swpStart := rfl
@[simp] theorem modCore_swpOpened : (modCore s p f).swpOpened = s.swpOpened := rfl
@[simp] theorem modCore_swpCtr : (modCore s p f).swpCtr = s.swpCtr := rfl
@[simp] theorem modCore_swpStop : (modCore s p f).swpStop = s.swpStop := rfl
@[simp] theorem modCore_swpAborted : (modCore s p f).swpAborted = s.swpAborted := rfl
@[simp] theorem modCore_winFlags : (modCore s p f).winFlags = s.winFlags := rfl
@[simp] theorem modCore_swpLate : (modCore s p f).swpLate = s.swpLate := rfl
@[simp] theorem modCore_swpTail : (modCore s p f).swpTail = s.swpTail := rfl
@[simp] theorem modCore_wc : (modCore s p f).wc = s.wc := rfl
@[simp] theorem modCore_se : (modCore s p f).se = s.se := rfl
@[simp] theorem modCore_sled : (modCore s p f).sled = s.sled := rfl
@[simp] theorem modCore_spn : (modCore s p f).spn = s.spn := rfl
@[simp] theorem modCore_cal : (modCore s p f).cal = s.cal := rfl
@[simp] theorem modCore_retrained : (modCore s p f).retrained = s.retrained := rfl
@[simp] theorem modCore_host : (modCore s p f).host = s.host := rfl
@[simp] theorem modCore_disc : (modCore s p f).disc = s.disc := rfl
@[simp] theorem modCore_arv : (modCore s p f).arv = s.arv := rfl
@[simp] theorem modCore_ddrForce : (modCore s p f).ddrForce = s.ddrForce := rfl
@[simp] theorem modCore_clk : (modCore s p f).clk = s.clk := rfl
@[simp] theorem modCore_sup : (modCore s p f).sup = s.sup := rfl
@[simp] theorem modCore_sq : (modCore s p f).sq = s.sq := rfl
@[simp] theorem modCore_boot : (modCore s p f).boot = s.boot := rfl
@[simp] theorem modCore_pins : (modCore s p f).pins = s.pins := rfl
@[simp] theorem modCore_core : (modCore s p f).core = s.core.set p (f s.core[p]) := rfl
@[simp] theorem modCore_pending : (modCore s p f).pending = s.pending := rfl
@[simp] theorem modCore_rd (b : Nat) : rd (modCore s p f) b = rd s b := rfl
@[simp] theorem modCore_fget (g : Fld) : fget (modCore s p f) g = fget s g := rfl
@[simp] theorem modCore_fbit (g : Fld) : fbit (modCore s p f) g = fbit s g := rfl

end

/-! ### modPins -/

section
variable (s : State) (f : Pins → Pins)

@[simp] theorem modPins_variant : (modPins s f).variant = s.variant := rfl
@[simp] theorem modPins_keyFused : (modPins s f).keyFused = s.keyFused := rfl
@[simp] theorem modPins_chipTime : (modPins s f).chipTime = s.chipTime := rfl
@[simp] theorem modPins_regs : (modPins s f).regs = s.regs := rfl
@[simp] theorem modPins_pend : (modPins s f).pend = s.pend := rfl
@[simp] theorem modPins_mem : (modPins s f).mem = s.mem := rfl
@[simp] theorem modPins_poison : (modPins s f).poison = s.poison := rfl
@[simp] theorem modPins_lastReply : (modPins s f).lastReply = s.lastReply := rfl
@[simp] theorem modPins_rbt : (modPins s f).rbt = s.rbt := rfl
@[simp] theorem modPins_xing : (modPins s f).xing = s.xing := rfl
@[simp] theorem modPins_pace : (modPins s f).pace = s.pace := rfl
@[simp] theorem modPins_links : (modPins s f).links = s.links := rfl
@[simp] theorem modPins_counters : (modPins s f).counters = s.counters := rfl
@[simp] theorem modPins_wraps : (modPins s f).wraps = s.wraps := rfl
@[simp] theorem modPins_tbLatch : (modPins s f).tbLatch = s.tbLatch := rfl
@[simp] theorem modPins_pcLatch : (modPins s f).pcLatch = s.pcLatch := rfl
@[simp] theorem modPins_freeCtr : (modPins s f).freeCtr = s.freeCtr := rfl
@[simp] theorem modPins_arcade : (modPins s f).arcade = s.arcade := rfl
@[simp] theorem modPins_l1d : (modPins s f).l1d = s.l1d := rfl
@[simp] theorem modPins_l1i : (modPins s f).l1i = s.l1i := rfl
@[simp] theorem modPins_dramErr : (modPins s f).dramErr = s.dramErr := rfl
@[simp] theorem modPins_chkErr : (modPins s f).chkErr = s.chkErr := rfl
@[simp] theorem modPins_dram : (modPins s f).dram = s.dram := rfl
@[simp] theorem modPins_dramSelfReq : (modPins s f).dramSelfReq = s.dramSelfReq := rfl
@[simp] theorem modPins_tcmErr : (modPins s f).tcmErr = s.tcmErr := rfl
@[simp] theorem modPins_sramErr : (modPins s f).sramErr = s.sramErr := rfl
@[simp] theorem modPins_reports : (modPins s f).reports = s.reports := rfl
@[simp] theorem modPins_fifo : (modPins s f).fifo = s.fifo := rfl
@[simp] theorem modPins_ch : (modPins s f).ch = s.ch := rfl
@[simp] theorem modPins_hb : (modPins s f).hb = s.hb := rfl
@[simp] theorem modPins_packets : (modPins s f).packets = s.packets := rfl
@[simp] theorem modPins_packetCtr : (modPins s f).packetCtr = s.packetCtr := rfl
@[simp] theorem modPins_slices : (modPins s f).slices = s.slices := rfl
@[simp] theorem modPins_decWait : (modPins s f).decWait = s.decWait := rfl
@[simp] theorem modPins_decDiscard : (modPins s f).decDiscard = s.decDiscard := rfl
@[simp] theorem modPins_decDrop : (modPins s f).decDrop = s.decDrop := rfl
@[simp] theorem modPins_tiles : (modPins s f).tiles = s.tiles := rfl
@[simp] theorem modPins_tileCtr : (modPins s f).tileCtr = s.tileCtr := rfl
@[simp] theorem modPins_spans : (modPins s f).spans = s.spans := rfl
@[simp] theorem modPins_weakTiles : (modPins s f).weakTiles = s.weakTiles := rfl
@[simp] theorem modPins_shortHeads : (modPins s f).shortHeads = s.shortHeads := rfl
@[simp] theorem modPins_swpSubmits : (modPins s f).swpSubmits = s.swpSubmits := rfl
@[simp] theorem modPins_swpQueue : (modPins s f).swpQueue = s.swpQueue := rfl
@[simp] theorem modPins_swpCur : (modPins s f).swpCur = s.swpCur := rfl
@[simp] theorem modPins_swpStart : (modPins s f).swpStart = s.swpStart := rfl
@[simp] theorem modPins_swpOpened : (modPins s f).swpOpened = s.swpOpened := rfl
@[simp] theorem modPins_swpCtr : (modPins s f).swpCtr = s.swpCtr := rfl
@[simp] theorem modPins_swpStop : (modPins s f).swpStop = s.swpStop := rfl
@[simp] theorem modPins_swpAborted : (modPins s f).swpAborted = s.swpAborted := rfl
@[simp] theorem modPins_winFlags : (modPins s f).winFlags = s.winFlags := rfl
@[simp] theorem modPins_swpLate : (modPins s f).swpLate = s.swpLate := rfl
@[simp] theorem modPins_swpTail : (modPins s f).swpTail = s.swpTail := rfl
@[simp] theorem modPins_wc : (modPins s f).wc = s.wc := rfl
@[simp] theorem modPins_se : (modPins s f).se = s.se := rfl
@[simp] theorem modPins_sled : (modPins s f).sled = s.sled := rfl
@[simp] theorem modPins_spn : (modPins s f).spn = s.spn := rfl
@[simp] theorem modPins_cal : (modPins s f).cal = s.cal := rfl
@[simp] theorem modPins_retrained : (modPins s f).retrained = s.retrained := rfl
@[simp] theorem modPins_host : (modPins s f).host = s.host := rfl
@[simp] theorem modPins_disc : (modPins s f).disc = s.disc := rfl
@[simp] theorem modPins_arv : (modPins s f).arv = s.arv := rfl
@[simp] theorem modPins_ddrForce : (modPins s f).ddrForce = s.ddrForce := rfl
@[simp] theorem modPins_clk : (modPins s f).clk = s.clk := rfl
@[simp] theorem modPins_sup : (modPins s f).sup = s.sup := rfl
@[simp] theorem modPins_sq : (modPins s f).sq = s.sq := rfl
@[simp] theorem modPins_boot : (modPins s f).boot = s.boot := rfl
@[simp] theorem modPins_pins : (modPins s f).pins = f s.pins := rfl
@[simp] theorem modPins_core : (modPins s f).core = s.core := rfl
@[simp] theorem modPins_pending : (modPins s f).pending = s.pending := rfl
@[simp] theorem modPins_rd (b : Nat) : rd (modPins s f) b = rd s b := rfl
@[simp] theorem modPins_fget (g : Fld) : fget (modPins s f) g = fget s g := rfl
@[simp] theorem modPins_fbit (g : Fld) : fbit (modPins s f) g = fbit s g := rfl

end

/-! ### modSup -/

section
variable (s : State) (f : Supply → Supply)

@[simp] theorem modSup_variant : (modSup s f).variant = s.variant := rfl
@[simp] theorem modSup_keyFused : (modSup s f).keyFused = s.keyFused := rfl
@[simp] theorem modSup_chipTime : (modSup s f).chipTime = s.chipTime := rfl
@[simp] theorem modSup_regs : (modSup s f).regs = s.regs := rfl
@[simp] theorem modSup_pend : (modSup s f).pend = s.pend := rfl
@[simp] theorem modSup_mem : (modSup s f).mem = s.mem := rfl
@[simp] theorem modSup_poison : (modSup s f).poison = s.poison := rfl
@[simp] theorem modSup_lastReply : (modSup s f).lastReply = s.lastReply := rfl
@[simp] theorem modSup_rbt : (modSup s f).rbt = s.rbt := rfl
@[simp] theorem modSup_xing : (modSup s f).xing = s.xing := rfl
@[simp] theorem modSup_pace : (modSup s f).pace = s.pace := rfl
@[simp] theorem modSup_links : (modSup s f).links = s.links := rfl
@[simp] theorem modSup_counters : (modSup s f).counters = s.counters := rfl
@[simp] theorem modSup_wraps : (modSup s f).wraps = s.wraps := rfl
@[simp] theorem modSup_tbLatch : (modSup s f).tbLatch = s.tbLatch := rfl
@[simp] theorem modSup_pcLatch : (modSup s f).pcLatch = s.pcLatch := rfl
@[simp] theorem modSup_freeCtr : (modSup s f).freeCtr = s.freeCtr := rfl
@[simp] theorem modSup_arcade : (modSup s f).arcade = s.arcade := rfl
@[simp] theorem modSup_l1d : (modSup s f).l1d = s.l1d := rfl
@[simp] theorem modSup_l1i : (modSup s f).l1i = s.l1i := rfl
@[simp] theorem modSup_dramErr : (modSup s f).dramErr = s.dramErr := rfl
@[simp] theorem modSup_chkErr : (modSup s f).chkErr = s.chkErr := rfl
@[simp] theorem modSup_dram : (modSup s f).dram = s.dram := rfl
@[simp] theorem modSup_dramSelfReq : (modSup s f).dramSelfReq = s.dramSelfReq := rfl
@[simp] theorem modSup_tcmErr : (modSup s f).tcmErr = s.tcmErr := rfl
@[simp] theorem modSup_sramErr : (modSup s f).sramErr = s.sramErr := rfl
@[simp] theorem modSup_reports : (modSup s f).reports = s.reports := rfl
@[simp] theorem modSup_fifo : (modSup s f).fifo = s.fifo := rfl
@[simp] theorem modSup_ch : (modSup s f).ch = s.ch := rfl
@[simp] theorem modSup_hb : (modSup s f).hb = s.hb := rfl
@[simp] theorem modSup_packets : (modSup s f).packets = s.packets := rfl
@[simp] theorem modSup_packetCtr : (modSup s f).packetCtr = s.packetCtr := rfl
@[simp] theorem modSup_slices : (modSup s f).slices = s.slices := rfl
@[simp] theorem modSup_decWait : (modSup s f).decWait = s.decWait := rfl
@[simp] theorem modSup_decDiscard : (modSup s f).decDiscard = s.decDiscard := rfl
@[simp] theorem modSup_decDrop : (modSup s f).decDrop = s.decDrop := rfl
@[simp] theorem modSup_tiles : (modSup s f).tiles = s.tiles := rfl
@[simp] theorem modSup_tileCtr : (modSup s f).tileCtr = s.tileCtr := rfl
@[simp] theorem modSup_spans : (modSup s f).spans = s.spans := rfl
@[simp] theorem modSup_weakTiles : (modSup s f).weakTiles = s.weakTiles := rfl
@[simp] theorem modSup_shortHeads : (modSup s f).shortHeads = s.shortHeads := rfl
@[simp] theorem modSup_swpSubmits : (modSup s f).swpSubmits = s.swpSubmits := rfl
@[simp] theorem modSup_swpQueue : (modSup s f).swpQueue = s.swpQueue := rfl
@[simp] theorem modSup_swpCur : (modSup s f).swpCur = s.swpCur := rfl
@[simp] theorem modSup_swpStart : (modSup s f).swpStart = s.swpStart := rfl
@[simp] theorem modSup_swpOpened : (modSup s f).swpOpened = s.swpOpened := rfl
@[simp] theorem modSup_swpCtr : (modSup s f).swpCtr = s.swpCtr := rfl
@[simp] theorem modSup_swpStop : (modSup s f).swpStop = s.swpStop := rfl
@[simp] theorem modSup_swpAborted : (modSup s f).swpAborted = s.swpAborted := rfl
@[simp] theorem modSup_winFlags : (modSup s f).winFlags = s.winFlags := rfl
@[simp] theorem modSup_swpLate : (modSup s f).swpLate = s.swpLate := rfl
@[simp] theorem modSup_swpTail : (modSup s f).swpTail = s.swpTail := rfl
@[simp] theorem modSup_wc : (modSup s f).wc = s.wc := rfl
@[simp] theorem modSup_se : (modSup s f).se = s.se := rfl
@[simp] theorem modSup_sled : (modSup s f).sled = s.sled := rfl
@[simp] theorem modSup_spn : (modSup s f).spn = s.spn := rfl
@[simp] theorem modSup_cal : (modSup s f).cal = s.cal := rfl
@[simp] theorem modSup_retrained : (modSup s f).retrained = s.retrained := rfl
@[simp] theorem modSup_host : (modSup s f).host = s.host := rfl
@[simp] theorem modSup_disc : (modSup s f).disc = s.disc := rfl
@[simp] theorem modSup_arv : (modSup s f).arv = s.arv := rfl
@[simp] theorem modSup_ddrForce : (modSup s f).ddrForce = s.ddrForce := rfl
@[simp] theorem modSup_clk : (modSup s f).clk = s.clk := rfl
@[simp] theorem modSup_sup : (modSup s f).sup = f s.sup := rfl
@[simp] theorem modSup_sq : (modSup s f).sq = s.sq := rfl
@[simp] theorem modSup_boot : (modSup s f).boot = s.boot := rfl
@[simp] theorem modSup_pins : (modSup s f).pins = s.pins := rfl
@[simp] theorem modSup_core : (modSup s f).core = s.core := rfl
@[simp] theorem modSup_pending : (modSup s f).pending = s.pending := rfl
@[simp] theorem modSup_rd (b : Nat) : rd (modSup s f) b = rd s b := rfl
@[simp] theorem modSup_fget (g : Fld) : fget (modSup s f) g = fget s g := rfl
@[simp] theorem modSup_fbit (g : Fld) : fbit (modSup s f) g = fbit s g := rfl

end

/-! ### modClk -/

section
variable (s : State) (f : Clk → Clk)

@[simp] theorem modClk_variant : (modClk s f).variant = s.variant := rfl
@[simp] theorem modClk_keyFused : (modClk s f).keyFused = s.keyFused := rfl
@[simp] theorem modClk_chipTime : (modClk s f).chipTime = s.chipTime := rfl
@[simp] theorem modClk_regs : (modClk s f).regs = s.regs := rfl
@[simp] theorem modClk_pend : (modClk s f).pend = s.pend := rfl
@[simp] theorem modClk_mem : (modClk s f).mem = s.mem := rfl
@[simp] theorem modClk_poison : (modClk s f).poison = s.poison := rfl
@[simp] theorem modClk_lastReply : (modClk s f).lastReply = s.lastReply := rfl
@[simp] theorem modClk_rbt : (modClk s f).rbt = s.rbt := rfl
@[simp] theorem modClk_xing : (modClk s f).xing = s.xing := rfl
@[simp] theorem modClk_pace : (modClk s f).pace = s.pace := rfl
@[simp] theorem modClk_links : (modClk s f).links = s.links := rfl
@[simp] theorem modClk_counters : (modClk s f).counters = s.counters := rfl
@[simp] theorem modClk_wraps : (modClk s f).wraps = s.wraps := rfl
@[simp] theorem modClk_tbLatch : (modClk s f).tbLatch = s.tbLatch := rfl
@[simp] theorem modClk_pcLatch : (modClk s f).pcLatch = s.pcLatch := rfl
@[simp] theorem modClk_freeCtr : (modClk s f).freeCtr = s.freeCtr := rfl
@[simp] theorem modClk_arcade : (modClk s f).arcade = s.arcade := rfl
@[simp] theorem modClk_l1d : (modClk s f).l1d = s.l1d := rfl
@[simp] theorem modClk_l1i : (modClk s f).l1i = s.l1i := rfl
@[simp] theorem modClk_dramErr : (modClk s f).dramErr = s.dramErr := rfl
@[simp] theorem modClk_chkErr : (modClk s f).chkErr = s.chkErr := rfl
@[simp] theorem modClk_dram : (modClk s f).dram = s.dram := rfl
@[simp] theorem modClk_dramSelfReq : (modClk s f).dramSelfReq = s.dramSelfReq := rfl
@[simp] theorem modClk_tcmErr : (modClk s f).tcmErr = s.tcmErr := rfl
@[simp] theorem modClk_sramErr : (modClk s f).sramErr = s.sramErr := rfl
@[simp] theorem modClk_reports : (modClk s f).reports = s.reports := rfl
@[simp] theorem modClk_fifo : (modClk s f).fifo = s.fifo := rfl
@[simp] theorem modClk_ch : (modClk s f).ch = s.ch := rfl
@[simp] theorem modClk_hb : (modClk s f).hb = s.hb := rfl
@[simp] theorem modClk_packets : (modClk s f).packets = s.packets := rfl
@[simp] theorem modClk_packetCtr : (modClk s f).packetCtr = s.packetCtr := rfl
@[simp] theorem modClk_slices : (modClk s f).slices = s.slices := rfl
@[simp] theorem modClk_decWait : (modClk s f).decWait = s.decWait := rfl
@[simp] theorem modClk_decDiscard : (modClk s f).decDiscard = s.decDiscard := rfl
@[simp] theorem modClk_decDrop : (modClk s f).decDrop = s.decDrop := rfl
@[simp] theorem modClk_tiles : (modClk s f).tiles = s.tiles := rfl
@[simp] theorem modClk_tileCtr : (modClk s f).tileCtr = s.tileCtr := rfl
@[simp] theorem modClk_spans : (modClk s f).spans = s.spans := rfl
@[simp] theorem modClk_weakTiles : (modClk s f).weakTiles = s.weakTiles := rfl
@[simp] theorem modClk_shortHeads : (modClk s f).shortHeads = s.shortHeads := rfl
@[simp] theorem modClk_swpSubmits : (modClk s f).swpSubmits = s.swpSubmits := rfl
@[simp] theorem modClk_swpQueue : (modClk s f).swpQueue = s.swpQueue := rfl
@[simp] theorem modClk_swpCur : (modClk s f).swpCur = s.swpCur := rfl
@[simp] theorem modClk_swpStart : (modClk s f).swpStart = s.swpStart := rfl
@[simp] theorem modClk_swpOpened : (modClk s f).swpOpened = s.swpOpened := rfl
@[simp] theorem modClk_swpCtr : (modClk s f).swpCtr = s.swpCtr := rfl
@[simp] theorem modClk_swpStop : (modClk s f).swpStop = s.swpStop := rfl
@[simp] theorem modClk_swpAborted : (modClk s f).swpAborted = s.swpAborted := rfl
@[simp] theorem modClk_winFlags : (modClk s f).winFlags = s.winFlags := rfl
@[simp] theorem modClk_swpLate : (modClk s f).swpLate = s.swpLate := rfl
@[simp] theorem modClk_swpTail : (modClk s f).swpTail = s.swpTail := rfl
@[simp] theorem modClk_wc : (modClk s f).wc = s.wc := rfl
@[simp] theorem modClk_se : (modClk s f).se = s.se := rfl
@[simp] theorem modClk_sled : (modClk s f).sled = s.sled := rfl
@[simp] theorem modClk_spn : (modClk s f).spn = s.spn := rfl
@[simp] theorem modClk_cal : (modClk s f).cal = s.cal := rfl
@[simp] theorem modClk_retrained : (modClk s f).retrained = s.retrained := rfl
@[simp] theorem modClk_host : (modClk s f).host = s.host := rfl
@[simp] theorem modClk_disc : (modClk s f).disc = s.disc := rfl
@[simp] theorem modClk_arv : (modClk s f).arv = s.arv := rfl
@[simp] theorem modClk_ddrForce : (modClk s f).ddrForce = s.ddrForce := rfl
@[simp] theorem modClk_clk : (modClk s f).clk = f s.clk := rfl
@[simp] theorem modClk_sup : (modClk s f).sup = s.sup := rfl
@[simp] theorem modClk_sq : (modClk s f).sq = s.sq := rfl
@[simp] theorem modClk_boot : (modClk s f).boot = s.boot := rfl
@[simp] theorem modClk_pins : (modClk s f).pins = s.pins := rfl
@[simp] theorem modClk_core : (modClk s f).core = s.core := rfl
@[simp] theorem modClk_pending : (modClk s f).pending = s.pending := rfl
@[simp] theorem modClk_rd (b : Nat) : rd (modClk s f) b = rd s b := rfl
@[simp] theorem modClk_fget (g : Fld) : fget (modClk s f) g = fget s g := rfl
@[simp] theorem modClk_fbit (g : Fld) : fbit (modClk s f) g = fbit s g := rfl

end

/-! ### modCal -/

section
variable (s : State) (f : Calib → Calib)

@[simp] theorem modCal_variant : (modCal s f).variant = s.variant := rfl
@[simp] theorem modCal_keyFused : (modCal s f).keyFused = s.keyFused := rfl
@[simp] theorem modCal_chipTime : (modCal s f).chipTime = s.chipTime := rfl
@[simp] theorem modCal_regs : (modCal s f).regs = s.regs := rfl
@[simp] theorem modCal_pend : (modCal s f).pend = s.pend := rfl
@[simp] theorem modCal_mem : (modCal s f).mem = s.mem := rfl
@[simp] theorem modCal_poison : (modCal s f).poison = s.poison := rfl
@[simp] theorem modCal_lastReply : (modCal s f).lastReply = s.lastReply := rfl
@[simp] theorem modCal_rbt : (modCal s f).rbt = s.rbt := rfl
@[simp] theorem modCal_xing : (modCal s f).xing = s.xing := rfl
@[simp] theorem modCal_pace : (modCal s f).pace = s.pace := rfl
@[simp] theorem modCal_links : (modCal s f).links = s.links := rfl
@[simp] theorem modCal_counters : (modCal s f).counters = s.counters := rfl
@[simp] theorem modCal_wraps : (modCal s f).wraps = s.wraps := rfl
@[simp] theorem modCal_tbLatch : (modCal s f).tbLatch = s.tbLatch := rfl
@[simp] theorem modCal_pcLatch : (modCal s f).pcLatch = s.pcLatch := rfl
@[simp] theorem modCal_freeCtr : (modCal s f).freeCtr = s.freeCtr := rfl
@[simp] theorem modCal_arcade : (modCal s f).arcade = s.arcade := rfl
@[simp] theorem modCal_l1d : (modCal s f).l1d = s.l1d := rfl
@[simp] theorem modCal_l1i : (modCal s f).l1i = s.l1i := rfl
@[simp] theorem modCal_dramErr : (modCal s f).dramErr = s.dramErr := rfl
@[simp] theorem modCal_chkErr : (modCal s f).chkErr = s.chkErr := rfl
@[simp] theorem modCal_dram : (modCal s f).dram = s.dram := rfl
@[simp] theorem modCal_dramSelfReq : (modCal s f).dramSelfReq = s.dramSelfReq := rfl
@[simp] theorem modCal_tcmErr : (modCal s f).tcmErr = s.tcmErr := rfl
@[simp] theorem modCal_sramErr : (modCal s f).sramErr = s.sramErr := rfl
@[simp] theorem modCal_reports : (modCal s f).reports = s.reports := rfl
@[simp] theorem modCal_fifo : (modCal s f).fifo = s.fifo := rfl
@[simp] theorem modCal_ch : (modCal s f).ch = s.ch := rfl
@[simp] theorem modCal_hb : (modCal s f).hb = s.hb := rfl
@[simp] theorem modCal_packets : (modCal s f).packets = s.packets := rfl
@[simp] theorem modCal_packetCtr : (modCal s f).packetCtr = s.packetCtr := rfl
@[simp] theorem modCal_slices : (modCal s f).slices = s.slices := rfl
@[simp] theorem modCal_decWait : (modCal s f).decWait = s.decWait := rfl
@[simp] theorem modCal_decDiscard : (modCal s f).decDiscard = s.decDiscard := rfl
@[simp] theorem modCal_decDrop : (modCal s f).decDrop = s.decDrop := rfl
@[simp] theorem modCal_tiles : (modCal s f).tiles = s.tiles := rfl
@[simp] theorem modCal_tileCtr : (modCal s f).tileCtr = s.tileCtr := rfl
@[simp] theorem modCal_spans : (modCal s f).spans = s.spans := rfl
@[simp] theorem modCal_weakTiles : (modCal s f).weakTiles = s.weakTiles := rfl
@[simp] theorem modCal_shortHeads : (modCal s f).shortHeads = s.shortHeads := rfl
@[simp] theorem modCal_swpSubmits : (modCal s f).swpSubmits = s.swpSubmits := rfl
@[simp] theorem modCal_swpQueue : (modCal s f).swpQueue = s.swpQueue := rfl
@[simp] theorem modCal_swpCur : (modCal s f).swpCur = s.swpCur := rfl
@[simp] theorem modCal_swpStart : (modCal s f).swpStart = s.swpStart := rfl
@[simp] theorem modCal_swpOpened : (modCal s f).swpOpened = s.swpOpened := rfl
@[simp] theorem modCal_swpCtr : (modCal s f).swpCtr = s.swpCtr := rfl
@[simp] theorem modCal_swpStop : (modCal s f).swpStop = s.swpStop := rfl
@[simp] theorem modCal_swpAborted : (modCal s f).swpAborted = s.swpAborted := rfl
@[simp] theorem modCal_winFlags : (modCal s f).winFlags = s.winFlags := rfl
@[simp] theorem modCal_swpLate : (modCal s f).swpLate = s.swpLate := rfl
@[simp] theorem modCal_swpTail : (modCal s f).swpTail = s.swpTail := rfl
@[simp] theorem modCal_wc : (modCal s f).wc = s.wc := rfl
@[simp] theorem modCal_se : (modCal s f).se = s.se := rfl
@[simp] theorem modCal_sled : (modCal s f).sled = s.sled := rfl
@[simp] theorem modCal_spn : (modCal s f).spn = s.spn := rfl
@[simp] theorem modCal_cal : (modCal s f).cal = f s.cal := rfl
@[simp] theorem modCal_retrained : (modCal s f).retrained = s.retrained := rfl
@[simp] theorem modCal_host : (modCal s f).host = s.host := rfl
@[simp] theorem modCal_disc : (modCal s f).disc = s.disc := rfl
@[simp] theorem modCal_arv : (modCal s f).arv = s.arv := rfl
@[simp] theorem modCal_ddrForce : (modCal s f).ddrForce = s.ddrForce := rfl
@[simp] theorem modCal_clk : (modCal s f).clk = s.clk := rfl
@[simp] theorem modCal_sup : (modCal s f).sup = s.sup := rfl
@[simp] theorem modCal_sq : (modCal s f).sq = s.sq := rfl
@[simp] theorem modCal_boot : (modCal s f).boot = s.boot := rfl
@[simp] theorem modCal_pins : (modCal s f).pins = s.pins := rfl
@[simp] theorem modCal_core : (modCal s f).core = s.core := rfl
@[simp] theorem modCal_pending : (modCal s f).pending = s.pending := rfl
@[simp] theorem modCal_rd (b : Nat) : rd (modCal s f) b = rd s b := rfl
@[simp] theorem modCal_fget (g : Fld) : fget (modCal s f) g = fget s g := rfl
@[simp] theorem modCal_fbit (g : Fld) : fbit (modCal s f) g = fbit s g := rfl

end

/-! ### modSpn -/

section
variable (s : State) (f : Spindle → Spindle)

@[simp] theorem modSpn_variant : (modSpn s f).variant = s.variant := rfl
@[simp] theorem modSpn_keyFused : (modSpn s f).keyFused = s.keyFused := rfl
@[simp] theorem modSpn_chipTime : (modSpn s f).chipTime = s.chipTime := rfl
@[simp] theorem modSpn_regs : (modSpn s f).regs = s.regs := rfl
@[simp] theorem modSpn_pend : (modSpn s f).pend = s.pend := rfl
@[simp] theorem modSpn_mem : (modSpn s f).mem = s.mem := rfl
@[simp] theorem modSpn_poison : (modSpn s f).poison = s.poison := rfl
@[simp] theorem modSpn_lastReply : (modSpn s f).lastReply = s.lastReply := rfl
@[simp] theorem modSpn_rbt : (modSpn s f).rbt = s.rbt := rfl
@[simp] theorem modSpn_xing : (modSpn s f).xing = s.xing := rfl
@[simp] theorem modSpn_pace : (modSpn s f).pace = s.pace := rfl
@[simp] theorem modSpn_links : (modSpn s f).links = s.links := rfl
@[simp] theorem modSpn_counters : (modSpn s f).counters = s.counters := rfl
@[simp] theorem modSpn_wraps : (modSpn s f).wraps = s.wraps := rfl
@[simp] theorem modSpn_tbLatch : (modSpn s f).tbLatch = s.tbLatch := rfl
@[simp] theorem modSpn_pcLatch : (modSpn s f).pcLatch = s.pcLatch := rfl
@[simp] theorem modSpn_freeCtr : (modSpn s f).freeCtr = s.freeCtr := rfl
@[simp] theorem modSpn_arcade : (modSpn s f).arcade = s.arcade := rfl
@[simp] theorem modSpn_l1d : (modSpn s f).l1d = s.l1d := rfl
@[simp] theorem modSpn_l1i : (modSpn s f).l1i = s.l1i := rfl
@[simp] theorem modSpn_dramErr : (modSpn s f).dramErr = s.dramErr := rfl
@[simp] theorem modSpn_chkErr : (modSpn s f).chkErr = s.chkErr := rfl
@[simp] theorem modSpn_dram : (modSpn s f).dram = s.dram := rfl
@[simp] theorem modSpn_dramSelfReq : (modSpn s f).dramSelfReq = s.dramSelfReq := rfl
@[simp] theorem modSpn_tcmErr : (modSpn s f).tcmErr = s.tcmErr := rfl
@[simp] theorem modSpn_sramErr : (modSpn s f).sramErr = s.sramErr := rfl
@[simp] theorem modSpn_reports : (modSpn s f).reports = s.reports := rfl
@[simp] theorem modSpn_fifo : (modSpn s f).fifo = s.fifo := rfl
@[simp] theorem modSpn_ch : (modSpn s f).ch = s.ch := rfl
@[simp] theorem modSpn_hb : (modSpn s f).hb = s.hb := rfl
@[simp] theorem modSpn_packets : (modSpn s f).packets = s.packets := rfl
@[simp] theorem modSpn_packetCtr : (modSpn s f).packetCtr = s.packetCtr := rfl
@[simp] theorem modSpn_slices : (modSpn s f).slices = s.slices := rfl
@[simp] theorem modSpn_decWait : (modSpn s f).decWait = s.decWait := rfl
@[simp] theorem modSpn_decDiscard : (modSpn s f).decDiscard = s.decDiscard := rfl
@[simp] theorem modSpn_decDrop : (modSpn s f).decDrop = s.decDrop := rfl
@[simp] theorem modSpn_tiles : (modSpn s f).tiles = s.tiles := rfl
@[simp] theorem modSpn_tileCtr : (modSpn s f).tileCtr = s.tileCtr := rfl
@[simp] theorem modSpn_spans : (modSpn s f).spans = s.spans := rfl
@[simp] theorem modSpn_weakTiles : (modSpn s f).weakTiles = s.weakTiles := rfl
@[simp] theorem modSpn_shortHeads : (modSpn s f).shortHeads = s.shortHeads := rfl
@[simp] theorem modSpn_swpSubmits : (modSpn s f).swpSubmits = s.swpSubmits := rfl
@[simp] theorem modSpn_swpQueue : (modSpn s f).swpQueue = s.swpQueue := rfl
@[simp] theorem modSpn_swpCur : (modSpn s f).swpCur = s.swpCur := rfl
@[simp] theorem modSpn_swpStart : (modSpn s f).swpStart = s.swpStart := rfl
@[simp] theorem modSpn_swpOpened : (modSpn s f).swpOpened = s.swpOpened := rfl
@[simp] theorem modSpn_swpCtr : (modSpn s f).swpCtr = s.swpCtr := rfl
@[simp] theorem modSpn_swpStop : (modSpn s f).swpStop = s.swpStop := rfl
@[simp] theorem modSpn_swpAborted : (modSpn s f).swpAborted = s.swpAborted := rfl
@[simp] theorem modSpn_winFlags : (modSpn s f).winFlags = s.winFlags := rfl
@[simp] theorem modSpn_swpLate : (modSpn s f).swpLate = s.swpLate := rfl
@[simp] theorem modSpn_swpTail : (modSpn s f).swpTail = s.swpTail := rfl
@[simp] theorem modSpn_wc : (modSpn s f).wc = s.wc := rfl
@[simp] theorem modSpn_se : (modSpn s f).se = s.se := rfl
@[simp] theorem modSpn_sled : (modSpn s f).sled = s.sled := rfl
@[simp] theorem modSpn_spn : (modSpn s f).spn = f s.spn := rfl
@[simp] theorem modSpn_cal : (modSpn s f).cal = s.cal := rfl
@[simp] theorem modSpn_retrained : (modSpn s f).retrained = s.retrained := rfl
@[simp] theorem modSpn_host : (modSpn s f).host = s.host := rfl
@[simp] theorem modSpn_disc : (modSpn s f).disc = s.disc := rfl
@[simp] theorem modSpn_arv : (modSpn s f).arv = s.arv := rfl
@[simp] theorem modSpn_ddrForce : (modSpn s f).ddrForce = s.ddrForce := rfl
@[simp] theorem modSpn_clk : (modSpn s f).clk = s.clk := rfl
@[simp] theorem modSpn_sup : (modSpn s f).sup = s.sup := rfl
@[simp] theorem modSpn_sq : (modSpn s f).sq = s.sq := rfl
@[simp] theorem modSpn_boot : (modSpn s f).boot = s.boot := rfl
@[simp] theorem modSpn_pins : (modSpn s f).pins = s.pins := rfl
@[simp] theorem modSpn_core : (modSpn s f).core = s.core := rfl
@[simp] theorem modSpn_pending : (modSpn s f).pending = s.pending := rfl
@[simp] theorem modSpn_rd (b : Nat) : rd (modSpn s f) b = rd s b := rfl
@[simp] theorem modSpn_fget (g : Fld) : fget (modSpn s f) g = fget s g := rfl
@[simp] theorem modSpn_fbit (g : Fld) : fbit (modSpn s f) g = fbit s g := rfl

end

/-! ### modDisc -/

section
variable (s : State) (f : Disc → Disc)

@[simp] theorem modDisc_variant : (modDisc s f).variant = s.variant := rfl
@[simp] theorem modDisc_keyFused : (modDisc s f).keyFused = s.keyFused := rfl
@[simp] theorem modDisc_chipTime : (modDisc s f).chipTime = s.chipTime := rfl
@[simp] theorem modDisc_regs : (modDisc s f).regs = s.regs := rfl
@[simp] theorem modDisc_pend : (modDisc s f).pend = s.pend := rfl
@[simp] theorem modDisc_mem : (modDisc s f).mem = s.mem := rfl
@[simp] theorem modDisc_poison : (modDisc s f).poison = s.poison := rfl
@[simp] theorem modDisc_lastReply : (modDisc s f).lastReply = s.lastReply := rfl
@[simp] theorem modDisc_rbt : (modDisc s f).rbt = s.rbt := rfl
@[simp] theorem modDisc_xing : (modDisc s f).xing = s.xing := rfl
@[simp] theorem modDisc_pace : (modDisc s f).pace = s.pace := rfl
@[simp] theorem modDisc_links : (modDisc s f).links = s.links := rfl
@[simp] theorem modDisc_counters : (modDisc s f).counters = s.counters := rfl
@[simp] theorem modDisc_wraps : (modDisc s f).wraps = s.wraps := rfl
@[simp] theorem modDisc_tbLatch : (modDisc s f).tbLatch = s.tbLatch := rfl
@[simp] theorem modDisc_pcLatch : (modDisc s f).pcLatch = s.pcLatch := rfl
@[simp] theorem modDisc_freeCtr : (modDisc s f).freeCtr = s.freeCtr := rfl
@[simp] theorem modDisc_arcade : (modDisc s f).arcade = s.arcade := rfl
@[simp] theorem modDisc_l1d : (modDisc s f).l1d = s.l1d := rfl
@[simp] theorem modDisc_l1i : (modDisc s f).l1i = s.l1i := rfl
@[simp] theorem modDisc_dramErr : (modDisc s f).dramErr = s.dramErr := rfl
@[simp] theorem modDisc_chkErr : (modDisc s f).chkErr = s.chkErr := rfl
@[simp] theorem modDisc_dram : (modDisc s f).dram = s.dram := rfl
@[simp] theorem modDisc_dramSelfReq : (modDisc s f).dramSelfReq = s.dramSelfReq := rfl
@[simp] theorem modDisc_tcmErr : (modDisc s f).tcmErr = s.tcmErr := rfl
@[simp] theorem modDisc_sramErr : (modDisc s f).sramErr = s.sramErr := rfl
@[simp] theorem modDisc_reports : (modDisc s f).reports = s.reports := rfl
@[simp] theorem modDisc_fifo : (modDisc s f).fifo = s.fifo := rfl
@[simp] theorem modDisc_ch : (modDisc s f).ch = s.ch := rfl
@[simp] theorem modDisc_hb : (modDisc s f).hb = s.hb := rfl
@[simp] theorem modDisc_packets : (modDisc s f).packets = s.packets := rfl
@[simp] theorem modDisc_packetCtr : (modDisc s f).packetCtr = s.packetCtr := rfl
@[simp] theorem modDisc_slices : (modDisc s f).slices = s.slices := rfl
@[simp] theorem modDisc_decWait : (modDisc s f).decWait = s.decWait := rfl
@[simp] theorem modDisc_decDiscard : (modDisc s f).decDiscard = s.decDiscard := rfl
@[simp] theorem modDisc_decDrop : (modDisc s f).decDrop = s.decDrop := rfl
@[simp] theorem modDisc_tiles : (modDisc s f).tiles = s.tiles := rfl
@[simp] theorem modDisc_tileCtr : (modDisc s f).tileCtr = s.tileCtr := rfl
@[simp] theorem modDisc_spans : (modDisc s f).spans = s.spans := rfl
@[simp] theorem modDisc_weakTiles : (modDisc s f).weakTiles = s.weakTiles := rfl
@[simp] theorem modDisc_shortHeads : (modDisc s f).shortHeads = s.shortHeads := rfl
@[simp] theorem modDisc_swpSubmits : (modDisc s f).swpSubmits = s.swpSubmits := rfl
@[simp] theorem modDisc_swpQueue : (modDisc s f).swpQueue = s.swpQueue := rfl
@[simp] theorem modDisc_swpCur : (modDisc s f).swpCur = s.swpCur := rfl
@[simp] theorem modDisc_swpStart : (modDisc s f).swpStart = s.swpStart := rfl
@[simp] theorem modDisc_swpOpened : (modDisc s f).swpOpened = s.swpOpened := rfl
@[simp] theorem modDisc_swpCtr : (modDisc s f).swpCtr = s.swpCtr := rfl
@[simp] theorem modDisc_swpStop : (modDisc s f).swpStop = s.swpStop := rfl
@[simp] theorem modDisc_swpAborted : (modDisc s f).swpAborted = s.swpAborted := rfl
@[simp] theorem modDisc_winFlags : (modDisc s f).winFlags = s.winFlags := rfl
@[simp] theorem modDisc_swpLate : (modDisc s f).swpLate = s.swpLate := rfl
@[simp] theorem modDisc_swpTail : (modDisc s f).swpTail = s.swpTail := rfl
@[simp] theorem modDisc_wc : (modDisc s f).wc = s.wc := rfl
@[simp] theorem modDisc_se : (modDisc s f).se = s.se := rfl
@[simp] theorem modDisc_sled : (modDisc s f).sled = s.sled := rfl
@[simp] theorem modDisc_spn : (modDisc s f).spn = s.spn := rfl
@[simp] theorem modDisc_cal : (modDisc s f).cal = s.cal := rfl
@[simp] theorem modDisc_retrained : (modDisc s f).retrained = s.retrained := rfl
@[simp] theorem modDisc_host : (modDisc s f).host = s.host := rfl
@[simp] theorem modDisc_disc : (modDisc s f).disc = f s.disc := rfl
@[simp] theorem modDisc_arv : (modDisc s f).arv = s.arv := rfl
@[simp] theorem modDisc_ddrForce : (modDisc s f).ddrForce = s.ddrForce := rfl
@[simp] theorem modDisc_clk : (modDisc s f).clk = s.clk := rfl
@[simp] theorem modDisc_sup : (modDisc s f).sup = s.sup := rfl
@[simp] theorem modDisc_sq : (modDisc s f).sq = s.sq := rfl
@[simp] theorem modDisc_boot : (modDisc s f).boot = s.boot := rfl
@[simp] theorem modDisc_pins : (modDisc s f).pins = s.pins := rfl
@[simp] theorem modDisc_core : (modDisc s f).core = s.core := rfl
@[simp] theorem modDisc_pending : (modDisc s f).pending = s.pending := rfl
@[simp] theorem modDisc_rd (b : Nat) : rd (modDisc s f) b = rd s b := rfl
@[simp] theorem modDisc_fget (g : Fld) : fget (modDisc s f) g = fget s g := rfl
@[simp] theorem modDisc_fbit (g : Fld) : fbit (modDisc s f) g = fbit s g := rfl

end

/-! ### modArv -/

section
variable (s : State) (f : Archive → Archive)

@[simp] theorem modArv_variant : (modArv s f).variant = s.variant := rfl
@[simp] theorem modArv_keyFused : (modArv s f).keyFused = s.keyFused := rfl
@[simp] theorem modArv_chipTime : (modArv s f).chipTime = s.chipTime := rfl
@[simp] theorem modArv_regs : (modArv s f).regs = s.regs := rfl
@[simp] theorem modArv_pend : (modArv s f).pend = s.pend := rfl
@[simp] theorem modArv_mem : (modArv s f).mem = s.mem := rfl
@[simp] theorem modArv_poison : (modArv s f).poison = s.poison := rfl
@[simp] theorem modArv_lastReply : (modArv s f).lastReply = s.lastReply := rfl
@[simp] theorem modArv_rbt : (modArv s f).rbt = s.rbt := rfl
@[simp] theorem modArv_xing : (modArv s f).xing = s.xing := rfl
@[simp] theorem modArv_pace : (modArv s f).pace = s.pace := rfl
@[simp] theorem modArv_links : (modArv s f).links = s.links := rfl
@[simp] theorem modArv_counters : (modArv s f).counters = s.counters := rfl
@[simp] theorem modArv_wraps : (modArv s f).wraps = s.wraps := rfl
@[simp] theorem modArv_tbLatch : (modArv s f).tbLatch = s.tbLatch := rfl
@[simp] theorem modArv_pcLatch : (modArv s f).pcLatch = s.pcLatch := rfl
@[simp] theorem modArv_freeCtr : (modArv s f).freeCtr = s.freeCtr := rfl
@[simp] theorem modArv_arcade : (modArv s f).arcade = s.arcade := rfl
@[simp] theorem modArv_l1d : (modArv s f).l1d = s.l1d := rfl
@[simp] theorem modArv_l1i : (modArv s f).l1i = s.l1i := rfl
@[simp] theorem modArv_dramErr : (modArv s f).dramErr = s.dramErr := rfl
@[simp] theorem modArv_chkErr : (modArv s f).chkErr = s.chkErr := rfl
@[simp] theorem modArv_dram : (modArv s f).dram = s.dram := rfl
@[simp] theorem modArv_dramSelfReq : (modArv s f).dramSelfReq = s.dramSelfReq := rfl
@[simp] theorem modArv_tcmErr : (modArv s f).tcmErr = s.tcmErr := rfl
@[simp] theorem modArv_sramErr : (modArv s f).sramErr = s.sramErr := rfl
@[simp] theorem modArv_reports : (modArv s f).reports = s.reports := rfl
@[simp] theorem modArv_fifo : (modArv s f).fifo = s.fifo := rfl
@[simp] theorem modArv_ch : (modArv s f).ch = s.ch := rfl
@[simp] theorem modArv_hb : (modArv s f).hb = s.hb := rfl
@[simp] theorem modArv_packets : (modArv s f).packets = s.packets := rfl
@[simp] theorem modArv_packetCtr : (modArv s f).packetCtr = s.packetCtr := rfl
@[simp] theorem modArv_slices : (modArv s f).slices = s.slices := rfl
@[simp] theorem modArv_decWait : (modArv s f).decWait = s.decWait := rfl
@[simp] theorem modArv_decDiscard : (modArv s f).decDiscard = s.decDiscard := rfl
@[simp] theorem modArv_decDrop : (modArv s f).decDrop = s.decDrop := rfl
@[simp] theorem modArv_tiles : (modArv s f).tiles = s.tiles := rfl
@[simp] theorem modArv_tileCtr : (modArv s f).tileCtr = s.tileCtr := rfl
@[simp] theorem modArv_spans : (modArv s f).spans = s.spans := rfl
@[simp] theorem modArv_weakTiles : (modArv s f).weakTiles = s.weakTiles := rfl
@[simp] theorem modArv_shortHeads : (modArv s f).shortHeads = s.shortHeads := rfl
@[simp] theorem modArv_swpSubmits : (modArv s f).swpSubmits = s.swpSubmits := rfl
@[simp] theorem modArv_swpQueue : (modArv s f).swpQueue = s.swpQueue := rfl
@[simp] theorem modArv_swpCur : (modArv s f).swpCur = s.swpCur := rfl
@[simp] theorem modArv_swpStart : (modArv s f).swpStart = s.swpStart := rfl
@[simp] theorem modArv_swpOpened : (modArv s f).swpOpened = s.swpOpened := rfl
@[simp] theorem modArv_swpCtr : (modArv s f).swpCtr = s.swpCtr := rfl
@[simp] theorem modArv_swpStop : (modArv s f).swpStop = s.swpStop := rfl
@[simp] theorem modArv_swpAborted : (modArv s f).swpAborted = s.swpAborted := rfl
@[simp] theorem modArv_winFlags : (modArv s f).winFlags = s.winFlags := rfl
@[simp] theorem modArv_swpLate : (modArv s f).swpLate = s.swpLate := rfl
@[simp] theorem modArv_swpTail : (modArv s f).swpTail = s.swpTail := rfl
@[simp] theorem modArv_wc : (modArv s f).wc = s.wc := rfl
@[simp] theorem modArv_se : (modArv s f).se = s.se := rfl
@[simp] theorem modArv_sled : (modArv s f).sled = s.sled := rfl
@[simp] theorem modArv_spn : (modArv s f).spn = s.spn := rfl
@[simp] theorem modArv_cal : (modArv s f).cal = s.cal := rfl
@[simp] theorem modArv_retrained : (modArv s f).retrained = s.retrained := rfl
@[simp] theorem modArv_host : (modArv s f).host = s.host := rfl
@[simp] theorem modArv_disc : (modArv s f).disc = s.disc := rfl
@[simp] theorem modArv_arv : (modArv s f).arv = f s.arv := rfl
@[simp] theorem modArv_ddrForce : (modArv s f).ddrForce = s.ddrForce := rfl
@[simp] theorem modArv_clk : (modArv s f).clk = s.clk := rfl
@[simp] theorem modArv_sup : (modArv s f).sup = s.sup := rfl
@[simp] theorem modArv_sq : (modArv s f).sq = s.sq := rfl
@[simp] theorem modArv_boot : (modArv s f).boot = s.boot := rfl
@[simp] theorem modArv_pins : (modArv s f).pins = s.pins := rfl
@[simp] theorem modArv_core : (modArv s f).core = s.core := rfl
@[simp] theorem modArv_pending : (modArv s f).pending = s.pending := rfl
@[simp] theorem modArv_rd (b : Nat) : rd (modArv s f) b = rd s b := rfl
@[simp] theorem modArv_fget (g : Fld) : fget (modArv s f) g = fget s g := rfl
@[simp] theorem modArv_fbit (g : Fld) : fbit (modArv s f) g = fbit s g := rfl

end

/-! ### modHost -/

section
variable (s : State) (f : HostBlk → HostBlk)

@[simp] theorem modHost_variant : (modHost s f).variant = s.variant := rfl
@[simp] theorem modHost_keyFused : (modHost s f).keyFused = s.keyFused := rfl
@[simp] theorem modHost_chipTime : (modHost s f).chipTime = s.chipTime := rfl
@[simp] theorem modHost_regs : (modHost s f).regs = s.regs := rfl
@[simp] theorem modHost_pend : (modHost s f).pend = s.pend := rfl
@[simp] theorem modHost_mem : (modHost s f).mem = s.mem := rfl
@[simp] theorem modHost_poison : (modHost s f).poison = s.poison := rfl
@[simp] theorem modHost_lastReply : (modHost s f).lastReply = s.lastReply := rfl
@[simp] theorem modHost_rbt : (modHost s f).rbt = s.rbt := rfl
@[simp] theorem modHost_xing : (modHost s f).xing = s.xing := rfl
@[simp] theorem modHost_pace : (modHost s f).pace = s.pace := rfl
@[simp] theorem modHost_links : (modHost s f).links = s.links := rfl
@[simp] theorem modHost_counters : (modHost s f).counters = s.counters := rfl
@[simp] theorem modHost_wraps : (modHost s f).wraps = s.wraps := rfl
@[simp] theorem modHost_tbLatch : (modHost s f).tbLatch = s.tbLatch := rfl
@[simp] theorem modHost_pcLatch : (modHost s f).pcLatch = s.pcLatch := rfl
@[simp] theorem modHost_freeCtr : (modHost s f).freeCtr = s.freeCtr := rfl
@[simp] theorem modHost_arcade : (modHost s f).arcade = s.arcade := rfl
@[simp] theorem modHost_l1d : (modHost s f).l1d = s.l1d := rfl
@[simp] theorem modHost_l1i : (modHost s f).l1i = s.l1i := rfl
@[simp] theorem modHost_dramErr : (modHost s f).dramErr = s.dramErr := rfl
@[simp] theorem modHost_chkErr : (modHost s f).chkErr = s.chkErr := rfl
@[simp] theorem modHost_dram : (modHost s f).dram = s.dram := rfl
@[simp] theorem modHost_dramSelfReq : (modHost s f).dramSelfReq = s.dramSelfReq := rfl
@[simp] theorem modHost_tcmErr : (modHost s f).tcmErr = s.tcmErr := rfl
@[simp] theorem modHost_sramErr : (modHost s f).sramErr = s.sramErr := rfl
@[simp] theorem modHost_reports : (modHost s f).reports = s.reports := rfl
@[simp] theorem modHost_fifo : (modHost s f).fifo = s.fifo := rfl
@[simp] theorem modHost_ch : (modHost s f).ch = s.ch := rfl
@[simp] theorem modHost_hb : (modHost s f).hb = s.hb := rfl
@[simp] theorem modHost_packets : (modHost s f).packets = s.packets := rfl
@[simp] theorem modHost_packetCtr : (modHost s f).packetCtr = s.packetCtr := rfl
@[simp] theorem modHost_slices : (modHost s f).slices = s.slices := rfl
@[simp] theorem modHost_decWait : (modHost s f).decWait = s.decWait := rfl
@[simp] theorem modHost_decDiscard : (modHost s f).decDiscard = s.decDiscard := rfl
@[simp] theorem modHost_decDrop : (modHost s f).decDrop = s.decDrop := rfl
@[simp] theorem modHost_tiles : (modHost s f).tiles = s.tiles := rfl
@[simp] theorem modHost_tileCtr : (modHost s f).tileCtr = s.tileCtr := rfl
@[simp] theorem modHost_spans : (modHost s f).spans = s.spans := rfl
@[simp] theorem modHost_weakTiles : (modHost s f).weakTiles = s.weakTiles := rfl
@[simp] theorem modHost_shortHeads : (modHost s f).shortHeads = s.shortHeads := rfl
@[simp] theorem modHost_swpSubmits : (modHost s f).swpSubmits = s.swpSubmits := rfl
@[simp] theorem modHost_swpQueue : (modHost s f).swpQueue = s.swpQueue := rfl
@[simp] theorem modHost_swpCur : (modHost s f).swpCur = s.swpCur := rfl
@[simp] theorem modHost_swpStart : (modHost s f).swpStart = s.swpStart := rfl
@[simp] theorem modHost_swpOpened : (modHost s f).swpOpened = s.swpOpened := rfl
@[simp] theorem modHost_swpCtr : (modHost s f).swpCtr = s.swpCtr := rfl
@[simp] theorem modHost_swpStop : (modHost s f).swpStop = s.swpStop := rfl
@[simp] theorem modHost_swpAborted : (modHost s f).swpAborted = s.swpAborted := rfl
@[simp] theorem modHost_winFlags : (modHost s f).winFlags = s.winFlags := rfl
@[simp] theorem modHost_swpLate : (modHost s f).swpLate = s.swpLate := rfl
@[simp] theorem modHost_swpTail : (modHost s f).swpTail = s.swpTail := rfl
@[simp] theorem modHost_wc : (modHost s f).wc = s.wc := rfl
@[simp] theorem modHost_se : (modHost s f).se = s.se := rfl
@[simp] theorem modHost_sled : (modHost s f).sled = s.sled := rfl
@[simp] theorem modHost_spn : (modHost s f).spn = s.spn := rfl
@[simp] theorem modHost_cal : (modHost s f).cal = s.cal := rfl
@[simp] theorem modHost_retrained : (modHost s f).retrained = s.retrained := rfl
@[simp] theorem modHost_host : (modHost s f).host = f s.host := rfl
@[simp] theorem modHost_disc : (modHost s f).disc = s.disc := rfl
@[simp] theorem modHost_arv : (modHost s f).arv = s.arv := rfl
@[simp] theorem modHost_ddrForce : (modHost s f).ddrForce = s.ddrForce := rfl
@[simp] theorem modHost_clk : (modHost s f).clk = s.clk := rfl
@[simp] theorem modHost_sup : (modHost s f).sup = s.sup := rfl
@[simp] theorem modHost_sq : (modHost s f).sq = s.sq := rfl
@[simp] theorem modHost_boot : (modHost s f).boot = s.boot := rfl
@[simp] theorem modHost_pins : (modHost s f).pins = s.pins := rfl
@[simp] theorem modHost_core : (modHost s f).core = s.core := rfl
@[simp] theorem modHost_pending : (modHost s f).pending = s.pending := rfl
@[simp] theorem modHost_rd (b : Nat) : rd (modHost s f) b = rd s b := rfl
@[simp] theorem modHost_fget (g : Fld) : fget (modHost s f) g = fget s g := rfl
@[simp] theorem modHost_fbit (g : Fld) : fbit (modHost s f) g = fbit s g := rfl

end

/-! ### modBoot -/

section
variable (s : State) (f : Boot → Boot)

@[simp] theorem modBoot_variant : (modBoot s f).variant = s.variant := rfl
@[simp] theorem modBoot_keyFused : (modBoot s f).keyFused = s.keyFused := rfl
@[simp] theorem modBoot_chipTime : (modBoot s f).chipTime = s.chipTime := rfl
@[simp] theorem modBoot_regs : (modBoot s f).regs = s.regs := rfl
@[simp] theorem modBoot_pend : (modBoot s f).pend = s.pend := rfl
@[simp] theorem modBoot_mem : (modBoot s f).mem = s.mem := rfl
@[simp] theorem modBoot_poison : (modBoot s f).poison = s.poison := rfl
@[simp] theorem modBoot_lastReply : (modBoot s f).lastReply = s.lastReply := rfl
@[simp] theorem modBoot_rbt : (modBoot s f).rbt = s.rbt := rfl
@[simp] theorem modBoot_xing : (modBoot s f).xing = s.xing := rfl
@[simp] theorem modBoot_pace : (modBoot s f).pace = s.pace := rfl
@[simp] theorem modBoot_links : (modBoot s f).links = s.links := rfl
@[simp] theorem modBoot_counters : (modBoot s f).counters = s.counters := rfl
@[simp] theorem modBoot_wraps : (modBoot s f).wraps = s.wraps := rfl
@[simp] theorem modBoot_tbLatch : (modBoot s f).tbLatch = s.tbLatch := rfl
@[simp] theorem modBoot_pcLatch : (modBoot s f).pcLatch = s.pcLatch := rfl
@[simp] theorem modBoot_freeCtr : (modBoot s f).freeCtr = s.freeCtr := rfl
@[simp] theorem modBoot_arcade : (modBoot s f).arcade = s.arcade := rfl
@[simp] theorem modBoot_l1d : (modBoot s f).l1d = s.l1d := rfl
@[simp] theorem modBoot_l1i : (modBoot s f).l1i = s.l1i := rfl
@[simp] theorem modBoot_dramErr : (modBoot s f).dramErr = s.dramErr := rfl
@[simp] theorem modBoot_chkErr : (modBoot s f).chkErr = s.chkErr := rfl
@[simp] theorem modBoot_dram : (modBoot s f).dram = s.dram := rfl
@[simp] theorem modBoot_dramSelfReq : (modBoot s f).dramSelfReq = s.dramSelfReq := rfl
@[simp] theorem modBoot_tcmErr : (modBoot s f).tcmErr = s.tcmErr := rfl
@[simp] theorem modBoot_sramErr : (modBoot s f).sramErr = s.sramErr := rfl
@[simp] theorem modBoot_reports : (modBoot s f).reports = s.reports := rfl
@[simp] theorem modBoot_fifo : (modBoot s f).fifo = s.fifo := rfl
@[simp] theorem modBoot_ch : (modBoot s f).ch = s.ch := rfl
@[simp] theorem modBoot_hb : (modBoot s f).hb = s.hb := rfl
@[simp] theorem modBoot_packets : (modBoot s f).packets = s.packets := rfl
@[simp] theorem modBoot_packetCtr : (modBoot s f).packetCtr = s.packetCtr := rfl
@[simp] theorem modBoot_slices : (modBoot s f).slices = s.slices := rfl
@[simp] theorem modBoot_decWait : (modBoot s f).decWait = s.decWait := rfl
@[simp] theorem modBoot_decDiscard : (modBoot s f).decDiscard = s.decDiscard := rfl
@[simp] theorem modBoot_decDrop : (modBoot s f).decDrop = s.decDrop := rfl
@[simp] theorem modBoot_tiles : (modBoot s f).tiles = s.tiles := rfl
@[simp] theorem modBoot_tileCtr : (modBoot s f).tileCtr = s.tileCtr := rfl
@[simp] theorem modBoot_spans : (modBoot s f).spans = s.spans := rfl
@[simp] theorem modBoot_weakTiles : (modBoot s f).weakTiles = s.weakTiles := rfl
@[simp] theorem modBoot_shortHeads : (modBoot s f).shortHeads = s.shortHeads := rfl
@[simp] theorem modBoot_swpSubmits : (modBoot s f).swpSubmits = s.swpSubmits := rfl
@[simp] theorem modBoot_swpQueue : (modBoot s f).swpQueue = s.swpQueue := rfl
@[simp] theorem modBoot_swpCur : (modBoot s f).swpCur = s.swpCur := rfl
@[simp] theorem modBoot_swpStart : (modBoot s f).swpStart = s.swpStart := rfl
@[simp] theorem modBoot_swpOpened : (modBoot s f).swpOpened = s.swpOpened := rfl
@[simp] theorem modBoot_swpCtr : (modBoot s f).swpCtr = s.swpCtr := rfl
@[simp] theorem modBoot_swpStop : (modBoot s f).swpStop = s.swpStop := rfl
@[simp] theorem modBoot_swpAborted : (modBoot s f).swpAborted = s.swpAborted := rfl
@[simp] theorem modBoot_winFlags : (modBoot s f).winFlags = s.winFlags := rfl
@[simp] theorem modBoot_swpLate : (modBoot s f).swpLate = s.swpLate := rfl
@[simp] theorem modBoot_swpTail : (modBoot s f).swpTail = s.swpTail := rfl
@[simp] theorem modBoot_wc : (modBoot s f).wc = s.wc := rfl
@[simp] theorem modBoot_se : (modBoot s f).se = s.se := rfl
@[simp] theorem modBoot_sled : (modBoot s f).sled = s.sled := rfl
@[simp] theorem modBoot_spn : (modBoot s f).spn = s.spn := rfl
@[simp] theorem modBoot_cal : (modBoot s f).cal = s.cal := rfl
@[simp] theorem modBoot_retrained : (modBoot s f).retrained = s.retrained := rfl
@[simp] theorem modBoot_host : (modBoot s f).host = s.host := rfl
@[simp] theorem modBoot_disc : (modBoot s f).disc = s.disc := rfl
@[simp] theorem modBoot_arv : (modBoot s f).arv = s.arv := rfl
@[simp] theorem modBoot_ddrForce : (modBoot s f).ddrForce = s.ddrForce := rfl
@[simp] theorem modBoot_clk : (modBoot s f).clk = s.clk := rfl
@[simp] theorem modBoot_sup : (modBoot s f).sup = s.sup := rfl
@[simp] theorem modBoot_sq : (modBoot s f).sq = s.sq := rfl
@[simp] theorem modBoot_boot : (modBoot s f).boot = f s.boot := rfl
@[simp] theorem modBoot_pins : (modBoot s f).pins = s.pins := rfl
@[simp] theorem modBoot_core : (modBoot s f).core = s.core := rfl
@[simp] theorem modBoot_pending : (modBoot s f).pending = s.pending := rfl
@[simp] theorem modBoot_rd (b : Nat) : rd (modBoot s f) b = rd s b := rfl
@[simp] theorem modBoot_fget (g : Fld) : fget (modBoot s f) g = fget s g := rfl
@[simp] theorem modBoot_fbit (g : Fld) : fbit (modBoot s f) g = fbit s g := rfl

end

end Machine
end Sys2Proof
end

