-- ==== Sys2Proof/Laws/Registers.lean ====
section
/-! SUPPORT. The register file: what a read gives after a write, for whole registers and for fields. -/

namespace Sys2Proof
namespace Machine

/-! ### Keyed lists -/

theorem aget_aset_same {α : Type} (l : List (Nat × α)) (k : Nat) (v : α) : aget? (aset l k v) k = some v := by
  induction l with
  | nil => simp [aset, aget?]
  | cons p t ih =>
    obtain ⟨k', v'⟩ := p
    unfold aset
    split
    · simp [aget?]
    · split
      · simp [aget?]
      · rename_i h1 h2
        simp only [aget?]
        rw [if_neg (by omega)]
        exact ih

theorem aget_aset_other {α : Type} (l : List (Nat × α)) {k j : Nat} (v : α) (h : j ≠ k) : aget? (aset l k v) j = aget? l j := by
  induction l with
  | nil => simp [aset, aget?, Ne.symm h]
  | cons p t ih =>
    obtain ⟨k', v'⟩ := p
    unfold aset
    split
    · simp [aget?, Ne.symm h]
    · split
      · rename_i h1 h2
        subst h2
        simp [aget?, Ne.symm h]
      · simp only [aget?, ih]

/-! ### Whole registers -/

theorem rd_wr_same (s : State) (a : Nat) (v : Word) : rd (wr s a v) a = v := by
  simp [rd, wr, aget_aset_same]

theorem rd_wr_other (s : State) {a b : Nat} (v : Word) (h : b ≠ a) : rd (wr s a v) b = rd s b := by
  simp [rd, wr, aget_aset_other _ _ h]

theorem rd_fput_other (s : State) {f : Fld} {b : Nat} (x : Nat) (h : b ≠ f.addr) : rd (fput s f x) b = rd s b :=
  rd_wr_other s _ h

/-! ### Fields -/

theorem bitsOf_lt (v hi lo : Nat) : bitsOf v hi lo < 2 ^ (hi + 1 - lo) := Nat.mod_lt _ (Nat.two_pow_pos _)

/-- A number is its bits above a field, the field and the bits below. -/
theorem split_bits (v hi lo : Nat) (h : lo ≤ hi + 1) :
    v = v / 2 ^ (hi + 1) * 2 ^ (hi + 1) + bitsOf v hi lo * 2 ^ lo + v % 2 ^ lo := by
  unfold bitsOf
  have e : (2 : Nat) ^ (hi + 1) = 2 ^ lo * 2 ^ (hi + 1 - lo) := by rw [← Nat.pow_add]; congr 1; omega
  have h1 := Nat.div_add_mod v (2 ^ lo)
  have h2 := Nat.div_add_mod (v / 2 ^ lo) (2 ^ (hi + 1 - lo))
  rw [Nat.div_div_eq_div_mul, ← e] at h2
  rw [← h2] at h1
  rw [Nat.mul_add, ← Nat.mul_assoc, ← e] at h1
  rw [Nat.mul_comm (v / 2 ^ (hi + 1)), Nat.mul_comm (v / 2 ^ lo % 2 ^ (hi + 1 - lo))]
  exact h1.symm

/-- Replacing a field keeps what is above and below it. -/
theorem putBits_eq (v hi lo x : Nat) (h : lo ≤ hi + 1) :
    putBits v hi lo x = v / 2 ^ (hi + 1) * 2 ^ (hi + 1) + x % 2 ^ (hi + 1 - lo) * 2 ^ lo + v % 2 ^ lo := by
  have e := split_bits v hi lo h
  unfold putBits
  omega

theorem bitsOf_putBits_same (v hi lo x : Nat) (h : lo ≤ hi + 1) : bitsOf (putBits v hi lo x) hi lo = x % 2 ^ (hi + 1 - lo) := by
  rw [putBits_eq v hi lo x h]
  unfold bitsOf
  have e : (2 : Nat) ^ (hi + 1) = 2 ^ (hi + 1 - lo) * 2 ^ lo := by rw [← Nat.pow_add]; congr 1; omega
  rw [e, ← Nat.mul_assoc, ← Nat.add_mul, Nat.mul_comm _ (2 ^ lo), Nat.mul_add_div (Nat.two_pow_pos _),
    Nat.div_eq_of_lt (Nat.mod_lt _ (Nat.two_pow_pos _)), Nat.add_zero, Nat.add_comm, Nat.add_mul_mod_self_right,
    Nat.mod_mod]

theorem testBit_bitsOf (v hi lo i : Nat) : (bitsOf v hi lo).testBit i = (decide (i < hi + 1 - lo) && v.testBit (lo + i)) := by
  unfold bitsOf
  rw [Nat.testBit_mod_two_pow, Nat.testBit_div_two_pow, Nat.add_comm i lo]

theorem testBit_putBits (v hi lo x i : Nat) (h : lo ≤ hi + 1) :
    (putBits v hi lo x).testBit i = if i < lo then v.testBit i else if i < hi + 1 then x.testBit (i - lo) else v.testBit i := by
  rw [putBits_eq v hi lo x h]
  have e : (2 : Nat) ^ (hi + 1) = 2 ^ (hi + 1 - lo) * 2 ^ lo := by rw [← Nat.pow_add]; congr 1; omega
  rw [e, ← Nat.mul_assoc, ← Nat.add_mul, Nat.mul_comm _ (2 ^ lo), Nat.testBit_two_pow_mul_add _ (Nat.mod_lt _ (Nat.two_pow_pos _))]
  by_cases h1 : i < lo
  · rw [if_pos h1, if_pos h1, Nat.testBit_mod_two_pow]
    simp [h1]
  · rw [if_neg h1, if_neg h1, Nat.mul_comm, Nat.testBit_two_pow_mul_add _ (Nat.mod_lt _ (Nat.two_pow_pos _))]
    by_cases h2 : i < hi + 1
    · rw [if_pos (by omega), if_pos h2, Nat.testBit_mod_two_pow]
      simp only [Bool.and_eq_right_iff_imp, decide_eq_true_eq]
      omega
    · rw [if_neg (by omega), if_neg h2, ← e, Nat.testBit_div_two_pow]
      congr 1
      omega

theorem putBits_lt (v hi lo x : Nat) (hv : v < 2 ^ 32) (hh : hi < 32) (h : lo ≤ hi + 1) : putBits v hi lo x < 2 ^ 32 := by
  apply Nat.lt_pow_two_of_testBit
  intro j hj
  rw [testBit_putBits _ _ _ _ _ h, if_neg (by omega), if_neg (by omega)]
  exact Nat.testBit_lt_two_pow (Nat.lt_of_lt_of_le hv (Nat.pow_le_pow_right (by omega) hj))

/-- A field has its place within 32 bits. -/
def Fld.ok (f : Fld) : Bool := decide (f.lo ≤ f.hi) && decide (f.hi < 32)

/-- Two fields share no bit. -/
def Fld.apart (f g : Fld) : Bool := f.addr != g.addr || decide (f.hi < g.lo) || decide (g.hi < f.lo)

theorem rd_fput_toNat (s : State) (f : Fld) (x : Nat) (h : f.ok = true) :
    (rd (fput s f x) f.addr).toNat = putBits (rd s f.addr).toNat f.hi f.lo x := by
  simp only [Fld.ok, Bool.and_eq_true, decide_eq_true_eq] at h
  unfold fput
  rw [rd_wr_same, BitVec.toNat_ofNat, Nat.mod_eq_of_lt]
  exact putBits_lt _ _ _ _ (rd s f.addr).isLt h.2 (by omega)

/-- A field reads as what was put into it, cut to its width. -/
theorem fget_fput_same (s : State) (f : Fld) (x : Nat) (h : f.ok = true) :
    fget (fput s f x) f = x % 2 ^ (f.hi + 1 - f.lo) := by
  have h' := h
  simp only [Fld.ok, Bool.and_eq_true, decide_eq_true_eq] at h'
  unfold fget
  rw [rd_fput_toNat s f x h, bitsOf_putBits_same _ _ _ _ (by omega)]

/-- A field that shares no bit with the one written is unchanged. -/
theorem fget_fput_apart (s : State) (f g : Fld) (x : Nat) (h : f.ok = true) (ha : f.apart g = true) :
    fget (fput s f x) g = fget s g := by
  by_cases e : g.addr = f.addr
  · have h' := h
    simp only [Fld.ok, Bool.and_eq_true, decide_eq_true_eq] at h'
    simp only [Fld.apart, e, bne_self_eq_false, Bool.false_or, Bool.or_eq_true, decide_eq_true_eq] at ha
    unfold fget
    rw [e, rd_fput_toNat s f x h]
    apply Nat.eq_of_testBit_eq
    intro i
    rw [testBit_bitsOf, testBit_bitsOf, testBit_putBits _ _ _ _ _ (by omega)]
    by_cases hi : i < g.hi + 1 - g.lo
    · congr 1
      by_cases h1 : g.lo + i < f.lo
      · rw [if_pos h1]
      · rw [if_neg h1, if_neg (by omega)]
    · simp [hi]
  · unfold fget
    rw [rd_fput_other s x e]

theorem fget_wr_other (s : State) (a : Nat) (v : Word) (g : Fld) (h : g.addr ≠ a) : fget (wr s a v) g = fget s g := by
  unfold fget
  rw [rd_wr_other s v h]

/-- Two fields of one register that share no bit are apart, and so are fields of two registers. -/
theorem apart_of_bits {f g : Fld} (h : (decide (f.hi < g.lo) || decide (g.hi < f.lo)) = true) : f.apart g = true := by
  simp only [Fld.apart, Bool.or_assoc, h, Bool.or_true]

theorem apart_of_addr {f g : Fld} (h : f.addr ≠ g.addr) : f.apart g = true := by
  simp [Fld.apart, h]

theorem fget_lt (s : State) (f : Fld) : fget s f < 2 ^ (f.hi + 1 - f.lo) := bitsOf_lt _ _ _

/-! ### Frames -/

theorem regsBut_same (s : State) (l : List Nat) : regsBut s s l := fun _ _ => rfl

theorem regsBut_fput {s t : State} {l : List Nat} {f : Fld} (x : Nat) (h : regsBut s t l) (hf : f.addr ∈ l) :
    regsBut s (fput t f x) l := by
  intro b hb
  have e : b ≠ f.addr := by
    intro e
    rw [e] at hb
    exact hb hf
  rw [rd_fput_other t x e]
  exact h b hb

theorem regsBut_wr {s t : State} {l : List Nat} {a : Nat} (v : Word) (h : regsBut s t l) (ha : a ∈ l) :
    regsBut s (wr t a v) l := by
  intro b hb
  have e : b ≠ a := by
    intro e
    rw [e] at hb
    exact hb ha
  rw [rd_wr_other t v e]
  exact h b hb

theorem changesOnly_same (s : State) (l : List Part) : changesOnly l s s := by
  intro p _
  cases p <;> rfl

theorem changesOnly_trans {s t u : State} {l : List Part} (h : changesOnly l s t) (k : changesOnly l t u) : changesOnly l s u := by
  intro p hp
  have h1 := h p hp
  have h2 := k p hp
  cases p <;> exact h2.trans h1

theorem changesOnly_mono {s t : State} {l m : List Part} (h : changesOnly l s t) (k : ∀ p, p ∈ l → p ∈ m) : changesOnly m s t :=
  fun p hp => h p (fun hl => hp (k p hl))

theorem changesOnly_wr {s t : State} {l : List Part} (h : changesOnly l s t) (hr : .regs ∈ l) (a : Nat) (v : Word) :
    changesOnly l s (wr t a v) := by
  intro p hp
  cases p
  case regs => exact absurd hr hp
  all_goals exact h _ hp

theorem changesOnly_fput {s t : State} {l : List Part} (h : changesOnly l s t) (hr : .regs ∈ l) (f : Fld) (x : Nat) :
    changesOnly l s (fput t f x) := changesOnly_wr h hr _ _

theorem changesOnly_reply {s t : State} {l : List Part} (h : changesOnly l s t) (hr : .lastReply ∈ l) (st : BusStatus) (v : Nat)
    (bs : List Byte) : changesOnly l s (reply t st v bs) := by
  intro p hp
  cases p
  case lastReply => exact absurd hr hp
  all_goals exact h _ hp

end Machine
end Sys2Proof
end

