-- ==== Sys2Proof/Laws/Ops.lean ====
section
/-! SUPPORT. What the shared operations of Machine/Ops.lean can do, said once: fault reports, event counters, doing a thing for
each of a list. -/

namespace Sys2Proof
namespace Machine

/-! ### Doing a thing for each of a list -/

/-- What each turn keeps, the whole keeps. -/
theorem forEach_keeps {α : Type} (P : State → Prop) {t : State} (h : P t) (xs : List α) (f : State → α → State)
    (hf : ∀ u x, P u → P (f u x)) : P (forEach xs t f) := by
  unfold forEach
  induction xs generalizing t with
  | nil => exact h
  | cons a as ih => exact ih (hf _ _ h)

theorem forEach_only {α : Type} {s t : State} {l : List Part} (h : changesOnly l s t) (xs : List α) (f : State → α → State)
    (hf : ∀ u x, changesOnly l s u → changesOnly l s (f u x)) : changesOnly l s (forEach xs t f) :=
  forEach_keeps (changesOnly l s) h xs f hf

theorem sif_keeps (P : State → Prop) {t : State} (h : P t) (b : Bool) (f : State → State) (hf : P t → P (f t)) : P (sif b t f) := by
  unfold sif
  split
  · exact hf h
  · exact h

/-! ### Event counters -/

theorem changesOnly_count {s t : State} {l : List Part} (h : changesOnly l s t) (hc : .counters ∈ l) (hw : .wraps ∈ l) (k : Nat) :
    changesOnly l s (count t k) := by
  intro p hp
  cases p
  case counters => exact absurd hc hp
  case wraps => exact absurd hw hp
  all_goals exact h _ hp

theorem counter_count_same (s : State) (k : Nat) : counter (count s k) k = counter s k + 1 := by
  simp only [counter, count, aget_aset_same, Option.getD_some]

theorem counter_count_other (s : State) {j k : Nat} (h : j ≠ k) : counter (count s k) j = counter s j := by
  simp only [counter, count, aget_aset_other _ _ h]

@[simp] theorem count_fget (s : State) (k : Nat) (f : Fld) : fget (count s k) f = fget s f := rfl
@[simp] theorem count_rd (s : State) (k a : Nat) : rd (count s k) a = rd s a := rfl

/-! ### Fault reports -/

theorem cellNote_only (s : State) (cls d p c : Nat) : changesOnly [.regs] s (cellNote s cls d p c) := by
  unfold cellNote
  split
  · exact changesOnly_fput (changesOnly_same _ _) (by decide) _ _
  · exact changesOnly_same _ _

/-- A report touches the reports, and the error class of the cell it names. -/
theorem raiseReport_only (s : State) (cls lv d p c act det : Nat) :
    changesOnly [.regs, .reports] s (raiseReport s cls lv d p c act det) := by
  have h := changesOnly_mono (m := [.regs, .reports]) (cellNote_only s cls d p c) (by decide)
  unfold raiseReport
  dsimp only
  split
  all_goals
    intro q hq
    cases q
    case reports => exact absurd (by decide) hq
    all_goals exact h _ hq

theorem blockCells_le (b : Nat) : blockCells b ≤ 41 := by
  unfold blockCells
  repeat' split
  all_goals decide

/-- A report that names no cell leaves every register. -/
theorem raiseReport_rd_nocell (s : State) (cls lv d p c act det a : Nat) (hc : 41 ≤ c) :
    rd (raiseReport s cls lv d p c act det) a = rd s a := by
  have e : cellCode d p c = none := by
    unfold cellCode
    split
    · rename_i b _
      rw [if_neg (by have := blockCells_le b; omega)]
    · rfl
  unfold raiseReport cellNote
  rw [e]
  dsimp only
  split <;> rfl

theorem raiseReport_fget_nocell (s : State) (cls lv d p c act det : Nat) (f : Fld) (hc : 41 ≤ c) :
    fget (raiseReport s cls lv d p c act det) f = fget s f := by
  unfold fget
  rw [raiseReport_rd_nocell s cls lv d p c act det f.addr hc]

/-- After a report was raised one of its place and class is pending. -/
theorem raiseReport_has (s : State) (cls lv d p c act det : Nat) :
    ∃ q ∈ (raiseReport s cls lv d p c act det).reports,
      q.cls = cls ∧ q.level = lv ∧ q.district = d ∧ q.avPort = p ∧ q.cell = c := by
  unfold raiseReport
  dsimp only
  split
  · rename_i h
    rw [List.any_eq_true] at h
    obtain ⟨q, hq, e⟩ := h
    have e' := e
    simp only [Bool.and_eq_true, beq_iff_eq] at e'
    refine ⟨_, List.mem_map.mpr ⟨q, hq, rfl⟩, ?_⟩
    rw [if_pos e]
    exact ⟨e'.1.1.1.1, e'.1.1.1.2, e'.1.1.2, e'.1.2, e'.2⟩
  · exact ⟨_, List.mem_append_right _ (List.mem_singleton.mpr rfl), rfl, rfl, rfl, rfl, rfl⟩

end Machine
end Sys2Proof
end

