-- ==== Sys2Proof/Machine/Ports.lean ====
section
/-! DEFINITION. The 152 ports and the 38 x 38 balls of the package (R567, R569 to R571).  Rows and columns are numbered 1 to 38. -/

namespace Sys2Proof
namespace Machine

/-- What a ball carries: signal i of a port, in the order of R567, or a supply. -/
inductive Ball where
  | signal (port i : Nat)
  | vmot | vlas | vcore | v1p8 | vaon | vdd2h | vdd2l | vddq | vss
deriving DecidableEq, Repr

/-- The letters of the ball rows; I, O, Q, S, X and Z are not used (R569). -/
def rowLetters : List String :=
  ["A", "B", "C", "D", "E", "F", "G", "H", "J", "K", "L", "M", "N", "P", "R", "T", "U", "V", "W", "Y"] ++
    ["AA", "AB", "AC", "AD", "AE", "AF", "AG", "AH", "AJ", "AK", "AL", "AM", "AN", "AP", "AR", "AT", "AU", "AV"]

/-- The name of a ball (R569). -/
def ballName (r c : Nat) : String := rowLetters.getD (r - 1) "" ++ toString c

/-- How many signals port 13n + k of a head has (R567). -/
def headSignals (k : Nat) : Nat := ([2, 2, 2, 2, 8, 2, 1, 2, 2, 2, 4, 1, 2] : List Nat).getD k 0

/-- How many signals ports 104 to 135 have (R567). -/
def chipSignals (k : Nat) : Nat :=
  ([6, 2, 2, 3, 1, 1, 1, 1, 1, 1, 1, 6, 3, 3, 3, 3, 3, 2, 3, 1, 10, 10, 2, 2, 76, 76, 6, 29, 3, 5, 1, 1] : List Nat).getD k 0

/-- How many signals a port has (R567). -/
def portSignals (p : Nat) : Nat :=
  if p < 104 then headSignals (p % 13) else if p < 136 then chipSignals (p - 104) else if p < 152 then 1 else 0

/-- The signals of ports in order (R567). -/
def signalsOf (ports : List Nat) : List Ball :=
  ports.flatMap (fun p => (List.range (portSignals p)).map (fun i => Ball.signal p i))

/-- The ports from a first to a last. -/
def portRange (first last : Nat) : List Nat := (List.range (last + 1 - first)).map (fun k => first + k)

/-- The ball at a row and a column of a region that begins at r0 and c0 and is filled row by row, the rest VSS (R570). -/
def regionBall (l : List Ball) (r0 c0 width r c : Nat) : Ball := l.getD ((r - r0) * width + (c - c0)) .vss

/-- The region of a head: its ports, then two balls each of VMOT and VLAS (R570). -/
def headBall (n r0 r c : Nat) : Ball :=
  regionBall (signalsOf (portRange (13 * n) (13 * n + 12)) ++ [.vmot, .vmot, .vlas, .vlas]) r0 (9 * (n % 4) + 1) 9 r c

/-- An interior ball (R571). -/
def interiorBall (r c : Nat) : Ball :=
  if (r + c) % 2 = 0 then .vss
  else if c = 5 ∧ r ≤ 12 then .vaon
  else if c ≤ 7 then .v1p8
  else if c ≤ 25 then .vcore
  else if c ≤ 27 then .vdd2h
  else if c ≤ 29 then .vdd2l
  else .vddq

/-- The ball map (R570, R571). -/
def ballAt (r c : Nat) : Ball :=
  if r ≤ 4 ∨ 35 ≤ r then
    if 37 ≤ c then .vss
    else if r ≤ 4 then headBall ((c - 1) / 9) 1 r c
    else headBall (4 + (c - 1) / 9) 35 r c
  else if c ≤ 4 then regionBall (signalsOf (portRange 104 123 ++ portRange 130 151)) 5 1 4 r c
  else if c ≤ 32 then interiorBall r c
  else if r ≤ 17 then regionBall (signalsOf [128]) 5 33 6 r c
  else if r ≤ 30 then regionBall (signalsOf [129]) 18 33 6 r c
  else regionBall (signalsOf (portRange 124 127)) 31 33 6 r c

end Machine
end Sys2Proof
end

