-- ==== Sys2Proof/WellFormed.lean ====
section
/-! DEFINITION. Which commands are well formed: the sizes that the spec gives to what a command carries, where the type of an
operand does not say them.  A meaning is total: it also says what an ill-formed command does. -/

namespace Sys2Proof

/-- No number stands twice in a list. -/
def noRepeats : List Nat → Bool
  | [] => true
  | x :: t => !t.contains x && noRepeats t

/-- The bytes of a request lie in one 64-byte line (R372, R392). -/
def inLine (addr : BitVec 40) (store : Option (List (BitVec 8))) : Bool :=
  match store with
  | none => true
  | some bs => !bs.isEmpty && decide (addr.toNat % 64 + bs.length ≤ 64)

/-- Bytes that host memory gives, of a fixed number. -/
def bytesGiven (n : Nat) (bs : Option (List (BitVec 8))) : Bool :=
  match bs with
  | none => true
  | some l => l.length == n

/-- A command whose operands have the sizes of the spec: a value that fits its access (R10), a path with a Roundabout (R23), 16
samples of 7 bits from each of four spots (R99), each port latched once (R211), four conversions of 12 bits of each of eight signals
(R239), the inputs of a guard (R190), a request within a line (R372, R392), each word
of a row or channel named once (R410, R415), an entry of 64 bytes (R432), a key of 32 (R469, R470), a parameter block of 4 KiB
(R472), at most 4,096 bytes of flash (R560). -/
def Instr.wf (i : Instr) : Bool :=
  match i with
  | .registerWrite _ _ w v => decide (v.toNat < 2 ^ (8 * w.bytes))
  | .fabricTransfer _ _ hops _ => !hops.isEmpty
  | .rfSampleGroup _ b0 b1 b2 b3 err => err.length == 4 &&
    [b0, b1, b2, b3].all (fun l => l.length == 16 && l.all (fun x => decide (-64 ≤ x) && decide (x < 64)))
  | .runStart _ x => noRepeats (x.ports.map (fun p => p.1.val)) &&
    x.det.all (fun g => g.codes.length == 8 && g.codes.all (fun l => l.length == 4 && l.all (fun x => decide (x < 4096))))
  | .guardTrip _ x => x.level.length == (match x.src with | .shk _ => 1 | _ => 4)
  | .guardReturn _ x => x.level.length == (match x.src with | .shk _ => 1 | _ => 4)
  | .arcadeRequest _ addr store _ => inLine addr store
  | .dramRequest _ isWrite addr data => if isWrite then inLine addr (some data) else data.isEmpty
  | .scrubRow _ flips stuck => noRepeats (flips.map (fun p => p.1.val)) && noRepeats (stuck.map (fun p => p.1.val))
  | .dramInitDone failed => noRepeats (failed.map (fun c => c.val))
  | .commandFetch entry _ => bytesGiven 64 entry
  | .openSession _ key => bytesGiven 32 key
  | .setAdminKey _ key => bytesGiven 32 key
  | .format _ block => bytesGiven 4096 block
  | .recoveryProgram _ _ data => decide (data.length ≤ 4096)
  | .paceRateRead .. | .roundaboutGrant .. | .rbtConfigWrite .. | .roundaboutStall .. | .crossingRequest ..
  | .crossingResetAssert .. | .clockGoodFall .. | .clockGoodRise .. | .crossingAbortDelivered ..
  | .crossingResetRelease .. | .crossingSideReady .. | .paceWindowClose .. | .permitClaim .. | .permitRelease ..
  | .rcEnableWrite .. | .wedgePass .. | .fineEstimate .. | .sync1WindowOpen .. | .sync1Match ..
  | .sync1WindowEnd .. | .sync2WindowOpen .. | .sync2WindowEnd .. | .packetComplete .. | .sliceAssign ..
  | .sliceBufferFreed .. | .decodeStart .. | .sectorDecodeDone .. | .tileResultsComplete .. | .tileDecodeDone ..
  | .tilePoisonRestart .. | .spanDecodeStart .. | .spanDecodeDone .. | .spanPoison .. | .encoderPacket ..
  | .writeSlotStart .. | .writeUnderrun .. | .writeSlotEnd .. | .verifyResult ..
  | .guardLatchRelease .. | .wcInhibitWrite .. | .wcEnableWrite .. | .tableFetchDone .. | .readPowerSample ..
  | .writePowerSample .. | .seTick .. | .deadlineMiss .. | .seCacheRefetch .. | .msvNop .. | .msvMovi ..
  | .msvLui .. | .msvMov .. | .msvLdc .. | .msvLds .. | .msvSts .. | .msvIn .. | .msvOut .. | .msvAdd ..
  | .msvAdds .. | .msvSub .. | .msvSubs .. | .msvAddi .. | .msvMul .. | .msvDiv .. | .msvAbs .. | .msvMin ..
  | .msvMax .. | .msvSha .. | .msvAnd .. | .msvOr .. | .msvXor .. | .msvAndi .. | .msvShr .. | .msvMula ..
  | .msvMac .. | .msvMsu .. | .msvLda .. | .msvRnd .. | .msvBiq .. | .msvLim .. | .msvIntg .. | .msvFfv ..
  | .msvFfa .. | .msvInj .. | .msvCap .. | .msvLut .. | .msvScs .. | .msvBr .. | .msvJmp .. | .msvRep ..
  | .msvEvt .. | .msvEnd .. | .seLoad .. | .seLoadDone .. | .seWindowWrite .. | .seStateWrite .. | .seStart ..
  | .seStop .. | .seApplyNow .. | .capEnableWrite .. | .spindleStart .. | .spindleStop .. | .pwmPeriodStart ..
  | .pwmMidpoint .. | .overcurrentTrip .. | .senseTimeEnd .. | .bemfMeasure .. | .brakeDwellEnd ..
  | .brakeTimeout .. | .detectPulseEnd .. | .alignDone .. | .handoverAgreement .. | .handoverTimeout ..
  | .catchTimeout .. | .regenPause .. | .sledUpdate .. | .sldTargetWrite .. | .revDwellEnd .. | .runCurrentEnd ..
  | .homeSwitchEdge .. | .switchDebounced .. | .sledHome .. | .sledPark .. | .sledUnpark .. | .sledAbort ..
  | .sldDrvEnWrite .. | .sweepSubmit .. | .programLoad .. | .programLoadDone .. | .sweepStart .. | .sweepStop ..
  | .sweepAbort .. | .sweepBoundaryCmd .. | .windowOpen .. | .windowClose .. | .portionStart .. | .headStep ..
  | .layer .. | .seek .. | .waitPos .. | .waitWedge .. | .waitWedgeReached .. | .readTile .. | .verifyTile ..
  | .auditTile .. | .writeTile .. | .obliterate .. | .calSlot .. | .mark .. | .nopStep .. | .endStep ..
  | .allSlotsEnded .. | .drainComplete .. | .boundaryApply .. | .headOnlineSet .. | .fifoPop ..
  | .fifoConfigWrite .. | .fifoRecordPush .. | .ringWriteError .. | .add .. | .sub .. | .and .. | .or .. | .xor ..
  | .sll .. | .srl .. | .sra .. | .slt .. | .sltu .. | .mul .. | .mulh .. | .mulhu .. | .div .. | .divu ..
  | .rem .. | .remu .. | .addw .. | .clz .. | .addi .. | .andi .. | .ori .. | .xori .. | .slli .. | .srli ..
  | .srai .. | .slti .. | .sltiu .. | .addiw .. | .lui .. | .auipc .. | .lb .. | .lbu .. | .lh .. | .lhu ..
  | .lw .. | .lwu .. | .ld .. | .sb .. | .sh .. | .sw .. | .sd .. | .beq .. | .bne .. | .blt .. | .bge ..
  | .bltu .. | .bgeu .. | .jal .. | .jalr .. | .ldaq .. | .strl .. | .lr .. | .sc .. | .amoadd .. | .amoswap ..
  | .amoand .. | .amoor .. | .cas .. | .fence .. | .ecall .. | .ebreak .. | .sret .. | .csrr .. | .csrw ..
  | .csrs .. | .csrc .. | .postDoorbell .. | .postUsb2Attach .. | .postFlash .. | .postKerbWord ..
  | .postSmbusAlert .. | .postTimerPwm .. | .postAccepted .. | .take .. | .wait .. | .waitWake .. | .rdtime ..
  | .interruptEntry .. | .reservationExpire .. | .timecmpReached .. | .coreResetCmd .. | .coreRun .. | .l1iInvA ..
  | .l1iInvAll .. | .l1dInvA .. | .l1dInvAll .. | .arcCleanA .. | .arcInvA .. | .arcFlushA .. | .arcCleanSw ..
  | .arcFlushSw .. | .arcFetchA .. | .l1Fill .. | .arcadeFill .. | .arcDisable .. | .arcDrainDone ..
  | .arcEnable .. | .arcPartWrite .. | .l1Disable .. | .dramIssue .. | .dramReadReturn .. | .perBankRefresh ..
  | .mr4Poll .. | .actTableClear .. | .remapArm .. | .remapDisarm .. | .dramMapWrite .. | .dramInit ..
  | .oscCheck .. | .dramRetrain .. | .retrainStart .. | .retrainDone .. | .sramScrub .. | .linkUp .. | .pathLoss ..
  | .functionReset .. | .ocfgEnableWrite .. | .sqTailDoorbell .. | .cqHeadDoorbell .. | .hostCpl ..
  | .msixCoalesceExpire .. | .createQp .. | .deleteQp .. | .abort .. | .identify .. | .getLogEvents ..
  | .getLogPath .. | .eventWait .. | .eventLogged .. | .read .. | .write .. | .append .. | .writeAccept ..
  | .flush .. | .flushComplete .. | .zoneReport .. | .zoneOpen .. | .zoneClose .. | .zoneFinish ..
  | .extentQuery .. | .put .. | .get .. | .list .. | .audit .. | .keyMismatchDelay .. | .closeSession ..
  | .sanitise .. | .progress .. | .lockMedia .. | .sessionTimeout .. | .pendingAbandon .. | .auditWalk ..
  | .auditRecordConsume .. | .auditResult .. | .weakTileNotice .. | .weakRefresh .. | .journalEntryWrite ..
  | .discMount .. | .discRemoval .. | .railWindowExit .. | .busUndervoltage .. | .supplyGraceExpire ..
  | .vaonRise .. | .railGood .. | .railEnableTimeout .. | .sequencerRetry .. | .vin12Loss .. | .railFall ..
  | .govEnableWrite .. | .chopEngage .. | .chopRelease .. | .chopFault .. | .busLatch .. | .chopClr ..
  | .latchClr .. | .mbusEnableWrite .. | .boostEnableWrite .. | .boostSoftStartDone .. | .vlasUndervoltage ..
  | .boostFault .. | .boostClr .. | .dormantEnter .. | .wakeEvent .. | .supAlarmReached .. | .wakeRdyRelease ..
  | .sourceFail .. | .sourceGood .. | .clkRelock .. | .loopLock .. | .lockLost .. | .refSwitch ..
  | .muxSwitchDone .. | .muxHung .. | .clkRescue .. | .rescueDone .. | .clkoutSelect .. | .clkoutDivChange ..
  | .portEnableWrite .. | .timeReadLatch .. | .counterReadLatch .. | .calrefCheck .. | .calTempTrigger ..
  | .calRequest .. | .calAutoRun .. | .calRunDone .. | .calIdleApply .. | .calRecordRead .. | .calRecordWrite ..
  | .faultReport .. | .heartbeatLoss .. | .fmIsolate .. | .fmReinstate .. | .lockstepMismatch .. | .safeExt ..
  | .sqKick .. | .watchdogEnable .. | .wdExpire .. | .safeReq .. | .warmReset .. | .coreReset .. | .porRequest ..
  | .resetPin .. | .boot .. | .recoveryStatus .. | .recoveryErase .. | .recoveryRead .. | .recoveryReboot ..
  | .mgmtStatus .. | .mgmtUnsupportedRequest .. | .spiTransferDone .. | .spiBusyTimeout .. | .gpioFuncWrite ..
  | .gpioOeSet .. | .gpioOeClr .. | .gpioOutSet .. | .gpioOutClr .. | .tmrCfgWrite .. | .gpioEdgeEvent ..
  | .timerPeriodStart .. | .kerbStatusRead .. | .kerbInboundWrite .. | .kerbCommandWrite .. | .kerbIntClear ..
  | .kerbWakeWord .. | .kerbAckAccess .. | .kerbProtocolError .. | .kerbResponderSwitch .. | .kerbCopyRefresh ..
  | .smbusReadWord .. | .smbusBlockRead .. | .smbusNack .. | .smbusAlertResponse .. | .jtagTapReset .. | .idcode ..
  | .samplePreload .. | .extest .. | .clamp .. | .highz .. | .bypass .. | .debugAccess .. | .railWindowReturn ..
  | .vin12Good .. | .pageIdleExpire .. | .kerbStrobeRise .. | .illegalInstr .. => true

end Sys2Proof
end

