-- ==== Sys2Proof/Tests/Slice0.lean ====
section
/-! SUPPORT. Tests of the model: small states, the well-formedness smoke, a few worked words of the spec, and for every
statement with hypotheses a state that meets them. -/

section

set_option maxRecDepth 200000
set_option Elab.async false
set_option linter.unusedVariables false

section

open Sys2Proof Sys2Proof.Machine

namespace Sys2Proof.Tests
def wArm (s : State) (x : Fin 52) : State := modXing s x (fun q => { q with st := .armed })
def wXing (st : XState) (a b : Bool) : State :=
  modXing State.reset 5 (fun q => { q with st := st, clkGood := true, rstClk := a, rstSelf := b, freshClk := a, freshSelf := b, pendClk := [3], pendSelf := [4] })
def wReqU : RbtRequest := ⟨2, 1, .strategyFetch⟩
def wReqO : RbtRequest := ⟨3, 0, .ordinary⟩
def wRbt : State := modRbt (fset State.reset (fldRBT_CFG_URG_EN 6)) 6 (fun q => { q with isOpen := true, waiting := [wReqO, wReqU] })
def wRbt2 : State := modRbt State.reset 6 (fun q => { q with isOpen := true, waiting := [wReqO], turn := 3 })
def wRbt3 : State := modRbt State.reset 6 (fun q => { q with isOpen := true, waiting := [wReqO], turn := 2, used := 1 })
def wCh (c : Chan) (st : SyncState) : State :=
  modXing (modCh (fset State.reset (fldRC_CTL_ENABLE c)) c (fun q => { q with sync := st })) (Fin.ofNat 52 (c.val / 4)) (fun q => { q with st := .armed })
def wRf : State :=
  modXing (forEach [0, 1, 2, 3] State.reset (fun t c => fset (fset t (fldRC_CTL_ENABLE c)) (fldRC_CTL_WEDGE_EN c))) 0 (fun q => { q with st := .armed })
def wMark (mark : BitVec 32) : List SoftVal := (List.range 32).map (fun k => ⟨if mark.getMsbD k then 7 else -7, false, false, false⟩)
def wSync (ofs : Int) (st : SyncState) : State :=
  let k := (ofs + syncWin State.reset 0).toNat
  modCh (wCh 0 st) 0 (fun q => { q with buf := List.replicate k ⟨0, false, false, false⟩ ++ wMark sync1 ++ List.replicate 8 ⟨0, false, false, false⟩, scanned := k, candDist := 3 })
def wSync2 : State :=
  fput (modCh (wCh 0 .search2) 0 (fun q => { q with primary := .direct, soft := List.replicate 17008 ⟨1, false, false, false⟩ ++ wMark sync2 })) (fldSYNC_CFG_WIN 0) 0
def wTrain (l : List Bool) : List Int := List.replicate 86 0 ++ (l.zip [5, 5, 6, 5]).flatMap (fun p => List.replicate p.2 (if p.1 then 40 else 0)) ++ List.replicate 300 0
def wSam : WedgeObs := ⟨12345, wTrain [true, true, false, true], 0⟩
def wIdx : WedgeObs := ⟨12345, wTrain [true, false, true, true], 0⟩
def wAddr : SlotAddr := ⟨0x1000, 5, 100, 2, 3⟩
def wPacket : Packet := ⟨7, 0, wAddr, true, [], [], 0, 0⟩
def wPk : State := { State.reset with packets := [wPacket] }
def wPk2 : State := { State.reset with packets := [wPacket], slices := State.reset.slices.set 0 [⟨7, .loading, none⟩] }
def wTileK (bad : List Nat) : Tile :=
  ⟨3, 0, 0x1000, .read, 0x8000000000, 0, 9, none,
    (List.range 36).map (fun i => (i, ⟨if bad.contains i then 3 else 0, 2, i == 5, 200, if i < 32 then 7 else 1, 4, 0, false, 0, 0, true⟩)),
    .filling, [], false, false, false, 0, 0, 0, 0⟩
def wTile1 : Tile := wTileK [4]
def wTile5 : Tile := wTileK [4, 6, 8, 10, 12]
def wTileD : Tile := { wTileK [3] with phase := .decoding, erased := [3], checked := true }
def wTileT : Tile :=
  ⟨3, 0, 0x1000, .read, 0x1000000, 0, 9, none, [], .decoding, [], false, false, true, 0, 0, 0, 0⟩
def wTcm : State := { State.reset with tiles := [wTileT] }
def wSlot (ph : WPhase) : WSlot :=
  ⟨2, 0x1000, 5, 100, 2, 3, 7, 0, 0x1000000, false, [], false, ph, 0, 0, 0, 0, 0, none⟩
def wWc (l : List WSlot) : State := modWc State.reset 0 (fun w => { w with slots := l })
def wCrc : List Byte := natLe 4 (crc32 (List.replicate 252 0))
def wTable : State :=
  { modWc State.reset 0 (fun w => { w with fetch := some 0x1000000 }) with mem := Memory.writeBytes [] 0x10000FC wCrc }
def wRun : MsvRun :=
  ⟨1, 100, none, 0, #v[5, 0x7FFFFFF0, 0x80000000, 0x12345678, 4, 3, 2, 1, 0x55, 0, 0, 0, 0, 0, 0, 0], #v[100, 0xFFFFFFFFFFFFF0, -5, 7],
    [(13, 0x1234), (30, 77)], [], [(7, 99)], 1, 1, none, false, none, false, false⟩
def wMsv (w : Nat) : State :=
  modSe (fput State.reset (fldSE_STAT_STATE 0) 1) 0 (fun e =>
    { e with prog := e.prog.set 0 [BitVec.ofNat 32 w], run := some wRun, coef := e.coef.set 0 [1, 2, 3, 4, 5, 6, 7, 8, 9, 10, 11, 12, 13, 14, 15, 16, 17, 18, 19, 20, 21] })
def wMsvG (w : Nat) : State := fset (modSe (wMsv w) 0 (fun e => { e with gens := e.gens.set 0 ⟨0, 0, 1, 0, 44⟩ })) (fldSE_GEN0_CFG_EN 0)
def wRunE : MsvRun := { wRun with evt := some (0x155, 9), outs := [(2, 5)] }
def wMsvE (w : Nat) : State := modSe (wMsv w) 0 (fun e => { e with run := some wRunE })
def wSe : State := fput (fput State.reset (fldSE_STAT_STATE 0) 1) (fldSE_TICK_CFG_SRC1 0) 3
def wSe2 : State := modSe wSe 0 (fun e => { e with pend := e.pend.set 1 (some (55, none)) })
def wSeImg : State := fput (fput State.reset (fldSE_IMG_BASE_LO_BASE 0) 0x200) (fldSE_IMG_BASE_HI_BASE 0) 0
def wSpn (st : Nat) : State := fput (fput State.reset (fldSE_STAT_STATE 8) 1) fldSPN_STAT_STATE st
def wSld (st : Nat) (f : Sled → Sled) : State := modSled (fput State.reset (fldSLD_STAT_STATE 1) st) 1 (fun d => f { d with p := 3 * 2 ^ 16, powered := true })
def wProf : Profile := ⟨2500, 2500, 5000, 25000, 100, 100, 100, 100⟩
def wRef : SweepRef := ⟨4, 0x77⟩
def wStep (op : Nat) (w0 w1 : Nat) : SwpStep := ⟨BitVec.ofNat 32 (op * 2 ^ 28 + w0), BitVec.ofNat 32 w1, 0, 0x55⟩
def wPort (mode : Nat) (st : SwpStep) : Portion := ⟨wRef, mode, [(3, st), (4, wStep 0 0 0)], false, 0⟩
def wProg (st : SwpStep) : SwpProgram := ⟨wRef, 10, [wStep 1 1 0, st, wStep 0 0 0]⟩
def wSwp (code mode : Nat) (st : SwpStep) : State :=
  modHb { fput State.reset fldSWP_STAT_STATE code with swpCur := some (wProg st), winFlags := (true, true, [1]) } 1 (fun h => { h with portion := some (wPort mode st), begun := 5, goodRun := 2 })
def wProgMem : State :=
  { fset (fset State.reset fldSWP_STAT_LOADING) fldSWP_LOAD_STAT_BUSY with
    swpSubmits := [0x1000000, 0x2000000]
    mem := (Memory.writeBytes [] 0x1000000 (natLe 4 0x53570003 ++ natLe 4 0x99 ++ natLe 4 5 ++ natLe 4 0 ++
      natLe 4 0x10000000 ++ natLe 4 0 ++ natLe 4 0 ++ natLe 4 7 ++ natLe 4 0xD0000000 ++ natLe 4 0 ++ natLe 4 0 ++ natLe 4 8 ++ natLe 4 0 ++ natLe 4 0 ++ natLe 4 0 ++ natLe 4 9)) }
def wProgSteps : List SwpStep := [⟨0x10000000, 0, 0, 7⟩, ⟨0xD0000000, 0, 0, 8⟩, ⟨0, 0, 0, 9⟩]
def wSwpR (code mode : Nat) (st : SwpStep) : State :=
  forEach [4, 5, 6, 7] (wSwp code mode st) (fun t c => fset (fset t (fldRC_CTL_ENABLE c)) (fldRC_CTL_DATA_EN c))
def wFifo (k : Nat) : State := fput (fput (fput (fput (fput State.reset (fldFIFO_STAT_COUNT 9) k) (fldFIFO_CFG_SIZE_LOG2 9) 4) (fldFIFO_CFG_CONSUMER 9) 4) (fldFIFO_BASE_LO_BASE 9) 0x80000) (fldFIFO_BASE_HI_BASE 9) 0
def wDx (w : Nat) : State :=
  modCore { fputAt State.reset fldPLZ_STAT_RUNNING 1 true with
      sup := { State.reset.sup with seq := .done, dormant := false }
      boot := { State.reset.boot with pinLow := false }
      mem := Memory.writeBytes [] 0x1000000 (natLe 4 w ++ [0, 0, 0, 0, 0xF1, 2, 3, 4, 5, 6, 7, 0x88]) } 1 (fun c =>
    { c with pc := 0x1000000, x := (((c.x.set 1 0x1000008).set 2 0xFFFFFFFFFFFFFFF5).set 3 0x123456789ABCDEF3).set 4 0x1003, status := 0xE, resv := some (0x1000000, 5) })
def wArcL (d : Bool) : ArcLine := ⟨arcTag 0x8000000040, d, List.replicate 64 7, false, 0⟩
def wArc (d : Bool) (s : State) : State := { fput (fput s fldARC_STAT_STATE 1) fldDRAM_STAT_STATE 2 with arcade := { State.reset.arcade with lines := [(arcKey 1 0 3, wArcL d)] } }
def wArcE (s : State) : State := fput (fput s fldARC_STAT_STATE 1) fldDRAM_STAT_STATE 2
def wMiss : MissReg := ⟨0x8000000040, true, 0, [⟨0, 0x8000000040, none, 0⟩]⟩
def wMissF : MissReg := { wMiss with alloc := false }
def wArcF : State := { wArcE State.reset with arcade := { State.reset.arcade with miss := State.reset.arcade.miss.set 1 [wMissF] } }
def wArcM (s : State) : State := { wArcE s with arcade := { State.reset.arcade with miss := State.reset.arcade.miss.set 1 [wMiss] } }
def wDram : State := { fput State.reset fldDRAM_STAT_STATE 2 with xing := ((State.reset.xing.set 38 { State.reset.xing[38] with st := .armed }).set 39 { State.reset.xing[39] with st := .armed }).set 40 { State.reset.xing[40] with st := .armed } }
def wDq (st : Option (List Byte)) : DramReq := ⟨0x8000000048, st, false, true, 0⟩
def wQp (n : Nat) : Qpair := ⟨0, n, 0x10000, 0x20000, 9, 9, 2, 3, 100, 0, 4, 2, 3, 1, true, false, [], none, none⟩
def wCtx (op : Nat) (rest : List Byte) : HostCtx := ⟨6, 0, 3, 0, [BitVec.ofNat 8 op, 0, 0x34, 0x12] ++ rest ++ List.replicate (60 - rest.length) 0, [(0x5000, 4096)], 5, false, false, none, 0, none, 0, 0⟩
def wHost (c : HostCtx) : State := { State.reset with host := { State.reset.host with ctxs := [c], qps := [wQp 3], msixTab := [(11, 0)] } }
def wZone : Zone := ⟨1, 40, 0xFF, []⟩
def wDisc (s : State) : State := { s with disc := { Disc.none with searched := true, present := true, mounted := true, layers := 1, family := 1, format := some ⟨1, false, 0, 0⟩, free := (100, 100), zones := [(0, wZone)] } }
def wIo (op : Nat) (rest : List Byte) : State := wDisc (wHost (wCtx op rest))
def wFetch (s : State) : State := fset (wr (fput s fldHOST_LINK0_STATE 2) (regOCFG 0) 1) fldHOST_CTL_FETCH_EN
def wEnt (lba count : List Byte) : List Byte := List.replicate 20 0 ++ lba ++ List.replicate (8 - lba.length) 0 ++ count ++ List.replicate (4 - count.length) 0
def wAccB (s : State) : State := modDisc s (fun d => { d with accepted := [⟨5, 0, List.replicate 4096 3⟩], index := [⟨0, 40, 0x3000, 0, 0, 0xFF, 0⟩] })
def wAccB2 (s : State) : State := modDisc s (fun d => { d with accepted := [⟨5, 0, List.replicate 4096 3⟩] })
def wAcc (s : State) : State := modDisc s (fun d => { d with accepted := [⟨5, 0, [1, 2, 3]⟩], index := [⟨0, 40, 0x3000, 0, 0, 0xFF, 0⟩] })
def wAdv : State :=
  let s0 := State.reset
  { s0 with
    tcmErr := (List.range 64).map (fun i => (0x1000000 + 8 * i, if i % 3 = 0 then 1 else if i % 3 = 1 then 3 else 0xFF))
    dramErr := (List.range 40).map (fun i => (0x8000000000 + 64 * i, if i % 2 = 0 then 1 else 0x7F))
    chkErr := (List.range 10).map (fun i => (0x8000000000 + 128 * i, 1))
    poison := (List.range 10).map (fun i => 0x1000000 + 64 * i)
    arcade := { s0.arcade with lines := [(arcKey 1 0 3, ⟨arcTag 0x8000000040, true, List.replicate 64 7, true, 3⟩), (arcKey 0 0 3, ⟨arcTag 0x8000000000, true, List.replicate 64 9, false, 0⟩)] }
    dram := s0.dram.map (fun ch => { ch with rows := [(0, 5)], checks := [(0, ⟨5, true, true, 3⟩), (1, ⟨0, true, false, 0⟩)] })
    sramErr := [(2 ^ 20 * 5 + 9, 3)]
    core := s0.core.mapIdx (fun i c => { c with resv := some (0x1000000 + 64 * i, 9) })
    freeCtr := 77 }
def wArvFmt (s : State) : State :=
  fset (modDisc (wDisc s) (fun d => { d with serial := 0x77, format := some ⟨1, false, 0, 2⟩ })) fldARV_CTL_EN
def wObj (st : Nat) : CatEntry := ⟨7, 3, 5, List.replicate 32 1, 100, 200, 4, st, 0, 0, 0⟩
def wOid (lba count : List Byte) (flags : Byte) : List Byte := wEnt lba count ++ [7] ++ List.replicate 15 0 ++ [0, 0, 0, 0, flags]
def wArv (st : Nat) (op : Nat) (rest : List Byte) : State :=
  modArv (wAcc (wArvFmt (wHost (wCtx op rest)))) (fun a => { a with cat := [wObj st] })
def wArvC (st : Nat) (op : Nat) (rest : List Byte) (len : Nat) : State :=
  modArv (wAcc (wArvFmt (wHost { wCtx op rest with segs := [(0x5000, len)] }))) (fun a => { a with cat := [wObj st] })
def wSess : Session := ⟨0x99, 0, 5, List.replicate 32 4⟩
def wAdm (op : Nat) (rest : List Byte) : State :=
  modArv (wHost { wCtx op rest with segs := [(0x5000, 32)] }) (fun a => { a with sessions := [wSess], verifier := some (List.replicate 32 0, List.replicate 32 9) })
def wFmt : State := modDisc (wAdm 0x33 [0x99]) (fun _ => { Disc.none with searched := true, present := true, mounted := true, layers := 1, family := 1, serial := 0x77, free := (100, 100) })
def wFmtC (op len : Nat) : State :=
  { wFmt with host := { wFmt.host with ctxs := [{ wCtx op [0x99] with segs := [(0x5000, len)] }] } }
def wJe : JnlEntry := ⟨4, 0x77, 2, 2, 1, 5, 9, 10, 100, []⟩
def wJrn (ph : Nat) : State :=
  modArv (fput (fput wFmt fldJNL_STAT_OP 2) fldJNL_STAT_PHASE ph) (fun a => { a with journal := [{ wJe with phase := ph }] })
def wFmtBody : List Byte := List.replicate 8 0 ++ [1, 0, 0] ++ List.replicate 101 0
def wFmtHead : List Byte := [0x4F, 0x52, 0x4D, 0x52, 0, 1, 0, 0] ++ List.replicate 7 0 ++ [5, 0, 0, 0, 112] ++ natBe 4 (crc32 wFmtBody) ++ List.replicate 36 0
def wFmtRec : MgmtCopy := ⟨0x6004000, wFmtHead ++ natBe 4 (crc32 wFmtHead) ++ wFmtBody⟩
def wSup (s : State) : State := { s with sup := { s.sup with seq := .done, vin12 := true, dormant := false }, boot := { s.boot with pinLow := false } }
def wSeq (q : SeqState) (v : Bool) : State := { State.reset with sup := { State.reset.sup with seq := q, vin12 := v }, boot := { State.reset.boot with pinLow := false } }
def wCalRec : List Word :=
  let b : List Word := [BitVec.ofNat 32 (keyWord 8 1 0 0 2 * 2 ^ 13 + 2 ^ 12), 5, 6, 7, 1, 2, 3, 4, 5, 6, 7, 8, 9, 10, 11]
  b ++ [BitVec.ofNat 32 (wordsCrc b)]
def wCalW : State :=
  forEach (List.range 16) (fput State.reset fldCAL_REC_SEL_INDEX (slotElec State.reset.variant 8 2)) (fun t i => wr t (regCAL_REC i) (wCalRec.getD i 0))
def wCalStep : State := modHb State.reset 0 (fun h => { h with openSteps := [⟨wRef, 3, { wStep 11 0 0 with w0 := 0xB0100000 }, 0⟩] })
def wAwake : State := { fput (wSup State.reset) fldPLZ_STAT_RUNNING 1 with mem := [(0x1000000, 5), (0x8000000000, 6)] }
def wDormOk : State := forEach (List.finRange 8) (fput wAwake fldDRAM_STAT_STATE 2) (fun t n => fput t (fldSLD_STAT_STATE n.val) 7)
def wDormant : State :=
  { fput State.reset fldDRAM_STAT_STATE 4 with sup := { State.reset.sup with seq := .done, vin12 := true, dormant := true, wakeEn := 0x1F, gpioMask := 0 }, boot := { State.reset.boot with pinLow := false } }
def wRom (f : Boot → Boot) : State := modBoot (wSup State.reset) (fun b => f { b with stage := .rom })
def wResume : State :=
  forEach (List.range 8) (fput (fput (fput (wr (wRom (fun b => { b with wake := true })) regRST_RESUME_HI 0) fldRST_RESUME_LEN_LEN 8) fldRST_RESUME_LEN_RESUME 4) (⟨regRST_RESUME_LO, 31, 0⟩) 0x1000000)
    (fun t i => wr t (regRST_RESUME_DIG i) (BitVec.ofNat 32 (([0xf57055af, 0x7a0b81a1, 0x4baf8cf7, 0xf660ac7, 0x421ef50d, 0x4d1df9ba, 0x8d32b2e5, 0xfc3de8e0] : List Nat).getD i 0)))
def wRec : State := modBoot (wSup State.reset) (fun b => { b with stage := .recovery, attached := [0], flash := [(0x1000, 0x0F), (0x2000, 1)] })
def wFw : State := modBoot (wSup State.reset) (fun b => { b with stage := .firmware, attached := [0] })
def wGpio : State := fput (fput State.reset (fldPERMIT_OWNER 5) 1) (fldPERMIT_FEATURE 5) 2
def wTmr : State := fput wGpio (fldPERMIT_OWNER 17) 1
def wKrb : State := modXing (wSup State.reset) 43 (fun q => { q with st := .armed })
def wEdge : State :=
  modXing (fset (fput (fput (fputAt (wSup State.reset) fldGPIO_EDGE_RISE 5 true) (fldGPIO_FUNC_FUNC 5) 2) (fldTMR_CFG_LINE 1) 5) (fldTMR_CFG_EN 1)) 50 (fun q => { q with st := .armed })
end Sys2Proof.Tests

end

section

open Sys2Proof Sys2Proof.Machine Sys2Proof.Tests

theorem wit_PermitClaims_free : ∃ (s : State) (n : PermitId), fget s (fldPERMIT_OWNER n) = 0 :=
   ⟨State.reset, 5, by decide +kernel⟩
 theorem wit_PermitClaims_held : ∃ (s : State) (n : PermitId), fget s (fldPERMIT_OWNER n) ≠ 0 :=
   ⟨wGpio, 5, by decide +kernel⟩
 theorem wit_PermitReleases_owner :
     ∃ (s : State) (agent : Agent) (n : PermitId), fget s (fldPERMIT_OWNER n) = agent.id :=
   ⟨wGpio, .core 0, 5, by decide +kernel⟩
 theorem wit_PermitReleases_other :
     ∃ (s : State) (agent : Agent) (n : PermitId), fget s (fldPERMIT_OWNER n) ≠ agent.id :=
   ⟨wGpio, .core 1, 5, by decide +kernel⟩

theorem wit_FabricTransfer_other : ∃ (src dst a b : Nat) (hops h : List Hop), ¬ (a = src ∧ b = dst ∧ h = hops) :=
   ⟨1, 2, 3, 4, [], [], by decide +kernel⟩

theorem wit_Roundabout_idle : ∃ (s : State) (r : RbtId), absentAt s.variant (rbtBase r) = false ∧
     s.rbt[r].waiting = [] ∧ s.rbt[r].inFlight = [] :=
   ⟨State.reset, 6, by decide +kernel⟩
 theorem wit_Roundabout_waiting : ∃ (s : State) (r : RbtId), absentAt s.variant (rbtBase r) = false ∧ s.rbt[r].waiting ≠ [] :=
   ⟨wRbt, 6, by decide +kernel⟩
 theorem wit_Roundabout_grant : ∃ (s : State) (r : RbtId), absentAt s.variant (rbtBase r) = false ∧
     s.rbt[r].waiting ≠ [] ∧ s.rbt[r].isOpen = false ∧ fget s (fldRBT_STAT_PENDING r) = 1 :=
   ⟨modRbt (fset wRbt (fldRBT_STAT_PENDING 6)) 6 (fun q => { q with isOpen := false }), 6, by decide +kernel⟩

theorem wit_Stall : ∃ (s : State) (r : RbtId) (port target : Fin 16),
     ∃ g ∈ s.rbt[r].inFlight, g.port = port ∧ g.target = target :=
   ⟨modRbt State.reset 6 (fun q => { q with inFlight := [⟨2, 1, 0⟩] }), 6, 2, 1, by decide +kernel⟩

theorem wit_RoundaboutGrantsInTurn_1 : ∃ (s : State) (r : RbtId) (g : RbtRequest), s.rbt[r].isOpen = true ∧ s.rbt[r].winUrgent < fget s (fldRBT_CFG_URG_CAP r) ∧ s.rbt[r].waiting.find? (rbtUrgent s r) = some g :=
  ⟨wRbt, 6, wReqU, by decide +kernel⟩

theorem wit_RoundaboutGrantsInTurn_2 : ∃ (s : State) (r : RbtId) (g : RbtRequest), s.rbt[r].isOpen = true ∧ s.rbt[r].waiting.find? (rbtUrgent s r) = none ∧ s.rbt[r].waiting.find? (fun w => w.port.val = s.rbt[r].turn) = some g ∧ s.rbt[r].used < rbtWeight s r s.rbt[r].turn :=
  ⟨wRbt2, 6, wReqO, by decide +kernel⟩

theorem wit_RoundaboutGrantsInTurn_3 : ∃ (s : State) (r : RbtId) (g : RbtRequest), s.rbt[r].isOpen = true ∧ s.rbt[r].waiting.find? (rbtUrgent s r) = none ∧ s.rbt[r].turn < 16 ∧ rbtWeight s r s.rbt[r].turn ≤ s.rbt[r].used ∧ s.rbt[r].waiting.find? (fun w => w.port.val = (s.rbt[r].turn + 1) % 16) = some g :=
  ⟨wRbt3, 6, wReqO, by decide +kernel⟩

theorem wit_CrossingTableAndEventBits_1 : ∃ (s : State) (x : XingId) (side : Side) (tag : Nat) (awaits : Bool), s.xing[x].st = .armed ∧ xingUp s.xing[x] side = true :=
  ⟨wXing .armed false false, 5, .clocked, 7, true, by decide +kernel⟩

theorem wit_CrossingTableAndEventBits_2 : ∃ (s : State) (x : XingId) (side : Side) (tag : Nat) (awaits : Bool), s.xing[x].st ≠ .armed ∧ xingUp s.xing[x] side = true :=
  ⟨wXing .waitReady false false, 5, .clocked, 7, true, by decide +kernel⟩

theorem wit_CrossingTableAndEventBits_3 : ∃ (s : State) (x : XingId) (side : Side) (tag : Nat) (awaits : Bool), xingReset s.xing[x] side = false ∧ xingFresh s.xing[x] side = true :=
  ⟨modXing (wXing .waitReady false false) 5 (fun q => { q with freshClk := true }), 5, .clocked, 7, true, by decide +kernel⟩

theorem wit_CrossingTableAndEventBits_4 : ∃ (s : State) (x : XingId) (side : Side) (tag : Nat) (awaits : Bool), xingReset s.xing[x] side = true :=
  ⟨wXing .withdrawn true false, 5, .clocked, 7, true, by decide +kernel⟩

theorem wit_CrossingTableAndEventBits_5 : ∃ (s : State) (x : XingId) (side : Side), xingPresent s.variant x = true ∧ s.xing[x].st ≠ .withdrawn :=
  ⟨wXing .armed false false, 5, .clocked, by decide +kernel⟩

theorem wit_CrossingTableAndEventBits_6 : ∃ (s : State) (x : XingId), xingPresent s.variant x = true ∧ s.xing[x].st ≠ .withdrawn :=
  ⟨wXing .armed false false, 5, by decide +kernel⟩

theorem wit_CrossingTableAndEventBits_7 : ∃ (s : State) (x : XingId), s.xing[x].st ≠ .waitReady :=
  ⟨State.reset, 3, by decide +kernel⟩

theorem wit_CrossingTableAndEventBits_8 : ∃ (s : State) (x : XingId), s.xing[x].st = .waitReady ∧ xingUp s.xing[x] .clocked = true ∧ xingUp s.xing[x] .selfTimed = true :=
  ⟨modXing (wXing .waitReady false false) 5 (fun q => { q with tokSelf := [4] }), 5, by decide +kernel⟩

theorem wit_CrossingTableAndEventBits_9 : ∃ (s : State) (x : XingId) (side : Side), xingPresent s.variant x = true ∧ s.xing[x].st = .withdrawn ∧ s.xing[x].clkGood = true ∧ s.xing[x].rstClk = (side == .clocked) ∧ s.xing[x].rstSelf = (side == .selfTimed) :=
  ⟨wXing .withdrawn true false, 5, .clocked, by decide +kernel⟩

theorem wit_CrossingTableAndEventBits_10 : ∃ (s : State) (x : XingId) (side : Side), s.xing[x].st = .withdrawn ∧ xingReset s.xing[x] (if side = .clocked then .selfTimed else .clocked) = true :=
  ⟨wXing .withdrawn true true, 5, .clocked, by decide +kernel⟩

theorem wit_CrossingTableAndEventBits_11 : ∃ (s : State) (x : XingId), xingPresent s.variant x = true ∧ s.xing[x].st = .withdrawn ∧ s.xing[x].rstClk = false ∧ s.xing[x].rstSelf = false :=
  ⟨modXing (wXing .withdrawn false false) 5 (fun q => { q with clkGood := false }), 5, by decide +kernel⟩

theorem wit_CrossingTableAndEventBits_12 : ∃ (s : State) (x : XingId), s.xing[x].st = .waitReady ∧ xingReset s.xing[x] .clocked = false ∧ xingReady s.xing[x] .selfTimed = true :=
  ⟨modXing (wXing .waitReady false false) 5 (fun q => { q with freshClk := true, heldClk := [(8, true)] }), 5, by decide +kernel⟩

theorem wit_CrossingTableAndEventBits_13 : ∃ (s : State) (x : XingId), s.xing[x].st = .waitReady ∧ s.xing[x].rstSelf = false ∧ s.xing[x].tokSelf = [] ∧ xingReady s.xing[x] .clocked = false :=
  ⟨modXing (wXing .waitReady false false) 5 (fun q => { q with freshClk := true, freshSelf := true }), 5, by decide +kernel⟩

theorem wit_CrossingTableAndEventBits_14 : ∃ (s : State) (x : XingId), s.xing[x].st = .waitReady ∧ s.xing[x].rstSelf = false ∧ s.xing[x].tokSelf = [] ∧ xingReady s.xing[x] .clocked = true :=
  ⟨modXing (wXing .waitReady false false) 5 (fun q => { q with freshSelf := true }), 5, by decide +kernel⟩

theorem wit_CrossingTableAndEventBits_15 : ∃ (s : State) (x : XingId) (side : Side), x.val < 16 ∧ xingPresent s.variant x = true ∧ s.xing[x].st = .armed :=
  ⟨wXing .armed false false, 5, .clocked, by decide +kernel⟩

theorem wit_CrossingTableAndEventBits_16 : ∃ (s : State) (x : XingId), (8 ≤ x.val ∧ x.val < 16) ∧ xingPresent s.variant x = true ∧ s.xing[x].st = .armed :=
  ⟨modXing State.reset 9 (fun q => { q with st := .armed, clkGood := true, rstClk := false, rstSelf := false }), 9, by decide +kernel⟩

theorem wit_CrossingTableAndEventBits_17 : ∃ (s : State) (x : XingId), (8 ≤ x.val ∧ x.val < 16) ∧ s.xing[x].st = .waitReady ∧ xingReset s.xing[x] .clocked = false ∧ xingReady s.xing[x] .selfTimed = true :=
  ⟨modXing State.reset 9 (fun q => { q with st := .waitReady, clkGood := true, rstClk := false, rstSelf := false, freshSelf := false }), 9, by decide +kernel⟩

theorem wit_RegisterWritesByAccessType_1 : ∃ (s : State) (k : Fin 4) (d : District) (v : Word), absentAt s.variant (regPACE_TARGET d) = false :=
  ⟨State.reset, 1, 2, 0x12345678, by decide +kernel⟩

theorem wit_RegisterWritesByAccessType_2 : ∃ (s : State) (k : Fin 4) (d : District) (v : Word), absentAt s.variant (regPACE_STAT d) = false :=
  ⟨State.reset, 1, 2, 0x12345678, by decide +kernel⟩

theorem wit_RegisterWritesByAccessType_3 : ∃ (s : State) (k : Fin 4) (c : Fin 1280) (v : Word), c.val % 64 < blockCells (c.val / 64) ∧ absentAt s.variant (regCELL_ERR c.val) = false :=
  ⟨State.reset, 1, 66, 7, by decide +kernel⟩

theorem wit_RegisterWritesByAccessType_4 : ∃ (s : State) (k : Fin 4) (a : BitVec 40) (w : Width) (v : Word), regionOf a.toNat = .device ∧ (w ≠ .b4 ∨ a.toNat % 4 ≠ 0) :=
  ⟨State.reset, 1, 0x43000002, .b4, 9, by decide +kernel⟩

theorem wit_RegisterWritesByAccessType_5 : ∃ (s : State) (k : Fin 4) (a : BitVec 40) (v : Word), regionOf a.toNat = .device ∧ a.toNat % 4 = 0 ∧ fencedAt s a.toNat = false ∧ absentAt s.variant a.toNat = true :=
  ⟨{ State.reset with variant := .oac7208R }, 1, 0x43005000, 9, by decide +kernel⟩

theorem wit_RegisterWritesByAccessType_6 : ∃ (s : State) (agent : Agent) (d : District), absentAt s.variant (paceBase d) = false :=
  ⟨State.reset, .core 0, 2, by decide +kernel⟩

theorem wit_PaceWindowJudgesEachDistrict_1 : ∃ (s : State) (rates : Vector (BitVec 16) 5) (vcore : BitVec 16) (d : District), inReset s = false ∧ districtPresent s.variant d = true ∧ s.pace[d].counting = true ∧ fget s fldSUP_CTL_GOV_EN = 0 :=
  ⟨{ fclr (wSup State.reset) fldSUP_CTL_GOV_EN with pace := Vector.replicate 5 ⟨true, 0⟩ }, #v[1,2,3,4,5], 700, 1, by decide +kernel⟩

theorem wit_ReadChannelFrontEnd_1 : ∃ (s : State) (agent : Agent) (c : Chan), absentAt s.variant (rcBase c) = false ∧ fget s (fldRC_CTL_ENABLE c) = 0 :=
  ⟨State.reset, .core 0, 1, by decide +kernel⟩

theorem wit_ReadChannelFrontEnd_2 : ∃ (s : State) (agent : Agent) (c : Chan), absentAt s.variant (rcBase c) = false ∧ fget s (fldRC_CTL_ENABLE c) = 1 ∧ s.ch[c].sync ≠ .idle ∧ s.ch[c].queue = [] ∧ s.ch[c].due = [] ∧ s.decDiscard = [] ∧ s.decDrop = [] :=
  ⟨wCh 0 .stream1, .core 0, 0, by decide +kernel⟩

theorem wit_ReadChannelFrontEnd_3 : ∃ (s : State) (n : Head) (sp : Fin 4) (b0 b1 b2 b3 err : List Int), xingPresent s.variant n = true ∧ s.xing[n.val].st = .armed ∧ chanOn s (headChan n sp) = true ∧ s.hb[n].rf = [] ∧ 12000 ≤ s.hb[n].credit + rfCredit s n ∧ (([b0, b1, b2, b3].getD sp.val []).any (fun x => x = -64 ∨ x = 63) = true) :=
  ⟨wRf, 0, 2, [], [], [1, 63, -5], [], [], by decide +kernel⟩

theorem wit_ReadChannelFrontEnd_4 : ∃ (s : State) (n : Head) (e : RfEntry) (rest : List RfEntry) (b0 b1 b2 b3 err : List Int), xingPresent s.variant n = true ∧ s.xing[n.val].st = .armed ∧ s.hb[n].rf = e :: rest ∧ e.lost = false ∧ rfDepth ≤ (s.hb[n].rf.filter (fun x => !x.lost)).length ∧ s.hb[n].credit + rfCredit s n < 12000 :=
  ⟨modHb (fput wRf (fldPACE_RATE_RATE 2) 100) 0 (fun b => { b with rf := List.replicate 4 ⟨[], [], false⟩ }), 0, ⟨[], [], false⟩, List.replicate 3 ⟨[], [], false⟩, [], [], [], [], [], by decide +kernel⟩

theorem wit_ReadChannelFrontEnd_5 : ∃ (s : State) (n : Head) (sp : Fin 4) (b0 b1 b2 b3 err : List Int), xingPresent s.variant n = true ∧ s.xing[n.val].st = .armed ∧ chanOn s (headChan n sp) = true ∧ s.hb[n].rf = [⟨[], [], true⟩] :=
  ⟨modHb wRf 0 (fun b => { b with rf := [⟨[], [], true⟩] }), 0, 2, [1], [2], [3], [4], [], by decide +kernel⟩

theorem wit_ReadChannelFrontEnd_6 : ∃ (s : State) (n : Head) (b0 b1 b2 b3 err : List Int), s.xing[n.val].st ≠ .armed :=
  ⟨State.reset, 0, [], [], [], [], [], by decide +kernel⟩

theorem wit_ReadChannelFrontEnd_7 : ∃ (s : State) (c : Chan) (w : WedgeObs), chanOn s c = true ∧ fbit s (fldRC_CTL_WEDGE_EN c) = true ∧ (samSearch s.ch[c] w).1 = .sam :=
  ⟨modCh wRf 1 (fun q => { q with indexSeen := true, samRun := 9 }), 1, wSam, by decide +kernel⟩

theorem wit_ReadChannelFrontEnd_8 : ∃ (s : State) (c : Chan) (w : WedgeObs), chanOn s c = true ∧ fbit s (fldRC_CTL_WEDGE_EN c) = true ∧ (samSearch s.ch[c] w).1 = .index :=
  ⟨wRf, 1, wIdx, by decide +kernel⟩

theorem wit_ReadChannelFrontEnd_9 : ∃ (s : State) (c : Chan) (w : WedgeObs), chanOn s c = true ∧ fbit s (fldRC_CTL_WEDGE_EN c) = true ∧ (samSearch s.ch[c] w).1 = .missed :=
  ⟨modCh wRf 1 (fun q => { q with missRun := 2 }), 1, ⟨12345, [], 0⟩, by decide +kernel⟩

theorem wit_ReadChannelFrontEnd_10 : ∃ (s : State) (c : Chan) (w : WedgeObs), wedgeOn s c = false :=
  ⟨State.reset, 1, ⟨12345, [], 0⟩, by decide +kernel⟩

theorem wit_ReadChannelFrontEnd_11 : ∃ (s : State) (side : Fin 2) (head spot : Fin 4), ((sideChan side head spot).val % 4 = 1 ∨ (sideChan side head spot).val % 4 = 2) ∧ chanOn s (sideChan side head spot) = true ∧ 0 < tapEnergy s.ch[sideChan side head spot].dsp.xtIn + tapEnergy s.ch[sideChan side head spot].dsp.xtOut :=
  ⟨modCh wRf 1 (fun q => { q with dsp := { q.dsp with xtOut := [3, 4] } }), 0, 0, 1, by decide +kernel⟩

theorem wit_SyncDetectorFindsTheSector_1 : ∃ (s : State) (c : Chan), s.ch[c].sync = .wait1 ∧ rfArmed s c = true ∧ s.hb[chanHead c].badStatus = false :=
  ⟨wCh 0 .wait1, 0, by decide +kernel⟩

theorem wit_SyncDetectorFindsTheSector_2 : ∃ (s : State) (c : Chan) (ofs : Int), s.ch[c].sync = .search1 ∧ (s.ch[c].scanned : Int) = ofs + syncWin s c ∧ ofs.natAbs ≤ syncWin s c ∧ s.ch[c].scanned + 32 ≤ s.ch[c].buf.length ∧ markDistance sync1 s.ch[c].buf s.ch[c].scanned ≤ fget s (fldSYNC_CFG_SYNC_TOL c) ∧ ofs.natAbs ≤ fget s (fldSYNC_CFG_CONF_WIN c) :=
  ⟨wSync 0 .search1, 0, 0, by decide +kernel⟩

theorem wit_SyncDetectorFindsTheSector_3 : ∃ (s : State) (c : Chan) (ofs : Int), s.ch[c].sync = .search1 ∧ (s.ch[c].scanned : Int) = ofs + syncWin s c ∧ ofs.natAbs ≤ syncWin s c ∧ s.ch[c].scanned + 32 ≤ s.ch[c].buf.length ∧ markDistance sync1 s.ch[c].buf s.ch[c].scanned ≤ fget s (fldSYNC_CFG_SYNC_TOL c) ∧ fget s (fldSYNC_CFG_CONF_WIN c) < ofs.natAbs :=
  ⟨wSync (-5) .search1, 0, -5, by decide +kernel⟩

theorem wit_SyncDetectorFindsTheSector_4 : ∃ (s : State) (c : Chan) (ofs : Int), s.ch[c].sync = .cand ∧ (s.ch[c].scanned : Int) = ofs + syncWin s c ∧ ofs.natAbs ≤ syncWin s c ∧ s.ch[c].scanned + 32 ≤ s.ch[c].buf.length ∧ markDistance sync1 s.ch[c].buf s.ch[c].scanned ≤ fget s (fldSYNC_CFG_SYNC_TOL c) ∧ ofs.natAbs ≤ fget s (fldSYNC_CFG_CONF_WIN c) :=
  ⟨wSync 0 .cand, 0, 0, by decide +kernel⟩

theorem wit_SyncDetectorFindsTheSector_5 : ∃ (s : State) (c : Chan) (ofs : Int), (s.ch[c].sync = .search1 ∨ s.ch[c].sync = .cand) ∧ (s.ch[c].scanned : Int) = ofs + syncWin s c ∧ ofs.natAbs ≤ syncWin s c ∧ s.ch[c].scanned + 32 ≤ s.ch[c].buf.length ∧ fget s (fldSYNC_CFG_SYNC_TOL c) < markDistance sync1 s.ch[c].buf s.ch[c].scanned :=
  ⟨modCh (wSync 0 .search1) 0 (fun q => { q with buf := List.replicate 80 ⟨0, false, false, false⟩ }), 0, 0, by decide +kernel⟩

theorem wit_SyncDetectorFindsTheSector_6 : ∃ (s : State) (c : Chan), s.ch[c].sync = .search1 ∧ 2 * syncWin s c < s.ch[c].scanned :=
  ⟨modCh (wCh 0 .search1) 0 (fun q => { q with scanned := 200 }), 0, by decide +kernel⟩

theorem wit_SyncDetectorFindsTheSector_7 : ∃ (s : State) (c : Chan), s.ch[c].sync = .cand ∧ 2 * syncWin s c < s.ch[c].scanned :=
  ⟨modCh (wCh 0 .cand) 0 (fun q => { q with scanned := 200 }), 0, by decide +kernel⟩

theorem wit_SyncDetectorFindsTheSector_8 : ∃ (s : State) (c : Chan), s.ch[c].sync = .stream1 :=
  ⟨wCh 0 .stream1, 0, by decide +kernel⟩

theorem wit_SyncDetectorFindsTheSector_9 : ∃ (s : State) (n : Head) (spot : Fin 4) (e : Int) (d : Nat), s.ch[headChan n spot].sync = .search2 ∧ s.ch[headChan n spot].primary = .direct ∧ sync2Best (fget s (fldSYNC_CFG_SYNC_TOL (headChan n spot))) (syncWin s (headChan n spot)) s.ch[headChan n spot].soft = some (e, d) ∧ e.natAbs ≤ 1 :=
  ⟨wSync2, 0, 0, 0, 0, by decide +kernel⟩

theorem wit_SyncDetectorFindsTheSector_10 : ∃ (s : State) (n : Head) (spot : Fin 4), s.ch[headChan n spot].sync = .search2 ∧ s.ch[headChan n spot].primary = .candidate ∧ s.ch[headChan n spot].primDist ≤ fget s (fldSYNC_CFG_CAND_STRONG (headChan n spot)) ∧ sync2Best (fget s (fldSYNC_CFG_SYNC_TOL (headChan n spot))) (syncWin s (headChan n spot)) s.ch[headChan n spot].soft = none :=
  ⟨modCh (wCh 0 .search2) 0 (fun q => { q with primary := .candidate, primDist := 0 }), 0, 0, by decide +kernel⟩

theorem wit_SyncDetectorFindsTheSector_11 : ∃ (s : State) (n : Head) (spot : Fin 4), s.ch[headChan n spot].sync = .search2 ∧ s.ch[headChan n spot].primary = .missed ∧ sync2Best (fget s (fldSYNC_CFG_SYNC_TOL (headChan n spot))) (syncWin s (headChan n spot)) s.ch[headChan n spot].soft = none :=
  ⟨modCh (wCh 0 .search2) 0 (fun q => { q with primary := .missed }), 0, 0, by decide +kernel⟩

theorem wit_SyncDetectorFindsTheSector_12 : ∃ (s : State) (c : Chan), s.ch[c].sync = .stream2 ∧ s.ch[c].verify = true ∧ s.ch[c].queue = [] ∧ s.ch[c].due = [] ∧ s.decDiscard = [] ∧ s.decDrop = [] :=
  ⟨modCh (wCh 0 .stream2) 0 (fun q => { q with verify := true, outCode := 7, inferRun := 30 }), 0, by decide +kernel⟩

theorem readBytes_nil (a n : Nat) : Memory.readBytes [] a n = List.replicate n 0 := by
  unfold Memory.readBytes
  simp only [Memory.read, Memory.default]
  exact List.map_const' ..  |>.trans (by rw [List.length_range])

theorem tcm_peek {s : State} (h : s.mem = []) (h2 : s.tcmErr = []) (w : Nat) : tcmPeek s w = (List.replicate 8 0, .good) := by
  unfold tcmPeek
  simp only [h, h2, readBytes_nil, aget?]
  
theorem tcm_words {s : State} (h : s.mem = []) (h2 : s.tcmErr = []) (ws : List Nat) :
    (ws.map (tcmPeek s)) = List.replicate ws.length (List.replicate 8 0, .good) := by
  have e : tcmPeek s = fun _ => (List.replicate 8 0, .good) := funext (tcm_peek h h2)
  rw [e, List.map_const']

theorem flat_rep (k m : Nat) : (List.replicate k (List.replicate m (0 : Byte))).flatten = List.replicate (k * m) 0 := by
  induction k with
  | zero => simp
  | succ k ih => rw [List.replicate_succ, List.flatten_cons, ih, Nat.succ_mul, Nat.add_comm, List.replicate_append_replicate]

theorem tcm_zeros {s : State} (hm : s.mem = []) (he : s.tcmErr = []) (a n : Nat) (h1 : 0x1000000 ≤ a) (h2 : a + n ≤ 0x1080000) (h3 : a % 8 = 0) (h4 : 0 < n) :
    memRead s 4 a n = (s, some (List.replicate n 0, false)) := by
  have hr : regionOf a = .tcm := by
    unfold regionOf
    rw [if_neg (by omega), if_pos (by omega)]
  unfold memRead normalOk
  simp only [hr, h2, decide_true, Bool.not_true, if_false, Bool.false_eq_true, tcm_words hm he, List.length_map, List.length_range, List.map_replicate]
  have hz : ∀ (ws : List Nat) (k : Nat), ((ws.zip (List.replicate k ((List.replicate 8 (0 : Byte)), EccOutcome.good))).filter (fun p => p.2.2 == .ue && decide (p.1 < a + n))) = [] := by
    intro ws k
    rw [List.filter_eq_nil_iff]
    intro p hp
    have := List.of_mem_zip hp
    have e := List.eq_of_mem_replicate this.2
    simp [e]
  have hz2 : ∀ (ws : List Nat) (k : Nat), ((ws.zip (List.replicate k ((List.replicate 8 (0 : Byte)), EccOutcome.good))).filter (fun p => p.2.2 == .ce && decide (p.1 < a + n))) = [] := by
    intro ws k
    rw [List.filter_eq_nil_iff]
    intro p hp
    have := List.of_mem_zip hp
    have e := List.eq_of_mem_replicate this.2
    simp [e]
  simp only [hz, hz2, flat_rep, h3, List.drop_zero, List.take_replicate, List.map_nil, List.isEmpty_nil]
  have hm : min n ((n / 8 + 2) * 8) = n := by omega
  rw [hm]
  rfl

theorem wTcm_fold (zs : List Byte) (hz : zs = List.replicate 4096 0) (l : List Nat) (acc : List (Nat × List Byte)) (hl : ∀ i ∈ l, i < 36) :
    (l.foldl (fun acc i =>
      match acc.2.2 with
      | some b => (acc.1, acc.2.1, some b)
      | none =>
        match memRead acc.1 4 (payloadAt 0x1000000 i) 4096 with
        | (u, some (bs, false)) => (u, acc.2.1 ++ [(i, bs)], none)
        | (u, _) => (u, acc.2.1, some i)) ((wTcm, acc, none) : State × List (Nat × List Byte) × Option Nat)) =
      (wTcm, acc ++ l.map (fun i => (i, zs)), none) := by
  induction l generalizing acc with
  | nil => rw [List.map_nil, List.append_nil]; rfl
  | cons i t ih =>
    have hi := hl i (List.mem_cons_self ..)
    have e := tcm_zeros (s := wTcm) rfl rfl (payloadAt 0x1000000 i) 4096 (by unfold payloadAt; omega) (by unfold payloadAt; omega) (by unfold payloadAt; omega) (by decide +kernel)
    rw [← hz] at e
    have e2 := ih (acc ++ [(i, zs)]) (fun j hj => hl j (List.mem_cons_of_mem _ hj))
    rw [List.foldl_cons]
    simp only [e]
    rw [e2, List.map_cons, List.append_assoc, List.singleton_append]

theorem wTcm_read : (readSectors wTcm (payloadAt wTileT.base) ((List.range 36).filter (fun i => !(wTileT.erased.contains i)))).2 =
    ((List.range 36).map (fun i => (i, List.replicate 4096 0)), none) := by
  have h : ((List.range 36).filter (fun i => !(wTileT.erased.contains i))) = List.range 36 := by decide +kernel
  rw [h]
  exact congrArg Prod.snd (wTcm_fold _ rfl (List.range 36) [] (fun i hi => List.mem_range.mp hi))

theorem mapM_const {β : Type} (x : β) (l : List Nat) : l.mapM (fun _ => some x) = some (l.map (fun _ => x)) := by
  induction l with
  | nil => rfl
  | cons a t ih => rw [List.mapM_cons, ih]; rfl

theorem zeros_get (k b : Nat) : (((List.replicate k (0 : Byte)).toArray.getD b 0)).toNat = 0 := by
  rw [Array.getD_eq_getD_getElem?]
  simp only [List.getElem?_toArray, List.getElem?_replicate]
  split <;> rfl

set_option maxRecDepth 100000 in
theorem wTcm_column : columnDecode 4 ((4 - 0) / 2) ((List.range 36).map (fun i => (35 - i, 0))) [] = some ([], 0) := by decide +kernel

theorem wTcm_columns : tileColumns (fbit wTcm fldTC_CFG_ERR_EN) wTileT.erased ((List.range 36).map (fun i => (i, List.replicate 4096 0))) =
    some ((List.range 4096).map (fun _ => ([], 0))) := by
  unfold tileColumns
  have hc : ∀ b : Nat, columnDecode 4 ((4 - 0) / 2) ((((List.range 36).map (fun i => (i, List.replicate 4096 (0 : Byte)))).map (fun p => (35 - p.1, p.2.toArray))).map (fun c => (c.1, (c.2.getD b 0).toNat))) [] = some ([], 0) := by
    intro b
    have e : (((List.range 36).map (fun i => (i, List.replicate 4096 (0 : Byte)))).map (fun p => (35 - p.1, p.2.toArray))).map (fun c => (c.1, (c.2.getD b 0).toNat)) = (List.range 36).map (fun i => (35 - i, 0)) := by
      rw [List.map_map, List.map_map]
      apply List.map_congr_left
      intro i _
      simp only [Function.comp, zeros_get]
    rw [e]
    exact wTcm_column
  have hf : fbit wTcm fldTC_CFG_ERR_EN = true := by decide +kernel
  have he : wTileT.erased = [] := rfl
  rw [hf, he]
  dsimp only [List.length_nil, if_true, List.map_nil, reduceIte]
  refine (congrArg (fun f => List.mapM f (List.range 4096)) (funext fun b => ?_)).trans (mapM_const _ _)
  exact congrArg (Option.map _) (hc b)

theorem wTcm_none : ∀ c ∈ (List.range 4096).map (fun _ => (([] : List (Nat × Nat)), 0)), ∀ v ∈ c.1, v.1 ∈ wTileT.erased := by
  intro c hc
  obtain ⟨_, _, rfl⟩ := List.mem_map.mp hc
  intro v hv
  cases hv

theorem wit_DecoderSlicesTakeAndDecode_1 : ∃ (s : State) (c : Chan) (pk : Nat) (n : SliceId), packetArriving s c = some pk ∧ sliceFree s = some n ∧ s.decWait = [] :=
  ⟨wPk, 0, 7, 0, by decide +kernel⟩

theorem wit_DecoderSlicesTakeAndDecode_2 : ∃ (s : State) (c : Chan) (pk q : Nat) (rest : List Nat) (n : SliceId), packetArriving s c = some pk ∧ sliceFree s = some n ∧ s.decWait = q :: rest :=
  ⟨{ wPk with decWait := [3] }, 0, 7, 3, [], 0, by decide +kernel⟩

theorem wit_DecoderSlicesTakeAndDecode_3 : ∃ (s : State) (c : Chan) (pk : Nat), packetArriving s c = some pk ∧ sliceFree s = none ∧ anySlice s = true ∧ s.decWait.length < slicesWriting s :=
  ⟨{ wPk with slices := Vector.replicate 40 [⟨90, .writing, none⟩, ⟨91, .loading, none⟩] }, 0, 7, by decide +kernel⟩

theorem wit_DecoderSlicesTakeAndDecode_4 : ∃ (s : State) (c : Chan) (pk : Nat) (n : SliceId) (b : SliceBuf), packetArriving s c = some pk ∧ sliceFree s = none ∧ anySlice s = true ∧ s.decWait = [] ∧ slicesWriting s = 0 ∧ preemptVictim s = some (n, b) :=
  ⟨{ wPk with packets := [{ wPacket with id := 91 }, wPacket], slices := Vector.replicate 40 [⟨91, .loading, none⟩, ⟨92, .loading, none⟩] }, 0, 7, 0, ⟨91, .loading, none⟩, by decide +kernel⟩

theorem wit_DecoderSlicesTakeAndDecode_5 : ∃ (s : State) (c : Chan), s.ch[c].sync = .stream1 ∧ s.packets = [] ∧ decKnows s s.ch[c].packetId = false ∧ anySlice s = false :=
  ⟨modCh (fput (fput State.reset (⟨regDEC_SLICE0, 31, 0⟩) 0) (⟨regDEC_SLICE1, 31, 0⟩) 0) 0 (fun q => { q with sync := .stream1, packetId := 9 }), 0, by decide +kernel⟩

theorem wit_DecoderSlicesTakeAndDecode_6 : ∃ (s : State) (n : SliceId) (b : SliceBuf) (pk : Nat) (rest : List Nat), s.slices[n].find? (fun b => b.phase == .writing) = some b ∧ s.decWait = pk :: rest :=
  ⟨{ wPk with slices := Vector.replicate 40 [⟨90, .writing, none⟩, ⟨91, .loading, none⟩], decWait := [7] }, 3, ⟨90, .writing, none⟩, 7, [], by decide +kernel⟩

theorem wit_DecoderSlicesTakeAndDecode_7 : ∃ (s : State) (n : SliceId) (p : Packet), sliceReady s n = some p ∧ dbStatus p.descB = 0 ∧ zeroCount (descramble (codewordSoft p) p.addr) ≤ 1072 :=
  ⟨wPk2, 0, wPacket, by decide +kernel⟩

theorem wit_DecoderSlicesTakeAndDecode_8 : ∃ (s : State) (n : SliceId) (p : Packet), sliceReady s n = some p ∧ dbStatus p.descB ≠ 0 :=
  ⟨{ wPk2 with packets := [{ wPacket with descB := 0x3 * 2 ^ 60 }] }, 0, { wPacket with descB := 0x3 * 2 ^ 60 }, by decide +kernel⟩

theorem wit_DecoderSlicesTakeAndDecode_9 : ∃ (s : State) (n : SliceId) (b : SliceBuf) (p : Packet), s.slices[n].find? (fun b => b.phase == .iterating) = some b ∧ s.packets.find? (fun p => p.id == b.pk) = some p :=
  ⟨{ wPk2 with slices := wPk2.slices.set 0 [⟨7, .iterating, none⟩] }, 0, ⟨7, .iterating, none⟩, wPacket, by decide +kernel⟩

theorem wit_TileCodeOutcomes_1 : ∃ (s : State) (u : Tile), s.tiles.find? (fun v => v.id == u.id && v.phase == .filling) = some u ∧ tileFull u = true ∧ (List.range 36).all (fun i => (tileRes u i).code == 1 && (tileRes u i).blank) = false ∧ ((List.range 36).filter (fun i => (tileRes u i).code == 5)).length ≤ 4 ∧ (0 < (tileErasures u).length ∧ (tileErasures u).length ≤ 4) :=
  ⟨{ State.reset with tiles := [wTile1] }, wTile1, by decide +kernel⟩

theorem wit_TileCodeOutcomes_2 : ∃ (s : State) (u : Tile), s.tiles.find? (fun v => v.id == u.id && v.phase == .filling) = some u ∧ tileFull u = true ∧ u.span = none ∧ u.kind = .read ∧ (List.range 36).all (fun i => (tileRes u i).code == 1 && (tileRes u i).blank) = false ∧ ((List.range 36).filter (fun i => (tileRes u i).code == 5)).length ≤ 4 ∧ 5 ≤ (tileErasures u).length :=
  ⟨{ State.reset with tiles := [wTile5] }, wTile5, by decide +kernel⟩

theorem wit_TileCodeOutcomes_3 : ∃ (s : State) (u : Tile) (i : Nat), s.tiles.find? (fun v => v.id == u.id && v.phase == .decoding) = some u ∧ i < 36 ∧ u.erased.contains i = false ∧ u.erased.length ≤ 3 ∧ u.checked = true ∧ u.erased = (List.range 36).filter (fun j => u.erased.contains j) :=
  ⟨{ State.reset with tiles := [wTileD] }, wTileD, 4, by decide +kernel⟩

theorem wit_TileCodeOutcomes_4 : ∃ (s : State) (u : Tile) (pay : List (Nat × List Byte)) (cols : List (List (Nat × Nat) × Nat)),
    s.tiles.find? (fun v => v.id == u.id && v.phase == .decoding) = some u ∧
    (readSectors s (payloadAt u.base) ((List.range 36).filter (fun i => !(u.erased.contains i)))).2 = (pay, none) ∧
    tileColumns (fbit s fldTC_CFG_ERR_EN) u.erased pay = some cols ∧ (∀ c ∈ cols, ∀ v ∈ c.1, v.1 ∈ u.erased) ∧
    u.span = none ∧ u.kind = .read :=
  ⟨wTcm, wTileT, (List.range 36).map (fun i => (i, List.replicate 4096 0)), (List.range 4096).map (fun _ => ([], 0)), by decide +kernel,
    wTcm_read, wTcm_columns, wTcm_none, rfl, rfl⟩

theorem wit_TileCodeOutcomes_5 : ∃ (s : State) (id : SpanId) (sp : Span), s.spans.find? (fun q => q.id == id.val) = some sp ∧ spanComplete s sp = true ∧ spanFailing s id.val = true :=
  ⟨{ State.reset with spans := [⟨1, [], false, []⟩], tiles := [{ wTileD with span := some (1, 0), phase := .waiting, outcome := 3 }] }, 1, ⟨1, [], false, []⟩, by decide +kernel⟩

theorem wit_TileCodeOutcomes_6 : ∃ (s : State) (id : SpanId) (m : Head) (i : Fin 32) (sp : Span), s.spans.find? (fun q => q.id == id.val && q.running) = some sp ∧ spanLost s sp m.val i.val = false :=
  ⟨{ State.reset with spans := [⟨1, [], true, []⟩], tiles := [{ wTileD with span := some (1, 0), phase := .waiting, outcome := 1 }] }, 1, 0, 9, ⟨1, [], true, []⟩, by decide +kernel⟩

theorem wit_TileCodeOutcomes_7 : ∃ (s : State) (id : SpanId) (sp : Span), s.spans.find? (fun q => q.id == id.val && q.running) = some sp ∧ dataSectors.any (fun i => decide (2 < ((List.range 8).filter (fun m => spanLost s sp m i)).length)) = true :=
  ⟨{ State.reset with spans := [⟨1, [], true, []⟩] }, 1, ⟨1, [], true, []⟩, by decide +kernel⟩

theorem wit_TileCodeOutcomes_8 : ∃ (s : State) (id : SpanId) (sp : Span), s.spans.find? (fun q => q.id == id.val && q.running) = some sp ∧ dataSectors.any (fun i => decide (2 < ((List.range 8).filter (fun m => spanLost s sp m i)).length)) = false ∧ (spanRestoreAll s sp dataSectors).2 = none :=
  ⟨{ State.reset with spans := [⟨1, [], true, []⟩], tiles := (List.range 6).map (fun m => { wTileD with id := m, span := some (1, m), phase := .waiting, outcome := 1 }) }, 1, ⟨1, [], true, []⟩, by decide +kernel⟩

theorem wit_EncoderAndWriteSlots_1 : ∃ (s : State) (n : Head) (pre post : List WSlot) (q : WSlot) (bs : List Byte), s.wc[n].slots = pre ++ q :: post ∧
    pre.all (fun x => !(slotUnbuilt x)) = true ∧ slotUnbuilt q = true ∧
    (memRead s 4 (payloadAt q.base q.sector) 4096).2 = some (bs, false) :=
  ⟨wWc [wSlot .armed], 0, [], [], wSlot .armed, List.replicate 4096 0, by decide +kernel, by decide +kernel, by decide +kernel,
    congrArg Prod.snd (tcm_zeros rfl rfl (payloadAt 0x1000000 5) 4096 (by decide +kernel) (by decide +kernel) (by decide +kernel) (by decide +kernel))⟩

theorem wit_EncoderAndWriteSlots_2 : ∃ (s : State) (n : Head) (pre post : List WSlot) (q : WSlot), s.wc[n].slots = pre ++ q :: post ∧ pre.all (fun x => !(slotArmed x)) = true ∧ slotArmed q = true ∧ startBlocks s n q = 0 ∧ fget s (fldWC_CTL_ENABLE n) = 1 ∧ fget s (fldWC_CTL_INHIBIT n) = 0 ∧ fget s (fldWC_CTL_VFY_EN n) = 0 ∧ fbitAt s fldFM_ISOLATE_ISOLATED n.val = false :=
  ⟨modHb (fset (fset (fset (modXing (modWc (fclr (wWc [wSlot .verifying, { wSlot .armed with entries := [0, 0] }]) (fldWC_CTL_VFY_EN 0)) 0 (fun w => { w with onTrack := true, inFocus := true })) 16 (fun x => { x with st := .armed })) fldSUP_CTL_BOOST_EN) (fldWC_STAT_TABLE_OK 0)) (fldWC_CTL_ENABLE 0)) 0 (fun h => { h with fromData := 4 }), 0, [wSlot .verifying], [], { wSlot .armed with entries := [0, 0] }, by decide +kernel⟩

theorem wit_EncoderAndWriteSlots_3 : ∃ (s : State) (n : Head) (pre post : List WSlot) (q : WSlot), s.wc[n].slots = pre ++ q :: post ∧ pre.all (fun x => !(slotArmed x)) = true ∧ slotArmed q = true ∧ startBlocks s n q ≠ 0 :=
  ⟨wWc [wSlot .armed], 0, [], [], wSlot .armed, by decide +kernel⟩

theorem wit_EncoderAndWriteSlots_4 : ∃ (s : State) (n : Head) (q : WSlot), q ∈ s.wc[n].slots ∧ s.wc[n].slots.find? (fun x => x.phase == .running) = some q ∧ anyPulse (pulsesCut s n q (slotPos s n q + 1)) = true :=
  ⟨{ modWc (wWc [wSlot .verifying, wSlot .running]) 0 (fun w => { w with pulses := [(.peak, 0)] }) with chipTime := 100000 }, 0, wSlot .running, by decide +kernel⟩

theorem wit_EncoderAndWriteSlots_5 : ∃ (s : State) (n : Head) (pre post : List WSlot) (q : WSlot), s.wc[n].slots = pre ++ q :: post ∧ pre.all (fun x => !(slotBegun x)) = true ∧ q.phase = .running ∧ q.oblit = false ∧ fget s (fldWC_CTL_VFY_EN n) = 1 :=
  ⟨fset (wWc [wSlot .armed, wSlot .running]) (fldWC_CTL_VFY_EN 0), 0, [wSlot .armed], [], wSlot .running, by decide +kernel⟩

theorem wit_EncoderAndWriteSlots_6 : ∃ (s : State) (n : Head) (q : WSlot), s.wc[n].slots.find? slotBegun = some q ∧ q.phase = .stopped ∧ 0 < q.wstat :=
  ⟨wWc [{ wSlot .stopped with wstat := 3 }], 0, { wSlot .stopped with wstat := 3 }, by decide +kernel⟩

theorem wit_EncoderAndWriteSlots_7 : ∃ (s : State) (n : Head) (q : WSlot) (r : SectorRes), s.wc[n].slots.find? (fun q => q.phase == .verifying && q.vres.isSome) = some q ∧ q.vres = some r :=
  ⟨wWc [{ wSlot .verifying with vres := some ⟨0, 2, false, 200, 0, 0, 0, false, 0, 0, true⟩ }], 0, { wSlot .verifying with vres := some ⟨0, 2, false, 200, 0, 0, 0, false, 0, 0, true⟩ }, ⟨0, 2, false, 200, 0, 0, 0, false, 0, 0, true⟩, by decide +kernel⟩

theorem wit_WriteGuardsAndPower_1 : ∃ (s : State) (n : Head) (g : GuardSrc) (level : List Int), headPresent s.variant n.val = true ∧ writePresent s.variant = true ∧ guardOn s n.val g = true ∧ guardInside g level (guardThr s n.val g) = false ∧ guardIgnored s n g = false :=
  ⟨fset (wWc [wSlot .running]) (fldWG_FE_EN 0), 0, .fe, [900, 100, 900, 100], by decide +kernel⟩

theorem wit_WriteGuardsAndPower_2 : ∃ (s : State) (n : Head) (g : GuardSrc) (level : List Int), (guardInside g level (guardThr s n.val g) = true ∨ guardIgnored s n g = true) :=
  ⟨State.reset, 0, .fe, [100, 100, 100, 100], by decide +kernel⟩

theorem wit_WriteGuardsAndPower_3 : ∃ (s : State) (n : Head) (g : GuardSrc) (level : List Int), guardInside g level ((guardThr s n.val g : Int) - guardHyst s n.val g) = true :=
  ⟨modWc State.reset 1 (fun w => { w with tripped := [0, 1] }), 1, .te, [100, 100, 100, 100], by decide +kernel⟩

theorem wit_WriteGuardsAndPower_4 : ∃ (s : State) (n : Head) (g : GuardSrc) (level : List Int), guardInside g level ((guardThr s n.val g : Int) - guardHyst s n.val g) = false :=
  ⟨State.reset, 1, .shk 2, [1900000], by decide +kernel⟩

theorem wit_WriteGuardsAndPower_5 : ∃ (s : State) (n : Head), guardOut s n = [] ∧ s.wc[n].latch.all (fun b => decide (b < 3)) = true :=
  ⟨fset (modWc State.reset 1 (fun w => { w with latch := [0, 1] })) (fldWC_STAT_LATCH 1), 1, by decide +kernel⟩

theorem wit_WriteGuardsAndPower_6 : ∃ (s : State) (agent : Agent) (n : Head), absentAt s.variant (wcBase n.val) = false ∧ headPresent s.variant n.val = true ∧ writePresent s.variant = true :=
  ⟨wWc [wSlot .running], .core 0, 0, by decide +kernel⟩

theorem wit_WriteGuardsAndPower_7 : ∃ (s : State) (agent : Agent) (n : Head), absentAt s.variant (wcBase n.val) = false ∧ headPresent s.variant n.val = true ∧ writePresent s.variant = true ∧ fget s (fldWC_CTL_ENABLE n) = 0 :=
  ⟨State.reset, .core 0, 0, by decide +kernel⟩

theorem wit_WriteGuardsAndPower_8 : ∃ (s : State) (n : Head) (a : Nat) (bs : List Byte), s.wc[n].fetch = some a ∧ (memRead (modWc s n (fun w => { w with fetch := none })) 4 a 256).2 = some (bs, false) ∧ crc32 (bs.take 252) = leNat (bs.drop 252) :=
  ⟨wTable, 0, 0x1000000, List.replicate 252 0 ++ wCrc, by decide +kernel⟩

theorem wit_WriteGuardsAndPower_9 : ∃ (s : State) (n : Head) (code : Nat) (sl : Int × Int), fget s (fldWC_CTL_ENABLE n) = 1 ∧ fget s (fldWC_CTL_PWR_LOOP_EN n) = 1 ∧ s.wc[n].slots.all (fun q => q.phase != .running) = true ∧ nSamp s n ≤ s.wc[n].rdS.n + 1 ∧ s.wc[n].slope = some sl ∧ sl.1 ≠ 0 ∧ fget s (fldWC_MPD_MPD_GAIN n) ≠ 0 :=
  ⟨fput (fset (fset (modWc (wWc []) 0 (fun w => { w with rdS := ⟨300, 5000⟩, slope := some (3, 5) })) (fldWC_CTL_ENABLE 0)) (fldWC_CTL_PWR_LOOP_EN 0)) (fldWC_MPD_MPD_GAIN 0) 77, 0, 40, (3, 5), by decide +kernel⟩

theorem wit_WriteGuardsAndPower_10 : ∃ (s : State) (n : Head) (code : Nat), fget s (fldWC_CTL_PWR_LOOP_EN n) = 1 ∧ s.wc[n].slots.any (fun q => q.phase == .running) = true ∧ s.wc[n].biasS.n + 1 < nSamp s n ∧ s.wc[n].bias = none :=
  ⟨fset (wWc [wSlot .running]) (fldWC_CTL_PWR_LOOP_EN 0), 0, 40, by decide +kernel⟩

theorem wit_MsvMovesLoadsAndStores_1 : ∃ (s : State) (k : Engine) (r : MsvRun) (w : Nat), msvAt s k 0x01 r w :=
  ⟨wMsv 0x04C48000, 0, wRun, 0x04C48000, by decide +kernel⟩

theorem wit_MsvMovesLoadsAndStores_2 : ∃ (s : State) (k : Engine) (r : MsvRun) (w : Nat), msvAt s k 0x02 r w :=
  ⟨wMsv 0x08C48000, 0, wRun, 0x08C48000, by decide +kernel⟩

theorem wit_MsvMovesLoadsAndStores_3 : ∃ (s : State) (k : Engine) (r : MsvRun) (w : Nat), msvAt s k 0x03 r w :=
  ⟨wMsv 0x0CC48000, 0, wRun, 0x0CC48000, by decide +kernel⟩

theorem wit_MsvMovesLoadsAndStores_4 : ∃ (s : State) (k : Engine) (r : MsvRun) (w : Nat), msvAt s k 0x04 r w :=
  ⟨wMsv 0x10C48000, 0, wRun, 0x10C48000, by decide +kernel⟩

theorem wit_MsvMovesLoadsAndStores_5 : ∃ (s : State) (k : Engine) (r : MsvRun) (w : Nat), msvAt s k 0x05 r w ∧ bitsOf w 17 17 = 0 :=
  ⟨wMsv 0x14C00007, 0, wRun, 0x14C00007, by decide +kernel⟩

theorem wit_MsvMovesLoadsAndStores_6 : ∃ (s : State) (k : Engine) (r : MsvRun) (w : Nat) (x : Word), msvAt s k 0x06 r w ∧ bitsOf w 17 17 = 0 ∧ aget? r.stores (w % 512) = some x ∧ bitsOf w 9 9 = 0 :=
  ⟨wMsv 0x18C00007, 0, wRun, 0x18C00007, 99, by decide +kernel⟩

theorem wit_MsvMovesLoadsAndStores_7 : ∃ (s : State) (k : Engine) (r : MsvRun) (w : Nat), msvAt s k 0x06 r w ∧ bitsOf w 17 17 = 0 ∧ aget? r.stores (w % 512) = none ∧ bitsOf w 9 9 = 0 :=
  ⟨wMsv 0x18C00008, 0, wRun, 0x18C00008, by decide +kernel⟩

theorem wit_MsvMovesLoadsAndStores_8 : ∃ (s : State) (k : Engine) (r : MsvRun) (w : Nat), msvAt s k 0x07 r w ∧ bitsOf w 17 17 = 0 ∧ bitsOf w 9 9 = 0 :=
  ⟨wMsv 0x1C400008, 0, wRun, 0x1C400008, by decide +kernel⟩

theorem wit_MsvMovesLoadsAndStores_9 : ∃ (s : State) (k : Engine) (r : MsvRun) (w : Nat), msvAt s k 0x08 r w :=
  ⟨wMsv 0x20C0000D, 0, wRun, 0x20C0000D, by decide +kernel⟩

theorem wit_MsvMovesLoadsAndStores_10 : ∃ (s : State) (k : Engine) (r : MsvRun) (w : Nat), msvAt s k 0x09 r w ∧ (k.val = 9 → 8 ≤ w % 64 → w % 64 < 16 → headPresent s.variant (w % 64 - 8) = true) :=
  ⟨wMsv 0x24040005, 0, wRun, 0x24040005, by decide +kernel⟩

theorem wit_MsvIntegerArithmetic_1 : ∃ (s : State) (k : Engine) (r : MsvRun) (w : Nat), msvAt s k 0x10 r w :=
  ⟨wMsv 0x40C48000, 0, wRun, 0x40C48000, by decide +kernel⟩

theorem wit_MsvIntegerArithmetic_2 : ∃ (s : State) (k : Engine) (r : MsvRun) (w : Nat), msvAt s k 0x11 r w :=
  ⟨wMsv 0x44C48000, 0, wRun, 0x44C48000, by decide +kernel⟩

theorem wit_MsvIntegerArithmetic_3 : ∃ (s : State) (k : Engine) (r : MsvRun) (w : Nat), msvAt s k 0x12 r w :=
  ⟨wMsv 0x48C48000, 0, wRun, 0x48C48000, by decide +kernel⟩

theorem wit_MsvIntegerArithmetic_4 : ∃ (s : State) (k : Engine) (r : MsvRun) (w : Nat), msvAt s k 0x13 r w :=
  ⟨wMsv 0x4CC48000, 0, wRun, 0x4CC48000, by decide +kernel⟩

theorem wit_MsvIntegerArithmetic_5 : ∃ (s : State) (k : Engine) (r : MsvRun) (w : Nat), msvAt s k 0x14 r w :=
  ⟨wMsv 0x50C48000, 0, wRun, 0x50C48000, by decide +kernel⟩

theorem wit_MsvIntegerArithmetic_6 : ∃ (s : State) (k : Engine) (r : MsvRun) (w : Nat), msvAt s k 0x15 r w :=
  ⟨wMsv 0x54C48000, 0, wRun, 0x54C48000, by decide +kernel⟩

theorem wit_MsvIntegerArithmetic_7 : ∃ (s : State) (k : Engine) (r : MsvRun) (w : Nat), msvAt s k 0x16 r w ∧ r.v[vs2Of w] ≠ 0 :=
  ⟨wMsv 0x58C48000, 0, wRun, 0x58C48000, by decide +kernel⟩

theorem wit_MsvIntegerArithmetic_8 : ∃ (s : State) (k : Engine) (r : MsvRun) (w : Nat), msvAt s k 0x16 r w ∧ r.v[vs2Of w] = 0 :=
  ⟨wMsv 0x58C64000, 0, wRun, 0x58C64000, by decide +kernel⟩

theorem wit_MsvIntegerArithmetic_9 : ∃ (s : State) (k : Engine) (r : MsvRun) (w : Nat), msvAt s k 0x17 r w ∧ r.v[vs1Of w] ≠ 0x80000000 :=
  ⟨wMsv 0x5CC48000, 0, wRun, 0x5CC48000, by decide +kernel⟩

theorem wit_MsvIntegerArithmetic_10 : ∃ (s : State) (k : Engine) (r : MsvRun) (w : Nat), msvAt s k 0x17 r w ∧ r.v[vs1Of w] = 0x80000000 :=
  ⟨wMsv 0x5CC80000, 0, wRun, 0x5CC80000, by decide +kernel⟩

theorem wit_MsvIntegerArithmetic_11 : ∃ (s : State) (k : Engine) (r : MsvRun) (w : Nat), msvAt s k 0x18 r w :=
  ⟨wMsv 0x60C48000, 0, wRun, 0x60C48000, by decide +kernel⟩

theorem wit_MsvIntegerArithmetic_12 : ∃ (s : State) (k : Engine) (r : MsvRun) (w : Nat), msvAt s k 0x19 r w :=
  ⟨wMsv 0x64C48000, 0, wRun, 0x64C48000, by decide +kernel⟩

theorem wit_MsvIntegerArithmetic_13 : ∃ (s : State) (k : Engine) (r : MsvRun) (w : Nat), msvAt s k 0x1A r w ∧ w % 64 < 32 :=
  ⟨wMsv 0x68C40003, 0, wRun, 0x68C40003, by decide +kernel⟩

theorem wit_MsvIntegerArithmetic_14 : ∃ (s : State) (k : Engine) (r : MsvRun) (w : Nat), msvAt s k 0x1A r w ∧ 32 < w % 64 :=
  ⟨wMsv 0x68C4003C, 0, wRun, 0x68C4003C, by decide +kernel⟩

theorem wit_MsvLogicAndAccumulators_1 : ∃ (s : State) (k : Engine) (r : MsvRun) (w : Nat), msvAt s k 0x1C r w :=
  ⟨wMsv 0x70C48000, 0, wRun, 0x70C48000, by decide +kernel⟩

theorem wit_MsvLogicAndAccumulators_2 : ∃ (s : State) (k : Engine) (r : MsvRun) (w : Nat), msvAt s k 0x1D r w :=
  ⟨wMsv 0x74C48000, 0, wRun, 0x74C48000, by decide +kernel⟩

theorem wit_MsvLogicAndAccumulators_3 : ∃ (s : State) (k : Engine) (r : MsvRun) (w : Nat), msvAt s k 0x1E r w :=
  ⟨wMsv 0x78C48000, 0, wRun, 0x78C48000, by decide +kernel⟩

theorem wit_MsvLogicAndAccumulators_4 : ∃ (s : State) (k : Engine) (r : MsvRun) (w : Nat), msvAt s k 0x1F r w :=
  ⟨wMsv 0x7CC48000, 0, wRun, 0x7CC48000, by decide +kernel⟩

theorem wit_MsvLogicAndAccumulators_5 : ∃ (s : State) (k : Engine) (r : MsvRun) (w : Nat), msvAt s k 0x20 r w :=
  ⟨wMsv 0x80C40003, 0, wRun, 0x80C40003, by decide +kernel⟩

theorem wit_MsvLogicAndAccumulators_6 : ∃ (s : State) (k : Engine) (r : MsvRun) (w : Nat), msvAt s k 0x24 r w :=
  ⟨wMsv 0x90048002, 0, wRun, 0x90048002, by decide +kernel⟩

theorem wit_MsvLogicAndAccumulators_7 : ∃ (s : State) (k : Engine) (r : MsvRun) (w : Nat), msvAt s k 0x25 r w :=
  ⟨wMsv 0x94048002, 0, wRun, 0x94048002, by decide +kernel⟩

theorem wit_MsvLogicAndAccumulators_8 : ∃ (s : State) (k : Engine) (r : MsvRun) (w : Nat), msvAt s k 0x26 r w :=
  ⟨wMsv 0x98048002, 0, wRun, 0x98048002, by decide +kernel⟩

theorem wit_MsvLogicAndAccumulators_9 : ∃ (s : State) (k : Engine) (r : MsvRun) (w : Nat), msvAt s k 0x27 r w :=
  ⟨wMsv 0x9C040002, 0, wRun, 0x9C040002, by decide +kernel⟩

theorem wit_MsvLogicAndAccumulators_10 : ∃ (s : State) (k : Engine) (r : MsvRun) (w : Nat), msvAt s k 0x28 r w :=
  ⟨wMsv 0xA0C00015, 0, wRun, 0xA0C00015, by decide +kernel⟩

theorem wit_MsvFiltersTablesAndAngles_1 : ∃ (s : State) (k : Engine) (r : MsvRun) (w : Nat), msvAt s k 0x30 r w ∧ bitsOf w 17 15 = 0 :=
  ⟨wMsv 0xC0C40210, 0, wRun, 0xC0C40210, by decide +kernel⟩

theorem wit_MsvFiltersTablesAndAngles_2 : ∃ (s : State) (k : Engine) (r : MsvRun) (w : Nat), msvAt s k 0x31 r w ∧ (coefAt s k (w % 1024)).toInt ≤ (coefAt s k (w % 1024 + 1)).toInt :=
  ⟨wMsv 0xC4C40004, 0, wRun, 0xC4C40004, by decide +kernel⟩

theorem wit_MsvFiltersTablesAndAngles_3 : ∃ (s : State) (k : Engine) (r : MsvRun) (w : Nat), msvAt s k 0x32 r w :=
  ⟨wMsv 0xC8C40404, 0, wRun, 0xC8C40404, by decide +kernel⟩

theorem wit_MsvFiltersTablesAndAngles_4 : ∃ (s : State) (k : Engine) (r : MsvRun) (w : Nat) (n x : Nat), msvAt s k 0x33 r w ∧ bitsOf w 17 16 = 0 ∧ n = fget s (fldSE_VNOM_VNOM0 k) ∧ x = ((aget? r.ports 30).getD 0).toNat ∧ 0 < x :=
  ⟨wMsv 0xCCC40000, 0, wRun, 0xCCC40000, fget State.reset (fldSE_VNOM_VNOM0 0), 77, by decide +kernel⟩

theorem wit_MsvFiltersTablesAndAngles_5 : ∃ (s : State) (k : Engine) (r : MsvRun) (w : Nat), msvAt s k 0x34 r w ∧ headPresent s.variant (bitsOf w 25 23) = true :=
  ⟨wMsv 0xD0000404, 0, wRun, 0xD0000404, by decide +kernel⟩

theorem wit_MsvFiltersTablesAndAngles_6 : ∃ (s : State) (k : Engine) (r : MsvRun) (w : Nat), msvAt s k 0x35 r w ∧ bitsOf w 17 17 = 0 ∧ fget s (fldSE_GEN0_CFG_EN k) = 1 :=
  ⟨wMsvG 0xD4C40000, 0, wRun, 0xD4C40000, by decide +kernel⟩

theorem wit_MsvFiltersTablesAndAngles_7 : ∃ (s : State) (k : Engine) (r : MsvRun) (w : Nat), msvAt s k 0x36 r w :=
  ⟨wMsv 0xD9120000, 0, wRun, 0xD9120000, by decide +kernel⟩

theorem wit_MsvFiltersTablesAndAngles_8 : ∃ (s : State) (k : Engine) (r : MsvRun) (w : Nat), msvAt s k 0x37 r w ∧ (1 ≤ bitsOf w 17 15 ∧ bitsOf w 17 15 ≤ 6) :=
  ⟨wMsv 0xDCC50000, 0, wRun, 0xDCC50000, by decide +kernel⟩

theorem wit_MsvFiltersTablesAndAngles_9 : ∃ (s : State) (k : Engine) (r : MsvRun) (w : Nat), msvAt s k 0x38 r w ∧ bitsOf w 22 22 = 0 :=
  ⟨wMsv 0xE1040000, 0, wRun, 0xE1040000, by decide +kernel⟩

theorem wit_MsvControlFlowAndCommit_1 : ∃ (s : State) (k : Engine) (r : MsvRun) (w : Nat), msvAt s k 0x3A r w ∧ bitsOf w 25 22 = 2 ∧ r.v[vs1Of w].toInt < r.v[vs2Of w].toInt :=
  ⟨wMsv 0xE8884009, 0, wRun, 0xE8884009, by decide +kernel⟩

theorem wit_MsvControlFlowAndCommit_2 : ∃ (s : State) (k : Engine) (r : MsvRun) (w : Nat), msvAt s k 0x3A r w ∧ bitsOf w 25 22 = 2 ∧ r.v[vs2Of w].toInt ≤ r.v[vs1Of w].toInt :=
  ⟨wMsv 0xE8848009, 0, wRun, 0xE8848009, by decide +kernel⟩

theorem wit_MsvControlFlowAndCommit_3 : ∃ (s : State) (k : Engine) (r : MsvRun) (w : Nat), msvAt s k 0x3B r w :=
  ⟨wMsv 0xEC000009, 0, wRun, 0xEC000009, by decide +kernel⟩

theorem wit_MsvControlFlowAndCommit_4 : ∃ (s : State) (k : Engine) (r : MsvRun) (w : Nat), msvAt s k 0x3C r w ∧ w % 4 = 3 ∧ r.repVal < 4 ∧ r.repMask < 4 :=
  ⟨wMsv 0xF0040003, 0, wRun, 0xF0040003, by decide +kernel⟩

theorem wit_MsvControlFlowAndCommit_5 : ∃ (s : State) (k : Engine) (r : MsvRun) (w : Nat), msvAt s k 0x3D r w :=
  ⟨wMsv 0xF404004D, 0, wRun, 0xF404004D, by decide +kernel⟩

theorem wit_MsvControlFlowAndCommit_6 : ∃ (s : State) (k : Engine) (r : MsvRun) (w : Nat), msvAt s k 0x3F r w ∧ s.se[k].heldWrites = [] ∧ s.se[k].heldCoefs = [] ∧ s.se[k].stopReq = false ∧ s.se[k].boundDue = false ∧ s.se[k].applyDue = false :=
  ⟨wMsvE 0xFCC48000, 0, wRunE, 0xFCC48000, by decide +kernel⟩

theorem wit_ServoTicksRunsAndMisses_1 : ∃ (s : State) (k : Engine) (src : Fin 2), seState s k = 1 ∧ seSrc s k src ≠ 0 ∧ s.se[k].pend[src] = none ∧ s.se[k].run = none :=
  ⟨wSe, 0, 1, by decide +kernel⟩

theorem wit_ServoTicksRunsAndMisses_2 : ∃ (s : State) (k : Engine) (inputs : List (Fin 32 × BitVec 32)) (det : List DetGroup) (n : Fin 2) (tick : DWord) (w : Option Nat), seState s k = 1 ∧ s.se[k].run = none ∧ nextTick s.se[k] = some (n, tick, w) :=
  ⟨wSe2, 0, [(3, 7)], [⟨0, [[1, 2, 3, 4]]⟩], 1, 55, none, by decide +kernel⟩

theorem wit_ServoTicksRunsAndMisses_3 : ∃ (s : State) (k : Engine) (src : Fin 2), (s.se[k].pend[src]).isSome = true ∧ s.se[k].run = none :=
  ⟨wSe2, 0, 1, by decide +kernel⟩

theorem wit_ServoTicksRunsAndMisses_4 : ∃ (s : State) (k : Engine) (line : Fin 256) (bs : List Byte), enginePresent s.variant k = true ∧ bankState s k true (bankAt (0x4000 + 64 * line.val)).2 = 2 ∧ (memRead (count (count s 430) 421) 4 (imageBase s k + (0x4000 + 64 * line.val)) 64).2 = some (bs, false) :=
  ⟨setBankState wSeImg 0 true 0 2, 0, 1, List.replicate 64 0, by decide +kernel⟩

theorem wit_ServoTicksRunsAndMisses_5 : ∃ (s : State) (agent : Agent) (k : Engine), enginePresent s.variant k = true ∧ fget s (fldSE_CAP_CTL_EN k) = 0 ∧ fget s (fldSE_CAP_CTL_SYNC k) = 0 :=
  ⟨fput State.reset (fldSE_CAP_STAT_COUNT 2) 5, .core 0, 2, by decide +kernel⟩

theorem wit_ServoBanksAndControl_1 : ∃ (s : State) (agent : Agent) (k : Engine) (bank : Fin 4), enginePresent s.variant k = true ∧ fget s (fldSE_LOAD_STAT_BUSY k) = 0 ∧ bankLive s k true bank.val = false :=
  ⟨State.reset, .core 0, 2, 3, by decide +kernel⟩

theorem wit_ServoBanksAndControl_2 : ∃ (s : State) (agent : Agent) (k : Engine) (bank : Fin 4), enginePresent s.variant k = true ∧ fget s (fldSE_LOAD_STAT_BUSY k) = 0 ∧ bankLive s k true bank.val = true :=
  ⟨State.reset, .core 0, 2, 0, by decide +kernel⟩

theorem wit_ServoBanksAndControl_3 : ∃ (s : State) (k : Engine) (b : Fin 4) (bs : List Byte), s.se[k].load = some (1, b.val) ∧
    (memRead s 4 (imageBase s k + bankOffset true b.val) 4096).2 = some (bs, false) :=
  ⟨modSe wSeImg 0 (fun e => { e with load := some (1, 2) }), 0, 2, List.replicate 4096 0, by decide +kernel, by
    have h : imageBase (modSe wSeImg 0 (fun e => { e with load := some (1, 2) })) (0 : Engine) + bankOffset true (2 : Fin 4).val = 0x1006000 := by decide +kernel
    rw [h]
    exact congrArg Prod.snd (tcm_zeros rfl rfl 0x1006000 4096 (by decide +kernel) (by decide +kernel) (by decide +kernel) (by decide +kernel))⟩

theorem wit_ServoBanksAndControl_4 : ∃ (s : State) (agent : Agent) (k : Engine) (off : Fin 32768) (v : Word), enginePresent s.variant k = true ∧ bankLive s k (bankAt off.val).1 (bankAt off.val).2 = false ∧ (memWrite s 4 (imageBase s k + (off.val - off.val % 4)) (natLe 4 v.toNat)).isSome = true :=
  ⟨setBankState wSeImg 0 true 2 2, .core 1, 0, 0x6004, 77, by decide +kernel⟩

theorem wit_ServoBanksAndControl_5 : ∃ (s : State) (agent : Agent) (k : Engine) (off : Fin 32768) (v : Word), enginePresent s.variant k = true ∧ bankLive s k (bankAt off.val).1 (bankAt off.val).2 = true :=
  ⟨State.reset, .core 1, 0, 0x0004, 77, by decide +kernel⟩

theorem wit_ServoBanksAndControl_6 : ∃ (s : State) (agent : Agent) (k : Engine) (word : Fin 512) (v : Word), enginePresent s.variant k = true ∧ s.se[k].run = none :=
  ⟨State.reset, .core 1, 0, 5, 77, by decide +kernel⟩

theorem wit_ServoBanksAndControl_7 : ∃ (s : State) (agent : Agent) (k : Engine) (word : Fin 512) (v : Word), enginePresent s.variant k = true ∧ s.se[k].run.isSome = true :=
  ⟨wMsv 1, .core 1, 0, 5, 77, by decide +kernel⟩

theorem wit_ServoBanksAndControl_8 : ∃ (s : State) (agent : Agent) (k : Engine), enginePresent s.variant k = true ∧ seState s k = 0 ∧ s.pend.any (fun p => ofEngine k p.1) = false ∧ seCheck s k = true ∧ bankState s k false s.se[k].liveProg.val = 2 :=
  ⟨setBankState State.reset 3 false 0 2, .core 0, 3, by decide +kernel⟩

theorem wit_ServoBanksAndControl_9 : ∃ (s : State) (agent : Agent) (k : Engine), enginePresent s.variant k = true ∧ seState s k = 1 ∧ s.se[k].run = none :=
  ⟨modSe wSe2 0 (fun e => { e with outs := [(1, 5), (5, 6)] }), .core 0, 0, by decide +kernel⟩

theorem wit_ServoBanksAndControl_10 : ∃ (s : State) (agent : Agent) (k : Engine) (v : Word), enginePresent s.variant k = true ∧ sweepRunning s = false ∧ s.se[k].run = none ∧ s.pend = [(regSE_ENTRY k, v)] ∧ seCheck s k = true :=
  ⟨{ State.reset with pend := [(regSE_ENTRY 0, 0x30005)] }, .core 0, 0, 0x30005, by decide +kernel⟩

theorem wit_SpindleStartAndBrakeStates_1 : ∃ (s : State) (agent : Agent), spnClear s ∧ spnState s = 0 :=
  ⟨wSpn 0, .core 0, by decide +kernel⟩

theorem wit_SpindleStartAndBrakeStates_2 : ∃ (s : State) (agent : Agent), spnState s = 0 ∧ seState s 8 ≠ 1 :=
  ⟨State.reset, .core 0, by decide +kernel⟩

theorem wit_SpindleStartAndBrakeStates_3 : ∃ (s : State) (agent : Agent), spnClear s ∧ spnState s = 7 :=
  ⟨wSpn 7, .core 0, by decide +kernel⟩

theorem wit_SpindleStartAndBrakeStates_4 : ∃ (s : State), spnClear s ∧ spnState s = 1 :=
  ⟨wSpn 1, by decide +kernel⟩

theorem wit_SpindleStartAndBrakeStates_5 : ∃ (s : State), spnClear s ∧ spnState s = 2 ∧ 3 ≤ s.spn.still ∧ s.spn.startPend = true :=
  ⟨modSpn (wSpn 2) (fun q => { q with still := 3, startPend := true }), by decide +kernel⟩

theorem wit_SpindleStartAndBrakeStates_6 : ∃ (s : State) (busMv : Nat) (v0 v1 : Vector (BitVec 12) 3), spnClear s ∧ spnState s = 1 ∧ emfLow s (phaseVolts s v1) = false ∧ 2 ^ 32 * (polePairs s : Int) < (BitVec.ofNat 32 (emfAngle (phaseVolts s v1)) - BitVec.ofNat 32 (emfAngle (phaseVolts s v0))).toInt * 1000 :=
  ⟨wSpn 1, 12000, #v[2000, 1000, 1000], #v[1500, 1500, 0], by decide +kernel⟩

theorem wit_SpindleStartAndBrakeStates_7 : ∃ (s : State) (busMv : Nat) (v0 v1 : Vector (BitVec 12) 3), spnClear s ∧ spnState s = 2 ∧ emfLow s (phaseVolts s v1) = true ∧ s.spn.still < 2 :=
  ⟨wSpn 2, 12000, #v[100, 100, 100], #v[100, 100, 100], by decide +kernel⟩

theorem wit_SpindleStartAndBrakeStates_8 : ∃ (s : State) (busMv : Nat) (v0 v1 : Vector (BitVec 12) 3), spnClear s ∧ spnState s = 2 ∧ emfLow s (phaseVolts s v1) = true ∧ s.spn.still = 2 ∧ s.spn.startPend = false :=
  ⟨modSpn (wSpn 2) (fun q => { q with still := 2 }), 12000, #v[100, 100, 100], #v[100, 100, 100], by decide +kernel⟩

theorem wit_SpindleStartAndBrakeStates_9 : ∃ (s : State), spnState s = 2 ∧ s.spn.still < 3 :=
  ⟨wSpn 2, by decide +kernel⟩

theorem wit_SpindleStartAndBrakeStates_10 : ∃ (s : State), spnClear s ∧ spnState s = 4 :=
  ⟨wSpn 4, by decide +kernel⟩

theorem wit_SpindleStartAndBrakeStates_11 : ∃ (s : State), spnClear s ∧ spnState s = 6 ∧ 16 ≤ s.spn.agree ∧ s.spn.slew = 0 :=
  ⟨modSpn (wSpn 6) (fun q => { q with agree := 16, seqSpeed := 5 * 10 ^ 8, startPend := true }), by decide +kernel⟩

theorem wit_SpindleStartAndBrakeStates_12 : ∃ (s : State), spnClear s ∧ spnState s = 5 ∧ s.spn.slew = 0 ∧ s.spn.agree < 16 ∧ s.spn.seqSpeed = fget s fldSPN_START_HANDOVER * 10 ^ 8 :=
  ⟨modSpn (wSpn 5) (fun q => { q with seqSpeed := fget State.reset fldSPN_START_HANDOVER * 10 ^ 8 }), by decide +kernel⟩

theorem wit_SpindleStartAndBrakeStates_13 : ∃ (s : State), spnClear s ∧ spnState s = 6 ∧ s.spn.agree < 16 :=
  ⟨wSpn 6, by decide +kernel⟩

theorem wit_SpindleDriveAndSamples_1 : ∃ (s : State) (busMv : Nat), spnClear s ∧ spnState s = 7 ∧ s.pend = [] ∧ s.spn.sets = [] ∧ vecSq s.spn < vmodLim s * vmodLim s ∧ fget s fldSPN_STAT_I_LIM = 0 ∧ s.spn.ramp < s.spn.target * 10 ^ 8 :=
  ⟨modSpn (fput (wSpn 7) fldSPN_RAMP_ACC_MAX 300) (fun q => { q with target := 1200, ramp := 100, omega := 5, theta := 9, vd := 3 }), 12000, by decide +kernel⟩

theorem wit_SpindleDriveAndSamples_2 : ∃ (s : State) (iu iv vu vv vw : BitVec 12), seSrc s 8 0 = 4 ∧ seSrc s 8 1 = 0 ∧ seState s 8 = 1 ∧ s.se[8].pend[0] = none ∧ s.se[8].run = none ∧ xingArmed s 32 = true ∧ ((phaseCodes s iu iv).1 + (phaseCodes s iu iv).2).natAbs ≤ fget s fldSPN_SENSE_OC_TRIP * 2 ^ 4 :=
  ⟨wArm (fput (wSpn 7) (fldSE_TICK_CFG_SRC0 8) 4) 32, 5, 9, 1, 2, 3, by decide +kernel⟩

theorem wit_SpindleDriveAndSamples_3 : ∃ (s : State) (iu iv vu vv vw : BitVec 12), xingArmed s 32 = false ∧ ((phaseCodes s iu iv).1 + (phaseCodes s iu iv).2).natAbs ≤ fget s fldSPN_SENSE_OC_TRIP * 2 ^ 4 :=
  ⟨wSpn 7, 5, 9, 1, 2, 3, by decide +kernel⟩

theorem wit_SpindleDriveAndSamples_4 : ∃ (s : State), s.spn.tripNow = false ∧ s.spn.trips < 15 :=
  ⟨wSpn 7, by decide +kernel⟩

theorem wit_SpindleDriveAndSamples_5 : ∃ (s : State), s.spn.tripNow = false ∧ 15 ≤ s.spn.trips :=
  ⟨modSpn (wSpn 7) (fun q => { q with trips := 15 }), by decide +kernel⟩

theorem wit_SpindleDriveAndSamples_6 : ∃ (s : State) (iu iv : BitVec 12), spnClear s ∧ spnState s = 3 ∧ s.spn.pulses.length < 11 :=
  ⟨wSpn 3, 77, 99, by decide +kernel⟩

theorem wit_SpindleDriveAndSamples_7 : ∃ (s : State) (busMv : Nat), spnState s = 7 ∧ s.spn.target * 10 ^ 8 < s.spn.ramp ∧ fget s fldSPN_REGEN_PAUSE_ON < busMv ∧ fget s fldSPN_STAT_REGEN_PAUSE = 0 :=
  ⟨modSpn (fput (wSpn 7) fldSPN_REGEN_PAUSE_ON 50000) (fun q => { q with target := 600, ramp := 2000 * 10 ^ 8 }), 60000, by decide +kernel⟩

theorem wit_SledTargetsAndStops_1 : ∃ (s : State) (agent : Agent) (n : Head) (value : BitVec 32), headPresent s.variant n.val = true ∧ sledState s n = 1 ∧ s.sled[n].phase = .none ∧ value.toInt * 2 ^ 16 ≠ s.sled[n].p ∧ sledHeld s n = false ∧ s.sled[n].reversing = false :=
  ⟨wSld 1 id, .core 0, 1, 5000, by decide +kernel⟩

theorem wit_SledTargetsAndStops_2 : ∃ (s : State) (agent : Agent) (n : Head) (value : BitVec 32), headPresent s.variant n.val = true ∧ sledState s n = 1 ∧ s.sled[n].phase = .none ∧ value.toInt * 2 ^ 16 ≠ s.sled[n].p ∧ sledHeld s n = true :=
  ⟨modSe (wSld 1 id) 9 (fun e => { e with outs := [(0, 0xFF)] }), .core 0, 1, 5000, by decide +kernel⟩

theorem wit_SledTargetsAndStops_3 : ∃ (s : State) (agent : Agent) (n : Head) (value : BitVec 32), headPresent s.variant n.val = true ∧ sledState s n = 3 ∧ s.sled[n].stopping = false ∧ canReach s.sled[n] value.toInt = true :=
  ⟨wSld 3 (fun d => { d with prof := wProf, u := 2500, tgt := 100 }), .core 0, 1, 5000, by decide +kernel⟩

theorem wit_SledTargetsAndStops_4 : ∃ (s : State) (agent : Agent) (n : Head) (value : BitVec 32), headPresent s.variant n.val = true ∧ sledState s n = 3 ∧ s.sled[n].stopping = false ∧ canReach s.sled[n] value.toInt = false :=
  ⟨wSld 3 (fun d => { d with prof := wProf, u := 2500, tgt := 100 }), .core 0, 1, 2, by decide +kernel⟩

theorem wit_SledTargetsAndStops_5 : ∃ (s : State) (agent : Agent) (n : Head) (value : BitVec 32), headPresent s.variant n.val = true ∧ (sledState s n = 0 ∨ 5 ≤ sledState s n) ∧ s.hb[n].portion = none ∧ s.hb[n].openSteps = [] :=
  ⟨wSld 7 id, .core 0, 1, 2, by decide +kernel⟩

theorem wit_SledTargetsAndStops_6 : ∃ (s : State) (n : Head) (tgt : Int), sledState s n = 4 ∧ s.sled[n].stopping = false ∧ s.sled[n].next = some tgt ∧ tgt * 2 ^ 16 ≠ s.sled[n].p ∧ sledHeld s n = false :=
  ⟨wSld 4 (fun d => { d with next := some (-7) }), 1, -7, by decide +kernel⟩

theorem wit_SledTargetsAndStops_7 : ∃ (s : State) (agent : Agent) (n : Head), headPresent s.variant n.val = true ∧ (sledState s n = 8 ∨ (sledState s n = 1 ∧ s.sled[n].phase = .none)) ∧ fget s (fldSLD_STAT_SW n) = 1 :=
  ⟨fset (wSld 1 id) (fldSLD_STAT_SW 1), .core 0, 1, by decide +kernel⟩

theorem wit_SledTargetsAndStops_8 : ∃ (s : State) (agent : Agent) (n : Head), headPresent s.variant n.val = true ∧ (sledState s n = 8 ∨ (sledState s n = 1 ∧ s.sled[n].phase = .none)) ∧ fget s (fldSLD_STAT_SW n) = 0 :=
  ⟨wSld 8 id, .core 0, 1, by decide +kernel⟩

theorem wit_SledTargetsAndStops_9 : ∃ (s : State) (agent : Agent) (n : Head), headPresent s.variant n.val = true ∧ (sledState s n = 1 ∨ sledState s n = 3 ∨ sledState s n = 4 ∨ sledState s n = 5) ∧ 0 < s.sled[n].u :=
  ⟨wSld 3 (fun d => { d with u := 2500 }), .core 0, 1, by decide +kernel⟩

theorem wit_SledTargetsAndStops_10 : ∃ (s : State) (agent : Agent) (n : Head), headPresent s.variant n.val = true ∧ (sledState s n = 1 ∨ sledState s n = 2 ∨ sledState s n = 8) ∧ s.sled[n].u = 0 ∧ fget s (fldSLD_STAT_POS_VALID n) = 1 ∧ (rd s (regSLD_PARK n)).toInt * 2 ^ 16 ≠ s.sled[n].p :=
  ⟨fset (wSld 1 id) (fldSLD_STAT_POS_VALID 1), .core 0, 1, by decide +kernel⟩

theorem wit_SledTargetsAndStops_11 : ∃ (s : State) (agent : Agent) (n : Head), headPresent s.variant n.val = true ∧ sledState s n = 7 ∧ s.sled[n].parkSrc = [] :=
  ⟨wSld 7 id, .core 0, 1, by decide +kernel⟩

theorem wit_SledTargetsAndStops_12 : ∃ (s : State) (agent : Agent) (n : Head), headPresent s.variant n.val = true ∧ sledState s n = 7 ∧ s.sled[n].parkSrc ≠ [] :=
  ⟨wSld 7 (fun d => { d with parkSrc := [1] }), .core 0, 1, by decide +kernel⟩

theorem wit_SledTargetsAndStops_13 : ∃ (s : State) (agent : Agent) (n : Head), headPresent s.variant n.val = true ∧ sledState s n = 3 ∧ s.sled[n].stopping = false ∧ 0 < s.sled[n].u :=
  ⟨wSld 3 (fun d => { d with u := 2500 }), .core 0, 1, by decide +kernel⟩

theorem wit_SledTargetsAndStops_14 : ∃ (s : State) (agent : Agent) (n : Head), headPresent s.variant n.val = true ∧ sledState s n = 8 :=
  ⟨wSld 8 id, .core 0, 1, by decide +kernel⟩

theorem wit_SledTargetsAndStops_15 : ∃ (s : State) (agent : Agent) (n : Head), headPresent s.variant n.val = true ∧ sledState s n = 0 :=
  ⟨wSld 0 id, .core 0, 1, by decide +kernel⟩

theorem wit_SledTargetsAndStops_16 : ∃ (s : State) (agent : Agent) (n : Head), headPresent s.variant n.val = true ∧ (sledState s n = 1 ∨ sledState s n = 2 ∨ sledState s n = 8) ∧ s.sled[n].u = 0 ∧ fget s (fldSLD_CTL_HOLD_EN n) = 0 :=
  ⟨fclr (wSld 1 id) (fldSLD_CTL_HOLD_EN 1), .core 0, 1, by decide +kernel⟩

theorem wit_SledUpdatesAndSwitch_1 : ∃ (s : State) (n : Head) (va vb ia ib da db : Int), headPresent s.variant n.val = true ∧ sweepRunning s = true ∧ sledState s n = 3 ∧ s.sled[n].stopping = false ∧ stepOf (profileStep s.sled[n].prof s.sled[n].u (s.sled[n].tgt * 2 ^ 16 - s.sled[n].p).natAbs).1 < (s.sled[n].tgt * 2 ^ 16 - s.sled[n].p).natAbs ∧ s.sled[n].p + s.sled[n].dir * stepOf (profileStep s.sled[n].prof s.sled[n].u (s.sled[n].tgt * 2 ^ 16 - s.sled[n].p).natAbs).1 ≠ s.sled[n].tgt * 2 ^ 16 ∧ (profileStep s.sled[n].prof s.sled[n].u (s.sled[n].tgt * 2 ^ 16 - s.sled[n].p).natAbs).1 < 2500 * (fget s (fldSLD_STALL_EST_MIN n) : Int) :=
  ⟨fset (wSld 3 (fun d => { d with prof := wProf, u := 2500, tgt := 1000 })) fldSWP_STAT_STATE, 1, 0, 0, 0, 0, 0, 0, by decide +kernel⟩

theorem wit_SledUpdatesAndSwitch_2 : ∃ (s : State) (n : Head) (va vb ia ib da db : Int), headPresent s.variant n.val = true ∧ sweepRunning s = true ∧ sledState s n = 1 ∧ s.sled[n].stopping = false ∧ s.sled[n].u = 0 :=
  ⟨fset (wSld 1 id) fldSWP_STAT_STATE, 1, 5, 6, 7, 8, 9, 10, by decide +kernel⟩

theorem wit_SledUpdatesAndSwitch_3 : ∃ (s : State) (n : Head), s.sled[n].phase ≠ .detent ∧ sledState s n ≠ 3 ∧ sledState s n ≠ 4 :=
  ⟨wSld 1 id, 1, by decide +kernel⟩

theorem wit_SledUpdatesAndSwitch_4 : ∃ (s : State) (n : Head), s.sled[n].phase = .detent :=
  ⟨wSld 6 (fun d => { d with phase := .detent }), 1, by decide +kernel⟩

theorem wit_SledUpdatesAndSwitch_5 : ∃ (s : State) (n : Head), headPresent s.variant n.val = true ∧ s.sled[n].edges.length < 8 :=
  ⟨wSld 6 id, 1, by decide +kernel⟩

theorem wit_SledUpdatesAndSwitch_6 : ∃ (s : State) (n : Head), headPresent s.variant n.val = true ∧ sledState s n ≠ 5 ∧ sledState s n ≠ 6 ∧ 8 ≤ (s.sled[n].edges.filter (fun x => decide ((s.chipTime - x).toNat ≤ 2000000))).length :=
  ⟨wSld 1 (fun d => { d with edges := [0, 0, 0, 0, 0, 0, 0, 0] }), 1, by decide +kernel⟩

theorem wit_SledUpdatesAndSwitch_7 : ∃ (s : State) (n : Head) (level : Bool), headPresent s.variant n.val = true ∧ sledState s n = 5 ∧ s.sled[n].phase = .search ∧ fget s (fldSLD_STAT_SW n) = 0 ∧ level = fbit s (fldSLD_CTL_HOME_POL n) :=
  ⟨wSld 5 (fun d => { d with phase := .search, u := 100, dir := -1 }), 1, false, by decide +kernel⟩

theorem wit_SledUpdatesAndSwitch_8 : ∃ (s : State) (n : Head) (level : Bool), headPresent s.variant n.val = true ∧ sledState s n = 5 ∧ s.sled[n].phase = .latchOut ∧ fget s (fldSLD_STAT_SW n) = 1 ∧ level = !fbit s (fldSLD_CTL_HOME_POL n) :=
  ⟨fset (wSld 5 (fun d => { d with phase := .latchOut, u := 100, dir := 1 })) (fldSLD_STAT_SW 1), 1, true, by decide +kernel⟩

theorem wit_SweepProgramsLoadAndQueue_1 : ∃ (s : State) (agent : Agent) (value : BitVec 32), s.swpQueue.length + s.swpSubmits.length < 4 :=
  ⟨State.reset, .core 0, 0x1234, by decide +kernel⟩

theorem wit_SweepProgramsLoadAndQueue_2 : ∃ (s : State) (agent : Agent) (value : BitVec 32), 4 ≤ s.swpQueue.length + s.swpSubmits.length :=
  ⟨{ State.reset with swpSubmits := [1, 2, 3, 4] }, .core 0, 0x1234, by decide +kernel⟩

theorem wit_SweepProgramsLoadAndQueue_3 : ∃ (s : State), fget s fldSWP_STAT_LOADING = 0 ∧ s.swpSubmits ≠ [] :=
  ⟨{ State.reset with swpSubmits := [1, 2, 3, 4] }, by decide +kernel⟩

theorem wit_SweepProgramsLoadAndQueue_4 : ∃ (s : State) (layers : Fin 17) (addr : Nat) (rest : List Nat) (hb bs : List Byte) (steps : List SwpStep), fget s fldSWP_STAT_LOADING = 1 ∧ s.swpSubmits = addr :: rest ∧ memRead s 4 addr 16 = (s, some (hb, false)) ∧ memRead s 4 (addr + 16) (16 * bitsOf ((wordsOf 4 hb).getD 0 0).toNat 10 0) = (s, some (bs, false)) ∧ stepsOfWords (wordsOf (4 * bitsOf ((wordsOf 4 hb).getD 0 0).toNat 10 0) bs) = steps ∧ programFlags s layers.val (((wordsOf 4 hb).getD 2 0).toNat % 1024) (headerBad ((wordsOf 4 hb).getD 0 0) ((wordsOf 4 hb).getD 2 0) ((wordsOf 4 hb).getD 3 0)) steps = 0 ∧ steps.any isWrite = false :=
  ⟨wProgMem, 4, 0x1000000, [0x2000000], natLe 4 0x53570003 ++ natLe 4 0x99 ++ natLe 4 5 ++ natLe 4 0, (natLe 4 0x10000000 ++ natLe 4 0 ++ natLe 4 0 ++ natLe 4 7 ++ natLe 4 0xD0000000 ++ natLe 4 0 ++ natLe 4 0 ++ natLe 4 8 ++ natLe 4 0 ++ natLe 4 0 ++ natLe 4 0 ++ natLe 4 9), wProgSteps, by decide +kernel⟩

theorem wit_SweepProgramsLoadAndQueue_5 : ∃ (s : State) (layers : Fin 17) (addr : Nat) (rest : List Nat) (hb bs : List Byte) (steps : List SwpStep) (flags : Nat), fget s fldSWP_STAT_LOADING = 1 ∧ s.swpSubmits = addr :: rest ∧ memRead s 4 addr 16 = (s, some (hb, false)) ∧ memRead s 4 (addr + 16) (16 * bitsOf ((wordsOf 4 hb).getD 0 0).toNat 10 0) = (s, some (bs, false)) ∧ stepsOfWords (wordsOf (4 * bitsOf ((wordsOf 4 hb).getD 0 0).toNat 10 0) bs) = steps ∧ programFlags s layers.val (((wordsOf 4 hb).getD 2 0).toNat % 1024) (headerBad ((wordsOf 4 hb).getD 0 0) ((wordsOf 4 hb).getD 2 0) ((wordsOf 4 hb).getD 3 0)) steps = flags ∧ flags ≠ 0 ∧ bitsOf flags 2 2 = 0 :=
  ⟨{ wProgMem with mem := [] }, 4, 0x1000000, [0x2000000], List.replicate 16 0, [], [], 1, by decide +kernel⟩

theorem wit_SweepCommandsAndWindow_1 : ∃ (s : State) (agent : Agent) (p : SwpProgram) (rest : List SwpProgram), fget s fldSWP_STAT_STATE = 0 ∧ s.swpQueue = p :: rest :=
  ⟨{ State.reset with swpQueue := [wProg (wStep 9 0 0x40), wProg (wStep 0xD 0 0)] }, .core 0, wProg (wStep 9 0 0x40), [wProg (wStep 0xD 0 0)], by decide +kernel⟩

theorem wit_SweepCommandsAndWindow_2 : ∃ (s : State) (agent : Agent), fget s fldSWP_STAT_STATE = 0 ∧ s.swpQueue = [] :=
  ⟨State.reset, .core 0, by decide +kernel⟩

theorem wit_SweepCommandsAndWindow_3 : ∃ (s : State) (agent : Agent), sweepRunning s = true :=
  ⟨wSwp 3 1 (wStep 4 0 0), .core 0, by decide +kernel⟩

theorem wit_SweepCommandsAndWindow_4 : ∃ (s : State) (agent : Agent), fget s fldSWP_STAT_STATE = 2 :=
  ⟨wSwp 2 1 (wStep 4 0 0), .core 0, by decide +kernel⟩

theorem wit_SweepCommandsAndWindow_5 : ∃ (s : State), fget s fldSWP_STAT_STATE = 1 ∧ s.swpLate = false :=
  ⟨wSwp 1 1 (wStep 4 0 0), by decide +kernel⟩

theorem wit_SweepCommandsAndWindow_6 : ∃ (s : State), fget s fldSWP_STAT_STATE = 2 :=
  ⟨wSwp 2 1 (wStep 4 0 0), by decide +kernel⟩

theorem wit_SweepCommandsAndWindow_7 : ∃ (s : State), fget s fldSWP_STAT_STATE = 3 ∧ (List.finRange 8).all (fun n => !(headBusy s n)) = true :=
  ⟨wSwp 3 1 (wStep 4 0 0), by decide +kernel⟩

theorem wit_SweepCommandsAndWindow_8 : ∃ (s : State), fget s fldSWP_STAT_STATE = 4 ∧ verifyStale s = s ∧ sectorsDone s = true ∧ closeTiles (forEach (List.finRange 8) s verifyLost) = s ∧ s.tiles = [] ∧ ringsDone s = true ∧ s.shortHeads = [] :=
  ⟨wSwp 4 1 (wStep 4 0 0), by decide +kernel⟩

theorem wit_SweepCommandsAndWindow_9 : ∃ (s u : State), fget s fldSWP_STAT_STATE = 5 ∧ retrainDue s = false ∧ u = boundaryHeads (boundaryFields s) ∧ u.swpStop = true ∧ u.swpAborted = false :=
   ⟨{ wSwp 5 1 (wStep 4 0 0) with swpStop := true }, _, by decide +kernel, by decide +kernel, rfl, by decide +kernel⟩

theorem wit_SweepCommandsAndWindow_10 : ∃ (s u : State) (p : SwpProgram) (rest : List SwpProgram), fget s fldSWP_STAT_STATE = 5 ∧ retrainDue s = false ∧ u = boundaryHeads (boundaryFields s) ∧ u.swpStop = false ∧ u.swpQueue = p :: rest :=
   ⟨{ wSwp 5 1 (wStep 4 0 0) with swpQueue := [wProg (wStep 0xD 0 0)] }, _, _, _, by decide +kernel, by decide +kernel, rfl, by decide +kernel, rfl⟩

theorem wit_SweepCommandsAndWindow_11 : ∃ (s u : State) (agent : Agent), fget s fldSWP_STAT_STATE = 0 ∧ u = boundaryFields s ∧ (List.finRange 8).all (fun n => u.hb[n].portion.isNone && u.hb[n].openSteps.isEmpty) = true :=
   ⟨fput (fput State.reset fldSWP_HEAD_ONLINE_ONLINE 0xFF) fldSWP_HEAD_ONLINE_OFFLINE_PEND 0x22, _, .core 0, by decide +kernel, rfl, by decide +kernel⟩

theorem wit_SweepCommandsAndWindow_13 : ∃ (s : State) (n : Head) (p : SwpProgram), (fget s fldSWP_STAT_STATE = 1 ∨ fget s fldSWP_STAT_STATE = 2) ∧ s.swpCur = some p ∧ unbegun s p n = true ∧ fbitAt s fldSWP_HEAD_ONLINE_ONLINE n.val = true :=
  ⟨fput (modHb (wSwp 1 1 (wStep 4 0 0)) 1 (fun h => { h with portion := none, begun := 0 })) fldSWP_HEAD_ONLINE_ONLINE 0xFF, 1, wProg (wStep 4 0 0), by decide +kernel⟩

theorem wit_SweepCommandsAndWindow_14 : ∃ (s : State) (n : Head) (p : SwpProgram), (fget s fldSWP_STAT_STATE = 1 ∨ fget s fldSWP_STAT_STATE = 2) ∧ s.swpCur = some p ∧ unbegun s p n = true ∧ fbitAt s fldSWP_HEAD_ONLINE_ONLINE n.val = false :=
  ⟨modHb (fput (wSwp 1 1 (wStep 4 0 0)) fldSWP_HEAD_ONLINE_ONLINE 0) 1 (fun h => { h with portion := none, begun := 0 }), 1, wProg (wStep 4 0 0), by decide +kernel⟩

theorem wit_SweepControlSteps_1 : ∃ (s : State) (n : Head) (p : Portion) (i : Nat) (st : SwpStep) (rest : List (Nat × SwpStep)), s.hb[n].portion = some p ∧ p.steps = (i, st) :: rest ∧ stepOp st = 1 :=
  ⟨wSwp 2 1 (wStep 1 0 0), 1, wPort 1 (wStep 1 0 0), 3, wStep 1 0 0, [(4, wStep 0 0 0)], by decide +kernel⟩

theorem wit_SweepControlSteps_2 : ∃ (s : State) (n : Head) (p : Portion) (i : Nat) (st : SwpStep) (rest : List (Nat × SwpStep)), s.hb[n].portion = some p ∧ p.steps = (i, st) :: rest ∧ stepOp st = 13 :=
  ⟨wSwp 2 1 (wStep 13 0 0), 1, wPort 1 (wStep 13 0 0), 3, wStep 13 0 0, [(4, wStep 0 0 0)], by decide +kernel⟩

theorem wit_SweepControlSteps_3 : ∃ (s : State) (n : Head) (p : Portion) (i : Nat) (st : SwpStep) (rest : List (Nat × SwpStep)), s.hb[n].portion = some p ∧ p.steps = (i, st) :: rest ∧ stepOp st = 0 :=
  ⟨wSwp 2 1 (wStep 0 0 0), 1, wPort 1 (wStep 0 0 0), 3, wStep 0 0 0, [(4, wStep 0 0 0)], by decide +kernel⟩

theorem wit_SweepControlSteps_4 : ∃ (s : State) (n : Head) (p : Portion) (i : Nat) (st : SwpStep) (rest : List (Nat × SwpStep)), s.hb[n].portion = some p ∧ p.steps = (i, st) :: rest ∧ stepOp st = 2 :=
  ⟨modHb (wSwp 2 2 (wStep 2 5 0)) 1 (fun h => { h with sched := some 0x123456C5 }), 1, wPort 2 (wStep 2 5 0), 3, wStep 2 5 0, [(4, wStep 0 0 0)], by decide +kernel⟩

theorem wit_SweepControlSteps_5 : ∃ (s : State) (n : Head) (p : Portion) (i : Nat) (st : SwpStep) (rest : List (Nat × SwpStep)), s.hb[n].portion = some p ∧ p.steps = (i, st) :: rest ∧ stepSled st = false ∧ stepOp st = 3 :=
  ⟨wSwp 2 2 (wStep 3 0x8000000 0x12345C00), 1, wPort 2 (wStep 3 0x8000000 0x12345C00), 3, wStep 3 0x8000000 0x12345C00, [(4, wStep 0 0 0)], by decide +kernel⟩

theorem wit_SweepControlSteps_6 : ∃ (s : State) (n : Head) (p : Portion) (i : Nat) (st : SwpStep) (rest : List (Nat × SwpStep)), s.hb[n].portion = some p ∧ p.steps = (i, st) :: rest ∧ stepSled st = true ∧ sledState s n = 3 ∧ s.sled[n].stopping = false ∧ canReach s.sled[n] st.w2.toInt = true ∧ stepOp st = 3 :=
  ⟨{ wSwp 2 2 (wStep 3 0x2000000 0x12345C00) with sled := (wSld 3 (fun d => { d with dir := -1, prof := wProf, u := 2500, tgt := 100 })).sled, regs := (fput (wSwp 2 2 (wStep 3 0x2000000 0x12345C00)) (fldSLD_STAT_STATE 1) 3).regs }, 1, wPort 2 (wStep 3 0x2000000 0x12345C00), 3, wStep 3 0x2000000 0x12345C00, [(4, wStep 0 0 0)], by decide +kernel⟩

theorem wit_SweepControlSteps_7 : ∃ (s : State) (n : Head) (p : Portion) (i : Nat) (st : SwpStep) (rest : List (Nat × SwpStep)), s.hb[n].portion = some p ∧ p.steps = (i, st) :: rest ∧ stepOp st = 4 ∧ p.waiting = false ∧ stepCount st ≤ s.hb[n].goodRun :=
  ⟨wSwp 2 1 (wStep 4 0x10002 0), 1, wPort 1 (wStep 4 0x10002 0), 3, wStep 4 0x10002 0, [(4, wStep 0 0 0)], by decide +kernel⟩

theorem wit_SweepControlSteps_8 : ∃ (s : State) (n : Head) (p : Portion) (i : Nat) (st : SwpStep) (rest : List (Nat × SwpStep)), s.hb[n].portion = some p ∧ p.steps = (i, st) :: rest ∧ stepOp st = 4 ∧ p.waiting = false ∧ s.hb[n].goodRun < stepCount st :=
  ⟨wSwp 2 1 (wStep 4 0x10009 0), 1, wPort 1 (wStep 4 0x10009 0), 3, wStep 4 0x10009 0, [(4, wStep 0 0 0)], by decide +kernel⟩

theorem wit_SweepControlSteps_9 : ∃ (s : State) (n : Head) (p : Portion) (i : Nat) (st : SwpStep) (rest : List (Nat × SwpStep)), s.hb[n].portion = some p ∧ p.steps = (i, st) :: rest ∧ stepOp st = 5 ∧ windowFor s p = true ∧ frameBegun s n.val (stepWedge st) = false :=
  ⟨wSwp 2 1 (wStep 5 100 0), 1, wPort 1 (wStep 5 100 0), 3, wStep 5 100 0, [(4, wStep 0 0 0)], by decide +kernel⟩

theorem wit_SweepControlSteps_10 : ∃ (s : State) (n : Head) (p : Portion) (i : Nat) (st : SwpStep) (rest : List (Nat × SwpStep)), s.hb[n].portion = some p ∧ p.steps = (i, st) :: rest ∧ stepOp st = 5 ∧ windowFor s p = true ∧ frameBegun s n.val (stepWedge st) = true :=
  ⟨wr (wSwp 2 1 (wStep 5 100 0)) regSPN_ANGLE 0x80000000, 1, wPort 1 (wStep 5 100 0), 3, wStep 5 100 0, [(4, wStep 0 0 0)], by decide +kernel⟩

theorem wit_SweepControlSteps_11 : ∃ (s : State) (n : Head) (p : Portion) (i : Nat) (st : SwpStep) (rest : List (Nat × SwpStep)), s.hb[n].portion = some p ∧ p.steps = (i, st) :: rest ∧ stepOp st = 5 ∧ windowFor s p = true ∧ p.waiting = true :=
  ⟨modHb (wSwp 2 1 (wStep 5 100 0)) 1 (fun h => { h with portion := some { wPort 1 (wStep 5 100 0) with waiting := true } }), 1, { wPort 1 (wStep 5 100 0) with waiting := true }, 3, wStep 5 100 0, [(4, wStep 0 0 0)], by decide +kernel⟩

theorem wit_SweepControlSteps_12 : ∃ (s : State) (n : Head) (p : Portion) (i : Nat) (st : SwpStep) (rest : List (Nat × SwpStep)), s.hb[n].portion = some p ∧ p.steps = (i, st) :: rest ∧ stepOp st = 12 ∧ st.w0.getLsbD 27 = true :=
  ⟨wSwp 2 1 (wStep 12 0x8001234 0), 1, wPort 1 (wStep 12 0x8001234 0), 3, wStep 12 0x8001234 0, [(4, wStep 0 0 0)], by decide +kernel⟩

theorem wit_SweepDataSteps_1 : ∃ (s : State) (n : Head) (p : Portion) (i : Nat) (st : SwpStep) (rest : List (Nat × SwpStep)), s.hb[n].portion = some p ∧ p.steps = (i, st) :: rest ∧ stepOp st = 6 ∧ windowFor s p = true ∧ dataShort s n st = 0 ∧ stepSpan st = none ∧ ([0, 1, 2, 3] : List (Fin 4)).all (fun sp => s.ch[headChan n sp].sync == .idle && s.ch[headChan n sp].queue.isEmpty) = true :=
  ⟨wSwpR 2 1 (wStep 6 3 0x00100000), 1, wPort 1 (wStep 6 3 0x00100000), 3, wStep 6 3 0x00100000, [(4, wStep 0 0 0)], by decide +kernel⟩

theorem wit_SweepDataSteps_2 : ∃ (s : State) (n : Head) (p : Portion) (i : Nat) (st : SwpStep) (rest : List (Nat × SwpStep)), s.hb[n].portion = some p ∧ p.steps = (i, st) :: rest ∧ stepOp st = 7 ∧ windowFor s p = true ∧ dataShort s n st = 0 ∧ stepSpan st = none ∧ ([0, 1, 2, 3] : List (Fin 4)).all (fun sp => s.ch[headChan n sp].sync == .idle && s.ch[headChan n sp].queue.isEmpty) = true :=
  ⟨wSwpR 2 1 (wStep 7 3 0x00100000), 1, wPort 1 (wStep 7 3 0x00100000), 3, wStep 7 3 0x00100000, [(4, wStep 0 0 0)], by decide +kernel⟩

theorem wit_SweepDataSteps_3 : ∃ (s : State) (n : Head) (p : Portion) (i : Nat) (st : SwpStep) (rest : List (Nat × SwpStep)), s.hb[n].portion = some p ∧ p.steps = (i, st) :: rest ∧ stepOp st = 8 ∧ windowFor s p = true ∧ dataShort s n st = 0 ∧ stepSpan st = none ∧ ([0, 1, 2, 3] : List (Fin 4)).all (fun sp => s.ch[headChan n sp].sync == .idle && s.ch[headChan n sp].queue.isEmpty) = true :=
  ⟨wSwpR 2 1 (wStep 8 3 0x00100000), 1, wPort 1 (wStep 8 3 0x00100000), 3, wStep 8 3 0x00100000, [(4, wStep 0 0 0)], by decide +kernel⟩

theorem wit_SweepDataSteps_4 : ∃ (s : State) (n : Head) (p : Portion) (i : Nat) (st : SwpStep) (rest : List (Nat × SwpStep)), s.hb[n].portion = some p ∧ p.steps = (i, st) :: rest ∧ stepOp st = 9 ∧ windowFor s p = true ∧ dataShort s n st = 0 ∧ s.wc[n].slots = [] :=
  ⟨wSwpR 2 2 (wStep 9 0x8000000 0x00100000), 1, wPort 2 (wStep 9 0x8000000 0x00100000), 3, wStep 9 0x8000000 0x00100000, [(4, wStep 0 0 0)], by decide +kernel⟩

theorem wit_SweepDataSteps_5 : ∃ (s : State) (n : Head) (p : Portion) (i : Nat) (st : SwpStep) (rest : List (Nat × SwpStep)), s.hb[n].portion = some p ∧ p.steps = (i, st) :: rest ∧ stepOp st = 10 ∧ windowFor s p = true ∧ dataShort s n st = 0 ∧ s.wc[n].slots = [] :=
  ⟨wSwpR 2 2 (wStep 10 0x8000001 0x00100000), 1, wPort 2 (wStep 10 0x8000001 0x00100000), 3, wStep 10 0x8000001 0x00100000, [(4, wStep 0 0 0)], by decide +kernel⟩

theorem wit_SweepDataSteps_6 : ∃ (s : State) (n : Head) (p : Portion) (i : Nat) (st : SwpStep) (rest : List (Nat × SwpStep)), s.hb[n].portion = some p ∧ p.steps = (i, st) :: rest ∧ stepOp st = 6 ∧ windowFor s p = true ∧ dataShort s n st ≠ 0 ∧ stepSpan st = none ∧ s.shortHeads.contains (p.ref.seq, n.val) = false :=
  ⟨{ wSwpR 2 1 (wStep 6 3 0x00100000) with winFlags := (false, false, []) }, 1, wPort 1 (wStep 6 3 0x00100000), 3, wStep 6 3 0x00100000, [(4, wStep 0 0 0)], by decide +kernel⟩

theorem wit_SweepDataSteps_7 : ∃ (s : State) (n : Head) (p : Portion) (i : Nat) (st : SwpStep) (rest : List (Nat × SwpStep)), s.hb[n].portion = some p ∧ p.steps = (i, st) :: rest ∧ stepOp st = 9 ∧ windowFor s p = true ∧ dataShort s n st ≠ 0 ∧ stepSpan st = none ∧ s.shortHeads.contains (p.ref.seq, n.val) = false :=
  ⟨{ wSwpR 2 1 (wStep 9 3 0x00100000) with winFlags := (false, false, []) }, 1, wPort 1 (wStep 9 3 0x00100000), 3, wStep 9 3 0x00100000, [(4, wStep 0 0 0)], by decide +kernel⟩

theorem wit_SweepDataSteps_8 : ∃ (s : State) (n : Head) (p : Portion) (i : Nat) (st : SwpStep) (rest : List (Nat × SwpStep)), s.hb[n].portion = some p ∧ p.steps = (i, st) :: rest ∧ stepOp st = 11 ∧ windowFor s p = true ∧ frameBegun s n.val (stepWedge st) = false :=
  ⟨wSwpR 2 3 (wStep 11 0x100800 0), 1, wPort 3 (wStep 11 0x100800 0), 3, wStep 11 0x100800 0, [(4, wStep 0 0 0)], by decide +kernel⟩

theorem wit_ControlFifosKeepTheirRecords_1 : ∃ (s u : State) (f : FifoId) (record : BitVec 256), fifoCount s f < fifoSize s f ∧ s.fifo[f].waiting = [] ∧ s.fifo[f].stage = [] ∧ memWrite s 4 (fifoPlace s f s.fifo[f].wk) (recordBytes record) = some u :=
   ⟨wFifo 2, (memWrite (wFifo 2) 4 (fifoPlace (wFifo 2) 9 0) (recordBytes 0x123456789)).get (by decide +kernel), 9, 0x123456789, by decide +kernel, by decide +kernel, by decide +kernel, (Option.some_get _).symm⟩

theorem wit_ControlFifosKeepTheirRecords_2 : ∃ (s : State) (f : FifoId) (record : BitVec 256), fifoSize s f ≤ fifoCount s f ∧ f.val < 10 :=
  ⟨wFifo 16, 9, 0x123456789, by decide +kernel⟩

theorem wit_ControlFifosKeepTheirRecords_3 : ∃ (s : State) (record : BitVec 256), fifoSize s 13 ≤ fifoCount s 13 :=
  ⟨fput (fput State.reset (fldFIFO_STAT_COUNT 13) 16) (fldFIFO_CFG_SIZE_LOG2 13) 4, 5, by decide +kernel⟩

theorem wit_ControlFifosKeepTheirRecords_4 : ∃ (s : State) (f : FifoId) (record : BitVec 256), s.fifo[f].stage.length < fifoDepth f ∧ fget s (fldFIFO_STAT_COUNT f) < 2 ^ 16 :=
  ⟨wFifo 2, 9, 0x123456789, by decide +kernel⟩

theorem wit_ControlFifosKeepTheirRecords_5 : ∃ (s : State) (f : FifoId) (record : BitVec 256), fifoDepth f ≤ s.fifo[f].stage.length ∧ f.val < 10 :=
  ⟨modFifo (wFifo 2) 9 (fun q => { q with stage := [1, 2] }), 9, 0x123456789, by decide +kernel⟩

theorem wit_ControlFifosKeepTheirRecords_6 : ∃ (s : State) (agent : Agent) (f : FifoId) (r : BitVec 256) (rest : List (BitVec 256)), absentAt s.variant (fifoBase f) = false ∧ fget s (fldFIFO_CFG_CONSUMER f) = agent.id ∧ s.fifo[f].stage = r :: rest ∧ fifoHeadStaged s.fifo[f] = true ∧ 0 < fifoCount s f ∧ s.fifo[f].waiting = [] :=
  ⟨modFifo (wFifo 2) 9 (fun q => { q with rk := 7, wk := 9, stage := [0x55, 0x66] }), .core 3, 9, 0x55, [0x66], by decide +kernel⟩

theorem wit_ControlFifosKeepTheirRecords_7 : ∃ (s : State) (agent : Agent) (f : FifoId) (bs : List Byte), absentAt s.variant (fifoBase f) = false ∧ fget s (fldFIFO_CFG_CONSUMER f) = agent.id ∧ fifoHeadStaged s.fifo[f] = false ∧ memRead s 4 (fifoPlace s f s.fifo[f].rk) 32 = (s, some (bs, false)) ∧ 0 < fifoCount s f ∧ s.fifo[f].waiting = [] :=
  ⟨modFifo (wFifo 2) 9 (fun q => { q with rk := 7, wk := 9 }), .core 3, 9, List.replicate 32 0, by decide +kernel⟩

theorem wit_ControlFifosKeepTheirRecords_8 : ∃ (s : State) (agent : Agent) (f : FifoId), absentAt s.variant (fifoBase f) = false ∧ fget s (fldFIFO_CFG_CONSUMER f) ≠ agent.id :=
  ⟨wFifo 2, .core 4, 9, by decide +kernel⟩

theorem wit_ControlFifosKeepTheirRecords_9 : ∃ (s : State) (agent : Agent) (f : FifoId), fget s (fldFIFO_CFG_CONSUMER f) = agent.id ∧ fifoCount s f = 0 :=
  ⟨wFifo 0, .core 3, 9, by decide +kernel⟩

theorem wit_ControlFifosKeepTheirRecords_10 : ∃ (s : State) (agent : Agent) (f : FifoId) (reg : FifoReg) (value : Word), absentAt s.variant (fifoRegAddr f reg) = false ∧ fifoCount s f = 0 :=
  ⟨wFifo 0, .core 3, 9, .cfg, 0x0300001F, by decide +kernel⟩

theorem wit_ControlFifosKeepTheirRecords_11 : ∃ (s : State) (agent : Agent) (f : FifoId) (reg : FifoReg) (value : Word), absentAt s.variant (fifoRegAddr f reg) = false ∧ fifoCount s f ≠ 0 :=
  ⟨wFifo 3, .core 3, 9, .cfg, 0x0300001F, by decide +kernel⟩

theorem wit_CoreComputes_1 : ∃ (s u : State) (p : Fin 4) (w : Word), (coreAt s u p w) ∧ (dxOp w = 0x01) :=
   ⟨wDx 0x02510C00, (fetch (wDx 0x02510C00) 1).1, 1, 0x02510C00, by decide +kernel⟩

theorem wit_CoreComputes_2 : ∃ (s u : State) (p : Fin 4) (w : Word), (coreAt s u p w) ∧ (dxOp w = 0x02) :=
   ⟨wDx 0x04510C00, (fetch (wDx 0x04510C00) 1).1, 1, 0x04510C00, by decide +kernel⟩

theorem wit_CoreComputes_3 : ∃ (s u : State) (p : Fin 4) (w : Word), (coreAt s u p w) ∧ (dxOp w = 0x03) :=
   ⟨wDx 0x06510C00, (fetch (wDx 0x06510C00) 1).1, 1, 0x06510C00, by decide +kernel⟩

theorem wit_CoreComputes_4 : ∃ (s u : State) (p : Fin 4) (w : Word), (coreAt s u p w) ∧ (dxOp w = 0x04) :=
   ⟨wDx 0x08510C00, (fetch (wDx 0x08510C00) 1).1, 1, 0x08510C00, by decide +kernel⟩

theorem wit_CoreComputes_5 : ∃ (s u : State) (p : Fin 4) (w : Word), (coreAt s u p w) ∧ (dxOp w = 0x05) :=
   ⟨wDx 0x0A510C00, (fetch (wDx 0x0A510C00) 1).1, 1, 0x0A510C00, by decide +kernel⟩

theorem wit_CoreComputes_6 : ∃ (s u : State) (p : Fin 4) (w : Word), (coreAt s u p w) ∧ (dxOp w = 0x06) :=
   ⟨wDx 0x0C510C00, (fetch (wDx 0x0C510C00) 1).1, 1, 0x0C510C00, by decide +kernel⟩

theorem wit_CoreComputes_7 : ∃ (s u : State) (p : Fin 4) (w : Word), (coreAt s u p w) ∧ (dxOp w = 0x07) :=
   ⟨wDx 0x0E510C00, (fetch (wDx 0x0E510C00) 1).1, 1, 0x0E510C00, by decide +kernel⟩

theorem wit_CoreComputes_8 : ∃ (s u : State) (p : Fin 4) (w : Word), (coreAt s u p w) ∧ (dxOp w = 0x08) :=
   ⟨wDx 0x10510C00, (fetch (wDx 0x10510C00) 1).1, 1, 0x10510C00, by decide +kernel⟩

theorem wit_CoreComputes_9 : ∃ (s u : State) (p : Fin 4) (w : Word), (coreAt s u p w) ∧ (dxOp w = 0x09) :=
   ⟨wDx 0x12510C00, (fetch (wDx 0x12510C00) 1).1, 1, 0x12510C00, by decide +kernel⟩

theorem wit_CoreComputes_10 : ∃ (s u : State) (p : Fin 4) (w : Word), (coreAt s u p w) ∧ (dxOp w = 0x0A) :=
   ⟨wDx 0x14510C00, (fetch (wDx 0x14510C00) 1).1, 1, 0x14510C00, by decide +kernel⟩

theorem wit_CoreComputes_11 : ∃ (s u : State) (p : Fin 4) (w : Word), (coreAt s u p w) ∧ (dxOp w = 0x0B) :=
   ⟨wDx 0x16510C00, (fetch (wDx 0x16510C00) 1).1, 1, 0x16510C00, by decide +kernel⟩

theorem wit_CoreComputes_12 : ∃ (s u : State) (p : Fin 4) (w : Word), (coreAt s u p w) ∧ (dxOp w = 0x0C) :=
   ⟨wDx 0x18510C00, (fetch (wDx 0x18510C00) 1).1, 1, 0x18510C00, by decide +kernel⟩

theorem wit_CoreComputes_13 : ∃ (s u : State) (p : Fin 4) (w : Word), (coreAt s u p w) ∧ (dxOp w = 0x0D) :=
   ⟨wDx 0x1A510C00, (fetch (wDx 0x1A510C00) 1).1, 1, 0x1A510C00, by decide +kernel⟩

theorem wit_CoreComputes_14 : ∃ (s u : State) (p : Fin 4) (w : Word), (coreAt s u p w) ∧ (dxOp w = 0x0E) :=
   ⟨wDx 0x1C510C00, (fetch (wDx 0x1C510C00) 1).1, 1, 0x1C510C00, by decide +kernel⟩

theorem wit_CoreComputes_15 : ∃ (s u : State) (p : Fin 4) (w : Word), (coreAt s u p w) ∧ (dxOp w = 0x0F) :=
   ⟨wDx 0x1E510C00, (fetch (wDx 0x1E510C00) 1).1, 1, 0x1E510C00, by decide +kernel⟩

theorem wit_CoreComputes_16 : ∃ (s u : State) (p : Fin 4) (w : Word), (coreAt s u p w) ∧ (dxOp w = 0x10) :=
   ⟨wDx 0x20510C00, (fetch (wDx 0x20510C00) 1).1, 1, 0x20510C00, by decide +kernel⟩

theorem wit_CoreComputes_17 : ∃ (s u : State) (p : Fin 4) (w : Word), (coreAt s u p w) ∧ (dxOp w = 0x11) :=
   ⟨wDx 0x22510C00, (fetch (wDx 0x22510C00) 1).1, 1, 0x22510C00, by decide +kernel⟩

theorem wit_CoreComputes_18 : ∃ (s u : State) (p : Fin 4) (w : Word), (coreAt s u p w) ∧ (dxOp w = 0x12) :=
   ⟨wDx 0x24510C00, (fetch (wDx 0x24510C00) 1).1, 1, 0x24510C00, by decide +kernel⟩

theorem wit_CoreComputes_19 : ∃ (s u : State) (p : Fin 4) (w : Word), (coreAt s u p w) ∧ (dxOp w = 0x13) :=
   ⟨wDx 0x26510000, (fetch (wDx 0x26510000) 1).1, 1, 0x26510000, by decide +kernel⟩

theorem wit_CoreComputes_20 : ∃ (s u : State) (p : Fin 4) (w : Word), (coreAt s u p w) ∧ (dxOp w = 0x18) :=
   ⟨wDx 0x30510C00, (fetch (wDx 0x30510C00) 1).1, 1, 0x30510C00, by decide +kernel⟩

theorem wit_CoreComputes_21 : ∃ (s u : State) (p : Fin 4) (w : Word), (coreAt s u p w) ∧ (dxOp w = 0x19) :=
   ⟨wDx 0x32510C00, (fetch (wDx 0x32510C00) 1).1, 1, 0x32510C00, by decide +kernel⟩

theorem wit_CoreComputes_22 : ∃ (s u : State) (p : Fin 4) (w : Word), (coreAt s u p w) ∧ (dxOp w = 0x1A) :=
   ⟨wDx 0x34510C00, (fetch (wDx 0x34510C00) 1).1, 1, 0x34510C00, by decide +kernel⟩

theorem wit_CoreComputes_23 : ∃ (s u : State) (p : Fin 4) (w : Word), (coreAt s u p w) ∧ (dxOp w = 0x1B) :=
   ⟨wDx 0x36510C00, (fetch (wDx 0x36510C00) 1).1, 1, 0x36510C00, by decide +kernel⟩

theorem wit_CoreComputes_24 : ∃ (s u : State) (p : Fin 4) (w : Word), (coreAt s u p w) ∧ (dxOp w = 0x1C) :=
   ⟨wDx 0x38510023, (fetch (wDx 0x38510023) 1).1, 1, 0x38510023, by decide +kernel⟩

theorem wit_CoreComputes_25 : ∃ (s u : State) (p : Fin 4) (w : Word), (coreAt s u p w) ∧ (dxOp w = 0x1D) :=
   ⟨wDx 0x3A510023, (fetch (wDx 0x3A510023) 1).1, 1, 0x3A510023, by decide +kernel⟩

theorem wit_CoreComputes_26 : ∃ (s u : State) (p : Fin 4) (w : Word), (coreAt s u p w) ∧ (dxOp w = 0x1E) :=
   ⟨wDx 0x3C510023, (fetch (wDx 0x3C510023) 1).1, 1, 0x3C510023, by decide +kernel⟩

theorem wit_CoreComputes_27 : ∃ (s u : State) (p : Fin 4) (w : Word), (coreAt s u p w) ∧ (dxOp w = 0x1F) :=
   ⟨wDx 0x3E510C00, (fetch (wDx 0x3E510C00) 1).1, 1, 0x3E510C00, by decide +kernel⟩

theorem wit_CoreComputes_28 : ∃ (s u : State) (p : Fin 4) (w : Word), (coreAt s u p w) ∧ (dxOp w = 0x20) :=
   ⟨wDx 0x40510C00, (fetch (wDx 0x40510C00) 1).1, 1, 0x40510C00, by decide +kernel⟩

theorem wit_CoreComputes_29 : ∃ (s u : State) (p : Fin 4) (w : Word), (coreAt s u p w) ∧ (dxOp w = 0x21) :=
   ⟨wDx 0x42510C00, (fetch (wDx 0x42510C00) 1).1, 1, 0x42510C00, by decide +kernel⟩

theorem wit_CoreComputes_30 : ∃ (s u : State) (p : Fin 4) (w : Word), (coreAt s u p w) ∧ (dxOp w = 0x24) :=
   ⟨wDx 0x485F8C4D, (fetch (wDx 0x485F8C4D) 1).1, 1, 0x485F8C4D, by decide +kernel⟩

theorem wit_CoreComputes_31 : ∃ (s u : State) (p : Fin 4) (w : Word), (coreAt s u p w) ∧ (dxOp w = 0x25) :=
   ⟨wDx 0x4A5F8C4D, (fetch (wDx 0x4A5F8C4D) 1).1, 1, 0x4A5F8C4D, by decide +kernel⟩

theorem wit_CoreComputes_32 : ∃ (s u : State) (p : Fin 4) (w : Word), (coreAt s u p w) ∧ (dxOp w = 0x63) :=
   ⟨wDx 0xC6500000, (fetch (wDx 0xC6500000) 1).1, 1, 0xC6500000, by decide +kernel⟩

theorem wit_CoreComputes_33 : ∃ (s u : State) (p : Fin 4) (w : Word), (coreAt s u p w) ∧ (dxOp w = 0x49) :=
   ⟨wDx 0x9200007F, (fetch (wDx 0x9200007F) 1).1, 1, 0x9200007F, by decide +kernel⟩

theorem wit_CoreMemoryAccesses_1 : ∃ (s u : State) (p : Fin 4) (w : Word) (v : State) (bs : List Byte), (coreAt s u p w) ∧ (dxOp w = 0x28) ∧ (accessOk u.core[p] 1 (dxAddr u.core[p] w).toNat 1 = true) ∧ (regionOf (dxAddr u.core[p] w).toNat ≠ .device) ∧ (alignedSpace (dxAddr u.core[p] w).toNat = true → (dxAddr u.core[p] w).toNat % 1 = 0) ∧ (normalOk u (dxAddr u.core[p] w).toNat 1 false = true) ∧ (l1Read u p .data (dxAddr u.core[p] w).toNat 1 = (v, some (bs, false))) :=
   ⟨wDx 0x50508000, (fetch (wDx 0x50508000) 1).1, 1, 0x50508000, (fetch (wDx 0x50508000) 1).1, [0xF1], by decide +kernel⟩

theorem wit_CoreMemoryAccesses_2 : ∃ (s u : State) (p : Fin 4) (w : Word) (v : State) (bs : List Byte), (coreAt s u p w) ∧ (dxOp w = 0x29) ∧ (accessOk u.core[p] 1 (dxAddr u.core[p] w).toNat 1 = true) ∧ (regionOf (dxAddr u.core[p] w).toNat ≠ .device) ∧ (alignedSpace (dxAddr u.core[p] w).toNat = true → (dxAddr u.core[p] w).toNat % 1 = 0) ∧ (normalOk u (dxAddr u.core[p] w).toNat 1 false = true) ∧ (l1Read u p .data (dxAddr u.core[p] w).toNat 1 = (v, some (bs, false))) :=
   ⟨wDx 0x52508000, (fetch (wDx 0x52508000) 1).1, 1, 0x52508000, (fetch (wDx 0x52508000) 1).1, [0xF1], by decide +kernel⟩

theorem wit_CoreMemoryAccesses_3 : ∃ (s u : State) (p : Fin 4) (w : Word) (v : State) (bs : List Byte), (coreAt s u p w) ∧ (dxOp w = 0x2A) ∧ (accessOk u.core[p] 1 (dxAddr u.core[p] w).toNat 2 = true) ∧ (regionOf (dxAddr u.core[p] w).toNat ≠ .device) ∧ (alignedSpace (dxAddr u.core[p] w).toNat = true → (dxAddr u.core[p] w).toNat % 2 = 0) ∧ (normalOk u (dxAddr u.core[p] w).toNat 2 false = true) ∧ (l1Read u p .data (dxAddr u.core[p] w).toNat 2 = (v, some (bs, false))) :=
   ⟨wDx 0x54508000, (fetch (wDx 0x54508000) 1).1, 1, 0x54508000, (fetch (wDx 0x54508000) 1).1, [0xF1, 2], by decide +kernel⟩

theorem wit_CoreMemoryAccesses_4 : ∃ (s u : State) (p : Fin 4) (w : Word) (v : State) (bs : List Byte), (coreAt s u p w) ∧ (dxOp w = 0x2B) ∧ (accessOk u.core[p] 1 (dxAddr u.core[p] w).toNat 2 = true) ∧ (regionOf (dxAddr u.core[p] w).toNat ≠ .device) ∧ (alignedSpace (dxAddr u.core[p] w).toNat = true → (dxAddr u.core[p] w).toNat % 2 = 0) ∧ (normalOk u (dxAddr u.core[p] w).toNat 2 false = true) ∧ (l1Read u p .data (dxAddr u.core[p] w).toNat 2 = (v, some (bs, false))) :=
   ⟨wDx 0x56508000, (fetch (wDx 0x56508000) 1).1, 1, 0x56508000, (fetch (wDx 0x56508000) 1).1, [0xF1, 2], by decide +kernel⟩

theorem wit_CoreMemoryAccesses_5 : ∃ (s u : State) (p : Fin 4) (w : Word) (v : State) (bs : List Byte), (coreAt s u p w) ∧ (dxOp w = 0x2C) ∧ (accessOk u.core[p] 1 (dxAddr u.core[p] w).toNat 4 = true) ∧ (regionOf (dxAddr u.core[p] w).toNat ≠ .device) ∧ (alignedSpace (dxAddr u.core[p] w).toNat = true → (dxAddr u.core[p] w).toNat % 4 = 0) ∧ (normalOk u (dxAddr u.core[p] w).toNat 4 false = true) ∧ (l1Read u p .data (dxAddr u.core[p] w).toNat 4 = (v, some (bs, false))) :=
   ⟨wDx 0x58508000, (fetch (wDx 0x58508000) 1).1, 1, 0x58508000, (fetch (wDx 0x58508000) 1).1, [0xF1, 2, 3, 4], by decide +kernel⟩

theorem wit_CoreMemoryAccesses_6 : ∃ (s u : State) (p : Fin 4) (w : Word) (v : State) (bs : List Byte), (coreAt s u p w) ∧ (dxOp w = 0x2D) ∧ (accessOk u.core[p] 1 (dxAddr u.core[p] w).toNat 4 = true) ∧ (regionOf (dxAddr u.core[p] w).toNat ≠ .device) ∧ (alignedSpace (dxAddr u.core[p] w).toNat = true → (dxAddr u.core[p] w).toNat % 4 = 0) ∧ (normalOk u (dxAddr u.core[p] w).toNat 4 false = true) ∧ (l1Read u p .data (dxAddr u.core[p] w).toNat 4 = (v, some (bs, false))) :=
   ⟨wDx 0x5A508000, (fetch (wDx 0x5A508000) 1).1, 1, 0x5A508000, (fetch (wDx 0x5A508000) 1).1, [0xF1, 2, 3, 4], by decide +kernel⟩

theorem wit_CoreMemoryAccesses_7 : ∃ (s u : State) (p : Fin 4) (w : Word) (v : State) (bs : List Byte), (coreAt s u p w) ∧ (dxOp w = 0x2E) ∧ (accessOk u.core[p] 1 (dxAddr u.core[p] w).toNat 8 = true) ∧ (regionOf (dxAddr u.core[p] w).toNat ≠ .device) ∧ (alignedSpace (dxAddr u.core[p] w).toNat = true → (dxAddr u.core[p] w).toNat % 8 = 0) ∧ (normalOk u (dxAddr u.core[p] w).toNat 8 false = true) ∧ (l1Read u p .data (dxAddr u.core[p] w).toNat 8 = (v, some (bs, false))) :=
   ⟨wDx 0x5C508000, (fetch (wDx 0x5C508000) 1).1, 1, 0x5C508000, (fetch (wDx 0x5C508000) 1).1, [0xF1, 2, 3, 4, 5, 6, 7, 0x88], by decide +kernel⟩

theorem wit_CoreMemoryAccesses_8 : ∃ (s u : State) (p : Fin 4) (w : Word) (v : State) (bs : List Byte), (coreAt s u p w) ∧ (dxOp w = 0x40) ∧ (accessOk u.core[p] 1 (dxAddr u.core[p] w).toNat 8 = true) ∧ (regionOf (dxAddr u.core[p] w).toNat ≠ .device) ∧ (alignedSpace (dxAddr u.core[p] w).toNat = true → (dxAddr u.core[p] w).toNat % 8 = 0) ∧ (normalOk u (dxAddr u.core[p] w).toNat 8 false = true) ∧ (l1Read u p .data (dxAddr u.core[p] w).toNat 8 = (v, some (bs, false))) :=
   ⟨wDx 0x80508000, (fetch (wDx 0x80508000) 1).1, 1, 0x80508000, (fetch (wDx 0x80508000) 1).1, [0xF1, 2, 3, 4, 5, 6, 7, 0x88], by decide +kernel⟩

theorem wit_CoreMemoryAccesses_9 : ∃ (s u : State) (p : Fin 4) (w : Word), (coreAt s u p w) ∧ (dxOp w = 0x30) ∧ (accessOk u.core[p] 2 (dxAddr u.core[p] w).toNat 1 = true) ∧ (regionOf (dxAddr u.core[p] w).toNat = .tcm) ∧ ((dxAddr u.core[p] w).toNat % 1 = 0) ∧ (normalOk u (dxAddr u.core[p] w).toNat 1 true = true) :=
   ⟨wDx 0x60308000, (fetch (wDx 0x60308000) 1).1, 1, 0x60308000, by decide +kernel⟩

theorem wit_CoreMemoryAccesses_10 : ∃ (s u : State) (p : Fin 4) (w : Word), (coreAt s u p w) ∧ (dxOp w = 0x31) ∧ (accessOk u.core[p] 2 (dxAddr u.core[p] w).toNat 2 = true) ∧ (regionOf (dxAddr u.core[p] w).toNat = .tcm) ∧ ((dxAddr u.core[p] w).toNat % 2 = 0) ∧ (normalOk u (dxAddr u.core[p] w).toNat 2 true = true) :=
   ⟨wDx 0x62308000, (fetch (wDx 0x62308000) 1).1, 1, 0x62308000, by decide +kernel⟩

theorem wit_CoreMemoryAccesses_11 : ∃ (s u : State) (p : Fin 4) (w : Word), (coreAt s u p w) ∧ (dxOp w = 0x32) ∧ (accessOk u.core[p] 2 (dxAddr u.core[p] w).toNat 4 = true) ∧ (regionOf (dxAddr u.core[p] w).toNat = .tcm) ∧ ((dxAddr u.core[p] w).toNat % 4 = 0) ∧ (normalOk u (dxAddr u.core[p] w).toNat 4 true = true) :=
   ⟨wDx 0x64308000, (fetch (wDx 0x64308000) 1).1, 1, 0x64308000, by decide +kernel⟩

theorem wit_CoreMemoryAccesses_12 : ∃ (s u : State) (p : Fin 4) (w : Word), (coreAt s u p w) ∧ (dxOp w = 0x33) ∧ (accessOk u.core[p] 2 (dxAddr u.core[p] w).toNat 8 = true) ∧ (regionOf (dxAddr u.core[p] w).toNat = .tcm) ∧ ((dxAddr u.core[p] w).toNat % 8 = 0) ∧ (normalOk u (dxAddr u.core[p] w).toNat 8 true = true) :=
   ⟨wDx 0x66308000, (fetch (wDx 0x66308000) 1).1, 1, 0x66308000, by decide +kernel⟩

theorem wit_CoreMemoryAccesses_13 : ∃ (s u : State) (p : Fin 4) (w : Word), (coreAt s u p w) ∧ (dxOp w = 0x41) ∧ (accessOk u.core[p] 2 (dxAddr u.core[p] w).toNat 8 = true) ∧ (regionOf (dxAddr u.core[p] w).toNat = .tcm) ∧ ((dxAddr u.core[p] w).toNat % 8 = 0) ∧ (normalOk u (dxAddr u.core[p] w).toNat 8 true = true) :=
   ⟨wDx 0x82308000, (fetch (wDx 0x82308000) 1).1, 1, 0x82308000, by decide +kernel⟩

theorem wit_CoreMemoryAccesses_14 : ∃ (s u : State) (p : Fin 4) (w : Word) (v : State) (old : DWord), (coreAt s u p w) ∧ (dxOp w = 0x44) ∧ (atomicCheck u p (rs1 u.core[p] w) excLoadMisaligned = none) ∧ (regionOf (rs1 u.core[p] w).toNat = .tcm) ∧ (atomicRead u (rs1 u.core[p] w).toNat = (v, some (old, false))) :=
   ⟨wDx 0x88508C00, (fetch (wDx 0x88508C00) 1).1, 1, 0x88508C00, (fetch (wDx 0x88508C00) 1).1, 0x88070605040302F1, by decide +kernel⟩

theorem wit_CoreMemoryAccesses_15 : ∃ (s u : State) (p : Fin 4) (w : Word) (v : State) (old : DWord), (coreAt s u p w) ∧ (dxOp w = 0x45) ∧ (atomicCheck u p (rs1 u.core[p] w) excLoadMisaligned = none) ∧ (regionOf (rs1 u.core[p] w).toNat = .tcm) ∧ (atomicRead u (rs1 u.core[p] w).toNat = (v, some (old, false))) :=
   ⟨wDx 0x8A508C00, (fetch (wDx 0x8A508C00) 1).1, 1, 0x8A508C00, (fetch (wDx 0x8A508C00) 1).1, 0x88070605040302F1, by decide +kernel⟩

theorem wit_CoreMemoryAccesses_16 : ∃ (s u : State) (p : Fin 4) (w : Word) (v : State) (old : DWord), (coreAt s u p w) ∧ (dxOp w = 0x46) ∧ (atomicCheck u p (rs1 u.core[p] w) excLoadMisaligned = none) ∧ (regionOf (rs1 u.core[p] w).toNat = .tcm) ∧ (atomicRead u (rs1 u.core[p] w).toNat = (v, some (old, false))) :=
   ⟨wDx 0x8C508C00, (fetch (wDx 0x8C508C00) 1).1, 1, 0x8C508C00, (fetch (wDx 0x8C508C00) 1).1, 0x88070605040302F1, by decide +kernel⟩

theorem wit_CoreMemoryAccesses_17 : ∃ (s u : State) (p : Fin 4) (w : Word) (v : State) (old : DWord), (coreAt s u p w) ∧ (dxOp w = 0x47) ∧ (atomicCheck u p (rs1 u.core[p] w) excLoadMisaligned = none) ∧ (regionOf (rs1 u.core[p] w).toNat = .tcm) ∧ (atomicRead u (rs1 u.core[p] w).toNat = (v, some (old, false))) :=
   ⟨wDx 0x8E508C00, (fetch (wDx 0x8E508C00) 1).1, 1, 0x8E508C00, (fetch (wDx 0x8E508C00) 1).1, 0x88070605040302F1, by decide +kernel⟩

theorem wit_CoreMemoryAccesses_18 : ∃ (s u : State) (p : Fin 4) (w : Word) (v : State) (old : DWord), (coreAt s u p w) ∧ (dxOp w = 0x48) ∧ (atomicCheck u p (rs1 u.core[p] w) excLoadMisaligned = none) ∧ (regionOf (rs1 u.core[p] w).toNat = .tcm) ∧ (atomicRead u (rs1 u.core[p] w).toNat = (v, some (old, false))) :=
   ⟨wDx 0x90508C00, (fetch (wDx 0x90508C00) 1).1, 1, 0x90508C00, (fetch (wDx 0x90508C00) 1).1, 0x88070605040302F1, by decide +kernel⟩

theorem wit_CoreMemoryAccesses_19 : ∃ (s u : State) (p : Fin 4) (w : Word) (v : State) (x : Nat) (bad : Bool), (coreAt s u p w) ∧ (dxOp w = 0x2C) ∧ (accessOk u.core[p] 1 (dxAddr u.core[p] w).toNat 4 = true) ∧ (regionOf (dxAddr u.core[p] w).toNat = .device) ∧ (busRead u (.core p) (dxAddr u.core[p] w).toNat 4 = (v, some (x, bad))) :=
   ⟨modCore (wDx 0x58530000) 1 (fun c => { c with x := c.x.set 6 0x40000000 }), (fetch (modCore (wDx 0x58530000) 1 (fun c => { c with x := c.x.set 6 0x40000000 })) 1).1, 1, 0x58530000, _, _, _, by decide +kernel, by decide +kernel, by decide +kernel, by decide +kernel, rfl⟩

theorem wit_CoreMemoryAccesses_20 : ∃ (s u : State) (p : Fin 4) (w : Word) (v : State) (x : Nat) (bad : Bool), (coreAt s u p w) ∧ (dxOp w = 0x2D) ∧ (accessOk u.core[p] 1 (dxAddr u.core[p] w).toNat 4 = true) ∧ (regionOf (dxAddr u.core[p] w).toNat = .device) ∧ (busRead u (.core p) (dxAddr u.core[p] w).toNat 4 = (v, some (x, bad))) :=
   ⟨modCore (wDx 0x5A530000) 1 (fun c => { c with x := c.x.set 6 0x40000000 }), (fetch (modCore (wDx 0x5A530000) 1 (fun c => { c with x := c.x.set 6 0x40000000 })) 1).1, 1, 0x5A530000, _, _, _, by decide +kernel, by decide +kernel, by decide +kernel, by decide +kernel, rfl⟩

theorem wit_CoreMemoryAccesses_21 : ∃ (s u : State) (p : Fin 4) (w : Word), (coreAt s u p w) ∧ (dxOp w = 0x32) ∧ (accessOk u.core[p] 2 (dxAddr u.core[p] w).toNat 4 = true) ∧ (regionOf (dxAddr u.core[p] w).toNat = .device) ∧ (busWriteFails u (.core p) (dxAddr u.core[p] w).toNat (natLe 4 ((stSrc u.core[p] w).toNat % 2 ^ 32)) = false) :=
   ⟨modCore (wDx 0x64330000) 1 (fun c => { c with x := c.x.set 6 0x40000000 }), (fetch (modCore (wDx 0x64330000) 1 (fun c => { c with x := c.x.set 6 0x40000000 })) 1).1, 1, 0x64330000, by decide +kernel⟩

theorem wit_CoreMemoryAccesses_22 : ∃ (s u : State) (p : Fin 4) (w : Word) (v : State) (old : DWord), (coreAt s u p w) ∧ (dxOp w = 0x42) ∧ (atomicCheck u p (rs1 u.core[p] w) excLoadMisaligned = none) ∧ (atomicRead u (rs1 u.core[p] w).toNat = (v, some (old, false))) :=
   ⟨wDx 0x84508000, (fetch (wDx 0x84508000) 1).1, 1, 0x84508000, (fetch (wDx 0x84508000) 1).1, 0x88070605040302F1, by decide +kernel⟩

theorem wit_CoreMemoryAccesses_23 : ∃ (s u : State) (p : Fin 4) (w : Word), (coreAt s u p w) ∧ (dxOp w = 0x43) ∧ (atomicCheck u p (rs1 u.core[p] w) excStoreMisaligned = none) ∧ (regionOf (rs1 u.core[p] w).toNat = .tcm) ∧ ((u.core[p].resv.map (·.1)) = some (eccWord (rs1 u.core[p] w).toNat)) :=
   ⟨wDx 0x86508C00, (fetch (wDx 0x86508C00) 1).1, 1, 0x86508C00, by decide +kernel⟩

theorem wit_CoreMemoryAccesses_24 : ∃ (s u : State) (p : Fin 4) (w : Word), (coreAt s u p w) ∧ (dxOp w = 0x43) ∧ (atomicCheck u p (rs1 u.core[p] w) excStoreMisaligned = none) ∧ ((u.core[p].resv.map (·.1)) ≠ some (eccWord (rs1 u.core[p] w).toNat)) :=
   ⟨modCore (wDx 0x86508C00) 1 (fun c => { c with resv := none }), (fetch (modCore (wDx 0x86508C00) 1 (fun c => { c with resv := none })) 1).1, 1, 0x86508C00, by decide +kernel⟩

theorem wit_CoreMemoryAccesses_25 : ∃ (s u : State) (p : Fin 4) (w : Word), (coreAt s u p w) ∧ (dxOp w = 0x2E) ∧ (accessOk u.core[p] 1 (dxAddr u.core[p] w).toNat 8 = true) ∧ (alignedSpace (dxAddr u.core[p] w).toNat = true) ∧ ((dxAddr u.core[p] w).toNat % 8 ≠ 0) ∧ (stEXL u.core[p] = false) :=
   ⟨wDx 0x5C508004, (fetch (wDx 0x5C508004) 1).1, 1, 0x5C508004, by decide +kernel⟩

theorem wit_CoreBranchesAndRegisters_1 : ∃ (s u : State) (p : Fin 4) (w : Word), (coreAt s u p w) ∧ (dxOp w = 0x38) :=
   ⟨wDx 0x7021FFF0, (fetch (wDx 0x7021FFF0) 1).1, 1, 0x7021FFF0, by decide +kernel⟩

theorem wit_CoreBranchesAndRegisters_2 : ∃ (s u : State) (p : Fin 4) (w : Word), (coreAt s u p w) ∧ (dxOp w = 0x39) :=
   ⟨wDx 0x7221FFF0, (fetch (wDx 0x7221FFF0) 1).1, 1, 0x7221FFF0, by decide +kernel⟩

theorem wit_CoreBranchesAndRegisters_3 : ∃ (s u : State) (p : Fin 4) (w : Word), (coreAt s u p w) ∧ (dxOp w = 0x3A) :=
   ⟨wDx 0x7421FFF0, (fetch (wDx 0x7421FFF0) 1).1, 1, 0x7421FFF0, by decide +kernel⟩

theorem wit_CoreBranchesAndRegisters_4 : ∃ (s u : State) (p : Fin 4) (w : Word), (coreAt s u p w) ∧ (dxOp w = 0x3B) :=
   ⟨wDx 0x7621FFF0, (fetch (wDx 0x7621FFF0) 1).1, 1, 0x7621FFF0, by decide +kernel⟩

theorem wit_CoreBranchesAndRegisters_5 : ∃ (s u : State) (p : Fin 4) (w : Word), (coreAt s u p w) ∧ (dxOp w = 0x3C) :=
   ⟨wDx 0x7821FFF0, (fetch (wDx 0x7821FFF0) 1).1, 1, 0x7821FFF0, by decide +kernel⟩

theorem wit_CoreBranchesAndRegisters_6 : ∃ (s u : State) (p : Fin 4) (w : Word), (coreAt s u p w) ∧ (dxOp w = 0x3D) :=
   ⟨wDx 0x7A21FFF0, (fetch (wDx 0x7A21FFF0) 1).1, 1, 0x7A21FFF0, by decide +kernel⟩

theorem wit_CoreBranchesAndRegisters_7 : ∃ (s u : State) (p : Fin 4) (w : Word), (coreAt s u p w) ∧ (dxOp w = 0x3E) :=
   ⟨wDx 0x7C5FFFF0, (fetch (wDx 0x7C5FFFF0) 1).1, 1, 0x7C5FFFF0, by decide +kernel⟩

theorem wit_CoreBranchesAndRegisters_8 : ∃ (s u : State) (p : Fin 4) (w : Word), (coreAt s u p w) ∧ (dxOp w = 0x3F) ∧ ((dxAddr u.core[p] w).toNat % 4 = 0) :=
   ⟨wDx 0x7E508008, (fetch (wDx 0x7E508008) 1).1, 1, 0x7E508008, by decide +kernel⟩

theorem wit_CoreBranchesAndRegisters_9 : ∃ (s u : State) (p : Fin 4) (w : Word), (coreAt s u p w) ∧ (dxOp w = 0x3F) ∧ ((dxAddr u.core[p] w).toNat % 4 ≠ 0) ∧ (stEXL u.core[p] = false) :=
   ⟨wDx 0x7E508002, (fetch (wDx 0x7E508002) 1).1, 1, 0x7E508002, by decide +kernel⟩

theorem wit_CoreBranchesAndRegisters_10 : ∃ (s u : State) (p : Fin 4) (w : Word), (coreAt s u p w) ∧ (dxOp w = 0x53) :=
   ⟨wDx 0xA6500005, (fetch (wDx 0xA6500005) 1).1, 1, 0xA6500005, by decide +kernel⟩

theorem wit_CoreBranchesAndRegisters_11 : ∃ (s u : State) (p : Fin 4) (w : Word), (coreAt s u p w) ∧ (dxOp w = 0x54) ∧ (bitsOf w.toNat 11 0 = 0x00) :=
   ⟨wDx 0xA8510000, (fetch (wDx 0xA8510000) 1).1, 1, 0xA8510000, by decide +kernel⟩

theorem wit_CoreBranchesAndRegisters_12 : ∃ (s u : State) (p : Fin 4) (w : Word), (coreAt s u p w) ∧ (dxOp w = 0x54) ∧ (bitsOf w.toNat 11 0 = 0x01) :=
   ⟨wDx 0xA8510001, (fetch (wDx 0xA8510001) 1).1, 1, 0xA8510001, by decide +kernel⟩

theorem wit_CoreBranchesAndRegisters_13 : ∃ (s u : State) (p : Fin 4) (w : Word), (coreAt s u p w) ∧ (dxOp w = 0x54) ∧ (bitsOf w.toNat 11 0 = 0x02) :=
   ⟨wDx 0xA8510002, (fetch (wDx 0xA8510002) 1).1, 1, 0xA8510002, by decide +kernel⟩

theorem wit_CoreBranchesAndRegisters_14 : ∃ (s u : State) (p : Fin 4) (w : Word), (coreAt s u p w) ∧ (dxOp w = 0x54) ∧ (bitsOf w.toNat 11 0 = 0x05) :=
   ⟨wDx 0xA8510005, (fetch (wDx 0xA8510005) 1).1, 1, 0xA8510005, by decide +kernel⟩

theorem wit_CoreBranchesAndRegisters_15 : ∃ (s u : State) (p : Fin 4) (w : Word), (coreAt s u p w) ∧ (dxOp w = 0x54) ∧ (bitsOf w.toNat 11 0 = 0x06) :=
   ⟨wDx 0xA8510006, (fetch (wDx 0xA8510006) 1).1, 1, 0xA8510006, by decide +kernel⟩

theorem wit_CoreBranchesAndRegisters_16 : ∃ (s u : State) (p : Fin 4) (w : Word), (coreAt s u p w) ∧ (dxOp w = 0x54) ∧ (bitsOf w.toNat 11 0 = 0x09) :=
   ⟨wDx 0xA8510009, (fetch (wDx 0xA8510009) 1).1, 1, 0xA8510009, by decide +kernel⟩

theorem wit_CoreBranchesAndRegisters_17 : ∃ (s u : State) (p : Fin 4) (w : Word), (coreAt s u p w) ∧ (dxOp w = 0x55) ∧ (bitsOf w.toNat 11 0 = 0x00) :=
   ⟨wDx 0xAA510000, (fetch (wDx 0xAA510000) 1).1, 1, 0xAA510000, by decide +kernel⟩

theorem wit_CoreBranchesAndRegisters_18 : ∃ (s u : State) (p : Fin 4) (w : Word), (coreAt s u p w) ∧ (dxOp w = 0x55) ∧ (bitsOf w.toNat 11 0 = 0x05) :=
   ⟨wDx 0xAA510005, (fetch (wDx 0xAA510005) 1).1, 1, 0xAA510005, by decide +kernel⟩

theorem wit_CoreBranchesAndRegisters_19 : ∃ (s u : State) (p : Fin 4) (w : Word), (coreAt s u p w) ∧ (dxOp w = 0x55) ∧ (bitsOf w.toNat 11 0 = 0x06) :=
   ⟨wDx 0xAA510006, (fetch (wDx 0xAA510006) 1).1, 1, 0xAA510006, by decide +kernel⟩

theorem wit_CoreBranchesAndRegisters_20 : ∃ (s u : State) (p : Fin 4) (w : Word), (coreAt s u p w) ∧ (dxOp w = 0x56) ∧ (bitsOf w.toNat 11 0 = 0x00) :=
   ⟨wDx 0xAC510000, (fetch (wDx 0xAC510000) 1).1, 1, 0xAC510000, by decide +kernel⟩

theorem wit_CoreBranchesAndRegisters_21 : ∃ (s u : State) (p : Fin 4) (w : Word), (coreAt s u p w) ∧ (dxOp w = 0x56) ∧ (bitsOf w.toNat 11 0 = 0x05) :=
   ⟨wDx 0xAC510005, (fetch (wDx 0xAC510005) 1).1, 1, 0xAC510005, by decide +kernel⟩

theorem wit_CoreBranchesAndRegisters_22 : ∃ (s u : State) (p : Fin 4) (w : Word), (coreAt s u p w) ∧ (dxOp w = 0x56) ∧ (bitsOf w.toNat 11 0 = 0x06) :=
   ⟨wDx 0xAC510006, (fetch (wDx 0xAC510006) 1).1, 1, 0xAC510006, by decide +kernel⟩

theorem wit_CoreBranchesAndRegisters_23 : ∃ (s u : State) (p : Fin 4) (w : Word), (coreAt s u p w) ∧ (dxOp w = 0x54) ∧ (bitsOf w.toNat 11 0 = 0x08) :=
   ⟨wDx 0xA8510008, (fetch (wDx 0xA8510008) 1).1, 1, 0xA8510008, by decide +kernel⟩

theorem wit_CoreExceptionsAndInterrupts_1 : ∃ (s u : State) (p : Fin 4) (w : Word), (coreAt s u p w) ∧ (dxOp w = 0x50) ∧ (stEXL u.core[p] = false) :=
   ⟨wDx 0xA0000000, (fetch (wDx 0xA0000000) 1).1, 1, 0xA0000000, by decide +kernel⟩

theorem wit_CoreExceptionsAndInterrupts_2 : ∃ (s u : State) (p : Fin 4) (w : Word), (coreAt s u p w) ∧ (dxOp w = 0x51) ∧ (stEXL u.core[p] = false) :=
   ⟨wDx 0xA2000000, (fetch (wDx 0xA2000000) 1).1, 1, 0xA2000000, by decide +kernel⟩

theorem wit_CoreExceptionsAndInterrupts_3 : ∃ (s u : State) (p : Fin 4) (w : Word), (coreAt s u p w) ∧ (dxOp w = 0x50) ∧ (stEXL u.core[p] = true) :=
   ⟨modCore (wDx 0xA0000000) 1 (fun c => { c with status := 0x14 }), (fetch (modCore (wDx 0xA0000000) 1 (fun c => { c with status := 0x14 })) 1).1, 1, 0xA0000000, by decide +kernel⟩

theorem wit_CoreExceptionsAndInterrupts_4 : ∃ (s u : State) (p : Fin 4) (w : Word), (coreAt s u p w) ∧ (dxOp w = 0x52) :=
   ⟨wDx 0xA4000000, (fetch (wDx 0xA4000000) 1).1, 1, 0xA4000000, by decide +kernel⟩

theorem wit_CoreExceptionsAndInterrupts_5 : ∃ (s u : State) (p : Fin 4) (w : Word), (canIssue s p = true) ∧ ((fetch s p).1 = u) ∧ (okWord (fetch s p).2 = some w) ∧ (dxLegal w = false) ∧ (stEXL s.core[p] = false) ∧ (u.core = s.core) :=
   ⟨wDx 0x00000000, (fetch (wDx 0x00000000) 1).1, 1, 0x00000000, by decide +kernel⟩

theorem wit_CoreExceptionsAndInterrupts_6 : ∃ (s u : State) (p : Fin 4) (w : Word), (canIssue s p = true) ∧ ((fetch s p).1 = u) ∧ (okWord (fetch s p).2 = some w) ∧ (dxLegal w = true) ∧ (dxIllegalUse s.core[p] w = false) ∧ (dxPrivileged s.core[p] (dxOp w) = true) ∧ (dxOp w = 0x53) ∧ (stEXL s.core[p] = false) ∧ (u.core = s.core) :=
   ⟨modCore (wDx 0xA6000000) 1 (fun c => { c with status := 0, ureg := #v[0xF600000001000000, 0, 0, 0] }), (fetch (modCore (wDx 0xA6000000) 1 (fun c => { c with status := 0, ureg := #v[0xF600000001000000, 0, 0, 0] })) 1).1, 1, 0xA6000000, by decide +kernel⟩

theorem wit_CoreExceptionsAndInterrupts_7 : ∃ (s : State) (p : Fin 4) (n : Nat), fbitAt s fldPLZ_STAT_RUNNING p.val = true ∧ inReset s = false ∧ stIE s.core[p] = true ∧ stEXL s.core[p] = false ∧ (pendingIn s s.core[p] s.core[p].ie).head? = some n :=
  ⟨modCore (fset (wDx 0) fldSWP_STAT_QFULL) 1 (fun c => { c with status := 5, swint := 1, timecmp := 0xFFFFFFFFFFFFFFFF, ie := 0xFFFFFFFFFFFFFFFF, tvec := 0x4001 }), 1, 51, by decide +kernel⟩

theorem wit_CoreExceptionsAndInterrupts_11 : ∃ (s : State) (agent : Agent) (p : Fin 4), fbitAt s fldPLZ_STAT_RUNNING p.val = false ∧ s.core[p].halted = false ∧ inReset s = false :=
  ⟨wDx 0, .core 0, 2, by decide +kernel⟩

theorem wit_CorePostsTakesAndWaits_1 : ∃ (s u : State) (p : Fin 4) (w : Word) (k : Fin 4), (coreAt s u p w) ∧ (dxOp w = 0x60) ∧ (postTarget (rs1 u.core[p] w) = some (.core k)) ∧ (k ≠ p) :=
   ⟨modCore (wDx 0xC0531C00) 1 (fun c => { c with x := (c.x.set 6 0x3002).set 7 0 }), (fetch (modCore (wDx 0xC0531C00) 1 (fun c => { c with x := (c.x.set 6 0x3002).set 7 0 })) 1).1, 1, 0xC0531C00, 2, by decide +kernel⟩

theorem wit_CorePostsTakesAndWaits_2 : ∃ (s u : State) (p : Fin 4) (w : Word), (coreAt s u p w) ∧ (dxOp w = 0x60) ∧ (postTarget (rs1 u.core[p] w) = some (.xing 36)) ∧ (xingPresent u.variant 36 = true) ∧ (xingArmed u 36 = true) ∧ ((rs2 u.core[p] w).toNat = 1) :=
   ⟨{ modCore (wDx 0xC0531C00) 1 (fun c => { c with x := (c.x.set 6 0x1024).set 7 1 }) with xing := State.reset.xing.set 36 { State.reset.xing[36] with st := .armed } }, (fetch ({ modCore (wDx 0xC0531C00) 1 (fun c => { c with x := (c.x.set 6 0x1024).set 7 1 }) with xing := State.reset.xing.set 36 { State.reset.xing[36] with st := .armed } }) 1).1, 1, 0xC0531C00, by decide +kernel⟩

theorem wit_CorePostsTakesAndWaits_3 : ∃ (s u : State) (p : Fin 4) (w : Word), (coreAt s u p w) ∧ (dxOp w = 0x60) ∧ (postTarget (rs1 u.core[p] w) = some (.xing 43)) ∧ (xingPresent u.variant 43 = true) ∧ (xingArmed u 43 = true) ∧ (15 ≤ bitsOf (rs2 u.core[p] w).toNat 21 16) :=
   ⟨{ modCore (wDx 0xC0531C00) 1 (fun c => { c with x := (c.x.set 6 0x102B).set 7 0x200055 }) with xing := State.reset.xing.set 43 { State.reset.xing[43] with st := .armed } }, (fetch ({ modCore (wDx 0xC0531C00) 1 (fun c => { c with x := (c.x.set 6 0x102B).set 7 0x200055 }) with xing := State.reset.xing.set 43 { State.reset.xing[43] with st := .armed } }) 1).1, 1, 0xC0531C00, by decide +kernel⟩

theorem wit_CorePostsTakesAndWaits_4 : ∃ (s u : State) (p : Fin 4) (w : Word), (coreAt s u p w) ∧ (dxOp w = 0x60) ∧ (postTarget (rs1 u.core[p] w) = some (.xing 43)) ∧ (xingPresent u.variant 43 = true) ∧ (xingArmed u 43 = true) ∧ (bitsOf (rs2 u.core[p] w).toNat 21 16 < 15) :=
   ⟨{ modCore (wDx 0xC0531C00) 1 (fun c => { c with x := (c.x.set 6 0x102B).set 7 0x0E0055 }) with xing := State.reset.xing.set 43 { State.reset.xing[43] with st := .armed } }, (fetch ({ modCore (wDx 0xC0531C00) 1 (fun c => { c with x := (c.x.set 6 0x102B).set 7 0x0E0055 }) with xing := State.reset.xing.set 43 { State.reset.xing[43] with st := .armed } }) 1).1, 1, 0xC0531C00, by decide +kernel⟩

theorem wit_CorePostsTakesAndWaits_5 : ∃ (s u : State) (p : Fin 4) (w : Word), (coreAt s u p w) ∧ (dxOp w = 0x60) ∧ (postTarget (rs1 u.core[p] w) = some (.xing 44)) ∧ (xingPresent u.variant 44 = true) ∧ (xingArmed u 44 = true) :=
   ⟨{ modCore (wDx 0xC0531C00) 1 (fun c => { c with x := (c.x.set 6 0x102C).set 7 1 }) with xing := State.reset.xing.set 44 { State.reset.xing[44] with st := .armed } }, (fetch ({ modCore (wDx 0xC0531C00) 1 (fun c => { c with x := (c.x.set 6 0x102C).set 7 1 }) with xing := State.reset.xing.set 44 { State.reset.xing[44] with st := .armed } }) 1).1, 1, 0xC0531C00, by decide +kernel⟩

theorem wit_CorePostsTakesAndWaits_6 : ∃ (s u : State) (p : Fin 4) (w : Word), (coreAt s u p w) ∧ (dxOp w = 0x60) ∧ (postTarget (rs1 u.core[p] w) = some (.xing 44)) ∧ (xingPresent u.variant 44 = true) ∧ (xingArmed u 44 = false) :=
   ⟨modCore (wDx 0xC0531C00) 1 (fun c => { c with x := (c.x.set 6 0x102C).set 7 1 }), (fetch (modCore (wDx 0xC0531C00) 1 (fun c => { c with x := (c.x.set 6 0x102C).set 7 1 })) 1).1, 1, 0xC0531C00, by decide +kernel⟩

theorem wit_CorePostsTakesAndWaits_7 : ∃ (s u : State) (p : Fin 4) (w : Word), (coreAt s u p w) ∧ (dxOp w = 0x60) ∧ (postTarget (rs1 u.core[p] w) = some (.xing 50)) ∧ (xingPresent u.variant 50 = true) ∧ (xingArmed u 50 = true) ∧ (permitOwner u (16 + bitsOf (rs2 u.core[p] w).toNat 63 62) = 1 + p.val) :=
   ⟨{ fput (modCore (wDx 0xC0531C00) 1 (fun c => { c with x := (c.x.set 6 0x1032).set 7 0x8000123400005678 })) (fldPERMIT_OWNER 18) 2 with xing := State.reset.xing.set 50 { State.reset.xing[50] with st := .armed } }, (fetch ({ fput (modCore (wDx 0xC0531C00) 1 (fun c => { c with x := (c.x.set 6 0x1032).set 7 0x8000123400005678 })) (fldPERMIT_OWNER 18) 2 with xing := State.reset.xing.set 50 { State.reset.xing[50] with st := .armed } }) 1).1, 1, 0xC0531C00, by decide +kernel⟩

theorem wit_CorePostsTakesAndWaits_8 : ∃ (s u : State) (p : Fin 4) (w : Word), (coreAt s u p w) ∧ (dxOp w = 0x60) ∧ (postTarget (rs1 u.core[p] w) = some (.xing 50)) ∧ (xingPresent u.variant 50 = true) ∧ (xingArmed u 50 = true) ∧ (permitOwner u (16 + bitsOf (rs2 u.core[p] w).toNat 63 62) ≠ 1 + p.val) :=
   ⟨{ modCore (wDx 0xC0531C00) 1 (fun c => { c with x := (c.x.set 6 0x1032).set 7 0x8000123400005678 }) with xing := State.reset.xing.set 50 { State.reset.xing[50] with st := .armed } }, (fetch ({ modCore (wDx 0xC0531C00) 1 (fun c => { c with x := (c.x.set 6 0x1032).set 7 0x8000123400005678 }) with xing := State.reset.xing.set 50 { State.reset.xing[50] with st := .armed } }) 1).1, 1, 0xC0531C00, by decide +kernel⟩

theorem wit_CorePostsTakesAndWaits_9 : ∃ (s u : State) (p : Fin 4) (w : Word), (coreAt s u p w) ∧ (dxOp w = 0x60) ∧ (postTarget (rs1 u.core[p] w) = some (.xing 42)) ∧ (xingPresent u.variant 42 = true) ∧ (xingArmed u 42 = true) ∧ (permitOwner u 20 = 1 + p.val) ∧ (fget u fldSPI_STAT_BUSY = 0) ∧ (bitsOf (rs2 u.core[p] w).toNat 28 16 ≤ 4096) ∧ (8 * bitsOf (rs2 u.core[p] w).toNat 15 0 + bitsOf (rs2 u.core[p] w).toNat 28 16 ≤ 0x80000) :=
   ⟨{ fput (modCore (wDx 0xC0531C00) 1 (fun c => { c with x := (c.x.set 6 0x102A).set 7 0x0300100020200100 })) (fldPERMIT_OWNER 20) 2 with xing := State.reset.xing.set 42 { State.reset.xing[42] with st := .armed } }, (fetch ({ fput (modCore (wDx 0xC0531C00) 1 (fun c => { c with x := (c.x.set 6 0x102A).set 7 0x0300100020200100 })) (fldPERMIT_OWNER 20) 2 with xing := State.reset.xing.set 42 { State.reset.xing[42] with st := .armed } }) 1).1, 1, 0xC0531C00, by decide +kernel⟩

theorem wit_CorePostsTakesAndWaits_10 : ∃ (s u : State) (p : Fin 4) (w : Word), (coreAt s u p w) ∧ (dxOp w = 0x60) ∧ (postTarget (rs1 u.core[p] w) = some (.xing 42)) ∧ (xingPresent u.variant 42 = true) ∧ (xingArmed u 42 = true) ∧ (permitOwner u 20 = 1 + p.val) ∧ (fget u fldSPI_STAT_BUSY = 1) ∧ (bitsOf (rs2 u.core[p] w).toNat 28 16 ≤ 4096) ∧ (8 * bitsOf (rs2 u.core[p] w).toNat 15 0 + bitsOf (rs2 u.core[p] w).toNat 28 16 ≤ 0x80000) :=
   ⟨{ fput (fset (modCore (wDx 0xC0531C00) 1 (fun c => { c with x := (c.x.set 6 0x102A).set 7 0x0300100020200100 })) fldSPI_STAT_BUSY) (fldPERMIT_OWNER 20) 2 with xing := State.reset.xing.set 42 { State.reset.xing[42] with st := .armed } }, (fetch ({ fput (fset (modCore (wDx 0xC0531C00) 1 (fun c => { c with x := (c.x.set 6 0x102A).set 7 0x0300100020200100 })) fldSPI_STAT_BUSY) (fldPERMIT_OWNER 20) 2 with xing := State.reset.xing.set 42 { State.reset.xing[42] with st := .armed } }) 1).1, 1, 0xC0531C00, by decide +kernel⟩

theorem wit_CorePostsTakesAndWaits_11 : ∃ (s u : State) (p : Fin 4) (w : Word), (coreAt s u p w) ∧ (dxOp w = 0x60) ∧ (postTarget (rs1 u.core[p] w) = none) ∧ (stEXL u.core[p] = false) :=
   ⟨modCore (wDx 0xC0531C00) 1 (fun c => { c with x := (c.x.set 6 0x9999).set 7 0 }), (fetch (modCore (wDx 0xC0531C00) 1 (fun c => { c with x := (c.x.set 6 0x9999).set 7 0 })) 1).1, 1, 0xC0531C00, by decide +kernel⟩

theorem wit_CorePostsTakesAndWaits_12 : ∃ (s : State) (p : Fin 4) (v : DWord) (rdNum : Nat), s.core[p].wait = some (.post 42 v rdNum) ∧ inReset s = false ∧ xingArmed s 42 = true ∧ permitOwner s 20 = 1 + p.val ∧ fget s fldSPI_STAT_BUSY = 0 ∧ bitsOf v.toNat 28 16 ≤ 4096 ∧ 8 * bitsOf v.toNat 15 0 + bitsOf v.toNat 28 16 ≤ 0x80000 :=
  ⟨{ fput (modCore (wDx 0) 1 (fun c => { c with wait := some (.post 42 0x0300100020200100 5) })) (fldPERMIT_OWNER 20) 2 with xing := State.reset.xing.set 42 { State.reset.xing[42] with st := .armed } }, 1, 0x0300100020200100, 5, by decide +kernel⟩

theorem wit_CorePostsTakesAndWaits_13 : ∃ (s u : State) (p : Fin 4) (w : Word) (v : State) (f : Fin 14) (x : Word) (r : BitVec 256), (coreAt s u p w) ∧ (dxOp w = 0x61) ∧ (accessOk u.core[p] 2 (rs2 u.core[p] w).toNat 32 = true) ∧ (regionOf (rs2 u.core[p] w).toNat = .tcm) ∧ (storeCheck u (rs2 u.core[p] w) 32 8 = none) ∧ (fifoOfBase (rs1 u.core[p] w).toNat = some f) ∧ (absentAt u.variant (fifoBase f.val) = false) ∧ ((fifoPop u (1 + p.val) f).1 = v) ∧ ((fifoPop u (1 + p.val) f).2 = (x, some r)) ∧ (v.core = u.core) :=
   ⟨{ modCore { wDx 0xC2530400 with regs := (fput (wFifo 2) (fldFIFO_CFG_CONSUMER 9) 2).regs, fifo := (modFifo (wFifo 2) 9 (fun q => { q with rk := 7, wk := 9, stage := [0x55, 0x66] })).fifo } 1 (fun c => { c with x := c.x.set 6 (BitVec.ofNat 64 (fifoBase 9)) }) with regs := (fputAt (fput (wFifo 2) (fldFIFO_CFG_CONSUMER 9) 2) fldPLZ_STAT_RUNNING 1 true).regs }, (fetch ({ modCore { wDx 0xC2530400 with regs := (fput (wFifo 2) (fldFIFO_CFG_CONSUMER 9) 2).regs, fifo := (modFifo (wFifo 2) 9 (fun q => { q with rk := 7, wk := 9, stage := [0x55, 0x66] })).fifo } 1 (fun c => { c with x := c.x.set 6 (BitVec.ofNat 64 (fifoBase 9)) }) with regs := (fputAt (fput (wFifo 2) (fldFIFO_CFG_CONSUMER 9) 2) fldPLZ_STAT_RUNNING 1 true).regs }) 1).1, 1, 0xC2530400, (fifoPop (fetch ({ modCore { wDx 0xC2530400 with regs := (fput (wFifo 2) (fldFIFO_CFG_CONSUMER 9) 2).regs, fifo := (modFifo (wFifo 2) 9 (fun q => { q with rk := 7, wk := 9, stage := [0x55, 0x66] })).fifo } 1 (fun c => { c with x := c.x.set 6 (BitVec.ofNat 64 (fifoBase 9)) }) with regs := (fputAt (fput (wFifo 2) (fldFIFO_CFG_CONSUMER 9) 2) fldPLZ_STAT_RUNNING 1 true).regs }) 1).1 2 9).1, 9, 0x80000007, 0x55, by decide +kernel⟩

theorem wit_CorePostsTakesAndWaits_14 : ∃ (s u : State) (p : Fin 4) (w : Word) (n : Nat), (coreAt s u p w) ∧ (dxOp w = 0x62) ∧ (absentIn u.variant (rs1 u.core[p] w) = false) ∧ ((pendingIn u u.core[p] (rs1 u.core[p] w)).head? = some n) :=
   ⟨modCore (modCore (wDx 0xC4531C00) 1 (fun c => { c with x := (c.x.set 6 0x0008000000000000).set 7 0 })) 1 (fun c => { c with swint := 1 }), (fetch (modCore (modCore (wDx 0xC4531C00) 1 (fun c => { c with x := (c.x.set 6 0x0008000000000000).set 7 0 })) 1 (fun c => { c with swint := 1 })) 1).1, 1, 0xC4531C00, 51, by decide +kernel⟩

theorem wit_CorePostsTakesAndWaits_15 : ∃ (s u : State) (p : Fin 4) (w : Word), (coreAt s u p w) ∧ (dxOp w = 0x62) ∧ (absentIn u.variant (rs1 u.core[p] w) = false) ∧ ((pendingIn u u.core[p] (rs1 u.core[p] w)).head? = none) ∧ (rs2 u.core[p] w ≠ 0) ∧ ((rs2 u.core[p] w).toNat ≤ u.chipTime.toNat) :=
   ⟨{ modCore (wDx 0xC4531C00) 1 (fun c => { c with x := (c.x.set 6 0x0008000000000000).set 7 5 }) with chipTime := 9 }, (fetch ({ modCore (wDx 0xC4531C00) 1 (fun c => { c with x := (c.x.set 6 0x0008000000000000).set 7 5 }) with chipTime := 9 }) 1).1, 1, 0xC4531C00, by decide +kernel⟩

theorem wit_CorePostsTakesAndWaits_16 : ∃ (s u : State) (p : Fin 4) (w : Word), (coreAt s u p w) ∧ (dxOp w = 0x62) ∧ (absentIn u.variant (rs1 u.core[p] w) = false) ∧ ((pendingIn u u.core[p] (rs1 u.core[p] w)).head? = none) ∧ (u.chipTime.toNat < (rs2 u.core[p] w).toNat) :=
   ⟨{ modCore (wDx 0xC4531C00) 1 (fun c => { c with x := (c.x.set 6 0x0008000000000000).set 7 500 }) with chipTime := 9 }, (fetch ({ modCore (wDx 0xC4531C00) 1 (fun c => { c with x := (c.x.set 6 0x0008000000000000).set 7 500 }) with chipTime := 9 }) 1).1, 1, 0xC4531C00, by decide +kernel⟩

theorem wit_CorePostsTakesAndWaits_17 : ∃ (s : State) (p : Fin 4) (mask deadline : DWord) (rdNum n : Nat), s.core[p].wait = some (.line mask deadline rdNum) ∧ inReset s = false ∧ (pendingIn s s.core[p] mask).head? = some n :=
  ⟨modCore { wDx 0 with chipTime := 9 } 1 (fun c => { c with wait := some (.line 0x0008000000000000 500 5), swint := 1 }), 1, 0x0008000000000000, 500, 5, 51, by decide +kernel⟩

theorem wit_CorePostsTakesAndWaits_18 : ∃ (s : State) (p : Fin 4) (mask deadline : DWord) (rdNum : Nat), s.core[p].wait = some (.line mask deadline rdNum) ∧ inReset s = false ∧ (pendingIn s s.core[p] mask).head? = none ∧ deadline ≠ 0 :=
  ⟨modCore { wDx 0 with chipTime := 9 } 1 (fun c => { c with wait := some (.line 0x0008000000000000 500 5), swint := 0 }), 1, 0x0008000000000000, 500, 5, by decide +kernel⟩

theorem wit_CacheMaintenance_1 : ∃ (s u : State) (p : Fin 4) (w : Word) (k : Fin 4) (way : Nat), (coreAt s u p w) ∧ (dxOp w = 0x64) ∧ (bitsOf w.toNat 3 0 = 0) ∧ (regionOf (rs1 u.core[p] w).toNat = .staging ∨ regionOf (rs1 u.core[p] w).toNat = .rom) ∧ (l1Way u.l1i[k] (rs1 u.core[p] w).toNat = some way) ∧ (u.l1i[k].draining = false) ∧ (∀ q : Fin 4, u.l1i[q].miss.find? (fun m => m.line == eccWord (rs1 u.core[p] w).toNat) = none) :=
   ⟨{ modCore (wDx 0xC8030000) 1 (fun c => { c with x := c.x.set 6 0x8000000040 }) with l1i := State.reset.l1i.set 2 ⟨[(l1Key (l1Set 0x8000000040) 3, ⟨l1Tag 0x8000000040, List.replicate 64 5, 9, 0⟩)], 9, [], false⟩ }, (fetch ({ modCore (wDx 0xC8030000) 1 (fun c => { c with x := c.x.set 6 0x8000000040 }) with l1i := State.reset.l1i.set 2 ⟨[(l1Key (l1Set 0x8000000040) 3, ⟨l1Tag 0x8000000040, List.replicate 64 5, 9, 0⟩)], 9, [], false⟩ }) 1).1, 1, 0xC8030000, 2, 3, by decide +kernel⟩

theorem wit_CacheMaintenance_2 : ∃ (s u : State) (p : Fin 4) (w : Word) (k : Fin 4) (way : Nat), (coreAt s u p w) ∧ (dxOp w = 0x64) ∧ (bitsOf w.toNat 3 0 = 2) ∧ (regionOf (rs1 u.core[p] w).toNat = .staging ∨ regionOf (rs1 u.core[p] w).toNat = .rom) ∧ (l1Way u.l1d[k] (rs1 u.core[p] w).toNat = some way) ∧ (u.l1d[k].draining = false) ∧ (∀ q : Fin 4, u.l1d[q].miss.find? (fun m => m.line == eccWord (rs1 u.core[p] w).toNat) = none) :=
   ⟨{ modCore (wDx 0xC8030002) 1 (fun c => { c with x := c.x.set 6 0x8000000040 }) with l1d := State.reset.l1d.set 2 ⟨[(l1Key (l1Set 0x8000000040) 3, ⟨l1Tag 0x8000000040, List.replicate 64 5, 9, 0⟩)], 9, [], false⟩ }, (fetch ({ modCore (wDx 0xC8030002) 1 (fun c => { c with x := c.x.set 6 0x8000000040 }) with l1d := State.reset.l1d.set 2 ⟨[(l1Key (l1Set 0x8000000040) 3, ⟨l1Tag 0x8000000040, List.replicate 64 5, 9, 0⟩)], 9, [], false⟩ }) 1).1, 1, 0xC8030002, 2, 3, by decide +kernel⟩

theorem wit_CacheMaintenance_3 : ∃ (s u : State) (p : Fin 4) (w : Word), (coreAt s u p w) ∧ (dxOp w = 0x64) ∧ (bitsOf w.toNat 3 0 = 1) :=
   ⟨modCore (wDx 0xC8030001) 1 (fun c => { c with x := c.x.set 6 0 }), (fetch (modCore (wDx 0xC8030001) 1 (fun c => { c with x := c.x.set 6 0 })) 1).1, 1, 0xC8030001, by decide +kernel⟩

theorem wit_CacheMaintenance_4 : ∃ (s u : State) (p : Fin 4) (w : Word), (coreAt s u p w) ∧ (dxOp w = 0x64) ∧ (bitsOf w.toNat 3 0 = 3) :=
   ⟨modCore (wDx 0xC8030003) 1 (fun c => { c with x := c.x.set 6 0 }), (fetch (modCore (wDx 0xC8030003) 1 (fun c => { c with x := c.x.set 6 0 })) 1).1, 1, 0xC8030003, by decide +kernel⟩

theorem wit_CacheMaintenance_5 : ∃ (s u : State) (p : Fin 4) (w : Word) (way : Nat) (l : ArcLine), (coreAt s u p w) ∧ (dxOp w = 0x64) ∧ (bitsOf w.toNat 3 0 = 4) ∧ (regionOf (rs1 u.core[p] w).toNat = .staging) ∧ (missIndex u (rs1 u.core[p] w).toNat = none) ∧ (arcWay u (rs1 u.core[p] w).toNat = some way) ∧ (aget? u.arcade.lines (arcKey (arcBank (rs1 u.core[p] w).toNat) (arcSet (rs1 u.core[p] w).toNat) way) = some l) ∧ (l.dirty = true) ∧ ((lineDecode l.err).1 = .good) ∧ ((checkStored u (arcLineAddr (arcBank (rs1 u.core[p] w).toNat) (arcSet (rs1 u.core[p] w).toNat) l.tag)).1 = .good) :=
   ⟨wArc true (modCore (wDx 0xC8030004) 1 (fun c => { c with x := c.x.set 6 0x8000000040 })), (fetch (wArc true (modCore (wDx 0xC8030004) 1 (fun c => { c with x := c.x.set 6 0x8000000040 }))) 1).1, 1, 0xC8030004, 3, wArcL true, by decide +kernel⟩

theorem wit_CacheMaintenance_6 : ∃ (s u : State) (p : Fin 4) (w : Word) (way : Nat) (l : ArcLine), (coreAt s u p w) ∧ (dxOp w = 0x64) ∧ (bitsOf w.toNat 3 0 = 5) ∧ (regionOf (rs1 u.core[p] w).toNat = .staging) ∧ (missIndex u (rs1 u.core[p] w).toNat = none) ∧ (arcWay u (rs1 u.core[p] w).toNat = some way) ∧ (aget? u.arcade.lines (arcKey (arcBank (rs1 u.core[p] w).toNat) (arcSet (rs1 u.core[p] w).toNat) way) = some l) :=
   ⟨wArc true (modCore (wDx 0xC8030005) 1 (fun c => { c with x := c.x.set 6 0x8000000040 })), (fetch (wArc true (modCore (wDx 0xC8030005) 1 (fun c => { c with x := c.x.set 6 0x8000000040 }))) 1).1, 1, 0xC8030005, 3, wArcL true, by decide +kernel⟩

theorem wit_CacheMaintenance_7 : ∃ (s u : State) (p : Fin 4) (w : Word) (way : Nat) (l : ArcLine), (coreAt s u p w) ∧ (dxOp w = 0x64) ∧ (bitsOf w.toNat 3 0 = 6) ∧ (regionOf (rs1 u.core[p] w).toNat = .staging) ∧ (missIndex u (rs1 u.core[p] w).toNat = none) ∧ (arcWay u (rs1 u.core[p] w).toNat = some way) ∧ (aget? u.arcade.lines (arcKey (arcBank (rs1 u.core[p] w).toNat) (arcSet (rs1 u.core[p] w).toNat) way) = some l) ∧ (l.dirty = true) ∧ ((lineDecode l.err).1 = .good) ∧ ((checkStored u (arcLineAddr (arcBank (rs1 u.core[p] w).toNat) (arcSet (rs1 u.core[p] w).toNat) l.tag)).1 = .good) :=
   ⟨wArc true (modCore (wDx 0xC8030006) 1 (fun c => { c with x := c.x.set 6 0x8000000040 })), (fetch (wArc true (modCore (wDx 0xC8030006) 1 (fun c => { c with x := c.x.set 6 0x8000000040 }))) 1).1, 1, 0xC8030006, 3, wArcL true, by decide +kernel⟩

theorem wit_CacheMaintenance_8 : ∃ (s u : State) (p : Fin 4) (w : Word) (l : ArcLine), (coreAt s u p w) ∧ (dxOp w = 0x64) ∧ (bitsOf w.toNat 3 0 = 7) ∧ ((u.arcade.miss[bitsOf (rs1 u.core[p] w).toNat 15 14]!).filter (fun m => arcSet m.line = bitsOf (rs1 u.core[p] w).toNat 9 0) = []) ∧ (aget? u.arcade.lines (arcKey (bitsOf (rs1 u.core[p] w).toNat 15 14) (bitsOf (rs1 u.core[p] w).toNat 9 0) (bitsOf (rs1 u.core[p] w).toNat 13 10)) = some l) ∧ (l.dirty = true) ∧ ((lineDecode l.err).1 = .good) ∧ ((checkStored u (arcLineAddr (bitsOf (rs1 u.core[p] w).toNat 15 14) (bitsOf (rs1 u.core[p] w).toNat 9 0) l.tag)).1 = .good) :=
   ⟨wArc true (modCore (wDx 0xC8030007) 1 (fun c => { c with x := c.x.set 6 0x4C00 })), (fetch (wArc true (modCore (wDx 0xC8030007) 1 (fun c => { c with x := c.x.set 6 0x4C00 }))) 1).1, 1, 0xC8030007, wArcL true, by decide +kernel⟩

theorem wit_CacheMaintenance_9 : ∃ (s u : State) (p : Fin 4) (w : Word) (l : ArcLine), (coreAt s u p w) ∧ (dxOp w = 0x64) ∧ (bitsOf w.toNat 3 0 = 8) ∧ ((u.arcade.miss[bitsOf (rs1 u.core[p] w).toNat 15 14]!).filter (fun m => arcSet m.line = bitsOf (rs1 u.core[p] w).toNat 9 0) = []) ∧ (aget? u.arcade.lines (arcKey (bitsOf (rs1 u.core[p] w).toNat 15 14) (bitsOf (rs1 u.core[p] w).toNat 9 0) (bitsOf (rs1 u.core[p] w).toNat 13 10)) = some l) ∧ (l.dirty = true) ∧ ((lineDecode l.err).1 = .good) ∧ ((checkStored u (arcLineAddr (bitsOf (rs1 u.core[p] w).toNat 15 14) (bitsOf (rs1 u.core[p] w).toNat 9 0) l.tag)).1 = .good) :=
   ⟨wArc true (modCore (wDx 0xC8030008) 1 (fun c => { c with x := c.x.set 6 0x4C00 })), (fetch (wArc true (modCore (wDx 0xC8030008) 1 (fun c => { c with x := c.x.set 6 0x4C00 }))) 1).1, 1, 0xC8030008, wArcL true, by decide +kernel⟩

theorem wit_CacheMaintenance_10 : ∃ (s u : State) (p : Fin 4) (w : Word), (coreAt s u p w) ∧ (dxOp w = 0x64) ∧ (bitsOf w.toNat 3 0 = 9) ∧ (stagingUsable u (rs1 u.core[p] w).toNat = true) ∧ (missIndex u (rs1 u.core[p] w).toNat = none) ∧ ((arcWay u (rs1 u.core[p] w).toNat).isSome = true) :=
   ⟨wArc true (modCore (wDx 0xC8030009) 1 (fun c => { c with x := c.x.set 6 0x8000000040 })), (fetch (wArc true (modCore (wDx 0xC8030009) 1 (fun c => { c with x := c.x.set 6 0x8000000040 }))) 1).1, 1, 0xC8030009, by decide +kernel⟩

theorem wit_CachesFillDrainAndControl_1 : ∃ (s : State) (p : CoreId) (line : BitVec 40) (m : L1Miss), s.l1d[p].miss.find? (fun x => x.line == eccWord line.toNat) = some m ∧ s.l1d[p].draining = false ∧ aget? s.l1d[p].lines (l1Key (l1Set (eccWord line.toNat)) (l1Victim s.l1d[p] (eccWord line.toNat))) = none :=
  ⟨{ State.reset with l1d := State.reset.l1d.set 2 ⟨[], 3, [⟨0x8000000040, List.replicate 64 5, 1⟩], false⟩ }, 2, 0x8000000040, ⟨0x8000000040, List.replicate 64 5, 1⟩, by decide +kernel⟩

theorem wit_CachesFillDrainAndControl_2 : ∃ (s : State) (sender : ArcFrom) (addr : BitVec 40) (way : Nat) (l : ArcLine), stagingUsable s addr.toNat = true ∧ missIndex s addr.toNat = none ∧ arcFind s addr.toNat = some (way, l) ∧ (lineDecode l.err).1 = .good :=
  ⟨wArc true State.reset, .plaza 1, 0x8000000040, 3, wArcL true, by decide +kernel⟩

theorem wit_CachesFillDrainAndControl_3 : ∃ (s : State) (sender : ArcFrom) (addr : BitVec 40) (bs : List Byte) (way : Nat) (l : ArcLine), stagingUsable s addr.toNat = true ∧ missIndex s addr.toNat = none ∧ arcFind s addr.toNat = some (way, l) ∧ (lineDecode l.err).1 = .good :=
  ⟨wArc false State.reset, .plaza 1, 0x8000000048, [1, 2, 3, 4], 3, wArcL false, by decide +kernel⟩

theorem wit_CachesFillDrainAndControl_4 : ∃ (s : State) (sender : ArcFrom) (addr : BitVec 40) (store : Option (List Byte)), stagingUsable s addr.toNat = true ∧ missIndex s addr.toNat = none ∧ arcFind s addr.toNat = none ∧ (s.arcade.miss[arcBank addr.toNat]!).length < 16 ∧ arcState s = 1 :=
  ⟨wArcE State.reset, .plaza 1, 0x8000000048, none, by decide +kernel⟩

theorem wit_CachesFillDrainAndControl_5 : ∃ (s : State) (sender : ArcFrom) (addr : BitVec 40) (store : Option (List Byte)) (i : Nat) (m : MissReg), stagingUsable s addr.toNat = true ∧ missIndex s addr.toNat = some i ∧ (s.arcade.miss[arcBank addr.toNat]!)[i]? = some m ∧ m.reqs.length ≤ 8 ∧ m.alloc = true :=
  ⟨wArcM State.reset, .plaza 1, 0x8000000048, none, 0, wMiss, by decide +kernel⟩

theorem wit_CachesFillDrainAndControl_6 : ∃ (s : State) (sender : ArcFrom) (addr : BitVec 40) (store : Option (List Byte)), stagingUsable s addr.toNat = true ∧ missIndex s addr.toNat = none ∧ arcFind s addr.toNat = none ∧ 16 ≤ (s.arcade.miss[arcBank addr.toNat]!).length :=
  ⟨{ wArcE State.reset with arcade := { State.reset.arcade with miss := State.reset.arcade.miss.set 1 (List.replicate 16 { wMiss with line := 0x8000001040 }) } }, .plaza 1, 0x8000000048, none, by decide +kernel⟩

theorem wit_CachesFillDrainAndControl_7 : ∃ (s u : State) (bank : Fin 4) (reg : Fin 16) (m : MissReg) (r : ArcReq) (bs : List Byte) (p : Bool), (s.arcade.miss[bank.val]!)[reg.val]? = some m ∧ m.alloc = false ∧ s.arcade.waiting[bank.val]! = [] ∧ m.reqs.all (fun r => r.store.isNone) = true ∧ m.reqs.getLast? = some r ∧ dramRead (setMiss s bank.val ((s.arcade.miss[bank.val]!).eraseIdx reg.val)) m.line = (u, bs, p) :=
   ⟨wArcF, (dramRead (setMiss wArcF (1 : Fin 4).val ((wArcF.arcade.miss[(1 : Fin 4).val]!).eraseIdx (0 : Fin 16).val)) wMissF.line).1, 1, 0, wMissF, ⟨0, 0x8000000040, none, 0⟩, (dramRead (setMiss wArcF (1 : Fin 4).val ((wArcF.arcade.miss[(1 : Fin 4).val]!).eraseIdx (0 : Fin 16).val)) wMissF.line).2.1, (dramRead (setMiss wArcF (1 : Fin 4).val ((wArcF.arcade.miss[(1 : Fin 4).val]!).eraseIdx (0 : Fin 16).val)) wMissF.line).2.2, by decide +kernel, rfl, by decide +kernel, by decide +kernel, rfl, rfl⟩

theorem wit_CachesFillDrainAndControl_8 : ∃ (s : State) (agent : Agent), arcState s = 1 :=
  ⟨wArcE State.reset, .core 0, by decide +kernel⟩

theorem wit_CachesFillDrainAndControl_9 : ∃ (s : State) (agent : Agent), arcState s = 0 :=
  ⟨State.reset, .core 0, by decide +kernel⟩

theorem wit_CachesFillDrainAndControl_10 : ∃ (s : State) (agent : Agent), arcState s = 2 :=
  ⟨fput State.reset fldARC_STAT_STATE 2, .core 0, by decide +kernel⟩

theorem wit_CachesFillDrainAndControl_11 : ∃ (s : State), arcState s = 2 ∧ s.arcade.miss = #v[[], [], [], []] ∧ s.arcade.waiting = #v[[], [], [], []] ∧ fget s fldARC_STAT_EN_PEND = 0 ∧ s.arcade.lines.all (fun p => (lineDecode p.2.err).1 == .good) = true ∧ s.chkErr = [] ∧ s.dram.toList.all (fun c => c.checks.all (fun b => b.2.rest == 0)) = true :=
  ⟨fput (wArc true State.reset) fldARC_STAT_STATE 2, by decide +kernel⟩

theorem wit_CachesFillDrainAndControl_12 : ∃ (s : State) (agent : Agent) (n : Fin 4) (mask : BitVec 16), (setBits 16 mask.toNat).length < 2 :=
  ⟨State.reset, .core 0, 2, 0x40, by decide +kernel⟩

theorem wit_CachesFillDrainAndControl_13 : ∃ (s : State) (agent : Agent) (n : Fin 4) (mask : BitVec 16), 2 ≤ (setBits 16 mask.toNat).length :=
  ⟨State.reset, .core 0, 2, 0x41, by decide +kernel⟩

theorem wit_CachesFillDrainAndControl_14 : ∃ (s : State) (agent : Agent) (p : CoreId), l1On s p .data = true ∧ s.l1d[p].miss = [] :=
  ⟨fputAt { State.reset with l1d := State.reset.l1d.set 2 ⟨[(5, ⟨1, [], 2, 0⟩)], 3, [], false⟩ } fldL1_CTL_DEN 2 true, .core 0, 2, by decide +kernel⟩

theorem wit_CachesFillDrainAndControl_15 : ∃ (s : State) (agent : Agent) (p : CoreId), l1On s p .instr = true ∧ s.l1i[p].miss ≠ [] :=
  ⟨fputAt { State.reset with l1i := State.reset.l1i.set 2 ⟨[(5, ⟨1, [], 2, 0⟩)], 3, [⟨64, [], 0⟩], false⟩ } fldL1_CTL_IEN 2 true, .core 0, 2, by decide +kernel⟩

theorem sram_flips_none {s : State} (h1 : s.tcmErr = []) (h2 : s.arcade.lines = []) (h3 : ∀ p : Fin 4, s.l1d[p].lines = [])
    (h4 : ∀ p : Fin 4, s.l1i[p].lines = []) (h5 : s.sramErr = []) (m w : Nat) : sramFlips s m w = 0 := by
  unfold sramFlips
  split
  · rw [h1]; rfl
  · rw [h2]; simp only [aget?, Option.map_none, Option.getD_none, Nat.zero_div, Nat.zero_mod]
  · rw [h3]; simp only [aget?, Option.map_none, Option.getD_none, Nat.zero_div, Nat.zero_mod]
  · rw [h4]; simp only [aget?, Option.map_none, Option.getD_none, Nat.zero_div, Nat.zero_mod]
  · rw [h5]; rfl


theorem wit_DramQueuesAndRows_1 : ∃ (s : State) (sender : DramFrom) (write : Bool) (addr : BitVec 40) (data : List Byte) (c : Fin 4), stagingUsable s addr.toNat = true ∧ (dramPlace s addr.toNat).chan = c.val ∧ xingArmed s (Fin.ofNat 52 (38 + c.val)) = true ∧ s.dram[c].queue.length < 69 ∧ s.dram[c].waiting = [] :=
  ⟨wDram, .hostMove, false, 0x8000000048, [], 0, by decide +kernel⟩

theorem wit_DramQueuesAndRows_2 : ∃ (s : State) (sender : DramFrom) (write : Bool) (addr : BitVec 40) (data : List Byte) (c : Fin 4), stagingUsable s addr.toNat = true ∧ (dramPlace s addr.toNat).chan = c.val ∧ xingArmed s (Fin.ofNat 52 (38 + c.val)) = true ∧ s.dram[c].queue.length = 69 :=
  ⟨modDram wDram 0 (fun ch => { ch with queue := List.replicate 69 (wDq none) }), .hostMove, false, 0x8000000048, [], 0, by decide +kernel⟩

theorem wit_DramQueuesAndRows_3 : ∃ (s : State) (sender : DramFrom) (write : Bool) (addr : BitVec 40) (data : List Byte), stagingUsable s addr.toNat = false :=
  ⟨State.reset, .seFill, false, 0x8000000048, [], by decide +kernel⟩

theorem wit_DramQueuesAndRows_4 : ∃ (s : State) (sender : DramFrom) (write : Bool) (addr : BitVec 40) (data : List Byte) (c : Fin 4), stagingUsable s addr.toNat = true ∧ (dramPlace s addr.toNat).chan = c.val ∧ xingArmed s (Fin.ofNat 52 (38 + c.val)) = false :=
  ⟨fput State.reset fldDRAM_STAT_STATE 2, .encoder, false, 0x8000000048, [], 0, by decide +kernel⟩

theorem wit_DramQueuesAndRows_5 : ∃ (s : State) (c : DramChan) (r : DramReq) (check : BitVec 512), (fget s fldDRAM_STAT_STATE = 2 ∨ fget s fldDRAM_STAT_STATE = 3) ∧ s.dram[c].queue = [r] ∧ s.dram[c].waiting = [] ∧ r.store = none ∧ (dramPlace s r.addr).ch = c ∧ fget s fldDRAM_CTL_PAGE_MODE = 1 :=
  ⟨modDram (fput wDram fldDRAM_CTL_PAGE_MODE 1) 0 (fun ch => { ch with queue := [wDq none] }), 0, wDq none, 5, by decide +kernel⟩

theorem wit_DramQueuesAndRows_6 : ∃ (s : State) (c : DramChan) (r : DramReq) (bs : List Byte) (check : BitVec 512), (fget s fldDRAM_STAT_STATE = 2 ∨ fget s fldDRAM_STAT_STATE = 3) ∧ s.dram[c].queue = [r] ∧ s.dram[c].waiting = [] ∧ r.store = some bs ∧ bs.length = 64 ∧ r.addr % 64 = 0 ∧ (dramPlace s r.addr).ch = c ∧ aget? s.dram[c].rows (reqBank s r) = some (reqRow s r) ∧ fget s fldDRAM_CTL_PAGE_MODE = 2 :=
  ⟨modDram (fput wDram fldDRAM_CTL_PAGE_MODE 2) 0 (fun ch => { ch with queue := [{ wDq (some (List.replicate 64 9)) with addr := 0x8000000040 }], rows := [(0, 0)] }), 0, { wDq (some (List.replicate 64 9)) with addr := 0x8000000040 }, List.replicate 64 9, 5, by decide +kernel⟩

theorem wit_DramQueuesAndRows_7 : ∃ (s : State) (c : DramChan) (bank : Fin 32) (row : Nat), aget? s.dram[c].rows bank.val = some row ∧ s.dram[c].queue = [] :=
  ⟨modDram wDram 0 (fun ch => { ch with rows := [(3, 9)] }), 0, 3, 9, by decide +kernel⟩

theorem wit_DramQueuesAndRows_8 : ∃ (s u : State) (i k : Fin 2) (r : DramReq) (rest : List DramReq) (flips : BitVec 512) (bs : List Byte) (p : Bool), s.dram[ifChan i k].returns = r :: rest ∧ dramRead (flipData (modDram s (ifChan i k) (fun ch => { ch with returns := rest })) (eccWord r.addr) flips.toNat) (eccWord r.addr) = (u, bs, p) :=
   ⟨modDram wDram 0 (fun ch => { ch with returns := [wDq none] }), _, 0, 0, wDq none, [], 3, _, _, rfl, rfl⟩

theorem wit_DramQueuesAndRows_9 : ∃ (s : State) (i k : Fin 2) (r : DramReq) (rest : List DramReq), s.dram[ifChan i k].returns = r :: rest ∧ aget? s.dramErr (eccWord r.addr) = none ∧ checkLook s (eccWord r.addr) = (.good, 0) :=
  ⟨modDram wDram 0 (fun ch => { ch with returns := [wDq none] }), 0, 0, wDq none, [], by decide +kernel⟩

theorem wit_DramQueuesAndRows_10 : ∃ (s : State) (i k : Fin 2) (r : DramReq) (rest : List DramReq) (bit : Fin 512), s.dram[ifChan i k].returns = r :: rest ∧ aget? s.dramErr (eccWord r.addr) = none ∧ checkLook s (eccWord r.addr) = (.good, 0) ∧ isRemapped s (dramPlace s (eccWord r.addr)).chan (remapWord (dramPlace s (eccWord r.addr))) = false :=
  ⟨modDram wDram 0 (fun ch => { ch with returns := [wDq none] }), 0, 0, wDq none, [], 77, by decide +kernel⟩

theorem wit_DramQueuesAndRows_11 : ∃ (s : State) (c : DramChan) (bank : Fin 32), (fget s fldDRAM_STAT_STATE = 2 ∨ fget s fldDRAM_STAT_STATE = 3) ∧ s.dram[c].queue ≠ [] ∧ bankCount s.dram[c].debt bank.val < 8 ∧ s.dram[c].queue.any (reqAged s) = false :=
  ⟨modDram wDram 0 (fun ch => { ch with queue := [wDq none] }), 0, 3, by decide +kernel⟩

theorem wit_DramQueuesAndRows_12 : ∃ (s : State) (c : DramChan) (bank : Fin 32), (fget s fldDRAM_STAT_STATE = 2 ∨ fget s fldDRAM_STAT_STATE = 3) ∧ s.dram[c].queue = [] :=
  ⟨modDram wDram 0 (fun ch => { ch with rows := [(3, 9)] }), 0, 3, by decide +kernel⟩

theorem wit_DramQueuesAndRows_13 : ∃ (s : State) (c : DramChan) (rate : BitVec 8), (fget s fldDRAM_STAT_STATE = 2 ∨ fget s fldDRAM_STAT_STATE = 3) :=
  ⟨wDram, 0, 0x55, by decide +kernel⟩

theorem wit_DramQueuesAndRows_15 : ∃ (s : State) (c : DramChan), (fget s fldDRAM_STAT_STATE = 2 ∨ fget s fldDRAM_STAT_STATE = 3) ∧ fget s fldDRAM_CTL_SCRUB_EN = 1 ∧ fget s (fldDCH_STAT_RETRAINING c.val) = 0 ∧ s.arcade.lines = [] ∧ s.arcade.miss = #v[[], [], [], []] ∧ s.dramErr = [] ∧ s.chkErr = [] ∧ s.poison = [] ∧ s.dram[c].checks.all (fun b => b.2.rest == 0) = true ∧ s.dram[c].scrub + 1 < scrubRows s :=
   ⟨fset wDram fldDRAM_CTL_SCRUB_EN, 0, by decide +kernel⟩

theorem wit_DramModesAndRemaps_1 : ∃ (s : State) (agent : Agent) (value : BitVec 32), (fget s fldDRAM_STAT_STATE = 0 ∨ fget s fldDRAM_STAT_STATE = 5) :=
  ⟨State.reset, .core 0, 0x1F0100, by decide +kernel⟩

theorem wit_DramModesAndRemaps_2 : ∃ (s : State) (agent : Agent) (value : BitVec 32), (fget s fldDRAM_STAT_STATE = 0 ∨ fget s fldDRAM_STAT_STATE = 5) ∧ maskLegal s 0 (bitsOf value.toNat 22 0) = false :=
  ⟨State.reset, .core 0, 2, by decide +kernel⟩

theorem wit_DramModesAndRemaps_3 : ∃ (s : State) (agent : Agent) (n : Fin 2) (k : Fin 6) (value : BitVec 32), (fget s fldDRAM_STAT_STATE = 0 ∨ fget s fldDRAM_STAT_STATE = 5) ∧ maskLegal s (k.val + 1) (bitsOf value.toNat 22 0) = true :=
  ⟨State.reset, .core 0, 1, 2, 0x108, by decide +kernel⟩

theorem wit_DramModesAndRemaps_4 : ∃ (s : State) (agent : Agent) (reg : DramMapReg) (value : BitVec 32), 1 ≤ fget s fldDRAM_STAT_STATE ∧ fget s fldDRAM_STAT_STATE ≤ 4 :=
  ⟨wDram, .core 0, .cfg, 2, by decide +kernel⟩

theorem wit_DramModesAndRemaps_5 : ∃ (s : State) (agent : Agent), (fget s fldDRAM_STAT_STATE = 0 ∨ fget s fldDRAM_STAT_STATE = 5) :=
  ⟨State.reset, .core 0, by decide +kernel⟩

theorem wit_DramModesAndRemaps_6 : ∃ (s : State), fget s fldDRAM_STAT_STATE = 1 :=
  ⟨{ fput State.reset fldDRAM_STAT_STATE 1 with mem := [(5, 1), (0x8000000005, 2)] }, by decide +kernel⟩

theorem wit_DramModesAndRemaps_7 : ∃ (s : State) (c : DramChan), fget s fldDRAM_STAT_STATE = 1 :=
  ⟨fput State.reset fldDRAM_STAT_STATE 1, 2, by decide +kernel⟩

theorem wit_DramModesAndRemaps_8 : ∃ (s : State) (agent : Agent) (c : DramChan) (entry : Fin 8) (word : BitVec 26), fget s (fldDCH_REMAP_VALID c.val entry.val) = 0 ∧ isRemapped s c.val word.toNat = false ∧ s.dramErr = [] ∧ s.chkErr = [] ∧ stagingUsable s (remapAddr s c.val word.toNat) = true ∧ word.toNat % 32 ≠ 31 :=
  ⟨fput wDram (fldDCH_STAT_FREE 1) 8, .core 0, 1, 3, 0x000025, by decide +kernel⟩

theorem wit_DramModesAndRemaps_9 : ∃ (s : State) (agent : Agent) (c : DramChan) (entry : Fin 8) (word : BitVec 26), fget s (fldDCH_REMAP_VALID c.val entry.val) = 1 ∧ fget s (fldDCH_REMAP_WORD c.val entry.val) ≠ word.toNat :=
  ⟨fset wDram (fldDCH_REMAP_VALID 1 3), .core 0, 1, 3, 0x000025, by decide +kernel⟩

theorem wit_DramModesAndRemaps_10 : ∃ (s : State) (agent : Agent) (c : DramChan) (entry : Fin 8), fget s (fldDCH_REMAP_VALID c.val entry.val) = 1 ∧ fget s (fldDCH_STAT_FREE c.val) < 8 :=
  ⟨fput (fset wDram (fldDCH_REMAP_VALID 1 3)) (fldDCH_STAT_FREE 1) 7, .core 0, 1, 3, by decide +kernel⟩

theorem wit_DramModesAndRemaps_11 : ∃ (s : State) (c : DramChan) (drift : BitVec 16), dramRuns s = true ∧ fget s fldDRAM_DRIFT_DRIFT_LIM < drift.toInt.natAbs :=
  ⟨wDram, 2, 0x8001, by decide +kernel⟩

theorem wit_DramModesAndRemaps_13 : ∃ (s : State) (c : DramChan), mayRetrain s c = true ∧ sweepRunning s = false :=
  ⟨fput wDram fldDRAM_STAT_RETRAIN_PEND 4, 2, by decide +kernel⟩

theorem wit_DramModesAndRemaps_14 : ∃ (s : State) (c : DramChan), fget s (fldDCH_STAT_RETRAINING c.val) = 1 ∧ s.dramSelfReq = false :=
  ⟨fset (fput wDram fldDRAM_STAT_STATE 3) (fldDCH_STAT_RETRAINING 2), 2, by decide +kernel⟩

theorem wit_DramModesAndRemaps_15 : ∃ (s : State) (c : DramChan), fget s (fldDCH_STAT_RETRAINING c.val) = 1 :=
  ⟨fset (fput wDram fldDRAM_STAT_STATE 3) (fldDCH_STAT_RETRAINING 2), 2, by decide +kernel⟩

theorem wit_DramModesAndRemaps_16 : ∃ (s : State) (m : Fin 1024) (word : BitVec 20) (flips : BitVec 72), macroPresent s m.val = true ∧ macroRemapped s m.val word.toNat = false ∧ (sramDecode (sramFlips s m.val word.toNat ^^^ flips.toNat)).1 = .ce :=
   ⟨wr State.reset (regMEMR_INFO 5) 0x80000000, 5, 9, 4, by decide +kernel, by decide +kernel, by rw [sram_flips_none rfl rfl (by decide +kernel) (by decide +kernel) rfl]; decide⟩

theorem wit_HostPortsAndQueues_1 : ∃ (s : State) (port : Port) (gen3 low : Bool), portPresent s.variant port.val = true ∧ portEnabled s port.val = true ∧ linkState s port.val = 1 :=
  ⟨fput (fset State.reset fldHOST_CTL_PORT1_EN) fldHOST_LINK1_STATE 1, 1, true, false, by decide +kernel⟩

theorem wit_HostPortsAndQueues_2 : ∃ (s : State) (port : Port) (gen3 low : Bool), portPresent s.variant port.val = true ∧ portEnabled s port.val = true ∧ (linkState s port.val = 2 ∨ linkState s port.val = 3) :=
  ⟨fput (fset State.reset fldHOST_CTL_PORT1_EN) fldHOST_LINK1_STATE 2, 1, true, true, by decide +kernel⟩

theorem wit_HostPortsAndQueues_3 : ∃ (s : State) (port : Port), portPresent s.variant port.val = true ∧ (linkState s port.val = 2 ∨ linkState s port.val = 3) :=
  ⟨fput (fset (wHost (wCtx 4 [])) fldHOST_CTL_PORT0_EN) fldHOST_LINK0_STATE 2, 0, by decide +kernel⟩

theorem wit_HostPortsAndQueues_4 : ∃ (s : State) (port : Port), portPresent s.variant port.val = true :=
  ⟨wr (wHost (wCtx 4 [])) (regOCFG 0) 1, 0, by decide +kernel⟩

theorem wit_HostPortsAndQueues_5 : ∃ (s : State) (port : Port), portPresent s.variant port.val = true ∧ fbit s (fldOCFG_EN port.val) = false ∧ s.host.qps.length < 512 :=
  ⟨wHost (wCtx 4 []), 1, by decide +kernel⟩

theorem wit_HostPortsAndQueues_6 : ∃ (s : State) (port : Port) (q : Fin 512) (tail : BitVec 32) (x : Qpair), portPresent s.variant port.val = true ∧ qpFind s port.val q.val = some x ∧ tail.toNat < x.sqSize :=
  ⟨wHost (wCtx 4 []), 0, 3, 7, wQp 3, by decide +kernel⟩

theorem wit_HostPortsAndQueues_7 : ∃ (s : State) (port : Port) (q : Fin 512) (tail : BitVec 32) (x : Qpair), portPresent s.variant port.val = true ∧ qpFind s port.val q.val = some x ∧ x.sqSize ≤ tail.toNat :=
  ⟨wHost (wCtx 4 []), 0, 3, 9, wQp 3, by decide +kernel⟩

theorem wit_HostPortsAndQueues_8 : ∃ (s : State) (port : Port) (q : Fin 512) (head : BitVec 32) (x : Qpair), portPresent s.variant port.val = true ∧ s.host.qps = [x] ∧ x.port = port.val ∧ x.num = q.val ∧ x.held = [] ∧ x.deleting = none ∧ s.host.ctxs = [] ∧ head.toNat < x.cqSize ∧ (head.toNat + x.cqSize - x.cqHead) % x.cqSize ≤ (x.cqTail + x.cqSize - x.cqHead) % x.cqSize :=
  ⟨{ State.reset with host := { State.reset.host with qps := [wQp 3] } }, 0, 3, 3, wQp 3, by decide +kernel⟩

theorem wit_HostPortsAndQueues_9 : ∃ (s : State) (entry list : List Byte) (q : Qpair) (used n : Nat), fget s fldHOST_CTL_FETCH_EN = 1 ∧ fetchPick s = some (q, used) ∧ s.host.ctxs.length < clampNat (fget s fldHOST_CTX_MAX) 1 4096 ∧ ctxFree s = some n ∧ entry.length = 64 ∧ s.host.ctxs.any (fun x => x.port == q.port && x.qp == q.num && ctxTag x == entryNum entry 2 2) = false ∧ opcodeFits (entryNum entry 0 1) q.num = true ∧ fieldsBad entry list = false :=
  ⟨wFetch { State.reset with host := { State.reset.host with qps := [wQp 3] } }, (wCtx 0x10 []).entry, [], wQp 3, 1, 0, by decide +kernel⟩

theorem wit_HostPortsAndQueues_10 : ∃ (s : State) (entry : Option (List Byte)) (list : List Byte) (q : Qpair) (used : Nat), fget s fldHOST_CTL_FETCH_EN = 1 ∧ fetchPick s = some (q, used) ∧ clampNat (fget s fldHOST_CTX_MAX) 1 4096 ≤ s.host.ctxs.length :=
  ⟨fput (wFetch (wHost (wCtx 4 []))) fldHOST_CTX_MAX 1, none, [], wQp 3, 1, by decide +kernel⟩

theorem wit_HostPortsAndQueues_11 : ∃ (s : State) (agent : Agent) (ctx : Fin 4096) (status : BitVec 15), ctxFind s ctx.val = none :=
  ⟨State.reset, .core 0, 5, 0, by decide +kernel⟩

theorem wit_HostPortsAndQueues_12 : ∃ (s : State) (agent : Agent) (ctx : Fin 4096) (status : BitVec 15) (c : HostCtx) (q : Qpair) (bs : List Byte), soleCommand s c q ∧ ctx.val = c.num ∧ memRead s 3 (ctxAddr s c.num + 64) 8 = (s, some (bs, false)) :=
  ⟨fput (wHost (wCtx 4 [])) fldHOST_QP_BASE_BASE 0x1000, .core 0, 6, 0x105, wCtx 4 [], wQp 3, List.replicate 8 0, by decide +kernel⟩

theorem wit_HostPortsAndQueues_13 : ∃ (s : State) (port : Port) (q : Fin 512) (x : Qpair) (since : DWord), qpFind s port.val q.val = some x ∧ x.unsig = some since ∧ vectorMasked s port.val x.vector = false :=
  ⟨{ State.reset with host := { State.reset.host with qps := [{ wQp 3 with unsig := some 5 }], msixTab := [(11, 0)] } }, 0, 3, { wQp 3 with unsig := some 5 }, 5, by decide +kernel⟩

theorem wit_HostManagementCommands_1 : ∃ (s : State) (ctx : Fin 4096) (c : HostCtx) (q : Qpair), soleCommand s c q ∧ ctx.val = c.num ∧ ctxOpcode c = 0x01 ∧ entryNum c.entry 36 2 ≠ 0 ∧ entryNum c.entry 36 2 ≤ 511 ∧ (entryNum c.entry 36 2 ≠ q.num ∨ q.port ≠ c.port) ∧ entryNum c.entry 38 2 ≠ 0 ∧ entryNum c.entry 40 2 ≠ 0 ∧ entryNum c.entry 8 8 % 4096 = 0 ∧ entryNum c.entry 48 8 % 4096 = 0 ∧ entryNum c.entry 42 1 ≤ 63 ∧ 1 ≤ entryNum c.entry 43 1 ∧ entryNum c.entry 43 1 ≤ 16 ∧ 1 ≤ entryNum c.entry 44 2 ∧ entryNum c.entry 44 2 ≤ 4096 :=
  ⟨wHost (wCtx 1 (List.replicate 5 0 ++ [0x10] ++ List.replicate 26 0 ++ [5, 0, 7, 0, 8, 0, 1, 2, 0x40, 0, 9, 0, 0, 0x20])), 6, wCtx 1 (List.replicate 5 0 ++ [0x10] ++ List.replicate 26 0 ++ [5, 0, 7, 0, 8, 0, 1, 2, 0x40, 0, 9, 0, 0, 0x20]), wQp 3, by decide +kernel⟩

theorem wit_HostManagementCommands_2 : ∃ (s : State) (ctx : Fin 4096) (c : HostCtx) (q : Qpair), soleCommand s c q ∧ ctx.val = c.num ∧ ctxOpcode c = 0x02 ∧ qpFind s c.port (entryNum c.entry 36 2) = none :=
  ⟨wHost (wCtx 2 []), 6, wCtx 2 [], wQp 3, by decide +kernel⟩

theorem wit_HostManagementCommands_3 : ∃ (s : State) (ctx : Fin 4096) (c : HostCtx) (q x : Qpair), s.host.ctxs = [c] ∧ s.host.qps = [q, x] ∧ c.port = q.port ∧ c.qp = q.num ∧ x.port = q.port ∧ x.num ≠ q.num ∧ entryNum c.entry 36 2 = x.num ∧ x.num ≠ 0 ∧ c.done = none ∧ c.waitFor = none ∧ q.held = [] ∧ x.held = [] ∧ q.deleting = none ∧ x.deleting = none ∧ cqFull q = false ∧ q.coal = 0 ∧ vectorMasked s q.port q.vector = false ∧ ctx.val = c.num ∧ ctxOpcode c = 0x02 :=
  ⟨{ State.reset with host := { State.reset.host with ctxs := [wCtx 2 (List.replicate 32 0 ++ [5])], qps := [wQp 3, wQp 5], msixTab := [(11, 0)] } }, 6, wCtx 2 (List.replicate 32 0 ++ [5]), wQp 3, wQp 5, by decide +kernel⟩

theorem wit_HostManagementCommands_4 : ∃ (s : State) (ctx : Fin 4096) (c : HostCtx) (q : Qpair), soleCommand s c q ∧ ctx.val = c.num ∧ ctxOpcode c = 0x03 ∧ entryNum c.entry 36 2 ≠ 0 ∧ (¬(c.qp = entryNum c.entry 36 2 ∧ ctxTag c = entryNum c.entry 38 2)) :=
  ⟨wHost (wCtx 3 (List.replicate 32 0 ++ [5])), 6, wCtx 3 (List.replicate 32 0 ++ [5]), wQp 3, by decide +kernel⟩

theorem wit_HostManagementCommands_5 : ∃ (s : State) (ctx : Fin 4096) (c : HostCtx) (q : Qpair), soleCommand s c q ∧ ctx.val = c.num ∧ ctxOpcode c = 0x04 ∧ ctxLen c = 4096 :=
  ⟨wHost (wCtx 4 []), 6, wCtx 4 [], wQp 3, by decide +kernel⟩

theorem wit_HostManagementCommands_6 : ∃ (s : State) (ctx : Fin 4096) (c : HostCtx) (q : Qpair), soleCommand s c q ∧ ctx.val = c.num ∧ ctxOpcode c = 0x04 ∧ ctxLen c ≠ 4096 :=
  ⟨wHost { wCtx 4 [] with segs := [] }, 6, { wCtx 4 [] with segs := [] }, wQp 3, by decide +kernel⟩

theorem wit_HostManagementCommands_7 : ∃ (s : State) (ctx : Fin 4096) (c : HostCtx) (q : Qpair), soleCommand s c q ∧ ctx.val = c.num ∧ ctxOpcode c = 0x05 ∧ entryNum c.entry 36 1 = 1 ∧ ctxLen c = 4096 ∧ s.host.events.length ≤ 128 :=
  ⟨wHost (wCtx 5 (List.replicate 32 0 ++ [1])), 6, wCtx 5 (List.replicate 32 0 ++ [1]), wQp 3, by decide +kernel⟩

theorem wit_HostManagementCommands_8 : ∃ (s : State) (ctx : Fin 4096) (c : HostCtx) (q : Qpair), soleCommand s c q ∧ ctx.val = c.num ∧ ctxOpcode c = 0x05 ∧ entryNum c.entry 36 1 = 2 ∧ ctxLen c = 4096 ∧ s.host.pathLog.length ≤ 128 :=
  ⟨wHost (wCtx 5 (List.replicate 32 0 ++ [2])), 6, wCtx 5 (List.replicate 32 0 ++ [2]), wQp 3, by decide +kernel⟩

theorem wit_HostManagementCommands_9 : ∃ (s : State) (ctx : Fin 4096) (c : HostCtx) (q : Qpair), soleCommand s c q ∧ ctx.val = c.num ∧ ctxOpcode c = 0x06 ∧ c.begun = false :=
  ⟨wHost (wCtx 6 []), 6, wCtx 6 [], wQp 3, by decide +kernel⟩

theorem wit_HostManagementCommands_10 : ∃ (s : State) (code : BitVec 16) (oid : BitVec 128) (c : HostCtx) (q : Qpair), soleCommand s c q ∧ ctxOpcode c = 0x06 ∧ c.begun = true :=
  ⟨wHost { wCtx 6 [] with begun := true }, 0x1234, 5, { wCtx 6 [] with begun := true }, wQp 3, by decide +kernel⟩

theorem wit_HostReadsWritesAndFlushes_1 : ∃ (s : State) (ctx : Fin 4096) (medium : List MediumBlock) (c : HostCtx) (q : Qpair) (bs : List Byte) (lba n : Nat), soleCommand s c q ∧ ctx.val = c.num ∧ ctxOpcode c = 0x10 ∧ ioGate s false true = none ∧ countBad c 4096 = false ∧ rangeBad s (ctxLba c) (ctxCount c) = none ∧ lba = ctxLba c + c.moved ∧ n = ctxCount c - c.moved ∧ blocksRead s n lba medium = (bs, none) ∧ bs.length = 4096 * n :=
  ⟨wAccB (wIo 0x10 (wEnt [5] [1])), 6, [], wCtx 0x10 (wEnt [5] [1]), wQp 3, List.replicate 4096 3, 5, 1, by decide +kernel⟩

theorem wit_HostReadsWritesAndFlushes_2 : ∃ (s : State) (ctx : Fin 4096) (medium : List MediumBlock) (c : HostCtx) (q : Qpair) (bs : List Byte) (lba n : Nat), soleCommand s c q ∧ ctx.val = c.num ∧ ctxOpcode c = 0x10 ∧ ioGate s false true = none ∧ countBad c 4096 = false ∧ rangeBad s (ctxLba c) (ctxCount c) = none ∧ lba = ctxLba c + c.moved ∧ n = ctxCount c - c.moved ∧ blocksRead s n lba medium = (bs, none) ∧ bs.length ≠ 4096 * n :=
  ⟨wAccB (wDisc (wHost { wCtx 0x10 (wEnt [5] [2]) with segs := [(0x5000, 8192)] })), 6, [], { wCtx 0x10 (wEnt [5] [2]) with segs := [(0x5000, 8192)] }, wQp 3, List.replicate 4096 3, 5, 2, by decide +kernel⟩

theorem wit_HostReadsWritesAndFlushes_3 : ∃ (s : State) (ctx : Fin 4096) (medium : List MediumBlock) (c : HostCtx) (q : Qpair) (bs : List Byte) (lba n l st : Nat), soleCommand s c q ∧ ctx.val = c.num ∧ ctxOpcode c = 0x10 ∧ ioGate s false true = none ∧ countBad c 4096 = false ∧ rangeBad s (ctxLba c) (ctxCount c) = none ∧ lba = ctxLba c + c.moved ∧ n = ctxCount c - c.moved ∧ blocksRead s n lba medium = (bs, some (l, st)) :=
  ⟨wAcc (wIo 0x10 (wEnt [6] [1])), 6, [.poisoned], wCtx 0x10 (wEnt [6] [1]), wQp 3, [], 6, 1, 6, stPoisoned, by decide +kernel⟩

theorem wit_HostReadsWritesAndFlushes_4 : ∃ (s : State) (ctx : Fin 4096) (medium : List MediumBlock) (c : HostCtx) (q : Qpair) (st : Nat), soleCommand s c q ∧ ctx.val = c.num ∧ ctxOpcode c = 0x10 ∧ ioGate s false true = some st :=
  ⟨wHost (wCtx 0x10 (wEnt [6] [1])), 6, [], wCtx 0x10 (wEnt [6] [1]), wQp 3, stNotReady, by decide +kernel⟩

theorem wit_HostReadsWritesAndFlushes_5 : ∃ (s : State) (ctx : Fin 4096) (c : HostCtx) (q : Qpair), soleCommand s c q ∧ ctx.val = c.num ∧ ctxOpcode c = 0x11 ∧ c.begun = false ∧ ioGate s true true = none ∧ 1 ≤ ctxCount c ∧ ctxCount c ≤ 8192 ∧ ctxLen c = 4096 * ctxCount c ∧ rangeBad s (ctxLba c) (ctxCount c) = none ∧ zoneObject s (ctxLba c / zoneBlocks) = false ∧ zoneBars s (ctxLba c / zoneBlocks) = none :=
  ⟨wIo 0x11 (wEnt [40] [1]), 6, wCtx 0x11 (wEnt [40] [1]), wQp 3, by decide +kernel⟩

theorem wit_HostReadsWritesAndFlushes_6 : ∃ (s : State) (ctx : Fin 4096) (c : HostCtx) (q : Qpair), soleCommand s c q ∧ ctx.val = c.num ∧ ctxOpcode c = 0x12 ∧ c.begun = false ∧ ioGate s true true = none ∧ 1 ≤ ctxCount c ∧ ctxCount c ≤ 8192 ∧ ctxLen c = 4096 * ctxCount c ∧ ctxLba c % zoneBlocks = 0 ∧ rangeBad s (ctxLba c) (ctxCount c) = none ∧ zoneObject s (ctxLba c / zoneBlocks) = false ∧ zoneBars s (ctxLba c / zoneBlocks) = none :=
  ⟨wIo 0x12 (wEnt [0, 0, 0x80] [1]), 6, wCtx 0x12 (wEnt [0, 0, 0x80] [1]), wQp 3, by decide +kernel⟩

theorem wit_HostReadsWritesAndFlushes_7 : ∃ (s : State) (ctx : Fin 4096) (data : List Byte) (c : HostCtx) (q : Qpair) (n : Nat), soleCommand s c q ∧ ctx.val = c.num ∧ (ctxOpcode c = 0x11 ∨ ctxOpcode c = 0x12) ∧ c.begun = true ∧ c.accepted = false ∧ ctxFua c = false ∧ n = ctxLba c / zoneBlocks ∧ zoneBars s n = none ∧ (ctxOpcode c = 0x12 ∨ ctxLba c = n * zoneBlocks + (zoneOf s n).wp) ∧ (zoneOf s n).wp + ctxCount c < zoneCap s n ∧ siRoom s n (n * zoneBlocks + (zoneOf s n).wp) = true :=
  ⟨wIo 0x11 (wEnt [40] [1]) |> fun s => { s with host := { s.host with ctxs := [{ wCtx 0x11 (wEnt [40] [1]) with begun := true }] } }, 6, [7, 7], { wCtx 0x11 (wEnt [40] [1]) with begun := true }, wQp 3, 0, by decide +kernel⟩

theorem wit_HostReadsWritesAndFlushes_8 : ∃ (s : State) (ctx : Fin 4096) (data : Option (List Byte)) (c : HostCtx) (q : Qpair) (n : Nat), soleCommand s c q ∧ ctx.val = c.num ∧ ctxOpcode c = 0x11 ∧ c.begun = true ∧ c.accepted = false ∧ data.isSome = true ∧ n = ctxLba c / zoneBlocks ∧ zoneBars s n = none ∧ ctxLba c ≠ n * zoneBlocks + (zoneOf s n).wp :=
  ⟨wIo 0x11 (wEnt [41] [1]) |> fun s => { s with host := { s.host with ctxs := [{ wCtx 0x11 (wEnt [41] [1]) with begun := true }] } }, 6, some [7, 7], { wCtx 0x11 (wEnt [41] [1]) with begun := true }, wQp 3, 0, by decide +kernel⟩

theorem wit_HostReadsWritesAndFlushes_9 : ∃ (s : State) (ctx : Fin 4096) (c : HostCtx) (q : Qpair), soleCommand s c q ∧ ctx.val = c.num ∧ ctxOpcode c = 0x13 ∧ c.begun = false ∧ ioGate s false false = none ∧ writePresent s.variant = false ∧ s.disc.accepted = [] ∧ pointersKept s = true :=
  ⟨{ modDisc (wIo 0x13 []) (fun d => { d with snapZones := [(0, wZone)] }) with variant := .oac7208R }, 6, wCtx 0x13 [], wQp 3, by decide +kernel⟩

theorem wit_HostReadsWritesAndFlushes_10 : ∃ (s : State) (ctx : Fin 4096) (c : HostCtx) (q : Qpair), soleCommand s c q ∧ ctx.val = c.num ∧ ctxOpcode c = 0x13 ∧ c.begun = false ∧ ioGate s false false = none ∧ writePresent s.variant = true ∧ openZones s = 0 ∧ pointersKept s = false :=
  ⟨modDisc (wIo 0x13 []) (fun d => { d with zones := [(0, { wZone with st := 2 })] }), 6, wCtx 0x13 [], wQp 3, by decide +kernel⟩

theorem wit_HostReadsWritesAndFlushes_11 : ∃ (s : State) (ctx : Fin 4096) (c : HostCtx) (q : Qpair), soleCommand s c q ∧ ctx.val = c.num ∧ ctxOpcode c = 0x13 ∧ c.begun = true ∧ snapsFit s = true :=
  ⟨wAcc (wDisc (wHost { wCtx 0x13 [] with begun := true, accAt := 4 })), 6, { wCtx 0x13 [] with begun := true, accAt := 4 }, wQp 3, by decide +kernel⟩

theorem wit_HostReadsWritesAndFlushes_12 : ∃ (s : State) (ctx : Fin 4096) (lba : BitVec 64) (c : HostCtx) (q : Qpair), soleCommand s c q ∧ ctx.val = c.num ∧ ctxOpcode c = 0x13 ∧ c.begun = true :=
  ⟨wAcc (wHost { wCtx 0x13 [] with begun := true, accAt := 4 }), 6, 5, { wCtx 0x13 [] with begun := true, accAt := 4 }, wQp 3, by decide +kernel⟩

theorem wit_HostZoneCommands_1 : ∃ (s : State) (ctx : Fin 4096) (c : HostCtx) (q : Qpair) (n k : Nat), soleCommand s c q ∧ ctx.val = c.num ∧ ctxOpcode c = 0x14 ∧ ioGate s false false = none ∧ 1 ≤ ctxCount c ∧ ctxCount c ≤ 8192 ∧ ctxLen c = 32 * ctxCount c ∧ ctxLba c = n * zoneBlocks ∧ n < zoneCount s ∧ k = Nat.min (ctxCount c) (zoneCount s - n) :=
  ⟨wIo 0x14 (wEnt [0] [128]), 6, wCtx 0x14 (wEnt [0] [128]), wQp 3, 0, 24, by decide +kernel⟩

theorem wit_HostZoneCommands_2 : ∃ (s : State) (ctx : Fin 4096) (c : HostCtx) (q : Qpair) (n : Nat), soleCommand s c q ∧ ctx.val = c.num ∧ ctxOpcode c = 0x15 ∧ entryNum c.entry 36 1 = 0 ∧ ioGate s true false = none ∧ ctxLba c = n * zoneBlocks ∧ n < zoneCount s ∧ zoneBars s n = none :=
  ⟨wIo 0x15 (wEnt [0, 0, 0x80] []), 6, wCtx 0x15 (wEnt [0, 0, 0x80] []), wQp 3, 1, by decide +kernel⟩

theorem wit_HostZoneCommands_3 : ∃ (s : State) (ctx : Fin 4096) (c : HostCtx) (q : Qpair) (n st : Nat), soleCommand s c q ∧ ctx.val = c.num ∧ ctxOpcode c = 0x15 ∧ entryNum c.entry 36 1 = 0 ∧ ioGate s true false = none ∧ ctxLba c = n * zoneBlocks ∧ n < zoneCount s ∧ zoneBars s n = some st :=
  ⟨modDisc (wIo 0x15 (wEnt [0, 0, 0x80] [])) (fun d => { d with zones := [(1, { wZone with st := 3 })] }), 6, wCtx 0x15 (wEnt [0, 0, 0x80] []), wQp 3, 1, stZoneFull, by decide +kernel⟩

theorem wit_HostZoneCommands_4 : ∃ (s : State) (ctx : Fin 4096) (c : HostCtx) (q : Qpair) (n up : Nat), soleCommand s c q ∧ ctx.val = c.num ∧ ctxOpcode c = 0x15 ∧ entryNum c.entry 36 1 = 1 ∧ ioGate s true false = none ∧ ctxLba c = n * zoneBlocks ∧ n < zoneCount s ∧ zoneState s n = 1 ∧ up = ((zoneOf s n).wp + 31) / 32 * 32 ∧ (zoneOf s n).wp < up ∧ up < zoneCap s n :=
  ⟨wIo 0x15 (wEnt [0] [] ++ [1]), 6, wCtx 0x15 (wEnt [0] [] ++ [1]), wQp 3, 0, 64, by decide +kernel⟩

theorem wit_HostZoneCommands_5 : ∃ (s : State) (ctx : Fin 4096) (c : HostCtx) (q : Qpair) (n : Nat), soleCommand s c q ∧ ctx.val = c.num ∧ ctxOpcode c = 0x15 ∧ entryNum c.entry 36 1 = 1 ∧ ioGate s true false = none ∧ ctxLba c = n * zoneBlocks ∧ n < zoneCount s ∧ zoneState s n ≠ 1 :=
  ⟨wIo 0x15 (wEnt [0, 0, 0x80] [] ++ [1]), 6, wCtx 0x15 (wEnt [0, 0, 0x80] [] ++ [1]), wQp 3, 1, by decide +kernel⟩

theorem wit_HostZoneCommands_6 : ∃ (s : State) (ctx : Fin 4096) (c : HostCtx) (q : Qpair) (n : Nat), soleCommand s c q ∧ ctx.val = c.num ∧ ctxOpcode c = 0x15 ∧ entryNum c.entry 36 1 = 2 ∧ ioGate s true false = none ∧ ctxLba c = n * zoneBlocks ∧ n < zoneCount s ∧ zoneState s n < 3 ∧ (zoneOf s n).wp % 32 = 0 ∧ (zoneOf s n).wp < zoneCap s n :=
  ⟨wIo 0x15 (wEnt [0, 0, 0x80] [] ++ [2]), 6, wCtx 0x15 (wEnt [0, 0, 0x80] [] ++ [2]), wQp 3, 1, by decide +kernel⟩

theorem wit_HostZoneCommands_7 : ∃ (s : State) (ctx : Fin 4096) (c : HostCtx) (q : Qpair) (i : Nat) (x : SiEntry), soleCommand s c q ∧ ctx.val = c.num ∧ ctxOpcode c = 0x16 ∧ ioGate s false false = none ∧ ctxLen c = 32 ∧ rangeBad s (ctxLba c) 1 = none ∧ siLookup s (ctxLba c) = some (i, x) :=
  ⟨wAcc (wDisc (wHost { wCtx 0x16 (wEnt [9] []) with segs := [(0x5000, 32)] })), 6, { wCtx 0x16 (wEnt [9] []) with segs := [(0x5000, 32)] }, wQp 3, 0, ⟨0, 40, 0x3000, 0, 0, 0xFF, 0⟩, by decide +kernel⟩

theorem wit_HostZoneCommands_8 : ∃ (s : State) (ctx : Fin 4096) (c : HostCtx) (q : Qpair), soleCommand s c q ∧ ctx.val = c.num ∧ ctxOpcode c = 0x16 ∧ ioGate s false false = none ∧ ctxLen c = 32 ∧ rangeBad s (ctxLba c) 1 = none ∧ siLookup s (ctxLba c) = none :=
  ⟨wAcc (wDisc (wHost { wCtx 0x16 (wEnt [50] []) with segs := [(0x5000, 32)] })), 6, { wCtx 0x16 (wEnt [50] []) with segs := [(0x5000, 32)] }, wQp 3, by decide +kernel⟩

theorem wit_ArchiveObjectsAndAudits_1 : ∃ (s : State) (ctx : Fin 4096) (bs : List Byte) (c : HostCtx) (q : Qpair) (n : Nat), soleCommand s c q ∧ ctx.val = c.num ∧ ctxOpcode c = 0x20 ∧ c.accepted = false ∧ ctxFua c = false ∧ objGate s true = none ∧ ctxPart c = 0 ∧ ctxLast c = false ∧ ctxOid c ≠ 0 ∧ catFind s (ctxOid c) = none ∧ s.arv.cat.length < 262144 ∧ 1 ≤ ctxCount c ∧ ctxCount c ≤ 8192 ∧ ctxLen c = 4096 * ctxCount c ∧ bs.length = ctxLen c ∧ 4096 * ctxCount c < ctxLba c ∧ ctxLba c ≤ (objectZones s).foldl (fun m n => Nat.max m (zoneCap s n)) 0 * 4096 ∧ (objectPlace s (objBlocks (ctxLba c))).toOption = some n ∧ siRoom s n (n * zoneBlocks + (zoneOf s n).wp) = true :=
  ⟨{ wArv 2 0x20 (wOid [0, 0x20] [1] 0) with arv := Archive.reset }, 6, List.replicate 4096 3, wCtx 0x20 (wOid [0, 0x20] [1] 0), wQp 3, 1, by decide +kernel⟩

theorem wit_ArchiveObjectsAndAudits_2 : ∃ (s : State) (ctx : Fin 4096) (bs : List Byte) (c : HostCtx) (q : Qpair) (p : PutStream) (x : CatEntry), soleCommand s c q ∧ ctx.val = c.num ∧ ctxOpcode c = 0x20 ∧ c.accepted = false ∧ ctxFua c = false ∧ objGate s true = none ∧ ctxPart c = p.next ∧ p.next ≠ 0 ∧ ctxLast c = true ∧ ctxVerify c = false ∧ ctxLba c = 0 ∧ s.arv.puts = [p] ∧ p.oid = ctxOid c ∧ s.arv.cat = [x] ∧ x.oid = ctxOid c ∧ bs.length = ctxLen c ∧ p.bytes.length + ctxLen c = x.len ∧ 1 ≤ ctxCount c ∧ ctxCount c ≤ 8192 ∧ ctxCount c = objBlocks (ctxLen c) :=
  ⟨modArv (wArvC 1 0x20 (wEnt [] [1] ++ [7] ++ List.replicate 15 0 ++ [2, 0, 0, 0, 1]) 3) (fun a => { a with puts := [⟨7, 2, [], 5⟩] }), 6, [1, 2, 3], { wCtx 0x20 (wEnt [] [1] ++ [7] ++ List.replicate 15 0 ++ [2, 0, 0, 0, 1]) with segs := [(0x5000, 3)] }, wQp 3, ⟨7, 2, [], 5⟩, wObj 1, by decide +kernel⟩

theorem wit_ArchiveObjectsAndAudits_3 : ∃ (s : State) (ctx : Fin 4096) (data : Option (List Byte)) (c : HostCtx) (q : Qpair) (st : Nat), soleCommand s c q ∧ ctx.val = c.num ∧ ctxOpcode c = 0x20 ∧ c.accepted = false ∧ objGate s true = some st :=
  ⟨wHost (wCtx 0x20 []), 6, none, wCtx 0x20 [], wQp 3, stNotReady, by decide +kernel⟩

theorem wit_ArchiveObjectsAndAudits_4 : ∃ (s : State) (ctx : Fin 4096) (medium : List MediumBlock) (c : HostCtx) (q : Qpair) (x : CatEntry) (bs : List Byte) (want : Nat), soleCommand s c q ∧ ctx.val = c.num ∧ ctxOpcode c = 0x21 ∧ objGate s false = none ∧ catFind s (ctxOid c) = some x ∧ x.st = 2 ∧ getVerify c = false ∧ 1 ≤ ctxCount c ∧ ctxCount c ≤ 8192 ∧ ctxLen c = 4096 * ctxCount c ∧ ctxLba c % 4096 = 0 ∧ want = Nat.min (4096 * ctxCount c) (x.len - ctxLba c) ∧ blocksRead s (objBlocks want) (x.lba + ctxLba c / 4096) medium = (bs, none) ∧ bs.length = 4096 * objBlocks want :=
  ⟨wAccB2 (wArv 2 0x21 (wOid [] [1] 0)), 6, [], wCtx 0x21 (wOid [] [1] 0), wQp 3, wObj 2, List.replicate 4096 3, 3, by decide +kernel⟩

theorem wit_ArchiveObjectsAndAudits_5 : ∃ (s : State) (ctx : Fin 4096) (medium : List MediumBlock) (c : HostCtx) (q : Qpair), soleCommand s c q ∧ ctx.val = c.num ∧ ctxOpcode c = 0x21 ∧ objGate s false = none ∧ (catFind s (ctxOid c)).all (fun x => x.st = 1) = true :=
  ⟨wArv 1 0x21 (wOid [] [1] 0), 6, [], wCtx 0x21 (wOid [] [1] 0), wQp 3, by decide +kernel⟩

theorem wit_ArchiveObjectsAndAudits_6 : ∃ (s : State) (ctx : Fin 4096) (c : HostCtx) (q : Qpair) (l : List CatEntry), soleCommand s c q ∧ ctx.val = c.num ∧ ctxOpcode c = 0x22 ∧ objGate s false = none ∧ 1 ≤ ctxCount c ∧ ctxCount c ≤ 8192 ∧ ctxLen c = 128 * ctxCount c ∧ l = (s.arv.cat.filter (fun x => decide (ctxOid c ≤ x.oid))).take (ctxCount c) :=
  ⟨wArv 2 0x22 (wOid [] [32] 0), 6, wCtx 0x22 (wOid [] [32] 0), wQp 3, [wObj 2], by decide +kernel⟩

theorem wit_ArchiveObjectsAndAudits_7 : ∃ (s : State) (oid : BitVec 128) (x : CatEntry), catFind s oid.toNat = some x ∧ x.st = 1 ∧ eventWaits s = [] :=
  ⟨wArv 1 0x22 [], 7, wObj 1, by decide +kernel⟩

theorem wit_ArchiveObjectsAndAudits_8 : ∃ (s : State) (oid : BitVec 128) (copy : List Byte) (x : CatEntry) (n : Nat), s.arv.cat = [x] ∧ x.oid = oid.toNat ∧ objGate s true = none ∧ fbit s fldARV_CTL_REFRESH_EN = true ∧ x.flags % 2 = 1 ∧ (x.st = 2 ∨ x.st = 3) ∧ (objectPlace s (objBlocks x.len)).toOption = some n ∧ siRoom s n (n * zoneBlocks + (zoneOf s n).wp) = true ∧ sha256 (copy.take x.len) = x.digest :=
  ⟨modArv (fset (wArv 2 0x22 []) fldARV_CTL_REFRESH_EN) (fun a => { a with cat := [{ wObj 2 with flags := 1, digest := sha256 ([1, 2, 3] : List Byte) }] }), 7, [1, 2, 3], { wObj 2 with flags := 1, digest := sha256 ([1, 2, 3] : List Byte) }, 1, rfl, by decide +kernel, by decide +kernel, by decide +kernel, by decide +kernel, by decide +kernel, by decide +kernel, by decide +kernel, rfl⟩

theorem wit_ArchiveObjectsAndAudits_9 : ∃ (s : State) (ctx : Fin 4096) (c : HostCtx) (q : Qpair) (x : CatEntry), soleCommand s c q ∧ ctx.val = c.num ∧ ctxOpcode c = 0x23 ∧ c.begun = false ∧ objGate s false = none ∧ catFind s (ctxOid c) = some x ∧ x.st ≠ 1 :=
  ⟨wArv 2 0x23 (wOid [] [] 0), 6, wCtx 0x23 (wOid [] [] 0), wQp 3, wObj 2, by decide +kernel⟩

theorem wit_ArchiveObjectsAndAudits_10 : ∃ (s : State) (ctx : Fin 4096) (c : HostCtx) (q : Qpair), soleCommand s c q ∧ ctx.val = c.num ∧ ctxOpcode c = 0x23 ∧ c.begun = false ∧ objGate s false = none ∧ catFind s (ctxOid c) = none :=
  ⟨{ wArv 2 0x23 [] with arv := Archive.reset }, 6, wCtx 0x23 [], wQp 3, by decide +kernel⟩

theorem wit_ArchiveObjectsAndAudits_11 : ∃ (s : State) (i : Nat) (x : CatEntry), archivePresent s.variant = true ∧ fbit s fldARV_CTL_AUDIT_EN = true ∧ discLockedKey s = false ∧ s.arv.audits = [] ∧ s.arv.cat = [x] ∧ i = 0 ∧ fget s fldARV_CURSOR_INDEX = 0 ∧ auditDue s x = true :=
  ⟨{ modArv (fset (wArv 2 0x22 []) fldARV_CTL_AUDIT_EN) (fun a => { a with cat := [{ wObj 2 with auditTime := 0 }] }) with chipTime := 0x7000000000000000 }, 0, { wObj 2 with auditTime := 0 }, by decide +kernel⟩

theorem wit_ArchiveObjectsAndAudits_12 : ∃ (s : State), archivePresent s.variant = true ∧ fbit s fldARV_CTL_AUDIT_EN = true ∧ discLockedKey s = false ∧ s.arv.audits = [] ∧ s.arv.cat = [] :=
  ⟨fput (fset State.reset fldARV_CTL_AUDIT_EN) fldARV_CURSOR_INDEX 5, by decide +kernel⟩

theorem wit_ArchiveObjectsAndAudits_13 : ∃ (s : State) (base : BitVec 40) (r : BitVec 256), archivePresent s.variant = true ∧ fget s (fldFIFO_CFG_CONSUMER 10) = Agent.archive.id ∧ s.fifo[(10 : Fin 14)].stage = [r] ∧ fifoHeadStaged s.fifo[(10 : Fin 14)] = true ∧ s.fifo[(10 : Fin 14)].waiting = [] ∧ fifoCount s 10 = 1 :=
  ⟨modArv (modFifo (fput (fput State.reset (fldFIFO_CFG_CONSUMER 10) Agent.archive.id) (fldFIFO_STAT_COUNT 10) 1) 10 (fun f => { f with stage := [0x0000300000000000000000000000000000000000000000000000000000000000], wk := 0, rk := 0 })) (fun a => { a with audits := [⟨7, none, 5, [0x3000], [(0x3000, [])], [], false⟩] }), 0, 0x0000300000000000000000000000000000000000000000000000000000000000, by decide +kernel⟩

theorem wit_ArchiveObjectsAndAudits_14 : ∃ (s : State) (oid : BitVec 128) (x : CatEntry) (a : Audit) (bs : List Byte), s.arv.cat = [x] ∧ x.oid = oid.toNat ∧ s.arv.audits = [a] ∧ a.oid = oid.toNat ∧ a.lba = x.lba ∧ a.ctx = none ∧ auditWhole a = true ∧ discLockedKey s = false ∧ a.weak = false ∧ auditBytes s x a = some bs ∧ sha256 bs = x.digest :=
  ⟨modArv (wArv 2 0x22 []) (fun a => { a with cat := [{ wObj 2 with lba := 0, digest := sha256 ([1, 2, 3] : List Byte) }], audits := [⟨7, none, 0, [0], [(0, [1, 2, 3])], [], false⟩] }), 7, { wObj 2 with lba := 0, digest := sha256 ([1, 2, 3] : List Byte) }, ⟨7, none, 0, [0], [(0, [1, 2, 3])], [], false⟩, [1, 2, 3], rfl, by decide +kernel, rfl, by decide +kernel, by decide +kernel, by decide +kernel, by decide +kernel, by decide +kernel, by decide +kernel, by decide +kernel, rfl⟩

theorem wit_ArchiveObjectsAndAudits_15 : ∃ (s : State) (oid : BitVec 128) (x : CatEntry) (a : Audit), s.arv.cat = [x] ∧ x.oid = oid.toNat ∧ s.arv.audits = [a] ∧ a.oid = oid.toNat ∧ a.lba = x.lba ∧ a.ctx = none ∧ auditWhole a = true ∧ discLockedKey s = false ∧ auditBytes s x a = none ∧ eventWaits s = [] :=
  ⟨modArv (wArv 2 0x22 []) (fun a => { a with audits := [⟨7, none, 5, [0], [], [0], false⟩] }), 7, wObj 2, ⟨7, none, 5, [0], [], [0], false⟩, by decide +kernel⟩

theorem wit_ArchiveObjectsAndAudits_16 : ∃ (s : State) (x : CatEntry) (pta : BitVec 32) (mg : Nat), s.weakTiles = [(pta, mg)] ∧ s.arv.cat = [x] ∧ x.st ≠ 1 ∧ (objTiles s x).contains pta.toNat = true :=
  ⟨{ wArv 2 0x22 [] with weakTiles := [(0, 5)] }, wObj 2, 0, 5, by decide +kernel⟩

theorem wit_SessionsAndMediaKeys_1 : ∃ (s : State) (ctx : Fin 4096) (key : List Byte) (c : HostCtx) (q : Qpair), soleCommand s c q ∧ ctx.val = c.num ∧ ctxOpcode c = 0x30 ∧ s.arv.waiting = [] ∧ fbit s fldKEY_STAT_LOCKOUT = false ∧ s.arv.sessions.length < 4 ∧ ctxLen c = 32 ∧ key.length = 32 ∧ keyRight s key = true ∧ discEncrypted s = false ∧ fbit s fldJNL_STAT_WAIT_SESSION = false :=
  ⟨modArv (wAdm 0x30 []) (fun a => { a with verifier := some ([], sha256 (List.replicate 32 (5 : Byte))) }), 6, List.replicate 32 5, { wCtx 0x30 [] with segs := [(0x5000, 32)] }, wQp 3, by decide +kernel, by decide +kernel, by decide +kernel, rfl, by decide +kernel, by decide +kernel, by decide +kernel, by decide +kernel, beq_self_eq_true (sha256 (List.replicate 32 (5 : Byte))), by decide +kernel, by decide +kernel⟩

theorem wit_SessionsAndMediaKeys_2 : ∃ (s : State) (ctx : Fin 4096) (key : List Byte) (c : HostCtx) (q : Qpair), soleCommand s c q ∧ ctx.val = c.num ∧ ctxOpcode c = 0x30 ∧ s.arv.waiting = [] ∧ fbit s fldKEY_STAT_LOCKOUT = false ∧ fbit s fldKEY_STAT_LOCKED_OUT = false ∧ s.arv.sessions.length < 4 ∧ ctxLen c = 32 ∧ key.length = 32 ∧ keyRight s key = false ∧ fget s fldKEY_STAT_FAILS < 5 :=
  ⟨modArv (wAdm 0x30 []) (fun a => { a with verifier := none }), 6, List.replicate 32 5, { wCtx 0x30 [] with segs := [(0x5000, 32)] }, wQp 3, by decide +kernel⟩

theorem wit_SessionsAndMediaKeys_3 : ∃ (s : State) (ctx : Fin 4096) (key : Option (List Byte)) (c : HostCtx) (q : Qpair), soleCommand s c q ∧ ctx.val = c.num ∧ ctxOpcode c = 0x30 ∧ s.arv.waiting = [] ∧ fbit s fldKEY_STAT_LOCKOUT = true :=
  ⟨fset (wAdm 0x30 []) fldKEY_STAT_LOCKOUT, 6, none, { wCtx 0x30 [] with segs := [(0x5000, 32)] }, wQp 3, by decide +kernel⟩

theorem wit_SessionsAndMediaKeys_4 : ∃ (s : State) (c : HostCtx) (q : Qpair), soleCommand s c q ∧ s.arv.waiting = [c.num] :=
  ⟨modArv (wHost (wCtx 0x30 [])) (fun a => { a with waiting := [6] }), wCtx 0x30 [], wQp 3, by decide +kernel⟩

theorem wit_SessionsAndMediaKeys_5 : ∃ (s : State) (ctx : Fin 4096) (c : HostCtx) (q : Qpair) (x : Session), soleCommand s c q ∧ ctx.val = c.num ∧ ctxOpcode c = 0x31 ∧ s.arv.sessions = [x] ∧ sessionOf s c = some x :=
  ⟨wAdm 0x31 [0x99], 6, { wCtx 0x31 [0x99] with segs := [(0x5000, 32)] }, wQp 3, wSess, by decide +kernel⟩

theorem wit_SessionsAndMediaKeys_6 : ∃ (s : State) (ctx : Fin 4096) (c : HostCtx) (q : Qpair), soleCommand s c q ∧ ctx.val = c.num ∧ ctxOpcode c = 0x31 ∧ sessionOf s c = none :=
  ⟨wAdm 0x31 [], 6, { wCtx 0x31 [] with segs := [(0x5000, 32)] }, wQp 3, by decide +kernel⟩

theorem wit_SessionsAndMediaKeys_7 : ∃ (s : State) (ctx : Fin 4096) (key : List Byte) (c : HostCtx) (q : Qpair), soleCommand s c q ∧ ctx.val = c.num ∧ ctxOpcode c = 0x32 ∧ s.arv.opCtx = none ∧ s.arv.verifier = none ∧ jnlRuns s = false ∧ discEncrypted s = false ∧ ctxLen c = 32 ∧ key.length = 32 :=
  ⟨modArv (wAdm 0x32 []) (fun a => { a with verifier := none }), 6, List.replicate 32 8, { wCtx 0x32 [] with segs := [(0x5000, 32)] }, wQp 3, by decide +kernel⟩

theorem wit_SessionsAndMediaKeys_8 : ∃ (s : State) (ctx : Fin 4096) (c : HostCtx) (q : Qpair), soleCommand s c q ∧ ctx.val = c.num ∧ ctxOpcode c = 0x35 :=
  ⟨fput (wHost (wCtx 0x35 [])) fldJNL_STAT_PERMILLE 500, 6, wCtx 0x35 [], wQp 3, by decide +kernel⟩

theorem wit_SessionsAndMediaKeys_9 : ∃ (s : State) (ctx : Fin 4096) (c : HostCtx) (q : Qpair) (x : Session), soleCommand s c q ∧ ctx.val = c.num ∧ ctxOpcode c = 0x36 ∧ sessionOf s c = some x :=
  ⟨modArv (wAdm 0x36 [0x99]) (fun a => { a with mediaKey := some [1] }), 6, { wCtx 0x36 [0x99] with segs := [(0x5000, 32)] }, wQp 3, wSess, by decide +kernel⟩

theorem wit_SessionsAndMediaKeys_10 : ∃ (s : State) (handle : BitVec 32), s.arv.sessions.any (fun x => x.handle == handle.toNat) = true :=
  ⟨wAdm 0x31 [], 0x99, by decide +kernel⟩

theorem wit_JournaledOperationsAndMounting_1 : ∃ (s : State) (ctx : Fin 4096) (bs : List Byte) (c : HostCtx) (q : Qpair) (x : Session), soleCommand s c q ∧ ctx.val = c.num ∧ ctxOpcode c = 0x33 ∧ writePresent s.variant = true ∧ sessionOf s c = some x ∧ adminGate s = none ∧ s.disc.family = 1 ∧ s.disc.format = none ∧ ctxLen c = 4096 ∧ bs.length = 4096 ∧ paramLegal s bs = true :=
  ⟨wFmtC 0x33 4096, 6, List.replicate 4096 0, { wCtx 0x33 [0x99] with segs := [(0x5000, 4096)] }, wQp 3, wSess, by decide +kernel⟩

theorem wit_JournaledOperationsAndMounting_2 : ∃ (s : State) (ctx : Fin 4096) (c : HostCtx) (q : Qpair) (x : Session), soleCommand s c q ∧ ctx.val = c.num ∧ ctxOpcode c = 0x34 ∧ writePresent s.variant = true ∧ sessionOf s c = some x ∧ adminGate s = none ∧ s.arv.sanWait = none ∧ c.qp = 0 :=
  ⟨{ wFmtC 0x34 0 with host := { wFmt.host with ctxs := [{ wCtx 0x34 [0x99] with qp := 0 }], qps := [{ wQp 3 with num := 0 }] } }, 6, { wCtx 0x34 [0x99] with qp := 0 }, { wQp 3 with num := 0 }, wSess, by decide +kernel⟩

theorem wit_JournaledOperationsAndMounting_3 : ∃ (s : State) (ctx : Fin 4096) (c : HostCtx) (q : Qpair) (x : Session), soleCommand s c q ∧ ctx.val = c.num ∧ ctxOpcode c = 0x34 ∧ writePresent s.variant = true ∧ sessionOf s c = some x ∧ adminGate s = none ∧ s.arv.sanWait = none :=
  ⟨wFmtC 0x34 0, 6, { wCtx 0x34 [0x99] with segs := [(0x5000, 0)] }, wQp 3, wSess, by decide +kernel⟩

theorem wit_JournaledOperationsAndMounting_4 : ∃ (s : State) (now : JnlProgress) (y : JnlEntry) (l : List JnlEntry), s.arv.journal = y :: l ∧ fget s fldJNL_STAT_OP = 2 ∧ fget s fldJNL_STAT_PHASE = now.phase.val ∧ now.phase.val ≤ 3 ∧ now.ended = false ∧ fbit s fldJNL_STAT_WAIT_SESSION = false ∧ now.tilesTotal.toNat ≠ 0 ∧ now.tilesDone.toNat ≤ now.tilesTotal.toNat :=
  ⟨wJrn 2, ⟨2, 3, 4, 50, 200, false⟩, wJe, [], by decide +kernel⟩

theorem wit_JournaledOperationsAndMounting_5 : ∃ (s : State) (now : JnlProgress) (y : JnlEntry) (l : List JnlEntry) (g : FormatRec), s.arv.journal = y :: l ∧ fget s fldJNL_STAT_OP = 2 ∧ fget s fldJNL_STAT_PHASE = 3 ∧ now.ended = true ∧ fbit s fldJNL_STAT_WAIT_SESSION = false ∧ s.disc.format = some g ∧ eventWaits s = [] :=
  ⟨modDisc (wJrn 3) (fun d => { d with format := some ⟨1, true, 0, 0⟩ }), ⟨3, 3, 4, 50, 200, true⟩, { wJe with phase := 3 }, [], ⟨1, true, 0, 0⟩, by decide +kernel⟩

theorem wit_JournaledOperationsAndMounting_6 : ∃ (s : State) (records : List MgmtCopy) (freeA freeB : Nat), s.disc.mounted = false ∧ s.arv.journal = [] :=
  ⟨State.reset, [], 3, 4, by decide +kernel⟩

theorem wit_JournaledOperationsAndMounting_7 : ∃ (s : State) (bs : List Byte) (r : MgmtCopy) (m : MgmtRec) (freeA freeB : Nat), s.disc.mounted = false ∧ s.arv.journal = [] ∧ s.arv.cat = [] ∧ recParse r = some m ∧ m.kind = 1 ∧ (formatParse m.body).encrypt = false :=
  ⟨State.reset, [0, 0, 0, 0, 0, 0, 0, 9, 0, 2, 0, 0, 0, 0, 1], wFmtRec, ⟨0x6004000, 1, 5, wFmtBody⟩, 30, 40, by decide +kernel⟩

theorem wit_JournaledOperationsAndMounting_8 : ∃ (s : State), s.host.ctxs.all (fun c => !(awaitsDisc s c)) = true ∧ s.arv.journal = [] :=
  ⟨modArv wFmt (fun a => { a with mediaKey := some [1], cat := [wObj 2] }), by decide +kernel⟩

theorem wit_JournaledOperationsAndMounting_9 : ∃ (s : State) (c : HostCtx) (q : Qpair), soleCommand s c q ∧ awaitsDisc s c = true ∧ s.arv.journal = [] :=
  ⟨modArv (wHost (wCtx 0x34 [0x99])) (fun a => { a with sanWait := some 6 }), wCtx 0x34 [0x99], wQp 3, by decide +kernel⟩

theorem wit_SupplyFaultsAndSequencer_1 : ∃ (s : State) (rail : Fin 5), fbitAt s fldSUP_STAT_RAIL_GOOD rail.val = true :=
  ⟨fput State.reset fldSUP_STAT_RAIL_GOOD 0x1F, 2, by decide +kernel⟩

theorem wit_SupplyFaultsAndSequencer_2 : ∃ (s : State) (rail : Fin 7), s.sup.live = [rail.val] ∧ fbit s fldSUP_STAT_SUPPLY_FAULT = true ∧ fbit s fldSUP_STAT_CHOP_FAULT = false ∧ fbit s fldSUP_STAT_BUS_LATCH = false ∧ fbit s fldSUP_STAT_BOOST_FAULT = false :=
  ⟨{ fset State.reset fldSUP_STAT_SUPPLY_FAULT with sup := { State.reset.sup with live := [6] } }, 6, by decide +kernel⟩

theorem wit_SupplyFaultsAndSequencer_3 : ∃ (s : State), fbit s fldSUP_CTL_MBUS_EN = true ∧ s.sup.live.contains 6 = false :=
  ⟨fset State.reset fldSUP_CTL_MBUS_EN, by decide +kernel⟩

theorem wit_SupplyFaultsAndSequencer_4 : ∃ (s : State), fbit s fldSUP_STAT_SUPPLY_FAULT = true ∧ fbit s fldSQ_STAT_SAFE = false :=
  ⟨fset State.reset fldSUP_STAT_SUPPLY_FAULT, by decide +kernel⟩

theorem wit_SupplyFaultsAndSequencer_5 : ∃ (s : State), s.sq.pinLow = false :=
  ⟨wSeq .noVin true, by decide +kernel⟩

theorem wit_SupplyFaultsAndSequencer_6 : ∃ (s : State) (k : Nat), s.sup.seq = .up k ∧ 2 ≤ k ∧ k ≤ 4 :=
  ⟨wSeq (.up 3) true, 3, by decide +kernel⟩

theorem wit_SupplyFaultsAndSequencer_7 : ∃ (s : State), s.sup.seq = .up 5 ∧ s.boot.pinLow = false :=
  ⟨wSeq (.up 5) true, by decide +kernel⟩

theorem wit_SupplyFaultsAndSequencer_8 : ∃ (s : State) (k : Nat), s.sup.seq = .up k :=
  ⟨wSeq (.up 4) true, 4, by decide +kernel⟩

theorem wit_SupplyFaultsAndSequencer_9 : ∃ (s : State), s.sup.seq = .retry :=
  ⟨wSeq .retry true, by decide +kernel⟩

theorem wit_SupplyFaultsAndSequencer_10 : ∃ (s : State), s.sup.seq = .noVin :=
  ⟨wSeq .noVin false, by decide +kernel⟩

theorem wit_SupplyFaultsAndSequencer_11 : ∃ (s : State), s.sup.seq = .done ∧ s.sup.dormant = false :=
  ⟨wSeq .done true, by decide +kernel⟩

theorem wit_SupplyFaultsAndSequencer_12 : ∃ (s : State) (por : Bool), s.sup.seq = .down 3 por :=
  ⟨wSeq (.down 3 false) true, false, by decide +kernel⟩

theorem wit_SupplyFaultsAndSequencer_13 : ∃ (s : State), s.sup.seq = .down 1 true ∧ s.sq.pinLow = false :=
  ⟨wSeq (.down 1 true) true, by decide +kernel⟩

theorem wit_MotorBusAndLaserBoost_2 : ∃ (s : State), fbit s fldSUP_STAT_CHOP_ACT = false :=
  ⟨State.reset, by decide +kernel⟩

theorem wit_MotorBusAndLaserBoost_4 : ∃ (s : State), fbit s fldSUP_STAT_CHOP_FAULT = false ∧ 1 ≤ spnState s ∧ spnState s ≤ 8 :=
  ⟨wSpn 5, by decide +kernel⟩

theorem wit_MotorBusAndLaserBoost_5 : ∃ (s : State), fbit s fldSUP_STAT_BUS_LATCH = false :=
  ⟨fset (wSpn 5) fldSUP_CTL_MBUS_EN, by decide +kernel⟩

theorem wit_MotorBusAndLaserBoost_6 : ∃ (s : State) (agent : Agent) (vmot : BitVec 16), vmot.toNat < fget s fldSUP_BUS_CHOP_OFF ∧ fbit s fldSUP_STAT_CHOP_FAULT = true :=
  ⟨fset State.reset fldSUP_STAT_CHOP_FAULT, .core 0, 10, by decide +kernel⟩

theorem wit_MotorBusAndLaserBoost_7 : ∃ (s : State) (agent : Agent) (vmot : BitVec 16), fget s fldSUP_BUS_CHOP_OFF ≤ vmot.toNat :=
  ⟨State.reset, .core 0, 0xFFFF, by decide +kernel⟩

theorem wit_MotorBusAndLaserBoost_8 : ∃ (s : State) (agent : Agent) (vmot : BitVec 16), vmot.toNat < fget s fldSUP_BUS_CHOP_OFF :=
  ⟨fset State.reset fldSUP_STAT_BUS_LATCH, .core 0, 10, by decide +kernel⟩

theorem wit_MotorBusAndLaserBoost_9 : ∃ (s : State) (agent : Agent) (vmot : BitVec 16), fget s fldSUP_BUS_CHOP_OFF ≤ vmot.toNat :=
  ⟨State.reset, .core 0, 0xFFFF, by decide +kernel⟩

theorem wit_MotorBusAndLaserBoost_12 : ∃ (s : State) (agent : Agent), fbit s fldSUP_CTL_BOOST_EN = false :=
  ⟨State.reset, .core 0, by decide +kernel⟩

theorem wit_MotorBusAndLaserBoost_14 : ∃ (s : State), s.sup.soft = true :=
  ⟨{ State.reset with sup := { State.reset.sup with soft := true } }, by decide +kernel⟩

theorem wit_MotorBusAndLaserBoost_15 : ∃ (s : State), boostUp s = true :=
  ⟨fset State.reset fldSUP_CTL_BOOST_EN, by decide +kernel⟩

theorem wit_MotorBusAndLaserBoost_16 : ∃ (s : State), boostUp s = true :=
  ⟨fset State.reset fldSUP_CTL_BOOST_EN, by decide +kernel⟩

theorem wit_MotorBusAndLaserBoost_17 : ∃ (s : State) (agent : Agent), fbit s fldSUP_CTL_BOOST_EN = true ∧ fbit s fldSUP_STAT_BOOST_FAULT = true :=
  ⟨fset (fset State.reset fldSUP_CTL_BOOST_EN) fldSUP_STAT_BOOST_FAULT, .core 0, by decide +kernel⟩

theorem wit_MotorBusAndLaserBoost_18 : ∃ (s : State) (agent : Agent), fbit s fldSUP_CTL_BOOST_EN = false :=
  ⟨State.reset, .core 0, by decide +kernel⟩

theorem wit_ClockSourcesLoopsAndMultiplexers_1 : ∃ (s : State) (refin : Bool), s.clk.refSrc = refin.toNat ∧ fbit s fldCLK_SRC_REF_GOOD = true :=
  ⟨State.reset, false, by decide +kernel⟩

theorem wit_ClockSourcesLoopsAndMultiplexers_2 : ∃ (s : State) (refin : Bool), s.clk.refSrc ≠ refin.toNat ∧ sourceGood s s.clk.refSrc = fbit s fldCLK_SRC_REF_GOOD ∧ s.clk.refSrc < 2 ∧ fbit s fldCLK_SRC_REF_GOOD = true :=
  ⟨State.reset, true, by decide +kernel⟩

theorem wit_ClockSourcesLoopsAndMultiplexers_3 : ∃ (s : State) (refin : Bool), s.clk.refSrc = refin.toNat :=
  ⟨fclr State.reset fldCLK_SRC_REF_GOOD, false, by decide +kernel⟩

theorem wit_ClockSourcesLoopsAndMultiplexers_4 : ∃ (s : State) (agent : Agent) (loops : BitVec 14), fbit s fldCLK_SRC_REF_GOOD = true ∧ loops.toNat ≠ 0 :=
  ⟨fputAt State.reset fldCLK_LOOP_COAST 1 true, .core 0, 7, by decide +kernel⟩

theorem wit_ClockSourcesLoopsAndMultiplexers_5 : ∃ (s : State) (agent : Agent) (loops : BitVec 14), fbit s fldCLK_SRC_REF_GOOD = false ∧ loops.toNat ≠ 0 :=
  ⟨fclr State.reset fldCLK_SRC_REF_GOOD, .core 0, 7, by decide +kernel⟩

theorem wit_ClockSourcesLoopsAndMultiplexers_6 : ∃ (s : State) (loop : Fin 14), loopRuns s loop.val = true ∧ fbit s fldCLK_SRC_REF_GOOD = true ∧ loopLocked s loop.val = false ∧ (loopCoasts s loop.val = false ∨ fbitAt s fldCLK_RELOCK_RELOCK loop.val = true) ∧ (loop.val ≠ 2 ∧ loop.val < 6) :=
  ⟨fputAt (fputAt (fputAt State.reset fldCLK_LOOP_LOCK 3 false) fldCLK_LOOP_COAST 3 true) fldCLK_RELOCK_RELOCK 3 true, 3, by decide +kernel⟩

theorem wit_ClockSourcesLoopsAndMultiplexers_7 : ∃ (s : State) (loop : Fin 14), loopLocked s loop.val = false ∧ loopCoasts s loop.val = true ∧ fbitAt s fldCLK_RELOCK_RELOCK loop.val = false :=
  ⟨fputAt (fputAt State.reset fldCLK_LOOP_LOCK 3 false) fldCLK_LOOP_COAST 3 true, 3, by decide +kernel⟩

theorem wit_ClockSourcesLoopsAndMultiplexers_8 : ∃ (s : State) (loop : Fin 14), loopLocked s loop.val = true :=
  ⟨fputAt State.reset fldCLK_LOOP_LOCK 3 true, 3, by decide +kernel⟩

theorem wit_ClockSourcesLoopsAndMultiplexers_9 : ∃ (s : State) (agent : Agent) (port : Port), portPresent s.variant port.val = true ∧ linkState s port.val = 0 :=
  ⟨State.reset, .core 0, 1, by decide +kernel⟩

theorem wit_ClockSourcesLoopsAndMultiplexers_10 : ∃ (s : State) (agent : Agent) (port : Port), portPresent s.variant port.val = true ∧ linkState s port.val = 1 ∧ s.boot.attached = [] :=
  ⟨fput (fset State.reset fldHOST_CTL_PORT0_EN) fldHOST_LINK0_STATE 1, .core 0, 0, by decide +kernel⟩

theorem wit_ClockSourcesLoopsAndMultiplexers_13 : ∃ (s : State) (agent : Agent) (sel : Fin 2), s.clk.refTo = none ∧ sel.val ≠ fget s fldCLK_REF_SEL_SEL :=
  ⟨State.reset, .core 0, 1, by decide +kernel⟩

theorem wit_ClockSourcesLoopsAndMultiplexers_14 : ∃ (s : State) (agent : Agent) (sel : Fin 2), s.clk.refTo.isSome = true :=
  ⟨{ State.reset with clk := { State.reset.clk with refTo := some 1 } }, .core 0, 1, by decide +kernel⟩

theorem wit_ClockSourcesLoopsAndMultiplexers_15 : ∃ (s : State) (n : Nat), s.clk.refTo = some n ∧ n < 2 ∧ fbit s fldCLK_REF_SEL_HUNG = false ∧ sourceGood s n = true :=
  ⟨{ fset State.reset fldCLK_SRC_REFIN_GOOD with clk := { State.reset.clk with refTo := some 1 } }, 1, by decide +kernel⟩

theorem wit_ClockSourcesLoopsAndMultiplexers_16 : ∃ (s : State) (n : Nat), s.clk.outTo = some n ∧ fbit s fldCLK_OUT_HUNG = false :=
  ⟨{ State.reset with clk := { State.reset.clk with outTo := some 2 } }, 2, by decide +kernel⟩

theorem wit_ClockSourcesLoopsAndMultiplexers_17 : ∃ (s : State) (clkout : Bool), (if clkout then s.clk.outTo.isSome else s.clk.refTo.isSome) = true ∧ fbit s (if clkout then fldCLK_OUT_HUNG else fldCLK_REF_SEL_HUNG) = false :=
  ⟨{ State.reset with clk := { State.reset.clk with refTo := some 1 } }, false, by decide +kernel⟩

theorem wit_ClockSourcesLoopsAndMultiplexers_18 : ∃ (s : State) (agent : Agent) (value : BitVec 32), (value = 0x5C000000 ∨ value = 0x5C000001) ∧ s.clk.rescue = none ∧ sourceGood s (value.toNat % 2) = true :=
  ⟨fset State.reset fldCLK_SRC_REFIN_GOOD, .core 0, 0x5C000001, by decide +kernel⟩

theorem wit_ClockSourcesLoopsAndMultiplexers_19 : ∃ (s : State) (agent : Agent) (value : BitVec 32), (value = 0x5C000000 ∨ value = 0x5C000001) ∧ s.clk.rescue = none ∧ sourceGood s (value.toNat % 2) = false :=
  ⟨fclr State.reset fldCLK_SRC_REFIN_GOOD, .core 0, 0x5C000001, by decide +kernel⟩

theorem wit_ClockSourcesLoopsAndMultiplexers_20 : ∃ (s : State) (n : Nat), s.clk.rescue = some (0, n) :=
  ⟨{ State.reset with clk := { State.reset.clk with rescue := some (0, 1) } }, 1, by decide +kernel⟩

theorem wit_ClockSourcesLoopsAndMultiplexers_21 : ∃ (s : State) (agent : Agent) (sel : Fin 8), permitOwner s 21 = agent.id ∧ s.clk.outTo = none ∧ outSel sel.val ≠ s.clk.outSrc :=
  ⟨fput State.reset (fldPERMIT_OWNER 21) 1, .core 0, 2, by decide +kernel⟩

theorem wit_ClockSourcesLoopsAndMultiplexers_22 : ∃ (s : State) (agent : Agent) (sel : Fin 8), permitOwner s 21 ≠ agent.id :=
  ⟨fput State.reset (fldPERMIT_OWNER 21) 2, .core 0, 2, by decide +kernel⟩

theorem wit_CalibrationRunsAndRecords_2 : ∃ (s : State) (block : Fin 11) (temp : BitVec 16), blockPresent s.variant block.val = true ∧ fget s (fldCALB_CFG_THR block.val) ≠ 0 ∧ fget s (fldCALB_CFG_THR block.val) * 64 < (temp.toInt - tempInt (fget s (fldCALB_TEMP_T block.val))).natAbs :=
  ⟨fput State.reset (fldCALB_CFG_THR 2) 4, 2, 0x1000, by decide +kernel⟩

theorem wit_CalibrationRunsAndRecords_3 : ∃ (s : State) (block : Fin 11) (temp : BitVec 16), (fget s (fldCALB_CFG_THR block.val) = 0 ∨ (temp.toInt - tempInt (fget s (fldCALB_TEMP_T block.val))).natAbs ≤ fget s (fldCALB_CFG_THR block.val) * 64) :=
  ⟨fput State.reset (fldCALB_CFG_THR 2) 4, 2, 0x100, by decide +kernel⟩

theorem wit_CalibrationRunsAndRecords_4 : ∃ (s : State) (agent : Agent) (block : Fin 11), blockPresent s.variant block.val = true :=
  ⟨State.reset, .core 0, 10, by decide +kernel⟩

theorem wit_CalibrationRunsAndRecords_5 : ∃ (s : State) (block : Fin 11) (mv : BitVec 16), fbit s fldCAL_CTL_AUTO_EN = true ∧ (block = 8 ∧ fget s fldSPN_STAT_STATE = 0 ∨ block = 9) ∧ fbit s (fldCALB_STAT_PEND block.val) = true :=
  ⟨fput (fset State.reset fldCAL_CTL_AUTO_EN) (fldCALB_STAT_PEND 8) 1, 8, 12500, by decide +kernel⟩

theorem wit_CalibrationRunsAndRecords_6 : ∃ (s : State) (block : Fin 11) (kind : Fin 8) (sub cls : Fin 3) (values : List Word) (temp mv : BitVec 16) (ws : List Word), (block = 8 ∨ block = 9) ∧ s.cal.running = [block.val] ∧ fbit s fldCAL_STAT_CALREF_BAD = false ∧ ws = [BitVec.ofNat 32 (keyWord block.val 1 0 0 cls.val * 2 ^ 13 + 2 ^ 12), BitVec.ofNat 32 (temp.toNat * 2 ^ 16 + (rd s regCAL_GEN).toNat % 2 ^ 16), s.chipTime.setWidth 32, (s.chipTime >>> 32).setWidth 32] ++ (values ++ List.replicate 11 0).take 11 :=
  ⟨modCal State.reset (fun c => { c with running := [8] }), 8, 1, 0, 2, [1, 2], 0x1900, 12500, [BitVec.ofNat 32 (keyWord 8 1 0 0 2 * 2 ^ 13 + 2 ^ 12), BitVec.ofNat 32 (0x1900 * 2 ^ 16), 0, 0, 1, 2, 0, 0, 0, 0, 0, 0, 0, 0, 0], by decide +kernel⟩

theorem wit_CalibrationRunsAndRecords_7 : ∃ (s : State) (block : Fin 11) (kind : Fin 8) (sub cls : Fin 3) (values : List Word) (temp mv : BitVec 16) (found : Fin 6), (block = 8 ∨ block = 9) ∧ s.cal.running = [block.val] ∧ fbit s fldCAL_STAT_CALREF_BAD = false ∧ found ≠ 0 :=
  ⟨modCal State.reset (fun c => { c with running := [8] }), 8, 1, 0, 2, [1, 2], 0x1900, 12500, 3, by decide +kernel⟩

theorem wit_CalibrationRunsAndRecords_8 : ∃ (s : State) (n : Fin 8) (sub cls : Fin 3) (values : List Word) (temp mv : BitVec 16) (o : OpenStep), calStepOf s n 1 = some o ∧ 12250 ≤ mv.toNat ∧ mv.toNat ≤ 12750 :=
  ⟨wCalStep, 0, 0, 1, [5], 0x1900, 12500, ⟨wRef, 3, { wStep 11 0 0 with w0 := 0xB0100000 }, 0⟩, by decide +kernel⟩

theorem wit_CalibrationRunsAndRecords_9 : ∃ (s : State) (block : Fin 11) (i : Nat) (r : List Word), (block = 8 ∨ block = 9) ∧ sweepRunning s = false ∧ i = slotElec s.variant block.val (fget s (fldCALB_STAT_CLASS block.val)) ∧ fget s (fldCALB_STAT_CLASS block.val) < 3 ∧ s.cal.fresh = [i] ∧ aget? s.cal.slots i = some r ∧ (r.getD 0 0).getLsbD 12 = true :=
  ⟨modCal (fput State.reset (fldCALB_STAT_CLASS 8) 2) (fun c => { c with fresh := [slotElec State.reset.variant 8 2], slots := [(slotElec State.reset.variant 8 2, wCalRec)] }), 8, slotElec State.reset.variant 8 2, wCalRec, by decide +kernel⟩

theorem wit_CalibrationRunsAndRecords_11 : ∃ (s : State) (agent : Agent) (i : Nat) (ws : List Word), i = fget s fldCAL_REC_SEL_INDEX ∧ ws = (List.range 16).map (fun j => rd s (regCAL_REC j)) ∧ sweepRunning s = false ∧ wordsCrc (ws.take 15) = (ws.getD 15 0).toNat ∧ slotKeyWord s.variant i = some ((ws.getD 0 0).toNat / 2 ^ 13) ∧ (ws.getD 0 0).toNat % 2 ^ 12 = 0 :=
  ⟨wCalW, .core 0, slotElec State.reset.variant 8 2, wCalRec, by decide +kernel⟩

theorem wit_CalibrationRunsAndRecords_12 : ∃ (s : State) (agent : Agent), sweepRunning s = true :=
  ⟨fput State.reset fldSWP_STAT_STATE 1, .core 0, by decide +kernel⟩

theorem wit_CalibrationRunsAndRecords_13 : ∃ (s : State) (agent : Agent), sweepRunning s = false ∧ slotKeyWord s.variant (fget s fldCAL_REC_SEL_INDEX) ≠ some ((rd s (regCAL_REC 0)).toNat / 2 ^ 13) :=
  ⟨State.reset, .core 0, by decide +kernel⟩

theorem wit_FaultReportsHeartbeatsAndSafe_1 : ∃ (s : State) (r : FaultReport), s.reports = [r] ∧ fifoCount s 13 < fifoSize s 13 ∧ s.fifo[(13 : Fin 14)].waiting = [] ∧ s.fifo[(13 : Fin 14)].stage = [] ∧ (memWrite s 4 (fifoPlace s 13 s.fifo[(13 : Fin 14)].wk) (recordBytes (faultRecord r))).isSome = true :=
  ⟨{ fput (fput (fput State.reset (fldFIFO_CFG_SIZE_LOG2 13) 6) (fldFIFO_BASE_LO_BASE 13) (0x1000000 / 32)) (fldFIFO_BASE_HI_BASE 13) 0 with reports := [⟨0xB, 2, 3, 1, 0x3F, 2, 1, 55, 0⟩] }, ⟨0xB, 2, 3, 1, 0x3F, 2, 1, 55, 0⟩, by decide +kernel⟩

theorem wit_FaultReportsHeartbeatsAndSafe_2 : ∃ (s : State) (b : Fin 20) (c : Fin 64), c.val < blockCells b.val ∧ absentAt s.variant (blockBase b.val) = false ∧ b.val ≠ 10 ∧ 8 ≤ b.val :=
  ⟨State.reset, 8, 0, by decide +kernel⟩

theorem wit_FaultReportsHeartbeatsAndSafe_4 : ∃ (s : State) (b : Fin 20), b.val < 8 ∧ headPresent s.variant b.val = true ∧ isolated s b.val = false :=
  ⟨State.reset, 3, by decide +kernel⟩

theorem wit_FaultReportsHeartbeatsAndSafe_5 : ∃ (s : State) (agent : Agent) (n : Fin 8), headPresent s.variant n.val = true ∧ isolated s n.val = false :=
  ⟨State.reset, .core 0, 3, by decide +kernel⟩

theorem wit_FaultReportsHeartbeatsAndSafe_6 : ∃ (s : State) (agent : Agent) (n : Fin 8) (alive : BitVec 8), headPresent s.variant n.val = true ∧ isolated s n.val = true ∧ s.sq.lost = [] :=
  ⟨fputAt State.reset fldFM_ISOLATE_ISOLATED 3 true, .core 0, 3, 0, by decide +kernel⟩

theorem wit_FaultReportsHeartbeatsAndSafe_7 : ∃ (s : State) (agent : Agent) (n : Fin 8), headPresent s.variant n.val = true ∧ s.sq.lost = [.block (Fin.ofNat 20 n.val)] :=
  ⟨{ State.reset with sq := { State.reset.sq with lost := [.block 3] } }, .core 0, 3, by decide +kernel⟩

theorem wit_FaultReportsHeartbeatsAndSafe_8 : ∃ (s : State) (cycle : Word), fbit s fldSQ_STAT_SAFE = false :=
  ⟨State.reset, 77, by decide +kernel⟩

theorem wit_FaultReportsHeartbeatsAndSafe_9 : ∃ (s : State), fbit s fldSQ_STAT_SAFE = false :=
  ⟨State.reset, by decide +kernel⟩

theorem wit_FaultReportsHeartbeatsAndSafe_11 : ∃ (s : State) (agent : Agent) (value : Word), bitsOf value.toNat 31 24 = 0x4B :=
  ⟨{ State.reset with sq := { State.reset.sq with expiries := 1 } }, .core 0, 0x4B000000, by decide +kernel⟩

theorem wit_FaultReportsHeartbeatsAndSafe_12 : ∃ (s : State) (agent : Agent) (value : Word), bitsOf value.toNat 31 24 ≠ 0x4B :=
  ⟨{ State.reset with sq := { State.reset.sq with expiries := 1 } }, .core 0, 0x4C000000, by decide +kernel⟩

theorem wit_FaultReportsHeartbeatsAndSafe_14 : ∃ (s : State), fbit s fldSQ_CFG_WD_EN = true ∧ s.sq.expiries = 0 :=
  ⟨fset State.reset fldSQ_CFG_WD_EN, by decide +kernel⟩

theorem wit_FaultReportsHeartbeatsAndSafe_15 : ∃ (s : State), fbit s fldSQ_CFG_WD_EN = true ∧ fbit s fldSQ_STAT_SAFE = false ∧ s.sq.expiries = 1 :=
  ⟨{ fset State.reset fldSQ_CFG_WD_EN with sq := { State.reset.sq with expiries := 1 } }, by decide +kernel⟩

theorem wit_FaultReportsHeartbeatsAndSafe_16 : ∃ (s : State) (agent : Agent) (value : Word), bitsOf value.toNat 31 24 = 0x5A ∧ fbit s fldSQ_STAT_SAFE = false :=
  ⟨State.reset, .core 0, 0x5A000000, by decide +kernel⟩

theorem wit_FaultReportsHeartbeatsAndSafe_17 : ∃ (s : State) (agent : Agent) (value : Word), bitsOf value.toNat 31 24 ≠ 0x5A :=
  ⟨State.reset, .core 0, 0x5B000000, by decide +kernel⟩

theorem wit_DormantAndResetsOfTheCore_1 : ∃ (s : State) (agent : Agent) (wake : BitVec 5), dormDeny s agent ≠ 0 :=
  ⟨State.reset, .core 0, 0, by decide +kernel⟩

theorem wit_DormantAndResetsOfTheCore_2 : ∃ (s : State) (agent : Agent) (wake : BitVec 5), dormDeny s agent = 0 ∧ wake.toNat &&& fget s fldSUP_DORM_WAKE_EN = 0 :=
  ⟨wDormOk, .core 0, 0, by decide +kernel⟩

theorem wit_DormantAndResetsOfTheCore_3 : ∃ (s : State) (agent : Agent) (wake : BitVec 5), dormDeny s agent = 0 ∧ wake.toNat &&& fget s fldSUP_DORM_WAKE_EN ≠ 0 :=
  ⟨fput wDormOk fldSUP_DORM_WAKE_EN 0x1F, .core 0, 1, by decide +kernel⟩

theorem wit_DormantAndResetsOfTheCore_4 : ∃ (s : State) (sources : BitVec 5), s.sup.dormant = true ∧ (if portPresent s.variant 1 then sources.toNat else sources.toNat &&& 29) &&& s.sup.wakeEn ≠ 0 ∧ s.boot.pinLow = false :=
  ⟨wDormant, 3, by decide +kernel⟩

theorem wit_DormantAndResetsOfTheCore_5 : ∃ (s : State) (sources : BitVec 5), s.sup.dormant = true ∧ sources.toNat &&& s.sup.wakeEn = 0 :=
  ⟨wDormant, 0, by decide +kernel⟩

theorem wit_DormantAndResetsOfTheCore_6 : ∃ (s : State), s.sup.dormant = true ∧ s.sup.wakeEn.testBit 4 = true ∧ s.boot.pinLow = false :=
  ⟨wDormant, by decide +kernel⟩

theorem wit_DormantAndResetsOfTheCore_7 : ∃ (s : State), s.host.rdyHold = true :=
  ⟨{ fset (wr State.reset (regOCFG 0) 1) fldHOST_CTL_READY with host := { State.reset.host with rdyHold := true } }, by decide +kernel⟩

theorem wit_DormantAndResetsOfTheCore_8 : ∃ (s : State) (agent : Agent) (value : Word), value = 0xA5000001 ∧ s.boot.pinLow = false ∧ s.sq.pinLow = false ∧ fbit s fldSQ_STAT_SAFE = false :=
  ⟨wAwake, .core 0, 0xA5000001, by decide +kernel⟩

theorem wit_DormantAndResetsOfTheCore_9 : ∃ (s : State) (agent : Agent) (value : Word), value = 0xA5000002 ∧ s.boot.pinLow = false ∧ s.sq.pinLow = false ∧ fbit s fldSQ_STAT_SAFE = false :=
  ⟨wAwake, .core 0, 0xA5000002, by decide +kernel⟩

theorem wit_DormantAndResetsOfTheCore_10 : ∃ (s : State) (agent : Agent) (value : Word), value = 0xA5000004 ∧ s.boot.pinLow = false ∧ s.sup.seq = .done ∧ s.sup.dormant = false :=
  ⟨wAwake, .core 0, 0xA5000004, by decide +kernel⟩

theorem wit_DormantAndResetsOfTheCore_11 : ∃ (s : State) (agent : Agent) (value : Word), bitsOf value.toNat 31 24 ≠ 0xA5 :=
  ⟨wAwake, .core 0, 0xA4000002, by decide +kernel⟩

theorem wit_DormantAndResetsOfTheCore_12 : ∃ (s : State), s.boot.pinLow = false :=
  ⟨wAwake, by decide +kernel⟩

theorem wit_DormantAndResetsOfTheCore_13 : ∃ (s : State), s.boot.pinLow = true ∧ s.boot.waiting = none ∧ s.sup.seq = .done ∧ s.sup.dormant = false ∧ s.sq.pinLow = false ∧ fbit s fldSQ_STAT_SAFE = false :=
  ⟨modBoot wAwake (fun b => { b with pinLow := true }), by decide +kernel⟩

theorem wit_BootRecoveryAndFlash_1 : ∃ (s : State) (ident : List Byte), inReset s = false ∧ s.boot.stage = .rom ∧ s.boot.recover = true :=
  ⟨wRom (fun b => { b with recover := true }), [], by decide +kernel⟩

theorem wit_BootRecoveryAndFlash_2 : ∃ (s : State) (ident : List Byte), inReset s = false ∧ s.boot.stage = .rom ∧ s.boot.recover = false ∧ s.boot.wake = false ∧ ident.any (fun b => b != 0) = true ∧ ident.any (fun b => b != 0xFF) = true ∧ hdrNum (flashBytes s 0 256) 0 4 ≠ 0x4F52424F ∧ hdrNum (flashBytes s 0x80000 256) 0 4 ≠ 0x4F52424F :=
  ⟨wRom id, [1, 2, 3], by decide +kernel⟩

theorem wit_BootRecoveryAndFlash_3 : ∃ (s : State) (ident : List Byte) (bs : List Byte), inReset s = false ∧ s.boot.stage = .rom ∧ s.boot.recover = false ∧ s.boot.wake = true ∧ fget s fldRST_RESUME_LEN_LEN ≠ 0 ∧ (resumeImage (permitClaim s 1 20 0x10)).2 = some bs :=
  ⟨wResume, [], List.replicate 8 0, by decide +kernel⟩

theorem wit_BootRecoveryAndFlash_4 : ∃ (s : State) (port : Port), recoveryOn s port.val = true :=
  ⟨wRec, 0, by decide +kernel⟩

theorem wit_BootRecoveryAndFlash_5 : ∃ (s : State) (port : Port) (offset length : Word), recoveryOn s port.val = true ∧ length ≠ 0 ∧ offset.toNat + length.toNat ≤ 2 ^ 24 :=
  ⟨wRec, 0, 0x1005, 3, by decide +kernel⟩

theorem wit_BootRecoveryAndFlash_6 : ∃ (s : State) (port : Port) (offset : Word) (data : List Byte), recoveryOn s port.val = true ∧ data.length ≤ 4096 ∧ offset.toNat + data.length ≤ 2 ^ 24 :=
  ⟨wRec, 0, 0x0FFF, [0xF0, 0x3C, 0x55], by decide +kernel⟩

theorem wit_BootRecoveryAndFlash_7 : ∃ (s : State) (port : Port) (offset : Word) (data : List Byte), recoveryOn s port.val = true ∧ (4096 < data.length ∨ 2 ^ 24 < offset.toNat + data.length) :=
  ⟨wRec, 0, 0x1000000, [0xF0], by decide +kernel⟩

theorem wit_BootRecoveryAndFlash_8 : ∃ (s : State) (port : Port) (offset length : Word), recoveryOn s port.val = true ∧ length.toNat ≤ 4096 ∧ offset.toNat + length.toNat ≤ 2 ^ 24 :=
  ⟨wRec, 0, 0x0FFF, 3, by decide +kernel⟩

theorem wit_BootRecoveryAndFlash_9 : ∃ (s : State) (port : Port), recoveryOn s port.val = true ∧ s.sq.pinLow = false ∧ fbit s fldSQ_STAT_SAFE = false :=
  ⟨wRec, 0, by decide +kernel⟩

theorem wit_BootRecoveryAndFlash_10 : ∃ (s : State) (port : Port), mgmtOn s port.val = true :=
  ⟨wFw, 0, by decide +kernel⟩

theorem wit_BootRecoveryAndFlash_11 : ∃ (s : State) (port : Port), mgmtOn s port.val = true :=
  ⟨wFw, 0, by decide +kernel⟩

theorem wit_BootRecoveryAndFlash_12 : ∃ (s : State) (data : List Byte) (c : FlashCmd), s.boot.spi = some c ∧ c.opcode = 0x03 ∧ c.toFlash = false :=
  ⟨modBoot State.reset (fun b => { b with spi := some ⟨3, some 0x10, false, 8, 0x1000000⟩ }), [], ⟨3, some 0x10, false, 8, 0x1000000⟩, by decide +kernel⟩

theorem wit_BootRecoveryAndFlash_13 : ∃ (s : State) (data bs : List Byte) (c : FlashCmd), s.boot.spi = some c ∧ c.opcode = 0x02 ∧ c.toFlash = true ∧ s.boot.flashWe = true ∧ memRead s 0 c.tcm c.len = (s, some (bs, false)) :=
  ⟨{ modBoot State.reset (fun b => { b with flashWe := true, spi := some ⟨2, some 0x10, true, 8, 0x1000000⟩ }) with mem := [(0x1000001, 6)] }, [], [0, 6, 0, 0, 0, 0, 0, 0], ⟨2, some 0x10, true, 8, 0x1000000⟩, by decide +kernel⟩

theorem wit_BootRecoveryAndFlash_14 : ∃ (s : State) (c : FlashCmd), s.boot.spi = some c :=
  ⟨modBoot State.reset (fun b => { b with spi := some ⟨2, some 0x10, true, 8, 0x1000000⟩ }), ⟨2, some 0x10, true, 8, 0x1000000⟩, by decide +kernel⟩

theorem wit_GpioLinesAndEdgeTimers_1 : ∃ (s : State) (agent : Agent) (line : Fin 16) (value : Word), permitOwner s line.val = agent.id ∧ (gpioFunc value.toNat = 0 ∨ gpioFunc value.toNat = fget s (fldPERMIT_FEATURE line.val)) :=
  ⟨wGpio, .core 0, 5, 0x1302, by decide +kernel⟩

theorem wit_GpioLinesAndEdgeTimers_2 : ∃ (s : State) (agent : Agent) (line : Fin 16) (value : Word), (permitOwner s line.val ≠ agent.id ∨ (gpioFunc value.toNat ≠ 0 ∧ gpioFunc value.toNat ≠ fget s (fldPERMIT_FEATURE line.val))) :=
  ⟨wGpio, .core 0, 5, 3, by decide +kernel⟩

theorem wit_GpioLinesAndEdgeTimers_3 : ∃ (s : State) (agent : Agent) (lines : BitVec 16), (List.range 16).all (fun k => !(lines.toNat.testBit k) || permitOwner s k == agent.id) = true :=
  ⟨wGpio, .core 0, 0x20, by decide +kernel⟩

theorem wit_GpioLinesAndEdgeTimers_4 : ∃ (s : State) (agent : Agent) (lines : BitVec 16), (List.range 16).all (fun k => !(lines.toNat.testBit k) || permitOwner s k == agent.id) = true :=
  ⟨wGpio, .core 0, 0x20, by decide +kernel⟩

theorem wit_GpioLinesAndEdgeTimers_5 : ∃ (s : State) (agent : Agent) (lines : BitVec 16), (List.range 16).all (fun k => !(lines.toNat.testBit k) || permitOwner s k == agent.id) = true :=
  ⟨wGpio, .core 0, 0x20, by decide +kernel⟩

theorem wit_GpioLinesAndEdgeTimers_6 : ∃ (s : State) (agent : Agent) (lines : BitVec 16), (List.range 16).all (fun k => !(lines.toNat.testBit k) || permitOwner s k == agent.id) = true :=
  ⟨wGpio, .core 0, 0x20, by decide +kernel⟩

theorem wit_GpioLinesAndEdgeTimers_7 : ∃ (s : State) (agent : Agent) (lines : BitVec 16) (k : Fin 16), lines.toNat.testBit k.val = true ∧ permitOwner s k.val ≠ agent.id :=
  ⟨wGpio, .core 0, 0x60, 6, by decide +kernel⟩

theorem wit_GpioLinesAndEdgeTimers_8 : ∃ (s : State) (agent : Agent) (k : Fin 4) (value : Word), permitOwner s (16 + k.val) = agent.id ∧ (bitsOf value.toNat 31 31 = 0 ∨ (permitOwner s (bitsOf value.toNat 19 16) = agent.id ∧ fget s (fldPERMIT_FEATURE (bitsOf value.toNat 19 16)) = (if bitsOf value.toNat 29 28 = 3 then 3 else 2))) :=
  ⟨wTmr, .core 0, 1, 0x80050000, by decide +kernel⟩

theorem wit_GpioLinesAndEdgeTimers_9 : ∃ (s : State) (agent : Agent) (k : Fin 4) (value : Word), permitOwner s (16 + k.val) ≠ agent.id :=
  ⟨wTmr, .core 0, 2, 0x80050000, by decide +kernel⟩

theorem wit_GpioLinesAndEdgeTimers_10 : ∃ (s : State) (line : Fin 16) (rise : Bool), inReset s = false :=
  ⟨wEdge, 5, true, by decide +kernel⟩

theorem wit_GpioLinesAndEdgeTimers_11 : ∃ (s : State) (k : Fin 4), fbit s (fldTMR_CFG_EN k.val) = true ∧ fget s (fldTMR_CFG_MODE k.val) = 3 ∧ xingArmed s 50 = true :=
  ⟨fput wEdge (fldTMR_CFG_MODE 1) 3, 1, by decide +kernel⟩

theorem wit_KerbSmbusAndJtag_1 : ∃ (s : State) (word : Fin 64), s.pins.strobe ≠ 2 ∧ s.pins.ack = false :=
  ⟨{ wKrb with chipTime := 0x123456789ABCDEF0 }, 10, by decide +kernel⟩

theorem wit_KerbSmbusAndJtag_2 : ∃ (s : State) (n : Fin 32) (value : BitVec 16), s.pins.strobe = 0 ∧ coreWouldServe s = true :=
  ⟨wKrb, 7, 0xBEEF, by decide +kernel⟩

theorem wit_KerbSmbusAndJtag_3 : ∃ (s : State) (n : Fin 32) (value : BitVec 16), s.pins.strobe = 0 ∧ coreWouldServe s = false :=
  ⟨State.reset, 7, 0xBEEF, by decide +kernel⟩

theorem wit_KerbSmbusAndJtag_4 : ∃ (s : State) (value : BitVec 16), s.pins.strobe = 0 ∧ coreWouldServe s = true :=
  ⟨wKrb, 0xBEEF, by decide +kernel⟩

theorem wit_KerbSmbusAndJtag_5 : ∃ (s : State) (value : BitVec 16), s.pins.strobe = 0 ∧ coreWouldServe s = true :=
  ⟨fset wKrb fldKRB_INT_ASSERT, 1, by decide +kernel⟩

theorem wit_KerbSmbusAndJtag_6 : ∃ (s : State) (value : BitVec 16), s.pins.strobe = 0 ∧ s.sup.dormant = false :=
  ⟨wKrb, 0x5A17, by decide +kernel⟩

theorem wit_KerbSmbusAndJtag_7 : ∃ (s : State), s.pins.strobe = 0 ∧ s.sup.dormant = true ∧ s.sup.wakeEn.testBit 2 = true ∧ s.boot.pinLow = false :=
  ⟨wDormant, by decide +kernel⟩

theorem wit_KerbSmbusAndJtag_8 : ∃ (s : State) (word : BitVec 8), s.pins.strobe = 0 ∧ coreWouldServe s = true ∧ 0x40 ≤ word.toNat :=
  ⟨fput wKrb (fldKRB_OUT_WORD 3) 0x1234, 0x63, by decide +kernel⟩

theorem wit_KerbSmbusAndJtag_9 : ∃ (s : State), inReset s = false :=
  ⟨wKrb, by decide +kernel⟩

theorem wit_KerbSmbusAndJtag_10 : ∃ (s : State), s.pins.strobe = 0 :=
  ⟨wKrb, by decide +kernel⟩

theorem wit_KerbSmbusAndJtag_12 : ∃ (s : State) (temp : BitVec 16), inReset s = false :=
  ⟨wKrb, 0x1900, by decide +kernel⟩

theorem wit_KerbSmbusAndJtag_13 : ∃ (s : State) (word : Fin 64), fbit s fldSMB_CFG_PEC = false :=
  ⟨fclr { wKrb with chipTime := 0x123456789ABCDEF0 } fldSMB_CFG_PEC, 10, by decide +kernel⟩

theorem wit_KerbSmbusAndJtag_14 : ∃ (s : State), fbit s fldSMB_CFG_PEC = true :=
  ⟨fset { wKrb with chipTime := 0x123456789ABCDEF0 } fldSMB_CFG_PEC, by decide +kernel⟩

theorem wit_KerbSmbusAndJtag_16 : ∃ (s : State), alertLow s = true :=
  ⟨fset State.reset fldSQ_STAT_SAFE, by decide +kernel⟩

theorem wit_KerbSmbusAndJtag_20 : ∃ (s : State), irHolds s.pins.jtagIr = false :=
  ⟨wSpn 5, by decide +kernel⟩

theorem wit_KerbSmbusAndJtag_21 : ∃ (s : State), irHolds s.pins.jtagIr = false :=
  ⟨wSpn 5, by decide +kernel⟩

theorem wit_KerbSmbusAndJtag_22 : ∃ (s : State), irHolds s.pins.jtagIr = false :=
  ⟨wSpn 5, by decide +kernel⟩

theorem wit_KerbSmbusAndJtag_23 : ∃ (s : State), irHolds s.pins.jtagIr = true :=
  ⟨{ State.reset with pins := { State.reset.pins with jtagIr := 4 } }, by decide +kernel⟩

theorem wit_KerbSmbusAndJtag_25 : ∃ (s : State) (addr : BitVec 40) (data : Word) (v : Nat) (p : Bool), s.keyFused = false ∧ (busRead (jtagLoad s 8) .jtag addr.toNat 4).2 = some (v, p) :=
  ⟨{ State.reset with mem := [(0x1000001, 6)] }, 0x1000000, 0, 0x600, false, by decide +kernel⟩

theorem wit_KerbSmbusAndJtag_26 : ∃ (s : State) (write : Bool) (addr : BitVec 40) (data : Word), s.keyFused = false :=
  ⟨State.reset, true, 0x1000000, 0, by decide +kernel⟩

theorem wit_KerbSmbusAndJtag_27 : ∃ (s : State) (go write : Bool) (addr : BitVec 40) (data : Word), s.keyFused = true :=
  ⟨{ State.reset with keyFused := true }, true, true, 0x1000000, 0, by decide +kernel⟩

theorem wit_Step_front : ∃ (s : State) (c : Instr) (rest : List Instr), s.pending = c :: rest :=
   ⟨{ State.reset with pending := [.timeReadLatch (.core 0)] }, .timeReadLatch (.core 0), [], rfl⟩
 theorem wit_Step_idle : ∃ s : State, s.pending = [] := ⟨State.reset, rfl⟩

theorem wit_Frame : ∃ (i : Instr) (s t : State), exec i s = .next t := ⟨.timeReadLatch (.core 0), State.reset, _, rfl⟩

theorem wit_Invariant : State.reset.Inv := ⟨⟨by decide +kernel, by decide +kernel⟩, by decide +kernel, by decide +kernel⟩

theorem wit_Memory : ∃ m : List Host.Cell, Memory.wf m = true ∧ m ≠ [] := ⟨[(3, 7)], by decide +kernel⟩

/-! ### Well-formed commands: one ill-formed term for each check -/

theorem test_wf_refuses_wide_value : Instr.wf (.registerWrite (.core 0) 0x42000000 .b1 0x100) = false := by decide +kernel
theorem test_wf_refuses_no_path : Instr.wf (.fabricTransfer 1 2 [] [1, 2]) = false := by decide +kernel
theorem test_wf_refuses_short_group : Instr.wf (.rfSampleGroup 0 [] [] [] [] [0, 0, 0, 0]) = false := by decide +kernel
theorem test_wf_refuses_large_sample :
    Instr.wf (.rfSampleGroup 0 (List.replicate 16 64) (List.replicate 16 0) (List.replicate 16 0) (List.replicate 16 0)
      [0, 0, 0, 0]) = false := by decide +kernel
theorem test_wf_refuses_port_twice : Instr.wf (.runStart 0 ⟨[(3, 1), (3, 2)], []⟩) = false := by decide +kernel
theorem test_wf_refuses_request_across_lines : Instr.wf (.dramRequest .arcade true 0x800000003F [1, 2]) = false := by decide +kernel
theorem test_wf_refuses_empty_store : Instr.wf (.dramRequest .arcade true 0x8000000000 []) = false := by decide +kernel
theorem test_wf_refuses_read_with_data : Instr.wf (.dramRequest .arcade false 0x8000000000 [1]) = false := by decide +kernel
theorem test_wf_refuses_short_conversion :
    Instr.wf (.runStart 0 ⟨[], [⟨0, [[1, 2, 3]]⟩]⟩) = false := by decide +kernel
theorem test_wf_refuses_guard_inputs : Instr.wf (.guardTrip 0 ⟨.fe, [1]⟩) = false := by decide +kernel
theorem test_wf_refuses_row_word_twice : Instr.wf (.scrubRow 0 [(3, 1), (3, 2)] []) = false := by decide +kernel
theorem test_wf_refuses_channel_twice : Instr.wf (.dramInitDone [1, 1]) = false := by decide +kernel
theorem test_wf_refuses_short_entry : Instr.wf (.commandFetch (some [1, 2, 3]) none) = false := by decide +kernel
theorem test_wf_refuses_short_key : Instr.wf (.openSession 0 (some [1])) = false := by decide +kernel
theorem test_wf_refuses_short_block : Instr.wf (.format 0 (some [1])) = false := by decide +kernel
theorem test_wf_accepts_write : Instr.wf (.registerWrite (.core 0) 0x42000000 .b4 0xFFFFFFFF) = true := by decide +kernel

/-! ### Worked words of the spec -/

/-- R352 and the example of 11_plaza_cores.md: 0x48A4_2000 is LUI x10, 0x42000. -/
theorem test_lui_word : (dxOp 0x48A42000, dxA 0x48A42000, dxImm20 0x48A42000) = (0x24, 10, 0x42000) := by decide +kernel

/-- The same example: the core that stands at that word has x10 = 0x4200_0000 after it. -/
theorem test_lui_runs : (match execLui 1 (wDx 0x48A42000) with | .next t => t.core[1].x[10] == 0x42000000 | _ => false) = true := by decide +kernel

/-- The same example: 0x6455_000C is SW x5, 0x00C(x10). -/
theorem test_sw_word : (dxOp 0x6455000C, dxA 0x6455000C, dxB 0x6455000C) = (0x32, 5, 10) := by decide +kernel

/-- The example of 19_fault_handling_and_counters.md: REC0 of H5's HB_BLOCK record. -/
theorem test_fault_rec0 : recordWord (faultRecord ⟨0x0B, 2, 4, 1, 0x3F, 2, 0, 0, 0⟩) 0 = 0x0BA0FE80 := by decide +kernel

/-- The example of 02_the_archive_disc.md: tile 7 of band 1,000 in Z12 on side A, L3. -/
theorem test_pta : ptaMake 0 3 12 1000 7 = 0x1B0FA0E0 := by decide +kernel

/-- The same example: the spot B2 reads track 4,002 of the zone, PTN 115,618. -/
theorem test_ptn : ptaPtn (ptaMake 0 3 12 1000 7) 2 = 115618 := by decide +kernel

/-- The example of 14_host_link_and_queues.md: LBA 0x0B8F_4240 lies in tile 31,250 of zone 23, PTA 0x85CA_CA20. -/
theorem test_zone_pta : zonePta State.reset 23 0xFF 31250 = 0x85CACA20 := by decide +kernel

/-- The example of 21_pins_and_electrical.md: P2 claims permit 5 that P1 holds with feature 0x01. -/
theorem test_permit_refused :
    (match execPermitClaim (.core 1) 5 1 State.reset with
     | .next t => (match execPermitClaim (.core 2) 5 1 t with
       | .next u => (fget u (fldPERMIT_OWNER 5), fget u (fldPERMIT_FEATURE 5), fget u (fldPERMIT_DENIED 5), fget u (fldPERMIT_DENY_ID 5)) ==
           (2, 1, 1, 3)
       | _ => false)
     | _ => false) = true := by decide +kernel

/-- The example of 06_servo_engine_programming.md: 0x4500_8000 is ADDS v4, v0, v2. -/
theorem test_adds_word : (vdOf 0x45008000, vs1Of 0x45008000, vs2Of 0x45008000) = (4, 0, 2) := by decide +kernel

/-- The example of R570: H2_RF0 P at A19, H2_TEMP DN at D23, the two VLAS balls of H2 at D26 and D27. -/
theorem test_ball_map :
    (ballAt 1 19, ballAt 4 23, ballAt 4 26, ballAt 4 27) = (.signal 26 0, .signal 38 1, .vlas, .vlas) := by decide +kernel

/-! ### The frame of one step -/

/-- A command is taken from the front of the queue. -/
theorem test_step_takes_front :
    (match step { State.reset with pending := [.timeReadLatch (.core 0), .sqKick (.core 0) 0x4B000000] } with
     | .next t => t.pending == [.sqKick (.core 0) 0x4B000000]
     | _ => false) = true := by decide +kernel

end

end
end

section
/-! SUPPORT. The frame of every command, from exec_kept of Laws/Exec.lean, and the statement about it (O57). -/

namespace Sys2Proof
namespace Machine

/-! ### Masks and lists of parts -/

/-- The place of a part in a mask is its place in the list of parts. -/
theorem Part.bit_eq_ctorIdx (p : Part) : p.bit = p.ctorIdx := by
  cases p <;> rfl

theorem Part.bit_inj {p q : Part} : p.bit = q.bit ↔ p = q := by
  constructor
  · intro h
    rw [bit_eq_ctorIdx, bit_eq_ctorIdx] at h
    rw [← Part.ofNat_ctorIdx p, ← Part.ofNat_ctorIdx q, h]
  · exact congrArg Part.bit

/-- The mask of a list of parts. -/
def partsMask : List Part → Nat
  | [] => 0
  | p :: l => 1 <<< p.bit ||| partsMask l

theorem testBit_partsMask (l : List Part) (p : Part) : (partsMask l).testBit p.bit = true ↔ p ∈ l := by
  induction l with
  | nil => simp [partsMask]
  | cons q l ih =>
    rw [partsMask, Nat.testBit_or, Bool.or_eq_true, ih, Nat.one_shiftLeft, Nat.testBit_two_pow, decide_eq_true_eq, Part.bit_inj,
      List.mem_cons, eq_comm]

/-- A frame that a mask says, as a list of parts whose mask holds it. -/
theorem Kept.changesOnly_of_mask {m : Nat} {s t : State} (h : Kept m s t) {l : List Part} (hl : m &&& partsMask l = m) :
    Machine.changesOnly l s t := by
  apply h.changesOnly
  intro p hp
  rw [← hl, Nat.testBit_and, Bool.and_eq_true] at hp
  exact (testBit_partsMask l p).mp hp.2

/-- The parts that no command changes: what the part is, and the queue. -/
def fixedParts : List Part := [.variant, .keyFused, .pending]

theorem Kept.same_of_fixed {m : Nat} {s t : State} (h : Kept m s t) {p : Part} (hp : p ∈ fixedParts) : p.same s t := by
  rw [fixedParts, List.mem_cons, List.mem_cons, List.mem_singleton] at hp
  obtain rfl | rfl | rfl := hp
  · exact h.variant
  · exact h.keyFused
  · exact h.pending

/-! ### What a command may change -/

/-- The two tables of what a command may change agree: every part that its mask names is in its list, or fixed. -/
theorem execMask_within_mayChange (i : Instr) : execMask i &&& partsMask (fixedParts ++ mayChange i) = execMask i := by
  cases i <;> dsimp only [execMask, mayChange] <;> decide

/-- Every command answers a next state: each arm of exec is one. -/
theorem exec_completes (i : Instr) (s : State) : ∃ t, exec i s = .next t := by
  cases i <;> exact ⟨_, rfl⟩

/-- A command that answers a next state leaves every part outside its list as it was. -/
theorem exec_changesOnly {i : Instr} {s t : State} (e : exec i s = .next t) : changesOnly (mayChange i) s t := by
  intro p hp
  have kept := exec_kept e
  by_cases hf : p ∈ fixedParts
  · exact kept.same_of_fixed hf
  · exact kept.changesOnly_of_mask (execMask_within_mayChange i) p (by simp [hf, hp])

/-! ### The statement -/

/-- Settles O57: every arm of exec answers a next state, and the mask of the parts that it changes lies within its list. -/
theorem everyCommandKeepsItsFrame : Obligations.EveryCommandKeepsItsFrame := by
  intro i s
  obtain ⟨t, e⟩ := exec_completes i s
  exact ⟨t, e, exec_changesOnly e⟩

end Machine
end Sys2Proof
end

section
/-! SUPPORT. A plain register write field by field (R13), the registers that a core's bus write reaches plainly, and the
statement about register writes (O7). -/

namespace Sys2Proof
namespace Machine

/-! ### Little-endian numbers -/

@[simp] theorem length_natLe (n x : Nat) : (natLe n x).length = n := by
  induction n generalizing x with
  | zero => rfl
  | succ n ih => simp [natLe, ih]

theorem leNat_natLe (n x : Nat) : leNat (natLe n x) = x % 256 ^ n := by
  induction n generalizing x with
  | zero => simp [natLe, leNat, Nat.mod_one]
  | succ n ih =>
    have hbyte : (BitVec.ofNat 8 (x % 256)).toNat = x % 256 := by
      rw [BitVec.toNat_ofNat]
      exact Nat.mod_mod x 256
    rw [natLe, leNat, ih, hbyte, Nat.pow_succ', Nat.mod_mul]

@[simp] theorem leNat_natLe_word (v : Word) : leNat (natLe 4 v.toNat) = v.toNat := by
  rw [leNat_natLe]
  exact Nat.mod_eq_of_lt v.isLt

/-! ### Registers under a reply -/

theorem regsBut_reply {s t : State} {l : List Nat} (h : regsBut s t l) (st : BusStatus) (v : Nat) (bs : List Byte) :
    regsBut s (reply t st v bs) l := h

/-! ### Bits of a number with a field replaced -/

theorem bitsOf_putBits_apart (v hi lo x : Nat) {hi' lo' : Nat} (h : lo ≤ hi) (ha : hi < lo' ∨ hi' < lo) :
    bitsOf (putBits v hi lo x) hi' lo' = bitsOf v hi' lo' := by
  apply Nat.eq_of_testBit_eq
  intro i
  rw [testBit_bitsOf, testBit_bitsOf, testBit_putBits _ _ _ _ _ (by omega)]
  by_cases inside : i < hi' + 1 - lo'
  · congr 1
    by_cases below : lo' + i < lo
    · rw [if_pos below]
    · rw [if_neg below, if_neg (by omega)]
  · simp [inside]

theorem bitsOf_mod_word (x : Nat) {hi lo : Nat} (h : hi < 32) : bitsOf (x % 2 ^ 32) hi lo = bitsOf x hi lo := by
  apply Nat.eq_of_testBit_eq
  intro i
  rw [testBit_bitsOf, testBit_bitsOf, Nat.testBit_mod_two_pow]
  by_cases inside : i < hi + 1 - lo
  · have hb : lo + i < 32 := by omega
    simp [hb]
  · simp [inside]

/-! ### Writes field by field (R13) -/

/-- The bits that a write leaves in a field, by its access type. -/
def FieldSpec.newBits (f : FieldSpec) (old v : Nat) : Nat :=
  match f.acc with
  | .rw => bitsOf v f.hi f.lo
  | .w1c => bitsOf old f.hi f.lo - (bitsOf old f.hi f.lo &&& bitsOf v f.hi f.lo)
  | _ => bitsOf old f.hi f.lo

theorem FieldSpec.newBits_lt (f : FieldSpec) (old v : Nat) : f.newBits old v < 2 ^ (f.hi + 1 - f.lo) := by
  unfold newBits
  split
  · exact bitsOf_lt _ _ _
  · exact Nat.lt_of_le_of_lt (Nat.sub_le _ _) (bitsOf_lt _ _ _)
  · exact bitsOf_lt _ _ _

theorem bitsOf_bit (v b : Nat) : bitsOf v b b = 0 ∨ bitsOf v b b = 1 := by
  have h : bitsOf v b b < 2 := by simpa using bitsOf_lt v b b
  omega

/-- A one-bit W1C field is cleared by a 1. -/
theorem FieldSpec.newBits_w1c_bit (b r old v : Nat) :
    FieldSpec.newBits ⟨b, b, .w1c, r⟩ old v = if bitsOf v b b = 1 then 0 else bitsOf old b b := by
  unfold newBits
  rcases bitsOf_bit old b with ho | ho <;> rcases bitsOf_bit v b with hx | hx <;> simp [ho, hx]

/-- Two fields of a row that share no bit. -/
def FieldSpec.apart (f g : FieldSpec) : Bool := decide (f.hi < g.lo) || decide (g.hi < f.lo)

/-- The fields of a row lie within 32 bits and share no bit. -/
def RegSpec.wf (r : RegSpec) : Bool :=
  r.fields.all (fun f => decide (f.lo ≤ f.hi) && decide (f.hi < 32)) &&
    decide (r.fields.Pairwise (fun f g => f.apart g = true))

/-- A number with each of a list of fields replaced. -/
def putFields (fs : List FieldSpec) (x : FieldSpec → Nat) (old : Nat) : Nat :=
  fs.foldl (fun acc f => putBits acc f.hi f.lo (x f)) old

theorem plainValue_eq_putFields (sp : RegSpec) (old v : Nat) :
    plainValue sp old v = putFields sp.fields (fun f => f.newBits old v) old := rfl

theorem bitsOf_putFields_apart {fs : List FieldSpec} (x : FieldSpec → Nat) (old : Nat) {g : FieldSpec}
    (hok : ∀ f ∈ fs, f.lo ≤ f.hi) (ha : ∀ f ∈ fs, g.apart f = true) :
    bitsOf (putFields fs x old) g.hi g.lo = bitsOf old g.hi g.lo := by
  induction fs generalizing old with
  | nil => rfl
  | cons f fs ih =>
    rw [List.forall_mem_cons] at hok ha
    have hf : g.hi < f.lo ∨ f.hi < g.lo := by simpa [FieldSpec.apart] using ha.1
    calc bitsOf (putFields fs x (putBits old f.hi f.lo (x f))) g.hi g.lo
        = bitsOf (putBits old f.hi f.lo (x f)) g.hi g.lo := ih _ hok.2 ha.2
      _ = bitsOf old g.hi g.lo := bitsOf_putBits_apart _ _ _ _ hok.1 hf.symm

theorem bitsOf_putFields_mem {fs : List FieldSpec} (x : FieldSpec → Nat) (old : Nat) {g : FieldSpec} (hg : g ∈ fs)
    (hok : ∀ f ∈ fs, f.lo ≤ f.hi) (hp : fs.Pairwise (fun f g => f.apart g = true)) :
    bitsOf (putFields fs x old) g.hi g.lo = x g % 2 ^ (g.hi + 1 - g.lo) := by
  induction fs generalizing old with
  | nil => cases hg
  | cons f fs ih =>
    rw [List.forall_mem_cons] at hok
    rw [List.pairwise_cons] at hp
    rcases List.mem_cons.mp hg with rfl | hg
    · exact (bitsOf_putFields_apart x _ hok.2 hp.1).trans
        (bitsOf_putBits_same _ _ _ _ (Nat.le_succ_of_le hok.1))
    · exact ih _ hg hok.2 hp.2

/-- Whether a row has a field at these bits with this access type. -/
def RegSpec.has (r : RegSpec) (hi lo : Nat) (acc : Acc) : Bool :=
  r.fields.any (fun f => f.hi == hi && f.lo == lo && f.acc == acc)

theorem RegSpec.mem_of_has {r : RegSpec} {hi lo : Nat} {acc : Acc} (h : r.has hi lo acc = true) :
    ∃ x, ⟨hi, lo, acc, x⟩ ∈ r.fields := by
  simp only [has, List.any_eq_true, Bool.and_eq_true, beq_iff_eq] at h
  obtain ⟨⟨_, _, _, x⟩, hf, ⟨rfl, rfl⟩, rfl⟩ := h
  exact ⟨x, hf⟩

section
variable {s : State} {a v : Nat} {sp : RegSpec} {hi lo : Nat}

/-- What a field reads after a plain write of its register. -/
theorem fget_plainWrite {f : FieldSpec} (hs : specAt a = some sp) (hw : sp.wf = true) (hf : f ∈ sp.fields) :
    fget (plainWrite s a v) ⟨a, f.hi, f.lo⟩ = f.newBits (rd s a).toNat v := by
  simp only [RegSpec.wf, Bool.and_eq_true, List.all_eq_true, decide_eq_true_eq] at hw
  obtain ⟨hok, hp⟩ := hw
  unfold plainWrite fget
  rw [hs]
  dsimp only
  rw [rd_wr_same, BitVec.toNat_ofNat, bitsOf_mod_word _ (hok f hf).2, plainValue_eq_putFields,
    bitsOf_putFields_mem _ _ hf (fun g hg => (hok g hg).1) hp]
  exact Nat.mod_eq_of_lt (f.newBits_lt _ _)

theorem fget_plainWrite_rw (hs : specAt a = some sp) (hw : sp.wf = true) (hf : sp.has hi lo .rw = true) :
    fget (plainWrite s a v) ⟨a, hi, lo⟩ = bitsOf v hi lo := by
  obtain ⟨r, hf⟩ := RegSpec.mem_of_has hf
  exact fget_plainWrite hs hw hf

theorem fget_plainWrite_ro (hs : specAt a = some sp) (hw : sp.wf = true) (hf : sp.has hi lo .ro = true) :
    fget (plainWrite s a v) ⟨a, hi, lo⟩ = fget s ⟨a, hi, lo⟩ := by
  obtain ⟨r, hf⟩ := RegSpec.mem_of_has hf
  exact fget_plainWrite hs hw hf

theorem fget_plainWrite_w1c_bit (hs : specAt a = some sp) (hw : sp.wf = true) (hf : sp.has lo lo .w1c = true) :
    fget (plainWrite s a v) ⟨a, lo, lo⟩ = if bitsOf v lo lo = 1 then 0 else fget s ⟨a, lo, lo⟩ := by
  obtain ⟨r, hf⟩ := RegSpec.mem_of_has hf
  exact (fget_plainWrite hs hw hf).trans (FieldSpec.newBits_w1c_bit _ _ _ _)

theorem regsBut_plainWrite : regsBut s (plainWrite s a v) [a] := by
  unfold plainWrite
  split
  · exact regsBut_wr _ (regsBut_same s _) (List.mem_singleton.mpr rfl)
  · exact regsBut_same s _

theorem changesOnly_plainWrite {l : List Part} (hr : .regs ∈ l) : changesOnly l s (plainWrite s a v) := by
  unfold plainWrite
  split
  · exact changesOnly_wr (changesOnly_same s _) hr _ _
  · exact changesOnly_same s _

end

/-! ### A core's write over the bus (R9, R10) -/

section
variable {s : State} {k : Fin 4} {a : Nat} {w : Width} {v : Word}

theorem Width.bytes_eq_four {w : Width} : w.bytes = 4 ↔ w = .b4 := by
  cases w <;> decide

theorem registerWrite_core_misfit (hr : regionOf a = .device) (hw : w ≠ .b4 ∨ a % 4 ≠ 0) :
    registerWrite s (.core k) a w v = replyError s := by
  have h : w.bytes ≠ 4 ∨ a % 4 ≠ 0 ∨ fencedAt s a = true := hw.imp (fun h => mt Width.bytes_eq_four.mp h) .inl
  simp only [registerWrite, busWrite, hr, length_natLe]
  rw [if_pos h]

theorem registerWrite_core_absent (hr : regionOf a = .device) (h4 : a % 4 = 0) (hf : fencedAt s a = false)
    (ha : absentAt s.variant a = true) : registerWrite s (.core k) a .b4 v = reply s .ok 0 [] := by
  simp [registerWrite, busWrite, hr, Width.bytes, h4, hf, ha]

/-- Below the servo engines' windows a write that fits reaches the register. -/
theorem registerWrite_core_reaches (hr : regionOf a = .device) (h4 : a % 4 = 0) (hf : fencedAt s a = false)
    (ha : absentAt s.variant a = false) (hlow : a < 0x50000000) :
    registerWrite s (.core k) a .b4 v = reply (regWrite s (.core k) a v.toNat) .ok 0 [] := by
  simp [registerWrite, busWrite, hr, Width.bytes, h4, hf, ha, Nat.not_le.mpr hlow]

end

/-- A register below the servo engines' windows that no cell owns, so that no fault fences it, that a row of the map describes
and that a write reaches field by field. -/
structure PlainAt (a : Nat) (sp : RegSpec) : Prop where
  device : regionOf a = .device
  low : a < 0x50000000
  aligned : a % 4 = 0
  noCell : cellAt a = none
  spec : specAt a = some sp
  wf : sp.wf = true
  plain : ∀ s agent v, regWrite s agent a v = plainWrite s a v

theorem PlainAt.exec_registerWrite {a : Nat} {sp : RegSpec} (h : PlainAt a sp) {s : State} (k : Fin 4) (v : Word)
    (ha : absentAt s.variant a = false) :
    exec (.registerWrite (.core k) (BitVec.ofNat 40 a) .b4 v) s = .next (reply (plainWrite s a v.toNat) .ok 0 []) := by
  have haddr : (BitVec.ofNat 40 a).toNat = a := by
    rw [BitVec.toNat_ofNat]
    exact Nat.mod_eq_of_lt (Nat.lt_trans h.low (by decide))
  have hfence : fencedAt s a = false := by simp [fencedAt, h.noCell]
  calc exec (.registerWrite (.core k) (BitVec.ofNat 40 a) .b4 v) s
      = .next (registerWrite s (.core k) (BitVec.ofNat 40 a).toNat .b4 v) := rfl
    _ = .next (reply (plainWrite s a v.toNat) .ok 0 []) := by
        rw [haddr, registerWrite_core_reaches h.device h.aligned hfence ha h.low, h.plain]

/-- What such a write comes to: the fields of a plain write, and no change outside the register and the reply. -/
theorem PlainAt.registerWrite_ends {a : Nat} {sp : RegSpec} (h : PlainAt a sp) {s : State} (k : Fin 4) (v : Word)
    (ha : absentAt s.variant a = false) :
    ∃ t, exec (.registerWrite (.core k) (BitVec.ofNat 40 a) .b4 v) s = .next t ∧ t.lastReply.status = .ok ∧
      (∀ f, fget t f = fget (plainWrite s a v.toNat) f) ∧ regsBut s t [a] ∧ changesOnly [.regs, .lastReply] s t :=
  ⟨_, h.exec_registerWrite k v ha, rfl, reply_fget _ _ _ _, regsBut_reply regsBut_plainWrite _ _ _,
    changesOnly_reply (changesOnly_plainWrite (by decide)) (by decide) _ _ _⟩

/-! ### Pace registers (R51) -/

/-- The row of PACE_TARGET in the register map. -/
def rowPACE_TARGET : RegSpec := regsPACE[1]'(by decide)

/-- The row of PACE_STAT in the register map. -/
def rowPACE_STAT : RegSpec := regsPACE[2]'(by decide)

/-- Where the units that unitWrite tells apart by a base address stand. -/
theorem unitBases_eq :
    (spnBase = 0x45000000 ∧ supBase = 0x45100000 ∧ calBase = 0x45101000 ∧ clkBase = 0x45200000) ∧
      (swpBase = 0x42000000 ∧ decBase = 0x42100000 ∧ tcBase = 0x42200000 ∧ arcBase = 0x42300000 ∧ dramBase = 0x42400000) ∧
      (plzBase = 0x41000000 ∧ hostBase = 0x41400000) ∧
      (clkrBase = 0x40001200 ∧ sqBase = 0x40000500 ∧ rstBase = 0x40000700 ∧ memsBase = 0x40003000 ∧ pinBase = 0x40004000) := by
  decide

section
variable {a : Nat}

/-- In the top 1 MiB of a district, where its Avenue stands, no unit of a base address alone lies. -/
theorem unitWrite_avenue (hlow : a < 0x50000000) (htop : 0xF00000 ≤ a % 0x1000000) (s : State) (agent : Agent) (v : Nat) :
    unitWrite s agent a v = plainWrite s a v := by
  obtain ⟨⟨hspn, hsup, hcal, hclk⟩, ⟨hswp, hdec, htc, harc, hdram⟩, ⟨hplz, hhost⟩, hclkr, hsq, hrst, hmems, hpin⟩ := unitBases_eq
  unfold unitWrite
  repeat rw [if_neg (by omega)]

theorem fifoAt_avenue (htop : 0xF00000 ≤ a % 0x1000000) : fifoAt a = none := by
  have bases : ∀ f : Fin 14, fifoBase f.val % 0x1000000 ≤ 0x705100 := by decide
  rw [fifoAt, List.find?_eq_none]
  intro f _
  have := bases f
  rw [Bool.and_eq_true, decide_eq_true_eq, decide_eq_true_eq]
  omega

theorem headAt_avenue (htop : 0xF00000 ≤ a % 0x1000000) : headAt a = none := by
  rw [headAt, if_neg (by omega), if_neg (by omega)]

/-- Past the Roundabout of an Avenue, and below the cell error registers, a write is plain. -/
theorem regWrite_avenue (hlow : a < 0x50000000) (htop : 0xF00000 ≤ a % 0x1000000) (hoff : a % 0x10000 < 0xFC00)
    (hrbt : rbtIndexAt a = none) (s : State) (agent : Agent) (v : Nat) : regWrite s agent a v = plainWrite s a v := by
  simp only [regWrite, hrbt, fifoAt_avenue htop, headAt_avenue htop]
  rw [if_neg (by omega), unitWrite_avenue hlow htop]

/-- A register of an Avenue past its Roundabout, all of whose conditions are facts about its address. -/
theorem plainAt_avenue {sp : RegSpec}
    (h : (regionOf a = .device ∧ a < 0x50000000 ∧ a % 4 = 0) ∧ (0xF00000 ≤ a % 0x1000000 ∧ a % 0x10000 < 0xFC00) ∧
      (cellAt a = none ∧ rbtIndexAt a = none) ∧ specAt a = some sp ∧ sp.wf = true) : PlainAt a sp := by
  obtain ⟨⟨hdev, hlow, h4⟩, ⟨htop, hoff⟩, ⟨hcell, hrbt⟩, hspec, hwf⟩ := h
  exact ⟨hdev, hlow, h4, hcell, hspec, hwf, regWrite_avenue hlow htop hoff hrbt⟩

end

theorem plainAt_paceTarget (d : District) : PlainAt (regPACE_TARGET d) rowPACE_TARGET :=
  plainAt_avenue (by revert d; decide)

theorem plainAt_paceStat (d : District) : PlainAt (regPACE_STAT d) rowPACE_STAT :=
  plainAt_avenue (by revert d; decide)

theorem paceRateRead_present {s : State} {d : District} (h : absentAt s.variant (paceBase d) = false) :
    paceRateRead s d =
      reply (fput s (fldPACE_RATE_MIN_RATE d) 0xFFFF) .ok (rd s (regPACE_RATE d)).toNat (natLe 4 (rd s (regPACE_RATE d)).toNat) := by
  simp [paceRateRead, h]

/-! ### Cell error registers (R535) -/

theorem rbtIndexAt_high {a : Nat} (h : 0xFC00 ≤ a % 0x10000) (h' : a % 0x10000 < 0xFD00) : rbtIndexAt a = none := by
  have bases : ∀ r < 21, rbtBase r % 0x10000 ≤ 0x1000 ∨ rbtBase r % 0x10000 = 0xFF00 := by decide
  rw [rbtIndexAt, List.find?_eq_none]
  intro r hr
  have := bases r (List.mem_range.mp hr)
  rw [decide_eq_true_eq]
  omega

theorem fifoAt_high {a : Nat} (h : 0xFC00 ≤ a % 0x10000) : fifoAt a = none := by
  have bases : ∀ f : Fin 14, fifoBase f.val % 0x10000 ≤ 0x5100 := by decide
  rw [fifoAt, List.find?_eq_none]
  intro f _
  have := bases f
  rw [Bool.and_eq_true, decide_eq_true_eq, decide_eq_true_eq]
  omega

theorem headAt_offset {a n off : Nat} (h : headAt a = some (n, off)) : off % 0x10000 = a % 0x10000 := by
  unfold headAt at h
  split at h
  · obtain ⟨-, rfl⟩ := Prod.mk.inj (Option.some.inj h)
    omega
  · split at h
    · obtain ⟨-, rfl⟩ := Prod.mk.inj (Option.some.inj h)
      omega
    · cases h

theorem cellAt_high {a : Nat} (h : 0xFC00 ≤ a % 0x10000) (hlow : a < 0x50000000) : cellAt a = none := by
  unfold cellAt
  split
  · rename_i n off e
    have := headAt_offset e
    rw [if_neg (by omega), if_neg (by omega), if_neg (by omega)]
  · obtain ⟨hdec, htc, harv, hkey⟩ : decBase = 0x42100000 ∧ tcBase = 0x42200000 ∧ arvBase = 0x41500000 ∧ keyBase = 0x41600000 :=
      ⟨rfl, rfl, rfl, rfl⟩
    rw [if_neg (by omega), if_neg (by omega), if_neg (by omega), if_neg (by omega), if_neg (by omega), if_neg (by omega)]

theorem regWrite_high {a : Nat} (h : 0xFC00 ≤ a % 0x10000) (h' : a % 0x10000 < 0xFD00) (hlow : a < 0x50000000)
    (s : State) (agent : Agent) (v : Nat) : regWrite s agent a v = plainWrite s a v := by
  simp only [regWrite, rbtIndexAt_high h h', fifoAt_high h]
  rw [if_pos ⟨h, hlow⟩]

/-- The blocks with cell error registers stand at multiples of 64 KiB in device space. -/
theorem blockBase_place {b : Nat} (hb : b < 20) :
    blockBase b % 0x10000 = 0 ∧ 0x40000000 ≤ blockBase b ∧ blockBase b < 0x45FF0000 := by
  revert b
  decide

/-- The row of the cell error registers in the register map. -/
def rowCELL_ERR : RegSpec := regsCERR[0]'(by decide)

theorem unitAt_cellErr {b k : Nat} (hb : b < 20) (hk : k < blockCells b) :
    unitAt (blockBase b + 0xFC00 + 4 * k) = some (regsCERR, 0) := by
  obtain ⟨hm, hlo, hhi⟩ := blockBase_place hb
  have := blockCells_le b
  have hoff : (blockBase b + 0xFC00 + 4 * k) % 0x10000 = 0xFC00 + 4 * k := by omega
  have hany : (List.range 20).any (fun c => decide (blockBase c = blockBase b + 0xFC00 + 4 * k - (0xFC00 + 4 * k) ∧
      0xFC00 + 4 * k < 0xFC00 + 4 * blockCells c)) = true := by
    rw [List.any_eq_true]
    exact ⟨b, List.mem_range.mpr hb, decide_eq_true ⟨by omega, by omega⟩⟩
  unfold unitAt
  rw [rbtIndexAt_high (by omega) (by omega), hoff, if_neg (by decide), if_pos (by omega), if_pos hany]

theorem plainAt_cellErr {c : Nat} (hc : c < 1280) (hk : c % 64 < blockCells (c / 64)) :
    PlainAt (regCELL_ERR c) rowCELL_ERR := by
  have hb : c / 64 < 20 := by omega
  obtain ⟨hm, hlo, hhi⟩ := blockBase_place hb
  have := blockCells_le (c / 64)
  have place : regCELL_ERR c = blockBase (c / 64) + 0xFC00 + 4 * (c % 64) := rfl
  have hlow : regCELL_ERR c < 0x50000000 := by omega
  have hhigh : 0xFC00 ≤ regCELL_ERR c % 0x10000 := by omega
  exact {
    device := by
      unfold regionOf
      rw [if_neg (by omega), if_neg (by omega), if_pos (by omega)]
    low := hlow
    aligned := by omega
    noCell := cellAt_high hhigh hlow
    spec := by
      rw [specAt, place, unitAt_cellErr hb hk]
      decide
    wf := by decide
    plain := regWrite_high hhigh (by omega) hlow }

/-! ### The statement -/

/-- Settles O7: each register named is one that a core's write reaches field by field (PlainAt), and its fields then follow
their access types; a write that does not fit ends before it reaches a register. -/
theorem registerWritesByAccessType : Obligations.RegisterWritesByAccessType := by
  refine ⟨?target, ?stat, ?cellErr, ?misfit, ?absent, ?rateRead⟩
  case target =>
    intro s k d v ha
    have h := plainAt_paceTarget d
    obtain ⟨t, he, hok, hf, hregs, honly⟩ := h.registerWrite_ends k v ha
    exact ⟨t, he, hok, (hf _).trans (fget_plainWrite_rw h.spec h.wf (by decide)),
      (hf _).trans (fget_plainWrite_rw h.spec h.wf (by decide)), hregs, honly⟩
  case stat =>
    intro s k d v ha
    have h := plainAt_paceStat d
    obtain ⟨t, he, hok, hf, hregs, honly⟩ := h.registerWrite_ends k v ha
    exact ⟨t, he, hok, (hf _).trans (fget_plainWrite_w1c_bit h.spec h.wf (by decide)),
      (hf _).trans (fget_plainWrite_ro h.spec h.wf (by decide)),
      (hf _).trans (fget_plainWrite_ro h.spec h.wf (by decide)), hregs, honly⟩
  case cellErr =>
    intro s k c v hk ha
    have h := plainAt_cellErr c.isLt hk
    obtain ⟨t, he, hok, hf, hregs, honly⟩ := h.registerWrite_ends k v ha
    exact ⟨t, he, hok, (hf _).trans (fget_plainWrite_w1c_bit h.spec h.wf (by decide)),
      (hf _).trans (fget_plainWrite_w1c_bit h.spec h.wf (by decide)),
      (hf _).trans (fget_plainWrite_w1c_bit h.spec h.wf (by decide)),
      (hf _).trans (fget_plainWrite_ro h.spec h.wf (by decide)),
      (hf _).trans (fget_plainWrite_ro h.spec h.wf (by decide)), hregs, honly⟩
  case misfit =>
    intro s k a w v hr hw
    refine ⟨_, congrArg Host.Outcome.next (registerWrite_core_misfit hr hw), rfl, ?_⟩
    exact changesOnly_reply (changesOnly_same s _) (by decide) _ _ _
  case absent =>
    intro s k a v hr h4 hf ha
    refine ⟨_, congrArg Host.Outcome.next (registerWrite_core_absent hr h4 hf ha), rfl, ?_⟩
    exact changesOnly_reply (changesOnly_same s _) (by decide) _ _ _
  case rateRead =>
    intro s agent d ha
    refine ⟨_, congrArg Host.Outcome.next (paceRateRead_present ha), rfl, ?_, ?_, ?_, ?_⟩
    · exact fget_fput_same s (fldPACE_RATE_MIN_RATE d) 0xFFFF rfl
    · exact fget_fput_apart s (fldPACE_RATE_MIN_RATE d) _ _ rfl (apart_of_bits rfl)
    · exact regsBut_reply (regsBut_fput _ (regsBut_same s _) (List.mem_singleton.mpr rfl)) _ _ _
    · exact changesOnly_reply (changesOnly_fput (changesOnly_same s _) (by decide) _ _) (by decide) _ _ _

end Machine
end Sys2Proof
end

section
/-! SUPPORT. Permits, transfers and Roundabouts, and the statements about them (O1 to O4). -/

namespace Sys2Proof
namespace Machine

/-! ### Fields -/

/-- A field reads as a number put into it that fits its width. -/
theorem fget_fput_fits (s : State) {f : Fld} {x : Nat} (h : f.ok = true) (hx : x < 2 ^ (f.hi + 1 - f.lo)) :
    fget (fput s f x) f = x :=
  (fget_fput_same s f x h).trans (Nat.mod_eq_of_lt hx)

/-- A field that shares no bit with two others keeps its value when those are written. -/
theorem fget_fput_fput_apart (s : State) {f g h : Fld} (x y : Nat) (hf : f.ok = true) (hg : g.ok = true)
    (fh : f.apart h = true) (gh : g.apart h = true) : fget (fput (fput s f x) g y) h = fget s h :=
  (fget_fput_apart _ g h y hg gh).trans (fget_fput_apart s f h x hf fh)

/-- Where a register reads the same, so do its fields. -/
theorem fget_of_rd {s t : State} {f : Fld} (h : rd t f.addr = rd s f.addr) : fget t f = fget s f := by
  rw [fget, fget, h]

/-! ### Permits (R57) -/

/-- The number of an agent fits the fields of a permit (R54). -/
theorem agentId_lt (a : Agent) : a.id < 64 := by
  cases a with
  | core c => exact Nat.lt_trans (Nat.add_lt_add_left c.isLt 1) (by decide)
  | engine k => exact Nat.lt_trans (Nat.add_lt_add_left k.isLt 0x10) (by decide)
  | _ => exact of_decide_eq_true rfl

theorem exec_permitClaim (agent : Agent) (n : PermitId) (feature : BitVec 7) (s : State) :
    exec (.permitClaim agent n feature) s = .next (reply (permitClaim s agent.id n feature.toNat) .ok 0 []) := rfl

theorem exec_permitRelease (agent : Agent) (n : PermitId) (s : State) :
    exec (.permitRelease agent n) s = .next (reply (permitRelease s agent.id n) .ok 0 []) := rfl

/-- A claim of a free permit writes OWNER and FEATURE. -/
theorem permitClaim_free {s : State} {n : PermitId} (free : fget s (fldPERMIT_OWNER n) = 0) (agentId feature : Nat) :
    permitClaim s agentId n feature = fput (fput s (fldPERMIT_OWNER n) agentId) (fldPERMIT_FEATURE n) feature :=
  if_pos free

/-- A claim of a held permit is refused. -/
theorem permitClaim_held {s : State} {n : PermitId} (held : fget s (fldPERMIT_OWNER n) ≠ 0) (agentId feature : Nat) :
    permitClaim s agentId n feature = permitDeny s n agentId :=
  if_neg held

/-- A release by the owner writes OWNER. -/
theorem permitRelease_own {s : State} {n : PermitId} {agentId : Nat} (own : fget s (fldPERMIT_OWNER n) = agentId) :
    permitRelease s agentId n = fput s (fldPERMIT_OWNER n) 0 :=
  if_pos own

/-- A release by another agent is refused. -/
theorem permitRelease_other {s : State} {n : PermitId} {agentId : Nat} (other : fget s (fldPERMIT_OWNER n) ≠ agentId) :
    permitRelease s agentId n = permitDeny s n agentId :=
  if_neg other

/-- A claim of a free permit names the claimant and the feature, and keeps DENIED and DENY_ID. -/
theorem permitClaim_free_fields {s : State} {n : PermitId} (free : fget s (fldPERMIT_OWNER n) = 0) (agent : Agent)
    (feature : BitVec 7) :
    fget (permitClaim s agent.id n feature.toNat) (fldPERMIT_OWNER n) = agent.id ∧
      fget (permitClaim s agent.id n feature.toNat) (fldPERMIT_FEATURE n) = feature.toNat ∧
      fget (permitClaim s agent.id n feature.toNat) (fldPERMIT_DENIED n) = fget s (fldPERMIT_DENIED n) ∧
      fget (permitClaim s agent.id n feature.toNat) (fldPERMIT_DENY_ID n) = fget s (fldPERMIT_DENY_ID n) := by
  rw [permitClaim_free free]
  refine ⟨?_, ?_, ?_, ?_⟩
  · exact (fget_fput_apart _ _ _ _ rfl (apart_of_bits rfl)).trans (fget_fput_fits s rfl (agentId_lt agent))
  · exact fget_fput_fits _ rfl feature.isLt
  · exact fget_fput_fput_apart s _ _ rfl rfl (apart_of_bits rfl) (apart_of_bits rfl)
  · exact fget_fput_fput_apart s _ _ rfl rfl (apart_of_bits rfl) (apart_of_bits rfl)

/-- A release by the owner clears OWNER and keeps the other fields. -/
theorem permitRelease_own_fields {s : State} {n : PermitId} {agentId : Nat} (own : fget s (fldPERMIT_OWNER n) = agentId) :
    fget (permitRelease s agentId n) (fldPERMIT_OWNER n) = 0 ∧
      fget (permitRelease s agentId n) (fldPERMIT_FEATURE n) = fget s (fldPERMIT_FEATURE n) ∧
      fget (permitRelease s agentId n) (fldPERMIT_DENIED n) = fget s (fldPERMIT_DENIED n) ∧
      fget (permitRelease s agentId n) (fldPERMIT_DENY_ID n) = fget s (fldPERMIT_DENY_ID n) := by
  rw [permitRelease_own own]
  refine ⟨?_, ?_, ?_, ?_⟩
  · exact fget_fput_same s _ _ rfl
  · exact fget_fput_apart s _ _ _ rfl (apart_of_bits rfl)
  · exact fget_fput_apart s _ _ _ rfl (apart_of_bits rfl)
  · exact fget_fput_apart s _ _ _ rfl (apart_of_bits rfl)

/-- A refusal sets DENIED, names the refused agent and keeps OWNER and FEATURE. -/
theorem permitDeny_fields (s : State) (n : PermitId) (agent : Agent) :
    fget (permitDeny s n agent.id) (fldPERMIT_OWNER n) = fget s (fldPERMIT_OWNER n) ∧
      fget (permitDeny s n agent.id) (fldPERMIT_FEATURE n) = fget s (fldPERMIT_FEATURE n) ∧
      fget (permitDeny s n agent.id) (fldPERMIT_DENIED n) = 1 ∧
      fget (permitDeny s n agent.id) (fldPERMIT_DENY_ID n) = agent.id := by
  unfold permitDeny
  rw [fset_eq]
  refine ⟨?_, ?_, ?_, ?_⟩
  · exact fget_fput_fput_apart s _ _ rfl rfl (apart_of_bits rfl) (apart_of_bits rfl)
  · exact fget_fput_fput_apart s _ _ rfl rfl (apart_of_bits rfl) (apart_of_bits rfl)
  · exact (fget_fput_apart _ _ _ _ rfl (apart_of_bits rfl)).trans (fget_fput_same s _ _ rfl)
  · exact fget_fput_fits _ rfl (agentId_lt agent)

/-- A refusal, a claim and a release each write the register of their permit alone. -/
theorem regsBut_permitDeny (s : State) (n : PermitId) (agentId : Nat) : regsBut s (permitDeny s n agentId) [regPERMIT n] :=
  regsBut_fput _ (regsBut_fput _ (regsBut_same s _) (List.mem_singleton.mpr rfl)) (List.mem_singleton.mpr rfl)

theorem regsBut_permitClaim (s : State) (n : PermitId) (agentId feature : Nat) :
    regsBut s (permitClaim s agentId n feature) [regPERMIT n] := by
  unfold permitClaim
  split
  · exact regsBut_fput _ (regsBut_fput _ (regsBut_same s _) (List.mem_singleton.mpr rfl)) (List.mem_singleton.mpr rfl)
  · exact regsBut_permitDeny s n agentId

theorem regsBut_permitRelease (s : State) (n : PermitId) (agentId : Nat) :
    regsBut s (permitRelease s agentId n) [regPERMIT n] := by
  unfold permitRelease
  split
  · exact regsBut_fput _ (regsBut_same s _) (List.mem_singleton.mpr rfl)
  · exact regsBut_permitDeny s n agentId

/-- Settles O1: a claim of a free permit and a release by its owner write fields of its register, and a refused claim and a
refused release are one operation, permitDeny. -/
theorem permitClaimsAndReleases : Obligations.PermitClaimsAndReleases := by
  intro s agent n feature
  have claim := exec_permitClaim agent n feature s
  have release := exec_permitRelease agent n s
  have claimRegs := regsBut_reply (regsBut_permitClaim s n agent.id feature.toNat) .ok 0 []
  have releaseRegs := regsBut_reply (regsBut_permitRelease s n agent.id) .ok 0 []
  refine ⟨fun free => ?_, fun held => ?_, fun own => ?_, fun other => ?_⟩
  · obtain ⟨owner, code, denied, denyId⟩ := permitClaim_free_fields free agent feature
    exact ⟨_, claim, owner, code, denied, denyId, claimRegs, exec_changesOnly claim⟩
  · obtain ⟨owner, code, denied, denyId⟩ := permitDeny_fields s n agent
    rw [← permitClaim_held held agent.id feature.toNat] at owner code denied denyId
    exact ⟨_, claim, owner, code, denied, denyId, claimRegs, exec_changesOnly claim⟩
  · obtain ⟨owner, code, denied, denyId⟩ := permitRelease_own_fields own
    exact ⟨_, release, owner, code, denied, denyId, releaseRegs, exec_changesOnly release⟩
  · obtain ⟨owner, code, denied, denyId⟩ := permitDeny_fields s n agent
    rw [← permitRelease_other other] at owner code denied denyId
    exact ⟨_, release, owner, code, denied, denyId, releaseRegs, exec_changesOnly release⟩

/-! ### Transfers (R23, R46) -/

/-- An entry of 128 bits that leaves a head block makes room in the block's buffer toward the Data district (R46). -/
theorem fabricTransfer_toData {h : Hop} {n : Fin 8} {payload : List Byte} (hn : hopHead h = some n) (hl : payload.length = 16)
    (s : State) (src dst : Nat) : (fabricTransfer s src dst [h] payload).hb[n].toData = s.hb[n].toData - 1 := by
  simp [fabricTransfer, forEach, hopDrain, hn, hl, modHb]

/-- After reset, with one entry of head H0 on its way to the Data district. -/
def oneEntryToData : State := modHb State.reset 0 (fun b => { b with toData := 1 })

/-- Refutes O2: the frame leaves out the head blocks. From port 0 of Side A's Avenue an entry of 16 bytes leaves head H0, and the
count of its entries toward the Data district falls from 1 to 0 (R46). -/
theorem not_fabricTransferArrivesWhole : ¬ Obligations.FabricTransferArrivesWhole := by
  intro h
  obtain ⟨t, ht, -, -, frame⟩ := h oneEntryToData 0 1 [⟨3, 0, 4⟩] (List.replicate 16 0)
  obtain rfl := Host.Outcome.next.inj ht
  have kept : (fabricTransfer oneEntryToData 0 1 [⟨3, 0, 4⟩] (List.replicate 16 0)).hb = oneEntryToData.hb :=
    frame .hb (by decide)
  have drained := fabricTransfer_toData (h := ⟨3, 0, 4⟩) (n := 0) (payload := List.replicate 16 0) rfl rfl oneEntryToData 0 1
  rw [kept] at drained
  exact absurd drained (by decide)

/-! ### Writes of a Roundabout's configuration (R37) -/

/-- Once the waiting writes are stored, PENDING is 0. -/
theorem fget_rbtApply_pending (s : State) (r : RbtId) : fget (rbtApply s r) (fldRBT_STAT_PENDING r) = 0 :=
  fget_fput_same _ (fldRBT_STAT_PENDING r) 0 rfl

/-- A write to an idle Roundabout first stores the writes that its last window still held. -/
theorem rbtConfigWrite_idle_pending {s : State} {r : RbtId} (present : absentAt s.variant (rbtBase r) = false)
    (idle : rbtIdle s.rbt[r] = true) (pending : fget s (fldRBT_STAT_PENDING r) = 1) (x : Word) :
    rbtConfigWrite s r .wgt0 x =
      reply (wr (rbtApply s r) (regRBT_WGT0 r) (BitVec.ofNat 32 (rbtCfgValue s.variant r .wgt0 x.toNat))) .ok 0 [] := by
  have hb : fbit s (fldRBT_STAT_PENDING r) = true := by rw [fbit, pending]; rfl
  unfold rbtConfigWrite
  dsimp only
  have other : ¬ (RbtReg.wgt0 = .cfg ∧ (bitsOf x.toNat 25 20 < 8 ∨ 32 < bitsOf x.toNat 25 20)) := fun h => nomatch h.1
  rw [present, if_neg Bool.false_ne_true, if_neg other, if_pos idle, if_pos hb]
  rfl

/-- After reset, with a write of RBT_WGT0 held by the Street Roundabout of head H0 past the end of its window. -/
def writeHeld : State :=
  fset (modRbt State.reset 6 (rbtHold .wgt0 0x11111112)) (fldRBT_STAT_PENDING 6)

/-- Refutes O3: PENDING changes. On an idle Roundabout whose last window still held a write, the next write stores the held one
before its own, and PENDING falls from 1 to 0. -/
theorem not_roundaboutWritesWaitForTheWindow : ¬ Obligations.RoundaboutWritesWaitForTheWindow := by
  intro h
  obtain ⟨idle, -, -⟩ := h writeHeld (.core 0) 6 .wgt0 0x11111111 (by decide)
  obtain ⟨t, ht, -, kept, -, -⟩ := idle rfl rfl
  obtain rfl := Host.Outcome.next.inj ht
  have pending : fget writeHeld (fldRBT_STAT_PENDING (6 : RbtId)) = 1 := fget_fput_same _ (fldRBT_STAT_PENDING 6) 1 rfl
  have stored : fget (rbtConfigWrite writeHeld 6 .wgt0 0x11111111) (fldRBT_STAT_PENDING (6 : RbtId)) = 0 := by
    rw [rbtConfigWrite_idle_pending (by decide) rfl pending, reply_fget, fget_wr_other _ _ _ _ (by decide),
      fget_rbtApply_pending]
  rw [kept, pending] at stored
  exact absurd stored (by decide)

/-! ### Stalled transfers (R30, R539) -/

theorem inFlight_rbtDone {q : Rbt} {port target : Fin 16} (h : ∃ g ∈ q.inFlight, g.port = port ∧ g.target = target) :
    (rbtDone port target q).inFlight.length + 1 = q.inFlight.length := by
  obtain ⟨g, hg, names⟩ := h
  have taken : (rbtDone port target q).inFlight.length = q.inFlight.length - 1 :=
    List.length_eraseP_of_mem hg (decide_eq_true names)
  rw [taken, Nat.sub_add_cancel (List.length_pos_of_mem hg)]

/-- The state in which the report of a stalled transfer is raised: the transfer is done, STALL is set and the requester has a bus
error. -/
def stallEnded (s : State) (r : RbtId) (port target : Fin 16) : State :=
  reply (fput (modRbt s r (rbtDone port target)) (fldRBT_STAT_STALL r) 1) .busError 0 []

/-- A stalled transfer that is in flight ends and is reported; the report names no cell. -/
theorem rbtStall_inFlight {s : State} {r : RbtId} {port target : Fin 16}
    (h : ∃ g ∈ s.rbt[r].inFlight, g.port = port ∧ g.target = target) :
    rbtStall s r port target =
      raiseReport (stallEnded s r port target) 0x06 (rbtPlace r).1 (rbtPlace r).2.1 (rbtPlace r).2.2 0x3F 0 target.val := by
  have stalled : s.rbt[r].inFlight.any (fun g => g.port = port ∧ g.target = target) = true := by
    simpa only [List.any_eq_true, decide_eq_true_eq] using h
  exact if_pos stalled

/-- Settles O4: the report is raised on the state in which the transfer has ended, and raising it changes neither the reply nor
the Roundabout, nor, as it names no cell, a register. -/
theorem stalledTransferIsReported : Obligations.StalledTransferIsReported := by
  intro s r port target h
  have e : exec (.roundaboutStall r port target) s = .next (rbtStall s r port target) := rfl
  rw [rbtStall_inFlight h] at e
  have only := raiseReport_only (stallEnded s r port target) 0x06 (rbtPlace r).1 (rbtPlace r).2.1 (rbtPlace r).2.2 0x3F 0
    target.val
  have reported := raiseReport_has (stallEnded s r port target) 0x06 (rbtPlace r).1 (rbtPlace r).2.1 (rbtPlace r).2.2 0x3F 0
    target.val
  obtain ⟨q, hq, cls, level, district, avPort, -⟩ := reported
  refine ⟨_, e, ?status, ?stall, ?done, ⟨q, hq, cls, ?place⟩, ?frame⟩
  case status => exact congrArg Reply.status (only .lastReply (by decide))
  case stall =>
    rw [raiseReport_fget_nocell _ _ _ _ _ _ _ _ _ (by decide)]
    exact fget_fput_same _ (fldRBT_STAT_STALL r) 1 rfl
  case done =>
    have ended : (stallEnded s r port target).rbt[r] = rbtDone port target s.rbt[r] := Vector.getElem_set_self _
    rw [show _ = (stallEnded s r port target).rbt from only .rbt (by decide), ended]
    exact inFlight_rbtDone h
  case place => rw [level, district, avPort]
  case frame =>
    have frame : changesOnly [.regs, .lastReply, .rbt, .reports] s _ := exec_changesOnly e
    exact changesOnly_mono frame (by decide)

end Machine
end Sys2Proof
end

section
/-! SUPPORT. Crossings and the state after reset, and the statements about them (O6, O59). -/

namespace Sys2Proof
namespace Machine

/-! ### Crossings (R40, R43) -/

/-- After reset, with Crossing 8 ARMED, both its sides out of reset, and a POST of core P0 waiting at it. -/
def postAtCrossing8 : State :=
  modCore
    (modXing State.reset 8
      (fun q => { q with st := .armed, rstClk := false, rstSelf := false, freshClk := false, freshSelf := false }))
    0 (fun c => { c with wait := some (.post 8 0 0) })

/-- When its Crossing loses its clock a waiting POST ends (R40, R42, R360), so the core waits no more. -/
theorem clkFall_postAtCrossing8 : (clkFall postAtCrossing8 8).core[0].wait = none := by
  decide

/-- Refutes O6: for the lost clock of Crossings 8 to 15 it says that only registers and Crossings change, but a core whose POST
waits at the Crossing goes on. The statement is over every state; that POSTs wait at Crossing 42 alone is no hypothesis of it. -/
theorem not_crossingTableAndEventBits : ¬ Obligations.CrossingTableAndEventBits := by
  intro h
  obtain ⟨-, -, -, -, -, -, -, -, -, -, -, -, -, -, -, clockLost, -⟩ := h
  obtain ⟨t, ht, -, -, -, -, frame⟩ := clockLost postAtCrossing8 8 ⟨by decide, by decide⟩ rfl rfl
  obtain rfl := Host.Outcome.next.inj ht
  have kept : (clkFall postAtCrossing8 8).core = postAtCrossing8.core := frame .core (by decide)
  have ended := clkFall_postAtCrossing8
  rw [kept] at ended
  exact absurd ended (by decide)

/-! ### The state after reset -/

/-- Settles O59: memory and the flash image are empty, x0 is 0 and every Crossing is WITHDRAWN. -/
theorem resetMeetsTheInvariant : Obligations.ResetMeetsTheInvariant :=
  ⟨⟨⟨rfl, rfl⟩, reset_core_zero, fun x _ => reset_xing_st x⟩, rfl⟩

end Machine
end Sys2Proof
end

section
/-! SUPPORT. Pace windows and the statement about them (O8). -/

namespace Sys2Proof
namespace Machine

/-! ### Pace windows (R48 to R51) -/

/-- A list without repeats, gone through once: what every turn but one keeps, and that turn brings about, holds in the end. -/
theorem forEach_reaches {α : Type} {f : State → α → State} {P Q : State → Prop} {d : α}
    (before : ∀ u e, e ≠ d → P u → P (f u e)) (turn : ∀ u, P u → Q (f u d)) (after : ∀ u e, e ≠ d → Q u → Q (f u e))
    {l : List α} (hl : l.Nodup) (hd : d ∈ l) {s : State} (hs : P s) : Q (forEach l s f) := by
  obtain ⟨l₁, l₂, rfl⟩ := List.append_of_mem hd
  have once : d ∉ l₁ ++ l₂ := (List.nodup_cons.mp (List.perm_middle.nodup_iff.mp hl)).1
  have hrest : ∀ e ∈ l₁ ++ l₂, e ≠ d := fun e he => ne_of_mem_of_not_mem he once
  have hP : P (l₁.foldl f s) :=
    List.foldlRecOn l₁ f hs (fun u hu e he => before u e (hrest e (List.mem_append_left _ he)) hu)
  rw [forEach, List.foldl_append, List.foldl_cons]
  exact List.foldlRecOn l₂ f (turn _ hP) (fun u hu e he => after u e (hrest e (List.mem_append_right _ he)) hu)

theorem sif_fset_fget_apart (b : Bool) (s : State) {f g : Fld} (hf : f.ok = true) (ha : f.apart g = true) :
    fget (sif b s (fun t => fset t f)) g = fget s g := by
  cases b with
  | false => rfl
  | true => exact fget_fput_apart s f g 1 hf ha

theorem sif_fset_pace (b : Bool) (s : State) (f : Fld) : (sif b s (fun t => fset t f)).pace = s.pace := by
  cases b <;> rfl

/-- The registers that the end of a window writes in a district. -/
def paceShown (d : District) : List Nat := [regPACE_RATE d, regPACE_STAT d]

theorem paceShown_apart {d e : District} (h : e ≠ d) : regPACE_RATE d ∉ paceShown e ∧ regPACE_STAT d ∉ paceShown e := by
  revert d e
  decide

theorem regPACE_TARGET_not_shown (d e : District) : regPACE_TARGET d ∉ paceShown e := by
  revert d e
  decide

theorem supply_not_shown (e : District) : regSUP_CTL ∉ paceShown e ∧ regSUP_VCORE ∉ paceShown e := by
  revert e
  decide

theorem regsBut_paceClose (s : State) (d : District) (rate : Nat) : regsBut s (paceClose s d rate) (paceShown d) := by
  have hrate : regPACE_RATE d ∈ paceShown d := List.mem_cons_self
  have hstat : regPACE_STAT d ∈ paceShown d := List.mem_cons_of_mem _ List.mem_cons_self
  have hset : ∀ t f, f.addr = regPACE_STAT d → regsBut s t (paceShown d) → regsBut s (fset t f) (paceShown d) :=
    fun t f hf ht => regsBut_fput 1 ht (hf ▸ hstat)
  unfold paceClose
  dsimp only
  split
  · exact regsBut_fput _ (regsBut_same s _) hstat
  · exact sif_keeps (regsBut s · _) (sif_keeps (regsBut s · _)
      (regsBut_fput _ (regsBut_fput _ (regsBut_fput _ (regsBut_fput _ (regsBut_same s _) hstat) hrate) hrate) hstat)
      _ _ (hset _ _ rfl)) _ _ (hset _ _ rfl)

/-- A district's monitor is not touched by another's window. -/
theorem paceClose_pace_other (s : State) {d e : District} (h : e ≠ d) (rate : Nat) : (paceClose s e rate).pace[d] = s.pace[d] := by
  have hne : e.val ≠ d.val := fun k => h (Fin.ext k)
  unfold paceClose
  dsimp only
  split
  · exact Vector.getElem_set_ne e.isLt d.isLt hne
  · refine (Vector.getElem_set_ne e.isLt d.isLt hne).trans (congrArg (fun v : Vector Pace 5 => v[d]) ?_)
    rw [sif_fset_pace, sif_fset_pace]
    rfl

/-- The registers of a district as a counted window leaves them, but for the sticky bits. -/
def paceShows (s : State) (d : District) (rate : Nat) : State :=
  fput
    (fput (fput (fput s (fldPACE_STAT_EFF_TARGET d) (effTarget s d)) (fldPACE_RATE_RATE d) rate)
      (fldPACE_RATE_MIN_RATE d) (Nat.min rate (fget s (fldPACE_RATE_MIN_RATE d))))
    (fldPACE_STAT_SHORT d) (if decide (rate < effTarget s d) then 1 else 0)

/-- A counted window shows the rate, the least rate and SHORT, and sets SHORT_SEEN when the district is short and COLLAPSE
after 50 such windows. -/
theorem paceClose_counted {s : State} {d : District} (counting : s.pace[d].counting = true) (rate : Nat) :
    ∃ collapsed, ∀ f, fget (paceClose s d rate) f =
      fget (sif collapsed
        (sif (decide (rate < effTarget s d)) (paceShows s d rate) (fun t => fset t (fldPACE_STAT_SHORT_SEEN d)))
        (fun t => fset t (fldPACE_STAT_COLLAPSE d))) f := by
  unfold paceClose
  dsimp only
  rw [counting, Bool.not_true, if_neg Bool.false_ne_true]
  exact ⟨_, fun _ => rfl⟩

/-- What a district shows after a window at a rate, judged by what it showed before (R48 to R51). -/
structure PaceJudged (s : State) (d : District) (r : Nat) (t : State) : Prop where
  rate : fget t (fldPACE_RATE_RATE d) = r
  minRate : fget t (fldPACE_RATE_MIN_RATE d) = Nat.min r (fget s (fldPACE_RATE_MIN_RATE d))
  short : fget t (fldPACE_STAT_SHORT d) = 1 ↔ r < effTarget s d
  seen : r < effTarget s d → fget t (fldPACE_STAT_SHORT_SEEN d) = 1

theorem paceClose_judges {s : State} {d : District} (counting : s.pace[d].counting = true) {r : Nat} (hr : r < 2 ^ 16) :
    PaceJudged s d r (paceClose s d r) := by
  obtain ⟨collapsed, hc⟩ := paceClose_counted counting r
  have shown : ∀ {f : Fld}, (fldPACE_STAT_COLLAPSE d).apart f = true → (fldPACE_STAT_SHORT_SEEN d).apart f = true →
      fget (paceClose s d r) f = fget (paceShows s d r) f := fun h1 h2 =>
    (hc _).trans ((sif_fset_fget_apart _ _ rfl h1).trans (sif_fset_fget_apart _ _ rfl h2))
  have apart : regPACE_STAT d ≠ regPACE_RATE d := by simp [regPACE_STAT, regPACE_RATE]
  constructor
  case rate =>
    calc fget (paceClose s d r) (fldPACE_RATE_RATE d)
        = fget (paceShows s d r) (fldPACE_RATE_RATE d) := shown (apart_of_addr apart) (apart_of_addr apart)
      _ = _ := fget_fput_fput_apart _ _ _ rfl rfl (apart_of_bits rfl) (apart_of_addr apart)
      _ = r := fget_fput_fits _ rfl hr
  case minRate =>
    calc fget (paceClose s d r) (fldPACE_RATE_MIN_RATE d)
        = fget (paceShows s d r) (fldPACE_RATE_MIN_RATE d) := shown (apart_of_addr apart) (apart_of_addr apart)
      _ = _ := fget_fput_apart _ _ _ _ rfl (apart_of_addr apart)
      _ = _ := fget_fput_fits _ rfl (Nat.lt_of_le_of_lt (Nat.min_le_left _ _) hr)
  case short =>
    rw [shown (apart_of_bits rfl) (apart_of_bits rfl), paceShows, fget_fput_same _ _ _ rfl]
    by_cases h : r < effTarget s d <;> simp [h, fldPACE_STAT_SHORT]
  case seen =>
    intro h
    rw [hc, sif_fset_fget_apart _ _ rfl (apart_of_bits rfl), decide_eq_true h]
    exact fget_fput_same _ (fldPACE_STAT_SHORT_SEEN d) 1 rfl

/-- Two states that agree in all that the end of a window reads of a district. -/
structure PaceAlike (s : State) (d : District) (t : State) : Prop where
  rate : rd t (regPACE_RATE d) = rd s (regPACE_RATE d)
  target : rd t (regPACE_TARGET d) = rd s (regPACE_TARGET d)
  pace : t.pace[d] = s.pace[d]
  spn : t.spn = s.spn

theorem PaceAlike.effTarget_eq {s t : State} {d : District} (h : PaceAlike s d t) : effTarget t d = effTarget s d := by
  rw [effTarget, effTarget, fget_of_rd (f := fldPACE_TARGET_FIXED d) h.target, fget_of_rd (f := fldPACE_TARGET_VAR d) h.target,
    h.spn]

/-- A district is judged alike from two states that agree in what its window reads. -/
theorem PaceAlike.judged {s t u : State} {d : District} {r : Nat} (h : PaceAlike s d t) (j : PaceJudged t d r u) :
    PaceJudged s d r u where
  rate := j.rate
  minRate := by rw [j.minRate, fget_of_rd (f := fldPACE_RATE_MIN_RATE d) h.rate]
  short := by rw [j.short, h.effTarget_eq]
  seen := by rw [← h.effTarget_eq]; exact j.seen

/-- A district stays judged where its registers are kept. -/
theorem PaceJudged.of_rd {s t u : State} {d : District} {r : Nat} (j : PaceJudged s d r t)
    (rate : rd u (regPACE_RATE d) = rd t (regPACE_RATE d)) (stat : rd u (regPACE_STAT d) = rd t (regPACE_STAT d)) :
    PaceJudged s d r u where
  rate := (fget_of_rd rate).trans j.rate
  minRate := (fget_of_rd rate).trans j.minRate
  short := by rw [fget_of_rd (f := fldPACE_STAT_SHORT d) stat]; exact j.short
  seen h := (fget_of_rd stat).trans (j.seen h)

/-- Another district's window keeps all that a district's window reads. -/
theorem PaceAlike.paceClose_other {s t : State} {d e : District} (h : PaceAlike s d t) (hne : e ≠ d) (r : Nat) :
    PaceAlike s d (paceClose t e r) where
  rate := (regsBut_paceClose t e r _ (paceShown_apart hne).1).trans h.rate
  target := (regsBut_paceClose t e r _ (regPACE_TARGET_not_shown d e)).trans h.target
  pace := (paceClose_pace_other t hne r).trans h.pace
  spn := ((paceClose_kept (Kept.same 0x408 t) rfl e r).only .spn rfl).trans h.spn

/-- The end of a window in every district that takes part. -/
def paceCloseAll (s : State) (rates : Vector (BitVec 16) 5) : State :=
  forEach (paceDistricts s) s (fun t d => paceClose t d rates[d].toNat)

theorem paceCloseAll_judges {s : State} {d : District} (present : districtPresent s.variant d = true)
    (counting : s.pace[d].counting = true) (rates : Vector (BitVec 16) 5) :
    PaceJudged s d rates[d].toNat (paceCloseAll s rates) := by
  have hd : d ∈ paceDistricts s := List.mem_filter.mpr ⟨List.mem_finRange d, present⟩
  refine forEach_reaches (P := PaceAlike s d) ?before ?turn ?after (List.Pairwise.filter _ (List.nodup_finRange 5)) hd ⟨rfl, rfl, rfl, rfl⟩
  case before => exact fun t e hne h => h.paceClose_other hne _
  case turn =>
    intro t h
    refine h.judged (paceClose_judges ?_ rates[d].isLt)
    rw [h.pace]
    exact counting
  case after =>
    exact fun t e hne j => j.of_rd (regsBut_paceClose t e _ _ (paceShown_apart hne).1)
      (regsBut_paceClose t e _ _ (paceShown_apart hne).2)

/-- The windows' end leaves every register that no district shows. -/
theorem rd_paceCloseAll {a : Nat} (ha : ∀ d, a ∉ paceShown d) (s : State) (rates : Vector (BitVec 16) 5) :
    rd (paceCloseAll s rates) a = rd s a :=
  forEach_keeps (fun t => rd t a = rd s a) rfl _ _ (fun t d h => (regsBut_paceClose t d _ a (ha d)).trans h)

theorem paceCloseAll_only (s : State) (rates : Vector (BitVec 16) 5) : changesOnly [.regs, .pace] s (paceCloseAll s rates) :=
  (forEach_kept (Kept.same 0x408 s) _ _ (fun _ _ h => paceClose_kept h rfl _ _)).changesOnly_of_mask rfl

/-- With GOV_EN 0 the governor does nothing (R484). -/
theorem govern_off {s : State} (off : fget s fldSUP_CTL_GOV_EN = 0) (ds : List (Fin 5)) : govern s ds = s := by
  rw [govern, fbit, off]
  rfl

/-- The end of a window that a district's monitor counted, out of reset and with GOV_EN 0: each district's window closes, and
the supply shows what it measured. -/
theorem paceWindowClose_ungoverned {s : State} {d : District} (awake : inReset s = false)
    (present : districtPresent s.variant d = true) (counting : s.pace[d].counting = true)
    (off : fget s fldSUP_CTL_GOV_EN = 0) (rates : Vector (BitVec 16) 5) (vcore : BitVec 16) :
    exec (.paceWindowClose rates vcore) s = .next (fput (paceCloseAll s rates) fldSUP_VCORE_MEAS vcore.toNat) := by
  have counted : d ∈ (paceDistricts s).filter (fun d => s.pace[d].counting) :=
    List.mem_filter.mpr ⟨List.mem_filter.mpr ⟨List.mem_finRange d, present⟩, counting⟩
  have nonempty : ¬ ((paceDistricts s).filter (fun d => s.pace[d].counting)).isEmpty = true :=
    fun h => List.not_mem_nil (List.isEmpty_iff.mp h ▸ counted)
  have off' : fget (fput (paceCloseAll s rates) fldSUP_VCORE_MEAS vcore.toNat) fldSUP_CTL_GOV_EN = 0 := by
    rw [fget_fput_apart _ _ _ _ rfl rfl, fget_of_rd (rd_paceCloseAll (fun e => (supply_not_shown e).1) s rates), off]
  show execPaceWindowClose rates vcore s = _
  unfold execPaceWindowClose
  rw [awake, if_neg Bool.false_ne_true]
  dsimp only
  rw [if_neg nonempty]
  exact congrArg Host.Outcome.next (govern_off off' _)

/-- Settles O8: the districts' windows close one after the other, each touching its own registers only, and what follows them
writes VCORE.MEAS alone. -/
theorem paceWindowJudgesEachDistrict : Obligations.PaceWindowJudgesEachDistrict := by
  intro s rates vcore d awake present counting off
  have volts := rd_paceCloseAll (fun e => (supply_not_shown e).2) s rates
  have rate : regPACE_RATE d ≠ regSUP_VCORE := fun h => (supply_not_shown d).2 (List.mem_cons.mpr (.inl h.symm))
  have stat : regPACE_STAT d ≠ regSUP_VCORE :=
    fun h => (supply_not_shown d).2 (List.mem_cons_of_mem _ (List.mem_singleton.mpr h.symm))
  have judged : PaceJudged s d rates[d].toNat (fput (paceCloseAll s rates) fldSUP_VCORE_MEAS vcore.toNat) :=
    (paceCloseAll_judges present counting rates).of_rd (rd_fput_other _ _ rate) (rd_fput_other _ _ stat)
  refine ⟨_, paceWindowClose_ungoverned awake present counting off rates vcore, judged.rate, judged.minRate, judged.short,
    judged.seen, ?vset, ?frame⟩
  case vset => exact (fget_fput_apart _ _ _ _ rfl (apart_of_bits rfl)).trans (fget_of_rd volts)
  case frame => exact changesOnly_fput (paceCloseAll_only s rates) (by decide) _ _

end Machine
end Sys2Proof
end

section
/-! SUPPORT. Read channels, and the statements about their front end and their sync detector (O9, O10). -/

namespace Sys2Proof
namespace Machine

/-! ### A wedge that ends an open packet (R96, R112, R215) -/

/-- After reset, channel B1 of head H0 with its front end and its wedge search on and a packet open. The status of wedge 0 is
still due, and for the packet's end a value waits that is RC_STAT's own. (A sweep boundary and a calibration record, which set
values aside for a packet's end, do so for configuration registers alone.) -/
def openPacketStatWaiting : State :=
  modHb
    (modCh (fset (fset State.reset (fldRC_CTL_ENABLE 1)) (fldRC_CTL_WEDGE_EN 1)) 1
      (fun q => { q with sync := .stream1, due := [(regRC_STAT 1, 0)] }))
    0 (fun h => { h with wedgeDue := some 0 })

/-- A wedge that gives no samples. -/
def noSamples : WedgeObs := ⟨0, [], 0⟩

theorem samSearch_noSamples : (samSearch openPacketStatWaiting.ch[(1 : Chan)] noSamples).1 = .missed := by
  decide

/-- With the search on, a wedge has its whole effect. -/
theorem exec_wedgePass_on {s : State} {c : Chan} (on : wedgeOn s c = true) (w : WedgeObs) :
    exec (.wedgePass c w) s = .next (wedgeEffect s c w) :=
  congrArg Host.Outcome.next (if_pos on)

/-- The wedge's passing sets WEDGE_MISS. Its record then reaches the head's engine, and the status still due is sent with both
bits 0 (R215). That cuts the packet short, the value that waited for its end comes into force, and WEDGE_MISS is 0 again. -/
theorem wedgeMiss_set_then_overwritten :
    fget (wedgePass openPacketStatWaiting 1 noSamples) (fldRC_STAT_WEDGE_MISS (1 : Chan)) = 1 ∧
      fget (wedgeEffect openPacketStatWaiting 1 noSamples) (fldRC_STAT_WEDGE_MISS (1 : Chan)) = 0 := by
  constructor
  · decide
  · decide

/-- Refutes O9: a missed SAM need not leave WEDGE_MISS set. The same wedge can end the channel's open packet, and the clause does
not ask that no value waits for that end. The statement is over every state; that no value for a status register waits is no
hypothesis of it. -/
theorem not_readChannelFrontEnd : ¬ Obligations.ReadChannelFrontEnd := by
  intro h
  obtain ⟨-, -, -, -, -, -, -, -, missed, -⟩ := h
  obtain ⟨t, ht, -, -, shown, -⟩ := missed openPacketStatWaiting 1 noSamples (by decide) (by decide) samSearch_noSamples
  obtain rfl := Host.Outcome.next.inj ((exec_wedgePass_on (by decide) noSamples).symm.trans ht)
  obtain ⟨-, overwritten⟩ := wedgeMiss_set_then_overwritten
  rw [overwritten] at shown
  exact absurd shown (by decide)

/-! ### The descriptor that a packet shows (R121, R125, R132) -/

/-- After reset, channel B0 of head H0 with a read-back packet, of outcome 0, whose last value has come; its primary mark was
found at the distance 16. (The detector itself records a distance of at most 15.) -/
def packetAtDistance16 : State :=
  modCh State.reset 0 (fun q => { q with sync := .stream2, verify := true, primary := .direct, primDist := 16 })

/-- LAST_SYNC takes the distance uncut at bit 24, and 16 there is 1 in SYNC_OUT at bit 28. -/
theorem syncOut_packetAtDistance16 :
    fget (packetComplete packetAtDistance16 0) (fldLAST_SYNC_SYNC_OUT (0 : Chan)) = 1 := by
  decide

/-- Refutes O10: a packet of outcome 0 can show SYNC_OUT 1, for the distance of its primary mark carries into it. The statement is
over every state; that the distance fits its 4 bits is no hypothesis of it. -/
theorem not_syncDetectorFindsTheSector : ¬ Obligations.SyncDetectorFindsTheSector := by
  intro h
  obtain ⟨-, -, -, -, -, -, -, -, -, -, -, complete⟩ := h
  obtain ⟨t, ht, -, -, -, shown, -⟩ := complete packetAtDistance16 0 rfl rfl rfl rfl rfl rfl
  obtain rfl := Host.Outcome.next.inj ht
  have outcome : packetAtDistance16.ch[(0 : Chan)].outCode = 0 := rfl
  rw [syncOut_packetAtDistance16, outcome] at shown
  exact absurd shown (by decide)

end Machine
end Sys2Proof
end

section
/-! SUPPORT. What an access to memory and the writing of a record leave of the registers and the event counters. The frames of
Laws/Keeps.lean name the parts of the state whole; this one looks inside two of them. -/

namespace Sys2Proof
namespace Machine

/-! ### Quiet changes -/

/-- The registers in which an access to memory or the writing of a record shows: the cells' error registers, the status of the
SRAM macros, the DRAM controller and the Arcade, and the status that the FIFOs set. -/
inductive SideReg : Nat → Prop where
  | cellErr (c : Nat) : SideReg (regCELL_ERR c)
  | sramStat (m : Nat) : SideReg (regMEMR_STAT m)
  | dramStat : SideReg regDRAM_STAT
  | dramCeLo : SideReg regDRAM_CE_ADDR_LO
  | dramCeHi : SideReg regDRAM_CE_ADDR_HI
  | dramUeLo : SideReg regDRAM_UE_ADDR_LO
  | dramUeHi : SideReg regDRAM_UE_ADDR_HI
  | arcStat : SideReg regARC_STAT
  | arcMiss : SideReg regARC_MISS
  | fifoStat (f : Fin 14) : SideReg (regFIFO_STAT f)
  | swpStat : SideReg regSWP_STAT
  | sqStat : SideReg regSQ_STAT

/-- From one state to another only such registers change, and of the event counters only those of the memory system, which
start at 409 (R550). -/
structure Quiet (og s : State) : Prop where
  regs : ∀ a, ¬ SideReg a → rd s a = rd og a
  counters : ∀ k < 409, counter s k = counter og k

theorem Quiet.refl (s : State) : Quiet s s := ⟨fun _ _ => rfl, fun _ _ => rfl⟩

section
variable {og s t : State}

theorem Quiet.same (h : Quiet og s) (hr : ∀ a, rd t a = rd s a := by exact fun _ => rfl)
    (hc : ∀ k, counter t k = counter s k := by exact fun _ => rfl) : Quiet og t :=
  ⟨fun a ha => (hr a).trans (h.regs a ha), fun k hk => (hc k).trans (h.counters k hk)⟩

/-- What leaves the registers and the counters whole is quiet. -/
theorem Quiet.kept {m : Nat} (h : Quiet og s) (k : Kept m s t) (hr : m.testBit 3 = false) (hc : m.testBit 12 = false) :
    Quiet og t := by
  have regs : t.regs = s.regs := k.only .regs hr
  have counters : t.counters = s.counters := k.only .counters hc
  exact h.same (fun a => by rw [rd, rd, regs, k.variant, k.keyFused]) (fun j => by rw [counter, counter, counters])

theorem Quiet.of_eq {β : Type} {p : State × β} {b : β} (h : Quiet og p.1) (e : p = (t, b)) : Quiet og t := by
  rw [e] at h
  exact h

theorem Quiet.fget {f : Fld} (h : Quiet og s) (hf : ¬ SideReg f.addr) : fget s f = fget og f :=
  fget_of_rd (h.regs _ hf)

/-- What each turn keeps of the first of a pair, the whole keeps. -/
theorem foldl_fst_keeps {α β : Type} (P : State → Prop) {p : State × β} (h : P p.1) (xs : List α)
    (f : State × β → α → State × β) (hf : ∀ q x, P q.1 → P (f q x).1) : P (xs.foldl f p).1 :=
  List.foldlRecOn xs f (motive := fun q => P q.1) h (fun q hq x _ => hf q x hq)

theorem wr_quiet (h : Quiet og s) {a : Nat} (ha : SideReg a) (v : Word) : Quiet og (wr s a v) :=
  ⟨fun b hb => (rd_wr_other s v (fun e : b = a => hb (e ▸ ha))).trans (h.regs b hb), h.counters⟩

theorem fput_quiet (h : Quiet og s) {f : Fld} (hf : SideReg f.addr) (x : Nat) : Quiet og (fput s f x) := wr_quiet h hf _

theorem count_quiet (h : Quiet og s) {k : Nat} (hk : 409 ≤ k) : Quiet og (count s k) :=
  ⟨h.regs, fun j hj => (counter_count_other s (Nat.ne_of_lt (Nat.lt_of_lt_of_le hj hk))).trans (h.counters j hj)⟩

/-! ### Reports and the DRAM controller (R393 to R408, R421) -/

theorem raiseReport_quiet (h : Quiet og s) (cls lv d p c act det : Nat) : Quiet og (raiseReport s cls lv d p c act det) := by
  have k : Quiet og (cellNote s cls d p c) := by
    unfold cellNote
    split
    · exact fput_quiet h (.cellErr _) _
    · exact h
  unfold raiseReport
  dsimp only
  split <;> exact k.same

theorem sramNote_quiet (h : Quiet og s) (at_ : Config.SramPlace) (ue : Bool) : Quiet og (sramNote s at_ ue) := by
  have flagged (m : Nat) :
      Quiet og (count (fset s (if ue then fldMEMR_STAT_UE m else fldMEMR_STAT_CE m)) (if ue then 430 else 429)) := by
    cases ue <;> exact count_quiet (fput_quiet h (.sramStat m) 1) (by decide)
  unfold sramNote sramFlag sramReport
  dsimp only
  split
  · refine fput_quiet (raiseReport_quiet (flagged _) _ _ _ _ _ _ _) ?_ 1
    cases ue <;> exact .cellErr _
  · exact raiseReport_quiet (flagged _) _ _ _ _ _ _ _

theorem dramSaw_quiet (h : Quiet og s) (a : Nat) (check : Bool) (o : EccOutcome) : Quiet og (dramSaw s a check o) := by
  cases o with
  | good => exact h
  | ce => exact count_quiet (wr_quiet (wr_quiet (fput_quiet h .dramStat 1) .dramCeLo _) .dramCeHi _) (by decide)
  | ue =>
    exact raiseReport_quiet (count_quiet (wr_quiet (wr_quiet (fput_quiet h .dramStat 1) .dramUeLo _) .dramUeHi _) (by decide))
      _ _ _ _ _ _ _

theorem checkLoad_quiet (h : Quiet og s) (a : Nat) : Quiet og (checkLoad s a) := by
  unfold checkLoad
  split
  · exact h
  · have back := h.kept (checkBack_kept (Kept.same 0x600000 s) rfl (dramPlace s a).ch (dramPlace s a).bank) rfl rfl
    exact (dramSaw_quiet back _ _ _).kept (checkFill_kept (Kept.same 0x400000 _) rfl _) rfl rfl

theorem dramRead_quiet (h : Quiet og s) (a : Nat) : Quiet og (dramRead s a).1 := by
  unfold dramRead
  dsimp only
  exact dramSaw_quiet (checkLoad_quiet h _) _ _ _

theorem dramStoreWord_quiet (h : Quiet og s) (w : Nat) (bs : List Byte) (p : Bool) : Quiet og (dramStoreWord s w bs p) :=
  Quiet.same ((checkLoad_quiet h w).kept (checkStore_kept (Kept.same 0x400000 _) rfl w) rfl rfl)

theorem dramWrite_quiet (h : Quiet og s) (a : Nat) (new : List Byte) : Quiet og (dramWrite s a new) := by
  have k := checkLoad_quiet (count_quiet (k := 424) h (by decide)) (eccWord a)
  unfold dramWrite
  dsimp only
  split
  · exact dramStoreWord_quiet h _ _ _
  · split
    · exact dramStoreWord_quiet k _ _ _
    · exact fput_quiet (dramStoreWord_quiet k _ _ _) .dramStat 1
    · exact fput_quiet (dramStoreWord_quiet (dramSaw_quiet k _ _ _) _ _ _) .dramStat 1

/-! ### The Arcade (R372 to R381) -/

theorem arcNote_quiet (h : Quiet og s) (bank set way : Nat) (l : ArcLine) (ue : Bool) : Quiet og (arcNote s bank set way l ue) := by
  have k := sramNote_quiet h (.arcade (arcKey bank set way) (lineBad l.err)) ue
  cases ue with
  | false => exact k
  | true => exact fput_quiet k .arcStat 1

theorem arcWriteBack_quiet (h : Quiet og s) (bank set way : Nat) (l : ArcLine) : Quiet og (arcWriteBack s bank set way l) := by
  unfold arcWriteBack
  split
  · split
    · exact count_quiet (dramStoreWord_quiet h _ _ _) (by decide)
    · exact count_quiet (dramStoreWord_quiet (arcNote_quiet h _ _ _ _ _) _ _ _) (by decide)
    · exact count_quiet (dramStoreWord_quiet (arcNote_quiet h _ _ _ _ _) _ _ _) (by decide)
  · exact h

theorem arcSound_quiet (h : Quiet og s) (a w : Nat) (l : ArcLine) : Quiet og (arcSound s a w l).1 := by
  unfold arcSound
  split
  · exact h
  · exact arcNote_quiet h (arcBank a) (arcSet a) w l false
  · split
    · exact (arcWriteBack_quiet h (arcBank a) (arcSet a) w l).same
    · exact (arcNote_quiet h (arcBank a) (arcSet a) w l true).same

theorem arcInstall_quiet (h : Quiet og s) (a way : Nat) (l : ArcLine) : Quiet og (arcInstall s a way l) := by
  unfold arcInstall
  dsimp only
  split
  · rename_i v _
    exact (arcWriteBack_quiet h (arcBank a) (arcSet a) way v).same
  · exact h.same

theorem setMiss_quiet (h : Quiet og s) (b : Nat) (m : List MissReg) : Quiet og (setMiss s b m) :=
  fput_quiet (fput_quiet (fput_quiet (fput_quiet h.same .arcMiss _) .arcMiss _) .arcMiss _) .arcMiss _

theorem arcWait_quiet (h : Quiet og s) (r : ArcReq) : Quiet og (arcWait s r) :=
  fput_quiet (f := fldARC_STAT_MISS_FULL) h.same .arcStat 1

theorem arcLand_quiet (h : Quiet og s) (bank i : Nat) : Quiet og (arcLand s bank i) := by
  unfold arcLand
  split
  · exact h
  · split
    next s1 _ _ read =>
      have k : Quiet og s1 := (dramRead_quiet (setMiss_quiet h _ _) _).of_eq read
      dsimp only
      split
      · exact arcInstall_quiet k.same _ _ _
      · refine forEach_keeps (Quiet og) k.same _ _ (fun u r hu => ?_)
        split
        · exact dramWrite_quiet hu _ _
        · exact hu

theorem arcMerge_quiet (h : Quiet og s) (r : ArcReq) (i : Nat) : Quiet og (arcMerge s r i) := by
  unfold arcMerge
  split
  · exact setMiss_quiet (count_quiet h (by decide)) _ _
  · exact h

theorem arcTakeReg_quiet (h : Quiet og s) (r : ArcReq) : Quiet og (arcTakeReg s r) := by
  refine setMiss_quiet ?_ _ _
  unfold countIf
  split
  · exact count_quiet h (by omega)
  · exact h

theorem arcServeHit_quiet (h : Quiet og s) (r : ArcReq) (w : Nat) (l : ArcLine) : Quiet og (arcServeHit s r w l) := by
  have k : Quiet og (count s (409 + 2 * arcBank r.addr)) := count_quiet h (by omega)
  unfold arcServeHit
  dsimp only
  split <;> exact k.same

theorem arcAccept_quiet (h : Quiet og s) (r : ArcReq) : Quiet og (arcAccept s r) :=
  h.kept (arcAccept_kept (Kept.same 0x800000000000c0000 s) rfl r) rfl rfl

theorem arcPrimary_quiet (h : Quiet og s) (r : ArcReq) : Quiet og (arcPrimary s r) := by
  unfold arcPrimary
  split
  · exact arcTakeReg_quiet (arcAccept_quiet h r) r
  · exact arcWait_quiet h r

theorem arcHit_quiet (h : Quiet og s) (r : ArcReq) (w : Nat) (l : ArcLine) : Quiet og (arcHit s r w l) := by
  have sound := arcSound_quiet h r.addr w l
  unfold arcHit
  split
  next t l' e =>
    exact (arcServeHit_quiet (arcAccept_quiet (sound.of_eq e) r) r w l').kept (arcAnswer_kept (Kept.same 0x80 _) rfl _ _ _) rfl rfl
  next t e => exact arcPrimary_quiet (sound.of_eq e) r
  next t raw e =>
    split
    · exact (dramWrite_quiet (arcAccept_quiet (sound.of_eq e) r) r.addr _).same
    · exact (sound.of_eq e).same

theorem arcRequest_quiet (h : Quiet og s) (r : ArcReq) : Quiet og (arcRequest s r) := by
  unfold arcRequest
  split
  · exact h.same
  · split
    · split
      · split
        · exact arcMerge_quiet (arcAccept_quiet h r) r _
        · exact arcWait_quiet h r
      · exact h
    · split
      · exact arcHit_quiet h r _ _
      · exact arcPrimary_quiet h r

theorem arcRetry_quiet (h : Quiet og s) (b : Nat) : Quiet og (arcRetry s b) :=
  forEach_keeps (Quiet og) (t := setArcWaiting s b []) h.same _ _ (fun _ r hu => arcRequest_quiet hu r)

theorem arcLandRetry_quiet (h : Quiet og s) (b i : Nat) : Quiet og (arcLandRetry s b i) := arcRetry_quiet (arcLand_quiet h b i) b

theorem arcRoom_quiet (h : Quiet og s) (fuel b : Nat) : Quiet og (arcRoom fuel s b) := by
  induction fuel generalizing s with
  | zero => exact h
  | succ fuel ih =>
    unfold arcRoom
    split
    · exact h
    · exact ih (arcLandRetry_quiet (fput_quiet h .arcStat 1) _ _)

theorem arcJoin_quiet (h : Quiet og s) (a : Nat) : Quiet og (arcJoin s a) := by
  unfold arcJoin
  split
  · split
    · split
      · exact h
      · exact arcLandRetry_quiet (fput_quiet h .arcStat 1) _ _
    · exact h
  · exact h

theorem arcFinish_quiet (h : Quiet og s) (a : Nat) : Quiet og (arcFinish s a).1 := by
  unfold arcFinish
  split
  · dsimp only
    split <;> exact arcRetry_quiet (arcLand_quiet h _ _) _
  · exact h

theorem arcMiss_quiet (h : Quiet og s) (r : ArcReq) : Quiet og (arcMiss s r).1 :=
  arcFinish_quiet (arcTakeReg_quiet (arcRoom_quiet h _ _) r) r.addr

theorem arcDo_quiet (h : Quiet og s) (r : ArcReq) : Quiet og (arcDo s r).1 := by
  have k := arcJoin_quiet h r.addr
  unfold arcDo
  dsimp only
  split
  · exact arcFinish_quiet (arcMerge_quiet k r _) r.addr
  · split
    · exact arcMiss_quiet k r
    next w l _ =>
      have sound := arcSound_quiet k r.addr w l
      split
      next e => exact arcServeHit_quiet (sound.of_eq e) r w _
      next e => exact arcMiss_quiet (sound.of_eq e) r
      next e =>
        split
        · exact dramWrite_quiet (sound.of_eq e) _ _
        · exact sound.of_eq e

/-! ### Normal memory and the FIFOs (R338 to R341, R348, R536, R596) -/

theorem memRead_quiet (h : Quiet og s) (cls a n : Nat) : Quiet og (memRead s cls a n).1 := by
  unfold memRead
  split
  · exact h
  · split
    · exact h
    · exact forEach_keeps (Quiet og)
        (forEach_keeps (Quiet og) h _ _ (fun _ w hu => sramNote_quiet hu (.tcm w) false)) _ _
        (fun _ w hu => sramNote_quiet hu (.tcm w) true)
    · exact foldl_fst_keeps (Quiet og) (p := (s, [], false)) h _ _ (fun _ _ hq => arcDo_quiet hq _)

theorem memWrite_quiet (h : Quiet og s) {cls a : Nat} {new : List Byte} (e : memWrite s cls a new = some t) : Quiet og t := by
  have dropped := h.kept (resvDrop_kept (Kept.same 0x80000000000000000 s) rfl a new.length) rfl rfl
  unfold memWrite at e
  split at e
  · exact Option.some.inj e ▸ h
  · split at e
    · cases e
    · split at e
      · exact Option.some.inj e ▸ dropped.kept (tcmWrite_kept (Kept.same 0x1000020 _) rfl a new) rfl rfl
      · exact Option.some.inj e ▸
          foldl_fst_keeps (Quiet og) (p := (_, new)) dropped _ _ (fun _ _ hq => arcDo_quiet hq _)
      · cases e

/-- A write that a bus error may end is quiet either way. -/
theorem memWrite_getD_quiet (h : Quiet og s) (cls a : Nat) (new : List Byte) : Quiet og ((memWrite s cls a new).getD s) := by
  cases e : memWrite s cls a new with
  | none => exact h
  | some u => exact memWrite_quiet h e

theorem fifoShow_quiet (h : Quiet og s) (f : Fin 14) (n : Nat) : Quiet og (fifoShow s f n) :=
  fput_quiet (fput_quiet h (.fifoStat f) n) (.fifoStat f) _

theorem fifoWait_quiet (h : Quiet og s) (f : Fin 14) (r : BitVec 256) : Quiet og (fifoWait s f r) := by
  have k : Quiet og (fset (modFifo s f (fun q => { q with waiting := q.waiting ++ [r] })) (fldFIFO_STAT_WAITED f)) :=
    fput_quiet h.same (.fifoStat f) 1
  unfold fifoWait
  dsimp only
  split
  · exact fput_quiet k .swpStat 1
  · exact k

theorem fifoHold_quiet (h : Quiet og s) (f : Fin 14) (r : BitVec 256) : Quiet og (fifoHold s f r) :=
  fput_quiet (fifoShow_quiet h.same f _) (.fifoStat f) 1

theorem fifoRingError_quiet (h : Quiet og s) (f : Fin 14) (r : BitVec 256) : Quiet og (fifoRingError s f r) := by
  unfold fifoRingError
  split
  · exact fput_quiet (fifoHold_quiet h f r) (.fifoStat f) 1
  · split
    · exact fput_quiet (fput_quiet h (.fifoStat f) 1) .sqStat 1
    · exact fput_quiet (fifoWait_quiet h f r) (.fifoStat f) 1

theorem fifoPush_quiet (h : Quiet og s) (f : Fin 14) (r : BitVec 256) : Quiet og (fifoPush s f r) := by
  have full : Quiet og (if f.val = 13 then fset s fldSQ_STAT_OVERFLOW else fifoWait s f r) := by
    split
    · exact fput_quiet h .sqStat 1
    · exact fifoWait_quiet h f r
  unfold fifoPush
  split
  · exact full
  · split
    · split
      · exact fifoHold_quiet h f r
      · exact full
    · split
      next e => exact fput_quiet (fifoShow_quiet (memWrite_quiet h e).same f _) (.fifoStat f) 1
      · exact fifoRingError_quiet h f r

end

end Machine
end Sys2Proof
end

section
/-! SUPPORT. The slices of the inner decoder, and the statement about them (O11). -/

namespace Sys2Proof
namespace Machine

/-! ### Frames -/

/-- A part listed in a frame that has not changed can be taken out of it. -/
theorem changesOnly_of_same {p : Part} {l : List Part} {s t : State} (h : changesOnly (p :: l) s t) (hp : p.same s t) :
    changesOnly l s t := by
  intro q hq
  by_cases e : q = p
  · exact e ▸ hp
  · exact h q (by simp [e, hq])

section
variable {s : State} {n : SliceId}

/-! ### Slices and their buffers (R144, R147) -/

theorem slices_modSlice (s : State) (n : SliceId) (f : List SliceBuf → List SliceBuf) :
    (modSlice s n f).slices[n] = f s.slices[n] :=
  Vector.getElem_set_self n.isLt

theorem slices_modSlice_other (s : State) {n m : SliceId} (h : m ≠ n) (f : List SliceBuf → List SliceBuf) :
    (modSlice s n f).slices[m] = s.slices[m] :=
  Vector.getElem_set_ne n.isLt m.isLt (fun e => h (Fin.ext e.symm))

theorem changesOnly_modSlice (s : State) (n : SliceId) (f : List SliceBuf → List SliceBuf) :
    changesOnly [.slices] s (modSlice s n f) :=
  (modSlice_kept (Kept.same 0x100000000 s) rfl n f).changesOnly_of_mask rfl

/-- A buffer given away: the first of a queue loads in it, and the rest wait on. -/
def sliceLoad (s : State) (n : SliceId) (q : Nat) (rest : List Nat) : State :=
  modSlice { s with decWait := rest } n (fun l => l ++ [⟨q, .loading, none⟩])

/-- A buffer taken back: the packet that it held leaves its slice. -/
def sliceDrop (s : State) (n : SliceId) (pk : Nat) : State := modSlice s n (fun l => l.filter (fun x => x.pk != pk))

theorem slices_sliceLoad (s : State) (n : SliceId) (q : Nat) (rest : List Nat) :
    (sliceLoad s n q rest).slices[n] = s.slices[n] ++ [⟨q, .loading, none⟩] :=
  slices_modSlice _ _ _

theorem slices_sliceLoad_other (s : State) {n m : SliceId} (h : m ≠ n) (q : Nat) (rest : List Nat) :
    (sliceLoad s n q rest).slices[m] = s.slices[m] :=
  slices_modSlice_other _ h _

/-- A buffer taken back and given away at once. -/
theorem slices_sliceLoad_sliceDrop (s : State) (n : SliceId) (pk q : Nat) (rest : List Nat) :
    (sliceLoad (sliceDrop s n pk) n q rest).slices[n] = s.slices[n].filter (fun x => x.pk != pk) ++ [⟨q, .loading, none⟩] :=
  (slices_sliceLoad _ _ _ _).trans (congrArg (· ++ _) (slices_modSlice s n _))

theorem sliceGive_cons {q : Nat} {rest : List Nat} (h : s.decWait = q :: rest) (n : SliceId) :
    sliceGive s n = sliceLoad s n q rest := by
  rw [sliceGive, h]
  rfl

theorem changesOnly_sliceLoad (s : State) (n : SliceId) (q : Nat) (rest : List Nat) :
    changesOnly [.decWait, .slices] s (sliceLoad s n q rest) :=
  (modSlice_kept (kept_decWait (Kept.same 0x300000000 s) rfl) rfl n _).changesOnly_of_mask rfl

theorem cutPacket_slices (s : State) (b : SliceBuf) : (cutPacket s b).slices = s.slices :=
  (cutPacket_kept (Kept.same 0x8001001186d7f30e8 s) rfl b).only .slices rfl

theorem cutPacket_decWait (s : State) (b : SliceBuf) : (cutPacket s b).decWait = s.decWait :=
  (cutPacket_kept (Kept.same 0x8001001186d7f30e8 s) rfl b).only .decWait rfl

theorem anySlice_of_sliceFree (h : sliceFree s = some n) : anySlice s = true := by
  have serves := List.find?_some h
  rw [Bool.and_eq_true] at serves
  exact List.any_eq_true.mpr ⟨n.val, List.mem_range.mpr n.isLt, serves.1⟩

/-! ### A packet's first entry (R144, R147, R595) -/

theorem exec_sliceAssign {c : Chan} {pk : Nat} {t : State} (h : packetArriving s c = some pk) (taken : sliceTake s pk = t) :
    exec (.sliceAssign c) s = .next t := by
  show execSliceAssign c s = _
  rw [execSliceAssign, h, ← taken]

/-- A free buffer goes to the first of those that wait, the new packet the last of them. -/
theorem sliceTake_free {pk q : Nat} {rest : List Nat} (free : sliceFree s = some n) (queue : s.decWait ++ [pk] = q :: rest) :
    sliceTake s pk = sliceLoad s n q rest := by
  have first : sliceGive { s with decWait := s.decWait ++ [pk] } n = sliceLoad s n q rest := sliceGive_cons queue n
  unfold sliceTake
  rw [anySlice_of_sliceFree free, free]
  exact first

theorem sliceTake_waits {pk : Nat} (full : sliceFree s = none) (serves : anySlice s = true)
    (freed : s.decWait.length < slicesWriting s) : sliceTake s pk = { s with decWait := s.decWait ++ [pk] } := by
  unfold sliceTake
  rw [serves, full]
  exact if_pos freed

/-- With no buffer free or being freed for it, the only packet that waits takes that of the sector stopped for it. -/
theorem sliceTake_stops {pk : Nat} {b : SliceBuf} (full : sliceFree s = none) (serves : anySlice s = true)
    (empty : s.decWait = []) (idle : slicesWriting s = 0) (victim : preemptVictim s = some (n, b)) :
    sliceTake s pk = sliceLoad (sliceDrop (cutPacket { s with decWait := [pk] } b) n b.pk) n pk [] := by
  have busy : ¬ s.decWait.length < slicesWriting s := by rw [idle]; exact Nat.not_lt_zero _
  have waits : (cutPacket { s with decWait := [pk] } b).decWait = [pk] := cutPacket_decWait _ b
  unfold sliceTake
  rw [serves, full]
  refine (if_neg busy).trans ?_
  rw [victim, empty]
  exact sliceGive_cons (s := sliceDrop (cutPacket { s with decWait := [pk] } b) n b.pk) waits n

theorem sliceTake_unserved {pk : Nat} (unserved : anySlice s = false) :
    sliceTake s pk = discardSettle { s with decDiscard := s.decDiscard ++ [pk] } := by
  unfold sliceTake
  rw [unserved]
  rfl

/-- A buffer that has written its result goes to the packet that waits longest. -/
theorem sliceFreed_queue {b : SliceBuf} {pk : Nat} {rest : List Nat}
    (writes : s.slices[n].find? (fun b => b.phase == .writing) = some b) (queue : s.decWait = pk :: rest) :
    sliceFreed s n = sliceLoad (sliceDrop s n b.pk) n pk rest := by
  rw [sliceFreed, writes]
  exact sliceGive_cons (s := sliceDrop s n b.pk) queue n

/-- The sector that is stopped has its packet complete. -/
theorem preemptVictim_packet {b : SliceBuf} (h : preemptVictim s = some (n, b)) :
    ∃ p, s.packets.find? (fun p => p.id == b.pk) = some p := by
  obtain ⟨p, hp, hn⟩ := List.exists_of_findSome?_eq_some h
  obtain ⟨m, -, hm⟩ := List.exists_of_findSome?_eq_some hn
  obtain ⟨b', hb, hb'⟩ := Option.map_eq_some_iff.mp hm
  obtain ⟨-, rfl⟩ := Prod.mk.inj hb'
  have named := List.find?_some hb
  rw [Bool.and_eq_true, beq_iff_eq] at named
  exact Option.isSome_iff_exists.mp (List.find?_isSome.mpr ⟨p, hp, beq_iff_eq.mpr named.1.symm⟩)

theorem sectorOut_packets (s : State) (h : Head) (a : SlotAddr) (v : Bool) (r : SectorRes) :
    (sectorOut s h a v r).packets = s.packets :=
  (sectorOut_kept (Kept.same 0x8001001102d7e30e8 s) rfl h a v r).only .packets rfl

theorem sectorOut_slices (s : State) (h : Head) (a : SlotAddr) (v : Bool) (r : SectorRes) :
    (sectorOut s h a v r).slices = s.slices :=
  (sectorOut_kept (Kept.same 0x8001001102d7e30e8 s) rfl h a v r).only .slices rfl

/-- A sector that is stopped takes its packet out of the block. -/
theorem cutPacket_packets {b : SliceBuf} {p : Packet} (h : s.packets.find? (fun p => p.id == b.pk) = some p) :
    (cutPacket s b).packets = s.packets.filter (fun q => q.id != b.pk) := by
  unfold cutPacket packetOwner
  rw [h]
  exact sectorOut_packets _ _ _ _ _

theorem discardSettle_slices (s : State) : (discardSettle s).slices = s.slices :=
  (discardSettle_kept (Kept.same 0x80010011c6d7e30e8 s) rfl).only .slices rfl

/-- With no complete packet there is none to discard yet. -/
theorem discardSettle_decDiscard (h : s.packets = []) : (discardSettle s).decDiscard = s.decDiscard := by
  unfold discardSettle
  rw [h]
  simp [forEach]

theorem packetArriving_streaming {c : Chan} (sync : s.ch[c].sync = .stream1) (packets : s.packets = [])
    (unknown : decKnows s s.ch[c].packetId = false) : packetArriving s c = some s.ch[c].packetId := by
  have sends : streaming s.ch[c] = true := by rw [streaming, sync]; rfl
  rw [packetArriving, packets, sends, unknown]
  rfl

/-! ### A sector's result (R142, R168) -/

theorem decFlag_counter (s : State) (code k : Nat) : counter (decFlag s code) k = counter s k := by
  unfold decFlag
  repeat' split
  all_goals rfl

theorem stepEnd_quiet {og : State} (h : Quiet og s) (ref : SweepRef) (op head status step : Nat) (pta tag : Word)
    (failMap code : Nat) : Quiet og (stepEnd s ref op head status step pta tag failMap code) := by
  refine fifoPush_quiet ?_ _ _
  split
  · exact h
  · exact h.same

theorem stepCheck_quiet {og : State} (h : Quiet og s) (n : Head) : Quiet og (stepCheck s n) :=
  forEach_keeps (Quiet og) h _ _ (fun _ _ hu => stepEnd_quiet hu.same _ _ _ _ _ _ _ _ _)

/-- A sector that ends is counted once, by its code. -/
theorem sectorOut_counter (s : State) (h : Head) (a : SlotAddr) (v : Bool) {r : SectorRes} (hr : 356 + r.code < 409) :
    counter (sectorOut s h a v r) (356 + r.code) = counter s (356 + r.code) + 1 := by
  have counted : counter (decFlag (count s (356 + r.code)) r.code) (356 + r.code) = counter s (356 + r.code) + 1 :=
    (decFlag_counter _ _ _).trans (counter_count_same _ _)
  unfold sectorOut
  dsimp only
  split
  · exact counted
  · exact ((stepCheck_quiet (Quiet.refl _) h).counters _ hr).trans counted

theorem sliceResult_slices (s : State) (n : SliceId) (p : Packet) (r : SectorRes) :
    (sliceResult s n p r).slices[n] = s.slices[n].map (fun b =>
      if b.pk = p.id then { b with phase := .writing, res := some (headOfChan p.chan, p.addr, p.verify, r) } else b) := by
  unfold sliceResult
  dsimp only
  rw [sectorOut_slices]
  exact slices_modSlice _ _ _

theorem sliceResult_packets (s : State) (n : SliceId) (p : Packet) (r : SectorRes) :
    (sliceResult s n p r).packets = s.packets.filter (fun q => q.id != p.id) :=
  sectorOut_packets _ _ _ _ _

theorem sliceResult_counter (s : State) (n : SliceId) (p : Packet) {r : SectorRes} (hr : 356 + r.code < 409) :
    counter (sliceResult s n p r) (356 + r.code) = counter s (356 + r.code) + 1 :=
  sectorOut_counter _ _ _ _ hr

/-! ### Decoding a sector (R140 to R143) -/

theorem decodeStart_noSignal {p : Packet} (ready : sliceReady s n = some p) (h : dbStatus p.descB ≠ 0) :
    decodeStart s n = sliceResult s n p (packetRes p 1 0) := by
  rw [decodeStart, ready]
  exact if_pos h

theorem decodeStart_iterates {p : Packet} (ready : sliceReady s n = some p) (h : dbStatus p.descB = 0)
    (zeros : zeroCount (descramble (codewordSoft p) p.addr) ≤ 1072) : decodeStart s n = sliceIterate s n p.id := by
  rw [decodeStart, ready]
  dsimp only
  rw [if_neg (fun signal => signal h), if_neg (Nat.not_lt.mpr zeros)]

/-- A decode that ends gives its packet a result; what it wrote before that left the packets and the slices alone. -/
theorem sectorDecodeDone_result {b : SliceBuf} {p : Packet}
    (iterates : s.slices[n].find? (fun b => b.phase == .iterating) = some b)
    (packet : s.packets.find? (fun p => p.id == b.pk) = some p) :
    ∃ u r, u.slices = s.slices ∧ u.packets = s.packets ∧ sectorDecodeDone s n = sliceResult u n p r := by
  have kept := fun d => writeSector_kept (Kept.same 0x800000000057e30e8 s) rfl (headOfChan p.chan).val p d
  unfold sectorDecodeDone
  rw [iterates]
  dsimp only
  rw [packet]
  exact ⟨_, _, (kept _).only .slices rfl, (kept _).only .packets rfl, rfl⟩

end

/-! ### The statement -/

/-- Settles O11: each command is one of the equations above, and the frames of Laws/Keeps.lean say what it leaves. -/
theorem decoderSlicesTakeAndDecode : Obligations.DecoderSlicesTakeAndDecode := by
  refine ⟨?assigned, ?queued, ?waits, ?stops, ?discards, ?freed, ?iterates, ?noSignal, ?done⟩
  case assigned =>
    intro s c pk n arrives free empty
    exact ⟨sliceLoad s n pk [], exec_sliceAssign arrives (sliceTake_free free (by rw [empty]; rfl)), slices_sliceLoad _ _ _ _,
      fun m hm => slices_sliceLoad_other _ hm _ _, changesOnly_of_same (changesOnly_sliceLoad s n pk []) empty.symm⟩
  case queued =>
    intro s c pk q rest n arrives free queue
    exact ⟨sliceLoad s n q (rest ++ [pk]), exec_sliceAssign arrives (sliceTake_free free (by rw [queue, List.cons_append])),
      slices_sliceLoad _ _ _ _, rfl, fun m hm => slices_sliceLoad_other _ hm _ _,
      changesOnly_mono (changesOnly_sliceLoad s n q (rest ++ [pk])) (by decide)⟩
  case waits =>
    intro s c pk arrives full serves freed
    exact ⟨{ s with decWait := s.decWait ++ [pk] }, exec_sliceAssign arrives (sliceTake_waits full serves freed), rfl,
      (kept_decWait (Kept.same 0x200000000 s) rfl).changesOnly_of_mask rfl⟩
  case stops =>
    intro s c pk n b arrives full serves empty idle victim
    obtain ⟨p, packet⟩ := preemptVictim_packet victim
    have slices : (cutPacket { s with decWait := [pk] } b).slices = s.slices := cutPacket_slices _ b
    refine ⟨_, exec_sliceAssign arrives (sliceTake_stops full serves empty idle victim), ?_, cutPacket_packets packet, rfl,
      fun m hm => ?_⟩
    · rw [slices_sliceLoad_sliceDrop, slices]
    · exact (slices_sliceLoad_other _ hm _ _).trans ((slices_modSlice_other _ hm _).trans (by rw [slices]))
  case discards =>
    intro s c sync packets unknown unserved
    exact ⟨_, exec_sliceAssign (packetArriving_streaming sync packets unknown) (sliceTake_unserved unserved),
      discardSettle_decDiscard packets, discardSettle_slices _⟩
  case freed =>
    intro s n b pk rest writes queue
    refine ⟨sliceLoad (sliceDrop s n b.pk) n pk rest, congrArg Host.Outcome.next (sliceFreed_queue writes queue),
      slices_sliceLoad_sliceDrop _ _ _ _ _, rfl, ?_⟩
    exact changesOnly_trans (changesOnly_mono (changesOnly_modSlice s n _) (by decide))
      (changesOnly_mono (changesOnly_sliceLoad _ n pk rest) (by decide))
  case iterates =>
    intro s n p ready status zeros
    exact ⟨sliceIterate s n p.id, congrArg Host.Outcome.next (decodeStart_iterates ready status zeros), slices_modSlice _ _ _,
      changesOnly_modSlice _ _ _⟩
  case noSignal =>
    intro s n p ready status
    exact ⟨_, congrArg Host.Outcome.next (decodeStart_noSignal ready status), sliceResult_slices _ _ _ _,
      sliceResult_packets _ _ _ _, sliceResult_counter (r := packetRes p 1 0) s n p (show 356 + 1 < 409 by decide)⟩
  case done =>
    intro s n b p iterates packet
    obtain ⟨u, r, slices, packets, result⟩ := sectorDecodeDone_result iterates packet
    refine ⟨_, congrArg Host.Outcome.next result, ?_, packets ▸ sliceResult_packets u n p r⟩
    rw [sliceResult_slices, slices, List.map_map]
    refine List.map_congr_left (fun x _ => ?_)
    by_cases h : x.pk = p.id <;> simp [h]

end Machine
end Sys2Proof
end

section
/-! SUPPORT. Tiles and spans in the tile-code block, and the statement about them (O12). -/

namespace Sys2Proof
namespace Machine

/-! ### TC_STAT (R169) -/

/-- The blocks with cell error registers stand at multiples of 64 KiB. -/
theorem blockBase_aligned (b : Nat) : blockBase b % 0x10000 = 0 := by
  by_cases hb : b < 20
  · exact (blockBase_place hb).1
  · have last : blockBase b = clkBase := by
      unfold blockBase
      repeat rw [if_neg (by omega)]
    rw [last]
    rfl

theorem not_sideReg_TC_STAT : ¬ SideReg regTC_STAT := by
  have fifos : ∀ f : Fin 14, regTC_STAT ≠ regFIFO_STAT f := by decide
  have place : regTC_STAT = 0x42200010 := rfl
  generalize e : regTC_STAT = a
  intro h
  cases h with
  | cellErr c =>
    have aligned := blockBase_aligned (c / 64)
    unfold regCELL_ERR cerrBase at e
    omega
  | sramStat m =>
    unfold regMEMR_STAT memrBase at e
    omega
  | fifoStat f => exact fifos f e
  | _ => exact absurd e (by decide)

theorem fget_fset_same (s : State) {f : Fld} (h : f.ok = true) (bit : f.hi = f.lo) : fget (fset s f) f = 1 := by
  have width : f.hi + 1 - f.lo = 1 := by omega
  exact (fget_fput_same s f 1 h).trans (congrArg (fun n => 1 % 2 ^ n) width)

/-- A field of TC_STAT that writing a tile's record does not touch. -/
def tileKeepsFld (f : Fld) : Bool :=
  f.addr == regTC_STAT && fldTC_STAT_WEAK.apart f && fldTC_STAT_FAILED.apart f && fldTC_STAT_MISPLACED.apart f &&
    fldTC_STAT_OPEN.apart f

section
variable {s : State}

/-! ### Records (R154, R163, R164) -/

/-- The flags of TC_STAT that a tile sets when its record is written. -/
def tileFlags (s : State) (weak : Bool) (t : Tile) : State :=
  sif (t.outcome == ocMisplaced)
    (sif (t.outcome == ocFailed) (sif weak s (fun u => fset u fldTC_STAT_WEAK)) (fun u => fset u fldTC_STAT_FAILED))
    (fun u => fset u fldTC_STAT_MISPLACED)

theorem tileFlags_keeps {P : State → Prop} (h : P s) (hf : ∀ u a v, P u → P (wr u a v)) (weak : Bool) (t : Tile) :
    P (tileFlags s weak t) :=
  have set (f : Fld) (u : State) (hu : P u) : P (fset u f) := hf u _ _ hu
  sif_keeps P (sif_keeps P (sif_keeps P h _ _ (set _ _)) _ _ (set _ _)) _ _ (set _ _)

/-- What writing a tile's record comes to: its outcome is counted, the record is written, its flags are set, and it leaves. -/
theorem tileEmit_shape (s : State) (t : Tile) (used : Bool) :
    ∃ u weak weakTiles, Quiet (count s (364 + t.outcome)) u ∧
      tileEmit s t used =
        showOpen { tileFlags u weak t with weakTiles := weakTiles, tiles := s.tiles.filter (fun v => v.id != t.id) } := by
  have notice (b : Bool) (v : State) (w : Word × Nat) : sif b v (fun x => { x with weakTiles := x.weakTiles ++ [w] }) =
      { v with weakTiles := if b then v.weakTiles ++ [w] else v.weakTiles } := by
    cases b <;> rfl
  obtain ⟨u, pushed⟩ :
      ∃ u, u = fifoPush (count s (364 + t.outcome)) (if t.kind = .audit then 10 else 0) (completionRecord s t used) :=
    ⟨_, rfl⟩
  have tiles : u.tiles = s.tiles := by
    rw [pushed]
    exact (fifoPush_kept (Kept.same 0x8000000000d7e30e8 _) rfl _ _).only .tiles rfl
  have flagged : (tileFlags u (tileWeak s t) t).tiles = s.tiles :=
    tileFlags_keeps (P := fun v => v.tiles = s.tiles) tiles (fun _ _ _ => id) _ _
  refine ⟨u, tileWeak s t, ?_⟩
  rw [← flagged]
  unfold tileEmit
  dsimp only
  rw [← pushed, notice]
  exact ⟨_, pushed ▸ fifoPush_quiet (Quiet.refl _) _ _, rfl⟩

theorem tileEmit_tiles (s : State) (t : Tile) (used : Bool) :
    (tileEmit s t used).tiles = s.tiles.filter (fun v => v.id != t.id) := by
  obtain ⟨u, weak, weakTiles, -, shape⟩ := tileEmit_shape s t used
  rw [shape]
  rfl

theorem tileEmit_spans (s : State) (t : Tile) (used : Bool) : (tileEmit s t used).spans = s.spans :=
  (tileEmit_kept (Kept.same 0x8000000900d7e30e8 s) rfl t used).only .spans rfl

/-- A tile that leaves is counted once, by its outcome. -/
theorem tileEmit_counter (s : State) {t : Tile} (used : Bool) {k : Nat} (hk : 364 + t.outcome = k) (h : k < 409) :
    counter (tileEmit s t used) k = counter s k + 1 := by
  subst hk
  obtain ⟨u, weak, weakTiles, quiet, shape⟩ := tileEmit_shape s t used
  have counted : counter u (364 + t.outcome) = counter s (364 + t.outcome) + 1 :=
    (quiet.counters _ h).trans (counter_count_same _ _)
  rw [shape]
  exact tileFlags_keeps (P := fun v => counter v (364 + t.outcome) = _) counted (fun _ _ _ => id) weak t

theorem tileEmit_fget {f : Fld} (hf : tileKeepsFld f = true) (s : State) (t : Tile) (used : Bool) :
    fget (tileEmit s t used) f = fget s f := by
  simp only [tileKeepsFld, Bool.and_eq_true, beq_iff_eq] at hf
  obtain ⟨⟨⟨⟨addr, weak⟩, failed⟩, misplaced⟩, opened⟩ := hf
  obtain ⟨u, w, weakTiles, quiet, shape⟩ := tileEmit_shape s t used
  calc fget (tileEmit s t used) f
      = fget (tileFlags u w t) f := by rw [shape]; exact fget_fput_apart _ _ _ _ rfl opened
    _ = fget u f := (sif_fset_fget_apart _ _ rfl misplaced).trans
        ((sif_fset_fget_apart _ _ rfl failed).trans (sif_fset_fget_apart _ _ rfl weak))
    _ = fget s f := quiet.fget (addr ▸ not_sideReg_TC_STAT)

/-- FAILED sets with the record of a tile that failed, and stays with that of another. -/
theorem tileEmit_failed (s : State) (t : Tile) (used : Bool) :
    fget (tileEmit s t used) fldTC_STAT_FAILED = if t.outcome = ocFailed then 1 else fget s fldTC_STAT_FAILED := by
  obtain ⟨u, w, weakTiles, quiet, shape⟩ := tileEmit_shape s t used
  have before : fget (sif w u (fun v => fset v fldTC_STAT_WEAK)) fldTC_STAT_FAILED = fget s fldTC_STAT_FAILED :=
    (sif_fset_fget_apart _ _ rfl rfl).trans (quiet.fget not_sideReg_TC_STAT)
  calc fget (tileEmit s t used) fldTC_STAT_FAILED
      = fget (tileFlags u w t) fldTC_STAT_FAILED := by rw [shape]; exact fget_fput_apart _ _ _ _ rfl rfl
    _ = fget (sif (t.outcome == ocFailed) (sif w u (fun v => fset v fldTC_STAT_WEAK)) (fun v => fset v fldTC_STAT_FAILED))
          fldTC_STAT_FAILED := sif_fset_fget_apart _ _ rfl rfl
    _ = _ := by
      by_cases h : t.outcome = ocFailed
      · rw [if_pos h, beq_iff_eq.mpr h]
        exact fget_fset_same _ rfl rfl
      · rw [if_neg h, beq_false_of_ne h]
        exact before

/-! ### Outcomes (R151) -/

/-- A tile of no span has its record written when it has its outcome. -/
theorem tileOutcome_noSpan {t : Tile} (h : t.span = none) (s : State) (oc : Nat) :
    tileOutcome s t oc =
      tileEmit (modTile s t.id (fun _ => { t with outcome := oc, phase := .waiting }))
        { t with outcome := oc, phase := .waiting } false := by
  unfold tileOutcome
  dsimp only
  rw [h]

/-- Such a tile leaves the block. -/
theorem tileOutcome_leaves {t : Tile} (h : t.span = none) (s : State) (oc : Nat) :
    (tileOutcome s t oc).tiles.all (fun v => v.id != t.id) = true := by
  rw [tileOutcome_noSpan h, tileEmit_tiles, List.all_eq_true]
  intro v hv
  exact (List.mem_filter.mp hv).2

/-- FAILED sets when such a tile fails, and is as it was when it has another outcome. -/
theorem tileOutcome_failed {t : Tile} (h : t.span = none) (s : State) (oc : Nat) :
    fget (tileOutcome s t oc) fldTC_STAT_FAILED = if oc = ocFailed then 1 else fget s fldTC_STAT_FAILED := by
  rw [tileOutcome_noSpan h]
  exact tileEmit_failed _ _ _

theorem tileOutcome_counter {t : Tile} (h : t.span = none) (s : State) {oc k : Nat} (hk : 364 + oc = k) (hlt : k < 409) :
    counter (tileOutcome s t oc) k = counter s k + 1 := by
  rw [tileOutcome_noSpan h]
  exact tileEmit_counter _ false hk hlt

theorem tileProceed_decodes {t : Tile} (lost : 0 < t.erased.length) (few : t.erased.length ≤ 4) (s : State) :
    tileProceed s t = modTile s t.id (fun _ => { t with phase := .decoding, checked := true }) := by
  unfold tileProceed
  dsimp only
  rw [if_neg (by omega), if_neg (fun h => Nat.ne_of_gt lost h.1)]

theorem tileProceed_fails {t : Tile} (many : 5 ≤ t.erased.length) (s : State) : tileProceed s t = tileOutcome s t ocFailed :=
  if_pos many

/-- A tile that is neither UNWRITTEN nor MISPLACED goes on with the erasures that its results give. -/
theorem exec_tileResultsComplete {u : Tile} (filling : s.tiles.find? (fun v => v.id == u.id && v.phase == .filling) = some u)
    (full : tileFull u = true) (written : (List.range 36).all (fun i => (tileRes u i).code == 1 && (tileRes u i).blank) = false)
    (placed : ((List.range 36).filter (fun i => (tileRes u i).code == 5)).length ≤ 4) :
    exec (.tileResultsComplete u.id) s = .next (tileProceed s { u with erased := tileErasures u }) := by
  show execTileResultsComplete u.id s = _
  unfold execTileResultsComplete
  rw [filling]
  dsimp only
  rw [if_pos full]
  unfold tileComplete
  dsimp only
  rw [written, if_neg Bool.false_ne_true, if_neg (Nat.not_lt.mpr placed)]

/-! ### A lost staging read (R153) -/

/-- The erasures of a tile with a sector joined to them. -/
def erasedWith (e : List Nat) (i : Nat) : List Nat := (List.range 36).filter (fun j => e.contains j || j == i)

/-- A tile whose decode starts again without a sector that staging memory lost. -/
def tileWithout (u : Tile) (i : Nat) : Tile :=
  { u with erased := erasedWith u.erased i, poison := true, phase := .decoding, checked := true }

theorem mem_erasedWith_self (e : List Nat) {i : Nat} (h : i < 36) : i ∈ erasedWith e i :=
  List.mem_filter.mpr ⟨List.mem_range.mpr h, by simp⟩

theorem length_erasedWith_le (e : List Nat) (i : Nat) : (erasedWith e i).length ≤ e.length + 1 := by
  have within : erasedWith e i ⊆ i :: e := by
    intro j hj
    have := (List.mem_filter.mp hj).2
    simp only [Bool.or_eq_true, List.contains_iff_mem, beq_iff_eq] at this
    exact List.mem_cons.mpr this.symm
  exact List.Nodup.length_le_of_subset (List.Pairwise.filter _ List.nodup_range) within

/-- The tile that has taken the place of another of its number is found by it. -/
theorem find_modTile {u u' : Tile} {q : Tile → Bool} (h : s.tiles.find? (fun v => v.id == u.id && q v) = some u)
    (hid : u'.id = u.id) : (modTile s u.id (fun _ => u')).tiles.find? (fun v => v.id == u.id) = some u' := by
  have held : u ∈ s.tiles := List.mem_of_find?_eq_some h
  obtain ⟨w, hw⟩ := Option.isSome_iff_exists.mp
    (List.find?_isSome.mpr ⟨u, held, beq_self_eq_true u.id⟩ : (s.tiles.find? (fun v => v.id == u.id)).isSome)
  have same : ((fun v : Tile => v.id == u.id) ∘ fun v => if v.id = u.id then u' else v) = fun v => v.id == u.id := by
    funext v
    by_cases e : v.id = u.id <;> simp [e, hid]
  show (s.tiles.map (fun v => if v.id = u.id then u' else v)).find? _ = _
  rw [List.find?_map, same, hw, Option.map_some, if_pos (beq_iff_eq.mp (List.find?_some hw :))]

/-- A tile with at most three erasures goes on decoding when a read loses one more. -/
theorem exec_tilePoisonRestart {u : Tile} {i : Nat}
    (decoding : s.tiles.find? (fun v => v.id == u.id && v.phase == .decoding) = some u) (hi : i < 36)
    (outside : u.erased.contains i = false) (few : u.erased.length ≤ 3) :
    exec (.tilePoisonRestart u.id i) s = .next (modTile (fset s fldTC_STAT_POISON) u.id (fun _ => tileWithout u i)) := by
  have proceed := tileProceed_decodes (t := { u with erased := erasedWith u.erased i, poison := true, phase := .filling })
    (List.length_pos_of_mem (mem_erasedWith_self _ hi)) (Nat.le_trans (length_erasedWith_le _ _) (Nat.succ_le_succ few))
    (fset s fldTC_STAT_POISON)
  show execTilePoisonRestart u.id i s = _
  unfold execTilePoisonRestart
  rw [decoding]
  dsimp only
  rw [if_pos ⟨hi, by rw [outside]; exact Bool.false_ne_true⟩]
  exact congrArg Host.Outcome.next proceed

/-! ### A column decode that ends (R152) -/

theorem readSectors_quiet {og : State} (h : Quiet og s) (place : Nat → Nat) (l : List Nat) :
    Quiet og (readSectors s place l).1 := by
  refine foldl_fst_keeps (Quiet og) (p := (s, [], none)) h _ _ (fun acc i hacc => ?_)
  have read := memRead_quiet hacc 4 (place i) 4096
  split
  · exact hacc
  · split
    next e => exact read.of_eq e
    next e => exact read.of_eq e

theorem eq_mk_of_snd {α β : Type} {p : α × β} {b : β} (h : p.2 = b) : p = (p.1, b) := Prod.ext rfl h

/-- Columns that give values for erased sectors only correct no other sector. -/
theorem filter_fixed_eq_nil {erased : List Nat} {cols : List (List (Nat × Nat) × Nat)}
    (within : ∀ c ∈ cols, ∀ v ∈ c.1, v.1 ∈ erased) :
    ((List.range 36).filter (fun i => !(erased.contains i))).filter (fun i => cols.any (fun c => c.1.any (fun v => v.1 == i))) =
      [] := by
  rw [List.filter_eq_nil_iff]
  intro i known fixed
  obtain ⟨c, hc, value⟩ := List.any_eq_true.mp fixed
  obtain ⟨v, hv, e⟩ := List.any_eq_true.mp value
  have lost : i ∈ erased := beq_iff_eq.mp e ▸ within c hc v hv
  simp [lost] at known

/-- A decode whose every column gives values for erased sectors only ends CLEAN or CORRECTED. -/
theorem tileDecodeDone_decoded {u : Tile} {pay : List (Nat × List Byte)} {cols : List (List (Nat × Nat) × Nat)}
    (read : (readSectors s (payloadAt u.base) ((List.range 36).filter (fun i => !(u.erased.contains i)))).2 = (pay, none))
    (columns : tileColumns (fbit s fldTC_CFG_ERR_EN) u.erased pay = some cols)
    (within : ∀ c ∈ cols, ∀ v ∈ c.1, v.1 ∈ u.erased) :
    ∃ s1 nErr eMax, Quiet s s1 ∧
      tileDecodeDone s u = tileOutcome (sif (nErr != 0) s1 (fun v => fset v fldTC_STAT_COL_ERR))
        { u with colErr := nErr, eMax := eMax } (if u.erased = [] ∧ nErr = 0 then ocClean else ocCorrected) := by
  have parts := eq_mk_of_snd read
  have quiet := (readSectors_quiet (Quiet.refl s) _ _).of_eq parts
  unfold tileDecodeDone
  dsimp only
  rw [parts]
  dsimp only
  rw [columns]
  dsimp only
  rw [filter_fixed_eq_nil within, List.any_nil, if_neg Bool.false_ne_true]
  exact ⟨_, _, _, forEach_keeps (Quiet s) quiet _ _ (fun _ _ hv => memWrite_getD_quiet hv _ _ _), rfl⟩

theorem exec_tileDecodeDone {u : Tile} (decoding : s.tiles.find? (fun v => v.id == u.id && v.phase == .decoding) = some u) :
    exec (.tileDecodeDone u.id) s = .next (tileDecodeDone s u) := by
  show execTileDecodeDone u.id s = _
  rw [execTileDecodeDone, decoding]

/-! ### Spans (R158 to R160) -/

theorem spanEmit_spans (s : State) (id : Nat) (used : Bool) :
    (spanEmit s id used).spans = s.spans.filter (fun q => q.id != id) := by
  have emitted : (forEach (spanTiles s id) s (fun t p => tileEmit t p.2 used)).spans = s.spans :=
    forEach_keeps (fun u => u.spans = s.spans) rfl _ _ (fun u p hu => (tileEmit_spans u p.2 used).trans hu)
  exact congrArg (List.filter _) emitted

theorem spanEmit_fget {f : Fld} (hf : tileKeepsFld f = true) (s : State) (id : Nat) (used : Bool) :
    fget (spanEmit s id used) f = fget s f :=
  forEach_keeps (fun u => fget u f = fget s f) rfl (spanTiles s id) _ (fun u p hu => (tileEmit_fget hf u p.2 used).trans hu)

/-- With an index lost by more than two members the span fails. -/
theorem spanDecodeDone_tooMany {sp : Span}
    (many : dataSectors.any (fun i => decide (2 < ((List.range 8).filter (fun m => spanLost s sp m i)).length)) = true) :
    spanDecodeDone s sp =
      spanEmit (count (count (fset (fset s fldTC_STAT_SPAN_USED) fldTC_STAT_SPAN_FAIL) 370) 371) sp.id true :=
  if_pos many

/-- Where every index was restored the members' records are written. -/
theorem spanDecodeDone_restored {sp : Span}
    (few : dataSectors.any (fun i => decide (2 < ((List.range 8).filter (fun m => spanLost s sp m i)).length)) = false)
    (restored : (spanRestoreAll s sp dataSectors).2 = none) :
    ∃ tiles, spanDecodeDone s sp =
      spanEmit (count (fset { (spanRestoreAll s sp dataSectors).1 with tiles := tiles } fldTC_STAT_SPAN_USED) 370) sp.id true := by
  have parts := eq_mk_of_snd restored
  unfold spanDecodeDone
  dsimp only
  rw [few, if_neg Bool.false_ne_true, parts]
  exact ⟨_, rfl⟩

theorem id_of_running {id : SpanId} {sp : Span} (running : s.spans.find? (fun q => q.id == id.val && q.running) = some sp) :
    sp.id = id.val := by
  have found := List.find?_some running
  rw [Bool.and_eq_true, beq_iff_eq] at found
  exact found.1

theorem exec_spanDecodeDone {id : SpanId} {sp : Span} (running : s.spans.find? (fun q => q.id == id.val && q.running) = some sp) :
    exec (.spanDecodeDone id) s = .next (spanDecodeDone s sp) := by
  show execSpanDecodeDone id s = _
  rw [execSpanDecodeDone, running]

end

/-! ### The statement -/

/-- Settles O12: each command is one of the equations above; what reads, writes and records leave of TC_STAT and the counters is
the quiet change. -/
theorem tileCodeOutcomes : Obligations.TileCodeOutcomes := by
  refine ⟨?decodes, ?fails, ?restarts, ?ends, ?spanStarts, ?spanLoses, ?spanFails, ?spanRestores⟩
  case decodes =>
    intro s u filling full written placed few
    have start := (exec_tileResultsComplete filling full written placed).trans
      (congrArg Host.Outcome.next (tileProceed_decodes few.1 few.2 s))
    exact ⟨_, start, rfl, (modTile_kept (Kept.same 0x1000000000 s) rfl _ _).changesOnly_of_mask rfl⟩
  case fails =>
    intro s u filling full span _ written placed many
    have proceed := tileProceed_fails (t := { u with erased := tileErasures u }) many s
    have span' : ({ u with erased := tileErasures u } : Tile).span = none := span
    exact ⟨_, (exec_tileResultsComplete filling full written placed).trans (congrArg Host.Outcome.next proceed),
      (tileOutcome_failed span' s ocFailed).trans (if_pos rfl), tileOutcome_leaves span' s ocFailed,
      tileOutcome_counter span' s rfl (by decide)⟩
  case restarts =>
    intro s u i decoding hi outside few _ _
    refine ⟨_, exec_tilePoisonRestart decoding hi outside few, fget_fset_same s rfl rfl,
      congrArg (Option.map _) (find_modTile (s := fset s fldTC_STAT_POISON) (u' := tileWithout u i) decoding rfl),
      regsBut_fput 1 (regsBut_same s _) (List.mem_singleton.mpr rfl), ?_⟩
    exact (modTile_kept (fset_kept (Kept.same 0x1000000008 s) rfl _) rfl _ _).changesOnly_of_mask rfl
  case ends =>
    intro s u pay cols decoding read columns within span _
    obtain ⟨s1, nErr, eMax, quiet, done⟩ := tileDecodeDone_decoded read columns within
    have span' : ({ u with colErr := nErr, eMax := eMax } : Tile).span = none := span
    have passed : (if u.erased = [] ∧ nErr = 0 then ocClean else ocCorrected) ≠ ocFailed := by
      split <;> decide
    refine ⟨_, (exec_tileDecodeDone decoding).trans (congrArg Host.Outcome.next done), tileOutcome_leaves span' _ _, ?_⟩
    rw [tileOutcome_failed span', if_neg passed]
    exact (sif_fset_fget_apart (nErr != 0) s1 rfl rfl).trans (quiet.fget not_sideReg_TC_STAT)
  case spanStarts =>
    intro s id sp found complete failing
    refine ⟨{ s with spans := s.spans.map (fun q => if q.id = id.val then { q with running := true } else q) }, ?_, rfl,
      (kept_spans (Kept.same 0x4000000000 s) rfl).changesOnly_of_mask rfl⟩
    show execSpanDecodeStart id s = _
    rw [execSpanDecodeStart, found]
    exact congrArg Host.Outcome.next (if_pos ⟨complete, failing⟩)
  case spanLoses =>
    intro s id m i sp running held
    refine ⟨spanAddLoss s id.val m.val i.val, ?_, fget_fset_same s rfl rfl, rfl,
      regsBut_fput 1 (regsBut_same s _) (List.mem_singleton.mpr rfl), ?_⟩
    · show execSpanPoison id m i s = _
      rw [execSpanPoison, running]
      dsimp only
      rw [held, if_neg Bool.false_ne_true]
    · exact (spanAddLoss_kept (Kept.same 0x5000000008 s) rfl _ _ _).changesOnly_of_mask rfl
  case spanFails =>
    intro s id sp running many
    refine ⟨_, (exec_spanDecodeDone running).trans (congrArg Host.Outcome.next (spanDecodeDone_tooMany many)), ?_, ?_, ?_⟩
    · rw [spanEmit_fget rfl]
      exact (fget_fput_apart _ _ _ _ rfl rfl).trans (fget_fset_same s rfl rfl)
    · rw [spanEmit_fget rfl]
      exact fget_fset_same _ rfl rfl
    · rw [spanEmit_spans, id_of_running running]
      rfl
  case spanRestores =>
    intro s id sp running few restored
    obtain ⟨tiles, done⟩ := spanDecodeDone_restored few restored
    refine ⟨_, (exec_spanDecodeDone running).trans (congrArg Host.Outcome.next done), ?_, ?_⟩
    · rw [spanEmit_fget rfl]
      exact fget_fset_same _ rfl rfl
    · rw [spanEmit_spans, id_of_running running]
      rfl

end Machine
end Sys2Proof
end

section
/-! SUPPORT. What an access to memory reads does not depend on the registers that the memory system does not look at: two states
that agree but for those registers stay alike through every operation of an access, and give the same bytes. -/

namespace Sys2Proof
namespace Machine

/-! ### What memory sees of the registers -/

/-- The fields of the registers that an access to memory reads: how staging memory is fitted and mapped, whether it answers, the
state, partition and lock of the Arcade, and the cell that the register of each SRAM block names. -/
inductive MemFld : Fld → Prop where
  | rowBits : MemFld fldDRAM_CFG_ROW_BITS
  | ranks : MemFld fldDRAM_CFG_RANKS
  | interface : MemFld fldDRAM_IFMAP_MASK
  | xorMap {n k : Nat} (hn : n < 2) (hk : k < 6) : MemFld (fldDRAMN_XORMAP_MASK n k)
  | dramState : MemFld fldDRAM_STAT_STATE
  | arcState : MemFld fldARC_STAT_STATE
  | arcLock : MemFld fldARC_LOCK_MASK
  | arcPart (cls : Nat) : MemFld (fldARC_PART_MASK cls)
  | sramDistrict (m : Nat) : MemFld (fldMEMR_INFO_DISTRICT m)
  | sramPort (m : Nat) : MemFld (fldMEMR_INFO_AVENUE_PORT m)
  | sramCell (m : Nat) : MemFld (fldMEMR_INFO_STREET_PORT m)

/-- A state with other registers. -/
def withRegs (s : State) (r : List (Nat × Word)) : State := { s with regs := r }

/-- Two states that agree but for the registers, and in every bit of the registers that an access to memory reads. -/
structure MemAlike (s t : State) : Prop where
  rest : ∃ r, t = withRegs s r
  bits : ∀ f, MemFld f → ∀ i, f.lo ≤ i → i ≤ f.hi → (rd t f.addr).toNat.testBit i = (rd s f.addr).toNat.testBit i

section
variable {s t : State}

theorem MemAlike.refl (s : State) : MemAlike s s := ⟨⟨s.regs, rfl⟩, fun _ _ _ _ _ => rfl⟩

/-- Such states show the same in what does not depend on the registers. -/
theorem MemAlike.same {α : Type} (h : MemAlike s t) (F : State → α)
    (hF : ∀ u r, F (withRegs u r) = F u) : F t = F s := by
  obtain ⟨r, rfl⟩ := h.rest
  exact hF s r

/-- An update that neither reads nor writes the registers, nor what their reset values depend on, keeps such states alike. -/
theorem MemAlike.update (h : MemAlike s t) (F : State → State)
    (hF : ∀ u r, F (withRegs u r) = withRegs (F u) r ∧ (F u).variant = u.variant ∧ (F u).keyFused = u.keyFused) :
    MemAlike (F s) (F t) := by
  obtain ⟨r, rfl⟩ := h.rest
  obtain ⟨own, hv, hk⟩ := hF s s.regs
  have given : F (withRegs s r) = withRegs (F s) r := (hF s r).1
  have regs : (F s).regs = s.regs :=
    calc (F s).regs = (withRegs (F s) s.regs).regs := congrArg State.regs (own : F s = _)
      _ = s.regs := rfl
  have rdS (a : Nat) : rd (F s) a = rd s a := by rw [rd, rd, regs, hv, hk]
  have rdT (a : Nat) : rd (F (withRegs s r)) a = rd (withRegs s r) a := by
    rw [given]
    show (aget? r a).getD (BitVec.ofNat 32 (regReset (F s).variant (F s).keyFused a)) = _
    rw [hv, hk]
    rfl
  exact ⟨⟨r, given⟩, fun f hf i lo hi => by rw [rdS, rdT]; exact h.bits f hf i lo hi⟩

theorem MemAlike.fget (h : MemAlike s t) {f : Fld} (hf : MemFld f) : fget t f = fget s f := by
  apply Nat.eq_of_testBit_eq
  intro i
  rw [Machine.fget, Machine.fget, testBit_bitsOf, testBit_bitsOf]
  by_cases inside : i < f.hi + 1 - f.lo
  · rw [h.bits f hf (f.lo + i) (by omega) (by omega)]
  · simp [inside]

/-- The same number written into a whole register of both. -/
theorem MemAlike.wr (h : MemAlike s t) (a : Nat) (v : Word) : MemAlike (wr s a v) (wr t a v) := by
  obtain ⟨r, rfl⟩ := h.rest
  refine ⟨⟨aset r a v, rfl⟩, fun f hf i lo hi => ?_⟩
  by_cases e : f.addr = a
  · rw [e, rd_wr_same, rd_wr_same]
  · rw [rd_wr_other _ _ e, rd_wr_other _ _ e]
    exact h.bits f hf i lo hi

/-- The same number put into a field of both. -/
theorem MemAlike.fput (h : MemAlike s t) {f : Fld} (hf : f.ok = true) (x : Nat) : MemAlike (fput s f x) (fput t f x) := by
  have place := hf
  simp only [Fld.ok, Bool.and_eq_true, decide_eq_true_eq] at place
  obtain ⟨r, rfl⟩ := h.rest
  refine ⟨⟨_, rfl⟩, fun g hg i lo hi => ?_⟩
  by_cases e : g.addr = f.addr
  · have old := h.bits g hg i lo hi
    rw [e] at old
    rw [e, rd_fput_toNat _ _ _ hf, rd_fput_toNat _ _ _ hf, testBit_putBits _ _ _ _ _ (by omega),
      testBit_putBits _ _ _ _ _ (by omega), old]
  · rw [rd_fput_other _ _ e, rd_fput_other _ _ e]
    exact h.bits g hg i lo hi

/-- A field that memory does not read may be written in one of them. -/
theorem MemAlike.fput_right (h : MemAlike s t) {f : Fld} (hf : f.ok = true) (unseen : ∀ g, MemFld g → f.apart g = true)
    (x : Nat) : MemAlike s (Machine.fput t f x) := by
  have place := hf
  simp only [Fld.ok, Bool.and_eq_true, decide_eq_true_eq] at place
  obtain ⟨r, rfl⟩ := h.rest
  refine ⟨⟨_, rfl⟩, fun g hg i lo hi => ?_⟩
  rw [← h.bits g hg i lo hi]
  by_cases e : g.addr = f.addr
  · have beside := unseen g hg
    simp only [Fld.apart, e, bne_self_eq_false, Bool.false_or, Bool.or_eq_true, decide_eq_true_eq] at beside
    rw [e, rd_fput_toNat _ _ _ hf, testBit_putBits _ _ _ _ _ (by omega)]
    by_cases below : i < f.lo
    · rw [if_pos below]
    · rw [if_neg below, if_neg (by omega)]
  · rw [rd_fput_other _ _ e]

theorem MemAlike.count (h : MemAlike s t) (k : Nat) : MemAlike (count s k) (count t k) :=
  h.update (Machine.count · k) (fun _ _ => ⟨rfl, rfl, rfl⟩)

/-! ### Places of staging memory (R390 to R397, R415) -/

theorem MemAlike.stagingUsable (h : MemAlike s t) (a : Nat) : stagingUsable t a = stagingUsable s a := by
  unfold Machine.stagingUsable stagingReady usableMiB
  rw [h.fget .dramState, h.fget .rowBits, h.fget .ranks]

theorem MemAlike.dramSel (h : MemAlike s t) : dramSel t = dramSel s := by
  unfold Machine.dramSel
  rw [h.fget .ranks]

theorem maskParity_lt (g mask : Nat) : maskParity g mask < 2 := Nat.mod_lt _ (by decide)

theorem MemAlike.dramPlace (h : MemAlike s t) (a : Nat) : dramPlace t a = dramPlace s a := by
  have out {k : Nat} (hk : k < 6) := h.fget (.xorMap (maskParity_lt (dramGroup a) (Machine.fget s fldDRAM_IFMAP_MASK)) hk)
  unfold Machine.dramPlace dramRowBits
  dsimp only
  rw [h.fget .interface, h.fget .ranks, h.fget .rowBits, h.dramSel]
  simp only [out (show 0 < 6 by decide), out (show 1 < 6 by decide), out (show 2 < 6 by decide), out (show 3 < 6 by decide),
    out (show 4 < 6 by decide), out (show 5 < 6 by decide)]

theorem MemAlike.dramRowAddr (h : MemAlike s t) (c : Fin 4) (bank row : Nat) :
    dramRowAddr t c.val bank row = dramRowAddr s c.val bank row := by
  have half : c.val / 2 < 2 := by omega
  have out {k : Nat} (hk : k < 6) := h.fget (.xorMap half hk)
  unfold Machine.dramRowAddr
  dsimp only
  rw [h.fget .interface, h.fget .ranks, h.dramSel]
  simp only [out (show 0 < 6 by decide), out (show 1 < 6 by decide), out (show 2 < 6 by decide), out (show 3 < 6 by decide),
    out (show 4 < 6 by decide), out (show 5 < 6 by decide)]

/-! ### Reports (R421, R535, R539) -/

theorem MemAlike.setReports (h : MemAlike s t) {l l' : List FaultReport} (e : l' = l) :
    MemAlike { s with reports := l } { t with reports := l' } := by
  subst e
  exact h.update (fun u => { u with reports := l' }) (fun _ _ => ⟨rfl, rfl, rfl⟩)

theorem MemAlike.raiseReport (h : MemAlike s t) (cls lv d p c act det : Nat) :
    MemAlike (raiseReport s cls lv d p c act det) (raiseReport t cls lv d p c act det) := by
  have noted : MemAlike (cellNote s cls d p c) (cellNote t cls d p c) := by
    unfold cellNote
    cases cellCode d p c with
    | none => exact h
    | some k => exact h.fput rfl cls
  unfold Machine.raiseReport
  dsimp only
  rw [noted.same State.reports (fun _ _ => rfl)]
  split
  · exact noted.setReports rfl
  · exact noted.setReports (by rw [noted.same State.chipTime (fun _ _ => rfl)])

theorem MemAlike.sramNote (h : MemAlike s t) (place : Config.SramPlace) (ue : Bool) :
    MemAlike (sramNote s place ue) (sramNote t place ue) := by
  have flagged (m : Nat) :
      MemAlike (Machine.count (fset s (if ue then fldMEMR_STAT_UE m else fldMEMR_STAT_CE m)) (if ue then 430 else 429))
        (Machine.count (fset t (if ue then fldMEMR_STAT_UE m else fldMEMR_STAT_CE m)) (if ue then 430 else 429)) := by
    cases ue <;> exact (h.fput rfl 1).count _
  generalize hm : (Config.sramMacro place).toNat = m
  unfold Machine.sramNote sramFlag sramReport
  dsimp only
  rw [hm, (flagged m).fget (.sramDistrict m), (flagged m).fget (.sramPort m), (flagged m).fget (.sramCell m)]
  have reported := (flagged m).raiseReport (if ue then 0x02 else 0x01) 0
  split
  · cases ue <;> exact (reported _ _ _ _ _).fput rfl 1
  · exact reported _ _ _ _ _

/-- Two states that are alike, each with the same answer. -/
def AnswersAlike {β : Type} (p q : State × β) : Prop := MemAlike p.1 q.1 ∧ q.2 = p.2

theorem AnswersAlike.parts {β : Type} {p q : State × β} (h : AnswersAlike p q) :
    ∃ u v b, p = (u, b) ∧ q = (v, b) ∧ MemAlike u v :=
  ⟨p.1, q.1, p.2, rfl, Prod.ext rfl h.2, h.1⟩

/-- Doing the same thing for each of a list keeps states alike. -/
theorem MemAlike.foldl {α : Type} (h : MemAlike s t) (l : List α) {f : State → α → State}
    (hf : ∀ u v x, MemAlike u v → MemAlike (f u x) (f v x)) : MemAlike (l.foldl f s) (l.foldl f t) := by
  induction l generalizing s t with
  | nil => exact h
  | cons x l ih => exact ih (hf s t x h)

/-- And so it does where each turn answers. -/
theorem AnswersAlike.foldl {α β : Type} {p q : State × β} (h : AnswersAlike p q) (l : List α)
    {f : State × β → α → State × β}
    (hf : ∀ u v b x, MemAlike u v → AnswersAlike (f (u, b) x) (f (v, b) x)) : AnswersAlike (l.foldl f p) (l.foldl f q) := by
  induction l generalizing p q with
  | nil => exact h
  | cons x l ih =>
    obtain ⟨u, v, b, rfl, rfl, k⟩ := h.parts
    exact ih (hf u v b x k)

/-! ### Check words and ECC words of staging memory (R393, R394, R403, R407, R408) -/

theorem MemAlike.dramSaw (h : MemAlike s t) (a : Nat) (check : Bool) (o : EccOutcome) :
    MemAlike (dramSaw s a check o) (dramSaw t a check o) := by
  cases o with
  | good => exact h
  | ce => exact (((h.fput rfl 1).wr _ _).wr _ _).count 422
  | ue => exact ((((h.fput rfl 1).wr _ _).wr _ _).count 423).raiseReport _ _ _ _ _ _ _

theorem MemAlike.checkStored (h : MemAlike s t) (a : Nat) : checkStored t a = checkStored s a := by
  unfold Machine.checkStored
  rw [h.same State.chkErr (fun _ _ => rfl)]

theorem MemAlike.checkBuf (h : MemAlike s t) (a : Nat) : checkBuf t a = checkBuf s a := by
  have place := h.dramPlace a
  have dram := h.same State.dram (fun _ _ => rfl)
  simp only [Machine.checkBuf, place, dram]

theorem MemAlike.modDram (h : MemAlike s t) (c : Fin 4) (f : DramCh → DramCh) : MemAlike (modDram s c f) (modDram t c f) :=
  h.update (Machine.modDram · c f) (fun _ _ => ⟨rfl, rfl, rfl⟩)

theorem MemAlike.putChk (h : MemAlike s t) (rb fl : Nat) : MemAlike (putChk s rb fl) (putChk t rb fl) := by
  unfold Machine.putChk
  rw [h.same State.chkErr (fun _ _ => rfl)]
  exact h.update (fun u => { u with chkErr := _ }) (fun _ _ => ⟨rfl, rfl, rfl⟩)

theorem MemAlike.checkBack (h : MemAlike s t) (c : Fin 4) (bank : Nat) : MemAlike (checkBack s c bank) (checkBack t c bank) := by
  unfold Machine.checkBack
  rw [h.same State.dram (fun _ _ => rfl)]
  split
  · rw [h.dramRowAddr]
    split
    · exact (h.putChk _ _).modDram c _
    · exact h
  · exact h

theorem MemAlike.checkFill (h : MemAlike s t) (a : Nat) : MemAlike (checkFill s a) (checkFill t a) := by
  unfold Machine.checkFill
  rw [h.dramPlace, h.checkStored]
  exact h.modDram _ _

theorem MemAlike.checkLoad (h : MemAlike s t) (a : Nat) : MemAlike (checkLoad s a) (checkLoad t a) := by
  unfold Machine.checkLoad
  rw [h.checkBuf]
  split
  · exact h
  · have back := h.checkBack (Machine.dramPlace s a).ch (Machine.dramPlace s a).bank
    dsimp only
    rw [h.dramPlace, back.checkStored]
    exact (back.dramSaw _ _ _).checkFill a

theorem MemAlike.checkStore (h : MemAlike s t) (w : Nat) : MemAlike (checkStore s w) (checkStore t w) := by
  unfold Machine.checkStore
  rw [h.checkBuf]
  split
  · exact h
  · rw [h.dramPlace]
    exact h.modDram _ _

theorem MemAlike.dramPeek (h : MemAlike s t) (a : Nat) : dramPeek t a = dramPeek s a := by
  unfold Machine.dramPeek checkLook
  dsimp only
  rw [h.checkBuf, h.checkStored, h.same State.mem (fun _ _ => rfl), h.same State.dramErr (fun _ _ => rfl),
    h.same (isPoisoned · (eccWord a)) (fun _ _ => rfl)]

theorem MemAlike.dramRead (h : MemAlike s t) (a : Nat) :
    AnswersAlike (dramRead s a) (dramRead t a) := by
  have loaded := h.checkLoad (eccWord a)
  unfold Machine.dramRead
  dsimp only
  rw [loaded.dramPeek]
  exact ⟨loaded.dramSaw _ _ _, rfl⟩

theorem MemAlike.dramStoreWord (h : MemAlike s t) (w : Nat) (bs : List Byte) (p : Bool) :
    MemAlike (dramStoreWord s w bs p) (dramStoreWord t w bs p) :=
  ((h.checkLoad w).checkStore w).update
    (fun u => setPoison { u with mem := Memory.writeBytes u.mem w bs, dramErr := aerase u.dramErr w } w p)
    (fun _ _ => ⟨rfl, rfl, rfl⟩)

theorem MemAlike.dramWrite (h : MemAlike s t) (a : Nat) (new : List Byte) : MemAlike (dramWrite s a new) (dramWrite t a new) := by
  have loaded := (h.count 424).checkLoad (eccWord a)
  unfold Machine.dramWrite
  dsimp only
  rw [loaded.dramPeek]
  split
  · exact h.dramStoreWord _ _ _
  · split
    · exact loaded.dramStoreWord _ _ _
    · exact (loaded.dramStoreWord _ _ _).fput rfl 1
    · exact ((loaded.dramSaw _ _ _).dramStoreWord _ _ _).fput rfl 1

/-! ### Lines of the Arcade (R372 to R376, R381) -/

theorem MemAlike.lines (h : MemAlike s t) : t.arcade.lines = s.arcade.lines := h.same (·.arcade.lines) (fun _ _ => rfl)

theorem MemAlike.miss (h : MemAlike s t) : t.arcade.miss = s.arcade.miss := h.same (·.arcade.miss) (fun _ _ => rfl)

theorem MemAlike.setArcLines (h : MemAlike s t) (l : List (Nat × ArcLine)) : MemAlike (setArcLines s l) (setArcLines t l) :=
  h.update (Machine.setArcLines · l) (fun _ _ => ⟨rfl, rfl, rfl⟩)

theorem MemAlike.arcTouch (h : MemAlike s t) (a way : Nat) : MemAlike (arcTouch s a way) (arcTouch t a way) :=
  h.update (Machine.arcTouch · a way) (fun _ _ => ⟨rfl, rfl, rfl⟩)

theorem MemAlike.reply (h : MemAlike s t) (st : BusStatus) (v : Nat) (bs : List Byte) :
    MemAlike (reply s st v bs) (reply t st v bs) :=
  h.update (Machine.reply · st v bs) (fun _ _ => ⟨rfl, rfl, rfl⟩)

theorem MemAlike.arcState (h : MemAlike s t) : arcState t = arcState s := h.fget .arcState

theorem MemAlike.arcFree (h : MemAlike s t) (cls : Nat) : arcFree t cls = arcFree s cls := by
  unfold Machine.arcFree
  rw [h.fget (.arcPart cls), h.fget .arcLock]

theorem MemAlike.arcMayAlloc (h : MemAlike s t) (cls : Nat) : arcMayAlloc t cls = arcMayAlloc s cls := by
  unfold Machine.arcMayAlloc
  rw [h.arcState, h.arcFree]

theorem MemAlike.arcVictim (h : MemAlike s t) (cls a : Nat) : arcVictim t cls a = arcVictim s cls a := by
  unfold Machine.arcVictim
  rw [h.arcFree, h.lines, h.same (·.arcade.plru) (fun _ _ => rfl)]

theorem MemAlike.arcNote (h : MemAlike s t) (bank set way : Nat) (l : ArcLine) (ue : Bool) :
    MemAlike (arcNote s bank set way l ue) (arcNote t bank set way l ue) := by
  have noted := h.sramNote (.arcade (arcKey bank set way) (lineBad l.err)) ue
  cases ue with
  | false => exact noted
  | true => exact noted.fput rfl 1

theorem MemAlike.arcWriteBack (h : MemAlike s t) (bank set way : Nat) (l : ArcLine) :
    MemAlike (arcWriteBack s bank set way l) (arcWriteBack t bank set way l) := by
  unfold Machine.arcWriteBack
  split
  · split
    · exact (h.dramStoreWord _ _ _).count 419
    · exact ((h.arcNote _ _ _ _ _).dramStoreWord _ _ _).count 419
    · exact ((h.arcNote _ _ _ _ _).dramStoreWord _ _ _).count 419
  · exact h

theorem MemAlike.arcDrop (h : MemAlike s t) (a w : Nat) : MemAlike (arcDrop s a w) (arcDrop t a w) :=
  h.update (Machine.arcDrop · a w) (fun _ _ => ⟨rfl, rfl, rfl⟩)

theorem MemAlike.arcSound (h : MemAlike s t) (a w : Nat) (l : ArcLine) :
    AnswersAlike (arcSound s a w l) (arcSound t a w l) := by
  unfold Machine.arcSound
  split
  · exact ⟨h, rfl⟩
  · exact ⟨h.arcNote (arcBank a) (arcSet a) w l false, rfl⟩
  · split
    · exact ⟨(h.arcWriteBack _ _ _ _).arcDrop _ _, rfl⟩
    · exact ⟨(h.arcNote _ _ _ _ _).arcDrop _ _, rfl⟩

theorem MemAlike.arcInstall (h : MemAlike s t) (a way : Nat) (l : ArcLine) :
    MemAlike (arcInstall s a way l) (arcInstall t a way l) := by
  have put {u v : State} (k : MemAlike u v) := (k.update (fun x =>
    Machine.setArcLines x (aset x.arcade.lines (arcKey (arcBank a) (arcSet a) way) l))
    (fun _ _ => ⟨rfl, rfl, rfl⟩)).arcTouch a way
  unfold Machine.arcInstall
  dsimp only
  rw [h.lines]
  split
  · exact put (h.arcWriteBack _ _ _ _)
  · exact put h

/-! ### Stores that the Arcade accepts (R357, R369, R370) -/

theorem MemAlike.resvDrop (h : MemAlike s t) (a n : Nat) : MemAlike (resvDrop s a n) (resvDrop t a n) := by
  unfold Machine.resvDrop
  dsimp only
  rw [h.same State.core (fun _ _ => rfl)]
  split
  · exact h.update (fun u => { u with core := _ }) (fun _ _ => ⟨rfl, rfl, rfl⟩)
  · exact h

theorem MemAlike.l1Settle (h : MemAlike s t) (p : Fin 4) (c : L1Cache) : MemAlike (l1Settle p c s) (l1Settle p c t) := by
  have emptied (f : L1 → L1) : MemAlike (modL1 s p c f) (modL1 t p c f) := by
    cases c <;> exact h.update (modL1 · p _ f) (fun _ _ => ⟨rfl, rfl, rfl⟩)
  unfold Machine.l1Settle
  rw [h.same (l1Get · p c) (by cases c <;> exact fun _ _ => rfl)]
  split
  · exact emptied _
  · exact h

theorem MemAlike.arcAccept (h : MemAlike s t) (r : ArcReq) : MemAlike (arcAccept s r) (arcAccept t r) := by
  unfold Machine.arcAccept
  split
  · have dropped := h.resvDrop r.addr
    dsimp only
    split
    · refine (dropped _).foldl _ (fun u v k hk => ?_)
      split
      · exact hk.update (modL1 · k .data _) (fun _ _ => ⟨rfl, rfl, rfl⟩)
      · exact (hk.update (modL1 · k .data (l1Inv r.addr)) (fun _ _ => ⟨rfl, rfl, rfl⟩)).l1Settle k .data
    · exact dropped _
  · exact h

/-! ### Misses and requests of the Arcade (R373 to R380) -/

theorem MemAlike.missIndex (h : MemAlike s t) (a : Nat) : missIndex t a = missIndex s a :=
  h.same (Machine.missIndex · a) (fun _ _ => rfl)

theorem MemAlike.arcFind (h : MemAlike s t) (a : Nat) : arcFind t a = arcFind s a :=
  h.same (Machine.arcFind · a) (fun _ _ => rfl)

theorem MemAlike.setMiss (h : MemAlike s t) (b : Nat) (m : List MissReg) : MemAlike (setMiss s b m) (setMiss t b m) := by
  have put := h.update (fun u => { u with arcade := { u.arcade with miss := u.arcade.miss.set! b m } })
    (fun _ _ => ⟨rfl, rfl, rfl⟩)
  unfold Machine.setMiss showMiss
  rw [put.miss]
  exact (((put.fput rfl _).fput rfl _).fput rfl _).fput rfl _

theorem MemAlike.setArcWaiting (h : MemAlike s t) (b : Nat) (w : List ArcReq) :
    MemAlike (setArcWaiting s b w) (setArcWaiting t b w) :=
  h.update (Machine.setArcWaiting · b w) (fun _ _ => ⟨rfl, rfl, rfl⟩)

theorem MemAlike.waiting (h : MemAlike s t) : t.arcade.waiting = s.arcade.waiting := h.same (·.arcade.waiting) (fun _ _ => rfl)

theorem MemAlike.arcWait (h : MemAlike s t) (r : ArcReq) : MemAlike (arcWait s r) (arcWait t r) := by
  unfold Machine.arcWait
  rw [h.waiting]
  exact (h.setArcWaiting _ _).fput rfl 1

theorem MemAlike.arcLand (h : MemAlike s t) (bank i : Nat) : MemAlike (arcLand s bank i) (arcLand t bank i) := by
  unfold Machine.arcLand
  rw [h.miss]
  split
  · exact h
  · rename_i m _
    obtain ⟨u, v, ⟨bs, p⟩, readS, readT, k⟩ := ((h.setMiss bank ((s.arcade.miss[bank]!).eraseIdx i)).dramRead m.line).parts
    rw [readS, readT]
    have answered := k.update (fun x => { x with arcade := { x.arcade with answers := (serveAll bs p m.reqs).2.2 } })
      (fun _ _ => ⟨rfl, rfl, rfl⟩)
    have victim := answered.arcVictim m.cls m.line
    dsimp only at victim ⊢
    rw [victim]
    split
    · exact answered.arcInstall _ _ _
    · refine answered.foldl _ (fun u v r k => ?_)
      split
      · exact k.dramWrite _ _
      · exact k

theorem MemAlike.arcMerge (h : MemAlike s t) (r : ArcReq) (i : Nat) : MemAlike (arcMerge s r i) (arcMerge t r i) := by
  unfold Machine.arcMerge
  rw [h.miss, h.arcMayAlloc]
  split
  · exact (h.count 417).setMiss _ _
  · exact h

theorem MemAlike.arcTakeReg (h : MemAlike s t) (r : ArcReq) : MemAlike (arcTakeReg s r) (arcTakeReg t r) := by
  have counted (b : Bool) (k : Nat) : MemAlike (countIf s b k) (countIf t b k) := by
    cases b with
    | false => exact h
    | true => exact h.count k
  unfold Machine.arcTakeReg
  rw [h.miss, h.arcMayAlloc, h.arcState]
  exact (counted _ _).setMiss _ _

theorem MemAlike.arcServeHit (h : MemAlike s t) (r : ArcReq) (w : Nat) (l : ArcLine) :
    MemAlike (arcServeHit s r w l) (arcServeHit t r w l) := by
  have touched := (h.count (409 + 2 * arcBank r.addr)).arcTouch r.addr w
  unfold Machine.arcServeHit
  dsimp only
  rw [touched.lines]
  split
  · exact touched.setArcLines _
  · exact touched

theorem MemAlike.arcPrimary (h : MemAlike s t) (r : ArcReq) : MemAlike (arcPrimary s r) (arcPrimary t r) := by
  unfold Machine.arcPrimary
  rw [h.miss]
  split
  · exact (h.arcAccept r).arcTakeReg r
  · exact h.arcWait r

theorem MemAlike.arcHit (h : MemAlike s t) (r : ArcReq) (w : Nat) (l : ArcLine) : MemAlike (arcHit s r w l) (arcHit t r w l) := by
  obtain ⟨u, v, met, soundS, soundT, sound⟩ := (h.arcSound r.addr w l).parts
  unfold Machine.arcHit Machine.arcAnswer
  rw [soundS, soundT]
  cases met with
  | held l' =>
    dsimp only
    split
    · exact ((sound.arcAccept r).arcServeHit r w l').reply _ _ _
    · exact ((sound.arcAccept r).arcServeHit r w l').reply _ _ _
  | refetch => exact sound.arcPrimary r
  | spoiled raw =>
    dsimp only
    split
    · exact ((sound.arcAccept r).dramWrite _ _).reply _ _ _
    · exact sound.reply _ _ _

theorem MemAlike.arcRequest (h : MemAlike s t) (r : ArcReq) : MemAlike (arcRequest s r) (arcRequest t r) := by
  unfold Machine.arcRequest
  rw [h.stagingUsable, h.missIndex, h.miss, h.arcFind]
  split
  · exact h.reply _ _ _
  · split
    · split
      · split
        · exact (h.arcAccept r).arcMerge r _
        · exact h.arcWait r
      · exact h
    · split
      · exact h.arcHit r _ _
      · exact h.arcPrimary r

theorem MemAlike.arcRetry (h : MemAlike s t) (b : Nat) : MemAlike (arcRetry s b) (arcRetry t b) := by
  unfold Machine.arcRetry
  rw [h.waiting]
  exact (h.setArcWaiting b []).foldl _ (fun _ _ r k => k.arcRequest r)

theorem MemAlike.arcLandRetry (h : MemAlike s t) (b i : Nat) : MemAlike (arcLandRetry s b i) (arcLandRetry t b i) :=
  (h.arcLand b i).arcRetry b

theorem MemAlike.arcRoom (h : MemAlike s t) (fuel b : Nat) : MemAlike (arcRoom fuel s b) (arcRoom fuel t b) := by
  induction fuel generalizing s t with
  | zero => exact h
  | succ fuel ih =>
    unfold Machine.arcRoom
    rw [h.miss]
    split
    · exact h
    · exact ih (MemAlike.arcLandRetry (h.fput rfl 1) b 0)

theorem MemAlike.arcJoin (h : MemAlike s t) (a : Nat) : MemAlike (arcJoin s a) (arcJoin t a) := by
  unfold Machine.arcJoin
  rw [h.missIndex, h.miss]
  split
  · split
    · split
      · exact h
      · exact MemAlike.arcLandRetry (h.fput rfl 1) _ _
    · exact h
  · exact h

theorem MemAlike.arcFinish (h : MemAlike s t) (a : Nat) :
    AnswersAlike (arcFinish s a) (arcFinish t a) := by
  unfold Machine.arcFinish
  rw [h.missIndex]
  split
  · rename_i i _
    have landed := h.arcLand (arcBank a) i
    dsimp only
    rw [landed.same (·.arcade.answers) (fun _ _ => rfl)]
    split
    · exact ⟨landed.arcRetry _, rfl⟩
    · exact ⟨landed.arcRetry _, rfl⟩
  · exact ⟨h, rfl⟩

theorem MemAlike.arcMiss (h : MemAlike s t) (r : ArcReq) :
    AnswersAlike (arcMiss s r) (arcMiss t r) := by
  unfold Machine.arcMiss
  rw [h.waiting]
  exact ((h.arcRoom _ _).arcTakeReg r).arcFinish r.addr

theorem MemAlike.arcDo (h : MemAlike s t) (r : ArcReq) : AnswersAlike (arcDo s r) (arcDo t r) := by
  have joined := h.arcJoin r.addr
  unfold Machine.arcDo
  dsimp only
  rw [joined.missIndex, joined.arcFind]
  split
  · exact (joined.arcMerge r _).arcFinish r.addr
  · split
    · exact joined.arcMiss r
    next w l _ =>
      obtain ⟨u, v, met, soundS, soundT, sound⟩ := (joined.arcSound r.addr w l).parts
      rw [soundS, soundT]
      cases met with
      | held l' => exact ⟨sound.arcServeHit r w l', rfl⟩
      | refetch => exact sound.arcMiss r
      | spoiled raw =>
        dsimp only
        split
        · exact ⟨sound.dramWrite _ _, rfl⟩
        · exact ⟨sound, rfl⟩

/-! ### An access to memory (R15, R16, R348, R349) -/

/-- What memory reads does not depend on what it does not see. -/
theorem MemAlike.memRead (h : MemAlike s t) (cls a n : Nat) : (memRead t cls a n).2 = (memRead s cls a n).2 := by
  have answers : normalOk t a n false = normalOk s a n false := by
    unfold normalOk
    rw [h.stagingUsable, h.stagingUsable]
  unfold Machine.memRead
  rw [answers, h.same tcmPeek (fun _ _ => rfl)]
  split
  · rfl
  · split
    · rfl
    · rfl
    · refine congrArg some (AnswersAlike.foldl (p := (s, [], false)) (q := (t, [], false)) ⟨h, rfl⟩ _ ?_).2
      intro u v read pc k
      obtain ⟨u', v', line, lineS, lineT, k'⟩ := (k.arcDo ⟨cls, pc.1, none, 0⟩).parts
      dsimp only [arcReadLine]
      rw [lineS, lineT]
      exact ⟨k', rfl⟩

end
end Machine
end Sys2Proof
end

section
/-! SUPPORT. Write slots, from the packet to the record, and the statement about them (O13). -/

namespace Sys2Proof
namespace Machine

/-! ### The slots of a write cell -/

section
variable {s : State} {n : Head} {p : WSlot → Bool} {pre post : List WSlot} {q : WSlot}

theorem wc_modWc (s : State) (n : Head) (f : WriteCell → WriteCell) : (modWc s n f).wc[n] = f s.wc[n] :=
  Vector.getElem_set_self n.isLt

theorem wc_cellFill (s : State) (n : Head) : (cellFill s n).wc = s.wc := rfl

theorem wc_streamLive (s : State) (n : Head) : (streamLive s n).wc = s.wc := rfl

theorem wc_count (s : State) (k : Nat) : (count s k).wc = s.wc := rfl

theorem counter_cellFill (s : State) (n : Head) (k : Nat) : counter (cellFill s n) k = counter s k := rfl

theorem counter_streamLive (s : State) (n : Head) (k : Nat) : counter (streamLive s n) k = counter s k := rfl

theorem wc_slotDropSamples (s : State) (n : Head) :
    (slotDropSamples s n).wc[n] =
      { s.wc[n] with
        biasS := s.wc[n].biasKeep, midS := s.wc[n].midKeep, bias := s.wc[n].biasWas, mid := s.wc[n].midWas } :=
  wc_modWc s n _

/-- The first slot that a test picks. -/
theorem find_first {l : List WSlot} (slots : l = pre ++ q :: post) (before : pre.all (fun x => !(p x)) = true) (hq : p q = true) :
    l.find? p = some q := by
  have none : pre.find? p = none := by simpa using before
  rw [slots, List.find?_append, none, Option.none_or, List.find?_cons_of_pos hq]

/-- One turn of the search for the first slot that a test picks: what has been gone through, and whether it was found. -/
def slotTurn (p : WSlot → Bool) (f : WSlot → WSlot) (acc : List WSlot × Bool) (x : WSlot) : List WSlot × Bool :=
  if !acc.2 && p x then (acc.1 ++ [f x], true) else (acc.1 ++ [x], acc.2)

theorem foldl_slotTurn_found (p : WSlot → Bool) (f : WSlot → WSlot) (l acc : List WSlot) :
    l.foldl (slotTurn p f) (acc, true) = (acc ++ l, true) := by
  induction l generalizing acc with
  | nil => simp
  | cons x l ih => rw [List.foldl_cons, slotTurn, Bool.not_true, Bool.false_and, if_neg Bool.false_ne_true, ih, List.append_assoc,
      List.singleton_append]

theorem foldl_slotTurn_before (before : pre.all (fun x => !(p x)) = true) (f : WSlot → WSlot) (acc : List WSlot) :
    pre.foldl (slotTurn p f) (acc, false) = (acc ++ pre, false) := by
  induction pre generalizing acc with
  | nil => simp
  | cons x l ih =>
    rw [List.all_cons, Bool.and_eq_true, Bool.not_eq_true'] at before
    obtain ⟨passed, before⟩ := before
    rw [List.foldl_cons, slotTurn, passed, Bool.and_false, if_neg Bool.false_ne_true, ih before, List.append_assoc,
      List.singleton_append]

/-- A change of the first slot that a test picks leaves the rest of the cell. -/
theorem wc_modSlot (slots : s.wc[n].slots = pre ++ q :: post) (before : pre.all (fun x => !(p x)) = true) (hq : p q = true)
    (f : WSlot → WSlot) : (modSlot s n p f).wc[n] = { s.wc[n] with slots := pre ++ f q :: post } := by
  have changed : (s.wc[n].slots.foldl (slotTurn p f) ([], false)).1 = pre ++ f q :: post := by
    rw [slots, List.foldl_append, foldl_slotTurn_before before, List.foldl_cons, slotTurn, hq, Bool.not_false, Bool.and_self,
      if_pos rfl, foldl_slotTurn_found, List.nil_append, List.append_assoc, List.singleton_append]
  exact (wc_modWc s n _).trans (congrArg (fun l => { s.wc[n] with slots := l }) changed)

/-! ### Bits of a field of many -/

/-- One bit of a field of many reads as it was written. -/
theorem fbitAt_fputAt_same (s : State) {f : Fld} {i : Nat} (hi : f.lo + i ≤ f.hi) (hf : f.hi < 32) (b : Bool) :
    fbitAt (fputAt s f i b) f i = b := by
  have ok : (⟨f.addr, f.lo + i, f.lo + i⟩ : Fld).ok = true := by
    simp only [Fld.ok, Bool.and_eq_true, decide_eq_true_eq]
    omega
  have within : i < f.hi + 1 - f.lo := by omega
  have place : f.lo + i ≤ f.lo + i + 1 := Nat.le_succ _
  unfold fbitAt fputAt
  rw [fget, rd_fput_toNat _ _ _ ok, testBit_bitsOf, testBit_putBits _ _ _ _ _ place]
  cases b <;> simp [within]

/-- A bit of LIVE leaves the other fields of WC_STAT (R201). -/
theorem fget_wcLive (s : State) (n : Head) {bit : Nat} (hb : bit < 8) (on : Bool) {f : Fld} (hf : f.hi < 16 ∨ 24 ≤ f.lo) :
    fget (wcLive s n bit on) f = fget s f := by
  have ok : (⟨regWC_STAT n, 16 + bit, 16 + bit⟩ : Fld).ok = true := by
    simp only [Fld.ok, Bool.and_eq_true, decide_eq_true_eq]
    omega
  refine fget_fput_apart s _ f _ ok (apart_of_bits ?_)
  rw [Bool.or_eq_true, decide_eq_true_iff, decide_eq_true_iff]
  exact hf.symm.imp (Nat.lt_of_lt_of_le (Nat.add_lt_add_left hb 16)) (Nat.lt_of_lt_of_le · (Nat.le_add_right _ _))

theorem fget_streamLive (s : State) (n : Head) {f : Fld} (hf : f.hi < 16 ∨ 24 ≤ f.lo) : fget (streamLive s n) f = fget s f :=
  fget_wcLive s n (by decide) _ hf

theorem regsBut_wcLive {l : List Nat} {t : State} (h : regsBut s t l) (hl : regWC_STAT n ∈ l) (bit : Nat) (on : Bool) :
    regsBut s (wcLive t n bit on) l :=
  regsBut_fput _ h hl

theorem regsBut_streamLive {l : List Nat} {t : State} (h : regsBut s t l) (hl : regWC_STAT n ∈ l) :
    regsBut s (streamLive t n) l :=
  regsBut_wcLive h hl _ _

/-! ### A slot that is stopped (R173, R188, R189) -/

/-- What a cell puts out when its output falls to read level at the next bit of the slot that runs. -/
def outputCut (s : State) (n : Head) : List (Level × Int) :=
  match s.wc[n].slots.find? (fun x => x.phase == .running) with
  | some q => pulsesCut s n q (slotPos s n q + 1)
  | none => s.wc[n].pulses

/-- A slot as a source that stops its cell leaves it. -/
def slotStopped (s : State) (n : Head) (src wstat : Nat) (q : WSlot) : WSlot :=
  if q.phase = .running then
    if anyPulse (outputCut s n) then
      { q with phase := .stopped, wstat := wstat, stopBit := Nat.min 34112 (slotPos s n q + 1), inh := q.inh ||| src }
    else { q with phase := .stopped, wstat := 1, stopBit := 0, inh := q.inh ||| src }
  else if q.phase = .stopped then { q with inh := q.inh ||| src }
  else q

theorem wc_slotStop (s : State) (n : Head) (src wstat : Nat) :
    (slotStop s n src wstat).wc[n] =
      { s.wc[n] with pulses := outputCut s n, slots := s.wc[n].slots.map (slotStopped s n src wstat) } :=
  Vector.getElem_set_self n.isLt

theorem slotStopped_phase (s : State) (n : Head) (src wstat : Nat) (q : WSlot) :
    (slotStopped s n src wstat q).phase ≠ .running := by
  unfold slotStopped
  split
  · split <;> exact WPhase.noConfusion
  next idle => split <;> exact idle

/-- After a stop no slot runs. -/
theorem slotStop_none_running (s : State) (n : Head) (src wstat : Nat) :
    (slotStop s n src wstat).wc[n].slots.all (fun x => x.phase != .running) = true := by
  rw [wc_slotStop, List.all_map, List.all_eq_true]
  exact fun q _ => bne_iff_ne.mpr (slotStopped_phase s n src wstat q)

theorem outputCut_running (running : s.wc[n].slots.find? (fun x => x.phase == .running) = some q) :
    outputCut s n = pulsesCut s n q (slotPos s n q + 1) := by
  rw [outputCut, running]

/-- Where a pulse of the slot that runs lies before the next bit, it ends there with the WSTAT of its stop. -/
theorem mem_slotStop (held : q ∈ s.wc[n].slots) (running : s.wc[n].slots.find? (fun x => x.phase == .running) = some q)
    (begun : anyPulse (pulsesCut s n q (slotPos s n q + 1)) = true) (src wstat : Nat) :
    { q with phase := .stopped, wstat := wstat, stopBit := Nat.min 34112 (slotPos s n q + 1), inh := q.inh ||| src } ∈
      (slotStop s n src wstat).wc[n].slots := by
  have phase : q.phase = .running := beq_iff_eq.mp (List.find?_some running :)
  rw [wc_slotStop]
  refine List.mem_map.mpr ⟨q, held, ?_⟩
  rw [slotStopped, if_pos phase, outputCut_running running, if_pos begun]

/-! ### A slot that is done (R194, R336) -/

theorem slotEnded_quiet {og : State} (h : Quiet og s) (n : Head) (pta : Word) (sector : Nat) :
    Quiet og (slotEnded s n pta sector) := by
  have noted (f : HeadBlk → HeadBlk) : Quiet og (modHb s n f) := h.same (fun _ => rfl) (fun _ => rfl)
  exact stepCheck_quiet (noted _) n

theorem wc_slotEnded (s : State) (n : Head) (pta : Word) (sector : Nat) : (slotEnded s n pta sector).wc = s.wc :=
  (slotEnded_kept (Kept.same 0x8000001002d7e30e8 s) rfl n pta sector).only .wc rfl

theorem wc_fifoPush (s : State) (f : Fin 14) (r : BitVec 256) : (fifoPush s f r).wc = s.wc :=
  (fifoPush_kept (Kept.same 0x8000000000d7e30e8 s) rfl f r).only .wc rfl

/-- A slot whose record is written leaves. -/
theorem slots_slotRecord (s : State) (n : Head) (q : WSlot) (vstat : Nat) (r : SectorRes) :
    (slotRecord s n q vstat r).wc[n].slots = s.wc[n].slots.filter (fun x => !(x.pta == q.pta && x.sector == q.sector)) := by
  obtain ⟨u, pushed, wc⟩ : ∃ u, slotRecord s n q vstat r = slotEnded (modWc u n (fun w =>
      { w with slots := w.slots.filter (fun x => !(x.pta == q.pta && x.sector == q.sector)) })) n q.pta q.sector ∧
      u.wc = s.wc := by
    refine ⟨_, rfl, ?_⟩
    split
    · exact wc_fifoPush s _ _
    · exact wc_fifoPush s _ _
  rw [pushed, wc_slotEnded, wc_modWc, wc]

/-- A slot without a read-back is counted by no result. -/
theorem counter_slotRecord_unverified (s : State) (n : Head) (q : WSlot) (r : SectorRes) {k : Nat} (hk : k < 409) :
    counter (slotRecord s n q 4 r) k = counter s k := by
  have pushed : Quiet s (fifoPush s (writeFifo n) (writeRecord n.val q 4 r q.t1)) := fifoPush_quiet (Quiet.refl s) _ _
  have left (f : WriteCell → WriteCell) : Quiet s (modWc (fifoPush s (writeFifo n) (writeRecord n.val q 4 r q.t1)) n f) :=
    pushed.same (fun _ => rfl) (fun _ => rfl)
  exact (slotEnded_quiet (left _) n q.pta q.sector).counters k hk

/-- A read-back's result is counted PASS or as a failure. -/
theorem counter_slotRecord_verified (s : State) (n : Head) (q : WSlot) {vstat : Nat} (hv : vstat ≠ 4) (r : SectorRes) :
    counter (slotRecord s n q vstat r) (192 + 18 * n.val + (if vstat = 0 then 10 else 11)) =
      counter s (192 + 18 * n.val + (if vstat = 0 then 10 else 11)) + 1 := by
  generalize hk : 192 + 18 * n.val + (if vstat = 0 then 10 else 11) = k
  have below : k < 409 := by
    have := n.isLt
    rw [← hk]
    split <;> omega
  obtain ⟨u, pushed⟩ : ∃ u, u = fifoPush s (writeFifo n) (writeRecord n.val q vstat r q.t1) := ⟨_, rfl⟩
  have quiet : Quiet s u := pushed ▸ fifoPush_quiet (Quiet.refl s) _ _
  have left (f : WriteCell → WriteCell) : Quiet (count u k) (modWc (count u k) n f) :=
    (Quiet.refl _).same (fun _ => rfl) (fun _ => rfl)
  unfold slotRecord
  dsimp only
  rw [if_neg hv, hk, ← pushed]
  calc counter (slotEnded (modWc (count u k) n _) n q.pta q.sector) k
      = counter (count u k) k := (slotEnded_quiet (left _) n q.pta q.sector).counters k below
    _ = counter u k + 1 := counter_count_same u k
    _ = counter s k + 1 := by rw [quiet.counters k below]

/-- A judged result is never 'not verified'. -/
theorem verifyJudge_ne_four (s : State) (n : Nat) (r : SectorRes) : verifyJudge s n r ≠ 4 := by
  unfold verifyJudge
  dsimp only
  repeat' split
  all_goals decide

/-! ### The commands -/

theorem exec_encoderPacket {bs : List Byte} (first : s.wc[n].slots.find? slotUnbuilt = some q)
    (read : (memRead s 4 (payloadAt q.base q.sector) 4096).2 = some (bs, false)) :
    exec (.encoderPacket n) s = .next (cellFill (modSlot (memRead s 4 (payloadAt q.base q.sector) 4096).1 n slotUnbuilt
      (fun x => { x with entries := writePacket x bs })) n) := by
  have parts := eq_mk_of_snd read
  show Host.Outcome.next (encoderPacket s n) = _
  unfold encoderPacket
  rw [first]
  dsimp only
  rw [parts]

theorem wc_memRead (s : State) (cls a k : Nat) : (memRead s cls a k).1.wc = s.wc :=
  (memRead_kept (Kept.same 0x800000000047e30e8 s) rfl cls a k).only .wc rfl

/-- A slot as it runs from its first edge on. -/
def slotRuns (s : State) (n : Head) (q : WSlot) : State :=
  cellFill (modWc (modSlot s n slotArmed (fun q => { q with phase := .running, t0 := s.chipTime, wstat := 0 })) n (fun w =>
    { w with
      biasKeep := w.biasS, midKeep := w.midS, biasWas := w.bias, midWas := w.mid, biasNew := false, midNew := false
      pulses := pulsesOf s n q })) n

theorem wc_slotRuns (slots : s.wc[n].slots = pre ++ q :: post) (before : pre.all (fun x => !(slotArmed x)) = true)
    (armed : slotArmed q = true) :
    (slotRuns s n q).wc[n].slots = pre ++ { q with phase := .running, t0 := s.chipTime, wstat := 0 } :: post ∧
      (slotRuns s n q).wc[n].pulses = pulsesOf s n q := by
  rw [slotRuns, wc_cellFill, wc_modWc, wc_modSlot slots before armed]
  exact ⟨rfl, rfl⟩

theorem exec_writeSlotStart_runs (first : s.wc[n].slots.find? slotArmed = some q) (free : startBlocks s n q = 0)
    (enabled : fget s (fldWC_CTL_ENABLE n) = 1) (inhibited : fget s (fldWC_CTL_INHIBIT n) = 0)
    (unverified : fget s (fldWC_CTL_VFY_EN n) = 0) (held : fbitAt s fldFM_ISOLATE_ISOLATED n.val = false) :
    exec (.writeSlotStart n) s = .next (slotRuns s n q) := by
  have enable : fbit s (fldWC_CTL_ENABLE n) = true := by rw [fbit, enabled]; rfl
  have inhibit : fbit s (fldWC_CTL_INHIBIT n) = false := by rw [fbit, inhibited]; rfl
  have verify : fbit s (fldWC_CTL_VFY_EN n) = false := by rw [fbit, unverified]; rfl
  show Host.Outcome.next (writeSlotStart s n) = _
  unfold writeSlotStart
  rw [first]
  dsimp only
  rw [free, enable, inhibit, held, verify, if_neg (by simp), if_neg (by simp)]
  rfl

/-- A slot that ends NOT_STARTED, before TRIP_SRC takes what blocked it. -/
def slotBlocked (s : State) (n : Head) (blocks : Nat) : State :=
  cellFill (modSlot s n slotArmed (fun q => { q with phase := .stopped, wstat := 1, stopBit := 0, inh := blocks })) n

theorem exec_writeSlotStart_blocked (first : s.wc[n].slots.find? slotArmed = some q) (blocked : startBlocks s n q ≠ 0) :
    exec (.writeSlotStart n) s = .next (fput (slotBlocked s n (startBlocks s n q)) (fldWC_STAT_TRIP_SRC n)
      (fget s (fldWC_STAT_TRIP_SRC n) ||| startBlocks s n q)) := by
  show Host.Outcome.next (writeSlotStart s n) = _
  unfold writeSlotStart
  rw [first]
  dsimp only
  rw [if_pos (.inl blocked)]
  rfl

theorem exec_writeUnderrun (running : s.wc[n].slots.find? (fun x => x.phase == .running) = some q) :
    exec (.writeUnderrun n) s =
      .next (streamLive (slotDropSamples (fputAt (slotStop s n 64 3) (fldWC_STAT_TRIP_SRC n) 6 true) n) n) := by
  have some_runs : s.wc[n].slots.any (fun x => x.phase == .running) = true :=
    List.any_eq_true.mpr ⟨q, List.mem_of_find?_eq_some running, (List.find?_some running :)⟩
  exact congrArg Host.Outcome.next (if_pos some_runs)

/-- A cell whose slot has put out its last bit, with the slot counted as written. -/
def slotWritten (s : State) (n : Head) (q : WSlot) : State :=
  cellFill (count (modWc s n (fun w => { w with pulses := pulsesCut s n q 34112 })) (192 + 18 * n.val + 6)) n

theorem slots_slotWritten (s : State) (n : Head) (q : WSlot) : (slotWritten s n q).wc[n].slots = s.wc[n].slots := by
  rw [slotWritten, wc_cellFill, wc_count, wc_modWc]

theorem counter_slotWritten (s : State) (n : Head) (q : WSlot) :
    counter (slotWritten s n q) (192 + 18 * n.val + 6) = counter s (192 + 18 * n.val + 6) + 1 :=
  counter_count_same (modWc s n (fun w => { w with pulses := pulsesCut s n q 34112 })) _

theorem changesOnly_slotWritten (s : State) (n : Head) (q : WSlot) :
    changesOnly [.wc, .counters, .wraps, .hb] s (slotWritten s n q) :=
  (cellFill_kept (count_kept (modWc_kept (Kept.same 0x10000020003000 s) rfl _ _) rfl _) rfl _).changesOnly_of_mask rfl

/-- A slot that ran to its last bit and waits for its read-back. -/
def slotWaits (s : State) (n : Head) (q : WSlot) : State :=
  cellFill (modSlot (slotWritten s n q) n slotBegun
    (fun _ => { q with phase := .verifying, wstat := 0, stopBit := 34112, t1 := s.chipTime })) n

theorem changesOnly_slotWaits (s : State) (n : Head) (q : WSlot) :
    changesOnly [.wc, .counters, .wraps, .hb] s (slotWaits s n q) :=
  changesOnly_trans (changesOnly_slotWritten s n q)
    ((cellFill_kept (modSlot_kept (Kept.same 0x10000020000000 _) rfl _ _ _) rfl _).changesOnly_of_mask rfl)

theorem exec_writeSlotEnd_verifies (first : s.wc[n].slots.find? slotBegun = some q) (running : q.phase = .running)
    (written : q.oblit = false) (verified : fget s (fldWC_CTL_VFY_EN n) = 1) :
    exec (.writeSlotEnd n) s = .next (slotWaits s n q) := by
  have verify : fbit s (fldWC_CTL_VFY_EN n) = true := by rw [fbit, verified]; rfl
  show Host.Outcome.next (writeSlotEnd s n) = _
  unfold writeSlotEnd
  rw [first]
  dsimp only
  rw [if_pos running, beq_iff_eq.mpr running, if_pos ⟨rfl, by rw [written]; exact Bool.false_ne_true, verify⟩]
  rfl

/-- A slot that was stopped is counted by its WSTAT, and its record is written. -/
theorem exec_writeSlotEnd_stopped (first : s.wc[n].slots.find? slotBegun = some q) (stopped : q.phase = .stopped)
    (short : 0 < q.wstat) :
    ∃ u, u.wc[n].slots = s.wc[n].slots ∧
      (∀ k, counter u k = counter (count s (192 + 18 * n.val + 6 + q.wstat)) k) ∧
      exec (.writeSlotEnd n) s =
        .next (streamLive (cellFill (slotRecord u n { q with t1 := s.chipTime } 4 noResult) n) n) := by
  have idle : q.phase ≠ .running := by rw [stopped]; decide
  refine ⟨cellFill (if q.wstat = 2 ∨ q.wstat = 3 then slotDropSamples (count s (192 + 18 * n.val + 6 + q.wstat)) n
    else count s (192 + 18 * n.val + 6 + q.wstat)) n, ?slots, ?counters, ?run⟩
  case slots =>
    rw [wc_cellFill]
    split
    · rw [wc_slotDropSamples]
      rfl
    · rfl
  case counters =>
    intro k
    split <;> rfl
  case run =>
    have short' : ¬ (q.wstat = 0 ∧ ¬ q.oblit = true ∧ fbit s (fldWC_CTL_VFY_EN n) = true) := fun h => Nat.ne_of_gt short h.1
    show Host.Outcome.next (writeSlotEnd s n) = _
    unfold writeSlotEnd
    rw [first]
    dsimp only
    rw [if_neg idle, beq_false_of_ne idle]
    dsimp only [sif]
    rw [if_neg short']
    rfl

theorem exec_verifyResult {r : SectorRes}
    (first : s.wc[n].slots.find? (fun q => q.phase == .verifying && q.vres.isSome) = some q) (result : q.vres = some r) :
    exec (.verifyResult n) s =
      .next (slotRecord s n q (verifyJudge s n.val r) (if r.data then r else { r with code := 1 })) := by
  show Host.Outcome.next (verifyResult s n) = _
  unfold verifyResult
  rw [first]
  dsimp only
  rw [result]

end

/-! ### The statement -/

/-- Settles O13: each command is one of the equations above; what a stop and a record leave are lemmas of their own. -/
theorem encoderAndWriteSlots : Obligations.EncoderAndWriteSlots := by
  refine ⟨?builds, ?starts, ?blocked, ?underruns, ?waits, ?leaves, ?judged⟩
  case builds =>
    intro s n pre post q bs slots before unbuilt read
    refine ⟨_, exec_encoderPacket (find_first slots before unbuilt) read, ?_⟩
    have slots' : (memRead s 4 (payloadAt q.base q.sector) 4096).1.wc[n].slots = pre ++ q :: post := by rw [wc_memRead, slots]
    exact congrArg WriteCell.slots (wc_modSlot slots' before unbuilt _)
  case starts =>
    intro s n pre post q slots before armed free enabled inhibited unverified held
    obtain ⟨slots', pulses⟩ := wc_slotRuns slots before armed
    refine ⟨_, exec_writeSlotStart_runs (find_first slots before armed) free enabled inhibited unverified held,
      slots', pulses, ?_⟩
    exact (cellFill_kept (modWc_kept (modSlot_kept (Kept.same 0x10000020000000 s) rfl _ _ _) rfl _ _) rfl _).changesOnly_of_mask rfl
  case blocked =>
    intro s n pre post q slots before armed blocked
    refine ⟨_, exec_writeSlotStart_blocked (find_first slots before armed) blocked, ?_, ?_, ?_, ?_⟩
    · exact congrArg WriteCell.slots (wc_modSlot slots before armed _)
    · exact fget_fput_same _ _ _ rfl
    · exact regsBut_fput _ (regsBut_same s _) (List.mem_singleton.mpr rfl)
    · have stopped : Kept 0x10000020000008 s (slotBlocked s n (startBlocks s n q)) :=
        cellFill_kept (modSlot_kept (Kept.same _ s) rfl _ _ _) rfl _
      exact (fput_kept stopped rfl _ _).changesOnly_of_mask rfl
  case underruns =>
    intro s n q held running begun
    have run := exec_writeUnderrun running
    have stopped : (slotDropSamples (fputAt (slotStop s n 64 3) (fldWC_STAT_TRIP_SRC n) 6 true) n).wc[n] =
        { s.wc[n] with
          pulses := outputCut s n, slots := (slotStop s n 64 3).wc[n].slots
          biasS := s.wc[n].biasKeep, midS := s.wc[n].midKeep, bias := s.wc[n].biasWas, mid := s.wc[n].midWas } := by
      rw [wc_slotDropSamples, fputAt, fput_wc, wc_slotStop]
    have here : regWC_STAT n ∈ [regWC_STAT n] := List.mem_singleton.mpr rfl
    refine ⟨_, run, ?member, ?idle, ?tripped, ?pulses, ?samples, ?group, ?regs, ?frame⟩
    case member =>
      rw [wc_streamLive, stopped]
      exact mem_slotStop held running begun 64 3
    case idle =>
      rw [wc_streamLive, stopped]
      exact slotStop_none_running s n 64 3
    case tripped =>
      refine (congrArg (Nat.testBit · 6) (fget_streamLive _ n (.inl (show 7 < 16 by decide)))).trans ?_
      exact fbitAt_fputAt_same (slotStop s n 64 3) (show 0 + 6 ≤ 7 by decide) (show 7 < 32 by decide) true
    case pulses =>
      rw [wc_streamLive, stopped]
      exact outputCut_running running
    case samples => rw [wc_streamLive, stopped]
    case group => rw [wc_streamLive, stopped]
    case regs =>
      have tripped : regsBut s (fputAt (slotStop s n 64 3) (fldWC_STAT_TRIP_SRC n) 6 true) [regWC_STAT n] :=
        regsBut_fput _ (regsBut_same s _) here
      exact regsBut_streamLive (t := slotDropSamples _ n) tripped here
    case frame => exact (execWriteUnderrun_kept run).changesOnly_of_mask rfl
  case waits =>
    intro s n pre post q slots before running written verified
    have begun : slotBegun q = true := by rw [slotBegun, running]; rfl
    have slots' : (slotWritten s n q).wc[n].slots = pre ++ q :: post := (slots_slotWritten s n q).trans slots
    refine ⟨_, exec_writeSlotEnd_verifies (find_first slots before begun) running written verified, ?_,
      counter_slotWritten s n q, changesOnly_slotWaits s n q⟩
    rw [slotWaits, wc_cellFill, wc_modSlot slots' before begun]
  case leaves =>
    intro s n q first stopped short
    obtain ⟨u, slots, counters, run⟩ := exec_writeSlotEnd_stopped first stopped short
    refine ⟨_, run, ?_, fun few => ?_⟩
    · rw [wc_streamLive, wc_cellFill, slots_slotRecord, slots]
    · have below : 192 + 18 * n.val + 6 + q.wstat < 409 := by
        have := n.isLt
        omega
      rw [counter_streamLive, counter_cellFill, counter_slotRecord_unverified u n _ noResult below, counters, counter_count_same]
  case judged =>
    intro s n q r first result
    have counted := counter_slotRecord_verified s n q (verifyJudge_ne_four s n.val r) (if r.data then r else { r with code := 1 })
    refine ⟨_, exec_verifyResult first result, slots_slotRecord s n q _ _, fun pass => ?_, fun failed => ?_⟩
    · rwa [if_pos pass] at counted
    · rwa [if_neg failed] at counted

end Machine
end Sys2Proof
end

section
/-! SUPPORT. Write guards, the inhibit latch, table sets and power control, and the statement about them (O14). -/

namespace Sys2Proof
namespace Machine

section
variable {s : State} {n : Head}

/-! ### The registers of a write cell (R201) -/

/-- The registers of WC_STAT that an inhibit writes: its status and the time of its trip. -/
def tripRegs (n : Head) : List Nat := [regWC_STAT n, regWC_TRIP_TIME_LO n, regWC_TRIP_TIME_HI n]

theorem regsBut_mono {t : State} {l m : List Nat} (h : regsBut s t l) (hl : ∀ a ∈ l, a ∈ m) : regsBut s t m :=
  fun a ha => h a (fun h' => ha (hl a h'))

theorem regsBut_trans {t u : State} {l : List Nat} (h : regsBut s t l) (k : regsBut t u l) : regsBut s u l :=
  fun a ha => (k a ha).trans (h a ha)

theorem fget_of_regsBut {t : State} {l : List Nat} (h : regsBut s t l) {f : Fld} (hf : f.addr ∉ l) : fget t f = fget s f :=
  fget_of_rd (h f.addr hf)

theorem contains_addOnce (l : List Nat) (x : Nat) : (addOnce l x).contains x = true := by
  unfold addOnce
  split
  next held => exact held
  · simp

/-! ### An inhibit source that acts (R189, R192) -/

/-- What an inhibit by a source that holds the latch leaves of a cell and its registers. -/
structure Latched (s : State) (n : Head) (bit : Nat) (t : State) : Prop where
  tripped : fbitAt t (fldWC_STAT_TRIP_SRC n) bit = true
  latch : fget t (fldWC_STAT_LATCH n) = 1
  cell : t.wc[n] = { (slotStop s n (2 ^ bit) 2).wc[n] with latch := addOnce s.wc[n].latch bit }
  regs : regsBut s t (tripRegs n)

theorem wcInhibit_latches (s : State) (n : Head) {bit : Nat} (holds : latchSources.contains bit = true) :
    Latched s n bit (wcInhibit s n bit) := by
  have hb : bit < 8 := by
    revert holds
    simp only [latchSources, List.contains_iff_mem, List.mem_cons, List.not_mem_nil, or_false]
    omega
  have stat : regWC_STAT n ∈ tripRegs n := List.mem_cons_self
  obtain ⟨u, hu⟩ : ∃ u, u = modWc (fputAt (slotStop s n (2 ^ bit) 2) (fldWC_STAT_TRIP_SRC n) bit true) n
      (fun w => { w with latch := addOnce w.latch bit }) := ⟨_, rfl⟩
  have shape : wcInhibit s n bit = fset u (fldWC_STAT_LATCH n) ∨
      wcInhibit s n bit = putTime (fset u (fldWC_STAT_LATCH n)) (regWC_TRIP_TIME_LO n) (regWC_TRIP_TIME_HI n) s.chipTime := by
    unfold wcInhibit
    dsimp only
    rw [if_pos holds, ← hu]
    split
    · exact .inl rfl
    · exact .inr rfl
  have cell : u.wc[n] = { (slotStop s n (2 ^ bit) 2).wc[n] with latch := addOnce s.wc[n].latch bit } := by
    rw [hu, wc_modWc, fputAt, fput_wc, wc_slotStop]
  have regs : regsBut s u (tripRegs n) := by
    rw [hu]
    exact regsBut_fput _ (regsBut_same s _) stat
  have set : Latched s n bit (fset u (fldWC_STAT_LATCH n)) := by
    refine ⟨?_, fget_fset_same u rfl rfl, cell, regsBut_fput 1 regs stat⟩
    refine (congrArg (Nat.testBit · bit) (fget_fput_apart u _ (fldWC_STAT_TRIP_SRC n) 1 rfl (apart_of_bits rfl))).trans ?_
    rw [hu]
    refine fbitAt_fputAt_same (slotStop s n (2 ^ bit) 2) (f := fldWC_STAT_TRIP_SRC n) ?_ (show 7 < 32 by decide) true
    show 0 + bit ≤ 7
    omega
  rcases shape with shape | shape
  · rw [shape]
    exact set
  · have apart : regWC_STAT n ≠ regWC_TRIP_TIME_LO n ∧ regWC_STAT n ≠ regWC_TRIP_TIME_HI n := by
      simp [regWC_STAT, regWC_TRIP_TIME_LO, regWC_TRIP_TIME_HI]
    have kept {f : Fld} (hf : f.addr = regWC_STAT n) : fget (wcInhibit s n bit) f = fget (fset u (fldWC_STAT_LATCH n)) f := by
      rw [shape, putTime, fget_wr_other _ _ _ _ (hf ▸ apart.2), fget_wr_other _ _ _ _ (hf ▸ apart.1)]
    refine ⟨?_, (kept rfl).trans set.latch, ?_, ?_⟩
    · rw [fbitAt, kept rfl]
      exact set.tripped
    · rw [shape]
      exact set.cell
    · rw [shape]
      exact regsBut_wr _ (regsBut_wr _ set.regs (by simp [tripRegs])) (by simp [tripRegs])

/-- What a latch leaves stays where another source or comparator is shown. -/
theorem Latched.wcLive {bit b : Nat} {t : State} (h : Latched s n bit t) (hb : b < 8) (on : Bool) :
    Latched s n bit (wcLive t n b on) where
  tripped := by
    rw [fbitAt, fget_wcLive t n hb on (.inl (show 7 < 16 by decide))]
    exact h.tripped
  latch := (fget_wcLive t n hb on (.inr (show 24 ≤ 30 by decide))).trans h.latch
  cell := h.cell
  regs := regsBut_wcLive h.regs List.mem_cons_self b on

theorem Latched.guardLive {bit : Nat} {t : State} (h : Latched s n bit t) : Latched s n bit (guardLive t n) :=
  ((h.wcLive (by decide) _).wcLive (by decide) _).wcLive (by decide) _

theorem Latched.count {bit : Nat} {t : State} (h : Latched s n bit t) (k : Nat) : Latched s n bit (count t k) :=
  ⟨h.tripped, h.latch, h.cell, h.regs⟩

theorem Latched.none_running {bit : Nat} {t : State} (h : Latched s n bit t) :
    t.wc[n].slots.all (fun x => x.phase != .running) = true := by
  rw [h.cell]
  exact slotStop_none_running s n _ 2

theorem Latched.holds {bit : Nat} {t : State} (h : Latched s n bit t) : t.wc[n].latch.contains bit = true := by
  rw [h.cell]
  exact contains_addOnce _ _

theorem Latched.trippedGuards {bit : Nat} {t : State} (h : Latched s n bit t) : t.wc[n].tripped = s.wc[n].tripped := by
  rw [h.cell, wc_slotStop]

/-! ### Guards (R189 to R192) -/

theorem latchSources_guardBit (g : GuardSrc) : latchSources.contains (guardBit g) = true := by
  cases g <;> rfl

/-- The state in which an enabled comparator has tripped, before LIVE shows it. -/
def guardActs (s : State) (n : Head) (g : GuardSrc) : State :=
  count (wcInhibit (modWc s n (fun w => { w with tripped := addOnce w.tripped (guardNo g) })) n (guardBit g))
    (192 + 18 * n.val + 3 + guardBit g)

theorem exec_guardTrip {g : GuardSrc} {level : List Int} (head : headPresent s.variant n.val = true)
    (write : writePresent s.variant = true) (on : guardOn s n.val g = true)
    (outside : guardInside g level (guardThr s n.val g) = false) (seen : guardIgnored s n g = false) :
    exec (.guardTrip n ⟨g, level⟩) s = .next (guardLive (guardActs s n g) n) := by
  show Host.Outcome.next (guardTrip s n g level) = _
  unfold guardTrip
  rw [head, write, outside, seen, on]
  rfl

theorem exec_guardTrip_idle {g : GuardSrc} {level : List Int}
    (idle : guardInside g level (guardThr s n.val g) = true ∨ guardIgnored s n g = true) :
    exec (.guardTrip n ⟨g, level⟩) s = .next s := by
  show Host.Outcome.next (guardTrip s n g level) = _
  unfold guardTrip
  rw [if_pos]
  rcases idle with inside | ignored
  · simp [inside]
  · simp [ignored]

theorem counter_guardActs (s : State) (n : Head) (g : GuardSrc) :
    counter (guardActs s n g) (192 + 18 * n.val + 3 + guardBit g) = counter s (192 + 18 * n.val + 3 + guardBit g) + 1 := by
  have counters : (wcInhibit (modWc s n (fun w => { w with tripped := addOnce w.tripped (guardNo g) })) n (guardBit g)).counters =
      s.counters := (wcInhibit_kept (modWc_kept (Kept.same 0x10000020000008 s) rfl _ _) rfl n _).only .counters rfl
  rw [guardActs, counter_count_same, counter, counters, ← counter]

theorem fget_guardLive (s : State) (n : Head) {f : Fld} (hf : f.hi < 16 ∨ 24 ≤ f.lo) : fget (guardLive s n) f = fget s f :=
  (fget_wcLive _ n (by decide) _ hf).trans ((fget_wcLive _ n (by decide) _ hf).trans (fget_wcLive _ n (by decide) _ hf))

theorem regsBut_guardLive {t : State} {l : List Nat} (h : regsBut s t l) (hl : regWC_STAT n ∈ l) : regsBut s (guardLive t n) l :=
  regsBut_wcLive (regsBut_wcLive (regsBut_wcLive h hl _ _) hl _ _) hl _ _

theorem wc_guardLive (s : State) (n : Head) : (guardLive s n).wc = s.wc := rfl

/-- A release of the guards' sources empties the latch that only they hold. -/
theorem wcRelease_guards (held : s.wc[n].latch.all (fun b => decide (b < 3)) = true) :
    (wcRelease s n [0, 1, 2]).wc[n].latch = [] ∧ fget (wcRelease s n [0, 1, 2]) (fldWC_STAT_LATCH n) = 0 := by
  have freed : s.wc[n].latch.filter (fun b => !(([0, 1, 2] : List Nat).contains b)) = [] := by
    rw [List.filter_eq_nil_iff]
    intro b hb
    have below := of_decide_eq_true (List.all_eq_true.mp held b hb)
    have : b = 0 ∨ b = 1 ∨ b = 2 := by omega
    rcases this with rfl | rfl | rfl <;> decide
  have empty : (modWc s n (fun w =>
      { w with latch := w.latch.filter (fun b => !(([0, 1, 2] : List Nat).contains b)) })).wc[n].latch = [] := by
    rw [wc_modWc, freed]
  refine ⟨empty, ?_⟩
  unfold wcRelease
  dsimp only
  rw [empty]
  exact fget_fput_same _ _ 0 rfl

/-! ### The SOFT inhibit (R189, R201) -/

/-- A cell with INHIBIT 1, before its source acts. -/
def softWritten (s : State) (n : Head) : State := fputB s (fldWC_CTL_INHIBIT n) true

theorem exec_wcInhibitWrite_on {agent : Agent} (present : absentAt s.variant (wcBase n.val) = false)
    (head : headPresent s.variant n.val = true) (write : writePresent s.variant = true) :
    exec (.wcInhibitWrite agent n true) s =
      .next (reply (wcLive (wcInhibit (softWritten s n) n 5) n 5 true) .ok 0 []) := by
  have level : wcLevel (softWritten s n) n 5 true = wcLive (wcInhibit (softWritten s n) n 5) n 5 true := by
    have head' : headPresent (softWritten s n).variant n.val = true := head
    have write' : writePresent (softWritten s n).variant = true := write
    rw [wcLevel, head', write']
    rfl
  show Host.Outcome.next (reply (wcSoft s n true) .ok 0 []) = _
  rw [wcSoft, present, if_neg Bool.false_ne_true, ← level]
  rfl

/-! ### Currents (R183, R185) -/

theorem toNat_clampInt_le (i : Int) (m : Nat) : (clampInt i 0 m).toNat ≤ m := by
  unfold clampInt
  split
  · exact Nat.zero_le m
  · split <;> omega

theorem toNat_clampInt_natCast (i m : Nat) : (clampInt (i : Int) 0 m).toNat = Nat.min i m := by
  unfold clampInt
  show _ = min i m
  split
  · omega
  · split <;> omega

/-- I_R reads as the current put in force, limited to I_MAX. -/
theorem fget_putCurrent_I_R (s : State) (n : Head) (i : Int) :
    fget (putCurrent s n (fldWC_LD_CUR2_I_R n) i) (fldWC_LD_CUR2_I_R n) =
      (clampInt i 0 (fget s (fldWC_MPD_I_MAX n))).toNat % 2048 := by
  have apart : regWC_STAT n ≠ regWC_LD_CUR2 n := by simp [regWC_STAT, regWC_LD_CUR2]
  have limit : fget s (fldWC_MPD_I_MAX n) < 1024 := fget_lt s (fldWC_MPD_I_MAX n)
  have fits : (clampInt i 0 (fget s (fldWC_MPD_I_MAX n))).toNat < 1024 := Nat.lt_of_le_of_lt (toNat_clampInt_le _ _) limit
  rw [Nat.mod_eq_of_lt (Nat.lt_trans fits (by decide))]
  exact (sif_fset_fget_apart _ _ rfl (apart_of_addr apart)).trans (fget_fput_fits s rfl fits)

/-- A current beyond I_MAX sets PWR_LIMIT. -/
theorem fget_putCurrent_limit {i : Int} (beyond : (fget s (fldWC_MPD_I_MAX n) : Int) < i) (f : Fld) :
    fget (putCurrent s n f i) (fldWC_STAT_PWR_LIMIT n) = 1 := by
  unfold putCurrent limitCurrent
  dsimp only
  rw [decide_eq_true beyond]
  exact fget_fset_same _ rfl rfl

theorem regsBut_putCurrent {t : State} {l : List Nat} (h : regsBut s t l) {f : Fld} (hf : f.addr ∈ l) (hs : regWC_STAT n ∈ l)
    (i : Int) : regsBut s (putCurrent t n f i) l :=
  sif_keeps (regsBut s · l) (regsBut_fput _ h hf) _ _ (fun k => regsBut_fput 1 k hs)

theorem wc_putCurrent (s : State) (n : Nat) (f : Fld) (i : Int) : (putCurrent s n f i).wc = s.wc :=
  (putCurrent_kept (Kept.same 0x8 s) rfl n f i).only .wc rfl

/-- A cell with ENABLE 1 and the read loop's samples dropped, before I_R_INIT is in force. -/
def laserReady (s : State) (n : Head) : State :=
  modWc (fputB s (fldWC_CTL_ENABLE n) true) n (fun w => { w with rdS := ⟨0, 0⟩ })

theorem fget_laserReady (s : State) (n : Head) {f : Fld} (hf : f.addr ≠ regWC_CTL n) : fget (laserReady s n) f = fget s f :=
  fget_of_rd (rd_fput_other s _ hf)

theorem exec_wcEnableWrite_on {agent : Agent} (present : absentAt s.variant (wcBase n.val) = false)
    (off : fget s (fldWC_CTL_ENABLE n) = 0) :
    exec (.wcEnableWrite agent n true) s =
      .next (reply (putCurrent (laserReady s n) n (fldWC_LD_CUR2_I_R n) (fget s (fldWC_PWR_CFG_I_R_INIT n))) .ok 0 []) := by
  have init : fget (fputB s (fldWC_CTL_ENABLE n) true) (fldWC_PWR_CFG_I_R_INIT n) = fget s (fldWC_PWR_CFG_I_R_INIT n) :=
    fget_fput_apart s _ _ _ rfl (apart_of_addr (by simp [fldWC_CTL_ENABLE, fldWC_PWR_CFG_I_R_INIT, regWC_CTL, regWC_PWR_CFG]))
  have was : fbit s (fldWC_CTL_ENABLE n) = false := by rw [fbit, off]; rfl
  show Host.Outcome.next (reply (wcEnable s n true) .ok 0 []) = _
  unfold wcEnable
  dsimp only
  rw [present, if_neg Bool.false_ne_true, was, init, Bool.not_false, Bool.and_self, if_pos rfl]
  rfl

/-! ### Table sets (R178, R180) -/

/-- Memory sees nothing of the bit of LIVE that shows the STREAM source. -/
theorem apart_of_memFld (n : Head) {g : Fld} (hg : MemFld g) : (⟨regWC_STAT n, 22, 22⟩ : Fld).apart g = true := by
  cases hg with
  | arcPart cls => exact apart_of_bits rfl
  | sramDistrict m => exact apart_of_bits rfl
  | sramPort m => exact apart_of_bits rfl
  | arcState => exact apart_of_bits rfl
  | arcLock => exact apart_of_bits rfl
  | dramState => exact apart_of_bits rfl
  | rowBits => exact apart_of_bits rfl
  | ranks => exact apart_of_bits rfl
  | interface => revert n; decide
  | xorMap hn hk =>
    have := n.isLt
    refine apart_of_addr ?_
    simp only [regWC_STAT, wcBase, headBase, fldDRAMN_XORMAP_MASK, regDRAMN_XORMAP, dramnBase]
    split <;> omega
  | sramCell m =>
    have := n.isLt
    refine apart_of_addr ?_
    simp only [regWC_STAT, wcBase, headBase, fldMEMR_INFO_STREET_PORT, regMEMR_INFO, memrBase]
    split <;> omega

/-- What is read of memory does not depend on whether STREAM is shown. -/
theorem memRead_streamLive (s : State) (n : Head) (cls a k : Nat) : (memRead (streamLive s n) cls a k).2 = (memRead s cls a k).2 :=
  ((MemAlike.refl s).fput_right rfl (fun _ hg => apart_of_memFld n hg) _).memRead cls a k

/-- The cell as its table set's fetch has ended. -/
def tableCame (s : State) (n : Head) : State := streamLive (modWc s n (fun w => { w with fetch := none })) n

/-- The table set of 64 words that 256 bytes hold. -/
def tableOf (bs : List Byte) : List Word := (List.range 64).map (fun i => BitVec.ofNat 32 (leNat ((bs.drop (4 * i)).take 4)))

theorem exec_tableFetchDone {a : Nat} {bs : List Byte} (fetch : s.wc[n].fetch = some a)
    (read : (memRead (modWc s n (fun w => { w with fetch := none })) 4 a 256).2 = some (bs, false))
    (sound : crc32 (bs.take 252) = leNat (bs.drop 252)) :
    exec (.tableFetchDone n) s =
      .next (fset (modWc (memRead (tableCame s n) 4 a 256).1 n (fun w => { w with table := tableOf bs }))
        (fldWC_STAT_TABLE_OK n)) := by
  have parts := eq_mk_of_snd ((memRead_streamLive _ n 4 a 256).trans read)
  show Host.Outcome.next (tableLanded s n) = _
  unfold tableLanded
  rw [fetch]
  dsimp only
  rw [parts]
  dsimp only
  rw [if_pos sound]
  rfl

/-! ### The power loops (R183, R184) -/

theorem regsBut_mpdTake (s : State) (n : Head) (code : Nat) : regsBut s (mpdTake s n code) [regCAL_MPD] := by
  unfold mpdTake
  split
  · exact regsBut_same s _
  · exact regsBut_fput _ (regsBut_same s _) (List.mem_singleton.mpr rfl)

theorem wc_mpdTake (s : State) (n : Head) (code : Nat) : (mpdTake s n code).wc = s.wc :=
  (mpdTake_kept (Kept.same 0x100000000000008 s) rfl n code).only .wc rfl

/-- The registers of a write cell lie apart from CAL_MPD. -/
theorem fget_mpdTake (s : State) (n : Head) (code : Nat) {f : Fld} (hf : f.addr ≠ regCAL_MPD) :
    fget (mpdTake s n code) f = fget s f :=
  fget_of_regsBut (regsBut_mpdTake s n code) (fun h => hf (List.mem_singleton.mp h))

theorem regCAL_MPD_apart (n : Head) {off : Nat} (h : off < 0x100) : wcBase n + off ≠ regCAL_MPD := by
  have := n.isLt
  simp only [wcBase, headBase, regCAL_MPD, calBase]
  split <;> omega

/-- The error of the read current after a sample (R183). -/
def readError (s : State) (n : Head) (x : Samples) (sl : Int × Int) : Int :=
  currentError (tablePower s.wc[n] 42 true * fget s (fldWC_MPD_MPD_GAIN n) * x.n - x.sum * 25600)
    (fget s (fldWC_MPD_MPD_GAIN n) * x.n) sl (fget s (fldWC_PWR_CFG_RD_KI n))

/-- The sample that makes up NSAMP moves I_R. -/
theorem readPower_moves {code : Nat} {sl : Int × Int} (on : fget s (fldWC_CTL_ENABLE n) = 1)
    (loop : fget s (fldWC_CTL_PWR_LOOP_EN n) = 1) (idle : s.wc[n].slots.all (fun q => q.phase != .running) = true)
    (full : nSamp s n ≤ s.wc[n].rdS.n + 1) (slope : s.wc[n].slope = some sl) (steep : sl.1 ≠ 0)
    (gain : fget s (fldWC_MPD_MPD_GAIN n) ≠ 0) :
    readPower s n code = putCurrent (modWc s n (fun w => { w with rdS := ⟨0, 0⟩ })) n (fldWC_LD_CUR2_I_R n)
      ((fget s (fldWC_LD_CUR2_I_R n) : Int) + readError s n (addSample s.wc[n].rdS code) sl) := by
  have enable : fbit s (fldWC_CTL_ENABLE n) = true := by rw [fbit, on]; rfl
  have looped : fbit s (fldWC_CTL_PWR_LOOP_EN n) = true := by rw [fbit, loop]; rfl
  have none_runs : s.wc[n].slots.any (fun q => q.phase == .running) = false := by
    rw [List.any_eq_false]
    intro q hq runs
    exact bne_iff_ne.mp (List.all_eq_true.mp idle q hq) (beq_iff_eq.mp runs)
  have enough : ¬ (addSample s.wc[n].rdS code).n < nSamp s n := Nat.not_lt.mpr full
  have gain' : ¬ ((fget s (fldWC_MPD_MPD_GAIN n) : Int) = 0 ∨ sl.1 = 0) := by
    rintro (h | h)
    · exact gain (Int.ofNat_eq_zero.mp h)
    · exact steep h
  unfold readPower
  dsimp only
  rw [enable, looped, none_runs, if_neg (by simp), if_neg enough, slope]
  dsimp only
  rw [if_neg gain']
  rfl

/-- A long space that does not complete a group adds its sample. -/
theorem exec_writePowerSample_adds {code : Nat} (loop : fget s (fldWC_CTL_PWR_LOOP_EN n) = 1)
    (runs : s.wc[n].slots.any (fun q => q.phase == .running) = true) (few : s.wc[n].biasS.n + 1 < nSamp s n)
    (none : s.wc[n].bias = none) :
    exec (.writePowerSample n false code) s =
      .next (modWc s n (fun w =>
        { w with biasS := addSample s.wc[n].biasS code, bias := w.bias, biasNew := w.biasNew || false })) := by
  have looped : fbit s (fldWC_CTL_PWR_LOOP_EN n) = true := by rw [fbit, loop]; rfl
  have short : decide (nSamp s n ≤ (addSample s.wc[n].biasS code).n) = false := decide_eq_false (Nat.not_le.mpr few)
  show Host.Outcome.next (writePower s n false code) = _
  unfold writePower
  dsimp only
  rw [looped, runs, if_neg (by simp)]
  simp only [Bool.false_eq_true, if_false, short]
  rw [wc_modWc, none]

end

/-! ### The statement -/

/-- Settles O14: each command is one of the equations above. What an inhibit that latches leaves is said once, for the guards
and for SOFT; that a table set's bytes do not depend on what LIVE shows is the independence of memory from what it does not
read. -/
theorem writeGuardsAndPower : Obligations.WriteGuardsAndPower := by
  refine ⟨?trips, ?stays, ?returns, ?outside, ?releases, ?soft, ?enables, ?table, ?readLoop, ?writeLoop⟩
  case trips =>
    intro s n g level head write on outside seen
    have run := exec_guardTrip head write on outside seen
    have latched : Latched _ n (guardBit g) (guardLive (guardActs s n g) n) :=
      ((wcInhibit_latches (modWc s n (fun w => { w with tripped := addOnce w.tripped (guardNo g) })) n
        (latchSources_guardBit g)).count _).guardLive
    refine ⟨_, run, latched.latch, latched.tripped, ?_, latched.holds, latched.none_running, counter_guardActs s n g,
      latched.regs, (execGuardTrip_kept run).changesOnly_of_mask rfl⟩
    rw [latched.trippedGuards, wc_modWc]
    exact contains_addOnce _ _
  case stays => exact fun s n g level idle => exec_guardTrip_idle idle
  case returns =>
    intro s n g level inside
    have run : exec (.guardReturn n ⟨g, level⟩) s =
        .next (guardLive (modWc s n (fun w => { w with tripped := w.tripped.filter (fun k => k != guardNo g) })) n) :=
      congrArg Host.Outcome.next (if_pos inside)
    refine ⟨_, run, ?_, ?_, ?_, ?_, (execGuardReturn_kept run).changesOnly_of_mask rfl⟩
    · rw [wc_guardLive, wc_modWc]
    · rw [wc_guardLive, wc_modWc]
    · exact fget_guardLive _ n (.inr (show 24 ≤ 30 by decide))
    · exact regsBut_guardLive (t := modWc s n _) (regsBut_same s _) (List.mem_singleton.mpr rfl)
  case outside =>
    intro s n g level outside
    exact congrArg Host.Outcome.next (if_neg (by rw [outside]; exact Bool.false_ne_true))
  case releases =>
    intro s n inside held
    have run : exec (.guardLatchRelease n) s = .next (wcRelease s n [0, 1, 2]) :=
      congrArg Host.Outcome.next (if_pos (List.isEmpty_iff.mpr inside))
    obtain ⟨empty, shown⟩ := wcRelease_guards held
    exact ⟨_, run, empty, shown, regsBut_fput _ (regsBut_same s _) (List.mem_singleton.mpr rfl),
      (execGuardLatchRelease_kept run).changesOnly_of_mask rfl⟩
  case soft =>
    intro s agent n present head write
    have run := exec_wcInhibitWrite_on (agent := agent) present head write
    have latched : Latched (softWritten s n) n 5 (wcLive (wcInhibit (softWritten s n) n 5) n 5 true) :=
      (wcInhibit_latches (softWritten s n) n rfl).wcLive (by decide) true
    have apart : regWC_CTL n ∉ tripRegs n := by simp [tripRegs, regWC_CTL, regWC_STAT, regWC_TRIP_TIME_LO, regWC_TRIP_TIME_HI]
    refine ⟨_, run, ?_, latched.latch, latched.tripped, ?_, latched.none_running, ?_,
      (execWcInhibitWrite_kept (a1 := agent) run).changesOnly_of_mask rfl⟩
    · exact (fget_of_regsBut latched.regs (f := fldWC_CTL_INHIBIT n) apart).trans (fget_fset_same s rfl rfl)
    · exact fbitAt_fputAt_same (wcInhibit (softWritten s n) n 5) (f := fldWC_STAT_LIVE n) (show 16 + 5 ≤ 23 by decide)
        (show 23 < 32 by decide) true
    · exact regsBut_reply (regsBut_trans (regsBut_fput _ (regsBut_same s _) List.mem_cons_self)
        (regsBut_mono latched.regs (fun a ha => List.mem_cons_of_mem _ ha))) _ _ _
  case enables =>
    intro s agent n present _ _ off
    have run := exec_wcEnableWrite_on (agent := agent) present off
    have max : fget (laserReady s n) (fldWC_MPD_I_MAX n) = fget s (fldWC_MPD_I_MAX n) :=
      fget_laserReady s n (by simp [fldWC_MPD_I_MAX, regWC_MPD, regWC_CTL])
    refine ⟨_, run, ?_, ?_, fun beyond => ?_, ?_, ?_⟩
    · have kept : regsBut (laserReady s n) _ [regWC_LD_CUR2 n, regWC_STAT n] :=
        regsBut_putCurrent (n := n) (f := fldWC_LD_CUR2_I_R n) (regsBut_same _ _) (by simp [fldWC_LD_CUR2_I_R]) (by simp)
          (fget s (fldWC_PWR_CFG_I_R_INIT n))
      refine (fget_of_regsBut (f := fldWC_CTL_ENABLE n) kept ?_).trans (fget_fset_same s rfl rfl)
      simp [fldWC_CTL_ENABLE, regWC_CTL, regWC_LD_CUR2, regWC_STAT]
    · rw [reply_fget, fget_putCurrent_I_R, max, toNat_clampInt_natCast]
    · exact fget_putCurrent_limit (by rw [max]; exact Int.ofNat_lt.mpr beyond) _
    · have ready : regsBut s (laserReady s n) [regWC_CTL n, regWC_STAT n, regWC_LD_CUR2 n] :=
        regsBut_fput _ (regsBut_same s _) List.mem_cons_self
      exact regsBut_reply (regsBut_putCurrent ready (by simp [fldWC_LD_CUR2_I_R]) (by simp) _) _ _ _
    · refine changesOnly_reply (t := putCurrent (laserReady s n) n _ _) ?_ (by decide) _ _ _
      have ready : Kept 0x10000000000008 s (laserReady s n) := modWc_kept (fputB_kept (Kept.same _ s) rfl _ _) rfl _ _
      exact (putCurrent_kept ready rfl _ _ _).changesOnly_of_mask rfl
  case table =>
    intro s n a bs fetch read sound
    have came : (memRead (tableCame s n) 4 a 256).1.wc[n].fetch = none := by
      rw [wc_memRead, tableCame, wc_streamLive, wc_modWc]
    refine ⟨_, exec_tableFetchDone fetch read sound, ?_, fget_fset_same _ rfl rfl, ?_⟩
    · rw [fset, fput_wc, wc_modWc]
      exact came
    · rw [fset, fput_wc, wc_modWc]
      rfl
  case readLoop =>
    intro s n code sl on loop idle full slope steep gain
    have same {f : Fld} {off : Nat} (hf : f.addr = wcBase n + off) (h : off < 0x100) : fget (mpdTake s n code) f = fget s f :=
      fget_mpdTake s n code (hf ▸ regCAL_MPD_apart n h)
    have samp : nSamp (mpdTake s n code) n = nSamp s n := by
      rw [nSamp, nSamp, same (f := fldWC_PWR_CFG_NSAMP n) rfl (by decide)]
    have wc := wc_mpdTake s n code
    have moved := readPower_moves (s := mpdTake s n code) (n := n) (code := code) (sl := sl)
      ((same rfl (by decide)).trans on) ((same rfl (by decide)).trans loop) (by rw [wc]; exact idle)
      (by rw [samp, wc]; exact full) (by rw [wc]; exact slope) steep (by rw [same rfl (by decide)]; exact gain)
    have run : exec (.readPowerSample n code) s = .next (readPower (mpdTake s n code) n code) := rfl
    refine ⟨_, run, ?_, ?_, ?_, ?_⟩
    · rw [moved, wc_putCurrent, wc_modWc]
    · rw [moved, fget_putCurrent_I_R, readError, modWc_fget, wc, same (f := fldWC_LD_CUR2_I_R n) rfl (by decide),
        same (f := fldWC_MPD_I_MAX n) rfl (by decide), same (f := fldWC_MPD_MPD_GAIN n) rfl (by decide),
        same (f := fldWC_PWR_CFG_RD_KI n) rfl (by decide)]
    · rw [moved]
      exact regsBut_putCurrent (t := modWc (mpdTake s n code) n _)
        (regsBut_mono (regsBut_mpdTake s n code) (fun a ha => by rw [List.mem_singleton.mp ha]; simp))
        (by simp [fldWC_LD_CUR2_I_R]) (by simp) _
    · rw [moved]
      have taken := mpdTake_kept (Kept.same 0x110000000000008 s) rfl n code
      exact (putCurrent_kept (modWc_kept taken rfl _ _) rfl _ _ _).changesOnly_of_mask rfl
  case writeLoop =>
    intro s n code loop runs few none
    have run := exec_writePowerSample_adds (code := code) loop runs few none
    refine ⟨_, run, ?_, ?_, (modWc_kept (Kept.same 0x10000000000000 s) rfl _ _).changesOnly_of_mask rfl⟩
    · rw [wc_modWc]
      rfl
    · rw [wc_modWc]

end Machine
end Sys2Proof
end

section
/-! SUPPORT. The spindle block's states, levels, gates and overcurrent, and the statement about its start and braking (O22). -/

namespace Sys2Proof
namespace Machine

/-! ### States and levels (R278, R279) -/

/-- While no level stops the spindle, no state is left for one. -/
theorem spnSettle_of_clear {s : State} (clear : spnClear s) : spnSettle s = s := by
  obtain ⟨safe, chop, runs⟩ := clear
  simp only [spnSettle, safe, chop, Bool.and_false, Bool.false_eq_true, if_false]
  exact if_pos runs

theorem spnState_fput_apart (s : State) {f : Fld} (x : Nat) (ok : f.ok = true) (apart : f.apart fldSPN_STAT_STATE = true) :
    spnState (fput s f x) = spnState s :=
  fget_fput_apart s f _ x ok apart

theorem spnState_spnEnter (s : State) {code : Nat} (fits : code < 16) (g : Gates) : spnState (spnEnter s code g) = code := by
  have entered : fget (fput s fldSPN_STAT_STATE code) fldSPN_STAT_STATE = code := fget_fput_fits s rfl fits
  unfold spnEnter
  dsimp only
  split
  · exact entered
  · exact (spnState_fput_apart _ 0 rfl rfl).trans entered

/-- After a trip the gates stay off for the rest of the period, whatever state is entered (R278). -/
theorem gates_spnEnter (s : State) (code : Nat) (g : Gates) :
    (spnEnter s code g).spn.gates = if s.spn.tripNow then .off else g := by
  unfold spnEnter
  dsimp only
  split <;> rfl

theorem spnClear_fput {s : State} (clear : spnClear s) {f : Fld} (x : Nat) (ok : f.ok = true)
    (apart : f.apart (fldSE_STAT_STATE 8) = true) : spnClear (fput s f x) := by
  obtain ⟨safe, chop, runs⟩ := clear
  exact ⟨safe, chop, (fget_fput_apart s f _ x ok apart).trans runs⟩

theorem spnClear_spnEnter {s : State} (clear : spnClear s) (code : Nat) (g : Gates) : spnClear (spnEnter s code g) := by
  have entered := spnClear_fput clear (f := fldSPN_STAT_STATE) code rfl rfl
  unfold spnEnter
  dsimp only
  split
  · exact entered
  · exact spnClear_fput (f := fldSPN_SPD_CMD) entered 0 rfl rfl

/-! ### Trips (R278) -/

/-- The first trip of a period. -/
def tripped (s : State) : State :=
  modSpn (count (fset s fldSPN_STAT_OC_TRIP) 374) (fun q => { q with tripNow := true, trips := q.trips + 1, gates := .off })

theorem spnState_tripped (s : State) : spnState (tripped s) = spnState s :=
  spnState_fput_apart s (f := fldSPN_STAT_OC_TRIP) 1 rfl rfl

theorem spnClear_tripped {s : State} (clear : spnClear s) : spnClear (tripped s) :=
  spnClear_fput clear (f := fldSPN_STAT_OC_TRIP) 1 rfl rfl

theorem tripNow_tripped (s : State) : (tripped s).spn.tripNow = true := rfl

theorem overcurrent_first {s : State} (first : s.spn.tripNow = false) :
    overcurrent s = if 15 ≤ s.spn.trips then spnLatchOff (tripped s) 4 else tripped s := by
  have sixteenth : 16 ≤ (tripped s).spn.trips ↔ 15 ≤ s.spn.trips := Nat.succ_le_succ_iff
  have e : overcurrent s = if 16 ≤ (tripped s).spn.trips then spnLatchOff (tripped s) 4 else tripped s :=
    if_neg (by rw [first]; exact Bool.false_ne_true)
  rw [e]
  exact ite_congr (propext sixteenth) (fun _ => rfl) (fun _ => rfl)

/-! ### The end of SENSE (R279, R280) -/

theorem gates_spnDetect (s : State) : (spnDetect s).spn.gates = if s.spn.tripNow then .off else .pulse :=
  gates_spnEnter s 3 .pulse

theorem spnClear_spnDetect {s : State} (clear : spnClear s) : spnClear (spnDetect s) := spnClear_spnEnter clear 3 .pulse

/-- After reset, with SE8 RUNNING and the spindle in SENSE. -/
def sensing : State := fput (fput State.reset (fldSE_STAT_STATE 8) 1) fldSPN_STAT_STATE 1

theorem spnState_sensing : spnState sensing = 1 := fget_fput_fits _ rfl (by decide)

theorem spnClear_sensing : spnClear sensing := by
  have runs : seState (fput State.reset (fldSE_STAT_STATE 8) 1) 8 = 1 := fget_fput_fits _ rfl (by decide)
  have clear : spnClear (fput State.reset (fldSE_STAT_STATE 8) 1) :=
    ⟨congrArg Spindle.safeN (fput_spn _ _ _), congrArg Spindle.chopFault (fput_spn _ _ _), runs⟩
  exact spnClear_fput (f := fldSPN_STAT_STATE) clear 1 rfl rfl

/-- SENSE_TIME ends in SENSE while nothing stops the spindle. -/
theorem exec_senseTimeEnd {s : State} (sense : spnState s = 1) (clear : spnClear s) :
    exec .senseTimeEnd s = .next (spnDetect s) := by
  have run : exec .senseTimeEnd s = .next (spnSettle (spnDetect s)) :=
    congrArg (fun u => Host.Outcome.next (spnSettle u)) (if_pos sense)
  rw [run, spnSettle_of_clear (spnClear_spnDetect clear)]

/-! ### The statement -/

/-- Refutes O22: where SENSE_TIME ends in a period that an overcurrent has tripped, DETECT is entered with the gates still off
(R278), and the statement has the test pulse on them. Nothing it assumes of the state says that the period has not tripped; the
state here is SENSE after one OVERCURRENT_TRIP (overcurrent_first). -/
theorem not_spindleStartAndBrakeStates : ¬ Obligations.SpindleStartAndBrakeStates := by
  intro h
  obtain ⟨-, -, -, senseEnds, -⟩ := h
  have sense : spnState (tripped sensing) = 1 := (spnState_tripped _).trans spnState_sensing
  have clear : spnClear (tripped sensing) := spnClear_tripped spnClear_sensing
  obtain ⟨t, ht, -, pulse, -, -⟩ := senseEnds (tripped sensing) clear sense
  rw [exec_senseTimeEnd sense clear] at ht
  obtain rfl := Host.Outcome.next.inj ht
  have off : (spnDetect (tripped sensing)).spn.gates = .off := by
    rw [gates_spnDetect, tripNow_tripped, if_pos rfl]
  exact absurd (pulse.symm.trans off) (by decide)

end Machine
end Sys2Proof
end

section
/-! SUPPORT. The spindle's periods, midpoints and trips, and the statement about its drive (O23). -/

namespace Sys2Proof
namespace Machine

/-! ### The drive

What a period start passes on from step to step, beside the registers of the ramp. -/

/-- The spindle's state, SE8's, the levels, the period's trip, the applied angle and the ramp's speed. -/
structure SpinDrive where
  state : Nat
  se8 : Nat
  safeN : Bool
  chopFault : Bool
  tripNow : Bool
  theta : Word
  ramp : Nat

def driveOf (s : State) : SpinDrive :=
  ⟨spnState s, seState s 8, s.spn.safeN, s.spn.chopFault, s.spn.tripNow, s.spn.theta, s.spn.ramp⟩

theorem driveOf_fput (s : State) {f : Fld} (x : Nat) (ok : f.ok = true) (state : f.apart fldSPN_STAT_STATE = true)
    (se8 : f.apart (fldSE_STAT_STATE 8) = true) : driveOf (fput s f x) = driveOf s := by
  have h : seState (fput s f x) 8 = seState s 8 := fget_fput_apart s f _ x ok se8
  rw [driveOf, spnState_fput_apart s x ok state, h]
  rfl

theorem driveOf_wr_angle (s : State) (v : Word) : driveOf (wr s regSPN_ANGLE v) = driveOf s := by
  have state : spnState (wr s regSPN_ANGLE v) = spnState s := fget_wr_other s _ v _ (by decide)
  have se8 : seState (wr s regSPN_ANGLE v) 8 = seState s 8 := fget_wr_other s _ v _ (by decide)
  rw [driveOf, state, se8]
  rfl

/-! ### The disc's speed and angle (R288, R289) -/

theorem driveOf_showLocked (s : State) : driveOf (showLocked s) = driveOf s :=
  (driveOf_fput _ (f := fldSPN_STAT_ANGLE_VALID) _ rfl rfl rfl).trans (driveOf_fput s (f := fldSPN_STAT_SPD_SRC) _ rfl rfl rfl)

theorem driveOf_turnCount (s : State) (k : Int) : driveOf (turnCount s k) = driveOf s := rfl

theorem driveOf_putSpeed (s : State) (x : Int) : driveOf (putSpeed s x) = driveOf s :=
  (driveOf_fput _ (f := fldSPN_STAT_REVERSE) _ rfl rfl rfl).trans (driveOf_fput _ (f := fldSPN_SPD_MEAS) _ rfl rfl rfl)

theorem driveOf_spnRevolution (s : State) : driveOf (spnRevolution s) = driveOf s := by
  unfold spnRevolution
  extract_lets t dev tol good bad s1
  have counted : driveOf s1 = driveOf s := rfl
  split
  · exact (driveOf_fput s1 (f := fldSPN_STAT_AT_SPEED) 1 rfl rfl rfl).trans counted
  · split
    · exact (driveOf_fput s1 (f := fldSPN_STAT_AT_SPEED) 0 rfl rfl rfl).trans counted
    · exact counted

/-- Measuring the disc's speed and angle leaves the drive, whether a wedge lock or SE8 gives them. -/
theorem driveOf_discAdvance (s : State) : driveOf (discAdvance s) = driveOf s := by
  unfold discAdvance
  split
  · dsimp only
    rw [driveOf_turnCount, driveOf_wr_angle, driveOf_showLocked]
  · extract_lets om old new s1
    have moved : driveOf s1 = driveOf s := by
      rw [driveOf_turnCount, driveOf_wr_angle, driveOf_putSpeed, driveOf_showLocked]
    split
    · exact (driveOf_spnRevolution s1).trans moved
    · exact moved

/-! ### Gates, angle and ramp in RUN (R273, R284, R285) -/

theorem driveOf_driveGates (s : State) : driveOf (driveGates s) = driveOf s := by
  unfold driveGates
  dsimp only
  split <;> rfl

theorem gates_driveGates (s : State) : (driveGates s).spn.gates = gatesOf s := by
  unfold driveGates
  dsimp only
  split <;> rfl

theorem gatesOf_run {s : State} (run : spnState s = 7) : gatesOf s = .vector := by
  unfold gatesOf
  rw [run]
  rfl

theorem setsDue_empty {s : State} (empty : s.spn.sets = []) : setsDue s = [] := by
  unfold setsDue
  rw [empty]
  exact ite_self _

/-- Where no outputs wait, a period start takes none. -/
theorem spnTake_empty {s : State} (empty : s.spn.sets = []) : spnTake s = s := by
  unfold spnTake
  rw [setsDue_empty empty, empty]
  split
  · rfl
  · show { s with spn := { s.spn with sets := [] } } = s
    rw [← empty]

theorem spnAngle_empty {s : State} (empty : s.spn.sets = []) :
    spnAngle s = modSpn s (fun q => { q with theta := q.theta + q.omega }) := by
  unfold spnAngle
  rw [setsDue_empty empty, spnTake_empty empty]
  rfl

theorem spnPeriod_run {s : State} (run : spnState s = 7) : spnPeriod s = spnAngle s := by
  unfold spnPeriod
  rw [run]
  rfl

theorem vecLimit_below {s : State} (below : vecSq s.spn < vmodLim s * vmodLim s) : vecLimit s = fput s fldSPN_STAT_V_LIM 0 := by
  rw [vecLimit, decide_eq_false (Int.not_le.mpr below), Bool.false_and, Bool.false_and]
  rfl

/-- The ramp at a speed in 10^-8 rpm, climbing or falling by a slope. -/
def ramped (s : State) (speed : Nat) (slope : Int) : State :=
  fput (modSpn s (fun q => { q with ramp := speed, accCmd := accWord slope })) fldSPN_SPD_CMD ((8 * speed + 5 * 10 ^ 7) / 10 ^ 8)

theorem driveOf_ramped (s : State) (speed : Nat) (slope : Int) :
    driveOf (ramped s speed slope) = { driveOf s with ramp := speed } :=
  driveOf_fput _ (f := fldSPN_SPD_CMD) _ rfl rfl rfl

/-- Where the ramp has climbed to after a period at ACC_MAX, at most to the target. -/
def climbed (s : State) : Nat := Nat.min (s.spn.target * 10 ^ 8) (s.spn.ramp + fget s fldSPN_RAMP_ACC_MAX * pwmPeriod s)

theorem rampStep_climbs {s : State} (run : spnState s = 7) (below : s.spn.ramp < s.spn.target * 10 ^ 8)
    (noV : fbit s fldSPN_STAT_V_LIM = false) (noI : fbit s fldSPN_STAT_I_LIM = false) (busMv : Nat) :
    rampStep s busMv = ramped (fputB s fldSPN_STAT_REGEN_PAUSE false) (climbed s) (fget s fldSPN_RAMP_ACC_MAX) := by
  have goal : rampGoal s = s.spn.target * 10 ^ 8 := if_pos run
  have up : s.spn.ramp < rampGoal s := by rw [goal]; exact below
  have steady : regenPause s busMv = false := by
    rw [regenPause, decide_eq_false (Nat.lt_asymm up), Bool.false_and]
  unfold rampStep
  rw [if_neg (fun out => out.1 run)]
  extract_lets top now pause limited acc dec s1 s2
  have free : limited = false := by simp only [limited, noV, noI, Bool.or_false]
  rw [if_pos (show now < top from up), if_neg (ne_true_of_eq_false free)]
  have unlimited : s2 = s1 := if_neg (fun both => Bool.false_ne_true (free.symm.trans both.2))
  dsimp only
  rw [if_neg (fun stopping => absurd (run.symm.trans stopping.1) (by decide)), ramped, climbed, ← goal, ← steady]
  exact congrArg (fun u => fput (modSpn u _) fldSPN_SPD_CMD _) unlimited

/-! ### A period's start in RUN -/

/-- A period has begun, and has not tripped yet. -/
def newPeriod (s : State) : State := modSpn s (fun q => { q with trips := if q.tripNow then q.trips else 0, tripNow := false })

/-- A new period's angle is one increment on. -/
def turnedOn (s : State) : State := modSpn (newPeriod s) (fun q => { q with theta := q.theta + q.omega })

/-- Its vector is below VMOD_MAX. -/
def periodAngle (s : State) : State := fput (turnedOn s) fldSPN_STAT_V_LIM 0

theorem applyPend_empty {s : State} (empty : s.pend = []) (which : Nat → Bool) : applyPend s which = s := by
  unfold applyPend
  rw [empty]
  show { s with pend := [] } = s
  rw [← empty]

theorem spnSpeedApply_empty {s : State} (empty : s.pend = []) : spnSpeedApply s = s := by
  unfold spnSpeedApply
  rw [empty]
  rfl

/-- In RUN, with no register value and no output waiting and the vector below VMOD_MAX, what moves is the angle, the ramp, the
disc and the gates. -/
theorem periodStart_run {s : State} (run : spnState s = 7) (noPend : s.pend = []) (noSets : s.spn.sets = [])
    (short : vecSq s.spn < vmodLim s * vmodLim s) (busMv : Nat) :
    periodStart s busMv = driveGates (discAdvance (rampStep (periodAngle s) busMv)) := by
  have turned : spnPeriod (newPeriod s) = turnedOn s :=
    (spnPeriod_run (s := newPeriod s) run).trans (spnAngle_empty (s := newPeriod s) noSets)
  have limited : vecLimit (turnedOn s) = periodAngle s := vecLimit_below (s := turnedOn s) short
  unfold periodStart
  rw [applyPend_empty noPend]
  dsimp only
  rw [spnSpeedApply_empty noPend, ite_self]
  show driveGates (discAdvance (rampStep (vecLimit (spnPeriod (newPeriod s))) busMv)) = _
  rw [turned, limited]

theorem fget_periodAngle (s : State) {g : Fld} (apart : fldSPN_STAT_V_LIM.apart g = true) : fget (periodAngle s) g = fget s g :=
  fget_fput_apart _ fldSPN_STAT_V_LIM g 0 rfl apart

theorem driveOf_periodAngle (s : State) :
    driveOf (periodAngle s) = { driveOf s with tripNow := false, theta := s.spn.theta + s.spn.omega } :=
  driveOf_fput _ (f := fldSPN_STAT_V_LIM) 0 rfl rfl rfl

theorem climbed_periodAngle (s : State) : climbed (periodAngle s) = climbed s := by
  have acc : fget (periodAngle s) fldSPN_RAMP_ACC_MAX = fget s fldSPN_RAMP_ACC_MAX := fget_periodAngle s rfl
  have period : pwmPeriod (periodAngle s) = pwmPeriod s := fget_periodAngle s rfl
  rw [climbed, acc, period]
  rfl

/-- What a period's start in RUN leaves the drive at: one increment on, no trip yet, the ramp climbed. -/
def drivenOn (s : State) : SpinDrive :=
  { driveOf s with tripNow := false, theta := s.spn.theta + s.spn.omega, ramp := climbed s }

theorem driveOf_periodStart_run {s : State} (run : spnState s = 7) (noPend : s.pend = []) (noSets : s.spn.sets = [])
    (short : vecSq s.spn < vmodLim s * vmodLim s) (noI : fget s fldSPN_STAT_I_LIM = 0)
    (below : s.spn.ramp < s.spn.target * 10 ^ 8) (busMv : Nat) :
    driveOf (periodStart s busMv) = drivenOn s ∧ (periodStart s busMv).spn.gates = .vector := by
  have run' : spnState (periodAngle s) = 7 := (fget_periodAngle s rfl).trans run
  have noV : fbit (periodAngle s) fldSPN_STAT_V_LIM = false := by
    rw [fbit, periodAngle, fget_fput_fits _ rfl (by decide)]
    rfl
  have noI' : fbit (periodAngle s) fldSPN_STAT_I_LIM = false := by
    rw [fbit, fget_periodAngle s rfl, noI]
    rfl
  have ramp := rampStep_climbs run' below noV noI' busMv
  have paused : driveOf (fputB (periodAngle s) fldSPN_STAT_REGEN_PAUSE false) = driveOf (periodAngle s) :=
    driveOf_fput _ (f := fldSPN_STAT_REGEN_PAUSE) _ rfl rfl rfl
  have drive : driveOf (discAdvance (rampStep (periodAngle s) busMv)) = drivenOn s := by
    rw [driveOf_discAdvance, ramp, driveOf_ramped, paused, driveOf_periodAngle, climbed_periodAngle, drivenOn]
  rw [periodStart_run run noPend noSets short, driveOf_driveGates, gates_driveGates]
  exact ⟨drive, gatesOf_run ((congrArg SpinDrive.state drive).trans run)⟩

/-! ### The midpoint (R269, R271, R276, R278) -/

theorem regsBut_spnEnter {s t : State} {l : List Nat} (h : regsBut s t l) (stat : regSPN_STAT ∈ l) (spd : regSPN_SPD ∈ l)
    (code : Nat) (g : Gates) : regsBut s (spnEnter t code g) l := by
  have entered : regsBut s (fput t fldSPN_STAT_STATE code) l := regsBut_fput code h stat
  unfold spnEnter
  dsimp only
  split
  · exact entered
  · exact regsBut_fput (f := fldSPN_SPD_CMD) 0 entered spd

/-- The registers that a midpoint's samples can change. -/
def sampleRegs : List Nat := [regSPN_STAT, regSPN_SPD, regSPN_OFFSET]

theorem regsBut_senseOffsets {s t : State} (h : regsBut s t sampleRegs) (iu iv : Int) :
    regsBut s (senseOffsets t iu iv) sampleRegs := by
  have stat : regSPN_STAT ∈ sampleRegs := by decide
  have offset : regSPN_OFFSET ∈ sampleRegs := by decide
  unfold senseOffsets
  split
  · exact h
  · extract_lets s1 u v
    split
    · exact h
    · split
      · have failed : regsBut s (spnStartFail s1 7) sampleRegs :=
          regsBut_fput (f := fldSPN_STAT_CAUSE) 7 (regsBut_fput (f := fldSPN_STAT_START_FAIL) 1 h stat) stat
        exact regsBut_spnEnter failed stat (by decide) 0 .off
      · exact regsBut_fput (f := fldSPN_OFFSET_OFS_V) _ (regsBut_fput (f := fldSPN_OFFSET_OFS_U) _ h offset) offset

/-- The samples of ports 0, 1 and 3. -/
def samplesOf (s : State) : Int × Int × Int := (s.spn.iu, s.spn.iv, s.spn.vu)

theorem samplesOf_spnEnter (s : State) (code : Nat) (g : Gates) : samplesOf (spnEnter s code g) = samplesOf s := by
  unfold spnEnter
  dsimp only
  split <;> rfl

theorem samplesOf_senseOffsets (s : State) (iu iv : Int) : samplesOf (senseOffsets s iu iv) = samplesOf s := by
  unfold senseOffsets
  split
  · rfl
  · extract_lets s1 u v
    split
    · rfl
    · split
      · exact samplesOf_spnEnter (spnStartFail s1 7) 0 .off
      · rfl

/-- The ports of SE8 with a midpoint's samples. -/
def sampled (s : State) (iu iv vu vv vw : BitVec 12) : State :=
  modSpn s (fun q =>
    { q with
      iu := satInt 32 ((phaseCodes s iu iv).1 * 2 ^ 19)
      iv := satInt 32 ((phaseCodes s iu iv).2 * 2 ^ 19)
      vu := ((dirSwap s [vu, vv, vw]).getD 0 0).toNat * 2 ^ 18
      vv := ((dirSwap s [vu, vv, vw]).getD 1 0).toNat * 2 ^ 18
      vw := ((dirSwap s [vu, vv, vw]).getD 2 0).toNat * 2 ^ 18 })

theorem samplesCross_eq (s : State) (iu iv vu vv vw : BitVec 12) :
    samplesCross s iu iv vu vv vw =
      senseOffsets (fputB (sampled s iu iv vu vv vw) fldSPN_STAT_I_LIM (currentLimit (sampled s iu iv vu vv vw)))
        iu.toInt iv.toInt :=
  rfl

theorem samplesOf_samplesCross (s : State) (iu iv vu vv vw : BitVec 12) :
    samplesOf (samplesCross s iu iv vu vv vw) = samplesOf (sampled s iu iv vu vv vw) := by
  rw [samplesCross_eq, samplesOf_senseOffsets]
  rfl

theorem regsBut_samplesCross (s : State) (iu iv vu vv vw : BitVec 12) :
    regsBut s (samplesCross s iu iv vu vv vw) sampleRegs := by
  have taken : regsBut s (sampled s iu iv vu vv vw) sampleRegs := regsBut_same s _
  rw [samplesCross_eq]
  exact regsBut_senseOffsets (regsBut_fput (f := fldSPN_STAT_I_LIM) _ taken (by decide)) _ _

theorem pend_modSe_set (s : State) (k : Fin 10) (n : Fin 2) (p : Option (DWord × Option Nat)) :
    (modSe s k (fun e => { e with pend := e.pend.set n p })).se[k].pend[n] = p :=
  (congrArg (fun e : Servo => e.pend[n]) (Vector.getElem_set_self k.isLt)).trans (Vector.getElem_set_self n.isLt)

/-- A tick of a source other than WEDGE, with none before it pending or running, is held pending. -/
theorem seTick_idle {s : State} {k : Fin 10} {n : Fin 2} (runs : seState s k = 1) (configured : seSrc s k n ≠ 0)
    (notWedge : seSrc s k n ≠ 2) (empty : s.se[k].pend[n] = none) (idle : s.se[k].run = none) :
    seTick s k n = modSe s k (fun e => { e with pend := e.pend.set n (some (s.chipTime, none)) }) := by
  have onTime : ((s.se[k].pend[n]).isSome || s.se[k].run.any (fun r => r.src == n)) = false := by rw [empty, idle]; rfl
  have ticks : ¬ (seState s k ≠ 1 ∨ seSrc s k n = 0 ∨ (seSrc s k n = 2 ∧ !(wedgeTickDue s k n))) := by
    simp only [runs, configured, notWedge, ne_eq, not_true_eq_false, false_and, or_self, not_false_eq_true]
  have noWedge : ¬ (seSrc s k n = 2 ∧ k.val < 8) := fun wedge => notWedge wedge.1
  unfold seTick
  rw [if_neg ticks, onTime]
  dsimp only
  rw [if_neg Bool.false_ne_true, if_neg noWedge]
  exact if_neg (fun out => out runs)

theorem pwmTick_first {s : State} (first : seSrc s 8 0 = 4) (second : seSrc s 8 1 = 0) (runs : seState s 8 = 1)
    (empty : s.se[(8 : Fin 10)].pend[(0 : Fin 2)] = none) (idle : s.se[(8 : Fin 10)].run = none) :
    pwmTick s = modSe s 8 (fun e => { e with pend := e.pend.set 0 (some (s.chipTime, none)) }) := by
  have configured : seSrc s 8 0 ≠ 0 := by rw [first]; decide
  have notWedge : seSrc s 8 0 ≠ 2 := by rw [first]; decide
  have ticked := seTick_idle (k := 8) (n := 0) runs configured notWedge empty idle
  have other : ¬ seSrc (seTick s 8 0) 8 1 = 4 := by
    rw [ticked, show seSrc (modSe s 8 _) 8 1 = seSrc s 8 1 from rfl, second]
    decide
  have both : pwmTick s =
      (fun t => if seSrc t 8 1 = 4 then seTick t 8 1 else t) (if seSrc s 8 0 = 4 then seTick s 8 0 else s) := rfl
  rw [both, if_pos first]
  exact (if_neg other).trans ticked

theorem midpoint_armed {s : State} {iu iv : BitVec 12} (armed : xingArmed s 32 = true)
    (calm : ((phaseCodes s iu iv).1 + (phaseCodes s iu iv).2).natAbs ≤ fget s fldSPN_SENSE_OC_TRIP * 2 ^ 4)
    (vu vv vw : BitVec 12) : midpoint s iu iv vu vv vw = pwmTick (samplesCross s iu iv vu vv vw) := by
  unfold midpoint
  simp only [armed, sif, if_true]
  rw [if_neg (Nat.not_lt.mpr calm)]

theorem midpoint_withdrawn {s : State} {iu iv : BitVec 12} (withdrawn : xingArmed s 32 = false)
    (calm : ((phaseCodes s iu iv).1 + (phaseCodes s iu iv).2).natAbs ≤ fget s fldSPN_SENSE_OC_TRIP * 2 ^ 4)
    (vu vv vw : BitVec 12) : midpoint s iu iv vu vv vw = s := by
  unfold midpoint
  simp only [withdrawn, sif, Bool.false_eq_true, if_false]
  exact if_neg (Nat.not_lt.mpr calm)

/-! ### Trips (R278) -/

theorem exec_overcurrentTrip {s : State} (first : s.spn.tripNow = false) :
    exec .overcurrentTrip s = .next (if 15 ≤ s.spn.trips then spnLatchOff (tripped s) 4 else tripped s) :=
  congrArg Host.Outcome.next (overcurrent_first first)

theorem gates_spnLatchOff (s : State) (c : Nat) : (spnLatchOff s c).spn.gates = .off :=
  (gates_spnEnter _ 0xA .off).trans (ite_self _)

theorem spnState_spnLatchOff (s : State) (c : Nat) : spnState (spnLatchOff s c) = 0xA :=
  (spnState_fput_apart _ (f := fldSPN_STAT_CAUSE) c rfl rfl).trans
    ((spnState_fput_apart _ (f := fldSPN_STAT_LATCHED) 1 rfl rfl).trans (spnState_spnEnter _ (by decide) .off))

theorem latched_spnLatchOff (s : State) (c : Nat) : fget (spnLatchOff s c) fldSPN_STAT_LATCHED = 1 :=
  (fget_fput_apart _ fldSPN_STAT_CAUSE _ c rfl rfl).trans (fget_fset_same _ rfl rfl)

theorem cause_spnLatchOff (s : State) {c : Nat} (fits : c < 16) : fget (spnLatchOff s c) fldSPN_STAT_CAUSE = c :=
  fget_fput_fits _ rfl fits

/-! ### Test pulses (R280) -/

/-- A test pulse has ended: its current is kept, and the gates are off until five times its length have passed. -/
def pulseEnded (s : State) (iu iv : BitVec 12) : State :=
  modSpn s (fun q =>
    { q with
      pulses := q.pulses ++ [pulseCurrent (phaseCodes s iu iv).1 (phaseCodes s iu iv).2 q.pulses.length]
      gates := .off
      gateAt := s.chipTime + BitVec.ofNat 64 (5000 * fget s fldSPN_START_TP_LEN) })

theorem detectPulse_before_last {s : State} (detect : spnState s = 3) (more : s.spn.pulses.length < 11) (iu iv : BitVec 12) :
    detectPulse s iu iv = putPulse (pulseEnded s iu iv) := by
  have twelve : (pulseEnded s iu iv).spn.pulses.length < 12 := by
    show (s.spn.pulses ++ [_]).length < 12
    rw [List.length_append, List.length_singleton]
    exact Nat.succ_lt_succ more
  have ended : detectPulse s iu iv =
      if (pulseEnded s iu iv).spn.pulses.length < 12 then putPulse (pulseEnded s iu iv) else detectRound (pulseEnded s iu iv) :=
    if_neg (fun out => out detect)
  rw [ended, if_pos twelve]

/-! ### The pause of the ramp (R287) -/

theorem regenPause_begins {s : State} {busMv : Nat} (run : spnState s = 7) (down : s.spn.target * 10 ^ 8 < s.spn.ramp)
    (above : fget s fldSPN_REGEN_PAUSE_ON < busMv) (moving : fget s fldSPN_STAT_REGEN_PAUSE = 0) :
    regenPause s busMv = true := by
  have goal : rampGoal s = s.spn.target * 10 ^ 8 := if_pos run
  have notYet : fbit s fldSPN_STAT_REGEN_PAUSE = false := by rw [fbit, moving]; rfl
  rw [regenPause, goal, notYet, decide_eq_true down, if_neg Bool.false_ne_true, decide_eq_true above, Bool.and_self]

theorem exec_regenPause_run {s : State} {busMv : Nat} (run : spnState s = 7) :
    exec (.regenPause busMv) s = .next (fputB s fldSPN_STAT_REGEN_PAUSE (regenPause s busMv)) :=
  congrArg Host.Outcome.next (if_pos (Or.inl run))

/-! ### The statement -/

/-- Settles O23: each command is one of the equations above. A period's start passes the drive on, and measuring the disc's speed
and angle leaves it; the tick is raised after the samples, which change no register of SE8. -/
theorem spindleDriveAndSamples : Obligations.SpindleDriveAndSamples := by
  refine ⟨?period, ?samples, ?withdrawn, ?trips, ?sixteenth, ?pulse, ?pause⟩
  case period =>
    intro s busMv clear run noPend noSets short noI below
    obtain ⟨safe, chop, se8⟩ := clear
    obtain ⟨drive, gates⟩ := driveOf_periodStart_run run noPend noSets short noI below busMv
    have clear' : spnClear (periodStart s busMv) :=
      ⟨(congrArg SpinDrive.safeN drive).trans safe, (congrArg SpinDrive.chopFault drive).trans chop,
        (congrArg SpinDrive.se8 drive).trans se8⟩
    exact ⟨_, congrArg Host.Outcome.next (spnSettle_of_clear clear'), (congrArg SpinDrive.state drive).trans run,
      congrArg SpinDrive.theta drive, congrArg SpinDrive.ramp drive, congrArg SpinDrive.tripNow drive, gates⟩
  case samples =>
    intro s iu iv vu vv vw first second runs empty idle armed calm
    have crossed := samplesCross_kept (Kept.same 0x80000000000008 s) rfl iu iv vu vv vw
    have se : (samplesCross s iu iv vu vv vw).se = s.se := crossed.only .se rfl
    have time : (samplesCross s iu iv vu vv vw).chipTime = s.chipTime := crossed.only .chipTime rfl
    have regs := regsBut_samplesCross s iu iv vu vv vw
    have src0 : seSrc (samplesCross s iu iv vu vv vw) 8 0 = 4 :=
      (fget_of_regsBut (f := fldSE_TICK_CFG_SRC0 8) regs (by decide)).trans first
    have src1 : seSrc (samplesCross s iu iv vu vv vw) 8 1 = 0 :=
      (fget_of_regsBut (f := fldSE_TICK_CFG_SRC1 8) regs (by decide)).trans second
    have running : seState (samplesCross s iu iv vu vv vw) 8 = 1 :=
      (fget_of_regsBut (f := fldSE_STAT_STATE 8) regs (by decide)).trans runs
    have ticked := pwmTick_first src0 src1 running (by rw [se]; exact empty) (by rw [se]; exact idle)
    have taken := samplesOf_samplesCross s iu iv vu vv vw
    refine ⟨_, congrArg Host.Outcome.next ((midpoint_armed armed calm vu vv vw).trans ticked), congrArg (·.1) taken,
      congrArg (·.2.1) taken, congrArg (·.2.2) taken, ?_⟩
    rw [← time]
    exact congrArg (Option.map (·.1)) (pend_modSe_set _ 8 0 _)
  case withdrawn =>
    intro s iu iv vu vv vw withdrawn calm
    exact congrArg Host.Outcome.next (midpoint_withdrawn withdrawn calm vu vv vw)
  case trips =>
    intro s first few
    have run := exec_overcurrentTrip first
    rw [if_neg (Nat.not_le.mpr few)] at run
    refine ⟨_, run, fget_fset_same s (f := fldSPN_STAT_OC_TRIP) rfl rfl, rfl, rfl, rfl, spnState_tripped s,
      counter_count_same _ 374, ?_, (execOvercurrentTrip_kept run).changesOnly_of_mask rfl⟩
    exact regsBut_fput (f := fldSPN_STAT_OC_TRIP) 1 (regsBut_same s _) List.mem_cons_self
  case sixteenth =>
    intro s first many
    have run := exec_overcurrentTrip first
    rw [if_pos many] at run
    exact ⟨_, run, spnState_spnLatchOff _ 4, latched_spnLatchOff _ 4, cause_spnLatchOff _ (by decide), gates_spnLatchOff _ 4,
      (execOvercurrentTrip_kept run).changesOnly_of_mask rfl⟩
  case pulse =>
    intro s iu iv clear detect more
    have clear' : spnClear (putPulse (pulseEnded s iu iv)) := clear
    have run : exec (.detectPulseEnd iu iv) s = .next (putPulse (pulseEnded s iu iv)) := by
      show Host.Outcome.next (spnSettle (detectPulse s iu iv)) = _
      rw [detectPulse_before_last detect more, spnSettle_of_clear clear']
    have ended : Kept 0x80000000000000 s (pulseEnded s iu iv) := modSpn_kept (Kept.same _ s) rfl _
    exact ⟨_, run, detect, rfl, rfl, (putPulse_kept ended rfl).changesOnly_of_mask rfl⟩
  case pause =>
    intro s busMv run down above moving
    have paused : exec (.regenPause busMv) s = .next (fset s fldSPN_STAT_REGEN_PAUSE) :=
      (exec_regenPause_run run).trans (by rw [regenPause_begins run down above moving]; rfl)
    exact ⟨_, paused, fget_fset_same s rfl rfl,
      regsBut_fput (f := fldSPN_STAT_REGEN_PAUSE) 1 (regsBut_same s _) List.mem_cons_self,
      (execRegenPause_kept paused).changesOnly_of_mask rfl⟩

end Machine
end Sys2Proof
end

section
/-! SUPPORT. The sled's state machine and the park requests that are held, and the statement about targets and stops (O24). -/

namespace Sys2Proof
namespace Machine

/-! ### The state code (R313) -/

theorem sledState_sledEnter (s : State) (n : Fin 8) {code : Nat} (fits : code < 16) : sledState (sledEnter s n code) n = code :=
  fget_fput_fits s rfl fits

theorem sledState_fput_apart (s : State) (n : Fin 8) {f : Fld} (x : Nat) (ok : f.ok = true)
    (apart : f.apart (fldSLD_STAT_STATE n) = true) : sledState (fput s f x) n = sledState s n :=
  fget_fput_apart s f _ x ok apart

@[simp] theorem sledState_modSled (s : State) (n m : Fin 8) (f : Sled → Sled) : sledState (modSled s m f) n = sledState s n := rfl

theorem sled_modSled_same (s : State) (n : Fin 8) (f : Sled → Sled) : (modSled s n f).sled[n] = f s.sled[n] :=
  Vector.getElem_set_self n.isLt

@[simp] theorem sledState_sledSeg (s : State) (n : Fin 8) (seg : Nat) (acc : Int) :
    sledState (sledSeg s n seg acc) n = sledState s n :=
  sledState_fput_apart s n (f := fldSLD_STAT_SEG n) seg rfl (apart_of_bits rfl)

@[simp] theorem sledState_sledLatch (s : State) (n : Fin 8) : sledState (sledLatch s n) n = sledState s n := by
  unfold sledLatch
  dsimp only
  split
  · exact sledState_fput_apart (f := fldSLD_STAT_CLAMP n) _ n 1 rfl (apart_of_bits rfl)
  · rfl

/-! ### Park requests (R311) -/

theorem sledState_sledSlow (s : State) (n : Fin 8) (ph : HomePhase) (dir : Int) :
    sledState (sledSlow s n ph dir) n = sledState s n := by
  unfold sledSlow sledPhase
  rw [sledState_sledSeg, sledState_modSled, sledState_modSled, sledState_sledLatch]

theorem sledState_sledFast (s : State) (n : Fin 8) (ph : HomePhase) (t : Int) :
    sledState (sledFast s n ph t) n = sledState s n := by
  unfold sledFast
  rw [sledState_modSled, sledState_sledLatch]

theorem sledState_sledPowerDown_parking {s : State} {n : Fin 8} (parking : sledState s n = 6) :
    sledState (sledPowerDown s n true) n = 6 := by
  unfold sledPowerDown
  rw [if_pos rfl, sledState_sledSeg, sledState_modSled, if_pos parking]
  exact parking

/-- A parking sled that goes on from its stop is still parking. -/
theorem sledState_parkOn {s : State} {n : Fin 8} (parking : sledState s n = 6) : sledState (parkOn s n) n = 6 := by
  unfold parkOn
  split
  · dsimp only
    split
    · exact sledState_sledPowerDown_parking parking
    · exact (sledState_sledFast s n _ _).trans parking
  · exact (sledState_sledSlow s n _ _).trans parking

/-- A park request takes a sled in any state but OFF, PARKING and PARKED to PARKING (R313). -/
theorem sledState_sledPark {s : State} {n : Fin 8} (free : ¬ (sledState s n = 0 ∨ sledState s n = 6 ∨ sledState s n = 7))
    (src : Nat) : sledState (sledPark s n src) n = 6 := by
  unfold sledPark
  extract_lets s0 st s1
  have parking : sledState s1 n = 6 := sledState_sledEnter s0 n (by decide)
  rw [if_neg free]
  split
  · exact parking
  · exact sledState_parkOn parking

/-- A request that is held takes it as well. -/
theorem sledState_sledParkHeld {s : State} {n : Fin 8} (free : ¬ (sledState s n = 0 ∨ sledState s n = 6 ∨ sledState s n = 7))
    (held : s.sled[n].parkSrc ≠ []) : sledState (sledParkHeld s n) n = 6 := by
  unfold sledParkHeld
  split
  next none => exact absurd none held
  next src _ _ => exact sledState_sledPark free src

/-- DRV_EN powers up an OFF sled for which a park request is held: it parks at once. -/
theorem sledState_sledDrvEn_held {s : State} {n : Fin 8} (off : sledState s n = 0) (held : s.sled[n].parkSrc ≠ []) :
    sledState (sledDrvEn s n true) n = 6 := by
  unfold sledDrvEn
  dsimp only
  rw [if_pos rfl, if_pos off]
  apply sledState_sledParkHeld
  · rw [sledState_sledEnter _ n (by decide)]
    decide
  · rw [sledEnter, fput_sled, sled_modSled_same]
    exact held

/-! ### The statement -/

/-- After reset, with SAFE_N low (parkAll): the sled of H0 is OFF, and its park request is held. -/
def offUnderSafe : State := sledPark State.reset 0 2

theorem sledState_reset : sledState State.reset 0 = 0 := by decide

theorem offUnderSafe_eq : offUnderSafe = modSled State.reset 0 (fun d => { d with parkSrc := addOnce d.parkSrc 2 }) := by
  unfold offUnderSafe sledPark
  exact if_pos (Or.inl sledState_reset)

theorem parkSrc_offUnderSafe : offUnderSafe.sled[(0 : Fin 8)].parkSrc = [2] := by
  rw [offUnderSafe_eq, sled_modSled_same]
  rfl

/-- Refutes O24: where a park request is held (SAFE_N or the supply fault), a sled that DRV_EN powers up goes to PARKING (R311)
and not to IDLE, as the statement has it for every OFF sled. Its clauses for HOME, and for ABORT in FAULT, leave out the same
hypothesis that no source holds the sled (sledState_sledParkHeld). -/
theorem not_sledTargetsAndStops : ¬ Obligations.SledTargetsAndStops := by
  intro h
  obtain ⟨-, -, -, -, -, -, -, -, -, -, -, -, -, -, powersUp, -⟩ := h
  have off : sledState offUnderSafe 0 = 0 := by
    rw [offUnderSafe_eq, sledState_modSled, sledState_reset]
  have present : headPresent offUnderSafe.variant (0 : Fin 8).val = true := by
    rw [offUnderSafe_eq]
    rfl
  obtain ⟨t, ht, idle, -⟩ := powersUp offUnderSafe (.core 0) 0 present off
  have run : exec (.sldDrvEnWrite (.core 0) 0 true) offUnderSafe = .next (sledDrvEn offUnderSafe 0 true) :=
    congrArg Host.Outcome.next (if_pos present)
  obtain rfl := Host.Outcome.next.inj (run.symm.trans ht)
  have parks := sledState_sledDrvEn_held off (by rw [parkSrc_offUnderSafe]; decide)
  exact absurd (idle.symm.trans parks) (by decide)

end Machine
end Sys2Proof
end

section
/-! SUPPORT. A sled that settles in its detent, and the statement about updates and the switch (O25). -/

namespace Sys2Proof
namespace Machine

/-! ### An update of a sled that settles (R294, R310) -/

/-- The applied trim and the speed. -/
def trimAndSpeed (s : State) (n : Fin 8) : Int × Int := (s.sled[n].trim, s.sled[n].u)

@[simp] theorem trimAndSpeed_fput (s : State) (n : Fin 8) (f : Fld) (x : Nat) :
    trimAndSpeed (fput s f x) n = trimAndSpeed s n := rfl

theorem trimAndSpeed_modSled (s : State) (n : Fin 8) (f : Sled → Sled) :
    trimAndSpeed (modSled s n f) n = ((f s.sled[n]).trim, (f s.sled[n]).u) := by
  rw [trimAndSpeed, sled_modSled_same]

/-- In IDLE, with no stop under way, the profile does not step. -/
theorem sledStep1_idle {s : State} {n : Fin 8} (idle : sledState s n = 1) (rests : s.sled[n].stopping = false) :
    sledStep1 s n = s := by
  unfold sledStep1
  dsimp only
  rw [if_neg (ne_true_of_eq_false rests), if_neg (by rw [idle]; decide), if_neg (by rw [idle]; decide),
    if_neg (by rw [idle]; decide)]

theorem trimAndSpeed_sledStep2_detent {s : State} {n : Fin 8} (detent : s.sled[n].phase = .detent) :
    trimAndSpeed (sledStep2 s n) n = (0, s.sled[n].u) := by
  unfold sledStep2
  extract_lets req st top rate goal now next s1
  have zero : next = 0 := if_pos detent
  have same : s1.sled[n] = s.sled[n] := by
    dsimp only [s1]
    split
    · rfl
    · rfl
  rw [fputInt, fputInt, trimAndSpeed_fput, trimAndSpeed_fput, trimAndSpeed_modSled, zero, same]

/-- Setting the coil currents and the mode leaves the trim and the speed. -/
theorem trimAndSpeed_sledStep3 (s : State) (n : Fin 8) (q0 : Int) : trimAndSpeed (sledStep3 s n q0) n = trimAndSpeed s n := by
  unfold sledStep3
  extract_lets q force
  generalize (if s.sled[n].powered then coilAt s n q else (0, 0)) = currents
  split
  extract_lets s1 s2
  have coils : trimAndSpeed s1 n = trimAndSpeed s n := trimAndSpeed_modSled s n _
  have mode : trimAndSpeed s2 n = trimAndSpeed s1 n := by
    dsimp only [s2]
    split
    · split <;> rfl
    · rfl
  split
  · exact (trimAndSpeed_modSled _ n _).trans coils
  · exact (trimAndSpeed_modSled s2 n _).trans (mode.trans coils)

theorem trimAndSpeed_putDrive (s : State) (n : Fin 8) (ia ib : Int) : trimAndSpeed (putDrive s n ia ib) n = trimAndSpeed s n :=
  trimAndSpeed_modSled s n _

/-- At standstill there is no load angle to judge (R305). -/
theorem trimAndSpeed_sledStep4_still {s : State} {n : Fin 8} (still : s.sled[n].u = 0) (va vb ia ib da db : Int) :
    trimAndSpeed (sledStep4 s n va vb ia ib da db) n = trimAndSpeed s n := by
  unfold sledStep4
  extract_lets +onlyGivenNames d ea eb s0 valid s1
  have invalid : valid = false := by
    have stands : decide (0 < d.u) = false := by rw [show d.u = 0 from still]; rfl
    dsimp only [valid]
    rw [stands, Bool.and_false]
  rw [if_pos (by rw [invalid]; rfl)]
  exact (trimAndSpeed_fput s0 n _ _).trans ((trimAndSpeed_fput _ n _ _).trans (trimAndSpeed_modSled s n _))

/-- While the rotor settles in its detent the applied trim is 0, whatever SLED_TRIM is committed (R310). -/
theorem trim_sledUpdate_detent {s : State} {n : Fin 8} (sweeps : sweepRunning s = true) (idle : sledState s n = 1)
    (rests : s.sled[n].stopping = false) (still : s.sled[n].u = 0) (detent : s.sled[n].phase = .detent)
    (va vb ia ib da db : Int) : (sledUpdate s n va vb ia ib da db).sled[n].trim = 0 := by
  unfold sledUpdate
  rw [if_pos sweeps]
  extract_lets s0 q0 s1 s2
  have profile : sledStep1 s0 n = s := sledStep1_idle idle rests
  have driven : trimAndSpeed s1 n = (0, s.sled[n].u) := by
    rw [trimAndSpeed_putDrive, trimAndSpeed_sledStep3, profile, trimAndSpeed_sledStep2_detent detent]
  have judged : trimAndSpeed s2 n = trimAndSpeed s1 n :=
    trimAndSpeed_sledStep4_still ((congrArg Prod.snd driven).trans still) va vb ia ib da db
  exact congrArg Prod.fst (judged.trans driven)

/-! ### The statement -/

/-- After reset, with a sweep program running, SLED_TRIM committed as 1 by SE0, and the sled of H0 in IDLE. -/
def trimmedIdle : State :=
  sledEnter (fset (modSe State.reset 0 (fun e => { e with outs := [(3, 1)] })) fldSWP_STAT_STATE) 0 1

/-- DRV_EN is written 0 with HOLD_EN 1: the rotor settles in its detent, still in IDLE. -/
def settling : State := sledDrvEn trimmedIdle 0 false

/-- Refutes O25: it moves the applied trim toward the committed one in every update of a sled at rest in IDLE, and so while its rotor
settles after DRV_EN is written 0 (R310). There the model holds the trim at 0 (trim_sledUpdate_detent); the statement has no
hypothesis on the phase, and with SLED_TRIM 1 and the reset values of TRIM_MAX and TRIM_RATE it says 1. -/
theorem not_sledUpdatesAndSwitch : ¬ Obligations.SledUpdatesAndSwitch := by
  intro h
  obtain ⟨-, atRest, -⟩ := h
  have present : headPresent settling.variant (0 : Fin 8).val = true := by decide
  have sweeps : sweepRunning settling = true := by decide
  have idle : sledState settling 0 = 1 := by decide
  have rests : settling.sled[(0 : Fin 8)].stopping = false := by decide
  have still : settling.sled[(0 : Fin 8)].u = 0 := by decide
  have detent : settling.sled[(0 : Fin 8)].phase = .detent := by decide
  obtain ⟨t, ht, moved, -⟩ := atRest settling 0 0 0 0 0 0 0 present sweeps idle rests still
  have run : exec (.sledUpdate 0 0 0 0 0 0 0) settling = .next (sledUpdate settling 0 0 0 0 0 0 0) :=
    congrArg Host.Outcome.next (if_pos present)
  obtain rfl := Host.Outcome.next.inj (run.symm.trans ht)
  rw [trim_sledUpdate_detent sweeps idle rests still detent] at moved
  exact absurd moved (by decide)

end Machine
end Sys2Proof
end

section
/-! SUPPORT. What a step keeps and what memory reads after a write: the statements about every step (O58) and about memory (O60). -/

namespace Sys2Proof
namespace Machine

/-! ### Steps -/

/-- The invariant speaks of nothing that a command fails to keep. -/
theorem Kept.inv {m : Nat} {s t : State} (h : Kept m s t) (i : s.Inv) : t.Inv := by
  obtain ⟨⟨mem, flash⟩, zero, gone⟩ := i
  exact ⟨⟨h.mem mem, h.flash flash⟩, h.zero zero, h.goneInv gone⟩

theorem step_front {s : State} {c : Instr} {rest : List Instr} (h : s.pending = c :: rest) :
    step s = exec c { s with pending := rest } := by
  unfold step
  rw [h]

theorem step_idle {s : State} (h : s.pending = []) : step s = .next (idle s) := by
  unfold step
  rw [h]

/-- Settles O58: an idle step and the front command both keep the part, the queue that they find, and the invariant, and the front
command finds the queue's rest. -/
theorem everyStepKeepsTheInvariant : Obligations.EveryStepKeepsTheInvariant := by
  intro s inv
  cases queue : s.pending with
  | nil =>
    have kept := idle_kept s
    exact ⟨idle s, step_idle queue, kept.inv inv, kept.variant, kept.keyFused, kept.pending.trans queue⟩
  | cons c rest =>
    obtain ⟨t, run⟩ := exec_completes c { s with pending := rest }
    have kept := exec_kept run
    exact ⟨t, (step_front queue).trans run, kept.inv inv, kept.variant, kept.keyFused, kept.pending⟩

/-! ### Memory -/

/-- Settles O60: an address lies among the bytes written or outside them, and each case is a law of the write. -/
theorem memoryReadsWhatWasWritten : Obligations.MemoryReadsWhatWasWritten := by
  intro m a bs wf
  refine ⟨Memory.wf_writeBytes bs a wf, fun x => ?_⟩
  split
  case isTrue inside =>
    obtain ⟨above, below⟩ := inside
    obtain ⟨i, rfl⟩ := Nat.exists_eq_add_of_le above
    rw [Nat.add_sub_cancel_left]
    exact Memory.read_writeBytes_inside bs m a i wf (Nat.lt_of_add_lt_add_left below)
  case isFalse outside => exact Memory.read_writeBytes_outside bs m a x (by omega)

end Machine
end Sys2Proof
end

section
/-! SUPPORT. How a Plaza core issues and retires an instruction, and the statement about arithmetic (O31). -/

namespace Sys2Proof
namespace Machine

/-! ### Issue -/

section
variable {s u : State} {p : Fin 4} {w : Word}

/-- The fetch of a core that stands at a word answers the word. -/
theorem coreAt.fetch_eq (h : coreAt s u p w) : fetch s p = (u, .ok w) := by
  obtain ⟨-, state, word, -⟩ := h
  cases answer : (fetch s p).2 with
  | error e => rw [answer] at word; cases word
  | ok v =>
    rw [answer] at word
    cases word
    exact Prod.ext state answer

/-- A command whose instruction the word is runs it: no exception comes before (R366). -/
theorem coreAt.issue_eq (h : coreAt s u p w) {mine : Core → Word → Bool} (own : mine s.core[p] w = true)
    (run : State → Word → DxEnd) : issue s p mine run = dxFinish p (run u w) := by
  have fetched := h.fetch_eq
  obtain ⟨issues, -, -, legal, use, privilege⟩ := h
  unfold issue
  rw [issues, fetched]
  dsimp only
  rw [own, legal, use, privilege]
  rfl

theorem coreAt.variant_eq (h : coreAt s u p w) : u.variant = s.variant := by
  have kept := fetch_kept (Kept.same 0x800000000047e30e8 s) (by decide) p
  rw [h.fetch_eq] at kept
  exact kept.variant

theorem dxIs_self {op : Nat} (c : Core) (e : dxOp w = op) : dxIs op c w = true := by simp [dxIs, e]

/-! ### Retirement -/

theorem retireAt_core (pc : DWord) (f : Core → Core) : (retireAt u p pc f).core =
    u.core.set p { f { u.core[p] with resv := resvStep u.core[p].resv } with pc := pc } := rfl

theorem Core.put_resv (c : Core) (rdNum : Nat) (v : DWord) (r : Option (Nat × Nat)) :
    { c with resv := r }.put rdNum v = { c.put rdNum v with resv := r } := by
  unfold Core.put
  split <;> rfl

theorem retireAt_put_core (pc : DWord) (rdNum : Nat) (v : DWord) :
    (retireAt u p pc (fun c => c.put rdNum v)).core = u.core.set p (coreGoes u.core[p] rdNum v pc) := by
  rw [retireAt_core, Core.put_resv]

theorem retireAt_only (pc : DWord) (f : Core → Core) : changesOnly [.core, .counters, .wraps] u (retireAt u p pc f) := by
  refine changesOnly_count ?_ (by decide) (by decide) _
  intro q hq
  cases q
  case core => exact absurd (by decide) hq
  all_goals rfl

theorem retireAt_counter (pc : DWord) (f : Core → Core) :
    counter (retireAt u p pc f) (381 + 3 * p.val) = counter u (381 + 3 * p.val) + 1 :=
  counter_count_same _ _

theorem retires_retireAt (rdNum : Nat) (v pc : DWord) : retires u (retireAt u p pc (fun c => c.put rdNum v)) p rdNum v pc :=
  ⟨retireAt_put_core pc rdNum v, retireAt_counter pc _, retireAt_only pc _⟩

theorem retires_retire (rdNum : Nat) (v : DWord) : retires u (retire u p rdNum v) p rdNum v (u.core[p].pc + 4) :=
  retires_retireAt rdNum v _

end

/-! ### Arithmetic -/

theorem boolWord_slt (a b : DWord) : boolWord (a.slt b) = if a.toInt < b.toInt then 1 else 0 := by
  simp [boolWord, BitVec.slt]

theorem boolWord_ult (a b : DWord) : boolWord (a.ult b) = if a.toNat < b.toNat then 1 else 0 := by
  simp [boolWord, BitVec.ult]

theorem bitsOf_low_six (x : Nat) : bitsOf x 5 0 = x % 64 := by
  simp [bitsOf]

/-- The bit at the logarithm of a number is its highest. -/
theorem leadingZeros_eq (a : DWord) : leadingZeros a = if a = 0 then 64 else 63 - Nat.log2 a.toNat := by
  unfold leadingZeros
  by_cases zero : a = 0
  · subst zero
    decide
  · have positive : a.toNat ≠ 0 := fun h => zero (BitVec.eq_of_toNat_eq h)
    have small : a.toNat.log2 < 64 := (Nat.log2_lt positive).mpr a.isLt
    have found : (List.range 64).find? (fun i => a.getLsbD (63 - i)) = some (63 - a.toNat.log2) := by
      rw [List.find?_range_eq_some]
      refine ⟨?_, List.mem_range.mpr (by omega), fun j above => ?_⟩
      · rw [show 63 - (63 - a.toNat.log2) = a.toNat.log2 by omega]
        exact Nat.testBit_log2 positive
      · have high : a.toNat < 2 ^ (63 - j) := (Nat.log2_lt positive).mp (by omega)
        simpa [BitVec.getLsbD] using Nat.testBit_lt_two_pow high
    rw [found, if_neg zero, Option.getD_some]

/-- A command that issues an instruction which only writes rd computes what its function gives. -/
theorem computes_of_dxCompute {i : Fin 4 → Instr} {op : Nat} {f g : Core → Word → DWord}
    (run : ∀ p s, exec (i p) s = .next (dxCompute s p op g)) (same : ∀ c w, g c w = f c w) : computes i op f := by
  intro s u p w stands own
  refine ⟨retire u p (dxA w) (f u.core[p] w), ?_, retires_retire _ _⟩
  rw [run, dxCompute, stands.issue_eq (dxIs_self _ own), same]
  rfl

/-- Settles O31: each instruction is one issue that retires with a value, and the values that the model writes in other words are
the statement's. -/
theorem coreComputes : Obligations.CoreComputes := by
  unfold Obligations.CoreComputes
  refine ⟨?add, ?sub, ?and, ?or, ?xor, ?sll, ?srl, ?sra, ?slt, ?sltu, ?mul, ?mulh, ?mulhu, ?div, ?divu, ?rem, ?remu, ?addw, ?clz,
    ?addi, ?andi, ?ori, ?xori, ?slli, ?srli, ?srai, ?slti, ?sltiu, ?addiw, ?lui, ?auipc, ?rdtime, ?fence⟩
  case slt => exact computes_of_dxCompute (fun _ _ => rfl) (fun _ _ => boolWord_slt _ _)
  case sltu => exact computes_of_dxCompute (fun _ _ => rfl) (fun _ _ => boolWord_ult _ _)
  case slti => exact computes_of_dxCompute (fun _ _ => rfl) (fun _ _ => boolWord_slt _ _)
  case sltiu => exact computes_of_dxCompute (fun _ _ => rfl) (fun _ _ => boolWord_ult _ _)
  case mul =>
    exact computes_of_dxCompute (fun _ _ => rfl) (fun _ _ => by rw [BitVec.ofInt_mul, BitVec.ofInt_toInt, BitVec.ofInt_toInt])
  case clz => exact computes_of_dxCompute (fun _ _ => rfl) (fun _ _ => by rw [leadingZeros_eq])
  case slli => exact computes_of_dxCompute (fun _ _ => rfl) (fun _ _ => by rw [bitsOf_low_six])
  case srli => exact computes_of_dxCompute (fun _ _ => rfl) (fun _ _ => by rw [bitsOf_low_six])
  case srai => exact computes_of_dxCompute (fun _ _ => rfl) (fun _ _ => by rw [bitsOf_low_six])
  case rdtime =>
    intro s u p w stands own
    have ends := stands.issue_eq (dxIs_self s.core[p] own) (fun t w => (retire t p (dxA w) t.chipTime, none))
    exact ⟨_, congrArg Host.Outcome.next ends, retires_retire _ _⟩
  case fence =>
    intro s u p w stands own
    have ends := stands.issue_eq (dxIs_self s.core[p] own) (fun t _ => (retire t p 0 0, none))
    exact ⟨_, congrArg Host.Outcome.next ends, retires_retire _ _⟩
  all_goals exact computes_of_dxCompute (fun _ _ => rfl) (fun _ _ => rfl)

end Machine
end Sys2Proof
end

section
/-! SUPPORT. Branches, jumps and control registers of a Plaza core, and the statement about them (O33). -/

namespace Sys2Proof
namespace Machine

/-! ### Branches, jumps and exceptions -/

theorem dxTarget_eq (pc off : DWord) : dxTarget pc off = pc + 4 * off := by
  unfold dxTarget
  rw [BitVec.mul_comm, show (4 : DWord) = BitVec.twoPow 64 2 from rfl, BitVec.mul_twoPow_eq_shiftLeft]

theorem not_slt_eq (a b : DWord) : (!(a.slt b)) = decide (b.toInt ≤ a.toInt) := by
  rw [BitVec.slt, ← decide_not]
  exact decide_eq_decide.mpr Int.not_lt

theorem not_ult_eq (a b : DWord) : (!(a.ult b)) = decide (b.toNat ≤ a.toNat) := by
  rw [BitVec.ult, ← decide_not]
  exact decide_eq_decide.mpr Nat.not_lt

theorem branches_of_dxBranch {i : Fin 4 → Instr} {op : Nat} {f g : DWord → DWord → Bool}
    (run : ∀ p s, exec (i p) s = .next (dxBranch s p op g)) (same : ∀ a b, g a b = f a b) : branches i op f := by
  intro s u p w stands own
  refine ⟨_, ?_, retires_retireAt 0 0 _⟩
  rw [run, dxBranch, stands.issue_eq (dxIs_self _ own)]
  dsimp only
  rw [dxTarget_eq, same]
  rfl

theorem dxFinish_raises (p : Fin 4) (t : State) (e : DxExc) : dxFinish p (t, some e) = exceptionEntry t p e := rfl

/-- A synchronous exception outside a handler enters one, and touches nothing but its core (R364). -/
theorem exceptionEntry_enters {u : State} {p : Fin 4} (outside : stEXL u.core[p] = false) (e : DxExc) :
    exceptionEntry u p e = modCore u p (fun c => enterHandler c (BitVec.ofNat 64 e.1) e.2 (tvecBase c)) := by
  unfold exceptionEntry
  rw [outside]
  rfl

theorem modCore_only {u : State} (p : Fin 4) (f : Core → Core) : changesOnly [.core] u (modCore u p f) := by
  intro q hq
  cases q
  case core => exact absurd (by decide) hq
  all_goals rfl

/-! ### Control registers (R354) -/

theorem Core.put_dbpend (c : Core) (rdNum : Nat) (v : DWord) : (c.put rdNum v).dbpend = c.dbpend := by
  unfold Core.put
  split <;> rfl

theorem dxA_lt (w : Word) : dxA w < 32 := bitsOf_lt _ _ _

theorem Core.get_of_x {c d : Core} (h : d.x = c.x) (n : Nat) : d.get n = c.get n := by
  unfold Core.get
  rw [h]

/-- A register other than x0 reads what was written; x0 reads 0. -/
theorem Core.get_put (c : Core) {n : Nat} (h : n < 32) (v : DWord) : (c.put n v).get n = if n = 0 then 0 else v := by
  unfold Core.get Core.put
  split
  · rfl
  · simp [h]

section
variable {s u : State} {p : Fin 4} {w : Word} {op n : Nat} {f : Nat → DWord → DWord → Core → Core} {i : Fin 4 → Instr}

/-- A CSR instruction retires with the CSR's old value in rd, and then changes the core. -/
theorem coreAt.dxCsr_eq (h : coreAt s u p w) (own : dxOp w = op) : dxCsr s p op f =
    modCore (retire u p (dxA w) (csrRead u p (bitsOf w.toNat 11 0))) p
      (f (bitsOf w.toNat 11 0) (csrRead u p (bitsOf w.toNat 11 0)) (rs1 u.core[p] w)) :=
  h.issue_eq (dxIs_self _ own) _

theorem modCore_retire_core (rdNum : Nat) (v : DWord) (g : Core → Core) :
    (modCore (retire u p rdNum v) p g).core = u.core.set p (g (coreGoes u.core[p] rdNum v (u.core[p].pc + 4))) := by
  rw [modCore_core, show (retire u p rdNum v).core = _ from retireAt_put_core _ _ _]
  simp

/-- A CSR instruction whose change of the core leaves its registers and its pc. -/
theorem csr_completes {d : Core} (h : coreAt s u p w) (own : dxOp w = op) (run : exec (i p) s = .next (dxCsr s p op f))
    (csr : bitsOf w.toNat 11 0 = n)
    (changed : f n (csrRead u p n) (rs1 u.core[p] w) (coreGoes u.core[p] (dxA w) (csrRead u p n) (u.core[p].pc + 4)) = d)
    (regs : d.x = (u.core[p].put (dxA w) (csrRead u p n)).x) (next : d.pc = u.core[p].pc + 4) :
    ∃ t, exec (i p) s = .next t ∧
      t.core[p].get (dxA w) = (if dxA w = 0 then 0 else csrRead u p (bitsOf w.toNat 11 0)) ∧
      t.core[p].pc = u.core[p].pc + 4 ∧
      t.core = u.core.set p d ∧
      changesOnly [.core, .counters, .wraps] u t := by
  rw [h.dxCsr_eq own, csr] at run
  have core := modCore_retire_core (u := u) (p := p) (dxA w) (csrRead u p n) (f n (csrRead u p n) (rs1 u.core[p] w))
  rw [changed] at core
  refine ⟨_, run, ?_, ?_, core, ?_⟩
  · rw [core, Fin.getElem_fin, Vector.getElem_set_self, Core.get_of_x regs, Core.get_put _ (dxA_lt w), csr]
  · rw [core, Fin.getElem_fin, Vector.getElem_set_self, next]
  · exact changesOnly_trans (retireAt_only _ _) (changesOnly_mono (modCore_only p _) (by decide))

end

/-- Settles O33: branches and jumps retire at their target, a misaligned JALR enters the handler, and a CSR instruction retires
and then changes its CSR. -/
theorem coreBranchesAndRegisters : Obligations.CoreBranchesAndRegisters := by
  unfold Obligations.CoreBranchesAndRegisters
  refine ⟨?beq, ?bne, ?blt, ?bge, ?bltu, ?bgeu, ?jal, ?jalr, ?jalrMisaligned, ?csrr, ?wStatus, ?wTvec, ?wEpc, ?wScratch, ?wIe,
    ?wTimecmp, ?sStatus, ?sScratch, ?sIe, ?cStatus, ?cScratch, ?cIe, ?wDbpend⟩
  case beq => exact branches_of_dxBranch (fun _ _ => rfl) (fun _ _ => rfl)
  case bne => exact branches_of_dxBranch (fun _ _ => rfl) (fun _ _ => rfl)
  case blt => exact branches_of_dxBranch (fun _ _ => rfl) (fun _ _ => rfl)
  case bge => exact branches_of_dxBranch (fun _ _ => rfl) not_slt_eq
  case bltu => exact branches_of_dxBranch (fun _ _ => rfl) (fun _ _ => rfl)
  case bgeu => exact branches_of_dxBranch (fun _ _ => rfl) not_ult_eq
  case jal =>
    intro s u p w stands own
    refine ⟨_, congrArg Host.Outcome.next (stands.issue_eq (dxIs_self _ own) _), ?_⟩
    dsimp only
    rw [dxTarget_eq]
    exact retires_retireAt _ _ _
  case jalr =>
    intro s u p w stands own aligned
    refine ⟨_, congrArg Host.Outcome.next (stands.issue_eq (dxIs_self _ own) _), ?_⟩
    dsimp only
    rw [if_neg (not_not_intro aligned)]
    exact retires_retireAt _ _ _
  case jalrMisaligned =>
    intro s u p w stands own misaligned outside
    refine ⟨_, congrArg Host.Outcome.next (stands.issue_eq (dxIs_self _ own) _), ?_⟩
    dsimp only
    rw [if_pos misaligned, dxFinish_raises, exceptionEntry_enters outside]
    exact ⟨rfl, modCore_only p _⟩
  case csrr =>
    intro s u p w stands own
    exact csr_completes stands own rfl rfl rfl rfl rfl
  case wDbpend =>
    intro s u p w stands own csr
    obtain ⟨t, run, get, next, core, only⟩ := csr_completes (i := Instr.csrw) stands own rfl csr rfl rfl rfl
    refine ⟨t, run, get, next, ?_, only⟩
    rw [core, Fin.getElem_fin, Vector.getElem_set_self, if_pos rfl]
    dsimp only
    rw [Core.put_dbpend]
  case wIe | sIe | cIe =>
    intro s u p w stands own csr
    refine csr_completes stands own rfl csr ?_ rfl rfl
    rw [stands.variant_eq]
    rfl
  all_goals
    intro s u p w stands own csr
    exact csr_completes stands own rfl csr rfl rfl rfl

end Machine
end Sys2Proof
end

section
/-! SUPPORT. States that refute the statements about a Plaza core's accesses to memory (O32), its POST, TAKE and WAIT (O35),
and its exceptions, interrupts and reset (O34). -/

namespace Sys2Proof
namespace Machine

/-! ### Instructions that act on memory -/

/-- The memory that a command leaves. -/
def memAfter (o : Host.Outcome State Fault Refusal) : List Host.Cell :=
  match o with
  | .next t => t.mem
  | _ => []

/-- After reset, with core P0 running at the first word of TCM, in supervisor mode, and its registers x1 and x2 as given. -/
def runningAt (w : Word) (x1 x2 : DWord) : State :=
  modCore
    { fputAt State.reset fldPLZ_STAT_RUNNING 0 true with
      sup := { State.reset.sup with seq := .done, dormant := false }
      boot := { State.reset.boot with pinLow := false }
      mem := Memory.writeBytes [] 0x1000000 (natLe 4 w.toNat) }
    0 (fun c => { c with pc := 0x1000000, x := (c.x.set 1 x1).set 2 x2 })

/-- P0 stands at SB x0, 7(x1) with x1 = 0x100_0008, and bits 0 and 1 of the TCM word there have flipped. -/
def storeIntoSpoiledWord : State := { runningAt 0x60008007 0x1000008 0 with tcmErr := [(0x1000008, 3)] }

theorem coreAt_storeIntoSpoiledWord : coreAt storeIntoSpoiledWord storeIntoSpoiledWord 0 0x60008007 :=
  ⟨by decide, rfl, rfl, by decide, by decide, by decide⟩

/-- Two flips are beyond the check bits of the word (R395): the store, which merges its byte 7 into the word as it reads, writes
the flipped byte 0 back (R348). -/
theorem memAfter_storeIntoSpoiledWord :
    memAfter (exec (.sb 0) storeIntoSpoiledWord) = Memory.writeBytes storeIntoSpoiledWord.mem 0x1000008 [3] := by
  decide

/-- Refutes O32: a store of one byte to a TCM word that two flipped bits have made uncorrectable also changes the byte with the
flips. The statement is over every state, those with stored errors in TCM included, and names the stored byte alone. -/
theorem not_coreMemoryAccesses : ¬ Obligations.CoreMemoryAccesses := by
  intro h
  obtain ⟨-, -, -, -, -, -, -, -, storeByte, -⟩ := h
  obtain ⟨t, run, stored, -⟩ := storeByte storeIntoSpoiledWord storeIntoSpoiledWord 0 0x60008007 coreAt_storeIntoSpoiledWord
    (by decide) (by decide) (by decide) (by decide) (by decide)
  have spoiled := memAfter_storeIntoSpoiledWord
  rw [run] at spoiled
  exact absurd (stored.symm.trans spoiled) (by decide)

/-- P0 stands at TAKE x5, x1, x2, with x1 the handle of FIFO 0, which holds one record for it, and x2 = 0x100_0008; the table of
errors in TCM lists an address that no TCM word has, 0x100_0004. -/
def takeBesideStrayError : State :=
  modFifo
    (fput (fput { runningAt 0xC2508800 (BitVec.ofNat 64 (fifoBase 0)) 0x1000008 with tcmErr := [(0x1000004, 1)] }
      (fldFIFO_CFG_CONSUMER 0) 1) (fldFIFO_STAT_COUNT 0) 1)
    0 (fun q => { q with wk := 1, stage := [0x55] })

theorem coreAt_takeBesideStrayError : coreAt takeBesideStrayError takeBesideStrayError 0 0xC2508800 :=
  ⟨by decide, rfl, rfl, by decide, by decide, by decide⟩

/-- The eight bytes that the store mends begin at the listed address, below the record's place, and take those of the word that
holds it: here of the instruction. -/
theorem memAfter_takeBesideStrayError :
    Memory.read (memAfter (exec (.take 0) takeBesideStrayError)) 0x1000005 = 0x88 := by
  decide

theorem read_below_takenRecord :
    Memory.read (Memory.writeBytes (fifoPop takeBesideStrayError 1 0).1.mem 0x1000008 (recordBytes 0x55)) 0x1000005 = 0 := by
  decide

/-- Refutes O35: it says of TAKE that memory changes by the record's 32 bytes alone, but the store also mends the TCM words that
the error table lists, and with an entry off the eight-byte words of TCM it writes below the record. The statement is over every
state; that the table lists whole words is no hypothesis of it. -/
theorem not_corePostsTakesAndWaits : ¬ Obligations.CorePostsTakesAndWaits := by
  intro h
  obtain ⟨-, -, -, -, -, -, -, -, -, -, -, -, take, -⟩ := h
  obtain ⟨t, run, -, -, stored, -⟩ := take takeBesideStrayError takeBesideStrayError 0 0xC2508800
    (fifoPop takeBesideStrayError 1 0).1 0 0x80000000 0x55 coreAt_takeBesideStrayError (by decide) (by decide) (by decide)
    (by decide) (by decide) (by decide) rfl rfl rfl
  have mended := memAfter_takeBesideStrayError
  rw [run] at mended
  have written : Memory.read t.mem 0x1000005 = 0 := (congrArg (Memory.read · 0x1000005) stored).trans read_below_takenRecord
  exact absurd (written.symm.trans mended) (by decide)

/-! ### The reset of a core -/

/-- After reset, with the permit of the clock output held by core P0 and a source selected for it. -/
def clockOutputHeld : State :=
  fput { State.reset with clk := { State.reset.clk with outSrc := 1 } } (fldPERMIT_OWNER 21) 1

/-- The reset of the core releases the permit, and the clock output returns to its reset configuration (R61). -/
theorem coreResetOne_clockOutputHeld : (coreResetOne clockOutputHeld 0).clk.outSrc = 0 := by
  decide

/-- Refutes O34: the frame of a core's reset leaves out the clocks. With the permit of the clock output held by the core, the
output's source falls from 1 to 0. -/
theorem not_coreExceptionsAndInterrupts : ¬ Obligations.CoreExceptionsAndInterrupts := by
  intro h
  obtain ⟨-, -, -, -, -, -, -, -, -, coreReset, -⟩ := h
  obtain ⟨t, run, -, -, -, frame⟩ := coreReset clockOutputHeld (.core 1) 0
  obtain rfl := Host.Outcome.next.inj run
  have kept : (coreResetOne clockOutputHeld 0).clk = clockOutputHeld.clk := frame .clk (by decide)
  have released := coreResetOne_clockOutputHeld
  rw [kept] at released
  exact absurd released (by decide)

end Machine
end Sys2Proof
end

section
/-! SUPPORT. A state that refutes the statement about cache maintenance (O36). -/

namespace Sys2Proof
namespace Machine

/-- The first address of row 8192, the first row that DRAM_CFG does not reach with 13 row bits (R396). -/
def pastLastRow : Nat := 0x8000000000 + 1984 * 2 ^ 7 * 2 ^ 13

/-- The line there, dirty. -/
def dirtyPastLastRow : ArcLine := ⟨arcTag pastLastRow, true, List.replicate 64 7, false, 0⟩

/-- P0 stands at ARC_CLEAN_A x1 with x1 the address of a dirty line in row 8192, the buffer of that row's bank holds its check
word, dirty and with two flips, and DRAM_CFG says 13 row bits, so that the address now names row 0. -/
def cleanPastLastRow : State :=
  modDram
    { fput (runningAt 0xC8008004 (BitVec.ofNat 64 pastLastRow) 0) fldDRAM_CFG_ROW_BITS 13 with
      arcade := { State.reset.arcade with
        lines := [(arcKey (arcBank pastLastRow) (arcSet pastLastRow) 0, dirtyPastLastRow)] } }
    0 (fun ch => { ch with checks := [(0, ⟨2 ^ 13, true, true, 3⟩)] })

theorem coreAt_cleanPastLastRow : coreAt cleanPastLastRow cleanPastLastRow 0 0xC8008004 :=
  ⟨by decide, rfl, rfl, by decide, by decide, by decide⟩

/-- The buffered word is taken for another row's: it is written back to row 8192, read anew for the line, and found uncorrectable
(R394, R403). -/
theorem dxCmo_cleanPastLastRow_reports :
    (dxCmo cleanPastLastRow 0 4 (fun t x => cmoArcClean t x.toNat)).reports.length = 1 := by
  decide +kernel

/-- Refutes O36: it asks that the stored check word of the line's row decodes, but the write-back first writes back the check word
that the bank's buffer holds, and where DRAM_CFG folds the line's row onto another this is the line's own. It is then read back
uncorrectable, and the report of it is outside the frame. The statement is over every state, one whose buffer holds a row beyond
DRAM_CFG included. -/
theorem not_cacheMaintenance : ¬ Obligations.CacheMaintenance := by
  intro h
  obtain ⟨-, -, -, -, clean, -⟩ := h
  obtain ⟨t, run, -, -, -, -, -, -, frame⟩ := clean cleanPastLastRow cleanPastLastRow 0 0xC8008004 0
    dirtyPastLastRow coreAt_cleanPastLastRow (by decide) (by decide) (by decide) (by decide) (by decide)
    (by decide) rfl (by decide) (by decide)
  obtain rfl := Host.Outcome.next.inj run
  have kept : (dxCmo cleanPastLastRow 0 4 (fun t x => cmoArcClean t x.toNat)).reports = cleanPastLastRow.reports :=
    frame .reports (by decide)
  have reported := dxCmo_cleanPastLastRow_reports
  rw [kept] at reported
  exact absurd reported (by decide)

end Machine
end Sys2Proof
end

section
/-! SUPPORT. What the operations of the L1 caches and the Arcade come to, and the statement about fills, requests, the drain and
control (O37). -/

namespace Sys2Proof
namespace Machine

/-! ### Frames -/

theorem forEach_idle {α : Type} {s : State} (xs : List α) (f : State → α → State) (idle : ∀ x ∈ xs, f s x = s) :
    forEach xs s f = s :=
  List.foldlRecOn xs f (motive := (· = s)) rfl (fun _ hb x hx => hb ▸ idle x hx)

/-- A part of a frame that is the same after all. -/
theorem changesOnly_of_cons {s t : State} {q : Part} {l : List Part} (h : changesOnly (q :: l) s t) (same : q.same s t) :
    changesOnly l s t := by
  intro p hp
  by_cases e : p = q
  · exact e ▸ same
  · exact h p (List.not_mem_cons_of_ne_of_not_mem e hp)

/-- A frame that leaves the registers and the part leaves what every register reads. -/
theorem rd_of_changesOnly {s t : State} {l : List Part} (h : changesOnly l s t)
    (hl : .regs ∉ l ∧ .variant ∉ l ∧ .keyFused ∉ l) (a : Nat) : rd t a = rd s a := by
  obtain ⟨regs, variant, keyFused⟩ := hl
  have eregs : t.regs = s.regs := h .regs regs
  have evariant : t.variant = s.variant := h .variant variant
  have ekeyFused : t.keyFused = s.keyFused := h .keyFused keyFused
  rw [rd, rd, eregs, evariant, ekeyFused]

theorem regsBut_of_changesOnly {s t : State} {l : List Part} (h : changesOnly l s t)
    (hl : .regs ∉ l ∧ .variant ∉ l ∧ .keyFused ∉ l) (as : List Nat) : regsBut s t as :=
  fun a _ => rd_of_changesOnly h hl a

theorem regsBut_fputAt (s : State) (f : Fld) (i : Nat) (b : Bool) : regsBut s (fputAt s f i b) [f.addr] :=
  regsBut_fput _ (regsBut_same s _) (List.mem_singleton.mpr rfl)

/-- What a write of one field leaves, answered. -/
theorem fput_reply_ends (s : State) {f : Fld} {x : Nat} (ok : f.ok = true) (hx : x < 2 ^ (f.hi + 1 - f.lo)) :
    fget (reply (fput s f x) .ok 0 []) f = x ∧ regsBut s (reply (fput s f x) .ok 0 []) [f.addr] ∧
      changesOnly [.regs, .lastReply] s (reply (fput s f x) .ok 0 []) :=
  ⟨(reply_fget _ _ _ _ _).trans (fget_fput_fits s ok hx),
    regsBut_reply (regsBut_fput _ (regsBut_same s _) (List.mem_singleton.mpr rfl)) _ _ _,
    changesOnly_reply (changesOnly_fput (changesOnly_same s _) (by decide) _ _) (by decide) _ _ _⟩

/-! ### The L1 caches (R368, R369, R387) -/

section
variable {s t : State} {p : Fin 4} {c : L1Cache}

theorem l1Get_modL1 (s : State) (p : Fin 4) (c : L1Cache) (f : L1 → L1) : l1Get (modL1 s p c f) p c = f (l1Get s p c) := by
  cases c <;> simp [l1Get, modL1]

theorem modL1_modL1 (s : State) (p : Fin 4) (c : L1Cache) (f g : L1 → L1) :
    modL1 (modL1 s p c f) p c g = modL1 s p c (fun q => g (f q)) := by
  cases c <;> simp [modL1]

/-- The part of the state that holds the caches of a kind. -/
def l1Part : L1Cache → Part
  | .instr => .l1i
  | .data => .l1d

theorem changesOnly_modL1 {l : List Part} (h : changesOnly l s t) (p : Fin 4) (c : L1Cache) (hl : l1Part c ∈ l) (f : L1 → L1) :
    changesOnly l s (modL1 t p c f) := by
  have only : changesOnly [l1Part c] t (modL1 t p c f) := by
    cases c with
    | instr => exact (kept_l1i (Kept.same 0x80000 t) rfl).changesOnly_of_mask rfl
    | data => exact (kept_l1d (Kept.same 0x40000 t) rfl).changesOnly_of_mask rfl
  exact changesOnly_trans h (changesOnly_mono only (fun _ hp => List.mem_singleton.mp hp ▸ hl))

theorem l1Settle_on (on : (l1Get s p c).draining = false) : l1Settle p c s = s := by
  simp [l1Settle, on]

theorem l1Settle_filling (filling : (l1Get s p c).miss ≠ []) : l1Settle p c s = s := by
  simp [l1Settle, filling]

/-- A cache that waits to empty and has no fill under way empties. -/
theorem l1Settle_empties (draining : (l1Get s p c).draining = true) (landed : (l1Get s p c).miss = []) :
    l1Settle p c s = modL1 s p c (fun q => { l1InvAll q with draining := false }) := by
  simp [l1Settle, draining, landed]

theorem changesOnly_l1Settle {l : List Part} (h : changesOnly l s t) (p : Fin 4) (c : L1Cache) (hl : l1Part c ∈ l) :
    changesOnly l s (l1Settle p c t) := by
  unfold l1Settle
  split
  · exact changesOnly_modL1 h p c hl _
  · exact h

theorem changesOnly_l1Store {l : List Part} (h : changesOnly l s t) (hl : .l1d ∈ l) (p : Fin 4) (a : Nat) (new : List Byte) :
    changesOnly l s (l1Store t p a new) := by
  refine forEach_only h _ _ (fun u k hu => ?_)
  split
  · exact changesOnly_modL1 hu k .data hl _
  · exact changesOnly_l1Settle (changesOnly_modL1 hu k .data hl _) k .data hl

/-- A fill that finds an invalid way takes it, and no line leaves (R368, R380). -/
theorem l1Fill_data_invalid {a : Nat} {m : L1Miss} (fetching : s.l1d[p].miss.find? (fun x => x.line == eccWord a) = some m)
    (on : s.l1d[p].draining = false)
    (invalid : aget? s.l1d[p].lines (l1Key (l1Set (eccWord a)) (l1Victim s.l1d[p] (eccWord a))) = none) :
    l1Fill s p .data a = modL1 s p .data (fun q =>
      { q with
        lines := aset q.lines (l1Key (l1Set (eccWord a)) (l1Victim s.l1d[p] (eccWord a)))
          ⟨l1Tag (eccWord a), m.data, q.clock + 1, 0⟩
        clock := q.clock + 1
        miss := q.miss.filter (fun x => x.line != eccWord a) }) := by
  have landing (f : L1 → L1) : l1Get (modL1 s p .data f) p .data = f s.l1d[p] := l1Get_modL1 s p .data f
  have victim : l1Victim { s.l1d[p] with miss := s.l1d[p].miss.filter (fun x => x.line != eccWord a) } (eccWord a)
      = l1Victim s.l1d[p] (eccWord a) := rfl
  unfold l1Fill
  rw [show (l1Get s p .data).miss = s.l1d[p].miss from rfl, fetching]
  dsimp only [l1Install]
  rw [landing, victim, invalid]
  dsimp only
  rw [modL1_modL1, l1Settle_on (by rw [landing]; exact on)]

/-- A cache that is switched off with no fill under way empties at once (R387). -/
theorem l1Disable_data_landed (on : l1On s p .data = true) (landed : s.l1d[p].miss = []) :
    l1Disable s p .data =
      modL1 (fputAt s fldL1_CTL_DEN p.val false) p .data (fun q => { l1InvAll q with draining := false }) := by
  unfold l1Disable
  rw [on, if_pos rfl, l1Settle_empties (by rw [l1Get_modL1]) (by rw [l1Get_modL1]; exact landed), modL1_modL1]
  rfl

/-- A cache that is switched off with fills under way waits for them (R387). -/
theorem l1Disable_instr_filling (on : l1On s p .instr = true) (filling : s.l1i[p].miss ≠ []) :
    l1Disable s p .instr =
      modL1 (fputAt s fldL1_CTL_IEN p.val false) p .instr (fun q => { q with draining := true }) := by
  unfold l1Disable
  rw [on, if_pos rfl, l1Settle_filling (by rw [l1Get_modL1]; exact filling)]

end

/-! ### A store that the Arcade accepts (R357, R369) -/

theorem changesOnly_resvDrop (s : State) (a n : Nat) : changesOnly [.core] s (resvDrop s a n) :=
  (resvDrop_kept (Kept.same 0x80000000000000000 s) rfl a n).changesOnly_of_mask rfl

theorem changesOnly_arcAccept (s : State) (r : ArcReq) : changesOnly [.l1d, .core] s (arcAccept s r) := by
  have dropped (new : List Byte) : changesOnly [.l1d, .core] s (resvDrop s r.addr new.length) :=
    changesOnly_mono (changesOnly_resvDrop _ _ _) (by decide)
  unfold arcAccept
  split
  · dsimp only
    split
    · exact changesOnly_l1Store (dropped _) (by decide) _ _ _
    · exact dropped _
  · exact changesOnly_same _ _

section
variable (s : State) (r : ArcReq)

theorem rd_arcAccept (a : Nat) : rd (arcAccept s r) a = rd s a := rd_of_changesOnly (changesOnly_arcAccept s r) (by decide) a

theorem arcade_arcAccept : (arcAccept s r).arcade = s.arcade := changesOnly_arcAccept s r .arcade (by decide)

theorem mem_arcAccept : (arcAccept s r).mem = s.mem := changesOnly_arcAccept s r .mem (by decide)

theorem counter_arcAccept (k : Nat) : counter (arcAccept s r) k = counter s k := by
  have same : (arcAccept s r).counters = s.counters := changesOnly_arcAccept s r .counters (by decide)
  rw [counter, counter, same]

theorem arcState_arcAccept : arcState (arcAccept s r) = arcState s := fget_of_rd (rd_arcAccept s r _)

theorem arcMayAlloc_arcAccept (cls : Nat) : arcMayAlloc (arcAccept s r) cls = arcMayAlloc s cls := by
  have same (f : Fld) : fget (arcAccept s r) f = fget s f := fget_of_rd (rd_arcAccept s r _)
  simp only [arcMayAlloc, arcFree, arcState, same]

end

/-! ### Miss registers (R380, R388) -/

theorem arcBank_lt (a : Nat) : arcBank a < 4 := Nat.mod_lt _ (by decide)

section
variable (s : State)

theorem regsBut_showMiss : regsBut s (showMiss s) [regARC_MISS] := by
  have one : regARC_MISS ∈ [regARC_MISS] := List.mem_singleton.mpr rfl
  exact regsBut_fput _ (regsBut_fput _ (regsBut_fput _ (regsBut_fput _ (regsBut_same s _) one) one) one) one

theorem regsBut_setMiss (b : Nat) (m : List MissReg) : regsBut s (setMiss s b m) [regARC_MISS] :=
  fun a ha => regsBut_showMiss { s with arcade := { s.arcade with miss := s.arcade.miss.set! b m } } a ha

theorem changesOnly_setMiss (b : Nat) (m : List MissReg) : changesOnly [.regs, .arcade] s (setMiss s b m) :=
  (setMiss_kept (Kept.same 0x20008 s) rfl b m).changesOnly_of_mask rfl

theorem counter_setMiss (b : Nat) (m : List MissReg) (k : Nat) : counter (setMiss s b m) k = counter s k := rfl

theorem arcade_setMiss (b : Nat) (m : List MissReg) :
    (setMiss s b m).arcade = { s.arcade with miss := s.arcade.miss.set! b m } := rfl

end

theorem setBang_getBang_same {α : Type} [Inhabited α] (v : Vector α 4) {b : Nat} (hb : b < 4) {x : α} (h : v[b]! = x) :
    v.set! b x = v := by
  rw [getElem!_pos v b hb] at h
  ext i hi
  by_cases e : b = i
  · subst e
    simpa using h.symm
  · simp [e]

theorem miss_setMiss (s : State) {b : Nat} (hb : b < 4) (m : List MissReg) : (setMiss s b m).arcade.miss[b]! = m := by
  simp [arcade_setMiss, hb]

/-- The requests of a bank at which none waits try nothing again. -/
theorem arcRetry_idle {s : State} {b : Nat} (hb : b < 4) (none_waits : s.arcade.waiting[b]! = []) : arcRetry s b = s := by
  unfold arcRetry
  rw [none_waits, List.foldl_nil, setArcWaiting, setBang_getBang_same _ hb none_waits]

/-! ### Requests at the Arcade (R373 to R377, R380) -/

theorem arcFlip_zero (s : State) (a : Nat) : arcFlip s a 0 = s := by
  unfold arcFlip
  split
  · exact if_pos rfl
  · rfl

/-- The request that a sender makes. -/
def requestOf (sender : ArcFrom) (addr : BitVec 40) (store : Option (List Byte)) : ArcReq :=
  ⟨arcClass sender, addr.toNat, arcClip addr.toNat store, arcCore sender⟩

theorem exec_arcadeRequest_flips (sender : ArcFrom) (addr : BitVec 40) (store : Option (List Byte)) (flips : BitVec 576) (s : State) :
    exec (.arcadeRequest sender addr store flips) s =
      .next (arcRequest (arcFlip s addr.toNat flips.toNat) (requestOf sender addr store)) := rfl

theorem exec_arcadeRequest (sender : ArcFrom) (addr : BitVec 40) (store : Option (List Byte)) (s : State) :
    exec (.arcadeRequest sender addr store 0) s = .next (arcRequest s (requestOf sender addr store)) := by
  have no_flips : (0 : BitVec 576).toNat = 0 := BitVec.toNat_zero
  rw [exec_arcadeRequest_flips, no_flips, arcFlip_zero]

section
variable {s : State} {r : ArcReq}

theorem lineDecode_sound {flips : Nat} (sound : (lineDecode flips).1 = .good) :
    lineDecode flips = (.good, (lineDecode flips).2) := Prod.ext sound rfl

theorem arcSound_held {a w : Nat} {l : ArcLine} (sound : (lineDecode l.err).1 = .good) : arcSound s a w l = (s, .held l) := by
  rw [arcSound, lineDecode_sound sound]

theorem arcRequest_hits {w : Nat} {l : ArcLine} (usable : stagingUsable s r.addr = true) (no_register : missIndex s r.addr = none)
    (held : arcFind s r.addr = some (w, l)) (sound : (lineDecode l.err).1 = .good) :
    arcRequest s r = arcAnswer (arcServeHit (arcAccept s r) r w l) r l.data l.poison := by
  simp only [arcRequest, usable, no_register, held, arcHit, arcSound_held sound, Bool.not_true, Bool.false_eq_true, if_false]

theorem arcRequest_misses (usable : stagingUsable s r.addr = true) (no_register : missIndex s r.addr = none)
    (absent : arcFind s r.addr = none) : arcRequest s r = arcPrimary s r := by
  simp only [arcRequest, usable, no_register, absent, Bool.not_true, Bool.false_eq_true, if_false]

theorem arcRequest_merges {i : Nat} {m : MissReg} (usable : stagingUsable s r.addr = true)
    (register : missIndex s r.addr = some i) (busy : (s.arcade.miss[arcBank r.addr]!)[i]? = some m) (room : m.reqs.length ≤ 8) :
    arcRequest s r = arcMerge (arcAccept s r) r i := by
  simp only [arcRequest, usable, register, busy, room, Bool.not_true, Bool.false_eq_true, if_false, if_true]

theorem arcPrimary_takes (free : (s.arcade.miss[arcBank r.addr]!).length < 16) :
    arcPrimary s r = arcTakeReg (arcAccept s r) r := if_pos free

theorem arcPrimary_waits (full : 16 ≤ (s.arcade.miss[arcBank r.addr]!).length) : arcPrimary s r = arcWait s r :=
  if_neg (Nat.not_lt.mpr full)

/-- A request into a register that allocates leaves its class. -/
theorem arcMerge_alloc {i : Nat} {m : MissReg} (busy : (s.arcade.miss[arcBank r.addr]!)[i]? = some m) (alloc : m.alloc = true) :
    arcMerge s r i =
      setMiss (count s 417) (arcBank r.addr) ((s.arcade.miss[arcBank r.addr]!).set i { m with reqs := m.reqs ++ [r] }) := by
  obtain ⟨line, _, cls, reqs⟩ := m
  obtain rfl : _ = true := alloc
  simp [arcMerge, busy]

theorem arcTakeReg_on (on : arcState s = 1) :
    arcTakeReg s r = setMiss (count s (410 + 2 * arcBank r.addr)) (arcBank r.addr)
      (s.arcade.miss[arcBank r.addr]! ++ [⟨eccWord r.addr, arcMayAlloc s r.cls, r.cls, [r]⟩]) := by
  simp [arcTakeReg, countIf, on]

theorem waiting_arcWait : (arcWait s r).arcade.waiting[arcBank r.addr]! = s.arcade.waiting[arcBank r.addr]! ++ [r] := by
  simp [arcWait, setArcWaiting, arcBank_lt]

/-- A hit shows in the order of the set's ways, in the count of hits and, where it stores, in the line alone. -/
theorem arcServeHit_read (w : Nat) (l : ArcLine) (read : r.store = none) :
    arcServeHit s r w l = arcTouch (count s (409 + 2 * arcBank r.addr)) r.addr w := by
  simp only [arcServeHit, read]

theorem lines_arcServeHit_store (w : Nat) (l : ArcLine) {new : List Byte} (store : r.store = some new) :
    (arcServeHit s r w l).arcade.lines =
      aset s.arcade.lines (arcKey (arcBank r.addr) (arcSet r.addr) w)
        { l with
          dirty := true
          data := overlay l.data (r.addr % 64) new
          poison := l.poison && !(new.length == 64)
          err := lineFresh l.err (r.addr % 64) new.length } := by
  simp only [arcServeHit, store]
  rfl

theorem mem_arcServeHit (w : Nat) (l : ArcLine) : (arcServeHit s r w l).mem = s.mem :=
  (arcServeHit_kept (Kept.same 0x23000 s) rfl r w l).only .mem rfl

end

/-- What a request that hits may change. -/
theorem changesOnly_arcServeHit (s : State) (r : ArcReq) (w : Nat) (l : ArcLine) :
    changesOnly [.arcade, .counters, .wraps] s (arcServeHit s r w l) :=
  (arcServeHit_kept (Kept.same 0x23000 s) rfl r w l).changesOnly_of_mask rfl

/-! ### A fill that lands (R374, R380) -/

theorem arcade_dramRead (s : State) (a : Nat) : (dramRead s a).1.arcade = s.arcade :=
  (dramRead_kept (Kept.same 0x4603008 s) rfl a).only .arcade rfl

/-- Requests that read get the line as the fill brought it. -/
theorem serveAll_reads (bs : List Byte) (p : Bool) {reqs : List ArcReq} (reads : ∀ r ∈ reqs, r.store = none) :
    serveAll bs p reqs = (bs, p, reqs.map (fun r => ⟨r.addr, bs, p⟩)) := by
  have serve (acc : List ArcAnswer) :
      reqs.foldl serveOne (bs, p, acc) = (bs, p, acc ++ reqs.map (fun r => ⟨r.addr, bs, p⟩)) := by
    induction reqs generalizing acc with
    | nil => simp
    | cons r reqs ih =>
      rw [List.forall_mem_cons] at reads
      obtain ⟨read, reads⟩ := reads
      have one : serveOne (bs, p, acc) r = (bs, p, acc ++ [⟨r.addr, bs, p⟩]) := by simp only [serveOne, read]
      rw [List.foldl_cons, one, ih reads, List.append_assoc, List.map_cons, List.singleton_append]
  exact serve []

/-- A state with the answers of a fill. -/
def withAnswers (s : State) (l : List ArcAnswer) : State := { s with arcade := { s.arcade with answers := l } }

section
variable {s u : State} {b i : Nat} {m : MissReg} {bs : List Byte} {p : Bool}

/-- A fill that does not allocate and serves reads alone frees its register and answers them (R374). -/
theorem arcLand_reads (busy : (s.arcade.miss[b]!)[i]? = some m) (alloc : m.alloc = false) (reads : ∀ r ∈ m.reqs, r.store = none)
    (read : dramRead (setMiss s b ((s.arcade.miss[b]!).eraseIdx i)) m.line = (u, bs, p)) :
    arcLand s b i = withAnswers u (m.reqs.map (fun r => ⟨r.addr, bs, p⟩)) := by
  unfold arcLand
  rw [busy]
  dsimp only
  rw [read]
  dsimp only
  rw [serveAll_reads bs p reads, alloc, if_neg Bool.false_ne_true]
  exact forEach_idle m.reqs _ (fun r hr => by rw [reads r hr])

theorem arcade_of_fill (read : dramRead (setMiss s b ((s.arcade.miss[b]!).eraseIdx i)) m.line = (u, bs, p)) :
    u.arcade = { s.arcade with miss := s.arcade.miss.set! b ((s.arcade.miss[b]!).eraseIdx i) } := by
  have kept := arcade_dramRead (setMiss s b ((s.arcade.miss[b]!).eraseIdx i)) m.line
  rw [read] at kept
  exact kept

/-- The last of the reads that such a fill serves is the answer that shows. -/
theorem arcFill_reads {r : ArcReq} (hb : b < 4) (busy : (s.arcade.miss[b]!)[i]? = some m) (alloc : m.alloc = false)
    (none_waits : s.arcade.waiting[b]! = []) (reads : ∀ r ∈ m.reqs, r.store = none) (last : m.reqs.getLast? = some r)
    (read : dramRead (setMiss s b ((s.arcade.miss[b]!).eraseIdx i)) m.line = (u, bs, p)) :
    arcFill s b i =
      reply (withAnswers u (m.reqs.map (fun r => ⟨r.addr, bs, p⟩))) (if p then .poison else .ok) 0 bs := by
  have answer (t : State) : arcAnswer t r bs p = reply t (if p then .poison else .ok) 0 bs := by
    simp only [arcAnswer, reads r (List.mem_of_getLast? last)]
  unfold arcFill
  rw [busy]
  dsimp only
  rw [arcLand_reads busy alloc reads read, last]
  dsimp only [withAnswers]
  rw [List.getLast?_map, last]
  dsimp only [Option.map_some, Option.getD_some]
  rw [answer]
  refine arcRetry_idle hb ?_
  show u.arcade.waiting[b]! = []
  rw [arcade_of_fill read]
  exact none_waits

end

/-! ### The drain (R386) -/

theorem mem_of_aget {α : Type} {l : List (Nat × α)} {k : Nat} {v : α} (h : aget? l k = some v) : (k, v) ∈ l := by
  induction l with
  | nil => cases h
  | cons x l ih =>
    obtain ⟨k', v'⟩ := x
    rw [aget?] at h
    split at h
    next e =>
      obtain rfl := Option.some.inj h
      rw [e]
      exact List.mem_cons_self
    next => exact List.mem_cons_of_mem _ (ih h)

theorem mem_aset {α : Type} {l : List (Nat × α)} {k : Nat} {v : α} {x : Nat × α} (h : x ∈ aset l k v) : x = (k, v) ∨ x ∈ l := by
  induction l with
  | nil => exact .inl (List.mem_singleton.mp h)
  | cons y l ih =>
    obtain ⟨k', v'⟩ := y
    rw [aset] at h
    split at h
    · exact List.mem_cons.mp h
    · split at h
      · exact (List.mem_cons.mp h).imp_right (List.mem_cons_of_mem _)
      · rcases List.mem_cons.mp h with rfl | h
        · exact .inr List.mem_cons_self
        · exact (ih h).imp_right (List.mem_cons_of_mem _)

/-- No check word holds flipped bits, neither a stored one nor a buffered one (R394, R403). -/
structure ChecksSound (s : State) : Prop where
  stored : s.chkErr = []
  buffered : ∀ c : Fin 4, ∀ b ∈ s.dram[c].checks, b.2.rest = 0

section
variable {s : State}

theorem ChecksSound.of_all (stored : s.chkErr = [])
    (buffered : s.dram.toList.all (fun c => c.checks.all (fun b => b.2.rest == 0)) = true) : ChecksSound s where
  stored := stored
  buffered := by
    intro c b hb
    have held : s.dram[c] ∈ s.dram.toList := Vector.mem_toList_iff.mpr (Vector.getElem_mem c.isLt)
    exact beq_iff_eq.mp (List.all_eq_true.mp (List.all_eq_true.mp buffered _ held) b hb)

theorem ChecksSound.checkStored (h : ChecksSound s) (a : Nat) : checkStored s a = (.good, 0) := by
  rw [Machine.checkStored, h.stored]
  rfl

theorem ChecksSound.rest_of_checkBuf (h : ChecksSound s) {a : Nat} {b : CheckBuf} (held : checkBuf s a = some b) : b.rest = 0 := by
  unfold checkBuf at held
  dsimp only at held
  split at held
  next b' listed =>
    split at held
    · obtain rfl := Option.some.inj held
      exact h.buffered _ _ (mem_of_aget listed)
    · cases held
  next => cases held

/-- Another word without flips in a bank's buffer. -/
theorem ChecksSound.modDram (h : ChecksSound s) (c : Fin 4) (bank : Nat) {b : CheckBuf} (hb : b.rest = 0) :
    ChecksSound (modDram s c (fun ch => { ch with checks := aset ch.checks bank b })) where
  stored := h.stored
  buffered := by
    intro k x hx
    by_cases e : k = c
    · subst e
      have hx' : x ∈ aset s.dram[k].checks bank b := by simpa [Machine.modDram] using hx
      rcases mem_aset hx' with rfl | hx'
      · exact hb
      · exact h.buffered k x hx'
    · have other : (Machine.modDram s c (fun ch => { ch with checks := aset ch.checks bank b })).dram[k] = s.dram[k] := by
        simp [Machine.modDram, Fin.val_ne_of_ne (Ne.symm e)]
      rw [other] at hx
      exact h.buffered k x hx

theorem ChecksSound.checkBack (h : ChecksSound s) (c : Fin 4) (bank : Nat) : ChecksSound (checkBack s c bank) := by
  unfold Machine.checkBack
  split
  next b listed =>
    have rest : b.rest = 0 := h.buffered c _ (mem_of_aget listed)
    have put (rb : Nat) : ChecksSound (putChk s rb b.rest) := by
      refine ⟨?_, h.buffered⟩
      rw [putChk, if_pos rest, h.stored]
      rfl
    split
    · exact (put _).modDram c bank rest
    · exact h
  next => exact h

/-- Loading the check word of a row reports nothing. -/
theorem ChecksSound.checkLoad (h : ChecksSound s) (a : Nat) :
    ChecksSound (checkLoad s a) ∧ changesOnly [.chkErr, .dram] s (checkLoad s a) := by
  unfold Machine.checkLoad
  split
  · exact ⟨h, changesOnly_same _ _⟩
  · have back := h.checkBack (dramPlace s a).ch (dramPlace s a).bank
    dsimp only
    rw [back.checkStored]
    refine ⟨back.modDram _ _ ?_, ?_⟩
    · exact congrArg Prod.snd (back.checkStored a)
    · exact (checkFill_kept (checkBack_kept (Kept.same 0x600000 s) rfl _ _) rfl a).changesOnly_of_mask rfl

theorem ChecksSound.checkStore (h : ChecksSound s) (w : Nat) : ChecksSound (checkStore s w) := by
  unfold Machine.checkStore
  split
  · exact h
  next b held => exact h.modDram _ _ (by rw [h.rest_of_checkBuf held, Nat.zero_sub])

/-- The parts that the walk of a drain over lines without errors changes, the lines apart. -/
def walkParts : List Part := [.counters, .wraps, .mem, .poison, .dramErr, .chkErr, .dram]

theorem ChecksSound.dramStoreWord (h : ChecksSound s) (w : Nat) (bs : List Byte) (p : Bool) :
    ChecksSound (dramStoreWord s w bs p) ∧ changesOnly walkParts s (dramStoreWord s w bs p) := by
  obtain ⟨loaded, only⟩ := h.checkLoad w
  have stored := loaded.checkStore w
  refine ⟨⟨stored.stored, stored.buffered⟩, changesOnly_trans (changesOnly_mono only (by decide)) ?_⟩
  exact (setPoison_kept (kept_mem_dramErr (checkStore_kept (Kept.same 0x500060 (Machine.checkLoad s w)) rfl w) rfl
    (Memory.wf_writeBytes _ _)) rfl _ _).changesOnly_of_mask rfl

theorem arcWriteBack_clean (s : State) (bank set way : Nat) {l : ArcLine} (clean : l.dirty = false) :
    arcWriteBack s bank set way l = s := by
  rw [Machine.arcWriteBack, clean, if_neg Bool.false_ne_true]

theorem arcWriteBack_dirty (s : State) (bank set way : Nat) {l : ArcLine} (dirty : l.dirty = true)
    (sound : (lineDecode l.err).1 = .good) :
    arcWriteBack s bank set way l = count (dramStoreWord s (arcLineAddr bank set l.tag) l.data l.poison) 419 := by
  rw [Machine.arcWriteBack, if_pos dirty, lineDecode_sound sound]

theorem ChecksSound.arcWriteBack (h : ChecksSound s) (bank set way : Nat) {l : ArcLine} (sound : (lineDecode l.err).1 = .good) :
    ChecksSound (arcWriteBack s bank set way l) ∧ changesOnly walkParts s (arcWriteBack s bank set way l) := by
  cases dirty : l.dirty with
  | false =>
    rw [arcWriteBack_clean s bank set way dirty]
    exact ⟨h, changesOnly_same _ _⟩
  | true =>
    obtain ⟨checks, only⟩ := h.dramStoreWord (arcLineAddr bank set l.tag) l.data l.poison
    rw [arcWriteBack_dirty s bank set way dirty sound]
    exact ⟨⟨checks.stored, checks.buffered⟩, changesOnly_count only (by decide) (by decide) _⟩

/-- The write-backs of a drain. -/
def walkBack (s : State) : State :=
  forEach s.arcade.lines s (fun t p => arcWriteBack t (p.1 / 16384) (p.1 % 16384 / 16) (p.1 % 16) p.2)

theorem ChecksSound.walkBack (h : ChecksSound s)
    (sound : s.arcade.lines.all (fun p => (lineDecode p.2.err).1 == .good) = true) :
    ChecksSound (walkBack s) ∧ changesOnly walkParts s (walkBack s) := by
  refine List.foldlRecOn s.arcade.lines _ (motive := fun t => ChecksSound t ∧ changesOnly walkParts s t)
    ⟨h, changesOnly_same _ _⟩ ?_
  rintro t ⟨checks, only⟩ line listed
  obtain ⟨checks', only'⟩ := checks.arcWriteBack (line.1 / 16384) (line.1 % 16384 / 16) (line.1 % 16)
    (beq_iff_eq.mp (List.all_eq_true.mp sound line listed))
  exact ⟨checks', changesOnly_trans only only'⟩

/-- A bank without busy miss registers has nothing to land. -/
theorem arcLandAll_idle {b : Nat} (idle : s.arcade.miss[b]! = []) : arcLandAll s b = s := by
  rw [arcLandAll, idle]
  rfl

/-- A drain that finds no register busy and no request or enable waiting ends with the walk. -/
theorem arcDrainDone_idle (draining : arcState s = 2) (idle : s.arcade.miss = #v[[], [], [], []])
    (none_waits : s.arcade.waiting = #v[[], [], [], []]) (no_enable : fget s fldARC_STAT_EN_PEND = 0)
    (walk : changesOnly walkParts s (walkBack s)) :
    arcDrainDone s = fput (fput (setArcLines (walkBack s) []) fldARC_STAT_STATE 0) fldARC_STAT_DRAIN_DONE 1 := by
  have bank_lt {b : Nat} (hb : b ∈ List.range 4) : b < 4 := List.mem_range.mp hb
  have empty : ∀ b < 4, (#v[[], [], [], []] : Vector (List ArcReq) 4)[b]! = [] := by decide
  have empty' : ∀ b < 4, (#v[[], [], [], []] : Vector (List MissReg) 4)[b]! = [] := by decide
  have landed : forEach (List.range 4) s arcLandAll = s :=
    forEach_idle _ _ (fun b hb => arcLandAll_idle (by rw [idle]; exact empty' b (bank_lt hb)))
  have off : fbit (fput (fput (setArcLines (walkBack s) []) fldARC_STAT_STATE 0) fldARC_STAT_DRAIN_DONE 1)
      fldARC_STAT_EN_PEND = false := by
    rw [fbit, fget_fput_fput_apart _ _ _ rfl rfl (apart_of_bits rfl) (apart_of_bits rfl)]
    have same : fget (setArcLines (walkBack s) []) fldARC_STAT_EN_PEND = fget s fldARC_STAT_EN_PEND :=
      fget_of_rd (rd_of_changesOnly walk (by decide) _)
    rw [same, no_enable]
    rfl
  have arcade : (walkBack s).arcade = s.arcade := walk .arcade (by decide)
  unfold arcDrainDone
  rw [if_pos draining, landed]
  dsimp only [fset_eq]
  rw [show arcWalk s = setArcLines (walkBack s) [] from rfl, off, if_neg Bool.false_ne_true]
  refine forEach_idle _ _ (fun b hb => arcRetry_idle (bank_lt hb) ?_)
  show (walkBack s).arcade.waiting[b]! = []
  rw [arcade, none_waits]
  exact empty b (bank_lt hb)

end

/-! ### A request that takes a miss register or merges into one (R380) -/

/-- An accepted request, counted, has changed the miss registers of its bank. -/
def registered (s : State) (r : ArcReq) (k : Nat) (l : List MissReg) : State :=
  setMiss (count (arcAccept s r) k) (arcBank r.addr) l

theorem registered_ends (s : State) (r : ArcReq) (k : Nat) (l : List MissReg) :
    (registered s r k l).arcade.miss[arcBank r.addr]! = l ∧
      counter (registered s r k l) k = counter s k + 1 ∧
      regsBut s (registered s r k l) [regARC_MISS] ∧
      changesOnly [.regs, .arcade, .counters, .wraps, .l1d, .core] s (registered s r k l) := by
  have counted : changesOnly [.regs, .arcade, .counters, .wraps, .l1d, .core] s (count (arcAccept s r) k) :=
    changesOnly_count (changesOnly_mono (changesOnly_arcAccept s r) (by decide)) (by decide) (by decide) k
  have accepted : regsBut s (count (arcAccept s r) k) [regARC_MISS] := fun a _ => rd_arcAccept s r a
  refine ⟨miss_setMiss _ (arcBank_lt _) l, ?_, regsBut_trans accepted (regsBut_setMiss _ _ _),
    changesOnly_trans counted (changesOnly_mono (changesOnly_setMiss _ _ _) (by decide))⟩
  rw [registered, counter_setMiss, counter_count_same, counter_arcAccept]

section
variable {s : State} {r : ArcReq}

theorem arcRequest_takes (usable : stagingUsable s r.addr = true) (no_register : missIndex s r.addr = none)
    (absent : arcFind s r.addr = none) (free : (s.arcade.miss[arcBank r.addr]!).length < 16) (on : arcState s = 1) :
    arcRequest s r = registered s r (410 + 2 * arcBank r.addr)
      (s.arcade.miss[arcBank r.addr]! ++ [⟨eccWord r.addr, arcMayAlloc s r.cls, r.cls, [r]⟩]) := by
  rw [arcRequest_misses usable no_register absent, arcPrimary_takes free, arcTakeReg_on ((arcState_arcAccept s r).trans on),
    arcade_arcAccept, arcMayAlloc_arcAccept, registered]

theorem arcRequest_joins {i : Nat} {m : MissReg} (usable : stagingUsable s r.addr = true)
    (register : missIndex s r.addr = some i) (busy : (s.arcade.miss[arcBank r.addr]!)[i]? = some m) (room : m.reqs.length ≤ 8)
    (alloc : m.alloc = true) :
    arcRequest s r = registered s r 417 ((s.arcade.miss[arcBank r.addr]!).set i { m with reqs := m.reqs ++ [r] }) := by
  have busy' : ((arcAccept s r).arcade.miss[arcBank r.addr]!)[i]? = some m := by rw [arcade_arcAccept]; exact busy
  rw [arcRequest_merges usable register busy room, arcMerge_alloc busy' alloc, arcade_arcAccept, registered]

theorem arcRequest_waits (usable : stagingUsable s r.addr = true) (no_register : missIndex s r.addr = none)
    (absent : arcFind s r.addr = none) (full : 16 ≤ (s.arcade.miss[arcBank r.addr]!).length) :
    arcRequest s r = arcWait s r := by
  rw [arcRequest_misses usable no_register absent, arcPrimary_waits full]

theorem arcRequest_reads {w : Nat} {l : ArcLine} (usable : stagingUsable s r.addr = true) (no_register : missIndex s r.addr = none)
    (held : arcFind s r.addr = some (w, l)) (sound : (lineDecode l.err).1 = .good) (read : r.store = none) :
    arcRequest s r =
      reply (arcTouch (count s (409 + 2 * arcBank r.addr)) r.addr w) (if l.poison then .poison else .ok) 0 l.data := by
  have accept : arcAccept s r = s := by simp only [arcAccept, read]
  rw [arcRequest_hits usable no_register held sound, accept, arcServeHit_read w l read]
  simp only [arcAnswer, read]

theorem arcRequest_stores {w : Nat} {l : ArcLine} {new : List Byte} (usable : stagingUsable s r.addr = true)
    (no_register : missIndex s r.addr = none) (held : arcFind s r.addr = some (w, l)) (sound : (lineDecode l.err).1 = .good)
    (store : r.store = some new) :
    arcRequest s r = reply (arcServeHit (arcAccept s r) r w l) .ok 0 [] := by
  rw [arcRequest_hits usable no_register held sound]
  simp only [arcAnswer, store]

end

/-! ### Control (R377, R386) -/

section
variable {s : State}

/-- A write of EN has been answered, with one field of the status changed. -/
def controlled (s : State) (en : Nat) (f : Fld) (x : Nat) : State := reply (fput (fput s fldARC_CTL_EN en) f x) .ok 0 []

theorem controlled_ends (s : State) {en : Nat} {f : Fld} {x : Nat} (ok : f.ok = true) (status : f.addr = regARC_STAT)
    (hen : en < 2) (hx : x < 2 ^ (f.hi + 1 - f.lo)) :
    fget (controlled s en f x) f = x ∧ fget (controlled s en f x) fldARC_CTL_EN = en ∧
      regsBut s (controlled s en f x) [regARC_STAT, regARC_CTL] ∧ changesOnly [.regs, .lastReply] s (controlled s en f x) := by
  have apart : f.apart fldARC_CTL_EN = true := apart_of_addr (by rw [status]; decide)
  refine ⟨?_, ?_, ?_, ?_⟩
  · rw [controlled, reply_fget, fget_fput_fits _ ok hx]
  · rw [controlled, reply_fget, fget_fput_apart _ f _ x ok apart, fget_fput_fits s rfl hen]
  · exact regsBut_reply (regsBut_fput _ (regsBut_fput _ (regsBut_same s _) (by decide)) (by rw [status]; decide)) _ _ _
  · exact changesOnly_reply (changesOnly_fput (changesOnly_fput (changesOnly_same s _) (by decide) _ _) (by decide) _ _)
      (by decide) _ _ _

theorem exec_arcDisable_on (agent : Agent) (on : arcState s = 1) :
    exec (.arcDisable agent) s = .next (controlled s 0 fldARC_STAT_STATE 2) :=
  congrArg (fun t => Host.Outcome.next (reply t .ok 0 [])) (if_pos on)

theorem exec_arcEnable_off (agent : Agent) (off : arcState s = 0) :
    exec (.arcEnable agent) s = .next (controlled s 1 fldARC_STAT_STATE 1) :=
  congrArg (fun t => Host.Outcome.next (reply t .ok 0 [])) (if_pos off)

theorem exec_arcEnable_draining (agent : Agent) (draining : arcState s = 2) :
    exec (.arcEnable agent) s = .next (controlled s 1 fldARC_STAT_EN_PEND 1) := by
  have not_off : ¬ arcState s = 0 := by rw [draining]; decide
  exact congrArg (fun t => Host.Outcome.next (reply t .ok 0 [])) ((if_neg not_off).trans (if_pos draining))

end

/-! ### The statement -/

/-- Settles O37: each command is one of the equations above, and the frames of its operations say what it leaves. -/
theorem cachesFillDrainAndControl : Obligations.CachesFillDrainAndControl := by
  refine ⟨?l1Fill, ?readHit, ?storeHit, ?miss, ?merge, ?wait, ?fill, ?disable, ?enable, ?enablePending, ?drainDone, ?partBad, ?part,
    ?l1Off, ?l1Draining⟩
  case l1Fill =>
    intro s p line m fetching on invalid
    exact ⟨_, congrArg Host.Outcome.next (l1Fill_data_invalid fetching on invalid), rfl,
      changesOnly_modL1 (changesOnly_same s _) p .data (by decide) _⟩
  case readHit =>
    intro s sender addr way l usable no_register held sound
    refine ⟨_, (exec_arcadeRequest sender addr none s).trans (congrArg Host.Outcome.next
      (arcRequest_reads usable no_register held sound rfl)), rfl, rfl, counter_count_same s _, rfl, ?_⟩
    exact changesOnly_reply (changesOnly_trans (changesOnly_count (changesOnly_same s _) (by decide) (by decide) _)
      ((arcTouch_kept (Kept.same 0x20000 _) rfl _ _).changesOnly_of_mask rfl)) (by decide) _ _ _
  case storeHit =>
    intro s sender addr bs way l usable no_register held sound
    refine ⟨_, (exec_arcadeRequest sender addr (some bs) s).trans (congrArg Host.Outcome.next
      (arcRequest_stores usable no_register held sound rfl)), rfl, ?_, ?_, ?_⟩
    · exact (lines_arcServeHit_store way l rfl).trans (by rw [arcade_arcAccept]; rfl)
    · exact (mem_arcServeHit way l).trans (mem_arcAccept s _)
    · exact changesOnly_reply (changesOnly_trans (changesOnly_mono (changesOnly_arcAccept s _) (by decide))
        (changesOnly_mono (changesOnly_arcServeHit _ _ way l) (by decide))) (by decide) _ _ _
  case miss =>
    intro s sender addr store usable no_register absent free on
    exact ⟨_, (exec_arcadeRequest sender addr store s).trans (congrArg Host.Outcome.next
      (arcRequest_takes usable no_register absent free on)), registered_ends s (requestOf sender addr store) _ _⟩
  case merge =>
    intro s sender addr store i m usable register busy room alloc
    exact ⟨_, (exec_arcadeRequest sender addr store s).trans (congrArg Host.Outcome.next
      (arcRequest_joins usable register busy room alloc)), registered_ends s (requestOf sender addr store) _ _⟩
  case wait =>
    intro s sender addr store usable no_register absent full
    refine ⟨_, (exec_arcadeRequest sender addr store s).trans (congrArg Host.Outcome.next
      (arcRequest_waits usable no_register absent full)), waiting_arcWait, ?_, ?_, ?_⟩
    · exact fget_fput_fits _ rfl (by decide)
    · exact regsBut_fput _ (regsBut_same s _) (List.mem_singleton.mpr rfl)
    · exact (arcWait_kept (Kept.same 0x20008 s) rfl _).changesOnly_of_mask rfl
  case fill =>
    intro s u bank reg m r bs p busy alloc none_waits reads last read
    have reads' : ∀ r ∈ m.reqs, r.store = none := fun r hr => Option.isNone_iff_eq_none.mp (List.all_eq_true.mp reads r hr)
    have arcade := arcade_of_fill read
    have lines : u.arcade.lines = s.arcade.lines := by rw [arcade]
    refine ⟨_, congrArg Host.Outcome.next (arcFill_reads bank.isLt busy alloc none_waits reads' last read), ?_, rfl, rfl, rfl, lines, ?_⟩
    · exact (congrArg (fun x : Arcade => x.miss[bank.val]!) arcade).trans (miss_setMiss s bank.isLt _)
    · exact changesOnly_reply ((kept_arcade (Kept.same 0x20000 u) rfl).changesOnly_of_mask rfl) (by decide) _ _ _
  case disable =>
    intro s agent on
    exact ⟨_, exec_arcDisable_on agent on, controlled_ends s rfl rfl (by decide) (by decide)⟩
  case enable =>
    intro s agent off
    exact ⟨_, exec_arcEnable_off agent off, controlled_ends s rfl rfl (by decide) (by decide)⟩
  case enablePending =>
    intro s agent draining
    obtain ⟨pending, -, regs, only⟩ := controlled_ends s (en := 1) (f := fldARC_STAT_EN_PEND) (x := 1) rfl rfl (by decide) (by decide)
    have state : fget (controlled s 1 fldARC_STAT_EN_PEND 1) fldARC_STAT_STATE = arcState s := by
      rw [controlled, reply_fget]
      exact fget_fput_fput_apart s 1 1 rfl rfl (apart_of_addr (by decide)) (apart_of_bits rfl)
    exact ⟨_, exec_arcEnable_draining agent draining, state.trans draining, pending, regs, only⟩
  case drainDone =>
    intro s draining idle none_waits no_enable sound stored buffered
    obtain ⟨checks, walk⟩ := (ChecksSound.of_all stored buffered).walkBack sound
    refine ⟨_, congrArg Host.Outcome.next (arcDrainDone_idle draining idle none_waits no_enable walk), ?_, ?_, rfl, ?_, ?_⟩
    · exact (fget_fput_apart _ fldARC_STAT_DRAIN_DONE fldARC_STAT_STATE 1 rfl (apart_of_bits rfl)).trans (fget_fput_fits _ rfl (by decide))
    · exact fget_fput_fits _ rfl (by decide)
    · have walked : regsBut s (setArcLines (walkBack s) []) [regARC_STAT] := regsBut_of_changesOnly walk (by decide) _
      exact regsBut_fput _ (regsBut_fput _ walked (by decide)) (by decide)
    · have emptied := changesOnly_trans
        (changesOnly_mono (m := .chkErr :: [.regs, .arcade, .counters, .wraps, .mem, .poison, .dramErr, .dram]) walk (by decide))
        ((setArcLines_kept (Kept.same 0x20000 (walkBack s)) rfl []).changesOnly_of_mask rfl)
      exact changesOnly_of_cons (changesOnly_fput (changesOnly_fput emptied (by decide) _ _) (by decide) _ _)
        (checks.stored.trans stored.symm)
  case partBad =>
    intro s agent n mask few
    exact ⟨_, congrArg (fun t => Host.Outcome.next (reply t .ok 0 [])) (if_pos few), fput_reply_ends s rfl (by decide)⟩
  case part =>
    intro s agent n mask many
    exact ⟨_, congrArg (fun t => Host.Outcome.next (reply t .ok 0 [])) (if_neg (Nat.not_lt.mpr many)), fput_reply_ends s rfl mask.isLt⟩
  case l1Off =>
    intro s agent p on landed
    refine ⟨_, congrArg (fun t => Host.Outcome.next (reply t .ok 0 [])) (l1Disable_data_landed on landed), ?_, rfl, ?_, ?_⟩
    · exact fbitAt_fputAt_same s (Nat.add_le_add_left (Nat.le_of_lt_succ p.isLt) 4) (by decide) false
    · exact regsBut_fputAt s fldL1_CTL_DEN p.val false
    · exact changesOnly_reply (changesOnly_modL1 (changesOnly_fput (changesOnly_same s _) (by decide) _ _) p .data (by decide) _)
        (by decide) _ _ _
  case l1Draining =>
    intro s agent p on filling
    refine ⟨_, congrArg (fun t => Host.Outcome.next (reply t .ok 0 [])) (l1Disable_instr_filling on filling), ?_, rfl, ?_, ?_⟩
    · exact fbitAt_fputAt_same s (Nat.add_le_add_left (Nat.le_of_lt_succ p.isLt) 0) (by decide) false
    · exact regsBut_fputAt s fldL1_CTL_IEN p.val false
    · exact changesOnly_reply (changesOnly_modL1 (changesOnly_fput (changesOnly_same s _) (by decide) _ _) p .instr (by decide) _)
        (by decide) _ _ _

end Machine
end Sys2Proof
end
